-- ==== Sys2Proof/Word.lean ====
section
/-! DEFINITION. The words of the part: octets and 32-bit register words (R5). -/

namespace Sys2Proof

/-- An octet. -/
abbrev Byte := BitVec 8

/-- A register word (R5: every register is 32 bits wide). -/
abbrev Word := BitVec 32

end Sys2Proof
end

