-- ==== Sys2Proof/Syntax.lean ====
section
/-! DEFINITION. The commands of the block: one constructor for each row of the table of commands. The first
operand of every command is the instant `t` at which it happens, in LTB nanoseconds since the last release of
chip reset (log 1). Indices that the manual bounds are `Fin`; registers and field operands are bit vectors;
measured levels are signed integers in the unit the docstring names. -/

namespace Sys2Proof

/-- The sender of a bus access, as the fabric source tag names it (R301, R348). -/
inductive Master
  | host
  | coreNs (c : Fin 4)
  | coreS (c : Fin 4)
  | crown
deriving DecidableEq, Repr

/-- Classes of transmit command (R88). -/
inductive TxClass | ack | slot | async | test
deriving DecidableEq, Repr

/-- Who gave a chain its command, and with it what its end means: the acknowledgement arbiter, a beacon of
AMC, a released slot frame, a sleepy-node window of SLP, a plain frame of SLP after an acknowledgement (R225),
a CSMA-CA frame of AMC, a TEST frame. -/
inductive Issuer | ackArbiter | beacon | slot | slp | pend | async | test
deriving DecidableEq, Repr

/-- The transmit parameters of a profile, which a frame copies when it is queued (R154): family, band, rate (rate mode,
MCS or FSK rate), chip rate, OFDM option, order, coding, interleaving, modulation index, pulse, whitening, FCS length,
preamble, SFD and maximum PSDU. -/
structure PhyParm where
  family     : Nat := 0
  band       : Nat := 0
  rate       : Nat := 0
  chipRate   : Nat := 0
  option     : Nat := 0
  fsk4       : Bool := false
  fec        : Bool := false
  interleave : Bool := false
  modIndex   : Nat := 100
  gauss      : Bool := true
  whiten     : Bool := false
  fcs2       : Bool := false
  preamble   : Nat := 8
  sfd        : Nat := 0
  maxPsdu    : Nat := 127
deriving DecidableEq, Repr

/-- A transmit command (R88): a channel by its frequency (the cache slot that holds it is looked up at the
turnaround, R93), a power in 0.25 dB (none: power_set), a start LTB (none: ASAP), a class, the airtime in
microseconds, the profile with its transmit parameters and occupied bandwidth (R154), the wake frames that go ahead of
it (R218) and the PSDU, all with their FCS. `ref` is the issuer's own name for the frame. -/
structure TxCmd where
  id      : Nat
  issuer  : Issuer
  cls     : TxClass
  freq    : Nat
  power   : Option Int
  start   : Option Nat
  airUs   : Nat
  profile : Nat
  occHz   : Nat
  psdu    : List Byte
  ref     : Nat
  phy     : PhyParm := {}
  lead    : List (List Byte) := []
  /-- the channel that the frame is for; `freq` is that of the cache slot within 10 kHz of it (R179) -/
  chan    : Nat := freq
deriving DecidableEq, Repr

/-- The grid-angle targets that the Balance fixes (R45). -/
inductive Target
  | tt (n : Fin 8)
  | epoch
  | beacon (band : Fin 2)
  | window (ctx : Nat) (upset : List Nat)
  | chain (n : Fin 4)
deriving DecidableEq, Repr

/-- The bits of a received PHR after decoding, first-sent bit in bit 0: 8 of families 0, 24 of 1, 16 of 2 and 4, 36 of 3
(R159, R160, R163, R164, R166). -/
structure Phr where
  raw : BitVec 36
deriving DecidableEq, Repr

/-- A complex number in the units of its source: a tap or coefficient of the canceller, a sample. -/
structure Cplx where
  re : Int := 0
  im : Int := 0
deriving DecidableEq, Repr

/-- What the canceller and the detector measured of a transmission (R96, R113): detector code, isolation and
depths in dB; and entries of the Node Table that fail parity where its end reads them (R276). -/
structure TxMeas where
  detAdc : Nat
  iso    : Nat
  ana    : Nat
  dig    : Nat
  upset  : List Nat := []
deriving DecidableEq, Repr

/-- What the command that a register write starts reads: the octets of its memory source, none where that read faults, and
entries of the Node or Prefix Table that fail parity (R276). A master of the cluster may write at a core physical address
`core` (R346) in place of an offset of BAR0. -/
structure BusReads where
  mem   : Option (List Byte) := none
  upset : List Nat := []
  core  : Option Nat := none
deriving DecidableEq, Repr

/-- What an on-request calibration of a channel finds (R92, R96): synthesiser band and DAC setting, transmit IQ and
LO-leakage corrections, the power table from −10 dBm to +14 dBm at the driver in steps of 0.25 dB, and its temperature
coefficient. -/
structure ChanCal where
  band  : Nat := 0
  dac   : Nat := 0
  iq    : Cplx := {}
  lo    : Cplx := {}
  table : List Int := []
  tc    : Int := 0
deriving DecidableEq, Repr

/-- Where a frame that waits for an in-flight tag came from (R24, R26). -/
inductive Port | eth0 | eth1 | host | twin | cluster
deriving DecidableEq, Repr

/-- An access that is no aligned word of BAR0: a read or write of BAR0 (R5), or of a core at a core physical address, with the
octets it writes (R346). -/
inductive NarrowAccess
  | bar0 (write : Bool)
  | core (addr : Nat) (data : Option (List Byte))
deriving DecidableEq, Repr

/-- What PCIe does to the function's MSI-X structures and configuration space (R320, R340): a word of BAR4 is written or read,
the function mask or bus master enable is written, the identification is read. -/
inductive MsixAccess
  | write (off : Fin 4096) (w : Word)
  | read (off : Fin 4096)
  | function (masked : Bool)
  | busMaster (on : Bool)
  | ids
deriving DecidableEq, Repr

/-- An access of the doorbell page (R35, R326). -/
inductive PageAccess | read32 | read64 | write32 | write64
deriving DecidableEq, Repr

/-- Which memory words a route build finds upset: Node Table entries by index, and a line of a context (R276, R296). -/
structure RouteReads where
  upset : List Nat := []
  line  : Option (Fin 3) := none
deriving DecidableEq, Repr

/-- A chain whose calibration completes, with what it found (R92). -/
structure Calibrated where
  chain : Fin 4
  found : ChanCal
deriving DecidableEq, Repr

/-- The level (0.1 dBm) of a lane after cancellation: with `since`, it has stayed at or above cd_thr_eff without a break
from that LTB on; with none, the lane's preamble detector fires for its own PHY mode (R120). -/
structure LevelSeen where
  level : Int
  since : Option Nat := none
deriving DecidableEq, Repr

/-- What a lane of chain's band has in one µs (R106, R107, R113): the band's receiver input at 160 MS/s about the local
oscillator, and for each chain its internal coupler, its SICREF ball and its transmitted baseband, each the newest sample
first. -/
structure SicView where
  lane    : Fin 128
  input   : List Cplx := []
  coupler : List (List Cplx) := []
  sicref  : List (List Cplx) := []
  drive   : List (List Cplx) := []
deriving DecidableEq, Repr

/-- The level of a preamble (dBm) and how many dB it lies above the profile's default detection threshold (R170). -/
structure PreambleSeen where
  level  : Int
  margin : Int := 0
deriving DecidableEq, Repr

/-- An SFD as received: its bits, the RSSI with it, and for MR-OFDM the data subcarriers of the two LTF symbols (R165). -/
structure SfdSeen where
  sfd  : BitVec 16
  rssi : Int
  ltf  : List (Cplx × Cplx) := []
deriving DecidableEq, Repr

/-- A PHR with the pilot subcarriers of its OFDM symbols, phases in 2⁻²⁴ of a turn (R165). Where it comes as code bits of a
coded MR-FSK frame (R167), or as the data subcarriers of its OFDM symbols, each with its number, they give the PHR. -/
structure HeaderSeen where
  phr    : Phr
  pilots : List (List (Int × Int)) := []
  code   : List Nat := []
  data   : List (List (Int × Cplx)) := []
deriving DecidableEq, Repr

/-- Of a payload: whether a sample it used clipped, and the pilots, the code bits or the data subcarriers as in a header;
where there are some, they give the PSDU. -/
structure SamplesSeen where
  clipped : Bool := false
  pilots  : List (List (Int × Int)) := []
  code    : List Nat := []
  data    : List (List (Int × Cplx)) := []
deriving DecidableEq, Repr

/-- A chain that may take an ASYNC frame, with the Node Table entries that the release reads and finds upset. -/
structure AsyncTurn where
  chain : Fin 4
  upset : List Nat := []
deriving DecidableEq, Repr

/-- A prefix length to insert at, with the Prefix Table entries that its moves find upset (R261, R276). -/
structure PrefixLength where
  plen  : BitVec 8
  upset : List Nat := []
deriving DecidableEq, Repr

/-- An entry of the Prefix Table to delete, with the entries that its moves find upset (R261, R276). -/
structure PrefixEntry where
  index : Fin 4096
  upset : List Nat := []
deriving DecidableEq, Repr

/-- The commands: the rows of the table. Operands named `upset` say which memory words, among those that the command
reads, fail their parity check now (R276, R296): entries of the Node or Prefix Table by index, a line of a context. -/
inductive Instr
  -- architecture, registers and claims (chapters 00, 01, 19)
  /-- a BAR0 write of an aligned 32-bit word by a master (R5, R9, R34); `reads` is what the written command reads (a JWL
  job and a CRN image header from memory) -/
  | registerWrite (t : Nat) (m : Master) (off : Nat) (val : Word) (reads : BusReads)
  /-- a BAR0 access that is narrower than 32 bits or not aligned (R5), or an access on the core bus (R346) -/
  | unsupportedAccess (t : Nat) (m : Master) (off : Nat) (octets : Nat) (access : NarrowAccess)
  | claim (t : Nat) (resource : BitVec 6) (owner : BitVec 8)
  | release (t : Nat) (resource : BitVec 6) (owner : BitVec 8)
  | query (t : Nat) (resource : BitVec 6) (owner : BitVec 8)
  -- the frame pipeline (chapters 01, 07, 10, 12)
  /-- the oldest frame record that lane `n` has handed over -/
  | frameRecord (t : Nat) (n : Fin 128) (upset : List Nat)
  | ackArbiterRound (t : Nat)
  | duplicateTest (t : Nat) (tag : Fin 512) (upset : Option (Fin 3))
  | keyDerivation (t : Nat) (tag : Fin 512)
  | uplinkDecrypt (t : Nat) (tag : Fin 512) (ptUpset ntUpset : List Nat) (reasmUpset : Bool)
  | reassemblyTimeout (t : Nat) (i : Fin 4096)
  | reorderRelease (t : Nat) (tag : Fin 512)
  | escEnqueue (t : Nat) (tag : Fin 512)
  | tagAdmission (t : Nat) (port : Port) (upset : List Nat)
  | downlinkIngress (t : Nat) (port : Port) (ptUpset ntUpset : List Nat)
  | routeBuild (t : Nat) (tag : Fin 512) (reads : RouteReads)
  | downlinkSecure (t : Nat) (tag : Fin 512) (upset : Option (Fin 3))
  -- grid angle, local time and the Balance (chapter 02)
  | balEnable (t : Nat)
  | balDisable (t : Nat)
  | cycForce (t : Nat)
  | snap (t : Nat)
  /-- an edge at GRID_ZC, rising or falling -/
  | gridZcEdge (t : Nat) (rising : Bool)
  /-- two consecutive converter samples `s1`, `s2`, the first at LTB `t1`, with the lowest sample of the 1 ms
  before and the highest of the 1 ms after the crossing (R46) -/
  | gridAinCrossing (t t1 : Nat) (s1 s2 lowest highest : Int)
  | crossingMissed (t : Nat)
  | cycleStart (t : Nat)
  | phaseStep (t : Nat)
  | stallStart (t : Nat)
  | stallEnd (t : Nat)
  | targetFix (t : Nat) (target : Target)
  | statisticsEpoch (t : Nat)
  | ttEnable (t : Nat) (n : Fin 8)
  | ttDisable (t : Nat) (n : Fin 8)
  /-- the write of BAL_TT_ANG_HIn -/
  | ttCommit (t : Nat) (n : Fin 8) (hi : BitVec 16)
  | ttFiring (t : Nat) (n : Fin 8)
  | ttPulseEnd (t : Nat) (n : Fin 8)
  /-- the converter burst ends with these signed 12-bit samples -/
  | burstDone (t : Nat) (samples : List (BitVec 12))
  | tciEnable (t : Nat) (n : Fin 4)
  /-- an edge at TCIn at LTB `t` after which the ball keeps its level for `widthNs` -/
  | tciEdge (t : Nat) (n : Fin 4) (rising : Bool) (widthNs : Nat)
  | pop (t : Nat) (n : Fin 4)
  | cmpEnable (t : Nat) (k : Fin 16)
  /-- the write of BAL_CMP_HIk -/
  | cmpCommit (t : Nat) (k : Fin 16) (hi : Word)
  | cmpFire (t : Nat) (k : Fin 16)
  /-- the write of BAL_PTP_SET_NS -/
  | ptpSet (t : Nat) (ns : BitVec 30)
  /-- the write of BAL_PTP_ADJ: signed ns -/
  | ptpAdj (t : Nat) (adj : Word)
  | ppsOutEnable (t : Nat)
  | ppsPulse (t : Nat)
  | ppsPulseEnd (t : Nat)
  | ppsInEdge (t : Nat)
  | ppsInMissing (t : Nat)
  -- receivers (chapter 03); band 0 RFA, 1 RFB
  | rxStartcal (t : Nat) (b : Fin 2)
  /-- with the 16 segment-pair image rejections (dB) and the 20 measured gain steps (0.01 dB) -/
  | rxStartcalDone (t : Nat) (b : Fin 2) (ir : List Nat) (steps : List Int)
  | rxEnable (t : Nat) (b : Fin 2)
  | rxDisable (t : Nat) (b : Fin 2)
  /-- with p, the highest 1 µs mean power of the epoch in 0.1 dBFS over the samples that lie neither in BLANK (R76) nor
  between a transmit step and the last release (R110), none if there is no such sample -/
  | gainEpochEnd (t : Nat) (b : Fin 2) (p : Option Int)
  /-- `clipped` of the last 64 samples are at full code; `fresh`: the condition had not held for 1 µs before -/
  | adcOverload (t : Nat) (b : Fin 2) (clipped : Nat) (fresh : Bool)
  | unscheduledStep (t : Nat) (b : Fin 2)
  | calReq (t : Nat) (b : Fin 2)
  | compatCalStart (t : Nat) (b : Fin 2)
  | blankEnd (t : Nat) (b : Fin 2) (ir : List Nat)
  /-- the blind estimates of the 16 segment pairs (none: pair silent) -/
  | irUpdate (t : Nat) (b : Fin 2) (ir : List (Option Nat))
  | staleSegmentTone (t : Nat) (b : Fin 2) (pair : Fin 16) (ir : Nat)
  /-- the die temperature, 0.1 °C -/
  | filterRetune (t : Nat) (b : Fin 2) (temp : Int)
  -- transmit chains and coexistence (chapter 03); chain 0 TXA0, 1 TXA1, 2 TXB0, 3 TXB1
  | chainStartcal (t : Nat) (n : Fin 4)
  | chainStartcalDone (t : Nat) (n : Fin 4)
  | chainEnable (t : Nat) (n : Fin 4)
  | chainDisable (t : Nat) (n : Fin 4)
  | park (t : Nat) (n : Fin 4)
  | txCommand (t : Nat) (n : Fin 4) (cmd : TxCmd)
  | commandWithdraw (t : Nat) (n : Fin 4) (id : Nat)
  /-- with the level at COEX_PRIO -/
  | turnaroundStart (t : Nat) (n : Fin 4) (prio : Bool)
  | synthLock (t : Nat) (n : Fin 4)
  | lockPoint (t : Nat) (n : Fin 4)
  | transmitStep (t : Nat) (n : Fin 4)
  | firstSymbol (t : Nat) (n : Fin 4)
  | lastSymbol (t : Nat) (n : Fin 4)
  | rampdnComplete (t : Nat) (n : Fin 4) (meas : TxMeas)
  | cacheFill (t : Nat) (n : Fin 4) (slot : Fin 256)
  | cacheEvict (t : Nat) (n : Fin 4) (slot : Fin 256)
  | cacheRead (t : Nat) (n : Fin 4) (slot : Fin 256)
  | oncalStart (t : Nat) (n : Fin 4)
  /-- with what the calibration found -/
  | oncalComplete (t : Nat) (cal : Calibrated)
  | calRetry (t : Nat) (n : Fin 4)
  /-- junction temperature (0.1 °C) and VDD_PA (mV) -/
  | sensorRead (t : Nat) (n : Fin 4) (temp : Int) (vpa : Nat)
  | coexEnable (t : Nat)
  /-- with the level at COEX_PRIO -/
  | coexReqRise (t : Nat) (prio : Bool)
  | coexGrant (t : Nat) (prio : Bool)
  | coexReqFall (t : Nat)
  | coexRevoke (t : Nat) (prio : Bool)
  | reqMaxExpiry (t : Nat)
  -- self-interference canceller (chapter 04)
  /-- with the coefficients after this microsecond, and what lanes of the band have in it -/
  | coeffAdapt (t : Nat) (n : Fin 4) (taps coefs : List Cplx) (views : List SicView)
  /-- a lane on the channel has this level after cancellation (R120) -/
  | collisionDeclared (t : Nat) (n : Fin 4) (lane : Fin 128) (seen : LevelSeen)
  | sicClearEntry (t : Nat) (n : Fin 4) (slot : Fin 256)
  | sicReadEntry (t : Nat) (n : Fin 4) (slot : Fin 256)
  -- lanes (chapter 05)
  | laneCommit (t : Nat) (n : Fin 128) (freq : BitVec 22)
  | laneEnable (t : Nat) (n : Fin 128)
  | laneDisable (t : Nat) (n : Fin 128)
  | selftest (t : Nat) (n : Fin 128)
  | periodicSelftest (t : Nat) (n : Fin 128)
  /-- the stored frame decoded with a good FCS, and its RSSI error in 0.1 dB -/
  | selftestComplete (t : Nat) (n : Fin 128) (decoded : Bool) (rssiErr : Int)
  | unretire (t : Nat) (n : Fin 128)
  | switchDone (t : Nat) (n : Fin 128)
  /-- a preamble of the lane's profile, with its digital gain (0.1 dB) -/
  | preambleDetected (t : Nat) (n : Fin 128) (seen : PreambleSeen) (gain : Nat)
  /-- a second preamble, whose symbol timing differs from the lock by `timingMilli` thousandths of a symbol and
  whose carrier by `freqHz`; the level has the current frame's power removed (R137, R138) -/
  | secondDetection (t : Nat) (n : Fin 128) (seen : PreambleSeen) (gain timingMilli freqHz : Nat)
  | sfdFound (t : Nat) (n : Fin 128) (seen : SfdSeen)
  | sfdTimeout (t : Nat) (n : Fin 128)
  | phrReceived (t : Nat) (n : Fin 128) (seen : HeaderSeen)
  /-- the PSDU with its FCS as decoded, before whitening is removed (R166), the signal-to-noise estimate (0.1 dB)
  and what its samples show -/
  | laneFrameEnd (t : Nat) (n : Fin 128) (psdu : List Byte) (snr10 : Int) (seen : SamplesSeen)
  | parityError (t : Nat) (n : Fin 128)
  | stormWindowEnd (t : Nat) (n : Fin 128)
  /-- the mean in-channel power of the last 128 µs without the settling samples after a marker (R133), dBm (R142) -/
  | edRefresh (t : Nat) (n : Fin 128) (ed : Int)
  | channelRetire (t : Nat) (k : Fin 32)
  -- modem (chapter 06)
  | profileLoad (t : Nat) (k : Fin 32)
  | profileUnload (t : Nat) (k : Fin 32)
  | airtimeQuery (t : Nat) (profile : Fin 32) (psduLen : BitVec 11)
  -- air MAC (chapter 07)
  | amcEnable (t : Nat)
  | amcDisable (t : Nat)
  | asyncStart (t : Nat) (n : Fin 4)
  | backoffExpiry (t : Nat) (n : Fin 4)
  /-- of the wait for the acknowledgement of transmission `ref` -/
  | ackWaitExpiry (t : Nat) (ref : Nat)
  | neighbourBeaconMissed (t : Nat) (k : Fin 32)
  | neighbourHoldExpiry (t : Nat) (k : Fin 32)
  | dwellStep (t : Nat)
  -- sleepy nodes (chapter 08)
  | slpEnable (t : Nat)
  | slpDisable (t : Nat)
  | windowHandover (t : Nat) (ctx : Fin 131072)
  | nodeQuery (t : Nat) (ctx : Fin 131072)
  -- Escapement (chapter 09)
  | escEnable (t : Nat)
  | escDisable (t : Nat)
  | slotframeBoundary (t : Nat)
  | txOccurrenceDecision (t : Nat) (k : Fin 512)
  | rxOccurrenceOpen (t : Nat) (k : Fin 512)
  | rxOccurrenceClose (t : Nat) (k : Fin 512)
  | asyncRelease (t : Nat) (turn : AsyncTurn)
  /-- port 4 + `p`: ETH0, ETH1, HOST, TWIN; for HOST, the posted descriptors (address, length) that memory holds from
  the consumer count of each receive ring on -/
  | wiredPortRelease (t : Nat) (p : Fin 4) (posted : List (Nat × List (Nat × Nat)))
  | subRead (t : Nat) (ctx : Fin 131072)
  | subWrite (t : Nat) (ctx : Fin 131072)
  | subFlush (t : Nat) (ctx : Fin 131072)
  | fuseeBinAdvance (t : Nat) (r : Fin 16)
  -- forwarding (chapter 10); kind 0 primary, 1 alias
  | fwdEnable (t : Nat)
  | fwdDisable (t : Nat)
  | ntLookup (t : Nat) (kind : Fin 2) (upset : List Nat)
  | ntInsertPrimary (t : Nat) (upset : List Nat)
  | ntDelete (t : Nat) (kind : Fin 2) (upset : List Nat)
  | ntSetParent (t : Nat) (upset : List Nat)
  | ntInsertAlias (t : Nat) (upset : List Nat)
  | ntRead (t : Nat) (upset : List Nat)
  | ntRepair (t : Nat) (kind : Fin 2) (upset : List Nat)
  | ptInsert (t : Nat) (place : PrefixLength)
  | ptDelete (t : Nat) (place : PrefixEntry)
  | ptRead (t : Nat) (i : Fin 4096) (upset : Bool)
  -- Context Store (chapter 11)
  | ctxEnable (t : Nat)
  | ctxDisable (t : Nat)
  /-- the bank that failed the march, if one did -/
  | ctxSelftestDone (t : Nat) (badBank : Option (Fin 32))
  | contextRead (t : Nat) (ctx : Fin 131072) (upset : Option (Fin 3))
  | contextWrite (t : Nat) (ctx : Fin 131072) (mask : BitVec 3)
  | restore (t : Nat) (ctx : Fin 131072)
  | invalidate (t : Nat) (ctx : Fin 131072)
  | reservationConfirm (t : Nat) (seq : Word)
  | sweepStart (t : Nat)
  | sweepVisit (t : Nat) (ctx : Fin 131072)
  | flush (t : Nat)
  | flushComplete (t : Nat)
  -- Jewel store (chapter 12); window 0 HOST, 1 CORE_NS, 2 CORE_S, 3 CROWN
  | jwlEnable (t : Nat)
  | jwlDisable (t : Nat)
  | lcRead (t : Nat)
  | load (t : Nat) (w : Fin 4) (slot : Fin 1024)
  | derive (t : Nat) (w : Fin 4) (slot : Fin 1024)
  | keyInvalidate (t : Nat) (w : Fin 4) (slot : Fin 1024)
  | revocationSweepEnd (t : Nat) (w : Fin 4)
  | readAttributes (t : Nat) (w : Fin 4) (slot : Fin 1024)
  | attest (t : Nat) (w : Fin 4) (slot : Fin 1024)
  /-- `mem` is what the master's memory holds at the job's address, none where the read faults -/
  | hash (t : Nat) (w : Fin 4) (slot : Fin 1024) (mem : Option (List Byte))
  | hmac (t : Nat) (w : Fin 4) (slot : Fin 1024) (mem : Option (List Byte))
  | verify (t : Nat) (w : Fin 4) (slot : Fin 1024)
  | extend (t : Nat) (w : Fin 4) (m : Fin 1024)
  | windowJobEnd (t : Nat) (w : Fin 4)
  | lifeCycleChange (t : Nat) (w : Fin 4) (target : BitVec 3)
  | lifeCycleChangeDone (t : Nat)
  | cacheFlush (t : Nat)
  -- host rings, doorbells and events (chapter 13)
  | ringEnable (t : Nat) (r : Fin 256)
  | ringDisable (t : Nat) (r : Fin 256)
  /-- an access at an octet of the doorbell page, by the cluster or by PCIe: of a write, the word at the octet and, of a
  64-bit one, the word after it -/
  | doorbell (t : Nat) (off : Fin 4096) (cluster : Bool) (access : PageAccess) (w v : Word)
  /-- what memory holds at the slots read -/
  | descriptorFetch (t : Nat) (r : Fin 256) (descs : List (List Byte))
  /-- what memory holds at the frame's buffers, none where the read faults -/
  | frameAdmission (t : Nat) (r : Fin 256) (data : Option (List Byte))
  /-- what memory holds at the next posted slot; `reads` as of REGISTER_WRITE -/
  | controlDescriptor (t : Nat) (r : Fin 256) (desc : List Byte) (reads : BusReads)
  | controlPollEnd (t : Nat) (r : Fin 256)
  | evtSwraise (t : Nat) (ev : Fin 256)
  | coalesceTimeout (t : Nat) (v : Fin 64)
  | vectorUnmask (t : Nat) (access : MsixAccess)
  | functionLevelReset (t : Nat)
  | pcieLinkDown (t : Nat)
  | d3hotToD0 (t : Nat)
  /-- of a descriptor, write-back, record or image access of ring `r` -/
  | dmaError (t : Nat) (r : Fin 256) (addr : BitVec 64)
  -- mailboxes and semaphores (chapter 14)
  | channelCfg (t : Nat) (m : Master) (n : Fin 32) (val : Word)
  | post (t : Nat) (m : Master) (n : Fin 32) (len : BitVec 4)
  | mbxPop (t : Nat) (m : Master) (n : Fin 32)
  | semTake (t : Nat) (m : Master) (k : Fin 64)
  | semRelease (t : Nat) (m : Master) (k : Fin 64) (val : Word)
  | semForce (t : Nat) (m : Master) (k : Fin 64)
  | clusterLineUnmask (t : Nat) (v : Fin 64)
  -- Ethernet (chapter 15); port 0 ETH0, 1 ETH1
  | ethEnable (t : Nat) (i : Fin 2)
  | ethDisable (t : Nat) (i : Fin 2)
  /-- `result` 0 complete, 1 an SGMII PHY signals 10 or 100 Mb/s, 2 auto-negotiation failed; `pause` is what a
  1000BASE-X partner advertised -/
  | linkUp (t : Nat) (i : Fin 2) (result : Fin 3) (pause : BitVec 2)
  /-- with a frame being received or not -/
  | linkDown (t : Nat) (i : Fin 2) (receiving : Bool)
  /-- a frame with its FCS, whose timestamp point was passed at LTB `ts` -/
  | ethRxFrame (t : Nat) (i : Fin 2) (ts : Nat) (frame : List Byte)
  | fifoToPool (t : Nat) (i : Fin 2)
  | pauseExpiry (t : Nat) (i : Fin 2)
  | pauseWatchdog (t : Nat) (i : Fin 2)
  | holdoffEnd (t : Nat) (i : Fin 2)
  | pauseSend (t : Nat) (i : Fin 2)
  /-- of the frame whose timestamp point was passed at LTB `ts` -/
  | ethTxEnd (t : Nat) (i : Fin 2) (ts : Nat)
  | standby (t : Nat) (i : Fin 2) (on : Bool)
  -- twin (chapter 16)
  | twnEnable (t : Nat)
  | twnDisable (t : Nat)
  | pairBeatSend (t : Nat)
  | ethBeatSend (t : Nat)
  | pairBeatReceived (t : Nat) (word : BitVec 40)
  /-- the payload of a heartbeat frame -/
  | ethBeatReceived (t : Nat) (i : Fin 2) (octets : List Byte)
  /-- path 0 pair, 1 Ethernet -/
  | beatMiss (t : Nat) (path : Fin 2)
  | rejoinExpiry (t : Nat)
  | splitBoundary (t : Nat)
  /-- with the credits that the partner grants -/
  | twinLinkUp (t : Nat) (credits : Nat)
  | twinLinkDown (t : Nat)
  /-- kind 0 a forwarded air frame with its profile, RSSI, LQI and grid angle, 1 a mirrored datagram, 2 a WIRED frame -/
  | twinFrameReceived (t : Nat) (kind : Fin 3) (profile : Fin 32) (rssi : Int) (lqi : BitVec 8) (angle : BitVec 48)
      (octets : List Byte)
  | creditReturn (t : Nat) (n : Nat)
  -- the Crown and firmware update (chapter 17)
  /-- what the source holds in its first 256 octets, none where the read faults -/
  | download (t : Nat) (header : Option (List Byte))
  /-- the body as the source holds it, none where its read faults -/
  | bodyCopied (t : Nat) (body : Option (List Byte))
  | verifyDone (t : Nat)
  | abort (t : Nat)
  | activate (t : Nat)
  /-- whether the slot reads back with the body digest -/
  | activationDone (t : Nat) (ok : Bool)
  | confirm (t : Nat) (comp : Fin 4)
  | burnSigner1 (t : Nat)
  | crownBoot (t : Nat)
  -- Chronograph (chapter 18)
  | chrCounterEnable (t : Nat) (k : Fin 64) (en : Bool)
  | chrCounterWrite (t : Nat) (k : Fin 64) (val : Word)
  | trecPop (t : Nat)
  /-- `retired` instructions of core `c` have retired since the last such command, in `active` cycles outside waits and
  with `rises` ends of waits; the last of them has this PC, latency and flags -/
  | instructionSample (t : Nat) (c : Fin 4) (pc : BitVec 64) (latency : BitVec 16) (flags : BitVec 4) (secure : Bool)
      (retired active rises : Nat)
  | samplePop (t : Nat) (c : Fin 4)
  -- power, reset, start-up and faults (chapter 19); temperatures in 0.1 °C
  | pornRise (t : Nat) (boot region twin : BitVec 2) (host gridf refclk : Bool)
  | pornLow (t : Nat)
  | chipResetRelease (t : Nat)
  | vmonWarn (t : Nat)
  | vmonWarnClear (t : Nat)
  | vmonReset (t : Nat)
  | railFail (t : Nat)
  | thermalTrip (t : Nat) (rf dig : Int)
  | thermalWarn (t : Nat) (rf dig : Int)
  | d2dLoss (t : Nat)
  | chipResetCommand (t : Nat) (key : BitVec 16)
  | coreResetCommand (t : Nat) (key : BitVec 16) (mask : BitVec 4)
  | watchdogExpiry (t : Nat) (c : Fin 4)
  | coreDomainRelease (t : Nat) (c : Fin 4)
  | kick (t : Nat) (c : Fin 4)
  | watchdogConfig (t : Nat) (c : Fin 4) (en action : Bool) (timeout : BitVec 16)
  | corePower (t : Nat) (mask : BitVec 4)
  | powerStateReq (t : Nat) (target : BitVec 2)
  | powerTransitionDone (t : Nat)
  /-- 0 ETH0, 1 ETH1, 2 host, 3-6 TCI0-TCI3 -/
  | standbyWake (t : Nat) (src : Fin 7)
  | permanentListClear (t : Nat)
  | d2dCrcError (t : Nat)
  /-- with the codes of link speed and width -/
  | pcieLinkUp (t : Nat) (speed width : BitVec 2)
  | d3hotEntry (t : Nat)
  | flrComplete (t : Nat)
  | perstAssertion (t : Nat)
deriving DecidableEq, Repr

/-- The instant of a command: the operand that every constructor has first (log 1). -/
def Instr.time : Instr → Nat
  | .registerWrite t _ _ _ _ => t
  | .unsupportedAccess t _ _ _ _ => t
  | .claim t _ _ => t
  | .release t _ _ => t
  | .query t _ _ => t
  | .frameRecord t _ _ => t
  | .ackArbiterRound t => t
  | .duplicateTest t _ _ => t
  | .keyDerivation t _ => t
  | .uplinkDecrypt t _ _ _ _ => t
  | .reassemblyTimeout t _ => t
  | .reorderRelease t _ => t
  | .escEnqueue t _ => t
  | .tagAdmission t _ _ => t
  | .downlinkIngress t _ _ _ => t
  | .routeBuild t _ _ => t
  | .downlinkSecure t _ _ => t
  | .balEnable t => t
  | .balDisable t => t
  | .cycForce t => t
  | .snap t => t
  | .gridZcEdge t _ => t
  | .gridAinCrossing t _ _ _ _ _ => t
  | .crossingMissed t => t
  | .cycleStart t => t
  | .phaseStep t => t
  | .stallStart t => t
  | .stallEnd t => t
  | .targetFix t _ => t
  | .statisticsEpoch t => t
  | .ttEnable t _ => t
  | .ttDisable t _ => t
  | .ttCommit t _ _ => t
  | .ttFiring t _ => t
  | .ttPulseEnd t _ => t
  | .burstDone t _ => t
  | .tciEnable t _ => t
  | .tciEdge t _ _ _ => t
  | .pop t _ => t
  | .cmpEnable t _ => t
  | .cmpCommit t _ _ => t
  | .cmpFire t _ => t
  | .ptpSet t _ => t
  | .ptpAdj t _ => t
  | .ppsOutEnable t => t
  | .ppsPulse t => t
  | .ppsPulseEnd t => t
  | .ppsInEdge t => t
  | .ppsInMissing t => t
  | .rxStartcal t _ => t
  | .rxStartcalDone t _ _ _ => t
  | .rxEnable t _ => t
  | .rxDisable t _ => t
  | .gainEpochEnd t _ _ => t
  | .adcOverload t _ _ _ => t
  | .unscheduledStep t _ => t
  | .calReq t _ => t
  | .compatCalStart t _ => t
  | .blankEnd t _ _ => t
  | .irUpdate t _ _ => t
  | .staleSegmentTone t _ _ _ => t
  | .filterRetune t _ _ => t
  | .chainStartcal t _ => t
  | .chainStartcalDone t _ => t
  | .chainEnable t _ => t
  | .chainDisable t _ => t
  | .park t _ => t
  | .txCommand t _ _ => t
  | .commandWithdraw t _ _ => t
  | .turnaroundStart t _ _ => t
  | .synthLock t _ => t
  | .lockPoint t _ => t
  | .transmitStep t _ => t
  | .firstSymbol t _ => t
  | .lastSymbol t _ => t
  | .rampdnComplete t _ _ => t
  | .cacheFill t _ _ => t
  | .cacheEvict t _ _ => t
  | .cacheRead t _ _ => t
  | .oncalStart t _ => t
  | .oncalComplete t _ => t
  | .calRetry t _ => t
  | .sensorRead t _ _ _ => t
  | .coexEnable t => t
  | .coexReqRise t _ => t
  | .coexGrant t _ => t
  | .coexReqFall t => t
  | .coexRevoke t _ => t
  | .reqMaxExpiry t => t
  | .coeffAdapt t _ _ _ _ => t
  | .collisionDeclared t _ _ _ => t
  | .sicClearEntry t _ _ => t
  | .sicReadEntry t _ _ => t
  | .laneCommit t _ _ => t
  | .laneEnable t _ => t
  | .laneDisable t _ => t
  | .selftest t _ => t
  | .periodicSelftest t _ => t
  | .selftestComplete t _ _ _ => t
  | .unretire t _ => t
  | .switchDone t _ => t
  | .preambleDetected t _ _ _ => t
  | .secondDetection t _ _ _ _ _ => t
  | .sfdFound t _ _ => t
  | .sfdTimeout t _ => t
  | .phrReceived t _ _ => t
  | .laneFrameEnd t _ _ _ _ => t
  | .parityError t _ => t
  | .stormWindowEnd t _ => t
  | .edRefresh t _ _ => t
  | .channelRetire t _ => t
  | .profileLoad t _ => t
  | .profileUnload t _ => t
  | .airtimeQuery t _ _ => t
  | .amcEnable t => t
  | .amcDisable t => t
  | .asyncStart t _ => t
  | .backoffExpiry t _ => t
  | .ackWaitExpiry t _ => t
  | .neighbourBeaconMissed t _ => t
  | .neighbourHoldExpiry t _ => t
  | .dwellStep t => t
  | .slpEnable t => t
  | .slpDisable t => t
  | .windowHandover t _ => t
  | .nodeQuery t _ => t
  | .escEnable t => t
  | .escDisable t => t
  | .slotframeBoundary t => t
  | .txOccurrenceDecision t _ => t
  | .rxOccurrenceOpen t _ => t
  | .rxOccurrenceClose t _ => t
  | .asyncRelease t _ => t
  | .wiredPortRelease t _ _ => t
  | .subRead t _ => t
  | .subWrite t _ => t
  | .subFlush t _ => t
  | .fuseeBinAdvance t _ => t
  | .fwdEnable t => t
  | .fwdDisable t => t
  | .ntLookup t _ _ => t
  | .ntInsertPrimary t _ => t
  | .ntDelete t _ _ => t
  | .ntSetParent t _ => t
  | .ntInsertAlias t _ => t
  | .ntRead t _ => t
  | .ntRepair t _ _ => t
  | .ptInsert t _ => t
  | .ptDelete t _ => t
  | .ptRead t _ _ => t
  | .ctxEnable t => t
  | .ctxDisable t => t
  | .ctxSelftestDone t _ => t
  | .contextRead t _ _ => t
  | .contextWrite t _ _ => t
  | .restore t _ => t
  | .invalidate t _ => t
  | .reservationConfirm t _ => t
  | .sweepStart t => t
  | .sweepVisit t _ => t
  | .flush t => t
  | .flushComplete t => t
  | .jwlEnable t => t
  | .jwlDisable t => t
  | .lcRead t => t
  | .load t _ _ => t
  | .derive t _ _ => t
  | .keyInvalidate t _ _ => t
  | .revocationSweepEnd t _ => t
  | .readAttributes t _ _ => t
  | .attest t _ _ => t
  | .hash t _ _ _ => t
  | .hmac t _ _ _ => t
  | .verify t _ _ => t
  | .extend t _ _ => t
  | .windowJobEnd t _ => t
  | .lifeCycleChange t _ _ => t
  | .lifeCycleChangeDone t => t
  | .cacheFlush t => t
  | .ringEnable t _ => t
  | .ringDisable t _ => t
  | .doorbell t _ _ _ _ _ => t
  | .descriptorFetch t _ _ => t
  | .frameAdmission t _ _ => t
  | .controlDescriptor t _ _ _ => t
  | .controlPollEnd t _ => t
  | .evtSwraise t _ => t
  | .coalesceTimeout t _ => t
  | .vectorUnmask t _ => t
  | .functionLevelReset t => t
  | .pcieLinkDown t => t
  | .d3hotToD0 t => t
  | .dmaError t _ _ => t
  | .channelCfg t _ _ _ => t
  | .post t _ _ _ => t
  | .mbxPop t _ _ => t
  | .semTake t _ _ => t
  | .semRelease t _ _ _ => t
  | .semForce t _ _ => t
  | .clusterLineUnmask t _ => t
  | .ethEnable t _ => t
  | .ethDisable t _ => t
  | .linkUp t _ _ _ => t
  | .linkDown t _ _ => t
  | .ethRxFrame t _ _ _ => t
  | .fifoToPool t _ => t
  | .pauseExpiry t _ => t
  | .pauseWatchdog t _ => t
  | .holdoffEnd t _ => t
  | .pauseSend t _ => t
  | .ethTxEnd t _ _ => t
  | .standby t _ _ => t
  | .twnEnable t => t
  | .twnDisable t => t
  | .pairBeatSend t => t
  | .ethBeatSend t => t
  | .pairBeatReceived t _ => t
  | .ethBeatReceived t _ _ => t
  | .beatMiss t _ => t
  | .rejoinExpiry t => t
  | .splitBoundary t => t
  | .twinLinkUp t _ => t
  | .twinLinkDown t => t
  | .twinFrameReceived t _ _ _ _ _ _ => t
  | .creditReturn t _ => t
  | .download t _ => t
  | .bodyCopied t _ => t
  | .verifyDone t => t
  | .abort t => t
  | .activate t => t
  | .activationDone t _ => t
  | .confirm t _ => t
  | .burnSigner1 t => t
  | .crownBoot t => t
  | .chrCounterEnable t _ _ => t
  | .chrCounterWrite t _ _ => t
  | .trecPop t => t
  | .instructionSample t _ _ _ _ _ _ _ _ => t
  | .samplePop t _ => t
  | .pornRise t _ _ _ _ _ _ => t
  | .pornLow t => t
  | .chipResetRelease t => t
  | .vmonWarn t => t
  | .vmonWarnClear t => t
  | .vmonReset t => t
  | .railFail t => t
  | .thermalTrip t _ _ => t
  | .thermalWarn t _ _ => t
  | .d2dLoss t => t
  | .chipResetCommand t _ => t
  | .coreResetCommand t _ _ => t
  | .watchdogExpiry t _ => t
  | .coreDomainRelease t _ => t
  | .kick t _ => t
  | .watchdogConfig t _ _ _ _ => t
  | .corePower t _ => t
  | .powerStateReq t _ => t
  | .powerTransitionDone t => t
  | .standbyWake t _ => t
  | .permanentListClear t => t
  | .d2dCrcError t => t
  | .pcieLinkUp t _ _ => t
  | .d3hotEntry t => t
  | .flrComplete t => t
  | .perstAssertion t => t

end Sys2Proof
end

