-- ==== Sys2Proof/WellFormed.lean ====
section
/-! DEFINITION. Well-formed commands: operands lie in the ranges that the manual gives what they stand for. -/

namespace Sys2Proof

/-- A list has at most `n` elements. -/
def atMost {α : Type} (n : Nat) (l : List α) : Bool := decide (l.length ≤ n)

/-- A signed number lies in a range. -/
def between (lo hi x : Int) : Bool := decide (lo ≤ x ∧ x ≤ hi)

/-- A transmit command (R88, R95, R157): frequency of 22 bits, power of 9 signed bits, one of the 32 profiles, a PSDU of
at most 2,047 octets. -/
def TxCmd.wf (c : TxCmd) : Bool :=
  decide (c.freq < 2 ^ 22) && decide (c.profile < 32) && atMost 2047 c.psdu &&
  match c.power with
  | some p => between (-256) 255 p
  | none => true

/-- An index of the Node Table, and of the Prefix Table (R252, R260). -/
def ntIndex (i : Nat) : Bool := decide (i < 262144)
def ptIndex (i : Nat) : Bool := decide (i < 4096)

/-- The target names something that exists. -/
def Target.wf : Target → Bool
  | .window ctx upset => decide (ctx < 131072) && upset.all ntIndex
  | _ => true

/-- The operands that have a range of their own; a command not named here has only operands whose types say it. -/
def Instr.operandsWf : Instr → Bool
  | .registerWrite _ _ off _ reads =>
    decide (off < 0x200000) && off % 4 == 0 && reads.upset.all ntIndex && reads.core.all (· % 4 == 0)
  | .unsupportedAccess _ _ off n (.bar0 _) => decide (1 ≤ n ∧ n ≤ 4 ∧ off + n ≤ 0x200000) && (n != 4 || off % 4 != 0)
  | .unsupportedAccess _ m _ n (.core _ data) => decide (1 ≤ n ∧ n ≤ 4) && m != .host && data.all (·.length == n)
  | .gridAinCrossing _ _ s1 s2 lo hi =>
    between (-2048) 2047 s1 && between (-2048) 2047 s2 && between (-2048) 2047 lo && between (-2048) 2047 hi
  | .targetFix _ x => x.wf
  | .burstDone _ l => atMost 1024 l
  | .rxStartcalDone _ _ ir steps => ir.length == 16 && steps.length == 20
  | .adcOverload _ _ clipped _ => decide (clipped ≤ 64)
  | .blankEnd _ _ ir => ir.length == 16
  | .irUpdate _ _ ir => ir.length == 16
  | .txCommand _ _ cmd => cmd.wf
  | .oncalComplete _ cal => cal.found.table.length == 97
  | .coeffAdapt _ _ taps coefs _ => taps.length == 8 && coefs.length == 24
  | .rampdnComplete _ _ m => decide (m.detAdc < 4096) && m.upset.all ntIndex
  | .laneFrameEnd _ _ psdu _ _ => atMost 2047 psdu
  | .frameRecord _ _ upset => upset.all ntIndex
  | .uplinkDecrypt _ _ pt nt _ => pt.all ptIndex && nt.all ntIndex
  | .downlinkIngress _ _ pt nt => pt.all ptIndex && nt.all ntIndex
  | .routeBuild _ _ reads => reads.upset.all ntIndex
  | .asyncRelease _ turn => turn.upset.all ntIndex
  | .tagAdmission _ _ upset => upset.all ntIndex
  | .ntLookup _ _ upset => upset.all ntIndex
  | .ntInsertPrimary _ upset => upset.all ntIndex
  | .ntDelete _ _ upset => upset.all ntIndex
  | .ntSetParent _ upset => upset.all ntIndex
  | .ntInsertAlias _ upset => upset.all ntIndex
  | .ntRead _ upset => upset.all ntIndex
  | .ntRepair _ _ upset => upset.all ntIndex
  | .ptInsert _ place => place.upset.all ptIndex
  | .ptDelete _ place => place.upset.all ptIndex
  | .wiredPortRelease _ _ posted => posted.all (fun e => decide (e.1 < 128))
  | .descriptorFetch _ _ descs => atMost 8 descs && descs.all (fun d => d.length == 32)
  | .controlDescriptor _ _ d reads => d.length == 32 && reads.upset.all ntIndex
  | .ethRxFrame _ _ _ frame => atMost 65536 frame
  | _ => true

/-- A command is well-formed. -/
def Instr.wf (i : Instr) : Bool := i.operandsWf

end Sys2Proof
end

