-- ==== Sys2Proof/Decode.lean ====
section
/-! DEFINITION. The words of the commands: the table of commands gives none of its rows any bits, so no word spells a
command. -/

namespace Sys2Proof

/-- The command that a word of the table spells: there is none. -/
def decodeTableWord (_nbits _w : Nat) : Option Instr := none

end Sys2Proof
end

