-- ==== Sys2Proof/Config.lean ====
section
/-! DEFINITION. What one KZ8128 fixes and the manual does not (fuses), and the free values: constants with no
body, so that no proof can see what they are. -/

namespace Sys2Proof

/-- FREE VALUE (log 2). A value the manual leaves open, drawn once for each value of the counter
`State.freeCtr`. -/
opaque Config.freeValue : Nat → Nat

/-- FREE VALUE (log 2). The device's random source (R188, R256, R385, R414, R417): draw number `n`. -/
opaque Config.randomDraw : Nat → Nat

/-- Device identifier fuses (JWL_DEVID, chapter 12). -/
opaque Config.deviceIdLo : BitVec 32
opaque Config.deviceIdHi : BitVec 32

/-- The root secret (slot 0) and the attestation secret (slot 1), in fuses (chapter 12). -/
opaque Config.rootSecret : List (BitVec 8)
opaque Config.attestSecret : List (BitVec 8)

/-- PCI vendor identifier fuses (R320). -/
opaque Config.vendorId : BitVec 16

/-- FREE VALUE (log 2, 323). The octets of the Crown mask ROM and of the boot flash as delivered, where no image lies: the manual
lists neither. -/
opaque Config.romByte : Nat → BitVec 8
opaque Config.flashByte : Nat → BitVec 8

/-- Signer hash 0, programmed into fuses at the final test (R394). -/
opaque Config.signer0 : List (BitVec 8)

/-- FREE VALUE (log 2). The supply coefficient of a chain's driver, found at the final test (R96: vc). -/
opaque Config.supplyCoefficient : Nat → Int

/-- FREE VALUE (log 2). The SFD of a SUN O-QPSK profile at each chip rate, as its two symbols (R160), the seed that each
scrambler field of a SUN OFDM PHR stands for (R164), the scrambler field of each frame sent, and the impulse response of a
profile's channel filter (R126): the manual names them and gives no value. -/
opaque Config.oqpskSfd : Nat → Nat × Nat
opaque Config.scramblerSeed : Nat → BitVec 9
opaque Config.scramblerField : Nat → BitVec 2
opaque Config.channelFilter : Nat → List Int

/-- FREE VALUE (log 2, 51). The rotation of a sample at an offset of so many kHz, so many samples at 160 MS/s before the
newest, as real and imaginary part in units of 2⁻²⁴; and the level (0.1 dBm at the receiver input) that a power of
samples stands for at a gain index: the manual gives neither number format. -/
opaque Config.phasor : Int → Nat → Int × Int
opaque Config.sampleLevel : Nat → Int → Int

/-- FREE VALUE (log 2, 51, 312). The rotation by an angle in 2⁻²⁴ of a turn, as real and imaginary part in units of 2⁻²⁴; the
bits that an option's demapper and decoder make of OFDM symbols, at a MCS or as a PHR; and the bits that the decoder of the
MR-FSK code makes of a word that is no code word: the manual leaves them to the standard and the part. -/
opaque Config.turn : Int → Int × Int
opaque Config.ofdmDecode : Nat → Option Nat → List (List (Int × Int)) → List Nat
opaque Config.fskCorrect : List Nat → List Nat

/-- The largest frame of each kind of a transmit ring (R333: "above the kind's maximum"); the manual names no number
(log 28). -/
opaque Config.frameMax : Nat → Nat

/-- Reset sizes of the eight buffer pools (R282). -/
def Config.poolReset : Nat → Nat
  | 0 => 2048
  | 1 => 8192
  | 2 => 2048
  | 3 => 1536
  | 4 => 1024
  | 5 => 1024
  | 6 => 512
  | _ => 0

end Sys2Proof
end

