-- ==== Sys2Proof/Machine/RegNames.lean ====
section
/-! DEFINITION. The register fields of the register tables of the chapters (R5, R6, R33), each with its BAR0
offset, place in the word, width and reset value, and the offsets of the statistics counters. Where the
manual gives the reset value as "strap" or "fuse" the value here is that of straps 0 and delivered fuses
(log 3, 4); chip reset writes the values of the straps actually sampled. RFA and RFB (and ETH0, ETH1)
have the same registers: the first index says which. -/

namespace Sys2Proof.Machine

/-- A register field: BAR0 offset of its word, lowest bit, width and reset value (R5, R6). -/
structure Fld where
  off : Nat
  lo  : Nat
  w   : Nat
  rst : Nat
deriving DecidableEq, Repr


/-! ### TXC (chapter 03) -/

/-- `TXC_CNT_TX_OK` counts: OK results. -/
def Reg.TXC_CNT_TX_OK (i : Nat) : Nat := 0x50140 + 0x100 * i
/-- `TXC_CNT_NOT_READY` counts: NOT_READY. -/
def Reg.TXC_CNT_NOT_READY (i : Nat) : Nat := 0x50144 + 0x100 * i
/-- `TXC_CNT_LATE` counts: LATE. -/
def Reg.TXC_CNT_LATE (i : Nat) : Nat := 0x50148 + 0x100 * i
/-- `TXC_CNT_NOT_CACHED` counts: NOT_CACHED. -/
def Reg.TXC_CNT_NOT_CACHED (i : Nat) : Nat := 0x5014c + 0x100 * i
/-- `TXC_CNT_LOCK_FAIL` counts: LOCK_FAIL. -/
def Reg.TXC_CNT_LOCK_FAIL (i : Nat) : Nat := 0x50150 + 0x100 * i
/-- `TXC_CNT_COEX_DENIED` counts: COEX_DENIED. -/
def Reg.TXC_CNT_COEX_DENIED (i : Nat) : Nat := 0x50154 + 0x100 * i
/-- `TXC_CNT_HELD` counts: Commands held (R93). -/
def Reg.TXC_CNT_HELD (i : Nat) : Nat := 0x50158 + 0x100 * i
/-- `TXC_CNT_CAL_PREEMPT` counts: Calibrations preempted. -/
def Reg.TXC_CNT_CAL_PREEMPT (i : Nat) : Nat := 0x5015c + 0x100 * i
/-- `TXC_CNT_PWR_LIMIT` counts: Power capped or trim at limit. -/
def Reg.TXC_CNT_PWR_LIMIT (i : Nat) : Nat := 0x50160 + 0x100 * i

/-! ### SIC (chapter 04) -/

/-- `SIC_CNT_CD_ABORT` counts: Transmissions aborted by collision detection. -/
def Reg.SIC_CNT_CD_ABORT (i : Nat) : Nat := 0x60140 + 0x100 * i
/-- `SIC_CNT_CD_NOABORT` counts: Collisions declared on classes outside cd_abort_mask. -/
def Reg.SIC_CNT_CD_NOABORT (i : Nat) : Nat := 0x60144 + 0x100 * i
/-- `SIC_CNT_CD_UNCOVERED` counts: Transmissions with no lane on the channel. -/
def Reg.SIC_CNT_CD_UNCOVERED (i : Nat) : Nat := 0x60148 + 0x100 * i
/-- `SIC_CNT_CD_UNARMED` counts: Transmissions otherwise unarmed (R119). -/
def Reg.SIC_CNT_CD_UNARMED (i : Nat) : Nat := 0x6014c + 0x100 * i
/-- `SIC_CNT_TX_STEP` counts: Transmit steps taken for this chain. -/
def Reg.SIC_CNT_TX_STEP (i : Nat) : Nat := 0x60150 + 0x100 * i
/-- `SIC_CNT_RETRAIN` counts: Slots retrained (R114). -/
def Reg.SIC_CNT_RETRAIN (i : Nat) : Nat := 0x60154 + 0x100 * i
/-- `SIC_CNT_TX_OVER_RX` counts: Frames in progress when the chain began on their channel (R122). -/
def Reg.SIC_CNT_TX_OVER_RX (i : Nat) : Nat := 0x60158 + 0x100 * i
/-- `SIC_CNT_LEAK_JUMP` counts: Leakage jumps (R115). -/
def Reg.SIC_CNT_LEAK_JUMP (i : Nat) : Nat := 0x6015c + 0x100 * i

/-! ### CHZ (chapter 05) -/

/-- `CHZ_LANE_CNT_DET` counts: Detections from SEARCH. -/
def Reg.CHZ_LANE_CNT_DET (i : Nat) : Nat := 0x71020 + 0x80 * i
/-- `CHZ_LANE_CNT_FALSE` counts: SFD timeouts and failed PHRs. -/
def Reg.CHZ_LANE_CNT_FALSE (i : Nat) : Nat := 0x71024 + 0x80 * i
/-- `CHZ_LANE_CNT_RESTART` counts: Restarts by the second detector (R137). -/
def Reg.CHZ_LANE_CNT_RESTART (i : Nat) : Nat := 0x71028 + 0x80 * i
/-- `CHZ_LANE_CNT_CAPTURED_OUT` counts: Frames abandoned to a stronger frame (R138). -/
def Reg.CHZ_LANE_CNT_CAPTURED_OUT (i : Nat) : Nat := 0x7102c + 0x80 * i
/-- `CHZ_LANE_CNT_FCS_OK` counts: Frames passed to AMC. -/
def Reg.CHZ_LANE_CNT_FCS_OK (i : Nat) : Nat := 0x71030 + 0x80 * i
/-- `CHZ_LANE_CNT_FCS_ERR` counts: Frames dropped on FCS (R142). -/
def Reg.CHZ_LANE_CNT_FCS_ERR (i : Nat) : Nat := 0x71034 + 0x80 * i
/-- `CHZ_LANE_CNT_STEP_MIDFRAME` counts: Markers applied mid-frame (R134). -/
def Reg.CHZ_LANE_CNT_STEP_MIDFRAME (i : Nat) : Nat := 0x71038 + 0x80 * i
/-- `CHZ_LANE_CNT_CLIP` counts: Frames with clipped samples (R134). -/
def Reg.CHZ_LANE_CNT_CLIP (i : Nat) : Nat := 0x7103c + 0x80 * i
/-- `CHZ_LANE_CNT_REASSIGN_DROP` counts: Frames dropped by reassignment or disable. -/
def Reg.CHZ_LANE_CNT_REASSIGN_DROP (i : Nat) : Nat := 0x71040 + 0x80 * i
/-- `CHZ_LANE_CNT_TAG_EXH` counts: Frames with a good FCS refused an in-flight tag (R25). -/
def Reg.CHZ_LANE_CNT_TAG_EXH (i : Nat) : Nat := 0x71044 + 0x80 * i

/-! ### PHY (chapter 06) -/

/-- `PHY_CNT_PHR_HCS` counts: PHR check-field failures (R168). -/
def Reg.PHY_CNT_PHR_HCS : Nat := 0x80040
/-- `PHY_CNT_PHR_RATE` counts: PHRs with an unsupported rate mode, spreading mode or MCS. -/
def Reg.PHY_CNT_PHR_RATE : Nat := 0x80044
/-- `PHY_CNT_PHR_LEN` counts: PHR lengths out of range. -/
def Reg.PHY_CNT_PHR_LEN : Nat := 0x80048
/-- `PHY_CNT_MODESW` counts: Mode-switch PHRs (R167). -/
def Reg.PHY_CNT_MODESW : Nat := 0x8004c

/-! ### AMC (chapter 07) -/

/-- `AMC_CNT_RX_IN` counts: Frame records from lanes. -/
def Reg.AMC_CNT_RX_IN : Nat := 0x90100
/-- `AMC_CNT_ADDR_DROP` counts: Drops under R175, except security level. -/
def Reg.AMC_CNT_ADDR_DROP : Nat := 0x90104
/-- `AMC_CNT_SECLVL_DROP` counts: Security levels 1–4 (R3). -/
def Reg.AMC_CNT_SECLVL_DROP : Nat := 0x90108
/-- `AMC_CNT_ACK_REQ` counts: Acknowledgement requests. -/
def Reg.AMC_CNT_ACK_REQ : Nat := 0x9010c
/-- `AMC_CNT_ACK_GRANT` counts: Grants. -/
def Reg.AMC_CNT_ACK_GRANT : Nat := 0x90110
/-- `AMC_CNT_ACK_BUSY` counts: Refused BUSY, including DUP_REQ. -/
def Reg.AMC_CNT_ACK_BUSY : Nat := 0x90114
/-- `AMC_CNT_ACK_NOCHAN` counts: Refused NO_CHANNEL. -/
def Reg.AMC_CNT_ACK_NOCHAN : Nat := 0x90118
/-- `AMC_CNT_ACK_COEX` counts: Refused COEX. -/
def Reg.AMC_CNT_ACK_COEX : Nat := 0x9011c
/-- `AMC_CNT_ACK_LATE` counts: Refused LATE. -/
def Reg.AMC_CNT_ACK_LATE : Nat := 0x90120
/-- `AMC_CNT_ACK_DWELL` counts: Refused DWELL. -/
def Reg.AMC_CNT_ACK_DWELL : Nat := 0x90124
/-- `AMC_CNT_ACK_TXFAIL` counts: Granted acknowledgements not sent (R182). -/
def Reg.AMC_CNT_ACK_TXFAIL : Nat := 0x90128
/-- `AMC_CNT_ACK_DISPLACE` counts: ASYNC commands set aside. -/
def Reg.AMC_CNT_ACK_DISPLACE : Nat := 0x9012c
/-- `AMC_CNT_ACK_CALPRE` counts: Calibrations preempted by acknowledgements. -/
def Reg.AMC_CNT_ACK_CALPRE : Nat := 0x90130
/-- `AMC_CNT_DUP` counts: Duplicates (R186). -/
def Reg.AMC_CNT_DUP : Nat := 0x90134
/-- `AMC_CNT_CSMA_BUSY` counts: Busy CCAs. -/
def Reg.AMC_CNT_CSMA_BUSY : Nat := 0x90138
/-- `AMC_CNT_CSMA_CAF` counts: Channel access failures. -/
def Reg.AMC_CNT_CSMA_CAF : Nat := 0x9013c
/-- `AMC_CNT_CSMA_CD` counts: Collision aborts backed off. -/
def Reg.AMC_CNT_CSMA_CD : Nat := 0x90140
/-- `AMC_CNT_TX_ACKED` counts: ASYNC frames acknowledged. -/
def Reg.AMC_CNT_TX_ACKED : Nat := 0x90144
/-- `AMC_CNT_TX_NOACK` counts: ASYNC frames ending NO_ACK. -/
def Reg.AMC_CNT_TX_NOACK : Nat := 0x90148
/-- `AMC_CNT_ACK_RX_LATE` counts: Acknowledgements after the wait. -/
def Reg.AMC_CNT_ACK_RX_LATE : Nat := 0x9014c
/-- `AMC_CNT_EB_SENT` counts: Beacons sent. -/
def Reg.AMC_CNT_EB_SENT : Nat := 0x90150
/-- `AMC_CNT_EB_SKIP` counts: Beacons skipped. -/
def Reg.AMC_CNT_EB_SKIP : Nat := 0x90154
/-- `AMC_CNT_EB_RX` counts: Beacons received. -/
def Reg.AMC_CNT_EB_RX : Nat := 0x90158
/-- `AMC_CNT_NB_MISS` counts: Neighbour beacons missed. -/
def Reg.AMC_CNT_NB_MISS : Nat := 0x9015c
/-- `AMC_CNT_EBR_IGNORED` counts: Requests within ebr_holdoff. -/
def Reg.AMC_CNT_EBR_IGNORED : Nat := 0x90160
/-- `AMC_CNT_RX_OFF` counts: Records dropped while disabled. -/
def Reg.AMC_CNT_RX_OFF : Nat := 0x90164
/-- `AMC_CNT_ASYNC_REFUSED` counts: ASYNC frames refused under R187. -/
def Reg.AMC_CNT_ASYNC_REFUSED : Nat := 0x90168
/-- `AMC_CNT_ACK_SLOT_GRANT` counts: Slot-bound grants. -/
def Reg.AMC_CNT_ACK_SLOT_GRANT : Nat := 0x9016c
/-- `AMC_CNT_NB_FULL` counts: Neighbours not entered (R201). -/
def Reg.AMC_CNT_NB_FULL : Nat := 0x90170
/-- `AMC_CNT_RSV_CONFLICT` counts: Reservation conflicts (R202). -/
def Reg.AMC_CNT_RSV_CONFLICT : Nat := 0x90174
/-- `AMC_CNT_SITE_CLASH` counts: Site identity clashes (R198). -/
def Reg.AMC_CNT_SITE_CLASH : Nat := 0x90178

/-! ### SLP (chapter 08) -/

/-- `SLP_CNT_WIN_SENT` counts: Wake-up transmissions sent in sync. -/
def Reg.SLP_CNT_WIN_SENT : Nat := 0xa0040
/-- `SLP_CNT_FB_SENT` counts: Fallback transmissions sent. -/
def Reg.SLP_CNT_FB_SENT : Nat := 0xa0044
/-- `SLP_CNT_WIN_DEFER` counts: Windows moved (R220). -/
def Reg.SLP_CNT_WIN_DEFER : Nat := 0xa0048
/-- `SLP_CNT_EXTENDED` counts: Covers set by uncertainty (R216). -/
def Reg.SLP_CNT_EXTENDED : Nat := 0xa004c
/-- `SLP_CNT_OOS` counts: Entries to out of sync. -/
def Reg.SLP_CNT_OOS : Nat := 0xa0050
/-- `SLP_CNT_NOACK` counts: Payloads not acknowledged. -/
def Reg.SLP_CNT_NOACK : Nat := 0xa0054
/-- `SLP_CNT_CD_ABORT` counts: Transmissions aborted by collision detection. -/
def Reg.SLP_CNT_CD_ABORT : Nat := 0xa0058
/-- `SLP_CNT_DROP` counts: Frames dropped (R221). -/
def Reg.SLP_CNT_DROP : Nat := 0xa005c
/-- `SLP_CNT_OBS` counts: Observations taken (R211). -/
def Reg.SLP_CNT_OBS : Nat := 0xa0060
/-- `SLP_CNT_OUTLIER` counts: Outlying observations (R213). -/
def Reg.SLP_CNT_OUTLIER : Nat := 0xa0064
/-- `SLP_CNT_PEND` counts: Frames sent after an uplink (R225). -/
def Reg.SLP_CNT_PEND : Nat := 0xa0068

/-! ### ESC (chapter 09) -/

/-- `ESC_CNT_SLOT_SENT` counts: Slot frames released. -/
def Reg.ESC_CNT_SLOT_SENT : Nat := 0xb0200
/-- `ESC_CNT_SLOT_IDLE` counts: Transmit occurrences with no frame to examine. -/
def Reg.ESC_CNT_SLOT_IDLE : Nat := 0xb0204
/-- `ESC_CNT_SLOT_MISS` counts: Transmit occurrences whose frames all failed (R231). -/
def Reg.ESC_CNT_SLOT_MISS : Nat := 0xb0208
/-- `ESC_CNT_SLOT_LATE` counts: Late occurrences (R234). -/
def Reg.ESC_CNT_SLOT_LATE : Nat := 0xb020c
/-- `ESC_CNT_SLOT_FAIL` counts: Slot frames returned (R232). -/
def Reg.ESC_CNT_SLOT_FAIL : Nat := 0xb0210
/-- `ESC_CNT_RX_UNCOVERED` counts: Receive occurrences with no lane (R233). -/
def Reg.ESC_CNT_RX_UNCOVERED : Nat := 0xb0214
/-- `ESC_CNT_ASYNC_SENT` counts: Frames handed to AMC. -/
def Reg.ESC_CNT_ASYNC_SENT : Nat := 0xb0218
/-- `ESC_CNT_ASYNC_NOCHAN` counts: R239. -/
def Reg.ESC_CNT_ASYNC_NOCHAN : Nat := 0xb021c
/-- `ESC_CNT_FUSEE_HOLD` counts: Releases refused by the Fusee. -/
def Reg.ESC_CNT_FUSEE_HOLD : Nat := 0xb0220
/-- `ESC_CNT_FUSEE_BREACH` counts: R248. -/
def Reg.ESC_CNT_FUSEE_BREACH : Nat := 0xb0224
/-- `ESC_CNT_DROP_FULL` counts: SUB_FULL and SVC_FULL. -/
def Reg.ESC_CNT_DROP_FULL : Nat := 0xb0228
/-- `ESC_CNT_DROP_NOBUF` counts: NO_BUFFER. -/
def Reg.ESC_CNT_DROP_NOBUF : Nat := 0xb022c
/-- `ESC_CNT_DROP_LONG` counts: TOO_LONG. -/
def Reg.ESC_CNT_DROP_LONG : Nat := 0xb0230
/-- `ESC_CNT_DROP_EXPIRED` counts: EXPIRED. -/
def Reg.ESC_CNT_DROP_EXPIRED : Nat := 0xb0234
/-- `ESC_CNT_DROP_RETRIES` counts: SLOT_RETRIES. -/
def Reg.ESC_CNT_DROP_RETRIES : Nat := 0xb0238

/-! ### FWD (chapter 10) -/

/-- `FWD_CNT_NT_HIT` counts: Pipeline lookups that hit. -/
def Reg.FWD_CNT_NT_HIT : Nat := 0xc0400
/-- `FWD_CNT_NT_MISS` counts: Pipeline lookups that missed. -/
def Reg.FWD_CNT_NT_MISS : Nat := 0xc0404
/-- `FWD_CNT_NT_RETRY` counts: R255. -/
def Reg.FWD_CNT_NT_RETRY : Nat := 0xc0408
/-- `FWD_CNT_NT_RELOC` counts: Relocation moves. -/
def Reg.FWD_CNT_NT_RELOC : Nat := 0xc040c
/-- `FWD_CNT_NT_INS_FAIL` counts: TABLE_FULL. -/
def Reg.FWD_CNT_NT_INS_FAIL : Nat := 0xc0410
/-- `FWD_CNT_PT_MISS` counts: Prefix misses. -/
def Reg.FWD_CNT_PT_MISS : Nat := 0xc0414
/-- `FWD_CNT_PT_DROP` counts: Action DROP. -/
def Reg.FWD_CNT_PT_DROP : Nat := 0xc0418
/-- `FWD_CNT_LEARN` counts: Learning updates. -/
def Reg.FWD_CNT_LEARN : Nat := 0xc041c
/-- `FWD_CNT_MH` counts: Entries to multi-homed. -/
def Reg.FWD_CNT_MH : Nat := 0xc0420
/-- `FWD_CNT_ROUTE_OK` counts: Routes built. -/
def Reg.FWD_CNT_ROUTE_OK : Nat := 0xc0424
/-- `FWD_CNT_ROUTE_FAIL` counts: R269. -/
def Reg.FWD_CNT_ROUTE_FAIL : Nat := 0xc0428
/-- `FWD_CNT_REORDER_LATE` counts: R29. -/
def Reg.FWD_CNT_REORDER_LATE : Nat := 0xc042c
/-- `FWD_CNT_FRAG_TX` counts: R272. -/
def Reg.FWD_CNT_FRAG_TX : Nat := 0xc0430
/-- `FWD_CNT_REASM_OK` counts: Datagrams reassembled. -/
def Reg.FWD_CNT_REASM_OK : Nat := 0xc0434
/-- `FWD_CNT_REASM_DUP` counts: R273. -/
def Reg.FWD_CNT_REASM_DUP : Nat := 0xc0438
/-- `FWD_CNT_REASM_ERR` counts: R273. -/
def Reg.FWD_CNT_REASM_ERR : Nat := 0xc043c
/-- `FWD_CNT_REASM_TIMEOUT` counts: R273. -/
def Reg.FWD_CNT_REASM_TIMEOUT : Nat := 0xc0440
/-- `FWD_CNT_REASM_FULL` counts: R273. -/
def Reg.FWD_CNT_REASM_FULL : Nat := 0xc0444
/-- `FWD_CNT_TO_HOST` counts: R274. -/
def Reg.FWD_CNT_TO_HOST : Nat := 0xc0448
/-- `FWD_CNT_HLIM` counts: R275. -/
def Reg.FWD_CNT_HLIM : Nat := 0xc044c
/-- `FWD_CNT_PAR_ERR` counts: R276. -/
def Reg.FWD_CNT_PAR_ERR : Nat := 0xc0450

/-! ### CTX (chapter 11) -/

/-- `CTX_CNT_CKPT_REC` counts: Sweep and flush records written. -/
def Reg.CTX_CNT_CKPT_REC : Nat := 0xd0300
/-- `CTX_CNT_CKPT_STALL` counts: Milliseconds of sweep stall (R291). -/
def Reg.CTX_CNT_CKPT_STALL : Nat := 0xd0304
/-- `CTX_CNT_RESV_REQ` counts: Reservation records written. -/
def Reg.CTX_CNT_RESV_REQ : Nat := 0xd0308
/-- `CTX_CNT_RESV_WAIT` counts: R289. -/
def Reg.CTX_CNT_RESV_WAIT : Nat := 0xd030c
/-- `CTX_CNT_FC_WAIT` counts: R288, R296, and sec_level drops. -/
def Reg.CTX_CNT_FC_WAIT : Nat := 0xd0310
/-- `CTX_CNT_FC_EXH` counts: R288. -/
def Reg.CTX_CNT_FC_EXH : Nat := 0xd0314
/-- `CTX_CNT_PAR_ERR` counts: R296. -/
def Reg.CTX_CNT_PAR_ERR : Nat := 0xd0318

/-! ### JWL (chapter 12) -/

/-- `JWL_CNT_CCM_OK` counts: Frames secured or verified. -/
def Reg.JWL_CNT_CCM_OK : Nat := 0xe0400
/-- `JWL_CNT_AUTH_FAIL` counts: AUTH_FAIL (R313). -/
def Reg.JWL_CNT_AUTH_FAIL : Nat := 0xe0404
/-- `JWL_CNT_REPLAY` counts: REPLAY. -/
def Reg.JWL_CNT_REPLAY : Nat := 0xe0408
/-- `JWL_CNT_REVOKED` counts: KEY_REVOKED, uplink. -/
def Reg.JWL_CNT_REVOKED : Nat := 0xe040c
/-- `JWL_CNT_NOKEY` counts: NO_KEY, uplink. -/
def Reg.JWL_CNT_NOKEY : Nat := 0xe0410
/-- `JWL_CNT_POLICY` counts: UNSECURED, LEVEL_LOW, FC_SUPPRESSED, BAD_KEYID. -/
def Reg.JWL_CNT_POLICY : Nat := 0xe0414
/-- `JWL_CNT_TX_DROP` counts: Downlink drops (R315). -/
def Reg.JWL_CNT_TX_DROP : Nat := 0xe0418
/-- `JWL_CNT_CACHE_HIT` counts: Cache hits. -/
def Reg.JWL_CNT_CACHE_HIT : Nat := 0xe041c
/-- `JWL_CNT_CACHE_MISS` counts: Derivations. -/
def Reg.JWL_CNT_CACHE_MISS : Nat := 0xe0420
/-- `JWL_CNT_DERIV_WAIT` counts: Frames that waited on a full queue (R311). -/
def Reg.JWL_CNT_DERIV_WAIT : Nat := 0xe0424
/-- `JWL_CNT_DENIED` counts: ACCESS, LC_DENIED and foreign-window writes. -/
def Reg.JWL_CNT_DENIED : Nat := 0xe0428

/-! ### HIF (chapter 13) -/

/-- `HIF_CNT_DB` counts: Doorbells accepted. -/
def Reg.HIF_CNT_DB : Nat := 0xf0600
/-- `HIF_CNT_DB_BAD` counts: Doorbells refused BAD_DB. -/
def Reg.HIF_CNT_DB_BAD : Nat := 0xf0604
/-- `HIF_CNT_DB_FOREIGN` counts: R327. -/
def Reg.HIF_CNT_DB_FOREIGN : Nat := 0xf0608
/-- `HIF_CNT_RX_FRAMES` counts: Frames delivered to receive rings. -/
def Reg.HIF_CNT_RX_FRAMES : Nat := 0xf060c
/-- `HIF_CNT_TX_FRAMES` counts: Frames admitted from transmit rings. -/
def Reg.HIF_CNT_TX_FRAMES : Nat := 0xf0610
/-- `HIF_CNT_CMPL_DISCARD` counts: R321. -/
def Reg.HIF_CNT_CMPL_DISCARD : Nat := 0xf0614
/-- `HIF_CNT_DMA_ERR` counts: R342. -/
def Reg.HIF_CNT_DMA_ERR : Nat := 0xf0618
/-- `HIF_CNT_MSG` counts: Interrupt messages sent. -/
def Reg.HIF_CNT_MSG : Nat := 0xf061c

/-! ### MBX (chapter 14) -/

/-- `MBX_CNT_POST` counts: Messages posted. -/
def Reg.MBX_CNT_POST : Nat := 0x110600
/-- `MBX_CNT_COLLISION` counts: R352. -/
def Reg.MBX_CNT_COLLISION : Nat := 0x110604
/-- `MBX_CNT_PD_ERR` counts: R355. -/
def Reg.MBX_CNT_PD_ERR : Nat := 0x110608
/-- `MBX_CNT_FOREIGN` counts: R350. -/
def Reg.MBX_CNT_FOREIGN : Nat := 0x11060c
/-- `MBX_CNT_SEM_BADREL` counts: R357. -/
def Reg.MBX_CNT_SEM_BADREL : Nat := 0x110610

/-! ### ETH (chapter 15) -/

/-- `ETH_CNT_RX_OK` counts: Frames accepted. -/
def Reg.ETH_CNT_RX_OK (i : Nat) : Nat := 0x120400 + 0x10000 * i
/-- `ETH_CNT_RX_FCS_ERR` counts: R363, R362. -/
def Reg.ETH_CNT_RX_FCS_ERR (i : Nat) : Nat := 0x120404 + 0x10000 * i
/-- `ETH_CNT_RX_RUNT` counts: Below 64 octets. -/
def Reg.ETH_CNT_RX_RUNT (i : Nat) : Nat := 0x120408 + 0x10000 * i
/-- `ETH_CNT_RX_OVERSIZE` counts: Above max_len. -/
def Reg.ETH_CNT_RX_OVERSIZE (i : Nat) : Nat := 0x12040c + 0x10000 * i
/-- `ETH_CNT_RX_FILTER_DROP` counts: VLAN and address drops. -/
def Reg.ETH_CNT_RX_FILTER_DROP (i : Nat) : Nat := 0x120410 + 0x10000 * i
/-- `ETH_CNT_RX_MACCTL` counts: Unsupported or disabled MAC control (R368). -/
def Reg.ETH_CNT_RX_MACCTL (i : Nat) : Nat := 0x120414 + 0x10000 * i
/-- `ETH_CNT_RX_PAUSE` counts: Pause frames consumed. -/
def Reg.ETH_CNT_RX_PAUSE (i : Nat) : Nat := 0x120418 + 0x10000 * i
/-- `ETH_CNT_PAUSE_IGN` counts: Pauses during holdoff. -/
def Reg.ETH_CNT_PAUSE_IGN (i : Nat) : Nat := 0x12041c + 0x10000 * i
/-- `ETH_CNT_PAUSE_WD` counts: R369. -/
def Reg.ETH_CNT_PAUSE_WD (i : Nat) : Nat := 0x120420 + 0x10000 * i
/-- `ETH_CNT_RX_OVF` counts: R366. -/
def Reg.ETH_CNT_RX_OVF (i : Nat) : Nat := 0x120424 + 0x10000 * i
/-- `ETH_CNT_RX_DISCARD` counts: R374. -/
def Reg.ETH_CNT_RX_DISCARD (i : Nat) : Nat := 0x120428 + 0x10000 * i
/-- `ETH_CNT_TX_OK` counts: Frames sent. -/
def Reg.ETH_CNT_TX_OK (i : Nat) : Nat := 0x12042c + 0x10000 * i
/-- `ETH_CNT_TX_PAUSE` counts: R370. -/
def Reg.ETH_CNT_TX_PAUSE (i : Nat) : Nat := 0x120430 + 0x10000 * i
/-- `ETH_CNT_PTP_NOINS` counts: R372. -/
def Reg.ETH_CNT_PTP_NOINS (i : Nat) : Nat := 0x120434 + 0x10000 * i

/-! ### TWN (chapter 16) -/

/-- `TWN_CNT_PAIR_MISS` counts: Pair beats missed. -/
def Reg.TWN_CNT_PAIR_MISS : Nat := 0x140100
/-- `TWN_CNT_ETH_MISS` counts: Ethernet beats missed. -/
def Reg.TWN_CNT_ETH_MISS : Nat := 0x140104
/-- `TWN_CNT_FAIL` counts: Partner failures (R387). -/
def Reg.TWN_CNT_FAIL : Nat := 0x140108
/-- `TWN_CNT_ACK_YIELD` counts: R378. -/
def Reg.TWN_CNT_ACK_YIELD : Nat := 0x14010c
/-- `TWN_CNT_OWNER_DROP` counts: R378. -/
def Reg.TWN_CNT_OWNER_DROP : Nat := 0x140110
/-- `TWN_CNT_FWD_TX` counts: Air frames forwarded. -/
def Reg.TWN_CNT_FWD_TX : Nat := 0x140114
/-- `TWN_CNT_FWD_DUP` counts: R380. -/
def Reg.TWN_CNT_FWD_DUP : Nat := 0x140118
/-- `TWN_CNT_MIRROR_TX` counts: Datagrams mirrored. -/
def Reg.TWN_CNT_MIRROR_TX : Nat := 0x14011c
/-- `TWN_CNT_CREDIT_STALL` counts: µs of credit stall (R384). -/
def Reg.TWN_CNT_CREDIT_STALL : Nat := 0x140120
/-- `TWN_CNT_ROLE_CLASH` counts: R385. -/
def Reg.TWN_CNT_ROLE_CLASH : Nat := 0x140124
/-- `TWN_CNT_PART_EB` counts: Partner beacons. -/
def Reg.TWN_CNT_PART_EB : Nat := 0x140128

/-! ### CRN (chapter 17) -/

/-- `CRN_CNT_REFUSED` counts: Images refused (R395) or failing DIGEST. -/
def Reg.CRN_CNT_REFUSED : Nat := 0x150100
/-- `CRN_CNT_FALLBACK` counts: R401. -/
def Reg.CRN_CNT_FALLBACK : Nat := 0x150104
/-- `CRN_CNT_RECOVERY` counts: R405. -/
def Reg.CRN_CNT_RECOVERY : Nat := 0x150108
/-- `CRN_CNT_DENIED` counts: R406. -/
def Reg.CRN_CNT_DENIED : Nat := 0x15010c

/-! ### CHR (chapter 18) -/

/-- `CHR_CNT_TAG_SKIP` counts: R414. -/
def Reg.CHR_CNT_TAG_SKIP : Nat := 0x160080
/-- `CHR_CNT_TREC_LOST` counts: R416. -/
def Reg.CHR_CNT_TREC_LOST : Nat := 0x160084
/-- `CHR_CNT_IS_LOST` counts: R417, all cores. -/
def Reg.CHR_CNT_IS_LOST : Nat := 0x160088
/-- `CHR_CNT_HIST_SKIP` counts: R418, all units. -/
def Reg.CHR_CNT_HIST_SKIP : Nat := 0x16008c

/-! ### PWR (chapter 19) -/

/-- `PWR_CNT_TRANSIENT` counts: R433. -/
def Reg.PWR_CNT_TRANSIENT : Nat := 0x10100
/-- `PWR_CNT_PERMANENT` counts: Permanent declarations. -/
def Reg.PWR_CNT_PERMANENT : Nat := 0x10104
/-- `PWR_CNT_RETIRE` counts: R434. -/
def Reg.PWR_CNT_RETIRE : Nat := 0x10108
/-- `PWR_CNT_RETIRE_FULL` counts: R434. -/
def Reg.PWR_CNT_RETIRE_FULL : Nat := 0x1010c
/-- `PWR_CNT_WDT` counts: Core watchdog expiries. -/
def Reg.PWR_CNT_WDT : Nat := 0x10110
/-- `PWR_CNT_D2D_ERR` counts: Die-to-die CRC errors. -/
def Reg.PWR_CNT_D2D_ERR : Nat := 0x10114

/-! ### BAL (chapter 02) -/

def Reg.BAL_CTRL_enable : Fld := ⟨0x20000, 0, 1, 0⟩
def Reg.BAL_CTRL_learn_en : Fld := ⟨0x20000, 1, 1, 1⟩
def Reg.BAL_CTRL_steer_en : Fld := ⟨0x20000, 2, 1, 1⟩
def Reg.BAL_CTRL_cyc_force : Fld := ⟨0x20000, 8, 1, 0⟩
def Reg.BAL_CTRL_snap : Fld := ⟨0x20000, 9, 1, 0⟩
def Reg.BAL_STATUS_state : Fld := ⟨0x20004, 0, 2, 0⟩
def Reg.BAL_STATUS_slewing : Fld := ⟨0x20004, 2, 1, 0⟩
def Reg.BAL_STATUS_source_act : Fld := ⟨0x20004, 3, 1, 0⟩
def Reg.BAL_STATUS_freq_range_err : Fld := ⟨0x20004, 4, 1, 0⟩
def Reg.BAL_STATUS_cyc_valid : Fld := ⟨0x20004, 5, 1, 0⟩
def Reg.BAL_STATUS_refclk_unlocked : Fld := ⟨0x20004, 8, 1, 1⟩
def Reg.BAL_GRID_CFG_source : Fld := ⟨0x20008, 0, 2, 2⟩
def Reg.BAL_GRID_CFG_nominal : Fld := ⟨0x20008, 2, 1, 0⟩
def Reg.BAL_GRID_CFG_zc_invert : Fld := ⟨0x20008, 3, 1, 0⟩
def Reg.BAL_GRID_CFG_rl_count : Fld := ⟨0x20008, 4, 8, 8⟩
def Reg.BAL_GRID_CFG_miss_limit : Fld := ⟨0x20008, 12, 4, 3⟩
def Reg.BAL_GRID_CFG_lock_count : Fld := ⟨0x20008, 16, 5, 16⟩
def Reg.BAL_GRID_CFG_hold_safe : Fld := ⟨0x20008, 24, 8, 50⟩
def Reg.BAL_ZC_DELAY_zc_delay : Fld := ⟨0x2000c, 0, 20, 0⟩
def Reg.BAL_LOOP_kp_shift : Fld := ⟨0x20010, 0, 4, 3⟩
def Reg.BAL_LOOP_ki_shift : Fld := ⟨0x20010, 4, 4, 6⟩
def Reg.BAL_LOOP_kavg_shift : Fld := ⟨0x20010, 8, 4, 10⟩
def Reg.BAL_LOOP_steer_shift : Fld := ⟨0x20010, 12, 4, 4⟩
def Reg.BAL_LOOP_slew_max : Fld := ⟨0x20010, 16, 8, 64⟩
def Reg.BAL_LOCK_CFG_window : Fld := ⟨0x20014, 0, 16, 500⟩
def Reg.BAL_LOCK_CFG_lock_thr : Fld := ⟨0x20014, 16, 16, 50⟩
def Reg.BAL_STEP_THR_step_thr : Fld := ⟨0x20018, 0, 16, 1000⟩
def Reg.BAL_SITE_PHASE_site_phase : Fld := ⟨0x2001c, 0, 16, 0⟩
def Reg.BAL_PERIOD_period : Fld := ⟨0x20020, 0, 32, (20000000 * 128)⟩
def Reg.BAL_PHASE_ERR_phase_err : Fld := ⟨0x20024, 0, 32, 0⟩
def Reg.BAL_SNAP_ANGLE_LO_angle_lo : Fld := ⟨0x20028, 0, 32, 0⟩
def Reg.BAL_SNAP_ANGLE_HI_angle_hi : Fld := ⟨0x2002c, 0, 16, 0⟩
def Reg.BAL_SNAP_LTB_LO_ltb_lo : Fld := ⟨0x20030, 0, 32, 0⟩
def Reg.BAL_SNAP_LTB_HI_ltb_hi : Fld := ⟨0x20034, 0, 32, 0⟩
def Reg.BAL_SNAP_PTP_SEC_LO_sec_lo : Fld := ⟨0x20038, 0, 32, 0⟩
def Reg.BAL_SNAP_PTP_SEC_HI_sec_hi : Fld := ⟨0x2003c, 0, 16, 0⟩
def Reg.BAL_SNAP_PTP_NS_ns : Fld := ⟨0x20040, 0, 30, 0⟩
def Reg.BAL_CYC_LOAD_cyc_load : Fld := ⟨0x20044, 0, 32, 0⟩
def Reg.BAL_EPOCH_LEN_epoch_len : Fld := ⟨0x20048, 0, 16, 3000⟩
def Reg.BAL_EPOCH_NUM_epoch_num : Fld := ⟨0x2004c, 0, 32, 0⟩
def Reg.BAL_EPOCH_STAT_unread : Fld := ⟨0x20050, 0, 1, 0⟩
def Reg.BAL_EPOCH_STAT_overrun : Fld := ⟨0x20050, 1, 1, 0⟩
def Reg.BAL_OFFSET_CFG_learn_shift : Fld := ⟨0x20054, 0, 4, 3⟩
def Reg.BAL_OFFSET_CFG_relearn_count : Fld := ⟨0x20054, 4, 4, 4⟩
def Reg.BAL_OFFSET_CFG_outlier_thr : Fld := ⟨0x20054, 8, 16, 1024⟩
def Reg.BAL_OFFSET_CFG_min_conf : Fld := ⟨0x20054, 24, 4, 8⟩
def Reg.BAL_PTP_CTRL_pps_out_en : Fld := ⟨0x20060, 0, 1, 0⟩
def Reg.BAL_PTP_CTRL_pps_in_en : Fld := ⟨0x20060, 1, 1, 0⟩
def Reg.BAL_PTP_CTRL_pps_width : Fld := ⟨0x20060, 2, 10, 100⟩
def Reg.BAL_PTP_RATE_rate : Fld := ⟨0x20064, 0, 32, 0⟩
def Reg.BAL_PTP_SET_SEC_LO_set_sec_lo : Fld := ⟨0x20068, 0, 32, 0⟩
def Reg.BAL_PTP_SET_SEC_HI_set_sec_hi : Fld := ⟨0x2006c, 0, 16, 0⟩
def Reg.BAL_PTP_SET_NS_set_ns : Fld := ⟨0x20070, 0, 30, 0⟩
def Reg.BAL_PTP_ADJ_adj : Fld := ⟨0x20074, 0, 32, 0⟩
def Reg.BAL_PPS_IN_LTB_LO_ltb_lo : Fld := ⟨0x20078, 0, 32, 0⟩
def Reg.BAL_PPS_IN_LTB_HI_ltb_hi : Fld := ⟨0x2007c, 0, 32, 0⟩
def Reg.BAL_PPS_IN_NS_ns : Fld := ⟨0x20080, 0, 30, 0⟩
def Reg.BAL_TT_CTRL_en (i : Nat) : Fld := ⟨0x20100 + 0x20 * i, 0, 1, 0⟩
def Reg.BAL_TT_CTRL_action (i : Nat) : Fld := ⟨0x20100 + 0x20 * i, 1, 3, 0⟩
def Reg.BAL_TT_CTRL_out_sel (i : Nat) : Fld := ⟨0x20100 + 0x20 * i, 4, 1, 0⟩
def Reg.BAL_TT_CTRL_late_pol (i : Nat) : Fld := ⟨0x20100 + 0x20 * i, 5, 1, 0⟩
def Reg.BAL_TT_CTRL_hold_gate (i : Nat) : Fld := ⟨0x20100 + 0x20 * i, 6, 1, 0⟩
def Reg.BAL_TT_CTRL_ev_en (i : Nat) : Fld := ⟨0x20100 + 0x20 * i, 7, 1, 0⟩
def Reg.BAL_TT_CTRL_lead (i : Nat) : Fld := ⟨0x20100 + 0x20 * i, 12, 20, 0⟩
def Reg.BAL_TT_ANG_LO_ang_lo (i : Nat) : Fld := ⟨0x20104 + 0x20 * i, 0, 32, 0⟩
def Reg.BAL_TT_ANG_HI_ang_hi (i : Nat) : Fld := ⟨0x20108 + 0x20 * i, 0, 16, 0⟩
def Reg.BAL_TT_PER_period (i : Nat) : Fld := ⟨0x2010c + 0x20 * i, 0, 32, 0⟩
def Reg.BAL_TT_WIDTH_width (i : Nat) : Fld := ⟨0x20110 + 0x20 * i, 0, 24, 0⟩
def Reg.BAL_TT_STAT_armed (i : Nat) : Fld := ⟨0x20114 + 0x20 * i, 0, 1, 0⟩
def Reg.BAL_TT_STAT_late (i : Nat) : Fld := ⟨0x20114 + 0x20 * i, 1, 1, 0⟩
def Reg.BAL_TT_STAT_burst_done (i : Nat) : Fld := ⟨0x20114 + 0x20 * i, 2, 1, 0⟩
def Reg.BAL_TCI_CTRL_en (i : Nat) : Fld := ⟨0x20200 + 0x20 * i, 0, 1, 0⟩
def Reg.BAL_TCI_CTRL_edge (i : Nat) : Fld := ⟨0x20200 + 0x20 * i, 1, 2, 1⟩
def Reg.BAL_TCI_CTRL_ev_en (i : Nat) : Fld := ⟨0x20200 + 0x20 * i, 3, 1, 0⟩
def Reg.BAL_TCI_CTRL_pop (i : Nat) : Fld := ⟨0x20200 + 0x20 * i, 4, 1, 0⟩
def Reg.BAL_TCI_CTRL_filter (i : Nat) : Fld := ⟨0x20200 + 0x20 * i, 8, 8, 5⟩
def Reg.BAL_TCI_STAT_level (i : Nat) : Fld := ⟨0x20204 + 0x20 * i, 0, 3, 0⟩
def Reg.BAL_TCI_STAT_overrun (i : Nat) : Fld := ⟨0x20204 + 0x20 * i, 3, 1, 0⟩
def Reg.BAL_TCI_STAT_polarity (i : Nat) : Fld := ⟨0x20204 + 0x20 * i, 4, 1, 0⟩
def Reg.BAL_TCI_LTB_LO_ltb_lo (i : Nat) : Fld := ⟨0x20208 + 0x20 * i, 0, 32, 0⟩
def Reg.BAL_TCI_LTB_HI_ltb_hi (i : Nat) : Fld := ⟨0x2020c + 0x20 * i, 0, 32, 0⟩
def Reg.BAL_TCI_ANGLE_LO_angle_lo (i : Nat) : Fld := ⟨0x20210 + 0x20 * i, 0, 32, 0⟩
def Reg.BAL_TCI_ANGLE_HI_angle_hi (i : Nat) : Fld := ⟨0x20214 + 0x20 * i, 0, 16, 0⟩
def Reg.BAL_AIN_CFG_hyst : Fld := ⟨0x20300, 0, 12, 64⟩
def Reg.BAL_CMP_CTRL_en (i : Nat) : Fld := ⟨0x20400 + 0x10 * i, 0, 1, 0⟩
def Reg.BAL_CMP_CTRL_ev_en (i : Nat) : Fld := ⟨0x20400 + 0x10 * i, 1, 1, 0⟩
def Reg.BAL_CMP_CTRL_fired (i : Nat) : Fld := ⟨0x20400 + 0x10 * i, 8, 1, 0⟩
def Reg.BAL_CMP_CTRL_late (i : Nat) : Fld := ⟨0x20400 + 0x10 * i, 9, 1, 0⟩
def Reg.BAL_CMP_CTRL_armed (i : Nat) : Fld := ⟨0x20400 + 0x10 * i, 10, 1, 0⟩
def Reg.BAL_CMP_LO_tgt_lo (i : Nat) : Fld := ⟨0x20404 + 0x10 * i, 0, 32, 0⟩
def Reg.BAL_CMP_HI_tgt_hi (i : Nat) : Fld := ⟨0x20408 + 0x10 * i, 0, 32, 0⟩
def Reg.BAL_CMP_PER_period (i : Nat) : Fld := ⟨0x2040c + 0x10 * i, 0, 32, 0⟩
def Reg.BAL_TSF_STAT_level (i : Nat) : Fld := ⟨0x20340 + 0x4 * i, 0, 7, 0⟩
def Reg.BAL_TSF_STAT_lost (i : Nat) : Fld := ⟨0x20340 + 0x4 * i, 16, 16, 0⟩
/-- `BAL_CNT_ZC_ACC` counts: Accepted crossings: in LOCKED, within the window; in ACQUIRE and HOLDOVER, taken into the consistency test (R49). -/
def Reg.BAL_CNT_ZC_ACC : Nat := 0x20380
/-- `BAL_CNT_ZC_REJ` counts: Rejected crossings: outside the window in LOCKED, or out of range in any state (R49, R50). -/
def Reg.BAL_CNT_ZC_REJ : Nat := 0x20384
/-- `BAL_CNT_TT_LATE` counts: Late or suppressed firings, all triggers. -/
def Reg.BAL_CNT_TT_LATE : Nat := 0x20388
/-- `BAL_CNT_OFS_OUTLIER` counts: Offset outliers. -/
def Reg.BAL_CNT_OFS_OUTLIER : Nat := 0x2038c
/-- `BAL_CNT_OFS_RELEARN` counts: Offset relearns. -/
def Reg.BAL_CNT_OFS_RELEARN : Nat := 0x20390
/-- `BAL_CNT_DRQ_MISS` counts: Delay_Resp without match. -/
def Reg.BAL_CNT_DRQ_MISS : Nat := 0x20394

/-! ### RFX (chapter 03) -/

def Reg.RFX_CTRL_enable (i : Nat) : Fld := ⟨0x30000 + 0x10000 * i, 0, 1, 0⟩
def Reg.RFX_CTRL_cal_mode (i : Nat) : Fld := ⟨0x30000 + 0x10000 * i, 1, 1, 0⟩
def Reg.RFX_CTRL_startcal (i : Nat) : Fld := ⟨0x30000 + 0x10000 * i, 2, 1, 0⟩
def Reg.RFX_CTRL_cal_req (i : Nat) : Fld := ⟨0x30000 + 0x10000 * i, 3, 1, 0⟩
def Reg.RFX_CTRL_gain_manual (i : Nat) : Fld := ⟨0x30000 + 0x10000 * i, 4, 1, 0⟩
def Reg.RFX_STATUS_state (i : Nat) : Fld := ⟨0x30004 + 0x10000 * i, 0, 2, 0⟩
def Reg.RFX_STATUS_cal_done (i : Nat) : Fld := ⟨0x30004 + 0x10000 * i, 2, 1, 0⟩
def Reg.RFX_STATUS_ir_ok (i : Nat) : Fld := ⟨0x30004 + 0x10000 * i, 3, 1, 0⟩
def Reg.RFX_STATUS_region_block (i : Nat) : Fld := ⟨0x30004 + 0x10000 * i, 4, 1, 0⟩
def Reg.RFX_STATUS_compat_cal_pending (i : Nat) : Fld := ⟨0x30004 + 0x10000 * i, 5, 1, 0⟩
def Reg.RFX_STATUS_gain_idx (i : Nat) : Fld := ⟨0x30004 + 0x10000 * i, 8, 5, 0⟩
def Reg.RFX_TUNE_lo_khz (i : Nat) : Fld := ⟨0x30008 + 0x10000 * i, 0, 22, (if i = 0 then 869625 else 2442500)⟩
def Reg.RFX_TUNE_bw (i : Nat) : Fld := ⟨0x30008 + 0x10000 * i, 24, 2, (if i = 0 then 0 else 3)⟩
def Reg.RFX_GAIN_CFG_epoch_us (i : Nat) : Fld := ⟨0x3000c + 0x10000 * i, 0, 14, 1000⟩
def Reg.RFX_GAIN_CFG_hi_thr (i : Nat) : Fld := ⟨0x3000c + 0x10000 * i, 16, 4, 6⟩
def Reg.RFX_GAIN_CFG_lo_thr (i : Nat) : Fld := ⟨0x3000c + 0x10000 * i, 24, 6, 24⟩
def Reg.RFX_GAIN_CFG2_up_epochs (i : Nat) : Fld := ⟨0x30010 + 0x10000 * i, 0, 4, 4⟩
def Reg.RFX_GAIN_CFG2_hold_epochs (i : Nat) : Fld := ⟨0x30010 + 0x10000 * i, 4, 4, 4⟩
def Reg.RFX_GAIN_CFG2_ovl_count (i : Nat) : Fld := ⟨0x30010 + 0x10000 * i, 8, 7, 16⟩
def Reg.RFX_GAIN_CFG2_ovl_step (i : Nat) : Fld := ⟨0x30010 + 0x10000 * i, 16, 2, 3⟩
def Reg.RFX_GAIN_CFG2_gain_man (i : Nat) : Fld := ⟨0x30010 + 0x10000 * i, 24, 5, 20⟩
def Reg.RFX_CAL_CFG_ir_period (i : Nat) : Fld := ⟨0x30014 + 0x10000 * i, 0, 12, 100⟩
def Reg.RFX_CAL_CFG_ir_stale (i : Nat) : Fld := ⟨0x30014 + 0x10000 * i, 12, 8, 10⟩
def Reg.RFX_CAL_CFG_temp_delta (i : Nat) : Fld := ⟨0x30014 + 0x10000 * i, 20, 8, 10⟩
def Reg.RFX_IR_STAT_ir_worst (i : Nat) : Fld := ⟨0x30018 + 0x10000 * i, 0, 8, 0⟩
def Reg.RFX_IR_STAT_ir_seg (i : Nat) : Fld := ⟨0x30018 + 0x10000 * i, 8, 4, 0⟩
def Reg.RFX_IR_STAT_temp (i : Nat) : Fld := ⟨0x30018 + 0x10000 * i, 16, 12, 0⟩
/-- `RFX_CNT_STEP_SCHED` counts: Scheduled steps. -/
def Reg.RFX_CNT_STEP_SCHED (i : Nat) : Nat := 0x30040 + 0x10000 * i
/-- `RFX_CNT_STEP_UNSCHED` counts: Unscheduled steps. -/
def Reg.RFX_CNT_STEP_UNSCHED (i : Nat) : Nat := 0x30044 + 0x10000 * i
/-- `RFX_CNT_OVL` counts: Overloads declared. -/
def Reg.RFX_CNT_OVL (i : Nat) : Nat := 0x30048 + 0x10000 * i
/-- `RFX_CNT_OVL_FLOOR` counts: Overloads at g = 0. -/
def Reg.RFX_CNT_OVL_FLOOR (i : Nat) : Nat := 0x3004c + 0x10000 * i
/-- `RFX_CNT_BLANK_ABORT` counts: Frames dropped to BLANK. -/
def Reg.RFX_CNT_BLANK_ABORT (i : Nat) : Nat := 0x30050 + 0x10000 * i

/-! ### TXC (chapter 03) -/

def Reg.TXC_COEX_CTRL_coex_en : Fld := ⟨0x50000, 0, 1, 0⟩
def Reg.TXC_COEX_CTRL_band : Fld := ⟨0x50000, 1, 2, 2⟩
def Reg.TXC_COEX_CTRL_prio_pol : Fld := ⟨0x50000, 3, 1, 0⟩
def Reg.TXC_COEX_CTRL_grant_pol : Fld := ⟨0x50000, 4, 1, 0⟩
def Reg.TXC_COEX_CTRL_grant_delay : Fld := ⟨0x50000, 8, 8, 2⟩
def Reg.TXC_COEX_CTRL_revoke_lead : Fld := ⟨0x50000, 16, 12, 200⟩
def Reg.TXC_COEX_CFG_req_max : Fld := ⟨0x50004, 0, 16, 10⟩
def Reg.TXC_COEX_STAT_req : Fld := ⟨0x50008, 0, 1, 0⟩
def Reg.TXC_COEX_STAT_prio : Fld := ⟨0x50008, 1, 1, 0⟩
def Reg.TXC_COEX_STAT_grant : Fld := ⟨0x50008, 2, 1, 0⟩
def Reg.TXC_COEX_STAT_req_max_hit : Fld := ⟨0x50008, 3, 1, 0⟩
def Reg.TXC_CTRL_enable (i : Nat) : Fld := ⟨0x50100 + 0x100 * i, 0, 1, 0⟩
def Reg.TXC_CTRL_startcal (i : Nat) : Fld := ⟨0x50100 + 0x100 * i, 1, 1, 0⟩
def Reg.TXC_CTRL_ext_pa (i : Nat) : Fld := ⟨0x50100 + 0x100 * i, 2, 1, 0⟩
def Reg.TXC_CTRL_det_mode (i : Nat) : Fld := ⟨0x50100 + 0x100 * i, 3, 1, 0⟩
def Reg.TXC_CTRL_auto_fill (i : Nat) : Fld := ⟨0x50100 + 0x100 * i, 4, 1, 1⟩
def Reg.TXC_CTRL_paen_pol (i : Nat) : Fld := ⟨0x50100 + 0x100 * i, 5, 1, 0⟩
def Reg.TXC_CTRL_sw_pol (i : Nat) : Fld := ⟨0x50100 + 0x100 * i, 6, 1, 0⟩
def Reg.TXC_STATUS_state (i : Nat) : Fld := ⟨0x50104 + 0x100 * i, 0, 3, 0⟩
def Reg.TXC_STATUS_cal_done (i : Nat) : Fld := ⟨0x50104 + 0x100 * i, 3, 1, 0⟩
def Reg.TXC_STATUS_locked (i : Nat) : Fld := ⟨0x50104 + 0x100 * i, 4, 1, 0⟩
def Reg.TXC_STATUS_cache_count (i : Nat) : Fld := ⟨0x50104 + 0x100 * i, 5, 9, 0⟩
def Reg.TXC_STATUS_cal_fail (i : Nat) : Fld := ⟨0x50104 + 0x100 * i, 14, 1, 0⟩
def Reg.TXC_STATUS_region_block (i : Nat) : Fld := ⟨0x50104 + 0x100 * i, 15, 1, 0⟩
def Reg.TXC_RAMP_ramp_len (i : Nat) : Fld := ⟨0x50108 + 0x100 * i, 0, 4, 8⟩
def Reg.TXC_RAMP_ramp_shape (i : Nat) : Fld := ⟨0x50108 + 0x100 * i, 4, 1, 0⟩
def Reg.TXC_PWR_power_set (i : Nat) : Fld := ⟨0x5010c + 0x100 * i, 0, 9, 56⟩
def Reg.TXC_PWR_power_max (i : Nat) : Fld := ⟨0x5010c + 0x100 * i, 16, 9, 56⟩
def Reg.TXC_EXTPA_pa_gain (i : Nat) : Fld := ⟨0x50110 + 0x100 * i, 0, 9, 0⟩
def Reg.TXC_DET_det_slope (i : Nat) : Fld := ⟨0x50114 + 0x100 * i, 0, 12, 47⟩
def Reg.TXC_DET_det_icpt (i : Nat) : Fld := ⟨0x50114 + 0x100 * i, 16, 12, 3496⟩
def Reg.TXC_CACHE_FREQ_freq_khz (i : Nat) : Fld := ⟨0x50118 + 0x100 * i, 0, 22, 0⟩
def Reg.TXC_CACHE_CMD_slot (i : Nat) : Fld := ⟨0x5011c + 0x100 * i, 0, 8, 0⟩
def Reg.TXC_CACHE_CMD_op (i : Nat) : Fld := ⟨0x5011c + 0x100 * i, 8, 2, 0⟩
def Reg.TXC_CACHE_CMD_busy (i : Nat) : Fld := ⟨0x5011c + 0x100 * i, 16, 1, 0⟩
def Reg.TXC_CACHE_CMD_result (i : Nat) : Fld := ⟨0x5011c + 0x100 * i, 17, 3, 0⟩
def Reg.TXC_CACHE_RD_freq_khz (i : Nat) : Fld := ⟨0x50120 + 0x100 * i, 0, 22, 0⟩
def Reg.TXC_CACHE_RD_valid (i : Nat) : Fld := ⟨0x50120 + 0x100 * i, 31, 1, 0⟩
def Reg.TXC_PARK_park_slot (i : Nat) : Fld := ⟨0x50124 + 0x100 * i, 0, 8, 0⟩
def Reg.TXC_PARK_park (i : Nat) : Fld := ⟨0x50124 + 0x100 * i, 8, 1, 0⟩
def Reg.TXC_CAL_CFG_retry_delay (i : Nat) : Fld := ⟨0x50128 + 0x100 * i, 0, 8, 10⟩
def Reg.TXC_CAL_CFG_retry_max (i : Nat) : Fld := ⟨0x50128 + 0x100 * i, 8, 4, 8⟩
def Reg.TXC_SENSE_temp (i : Nat) : Fld := ⟨0x5012c + 0x100 * i, 0, 12, 0⟩
def Reg.TXC_SENSE_vpa (i : Nat) : Fld := ⟨0x5012c + 0x100 * i, 16, 12, 0⟩

/-! ### SIC (chapter 04) -/

def Reg.SIC_CTRL_ena_a : Fld := ⟨0x60000, 0, 1, 0⟩
def Reg.SIC_CTRL_ena_b : Fld := ⟨0x60000, 1, 1, 0⟩
def Reg.SIC_CTRL_adapt_en : Fld := ⟨0x60000, 2, 1, 1⟩
def Reg.SIC_CTRL_cd_en : Fld := ⟨0x60000, 3, 1, 1⟩
def Reg.SIC_CTRL_ceiling_en : Fld := ⟨0x60000, 4, 1, 1⟩
def Reg.SIC_CFG_tx_headroom : Fld := ⟨0x60004, 0, 5, 6⟩
def Reg.SIC_CFG_ana_min : Fld := ⟨0x60004, 8, 5, 20⟩
def Reg.SIC_CFG_dig_min : Fld := ⟨0x60004, 16, 6, 35⟩
def Reg.SIC_CFG_retrain_count : Fld := ⟨0x60004, 24, 4, 4⟩
def Reg.SIC_CFG_leak_jump : Fld := ⟨0x60004, 28, 4, 6⟩
def Reg.SIC_STATUS_budget_exceeded_a : Fld := ⟨0x60008, 0, 1, 0⟩
def Reg.SIC_STATUS_budget_exceeded_b : Fld := ⟨0x60008, 1, 1, 0⟩
def Reg.SIC_STATUS_g_tx_a : Fld := ⟨0x60008, 8, 5, 20⟩
def Reg.SIC_STATUS_g_tx_b : Fld := ⟨0x60008, 16, 5, 20⟩
def Reg.SIC_CD_CFG_cd_abort_mask (i : Nat) : Fld := ⟨0x60100 + 0x100 * i, 0, 4, 6⟩
def Reg.SIC_CD_CFG_cd_mode (i : Nat) : Fld := ⟨0x60100 + 0x100 * i, 4, 1, 0⟩
def Reg.SIC_CD_CFG_cd_window (i : Nat) : Fld := ⟨0x60100 + 0x100 * i, 8, 8, 16⟩
def Reg.SIC_CD_CFG_cd_thr (i : Nat) : Fld := ⟨0x60100 + 0x100 * i, 16, 12, 3396⟩
def Reg.SIC_ISO_MEAS_iso_meas (i : Nat) : Fld := ⟨0x60104 + 0x100 * i, 0, 8, 0⟩
def Reg.SIC_ISO_MEAS_ana_depth (i : Nat) : Fld := ⟨0x60104 + 0x100 * i, 8, 8, 0⟩
def Reg.SIC_ISO_MEAS_dig_depth (i : Nat) : Fld := ⟨0x60104 + 0x100 * i, 16, 8, 0⟩
def Reg.SIC_ISO_MEAS_slot (i : Nat) : Fld := ⟨0x60104 + 0x100 * i, 24, 8, 0⟩
def Reg.SIC_CD_EFF_cd_thr_eff (i : Nat) : Fld := ⟨0x60108 + 0x100 * i, 0, 12, 3396⟩
def Reg.SIC_REF_ref_sel (i : Nat) : Fld := ⟨0x6010c + 0x100 * i, 0, 1, 0⟩
def Reg.SIC_REF_ref_att (i : Nat) : Fld := ⟨0x6010c + 0x100 * i, 8, 8, 20⟩
def Reg.SIC_SLOT_CMD_slot (i : Nat) : Fld := ⟨0x60110 + 0x100 * i, 0, 8, 0⟩
def Reg.SIC_SLOT_CMD_op (i : Nat) : Fld := ⟨0x60110 + 0x100 * i, 8, 2, 0⟩
def Reg.SIC_SLOT_CMD_busy (i : Nat) : Fld := ⟨0x60110 + 0x100 * i, 16, 1, 0⟩
def Reg.SIC_SLOT_RD_trained (i : Nat) : Fld := ⟨0x60114 + 0x100 * i, 0, 1, 0⟩
def Reg.SIC_SLOT_RD_seeded (i : Nat) : Fld := ⟨0x60114 + 0x100 * i, 1, 1, 0⟩
def Reg.SIC_SLOT_RD_ana_depth (i : Nat) : Fld := ⟨0x60114 + 0x100 * i, 8, 8, 0⟩
def Reg.SIC_SLOT_RD_dig_depth (i : Nat) : Fld := ⟨0x60114 + 0x100 * i, 16, 8, 0⟩
def Reg.SIC_SLOT_RD_iso (i : Nat) : Fld := ⟨0x60114 + 0x100 * i, 24, 8, 0⟩

/-! ### CHZ (chapter 05) -/

def Reg.CHZ_CFG_capture_margin : Fld := ⟨0x70000, 0, 6, 6⟩
def Reg.CHZ_CFG_restart_margin : Fld := ⟨0x70000, 8, 6, 0⟩
def Reg.CHZ_FAULT_CFG_storm_thr : Fld := ⟨0x70004, 0, 10, 200⟩
def Reg.CHZ_FAULT_CFG_storm_win : Fld := ⟨0x70004, 10, 10, 100⟩
def Reg.CHZ_FAULT_CFG_interf_thr : Fld := ⟨0x70004, 20, 8, 171⟩
def Reg.CHZ_FAULT_CFG2_interf_pct : Fld := ⟨0x70008, 0, 7, 50⟩
def Reg.CHZ_FAULT_CFG2_par_limit : Fld := ⟨0x70008, 8, 4, 3⟩
def Reg.CHZ_FAULT_CFG2_selftest_period : Fld := ⟨0x70008, 16, 8, 60⟩
def Reg.CHZ_RETIRED_retired (i : Nat) : Fld := ⟨0x70010 + 0x4 * i, 0, 32, 0⟩
def Reg.CHZ_RCH_FREQ_freq_khz (i : Nat) : Fld := ⟨0x70100 + 0x8 * i, 0, 22, 0⟩
def Reg.CHZ_RCH_FREQ_band (i : Nat) : Fld := ⟨0x70100 + 0x8 * i, 24, 1, 0⟩
def Reg.CHZ_RCH_FREQ_valid (i : Nat) : Fld := ⟨0x70100 + 0x8 * i, 31, 1, 0⟩
def Reg.CHZ_RCH_WIDTH_width_khz (i : Nat) : Fld := ⟨0x70104 + 0x8 * i, 0, 16, 0⟩
def Reg.CHZ_LANE_CTRL_enable (i : Nat) : Fld := ⟨0x71000 + 0x80 * i, 0, 1, 0⟩
def Reg.CHZ_LANE_CTRL_capture_en (i : Nat) : Fld := ⟨0x71000 + 0x80 * i, 1, 1, 1⟩
def Reg.CHZ_LANE_CTRL_defer (i : Nat) : Fld := ⟨0x71000 + 0x80 * i, 2, 1, 1⟩
def Reg.CHZ_LANE_CTRL_selftest (i : Nat) : Fld := ⟨0x71000 + 0x80 * i, 3, 1, 0⟩
def Reg.CHZ_LANE_CTRL_unretire (i : Nat) : Fld := ⟨0x71000 + 0x80 * i, 4, 1, 0⟩
def Reg.CHZ_LANE_CFG_band (i : Nat) : Fld := ⟨0x71004 + 0x80 * i, 0, 1, 0⟩
def Reg.CHZ_LANE_CFG_profile (i : Nat) : Fld := ⟨0x71004 + 0x80 * i, 8, 5, 0⟩
def Reg.CHZ_LANE_FREQ_freq_khz (i : Nat) : Fld := ⟨0x71008 + 0x80 * i, 0, 22, 0⟩
def Reg.CHZ_LANE_STAT_state (i : Nat) : Fld := ⟨0x7100c + 0x80 * i, 0, 3, 0⟩
def Reg.CHZ_LANE_STAT_pending (i : Nat) : Fld := ⟨0x7100c + 0x80 * i, 3, 1, 0⟩
def Reg.CHZ_LANE_STAT_assign_result (i : Nat) : Fld := ⟨0x7100c + 0x80 * i, 4, 3, 0⟩
def Reg.CHZ_LANE_STAT_agc_frozen (i : Nat) : Fld := ⟨0x7100c + 0x80 * i, 7, 1, 0⟩
def Reg.CHZ_LANE_STAT_agc_gain (i : Nat) : Fld := ⟨0x7100c + 0x80 * i, 8, 10, 0⟩
def Reg.CHZ_LANE_ED_ed (i : Nat) : Fld := ⟨0x71010 + 0x80 * i, 0, 8, 128⟩
def Reg.CHZ_LANE_ED_occ_pct (i : Nat) : Fld := ⟨0x71010 + 0x80 * i, 8, 7, 0⟩
def Reg.CHZ_LANE_FAULT_selftest_fail (i : Nat) : Fld := ⟨0x71014 + 0x80 * i, 0, 1, 0⟩
def Reg.CHZ_LANE_FAULT_storm (i : Nat) : Fld := ⟨0x71014 + 0x80 * i, 1, 1, 0⟩
def Reg.CHZ_LANE_FAULT_par_err (i : Nat) : Fld := ⟨0x71014 + 0x80 * i, 2, 1, 0⟩
def Reg.CHZ_LANE_FAULT_occupied (i : Nat) : Fld := ⟨0x71014 + 0x80 * i, 3, 1, 0⟩
def Reg.CHZ_LANE_FAULT_par_count (i : Nat) : Fld := ⟨0x71014 + 0x80 * i, 4, 4, 0⟩
def Reg.CHZ_LANE_RX_rssi (i : Nat) : Fld := ⟨0x71018 + 0x80 * i, 0, 8, 128⟩
def Reg.CHZ_LANE_RX_lqi (i : Nat) : Fld := ⟨0x71018 + 0x80 * i, 8, 8, 0⟩

/-! ### PHY (chapter 06) -/

def Reg.PHY_AIR_Q_profile : Fld := ⟨0x80010, 0, 5, 0⟩
def Reg.PHY_AIR_Q_psdu_len : Fld := ⟨0x80010, 8, 11, 0⟩
def Reg.PHY_AIR_Q_go : Fld := ⟨0x80010, 31, 1, 0⟩
def Reg.PHY_AIR_RES_airtime_us : Fld := ⟨0x80014, 0, 24, 0⟩
def Reg.PHY_AIR_RES_invalid : Fld := ⟨0x80014, 31, 1, 1⟩
def Reg.PHY_PROF_CTRL_valid (i : Nat) : Fld := ⟨0x80100 + 0x20 * i, 0, 1, 0⟩
def Reg.PHY_PROF_CTRL_family (i : Nat) : Fld := ⟨0x80100 + 0x20 * i, 1, 3, 0⟩
def Reg.PHY_PROF_CTRL_band (i : Nat) : Fld := ⟨0x80100 + 0x20 * i, 4, 1, 0⟩
def Reg.PHY_PROF_CTRL_fcs_len (i : Nat) : Fld := ⟨0x80100 + 0x20 * i, 5, 1, 0⟩
def Reg.PHY_PROF_CTRL_whiten (i : Nat) : Fld := ⟨0x80100 + 0x20 * i, 6, 1, 0⟩
def Reg.PHY_PROF_CTRL_gauss (i : Nat) : Fld := ⟨0x80100 + 0x20 * i, 7, 1, 1⟩
def Reg.PHY_PROF_CTRL_load_result (i : Nat) : Fld := ⟨0x80100 + 0x20 * i, 8, 3, 0⟩
def Reg.PHY_PROF_RATE_rate_sel (i : Nat) : Fld := ⟨0x80104 + 0x20 * i, 0, 3, 0⟩
def Reg.PHY_PROF_RATE_chip_rate (i : Nat) : Fld := ⟨0x80104 + 0x20 * i, 3, 1, 0⟩
def Reg.PHY_PROF_RATE_ofdm_option (i : Nat) : Fld := ⟨0x80104 + 0x20 * i, 4, 2, 0⟩
def Reg.PHY_PROF_RATE_fsk4 (i : Nat) : Fld := ⟨0x80104 + 0x20 * i, 6, 1, 0⟩
def Reg.PHY_PROF_RATE_fec (i : Nat) : Fld := ⟨0x80104 + 0x20 * i, 7, 1, 0⟩
def Reg.PHY_PROF_RATE_interleave (i : Nat) : Fld := ⟨0x80104 + 0x20 * i, 8, 1, 0⟩
def Reg.PHY_PROF_RATE_mod_index (i : Nat) : Fld := ⟨0x80104 + 0x20 * i, 16, 8, 100⟩
def Reg.PHY_PROF_SHR_preamble_len (i : Nat) : Fld := ⟨0x80108 + 0x20 * i, 0, 8, 8⟩
def Reg.PHY_PROF_SHR_sfd (i : Nat) : Fld := ⟨0x80108 + 0x20 * i, 16, 16, 0⟩
def Reg.PHY_PROF_DET_det_adj (i : Nat) : Fld := ⟨0x8010c + 0x20 * i, 0, 5, 0⟩
def Reg.PHY_PROF_MAX_max_psdu (i : Nat) : Fld := ⟨0x80110 + 0x20 * i, 0, 11, 127⟩

/-! ### AMC (chapter 07) -/

def Reg.AMC_CTRL_enable : Fld := ⟨0x90000, 0, 1, 0⟩
def Reg.AMC_CTRL_dup_action : Fld := ⟨0x90000, 1, 1, 0⟩
def Reg.AMC_CTRL_ebr_en : Fld := ⟨0x90000, 2, 1, 1⟩
def Reg.AMC_CTRL_eb_fwd : Fld := ⟨0x90000, 3, 1, 1⟩
def Reg.AMC_CTRL_nb_en : Fld := ⟨0x90000, 4, 1, 1⟩
def Reg.AMC_CTRL_enh_grid_ie : Fld := ⟨0x90000, 5, 1, 1⟩
def Reg.AMC_CTRL_eb_en : Fld := ⟨0x90000, 8, 1, 0⟩
def Reg.AMC_STATUS_need_bal : Fld := ⟨0x90004, 0, 1, 1⟩
def Reg.AMC_STATUS_need_lane : Fld := ⟨0x90004, 1, 1, 1⟩
def Reg.AMC_PAN_pan_id : Fld := ⟨0x90008, 0, 16, 65535⟩
def Reg.AMC_PAN_short_addr : Fld := ⟨0x90008, 16, 16, 65534⟩
def Reg.AMC_EUI_LO_eui_lo : Fld := ⟨0x9000c, 0, 32, 0⟩
def Reg.AMC_EUI_HI_eui_hi : Fld := ⟨0x90010, 0, 32, 0⟩
def Reg.AMC_SITE_district_id : Fld := ⟨0x90014, 0, 16, 0⟩
def Reg.AMC_SITE_site_id : Fld := ⟨0x90014, 16, 16, 0⟩
def Reg.AMC_ACK_GAP_gap_2g4 : Fld := ⟨0x90018, 0, 12, 192⟩
def Reg.AMC_ACK_GAP_gap_sun : Fld := ⟨0x90018, 16, 12, 1000⟩
def Reg.AMC_ACK_CFG_refuse_thr : Fld := ⟨0x9001c, 0, 16, 1000⟩
def Reg.AMC_CSMA_CFG_min_be : Fld := ⟨0x90020, 0, 4, 3⟩
def Reg.AMC_CSMA_CFG_max_be : Fld := ⟨0x90020, 4, 4, 5⟩
def Reg.AMC_CSMA_CFG_max_backoffs : Fld := ⟨0x90020, 8, 3, 4⟩
def Reg.AMC_CSMA_CFG_max_retries : Fld := ⟨0x90020, 12, 3, 3⟩
def Reg.AMC_CSMA_CFG_cca_mode : Fld := ⟨0x90020, 16, 2, 2⟩
def Reg.AMC_CSMA_CFG_cca_nolane : Fld := ⟨0x90020, 18, 1, 0⟩
def Reg.AMC_CSMA_CFG2_cca_thr : Fld := ⟨0x90024, 0, 8, 171⟩
def Reg.AMC_CSMA_CFG2_unit_us : Fld := ⟨0x90024, 8, 12, 320⟩
def Reg.AMC_CSMA_CFG2_ack_wait_extra : Fld := ⟨0x90024, 20, 12, 200⟩
def Reg.AMC_DUP_CFG_dup_time : Fld := ⟨0x90028, 0, 16, 500⟩
def Reg.AMC_EB_CFG_eb_period : Fld := ⟨0x9002c, 0, 16, 50⟩
def Reg.AMC_EB_CFG_eb_angle : Fld := ⟨0x9002c, 16, 16, 0⟩
def Reg.AMC_EB_CHANA_freq_khz : Fld := ⟨0x90030, 0, 22, 0⟩
def Reg.AMC_EB_CHANA_profile : Fld := ⟨0x90030, 22, 5, 0⟩
def Reg.AMC_EB_CHANA_valid : Fld := ⟨0x90030, 31, 1, 0⟩
def Reg.AMC_EB_CHANB_freq_khz : Fld := ⟨0x90034, 0, 22, 0⟩
def Reg.AMC_EB_CHANB_profile : Fld := ⟨0x90034, 22, 5, 0⟩
def Reg.AMC_EB_CHANB_valid : Fld := ⟨0x90034, 31, 1, 0⟩
def Reg.AMC_EB_PL_LEN_pl_len : Fld := ⟨0x90038, 0, 7, 0⟩
def Reg.AMC_EBR_CFG_ebr_holdoff : Fld := ⟨0x9003c, 0, 16, 1000⟩
def Reg.AMC_NB_CFG_nb_miss_limit : Fld := ⟨0x90040, 0, 4, 3⟩
def Reg.AMC_NB_CFG_nb_win : Fld := ⟨0x90040, 4, 16, 2048⟩
def Reg.AMC_NB_CFG2_nb_hold : Fld := ⟨0x90044, 0, 16, 1500⟩
def Reg.AMC_DWELL_CFG_dwell_max : Fld := ⟨0x90048, 0, 16, 400⟩
def Reg.AMC_DWELL_CFG_dwell_win : Fld := ⟨0x90048, 16, 6, 20⟩
def Reg.AMC_NB_SEL_entry : Fld := ⟨0x90050, 0, 5, 0⟩
def Reg.AMC_NB_SEL_rsv : Fld := ⟨0x90050, 5, 4, 0⟩
def Reg.AMC_NB_RD0_district_id : Fld := ⟨0x90054, 0, 16, 0⟩
def Reg.AMC_NB_RD0_site_id : Fld := ⟨0x90054, 16, 16, 0⟩
def Reg.AMC_NB_RD1_state : Fld := ⟨0x90058, 0, 2, 0⟩
def Reg.AMC_NB_RD1_miss : Fld := ⟨0x90058, 2, 4, 0⟩
def Reg.AMC_NB_RD1_rsv_count : Fld := ⟨0x90058, 6, 5, 0⟩
def Reg.AMC_NB_RD1_role : Fld := ⟨0x90058, 11, 2, 0⟩
def Reg.AMC_NB_RD1_period : Fld := ⟨0x90058, 16, 16, 0⟩
def Reg.AMC_NB_RD2_last_cycle : Fld := ⟨0x9005c, 0, 32, 0⟩
def Reg.AMC_NB_RD3_channel : Fld := ⟨0x90060, 0, 32, 0⟩
def Reg.AMC_RSV_FREQ_freq_khz (i : Nat) : Fld := ⟨0x90180 + 0x8 * i, 0, 22, 0⟩
def Reg.AMC_RSV_FREQ_band (i : Nat) : Fld := ⟨0x90180 + 0x8 * i, 22, 1, 0⟩
def Reg.AMC_RSV_FREQ_valid (i : Nat) : Fld := ⟨0x90180 + 0x8 * i, 31, 1, 0⟩
def Reg.AMC_RSV_WIDTH_width_khz (i : Nat) : Fld := ⟨0x90184 + 0x8 * i, 0, 16, 0⟩
def Reg.AMC_PLAN_FREQ_freq_khz (i : Nat) : Fld := ⟨0x90200 + 0x8 * i, 0, 22, 0⟩
def Reg.AMC_PLAN_FREQ_band (i : Nat) : Fld := ⟨0x90200 + 0x8 * i, 22, 1, 0⟩
def Reg.AMC_PLAN_FREQ_valid (i : Nat) : Fld := ⟨0x90200 + 0x8 * i, 31, 1, 0⟩
def Reg.AMC_PLAN_CFG_width_khz (i : Nat) : Fld := ⟨0x90204 + 0x8 * i, 0, 16, 0⟩
def Reg.AMC_PLAN_CFG_async_ok (i : Nat) : Fld := ⟨0x90204 + 0x8 * i, 16, 1, 1⟩
def Reg.AMC_PLAN_CFG_ebr_ok (i : Nat) : Fld := ⟨0x90204 + 0x8 * i, 17, 1, 0⟩
def Reg.AMC_PLAN_CFG_hop (i : Nat) : Fld := ⟨0x90204 + 0x8 * i, 18, 1, 0⟩
def Reg.AMC_PLAN_CFG_rsv_override (i : Nat) : Fld := ⟨0x90204 + 0x8 * i, 19, 1, 0⟩
def Reg.AMC_PLAN_CFG_retired (i : Nat) : Fld := ⟨0x90204 + 0x8 * i, 24, 1, 0⟩

/-! ### SLP (chapter 08) -/

def Reg.SLP_CTRL_enable : Fld := ⟨0xa0000, 0, 1, 0⟩
def Reg.SLP_STATUS_need_amc : Fld := ⟨0xa0004, 0, 1, 1⟩
def Reg.SLP_STATUS_need_esc : Fld := ⟨0xa0004, 1, 1, 1⟩
def Reg.SLP_HS_CFG_drift_shift : Fld := ⟨0xa0008, 0, 4, 1⟩
def Reg.SLP_HS_CFG_var_shift : Fld := ⟨0xa0008, 4, 4, 2⟩
def Reg.SLP_HS_CFG_k_sd : Fld := ⟨0xa0008, 8, 6, 12⟩
def Reg.SLP_HS_CFG_min_span : Fld := ⟨0xa0008, 16, 16, 30⟩
def Reg.SLP_HS_CFG2_sd_init : Fld := ⟨0xa000c, 0, 16, 40000⟩
def Reg.SLP_HS_CFG2_sd_min : Fld := ⟨0xa000c, 16, 16, 100⟩
def Reg.SLP_HS_CFG3_node_jitter : Fld := ⟨0xa0010, 0, 12, 10⟩
def Reg.SLP_HS_CFG3_outlier_k : Fld := ⟨0xa0010, 12, 4, 4⟩
def Reg.SLP_NODE_Q_ctx : Fld := ⟨0xa0020, 0, 17, 0⟩
def Reg.SLP_NODE_Q_go : Fld := ⟨0xa0020, 31, 1, 0⟩
def Reg.SLP_NODE_RD0_drift : Fld := ⟨0xa0024, 0, 32, 0⟩
def Reg.SLP_NODE_RD1_unc_us : Fld := ⟨0xa0028, 0, 24, 0⟩
def Reg.SLP_NODE_RD1_oos : Fld := ⟨0xa0028, 24, 2, 0⟩
def Reg.SLP_NODE_RD1_hs_valid : Fld := ⟨0xa0028, 26, 1, 0⟩
def Reg.SLP_NODE_RD1_miss : Fld := ⟨0xa0028, 27, 4, 0⟩
def Reg.SLP_CLS_GUARD_guard_us (i : Nat) : Fld := ⟨0xa0100 + 0x20 * i, 0, 16, 1000⟩
def Reg.SLP_CLS_GUARD_sample_us (i : Nat) : Fld := ⟨0xa0100 + 0x20 * i, 16, 16, 1000⟩
def Reg.SLP_CLS_WUS_wus_mode (i : Nat) : Fld := ⟨0xa0104 + 0x20 * i, 0, 1, 0⟩
def Reg.SLP_CLS_WUS_wus_fmt (i : Nat) : Fld := ⟨0xa0104 + 0x20 * i, 1, 1, 0⟩
def Reg.SLP_CLS_WUS_wus_max_ms (i : Nat) : Fld := ⟨0xa0104 + 0x20 * i, 8, 8, 100⟩
def Reg.SLP_CLS_FB_fb_ratio (i : Nat) : Fld := ⟨0xa0108 + 0x20 * i, 0, 9, 60⟩
def Reg.SLP_CLS_FB_fb_listen_ms (i : Nat) : Fld := ⟨0xa0108 + 0x20 * i, 16, 16, 200⟩
def Reg.SLP_CLS_RETRY_retries (i : Nat) : Fld := ⟨0xa010c + 0x20 * i, 0, 4, 3⟩
def Reg.SLP_CLS_RETRY_oos_miss (i : Nat) : Fld := ⟨0xa010c + 0x20 * i, 4, 4, 2⟩
def Reg.SLP_CLS_RETRY_pend_listen_ms (i : Nat) : Fld := ⟨0xa010c + 0x20 * i, 8, 16, 50⟩

/-! ### ESC (chapter 09) -/

def Reg.ESC_CTRL_enable : Fld := ⟨0xb0000, 0, 1, 0⟩
def Reg.ESC_CTRL_len_mode : Fld := ⟨0xb0000, 1, 1, 1⟩
def Reg.ESC_CTRL_hold_stop : Fld := ⟨0xb0000, 2, 1, 0⟩
def Reg.ESC_CTRL_cyc_gate : Fld := ⟨0xb0000, 3, 1, 0⟩
def Reg.ESC_CTRL_suspend_drop : Fld := ⟨0xb0000, 4, 1, 0⟩
def Reg.ESC_STATUS_need_bal : Fld := ⟨0xb0004, 0, 1, 1⟩
def Reg.ESC_STATUS_need_port : Fld := ⟨0xb0004, 1, 1, 1⟩
def Reg.ESC_STATUS_bank_act : Fld := ⟨0xb0004, 2, 1, 0⟩
def Reg.ESC_STATUS_bank_pending : Fld := ⟨0xb0004, 3, 1, 0⟩
def Reg.ESC_SCHED_CFG_dec_lead : Fld := ⟨0xb0008, 0, 16, 6554⟩
def Reg.ESC_SCHED_CFG_tx_offset : Fld := ⟨0xb0008, 16, 16, 328⟩
def Reg.ESC_SCHED_CFG2_rx_guard : Fld := ⟨0xb000c, 0, 16, 1024⟩
def Reg.ESC_SCHED_CFG2_ofs_tol : Fld := ⟨0xb000c, 16, 8, 64⟩
def Reg.ESC_SCHED_CFG2_search_max : Fld := ⟨0xb000c, 24, 4, 8⟩
def Reg.ESC_BANK_bank_sel : Fld := ⟨0xb0010, 0, 1, 0⟩
def Reg.ESC_FRAME_LEN0_frame_len : Fld := ⟨0xb0014, 0, 9, 1⟩
def Reg.ESC_FRAME_LEN1_frame_len : Fld := ⟨0xb0018, 0, 9, 1⟩
def Reg.ESC_QCFG_sub_qmax : Fld := ⟨0xb001c, 0, 6, 8⟩
def Reg.ESC_ASYNC_DFLT_plan_a : Fld := ⟨0xb0020, 0, 6, 0⟩
def Reg.ESC_ASYNC_DFLT_valid_a : Fld := ⟨0xb0020, 6, 1, 0⟩
def Reg.ESC_ASYNC_DFLT_plan_b : Fld := ⟨0xb0020, 8, 6, 0⟩
def Reg.ESC_ASYNC_DFLT_valid_b : Fld := ⟨0xb0020, 14, 1, 0⟩
def Reg.ESC_SUB_CMD_ctx : Fld := ⟨0xb0030, 0, 17, 0⟩
def Reg.ESC_SUB_CMD_op : Fld := ⟨0xb0030, 17, 2, 0⟩
def Reg.ESC_SUB_CMD_busy : Fld := ⟨0xb0030, 19, 1, 0⟩
def Reg.ESC_SUB_DATA_sub_prof : Fld := ⟨0xb0034, 0, 6, 0⟩
def Reg.ESC_SUB_DATA_suspend : Fld := ⟨0xb0034, 6, 1, 0⟩
def Reg.ESC_SUB_DATA_pend : Fld := ⟨0xb0034, 7, 1, 0⟩
def Reg.ESC_SUB_DATA_qlen : Fld := ⟨0xb0034, 8, 6, 0⟩
def Reg.ESC_SUB_TOK_tok : Fld := ⟨0xb0038, 0, 32, 0⟩
def Reg.ESC_FUSEE_STAT_closed : Fld := ⟨0xb0040, 0, 16, 0⟩
def Reg.ESC_FUSEE_STAT_breach : Fld := ⟨0xb0040, 16, 16, 0⟩
def Reg.ESC_PORT_CTRL_cfg (i : Nat) : Fld := ⟨0xb0100 + 0x20 * i, 0, 1, 0⟩
def Reg.ESC_PORT_CTRL_ref_kbps (i : Nat) : Fld := ⟨0xb0100 + 0x20 * i, 1, 10, (if i ≤ 1 then 50 else if i ≤ 3 then 250 else 0)⟩
def Reg.ESC_PORT_IFS_ifs_us (i : Nat) : Fld := ⟨0xb0104 + 0x20 * i, 0, 16, (if i ≤ 1 then 1000 else if i ≤ 3 then 192 else 0)⟩
def Reg.ESC_PORT_RATE_rate (i : Nat) : Fld := ⟨0xb0108 + 0x20 * i, 0, 32, 0⟩
def Reg.ESC_PORT_BURST_burst (i : Nat) : Fld := ⟨0xb010c + 0x20 * i, 0, 24, 65535⟩
def Reg.ESC_PORT_TOK_tok (i : Nat) : Fld := ⟨0xb0110 + 0x20 * i, 0, 32, (65535 * 1024)⟩
def Reg.ESC_SVC_CTRL_prio (i : Nat) : Fld := ⟨0xb2000 + 0x20 * i, 0, 2, 3⟩
def Reg.ESC_SVC_CTRL_weight (i : Nat) : Fld := ⟨0xb2000 + 0x20 * i, 2, 8, 1⟩
def Reg.ESC_SVC_CTRL_path (i : Nat) : Fld := ⟨0xb2000 + 0x20 * i, 10, 2, 1⟩
def Reg.ESC_SVC_CTRL_slot_retries (i : Nat) : Fld := ⟨0xb2000 + 0x20 * i, 12, 4, 2⟩
def Reg.ESC_SVC_CTRL_async_after (i : Nat) : Fld := ⟨0xb2000 + 0x20 * i, 16, 16, 1000⟩
def Reg.ESC_SVC_RATE_rate (i : Nat) : Fld := ⟨0xb2004 + 0x20 * i, 0, 32, 0⟩
def Reg.ESC_SVC_BURST_burst (i : Nat) : Fld := ⟨0xb2008 + 0x20 * i, 0, 24, 65535⟩
def Reg.ESC_SVC_AGE_age_max (i : Nat) : Fld := ⟨0xb200c + 0x20 * i, 0, 16, 0⟩
def Reg.ESC_SVC_AGE_qmax (i : Nat) : Fld := ⟨0xb200c + 0x20 * i, 16, 16, 256⟩
def Reg.ESC_SVC_TOK_tok (i : Nat) : Fld := ⟨0xb2010 + 0x20 * i, 0, 32, (65535 * 1024)⟩
def Reg.ESC_SUBP_RATE_rate (i : Nat) : Fld := ⟨0xb3000 + 0x8 * i, 0, 32, 0⟩
def Reg.ESC_SUBP_BURST_burst (i : Nat) : Fld := ⟨0xb3004 + 0x8 * i, 0, 24, 65535⟩
def Reg.ESC_FUS_LO_lo_khz (i : Nat) : Fld := ⟨0xb3800 + 0x20 * i, 0, 22, 0⟩
def Reg.ESC_FUS_LO_band (i : Nat) : Fld := ⟨0xb3800 + 0x20 * i, 22, 1, 0⟩
def Reg.ESC_FUS_LO_valid (i : Nat) : Fld := ⟨0xb3800 + 0x20 * i, 31, 1, 0⟩
def Reg.ESC_FUS_HI_hi_khz (i : Nat) : Fld := ⟨0xb3804 + 0x20 * i, 0, 22, 0⟩
def Reg.ESC_FUS_DUTY_duty (i : Nat) : Fld := ⟨0xb3808 + 0x20 * i, 0, 17, 100⟩
def Reg.ESC_FUS_WIN_window_s (i : Nat) : Fld := ⟨0xb380c + 0x20 * i, 0, 12, 3600⟩
def Reg.ESC_FUS_RESV_resv (i : Nat) : Fld := ⟨0xb3810 + 0x20 * i, 0, 17, 0⟩
def Reg.ESC_FUS_SUM_sum (i : Nat) : Fld := ⟨0xb3814 + 0x20 * i, 0, 32, 0⟩
def Reg.ESC_FUS_HOLD_hold (i : Nat) : Fld := ⟨0xb3818 + 0x20 * i, 0, 32, 0⟩
def Reg.ESC_SLOT_A_cyc (i : Nat) : Fld := ⟨0xb4000 + 0x10 * i, 0, 8, 0⟩
def Reg.ESC_SLOT_A_angle (i : Nat) : Fld := ⟨0xb4000 + 0x10 * i, 16, 16, 0⟩
def Reg.ESC_SLOT_B_len (i : Nat) : Fld := ⟨0xb4004 + 0x10 * i, 0, 16, 0⟩
def Reg.ESC_SLOT_B_dir (i : Nat) : Fld := ⟨0xb4004 + 0x10 * i, 16, 1, 0⟩
def Reg.ESC_SLOT_B_valid (i : Nat) : Fld := ⟨0xb4004 + 0x10 * i, 17, 1, 0⟩
def Reg.ESC_SLOT_B_chain (i : Nat) : Fld := ⟨0xb4004 + 0x10 * i, 18, 2, 0⟩
def Reg.ESC_SLOT_B_plan (i : Nat) : Fld := ⟨0xb4004 + 0x10 * i, 20, 6, 0⟩
def Reg.ESC_SLOT_C_svc_mask (i : Nat) : Fld := ⟨0xb4008 + 0x10 * i, 0, 16, 0⟩
def Reg.ESC_SLOT_C_lgroup (i : Nat) : Fld := ⟨0xb4008 + 0x10 * i, 16, 8, 255⟩

/-! ### FWD (chapter 10) -/

def Reg.FWD_CTRL_enable : Fld := ⟨0xc0000, 0, 1, 0⟩
def Reg.FWD_CTRL_learn_en : Fld := ⟨0xc0000, 1, 1, 1⟩
def Reg.FWD_CTRL_rte_mode : Fld := ⟨0xc0000, 2, 1, 0⟩
def Reg.FWD_CTRL_miss_action : Fld := ⟨0xc0000, 3, 1, 0⟩
def Reg.FWD_CTRL_rte_fail_action : Fld := ⟨0xc0000, 4, 1, 0⟩
def Reg.FWD_STATUS_need_ctx : Fld := ⟨0xc0004, 0, 1, 1⟩
def Reg.FWD_HASH_SEED0_seed0 : Fld := ⟨0xc0008, 0, 32, 0⟩
def Reg.FWD_HASH_SEED1_seed1 : Fld := ⟨0xc000c, 0, 32, 1515870810⟩
def Reg.FWD_NT_CFG_max_kicks : Fld := ⟨0xc0010, 0, 8, 64⟩
def Reg.FWD_LEARN_CFG_learn_hold : Fld := ⟨0xc0014, 0, 16, 2000⟩
def Reg.FWD_LEARN_CFG_lq_hyst : Fld := ⟨0xc0014, 16, 8, 8⟩
def Reg.FWD_REORDER_CFG_reorder_lim : Fld := ⟨0xc0018, 0, 14, 1000⟩
def Reg.FWD_REASM_CFG_reasm_timeout : Fld := ⟨0xc001c, 0, 16, 10000⟩
def Reg.FWD_REASM_CFG_reasm_per_node : Fld := ⟨0xc001c, 16, 4, 4⟩
def Reg.FWD_REASM_CFG2_reasm_max : Fld := ⟨0xc0020, 0, 11, 1280⟩
def Reg.FWD_SITE_ADDR_addr (i : Nat) : Fld := ⟨0xc0030 + 0x4 * i, 0, 32, 0⟩
def Reg.FWD_DGRAM_TAG_tag : Fld := ⟨0xc0040, 0, 16, 0⟩
def Reg.FWD_NT_FILL_nt_fill : Fld := ⟨0xc0044, 0, 19, 0⟩
def Reg.FWD_REASM_FILL_in_use : Fld := ⟨0xc0048, 0, 13, 0⟩
def Reg.FWD_PAR_LOG_table : Fld := ⟨0xc004c, 0, 2, 0⟩
def Reg.FWD_PAR_LOG_index : Fld := ⟨0xc004c, 2, 18, 0⟩
def Reg.FWD_PAR_LOG_logged : Fld := ⟨0xc004c, 31, 1, 0⟩
def Reg.FWD_NT_CMD_op : Fld := ⟨0xc0100, 0, 3, 0⟩
def Reg.FWD_NT_CMD_kind : Fld := ⟨0xc0100, 3, 1, 0⟩
def Reg.FWD_NT_CMD_busy : Fld := ⟨0xc0100, 16, 1, 0⟩
def Reg.FWD_NT_CMD_result : Fld := ⟨0xc0100, 17, 3, 0⟩
def Reg.FWD_NT_KEY_LO_key : Fld := ⟨0xc0104, 0, 32, 0⟩
def Reg.FWD_NT_KEY_HI_key : Fld := ⟨0xc0108, 0, 32, 0⟩
def Reg.FWD_NT_ARG_LO_arg : Fld := ⟨0xc010c, 0, 32, 0⟩
def Reg.FWD_NT_ARG_HI_arg : Fld := ⟨0xc0110, 0, 32, 0⟩
def Reg.FWD_NT_ARG_CTX_ctx : Fld := ⟨0xc0114, 0, 17, 0⟩
def Reg.FWD_NT_ARG_CTX_refs : Fld := ⟨0xc0114, 24, 8, 0⟩
def Reg.FWD_NT_IDX_idx : Fld := ⟨0xc0118, 0, 18, 0⟩
def Reg.FWD_NT_RD_word (i : Nat) : Fld := ⟨0xc0120 + 0x4 * i, 0, 32, 0⟩
def Reg.FWD_PT_CMD_op : Fld := ⟨0xc0200, 0, 2, 0⟩
def Reg.FWD_PT_CMD_plen : Fld := ⟨0xc0200, 8, 8, 0⟩
def Reg.FWD_PT_CMD_index : Fld := ⟨0xc0200, 16, 12, 0⟩
def Reg.FWD_PT_CMD_busy : Fld := ⟨0xc0200, 28, 1, 0⟩
def Reg.FWD_PT_CMD_result : Fld := ⟨0xc0200, 29, 3, 0⟩
def Reg.FWD_PT_VAL_addr (i : Nat) : Fld := ⟨0xc0204 + 0x4 * i, 0, 32, 0⟩
def Reg.FWD_PT_CTL_port_v : Fld := ⟨0xc0214, 0, 3, 0⟩
def Reg.FWD_PT_CTL_dscp_v : Fld := ⟨0xc0214, 3, 6, 0⟩
def Reg.FWD_PT_CTL_port_m : Fld := ⟨0xc0214, 16, 3, 0⟩
def Reg.FWD_PT_CTL_dscp_m : Fld := ⟨0xc0214, 19, 6, 0⟩
def Reg.FWD_PT_ACT_action : Fld := ⟨0xc0218, 0, 2, 0⟩
def Reg.FWD_PT_ACT_port : Fld := ⟨0xc0218, 2, 3, 0⟩
def Reg.FWD_PT_ACT_svc : Fld := ⟨0xc0218, 5, 4, 0⟩
def Reg.FWD_PT_ACT_sci : Fld := ⟨0xc0218, 9, 4, 0⟩
def Reg.FWD_PT_FILL_count : Fld := ⟨0xc021c, 0, 13, 0⟩
def Reg.FWD_SCI_LO_pfx_lo (i : Nat) : Fld := ⟨0xc0300 + 0x10 * i, 0, 32, 0⟩
def Reg.FWD_SCI_HI_pfx_hi (i : Nat) : Fld := ⟨0xc0304 + 0x10 * i, 0, 32, 0⟩
def Reg.FWD_SCI_CTRL_valid (i : Nat) : Fld := ⟨0xc0308 + 0x10 * i, 0, 1, 0⟩

/-! ### CTX (chapter 11) -/

def Reg.CTX_CTRL_enable : Fld := ⟨0xd0000, 0, 1, 0⟩
def Reg.CTX_CTRL_flush : Fld := ⟨0xd0000, 1, 1, 0⟩
def Reg.CTX_STATUS_selftest_done : Fld := ⟨0xd0004, 0, 1, 0⟩
def Reg.CTX_STATUS_selftest_pass : Fld := ⟨0xd0004, 1, 1, 0⟩
def Reg.CTX_STATUS_pool_err : Fld := ⟨0xd0004, 2, 1, 0⟩
def Reg.CTX_STATUS_flush_busy : Fld := ⟨0xd0004, 3, 1, 0⟩
def Reg.CTX_STATUS_bad_bank : Fld := ⟨0xd0004, 8, 5, 0⟩
def Reg.CTX_CKPT_CFG_ckpt_interval : Fld := ⟨0xd0008, 0, 12, 60⟩
def Reg.CTX_CKPT_CFG_sweep_rings : Fld := ⟨0xd0008, 16, 7, 127⟩
def Reg.CTX_CKPT_STAT_sweep_num : Fld := ⟨0xd000c, 0, 32, 0⟩
def Reg.CTX_ACC_CMD_ctx : Fld := ⟨0xd0010, 0, 17, 0⟩
def Reg.CTX_ACC_CMD_op : Fld := ⟨0xd0010, 17, 3, 0⟩
def Reg.CTX_ACC_CMD_line_mask : Fld := ⟨0xd0010, 20, 3, 7⟩
def Reg.CTX_ACC_CMD_busy : Fld := ⟨0xd0010, 24, 1, 0⟩
def Reg.CTX_ACC_CMD_result : Fld := ⟨0xd0010, 25, 2, 0⟩
def Reg.CTX_ACC_ADJ_LO_adj : Fld := ⟨0xd0014, 0, 32, 0⟩
def Reg.CTX_ACC_ADJ_HI_adj : Fld := ⟨0xd0018, 0, 32, 0⟩
def Reg.CTX_ACC_UNC_unc : Fld := ⟨0xd001c, 0, 32, 0⟩
def Reg.CTX_FC_CFG_fc_margin : Fld := ⟨0xd0020, 0, 16, 16384⟩
def Reg.CTX_RESV_SEQ_seq : Fld := ⟨0xd0024, 0, 32, 0⟩
def Reg.CTX_RESV_CONF_conf : Fld := ⟨0xd0028, 0, 32, 0⟩
def Reg.CTX_RESV_OUT_outstanding : Fld := ⟨0xd002c, 0, 9, 0⟩
def Reg.CTX_PAR_LOG_ctx : Fld := ⟨0xd0030, 0, 17, 0⟩
def Reg.CTX_PAR_LOG_line : Fld := ⟨0xd0030, 17, 2, 0⟩
def Reg.CTX_PAR_LOG_logged : Fld := ⟨0xd0030, 31, 1, 0⟩
def Reg.CTX_POOL_CNT_count (i : Nat) : Fld := ⟨0xd0040 + 0x8 * i, 0, 15, (Config.poolReset i)⟩
def Reg.CTX_POOL_FREE_free (i : Nat) : Fld := ⟨0xd0044 + 0x8 * i, 0, 15, (Config.poolReset i)⟩
def Reg.CTX_WIN_word (i : Nat) : Fld := ⟨0xd0100 + 0x4 * i, 0, 32, 0⟩

/-! ### JWL (chapter 12) -/

def Reg.JWL_CTRL_enable : Fld := ⟨0xe0000, 0, 1, 0⟩
def Reg.JWL_CTRL_join_unsec : Fld := ⟨0xe0000, 1, 1, 0⟩
def Reg.JWL_STATUS_lc_state : Fld := ⟨0xe0004, 0, 3, 0⟩
def Reg.JWL_STATUS_lc_busy : Fld := ⟨0xe0004, 3, 1, 0⟩
def Reg.JWL_STATUS_sweep_busy : Fld := ⟨0xe0004, 4, 1, 0⟩
def Reg.JWL_STATUS_lc_read : Fld := ⟨0xe0004, 5, 1, 0⟩
def Reg.JWL_STATUS_deriv_q : Fld := ⟨0xe0004, 8, 7, 0⟩
def Reg.JWL_CACHE_entries : Fld := ⟨0xe0008, 0, 14, 0⟩
def Reg.JWL_CACHE_flush : Fld := ⟨0xe0008, 16, 1, 0⟩
def Reg.JWL_LC_CMD_target : Fld := ⟨0xe000c, 0, 3, 0⟩
def Reg.JWL_LC_CMD_go : Fld := ⟨0xe000c, 31, 1, 0⟩
def Reg.JWL_LC_RES_result : Fld := ⟨0xe0010, 0, 2, 0⟩
def Reg.JWL_DEVID_LO_device_id : Fld := ⟨0xe0014, 0, 32, Config.deviceIdLo.toNat⟩
def Reg.JWL_DEVID_HI_device_id : Fld := ⟨0xe0018, 0, 32, Config.deviceIdHi.toNat⟩
def Reg.JWL_GROUP_slot (i : Nat) : Fld := ⟨0xe0040 + 0x4 * i, 0, 10, 0⟩
def Reg.JWL_GROUP_valid (i : Nat) : Fld := ⟨0xe0040 + 0x4 * i, 31, 1, 0⟩
def Reg.JWL_MEAS_word (i j : Nat) : Fld := ⟨0xe0080 + 0x20 * i + 0x4 * j, 0, 32, 0⟩
def Reg.JWL_CMD_op (i : Nat) : Fld := ⟨0xe1000 + 0x400 * i, 0, 4, 0⟩
def Reg.JWL_CMD_slot (i : Nat) : Fld := ⟨0xe1000 + 0x400 * i, 4, 10, 0⟩
def Reg.JWL_CMD_busy (i : Nat) : Fld := ⟨0xe1000 + 0x400 * i, 16, 1, 0⟩
def Reg.JWL_CMD_result (i : Nat) : Fld := ⟨0xe1000 + 0x400 * i, 20, 4, 0⟩
def Reg.JWL_ATTR_type (i : Nat) : Fld := ⟨0xe1004 + 0x400 * i, 0, 3, 0⟩
def Reg.JWL_ATTR_world (i : Nat) : Fld := ⟨0xe1004 + 0x400 * i, 3, 1, 0⟩
def Reg.JWL_ATTR_masters (i : Nat) : Fld := ⟨0xe1004 + 0x400 * i, 4, 5, 0⟩
def Reg.JWL_ATTR_lc_mask (i : Nat) : Fld := ⟨0xe1004 + 0x400 * i, 9, 5, 6⟩
def Reg.JWL_ATTR_parent (i : Nat) : Fld := ⟨0xe1004 + 0x400 * i, 14, 10, 1023⟩
def Reg.JWL_ATTR_lc_auth (i : Nat) : Fld := ⟨0xe1004 + 0x400 * i, 24, 1, 0⟩
def Reg.JWL_ATTR_depth (i : Nat) : Fld := ⟨0xe1004 + 0x400 * i, 25, 3, 0⟩
def Reg.JWL_ATTR_state (i : Nat) : Fld := ⟨0xe1004 + 0x400 * i, 30, 2, 0⟩
def Reg.JWL_DOMAIN_domain (i : Nat) : Fld := ⟨0xe1008 + 0x400 * i, 0, 32, 0⟩
def Reg.JWL_GEN_gen (i : Nat) : Fld := ⟨0xe100c + 0x400 * i, 0, 16, 0⟩
def Reg.JWL_KEY_key (i j : Nat) : Fld := ⟨0xe1010 + 0x400 * i + 0x4 * j, 0, 32, 0⟩
def Reg.JWL_LABEL_label (i j : Nat) : Fld := ⟨0xe1050 + 0x400 * i + 0x4 * j, 0, 32, 0⟩
def Reg.JWL_JOB_ADDR_LO_addr (i : Nat) : Fld := ⟨0xe1060 + 0x400 * i, 0, 32, 0⟩
def Reg.JWL_JOB_ADDR_HI_addr (i : Nat) : Fld := ⟨0xe1064 + 0x400 * i, 0, 32, 0⟩
def Reg.JWL_JOB_LEN_len (i : Nat) : Fld := ⟨0xe1068 + 0x400 * i, 0, 25, 0⟩
def Reg.JWL_DIGEST_word (i j : Nat) : Fld := ⟨0xe1080 + 0x400 * i + 0x4 * j, 0, 32, 0⟩
def Reg.JWL_SIG_word (i j : Nat) : Fld := ⟨0xe10a0 + 0x400 * i + 0x4 * j, 0, 32, 0⟩
def Reg.JWL_ATTRES_word (i j : Nat) : Fld := ⟨0xe1100 + 0x400 * i + 0x4 * j, 0, 32, 0⟩

/-! ### HIF (chapter 13) -/

def Reg.HIF_STATUS_link_up : Fld := ⟨0xf0004, 0, 1, 0⟩
def Reg.HIF_STATUS_speed : Fld := ⟨0xf0004, 1, 2, 0⟩
def Reg.HIF_STATUS_width : Fld := ⟨0xf0004, 3, 2, 0⟩
def Reg.HIF_STATUS_standalone : Fld := ⟨0xf0004, 5, 1, 0⟩
def Reg.HIF_STATUS_bme : Fld := ⟨0xf0004, 6, 1, 0⟩
def Reg.HIF_ID_vendor_id : Fld := ⟨0xf0008, 0, 16, Config.vendorId.toNat⟩
def Reg.HIF_ID_device_id : Fld := ⟨0xf0008, 16, 16, 33064⟩
def Reg.HIF_DMA_CFG_fetch_batch : Fld := ⟨0xf000c, 0, 4, 8⟩
def Reg.HIF_SVC_MAP_ring_base (i : Nat) : Fld := ⟨0xf0040 + 0x4 * i, 0, 7, 0⟩
def Reg.HIF_SVC_MAP_ring_log2 (i : Nat) : Fld := ⟨0xf0040 + 0x4 * i, 7, 3, 0⟩
def Reg.HIF_SVC_MAP_valid (i : Nat) : Fld := ⟨0xf0040 + 0x4 * i, 31, 1, 0⟩
def Reg.HIF_RSN_SVC0_svc : Fld := ⟨0xf0080, 0, 32, 0⟩
def Reg.HIF_RSN_SVC1_svc : Fld := ⟨0xf0084, 0, 12, 0⟩
def Reg.HIF_VEC_CFG_coal_cnt (i : Nat) : Fld := ⟨0xf0100 + 0x4 * i, 0, 8, 1⟩
def Reg.HIF_VEC_CFG_coal_us (i : Nat) : Fld := ⟨0xf0100 + 0x4 * i, 8, 16, 0⟩
def Reg.HIF_VEC_CFG_dest (i : Nat) : Fld := ⟨0xf0100 + 0x4 * i, 31, 1, 0⟩
def Reg.HIF_RING_CTRL_enable (i : Nat) : Fld := ⟨0xf1000 + 0x40 * i, 0, 1, 0⟩
def Reg.HIF_RING_CTRL_owner (i : Nat) : Fld := ⟨0xf1000 + 0x40 * i, 1, 1, 0⟩
def Reg.HIF_RING_CTRL_log2_size (i : Nat) : Fld := ⟨0xf1000 + 0x40 * i, 2, 4, 4⟩
def Reg.HIF_RING_CTRL_vector (i : Nat) : Fld := ⟨0xf1000 + 0x40 * i, 6, 6, 0⟩
def Reg.HIF_RING_CTRL_irq_en (i : Nat) : Fld := ⟨0xf1000 + 0x40 * i, 12, 1, 0⟩
def Reg.HIF_RING_CTRL_wb_en (i : Nat) : Fld := ⟨0xf1000 + 0x40 * i, 13, 1, 0⟩
def Reg.HIF_RING_BASE_LO_base (i : Nat) : Fld := ⟨0xf1004 + 0x40 * i, 0, 32, 0⟩
def Reg.HIF_RING_BASE_HI_base (i : Nat) : Fld := ⟨0xf1008 + 0x40 * i, 0, 32, 0⟩
def Reg.HIF_RING_AUX_LO_aux (i : Nat) : Fld := ⟨0xf100c + 0x40 * i, 0, 32, 0⟩
def Reg.HIF_RING_AUX_HI_aux (i : Nat) : Fld := ⟨0xf1010 + 0x40 * i, 0, 32, 0⟩
def Reg.HIF_RING_WB_LO_wb (i : Nat) : Fld := ⟨0xf1014 + 0x40 * i, 0, 32, 0⟩
def Reg.HIF_RING_WB_HI_wb (i : Nat) : Fld := ⟨0xf1018 + 0x40 * i, 0, 32, 0⟩

/-! ### EVT (chapter 13) -/

def Reg.EVT_SWRAISE_ev : Fld := ⟨0x100020, 0, 8, 0⟩
/-- `EVT_CNT_RAISED` counts: Raises, all events. -/
def Reg.EVT_CNT_RAISED : Nat := 0x100040
/-- `EVT_CNT_LOST` counts: R336. -/
def Reg.EVT_CNT_LOST : Nat := 0x100044
def Reg.EVT_ROUTE_ring_en (i : Nat) : Fld := ⟨0x101000 + 0x4 * i, 0, 1, 0⟩
def Reg.EVT_ROUTE_ring (i : Nat) : Fld := ⟨0x101000 + 0x4 * i, 1, 4, 0⟩
def Reg.EVT_ROUTE_vec_en (i : Nat) : Fld := ⟨0x101000 + 0x4 * i, 5, 1, 0⟩
def Reg.EVT_ROUTE_vector (i : Nat) : Fld := ⟨0x101000 + 0x4 * i, 6, 6, 0⟩

/-! ### MBX (chapter 14) -/

def Reg.MBX_EP_epoch (i : Nat) : Fld := ⟨0x110010 + 0x4 * i, 0, 16, 0⟩
def Reg.MBX_EP_down (i : Nat) : Fld := ⟨0x110010 + 0x4 * i, 16, 1, (if i = 0 then 1 else 0)⟩
def Reg.MBX_SEM_FORCE_sem : Fld := ⟨0x110100, 0, 6, 0⟩
def Reg.MBX_CIRQ_CFG_targets (i : Nat) : Fld := ⟨0x110400 + 0x4 * i, 0, 4, 0⟩
def Reg.MBX_CIRQ_CFG_mask (i : Nat) : Fld := ⟨0x110400 + 0x4 * i, 4, 1, 1⟩
def Reg.MBX_CIRQ_CFG_pending (i : Nat) : Fld := ⟨0x110400 + 0x4 * i, 5, 1, 0⟩
def Reg.MBX_CH_CFG_enable (i : Nat) : Fld := ⟨0x111000 + 0x80 * i, 0, 1, 0⟩
def Reg.MBX_CH_CFG_sender (i : Nat) : Fld := ⟨0x111000 + 0x80 * i, 1, 3, 0⟩
def Reg.MBX_CH_CFG_receiver (i : Nat) : Fld := ⟨0x111000 + 0x80 * i, 4, 3, 0⟩
def Reg.MBX_CH_CFG_ev_en (i : Nat) : Fld := ⟨0x111000 + 0x80 * i, 7, 1, 0⟩
def Reg.MBX_CH_STAT_level (i : Nat) : Fld := ⟨0x111004 + 0x80 * i, 0, 3, 0⟩
def Reg.MBX_CH_STAT_collision (i : Nat) : Fld := ⟨0x111004 + 0x80 * i, 3, 1, 0⟩
def Reg.MBX_CH_STAT_rx_down (i : Nat) : Fld := ⟨0x111004 + 0x80 * i, 4, 1, 0⟩
def Reg.MBX_CH_STAT_tx_down (i : Nat) : Fld := ⟨0x111004 + 0x80 * i, 5, 1, 0⟩
def Reg.MBX_CH_SEND_len (i : Nat) : Fld := ⟨0x111008 + 0x80 * i, 0, 4, 0⟩
def Reg.MBX_CH_POP_pop (i : Nat) : Fld := ⟨0x11100c + 0x80 * i, 0, 1, 0⟩
def Reg.MBX_CH_HDR_valid (i : Nat) : Fld := ⟨0x111010 + 0x80 * i, 0, 1, 0⟩
def Reg.MBX_CH_HDR_len (i : Nat) : Fld := ⟨0x111010 + 0x80 * i, 1, 4, 0⟩
def Reg.MBX_CH_HDR_RESTARTED (i : Nat) : Fld := ⟨0x111010 + 0x80 * i, 5, 1, 0⟩
def Reg.MBX_CH_HDR_STALE_EPOCH (i : Nat) : Fld := ⟨0x111010 + 0x80 * i, 6, 1, 0⟩
def Reg.MBX_CH_HDR_COLLISION (i : Nat) : Fld := ⟨0x111010 + 0x80 * i, 7, 1, 0⟩
def Reg.MBX_CH_HDR_seq (i : Nat) : Fld := ⟨0x111010 + 0x80 * i, 16, 16, 0⟩
def Reg.MBX_CH_EP_tx_epoch (i : Nat) : Fld := ⟨0x111014 + 0x80 * i, 0, 16, 0⟩
def Reg.MBX_CH_EP_rx_epoch (i : Nat) : Fld := ⟨0x111014 + 0x80 * i, 16, 16, 0⟩
def Reg.MBX_CH_TXD_word (i j : Nat) : Fld := ⟨0x111020 + 0x80 * i + 0x4 * j, 0, 32, 0⟩
def Reg.MBX_CH_RXD_word (i j : Nat) : Fld := ⟨0x111040 + 0x80 * i + 0x4 * j, 0, 32, 0⟩
def Reg.MBX_SEM_LOCK_owner (i : Nat) : Fld := ⟨0x112000 + 0x4 * i, 0, 8, 0⟩
def Reg.MBX_SEM_LOCK_abandoned (i : Nat) : Fld := ⟨0x112000 + 0x4 * i, 8, 1, 0⟩
def Reg.MBX_SEM_PEEK_owner (i : Nat) : Fld := ⟨0x112100 + 0x4 * i, 0, 8, 0⟩
def Reg.MBX_SEM_PEEK_abandoned (i : Nat) : Fld := ⟨0x112100 + 0x4 * i, 8, 1, 0⟩

/-! ### ETH (chapter 15) -/

def Reg.ETH_CTRL_enable (i : Nat) : Fld := ⟨0x120000 + 0x10000 * i, 0, 1, 0⟩
def Reg.ETH_CTRL_mode (i : Nat) : Fld := ⟨0x120000 + 0x10000 * i, 1, 2, 0⟩
def Reg.ETH_CTRL_an_en (i : Nat) : Fld := ⟨0x120000 + 0x10000 * i, 3, 1, 1⟩
def Reg.ETH_CTRL_standby (i : Nat) : Fld := ⟨0x120000 + 0x10000 * i, 4, 1, 0⟩
def Reg.ETH_CTRL_promisc (i : Nat) : Fld := ⟨0x120000 + 0x10000 * i, 5, 1, 0⟩
def Reg.ETH_CTRL_bcast_en (i : Nat) : Fld := ⟨0x120000 + 0x10000 * i, 6, 1, 1⟩
def Reg.ETH_CTRL_vlan_en (i : Nat) : Fld := ⟨0x120000 + 0x10000 * i, 7, 1, 0⟩
def Reg.ETH_CTRL_pause_rx_en (i : Nat) : Fld := ⟨0x120000 + 0x10000 * i, 8, 1, 1⟩
def Reg.ETH_CTRL_pause_tx_en (i : Nat) : Fld := ⟨0x120000 + 0x10000 * i, 9, 1, 0⟩
def Reg.ETH_CTRL_auto_wake (i : Nat) : Fld := ⟨0x120000 + 0x10000 * i, 10, 1, 1⟩
def Reg.ETH_CTRL_wake_filter (i : Nat) : Fld := ⟨0x120000 + 0x10000 * i, 11, 1, 0⟩
def Reg.ETH_STATUS_state (i : Nat) : Fld := ⟨0x120004 + 0x10000 * i, 0, 2, 0⟩
def Reg.ETH_STATUS_link_up (i : Nat) : Fld := ⟨0x120004 + 0x10000 * i, 2, 1, 0⟩
def Reg.ETH_STATUS_paused (i : Nat) : Fld := ⟨0x120004 + 0x10000 * i, 3, 1, 0⟩
def Reg.ETH_STATUS_wd_holdoff (i : Nat) : Fld := ⟨0x120004 + 0x10000 * i, 4, 1, 0⟩
def Reg.ETH_STATUS_speed_err (i : Nat) : Fld := ⟨0x120004 + 0x10000 * i, 5, 1, 0⟩
def Reg.ETH_STATUS_no_mac (i : Nat) : Fld := ⟨0x120004 + 0x10000 * i, 6, 1, 1⟩
def Reg.ETH_STATUS_partner_pause (i : Nat) : Fld := ⟨0x120004 + 0x10000 * i, 7, 2, 0⟩
def Reg.ETH_FRAME_CFG_max_len (i : Nat) : Fld := ⟨0x120008 + 0x10000 * i, 0, 14, 1522⟩
def Reg.ETH_FRAME_CFG_vid (i : Nat) : Fld := ⟨0x120008 + 0x10000 * i, 16, 12, 0⟩
def Reg.ETH_PAUSE_CFG_pause_wd_ms (i : Nat) : Fld := ⟨0x12000c + 0x10000 * i, 0, 16, 100⟩
def Reg.ETH_PAUSE_CFG_wd_holdoff_ms (i : Nat) : Fld := ⟨0x12000c + 0x10000 * i, 16, 16, 100⟩
def Reg.ETH_PAUSE_TX_pause_quanta (i : Nat) : Fld := ⟨0x120010 + 0x10000 * i, 0, 16, 65535⟩
def Reg.ETH_RXBUF_CFG_xoff_thr (i : Nat) : Fld := ⟨0x120014 + 0x10000 * i, 0, 6, 48⟩
def Reg.ETH_RXBUF_CFG_xon_thr (i : Nat) : Fld := ⟨0x120014 + 0x10000 * i, 8, 6, 16⟩
def Reg.ETH_RXBUF_CFG_rx_pool_max (i : Nat) : Fld := ⟨0x120014 + 0x10000 * i, 16, 11, 768⟩
def Reg.ETH_CLASS_host_svc (i : Nat) : Fld := ⟨0x120018 + 0x10000 * i, 0, 4, 0⟩
def Reg.ETH_GW_MAC_LO_mac_lo (i : Nat) : Fld := ⟨0x12001c + 0x10000 * i, 0, 32, 0⟩
def Reg.ETH_GW_MAC_HI_mac_hi (i : Nat) : Fld := ⟨0x120020 + 0x10000 * i, 0, 16, 0⟩
def Reg.ETH_PTP_CFG_ts_rx_mode (i : Nat) : Fld := ⟨0x120024 + 0x10000 * i, 0, 2, 1⟩
def Reg.ETH_PTP_LAT_rx_lat (i : Nat) : Fld := ⟨0x120028 + 0x10000 * i, 0, 16, 0⟩
def Reg.ETH_PTP_LAT_tx_lat (i : Nat) : Fld := ⟨0x120028 + 0x10000 * i, 16, 16, 0⟩
def Reg.ETH_WAKE_CTRL_magic_en (i : Nat) : Fld := ⟨0x120030 + 0x10000 * i, 0, 1, 0⟩
def Reg.ETH_WAKE_CTRL_pat_en (i : Nat) : Fld := ⟨0x120030 + 0x10000 * i, 1, 8, 0⟩
def Reg.ETH_WAKE_CTRL_wake_cause (i : Nat) : Fld := ⟨0x120030 + 0x10000 * i, 16, 9, 0⟩
def Reg.ETH_UC_LO_mac_lo (i j : Nat) : Fld := ⟨0x120100 + 0x10000 * i + 0x8 * j, 0, 32, 0⟩
def Reg.ETH_UC_HI_mac_hi (i j : Nat) : Fld := ⟨0x120104 + 0x10000 * i + 0x8 * j, 0, 16, 0⟩
def Reg.ETH_UC_HI_valid (i j : Nat) : Fld := ⟨0x120104 + 0x10000 * i + 0x8 * j, 31, 1, 0⟩
def Reg.ETH_MC_HASH_bins (i j : Nat) : Fld := ⟨0x120200 + 0x10000 * i + 0x4 * j, 0, 32, 0⟩
def Reg.ETH_PAT_octets (i j k : Nat) : Fld := ⟨0x121000 + 0x10000 * i + 0x100 * j + 0x4 * k, 0, 32, 0⟩
def Reg.ETH_PMASK_mask (i j k : Nat) : Fld := ⟨0x121080 + 0x10000 * i + 0x100 * j + 0x4 * k, 0, 32, 0⟩

/-! ### TWN (chapter 16) -/

def Reg.TWN_CTRL_enable : Fld := ⟨0x140000, 0, 1, 0⟩
def Reg.TWN_CTRL_role : Fld := ⟨0x140000, 1, 2, 0⟩
def Reg.TWN_CTRL_ack_mode : Fld := ⟨0x140000, 3, 1, 0⟩
def Reg.TWN_CTRL_fwd_air : Fld := ⟨0x140000, 4, 1, 1⟩
def Reg.TWN_CTRL_dl_mirror : Fld := ⟨0x140000, 5, 1, 1⟩
def Reg.TWN_CTRL_src_mac_mode : Fld := ⟨0x140000, 6, 1, 0⟩
def Reg.TWN_CTRL_hb_port : Fld := ⟨0x140000, 7, 1, 0⟩
def Reg.TWN_CTRL_rct_ports : Fld := ⟨0x140000, 8, 2, 3⟩
def Reg.TWN_STATUS_state : Fld := ⟨0x140004, 0, 2, 0⟩
def Reg.TWN_STATUS_pair_ok : Fld := ⟨0x140004, 2, 1, 0⟩
def Reg.TWN_STATUS_eth_ok : Fld := ⟨0x140004, 3, 1, 0⟩
def Reg.TWN_STATUS_link_up : Fld := ⟨0x140004, 4, 1, 0⟩
def Reg.TWN_STATUS_need_eth : Fld := ⟨0x140004, 5, 1, 1⟩
def Reg.TWN_STATUS_split : Fld := ⟨0x140004, 6, 1, 0⟩
def Reg.TWN_HB_CFG_hb_miss : Fld := ⟨0x140008, 0, 4, 3⟩
def Reg.TWN_HB_CFG_pair_tol_us : Fld := ⟨0x140008, 8, 8, 100⟩
def Reg.TWN_HB_CFG_eth_period_ms : Fld := ⟨0x140008, 16, 8, 10⟩
def Reg.TWN_HB_CFG_eth_tol_ms : Fld := ⟨0x140008, 24, 8, 2⟩
def Reg.TWN_HB_CFG2_rejoin_ms : Fld := ⟨0x14000c, 0, 16, 100⟩
def Reg.TWN_HB_CFG2_split_cycles : Fld := ⟨0x14000c, 16, 8, 16⟩
def Reg.TWN_ETYPE_etype : Fld := ⟨0x140010, 0, 16, 34997⟩
def Reg.TWN_PART_MAC_LO_mac_lo : Fld := ⟨0x140014, 0, 32, 0⟩
def Reg.TWN_PART_MAC_HI_mac_hi : Fld := ⟨0x140018, 0, 16, 0⟩
def Reg.TWN_SRC_MAC_LO_mac_lo : Fld := ⟨0x14001c, 0, 32, 0⟩
def Reg.TWN_SRC_MAC_HI_mac_hi : Fld := ⟨0x140020, 0, 16, 0⟩
def Reg.TWN_AIR_CFG_dup_svc : Fld := ⟨0x140024, 0, 16, 65535⟩
def Reg.TWN_HOST_host_svc : Fld := ⟨0x140028, 0, 4, 0⟩
def Reg.TWN_PART_STAT_part_epoch : Fld := ⟨0x14002c, 0, 16, 0⟩
def Reg.TWN_PART_STAT_part_state : Fld := ⟨0x14002c, 16, 2, 0⟩
def Reg.TWN_EPOCH_epoch : Fld := ⟨0x140030, 0, 16, 0⟩

/-! ### CRN (chapter 17) -/

def Reg.CRN_CTRL_force_unpaired : Fld := ⟨0x150000, 0, 1, 0⟩
def Reg.CRN_CTRL_trial_max : Fld := ⟨0x150000, 8, 4, 3⟩
def Reg.CRN_STATUS_state : Fld := ⟨0x150004, 0, 3, 0⟩
def Reg.CRN_STATUS_busy : Fld := ⟨0x150004, 3, 1, 0⟩
def Reg.CRN_STATUS_recovery : Fld := ⟨0x150004, 4, 1, 0⟩
def Reg.CRN_STATUS_rec_reason : Fld := ⟨0x150004, 5, 3, 0⟩
def Reg.CRN_STATUS_result : Fld := ⟨0x150004, 8, 5, 0⟩
def Reg.CRN_STATUS_staged_comp : Fld := ⟨0x150004, 13, 2, 0⟩
def Reg.CRN_STATUS_handed_over : Fld := ⟨0x150004, 15, 1, 0⟩
def Reg.CRN_CMD_op : Fld := ⟨0x150008, 0, 4, 0⟩
def Reg.CRN_CMD_comp : Fld := ⟨0x150008, 4, 2, 0⟩
def Reg.CRN_SRC_LO_src : Fld := ⟨0x15000c, 0, 32, 0⟩
def Reg.CRN_SRC_HI_src : Fld := ⟨0x150010, 0, 32, 0⟩
def Reg.CRN_SRC_LEN_src_len : Fld := ⟨0x150014, 0, 25, 0⟩
def Reg.CRN_SRC_LEN_space : Fld := ⟨0x150014, 31, 1, 0⟩
def Reg.CRN_STAGE_LO_stage : Fld := ⟨0x150018, 0, 32, 0⟩
def Reg.CRN_STAGE_HI_stage : Fld := ⟨0x15001c, 0, 32, 0⟩
def Reg.CRN_RB_rb_fuse : Fld := ⟨0x150020, 0, 8, 0⟩
def Reg.CRN_PROG_done : Fld := ⟨0x150024, 0, 32, 0⟩
def Reg.CRN_REC_rstate (i : Nat) : Fld := ⟨0x150040 + 0x8 * i, 0, 3, 0⟩
def Reg.CRN_REC_trial_count (i : Nat) : Fld := ⟨0x150040 + 0x8 * i, 4, 4, 0⟩
def Reg.CRN_REC_rollback (i : Nat) : Fld := ⟨0x150040 + 0x8 * i, 8, 8, 0⟩
def Reg.CRN_VER_version (i : Nat) : Fld := ⟨0x150044 + 0x8 * i, 0, 32, 0⟩
def Reg.CRN_SET_FMT_fmt0 : Fld := ⟨0x150070, 0, 16, 0⟩
def Reg.CRN_SET_FMT_fmt1 : Fld := ⟨0x150070, 16, 16, 0⟩
def Reg.CRN_SET_CTL_active : Fld := ⟨0x150074, 0, 1, 0⟩
def Reg.CRN_SET_CTL_dual : Fld := ⟨0x150074, 1, 1, 0⟩
def Reg.CRN_KEYHASH_word (i : Nat) : Fld := ⟨0x150080 + 0x4 * i, 0, 32, 0⟩

/-! ### CHR (chapter 18) -/

def Reg.CHR_CTRL_freeze : Fld := ⟨0x160000, 0, 1, 0⟩
def Reg.CHR_CTRL_sample_secure : Fld := ⟨0x160000, 1, 1, 0⟩
def Reg.CHR_TAG_CFG_ingress_mask : Fld := ⟨0x160100, 0, 4, 0⟩
def Reg.CHR_TAG_CFG_rate_log2 : Fld := ⟨0x160100, 4, 5, 0⟩
def Reg.CHR_TAG_CFG_wmark : Fld := ⟨0x160100, 9, 5, 16⟩
def Reg.CHR_TAG_STAT_level : Fld := ⟨0x160104, 0, 6, 0⟩
def Reg.CHR_TAG_STAT_active : Fld := ⟨0x160104, 6, 6, 0⟩
def Reg.CHR_TREC_POP_pop : Fld := ⟨0x160108, 0, 1, 0⟩
def Reg.CHR_TREC_word (i : Nat) : Fld := ⟨0x160110 + 0x4 * i, 0, 32, 0⟩
def Reg.CHR_IS_CFG_en (i : Nat) : Fld := ⟨0x160200 + 0x40 * i, 0, 1, 0⟩
def Reg.CHR_IS_CFG_ipd (i : Nat) : Fld := ⟨0x160200 + 0x40 * i, 1, 20, 65536⟩
def Reg.CHR_IS_CFG_jitter_log2 (i : Nat) : Fld := ⟨0x160200 + 0x40 * i, 21, 5, 8⟩
def Reg.CHR_IS_CFG_wmark (i : Nat) : Fld := ⟨0x160200 + 0x40 * i, 26, 3, 4⟩
def Reg.CHR_IS_STAT_level (i : Nat) : Fld := ⟨0x160204 + 0x40 * i, 0, 4, 0⟩
def Reg.CHR_IS_STAT_pop (i : Nat) : Fld := ⟨0x160204 + 0x40 * i, 4, 1, 0⟩
def Reg.CHR_IS_PC_LO_pc (i : Nat) : Fld := ⟨0x160208 + 0x40 * i, 0, 32, 0⟩
def Reg.CHR_IS_PC_HI_pc (i : Nat) : Fld := ⟨0x16020c + 0x40 * i, 0, 32, 0⟩
def Reg.CHR_IS_INFO_latency (i : Nat) : Fld := ⟨0x160210 + 0x40 * i, 0, 16, 0⟩
def Reg.CHR_IS_INFO_flags (i : Nat) : Fld := ⟨0x160210 + 0x40 * i, 16, 4, 0⟩
def Reg.CHR_IS_INFO_secure (i : Nat) : Fld := ⟨0x160210 + 0x40 * i, 20, 1, 0⟩
def Reg.CHR_CNT_CFG_en (i : Nat) : Fld := ⟨0x160400 + 0x4 * i, 0, 1, 0⟩
def Reg.CHR_CNT_CFG_mode (i : Nat) : Fld := ⟨0x160400 + 0x4 * i, 1, 1, 0⟩
def Reg.CHR_CNT_CFG_epoch_sync (i : Nat) : Fld := ⟨0x160400 + 0x4 * i, 2, 1, 0⟩
def Reg.CHR_CNT_CFG_ovf (i : Nat) : Fld := ⟨0x160400 + 0x4 * i, 3, 1, 0⟩
def Reg.CHR_CNT_CFG_ovf_ev (i : Nat) : Fld := ⟨0x160400 + 0x4 * i, 4, 1, 0⟩
def Reg.CHR_CNT_CFG_kind (i : Nat) : Fld := ⟨0x160400 + 0x4 * i, 5, 1, 0⟩
def Reg.CHR_CNT_CFG_thr (i : Nat) : Fld := ⟨0x160400 + 0x4 * i, 16, 16, 1⟩
def Reg.CHR_CNT_SRC_src (i : Nat) : Fld := ⟨0x160500 + 0x4 * i, 0, 21, 0⟩
def Reg.CHR_HIST_CFG_en (i : Nat) : Fld := ⟨0x160600 + 0x10 * i, 0, 1, 0⟩
def Reg.CHR_HIST_CFG_src (i : Nat) : Fld := ⟨0x160600 + 0x10 * i, 1, 2, 0⟩
def Reg.CHR_HIST_CFG_log_mode (i : Nat) : Fld := ⟨0x160600 + 0x10 * i, 3, 1, 0⟩
def Reg.CHR_HIST_CFG_epoch_sync (i : Nat) : Fld := ⟨0x160600 + 0x10 * i, 4, 1, 0⟩
def Reg.CHR_HIST_CFG_alarm_ev (i : Nat) : Fld := ⟨0x160600 + 0x10 * i, 5, 1, 0⟩
def Reg.CHR_HIST_SEL_start (i : Nat) : Fld := ⟨0x160604 + 0x10 * i, 0, 3, 0⟩
def Reg.CHR_HIST_SEL_end (i : Nat) : Fld := ⟨0x160604 + 0x10 * i, 3, 3, 0⟩
def Reg.CHR_HIST_SEL_ingress_mask (i : Nat) : Fld := ⟨0x160604 + 0x10 * i, 6, 6, 63⟩
def Reg.CHR_HIST_SEL_dir (i : Nat) : Fld := ⟨0x160604 + 0x10 * i, 12, 2, 0⟩
def Reg.CHR_HIST_SEL_cnt (i : Nat) : Fld := ⟨0x160604 + 0x10 * i, 14, 6, 0⟩
def Reg.CHR_HIST_SEL_core (i : Nat) : Fld := ⟨0x160604 + 0x10 * i, 20, 2, 0⟩
def Reg.CHR_HIST_BIN_base (i : Nat) : Fld := ⟨0x160608 + 0x10 * i, 0, 24, 0⟩
def Reg.CHR_HIST_BIN_shift (i : Nat) : Fld := ⟨0x160608 + 0x10 * i, 24, 5, 0⟩
def Reg.CHR_HIST_STAT_sat (i : Nat) : Fld := ⟨0x16060c + 0x10 * i, 0, 1, 0⟩
def Reg.CHR_HIST_STAT_alarm (i : Nat) : Fld := ⟨0x16060c + 0x10 * i, 1, 1, 0⟩
def Reg.CHR_HIST_STAT_alarm_bin (i : Nat) : Fld := ⟨0x16060c + 0x10 * i, 2, 5, 0⟩

/-! ### PWR (chapter 19) -/

def Reg.PWR_STATUS_state : Fld := ⟨0x10000, 0, 2, 0⟩
def Reg.PWR_STATUS_warn : Fld := ⟨0x10000, 2, 1, 0⟩
def Reg.PWR_STATUS_strap_fault : Fld := ⟨0x10000, 3, 1, 0⟩
def Reg.PWR_STATUS_temp_warn : Fld := ⟨0x10000, 4, 1, 0⟩
def Reg.PWR_STATUS_d2d_ok : Fld := ⟨0x10000, 5, 1, 0⟩
def Reg.PWR_RST_CAUSE_cause : Fld := ⟨0x10004, 0, 7, 1⟩
def Reg.PWR_STRAP_straps : Fld := ⟨0x10008, 0, 9, 0⟩
def Reg.PWR_VMON_CFG_warn_mv : Fld := ⟨0x1000c, 0, 10, 600⟩
def Reg.PWR_VMON_CFG_rst_mv : Fld := ⟨0x1000c, 10, 10, 550⟩
def Reg.PWR_VMON_CFG_hyst_mv : Fld := ⟨0x1000c, 20, 6, 20⟩
def Reg.PWR_TEMP_temp_rf : Fld := ⟨0x10010, 0, 12, 0⟩
def Reg.PWR_TEMP_temp_dig : Fld := ⟨0x10010, 16, 12, 0⟩
def Reg.PWR_TEMP_CFG_warn_c : Fld := ⟨0x10014, 0, 8, 115⟩
def Reg.PWR_TEMP_CFG_trip_c : Fld := ⟨0x10014, 8, 8, 130⟩
def Reg.PWR_STATE_REQ_target : Fld := ⟨0x10018, 0, 2, 0⟩
def Reg.PWR_STATE_REQ_result : Fld := ⟨0x10018, 4, 3, 0⟩
def Reg.PWR_STATE_REQ_busy : Fld := ⟨0x10018, 8, 1, 0⟩
def Reg.PWR_WAKE_CFG_wake_eth : Fld := ⟨0x1001c, 0, 1, 1⟩
def Reg.PWR_WAKE_CFG_wake_host : Fld := ⟨0x1001c, 1, 1, 1⟩
def Reg.PWR_WAKE_CFG_wake_tci : Fld := ⟨0x1001c, 2, 4, 0⟩
def Reg.PWR_WAKE_CFG_wake_src : Fld := ⟨0x1001c, 8, 7, 0⟩
def Reg.PWR_RST_CMD_core : Fld := ⟨0x10020, 0, 4, 0⟩
def Reg.PWR_RST_CMD_chip : Fld := ⟨0x10020, 4, 1, 0⟩
def Reg.PWR_RST_CMD_key : Fld := ⟨0x10020, 16, 16, 0⟩
def Reg.PWR_DOM_core_pwr : Fld := ⟨0x10024, 0, 4, 1⟩
def Reg.PWR_DOM_core_down : Fld := ⟨0x10024, 8, 4, 14⟩
def Reg.PWR_WDT_CFG_en (i : Nat) : Fld := ⟨0x10040 + 0x8 * i, 0, 1, (if i = 0 then 1 else 0)⟩
def Reg.PWR_WDT_CFG_action (i : Nat) : Fld := ⟨0x10040 + 0x8 * i, 1, 1, (if i = 0 then 1 else 0)⟩
def Reg.PWR_WDT_CFG_timeout_ms (i : Nat) : Fld := ⟨0x10040 + 0x8 * i, 16, 16, 5000⟩
def Reg.PWR_WDT_KICK_kick (i : Nat) : Fld := ⟨0x10044 + 0x8 * i, 0, 1, 0⟩
def Reg.PWR_FC_CFG_auto_retire : Fld := ⟨0x10080, 0, 1, 1⟩
def Reg.PWR_FC_CFG_interf_epochs : Fld := ⟨0x10080, 4, 4, 5⟩
def Reg.PWR_FC_CFG_ovl_epochs : Fld := ⟨0x10080, 8, 4, 3⟩
def Reg.PWR_FC_CFG_retrain_epochs : Fld := ⟨0x10080, 12, 4, 3⟩
def Reg.PWR_FC_CFG_par_addr_limit : Fld := ⟨0x10080, 16, 4, 2⟩
def Reg.PWR_FC_CFG_par_addr_epochs : Fld := ⟨0x10080, 24, 8, 60⟩
def Reg.PWR_FC_CFG2_ovl_thr : Fld := ⟨0x10084, 0, 16, 100⟩
def Reg.PWR_FC_CFG2_leak_slots : Fld := ⟨0x10084, 16, 4, 4⟩
def Reg.PWR_PERM_SEL_entry : Fld := ⟨0x10088, 0, 4, 0⟩
def Reg.PWR_PERM_SEL_clear : Fld := ⟨0x10088, 31, 1, 0⟩
def Reg.PWR_PERM_RD_class : Fld := ⟨0x1008c, 0, 4, 0⟩
def Reg.PWR_PERM_RD_object : Fld := ⟨0x1008c, 4, 8, 0⟩
def Reg.PWR_PERM_RD_index : Fld := ⟨0x1008c, 12, 20, 0⟩
def Reg.PWR_PERM_CNT_count : Fld := ⟨0x10090, 0, 5, 0⟩

/-! ### GLB (chapter 19) -/

def Reg.GLB_ID_part : Fld := ⟨0x0, 0, 16, 33064⟩
def Reg.GLB_ID_rev : Fld := ⟨0x0, 16, 8, 176⟩
def Reg.GLB_CLAIM_CMD_resource : Fld := ⟨0x10, 0, 6, 0⟩
def Reg.GLB_CLAIM_CMD_owner : Fld := ⟨0x10, 8, 8, 0⟩
def Reg.GLB_CLAIM_CMD_op : Fld := ⟨0x10, 16, 2, 0⟩
def Reg.GLB_CLAIM_CMD_result : Fld := ⟨0x10, 20, 3, 0⟩
def Reg.GLB_CLAIM_CMD_holder_fw : Fld := ⟨0x10, 23, 1, 0⟩
def Reg.GLB_CLAIM_CMD_holder : Fld := ⟨0x10, 24, 8, 0⟩
def Reg.GLB_CLAIM_ERR_resource : Fld := ⟨0x14, 0, 6, 0⟩
def Reg.GLB_CLAIM_ERR_req_feature : Fld := ⟨0x14, 8, 6, 0⟩
def Reg.GLB_CLAIM_ERR_holder : Fld := ⟨0x14, 16, 8, 0⟩
def Reg.GLB_CLAIM_ERR_holder_fw : Fld := ⟨0x14, 24, 1, 0⟩
def Reg.GLB_CLAIM_ERR_code : Fld := ⟨0x14, 25, 3, 0⟩
def Reg.GLB_CLAIM_ERR_logged : Fld := ⟨0x14, 31, 1, 0⟩

/-! ### TXC (chapter 03) -/

/-- `TXC_CNT_COEX_GRANT` counts: Grants. -/
def Reg.TXC_CNT_COEX_GRANT : Nat := 0x50040
/-- `TXC_CNT_COEX_REVOKE` counts: Revokes. -/
def Reg.TXC_CNT_COEX_REVOKE : Nat := 0x50044

/-! ### BAL (chapter 02) -/

def Reg.BAL_SAMPLE_sample (i : Nat) : Fld := ⟨0x21000 + 0x4 * i, 0, 12, 0⟩

/-! ### AMC (chapter 07) -/

def Reg.AMC_EB_PL_octets (i : Nat) : Fld := ⟨0x90400 + 0x4 * i, 0, 32, 0⟩

end Sys2Proof.Machine
end

