-- ==== Sys2Proof/Machine/RegTable.lean ====
section
/-! DEFINITION. The register tables as data: for every field its access code (R6), what locks it and whether a
write waits for a boundary (R9), and the values it takes in (clamped or ignored). A field marked `own` is
written by a step of its own row of the table of commands, or under a rule of its own, never by the plain
write. Statistics counters are not listed: they are read only. -/

namespace Sys2Proof.Machine

/-- Access codes of R6; `own`: RW, and the write is a step of its own. -/
inductive Acc | ro | rw | w1c | wo | own
deriving DecidableEq, Repr

/-- What a write of a value outside the stated range does. -/
inductive Norm
  | any
  /-- the value is clamped into the range -/
  | clamp (lo hi : Nat)
  /-- a value outside the range is ignored -/
  | only (lo hi : Nat)
deriving DecidableEq, Repr

/-- One field of a register table, with its array dimensions. -/
structure Row where
  fld   : Nat → Nat → Fld
  base  : Nat
  s1    : Nat
  n1    : Nat
  s2    : Nat
  n2    : Nat
  acc   : Acc
  /-- the field that locks this one while it is not 0 -/
  lock  : Nat → Nat → Option Fld
  norm  : Norm
  /-- a write takes effect at a boundary that some step crosses -/
  defer : Bool

def glbRows : List Row := [
  ⟨fun _ _ => Reg.GLB_ID_part, 0x0, 0x1, 1, 0x1, 1, .ro, fun _ _ => none, .any, false⟩,
  ⟨fun _ _ => Reg.GLB_ID_rev, 0x0, 0x1, 1, 0x1, 1, .ro, fun _ _ => none, .any, false⟩,
  ⟨fun _ _ => Reg.GLB_CLAIM_CMD_resource, 0x10, 0x1, 1, 0x1, 1, .rw, fun _ _ => none, .any, false⟩,
  ⟨fun _ _ => Reg.GLB_CLAIM_CMD_owner, 0x10, 0x1, 1, 0x1, 1, .rw, fun _ _ => none, .any, false⟩,
  ⟨fun _ _ => Reg.GLB_CLAIM_CMD_op, 0x10, 0x1, 1, 0x1, 1, .wo, fun _ _ => none, .any, false⟩,
  ⟨fun _ _ => Reg.GLB_CLAIM_CMD_result, 0x10, 0x1, 1, 0x1, 1, .ro, fun _ _ => none, .any, false⟩,
  ⟨fun _ _ => Reg.GLB_CLAIM_CMD_holder_fw, 0x10, 0x1, 1, 0x1, 1, .ro, fun _ _ => none, .any, false⟩,
  ⟨fun _ _ => Reg.GLB_CLAIM_CMD_holder, 0x10, 0x1, 1, 0x1, 1, .ro, fun _ _ => none, .any, false⟩,
  ⟨fun _ _ => Reg.GLB_CLAIM_ERR_resource, 0x14, 0x1, 1, 0x1, 1, .ro, fun _ _ => none, .any, false⟩,
  ⟨fun _ _ => Reg.GLB_CLAIM_ERR_req_feature, 0x14, 0x1, 1, 0x1, 1, .ro, fun _ _ => none, .any, false⟩,
  ⟨fun _ _ => Reg.GLB_CLAIM_ERR_holder, 0x14, 0x1, 1, 0x1, 1, .ro, fun _ _ => none, .any, false⟩,
  ⟨fun _ _ => Reg.GLB_CLAIM_ERR_holder_fw, 0x14, 0x1, 1, 0x1, 1, .ro, fun _ _ => none, .any, false⟩,
  ⟨fun _ _ => Reg.GLB_CLAIM_ERR_code, 0x14, 0x1, 1, 0x1, 1, .ro, fun _ _ => none, .any, false⟩,
  ⟨fun _ _ => Reg.GLB_CLAIM_ERR_logged, 0x14, 0x1, 1, 0x1, 1, .w1c, fun _ _ => none, .any, false⟩]

def pwrRows0 : List Row := [
  ⟨fun _ _ => Reg.PWR_STATUS_state, 0x10000, 0x1, 1, 0x1, 1, .ro, fun _ _ => none, .any, false⟩,
  ⟨fun _ _ => Reg.PWR_STATUS_warn, 0x10000, 0x1, 1, 0x1, 1, .ro, fun _ _ => none, .any, false⟩,
  ⟨fun _ _ => Reg.PWR_STATUS_strap_fault, 0x10000, 0x1, 1, 0x1, 1, .ro, fun _ _ => none, .any, false⟩,
  ⟨fun _ _ => Reg.PWR_STATUS_temp_warn, 0x10000, 0x1, 1, 0x1, 1, .ro, fun _ _ => none, .any, false⟩,
  ⟨fun _ _ => Reg.PWR_STATUS_d2d_ok, 0x10000, 0x1, 1, 0x1, 1, .ro, fun _ _ => none, .any, false⟩,
  ⟨fun _ _ => Reg.PWR_RST_CAUSE_cause, 0x10004, 0x1, 1, 0x1, 1, .w1c, fun _ _ => none, .any, false⟩,
  ⟨fun _ _ => Reg.PWR_STRAP_straps, 0x10008, 0x1, 1, 0x1, 1, .ro, fun _ _ => none, .any, false⟩,
  ⟨fun _ _ => Reg.PWR_VMON_CFG_warn_mv, 0x1000c, 0x1, 1, 0x1, 1, .own, fun _ _ => none, .any, false⟩,
  ⟨fun _ _ => Reg.PWR_VMON_CFG_rst_mv, 0x1000c, 0x1, 1, 0x1, 1, .own, fun _ _ => none, .any, false⟩,
  ⟨fun _ _ => Reg.PWR_VMON_CFG_hyst_mv, 0x1000c, 0x1, 1, 0x1, 1, .own, fun _ _ => none, .any, false⟩,
  ⟨fun _ _ => Reg.PWR_TEMP_temp_rf, 0x10010, 0x1, 1, 0x1, 1, .ro, fun _ _ => none, .any, false⟩,
  ⟨fun _ _ => Reg.PWR_TEMP_temp_dig, 0x10010, 0x1, 1, 0x1, 1, .ro, fun _ _ => none, .any, false⟩,
  ⟨fun _ _ => Reg.PWR_TEMP_CFG_warn_c, 0x10014, 0x1, 1, 0x1, 1, .own, fun _ _ => none, .any, false⟩,
  ⟨fun _ _ => Reg.PWR_TEMP_CFG_trip_c, 0x10014, 0x1, 1, 0x1, 1, .own, fun _ _ => none, .any, false⟩,
  ⟨fun _ _ => Reg.PWR_STATE_REQ_target, 0x10018, 0x1, 1, 0x1, 1, .wo, fun _ _ => none, .any, false⟩,
  ⟨fun _ _ => Reg.PWR_STATE_REQ_result, 0x10018, 0x1, 1, 0x1, 1, .ro, fun _ _ => none, .any, false⟩,
  ⟨fun _ _ => Reg.PWR_STATE_REQ_busy, 0x10018, 0x1, 1, 0x1, 1, .ro, fun _ _ => none, .any, false⟩,
  ⟨fun _ _ => Reg.PWR_WAKE_CFG_wake_eth, 0x1001c, 0x1, 1, 0x1, 1, .rw, fun _ _ => none, .any, true⟩,
  ⟨fun _ _ => Reg.PWR_WAKE_CFG_wake_host, 0x1001c, 0x1, 1, 0x1, 1, .rw, fun _ _ => none, .any, true⟩,
  ⟨fun _ _ => Reg.PWR_WAKE_CFG_wake_tci, 0x1001c, 0x1, 1, 0x1, 1, .rw, fun _ _ => none, .any, true⟩,
  ⟨fun _ _ => Reg.PWR_WAKE_CFG_wake_src, 0x1001c, 0x1, 1, 0x1, 1, .w1c, fun _ _ => none, .any, false⟩,
  ⟨fun _ _ => Reg.PWR_RST_CMD_core, 0x10020, 0x1, 1, 0x1, 1, .wo, fun _ _ => none, .any, false⟩,
  ⟨fun _ _ => Reg.PWR_RST_CMD_chip, 0x10020, 0x1, 1, 0x1, 1, .wo, fun _ _ => none, .any, false⟩,
  ⟨fun _ _ => Reg.PWR_RST_CMD_key, 0x10020, 0x1, 1, 0x1, 1, .wo, fun _ _ => none, .any, false⟩,
  ⟨fun _ _ => Reg.PWR_DOM_core_pwr, 0x10024, 0x1, 1, 0x1, 1, .own, fun _ _ => none, .any, false⟩,
  ⟨fun _ _ => Reg.PWR_DOM_core_down, 0x10024, 0x1, 1, 0x1, 1, .ro, fun _ _ => none, .any, false⟩,
  ⟨fun i _ => Reg.PWR_WDT_CFG_en i, 0x10040, 0x8, 4, 0x1, 1, .own, fun _ _ => none, .any, false⟩,
  ⟨fun i _ => Reg.PWR_WDT_CFG_action i, 0x10040, 0x8, 4, 0x1, 1, .own, fun _ _ => none, .any, false⟩,
  ⟨fun i _ => Reg.PWR_WDT_CFG_timeout_ms i, 0x10040, 0x8, 4, 0x1, 1, .own, fun _ _ => none, .any, false⟩,
  ⟨fun i _ => Reg.PWR_WDT_KICK_kick i, 0x10044, 0x8, 4, 0x1, 1, .wo, fun _ _ => none, .any, false⟩,
  ⟨fun _ _ => Reg.PWR_FC_CFG_auto_retire, 0x10080, 0x1, 1, 0x1, 1, .rw, fun _ _ => none, .any, false⟩,
  ⟨fun _ _ => Reg.PWR_FC_CFG_interf_epochs, 0x10080, 0x1, 1, 0x1, 1, .rw, fun _ _ => none, .any, true⟩,
  ⟨fun _ _ => Reg.PWR_FC_CFG_ovl_epochs, 0x10080, 0x1, 1, 0x1, 1, .rw, fun _ _ => none, .any, true⟩,
  ⟨fun _ _ => Reg.PWR_FC_CFG_retrain_epochs, 0x10080, 0x1, 1, 0x1, 1, .rw, fun _ _ => none, .any, true⟩,
  ⟨fun _ _ => Reg.PWR_FC_CFG_par_addr_limit, 0x10080, 0x1, 1, 0x1, 1, .rw, fun _ _ => none, .any, true⟩,
  ⟨fun _ _ => Reg.PWR_FC_CFG_par_addr_epochs, 0x10080, 0x1, 1, 0x1, 1, .rw, fun _ _ => none, .any, true⟩,
  ⟨fun _ _ => Reg.PWR_FC_CFG2_ovl_thr, 0x10084, 0x1, 1, 0x1, 1, .rw, fun _ _ => none, .any, true⟩,
  ⟨fun _ _ => Reg.PWR_FC_CFG2_leak_slots, 0x10084, 0x1, 1, 0x1, 1, .rw, fun _ _ => none, .any, true⟩,
  ⟨fun _ _ => Reg.PWR_PERM_SEL_entry, 0x10088, 0x1, 1, 0x1, 1, .rw, fun _ _ => none, .any, false⟩,
  ⟨fun _ _ => Reg.PWR_PERM_SEL_clear, 0x10088, 0x1, 1, 0x1, 1, .wo, fun _ _ => none, .any, false⟩]

def pwrRows1 : List Row := [
  ⟨fun _ _ => Reg.PWR_PERM_RD_class, 0x1008c, 0x1, 1, 0x1, 1, .ro, fun _ _ => none, .any, false⟩,
  ⟨fun _ _ => Reg.PWR_PERM_RD_object, 0x1008c, 0x1, 1, 0x1, 1, .ro, fun _ _ => none, .any, false⟩,
  ⟨fun _ _ => Reg.PWR_PERM_RD_index, 0x1008c, 0x1, 1, 0x1, 1, .ro, fun _ _ => none, .any, false⟩,
  ⟨fun _ _ => Reg.PWR_PERM_CNT_count, 0x10090, 0x1, 1, 0x1, 1, .ro, fun _ _ => none, .any, false⟩]

def pwrRows : List Row := pwrRows0 ++ pwrRows1

def balRows0 : List Row := [
  ⟨fun _ _ => Reg.BAL_CTRL_enable, 0x20000, 0x1, 1, 0x1, 1, .own, fun _ _ => none, .any, false⟩,
  ⟨fun _ _ => Reg.BAL_CTRL_learn_en, 0x20000, 0x1, 1, 0x1, 1, .rw, fun _ _ => none, .any, false⟩,
  ⟨fun _ _ => Reg.BAL_CTRL_steer_en, 0x20000, 0x1, 1, 0x1, 1, .rw, fun _ _ => none, .any, false⟩,
  ⟨fun _ _ => Reg.BAL_CTRL_cyc_force, 0x20000, 0x1, 1, 0x1, 1, .wo, fun _ _ => none, .any, false⟩,
  ⟨fun _ _ => Reg.BAL_CTRL_snap, 0x20000, 0x1, 1, 0x1, 1, .wo, fun _ _ => none, .any, false⟩,
  ⟨fun _ _ => Reg.BAL_STATUS_state, 0x20004, 0x1, 1, 0x1, 1, .ro, fun _ _ => none, .any, false⟩,
  ⟨fun _ _ => Reg.BAL_STATUS_slewing, 0x20004, 0x1, 1, 0x1, 1, .ro, fun _ _ => none, .any, false⟩,
  ⟨fun _ _ => Reg.BAL_STATUS_source_act, 0x20004, 0x1, 1, 0x1, 1, .ro, fun _ _ => none, .any, false⟩,
  ⟨fun _ _ => Reg.BAL_STATUS_freq_range_err, 0x20004, 0x1, 1, 0x1, 1, .ro, fun _ _ => none, .any, false⟩,
  ⟨fun _ _ => Reg.BAL_STATUS_cyc_valid, 0x20004, 0x1, 1, 0x1, 1, .ro, fun _ _ => none, .any, false⟩,
  ⟨fun _ _ => Reg.BAL_STATUS_refclk_unlocked, 0x20004, 0x1, 1, 0x1, 1, .ro, fun _ _ => none, .any, false⟩,
  ⟨fun _ _ => Reg.BAL_GRID_CFG_source, 0x20008, 0x1, 1, 0x1, 1, .rw, fun _ _ => some (Reg.BAL_CTRL_enable), .only 0 2, false⟩,
  ⟨fun _ _ => Reg.BAL_GRID_CFG_nominal, 0x20008, 0x1, 1, 0x1, 1, .rw, fun _ _ => some (Reg.BAL_CTRL_enable), .any, false⟩,
  ⟨fun _ _ => Reg.BAL_GRID_CFG_zc_invert, 0x20008, 0x1, 1, 0x1, 1, .rw, fun _ _ => some (Reg.BAL_CTRL_enable), .any, false⟩,
  ⟨fun _ _ => Reg.BAL_GRID_CFG_rl_count, 0x20008, 0x1, 1, 0x1, 1, .rw, fun _ _ => none, .any, false⟩,
  ⟨fun _ _ => Reg.BAL_GRID_CFG_miss_limit, 0x20008, 0x1, 1, 0x1, 1, .rw, fun _ _ => none, .any, false⟩,
  ⟨fun _ _ => Reg.BAL_GRID_CFG_lock_count, 0x20008, 0x1, 1, 0x1, 1, .rw, fun _ _ => none, .any, false⟩,
  ⟨fun _ _ => Reg.BAL_GRID_CFG_hold_safe, 0x20008, 0x1, 1, 0x1, 1, .rw, fun _ _ => none, .any, false⟩,
  ⟨fun _ _ => Reg.BAL_ZC_DELAY_zc_delay, 0x2000c, 0x1, 1, 0x1, 1, .rw, fun _ _ => none, .any, false⟩,
  ⟨fun _ _ => Reg.BAL_LOOP_kp_shift, 0x20010, 0x1, 1, 0x1, 1, .rw, fun _ _ => none, .any, false⟩,
  ⟨fun _ _ => Reg.BAL_LOOP_ki_shift, 0x20010, 0x1, 1, 0x1, 1, .rw, fun _ _ => none, .any, false⟩,
  ⟨fun _ _ => Reg.BAL_LOOP_kavg_shift, 0x20010, 0x1, 1, 0x1, 1, .rw, fun _ _ => none, .any, false⟩,
  ⟨fun _ _ => Reg.BAL_LOOP_steer_shift, 0x20010, 0x1, 1, 0x1, 1, .rw, fun _ _ => none, .any, false⟩,
  ⟨fun _ _ => Reg.BAL_LOOP_slew_max, 0x20010, 0x1, 1, 0x1, 1, .rw, fun _ _ => none, .any, false⟩,
  ⟨fun _ _ => Reg.BAL_LOCK_CFG_window, 0x20014, 0x1, 1, 0x1, 1, .rw, fun _ _ => none, .any, false⟩,
  ⟨fun _ _ => Reg.BAL_LOCK_CFG_lock_thr, 0x20014, 0x1, 1, 0x1, 1, .rw, fun _ _ => none, .any, false⟩,
  ⟨fun _ _ => Reg.BAL_STEP_THR_step_thr, 0x20018, 0x1, 1, 0x1, 1, .rw, fun _ _ => none, .any, false⟩,
  ⟨fun _ _ => Reg.BAL_SITE_PHASE_site_phase, 0x2001c, 0x1, 1, 0x1, 1, .rw, fun _ _ => none, .any, true⟩,
  ⟨fun _ _ => Reg.BAL_PERIOD_period, 0x20020, 0x1, 1, 0x1, 1, .ro, fun _ _ => none, .any, false⟩,
  ⟨fun _ _ => Reg.BAL_PHASE_ERR_phase_err, 0x20024, 0x1, 1, 0x1, 1, .ro, fun _ _ => none, .any, false⟩,
  ⟨fun _ _ => Reg.BAL_SNAP_ANGLE_LO_angle_lo, 0x20028, 0x1, 1, 0x1, 1, .ro, fun _ _ => none, .any, false⟩,
  ⟨fun _ _ => Reg.BAL_SNAP_ANGLE_HI_angle_hi, 0x2002c, 0x1, 1, 0x1, 1, .ro, fun _ _ => none, .any, false⟩,
  ⟨fun _ _ => Reg.BAL_SNAP_LTB_LO_ltb_lo, 0x20030, 0x1, 1, 0x1, 1, .ro, fun _ _ => none, .any, false⟩,
  ⟨fun _ _ => Reg.BAL_SNAP_LTB_HI_ltb_hi, 0x20034, 0x1, 1, 0x1, 1, .ro, fun _ _ => none, .any, false⟩,
  ⟨fun _ _ => Reg.BAL_SNAP_PTP_SEC_LO_sec_lo, 0x20038, 0x1, 1, 0x1, 1, .ro, fun _ _ => none, .any, false⟩,
  ⟨fun _ _ => Reg.BAL_SNAP_PTP_SEC_HI_sec_hi, 0x2003c, 0x1, 1, 0x1, 1, .ro, fun _ _ => none, .any, false⟩,
  ⟨fun _ _ => Reg.BAL_SNAP_PTP_NS_ns, 0x20040, 0x1, 1, 0x1, 1, .ro, fun _ _ => none, .any, false⟩,
  ⟨fun _ _ => Reg.BAL_CYC_LOAD_cyc_load, 0x20044, 0x1, 1, 0x1, 1, .own, fun _ _ => none, .any, false⟩,
  ⟨fun _ _ => Reg.BAL_EPOCH_LEN_epoch_len, 0x20048, 0x1, 1, 0x1, 1, .rw, fun _ _ => none, .only 1 65535, true⟩,
  ⟨fun _ _ => Reg.BAL_EPOCH_NUM_epoch_num, 0x2004c, 0x1, 1, 0x1, 1, .ro, fun _ _ => none, .any, false⟩]

def balRows1 : List Row := [
  ⟨fun _ _ => Reg.BAL_EPOCH_STAT_unread, 0x20050, 0x1, 1, 0x1, 1, .w1c, fun _ _ => none, .any, false⟩,
  ⟨fun _ _ => Reg.BAL_EPOCH_STAT_overrun, 0x20050, 0x1, 1, 0x1, 1, .w1c, fun _ _ => none, .any, false⟩,
  ⟨fun _ _ => Reg.BAL_OFFSET_CFG_learn_shift, 0x20054, 0x1, 1, 0x1, 1, .rw, fun _ _ => none, .any, false⟩,
  ⟨fun _ _ => Reg.BAL_OFFSET_CFG_relearn_count, 0x20054, 0x1, 1, 0x1, 1, .rw, fun _ _ => none, .any, false⟩,
  ⟨fun _ _ => Reg.BAL_OFFSET_CFG_outlier_thr, 0x20054, 0x1, 1, 0x1, 1, .rw, fun _ _ => none, .any, false⟩,
  ⟨fun _ _ => Reg.BAL_OFFSET_CFG_min_conf, 0x20054, 0x1, 1, 0x1, 1, .rw, fun _ _ => none, .any, false⟩,
  ⟨fun _ _ => Reg.BAL_PTP_CTRL_pps_out_en, 0x20060, 0x1, 1, 0x1, 1, .own, fun _ _ => none, .any, false⟩,
  ⟨fun _ _ => Reg.BAL_PTP_CTRL_pps_in_en, 0x20060, 0x1, 1, 0x1, 1, .rw, fun _ _ => none, .any, false⟩,
  ⟨fun _ _ => Reg.BAL_PTP_CTRL_pps_width, 0x20060, 0x1, 1, 0x1, 1, .rw, fun _ _ => none, .any, false⟩,
  ⟨fun _ _ => Reg.BAL_PTP_RATE_rate, 0x20064, 0x1, 1, 0x1, 1, .own, fun _ _ => none, .any, false⟩,
  ⟨fun _ _ => Reg.BAL_PTP_SET_SEC_LO_set_sec_lo, 0x20068, 0x1, 1, 0x1, 1, .rw, fun _ _ => none, .any, false⟩,
  ⟨fun _ _ => Reg.BAL_PTP_SET_SEC_HI_set_sec_hi, 0x2006c, 0x1, 1, 0x1, 1, .rw, fun _ _ => none, .any, false⟩,
  ⟨fun _ _ => Reg.BAL_PTP_SET_NS_set_ns, 0x20070, 0x1, 1, 0x1, 1, .wo, fun _ _ => none, .any, false⟩,
  ⟨fun _ _ => Reg.BAL_PTP_ADJ_adj, 0x20074, 0x1, 1, 0x1, 1, .wo, fun _ _ => none, .any, false⟩,
  ⟨fun _ _ => Reg.BAL_PPS_IN_LTB_LO_ltb_lo, 0x20078, 0x1, 1, 0x1, 1, .ro, fun _ _ => none, .any, false⟩,
  ⟨fun _ _ => Reg.BAL_PPS_IN_LTB_HI_ltb_hi, 0x2007c, 0x1, 1, 0x1, 1, .ro, fun _ _ => none, .any, false⟩,
  ⟨fun _ _ => Reg.BAL_PPS_IN_NS_ns, 0x20080, 0x1, 1, 0x1, 1, .ro, fun _ _ => none, .any, false⟩,
  ⟨fun i _ => Reg.BAL_TT_CTRL_en i, 0x20100, 0x20, 8, 0x1, 1, .own, fun _ _ => none, .any, false⟩,
  ⟨fun i _ => Reg.BAL_TT_CTRL_action i, 0x20100, 0x20, 8, 0x1, 1, .rw, fun _ _ => none, .any, false⟩,
  ⟨fun i _ => Reg.BAL_TT_CTRL_out_sel i, 0x20100, 0x20, 8, 0x1, 1, .rw, fun i _ => some (Reg.BAL_TT_CTRL_en i), .any, false⟩,
  ⟨fun i _ => Reg.BAL_TT_CTRL_late_pol i, 0x20100, 0x20, 8, 0x1, 1, .rw, fun _ _ => none, .any, false⟩,
  ⟨fun i _ => Reg.BAL_TT_CTRL_hold_gate i, 0x20100, 0x20, 8, 0x1, 1, .rw, fun _ _ => none, .any, false⟩,
  ⟨fun i _ => Reg.BAL_TT_CTRL_ev_en i, 0x20100, 0x20, 8, 0x1, 1, .rw, fun _ _ => none, .any, false⟩,
  ⟨fun i _ => Reg.BAL_TT_CTRL_lead i, 0x20100, 0x20, 8, 0x1, 1, .rw, fun _ _ => none, .any, false⟩,
  ⟨fun i _ => Reg.BAL_TT_ANG_LO_ang_lo i, 0x20104, 0x20, 8, 0x1, 1, .rw, fun _ _ => none, .any, false⟩,
  ⟨fun i _ => Reg.BAL_TT_ANG_HI_ang_hi i, 0x20108, 0x20, 8, 0x1, 1, .own, fun _ _ => none, .any, false⟩,
  ⟨fun i _ => Reg.BAL_TT_PER_period i, 0x2010c, 0x20, 8, 0x1, 1, .rw, fun _ _ => none, .any, false⟩,
  ⟨fun i _ => Reg.BAL_TT_WIDTH_width i, 0x20110, 0x20, 8, 0x1, 1, .rw, fun _ _ => none, .any, false⟩,
  ⟨fun i _ => Reg.BAL_TT_STAT_armed i, 0x20114, 0x20, 8, 0x1, 1, .ro, fun _ _ => none, .any, false⟩,
  ⟨fun i _ => Reg.BAL_TT_STAT_late i, 0x20114, 0x20, 8, 0x1, 1, .w1c, fun _ _ => none, .any, false⟩,
  ⟨fun i _ => Reg.BAL_TT_STAT_burst_done i, 0x20114, 0x20, 8, 0x1, 1, .w1c, fun _ _ => none, .any, false⟩,
  ⟨fun i _ => Reg.BAL_TCI_CTRL_en i, 0x20200, 0x20, 4, 0x1, 1, .own, fun _ _ => none, .any, false⟩,
  ⟨fun i _ => Reg.BAL_TCI_CTRL_edge i, 0x20200, 0x20, 4, 0x1, 1, .rw, fun _ _ => none, .any, false⟩,
  ⟨fun i _ => Reg.BAL_TCI_CTRL_ev_en i, 0x20200, 0x20, 4, 0x1, 1, .rw, fun _ _ => none, .any, false⟩,
  ⟨fun i _ => Reg.BAL_TCI_CTRL_pop i, 0x20200, 0x20, 4, 0x1, 1, .wo, fun _ _ => none, .any, false⟩,
  ⟨fun i _ => Reg.BAL_TCI_CTRL_filter i, 0x20200, 0x20, 4, 0x1, 1, .rw, fun _ _ => none, .any, false⟩,
  ⟨fun i _ => Reg.BAL_TCI_STAT_level i, 0x20204, 0x20, 4, 0x1, 1, .ro, fun _ _ => none, .any, false⟩,
  ⟨fun i _ => Reg.BAL_TCI_STAT_overrun i, 0x20204, 0x20, 4, 0x1, 1, .w1c, fun _ _ => none, .any, false⟩,
  ⟨fun i _ => Reg.BAL_TCI_STAT_polarity i, 0x20204, 0x20, 4, 0x1, 1, .ro, fun _ _ => none, .any, false⟩,
  ⟨fun i _ => Reg.BAL_TCI_LTB_LO_ltb_lo i, 0x20208, 0x20, 4, 0x1, 1, .ro, fun _ _ => none, .any, false⟩]

def balRows2 : List Row := [
  ⟨fun i _ => Reg.BAL_TCI_LTB_HI_ltb_hi i, 0x2020c, 0x20, 4, 0x1, 1, .ro, fun _ _ => none, .any, false⟩,
  ⟨fun i _ => Reg.BAL_TCI_ANGLE_LO_angle_lo i, 0x20210, 0x20, 4, 0x1, 1, .ro, fun _ _ => none, .any, false⟩,
  ⟨fun i _ => Reg.BAL_TCI_ANGLE_HI_angle_hi i, 0x20214, 0x20, 4, 0x1, 1, .ro, fun _ _ => none, .any, false⟩,
  ⟨fun _ _ => Reg.BAL_AIN_CFG_hyst, 0x20300, 0x1, 1, 0x1, 1, .rw, fun _ _ => none, .any, false⟩,
  ⟨fun i _ => Reg.BAL_CMP_CTRL_en i, 0x20400, 0x10, 16, 0x1, 1, .own, fun _ _ => none, .any, false⟩,
  ⟨fun i _ => Reg.BAL_CMP_CTRL_ev_en i, 0x20400, 0x10, 16, 0x1, 1, .own, fun _ _ => none, .any, false⟩,
  ⟨fun i _ => Reg.BAL_CMP_CTRL_fired i, 0x20400, 0x10, 16, 0x1, 1, .w1c, fun _ _ => none, .any, false⟩,
  ⟨fun i _ => Reg.BAL_CMP_CTRL_late i, 0x20400, 0x10, 16, 0x1, 1, .w1c, fun _ _ => none, .any, false⟩,
  ⟨fun i _ => Reg.BAL_CMP_CTRL_armed i, 0x20400, 0x10, 16, 0x1, 1, .ro, fun _ _ => none, .any, false⟩,
  ⟨fun i _ => Reg.BAL_CMP_LO_tgt_lo i, 0x20404, 0x10, 16, 0x1, 1, .own, fun _ _ => none, .any, false⟩,
  ⟨fun i _ => Reg.BAL_CMP_HI_tgt_hi i, 0x20408, 0x10, 16, 0x1, 1, .own, fun _ _ => none, .any, false⟩,
  ⟨fun i _ => Reg.BAL_CMP_PER_period i, 0x2040c, 0x10, 16, 0x1, 1, .own, fun _ _ => none, .any, false⟩,
  ⟨fun i _ => Reg.BAL_TSF_STAT_level i, 0x20340, 0x4, 6, 0x1, 1, .ro, fun _ _ => none, .any, false⟩,
  ⟨fun i _ => Reg.BAL_TSF_STAT_lost i, 0x20340, 0x4, 6, 0x1, 1, .ro, fun _ _ => none, .any, false⟩,
  ⟨fun i _ => Reg.BAL_SAMPLE_sample i, 0x21000, 0x4, 1024, 0x1, 1, .ro, fun _ _ => none, .any, false⟩]

def balRows : List Row := balRows0 ++ balRows1 ++ balRows2

def rfxRows : List Row := [
  ⟨fun i _ => Reg.RFX_CTRL_enable i, 0x30000, 0x10000, 2, 0x1, 1, .own, fun _ _ => none, .any, false⟩,
  ⟨fun i _ => Reg.RFX_CTRL_cal_mode i, 0x30000, 0x10000, 2, 0x1, 1, .rw, fun i _ => some (Reg.RFX_CTRL_enable i), .any, false⟩,
  ⟨fun i _ => Reg.RFX_CTRL_startcal i, 0x30000, 0x10000, 2, 0x1, 1, .wo, fun i _ => some (Reg.RFX_CTRL_enable i), .any, false⟩,
  ⟨fun i _ => Reg.RFX_CTRL_cal_req i, 0x30000, 0x10000, 2, 0x1, 1, .wo, fun _ _ => none, .any, false⟩,
  ⟨fun i _ => Reg.RFX_CTRL_gain_manual i, 0x30000, 0x10000, 2, 0x1, 1, .rw, fun _ _ => none, .any, true⟩,
  ⟨fun i _ => Reg.RFX_STATUS_state i, 0x30004, 0x10000, 2, 0x1, 1, .ro, fun _ _ => none, .any, false⟩,
  ⟨fun i _ => Reg.RFX_STATUS_cal_done i, 0x30004, 0x10000, 2, 0x1, 1, .ro, fun _ _ => none, .any, false⟩,
  ⟨fun i _ => Reg.RFX_STATUS_ir_ok i, 0x30004, 0x10000, 2, 0x1, 1, .ro, fun _ _ => none, .any, false⟩,
  ⟨fun i _ => Reg.RFX_STATUS_region_block i, 0x30004, 0x10000, 2, 0x1, 1, .ro, fun _ _ => none, .any, false⟩,
  ⟨fun i _ => Reg.RFX_STATUS_compat_cal_pending i, 0x30004, 0x10000, 2, 0x1, 1, .ro, fun _ _ => none, .any, false⟩,
  ⟨fun i _ => Reg.RFX_STATUS_gain_idx i, 0x30004, 0x10000, 2, 0x1, 1, .ro, fun _ _ => none, .any, false⟩,
  ⟨fun i _ => Reg.RFX_TUNE_lo_khz i, 0x30008, 0x10000, 2, 0x1, 1, .rw, fun i _ => some (Reg.RFX_CTRL_enable i), .any, false⟩,
  ⟨fun i _ => Reg.RFX_TUNE_bw i, 0x30008, 0x10000, 2, 0x1, 1, .rw, fun i _ => some (Reg.RFX_CTRL_enable i), .any, false⟩,
  ⟨fun i _ => Reg.RFX_GAIN_CFG_epoch_us i, 0x3000c, 0x10000, 2, 0x1, 1, .rw, fun _ _ => none, .clamp 250 10000, true⟩,
  ⟨fun i _ => Reg.RFX_GAIN_CFG_hi_thr i, 0x3000c, 0x10000, 2, 0x1, 1, .rw, fun _ _ => none, .any, true⟩,
  ⟨fun i _ => Reg.RFX_GAIN_CFG_lo_thr i, 0x3000c, 0x10000, 2, 0x1, 1, .rw, fun _ _ => none, .any, true⟩,
  ⟨fun i _ => Reg.RFX_GAIN_CFG2_up_epochs i, 0x30010, 0x10000, 2, 0x1, 1, .rw, fun _ _ => none, .any, true⟩,
  ⟨fun i _ => Reg.RFX_GAIN_CFG2_hold_epochs i, 0x30010, 0x10000, 2, 0x1, 1, .rw, fun _ _ => none, .any, true⟩,
  ⟨fun i _ => Reg.RFX_GAIN_CFG2_ovl_count i, 0x30010, 0x10000, 2, 0x1, 1, .rw, fun _ _ => none, .any, false⟩,
  ⟨fun i _ => Reg.RFX_GAIN_CFG2_ovl_step i, 0x30010, 0x10000, 2, 0x1, 1, .rw, fun _ _ => none, .any, false⟩,
  ⟨fun i _ => Reg.RFX_GAIN_CFG2_gain_man i, 0x30010, 0x10000, 2, 0x1, 1, .rw, fun _ _ => none, .clamp 0 20, true⟩,
  ⟨fun i _ => Reg.RFX_CAL_CFG_ir_period i, 0x30014, 0x10000, 2, 0x1, 1, .rw, fun _ _ => none, .any, false⟩,
  ⟨fun i _ => Reg.RFX_CAL_CFG_ir_stale i, 0x30014, 0x10000, 2, 0x1, 1, .rw, fun _ _ => none, .any, false⟩,
  ⟨fun i _ => Reg.RFX_CAL_CFG_temp_delta i, 0x30014, 0x10000, 2, 0x1, 1, .rw, fun _ _ => none, .any, false⟩,
  ⟨fun i _ => Reg.RFX_IR_STAT_ir_worst i, 0x30018, 0x10000, 2, 0x1, 1, .ro, fun _ _ => none, .any, false⟩,
  ⟨fun i _ => Reg.RFX_IR_STAT_ir_seg i, 0x30018, 0x10000, 2, 0x1, 1, .ro, fun _ _ => none, .any, false⟩,
  ⟨fun i _ => Reg.RFX_IR_STAT_temp i, 0x30018, 0x10000, 2, 0x1, 1, .ro, fun _ _ => none, .any, false⟩]

def txcRows0 : List Row := [
  ⟨fun _ _ => Reg.TXC_COEX_CTRL_coex_en, 0x50000, 0x1, 1, 0x1, 1, .own, fun _ _ => none, .any, false⟩,
  ⟨fun _ _ => Reg.TXC_COEX_CTRL_band, 0x50000, 0x1, 1, 0x1, 1, .rw, fun _ _ => some (Reg.TXC_COEX_CTRL_coex_en), .only 1 3, false⟩,
  ⟨fun _ _ => Reg.TXC_COEX_CTRL_prio_pol, 0x50000, 0x1, 1, 0x1, 1, .rw, fun _ _ => some (Reg.TXC_COEX_CTRL_coex_en), .any, false⟩,
  ⟨fun _ _ => Reg.TXC_COEX_CTRL_grant_pol, 0x50000, 0x1, 1, 0x1, 1, .rw, fun _ _ => some (Reg.TXC_COEX_CTRL_coex_en), .any, false⟩,
  ⟨fun _ _ => Reg.TXC_COEX_CTRL_grant_delay, 0x50000, 0x1, 1, 0x1, 1, .rw, fun _ _ => none, .any, false⟩,
  ⟨fun _ _ => Reg.TXC_COEX_CTRL_revoke_lead, 0x50000, 0x1, 1, 0x1, 1, .rw, fun _ _ => none, .any, false⟩,
  ⟨fun _ _ => Reg.TXC_COEX_CFG_req_max, 0x50004, 0x1, 1, 0x1, 1, .rw, fun _ _ => none, .any, false⟩,
  ⟨fun _ _ => Reg.TXC_COEX_STAT_req, 0x50008, 0x1, 1, 0x1, 1, .ro, fun _ _ => none, .any, false⟩,
  ⟨fun _ _ => Reg.TXC_COEX_STAT_prio, 0x50008, 0x1, 1, 0x1, 1, .ro, fun _ _ => none, .any, false⟩,
  ⟨fun _ _ => Reg.TXC_COEX_STAT_grant, 0x50008, 0x1, 1, 0x1, 1, .ro, fun _ _ => none, .any, false⟩,
  ⟨fun _ _ => Reg.TXC_COEX_STAT_req_max_hit, 0x50008, 0x1, 1, 0x1, 1, .w1c, fun _ _ => none, .any, false⟩,
  ⟨fun i _ => Reg.TXC_CTRL_enable i, 0x50100, 0x100, 4, 0x1, 1, .own, fun _ _ => none, .any, false⟩,
  ⟨fun i _ => Reg.TXC_CTRL_startcal i, 0x50100, 0x100, 4, 0x1, 1, .wo, fun i _ => some (Reg.TXC_STATUS_state i), .any, false⟩,
  ⟨fun i _ => Reg.TXC_CTRL_ext_pa i, 0x50100, 0x100, 4, 0x1, 1, .rw, fun i _ => some (Reg.TXC_STATUS_state i), .any, false⟩,
  ⟨fun i _ => Reg.TXC_CTRL_det_mode i, 0x50100, 0x100, 4, 0x1, 1, .rw, fun i _ => some (Reg.TXC_STATUS_state i), .any, false⟩,
  ⟨fun i _ => Reg.TXC_CTRL_auto_fill i, 0x50100, 0x100, 4, 0x1, 1, .rw, fun _ _ => none, .any, false⟩,
  ⟨fun i _ => Reg.TXC_CTRL_paen_pol i, 0x50100, 0x100, 4, 0x1, 1, .rw, fun i _ => some (Reg.TXC_STATUS_state i), .any, false⟩,
  ⟨fun i _ => Reg.TXC_CTRL_sw_pol i, 0x50100, 0x100, 4, 0x1, 1, .rw, fun i _ => some (Reg.TXC_STATUS_state i), .any, false⟩,
  ⟨fun i _ => Reg.TXC_STATUS_state i, 0x50104, 0x100, 4, 0x1, 1, .ro, fun _ _ => none, .any, false⟩,
  ⟨fun i _ => Reg.TXC_STATUS_cal_done i, 0x50104, 0x100, 4, 0x1, 1, .ro, fun _ _ => none, .any, false⟩,
  ⟨fun i _ => Reg.TXC_STATUS_locked i, 0x50104, 0x100, 4, 0x1, 1, .ro, fun _ _ => none, .any, false⟩,
  ⟨fun i _ => Reg.TXC_STATUS_cache_count i, 0x50104, 0x100, 4, 0x1, 1, .ro, fun _ _ => none, .any, false⟩,
  ⟨fun i _ => Reg.TXC_STATUS_cal_fail i, 0x50104, 0x100, 4, 0x1, 1, .w1c, fun _ _ => none, .any, false⟩,
  ⟨fun i _ => Reg.TXC_STATUS_region_block i, 0x50104, 0x100, 4, 0x1, 1, .ro, fun _ _ => none, .any, false⟩,
  ⟨fun i _ => Reg.TXC_RAMP_ramp_len i, 0x50108, 0x100, 4, 0x1, 1, .own, fun _ _ => none, .any, false⟩,
  ⟨fun i _ => Reg.TXC_RAMP_ramp_shape i, 0x50108, 0x100, 4, 0x1, 1, .rw, fun _ _ => none, .any, false⟩,
  ⟨fun i _ => Reg.TXC_PWR_power_set i, 0x5010c, 0x100, 4, 0x1, 1, .rw, fun _ _ => none, .any, false⟩,
  ⟨fun i _ => Reg.TXC_PWR_power_max i, 0x5010c, 0x100, 4, 0x1, 1, .rw, fun _ _ => none, .any, false⟩,
  ⟨fun i _ => Reg.TXC_EXTPA_pa_gain i, 0x50110, 0x100, 4, 0x1, 1, .rw, fun i _ => some (Reg.TXC_STATUS_state i), .any, false⟩,
  ⟨fun i _ => Reg.TXC_DET_det_slope i, 0x50114, 0x100, 4, 0x1, 1, .rw, fun i _ => some (Reg.TXC_STATUS_state i), .any, false⟩,
  ⟨fun i _ => Reg.TXC_DET_det_icpt i, 0x50114, 0x100, 4, 0x1, 1, .rw, fun i _ => some (Reg.TXC_STATUS_state i), .any, false⟩,
  ⟨fun i _ => Reg.TXC_CACHE_FREQ_freq_khz i, 0x50118, 0x100, 4, 0x1, 1, .rw, fun _ _ => none, .any, false⟩,
  ⟨fun i _ => Reg.TXC_CACHE_CMD_slot i, 0x5011c, 0x100, 4, 0x1, 1, .rw, fun _ _ => none, .any, false⟩,
  ⟨fun i _ => Reg.TXC_CACHE_CMD_op i, 0x5011c, 0x100, 4, 0x1, 1, .wo, fun _ _ => none, .any, false⟩,
  ⟨fun i _ => Reg.TXC_CACHE_CMD_busy i, 0x5011c, 0x100, 4, 0x1, 1, .ro, fun _ _ => none, .any, false⟩,
  ⟨fun i _ => Reg.TXC_CACHE_CMD_result i, 0x5011c, 0x100, 4, 0x1, 1, .ro, fun _ _ => none, .any, false⟩,
  ⟨fun i _ => Reg.TXC_CACHE_RD_freq_khz i, 0x50120, 0x100, 4, 0x1, 1, .ro, fun _ _ => none, .any, false⟩,
  ⟨fun i _ => Reg.TXC_CACHE_RD_valid i, 0x50120, 0x100, 4, 0x1, 1, .ro, fun _ _ => none, .any, false⟩,
  ⟨fun i _ => Reg.TXC_PARK_park_slot i, 0x50124, 0x100, 4, 0x1, 1, .rw, fun _ _ => none, .any, false⟩,
  ⟨fun i _ => Reg.TXC_PARK_park i, 0x50124, 0x100, 4, 0x1, 1, .wo, fun _ _ => none, .any, false⟩]

def txcRows1 : List Row := [
  ⟨fun i _ => Reg.TXC_CAL_CFG_retry_delay i, 0x50128, 0x100, 4, 0x1, 1, .rw, fun _ _ => none, .any, false⟩,
  ⟨fun i _ => Reg.TXC_CAL_CFG_retry_max i, 0x50128, 0x100, 4, 0x1, 1, .rw, fun _ _ => none, .any, false⟩,
  ⟨fun i _ => Reg.TXC_SENSE_temp i, 0x5012c, 0x100, 4, 0x1, 1, .ro, fun _ _ => none, .any, false⟩,
  ⟨fun i _ => Reg.TXC_SENSE_vpa i, 0x5012c, 0x100, 4, 0x1, 1, .ro, fun _ _ => none, .any, false⟩]

def txcRows : List Row := txcRows0 ++ txcRows1

def sicRows : List Row := [
  ⟨fun _ _ => Reg.SIC_CTRL_ena_a, 0x60000, 0x1, 1, 0x1, 1, .own, fun _ _ => none, .any, false⟩,
  ⟨fun _ _ => Reg.SIC_CTRL_ena_b, 0x60000, 0x1, 1, 0x1, 1, .own, fun _ _ => none, .any, false⟩,
  ⟨fun _ _ => Reg.SIC_CTRL_adapt_en, 0x60000, 0x1, 1, 0x1, 1, .rw, fun _ _ => none, .any, true⟩,
  ⟨fun _ _ => Reg.SIC_CTRL_cd_en, 0x60000, 0x1, 1, 0x1, 1, .rw, fun _ _ => none, .any, true⟩,
  ⟨fun _ _ => Reg.SIC_CTRL_ceiling_en, 0x60000, 0x1, 1, 0x1, 1, .rw, fun _ _ => none, .any, true⟩,
  ⟨fun _ _ => Reg.SIC_CFG_tx_headroom, 0x60004, 0x1, 1, 0x1, 1, .rw, fun _ _ => none, .any, true⟩,
  ⟨fun _ _ => Reg.SIC_CFG_ana_min, 0x60004, 0x1, 1, 0x1, 1, .rw, fun _ _ => none, .any, true⟩,
  ⟨fun _ _ => Reg.SIC_CFG_dig_min, 0x60004, 0x1, 1, 0x1, 1, .rw, fun _ _ => none, .any, true⟩,
  ⟨fun _ _ => Reg.SIC_CFG_retrain_count, 0x60004, 0x1, 1, 0x1, 1, .rw, fun _ _ => none, .any, true⟩,
  ⟨fun _ _ => Reg.SIC_CFG_leak_jump, 0x60004, 0x1, 1, 0x1, 1, .rw, fun _ _ => none, .any, true⟩,
  ⟨fun _ _ => Reg.SIC_STATUS_budget_exceeded_a, 0x60008, 0x1, 1, 0x1, 1, .w1c, fun _ _ => none, .any, false⟩,
  ⟨fun _ _ => Reg.SIC_STATUS_budget_exceeded_b, 0x60008, 0x1, 1, 0x1, 1, .w1c, fun _ _ => none, .any, false⟩,
  ⟨fun _ _ => Reg.SIC_STATUS_g_tx_a, 0x60008, 0x1, 1, 0x1, 1, .ro, fun _ _ => none, .any, false⟩,
  ⟨fun _ _ => Reg.SIC_STATUS_g_tx_b, 0x60008, 0x1, 1, 0x1, 1, .ro, fun _ _ => none, .any, false⟩,
  ⟨fun i _ => Reg.SIC_CD_CFG_cd_abort_mask i, 0x60100, 0x100, 4, 0x1, 1, .rw, fun _ _ => none, .any, true⟩,
  ⟨fun i _ => Reg.SIC_CD_CFG_cd_mode i, 0x60100, 0x100, 4, 0x1, 1, .rw, fun _ _ => none, .any, true⟩,
  ⟨fun i _ => Reg.SIC_CD_CFG_cd_window i, 0x60100, 0x100, 4, 0x1, 1, .rw, fun _ _ => none, .any, true⟩,
  ⟨fun i _ => Reg.SIC_CD_CFG_cd_thr i, 0x60100, 0x100, 4, 0x1, 1, .rw, fun _ _ => none, .any, true⟩,
  ⟨fun i _ => Reg.SIC_ISO_MEAS_iso_meas i, 0x60104, 0x100, 4, 0x1, 1, .ro, fun _ _ => none, .any, false⟩,
  ⟨fun i _ => Reg.SIC_ISO_MEAS_ana_depth i, 0x60104, 0x100, 4, 0x1, 1, .ro, fun _ _ => none, .any, false⟩,
  ⟨fun i _ => Reg.SIC_ISO_MEAS_dig_depth i, 0x60104, 0x100, 4, 0x1, 1, .ro, fun _ _ => none, .any, false⟩,
  ⟨fun i _ => Reg.SIC_ISO_MEAS_slot i, 0x60104, 0x100, 4, 0x1, 1, .ro, fun _ _ => none, .any, false⟩,
  ⟨fun i _ => Reg.SIC_CD_EFF_cd_thr_eff i, 0x60108, 0x100, 4, 0x1, 1, .ro, fun _ _ => none, .any, false⟩,
  ⟨fun i _ => Reg.SIC_REF_ref_sel i, 0x6010c, 0x100, 4, 0x1, 1, .rw, fun i _ => some (if i < 2 then Reg.SIC_CTRL_ena_a else Reg.SIC_CTRL_ena_b), .any, false⟩,
  ⟨fun i _ => Reg.SIC_REF_ref_att i, 0x6010c, 0x100, 4, 0x1, 1, .rw, fun i _ => some (if i < 2 then Reg.SIC_CTRL_ena_a else Reg.SIC_CTRL_ena_b), .any, false⟩,
  ⟨fun i _ => Reg.SIC_SLOT_CMD_slot i, 0x60110, 0x100, 4, 0x1, 1, .rw, fun _ _ => none, .any, false⟩,
  ⟨fun i _ => Reg.SIC_SLOT_CMD_op i, 0x60110, 0x100, 4, 0x1, 1, .wo, fun _ _ => none, .any, false⟩,
  ⟨fun i _ => Reg.SIC_SLOT_CMD_busy i, 0x60110, 0x100, 4, 0x1, 1, .ro, fun _ _ => none, .any, false⟩,
  ⟨fun i _ => Reg.SIC_SLOT_RD_trained i, 0x60114, 0x100, 4, 0x1, 1, .ro, fun _ _ => none, .any, false⟩,
  ⟨fun i _ => Reg.SIC_SLOT_RD_seeded i, 0x60114, 0x100, 4, 0x1, 1, .ro, fun _ _ => none, .any, false⟩,
  ⟨fun i _ => Reg.SIC_SLOT_RD_ana_depth i, 0x60114, 0x100, 4, 0x1, 1, .ro, fun _ _ => none, .any, false⟩,
  ⟨fun i _ => Reg.SIC_SLOT_RD_dig_depth i, 0x60114, 0x100, 4, 0x1, 1, .ro, fun _ _ => none, .any, false⟩,
  ⟨fun i _ => Reg.SIC_SLOT_RD_iso i, 0x60114, 0x100, 4, 0x1, 1, .ro, fun _ _ => none, .any, false⟩]

def chzRows : List Row := [
  ⟨fun _ _ => Reg.CHZ_CFG_capture_margin, 0x70000, 0x1, 1, 0x1, 1, .rw, fun _ _ => none, .any, false⟩,
  ⟨fun _ _ => Reg.CHZ_CFG_restart_margin, 0x70000, 0x1, 1, 0x1, 1, .rw, fun _ _ => none, .any, false⟩,
  ⟨fun _ _ => Reg.CHZ_FAULT_CFG_storm_thr, 0x70004, 0x1, 1, 0x1, 1, .rw, fun _ _ => none, .any, false⟩,
  ⟨fun _ _ => Reg.CHZ_FAULT_CFG_storm_win, 0x70004, 0x1, 1, 0x1, 1, .rw, fun _ _ => none, .any, false⟩,
  ⟨fun _ _ => Reg.CHZ_FAULT_CFG_interf_thr, 0x70004, 0x1, 1, 0x1, 1, .rw, fun _ _ => none, .any, true⟩,
  ⟨fun _ _ => Reg.CHZ_FAULT_CFG2_interf_pct, 0x70008, 0x1, 1, 0x1, 1, .rw, fun _ _ => none, .clamp 1 100, true⟩,
  ⟨fun _ _ => Reg.CHZ_FAULT_CFG2_par_limit, 0x70008, 0x1, 1, 0x1, 1, .rw, fun _ _ => none, .any, true⟩,
  ⟨fun _ _ => Reg.CHZ_FAULT_CFG2_selftest_period, 0x70008, 0x1, 1, 0x1, 1, .rw, fun _ _ => none, .any, true⟩,
  ⟨fun i _ => Reg.CHZ_RETIRED_retired i, 0x70010, 0x4, 4, 0x1, 1, .ro, fun _ _ => none, .any, false⟩,
  ⟨fun i _ => Reg.CHZ_RCH_FREQ_freq_khz i, 0x70100, 0x8, 32, 0x1, 1, .rw, fun i _ => some (Reg.CHZ_RCH_FREQ_valid i), .any, false⟩,
  ⟨fun i _ => Reg.CHZ_RCH_FREQ_band i, 0x70100, 0x8, 32, 0x1, 1, .rw, fun i _ => some (Reg.CHZ_RCH_FREQ_valid i), .any, false⟩,
  ⟨fun i _ => Reg.CHZ_RCH_FREQ_valid i, 0x70100, 0x8, 32, 0x1, 1, .own, fun _ _ => none, .any, false⟩,
  ⟨fun i _ => Reg.CHZ_RCH_WIDTH_width_khz i, 0x70104, 0x8, 32, 0x1, 1, .rw, fun i _ => some (Reg.CHZ_RCH_FREQ_valid i), .any, false⟩,
  ⟨fun i _ => Reg.CHZ_LANE_CTRL_enable i, 0x71000, 0x80, 128, 0x1, 1, .own, fun _ _ => none, .any, false⟩,
  ⟨fun i _ => Reg.CHZ_LANE_CTRL_capture_en i, 0x71000, 0x80, 128, 0x1, 1, .rw, fun _ _ => none, .any, false⟩,
  ⟨fun i _ => Reg.CHZ_LANE_CTRL_defer i, 0x71000, 0x80, 128, 0x1, 1, .rw, fun _ _ => none, .any, false⟩,
  ⟨fun i _ => Reg.CHZ_LANE_CTRL_selftest i, 0x71000, 0x80, 128, 0x1, 1, .wo, fun _ _ => none, .any, false⟩,
  ⟨fun i _ => Reg.CHZ_LANE_CTRL_unretire i, 0x71000, 0x80, 128, 0x1, 1, .wo, fun _ _ => none, .any, false⟩,
  ⟨fun i _ => Reg.CHZ_LANE_CFG_band i, 0x71004, 0x80, 128, 0x1, 1, .rw, fun _ _ => none, .any, false⟩,
  ⟨fun i _ => Reg.CHZ_LANE_CFG_profile i, 0x71004, 0x80, 128, 0x1, 1, .rw, fun _ _ => none, .any, false⟩,
  ⟨fun i _ => Reg.CHZ_LANE_FREQ_freq_khz i, 0x71008, 0x80, 128, 0x1, 1, .own, fun _ _ => none, .any, false⟩,
  ⟨fun i _ => Reg.CHZ_LANE_STAT_state i, 0x7100c, 0x80, 128, 0x1, 1, .ro, fun _ _ => none, .any, false⟩,
  ⟨fun i _ => Reg.CHZ_LANE_STAT_pending i, 0x7100c, 0x80, 128, 0x1, 1, .ro, fun _ _ => none, .any, false⟩,
  ⟨fun i _ => Reg.CHZ_LANE_STAT_assign_result i, 0x7100c, 0x80, 128, 0x1, 1, .ro, fun _ _ => none, .any, false⟩,
  ⟨fun i _ => Reg.CHZ_LANE_STAT_agc_frozen i, 0x7100c, 0x80, 128, 0x1, 1, .ro, fun _ _ => none, .any, false⟩,
  ⟨fun i _ => Reg.CHZ_LANE_STAT_agc_gain i, 0x7100c, 0x80, 128, 0x1, 1, .ro, fun _ _ => none, .any, false⟩,
  ⟨fun i _ => Reg.CHZ_LANE_ED_ed i, 0x71010, 0x80, 128, 0x1, 1, .ro, fun _ _ => none, .any, false⟩,
  ⟨fun i _ => Reg.CHZ_LANE_ED_occ_pct i, 0x71010, 0x80, 128, 0x1, 1, .ro, fun _ _ => none, .any, false⟩,
  ⟨fun i _ => Reg.CHZ_LANE_FAULT_selftest_fail i, 0x71014, 0x80, 128, 0x1, 1, .ro, fun _ _ => none, .any, false⟩,
  ⟨fun i _ => Reg.CHZ_LANE_FAULT_storm i, 0x71014, 0x80, 128, 0x1, 1, .w1c, fun _ _ => none, .any, false⟩,
  ⟨fun i _ => Reg.CHZ_LANE_FAULT_par_err i, 0x71014, 0x80, 128, 0x1, 1, .w1c, fun _ _ => none, .any, false⟩,
  ⟨fun i _ => Reg.CHZ_LANE_FAULT_occupied i, 0x71014, 0x80, 128, 0x1, 1, .w1c, fun _ _ => none, .any, false⟩,
  ⟨fun i _ => Reg.CHZ_LANE_FAULT_par_count i, 0x71014, 0x80, 128, 0x1, 1, .ro, fun _ _ => none, .any, false⟩,
  ⟨fun i _ => Reg.CHZ_LANE_RX_rssi i, 0x71018, 0x80, 128, 0x1, 1, .ro, fun _ _ => none, .any, false⟩,
  ⟨fun i _ => Reg.CHZ_LANE_RX_lqi i, 0x71018, 0x80, 128, 0x1, 1, .ro, fun _ _ => none, .any, false⟩]

def phyRows : List Row := [
  ⟨fun _ _ => Reg.PHY_AIR_Q_profile, 0x80010, 0x1, 1, 0x1, 1, .rw, fun _ _ => none, .any, false⟩,
  ⟨fun _ _ => Reg.PHY_AIR_Q_psdu_len, 0x80010, 0x1, 1, 0x1, 1, .rw, fun _ _ => none, .any, false⟩,
  ⟨fun _ _ => Reg.PHY_AIR_Q_go, 0x80010, 0x1, 1, 0x1, 1, .wo, fun _ _ => none, .any, false⟩,
  ⟨fun _ _ => Reg.PHY_AIR_RES_airtime_us, 0x80014, 0x1, 1, 0x1, 1, .ro, fun _ _ => none, .any, false⟩,
  ⟨fun _ _ => Reg.PHY_AIR_RES_invalid, 0x80014, 0x1, 1, 0x1, 1, .ro, fun _ _ => none, .any, false⟩,
  ⟨fun i _ => Reg.PHY_PROF_CTRL_valid i, 0x80100, 0x20, 32, 0x1, 1, .own, fun _ _ => none, .any, false⟩,
  ⟨fun i _ => Reg.PHY_PROF_CTRL_family i, 0x80100, 0x20, 32, 0x1, 1, .rw, fun i _ => some (Reg.PHY_PROF_CTRL_valid i), .any, false⟩,
  ⟨fun i _ => Reg.PHY_PROF_CTRL_band i, 0x80100, 0x20, 32, 0x1, 1, .rw, fun i _ => some (Reg.PHY_PROF_CTRL_valid i), .any, false⟩,
  ⟨fun i _ => Reg.PHY_PROF_CTRL_fcs_len i, 0x80100, 0x20, 32, 0x1, 1, .rw, fun i _ => some (Reg.PHY_PROF_CTRL_valid i), .any, false⟩,
  ⟨fun i _ => Reg.PHY_PROF_CTRL_whiten i, 0x80100, 0x20, 32, 0x1, 1, .rw, fun i _ => some (Reg.PHY_PROF_CTRL_valid i), .any, false⟩,
  ⟨fun i _ => Reg.PHY_PROF_CTRL_gauss i, 0x80100, 0x20, 32, 0x1, 1, .rw, fun i _ => some (Reg.PHY_PROF_CTRL_valid i), .any, false⟩,
  ⟨fun i _ => Reg.PHY_PROF_CTRL_load_result i, 0x80100, 0x20, 32, 0x1, 1, .ro, fun _ _ => none, .any, false⟩,
  ⟨fun i _ => Reg.PHY_PROF_RATE_rate_sel i, 0x80104, 0x20, 32, 0x1, 1, .rw, fun i _ => some (Reg.PHY_PROF_CTRL_valid i), .any, false⟩,
  ⟨fun i _ => Reg.PHY_PROF_RATE_chip_rate i, 0x80104, 0x20, 32, 0x1, 1, .rw, fun i _ => some (Reg.PHY_PROF_CTRL_valid i), .any, false⟩,
  ⟨fun i _ => Reg.PHY_PROF_RATE_ofdm_option i, 0x80104, 0x20, 32, 0x1, 1, .rw, fun i _ => some (Reg.PHY_PROF_CTRL_valid i), .any, false⟩,
  ⟨fun i _ => Reg.PHY_PROF_RATE_fsk4 i, 0x80104, 0x20, 32, 0x1, 1, .rw, fun i _ => some (Reg.PHY_PROF_CTRL_valid i), .any, false⟩,
  ⟨fun i _ => Reg.PHY_PROF_RATE_fec i, 0x80104, 0x20, 32, 0x1, 1, .rw, fun i _ => some (Reg.PHY_PROF_CTRL_valid i), .any, false⟩,
  ⟨fun i _ => Reg.PHY_PROF_RATE_interleave i, 0x80104, 0x20, 32, 0x1, 1, .rw, fun i _ => some (Reg.PHY_PROF_CTRL_valid i), .any, false⟩,
  ⟨fun i _ => Reg.PHY_PROF_RATE_mod_index i, 0x80104, 0x20, 32, 0x1, 1, .rw, fun i _ => some (Reg.PHY_PROF_CTRL_valid i), .any, false⟩,
  ⟨fun i _ => Reg.PHY_PROF_SHR_preamble_len i, 0x80108, 0x20, 32, 0x1, 1, .rw, fun i _ => some (Reg.PHY_PROF_CTRL_valid i), .any, false⟩,
  ⟨fun i _ => Reg.PHY_PROF_SHR_sfd i, 0x80108, 0x20, 32, 0x1, 1, .rw, fun i _ => some (Reg.PHY_PROF_CTRL_valid i), .any, false⟩,
  ⟨fun i _ => Reg.PHY_PROF_DET_det_adj i, 0x8010c, 0x20, 32, 0x1, 1, .rw, fun _ _ => none, .any, false⟩,
  ⟨fun i _ => Reg.PHY_PROF_MAX_max_psdu i, 0x80110, 0x20, 32, 0x1, 1, .rw, fun i _ => some (Reg.PHY_PROF_CTRL_valid i), .any, false⟩]

def amcRows0 : List Row := [
  ⟨fun _ _ => Reg.AMC_CTRL_enable, 0x90000, 0x1, 1, 0x1, 1, .own, fun _ _ => none, .any, false⟩,
  ⟨fun _ _ => Reg.AMC_CTRL_dup_action, 0x90000, 0x1, 1, 0x1, 1, .rw, fun _ _ => none, .any, false⟩,
  ⟨fun _ _ => Reg.AMC_CTRL_ebr_en, 0x90000, 0x1, 1, 0x1, 1, .rw, fun _ _ => none, .any, false⟩,
  ⟨fun _ _ => Reg.AMC_CTRL_eb_fwd, 0x90000, 0x1, 1, 0x1, 1, .rw, fun _ _ => none, .any, false⟩,
  ⟨fun _ _ => Reg.AMC_CTRL_nb_en, 0x90000, 0x1, 1, 0x1, 1, .rw, fun _ _ => none, .any, false⟩,
  ⟨fun _ _ => Reg.AMC_CTRL_enh_grid_ie, 0x90000, 0x1, 1, 0x1, 1, .rw, fun _ _ => none, .any, false⟩,
  ⟨fun _ _ => Reg.AMC_CTRL_eb_en, 0x90000, 0x1, 1, 0x1, 1, .rw, fun _ _ => none, .any, true⟩,
  ⟨fun _ _ => Reg.AMC_STATUS_need_bal, 0x90004, 0x1, 1, 0x1, 1, .ro, fun _ _ => none, .any, false⟩,
  ⟨fun _ _ => Reg.AMC_STATUS_need_lane, 0x90004, 0x1, 1, 0x1, 1, .ro, fun _ _ => none, .any, false⟩,
  ⟨fun _ _ => Reg.AMC_PAN_pan_id, 0x90008, 0x1, 1, 0x1, 1, .rw, fun _ _ => some (Reg.AMC_CTRL_enable), .any, false⟩,
  ⟨fun _ _ => Reg.AMC_PAN_short_addr, 0x90008, 0x1, 1, 0x1, 1, .rw, fun _ _ => some (Reg.AMC_CTRL_enable), .any, false⟩,
  ⟨fun _ _ => Reg.AMC_EUI_LO_eui_lo, 0x9000c, 0x1, 1, 0x1, 1, .rw, fun _ _ => some (Reg.AMC_CTRL_enable), .any, false⟩,
  ⟨fun _ _ => Reg.AMC_EUI_HI_eui_hi, 0x90010, 0x1, 1, 0x1, 1, .rw, fun _ _ => some (Reg.AMC_CTRL_enable), .any, false⟩,
  ⟨fun _ _ => Reg.AMC_SITE_district_id, 0x90014, 0x1, 1, 0x1, 1, .rw, fun _ _ => some (Reg.AMC_CTRL_enable), .any, false⟩,
  ⟨fun _ _ => Reg.AMC_SITE_site_id, 0x90014, 0x1, 1, 0x1, 1, .rw, fun _ _ => some (Reg.AMC_CTRL_enable), .any, false⟩,
  ⟨fun _ _ => Reg.AMC_ACK_GAP_gap_2g4, 0x90018, 0x1, 1, 0x1, 1, .rw, fun _ _ => none, .any, false⟩,
  ⟨fun _ _ => Reg.AMC_ACK_GAP_gap_sun, 0x90018, 0x1, 1, 0x1, 1, .rw, fun _ _ => none, .any, false⟩,
  ⟨fun _ _ => Reg.AMC_ACK_CFG_refuse_thr, 0x9001c, 0x1, 1, 0x1, 1, .rw, fun _ _ => none, .any, true⟩,
  ⟨fun _ _ => Reg.AMC_CSMA_CFG_min_be, 0x90020, 0x1, 1, 0x1, 1, .rw, fun _ _ => none, .any, false⟩,
  ⟨fun _ _ => Reg.AMC_CSMA_CFG_max_be, 0x90020, 0x1, 1, 0x1, 1, .rw, fun _ _ => none, .any, false⟩,
  ⟨fun _ _ => Reg.AMC_CSMA_CFG_max_backoffs, 0x90020, 0x1, 1, 0x1, 1, .rw, fun _ _ => none, .any, false⟩,
  ⟨fun _ _ => Reg.AMC_CSMA_CFG_max_retries, 0x90020, 0x1, 1, 0x1, 1, .rw, fun _ _ => none, .any, false⟩,
  ⟨fun _ _ => Reg.AMC_CSMA_CFG_cca_mode, 0x90020, 0x1, 1, 0x1, 1, .rw, fun _ _ => none, .any, false⟩,
  ⟨fun _ _ => Reg.AMC_CSMA_CFG_cca_nolane, 0x90020, 0x1, 1, 0x1, 1, .rw, fun _ _ => none, .any, false⟩,
  ⟨fun _ _ => Reg.AMC_CSMA_CFG2_cca_thr, 0x90024, 0x1, 1, 0x1, 1, .rw, fun _ _ => none, .any, false⟩,
  ⟨fun _ _ => Reg.AMC_CSMA_CFG2_unit_us, 0x90024, 0x1, 1, 0x1, 1, .rw, fun _ _ => none, .any, false⟩,
  ⟨fun _ _ => Reg.AMC_CSMA_CFG2_ack_wait_extra, 0x90024, 0x1, 1, 0x1, 1, .rw, fun _ _ => none, .any, false⟩,
  ⟨fun _ _ => Reg.AMC_DUP_CFG_dup_time, 0x90028, 0x1, 1, 0x1, 1, .rw, fun _ _ => none, .any, false⟩,
  ⟨fun _ _ => Reg.AMC_EB_CFG_eb_period, 0x9002c, 0x1, 1, 0x1, 1, .rw, fun _ _ => none, .any, true⟩,
  ⟨fun _ _ => Reg.AMC_EB_CFG_eb_angle, 0x9002c, 0x1, 1, 0x1, 1, .rw, fun _ _ => none, .any, true⟩,
  ⟨fun _ _ => Reg.AMC_EB_CHANA_freq_khz, 0x90030, 0x1, 1, 0x1, 1, .rw, fun _ _ => none, .any, true⟩,
  ⟨fun _ _ => Reg.AMC_EB_CHANA_profile, 0x90030, 0x1, 1, 0x1, 1, .rw, fun _ _ => none, .any, true⟩,
  ⟨fun _ _ => Reg.AMC_EB_CHANA_valid, 0x90030, 0x1, 1, 0x1, 1, .rw, fun _ _ => none, .any, true⟩,
  ⟨fun _ _ => Reg.AMC_EB_CHANB_freq_khz, 0x90034, 0x1, 1, 0x1, 1, .rw, fun _ _ => none, .any, true⟩,
  ⟨fun _ _ => Reg.AMC_EB_CHANB_profile, 0x90034, 0x1, 1, 0x1, 1, .rw, fun _ _ => none, .any, true⟩,
  ⟨fun _ _ => Reg.AMC_EB_CHANB_valid, 0x90034, 0x1, 1, 0x1, 1, .rw, fun _ _ => none, .any, true⟩,
  ⟨fun _ _ => Reg.AMC_EB_PL_LEN_pl_len, 0x90038, 0x1, 1, 0x1, 1, .rw, fun _ _ => none, .any, true⟩,
  ⟨fun _ _ => Reg.AMC_EBR_CFG_ebr_holdoff, 0x9003c, 0x1, 1, 0x1, 1, .rw, fun _ _ => none, .any, false⟩,
  ⟨fun _ _ => Reg.AMC_NB_CFG_nb_miss_limit, 0x90040, 0x1, 1, 0x1, 1, .rw, fun _ _ => none, .any, false⟩,
  ⟨fun _ _ => Reg.AMC_NB_CFG_nb_win, 0x90040, 0x1, 1, 0x1, 1, .rw, fun _ _ => none, .any, false⟩]

def amcRows1 : List Row := [
  ⟨fun _ _ => Reg.AMC_NB_CFG2_nb_hold, 0x90044, 0x1, 1, 0x1, 1, .rw, fun _ _ => none, .any, false⟩,
  ⟨fun _ _ => Reg.AMC_DWELL_CFG_dwell_max, 0x90048, 0x1, 1, 0x1, 1, .rw, fun _ _ => none, .any, false⟩,
  ⟨fun _ _ => Reg.AMC_DWELL_CFG_dwell_win, 0x90048, 0x1, 1, 0x1, 1, .rw, fun _ _ => none, .clamp 1 60, false⟩,
  ⟨fun _ _ => Reg.AMC_NB_SEL_entry, 0x90050, 0x1, 1, 0x1, 1, .rw, fun _ _ => none, .any, false⟩,
  ⟨fun _ _ => Reg.AMC_NB_SEL_rsv, 0x90050, 0x1, 1, 0x1, 1, .rw, fun _ _ => none, .any, false⟩,
  ⟨fun _ _ => Reg.AMC_NB_RD0_district_id, 0x90054, 0x1, 1, 0x1, 1, .ro, fun _ _ => none, .any, false⟩,
  ⟨fun _ _ => Reg.AMC_NB_RD0_site_id, 0x90054, 0x1, 1, 0x1, 1, .ro, fun _ _ => none, .any, false⟩,
  ⟨fun _ _ => Reg.AMC_NB_RD1_state, 0x90058, 0x1, 1, 0x1, 1, .ro, fun _ _ => none, .any, false⟩,
  ⟨fun _ _ => Reg.AMC_NB_RD1_miss, 0x90058, 0x1, 1, 0x1, 1, .ro, fun _ _ => none, .any, false⟩,
  ⟨fun _ _ => Reg.AMC_NB_RD1_rsv_count, 0x90058, 0x1, 1, 0x1, 1, .ro, fun _ _ => none, .any, false⟩,
  ⟨fun _ _ => Reg.AMC_NB_RD1_role, 0x90058, 0x1, 1, 0x1, 1, .ro, fun _ _ => none, .any, false⟩,
  ⟨fun _ _ => Reg.AMC_NB_RD1_period, 0x90058, 0x1, 1, 0x1, 1, .ro, fun _ _ => none, .any, false⟩,
  ⟨fun _ _ => Reg.AMC_NB_RD2_last_cycle, 0x9005c, 0x1, 1, 0x1, 1, .ro, fun _ _ => none, .any, false⟩,
  ⟨fun _ _ => Reg.AMC_NB_RD3_channel, 0x90060, 0x1, 1, 0x1, 1, .ro, fun _ _ => none, .any, false⟩,
  ⟨fun i _ => Reg.AMC_RSV_FREQ_freq_khz i, 0x90180, 0x8, 16, 0x1, 1, .rw, fun i _ => some (Reg.AMC_RSV_FREQ_valid i), .any, false⟩,
  ⟨fun i _ => Reg.AMC_RSV_FREQ_band i, 0x90180, 0x8, 16, 0x1, 1, .rw, fun i _ => some (Reg.AMC_RSV_FREQ_valid i), .any, false⟩,
  ⟨fun i _ => Reg.AMC_RSV_FREQ_valid i, 0x90180, 0x8, 16, 0x1, 1, .rw, fun _ _ => none, .any, true⟩,
  ⟨fun i _ => Reg.AMC_RSV_WIDTH_width_khz i, 0x90184, 0x8, 16, 0x1, 1, .rw, fun i _ => some (Reg.AMC_RSV_FREQ_valid i), .any, false⟩,
  ⟨fun i _ => Reg.AMC_PLAN_FREQ_freq_khz i, 0x90200, 0x8, 64, 0x1, 1, .rw, fun i _ => some (Reg.AMC_PLAN_FREQ_valid i), .any, false⟩,
  ⟨fun i _ => Reg.AMC_PLAN_FREQ_band i, 0x90200, 0x8, 64, 0x1, 1, .rw, fun i _ => some (Reg.AMC_PLAN_FREQ_valid i), .any, false⟩,
  ⟨fun i _ => Reg.AMC_PLAN_FREQ_valid i, 0x90200, 0x8, 64, 0x1, 1, .rw, fun _ _ => none, .any, false⟩,
  ⟨fun i _ => Reg.AMC_PLAN_CFG_width_khz i, 0x90204, 0x8, 64, 0x1, 1, .rw, fun i _ => some (Reg.AMC_PLAN_FREQ_valid i), .any, false⟩,
  ⟨fun i _ => Reg.AMC_PLAN_CFG_async_ok i, 0x90204, 0x8, 64, 0x1, 1, .rw, fun _ _ => none, .any, false⟩,
  ⟨fun i _ => Reg.AMC_PLAN_CFG_ebr_ok i, 0x90204, 0x8, 64, 0x1, 1, .rw, fun _ _ => none, .any, false⟩,
  ⟨fun i _ => Reg.AMC_PLAN_CFG_hop i, 0x90204, 0x8, 64, 0x1, 1, .rw, fun _ _ => none, .any, false⟩,
  ⟨fun i _ => Reg.AMC_PLAN_CFG_rsv_override i, 0x90204, 0x8, 64, 0x1, 1, .rw, fun _ _ => none, .any, false⟩,
  ⟨fun i _ => Reg.AMC_PLAN_CFG_retired i, 0x90204, 0x8, 64, 0x1, 1, .ro, fun _ _ => none, .any, false⟩,
  ⟨fun i _ => Reg.AMC_EB_PL_octets i, 0x90400, 0x4, 16, 0x1, 1, .rw, fun _ _ => none, .any, true⟩]

def amcRows : List Row := amcRows0 ++ amcRows1

def slpRows : List Row := [
  ⟨fun _ _ => Reg.SLP_CTRL_enable, 0xa0000, 0x1, 1, 0x1, 1, .own, fun _ _ => none, .any, false⟩,
  ⟨fun _ _ => Reg.SLP_STATUS_need_amc, 0xa0004, 0x1, 1, 0x1, 1, .ro, fun _ _ => none, .any, false⟩,
  ⟨fun _ _ => Reg.SLP_STATUS_need_esc, 0xa0004, 0x1, 1, 0x1, 1, .ro, fun _ _ => none, .any, false⟩,
  ⟨fun _ _ => Reg.SLP_HS_CFG_drift_shift, 0xa0008, 0x1, 1, 0x1, 1, .rw, fun _ _ => none, .any, false⟩,
  ⟨fun _ _ => Reg.SLP_HS_CFG_var_shift, 0xa0008, 0x1, 1, 0x1, 1, .rw, fun _ _ => none, .any, false⟩,
  ⟨fun _ _ => Reg.SLP_HS_CFG_k_sd, 0xa0008, 0x1, 1, 0x1, 1, .rw, fun _ _ => none, .any, false⟩,
  ⟨fun _ _ => Reg.SLP_HS_CFG_min_span, 0xa0008, 0x1, 1, 0x1, 1, .rw, fun _ _ => none, .any, false⟩,
  ⟨fun _ _ => Reg.SLP_HS_CFG2_sd_init, 0xa000c, 0x1, 1, 0x1, 1, .rw, fun _ _ => none, .any, false⟩,
  ⟨fun _ _ => Reg.SLP_HS_CFG2_sd_min, 0xa000c, 0x1, 1, 0x1, 1, .rw, fun _ _ => none, .any, false⟩,
  ⟨fun _ _ => Reg.SLP_HS_CFG3_node_jitter, 0xa0010, 0x1, 1, 0x1, 1, .rw, fun _ _ => none, .any, false⟩,
  ⟨fun _ _ => Reg.SLP_HS_CFG3_outlier_k, 0xa0010, 0x1, 1, 0x1, 1, .rw, fun _ _ => none, .any, false⟩,
  ⟨fun _ _ => Reg.SLP_NODE_Q_ctx, 0xa0020, 0x1, 1, 0x1, 1, .rw, fun _ _ => none, .any, false⟩,
  ⟨fun _ _ => Reg.SLP_NODE_Q_go, 0xa0020, 0x1, 1, 0x1, 1, .wo, fun _ _ => none, .any, false⟩,
  ⟨fun _ _ => Reg.SLP_NODE_RD0_drift, 0xa0024, 0x1, 1, 0x1, 1, .ro, fun _ _ => none, .any, false⟩,
  ⟨fun _ _ => Reg.SLP_NODE_RD1_unc_us, 0xa0028, 0x1, 1, 0x1, 1, .ro, fun _ _ => none, .any, false⟩,
  ⟨fun _ _ => Reg.SLP_NODE_RD1_oos, 0xa0028, 0x1, 1, 0x1, 1, .ro, fun _ _ => none, .any, false⟩,
  ⟨fun _ _ => Reg.SLP_NODE_RD1_hs_valid, 0xa0028, 0x1, 1, 0x1, 1, .ro, fun _ _ => none, .any, false⟩,
  ⟨fun _ _ => Reg.SLP_NODE_RD1_miss, 0xa0028, 0x1, 1, 0x1, 1, .ro, fun _ _ => none, .any, false⟩,
  ⟨fun i _ => Reg.SLP_CLS_GUARD_guard_us i, 0xa0100, 0x20, 8, 0x1, 1, .rw, fun _ _ => none, .any, false⟩,
  ⟨fun i _ => Reg.SLP_CLS_GUARD_sample_us i, 0xa0100, 0x20, 8, 0x1, 1, .rw, fun _ _ => none, .any, false⟩,
  ⟨fun i _ => Reg.SLP_CLS_WUS_wus_mode i, 0xa0104, 0x20, 8, 0x1, 1, .rw, fun _ _ => none, .any, false⟩,
  ⟨fun i _ => Reg.SLP_CLS_WUS_wus_fmt i, 0xa0104, 0x20, 8, 0x1, 1, .rw, fun _ _ => none, .any, false⟩,
  ⟨fun i _ => Reg.SLP_CLS_WUS_wus_max_ms i, 0xa0104, 0x20, 8, 0x1, 1, .rw, fun _ _ => none, .any, false⟩,
  ⟨fun i _ => Reg.SLP_CLS_FB_fb_ratio i, 0xa0108, 0x20, 8, 0x1, 1, .rw, fun _ _ => none, .any, false⟩,
  ⟨fun i _ => Reg.SLP_CLS_FB_fb_listen_ms i, 0xa0108, 0x20, 8, 0x1, 1, .rw, fun _ _ => none, .any, false⟩,
  ⟨fun i _ => Reg.SLP_CLS_RETRY_retries i, 0xa010c, 0x20, 8, 0x1, 1, .rw, fun _ _ => none, .any, false⟩,
  ⟨fun i _ => Reg.SLP_CLS_RETRY_oos_miss i, 0xa010c, 0x20, 8, 0x1, 1, .rw, fun _ _ => none, .any, false⟩,
  ⟨fun i _ => Reg.SLP_CLS_RETRY_pend_listen_ms i, 0xa010c, 0x20, 8, 0x1, 1, .rw, fun _ _ => none, .any, false⟩]

def escRows0 : List Row := [
  ⟨fun _ _ => Reg.ESC_CTRL_enable, 0xb0000, 0x1, 1, 0x1, 1, .own, fun _ _ => none, .any, false⟩,
  ⟨fun _ _ => Reg.ESC_CTRL_len_mode, 0xb0000, 0x1, 1, 0x1, 1, .rw, fun _ _ => none, .any, false⟩,
  ⟨fun _ _ => Reg.ESC_CTRL_hold_stop, 0xb0000, 0x1, 1, 0x1, 1, .rw, fun _ _ => none, .any, false⟩,
  ⟨fun _ _ => Reg.ESC_CTRL_cyc_gate, 0xb0000, 0x1, 1, 0x1, 1, .rw, fun _ _ => none, .any, false⟩,
  ⟨fun _ _ => Reg.ESC_CTRL_suspend_drop, 0xb0000, 0x1, 1, 0x1, 1, .rw, fun _ _ => none, .any, false⟩,
  ⟨fun _ _ => Reg.ESC_STATUS_need_bal, 0xb0004, 0x1, 1, 0x1, 1, .ro, fun _ _ => none, .any, false⟩,
  ⟨fun _ _ => Reg.ESC_STATUS_need_port, 0xb0004, 0x1, 1, 0x1, 1, .ro, fun _ _ => none, .any, false⟩,
  ⟨fun _ _ => Reg.ESC_STATUS_bank_act, 0xb0004, 0x1, 1, 0x1, 1, .ro, fun _ _ => none, .any, false⟩,
  ⟨fun _ _ => Reg.ESC_STATUS_bank_pending, 0xb0004, 0x1, 1, 0x1, 1, .ro, fun _ _ => none, .any, false⟩,
  ⟨fun _ _ => Reg.ESC_SCHED_CFG_dec_lead, 0xb0008, 0x1, 1, 0x1, 1, .rw, fun _ _ => none, .any, false⟩,
  ⟨fun _ _ => Reg.ESC_SCHED_CFG_tx_offset, 0xb0008, 0x1, 1, 0x1, 1, .rw, fun _ _ => none, .any, false⟩,
  ⟨fun _ _ => Reg.ESC_SCHED_CFG2_rx_guard, 0xb000c, 0x1, 1, 0x1, 1, .rw, fun _ _ => none, .any, false⟩,
  ⟨fun _ _ => Reg.ESC_SCHED_CFG2_ofs_tol, 0xb000c, 0x1, 1, 0x1, 1, .rw, fun _ _ => none, .any, false⟩,
  ⟨fun _ _ => Reg.ESC_SCHED_CFG2_search_max, 0xb000c, 0x1, 1, 0x1, 1, .rw, fun _ _ => none, .any, false⟩,
  ⟨fun _ _ => Reg.ESC_BANK_bank_sel, 0xb0010, 0x1, 1, 0x1, 1, .own, fun _ _ => none, .any, true⟩,
  ⟨fun _ _ => Reg.ESC_FRAME_LEN0_frame_len, 0xb0014, 0x1, 1, 0x1, 1, .own, fun _ _ => none, .any, false⟩,
  ⟨fun _ _ => Reg.ESC_FRAME_LEN1_frame_len, 0xb0018, 0x1, 1, 0x1, 1, .own, fun _ _ => none, .any, false⟩,
  ⟨fun _ _ => Reg.ESC_QCFG_sub_qmax, 0xb001c, 0x1, 1, 0x1, 1, .rw, fun _ _ => none, .any, false⟩,
  ⟨fun _ _ => Reg.ESC_ASYNC_DFLT_plan_a, 0xb0020, 0x1, 1, 0x1, 1, .rw, fun _ _ => none, .any, false⟩,
  ⟨fun _ _ => Reg.ESC_ASYNC_DFLT_valid_a, 0xb0020, 0x1, 1, 0x1, 1, .rw, fun _ _ => none, .any, false⟩,
  ⟨fun _ _ => Reg.ESC_ASYNC_DFLT_plan_b, 0xb0020, 0x1, 1, 0x1, 1, .rw, fun _ _ => none, .any, false⟩,
  ⟨fun _ _ => Reg.ESC_ASYNC_DFLT_valid_b, 0xb0020, 0x1, 1, 0x1, 1, .rw, fun _ _ => none, .any, false⟩,
  ⟨fun _ _ => Reg.ESC_SUB_CMD_ctx, 0xb0030, 0x1, 1, 0x1, 1, .rw, fun _ _ => none, .any, false⟩,
  ⟨fun _ _ => Reg.ESC_SUB_CMD_op, 0xb0030, 0x1, 1, 0x1, 1, .wo, fun _ _ => none, .any, false⟩,
  ⟨fun _ _ => Reg.ESC_SUB_CMD_busy, 0xb0030, 0x1, 1, 0x1, 1, .ro, fun _ _ => none, .any, false⟩,
  ⟨fun _ _ => Reg.ESC_SUB_DATA_sub_prof, 0xb0034, 0x1, 1, 0x1, 1, .rw, fun _ _ => none, .any, false⟩,
  ⟨fun _ _ => Reg.ESC_SUB_DATA_suspend, 0xb0034, 0x1, 1, 0x1, 1, .rw, fun _ _ => none, .any, false⟩,
  ⟨fun _ _ => Reg.ESC_SUB_DATA_pend, 0xb0034, 0x1, 1, 0x1, 1, .ro, fun _ _ => none, .any, false⟩,
  ⟨fun _ _ => Reg.ESC_SUB_DATA_qlen, 0xb0034, 0x1, 1, 0x1, 1, .ro, fun _ _ => none, .any, false⟩,
  ⟨fun _ _ => Reg.ESC_SUB_TOK_tok, 0xb0038, 0x1, 1, 0x1, 1, .ro, fun _ _ => none, .any, false⟩,
  ⟨fun _ _ => Reg.ESC_FUSEE_STAT_closed, 0xb0040, 0x1, 1, 0x1, 1, .ro, fun _ _ => none, .any, false⟩,
  ⟨fun _ _ => Reg.ESC_FUSEE_STAT_breach, 0xb0040, 0x1, 1, 0x1, 1, .w1c, fun _ _ => none, .any, false⟩,
  ⟨fun i _ => Reg.ESC_PORT_CTRL_cfg i, 0xb0100, 0x20, 8, 0x1, 1, .rw, fun _ _ => none, .any, false⟩,
  ⟨fun i _ => Reg.ESC_PORT_CTRL_ref_kbps i, 0xb0100, 0x20, 8, 0x1, 1, .rw, fun _ _ => none, .any, false⟩,
  ⟨fun i _ => Reg.ESC_PORT_IFS_ifs_us i, 0xb0104, 0x20, 8, 0x1, 1, .rw, fun _ _ => none, .any, false⟩,
  ⟨fun i _ => Reg.ESC_PORT_RATE_rate i, 0xb0108, 0x20, 8, 0x1, 1, .rw, fun _ _ => none, .any, false⟩,
  ⟨fun i _ => Reg.ESC_PORT_BURST_burst i, 0xb010c, 0x20, 8, 0x1, 1, .rw, fun _ _ => none, .any, false⟩,
  ⟨fun i _ => Reg.ESC_PORT_TOK_tok i, 0xb0110, 0x20, 8, 0x1, 1, .ro, fun _ _ => none, .any, false⟩,
  ⟨fun i _ => Reg.ESC_SVC_CTRL_prio i, 0xb2000, 0x20, 128, 0x1, 1, .rw, fun _ _ => none, .any, false⟩,
  ⟨fun i _ => Reg.ESC_SVC_CTRL_weight i, 0xb2000, 0x20, 128, 0x1, 1, .rw, fun _ _ => none, .any, false⟩]

def escRows1 : List Row := [
  ⟨fun i _ => Reg.ESC_SVC_CTRL_path i, 0xb2000, 0x20, 128, 0x1, 1, .rw, fun _ _ => none, .any, false⟩,
  ⟨fun i _ => Reg.ESC_SVC_CTRL_slot_retries i, 0xb2000, 0x20, 128, 0x1, 1, .rw, fun _ _ => none, .any, false⟩,
  ⟨fun i _ => Reg.ESC_SVC_CTRL_async_after i, 0xb2000, 0x20, 128, 0x1, 1, .rw, fun _ _ => none, .any, false⟩,
  ⟨fun i _ => Reg.ESC_SVC_RATE_rate i, 0xb2004, 0x20, 128, 0x1, 1, .rw, fun _ _ => none, .any, false⟩,
  ⟨fun i _ => Reg.ESC_SVC_BURST_burst i, 0xb2008, 0x20, 128, 0x1, 1, .rw, fun _ _ => none, .any, false⟩,
  ⟨fun i _ => Reg.ESC_SVC_AGE_age_max i, 0xb200c, 0x20, 128, 0x1, 1, .rw, fun _ _ => none, .any, false⟩,
  ⟨fun i _ => Reg.ESC_SVC_AGE_qmax i, 0xb200c, 0x20, 128, 0x1, 1, .rw, fun _ _ => none, .any, false⟩,
  ⟨fun i _ => Reg.ESC_SVC_TOK_tok i, 0xb2010, 0x20, 128, 0x1, 1, .ro, fun _ _ => none, .any, false⟩,
  ⟨fun i _ => Reg.ESC_SUBP_RATE_rate i, 0xb3000, 0x8, 64, 0x1, 1, .rw, fun _ _ => none, .any, false⟩,
  ⟨fun i _ => Reg.ESC_SUBP_BURST_burst i, 0xb3004, 0x8, 64, 0x1, 1, .rw, fun _ _ => none, .any, false⟩,
  ⟨fun i _ => Reg.ESC_FUS_LO_lo_khz i, 0xb3800, 0x20, 16, 0x1, 1, .rw, fun i _ => some (Reg.ESC_FUS_LO_valid i), .any, false⟩,
  ⟨fun i _ => Reg.ESC_FUS_LO_band i, 0xb3800, 0x20, 16, 0x1, 1, .rw, fun i _ => some (Reg.ESC_FUS_LO_valid i), .any, false⟩,
  ⟨fun i _ => Reg.ESC_FUS_LO_valid i, 0xb3800, 0x20, 16, 0x1, 1, .own, fun _ _ => none, .any, false⟩,
  ⟨fun i _ => Reg.ESC_FUS_HI_hi_khz i, 0xb3804, 0x20, 16, 0x1, 1, .rw, fun i _ => some (Reg.ESC_FUS_LO_valid i), .any, false⟩,
  ⟨fun i _ => Reg.ESC_FUS_DUTY_duty i, 0xb3808, 0x20, 16, 0x1, 1, .rw, fun _ _ => none, .clamp 1 100000, true⟩,
  ⟨fun i _ => Reg.ESC_FUS_WIN_window_s i, 0xb380c, 0x20, 16, 0x1, 1, .rw, fun i _ => some (Reg.ESC_FUS_LO_valid i), .clamp 60 3600, false⟩,
  ⟨fun i _ => Reg.ESC_FUS_RESV_resv i, 0xb3810, 0x20, 16, 0x1, 1, .rw, fun _ _ => none, .any, true⟩,
  ⟨fun i _ => Reg.ESC_FUS_SUM_sum i, 0xb3814, 0x20, 16, 0x1, 1, .ro, fun _ _ => none, .any, false⟩,
  ⟨fun i _ => Reg.ESC_FUS_HOLD_hold i, 0xb3818, 0x20, 16, 0x1, 1, .ro, fun _ _ => none, .any, false⟩,
  ⟨fun i _ => Reg.ESC_SLOT_A_cyc i, 0xb4000, 0x10, 512, 0x1, 1, .rw, fun _ _ => none, .any, false⟩,
  ⟨fun i _ => Reg.ESC_SLOT_A_angle i, 0xb4000, 0x10, 512, 0x1, 1, .rw, fun _ _ => none, .any, false⟩,
  ⟨fun i _ => Reg.ESC_SLOT_B_len i, 0xb4004, 0x10, 512, 0x1, 1, .rw, fun _ _ => none, .any, false⟩,
  ⟨fun i _ => Reg.ESC_SLOT_B_dir i, 0xb4004, 0x10, 512, 0x1, 1, .rw, fun _ _ => none, .any, false⟩,
  ⟨fun i _ => Reg.ESC_SLOT_B_valid i, 0xb4004, 0x10, 512, 0x1, 1, .rw, fun _ _ => none, .any, false⟩,
  ⟨fun i _ => Reg.ESC_SLOT_B_chain i, 0xb4004, 0x10, 512, 0x1, 1, .rw, fun _ _ => none, .any, false⟩,
  ⟨fun i _ => Reg.ESC_SLOT_B_plan i, 0xb4004, 0x10, 512, 0x1, 1, .rw, fun _ _ => none, .any, false⟩,
  ⟨fun i _ => Reg.ESC_SLOT_C_svc_mask i, 0xb4008, 0x10, 512, 0x1, 1, .rw, fun _ _ => none, .any, false⟩,
  ⟨fun i _ => Reg.ESC_SLOT_C_lgroup i, 0xb4008, 0x10, 512, 0x1, 1, .rw, fun _ _ => none, .any, false⟩]

def escRows : List Row := escRows0 ++ escRows1

def fwdRows0 : List Row := [
  ⟨fun _ _ => Reg.FWD_CTRL_enable, 0xc0000, 0x1, 1, 0x1, 1, .own, fun _ _ => none, .any, false⟩,
  ⟨fun _ _ => Reg.FWD_CTRL_learn_en, 0xc0000, 0x1, 1, 0x1, 1, .rw, fun _ _ => none, .any, false⟩,
  ⟨fun _ _ => Reg.FWD_CTRL_rte_mode, 0xc0000, 0x1, 1, 0x1, 1, .rw, fun _ _ => none, .any, false⟩,
  ⟨fun _ _ => Reg.FWD_CTRL_miss_action, 0xc0000, 0x1, 1, 0x1, 1, .rw, fun _ _ => none, .any, false⟩,
  ⟨fun _ _ => Reg.FWD_CTRL_rte_fail_action, 0xc0000, 0x1, 1, 0x1, 1, .rw, fun _ _ => none, .any, false⟩,
  ⟨fun _ _ => Reg.FWD_STATUS_need_ctx, 0xc0004, 0x1, 1, 0x1, 1, .ro, fun _ _ => none, .any, false⟩,
  ⟨fun _ _ => Reg.FWD_HASH_SEED0_seed0, 0xc0008, 0x1, 1, 0x1, 1, .rw, fun _ _ => some (Reg.FWD_CTRL_enable), .any, false⟩,
  ⟨fun _ _ => Reg.FWD_HASH_SEED1_seed1, 0xc000c, 0x1, 1, 0x1, 1, .rw, fun _ _ => some (Reg.FWD_CTRL_enable), .any, false⟩,
  ⟨fun _ _ => Reg.FWD_NT_CFG_max_kicks, 0xc0010, 0x1, 1, 0x1, 1, .rw, fun _ _ => none, .any, false⟩,
  ⟨fun _ _ => Reg.FWD_LEARN_CFG_learn_hold, 0xc0014, 0x1, 1, 0x1, 1, .rw, fun _ _ => none, .any, false⟩,
  ⟨fun _ _ => Reg.FWD_LEARN_CFG_lq_hyst, 0xc0014, 0x1, 1, 0x1, 1, .rw, fun _ _ => none, .any, false⟩,
  ⟨fun _ _ => Reg.FWD_REORDER_CFG_reorder_lim, 0xc0018, 0x1, 1, 0x1, 1, .rw, fun _ _ => none, .clamp 100 10000, false⟩,
  ⟨fun _ _ => Reg.FWD_REASM_CFG_reasm_timeout, 0xc001c, 0x1, 1, 0x1, 1, .rw, fun _ _ => none, .clamp 100 60000, false⟩,
  ⟨fun _ _ => Reg.FWD_REASM_CFG_reasm_per_node, 0xc001c, 0x1, 1, 0x1, 1, .rw, fun _ _ => none, .any, false⟩,
  ⟨fun _ _ => Reg.FWD_REASM_CFG2_reasm_max, 0xc0020, 0x1, 1, 0x1, 1, .rw, fun _ _ => none, .any, false⟩,
  ⟨fun i _ => Reg.FWD_SITE_ADDR_addr i, 0xc0030, 0x4, 4, 0x1, 1, .rw, fun _ _ => some (Reg.FWD_CTRL_enable), .any, false⟩,
  ⟨fun _ _ => Reg.FWD_DGRAM_TAG_tag, 0xc0040, 0x1, 1, 0x1, 1, .ro, fun _ _ => none, .any, false⟩,
  ⟨fun _ _ => Reg.FWD_NT_FILL_nt_fill, 0xc0044, 0x1, 1, 0x1, 1, .ro, fun _ _ => none, .any, false⟩,
  ⟨fun _ _ => Reg.FWD_REASM_FILL_in_use, 0xc0048, 0x1, 1, 0x1, 1, .ro, fun _ _ => none, .any, false⟩,
  ⟨fun _ _ => Reg.FWD_PAR_LOG_table, 0xc004c, 0x1, 1, 0x1, 1, .ro, fun _ _ => none, .any, false⟩,
  ⟨fun _ _ => Reg.FWD_PAR_LOG_index, 0xc004c, 0x1, 1, 0x1, 1, .ro, fun _ _ => none, .any, false⟩,
  ⟨fun _ _ => Reg.FWD_PAR_LOG_logged, 0xc004c, 0x1, 1, 0x1, 1, .w1c, fun _ _ => none, .any, false⟩,
  ⟨fun _ _ => Reg.FWD_NT_CMD_op, 0xc0100, 0x1, 1, 0x1, 1, .wo, fun _ _ => none, .any, false⟩,
  ⟨fun _ _ => Reg.FWD_NT_CMD_kind, 0xc0100, 0x1, 1, 0x1, 1, .rw, fun _ _ => none, .any, false⟩,
  ⟨fun _ _ => Reg.FWD_NT_CMD_busy, 0xc0100, 0x1, 1, 0x1, 1, .ro, fun _ _ => none, .any, false⟩,
  ⟨fun _ _ => Reg.FWD_NT_CMD_result, 0xc0100, 0x1, 1, 0x1, 1, .ro, fun _ _ => none, .any, false⟩,
  ⟨fun _ _ => Reg.FWD_NT_KEY_LO_key, 0xc0104, 0x1, 1, 0x1, 1, .rw, fun _ _ => none, .any, false⟩,
  ⟨fun _ _ => Reg.FWD_NT_KEY_HI_key, 0xc0108, 0x1, 1, 0x1, 1, .rw, fun _ _ => none, .any, false⟩,
  ⟨fun _ _ => Reg.FWD_NT_ARG_LO_arg, 0xc010c, 0x1, 1, 0x1, 1, .rw, fun _ _ => none, .any, false⟩,
  ⟨fun _ _ => Reg.FWD_NT_ARG_HI_arg, 0xc0110, 0x1, 1, 0x1, 1, .rw, fun _ _ => none, .any, false⟩,
  ⟨fun _ _ => Reg.FWD_NT_ARG_CTX_ctx, 0xc0114, 0x1, 1, 0x1, 1, .rw, fun _ _ => none, .any, false⟩,
  ⟨fun _ _ => Reg.FWD_NT_ARG_CTX_refs, 0xc0114, 0x1, 1, 0x1, 1, .rw, fun _ _ => none, .any, false⟩,
  ⟨fun _ _ => Reg.FWD_NT_IDX_idx, 0xc0118, 0x1, 1, 0x1, 1, .rw, fun _ _ => none, .any, false⟩,
  ⟨fun i _ => Reg.FWD_NT_RD_word i, 0xc0120, 0x4, 4, 0x1, 1, .ro, fun _ _ => none, .any, false⟩,
  ⟨fun _ _ => Reg.FWD_PT_CMD_op, 0xc0200, 0x1, 1, 0x1, 1, .wo, fun _ _ => none, .any, false⟩,
  ⟨fun _ _ => Reg.FWD_PT_CMD_plen, 0xc0200, 0x1, 1, 0x1, 1, .rw, fun _ _ => none, .any, false⟩,
  ⟨fun _ _ => Reg.FWD_PT_CMD_index, 0xc0200, 0x1, 1, 0x1, 1, .rw, fun _ _ => none, .any, false⟩,
  ⟨fun _ _ => Reg.FWD_PT_CMD_busy, 0xc0200, 0x1, 1, 0x1, 1, .ro, fun _ _ => none, .any, false⟩,
  ⟨fun _ _ => Reg.FWD_PT_CMD_result, 0xc0200, 0x1, 1, 0x1, 1, .ro, fun _ _ => none, .any, false⟩,
  ⟨fun i _ => Reg.FWD_PT_VAL_addr i, 0xc0204, 0x4, 4, 0x1, 1, .rw, fun _ _ => none, .any, false⟩]

def fwdRows1 : List Row := [
  ⟨fun _ _ => Reg.FWD_PT_CTL_port_v, 0xc0214, 0x1, 1, 0x1, 1, .rw, fun _ _ => none, .any, false⟩,
  ⟨fun _ _ => Reg.FWD_PT_CTL_dscp_v, 0xc0214, 0x1, 1, 0x1, 1, .rw, fun _ _ => none, .any, false⟩,
  ⟨fun _ _ => Reg.FWD_PT_CTL_port_m, 0xc0214, 0x1, 1, 0x1, 1, .rw, fun _ _ => none, .any, false⟩,
  ⟨fun _ _ => Reg.FWD_PT_CTL_dscp_m, 0xc0214, 0x1, 1, 0x1, 1, .rw, fun _ _ => none, .any, false⟩,
  ⟨fun _ _ => Reg.FWD_PT_ACT_action, 0xc0218, 0x1, 1, 0x1, 1, .rw, fun _ _ => none, .any, false⟩,
  ⟨fun _ _ => Reg.FWD_PT_ACT_port, 0xc0218, 0x1, 1, 0x1, 1, .rw, fun _ _ => none, .any, false⟩,
  ⟨fun _ _ => Reg.FWD_PT_ACT_svc, 0xc0218, 0x1, 1, 0x1, 1, .rw, fun _ _ => none, .any, false⟩,
  ⟨fun _ _ => Reg.FWD_PT_ACT_sci, 0xc0218, 0x1, 1, 0x1, 1, .rw, fun _ _ => none, .any, false⟩,
  ⟨fun _ _ => Reg.FWD_PT_FILL_count, 0xc021c, 0x1, 1, 0x1, 1, .ro, fun _ _ => none, .any, false⟩,
  ⟨fun i _ => Reg.FWD_SCI_LO_pfx_lo i, 0xc0300, 0x10, 16, 0x1, 1, .rw, fun i _ => some (Reg.FWD_SCI_CTRL_valid i), .any, false⟩,
  ⟨fun i _ => Reg.FWD_SCI_HI_pfx_hi i, 0xc0304, 0x10, 16, 0x1, 1, .rw, fun i _ => some (Reg.FWD_SCI_CTRL_valid i), .any, false⟩,
  ⟨fun i _ => Reg.FWD_SCI_CTRL_valid i, 0xc0308, 0x10, 16, 0x1, 1, .rw, fun _ _ => none, .any, false⟩]

def fwdRows : List Row := fwdRows0 ++ fwdRows1

def ctxRows : List Row := [
  ⟨fun _ _ => Reg.CTX_CTRL_enable, 0xd0000, 0x1, 1, 0x1, 1, .own, fun _ _ => none, .any, false⟩,
  ⟨fun _ _ => Reg.CTX_CTRL_flush, 0xd0000, 0x1, 1, 0x1, 1, .wo, fun _ _ => none, .any, false⟩,
  ⟨fun _ _ => Reg.CTX_STATUS_selftest_done, 0xd0004, 0x1, 1, 0x1, 1, .ro, fun _ _ => none, .any, false⟩,
  ⟨fun _ _ => Reg.CTX_STATUS_selftest_pass, 0xd0004, 0x1, 1, 0x1, 1, .ro, fun _ _ => none, .any, false⟩,
  ⟨fun _ _ => Reg.CTX_STATUS_pool_err, 0xd0004, 0x1, 1, 0x1, 1, .ro, fun _ _ => none, .any, false⟩,
  ⟨fun _ _ => Reg.CTX_STATUS_flush_busy, 0xd0004, 0x1, 1, 0x1, 1, .ro, fun _ _ => none, .any, false⟩,
  ⟨fun _ _ => Reg.CTX_STATUS_bad_bank, 0xd0004, 0x1, 1, 0x1, 1, .ro, fun _ _ => none, .any, false⟩,
  ⟨fun _ _ => Reg.CTX_CKPT_CFG_ckpt_interval, 0xd0008, 0x1, 1, 0x1, 1, .rw, fun _ _ => none, .clamp 10 3600, true⟩,
  ⟨fun _ _ => Reg.CTX_CKPT_CFG_sweep_rings, 0xd0008, 0x1, 1, 0x1, 1, .rw, fun _ _ => none, .any, false⟩,
  ⟨fun _ _ => Reg.CTX_CKPT_STAT_sweep_num, 0xd000c, 0x1, 1, 0x1, 1, .ro, fun _ _ => none, .any, false⟩,
  ⟨fun _ _ => Reg.CTX_ACC_CMD_ctx, 0xd0010, 0x1, 1, 0x1, 1, .rw, fun _ _ => none, .any, false⟩,
  ⟨fun _ _ => Reg.CTX_ACC_CMD_op, 0xd0010, 0x1, 1, 0x1, 1, .wo, fun _ _ => none, .any, false⟩,
  ⟨fun _ _ => Reg.CTX_ACC_CMD_line_mask, 0xd0010, 0x1, 1, 0x1, 1, .rw, fun _ _ => none, .any, false⟩,
  ⟨fun _ _ => Reg.CTX_ACC_CMD_busy, 0xd0010, 0x1, 1, 0x1, 1, .ro, fun _ _ => none, .any, false⟩,
  ⟨fun _ _ => Reg.CTX_ACC_CMD_result, 0xd0010, 0x1, 1, 0x1, 1, .ro, fun _ _ => none, .any, false⟩,
  ⟨fun _ _ => Reg.CTX_ACC_ADJ_LO_adj, 0xd0014, 0x1, 1, 0x1, 1, .rw, fun _ _ => none, .any, false⟩,
  ⟨fun _ _ => Reg.CTX_ACC_ADJ_HI_adj, 0xd0018, 0x1, 1, 0x1, 1, .rw, fun _ _ => none, .any, false⟩,
  ⟨fun _ _ => Reg.CTX_ACC_UNC_unc, 0xd001c, 0x1, 1, 0x1, 1, .rw, fun _ _ => none, .any, false⟩,
  ⟨fun _ _ => Reg.CTX_FC_CFG_fc_margin, 0xd0020, 0x1, 1, 0x1, 1, .rw, fun _ _ => none, .any, false⟩,
  ⟨fun _ _ => Reg.CTX_RESV_SEQ_seq, 0xd0024, 0x1, 1, 0x1, 1, .ro, fun _ _ => none, .any, false⟩,
  ⟨fun _ _ => Reg.CTX_RESV_CONF_conf, 0xd0028, 0x1, 1, 0x1, 1, .wo, fun _ _ => none, .any, false⟩,
  ⟨fun _ _ => Reg.CTX_RESV_OUT_outstanding, 0xd002c, 0x1, 1, 0x1, 1, .ro, fun _ _ => none, .any, false⟩,
  ⟨fun _ _ => Reg.CTX_PAR_LOG_ctx, 0xd0030, 0x1, 1, 0x1, 1, .ro, fun _ _ => none, .any, false⟩,
  ⟨fun _ _ => Reg.CTX_PAR_LOG_line, 0xd0030, 0x1, 1, 0x1, 1, .ro, fun _ _ => none, .any, false⟩,
  ⟨fun _ _ => Reg.CTX_PAR_LOG_logged, 0xd0030, 0x1, 1, 0x1, 1, .w1c, fun _ _ => none, .any, false⟩,
  ⟨fun i _ => Reg.CTX_POOL_CNT_count i, 0xd0040, 0x8, 8, 0x1, 1, .rw, fun _ _ => some (Reg.CTX_CTRL_enable), .any, false⟩,
  ⟨fun i _ => Reg.CTX_POOL_FREE_free i, 0xd0044, 0x8, 8, 0x1, 1, .ro, fun _ _ => none, .any, false⟩,
  ⟨fun i _ => Reg.CTX_WIN_word i, 0xd0100, 0x4, 48, 0x1, 1, .rw, fun _ _ => none, .any, false⟩]

def jwlRows : List Row := [
  ⟨fun _ _ => Reg.JWL_CTRL_enable, 0xe0000, 0x1, 1, 0x1, 1, .own, fun _ _ => none, .any, false⟩,
  ⟨fun _ _ => Reg.JWL_CTRL_join_unsec, 0xe0000, 0x1, 1, 0x1, 1, .rw, fun _ _ => none, .any, false⟩,
  ⟨fun _ _ => Reg.JWL_STATUS_lc_state, 0xe0004, 0x1, 1, 0x1, 1, .ro, fun _ _ => none, .any, false⟩,
  ⟨fun _ _ => Reg.JWL_STATUS_lc_busy, 0xe0004, 0x1, 1, 0x1, 1, .ro, fun _ _ => none, .any, false⟩,
  ⟨fun _ _ => Reg.JWL_STATUS_sweep_busy, 0xe0004, 0x1, 1, 0x1, 1, .ro, fun _ _ => none, .any, false⟩,
  ⟨fun _ _ => Reg.JWL_STATUS_lc_read, 0xe0004, 0x1, 1, 0x1, 1, .ro, fun _ _ => none, .any, false⟩,
  ⟨fun _ _ => Reg.JWL_STATUS_deriv_q, 0xe0004, 0x1, 1, 0x1, 1, .ro, fun _ _ => none, .any, false⟩,
  ⟨fun _ _ => Reg.JWL_CACHE_entries, 0xe0008, 0x1, 1, 0x1, 1, .ro, fun _ _ => none, .any, false⟩,
  ⟨fun _ _ => Reg.JWL_CACHE_flush, 0xe0008, 0x1, 1, 0x1, 1, .wo, fun _ _ => none, .any, false⟩,
  ⟨fun _ _ => Reg.JWL_LC_CMD_target, 0xe000c, 0x1, 1, 0x1, 1, .rw, fun _ _ => none, .any, false⟩,
  ⟨fun _ _ => Reg.JWL_LC_CMD_go, 0xe000c, 0x1, 1, 0x1, 1, .wo, fun _ _ => none, .any, false⟩,
  ⟨fun _ _ => Reg.JWL_LC_RES_result, 0xe0010, 0x1, 1, 0x1, 1, .ro, fun _ _ => none, .any, false⟩,
  ⟨fun _ _ => Reg.JWL_DEVID_LO_device_id, 0xe0014, 0x1, 1, 0x1, 1, .ro, fun _ _ => none, .any, false⟩,
  ⟨fun _ _ => Reg.JWL_DEVID_HI_device_id, 0xe0018, 0x1, 1, 0x1, 1, .ro, fun _ _ => none, .any, false⟩,
  ⟨fun i _ => Reg.JWL_GROUP_slot (i + 1), 0xe0044, 0x4, 15, 0x1, 1, .rw, fun _ _ => none, .any, false⟩,
  ⟨fun i _ => Reg.JWL_GROUP_valid (i + 1), 0xe0044, 0x4, 15, 0x1, 1, .rw, fun _ _ => none, .any, false⟩,
  ⟨fun i j => Reg.JWL_MEAS_word i j, 0xe0080, 0x20, 4, 0x4, 8, .ro, fun _ _ => none, .any, false⟩,
  ⟨fun i _ => Reg.JWL_CMD_op i, 0xe1000, 0x400, 4, 0x1, 1, .wo, fun _ _ => none, .any, false⟩,
  ⟨fun i _ => Reg.JWL_CMD_slot i, 0xe1000, 0x400, 4, 0x1, 1, .rw, fun _ _ => none, .any, false⟩,
  ⟨fun i _ => Reg.JWL_CMD_busy i, 0xe1000, 0x400, 4, 0x1, 1, .ro, fun _ _ => none, .any, false⟩,
  ⟨fun i _ => Reg.JWL_CMD_result i, 0xe1000, 0x400, 4, 0x1, 1, .ro, fun _ _ => none, .any, false⟩,
  ⟨fun i _ => Reg.JWL_ATTR_type i, 0xe1004, 0x400, 4, 0x1, 1, .rw, fun _ _ => none, .any, false⟩,
  ⟨fun i _ => Reg.JWL_ATTR_world i, 0xe1004, 0x400, 4, 0x1, 1, .rw, fun _ _ => none, .any, false⟩,
  ⟨fun i _ => Reg.JWL_ATTR_masters i, 0xe1004, 0x400, 4, 0x1, 1, .rw, fun _ _ => none, .any, false⟩,
  ⟨fun i _ => Reg.JWL_ATTR_lc_mask i, 0xe1004, 0x400, 4, 0x1, 1, .rw, fun _ _ => none, .any, false⟩,
  ⟨fun i _ => Reg.JWL_ATTR_parent i, 0xe1004, 0x400, 4, 0x1, 1, .rw, fun _ _ => none, .any, false⟩,
  ⟨fun i _ => Reg.JWL_ATTR_lc_auth i, 0xe1004, 0x400, 4, 0x1, 1, .rw, fun _ _ => none, .any, false⟩,
  ⟨fun i _ => Reg.JWL_ATTR_depth i, 0xe1004, 0x400, 4, 0x1, 1, .ro, fun _ _ => none, .any, false⟩,
  ⟨fun i _ => Reg.JWL_ATTR_state i, 0xe1004, 0x400, 4, 0x1, 1, .ro, fun _ _ => none, .any, false⟩,
  ⟨fun i _ => Reg.JWL_DOMAIN_domain i, 0xe1008, 0x400, 4, 0x1, 1, .rw, fun _ _ => none, .any, false⟩,
  ⟨fun i _ => Reg.JWL_GEN_gen i, 0xe100c, 0x400, 4, 0x1, 1, .ro, fun _ _ => none, .any, false⟩,
  ⟨fun i j => Reg.JWL_KEY_key i j, 0xe1010, 0x400, 4, 0x4, 16, .wo, fun _ _ => none, .any, false⟩,
  ⟨fun i j => Reg.JWL_LABEL_label i j, 0xe1050, 0x400, 4, 0x4, 4, .rw, fun _ _ => none, .any, false⟩,
  ⟨fun i _ => Reg.JWL_JOB_ADDR_LO_addr i, 0xe1060, 0x400, 4, 0x1, 1, .rw, fun _ _ => none, .any, false⟩,
  ⟨fun i _ => Reg.JWL_JOB_ADDR_HI_addr i, 0xe1064, 0x400, 4, 0x1, 1, .rw, fun _ _ => none, .any, false⟩,
  ⟨fun i _ => Reg.JWL_JOB_LEN_len i, 0xe1068, 0x400, 4, 0x1, 1, .rw, fun _ _ => none, .any, false⟩,
  ⟨fun i j => Reg.JWL_DIGEST_word i j, 0xe1080, 0x400, 4, 0x4, 8, .rw, fun _ _ => none, .any, false⟩,
  ⟨fun i j => Reg.JWL_SIG_word i j, 0xe10a0, 0x400, 4, 0x4, 16, .rw, fun _ _ => none, .any, false⟩,
  ⟨fun i j => Reg.JWL_ATTRES_word i j, 0xe1100, 0x400, 4, 0x4, 56, .ro, fun _ _ => none, .any, false⟩]

def hifRows : List Row := [
  ⟨fun _ _ => Reg.HIF_STATUS_link_up, 0xf0004, 0x1, 1, 0x1, 1, .ro, fun _ _ => none, .any, false⟩,
  ⟨fun _ _ => Reg.HIF_STATUS_speed, 0xf0004, 0x1, 1, 0x1, 1, .ro, fun _ _ => none, .any, false⟩,
  ⟨fun _ _ => Reg.HIF_STATUS_width, 0xf0004, 0x1, 1, 0x1, 1, .ro, fun _ _ => none, .any, false⟩,
  ⟨fun _ _ => Reg.HIF_STATUS_standalone, 0xf0004, 0x1, 1, 0x1, 1, .ro, fun _ _ => none, .any, false⟩,
  ⟨fun _ _ => Reg.HIF_STATUS_bme, 0xf0004, 0x1, 1, 0x1, 1, .ro, fun _ _ => none, .any, false⟩,
  ⟨fun _ _ => Reg.HIF_ID_vendor_id, 0xf0008, 0x1, 1, 0x1, 1, .ro, fun _ _ => none, .any, false⟩,
  ⟨fun _ _ => Reg.HIF_ID_device_id, 0xf0008, 0x1, 1, 0x1, 1, .ro, fun _ _ => none, .any, false⟩,
  ⟨fun _ _ => Reg.HIF_DMA_CFG_fetch_batch, 0xf000c, 0x1, 1, 0x1, 1, .rw, fun _ _ => none, .any, false⟩,
  ⟨fun i _ => Reg.HIF_SVC_MAP_ring_base i, 0xf0040, 0x4, 16, 0x1, 1, .rw, fun _ _ => none, .any, false⟩,
  ⟨fun i _ => Reg.HIF_SVC_MAP_ring_log2 i, 0xf0040, 0x4, 16, 0x1, 1, .rw, fun _ _ => none, .any, false⟩,
  ⟨fun i _ => Reg.HIF_SVC_MAP_valid i, 0xf0040, 0x4, 16, 0x1, 1, .rw, fun _ _ => none, .any, false⟩,
  ⟨fun _ _ => Reg.HIF_RSN_SVC0_svc, 0xf0080, 0x1, 1, 0x1, 1, .rw, fun _ _ => none, .any, false⟩,
  ⟨fun _ _ => Reg.HIF_RSN_SVC1_svc, 0xf0084, 0x1, 1, 0x1, 1, .rw, fun _ _ => none, .any, false⟩,
  ⟨fun i _ => Reg.HIF_VEC_CFG_coal_cnt i, 0xf0100, 0x4, 64, 0x1, 1, .rw, fun _ _ => none, .any, true⟩,
  ⟨fun i _ => Reg.HIF_VEC_CFG_coal_us i, 0xf0100, 0x4, 64, 0x1, 1, .rw, fun _ _ => none, .any, true⟩,
  ⟨fun i _ => Reg.HIF_VEC_CFG_dest i, 0xf0100, 0x4, 64, 0x1, 1, .own, fun _ _ => none, .any, false⟩,
  ⟨fun i _ => Reg.HIF_RING_CTRL_enable i, 0xf1000, 0x40, 256, 0x1, 1, .own, fun _ _ => none, .any, false⟩,
  ⟨fun i _ => Reg.HIF_RING_CTRL_owner i, 0xf1000, 0x40, 256, 0x1, 1, .rw, fun i _ => some (Reg.HIF_RING_CTRL_enable i), .any, false⟩,
  ⟨fun i _ => Reg.HIF_RING_CTRL_log2_size i, 0xf1000, 0x40, 256, 0x1, 1, .rw, fun i _ => some (Reg.HIF_RING_CTRL_enable i), .any, false⟩,
  ⟨fun i _ => Reg.HIF_RING_CTRL_vector i, 0xf1000, 0x40, 256, 0x1, 1, .rw, fun _ _ => none, .any, false⟩,
  ⟨fun i _ => Reg.HIF_RING_CTRL_irq_en i, 0xf1000, 0x40, 256, 0x1, 1, .rw, fun _ _ => none, .any, false⟩,
  ⟨fun i _ => Reg.HIF_RING_CTRL_wb_en i, 0xf1000, 0x40, 256, 0x1, 1, .rw, fun _ _ => none, .any, false⟩,
  ⟨fun i _ => Reg.HIF_RING_BASE_LO_base i, 0xf1004, 0x40, 256, 0x1, 1, .rw, fun i _ => some (Reg.HIF_RING_CTRL_enable i), .any, false⟩,
  ⟨fun i _ => Reg.HIF_RING_BASE_HI_base i, 0xf1008, 0x40, 256, 0x1, 1, .rw, fun i _ => some (Reg.HIF_RING_CTRL_enable i), .any, false⟩,
  ⟨fun i _ => Reg.HIF_RING_AUX_LO_aux i, 0xf100c, 0x40, 256, 0x1, 1, .rw, fun i _ => some (Reg.HIF_RING_CTRL_enable i), .any, false⟩,
  ⟨fun i _ => Reg.HIF_RING_AUX_HI_aux i, 0xf1010, 0x40, 256, 0x1, 1, .rw, fun i _ => some (Reg.HIF_RING_CTRL_enable i), .any, false⟩,
  ⟨fun i _ => Reg.HIF_RING_WB_LO_wb i, 0xf1014, 0x40, 256, 0x1, 1, .rw, fun i _ => some (Reg.HIF_RING_CTRL_enable i), .any, false⟩,
  ⟨fun i _ => Reg.HIF_RING_WB_HI_wb i, 0xf1018, 0x40, 256, 0x1, 1, .rw, fun i _ => some (Reg.HIF_RING_CTRL_enable i), .any, false⟩]

def evtRows : List Row := [
  ⟨fun _ _ => Reg.EVT_SWRAISE_ev, 0x100020, 0x1, 1, 0x1, 1, .wo, fun _ _ => none, .any, false⟩,
  ⟨fun i _ => Reg.EVT_ROUTE_ring_en i, 0x101000, 0x4, 256, 0x1, 1, .rw, fun _ _ => none, .any, false⟩,
  ⟨fun i _ => Reg.EVT_ROUTE_ring i, 0x101000, 0x4, 256, 0x1, 1, .rw, fun _ _ => none, .any, false⟩,
  ⟨fun i _ => Reg.EVT_ROUTE_vec_en i, 0x101000, 0x4, 256, 0x1, 1, .rw, fun _ _ => none, .any, false⟩,
  ⟨fun i _ => Reg.EVT_ROUTE_vector i, 0x101000, 0x4, 256, 0x1, 1, .rw, fun _ _ => none, .any, false⟩]

def mbxRows : List Row := [
  ⟨fun i _ => Reg.MBX_EP_epoch i, 0x110010, 0x4, 5, 0x1, 1, .ro, fun _ _ => none, .any, false⟩,
  ⟨fun i _ => Reg.MBX_EP_down i, 0x110010, 0x4, 5, 0x1, 1, .ro, fun _ _ => none, .any, false⟩,
  ⟨fun _ _ => Reg.MBX_SEM_FORCE_sem, 0x110100, 0x1, 1, 0x1, 1, .wo, fun _ _ => none, .any, false⟩,
  ⟨fun i _ => Reg.MBX_CIRQ_CFG_targets i, 0x110400, 0x4, 64, 0x1, 1, .rw, fun _ _ => none, .any, false⟩,
  ⟨fun i _ => Reg.MBX_CIRQ_CFG_mask i, 0x110400, 0x4, 64, 0x1, 1, .own, fun _ _ => none, .any, false⟩,
  ⟨fun i _ => Reg.MBX_CIRQ_CFG_pending i, 0x110400, 0x4, 64, 0x1, 1, .ro, fun _ _ => none, .any, false⟩,
  ⟨fun i _ => Reg.MBX_CH_CFG_enable i, 0x111000, 0x80, 32, 0x1, 1, .own, fun _ _ => none, .any, false⟩,
  ⟨fun i _ => Reg.MBX_CH_CFG_sender i, 0x111000, 0x80, 32, 0x1, 1, .own, fun i _ => some (Reg.MBX_CH_CFG_enable i), .any, false⟩,
  ⟨fun i _ => Reg.MBX_CH_CFG_receiver i, 0x111000, 0x80, 32, 0x1, 1, .own, fun i _ => some (Reg.MBX_CH_CFG_enable i), .any, false⟩,
  ⟨fun i _ => Reg.MBX_CH_CFG_ev_en i, 0x111000, 0x80, 32, 0x1, 1, .own, fun _ _ => none, .any, false⟩,
  ⟨fun i _ => Reg.MBX_CH_STAT_level i, 0x111004, 0x80, 32, 0x1, 1, .ro, fun _ _ => none, .any, false⟩,
  ⟨fun i _ => Reg.MBX_CH_STAT_collision i, 0x111004, 0x80, 32, 0x1, 1, .w1c, fun _ _ => none, .any, false⟩,
  ⟨fun i _ => Reg.MBX_CH_STAT_rx_down i, 0x111004, 0x80, 32, 0x1, 1, .ro, fun _ _ => none, .any, false⟩,
  ⟨fun i _ => Reg.MBX_CH_STAT_tx_down i, 0x111004, 0x80, 32, 0x1, 1, .ro, fun _ _ => none, .any, false⟩,
  ⟨fun i _ => Reg.MBX_CH_SEND_len i, 0x111008, 0x80, 32, 0x1, 1, .wo, fun _ _ => none, .any, false⟩,
  ⟨fun i _ => Reg.MBX_CH_POP_pop i, 0x11100c, 0x80, 32, 0x1, 1, .wo, fun _ _ => none, .any, false⟩,
  ⟨fun i _ => Reg.MBX_CH_HDR_valid i, 0x111010, 0x80, 32, 0x1, 1, .ro, fun _ _ => none, .any, false⟩,
  ⟨fun i _ => Reg.MBX_CH_HDR_len i, 0x111010, 0x80, 32, 0x1, 1, .ro, fun _ _ => none, .any, false⟩,
  ⟨fun i _ => Reg.MBX_CH_HDR_RESTARTED i, 0x111010, 0x80, 32, 0x1, 1, .ro, fun _ _ => none, .any, false⟩,
  ⟨fun i _ => Reg.MBX_CH_HDR_STALE_EPOCH i, 0x111010, 0x80, 32, 0x1, 1, .ro, fun _ _ => none, .any, false⟩,
  ⟨fun i _ => Reg.MBX_CH_HDR_COLLISION i, 0x111010, 0x80, 32, 0x1, 1, .ro, fun _ _ => none, .any, false⟩,
  ⟨fun i _ => Reg.MBX_CH_HDR_seq i, 0x111010, 0x80, 32, 0x1, 1, .ro, fun _ _ => none, .any, false⟩,
  ⟨fun i _ => Reg.MBX_CH_EP_tx_epoch i, 0x111014, 0x80, 32, 0x1, 1, .ro, fun _ _ => none, .any, false⟩,
  ⟨fun i _ => Reg.MBX_CH_EP_rx_epoch i, 0x111014, 0x80, 32, 0x1, 1, .ro, fun _ _ => none, .any, false⟩,
  ⟨fun i j => Reg.MBX_CH_TXD_word i j, 0x111020, 0x80, 32, 0x4, 8, .own, fun _ _ => none, .any, false⟩,
  ⟨fun i j => Reg.MBX_CH_RXD_word i j, 0x111040, 0x80, 32, 0x4, 8, .ro, fun _ _ => none, .any, false⟩,
  ⟨fun i _ => Reg.MBX_SEM_LOCK_owner i, 0x112000, 0x4, 64, 0x1, 1, .own, fun _ _ => none, .any, false⟩,
  ⟨fun i _ => Reg.MBX_SEM_LOCK_abandoned i, 0x112000, 0x4, 64, 0x1, 1, .ro, fun _ _ => none, .any, false⟩,
  ⟨fun i _ => Reg.MBX_SEM_PEEK_owner i, 0x112100, 0x4, 64, 0x1, 1, .ro, fun _ _ => none, .any, false⟩,
  ⟨fun i _ => Reg.MBX_SEM_PEEK_abandoned i, 0x112100, 0x4, 64, 0x1, 1, .ro, fun _ _ => none, .any, false⟩]

def ethRows0 : List Row := [
  ⟨fun i _ => Reg.ETH_CTRL_enable i, 0x120000, 0x10000, 2, 0x1, 1, .own, fun _ _ => none, .any, false⟩,
  ⟨fun i _ => Reg.ETH_CTRL_mode i, 0x120000, 0x10000, 2, 0x1, 1, .rw, fun i _ => some (Reg.ETH_CTRL_enable i), .any, false⟩,
  ⟨fun i _ => Reg.ETH_CTRL_an_en i, 0x120000, 0x10000, 2, 0x1, 1, .rw, fun i _ => some (Reg.ETH_CTRL_enable i), .any, false⟩,
  ⟨fun i _ => Reg.ETH_CTRL_standby i, 0x120000, 0x10000, 2, 0x1, 1, .own, fun _ _ => none, .any, false⟩,
  ⟨fun i _ => Reg.ETH_CTRL_promisc i, 0x120000, 0x10000, 2, 0x1, 1, .rw, fun _ _ => none, .any, false⟩,
  ⟨fun i _ => Reg.ETH_CTRL_bcast_en i, 0x120000, 0x10000, 2, 0x1, 1, .rw, fun _ _ => none, .any, false⟩,
  ⟨fun i _ => Reg.ETH_CTRL_vlan_en i, 0x120000, 0x10000, 2, 0x1, 1, .rw, fun i _ => some (Reg.ETH_CTRL_enable i), .any, false⟩,
  ⟨fun i _ => Reg.ETH_CTRL_pause_rx_en i, 0x120000, 0x10000, 2, 0x1, 1, .rw, fun _ _ => none, .any, false⟩,
  ⟨fun i _ => Reg.ETH_CTRL_pause_tx_en i, 0x120000, 0x10000, 2, 0x1, 1, .rw, fun _ _ => none, .any, false⟩,
  ⟨fun i _ => Reg.ETH_CTRL_auto_wake i, 0x120000, 0x10000, 2, 0x1, 1, .rw, fun _ _ => none, .any, false⟩,
  ⟨fun i _ => Reg.ETH_CTRL_wake_filter i, 0x120000, 0x10000, 2, 0x1, 1, .rw, fun _ _ => none, .any, false⟩,
  ⟨fun i _ => Reg.ETH_STATUS_state i, 0x120004, 0x10000, 2, 0x1, 1, .ro, fun _ _ => none, .any, false⟩,
  ⟨fun i _ => Reg.ETH_STATUS_link_up i, 0x120004, 0x10000, 2, 0x1, 1, .ro, fun _ _ => none, .any, false⟩,
  ⟨fun i _ => Reg.ETH_STATUS_paused i, 0x120004, 0x10000, 2, 0x1, 1, .ro, fun _ _ => none, .any, false⟩,
  ⟨fun i _ => Reg.ETH_STATUS_wd_holdoff i, 0x120004, 0x10000, 2, 0x1, 1, .ro, fun _ _ => none, .any, false⟩,
  ⟨fun i _ => Reg.ETH_STATUS_speed_err i, 0x120004, 0x10000, 2, 0x1, 1, .w1c, fun _ _ => none, .any, false⟩,
  ⟨fun i _ => Reg.ETH_STATUS_no_mac i, 0x120004, 0x10000, 2, 0x1, 1, .ro, fun _ _ => none, .any, false⟩,
  ⟨fun i _ => Reg.ETH_STATUS_partner_pause i, 0x120004, 0x10000, 2, 0x1, 1, .ro, fun _ _ => none, .any, false⟩,
  ⟨fun i _ => Reg.ETH_FRAME_CFG_max_len i, 0x120008, 0x10000, 2, 0x1, 1, .rw, fun _ _ => none, .clamp 64 9600, false⟩,
  ⟨fun i _ => Reg.ETH_FRAME_CFG_vid i, 0x120008, 0x10000, 2, 0x1, 1, .rw, fun i _ => some (Reg.ETH_CTRL_enable i), .any, false⟩,
  ⟨fun i _ => Reg.ETH_PAUSE_CFG_pause_wd_ms i, 0x12000c, 0x10000, 2, 0x1, 1, .rw, fun _ _ => none, .any, false⟩,
  ⟨fun i _ => Reg.ETH_PAUSE_CFG_wd_holdoff_ms i, 0x12000c, 0x10000, 2, 0x1, 1, .rw, fun _ _ => none, .any, false⟩,
  ⟨fun i _ => Reg.ETH_PAUSE_TX_pause_quanta i, 0x120010, 0x10000, 2, 0x1, 1, .rw, fun _ _ => none, .any, false⟩,
  ⟨fun i _ => Reg.ETH_RXBUF_CFG_xoff_thr i, 0x120014, 0x10000, 2, 0x1, 1, .rw, fun _ _ => none, .any, false⟩,
  ⟨fun i _ => Reg.ETH_RXBUF_CFG_xon_thr i, 0x120014, 0x10000, 2, 0x1, 1, .rw, fun _ _ => none, .any, false⟩,
  ⟨fun i _ => Reg.ETH_RXBUF_CFG_rx_pool_max i, 0x120014, 0x10000, 2, 0x1, 1, .rw, fun _ _ => none, .any, false⟩,
  ⟨fun i _ => Reg.ETH_CLASS_host_svc i, 0x120018, 0x10000, 2, 0x1, 1, .rw, fun _ _ => none, .any, false⟩,
  ⟨fun i _ => Reg.ETH_GW_MAC_LO_mac_lo i, 0x12001c, 0x10000, 2, 0x1, 1, .rw, fun _ _ => none, .any, false⟩,
  ⟨fun i _ => Reg.ETH_GW_MAC_HI_mac_hi i, 0x120020, 0x10000, 2, 0x1, 1, .rw, fun _ _ => none, .any, false⟩,
  ⟨fun i _ => Reg.ETH_PTP_CFG_ts_rx_mode i, 0x120024, 0x10000, 2, 0x1, 1, .rw, fun _ _ => none, .any, false⟩,
  ⟨fun i _ => Reg.ETH_PTP_LAT_rx_lat i, 0x120028, 0x10000, 2, 0x1, 1, .rw, fun _ _ => none, .any, false⟩,
  ⟨fun i _ => Reg.ETH_PTP_LAT_tx_lat i, 0x120028, 0x10000, 2, 0x1, 1, .rw, fun _ _ => none, .any, false⟩,
  ⟨fun i _ => Reg.ETH_WAKE_CTRL_magic_en i, 0x120030, 0x10000, 2, 0x1, 1, .rw, fun _ _ => none, .any, false⟩,
  ⟨fun i _ => Reg.ETH_WAKE_CTRL_pat_en i, 0x120030, 0x10000, 2, 0x1, 1, .rw, fun _ _ => none, .any, false⟩,
  ⟨fun i _ => Reg.ETH_WAKE_CTRL_wake_cause i, 0x120030, 0x10000, 2, 0x1, 1, .w1c, fun _ _ => none, .any, false⟩,
  ⟨fun i j => Reg.ETH_UC_LO_mac_lo i j, 0x120100, 0x10000, 2, 0x8, 8, .rw, fun i j => some (Reg.ETH_UC_HI_valid i j), .any, false⟩,
  ⟨fun i j => Reg.ETH_UC_HI_mac_hi i j, 0x120104, 0x10000, 2, 0x8, 8, .rw, fun i j => some (Reg.ETH_UC_HI_valid i j), .any, false⟩,
  ⟨fun i j => Reg.ETH_UC_HI_valid i j, 0x120104, 0x10000, 2, 0x8, 8, .rw, fun _ _ => none, .any, false⟩,
  ⟨fun i j => Reg.ETH_MC_HASH_bins i j, 0x120200, 0x10000, 2, 0x4, 16, .rw, fun _ _ => none, .any, false⟩,
  ⟨fun i k => Reg.ETH_PAT_octets i 0 k, 0x121000, 0x10000, 2, 0x4, 32, .rw, fun _ _ => none, .any, false⟩]

def ethRows1 : List Row := [
  ⟨fun i k => Reg.ETH_PAT_octets i 1 k, 0x121100, 0x10000, 2, 0x4, 32, .rw, fun _ _ => none, .any, false⟩,
  ⟨fun i k => Reg.ETH_PAT_octets i 2 k, 0x121200, 0x10000, 2, 0x4, 32, .rw, fun _ _ => none, .any, false⟩,
  ⟨fun i k => Reg.ETH_PAT_octets i 3 k, 0x121300, 0x10000, 2, 0x4, 32, .rw, fun _ _ => none, .any, false⟩,
  ⟨fun i k => Reg.ETH_PAT_octets i 4 k, 0x121400, 0x10000, 2, 0x4, 32, .rw, fun _ _ => none, .any, false⟩,
  ⟨fun i k => Reg.ETH_PAT_octets i 5 k, 0x121500, 0x10000, 2, 0x4, 32, .rw, fun _ _ => none, .any, false⟩,
  ⟨fun i k => Reg.ETH_PAT_octets i 6 k, 0x121600, 0x10000, 2, 0x4, 32, .rw, fun _ _ => none, .any, false⟩,
  ⟨fun i k => Reg.ETH_PAT_octets i 7 k, 0x121700, 0x10000, 2, 0x4, 32, .rw, fun _ _ => none, .any, false⟩,
  ⟨fun i k => Reg.ETH_PMASK_mask i 0 k, 0x121080, 0x10000, 2, 0x4, 4, .rw, fun _ _ => none, .any, false⟩,
  ⟨fun i k => Reg.ETH_PMASK_mask i 1 k, 0x121180, 0x10000, 2, 0x4, 4, .rw, fun _ _ => none, .any, false⟩,
  ⟨fun i k => Reg.ETH_PMASK_mask i 2 k, 0x121280, 0x10000, 2, 0x4, 4, .rw, fun _ _ => none, .any, false⟩,
  ⟨fun i k => Reg.ETH_PMASK_mask i 3 k, 0x121380, 0x10000, 2, 0x4, 4, .rw, fun _ _ => none, .any, false⟩,
  ⟨fun i k => Reg.ETH_PMASK_mask i 4 k, 0x121480, 0x10000, 2, 0x4, 4, .rw, fun _ _ => none, .any, false⟩,
  ⟨fun i k => Reg.ETH_PMASK_mask i 5 k, 0x121580, 0x10000, 2, 0x4, 4, .rw, fun _ _ => none, .any, false⟩,
  ⟨fun i k => Reg.ETH_PMASK_mask i 6 k, 0x121680, 0x10000, 2, 0x4, 4, .rw, fun _ _ => none, .any, false⟩,
  ⟨fun i k => Reg.ETH_PMASK_mask i 7 k, 0x121780, 0x10000, 2, 0x4, 4, .rw, fun _ _ => none, .any, false⟩]

def ethRows : List Row := ethRows0 ++ ethRows1

def twnRows : List Row := [
  ⟨fun _ _ => Reg.TWN_CTRL_enable, 0x140000, 0x1, 1, 0x1, 1, .own, fun _ _ => none, .any, false⟩,
  ⟨fun _ _ => Reg.TWN_CTRL_role, 0x140000, 0x1, 1, 0x1, 1, .rw, fun _ _ => some (Reg.TWN_CTRL_enable), .any, false⟩,
  ⟨fun _ _ => Reg.TWN_CTRL_ack_mode, 0x140000, 0x1, 1, 0x1, 1, .rw, fun _ _ => none, .any, false⟩,
  ⟨fun _ _ => Reg.TWN_CTRL_fwd_air, 0x140000, 0x1, 1, 0x1, 1, .rw, fun _ _ => none, .any, false⟩,
  ⟨fun _ _ => Reg.TWN_CTRL_dl_mirror, 0x140000, 0x1, 1, 0x1, 1, .rw, fun _ _ => none, .any, false⟩,
  ⟨fun _ _ => Reg.TWN_CTRL_src_mac_mode, 0x140000, 0x1, 1, 0x1, 1, .rw, fun _ _ => none, .any, false⟩,
  ⟨fun _ _ => Reg.TWN_CTRL_hb_port, 0x140000, 0x1, 1, 0x1, 1, .rw, fun _ _ => some (Reg.TWN_CTRL_enable), .any, false⟩,
  ⟨fun _ _ => Reg.TWN_CTRL_rct_ports, 0x140000, 0x1, 1, 0x1, 1, .rw, fun _ _ => none, .any, false⟩,
  ⟨fun _ _ => Reg.TWN_STATUS_state, 0x140004, 0x1, 1, 0x1, 1, .ro, fun _ _ => none, .any, false⟩,
  ⟨fun _ _ => Reg.TWN_STATUS_pair_ok, 0x140004, 0x1, 1, 0x1, 1, .ro, fun _ _ => none, .any, false⟩,
  ⟨fun _ _ => Reg.TWN_STATUS_eth_ok, 0x140004, 0x1, 1, 0x1, 1, .ro, fun _ _ => none, .any, false⟩,
  ⟨fun _ _ => Reg.TWN_STATUS_link_up, 0x140004, 0x1, 1, 0x1, 1, .ro, fun _ _ => none, .any, false⟩,
  ⟨fun _ _ => Reg.TWN_STATUS_need_eth, 0x140004, 0x1, 1, 0x1, 1, .ro, fun _ _ => none, .any, false⟩,
  ⟨fun _ _ => Reg.TWN_STATUS_split, 0x140004, 0x1, 1, 0x1, 1, .ro, fun _ _ => none, .any, false⟩,
  ⟨fun _ _ => Reg.TWN_HB_CFG_hb_miss, 0x140008, 0x1, 1, 0x1, 1, .rw, fun _ _ => none, .any, true⟩,
  ⟨fun _ _ => Reg.TWN_HB_CFG_pair_tol_us, 0x140008, 0x1, 1, 0x1, 1, .rw, fun _ _ => none, .any, true⟩,
  ⟨fun _ _ => Reg.TWN_HB_CFG_eth_period_ms, 0x140008, 0x1, 1, 0x1, 1, .rw, fun _ _ => none, .any, true⟩,
  ⟨fun _ _ => Reg.TWN_HB_CFG_eth_tol_ms, 0x140008, 0x1, 1, 0x1, 1, .rw, fun _ _ => none, .any, true⟩,
  ⟨fun _ _ => Reg.TWN_HB_CFG2_rejoin_ms, 0x14000c, 0x1, 1, 0x1, 1, .rw, fun _ _ => none, .any, false⟩,
  ⟨fun _ _ => Reg.TWN_HB_CFG2_split_cycles, 0x14000c, 0x1, 1, 0x1, 1, .rw, fun _ _ => none, .any, false⟩,
  ⟨fun _ _ => Reg.TWN_ETYPE_etype, 0x140010, 0x1, 1, 0x1, 1, .rw, fun _ _ => some (Reg.TWN_CTRL_enable), .any, false⟩,
  ⟨fun _ _ => Reg.TWN_PART_MAC_LO_mac_lo, 0x140014, 0x1, 1, 0x1, 1, .rw, fun _ _ => none, .any, false⟩,
  ⟨fun _ _ => Reg.TWN_PART_MAC_HI_mac_hi, 0x140018, 0x1, 1, 0x1, 1, .rw, fun _ _ => none, .any, false⟩,
  ⟨fun _ _ => Reg.TWN_SRC_MAC_LO_mac_lo, 0x14001c, 0x1, 1, 0x1, 1, .rw, fun _ _ => none, .any, false⟩,
  ⟨fun _ _ => Reg.TWN_SRC_MAC_HI_mac_hi, 0x140020, 0x1, 1, 0x1, 1, .rw, fun _ _ => none, .any, false⟩,
  ⟨fun _ _ => Reg.TWN_AIR_CFG_dup_svc, 0x140024, 0x1, 1, 0x1, 1, .rw, fun _ _ => none, .any, false⟩,
  ⟨fun _ _ => Reg.TWN_HOST_host_svc, 0x140028, 0x1, 1, 0x1, 1, .rw, fun _ _ => none, .any, false⟩,
  ⟨fun _ _ => Reg.TWN_PART_STAT_part_epoch, 0x14002c, 0x1, 1, 0x1, 1, .ro, fun _ _ => none, .any, false⟩,
  ⟨fun _ _ => Reg.TWN_PART_STAT_part_state, 0x14002c, 0x1, 1, 0x1, 1, .ro, fun _ _ => none, .any, false⟩,
  ⟨fun _ _ => Reg.TWN_EPOCH_epoch, 0x140030, 0x1, 1, 0x1, 1, .ro, fun _ _ => none, .any, false⟩]

def crnRows : List Row := [
  ⟨fun _ _ => Reg.CRN_CTRL_force_unpaired, 0x150000, 0x1, 1, 0x1, 1, .rw, fun _ _ => none, .any, false⟩,
  ⟨fun _ _ => Reg.CRN_CTRL_trial_max, 0x150000, 0x1, 1, 0x1, 1, .rw, fun _ _ => none, .any, false⟩,
  ⟨fun _ _ => Reg.CRN_STATUS_state, 0x150004, 0x1, 1, 0x1, 1, .ro, fun _ _ => none, .any, false⟩,
  ⟨fun _ _ => Reg.CRN_STATUS_busy, 0x150004, 0x1, 1, 0x1, 1, .ro, fun _ _ => none, .any, false⟩,
  ⟨fun _ _ => Reg.CRN_STATUS_recovery, 0x150004, 0x1, 1, 0x1, 1, .ro, fun _ _ => none, .any, false⟩,
  ⟨fun _ _ => Reg.CRN_STATUS_rec_reason, 0x150004, 0x1, 1, 0x1, 1, .ro, fun _ _ => none, .any, false⟩,
  ⟨fun _ _ => Reg.CRN_STATUS_result, 0x150004, 0x1, 1, 0x1, 1, .ro, fun _ _ => none, .any, false⟩,
  ⟨fun _ _ => Reg.CRN_STATUS_staged_comp, 0x150004, 0x1, 1, 0x1, 1, .ro, fun _ _ => none, .any, false⟩,
  ⟨fun _ _ => Reg.CRN_STATUS_handed_over, 0x150004, 0x1, 1, 0x1, 1, .ro, fun _ _ => none, .any, false⟩,
  ⟨fun _ _ => Reg.CRN_CMD_op, 0x150008, 0x1, 1, 0x1, 1, .wo, fun _ _ => none, .any, false⟩,
  ⟨fun _ _ => Reg.CRN_CMD_comp, 0x150008, 0x1, 1, 0x1, 1, .rw, fun _ _ => none, .any, false⟩,
  ⟨fun _ _ => Reg.CRN_SRC_LO_src, 0x15000c, 0x1, 1, 0x1, 1, .rw, fun _ _ => none, .any, false⟩,
  ⟨fun _ _ => Reg.CRN_SRC_HI_src, 0x150010, 0x1, 1, 0x1, 1, .rw, fun _ _ => none, .any, false⟩,
  ⟨fun _ _ => Reg.CRN_SRC_LEN_src_len, 0x150014, 0x1, 1, 0x1, 1, .rw, fun _ _ => none, .any, false⟩,
  ⟨fun _ _ => Reg.CRN_SRC_LEN_space, 0x150014, 0x1, 1, 0x1, 1, .rw, fun _ _ => none, .any, false⟩,
  ⟨fun _ _ => Reg.CRN_STAGE_LO_stage, 0x150018, 0x1, 1, 0x1, 1, .rw, fun _ _ => none, .any, false⟩,
  ⟨fun _ _ => Reg.CRN_STAGE_HI_stage, 0x15001c, 0x1, 1, 0x1, 1, .rw, fun _ _ => none, .any, false⟩,
  ⟨fun _ _ => Reg.CRN_RB_rb_fuse, 0x150020, 0x1, 1, 0x1, 1, .ro, fun _ _ => none, .any, false⟩,
  ⟨fun _ _ => Reg.CRN_PROG_done, 0x150024, 0x1, 1, 0x1, 1, .ro, fun _ _ => none, .any, false⟩,
  ⟨fun i _ => Reg.CRN_REC_rstate i, 0x150040, 0x8, 3, 0x1, 1, .ro, fun _ _ => none, .any, false⟩,
  ⟨fun i _ => Reg.CRN_REC_trial_count i, 0x150040, 0x8, 3, 0x1, 1, .ro, fun _ _ => none, .any, false⟩,
  ⟨fun i _ => Reg.CRN_REC_rollback i, 0x150040, 0x8, 3, 0x1, 1, .ro, fun _ _ => none, .any, false⟩,
  ⟨fun i _ => Reg.CRN_VER_version i, 0x150044, 0x8, 3, 0x1, 1, .ro, fun _ _ => none, .any, false⟩,
  ⟨fun _ _ => Reg.CRN_SET_FMT_fmt0, 0x150070, 0x1, 1, 0x1, 1, .ro, fun _ _ => none, .any, false⟩,
  ⟨fun _ _ => Reg.CRN_SET_FMT_fmt1, 0x150070, 0x1, 1, 0x1, 1, .ro, fun _ _ => none, .any, false⟩,
  ⟨fun _ _ => Reg.CRN_SET_CTL_active, 0x150074, 0x1, 1, 0x1, 1, .ro, fun _ _ => none, .any, false⟩,
  ⟨fun _ _ => Reg.CRN_SET_CTL_dual, 0x150074, 0x1, 1, 0x1, 1, .ro, fun _ _ => none, .any, false⟩,
  ⟨fun i _ => Reg.CRN_KEYHASH_word i, 0x150080, 0x4, 8, 0x1, 1, .rw, fun _ _ => none, .any, false⟩]

def chrRows0 : List Row := [
  ⟨fun _ _ => Reg.CHR_CTRL_freeze, 0x160000, 0x1, 1, 0x1, 1, .rw, fun _ _ => none, .any, false⟩,
  ⟨fun _ _ => Reg.CHR_CTRL_sample_secure, 0x160000, 0x1, 1, 0x1, 1, .own, fun _ _ => none, .any, false⟩,
  ⟨fun _ _ => Reg.CHR_TAG_CFG_ingress_mask, 0x160100, 0x1, 1, 0x1, 1, .rw, fun _ _ => none, .any, false⟩,
  ⟨fun _ _ => Reg.CHR_TAG_CFG_rate_log2, 0x160100, 0x1, 1, 0x1, 1, .rw, fun _ _ => none, .any, false⟩,
  ⟨fun _ _ => Reg.CHR_TAG_CFG_wmark, 0x160100, 0x1, 1, 0x1, 1, .rw, fun _ _ => none, .any, false⟩,
  ⟨fun _ _ => Reg.CHR_TAG_STAT_level, 0x160104, 0x1, 1, 0x1, 1, .ro, fun _ _ => none, .any, false⟩,
  ⟨fun _ _ => Reg.CHR_TAG_STAT_active, 0x160104, 0x1, 1, 0x1, 1, .ro, fun _ _ => none, .any, false⟩,
  ⟨fun _ _ => Reg.CHR_TREC_POP_pop, 0x160108, 0x1, 1, 0x1, 1, .wo, fun _ _ => none, .any, false⟩,
  ⟨fun i _ => Reg.CHR_TREC_word i, 0x160110, 0x4, 10, 0x1, 1, .ro, fun _ _ => none, .any, false⟩,
  ⟨fun i _ => Reg.CHR_IS_CFG_en i, 0x160200, 0x40, 4, 0x1, 1, .rw, fun _ _ => none, .any, false⟩,
  ⟨fun i _ => Reg.CHR_IS_CFG_ipd i, 0x160200, 0x40, 4, 0x1, 1, .rw, fun _ _ => none, .any, false⟩,
  ⟨fun i _ => Reg.CHR_IS_CFG_jitter_log2 i, 0x160200, 0x40, 4, 0x1, 1, .rw, fun _ _ => none, .any, false⟩,
  ⟨fun i _ => Reg.CHR_IS_CFG_wmark i, 0x160200, 0x40, 4, 0x1, 1, .rw, fun _ _ => none, .any, false⟩,
  ⟨fun i _ => Reg.CHR_IS_STAT_level i, 0x160204, 0x40, 4, 0x1, 1, .ro, fun _ _ => none, .any, false⟩,
  ⟨fun i _ => Reg.CHR_IS_STAT_pop i, 0x160204, 0x40, 4, 0x1, 1, .wo, fun _ _ => none, .any, false⟩,
  ⟨fun i _ => Reg.CHR_IS_PC_LO_pc i, 0x160208, 0x40, 4, 0x1, 1, .ro, fun _ _ => none, .any, false⟩,
  ⟨fun i _ => Reg.CHR_IS_PC_HI_pc i, 0x16020c, 0x40, 4, 0x1, 1, .ro, fun _ _ => none, .any, false⟩,
  ⟨fun i _ => Reg.CHR_IS_INFO_latency i, 0x160210, 0x40, 4, 0x1, 1, .ro, fun _ _ => none, .any, false⟩,
  ⟨fun i _ => Reg.CHR_IS_INFO_flags i, 0x160210, 0x40, 4, 0x1, 1, .ro, fun _ _ => none, .any, false⟩,
  ⟨fun i _ => Reg.CHR_IS_INFO_secure i, 0x160210, 0x40, 4, 0x1, 1, .ro, fun _ _ => none, .any, false⟩,
  ⟨fun i _ => Reg.CHR_CNT_CFG_en i, 0x160400, 0x4, 64, 0x1, 1, .own, fun _ _ => none, .any, false⟩,
  ⟨fun i _ => Reg.CHR_CNT_CFG_mode i, 0x160400, 0x4, 64, 0x1, 1, .rw, fun i _ => some (Reg.CHR_CNT_CFG_en i), .any, false⟩,
  ⟨fun i _ => Reg.CHR_CNT_CFG_epoch_sync i, 0x160400, 0x4, 64, 0x1, 1, .rw, fun _ _ => none, .any, true⟩,
  ⟨fun i _ => Reg.CHR_CNT_CFG_ovf i, 0x160400, 0x4, 64, 0x1, 1, .w1c, fun _ _ => none, .any, false⟩,
  ⟨fun i _ => Reg.CHR_CNT_CFG_ovf_ev i, 0x160400, 0x4, 64, 0x1, 1, .rw, fun _ _ => none, .any, false⟩,
  ⟨fun i _ => Reg.CHR_CNT_CFG_kind i, 0x160400, 0x4, 64, 0x1, 1, .rw, fun i _ => some (Reg.CHR_CNT_CFG_en i), .any, false⟩,
  ⟨fun i _ => Reg.CHR_CNT_CFG_thr i, 0x160400, 0x4, 64, 0x1, 1, .rw, fun i _ => some (Reg.CHR_CNT_CFG_en i), .any, false⟩,
  ⟨fun i _ => Reg.CHR_CNT_SRC_src i, 0x160500, 0x4, 64, 0x1, 1, .rw, fun i _ => some (Reg.CHR_CNT_CFG_en i), .any, false⟩,
  ⟨fun i _ => Reg.CHR_HIST_CFG_en i, 0x160600, 0x10, 16, 0x1, 1, .rw, fun _ _ => none, .any, false⟩,
  ⟨fun i _ => Reg.CHR_HIST_CFG_src i, 0x160600, 0x10, 16, 0x1, 1, .rw, fun i _ => some (Reg.CHR_HIST_CFG_en i), .any, false⟩,
  ⟨fun i _ => Reg.CHR_HIST_CFG_log_mode i, 0x160600, 0x10, 16, 0x1, 1, .rw, fun i _ => some (Reg.CHR_HIST_CFG_en i), .any, false⟩,
  ⟨fun i _ => Reg.CHR_HIST_CFG_epoch_sync i, 0x160600, 0x10, 16, 0x1, 1, .rw, fun _ _ => none, .any, true⟩,
  ⟨fun i _ => Reg.CHR_HIST_CFG_alarm_ev i, 0x160600, 0x10, 16, 0x1, 1, .rw, fun _ _ => none, .any, false⟩,
  ⟨fun i _ => Reg.CHR_HIST_SEL_start i, 0x160604, 0x10, 16, 0x1, 1, .rw, fun i _ => some (Reg.CHR_HIST_CFG_en i), .any, false⟩,
  ⟨fun i _ => Reg.CHR_HIST_SEL_end i, 0x160604, 0x10, 16, 0x1, 1, .rw, fun i _ => some (Reg.CHR_HIST_CFG_en i), .any, false⟩,
  ⟨fun i _ => Reg.CHR_HIST_SEL_ingress_mask i, 0x160604, 0x10, 16, 0x1, 1, .rw, fun i _ => some (Reg.CHR_HIST_CFG_en i), .any, false⟩,
  ⟨fun i _ => Reg.CHR_HIST_SEL_dir i, 0x160604, 0x10, 16, 0x1, 1, .rw, fun i _ => some (Reg.CHR_HIST_CFG_en i), .any, false⟩,
  ⟨fun i _ => Reg.CHR_HIST_SEL_cnt i, 0x160604, 0x10, 16, 0x1, 1, .rw, fun i _ => some (Reg.CHR_HIST_CFG_en i), .any, false⟩,
  ⟨fun i _ => Reg.CHR_HIST_SEL_core i, 0x160604, 0x10, 16, 0x1, 1, .rw, fun i _ => some (Reg.CHR_HIST_CFG_en i), .any, false⟩,
  ⟨fun i _ => Reg.CHR_HIST_BIN_base i, 0x160608, 0x10, 16, 0x1, 1, .rw, fun i _ => some (Reg.CHR_HIST_CFG_en i), .any, false⟩]

def chrRows1 : List Row := [
  ⟨fun i _ => Reg.CHR_HIST_BIN_shift i, 0x160608, 0x10, 16, 0x1, 1, .rw, fun i _ => some (Reg.CHR_HIST_CFG_en i), .any, false⟩,
  ⟨fun i _ => Reg.CHR_HIST_STAT_sat i, 0x16060c, 0x10, 16, 0x1, 1, .w1c, fun _ _ => none, .any, false⟩,
  ⟨fun i _ => Reg.CHR_HIST_STAT_alarm i, 0x16060c, 0x10, 16, 0x1, 1, .w1c, fun _ _ => none, .any, false⟩,
  ⟨fun i _ => Reg.CHR_HIST_STAT_alarm_bin i, 0x16060c, 0x10, 16, 0x1, 1, .rw, fun _ _ => none, .any, false⟩]

def chrRows : List Row := chrRows0 ++ chrRows1

/-- The rows of the block whose 64 KiB hold offset `off` (R33). -/
def blockRows (off : Nat) : List Row :=
  match off / 0x10000 with
  | 0 => glbRows
  | 1 => pwrRows
  | 2 => balRows
  | 3 => rfxRows
  | 4 => rfxRows
  | 5 => txcRows
  | 6 => sicRows
  | 7 => chzRows
  | 8 => phyRows
  | 9 => amcRows
  | 10 => slpRows
  | 11 => escRows
  | 12 => fwdRows
  | 13 => ctxRows
  | 14 => jwlRows
  | 15 => hifRows
  | 16 => evtRows
  | 17 => mbxRows
  | 18 => ethRows
  | 19 => ethRows
  | 20 => twnRows
  | 21 => crnRows
  | 22 => chrRows
  | _ => []

/-- The statistics counters (R70): offset of the first, and up to two array dimensions. -/
def counterRows : List (Nat × Nat × Nat × Nat × Nat) := [
  (0x50140, 0x100, 4, 0x1, 1),
  (0x50144, 0x100, 4, 0x1, 1),
  (0x50148, 0x100, 4, 0x1, 1),
  (0x5014c, 0x100, 4, 0x1, 1),
  (0x50150, 0x100, 4, 0x1, 1),
  (0x50154, 0x100, 4, 0x1, 1),
  (0x50158, 0x100, 4, 0x1, 1),
  (0x5015c, 0x100, 4, 0x1, 1),
  (0x50160, 0x100, 4, 0x1, 1),
  (0x60140, 0x100, 4, 0x1, 1),
  (0x60144, 0x100, 4, 0x1, 1),
  (0x60148, 0x100, 4, 0x1, 1),
  (0x6014c, 0x100, 4, 0x1, 1),
  (0x60150, 0x100, 4, 0x1, 1),
  (0x60154, 0x100, 4, 0x1, 1),
  (0x60158, 0x100, 4, 0x1, 1),
  (0x6015c, 0x100, 4, 0x1, 1),
  (0x71020, 0x80, 128, 0x1, 1),
  (0x71024, 0x80, 128, 0x1, 1),
  (0x71028, 0x80, 128, 0x1, 1),
  (0x7102c, 0x80, 128, 0x1, 1),
  (0x71030, 0x80, 128, 0x1, 1),
  (0x71034, 0x80, 128, 0x1, 1),
  (0x71038, 0x80, 128, 0x1, 1),
  (0x7103c, 0x80, 128, 0x1, 1),
  (0x71040, 0x80, 128, 0x1, 1),
  (0x71044, 0x80, 128, 0x1, 1),
  (0x80040, 0x1, 1, 0x1, 1),
  (0x80044, 0x1, 1, 0x1, 1),
  (0x80048, 0x1, 1, 0x1, 1),
  (0x8004c, 0x1, 1, 0x1, 1),
  (0x90100, 0x1, 1, 0x1, 1),
  (0x90104, 0x1, 1, 0x1, 1),
  (0x90108, 0x1, 1, 0x1, 1),
  (0x9010c, 0x1, 1, 0x1, 1),
  (0x90110, 0x1, 1, 0x1, 1),
  (0x90114, 0x1, 1, 0x1, 1),
  (0x90118, 0x1, 1, 0x1, 1),
  (0x9011c, 0x1, 1, 0x1, 1),
  (0x90120, 0x1, 1, 0x1, 1),
  (0x90124, 0x1, 1, 0x1, 1),
  (0x90128, 0x1, 1, 0x1, 1),
  (0x9012c, 0x1, 1, 0x1, 1),
  (0x90130, 0x1, 1, 0x1, 1),
  (0x90134, 0x1, 1, 0x1, 1),
  (0x90138, 0x1, 1, 0x1, 1),
  (0x9013c, 0x1, 1, 0x1, 1),
  (0x90140, 0x1, 1, 0x1, 1),
  (0x90144, 0x1, 1, 0x1, 1),
  (0x90148, 0x1, 1, 0x1, 1),
  (0x9014c, 0x1, 1, 0x1, 1),
  (0x90150, 0x1, 1, 0x1, 1),
  (0x90154, 0x1, 1, 0x1, 1),
  (0x90158, 0x1, 1, 0x1, 1),
  (0x9015c, 0x1, 1, 0x1, 1),
  (0x90160, 0x1, 1, 0x1, 1),
  (0x90164, 0x1, 1, 0x1, 1),
  (0x90168, 0x1, 1, 0x1, 1),
  (0x9016c, 0x1, 1, 0x1, 1),
  (0x90170, 0x1, 1, 0x1, 1),
  (0x90174, 0x1, 1, 0x1, 1),
  (0x90178, 0x1, 1, 0x1, 1),
  (0xa0040, 0x1, 1, 0x1, 1),
  (0xa0044, 0x1, 1, 0x1, 1),
  (0xa0048, 0x1, 1, 0x1, 1),
  (0xa004c, 0x1, 1, 0x1, 1),
  (0xa0050, 0x1, 1, 0x1, 1),
  (0xa0054, 0x1, 1, 0x1, 1),
  (0xa0058, 0x1, 1, 0x1, 1),
  (0xa005c, 0x1, 1, 0x1, 1),
  (0xa0060, 0x1, 1, 0x1, 1),
  (0xa0064, 0x1, 1, 0x1, 1),
  (0xa0068, 0x1, 1, 0x1, 1),
  (0xb0200, 0x1, 1, 0x1, 1),
  (0xb0204, 0x1, 1, 0x1, 1),
  (0xb0208, 0x1, 1, 0x1, 1),
  (0xb020c, 0x1, 1, 0x1, 1),
  (0xb0210, 0x1, 1, 0x1, 1),
  (0xb0214, 0x1, 1, 0x1, 1),
  (0xb0218, 0x1, 1, 0x1, 1),
  (0xb021c, 0x1, 1, 0x1, 1),
  (0xb0220, 0x1, 1, 0x1, 1),
  (0xb0224, 0x1, 1, 0x1, 1),
  (0xb0228, 0x1, 1, 0x1, 1),
  (0xb022c, 0x1, 1, 0x1, 1),
  (0xb0230, 0x1, 1, 0x1, 1),
  (0xb0234, 0x1, 1, 0x1, 1),
  (0xb0238, 0x1, 1, 0x1, 1),
  (0xc0400, 0x1, 1, 0x1, 1),
  (0xc0404, 0x1, 1, 0x1, 1),
  (0xc0408, 0x1, 1, 0x1, 1),
  (0xc040c, 0x1, 1, 0x1, 1),
  (0xc0410, 0x1, 1, 0x1, 1),
  (0xc0414, 0x1, 1, 0x1, 1),
  (0xc0418, 0x1, 1, 0x1, 1),
  (0xc041c, 0x1, 1, 0x1, 1),
  (0xc0420, 0x1, 1, 0x1, 1),
  (0xc0424, 0x1, 1, 0x1, 1),
  (0xc0428, 0x1, 1, 0x1, 1),
  (0xc042c, 0x1, 1, 0x1, 1),
  (0xc0430, 0x1, 1, 0x1, 1),
  (0xc0434, 0x1, 1, 0x1, 1),
  (0xc0438, 0x1, 1, 0x1, 1),
  (0xc043c, 0x1, 1, 0x1, 1),
  (0xc0440, 0x1, 1, 0x1, 1),
  (0xc0444, 0x1, 1, 0x1, 1),
  (0xc0448, 0x1, 1, 0x1, 1),
  (0xc044c, 0x1, 1, 0x1, 1),
  (0xc0450, 0x1, 1, 0x1, 1),
  (0xd0300, 0x1, 1, 0x1, 1),
  (0xd0304, 0x1, 1, 0x1, 1),
  (0xd0308, 0x1, 1, 0x1, 1),
  (0xd030c, 0x1, 1, 0x1, 1),
  (0xd0310, 0x1, 1, 0x1, 1),
  (0xd0314, 0x1, 1, 0x1, 1),
  (0xd0318, 0x1, 1, 0x1, 1),
  (0xe0400, 0x1, 1, 0x1, 1),
  (0xe0404, 0x1, 1, 0x1, 1),
  (0xe0408, 0x1, 1, 0x1, 1),
  (0xe040c, 0x1, 1, 0x1, 1),
  (0xe0410, 0x1, 1, 0x1, 1),
  (0xe0414, 0x1, 1, 0x1, 1),
  (0xe0418, 0x1, 1, 0x1, 1),
  (0xe041c, 0x1, 1, 0x1, 1),
  (0xe0420, 0x1, 1, 0x1, 1),
  (0xe0424, 0x1, 1, 0x1, 1),
  (0xe0428, 0x1, 1, 0x1, 1),
  (0xf0600, 0x1, 1, 0x1, 1),
  (0xf0604, 0x1, 1, 0x1, 1),
  (0xf0608, 0x1, 1, 0x1, 1),
  (0xf060c, 0x1, 1, 0x1, 1),
  (0xf0610, 0x1, 1, 0x1, 1),
  (0xf0614, 0x1, 1, 0x1, 1),
  (0xf0618, 0x1, 1, 0x1, 1),
  (0xf061c, 0x1, 1, 0x1, 1),
  (0x110600, 0x1, 1, 0x1, 1),
  (0x110604, 0x1, 1, 0x1, 1),
  (0x110608, 0x1, 1, 0x1, 1),
  (0x11060c, 0x1, 1, 0x1, 1),
  (0x110610, 0x1, 1, 0x1, 1),
  (0x120400, 0x10000, 2, 0x1, 1),
  (0x120404, 0x10000, 2, 0x1, 1),
  (0x120408, 0x10000, 2, 0x1, 1),
  (0x12040c, 0x10000, 2, 0x1, 1),
  (0x120410, 0x10000, 2, 0x1, 1),
  (0x120414, 0x10000, 2, 0x1, 1),
  (0x120418, 0x10000, 2, 0x1, 1),
  (0x12041c, 0x10000, 2, 0x1, 1),
  (0x120420, 0x10000, 2, 0x1, 1),
  (0x120424, 0x10000, 2, 0x1, 1),
  (0x120428, 0x10000, 2, 0x1, 1),
  (0x12042c, 0x10000, 2, 0x1, 1),
  (0x120430, 0x10000, 2, 0x1, 1),
  (0x120434, 0x10000, 2, 0x1, 1),
  (0x140100, 0x1, 1, 0x1, 1),
  (0x140104, 0x1, 1, 0x1, 1),
  (0x140108, 0x1, 1, 0x1, 1),
  (0x14010c, 0x1, 1, 0x1, 1),
  (0x140110, 0x1, 1, 0x1, 1),
  (0x140114, 0x1, 1, 0x1, 1),
  (0x140118, 0x1, 1, 0x1, 1),
  (0x14011c, 0x1, 1, 0x1, 1),
  (0x140120, 0x1, 1, 0x1, 1),
  (0x140124, 0x1, 1, 0x1, 1),
  (0x140128, 0x1, 1, 0x1, 1),
  (0x150100, 0x1, 1, 0x1, 1),
  (0x150104, 0x1, 1, 0x1, 1),
  (0x150108, 0x1, 1, 0x1, 1),
  (0x15010c, 0x1, 1, 0x1, 1),
  (0x160080, 0x1, 1, 0x1, 1),
  (0x160084, 0x1, 1, 0x1, 1),
  (0x160088, 0x1, 1, 0x1, 1),
  (0x16008c, 0x1, 1, 0x1, 1),
  (0x10100, 0x1, 1, 0x1, 1),
  (0x10104, 0x1, 1, 0x1, 1),
  (0x10108, 0x1, 1, 0x1, 1),
  (0x1010c, 0x1, 1, 0x1, 1),
  (0x10110, 0x1, 1, 0x1, 1),
  (0x10114, 0x1, 1, 0x1, 1),
  (0x20380, 0x1, 1, 0x1, 1),
  (0x20384, 0x1, 1, 0x1, 1),
  (0x20388, 0x1, 1, 0x1, 1),
  (0x2038c, 0x1, 1, 0x1, 1),
  (0x20390, 0x1, 1, 0x1, 1),
  (0x20394, 0x1, 1, 0x1, 1),
  (0x20340, 0x4, 6, 0x1, 1),
  (0x30040, 0x10000, 2, 0x1, 1),
  (0x30044, 0x10000, 2, 0x1, 1),
  (0x30048, 0x10000, 2, 0x1, 1),
  (0x3004c, 0x10000, 2, 0x1, 1),
  (0x30050, 0x10000, 2, 0x1, 1),
  (0x100040, 0x1, 1, 0x1, 1),
  (0x100044, 0x1, 1, 0x1, 1),
  (0x50040, 0x1, 1, 0x1, 1),
  (0x50044, 0x1, 1, 0x1, 1)]

end Sys2Proof.Machine
end

