-- ==== Sys2Proof/Machine/State.lean ====
section
/-! DEFINITION. The state of the KZ8128 as plain data: the registers as a sparse map from field to value, the
statistics counters, and the hidden state of every block. -/

namespace Sys2Proof.Machine

/-- A sparse table: key and entry, keys strictly rising. -/
abbrev Tab (α : Type) := List (Nat × α)

/-- A half-sine pulse of the long-reach modulator (R161): on Q or on I, its start in units of 5 µs from the first one, its
sign. -/
structure Pulse where
  onQ      : Bool
  start    : Nat
  positive : Bool
deriving DecidableEq, Repr

/-- An MR-FSK frame on the air (R166): its tones, ±1 with 2-FSK and ±1, ±3 with 4-FSK, in units of `unit` Hz, and with
Gaussian pulses their BT in hundredths. -/
structure FskWave where
  tones : List Int
  unit  : Nat
  bt    : Option Nat
deriving DecidableEq, Repr

/-- One PHY frame as the modulator takes it (R159-R166): the synchronisation header, the PHR and the PSDU, each in the
symbols of its family: 4-bit symbols (families 0, 2), bits (1, 3, 4; coded where the profile asks for it), for the header
of family 3 its STF (0) and LTF (1) symbols; the pulses of a long-reach frame; and the tones of an MR-FSK frame. -/
structure AirSignal where
  shr    : List Nat
  phr    : List Nat
  psdu   : List Nat
  pulses : List Pulse := []
  tones  : Option FskWave := none
deriving DecidableEq, Repr

/-- What leaves the part: the outputs of the last command (log 5). -/
inductive Output
  /-- a memory write by HIF into the ring owner's address space (0 PCIe, 1 control cluster) -/
  | memWrite (owner addr : Nat) (octets : List Byte)
  /-- an MSI-X message, with the address and data of its table entry (R320, R339) -/
  | msix (vector addr data : Nat)
  /-- a cluster interrupt line delivered to the cores of the mask (R358) -/
  | clusterLine (line cores : Nat)
  /-- the first symbol of a transmission leaves the chain: profile, PSDU, and its frames as the modulator takes them -/
  | airTx (chain : Nat) (freq profile : Nat) (power : Int) (psdu : List Byte) (frames : List AirSignal)
  /-- a gain-step marker reaches every lane of the band: the measured change in 0.01 dB (R78) -/
  | marker (band : Nat) (change : Int)
  /-- an Ethernet frame, with its FCS, was sent on a port (4 or 5) -/
  | ethTx (port : Nat) (octets : List Byte)
  /-- a frame goes to the twin link: kind (R384), and of a forwarded air frame its profile, RSSI, LQI and grid angle -/
  | twinTx (kind profile : Nat) (rssi : Int) (lqi angle : Nat) (octets : List Byte)
  /-- credits go back to the twin partner (R384) -/
  | twinCredit (n : Nat)
  /-- a heartbeat word on TWIN_HBO -/
  | pairBeat (word : Nat)
  /-- a port (4 or 5) advertises full duplex and its pause abilities: receiving and sending (R361) -/
  | advert (port : Nat) (pauseRx pauseTx : Bool)
  /-- the content of a Kazong IE that goes to the host unchanged, of a frame that goes on as a packet (R191, log 131) -/
  | hostIe (content : List Byte)
  /-- the recovery runtime asks the twin partner for an image (R406) -/
  | imageRequest
  /-- the core starts, stops or is reset by PWR -/
  | coreStart (core : Nat)
deriving DecidableEq, Repr

/-- The completion of the last bus access (log 5). -/
inductive Resp
  | none
  | ok
  | value (w : Word)
  /-- a 64-bit read of a doorbell (R326) -/
  | value64 (lo hi : Word)
  /-- R5 -/
  | unsupportedRequest
  /-- R355, on the core bus -/
  | busError
  /-- R355, a HOST read -/
  | completerAbort
  /-- R355, a HOST write -/
  | discarded
deriving DecidableEq, Repr

/-- The holder of a claimable resource (R37, R436). -/
structure Holder where
  fw : Bool
  id : Nat
deriving DecidableEq, Repr

/-- The sampled straps (R427). -/
structure Straps where
  boot    : BitVec 2 := 0
  region  : BitVec 2 := 0
  twin    : BitVec 2 := 0
  host    : Bool := false
  gridf   : Bool := false
  refclk  : Bool := false
deriving DecidableEq, Repr

/-- Fuses that commands change: life-cycle state (R303), signer hash 1 and the anti-rollback counter (R394, R402). -/
structure Fuses where
  lcState : Nat := 0
  signer1 : Option (List Byte) := none
  rollback : Nat := 0
deriving DecidableEq, Repr

/-- The digital output balls (R441). -/
inductive Ball
  | tto (n : Nat)
  | ppsOut
  | paen (chain : Nat)
  | sw (chain : Nat)
  | twinHbo
  | qspiClk
  | qspiCsN
  | ddrResetN
  | jtagTdo
deriving DecidableEq, Repr

/-- One modelled mains cycle (R44): its count, start LTB and length in ns. -/
structure Cycle where
  k   : Nat
  s   : Int
  len : Int
deriving DecidableEq, Repr

/-- The mapping between LTB and grid angle (R43, R44, R53, R57): the current cycle and up to 15 before it, newest first; a
stall in force as its end, the angle held and its length; the angle never reported below; site_phase. -/
structure Mapping where
  cycles : List Cycle := []
  stall  : Option (Nat × Nat × Nat) := none
  floor  : Nat := 0
  site   : Nat := 0
deriving DecidableEq, Repr

/-- A time trigger's committed target and its fixing (R45, R65); `conv`: its enable took the GRID_AIN converter (R40). -/
structure TtState where
  target    : Nat := 0
  committed : Bool := false
  fixed     : Option Nat := none
  late      : Bool := false
  pulseEnd  : Option Nat := none
  conv      : Bool := false
deriving DecidableEq, Repr

/-- An entry of a capture FIFO (R67). -/
structure Capture where
  ltb    : Nat
  angle  : Nat
  rising : Bool
deriving DecidableEq, Repr

/-- A report in a timestamp FIFO (R64): what it belongs to, and its values. -/
structure TsReport where
  ref  : Nat
  ltb  : Nat
  ext  : Nat
  ns   : Nat
deriving DecidableEq, Repr

/-- Hidden state of the Balance (chapter 02). Periods are in 1/128 ns. -/
structure Bal where
  /-- the current cycle and up to 15 before it, newest first (R44) -/
  cycles     : List Cycle := []
  /-- length already found for the cycle that has not begun (R49) -/
  nextLen    : Option Int := none
  p          : Int := 2560000000
  pavg       : Int := 2560000000
  enabledAt  : Nat := 0
  /-- the angle never reported below this one (R43, R49) -/
  floor      : Nat := 0
  /-- mappings that were current before the LTB beside each, newest first (R32) -/
  before     : List (Nat × Mapping) := []
  /-- cycle count whose start had its accepted crossing, and whose miss is already counted -/
  accepted   : Option Nat := none
  missed     : Option Nat := none
  miss       : Nat := 0
  /-- cycle whose start had a GRID_AIN crossing within the window; whether every missed cycle had one (R48) -/
  ainSeen    : Option Nat := none
  ainAll     : Bool := true
  autoSwitch : Bool := false
  zcGood     : Nat := 0
  /-- the consistent sets, newest first (R52) -/
  setZc      : List Int := []
  setAin     : List Int := []
  /-- the previous accepted crossing of each input (R50) -/
  lastZc     : Option Int := none
  lastAin    : Option Int := none
  rangeBad   : Nat := 0
  /-- cycles that the holdover lasts, from the last cycle start with an accepted crossing (R56) -/
  holdCycles : Nat := 0
  /-- error still to slew, ns (R53) -/
  slew       : Int := 0
  /-- decided step (amount < 0) or stall (amount > 0) with the LTB at which it begins (R53) -/
  decision   : Option (Nat × Int) := none
  /-- stall in force: its end, the angle held, its length (R53) -/
  stall      : Option (Nat × Nat × Nat) := none
  /-- steering samples of the current cycle (R55) -/
  steer      : List Int := []
  cycForce   : Bool := false
  cycPend    : Bool := false
  /-- an epoch boundary waits: latched by a step or a load (R54, R56), or fixed for an LTB with its cycle count (R45) -/
  epochLatch : Bool := false
  epochFixed : Option (Nat × Nat) := none
  /-- cycle count of the last epoch boundary, or of the enable (R51, R70) -/
  epochLast  : Nat := 0
  ptpSec     : Nat := 0
  ptpNs      : Nat := 0
  ptpLtb     : Nat := 0
  tt         : Tab TtState := []
  /-- converter burst running: its trigger, and its samples as of the firing (R65) -/
  burst      : Option (Nat × Nat) := none
  /-- committed comparator targets (R68) -/
  cmp        : Tab Nat := []
  tci        : Tab (List Capture) := []
  ppsInLast  : Option Nat := none
  ppsPulseEnd : Option Nat := none
  /-- PTP second of the last PPS_OUT pulse (R63) -/
  ppsSec     : Nat := 0
  /-- timestamp report FIFOs of TXA0, TXA1, TXB0, TXB1, ETH0, ETH1 (R64) -/
  tsf        : Tab (List TsReport) := []
  /-- ingress LTB of the last 32 Delay_Req per port, by sequenceId and sourcePortIdentity (R61) -/
  drq        : Tab (List ((Nat × Nat) × Nat)) := []
deriving DecidableEq, Repr

/-- Hidden state of a receiver (chapter 03). -/
structure Rx where
  epochStart   : Nat := 0
  lowEpochs    : Nat := 0
  /-- epochs ended since the epoch that held the last unscheduled step -/
  sinceUnsched : Nat := 255
  /-- this epoch holds an unscheduled step; the next one already does (R80); this epoch holds a ceiling, and all of it so
  far lies between a transmit step and the last release (R110) -/
  unschedNow   : Bool := false
  unschedNext  : Bool := false
  ceilNow      : Bool := false
  leakAll      : Bool := false
  lastUnsched  : Option Nat := none
  /-- a clipping episode without step is open (R77); an overload waits for its step -/
  episode      : Bool := false
  stepDue      : Bool := false
  calEnd       : Option Nat := none
  blankEnd     : Option Nat := none
  /-- the gain the receiver would hold without any ceiling (R109) -/
  gPre         : Nat := 0
  /-- ceiling of each chain of the band from its PREP to its release (R109) -/
  ceil         : Tab Nat := []
  ir           : List Nat := []
  /-- LTB at which each segment pair last carried a signal or was measured with the tone (R84) -/
  heard        : List Nat := []
  steps        : List Int := []
  tuneTemp     : Int := 0
  temp         : Int := 0
  irAt         : Nat := 0
  /-- LTB of the last step marker (R78, R133) -/
  marker       : Option Nat := none
deriving DecidableEq, Repr

/-- A calibration cache slot (R92): frequency, what its calibration found, calibration temperature (0.1 °C), power trim
(0.01 dB). -/
structure CacheSlot where
  freq    : Nat
  cal     : ChanCal := {}
  tempCal : Int := 0
  trim    : Int := 0
deriving DecidableEq, Repr

/-- A fill waiting or running: slot, frequency, whether TXC_CACHE_CMDn asked for it, consecutive preemptions, and
when it may be tried (R92-R94). -/
structure Fill where
  slot  : Nat
  freq  : Nat
  byCmd : Bool
  preempts : Nat := 0
  notBefore : Nat := 0
deriving DecidableEq, Repr

/-- Hidden state of a chain (chapter 03). -/
structure Chain where
  active   : Option TxCmd := none
  next     : Option TxCmd := none
  /-- commands that their issuers keep until a place frees (R88) -/
  waiting  : List TxCmd := []
  /-- grid-angle targets of commands not yet fixed: command and angle (R45) -/
  angles   : List (Nat × Nat) := []
  slots    : Tab CacheSlot := []
  fills    : List Fill := []
  cal      : Option (Fill × Nat) := none
  calEnd   : Option Nat := none
  /-- slot of an evict that waits for its command (R92) -/
  evict    : Option Nat := none
  /-- frequency of the hop in progress and its start; the frequency locked on and when -/
  hop      : Option (Nat × Nat) := none
  tuned    : Option Nat := none
  lockAt   : Nat := 0
  /-- the active command has begun its turnaround; the commands held in a hop, each counted once (R93) -/
  started  : Bool := false
  heldIds  : List Nat := []
  slot     : Nat := 0
  powerQ   : Int := 0
  /-- the driver code of the transmission (R96) -/
  code     : Int := 0
  rampUs   : Nat := 8
  rampLinear : Bool := false
  /-- LTB and grid angle of the first symbol (R32, R60) -/
  firstLtb : Option Nat := none
  firstAngle : Nat := 0
  lastLtb  : Option Nat := none
  aborted  : Bool := false
  /-- enable written 0: OFF follows the end of what runs -/
  disabling : Bool := false
  /-- ack_wait_extra as of the start of the transmission (R190) -/
  ackExtra : Nat := 0
deriving DecidableEq, Repr

/-- Hidden state of the coexistence interface (chapter 03). -/
structure Coex where
  reqSince   : Option Nat := none
  grantSince : Option Nat := none
  blocked    : Bool := false
deriving DecidableEq, Repr

/-- The SIC's entry for a chain and cache slot (R112): 8 complex analog taps, 24 complex digital coefficients. -/
structure SicEntry where
  taps    : List Cplx := []
  coefs   : List Cplx := []
  iso     : Option Nat := none
  ana     : Nat := 0
  dig     : Nat := 0
  trained : Bool := false
  seeded  : Bool := false
  below   : Nat := 0
deriving DecidableEq, Repr

/-- The SIC's working state of a transmission of a chain, from its PREP: ceiling_en as of its PREP (R111), and the LTB of
the last adaptation (R113). -/
structure SicTx where
  taps     : List Cplx := []
  coefs    : List Cplx := []
  ceil     : Bool := false
  adaptAt  : Nat := 0
  armed    : Bool := false
  frozen   : Bool := false
  declared : Bool := false
  stepped  : Bool := false
  budget   : Bool := false
deriving DecidableEq, Repr

/-- Hidden state of the SIC (chapter 04): entries by chain × 256 + slot. -/
structure Sic where
  entries : Tab SicEntry := []
  tx      : Tab SicTx := []
  /-- slot whose clear waits for RAMPDN, per chain -/
  clear   : Tab Nat := []
deriving DecidableEq, Repr

/-- A lane's assignment: band, centre in kHz, profile. -/
structure Assign where
  band    : Nat
  freq    : Nat
  profile : Nat
deriving DecidableEq, Repr

/-- What an MR-OFDM reception holds (R165): one complex tap for each data subcarrier, the common phase of the last symbol
(2⁻²⁴ of a turn), and the estimates of the frequency (that unit per symbol of 120 µs) and of the sampling time (that
unit per subcarrier spacing). -/
structure Equaliser where
  taps   : List Cplx := []
  phi    : Int := 0
  fEst   : Int := 0
  tauEst : Int := 0
deriving DecidableEq, Repr

/-- A frame being received by a lane. -/
structure LaneRx where
  detectAt : Nat
  level    : Int
  captured : Bool := false
  clipped  : Bool := false
  /-- its SFD fell inside an open receive occurrence (R178, R233) -/
  slot     : Bool := false
  sfdLtb   : Nat := 0
  sfdAngle : Nat := 0
  rssi     : Int := 0
  length   : Nat := 0
  rate     : Nat := 0
  fcs2     : Bool := false
  whiten   : Bool := false
  /-- the PHR's scrambler field (R164) -/
  seed     : Nat := 0
  /-- the register of the code after a coded PHR (R166) -/
  reg      : List Nat := []
deriving DecidableEq, Repr

/-- Hidden state of a lane (chapter 05). -/
structure Lane where
  assign    : Option Assign := none
  pending   : Option Assign := none
  rx        : Option LaneRx := none
  /-- capture_en taken at the last verified PHR (register table) -/
  capture   : Bool := true
  /-- the running storm window: its start, length (ms) and threshold, and the failures in it (R145) -/
  stormFrom : Nat := 0
  stormMs   : Nat := 100
  stormThr  : Nat := 200
  stormCnt  : Nat := 0
  stormHold : Bool := false
  /-- occupancy: index of the 1 ms interval, whether all of it so far was SEARCH, and busy (R146) -/
  occIdx    : Nat := 0
  occSearch : Bool := false
  occBusy   : Bool := false
  searchMs  : Nat := 0
  busyMs    : Nat := 0
  /-- self-test under way: 0 none, 1 at enable, 2 on request, 3 periodic, 4 unretire; a test requested; a
  periodic test due from this LTB -/
  testing   : Nat := 0
  testEnd   : Nat := 0
  testReq   : Bool := false
  periodic  : Option Nat := none
  switchEnd : Nat := 0
  /-- det_adj taken at the last entry to SEARCH (R170) -/
  detAdj    : Int := 0
  /-- the MR-OFDM taps and estimates of this or the last reception (R165) -/
  eq        : Equaliser := {}
  /-- the channel was retired: OFF and EV084 follow the frame (R148) -/
  stopping  : Bool := false
deriving DecidableEq, Repr

/-- A coalescing vector (R339). -/
structure Vec where
  count : Nat := 0
  first : Nat := 0
deriving DecidableEq, Repr

/-- What a completion record says of a frame (R333); fields that do not apply read 0. -/
structure Completion where
  chain    : Nat := 0
  attempts : Nat := 0
  esc      : Nat := 0
  tx       : Nat := 0
  amc      : Nat := 0
  sec      : Nat := 0
  fwd      : Nat := 0
  redirected : Bool := false
  hif      : Nat := 0
  /-- report FIFO of the frame's timestamp, if it was sent there (R64) -/
  tsFifo   : Option Nat := none
deriving DecidableEq, Repr

/-- A transmit frame admitted and not completed; what ended a part of it that was not its last. -/
structure HostFrame where
  descIdx  : Nat
  kind     : Nat
  tsReq    : Bool
  failed   : Option Completion := none
deriving DecidableEq, Repr

/-- Counts and flags of a ring (R323, R324, R327, R336, R341). -/
structure Ring where
  cIdx    : Nat := 0
  pIdx    : Nat := 0
  cp      : Nat := 0
  ccons   : Nat := 0
  halted  : Bool := false
  err     : Nat := 0
  armed   : Bool := false
  /-- arm as last accepted: what the doorbell reads (R326) -/
  dbArm   : Bool := false
  lost    : Nat := 0
  lostFlag : Bool := false
  seq     : Nat := 0
  /-- transmit descriptors fetched and not yet admitted -/
  fetched : List (List Byte) := []
  /-- frames admitted and not completed, by the part's own reference -/
  frames  : Tab HostFrame := []
  /-- control descriptor being polled, with its deadline; later posted descriptors (up to this count) are skipped -/
  poll    : Option (List Byte × Nat) := none
  skipTo  : Option Nat := none
deriving DecidableEq, Repr

/-- Hidden state of HIF and EVT (chapter 13). -/
structure Hif where
  rings    : Tab Ring := []
  vecs     : Tab Vec := []
  /-- MSI-X: address and data words of the table by 4 × entry + word, unmasked entries, pending bits, function mask -/
  table    : Tab Nat := []
  unmasked : List Nat := []
  pba      : List Nat := []
  funcMask : Bool := true
  d3hot    : Bool := false
  flr      : Bool := false
  nextRef  : Nat := 1
  /-- frames admitted before their rings were reset (R321) -/
  orphans  : List Nat := []
  /-- EVT_PEND as the list of raised events -/
  pend     : List Nat := []
  /-- core SRAM and LPDDR4X by core physical address: the octets that are not 0 (R346, log 324) -/
  mem      : List Host.Cell := []
deriving DecidableEq, Repr

/-- A mailbox message (R351). -/
structure Msg where
  words   : List Word
  txEpoch : Nat
  rxEpoch : Nat
  seq     : Nat
  collision : Bool := false
deriving DecidableEq, Repr

/-- A mailbox channel's contents. -/
structure MbxCh where
  msgs : List Msg := []
  seq  : Nat := 0
deriving DecidableEq, Repr

/-- A semaphore: owner identifier (0 free) and abandoned (R356). -/
structure Sem where
  owner : Nat := 0
  abandoned : Bool := false
deriving DecidableEq, Repr

/-- Hidden state of MBX (chapter 14). -/
structure Mbx where
  chans : Tab MbxCh := []
  sems  : Tab Sem := []
  /-- cluster lines with pending set (R358) -/
  lines : List Nat := []
deriving DecidableEq, Repr

/-- The stages of a frame that took an in-flight tag (R414, R415, R418): whether it is tagged, its direction,
ingress code and context, and the LTB of S0-S7 reached so far. -/
structure TagStages where
  tagged  : Bool := false
  up      : Bool := true
  ingress : Nat := 0
  ctx     : Option Nat := none
  s       : Tab Nat := []
deriving DecidableEq, Repr

/-- An instruction sample (R417). -/
structure InsSample where
  pc      : Nat
  latency : Nat
  flags   : Nat
  secure  : Bool
deriving DecidableEq, Repr

/-- What a histogram sample leaves to the end of its command (R419): the unit, bin and value, how often a full bin was
hit, and how often the alarm came, where it raises EV245 only if `ev`. -/
structure HistDue where
  unit  : Fin 16
  bin   : Nat
  value : Nat
  sat   : Nat
  alarm : Nat
  ev    : Bool
deriving DecidableEq, Repr

/-- Hidden state of CHR (chapter 18). -/
structure Chr where
  /-- counter values, wrapped counters (ovf), and enabled counters as (counter, kind, source) -/
  count   : Tab Nat := []
  ovf     : List Nat := []
  enabled : List (Nat × Nat × Nat) := []
  /-- wraps whose EV240 is still to be raised -/
  wraps   : List Nat := []
  /-- last condition of a level or value source (R410); LTB of the last count of a counter (R418, src 3) -/
  level   : List Nat := []
  lastCnt : Tab Nat := []
  bins    : Tab Nat := []
  /-- what the present fabric cycle itself brought to counters and bins (R70), and the LTB of the last write of each (R413,
  R419) -/
  own     : Tab Nat := []
  ownBins : Tab Nat := []
  written : Tab Nat := []
  binWrote : Tab Nat := []
  /-- histogram samples whose sat, alarm and events are still to be set and raised -/
  due     : List HistDue := []
  /-- tag records held (ten words each, R416) -/
  recs    : List (List Nat) := []
  /-- records and instruction samples of this fabric cycle that found their FIFO full: a pop of the same cycle acts before
  them (R416); those of earlier cycles are lost, and still to be counted -/
  spill   : List (List Nat) := []
  isSpill : Tab (List InsSample) := []
  /-- entries of the record FIFO and of the sample FIFOs that came in this fabric cycle -/
  fresh   : Nat := 0
  isFresh : Tab Nat := []
  lost    : Nat := 0
  isLost  : Nat := 0
  tagged  : Tab TagStages := []
  nextMark : Nat := 1
  samples : Tab (List InsSample) := []
  /-- counters and bins with epoch_sync as they were at the last boundary (R412, R419) -/
  shadow  : Tab Nat := []
  binShadow : Tab Nat := []
  /-- per core: instructions still to retire before the next sample (R417) -/
  isLeft  : Tab Nat := []
deriving DecidableEq, Repr

/-- History of a classified fault (R433): class, object and index. -/
structure FaultHist where
  cls    : Nat
  obj    : Nat
  idx    : Nat
  /-- epochs with a qualifying event, before the current one and following each other -/
  streak : Nat := 0
  /-- qualifying events of the current epoch -/
  now    : Nat := 0
  /-- distinct slots of the current epoch (class 5) -/
  slots  : List Nat := []
  /-- epoch numbers of the errors (classes 6-9) -/
  epochs : List Nat := []
  /-- LTB of the last event -/
  last   : Nat := 0
  declared : Bool := false
deriving DecidableEq, Repr

/-- A fault event on its way to the classifier: event and arguments (R433). -/
structure FaultEv where
  ev : Nat
  a0 : Nat
  a1 : Nat
  a2 : Nat
deriving DecidableEq, Repr

/-- Hidden state of PWR (chapter 19). -/
structure Pwr where
  /-- per core: LTB at which its watchdog started; none while stopped -/
  wdtStart : Tab Nat := []
  /-- watchdog timeout in force (ms), where a kick or a start has latched it -/
  wdtMs    : Tab Nat := []
  /-- core domains in reset or being powered on, with the LTB of their release -/
  coreRelease : Tab Nat := []
  /-- power transition in progress: target and completion LTB -/
  trans    : Option (Nat × Nat) := none
  /-- chip reset is held -/
  held     : Bool := false
  /-- PORn is low -/
  porLow   : Bool := false
  hist     : List FaultHist := []
  /-- fault events of this command, still to be classified -/
  inbox    : List FaultEv := []
  /-- the permanent-fault list: class, object, index (R433, R435) -/
  perm     : List (Nat × Nat × Nat) := []
  /-- statistics epochs since chip reset -/
  epoch    : Nat := 0
  /-- LTB since which VMON has been at or above warn_mv + hyst_mv; what the release waits for: 1 that it is (PORn), 2 that it
  has been for 10 ms (R423) -/
  vmonGood : Option Nat := some 0
  vmonWait : Nat := 0
  /-- the junction temperatures as last measured, 0.1 °C: RF/analog and digital die; a release waits for both (R424) -/
  temps    : Int × Int := (0, 0)
  thermal  : Bool := false
  /-- LTB at which chip reset was asserted, and the cores whose watchdog with action 1 was due then (R424) -/
  resetAt  : Nat := 0
  wdtDue   : List Nat := []
deriving DecidableEq, Repr

/-- A good frame record on its way from a lane to AMC (R142). -/
structure LaneRec where
  lane     : Nat
  band     : Nat
  freq     : Nat
  profile  : Nat
  rssi     : Int
  lqi      : Nat
  ltb      : Nat
  angle    : Nat
  endLtb   : Nat
  captured : Bool
  slot     : Bool
  rate     : Nat
  fcs2     : Bool
  whiten   : Bool
  /-- the PSDU without its FCS -/
  psdu     : List Byte
deriving DecidableEq, Repr

/-- The end of a chain's command (R89): the chain, the command, its tx_status, the LTB of its first symbol if it
had one and its grid angle, the airtime it radiated (µs), and entries of the Node Table that fail parity where what follows at
once reads them (R276). -/
structure TxEnd where
  chain  : Nat
  cmd    : TxCmd
  status : Nat
  first  : Option Nat
  angle  : Nat
  airUs  : Nat
  upset  : List Nat := []
deriving DecidableEq, Repr

/-! ### The frame pipeline (chapters 01, 07-12) -/

/-- What a frame's receive descriptor says of its reception (R330); `lane` is the wired port for a wired frame. -/
structure RxMeta where
  ltb      : Nat := 0
  angle    : Nat := 0
  freq     : Nat := 0
  band     : Nat := 0
  lane     : Nat := 0
  wired    : Bool := false
  profile  : Nat := 0
  tsLost   : Bool := false
  captured : Bool := false
  rssi     : Int := 0
  lqi      : Nat := 0
  dup      : Bool := false
  noack    : Bool := false
deriving DecidableEq, Repr

/-- Transmit parameters that a frame copies when it is built (R154): of its profile, its length with FCS, its
airtime and that of the acknowledgement it asks for. -/
structure TxParm where
  phy     : PhyParm := {}
  profile : Nat
  family  : Nat
  band    : Nat
  fcs2    : Bool
  occHz   : Nat
  maxPsdu : Nat
  n       : Nat
  airUs   : Nat
  shrUs   : Nat
  ackUs   : Nat
deriving DecidableEq, Repr

/-- An air frame ready to be sent: the PSDU without FCS, what its acknowledgement must match, and the context of
its first hop. -/
structure AirOut where
  parm : TxParm
  psdu : List Byte
  ar   : Bool
  ver  : Nat
  dsn  : Option Nat
  dst  : Nat × Nat
  hop  : Option Nat
deriving DecidableEq, Repr

/-- A frame in the Escapement: `air` for frames to the air, `octets` for wired ones. -/
structure EscFrame where
  ref      : Nat
  port     : Nat
  svc      : Nat
  ctx      : Option Nat := none
  air      : Option AirOut := none
  octets   : List Byte := []
  rx       : RxMeta := {}
  reason   : Nat := 0
  fmt      : Bool := false
  /-- transmit ring and frame of it (R333); whether this is the frame that ends it -/
  host     : Option (Nat × Nat) := none
  last     : Bool := true
  enqAt    : Nat := 0
  headAt   : Nat := 0
  fails    : Nat := 0
  attempts : Nat := 0
  /-- the chain it last went to, and the first symbol of its last transmission with its grid angle (R333) -/
  chain    : Nat := 0
  first    : Option Nat := none
  angle    : Nat := 0
  moved    : Bool := false
  test     : Bool := false
  /-- AIR_RAW: the plan entry; TEST: start and power -/
  plan     : Option Nat := none
  start    : Option Nat := none
  power    : Option Int := none
  /-- the slot entry it was released for (R230) -/
  slot     : Option Nat := none
  ptp      : Bool := false
  /-- kind of frame on the twin link: 0 forwarded air frame, 1 mirrored datagram, 2 WIRED (R384) -/
  twin     : Nat := 2
  pool     : Nat := 1
  bufs     : Nat := 0
  buf      : Nat := 0
  mark     : Option Nat := none
deriving DecidableEq, Repr

/-- The steps that a frame in flight waits for (R20, R22). -/
inductive Stage
  | context | key | derive | ccm | done | released | ingress | route | secure
deriving DecidableEq, Repr

/-- Where a frame in flight came from (R24, R416). -/
inductive Ingress | air | eth (p : Nat) | host | twin | cluster
deriving DecidableEq, Repr

/-- A frame in flight (R23): the PSDU without FCS or the datagram, and what the steps have found. -/
structure Flight where
  up      : Bool
  ingress : Ingress
  order   : Nat
  stage   : Stage
  octets  : List Byte
  rx      : RxMeta := {}
  ctx     : Option Nat := none
  prim    : Option Nat := none
  hop     : Option Nat := none
  /-- the key slot and EUI-64 of the link key it needs, and the key once it is there -/
  slot    : Nat := 0
  eui     : Nat := 0
  key     : List Byte := []
  /-- the Ethernet frame it came in (R330) -/
  raw     : List Byte := []
  /-- its derivation has started, with the generation of the master slot it took (R306) -/
  started : Option Nat := none
  /-- rx_fc as held before this frame, if it was held (R313); sec_status found so far -/
  heldFc  : Option Nat := none
  sec     : Nat := 0
  /-- egress: port and service; delivery reason and format; the parts of an uplink datagram or downlink frames -/
  port    : Nat := 6
  svc     : Option Nat := none
  reason  : Nat := 0
  fmt     : Bool := false
  out     : List AirOut := []
  host    : Option (Nat × Nat) := none
  /-- PT result for MESH: 6LoWPAN context -/
  sci     : Nat := 0
  /-- downlink: dgram_id (R383); uplink: node frame counter for the trailer (R381) and the node's EUI-64 -/
  dgram   : Nat := 0
  seqNr   : Option Nat := none
  mirror  : Bool := false
  since   : Nat := 0
  /-- the keys of later frames that the reorder stage released before it (R29) -/
  passed  : List (Nat × Nat × Nat × Nat × Nat) := []
  pool    : Nat := 0
  bufs    : Nat := 0
  mark    : Option Nat := none
deriving DecidableEq, Repr

/-- A frame that waits for an in-flight tag (R26): an IPv6 packet with what follows it, a frame for HOST service `svc`,
or (`up`) a forwarded air frame. -/
structure WaitFrame where
  ingress : Ingress
  octets  : List Byte
  rx      : RxMeta := {}
  up      : Bool := false
  svc     : Option Nat := none
  mirror  : Bool := false
  /-- the Ethernet frame that an IPv6 packet came in (R330); a heartbeat, which goes to TWN (R365) -/
  raw     : List Byte := []
  beat    : Bool := false
  pool    : Nat := 3
  bufs    : Nat := 0
deriving DecidableEq, Repr

/-- An acknowledgement request of the current arbiter round (R176, R178). -/
structure AckReq where
  tag   : Nat
  rcd   : LaneRec
  slot  : Bool
  ctx   : Option Nat
  at_   : Nat
  /-- D of R177, with the gap of the request's instant; and whether both chips of a pair acknowledge then (R379) -/
  d     : Nat
  both  : Bool := false
deriving DecidableEq, Repr

/-- A granted acknowledgement: the node it goes to, and whether it announced a frame (R183, R225). -/
structure AckOut where
  ref  : Nat
  ctx  : Option Nat
  pend : Bool
deriving DecidableEq, Repr

/-- AMC's CSMA-CA run of a chain (R188), with the CSMA parameters it began with. -/
structure AsyncRun where
  frame  : EscFrame
  freq   : Nat
  nb     : Nat := 0
  be     : Nat := 3
  tries  : Nat := 0
  minBe  : Nat := 3
  maxBe  : Nat := 5
  maxBackoffs : Nat := 4
  maxRetries  : Nat := 3
  /-- end of the backoff; none while the command is at the chain or the acknowledgement is awaited -/
  backoff : Option Nat := none
  /-- the command at the chain -/
  cmd    : Option Nat := none
deriving DecidableEq, Repr

/-- An acknowledgement AMC awaits (R190): deadline of its SFD, and what must match. -/
structure AckWait where
  ref      : Nat
  issuer   : Issuer
  chain    : Nat
  first    : Nat
  deadline : Nat
  freq     : Nat
  profile  : Nat
  dsn      : Option Nat
  dst      : Nat × Nat
  ended    : Bool := false
deriving DecidableEq, Repr

/-- An entry of the neighbour table (R199). States: 0 FREE, 1 PRESENT, 2 ABSENT, 3 GONE. -/
structure Neighbour where
  state    : Nat := 0
  district : Nat := 0
  site     : Nat := 0
  role     : Nat := 0
  period   : Nat := 0
  angle    : Nat := 0
  chanA    : Option Nat := none
  chanB    : Option Nat := none
  rsv      : List Nat := []
  miss     : Nat := 0
  lastCyc  : Nat := 0
  /-- LTB of the last beacon; LTB at entry to GONE -/
  lastLtb  : Nat := 0
  goneAt   : Nat := 0
  /-- the expected instant last tested, by cycle count; grid cycles of nb_hold still to pass -/
  tested   : Nat := 0
  hold     : Nat := 0
  /-- the expected instant that was reached: its cycle, whether it was covered then, nb_win and nb_miss_limit (R200) -/
  reached  : Option (Nat × Bool × Nat × Nat) := none
deriving DecidableEq, Repr

/-- Hidden state of AMC (chapter 07). -/
structure Amc where
  reqs     : List AckReq := []
  recent   : List ((Nat × Nat) × (Bool × Nat) × Nat) := []
  acks     : List AckOut := []
  /-- frames handed by ESC and not yet taken, with their channel, and CSMA runs, by chain; EBR answers waiting: plan
  entry and profile -/
  handed   : Tab (EscFrame × Nat) := []
  runs     : Tab AsyncRun := []
  answers  : List (Nat × Nat) := []
  waits    : List AckWait := []
  dup      : List ((Nat × Nat) × Nat × Nat) := []
  nb       : Tab Neighbour := []
  bsn      : Tab Nat := []
  ebPos    : Tab Nat := []
  ebDone   : Tab Nat := []
  /-- grid angle of the first write that waits for the next beacon instant (R9, R195) -/
  ebSince  : Option Nat := none
  ebrAt    : Tab Nat := []
  conflicts : List (Nat × Nat) := []
  /-- source address of the frame whose DSN a context holds, by context (R184) -/
  dsnSrc   : Tab (Nat × Nat) := []
  /-- dwell totals of the plan entries: airtime (µs) of each 1 s step, newest first; budget reached (R205) -/
  dwell    : Tab (List Nat) := []
  dwellHit : List Nat := []
  refusals : Nat := 0
  nextRef  : Nat := 1
deriving DecidableEq, Repr

/-- A window SLP has handed over and that is not yet fixed (R215): its target, the frame it is for, whether it is a
fallback window, the airtime of the whole transmission (µs), the PHY parameters it goes out with and its wake-up
frames. -/
structure Window where
  target   : Nat
  frame    : Nat
  fallback : Bool
  airUs    : Nat
  phy      : PhyParm
  lead     : List (List Byte)
deriving DecidableEq, Repr

/-- An attempt under way to a node (R220, R225): frame, whether in a fallback window, whether plain, and whether its frame
pending bit announces another frame. -/
structure Attempt where
  frame    : Nat
  fallback : Bool
  plain    : Bool
  more     : Bool := false
deriving DecidableEq, Repr

/-- Hidden state of SLP (chapter 08), by context: windows not yet fixed; attempts under way; the end of the node's
listening after an acknowledgement (R225); the last instant at which its window was decided again (R215, R220, R221); the
nodes whose last node-form IE said that fallback windows are kept; and the LTB from which windows can be placed at all. -/
structure Slp where
  windows : Tab Window := []
  tries   : Tab Attempt := []
  pending : Tab Nat := []
  moved   : Tab Nat := []
  fbKept  : List Nat := []
  since   : Nat := 0
deriving DecidableEq, Repr

/-- A token bucket (R242): tok in 1/1,024 unit, LTB µs of the last refill, rate and burst in force. -/
structure Bucket where
  tok   : Int := 67107840
  tLast : Nat := 0
  rate  : Nat := 0
  burst : Nat := 65535
deriving DecidableEq, Repr

/-- A Fusee regulator (R247): bins (µs), newest first; outstanding holds by frame; LTB of the current bin's start,
and of the last breach event. -/
structure Fusee where
  bins   : List Nat := []
  holds  : List (Nat × Nat) := []
  binAt  : Nat := 0
  breach : Option Nat := none
deriving DecidableEq, Repr

/-- An open receive occurrence (R233): its start G, rx_guard as of its opening, and whether G was reached and the
channel looked at there. -/
structure RxOpen where
  start  : Nat
  guard  : Nat
  tested : Bool := false
deriving DecidableEq, Repr

/-- A transmit occurrence for which a frame was released (R230, R231): its start G, the frame, and once G is reached whether its
plan entry was invalid or retired there. -/
structure TxOpen where
  start : Nat
  ref   : Nat
  dead  : Option Bool := none
deriving DecidableEq, Repr

/-- Hidden state of ESC (chapter 09). -/
structure Esc where
  /-- subscriber queues by context; service queues of ports by port × 16 + service -/
  sub     : Tab (List EscFrame) := []
  queue   : Tab (List EscFrame) := []
  held    : List EscFrame := []
  bkt     : Tab Bucket := []
  gen     : Tab Nat := []
  fus     : Tab Fusee := []
  /-- deficit of a port's service, the service and subscriber last served -/
  deficit : Tab Int := []
  lastSvc : Tab Nat := []
  lastSub : Tab Nat := []
  /-- open receive occurrences; the slotframe start of the occurrence last decided or opened, by entry; nodes for
  which EV152 was raised -/
  open_   : Tab RxOpen := []
  /-- transmit occurrences whose frame has not ended -/
  sent    : Tab TxOpen := []
  decided : Tab Nat := []
  warned  : List Nat := []
deriving DecidableEq, Repr

/-- A reassembly context (R273). -/
structure Reasm where
  src    : Nat × Nat
  size   : Nat
  dtag   : Nat
  opened : Nat
  due    : Nat
  parts  : List (Nat × List Byte) := []
  /-- the UDP checksum was elided -/
  elided : Bool := false
  bufs   : Nat := 0
  /-- the latency measurements of its stored fragments (R415, R416) -/
  marks  : List Nat := []
deriving DecidableEq, Repr

/-- A Prefix Table entry (R260, R262). -/
structure PtEntry where
  value  : Nat
  mask   : Nat
  plen   : Nat
  ord    : Nat
  action : Nat
  port   : Nat
  svc    : Nat
  sci    : Nat
  bad    : Bool := false
deriving DecidableEq, Repr

/-- Hidden state of FWD (chapter 10): frames in flight by tag, frames that wait for a tag, entry indices that fail
parity, the Prefix Table by index, reassembly contexts. -/
structure Fwd where
  flights : Tab Flight := []
  nextOrd : Nat := 0
  waiting : List WaitFrame := []
  ntBad   : List Nat := []
  /-- the relocation sequence, and the LTB of its last increment (R255) -/
  reloc   : Nat := 0
  relocAt : Nat := 0
  pt      : Tab PtEntry := []
  ptOrd   : Nat := 0
  reasm   : Tab Reasm := []
deriving DecidableEq, Repr

/-- An outstanding reservation (R289). -/
structure Resv where
  ctx   : Nat
  limit : Nat
  seq   : Nat
deriving DecidableEq, Repr

/-- Hidden state of CTX (chapter 11). -/
structure Ctx where
  dirty   : List Nat := []
  bad     : List Nat := []
  resv    : List Resv := []
  /-- sweep in progress: index of the next visit and start LTB; a stall: its start, and the LTB up to which it is counted; a
  stall in this sweep; the instant after which the next multiple of the interval is looked for; a flush: the next index -/
  sweep   : Option (Nat × Nat) := none
  stall   : Option (Nat × Nat) := none
  stalled : Bool := false
  nextRing : Nat := 0
  sweepAt : Nat := 0
  flushAt : Option Nat := none
  selfEnd : Nat := 12000000
deriving DecidableEq, Repr

/-- A key slot (R305). state: 0 EMPTY, 1 VALID, 2 REVOKED. -/
structure Slot where
  state   : Nat := 0
  type    : Nat := 0
  world   : Nat := 0
  masters : Nat := 0
  lcMask  : Nat := 0
  lcAuth  : Bool := false
  parent  : Nat := 0x3FF
  depth   : Nat := 0
  domain  : Nat := 0
  gen     : Nat := 0
  key     : List Byte := []
deriving DecidableEq, Repr

/-- A derived key in the cache (R311). -/
structure Derived where
  slot : Nat
  gen  : Nat
  eui  : Nat
  key  : List Byte
deriving DecidableEq, Repr

/-- A window command that runs (R307): op, slot operand, what is staged for a load or derive that waits for the end
of a sweep, its result once known, what it will write when it ends, and the LTB before which it does not end. -/
structure Job where
  op     : Nat
  slot   : Nat
  staged : Slot := {}
  label  : List Byte := []
  result : Option Nat := none
  digest : Option (List Byte) := none
  sig    : Option (List Byte) := none
  attrs  : Option Slot := none
  attest : Option (List Byte) := none
  /-- a verification that passed with an lc_auth slot: the digest (R304) -/
  auth   : Option (List Byte) := none
  due    : Nat := 0
deriving DecidableEq, Repr

/-- Hidden state of JWL (chapter 12). -/
structure Jwl where
  slots   : Tab Slot := []
  /-- cache sets, most recently used first -/
  cache   : Tab (List Derived) := []
  derivQ  : List Nat := []
  jobs    : Tab Job := []
  /-- windows whose last job was a verification that passed with an lc_auth slot: the digest (R304) -/
  verified : Tab (List Byte) := []
  attests : Nat := 0
  /-- slots named by invalidations whose sweep runs: window and slot -/
  sweeps  : List (Nat × Nat) := []
  lcTarget : Option (Nat × Nat) := none
  lcReadAt : Nat := 40000
deriving DecidableEq, Repr

/-- Hidden state of an Ethernet port (chapter 15). -/
structure Eth where
  /-- receive FIFO: each frame with the octets it takes there (R366) -/
  rxq      : List (WaitFrame × Nat) := []
  /-- transmit FIFO; its head is in transmission, since `startAt`; a heartbeat in it, by reference (R385) -/
  txq      : List EscFrame := []
  sending  : Bool := false
  startAt  : Nat := 0
  beat     : Option Nat := none
  /-- end of the pause in force, begin of the continuous pause, its pause_wd_ms; end of the holdoff (R368, R369) -/
  pauseEnd : Option Nat := none
  pauseAt  : Nat := 0
  pauseWd  : Nat := 100
  holdEnd  : Option Nat := none
  /-- the FIFO rose to xoff_thr and has not fallen below xon_thr; the last pause frame sent (R370) -/
  xoff     : Bool := false
  xoffAt   : Nat := 0
  /-- pause_quanta as of the last pause frame; pause frames that wait for the end of the frame in transmission (R9, R370) -/
  quanta   : Nat := 0xFFFF
  pauseQ   : List Nat := []
  /-- what the port advertises: its pause abilities (R361) -/
  advert   : Option (Bool × Bool) := none
  /-- the PCS has lock (R362) -/
  lock     : Bool := false
deriving DecidableEq, Repr

/-- A heartbeat path (R386): the last valid beat, and misses since then. -/
structure Path where
  last : Option Nat := none
  miss : Nat := 0
  up   : Bool := false
deriving DecidableEq, Repr

/-- Hidden state of TWN (chapter 16). -/
structure Twn where
  pair     : Path := {}
  eth      : Path := {}
  pairSeq  : Nat := 0
  ethSeq   : Nat := 0
  /-- LTB at which the next beats are due -/
  pairAt   : Nat := 0
  ethAt    : Nat := 0
  /-- JOINING: since when no path has missed, with rejoin_ms as of entry -/
  joinAt   : Nat := 0
  rejoin   : Nat := 100
  /-- PAIRED: entry, with split_cycles as of entry -/
  pairedAt : Nat := 0
  splitCyc : Nat := 16
  /-- credits for the twin link; since when a frame has waited for them (R384) -/
  credits  : Nat := 0
  stall    : Option Nat := none
deriving DecidableEq, Repr

/-- A component's entry of the boot record (R392). state: 0 EMPTY, 1 ACTIVATING, 2 TRIAL, 3 CONFIRMED, 4 FALLBACK. -/
structure CrnSlot where
  state    : Nat := 0
  version  : Nat := 0
  rollback : Nat := 0
  digest   : List Byte := []
  trials   : Nat := 0
  trialMax : Nat := 3
  prev     : Option Nat := none
deriving DecidableEq, Repr

/-- One copy of the boot record (R392): its write sequence, whether its CRC-32C is right, the entries by component, the
format tags of the settings areas, the active area, and whether both areas are written (R403). -/
structure BootRecord where
  seq    : Nat := 0
  good   : Bool := true
  slots  : Tab CrnSlot := []
  fmt0   : Nat := 0
  fmt1   : Nat := 0
  active : Nat := 0
  dual   : Bool := false
deriving DecidableEq, Repr

/-- An image as a flash slot or the staging area holds it (R391, R393). -/
structure Image where
  header : List Byte := []
  body   : List Byte := []
deriving DecidableEq, Repr

/-- Hidden state of CRN (chapter 17). What the flash holds outlives a reset, as does what a reset has cut short. -/
structure Crn where
  /-- the two copies of the record, the image in each component's slot, the settings areas that are erased -/
  copy0   : BootRecord := {}
  copy1   : BootRecord := { good := false }
  images  : Tab Image := []
  erased  : List Nat := []
  /-- the copies as they stood before each write of the record by the command that runs; it is a CONFIRM (R400) -/
  writing : List (BootRecord × BootRecord) := []
  confirms : Bool := false
  /-- boots that a reset has cut short since the last one that ended (R401) -/
  cutBoots : Nat := 0
  /-- the header of the image in the staging area; the images that run, by component (R399, R405) -/
  staged  : List Byte := []
  loaded  : Tab Image := []
  /-- the recovery runtime waits for the twin link to ask for an image (R406) -/
  request : Bool := false
deriving DecidableEq, Repr

/-- Why the block can stop with a fault. No command of the KZ8128 stops the model: the manual gives every
command an effect in every state. -/
inductive Fault
  /-- Raised by no command. Safe: the type must have an inhabitant for the host. -/
  | halted
deriving DecidableEq, Repr

/-- Why a command can be refused. -/
inductive Refusal
  /-- Raised by an arm of `exec` whose command has no meaning yet. Safe: nothing can be proved of it. -/
  | notModelled (mnemonic : String)
deriving DecidableEq, Repr

/-- The state of the block. -/
structure State where
  /-- commands waiting, first in first out -/
  pending  : List Instr := []
  /-- the Local Timebase (R12, R42) -/
  ltb      : Nat := 0
  /-- the model's own: how many free values have been drawn (log 2) -/
  freeCtr  : Nat := 0
  /-- outputs and bus completion of the last command (log 5) -/
  out      : List Output := []
  resp     : Resp := .none
  straps   : Straps := {}
  fuses    : Fuses := {}
  /-- register fields that do not hold their reset value, by `Fld.key` -/
  fields   : Tab Nat := []
  /-- fields written and waiting for their boundary: the value still in force (R9) -/
  inForce  : Tab Nat := []
  /-- statistics counters, and their values at the last boundary (R70) -/
  cnt      : Tab Nat := []
  cntLast  : Tab Nat := []
  /-- the claim table (R37), by resource code -/
  claims   : Tab Holder := []
  /-- output balls that are driven (R441) -/
  pins     : List (Ball × Bool) := []
  /-- Context Store bytes that are not 0 (R281) -/
  store    : List Host.Cell := []
  bal      : Bal := {}
  rx       : Tab Rx := []
  chains   : Tab Chain := []
  coex     : Coex := {}
  sic      : Sic := {}
  lanes    : Tab Lane := []
  hif      : Hif := {}
  mbx      : Mbx := {}
  chr      : Chr := {}
  pwr      : Pwr := {}
  /-- records of good frames that lanes have handed to AMC (R142) -/
  laneRecs : List LaneRec := []
  /-- commands of chains that ended, with their results, still to be told to their issuers (R89) -/
  txDone   : List TxEnd := []
  /-- events already raised in this statistics epoch, of those raised once in it -/
  once     : List Nat := []
  amc      : Amc := {}
  slp      : Slp := {}
  esc      : Esc := {}
  fwd      : Fwd := {}
  ctx      : Ctx := {}
  jwl      : Jwl := {}
  eth      : Tab Eth := []
  twn      : Twn := {}
  crn      : Crn := {}
deriving DecidableEq, Repr

/-- The block right after the release of chip reset that follows a rise of PORn (R424, R425, R428): every
register at its reset value, LTB 0, the watchdog of CORE0 running. Straps 0 and delivered fuses: DESIGN CHOICE
(log 3, 4). -/
def State.reset : State :=
  -- d2d_ok, register 0x10000 bit 5: the die-to-die link is trained 50 µs before the release; refclk_unlocked, register
  -- 0x20004 bit 8, is 0: the PLLs have locked before it too (R428, log 32)
  { fields := [(0x10000 * 32 + 5, 1), (0x20004 * 32 + 8, 0)], pwr := { wdtStart := [(0, 0)] } }

end Sys2Proof.Machine
end

