-- ==== Sys2Proof/Machine/Tab.lean ====
section
/-! DEFINITION. Operations on sparse tables, octet strings and bit fields. -/

namespace Sys2Proof.Machine

/-- Entry `k` of a table. -/
def tabGet {α : Type} : Tab α → Nat → Option α
  | [], _ => none
  | (i, a) :: r, k => if i = k then some a else tabGet r k

/-- The table with entry `k` set; the keys stay rising. -/
def tabPut {α : Type} : Tab α → Nat → α → Tab α
  | [], k, a => [(k, a)]
  | (i, b) :: r, k, a =>
    if k < i then (k, a) :: (i, b) :: r
    else if i = k then (k, a) :: r
    else (i, b) :: tabPut r k a

/-- The table without entry `k`. -/
def tabDel {α : Type} (m : Tab α) (k : Nat) : Tab α := m.filter (fun e => e.1 != k)

/-- Every key is at least `n`, and the keys rise. -/
def risingFrom : Nat → Tab α → Bool
  | _, [] => true
  | n, (i, _) :: r => decide (n ≤ i) && risingFrom (i + 1) r

/-- The canonical form of a table. -/
def rising (m : Tab α) : Bool := risingFrom 0 m

/-- Entry `k`, or `d` where the table has none. -/
def tabGetD {α : Type} (m : Tab α) (k : Nat) (d : α) : α := (tabGet m k).getD d

/-- The `w` bits of `x` from bit `lo` up. -/
def bits (x lo w : Nat) : Nat := x / 2 ^ lo % 2 ^ w

/-- A `w`-bit field read as a signed number. -/
def signed (w n : Nat) : Int := if n < 2 ^ (w - 1) then (n : Int) else (n : Int) - 2 ^ w

/-- A signed number as a `w`-bit field. -/
def unsigned (w : Nat) (i : Int) : Nat := (i % 2 ^ w).toNat

/-- The number clamped into a range. -/
def clampInt (lo hi x : Int) : Int := if x < lo then lo else if hi < x then hi else x

/-- `max n 1`: a field whose 0 is treated as 1. -/
def atLeast1 (n : Nat) : Nat := if n = 0 then 1 else n

/-- Little-endian octets of a number. -/
def leOctets : Nat → Nat → List Byte
  | 0, _ => []
  | n + 1, v => BitVec.ofNat 8 v :: leOctets n (v / 256)

/-- Big-endian octets of a number. -/
def beOctets (n v : Nat) : List Byte := (leOctets n v).reverse

/-- The number that little-endian octets spell. -/
def ofLe : List Byte → Nat
  | [] => 0
  | b :: r => b.toNat + 256 * ofLe r

/-- The number that big-endian octets spell. -/
def ofBe (l : List Byte) : Nat := ofLe l.reverse

/-- `n` octets of a string from octet `i`, zeros beyond its end. -/
def octetsAt (l : List Byte) (i n : Nat) : List Byte :=
  let r := (l.drop i).take n
  r ++ List.replicate (n - r.length) 0

/-- One octet of a string, 0 beyond its end. -/
def octet (l : List Byte) (i : Nat) : Nat := (l.getD i 0).toNat

/-- floor(log2 n), 0 for 0. -/
def log2Floor (n : Nat) : Nat := Nat.log2 n

/-- The element added at the end where it is not there already. -/
def addOnce {α : Type} [DecidableEq α] (l : List α) (a : α) : List α := if a ∈ l then l else l ++ [a]

end Sys2Proof.Machine
end

