-- ==== Sys2Proof/Machine/Ops.lean ====
section
/-! DEFINITION. Named operations over the state: register fields, statistics counters, hidden records of the
blocks, free values, output balls. -/

namespace Sys2Proof.Machine

/-- The key of a field in the field map. -/
def Fld.key (f : Fld) : Nat := f.off * 32 + f.lo

/-- The value of a register field. -/
def State.get (s : State) (f : Fld) : Nat := (tabGet s.fields f.key).getD f.rst

/-- A field is not 0. -/
def State.on (s : State) (f : Fld) : Bool := s.get f != 0

/-- A field read as a signed number. -/
def State.sget (s : State) (f : Fld) : Int := signed f.w (s.get f)

/-- Sets a field to the low bits of `v`. The map lists no field at its reset value. -/
def State.set (s : State) (f : Fld) (v : Nat) : State :=
  let v := v % 2 ^ f.w
  { s with fields := if v = f.rst then tabDel s.fields f.key else tabPut (tabDel s.fields f.key) f.key v }

/-- Sets a one-bit field. -/
def State.setb (s : State) (f : Fld) (b : Bool) : State := s.set f (if b then 1 else 0)

/-- Sets a signed field. -/
def State.sset (s : State) (f : Fld) (i : Int) : State := s.set f (unsigned f.w i)

/-- The value in force of a field whose writes wait for a boundary (R9). -/
def State.cur (s : State) (f : Fld) : Nat := (tabGet s.inForce f.key).getD (s.get f)

/-- A software write that waits for its boundary: the value in force stays (R9). -/
def State.setLater (s : State) (f : Fld) (v : Nat) : State :=
  let s := match tabGet s.inForce f.key with
    | some _ => s
    | none => { s with inForce := tabPut s.inForce f.key (s.get f) }
  s.set f v

/-- The boundary of these fields: their last written values take effect (R9). -/
def State.takeEffect (s : State) : List Fld → State
  | [] => s
  | f :: r => ({ s with inForce := tabDel s.inForce f.key } : State).takeEffect r

/-- Draws a free value below `n`. -/
def State.drawFree (s : State) (n : Nat) : Nat × State :=
  (Config.freeValue s.freeCtr % n, { s with freeCtr := s.freeCtr + 1 })

/-- Draws from the device's random source a value below `n`. -/
def State.drawRandom (s : State) (n : Nat) : Nat × State :=
  (Config.randomDraw s.freeCtr % n, { s with freeCtr := s.freeCtr + 1 })

/-- An output of the command. -/
def State.emit (s : State) (o : Output) : State := { s with out := s.out ++ [o] }

/-! ### Memory as a list of cells -/

/-- The byte at an address; 0 where none is listed. -/
def cellRead : List Host.Cell → Nat → Byte
  | [], _ => 0
  | (i, b) :: r, a => if i = a then b else cellRead r a

/-- The cells with a byte set. An address holding 0 is not listed, and the addresses rise. -/
def cellWrite : List Host.Cell → Nat → Byte → List Host.Cell
  | [], a, v => if v = 0 then [] else [(a, v)]
  | (i, b) :: r, a, v =>
    if a < i then (if v = 0 then (i, b) :: r else (a, v) :: (i, b) :: r)
    else if i = a then (if v = 0 then r else (a, v) :: r)
    else (i, b) :: cellWrite r a v

/-- The canonical form from address `n` on: addresses strictly rising, no byte equal to 0. -/
def cellsFrom : Nat → List Host.Cell → Bool
  | _, [] => true
  | n, (i, b) :: r => decide (n ≤ i) && b != 0 && cellsFrom (i + 1) r

/-- The canonical form of a memory. -/
def Memory.wf (m : List Host.Cell) : Bool := cellsFrom 0 m

/-- Octets written from an address up. -/
def cellsWrite (m : List Host.Cell) : Nat → List Byte → List Host.Cell
  | _, [] => m
  | a, b :: r => cellsWrite (cellWrite m a b) (a + 1) r

/-! ### Counting -/

/-- The value of a statistics counter. -/
def State.count (s : State) (c : Nat) : Nat := tabGetD s.cnt c 0

/-! ### Counting in the Chronograph (R408, R411, R413, R418, R419)

These operations read the registers of `s` and change a `Chr` alone. -/

/-- The enabled histogram units with source `src` (R418); none counts while freeze is 1 (R413). -/
def histUnits (s : State) (src : Nat) : List Nat :=
  if s.on Reg.CHR_CTRL_freeze then []
  else (List.range 16).filter (fun u => s.on (Reg.CHR_HIST_CFG_en u) && s.get (Reg.CHR_HIST_CFG_src u) == src)

/-- The bin of a value (R419). -/
def histBinOf (s : State) (u v : Nat) : Nat :=
  let base := s.get (Reg.CHR_HIST_BIN_base u)
  let d := if base < v then (v - base) / 2 ^ min 24 (s.get (Reg.CHR_HIST_BIN_shift u)) else 0
  if s.on (Reg.CHR_HIST_CFG_log_mode u) then (if d = 0 then 0 else min 31 (log2Floor d + 1)) else min 31 d

/-- `m` samples of value `v` in bin `b` of unit `u` at LTB `t` (R419): a bin written in the same cycle keeps what was
written; sat, alarm and their events are noted. -/
def binAdd (s : State) (c : Chr) (u b v m t : Nat) : Chr :=
  let i := 32 * u + b
  let n := tabGetD c.bins i 0
  let kept := tabGet c.binWrote i == some t
  let ab := s.get (Reg.CHR_HIST_STAT_alarm_bin u)
  let d : HistDue := {
    unit := Fin.ofNat 16 u, bin := b, value := v, sat := if kept then 0 else n + m - (2 ^ 32 - 1)
    alarm := if ab ≠ 0 ∧ ab ≤ b then m else 0, ev := s.on (Reg.CHR_HIST_CFG_alarm_ev u) }
  { c with
    bins := if kept then c.bins else tabPut c.bins i (min (2 ^ 32 - 1) (n + m))
    due := if d.sat = 0 ∧ d.alarm = 0 then c.due else c.due ++ [d] }

/-- The enabled counters pointed at the statistics counter at `off` (R408). -/
def followers (c : Chr) (off : Nat) : List Nat :=
  (c.enabled.filter (fun e => e.2.1 == 0 && e.2.2 == off)).map (·.1)

/-- `m` samples of value `v` for unit `u`, the first at LTB `t` and the others `gap` ns apart; `count` is what the counters
pointed at the bin then do: a counter, how many, the first's LTB, at how many instants, and their distance. -/
def histWith (s : State) (count : Chr → Nat → Nat → Nat → Nat → Nat → Chr) (c : Chr) (u v m t gap : Nat) : Chr :=
  let b := histBinOf s u v
  let before := tabGetD c.bins (32 * u + b) 0
  let c := binAdd s c u b v m t
  let n := tabGetD c.bins (32 * u + b) 0 - before
  (followers c (0x162000 + 4 * (32 * u + b))).foldl (fun c k => count c k n t m gap) c

/-- Counter `k` counts `n`, at `num` instants from LTB `first` on, `gap` ns apart (R411, R413): a wrap sets ovf and notes
its EV240; a count in the cycle of a write is lost. The units with source 3 take each count as a sample (R418), and
counters pointed at this one follow (R408, R412), through at most so many others (log 319). -/
def chrCount (s : State) : Nat → Chr → Nat → Nat → Nat → Nat → Nat → Chr
  | 0, c, _, _, _, _, _ => c
  | fuel + 1, c, k, n, first, num, gap =>
    if n = 0 ∨ tabGet c.written k = some first then c
    else
      let v := tabGetD c.count k 0 + n
      let last := tabGet c.lastCnt k
      let c := { c with
        count := tabPut c.count k (v % 2 ^ 32)
        ovf := if v / 2 ^ 32 = 0 then c.ovf else addOnce c.ovf k
        wraps := c.wraps ++ List.replicate (if s.on (Reg.CHR_CNT_CFG_ovf_ev k) then v / 2 ^ 32 else 0) k
        lastCnt := tabPut c.lastCnt k (first + (num - 1) * gap) }
      let c := ((histUnits s 3).filter (fun u => s.get (Reg.CHR_HIST_SEL_cnt u) == k)).foldl (fun c u =>
        let c := match last with
          | some t => histWith s (chrCount s fuel) c u (first - t) 1 first 0
          | none => c
        if num ≤ 1 then c else histWith s (chrCount s fuel) c u gap (num - 1) (first + gap) gap) c
      (followers c (0x161000 + 4 * k)).foldl (fun c j => chrCount s fuel c j n first num gap) c

/-- Counter `k` counts `n` in the present cycle. -/
def State.chrAdd (s : State) (k n : Nat) : State := { s with chr := chrCount s 64 s.chr k n s.ltb 1 0 }

/-- A value binned by histogram unit `u` (R419). -/
def histBin (s : State) (u v : Nat) : State := { s with chr := histWith s (chrCount s 64) s.chr u v 1 s.ltb 0 }

/-- Every enabled CHR counter pointed at statistics counter `off` follows it (R408, R413). -/
def chrFollow (s : State) (off n : Nat) : Chr :=
  if s.on Reg.CHR_CTRL_freeze then s.chr
  else (followers s.chr off).foldl (fun c k => chrCount s 64 c k n s.ltb 1 0) s.chr

/-- A statistics counter increments by `n`, modulo 2³². -/
def State.bumpBy (s : State) (c n : Nat) : State :=
  { s with cnt := tabPut s.cnt c ((s.count c + n) % 2 ^ 32), chr := chrFollow s c n }

/-- The same for a counter of time, whose followers have counted while it passed. -/
def State.bumpQuiet (s : State) (c n : Nat) : State := { s with cnt := tabPut s.cnt c ((s.count c + n) % 2 ^ 32) }

/-- A statistics counter increments. -/
def State.bump (s : State) (c : Nat) : State := s.bumpBy c 1

/-- An output ball drives a level. -/
def State.drive (s : State) (b : Ball) (v : Bool) : State :=
  { s with pins := s.pins.filter (fun e => e.1 != b) ++ [(b, v)] }

/-- An output ball returns to high impedance (R40). -/
def State.undrive (s : State) (b : Ball) : State := { s with pins := s.pins.filter (fun e => e.1 != b) }

/-- The level an output ball drives, if it drives one. -/
def State.level (s : State) (b : Ball) : Option Bool := (s.pins.find? (fun e => e.1 == b)).map (·.2)

/-! ### Hidden records by index -/

def State.rxOf (s : State) (b : Nat) : Rx := tabGetD s.rx b {}
def State.setRx (s : State) (b : Nat) (r : Rx) : State := { s with rx := tabPut s.rx b r }
def State.chainOf (s : State) (n : Nat) : Chain := tabGetD s.chains n {}
def State.setChain (s : State) (n : Nat) (c : Chain) : State := { s with chains := tabPut s.chains n c }
def State.laneOf (s : State) (n : Nat) : Lane := tabGetD s.lanes n {}
def State.setLane (s : State) (n : Nat) (l : Lane) : State := { s with lanes := tabPut s.lanes n l }
def State.ringOf (s : State) (r : Nat) : Ring := tabGetD s.hif.rings r {}
def State.setRing (s : State) (r : Nat) (g : Ring) : State :=
  { s with hif := { s.hif with rings := tabPut s.hif.rings r g } }
def State.ttOf (s : State) (n : Nat) : TtState := tabGetD s.bal.tt n {}
def State.setTt (s : State) (n : Nat) (x : TtState) : State :=
  { s with bal := { s.bal with tt := tabPut s.bal.tt n x } }
def State.sicTxOf (s : State) (n : Nat) : SicTx := tabGetD s.sic.tx n {}
def State.setSicTx (s : State) (n : Nat) (x : SicTx) : State :=
  { s with sic := { s.sic with tx := tabPut s.sic.tx n x } }
def State.sicEntry (s : State) (n slot : Nat) : SicEntry := tabGetD s.sic.entries (n * 256 + slot) {}
def State.setSicEntry (s : State) (n slot : Nat) (e : SicEntry) : State :=
  { s with sic := { s.sic with entries := tabPut s.sic.entries (n * 256 + slot) e } }

/-- The band of a chain: TXA chains serve RFA, TXB chains RFB. -/
def chainBand (n : Nat) : Nat := if n < 2 then 0 else 1

/-- The chains of a band. -/
def bandChains (b : Nat) : List Nat := if b = 0 then [0, 1] else [2, 3]

end Sys2Proof.Machine
end

