-- ==== Sys2Proof/Machine/Time.lean ====
section
/-! DEFINITION. Grid angle and LTB: the model of the mains cycles (R43, R44), conversion of captured instants, of
targets (R45), and the PTP clock (R62). -/

namespace Sys2Proof.Machine

/-- Angles are counted modulo 2⁴⁸ (R11). -/
def angleMod : Nat := 2 ^ 48

/-- Angle `a` lies after angle `b` (R43). -/
def angleAfter (a b : Nat) : Bool :=
  let d := (a + angleMod - b % angleMod) % angleMod
  decide (1 ≤ d ∧ d ≤ 2 ^ 47 - 1)

/-- The signed distance from angle `b` to angle `a` modulo 2⁴⁸. -/
def angleDiff (a b : Nat) : Int := signed 48 ((a + angleMod - b % angleMod) % angleMod)

/-- The Balance is OFF. -/
def balOff (s : State) : Bool := s.get Reg.BAL_STATUS_state == 0

/-- The grid angle of LTB `t` in model cycle `c` (R44), before site_phase. -/
def cycleAngle (c : Cycle) (t : Int) : Int :=
  (c.k : Int) * 65536 + min 65535 ((t - c.s) * 65536 / max 1 c.len)

/-- site_phase in force (R57). -/
def sitePhase (s : State) : Nat := s.cur Reg.BAL_SITE_PHASE_site_phase

/-- The mapping in force. -/
def mappingNow (s : State) : Mapping := ⟨s.bal.cycles, s.bal.stall, s.bal.floor, sitePhase s⟩

/-- The grid angle of LTB `t` by the model cycle that contains it, or extrapolated back from the oldest kept cycle (R44). -/
def Mapping.modelAngle (m : Mapping) (t : Nat) : Nat :=
  let raw : Int := match m.cycles.find? (fun c => decide (c.s ≤ (t : Int))) with
    | some c => cycleAngle c t
    | none => match m.cycles.getLast? with
      | none => 0
      | some o =>
        let n := (o.s - t + max 1 o.len - 1) / max 1 o.len
        let st := o.s - n * o.len
        ((o.k : Int) - n) * 65536 + min 65535 ((t - st) * 65536 / max 1 o.len)
  ((raw + m.site) % angleMod).toNat

/-- The grid angle of LTB `t` under a mapping: it holds during a stall and never goes backward (R43, R49, R53). -/
def Mapping.angle (m : Mapping) (t : Nat) : Nat :=
  let a := m.modelAngle t
  let a := if angleAfter m.floor a then m.floor else a
  match m.stall with
  | some (end_, held, len) => if end_ ≤ t + len then held else a
  | none => a

/-- The mapping that was current at LTB `t` (R32). -/
def mappingAt (s : State) (t : Nat) : Mapping :=
  ((s.bal.before.filter (fun e => decide (t < e.1))).getLast?.map (·.2)).getD (mappingNow s)

/-- Conversion of a captured LTB to grid angle, with the mapping that was current at the capture instant (R32, R44). -/
def angleAt (s : State) (t : Nat) : Nat :=
  if balOff s || t < s.bal.enabledAt then 0 else (mappingAt s t).angle t

/-- The live grid angle (R43). -/
def liveAngle (s : State) : Nat := if balOff s then 0 else (mappingNow s).angle s.ltb

/-- The mapping is about to change: the one in force is kept beside the LTB up to which it was current (R32). Sixteen are
kept, as many as cycles (R44): DESIGN CHOICE (log 40). -/
def State.keepMapping (s : State) : State :=
  { s with bal := { s.bal with before := ((s.ltb, mappingNow s) :: s.bal.before).take 16 } }

/-- The grid angle that the current model gives an LTB that is not past, the cycles ahead taken as long as the current one: the
inverse of the conversion of R45. It holds until the end of a stall that runs (R53). -/
def angleAhead (s : State) (t : Nat) : Nat :=
  let going := fun (c : Cycle) (held : Int) =>
    (((c.k : Int) * 65536 + sitePhase s + ((t : Int) - held - c.s) * 65536 / max 1 c.len) % angleMod).toNat
  match s.bal.cycles.head?, s.bal.stall with
  | none, _ => 0
  | some c, none => if balOff s then 0 else going c 0
  | some c, some (end_, a, e) => if balOff s then 0 else if t < end_ then a else going c e

/-- The LTB at which the model reaches a grid-angle target (R45). -/
def ltbOf (s : State) (target : Nat) : Int :=
  match s.bal.cycles.head? with
  | none => 0
  | some c =>
    let base := (((c.k : Int) * 65536 + sitePhase s) % angleMod).toNat
    let d := angleDiff target base
    let held : Int := match s.bal.stall with
      | some (_, _, e) => e
      | none => 0
    c.s + held - (-(d * c.len)) / 65536

/-- A target is late when armed: less than 200 µs plus `lead` ahead of the live angle, or past (R45). -/
def targetLate (s : State) (target lead : Nat) : Bool :=
  !angleAfter target (liveAngle s) || decide (ltbOf s target - s.ltb < 200000 + (lead : Int))

/-- The model is 200 µs plus `lead` from the target: it may be fixed (R45). -/
def targetNear (s : State) (target lead : Nat) : Bool :=
  decide (ltbOf s target - s.ltb ≤ 200000 + (lead : Int))

/-! ### Instants that recur by cycle (R195, R230) -/

/-- The first cycle count that is a multiple of `p` and whose angle `a` comes after grid angle `w`; counts go on at 0 after
2³² (R43). -/
def cycleAfter (p a w : Nat) : Nat :=
  let first := ((w + angleMod - a) % angleMod / 65536 + 1) % 2 ^ 32
  let c := (first + p - 1) / p * p
  if 2 ^ 32 ≤ c then 0 else c

/-- The start of slot entry `k`'s occurrence in the slotframe that begins at cycle `c` (R230). -/
def slotStart (s : State) (k c : Nat) : Nat :=
  ((c + s.get (Reg.ESC_SLOT_A_cyc k)) * 65536 + s.get (Reg.ESC_SLOT_A_angle k)) % angleMod

/-- The live angle has reached a target. -/
def reached (s : State) (target : Nat) : Bool := !angleAfter (target % angleMod) (liveAngle s)

/-- The fields of AMC that take effect at the next beacon instant. -/
def ebFields : List Fld := [Reg.AMC_CTRL_eb_en, Reg.AMC_EB_CFG_eb_period, Reg.AMC_EB_CFG_eb_angle,
  Reg.AMC_EB_CHANA_freq_khz, Reg.AMC_EB_CHANA_profile, Reg.AMC_EB_CHANA_valid, Reg.AMC_EB_CHANB_freq_khz,
  Reg.AMC_EB_CHANB_profile, Reg.AMC_EB_CHANB_valid, Reg.AMC_EB_PL_LEN_pl_len] ++
  (List.range 16).map Reg.AMC_RSV_FREQ_valid ++ (List.range 16).map Reg.AMC_EB_PL_octets

/-- The beacon instant that followed the first waiting write to such a field has been reached (R9, R195). -/
def ebPassed (s : State) : Bool :=
  match s.amc.ebSince with
  | none => false
  | some w =>
    let a := s.cur Reg.AMC_EB_CFG_eb_angle
    !balOff s && !angleAfter (cycleAfter (atLeast1 (s.cur Reg.AMC_EB_CFG_eb_period)) a w * 65536 + a) (liveAngle s)

/-- The value in force of such a field. -/
def ebCur (s : State) (f : Fld) : Nat := if ebPassed s then s.get f else s.cur f
def ebOn (s : State) (f : Fld) : Bool := ebCur s f != 0

/-- The nominal period in ns (R51). -/
def nominalNs (s : State) : Int := if s.on Reg.BAL_GRID_CFG_nominal then 16666667 else 20000000

/-- PTP time at LTB `t` as seconds and nanoseconds (R62). -/
def ptpAt (s : State) (t : Nat) : Nat × Nat :=
  let dt : Int := (t : Int) - s.bal.ptpLtb
  let rate := s.sget Reg.BAL_PTP_RATE_rate
  let ns : Int := (s.bal.ptpSec : Int) * 1000000000 + s.bal.ptpNs + dt + dt * rate / 2 ^ 40
  ((ns / 1000000000 % 2 ^ 48).toNat, (ns % 1000000000).toNat)

end Sys2Proof.Machine
end

