-- ==== Sys2Proof/Machine/Events.lean ====
section
/-! DEFINITION. Raising an event (R334): pending bit, event record, vector cause; ring entries (R324, R325, R336),
coalescing vectors (R339-R341), cluster interrupt lines (R358), and the claim table (R37-R40, R463). -/

namespace Sys2Proof.Machine

/-! ### Vectors and interrupts -/

/-- The cores that are down, as a mask (R347). -/
def coresDown (s : State) : Nat := s.get Reg.PWR_DOM_core_down

/-- A firing of cluster line `v` (R358): delivered to the targets that are up, or pending. -/
def lineFire (s : State) (v : Nat) : State :=
  let up := (List.range 4).filter (fun c =>
    bits (s.get (Reg.MBX_CIRQ_CFG_targets v)) c 1 == 1 && bits (coresDown s) c 1 == 0)
  if s.on (Reg.MBX_CIRQ_CFG_mask v) || up.isEmpty then
    { s with mbx := { s.mbx with lines := addOnce s.mbx.lines v } }
  else
    { s with mbx := { s.mbx with lines := s.mbx.lines.filter (· != v) } }.emit
      (.clusterLine v (up.foldl (fun m c => m + 2 ^ c) 0))

/-- The message of MSI-X entry `v`. -/
def msixMessage (s : State) (v : Nat) : Output :=
  .msix v (tabGetD s.hif.table (4 * v) 0 + 2 ^ 32 * tabGetD s.hif.table (4 * v + 1) 0) (tabGetD s.hif.table (4 * v + 2) 0)

/-- An MSI-X message of vector `v` leaves, or its pending bit is set while it is masked (R340). -/
def msixFire (s : State) (v : Nat) : State :=
  if s.hif.funcMask || !s.hif.unmasked.contains v then
    { s with hif := { s.hif with pba := addOnce s.hif.pba v } }
  else
    (({ s with hif := { s.hif with pba := s.hif.pba.filter (· != v) } } : State).emit (msixMessage s v)).bump Reg.HIF_CNT_MSG

/-- Vector `v`, one of 64, fires (R339): the count restarts, and coal_cnt and coal_us written since take effect. -/
def vecFire (s : State) (v : Nat) : State :=
  let s := { s with hif := { s.hif with vecs := tabDel s.hif.vecs v } }
  let s := s.takeEffect [Reg.HIF_VEC_CFG_coal_cnt (v % 64), Reg.HIF_VEC_CFG_coal_us (v % 64)]
  if s.on (Reg.HIF_VEC_CFG_dest v) then lineFire s v else msixFire s v

/-- A message of vector `v` waits for its entry or the function to be unmasked (R340). -/
def msixWaits (s : State) (v : Nat) : Bool := !s.on (Reg.HIF_VEC_CFG_dest v) && s.hif.pba.contains v

/-- A cause on vector `v` (R339): it merges into a message that waits (R340). -/
def vecCause (s : State) (v : Nat) : State :=
  if msixWaits s v then s else
  let old := tabGetD s.hif.vecs v {}
  let new : Vec := { count := old.count + 1, first := if old.count = 0 then s.ltb else old.first }
  let s := { s with hif := { s.hif with vecs := tabPut s.hif.vecs v new } }
  if s.cur (Reg.HIF_VEC_CFG_coal_us v) = 0 ∨ atLeast1 (s.cur (Reg.HIF_VEC_CFG_coal_cnt v)) ≤ new.count then
    vecFire s v
  else s

/-! ### Ring entries -/

/-- Entries of a ring (R323). -/
def ringSize (s : State) (r : Nat) : Nat := 2 ^ s.get (Reg.HIF_RING_CTRL_log2_size r)

/-- The ring's base address; bits [5:0] are ignored. -/
def ringBase (s : State) (r : Nat) : Nat :=
  s.get (Reg.HIF_RING_BASE_HI_base r) * 2 ^ 32 + s.get (Reg.HIF_RING_BASE_LO_base r) / 64 * 64

/-- The ring's completion or image area. -/
def ringAux (s : State) (r : Nat) : Nat :=
  s.get (Reg.HIF_RING_AUX_HI_aux r) * 2 ^ 32 + s.get (Reg.HIF_RING_AUX_LO_aux r) / 64 * 64

/-- The ring's write-back address. -/
def ringWb (s : State) (r : Nat) : Nat :=
  s.get (Reg.HIF_RING_WB_HI_wb r) * 2 ^ 32 + s.get (Reg.HIF_RING_WB_LO_wb r) / 8 * 8

def ringOwner (s : State) (r : Nat) : Nat := s.get (Reg.HIF_RING_CTRL_owner r)

/-- The phase bit of an entry (R324): 1 on the first pass over the ring. -/
def phaseOf (count log2 : Nat) : Nat := 1 - bits count log2 1

/-- An entry of 32 octets with its phase in bit 7 of the last. -/
def withPhase (entry : List Byte) (phase : Nat) : List Byte :=
  let e := octetsAt entry 0 32
  e.take 31 ++ [BitVec.ofNat 8 (octet e 31 % 128 + 128 * phase)]

/-- A ring may be written and read: enabled and not halted (R342). -/
def ringLive (s : State) (r : Nat) : Bool := s.on (Reg.HIF_RING_CTRL_enable r) && !(s.ringOf r).halted

/-- The ring delivers a cause if it is armed and may interrupt, and disarms (R339, R341). -/
def ringCause (s : State) (r : Nat) : State :=
  if (s.ringOf r).armed && s.on (Reg.HIF_RING_CTRL_irq_en r) then
    vecCause (s.setRing r { s.ringOf r with armed := false }) (s.get (Reg.HIF_RING_CTRL_vector r))
  else s

/-- A KZ8128-produced ring holds as many entries as its size (R336, R337). -/
def ringFull (s : State) (r : Nat) : Bool :=
  let g := s.ringOf r
  decide (ringSize s r ≤ (g.cIdx + 65536 - g.pIdx) % 65536)

/-- HIF writes memory: of the ring owner's address space, which for owner 1 is the cluster's (R323). -/
def State.memOut (s : State) (owner addr : Nat) (octets : List Byte) : State :=
  let s := s.emit (.memWrite owner addr octets)
  if owner = 1 then { s with hif := { s.hif with mem := cellsWrite s.hif.mem addr octets } } else s

/-- Writes the next entry of a KZ8128-produced ring, after an image if it has one (R324, R325, R337). -/
def ringProduce (s : State) (r : Nat) (image entry : List Byte) : State :=
  let g := s.ringOf r
  let log2 := s.get (Reg.HIF_RING_CTRL_log2_size r)
  let slot := g.cIdx % ringSize s r
  let s := if image.isEmpty then s
    else s.memOut (ringOwner s r) (ringAux s r + 256 * slot) image
  let s := s.memOut (ringOwner s r) (ringBase s r + 32 * slot) (withPhase entry (phaseOf g.cIdx log2))
  ringCause (s.setRing r { g with cIdx := (g.cIdx + 1) % 65536, lostFlag := false }) r

/-! ### Events -/

/-- The octets of an event record (R334). -/
def eventRecord (s : State) (ev a0 a1 a2 seq : Nat) (lost sw : Bool) : List Byte :=
  leOctets 1 ev ++ leOctets 1 ((if lost then 1 else 0) + (if sw then 2 else 0)) ++ leOctets 2 seq ++
  leOctets 4 a0 ++ leOctets 4 a1 ++ leOctets 4 a2 ++ leOctets 8 s.ltb ++ leOctets 6 (liveAngle s) ++ [0, 0]

/-- A record offered to event ring `r` (R334, R336); also whether this was the first drop after a record. -/
def eventOffer (s : State) (r ev a0 a1 a2 : Nat) (sw : Bool) : State × Bool :=
  if !ringLive s r then (s.bump Reg.EVT_CNT_LOST, false)
  else
    let g := s.ringOf r
    let seq := (g.seq + 1) % 65536
    if ringFull s r then
      ((s.setRing r { g with seq := seq, lost := (g.lost + 1) % 2 ^ 32, lostFlag := true }).bump
        Reg.EVT_CNT_LOST, !g.lostFlag)
    else
      (ringProduce (s.setRing r { g with seq := seq }) r []
        (eventRecord s ev a0 a1 a2 seq g.lostFlag sw), false)

/-- An event reaches a ring or vector of an owner: EV023 those of the cluster only (R321). -/
def eventReaches (ev owner : Nat) : Bool := ev != 23 || owner == 1

/-- The ring an event is routed to (R334). -/
def eventRing (s : State) (ev : Nat) : Nat := 224 + s.get (Reg.EVT_ROUTE_ring ev) % 16

/-- One raise (R334), without the EV021 that a first drop causes; and whether it does. -/
def raiseOnce (s : State) (ev a0 a1 a2 : Nat) (sw : Bool) : State × Bool :=
  let s := { s with hif := { s.hif with pend := addOnce s.hif.pend ev } }.bump Reg.EVT_CNT_RAISED
  let (s, dropped) :=
    if s.on (Reg.EVT_ROUTE_ring_en ev) && eventReaches ev (ringOwner s (eventRing s ev)) then
      eventOffer s (eventRing s ev) ev a0 a1 a2 sw
    else (s, false)
  let v := s.get (Reg.EVT_ROUTE_vector ev)
  let s := if s.on (Reg.EVT_ROUTE_vec_en ev) && eventReaches ev (s.get (Reg.HIF_VEC_CFG_dest v)) then vecCause s (s.get (Reg.EVT_ROUTE_vector ev)) else s
  (s, dropped)

/-- Raising an event (R334, R336): EV021 follows the first record dropped after one was written, and is not
raised for its own loss. -/
def raiseSw (s : State) (ev a0 a1 a2 : Nat) (sw : Bool) : State :=
  let (s, dropped) := raiseOnce s ev a0 a1 a2 sw
  if dropped && ev != 21 then
    (raiseOnce s 21 (eventRing s ev) 0 0 false).1
  else s

/-- The events that the fault classifier takes (R433). -/
def faultEvents : List Nat := [68, 69, 76, 77, 80, 81, 82, 83, 160, 161, 166, 168]

/-- Raising an event by the part itself; a fault event goes on to the classifier as well. -/
def State.raise (s : State) (ev : Nat) (a0 a1 a2 : Nat := 0) : State :=
  let s := if faultEvents.contains ev then
      { s with pwr := { s.pwr with inbox := s.pwr.inbox ++ [⟨ev, a0, a1, a2⟩] } }
    else s
  raiseSw s ev a0 a1 a2 false

/-! ### The claim table -/

/-- A resource code of R436. -/
def resourceExists (r : Nat) : Bool := decide (r ≤ 14 ∨ 16 ≤ r ∧ r ≤ 39)

/-- The resource is free or held by this feature. -/
def claimFree (s : State) (feature r : Nat) : Bool :=
  match tabGet s.claims r with
  | none => true
  | some h => !h.fw && h.id == feature

/-- The refusal of a feature enable: GLB_CLAIM_ERR and EV010 (R38, R335, R436). -/
def claimRefused (s : State) (feature r : Nat) : State :=
  let h := tabGetD s.claims r ⟨false, 0⟩
  let fw := if h.fw then 1 else 0
  let s := (((((s.set Reg.GLB_CLAIM_ERR_resource r).set Reg.GLB_CLAIM_ERR_req_feature feature).set
    Reg.GLB_CLAIM_ERR_holder h.id).set Reg.GLB_CLAIM_ERR_holder_fw fw).set
    Reg.GLB_CLAIM_ERR_code 1).set Reg.GLB_CLAIM_ERR_logged 1
  s.raise 10 r feature (h.id + 256 * 1 + 4096 * fw)

/-- A feature enable claims its resources together, or takes none of them (R37, R38). -/
def claimAll (s : State) (feature : Nat) (rs : List Nat) : Bool × State :=
  match rs.find? (fun r => !claimFree s feature r) with
  | some r => (false, claimRefused s feature r)
  | none => (true, { s with claims := rs.foldl (fun m r => tabPut m r ⟨false, feature⟩) s.claims })

/-- A feature releases its claims (R40). -/
def releaseAll (s : State) (feature : Nat) (rs : List Nat) : State :=
  { s with claims := s.claims.filter (fun e => !(rs.contains e.1 && !e.2.fw && e.2.id == feature)) }

/-- The outcome of GLB_CLAIM_CMD (R463): code, and the claim table after it. -/
def claimOp (claims : Tab Holder) (op resource owner : Nat) : Nat × Tab Holder :=
  if !resourceExists resource then (2, claims)
  else if (op = 1 ∨ op = 2) ∧ (owner = 0 ∨ owner = 255) then (4, claims)
  else match op, tabGet claims resource with
    | 1, none => (0, tabPut claims resource ⟨true, owner⟩)
    | 1, some h => if h = ⟨true, owner⟩ then (0, claims) else (1, claims)
    | 2, none => (0, claims)
    | 2, some h => if h = ⟨true, owner⟩ then (0, tabDel claims resource) else (3, claims)
    | _, _ => (0, claims)

end Sys2Proof.Machine
end

