-- ==== Sys2Proof/Machine/BalOps.lean ====
section
/-! DEFINITION. What the commands of the Balance do (chapter 02). -/

namespace Sys2Proof.Machine

/-- Changes the hidden state of the Balance. -/
def State.onBal (s : State) (f : Bal → Bal) : State := { s with bal := f s.bal }

/-- P as BAL_PERIOD reads it. -/
def setPeriod (s : State) (p : Int) : State :=
  (s.onBal (fun b => { b with p := p })).set Reg.BAL_PERIOD_period (unsigned 32 p)

/-! ### Time triggers -/

/-- The output ball of time trigger `n` (R65). -/
def ttBall (s : State) (n : Nat) : Ball := if s.on (Reg.BAL_TT_CTRL_out_sel n) then .ppsOut else .tto n

/-- The resource code of that ball; units 0-6 carry their own ball (R65, R436). -/
def ttBallRes (s : State) (n : Nat) : Nat :=
  if s.on (Reg.BAL_TT_CTRL_out_sel n) then 13 else if n = 7 then 8 else n

/-- Arms trigger `n` at its committed target, or marks it late and due at once (R45, R65, R66). A periodic trigger is armed
again at each advance of its target, so that its lateness is tested again and a period under 200 µs is always late:
DESIGN CHOICE (log 41). -/
def ttArm (s : State) (n : Nat) : State :=
  let x := s.ttOf n
  let lead := s.get (Reg.BAL_TT_CTRL_lead n)
  let s := s.set (Reg.BAL_TT_STAT_armed n) 1
  if targetLate s x.target lead then s.setTt n { x with fixed := some s.ltb, late := true }
  else s.setTt n { x with fixed := none, late := false }

/-- Disarms trigger `n` (R51, R65). -/
def ttDisarm (s : State) (n : Nat) : State :=
  (s.set (Reg.BAL_TT_STAT_armed n) 0).setTt n { s.ttOf n with fixed := none, late := false }

/-- Armed triggers whose unfixed target is not ahead of angle `a` are late (R54, R56). -/
def ttPassed (s : State) (a : Nat) : State :=
  (List.range 8).foldl (fun s n =>
    let x := s.ttOf n
    if s.on (Reg.BAL_TT_STAT_armed n) && x.fixed.isNone && !angleAfter x.target a then
      s.setTt n { x with fixed := some s.ltb, late := true }
    else s) s

/-- TT_ENABLE (R65, R37): unit, ball and, for action 6, the converter are claimed together. A target committed since the
Balance was enabled is armed, also one that a one-shot firing has used: DESIGN CHOICE (log 42). -/
def ttEnable (s : State) (n : Nat) : State :=
  let action := s.get (Reg.BAL_TT_CTRL_action n)
  if s.on (Reg.BAL_TT_CTRL_en n) || action == 7 then s
  else
    let feature := n + 1
    if action == 6 && !claimFree s 0x0F 14 then
      if (claimFree s feature n && claimFree s feature (ttBallRes s n)) then claimRefused s 0x0F 14
      else (claimAll s feature [n, ttBallRes s n]).2
    else
      match claimAll s feature [n, ttBallRes s n] with
      | (false, s) => s
      | (true, s) =>
        let s := if action == 6 then ((claimAll s 0x0F [14]).2).setTt n { s.ttOf n with conv := true } else s
        let s := (s.set (Reg.BAL_TT_CTRL_en n) 1).drive (ttBall s n) (action == 2 || action == 5)
        if (s.ttOf n).committed && !balOff s then ttArm s n else s

/-- Waveform sampling releases the converter once no enabled trigger has it and no burst runs (R40). -/
def converterRelease (s : State) : State :=
  if s.bal.burst.isSome || (List.range 8).any (fun m => (s.ttOf m).conv) then s else releaseAll s 0x0F [14]

/-- TT_DISABLE (R40): the ball returns to high impedance and the claims are released; the converter, once a burst that
runs has ended. -/
def ttDisable (s : State) (n : Nat) : State :=
  if !s.on (Reg.BAL_TT_CTRL_en n) then s
  else
    let s := ttDisarm (s.set (Reg.BAL_TT_CTRL_en n) 0) n
    let s := (s.undrive (ttBall s n)).setTt n { s.ttOf n with pulseEnd := none, conv := false }
    converterRelease (releaseAll s (n + 1) [n, ttBallRes s n])

/-- TT_COMMIT (R65, R66). A target committed while the Balance is OFF is kept: it is not armed when the Balance is enabled, and
en 0 to 1 arms it afterwards: DESIGN CHOICE (log 303). -/
def ttCommit (s : State) (n hi : Nat) : State :=
  let s := s.set (Reg.BAL_TT_ANG_HI_ang_hi n) hi
  let target := s.get (Reg.BAL_TT_ANG_HI_ang_hi n) * 2 ^ 32 + s.get (Reg.BAL_TT_ANG_LO_ang_lo n)
  let s := s.setTt n { s.ttOf n with target := target, committed := true }
  if s.on (Reg.BAL_TT_CTRL_en n) && !balOff s then ttArm s n else s

/-- The action of a firing (R65): a level that a firing drives stays until the next one, so a pulse that runs ends there. -/
def ttAct (s : State) (n : Nat) : State :=
  let ball := ttBall s n
  let drive := fun (v : Bool) (end_ : Option Nat) => (s.drive ball v).setTt n { s.ttOf n with pulseEnd := end_ }
  let pulse := some (s.ltb + s.get (Reg.BAL_TT_WIDTH_width n) * 1000)
  match s.get (Reg.BAL_TT_CTRL_action n) with
  | 1 => drive true none
  | 2 => drive false none
  | 3 => drive (!((s.level ball).getD false)) none
  | 4 => drive true pulse
  | 5 => drive false pulse
  | 6 => s.onBal (fun b => { b with burst := some (n, min 1024 (s.get (Reg.BAL_TT_WIDTH_width n))) })
  | _ => s

/-- A periodic trigger advances its target and stays armed; a one-shot trigger disarms (R65). -/
def ttAdvance (s : State) (n : Nat) : State :=
  let period := s.get (Reg.BAL_TT_PER_period n)
  if period = 0 then ttDisarm s n
  else ttArm (s.setTt n { s.ttOf n with target := ((s.ttOf n).target + period) % angleMod }) n

/-- TT_FIRING (R65, R66): due once the trigger is armed and its firing LTB has come. -/
def ttFiring (s : State) (n : Nat) : State :=
  let x := s.ttOf n
  let due := match x.fixed with
    | some f => decide (f ≤ s.ltb)
    | none => false
  if !(s.on (Reg.BAL_TT_STAT_armed n) && due) then s
  else
    let suppressed := fun (s : State) (cause : Nat) => ttAdvance (s.raise 42 n cause) n
    let s := if x.late then (s.set (Reg.BAL_TT_STAT_late n) 1).bump Reg.BAL_CNT_TT_LATE else s
    if x.late && s.on (Reg.BAL_TT_CTRL_late_pol n) then suppressed s 0
    else if s.on (Reg.BAL_TT_CTRL_hold_gate n) && s.get Reg.BAL_STATUS_state != 2 then
      suppressed (if x.late then s else s.bump Reg.BAL_CNT_TT_LATE) 1
    else if s.get (Reg.BAL_TT_CTRL_action n) == 6 && s.bal.burst.isSome then
      suppressed (if x.late then s else (s.set (Reg.BAL_TT_STAT_late n) 1).bump Reg.BAL_CNT_TT_LATE) 2
    else
      let s := ttAct s n
      let s := if s.on (Reg.BAL_TT_CTRL_ev_en n) then s.raise 41 n else s
      ttAdvance s n

/-- TT_PULSE_END (R65): the ball returns from the pulse. -/
def ttPulseEnd (s : State) (n : Nat) : State :=
  match (s.ttOf n).pulseEnd with
  | some e =>
    if e ≤ s.ltb then
      (s.setTt n { s.ttOf n with pulseEnd := none }).drive (ttBall s n)
        (!((s.level (ttBall s n)).getD false))
    else s
  | none => s

/-- BURST_DONE (R65): as many samples as width said at the firing, at most 1,024, are in the sample buffer. -/
def burstDone (s : State) (samples : List (BitVec 12)) : State :=
  match s.bal.burst with
  | none => s
  | some (n, width) =>
    let s := ((samples.take width).zipIdx).foldl (fun s e => s.set (Reg.BAL_SAMPLE_sample e.2) e.1.toNat) s
    converterRelease ((s.onBal (fun b => { b with burst := none })).set (Reg.BAL_TT_STAT_burst_done n) 1)

/-- The fixing of a time trigger (R45): its firing LTB is lead before the target. -/
def ttFix (s : State) (n : Nat) : State :=
  let x := s.ttOf n
  let lead := s.get (Reg.BAL_TT_CTRL_lead n)
  if s.on (Reg.BAL_TT_STAT_armed n) && x.fixed.isNone && targetNear s x.target lead then
    s.setTt n { x with fixed := some (ltbOf s x.target - lead).toNat }
  else s

/-! ### The loop -/

/-- The cycle starts since the last one that had an accepted crossing. -/
def cyclesMissed (s : State) : Nat :=
  match s.bal.cycles.head?, s.bal.accepted with
  | some c, some k =>
    let n := (c.k + 2 ^ 32 - k) % 2 ^ 32
    if n < 2 ^ 31 then n else 0
  | _, _ => 0

/-- HOLDOVER is entered (R51). The holdover counts from the last accepted crossing, as in the worked example of R56. -/
def enterHoldover (s : State) : State :=
  let s := (s.set Reg.BAL_STATUS_state 3).set Reg.BAL_STATUS_slewing 0
  let s := s.onBal (fun b => { b with
    holdCycles := cyclesMissed s, slew := 0, setZc := [], setAin := [], steer := [],
    autoSwitch := false })
  (setPeriod s s.bal.pavg).raise 33

/-- What the Balance does with a phase error when it locks (R53): slew, or decide a step or a stall that begins
200 µs later. -/
def decidePhase (s : State) (e : Int) : State :=
  if e.natAbs ≤ s.get Reg.BAL_STEP_THR_step_thr * 1000 then
    (s.set Reg.BAL_STATUS_slewing 1).onBal (fun b => { b with slew := e })
  else s.onBal (fun b => { b with decision := some (s.ltb + 200000, e) })

/-- A phase error reduced to (−L/2, +L/2] (R53). -/
def reducePhase (e len : Int) : Int :=
  let r := e % max 1 len
  if 2 * r > len then r - len else r

/-- The current cycle moves by `x` ns: where its start would lie ahead, the cycle before it goes on (R57). -/
def shiftCycle (c : Cycle) (x now : Int) : Cycle :=
  let st := c.s + x
  if now < st then ⟨(c.k + 2 ^ 32 - 1) % 2 ^ 32, st - c.len, c.len⟩ else { c with s := st }

/-- BAL_SITE_PHASE takes effect at a crossing (R57): the angle does not move, so the model moves under it, by the amount
answered; that change is a phase error under R53. The angle holds the value it had until the model passes it (R43). -/
def sitePhaseApply (s : State) : Int × State :=
  let old := sitePhase s
  let d := signed 16 ((s.get Reg.BAL_SITE_PHASE_site_phase + 65536 - old) % 65536)
  match s.bal.cycles with
  | c :: r =>
    if d = 0 then (0, s.takeEffect [Reg.BAL_SITE_PHASE_site_phase])
    else
      let x := d * c.len / 65536
      let again := if (s.ltb : Int) < c.s + x then 1 else 0
      (x, (s.keepMapping.takeEffect [Reg.BAL_SITE_PHASE_site_phase]).onBal (fun b => { b with
        cycles := shiftCycle c x s.ltb :: r, holdCycles := b.holdCycles - again, floor := liveAngle s }))
  | [] => (0, s.takeEffect [Reg.BAL_SITE_PHASE_site_phase])

/-- The phase error of a site_phase applied in LOCKED joins what is still to slew, step or stall (R53, R57). -/
def siteError (s : State) (x : Int) : State :=
  if x = 0 then s
  else
    let waiting := match s.bal.decision with
      | some (_, e) => e
      | none => s.bal.slew
    decidePhase (s.onBal (fun b => { b with decision := none, slew := 0 })) (waiting - x)

/-- LOCKED is entered on a complete consistent set (R48, R51, R53, R56): `e` is the phase error of its last crossing, which is of the
start of cycle `k`, `ahead` where that cycle has not begun. A lock on the other input than the last one from ACQUIRE or HOLDOVER
is no switch of R48 and raises no EV037: DESIGN CHOICE (log 43). -/
def lockAcquired (s : State) (ain : Bool) (set : List Int) (e : Int) (k : Nat) (ahead : Bool) : State :=
  let fromHold := s.get Reg.BAL_STATUS_state == 3
  let mean := match set.head?, set.getLast? with
    | some z1, some z0 => (z1 - z0) * 128 / (set.length - 1)
    | _, _ => s.bal.p
  let s := if fromHold && decide (s.get Reg.BAL_GRID_CFG_hold_safe < s.bal.holdCycles + (if ahead then 1 else 0)) then
    s.set Reg.BAL_STATUS_cyc_valid 0 else s
  let s := (s.set Reg.BAL_STATUS_state 2).setb Reg.BAL_STATUS_source_act ain
  let s := s.onBal (fun b => { b with
    pavg := mean, setZc := [], setAin := [], miss := 0, missed := none,
    ainAll := true, zcGood := 0, slew := 0, accepted := some k })
  let s := setPeriod s mean
  let len := match s.bal.cycles.head? with
    | some c => c.len
    | none => 1
  (decidePhase s (reducePhase e len)).raise (if fromHold then 34 else 32)

/-- The set of consistent crossings after crossing `z` (R52). -/
def consistentSet (s : State) (set : List Int) (z : Int) : List Int :=
  let all := z :: set
  let gaps := List.zipWith (fun a b => a - b) all set
  match set with
  | [] => [z]
  | z0 :: _ =>
    let n : Int := gaps.length
    let sum := gaps.foldl (· + ·) 0
    let thr : Int := s.get Reg.BAL_LOCK_CFG_lock_thr * 1000
    if 2 * (z - z0) < 3 * nominalNs s ∧ gaps.all (fun g => decide ((n * g - sum).natAbs ≤ (n * thr).natAbs)) then all
    else [z]

/-- The interval from the previous accepted crossing lies in the frequency range (R50). -/
def inRange (s : State) (prev : Option Int) (z : Int) : Bool :=
  match prev with
  | none => true
  | some p =>
    let interval := z - p
    let nom := nominalNs s
    let n := max 1 ((2 * interval + nom) / (2 * nom))
    let (lo, hi) : Int × Int := if s.on Reg.BAL_GRID_CFG_nominal then (55, 65) else (45, 55)
    decide (0 < interval ∧ lo * interval ≤ n * 1000000000 ∧ n * 1000000000 ≤ hi * interval)

/-- A crossing outside the frequency range is rejected (R50). -/
def rangeReject (s : State) : State :=
  let s := (s.bump Reg.BAL_CNT_ZC_REJ).onBal (fun b => { b with rangeBad := b.rangeBad + 1 })
  if s.bal.rangeBad = 3 then
    let s := (s.set Reg.BAL_STATUS_freq_range_err 1).raise 38
    if s.get Reg.BAL_STATUS_state = 2 then enterHoldover s else s
  else s

/-- The largest correction per cycle, ns (R49). -/
def slewLim (s : State) : Int :=
  (atLeast1 (s.get Reg.BAL_LOOP_slew_max) : Int) * s.bal.p / (65536 * 128)

/-- The loop update of R49 with error `e`, shifts raised by `extra`: the new length of the cycle it corrects. Only in LOCKED does
it show in slewing (R51): a steering update in HOLDOVER leaves that bit as it is, DEDUCED (log 304). -/
def loopUpdate (s : State) (e : Int) (extra : Nat) : Int × State :=
  let p := s.bal.p + (e >>> (s.get Reg.BAL_LOOP_ki_shift + extra)) * 128
  let pavg := s.bal.pavg + ((p - s.bal.pavg) >>> s.get Reg.BAL_LOOP_kavg_shift)
  let s := setPeriod (s.onBal (fun b => { b with pavg := pavg })) p
  let lim := slewLim s
  let c := clampInt (-lim) lim (e >>> (s.get Reg.BAL_LOOP_kp_shift + extra))
  (p / 128 + c, if s.get Reg.BAL_STATUS_state = 2 then
      s.setb Reg.BAL_STATUS_slewing (decide (c.natAbs = lim.natAbs)) else s)

/-- The model cycle start nearest to `z`: its count, LTB, and whether it has begun (R49). -/
def nearestStart (c : Cycle) (z : Int) : Nat × Int × Bool :=
  if 2 * (z - c.s) ≤ c.len then (c.k, c.s, true) else ((c.k + 1) % 2 ^ 32, c.s + c.len, false)

/-- An accepted crossing in LOCKED: the loop is updated (R49, R51), unless a slew runs (R53). -/
def acceptLocked (s : State) (k : Nat) (e : Int) (begun : Bool) : State :=
  let s := (s.bump Reg.BAL_CNT_ZC_ACC).sset Reg.BAL_PHASE_ERR_phase_err e
  let s := s.onBal (fun b => { b with accepted := some k, miss := 0, ainAll := true, autoSwitch := false })
  if s.bal.slew ≠ 0 then s
  else
    let angle := liveAngle s
    let (len, s) := loopUpdate s e 0
    if begun then
      match s.bal.cycles with
      | c :: r => s.keepMapping.onBal (fun b => { b with cycles := { c with len := len } :: r, floor := angle })
      | [] => s
    else s.onBal (fun b => { b with nextLen := some len })

/-- A corrected crossing `z` of one input (R48-R52). A crossing of the input that AUTO does not use in LOCKED is neither
tested against the range nor counted: DESIGN CHOICE (log 44). In ACQUIRE and HOLDOVER a change of site_phase moves the
model at once and its phase error is what R53 finds at the lock: DESIGN CHOICE (log 45). -/
def crossing (s : State) (z : Int) (ain : Bool) : State :=
  let source := s.get Reg.BAL_GRID_CFG_source
  match s.bal.cycles.head? with
  | none => s
  | some c =>
    if balOff s || source == 0 && ain || source == 1 && !ain then s
    else
      let (k, st, begun) := nearestStart c z
      let e := z - st
      let within := decide (e.natAbs ≤ s.get Reg.BAL_LOCK_CFG_window * 1000)
      let locked := s.get Reg.BAL_STATUS_state == 2
      if locked && source == 2 && ain && !s.on Reg.BAL_STATUS_source_act then
        -- AUTO on GRID_ZC: the crossing only shows that GRID_AIN is good (R48)
        if within then s.onBal (fun b => { b with ainSeen := some k, lastAin := some z }) else s
      else if locked && source == 2 && !ain && s.on Reg.BAL_STATUS_source_act then
        -- AUTO on GRID_AIN: GRID_ZC returns after lock_count good crossings (R48)
        let good := if within then s.bal.zcGood + 1 else 0
        if within && decide (s.get Reg.BAL_GRID_CFG_lock_count ≤ good) then
          ((s.set Reg.BAL_STATUS_source_act 0).onBal (fun b =>
            { b with zcGood := 0, lastZc := some z, accepted := some k, miss := 0 })).raise 37
        else s.onBal (fun b => { b with zcGood := good, lastZc := if within then some z else b.lastZc })
      else if !inRange s (if ain then s.bal.lastAin else s.bal.lastZc) z then rangeReject s
      else
        let s := (s.set Reg.BAL_STATUS_freq_range_err 0).onBal (fun b => { b with rangeBad := 0 })
        let last := fun (s : State) => s.onBal (fun b =>
          if ain then { b with lastAin := some z } else { b with lastZc := some z })
        if locked then
          if within then
            let (x, s) := sitePhaseApply (acceptLocked (last s) k e begun)
            siteError s x
          else s.bump Reg.BAL_CNT_ZC_REJ
        else
          let set := consistentSet s (if ain then s.bal.setAin else s.bal.setZc) z
          let s := ((last s).bump Reg.BAL_CNT_ZC_ACC).sset Reg.BAL_PHASE_ERR_phase_err e
          let (x, s) := sitePhaseApply (s.onBal (fun b =>
            if ain then { b with setAin := set } else { b with setZc := set }))
          if max 2 (s.get Reg.BAL_GRID_CFG_rl_count) ≤ set.length then lockAcquired s ain set (e - x) k (!begun) else s

/-- GRID_ZC_EDGE (R47, R49): the edge of the chosen polarity, less zc_delay. -/
def gridZcEdge (s : State) (rising : Bool) : State :=
  if rising == s.on Reg.BAL_GRID_CFG_zc_invert then s
  else crossing s ((s.ltb : Int) - s.get Reg.BAL_ZC_DELAY_zc_delay) false

/-- GRID_AIN_CROSSING (R46, R47): interpolation between samples 10 µs apart, hysteresis, the converter's 12 µs
and zc_delay. -/
def gridAinCrossing (s : State) (t1 : Nat) (s1 s2 lowest highest : Int) : State :=
  let hyst : Int := s.get Reg.BAL_AIN_CFG_hyst
  if s1 < 0 ∧ 0 ≤ s2 ∧ lowest < -hyst ∧ hyst < highest then
    crossing s ((t1 : Int) + (-s1) * 10000 / (s2 - s1) - 12000 - s.get Reg.BAL_ZC_DELAY_zc_delay) true
  else s

/-- CROSSING_MISSED (R48, R51): the accept window of the current cycle's start closed without an accepted
crossing. -/
def crossingMissed (s : State) : State :=
  match s.bal.cycles.head? with
  | none => s
  | some c =>
    if s.get Reg.BAL_STATUS_state != 2 || s.bal.accepted == some c.k || s.bal.missed == some c.k ||
        decide ((s.ltb : Int) < c.s + s.get Reg.BAL_LOCK_CFG_window * 1000) then s
    else
      let all := s.bal.ainAll && s.bal.ainSeen == some c.k
      let s := s.onBal (fun b => { b with missed := some c.k, miss := b.miss + 1, ainAll := all })
      if s.bal.miss < atLeast1 (s.get Reg.BAL_GRID_CFG_miss_limit) then s
      else if s.get Reg.BAL_GRID_CFG_source == 2 && !s.on Reg.BAL_STATUS_source_act && all then
        s.onBal (fun b => { b with autoSwitch := true })
      else enterHoldover s

/-- The steering error of the ended cycle in ns: the mean of its samples (R55). -/
def steerError (s : State) (len : Int) : Option Int :=
  match s.bal.steer with
  | [] => none
  | l => some ((l.foldl (· + ·) 0) * len / (65536 * l.length))

/-- The length of a cycle that begins now (R49, R53, R55). -/
def newLength (s : State) (oldLen : Int) : Int × State :=
  let state := s.get Reg.BAL_STATUS_state
  match s.bal.nextLen with
  | some l => (l, s.onBal (fun b => { b with nextLen := none }))
  | none =>
    if state = 2 ∧ s.bal.slew ≠ 0 then
      let lim := slewLim s
      let c := clampInt (-lim) lim s.bal.slew
      let rest := s.bal.slew - c
      let ended := decide (rest.natAbs ≤ s.get Reg.BAL_LOCK_CFG_lock_thr * 1000)
      (s.bal.p / 128 + c, (s.onBal (fun b => { b with slew := if ended then 0 else rest })).setb
        Reg.BAL_STATUS_slewing (!ended))
    else match steerError s oldLen with
      | none => (s.bal.p / 128, s)
      | some e =>
        if state = 3 ∧ s.on Reg.BAL_CTRL_steer_en then loopUpdate s e (s.get Reg.BAL_LOOP_steer_shift)
        else (s.bal.p / 128, s)

/-- CYCLE_START (R44, R48, R55, R56). -/
def cycleStart (s : State) : State :=
  match s.bal.cycles with
  | [] => s
  | c :: r =>
    if balOff s || s.bal.stall.isSome || decide ((s.ltb : Int) < c.s + c.len) then s
    else
      let natural := (c.k + 1) % 2 ^ 32
      let load := s.bal.cycForce || s.bal.cycPend && s.get Reg.BAL_STATUS_state == 1
      let k := if load then s.get Reg.BAL_CYC_LOAD_cyc_load else natural
      let (len, s) := newLength s c.len
      let hold := if s.get Reg.BAL_STATUS_state = 3 then 1 else 0
      let moved := fun (m : Option Nat) => m.map (fun j => (j + k + 2 ^ 32 - natural) % 2 ^ 32)
      let angle := liveAngle s
      let s := s.keepMapping.onBal (fun b => { b with
        cycles := ⟨k, c.s + c.len, len⟩ :: (c :: r).take 15
        steer := [], holdCycles := b.holdCycles + hold,
        accepted := moved b.accepted, missed := moved b.missed, ainSeen := moved b.ainSeen,
        cycForce := false, cycPend := if load then false else b.cycPend,
        epochLatch := b.epochLatch || (load && k != natural),
        floor := if load && k != natural then k * 65536 else angle })
      let s := if load then s.set Reg.BAL_STATUS_cyc_valid 1 else s
      let s := if load && k != natural then ttPassed s (liveAngle s) else s
      if s.bal.autoSwitch then
        ((s.set Reg.BAL_STATUS_source_act 1).onBal (fun b =>
          { b with autoSwitch := false, miss := 0, ainAll := true, zcGood := 0 })).raise 37
      else s

/-- The cycle count of the next epoch boundary after grid cycle `k` (R70): cycle 0 after the wrap is one (R43). -/
def nextEpochCycle (s : State) (k : Nat) : Nat :=
  let n := max 1 (s.cur Reg.BAL_EPOCH_LEN_epoch_len)
  let m := (k / n + 1) * n
  if 2 ^ 32 ≤ m then 0 else m

/-- PHASE_STEP (R53, R54): the angle steps forward; skipped targets are late. An epoch boundary in the skipped range is
latched at the step, also one that was fixed for a later LTB: DESIGN CHOICE (log 46). -/
def phaseStep (s : State) : State :=
  match s.bal.decision, s.bal.cycles with
  | some (at_, e), c :: r =>
    if decide (s.ltb < at_) || decide (0 ≤ e) || balOff s then s
    else
      let m := nextEpochCycle s (liveAngle s / 65536)
      let s := s.keepMapping.onBal (fun b => { b with cycles := { c with s := c.s + e } :: r, decision := none })
      let a := angleAhead s s.ltb
      let s := s.onBal (fun b => { b with
        epochLatch := b.epochLatch || m != b.epochLast && !angleAfter (m * 65536) a })
      (ttPassed s a).raise 35
  | _, _ => s

/-- STALL_START (R53): the angle holds its value. -/
def stallStart (s : State) : State :=
  match s.bal.decision with
  | some (at_, e) =>
    if decide (s.ltb < at_) || decide (e ≤ 0) || balOff s then s
    else
      let a := liveAngle s
      (s.keepMapping.onBal (fun b => { b with decision := none, stall := some (s.ltb + e.toNat, a, e.toNat) })).raise 36
  | none => s

/-- STALL_END (R53): the angle goes on from the value it held. -/
def stallEnd (s : State) : State :=
  match s.bal.stall, s.bal.cycles with
  | some (end_, a, e), c :: r =>
    if s.ltb < end_ then s
    else s.keepMapping.onBal (fun b => { b with stall := none, floor := a, cycles := { c with s := c.s + e } :: r })
  | _, _ => s

/-! ### Enable, loads, snapshot -/

/-- BAL_ENABLE (R19, R48, R51). What the registers hold is in force (R9). source_act keeps what it read until a lock sets it,
across a disable as well: DESIGN CHOICE (log 43). -/
def balEnable (s : State) : State :=
  if s.on Reg.BAL_CTRL_enable || s.on Reg.BAL_STATUS_refclk_unlocked then s
  else
    let (ok, s) := if s.get Reg.BAL_GRID_CFG_source = 0 then (true, s) else claimAll s 0x0E [14]
    if !ok then s
    else
      let p := nominalNs s * 128
      let s := s.onBal (fun b => { ({} : Bal) with
        cycles := [⟨0, s.ltb, nominalNs s⟩], pavg := p, enabledAt := s.ltb
        cycPend := b.cycPend, ptpSec := b.ptpSec, ptpNs := b.ptpNs, ptpLtb := b.ptpLtb, ppsSec := b.ppsSec
        tt := b.tt, burst := b.burst, cmp := b.cmp, tci := b.tci, ppsInLast := b.ppsInLast
        ppsPulseEnd := b.ppsPulseEnd, tsf := b.tsf, drq := b.drq })
      let s := (setPeriod s p).set Reg.BAL_CTRL_enable 1
      let s := ((s.set Reg.BAL_STATUS_state 1).set Reg.BAL_STATUS_cyc_valid 0).set Reg.BAL_STATUS_slewing 0
      let s := { s with slp := { s.slp with since := s.ltb }, amc := { s.amc with ebDone := [] } }
      ((s.set Reg.BAL_STATUS_freq_range_err 0).set Reg.BAL_EPOCH_NUM_epoch_num 0).takeEffect
        [Reg.BAL_SITE_PHASE_site_phase, Reg.BAL_EPOCH_LEN_epoch_len]

/-- A trigger disarms with the Balance, until its target is committed again (R51). -/
def ttForget (s : State) (n : Nat) : State :=
  let s := ttDisarm s n
  s.setTt n { s.ttOf n with committed := false }

/-- BAL_DISABLE (R40, R51): OFF from any state; every trigger disarms. -/
def balDisable (s : State) : State :=
  if !s.on Reg.BAL_CTRL_enable then s
  else
    let s := ((s.set Reg.BAL_CTRL_enable 0).set Reg.BAL_STATUS_state 0).set Reg.BAL_STATUS_slewing 0
    let s := s.onBal (fun b => { b with
      cycles := [], before := [], decision := none, stall := none, slew := 0,
      epochLatch := false, epochFixed := none, steer := [] })
    -- receive occurrences close (R234)
    let s := { s with esc := { s.esc with open_ := [] } }
    releaseAll ((List.range 8).foldl ttForget s) 0x0E [14]

/-- CYC_FORCE (R56). -/
def cycForce (s : State) : State :=
  if balOff s then s else s.onBal (fun b => { b with cycForce := true })

/-- SNAP (chapter 02, register table). -/
def snap (s : State) : State :=
  let a := liveAngle s
  let (sec, ns) := ptpAt s s.ltb
  let s := (s.set Reg.BAL_SNAP_ANGLE_LO_angle_lo a).set Reg.BAL_SNAP_ANGLE_HI_angle_hi (a / 2 ^ 32)
  let s := (s.set Reg.BAL_SNAP_LTB_LO_ltb_lo s.ltb).set Reg.BAL_SNAP_LTB_HI_ltb_hi (s.ltb / 2 ^ 32)
  let s := (s.set Reg.BAL_SNAP_PTP_SEC_LO_sec_lo sec).set Reg.BAL_SNAP_PTP_SEC_HI_sec_hi (sec / 2 ^ 32)
  s.set Reg.BAL_SNAP_PTP_NS_ns ns

/-! ### The statistics epoch -/

/-- The fixing of the epoch boundary (R45): one that has been taken, at its fixed LTB, is not fixed again while the angle has yet
to pass it. -/
def epochFix (s : State) : State :=
  let m := nextEpochCycle s (liveAngle s / 65536)
  if !balOff s && s.bal.epochFixed.isNone && m != s.bal.epochLast && targetNear s (m * 65536) 0 then
    s.onBal (fun b => { b with epochFixed := some ((ltbOf s (m * 65536)).toNat, m) })
  else s

/-- An epoch boundary is due, with its cycle count (R51, R54, R56, R70). -/
def epochDue (s : State) : Option Nat :=
  if balOff s then none
  else
    let k := liveAngle s / 65536
    if s.bal.epochLatch then some k
    else match s.bal.epochFixed with
      | some (f, m) => if f ≤ s.ltb then some m else none
      | none =>
        if k % max 1 (s.cur Reg.BAL_EPOCH_LEN_epoch_len) = 0 ∧ k ≠ s.bal.epochLast then some k else none

/-- The Balance's own part of an epoch boundary (R70). -/
def balEpoch (s : State) (k : Nat) : State :=
  let s := s.onBal (fun b => { b with epochLatch := false, epochFixed := none, epochLast := k })
  let s := s.takeEffect [Reg.BAL_EPOCH_LEN_epoch_len]
  let s := s.set Reg.BAL_EPOCH_NUM_epoch_num (s.get Reg.BAL_EPOCH_NUM_epoch_num + 1)
  let s := if s.on Reg.BAL_EPOCH_STAT_unread then s.set Reg.BAL_EPOCH_STAT_overrun 1 else s
  (s.set Reg.BAL_EPOCH_STAT_unread 1).raise 40

/-! ### Capture, comparators, PTP, PPS, reports -/

/-- TCI_ENABLE (R67). -/
def tciEnable (s : State) (n : Nat) : State :=
  if s.on (Reg.BAL_TCI_CTRL_en n) then s
  else match claimAll s (0x0A + n) [9 + n] with
    | (true, s) => s.set (Reg.BAL_TCI_CTRL_en n) 1
    | (false, s) => s

/-- Writing en 0 to a capture input (R40). -/
def tciDisable (s : State) (n : Nat) : State :=
  releaseAll (s.set (Reg.BAL_TCI_CTRL_en n) 0) (0x0A + n) [9 + n]

/-- The capture side of an edge at TCIn (R67). -/
def tciCapture (s : State) (n : Nat) (rising : Bool) (widthNs : Nat) : State :=
  let edge := s.get (Reg.BAL_TCI_CTRL_edge n)
  let wanted := edge == 3 || (edge == 1 && rising) || (edge == 2 && !rising)
  if !s.on (Reg.BAL_TCI_CTRL_en n) || !wanted ||
      decide (widthNs < s.get (Reg.BAL_TCI_CTRL_filter n) * 4) then s
  else
    let fifo := tabGetD s.bal.tci n []
    if 4 ≤ fifo.length then (s.set (Reg.BAL_TCI_STAT_overrun n) 1).raise 44 n
    else
      let s := s.onBal (fun b => { b with tci := tabPut b.tci n (fifo ++ [⟨s.ltb, angleAt s s.ltb, rising⟩]) })
      if s.on (Reg.BAL_TCI_CTRL_ev_en n) then s.raise 43 n else s

/-- POP (R67). -/
def tciPop (s : State) (n : Nat) : State :=
  s.onBal (fun b => { b with tci := tabPut b.tci n ((tabGetD b.tci n []).drop 1) })

/-- The comparator belongs to SLP or TWN, and carries that block's internal timing: writes to its registers are ignored (R69). -/
def cmpForeign (s : State) (k : Nat) : Bool :=
  match tabGet s.claims (16 + k) with
  | some h => !h.fw
  | none => false

/-- CMP_ENABLE (R69). A refusal for want of a firmware holder is recorded with req_feature 0 and code HELD, for which the
manual gives no values: DESIGN CHOICE (log 47). -/
def cmpEnable (s : State) (k : Nat) : State :=
  if cmpForeign s k || s.on (Reg.BAL_CMP_CTRL_en k) then s
  else match tabGet s.claims (16 + k) with
    | some _ => s.set (Reg.BAL_CMP_CTRL_en k) 1
    | none => claimRefused s 0 (16 + k)

/-- Disarms comparator `k` and clears its en (R69). -/
def cmpDisable (s : State) (k : Nat) : State :=
  (s.set (Reg.BAL_CMP_CTRL_en k) 0).set (Reg.BAL_CMP_CTRL_armed k) 0

/-- The internal timing that comparator `k` carries for SLP or TWN moves on (R69). Its registers read the target and the state
that it has from then on, which the manual does not give: free values (log 2, 282). -/
def cmpCarry (s : State) (k : Nat) : State :=
  let (target, s) := s.drawFree (2 ^ 64)
  let (state, s) := s.drawFree (2 ^ 32)
  let s := (s.set (Reg.BAL_CMP_LO_tgt_lo k) target).set (Reg.BAL_CMP_HI_tgt_hi k) (target / 2 ^ 32)
  let s := (s.set (Reg.BAL_CMP_CTRL_en k) state).set (Reg.BAL_CMP_CTRL_fired k) (state / 2 ^ 8)
  (s.set (Reg.BAL_CMP_CTRL_late k) (state / 2 ^ 9)).set (Reg.BAL_CMP_CTRL_armed k) (state / 2 ^ 10)

/-- The committed target of comparator `k`. -/
def cmpTarget (s : State) (k : Nat) : Nat := tabGetD s.bal.cmp k 0

/-- Comparator `k` fires (R68). -/
def cmpFires (s : State) (k : Nat) : State :=
  let s := s.set (Reg.BAL_CMP_CTRL_fired k) 1
  let s := if s.on (Reg.BAL_CMP_CTRL_ev_en k) then s.raise 39 k else s
  let period := s.get (Reg.BAL_CMP_PER_period k)
  if period = 0 then s.set (Reg.BAL_CMP_CTRL_armed k) 0
  else
    s.onBal (fun b => { b with cmp := tabPut b.cmp k ((cmpTarget s k + period) % 2 ^ 64) })

/-- CMP_COMMIT (R68). -/
def cmpCommit (s : State) (k hi : Nat) : State :=
  if cmpForeign s k then s
  else
    let s := s.set (Reg.BAL_CMP_HI_tgt_hi k) hi
    let target := s.get (Reg.BAL_CMP_HI_tgt_hi k) * 2 ^ 32 + s.get (Reg.BAL_CMP_LO_tgt_lo k)
    let s := s.onBal (fun b => { b with cmp := tabPut b.cmp k target })
    if !s.on (Reg.BAL_CMP_CTRL_en k) then s
    else
      let s := s.set (Reg.BAL_CMP_CTRL_armed k) 1
      if target ≤ s.ltb then cmpFires (s.set (Reg.BAL_CMP_CTRL_late k) 1) k else s

/-- CMP_FIRE (R68): due once the LTB has reached the target. -/
def cmpFire (s : State) (k : Nat) : State :=
  if !cmpForeign s k && s.on (Reg.BAL_CMP_CTRL_armed k) && decide (cmpTarget s k ≤ s.ltb) then cmpFires s k else s

/-- PTP time is rebased at the current LTB: a second that the clock is set into is no second boundary (R63). -/
def ptpRebase (s : State) (sec ns : Nat) : State :=
  s.onBal (fun b => { b with ptpSec := sec, ptpNs := ns, ptpLtb := s.ltb, ppsSec := if ns = 0 then b.ppsSec else sec })

/-- PTP_SET (R62). -/
def ptpSet (s : State) (ns : Nat) : State :=
  (ptpRebase s (s.get Reg.BAL_PTP_SET_SEC_HI_set_sec_hi * 2 ^ 32 + s.get Reg.BAL_PTP_SET_SEC_LO_set_sec_lo)
    ns).raise 48

/-- PTP_ADJ (R62). -/
def ptpAdj (s : State) (adj : Int) : State :=
  let (sec, ns) := ptpAt s s.ltb
  let t : Int := (sec : Int) * 1000000000 + ns + adj
  (ptpRebase s (t / 1000000000 % 2 ^ 48).toNat (t % 1000000000).toNat).raise 48

/-- A write of BAL_PTP_RATE (R62): the new rate runs from now. -/
def ptpRate (s : State) (rate : Nat) : State :=
  let (sec, ns) := ptpAt s s.ltb
  (ptpRebase s sec ns).set Reg.BAL_PTP_RATE_rate rate

/-- PPS_OUT_ENABLE (R63). -/
def ppsOutEnable (s : State) : State :=
  if s.on Reg.BAL_PTP_CTRL_pps_out_en then s
  else match claimAll s 0x09 [13] with
    | (true, s) =>
      ((s.set Reg.BAL_PTP_CTRL_pps_out_en 1).drive .ppsOut false).onBal (fun b =>
        { b with ppsSec := (ptpAt s s.ltb).1 })
    | (false, s) => s

/-- Writing pps_out_en 0 (R40). -/
def ppsOutDisable (s : State) : State :=
  if !s.on Reg.BAL_PTP_CTRL_pps_out_en then s
  else releaseAll (((s.set Reg.BAL_PTP_CTRL_pps_out_en 0).undrive .ppsOut).onBal (fun b =>
    { b with ppsPulseEnd := none })) 0x09 [13]

/-- PPS_PULSE (R63): a PTP second has begun. -/
def ppsPulse (s : State) : State :=
  let sec := (ptpAt s s.ltb).1
  if !s.on Reg.BAL_PTP_CTRL_pps_out_en || sec == s.bal.ppsSec then s
  else (s.drive .ppsOut true).onBal (fun b => { b with
    ppsSec := sec,
    ppsPulseEnd := some (s.ltb + s.get Reg.BAL_PTP_CTRL_pps_width * 1000000) })

/-- PPS_PULSE_END (R63). -/
def ppsPulseEnd (s : State) : State :=
  match s.bal.ppsPulseEnd with
  | some e => if e ≤ s.ltb then (s.drive .ppsOut false).onBal (fun b => { b with ppsPulseEnd := none }) else s
  | none => s

/-- PPS_IN_EDGE (R60, R63). -/
def ppsInEdge (s : State) : State :=
  if !s.on Reg.BAL_PTP_CTRL_pps_in_en then s
  else
    let s := (s.set Reg.BAL_PPS_IN_LTB_LO_ltb_lo s.ltb).set Reg.BAL_PPS_IN_LTB_HI_ltb_hi (s.ltb / 2 ^ 32)
    (s.set Reg.BAL_PPS_IN_NS_ns (ptpAt s s.ltb).2).onBal (fun b => { b with ppsInLast := some s.ltb })

/-- PPS_IN_MISSING (R63). -/
def ppsInMissing (s : State) : State :=
  match s.bal.ppsInLast with
  | some l =>
    if s.on Reg.BAL_PTP_CTRL_pps_in_en && decide (l + 1500000000 ≤ s.ltb) then
      (s.onBal (fun b => { b with ppsInLast := none })).raise 46
    else s
  | none => s

/-- A timestamp report enters FIFO `i` (R64); false where it is lost. EV045 has no arguments in R335, so they read 0
(R334). -/
def tsfPush (s : State) (i : Nat) (r : TsReport) : Bool × State :=
  let fifo := tabGetD s.bal.tsf i []
  if 64 ≤ fifo.length then (false, (s.bump (Reg.BAL_TSF_STAT_lost i).off).raise 45)
  else (true, s.onBal (fun b => { b with tsf := tabPut b.tsf i (fifo ++ [r]) }))

/-- The report of `ref` leaves FIFO `i` when its completion is written (R64). -/
def tsfTake (s : State) (i ref : Nat) : Option TsReport × State :=
  let fifo := tabGetD s.bal.tsf i []
  (fifo.find? (fun r => r.ref == ref),
    s.onBal (fun b => { b with tsf := tabPut b.tsf i (fifo.filter (fun r => r.ref != ref)) }))

end Sys2Proof.Machine
end

