-- ==== Sys2Proof/Machine/Store.lean ====
section
/-! DEFINITION. The Context Store (R281): bytes, words, fields of contexts (R283, R284, R286), and entries of the
Node Table (R252). An unlisted byte reads 0: the self-test leaves every word 0 (R297). -/

namespace Sys2Proof.Machine

/-! ### Bytes -/

/-- Size of the Context Store in bytes. -/
def storeSize : Nat := 0x2000000

/-- Octets of the store. -/
def State.octets (s : State) (a n : Nat) : List Byte := (List.range n).map (fun i => cellRead s.store (a + i))

def State.setOctets (s : State) (a : Nat) (l : List Byte) : State := { s with store := cellsWrite s.store a l }

/-- A 32-bit word of the store, little-endian. -/
def State.word (s : State) (a : Nat) : Nat := ofLe (s.octets a 4)

def State.setWord (s : State) (a v : Nat) : State := s.setOctets a (leOctets 4 v)

/-! ### Contexts -/

/-- A field of a context: byte offset of its first word, bit in it, width (up to 64 across words). -/
structure CFld where
  off : Nat
  lo  : Nat
  w   : Nat

/-- Address of context `k`. -/
def ctxBase (k : Nat) : Nat := 192 * k

/-- A field of context `k`. -/
def State.cget (s : State) (k : Nat) (f : CFld) : Nat := bits (ofLe (s.octets (ctxBase k + f.off) 8)) f.lo f.w

/-- A field of context `k` read as a signed number. -/
def State.csget (s : State) (k : Nat) (f : CFld) : Int := signed f.w (s.cget k f)

/-- Sets bits [lo, lo+w) of a number. -/
def putBits (x lo w v : Nat) : Nat := x / 2 ^ (lo + w) * 2 ^ (lo + w) + v % 2 ^ w * 2 ^ lo + x % 2 ^ lo

/-- Sets a field of context `k`; the context's dirty bit is set (R291). -/
def State.cset (s : State) (k : Nat) (f : CFld) (v : Nat) : State :=
  let a := ctxBase k + f.off
  let s := s.setOctets a (leOctets 8 (putBits (ofLe (s.octets a 8)) f.lo f.w v))
  { s with ctx := { s.ctx with dirty := addOnce s.ctx.dirty k } }

def State.csset (s : State) (k : Nat) (f : CFld) (i : Int) : State := s.cset k f (unsigned f.w i)

def Cx.eui64 : CFld := ⟨0x00, 0, 64⟩
def Cx.short_addr : CFld := ⟨0x08, 0, 16⟩
def Cx.valid : CFld := ⟨0x08, 16, 1⟩
def Cx.mains : CFld := ⟨0x08, 17, 1⟩
def Cx.slp_valid : CFld := ⟨0x08, 18, 1⟩
def Cx.slp_class : CFld := ⟨0x08, 19, 3⟩
def Cx.suspend : CFld := ⟨0x08, 22, 1⟩
def Cx.unsec_ok : CFld := ⟨0x08, 23, 1⟩
def Cx.sub_prof : CFld := ⟨0x08, 24, 6⟩
def Cx.tx_profile : CFld := ⟨0x0C, 0, 5⟩
def Cx.sec_level : CFld := ⟨0x0C, 5, 3⟩
def Cx.lgroup : CFld := ⟨0x0C, 8, 8⟩
def Cx.key_slot : CFld := ⟨0x0C, 16, 10⟩
def Cx.sched_ofs : CFld := ⟨0x10, 0, 20⟩
def Cx.tx_fc : CFld := ⟨0x40, 0, 32⟩
def Cx.fc_limit : CFld := ⟨0x44, 0, 32⟩
def Cx.rx_fc : CFld := ⟨0x48, 0, 32⟩
def Cx.last_dsn : CFld := ⟨0x4C, 0, 8⟩
def Cx.dsn_valid : CFld := ⟨0x4C, 8, 1⟩
def Cx.rx_fc_valid : CFld := ⟨0x4C, 9, 1⟩
def Cx.fc_req : CFld := ⟨0x4C, 10, 1⟩
def Cx.q_pref : CFld := ⟨0x4C, 16, 8⟩
def Cx.q_alt : CFld := ⟨0x4C, 24, 8⟩
def Cx.dsn_time : CFld := ⟨0x50, 0, 32⟩
def Cx.t_pref : CFld := ⟨0x54, 0, 32⟩
def Cx.t_alt : CFld := ⟨0x58, 0, 32⟩
def Cx.tok : CFld := ⟨0x5C, 0, 40⟩
def Cx.prof_cur : CFld := ⟨0x60, 8, 6⟩
def Cx.prof_gen : CFld := ⟨0x60, 14, 8⟩
def Cx.t_last : CFld := ⟨0x64, 0, 48⟩
def Cx.cur_rate : CFld := ⟨0x6C, 0, 32⟩
def Cx.cur_burst : CFld := ⟨0x70, 0, 24⟩
def Cx.q_head : CFld := ⟨0x74, 0, 14⟩
def Cx.q_tail : CFld := ⟨0x74, 14, 14⟩
def Cx.qlen : CFld := ⟨0x78, 0, 6⟩
def Cx.rx_count : CFld := ⟨0x7C, 0, 16⟩
def Cx.tx_count : CFld := ⟨0x7C, 16, 16⟩
def Cx.anchor : CFld := ⟨0x80, 0, 64⟩
def Cx.drift : CFld := ⟨0x88, 0, 32⟩
def Cx.period_nom : CFld := ⟨0x8C, 0, 24⟩
def Cx.fb_next : CFld := ⟨0x8C, 24, 8⟩
def Cx.sd : CFld := ⟨0x90, 0, 16⟩
def Cx.u0 : CFld := ⟨0x90, 16, 16⟩
def Cx.hs_valid : CFld := ⟨0x94, 0, 1⟩
def Cx.oos : CFld := ⟨0x94, 1, 2⟩
def Cx.miss : CFld := ⟨0x94, 3, 4⟩
def Cx.offset : CFld := ⟨0x98, 0, 20⟩
def Cx.conf : CFld := ⟨0x98, 20, 4⟩
def Cx.ofs_miss : CFld := ⟨0x98, 24, 4⟩
def Cx.ofs_valid : CFld := ⟨0x98, 28, 1⟩
def Cx.rssi_avg : CFld := ⟨0x9C, 0, 8⟩
def Cx.lqi_avg : CFld := ⟨0x9C, 8, 8⟩

/-- The defined bits of context word `m` (R283, R284, R286); the others are reserved and read 0. -/
def ctxWordMask (m : Nat) : Nat :=
  let all := 2 ^ 32 - 1
  match m with
  | 2 => 2 ^ 30 - 1
  | 3 => 0x03FFFFFF
  | 4 => 0x000FFFFF
  | 19 => 0xFFFF07FF
  | 24 => 0x003FFFFF
  | 26 => 0x0000FFFF
  | 28 => 0x00FFFFFF
  | 29 => 0x0FFFFFFF
  | 30 => 0x0000003F
  | 37 => 0x0000007F
  | 38 => 0x1FFFFFFF
  | 39 => 0x0000FFFF
  | _ => if m < 40 then all else 0

/-- Word `m` of context `k` is written with its defined bits. -/
def ctxSetWord (s : State) (k m v : Nat) : State := s.setWord (ctxBase k + 4 * m) (v &&& ctxWordMask m)

def markDirty (s : State) (k : Nat) : State := { s with ctx := { s.ctx with dirty := addOnce s.ctx.dirty k } }

def ctxValid (s : State) (k : Nat) : Bool := s.cget k Cx.valid == 1

/-- A time in ms as contexts keep it (R284). -/
def msOf (ltb : Nat) : Nat := ltb / 1000000 % 2 ^ 32

/-- Differences of such times are taken modulo 2³² (R284). -/
def msSince (now was : Nat) : Nat := (now + 2 ^ 32 - was % 2 ^ 32) % 2 ^ 32

/-! ### The Node Table -/

/-- Address of entry `i`. -/
def ntBase (i : Nat) : Nat := 0x1800000 + 16 * i

/-- Entry `i` as its 128 bits (R252). -/
def ntBits (s : State) (i : Nat) : Nat := ofLe (s.octets (ntBase i) 16)

def ntWrite (s : State) (i v : Nat) : State := s.setOctets (ntBase i) (leOctets 16 v)

/-- Fields of an entry: bit and width. -/
structure NFld where
  lo : Nat
  w  : Nat

def Nt.key : NFld := ⟨0, 64⟩
def Nt.ctx : NFld := ⟨64, 17⟩
/-- parent of a primary entry, prim of an alias -/
def Nt.parent : NFld := ⟨81, 18⟩
def Nt.pref : NFld := ⟨99, 8⟩
def Nt.alt : NFld := ⟨107, 8⟩
def Nt.mh : NFld := ⟨115, 1⟩
def Nt.refs : NFld := ⟨116, 8⟩
def Nt.kind : NFld := ⟨124, 1⟩
def Nt.valid : NFld := ⟨125, 1⟩
def Nt.ver : NFld := ⟨126, 2⟩

def nget (s : State) (i : Nat) (f : NFld) : Nat := bits (ntBits s i) f.lo f.w
def nset (s : State) (i : Nat) (f : NFld) (v : Nat) : State := ntWrite s i (putBits (ntBits s i) f.lo f.w v)

/-- The site, and none, as parents (R252). -/
def ntSite : Nat := 0x3FFFF
def ntNone : Nat := 0x3FFFE

/-! ### Buffers (R282) -/

/-- Buffers that `n` octets take. -/
def buffersFor (n : Nat) : Nat := (n + 255) / 256

def poolFree (s : State) (p : Nat) : Nat := s.get (Reg.CTX_POOL_FREE_free p)

/-- Takes `n` buffers of pool `p`. -/
def poolTake (s : State) (p n : Nat) : State := s.set (Reg.CTX_POOL_FREE_free p) (poolFree s p - n)

/-- Gives `n` buffers of pool `p` back; those of the twin link are credits for the partner (R384). -/
def poolGive (s : State) (p n : Nat) : State :=
  let s := s.set (Reg.CTX_POOL_FREE_free p) (min (s.get (Reg.CTX_POOL_CNT_count p)) (poolFree s p + n))
  if p = 5 ∧ n ≠ 0 then s.emit (.twinCredit n) else s

/-- First buffer of pool `p`: pools take consecutive ranges in order. -/
def poolBase (s : State) (p : Nat) : Nat :=
  ((List.range p).map (fun q => s.get (Reg.CTX_POOL_CNT_count q))).foldl (· + ·) 0

/-- The event is raised at most once in a statistics epoch. -/
def raiseFirst (s : State) (ev : Nat) (a0 a1 a2 : Nat := 0) : State :=
  if s.once.contains ev then s
  else ({ s with once := ev :: s.once } : State).raise ev a0 a1 a2

end Sys2Proof.Machine
end

