-- ==== Sys2Proof/Machine/Mac.lean ====
section
/-! DEFINITION. Frames of IEEE 802.15.4-2020 as the manual uses them: the MHR with its auxiliary security header and
Header IEs (R175), Kazong IEs (R191-R194), acknowledgements (R183) and beacons (R196). The layouts the manual takes
from the standard are PRESUMED (log 12). -/

namespace Sys2Proof.Machine

/-- A parsed MHR. Addresses and PAN IDs as numbers; modes 0 none, 2 short, 3 extended. `hdr` is the length of
everything up to and with the Header IEs, `ends` says what terminated them: 0 nothing, 1 HT1, 2 HT2. -/
structure Mhr where
  type    : Nat
  ver     : Nat
  sec     : Bool
  ar      : Bool
  dsn     : Option Nat
  dstMode : Nat
  srcMode : Nat
  dstPan  : Option Nat
  srcPan  : Option Nat
  dst     : Nat
  src     : Nat
  level   : Nat := 0
  keyMode : Nat := 0
  fcSupp  : Bool := false
  fc      : Nat := 0
  keyIdx  : Nat := 0
  ies     : List (Nat × List Byte) := []
  ends    : Nat := 0
  hdr     : Nat
deriving DecidableEq, Repr

/-- Which PAN IDs a frame carries: destination, source (IEEE 802.15.4-2020, table of the PAN ID Compression
field). -/
def panFields (ver dstMode srcMode : Nat) (comp : Bool) : Bool × Bool :=
  if ver < 2 then
    (dstMode != 0, srcMode != 0 && !(comp && dstMode != 0))
  else if dstMode = 0 ∧ srcMode = 0 then (comp, false)
  else if srcMode = 0 then (!comp, false)
  else if dstMode = 0 then (false, !comp)
  else if dstMode = 3 ∧ srcMode = 3 then (!comp, false)
  else (true, !comp)

/-- Octets of an address. -/
def addrLen : Nat → Nat
  | 2 => 2
  | 3 => 8
  | _ => 0

/-- A reader: the value of `n` octets at the front, and what follows; none where the frame is shorter. -/
def takeLe (n : Nat) (l : List Byte) : Option (Nat × List Byte) :=
  if n ≤ l.length then some (ofLe (l.take n), l.drop n) else none

/-- The Header IEs at the front of `l`: the IEs, what ended them, and what follows; fewer than `k` of them. -/
def headerIes : Nat → List Byte → Option (List (Nat × List Byte) × Nat × List Byte)
  | 0, _ => none
  | k + 1, l =>
    if l.isEmpty then some ([], 0, [])
    else match takeLe 2 l with
      | none => none
      | some (d, r) =>
        let id := bits d 7 8
        if d / 2 ^ 15 = 1 then none
        else if id = 0x7E then some ([], 1, r)
        else if id = 0x7F then some ([], 2, r)
        else
          let n := bits d 0 7
          if r.length < n then none
          else match headerIes k (r.drop n) with
            | some (es, e, r') => some ((id, r.take n) :: es, e, r')
            | none => none

/-- The auxiliary security header: level, key mode, counter suppressed, counter, key index; and what follows. -/
def auxHeader (l : List Byte) : Option ((Nat × Nat × Bool × Nat × Nat) × List Byte) := do
  let (c, l) ← takeLe 1 l
  let supp := bits c 5 1 == 1
  let mode := bits c 3 2
  let (fc, l) ← if supp then some (0, l) else takeLe 4 l
  let n := if mode = 2 then 4 else if mode = 3 then 8 else 0
  let (_, l) ← takeLe n l
  let (k, l) ← if mode = 0 then some (0, l) else takeLe 1 l
  some ((bits c 0 3, mode, supp, fc, k), l)

/-- The MHR of a PSDU without FCS; none where a field that its frame control announces is missing (R175). -/
def parseMhr (p : List Byte) : Option Mhr := do
  let (fcf, l) ← takeLe 2 p
  let ver := bits fcf 12 2
  let dm := bits fcf 10 2
  let sm := bits fcf 14 2
  if dm = 1 ∨ sm = 1 then none
  else
    let (hasDst, hasSrc) := panFields ver dm sm (bits fcf 6 1 == 1)
    let supp := ver == 2 && bits fcf 8 1 == 1
    let (dsn, l) ← if supp then some (0, l) else takeLe 1 l
    let (dp, l) ← takeLe (if hasDst then 2 else 0) l
    let (dst, l) ← takeLe (addrLen dm) l
    let (sp, l) ← takeLe (if hasSrc then 2 else 0) l
    let (src, l) ← takeLe (addrLen sm) l
    let sec := bits fcf 3 1 == 1
    let (aux, l) ← if sec then auxHeader l else some ((0, 0, false, 0, 0), l)
    let (es, e, l) ← if ver == 2 && bits fcf 9 1 == 1 then headerIes (l.length + 1) l else some ([], 0, l)
    some {
      type := bits fcf 0 3, ver := ver, sec := sec, ar := bits fcf 5 1 == 1
      dsn := if supp then none else some dsn
      dstMode := dm, srcMode := sm
      dstPan := if hasDst then some dp else none
      srcPan := if hasSrc then some sp else none
      dst := dst, src := src
      level := aux.1, keyMode := aux.2.1, fcSupp := aux.2.2.1, fc := aux.2.2.2.1, keyIdx := aux.2.2.2.2
      ies := es, ends := e, hdr := p.length - l.length }

/-! ### Kazong IEs (R191) -/

/-- The vendor identifier as sent. -/
def kazongVendor : List Byte := [0x1C, 0xD4, 0x9A]

/-- A Kazong Vendor Specific Header IE. -/
def kazongIe (subtype : Nat) (body : List Byte) : List Byte :=
  leOctets 2 ((body.length + 4) % 128) ++ kazongVendor ++ [BitVec.ofNat 8 subtype] ++ body

/-- A Header IE of another element ID. -/
def headerIe (id : Nat) (body : List Byte) : List Byte := leOctets 2 (body.length % 128 + 128 * id) ++ body

/-- The bodies of a frame's Kazong IEs of a subtype, in order. -/
def kazongBodies (m : Mhr) (subtype : Nat) : List (List Byte) :=
  (m.ies.filter (fun e => e.1 == 0 && e.2.take 3 == kazongVendor && octet e.2 3 == subtype && decide (4 ≤ e.2.length))).map
    (fun e => e.2.drop 4)

/-- The first body that has the length that R191 to R194 state; one of another length is not interpreted. -/
def kazongBodyOf (m : Mhr) (subtype len : Nat) : Option (List Byte) :=
  (kazongBodies m subtype).find? (fun b => b.length == len)

/-- A body has the length that its subtype's rule states (R191 to R194, R212, R383). The Schedule IE is not interpreted
(R235), and the other subtypes are reserved. -/
def kazongKnown : Nat → List Byte → Bool
  | 0x01, b => b.length == 3 || b.length == 7
  | 0x02, b => decide (octet b 0 ≤ 16 ∧ b.length = 1 + 4 * octet b 0)
  | 0x03, b => decide (2 ≤ b.length ∧ b.length ≤ 66 ∧ (b.length - 2) % 4 = 0)
  | 0x04, b => b.length == 17
  | 0x11, b => b.length == 5
  | 0x12, b => b.length == 7 || b.length == 4
  | _, _ => false

/-- The contents of a frame's Kazong IEs that go to the host unchanged (R191). -/
def hostIes (m : Mhr) : List (List Byte) :=
  (m.ies.filter (fun e => e.1 == 0 && e.2.take 3 == kazongVendor && decide (4 ≤ e.2.length) &&
    !kazongKnown (octet e.2 3) (e.2.drop 4))).map (·.2)

/-- A channel entry (R193): width in kHz. -/
def chanEntry (freq band widthKhz : Nat) : Nat :=
  freq % 2 ^ 22 + band % 2 * 2 ^ 22 + min 511 (widthKhz / 25) * 2 ^ 23

/-! ### The grid-time IE in router form (R192) -/

/-- The flags of octet 6. -/
def gridFlags (s : State) (ref : Bool) : Nat :=
  let st := s.get Reg.BAL_STATUS_state
  (if st = 2 then 1 else 0) + (if st = 3 then 2 else 0) + 4 * s.get Reg.BAL_STATUS_cyc_valid +
    8 * s.get Reg.BAL_STATUS_slewing + (if ref then 16 else 0)

def gridIe (s : State) (angle : Nat) (ref : Bool) : List Byte :=
  kazongIe 0x01 (leOctets 6 angle ++ leOctets 1 (gridFlags s ref))

/-! ### Building -/

/-- A frame control word: type, security, pending, AR, PAN compression, DSN suppressed, IEs, modes, version. -/
def frameControl (type : Nat) (sec fp ar comp supp ie : Bool) (dm ver sm : Nat) : List Byte :=
  let b := fun (x : Bool) (i : Nat) => if x then 2 ^ i else 0
  leOctets 2 (type + b sec 3 + b fp 4 + b ar 5 + b comp 6 + b supp 8 + b ie 9 + dm * 2 ^ 10 + ver * 2 ^ 12 +
    sm * 2 ^ 14)

/-- An Imm-Ack without FCS (R183). -/
def immAck (dsn : Nat) (fp : Bool) : List Byte :=
  frameControl 2 false fp false false false false 0 0 0 ++ leOctets 1 dsn

/-- An Enh-Ack without FCS (R183): destination the acknowledged frame's source, destination PAN ID omitted, source
absent. Where that frame had no source, PAN ID Compression 0 is what omits the PAN ID (R175). -/
def enhAck (m : Mhr) (fp : Bool) (ie : List Byte) : List Byte :=
  frameControl 2 false fp false (m.srcMode != 0) m.dsn.isNone (!ie.isEmpty) m.srcMode 2 0 ++
    (match m.dsn with
      | some d => leOctets 1 d
      | none => []) ++ leOctets (addrLen m.srcMode) m.src ++ ie

/-- The EUI-64 with bit 1 of its first (most significant) octet inverted, and back (R263, R267). -/
def flipUl (eui : Nat) : Nat := eui ^^^ 2 ^ 57

end Sys2Proof.Machine
end

