-- ==== Sys2Proof/Machine/Lowpan.lean ====
section
/-! DEFINITION. IPv6 packets and their 6LoWPAN forms (R268, R270-R272): IPHC after RFC 6282, fragments after RFC 4944,
the routing header of RFC 6554. The layouts the manual takes from those documents are PRESUMED (log 13). -/

namespace Sys2Proof.Machine

/-! ### IPv6 packets -/

/-- Fields of an IPv6 header; octets beyond the packet's end read 0. -/
def ipSrc (p : List Byte) : List Byte := octetsAt p 8 16
def ipDst (p : List Byte) : List Byte := octetsAt p 24 16
def ipHop (p : List Byte) : Nat := octet p 7
def ipNext (p : List Byte) : Nat := octet p 6
def ipLen (p : List Byte) : Nat := ofBe (octetsAt p 4 2)
def ipTclass (p : List Byte) : Nat := octet p 0 % 16 * 16 + octet p 1 / 16
def ipFlow (p : List Byte) : Nat := octet p 1 % 16 * 65536 + ofBe (octetsAt p 2 2)

/-- Octets `i` to `i + n` of a string replaced. -/
def putAt (p : List Byte) (i : Nat) (l : List Byte) : List Byte := p.take i ++ l ++ p.drop (i + l.length)

/-- The packet with its hop limit decremented (R275). -/
def hopDown (p : List Byte) : List Byte := putAt p 7 [BitVec.ofNat 8 (ipHop p - 1)]

/-- An IPv6 header. -/
def ipHeader (tclass flow len next hop : Nat) (src dst : List Byte) : List Byte :=
  beOctets 4 (6 * 2 ^ 28 + tclass % 256 * 2 ^ 20 + flow % 2 ^ 20) ++ beOctets 2 len ++ beOctets 1 next ++ beOctets 1 hop ++
    octetsAt src 0 16 ++ octetsAt dst 0 16

/-- The ones' complement sum of 16-bit words. -/
def sum16 : List Byte → Nat
  | [] => 0
  | [a] => a.toNat * 256
  | a :: b :: r => a.toNat * 256 + b.toNat + sum16 r

def fold16 (n : Nat) : Nat :=
  let n := n % 65536 + n / 65536
  let n := n % 65536 + n / 65536
  n % 65536 + n / 65536

/-- The UDP checksum of a packet whose UDP header follows its IPv6 header. -/
def udpSum (p : List Byte) : Nat :=
  let body := p.drop 40
  let c := 65535 - fold16 (sum16 (ipSrc p ++ ipDst p ++ beOctets 4 body.length ++ [0, 0, 0, 17] ++ putAt body 6 [0, 0]))
  if c = 0 then 65535 else c

/-- The options of a Hop-by-Hop header are an RPL option and padding: whether one was seen. -/
def onlyRpl : Nat → List Byte → Bool → Bool
  | 0, _, seen => seen
  | _, [], seen => seen
  | n + 1, t :: r, seen =>
    if t = 0 then onlyRpl n r seen
    else
      let r' := r.drop (1 + octet r 0)
      if t.toNat = 1 then onlyRpl n r' seen
      else if t.toNat = 0x23 ∨ t.toNat = 0x63 then onlyRpl n r' true
      else false

/-- A Hop-by-Hop header that holds only an RPL option and padding is removed (R270). -/
def stripRpl (p : List Byte) : List Byte :=
  let n := 8 * (octet p 41 + 1)
  if ipNext p = 0 ∧ 40 + n ≤ p.length ∧ onlyRpl 2048 ((p.drop 42).take (n - 2)) false then
    putAt (putAt (p.take 40) 4 (beOctets 2 (ipLen p - n))) 6 [BitVec.ofNat 8 (octet p 40)] ++ p.drop (40 + n)
  else p

/-! ### Contexts and identifiers -/

/-- The prefix of 6LoWPAN context `i`, if it is valid (R270). -/
def sciPrefix (s : State) (i : Nat) : Option (List Byte) :=
  if i < 16 && s.on (Reg.FWD_SCI_CTRL_valid i) then
    some (leOctets 4 (s.get (Reg.FWD_SCI_LO_pfx_lo i)) ++ leOctets 4 (s.get (Reg.FWD_SCI_HI_pfx_hi i)))
  else none

/-- The interface identifier of a link-layer address (mode and address). -/
def iidOf (ll : Nat × Nat) : List Byte :=
  if ll.1 = 3 then beOctets 8 (flipUl ll.2) else [0, 0, 0, 0xFF, 0xFE, 0] ++ beOctets 2 ll.2

def linkLocal : List Byte := [0xFE, 0x80, 0, 0, 0, 0, 0, 0]

/-! ### IPHC, uplink (R270). Errors are reasons of R274: 7 NHC, 8 SCI. -/

def takeN (n : Nat) (l : List Byte) : Except Nat (List Byte × List Byte) :=
  if n ≤ l.length then .ok (l.take n, l.drop n) else .error 7

/-- A unicast address: SAC or DAC, SAM or DAM, the context's index, the link-layer address. -/
def expandAddr (s : State) (useCtx : Bool) (mode sci : Nat) (ll : Nat × Nat) (source : Bool) (l : List Byte) :
    Except Nat (List Byte × List Byte) := do
  if !useCtx && mode == 0 then takeN 16 l
  else if useCtx && mode == 0 then (if source then .ok (List.replicate 16 0, l) else .error 7)
  else
    let pfx ← if useCtx then (match sciPrefix s sci with
        | some p => .ok p
        | none => .error 8)
      else .ok linkLocal
    if mode = 1 then
      let (x, l) ← takeN 8 l
      .ok (pfx ++ x, l)
    else if mode = 2 then
      let (x, l) ← takeN 2 l
      .ok (pfx ++ [0, 0, 0, 0xFF, 0xFE, 0] ++ x, l)
    else if ll.1 = 0 then .error 7
    else .ok (pfx ++ iidOf ll, l)

/-- A multicast address. -/
def expandMulti (s : State) (dac : Bool) (mode sci : Nat) (l : List Byte) : Except Nat (List Byte × List Byte) := do
  let z := fun (n : Nat) => List.replicate n (0 : Byte)
  if dac then
    if mode ≠ 0 then .error 7
    else
      let (x, l) ← takeN 6 l
      match sciPrefix s sci with
      | some p => .ok ([0xFF] ++ x.take 2 ++ [64] ++ p ++ x.drop 2, l)
      | none => .error 8
  else match mode with
    | 0 => takeN 16 l
    | 1 =>
      let (x, l) ← takeN 6 l
      .ok ([0xFF] ++ x.take 1 ++ z 9 ++ x.drop 1, l)
    | 2 =>
      let (x, l) ← takeN 4 l
      .ok ([0xFF] ++ x.take 1 ++ z 11 ++ x.drop 1, l)
    | _ =>
      let (x, l) ← takeN 1 l
      .ok ([0xFF, 0x02] ++ z 13 ++ x, l)

/-- Traffic class and flow label. -/
def expandTf (mode : Nat) (l : List Byte) : Except Nat ((Nat × Nat) × List Byte) := do
  let tc := fun (o : Nat) => o % 64 * 4 + o / 64
  match mode with
  | 0 =>
    let (x, l) ← takeN 4 l
    .ok ((tc (octet x 0), octet x 1 % 16 * 65536 + ofBe (x.drop 2)), l)
  | 1 =>
    let (x, l) ← takeN 3 l
    .ok ((octet x 0 / 64, octet x 0 % 16 * 65536 + ofBe (x.drop 1)), l)
  | 2 =>
    let (x, l) ← takeN 1 l
    .ok ((tc (octet x 0), 0), l)
  | _ => .ok ((0, 0), l)

/-- An NHC UDP header: ports, checksum if it is not elided, and what follows. -/
def expandUdp (l : List Byte) : Except Nat (List Byte × Option (List Byte) × List Byte) := do
  let (h, l) ← takeN 1 l
  let n := octet h 0
  if n / 8 ≠ 30 then .error 7
  else
    let (ports, l) ← (match n % 4 with
      | 0 => takeN 4 l
      | 1 => do
        let (x, l) ← takeN 3 l
        .ok (x.take 2 ++ [0xF0] ++ x.drop 2, l)
      | 2 => do
        let (x, l) ← takeN 3 l
        .ok ([0xF0] ++ x, l)
      | _ => do
        let (x, l) ← takeN 1 l
        .ok (beOctets 2 (0xF0B0 + octet x 0 / 16) ++ beOctets 2 (0xF0B0 + octet x 0 % 16), l))
    if bits n 2 1 = 1 then .ok (ports, none, l)
    else
      let (ck, l) ← takeN 2 l
      .ok (ports, some ck, l)

/-- IPHC expanded: the packet's octets as far as they are here, and whether its UDP checksum was elided. `size` is the
datagram's size where this is its first fragment. -/
def iphcExpand (s : State) (src dst : Nat × Nat) (size : Option Nat) (l : List Byte) : Except Nat (List Byte × Bool) := do
  let (b, l) ← takeN 2 l
  let (b0, b1) := (octet b 0, octet b 1)
  let (cid, l) ← if bits b1 7 1 = 1 then takeN 1 l else .ok ([0], l)
  let ((tc, flow), l) ← expandTf (bits b0 3 2) l
  let nhc := bits b0 2 1 == 1
  let (nh, l) ← if nhc then .ok ([17], l) else takeN 1 l
  let (hop, l) ← (match bits b0 0 2 with
    | 0 => takeN 1 l
    | 1 => .ok ([1], l)
    | 2 => .ok ([64], l)
    | _ => .ok ([255], l))
  let (sa, l) ← expandAddr s (bits b1 6 1 == 1) (bits b1 4 2) (octet cid 0 / 16) src true l
  let (da, l) ← if bits b1 3 1 = 1 then expandMulti s (bits b1 2 1 == 1) (bits b1 0 2) (octet cid 0 % 16) l
    else expandAddr s (bits b1 2 1 == 1) (bits b1 0 2) (octet cid 0 % 16) dst false l
  if nhc then
    let (ports, ck, rest) ← expandUdp l
    let len := (size.getD (48 + rest.length)) - 40
    .ok (ipHeader tc flow len 17 (octet hop 0) sa da ++ ports ++ beOctets 2 len ++ ck.getD [0, 0] ++ rest, ck.isNone)
  else
    let len := (size.getD (40 + l.length)) - 40
    .ok (ipHeader tc flow len (octet nh 0) (octet hop 0) sa da ++ l, false)

/-- The elided checksum of a whole datagram is recomputed. -/
def fillUdp (p : List Byte) (elided : Bool) : List Byte := if elided then putAt p 46 (beOctets 2 (udpSum p)) else p

/-! ### IPHC, downlink (R271) -/

/-- An address: context bit, mode, context index and inline octets. -/
def squeezeAddr (s : State) (a iid : List Byte) : Bool × Nat × Nat × List Byte :=
  let pfx := a.take 8
  let tail := fun (c : Bool) (i : Nat) => if a.drop 8 = iid then (c, 3, i, []) else (c, 1, i, a.drop 8)
  match (List.range 16).find? (fun i => sciPrefix s i == some pfx) with
  | some i => tail true i
  | none => if pfx = linkLocal then tail false 0 else (false, 0, 0, a)

/-- The outermost IPv6 header, and a UDP header after it, compressed: the octets, and how many of the packet they
stand for. `src` and `dst` are the link-layer EUI-64s. -/
def iphcCompress (s : State) (src dst : Nat) (p : List Byte) : List Byte × Nat :=
  let (sac, sam, sci, si) := squeezeAddr s (ipSrc p) (iidOf (3, src))
  let multi := octet p 24 == 0xFF
  let (dac, dam, dci, di) := if multi then (false, 0, 0, ipDst p) else squeezeAddr s (ipDst p) (iidOf (3, dst))
  let cid := sci != 0 || dci != 0
  let tfZero := ipTclass p == 0 && ipFlow p == 0
  let tc := ipTclass p
  let tf := if tfZero then [] else
    beOctets 1 (tc % 4 * 64 + tc / 4) ++ beOctets 3 (ipFlow p)
  let udp := ipNext p == 17 && decide (48 ≤ p.length) && ofBe (octetsAt p 44 2) == p.length - 40
  let (hl, hop) := match ipHop p with
    | 1 => (1, [])
    | 64 => (2, [])
    | 255 => (3, [])
    | h => (0, beOctets 1 h)
  let b := fun (x : Bool) (i : Nat) => if x then 2 ^ i else 0
  let b0 := 0x60 + b tfZero 4 + b tfZero 3 + b udp 2 + hl
  let b1 := b cid 7 + b sac 6 + sam * 16 + b multi 3 + b dac 2 + dam
  let head := beOctets 1 b0 ++ beOctets 1 b1 ++ (if cid then beOctets 1 (sci * 16 + dci) else []) ++ tf ++
    (if udp then [] else beOctets 1 (ipNext p)) ++ hop ++ si ++ di
  if udp then
    let sp := ofBe (octetsAt p 40 2)
    let dp := ofBe (octetsAt p 42 2)
    let small := sp / 16 == 0xF0B && dp / 16 == 0xF0B
    (head ++ (if small then beOctets 1 0xF3 ++ beOctets 1 (sp % 16 * 16 + dp % 16) else beOctets 1 0xF0 ++ octetsAt p 40 4) ++
      octetsAt p 46 2, 48)
  else (head, 40)

/-! ### Fragments (R272) -/

/-- FRAGN frames of what is left of the packet from octet `at_` on, `room` octets a frame. -/
def fragRest : Nat → Nat → Nat → Nat → List Byte → Nat → List (List Byte)
  | 0, _, _, _, _, _ => []
  | n + 1, room, size, tag, p, at_ =>
    if p.length ≤ at_ then []
    else
      let left := p.length - at_
      let k := if left + 5 ≤ room then left else (room - 5) / 8 * 8
      (beOctets 2 (0xE000 + size) ++ beOctets 2 tag ++ beOctets 1 (at_ / 8) ++ (p.drop at_).take k) ::
        fragRest n room size tag p (at_ + k)

/-- The payloads of a datagram: one, or its fragments where it does not fit into `room` octets. A datagram that cannot
be cut (its size passes 11 bits, or a frame has no room for eight octets) stays whole: its frame is too long. -/
def fragments (s : State) (src dst room tag : Nat) (p : List Byte) : List (List Byte) :=
  let (hc, covered) := iphcCompress s src dst p
  let whole := hc ++ p.drop covered
  if whole.length ≤ room then [whole]
  else
    let span := (covered + (room - 4 - hc.length)) / 8 * 8
    if 2047 < p.length ∨ room < 4 + hc.length ∨ span < covered ∨ room < 13 then [whole]
    else
      (beOctets 2 (0xC000 + p.length) ++ beOctets 2 tag ++ hc ++ (p.drop covered).take (span - covered)) ::
        fragRest 256 room p.length tag p span

/-! ### Routing headers (R268) -/

/-- The packet as it leaves for the first hop: `addrs` are the remaining hops and the destination, empty for a
destination one hop away; `first` is the first hop's address. -/
def withRoute (insert : Bool) (site first : List Byte) (addrs : List (List Byte)) (p : List Byte) : List Byte :=
  if addrs.isEmpty then p
  else
    let rh := fun (next : Nat) => beOctets 1 next ++ beOctets 1 addrs.length ++ [3] ++ beOctets 1 addrs.length ++
      [0x88, 0, 0, 0] ++ addrs.flatMap (fun a => a.drop 8)
    let n := 8 + 8 * addrs.length
    if insert then
      putAt (putAt (putAt (p.take 40) 4 (beOctets 2 (ipLen p + n))) 6 [43]) 24 first ++ rh (ipNext p) ++ p.drop 40
    else ipHeader 0 0 (n + p.length) 43 64 site first ++ rh 41 ++ p

end Sys2Proof.Machine
end

