-- ==== Sys2Proof/Machine/ChrTag.lean ====
section
/-! DEFINITION. Latency measurement of the Chronograph (R414-R419): stages of frames, tag records, histograms. -/

namespace Sys2Proof.Machine

/-- A frame's sample for unit `u` (R418). -/
def histFrame (s : State) (u : Nat) (f : TagStages) : State :=
  let dir := s.get (Reg.CHR_HIST_SEL_dir u)
  let dirOk := dir == 0 || dir == 3 || (dir == 1) == f.up
  if bits (s.get (Reg.CHR_HIST_SEL_ingress_mask u)) f.ingress 1 == 0 || !dirOk then s
  else match tabGet f.s (s.get (Reg.CHR_HIST_SEL_start u)), tabGet f.s (s.get (Reg.CHR_HIST_SEL_end u)) with
    | some a, some b => if a ≤ b then histBin s u (b - a) else s.bump Reg.CHR_CNT_HIST_SKIP
    | _, _ => s.bump Reg.CHR_CNT_HIST_SKIP

/-- The ingress bit of CHR_TAG_CFG for an ingress code of R416. -/
def tagMaskBit : Nat → Nat
  | 0 => 0
  | 1 => 1
  | 2 => 1
  | 4 => 3
  | _ => 2

/-- A frame takes an in-flight tag: its stages begin with S0, and it may be tagged (R414, R415). -/
def markNew (s : State) (up : Bool) (ingress : Nat) : Nat × State :=
  let id := s.chr.nextMark
  let rate := min 20 (s.get Reg.CHR_TAG_CFG_rate_log2)
  let watched := rate != 0 && bits (s.get Reg.CHR_TAG_CFG_ingress_mask) (tagMaskBit ingress) 1 == 1
  let (hit, s) := if watched then
      let (r, s) := s.drawRandom (2 ^ rate)
      (r == 0, s)
    else (false, s)
  let full := decide (32 ≤ s.get Reg.CHR_TAG_STAT_active)
  let s := if hit && full then s.bump Reg.CHR_CNT_TAG_SKIP else s
  let tagged := hit && !full
  let s := if tagged then s.set Reg.CHR_TAG_STAT_active (s.get Reg.CHR_TAG_STAT_active + 1) else s
  let entry : TagStages := { tagged := tagged, up := up, ingress := ingress, s := [(0, s.ltb)] }
  (id, { s with chr := { s.chr with nextMark := id + 1, tagged := tabPut s.chr.tagged id entry } })

/-- A frame reaches stage `k`: the last time it does counts. -/
def markStage (s : State) (mark : Option Nat) (k : Nat) (at_ : Nat) : State :=
  match mark with
  | none => s
  | some id => match tabGet s.chr.tagged id with
    | none => s
    | some f => { s with chr := { s.chr with tagged := tabPut s.chr.tagged id { f with s := tabPut f.s k at_ } } }

def markCtx (s : State) (mark : Option Nat) (ctx : Option Nat) : State :=
  match mark with
  | none => s
  | some id => match tabGet s.chr.tagged id with
    | none => s
    | some f => { s with chr := { s.chr with tagged := tabPut s.chr.tagged id { f with ctx := ctx } } }

/-- The ten words of a tag record (R416). -/
def tagRecord (f : TagStages) (dropped : Bool) : List Nat :=
  let s0 := tabGetD f.s 0 0
  let last := (f.s.foldl (fun (m : Nat × Nat) e => if m.2 ≤ e.2 then e else m) (0, s0)).1
  [(if f.up then 0 else 1) + 2 * f.ingress + 16 * (f.ctx.getD 0 % 2 ^ 17) + (if f.ctx.isSome then 2 ^ 21 else 0) +
     (if dropped then 2 ^ 22 else 0) + 2 ^ 23 * last, s0 % 2 ^ 32, s0 / 2 ^ 32 % 2 ^ 16] ++
  (List.range 7).map (fun i => match tabGet f.s (i + 1) with
    | some t => min (t - s0) 0xFFFFFFFE
    | none => 0xFFFFFFFF)

/-- A record enters the record FIFO, which has room (R416). -/
def trecPush (s : State) (r : List Nat) : State :=
  let recs := s.chr.recs ++ [r]
  let s := ({ s with chr := { s.chr with recs := recs, fresh := s.chr.fresh + 1 } } : State).set Reg.CHR_TAG_STAT_level recs.length
  if recs.length = atLeast1 (s.get Reg.CHR_TAG_CFG_wmark) then s.raise 241 else s

/-- The frame leaves at S7 or is dropped: samples, and its tag record (R416, R418). A record that finds the FIFO full waits for
the end of the fabric cycle, since a pop of the same cycle acts before it. -/
def markEnd (s : State) (mark : Option Nat) (dropped : Bool) : State :=
  match mark with
  | none => s
  | some id => match tabGet s.chr.tagged id with
    | none => s
    | some f =>
      let s := { s with chr := { s.chr with tagged := tabDel s.chr.tagged id } }
      let s := (histUnits s 0).foldl (fun s u => histFrame s u f) s
      if !f.tagged then s
      else
        let s := (histUnits s 1).foldl (fun s u => histFrame s u f) s
        let s := s.set Reg.CHR_TAG_STAT_active (s.get Reg.CHR_TAG_STAT_active - 1)
        if 32 ≤ s.chr.recs.length then { s with chr := { s.chr with spill := s.chr.spill ++ [tagRecord f dropped] } }
        else trecPush s (tagRecord f dropped)

/-- Frames of several marks end together. -/
def marksEnd (s : State) (marks : List Nat) (dropped : Bool) : State := marks.foldl (fun s m => markEnd s (some m) dropped) s

/-- A pop of a FIFO of which the last `fresh` entries came in this fabric cycle, before which it acts (R416): what the FIFO then
holds, with those that had found it full; how many came in this cycle; who still finds no room; and whether the level
reaches `wmark` in that order of events (log 320). None where the FIFO was empty. -/
def popFirst {α : Type} (l : List α) (fresh : Nat) (spill : List α) (wmark : Nat) : Option (List α × Nat × List α × Bool) :=
  let old := l.length - fresh
  if old = 0 then none
  else some (l.drop 1 ++ spill.take 1, fresh + min 1 spill.length, spill.drop 1, decide (fresh + spill.length ≠ 0 ∧ old = wmark))

/-- TREC_POP (R416). -/
def trecPop (s : State) : State :=
  match popFirst s.chr.recs s.chr.fresh s.chr.spill (atLeast1 (s.get Reg.CHR_TAG_CFG_wmark)) with
  | none => s
  | some (l, fresh, spill, reached) =>
    let s := ({ s with chr := { s.chr with recs := l, fresh := fresh, spill := spill } } : State).set Reg.CHR_TAG_STAT_level l.length
    if reached then s.raise 241 else s

end Sys2Proof.Machine
end

