-- ==== Sys2Proof/Machine/HifOps.lean ====
section
/-! DEFINITION. The host rings (chapter 13): enabling, doorbells, descriptor fetch, completion records, delivery to
receive rings, vectors, resets of HIF and EVT, DMA faults. -/

namespace Sys2Proof.Machine

def State.onRing (s : State) (r : Nat) (f : Ring → Ring) : State := s.setRing r (f (s.ringOf r))

/-- Kinds of ring (R322). -/
def isRxRing (r : Nat) : Bool := decide (r < 128)
def isTxRing (r : Nat) : Bool := decide (128 ≤ r ∧ r < 224)
def isCtlRing (r : Nat) : Bool := decide (248 ≤ r)
def hostProduced (r : Nat) : Bool := isRxRing r || isTxRing r || isCtlRing r

/-- Enabled transmit rings. -/
def txRingsOn (s : State) : Bool := (List.range 96).any (fun i => s.on (Reg.HIF_RING_CTRL_enable (128 + i)))

/-- RING_ENABLE (R282, R323, R341). -/
def ringEnable (s : State) (r : Nat) : State :=
  let log2 := s.get (Reg.HIF_RING_CTRL_log2_size r)
  let bad := decide (log2 < 4 ∨ 12 < log2) || ringBase s r == 0 ||
    ((isTxRing r || decide (241 ≤ r ∧ r ≤ 247)) && ringAux s r == 0)
  if s.on (Reg.HIF_RING_CTRL_enable r) || bad then s
  else
    let go := fun (s : State) => (s.set (Reg.HIF_RING_CTRL_enable r) 1).setRing r { armed := true, err := (s.ringOf r).err }
    if isTxRing r && !txRingsOn s then
      match claimAll s 0x1B [36] with
      | (true, s) => go s
      | (false, s) => s
    else go s

/-- RING_DISABLE (R282, R323). -/
def ringDisable (s : State) (r : Nat) : State :=
  if !s.on (Reg.HIF_RING_CTRL_enable r) then s
  else
    let s := (s.set (Reg.HIF_RING_CTRL_enable r) 0).onRing r (fun g => { g with fetched := [], poll := none })
    if isTxRing r && !txRingsOn s then releaseAll s 0x1B [36] else s

/-- The ring halts (R330, R342). -/
def ringHalt (s : State) (r code addr : Nat) (ev : Nat) : State :=
  (s.onRing r (fun g => { g with halted := true, err := code })).raise ev r code (addr % 2 ^ 32)

/-- The new value lies from the previous accepted value up to the producer count, ends included (R327). -/
def countBetween (prev new prod : Nat) : Bool :=
  decide ((new + 65536 - prev) % 65536 ≤ (prod + 65536 - prev) % 65536)

/-- The consumer count of the completion area as a doorbell of ring `r` leaves it: only a transmit ring has one. -/
def cidxOf (r : Nat) (g : Ring) (cidx : Option Nat) : Nat :=
  match isTxRing r, cidx with
  | true, some c => c
  | _, _ => g.ccons

/-- A write of ring `r`'s doorbell (R327, R341): idx and arm where its low word is written, cidx where its high word is. -/
def doorbell (s : State) (r : Nat) (cluster : Bool) (low : Option (Nat × Bool)) (cidx : Option Nat) : State :=
  if !s.on (Reg.HIF_RING_CTRL_enable r) then s
  else if cluster != (ringOwner s r == 1) then s.bump Reg.HIF_CNT_DB_FOREIGN
  else
    let g := s.ringOf r
    let idxOk := match low with
      | none => true
      | some (idx, _) =>
        if hostProduced r then
          decide ((idx + 65536 - g.pIdx) % 65536 < 32768 ∧ (idx + 65536 - g.cIdx) % 65536 ≤ ringSize s r)
        else countBetween g.pIdx idx g.cIdx
    let arm := (low.map (·.2)).getD false
    if idxOk && countBetween g.ccons (cidxOf r g cidx) g.cp then
      (s.bump Reg.HIF_CNT_DB).setRing r { g with
        pIdx := (low.map (·.1)).getD g.pIdx, armed := g.armed || arm, dbArm := (low.map (·.2)).getD g.dbArm
        ccons := cidxOf r g cidx }
    else ((s.bump Reg.HIF_CNT_DB_BAD).setRing r { g with err := 1 }).raise 20 r 1

/-- What a read of a doorbell's words returns: the last values accepted; of a disabled ring 0 (R326). -/
def doorbellWords (s : State) (r : Nat) : Nat × Nat :=
  let g := s.ringOf r
  if s.on (Reg.HIF_RING_CTRL_enable r) then (g.pIdx + (if g.dbArm then 2 ^ 31 else 0), g.ccons) else (0, 0)

/-- An access of the doorbell page, BAR2, at octet `off` by the PCIe side or the cluster (R35, R326). One that is not aligned,
or lies from 0x0800 up, changes nothing and reads 0; `w` and `v` are the words of a write. -/
def pageAccess (s : State) (off : Nat) (cluster : Bool) (a : PageAccess) (w v : Word) : State :=
  let r := off / 8
  let high := decide (off % 8 = 4)
  let there := decide (r < 256 ∧ off % 4 = 0)
  let (lo, hi) := if there then doorbellWords s r else (0, 0)
  let low := fun (w : Word) => some (w.toNat % 65536, w.toNat.testBit 31)
  match a with
  | .read32 => { s with resp := .value (BitVec.ofNat 32 (if high then hi else lo)) }
  | .read64 => { s with resp := if high then .value64 0 0 else .value64 (BitVec.ofNat 32 lo) (BitVec.ofNat 32 hi) }
  | .write32 =>
    let s := { s with resp := .ok }
    if !there then s
    else if high then doorbell s r cluster none (some (w.toNat % 65536))
    else doorbell s r cluster (low w) none
  | .write64 =>
    let s := { s with resp := .ok }
    if !there || high then s else doorbell s r cluster (low w) (some (v.toNat % 65536))

/-- Descriptors per read (HIF_DMA_CFG). -/
def fetchBatch (s : State) : Nat :=
  let b := s.get Reg.HIF_DMA_CFG_fetch_batch
  if b = 0 ∨ 8 < b then 8 else b

/-- How many descriptors a fetch of transmit ring `r` reads (R332): posted ones, not across the ring's end. -/
def fetchCount (s : State) (r : Nat) : Nat :=
  let g := s.ringOf r
  let next := (g.cIdx + g.fetched.length) % 65536
  let posted := (g.pIdx + 65536 - next) % 65536
  min (min (fetchBatch s) posted) (ringSize s r - next % ringSize s r)

/-- DESCRIPTOR_FETCH (R332): `descs` is what memory holds at the slots read. -/
def descriptorFetch (s : State) (r : Nat) (descs : List (List Byte)) : State :=
  if isTxRing r && ringLive s r then
    let n := fetchCount s r
    let got := (List.range n).map (fun i => octetsAt (descs.getD i []) 0 32)
    s.onRing r (fun g => { g with fetched := g.fetched ++ got })
  else s

/-- The consumer count of a host-produced ring advances; its write-back (R328). -/
def consume (s : State) (r n : Nat) : State :=
  let s := s.onRing r (fun g => { g with cIdx := (g.cIdx + n) % 65536 })
  if s.on (Reg.HIF_RING_CTRL_wb_en r) then
    s.memOut (ringOwner s r) (ringWb s r) (leOctets 8 (s.ringOf r).cIdx)
  else s

/-- The octets of a completion record (R333) before its phase. -/
def completionOctets (descIdx : Nat) (ts : Option TsReport) (lost : Bool) (c : Completion) : List Byte :=
  let b := fun (x : Bool) (i : Nat) => if x then 2 ^ i else 0
  let (ltb, ext, ns) := match ts with
    | some r => (r.ltb, r.ext, r.ns)
    | none => (0, 0, 0)
  leOctets 8 ltb ++ leOctets 6 ext ++ leOctets 2 descIdx ++
  leOctets 4 (if ns ≠ 0 then ns else c.chain % 4 + 16 * (c.attempts % 16)) ++
  leOctets 1 (c.esc % 16 + 16 * (c.tx % 8)) ++ leOctets 1 (c.amc % 16 + 16 * (c.sec % 16)) ++
  leOctets 1 (c.fwd % 16 + b lost 4 + b ts.isSome 5 + b c.redirected 6) ++ leOctets 1 (c.hif % 8) ++
  List.replicate 8 0

/-- A part of a frame that is not its last failed: the frame's record will tell what came first (R236, R333). -/
def completeLater (s : State) (host : Option (Nat × Nat)) (c : Completion) : State :=
  match host with
  | none => s
  | some (r, ref) => s.onRing r (fun g => { g with frames := match tabGet g.frames ref with
      | some f => tabPut g.frames ref { f with failed := some (f.failed.getD c) }
      | none => g.frames })

/-- A frame of a transmit ring ends: its one completion record (R333), or a discarded one (R321). -/
def complete (s : State) (host : Option (Nat × Nat)) (c : Completion) : State :=
  match host with
  | none => s
  | some (r, ref) =>
    let g := s.ringOf r
    match tabGet g.frames ref with
    | none =>
      if s.hif.orphans.contains ref then
        ({ s with hif := { s.hif with orphans := s.hif.orphans.filter (· != ref) } } : State).bump
          Reg.HIF_CNT_CMPL_DISCARD
      else s
    | some f =>
      let c := { f.failed.getD c with tsFifo := c.tsFifo }
      if !ringLive s r then s.onRing r (fun g => { g with frames := tabDel g.frames ref })
      else
        let (ts, s) := match f.tsReq, c.tsFifo with
          | true, some i => tsfTake s i ref
          | _, _ => (none, s)
        let lost := f.tsReq && c.tsFifo.isSome && ts.isNone
        let log2 := s.get (Reg.HIF_RING_CTRL_log2_size r)
        let entry := withPhase (completionOctets f.descIdx ts lost c) (phaseOf g.cp log2)
        let s := s.memOut (ringOwner s r) (ringAux s r + 32 * (g.cp % ringSize s r)) entry
        ringCause (s.onRing r (fun g => { g with
          frames := tabDel g.frames ref, cp := (g.cp + 1) % 65536 })) r

/-- The frame of a ring asked for a timestamp (R331). -/
def wantsTs (s : State) (host : Option (Nat × Nat)) : Bool :=
  match host with
  | some (r, ref) => ((tabGet (s.ringOf r).frames ref).map (·.tsReq)).getD false
  | none => false

/-! ### Receive rings (R329, R330) -/

/-- The ring that HOST service `svc` gives a frame of hash `h`; none while the mapping is not valid. -/
def svcRing (s : State) (svc h : Nat) : Option Nat :=
  if !s.on (Reg.HIF_SVC_MAP_valid svc) then none
  else
    let n := 2 ^ s.get (Reg.HIF_SVC_MAP_ring_log2 svc)
    some ((s.get (Reg.HIF_SVC_MAP_ring_base svc) / n * n + h % n) % 128)

/-- The hash of R329. -/
def hostHash (f : EscFrame) : Nat :=
  match f.ctx with
  | some k => k
  | none => if f.rx.wired then 128 + f.rx.lane else f.rx.lane

/-- The service of a frame that FWD delivers with reason `r` (R329). -/
def reasonSvc (s : State) (r : Nat) : Nat :=
  if r < 8 then bits (s.get Reg.HIF_RSN_SVC0_svc) (4 * r) 4 else bits (s.get Reg.HIF_RSN_SVC1_svc) (4 * (r - 8)) 4

/-- How many of the posted descriptors a frame of `n` octets takes: none where they do not suffice. -/
def descsFor : Nat → Nat → List (Nat × Nat) → Option Nat
  | _, 0, _ => some 0
  | 0, _, _ => none
  | _, _, [] => none
  | k + 1, n, (_, len) :: r => (descsFor k (n - min len n) r).map (· + 1)

/-- A filled receive descriptor (R330). -/
def rxDescriptor (f : EscFrame) (addr len : Nat) (sop eop : Bool) : List Byte :=
  let b := fun (x : Bool) (i : Nat) => if x then 2 ^ i else 0
  let m := f.rx
  leOctets 8 addr ++ leOctets 2 (len % 2 ^ 14 + b sop 14 + b eop 15) ++
  leOctets 6 (if m.tsLost then 0 else m.ltb) ++ leOctets 6 (if m.tsLost then 0 else m.angle) ++
  leOctets 4 ((if m.wired then 0 else m.freq % 2 ^ 22 + m.band * 2 ^ 22) + m.lane % 128 * 2 ^ 23 +
    b m.wired 30 + b f.ctx.isSome 31) ++
  leOctets 3 (f.ctx.getD 0 % 2 ^ 17 + (if m.wired then 0 else m.profile % 32 * 2 ^ 17) + b m.tsLost 22 +
    b m.captured 23) ++
  leOctets 1 (if m.wired then 0 else unsigned 8 m.rssi) ++ leOctets 1 m.lqi ++
  leOctets 1 (f.reason % 16 + b m.dup 4 + b m.noack 5 + b f.fmt 6)

/-- A posted descriptor breaks a rule of R330. -/
def badPosted (d : Nat × Nat) : Bool :=
  decide (d.1 % 8 ≠ 0 ∨ d.2 % 64 ≠ 0 ∨ d.2 < 64 ∨ 16320 < d.2)

/-- Fills descriptors of ring `r` with what is left of the frame's octets. -/
def fillDescs (s : State) (r : Nat) (f : EscFrame) : Nat → Bool → List Byte → List (Nat × Nat) → State
  | 0, _, _, _ => s
  | _, _, _, [] => s
  | k + 1, sop, l, (addr, len) :: rest =>
    let n := min len l.length
    let left := l.drop n
    let g := s.ringOf r
    let log2 := s.get (Reg.HIF_RING_CTRL_log2_size r)
    let s := s.memOut (ringOwner s r) addr (l.take n)
    let s := s.memOut (ringOwner s r) (ringBase s r + 32 * (g.cIdx % ringSize s r))
      (withPhase (rxDescriptor f addr n sop left.isEmpty) (phaseOf g.cIdx log2))
    let s := s.onRing r (fun g => { g with cIdx := (g.cIdx + 1) % 65536 })
    if left.isEmpty then s else fillDescs s r f k false left rest

/-- A frame delivered to its receive ring: `posted` is what memory holds at the slots from the consumer count on.
Whether it was delivered. -/
def hostDeliver (s : State) (f : EscFrame) (posted : List (Nat × Nat)) : Bool × State :=
  match svcRing s f.svc (hostHash f) with
  | none => (false, s)
  | some r =>
    let g := s.ringOf r
    let avail := posted.take ((g.pIdx + 65536 - g.cIdx) % 65536)
    if !ringLive s r then (false, s)
    else
      let need := descsFor 16 f.octets.length avail
      match (avail.take (max (need.getD 16) 1)).find? badPosted, need with
      | some d, _ => (false, ringHalt s r 3 d.1 20)
      | none, none => (false, s)
      | none, some _ =>
          if avail.isEmpty then (false, s)
          else
            let s := fillDescs s r f 16 true f.octets avail
            (true, ringCause ((consume s r 0).bump Reg.HIF_CNT_RX_FRAMES) r)

/-! ### Events by software, vectors -/

/-- EVT_SWRAISE (R334). -/
def evtSwraise (s : State) (ev : Nat) : State := raiseSw s ev 0 0 0 true

/-- COALESCE_TIMEOUT (R339). -/
def coalesceTimeout (s : State) (v : Nat) : State :=
  match tabGet s.hif.vecs v with
  | some x =>
    if 0 < x.count ∧ x.first + s.cur (Reg.HIF_VEC_CFG_coal_us v) * 1000 ≤ s.ltb then vecFire s v else s
  | none => s

/-- The messages that wait and are no longer masked leave (R340). -/
def msixSend (s : State) : State := s.hif.pba.foldl msixFire s

/-- A word of BAR4 is written (R320): of the MSI-X table its address, data and mask; the pending bits are read-only, and the
rest is reserved. -/
def msixWrite (s : State) (off : Nat) (w : Word) : State :=
  let v := off / 16
  let s := { s with resp := .ok }
  if off % 4 ≠ 0 ∨ 0x400 ≤ off then s
  else if off / 4 % 4 ≠ 3 then { s with hif := { s.hif with table := tabPut s.hif.table (off / 4) w.toNat } }
  else if w.toNat % 2 = 1 then { s with hif := { s.hif with unmasked := s.hif.unmasked.filter (· != v) } }
  else msixSend { s with hif := { s.hif with unmasked := addOnce s.hif.unmasked v } }

/-- A word of BAR4 as it reads. -/
def msixWord (s : State) (off : Nat) : Nat :=
  if off % 4 ≠ 0 then 0
  else if off < 0x400 then
    (if off / 4 % 4 ≠ 3 then tabGetD s.hif.table (off / 4) 0 else if s.hif.unmasked.contains (off / 16) then 0 else 1)
  else if off = 0x800 ∨ off = 0x804 then
    ((List.range 32).map (fun b => if s.hif.pba.contains (8 * (off - 0x800) + b) then 2 ^ b else 0)).foldl (· + ·) 0
  else 0

/-- Vendor and device identifier, and revision with class code (R320), as the first and third word of the configuration space
hold them (PRESUMED, log 325). -/
def pciIds : Word × Word := (BitVec.ofNat 32 (Config.vendorId.toNat + 0x8128 * 2 ^ 16), 0x028000B0#32)

/-- VECTOR_UNMASK (R320, R340): an access of BAR4 or the configuration space; in standalone mode there is no PCIe function
(R343). -/
def vectorUnmask (s : State) (x : MsixAccess) : State :=
  if s.on Reg.HIF_STATUS_standalone then s
  else match x with
    | .write off w => msixWrite s off.val w
    | .read off => { s with resp := .value (BitVec.ofNat 32 (msixWord s off.val)) }
    | .function true => { s with hif := { s.hif with funcMask := true } }
    | .function false => msixSend { s with hif := { s.hif with funcMask := false } }
    | .busMaster on => s.setb Reg.HIF_STATUS_bme on
    | .ids => { s with resp := .value64 pciIds.1 pciIds.2 }

/-- HIF and EVT after a function level reset, link-down or return from D3hot (R321). -/
def hifReset (s : State) : State :=
  let s := (List.range 256).foldl (fun s r => if s.on (Reg.HIF_RING_CTRL_enable r) then ringDisable s r else s) s
  let refs := s.hif.rings.flatMap (fun e => e.2.frames.map (·.1))
  { s with hif := { s.hif with
      rings := s.hif.rings.map (fun e => (e.1, { e.2 with pIdx := 0, ccons := 0, fetched := [], frames := [], poll := none }))
      orphans := s.hif.orphans ++ refs, table := [], unmasked := [], pba := [], funcMask := true } }

/-- DMA_ERROR (R342): of a descriptor, write-back, record or image access of ring `r` at an address. -/
def dmaErrorRing (s : State) (r addr : Nat) : State :=
  if !s.on (Reg.HIF_RING_CTRL_enable r) then s
  else ringHalt (s.bump Reg.HIF_CNT_DMA_ERR) r 2 addr 22

end Sys2Proof.Machine
end

