-- ==== Sys2Proof/Machine/Crypto.lean ====
section
/-! DEFINITION. The algorithms the manual names: CRC-32C (R253, R311), CRC-8 of the pair heartbeat (R385),
SHA-256 and HMAC-SHA256 (R307, R308), AES-128 and CCM* (R312), ECDSA P-256 verification (R307). The manual names
them without their tables, which are PRESUMED from the published standards (log 11). -/

namespace Sys2Proof.Machine

/-! ### CRCs -/

/-- One step of a reflected CRC: register, polynomial, input bit. -/
def crcBit (poly reg : Nat) (b : Nat) : Nat :=
  let r := (reg ^^^ b)
  if r % 2 = 1 then r / 2 ^^^ poly else r / 2

/-- A reflected CRC over the `n` low bits of `x`, bit 0 first. -/
def crcBits (poly : Nat) : Nat → Nat → Nat → Nat
  | 0, _, reg => reg
  | n + 1, x, reg => crcBits poly n (x / 2) (crcBit poly reg (x % 2))

/-- A reflected CRC over octets. -/
def crcOctets (poly init : Nat) (l : List Byte) : Nat :=
  l.foldl (fun r b => crcBits poly 8 b.toNat r) init

/-- CRC-32C (Castagnoli). -/
def crc32c (l : List Byte) : Nat := crcOctets 0x82F63B78 0xFFFFFFFF l ^^^ 0xFFFFFFFF

/-- One input bit of the CRC-8 x⁸ + x² + x + 1, most significant bit first. -/
def crc8Bit (reg b : Nat) : Nat :=
  let top := (reg / 128 + b) % 2
  let r := reg * 2 % 256
  if top = 1 then r ^^^ 7 else r

/-- CRC-8 over the octets of the pair heartbeat (R385). -/
def crc8 (l : List Byte) : Nat :=
  l.foldl (fun r b => (List.range 8).foldl (fun r i => crc8Bit r (bits b.toNat (7 - i) 1)) r) 0

/-! ### SHA-256 -/

/-- The largest `r` below `2 ^ (n + 1)` whose power `k` does not exceed `x`, found from its top bit down. -/
def rootFloor (k x : Nat) : Nat → Nat → Nat
  | 0, r => if (r + 1) ^ k ≤ x then r + 1 else r
  | n + 1, r => rootFloor k x n (if (r + 2 ^ (n + 1)) ^ k ≤ x then r + 2 ^ (n + 1) else r)

/-- The first 32 bits of the fraction of the root of degree `k` of `p`: the published standard names its constants
so, and no table of them is written here. -/
def rootFraction (k p : Nat) : BitVec 32 := BitVec.ofNat 32 (rootFloor k (p * 2 ^ (32 * k)) 36 0)

/-- The primes below 312: sixty-four of them. -/
def firstPrimes : List Nat :=
  (List.range 312).filter (fun p => 2 ≤ p && (List.range 18).all (fun d => d < 2 || p ≤ d || p % d != 0))

/-- The exclusive or of three rotations of a word. -/
def turned (x : BitVec 32) (r : Nat × Nat × Nat) : BitVec 32 :=
  x.rotateRight r.1 ^^^ x.rotateRight r.2.1 ^^^ x.rotateRight r.2.2

/-- The chain of SHA-256 between two words of the schedule: the last four words of each of its two recurrences,
newest first, and the last sixteen words of the schedule, oldest first. -/
structure DigestChain where
  up : List (BitVec 32)
  low : List (BitVec 32)
  sched : List (BitVec 32)

/-- One word of the schedule enters both recurrences, `k` being the constant of its place; the schedule grows by the
word sixteen places on. -/
def DigestChain.advance (c : DigestChain) (k : BitVec 32) : DigestChain :=
  let u := fun i => c.up.getD i 0
  let l := fun i => c.low.getD i 0
  let w := fun i => c.sched.getD i 0
  let entered := w 0 + k + l 3 + turned (l 0) (6, 11, 25) + (l 2 ^^^ (l 0 &&& (l 1 ^^^ l 2)))
  let mixed := turned (u 0) (2, 13, 22) + ((u 0 &&& u 1) ||| (u 2 &&& (u 0 ||| u 1)))
  let near := (w 1).rotateRight 7 ^^^ (w 1).rotateRight 18 ^^^ w 1 >>> 3
  let far := (w 14).rotateRight 17 ^^^ (w 14).rotateRight 19 ^^^ w 14 >>> 10
  { up := (entered + mixed) :: c.up.take 3
    low := (u 3 + entered) :: c.low.take 3
    sched := c.sched.drop 1 ++ [near + w 0 + w 9 + far] }

/-- A block of 64 octets added to the digest `h`. -/
def digestBlock (ks : List (BitVec 32)) (h : List (BitVec 32)) (block : List Byte) : List (BitVec 32) :=
  let words := (List.range 16).map (fun i => BitVec.ofNat 32 (ofBe (octetsAt block (4 * i) 4)))
  let c := ks.foldl DigestChain.advance { up := h.take 4, low := h.drop 4, sched := words }
  (h.zip (c.up ++ c.low)).map (fun p => p.1 + p.2)

/-- Blocks of `n` octets, at most `k` of them. -/
def chunks (n : Nat) : Nat → List Byte → List (List Byte)
  | 0, _ => []
  | k + 1, l => if l.isEmpty then [] else l.take n :: chunks n k (l.drop n)

/-- SHA-256: the message, a one bit, zeros and its length in bits, block by block. -/
def sha256 (m : List Byte) : List Byte :=
  let zeros := (119 - m.length % 64) % 64
  let whole := m ++ 0x80 :: (List.replicate zeros 0 ++ beOctets 8 (8 * m.length))
  let ks := firstPrimes.map (rootFraction 3)
  let start := (firstPrimes.take 8).map (rootFraction 2)
  ((chunks 64 (whole.length / 64) whole).foldl (digestBlock ks) start).flatMap (fun w => beOctets 4 w.toNat)

/-- HMAC-SHA256. -/
def hmacSha256 (key msg : List Byte) : List Byte :=
  let k := octetsAt (if 64 < key.length then sha256 key else key) 0 64
  sha256 (k.map (· ^^^ 0x5C) ++ sha256 (k.map (· ^^^ 0x36) ++ msg))

/-! ### AES-128 -/

/-- Multiplication by x in GF(2⁸). -/
def gfDouble (a : Nat) : Nat := (a * 2 % 256) ^^^ (if 128 ≤ a then 0x1B else 0)

/-- Multiplication in GF(2⁸). -/
def gfMul : Nat → Nat → Nat → Nat
  | 0, _, _ => 0
  | n + 1, a, b => (if b % 2 = 1 then a else 0) ^^^ gfMul n (gfDouble a) (b / 2)

/-- The inverse in GF(2⁸) as the 254th power; 0 for 0. -/
def gfInv (a : Nat) : Nat :=
  let m := gfMul 8
  let a2 := m a a
  let a4 := m a2 a2
  let a8 := m a4 a4
  let a16 := m a8 a8
  let a32 := m a16 a16
  let a64 := m a32 a32
  let a128 := m a64 a64
  m a128 (m a64 (m a32 (m a16 (m a8 (m a4 a2)))))

/-- The AES S-box. -/
def sbox (a : Nat) : Nat :=
  let b := gfInv a
  let rot := fun (n : Nat) => (b * 2 ^ n % 256) ^^^ (b / 2 ^ (8 - n))
  b ^^^ rot 1 ^^^ rot 2 ^^^ rot 3 ^^^ rot 4 ^^^ 0x63

def sboxTab : List Nat := (List.range 256).map sbox

def subByte (t : List Nat) (b : Byte) : Byte := BitVec.ofNat 8 (t.getD b.toNat 0)

def xorOctets (a b : List Byte) : List Byte := List.zipWith (· ^^^ ·) a b

/-- Round keys of AES-128 after key `k`: `n` of them, with the round constant. -/
def aesKeys (t : List Nat) : Nat → Nat → List Byte → List (List Byte)
  | 0, _, _ => []
  | n + 1, rc, k =>
    let last := k.drop 12
    let g := (last.drop 1 ++ last.take 1).map (subByte t)
    let g := xorOctets g [BitVec.ofNat 8 rc, 0, 0, 0]
    let w0 := xorOctets (k.take 4) g
    let w1 := xorOctets (octetsAt k 4 4) w0
    let w2 := xorOctets (octetsAt k 8 4) w1
    let w3 := xorOctets (octetsAt k 12 4) w2
    let k' := w0 ++ w1 ++ w2 ++ w3
    k' :: aesKeys t n (gfDouble rc) k'

def shiftRows (s : List Byte) : List Byte :=
  (List.range 16).map (fun i => s.getD ((i + 4 * (i % 4)) % 16) 0)

def mixColumns (s : List Byte) : List Byte :=
  (List.range 16).map (fun i =>
    let c := i / 4 * 4
    let a := fun j => octet s (c + (i + j) % 4)
    BitVec.ofNat 8 (gfDouble (a 0) ^^^ (gfDouble (a 1) ^^^ a 1) ^^^ a 2 ^^^ a 3))

/-- AES-128 encryption of a block. -/
def aesEncrypt (key block : List Byte) : List Byte :=
  let t := sboxTab
  let ks := aesKeys t 10 1 key
  let s := xorOctets block key
  let s := (ks.take 9).foldl (fun s k => xorOctets (mixColumns (shiftRows (s.map (subByte t)))) k) s
  xorOctets (shiftRows (s.map (subByte t))) (ks.getD 9 [])

/-! ### CCM* (R312) -/

def pad16 (l : List Byte) : List Byte := l ++ List.replicate ((16 - l.length % 16) % 16) 0

/-- CBC-MAC over whole blocks. -/
def cbcMac (key : List Byte) (l : List Byte) : List Byte :=
  (chunks 16 (l.length / 16) l).foldl (fun x b => aesEncrypt key (xorOctets x b)) (List.replicate 16 0)

/-- The authentication tag of `m` octets before encryption. Length field of two octets. -/
def ccmTag (m : Nat) (key nonce a msg : List Byte) : List Byte :=
  let flags := (if a.isEmpty then 0 else 64) + 8 * ((m - 2) / 2) + 1
  let b0 := [BitVec.ofNat 8 flags] ++ nonce ++ beOctets 2 msg.length
  let aBlk := if a.isEmpty then [] else pad16 (beOctets 2 a.length ++ a)
  (cbcMac key (b0 ++ aBlk ++ pad16 msg)).take m

/-- Key stream block `i`. -/
def ccmStream (key nonce : List Byte) (i : Nat) : List Byte :=
  aesEncrypt key ([1] ++ nonce ++ beOctets 2 i)

/-- The octets under the key stream from block 1 on. -/
def ccmCrypt (key nonce msg : List Byte) : List Byte :=
  ((chunks 16 (msg.length / 16 + 1) msg).zipIdx).flatMap (fun e => xorOctets e.1 (ccmStream key nonce (e.2 + 1)))

/-- CCM* sealing: ciphertext and encrypted tag of `m` octets. -/
def ccmSeal (m : Nat) (key nonce a msg : List Byte) : List Byte :=
  ccmCrypt key nonce msg ++ xorOctets (ccmTag m key nonce a msg) (ccmStream key nonce 0)

/-- CCM* opening: the plain text where the tag is right. -/
def ccmOpen (m : Nat) (key nonce a c : List Byte) : Option (List Byte) :=
  if c.length < m then none
  else
    let msg := ccmCrypt key nonce (c.take (c.length - m))
    if xorOctets (ccmTag m key nonce a msg) (ccmStream key nonce 0) = c.drop (c.length - m) then some msg else none

/-! ### ECDSA P-256 -/

def p256P : Nat := 0xffffffff00000001000000000000000000000000ffffffffffffffffffffffff
def p256N : Nat := 0xffffffff00000000ffffffffffffffffbce6faada7179e84f3b9cac2fc632551
def p256B : Nat := 0x5ac635d8aa3a93e7b3ebbd55769886bc651d06b0cc53b0f63bce3c3e27d2604b
def p256G : Nat × Nat :=
  (0x6b17d1f2e12c4247f8bce6e563a440f277037d812deb33a0f4a13945d898c296,
   0x4fe342e2fe1a7f9b8ee7eb4a7c0f9e162bce33576b315ececbb6406837bf51f5)

/-- Modular power by `n` bits of the exponent. -/
def powMod (m : Nat) : Nat → Nat → Nat → Nat → Nat
  | 0, _, _, acc => acc
  | n + 1, a, e, acc => powMod m n (a * a % m) (e / 2) (if e % 2 = 1 then acc * a % m else acc)

/-- The inverse modulo a prime of 256 bits. -/
def invMod (m a : Nat) : Nat := powMod m 256 (a % m) (m - 2) 1

/-- A point of the curve by its Jacobian coordinates: the affine point is (X / Z², Y / Z³), and Z = 0 is the point at
infinity. -/
structure EcPoint where
  x : Nat
  y : Nat
  z : Nat
deriving DecidableEq, Repr

/-- `a - b` modulo the field's prime, of reduced operands. -/
def subP (a b : Nat) : Nat := (a + p256P - b) % p256P

/-- The double of a point. -/
def ecDouble (q : EcPoint) : EcPoint :=
  let p := p256P
  let zz := q.z * q.z % p
  let yy := q.y * q.y % p
  let b := 4 * q.x * yy % p
  let m := 3 * subP q.x zz * (q.x + zz) % p
  let x := subP (m * m % p) (2 * b % p)
  { x := x, y := subP (m * subP b x % p) (8 * yy * yy % p), z := 2 * q.y * q.z % p }

/-- The sum of two points. -/
def ecAdd (q r : EcPoint) : EcPoint :=
  let p := p256P
  if q.z = 0 then r
  else if r.z = 0 then q
  else
    let zq := q.z * q.z % p
    let zr := r.z * r.z % p
    let u := q.x * zr % p
    let s := q.y * zr * r.z % p
    let h := subP (r.x * zq % p) u
    let d := subP (r.y * zq * q.z % p) s
    if h = 0 then if d = 0 then ecDouble q else { x := 1, y := 1, z := 0 }
    else
      let hh := h * h % p
      let v := u * hh % p
      let hhh := h * hh % p
      let x := subP (subP (d * d % p) hhh) (2 * v % p)
      { x := x, y := subP (d * subP v x % p) (s * hhh % p), z := h * q.z * r.z % p }

/-- Multiplication by `n` bits of a scalar, the lowest first. -/
def ecMul : Nat → Nat → EcPoint → EcPoint → EcPoint
  | 0, _, _, acc => acc
  | n + 1, k, q, acc => ecMul n (k / 2) (ecDouble q) (if k % 2 = 1 then ecAdd acc q else acc)

/-- ECDSA P-256 verification: public key X then Y, digest, signature r then s (R305, R307). -/
def ecdsaVerify (pub digest sig : List Byte) : Bool :=
  let x := ofBe (octetsAt pub 0 32)
  let y := ofBe (octetsAt pub 32 32)
  let r := ofBe (octetsAt sig 0 32)
  let s := ofBe (octetsAt sig 32 32)
  let z := ofBe (octetsAt digest 0 32)
  let p := p256P
  let n := p256N
  if x < p ∧ y < p ∧ y * y % p = (x * x * x + (p - 3) * x + p256B) % p ∧ 0 < r ∧ r < n ∧ 0 < s ∧ s < n then
    let w := invMod n s
    let q := ecMul 256 (z * w % n) { x := p256G.1, y := p256G.2, z := 1 } { x := 1, y := 1, z := 0 }
    let q := ecMul 256 (r * w % n) { x := x, y := y, z := 1 } q
    q.z != 0 && q.x * invMod p (q.z * q.z) % p % n == r
  else false

end Sys2Proof.Machine
end

