-- ==== Sys2Proof/Machine/Signal.lean ====
section
/-! DEFINITION. What goes on the air and what the modem makes of it: frames as the modulators take them (R159-R166), the
long-reach chips (R161, R162), the MR-OFDM tracking (R165), and what the cancellers subtract (R106, R107). What the manual
takes over from IEEE 802.15.4-2020 without writing it out is PRESUMED from the standard (log 10). -/

namespace Sys2Proof.Machine

/-! ### Bits and symbols -/

/-- The `w` bits of `x`, the most significant first. -/
def msbBits (w x : Nat) : List Nat := (List.range w).map (fun i => bits x (w - 1 - i) 1)

/-- The number that bits spell, the most significant first. -/
def ofMsb (l : List Nat) : Nat := l.foldl (fun a b => 2 * a + b) 0

/-- The bits of octets, the least significant of each first. -/
def lsbBits (l : List Byte) : List Nat := l.flatMap (fun b => (List.range 8).map (fun i => bits b.toNat i 1))

/-- The 4-bit symbols of octets, the low nibble of each first (R161). -/
def nibbles (l : List Byte) : List Nat := l.flatMap (fun b => [b.toNat % 16, b.toNat / 16])

/-- The 8-bit HCS of the PHR bits before it (R160, R164): x⁸ + x² + x + 1, preset to ones and complemented. -/
def hcs8 (l : List Nat) : Nat := 255 - l.foldl crc8Bit 255

/-! ### Long-reach chips (R161, R162) -/

/-- The sequence of symbol 0: chip `i` is bit `i`. -/
def chipSeed : Nat := 0x6B1ED248F39A05C7

/-- Chip `i` of symbol `k`: symbols 1 to 7 are symbol 0 delayed by 8 chips each, 8 to 15 invert the odd chips of 0 to 7. -/
def chipOf (k i : Nat) : Nat :=
  let base := bits chipSeed ((i + 64 - 8 * (k % 8)) % 64) 1
  if k < 8 then base else (base + i) % 2

/-- Symbols as pulses: 64 chips each, chip 0 first, even chips on I and odd ones on Q, which lies half a chip behind. -/
def pulsesOf (symbols : List Nat) : List Pulse :=
  (symbols.flatMap (fun k => (List.range 64).map (chipOf k))).zipIdx.map (fun e => ⟨e.2 % 2 == 1, e.2, e.1 == 1⟩)

/-! ### Whitening, scrambling and coding (R164, R166) -/

/-- `n` bits of the PN9 sequence x⁹ + x⁵ + 1 after its register `r`, whose last bit is the head. -/
def pn9 : Nat → List Nat → List Nat
  | 0, _ => []
  | n + 1, r =>
    let b := (r.getD 3 0 + r.getD 8 0) % 2
    b :: pn9 n ((b :: r).take 9)

/-- Bits added to the PN9 sequence from a seed. -/
def pnAdd (seed : List Nat) (l : List Nat) : List Nat := (l.zip (pn9 l.length seed)).map (fun e => (e.1 + e.2) % 2)

/-- Octets whitened or unwhitened (R166): the sequence starts from ones. -/
def whitened (l : List Byte) : List Byte :=
  let b := pnAdd (List.replicate 9 1) (lsbBits l)
  (List.range l.length).map (fun i => BitVec.ofNat 8 (ofMsb ((b.drop (8 * i)).take 8).reverse))

/-- The non-recursive non-systematic code of rate ½ (R166), with its register. -/
def convCode : List Nat → List Nat → List Nat
  | _, [] => []
  | r, b :: l =>
    let g := fun i => r.getD i 0
    ((b + g 0 + g 1 + g 2) % 2) :: ((b + g 1 + g 2) % 2) :: convCode ((b :: r).take 3) l

/-- The interleaver (R166): 16 code symbols of two bits at a time; what is left at the end stays in order. -/
def interleaved : Nat → List Nat → List Nat
  | 0, l => l
  | n + 1, l =>
    if l.length < 32 then l
    else
      (List.range 16).flatMap (fun k => let t := 15 - 4 * (k % 4) - k / 4; [l.getD (2 * t) 0, l.getD (2 * t + 1) 0]) ++
        interleaved n (l.drop 32)

/-- The bits before the code: those of a code word, from the register `r` on. -/
def convInverse : List Nat → List Nat → List Nat
  | r, _ :: b :: l =>
    let x := (b + r.getD 1 0 + r.getD 2 0) % 2
    x :: convInverse ((x :: r).take 3) l
  | _, _ => []

/-- The bits that a lane decodes from received code bits (R167), from the register `r` on: the interleaver is its own inverse,
and what the decoder makes of a word that is no code word is a free value (log 312). -/
def fskDecoded (p : PhyParm) (r code : List Nat) : List Nat :=
  let c := if p.interleave then interleaved code.length code else code
  let x := convInverse r c
  if convCode r x = c then x else Config.fskCorrect c

/-- PHR and PSDU bits of family 4 after coding, with the tail octet (three zeros and padding). -/
def fskCoded (p : PhyParm) (phr psdu : List Nat) : List Nat × List Nat :=
  if !p.fec then (phr, psdu)
  else
    let all := phr ++ psdu ++ [0, 0, 0, 0, 1, 0, 1, 1]
    let c := convCode [0, 0, 0] all
    let c := if p.interleave then interleaved all.length c else c
    (c.take (2 * phr.length), c.drop (2 * phr.length))

/-! ### Frames -/

/-- The SFD octet of families 0 and 2 (R159, R163). -/
def sfdOctet (family : Nat) : Byte := if family = 0 then 0xA7 else 0x5B

/-- The PHR of a PSDU of `n` octets as bits, the first sent first (R159, R160, R163, R164, R166): reserved bits and mode
switch 0; `field` is the scrambler field of family 3. -/
def phrBits (p : PhyParm) (field n : Nat) : List Nat :=
  match p.family with
  | 0 => (List.range 8).map (fun i => bits n i 1 * (if i < 7 then 1 else 0))
  | 1 =>
    let b := 0 :: msbBits 2 p.rate ++ [0, 0] ++ msbBits 11 n
    b ++ msbBits 8 (hcs8 b)
  | 2 =>
    let x := n % 2048 + (if p.fcs2 then 2048 else 0)
    (List.range 16).map (fun i => bits (x + 4096 * crcBits 0xC 12 x 0) i 1)
  | 3 =>
    let b := msbBits 5 p.rate ++ [0] ++ msbBits 11 n ++ [0, 0] ++ msbBits 2 field ++ [0]
    b ++ msbBits 8 (hcs8 b) ++ [0, 0, 0, 0, 0, 0]
  | _ => [0, 0, 0, (if p.fcs2 then 1 else 0), (if p.whiten then 1 else 0)] ++ msbBits 11 n

/-- Bits, the first in bit 0, as octets. -/
def octetsOfBits (l : List Nat) : List Byte :=
  (List.range (l.length / 8)).map (fun i => BitVec.ofNat 8 (ofMsb ((l.drop (8 * i)).take 8).reverse))

/-- The tones of bits (R166): 0 and 1 of 2-FSK at −1 and +1; two bits of 4-FSK at −1, −3, +1 and +3. PRESUMED from the
standard (log 10). -/
def fskTones (fsk4 : Bool) (l : List Nat) : List Int :=
  if fsk4 then (List.range (l.length / 2)).map (fun i =>
    match l.getD (2 * i) 0, l.getD (2 * i + 1) 0 with
    | 0, 0 => -1
    | 0, _ => -3
    | _, 0 => 1
    | _, _ => 3)
  else l.map (fun b => if b = 0 then -1 else 1)

/-- FSK rates in kb/s by rate_sel (R166), 0 where there is none. -/
def fskKbps : Nat → Nat
  | 0 => 50
  | 1 => 100
  | 2 => 150
  | 3 => 200
  | 4 => 300
  | _ => 0

/-- An MR-FSK frame on the air (R166): the unit is half the modulation index times the symbol rate. -/
def fskWave (p : PhyParm) (bits : List Nat) : FskWave :=
  { tones := fskTones p.fsk4 bits, unit := fskKbps p.rate * p.modIndex * 5 / (if p.fsk4 then 2 else 1)
    bt := if p.gauss then some 50 else none }

/-- A frame as its modulator takes it (R159-R166). `field` is the scrambler field of family 3. -/
def airSignal (p : PhyParm) (field : Nat) (psdu : List Byte) : AirSignal :=
  let phr := phrBits p field psdu.length
  match p.family with
  | 0 => ⟨List.replicate 8 0 ++ nibbles [sfdOctet 0], nibbles (octetsOfBits phr), nibbles psdu, [], none⟩
  | 1 => ⟨List.replicate 16 0 ++ [(Config.oqpskSfd p.chipRate).1, (Config.oqpskSfd p.chipRate).2], phr, lsbBits psdu, [], none⟩
  | 2 =>
    let shr := List.replicate p.preamble 0 ++ nibbles [sfdOctet 2]
    let phr := nibbles (octetsOfBits phr)
    ⟨shr, phr, nibbles psdu, pulsesOf (shr ++ phr ++ nibbles psdu), none⟩
  | 3 =>
    ⟨[0, 0, 0, 0, 1, 1], phr, pnAdd (msbBits 9 (Config.scramblerSeed field).toNat) (lsbBits psdu), [], none⟩
  | _ =>
    let coded := fskCoded p phr (lsbBits (if p.whiten then whitened psdu else psdu))
    let shr := (List.range (8 * p.preamble)).map (· % 2) ++ msbBits 16 p.sfd
    ⟨shr, coded.1, coded.2, [], some (fskWave p (shr ++ coded.1 ++ coded.2))⟩

/-- The frames of a transmit command: its wake frames, then its own (R218); each MR-OFDM frame has a scrambler field of
its own, which the manual leaves open (R164). -/
def airFrames (cmd : TxCmd) : List AirSignal :=
  (cmd.lead ++ [cmd.psdu]).zipIdx.map (fun e =>
    airSignal cmd.phy (Config.scramblerField (cmd.id * 64 + e.2)).toNat e.1)

/-- The descrambled or unwhitened PSDU of a frame received (R164, R166). -/
def psduReceived (family : Nat) (whiten : Bool) (seed : Nat) (l : List Byte) : List Byte :=
  if family = 3 then octetsOfBits (pnAdd (msbBits 9 (Config.scramblerSeed seed).toNat) (lsbBits l))
  else if whiten then whitened l
  else l

/-! ### Complex numbers -/

def cAdd (a b : Cplx) : Cplx := ⟨a.re + b.re, a.im + b.im⟩
def cSub (a b : Cplx) : Cplx := ⟨a.re - b.re, a.im - b.im⟩
def cMul (a b : Cplx) : Cplx := ⟨a.re * b.re - a.im * b.im, a.re * b.im + a.im * b.re⟩
/-- Scaled by a whole number. -/
def cScale (k : Int) (a : Cplx) : Cplx := ⟨k * a.re, k * a.im⟩
/-- The power of a sample. -/
def cPower (a : Cplx) : Int := a.re * a.re + a.im * a.im
/-- The sum of products of two lists. -/
def cDot (a b : List Cplx) : Cplx := ((a.zip b).map (fun e => cMul e.1 e.2)).foldl cAdd {}

/-! ### MR-OFDM tracking (R165) -/

/-- The taps: for each data subcarrier the mean of the two LTF symbols, rounded down. -/
def ltfTaps (ltf : List (Cplx × Cplx)) : List Cplx :=
  ltf.map (fun e => ⟨(e.1.re + e.2.re) / 2, (e.1.im + e.2.im) / 2⟩)

/-- The common phase and the phase slope fitted across the pilot subcarriers of a symbol: the straight line of least
squares, rounded down (log 51). -/
def pilotFit (l : List (Int × Int)) : Int × Int :=
  let n : Int := l.length
  let sum := fun (f : Int × Int → Int) => (l.map f).foldl (· + ·) 0
  let sk := sum (·.1)
  let sp := sum (·.2)
  let den := n * sum (fun e => e.1 * e.1) - sk * sk
  let slope := if den = 0 then 0 else (n * sum (fun e => e.1 * e.2) - sk * sp) / den
  (if n = 0 then 0 else (sp - slope * sk) / n, slope)

/-- The phase of subcarrier `k` of a symbol after the correction by its fit, before demapping. -/
def correctedPhase (pilots : List (Int × Int)) (k phase : Int) : Int :=
  phase - (pilotFit pilots).1 - (pilotFit pilots).2 * k

/-- A data subcarrier equalised by its one tap. -/
def equalised (tap y : Cplx) : Cplx :=
  let d := cPower tap
  if d = 0 then y
  else
    let z := cMul y ⟨tap.re, -tap.im⟩
    ⟨z.re * 2 ^ 24 / d, z.im * 2 ^ 24 / d⟩

/-- The points of a symbol that go to the demapper: each data subcarrier equalised by its tap and turned by the symbol's fit. -/
def Equaliser.points (e : Equaliser) (pilots : List (Int × Int)) (data : List (Int × Cplx)) : List (Int × Int) :=
  data.zipIdx.map (fun d =>
    let w := Config.turn (correctedPhase pilots d.1.1 0)
    let z := cMul (equalised (e.taps.getD d.2 {}) d.1.2) ⟨w.1, w.2⟩
    (z.re / 2 ^ 24, z.im / 2 ^ 24))

/-- The bits of OFDM symbols, at a MCS or of a PHR: what the demapper and the decoder make of the points is a free value (log
312). -/
def Equaliser.decode (e : Equaliser) (option : Nat) (mcs : Option Nat) (pilots : List (List (Int × Int)))
    (data : List (List (Int × Cplx))) : List Nat :=
  Config.ofdmDecode option mcs (data.zipIdx.map (fun d => e.points (pilots.getD d.2 []) d.1))

/-- One OFDM symbol: its fit is folded into the estimates with trk_shift 3 and 4. -/
def Equaliser.symbol (e : Equaliser) (pilots : List (Int × Int)) : Equaliser :=
  let (phi, slope) := pilotFit pilots
  { e with phi := phi, fEst := e.fEst + (phi - e.phi) / 8, tauEst := e.tauEst + slope / 16 }

/-- The symbols of a PHR or PSDU, in turn. -/
def Equaliser.track (e : Equaliser) (symbols : List (List (Int × Int))) : Equaliser := symbols.foldl Equaliser.symbol e

/-- The bits of a received PHR (R165, R167): as decoded, or from its code bits or subcarriers. -/
def headerBits (p : PhyParm) (e : Equaliser) (seen : HeaderSeen) : Phr :=
  let raw := fun (l : List Nat) => (⟨BitVec.ofNat 36 (ofMsb l.reverse)⟩ : Phr)
  if p.family = 4 ∧ p.fec ∧ seen.code ≠ [] then raw (fskDecoded p [0, 0, 0] seen.code)
  else if p.family = 3 ∧ seen.data ≠ [] then raw (e.decode p.option none seen.pilots seen.data)
  else seen.phr

/-- The octets of a received PSDU of `n` octets (R165, R167), before descrambling, in the same way. -/
def payloadOctets (p : PhyParm) (e : Equaliser) (reg : List Nat) (rate n : Nat) (psdu : List Byte) (seen : SamplesSeen) :
    List Byte :=
  if p.family = 4 ∧ p.fec ∧ seen.code ≠ [] then octetsOfBits ((fskDecoded p reg seen.code).take (8 * n))
  else if p.family = 3 ∧ seen.data ≠ [] then
    octetsOfBits ((e.decode p.option (some rate) seen.pilots seen.data).take (8 * n))
  else psdu.take n

/-! ### Cancellers (R106, R107) -/

/-- The reference of a chain's analog canceller (R106): the SICREF ball with ext_pa 1 and ref_sel 1, else the internal
coupler. -/
def sicRefBall (s : State) (n : Nat) : Bool := s.on (Reg.TXC_CTRL_ext_pa n) && s.on (Reg.SIC_REF_ref_sel n)

/-- The samples of a chain's reference tap (R106). -/
def sicReference (s : State) (v : SicView) (n : Nat) : List Cplx :=
  (if sicRefBall s n then v.sicref else v.coupler).getD n []

/-- The analog canceller (R106): what its 8 taps, 2 ns apart, make of the reference (the newest sample first) is
subtracted from the receiver's input. Taps and coefficients are in units of 2⁻²⁴ (log 51). -/
def analogCancelled (x : SicTx) (reference : List Cplx) (input : Cplx) : Cplx :=
  let model := cDot x.taps reference
  cSub input ⟨model.re / 2 ^ 24, model.im / 2 ^ 24⟩

/-- The 24 terms of the memory polynomial (R107): the last 8 baseband samples, each to the orders 1, 3 and 5. -/
def polyBasis (drive : List Cplx) : List Cplx :=
  [0, 1, 2].flatMap (fun p => (List.range 8).map (fun m => cScale (cPower (drive.getD m {}) ^ p) (drive.getD m {})))

/-- The digital canceller's model of a chain's leakage, driven by its transmitted baseband (R107). -/
def leakModel (x : SicTx) (drive : List Cplx) : Cplx :=
  let model := cDot x.coefs (polyBasis drive)
  ⟨model.re / 2 ^ 24, model.im / 2 ^ 24⟩

/-- The chains whose leakage the lanes of band `b` subtract now (R107): those between transmit step and release. -/
def cancelledChains (s : State) (b : Nat) : List Nat :=
  ((s.rxOf b).ceil.map (·.1)).filter (fun n => (s.sicTxOf n).stepped)

/-- A stream shifted by `offset` kHz and passed through a profile's channel filter (R107, R126). -/
def channelised (profile : Nat) (offset : Int) (stream : Nat → Cplx) : Cplx :=
  let sum := ((Config.channelFilter profile).zipIdx.map (fun e =>
    let w := Config.phasor offset e.2
    cScale e.1 (cMul ⟨w.1, w.2⟩ (stream e.2)))).foldl cAdd {}
  ⟨sum.re / 2 ^ 24, sum.im / 2 ^ 24⟩

/-- The frequency a chain transmits on. -/
def chainFreq (s : State) (n : Nat) : Nat := ((tabGet (s.chainOf n).slots (s.chainOf n).slot).map (·.freq)).getD 0

/-- A lane's sample before its digital canceller (R106): the receiver's input, less what the analog cancellers of the
band's transmitting chains make of their references, on the lane's channel. -/
def laneSample (s : State) (a : Assign) (v : SicView) : Cplx :=
  channelised a.profile ((s.get (Reg.RFX_TUNE_lo_khz a.band) : Int) - a.freq) (fun k =>
    (cancelledChains s a.band).foldl
      (fun y n => analogCancelled (s.sicTxOf n) ((sicReference s v n).drop k) y) (v.input.getD k {}))

/-- A lane's sample after its digital canceller (R107), on the channel it is on now: each chain's model, shifted from the
chain's frequency to the lane's centre and passed through the lane's channel filter, is taken off. -/
def laneCancelled (s : State) (v : SicView) : Cplx :=
  match (s.laneOf v.lane.val).assign with
  | none => {}
  | some a =>
    (cancelledChains s a.band).foldl (fun y n =>
      cSub y (channelised a.profile ((chainFreq s n : Int) - a.freq) (fun k =>
        leakModel (s.sicTxOf n) ((v.drive.getD n []).drop k)))) (laneSample s a v)

end Sys2Proof.Machine
end

