-- ==== Sys2Proof/Machine/PhyOps.lean ====
section
/-! DEFINITION. The modem (chapter 06): profiles, their checks, airtime, PHR verification, FCS. -/

namespace Sys2Proof.Machine

def profFamily (s : State) (k : Nat) : Nat := s.get (Reg.PHY_PROF_CTRL_family k)
def profBand (s : State) (k : Nat) : Nat := s.get (Reg.PHY_PROF_CTRL_band k)
def profValid (s : State) (k : Nat) : Bool := s.on (Reg.PHY_PROF_CTRL_valid k)
def profMaxPsdu (s : State) (k : Nat) : Nat := s.get (Reg.PHY_PROF_MAX_max_psdu k)

/-- The FCS length that frames of a profile carry on transmit (R169). -/
def profFcs (s : State) (k : Nat) : Nat := if s.on (Reg.PHY_PROF_CTRL_fcs_len k) then 2 else 4

/-- Rates of family 1 in bit/s (R160). -/
def oqpskRate (chipRate rm : Nat) : Nat :=
  match chipRate, rm with
  | 0, 0 => 6250
  | 0, 1 => 12500
  | 0, 2 => 25000
  | 0, 3 => 50000
  | 1, 0 => 31250
  | 1, 1 => 125000
  | 1, 2 => 250000
  | 1, 3 => 500000
  | _, _ => 0

/-- Data bits per OFDM symbol of an option (0-3) and MCS, 0 where the table has none (R164). -/
def ofdmBits (option mcs : Nat) : Nat :=
  match option, mcs with
  | 0, 0 => 12
  | 0, 1 => 24
  | 0, 2 => 48
  | 0, 3 => 96
  | 1, 0 => 6
  | 1, 1 => 12
  | 1, 2 => 24
  | 1, 3 => 48
  | 1, 4 => 72
  | 1, 5 => 96
  | 2, 1 => 6
  | 2, 2 => 12
  | 2, 3 => 24
  | 2, 4 => 36
  | 2, 5 => 48
  | 2, 6 => 72
  | 3, 2 => 6
  | 3, 3 => 12
  | 3, 4 => 18
  | 3, 5 => 24
  | 3, 6 => 36
  | _, _ => 0

/-- The transmit parameters of profile `k` (R154). -/
def phyOf (s : State) (k : Nat) : PhyParm :=
  { family := profFamily s k, band := profBand s k, rate := s.get (Reg.PHY_PROF_RATE_rate_sel k)
    chipRate := s.get (Reg.PHY_PROF_RATE_chip_rate k), option := s.get (Reg.PHY_PROF_RATE_ofdm_option k)
    fsk4 := s.on (Reg.PHY_PROF_RATE_fsk4 k), fec := s.on (Reg.PHY_PROF_RATE_fec k)
    interleave := s.on (Reg.PHY_PROF_RATE_interleave k), modIndex := s.get (Reg.PHY_PROF_RATE_mod_index k)
    gauss := s.on (Reg.PHY_PROF_CTRL_gauss k), whiten := s.on (Reg.PHY_PROF_CTRL_whiten k)
    fcs2 := s.on (Reg.PHY_PROF_CTRL_fcs_len k), preamble := s.get (Reg.PHY_PROF_SHR_preamble_len k)
    sfd := s.get (Reg.PHY_PROF_SHR_sfd k), maxPsdu := profMaxPsdu s k }

/-- The occupied bandwidth in Hz (R157). -/
def occupiedOf (p : PhyParm) : Nat :=
  match p.family with
  | 0 => 2000000
  | 1 => if p.chipRate = 0 then 200000 else 2000000
  | 2 => 300000
  | 3 => match p.option with
    | 0 => 1094000
    | 1 => 552000
    | 2 => 281000
    | _ => 156000
  | _ => (100 + p.modIndex) * (if p.fsk4 then fskKbps p.rate / 2 else fskKbps p.rate) * 10 + 25000
def occupiedHz (s : State) (k : Nat) : Nat := occupiedOf (phyOf s k)

/-- The acquisition range in Hz (R157). -/
def acquireOf (p : PhyParm) : Nat :=
  match p.family with
  | 0 => 120000
  | 1 => if p.chipRate = 0 then 20000 else 40000
  | 2 => 20000
  | 3 => 40000
  | _ => 25000
def acquireHz (s : State) (k : Nat) : Nat := acquireOf (phyOf s k)

/-- Airtime in µs of a PSDU of `n` octets, FCS included, at the rate of `p` where the family has one (R171). -/
def airtimeOf (p : PhyParm) (n : Nat) : Nat :=
  match p.family with
  | 0 => 192 + 32 * n
  | 1 => (if p.chipRate = 0 then 5760 + 3840 else 576 + 768) + n * 8000000 / oqpskRate p.chipRate p.rate
  | 2 => 320 * (p.preamble + 6) + 640 * n
  | 3 =>
    let bps := ofdmBits p.option p.rate
    720 + 120 * ((if p.option = 0 then 3 else 6) + (8 * n + 6 + bps - 1) / bps)
  | _ =>
    let oct := if p.fec then 2 * (n + 3) else n + 2
    ((p.preamble + 2 + oct) * 8000000 / fskKbps p.rate + 999) / 1000

/-- Airtime in µs at rate mode or MCS `sel` where profile `k` has one. -/
def airtimeAt (s : State) (k sel n : Nat) : Nat := airtimeOf { phyOf s k with rate := sel } n

/-- Airtime in µs at the profile's own rate (R171). -/
def airtime (s : State) (k n : Nat) : Nat := airtimeOf (phyOf s k) n

/-- Duration of the SHR in µs (R159, R160, R163-R166), rounded up. -/
def shrOf (p : PhyParm) : Nat :=
  match p.family with
  | 0 => 160
  | 1 => if p.chipRate = 0 then 5760 else 576
  | 2 => 320 * (p.preamble + 2)
  | 3 => 720
  | _ => ((p.preamble + 2) * 8000000 / fskKbps p.rate + 999) / 1000
def shrUs (s : State) (k : Nat) : Nat := shrOf (phyOf s k)

/-- A symbol of the SHR lasts `(n, d)`: n / d ns (R157, R160, R164, R166): for the long-reach and O-QPSK families a chip
sequence, for MR-OFDM an OFDM symbol, for MR-FSK one bit of 2-FSK or two of 4-FSK. -/
def symbolTime (p : PhyParm) : Nat × Nat :=
  match p.family with
  | 0 => (16000, 1)
  | 1 => (if p.chipRate = 0 then 320000 else 32000, 1)
  | 2 => (320000, 1)
  | 3 => (120000, 1)
  | _ => (if p.fsk4 then 2000000 else 1000000, fskKbps p.rate)

/-- The preamble in symbols (R159, R160, R163, R164, R166): of MR-FSK the bits of its octets, two to a symbol of 4-FSK. -/
def preambleSymbols (p : PhyParm) : Nat :=
  match p.family with
  | 0 => 8
  | 1 => 16
  | 2 => p.preamble
  | 3 => 6
  | _ => if p.fsk4 then 4 * p.preamble else 8 * p.preamble

/-- How long a lane waits for the SFD after its lock, in ns, rounded up: the maximum preamble and 2 symbols (R135). -/
def sfdWaitNs (p : PhyParm) : Nat :=
  let (n, d) := symbolTime p
  ((preambleSymbols p + 2) * n + d - 1) / d

/-- The largest PSDU of a family (R157). -/
def familyMax : Nat → Nat
  | 0 => 127
  | 2 => 255
  | _ => 2047

/-- The rate fields of profile `k` form a row of the family's rate table (R153, R160, R164, R166). -/
def rateOk (s : State) (k : Nat) : Bool :=
  let sel := s.get (Reg.PHY_PROF_RATE_rate_sel k)
  match profFamily s k with
  | 1 => decide (sel ≤ 3)
  | 3 => ofdmBits (s.get (Reg.PHY_PROF_RATE_ofdm_option k)) sel != 0
  | 4 =>
    let mi := s.get (Reg.PHY_PROF_RATE_mod_index k)
    (if s.on (Reg.PHY_PROF_RATE_fsk4 k) then sel == 3 || sel == 4 else decide (sel ≤ 4)) &&
      decide (25 ≤ mi ∧ mi ≤ 250)
  | _ => true

/-- load_result of a load of profile `k` (R153): the first check that fails. -/
def loadCheck (s : State) (k : Nat) : Nat :=
  let fam := profFamily s k
  let band := profBand s k
  let pre := s.get (Reg.PHY_PROF_SHR_preamble_len k)
  let max := profMaxPsdu s k
  if 5 ≤ fam then 1
  else if fam = 0 ∧ band = 0 ∨ (fam = 1 ∨ fam = 2) ∧ band = 1 then 2
  else if !rateOk s k then 3
  else if max = 0 ∨ familyMax fam < max ∨ fam = 4 ∧ pre < 4 ∨ fam = 2 ∧ (pre < 8 ∨ 64 < pre) then 4
  else 0

/-- PROFILE_LOAD (R153). -/
def profileLoad (s : State) (k : Nat) : State :=
  let r := loadCheck s k
  let s := s.set (Reg.PHY_PROF_CTRL_load_result k) r
  if r = 0 then s.set (Reg.PHY_PROF_CTRL_valid k) 1 else s

/-- An enabled lane, a pending assignment or a valid beacon channel, as written or still in force, names profile `k`
(R153, R155). -/
def profileInUse (s : State) (k : Nat) : Bool :=
  s.lanes.any (fun e =>
    (s.on (Reg.CHZ_LANE_CTRL_enable e.1) && (e.2.assign.map (·.profile)) == some k) ||
      (e.2.pending.map (·.profile)) == some k) ||
  (s.on Reg.AMC_EB_CHANA_valid && s.get Reg.AMC_EB_CHANA_profile == k) ||
  (s.on Reg.AMC_EB_CHANB_valid && s.get Reg.AMC_EB_CHANB_profile == k) ||
  (ebOn s Reg.AMC_EB_CHANA_valid && ebCur s Reg.AMC_EB_CHANA_profile == k) ||
  (ebOn s Reg.AMC_EB_CHANB_valid && ebCur s Reg.AMC_EB_CHANB_profile == k)

/-- PROFILE_UNLOAD (R153). -/
def profileUnload (s : State) (k : Nat) : State :=
  if !profValid s k then s
  else if profileInUse s k then s.set (Reg.PHY_PROF_CTRL_load_result k) 5
  else (s.set (Reg.PHY_PROF_CTRL_valid k) 0).set (Reg.PHY_PROF_CTRL_load_result k) 0

/-- AIRTIME_QUERY (R172). -/
def airtimeQuery (s : State) (k n : Nat) : State :=
  let s := (s.set Reg.PHY_AIR_Q_profile k).set Reg.PHY_AIR_Q_psdu_len n
  if !profValid s k || n == 0 || decide (profMaxPsdu s k < n) then
    (s.set Reg.PHY_AIR_RES_airtime_us 0).set Reg.PHY_AIR_RES_invalid 1
  else (s.set Reg.PHY_AIR_RES_airtime_us (airtime s k n)).set Reg.PHY_AIR_RES_invalid 0

/-! ### Check sequences -/

/-- The 2-octet FCS of IEEE 802.15.4-2020 (R169). PRESUMED from the standard (log 10). -/
def fcs16 (l : List Byte) : Nat := crcOctets 0x8408 0 l

/-- The 4-octet FCS of IEEE 802.15.4-2020 (R169); a frame shorter than 4 octets is padded with zeros.
PRESUMED from the standard (log 10). -/
def fcs32 (l : List Byte) : Nat :=
  crcOctets 0xEDB88320 0xFFFFFFFF (l ++ List.replicate (4 - l.length) 0) ^^^ 0xFFFFFFFF

/-- The PSDU with its FCS appended (R169). -/
def withFcs (two : Bool) (l : List Byte) : List Byte :=
  l ++ (if two then leOctets 2 (fcs16 l) else leOctets 4 (fcs32 l))

/-- The FCS of a received PSDU is right (R142, R169). -/
def fcsGood (two : Bool) (psdu : List Byte) : Bool :=
  let n := if two then 2 else 4
  let body := psdu.take (psdu.length - n)
  decide (n < psdu.length) && withFcs two body == psdu

/-- CRC-4 of the long-reach PHR (R163): x⁴ + x + 1, initial value 0, LSB first. -/
def crc4 (x : Nat) : Nat := crcBits 0xC 12 x 0

/-- What a verified PHR says: length, rate mode or MCS, 2-octet FCS, whitening, scrambler field. -/
structure PhrInfo where
  length : Nat
  rate   : Nat := 0
  fcs2   : Bool
  whiten : Bool := false
  seed   : Nat := 0
deriving DecidableEq, Repr

/-- PHR verification in column order (R168): what the PHR says, or the PHY counter that the table names for its first
failure, if it names one. Reserved bits are ignored (R159, R164). -/
def phrCheck (p : PhyParm) (phr : Phr) : PhrInfo ⊕ Option Nat :=
  let raw := phr.raw.toNat
  let b := (List.range 36).map (fun i => bits raw i 1)
  let field := fun (i w : Nat) => ofMsb ((b.drop i).take w)
  let lenOk := fun (n : Nat) (two : Bool) => decide ((if two then 2 else 4) + 1 ≤ n ∧ n ≤ p.maxPsdu)
  match p.family with
  | 0 => if lenOk (bits raw 0 7) p.fcs2 then .inl { length := bits raw 0 7, fcs2 := p.fcs2 } else .inr none
  | 1 =>
    if hcs8 (b.take 16) ≠ field 16 8 then .inr (some Reg.PHY_CNT_PHR_HCS)
    else if field 0 1 ≠ 0 then .inr (some Reg.PHY_CNT_PHR_RATE)
    else if lenOk (field 5 11) p.fcs2 then .inl { length := field 5 11, rate := field 1 2, fcs2 := p.fcs2 }
    else .inr (some Reg.PHY_CNT_PHR_LEN)
  | 2 =>
    let n := bits raw 0 11
    let two := bits raw 11 1 == 1
    if crc4 (bits raw 0 12) != bits raw 12 4 then .inr (some Reg.PHY_CNT_PHR_HCS)
    else if lenOk n two && decide (n ≤ 255) then .inl { length := n, fcs2 := two }
    else .inr (some Reg.PHY_CNT_PHR_LEN)
  | 3 =>
    if hcs8 (b.take 22) ≠ field 22 8 then .inr (some Reg.PHY_CNT_PHR_HCS)
    else if ofdmBits p.option (field 0 5) = 0 then .inr (some Reg.PHY_CNT_PHR_RATE)
    else if lenOk (field 6 11) p.fcs2 then
      .inl { length := field 6 11, rate := field 0 5, fcs2 := p.fcs2, seed := field 19 2 }
    else .inr (some Reg.PHY_CNT_PHR_LEN)
  | _ =>
    -- mode switch, two reserved, FCS type, whitening, length
    let two := field 3 1 == 1
    if field 0 1 = 1 then .inr (some Reg.PHY_CNT_MODESW)
    else if lenOk (field 5 11) two then .inl { length := field 5 11, fcs2 := two, whiten := field 4 1 == 1 }
    else .inr (some Reg.PHY_CNT_PHR_LEN)

end Sys2Proof.Machine
end

