-- ==== Sys2Proof/Machine/LaneOps.lean ====
section
/-! DEFINITION. What the commands of the 128 demodulation lanes do (chapter 05). -/

namespace Sys2Proof.Machine

/-! ### States -/

/-- Lane states of R135. -/
def laneOFF : Nat := 0
def laneSWITCH : Nat := 1
def laneSEARCH : Nat := 2
def laneSYNC : Nat := 3
def laneHEADER : Nat := 4
def lanePAYLOAD : Nat := 5
def laneRETIRED : Nat := 6

def laneState (s : State) (n : Nat) : Nat := s.get (Reg.CHZ_LANE_STAT_state n)
def setLaneState (s : State) (n st : Nat) : State := s.set (Reg.CHZ_LANE_STAT_state n) st

/-- The lane is receiving: SYNC, HEADER or PAYLOAD. -/
def laneMid (s : State) (n : Nat) : Bool := decide (3 ≤ laneState s n ∧ laneState s n ≤ 5)

def State.onLane (s : State) (n : Nat) (f : Lane → Lane) : State := s.setLane n (f (s.laneOf n))

/-- The band a lane is assigned to. -/
def laneBand (s : State) (n : Nat) : Option Nat := ((s.laneOf n).assign).map (·.band)

/-- The lanes assigned to a band, in lane order. -/
def bandLanes (s : State) (b : Nat) : List Nat :=
  (s.lanes.filter (fun e => (e.2.assign.map (·.band)) == some b)).map (·.1)

/-- Band and centre as EV082 and EV084 name them (R335). -/
def bandFreq (a : Assign) : Nat := a.freq % 2 ^ 22 + 2 ^ 22 * a.band

/-- The lane is retired (R130, R143). -/
def laneIsRetired (s : State) (n : Nat) : Bool := bits (s.get (Reg.CHZ_RETIRED_retired (n / 32))) (n % 32) 1 == 1

/-- The 1 ms intervals of occupancy (R146) as LTB counts them (log 52): once a new one has begun, the one before counts
if it lay wholly in SEARCH; the new one starts in SEARCH and busy as the lane stands. -/
def occRoll (s : State) (n : Nat) : State :=
  let l := s.laneOf n
  let idx := s.ltb / 1000000
  if l.occIdx = idx then s
  else s.setLane n { l with
    occIdx := idx, occSearch := laneState s n == laneSEARCH
    occBusy := decide (signed 8 (s.cur Reg.CHZ_FAULT_CFG_interf_thr) ≤ s.sget (Reg.CHZ_LANE_ED_ed n))
    searchMs := l.searchMs + (if l.occSearch then 1 else 0)
    busyMs := l.busyMs + (if l.occSearch && l.occBusy then 1 else 0) }

/-- The lane leaves or enters SEARCH inside an interval, which then does not count (R146). -/
def occBreak (s : State) (n : Nat) : State := (occRoll s n).onLane n (fun l => { l with occSearch := false })

/-- The distance between two frequencies. -/
def absDiff (a b : Nat) : Nat := (a - b) + (b - a)

/-- Two bands of frequency overlap: centres in kHz, widths in Hz. -/
def overlapHz (f1 w1 f2 w2 : Nat) : Bool := decide (absDiff f1 f2 * 2000 < w1 + w2)

/-- A valid entry of the retired-channel list overlaps (R128, R148). -/
def chanRetired (s : State) (band freq widthHz : Nat) : Bool :=
  (List.range 32).any (fun k =>
    s.on (Reg.CHZ_RCH_FREQ_valid k) && s.get (Reg.CHZ_RCH_FREQ_band k) == band &&
      overlapHz freq widthHz (s.get (Reg.CHZ_RCH_FREQ_freq_khz k)) (s.get (Reg.CHZ_RCH_WIDTH_width_khz k) * 1000))

/-! ### What AMC watches the lanes for (R200) -/

/-- An enabled lane of this site is on one of the neighbour's beacon channels. -/
def nbCovered (s : State) (n : Neighbour) : Bool :=
  s.lanes.any (fun e => s.on (Reg.CHZ_LANE_CTRL_enable e.1) && match e.2.assign with
    | some a => (n.chanA.toList ++ n.chanB.toList).any (fun c => bits c 22 1 == a.band &&
        decide ((bits c 0 22 - a.freq) + (a.freq - bits c 0 22) ≤ 10))
    | none => false)

/-- An enabled lane is within 10 kHz of plan entry `p` (R233). -/
def planCovered (s : State) (p : Nat) : Bool :=
  s.lanes.any (fun e => s.on (Reg.CHZ_LANE_CTRL_enable e.1) && match e.2.assign with
    | some a => a.band == s.get (Reg.AMC_PLAN_FREQ_band p) &&
        decide (absDiff a.freq (s.get (Reg.AMC_PLAN_FREQ_freq_khz p)) ≤ 10)
    | none => false)

/-- A plan entry is invalid or reads retired (R204, R230). -/
def planDead (s : State) (p : Nat) : Bool :=
  !s.on (Reg.AMC_PLAN_FREQ_valid p) ||
    chanRetired s (s.get (Reg.AMC_PLAN_FREQ_band p)) (s.get (Reg.AMC_PLAN_FREQ_freq_khz p))
      (s.get (Reg.AMC_PLAN_CFG_width_khz p) * 1000)

/-- The open receive occurrence of entry `k` has reached its start: with its plan entry dead it is inert and ends, and with
no lane on the channel it is counted (R230, R233). -/
def rxAtStart (s : State) (k : Nat) (x : RxOpen) : State :=
  let p := s.get (Reg.ESC_SLOT_B_plan k)
  let put := fun (s : State) (o : Tab RxOpen) => { s with esc := { s.esc with open_ := o } }
  if planDead s p then put s (tabDel s.esc.open_ k)
  else
    let s := put s (tabPut s.esc.open_ k { x with tested := true })
    if planCovered s p then s else s.bump Reg.ESC_CNT_RX_UNCOVERED

/-- The transmit occurrences that have reached their start are looked at there (R230). -/
def txReached (s : State) : State :=
  { s with esc := { s.esc with sent := s.esc.sent.map (fun e =>
      if e.2.dead.isNone && reached s e.2.start then
        (e.1, { e.2 with dead := some (planDead s (s.get (Reg.ESC_SLOT_B_plan e.1))) })
      else e) } }

/-- The open receive occurrences that have reached their start are looked at there, and the transmit ones. -/
def rxReached (s : State) : State :=
  if balOff s then s
  else txReached
    ((s.esc.open_.filter (fun e => !e.2.tested && reached s e.2.start)).foldl (fun s e => rxAtStart s e.1 e.2) s)

/-- The occurrence that a command was released for has turned out inert (R230). -/
def occGone (s : State) (x : TxCmd) : Bool := x.issuer == .slot && s.esc.sent.any (fun e => e.2.ref == x.ref && e.2.dead == some true)

/-- The expected instants of neighbours that have been reached are noted with what holds at them: whether they are covered,
nb_win and nb_miss_limit; and receive occurrences that have reached their start are looked at. Whatever changes one of
these looks first. -/
def nbReached (s : State) : State :=
  if balOff s then s
  else
    let s := rxReached s
    let live := liveAngle s
    { s with amc := { s.amc with nb := s.amc.nb.map (fun e =>
        let next := (e.2.tested + e.2.period) % 2 ^ 32
        if e.2.state = 1 ∧ e.2.reached.isNone ∧ !angleAfter ((next * 65536 + e.2.angle) % angleMod) live then
          (e.1, { e.2 with reached := some (next, s.on Reg.AMC_CTRL_nb_en && nbCovered s e.2, s.get Reg.AMC_NB_CFG_nb_win,
            atLeast1 (s.get Reg.AMC_NB_CFG_nb_miss_limit)) })
        else e) } }

/-- Entering SWITCH for 50 µs (R129, R135). -/
def laneToSwitch (s : State) (n : Nat) : State :=
  (setLaneState (occBreak s n) n laneSWITCH).onLane n (fun l => { l with switchEnd := s.ltb + 50000 })

/-- A self-test starts: 60 µs (R143). A test asked for by `selftest` is kind 2. -/
def startSelftest (s : State) (n kind : Nat) : State :=
  s.onLane n (fun l => { l with testing := kind, testEnd := s.ltb + 60000, testReq := l.testReq && kind != 2 })

/-- A lane on a retired channel stops (R148): OFF, its enable reads 0, EV084 names the channel. -/
def laneStop (s : State) (n : Nat) : State :=
  let s := nbReached s
  let l := s.laneOf n
  let s := (occBreak s n).onLane n (fun l => { l with rx := none, testing := 0, stopping := false })
  let s := s.set (Reg.CHZ_LANE_CTRL_enable n) 0
  (setLaneState s n laneOFF).raise 84 n (bandFreq ((l.assign).getD ⟨0, 0, 0⟩))

/-- Entry to SEARCH: the AGC tracks, the lane takes its profile's det_adj (R154, R170) and a requested self-test (R143). A
lane that was in SEARCH goes on with its 1 ms interval (R146). -/
def laneSearch (s : State) (n : Nat) : State :=
  let stays := laneState s n == laneSEARCH
  let s := setLaneState ((if stays then occRoll s n else occBreak s n).set (Reg.CHZ_LANE_STAT_agc_frozen n) 0) n laneSEARCH
  let s := s.onLane n (fun l => { l with
    rx := none, occSearch := if stays then l.occSearch else s.ltb % 1000000 == 0
    detAdj := match l.assign with
      | some a => s.sget (Reg.PHY_PROF_DET_det_adj a.profile)
      | none => 0 })
  if (s.laneOf n).testReq then startSelftest s n 2 else s

/-- The end of a reception (R129, R148): a retired channel stops the lane, a pending assignment takes effect, or the lane
searches. -/
def laneToSearch (s : State) (n : Nat) : State :=
  let s := if (s.laneOf n).pending.isSome then nbReached s else s
  let l := s.laneOf n
  let moved := (s.onLane n (fun l => { l with assign := l.pending.or l.assign, pending := none, rx := none })).set
    (Reg.CHZ_LANE_STAT_pending n) 0
  if l.stopping then
    ((laneStop s n).onLane n (fun l => { l with assign := l.pending.or l.assign, pending := none })).set
      (Reg.CHZ_LANE_STAT_pending n) 0
  else if l.pending.isSome then laneToSwitch moved n
  else laneSearch moved n

/-- A lane is retired (R143, R144): RETIRED, its bit in CHZ_RETIRED, EV080. Its enable reads 0 (log 20), and a pending
assignment is lost (log 53). -/
def laneRetire (s : State) (n : Nat) : State :=
  let s := occBreak (nbReached s) n
  let f := Reg.CHZ_RETIRED_retired (n / 32)
  let s := s.set f (s.get f ||| 2 ^ (n % 32))
  let s := s.onLane n (fun l => { l with rx := none, testing := 0, pending := none, stopping := false })
  let s := ((setLaneState s n laneRETIRED).set (Reg.CHZ_LANE_CTRL_enable n) 0).set
    (Reg.CHZ_LANE_STAT_pending n) 0
  s.raise 80 n

/-- The receiver leaves RUN: every lane of the band drops its frame and searches (R131). -/
def bandDrop (s : State) (b : Nat) : State :=
  (bandLanes s b).foldl (fun s n => if laneMid s n then laneToSearch s n else s) s

/-- A gain-step marker of `change` (0.01 dB) reaches every lane of the band, in any state (R78, R79, R133, R134): its gain
takes the inverse step, to the nearest 0.1 dB. -/
def laneMarker (s : State) (b : Nat) (change : Int) : State :=
  let s := s.setRx b { s.rxOf b with marker := some s.ltb }
  (bandLanes s b).foldl (fun s n =>
    let g := clampInt 0 720 ((s.get (Reg.CHZ_LANE_STAT_agc_gain n) : Int) - (change + 5) / 10)
    let s := s.set (Reg.CHZ_LANE_STAT_agc_gain n) g.toNat
    if laneMid s n then s.bump (Reg.CHZ_LANE_CNT_STEP_MIDFRAME n) else s)
    (s.emit (.marker b change))

/-- This sample is one of the 8 (50 ns) after a marker of the lane's band, which count toward no detection, restart or
capture (R133); the marker's own sample is not. -/
def settling (s : State) (n : Nat) : Bool :=
  match (laneBand s n).bind (fun b => (s.rxOf b).marker) with
  | some m => decide (m < s.ltb ∧ s.ltb ≤ m + 50)
  | none => false

/-! ### Assignment -/

/-- LO of a receiver in kHz, its passband half-width in Hz (R74), and whether it is in RUN or BLANK. -/
def rxLo (s : State) (b : Nat) : Nat := s.get (Reg.RFX_TUNE_lo_khz b)
def rxHalfPass (s : State) (b : Nat) : Nat :=
  match s.get (Reg.RFX_TUNE_bw b) with
  | 0 => 9000000
  | 1 => 19000000
  | 2 => 29000000
  | _ => 49000000
def rxState (s : State) (b : Nat) : Nat := s.get (Reg.RFX_STATUS_state b)
def rxRunning (s : State) (b : Nat) : Bool := rxState s b == 2 || rxState s b == 3

/-- Another lane already has the assignment (R128). -/
def dupAssign (s : State) (n : Nat) (a : Assign) : Bool :=
  let same := fun (x : Option Assign) => match x with
    | some y => y.band == a.band && y.profile == a.profile && decide (absDiff y.freq a.freq ≤ 10)
    | none => false
  s.lanes.any (fun e => e.1 != n &&
    ((s.on (Reg.CHZ_LANE_CTRL_enable e.1) && same e.2.assign) || same e.2.pending))

/-- assign_result of a commit (R128): the first condition that fails. -/
def assignCheck (s : State) (n : Nat) (a : Assign) : Nat :=
  let loaded := profValid s a.profile && profBand s a.profile == a.band
  let occ := occupiedHz s a.profile
  if loaded && decide (2 * rxHalfPass s a.band < absDiff a.freq (rxLo s a.band) * 2000 + occ) then 1
  else if absDiff a.freq (rxLo s a.band) ≤ 50 then 2
  else if !loaded then 3
  else if chanRetired s a.band a.freq occ then 4
  else if dupAssign s n a then 5
  else if !rxRunning s a.band then 6
  else if laneIsRetired s n then 7
  else 0

/-- LANE_COMMIT (R128, R129). -/
def laneCommit (s : State) (n freq : Nat) : State :=
  let s := nbReached s
  let s := s.set (Reg.CHZ_LANE_FREQ_freq_khz n) freq
  let a : Assign := ⟨s.get (Reg.CHZ_LANE_CFG_band n), s.get (Reg.CHZ_LANE_FREQ_freq_khz n),
    s.get (Reg.CHZ_LANE_CFG_profile n)⟩
  let r := assignCheck s n a
  let s := s.set (Reg.CHZ_LANE_STAT_assign_result n) r
  if r ≠ 0 then s
  else if laneMid s n && s.on (Reg.CHZ_LANE_CTRL_defer n) then
    (s.onLane n (fun l => { l with pending := some a })).set (Reg.CHZ_LANE_STAT_pending n) 1
  else
    let s := if laneMid s n then s.bump (Reg.CHZ_LANE_CNT_REASSIGN_DROP n) else s
    -- a lane that was to stop when its frame ended stops now (R148, log 54)
    let s := if (s.laneOf n).stopping then laneStop s n else s
    let s := (s.onLane n (fun l => { l with assign := some a, pending := none, rx := none })).set
      (Reg.CHZ_LANE_STAT_pending n) 0
    if laneState s n = laneOFF then s else laneToSwitch s n

/-- The fields of CHZ that take effect at a statistics epoch boundary. -/
def laneFields : List Fld := [Reg.CHZ_FAULT_CFG_interf_thr, Reg.CHZ_FAULT_CFG2_interf_pct, Reg.CHZ_FAULT_CFG2_par_limit,
  Reg.CHZ_FAULT_CFG2_selftest_period]

/-- A lane is enabled: CHZ has no enable of its own (R149). -/
def anyLane (s : State) : Bool := s.lanes.any (fun e => s.on (Reg.CHZ_LANE_CTRL_enable e.1))

/-- LANE_ENABLE (R19, R130, R143). What CHZ's registers hold is in force at the first enable (R9). -/
def laneEnable (s : State) (n : Nat) : State :=
  let ok := match (s.laneOf n).assign with
    | some a => s.get (Reg.CHZ_LANE_STAT_assign_result n) == 0 && laneState s n == laneOFF && !laneIsRetired s n &&
        s.on (Reg.RFX_CTRL_enable a.band) && profValid s a.profile
    | none => false
  if s.on (Reg.CHZ_LANE_CTRL_enable n) || !ok then s
  else
    let s := nbReached (if anyLane s then s else s.takeEffect laneFields)
    let s := startSelftest (s.set (Reg.CHZ_LANE_CTRL_enable n) 1) n 1
    s.onLane n (fun l => { l with stormFrom := s.ltb, stormCnt := 0, stormHold := false
                                  stormMs := atLeast1 (s.get Reg.CHZ_FAULT_CFG_storm_win)
                                  stormThr := atLeast1 (s.get Reg.CHZ_FAULT_CFG_storm_thr) })

/-- LANE_DISABLE (R130, R135): the frame in progress is dropped and counted; the assignment is kept, and a pending one
takes effect (log 53). From RETIRED too, the lane enters OFF and stays retired. A lane that was to stop has entered OFF
(R148). -/
def laneDisable (s : State) (n : Nat) : State :=
  let s := nbReached s
  let stops := (s.laneOf n).stopping
  let s := if laneMid s n then s.bump (Reg.CHZ_LANE_CNT_REASSIGN_DROP n) else s
  let s := if stops then laneStop s n else occBreak s n
  let s := s.onLane n (fun l => { l with
    rx := none, assign := l.pending.or l.assign, pending := none, testing := if l.testing = 4 then 4 else 0 })
  let s := (s.set (Reg.CHZ_LANE_CTRL_enable n) 0).set (Reg.CHZ_LANE_STAT_pending n) 0
  setLaneState s n laneOFF

/-! ### Self-tests -/

/-- SELFTEST (R143): at once in SEARCH (a test under way starts over: log 55), otherwise at the next entry to SEARCH. -/
def selftest (s : State) (n : Nat) : State :=
  if laneState s n = laneSEARCH then startSelftest s n 2
  else s.onLane n (fun l => { l with testReq := true })

/-- PERIODIC_SELFTEST (R143): due from 1 ms × n after the boundary, in SEARCH, one lane at a time. -/
def periodicSelftest (s : State) (n : Nat) : State :=
  let l := s.laneOf n
  match l.periodic with
  | some d =>
    if d ≤ s.ltb ∧ laneState s n = laneSEARCH ∧ l.testing = 0 ∧ ¬ s.lanes.any (fun e => e.2.testing == 3) then
      (startSelftest s n 3).onLane n (fun l => { l with periodic := none })
    else s
  | none => s

/-- SELFTEST_COMPLETE (R130, R143, R147): it passes with a good FCS and an RSSI within 1 dB (0.1 dB units). -/
def selftestComplete (s : State) (n : Nat) (decoded : Bool) (rssiErr : Int) : State :=
  let l := s.laneOf n
  if l.testing = 0 ∨ s.ltb < l.testEnd then s
  else
    let s := s.onLane n (fun l => { l with testing := 0 })
    if decoded && decide (rssiErr.natAbs ≤ 10) then
      let s := s.set (Reg.CHZ_LANE_FAULT_selftest_fail n) 0
      if l.testing = 1 then laneToSwitch s n
      else if l.testing = 4 then
        let f := Reg.CHZ_RETIRED_retired (n / 32)
        setLaneState (s.set f (s.get f &&& (2 ^ 32 - 1 - 2 ^ (n % 32)))) n laneOFF
      else s
    else
      laneRetire (s.set (Reg.CHZ_LANE_FAULT_selftest_fail n) 1) n

/-- UNRETIRE (R147): ignored unless the lane is retired. -/
def unretire (s : State) (n : Nat) : State :=
  if laneIsRetired s n then startSelftest s n 4 else s

/-! ### Reception -/

/-- SWITCH_DONE (R135). -/
def switchDone (s : State) (n : Nat) : State :=
  if laneState s n = laneSWITCH ∧ (s.laneOf n).switchEnd ≤ s.ltb then laneToSearch s n else s

/-- A lane locks on a preamble: SYNC with the AGC frozen at this level (R132, R135). -/
def laneLock (s : State) (n : Nat) (level : Int) (gain : Nat) (captured : Bool) : State :=
  let s := setLaneState (occBreak s n) n laneSYNC
  let s := (s.set (Reg.CHZ_LANE_STAT_agc_frozen n) 1).set (Reg.CHZ_LANE_STAT_agc_gain n) (min 720 gain)
  s.onLane n (fun l => { l with rx := some { detectAt := s.ltb, level := level, captured := captured } })

/-- The detection lies above the lane's threshold, which det_adj moved (R170), and not on a settling sample (R133). -/
def detects (s : State) (n : Nat) (margin : Int) : Bool := decide ((s.laneOf n).detAdj ≤ margin) && !settling s n

/-- PREAMBLE_DETECTED (R131, R135): in SEARCH on a running band, outside a self-test. -/
def preambleDetected (s : State) (n : Nat) (level margin : Int) (gain : Nat) : State :=
  let l := s.laneOf n
  let band := (l.assign.map (·.band)).getD 0
  if laneState s n = laneSEARCH ∧ l.testing = 0 ∧ rxState s band = 2 ∧ detects s n margin then
    (laneLock s n level gain false).bump (Reg.CHZ_LANE_CNT_DET n)
  else s

/-- SECOND_DETECTION (R137, R138): a new preamble restarts the lane in SYNC and HEADER, or captures it in PAYLOAD. A frame
that came by a restart is not CAPTURED, whatever it displaced. -/
def secondDetection (s : State) (n : Nat) (level margin : Int) (gain timingMilli freqHz : Nat) : State :=
  let l := s.laneOf n
  match l.rx, l.assign with
  | some r, some a =>
    let isNew := decide (250 < timingMilli ∨ acquireHz s a.profile < 4 * freqHz)
    let st := laneState s n
    if !isNew || !detects s n margin then s
    else if (st = laneSYNC ∨ st = laneHEADER) ∧ r.level + s.sget Reg.CHZ_CFG_restart_margin ≤ level then
      (laneLock s n level gain false).bump (Reg.CHZ_LANE_CNT_RESTART n)
    else if st = lanePAYLOAD ∧ l.capture ∧
        r.rssi + (atLeast1 (s.get Reg.CHZ_CFG_capture_margin) : Int) ≤ level then
      (laneLock s n level gain true).bump (Reg.CHZ_LANE_CNT_CAPTURED_OUT n)
    else s
  | _, _ => s

/-- A receive occurrence holds this channel open (R233). -/
def slotOpen (s : State) (band freq : Nat) : Bool :=
  s.esc.open_.any (fun e =>
    let p := s.get (Reg.ESC_SLOT_B_plan e.1)
    !reached s (e.2.start + s.get (Reg.ESC_SLOT_B_len e.1) + e.2.guard + 1) &&
    s.get (Reg.AMC_PLAN_FREQ_band p) == band && decide (absDiff (s.get (Reg.AMC_PLAN_FREQ_freq_khz p)) freq ≤ 10))

/-- What was received is the SFD of the lane's profile (R159, R163, R167); the manual gives the SFDs of families 1 and 3
no value that an operand could carry. -/
def sfdMatches (p : PhyParm) (sfd : Nat) : Bool :=
  match p.family with
  | 1 => true
  | 3 => true
  | 4 => sfd == p.sfd
  | k => sfd == (sfdOctet k).toNat

/-- SFD_FOUND (R60, R135, R140, R165): timestamp, RSSI, and the taps of MR-OFDM. -/
def sfdFound (s : State) (n sfd : Nat) (rssi : Int) (ltf : List (Cplx × Cplx)) : State :=
  match (s.laneOf n).rx, (s.laneOf n).assign with
  | some r, some a =>
    if laneState s n = laneSYNC ∧ sfdMatches (phyOf s a.profile) sfd then
      let s := rxReached s
      let t := s.ltb
      (setLaneState s n laneHEADER).onLane n (fun l => { l with
        eq := { taps := ltfTaps ltf }
        rx := some { r with slot := slotOpen s a.band a.freq, sfdLtb := t, sfdAngle := angleAt s t
                            rssi := clampInt (-128) 10 rssi } })
    else s
  | _, _ => s

/-- SFD_TIMEOUT (R135): the profile's maximum preamble and 2 symbols have passed since the lock. -/
def sfdTimeout (s : State) (n : Nat) : State :=
  match (s.laneOf n).rx, (s.laneOf n).assign with
  | some r, some a =>
    if laneState s n = laneSYNC ∧ r.detectAt + sfdWaitNs (phyOf s a.profile) ≤ s.ltb then
      laneToSearch (s.bump (Reg.CHZ_LANE_CNT_FALSE n)) n
    else s
  | _, _ => s

/-- PHR_RECEIVED (R135, R165, R167, R168). -/
def phrReceived (s : State) (n : Nat) (seen : HeaderSeen) : State :=
  let l := s.laneOf n
  match l.rx, l.assign with
  | some r, some a =>
    if laneState s n ≠ laneHEADER then s
    else
      let phr := headerBits (phyOf s a.profile) l.eq seen
      match phrCheck (phyOf s a.profile) phr with
      | .inl p =>
        (setLaneState s n lanePAYLOAD).onLane n (fun l => { l with
          capture := s.on (Reg.CHZ_LANE_CTRL_capture_en n)
          eq := l.eq.track seen.pilots
          rx := some { r with length := p.length, rate := p.rate, fcs2 := p.fcs2, whiten := p.whiten, seed := p.seed
                              reg := (List.range 3).map (fun i => bits phr.raw.toNat (15 - i) 1) } })
      | .inr c =>
        let s := match c with
          | some c => s.bump c
          | none => s
        laneToSearch (s.bump (Reg.CHZ_LANE_CNT_FALSE n)) n
  | _, _ => s

/-- LQI of a signal-to-noise estimate in 0.1 dB (R141). -/
def lqiOf (snr10 : Int) : Nat := (clampInt 0 255 ((8 * snr10 + 320 + 5) / 10)).toNat

/-- An FCS failure in the storm window (R145). -/
def stormFailure (s : State) (n : Nat) : State :=
  let l := s.laneOf n
  let s := s.setLane n { l with stormCnt := l.stormCnt + 1, stormHold := l.stormHold || l.stormThr == l.stormCnt + 1 }
  if !l.stormHold ∧ l.stormThr = l.stormCnt + 1 then (s.set (Reg.CHZ_LANE_FAULT_storm n) 1).raise 81 n else s

/-- LANE_FRAME_END (R134, R135, R142, R164, R166): a good frame's record goes to AMC. The PSDU has the length that the PHR
gave; MR-OFDM subcarriers are equalised and corrected before demapping (R165), coded MR-FSK bits decoded (R167). -/
def laneFrameEnd (s : State) (n : Nat) (psdu : List Byte) (snr10 : Int) (seen : SamplesSeen) : State :=
  let l := s.laneOf n
  match l.rx, l.assign with
  | some r, some a =>
    if laneState s n ≠ lanePAYLOAD then s
    else
      let s := if seen.clipped then s.bump (Reg.CHZ_LANE_CNT_CLIP n) else s
      let s := s.onLane n (fun l => { l with eq := l.eq.track seen.pilots })
      let psdu := psduReceived (profFamily s a.profile) r.whiten r.seed
        (payloadOctets (phyOf s a.profile) l.eq r.reg r.rate r.length psdu seen)
      if fcsGood r.fcs2 psdu then
        let lqi := lqiOf snr10
        let rec_ : LaneRec := {
          lane := n, band := a.band, freq := a.freq, profile := a.profile, rssi := r.rssi, lqi := lqi
          ltb := r.sfdLtb, angle := r.sfdAngle, endLtb := s.ltb, captured := r.captured, slot := r.slot, rate := r.rate
          fcs2 := r.fcs2, whiten := r.whiten, psdu := psdu.take (psdu.length - (if r.fcs2 then 2 else 4)) }
        let s := { s with laneRecs := s.laneRecs ++ [rec_] }
        let s := (s.sset (Reg.CHZ_LANE_RX_rssi n) r.rssi).set (Reg.CHZ_LANE_RX_lqi n) lqi
        laneToSearch (s.bump (Reg.CHZ_LANE_CNT_FCS_OK n)) n
      else laneToSearch (stormFailure (s.bump (Reg.CHZ_LANE_CNT_FCS_ERR n)) n) n
  | _, _ => s

/-- PARITY_ERROR (R135, R144): counted in every state; in OFF and RETIRED there is no frame to drop. par_count stays at 15,
the most its field holds. -/
def laneParity (s : State) (n : Nat) : State :=
  let c := min 15 (s.get (Reg.CHZ_LANE_FAULT_par_count n) + 1)
  let s := ((s.set (Reg.CHZ_LANE_FAULT_par_count n) c).set (Reg.CHZ_LANE_FAULT_par_err n) 1).raise 83 n
  if laneState s n = laneRETIRED then s
  else if atLeast1 (s.cur Reg.CHZ_FAULT_CFG2_par_limit) ≤ c then laneRetire s n
  else if laneState s n = laneOFF then s
  else laneToSearch s n

/-- STORM_WINDOW_END (R145): a whole window below the threshold lets a new storm count; the next window takes
the length and threshold last written. -/
def stormWindowEnd (s : State) (n : Nat) : State :=
  let l := s.laneOf n
  if !s.on (Reg.CHZ_LANE_CTRL_enable n) || decide (s.ltb < l.stormFrom + l.stormMs * 1000000) then s
  else s.setLane n { l with
    stormFrom := l.stormFrom + l.stormMs * 1000000, stormCnt := 0
    stormHold := l.stormHold && decide (l.stormThr ≤ l.stormCnt)
    stormMs := atLeast1 (s.get Reg.CHZ_FAULT_CFG_storm_win)
    stormThr := atLeast1 (s.get Reg.CHZ_FAULT_CFG_storm_thr) }

/-- ED_REFRESH (R132, R142, R146): ed, and the 1 ms occupancy intervals of the epoch. What gain the tracking AGC stands at
is a free value (log 2). -/
def edRefresh (s : State) (n : Nat) (ed : Int) : State :=
  if laneState s n = laneOFF ∨ laneState s n = laneRETIRED then s
  else
    let s := occRoll s n
    let s := s.sset (Reg.CHZ_LANE_ED_ed n) (clampInt (-128) 127 ed)
    let (gain, s) := s.drawFree 721
    let s := if s.on (Reg.CHZ_LANE_STAT_agc_frozen n) then s else s.set (Reg.CHZ_LANE_STAT_agc_gain n) gain
    s.onLane n (fun l => { l with
      occBusy := (l.occBusy || s.ltb % 1000000 == 0) && decide (signed 8 (s.cur Reg.CHZ_FAULT_CFG_interf_thr) ≤ ed) })

/-- Lanes on a retired channel stop, after the frame in progress (R148). -/
def laneChannelStop (s : State) (band freq widthHz : Nat) : State :=
  s.lanes.foldl (fun s e =>
    let n := e.1
    match (s.laneOf n).assign with
    | some a =>
      if s.on (Reg.CHZ_LANE_CTRL_enable n) && a.band == band && overlapHz a.freq (occupiedHz s a.profile) freq widthHz then
        if laneMid s n then s.onLane n (fun l => { l with stopping := true }) else laneStop s n
      else s
    | none => s) s

/-- The lanes' part of an epoch boundary (R143, R144, R146). -/
def laneEpoch (s : State) : State :=
  let s := (List.range 128).foldl (fun s n => s.set (Reg.CHZ_LANE_FAULT_par_count n) 0) s
  let s := s.lanes.foldl (fun s e =>
    let n := e.1
    let s := occRoll s n
    let l := s.laneOf n
    let pct := if l.searchMs = 0 then 0 else l.busyMs * 100 / l.searchMs
    let s := s.setLane n { l with searchMs := 0, busyMs := 0 }
    let s := s.set (Reg.CHZ_LANE_ED_occ_pct n) pct
    match l.assign with
    | some a =>
      if l.searchMs ≠ 0 ∧ s.cur Reg.CHZ_FAULT_CFG2_interf_pct ≤ pct then
        (s.set (Reg.CHZ_LANE_FAULT_occupied n) 1).raise 82 n (bandFreq a)
      else s
    | none => s) s
  let period := s.cur Reg.CHZ_FAULT_CFG2_selftest_period
  let s := if period ≠ 0 ∧ s.get Reg.BAL_EPOCH_NUM_epoch_num % period = 0 then
      (List.range 128).foldl (fun s n => s.onLane n (fun l => { l with periodic := some (s.ltb + n * 1000000) })) s
    else s
  s.takeEffect laneFields

end Sys2Proof.Machine
end

