-- ==== Sys2Proof/Machine/EscQ.lean ====
section
/-! DEFINITION. Queues, token buckets and the Fusee of the Escapement (chapter 09: R236-R248). -/

namespace Sys2Proof.Machine

def State.onEsc (s : State) (f : Esc → Esc) : State := { s with esc := f s.esc }

/-- LTB in microseconds, as buckets keep it. -/
def usNow (s : State) : Nat := s.ltb / 1000 % 2 ^ 48

/-! ### Token buckets (R242, R243) -/

/-- The refill of R242. -/
def refill (tok : Int) (rate burst dt : Nat) : Int :=
  min ((burst * 1024 : Nat) : Int) (tok + ((rate * 1024 * dt / 1000000 : Nat) : Int))

/-- The charge of R242. -/
def chargeTok (tok : Int) (len : Nat) : Int := max (tok - ((len * 1024 : Nat) : Int)) (-(65535 * 1024))

/-- Buckets of ports and services: key of port `p`, of service `n` = 16 × port + service. -/
def portBkt (p : Nat) : Nat := 1000 + p

def bktRate (s : State) (k : Nat) : Nat :=
  if 1000 ≤ k then s.get (Reg.ESC_PORT_RATE_rate (k - 1000)) else s.get (Reg.ESC_SVC_RATE_rate k)
def bktBurst (s : State) (k : Nat) : Nat :=
  if 1000 ≤ k then s.get (Reg.ESC_PORT_BURST_burst (k - 1000)) else s.get (Reg.ESC_SVC_BURST_burst k)
def bktTokFld (k : Nat) : Fld := if 1000 ≤ k then Reg.ESC_PORT_TOK_tok (k - 1000) else Reg.ESC_SVC_TOK_tok k

def bktOf (s : State) (k : Nat) : Bucket := tabGetD s.esc.bkt k {}

/-- A signed value in a 32-bit register: one that does not fit is not stated (log 2). -/
def showTok (s : State) (f : Fld) (tok : Int) : State :=
  if -(2 ^ 31) ≤ tok ∧ tok < 2 ^ 31 then s.sset f tok
  else
    let (v, s) := s.drawFree (2 ^ 32)
    s.set f v

def setBkt (s : State) (k : Nat) (b : Bucket) : State :=
  showTok (s.onEsc (fun e => { e with bkt := tabPut e.bkt k b })) (bktTokFld k) b.tok

/-- An access of a port or service bucket: the refill at the values in force, then pending values (R242, R243). -/
def bktAccess (s : State) (k : Nat) : State :=
  let b := bktOf s k
  let now := usNow s
  let tok := refill b.tok b.rate b.burst (now - b.tLast)
  let burst := bktBurst s k
  setBkt s k { tok := min tok ((burst * 1024 : Nat) : Int), tLast := now, rate := bktRate s k, burst := burst }

/-- The bucket conforms: a rate of 0 always does (R242). -/
def bktConforms (s : State) (k : Nat) : Bool :=
  let b := bktOf s k
  b.rate == 0 || decide (0 ≤ b.tok)

/-- The bucket is accessed and charged; a rate of 0 is never charged (R242). -/
def bktCharge (s : State) (k len : Nat) : State :=
  let s := bktAccess s k
  let b := bktOf s k
  if b.rate = 0 then s else setBkt s k { b with tok := chargeTok b.tok len }

/-- The generation of a subscriber profile (R285). -/
def profGen (s : State) (j : Nat) : Nat := tabGetD s.esc.gen j 0

/-- A subscriber bucket holds values that are pending (R285). -/
def subPend (s : State) (k : Nat) : Bool :=
  s.cget k Cx.sub_prof != s.cget k Cx.prof_cur || profGen s (s.cget k Cx.sub_prof) != s.cget k Cx.prof_gen

/-- An access of a subscriber bucket (R242, R285). -/
def subAccess (s : State) (k : Nat) : State :=
  let now := usNow s
  let dt := (now + 2 ^ 48 - s.cget k Cx.t_last) % 2 ^ 48
  let tok := refill (s.csget k Cx.tok) (s.cget k Cx.cur_rate) (s.cget k Cx.cur_burst) dt
  let s := (s.csset k Cx.tok tok).cset k Cx.t_last now
  if subPend s k then
    let j := s.cget k Cx.sub_prof
    let burst := s.get (Reg.ESC_SUBP_BURST_burst j)
    let s := (s.cset k Cx.cur_rate (s.get (Reg.ESC_SUBP_RATE_rate j))).cset k Cx.cur_burst burst
    let s := (s.cset k Cx.prof_cur j).cset k Cx.prof_gen (profGen s j)
    s.csset k Cx.tok (min tok ((burst * 1024 : Nat) : Int))
  else s

def subConforms (s : State) (k : Nat) : Bool := s.cget k Cx.cur_rate == 0 || decide (0 ≤ s.csget k Cx.tok)

def subCharge (s : State) (k len : Nat) : State :=
  let s := subAccess s k
  if s.cget k Cx.cur_rate = 0 then s else s.csset k Cx.tok (chargeTok (s.csget k Cx.tok) len)

/-- The adoption pass of a profile (R285): every valid context that names it, in index order. -/
def adoptionPass (s : State) (j : Nat) : State :=
  let ks := (s.store.filterMap (fun c => if c.1 < 0x1800000 then some (c.1 / 192) else none)).eraseDups
  ks.foldl (fun s k =>
    if ctxValid s k && (s.cget k Cx.prof_cur == j || s.cget k Cx.sub_prof == j) then subAccess s k else s) s

/-- A write of a subscriber profile, or of a context's sub_prof: the generation increments (R285). -/
def genBump (s : State) (j : Nat) : State :=
  let g := (profGen s j + 1) % 256
  let s := s.onEsc (fun e => { e with gen := tabPut e.gen j g })
  if g = 0 then adoptionPass s j else s

/-- The length charged (R244): octets, or airtime-weighted on an air port. -/
def chargeLen (s : State) (port : Nat) (test : Bool) (n airUs ackUs : Nat) : Nat :=
  if s.on Reg.ESC_CTRL_len_mode || test then n
  else ((airUs + s.get (Reg.ESC_PORT_IFS_ifs_us port) + ackUs) *
    atLeast1 (s.get (Reg.ESC_PORT_CTRL_ref_kbps port)) + 7999) / 8000

/-! ### Queues (R236-R238) -/

/-- Octets of a frame as it is queued. -/
def frameLen (f : EscFrame) : Nat :=
  match f.air with
  | some a => a.parm.n
  | none => f.octets.length

def subQueue (s : State) (k : Nat) : List EscFrame := tabGetD s.esc.sub k []
def svcQueue (s : State) (n : Nat) : List EscFrame := tabGetD s.esc.queue n []

/-- A frame that has come to the head of its service in a queue is at the head from now on (R237). -/
def newHeads (now : Nat) (old : List EscFrame) : List Nat → List EscFrame → List EscFrame
  | _, [] => []
  | seen, f :: r =>
    if seen.contains f.svc then f :: newHeads now old seen r
    else
      let was := (old.find? (fun x => x.svc == f.svc)).map (·.ref) == some f.ref
      (if was then f else { f with headAt := now }) :: newHeads now old (f.svc :: seen) r

/-- The frames whose first hop is node `k`, those for the node itself first (R264). -/
def slpFrames (s : State) (k : Nat) : List EscFrame :=
  (subQueue s k ++ (s.esc.sub.filter (fun e => e.1 != k)).flatMap (·.2)).filter (fun f => (f.air.bind (·.hop)) == some k)

/-- The frame at the head of a first hop that SLP serves. -/
def hopHead (s : State) (k : Nat) : Option Nat := ((slpFrames s k).head?).map (·.ref)

/-- The first hops whose head frame differs since `s0`, of the frames `l`: their windows are decided anew from now on (R215). -/
def hopsMoved (s0 s : State) (l : List EscFrame) : State :=
  let hops := ((l.filterMap (fun f => f.air.bind (·.hop))).eraseDups).filter (fun h =>
    s.cget h Cx.slp_valid == 1 && hopHead s0 h != hopHead s h)
  { s with slp := { s.slp with moved := hops.foldl (fun m h => tabPut m h s.ltb) s.slp.moved } }

/-- The queue of a subscriber, with what its context shows of it (R284). -/
def setSubQueue (s0 : State) (k : Nat) (q : List EscFrame) : State :=
  let q := newHeads s0.ltb (subQueue s0 k) [] q
  let s := s0.onEsc (fun e => { e with sub := if q.isEmpty then tabDel e.sub k else tabPut e.sub k q })
  let s := (hopsMoved s0 s (subQueue s0 k ++ q)).cset k Cx.qlen q.length
  match q.head?, q.getLast? with
  | some a, some b => (s.cset k Cx.q_head a.buf).cset k Cx.q_tail b.buf
  | _, _ => s

/-! ### Credits of the twin link (R384) -/

def State.onTwn (s : State) (f : Twn → Twn) : State := { s with twn := f s.twn }

/-- The microseconds of credit stall so far are counted. -/
def stallCount (s : State) : State :=
  match s.twn.stall with
  | none => s
  | some t =>
    let us := (s.ltb - t) / 1000
    (s.bumpQuiet Reg.TWN_CNT_CREDIT_STALL us).onTwn (fun x => { x with stall := some (t + us * 1000) })

def creditStallEnd (s : State) : State := (stallCount s).onTwn (fun x => { x with stall := none })

/-- Credits that a frame needs: the pool-5 buffers it uses at the partner. -/
def creditsFor (f : EscFrame) : Nat := buffersFor f.octets.length

/-- A frame at the head of a service of the TWIN port lacks credits. -/
def creditLacks (s : State) : Bool :=
  s.esc.queue.any (fun e => e.1 / 16 == 7 && match e.2.head? with
    | some f => decide (s.twn.credits < creditsFor f)
    | none => false)

/-- The stall is over once no frame lacks credits. -/
def creditSettle (s : State) : State := if s.twn.stall.isSome && !creditLacks s then creditStallEnd s else s

/-! ### Queues of services, and the end of frames -/

def setSvcQueue (s : State) (n : Nat) (q : List EscFrame) : State :=
  let s := s.onEsc (fun e => { e with queue := if q.isEmpty then tabDel e.queue n else tabPut e.queue n q })
  if n / 16 = 7 then creditSettle s else s

/-- A frame whose chain's command has ended: a transmission is counted, and its chain, first symbol and angle are kept (R333). -/
def EscFrame.after (f : EscFrame) (e : TxEnd) : EscFrame :=
  match e.first with
  | some t => { f with attempts := f.attempts + 1, chain := e.chain, first := some t, angle := e.angle }
  | none => if f.first.isNone then { f with chain := e.chain } else f

/-- The timestamp of a frame's last transmission enters the report FIFO of its chain where the frame asked for it (R64, R333). -/
def airReport (s : State) (f : EscFrame) : Option Nat × State :=
  match f.host, f.first with
  | some (_, ref), some t =>
    if wantsTs s f.host && f.last then
      (some f.chain, (tsfPush s f.chain { ref := ref, ltb := t, ext := f.angle, ns := 0 }).2)
    else (none, s)
  | _, _ => (none, s)

/-- The counter of an esc_status (R236). -/
def escCounter : Nat → Option Nat
  | 1 => some Reg.ESC_CNT_DROP_LONG
  | 2 => some Reg.ESC_CNT_DROP_NOBUF
  | 3 => some Reg.ESC_CNT_DROP_FULL
  | 4 => some Reg.ESC_CNT_DROP_FULL
  | 5 => some Reg.ESC_CNT_DROP_EXPIRED
  | 6 => some Reg.ESC_CNT_DROP_RETRIES
  | _ => none

/-- A frame ends: its buffers are freed, its marks and its timestamp written, and its transmit ring told (R333); a fragment that fails and is
not the last leaves its result for the completion of the datagram (R236). -/
def escEnd (s : State) (f : EscFrame) (dropped : Bool) (c : Completion) : State :=
  let s := poolGive s f.pool f.bufs
  let s := match f.first with
    | some t => markStage s f.mark 7 t
    | none => s
  let s := markEnd s f.mark dropped
  let (fifo, s) := airReport s f
  let c := { c with attempts := f.attempts, chain := f.chain, tsFifo := c.tsFifo.or fifo }
  if f.last then complete s f.host c
  else if c.esc = 0 ∧ c.tx = 0 ∧ c.amc = 0 then s
  else completeLater s f.host c

/-- A frame is dropped by the Escapement with an esc_status (R236). -/
def escDrop (s : State) (f : EscFrame) (status : Nat) : State :=
  let s := match escCounter status with
    | some c => s.bump c
    | none => s
  escEnd s f true { esc := status }

/-- The tests of R236 on a frame, in order: 0 or the esc_status that refuses it. -/
def escTest (s : State) (f : EscFrame) : Nat :=
  match f.air, f.ctx with
  | some a, some k =>
    if a.parm.maxPsdu < a.parm.n then 1
    else if poolFree s 1 < buffersFor a.parm.n then 2
    else if atLeast1 (s.get Reg.ESC_QCFG_sub_qmax) ≤ (subQueue s k).length then 3
    else 0
  | some a, none => if a.parm.maxPsdu < a.parm.n then 1 else 0
  | none, _ =>
    if atLeast1 (s.get (Reg.ESC_SVC_AGE_qmax (16 * f.port + f.svc))) ≤ (svcQueue s (16 * f.port + f.svc)).length then 4
    else 0

/-- A frame is queued or refused (R236); the buckets it is enqueued to are accessed (R243). The frame's esc_status
is given back. -/
def escQueueFrame (s : State) (f : EscFrame) : Nat × State :=
  let st := escTest s f
  let f := { f with enqAt := s.ltb, headAt := s.ltb }
  if st ≠ 0 then
    let s := if st = 2 then raiseFirst s 153 else s
    (st, escDrop s f st)
  else
    match f.air, f.ctx with
    | some a, some k =>
      let n := buffersFor a.parm.n
      let s := poolTake (poolGive s f.pool f.bufs) 1 n
      let (b, s) := s.drawFree (max 1 (s.get (Reg.CTX_POOL_CNT_count 1)))
      let f := { f with pool := 1, bufs := n, buf := poolBase s 1 + b }
      (0, subAccess (setSubQueue (markStage s f.mark 6 s.ltb) k (subQueue s k ++ [f])) k)
    | _, _ =>
      let n := 16 * f.port + f.svc
      let s := setSvcQueue (markStage s f.mark 6 s.ltb) n (svcQueue s n ++ [f])
      (0, bktAccess (bktAccess s n) (portBkt f.port))

/-- The air port by whose service a frame that waits without examination ages: the first chain of its band. -/
def agePort (f : EscFrame) : Nat :=
  match f.air with
  | some a => if f.ctx.isSome then 2 * a.parm.band else f.port
  | none => f.port

/-- A frame has waited age_max of service `n` (R238). -/
def expired (s : State) (n : Nat) (f : EscFrame) : Bool :=
  let age := s.get (Reg.ESC_SVC_AGE_age_max n)
  age != 0 && decide (f.enqAt + age * 1000000 ≤ s.ltb)

/-- Drops the frames of a subscriber queue that have expired under the services of port `p`. -/
def expireSub (s : State) (k : Nat) (port : EscFrame → Nat) : State :=
  let q := subQueue s k
  let old := q.filter (fun f => expired s (16 * port f + f.svc) f)
  if old.isEmpty then s
  else old.foldl (fun s f => escDrop s f 5)
    (setSubQueue s k (q.filter (fun f => !expired s (16 * port f + f.svc) f)))

def expireSvc (s : State) (n : Nat) : State :=
  let q := svcQueue s n
  let old := q.filter (expired s n)
  if old.isEmpty then s
  else old.foldl (fun s f => escDrop s f 5) (setSvcQueue s n (q.filter (fun f => !expired s n f)))

/-- Expiry at the statistics epoch boundary (R238). -/
def expireAll (s : State) : State :=
  let s := (s.esc.sub.map (·.1)).foldl (fun s k => expireSub s k agePort) s
  (s.esc.queue.map (·.1)).foldl expireSvc s

/-- The node's queued frames end FLUSHED (R236, R287). -/
def subFlush (s : State) (k : Nat) : State :=
  let q := subQueue s k
  q.foldl (fun s f => escDrop s f 7) (setSubQueue s k [])

/-- SUB_READ (R243). -/
def subRead (s : State) (k : Nat) : State :=
  let s := s.set Reg.ESC_SUB_CMD_ctx k
  let s := (s.set Reg.ESC_SUB_DATA_sub_prof (s.cget k Cx.sub_prof)).set Reg.ESC_SUB_DATA_suspend (s.cget k Cx.suspend)
  let s := (s.setb Reg.ESC_SUB_DATA_pend (subPend s k)).set Reg.ESC_SUB_DATA_qlen (s.cget k Cx.qlen)
  showTok s Reg.ESC_SUB_TOK_tok (s.csget k Cx.tok)

/-- SUB_WRITE (R243, R285): an access of the bucket. -/
def subWrite (s : State) (k : Nat) : State :=
  let s := s.set Reg.ESC_SUB_CMD_ctx k
  let j := s.get Reg.ESC_SUB_DATA_sub_prof
  let s := (s.cset k Cx.sub_prof j).cset k Cx.suspend (s.get Reg.ESC_SUB_DATA_suspend)
  subAccess (genBump s j) k

/-! ### The Fusee (R246-R248) -/

def fusOf (s : State) (r : Nat) : Fusee := tabGetD s.esc.fus r {}

/-- The fields of a regulator that take effect at its next release test. -/
def fusFields (r : Nat) : List Fld := [Reg.ESC_FUS_DUTY_duty r, Reg.ESC_FUS_RESV_resv r]

/-- L and Rv in µs. -/
def fusLimit (s : State) (r : Nat) : Nat :=
  s.get (Reg.ESC_FUS_WIN_window_s r) * 1000000 * s.cur (Reg.ESC_FUS_DUTY_duty r) / 100000
def fusResv (s : State) (r : Nat) : Nat :=
  s.get (Reg.ESC_FUS_WIN_window_s r) * 1000000 *
    min (s.cur (Reg.ESC_FUS_RESV_resv r)) (s.cur (Reg.ESC_FUS_DUTY_duty r)) / 100000

def fusSum (f : Fusee) : Nat := f.bins.foldl (· + ·) 0
def fusHold (f : Fusee) : Nat := (f.holds.map (·.2)).foldl (· + ·) 0

/-- sum, hold, closed and breach of regulator `r` follow its bins and holds. -/
def fusUpdate (s : State) (r : Nat) (f : Fusee) : State :=
  let sum := fusSum f
  let hold := fusHold f
  let s := (s.set (Reg.ESC_FUS_SUM_sum r) sum).set (Reg.ESC_FUS_HOLD_hold r) hold
  let was := bits (s.get Reg.ESC_FUSEE_STAT_closed) r 1 == 1
  let is := s.on (Reg.ESC_FUS_LO_valid r) && decide (fusLimit s r - fusResv s r ≤ sum + hold)
  let s := s.set Reg.ESC_FUSEE_STAT_closed (putBits (s.get Reg.ESC_FUSEE_STAT_closed) r 1 (if is then 1 else 0))
  let s := if is && !was then s.raise 149 r else s
  let window := s.get (Reg.ESC_FUS_WIN_window_s r) * 1000000000
  let quiet := match f.breach with
    | some b => decide (s.ltb < b + window)
    | none => false
  if s.on (Reg.ESC_FUS_LO_valid r) && decide (fusLimit s r < sum) && !quiet then
    let s := s.onEsc (fun e => { e with fus := tabPut e.fus r { f with breach := some s.ltb } })
    let s := s.set Reg.ESC_FUSEE_STAT_breach (putBits (s.get Reg.ESC_FUSEE_STAT_breach) r 1 1)
    (s.bump Reg.ESC_CNT_FUSEE_BREACH).raise 150 r
  else s.onEsc (fun e => { e with fus := tabPut e.fus r f })

/-- The regulators that cover a transmission (R246). -/
def fusCovers (s : State) (band freq occHz : Nat) : List Nat :=
  (List.range 16).filter (fun r =>
    s.on (Reg.ESC_FUS_LO_valid r) && s.get (Reg.ESC_FUS_LO_band r) == band &&
      decide (2000 * s.get (Reg.ESC_FUS_LO_lo_khz r) < 2000 * freq + occHz ∧
        2000 * freq < 2000 * s.get (Reg.ESC_FUS_HI_hi_khz r) + occHz))

/-- The release test of the Fusee for airtime `a` (R247). -/
def fusPass (s : State) (band freq occHz a : Nat) : Bool :=
  (fusCovers s band freq occHz).all (fun r =>
    let f := fusOf s r
    decide (fusSum f + fusHold f + a + fusResv s r ≤ fusLimit s r))

/-- A release test of the covering regulators: duty and resv as last written take effect, and closed follows (R247). -/
def fusBoundary (s : State) (band freq occHz : Nat) : State :=
  (fusCovers s band freq occHz).foldl (fun s r =>
    if (fusFields r).any (fun f => (tabGet s.inForce f.key).isSome) then
      fusUpdate (s.takeEffect (fusFields r)) r (fusOf s r)
    else s) s

/-- Holds airtime for frame `ref` (R247). -/
def fusHoldFor (s : State) (band freq occHz a ref : Nat) : State :=
  (fusCovers s band freq occHz).foldl (fun s r =>
    let f := fusOf s r
    fusUpdate s r { f with holds := f.holds ++ [(ref, a)] }) s

/-- The holds of a frame leave (R247). -/
def fusRelease (s : State) (ref : Nat) : State :=
  s.esc.fus.foldl (fun s e =>
    if e.2.holds.any (fun h => h.1 == ref) then
      fusUpdate s e.1 { e.2 with holds := e.2.holds.filter (fun h => h.1 != ref) }
    else s) s

/-- Airtime radiated is added to the current bins (R247, R248); what the registers show follows once the holds of the
transmission that ended have left too. -/
def fusRadiated (s : State) (band freq occHz a : Nat) : State :=
  (fusCovers s band freq occHz).foldl (fun s r =>
    let f := fusOf s r
    let bins := match f.bins with
      | b :: rest => (b + a) :: rest
      | [] => [a]
    s.onEsc (fun e => { e with fus := tabPut e.fus r { f with bins := bins } })) s

/-- The covering regulators show what their bins and holds are now. -/
def fusShow (s : State) (band freq occHz : Nat) : State :=
  (fusCovers s band freq occHz).foldl (fun s r => fusUpdate s r (fusOf s r)) s

/-- A write of valid 1 empties the bins and holds (ESC_FUS_LOr). -/
def fusStart (s : State) (r : Nat) : State :=
  fusUpdate ((s.set (Reg.ESC_FUS_LO_valid r) 1).takeEffect (fusFields r)) r { binAt := s.ltb }

/-- FUSEE_BIN_ADVANCE (R247). -/
def fuseeBinAdvance (s : State) (r : Nat) : State :=
  let f := fusOf s r
  let step := s.get (Reg.ESC_FUS_WIN_window_s r) * 1000000000 / 60
  if s.on (Reg.ESC_FUS_LO_valid r) && decide (f.binAt + step ≤ s.ltb) then
    fusUpdate s r { f with bins := (0 :: f.bins).take 60, binAt := f.binAt + step }
  else s

end Sys2Proof.Machine
end

