-- ==== Sys2Proof/Machine/CtxOps.lean ====
section
/-! DEFINITION. Context access, frame-counter reservation, checkpoints and parity (chapter 11). -/

namespace Sys2Proof.Machine

def State.onCtx (s : State) (f : Ctx → Ctx) : State := { s with ctx := f s.ctx }

def ctxBad (s : State) (k : Nat) : Bool := s.ctx.bad.contains k

/-! ### A stalled sweep (R291) -/

/-- A sweep captures context `k`: valid, dirty and not bad. -/
def sweepable (s : State) (k : Nat) : Bool := s.ctx.dirty.contains k && ctxValid s k && !ctxBad s k

/-- The whole milliseconds of a sweep's stall so far are counted (R291). -/
def sweepStallCount (s : State) : State :=
  match s.ctx.stall with
  | none => s
  | some (start, t) =>
    let ms := (s.ltb - t) / 1000000
    (s.bumpQuiet Reg.CTX_CNT_CKPT_STALL ms).onCtx (fun c => { c with stall := some (start, t + ms * 1000000) })

/-- The stall of the sweep is over: it has taken that time. -/
def stallOver (s : State) : State :=
  match s.ctx.stall, s.ctx.sweep with
  | some (since, _), some (k, start) =>
    (sweepStallCount s).onCtx (fun c => { c with stall := none, sweep := some (k, start + (s.ltb - since)) })
  | _, _ => s

/-- A context may have left the sweep: the stall that waited for room for it is over. -/
def stallRelease (s : State) : State :=
  match s.ctx.sweep with
  | some (k, _) => if sweepable s k then s else stallOver s
  | none => s

/-! ### Parity (R296) -/

/-- A context line meets a parity error (R296). -/
def ctxParity (s : State) (k line : Nat) : State :=
  let s := stallRelease (s.onCtx (fun c => { c with bad := addOnce c.bad k }))
  let s := ((s.set Reg.CTX_PAR_LOG_ctx k).set Reg.CTX_PAR_LOG_line line).set Reg.CTX_PAR_LOG_logged 1
  (s.bump Reg.CTX_CNT_PAR_ERR).raise 168 k

def ctxUpset (s : State) (k : Nat) (upset : Option Nat) : State :=
  match upset with
  | some line => ctxParity s k line
  | none => s

/-! ### Enable, self-test (R297) -/

/-- Sum of the pool counts. -/
def poolTotal (s : State) : Nat := poolBase s 8

/-- CTX_ENABLE (R19, R297). -/
def ctxEnable (s : State) : State :=
  let surplus := decide (16384 < poolTotal s)
  let s := s.setb Reg.CTX_STATUS_pool_err surplus
  if s.on Reg.CTX_CTRL_enable || !s.on Reg.CTX_STATUS_selftest_pass || surplus then s
  else
    let s := (s.set Reg.CTX_CTRL_enable 1).takeEffect [Reg.CTX_CKPT_CFG_ckpt_interval]
    s.onCtx (fun c => { c with sweepAt := s.ltb })

/-- CTX_DISABLE (R297): sweeps stop, contents are kept. -/
def ctxDisable (s : State) : State :=
  ((sweepStallCount s).set Reg.CTX_CTRL_enable 0).onCtx (fun c => { c with sweep := none, stall := none })

/-- CTX_SELFTEST_DONE (R297): every word is left 0. -/
def ctxSelftestDone (s : State) (badBank : Option (Fin 32)) : State :=
  if s.on Reg.CTX_STATUS_selftest_done || decide (s.ltb < s.ctx.selfEnd) then s
  else
    let s := ({ s with store := [] } : State).set Reg.CTX_STATUS_selftest_done 1
    match badBank with
    | none => s.set Reg.CTX_STATUS_selftest_pass 1
    | some b => (s.set Reg.CTX_STATUS_bad_bank b).raise 174 b

/-! ### Access commands (R287) -/

def ctxResult (s : State) (r : Nat) : State := s.set Reg.CTX_ACC_CMD_result r

/-- CONTEXT_READ: the window holds the words as read. -/
def contextRead (s : State) (k : Nat) (upset : Option (Fin 3)) : State :=
  let s := s.set Reg.CTX_ACC_CMD_ctx k
  let s := (List.range 48).foldl (fun s m => s.set (Reg.CTX_WIN_word m) (s.word (ctxBase k + 4 * m))) s
  match upset with
  | some line => ctxResult (ctxParity s k line) 1
  | none => ctxResult s 0

/-- What SLP has learnt of the node that held the context is forgotten (R222). -/
def fbForget (s : State) (k : Nat) : State := { s with slp := { s.slp with fbKept := s.slp.fbKept.filter (· != k) } }

/-- The source that a DSN was recorded with is forgotten: firmware has written the DSN (R184). -/
def dsnForget (s : State) (k : Nat) : State := { s with amc := { s.amc with dsnSrc := tabDel s.amc.dsnSrc k } }

/-- The words of a line are written from the window. -/
def writeLine (s : State) (k line : Nat) : State :=
  let s := if line = 1 then dsnForget s k else s
  -- a write of sched_ofs lets EV152 be raised again (R231)
  let s := if line = 0 then s.onEsc (fun e => { e with warned := e.warned.filter (· != k) }) else s
  (List.range 16).foldl (fun s i =>
    let m := 16 * line + i
    ctxSetWord s k m (s.get (Reg.CTX_WIN_word m))) s

/-- CONTEXT_WRITE: tx_fc, fc_limit and fc_req are never changed. -/
def contextWrite (s : State) (k mask : Nat) : State :=
  let s := (s.set Reg.CTX_ACC_CMD_ctx k).set Reg.CTX_ACC_CMD_line_mask mask
  let (fc, lim, req) := (s.cget k Cx.tx_fc, s.cget k Cx.fc_limit, s.cget k Cx.fc_req)
  let s := ((List.range 3).filter (fun l => bits mask l 1 == 1)).foldl (fun s l => writeLine s k l) s
  let s := ((s.cset k Cx.tx_fc fc).cset k Cx.fc_limit lim).cset k Cx.fc_req req
  let s := if bits mask 0 1 = 1 then genBump s (s.cget k Cx.sub_prof) else s
  ctxResult (stallRelease (markDirty s k)) 0

/-! ### Reservations (R289, R290) -/

/-- A reservation can be written: ring 240 and the outstanding table have room. -/
def resvRoom (s : State) : Bool := ringLive s 240 && !ringFull s 240 && decide (s.ctx.resv.length < 256)

/-- Writes a reservation record of context `k` (R289, R337). The requested limit is not stated where it passes 32
bits (log 2). -/
def reserve (s : State) (k : Nat) : State :=
  let fc := s.cget k Cx.tx_fc
  let (limit, s) := if fc + 65536 < 2 ^ 32 then (fc + 65536, s) else s.drawFree (2 ^ 32)
  let seq := s.get Reg.CTX_RESV_SEQ_seq
  let s := s.set Reg.CTX_RESV_SEQ_seq (seq + 1)
  let s := s.onCtx (fun c => { c with resv := c.resv ++ [⟨k, limit, seq⟩] })
  let s := s.set Reg.CTX_RESV_OUT_outstanding s.ctx.resv.length
  let entry := leOctets 4 1 ++ leOctets 4 k ++ leOctets 4 limit ++ leOctets 4 seq ++ leOctets 8 (s.cget k Cx.eui64)
  ringProduce ((s.bump Reg.CTX_CNT_RESV_REQ).cset k Cx.fc_req 1) 240 [] entry

/-- After a counter is taken: a reservation where one is due (R289). -/
def resvCheck (s : State) (k : Nat) : State :=
  if s.cget k Cx.fc_req = 0 ∧ s.cget k Cx.fc_limit ≤ s.cget k Cx.tx_fc + atLeast1 (s.get Reg.CTX_FC_CFG_fc_margin) then
    if resvRoom s then reserve s k else raiseFirst (s.bump Reg.CTX_CNT_RESV_WAIT) 170
  else s

/-- The frame finds no counter: the drop of R288. -/
def noCounter (s : State) (k : Nat) : State := raiseFirst (s.bump Reg.CTX_CNT_FC_WAIT) 171 k

/-- Takes the next frame counter of context `k` (R288, R296): the counter, or the sec_status of the drop. -/
def takeCounter (s : State) (k : Nat) : (Nat ⊕ Nat) × State :=
  let fc := s.cget k Cx.tx_fc
  let lvl := s.cget k Cx.sec_level
  if ctxBad s k then (.inr 10, noCounter s k)
  else if lvl < 5 then (.inr 10, s.bump Reg.CTX_CNT_FC_WAIT)
  else if fc = 0xFFFFFFFF then (.inr 11, (s.bump Reg.CTX_CNT_FC_EXH).raise 172 k)
  else if fc < s.cget k Cx.fc_limit then (.inl fc, resvCheck (s.cset k Cx.tx_fc (fc + 1)) k)
  else (.inr 10, noCounter s k)

/-- RESERVATION_CONFIRM (R290). -/
def reservationConfirm (s : State) (conf : Nat) : State :=
  let hit := fun (r : Resv) => decide ((conf + 2 ^ 32 - r.seq) % 2 ^ 32 < 2 ^ 31)
  let s' := s.ctx.resv.foldl (fun s r =>
    if hit r then (s.cset r.ctx Cx.fc_limit r.limit).cset r.ctx Cx.fc_req 0 else s) s
  let s' := s'.onCtx (fun c => { c with resv := c.resv.filter (fun r => !hit r) })
  s'.set Reg.CTX_RESV_OUT_outstanding s'.ctx.resv.length

/-! ### Restore and invalidate (R287, R293) -/

/-- Drops a context's outstanding reservation. -/
def dropResv (s : State) (k : Nat) : State :=
  let s := s.onCtx (fun c => { c with resv := c.resv.filter (fun r => r.ctx != k) })
  s.set Reg.CTX_RESV_OUT_outstanding s.ctx.resv.length

/-- The bucket is full at sub_prof's values, with t_last now. -/
def bucketFull (s : State) (k : Nat) : State :=
  let j := s.cget k Cx.sub_prof
  let burst := s.get (Reg.ESC_SUBP_BURST_burst j)
  let s := (s.cset k Cx.cur_rate (s.get (Reg.ESC_SUBP_RATE_rate j))).cset k Cx.cur_burst burst
  let s := (s.cset k Cx.prof_cur j).cset k Cx.prof_gen (profGen s j)
  (s.csset k Cx.tok ((burst * 1024 : Nat) : Int)).cset k Cx.t_last (usNow s)

/-- RESTORE (R293). -/
def restore (s : State) (k : Nat) : State :=
  let s := s.set Reg.CTX_ACC_CMD_ctx k
  if !resvRoom s then ctxResult s 2
  else
    let s := fbForget (subFlush (dropResv s k) k) k
    let s := (List.range 3).foldl (fun s l => writeLine s k l) s
    let s := s.onCtx (fun c => { c with bad := c.bad.filter (· != k) })
    let adj := s.get Reg.CTX_ACC_ADJ_LO_adj + 2 ^ 32 * s.get Reg.CTX_ACC_ADJ_HI_adj
    let s := s.cset k Cx.anchor (s.cget k Cx.anchor + adj)
    let u := s.cget k Cx.u0 + (s.get Reg.CTX_ACC_UNC_unc + 99) / 100
    let s := if 65535 < u then (s.cset k Cx.u0 65535).cset k Cx.oos 1 else s.cset k Cx.u0 u
    let s := s.cset k Cx.tx_fc (s.cget k Cx.fc_limit)
    let s := (((s.cset k Cx.dsn_valid 0).cset k Cx.t_pref 0).cset k Cx.t_alt 0).cset k Cx.q_pref 0
    let s := genBump (s.cset k Cx.q_alt 0) (s.cget k Cx.sub_prof)
    let s := setSubQueue (bucketFull s k) k []
    ctxResult (stallRelease (reserve (markDirty s k) k)) 0

/-- INVALIDATE (R287). -/
def invalidate (s : State) (k : Nat) : State :=
  let s := fbForget (dsnForget (dropResv (subFlush (s.set Reg.CTX_ACC_CMD_ctx k) k) k) k) k
  let s := s.setOctets (ctxBase k) (List.replicate 192 0)
  ctxResult (stallRelease (s.onCtx (fun c => { c with
    dirty := c.dirty.filter (· != k), bad := c.bad.filter (· != k) }))) 0

/-! ### Checkpoints (R291, R292) -/

/-- Octets of a sweep (type 2) or flush (type 3) record (R337). -/
def sweepRecord (s : State) (type k : Nat) : List Byte :=
  let (sec, ns) := ptpAt s s.ltb
  leOctets 4 type ++ leOctets 4 k ++ leOctets 4 (s.get Reg.CTX_CKPT_STAT_sweep_num) ++ leOctets 8 s.ltb ++
    leOctets 6 sec ++ leOctets 4 ns

/-- The next sweep ring with room, round-robin among the enabled ones. -/
def sweepRing (s : State) : Option Nat :=
  let en := let e := s.get Reg.CTX_CKPT_CFG_sweep_rings; if e = 0 then 1 else e
  ((List.range 7).map (fun i => (s.ctx.nextRing + i) % 7)).find? (fun i =>
    bits en i 1 == 1 && ringLive s (241 + i) && !ringFull s (241 + i))

/-- Captures context `k` to a ring with room (R291); whether there was one. -/
def capture (s : State) (type k : Nat) : Bool × State :=
  match sweepRing s with
  | none => (false, s)
  | some i =>
    let s := ringProduce s (241 + i) (s.octets (ctxBase k) 192) (sweepRecord s type k)
    (true, (s.bump Reg.CTX_CNT_CKPT_REC).onCtx (fun c => { c with
      nextRing := (i + 1) % 7, dirty := c.dirty.filter (· != k) }))

/-- The next multiple of the interval in force: the instant at which a sweep is due. -/
def sweepDue (s : State) : Nat :=
  let ns := s.cur Reg.CTX_CKPT_CFG_ckpt_interval * 1000000000
  (s.ctx.sweepAt / ns + 1) * ns

/-- The sweep that is due starts, at `start`. -/
def startSweep (s : State) (start : Nat) : State :=
  let due := sweepDue s
  let s := (s.set Reg.CTX_CKPT_STAT_sweep_num (s.get Reg.CTX_CKPT_STAT_sweep_num + 1)).onCtx (fun c =>
    { c with sweep := some (0, start), sweepAt := due, stall := none, stalled := false })
  s.takeEffect [Reg.CTX_CKPT_CFG_ckpt_interval]

/-- When the sweep in progress has ended: its time is over and nothing is left; none while it goes on. -/
def sweepEnd (s : State) : Option Nat :=
  match s.ctx.sweep with
  | some (next, start) =>
    if start + 1024000000 ≤ s.ltb ∧ s.ctx.dirty.all (fun k => decide (k < next) || !sweepable s k) then some (start + 1024000000)
    else none
  | none => some 0

/-- SWEEP_START (R291): at each multiple of the interval in force, or once the sweep before has ended. -/
def sweepStart (s : State) : State :=
  match sweepEnd s with
  | some e => if s.on Reg.CTX_CTRL_enable ∧ sweepDue s ≤ s.ltb then startSweep s (max e (sweepDue s)) else s
  | none => s

/-- A visit has captured, or had nothing to capture: the stall before it is over, and the sweep goes on. -/
def sweepNext (s : State) (k : Nat) : State :=
  let s := stallOver s
  if k + 1 < 131072 then s.onCtx (fun c => { c with sweep := c.sweep.map (fun e => (k + 1, e.2)) })
  else
    let s := s.onCtx (fun c => { c with sweep := none })
    if sweepDue s ≤ s.ltb then startSweep s s.ltb else s

/-- SWEEP_VISIT (R291): of context `k`, once its instant has come and nothing before it is left to capture. -/
def sweepVisit (s : State) (k : Nat) : State :=
  match s.ctx.sweep with
  | none => s
  | some (next, start) =>
    if k < next ∨ s.ltb < start + k * 78125 / 10 ∨ s.ctx.dirty.any (fun j => decide (next ≤ j ∧ j < k) && sweepable s j) then s
    else
      let (ok, s) := if sweepable s k then capture s 2 k else (true, s)
      if ok then sweepNext s k
      else
        let first := !s.ctx.stalled
        let s := s.onCtx (fun c => { c with stall := c.stall.or (some (s.ltb, s.ltb)), stalled := true, sweep := some (k, start) })
        if first then s.raise 169 else s

/-- The first dirty context from index `i` up that a flush captures. -/
def flushNext (s : State) (i : Nat) : Option Nat :=
  s.ctx.dirty.foldl (fun (m : Option Nat) k =>
    if k < i || ctxBad s k then m
    else match m with
      | some j => some (min j k)
      | none => some k) none

/-- The flush pass from index `i` up: it captures by ascending index, as long as a ring has room, and stands at the first
context for which none has. At most `n` contexts. -/
def flushPass : Nat → State → Nat → State
  | 0, s, i => stallRelease (s.onCtx (fun c => { c with flushAt := some i }))
  | n + 1, s, i => match flushNext s i with
    | none => stallRelease (s.onCtx (fun c => { c with flushAt := some 131072 }))
    | some k => match capture s 3 k with
      | (true, s) => flushPass n s (k + 1)
      | (false, s) => stallRelease (s.onCtx (fun c => { c with flushAt := some k }))

/-- FLUSH (R292): ignored while flush_busy. -/
def flush (s : State) : State :=
  if s.on Reg.CTX_STATUS_flush_busy then s
  else flushPass (s.ctx.dirty.length + 1) (s.set Reg.CTX_STATUS_flush_busy 1) 0

/-- FLUSH_COMPLETE (R292): the pass has ended once its scan is past every context. One that became dirty behind it stays
dirty. -/
def flushComplete (s : State) : State :=
  if !s.on Reg.CTX_STATUS_flush_busy then s
  else
    let s := flushPass (s.ctx.dirty.length + 1) s (s.ctx.flushAt.getD 131072)
    if (s.ctx.flushAt.getD 131072) = 131072 then
      ((s.set Reg.CTX_STATUS_flush_busy 0).onCtx (fun c => { c with flushAt := none })).raise 173
    else s

end Sys2Proof.Machine
end

