-- ==== Sys2Proof/Machine/JwlOps.lean ====
section
/-! DEFINITION. The Jewel store (chapter 12): slots and their checks, window commands, invalidation, life-cycle
changes, link keys and the derived-key cache, measurements and attestation. -/

namespace Sys2Proof.Machine

def State.onJwl (s : State) (f : Jwl → Jwl) : State := { s with jwl := f s.jwl }

/-! ### Slots and checks (R303, R305, R306) -/

/-- The life-cycle state: that of the fuses (R303). -/
def lcState (s : State) : Nat := s.fuses.lcState
def lcBusy (s : State) : Bool := s.on Reg.JWL_STATUS_lc_busy

/-- Masters 2 to 4 are secure (R301). -/
def masterSecure (m : Nat) : Bool := decide (2 ≤ m)

def rootSlot : Slot :=
  { state := 1, type := 2, world := 1, masters := 0x0C, lcMask := 0x06, key := Config.rootSecret }

/-- Slot 1 is used only by the attestation unit: no master's bit is set (log 21). -/
def attestSlot : Slot := { state := 1, type := 3, world := 1, masters := 0, key := Config.attestSecret }

def jslot (s : State) (k : Nat) : Slot :=
  if k = 0 then rootSlot else if k = 1 then attestSlot else tabGetD s.jwl.slots k {}

def setJslot (s : State) (k : Nat) (x : Slot) : State := s.onJwl (fun j => { j with slots := tabPut j.slots k x })

/-- A slot or one of its ancestors is REVOKED; at most eight levels. -/
def chainRevoked : Nat → State → Nat → Bool
  | 0, _, _ => false
  | n + 1, s, k =>
    let x := jslot s k
    x.state == 2 || (x.parent != 0x3FF && chainRevoked n s x.parent)

/-- A slot or one of its ancestors is EMPTY. -/
def chainEmpty : Nat → State → Nat → Bool
  | 0, _, _ => false
  | n + 1, s, k =>
    let x := jslot s k
    x.state == 0 || (x.parent != 0x3FF && chainEmpty n s x.parent)

/-- Check 1 of R306: 0, KEY_REVOKED or BAD_SLOT. -/
def slotAlive (s : State) (k : Nat) : Nat :=
  if chainRevoked 8 s k then 6 else if chainEmpty 8 s k then 3 else 0

/-- R303, by kind of operation: 0 load or invalidate, 1 derive, 2 CCM* or HMAC, 3 everything else. -/
def lcAllows (s : State) (kind master : Nat) : Bool :=
  match kind with
  | 0 => decide (lcState s ≤ 3) && !(lcState s == 2 && master == 0)
  | 1 => lcState s == 1 || lcState s == 2
  | 2 => decide (lcState s ≤ 3)
  | _ => true

/-- Checks 1 to 3 of R306 on slot `k`: 0 or the result. -/
def useTest (s : State) (k master kind : Nat) : Nat :=
  let x := jslot s k
  let alive := slotAlive s k
  if alive ≠ 0 then alive
  else if bits x.masters master 1 = 0 ∨ (x.world = 1 ∧ !masterSecure master) then 1
  else if !lcAllows s kind master ∨ bits x.lcMask (lcState s) 1 = 0 then 2
  else 0

/-! ### Derivation (R308, R310) -/

/-- A derived child's material: `type` decides the length. -/
def kdfChild (parent : List Byte) (label : List Byte) (domain type : Nat) : List Byte :=
  let l := if type = 0 then 128 else 256
  (hmacSha256 parent (beOctets 4 1 ++ octetsAt label 0 16 ++ [0] ++ beOctets 4 domain ++ beOctets 4 l)).take (l / 8)

/-- The 25-octet link-key input (R310). -/
def linkKeyInput (domain eui : Nat) : List Byte :=
  beOctets 4 1 ++ [0x4B, 0x5A, 0x4C, 0x4B, 0x00] ++ beOctets 4 domain ++ beOctets 8 eui ++ beOctets 4 0x80

def linkKey (x : Slot) (eui : Nat) : List Byte := (hmacSha256 x.key (linkKeyInput x.domain eui)).take 16

/-! ### The derived-key cache (R311) -/

/-- The set of a slot and EUI-64 (the octet order is the model's, log 22). -/
def cacheSet (slot eui : Nat) : Nat := crc32c (leOctets 2 slot ++ leOctets 8 eui) % 1024

def cacheShow (s : State) : State :=
  s.set Reg.JWL_CACHE_entries ((s.jwl.cache.map (fun e => e.2.length)).foldl (· + ·) 0)

def setCache (s : State) (i : Nat) (l : List Derived) : State :=
  cacheShow (s.onJwl (fun j => { j with cache := if l.isEmpty then tabDel j.cache i else tabPut j.cache i l }))

/-- A hit: the key, with the entry made the most recently used. -/
def cacheFind (s : State) (slot eui : Nat) : Option (List Byte) × State :=
  let i := cacheSet slot eui
  let l := tabGetD s.jwl.cache i []
  match l.find? (fun d => d.slot == slot && d.gen == (jslot s slot).gen && d.eui == eui) with
  | some d => (some d.key, setCache s i (d :: l.filter (fun x => x != d)))
  | none => (none, s)

/-- Writes a derived key; the least recently used of eight ways goes. -/
def cacheInsert (s : State) (d : Derived) : State :=
  let i := cacheSet d.slot d.eui
  let l := (tabGetD s.jwl.cache i []).filter (fun x => !(x.slot == d.slot && x.gen == d.gen && x.eui == d.eui))
  setCache s i ((d :: l).take 8)

/-- CACHE_FLUSH. -/
def cacheFlush (s : State) : State := cacheShow (s.onJwl (fun j => { j with cache := [] }))

/-! ### Window commands (R307) -/

/-- After the hand-over no master is CROWN: a command in its window is CORE0's write to a foreign window (R301, R302). -/
def inWindow (s : State) (w : Nat) (f : State → State) : State :=
  if w = 3 ∧ s.on Reg.CRN_STATUS_handed_over then (s.bump Reg.JWL_CNT_DENIED).raise 196 2 0 else f s

/-- A command or write refused ACCESS or LC_DENIED, or a write to a foreign window (R301, R307, R335). -/
def jwlDenied (s : State) (master result : Nat) : State := (s.bump Reg.JWL_CNT_DENIED).raise 196 master result

/-- A window command starts: `run` gives its job unless a life-cycle change is under way (R304) or JWL is disabled
and the command needs it (R318). -/
def jobStart (s : State) (w op slot : Nat) (run : State → Job × State) : State :=
  if s.on (Reg.JWL_CMD_busy w) then s
  else
    let s := (s.set (Reg.JWL_CMD_slot w) slot).set (Reg.JWL_CMD_busy w) 1
    let ended := fun (r : Nat) => ({ op := op, slot := slot, result := some r } : Job)
    let (j, s) :=
      if lcBusy s then (ended 8, s)
      else if !s.on Reg.JWL_CTRL_enable && !(op == 5 || op == 6 || op == 8 || op == 9) then (ended 2, s)
      else run s
    let s := if j.result = some 1 ∨ j.result = some 2 then jwlDenied s w (j.result.getD 0) else s
    s.onJwl (fun x => { x with jobs := tabPut x.jobs w j })

/-- Octets of staged registers, first octet in [7:0]. -/
def wordsOf (s : State) (f : Nat → Fld) (n : Nat) : List Byte := (List.range n).flatMap (fun i => leOctets 4 (s.get (f i)))

/-- Octets into registers. -/
def setWords (s : State) (f : Nat → Fld) (l : List Byte) : State :=
  (List.range (l.length / 4)).foldl (fun s i => s.set (f i) (ofLe (octetsAt l (4 * i) 4))) s

/-- Octets of key material of a type. -/
def keyLen : Nat → Nat
  | 0 => 16
  | 4 => 64
  | _ => 32

/-- The staged attributes of window `w`. -/
def stagedSlot (s : State) (w : Nat) : Slot := {
  state := 1, type := s.get (Reg.JWL_ATTR_type w), world := s.get (Reg.JWL_ATTR_world w)
  masters := s.get (Reg.JWL_ATTR_masters w), lcMask := s.get (Reg.JWL_ATTR_lc_mask w)
  lcAuth := s.on (Reg.JWL_ATTR_lc_auth w), parent := s.get (Reg.JWL_ATTR_parent w)
  domain := s.get (Reg.JWL_DOMAIN_domain w)
  key := (wordsOf s (Reg.JWL_KEY_key w) 16).take (keyLen (s.get (Reg.JWL_ATTR_type w))) }

/-- The parent's part of a load's or derive's tests: 0 or the result. -/
def parentTest (s : State) (p : Nat) : Nat :=
  match slotAlive s p with
  | 6 => 6
  | 0 => if 7 ≤ (jslot s p).depth then 5 else 0
  | _ => 5

/-- The tests of a load (R303, R307): 0 or the result. -/
def loadTest (s : State) (w slot : Nat) (x : Slot) : Nat :=
  if slot < 2 then 10
  else if !lcAllows s 0 w then 2
  else if 5 ≤ x.type then 4
  else if (jslot s slot).state = 1 then 3
  else if x.world = 1 ∧ !masterSecure w then 1
  else if x.parent = 0x3FF then 0
  else parentTest s x.parent

/-- The tests of a derive (R306, R307, R308): slots 0 and 1 are VALID. -/
def deriveTest (s : State) (w slot : Nat) (x : Slot) : Nat :=
  if 4 ≤ x.type then 4
  else if (jslot s slot).state = 1 then 3
  else if x.parent = 0x3FF then 5
  else
    match useTest s x.parent w 1 with
    | 3 => 5
    | 0 => if (jslot s x.parent).type ≠ 2 then 5 else parentTest s x.parent
    | r => r

/-- A load or derive is executed: the slot is filled, with gen + 1. -/
def fillSlot (s : State) (w : Nat) (j : Job) : Job × State :=
  let x := j.staged
  let r := if j.op = 1 then loadTest s w j.slot x else deriveTest s w j.slot x
  if r ≠ 0 then ({ j with result := some r }, s)
  else
    let depth := if x.parent = 0x3FF then 0 else (jslot s x.parent).depth + 1
    let key := if j.op = 1 then x.key else kdfChild (jslot s x.parent).key j.label x.domain x.type
    ({ j with result := some 0 }, setJslot s j.slot { x with
      depth := depth, key := key, gen := ((jslot s j.slot).gen + 1) % 65536, lcAuth := x.lcAuth && x.type == 4 })

/-- LOAD and DERIVE: into a REVOKED slot they wait for the end of any sweep (R309). -/
def slotFillStart (s : State) (w op slot : Nat) : State :=
  jobStart s w op slot (fun s =>
    let j : Job := { op := op, slot := slot, staged := stagedSlot s w, label := wordsOf s (Reg.JWL_LABEL_label w) 4 }
    if (jslot s slot).state = 2 ∧ !s.jwl.sweeps.isEmpty then (j, s) else fillSlot s w j)

def jwlLoad (s : State) (w slot : Nat) : State := slotFillStart s w 1 slot
def jwlDerive (s : State) (w slot : Nat) : State := slotFillStart s w 2 slot

/-- KEY_INVALIDATE (R307, R309): the slot is REVOKED at once, and the sweep starts. -/
def keyInvalidate (s : State) (w slot : Nat) : State :=
  jobStart s w 3 slot (fun s =>
    let x := jslot s slot
    let r := if slot < 2 then 10 else if !lcAllows s 0 w then 2
      else if x.world = 1 ∧ !masterSecure w then 1 else 0
    if r ≠ 0 then ({ op := 3, slot := slot, result := some r }, s)
    else
      let s := setJslot s slot { x with state := 2 }
      ({ op := 3, slot := slot },
       (s.set Reg.JWL_STATUS_sweep_busy 1).onJwl (fun j => { j with sweeps := j.sweeps ++ [(w, slot)] })))

/-- The jobs that waited for the end of a sweep are executed. -/
def runWaiting (s : State) : State :=
  s.jwl.jobs.foldl (fun s e =>
    if (e.2.op = 1 ∨ e.2.op = 2) ∧ e.2.result.isNone then
      let (j, s) := fillSlot s e.1 e.2
      let s := if j.result = some 1 ∨ j.result = some 2 then jwlDenied s e.1 (j.result.getD 0) else s
      s.onJwl (fun x => { x with jobs := tabPut x.jobs e.1 j })
    else s) s

/-- READ_ATTRIBUTES (R307). What slot 1 shows beside its state is not stated (log 2). -/
def readAttributes (s : State) (w slot : Nat) : State :=
  jobStart s w 4 slot (fun s =>
    let x := jslot s slot
    let (x, s) := if slot = 1 then
        let (a, s) := s.drawFree (2 ^ 14)
        let (d, s) := s.drawFree (2 ^ 32)
        ({ x with type := bits a 0 3, world := bits a 3 1, masters := bits a 4 5, lcMask := bits a 9 5, domain := d }, s)
      else (x, s)
    ({ op := 4, slot := slot, result := some 0, attrs := some x }, s))

/-- The attestation response over a challenge (R317). -/
def attestation (s : State) (w n : Nat) (challenge : List Byte) : List Byte :=
  let role := s.get Reg.TWN_CTRL_role % 3
  let flags := (if s.straps.host then 1 else 0) + 2 * role + (if lcBusy s then 8 else 0)
  let body := [0x4B, 0x5A, 0x41, 0x52, 0x01] ++ leOctets 1 (lcState s) ++ leOctets 2 flags ++
    leOctets 4 (s.get Reg.GLB_ID_part) ++ leOctets 2 (s.get Reg.GLB_ID_rev) ++ leOctets 2 w ++
    leOctets 4 (s.get Reg.JWL_DEVID_LO_device_id) ++ leOctets 4 (s.get Reg.JWL_DEVID_HI_device_id) ++
    leOctets 4 s.fuses.rollback ++ leOctets 4 n ++
    (List.range 4).flatMap (fun m => wordsOf s (Reg.JWL_MEAS_word m) 8) ++ challenge
  body ++ hmacSha256 Config.attestSecret body

/-- ATTEST (R317). -/
def jwlAttest (s : State) (w slot : Nat) : State :=
  jobStart s w 5 slot (fun s =>
    let n := s.jwl.attests + 1
    ({ op := 5, slot := slot, result := some 0
       attest := some (attestation s w n (wordsOf s (Reg.JWL_DIGEST_word w) 8)) },
     s.onJwl (fun j => { j with attests := n })))

/-- The octets of a job, or none: the length is 0 or above 16 MiB, or the read faulted (R307). `data` is what the
master's address space holds. -/
def jobData (s : State) (w : Nat) (data : List Byte) (fault : Bool) : Option (List Byte) :=
  let n := s.get (Reg.JWL_JOB_LEN_len w)
  if n = 0 ∨ 0x1000000 < n ∨ fault then none else some (octetsAt data 0 n)

/-- HASH (R307). -/
def jwlHash (s : State) (w slot : Nat) (data : List Byte) (fault : Bool) : State :=
  jobStart s w 6 slot (fun s =>
    match jobData s w data fault with
    | none => ({ op := 6, slot := slot, result := some 9 }, s)
    | some d => ({ op := 6, slot := slot, result := some 0, digest := some (sha256 d), due := s.ltb + d.length }, s))

/-- HMAC (R306, R307). -/
def jwlHmac (s : State) (w slot : Nat) (data : List Byte) (fault : Bool) : State :=
  jobStart s w 7 slot (fun s =>
    let r := useTest s slot w 2
    if r ≠ 0 then ({ op := 7, slot := slot, result := some r }, s)
    else if (jslot s slot).type ≠ 3 then ({ op := 7, slot := slot, result := some 4 }, s)
    else match jobData s w data fault with
      | none => ({ op := 7, slot := slot, result := some 9 }, s)
      | some d =>
        ({ op := 7, slot := slot, result := some 0, digest := some (hmacSha256 (jslot s slot).key d)
           due := s.ltb + d.length }, s))

/-- VERIFY (R306, R307): takes 1.2 ms. -/
def jwlVerify (s : State) (w slot : Nat) : State :=
  jobStart s w 8 slot (fun s =>
    let x := jslot s slot
    let r := useTest s slot w 3
    if r ≠ 0 then ({ op := 8, slot := slot, result := some r }, s)
    else if x.type ≠ 4 then ({ op := 8, slot := slot, result := some 4 }, s)
    else
      let digest := wordsOf s (Reg.JWL_DIGEST_word w) 8
      let ok := ecdsaVerify x.key digest (wordsOf s (Reg.JWL_SIG_word w) 16)
      ({ op := 8, slot := slot, result := some (if ok then 0 else 7), due := s.ltb + 1200000
         auth := if ok && x.lcAuth then some digest else none }, s))

/-- A measurement is extended with a digest (R316). -/
def extendMeasure (s : State) (m : Nat) (digest : List Byte) : State :=
  setWords s (Reg.JWL_MEAS_word m) (sha256 (wordsOf s (Reg.JWL_MEAS_word m) 8 ++ digest))

/-- EXTEND (R316). -/
def jwlExtend (s : State) (w m : Nat) : State :=
  jobStart s w 9 m (fun s =>
    let r := if 3 < m then 3 else if m = 0 then (if w = 3 then 0 else 10) else if masterSecure w then 0 else 1
    if r ≠ 0 then ({ op := 9, slot := m, result := some r }, s)
    else ({ op := 9, slot := m, result := some 0 }, extendMeasure s m (wordsOf s (Reg.JWL_DIGEST_word w) 8)))

/-- The attributes that op 4 returns. -/
def showAttrs (s : State) (w : Nat) (x : Slot) : State :=
  let s := ((s.set (Reg.JWL_ATTR_type w) x.type).set (Reg.JWL_ATTR_world w) x.world).set (Reg.JWL_ATTR_masters w) x.masters
  let s := ((s.set (Reg.JWL_ATTR_lc_mask w) x.lcMask).set (Reg.JWL_ATTR_parent w) x.parent).setb (Reg.JWL_ATTR_lc_auth w) x.lcAuth
  let s := ((s.set (Reg.JWL_ATTR_depth w) x.depth).set (Reg.JWL_ATTR_state w) x.state).set (Reg.JWL_DOMAIN_domain w) x.domain
  let s := s.set (Reg.JWL_GEN_gen w) x.gen
  if x.state = 1 ∧ x.type = 4 then setWords s (Reg.JWL_SIG_word w) (octetsAt x.key 0 64) else s

/-- What a job writes when it ends. -/
def jobApply (s : State) (w : Nat) (j : Job) (result : Nat) : State :=
  let s := match j.digest with
    | some d => setWords s (Reg.JWL_DIGEST_word w) d
    | none => s
  let s := match j.attrs with
    | some x => showAttrs s w x
    | none => s
  let s := match j.attest with
    | some l => setWords s (Reg.JWL_ATTRES_word w) l
    | none => s
  let s := (List.range 16).foldl (fun s i => s.set (Reg.JWL_KEY_key w i) 0) s
  let s := s.onJwl (fun x => { x with
    jobs := tabDel x.jobs w
    verified := match j.auth with
      | some d => tabPut x.verified w d
      | none => tabDel x.verified w })
  ((s.set (Reg.JWL_CMD_result w) result).set (Reg.JWL_CMD_busy w) 0).raise 198 w

/-- WINDOW_JOB_END (R307). -/
def windowJobEnd (s : State) (w : Nat) : State :=
  match tabGet s.jwl.jobs w with
  | none => s
  | some j => match j.result with
    | none => s
    | some r => if s.ltb < j.due then s else jobApply s w j r

/-- REVOCATION_SWEEP_END (R309): of window `w`'s invalidation. -/
def revocationSweepEnd (s : State) (w : Nat) : State :=
  match s.jwl.sweeps.find? (fun e => e.1 == w), tabGet s.jwl.jobs w with
  | some (_, slot), some j =>
    let revoked := fun (k : Nat) => chainRevoked 8 s k
    let s := s.onJwl (fun x => { x with
      slots := x.slots.map (fun e => if revoked e.1 then (e.1, { e.2 with state := 2, key := [] }) else e)
      cache := (x.cache.map (fun e => (e.1, e.2.filter (fun d => !revoked d.slot)))).filter (fun e => !e.2.isEmpty)
      sweeps := x.sweeps.filter (fun e => e.1 != w) })
    let s := (cacheShow s).setb Reg.JWL_STATUS_sweep_busy (!s.jwl.sweeps.isEmpty)
    let s := jobApply (s.raise 192 slot) w j 0
    if s.jwl.sweeps.isEmpty then runWaiting s else s
  | _, _ => s

/-! ### Enable, life cycle (R303, R304, R318) -/

/-- JWL_ENABLE (R19, R318). -/
def jwlEnable (s : State) : State := if s.on Reg.JWL_STATUS_lc_read then s.set Reg.JWL_CTRL_enable 1 else s

def jwlDisable (s : State) : State := s.set Reg.JWL_CTRL_enable 0

/-- LC_READ (R303): 40 µs after the release of reset. -/
def lcRead (s : State) : State :=
  if s.on Reg.JWL_STATUS_lc_read || decide (s.ltb < s.jwl.lcReadAt) then s
  else (s.set Reg.JWL_STATUS_lc_state s.fuses.lcState).set Reg.JWL_STATUS_lc_read 1

/-- An allowed transition (R304). -/
def lcTransition (now target : Nat) : Bool :=
  (now == 0 && target == 1) || (now == 1 && target == 2) || ((now == 1 || now == 2) && target == 3) ||
  (target == 4 && decide (now ≤ 4))

/-- A load or derive that waits for a sweep has not started: a change of state ends it LC_CHANGING (R304). -/
def lcJob (j : Job) : Job :=
  if (j.op = 1 ∨ j.op = 2) ∧ j.result.isNone then { j with result := some 8 } else j

/-- LIFE_CYCLE_CHANGE (R304): the keys are zeroised, and the fuses burn. -/
def lifeCycleChange (s : State) (w target : Nat) : State :=
  if lcBusy s then s
  else if !masterSecure w then jwlDenied (s.set Reg.JWL_LC_RES_result 2) w 1
  else
    let s := s.set Reg.JWL_LC_CMD_target target
    let device := leOctets 4 (s.get Reg.JWL_DEVID_LO_device_id) ++ leOctets 4 (s.get Reg.JWL_DEVID_HI_device_id)
    if !lcTransition (lcState s) target then s.set Reg.JWL_LC_RES_result 1
    else if target = 3 ∧ tabGet s.jwl.verified w ≠ some (sha256 (device ++ leOctets 1 target)) then
      s.set Reg.JWL_LC_RES_result 3
    else
      let s := (s.set Reg.JWL_LC_RES_result 0).set Reg.JWL_STATUS_lc_busy 1
      let s := s.onJwl (fun j => { j with
        slots := j.slots.map (fun e => (e.1, { gen := e.2.gen })), cache := []
        jobs := j.jobs.map (fun e => (e.1, lcJob e.2))
        lcTarget := some (target, s.ltb + 5000000) })
      cacheShow s

/-- LIFE_CYCLE_CHANGE_DONE (R304). -/
def lifeCycleChangeDone (s : State) : State :=
  match s.jwl.lcTarget with
  | none => s
  | some (target, due) =>
    if s.ltb < due then s
    else
      let s := ({ s with fuses := { s.fuses with lcState := target } } : State).onJwl (fun j => { j with lcTarget := none })
      ((s.set Reg.JWL_STATUS_lc_state target).set Reg.JWL_STATUS_lc_busy 0).raise 197

/-! ### Uses by the pipeline (R313, R315) -/

/-- The key test of the pipeline on a slot that must be of a type: 0, or the sec_status. -/
def pipeKeyTest (s : State) (slot type kind : Nat) : Nat :=
  if lcBusy s then 9
  else if !s.on Reg.JWL_CTRL_enable then 5
  else
    let x := jslot s slot
    -- NO_KEY comes before KEY_REVOKED
    if x.state = 0 ∨ x.type ≠ type ∨ bits x.masters 4 1 = 0 ∨ !lcAllows s kind 4 ∨ bits x.lcMask (lcState s) 1 = 0 then 5
    else match useTest s slot 4 kind with
      | 0 => 0
      | 6 => 6
      | _ => 5

end Sys2Proof.Machine
end

