-- ==== Sys2Proof/Machine/NtOps.lean ====
section
/-! DEFINITION. The Node Table and the Prefix Table of FWD (chapter 10: R252-R263, R276). -/

namespace Sys2Proof.Machine

def State.onFwd (s : State) (f : Fwd → Fwd) : State := { s with fwd := f s.fwd }

/-! ### Parity (R276) -/

/-- A parity error of FWD: table 0 Node, 1 Prefix, 2 reassembly. -/
def fwdParity (s : State) (table index ev : Nat) : State :=
  let s := (s.bump Reg.FWD_CNT_PAR_ERR).set Reg.FWD_PAR_LOG_table table
  ((s.set Reg.FWD_PAR_LOG_index index).set Reg.FWD_PAR_LOG_logged 1).raise ev table index

def ntIsBad (s : State) (i : Nat) : Bool := s.fwd.ntBad.contains i

/-- Entries among `upset` that a read of the entries `is` meets with a parity error: flagged bad (R276). -/
def ntUpset (s : State) (is upset : List Nat) : State :=
  (is.filter (fun i => upset.contains i && !ntIsBad s i)).foldl (fun s i =>
    fwdParity (s.onFwd (fun f => { f with ntBad := addOnce f.ntBad i })) 0 i 160) s

/-! ### Lookup (R253, R254) -/

/-- One hash of a key and kind. -/
def ntHash (seed key kind : Nat) : Nat :=
  crc32c (leOctets 4 seed ++ leOctets 8 key ++ leOctets 1 kind) % 2 ^ 16

/-- The two buckets of a key. -/
def ntBuckets (s : State) (key kind : Nat) : Nat × Nat :=
  let b0 := ntHash (s.get Reg.FWD_HASH_SEED0_seed0) key kind
  let b1 := ntHash (s.get Reg.FWD_HASH_SEED1_seed1) key kind
  (b0, if b1 = b0 then b0 ^^^ 1 else b1)

/-- The entry positions of a bucket; ways 2 and 3 of bucket 65,535 never hold an entry. -/
def ntWays (b : Nat) : List Nat := if b = 65535 then [4 * b, 4 * b + 1] else [4 * b, 4 * b + 1, 4 * b + 2, 4 * b + 3]

def ntValid (s : State) (i : Nat) : Bool := nget s i Nt.valid == 1 && !ntIsBad s i

/-- The positions that a lookup of a key reads. -/
def ntReads (s : State) (key kind : Nat) : List Nat :=
  let (b0, b1) := ntBuckets s key kind
  ntWays b0 ++ ntWays b1

/-- The hit of a key and kind: of two matches the one whose ver is the other's + 1 (R254). -/
def ntFind (s : State) (key kind : Nat) : Option Nat :=
  match (ntReads s key kind).filter (fun i => ntValid s i && nget s i Nt.key == key && nget s i Nt.kind == kind) with
  | [] => none
  | [i] => some i
  | i :: j :: _ => if nget s i Nt.ver = (nget s j Nt.ver + 1) % 4 then some i else some j

/-- The time that a lookup takes: 0.4 µs to 0.6 µs of the table of R22. -/
def ntSpan : Nat := 200

/-- A lookup that misses, with a relocation within its time: it is made once more (R255). The tables of the model change between
commands only, so the second one misses too (log 318). -/
def ntRetry (s : State) : State :=
  if s.fwd.reloc ≠ 0 ∧ s.ltb < s.fwd.relocAt + ntSpan then s.bump Reg.FWD_CNT_NT_RETRY else s

/-- A pipeline lookup: the context and the primary entry of a key (R254); its hit or miss is counted. The primary of an
alias is read too; where it is bad, it is absent and the lookup misses (R276). -/
def ntLookupPipe (s : State) (key kind : Nat) (upset : List Nat) : Option (Nat × Nat) × State :=
  let s := ntUpset s (ntReads s key kind) upset
  let miss := fun (s : State) => (none, (ntRetry s).bump Reg.FWD_CNT_NT_MISS)
  match ntFind s key kind with
  | some i =>
    let p := if kind = 1 then nget s i Nt.parent else i
    let s := if kind = 1 then ntUpset s [p] upset else s
    if ntValid s p then (some (nget s i Nt.ctx, p), s.bump Reg.FWD_CNT_NT_HIT) else miss s
  | none => miss s

/-! ### Commands (R256-R259) -/

/-- A command ends: its result. -/
def ntResult (s : State) (r : Nat) : State := s.set Reg.FWD_NT_CMD_result r

/-- idx and RD0-3 of an entry. -/
def ntShow (s : State) (i : Nat) : State :=
  (List.range 4).foldl (fun s m => s.set (Reg.FWD_NT_RD_word m) (ntBits s i / 2 ^ (32 * m)))
    (s.set Reg.FWD_NT_IDX_idx i)

def ntKey (s : State) : Nat := s.get Reg.FWD_NT_KEY_LO_key + 2 ^ 32 * s.get Reg.FWD_NT_KEY_HI_key
def ntArg (s : State) : Nat := s.get Reg.FWD_NT_ARG_LO_arg + 2 ^ 32 * s.get Reg.FWD_NT_ARG_HI_arg

def ntFill (s : State) (up : Bool) : State :=
  s.set Reg.FWD_NT_FILL_nt_fill (if up then s.get Reg.FWD_NT_FILL_nt_fill + 1 else s.get Reg.FWD_NT_FILL_nt_fill - 1)

/-- A primary entry's parent is an entry, not the site or none. -/
def isEntry (p : Nat) : Bool := p != ntSite && p != ntNone

def addRefs (s : State) (i : Nat) (up : Bool) : State :=
  nset s i Nt.refs (if up then nget s i Nt.refs + 1 else nget s i Nt.refs - 1)

/-- A key for a lookup command: an alias is keyed by its short address. -/
def keyFor (key kind : Nat) : Nat := if kind = 1 then key % 2 ^ 16 else key

/-- NT_LOOKUP (R258). -/
def ntLookup (s : State) (kind : Nat) (upset : List Nat) : State :=
  let key := keyFor (ntKey s) kind
  let s := ntUpset (s.set Reg.FWD_NT_CMD_kind kind) (ntReads s key kind) upset
  match ntFind s key kind with
  | some i => ntResult (ntShow s i) 0
  | none => ntResult s 1

/-- The other bucket of an entry. -/
def otherBucket (s : State) (i : Nat) : Nat :=
  let (b0, b1) := ntBuckets s (nget s i Nt.key) (nget s i Nt.kind)
  if i / 4 = b0 then b1 else b0

/-- The first free way of a bucket. -/
def freeWay (s : State) (b : Nat) : Option Nat :=
  (ntWays b).find? (fun i => nget s i Nt.valid == 0 && !ntIsBad s i)

/-- The chain of victims from a full bucket to a free way (R256): newest first, with that way; at most `n` victims are drawn.
Since a move copies before it deletes (R255), the moves are made from the end of the chain, once it has reached a free way: the
entry that a move is to place in a bucket is not yet among those drawn from, and a victim drawn again takes the chain back
to it: DEDUCED (log 60). -/
def evictChain : Nat → State → Nat → List Nat → List Nat → Option (List Nat × Nat) × State
  | 0, s, _, _, _ => (none, s)
  | n + 1, s, b, chain, upset =>
    let cands := (ntWays b).filter (fun i => ntValid s i && nget s i Nt.refs == 0)
    if cands.isEmpty then (none, s)
    else
      let (r, s) := s.drawRandom cands.length
      let v := cands.getD r 0
      let chain := v :: (if chain.contains v then (chain.dropWhile (· != v)).drop 1 else chain)
      let d := otherBucket s v
      let s := ntUpset s (ntWays d) upset
      match freeWay s d with
      | some f => (some (chain, f), s)
      | none => evictChain n s d chain upset

/-- The relocation sequence is incremented (R255). -/
def ntMoved (s : State) : State := s.onFwd (fun x => { x with reloc := x.reloc + 1, relocAt := s.ltb })

/-- The moves of a chain, each copy with ver + 1, then invalidation of the old place, then an increment of the relocation
sequence (R255); the way that becomes free. -/
def relocate : State → List Nat → Nat → State × Nat
  | s, [], f => (s, f)
  | s, v :: r, f =>
    let e := ntBits s v
    let s := ntWrite s f (putBits e Nt.ver.lo 2 (bits e Nt.ver.lo 2 + 1))
    relocate (ntMoved ((nset s v Nt.valid 0).bump Reg.FWD_CNT_NT_RELOC)) r v

/-- A place for a new entry of a key (R256); none: TABLE_FULL. -/
def ntPlace (s : State) (key kind : Nat) (upset : List Nat) : Option Nat × State :=
  let (b0, b1) := ntBuckets s key kind
  match (freeWay s b0).or (freeWay s b1) with
  | some f => (some f, s)
  | none =>
    match evictChain (atLeast1 (s.get Reg.FWD_NT_CFG_max_kicks)) s b0 [] upset with
    | (some (chain, f), s) =>
      let (s, f) := relocate s chain f
      (some f, s)
    | (none, s) => (none, s)

/-- The 128 bits of an entry. -/
def entryBits (key ctx parent pref alt refs kind : Nat) : Nat :=
  key % 2 ^ 64 + ctx % 2 ^ 17 * 2 ^ 64 + parent % 2 ^ 18 * 2 ^ 81 + pref % 2 ^ 8 * 2 ^ 99 + alt % 2 ^ 8 * 2 ^ 107 +
    refs % 2 ^ 8 * 2 ^ 116 + kind % 2 * 2 ^ 124 + 2 ^ 125

/-- The insertion ends TABLE_FULL (R256). -/
def tableFull (s : State) : State := ntResult ((s.bump Reg.FWD_CNT_NT_INS_FAIL).raise 162) 3

/-- NT_INSERT_PRIMARY (R256, R258). -/
def ntInsertPrimary (s : State) (upset : List Nat) : State :=
  let key := ntKey s
  let s := ntUpset s (ntReads s key 0) upset
  match ntFind s key 0 with
  | some _ => ntResult s 2
  | none => match ntPlace s key 0 upset with
    | (none, s) => tableFull s
    | (some i, s) =>
      let s := ntWrite s i (entryBits key (s.get Reg.FWD_NT_ARG_CTX_ctx) ntNone 0xFF 0xFF 0 0)
      ntResult ((ntFill s true).set Reg.FWD_NT_IDX_idx i) 0

/-- NT_DELETE (R258). -/
def ntDelete (s : State) (kind : Nat) (upset : List Nat) : State :=
  let key := keyFor (ntKey s) kind
  let s := ntUpset (s.set Reg.FWD_NT_CMD_kind kind) (ntReads s key kind) upset
  match ntFind s key kind with
  | none => ntResult s 1
  | some i =>
    let p := nget s i Nt.parent
    let s := if isEntry p then ntUpset s [p] upset else s
    if nget s i Nt.refs ≠ 0 then ntResult s 4
    else if isEntry p && ntIsBad s p then ntResult s 7
    else
      let s := if isEntry p then addRefs s p false else s
      ntResult (ntFill (nset s i Nt.valid 0) false) 0

/-- The walk of a set parent command (R259): 0 no loop, 6 LOOP, 7 PARITY. -/
def parentWalk : Nat → State → Nat → Nat → Nat
  | 0, _, _, _ => 0
  | n + 1, s, cur, child =>
    if cur = child then 6
    else if !isEntry cur then 0
    else if ntIsBad s cur then 7
    else parentWalk n s (nget s cur Nt.parent) child

/-- The entries of a walk of up to `n` steps. -/
def walkEntries : Nat → State → Nat → List Nat
  | 0, _, _ => []
  | n + 1, s, cur => if isEntry cur then cur :: walkEntries n s (nget s cur Nt.parent) else []

/-- The parent that ARG names: none where it is not in the table. -/
def argParent (s : State) : Option Nat :=
  let a := ntArg s
  if a = 0 then some ntNone else if a = 2 ^ 64 - 1 then some ntSite else ntFind s a 0

/-- NT_SET_PARENT (R258, R259). -/
def ntSetParent (s : State) (upset : List Nat) : State :=
  let s := ntUpset s (ntReads s (ntKey s) 0 ++ ntReads s (ntArg s) 0) upset
  match ntFind s (ntKey s) 0, argParent s with
  | some i, some p =>
    let s := ntUpset s (walkEntries 24 s p) upset
    let old := nget s i Nt.parent
    let s := if isEntry old then ntUpset s [old] upset else s
    let w := parentWalk 24 s p i
    if isEntry p && p != old && nget s p Nt.refs == 255 then ntResult s 5
    else if w ≠ 0 then ntResult s w
    else if isEntry old && ntIsBad s old then ntResult s 7
    else
      let s := if isEntry old then addRefs s old false else s
      let s := if isEntry p then addRefs s p true else s
      ntResult (nset s i Nt.parent p) 0
  | _, _ => ntResult s 1

/-- NT_INSERT_ALIAS (R258). The primary's reference is taken first, so that the insertion does not move it. -/
def ntInsertAlias (s : State) (upset : List Nat) : State :=
  let key := keyFor (ntKey s) 1
  let s := ntUpset s (ntReads s key 1 ++ ntReads s (ntArg s) 0) upset
  match ntFind s key 1, ntFind s (ntArg s) 0 with
  | some _, _ => ntResult s 2
  | none, none => ntResult s 1
  | none, some p =>
    if nget s p Nt.refs = 255 then ntResult s 5
    else
      let s := addRefs s p true
      match ntPlace s key 1 upset with
      | (none, s) => tableFull (addRefs s p false)
      | (some i, s) =>
        let s := ntWrite s i (entryBits key (nget s p Nt.ctx) p 0 0 0 1)
        ntResult ((ntFill s true).set Reg.FWD_NT_IDX_idx i) 0

/-- NT_READ (R258): the entry at idx, valid or not. -/
def ntRead (s : State) (upset : List Nat) : State :=
  let i := s.get Reg.FWD_NT_IDX_idx
  let s := ntUpset s [i] upset
  ntResult (ntShow s i) (if ntIsBad s i then 7 else 0)

/-- NT_REPAIR (R258). -/
def ntRepair (s : State) (kind : Nat) (upset : List Nat) : State :=
  let i := s.get Reg.FWD_NT_IDX_idx
  let s := ntUpset (s.set Reg.FWD_NT_CMD_kind kind) (ntReads s (ntArg s) 0) upset
  let p := if kind = 1 then ntFind s (ntArg s) 0 else argParent s
  match p with
  | none => ntResult s 1
  | some p =>
    if !isEntry i then ntResult s 1
    else
      let was := nget s i Nt.valid == 1
      let far := if kind = 1 then 0 else 0xFF
      let e := entryBits (keyFor (ntKey s) kind) (s.get Reg.FWD_NT_ARG_CTX_ctx) p far far
        (s.get Reg.FWD_NT_ARG_CTX_refs) kind
      let s := ntWrite s i (putBits e Nt.ver.lo 2 (nget s i Nt.ver))
      let s := s.onFwd (fun f => { f with ntBad := f.ntBad.filter (· != i) })
      ntResult (if was then s else ntFill s true) 0

/-! ### The Prefix Table (R260, R261) -/

/-- The mask of a prefix length over [127:0]: leading ones. The first octet of an address is bits [127:120]. -/
def prefixMask (plen : Nat) : Nat := 2 ^ 128 - 2 ^ (128 - plen)

/-- An address of four registers, first octet in [7:0] of the first, as a number with its first octet on top. -/
def addrOf (w : Nat → Nat) : Nat := ofBe ((List.range 4).flatMap (fun m => leOctets 4 (w m)))

/-- The lookup key (R260). -/
def ptKeyOf (dst port dscp : Nat) : Nat := dst % 2 ^ 128 + port % 8 * 2 ^ 128 + dscp % 64 * 2 ^ 131

/-- An entry matches a key. -/
def ptMatches (e : PtEntry) (key : Nat) : Bool := !e.bad && (key ^^^ e.value) &&& e.mask == 0

/-- An entry comes before another: longer plen, then earlier insertion (R260). -/
def ptBefore (a b : PtEntry) : Bool := decide (b.plen < a.plen) || (a.plen == b.plen && decide (a.ord < b.ord))

/-- The first matching entry (R260). -/
def ptMatch (s : State) (key : Nat) : Option (Nat × PtEntry) :=
  s.fwd.pt.foldl (fun m e =>
    if !ptMatches e.2 key then m
    else match m with
      | none => some e
      | some b => if ptBefore e.2 b.2 then some e else m) none

/-- Entries of the Prefix Table that are read and that fail parity now: they never match again (R276). -/
def ptUpset (s : State) (reads : PtEntry → Bool) (upset : List Nat) : State :=
  (s.fwd.pt.filter (fun e => upset.contains e.1 && !e.2.bad && reads e.2)).foldl (fun s e =>
    fwdParity (s.onFwd (fun f => { f with pt := tabPut f.pt e.1 { e.2 with bad := true } })) 1 e.1 161) s

/-- A pipeline match; `upset` names entries that fail parity now: the lookup is a miss, and they never match again
(R276). -/
def ptLookup (s : State) (key : Nat) (upset : List Nat) : Option PtEntry × State :=
  if s.fwd.pt.any (fun e => upset.contains e.1 && !e.2.bad) then (none, ptUpset s (fun _ => true) upset)
  else ((ptMatch s key).map (·.2), s)

/-- A command of the Prefix Table ends. -/
def ptResult (s : State) (r : Nat) : State :=
  (s.set Reg.FWD_PT_CMD_result r).set Reg.FWD_PT_FILL_count s.fwd.pt.length

/-- The first free index from `i` up, in at most `n` tries. -/
def ptFree : Nat → Tab PtEntry → Nat → Option Nat
  | 0, _, _ => none
  | n + 1, t, i => if 4096 ≤ i then none else if (tabGet t i).isNone then some i else ptFree n t (i + 1)

/-- The groups of shorter prefixes move up by one place (R261): from the shortest up, each moves its first entry to
its end, until the place `pos` is free. `n` bounds the groups. -/
def ptShiftUp : Nat → Tab PtEntry → Nat → Nat → Tab PtEntry
  | 0, t, _, _ => t
  | n + 1, t, hole, pos =>
    if hole ≤ pos then t
    else match tabGet t (hole - 1) with
      | none => t
      | some e =>
        -- the first entry of the group that ends below the hole
        match t.find? (fun x => x.2.plen == e.plen && decide (pos ≤ x.1)) with
        | some (i, x) => ptShiftUp n (tabDel (tabPut t hole x) i) i pos
        | none => t

/-- The groups of longer prefixes move down by one place, each its last entry to its front, where only a place below
`pos` is free. -/
def ptShiftDown : Nat → Tab PtEntry → Nat → Nat → Tab PtEntry
  | 0, t, _, _ => t
  | n + 1, t, hole, pos =>
    if pos ≤ hole + 1 then t
    else match tabGet t (hole + 1) with
      | none => t
      | some e =>
        match (t.filter (fun x => x.2.plen == e.plen && decide (x.1 < pos))).getLast? with
        | some (i, x) => ptShiftDown n (tabDel (tabPut t hole x) i) i pos
        | none => t

/-- PT_INSERT (R261): it reads the entries among which it moves some. -/
def ptInsert (s : State) (plen : Nat) (upset : List Nat) : State :=
  let s := s.set Reg.FWD_PT_CMD_plen plen
  if 128 < plen then ptResult s 2
  else if 4096 ≤ s.fwd.pt.length then ptResult s 1
  else
    let pos := (s.fwd.pt.filter (fun e => decide (plen ≤ e.2.plen))).foldl (fun m e => max m (e.1 + 1)) 0
    let up := (ptFree 4097 s.fwd.pt pos).isSome
    let s := ptUpset s (fun e => decide (e.plen < plen) == up) upset
    let t := s.fwd.pt
    let (t, i) := match ptFree 4097 t pos with
      | some h => (ptShiftUp 130 t h pos, pos)
      | none =>
        let hole := ((List.range pos).filter (fun i => (tabGet t i).isNone)).getLast?.getD 0
        (ptShiftDown 130 t hole pos, pos - 1)
    let key := addrOf (fun m => s.get (Reg.FWD_PT_VAL_addr m))
    let e : PtEntry := {
      value := ptKeyOf key (s.get Reg.FWD_PT_CTL_port_v) (s.get Reg.FWD_PT_CTL_dscp_v)
      mask := prefixMask plen + s.get Reg.FWD_PT_CTL_port_m * 2 ^ 128 + s.get Reg.FWD_PT_CTL_dscp_m * 2 ^ 131
      plen := plen, ord := s.fwd.ptOrd, action := s.get Reg.FWD_PT_ACT_action, port := s.get Reg.FWD_PT_ACT_port
      svc := s.get Reg.FWD_PT_ACT_svc, sci := s.get Reg.FWD_PT_ACT_sci }
    ptResult ((s.onFwd (fun f => { f with pt := tabPut t i e, ptOrd := f.ptOrd + 1 })).set Reg.FWD_PT_CMD_index i) 0

/-- PT_DELETE (R261): the hole is filled with the last entry of its group, which is read. -/
def ptDelete (s : State) (i : Nat) (upset : List Nat) : State :=
  let s := s.set Reg.FWD_PT_CMD_index i
  match tabGet s.fwd.pt i with
  | none => ptResult s 3
  | some e =>
    let s := ptUpset s (fun x => x.plen == e.plen) upset
    let t := s.fwd.pt
    let last := (t.filter (fun x => x.2.plen == e.plen)).getLast?
    let t := match last with
      | some (j, x) => if j = i then tabDel t i else tabPut (tabDel t j) i x
      | none => tabDel t i
    ptResult (s.onFwd (fun f => { f with pt := t })) 0

/-- PT_READ: the entry at an index into the value, control and action registers. -/
def ptRead (s : State) (i : Nat) (upset : Bool) : State :=
  let s := s.set Reg.FWD_PT_CMD_index i
  match tabGet s.fwd.pt i with
  | none => ptResult s 3
  | some e =>
    let s := if upset && !e.bad then
        fwdParity (s.onFwd (fun f => { f with pt := tabPut f.pt i { e with bad := true } })) 1 i 161
      else s
    let v := beOctets 16 (e.value % 2 ^ 128)
    let s := (List.range 4).foldl (fun s m => s.set (Reg.FWD_PT_VAL_addr m) (ofLe (octetsAt v (4 * m) 4))) s
    let s := (s.set Reg.FWD_PT_CTL_port_v (e.value / 2 ^ 128)).set Reg.FWD_PT_CTL_dscp_v (e.value / 2 ^ 131)
    let s := (s.set Reg.FWD_PT_CTL_port_m (e.mask / 2 ^ 128)).set Reg.FWD_PT_CTL_dscp_m (e.mask / 2 ^ 131)
    let s := (s.set Reg.FWD_PT_ACT_action e.action).set Reg.FWD_PT_ACT_port e.port
    let s := ((s.set Reg.FWD_PT_ACT_svc e.svc).set Reg.FWD_PT_ACT_sci e.sci).set Reg.FWD_PT_CMD_plen e.plen
    ptResult s (if e.bad || upset then 4 else 0)

end Sys2Proof.Machine
end

