-- ==== Sys2Proof/Machine/RxOps.lean ====
section
/-! DEFINITION. What the commands of the receivers do (chapter 03, R73-R87), and the gain ceiling's hold on them
(R109, R110). -/

namespace Sys2Proof.Machine

def State.onRx (s : State) (b : Nat) (f : Rx → Rx) : State := s.setRx b (f (s.rxOf b))

/-- The RF/analog die is powered: RUN (R430). -/
def rfPowered (s : State) : Bool := s.get Reg.PWR_STATUS_state == 0

def gainIdx (s : State) (b : Nat) : Nat := s.get (Reg.RFX_STATUS_gain_idx b)

/-- The measured gain change in 0.01 dB from index `g` to index `h` (R75, R78); 300 where no step was measured. -/
def gainChange (s : State) (b g h : Nat) : Int :=
  let step := fun i => (s.rxOf b).steps.getD i 300
  if g ≤ h then ((List.range (h - g)).map (fun i => step (g + i))).foldl (· + ·) 0
  else -(((List.range (g - h)).map (fun i => step (h + i))).foldl (· + ·) 0)

/-- One step of the analog gain to index `h`, with its marker (R78). -/
def gainTo (s : State) (b h : Nat) : State :=
  let g := gainIdx s b
  if g = h then s
  else
    let change := gainChange s b g h
    laneMarker (s.set (Reg.RFX_STATUS_gain_idx b) h) b change

/-! ### Image rejection -/

/-- ir_worst, ir_seg and ir_ok from the 16 estimates; EV066 or EV067 on a fall below 60 dB (R85). -/
def irRefresh (s : State) (b : Nat) (ir : List Nat) : State :=
  let old := s.get (Reg.RFX_IR_STAT_ir_worst b)
  let had := !(s.rxOf b).ir.isEmpty
  let worst := (ir.zipIdx).foldl (fun (m : Nat × Nat) e => if e.1 < m.1 then e else m) (255, 0)
  let s := (s.set (Reg.RFX_IR_STAT_ir_worst b) worst.1).set (Reg.RFX_IR_STAT_ir_seg b) worst.2
  let s := s.onRx b (fun r => { r with ir := ir })
  let s := s.setb (Reg.RFX_STATUS_ir_ok b) (rxRunning s b && decide (60 ≤ worst.1))
  if had && decide (60 ≤ old ∧ worst.1 < 60) then s.raise (66 + b) else s

/-! ### Calibration and enable -/

/-- RX_STARTCAL (R87): enable must be 0. One written during STARTCAL starts the set, and its time, again: DESIGN CHOICE (log
313). -/
def rxStartcal (s : State) (b : Nat) : State :=
  if s.on (Reg.RFX_CTRL_enable b) || !rfPowered s then s
  else
    let s := (s.set (Reg.RFX_STATUS_cal_done b) 0).set (Reg.RFX_STATUS_state b) 1
    s.onRx b (fun r => { r with calEnd := some (s.ltb + (if b = 0 then 12000000 else 14000000)) })

/-- RX_STARTCAL_DONE (R83, R87). -/
def rxStartcalDone (s : State) (b : Nat) (ir : List Nat) (steps : List Int) : State :=
  match (s.rxOf b).calEnd with
  | some e =>
    if s.ltb < e then s
    else
      let s := (s.set (Reg.RFX_STATUS_cal_done b) 1).set (Reg.RFX_STATUS_state b) 0
      let s := s.onRx b (fun r => { r with calEnd := none, steps := steps, tuneTemp := r.temp })
      (irRefresh s b (ir.take 16)).raise (64 + b)
  | none => s

/-- The gain fields that take effect at the next gain epoch (R9, R76, R81). -/
def gainFields (b : Nat) : List Fld := [Reg.RFX_CTRL_gain_manual b, Reg.RFX_GAIN_CFG_epoch_us b, Reg.RFX_GAIN_CFG_hi_thr b,
  Reg.RFX_GAIN_CFG_lo_thr b, Reg.RFX_GAIN_CFG2_up_epochs b, Reg.RFX_GAIN_CFG2_hold_epochs b, Reg.RFX_GAIN_CFG2_gain_man b]

/-- A transmit ceiling is in force in the band (R109). -/
def ceiled (s : State) (b : Nat) : Bool := !(s.rxOf b).ceil.isEmpty

/-- A chain of the band is between its transmit step and its release (R107, R110). -/
def leaking (s : State) (b : Nat) : Bool := (s.rxOf b).ceil.any (fun e => (s.sicTxOf e.1).stepped)

/-- The gain that the receiver would hold without any ceiling (R109). -/
def gainBase (s : State) (b : Nat) : Nat := if ceiled s b then (s.rxOf b).gPre else gainIdx s b

/-- A scheduled move of the gain to index `target`, counted where it moves; under a ceiling it moves g_pre and takes the live
gain no higher (R76, R81, R110). -/
def scheduledMove (s : State) (b : Nat) (target : Nat) : State :=
  if target = gainBase s b then s
  else
    let s := if ceiled s b then gainTo (s.onRx b (fun r => { r with gPre := target })) b (min (gainIdx s b) target)
      else gainTo s b target
    s.bump (Reg.RFX_CNT_STEP_SCHED b)

/-- RX_ENABLE (R19, R73, R76, R87): what the registers hold is in force (R9), and the first gain epoch starts; in manual mode
with a move to gain_man (R81). -/
def rxEnable (s : State) (b : Nat) : State :=
  if s.on (Reg.RFX_CTRL_enable b) || rxState s b != 0 || !s.on (Reg.RFX_STATUS_cal_done b) ||
      s.on (Reg.RFX_STATUS_region_block b) || !rfPowered s then s
  else
    let s := (s.set (Reg.RFX_CTRL_enable b) 1).set (Reg.RFX_STATUS_state b) 2
    let s := s.onRx b (fun r => { r with
      epochStart := s.ltb, lowEpochs := 0, sinceUnsched := 255, unschedNow := false, unschedNext := false
      ceilNow := ceiled s b, leakAll := leaking s b, lastUnsched := none, episode := false, stepDue := false
      irAt := s.ltb, heard := List.replicate 16 s.ltb, gPre := if ceiled s b then r.gPre else gainIdx s b })
    let s := s.takeEffect (gainFields b)
    let s := if s.on (Reg.RFX_CTRL_gain_manual b) then scheduledMove s b (s.get (Reg.RFX_GAIN_CFG2_gain_man b)) else s
    let worst := s.get (Reg.RFX_IR_STAT_ir_worst b)
    s.setb (Reg.RFX_STATUS_ir_ok b) (decide (60 ≤ worst))

/-- RX_DISABLE (R85, R131): OFF; lanes of the band drop their frames. -/
def rxDisable (s : State) (b : Nat) : State :=
  if !s.on (Reg.RFX_CTRL_enable b) then s
  else
    let s := ((s.set (Reg.RFX_CTRL_enable b) 0).set (Reg.RFX_STATUS_state b) 0).set (Reg.RFX_STATUS_ir_ok b) 0
    let s := s.set (Reg.RFX_STATUS_compat_cal_pending b) 0
    bandDrop (s.onRx b (fun r => { r with blankEnd := none, stepDue := false })) b

/-! ### Gain -/

/-- The band is subject to a coexistence grant that is high (R102). -/
def coexHolds (s : State) (b : Nat) : Bool :=
  s.on Reg.TXC_COEX_STAT_grant && bits (s.get Reg.TXC_COEX_CTRL_band) b 1 == 1

/-- The scheduled step at an epoch's end (R76, R80, R102, R110): −1, 0 or +1. `p` in 0.1 dBFS. -/
def scheduledStep (s : State) (b : Nat) (p : Option Int) (low : Nat) : Int :=
  let r := s.rxOf b
  let hi : Int := (s.cur (Reg.RFX_GAIN_CFG_hi_thr b) : Int) * 10
  let g := gainIdx s b
  match p with
  | none => 0
  | some p =>
    if r.unschedNext then 0
    else if -hi < p ∧ 0 < g then -1
    else if atLeast1 (s.cur (Reg.RFX_GAIN_CFG2_up_epochs b)) ≤ low ∧ ¬ r.unschedNow ∧
        s.cur (Reg.RFX_GAIN_CFG2_hold_epochs b) ≤ r.sinceUnsched + 1 ∧ p + 30 < -hi ∧ g < 20 ∧
        ¬ r.ceilNow ∧ ¬ coexHolds s b then 1
    else 0

/-- The receiver was in BLANK since the epoch's start (R76). -/
def blankAll (s : State) (b : Nat) : Bool :=
  match (s.rxOf b).blankEnd with
  | some e => rxState s b == 3 && decide (e ≤ (s.rxOf b).epochStart + 4000000)
  | none => false

/-- GAIN_EPOCH_END (R76, R80, R81, R110): an epoch wholly in BLANK or between a transmit step and the last release has no p. -/
def gainEpochEnd (s : State) (b : Nat) (p : Option Int) : State :=
  let r := s.rxOf b
  let len := s.cur (Reg.RFX_GAIN_CFG_epoch_us b) * 1000
  if !rxRunning s b || decide (s.ltb < r.epochStart + len) then s
  else
    let p := if r.leakAll || blankAll s b then none else p
    let lo : Int := (s.cur (Reg.RFX_GAIN_CFG_lo_thr b) : Int) * 10
    let low := match p with
      | some p => if p < -lo then r.lowEpochs + 1 else 0
      | none => r.lowEpochs
    let step := scheduledStep s b p low
    let wasManual := s.cur (Reg.RFX_CTRL_gain_manual b) != 0
    let s := s.takeEffect (gainFields b)
    let base := gainBase s b
    let s := scheduledMove s b (if s.on (Reg.RFX_CTRL_gain_manual b) then s.get (Reg.RFX_GAIN_CFG2_gain_man b)
      else if wasManual then base
      else ((base : Int) + step).toNat)
    s.onRx b (fun r => { r with
      epochStart := r.epochStart + len, lowEpochs := low
      sinceUnsched := if r.unschedNow then 0 else min 255 (r.sinceUnsched + 1)
      unschedNow := r.unschedNext, unschedNext := false, ceilNow := ceiled s b, leakAll := leaking s b })

/-- ADC_OVERLOAD (R77, R81): declared once per step, or once per episode where no step follows. In BLANK none is declared:
DESIGN CHOICE (log 314). -/
def adcOverload (s : State) (b clipped : Nat) (fresh : Bool) : State :=
  let r := s.rxOf b
  if rxState s b ≠ 2 ∨ clipped < atLeast1 (s.get (Reg.RFX_GAIN_CFG2_ovl_count b)) then s
  else if s.cur (Reg.RFX_CTRL_gain_manual b) = 0 ∧ 0 < gainIdx s b then
    if r.stepDue then s
    else (s.bump (Reg.RFX_CNT_OVL b)).onRx b (fun r => { r with stepDue := true, episode := false })
  else if r.episode && !fresh then s
  else
    let s := (s.bump (Reg.RFX_CNT_OVL b)).onRx b (fun r => { r with episode := true })
    if gainIdx s b = 0 then (s.bump (Reg.RFX_CNT_OVL_FLOOR b)).raise (68 + b) else s

/-- UNSCHEDULED_STEP (R77, R80, R81, R110): at least 1 µs after the previous one. Where manual gain has taken effect since
the overload was declared, no step follows. Where another step took g to 0 since then, an unscheduled step of no index is
counted, with no marker and no OVL_FLOOR: DESIGN CHOICE (log 48). -/
def unscheduledStep (s : State) (b : Nat) : State :=
  let r := s.rxOf b
  let spaced := match r.lastUnsched with
    | some l => decide (l + 1000 ≤ s.ltb)
    | none => true
  if !r.stepDue || !spaced then s
  else if s.cur (Reg.RFX_CTRL_gain_manual b) ≠ 0 then s.onRx b (fun r => { r with stepDue := false, episode := true })
  else
    let first := decide (r.epochStart + s.cur (Reg.RFX_GAIN_CFG_epoch_us b) * 1000 ≤ s.ltb)
    let g := gainIdx s b
    let d := min g (atLeast1 (s.get (Reg.RFX_GAIN_CFG2_ovl_step b)))
    let s := s.onRx b (fun r => { r with
      stepDue := false, lastUnsched := some s.ltb
      unschedNow := r.unschedNow || !first, unschedNext := r.unschedNext || first
      gPre := if r.ceil.isEmpty then r.gPre else r.gPre - d })
    (gainTo s b (g - d)).bump (Reg.RFX_CNT_STEP_UNSCHED b)

/-! ### Compatibility mode and tracking -/

/-- CAL_REQ (R86): compatibility mode only. In a receiver that is not enabled it is ignored: DESIGN CHOICE (log 315). -/
def calReq (s : State) (b : Nat) : State :=
  if s.on (Reg.RFX_CTRL_cal_mode b) && s.on (Reg.RFX_CTRL_enable b) then
    s.set (Reg.RFX_STATUS_compat_cal_pending b) 1
  else s

/-- A chain is in SETTLE, PREP, TX or RAMPDN. -/
def chainBusy (s : State) (n : Nat) : Bool :=
  let st := s.get (Reg.TXC_STATUS_state n)
  decide (3 ≤ st ∧ st ≤ 6)

/-- COMPAT_CAL_START (R86, R131). -/
def compatCalStart (s : State) (b : Nat) : State :=
  if !s.on (Reg.RFX_STATUS_compat_cal_pending b) || rxState s b != 2 || (bandChains b).any (chainBusy s) then s
  else
    let n := ((bandLanes s b).filter (laneMid s)).length
    let s := (s.set (Reg.RFX_STATUS_compat_cal_pending b) 0).set (Reg.RFX_STATUS_state b) 3
    let s := s.onRx b (fun r => { r with blankEnd := some (s.ltb + 4000000) })
    bandDrop (s.bumpBy (Reg.RFX_CNT_BLANK_ABORT b) n) b

/-- BLANK_END (R83, R86). -/
def blankEnd (s : State) (b : Nat) (ir : List Nat) : State :=
  match (s.rxOf b).blankEnd with
  | some e =>
    if s.ltb < e ∨ rxState s b ≠ 3 then s
    else
      let s := (s.set (Reg.RFX_STATUS_state b) 2).onRx b (fun r => { r with blankEnd := none, tuneTemp := r.temp })
      irRefresh s b (ir.take 16)
  | none => s

/-- The receiver tracks natively: cal_mode 0 and RUN (R83). -/
def rxNative (s : State) (b : Nat) : Bool := !s.on (Reg.RFX_CTRL_cal_mode b) && rxState s b == 2

/-- IR_UPDATE (R83, R85): every ir_period the pairs that carried a signal take their new estimate. -/
def irUpdate (s : State) (b : Nat) (ir : List (Option Nat)) : State :=
  let r := s.rxOf b
  if !rxNative s b || decide (s.ltb < r.irAt + atLeast1 (s.get (Reg.RFX_CAL_CFG_ir_period b)) * 1000000) then s
  else
    let new := (List.range 16).map (fun i => ((ir.getD i none).getD (r.ir.getD i 255)))
    let heard := (List.range 16).map (fun i => if (ir.getD i none).isSome then s.ltb else r.heard.getD i 0)
    irRefresh (s.onRx b (fun r => { r with irAt := s.ltb, heard := heard })) b new

/-- STALE_SEGMENT_TONE (R84, R85): the 2 ms measurement of a pair that has carried no signal for ir_stale ends. The pair is
not due again before another ir_stale: DESIGN CHOICE (log 49). -/
def staleSegmentTone (s : State) (b pair ir : Nat) : State :=
  let r := s.rxOf b
  if !rxNative s b || decide (s.ltb < r.heard.getD pair 0 + s.get (Reg.RFX_CAL_CFG_ir_stale b) * 1000000000 + 2000000) then s
  else
    let heard := (List.range 16).map (fun i => if i = pair then s.ltb else r.heard.getD i 0)
    irRefresh (s.onRx b (fun r => { r with heard := heard })) b
      ((List.range 16).map (fun i => if i = pair then ir else r.ir.getD i 255))

/-- FILTER_RETUNE (R83): the die temperature has moved by temp_delta since the last tuning. -/
def filterRetune (s : State) (b : Nat) (temp : Int) : State :=
  let s := (s.sset (Reg.RFX_IR_STAT_temp b) temp).onRx b (fun r => { r with temp := temp })
  if rxNative s b ∧ s.get (Reg.RFX_CAL_CFG_temp_delta b) * 10 ≤ (temp - (s.rxOf b).tuneTemp).natAbs then
    s.onRx b (fun r => { r with tuneTemp := temp })
  else s

end Sys2Proof.Machine
end

