-- ==== Sys2Proof/Machine/TxOps.lean ====
section
/-! DEFINITION. What the commands of the transmit chains, the coexistence interface and the self-interference
canceller do (chapters 03 and 04). -/

namespace Sys2Proof.Machine

/-! ### The isolation budget (R109) -/

/-! 10^(i/200) scaled by 10¹², rounded down, for i = 0..199. -/
def pow10Tab0 : List Nat := [
  1000000000000, 1011579454259, 1023292992280, 1035142166679, 1047128548050, 1059253725177, 1071519305237, 1083926914021,
  1096478196143, 1109174815262, 1122018454301, 1135010815672, 1148153621496, 1161448613840, 1174897554939, 1188502227437,
  1202264434617, 1216186000646, 1230268770812, 1244514611771, 1258925411794, 1273503081016, 1288249551693, 1303166778452,
  1318256738556, 1333521432163, 1348962882591, 1364583136588, 1380384264602, 1396368361055, 1412537544622, 1428893958511,
  1445439770745, 1462177174456, 1479108388168, 1496235656094, 1513561248436, 1531087461682, 1548816618912, 1566751070108]
def pow10Tab1 : List Nat := [
  1584893192461, 1603245390690, 1621810097358, 1640589773199, 1659586907437, 1678804018122, 1698243652461, 1717908387157,
  1737800828749, 1757923613958, 1778279410038, 1798870915128, 1819700858609, 1840772001468, 1862087136662, 1883649089489,
  1905460717963, 1927524913190, 1949844599758, 1972422736114, 1995262314968, 2018366363681, 2041737944669, 2065380155810,
  2089296130854, 2113489039836, 2137962089502, 2162718523727, 2187761623949, 2213094709605, 2238721138568, 2264644307593,
  2290867652767, 2317394649968, 2344228815319, 2371373705661, 2398832919019, 2426610095082, 2454708915685, 2483133105295]
def pow10Tab2 : List Nat := [
  2511886431509, 2540972705549, 2570395782768, 2600159563165, 2630267991895, 2660725059798, 2691534803926, 2722701308077,
  2754228703338, 2786121168629, 2818382931264, 2851018267503, 2884031503126, 2917427014001, 2951209226666, 2985382618917,
  3019951720402, 3054921113215, 3090295432513, 3126079367123, 3162277660168, 3198895109691, 3235936569296, 3273406948788,
  3311311214825, 3349654391578, 3388441561392, 3427677865464, 3467368504525, 3507518739525, 3548133892335, 3589219346450,
  3630780547701, 3672823004980, 3715352290971, 3758374042884, 3801893963205, 3845917820453, 3890451449942, 3935500754557]
def pow10Tab3 : List Nat := [
  3981071705534, 4027170343254, 4073802778041, 4120975190973, 4168693834703, 4216965034285, 4265795188015, 4315190768277,
  4365158322401, 4415704473533, 4466835921509, 4518559443749, 4570881896148, 4623810213992, 4677351412871, 4731512589614,
  4786300923226, 4841723675840, 4897788193684, 4954501908047, 5011872336272, 5069907082747, 5128613839913, 5188000389289,
  5248074602497, 5308844442309, 5370317963702, 5432503314924, 5495408738576, 5559042572704, 5623413251903, 5688529308438,
  5754399373371, 5821032177708, 5888436553555, 5956621435290, 6025595860743, 6095368972401, 6165950018614, 6237348354824]
def pow10Tab4 : List Nat := [
  6309573444801, 6382634861905, 6456542290346, 6531305526474, 6606934480075, 6683439175686, 6760829753919, 6839116472814,
  6918309709189, 6998419960022, 7079457843841, 7161434102129, 7244359600749, 7328245331389, 7413102413009, 7498942093324,
  7585775750291, 7673614893618, 7762471166286, 7852356346100, 7943282347242, 8035261221856, 8128305161640, 8222426499470,
  8317637711026, 8413951416451, 8511380382023, 8609937521846, 8709635899560, 8810488730080, 8912509381337, 9015711376059,
  9120108393559, 9225714271547, 9332543007969, 9440608762859, 9549925860214, 9660508789898, 9772372209558, 9885530946569]
def pow10Tab : List Nat := pow10Tab0 ++ pow10Tab1 ++ pow10Tab2 ++ pow10Tab3 ++ pow10Tab4

/-- A level of `x` (0.05 dBm) as a power in fixed point: 10^(x/200) × 10^52; 0 below −400 dBm. -/
def milliwatt (x : Int) : Nat :=
  let y := x + 8000
  if y < 0 then 0 else pow10Tab.getD (y.toNat % 200) 0 * 10 ^ (y.toNat / 200)

/-- The power of several levels together, in 0.1 dBm, rounded down (R109): between the largest and 6 dB above. -/
def sumLevel (xs : List Int) : Int :=
  match xs with
  | [] => -4000
  | [x] => x / 2
  | x :: r =>
    let top := r.foldl max x
    let sum := (xs.map milliwatt).foldl (· + ·) 0
    let base := top / 2
    base + ((List.range 61).filter (fun (i : Nat) => decide (0 < i ∧ milliwatt (2 * (base + (i : Int))) ≤ sum))).length

/-- The states of R90. -/
def chOFF : Nat := 0
def chSTARTCAL : Nat := 1
def chIDLE : Nat := 2
def chSETTLE : Nat := 3
def chPREP : Nat := 4
def chTX : Nat := 5
def chRAMPDN : Nat := 6
def chONCAL : Nat := 7

def chainState (s : State) (n : Nat) : Nat := s.get (Reg.TXC_STATUS_state n)
def setChainState (s : State) (n st : Nat) : State := s.set (Reg.TXC_STATUS_state n) st
def State.onChain (s : State) (n : Nat) (f : Chain → Chain) : State := s.setChain n (f (s.chainOf n))

/-- The cache slot that holds a frequency: the lowest where several do. DESIGN CHOICE (log 305). -/
def slotOf (s : State) (n freq : Nat) : Option Nat :=
  ((s.chainOf n).slots.find? (fun e => e.2.freq == freq)).map (·.1)

/-- The chain's frequency range in kHz (R73). -/
def chainRange (s : State) (n : Nat) : Option (Nat × Nat) :=
  if 2 ≤ n then some (2400000, 2483500)
  else match s.straps.region.toNat with
    | 0 => some (863000, 876000)
    | 1 => some (902000, 928000)
    | _ => none

def inChainRange (s : State) (n freq : Nat) : Bool :=
  match chainRange s n with
  | some (lo, hi) => decide (lo ≤ freq ∧ freq ≤ hi)
  | none => false

/-- cache_count follows the slots. -/
def cacheCount (s : State) (n : Nat) : State :=
  s.set (Reg.TXC_STATUS_cache_count n) (s.chainOf n).slots.length

/-! ### SIC: ceiling, arming, write-back -/

def sicEna (s : State) (b : Nat) : Bool := if b = 0 then s.on Reg.SIC_CTRL_ena_a else s.on Reg.SIC_CTRL_ena_b
def gTxField (b : Nat) : Fld := if b = 0 then Reg.SIC_STATUS_g_tx_a else Reg.SIC_STATUS_g_tx_b

/-- p − iso of a chain's active slot, in 0.05 dBm (R109, R116). -/
def leakIn (s : State) (n : Nat) : Int :=
  let c := s.chainOf n
  c.powerQ * 5 - ((s.sicEntry n c.slot).iso.getD 40 : Int) * 20

/-- The predicted residual of a chain, in 0.05 dBm (R109). -/
def residual (s : State) (n : Nat) : Int :=
  let e := s.sicEntry n (s.chainOf n).slot
  leakIn s n - (if e.trained then 25 else if e.seeded then 15 else 0) * 20

/-- The ceiling for these chains (R109). -/
def ceiling (s : State) (chains : List Nat) : Nat :=
  let sum := (chains.map (fun n => milliwatt (residual s n))).foldl (· + ·) 0
  let head : Int := s.cur Reg.SIC_CFG_tx_headroom
  let fits := (List.range 21).filter (fun (g : Nat) => decide (sum ≤ milliwatt ((-12 - head - 3 * (g : Int)) * 20)))
  fits.length - 1

/-- The chains of a band in PREP, TX or RAMPDN. -/
def transmitting (s : State) (b : Nat) : List Nat :=
  (bandChains b).filter (fun n => decide (4 ≤ chainState s n ∧ chainState s n ≤ 6))

/-- These ceilings stay, and these chains go on transmitting: the ceiling in force is recomputed over them, and the receiver
steps up to what it allows (R109). -/
def ceilKeep (s : State) (b : Nat) (left : Tab Nat) (chains : List Nat) : State :=
  if !ceiled s b then s
  else
    let s := s.onRx b (fun r => { r with ceil := left })
    let s := s.onRx b (fun r => { r with leakAll := r.leakAll && leaking s b })
    let new := if left.isEmpty then 20
      else if left.any (fun e => (s.sicTxOf e.1).budget) then 0
      else ceiling s chains
    let s := s.set (gTxField b) new
    let g := min (s.rxOf b).gPre new
    if gainIdx s b < g then gainTo s b g else s

/-- The release of a chain's ceiling (R109): recomputed without that chain. -/
def sicRelease (s : State) (n : Nat) : State :=
  let b := chainBand n
  ceilKeep s b (tabDel (s.rxOf b).ceil n) ((transmitting s b).filter (· != n))

/-- TRANSMIT_STEP (R109-R111): 2 µs before the ramp begins, the receiver steps down to the ceiling in force. -/
def transmitStep (s : State) (n : Nat) : State :=
  let c := s.chainOf n
  let b := chainBand n
  match c.active with
  | none => s
  | some cmd =>
    let ramp := cmd.start.getD 0 - (c.rampUs + 4) * 1000
    if chainState s n ≠ chPREP ∨ s.ltb < ramp ∨ (tabGet (s.rxOf b).ceil n).isNone ∨ (s.sicTxOf n).stepped then s
    else
      let s := s.setSicTx n { s.sicTxOf n with stepped := true }
      let g := s.get (gTxField b)
      if g < gainIdx s b then (gainTo s b g).bump (Reg.SIC_CNT_TX_STEP n) else s

/-- The lanes on a chain's channel (R119): of its band, within 10 kHz, and enabled. DESIGN CHOICE (log 308): R119 speaks of a
lane's assigned centre; one that is assigned and not enabled sees nothing. -/
def lanesOnChannel (s : State) (n freq : Nat) : List Nat :=
  (s.lanes.filter (fun e => s.on (Reg.CHZ_LANE_CTRL_enable e.1) && match e.2.assign with
    | some a => a.band == chainBand n && decide (absDiff a.freq freq ≤ 10)
    | none => false)).map (·.1)

/-- The working coefficients a transmission starts from (R112): its own slot's, or those of the nearest trained
slot of the chain within 2 MHz, or zero. Of two equally near the lowest slot seeds it: DESIGN CHOICE (log 306). -/
def sicSeed (s : State) (n slot freq : Nat) : State :=
  let e := s.sicEntry n slot
  if e.trained then s.setSicTx n { taps := e.taps, coefs := e.coefs }
  else
    let near := ((s.chainOf n).slots.filter (fun x => x.1 != slot && (s.sicEntry n x.1).trained &&
      decide (absDiff x.2.freq freq ≤ 2000))).foldl
        (fun (m : Option (Nat × Nat)) x => match m with
          | some y => if absDiff x.2.freq freq < absDiff y.2 freq then some (x.1, x.2.freq) else m
          | none => some (x.1, x.2.freq)) none
    match near with
    | some (k, _) =>
      let t := s.sicEntry n k
      (s.setSicEntry n slot { e with seeded := true }).setSicTx n { taps := t.taps, coefs := t.coefs }
    | none => (s.setSicEntry n slot { e with seeded := false }).setSicTx n {}

/-- PREP (R109, R111, R112, R116, R119): the settings of the next PREP take effect; the SIC predicts the residual of the band's
chains, which sets the collision threshold and, with ceiling_en, the ceiling of the transmission: 0 where the canceller is
outside its input range. The dig_depth of the threshold is the slot's stored one: DESIGN CHOICE (log 309). -/
def sicPrep (s : State) (n freq : Nat) : State :=
  let c := s.chainOf n
  let b := chainBand n
  let s := (sicSeed s n c.slot freq).takeEffect [Reg.SIC_CTRL_ceiling_en, Reg.SIC_CFG_tx_headroom]
  let chains := transmitting s b
  let r := sumLevel (chains.map (residual s))
  let s := s.sset (Reg.SIC_CD_EFF_cd_thr_eff n)
    (max (signed 12 (s.cur (Reg.SIC_CD_CFG_cd_thr n))) (r - ((s.sicEntry n c.slot).dig : Int) * 10 + 210))
  if !sicEna s b then s
  else
    let budget := decide (-200 < leakIn s n)
    let ceil := s.on Reg.SIC_CTRL_ceiling_en
    let s := s.setSicTx n { s.sicTxOf n with budget := budget, ceil := ceil }
    let s := if budget then
        (s.set (if b = 0 then Reg.SIC_STATUS_budget_exceeded_a else Reg.SIC_STATUS_budget_exceeded_b) 1).raise
          78 n c.slot
      else s
    if !ceil then s
    else
      let g := if budget then 0 else ceiling s chains
      let force := if (s.rxOf b).ceil.any (fun e => (s.sicTxOf e.1).budget) then 0 else g
      (s.onRx b (fun r => { r with
        gPre := gainBase s b, ceil := tabPut r.ceil n g, ceilNow := true })).set (gTxField b) force

/-- Collision detection is armed or not at the first symbol (R111, R119, R122). -/
def sicArm (s : State) (n freq : Nat) : State :=
  let lanes := lanesOnChannel s n freq
  let x := s.sicTxOf n
  let s := s.bumpBy (Reg.SIC_CNT_TX_OVER_RX n) (lanes.filter (laneMid s)).length
  let armed := sicEna s (chainBand n) && s.cur Reg.SIC_CTRL_cd_en != 0 && x.ceil &&
    (s.sicEntry n (s.chainOf n).slot).trained && !x.budget && !lanes.isEmpty
  let s := s.setSicTx n { x with armed := armed }
  if lanes.isEmpty then s.bump (Reg.SIC_CNT_CD_UNCOVERED n)
  else if armed then s else s.bump (Reg.SIC_CNT_CD_UNARMED n)

/-- SIC settings that take effect at the next transmission do so at its start (R9). -/
def sicNextTx (s : State) (n : Nat) : State :=
  s.takeEffect [Reg.SIC_CTRL_adapt_en, Reg.SIC_CTRL_cd_en, Reg.SIC_CFG_ana_min, Reg.SIC_CFG_dig_min,
    Reg.SIC_CFG_retrain_count, Reg.SIC_CFG_leak_jump, Reg.SIC_CD_CFG_cd_abort_mask n, Reg.SIC_CD_CFG_cd_mode n,
    Reg.SIC_CD_CFG_cd_window n, Reg.SIC_CD_CFG_cd_thr n]

/-- What a transmission leaves in its slot's entry (R113-R115). The 200 µs of R114 are counted from ramp completion, as the
50 µs of R113 are: DESIGN CHOICE (log 310). -/
def sicWriteback (s : State) (n : Nat) (m : TxMeas) : State :=
  let c := s.chainOf n
  let b := chainBand n
  let slot := c.slot
  let e := s.sicEntry n slot
  let x := s.sicTxOf n
  let s := (((s.set (Reg.SIC_ISO_MEAS_iso_meas n) m.iso).set (Reg.SIC_ISO_MEAS_ana_depth n) m.ana).set
    (Reg.SIC_ISO_MEAS_dig_depth n) m.dig).set (Reg.SIC_ISO_MEAS_slot n) slot
  if !sicEna s b then s
  else
    let dur := c.lastLtb.getD 0 + 2000 - c.firstLtb.getD 0
    let wb := !x.frozen && decide (50000 ≤ dur)
    let anaMin := s.cur Reg.SIC_CFG_ana_min
    let digMin := s.cur Reg.SIC_CFG_dig_min
    let good := decide (anaMin ≤ m.ana ∧ digMin ≤ m.dig)
    let jump := match e.iso with
      | some i => decide (atLeast1 (s.cur Reg.SIC_CFG_leak_jump) ≤ absDiff i m.iso)
      | none => false
    let below := if e.trained && !good then e.below + 1 else 0
    let retrain := e.trained && decide (atLeast1 (s.cur Reg.SIC_CFG_retrain_count) ≤ below)
    let trains := !e.trained && wb && good && decide (200000 ≤ dur)
    let trained := ((e.trained && !retrain) || trains) && !jump
    let s := s.setSicEntry n slot { e with
      taps := if wb then x.taps else e.taps
      coefs := if wb then x.coefs else e.coefs
      ana := if wb then m.ana else e.ana
      dig := if wb then m.dig else e.dig
      iso := some m.iso, trained := trained, seeded := e.seeded && !trained
      below := if retrain || jump then 0 else below }
    let s := if retrain then (s.bump (Reg.SIC_CNT_RETRAIN n)).raise 76 n slot else s
    if jump then (s.bump (Reg.SIC_CNT_LEAK_JUMP n)).raise 77 n slot (e.iso.getD 0 % 256 + 256 * (m.iso % 256))
    else s

/-- Clears a slot's entry (R112). -/
def sicClear (s : State) (n slot : Nat) : State :=
  { s with sic := { s.sic with entries := tabDel s.sic.entries (n * 256 + slot) } }

/-- SIC_CLEAR_ENTRY (R112): the clear of the active slot waits for RAMPDN. In SETTLE, where the transmission has not begun,
it acts at once: DESIGN CHOICE (log 311). -/
def sicClearEntry (s : State) (n slot : Nat) : State :=
  let s' := s.set (Reg.SIC_SLOT_CMD_slot n) slot
  if s.on (Reg.SIC_SLOT_CMD_busy n) then s
  else if decide (4 ≤ chainState s n ∧ chainState s n ≤ 6) && (s.chainOf n).slot == slot then
    (s'.set (Reg.SIC_SLOT_CMD_busy n) 1).setSicTx n (s.sicTxOf n) |>
      fun s => { s with sic := { s.sic with clear := tabPut s.sic.clear n slot } }
  else sicClear s' n slot

/-- SIC_READ_ENTRY (R112). -/
def sicReadEntry (s : State) (n slot : Nat) : State :=
  if s.on (Reg.SIC_SLOT_CMD_busy n) then s
  else
    let e := s.sicEntry n slot
    let s := (s.set (Reg.SIC_SLOT_CMD_slot n) slot).setb (Reg.SIC_SLOT_RD_trained n) e.trained
    let s := (s.setb (Reg.SIC_SLOT_RD_seeded n) e.seeded).set (Reg.SIC_SLOT_RD_ana_depth n) e.ana
    (s.set (Reg.SIC_SLOT_RD_dig_depth n) e.dig).set (Reg.SIC_SLOT_RD_iso n) (e.iso.getD 0)

/-- The SIC's enables (R19, R124): chains and receiver of the band enabled; 0 releases a ceiling at once and disarms
collision detection. -/
def sicSetEna (s : State) (b : Nat) (on : Bool) : State :=
  let f := if b = 0 then Reg.SIC_CTRL_ena_a else Reg.SIC_CTRL_ena_b
  if on then
    if s.on (Reg.RFX_CTRL_enable b) && (bandChains b).all (fun n => s.on (Reg.TXC_CTRL_enable n)) then s.set f 1
    else s
  else
    let s := (bandChains b).foldl (fun s n => s.setSicTx n { s.sicTxOf n with armed := false }) (s.set f 0)
    ceilKeep s b [] []

/-! ### Commands of a chain -/

/-- A command ends with a result (R89); its issuer is told after the step. -/
def endCmd (s : State) (n : Nat) (cmd : TxCmd) (status : Nat) (first : Option Nat) (airUs : Nat := 0) (angle : Nat := 0)
    (upset : List Nat := []) : State :=
  let s := match status with
    | 0 => s.bump (Reg.TXC_CNT_TX_OK n)
    | 1 => s.bump (Reg.TXC_CNT_NOT_READY n)
    | 2 => s.bump (Reg.TXC_CNT_LATE n)
    | 3 => s.bump (Reg.TXC_CNT_NOT_CACHED n)
    | 4 => s.bump (Reg.TXC_CNT_LOCK_FAIL n)
    | 5 => s.bump (Reg.TXC_CNT_COEX_DENIED n)
    | _ => s
  { s with txDone := s.txDone ++ [⟨n, cmd, status, first, angle, airUs, upset⟩] }

/-- The LTB at which a command not yet started returns the chain to IDLE, its first symbol at `start` (R91). -/
def idleAgain (s : State) (n start airUs : Nat) : Nat :=
  start + airUs * 1000 + s.get (Reg.TXC_RAMP_ramp_len n) * 1000 + 2000

/-- When a command would return the chain to IDLE, if it began now or at its deadline; in RAMPDN it ends from its last
symbol on. A command that has started keeps the ramp of its turnaround (R9). -/
def cmdEnd (s : State) (n : Nat) (c : TxCmd) : Nat :=
  let ch := s.chainOf n
  let start := c.start.getD (s.ltb + 120000)
  if ch.started && ch.active == some c then
    ch.lastLtb.getD (start + c.airUs * 1000) + ch.rampUs * 1000 + 2000
  else idleAgain s n start c.airUs

/-- When the chain is next in IDLE, as it stands: after its running command, its calibration, or a hop without command,
which ends 60 µs after it began. -/
def chainFree (s : State) (n : Nat) : Nat :=
  let c := s.chainOf n
  let busy := match c.started, c.active, c.cal, c.hop with
    | true, some a, _, _ => cmdEnd s n a
    | _, _, some (_, e), _ => e
    | _, _, _, some (_, t0) => t0 + 60000
    | _, _, _, _ => 0
  max s.ltb busy

/-- A command with a start LTB whose turnaround start has passed. -/
def tooLate (s : State) (c : TxCmd) : Bool :=
  match c.start with
  | some st => decide (st < s.ltb + 120000)
  | none => false

/-- The commands a chain holds: active and next. -/
def heldCmds (c : Chain) : List TxCmd := c.active.toList ++ c.next.toList

/-- A waiting evict of a slot that no command uses any more (R92). -/
def evictNow (s : State) (n slot : Nat) : State :=
  let s := s.onChain n (fun c => { c with slots := tabDel c.slots slot, evict := none })
  sicClear (((cacheCount s n).set (Reg.TXC_CACHE_CMD_busy n) 0).set (Reg.TXC_CACHE_CMD_result n) 0) n slot

/-- The active or next command uses slot `k` (R92). -/
def slotUsed (s : State) (n k : Nat) : Bool :=
  let c := s.chainOf n
  (c.started && c.slot == k) || (heldCmds c).any (fun x => slotOf s n x.freq == some k)

/-- The end of an evict that waited (R92). -/
def evictWaiting (s : State) (n : Nat) : State :=
  match (s.chainOf n).evict with
  | some k => if slotUsed s n k then s else evictNow s n k
  | none => s

/-- Places free up: held commands move up, issuers place what they kept (R88), and an evict that waited ends (R92). -/
def promote (s : State) (n : Nat) : State :=
  let c := s.chainOf n
  let c := if c.active.isNone then { c with active := c.next, next := none } else c
  let rec place (s : State) (c : Chain) : List TxCmd → State × Chain
    | [] => (s, { c with waiting := [] })
    | w :: r =>
      if tooLate s w then place (endCmd s n w 2 none) c r
      else if c.active.isNone then place s { c with active := some w } r
      else if c.next.isNone then place s { c with next := some w } r
      else (s, { c with waiting := w :: r })
  let (s, c) := place s c c.waiting
  evictWaiting (s.setChain n c) n

/-- An issuer gives chain `n` a command (R88, R89). -/
def txIssue (s : State) (n : Nat) (cmd : TxCmd) : State :=
  let c := s.chainOf n
  if !s.on (Reg.TXC_CTRL_enable n) then endCmd s n cmd 1 none
  else if tooLate s cmd then endCmd s n cmd 2 none
  else match c.active, c.next with
    | none, _ => s.setChain n { c with active := some cmd, started := false }
    | some a, none =>
      match cmd.start with
      | none => s.setChain n { c with next := some cmd }
      | some st =>
        if cmdEnd s n a ≤ st - 120000 then s.setChain n { c with next := some cmd }
        else if !c.started && (match a.start with
            | some sa => decide (cmdEnd s n cmd ≤ sa - 120000)
            | none => true) then
          s.setChain n { c with active := some cmd, next := some a }
        else endCmd s n cmd 2 none
    | some _, some _ => s.setChain n { c with waiting := c.waiting ++ [cmd] }

/-- COMMAND_WITHDRAW (R89): CANCELLED before its turnaround starts. -/
def commandWithdraw (s : State) (n id : Nat) : State :=
  let c := s.chainOf n
  let isIt := fun (x : TxCmd) => x.id == id
  match c.active, c.next with
  | some a, _ =>
    if isIt a then
      if c.started then s
      else promote (endCmd (s.setChain n { c with active := none }) n a 7 none) n
    else match c.next with
      | some b =>
        if isIt b then promote (endCmd (s.setChain n { c with next := none }) n b 7 none) n
        else match c.waiting.find? isIt with
          | some w => endCmd (s.setChain n { c with waiting := c.waiting.filter (fun x => !isIt x) }) n w 7 none
          | none => s
      | none => s
  | none, _ => s

/-! ### Coexistence -/

/-- Chain `n` is subject to the interface (R98). -/
def coexSubject (s : State) (n : Nat) : Bool := bits (s.get Reg.TXC_COEX_CTRL_band) (chainBand n) 1 == 1

def coexSubjects (s : State) : List Nat := (List.range 4).filter (coexSubject s)

/-- COEX_PRIO is active at this level (R98: prio_pol). -/
def prioActive (s : State) : Bool := s.on Reg.TXC_COEX_STAT_prio != s.on Reg.TXC_COEX_CTRL_prio_pol

def setPrio (s : State) (level : Bool) : State := s.setb Reg.TXC_COEX_STAT_prio level

/-- COEX_GRANT at its active or inactive level (grant_pol). -/
def coexDrive (s : State) (granted : Bool) : State :=
  ((s.setb Reg.TXC_COEX_STAT_grant granted).drive (.tto 7) (granted != s.on Reg.TXC_COEX_CTRL_grant_pol))

/-- COEX_ENABLE (R98). -/
def coexEnable (s : State) : State :=
  if s.on Reg.TXC_COEX_CTRL_coex_en then s
  else match claimAll s 0x10 [8] with
    | (false, s) => s
    | (true, s) =>
      let s := coexDrive (s.set Reg.TXC_COEX_CTRL_coex_en 1) false
      { s with coex := { reqSince := if s.on Reg.TXC_COEX_STAT_req then some s.ltb else none } }

/-- Writing coex_en 0 (R40). -/
def coexDisable (s : State) : State :=
  if !s.on Reg.TXC_COEX_CTRL_coex_en then s
  else
    let s := ((s.set Reg.TXC_COEX_CTRL_coex_en 0).set Reg.TXC_COEX_STAT_grant 0).undrive (.tto 7)
    releaseAll { s with coex := {} } 0x10 [8]

/-- COEX_REQ_RISE (R99). -/
def coexReqRise (s : State) (prio : Bool) : State :=
  let s := setPrio (s.set Reg.TXC_COEX_STAT_req 1) prio
  if s.on Reg.TXC_COEX_CTRL_coex_en then { s with coex := { reqSince := some s.ltb } } else s

/-- A subject chain holds an ACK or SLOT command whose turnaround start lies within revoke_lead (R99, R100). -/
def coexAckNear (s : State) : Bool :=
  let lead := s.get Reg.TXC_COEX_CTRL_revoke_lead * 1000
  (coexSubjects s).any (fun n => (heldCmds (s.chainOf n)).any (fun c =>
    (c.cls == .ack || c.cls == .slot) && match c.start with
      | some st => decide (st ≤ s.ltb + lead + 120000)
      | none => false))

/-- COEX_GRANT (R99). -/
def coexGrant (s : State) (prio : Bool) : State :=
  let s := setPrio s prio
  match s.coex.reqSince with
  | some r =>
    if s.on Reg.TXC_COEX_STAT_grant || s.coex.blocked || !s.on Reg.TXC_COEX_CTRL_coex_en ||
        decide (s.ltb < r + s.get Reg.TXC_COEX_CTRL_grant_delay * 1000) ||
        (coexSubjects s).any (chainBusy s) || coexAckNear s then s
    else
      let s := (coexDrive s true).bump Reg.TXC_CNT_COEX_GRANT
      { s with coex := { s.coex with grantSince := some s.ltb } }
  | none => s

/-- The grant falls. -/
def coexDrop (s : State) : State :=
  if s.on Reg.TXC_COEX_STAT_grant then
    let s := coexDrive s false
    { s with coex := { s.coex with grantSince := none } }
  else s

/-- COEX_REQ_FALL (R99). -/
def coexReqFall (s : State) : State :=
  let s := coexDrop (s.set Reg.TXC_COEX_STAT_req 0)
  { s with coex := {} }

/-- COEX_REVOKE (R100). -/
def coexRevoke (s : State) (prio : Bool) : State :=
  let s := setPrio s prio
  if s.on Reg.TXC_COEX_STAT_grant && !prioActive s && coexAckNear s then
    (coexDrop s).bump Reg.TXC_CNT_COEX_REVOKE
  else s

/-- REQ_MAX_EXPIRY (R99). -/
def reqMaxExpiry (s : State) : State :=
  match s.coex.grantSince with
  | some g =>
    if g + atLeast1 (s.get Reg.TXC_COEX_CFG_req_max) * 1000000 ≤ s.ltb then
      let s := coexDrop s
      ({ s with coex := { s.coex with blocked := true } }.set Reg.TXC_COEX_STAT_req_max_hit 1).raise 74
    else s
  | none => s

/-! ### Calibration, enable, park -/

/-- CHAIN_STARTCAL (R90): in OFF only. cal_done keeps its value while a second calibration runs: DESIGN CHOICE (log 307). -/
def chainStartcal (s : State) (n : Nat) : State :=
  if chainState s n ≠ chOFF ∨ !rfPowered s then s
  else (setChainState s n chSTARTCAL).onChain n (fun c => { c with calEnd := some (s.ltb + 6000000) })

/-- CHAIN_STARTCAL_DONE (R90). -/
def chainStartcalDone (s : State) (n : Nat) : State :=
  match (s.chainOf n).calEnd with
  | some e =>
    if s.ltb < e ∨ chainState s n ≠ chSTARTCAL then s
    else
      let s := (setChainState s n chOFF).onChain n (fun c => { c with calEnd := none })
      (s.set (Reg.TXC_STATUS_cal_done n) 1).raise 75 n
  | none => s

/-- A hop of the synthesiser begins (R90). -/
def hopTo (s : State) (n freq : Nat) : State :=
  ((setChainState s n chSETTLE).set (Reg.TXC_STATUS_locked n) 0).onChain n (fun c =>
    { c with hop := some (freq, s.ltb), tuned := none })

/-- The frequency held in park_slot. -/
def parkFreq (s : State) (n : Nat) : Option Nat :=
  (tabGet (s.chainOf n).slots (s.get (Reg.TXC_PARK_park_slot n))).map (·.freq)

/-- CHAIN_ENABLE (R19, R90). -/
def chainEnable (s : State) (n : Nat) : State :=
  if s.on (Reg.TXC_CTRL_enable n) || chainState s n != chOFF || !s.on (Reg.TXC_STATUS_cal_done n) ||
      (s.chainOf n).slots.isEmpty || s.on (Reg.TXC_STATUS_region_block n) || !rfPowered s then s
  else
    let s := (s.set (Reg.TXC_CTRL_enable n) 1).onChain n (fun c => { c with disabling := false })
    match parkFreq s n with
    | some f => hopTo s n f
    | none => (setChainState s n chIDLE).set (Reg.TXC_STATUS_locked n) 0

/-- The FEM balls fall (R91). -/
def femOff (s : State) (n : Nat) : State :=
  (s.drive (.paen n) (s.on (Reg.TXC_CTRL_paen_pol n))).drive (.sw n) (s.on (Reg.TXC_CTRL_sw_pol n))

/-- The FEM balls rise (R91). -/
def femOn (s : State) (n : Nat) : State :=
  (s.drive (.paen n) (!s.on (Reg.TXC_CTRL_paen_pol n))).drive (.sw n) (!s.on (Reg.TXC_CTRL_sw_pol n))

/-- A write to TXC_CTRLn drives the FEM balls (R441): at the active level of the written polarity in PREP, TX and RAMPDN, at
the inactive one in the other states. -/
def txcDrive (s : State) (n : Nat) : State :=
  if !rfPowered s then s
  else if decide (4 ≤ chainState s n ∧ chainState s n ≤ 6) then femOn s n else femOff s n

/-- CHAIN_DISABLE (R89, R90). -/
def chainDisable (s : State) (n : Nat) : State :=
  if !s.on (Reg.TXC_CTRL_enable n) then s
  else
    let s := s.set (Reg.TXC_CTRL_enable n) 0
    let c := s.chainOf n
    let st := chainState s n
    let running := decide (st = chTX ∨ st = chRAMPDN)
    let ends := (if running then [] else c.active.toList) ++ c.next.toList ++ c.waiting
    let s := ends.foldl (fun s x => endCmd s n x 1 none) s
    let s := s.setChain n { c with
      active := if running then c.active else none
      next := none, waiting := [], heldIds := [], disabling := true
      started := c.started && running, hop := if running then c.hop else none }
    if running ∨ st = chONCAL then evictWaiting s n
    else
      let s := if st = chPREP then sicRelease (femOff s n) n else s
      evictWaiting ((setChainState s n chOFF).onChain n (fun c => { c with disabling := false })) n

/-- PARK (R90): in IDLE with a valid park_slot. -/
def park (s : State) (n : Nat) : State :=
  if chainState s n = chIDLE then
    match parkFreq s n with
    | some f => hopTo s n f
    | none => s
  else s

/-! ### Turnaround and transmission -/

/-- The power of a command in 0.25 dB at the chain's reference point, and whether it was limited (R89, R95). -/
def cmdPower (s : State) (n : Nat) (cmd : TxCmd) : Int × Bool :=
  let want := cmd.power.getD (s.sget (Reg.TXC_PWR_power_set n))
  let top := s.sget (Reg.TXC_PWR_power_max n)
  let p := min want top
  let ext : Int := if s.on (Reg.TXC_CTRL_ext_pa n) then s.get (Reg.TXC_EXTPA_pa_gain n) else 0
  let q := clampInt (-40) 56 (p - ext) + ext
  (q, decide (top < want ∨ q ≠ p))

/-- A command whose channel is not cached ends NOT_CACHED; auto_fill queues a fill (R93). -/
def notCached (s : State) (n : Nat) (cmd : TxCmd) : State :=
  let c := s.chainOf n
  let free := (List.range 256).find? (fun k =>
    (tabGet c.slots k).isNone && !c.fills.any (fun f => f.slot == k) &&
      !(match c.cal with
        | some (f, _) => f.slot == k
        | none => false))
  let s := endCmd (s.setChain n { c with active := none }) n cmd 3 none
  match free with
  | some k =>
    if s.on (Reg.TXC_CTRL_auto_fill n) && inChainRange s n cmd.freq then
      s.onChain n (fun c => { c with fills := c.fills ++ [{ slot := k, freq := cmd.freq, byCmd := false }] })
    else s
  | none => s

/-- The turnaround of the active command begins: SETTLE, hop to its channel (R90, R91, R93, R95). -/
def beginHop (s : State) (n : Nat) (cmd : TxCmd) : State :=
  match slotOf s n cmd.freq with
  | none => promote (notCached s n cmd) n
  | some k =>
    let (q, limited) := cmdPower s n cmd
    let s := if limited then s.bump (Reg.TXC_CNT_PWR_LIMIT n) else s
    let s := s.onChain n (fun c => { c with
      active := some { cmd with start := some (cmd.start.getD (s.ltb + 120000)) }
      started := true, slot := k, powerQ := q
      rampUs := s.get (Reg.TXC_RAMP_ramp_len n), rampLinear := s.on (Reg.TXC_RAMP_ramp_shape n), firstLtb := none, lastLtb := none, aborted := false })
    hopTo (sicNextTx s n) n cmd.freq

/-- A running calibration is preempted (R94). -/
def preemptCal (s : State) (n : Nat) : State :=
  let c := s.chainOf n
  match c.cal with
  | none => s
  | some (f, _) =>
    let s := (s.bump (Reg.TXC_CNT_CAL_PREEMPT n)).raise 70 n f.slot
    let f := { f with preempts := f.preempts + 1 }
    if atLeast1 (s.get (Reg.TXC_CAL_CFG_retry_max n)) ≤ f.preempts then
      let s := (s.setChain n { c with cal := none }).set (Reg.TXC_STATUS_cal_fail n) 1
      let s := if f.byCmd then
          (s.set (Reg.TXC_CACHE_CMD_busy n) 0).set (Reg.TXC_CACHE_CMD_result n) 5
        else s
      s.raise 71 n f.slot
    else
      let f := { f with notBefore := s.ltb + s.get (Reg.TXC_CAL_CFG_retry_delay n) * 1000000 }
      let s := s.setChain n { c with cal := none, fills := f :: c.fills }
      if f.byCmd then s.set (Reg.TXC_CACHE_CMD_result n) 4 else s

/-- A command may start its turnaround now (R88): its turnaround start has come, or it is ASAP and ends before
every deadline the chain holds. -/
def mayStart (s : State) (n : Nat) (cmd : TxCmd) (others : List TxCmd) : Bool :=
  match cmd.start with
  | some st => decide (st ≤ s.ltb + 120000)
  | none => others.all (fun o => match o.start with
    | some so => decide (cmdEnd s n cmd + 120000 ≤ so)
    | none => true)

/-- A command waits at its turnaround start: an ASYNC or TEST one for a calibration (R94) or a grant (R101), any one for
the hop that holds it (R93). -/
def heldBack (s : State) (n : Nat) (cmd : TxCmd) : Bool :=
  (s.chainOf n).heldIds.contains cmd.id ||
    (cmd.cls == .async || cmd.cls == .test) &&
      (chainState s n == chONCAL || s.on Reg.TXC_COEX_STAT_grant && coexSubject s n)

/-- A command takes its turnaround now. -/
def startsNow (s : State) (n : Nat) (cmd : TxCmd) (others : List TxCmd) : Bool :=
  mayStart s n cmd others && !heldBack s n cmd

/-- The command whose turnaround starts now: one with a deadline first; one that waits does not stand before one that
need not. Its place becomes the active one. -/
def pickCmd (s : State) (n : Nat) : Option (TxCmd × State) :=
  let c := s.chainOf n
  match c.active, c.next with
  | some a, some b =>
    if startsNow s n a [b] && (a.start.isSome || !(b.start.isSome && startsNow s n b [a])) then some (a, s)
    else if startsNow s n b [a] then some (b, s.setChain n { c with active := some b, next := some a })
    else none
  | some a, none => if startsNow s n a [] then some (a, s) else none
  | none, _ => none

/-- A command at its turnaround start against the coexistence interface (R100-R102): none where it is held, and
whether it is denied. -/
def coexGate (s : State) (n : Nat) (cmd : TxCmd) : Option (Bool × State) :=
  if !(s.on Reg.TXC_COEX_STAT_grant && coexSubject s n) then some (false, s)
  else if cmd.cls == .async || cmd.cls == .test then none
  else if prioActive s then some (true, s)
  else some (false, (coexDrop s).bump Reg.TXC_CNT_COEX_REVOKE)

/-- The chain lets go of its active command before the first symbol: it is idle, and the command ends CANCELLED. Of a command
whose occurrence is inert (R230). -/
def letGo (s : State) (n : Nat) (cmd : TxCmd) : State :=
  let s := if chainState s n = chPREP then sicRelease (femOff s n) n else s
  let s := if (s.chainOf n).started then setChainState s n chIDLE else s
  let s := s.onChain n (fun c => { c with active := none, started := false, hop := if c.started then none else c.hop })
  promote (endCmd { s with sic := { s.sic with tx := tabDel s.sic.tx n } } n cmd 7 none) n

/-- A chain's active command is dropped where its occurrence has turned out inert, before its first symbol. -/
def occDrop (s : State) (n : Nat) : State :=
  let s := rxReached s
  match (s.chainOf n).active with
  | some cmd => if occGone s cmd && (s.chainOf n).firstLtb.isNone then letGo s n cmd else s
  | none => s

/-- TURNAROUND_START (R88, R90, R93, R94, R100-R102). -/
def turnaroundStart (s : State) (n : Nat) (prio : Bool) : State :=
  let s := occDrop (setPrio s prio) n
  let st := chainState s n
  if (s.chainOf n).started then s
  else match pickCmd s n with
    | none => s
    | some (cmd, s) =>
      let may := st = chIDLE ∨ st = chSETTLE ∨
        (st = chONCAL ∧ s.on (Reg.TXC_CTRL_enable n) ∧ (cmd.cls = .ack ∨ cmd.cls = .slot))
      if ¬ may then s
      else match coexGate s n cmd with
        | none => s
        | some (true, s) => promote (endCmd (s.onChain n (fun c => { c with active := none })) n cmd 5 none) n
        | some (false, s) =>
          if st = chSETTLE then
            -- a hop without command is in progress: held until it ends (R93)
            (s.bump (Reg.TXC_CNT_HELD n)).onChain n (fun c => { c with heldIds := c.heldIds ++ [cmd.id] })
          else
            let s := if st = chONCAL then setChainState (preemptCal s n) n chIDLE else s
            if tooLate s cmd then promote (endCmd (s.onChain n (fun c => { c with active := none })) n cmd 2 none) n
            else beginHop s n cmd

/-- A command that a hop has held, made the active one (R93); an ASAP one before a deadline waits on (R88). -/
def heldPick (s : State) (n : Nat) (c : Chain) : Option (TxCmd × Chain) :=
  match c.active, c.next with
  | some a, b =>
    if c.heldIds.contains a.id && (a.start.isSome || mayStart s n a b.toList) then some (a, c)
    else match b with
      | some b =>
        if c.heldIds.contains b.id && (b.start.isSome || mayStart s n b [a]) then
          some (b, { c with active := some b, next := some a })
        else none
      | none => none
  | none, _ => none

/-- SYNTH_LOCK (R90, R93): the hop ends with lock. -/
def synthLock (s : State) (n : Nat) : State :=
  let c := s.chainOf n
  match c.hop with
  | none => s
  | some (f, _) =>
    if chainState s n ≠ chSETTLE then s
    else
      let c := { c with hop := none, tuned := some f, lockAt := s.ltb }
      let s := s.set (Reg.TXC_STATUS_locked n) 1
      if c.started then s.setChain n c
      else match heldPick s n c with
        | none => setChainState (s.setChain n { c with heldIds := [] }) n chIDLE
        | some (cmd, c) =>
          let s := s.setChain n { c with heldIds := [] }
          let ok := match cmd.start with
            | none => true
            | some st => if cmd.freq = f then decide (s.ltb + 40000 ≤ st) else decide (s.ltb + 100000 ≤ st)
          if !ok then
            promote (setChainState (endCmd (s.onChain n (fun c => { c with active := none })) n cmd 2 none) n chIDLE) n
          else
            let s := beginHop s n cmd
            if cmd.freq = f ∧ cmd.start.isSome ∧ (s.chainOf n).started then
              -- locked on its own channel already
              (s.set (Reg.TXC_STATUS_locked n) 1).onChain n (fun c => { c with hop := none, tuned := some f })
            else if (s.chainOf n).started then s
            else setChainState s n chIDLE

/-- The driver's setting of a transmission in 0.25 dB: its power, less the gain of an external PA (R95). -/
def driverPower (s : State) (n : Nat) : Int :=
  (s.chainOf n).powerQ - (if s.on (Reg.TXC_CTRL_ext_pa n) then (s.get (Reg.TXC_EXTPA_pa_gain n) : Int) else 0)

/-- The driver code (R96): the slot's power table, corrected for temperature and supply as last read, and its trim. -/
def driverCode (s : State) (n : Nat) : Int :=
  let c := s.chainOf n
  match tabGet c.slots c.slot with
  | none => 0
  | some k =>
    k.cal.table.getD (driverPower s n + 40).toNat 0 +
      (k.cal.tc * (s.sget (Reg.TXC_SENSE_temp n) - k.tempCal)).tdiv 1000 +
      (Config.supplyCoefficient n * ((s.get (Reg.TXC_SENSE_vpa n) : Int) - 3300)).tdiv 1000 + k.trim

/-- LOCK_POINT (R90, R91): PREP with the FEM balls raised, or LOCK_FAIL. -/
def lockPoint (s : State) (n : Nat) : State :=
  let s := occDrop s n
  let c := s.chainOf n
  match c.active with
  | none => s
  | some cmd =>
    if chainState s n ≠ chSETTLE ∨ !c.started ∨ s.ltb + 40000 < cmd.start.getD 0 then s
    else if c.hop.isNone ∧ c.tuned = some cmd.freq then
      let s := (femOn (setChainState s n chPREP) n).onChain n (fun c => { c with code := driverCode s n })
      sicPrep s n cmd.freq
    else
      let s := (setChainState s n chIDLE).setChain n { c with active := none, started := false, hop := none }
      promote (endCmd (s.raise 73 n c.slot) n cmd 4 none) n

/-- FIRST_SYMBOL (R60, R90, R119): the transmit timestamp is the deadline itself. -/
def firstSymbol (s : State) (n : Nat) : State :=
  let s := occDrop s n
  let c := s.chainOf n
  match c.active with
  | none => s
  | some cmd =>
    let st := cmd.start.getD 0
    if chainState s n ≠ chPREP ∨ s.ltb < st then s
    else
      let s := (setChainState s n chTX).setChain n { c with
        firstLtb := some st, firstAngle := angleAt s st, ackExtra := s.get Reg.AMC_CSMA_CFG2_ack_wait_extra }
      sicArm (s.emit (.airTx n cmd.freq cmd.profile c.powerQ cmd.psdu (airFrames cmd))) n cmd.freq

/-- LAST_SYMBOL (R90). -/
def lastSymbolTx (s : State) (n : Nat) : State :=
  let c := s.chainOf n
  match c.active, c.firstLtb with
  | some cmd, some f =>
    if chainState s n ≠ chTX ∨ s.ltb < f + cmd.airUs * 1000 then s
    else (setChainState s n chRAMPDN).setChain n { c with lastLtb := some s.ltb }
  | _, _ => s

/-- The power trim of the slot for its next use (R96). p_set is the driver's setting where the internal coupler measures, and
the power at the reference point where chain_DET does: DESIGN CHOICE (log 50). -/
def trimUpdate (s : State) (n detAdc : Nat) : State :=
  let c := s.chainOf n
  match tabGet c.slots c.slot with
  | none => s
  | some k =>
    let meas : Int := s.sget (Reg.TXC_DET_det_icpt n) * 10 + ((s.get (Reg.TXC_DET_det_slope n) * detAdc / 10 : Nat) : Int)
    let set := if s.on (Reg.TXC_CTRL_det_mode n) then c.powerQ else driverPower s n
    let trim := clampInt (-300) 300 (k.trim + (set * 25 - meas).tdiv 2)
    let s := s.setChain n { c with slots := tabPut c.slots c.slot { k with trim := trim } }
    if trim.natAbs = 300 then (s.bump (Reg.TXC_CNT_PWR_LIMIT n)).raise 72 n c.slot (unsigned 32 trim) else s

/-- RAMPDN_COMPLETE (R90, R91, R96, R109, R113-R115). -/
def rampdnTx (s : State) (n : Nat) (m : TxMeas) : State :=
  let c := s.chainOf n
  match c.active, c.lastLtb with
  | some cmd, some last =>
    if chainState s n ≠ chRAMPDN ∨ s.ltb < last + c.rampUs * 1000 + 2000 then s
    else
      let s := trimUpdate (femOff s n) n m.detAdc
      let s := sicRelease (sicWriteback s n m) n
      let s := match tabGet s.sic.clear n with
        | some k =>
          let s := (sicClear s n k).set (Reg.SIC_SLOT_CMD_busy n) 0
          { s with sic := { s.sic with clear := tabDel s.sic.clear n } }
        | none => s
      let s := (setChainState s n (if c.disabling then chOFF else chIDLE)).onChain n (fun c => { c with
        active := none, started := false, disabling := false, firstLtb := none, lastLtb := none, aborted := false })
      let s := { s with sic := { s.sic with tx := tabDel s.sic.tx n } }
      promote (endCmd s n cmd (if c.aborted then 6 else 0) c.firstLtb
        ((last - c.firstLtb.getD last) / 1000) c.firstAngle m.upset) n
  | _, _ => s

/-! ### The calibration cache -/

/-- CACHE_FILL (R92): refused out of range or on an occupied slot, else queued. -/
def cacheFill (s : State) (n slot : Nat) : State :=
  if s.on (Reg.TXC_CACHE_CMD_busy n) then s
  else
    let s := s.set (Reg.TXC_CACHE_CMD_slot n) slot
    let freq := s.get (Reg.TXC_CACHE_FREQ_freq_khz n)
    if !inChainRange s n freq then s.set (Reg.TXC_CACHE_CMD_result n) 1
    else if (tabGet (s.chainOf n).slots slot).isSome then s.set (Reg.TXC_CACHE_CMD_result n) 2
    else (s.set (Reg.TXC_CACHE_CMD_busy n) 1).onChain n (fun c =>
      { c with fills := c.fills ++ [{ slot := slot, freq := freq, byCmd := true }] })

/-- CACHE_EVICT (R92): waits while the active or next command uses the slot. -/
def cacheEvict (s : State) (n slot : Nat) : State :=
  if s.on (Reg.TXC_CACHE_CMD_busy n) then s
  else
    let s := s.set (Reg.TXC_CACHE_CMD_slot n) slot
    if (tabGet (s.chainOf n).slots slot).isNone then s.set (Reg.TXC_CACHE_CMD_result n) 3
    else if slotUsed s n slot then
      (s.set (Reg.TXC_CACHE_CMD_busy n) 1).onChain n (fun c => { c with evict := some slot })
    else evictNow s n slot

/-- CACHE_READ (R92). -/
def cacheRead (s : State) (n slot : Nat) : State :=
  if s.on (Reg.TXC_CACHE_CMD_busy n) then s
  else
    let s := s.set (Reg.TXC_CACHE_CMD_slot n) slot
    match tabGet (s.chainOf n).slots slot with
    | some k =>
      ((s.set (Reg.TXC_CACHE_RD_freq_khz n) k.freq).set (Reg.TXC_CACHE_RD_valid n) 1).set
        (Reg.TXC_CACHE_CMD_result n) 0
    | none =>
      ((s.set (Reg.TXC_CACHE_RD_freq_khz n) 0).set (Reg.TXC_CACHE_RD_valid n) 0).set (Reg.TXC_CACHE_CMD_result n) 3

/-- No held command has its turnaround start within the next 1.2 ms (R90): an ASAP command that a grant holds (R101) or that
must wait behind a deadline (R88) has none. -/
def noCmdSoon (s : State) (n : Nat) : Bool :=
  let held := heldCmds (s.chainOf n)
  held.all (fun c => match c.start with
    | some st => decide (s.ltb + 1200000 + 120000 ≤ st)
    | none => s.on Reg.TXC_COEX_STAT_grant && coexSubject s n || !mayStart s n c (held.filter (fun d => d.id != c.id)))

/-- ONCAL_START and CAL_RETRY (R90, R92, R94): the first fill that may be tried. -/
def fillStart (s : State) (n : Nat) (retry : Bool) : State :=
  let c := s.chainOf n
  let ready := fun (f : Fill) => decide (f.notBefore ≤ s.ltb) && (retry == decide (0 < f.preempts))
  let st := chainState s n
  match c.fills.find? ready with
  | none => s
  | some f =>
    if (st = chIDLE ∧ noCmdSoon s n ∨ st = chOFF ∧ s.on (Reg.TXC_STATUS_cal_done n)) ∧ rfPowered s then
      (setChainState s n chONCAL).setChain n { c with
        fills := c.fills.erase f, cal := some (f, s.ltb + 1200000) }
    else s

/-- ONCAL_COMPLETE (R90, R92, R112). -/
def oncalComplete (s : State) (n : Nat) (found : ChanCal) : State :=
  let c := s.chainOf n
  match c.cal with
  | none => s
  | some (f, e) =>
    if chainState s n ≠ chONCAL ∨ s.ltb < e then s
    else
      let temp := s.sget (Reg.TXC_SENSE_temp n)
      let s := s.setChain n { c with
        cal := none, disabling := false, slots := tabPut c.slots f.slot { freq := f.freq, cal := found, tempCal := temp } }
      let s := cacheCount (sicClear s n f.slot) n
      let s := if f.byCmd then (s.set (Reg.TXC_CACHE_CMD_busy n) 0).set (Reg.TXC_CACHE_CMD_result n) 0 else s
      setChainState s n (if s.on (Reg.TXC_CTRL_enable n) then chIDLE else chOFF)

/-- SENSOR_READ (R96). -/
def sensorRead (s : State) (n : Nat) (temp : Int) (vpa : Nat) : State :=
  (s.sset (Reg.TXC_SENSE_temp n) temp).set (Reg.TXC_SENSE_vpa n) vpa

/-! ### Adaptation and collisions -/

/-- The ramp of the active transmission is complete and its last symbol is not sent (R91, R113). -/
def ramped (s : State) (n : Nat) : Bool :=
  let st := chainState s n
  decide (st = chTX) || decide (st = chPREP) && match (s.chainOf n).active with
    | some cmd => decide (cmd.start.getD 0 ≤ s.ltb + 2000)
    | none => false

/-- A lane's power after the cancellers, in 0.1 dBm at the receiver input (R106, R107). -/
def laneLevel (s : State) (v : SicView) : Int :=
  Config.sampleLevel (gainIdx s (((s.laneOf v.lane.val).assign.map (·.band)).getD 0)) (cPower (laneCancelled s v))

/-- A lane on the chain's channel has power above the threshold in force (R113). -/
def foreignPower (s : State) (n : Nat) (views : List SicView) : Bool :=
  views.any (fun v => (lanesOnChannel s n (chainFreq s n)).contains v.lane.val &&
    decide (s.sget (Reg.SIC_CD_EFF_cd_thr_eff n) < laneLevel s v))

/-- COEFF_ADAPT (R106, R107, R113): once per µs from ramp completion on. -/
def coeffAdapt (s : State) (n : Nat) (taps coefs : List Cplx) (views : List SicView) : State :=
  let x := s.sicTxOf n
  let above := foreignPower s n views
  if !ramped s n ∨ !sicEna s (chainBand n) then s
  else if above then s.setSicTx n { x with frozen := true }
  else if x.frozen ∨ s.cur Reg.SIC_CTRL_adapt_en = 0 ∨ s.ltb < x.adaptAt + 1000 then s
  else s.setSicTx n { x with taps := taps.take 8, coefs := coefs.take 24, adaptAt := s.ltb }

/-- The number of a command's class in cd_abort_mask and EV079. -/
def classCode : TxClass → Nat
  | .ack => 0
  | .slot => 1
  | .async => 2
  | .test => 3

/-- The condition of R120: for cd_window without a break, counted from the first symbol at the earliest, or a preamble. -/
def collisionHolds (s : State) (n : Nat) (since : Option Nat) : Bool :=
  match since with
  | some f => s.cur (Reg.SIC_CD_CFG_cd_mode n) == 0 &&
    decide (max f ((s.chainOf n).firstLtb.getD 0) + atLeast1 (s.cur (Reg.SIC_CD_CFG_cd_window n)) * 1000 ≤ s.ltb)
  | none => s.cur (Reg.SIC_CD_CFG_cd_mode n) != 0

/-- COLLISION_DECLARED (R113, R120, R121). -/
def collisionDeclared (s : State) (n lane : Nat) (level : Int) (since : Option Nat) : State :=
  let c := s.chainOf n
  let x := s.sicTxOf n
  match c.active with
  | none => s
  | some cmd =>
    if chainState s n ≠ chTX ∨ !x.armed ∨ x.declared ∨ !(lanesOnChannel s n cmd.freq).contains lane ∨
        level < s.sget (Reg.SIC_CD_EFF_cd_thr_eff n) ∨ !collisionHolds s n since then s
    else
      let cls := classCode cmd.cls
      let s := s.setSicTx n { x with
        declared := true, frozen := x.frozen || decide (s.sget (Reg.SIC_CD_EFF_cd_thr_eff n) < level) }
      let s := s.raise 79 n (c.slot + 256 * lane + 65536 * cls) (unsigned 32 level)
      if bits (s.cur (Reg.SIC_CD_CFG_cd_abort_mask n)) cls 1 = 1 then
        ((setChainState s n chRAMPDN).setChain n { c with lastLtb := some s.ltb, aborted := true }).bump
          (Reg.SIC_CNT_CD_ABORT n)
      else s.bump (Reg.SIC_CNT_CD_NOABORT n)

end Sys2Proof.Machine
end

