-- ==== Sys2Proof/Machine/AmcOps.lean ====
section
/-! DEFINITION. The air MAC's own parts (chapter 07): the channel plan and dwell totals, the choice of a chain, the
acknowledgement arbiter, CSMA-CA, awaited acknowledgements, beacons, neighbours. -/

namespace Sys2Proof.Machine

def State.onAmc (s : State) (f : Amc → Amc) : State := { s with amc := f s.amc }

/-- A reference of its own for each command of AMC, ESC and SLP. -/
def newRef (s : State) : Nat × State := (s.amc.nextRef, s.onAmc (fun a => { a with nextRef := a.nextRef + 1 }))

def near10 (a b : Nat) : Bool := decide (absDiff a b ≤ 10)

/-! ### The channel plan (R203-R205) -/

def planFreq (s : State) (k : Nat) : Nat := s.get (Reg.AMC_PLAN_FREQ_freq_khz k)
def planBand (s : State) (k : Nat) : Nat := s.get (Reg.AMC_PLAN_FREQ_band k)
def planValid (s : State) (k : Nat) : Bool := s.on (Reg.AMC_PLAN_FREQ_valid k)
def planHz (s : State) (k : Nat) : Nat := s.get (Reg.AMC_PLAN_CFG_width_khz k) * 1000

/-- A plan entry reads retired (R204). -/
def planRetired (s : State) (k : Nat) : Bool := chanRetired s (planBand s k) (planFreq s k) (planHz s k)

/-- The valid plan entries whose centre lies within 10 kHz. -/
def planAt (s : State) (band freq : Nat) : List Nat :=
  (List.range 64).filter (fun k => planValid s k && planBand s k == band && near10 (planFreq s k) freq)

/-- The window's airtime on an entry, µs. -/
def dwellTotal (s : State) (k : Nat) : Nat :=
  ((tabGetD s.amc.dwell k []).take (s.get Reg.AMC_DWELL_CFG_dwell_win)).foldl (· + ·) 0

def dwellBudget (s : State) : Nat := s.get Reg.AMC_DWELL_CFG_dwell_max * 1000

def isHop (s : State) (k : Nat) : Bool := s.on (Reg.AMC_PLAN_CFG_hop k)

/-- A transmission of this airtime would pass an entry's budget (R205). -/
def dwellOver (s : State) (k airUs : Nat) : Bool := isHop s k && decide (dwellBudget s < dwellTotal s k + airUs)

/-- The channel's dwell budget allows the transmission (R179, R205). -/
def dwellOk (s : State) (band freq airUs : Nat) : Bool := (planAt s band freq).all (fun k => !dwellOver s k airUs)

/-- Airtime radiated on a channel is totalled (R205). -/
def dwellAdd (s : State) (band freq airUs : Nat) : State :=
  ((planAt s band freq).filter (isHop s)).foldl (fun s k =>
    let l := match tabGetD s.amc.dwell k [] with
      | [] => [airUs]
      | x :: r => (x + airUs) :: r
    let s := s.onAmc (fun a => { a with dwell := tabPut a.dwell k l })
    if decide (dwellBudget s ≤ dwellTotal s k) && !s.amc.dwellHit.contains k then
      (s.onAmc (fun a => { a with dwellHit := addOnce a.dwellHit k })).raise 137 k
    else s) s

/-- DWELL_STEP (R205): a new 1 s step. -/
def dwellStep (s : State) : State :=
  let s := s.onAmc (fun a => { a with dwell := a.dwell.map (fun e => (e.1, (0 :: e.2).take 60)) })
  s.onAmc (fun a => { a with dwellHit := a.dwellHit.filter (fun k => decide (dwellBudget s ≤ dwellTotal s k)) })

/-! ### Neighbour reservations (R193, R202) -/

/-- A channel entry as sent: frequency, band and width in Hz (R193). -/
def entryChan (e : Nat) : Nat × Nat × Nat := (bits e 0 22, bits e 22 1, bits e 23 9 * 25000)

/-- Two channels overlap. -/
def chanOverlap (a b : Nat × Nat × Nat) : Bool := a.2.1 == b.2.1 && overlapHz a.1 a.2.2 b.1 b.2.2

/-- Own valid reservations by index. -/
def ownRsv (s : State) : List (Nat × (Nat × Nat × Nat)) :=
  ((List.range 16).filter (fun k => ebOn s (Reg.AMC_RSV_FREQ_valid k))).map (fun k =>
    (k, s.get (Reg.AMC_RSV_FREQ_freq_khz k), s.get (Reg.AMC_RSV_FREQ_band k),
      s.get (Reg.AMC_RSV_WIDTH_width_khz k) * 1000))

/-- Reservations of PRESENT and ABSENT neighbours: table entry and channel entry. -/
def neighbourRsv (s : State) : List (Nat × Nat) :=
  (s.amc.nb.filter (fun e => e.2.state == 1 || e.2.state == 2)).flatMap (fun e => e.2.rsv.map (fun r => (e.1, r)))

/-- Foreign reservations (R202). -/
def foreignRsv (s : State) : List (Nat × Nat × Nat) :=
  ((neighbourRsv s).map (fun e => entryChan e.2)).filter (fun c => !(ownRsv s).any (fun o => chanOverlap c o.2))

/-- A channel of the plan overlaps a foreign reservation and the entry does not override it (R187, R202). -/
def planReserved (s : State) (k : Nat) : Bool :=
  !s.on (Reg.AMC_PLAN_CFG_rsv_override k) &&
    (foreignRsv s).any (fun c => chanOverlap c (planFreq s k, planBand s k, planHz s k))

/-- Conflicting pairs of an own and a neighbour's reservation; each is reported once (R202). -/
def conflictScan (s : State) : State :=
  let pairs := (ownRsv s).flatMap (fun o =>
    ((neighbourRsv s).filter (fun e => chanOverlap o.2 (entryChan e.2))).map (fun e => (o.1, e.1 * 2 ^ 32 + e.2)))
  let fresh := pairs.filter (fun p => !s.amc.conflicts.contains p)
  let s := s.onAmc (fun a => { a with conflicts := pairs })
  fresh.foldl (fun s _ => (s.bump Reg.AMC_CNT_RSV_CONFLICT).raise 133) s

/-! ### The choice of a chain (R179, R180) -/

/-- The frequency of the chain's cache slot within 10 kHz. -/
def nearSlot (s : State) (n freq : Nat) : Option Nat :=
  if (slotOf s n freq).isSome then some freq
  else ((s.chainOf n).slots.find? (fun e => near10 e.2.freq freq)).map (fun e => e.2.freq)

/-- Conditions 1 and 2 of R179: the slot's frequency. -/
def chainServes (s : State) (n freq : Nat) : Option Nat :=
  if s.on (Reg.TXC_CTRL_enable n) then nearSlot s n freq else none

/-- Condition 5. -/
def coexFree (s : State) (n : Nat) : Bool := !(coexSubject s n && s.on Reg.TXC_COEX_STAT_grant && prioActive s)

/-- A held command returns the chain to IDLE no later than `ts`, or starts its turnaround no earlier than `e` (condition
3). One without deadline starts when the chain is free, unless a grant holds it (R101) or it must wait behind a deadline
(R88). -/
def fitsAround (s : State) (n ts e : Nat) (x : TxCmd) : Bool :=
  let c := s.chainOf n
  match x.start with
  | some st => decide (cmdEnd s n x ≤ ts ∨ e + 120000 ≤ st)
  | none =>
    let done := idleAgain s n (chainFree s n + 120000) x.airUs
    let waits := (s.on Reg.TXC_COEX_STAT_grant && coexSubject s n) || (heldCmds c).any (fun o => o.id != x.id &&
      !(c.started && c.active == some o) && match o.start with
        | some so => decide (so < done + 120000)
        | none => false)
    !waits && decide (done ≤ ts)

/-- Conditions 3 and 4: the ASYNC commands to set aside, or none. -/
def chainFits (s : State) (n ts e : Nat) : Option (List TxCmd) :=
  let c := s.chainOf n
  let held := heldCmds c
  let aside := held.filter (fun x => !fitsAround s n ts e x)
  let running := if c.started then c.active else none
  let parked := match c.hop with
    | some (_, t0) => !c.started && chainState s n == chSETTLE && decide (ts < t0 + 60000)
    | none => false
  if !parked && aside.all (fun x => x.cls == .async && running != some x) &&
      decide ((held.filter (fitsAround s n ts e)).length ≤ 1) then
    some aside
  else none

/-- A chain chosen: its cache frequency and the commands to set aside. -/
structure Pick where
  chain : Nat
  freq  : Nat
  aside : List TxCmd
deriving DecidableEq, Repr

/-- The preference of an eligible chain (R180), lower first. -/
def pickPref (s : State) (p : Pick) : Nat :=
  if !p.aside.isEmpty then 2 else if chainState s p.chain = chONCAL then 1 else 0

/-- Why no chain is eligible (R181). -/
inductive NoChain | late | noChannel | dwell | coex | busy
deriving DecidableEq, Repr

/-- The chains among `cs` eligible for a transmission with first symbol at `d` (R179); the best (R180). -/
def pickChain (s : State) (cs : List Nat) (band freq d airUs : Nat) : NoChain ⊕ Pick :=
  let ts := d - 120000
  let served := cs.filter (fun n => (chainServes s n freq).isSome)
  let picks := served.filterMap (fun n =>
    if coexFree s n && dwellOk s band freq airUs then
      match chainServes s n freq, chainFits s n ts (idleAgain s n d airUs) with
      | some f, some aside => some (⟨n, f, aside⟩ : Pick)
      | _, _ => none
    else none)
  if d < s.ltb + 122000 then .inl .late
  else match (List.range 3).findSome? (fun k => picks.find? (fun p => pickPref s p == k)) with
    | some p => .inr p
    | none =>
      if served.isEmpty then .inl .noChannel
      else if !dwellOk s band freq airUs then .inl .dwell
      else if served.all (fun n => !coexFree s n) then .inl .coex
      else .inl .busy

/-- ASYNC commands are set aside: CANCELLED (R89, R180). -/
def setAside (s : State) (p : Pick) : State :=
  p.aside.foldl (fun s c => (commandWithdraw s p.chain c.id).bump Reg.AMC_CNT_ACK_DISPLACE) s

/-! ### Identity and duties -/

def siteEui (s : State) : Nat := s.get Reg.AMC_EUI_LO_eui_lo + 2 ^ 32 * s.get Reg.AMC_EUI_HI_eui_hi
def panId (s : State) : Nat := s.get Reg.AMC_PAN_pan_id
def twinRole (s : State) : Nat := s.get Reg.TWN_CTRL_role % 3
def twinPaired (s : State) : Bool := s.get Reg.TWN_STATUS_state == 3

/-- This chip performs the duties for a node of this EUI-64 (R378). -/
def performs (s : State) (eui : Nat) : Bool :=
  !(twinPaired s && s.on Reg.TWN_STATUS_split) || ((eui % 2 == 0) == (twinRole s == 1))

/-- SLP serves the node of a context (R209). -/
def slpServes (s : State) (k : Nat) : Bool :=
  s.cget k Cx.slp_valid == 1 && match ntFind s (s.cget k Cx.eui64) 0 with
    | some i => nget s i Nt.parent == ntSite
    | none => false

/-- gap of R177 in µs for a family. -/
def ackGap (s : State) (family : Nat) : Nat :=
  max 130 (if family = 0 then s.get Reg.AMC_ACK_GAP_gap_2g4 else s.get Reg.AMC_ACK_GAP_gap_sun)

/-! ### Acknowledgements (R178-R183) -/

/-- Octets of the FCS. -/
def fcsLen (two : Bool) : Nat := if two then 2 else 4

/-- Both chips of a pair acknowledge every frame (R379). -/
def ackBoth (s : State) : Bool := s.on Reg.TWN_CTRL_ack_mode && twinRole s != 0

/-- The acknowledgement of a frame (R183): PSDU with FCS; `both` says whether ack_mode was 1 at its request (R9, R379). -/
def buildAck (s : State) (r : LaneRec) (m : Mhr) (pend both : Bool) : List Byte :=
  let fp := pend && !both
  let psdu := if m.ver < 2 then immAck (m.dsn.getD 0) fp
    else enhAck m fp (if s.on Reg.AMC_CTRL_enh_grid_ie && !both then gridIe s r.angle true else [])
  withFcs r.fcs2 psdu

/-- The format of the acknowledged frame (R156): the lane's profile with the received rate mode or MCS, whitening and FCS
type. -/
def ackPhy (s : State) (r : LaneRec) : PhyParm :=
  let p := phyOf s r.profile
  { p with
    rate := if p.family = 1 ∨ p.family = 3 then r.rate else p.rate, whiten := if p.family = 4 then r.whiten else p.whiten
    fcs2 := r.fcs2 }

/-- A node's queue holds a frame. -/
def hasPending (s : State) (ctx : Option Nat) : Bool :=
  match ctx with
  | some k => !(subQueue s k).isEmpty
  | none => false

/-- The counter of a refusal (R181). -/
def refusalCounter : NoChain → Nat
  | .late => Reg.AMC_CNT_ACK_LATE
  | .noChannel => Reg.AMC_CNT_ACK_NOCHAN
  | .dwell => Reg.AMC_CNT_ACK_DWELL
  | .coex => Reg.AMC_CNT_ACK_COEX
  | .busy => Reg.AMC_CNT_ACK_BUSY

/-- A request is refused: NOACK on its frame (R181). -/
def ackRefuse (s : State) (q : AckReq) (why : NoChain) : State :=
  let s := (s.bump (refusalCounter why)).onAmc (fun a => { a with refusals := a.refusals + 1 })
  s.onFwd (fun f => { f with flights := match tabGet f.flights q.tag with
    | some x => tabPut f.flights q.tag { x with rx := { x.rx with noack := true } }
    | none => f.flights })

/-- What identifies a frame for DUP_REQ (R178): its source, and its frame counter or DSN. -/
def reqKey (m : Mhr) : (Nat × Nat) × (Bool × Nat) :=
  ((m.srcMode, m.src), if m.sec then (true, m.fc) else (false, m.dsn.getD 256))

/-- The ACK command is issued to a chain (R180). -/
def ackGrant (s : State) (q : AckReq) (p : Pick) (psdu : List Byte) (d airUs : Nat) (pend : Bool) : State :=
  -- the calibration would still run at the turnaround start
  let calPre := match (s.chainOf p.chain).cal with
    | some (_, e) => chainState s p.chain == chONCAL && decide (d - 120000 < e)
    | none => false
  let s := setAside s p
  let s := if calPre then s.bump Reg.AMC_CNT_ACK_CALPRE else s
  let s := s.bump Reg.AMC_CNT_ACK_GRANT
  let s := if q.slot then s.bump Reg.AMC_CNT_ACK_SLOT_GRANT else s
  let (ref, s) := newRef s
  let s := s.onAmc (fun a => { a with acks := a.acks ++ [⟨ref, q.ctx, pend⟩] })
  txIssue s p.chain {
    id := ref, issuer := .ackArbiter, cls := .ack, freq := p.freq, power := none, start := some d, airUs := airUs
    profile := q.rcd.profile, occHz := occupiedHz s q.rcd.profile, psdu := psdu, ref := ref, phy := ackPhy s q.rcd
    chan := q.rcd.freq }

/-- One request is decided (R178-R181). -/
def ackDecide (s : State) (q : AckReq) : State :=
  match parseMhr q.rcd.psdu with
  | none => s
  | some m =>
    let key := reqKey m
    let recent := s.amc.recent.filter (fun e => decide (q.at_ < e.2.2 + 1000000))
    let again := (key.2.1 || m.dsn.isSome) && recent.any (fun e => e.1 == key.1 && e.2.1 == key.2)
    let s := s.onAmc (fun a => { a with recent := if again then recent else recent ++ [(key.1, key.2, q.at_)] })
    if again || !s.on Reg.AMC_CTRL_enable then ackRefuse s q .busy
    else
      let pend := hasPending s q.ctx && !q.both
      let psdu := buildAck s q.rcd m pend q.both
      let airUs := airtimeOf (ackPhy s q.rcd) psdu.length
      match pickChain s (bandChains q.rcd.band) q.rcd.band q.rcd.freq q.d airUs with
      | .inl why => ackRefuse s q why
      | .inr p => ackGrant s q p psdu q.d airUs pend

/-- The round of a request: the 100 ns that end at a multiple of 100 ns of LTB (log 56). -/
def roundOf (q : AckReq) : Nat := (q.at_ + 99) / 100

/-- The order of requests: round, slot-bound first, earlier D, lower lane (R178). -/
def reqBefore (a b : AckReq) : Bool :=
  let key := fun (q : AckReq) => (roundOf q, if q.slot then 0 else 1, q.d, q.rcd.lane)
  let (a1, a2, a3, a4) := key a
  let (b1, b2, b3, b4) := key b
  decide (a1 < b1 ∨ a1 = b1 ∧ (a2 < b2 ∨ a2 = b2 ∧ (a3 < b3 ∨ a3 = b3 ∧ a4 < b4)))

/-- A request inserted in its place. -/
def reqInsert (q : AckReq) : List AckReq → List AckReq
  | [] => [q]
  | x :: r => if reqBefore q x then q :: x :: r else x :: reqInsert q r

/-- The round of a request ended 100 ns ago. -/
def roundDue (s : State) (q : AckReq) : Bool := decide ((roundOf q + 1) * 100 ≤ s.ltb)

/-- ACK_ARBITER_ROUND (R178): decisions on every round that ended 100 ns ago. -/
def ackArbiterRound (s : State) : State :=
  let due := s.amc.reqs.filter (roundDue s)
  let s := s.onAmc (fun a => { a with reqs := a.reqs.filter (fun q => !roundDue s q) })
  (due.foldl (fun l q => reqInsert q l) []).foldl ackDecide s

/-! ### Awaited acknowledgements (R190) -/

/-- Two waits that the same acknowledgement would answer. -/
def sameWait (v w : AckWait) : Bool := v.freq == w.freq && v.profile == w.profile && v.dsn == w.dsn && v.dst == w.dst

/-- An acknowledgement is awaited after a transmission with first symbol at `first` that radiated `airUs`, on the channel
of the frame. A wait that is over stays, to tell a late acknowledgement, until another like it is made. -/
def awaitAck (s : State) (ref : Nat) (issuer : Issuer) (chain first airUs freq : Nat) (a : AirOut) : State :=
  let t := first + airUs * 1000
  let wait := (ackGap s a.parm.family + a.parm.shrUs + (s.chainOf chain).ackExtra) * 1000
  let w : AckWait := {
    ref := ref, issuer := issuer, chain := chain, first := first, deadline := t + wait, freq := freq
    profile := a.parm.profile, dsn := a.dsn, dst := a.dst }
  s.onAmc (fun x => { x with waits := x.waits.filter (fun v => !(v.ended && sameWait v w)) ++ [w] })

/-- A received acknowledgement answers this wait, in time or late. -/
def waitMatches (r : LaneRec) (m : Mhr) (w : AckWait) : Bool :=
  near10 w.freq r.freq && w.profile == r.profile &&
    (match m.dsn with
      | some d => w.dsn == some d
      | none => decide (m.ver = 2) && (m.srcMode, m.src) == w.dst)

/-- A wait that is over: it stays to tell a late acknowledgement. -/
def waitOver (s : State) (ref : Nat) : State :=
  s.onAmc (fun a => { a with waits := a.waits.map (fun w => if w.ref = ref then { w with ended := true } else w) })

def waitDone (s : State) (ref : Nat) : State :=
  s.onAmc (fun a => { a with waits := a.waits.filter (fun w => w.ref != ref) })

/-- A frame whose SFD came before the wait's deadline is still being received on a lane of its channel. -/
def ackInAir (s : State) (w : AckWait) : Bool :=
  s.lanes.any (fun e =>
    match e.2.assign, e.2.rx with
    | some a, some r => near10 a.freq w.freq && a.profile == w.profile && decide (r.sfdLtb ≤ w.deadline) &&
        (laneState s e.1 == laneHEADER || laneState s e.1 == lanePAYLOAD)
    | _, _ => false)

/-! ### CSMA-CA (R187-R189) -/

/-- The checks of R187: amc_status, 0 where the frame may be sent. -/
def planCheck (s : State) (band freq airUs : Nat) : Nat :=
  match (planAt s band freq).head? with
  | none => 1
  | some k =>
    if !s.on (Reg.AMC_PLAN_CFG_async_ok k) then 1
    else if planRetired s k then 2
    else if planReserved s k then 3
    else if dwellOver s k airUs then 4
    else 0

def runOf (s : State) (c : Nat) : Option AsyncRun := tabGet s.amc.runs c
def setRun (s : State) (c : Nat) (r : AsyncRun) : State := s.onAmc (fun a => { a with runs := tabPut a.runs c r })

/-- An air frame that AMC, a chain or SLP held ends, on chain `chain` where it was never sent. -/
def airEnd (s : State) (f : EscFrame) (chain : Nat) (c : Completion) (ok : Bool) : State :=
  let s := s.onEsc (fun e => { e with
    held := e.held.filter (fun x => x.ref != f.ref), sent := e.sent.filter (fun x => x.2.ref != f.ref) })
  -- frames sent to the node (R284); when it counts is the model's (log 25)
  let s := match ok, f.air.bind (·.hop) with
    | true, some k => s.cset k Cx.tx_count (s.cget k Cx.tx_count + 1)
    | _, _ => s
  escEnd (fusRelease s f.ref) (if f.first.isNone then { f with chain := chain } else f) (!ok) c

/-- A CSMA run ends with an amc_status and tx_status. -/
def runEnd (s : State) (c : Nat) (r : AsyncRun) (amc tx : Nat) : State :=
  let s := s.onAmc (fun a => { a with runs := tabDel a.runs c, waits := a.waits.filter (fun w => w.ref != r.frame.ref || w.ended) })
  let s := if amc = 5 ∨ amc = 6 then s.raise 138 c else s
  airEnd s r.frame c { amc := amc, tx := tx } (amc == 0 && tx == 0)

/-- A backoff begins, after the checks of R187. -/
def startBackoff (s : State) (c : Nat) (r : AsyncRun) : State :=
  let airUs := (r.frame.air.map (·.parm.airUs)).getD 0
  let st := planCheck s (chainBand c) r.freq airUs
  if st ≠ 0 then runEnd (s.bump Reg.AMC_CNT_ASYNC_REFUSED) c r st 0
  else
    let (k, s) := s.drawRandom (2 ^ r.be)
    setRun s c { r with cmd := none, backoff := some (s.ltb + k * atLeast1 (s.get Reg.AMC_CSMA_CFG2_unit_us) * 1000) }

/-- A run of a frame begins with the CSMA parameters in force. -/
def runStart (s : State) (c : Nat) (f : EscFrame) (freq : Nat) : State :=
  let maxBe := min 8 (s.get Reg.AMC_CSMA_CFG_max_be)
  let minBe := min maxBe (s.get Reg.AMC_CSMA_CFG_min_be)
  startBackoff s c { frame := f, freq := freq, be := minBe, minBe := minBe, maxBe := maxBe
                     maxBackoffs := s.get Reg.AMC_CSMA_CFG_max_backoffs
                     maxRetries := s.get Reg.AMC_CSMA_CFG_max_retries }

/-- The CCA of a channel (R189): 0 clear, 1 busy. -/
def ccaBusy (s : State) (band freq : Nat) : Bool :=
  let lanes := (s.lanes.filter (fun e =>
    (match e.2.assign with
      | some a => a.band == band && near10 a.freq freq
      | none => false) && laneState s e.1 != laneOFF && laneState s e.1 != laneRETIRED)).map (·.1)
  let energy := fun (n : Nat) => decide (s.sget Reg.AMC_CSMA_CFG2_cca_thr ≤ s.sget (Reg.CHZ_LANE_ED_ed n))
  let carrier := laneMid s
  if lanes.isEmpty then !s.on Reg.AMC_CSMA_CFG_cca_nolane
  else match s.get Reg.AMC_CSMA_CFG_cca_mode with
    | 0 => lanes.any energy
    | 1 => lanes.any carrier
    | 2 => lanes.any (fun n => energy n || carrier n)
    | _ => lanes.any (fun n => energy n && carrier n)

/-- A busy channel or a collision: one more backoff, or CHANNEL_ACCESS_FAILURE (R188). -/
def backOff (s : State) (c : Nat) (r : AsyncRun) : State :=
  if r.maxBackoffs < r.nb + 1 then runEnd (s.bump Reg.AMC_CNT_CSMA_CAF) c r 5 0
  else startBackoff s c { r with nb := r.nb + 1, be := min (r.be + 1) r.maxBe }

/-- The ASYNC command of a run is issued, ASAP. -/
def runIssue (s : State) (c : Nat) (r : AsyncRun) (a : AirOut) : State :=
  let (id, s) := newRef s
  let s := setRun s c { r with backoff := none, cmd := some id }
  txIssue s c {
    id := id, issuer := .async, cls := .async, freq := (nearSlot s c r.freq).getD r.freq, power := r.frame.power
    start := none, airUs := a.parm.airUs, profile := a.parm.profile, occHz := a.parm.occHz
    psdu := withFcs a.parm.fcs2 a.psdu, ref := r.frame.ref, phy := a.parm.phy, chan := r.freq }

/-- BACKOFF_EXPIRY (R188, R189). A channel that left the plan, was retired or became reserved during the backoff ends the
frame here. -/
def backoffExpiry (s : State) (c : Nat) : State :=
  match runOf s c with
  | none => s
  | some r => match r.backoff, r.frame.air with
    | some due, some a =>
      let st := planCheck s (chainBand c) r.freq 0
      if s.ltb < due then s
      else if 1 ≤ st ∧ st ≤ 3 then runEnd (s.bump Reg.AMC_CNT_ASYNC_REFUSED) c r st 0
      else if ccaBusy s (chainBand c) r.freq then backOff (s.bump Reg.AMC_CNT_CSMA_BUSY) c r
      else runIssue s c r a
    | _, _ => s

/-- The acknowledgement of a run's frame was received, or not (R188). -/
def runAcked (s : State) (c : Nat) (r : AsyncRun) (acked : Bool) : State :=
  if acked then runEnd (s.bump Reg.AMC_CNT_TX_ACKED) c r 0 0
  else if r.maxRetries < r.tries + 1 then runEnd (s.bump Reg.AMC_CNT_TX_NOACK) c r 6 0
  else startBackoff s c { r with tries := r.tries + 1, nb := 0, be := r.minBe }

/-- The command of a run ended with a tx_status (R188). -/
def runTxEnd (s : State) (e : TxEnd) : State :=
  match runOf s e.chain with
  | none => s
  | some r =>
    if r.cmd ≠ some e.cmd.id then s
    else
      let f := r.frame.after e
      let r := { r with frame := f, cmd := none }
      -- the holdoff of a beacon answer runs from its first symbol (R197)
      let s := match f.ref, f.plan, e.first with
        | 0, some k, some t => s.onAmc (fun a => { a with ebrAt := tabPut a.ebrAt k t })
        | _, _, _ => s
      match e.status, f.air with
      | 0, some a =>
        let s := if f.ref = 0 then s.bump Reg.AMC_CNT_EB_SENT else s
        if a.ar then
          awaitAck (setRun s e.chain r) f.ref .async e.chain (e.first.getD 0) e.airUs e.cmd.chan a
        else runEnd s e.chain r 0 0
      | 6, _ => backOff (s.bump Reg.AMC_CNT_CSMA_CD) e.chain r
      | 7, _ => startBackoff s e.chain r
      | st, _ => runEnd s e.chain r 0 st

/-! ### Beacons (R195, R196) -/

def ebFreq (s : State) (b : Nat) : Nat := ebCur s (if b = 0 then Reg.AMC_EB_CHANA_freq_khz else Reg.AMC_EB_CHANB_freq_khz)
def ebProfile (s : State) (b : Nat) : Nat := ebCur s (if b = 0 then Reg.AMC_EB_CHANA_profile else Reg.AMC_EB_CHANB_profile)
def ebValid (s : State) (b : Nat) : Bool := ebOn s (if b = 0 then Reg.AMC_EB_CHANA_valid else Reg.AMC_EB_CHANB_valid)
def ebPeriod (s : State) : Nat := atLeast1 (ebCur s Reg.AMC_EB_CFG_eb_period)
def ebAngle (s : State) : Nat := ebCur s Reg.AMC_EB_CFG_eb_angle

/-- The site IE (R194); joins are accepted while join_unsec is 1 (log 23). -/
def siteIe (s : State) : List Byte :=
  let flags := twinRole s + (if s.on Reg.JWL_CTRL_join_unsec then 4 else 0) + (if ebValid s 0 then 8 else 0) +
    (if ebValid s 1 then 16 else 0)
  kazongIe 0x04 (leOctets 2 (s.get Reg.AMC_SITE_district_id) ++ leOctets 2 (s.get Reg.AMC_SITE_site_id) ++
    leOctets 1 flags ++ leOctets 2 (ebPeriod s) ++ leOctets 2 (ebAngle s) ++
    leOctets 4 (chanEntry (ebFreq s 0) 0 0) ++ leOctets 4 (chanEntry (ebFreq s 1) 1 0))

def reservedIe (s : State) : List Byte :=
  let l := ownRsv s
  kazongIe 0x02 (leOctets 1 l.length ++ l.flatMap (fun o => leOctets 4 (chanEntry o.2.1 o.2.2.1 (o.2.2.2 / 1000))))

/-- The valid retired channels in order, as channel entries. -/
def retiredEntries (s : State) : List Nat :=
  ((List.range 32).filter (fun k => s.on (Reg.CHZ_RCH_FREQ_valid k))).map (fun k =>
    chanEntry (s.get (Reg.CHZ_RCH_FREQ_freq_khz k)) (s.get (Reg.CHZ_RCH_FREQ_band k))
      (s.get (Reg.CHZ_RCH_WIDTH_width_khz k)))

/-- The payload template, with HT1 before it. -/
def beaconPayload (s : State) : List Byte :=
  let n := min 64 (ebCur s Reg.AMC_EB_PL_LEN_pl_len)
  let template := (List.range 16).flatMap (fun i => leOctets 4 (ebCur s (Reg.AMC_EB_PL_octets i)))
  if n = 0 then [] else leOctets 2 (0x7E * 128) ++ template.take n

/-- A beacon of band `b` in profile `p` whose first symbol leaves at `angle` (R196): PSDU without FCS and the place of
the next retired entry; none where it does not fit. -/
def buildBeacon (s : State) (b p angle : Nat) : Option (List Byte × Nat) :=
  let all := retiredEntries s
  let pos := tabGetD s.amc.ebPos b 0 % max 1 all.length
  let front := frameControl 0 false false false false false true 0 2 3 ++ leOctets 1 (tabGetD s.amc.bsn b 0) ++
    leOctets 2 (panId s) ++ leOctets 8 (siteEui s) ++ gridIe s angle false ++ siteIe s ++ reservedIe s
  let back := beaconPayload s
  let fixed := front.length + 8 + back.length + profFcs s p
  if profMaxPsdu s p < fixed then none
  else
    let n := min (min 16 all.length) ((profMaxPsdu s p - fixed) / 4)
    let carried := (List.range n).map (fun i => all.getD ((pos + i) % max 1 all.length) 0)
    let retired := kazongIe 0x03 (leOctets 1 all.length ++ leOctets 1 pos ++ carried.flatMap (leOctets 4))
    some (front ++ retired ++ back, (pos + n) % max 1 all.length)

/-- The copies of a profile's transmit parameters for a PSDU of `n` octets (R154); `ver` tells the acknowledgement it
asks for (R244). -/
def parmOf (s : State) (p n ver : Nat) : TxParm :=
  { phy := phyOf s p, profile := p, family := profFamily s p, band := profBand s p, fcs2 := profFcs s p == 2, occHz := occupiedHz s p
    maxPsdu := profMaxPsdu s p, n := n, airUs := airtime s p n, shrUs := shrUs s p
    ackUs := airtime s p ((if ver = 2 then 24 else 3) + profFcs s p) }

/-- A beacon was built: the sequence number and the retired entries move on. -/
def beaconNext (s : State) (b pos : Nat) : State :=
  s.onAmc (fun a => { a with bsn := tabPut a.bsn b ((tabGetD a.bsn b 0 + 1) % 256), ebPos := tabPut a.ebPos b pos })

/-- The beacon is skipped (R195, R335). -/
def beaconSkip (s : State) (b cause : Nat) : State := (s.bump Reg.AMC_CNT_EB_SKIP).raise 134 b cause

/-- Waiting writes whose beacon instant has been reached take effect, and reservations are compared again (R9, R202). -/
def ebSettle (s : State) : State :=
  if ebPassed s then conflictScan ((s.takeEffect ebFields).onAmc (fun a => { a with ebSince := none })) else s

/-- A write of such a field waits for the next beacon instant, or acts at once while AMC is disabled (R9). -/
def ebWritten (s : State) : State :=
  if !s.on Reg.AMC_CTRL_enable then conflictScan (s.takeEffect ebFields)
  else if ebFields.any (fun f => (tabGet s.inForce f.key).isSome) then
    s.onAmc (fun a => { a with ebSince := some (a.ebSince.getD (liveAngle s)) })
  else s

/-- The next beacon instant after the live angle: its cycle (R195). -/
def beaconCycle (s : State) : Nat := cycleAfter (ebPeriod s) (ebAngle s) (liveAngle s)

/-- Beacons go out on band `b`, and the target of the next one is not fixed yet. -/
def beaconArmed (s : State) (b : Nat) : Bool :=
  s.on Reg.AMC_CTRL_enable && ebOn s Reg.AMC_CTRL_eb_en && ebValid s b && !balOff s &&
    tabGet s.amc.ebDone b != some (beaconCycle s)

/-- The fixing of a beacon's target (R45, R195). -/
def beaconFix (s : State) (b : Nat) : State :=
  let s := ebSettle s
  let c := beaconCycle s
  let target := c * 65536 + ebAngle s
  if !beaconArmed s b || !targetNear s target 0 then s
  else
    let s := s.onAmc (fun a => { a with ebDone := tabPut a.ebDone b c })
    let p := ebProfile s b
    let d := (ltbOf s target).toNat
    if chanRetired s b (ebFreq s b) (occupiedHz s p) then beaconSkip s b 1
    else match buildBeacon s b p target with
      | none => beaconSkip s b 3
      | some (psdu, pos) =>
        let n := psdu.length + profFcs s p
        match pickChain s (bandChains b) b (ebFreq s b) d (airtime s p n) with
        | .inl .dwell => beaconSkip s b 2
        | .inl _ => beaconSkip s b 0
        | .inr k =>
          let (ref, s) := newRef (beaconNext (setAside s k) b pos)
          txIssue s k.chain {
            id := ref, issuer := .beacon, cls := .slot, freq := k.freq, power := none, start := some d
            airUs := airtime s p n, profile := p, occHz := occupiedHz s p
            psdu := withFcs (profFcs s p == 2) psdu, ref := ref, phy := phyOf s p, chan := ebFreq s b }

/-- After a step or a load of the count, which took `s0` to `s`: the beacons whose target lay in the skipped range are
late, and a late beacon finds no eligible chain (R45, R54, R56, R179, R195). -/
def beaconsLate (s0 s : State) : State :=
  [0, 1].foldl (fun s b =>
    let c := beaconCycle s0
    if beaconArmed s0 b && !balOff s && !angleAfter (c * 65536 + ebAngle s0) (angleAhead s s.ltb) then
      beaconSkip (s.onAmc (fun a => { a with ebDone := tabPut a.ebDone b c })) b 0
    else s) s

/-- The frame of an Enhanced Beacon Request's answer (R197): `angle` is that of its first symbol. -/
def ebrFrame (s : State) (chain plan p angle : Nat) : Option (EscFrame × Nat) :=
  (buildBeacon s (chainBand chain) p angle).map (fun (psdu, pos) =>
    let n := psdu.length + profFcs s p
    ({ ref := 0, port := chain, svc := 0, plan := some plan
       air := some { parm := parmOf s p n 2, psdu := psdu, ar := false, ver := 2, dsn := none, dst := (0, 0), hop := none } },
     pos))

/-- ASYNC_START (R187, R188, R197): of the frame ESC handed to the chain, else of a beacon answer of its band. -/
def asyncStart (s : State) (c : Nat) : State :=
  if !s.on Reg.AMC_CTRL_enable || (runOf s c).isSome then s
  else match tabGet s.amc.handed c with
    | some (f, freq) => runStart (s.onAmc (fun a => { a with handed := tabDel a.handed c })) c f freq
    | none => match s.amc.answers.find? (fun e => planBand s e.1 == chainBand c) with
      | none => s
      | some (plan, p) =>
        let s := s.onAmc (fun a => { a with answers := a.answers.erase (plan, p) })
        match ebrFrame s c plan p (angleAhead s (s.ltb + 120000)) with
        | none => beaconSkip s (chainBand c) 3
        | some (f, pos) => runStart (beaconNext s (chainBand c) pos) c f (planFreq s plan)

/-- At the turnaround of a beacon answer its grid-time IE takes the angle of its first symbol, now known (R192). -/
def ebrAngle (s : State) (c : Nat) : State :=
  match (s.chainOf c).active with
  | some cmd =>
    if cmd.issuer = .async ∧ cmd.ref = 0 ∧ (s.chainOf c).started then
      let body := cmd.psdu.take (cmd.psdu.length - fcsLen cmd.phy.fcs2)
      let ie := leOctets 6 (angleAhead s (cmd.start.getD 0))
      let body := body.take 19 ++ ie ++ body.drop 25
      s.onChain c (fun x => { x with active := some { cmd with psdu := withFcs cmd.phy.fcs2 body } })
    else s
  | none => s

/-! ### Beacons received and neighbours (R198-R201) -/

/-- The fields of a site IE (R194). -/
structure SiteInfo where
  district : Nat
  site     : Nat
  role     : Nat
  period   : Nat
  angle    : Nat
  chanA    : Option Nat
  chanB    : Option Nat

def siteInfo (m : Mhr) : Option SiteInfo :=
  (kazongBodyOf m 0x04 17).map (fun l => {
    district := ofLe (octetsAt l 0 2), site := ofLe (octetsAt l 2 2), role := octet l 4 % 4
    period := atLeast1 (ofLe (octetsAt l 5 2)), angle := ofLe (octetsAt l 7 2)
    chanA := if bits (octet l 4) 3 1 = 1 then some (ofLe (octetsAt l 9 4)) else none
    chanB := if bits (octet l 4) 4 1 = 1 then some (ofLe (octetsAt l 13 4)) else none })

/-- The reservations of the reserved-channel IEs (R191, R193); an entry holds 16 (R199). -/
def reservedChans (m : Mhr) : List Nat :=
  (((kazongBodies m 0x02).filter (fun l => decide (octet l 0 ≤ 16 ∧ l.length = 1 + 4 * octet l 0))).flatMap (fun l =>
    (List.range (octet l 0)).map (fun i => ofLe (octetsAt l (1 + 4 * i) 4)))).take 16

/-- The table entry of a neighbour. -/
def nbFind (s : State) (i : SiteInfo) : Option (Nat × Neighbour) :=
  s.amc.nb.find? (fun e => e.2.state != 0 && e.2.district == i.district && e.2.site == i.site)

/-- The entry a new neighbour takes (R201). -/
def nbPlace (s : State) : Option Nat :=
  match (List.range 32).find? (fun k => (tabGetD s.amc.nb k {}).state == 0) with
  | some k => some k
  | none =>
    ((s.amc.nb.filter (fun e => e.2.state == 3)).foldl (fun m e => match m with
      | none => some e
      | some b => if e.2.goneAt < b.2.goneAt then some e else m) (none : Option (Nat × Neighbour))).map (·.1)

/-- A neighbour's beacon was received at this angle and LTB (R199). Its cycle is that of the nearest instant of its
eb_angle by this site's own angle (log 57). -/
def nbBeacon (s : State) (i : SiteInfo) (rsv : List Nat) (angle ltb : Nat) : State :=
  let cyc := (angle + 32768 + angleMod - i.angle) % angleMod / 65536
  let entry : Neighbour := {
    state := 1, district := i.district, site := i.site, role := i.role, period := i.period, angle := i.angle
    chanA := i.chanA, chanB := i.chanB, rsv := rsv, lastCyc := cyc, lastLtb := ltb, tested := cyc }
  let put := fun (s : State) (k : Nat) => s.onAmc (fun a => { a with nb := tabPut a.nb k entry })
  if !s.on Reg.AMC_CTRL_nb_en then s
  else match nbFind s i with
    | some (k, old) =>
      let s := put s k
      conflictScan (if old.state = 2 then s.raise 131 k else if old.state = 3 then s.raise 128 k else s)
    | none => match nbPlace s with
      | some k => conflictScan ((put s k).raise 128 k)
      | none => raiseFirst (s.bump Reg.AMC_CNT_NB_FULL) 132

/-- NEIGHBOUR_BEACON_MISSED (R199, R200): the test at the instant plus nb_win, of the instant as it was reached. -/
def neighbourMissed (s : State) (k : Nat) : State :=
  let s := nbReached s
  let n := tabGetD s.amc.nb k {}
  match n.reached with
  | none => s
  | some (next, covered, win, limit) =>
    let due := (next * 65536 + n.angle + win) % angleMod
    if balOff s ∨ n.state ≠ 1 ∨ angleAfter due (liveAngle s) then s
    else
      let n := { n with tested := next, reached := none }
      let put := fun (s : State) (x : Neighbour) => s.onAmc (fun a => { a with nb := tabPut a.nb k x })
      if !covered ∨ !s.on Reg.AMC_CTRL_nb_en then put s n
      else
        let s := s.bump Reg.AMC_CNT_NB_MISS
        if limit ≤ n.miss + 1 then
          (put s { n with state := 2, miss := n.miss + 1, hold := s.get Reg.AMC_NB_CFG2_nb_hold }).raise 129 k
        else put s { n with miss := n.miss + 1 }

/-- A grid cycle has begun: one less of nb_hold is left to each absent neighbour (R199). -/
def nbCycle (s : State) : State :=
  s.onAmc (fun a => { a with nb := a.nb.map (fun e => (e.1, if e.2.state = 2 then { e.2 with hold := e.2.hold - 1 } else e.2)) })

/-- NEIGHBOUR_HOLD_EXPIRY (R199): nb_hold grid cycles have begun since. -/
def neighbourHold (s : State) (k : Nat) : State :=
  let n := tabGetD s.amc.nb k {}
  if !s.on Reg.AMC_CTRL_nb_en ∨ n.state ≠ 2 ∨ n.hold ≠ 0 then s
  else
    conflictScan ((s.onAmc (fun a => { a with nb := tabPut a.nb k { n with state := 3, rsv := [], goneAt := s.ltb } })).raise 130 k)

/-- A received beacon (R198), but for its delivery to the host. -/
def beaconReceived (s : State) (r : LaneRec) (m : Mhr) : State :=
  let s := s.bump Reg.AMC_CNT_EB_RX
  match siteInfo m with
  | none => s
  | some i =>
    if i.district = s.get Reg.AMC_SITE_district_id ∧ i.site = s.get Reg.AMC_SITE_site_id then
      let s := if twinRole s != 0 then s.bump Reg.TWN_CNT_PART_EB else s
      if i.role = twinRole s then (s.bump Reg.AMC_CNT_SITE_CLASH).raise 136 else s
    else nbBeacon s i (reservedChans m) r.angle r.ltb

/-! ### Enhanced Beacon Requests (R197) -/

/-- The command identifier of a MAC command frame: the first octet after the IEs (log 12). -/
def skipPayloadIes : Nat → List Byte → List Byte
  | 0, _ => []
  | n + 1, l =>
    match takeLe 2 l with
    | none => []
    | some (d, r) => if bits d 11 4 = 0xF then r else skipPayloadIes n (r.drop (bits d 0 11))

def commandId (m : Mhr) (p : List Byte) : Option Nat :=
  let rest := p.drop m.hdr
  let rest := if m.ends = 1 then skipPayloadIes 64 rest else rest
  (rest.head?).map (·.toNat)

/-- An answer on a plan entry waits, or is being sent. -/
def ebrPending (s : State) (k : Nat) : Bool :=
  s.amc.answers.any (fun e => e.1 == k) || s.amc.runs.any (fun e => e.2.frame.ref == 0 && e.2.frame.plan == some k)

/-- A request is answered by one beacon per plan entry and holdoff, which runs from the first symbol of the last answer; one
that arrives before a waiting answer has ended is ignored too: DESIGN CHOICE (log 316). -/
def ebrReceived (s : State) (band freq profile : Nat) : State :=
  match (planAt s band freq).find? (fun k => s.on (Reg.AMC_PLAN_CFG_ebr_ok k)) with
  | none => s
  | some k =>
    let held := ebrPending s k || match tabGet s.amc.ebrAt k with
      | some t => decide (s.ltb < t + s.get Reg.AMC_EBR_CFG_ebr_holdoff * 1000000)
      | none => false
    if !s.on Reg.AMC_CTRL_ebr_en then s
    else if held then s.bump Reg.AMC_CNT_EBR_IGNORED
    else s.onAmc (fun a => { a with answers := a.answers ++ [(k, profile)] })

/-! ### Enable (R206) -/

def laneOn (s : State) : Bool := (List.range 128).any (fun n => s.on (Reg.CHZ_LANE_CTRL_enable n))

/-- AMC_ENABLE (R19, R282): pool 0 is claimed, and what the registers hold is in force (R9). -/
def amcEnable (s : State) : State :=
  if s.on Reg.AMC_CTRL_enable || !s.on Reg.BAL_CTRL_enable || !laneOn s then s
  else match claimAll s 0x17 [32] with
    | (true, s) =>
      ((s.set Reg.AMC_CTRL_enable 1).takeEffect (Reg.AMC_ACK_CFG_refuse_thr :: ebFields)).onAmc (fun a => { a with
        ebSince := none, ebDone := [] })
    | (false, s) => s

/-- AMC_DISABLE (R206): a beacon whose turnaround has not started is not sent. -/
def amcDisable (s : State) : State :=
  if !s.on Reg.AMC_CTRL_enable then s
  else
    let s := releaseAll ((s.set Reg.AMC_CTRL_enable 0).onAmc (fun a => { a with answers := [] })) 0x17 [32]
    let s := s.amc.runs.foldl (fun s e =>
      let s := runEnd s e.1 e.2 7 0
      match e.2.cmd with
      | some id => commandWithdraw s e.1 id
      | none => s) s
    let s := (List.range 4).foldl (fun s n => ((heldCmds (s.chainOf n)).filter (fun c => c.issuer == .beacon)).foldl
      (fun s c => commandWithdraw s n c.id) s) s
    s.amc.handed.foldl (fun s e =>
      airEnd (s.onAmc (fun a => { a with handed := tabDel a.handed e.1 })) e.2.1 e.1 { amc := 7 } false) s

end Sys2Proof.Machine
end

