-- ==== Sys2Proof/Machine/EscOps.lean ====
section
/-! DEFINITION. The Escapement's releases (chapter 09): service order, slot occurrences, ASYNC and TEST releases, the
end of slot frames, the slot banks. -/

namespace Sys2Proof.Machine

/-! ### Service order (R241) -/

/-- The list rotated to begin with its first element that is not below `k`. -/
def rotateAt {α : Type} (key : α → Nat) (k : Nat) (l : List α) : List α :=
  l.filter (fun x => decide (k ≤ key x)) ++ l.filter (fun x => decide (key x < k))

/-- Services of a port with prio `p` and a bit in `mask`. -/
def svcClass (s : State) (port mask p : Nat) : List Nat :=
  (List.range 16).filter (fun v => bits mask v 1 == 1 && s.get (Reg.ESC_SVC_CTRL_prio (16 * port + v)) == p)

/-- The charge of an air frame's acknowledgement, µs (R244). -/
def ackUsOf (s : State) (a : AirOut) : Nat := if a.ar then ackGap s a.parm.family + a.parm.ackUs else 0

/-- The length charged for a queued frame on port `p` (R244). -/
def frameCharge (s : State) (p : Nat) (f : EscFrame) : Nat :=
  match f.air with
  | some a => chargeLen s p f.test a.parm.n a.parm.airUs (ackUsOf s a)
  | none => f.octets.length

/-- The frames of one service that a port may still examine, in turn. -/
structure Turn where
  svc    : Nat
  frames : List EscFrame

/-- The oldest frame of service `v` in each subscriber queue, in turn; for `own` also that of the port's own queue. -/
def svcFrames (s : State) (port : Nat) (own : Bool) (v : Nat) : List EscFrame :=
  let subs := if port < 4 then s.esc.sub.filterMap (fun e => (e.2.find? (fun f => f.svc == v)).map (fun f => (e.1, f)))
    else []
  let own := if own then ((svcQueue s (16 * port + v)).head?).map (fun f => (2 ^ 17, f)) else none
  (rotateAt (·.1) (tabGetD s.esc.lastSub (16 * port + v) 0) (subs ++ own.toList)).map (·.2)

/-- A service's place in deficit round robin: how often it is visited until its deficit pays for its next frame, and its
place in the round. The service last served goes on without a quantum while its deficit lasts. -/
structure Visit where
  rounds : Nat
  pos    : Nat
  svc    : Nat
  frame  : EscFrame

def quantum (s : State) (n : Nat) : Nat := 64 * atLeast1 (s.get (Reg.ESC_SVC_CTRL_weight n))

/-- The place of service `v` in the round after `last`, which comes first only while its deficit lasts. -/
def drrPos (last v : Nat) : Nat := if v = last then 16 else (v + 16 - last) % 16

/-- The visit that frame `f` of service `v` waits for. -/
def drrVisit (s : State) (port prio v : Nat) (f : EscFrame) : Visit :=
  let last := tabGetD s.esc.lastSvc (4 * port + prio) 0
  let n := 16 * port + v
  let short := (frameCharge s port f : Int) - tabGetD s.esc.deficit n 0
  ⟨if v = last ∧ short ≤ 0 then 0 else max 1 ((short + quantum s n - 1) / quantum s n).toNat, drrPos last v, v, f⟩

/-- The visit that comes first. -/
def drrFirst (l : List Visit) : Option Visit :=
  l.foldl (fun m x => match m with
    | none => some x
    | some b => if x.rounds < b.rounds ∨ x.rounds = b.rounds ∧ x.pos < b.pos then some x else some b) none

/-- Frame `x` is served: every service that was visited and has a frame to serve takes its quanta, and the frame's length is
paid. -/
def drrServe (s : State) (port prio : Nat) (all : List Visit) (x : Visit) : State :=
  let s := all.foldl (fun s y =>
    let n := 16 * port + y.svc
    let visits := if x.rounds = 0 then 0 else if y.pos ≤ x.pos then x.rounds else x.rounds - 1
    s.onEsc (fun e => { e with deficit := tabPut e.deficit n (tabGetD e.deficit n 0 + ((visits * quantum s n : Nat) : Int)) })) s
  let n := 16 * port + x.svc
  s.onEsc (fun e => { e with
    deficit := tabPut e.deficit n (tabGetD e.deficit n 0 - (frameCharge s port x.frame : Int))
    lastSvc := tabPut e.lastSvc (4 * port + prio) x.svc
    lastSub := tabPut e.lastSub n (x.frame.ctx.getD (2 ^ 17) + 1) })

/-- The services of a class in the order in which a round examines them: the one last served first while it has deficit left,
else last; the others after it in turn. -/
def drrOrder (s : State) (port prio : Nat) (turns : List Turn) : List Turn :=
  let last := tabGetD s.esc.lastSvc (4 * port + prio) 0
  let mine := turns.filter (fun t => t.svc == last)
  let others := rotateAt (·.svc) (last + 1) (turns.filter (fun t => t.svc != last))
  (if 0 < tabGetD s.esc.deficit (16 * port + last) 0 then mine ++ others else others ++ mine).filter (fun t => !t.frames.isEmpty)

/-- The first of the passing frames in the order of the rounds is served. -/
def drrDone (s : State) (port prio : Nat) (passing : List Visit) : Option EscFrame × State :=
  match drrFirst passing with
  | none => (none, s)
  | some x => (some x.frame, drrServe s port prio passing x)

/-- Frames of a prio class are examined, service by service; a frame that fails leaves its place to the next of its service, and
a service of which none passes adds nothing to its deficit (R241). A frame that its service's first visit pays for is
served at once; else the services whose frame has passed go on in rounds. At most `n` frames are examined; what is left of
the limit is answered too. -/
def selectClass (test : State → EscFrame → Bool × State) (port prio : Nat) :
    Nat → State → List Turn → List Visit → Option EscFrame × Nat × State
  | 0, s, _, passing => let (f, s) := drrDone s port prio passing; (f, 0, s)
  | n + 1, s, todo, passing =>
    match todo with
    | [] => let (f, s) := drrDone s port prio passing; (f, n + 1, s)
    | t :: rest => match t.frames with
      | [] => selectClass test port prio n s rest passing
      | f :: fs =>
        let x := drrVisit s port prio t.svc f
        match test s f with
        | (true, s) =>
          if x.rounds = 0 ∨ x.rounds = 1 ∧ x.pos < 16 then (some f, n, drrServe s port prio (x :: passing) x)
          else selectClass test port prio n s rest (x :: passing)
        | (false, s) => selectClass test port prio n s (if fs.isEmpty then rest else ⟨t.svc, fs⟩ :: rest) passing

/-- A port selects a frame (R241): strict priority, then deficit round robin; `own` frames of the port beside those of the
subscribers; at most `n` are examined. -/
def selectFrame (test : State → EscFrame → Bool × State) (port mask : Nat) (own : Bool) :
    State → Nat → List Nat → Option EscFrame × State
  | s, _, [] => (none, s)
  | s, n, p :: r =>
    match selectClass test port p n s (drrOrder s port p ((svcClass s port mask p).map (fun v => ⟨v, svcFrames s port own v⟩))) [] with
    | (some f, _, s) => (some f, s)
    | (none, n, s) => selectFrame test port mask own s n r

/-! ### Tests common to releases -/

/-- A frame leaves its queue. -/
def removeFrame (s : State) (f : EscFrame) : State :=
  match f.air, f.ctx with
  | some _, some k => setSubQueue s k ((subQueue s k).filter (fun x => x.ref != f.ref))
  | _, _ => setSvcQueue s (16 * f.port + f.svc) ((svcQueue s (16 * f.port + f.svc)).filter (fun x => x.ref != f.ref))

/-- An earlier air frame of the node and service is held by AMC or a chain (R238). -/
def heldEarlier (s : State) (f : EscFrame) : Bool :=
  f.ctx.isSome && f.air.isSome && s.esc.held.any (fun x => x.ctx == f.ctx && x.svc == f.svc)

/-- The context that an air frame needs and that is bad: its destination's or its first hop's (R296). -/
def frameBad (s : State) (f : EscFrame) : Option Nat :=
  match f.air with
  | some a => (f.ctx.toList ++ a.hop.toList).find? (ctxBad s)
  | none => none

/-- A frame that needs a bad context is dropped and counted like one without a counter (R296). -/
def badDrop (s : State) (f : EscFrame) (k : Nat) : State := escEnd (noCounter (removeFrame s f) k) f true { sec := 10 }

/-- Expiry, a bad context and suspension at examination by port `p` (R236, R238, R296). -/
def examFirst (s : State) (p : Nat) (f : EscFrame) : Bool × State :=
  if expired s (16 * p + f.svc) f then (false, escDrop (removeFrame s f) f 5)
  else match frameBad s f with
  | some k => (false, badDrop s f k)
  | none =>
    let susp := match f.ctx with
      | some k => f.air.isSome && s.cget k Cx.suspend == 1
      | none => false
    if susp then (false, if s.on Reg.ESC_CTRL_suspend_drop then escDrop (removeFrame s f) f 8 else s)
    else (true, s)

/-- The same, and no earlier frame of its node and service is held (R238). -/
def examHeld (s : State) (p : Nat) (f : EscFrame) : Bool × State :=
  match examFirst s p f with
  | (ok, s) => (ok && !heldEarlier s f, s)

/-- The buckets of the frame's path, accessed, conform (R242). -/
def bucketsPass (s : State) (p : Nat) (f : EscFrame) : Bool × State :=
  let n := 16 * p + f.svc
  let s := bktAccess (bktAccess s n) (portBkt p)
  let ok := bktConforms s n && bktConforms s (portBkt p)
  match f.air, f.ctx with
  | some _, some k =>
    let s := subAccess s k
    (ok && subConforms s k, s)
  | _, _ => (ok, s)

/-- The frame is charged to every bucket on its path (R245). -/
def chargeAll (s : State) (p len : Nat) (f : EscFrame) : State :=
  let s := bktCharge (bktCharge s (16 * p + f.svc) len) (portBkt p) len
  match f.air, f.ctx with
  | some _, some k => subCharge s k len
  | _, _ => s

/-- The Fusee's release test, with its counter (R247). -/
def fuseeTest (s : State) (band freq occHz a : Nat) : Bool × State :=
  let s := fusBoundary s band freq occHz
  if fusPass s band freq occHz a then (true, s) else (false, s.bump Reg.ESC_CNT_FUSEE_HOLD)

/-- The path of a service, on the port of a chain (R237). -/
def svcPath (s : State) (c v : Nat) : Nat :=
  let p := s.get (Reg.ESC_SVC_CTRL_path (16 * c + v))
  if p = 3 then 1 else p

/-- A released frame is held until it ends. -/
def holdFrame (s : State) (f : EscFrame) : State := (removeFrame s f).onEsc (fun e => { e with held := e.held ++ [f] })

def heldFrame (s : State) (ref : Nat) : Option EscFrame := s.esc.held.find? (fun f => f.ref == ref)

/-- A held frame returns to the head of its service in its queue (R232). -/
def returnFrame (s : State) (f : EscFrame) : State :=
  let s := s.onEsc (fun e => { e with held := e.held.filter (fun x => x.ref != f.ref) })
  match f.ctx with
  | some k =>
    let q := subQueue s k
    setSubQueue s k (q.takeWhile (fun x => x.svc != f.svc) ++ f :: q.dropWhile (fun x => x.svc != f.svc))
  | none => setSvcQueue s (16 * f.port + f.svc) (f :: svcQueue s (16 * f.port + f.svc))

/-! ### Slot occurrences (R229-R234) -/

def bankAct (s : State) : Nat := s.get Reg.ESC_STATUS_bank_act

def frameLenOf (s : State) (bank : Nat) : Nat :=
  atLeast1 (if bank = 0 then s.get Reg.ESC_FRAME_LEN0_frame_len else s.get Reg.ESC_FRAME_LEN1_frame_len)

/-- SLOTFRAME_BOUNDARY (R229). -/
def slotframeBoundary (s : State) : State :=
  if balOff s ∨ liveAngle s / 65536 % frameLenOf s (bankAct s) ≠ 0 then s
  else
    let sel := s.get Reg.ESC_BANK_bank_sel
    if sel = bankAct s then s
    else ((s.set Reg.ESC_STATUS_bank_act sel).set Reg.ESC_STATUS_bank_pending 0).raise 151 sel

/-- The slotframe after the one that begins at cycle `c`: counts go on at 0 after 2³² (R229). -/
def nextFrame (s : State) (k c : Nat) : Nat :=
  let n := c + frameLenOf s (k / 256)
  if 2 ^ 32 ≤ n then 0 else n

/-- The slotframe of entry `k` in which grid angle `w` lies. -/
def frameAt (s : State) (k w : Nat) : Nat := w / 65536 / frameLenOf s (k / 256) * frameLenOf s (k / 256)

/-- The slotframe of entry `k` whose occurrence, `lead` units early, is the latest reached. -/
def occCycle (s : State) (k lead : Nat) : Nat :=
  let c0 := frameAt s k (liveAngle s)
  let c1 := nextFrame s k c0
  if !s.on Reg.ESC_STATUS_bank_pending && reached s (slotStart s k c1 + angleMod - lead) then c1 else c0

/-- The occurrence is inert (R230) but for its plan entry, or of the inactive bank. -/
def occInert (s : State) (k : Nat) : Bool :=
  !s.on (Reg.ESC_SLOT_B_valid k) || k / 256 != bankAct s ||
    decide (frameLenOf s (k / 256) ≤ s.get (Reg.ESC_SLOT_A_cyc k))

/-- Transmit occurrences are decided at all (R234, R249). -/
def txDeciding (s : State) : Bool :=
  s.on Reg.ESC_CTRL_enable && !balOff s && !(s.on Reg.ESC_CTRL_hold_stop && s.get Reg.BAL_STATUS_state != 2) &&
    !(s.on Reg.ESC_CTRL_cyc_gate && !s.on Reg.BAL_STATUS_cyc_valid)

/-- How early an occurrence is decided (R231). -/
def decLead (s : State) : Nat := max 1311 (s.get Reg.ESC_SCHED_CFG_dec_lead)

/-- offset − sched_ofs of a node, in 1/16 unit. -/
def phaseDiff (s : State) (k : Nat) : Int :=
  signed 20 ((s.cget k Cx.offset + 2 ^ 20 - s.cget k Cx.sched_ofs) % 2 ^ 20)

/-- Rounded to whole units. -/
def round16 (x : Int) : Int := (x + 8) / 16

/-- The node's row of R231's tests. -/
def slotNode (s : State) (k h : Nat) : Bool × State :=
  let group := s.get (Reg.ESC_SLOT_C_lgroup k)
  let base := !slpServes s h && s.cget h Cx.ofs_valid == 1 && (group == 0xFF || s.cget h Cx.lgroup == group)
  let near := decide ((phaseDiff s h).natAbs ≤ 16 * s.get Reg.ESC_SCHED_CFG2_ofs_tol)
  if base && !near && !s.esc.warned.contains h then
    (false, (s.onEsc (fun e => { e with warned := e.warned ++ [h] })).raise 152 h)
  else (base && near, s)

/-- The first-symbol target of a frame to node `h` in the occurrence at `g`. -/
def slotTarget (s : State) (g h : Nat) : Nat :=
  ((((g + s.get Reg.ESC_SCHED_CFG_tx_offset : Nat) : Int) + round16 (phaseDiff s h)) % angleMod).toNat

/-- The tests of R231 on one frame for entry `k` on chain `c`, in row order. -/
def slotTest (k c g : Nat) (s : State) (f : EscFrame) : Bool × State :=
  match examFirst s c f, f.air with
  | (true, s), some a =>
    match a.hop with
    | none => (false, s)
    | some h =>
      let (ok, s) := slotNode s k h
      let plan := s.get (Reg.ESC_SLOT_B_plan k)
      let path := svcPath s c f.svc
      let start := (ltbOf s (slotTarget s g h)).toNat
      let done := start + (a.parm.airUs + ackUsOf s a) * 1000
      if !ok || !(path == 0 || path == 2) || a.parm.band != chainBand c || heldEarlier s f then (false, s)
      else if ltbOf s ((g + s.get (Reg.ESC_SLOT_B_len k)) % angleMod) < (done : Int) then (false, s)
      else
        let (ok, s) := bucketsPass s c f
        if !ok then (false, s)
        else
          let (ok, s) := fuseeTest s (chainBand c) (planFreq s plan) a.parm.occHz a.parm.airUs
          let fits := match pickChain s [c] (chainBand c) (planFreq s plan) start a.parm.airUs with
            | .inr _ => decide (s.ltb + 300000 + 120000 ≤ start)
            | .inl _ => false
          (ok && fits && !planReserved s plan, s)
  | (_, s), _ => (false, s)

/-- A slot frame is released (R231): a SLOT command whose target is still to be fixed. -/
def slotRelease (s : State) (k c g : Nat) (f : EscFrame) (a : AirOut) : State :=
  let plan := s.get (Reg.ESC_SLOT_B_plan k)
  let target := slotTarget s g (a.hop.getD 0)
  let start := (ltbOf s target).toNat
  match pickChain s [c] (chainBand c) (planFreq s plan) start a.parm.airUs with
  | .inl _ => s
  | .inr p =>
    let s := chargeAll s c (frameCharge s c f) f
    let s := fusHoldFor s (chainBand c) (planFreq s plan) a.parm.occHz a.parm.airUs f.ref
    let (id, s) := newRef (setAside (holdFrame s { f with slot := some k }) p)
    let s := txIssue (s.bump Reg.ESC_CNT_SLOT_SENT) c {
      id := id, issuer := .slot, cls := .slot, freq := p.freq, power := none, start := some start, airUs := a.parm.airUs
      profile := a.parm.profile, occHz := a.parm.occHz, psdu := withFcs a.parm.fcs2 a.psdu, ref := f.ref
      phy := a.parm.phy, chan := planFreq s plan }
    let s := s.onEsc (fun e => { e with sent := tabPut e.sent k { start := g, ref := f.ref } })
    s.onChain c (fun x => { x with angles := x.angles ++ [(id, target)] })

/-- TX_OCCURRENCE_DECISION (R230, R231, R234). Whether its plan entry makes the occurrence inert is seen at its start G; one that
the decision finds behind it is looked at now. -/
def txOccurrence (s : State) (k : Nat) : State :=
  let lead := decLead s
  let cyc := occCycle s k lead
  let g := slotStart s k cyc
  if !txDeciding s || s.on (Reg.ESC_SLOT_B_dir k) || occInert s k || tabGet s.esc.decided k == some cyc ||
      !reached s (g + angleMod - lead) then s
  else
    let s := s.onEsc (fun e => { e with decided := tabPut e.decided k cyc })
    let c := s.get (Reg.ESC_SLOT_B_chain k)
    let mask := s.get (Reg.ESC_SLOT_C_svc_mask k)
    if reached s g then (if planDead s (s.get (Reg.ESC_SLOT_B_plan k)) then s else s.bump Reg.ESC_CNT_SLOT_LATE)
    else if s.esc.sub.all (fun e => e.2.all (fun f => bits mask f.svc 1 == 0)) then s.bump Reg.ESC_CNT_SLOT_IDLE
    else
      match selectFrame (slotTest k c g) c mask false s (atLeast1 (s.get Reg.ESC_SCHED_CFG2_search_max)) [0, 1, 2, 3] with
      | (none, s) => s.bump Reg.ESC_CNT_SLOT_MISS
      | (some f, s) => match f.air with
        | some a => slotRelease s k c g f a
        | none => s

/-- The first occurrence of entry `k` whose decision comes after grid angle `w`: its slotframe. -/
def nextDecision (s : State) (k w : Nat) : Nat :=
  let c0 := frameAt s k w
  let ahead := fun (c : Nat) => angleAfter ((slotStart s k c + angleMod - decLead s) % angleMod) w
  let c1 := nextFrame s k c0
  if ahead c0 then c0 else if ahead c1 then c1 else nextFrame s k c1

/-- A step, or a load of the count, took the live angle from `w` to where it is: the decisions in between are late and are
skipped (R45, R54, R234). -/
def decisionsLate (s : State) (w : Nat) : State :=
  if !txDeciding s then s
  else ((List.range 256).map (fun i => 256 * bankAct s + i)).foldl (fun s k =>
    let c := nextDecision s k w
    if occInert s k || s.on (Reg.ESC_SLOT_B_dir k) || planDead s (s.get (Reg.ESC_SLOT_B_plan k)) ||
        tabGet s.esc.decided k == some c ||
        angleAfter ((slotStart s k c + angleMod - decLead s) % angleMod) (angleAhead s s.ltb) then s
    else (s.onEsc (fun e => { e with decided := tabPut e.decided k c })).bump Reg.ESC_CNT_SLOT_LATE) s

/-- RX_OCCURRENCE_OPEN (R230, R233): its start, where its plan entry and its lanes are looked at, is noted when it is
reached. -/
def rxOccurrenceOpen (s : State) (k : Nat) : State :=
  let guard := s.get Reg.ESC_SCHED_CFG2_rx_guard
  let cyc := occCycle s k guard
  let g := slotStart s k cyc
  if !s.on Reg.ESC_CTRL_enable || balOff s || !s.on (Reg.ESC_SLOT_B_dir k) || occInert s k ||
      tabGet s.esc.decided k == some cyc || !reached s (g + angleMod - guard) ||
      reached s (g + s.get (Reg.ESC_SLOT_B_len k) + guard) then s
  else
    rxReached (s.onEsc (fun e => { e with
      decided := tabPut e.decided k cyc, open_ := tabPut e.open_ k { start := g, guard := guard } }))

/-- RX_OCCURRENCE_CLOSE (R233). -/
def rxOccurrenceClose (s : State) (k : Nat) : State :=
  let s := rxReached s
  match tabGet s.esc.open_ k with
  | none => s
  | some x =>
    if reached s (x.start + s.get (Reg.ESC_SLOT_B_len k) + x.guard) then
      s.onEsc (fun e => { e with open_ := tabDel e.open_ k })
    else s

/-- A released slot frame fails (R232). -/
def slotFailed (s : State) (c : Nat) (f : EscFrame) (tx : Nat) : State :=
  let s := fusRelease (s.bump Reg.ESC_CNT_SLOT_FAIL) f.ref
  let s := if tx = 2 then s.bump Reg.ESC_CNT_SLOT_LATE else s
  let f := { f with fails := f.fails + 1 }
  if f.fails < s.get (Reg.ESC_SVC_CTRL_slot_retries (16 * c + f.svc)) + 1 then returnFrame s f
  else if svcPath s c f.svc = 2 then returnFrame s { f with moved := true }
  else airEnd (s.bump Reg.ESC_CNT_DROP_RETRIES) f c { esc := 6, tx := tx } false

/-- A slot frame's command ended (R232). One whose occurrence was inert was not failed: its frame goes back as it was (R230). -/
def slotTxEnd (s : State) (e : TxEnd) : State :=
  match heldFrame s e.cmd.ref with
  | none => s
  | some f =>
    let f := f.after e
    let gone := occGone s e.cmd
    let s := s.onEsc (fun x => { x with
      held := x.held.map (fun y => if y.ref = f.ref then f else y), sent := x.sent.filter (fun y => y.2.ref != f.ref) })
    match e.status, f.air with
    | 0, some a =>
      if a.ar then awaitAck (fusRelease s f.ref) f.ref .slot e.chain (e.first.getD 0) e.airUs e.cmd.chan a
      else airEnd s f e.chain {} true
    | st, _ => if st = 7 ∧ gone then returnFrame (fusRelease s f.ref) f else slotFailed s e.chain f st

/-- The acknowledgement of a slot frame was received, or not. -/
def slotAcked (s : State) (c ref : Nat) (acked : Bool) : State :=
  match heldFrame s ref with
  | none => s
  | some f => if acked then airEnd s f c {} true else slotFailed s c f 0

/-! ### ASYNC and TEST releases (R237, R239) -/

/-- The lane channel of a frame's first hop (R239, R266): of pref, else of alt. -/
def laneChannel (s : State) (h : Nat) : Option (Nat × Nat) :=
  match ntFind s (s.cget h Cx.eui64) 0 with
  | none => none
  | some i =>
    let usable := fun (n : Nat) => decide (n < 128) && laneState s n != laneOFF && laneState s n != laneRETIRED
    let pref := nget s i Nt.pref
    let alt := nget s i Nt.alt
    let lane := if usable pref then some pref
      else if decide (pref < 128) && nget s i Nt.mh == 1 && usable alt then some alt else none
    lane.bind (fun n => (s.laneOf n).assign.map (fun a => (a.band, a.freq)))

/-- Entries that fail parity where the lane of a frame's first hop is read (R276). -/
def laneUpset (s : State) (f : EscFrame) (upset : List Nat) : State :=
  match f.air.bind (·.hop) with
  | some h => if f.plan.isNone then ntUpset s (ntReads s (s.cget h Cx.eui64) 0) upset else s
  | none => s

/-- The band's default plan entry (R239). -/
def asyncDefault (s : State) (band : Nat) : Option Nat :=
  let (k, on) := if band = 0 then (s.get Reg.ESC_ASYNC_DFLT_plan_a, s.on Reg.ESC_ASYNC_DFLT_valid_a)
    else (s.get Reg.ESC_ASYNC_DFLT_plan_b, s.on Reg.ESC_ASYNC_DFLT_valid_b)
  if on then some k else none

/-- The channel an ASYNC frame takes on chain `c`. -/
def asyncChannel (s : State) (c : Nat) (f : EscFrame) : Option Nat :=
  match f.plan with
  | some k => some (planFreq s k)
  | none =>
    match (f.air.bind (·.hop)).bind (laneChannel s) with
    | some (b, freq) => if b = chainBand c then some freq else (asyncDefault s (chainBand c)).map (planFreq s)
    | none => (asyncDefault s (chainBand c)).map (planFreq s)

/-- The ASYNC path allows the frame on chain `c` (R237). -/
def asyncPath (s : State) (c : Nat) (f : EscFrame) (a : AirOut) : Bool :=
  if f.ctx.isNone then !f.test
  else match a.hop with
    | none => false
    | some h =>
      let path := svcPath s c f.svc
      let waited := decide (f.headAt + s.get (Reg.ESC_SVC_CTRL_async_after (16 * c + f.svc)) * 1000000 ≤ s.ltb)
      a.parm.band == chainBand c && !slpServes s h &&
        (path == 1 || path == 2 && (f.moved || waited || s.cget h Cx.ofs_valid == 0))

/-- The Fusee's airtime for an ASYNC frame (R247). -/
def asyncAir (s : State) (a : AirOut) : Nat := a.parm.airUs * (s.get Reg.AMC_CSMA_CFG_max_retries + 1)

/-- The tests of an ASYNC release on one frame (R239). One that has passed the shapers and has no channel, on which no
regulator could be tested, waits and is counted, and the next is examined: DEDUCED (log 58). -/
def asyncTest (c : Nat) (upset : List Nat) (s : State) (f : EscFrame) : Bool × State :=
  match f.air with
  | none => (false, s)
  | some a =>
    if !asyncPath s c f a then (false, s)
    else match examHeld s c f with
      | (false, s) => (false, s)
      | (true, s) =>
        match bucketsPass s c f with
        | (false, s) => (false, s)
        | (true, s) =>
          let s := laneUpset s f upset
          match asyncChannel s c f with
          | none => (false, s.bump Reg.ESC_CNT_ASYNC_NOCHAN)
          | some freq => fuseeTest s (chainBand c) freq a.parm.occHz (asyncAir s a)

/-- A TEST frame goes to its chain once its buckets and the Fusee pass (R331, R244). -/
def testTry (s : State) (c : Nat) (f : EscFrame) : State :=
  match examHeld s c f, f.air with
  | (true, s), some a =>
    let freq := (f.plan.map (planFreq s)).getD 0
    let (ok, s) := bucketsPass s c f
    let (ok, s) := if ok then fuseeTest s (chainBand c) freq a.parm.occHz a.parm.airUs else (false, s)
    if !ok then s
    else
      let s := fusHoldFor (chargeAll s c (frameCharge s c f) f) (chainBand c) freq a.parm.occHz a.parm.airUs f.ref
      let (id, s) := newRef (holdFrame s f)
      txIssue s c {
        id := id, issuer := .test, cls := .test, freq := (nearSlot s c freq).getD freq, power := f.power, start := f.start
        airUs := a.parm.airUs, profile := a.parm.profile, occHz := a.parm.occHz
        psdu := withFcs a.parm.fcs2 a.psdu, ref := f.ref, phy := a.parm.phy, chan := freq }
  | (_, s), _ => s

/-- The TEST frames that wait at chain `c`. -/
def testRelease (s : State) (c : Nat) : State :=
  let waiting := (List.range 16).filterMap (fun v => (svcQueue s (16 * c + v)).find? (·.test))
  waiting.foldl (fun s f => testTry s c f) s

/-- A TEST frame's command ended. -/
def testTxEnd (s : State) (e : TxEnd) : State :=
  match heldFrame s e.cmd.ref with
  | none => s
  | some f =>
    airEnd s (f.after e) e.chain { tx := e.status } (e.status == 0)

/-- ASYNC_RELEASE (R239): `upset` are entries of the Node Table that fail parity now. -/
def asyncRelease (s : State) (c : Nat) (upset : List Nat) : State :=
  let busy := (tabGet s.amc.handed c).isSome || (match runOf s c with
    | some r => r.frame.ref != 0
    | none => false)
  if !s.on Reg.ESC_CTRL_enable then s
  else
    let s := testRelease s c
    if busy then s
    else match selectFrame (asyncTest c upset) c 0xFFFF true s (2 ^ 20) [0, 1, 2, 3] with
      | (none, s) => s
      | (some f, s) => match f.air, asyncChannel s c f with
        | some a, some freq =>
          let s := chargeAll s c (frameCharge s c f) f
          let s := fusHoldFor s (chainBand c) freq a.parm.occHz (asyncAir s a) f.ref
          let s := (holdFrame s f).bump Reg.ESC_CNT_ASYNC_SENT
          s.onAmc (fun x => { x with handed := tabPut x.handed c (f, freq) })
        | _, _ => s

/-! ### Wired ports (R237) -/

/-- A wired port selects a frame that it can take. -/
def wiredSelect (s : State) (port : Nat) (takes : State → EscFrame → Bool) : Option EscFrame × State :=
  let test := fun (s : State) (f : EscFrame) =>
    if !takes s f then (false, s)
    else match examHeld s port f with
      | (false, s) => (false, s)
      | (true, s) => bucketsPass s port f
  if !s.on Reg.ESC_CTRL_enable then (none, s)
  else
    match selectFrame test port 0xFFFF true s (2 ^ 20) [0, 1, 2, 3] with
    | (none, s) => (none, s)
    | (some f, s) => (some f, chargeAll (removeFrame s f) port (frameCharge s port f) f)

/-! ### Fixing a slot target (R45, R234) -/

/-- The fixing of the targets of chain `c`'s commands that are 200 µs away. A command whose occurrence has turned out inert is
withdrawn (R230). -/
def chainFix (s : State) (c : Nat) : State :=
  let s := rxReached s
  ((s.chainOf c).angles.filter (fun e => targetNear s e.2 0)).foldl (fun s e =>
    let s := s.onChain c (fun x => { x with angles := x.angles.filter (fun y => y.1 != e.1) })
    let start := (ltbOf s e.2).toNat
    let late := decide (start < s.ltb + 120000)
    let fix := fun (x : TxCmd) => if x.id = e.1 then { x with start := some start } else x
    let ch := s.chainOf c
    if ch.started && (ch.active.map (·.id)) == some e.1 then s
    else if (heldCmds ch ++ ch.waiting).any (fun x => x.id == e.1 && occGone s x) then commandWithdraw s c e.1
    else if late then
      match (heldCmds ch ++ ch.waiting).find? (fun x => x.id == e.1) with
      | some cmd => promote (endCmd (s.onChain c (fun x => { x with
          active := x.active.filter (fun y => y.id != e.1), next := x.next.filter (fun y => y.id != e.1)
          waiting := x.waiting.filter (fun y => y.id != e.1) })) c cmd 2 none) c
      | none => s
    else s.onChain c (fun x => { x with active := x.active.map fix, next := x.next.map fix, waiting := x.waiting.map fix })) s

/-! ### Enable (R249) -/

/-- ESC_ENABLE (R19, R282): pool 1 is claimed. -/
def escEnable (s : State) : State :=
  if !s.on Reg.ESC_CTRL_enable && s.on Reg.BAL_CTRL_enable && (List.range 8).any (fun p => s.on (Reg.ESC_PORT_CTRL_cfg p)) then
    match claimAll s 0x18 [33] with
    | (true, s) => s.set Reg.ESC_CTRL_enable 1
    | (false, s) => s
  else s

/-- ESC_DISABLE. -/
def escDisable (s : State) : State :=
  releaseAll ((s.set Reg.ESC_CTRL_enable 0).onEsc (fun e => { e with open_ := [] })) 0x18 [33]

end Sys2Proof.Machine
end

