-- ==== Sys2Proof/Machine/SlpOps.lean ====
section
/-! DEFINITION. Sleepy nodes (chapter 08): the Hairspring's observations and predictions, windows, wake-up
transmissions, fallback, frames after an uplink. -/

namespace Sys2Proof.Machine

def State.onSlp (s : State) (f : Slp → Slp) : State := { s with slp := f s.slp }

/-- The class of a node, and its fields. -/
def slpClass (s : State) (k : Nat) : Nat := s.cget k Cx.slp_class
def slpGuard (s : State) (k : Nat) : Int := s.get (Reg.SLP_CLS_GUARD_guard_us (slpClass s k)) * 1000
def slpMaxNs (s : State) (k : Nat) : Int := atLeast1 (s.get (Reg.SLP_CLS_WUS_wus_max_ms (slpClass s k))) * 1000000
def fbRatio (s : State) (k : Nat) : Nat := min 256 (s.get (Reg.SLP_CLS_FB_fb_ratio (slpClass s k)))

/-! ### The Hairspring (R211-R214) -/

/-- T of R213, ns; the part keeps it at 1 ns or more where an observation reported no period (log 24). -/
def hsPeriod (s : State) (k : Nat) : Int :=
  max 1 (((s.cget k Cx.period_nom : Int) * 1000 * (1000000000 + s.csget k Cx.drift)).tdiv 1000000000)

/-- unc(dt) of R214, ns. -/
def hsUnc (s : State) (k : Nat) (dt : Int) : Int :=
  100 * (s.cget k Cx.u0 : Int) +
    ((atLeast1 (s.get Reg.SLP_HS_CFG_k_sd) * s.cget k Cx.sd : Nat) * dt).tdiv 4000000000 + 1000

/-- The LTB of sample `n` after the anchor. -/
def hsSample (s : State) (k : Nat) (n : Int) : Int := s.cget k Cx.anchor + n * hsPeriod s k

/-- A count of units of 10 symbol periods in ns, and ns in whole units (R212, R218). -/
def unitsToNs (p : PhyParm) (n : Nat) : Nat := n * 10 * (symbolTime p).1 / (symbolTime p).2
def nsToUnits (p : PhyParm) (t : Nat) : Nat := t * (symbolTime p).2 / (10 * (symbolTime p).1)

/-- The lane receive uncertainty of a mode, ns (R60). -/
def tsUnc (p : PhyParm) : Nat :=
  match p.family with
  | 0 => 50
  | 1 => 150
  | 2 => 1000
  | 3 => 100
  | _ => (symbolTime p).1 / (20 * (symbolTime p).2)

/-- What a frame says of its node's samples: phase, step q and period (ns, ns, µs), the next fallback sample, and
whether fallback windows are kept (R211, R212). -/
def hsReport (p : PhyParm) (m : Mhr) : Option (Nat × Nat × Nat × Option (Nat × Bool)) :=
  match kazongBodyOf m 0x12 7 with
  | some b => some (ofLe (octetsAt b 0 3) * 1000, 1000, ofLe (octetsAt b 3 2) * 1000,
      some (octet b 5, bits (octet b 6) 0 1 == 1))
  | none => (m.ies.find? (fun e => e.1 == 0x1A && decide (4 ≤ e.2.length))).map (fun e =>
      (unitsToNs p (ofLe (octetsAt e.2 0 2)), unitsToNs p 1, unitsToNs p (ofLe (octetsAt e.2 2 2)) / 1000, none))

/-- The residual drift of R213; where the observation is at the anchor's own instant it is not stated (log 2). -/
def hsResidual (s : State) (e dt : Int) : Int × State :=
  if dt = 0 then
    let (v, s) := s.drawFree (2 ^ 32)
    (signed 32 v, s)
  else ((e * 1000000000).tdiv dt, s)

/-- What an observation `dt` after the anchor with error `e` teaches of drift and its uncertainty, modulo their widths (R15,
R210, R213). -/
def hsLearn (s : State) (k : Nat) (e dt : Int) : State :=
  let (r, s) := hsResidual s e dt
  let sd : Int := s.cget k Cx.sd
  if (e.natAbs : Int) ≤ atLeast1 (s.get Reg.SLP_HS_CFG3_outlier_k) * hsUnc s k dt then
    let s := s.csset k Cx.drift (s.csget k Cx.drift + r / 2 ^ s.get Reg.SLP_HS_CFG_drift_shift)
    let sd := unsigned 16 (sd + ((r.natAbs : Int) - sd) / 2 ^ s.get Reg.SLP_HS_CFG_var_shift)
    s.cset k Cx.sd (max sd (s.get Reg.SLP_HS_CFG2_sd_min))
  else (s.bump Reg.SLP_CNT_OUTLIER).cset k Cx.sd (min (max sd.toNat r.natAbs) 65535)

/-- The sample number nearest to `t`, counted from the anchor (R213). -/
def hsNearest (s : State) (k : Nat) (t : Int) : Int :=
  let per := hsPeriod s k
  (t - s.cget k Cx.anchor + per.tdiv 2).tdiv per

/-- The update of R213 for an observation at `t`. -/
def hsUpdate (s : State) (k : Nat) (t : Int) (q tsu : Nat) : State :=
  let dt := t - s.cget k Cx.anchor
  let valid := s.cget k Cx.hs_valid == 1
  let s :=
    if valid && decide ((s.get Reg.SLP_HS_CFG_min_span : Int) * 1000000000 ≤ dt) then
      hsLearn s k (t - hsSample s k (hsNearest s k t)) dt
    else s
  let s := if valid then s else (s.cset k Cx.drift 0).cset k Cx.sd (s.get Reg.SLP_HS_CFG2_sd_init)
  let u0 := min 65535 ((q / 2 + tsu + s.get Reg.SLP_HS_CFG3_node_jitter * 1000 + 99) / 100)
  ((s.cset k Cx.anchor (unsigned 64 t)).cset k Cx.u0 u0).cset k Cx.hs_valid 1

/-- The node's window is decided anew from now on (R215). -/
def slpMoved (s : State) (k : Nat) : State := s.onSlp (fun x => { x with moved := tabPut x.moved k s.ltb })

/-- The fallback schedule after an observation without a node-form IE: still counted from the sample that the last one named,
`n` samples nearer to it. DEDUCED (log 317). -/
def fbKeep (s : State) (k : Nat) (n : Int) : State :=
  if fbRatio s k = 0 then s
  else s.cset k Cx.fb_next (((s.cget k Cx.fb_next : Int) - n) % (fbRatio s k : Int)).toNat

/-- An observation from a frame that the node sent directly to this site and that passed the duplicate test (R211-R213,
R224). A window not yet handed over is placed anew from now on. -/
def slpObserve (s : State) (k : Nat) (m : Mhr) (rx : RxMeta) : State :=
  if !s.on Reg.SLP_CTRL_enable || !slpServes s k || rx.wired || rx.dup then s
  else match hsReport (phyOf s rx.profile) m with
    | none => s
    | some (phase, q, period, fb) =>
      let known := s.cget k Cx.hs_valid == 1
      let changed := known && s.cget k Cx.period_nom != period
      let t : Int := (rx.ltb + phase : Nat)
      let on := hsNearest s k t
      let s := hsUpdate (s.bump Reg.SLP_CNT_OBS) k t q (tsUnc (phyOf s rx.profile))
      let s := slpMoved (s.cset k Cx.period_nom period) k
      let s := match fb with
        | some (n, kept) => (s.cset k Cx.fb_next n).onSlp (fun x => { x with
            fbKept := if kept then addOnce x.fbKept k else x.fbKept.filter (· != k) })
        | none => if known then fbKeep s k on else s
      let s := if changed then s.raise 147 k else s
      if s.cget k Cx.oos = 0 then s else ((s.cset k Cx.oos 0).cset k Cx.miss 0).raise 148 k

/-- NODE_QUERY. -/
def nodeQuery (s : State) (k : Nat) : State :=
  let s := (s.set Reg.SLP_NODE_Q_ctx k).set Reg.SLP_NODE_RD0_drift (s.cget k Cx.drift)
  let unc := hsUnc s k ((s.ltb : Int) - s.cget k Cx.anchor)
  let s := (s.set Reg.SLP_NODE_RD1_unc_us (min (2 ^ 24 - 1) (unc / 1000).toNat)).set Reg.SLP_NODE_RD1_oos (s.cget k Cx.oos)
  (s.set Reg.SLP_NODE_RD1_hs_valid (s.cget k Cx.hs_valid)).set Reg.SLP_NODE_RD1_miss (s.cget k Cx.miss)

/-! ### The wake-up transmission (R216-R219, R223) -/

/-- The destination address of a wake-up frame: the short address if the context holds one. -/
def slpDst (s : State) (k : Nat) : Nat × List Byte :=
  let a := s.cget k Cx.short_addr
  if decide (a < 0xFFFE) then (2, leOctets 2 a) else (3, leOctets 8 (s.cget k Cx.eui64))

/-- Octets of one wake-up frame with its FCS. -/
def wakeLen (s : State) (k : Nat) (two : Bool) : Nat :=
  1 + (slpDst s k).2.length + (if s.on (Reg.SLP_CLS_WUS_wus_fmt (slpClass s k)) then 4 else 10) + fcsLen two

/-- One wake-up frame: `rdv` is the rendezvous time in ns (R217, R218). -/
def wakeFrame (s : State) (k : Nat) (p : PhyParm) (fallback : Bool) (rdv : Nat) : List Byte :=
  let (mode, dst) := slpDst s k
  let ie := if s.on (Reg.SLP_CLS_WUS_wus_fmt (slpClass s k)) then headerIe 0x1D (leOctets 2 (nsToUnits p rdv))
    else kazongIe 0x12 (leOctets 3 (rdv / 1000) ++ leOctets 1 (if fallback then 1 else 0))
  withFcs p.fcs2 (leOctets 1 (5 + 16 * mode) ++ dst ++ ie)

/-- Frame pending set or cleared in a PSDU without FCS (R221). -/
def withPending (psdu : List Byte) (fp : Bool) : List Byte :=
  match psdu with
  | b :: r => BitVec.ofNat 8 (putBits b.toNat 4 1 (if fp then 1 else 0)) :: r
  | [] => []

/-- A wake-up transmission: LTB of its first symbol, the length to hold against wus_max_ms (ns), its whole airtime (µs),
its wake-up frames, the PHY parameters it goes out with, and whether the uncertainty set the cover. -/
structure Wake where
  first    : Int
  span     : Int
  airUs    : Nat
  lead     : List (List Byte)
  phy      : PhyParm
  extended : Bool

/-- The airtime of one wake-up frame in the payload's copied parameters (R154, R217). -/
def wakeUs (s : State) (k : Nat) (a : AirOut) : Nat := airtimeOf a.parm.phy (wakeLen s k a.parm.fcs2)

/-- The repeated wake-up frames of R217 (listening span `listen`, ns) around the sample at `tp` with cover `c`. -/
def wakeRun (s : State) (k : Nat) (a : AirOut) (tp c listen : Int) (fallback ext : Bool) : Wake :=
  let w := atLeast1 (wakeUs s k a)
  let wn : Int := w * 1000
  let run := max wn (2 * c + 2 * wn - listen)
  let n := ((run + wn - 1) / wn).toNat
  { first := tp + c + wn - n * wn, span := n * wn, airUs := n * w + a.parm.airUs
    lead := (List.range n).map (fun i => wakeFrame s k a.parm.phy fallback ((n - 1 - i) * w * 1000))
    phy := a.parm.phy, extended := ext }

/-- The payload alone with a longer preamble around the sample at `tp` with cover `c` (R219). The unit is an octet of
family 4 and a symbol of family 2. -/
def wakeLong (a : AirOut) (tp c : Int) (ext : Bool) : Wake :=
  let p := a.parm.phy
  let (num, den) : Nat × Nat := if p.family = 2 then symbolTime p else (8000000, fskKbps p.rate)
  let phy := { p with preamble := p.preamble + ((2 * c * den + num - 1) / num).toNat }
  let us := airtimeOf phy a.parm.n
  { first := tp - c, span := us * 1000, airUs := us, lead := [], phy := phy, extended := ext }

/-- The transmission around the sample at `tp`: in sync, or in a fallback window (R216-R219, R223). -/
def wakeFor (s : State) (k : Nat) (a : AirOut) (tp : Int) (fallback : Bool) : Wake :=
  let unc := hsUnc s k (tp - s.cget k Cx.anchor)
  let c := max (slpGuard s k) unc
  let ext := decide (slpGuard s k < unc)
  let long := s.on (Reg.SLP_CLS_WUS_wus_mode (slpClass s k)) && (a.parm.family == 2 || a.parm.family == 4)
  if !fallback && long then wakeLong a tp c ext
  else
    let listen : Int := if fallback then s.get (Reg.SLP_CLS_FB_fb_listen_ms (slpClass s k)) * 1000000
      else (s.get (Reg.SLP_CLS_GUARD_sample_us (slpClass s k)) + wakeUs s k a : Nat) * 1000
    wakeRun s k a tp c listen fallback ext

/-- The first window at or after sample `n`, `step` samples apart, whose transmission starts 2 ms after `from_` or
later (R215, R223). -/
def firstWake (s : State) (k : Nat) (a : AirOut) (fallback : Bool) (step : Nat) (from_ : Int) : Nat → Int → Wake
  | 0, n => wakeFor s k a (hsSample s k n) fallback
  | m + 1, n =>
    let w := wakeFor s k a (hsSample s k n) fallback
    if from_ + 2000000 ≤ w.first then w else firstWake s k a fallback step from_ m (n + step)

/-- A lower bound of the first sample to try: the last one before `from_`, on the grid of `start` and `step`. -/
def wakeFrom (s : State) (k start step : Nat) (from_ : Int) : Int :=
  let n := (from_ - s.cget k Cx.anchor) / hsPeriod s k
  if n ≤ start then start else start + (n - start) / step * step

/-! ### Windows (R215, R220, R222-R224) -/

/-- The head frame of a node once its expired and refused frames are gone (R236, R238). -/
def slpHead (s : State) (k : Nat) : Nat → Option EscFrame × State
  | 0 => (none, s)
  | n + 1 =>
    match (slpFrames s k).head? with
    | none => (none, s)
    | some f =>
      let len := (slpFrames s k).length
      match examHeld s (agePort f) f with
      | (true, s) => (some f, s)
      | (false, s) => if (slpFrames s k).length < len then slpHead s k n else (none, s)

/-- The node becomes unreachable (R222-R224). -/
def slpUnreach (s : State) (k : Nat) : State := (s.cset k Cx.oos 2).raise 145 k

/-- The node keeps fallback windows: its last node-form IE said so, and fb_ratio is not 0 (R222). -/
def fbHas (s : State) (k : Nat) : Bool := s.slp.fbKept.contains k && fbRatio s k != 0

/-- The node goes out of sync for a reason; without a fallback schedule it is unreachable (R222). -/
def slpOos (s : State) (k reason : Nat) : State :=
  let s := ((s.bump Reg.SLP_CNT_OOS).cset k Cx.oos 1).raise 144 k reason
  let s := slpMoved s k
  if fbHas s k then s else slpUnreach s k

/-- The instant at which a node's window was decided: since then its frame is at the head, no earlier attempt runs, its
schedule stands, and windows can be placed at all (R215). -/
def slpDecided (s : State) (k : Nat) (f : EscFrame) : Nat := max (max f.headAt (tabGetD s.slp.moved k 0)) s.slp.since

/-- The window of a node whose hand-over is due: 420 µs before its first symbol. -/
def handover (s : State) (k : Nat) (f : EscFrame) (a : AirOut) : State :=
  let fallback := s.cget k Cx.oos == 1
  let from_ : Int := slpDecided s k f
  let (start, step) := if fallback then (s.cget k Cx.fb_next, fbRatio s k) else (0, 1)
  let w := firstWake s k a fallback step from_ 4096 (wakeFrom s k start step from_)
  if fallback && !fbHas s k then slpUnreach s k
  else if (s.ltb : Int) + 420000 < w.first then s
  else if slpMaxNs s k < w.span then (if fallback then slpUnreach s k else slpOos s k 0)
  else
    let s := if w.extended then s.bump Reg.SLP_CNT_EXTENDED else s
    cmpCarry (s.onSlp (fun x => { x with windows := tabPut x.windows k {
      target := angleAhead s w.first.toNat, frame := f.ref, fallback := fallback, airUs := w.airUs, phy := w.phy
      lead := w.lead } })) 14

/-- WINDOW_HANDOVER (R215). -/
def windowHandover (s : State) (k : Nat) : State :=
  if !s.on Reg.SLP_CTRL_enable || balOff s || !slpServes s k || s.cget k Cx.hs_valid == 0 || s.cget k Cx.oos == 2 ||
      !performs s (s.cget k Cx.eui64) || (tabGet s.slp.windows k).isSome || (tabGet s.slp.tries k).isSome then s
  else match slpHead s k 64 with
    | (none, s) => s
    | (some f, s) => match f.air with
      | some a => handover s k f a
      | none => s

/-- The channel on which SLP reaches a node (R239, R264, R266). -/
def slpChannel (s : State) (f : EscFrame) (band : Nat) : Option Nat := asyncChannel s (2 * band) f

/-- The window moves to the node's next sample (R220). -/
def slpDefer (s : State) (k : Nat) : State :=
  slpMoved (s.bump Reg.SLP_CNT_WIN_DEFER) k

/-- A transmission of SLP is released to a chain with first symbol at `d`, or the state is left but for the tests
(R220). Its frame pending bit tells whether the node's queue holds another frame (R221, R225). -/
def slpRelease (s : State) (k : Nat) (f : EscFrame) (a : AirOut) (d airUs : Nat) (phy : PhyParm) (lead : List (List Byte))
    (fallback plain : Bool) : Bool × State :=
  match slpChannel s f a.parm.band with
  | none => (false, s)
  | some freq => match pickChain s (bandChains a.parm.band) a.parm.band freq d airUs with
    | .inl _ => (false, s)
    | .inr p =>
      let (ok, s) := if s.on Reg.ESC_CTRL_enable then bucketsPass s p.chain f else (false, s)
      let (ok, s) := if ok then fuseeTest s a.parm.band freq a.parm.occHz airUs else (false, s)
      if !ok then (false, s)
      else
        let more := (subQueue s k).any (fun x => x.ref != f.ref)
        let psdu := withFcs a.parm.fcs2 (withPending a.psdu more)
        let octets := lead.flatten.length + psdu.length
        let s := setAside s p
        let s := chargeAll s p.chain (chargeLen s p.chain false octets airUs (ackUsOf s a)) f
        let s := fusHoldFor (holdFrame s f) a.parm.band freq a.parm.occHz airUs f.ref
        let s := s.onSlp (fun x => { x with
          tries := tabPut x.tries k { frame := f.ref, fallback := fallback, plain := plain, more := more } })
        let (id, s) := newRef s
        (true, txIssue s p.chain {
          id := id, issuer := if plain then .pend else .slp, cls := .slot, freq := p.freq, power := none, start := some d
          airUs := airUs, profile := a.parm.profile, occHz := a.parm.occHz, psdu := psdu, ref := f.ref, phy := phy
          lead := lead, chan := freq })

/-- The fixing of a window's target (R45, R215, R220). -/
def windowFix (s : State) (k : Nat) (upset : List Nat) : State :=
  match tabGet s.slp.windows k with
  | none => s
  | some w =>
    if !targetNear s w.target 0 then s
    else
      let s := s.onSlp (fun x => { x with windows := tabDel x.windows k })
      match (slpFrames s k).find? (fun f => f.ref == w.frame) with
      | none => slpMoved s k
      | some f => match f.air, frameBad s f with
        | none, _ => s
        | some _, some b => badDrop s f b
        | some a, none =>
          match slpRelease (laneUpset s f upset) k f a (ltbOf s w.target).toNat w.airUs w.phy w.lead w.fallback false with
          | (true, s) => s
          | (false, s) => slpDefer s k

/-! ### Frames after an uplink (R225) -/

/-- The node's head frame is sent as a plain SLOT frame 1,000 µs after an acknowledgement that ended at `t`; `upset` are entries
of the Node Table that fail parity now. -/
def pendSend (s : State) (k t : Nat) (upset : List Nat) : State :=
  match tabGet s.slp.pending k with
  | none => s
  | some until_ =>
    if !s.on Reg.SLP_CTRL_enable || (tabGet s.slp.tries k).isSome then s
    else match slpHead s k 64 with
      | (none, s) => s
      | (some f, s) => match f.air with
        | none => s
        | some a =>
          let d := t + 1000000
          if until_ < d + a.parm.airUs * 1000 then s
          else match slpRelease (laneUpset s f upset) k f a d a.parm.airUs a.parm.phy [] false true with
            | (true, s) => (s.bump Reg.SLP_CNT_PEND).onSlp (fun x => { x with windows := tabDel x.windows k })
            | (false, s) => s

/-- An acknowledgement with frame pending set to a node that SLP serves has ended (R225). -/
def pendListen (s : State) (k t : Nat) (upset : List Nat) : State :=
  if !s.on Reg.SLP_CTRL_enable || !slpServes s k then s
  else
    let until_ := t + s.get (Reg.SLP_CLS_RETRY_pend_listen_ms (slpClass s k)) * 1000000
    pendSend (s.onSlp (fun x => { x with pending := tabPut x.pending k until_ })) k t upset

/-! ### The end of an attempt (R221, R222) -/

def slpEndTry (s : State) (k : Nat) : State := s.onSlp (fun x => { x with tries := tabDel x.tries k })

/-- The node of a frame that SLP sends. -/
def slpCtxOf (f : EscFrame) : Nat := ((f.air.bind (·.hop)).or f.ctx).getD 0

/-- An attempt failed with a tx_status (0: no acknowledgement). One that was not sent counts as not acknowledged. -/
def slpFailed (s : State) (k : Nat) (t : Attempt) (f : EscFrame) (tx : Nat) : State :=
  let s := fusRelease (slpEndTry s k) f.ref
  let s := s.bump (if tx = 6 then Reg.SLP_CNT_CD_ABORT else Reg.SLP_CNT_NOACK)
  let s := if t.plain then s else s.cset k Cx.miss (min 15 (s.cget k Cx.miss + 1))
  let s := slpMoved s k
  let f := { f with fails := f.fails + 1 }
  let s := if s.get (Reg.SLP_CLS_RETRY_retries (slpClass s k)) + 1 ≤ f.fails then
      (airEnd (s.bump Reg.SLP_CNT_DROP) f f.chain { amc := 6, tx := tx } false).raise 146 k
    else returnFrame s f
  if s.cget k Cx.oos = 0 ∧ !t.plain ∧ atLeast1 (s.get (Reg.SLP_CLS_RETRY_oos_miss (slpClass s k))) ≤ s.cget k Cx.miss then
    slpOos s k 1
  else s

/-- An attempt's payload was acknowledged, or asked for no acknowledgement. -/
def slpDone (s : State) (k : Nat) (f : EscFrame) : State :=
  airEnd (slpMoved ((slpEndTry s k).cset k Cx.miss 0) k) f f.chain {} true

/-- A command of SLP ended (R221). -/
def slpTxEnd (s : State) (e : TxEnd) : State :=
  match heldFrame s e.cmd.ref with
  | none => s
  | some f =>
    let k := slpCtxOf f
    match tabGet s.slp.tries k with
    | none => s
    | some t =>
      let sent := e.first.isSome
      let f := f.after e
      let s := s.onEsc (fun x => { x with held := x.held.map (fun y => if y.ref = f.ref then f else y) })
      let s := if sent && !t.plain then s.bump (if t.fallback then Reg.SLP_CNT_FB_SENT else Reg.SLP_CNT_WIN_SENT) else s
      match e.status, f.air with
      | 0, some a =>
        let end_ := e.first.getD 0 + e.airUs * 1000
        if a.ar then awaitAck (fusRelease s f.ref) f.ref e.cmd.issuer e.chain (e.first.getD 0) e.airUs e.cmd.chan a
        else
          let s := slpDone s k f
          if t.plain && t.more then pendSend s k end_ e.upset else s
      | st, _ => slpFailed s k t f st

/-- The acknowledgement of a payload was received at `t`, its end, or not. -/
def slpAcked (s : State) (ref t : Nat) (acked : Bool) (upset : List Nat) : State :=
  match heldFrame s ref with
  | none => s
  | some f =>
    let k := slpCtxOf f
    match tabGet s.slp.tries k with
    | none => s
    | some x =>
      if acked then
        let s := slpDone s k f
        if x.plain && x.more then pendSend s k t upset else s
      else slpFailed s k x f 0

/-! ### Enable (R69, R226) -/

/-- SLP_ENABLE (R19, R69): comparator 14 is claimed for feature 0x15. -/
def slpEnable (s : State) : State :=
  if s.on Reg.SLP_CTRL_enable || !s.on Reg.AMC_CTRL_enable || !s.on Reg.ESC_CTRL_enable then s
  else match claimAll s 0x15 [30] with
    | (true, s) => cmpCarry ((s.set Reg.SLP_CTRL_enable 1).onSlp (fun x => { x with since := s.ltb })) 14
    | (false, s) => s

/-- SLP_DISABLE (R226). -/
def slpDisable (s : State) : State :=
  if !s.on Reg.SLP_CTRL_enable then s
  else cmpDisable (releaseAll ((s.set Reg.SLP_CTRL_enable 0).onSlp (fun x => { x with
    windows := [], pending := [] })) 0x15 [30]) 14

end Sys2Proof.Machine
end

