-- ==== Sys2Proof/Machine/PipeOps.lean ====
section
/-! DEFINITION. Frames in flight (R23-R29): tags, order, the reorder stage, the entry into the Escapement; link keys
for frames in flight (R311, R313, R315). -/

namespace Sys2Proof.Machine

/-! ### Tags (R23-R26) -/

/-- The pipeline accepts frames: FWD and CTX enabled (R278, R297). -/
def pipeOn (s : State) : Bool := s.on Reg.FWD_CTRL_enable && s.on Reg.CTX_CTRL_enable

/-- Ingress points that share a limit: TWIN and the control cluster together (R24). -/
def ingressGroup : Ingress → Nat
  | .air => 0
  | .eth p => 1 + p % 2
  | .host => 3
  | .twin => 4
  | .cluster => 4

/-- Tags held: number and ingress. -/
def tagsHeld (s : State) : List (Nat × Ingress) :=
  s.fwd.flights.map (fun e => (e.1, e.2.ingress))

/-- A tag for a frame (R24): a lane's own first, else a shared one, at most 192 for a wired ingress. -/
def freeTag (s : State) (ing : Ingress) (lane : Nat) : Option Nat :=
  let held := tagsHeld s
  let free := fun (t : Nat) => !held.any (fun h => h.1 == t)
  let shared := ((List.range 384).map (· + 128)).find? free
  if !pipeOn s then none
  else if ing = .air then (if free lane then some lane else shared)
  else if (held.filter (fun h => ingressGroup h.2 == ingressGroup ing)).length < 192 then shared
  else none

def flightOf (s : State) (tag : Nat) : Option Flight := tabGet s.fwd.flights tag
def setFlight (s : State) (tag : Nat) (f : Flight) : State := s.onFwd (fun x => { x with flights := tabPut x.flights tag f })

/-- Ingress code of a tag record (R416). -/
def ingressCode : Ingress → Nat
  | .air => 0
  | .eth p => 1 + p % 2
  | .host => 3
  | .twin => 4
  | .cluster => 5

/-- A frame takes tag `tag`: it is in flight from now on (R23). -/
def startFlight (s : State) (tag : Nat) (f : Flight) : State :=
  let (mark, s) := markNew s f.up (ingressCode f.ingress)
  let f := { f with order := s.fwd.nextOrd, since := s.ltb, mark := some mark }
  setFlight (s.onFwd (fun x => { x with nextOrd := x.nextOrd + 1 })) tag f

/-- The frame is no longer in flight: its tag is free. -/
def endFlight (s : State) (tag : Nat) : State :=
  (s.onFwd (fun x => { x with flights := tabDel x.flights tag })).onJwl (fun j => { j with derivQ := j.derivQ.filter (· != tag) })

/-- A frame in flight is dropped: tag and buffers are free, its ring is told. -/
def dropFlight (s : State) (tag : Nat) (f : Flight) (c : Completion := {}) : State :=
  let s := poolGive (endFlight s tag) f.pool f.bufs
  complete (markEnd s f.mark true) f.host c

/-! ### The reorder stage (R27-R29) -/

/-- Whose order a frame belongs to: its node, or its lane or ingress port where it has no context (R27, R28). -/
def orderNode (f : Flight) : Nat × Nat × Nat :=
  match f.ctx with
  | some k => (if f.up then 0 else 1, 0, k)
  | none => match f.ingress with
    | .air => (0, 1, f.rx.lane)
    | i => (if f.up then 0 else 1, 2, ingressCode i)

/-- The ordering key of a completed frame: with its service, but for a frame without a context (R27, R28). -/
def orderKey (f : Flight) : Nat × Nat × Nat × Nat × Nat :=
  let (d, c, n) := orderNode f
  if f.ctx.isNone then (d, c, n, 0, 0) else (d, c, n, if f.out.isEmpty then f.port else 8, f.svc.getD 0)

/-- A frame not yet completed may end without a context: it has none, or its own or its first hop's is not valid (R287). -/
def mayLoseCtx (s : State) (a : Flight) : Bool := a.ctx.all (fun k => !ctxValid s k) || a.hop.any (fun k => !ctxValid s k)

/-- The service is one to which FWD delivers frames with a reason (R274). -/
def reasonService (s : State) (svc : Nat) : Bool := (List.range 11).any (fun r => reasonSvc s r == svc)

/-- Frame `a` may come out with the ordering key of the completed frame `f` (R27, R28). A completed frame has its key. Before
step 1 of R22 has looked a frame up, it may be of any node. Any other may lose its context, may get `f`'s service where it has
none yet or where FWD can deliver it to the host with a reason, and as an uplink frame may go on to a node (R262). -/
def mayPrecede (s : State) (a f : Flight) : Bool :=
  if a.stage = .done ∨ a.stage = .released then orderKey a == orderKey f
  else if a.stage = .ingress ∧ a.svc.isNone then !f.up && (f.ctx.isSome || a.ingress == f.ingress)
  else if f.ctx.isNone then mayLoseCtx s a && orderNode { a with ctx := none } == orderNode f
  else (orderNode a == orderNode f &&
      (a.svc.isNone || a.svc == f.svc || (f.port == 6 && reasonService s (f.svc.getD 0)))) ||
    (a.up && !f.up && a.ctx.isSome)

/-- The frame has completed: it waits at the reorder stage; an uplink frame reaches S4 of R415. One that a later frame of its key has passed is dropped (R29). -/
def flightDone (s : State) (tag : Nat) (f : Flight) : State :=
  if f.passed.contains (orderKey f) then dropFlight (s.bump Reg.FWD_CNT_REORDER_LATE) tag f
  else setFlight (if f.up then markStage s f.mark 4 s.ltb else s) tag { f with stage := .done }

def reorderLim (s : State) : Nat := min 10000 (max 100 (s.get Reg.FWD_REORDER_CFG_reorder_lim)) * 1000

/-- REORDER_RELEASE (R29). -/
def reorderRelease (s : State) (tag : Nat) : State :=
  match flightOf s tag with
  | none => s
  | some f =>
    let before := s.fwd.flights.filter (fun e =>
      decide (e.2.order < f.order) && e.2.stage != .released && mayPrecede s e.2 f)
    if f.stage ≠ .done ∨ !before.all (fun e => e.2.stage != .done && decide (e.2.since + reorderLim s < s.ltb)) then s
    else
      let s := before.foldl (fun s e => setFlight s e.1 { e.2 with passed := orderKey f :: e.2.passed }) s
      setFlight (markStage s f.mark 5 s.ltb) tag { f with stage := .released }

/-! ### Frames built for wired ports (R367, R381) -/

/-- A MAC address of two registers, first octet in [7:0] of the first. -/
def macOf (lo hi : Nat) : List Byte := leOctets 4 lo ++ leOctets 2 hi

def gwMac (s : State) (i : Nat) : List Byte := macOf (s.get (Reg.ETH_GW_MAC_LO_mac_lo i)) (s.get (Reg.ETH_GW_MAC_HI_mac_hi i))
def unicast (s : State) (i j : Nat) : List Byte := macOf (s.get (Reg.ETH_UC_LO_mac_lo i j)) (s.get (Reg.ETH_UC_HI_mac_hi i j))

/-- The redundancy control trailer of a packet on port `4 + i` (R381). -/
def trailer (s : State) (i len : Nat) (seqNr : Option Nat) : List Byte :=
  match seqNr with
  | some n =>
    if twinRole s != 0 && bits (s.get Reg.TWN_CTRL_rct_ports) i 1 == 1 then
      beOctets 2 n ++ beOctets 2 ((if twinRole s = 1 then 0xA000 else 0xB000) + (len + 6) % 4096) ++ [0x88, 0xFB]
    else []
  | none => []

/-- The source address of a frame with a trailer (R381). -/
def trailerSrc (s : State) (eui : Nat) : List Byte :=
  if s.on Reg.TWN_CTRL_src_mac_mode then [0x02] ++ beOctets 5 eui
  else macOf (s.get Reg.TWN_SRC_MAC_LO_mac_lo) (s.get Reg.TWN_SRC_MAC_HI_mac_hi)

/-- The Ethernet frame (without FCS) of a packet that FWD sends to port `4 + i` (R367). -/
def ethFrame (s : State) (i : Nat) (packet : List Byte) (seqNr : Option Nat) (eui : Nat) : List Byte :=
  let t := trailer s i packet.length seqNr
  let tag := if s.on (Reg.ETH_CTRL_vlan_en i) then [0x81, 0x00] ++ beOctets 2 (s.get (Reg.ETH_FRAME_CFG_vid i)) else []
  gwMac s i ++ (if t.isEmpty then unicast s i 0 else trailerSrc s eui) ++ tag ++ [0x86, 0xDD] ++ packet ++ t

/-! ### Entry into the Escapement (R23, R236) -/

/-- The frames of a released downlink flight, the last one with the flight's mark, ring and completion. -/
def enqueueAir (s : State) (f : Flight) : State :=
  let n := f.out.length
  ((List.range n).zip f.out).foldl (fun s e =>
    let (ref, s) := newRef s
    let last := e.1 + 1 == n
    (escQueueFrame s {
      ref := ref, port := 2 * e.2.parm.band, svc := f.svc.getD 0, ctx := f.ctx, air := some e.2, host := f.host
      last := last, pool := f.pool, bufs := if e.1 = 0 then f.bufs else 0
      mark := if last then f.mark else none }).2) s

/-- A released flight for a wired port is queued on it, and a frame redirected to the host ends for its ring (R333). -/
def enqueueWired (s : State) (f : Flight) : State :=
  let (ref, s) := newRef s
  let redirected := f.host.isSome && f.port == 6 && f.reason != 0
  let octets := if f.port = 4 ∨ f.port = 5 then ethFrame s (f.port - 4) f.octets f.seqNr f.eui else f.octets
  let (st, s) := escQueueFrame s {
    ref := ref, port := f.port, svc := f.svc.getD 0, ctx := f.ctx, octets := octets, rx := f.rx, reason := f.reason
    fmt := f.fmt, host := if redirected then none else f.host, pool := f.pool, bufs := f.bufs, mark := f.mark }
  if redirected then complete s f.host { redirected := true, fwd := f.reason, esc := st } else s

/-- A service's dup_svc bit (R378, R383). -/
def dupSvc (s : State) (svc : Nat) : Bool := bits (s.get Reg.TWN_AIR_CFG_dup_svc) svc 1 == 1

/-- The twin's rule for a downlink frame at step 6 of R22 (R378): this chip does not send it. -/
def ownerDrops (s : State) (f : Flight) : Bool :=
  twinRole s != 0 && !dupSvc s (f.svc.getD 0) && match f.hop with
    | some h => !performs s (s.cget h Cx.eui64)
    | none => false

/-- A frame that goes to the host with a reason (R274): its service, the format of R330, and the octets delivered, which of a
frame from an Ethernet port are the Ethernet frame. With NO_CONTEXT it has no context (R28). -/
def hostFlight (s : State) (f : Flight) (reason : Nat) (octets : List Byte) : Flight := { f with
  port := 6, svc := some (reasonSvc s reason), reason := reason, fmt := reason == 1 || reason == 7 || reason == 8
  octets := if f.raw.isEmpty then octets else f.raw, out := [], ctx := if reason = 1 then none else f.ctx }

/-- The twin's rule for an uplink frame without a frame counter on a wired port (R378): this chip does not send it. -/
def upOwnerDrops (s : State) (f : Flight) : Bool := f.up && f.seqNr.isNone && twinRole s != 0 && !performs s f.eui

/-- ESC_ENQUEUE (R20 step 10, R22 step 6): in the order of release within a key. A node's frame for the air whose context is
bad is dropped (R296), and one whose context is no longer valid goes to the host (R287). -/
def escEnqueue (s : State) (tag : Nat) : State :=
  match flightOf s tag with
  | none => s
  | some f =>
    let earlier := s.fwd.flights.any (fun e =>
      decide (e.2.order < f.order) && orderKey e.2 == orderKey f && e.2.stage == .released)
    let gone := match f.ctx with
      | some k => !f.up && !f.out.isEmpty && !ctxValid s k
      | none => false
    let bad := match f.ctx with
      | some k => !f.up && !f.out.isEmpty && ctxBad s k
      | none => false
    if f.stage ≠ .released || earlier then s
    else if bad then dropFlight (noCounter s (f.ctx.getD 0)) tag f { sec := 10 }
    else if gone then
      enqueueWired (endFlight (s.bump Reg.FWD_CNT_TO_HOST) tag) (hostFlight s f 1 f.octets)
    else if f.out.isEmpty then enqueueWired (endFlight s tag) f
    else if ownerDrops s f then dropFlight (s.bump Reg.TWN_CNT_OWNER_DROP) tag f
    else enqueueAir (endFlight s tag) f

/-! ### Delivery to the host (R274) -/

/-- The frame goes to the host with a reason, unless the twin partner's chip sends it (R378: HOST is a wired port). -/
def toHost (s : State) (tag : Nat) (f : Flight) (reason : Nat) (octets : List Byte) : State :=
  if upOwnerDrops s f then dropFlight (s.bump Reg.TWN_CNT_OWNER_DROP) tag f
  else flightDone (s.bump Reg.FWD_CNT_TO_HOST) tag (hostFlight s f reason octets)

/-! ### Link keys (R311) -/

def derivShow (s : State) : State := s.set Reg.JWL_STATUS_deriv_q (s.jwl.derivQ.length - 2)

/-- A downlink frame whose key check fails is dropped (R315). -/
def txKeyDrop (s : State) (tag : Nat) (f : Flight) (sec : Nat) : State :=
  dropFlight (s.bump Reg.JWL_CNT_TX_DROP) tag f { sec := sec }

/-- A derivation ends without a key: the slot was refused when it was to start. -/
def derivRefused (s : State) (tag : Nat) (f : Flight) (t : Nat) : State :=
  let s := s.onJwl (fun j => { j with derivQ := j.derivQ.filter (· != tag) })
  if f.up then setFlight s tag { f with sec := if t = 6 then 6 else 5, stage := .ccm } else txKeyDrop s tag f t

/-- A miss is queued, or waits because 64 are queued (R311). -/
def deriveAsk (s : State) (tag : Nat) (f : Flight) : State :=
  if s.jwl.derivQ.length < 66 then
    (setFlight s tag { f with stage := .derive }).onJwl (fun j => { j with derivQ := j.derivQ ++ [tag] })
  else
    raiseFirst ((setFlight s tag { f with stage := .key }).bump Reg.JWL_CNT_DERIV_WAIT) 199

/-- The frame that has waited longest for room in the derivation queue enters it. -/
def deriveNext (s : State) : State :=
  let w := (s.fwd.flights.filter (fun e => e.2.stage == .key)).foldl (fun (m : Option (Nat × Flight)) e => match m with
    | none => some e
    | some b => if e.2.order < b.2.order then some e else m) none
  match w with
  | some (tag, f) => if s.jwl.derivQ.length < 66 then deriveAsk s tag f else s
  | none => s

/-- The two units start on the frames at the head of the queue (R311): the slot passes its checks and its material is taken;
what happens to the slot afterwards changes nothing (R306). At most `n` starts. -/
def derivRun : Nat → State → State
  | 0, s => derivShow s
  | n + 1, s =>
    match (s.jwl.derivQ.take 2).find? (fun tag => (flightOf s tag).any (fun f => f.started.isNone)) with
    | none => derivShow s
    | some tag => match flightOf s tag with
      | none => derivShow s
      | some f =>
        let t := pipeKeyTest s f.slot 1 1
        if t ≠ 0 then derivRun n (deriveNext (derivRefused s tag f t))
        else
          let x := jslot s f.slot
          derivRun n (setFlight s tag { f with key := linkKey x f.eui, started := some x.gen })

/-- The frame's link key from the cache, or a derivation of it. -/
def keyAsk (s : State) (tag : Nat) (f : Flight) : State :=
  match cacheFind s f.slot f.eui with
  | (some k, s) => setFlight (markStage (s.bump Reg.JWL_CNT_CACHE_HIT) f.mark 2 s.ltb) tag { f with key := k, stage := .ccm }
  | (none, s) => derivRun 66 (deriveAsk (s.bump Reg.JWL_CNT_CACHE_MISS) tag f)

/-- KEY_DERIVATION (R310, R311): one of the two units completes; the key is written to the cache, but for one that a change
of the life-cycle state empties (R304). -/
def keyDerivation (s : State) (tag : Nat) : State :=
  match flightOf s tag with
  | none => s
  | some f => match f.started with
    | none => s
    | some gen =>
      let s := s.onJwl (fun j => { j with derivQ := j.derivQ.filter (· != tag) })
      let s := if lcBusy s then s else cacheInsert s { slot := f.slot, gen := gen, eui := f.eui, key := f.key }
      let s := setFlight (markStage s f.mark 2 s.ltb) tag { f with stage := .ccm, started := none }
      derivRun 66 (deriveNext s)

/-- The CCM* nonce (R312). -/
def ccmNonce (eui fc level : Nat) : List Byte := beOctets 8 eui ++ beOctets 4 fc ++ beOctets 1 level

/-- Octets of the MIC of a security level. -/
def micLen : Nat → Nat
  | 5 => 4
  | 6 => 8
  | 7 => 16
  | _ => 0

/-! ### Enable (R278) -/

/-- FWD_ENABLE (R19, R282): pool 2 is claimed. -/
def fwdEnable (s : State) : State :=
  if s.on Reg.FWD_CTRL_enable || !s.on Reg.CTX_CTRL_enable then s
  else match claimAll s 0x19 [34] with
    | (true, s) => s.set Reg.FWD_CTRL_enable 1
    | (false, s) => s

/-- FWD_DISABLE (R278). -/
def fwdDisable (s : State) : State :=
  if s.on Reg.FWD_CTRL_enable then releaseAll (s.set Reg.FWD_CTRL_enable 0) 0x19 [34] else s

end Sys2Proof.Machine
end

