-- ==== Sys2Proof/Machine/UpOps.lean ====
section
/-! DEFINITION. The uplink path (R20): frame records at AMC (R175, R176), acknowledgements received (R190), the
duplicate test (R184-R186), key tests and decryption (R313), learning (R55, R59, R265), reassembly (R273), egress
(R260-R263, R270, R275). -/

namespace Sys2Proof.Machine

/-! ### Acknowledgements received (R188, R190, R221, R232) -/

/-- What an awaited acknowledgement decides: received, its reception ending at `t`, or not. -/
def ackResult (s : State) (w : AckWait) (t : Nat) (acked : Bool) (upset : List Nat) : State :=
  match w.issuer with
  | .async => match runOf s w.chain with
    | some r => if r.frame.ref = w.ref then runAcked s w.chain r acked else s
    | none => s
  | .slot => slotAcked s w.chain w.ref acked
  | .slp => slpAcked s w.ref t acked upset
  | .pend => slpAcked s w.ref t acked upset
  | _ => s

/-- An acknowledgement frame (R175, R190); `upset` are entries of the Node Table that fail parity now. -/
def ackReceived (s : State) (r : LaneRec) (m : Mhr) (upset : List Nat) : State :=
  let hits := s.amc.waits.filter (waitMatches r m)
  match hits.find? (fun w => !w.ended && decide (r.ltb ≤ w.deadline)) with
  | some w => ackResult (waitDone s w.ref) w r.endLtb true upset
  | none => match hits.find? (·.ended) with
    | some w => waitDone (s.bump Reg.AMC_CNT_ACK_RX_LATE) w.ref
    | none => if hits.isEmpty then s else s.bump Reg.AMC_CNT_ACK_RX_LATE

/-- ACK_WAIT_EXPIRY (R190): at the deadline, with no frame in reception whose SFD came before it. -/
def ackWaitExpiry (s : State) (ref : Nat) : State :=
  match s.amc.waits.find? (fun w => w.ref == ref && !w.ended) with
  | none => s
  | some w =>
    if s.ltb < w.deadline || ackInAir s w then s
    else ackResult (waitOver s ref) w s.ltb false []

/-! ### Acceptance (R175) -/

/-- The destination checks. A short_addr of 0xFFFE is no address (register table). -/
def addressed (s : State) (m : Mhr) : Bool :=
  let pan := match m.dstPan, m.srcPan with
    | some p, _ => p == panId s || p == 0xFFFF
    | none, some p => p == panId s
    | none, none => true
  let dst := match m.dstMode with
    | 0 => m.ver == 2
    | 2 => m.dst == 0xFFFF || m.dst == s.get Reg.AMC_PAN_short_addr && m.dst != 0xFFFE
    | _ => m.dst == siteEui s
  pan && dst

/-- What a frame's descriptor says of its reception (R330). -/
def rxMetaOf (s : State) (r : LaneRec) : RxMeta := {
  ltb := r.ltb, angle := r.angle, freq := r.freq, band := r.band, lane := r.lane, profile := r.profile
  tsLost := balOff s, captured := r.captured, rssi := r.rssi, lqi := r.lqi }

/-- The Node Table's answer for a source (R20 step 3, R254): its context and primary entry, or none. -/
def sourceLookup (s : State) (m : Mhr) (upset : List Nat) : Option (Nat × Nat) × State :=
  match m.srcMode with
  | 2 => ntLookupPipe s m.src 1 upset
  | 3 => ntLookupPipe s m.src 0 upset
  | _ => (none, s)

/-- The EUI-64 that decides a duty for a source, or bit 0 of an unknown short address (R378). -/
def dutyEui (s : State) (m : Mhr) (ctx : Option Nat) : Nat :=
  match ctx with
  | some k => s.cget k Cx.eui64
  | none => m.src

/-- An acknowledgement is requested, or left to the twin partner (R176, R378, R379). -/
def ackRequest (s : State) (tag : Nat) (r : LaneRec) (m : Mhr) (ctx : Option Nat) : State :=
  if !m.ar || (m.dstMode == 2 && m.dst == 0xFFFF) then s
  else if twinRole s != 0 && !s.on Reg.TWN_CTRL_ack_mode && !performs s (dutyEui s m ctx) then s.bump Reg.TWN_CNT_ACK_YIELD
  else
    (s.bump Reg.AMC_CNT_ACK_REQ).onAmc (fun a => { a with reqs := a.reqs ++ [
      { tag := tag, rcd := r, slot := r.slot, ctx := ctx, at_ := s.ltb, both := ackBoth s
        d := r.endLtb + ackGap s (profFamily s r.profile) * 1000 }] })

/-- The copy of an accepted frame for the twin partner (R380): the PSDU as received, with its FCS. -/
def twinForward (s : State) (r : LaneRec) : State :=
  if twinRole s != 0 && s.on Reg.TWN_CTRL_enable && s.on Reg.TWN_CTRL_fwd_air then
    let (ref, s) := newRef s
    (escQueueFrame (s.bump Reg.TWN_CNT_FWD_TX) {
      ref := ref, port := 7, svc := 0, octets := withFcs r.fcs2 r.psdu, rx := rxMetaOf s r, twin := 0 }).2
  else s

/-- A frame without tag or receive buffer (R25, R282). -/
def tagExhausted (s : State) (lane : Nat) : State := s.bump (Reg.CHZ_LANE_CNT_TAG_EXH lane)

/-- Buffers of a received frame, with its FCS. -/
def rxBufs (r : LaneRec) : Nat := buffersFor (r.psdu.length + fcsLen r.fcs2)

/-- A received beacon (R198): the partner's goes no further. -/
def beaconRecord (s : State) (r : LaneRec) (m : Mhr) : State :=
  let own := match siteInfo m with
    | some i => i.district == s.get Reg.AMC_SITE_district_id && i.site == s.get Reg.AMC_SITE_site_id
    | none => false
  let s := beaconReceived s r m
  if own || !s.on Reg.AMC_CTRL_eb_fwd then s
  else match freeTag s .air r.lane with
    | none => tagExhausted s r.lane
    | some tag =>
      if poolFree s 0 < rxBufs r then tagExhausted s r.lane
      else startFlight (poolTake s 0 (rxBufs r)) tag {
        up := true, ingress := .air, order := 0, stage := .done, octets := r.psdu, rx := rxMetaOf s r
        port := 6, svc := some (reasonSvc s 0), fmt := true, pool := 0, bufs := rxBufs r }

/-- A data or MAC-command frame takes a tag (R20 step 3, R25). Whether a frame for which there is no tag has made its lookup the
spec leaves open: it has not, so neither FWD_CNT_NT_HIT nor FWD_CNT_NT_MISS counts it: DESIGN CHOICE (log 61). -/
def frameTag (s : State) (r : LaneRec) (m : Mhr) (upset : List Nat) : State :=
  match freeTag s .air r.lane with
  | none => tagExhausted s r.lane
  | some tag =>
    if poolFree s 0 < rxBufs r then tagExhausted s r.lane
    else
      let (hit, s) := sourceLookup s m upset
      let ctx := hit.map (·.1)
      let s := startFlight (poolTake s 0 (rxBufs r)) tag {
        up := true, ingress := .air, order := 0, stage := .context, octets := r.psdu, rx := rxMetaOf s r, ctx := ctx
        prim := hit.map (·.2), pool := 0, bufs := rxBufs r }
      twinForward (ackRequest (markCtx s ((flightOf s tag).bind (·.mark)) ctx) tag r m ctx) r

/-- An Enhanced Beacon Request (R197). -/
def isEbr (m : Mhr) (psdu : List Byte) : Bool := m.type == 3 && m.ver == 2 && commandId m psdu == some 7

/-- One frame record at AMC (R175). -/
def recordAt (s : State) (r : LaneRec) (upset : List Nat) : State :=
  let s := s.bump Reg.AMC_CNT_RX_IN
  if !s.on Reg.AMC_CTRL_enable then s.bump Reg.AMC_CNT_RX_OFF
  else match parseMhr r.psdu with
    | none => s.bump Reg.AMC_CNT_ADDR_DROP
    | some m =>
      if 2 < m.ver ∨ 3 < m.type then s.bump Reg.AMC_CNT_ADDR_DROP
      else if m.type = 2 then ackReceived s r m upset
      else if m.type ≠ 0 ∧ !addressed s m then s.bump Reg.AMC_CNT_ADDR_DROP
      else if m.sec ∧ 1 ≤ m.level ∧ m.level ≤ 4 then s.bump Reg.AMC_CNT_SECLVL_DROP
      else if m.type = 0 then beaconRecord s r m
      else
        -- the identifier of a secured command is read once it is decrypted (R313)
        let s := if isEbr m r.psdu ∧ (!m.sec || m.level == 0) then ebrReceived s r.band r.freq r.profile else s
        frameTag s r m upset

/-- FRAME_RECORD: the oldest record that lane `n` has handed over. -/
def frameRecord (s : State) (n : Nat) (upset : List Nat) : State :=
  match s.laneRecs.find? (fun r => r.lane == n) with
  | none => s
  | some r => recordAt { s with laneRecs := s.laneRecs.erase r } r upset

/-! ### The duplicate test (R184-R186) -/

def dupMs (s : State) : Nat := atLeast1 (s.get Reg.AMC_DUP_CFG_dup_time)

/-- The test of a node's frame; it records a frame that passes. A DSN that firmware wrote into the context has no source with
it and is compared alone: DESIGN CHOICE (log 64). -/
def dupNode (s : State) (k : Nat) (m : Mhr) : Bool × State :=
  if m.sec then
    let held := s.cget k Cx.rx_fc_valid == 1
    if held && s.cget k Cx.rx_fc == m.fc && !m.fcSupp then (true, s)
    else if m.fcSupp then (false, s)
    else (false, (s.cset k Cx.rx_fc (if held then max (s.cget k Cx.rx_fc) m.fc else m.fc)).cset k Cx.rx_fc_valid 1)
  else match m.dsn with
    | none => (false, s)
    | some d =>
      let source := (m.srcMode, m.src)
      if s.cget k Cx.dsn_valid = 1 ∧ s.cget k Cx.last_dsn = d ∧ (tabGet s.amc.dsnSrc k).getD source = source ∧
          msSince (msOf s.ltb) (s.cget k Cx.dsn_time) < dupMs s then (true, s)
      else
        let s := ((s.cset k Cx.last_dsn d).cset k Cx.dsn_valid 1).cset k Cx.dsn_time (msOf s.ltb)
        (false, s.onAmc (fun a => { a with dsnSrc := tabPut a.dsnSrc k source }))

/-- The test of a frame without a context. -/
def dupTable (s : State) (m : Mhr) : Bool × State :=
  match m.dsn with
  | none => (false, s)
  | some d =>
    let live := s.amc.dup.filter (fun e => decide (s.ltb < e.2.2 + dupMs s * 1000000))
    if live.any (fun e => e.1 == (m.srcMode, m.src) && e.2.1 == d) then (true, s.onAmc (fun a => { a with dup := live }))
    else
      let live := if 64 ≤ live.length then live.drop 1 else live
      (false, s.onAmc (fun a => { a with dup := live ++ [((m.srcMode, m.src), d, s.ltb)] }))

/-! ### Keys (R312, R313) -/

/-- The source EUI-64 of a frame for the nonce and the link key. -/
def sourceEui (s : State) (f : Flight) (m : Mhr) : Nat :=
  match f.ctx with
  | some k => s.cget k Cx.eui64
  | none => m.src

/-- The slot of a frame's key, its type, and the kind of use (R303, R312). -/
def frameKey (s : State) (f : Flight) (m : Mhr) : Nat × Nat × Nat :=
  if m.keyMode = 0 then ((f.ctx.map (fun k => s.cget k Cx.key_slot)).getD 0, 1, 1)
  else (s.get (Reg.JWL_GROUP_slot m.keyIdx), 0, 2)

/-- Tests 1 to 7 of R313: 0, or the sec_status of the first that fails. A level-0 frame that test 1 allows needs no
other (log 27). -/
def secTest (s : State) (f : Flight) (m : Mhr) : Nat :=
  if !m.sec ∨ m.level = 0 then
    let ok := match f.ctx with
      | some k => s.cget k Cx.unsec_ok == 1
      | none => s.on Reg.JWL_CTRL_join_unsec
    if ok then 0 else 1
  else
    let low := match f.ctx with
      | some k => decide (m.level < s.cget k Cx.sec_level)
      | none => false
    let (slot, type, kind) := frameKey s f m
    if low then 2
    else if m.fcSupp then 3
    else if 2 ≤ m.keyMode ∨ m.keyMode = 1 ∧ (m.keyIdx = 0 ∨ 15 < m.keyIdx ∨ !s.on (Reg.JWL_GROUP_valid m.keyIdx)) then 4
    else if f.ctx.isNone ∧ (m.keyMode = 0 ∨ m.srcMode ≠ 3) then 5
    else match pipeKeyTest s slot type kind with
      | 0 =>
        let replay := match f.heldFc with
          | some h => decide (m.fc < h)
          | none => false
        if replay || m.fc == 0xFFFFFFFF then 7 else 0
      | 6 => 6
      | _ => 5

/-- The source's EUI-64 of a frame whose context is not valid: of a short address that of the primary entry (R378). -/
def entryEui (s : State) (f : Flight) (m : Mhr) : Nat :=
  match f.prim with
  | some i => if m.srcMode = 3 then m.src else nget s i Nt.key
  | none => m.src

/-- Step 6 of R20: the tests, and the key. -/
def keyStep (s : State) (tag : Nat) (f : Flight) (m : Mhr) : State :=
  let sec := secTest s f m
  let f := { f with sec := sec, eui := sourceEui s f m }
  if sec ≠ 0 ∨ !m.sec ∨ m.level = 0 then setFlight s tag { f with stage := .ccm }
  else if m.keyMode = 0 then keyAsk s tag { f with slot := (frameKey s f m).1 }
  else
    setFlight (markStage s f.mark 2 s.ltb) tag { f with key := (jslot s (frameKey s f m).1).key, stage := .ccm }

/-- DUPLICATE_TEST (R20 steps 5 and 6): `upset` is a line of the context that fails parity (R296). A frame whose context is
not valid goes to the host as received (R287, log 65), with the frame counter that it carries. -/
def duplicateTest (s : State) (tag : Nat) (upset : Option (Fin 3)) : State :=
  match flightOf s tag with
  | none => s
  | some f => match parseMhr f.octets with
    | none => s
    | some m =>
      if f.stage ≠ .context || !f.up then s
      else
        let s := match f.ctx, upset with
          | some k, some line => ctxParity s k line
          | _, _ => s
        let s := markStage s f.mark 1 s.ltb
        let badCtx := match f.ctx with
          | some k => ctxBad s k
          | none => false
        if badCtx then dropFlight (noCounter s (f.ctx.getD 0)) tag f
        else if f.ctx.any (fun k => !ctxValid s k) then
          toHost s tag { f with eui := entryEui s f m, seqNr := if m.sec && m.level != 0 && !m.fcSupp then some m.fc else none } 1 f.octets
        else
          let held := f.ctx.bind (fun k => if s.cget k Cx.rx_fc_valid = 1 then some (s.cget k Cx.rx_fc) else none)
          let (dup, s) := match f.ctx with
            | some k => dupNode s k m
            | none => dupTable s m
          let f := { f with heldFc := held }
          if !dup then keyStep s tag f m
          else
            let s := s.bump Reg.AMC_CNT_DUP
            let s := if f.ingress = .twin then s.bump Reg.TWN_CNT_FWD_DUP else s
            if s.on Reg.AMC_CTRL_dup_action then keyStep s tag { f with rx := { f.rx with dup := true } } m
            else dropFlight s tag f

/-! ### Learning -/

/-- The learning of a source (R265): `src` is the lane, or 0x80 + the port; `q` the LQI. -/
def learnSource (s : State) (k i src q : Nat) : State :=
  let t := msOf s.ltb
  let hold := s.get Reg.FWD_LEARN_CFG_learn_hold
  let (pref, alt, mh) := (nget s i Nt.pref, nget s i Nt.alt, nget s i Nt.mh == 1)
  let setPref := fun (s : State) => ((nset s i Nt.pref src).cset k Cx.t_pref t).cset k Cx.q_pref q
  let setAlt := fun (s : State) => (s.cset k Cx.t_alt t).cset k Cx.q_alt q
  let s := s.bump Reg.FWD_CNT_LEARN
  let s :=
    if pref = 0xFF then setPref s
    else if src = pref then
      let s := setPref s
      if mh && decide (hold < msSince t (s.cget k Cx.t_alt)) then nset s i Nt.mh 0 else s
    else if mh && src == alt then setAlt s
    else if msSince t (s.cget k Cx.t_pref) ≤ hold then
      let s := if mh then s else (s.bump Reg.FWD_CNT_MH).raise 163 k
      setAlt (nset (nset s i Nt.mh 1) i Nt.alt src)
    else nset (nset (setPref s) i Nt.mh 0) i Nt.alt 0xFF
  if nget s i Nt.mh = 1 ∧ s.cget k Cx.q_pref + s.get Reg.FWD_LEARN_CFG_lq_hyst < s.cget k Cx.q_alt then
    let (p, a) := (nget s i Nt.pref, nget s i Nt.alt)
    let (tp, ta) := (s.cget k Cx.t_pref, s.cget k Cx.t_alt)
    let (qp, qa) := (s.cget k Cx.q_pref, s.cget k Cx.q_alt)
    let s := nset (nset s i Nt.pref a) i Nt.alt p
    (((s.cset k Cx.t_pref ta).cset k Cx.t_alt tp).cset k Cx.q_pref qa).cset k Cx.q_alt qp
  else s

/-- The averages of line 2 (R286). -/
def learnQuality (s : State) (k : Nat) (rssi : Int) (lqi : Nat) : State :=
  let r := s.csget k Cx.rssi_avg
  let q : Int := s.cget k Cx.lqi_avg
  (s.csset k Cx.rssi_avg (r + (rssi - r) / 8)).cset k Cx.lqi_avg (q + ((lqi : Int) - q) / 8).toNat

/-- The primary entry of the source that was looked up (R254, R265): where it stood, unless the node's entry has moved or
gone since. -/
def learnEntry (s : State) (f : Flight) (k : Nat) : Option Nat :=
  match f.prim with
  | some i => if ntValid s i ∧ nget s i Nt.kind = 0 ∧ nget s i Nt.ctx = k then some i else ntFind s (s.cget k Cx.eui64) 0
  | none => none

/-- Learning at step 8 (R265); the node's entry is read once more, and `upset` names entries that fail parity now. -/
def learn (s : State) (f : Flight) (k : Nat) (upset : List Nat) : State :=
  if !s.on Reg.FWD_CTRL_learn_en then s
  else
    let s := ntUpset s (f.prim.toList) upset
    match learnEntry s f k with
    | none => s
    | some i =>
      let src := if f.rx.wired then 0x80 + f.rx.lane else f.rx.lane
      learnQuality (learnSource s k i src f.rx.lqi) k f.rx.rssi f.rx.lqi

/-- A difference of angles in a cycle, −32,768 to 32,767. -/
def wrap16 (x : Int) : Int := signed 16 (unsigned 16 x)

/-- Offset learning from a node's angle (R59). -/
def learnOffset (s : State) (k angle node : Nat) : State :=
  let o := (angle + 65536 - node % 65536) % 65536
  let take := fun (s : State) => (((s.cset k Cx.offset (16 * o)).cset k Cx.conf 1).cset k Cx.ofs_miss 0).cset k Cx.ofs_valid 1
  let d := wrap16 ((o : Int) - ((s.cget k Cx.offset + 8) / 16 : Nat))
  if s.cget k Cx.ofs_valid = 0 then take s
  else if d.natAbs ≤ s.get Reg.BAL_OFFSET_CFG_outlier_thr then
    let step := d * 16 / 2 ^ s.get Reg.BAL_OFFSET_CFG_learn_shift
    let s := s.cset k Cx.offset (unsigned 20 ((s.cget k Cx.offset : Int) + step))
    (s.cset k Cx.conf (min 15 (s.cget k Cx.conf + 1))).cset k Cx.ofs_miss 0
  else
    let miss := s.cget k Cx.ofs_miss + 1
    if s.get Reg.BAL_OFFSET_CFG_relearn_count ≤ miss then
      ((take s).bump Reg.BAL_CNT_OFS_RELEARN).raise 47 k
    else (s.cset k Cx.ofs_miss miss).bump Reg.BAL_CNT_OFS_OUTLIER

/-- A steering sample (R55): at most 64 a cycle. -/
def steerSample (s : State) (k angle node : Nat) : State :=
  let ofs : Nat := (s.cget k Cx.offset + 8) / 16
  let e := wrap16 ((angle : Int) - ofs - node)
  if s.bal.steer.length < 64 then s.onBal (fun b => { b with steer := b.steer ++ [e] }) else s

/-- What the Balance takes from a node's grid-time IE (R55, R59, R192). -/
def gridLearn (s : State) (f : Flight) (k : Nat) (m : Mhr) : State :=
  match kazongBodyOf m 0x01 3 with
  | none => s
  | some b =>
    let node := ofLe (octetsAt b 0 2)
    let state := s.get Reg.BAL_STATUS_state
    if f.rx.wired then s
    else if state = 2 ∧ s.on Reg.BAL_CTRL_learn_en then learnOffset s k f.rx.angle node
    else if state = 3 ∧ s.on Reg.BAL_CTRL_steer_en ∧ s.cget k Cx.mains = 1 ∧ s.cget k Cx.ofs_valid = 1 ∧
        s.get Reg.BAL_OFFSET_CFG_min_conf ≤ s.cget k Cx.conf then steerSample s k f.rx.angle node
    else s

/-- What step 8 learns of the node that sent the frame: its source only of a frame that passed the duplicate test (R265). -/
def learnNode (s : State) (f : Flight) (m : Mhr) (upset : List Nat) : State :=
  match f.ctx with
  | none => s
  | some k =>
    let s := s.cset k Cx.rx_count (s.cget k Cx.rx_count + 1)
    let s := if f.rx.dup then s else learn s f k upset
    slpObserve (gridLearn s f k m) k m f.rx

/-! ### Egress (R260-R263, R275) -/

/-- The ingress port of a Prefix Table key (R260). -/
def keyPort (f : Flight) : Nat :=
  match f.ingress with
  | .air => 2 * f.rx.band
  | .eth p => 4 + p
  | .twin => 7
  | _ => 6

/-- The node of a MESH destination (R263): its context and primary entry. -/
def meshNode (s : State) (dst : List Byte) (upset : List Nat) : Option (Nat × Nat) × State :=
  let iid := dst.drop 8
  if iid.take 6 = [0, 0, 0, 0xFF, 0xFE, 0] then ntLookupPipe s (ofBe (iid.drop 6)) 1 upset
  else ntLookupPipe s (flipUl (ofBe iid)) 0 upset

/-- A packet dropped by the tables. -/
def fwdDrop (s : State) (tag : Nat) (f : Flight) (counter : Nat) : State := dropFlight (s.bump counter) tag f

/-- A packet that arrives with hop limit 0 or 1 (R275). -/
def hopSpent (s : State) (tag : Nat) (f : Flight) (p : List Byte) : State :=
  toHost (s.bump Reg.FWD_CNT_HLIM) tag f 9 p

/-- The mirrored copy of a downlink datagram for the twin partner (R382). -/
def twinMirror (s : State) (f : Flight) (svc : Nat) (p : List Byte) : State :=
  if twinRole s != 0 && s.on Reg.TWN_CTRL_enable && s.on Reg.TWN_CTRL_dl_mirror && !f.up && !f.mirror then
    let (ref, s) := newRef s
    (escQueueFrame (s.bump Reg.TWN_CNT_MIRROR_TX) { ref := ref, port := 7, svc := svc, octets := p, twin := 1 }).2
  else s

/-- Action MESH (R262, R263): the frame goes on as a downlink frame of its destination. -/
def toMesh (s : State) (tag : Nat) (f : Flight) (e : PtEntry) (p : List Byte) (upset : List Nat) : State :=
  let s := twinMirror s f e.svc p
  match meshNode s (ipDst p) upset with
  | (none, s) => toHost s tag f 3 p
  | (some (k, prim), s) =>
    if ipHop p ≤ 1 then hopSpent s tag f p
    else
      let dgram := crc32c p
      let s := if f.up then markStage s f.mark 4 s.ltb else s
      setFlight (markCtx s f.mark (some k)) tag { f with
        up := false, stage := .route, ctx := some k, prim := some prim, octets := p, svc := some e.svc
        sci := e.sci, dgram := dgram, seqNr := none }

/-- Action PORT (R262, R378): an uplink frame without a frame counter leaves on a wired port only through its owner, and HOST gets
the Ethernet frame of a packet that came in one (R330). -/
def toPort (s : State) (tag : Nat) (f : Flight) (e : PtEntry) (p : List Byte) : State :=
  let (port, s) := if e.port < 4 then
      let (x, s) := s.drawFree 4
      (4 + x, s)
    else (e.port, s)
  if f.up ∧ ipHop p ≤ 1 then hopSpent s tag f p
  else if upOwnerDrops s f then fwdDrop s tag f Reg.TWN_CNT_OWNER_DROP
  else
    let p := if f.up then stripRpl (hopDown p) else p
    let s := if port = 6 then s.bump Reg.FWD_CNT_TO_HOST else s
    let p := if port = 6 ∧ !f.raw.isEmpty then f.raw else p
    flightDone s tag { f with port := port, svc := some e.svc, reason := 0, fmt := false, octets := p }

/-- The Prefix Table decides where a packet goes (R260, R262). -/
def egress (s : State) (tag : Nat) (f : Flight) (p : List Byte) (ptUpset ntUpset : List Nat) : State :=
  let key := ptKeyOf (ofBe (ipDst p)) (keyPort f) (ipTclass p / 4)
  match ptLookup s key ptUpset with
  | (none, s) =>
    let s := s.bump Reg.FWD_CNT_PT_MISS
    if s.on Reg.FWD_CTRL_miss_action then dropFlight s tag f else toHost s tag f 2 p
  | (some e, s) => match e.action with
    | 0 => toMesh s tag f e p ntUpset
    | 1 => toPort s tag f e p
    | 2 => toHost s tag f 10 p
    | _ => fwdDrop s tag f Reg.FWD_CNT_PT_DROP

/-! ### Reassembly (R273) -/

def reasmShow (s : State) : State := s.set Reg.FWD_REASM_FILL_in_use s.fwd.reasm.length

/-- A context is discarded: the frames whose fragments it stores are dropped (R416). -/
def reasmDrop (s : State) (i : Nat) (r : Reasm) : State :=
  marksEnd (reasmShow ((poolGive s 2 r.bufs).onFwd (fun x => { x with reasm := tabDel x.reasm i }))) r.marks true

/-- A fragment's frame is stored in context `i`: its tag and buffers are free, and its latency measurement waits with it for the
datagram (R416, log 26). -/
def reasmStore (s : State) (tag : Nat) (f : Flight) (i : Nat) (r : Reasm) : State :=
  let s := poolGive (endFlight s tag) f.pool f.bufs
  reasmShow (s.onFwd (fun y => { y with reasm := tabPut y.reasm i { r with marks := r.marks ++ f.mark.toList } }))

/-- The datagram of context `i` is complete: it goes on as the frame `f` of its last fragment, and those of the others are
done. -/
def reasmDone (s : State) (f : Flight) (i : Nat) (r : Reasm) : State :=
  let s := reasmShow (s.onFwd (fun y => { y with reasm := tabDel y.reasm i }))
  (marksEnd (poolGive s f.pool f.bufs) r.marks false).bump Reg.FWD_CNT_REASM_OK

/-- A fragment that finds no room (R273). -/
def reasmFull (s : State) : State := raiseFirst (s.bump Reg.FWD_CNT_REASM_FULL) 165

/-- The first free index of a reassembly context. -/
def reasmFree : Nat → Tab Reasm → Nat → Option Nat
  | 0, _, _ => none
  | n + 1, [], i => if n = 0 ∧ 4096 ≤ i then none else some i
  | n + 1, (j, _) :: r, i => if i < j then some i else reasmFree n r (i + 1)

/-- A fragment: its place and octets, whether a UDP checksum was elided. -/
structure Frag where
  size   : Nat
  dtag   : Nat
  at_    : Nat
  octets : List Byte
  elided : Bool

/-- The stored datagram. -/
def assemble (r : Reasm) : List Byte :=
  r.parts.foldl (fun p e => putAt p e.1 e.2) (List.replicate r.size 0)

/-- The context a fragment belongs to (R273); one that fails its parity check is dropped (R276). -/
def fragFind (s : State) (src : Nat × Nat) (x : Frag) (upset : Bool) : Option (Nat × Reasm) × State :=
  match s.fwd.reasm.find? (fun e => e.2.src == src && e.2.size == x.size && e.2.dtag == x.dtag), upset with
  | some (i, r), true => (none, fwdParity (reasmDrop s i r) 2 i 166)
  | h, _ => (h, s)

/-- The datagram of a completed context, or none; `f` no longer holds its tag where it is none. -/
def fragment (s : State) (tag : Nat) (f : Flight) (src : Nat × Nat) (x : Frag) (upset : Bool) : Option (List Byte × Flight) × State :=
  let drop := fun (s : State) => dropFlight s tag f
  let (find, s) := fragFind s src x upset
  let need := buffersFor x.octets.length
  match find with
    | none =>
      let mine := (s.fwd.reasm.filter (fun e => e.2.src == src)).length
      if x.size < x.at_ + x.octets.length ∨ max 1280 (s.get Reg.FWD_REASM_CFG2_reasm_max) < x.size then (none, drop (s.bump Reg.FWD_CNT_REASM_ERR))
      else if atLeast1 (s.get Reg.FWD_REASM_CFG_reasm_per_node) ≤ mine || decide (poolFree s 2 < need) then
        (none, drop (reasmFull s))
      else if 4096 ≤ s.fwd.reasm.length then (none, drop (reasmFull s))
      else
        let i := (reasmFree 4097 s.fwd.reasm 0).getD 0
        let ms := min 60000 (max 100 (s.get Reg.FWD_REASM_CFG_reasm_timeout))
        let r : Reasm := {
          src := src, size := x.size, dtag := x.dtag, opened := s.ltb, due := s.ltb + ms * 1000000
          parts := [(x.at_, x.octets)], elided := x.elided, bufs := need }
        let s := poolTake s 2 need
        if x.octets.length = x.size then
          (some (fillUdp (assemble r) r.elided, { f with pool := 2, bufs := need }), reasmDone s f i r)
        else (none, reasmStore s tag f i r)
    | some (i, r) =>
      let overlaps := fun (e : Nat × List Byte) => decide (e.1 < x.at_ + x.octets.length ∧ x.at_ < e.1 + e.2.length)
      if r.parts.any (fun e => e.1 == x.at_ && e.2.length == x.octets.length) then (none, drop (s.bump Reg.FWD_CNT_REASM_DUP))
      else if r.parts.any overlaps || decide (x.size < x.at_ + x.octets.length) then
        (none, drop ((reasmDrop s i r).bump Reg.FWD_CNT_REASM_ERR))
      else if poolFree s 2 < need then (none, drop (reasmFull (reasmDrop s i r)))
      else
        let r := { r with parts := r.parts ++ [(x.at_, x.octets)], elided := r.elided || x.elided, bufs := r.bufs + need }
        let s := poolTake s 2 need
        if (r.parts.map (fun e => e.2.length)).foldl (· + ·) 0 = r.size then
          (some (fillUdp (assemble r) r.elided, { f with pool := 2, bufs := r.bufs }), reasmDone s f i r)
        else (none, reasmStore s tag f i r)

/-- REASSEMBLY_TIMEOUT (R273). -/
def reassemblyTimeout (s : State) (i : Nat) : State :=
  match tabGet s.fwd.reasm i with
  | none => s
  | some r => if s.ltb < r.due then s else (reasmDrop s i r).bump Reg.FWD_CNT_REASM_TIMEOUT

/-! ### Classification (R270) -/

/-- A 6LoWPAN payload as a packet or a fragment; an error is a reason of R274. -/
def lowpan (s : State) (m : Mhr) (l : List Byte) : Except Nat (List Byte ⊕ Frag) := do
  let (src, dst) := ((m.srcMode, m.src), (m.dstMode, m.dst))
  let first := fun (size : Option Nat) (l : List Byte) => (do
    let d := octet l 0
    if d = 0x41 ∧ 41 ≤ l.length then .ok (l.drop 1, false)
    else if d / 32 = 3 then iphcExpand s src dst size l
    else .error 7 : Except Nat (List Byte × Bool))
  let d := octet l 0
  if d / 8 = 24 then
    let (h, r) ← takeN 4 l
    let size := ofBe (h.take 2) % 2048
    let (p, e) ← first (some size) r
    .ok (.inr { size := size, dtag := ofBe (h.drop 2), at_ := 0, octets := p, elided := e })
  else if d / 8 = 28 then
    let (h, r) ← takeN 5 l
    .ok (.inr { size := ofBe (h.take 2) % 2048, dtag := ofBe ((h.drop 2).take 2), at_ := 8 * octet h 4, octets := r, elided := false })
  else if l.isEmpty then .error 7
  else
    let (p, e) ← first none l
    .ok (.inl (fillUdp p e))

/-- The Kazong IEs of a frame that goes on as a packet, which the host gets unchanged (R191); in what form the spec does not
say (log 131). -/
def iesToHost (s : State) (m : Mhr) : State := (hostIes m).foldl (fun s x => s.emit (.hostIe x)) s

/-- Step 8 of R20 on an authenticated frame, `psdu` without its MIC (R270, R274). -/
def classify (s : State) (tag : Nat) (f : Flight) (m : Mhr) (psdu : List Byte)
    (ptUpset ntUpset : List Nat) (reasmUpset : Bool) : State :=
  if f.ctx.all (fun k => !ctxValid s k) then toHost s tag f 1 psdu
  else
    let s := learnNode s f m ntUpset
    if m.type = 3 then toHost s tag f 7 psdu
    else
      let rest := psdu.drop m.hdr
      let rest := if m.ends = 1 then skipPayloadIes 128 rest else rest
      match lowpan s m rest with
      | .error r => toHost s tag f r psdu
      | .ok (.inl p) => egress (iesToHost s m) tag { f with octets := p } p ptUpset ntUpset
      | .ok (.inr x) => match fragment (iesToHost s m) tag f (m.srcMode, m.src) x reasmUpset with
        | (some (p, f), s) => egress s tag { f with octets := p } p ptUpset ntUpset
        | (none, s) => s

/-! ### Decryption (R312, R313) -/

/-- A frame fails a test of R313. -/
def secDrop (s : State) (tag : Nat) (f : Flight) (sec : Nat) : State :=
  let counter := if sec ≤ 4 then Reg.JWL_CNT_POLICY else if sec = 5 then Reg.JWL_CNT_NOKEY
    else if sec = 6 then Reg.JWL_CNT_REVOKED else if sec = 7 then Reg.JWL_CNT_REPLAY else Reg.JWL_CNT_AUTH_FAIL
  let s := s.bump counter
  let s := match sec with
    | 6 => raiseFirst s 195 (f.ctx.getD 0)
    | 7 => raiseFirst s 194 (f.ctx.getD 0)
    | 8 => raiseFirst s 193 (f.ctx.getD 0)
    | _ => s
  dropFlight s tag f

/-- Where the secured part of a frame begins: after the MHR, and after the command identifier of a MAC command of
version 0 or 1 (log 12). -/
def openFrom (m : Mhr) : Nat := if m.type = 3 ∧ m.ver < 2 then m.hdr + 1 else m.hdr

/-- The frame's octets decrypted, without the MIC; none where the MIC does not verify. -/
def openFrame (f : Flight) (m : Mhr) : Option (List Byte) :=
  let n := openFrom m
  (ccmOpen (micLen m.level) f.key (ccmNonce f.eui m.fc m.level) (f.octets.take n) (f.octets.drop n)).map
    (fun x => f.octets.take n ++ x)

/-- UPLINK_DECRYPT (R20 steps 7 and 8): entries of the tables that fail parity now, and the reassembly context. -/
def uplinkDecrypt (s : State) (tag : Nat) (ptUpset ntUpset : List Nat) (reasmUpset : Bool) : State :=
  match flightOf s tag with
  | none => s
  | some f => match parseMhr f.octets with
    | none => s
    | some m =>
      if f.stage ≠ .ccm || !f.up then s
      else if f.sec ≠ 0 then secDrop s tag f f.sec
      else if !m.sec || m.level == 0 then
        classify s tag f m f.octets ptUpset ntUpset reasmUpset
      else match openFrame f m with
        | none => secDrop s tag f 8
        | some psdu =>
          let s := markStage (s.bump Reg.JWL_CNT_CCM_OK) f.mark 3 s.ltb
          let s := if isEbr m psdu ∧ f.ingress = .air then ebrReceived s f.rx.band f.rx.freq f.rx.profile else s
          classify s tag { f with seqNr := some m.fc } m psdu ptUpset ntUpset reasmUpset

end Sys2Proof.Machine
end

