-- ==== Sys2Proof/Machine/DownOps.lean ====
section
/-! DEFINITION. The downlink path (R22): admission to tags (R26), the tables, source routes (R267-R269), fragments
(R272), security (R315); admission of frames from the transmit rings (R331-R333). -/

namespace Sys2Proof.Machine

/-! ### Tags for waiting frames (R26) -/

/-- A PSDU without its FCS of 4 octets, or of 2 where those are not right. -/
def dropFcs (l : List Byte) : List Byte := l.take (l.length - (if fcsGood false l then 4 else 2))

/-- A waiting frame is in flight with tag `tag`: a forwarded air frame at step 3 of R20 (R380), another at step 1 of
R22. -/
def startWaiting (s : State) (tag : Nat) (w : WaitFrame) (upset : List Nat) : State :=
  if w.up then
    match parseMhr (dropFcs w.octets) with
    | none => poolGive s w.pool w.bufs
    | some m =>
      let (hit, s) := sourceLookup s m upset
      let ctx := hit.map (·.1)
      let s := startFlight s tag {
        up := true, ingress := w.ingress, order := 0, stage := .context, octets := dropFcs w.octets, rx := w.rx
        ctx := ctx, prim := hit.map (·.2), pool := w.pool, bufs := w.bufs }
      markCtx s ((flightOf s tag).bind (·.mark)) ctx
  else
    startFlight s tag {
      up := false, ingress := w.ingress, order := 0, stage := .ingress, octets := w.octets, rx := w.rx, svc := w.svc
      mirror := w.mirror, raw := w.raw, pool := w.pool, bufs := w.bufs }

/-- TAG_ADMISSION (R24, R26): the first waiting frame of an ingress takes a tag if one is free for it. -/
def tagAdmission (s : State) (ing : Ingress) (upset : List Nat) : State :=
  match s.fwd.waiting.find? (fun w => w.ingress == ing), freeTag s ing 0 with
  | some w, some tag => startWaiting (s.onFwd (fun x => { x with waiting := x.waiting.erase w })) tag w upset
  | _, _ => s

/-! ### Steps 1 and 2 of R22 -/

/-- The frame that waits at step 1, the first to take its tag. -/
def atIngress (s : State) (ing : Ingress) : Option (Nat × Flight) :=
  (s.fwd.flights.filter (fun e => e.2.ingress == ing && e.2.stage == .ingress)).foldl (fun m e => match m with
    | none => some e
    | some b => if e.2.order < b.2.order then some e else m) none

/-- The octets end with a redundancy control trailer that counts them all (R381). -/
def hasTrailer (l : List Byte) : Bool :=
  decide (46 ≤ l.length) && octetsAt l (l.length - 2) 2 == [0x88, 0xFB] &&
    ofBe (octetsAt l (l.length - 4) 2) % 4096 == l.length % 4096

/-- DOWNLINK_INGRESS (R22 step 1, R26, R262, R382): a frame of the ingress that has a tag, else the first that waits
for one. -/
def downlinkIngress (s : State) (ing : Ingress) (ptUpset ntUpset : List Nat) : State :=
  let s := if (atIngress s ing).isNone then tagAdmission s ing ntUpset else s
  match atIngress s ing with
  | none => s
  | some (tag, f) => match f.svc with
    | some v => flightDone s tag { f with port := 6, svc := some v, reason := 0, fmt := false }
    | none =>
      let p := f.octets.take (40 + ipLen f.octets)
      egress s tag { f with octets := p, mirror := f.mirror || hasTrailer f.octets } p ptUpset ntUpset

/-! ### Source routes (R267-R269) -/

/-- The walk of R267 from entry `cur`: the hops from the first hop to the destination's parent, or a reason. -/
def routeWalk : Nat → State → Nat → List Nat → Except Nat (List Nat)
  | 0, _, _, _ => .error 5
  | n + 1, s, cur, list =>
    if cur = ntSite then .ok list
    else if cur = ntNone then .error 4
    else if ntIsBad s cur then .error 6
    else if nget s cur Nt.valid = 0 then .error 4
    else if list.length = 23 then .error 5
    else routeWalk n s (nget s cur Nt.parent) (cur :: list)

/-- A failed walk (R269). -/
def routeFail (s : State) (tag : Nat) (f : Flight) (reason : Nat) : State :=
  let s := raiseFirst (s.bump Reg.FWD_CNT_ROUTE_FAIL) 164
  if s.on Reg.FWD_CTRL_rte_fail_action then dropFlight s tag f { fwd := reason }
  else toHost s tag f reason f.octets

/-- The site's IPv6 address. -/
def siteAddr (s : State) : List Byte := (List.range 4).flatMap (fun m => leOctets 4 (s.get (Reg.FWD_SITE_ADDR_addr m)))

/-- The Twin sequence IE with its HT1, for a duplicated service (R383). -/
def twinIe (s : State) (svc dgram : Nat) : List Byte :=
  if twinRole s != 0 && dupSvc s svc then
    kazongIe 0x11 (leOctets 4 dgram ++ leOctets 1 (twinRole s + (if twinPaired s then 4 else 0))) ++ leOctets 2 (0x7E * 128)
  else []

/-- The MHR of a downlink frame (R315): both addresses extended, key identifier mode 0, the counter still 0; the
sequence number is a free value (log 2). -/
def downMhr (s : State) (hopEui level dsn : Nat) (ie : List Byte) : List Byte :=
  frameControl 1 true false true false false (!ie.isEmpty) 3 2 3 ++ leOctets 1 dsn ++ leOctets 2 (panId s) ++
    leOctets 8 hopEui ++ leOctets 8 (siteEui s) ++ leOctets 1 level ++ leOctets 4 0 ++ ie

/-- Octets of a downlink frame beside its payload: MHR, auxiliary header, MIC, FCS (R272). -/
def downOverhead (s : State) (profile level : Nat) (ie : List Byte) : Nat := 26 + ie.length + micLen level + profFcs s profile

/-- The frames of a datagram's payloads. -/
def downFrames (s : State) (hop hopEui profile level : Nat) (ie : List Byte) : List (List Byte) → List AirOut × State
  | [] => ([], s)
  | p :: r =>
    let (dsn, s) := s.drawFree 256
    let psdu := downMhr s hopEui level dsn ie ++ p
    let (more, s) := downFrames s hop hopEui profile level ie r
    ({ parm := parmOf s profile (psdu.length + micLen level + profFcs s profile) 2, psdu := psdu, ar := true, ver := 2
       dsn := some dsn, dst := (3, hopEui), hop := some hop } :: more, s)

/-- The route is built: header, compression, fragments (R268, R271, R272). `list` are the hops of the walk. A bad context of the
first hop drops the frame (R296), one that is not valid sends it to the host (R287). -/
def routeBuilt (s : State) (tag : Nat) (f : Flight) (prim : Nat) (list : List Nat) : State :=
  let first := list.headD prim
  let hop := nget s first Nt.ctx
  let profile := s.cget hop Cx.tx_profile
  if ctxBad s hop then dropFlight (noCounter s hop) tag f { sec := 10 }
  else if !ctxValid s hop then toHost s tag f 1 f.octets
  else if !profValid s profile then routeFail s tag f 4
  else
    let hopEui := nget s first Nt.key
    let dst := ipDst f.octets
    let addr := fun (i : Nat) => dst.take 8 ++ beOctets 8 (flipUl (nget s i Nt.key))
    let addrs := if list.isEmpty then [] else (list.drop 1).map addr ++ [dst]
    let p := withRoute (s.on Reg.FWD_CTRL_rte_mode) (siteAddr s) (addr first) addrs (hopDown f.octets)
    let level := s.cget hop Cx.sec_level
    let ie := twinIe s (f.svc.getD 0) f.dgram
    let dtag := s.get Reg.FWD_DGRAM_TAG_tag
    let parts := fragments s (siteEui s) hopEui (profMaxPsdu s profile - downOverhead s profile level ie) dtag p
    let s := s.bump Reg.FWD_CNT_ROUTE_OK
    let s := if 1 < parts.length then
        (s.set Reg.FWD_DGRAM_TAG_tag (dtag + 1)).bumpBy Reg.FWD_CNT_FRAG_TX parts.length
      else s
    let (out, s) := downFrames s hop hopEui profile level ie parts
    setFlight (markStage s f.mark 4 s.ltb) tag { f with out := out, hop := some hop, eui := hopEui, stage := .secure }

/-- The destination's primary entry for the walk: where it was looked up, or where it stands now if a relocation has moved it since
(R255); the spec does not say how the builder finds a moved one: DESIGN CHOICE (log 321). -/
def routePrimary (s : State) (f : Flight) (k : Nat) : Option Nat :=
  match f.prim with
  | some i => if nget s i Nt.valid = 1 ∧ nget s i Nt.kind = 0 ∧ nget s i Nt.ctx = k then some i else ntFind s (s.cget k Cx.eui64) 0
  | none => none

/-- ROUTE_BUILD (R22 steps 2 and 3, R155, R267): `upset` are entries of the Node Table that fail parity now, `line` is a line
of the destination's context that does. A bad context drops the frame (R296), one that is not valid sends it to the host
(R287). -/
def routeBuild (s : State) (tag : Nat) (upset : List Nat) (line : Option (Fin 3)) : State :=
  match flightOf s tag with
  | none => s
  | some f =>
    let k := f.ctx.getD 0
    let s' := ctxUpset s k (line.map (·.val))
    if f.stage ≠ .route then s
    else if ctxBad s' k then dropFlight (noCounter s' k) tag f { sec := 10 }
    else if !ctxValid s' k then toHost s' tag f 1 f.octets
    else
      let s := markStage s' f.mark 1 s'.ltb
      let prim := (routePrimary s f k).getD ntNone
      let s := ntUpset s (walkEntries 25 s prim) upset
      match (if ntIsBad s prim then .error 6 else if prim = ntNone then .error 4 else routeWalk 25 s (nget s prim Nt.parent) [] : Except Nat (List Nat)) with
      | .error r => routeFail s tag f r
      | .ok list => routeBuilt s tag f prim list

/-! ### Security (R22 step 4, R288, R312, R315) -/

/-- A frame at the security level of step 4 (R315): where the context holds another level than the frame was built at, its MIC
and airtime change with it, and a frame that has become too long is refused by the Escapement (R236). -/
def atLevel (a : AirOut) (level : Nat) : AirOut :=
  let n := a.parm.n + micLen level - micLen (octet a.psdu 21 % 8)
  { a with psdu := putAt a.psdu 21 [BitVec.ofNat 8 level], parm := { a.parm with n := n, airUs := airtimeOf a.parm.phy n } }

/-- Each frame takes the next frame counter of the first hop and carries it at octets 22 to 25, at the security level held
then; a frame that finds none ends the datagram with a sec_status. -/
def takeCounters : State → Nat → List AirOut → (List AirOut ⊕ Nat) × State
  | s, _, [] => (.inl [], s)
  | s, hop, a :: r =>
    let a := atLevel a (s.cget hop Cx.sec_level)
    match takeCounter s hop with
    | (.inr e, s) => (.inr e, s)
    | (.inl fc, s) => match takeCounters s hop r with
      | (.inr e, s) => (.inr e, s)
      | (.inl l, s) => (.inl ({ a with psdu := putAt a.psdu 22 (leOctets 4 fc) } :: l), s)

/-- A frame secured with the first hop's link key and the site's EUI-64 in the nonce (R312, R383). -/
def sealFrame (s : State) (key : List Byte) (a : AirOut) : AirOut :=
  let n := ((parseMhr a.psdu).map (·.hdr)).getD 0
  let level := octet a.psdu 21 % 8
  let fc := ofLe (octetsAt a.psdu 22 4)
  let head := a.psdu.take n
  { a with psdu := head ++ ccmSeal (micLen level) key (ccmNonce (siteEui s) fc level) head (a.psdu.drop n) }

/-- The frames are sealed and the datagram waits at the reorder stage. -/
def sealFlight (s : State) (tag : Nat) (f : Flight) : State :=
  let s := s.bumpBy Reg.JWL_CNT_CCM_OK f.out.length
  flightDone (markStage s f.mark 3 s.ltb) tag { f with out := f.out.map (sealFrame s f.key) }

/-- DOWNLINK_SECURE (R315): the counters and the key, and a second time the end of the CCM* engine. `upset` is a line of the first
hop's context that fails parity (R296). -/
def downlinkSecure (s : State) (tag : Nat) (upset : Option (Fin 3)) : State :=
  match flightOf s tag with
  | none => s
  | some f =>
    if f.up then s
    else if f.stage = .ccm then sealFlight s tag f
    else if f.stage ≠ .secure then s
    else
      let hop := f.hop.getD 0
      let s := ctxUpset s hop (upset.map (·.val))
      if !ctxBad s hop && !ctxValid s hop then toHost s tag f 1 f.octets
      else match takeCounters s hop f.out with
      | (.inr e, s) => dropFlight s tag f { sec := e }
      | (.inl out, s) =>
        let f := { f with out := out, slot := s.cget hop Cx.key_slot }
        let t := pipeKeyTest s f.slot 1 1
        if t ≠ 0 then txKeyDrop s tag f t else keyAsk s tag f

/-! ### Admission from the transmit rings (R331-R333) -/

/-- The fetched descriptors up to the first with eop. -/
def untilEop : List (List Byte) → Option (List (List Byte))
  | [] => none
  | d :: r => if bits (octet d 11) 2 1 = 1 then some [d] else (untilEop r).map (d :: ·)

def descLen (d : List Byte) : Nat := ofLe (octetsAt d 8 2) % 2 ^ 14

/-- What a frame's first descriptor says (R331). -/
structure TxMetaDesc where
  kind    : Nat
  tsReq   : Bool
  ptp     : Bool
  svc     : Nat
  port    : Nat
  profile : Nat
  test    : Bool
  chain   : Nat
  plan    : Nat
  start   : Nat
  power   : Nat
deriving DecidableEq, Repr

def txMetaOf (d : List Byte) : TxMetaDesc := {
  kind := octet d 10 % 4, tsReq := bits (octet d 11) 4 1 == 1, ptp := bits (octet d 11) 5 1 == 1
  svc := octet d 12 % 16, port := bits (octet d 12) 4 3, profile := octet d 13 % 32, test := bits (octet d 13) 5 1 == 1
  chain := octet d 14 % 4, plan := octet d 15 % 64, start := ofLe (octetsAt d 16 8), power := octet d 24 }

/-- A field of the frame's kind is invalid (R155, R331, R333); a chain or profile of another band than the plan entry's
is (log 28). -/
def badTxField (s : State) (m : TxMetaDesc) : Bool :=
  (m.kind == 1 && !(m.port == 4 || m.port == 5 || m.port == 7)) ||
  (m.kind == 2 && (!planValid s m.plan || !profValid s m.profile || planBand s m.plan != chainBand m.chain ||
    profBand s m.profile != chainBand m.chain))

/-- hif_status of a frame before its data is read (R333). -/
def txFrameCheck (s : State) (m : TxMetaDesc) (descs : List (List Byte)) : Nat :=
  let n := (descs.map descLen).foldl (· + ·) 0
  if m.kind = 3 then 1
  else if badTxField s m then 2
  else if decide (16 < descs.length) || descs.any (fun d => descLen d == 0) ||
      !(decide (n ≤ 2047) || decide (n ≤ Config.frameMax m.kind)) then 3
  else 0

/-- An AIR_RAW frame in its chain's service queue. -/
def airRaw (s : State) (m : TxMetaDesc) (host : Nat × Nat) (data : List Byte) (bufs : Nat) : State :=
  let (ref, s) := newRef s
  let h := parseMhr data
  let ar := (h.map (·.ar)).getD false
  let n := data.length + profFcs s m.profile
  (escQueueFrame s {
    ref := ref, port := m.chain, svc := m.svc, host := some host, pool := 4, bufs := bufs, test := m.test, plan := some m.plan
    start := if !m.test || m.start == 0 then none else some m.start
    power := if !m.test || m.power == 0x80 then none else some (signed 8 m.power)
    air := some {
      parm := parmOf s m.profile n ((h.map (·.ver)).getD 2), psdu := data, ar := ar, ver := (h.map (·.ver)).getD 2
      dsn := h.bind (·.dsn), dst := (h.map (fun x => (x.dstMode, x.dst))).getD (0, 0), hop := none } }).2

/-- FRAME_ADMISSION (R26, R332): `data` is what memory holds at the frame's buffers, none where its read fails
(R342). -/
def frameAdmission (s : State) (r : Nat) (data : Option (List Byte)) : State :=
  let g := s.ringOf r
  match untilEop g.fetched with
  | none => s
  | some descs =>
    let m := txMetaOf (descs.headD [])
    let n := (descs.map descLen).foldl (· + ·) 0
    let st := txFrameCheck s m descs
    let bufs := buffersFor n
    let ing : Ingress := if ringOwner s r = 1 then .cluster else .host
    let tag := freeTag s ing 0
    let room := decide (g.frames.length + (g.cp + 65536 - g.ccons) % 65536 < ringSize s r)
    if !isTxRing r || !ringLive s r || !room || decide (poolFree s 4 < bufs) || (m.kind == 0 && tag.isNone) then s
    else
      let ref := s.hif.nextRef
      let s := { s with hif := { s.hif with nextRef := ref + 1 } }
      let first := g.cIdx
      let s := s.onRing r (fun g => { g with
        fetched := g.fetched.drop descs.length
        frames := tabPut g.frames ref { descIdx := first, kind := m.kind, tsReq := m.tsReq } })
      let s := (consume s r descs.length).bump Reg.HIF_CNT_TX_FRAMES
      if st ≠ 0 then complete s (some (r, ref)) { hif := st }
      else match data with
        | none => complete (s.bump Reg.HIF_CNT_DMA_ERR) (some (r, ref)) { hif := 4 }
        | some data =>
          let data := octetsAt data 0 n
          let s := poolTake s 4 bufs
          match m.kind with
          | 0 => startFlight s (tag.getD 0) {
              up := false, ingress := ing, order := 0, stage := .ingress, octets := data, host := some (r, ref), pool := 4
              bufs := bufs, rx := { wired := true, lane := 6, tsLost := true } }
          | 1 =>
            let (id, s) := newRef s
            (escQueueFrame s {
              ref := id, port := m.port, svc := m.svc, octets := data, ptp := m.ptp, host := some (r, ref), pool := 4
              bufs := bufs }).2
          | _ => airRaw s m (r, ref) data bufs

end Sys2Proof.Machine
end

