-- ==== Sys2Proof/Machine/EthOps.lean ====
section
/-! DEFINITION. The Ethernet ports (chapter 15): enable, link, transmission with PTP insertion (R61, R372), pause
(R368-R370), standby (R373). Port `i` is ETH0 or ETH1; its number is `4 + i`. -/

namespace Sys2Proof.Machine

def ethOf (s : State) (i : Nat) : Eth := tabGetD s.eth i {}
def State.onEth (s : State) (i : Nat) (f : Eth → Eth) : State := { s with eth := tabPut s.eth i (f (ethOf s i)) }
def ethState (s : State) (i : Nat) : Nat := s.get (Reg.ETH_STATUS_state i)

/-- The CRC-32 of IEEE 802.3, as the FCS carries it with its first octet in [7:0] (log 10). -/
def ethCrc (l : List Byte) : Nat := crcOctets 0xEDB88320 0xFFFFFFFF l ^^^ 0xFFFFFFFF

/-- A bit time in 0.1 ns (R361). -/
def bitTenths (s : State) (i : Nat) : Nat :=
  match s.get (Reg.ETH_CTRL_mode i) with
  | 0 => 1
  | 1 => 4
  | _ => 10

/-! ### Transmission (R367, R369) -/

/-- The port may begin a frame: RUN, not paused, no standby asked for. -/
def ethMaySend (s : State) (i : Nat) : Bool :=
  ethState s i == 2 && !s.on (Reg.ETH_STATUS_paused i) && !s.on (Reg.ETH_CTRL_standby i)

/-- The head of the transmit FIFO begins, where it may: S7 of R415. -/
def ethStart (s : State) (i : Nat) : State :=
  let e := ethOf s i
  match e.txq with
  | [] => s
  | f :: _ =>
    if ethMaySend s i && !e.sending then
      markStage (s.onEth i (fun e => { e with sending := true, startAt := s.ltb })) f.mark 7 s.ltb
    else s

/-- Octets in the transmit FIFO. -/
def txFill (e : Eth) : Nat := (e.txq.map (fun f => f.octets.length + 4)).foldl (· + ·) 0

/-- The port takes the frame from ESC (R367): RUN, not paused, room in its 32 KiB transmit FIFO. -/
def ethTakes (s : State) (i : Nat) (f : EscFrame) : Bool :=
  ethMaySend s i && decide (txFill (ethOf s i) + f.octets.length + 4 ≤ 32768)

def ethSend (s : State) (i : Nat) (f : EscFrame) : State := ethStart (s.onEth i (fun e => { e with txq := e.txq ++ [f] })) i

/-- The port enters STANDBY or leaves it (R373). -/
def ethStandbyIn (s : State) (i : Nat) : State :=
  let st := ethState s i
  if (st == 1 || st == 2) && s.on (Reg.ETH_CTRL_standby i) && !(ethOf s i).sending then s.set (Reg.ETH_STATUS_state i) 3 else s

def ethStandbyOut (s : State) (i : Nat) : State :=
  if ethState s i = 3 then ethStart (s.set (Reg.ETH_STATUS_state i) (if (ethOf s i).lock then 2 else 1)) i else ethStart s i

/-- STANDBY. -/
def ethStandby (s : State) (i : Nat) (on : Bool) : State :=
  let s := s.setb (Reg.ETH_CTRL_standby i) on
  if on then ethStandbyIn s i else ethStandbyOut s i

/-! ### PTP (R61, R371, R372). The places of the fields are those of IEEE 1588 (PRESUMED, log 29). -/

/-- A PTP message in a frame: its first octet, and of a UDP checksum its place and whether the packet is IPv6. -/
structure PtpPos where
  at_  : Nat
  sum  : Option (Nat × Bool) := none
deriving DecidableEq, Repr

/-- Where the EtherType of a frame stands, past the tag that the port accepts (R363). -/
def etherAt (s : State) (i : Nat) (l : List Byte) : Nat :=
  if octetsAt l 12 2 = [0x81, 0x00] ∧ s.on (Reg.ETH_CTRL_vlan_en i) ∧
      ofBe (octetsAt l 14 2) % 4096 = s.get (Reg.ETH_FRAME_CFG_vid i) then 16 else 12

/-- The PTP message of a frame (R371): EtherType 0x88F7, or UDP to port 319 or 320 over IPv4 or IPv6. -/
def ptpFind (s : State) (i : Nat) (l : List Byte) : Option PtpPos :=
  let e := etherAt s i l
  let type := ofBe (octetsAt l e 2)
  let ip := e + 2
  let udp := fun (u : Nat) (v6 : Bool) =>
    let p := ofBe (octetsAt l (u + 2) 2)
    if p = 319 ∨ p = 320 then some { at_ := u + 8, sum := some (u + 6, v6) : PtpPos } else none
  if type = 0x88F7 then some { at_ := ip }
  else if type = 0x0800 ∧ octet l ip / 16 = 4 ∧ octet l (ip + 9) = 17 then udp (ip + 4 * (octet l ip % 16)) false
  else if type = 0x86DD ∧ octet l ip / 16 = 6 ∧ octet l (ip + 6) = 17 then udp (ip + 40) true
  else none

/-- A UDP checksum updated for octets that change from `a` to `b`. -/
def sumUpdate (old : Nat) (a b : List Byte) : Nat :=
  let n := fold16 (65535 - old + ((a.length + 1) / 2 * 65535 - sum16 a) + sum16 b)
  if n = 65535 then 65535 else 65535 - n

/-- Ten octets of PTP time written into a frame's message at octet 34, and its checksum. -/
def ptpWrite (l : List Byte) (p : PtpPos) (time : Nat × Nat) : List Byte :=
  let new := beOctets 6 time.1 ++ beOctets 4 time.2
  let old := octetsAt l (p.at_ + 34) 10
  let l := putAt l (p.at_ + 34) new
  match p.sum with
  | none => l
  | some (k, false) => putAt l k [0, 0]
  | some (k, true) => putAt l k (beOctets 2 (sumUpdate (ofBe (octetsAt l k 2)) old new))

/-- One-step insertion into a frame with ptp_insert whose timestamp point is passed at LTB `ts`. -/
def ptpInsert (s : State) (i : Nat) (l : List Byte) (ts : Nat) : List Byte × State :=
  match ptpFind s i l with
  | none => (l, s.bump (Reg.ETH_CNT_PTP_NOINS i))
  | some p =>
    match octet l p.at_ % 16 with
    | 0 => (ptpWrite l p (ptpAt s ts), s)
    | 9 =>
      let key := (ofBe (octetsAt l (p.at_ + 30) 2), ofBe (octetsAt l (p.at_ + 44) 10))
      match (tabGetD s.bal.drq i []).find? (fun e => e.1 == key) with
      | some e => (ptpWrite l p (ptpAt s e.2), s)
      | none => (l, s.bump Reg.BAL_CNT_DRQ_MISS)
    | _ => (l, s.bump (Reg.ETH_CNT_PTP_NOINS i))

/-- The ingress time of a Delay_Req is kept, the last 32 of the port (R61, R371). It is kept in LTB, so the response converts it
with the PTP base in force then, and a request with the key of an older one takes its place: DESIGN CHOICE (log 63). -/
def drqStore (s : State) (i : Nat) (l : List Byte) (ts : Nat) : State :=
  match ptpFind s i l with
  | none => s
  | some p =>
    if octet l p.at_ % 16 = 1 then
      let key := (ofBe (octetsAt l (p.at_ + 30) 2), ofBe (octetsAt l (p.at_ + 20) 10))
      let old := (tabGetD s.bal.drq i []).filter (fun e => e.1 != key)
      s.onBal (fun b => { b with drq := tabPut b.drq i (((key, ts) :: old).take 32) })
    else s

/-- The LTB of a port's timestamp point, corrected to the MDI (R371). -/
def ethTs (s : State) (i : Nat) (ts : Nat) (out : Bool) : Nat :=
  let lat := if out then s.sget (Reg.ETH_PTP_LAT_tx_lat i) else -(s.sget (Reg.ETH_PTP_LAT_rx_lat i))
  ((ts : Int) + lat).toNat

/-- A frame's timestamp enters the report FIFO of its port where it asked for one (R64). -/
def ethReport (s : State) (i : Nat) (f : EscFrame) (ts : Nat) : Option Nat × State :=
  match f.host with
  | some (_, ref) =>
    if wantsTs s f.host then
      let (sec, ns) := ptpAt s ts
      (some (4 + i), (tsfPush s (4 + i) { ref := ref, ltb := ts, ext := sec, ns := ns }).2)
    else (none, s)
  | none => (none, s)

/-- A frame leaves a port with its FCS (R367, R372). -/
def ethOut (s : State) (i : Nat) (octets : List Byte) : State := s.emit (.ethTx (4 + i) (octets ++ leOctets 4 (ethCrc octets)))

/-- The pause frame of a port (R370), padded to the minimum frame. -/
def pauseFrame (s : State) (i quanta : Nat) : List Byte :=
  [0x01, 0x80, 0xC2, 0x00, 0x00, 0x01] ++ unicast s i 0 ++ [0x88, 0x08, 0x00, 0x01] ++ beOctets 2 quanta ++ List.replicate 42 0

/-- A pause frame is sent, paused or not. -/
def pauseEmit (s : State) (i quanta : Nat) : State := (ethOut s i (pauseFrame s i quanta)).bump (Reg.ETH_CNT_TX_PAUSE i)

/-- The pause frames that waited for the frame in transmission go out, ahead of every waiting frame (R370). -/
def pauseFlush (s : State) (i : Nat) : State :=
  (ethOf s i).pauseQ.foldl (fun s q => pauseEmit s i q) (s.onEth i (fun e => { e with pauseQ := [] }))

/-- ETH_TX_END (R64, R333, R367, R372): the last octet is sent; `ts` is the LTB of the frame's timestamp point. -/
def ethTxEnd (s : State) (i ts : Nat) : State :=
  let e := ethOf s i
  match e.sending, e.txq with
  | true, f :: rest =>
    let ts := ethTs s i ts true
    let (octets, s) := if f.ptp then ptpInsert s i f.octets ts else (f.octets, s)
    let s := (ethOut s i octets).bump (Reg.ETH_CNT_TX_OK i)
    let (fifo, s) := ethReport s i f ts
    let s := (escEnd s f false { tsFifo := fifo }).onEth i (fun e => { e with
      txq := rest, sending := false, beat := if e.beat = some f.ref then none else e.beat })
    ethStart (ethStandbyIn (pauseFlush s i) i) i
  | _, _ => s

/-! ### Pause (R368-R370) -/

/-- The pause ends; the next frame may start. -/
def pauseEnd (s : State) (i : Nat) : State :=
  ethStart ((s.set (Reg.ETH_STATUS_paused i) 0).onEth i (fun e => { e with pauseEnd := none })) i

/-- A pause holds what has not begun, and a frame that began in this cycle; a heartbeat is skipped (R368, R385). -/
def pauseHold (s : State) (i : Nat) : State :=
  s.onEth i (fun e =>
    let n := if e.sending && e.startAt != s.ltb then 1 else 0
    let going := e.txq.take n
    { e with
      sending := n == 1, txq := going ++ (e.txq.drop n).filter (fun f => e.beat != some f.ref)
      beat := if going.any (fun f => e.beat == some f.ref) then e.beat else none })

/-- A pause frame acts at the end of its reception. -/
def pauseReceived (s : State) (i time : Nat) : State :=
  let s := s.bump (Reg.ETH_CNT_RX_PAUSE i)
  if s.on (Reg.ETH_STATUS_wd_holdoff i) then s.bump (Reg.ETH_CNT_PAUSE_IGN i)
  else if time = 0 then pauseEnd s i
  else
    let until_ := s.ltb + (time * 512 * bitTenths s i + 9) / 10
    let s := if s.on (Reg.ETH_STATUS_paused i) then s
      else (s.set (Reg.ETH_STATUS_paused i) 1).onEth i (fun e => { e with
        pauseAt := s.ltb, pauseWd := atLeast1 (s.get (Reg.ETH_PAUSE_CFG_pause_wd_ms i)) })
    pauseHold (s.onEth i (fun e => { e with pauseEnd := some until_ })) i

/-- PAUSE_EXPIRY (R368). -/
def pauseExpiry (s : State) (i : Nat) : State :=
  match (ethOf s i).pauseEnd with
  | some t => if t ≤ s.ltb then pauseEnd s i else s
  | none => s

/-- PAUSE_WATCHDOG (R369): continuous pause has reached pause_wd_ms. -/
def pauseWatchdog (s : State) (i : Nat) : State :=
  let e := ethOf s i
  match e.pauseEnd with
  | none => s
  | some t =>
    let due := e.pauseAt + e.pauseWd * 1000000
    if s.ltb < due ∨ t < due then s
    else
      let s := (pauseEnd s i).bump (Reg.ETH_CNT_PAUSE_WD i)
      let s := (s.set (Reg.ETH_STATUS_wd_holdoff i) 1).onEth i (fun e => { e with
        holdEnd := some (s.ltb + s.get (Reg.ETH_PAUSE_CFG_wd_holdoff_ms i) * 1000000) })
      s.raise 210 (4 + i)

/-- HOLDOFF_END (R369). -/
def holdoffEnd (s : State) (i : Nat) : State :=
  match (ethOf s i).holdEnd with
  | some t =>
    if t ≤ s.ltb then (s.set (Reg.ETH_STATUS_wd_holdoff i) 0).onEth i (fun e => { e with holdEnd := none }) else s
  | none => s

/-- A pause frame is due: it goes out now, or after the frame in transmission (R370). -/
def pauseOut (s : State) (i quanta : Nat) : State :=
  if (ethOf s i).sending then s.onEth i (fun e => { e with pauseQ := e.pauseQ ++ [quanta] }) else pauseEmit s i quanta

def pauseQuanta (s : State) (i : Nat) : Nat := atLeast1 (s.get (Reg.ETH_PAUSE_TX_pause_quanta i))

/-- Octets in the receive FIFO. -/
def rxFill (e : Eth) : Nat := (e.rxq.map (·.2)).foldl (· + ·) 0

/-- The thresholds in octets. -/
def xoffThr (s : State) (i : Nat) : Nat := 1024 * atLeast1 (s.get (Reg.ETH_RXBUF_CFG_xoff_thr i))
def xonThr (s : State) (i : Nat) : Nat :=
  let off := atLeast1 (s.get (Reg.ETH_RXBUF_CFG_xoff_thr i))
  let on := s.get (Reg.ETH_RXBUF_CFG_xon_thr i)
  1024 * (if off ≤ on then off - 1 else on)

/-- PAUSE_SEND (R370): the fill has risen to xoff_thr, or a repeat is due, which is timed by the quanta of the last pause
frame (R9). -/
def pauseSend (s : State) (i : Nat) : State :=
  let e := ethOf s i
  let fill := rxFill e
  let q := pauseQuanta s i
  let repeat_ := e.xoffAt + (e.quanta * 256 * bitTenths s i + 9) / 10
  if !s.on (Reg.ETH_CTRL_pause_tx_en i) || ethState s i != 2 then s
  else if (!e.xoff && decide (xoffThr s i ≤ fill)) || (e.xoff && decide (xonThr s i ≤ fill ∧ repeat_ ≤ s.ltb)) then
    (pauseOut s i q).onEth i (fun e => { e with xoff := true, xoffAt := s.ltb, quanta := q })
  else s

/-- The fill has fallen below xon_thr: a pause frame with time 0. -/
def pauseClose (s : State) (i : Nat) : State :=
  let e := ethOf s i
  if !e.xoff || decide (xonThr s i ≤ rxFill e) then s
  else
    let s := s.onEth i (fun e => { e with xoff := false })
    if s.on (Reg.ETH_CTRL_pause_tx_en i) && ethState s i == 2 then pauseOut s i 0 else s

/-! ### Enable and link (R361, R362, R374) -/

/-- Clause 37 auto-negotiation begins (R361): at the enable, and after a loss of lock. -/
def ethAdvertise (s : State) (i : Nat) : State :=
  if s.get (Reg.ETH_CTRL_mode i) = 2 ∧ s.on (Reg.ETH_CTRL_an_en i) then
    let (rx, tx) := (s.on (Reg.ETH_CTRL_pause_rx_en i), s.on (Reg.ETH_CTRL_pause_tx_en i))
    (s.emit (.advert (4 + i) rx tx)).onEth i (fun e => { e with advert := some (rx, tx) })
  else s

/-- ETH_ENABLE (R19, R282, R362): pool 3 is claimed with the first port. -/
def ethEnable (s : State) (i : Nat) : State :=
  let go := fun (s : State) => ethAdvertise ((s.set (Reg.ETH_CTRL_enable i) 1).set (Reg.ETH_STATUS_state i) 1) i
  if s.on (Reg.ETH_CTRL_enable i) || !s.on (Reg.ETH_UC_HI_valid i 0) then s
  else match claimAll s 0x1A [35] with
    | (true, s) => go s
    | (false, s) => s

/-- ETH_DISABLE (R374). -/
def ethDisable (s : State) (i : Nat) : State :=
  if !s.on (Reg.ETH_CTRL_enable i) then s
  else
    let n := (ethOf s i).rxq.length
    let s := ((s.set (Reg.ETH_CTRL_enable i) 0).set (Reg.ETH_STATUS_state i) 0).set (Reg.ETH_STATUS_link_up i) 0
    let s := (s.set (Reg.ETH_STATUS_paused i) 0).set (Reg.ETH_STATUS_wd_holdoff i) 0
    let s := (s.bumpBy (Reg.ETH_CNT_RX_DISCARD i) n).onEth i (fun e => { e with
      rxq := [], pauseEnd := none, holdEnd := none, xoff := false, lock := false, advert := none })
    if s.on (Reg.ETH_CTRL_enable (1 - i)) then s else releaseAll s 0x1A [35]

/-- LINK_UP (R361, R362): lock and any auto-negotiation complete. `result` is 0, or 1 where an SGMII PHY signals 10 or
100 Mb/s, or 2 where auto-negotiation failed; `pause` is what a 1000BASE-X partner advertised. -/
def linkUp (s : State) (i result pause : Nat) : State :=
  let mode := s.get (Reg.ETH_CTRL_mode i)
  let an := s.on (Reg.ETH_CTRL_an_en i) && decide (2 ≤ mode)
  if ethState s i = 0 ∨ (ethOf s i).lock then s
  else if result = 1 ∧ mode = 3 ∧ an then (s.set (Reg.ETH_STATUS_speed_err i) 1).raise 213 (4 + i)
  else if result = 2 ∧ an then s.raise 213 (4 + i)
  else
    let s := (s.set (Reg.ETH_STATUS_link_up i) 1).onEth i (fun e => { e with lock := true })
    let s := if mode = 2 ∧ an then s.set (Reg.ETH_STATUS_partner_pause i) pause else s
    let s := if ethState s i = 1 then s.set (Reg.ETH_STATUS_state i) 2 else s
    ethStart (ethStandbyIn (s.raise 208 (4 + i)) i) i

/-- LINK_DOWN (R362, R373): with a frame being received or not. -/
def linkDown (s : State) (i : Nat) (receiving : Bool) : State :=
  if ethState s i = 0 ∨ !(ethOf s i).lock then s
  else
    let run := ethState s i == 2
    let s := (s.set (Reg.ETH_STATUS_link_up i) 0).onEth i (fun e => { e with lock := false })
    let s := if run then s.set (Reg.ETH_STATUS_state i) 1 else s
    let s := if run && receiving then s.bump (Reg.ETH_CNT_RX_FCS_ERR i) else s
    ethAdvertise (s.raise 209 (4 + i)) i

end Sys2Proof.Machine
end

