-- ==== Sys2Proof/Machine/TwnOps.lean ====
section
/-! DEFINITION. Twin operation (chapter 16): heartbeats and misses (R385, R386), the pair's state (R387), the twin
link (R380, R382, R384). -/

namespace Sys2Proof.Machine

def twnState (s : State) : Nat := s.get Reg.TWN_STATUS_state
def hbPort (s : State) : Nat := s.get Reg.TWN_CTRL_hb_port

/-- The heartbeat paths: 0 pair, 1 Ethernet. -/
def pathOf (s : State) (p : Nat) : Path := if p = 0 then s.twn.pair else s.twn.eth

/-- A path's record, and its ok bit. -/
def setPath (s : State) (p : Nat) (x : Path) : State :=
  if p = 0 then (s.onTwn (fun t => { t with pair := x })).setb Reg.TWN_STATUS_pair_ok x.up
  else (s.onTwn (fun t => { t with eth := x })).setb Reg.TWN_STATUS_eth_ok x.up

/-! ### Enable (R377, R387) -/

/-- The fields that act at a path's next valid beat, and the one that acts at the next beat sent (TWN registers). -/
def beatFields (p : Nat) : List Fld :=
  [Reg.TWN_HB_CFG_hb_miss, if p = 0 then Reg.TWN_HB_CFG_pair_tol_us else Reg.TWN_HB_CFG_eth_tol_ms]
def sentFields : List Fld := [Reg.TWN_HB_CFG_eth_period_ms]

/-- TWN_ENABLE (R19, R282, R377): comparator 15 and pool 5 are claimed together; beats start. -/
def twnEnable (s : State) : State :=
  if s.on Reg.TWN_CTRL_enable || twinRole s == 0 || !s.on (Reg.ETH_CTRL_enable (hbPort s)) then s
  else if !claimFree s 0x16 31 then claimRefused s 0x16 31
  else match claimAll s 0x1C [37] with
    | (false, s) => s
    | (true, s) =>
      let (_, s) := claimAll s 0x16 [31]
      let (e, s) := s.drawRandom 65536
      let s := ((s.set Reg.TWN_EPOCH_epoch e).set Reg.TWN_CTRL_enable 1).set Reg.TWN_STATUS_state 1
      let s := s.takeEffect (beatFields 0 ++ beatFields 1 ++ sentFields)
      cmpCarry (s.onTwn (fun t => { t with pairAt := s.ltb, ethAt := s.ltb })) 15

/-- TWN_DISABLE (R387). -/
def twnDisable (s : State) : State :=
  if !s.on Reg.TWN_CTRL_enable then s
  else
    let s := ((s.set Reg.TWN_CTRL_enable 0).set Reg.TWN_STATUS_state 0).set Reg.TWN_STATUS_split 0
    let s := setPath (setPath s 0 {}) 1 {}
    cmpDisable (releaseAll (releaseAll s 0x16 [31]) 0x1C [37]) 15

/-! ### Beats sent (R385) -/

/-- The 40-bit word of a pair heartbeat (the octet order of its CRC is PRESUMED, log 30). -/
def pairWord (s : State) : Nat :=
  let w := 0xA5 + 2 ^ 8 * twinRole s + 2 ^ 10 * twnState s + 2 ^ 12 * s.get Reg.TWN_EPOCH_epoch + 2 ^ 28 * (s.twn.pairSeq % 16)
  w + 2 ^ 32 * crc8 (leOctets 4 w)

/-- PAIR_BEAT_SEND: every 1 ms. -/
def pairBeatSend (s : State) : State :=
  if twnState s = 0 ∨ s.ltb < s.twn.pairAt then s
  else
    cmpCarry ((s.emit (.pairBeat (pairWord s))).onTwn (fun t => { t with
      pairAt := t.pairAt + 1000000, pairSeq := t.pairSeq + 1 })) 15

/-- The Ethernet heartbeat (its source address and the order of its octets are PRESUMED, log 30). -/
def ethBeatFrame (s : State) : List Byte :=
  let body := [0x01] ++ leOctets 1 (twinRole s + 4 * twnState s) ++ leOctets 2 (s.get Reg.TWN_EPOCH_epoch) ++
    leOctets 4 s.twn.ethSeq ++ leOctets 4 (liveAngle s / 65536)
  macOf (s.get Reg.TWN_PART_MAC_LO_mac_lo) (s.get Reg.TWN_PART_MAC_HI_mac_hi) ++ unicast s (hbPort s) 0 ++
    beOctets 2 (s.get Reg.TWN_ETYPE_etype) ++ octetsAt body 0 46

/-- ETH_BEAT_SEND: every eth_period_ms; skipped while the port cannot begin a frame (R368, R385). -/
def ethBeatSend (s : State) : State :=
  if twnState s = 0 ∨ s.ltb < s.twn.ethAt then s
  else
    let s := s.takeEffect sentFields
    let period := atLeast1 (s.cur Reg.TWN_HB_CFG_eth_period_ms) * 1000000
    let frame := ethBeatFrame s
    let s := cmpCarry (s.onTwn (fun t => { t with ethAt := t.ethAt + period, ethSeq := t.ethSeq + 1 })) 15
    if ethMaySend s (hbPort s) then
      let (ref, s) := newRef s
      ethSend (s.onEth (hbPort s) (fun e => { e with beat := some ref })) (hbPort s) {
        ref := ref, port := 4 + hbPort s, svc := 0, octets := frame }
    else s

/-! ### Beats received (R385-R387) -/

/-- The state JOINING is entered. -/
def joining (s : State) : State :=
  (s.set Reg.TWN_STATUS_state 2).onTwn (fun t => { t with joinAt := s.ltb, rejoin := s.get Reg.TWN_HB_CFG2_rejoin_ms })

/-- A beat whose check has passed, by path, role, state and epoch. (A write of hb_miss or of a tolerance acts at the
path's next valid beat received: log 66.) -/
def beatReceived (s : State) (p role state epoch : Nat) : State :=
  if twnState s = 0 then s
  else if role = twinRole s then (s.bump Reg.TWN_CNT_ROLE_CLASH).raise 231
  else if role = 0 ∨ role = 3 then s
  else
    let s := s.takeEffect (beatFields p)
    let x := pathOf s p
    let s := if x.last.isSome && !x.up then s.raise 226 else s
    let s := setPath s p { last := some s.ltb, miss := 0, up := true }
    let changed := s.get Reg.TWN_PART_STAT_part_epoch != epoch
    let s := (s.set Reg.TWN_PART_STAT_part_epoch epoch).set Reg.TWN_PART_STAT_part_state state
    if twnState s = 1 then (joining s).raise 224
    else if twnState s = 3 ∧ changed then (joining (s.set Reg.TWN_STATUS_split 0)).raise 228
    else s

/-- PAIR_BEAT_RECEIVED: a word of 40 bits; one whose marker or CRC is wrong is no beat. -/
def pairBeatReceived (s : State) (w : Nat) : State :=
  if bits w 0 8 = 0xA5 ∧ bits w 32 8 = crc8 (leOctets 4 w) then
    beatReceived s 0 (bits w 8 2) (bits w 10 2) (bits w 12 16)
  else s

/-- ETH_BEAT_RECEIVED: the payload of a heartbeat frame on a port. -/
def ethBeatReceived (s : State) (port : Nat) (l : List Byte) : State :=
  if port = hbPort s ∧ octet l 0 = 1 ∧ 12 ≤ l.length then
    beatReceived s 1 (octet l 1 % 4) (bits (octet l 1) 2 2) (ofLe (octetsAt l 2 2))
  else s

/-- The instant of a path's next miss (R386). -/
def missDue (s : State) (p : Nat) (last miss : Nat) : Nat :=
  if p = 0 then last + (miss + 1) * 1000000 + s.cur Reg.TWN_HB_CFG_pair_tol_us * 1000
  else last + ((miss + 1) * atLeast1 (s.cur Reg.TWN_HB_CFG_eth_period_ms) + s.cur Reg.TWN_HB_CFG_eth_tol_ms) * 1000000

/-- No path delivers beats any more: all duties are taken (R387). -/
def partnerGone (s : State) : State :=
  if s.twn.pair.up || s.twn.eth.up then s
  else match twnState s with
    | 2 => s.set Reg.TWN_STATUS_state 1
    | 3 => (((s.set Reg.TWN_STATUS_state 1).set Reg.TWN_STATUS_split 0).bump Reg.TWN_CNT_FAIL).raise 227
    | _ => s

/-- BEAT_MISS (R386). -/
def beatMiss (s : State) (p : Nat) : State :=
  let x := pathOf s p
  match x.last with
  | none => s
  | some last =>
    if twnState s = 0 ∨ s.ltb < missDue s p last x.miss then s
    else
      let s := s.bump (if p = 0 then Reg.TWN_CNT_PAIR_MISS else Reg.TWN_CNT_ETH_MISS)
      let n := x.miss + 1
      let s := if x.up then s.onTwn (fun t => { t with joinAt := s.ltb }) else s
      if x.up ∧ atLeast1 (s.cur Reg.TWN_HB_CFG_hb_miss) ≤ n then
        partnerGone ((setPath s p { x with miss := n, up := false }).raise 225 p)
      else setPath s p { x with miss := n }

/-- REJOIN_EXPIRY (R387). -/
def rejoinExpiry (s : State) : State :=
  if twnState s = 2 ∧ 2 ≤ s.get Reg.TWN_PART_STAT_part_state ∧ s.twn.joinAt + s.twn.rejoin * 1000000 ≤ s.ltb then
    (s.set Reg.TWN_STATUS_state 3).onTwn (fun t => { t with
      pairedAt := s.ltb, splitCyc := atLeast1 (s.get Reg.TWN_HB_CFG2_split_cycles) })
  else s

/-- SPLIT_BOUNDARY (R387): a cycle whose count is a multiple of split_cycles has started at least 2 ms after the entry
to PAIRED. -/
def splitBoundary (s : State) : State :=
  let hit := fun (c : Cycle) =>
    decide ((s.twn.pairedAt : Int) + 2000000 ≤ c.s ∧ c.s ≤ (s.ltb : Int)) && c.k % s.twn.splitCyc == 0
  if twnState s = 3 ∧ !balOff s ∧ s.bal.cycles.any hit then s.set Reg.TWN_STATUS_split 1 else s

/-! ### The twin link (R380, R382, R384) -/

/-- TWIN_LINK_UP: with the credits that the partner grants for its pool 5. A recovery runtime that waits for the link asks for its
image (R406). -/
def twinLinkUp (s : State) (credits : Nat) : State :=
  if !s.on Reg.TWN_CTRL_enable || s.on Reg.TWN_STATUS_link_up then s
  else
    let s := ((s.set Reg.TWN_STATUS_link_up 1).onTwn (fun t => { t with credits := credits })).raise 230
    if s.crn.request then { s with crn := { s.crn with request := false } }.emit .imageRequest else s

/-- TWIN_LINK_DOWN. -/
def twinLinkDown (s : State) : State :=
  if !s.on Reg.TWN_STATUS_link_up then s
  else (((creditStallEnd s).set Reg.TWN_STATUS_link_up 0).onTwn (fun t => { t with credits := 0 })).raise 229

/-- CREDIT_RETURN. -/
def creditReturn (s : State) (n : Nat) : State :=
  if s.on Reg.TWN_STATUS_link_up then creditSettle (s.onTwn (fun t => { t with credits := t.credits + n })) else s

/-- The twin link takes the frame. -/
def twinTakes (s : State) (f : EscFrame) : Bool :=
  s.on Reg.TWN_STATUS_link_up && decide (creditsFor f ≤ s.twn.credits)

/-- The frame goes over the twin link. -/
def twinSend (s : State) (f : EscFrame) : State :=
  let s := s.onTwn (fun t => { t with credits := t.credits - creditsFor f })
  let s := s.emit (.twinTx f.twin f.rx.profile f.rx.rssi f.rx.lqi f.rx.angle f.octets)
  escEnd (markStage s f.mark 7 s.ltb) f false {}

/-- TWIN_FRAME_RECEIVED: kind 0 a forwarded air frame, 1 a mirrored datagram, 2 a WIRED frame. One that finds no
buffer in pool 5 is still with the partner. -/
def twinFrameReceived (s : State) (kind profile : Nat) (rssi : Int) (lqi angle : Nat) (l : List Byte) : State :=
  let bufs := buffersFor l.length
  if !s.on Reg.TWN_STATUS_link_up || !s.on Reg.TWN_CTRL_enable || decide (poolFree s 5 < bufs) then s
  else
    let rxm : RxMeta := { wired := true, lane := 7, tsLost := true }
    let w : WaitFrame := { ingress := .twin, octets := l, rx := rxm, pool := 5, bufs := bufs }
    let w := match kind with
      | 0 => { w with up := true, rx := { rxm with profile := profile, rssi := rssi, lqi := lqi, angle := angle } }
      | 1 => { w with mirror := true }
      | _ => { w with svc := some (s.get Reg.TWN_HOST_host_svc) }
    (poolTake s 5 bufs).onFwd (fun x => { x with waiting := x.waiting ++ [w] })

end Sys2Proof.Machine
end

