-- ==== Sys2Proof/Machine/WiredOps.lean ====
section
/-! DEFINITION. Ethernet reception (R363-R366, R371), wake frames (R373), and the releases of wired ports, receive rings
and the twin link (R237, R329, R367, R384). -/

namespace Sys2Proof.Machine

/-! ### Checks (R363, R364) -/

/-- The bin of a multicast address. -/
def mcBin (dst : List Byte) : Nat := ethCrc dst % 512

/-- The address check. -/
def ethAddressed (s : State) (i : Nat) (dst : List Byte) : Bool :=
  let bin := mcBin dst
  let cast := if dst = List.replicate 6 0xFF then s.on (Reg.ETH_CTRL_bcast_en i)
    else octet dst 0 % 2 == 1 && bits (s.get (Reg.ETH_MC_HASH_bins i (bin / 32))) (bin % 32) 1 == 1
  s.on (Reg.ETH_CTRL_promisc i) || cast ||
    (List.range 8).any (fun j => s.on (Reg.ETH_UC_HI_valid i j) && unicast s i j == dst)

/-- A MAC control frame that acts as a pause (R368): its pause_time. -/
def pauseTime (s : State) (i : Nat) (l : List Byte) : Option Nat :=
  let dst := l.take 6
  let ours := dst == [0x01, 0x80, 0xC2, 0x00, 0x00, 0x01] || (s.on (Reg.ETH_UC_HI_valid i 0) && dst == unicast s i 0)
  if octetsAt l 14 2 = [0x00, 0x01] ∧ ours ∧ s.on (Reg.ETH_CTRL_pause_rx_en i) then some (ofBe (octetsAt l 16 2)) else none

/-- What a port does with a frame: the first check that fails, or acceptance with the place of its EtherType. -/
inductive RxVerdict
  | drop (counter : Nat)
  | pause (time : Nat)
  | accept (ether : Nat)
deriving DecidableEq, Repr

/-- The checks of R363 on a frame with its FCS. -/
def ethCheck (s : State) (i : Nat) (frame : List Byte) : RxVerdict :=
  let n := frame.length
  let l := frame.take (n - 4)
  let type := ofBe (octetsAt l 12 2)
  if n < 64 then .drop (Reg.ETH_CNT_RX_RUNT i)
  else if min 9600 (max 64 (s.get (Reg.ETH_FRAME_CFG_max_len i))) < n then .drop (Reg.ETH_CNT_RX_OVERSIZE i)
  else if ofLe (frame.drop (n - 4)) ≠ ethCrc l then .drop (Reg.ETH_CNT_RX_FCS_ERR i)
  else if type = 0x8808 then match pauseTime s i l with
    | some t => .pause t
    | none => .drop (Reg.ETH_CNT_RX_MACCTL i)
  else
    let e := etherAt s i l
    if (type = 0x8100 ∧ e = 12) ∨ (e = 16 ∧ octetsAt l 16 2 = [0x81, 0x00]) ∨ !ethAddressed s i (l.take 6) then
      .drop (Reg.ETH_CNT_RX_FILTER_DROP i)
    else .accept e

/-! ### Reception (R365, R366, R371) -/

/-- The receive metadata of a frame whose timestamp point was passed at LTB `ts`. -/
def ethMeta (s : State) (i : Nat) (l : List Byte) (ts : Nat) : RxMeta :=
  let mode := s.get (Reg.ETH_PTP_CFG_ts_rx_mode i)
  let stamped := (mode == 1 && (ptpFind s i l).isSome) || decide (2 ≤ mode)
  let ltb := ethTs s i ts false
  { ltb := ltb, angle := angleAt s ltb, wired := true, lane := 4 + i, tsLost := !stamped || balOff s }

/-- An accepted frame is classified (R365) and enters the receive FIFO. -/
def ethAccept (s : State) (i : Nat) (frame : List Byte) (e ts : Nat) : State :=
  let l := frame.take (frame.length - 4)
  let s := s.bump (Reg.ETH_CNT_RX_OK i)
  let s := if s.on (Reg.ETH_PTP_CFG_ts_rx_mode i) then drqStore s i l (ethTs s i ts false) else s
  let type := ofBe (octetsAt l e 2)
  let w : WaitFrame := { ingress := .eth i, rx := ethMeta s i l ts, octets := l.drop (e + 2) }
  let raw := l.take 12 ++ l.drop e
  let w := if type = s.get Reg.TWN_ETYPE_etype then { w with beat := true }
    else if type = 0x86DD then { w with raw := raw }
    else { w with octets := raw, svc := some (s.get (Reg.ETH_CLASS_host_svc i)) }
  s.onEth i (fun x => { x with rxq := x.rxq ++ [(w, frame.length)] })

/-! ### From the FIFO to pool 3 (R366) -/

/-- Buffers of pool 3 that frames of the port hold. -/
def ethHeld (s : State) (i : Nat) : Nat :=
  let sum := fun (l : List Nat) => l.foldl (· + ·) 0
  let esc := fun (q : List EscFrame) =>
    sum ((q.filter (fun f => f.pool == 3 && f.rx.wired && f.rx.lane == 4 + i)).map (·.bufs))
  sum ((s.fwd.waiting.filter (fun w => w.ingress == .eth i)).map (·.bufs)) +
    sum ((s.fwd.flights.filter (fun e => e.2.ingress == .eth i && e.2.pool == 3)).map (·.2.bufs)) +
    sum (s.esc.queue.map (fun e => esc e.2)) + sum (s.eth.map (fun e => esc e.2.txq))

/-- FIFO_TO_POOL (R366): the frame at the FIFO's head moves into pool 3 and waits for its tag; a heartbeat goes on to TWN, and
its buffers are free again. -/
def fifoToPool (s : State) (i : Nat) : State :=
  match (ethOf s i).rxq with
  | [] => s
  | (w, n) :: rest =>
    let bufs := buffersFor n
    if ethState s i = 3 ∨ atLeast1 (s.get (Reg.ETH_RXBUF_CFG_rx_pool_max i)) ≤ ethHeld s i ∨ poolFree s 3 < bufs then s
    else if w.beat then pauseClose (ethBeatReceived (s.onEth i (fun e => { e with rxq := rest })) i w.octets) i
    else
      let s := poolTake (s.onEth i (fun e => { e with rxq := rest })) 3 bufs
      pauseClose (s.onFwd (fun x => { x with waiting := x.waiting ++ [{ w with pool := 3, bufs := bufs }] })) i

/-- EV211, once in an epoch for each port. -/
def ethOverflow (s : State) (i : Nat) : State :=
  let s := s.bump (Reg.ETH_CNT_RX_OVF i)
  if s.once.contains (211 + 1000 * i) then s
  else ({ s with once := (211 + 1000 * i) :: s.once } : State).raise 211 (4 + i)

/-! ### Wake frames (R373) -/

/-- Some part of the frame is six octets 0xFF and sixteen copies of an address. -/
def magicIn : List Byte → List Byte → Bool
  | _, [] => false
  | m, b :: r => m.isPrefixOf (b :: r) || magicIn m r

/-- Pattern `j` matches: every masked octet of the frame equals the pattern's. -/
def patternHit (s : State) (i j : Nat) (frame : List Byte) : Bool :=
  (List.range 128).all (fun b =>
    bits (s.get (Reg.ETH_PMASK_mask i j (b / 32))) (b % 32) 1 == 0 ||
      (decide (b < frame.length) && octet frame b == bits (s.get (Reg.ETH_PAT_octets i j (b / 4))) (8 * (b % 4)) 8))

/-- The wake causes of a frame. -/
def wakeBits (s : State) (i : Nat) (frame : List Byte) : Nat :=
  let magic := List.replicate 6 (0xFF : Byte) ++ (List.replicate 16 (unicast s i 0)).flatten
  let m := if s.on (Reg.ETH_WAKE_CTRL_magic_en i) && magicIn magic frame then 1 else 0
  (List.range 8).foldl (fun c j =>
    if bits (s.get (Reg.ETH_WAKE_CTRL_pat_en i)) j 1 == 1 && patternHit s i j frame then c + 2 ^ (j + 1) else c) m

/-- The frame is a wake frame of the port. -/
def isWakeFrame (s : State) (i : Nat) (frame : List Byte) : Bool :=
  let n := frame.length
  ofLe (frame.drop (n - 4)) == ethCrc (frame.take (n - 4)) &&
    (!s.on (Reg.ETH_CTRL_wake_filter i) || ethAddressed s i (frame.take 6)) && wakeBits s i frame != 0

/-- A frame received in STANDBY. -/
def wakeFrameRx (s : State) (i : Nat) (frame : List Byte) : State :=
  let hit := wakeBits s i frame
  if !isWakeFrame s i frame then s
  else
    let s := s.set (Reg.ETH_WAKE_CTRL_wake_cause i) (s.get (Reg.ETH_WAKE_CTRL_wake_cause i) ||| hit)
    let s := s.raise 212 (4 + i) (s.get (Reg.ETH_WAKE_CTRL_wake_cause i))
    if s.on (Reg.ETH_CTRL_auto_wake i) then ethStandbyOut (s.set (Reg.ETH_CTRL_standby i) 0) i else s

/-- ETH_RX_FRAME: a frame with its FCS; its timestamp point was passed at LTB `ts`. -/
def ethRxFrame (s : State) (i ts : Nat) (frame : List Byte) : State :=
  if !(ethOf s i).lock then s
  else match ethState s i with
    | 2 =>
      if 65536 < rxFill (ethOf s i) + frame.length then ethOverflow s i
      else match ethCheck s i frame with
        | .drop c => s.bump c
        | .pause t => pauseReceived s i t
        | .accept e => ethAccept s i frame e ts
    | 3 => wakeFrameRx s i frame
    | _ => s

/-! ### Releases (R237) -/

/-- Enough posted descriptors of the frame's ring hold it. -/
def hostTakes (posted : Tab (List (Nat × Nat))) (s : State) (f : EscFrame) : Bool :=
  match svcRing s f.svc (hostHash f) with
  | none => false
  | some r =>
    let avail := (tabGetD posted r []).take (((s.ringOf r).pIdx + 65536 - (s.ringOf r).cIdx) % 65536)
    ringLive s r && !avail.isEmpty && (descsFor 16 f.octets.length avail).isSome

/-- Rings whose posted descriptors break a rule of R330 halt. -/
def haltBadPosted (s : State) (posted : Tab (List (Nat × Nat))) : State :=
  posted.foldl (fun s e =>
    let g := s.ringOf e.1
    match (e.2.take ((g.pIdx + 65536 - g.cIdx) % 65536)).find? badPosted with
    | some d => if isRxRing e.1 && ringLive s e.1 then ringHalt s e.1 3 d.1 20 else s
    | none => s) s

/-- A release to HOST (R329, R330): the frame is written to its ring and ends. -/
def hostRelease (s : State) (posted : Tab (List (Nat × Nat))) : State :=
  let s := haltBadPosted s posted
  match wiredSelect s 6 (hostTakes posted) with
  | (none, s) => s
  | (some f, s) =>
    let r := (svcRing s f.svc (hostHash f)).getD 0
    let (_, s) := hostDeliver s f (tabGetD posted r [])
    escEnd (markStage s f.mark 7 s.ltb) f false {}

/-- A frame waits for credits of the twin link (R384). -/
def creditStall (s : State) : State :=
  if s.on Reg.TWN_STATUS_link_up && creditLacks s && s.twn.stall.isNone then s.onTwn (fun t => { t with stall := some s.ltb }) else s

/-- WIRED_PORT_RELEASE: of port 4 or 5 (Ethernet), 6 (HOST: `posted` holds, by receive ring, the descriptors that
memory holds from its consumer count on) or 7 (twin link). -/
def wiredPortRelease (s : State) (port : Nat) (posted : Tab (List (Nat × Nat))) : State :=
  match port with
  | 4 => match wiredSelect s 4 (fun s f => ethTakes s 0 f) with
    | (some f, s) => ethSend s 0 f
    | (none, s) => s
  | 5 => match wiredSelect s 5 (fun s f => ethTakes s 1 f) with
    | (some f, s) => ethSend s 1 f
    | (none, s) => s
  | 6 => hostRelease s posted
  | 7 => match wiredSelect s 7 twinTakes with
    | (some f, s) => twinSend s f
    | (none, s) => creditStall s
  | _ => s

end Sys2Proof.Machine
end

