-- ==== Sys2Proof/Machine/MbxOps.lean ====
section
/-! DEFINITION. Mailboxes, semaphores and cluster interrupt lines (chapter 14), and the endpoints' down states
(R348). -/

namespace Sys2Proof.Machine

/-! ### The cores' address map (R36, R346) -/

/-- What the cores find at a physical address, with the offset in it. -/
inductive CoreRegion
  | rom (off : Nat)
  | sram (off : Nat)
  | flash (off : Nat)
  | bar0 (off : Nat)
  | doorbells (off : Nat)
  | dram (off : Nat)
  | busError
deriving DecidableEq, Repr

/-- The map of R346: a master of the cluster reaches the register at offset `o` of BAR0 at address 0x4000_0000 + `o`, and the
doorbell page at 0x4020_0000 (R36). -/
def coreMap (a : Nat) : CoreRegion :=
  if a < 0x10000 then .rom a
  else if 0x10000000 ≤ a ∧ a < 0x10200000 then .sram (a - 0x10000000)
  else if 0x20000000 ≤ a ∧ a < 0x28000000 then .flash (a - 0x20000000)
  else if 0x40000000 ≤ a ∧ a < 0x40200000 then .bar0 (a - 0x40000000)
  else if 0x40200000 ≤ a ∧ a < 0x40201000 then .doorbells (a - 0x40200000)
  else if 0x80000000 ≤ a ∧ a < 0x180000000 then .dram (a - 0x80000000)
  else .busError

/-! ### Endpoints (R347, R348) -/

/-- A master's endpoint, and whether it is secure (R301, R302, R348). -/
def endpointOf : Master → Nat × Bool
  | .host => (0, false)
  | .coreNs c => (c.val + 1, false)
  | .coreS c => (c.val + 1, true)
  | .crown => (1, true)

/-- HOST is down. -/
def hostDown (s : State) : Bool :=
  s.on Reg.HIF_STATUS_standalone || !s.on Reg.HIF_STATUS_link_up || s.hif.d3hot || s.hif.flr

def endDown (s : State) (e : Nat) : Bool := if e = 0 then hostDown s else bits (coresDown s) (e - 1) 1 == 1

def semOf (s : State) (k : Nat) : Sem := tabGetD s.mbx.sems k {}
def setSem (s : State) (k : Nat) (x : Sem) : State := { s with mbx := { s.mbx with sems := tabPut s.mbx.sems k x } }

/-- An endpoint enters down: its epoch, and the semaphores it holds (R348, R357). -/
def enterDown (s : State) (e : Nat) : State :=
  let ep := (s.get (Reg.MBX_EP_epoch e) + 1) % 65536
  let s := (s.set (Reg.MBX_EP_epoch e) ep).raise 255 e ep
  let held := (s.mbx.sems.filter (fun x => x.2.owner % 8 == e && decide (128 ≤ x.2.owner))).map (·.1)
  held.foldl (fun s k => (setSem s k { owner := 0, abandoned := true }).raise 253 k) s

/-- A change that may take HOST down (R348): in standalone mode HOST is always down and its epoch stays 0. -/
def hostChange (s : State) (f : State → State) : State :=
  let was := hostDown s
  let s := f s
  if !was && hostDown s then enterDown s 0 else s

/-! ### Channels (R349-R355) -/

/-- Who may use a register of a channel (R350). -/
inductive Party | config | status | sender | receiver
deriving DecidableEq, Repr

def chanOf (s : State) (n : Nat) : MbxCh := tabGetD s.mbx.chans n {}
def setChan (s : State) (n : Nat) (c : MbxCh) : State := { s with mbx := { s.mbx with chans := tabPut s.mbx.chans n c } }

/-- R350 refuses the access. -/
def chanRefuses (s : State) (m : Master) (n : Nat) (p : Party) : Bool :=
  let (e, secure) := endpointOf m
  let on := s.on (Reg.MBX_CH_CFG_enable n)
  (decide (n < 16) && !secure) || match p with
    | .config => false
    | .status => !on
    | .sender => !on || s.get (Reg.MBX_CH_CFG_sender n) != e
    | .receiver => !on || s.get (Reg.MBX_CH_CFG_receiver n) != e

/-- The completion of an access that finds the receiver down (R355). -/
def downResp (m : Master) (write : Bool) : Resp :=
  if m = .host then (if write then .discarded else .completerAbort) else .busError

/-- An access to a channel register: whether it goes on, and the state after its refusal (R350, R355). -/
def chanAccess (s : State) (m : Master) (n : Nat) (p : Party) (write : Bool) : Bool × State :=
  if chanRefuses s m n p then
    (false, { (s.bump Reg.MBX_CNT_FOREIGN).raise 252 n with resp := if write then .ok else .value 0 })
  else
    let rx := s.get (Reg.MBX_CH_CFG_receiver n)
    if (p = .sender ∨ p = .receiver) ∧ endDown s rx then
      (false, { (s.bump Reg.MBX_CNT_PD_ERR).raise 251 n rx with resp := downResp m write })
    else (true, s)

def chanShow (s : State) (n : Nat) : State := s.set (Reg.MBX_CH_STAT_level n) (chanOf s n).msgs.length

/-- POST (R351, R352). -/
def post (s : State) (m : Master) (n len : Nat) : State :=
  match chanAccess s m n .sender true with
  | (false, s) => s
  | (true, s) =>
    if len = 0 ∨ 8 < len then s
    else
      let c := chanOf s n
      let msg : Msg := {
        words := (List.range len).map (fun i => BitVec.ofNat 32 (s.get (Reg.MBX_CH_TXD_word n i)))
        txEpoch := s.get (Reg.MBX_EP_epoch (s.get (Reg.MBX_CH_CFG_sender n)))
        rxEpoch := s.get (Reg.MBX_EP_epoch (s.get (Reg.MBX_CH_CFG_receiver n)))
        seq := c.seq }
      let full := decide (4 ≤ c.msgs.length)
      let msgs := if full then c.msgs.take 3 ++ [{ msg with collision := true }] else c.msgs ++ [msg]
      let s := chanShow (setChan s n { msgs := msgs, seq := (c.seq + 1) % 65536 }) n
      let s := if full then ((s.set (Reg.MBX_CH_STAT_collision n) 1).bump Reg.MBX_CNT_COLLISION).raise 250 n else s
      let s := s.bump Reg.MBX_CNT_POST
      if s.on (Reg.MBX_CH_CFG_ev_en n) then s.raise (if n < 16 then 249 else 248) n else s

/-- MBX_POP (R353). -/
def mbxPop (s : State) (m : Master) (n : Nat) : State :=
  match chanAccess s m n .receiver true with
  | (false, s) => s
  | (true, s) => let c := chanOf s n
    chanShow (setChan s n { c with msgs := c.msgs.drop 1 }) n

/-- CHANNEL_CFG (R349): a write of MBX_CH_CFGn. -/
def channelCfg (s : State) (m : Master) (n : Nat) (val : Nat) : State :=
  let master := match m with
    | .coreS _ => true
    | .crown => true
    | _ => false
  if !master then
    let s := if n < 16 then s.bump Reg.MBX_CNT_FOREIGN else s
    s.raise 252 n
  else
    let was := s.on (Reg.MBX_CH_CFG_enable n)
    let s := s.set (Reg.MBX_CH_CFG_ev_en n) (bits val 7 1)
    let s := if was then s
      else (s.set (Reg.MBX_CH_CFG_sender n) (bits val 1 3)).set (Reg.MBX_CH_CFG_receiver n) (bits val 4 3)
    if bits val 0 1 = 0 then
      chanShow (setChan (s.set (Reg.MBX_CH_CFG_enable n) 0) n { chanOf s n with msgs := [] }) n
    else if was then s
    else
      let a := s.get (Reg.MBX_CH_CFG_sender n)
      let b := s.get (Reg.MBX_CH_CFG_receiver n)
      let host := a == 0 || b == 0
      if a = b ∨ 4 < a ∨ 4 < b ∨ host ∧ (n < 16 ∨ s.on Reg.HIF_STATUS_standalone) then s
      else s.set (Reg.MBX_CH_CFG_enable n) 1

/-- The header of a channel (R353, R354). -/
def chanHeader (s : State) (n : Nat) : Nat :=
  match (chanOf s n).msgs.head? with
  | none => 0
  | some x =>
    let b := fun (c : Bool) (i : Nat) => if c then 2 ^ i else 0
    1 + 2 * x.words.length + b (s.get (Reg.MBX_EP_epoch (s.get (Reg.MBX_CH_CFG_receiver n))) != x.rxEpoch) 5 +
      b (s.get (Reg.MBX_EP_epoch (s.get (Reg.MBX_CH_CFG_sender n))) != x.txEpoch) 6 + b x.collision 7 + 2 ^ 16 * x.seq

/-- A word of the head message (R353). -/
def chanWord (s : State) (n i : Nat) : Nat :=
  match (chanOf s n).msgs.head? with
  | none => 0
  | some x => ((x.words[i]?).map (·.toNat)).getD 0

def chanEpochs (s : State) (n : Nat) : Nat :=
  match (chanOf s n).msgs.head? with
  | none => 0
  | some x => x.txEpoch + 2 ^ 16 * x.rxEpoch

/-! ### Semaphores (R356, R357) -/

/-- The owner identifier of a master. -/
def ownerId (m : Master) : Nat :=
  let (e, secure) := endpointOf m
  128 + (if secure then 8 else 0) + e

/-- SEM_TAKE: a read of MBX_SEM_LOCKk. -/
def semTake (s : State) (m : Master) (k : Nat) : State :=
  let x := semOf s k
  if k < 32 ∧ !(endpointOf m).2 then { s.raise 252 k with resp := .value 0xFF }
  else if x.owner = 0 then
    { setSem s k { owner := ownerId m } with resp := .value (if x.abandoned then 256 else 0) }
  else { s with resp := .value (BitVec.ofNat 32 x.owner) }

/-- SEM_RELEASE: a write of MBX_SEM_LOCKk. Only the owner's write of its own identifier frees it. -/
def semRelease (s : State) (m : Master) (k val : Nat) : State :=
  let x := semOf s k
  if x.owner ≠ 0 ∧ x.owner = ownerId m ∧ val % 256 = x.owner then setSem s k { x with owner := 0 }
  else (s.bump Reg.MBX_CNT_SEM_BADREL).raise 254 k

/-- SEM_FORCE: a secure write of MBX_SEM_FORCE. -/
def semForce (s : State) (m : Master) (k : Nat) : State :=
  if (endpointOf m).2 then setSem s k { owner := 0, abandoned := true } else s

/-! ### Cluster interrupt lines (R358) -/

/-- A pending line is delivered where it is unmasked with targets. -/
def lineDeliver (s : State) (v : Nat) : State :=
  if s.mbx.lines.contains v && !s.on (Reg.MBX_CIRQ_CFG_mask v) && s.on (Reg.MBX_CIRQ_CFG_targets v) then lineFire s v else s

/-- CLUSTER_LINE_UNMASK. -/
def clusterLineUnmask (s : State) (v : Nat) : State := lineDeliver (s.set (Reg.MBX_CIRQ_CFG_mask v) 0) v

end Sys2Proof.Machine
end

