-- ==== Sys2Proof/Machine/PwrOps.lean ====
section
/-! DEFINITION. Power, reset and faults (chapter 19): chip resets and straps (R422-R428), core domains and watchdogs
(R426), power states (R430-R432), the fault classifier (R433-R435), PCIe link states (R321, R348). -/

namespace Sys2Proof.Machine

def State.onPwr (s : State) (f : Pwr → Pwr) : State := { s with pwr := f s.pwr }

/-! ### Chip reset (R424, R425, R427) -/

/-- The cause bits. -/
def causePor : Nat := 0
def causeVmon : Nat := 1
def causeRail : Nat := 2
def causeThermal : Nat := 3
def causeSw : Nat := 4
def causeWdt : Nat := 5
def causeD2d : Nat := 6

/-- PWR_STRAP (R427). -/
def strapWord (x : Straps) : Nat :=
  let twin := if x.twin.toNat = 3 then 0 else x.twin.toNat
  let b := fun (c : Bool) (i : Nat) => if c then 2 ^ i else 0
  x.boot.toNat + 4 * x.region.toNat + 16 * twin + b x.host 6 + b x.gridf 7 + b x.refclk 8

/-- The fields whose reset value is a strap's (R8, R73, R343, R377, R427). -/
def applyStraps (s : State) (x : Straps) : State :=
  let region := x.region.toNat
  let s := ((s.set Reg.PWR_STRAP_straps (strapWord x)).setb Reg.PWR_STATUS_strap_fault (region == 3)).setb
    Reg.BAL_GRID_CFG_nominal x.gridf
  let s := s.set Reg.TWN_CTRL_role (if x.twin.toNat = 3 then 0 else x.twin.toNat)
  let s := match region with
    | 0 => s
    | 1 => (s.set (Reg.RFX_TUNE_lo_khz 0) 915100).set (Reg.RFX_TUNE_bw 0) 1
    | _ =>
      let s := (s.set (Reg.RFX_TUNE_lo_khz 0) 0).set (Reg.RFX_TUNE_bw 0) 0
      ((s.set (Reg.RFX_STATUS_region_block 0) 1).set (Reg.TXC_STATUS_region_block 0) 1).set (Reg.TXC_STATUS_region_block 1) 1
  if x.host then
    let s := s.set Reg.HIF_STATUS_standalone 1
    let s := (List.range 256).foldl (fun s r => s.set (Reg.HIF_RING_CTRL_owner r) 1) s
    (List.range 64).foldl (fun s v => s.set (Reg.HIF_VEC_CFG_dest v) 1) s
  else s

/-- The always-on latch's registers (R425). -/
def keptFields : List Fld := [
  Reg.PWR_RST_CAUSE_cause, Reg.PWR_VMON_CFG_warn_mv, Reg.PWR_VMON_CFG_rst_mv, Reg.PWR_VMON_CFG_hyst_mv,
  Reg.PWR_TEMP_CFG_warn_c, Reg.PWR_TEMP_CFG_trip_c]

/-- The Crown's boot since the last release has not ended (R405). -/
def booting (s : State) : Bool := !s.pwr.held && !s.on Reg.CRN_STATUS_handed_over && !s.on Reg.CRN_STATUS_recovery

/-- What a reset leaves of the update engine: the flash, and what is cut short (R400, R401). -/
def crnKept (s : State) : Crn := { s.crn with
  staged := [], loaded := [], request := false, cutBoots := s.crn.cutBoots + if booting s then 1 else 0 }

/-- The state of a chip that is held in reset: what the environment keeps, the always-on latch, and the life-cycle state read
from fuses (R303). -/
def resetState (s : State) : State :=
  let r : State := {
    pending := s.pending, ltb := s.ltb, freeCtr := s.freeCtr, out := s.out, straps := s.straps, fuses := s.fuses
    crn := crnKept s }
  let r := keptFields.foldl (fun r f => r.set f (s.get f)) (r.set Reg.JWL_STATUS_lc_state s.fuses.lcState)
  let p := s.pwr
  applyStraps (r.onPwr (fun x => { x with
    held := true, vmonGood := p.vmonGood, vmonWait := p.vmonWait, temps := p.temps, thermal := p.thermal, resetAt := p.resetAt
    wdtDue := p.wdtDue })) s.straps

/-- A life-cycle change that a reset cuts short leaves the old state or the new one (R304 says so of lost power; a chip reset
is taken likewise, log 35). -/
def lcCut (s : State) : State :=
  match s.jwl.lcTarget with
  | some (target, _) =>
    let (x, s) := s.drawFree 2
    if x = 0 then s else { s with fuses := { s.fuses with lcState := target } }
  | none => s

/-- The cores whose watchdog with action 1 is due. -/
def wdtDueNow (s : State) : List Nat :=
  (s.pwr.wdtStart.filter (fun e =>
    decide (e.2 + tabGetD s.pwr.wdtMs e.1 5000 * 1000000 ≤ s.ltb) && s.on (Reg.PWR_WDT_CFG_action e.1))).map (·.1)

/-- A cause bit is set. -/
def setCause (s : State) (cause : Nat) : State :=
  s.set Reg.PWR_RST_CAUSE_cause (s.get Reg.PWR_RST_CAUSE_cause ||| 2 ^ cause)

/-- What the release of a chip reset waits for (R423, R424): of a VMON reset its 10 ms, of a thermal one the temperatures. -/
def resetHold (s : State) (cause : Nat) : State :=
  let due := wdtDueNow s
  s.onPwr (fun p => { p with
    vmonGood := if cause = causeVmon then none else p.vmonGood
    vmonWait := if cause = causeVmon then 2 else p.vmonWait
    thermal := p.thermal || cause == causeThermal
    resetAt := if p.held then p.resetAt else s.ltb
    wdtDue := if p.held then p.wdtDue else due })

/-- A chip reset with a cause (R424, R425): it is held from now on. While PORn is low everything is in reset already. -/
def chipReset (s : State) (cause : Nat) : State :=
  if s.pwr.porLow then s else resetState (lcCut (setCause (resetHold s cause) cause))

/-- A reset source acted in the fabric cycle in which chip reset was asserted: it sets its cause bit too (R424). -/
def sameCycle (s : State) (cause : Nat) (acted : Bool) : State :=
  if !s.pwr.porLow && s.pwr.resetAt == s.ltb && acted then setCause s cause else s

/-- PORN_LOW (R424): everything is reset, the always-on latch too. -/
def pornLow (s : State) : State :=
  let s := lcCut s
  let r : State := {
    pending := s.pending, ltb := s.ltb, freeCtr := s.freeCtr, out := s.out, fuses := s.fuses, crn := crnKept s }
  let p := s.pwr
  (r.set Reg.JWL_STATUS_lc_state s.fuses.lcState).onPwr (fun x => { x with
    held := true, porLow := true, vmonGood := p.vmonGood, temps := p.temps })

/-- PORN_RISE (R424, R427), after a time at low: the straps are sampled, cause reads por alone, and chip reset is held, until VMON
is high (R423). -/
def pornRise (s : State) (x : Straps) : State :=
  let s := if s.pwr.porLow then s else pornLow s
  resetState { (s.set Reg.PWR_RST_CAUSE_cause 1).onPwr (fun p => { p with vmonWait := 1, resetAt := s.ltb }) with straps := x }

/-- What a chip reset is held for is over (R423, R424). -/
def holdOver (s : State) : Bool :=
  let vmon := match s.pwr.vmonWait, s.pwr.vmonGood with
    | 0, _ => true
    | 1, x => x.isSome
    | _, x => x.any (fun x => decide (x + 10000000 ≤ s.ltb))
  let trip : Nat := min 135 (s.get Reg.PWR_TEMP_CFG_trip_c)
  vmon && (!s.pwr.thermal || decide (max s.pwr.temps.1 s.pwr.temps.2 < 10 * ((trip : Int) - 20)))

/-- CHIP_RESET_RELEASE (R42, R425, R428): the LTB restarts; a strap fault is reported (R427). The command stands for the
end of the reset, which comes no earlier than R423 and R424 let it (log 68), and not while PORn is low. -/
def chipResetRelease (s : State) : State :=
  if !s.pwr.held || s.pwr.porLow || !holdOver s then s
  else
    let s := (({ s with ltb := 0 } : State).onPwr (fun p => { p with
      held := false, wdtStart := [(0, 0)], vmonGood := p.vmonGood.map (fun _ => 0), vmonWait := 0, thermal := false
      resetAt := 0, wdtDue := [] })).set
      Reg.PWR_STATUS_d2d_ok 1
    let s := s.set Reg.BAL_STATUS_refclk_unlocked 0
    if s.on Reg.PWR_STATUS_strap_fault then s.raise 3 else s

/-! ### Supplies, temperature, die-to-die link (R422-R424, R437) -/

/-- VMON_WARN (R423): VMON is below warn_mv. -/
def vmonWarn (s : State) : State :=
  let s := s.onPwr (fun p => { p with vmonGood := none })
  if s.pwr.held || s.on Reg.PWR_STATUS_warn then s else (s.set Reg.PWR_STATUS_warn 1).raise 0

/-- VMON_WARN_CLEAR (R423): VMON has been at or above warn_mv + hyst_mv for the filter's 2 µs. -/
def vmonWarnClear (s : State) : State :=
  let s := s.onPwr (fun p => { p with vmonGood := some (p.vmonGood.getD (s.ltb - 2000)) })
  if s.pwr.held || !s.on Reg.PWR_STATUS_warn then s else (s.set Reg.PWR_STATUS_warn 0).raise 1

/-- The junction temperatures as last measured, 0.1 °C. -/
def setTemps (s : State) (rf dig : Int) : State :=
  ((s.sset Reg.PWR_TEMP_temp_rf rf).sset Reg.PWR_TEMP_temp_dig dig).onPwr (fun p => { p with temps := (rf, dig) })

/-- THERMAL_WARN (R437): EV002 when a junction comes above warn_c; in reset the temperatures decide the hold alone (R424). -/
def thermalWarn (s : State) (rf dig : Int) : State :=
  if s.pwr.held then s.onPwr (fun p => { p with temps := (rf, dig) }) else
  let above := decide ((10 * s.get Reg.PWR_TEMP_CFG_warn_c : Nat) < max rf dig)
  let was := s.on Reg.PWR_STATUS_temp_warn
  let s := (setTemps s rf dig).setb Reg.PWR_STATUS_temp_warn above
  if above && !was then s.raise 2 else s

/-- THERMAL_TRIP (R424): a junction above trip_c; below it the measurement shows as any other. -/
def thermalTrip (s : State) (rf dig : Int) : State :=
  if ((10 * min 135 (s.get Reg.PWR_TEMP_CFG_trip_c) : Nat) : Int) < max rf dig then
    chipReset (s.onPwr (fun p => { p with temps := (rf, dig) })) causeThermal
  else thermalWarn s rf dig

/-- D2D_CRC_ERROR (R437). -/
def d2dCrcError (s : State) : State := raiseFirst (s.bump Reg.PWR_CNT_D2D_ERR) 11

/-! ### Core domains and watchdogs (R426) -/

def setCoreDown (s : State) (c : Nat) (down : Bool) : State :=
  s.set Reg.PWR_DOM_core_down (putBits (s.get Reg.PWR_DOM_core_down) c 1 (if down then 1 else 0))

def corePowered (s : State) (c : Nat) : Bool := bits (s.get Reg.PWR_DOM_core_pwr) c 1 == 1

/-- The domain goes down: its endpoint, its watchdog; it stays so until LTB `until_`, or until it is powered. -/
def coreDownNow (s : State) (c : Nat) (until_ : Option Nat) : State :=
  let s := if endDown s (c + 1) then s else enterDown (setCoreDown s c true) (c + 1)
  s.onPwr (fun p => { p with
    wdtStart := tabDel p.wdtStart c
    coreRelease := match until_ with
      | some t => tabPut p.coreRelease c t
      | none => tabDel p.coreRelease c })

/-- The domain of core `c` is reset for 10 µs; one that is powered off stays so, and one that is powering on is released no
earlier. -/
def coreReset (s : State) (c : Nat) : State :=
  if corePowered s c && s.get Reg.PWR_STATUS_state != 2 || c == 0 then 
    coreDownNow s c (some (max (tabGetD s.pwr.coreRelease c 0) (s.ltb + 10000)))
  else s

/-- The full timeout of a core's watchdog in ms. -/
def wdtTimeout (s : State) (c : Nat) : Nat := atLeast1 (s.get (Reg.PWR_WDT_CFG_timeout_ms c))

/-- The watchdog starts now with its full timeout. -/
def wdtRestart (s : State) (c : Nat) : State :=
  s.onPwr (fun p => { p with wdtStart := tabPut p.wdtStart c s.ltb, wdtMs := tabPut p.wdtMs c (wdtTimeout s c) })

/-- CORE_DOMAIN_RELEASE. -/
def coreDomainRelease (s : State) (c : Nat) : State :=
  match tabGet s.pwr.coreRelease c with
  | none => s
  | some t =>
    if s.ltb < t then s
    else
      let s := (setCoreDown s c false).onPwr (fun p => { p with coreRelease := tabDel p.coreRelease c })
      let s := s.emit (.coreStart c)
      if s.on (Reg.PWR_WDT_CFG_en c) then wdtRestart s c else s

/-- KICK. -/
def kick (s : State) (c : Nat) : State := if (tabGet s.pwr.wdtStart c).isSome then wdtRestart s c else s

/-- WATCHDOG_CONFIG: a write of PWR_WDT_CFGc. -/
def watchdogConfig (s : State) (c : Nat) (en : Bool) (action : Bool) (timeout : Nat) : State :=
  let was := s.on (Reg.PWR_WDT_CFG_en c)
  let s := ((s.setb (Reg.PWR_WDT_CFG_en c) en).setb (Reg.PWR_WDT_CFG_action c) action).set (Reg.PWR_WDT_CFG_timeout_ms c) timeout
  if en && !was then (if endDown s (c + 1) then s else wdtRestart s c)
  else if !en then s.onPwr (fun p => { p with wdtStart := tabDel p.wdtStart c })
  else s

/-- WATCHDOG_EXPIRY (R424, R426). -/
def watchdogExpiry (s : State) (c : Nat) : State :=
  if s.pwr.held then sameCycle s causeWdt (s.pwr.wdtDue.contains c) else
  match tabGet s.pwr.wdtStart c with
  | none => s
  | some t =>
    if s.ltb < t + tabGetD s.pwr.wdtMs c 5000 * 1000000 then s
    else
      let s := s.bump Reg.PWR_CNT_WDT
      if s.on (Reg.PWR_WDT_CFG_action c) then chipReset s causeWdt else (coreReset s c).raise 4 c

/-- CHIP_RESET_COMMAND and CORE_RESET_COMMAND (R424): a write of PWR_RST_CMD acts only with its key. -/
def rstKey : Nat := 0xA55A

def chipResetCommand (s : State) (key : Nat) : State :=
  if s.pwr.held then sameCycle s causeSw (key == rstKey) else if key = rstKey then chipReset s causeSw else s

def coreResetCommand (s : State) (key mask : Nat) : State :=
  if key = rstKey then
    ((List.range 4).filter (fun c => bits mask c 1 == 1)).foldl (fun s c => (coreReset s c).raise 4 c) s
  else s

/-- CORE_POWER: a write of core_pwr; CORE0 ignores 0. -/
def corePower (s : State) (mask : Nat) : State :=
  let old := s.get Reg.PWR_DOM_core_pwr
  let s := s.set Reg.PWR_DOM_core_pwr (mask ||| 1)
  [1, 2, 3].foldl (fun s c =>
    if bits mask c 1 = bits old c 1 then s
    else if bits mask c 1 = 0 then coreDownNow s c none
    else if s.get Reg.PWR_STATUS_state = 2 then s
    else s.onPwr (fun p => { p with coreRelease := tabPut p.coreRelease c (s.ltb + 50000) })) s

/-! ### Power states (R430-R432) -/

/-- The first result of R431 that applies; 0 where the request is taken. -/
def stateReqResult (s : State) (target : Nat) : Nat :=
  let st := s.get Reg.PWR_STATUS_state
  let radio := s.on (Reg.RFX_STATUS_state 0) || s.on (Reg.RFX_STATUS_state 1) ||
    (List.range 4).any (fun n => s.on (Reg.TXC_STATUS_state n))
  let blocks := s.on Reg.FWD_CTRL_enable || s.on Reg.ESC_CTRL_enable || s.on Reg.AMC_CTRL_enable || s.on Reg.SLP_CTRL_enable
  let eth := (List.range 2).any (fun i => s.on (Reg.ETH_CTRL_enable i) && ethState s i != 3)
  if 2 < target ∨ !(target == st + 1 || st == target + 1) then 4
  else if s.pwr.trans.isSome then 5
  else if st = 0 ∧ radio then 1
  else if st = 1 ∧ target = 2 ∧ blocks then 2
  else if st = 1 ∧ target = 2 ∧ eth then 3
  else 0

/-- A transition begins (R431): RUN to QUIET is given no time. -/
def startTransition (s : State) (target : Nat) : State :=
  let ns := match s.get Reg.PWR_STATUS_state, target with
    | 1, 0 => 500000
    | 1, _ => 1000000
    | 2, _ => 2000000
    | _, _ => 0
  (s.set Reg.PWR_STATE_REQ_busy 1).onPwr (fun p => { p with trans := some (target, s.ltb + ns) })

/-- POWER_STATE_REQ. -/
def powerStateReq (s : State) (target : Nat) : State :=
  let r := stateReqResult s target
  let s := s.set Reg.PWR_STATE_REQ_result r
  if r ≠ 0 then s.raise 6 0 0 r else startTransition s target

/-- What the entry to QUIET leaves: no cached channel, no SIC entry, no cal_done (R431). -/
def enterQuiet (s : State) : State :=
  let s := (List.range 4).foldl (fun s n =>
    cacheCount ((s.onChain n (fun c => { c with slots := [], fills := [], cal := none, evict := none })).set
      (Reg.TXC_STATUS_cal_done n) 0) n) s
  let s := (List.range 2).foldl (fun s b => s.set (Reg.RFX_STATUS_cal_done b) 0) s
  { s with sic := { s.sic with entries := [] } }

/-- CORE1-CORE3 are off in STANDBY, and powered again as core_pwr says after it (R430). -/
def enterStandby (s : State) : State :=
  let s := s.takeEffect [Reg.PWR_WAKE_CFG_wake_eth, Reg.PWR_WAKE_CFG_wake_host, Reg.PWR_WAKE_CFG_wake_tci]
  [1, 2, 3].foldl (fun s c => coreDownNow s c none) s

def leaveStandby (s : State) : State :=
  [1, 2, 3].foldl (fun s c =>
    if corePowered s c then s.onPwr (fun p => { p with coreRelease := tabPut p.coreRelease c (s.ltb + 50000) }) else s) s

/-- POWER_TRANSITION_DONE. -/
def powerTransitionDone (s : State) : State :=
  match s.pwr.trans with
  | none => s
  | some (target, due) =>
    if s.ltb < due then s
    else
      let st := s.get Reg.PWR_STATUS_state
      let s := ((s.set Reg.PWR_STATUS_state target).set Reg.PWR_STATE_REQ_busy 0).onPwr (fun p => { p with trans := none })
      let s := match st, target with
        | 0, _ => enterQuiet s
        | 1, 2 => enterStandby s
        | 2, _ => leaveStandby s
        | _, _ => s
      s.raise 5 target

/-- A wake source is enabled: 0 ETH0, 1 ETH1, 2 host, 3-6 TCI0-TCI3 (R432). -/
def wakeEnabled (s : State) (src : Nat) : Bool :=
  if src < 2 then s.cur Reg.PWR_WAKE_CFG_wake_eth == 1
  else if src = 2 then s.cur Reg.PWR_WAKE_CFG_wake_host == 1
  else bits (s.cur Reg.PWR_WAKE_CFG_wake_tci) (src - 3) 1 == 1

/-- STANDBY_WAKE (R432). -/
def standbyWake (s : State) (src : Nat) : State :=
  if s.get Reg.PWR_STATUS_state = 2 ∧ s.pwr.trans.isNone ∧ wakeEnabled s src then
    startTransition (s.set Reg.PWR_WAKE_CFG_wake_src (s.get Reg.PWR_WAKE_CFG_wake_src ||| 2 ^ src)) 1
  else s

/-! ### The retired-channel list (R148, R434) -/

/-- CHANNEL_RETIRE: an entry's valid is written 1. -/
def channelRetire (s : State) (k : Nat) : State :=
  if s.on (Reg.CHZ_RCH_FREQ_valid k) then s
  else
    laneChannelStop ((rxReached s).set (Reg.CHZ_RCH_FREQ_valid k) 1) (s.get (Reg.CHZ_RCH_FREQ_band k)) (s.get (Reg.CHZ_RCH_FREQ_freq_khz k))
      (s.get (Reg.CHZ_RCH_WIDTH_width_khz k) * 1000)

/-- The classifier retires the channel that a lane reported (R434). -/
def autoRetire (s : State) (lane : Nat) (band freq : Nat) : State :=
  if !s.on Reg.PWR_FC_CFG_auto_retire then s
  else match (List.range 32).find? (fun k => !s.on (Reg.CHZ_RCH_FREQ_valid k)) with
    | none => (s.bump Reg.PWR_CNT_RETIRE_FULL).raise 9
    | some k =>
      let hz := match (s.laneOf lane).assign with
        | some a => occupiedHz s a.profile
        | none => 0
      let s := (s.set (Reg.CHZ_RCH_FREQ_freq_khz k) freq).set (Reg.CHZ_RCH_FREQ_band k) band
      ((channelRetire (s.set (Reg.CHZ_RCH_WIDTH_width_khz k) ((hz + 999) / 1000)) k).bump Reg.PWR_CNT_RETIRE).raise 8 k

/-! ### The fault classifier (R433, R435) -/

/-- A permanent fault: the list, its counter and EV007. -/
def declare (s : State) (cls obj idx : Nat) : State :=
  let perm := if s.pwr.perm.length < 16 then s.pwr.perm ++ [(cls, obj, idx)] else s.pwr.perm
  let s := (s.onPwr (fun p => { p with perm := perm })).set Reg.PWR_PERM_CNT_count perm.length
  (s.bump Reg.PWR_CNT_PERMANENT).raise 7 cls obj idx

/-- Two histories speak of the same fault. -/
def sameFault (a b : FaultHist) : Bool :=
  a.cls == b.cls && a.obj == b.obj && (if a.cls = 3 then decide (absDiff a.idx b.idx ≤ 10) else a.idx == b.idx)

/-- How many histories the classifier keeps for a class: 32 channels, 32 addresses. -/
def histGroup (cls : Nat) : Nat := if cls = 3 then 1 else if 6 ≤ cls then 2 else 0

/-- The history of a fault replaces its old one; a full group loses the one whose last event is oldest. -/
def histPut (l : List FaultHist) (h : FaultHist) : List FaultHist :=
  if l.any (sameFault h) then l.map (fun x => if sameFault h x then h else x)
  else
    let g := histGroup h.cls
    let group := l.filter (fun x => histGroup x.cls == g)
    if g ≠ 0 ∧ 32 ≤ group.length then
      let oldest := group.foldl (fun (m : FaultHist) x => if x.last < m.last then x else m) (group.headD h)
      l.filter (fun x => x != oldest) ++ [h]
    else l ++ [h]

/-- The class, object and index of a fault event; none for one that is always transient. -/
def faultClass (e : FaultEv) : Option (Nat × Nat × Nat) :=
  match e.ev with
  | 68 => some (1, 0, 0)
  | 69 => some (1, 1, 0)
  | 80 => some (2, e.a0, 0)
  | 82 => some (3, bits e.a1 22 1, bits e.a1 0 22)
  | 76 => some (4, e.a0, e.a1)
  | 77 => some (5, e.a0, 0)
  | 160 => some (6, 0, e.a1)
  | 161 => some (7, 0, e.a1)
  | 166 => some (8, 0, e.a1)
  | 168 => some (9, 0, e.a0)
  | _ => none

/-- The condition under which a fault is permanent, given its history with this event. -/
def permanentNow (s : State) (h : FaultHist) : Bool :=
  let cur := fun (f : Fld) => atLeast1 (s.cur f)
  match h.cls with
  | 1 => decide (s.cur Reg.PWR_FC_CFG2_ovl_thr ≤ h.now ∧ cur Reg.PWR_FC_CFG_ovl_epochs ≤ h.streak + 1)
  | 2 => true
  | 3 => decide (cur Reg.PWR_FC_CFG_interf_epochs ≤ h.streak + 1)
  | 4 => decide (cur Reg.PWR_FC_CFG_retrain_epochs ≤ h.streak + 1)
  | 5 => decide (cur Reg.PWR_FC_CFG2_leak_slots ≤ h.slots.length)
  | _ =>
    let recent := h.epochs.filter (fun e => decide (s.pwr.epoch < e + cur Reg.PWR_FC_CFG_par_addr_epochs))
    decide (cur Reg.PWR_FC_CFG_par_addr_limit ≤ recent.length)

/-- One fault event at the classifier. -/
def classifyFault (s : State) (e : FaultEv) : State :=
  match faultClass e with
  | none => s.bump Reg.PWR_CNT_TRANSIENT
  | some (cls, obj, idx) =>
    let key : FaultHist := { cls := cls, obj := obj, idx := idx }
    let h := (s.pwr.hist.find? (sameFault key)).getD key
    let h := { h with
      now := h.now + 1, last := s.ltb
      slots := if cls = 5 then addOnce h.slots e.a1 else h.slots
      epochs := if 6 ≤ cls then h.epochs ++ [s.pwr.epoch] else h.epochs }
    if permanentNow s h && (!h.declared || cls == 2) then
      let s := s.onPwr (fun p => { p with hist := histPut p.hist { h with declared := true } })
      match cls with
      | 3 => autoRetire (declare s 3 e.a0 0) e.a0 obj idx
      | 5 => declare s 5 obj e.a1
      | _ => declare s cls obj idx
    else (s.onPwr (fun p => { p with hist := histPut p.hist h })).bump Reg.PWR_CNT_TRANSIENT

/-- The fault events of a command, in turn; a retirement may raise more of them. At most `n` are taken. -/
def classifyInbox : Nat → State → State
  | 0, s => s
  | n + 1, s => match s.pwr.inbox with
    | [] => s
    | e :: r => classifyInbox n (classifyFault (s.onPwr (fun p => { p with inbox := r })) e)

/-- The classifier at a statistics epoch boundary: streaks go on or break (R433), by the limits of the epoch that ends; those
written in it take effect then (R9). -/
def classifierEpoch (s : State) : State :=
  let next := fun (h : FaultHist) =>
    let hit := if h.cls = 1 then decide (max 1 (s.cur Reg.PWR_FC_CFG2_ovl_thr) ≤ h.now) else decide (0 < h.now)
    if 6 ≤ h.cls then { h with now := 0 }
    else { h with streak := if hit then h.streak + 1 else 0, now := 0, slots := [], declared := h.declared && hit && h.cls != 5 }
  let keep := fun (h : FaultHist) => decide (6 ≤ h.cls) || h.streak != 0
  (s.onPwr (fun p => { p with hist := (p.hist.map next).filter keep, epoch := p.epoch + 1 })).takeEffect [
    Reg.PWR_FC_CFG_interf_epochs, Reg.PWR_FC_CFG_ovl_epochs, Reg.PWR_FC_CFG_retrain_epochs, Reg.PWR_FC_CFG_par_addr_limit,
    Reg.PWR_FC_CFG_par_addr_epochs, Reg.PWR_FC_CFG2_ovl_thr, Reg.PWR_FC_CFG2_leak_slots]

/-- PERMANENT_LIST_CLEAR. -/
def permanentListClear (s : State) : State := (s.onPwr (fun p => { p with perm := [] })).set Reg.PWR_PERM_CNT_count 0

/-! ### PCIe (R321, R343, R348) -/

/-- A change of the PCIe function that standalone mode does not have. -/
def pcie (s : State) (f : State → State) : State := if s.on Reg.HIF_STATUS_standalone then s else f s

/-- FUNCTION_LEVEL_RESET: HOST is down from here until FLR_COMPLETE. -/
def functionLevelReset (s : State) : State :=
  pcie s (fun s => hostChange (hifReset s) (fun s => { s with hif := { s.hif with flr := true } }))

/-- FLR_COMPLETE. -/
def flrComplete (s : State) : State :=
  pcie s (fun s => { s with hif := { s.hif with flr := false, d3hot := s.hif.d3hot && !s.hif.flr } })

/-- PCIE_LINK_UP: with its speed and width codes. -/
def pcieLinkUp (s : State) (speed width : Nat) : State :=
  pcie s (fun s => ((s.set Reg.HIF_STATUS_link_up 1).set Reg.HIF_STATUS_speed speed).set Reg.HIF_STATUS_width width)

/-- PCIE_LINK_DOWN: EV023 reaches rings and vectors of the cluster only; then every ring is disabled (R321). -/
def pcieLinkDown (s : State) : State :=
  pcie s (fun s =>
    if !s.on Reg.HIF_STATUS_link_up then s
    else
      let s := hostChange s (fun s => ((s.set Reg.HIF_STATUS_link_up 0).set Reg.HIF_STATUS_speed 0).set Reg.HIF_STATUS_width 0)
      hifReset (s.raise 23))

/-- D3HOT_ENTRY. -/
def d3hotEntry (s : State) : State :=
  pcie s (fun s => hostChange s (fun s => { s with hif := { s.hif with d3hot := true } }))

/-- D3HOT_TO_D0. -/
def d3hotToD0 (s : State) : State :=
  pcie s (fun s => if s.hif.d3hot then { hifReset s with hif := { (hifReset s).hif with d3hot := false } } else s)

/-- PERST_ASSERTION (R343, R424). -/
def perstAssertion (s : State) : State := pcie s hifReset

end Sys2Proof.Machine
end

