-- ==== Sys2Proof/Machine/CrnOps.lean ====
section
/-! DEFINITION. The Crown and the update engine (chapter 17): header tests, download, activation, confirmation, the
settings areas, boot and recovery. -/

namespace Sys2Proof.Machine

def State.onCrn (s : State) (f : Crn → Crn) : State := { s with crn := f s.crn }

/-! ### The boot flash (R391, R392) -/

/-- Where the boot record's two copies, the settings areas and the components' slots lie in the flash (R391). -/
def bootRecordAt (copy : Nat) : Nat := 0x1000 * copy
def settingsAt (area : Nat) : Nat := 0x10000 + 0x20000 * area
def slotAt (c : Nat) : Nat := if c = 3 then 0x100000 else 0x10000 + 0x40000 * c

/-- Octets of a component's slot (R391). -/
def slotSize (c : Nat) : Nat := if c = 3 then 0x1000000 else 0x40000

/-- The copy in use is copy 1: the one with a correct CRC and the higher write sequence (R392). -/
def secondCopy (x : Crn) : Bool := x.copy1.good && (!x.copy0.good || decide (x.copy0.seq < x.copy1.seq))

/-- The boot record as the Crown reads it. -/
def bootRecord (s : State) : BootRecord :=
  if secondCopy s.crn then s.crn.copy1 else if s.crn.copy0.good then s.crn.copy0 else {}

def crnSlot (s : State) (c : Nat) : CrnSlot := tabGetD (bootRecord s).slots c {}
def crnImage (s : State) (c : Nat) : Image := tabGetD s.crn.images c {}

/-- An update of the record goes to the other copy, with the next sequence (R392). While a command writes the flash, the copies
before it are kept for a reset that cuts it short. -/
def writeRecord (s : State) (f : BootRecord → BootRecord) : State :=
  let r := f (bootRecord s)
  let r := { r with seq := ((bootRecord s).seq + 1) % 2 ^ 32, good := true }
  s.onCrn (fun x =>
    let x := { x with writing := x.writing ++ [(x.copy0, x.copy1)] }
    if secondCopy x then { x with copy0 := r } else { x with copy1 := r })

/-- A write of the record torn by power loss: the copy that it goes to fails its CRC, and the other one stands (R392). -/
def tearRecord (s : State) : State :=
  s.onCrn (fun x =>
    if secondCopy x then { x with copy0 := { x.copy0 with good := false } }
    else { x with copy1 := { x.copy1 with good := false } })

/-- The writes of the record are done. -/
def recordDone (s : State) : State := s.onCrn (fun x => { x with writing := [], confirms := false })

/-! ### The staging area (R397) and the CROWN window (R395) -/

/-- Where the staging area begins in the cluster's memory: header, then body. -/
def stageAt (s : State) : Nat := (s.get Reg.CRN_STAGE_LO_stage + 2 ^ 32 * s.get Reg.CRN_STAGE_HI_stage) / 4096 * 4096

def stagePut (s : State) (off : Nat) (l : List Byte) : State :=
  { s with hif := { s.hif with mem := cellsWrite s.hif.mem (stageAt s + off) l } }

/-- The body as the staging area holds it, `n` octets. -/
def stagedBody (s : State) (n : Nat) : List Byte := (List.range n).map (fun i => cellRead s.hif.mem (stageAt s + 256 + i))

/-- A job of the CROWN window ends with a result: EV198 (R307, R395). The Crown's jobs take no time in the model (log 326). -/
def crownJob (s : State) (result : Nat) : State := (s.set (Reg.JWL_CMD_result 3) result).raise 198 3

def crownHash (s : State) (l : List Byte) : State := crownJob (setWords s (Reg.JWL_DIGEST_word 3) (sha256 l)) 0

/-- The jobs for a header whose tests ended in `r`: its signer's hash for test 5, its hash and signature for test 6. -/
def crownJobs (s : State) (h : List Byte) (r : Nat) : State :=
  let s := if r = 0 ∨ 5 ≤ r then crownHash s (octetsAt h 64 64) else s
  if r = 0 ∨ 6 ≤ r then
    crownJob (setWords (crownHash s (octetsAt h 0 192)) (Reg.JWL_SIG_word 3) (octetsAt h 192 64)) (if r = 6 then 7 else 0)
  else s

/-- M0 is extended through the CROWN window (R316). -/
def crownExtend (s : State) (digest : List Byte) : State :=
  crownJob (extendMeasure (setWords s (Reg.JWL_DIGEST_word 3) digest) 0 digest) 0

/-- What the cores find at an address: while ACTIVATE writes the flash, its read window answers with a bus error (R399). -/
def coreReach (s : State) (a : Nat) : CoreRegion :=
  match coreMap a with
  | .flash o => if s.get Reg.CRN_STATUS_state = 4 then .busError else .flash o
  | r => r

/-! ### Output balls (R441) -/

/-- What a digital output ball shows. -/
inductive BallState
  | highZ
  | level (high : Bool)
  | heartbeats
  | crownDriven
deriving DecidableEq, Repr

/-- The state of a ball (R441, R442): a trigger's, PPS_OUT's or a chain's ball is high impedance until it is driven. The Crown
trains LPDDR4X before it starts CORE or enters recovery (R428). JTAG_TDO is outside its shift states: no command shifts it. -/
def ballState (s : State) (b : Ball) : BallState :=
  match b with
  | .twinHbo => if s.pwr.held || s.get Reg.TWN_STATUS_state == 0 then .level false else .heartbeats
  | .qspiClk => if s.pwr.held then .level false else .crownDriven
  | .qspiCsN => if s.pwr.held then .level true else .crownDriven
  | .ddrResetN => .level (s.on Reg.CRN_STATUS_handed_over || s.on Reg.CRN_STATUS_recovery)
  | .jtagTdo => .highZ
  | _ => match s.level b with
    | some v => .level v
    | none => .highZ

/-! ### The image header (R393) -/

def hdrComp (h : List Byte) : Nat := octet h 5
def hdrRollback (h : List Byte) : Nat := ofLe (octetsAt h 16 4)
def hdrBodyLen (h : List Byte) : Nat := ofLe (octetsAt h 20 4)
def hdrVersion (h : List Byte) : Nat := ofLe (octetsAt h 24 4)
def hdrFormat (h : List Byte) : Nat := ofLe (octetsAt h 28 2)
def hdrDigest (h : List Byte) : List Byte := octetsAt h 128 32

/-- Version `v` lies in the range that a header gives for component `c`. -/
def hdrAccepts (h : List Byte) (c v : Nat) : Bool :=
  decide (ofLe (octetsAt h (32 + 8 * (c - 1)) 4) ≤ v ∧ v ≤ ofLe (octetsAt h (36 + 8 * (c - 1)) 4))

/-- The signer of a header is accepted (R394). -/
def signerOk (s : State) (h : List Byte) : Bool :=
  let key := sha256 (octetsAt h 64 64)
  let fuse := match octet h 15 with
    | 0 => Config.signer0
    | 1 => s.fuses.signer1.getD []
    | _ => []
  fuse == key && fuse.any (· != 0)

/-- The tests of R395 without the last, in its order: 0, or the result. `srcLen` is none at a boot. -/
def headerTest (s : State) (h : List Byte) (srcLen : Option Nat) : Nat :=
  let n := hdrBodyLen h
  if octetsAt h 0 5 ≠ [0x4B, 0x5A, 0x49, 0x4D, 0x01] ∨ ofLe (octetsAt h 6 2) ≠ 256 then 1
  else if ofLe (octetsAt h 8 4) ≠ 0x8128 ∨ 0x00B0 < ofLe (octetsAt h 12 2) then 2
  else if hdrComp h = 0 ∨ 3 < hdrComp h then 3
  else if bits (octet h 14) (lcState s) 1 = 0 then 4
  else if !signerOk s h then 5
  else if !ecdsaVerify (octetsAt h 64 64) (sha256 (octetsAt h 0 192)) (octetsAt h 192 64) then 6
  else if hdrRollback h < s.fuses.rollback ∨ 128 < hdrRollback h then 7
  else if n = 0 ∨ slotSize (hdrComp h) < 256 + n ∨ (srcLen.isSome ∧ srcLen ≠ some (n + 256)) then 8
  else 0

/-- An image of the header is compatible with the slots as they stand (R396). -/
def compatible (s : State) (h : List Byte) : Bool :=
  [1, 2, 3].all (fun y =>
    let x := crnSlot s y
    y == hdrComp h || !(x.state == 2 || x.state == 3) ||
      (hdrAccepts h y x.version && hdrAccepts (crnImage s y).header (hdrComp h) (hdrVersion h)))

/-! ### Registers of the record -/

/-- The record fields show the boot record (R407). -/
def crnShow (s : State) : State :=
  let s := [1, 2, 3].foldl (fun s c =>
    let x := crnSlot s c
    let s := (s.set (Reg.CRN_REC_rstate (c - 1)) x.state).set (Reg.CRN_REC_trial_count (c - 1)) x.trials
    (s.set (Reg.CRN_REC_rollback (c - 1)) x.rollback).set (Reg.CRN_VER_version (c - 1)) x.version) s
  let r := bootRecord s
  let s := (s.set Reg.CRN_SET_FMT_fmt0 r.fmt0).set Reg.CRN_SET_FMT_fmt1 r.fmt1
  (s.set Reg.CRN_SET_CTL_active r.active).setb Reg.CRN_SET_CTL_dual r.dual

/-- The record is written with a slot's new entry, and shown. -/
def crnRecord (s : State) (c : Nat) (x : CrnSlot) : State :=
  crnShow (writeRecord s (fun r => { r with slots := tabPut r.slots c x }))

/-- The engine is in a state, busy in all but IDLE and READY. -/
def crnState (s : State) (st : Nat) : State :=
  (s.set Reg.CRN_STATUS_state st).setb Reg.CRN_STATUS_busy (st != 0 && st != 3)

/-- A command ends in a state with a result. -/
def crnEnd (s : State) (st result : Nat) : State := (crnState s st).set Reg.CRN_STATUS_result result

def crnBusy (s : State) : Bool := s.on Reg.CRN_STATUS_busy

/-- The staged copy is discarded. -/
def unstage (s : State) : State :=
  (s.onCrn (fun x => { x with staged := [] })).set Reg.CRN_STATUS_staged_comp 0

/-- An image is refused (R395). -/
def crnRefuse (s : State) (comp result : Nat) : State :=
  ((crnEnd (unstage s) 0 result).bump Reg.CRN_CNT_REFUSED).raise 232 comp 0 result

/-! ### The stages of an update (R397-R399, R402) -/

/-- DOWNLOAD (R395-R397): `header` is what the source holds in its first 256 octets. -/
def crnDownload (s : State) (header : List Byte) (fault : Bool) : State :=
  let st := s.get Reg.CRN_STATUS_state
  if crnBusy s then s
  else if st ≠ 0 ∧ st ≠ 3 then s.set Reg.CRN_STATUS_result 11
  else
    let s := unstage (s.set Reg.CRN_PROG_done 0)
    if fault then crnEnd s 0 14
    else
      let h := octetsAt header 0 256
      let r := headerTest s h (some (s.get Reg.CRN_SRC_LEN_src_len))
      let s := crownJobs s h r
      if r ≠ 0 then crnRefuse s (hdrComp h) r
      else if !compatible s h then crnRefuse s (hdrComp h) 9
      else
        let s := ((stagePut s 0 h).onCrn (fun x => { x with staged := h })).set Reg.CRN_STATUS_staged_comp (hdrComp h)
        crnState (s.set Reg.CRN_PROG_done 256) 1

/-- BODY_COPIED (R397): the body as the source holds it goes to the staging area, or a DMA fault. -/
def crnBodyCopied (s : State) (body : List Byte) (fault : Bool) : State :=
  if s.get Reg.CRN_STATUS_state ≠ 1 then s
  else if fault then crnEnd (unstage s) 0 14
  else
    let n := hdrBodyLen s.crn.staged
    crnState ((stagePut s 256 (octetsAt body 0 n)).set Reg.CRN_PROG_done (256 + n)) 2

/-- VERIFY_DONE (R397): the body is hashed in the staging area. -/
def crnVerifyDone (s : State) : State :=
  if s.get Reg.CRN_STATUS_state ≠ 2 then s
  else
    let body := stagedBody s (hdrBodyLen s.crn.staged)
    let s := crownHash s body
    if sha256 body = hdrDigest s.crn.staged then (crnEnd s 3 0).raise 233 else crnRefuse s (hdrComp s.crn.staged) 10

/-- ABORT (R397): it alone is taken while DOWNLOAD or VERIFY runs. -/
def crnAbort (s : State) : State :=
  match s.get Reg.CRN_STATUS_state with
  | 0 => s.set Reg.CRN_STATUS_result 11
  | 1 => crnEnd (unstage s) 0 0
  | 2 => crnEnd (unstage s) 0 0
  | 3 => crnEnd (unstage s) 0 0
  | _ => s

/-- The settings areas at the activation of a CORE image of a format (R403): the inactive area is erased and tagged. -/
def settingsPrepare (s : State) (fmt : Nat) : State :=
  let s := s.onCrn (fun x => { x with erased := addOnce x.erased (1 - (bootRecord s).active) })
  writeRecord s (fun r => if r.active = 0 then { r with fmt1 := fmt, dual := true } else { r with fmt0 := fmt, dual := true })

/-- ACTIVATE (R398, R399): the record is written ACTIVATING, then the settings areas are prepared. -/
def crnActivate (s : State) : State :=
  if crnBusy s then s
  else if s.get Reg.CRN_STATUS_state ≠ 3 then s.set Reg.CRN_STATUS_result 11
  else
    let h := s.crn.staged
    let c := hdrComp h
    let twin := s.on Reg.TWN_CTRL_enable && s.get Reg.TWN_CTRL_role != 0 && s.get Reg.TWN_STATUS_state != 3
    if (bootRecord s).slots.any (fun e => e.2.state == 2) then s.set Reg.CRN_STATUS_result 12
    else if !compatible s h then s.set Reg.CRN_STATUS_result 9
    else if twin && !s.on Reg.CRN_CTRL_force_unpaired then s.set Reg.CRN_STATUS_result 13
    else
      let x := crnSlot s c
      let again := decide (x.prev = some (hdrVersion h))
      let s := recordDone s
      let s := crnRecord s c { x with state := 1, trialMax := atLeast1 (s.get Reg.CRN_CTRL_trial_max) }
      let s := if c = 3 ∧ !again then crnShow (settingsPrepare s (hdrFormat h)) else s
      crnState (s.set Reg.CRN_PROG_done 0) 4

/-- The slot of the staged image's component is programmed from the staging area, read back and hashed (R399). -/
def crnProgrammed (s : State) (ok : Bool) : State :=
    let h := s.crn.staged
    let c := hdrComp h
    let x := crnSlot s c
    let body := stagedBody s (hdrBodyLen h)
    let ok := ok && sha256 body == hdrDigest h
    let s := crownHash (s.onCrn (fun r => { r with images := tabPut r.images c (if ok then { header := h, body := body } else {}) })) body
    if !ok then (crnEnd (unstage (recordDone s)) 0 15).raise 239
    else
      let again := decide (x.prev = some (hdrVersion h))
      let s := s.set Reg.CRN_PROG_done (256 + hdrBodyLen h)
      let s := crnRecord s c { x with
        state := if again then 3 else 2, version := hdrVersion h, rollback := hdrRollback h, digest := hdrDigest h
        trials := 0 }
      let s := if c = 3 ∧ again then crnShow (writeRecord s (fun r => { r with dual := false })) else s
      (crnEnd (unstage (recordDone s)) 0 0).raise 234

/-- The fuse counter rises to the lowest rollback value among CONFIRMED slots (R402). -/
def raiseFuse (s : State) : State :=
  match ((bootRecord s).slots.filter (fun e => e.2.state == 3)).map (·.2.rollback) with
  | [] => s
  | a :: r => { s with fuses := { s.fuses with rollback := max s.fuses.rollback (r.foldl min a) } }

/-- The settings area of the superseded format is released (R403). The active area stays where it has the new format. -/
def settingsRelease (s : State) (fmt : Nat) : State :=
  writeRecord s (fun r =>
    if !r.dual then r
    else
      let cur := if r.active = 0 then r.fmt0 else r.fmt1
      let a := if cur = fmt then r.active else 1 - r.active
      if a = 0 then { r with active := 0, fmt1 := 0, dual := false } else { r with active := 1, fmt0 := 0, dual := false })

/-- What is left of a CONFIRM once the record is written (R402): the fuses, then the settings. -/
def confirmRest (s : State) : State :=
  let s := raiseFuse s
  if (crnSlot s 3).state = 3 ∧ (bootRecord s).dual then settingsRelease s (hdrFormat (crnImage s 3).header) else s

/-- CONFIRM (R402) of component `c`: the engine is in CONFIRM while the flash is written, until ACTIVATION_DONE (log 322). -/
def crnConfirm (s : State) (c : Nat) : State :=
  let s := s.set Reg.CRN_CMD_comp c
  if crnBusy s then s
  else
    let x := crnSlot s c
    if s.get Reg.CRN_STATUS_state ≠ 0 then s.set Reg.CRN_STATUS_result 11
    else if c = 0 ∨ x.state ≠ 2 then s.set Reg.CRN_STATUS_result 16
    else
      let s := crnRecord (recordDone s) c { x with state := 3, prev := some x.version, trials := 0 }
      crnState (s.onCrn (fun x => { x with confirms := true })) 5

/-- ACTIVATION_DONE (R399, R402): the flash work of ACTIVATE ends, programmed and read back or with a failure, or that of
CONFIRM (log 322). -/
def crnActivationDone (s : State) (ok : Bool) : State :=
  match s.get Reg.CRN_STATUS_state with
  | 4 => crnProgrammed s ok
  | 5 =>
    let s := crnShow (recordDone (confirmRest s))
    (crnEnd s 0 0).raise 235 0 0 s.fuses.rollback
  | _ => s

/-- BURN_SIGNER1 (R394). What it answers outside PROVISIONED is not stated (log 31). -/
def burnSigner1 (s : State) : State :=
  if crnBusy s then s
  else if s.fuses.signer1.isSome then s.set Reg.CRN_STATUS_result 17
  else if lcState s ≠ 1 then
    let (r, s) := s.drawFree 32
    s.set Reg.CRN_STATUS_result r
  else
    ({ s with fuses := { s.fuses with signer1 := some (wordsOf s Reg.CRN_KEYHASH_word 8) } } : State).set
      Reg.CRN_STATUS_result 0

/-! ### Boot (R401, R402, R405, R406) -/

/-- M0 takes 32 octets of 0xFF for the failing slot and each later one. -/
def measureMissing (s : State) (n : Nat) : State :=
  (List.range n).foldl (fun s _ => crownExtend s (List.replicate 32 0xFF)) s

/-- The recovery runtime in standalone mode (R406): it makes the twin reachable, and will ask the partner for the image once the
link is up; the form of what it asks the spec does not give. -/
def recoveryTwin (s : State) : State :=
  if !s.straps.host then s
  else
    let p := s.get Reg.TWN_CTRL_hb_port
    let id := s.get Reg.JWL_DEVID_LO_device_id + 2 ^ 32 * s.get Reg.JWL_DEVID_HI_device_id
    let mac := 0x02 * 2 ^ 40 + id % 2 ^ 40
    let s := (s.set (Reg.ETH_UC_LO_mac_lo p 0) (ofLe ((beOctets 6 mac).take 4))).set (Reg.ETH_UC_HI_mac_hi p 0)
      (ofLe ((beOctets 6 mac).drop 4))
    let s := twnEnable (ethEnable ((s.set (Reg.ETH_UC_HI_valid p 0) 1).set (Reg.ETH_STATUS_no_mac p) 0) p)
    s.onCrn (fun x => { x with request := s.on Reg.TWN_CTRL_enable })

/-- The Crown comes up in recovery with a reason, `n` slots not measured. -/
def crnRecover (s : State) (reason n : Nat) : State :=
  let s := ((measureMissing s n).set Reg.CRN_STATUS_recovery 1).set Reg.CRN_STATUS_rec_reason reason
  recoveryTwin ((s.bump Reg.CRN_CNT_RECOVERY).raise 238 0 reason)

/-- Why a slot cannot be loaded: 0, or the reason; its trial boots are not part of it. -/
def slotReason (s : State) (x : CrnSlot) (c : Nat) : Nat :=
  match x.state with
  | 0 => 5
  | 1 => 1
  | 4 => 2
  | _ =>
    let i := crnImage s c
    if headerTest s i.header none ≠ 0 ∨ hdrComp i.header ≠ c ∨ sha256 i.body ≠ hdrDigest i.header then 3 else 0

/-- The Crown checks, measures and loads a component's image (R405); why it cannot. -/
def crownCheck (s : State) (x : CrnSlot) (c : Nat) : Nat × State :=
  let why := slotReason s x c
  let i := crnImage s c
  if why ≠ 0 ∧ why ≠ 3 then (why, s)
  else
    let r := headerTest s i.header none
    let s := crownJobs s i.header r
    (why, if r = 0 then crownHash s i.body else s)

/-- The slots from component `c` on, `n` of them, then the start of CORE. -/
def bootSlots : Nat → Nat → State → State
  | 0, _, s => (s.set Reg.CRN_STATUS_handed_over 1).emit (.coreStart 0)
  | n + 1, c, s =>
    let x := crnSlot s c
    let (why, s) := crownCheck s x c
    if why ≠ 0 then crnRecover s why (n + 1)
    else
      let trials := x.trials + 1
      if x.state = 2 ∧ x.trialMax < trials then
        let s := (crnRecord s c { x with state := 4, trials := trials }).bump Reg.CRN_CNT_FALLBACK
        crnRecover (s.raise 237) 2 (n + 1)
      else
        let s := if x.state = 2 then (crnRecord s c { x with trials := trials }).raise 236 c trials else s
        let s := s.onCrn (fun y => { y with loaded := tabPut y.loaded c (crnImage s c) })
        bootSlots n (c + 1) (crownExtend s (sha256 (octetsAt (crnImage s c).header 0 256)))

/-- The fuse counter after a burn that a loss of power may have cut short: no higher than it was to become (R394). -/
def fuseCut (s : State) : State :=
  let old := s.fuses.rollback
  let (n, s) := s.drawFree ((raiseFuse s).fuses.rollback - old + 1)
  { s with fuses := { s.fuses with rollback := old + n } }

/-- A reset found ACTIVATE or CONFIRM at work (R400). How far it had come is free: before one of its writes of the record, in which
case the copies before it stand, or in it, in which case its copy is torn, or after the last of them. A slot whose record
reads ACTIVATING is left invalid; a CONFIRMED one may have part of its fuses. -/
def engineCut (s : State) : State :=
  let l := s.crn.writing
  if l.isEmpty then s
  else
    let (i, s) := s.drawFree (l.length + 2)
    let (s, whole) := match l[i]? with
      | some (a, b) => (tearRecord (s.onCrn (fun x => { x with copy0 := a, copy1 := b })), false)
      | none => (if i = l.length then s else tearRecord s, true)
    let s := if whole && s.crn.confirms then fuseCut s else s
    let s := recordDone s
    [1, 2, 3].foldl (fun s c => if (crnSlot s c).state = 1 then s.onCrn (fun x => { x with images := tabPut x.images c {} }) else s) s

/-- A boot that a reset cut short (R401): whether the slot in TRIAL was counted by then is free, and so is whether that write was
torn. -/
def bootCut (s : State) : State :=
  let c := ([1, 2, 3].find? (fun c => (crnSlot s c).state == 2)).getD 0
  let x := crnSlot s c
  if x.state ≠ 2 then s
  else
    let (i, s) := s.drawFree 3
    if i = 0 then s else if i = 1 then tearRecord s
    else if slotReason s x c = 0 then recordDone (crnRecord s c { x with trials := x.trials + 1 }) else s

def bootCuts : Nat → State → State
  | 0, s => s.onCrn (fun x => { x with cutBoots := 0 })
  | n + 1, s => bootCuts n (bootCut s)

/-- CROWN_BOOT (R405), once after each release of chip reset. -/
def crownBoot (s : State) : State :=
  if s.on Reg.CRN_STATUS_handed_over || s.on Reg.CRN_STATUS_recovery then s
  else
    let s := bootCuts s.crn.cutBoots (engineCut s)
    let s := crnShow (confirmRest s)
    recordDone (if s.straps.boot = 1 then crnRecover s 4 3 else bootSlots 3 1 s)

end Sys2Proof.Machine
end

