-- ==== Sys2Proof/Machine/ChrOps.lean ====
section
/-! DEFINITION. The Chronograph's general counters and instruction samples (R408-R413, R417, R418). -/

namespace Sys2Proof.Machine

def State.onChr (s : State) (f : Chr → Chr) : State := { s with chr := f s.chr }

/-- The offset is one of a statistics counter (R70, R408). -/
def isCounter (off : Nat) : Bool :=
  counterRows.any (fun r => (List.range r.2.2.2.2).any (fun j =>
    let b := r.1 + r.2.2.2.1 * j
    decide (b ≤ off) && decide (off < b + r.2.1 * r.2.2.1) && (off - b) % r.2.1 == 0))

/-! ### Native sources (R409, R410) -/

/-- The offset is one of a statistics counter now: also of a general counter or a bin with epoch_sync 1 (R412, R419). -/
def isCounterNow (s : State) (off : Nat) : Bool :=
  isCounter off ||
    (decide (0x161000 ≤ off ∧ off < 0x161100) && s.cur (Reg.CHR_CNT_CFG_epoch_sync ((off - 0x161000) / 4)) == 1) ||
    (decide (0x162000 ≤ off ∧ off < 0x162800) && s.cur (Reg.CHR_HIST_CFG_epoch_sync ((off - 0x162000) / 128)) == 1)

/-- The value of a value source; none for a source of another type. -/
def chrValue (s : State) (code : Nat) : Option Nat :=
  match code with
  | 0x02 => some s.fwd.flights.length
  | 0x03 => some (((List.range 8).map (fun p => s.get (Reg.CTX_POOL_CNT_count p) - s.get (Reg.CTX_POOL_FREE_free p))).sum)
  | 0x04 => some (min 64 (s.jwl.derivQ.length - 2))
  | 0x05 => some (min 8 ((s.fwd.flights.filter (fun e => e.2.stage == .ccm && e.2.sec == 0 && !e.2.key.isEmpty)).length))
  | 0x06 => some (min 8 ((s.fwd.flights.filter (fun e => e.2.stage == .route)).length))
  | 0x07 => some (((List.range 128).filter (fun n =>
      laneState s n == laneSYNC || laneState s n == laneHEADER || laneState s n == lanePAYLOAD)).length)
  | _ => none

/-- The condition of counter `k`'s level or value source. Whether a core waits is not seen here. -/
def chrCond (s : State) (k code : Nat) : Bool :=
  if 0x08 ≤ code ∧ code ≤ 0x0B then s.get (Reg.TXC_STATUS_state (code - 8)) == chTX
  else match chrValue s code with
    | some v => decide (s.get (Reg.CHR_CNT_CFG_thr k) ≤ v)
    | none => false

/-- The native counters: their numbers and codes. -/
def chrNative (s : State) : List (Nat × Nat) :=
  (s.chr.enabled.filter (fun e => e.2.1 == 1)).map (fun e => (e.1, e.2.2))

/-- A counter of time that the statistics counter at `off` counts while its stall runs: an instant of the stall from which
its units are counted, and the unit in ns. -/
def stallUnit (s : State) (off : Nat) : Option (Nat × Nat) :=
  if off = Reg.TWN_CNT_CREDIT_STALL then s.twn.stall.map (fun t => (t, 1000))
  else if off = Reg.CTX_CNT_CKPT_STALL then s.ctx.stall.map (fun e => (e.2, 1000000))
  else none

/-- What an enabled counter counts in the fabric cycles `a + 1` to `b` while no command comes: a cycle is 1 ns. -/
def chrPass (s : State) (a b : Nat) (c : Chr) (e : Nat × Nat × Nat) : Chr :=
  let (k, kind, code) := e
  let units := fun (from_ unit : Nat) =>
    let n := (b - from_) / unit - (a - from_) / unit
    chrCount s 64 c k n (from_ + ((a - from_) / unit + 1) * unit) n unit
  if kind = 0 then match stallUnit s code with
    | some (from_, unit) => units from_ unit
    | none => c
  else if code = 0 then units 0 1
  else if code = 1 then units 0 1000
  else if s.on (Reg.CHR_CNT_CFG_mode k) && chrCond s k code then units 0 1
  else c

/-- The entries of a table less those of an earlier one, modulo 2³². -/
def tabSince (new old : Tab Nat) : Tab Nat :=
  (new.map (fun e => (e.1, (e.2 + 2 ^ 32 - tabGetD old e.1 0) % 2 ^ 32))).filter (fun e => e.2 != 0)

/-- Time passes for the Chronograph up to LTB `t` (R409, R410, R413): the last cycle is the command's own (R70), and what
found a FIFO full in an earlier one is lost (R416). -/
def chrTime (s : State) (t : Nat) : Chr :=
  if t ≤ s.ltb then s.chr
  else
    let pass := fun (c : Chr) (a b : Nat) =>
      if s.on Reg.CHR_CTRL_freeze then c else s.chr.enabled.foldl (chrPass s a b) c
    let old := pass s.chr s.ltb (t - 1)
    let new := pass old (t - 1) t
    { new with
      own := tabSince new.count old.count, ownBins := tabSince new.bins old.bins, fresh := 0, isFresh := []
      lost := new.lost + new.spill.length, spill := []
      isLost := new.isLost + (new.isSpill.map (fun e => e.2.length)).sum, isSpill := [] }

/-- The conditions after a command: rises count in mode 0 (R410). -/
def chrRises (s : State) : State :=
  (chrNative s).foldl (fun s e =>
    let now := chrCond s e.1 e.2
    let was := s.chr.level.contains e.1
    let s := s.onChr (fun c => { c with
      level := if now then addOnce c.level e.1 else c.level.filter (· != e.1) })
    if now && !was && !s.on (Reg.CHR_CNT_CFG_mode e.1) && !s.on Reg.CHR_CTRL_freeze then s.chrAdd e.1 1 else s) s

/-- An event source counts `n` occurrences, at instants that are not seen one by one. -/
def chrEvent (s : State) (code n : Nat) : State :=
  if s.on Reg.CHR_CTRL_freeze then s
  else (chrNative s).foldl (fun s e => if e.2 = code then s.chrAdd e.1 n else s) s

/-- A rising edge on TCIn (R409): edges shorter than 4 ns are ignored. -/
def chrTci (s : State) (n : Nat) (rising : Bool) (widthNs : Nat) : State :=
  if rising && decide (4 ≤ widthNs) then chrEvent s (0x0C + n) 1 else s

/-! ### Counters -/

/-- The feature and resource of a TCI source (R436). -/
def chrTciOf (kind code : Nat) : Option Nat := if kind = 1 ∧ 0x0C ≤ code ∧ code ≤ 0x0F then some (code - 0x0C) else none

/-- CHR_COUNTER_ENABLE (R408, R409): a source that does not exist is refused; en 0 releases the claim. -/
def chrCounterEnable (s : State) (k : Nat) (en : Bool) : State :=
  let kind := s.get (Reg.CHR_CNT_CFG_kind k)
  let src := s.get (Reg.CHR_CNT_SRC_src k)
  let code := if kind = 0 then src / 4 * 4 else src
  let was := s.on (Reg.CHR_CNT_CFG_en k)
  if en && !was then
    let go := fun (s : State) =>
      (s.set (Reg.CHR_CNT_CFG_en k) 1).onChr (fun c => { c with
        enabled := c.enabled ++ [(k, kind, code)], lastCnt := tabDel c.lastCnt k
        level := if kind == 1 && chrCond s k code then addOnce c.level k else c.level.filter (· != k) })
    if kind = 0 then (if isCounterNow s code then go s else s)
    else if 0x17 < code then s
    else match chrTciOf kind code with
      | none => go s
      | some n => match claimAll s (0x11 + n) [9 + n] with
        | (true, s) => go s
        | (false, s) => s
  else if !en && was then
    let s := (s.set (Reg.CHR_CNT_CFG_en k) 0).onChr (fun c => { c with
      enabled := c.enabled.filter (fun e => e.1 != k), level := c.level.filter (· != k) })
    match chrTciOf kind code with
    | none => s
    | some n => if (chrNative s).any (fun e => e.2 == 0x0C + n) then s else releaseAll s (0x11 + n) [9 + n]
  else s

/-- CHR_COUNTER_WRITE (R413): an increment of this cycle is lost. -/
def chrCounterWrite (s : State) (k v : Nat) : State :=
  s.onChr (fun c => { c with
    count := tabPut c.count k (v % 2 ^ 32), own := tabDel c.own k, written := tabPut c.written k s.ltb })

/-- A write of bin `b` (R419): a sample of this cycle leaves it as it is. -/
def binWrite (s : State) (b v : Nat) : State :=
  s.onChr (fun c => { c with
    bins := if v = 0 then tabDel c.bins b else tabPut c.bins b v
    ownBins := tabDel c.ownBins b, binWrote := tabPut c.binWrote b s.ltb })

/-- The records and samples that were lost count (R416, R417). -/
def lostCount (s : State) : State :=
  if s.chr.lost + s.chr.isLost = 0 then s
  else (({ s with chr := { s.chr with lost := 0, isLost := 0 } } : State).bumpBy Reg.CHR_CNT_TREC_LOST s.chr.lost).bumpBy
    Reg.CHR_CNT_IS_LOST s.chr.isLost

/-- They count, and the first lost record of an epoch raises EV242 (R416). -/
def lostSettle (s : State) : State := if s.chr.lost = 0 then lostCount s else raiseFirst (lostCount s) 242

/-- What histogram samples left: sat and EV244, alarm and EV245 (R419). -/
def histSettle (s : State) (d : HistDue) : State :=
  let s := if d.sat = 0 then s
    else (List.range d.sat).foldl (fun s _ => s.raise 244 d.unit.val d.bin) (s.set (Reg.CHR_HIST_STAT_sat d.unit.val) 1)
  if d.alarm = 0 then s
  else
    let s := s.set (Reg.CHR_HIST_STAT_alarm d.unit.val) 1
    if d.ev then (List.range d.alarm).foldl (fun s _ => s.raise 245 d.unit.val d.value) s else s

/-- What counting has left to the end of the command: losses, samples, and the wraps that raise EV240 (R411). -/
def chrSettle (s : State) : State :=
  let s := lostSettle s
  let (due, wraps) := (s.chr.due, s.chr.wraps)
  let s := s.onChr (fun c => { c with due := [], wraps := [] })
  wraps.foldl (fun s k => s.raise 240 k) (due.foldl histSettle s)

/-! ### Instruction samples (R417) -/

def isSamples (s : State) (c : Nat) : List InsSample := tabGetD s.chr.samples c []

def setSamples (s : State) (c : Nat) (l : List InsSample) : State :=
  (s.onChr (fun x => { x with samples := tabPut x.samples c l })).set (Reg.CHR_IS_STAT_level c) l.length

/-- INSTRUCTION_SAMPLE: `retired` instructions of core `c` have retired since the last such command, the last of them
with this PC, latency and flags; it was out of its wait states for `active` cycles, entering such a time `rises` times.
The sample is due at the count that ipd and jitter set. -/
def instructionSample (s : State) (c pc latency flags : Nat) (secure : Bool) (retired active rises : Nat) : State :=
  let s := chrEvent s (0x10 + c) retired
  let s := if s.on Reg.CHR_CTRL_freeze then s
    else (chrNative s).foldl (fun s e =>
      if e.2 = 0x14 + c then s.chrAdd e.1 (if s.on (Reg.CHR_CNT_CFG_mode e.1) then active else rises) else s) s
  if !s.on (Reg.CHR_IS_CFG_en c) || endDown s (c + 1) then s
  else
    let left := tabGetD s.chr.isLeft c 1
    if retired < left then s.onChr (fun x => { x with isLeft := tabPut x.isLeft c (left - retired) })
    else
      let (r, s) := s.drawRandom (2 ^ min 16 (s.get (Reg.CHR_IS_CFG_jitter_log2 c)))
      let s := s.onChr (fun x => { x with isLeft := tabPut x.isLeft c (max 16 (s.get (Reg.CHR_IS_CFG_ipd c)) + r) })
      let lat := min latency 65535
      let x : InsSample := {
        pc := pc % 2 ^ 64
        latency := lat, flags := flags % 16, secure := secure }
      let s := ((histUnits s 2).filter (fun u => s.get (Reg.CHR_HIST_SEL_core u) == c)).foldl (fun s u => histBin s u lat) s
      let l := isSamples s c
      if 8 ≤ l.length then s.onChr (fun y => { y with isSpill := tabPut y.isSpill c (tabGetD y.isSpill c [] ++ [x]) })
      else
        let s := (setSamples s c (l ++ [x])).onChr (fun y => { y with isFresh := tabPut y.isFresh c (tabGetD y.isFresh c 0 + 1) })
        if l.length + 1 = atLeast1 (s.get (Reg.CHR_IS_CFG_wmark c)) then s.raise 243 c else s

/-- SAMPLE_POP (R416, R417). -/
def samplePop (s : State) (c : Nat) : State :=
  match popFirst (isSamples s c) (tabGetD s.chr.isFresh c 0) (tabGetD s.chr.isSpill c []) (atLeast1 (s.get (Reg.CHR_IS_CFG_wmark c))) with
  | none => s
  | some (l, fresh, spill, reached) =>
    let s := (setSamples s c l).onChr (fun x => { x with
      isFresh := tabPut x.isFresh c fresh, isSpill := if spill.isEmpty then tabDel x.isSpill c else tabPut x.isSpill c spill })
    if reached then s.raise 243 c else s

/-- A write of CHR_IS_CFG's en, which was `was`: the first sample comes at the next instruction. -/
def isEnable (s : State) (c : Nat) (was en : Bool) : State :=
  let s := s.setb (Reg.CHR_IS_CFG_en c) en
  if en && !was then s.onChr (fun x => { x with isLeft := tabDel x.isLeft c }) else s

/-! ### Statistics epochs (R412, R413, R419) -/

/-- CHR at a boundary: counters and units with epoch_sync latch and restart; what the boundary's own fabric cycle brought
counts in the new epoch (R70). -/
def chrEpoch (s : State) : State :=
  let s := s.takeEffect ((List.range 64).map Reg.CHR_CNT_CFG_epoch_sync)
  let s := s.takeEffect ((List.range 16).map Reg.CHR_HIST_CFG_epoch_sync)
  let s := (List.range 64).foldl (fun s k =>
    if s.cur (Reg.CHR_CNT_CFG_epoch_sync k) = 1 then
      s.onChr (fun c =>
        let own := tabGetD c.own k 0
        { c with
          count := if own = 0 then tabDel c.count k else tabPut c.count k own
          shadow := tabPut c.shadow k ((tabGetD c.count k 0 + 2 ^ 32 - own) % 2 ^ 32) })
    else s) s
  (List.range 16).foldl (fun s u =>
    if s.cur (Reg.CHR_HIST_CFG_epoch_sync u) = 1 then
      s.onChr (fun c =>
        let mine := fun (e : Nat × Nat) => e.1 / 32 == u
        let own := c.ownBins.filter mine
        { c with
          bins := own.foldl (fun m e => tabPut m e.1 e.2) (c.bins.filter (fun e => !mine e))
          binShadow := (List.range 32).foldl (fun m b =>
            tabPut m (32 * u + b) (tabGetD c.bins (32 * u + b) 0 - tabGetD own (32 * u + b) 0)) c.binShadow })
    else s) s

end Sys2Proof.Machine
end

