-- ==== Sys2Proof/Machine/Bus.lean ====
section
/-! DEFINITION. Writes of BAR0 (R5-R9, R33, R34): the fields that a write sets by the register tables, and then what
the write makes each block do. The same operations serve the commands that have a row of their own. -/

namespace Sys2Proof.Machine

/-! ### Fields by the register tables -/

/-- The index of offset `off` in an array of `n` registers. -/
def regIdx (off base stride n : Nat) : Option Nat :=
  if off < base then none
  else
    let i := (off - base) / stride
    if (off - base) % stride = 0 ∧ i < n then some i else none

/-- The indices at which a row has its register at offset `off`. -/
def rowAt (r : Row) (off : Nat) : Option (Nat × Nat) :=
  if off < r.base then none
  else
    let i := (off - r.base) / r.s1
    let rest := (off - r.base) % r.s1
    let j := rest / r.s2
    if i < r.n1 ∧ j < r.n2 ∧ rest % r.s2 = 0 then some (i, j) else none

/-- The field is locked (R9). -/
def rowLocked (s : State) (r : Row) (i j : Nat) : Bool :=
  match r.lock i j with
  | some f => s.on f
  | none => false

/-- The value that a write of `v` leaves, or none where it is ignored. -/
def normValue (n : Norm) (v : Nat) : Option Nat :=
  match n with
  | .any => some v
  | .clamp lo hi => some (max lo (min hi v))
  | .only lo hi => if lo ≤ v ∧ v ≤ hi then some v else none

/-- What the word `val` does to the field of one row: `s0` is the state before the write. -/
def fieldWrite (s0 : State) (off val : Nat) (s : State) (r : Row) : State :=
  match rowAt r off with
  | none => s
  | some (i, j) =>
    if rowLocked s0 r i j then s
    else
      let f := r.fld i j
      let v := bits val f.lo f.w
      match r.acc with
      | .w1c => s.set f (s0.get f - (s0.get f &&& v))
      | .rw => match normValue r.norm v with
        | some v => if r.defer then s.setLater f v else s.set f v
        | none => s
      | _ => s

/-- The fields of the register at `off` (R6, R7, R9). -/
def fieldsWrite (s : State) (off val : Nat) : State := (blockRows off).foldl (fieldWrite s off val) s

/-! ### What a write makes a block do -/

/-- An enable bit changes. -/
def enableBit (s : State) (f : Fld) (v : Nat) (on off : State → State) : State :=
  if v = 1 ∧ s.get f = 0 then on s else if v = 0 ∧ s.get f ≠ 0 then off s else s

/-- GLB_CLAIM_CMD (R38, R40, R463): CLAIM, RELEASE and QUERY are its ops 1 to 3. -/
def claimCommand (s : State) (op resource owner : Nat) : State :=
  let (code, claims) := claimOp s.claims op resource owner
  let freed := decide (op = 2 ∧ 16 ≤ resource ∧ resource ≤ 31) && (tabGet s.claims resource).isSome &&
    (tabGet claims resource).isNone
  let s := if freed then cmpDisable s (resource - 16) else s
  let s := ((({ s with claims := claims }).set Reg.GLB_CLAIM_CMD_resource resource).set
    Reg.GLB_CLAIM_CMD_owner owner).set Reg.GLB_CLAIM_CMD_result code
  match tabGet claims resource with
  | some h => (s.set Reg.GLB_CLAIM_CMD_holder h.id).setb Reg.GLB_CLAIM_CMD_holder_fw h.fw
  | none => (s.set Reg.GLB_CLAIM_CMD_holder 0).set Reg.GLB_CLAIM_CMD_holder_fw 0

def glbWrite (s : State) (off val : Nat) : State :=
  if off = 0x10 ∧ bits val 16 2 ≠ 0 then claimCommand s (bits val 16 2) (bits val 0 6) (bits val 8 8) else s

/-- VMON and temperature thresholds: a write that breaks their order is ignored (chapter 19, register table). -/
def vmonConfig (s : State) (warn rst hyst : Nat) : State :=
  if warn ≤ rst + hyst then s
  else ((s.set Reg.PWR_VMON_CFG_warn_mv warn).set Reg.PWR_VMON_CFG_rst_mv rst).set Reg.PWR_VMON_CFG_hyst_mv hyst

/-- A new threshold meets the temperatures as last measured at once (log 67). -/
def tempConfig (s : State) (warn trip : Nat) : State :=
  let s := s.set Reg.PWR_TEMP_CFG_warn_c warn
  let s := if trip < warn + 5 then s else s.set Reg.PWR_TEMP_CFG_trip_c trip
  thermalTrip s (s.sget Reg.PWR_TEMP_temp_rf) (s.sget Reg.PWR_TEMP_temp_dig)

def pwrWrite (s : State) (off val : Nat) : State :=
  match off with
  | 0x1000c => vmonConfig s (bits val 0 10) (bits val 10 10) (bits val 20 6)
  | 0x10014 => tempConfig s (bits val 0 8) (bits val 8 8)
  | 0x10018 => powerStateReq s (bits val 0 2)
  | 0x10020 =>
    if bits val 4 1 = 1 then chipResetCommand s (bits val 16 16)
    else coreResetCommand s (bits val 16 16) (bits val 0 4)
  | 0x10024 => corePower s (bits val 0 4)
  | 0x10088 => if bits val 31 1 = 1 then permanentListClear s else s
  | _ =>
    match regIdx off 0x10040 8 4, regIdx off 0x10044 8 4 with
    | some c, _ => watchdogConfig s c (bits val 0 1 == 1) (bits val 1 1 == 1) (bits val 16 16)
    | _, some c => if bits val 0 1 = 1 then kick s c else s
    | _, _ => s

/-- A write of BAL_CYC_LOAD waits for the next cycle start (R56). -/
def cycLoad (s : State) (v : Nat) : State :=
  (s.set Reg.BAL_CYC_LOAD_cyc_load v).onBal (fun b => { b with cycPend := true })

/-- PPS_IN capture is switched on or off (R63): the wait for an edge begins. -/
def ppsInEnable (s0 s : State) : State :=
  let on := s.on Reg.BAL_PTP_CTRL_pps_in_en
  if on && !s0.on Reg.BAL_PTP_CTRL_pps_in_en then s.onBal (fun b => { b with ppsInLast := some s.ltb })
  else if on then s else s.onBal (fun b => { b with ppsInLast := none })

/-- The registers of comparator `k` that no commit writes. -/
def cmpWrite (s : State) (k reg val : Nat) : State :=
  if cmpForeign s k then s
  else match reg with
    | 0 =>
      let s := s.set (Reg.BAL_CMP_CTRL_ev_en k) (bits val 1 1)
      if bits val 0 1 = 1 then cmpEnable s k else cmpDisable s k
    | 4 => s.set (Reg.BAL_CMP_LO_tgt_lo k) val
    | 8 => cmpCommit s k val
    | _ => s.set (Reg.BAL_CMP_PER_period k) val

def balWrite (s0 s : State) (off val : Nat) : State :=
  match off with
  | 0x20000 =>
    let s := enableBit s Reg.BAL_CTRL_enable (bits val 0 1) balEnable balDisable
    let s := if bits val 8 1 = 1 then cycForce s else s
    if bits val 9 1 = 1 then snap s else s
  | 0x20044 => cycLoad s val
  | 0x20060 => ppsInEnable s0 (enableBit s Reg.BAL_PTP_CTRL_pps_out_en (bits val 0 1) ppsOutEnable ppsOutDisable)
  | 0x20064 => ptpRate s val
  | 0x20070 => ptpSet s (bits val 0 30)
  | 0x20074 => ptpAdj s (signed 32 val)
  | _ =>
    match regIdx off 0x20100 0x20 8, regIdx off 0x20108 0x20 8, regIdx off 0x20200 0x20 4 with
    | some n, _, _ => enableBit s (Reg.BAL_TT_CTRL_en n) (bits val 0 1) (ttEnable · n) (ttDisable · n)
    | _, some n, _ => ttCommit s n (bits val 0 16)
    | _, _, some n =>
      let s := enableBit s (Reg.BAL_TCI_CTRL_en n) (bits val 0 1) (tciEnable · n) (tciDisable · n)
      if bits val 4 1 = 1 then tciPop s n else s
    | _, _, _ => match regIdx off 0x20400 4 64 with
      | some i => cmpWrite s (i / 4) (i % 4 * 4) val
      | none => s

def rfxWrite (s : State) (off val : Nat) : State :=
  match regIdx off 0x30000 0x10000 2 with
  | none => s
  | some b =>
    let s := enableBit s (Reg.RFX_CTRL_enable b) (bits val 0 1) (rxEnable · b) (rxDisable · b)
    let s := if bits val 2 1 = 1 then rxStartcal s b else s
    if bits val 3 1 = 1 then calReq s b else s

/-- ramp_len: even, 2 to 10 µs (chapter 03, register table). -/
def rampLen (s : State) (n v : Nat) : State := s.set (Reg.TXC_RAMP_ramp_len n) (max 2 (min 10 ((v + 1) / 2 * 2)))

def txcWrite (s : State) (off val : Nat) : State :=
  if off = 0x50000 then enableBit s Reg.TXC_COEX_CTRL_coex_en (bits val 0 1) coexEnable coexDisable
  else match regIdx off 0x50100 4 256 with
    | none => s
    | some i =>
      let n := i / 64
      match i % 64 * 4 with
      | 0 =>
        let s := if bits val 1 1 = 1 then chainStartcal s n else s
        txcDrive (enableBit s (Reg.TXC_CTRL_enable n) (bits val 0 1) (chainEnable · n) (chainDisable · n)) n
      | 0x08 => rampLen s n (bits val 0 4)
      | 0x1c => match bits val 8 2 with
        | 1 => cacheFill s n (bits val 0 8)
        | 2 => cacheEvict s n (bits val 0 8)
        | 3 => cacheRead s n (bits val 0 8)
        | _ => s
      | 0x24 => if bits val 8 1 = 1 then park s n else s
      | _ => s

def sicWrite (s : State) (off val : Nat) : State :=
  if off = 0x60000 then
    let s := enableBit s Reg.SIC_CTRL_ena_a (bits val 0 1) (sicSetEna · 0 true) (sicSetEna · 0 false)
    enableBit s Reg.SIC_CTRL_ena_b (bits val 1 1) (sicSetEna · 1 true) (sicSetEna · 1 false)
  else match regIdx off 0x60110 0x100 4 with
    | none => s
    | some n => match bits val 8 2 with
      | 1 => sicClearEntry s n (bits val 0 8)
      | 2 => sicReadEntry s n (bits val 0 8)
      | _ => s

def chzWrite (s : State) (off val : Nat) : State :=
  match regIdx off 0x70100 8 32, regIdx off 0x71000 0x80 128, regIdx off 0x71008 0x80 128 with
  | some k, _, _ => if bits val 31 1 = 1 then channelRetire s k else s.set (Reg.CHZ_RCH_FREQ_valid k) 0
  | _, some n, _ =>
    let s := if bits val 0 1 = 0 ∧ laneState s n = laneRETIRED then laneDisable s n
      else enableBit s (Reg.CHZ_LANE_CTRL_enable n) (bits val 0 1) (laneEnable · n) (laneDisable · n)
    let s := if bits val 3 1 = 1 then selftest s n else s
    if bits val 4 1 = 1 then unretire s n else s
  | _, _, some n => laneCommit s n (bits val 0 22)
  | _, _, _ => s

def phyWrite (s : State) (off val : Nat) : State :=
  if off = 0x80010 then
    if bits val 31 1 = 1 then airtimeQuery s (bits val 0 5) (bits val 8 11) else s
  else match regIdx off 0x80100 0x20 32 with
    | some k => if bits val 0 1 = 1 then profileLoad s k else profileUnload s k
    | none => s

/-- The dwell totals of channels start again (R205). -/
def dwellRestart (s : State) (p : Nat → Bool) : State :=
  s.onAmc (fun a => { a with
    dwell := a.dwell.filter (fun e => !p e.1), dwellHit := a.dwellHit.filter (fun k => !p k) })

def amcWrite (s0 s : State) (off val : Nat) : State :=
  ebWritten <| match off with
  | 0x90000 => enableBit s Reg.AMC_CTRL_enable (bits val 0 1) amcEnable amcDisable
  | 0x90048 =>
    if s.get Reg.AMC_DWELL_CFG_dwell_win = s0.get Reg.AMC_DWELL_CFG_dwell_win then s
    else dwellRestart s (fun _ => true)
  | _ => match regIdx off 0x90204 8 64 with
    | some k =>
      if s.get (Reg.AMC_PLAN_CFG_hop k) = s0.get (Reg.AMC_PLAN_CFG_hop k) then s else dwellRestart s (· == k)
    | none => s

def slpWrite (s : State) (off val : Nat) : State :=
  match off with
  | 0xa0000 => enableBit s Reg.SLP_CTRL_enable (bits val 0 1) slpEnable slpDisable
  | 0xa0020 => if bits val 31 1 = 1 then nodeQuery s (bits val 0 17) else s
  | _ => s

/-- bank_sel waits for the slotframe boundary (R229). -/
def bankSelect (s : State) (v : Nat) : State :=
  (s.set Reg.ESC_BANK_bank_sel v).setb Reg.ESC_STATUS_bank_pending (v != bankAct s)

/-- The length of a bank's slotframe: 1 to 256, locked while the bank is active. -/
def frameLenSet (s : State) (bank v : Nat) : State :=
  if (s.on Reg.ESC_CTRL_enable && bankAct s == bank) || v = 0 || 256 < v then s
  else s.set (if bank = 0 then Reg.ESC_FRAME_LEN0_frame_len else Reg.ESC_FRAME_LEN1_frame_len) v

/-- A Fusee regulator is put in force, or out of it (R247). -/
def fusValid (s : State) (r v : Nat) : State :=
  if v = 1 then fusStart s r else fusUpdate (s.set (Reg.ESC_FUS_LO_valid r) 0) r (fusOf s r)

def escWrite (s : State) (off val : Nat) : State :=
  match off with
  | 0xb0000 => enableBit s Reg.ESC_CTRL_enable (bits val 0 1) escEnable escDisable
  | 0xb0010 => bankSelect s (bits val 0 1)
  | 0xb0014 => frameLenSet s 0 (bits val 0 9)
  | 0xb0018 => frameLenSet s 1 (bits val 0 9)
  | 0xb0030 => match bits val 17 2 with
    | 1 => subRead s (bits val 0 17)
    | 2 => subWrite s (bits val 0 17)
    | 3 => subFlush s (bits val 0 17)
    | _ => s
  | _ => match regIdx off 0xb3000 4 128, regIdx off 0xb3800 0x20 16 with
    | some i, _ => genBump s (i / 2)
    | _, some r => fusValid s r (bits val 31 1)
    | _, _ => s

/-- A command of the Node or Prefix Table; `upset` are entries that fail parity where it reads them (R276). -/
def fwdWrite (s : State) (off val : Nat) (upset : List Nat) : State :=
  match off with
  | 0xc0000 => enableBit s Reg.FWD_CTRL_enable (bits val 0 1) fwdEnable fwdDisable
  | 0xc0100 =>
    let kind := bits val 3 1
    match bits val 0 3 with
    | 1 => ntLookup s kind upset
    | 2 => ntInsertPrimary s upset
    | 3 => ntDelete s kind upset
    | 4 => ntSetParent s upset
    | 5 => ntInsertAlias s upset
    | 6 => ntRead s upset
    | 7 => ntRepair s kind upset
    | _ => s
  | 0xc0200 => match bits val 0 2 with
    | 1 => ptInsert s (bits val 8 8) upset
    | 2 => ptDelete s (bits val 16 12) upset
    | 3 => ptRead s (bits val 16 12) (upset.contains (bits val 16 12))
    | _ => s
  | _ => s

/-- A pool's free count follows its size (R282). -/
def poolResize (s0 s : State) (p : Nat) : State :=
  s.set (Reg.CTX_POOL_FREE_free p)
    (s0.get (Reg.CTX_POOL_FREE_free p) + s.get (Reg.CTX_POOL_CNT_count p) - s0.get (Reg.CTX_POOL_CNT_count p))

def ctxWrite (s0 s : State) (off val : Nat) : State :=
  match off with
  | 0xd0000 =>
    let s := enableBit s Reg.CTX_CTRL_enable (bits val 0 1) ctxEnable ctxDisable
    if bits val 1 1 = 1 then flush s else s
  | 0xd0010 =>
    let k := bits val 0 17
    match bits val 17 3 with
    | 1 => contextRead s k none
    | 2 => contextWrite s k (bits val 20 3)
    | 3 => restore s k
    | 4 => invalidate s k
    | _ => s
  | 0xd0028 => reservationConfirm s val
  | _ => match regIdx off 0xd0040 8 8 with
    | some p => poolResize s0 s p
    | none => s

/-- A window command by its op (R307): `mem` is what the job's source holds, none where its read faults. -/
def windowCommand (s : State) (w op slot : Nat) (mem : Option (List Byte)) : State :=
  match op with
  | 1 => jwlLoad s w slot
  | 2 => jwlDerive s w slot
  | 3 => keyInvalidate s w slot
  | 4 => readAttributes s w slot
  | 5 => jwlAttest s w slot
  | 6 => jwlHash s w slot (mem.getD []) mem.isNone
  | 7 => jwlHmac s w slot (mem.getD []) mem.isNone
  | 8 => jwlVerify s w slot
  | 9 => jwlExtend s w slot
  | _ => s

def jwlWrite (s : State) (off val : Nat) (w : Nat) (mem : Option (List Byte)) : State :=
  match off with
  | 0xe0000 => enableBit s Reg.JWL_CTRL_enable (bits val 0 1) jwlEnable jwlDisable
  | 0xe0008 => if bits val 16 1 = 1 then cacheFlush s else s
  | 0xe000c => if bits val 31 1 = 1 then lifeCycleChange s w (bits val 0 3) else s
  | _ =>
    let reg := (off - 0xe1000) % 0x400
    if off < 0xe1000 ∨ 0xe2000 ≤ off then s
    else if reg = 0 then windowCommand s w (bits val 0 4) (bits val 4 10) mem
    else match regIdx reg 0x10 4 16 with
      | some i => s.set (Reg.JWL_KEY_key w i) val
      | none => s

/-- The destination of a vector: locked while a cause is pending, and in standalone mode. -/
def vecDest (s : State) (v d : Nat) : State :=
  if s.on Reg.HIF_STATUS_standalone || (tabGetD s.hif.vecs v {}).count != 0 then s else s.set (Reg.HIF_VEC_CFG_dest v) d

def hifWrite (s : State) (off val : Nat) : State :=
  match regIdx off 0xf0100 4 64, regIdx off 0xf1000 0x40 256, regIdx off 0xf1024 0x40 256 with
  | some v, _, _ => vecDest s v (bits val 31 1)
  | _, some r, _ =>
    let s := if s.on Reg.HIF_STATUS_standalone then s.set (Reg.HIF_RING_CTRL_owner r) 1 else s
    enableBit s (Reg.HIF_RING_CTRL_enable r) (bits val 0 1) (ringEnable · r) (ringDisable · r)
  | _, _, some r => if bits val 1 2 ≠ 0 then s.onRing r (fun g => { g with err := 0 }) else s
  | _, _, _ => s

def evtWrite (s : State) (off val : Nat) : State :=
  if off = 0x100020 then evtSwraise s (bits val 0 8)
  else match regIdx off 0x100000 4 8 with
    | some m => { s with hif := { s.hif with
        pend := s.hif.pend.filter (fun e => !(e / 32 == m && bits val (e % 32) 1 == 1)) } }
    | none => s

/-- A register of a mailbox channel (R349-R355). -/
def channelWrite (s : State) (m : Master) (n reg val : Nat) : State :=
  match reg with
  | 0x00 => channelCfg s m n val
  | 0x04 => match chanAccess s m n .status true with
    | (true, s) => if bits val 3 1 = 1 then s.set (Reg.MBX_CH_STAT_collision n) 0 else s
    | (false, s) => s
  | 0x08 => post s m n (bits val 0 4)
  | 0x0c => if bits val 0 1 = 1 then mbxPop s m n else (chanAccess s m n .receiver true).2
  | _ =>
    match regIdx reg 0x20 4 8, regIdx reg 0x40 4 8 with
    | some i, _ => match chanAccess s m n .sender true with
      | (true, s) => s.set (Reg.MBX_CH_TXD_word n i) val
      | (false, s) => s
    | _, some _ => (chanAccess s m n .receiver true).2
    | _, _ => if reg = 0x10 ∨ reg = 0x14 then (chanAccess s m n .receiver true).2 else s

def mbxWrite (s : State) (m : Master) (off val : Nat) : State :=
  if off = 0x110100 then semForce s m (bits val 0 6)
  else match regIdx off 0x110400 4 64, regIdx off 0x111000 4 1024, regIdx off 0x112000 4 64 with
    | some v, _, _ =>
      lineDeliver ((s.set (Reg.MBX_CIRQ_CFG_targets v) (bits val 0 4)).set (Reg.MBX_CIRQ_CFG_mask v) (bits val 4 1)) v
    | _, some i, _ => channelWrite s m (i / 32) (i % 32 * 4) val
    | _, _, some k => semRelease s m k val
    | _, _, _ => s

/-- Unicast entry 0 of a port cannot be made invalid while the port is enabled; no_mac follows it. -/
def unicastZero (s0 s : State) (i : Nat) : State :=
  let s := if s.on (Reg.ETH_CTRL_enable i) then s.set (Reg.ETH_UC_HI_valid i 0) (s0.get (Reg.ETH_UC_HI_valid i 0)) else s
  s.setb (Reg.ETH_STATUS_no_mac i) (!s.on (Reg.ETH_UC_HI_valid i 0))

def ethWrite (s0 s : State) (off val : Nat) : State :=
  let i := (off - 0x120000) / 0x10000
  match off % 0x10000 with
  | 0 =>
    let s := enableBit s (Reg.ETH_CTRL_enable i) (bits val 0 1) (ethEnable · i) (ethDisable · i)
    if bits val 4 1 = s.get (Reg.ETH_CTRL_standby i) then s else ethStandby s i (bits val 4 1 == 1)
  | 0x104 => unicastZero s0 s i
  | _ => s

def twnWrite (s : State) (off val : Nat) : State :=
  if off = 0x140000 then enableBit s Reg.TWN_CTRL_enable (bits val 0 1) twnEnable twnDisable else s

/-- CRN_CMD (chapter 17): `mem` is what the image source holds, none where its read faults. -/
def crnWrite (s : State) (off val : Nat) (mem : Option (List Byte)) : State :=
  if off = 0x150008 then
    match bits val 0 4 with
    | 1 => crnDownload s (mem.getD []) mem.isNone
    | 2 => crnAbort s
    | 3 => crnActivate s
    | 4 => crnConfirm s (bits val 4 2)
    | 5 => burnSigner1 s
    | _ => s
  else s

def chrWrite (s0 s : State) (secure : Bool) (off val : Nat) : State :=
  match off with
  | 0x160000 => if secure then s.set Reg.CHR_CTRL_sample_secure (bits val 1 1) else s
  | 0x160108 => if bits val 0 1 = 1 then trecPop s else s
  | _ =>
    match regIdx off 0x160200 0x40 4, regIdx off 0x160204 0x40 4 with
    | some c, _ => isEnable s c (s0.on (Reg.CHR_IS_CFG_en c)) (bits val 0 1 == 1)
    | _, some c => if bits val 4 1 = 1 then samplePop s c else s
    | _, _ =>
      match regIdx off 0x160400 4 64, regIdx off 0x161000 4 64, regIdx off 0x162000 4 512 with
      | some k, _, _ =>
        let s := if bits val 3 1 = 1 then s.onChr (fun c => { c with ovf := c.ovf.filter (· != k) }) else s
        chrCounterEnable s k (bits val 0 1 == 1)
      | _, some k, _ => chrCounterWrite s k val
      | _, _, some b => binWrite s b val
      | _, _, _ => s

/-! ### The write -/

/-- The master that the fabric's source tag names (R302). -/
def masterNow (s : State) (m : Master) : Master := if m = .crown ∧ s.on Reg.CRN_STATUS_handed_over then .coreS 0 else m

/-- The number of a master's window (R301). -/
def masterCode : Master → Nat
  | .host => 0
  | .coreNs _ => 1
  | .coreS _ => 2
  | .crown => 3

/-- CRN takes the write (R406). -/
def crnAccepts (s : State) (m : Master) (off : Nat) : Bool :=
  masterSecure (masterCode m) || (m == .host && s.on Reg.CRN_STATUS_recovery &&
    (decide (0x150008 ≤ off ∧ off ≤ 0x150014) || off == 0x150018 || off == 0x15001c))

/-- The write is refused as a whole: by a rule on its master (R301, R406), or by a lock that is no field of a table.
The state after the refusal. That a master which JWL or CRN denies is counted also at an offset of the block that its chapter
does not define is a DESIGN CHOICE (log 62). -/
def writeRefused (s : State) (m : Master) (off val : Nat) : Option State :=
  let w := masterCode m
  match off / 0x10000 with
  | 0x2 =>
    match regIdx off 0x20400 4 64 with
    | some i => if cmpForeign s (i / 4) then some s else none
    | none => none
  | 0xb =>
    match regIdx off 0xb4000 4 2048 with
    | some i => if s.on Reg.ESC_CTRL_enable && i / 1024 == bankAct s then some s else none
    | none => none
  | 0xc => if (off == 0xc0008 || off == 0xc000c) && s.on Reg.FWD_NT_FILL_nt_fill then some s else none
  | 0xe =>
    if 0xe1000 ≤ off ∧ off < 0xe2000 then
      if (off - 0xe1000) / 0x400 = w then none else some (jwlDenied s w 0)
    else if masterSecure w then none
    else if off = 0xe000c ∧ bits val 31 1 = 1 then some (lifeCycleChange s w (bits val 0 3))
    else some (jwlDenied s w 0)
  | 0x15 =>
    if !crnAccepts s m off then some (s.bump Reg.CRN_CNT_DENIED)
    else if (crnBusy s && decide (0x15000c ≤ off ∧ off ≤ 0x150014)) ||
        ((off == 0x150018 || off == 0x15001c) && s.get Reg.CRN_STATUS_state != 0) then some s
    else none
  | _ => none

/-- What a write of `val` does, apart from the fields. -/
def blockWrite (s0 s : State) (m : Master) (off val : Nat) (reads : BusReads) : State :=
  match off / 0x10000 with
  | 0x00 => glbWrite s off val
  | 0x01 => pwrWrite s off val
  | 0x02 => balWrite s0 s off val
  | 0x03 => rfxWrite s off val
  | 0x04 => rfxWrite s off val
  | 0x05 => txcWrite s off val
  | 0x06 => sicWrite s off val
  | 0x07 => chzWrite s off val
  | 0x08 => phyWrite s off val
  | 0x09 => amcWrite s0 s off val
  | 0x0a => slpWrite s off val
  | 0x0b => escWrite s off val
  | 0x0c => fwdWrite s off val reads.upset
  | 0x0d => ctxWrite s0 s off val
  | 0x0e => jwlWrite s off val (masterCode m) reads.mem
  | 0x0f => hifWrite s off val
  | 0x10 => evtWrite s off val
  | 0x11 => mbxWrite s m off val
  | 0x12 => ethWrite s0 s off val
  | 0x13 => ethWrite s0 s off val
  | 0x14 => twnWrite s off val
  | 0x15 => crnWrite s off val reads.mem
  | 0x16 => chrWrite s0 s (masterSecure (masterCode m)) off val
  | _ => s

/-- A write of an aligned word of BAR0 by a master (R5-R9, R34); `reads` is what the written command reads. -/
def busWrite (s : State) (m : Master) (off val : Nat) (reads : BusReads) : State :=
  let m := masterNow s m
  let s := { s with resp := .ok }
  let s := if off / 0x10000 = 0x09 then ebSettle (nbReached s) else if off / 0x10000 = 0x07 then rxReached s else s
  let s := match writeRefused s m off val with
    | some s => s
    | none => blockWrite s (if off / 0x10000 = 0x11 then s else fieldsWrite s off val) m off val reads
  if m = .host then standbyWake s 2 else s

/-- An access that is narrower than a word or not aligned (R5), or a word access as it is. -/
def unsupported (s : State) (off octets : Nat) : State :=
  if octets ≠ 4 ∨ off % 4 ≠ 0 then { s with resp := .unsupportedRequest } else s

end Sys2Proof.Machine
end

