-- ==== Sys2Proof/Machine/BusRead.lean ====
section
/-! DEFINITION. Reads of BAR0 (R5-R7, R34), with what blocks show of their hidden state, and the control rings that
carry register accesses (R338). -/

namespace Sys2Proof.Machine

/-! ### What registers show -/

/-- A neighbour table entry at AMC_NB_RD0 to RD3. -/
def nbShow (s : State) : State :=
  let n := tabGetD s.amc.nb (s.get Reg.AMC_NB_SEL_entry) {}
  let s := ((s.set Reg.AMC_NB_RD0_district_id n.district).set Reg.AMC_NB_RD0_site_id n.site).set
    Reg.AMC_NB_RD1_state n.state
  let s := ((s.set Reg.AMC_NB_RD1_miss n.miss).set Reg.AMC_NB_RD1_rsv_count n.rsv.length).set Reg.AMC_NB_RD1_role n.role
  let s := (s.set Reg.AMC_NB_RD1_period n.period).set Reg.AMC_NB_RD2_last_cycle n.lastCyc
  s.set Reg.AMC_NB_RD3_channel (n.rsv.getD (s.get Reg.AMC_NB_SEL_rsv) 0)

/-- The head of a capture FIFO (R67): its grid angle reads 0 in OFF. -/
def tciShow (s : State) (n : Nat) : State :=
  let q := tabGetD s.bal.tci n []
  let h := q.headD ⟨0, 0, false⟩
  let angle := if balOff s then 0 else h.angle
  let s := (s.set (Reg.BAL_TCI_STAT_level n) q.length).setb (Reg.BAL_TCI_STAT_polarity n) h.rising
  let s := (s.set (Reg.BAL_TCI_LTB_LO_ltb_lo n) h.ltb).set (Reg.BAL_TCI_LTB_HI_ltb_hi n) (h.ltb / 2 ^ 32)
  (s.set (Reg.BAL_TCI_ANGLE_LO_angle_lo n) angle).set (Reg.BAL_TCI_ANGLE_HI_angle_hi n) (angle / 2 ^ 32)

def tsfShow (s : State) (n : Nat) : State :=
  (s.set (Reg.BAL_TSF_STAT_level n) (tabGetD s.bal.tsf n []).length).set (Reg.BAL_TSF_STAT_lost n)
    (s.count (Reg.BAL_TSF_STAT_lost n).off)

/-- The permanent-fault list at PWR_PERM_RD. -/
def permShow (s : State) : State :=
  let (cls, obj, idx) := s.pwr.perm.getD (s.get Reg.PWR_PERM_SEL_entry) (0, 0, 0)
  ((s.set Reg.PWR_PERM_RD_class cls).set Reg.PWR_PERM_RD_object obj).set Reg.PWR_PERM_RD_index idx

/-- The needs of R19 that are not met. -/
def needsShow (s : State) : State :=
  let no := fun (f : Fld) => !s.on f
  let s := (s.setb Reg.AMC_STATUS_need_bal (no Reg.BAL_CTRL_enable)).setb Reg.AMC_STATUS_need_lane (!laneOn s)
  let s := (s.setb Reg.SLP_STATUS_need_amc (no Reg.AMC_CTRL_enable)).setb Reg.SLP_STATUS_need_esc (no Reg.ESC_CTRL_enable)
  let s := (s.setb Reg.ESC_STATUS_need_bal (no Reg.BAL_CTRL_enable)).setb Reg.ESC_STATUS_need_port
    ((List.range 8).all (fun p => no (Reg.ESC_PORT_CTRL_cfg p)))
  (s.setb Reg.FWD_STATUS_need_ctx (no Reg.CTX_CTRL_enable)).setb Reg.TWN_STATUS_need_eth (no (Reg.ETH_CTRL_enable (hbPort s)))

/-- The head instruction sample of core `c`, the PC of one from the secure world hidden unless sample_secure is 1 (R417). -/
def sampleShow (s : State) (c : Nat) : State :=
  match (isSamples s c).head? with
  | none => s
  | some x =>
    let pc := if x.secure && !s.on Reg.CHR_CTRL_sample_secure then 0 else x.pc
    let s := (s.set (Reg.CHR_IS_PC_LO_pc c) pc).set (Reg.CHR_IS_PC_HI_pc c) (pc / 2 ^ 32)
    ((s.set (Reg.CHR_IS_INFO_latency c) x.latency).set (Reg.CHR_IS_INFO_flags c) x.flags).setb (Reg.CHR_IS_INFO_secure c) x.secure

/-- The fields that show hidden state, at offset `off`. -/
def viewShow (s : State) (off : Nat) : State :=
  match off / 0x10000 with
  | 0x01 => permShow s
  | 0x02 => match regIdx off 0x20200 4 32, regIdx off 0x20340 4 6 with
    | some i, _ => tciShow s (i / 8)
    | _, some n => tsfShow s n
    | _, _ => s
  | 0x09 => match regIdx off 0x90204 8 64 with
    | some k => s.setb (Reg.AMC_PLAN_CFG_retired k) (planRetired s k)
    | none => nbShow (needsShow s)
  | 0x0a => needsShow s
  | 0x0b => needsShow s
  | 0x0c => needsShow s
  | 0x11 => match regIdx off 0x110010 4 5, regIdx off 0x110400 4 64, regIdx off 0x112100 4 64 with
    | some e, _, _ => s.setb (Reg.MBX_EP_down e) (endDown s e)
    | _, some v, _ => s.setb (Reg.MBX_CIRQ_CFG_pending v) (s.mbx.lines.contains v)
    | _, _, some k => (s.set (Reg.MBX_SEM_PEEK_owner k) (semOf s k).owner).setb (Reg.MBX_SEM_PEEK_abandoned k) (semOf s k).abandoned
    | _, _, _ => s
  | 0x0d => sweepStallCount s
  | 0x14 => stallCount (needsShow s)
  | 0x15 => s.set Reg.CRN_RB_rb_fuse s.fuses.rollback
  | 0x16 => match regIdx off 0x160110 4 10, regIdx off 0x160200 4 64, regIdx off 0x160400 4 64 with
    | some w, _, _ => s.set (Reg.CHR_TREC_word w) ((s.chr.recs.headD []).getD w 0)
    | _, some i, _ => sampleShow s (i / 16)
    | _, _, some k => s.setb (Reg.CHR_CNT_CFG_ovf k) (s.chr.ovf.contains k)
    | _, _, _ => lostCount s
  | _ => s

/-- The word that the fields of the tables make. -/
def fieldsRead (s : State) (off : Nat) : Nat :=
  (blockRows off).foldl (fun w r =>
    match rowAt r off with
    | some (i, j) => if r.acc == .wo then w else let f := r.fld i j
      w ||| s.get f * 2 ^ f.lo
    | none => w) 0

/-- Words that are no field: the counts of HIF rings, pending events, CHR counters and bins. -/
def hiddenWord (s : State) (off : Nat) : Option Nat :=
  match off / 0x10000 with
  | 0x0f => match regIdx off 0xf1000 4 4096 with
    | some i =>
      let g := s.ringOf (i / 16)
      match i % 16 with
      | 7 => some (g.cIdx + g.pIdx * 2 ^ 16)
      | 8 => some (g.cp + g.ccons * 2 ^ 16)
      | 9 => some ((if g.halted then 1 else 0) + 2 * g.err + (if g.armed then 8 else 0))
      | 10 => some g.lost
      | _ => none
    | none => none
  | 0x10 => (regIdx off 0x100000 4 8).map (fun m =>
      (s.hif.pend.filter (fun e => e / 32 == m)).foldl (fun w e => w ||| 2 ^ (e % 32)) 0)
  | 0x16 => match regIdx off 0x161000 4 64, regIdx off 0x161800 4 64, regIdx off 0x162000 4 512, regIdx off 0x162800 4 512 with
    | some k, _, _, _ => some (tabGetD s.chr.count k 0)
    | _, some k, _, _ => some (tabGetD s.chr.shadow k 0)
    | _, _, some b, _ => some (tabGetD s.chr.bins b 0)
    | _, _, _, some b => some (tabGetD s.chr.binShadow b 0)
    | _, _, _, _ => none
  | _ => none

/-- A statistics counter, or its shadow (R70): at +0x800, of a lane at +0x8000. -/
def counterWord (s : State) (off : Nat) : Option Nat :=
  if 0x20340 ≤ off ∧ off < 0x20358 then none
  else if isCounter off then some (s.count off)
  else
    let live := if off / 0x10000 = 7 then off - 0x8000 else off - 0x800
    if !isCounter live then none
    else if 0x20340 ≤ live ∧ live < 0x20358 then some (tabGetD s.cntLast live 0 % 2 ^ 16 * 2 ^ 16)
    else some (tabGetD s.cntLast live 0)

/-- The value of the register at an offset; an undefined one reads 0 (R34). -/
def regValue (s : State) (off : Nat) : Nat :=
  let s := viewShow s off
  match counterWord s off, hiddenWord s off with
  | some v, _ => v
  | _, some v => v
  | _, _ => fieldsRead s off

/-! ### The read -/

/-- A read of a register of a mailbox channel (R350, R353-R355). -/
def channelRead (s : State) (m : Master) (n reg : Nat) : State :=
  let answer := fun (p : Party) (v : State → Nat) => match chanAccess s m n p false with
    | (true, s) => { s with resp := .value (BitVec.ofNat 32 (v s)) }
    | (false, s) => s
  match reg with
  | 0x00 => answer .config (fun s => fieldsRead s (0x111000 + 0x80 * n))
  | 0x04 => answer .status (fun s =>
      let s := s.setb (Reg.MBX_CH_STAT_rx_down n) (endDown s (s.get (Reg.MBX_CH_CFG_receiver n)))
      let s := s.setb (Reg.MBX_CH_STAT_tx_down n) (endDown s (s.get (Reg.MBX_CH_CFG_sender n)))
      fieldsRead s (0x111004 + 0x80 * n))
  | 0x08 => answer .sender (fun _ => 0)
  | 0x0c => answer .receiver (fun _ => 0)
  | 0x10 => answer .receiver (chanHeader · n)
  | 0x14 => answer .receiver (chanEpochs · n)
  | _ => match regIdx reg 0x20 4 8, regIdx reg 0x40 4 8 with
    | some i, _ => answer .sender (fun s => s.get (Reg.MBX_CH_TXD_word n i))
    | _, some i => answer .receiver (chanWord · n i)
    | _, _ => { s with resp := .value 0 }

/-- A read of an aligned word of BAR0 by a master: its completion is `resp`. CRN_PROG in mid-stage shows a free
value (log 2). -/
def busRead (s : State) (m : Master) (off : Nat) : State :=
  let m := masterNow s m
  let plain := fun (s : State) (v : Nat) => { s with resp := .value (BitVec.ofNat 32 v) }
  let free := fun (s : State) (mask : Nat) => let (v, s) := s.drawFree (2 ^ 32)
    plain s (v &&& mask)
  match off / 0x10000 with
  | 0x0e =>
    if 0xe1000 ≤ off ∧ off < 0xe2000 ∧ (off - 0xe1000) / 0x400 ≠ masterCode m then plain s 0
    else plain s (regValue s off)
  | 0x11 => match regIdx off 0x111000 4 1024, regIdx off 0x112000 4 64 with
    | some i, _ => channelRead s m (i / 32) (i % 32 * 4)
    | _, some k => semTake s m k
    | _, _ => plain s (regValue s off)
  | 0x15 =>
    let st := s.get Reg.CRN_STATUS_state
    if off = 0x150024 ∧ (st = 1 ∨ st = 4) then free s 0xffffffff else plain s (regValue s off)
  | _ => plain s (regValue s off)

/-- The word that a read answered with; an aborted read's is not stated (log 2). -/
def readWord (s : State) : Nat × State :=
  match s.resp with
  | .value w => (w.toNat, s)
  | _ => s.drawFree (2 ^ 32)

/-! ### Control rings (R338) -/

/-- The master of a control ring's accesses: the model takes CORE0 for the cluster (log 33). -/
def ringMaster (s : State) (r : Nat) : Master := if ringOwner s r = 0 then .host else .coreNs 0

/-- A control descriptor completes in its slot with a result and a status (R338). -/
def controlEnd (s : State) (r : Nat) (d : List Byte) (result : Option Nat) (status : Nat) : State :=
  if s.pwr.held then s
  else
    let g := s.ringOf r
    let d := match result with
      | some v => putAt d 16 (leOctets 4 v)
      | none => d
    let d := putAt d 20 (leOctets 1 status)
    let log2 := s.get (Reg.HIF_RING_CTRL_log2_size r)
    let s := s.memOut (ringOwner s r) (ringBase s r + 32 * (g.cIdx % ringSize s r)) (withPhase d (phaseOf g.cIdx log2))
    let stop := status ≠ 0 ∧ status ≠ 4 ∧ octet d 1 % 2 = 1
    let s := s.onRing r (fun g => { g with poll := none, skipTo := if stop then some g.pIdx else g.skipTo })
    ringCause (consume s r 1) r

/-- A read of a poll: complete where its condition holds or its limit is over. -/
def pollOnce (s : State) (r : Nat) (d : List Byte) (deadline : Nat) : State :=
  let (v, s) := readWord (busRead s (ringMaster s r) (ofLe (octetsAt d 4 4)))
  if v &&& ofLe (octetsAt d 12 4) = ofLe (octetsAt d 8 4) then controlEnd s r d (some v) 0
  else if deadline ≤ s.ltb then controlEnd s r d (some v) 1
  else s.onRing r (fun g => { g with poll := some (d, deadline) })

/-- The descriptor at the ring's consumer count is skipped because an earlier one failed. -/
def controlSkips (g : Ring) : Bool :=
  match g.skipTo with
  | none => false
  | some p => let n := (p + 65536 - g.cIdx) % 65536
    decide (n ≠ 0 ∧ n < 32768)

/-- CONTROL_DESCRIPTOR (R338): `d` is what memory holds at the next posted slot, `reads` what a written command
reads. -/
def controlDescriptor (s : State) (r : Nat) (d : List Byte) (reads : BusReads) : State :=
  let g := s.ringOf r
  if !isCtlRing r || !ringLive s r || g.poll.isSome || g.pIdx == g.cIdx then s
  else
    let d := octetsAt d 0 32
    let op := octet d 0
    let off := ofLe (octetsAt d 4 4)
    if controlSkips g then controlEnd s r d none 4
    else
      let s := s.onRing r (fun g => { g with skipTo := none })
      if op = 0 ∨ 3 < op then controlEnd s r d none 3
      else if off % 4 ≠ 0 ∨ 0x200000 ≤ off then controlEnd s r d none 2
      else if op = 1 then controlEnd (busWrite s (ringMaster s r) off (ofLe (octetsAt d 8 4)) reads) r d none 0
      else if op = 2 then
        let (v, s) := readWord (busRead s (ringMaster s r) off)
        controlEnd s r d (some v) 0
      else pollOnce s r d (s.ltb + (if ofLe (octetsAt d 2 2) = 0 then 65536 else ofLe (octetsAt d 2 2)) * 1000)

/-- CONTROL_POLL_END (R338). -/
def controlPollEnd (s : State) (r : Nat) : State :=
  match (s.ringOf r).poll with
  | none => s
  | some (d, deadline) => if !ringLive s r then s else pollOnce s r d deadline

end Sys2Proof.Machine
end

