-- ==== Sys2Proof/Machine/Act.lean ====
section
/-! DEFINITION. What every command has around its own effect: the instant it happens at, the issuers that are told of
ended transmissions, the fault classifier and the Chronograph; and the commands that touch many blocks, the fixing of
grid-angle targets (R45) and the statistics epoch boundary (R70). -/

namespace Sys2Proof.Machine

/-! ### The ends of transmissions (R89) -/

/-- What radiated: the Fusee's bins and the dwell totals (R205, R247). The regulators show it with the holds that leave at the
same instant. -/
def radiated (s : State) (e : TxEnd) : State :=
  if e.first.isNone then s
  else
    let band := chainBand e.chain
    dwellAdd (fusRadiated s band e.cmd.chan e.cmd.occHz e.airUs) band e.cmd.chan e.airUs

/-- An acknowledgement's command ended (R181, R207, R225). -/
def ackTxEnd (s : State) (e : TxEnd) : State :=
  match s.amc.acks.find? (fun a => a.ref == e.cmd.ref) with
  | none => s
  | some a =>
    let s := s.onAmc (fun x => { x with acks := x.acks.filter (fun y => y.ref != a.ref) })
    if e.status = 2 ∨ e.status = 4 ∨ e.status = 5 then s.bump Reg.AMC_CNT_ACK_TXFAIL
    else match e.status, a.pend, a.ctx with
      | 0, true, some k => pendListen s k (e.first.getD 0 + e.airUs * 1000) e.upset
      | _, _, _ => s

/-- The issuer of an ended command is told (R89). -/
def txRoute (s : State) (e : TxEnd) : State :=
  let s := radiated s e
  let s := match e.cmd.issuer with
    | .ackArbiter => ackTxEnd s e
    | .beacon => if e.status = 0 then s.bump Reg.AMC_CNT_EB_SENT else s
    | .slot => slotTxEnd s e
    | .slp => slpTxEnd s e
    | .pend => slpTxEnd s e
    | .async => runTxEnd s e
    | .test => testTxEnd s e
  if e.first.isNone then s else fusShow s (chainBand e.chain) e.cmd.chan e.cmd.occHz

/-- The ends that wait, in turn; an issuer may give a new command that ends at once. At most `n` are told. -/
def txDrain : Nat → State → State
  | 0, s => s
  | n + 1, s => match s.txDone with
    | [] => s
    | e :: r => txDrain n (txRoute { s with txDone := r } e)

/-! ### Around a command -/

/-- Time moves on to the instant of the command (log 1); the outputs and the completion of the last one are gone. -/
def State.begin (s : State) (t : Nat) : State :=
  { s with chr := chrTime s (max s.ltb t), ltb := max s.ltb t, out := [], resp := .none }

/-- What follows every effect in the same instant. -/
def State.finish (s : State) : State := chrSettle (chrRises (classifyInbox 64 (txDrain 256 s)))

/-- A command at instant `t`: it has no effect while chip reset is held (R425). The queue is not its own. -/
def act (t : Nat) (s : State) (f : State → State) : Host.Outcome State Fault Refusal :=
  .next { (if s.pwr.held then s.begin t else (f (s.begin t)).finish) with pending := s.pending }

/-- A command of the reset domain, which also acts while chip reset is held (R424). -/
def actReset (t : Nat) (s : State) (f : State → State) : Host.Outcome State Fault Refusal :=
  .next { (f (s.begin t)).finish with pending := s.pending }

/-! ### TARGET_FIX (R45) -/

/-- A grid-angle target is converted to a fixed LTB, once the model is near enough to it. -/
def targetFix (s : State) (x : Target) : State :=
  match x with
  | .tt n => ttFix s n
  | .epoch => epochFix s
  | .beacon b => beaconFix s b
  | .window k upset => windowFix s k upset
  | .chain n => chainFix s n

/-! ### STATISTICS_EPOCH (R70) -/

/-- EV135 at a boundary (R207). -/
def refusalEpoch (s : State) : State :=
  let thr := s.cur Reg.AMC_ACK_CFG_refuse_thr
  let n := s.amc.refusals
  let s := (s.takeEffect [Reg.AMC_ACK_CFG_refuse_thr]).onAmc (fun a => { a with refusals := 0 })
  if thr ≠ 0 ∧ thr ≤ n then s.raise 135 else s

/-- Every statistics counter copies its value into its shadow and restarts; events that are raised once in an epoch
may be raised again. -/
def countersEpoch (s : State) : State :=
  let s := lostSettle (sweepStallCount (stallCount s))
  chrEpoch { s with cntLast := s.cnt, cnt := [], once := [] }

/-- STATISTICS_EPOCH: counters first, then the Balance, then what other blocks do at the boundary. -/
def statisticsEpoch (s : State) : State :=
  match epochDue s with
  | none => s
  | some k =>
    let s := laneEpoch (balEpoch (countersEpoch s) k)
    refusalEpoch (expireAll (classifierEpoch (classifyInbox 64 s)))

end Sys2Proof.Machine
end

