-- ==== Sys2Proof/Machine/AirMac.lean ====
section
/-! DEFINITION. The air MAC (chapter 07): the meaning of each command. -/

namespace Sys2Proof.Machine

/-- AMC_ENABLE (R19, R206). -/
def execAmcEnable (t : Nat) (s : State) : Host.Outcome State Fault Refusal :=
  act t s (fun s => amcEnable s)

/-- AMC_DISABLE (R206). -/
def execAmcDisable (t : Nat) (s : State) : Host.Outcome State Fault Refusal :=
  act t s (fun s => amcDisable s)

/-- ASYNC_START (R187, R188, R197). -/
def execAsyncStart (t : Nat) (n : Fin 4) (s : State) : Host.Outcome State Fault Refusal :=
  act t s (fun s => asyncStart s n.val)

/-- BACKOFF_EXPIRY (R188, R189). -/
def execBackoffExpiry (t : Nat) (n : Fin 4) (s : State) : Host.Outcome State Fault Refusal :=
  act t s (fun s => backoffExpiry s n.val)

/-- ACK_WAIT_EXPIRY (R190). -/
def execAckWaitExpiry (t : Nat) (ref : Nat) (s : State) : Host.Outcome State Fault Refusal :=
  act t s (fun s => ackWaitExpiry s ref)

/-- NEIGHBOUR_BEACON_MISSED (R199, R200). -/
def execNeighbourBeaconMissed (t : Nat) (k : Fin 32) (s : State) : Host.Outcome State Fault Refusal :=
  act t s (fun s => neighbourMissed s k.val)

/-- NEIGHBOUR_HOLD_EXPIRY (R199). -/
def execNeighbourHoldExpiry (t : Nat) (k : Fin 32) (s : State) : Host.Outcome State Fault Refusal :=
  act t s (fun s => neighbourHold s k.val)

/-- DWELL_STEP (R205). -/
def execDwellStep (t : Nat) (s : State) : Host.Outcome State Fault Refusal :=
  act t s (fun s => dwellStep s)

end Sys2Proof.Machine
end

