-- ==== Sys2Proof/Machine/Balance.lean ====
section
/-! DEFINITION. Grid angle, local time and the Balance (chapter 02): the meaning of each command. -/

namespace Sys2Proof.Machine

/-- An edge at TCIn (R67, R409, R432); a pulse shorter than the capture filter wakes nothing (R451). -/
def tciEdgeAll (s : State) (n : Nat) (rising : Bool) (widthNs : Nat) : State :=
  let s := chrTci (tciCapture s n rising widthNs) n rising widthNs
  if rising && decide (s.get (Reg.BAL_TCI_CTRL_filter n) * 4 ≤ widthNs) then standbyWake s (3 + n) else s

/-- The commands at grid angles that a step or a load of the count passed over, from `s0` to `s`: beacons and slot
decisions are late (R45, R54, R56). -/
def angleSkipped (s0 s : State) : State := decisionsLate (beaconsLate s0 s) (liveAngle s0)

/-- CYCLE_START (R44, R55, R56) with what the other blocks do in it: the neighbours' cycles (R199). -/
def cycleStartAll (s : State) : State :=
  let s' := cycleStart s
  match s.bal.cycles.head?, s'.bal.cycles.head? with
  | some c, some d =>
    if d.k = c.k ∧ d.s = c.s then s'
    else nbCycle (if d.k = (c.k + 1) % 2 ^ 32 then s' else angleSkipped s s')
  | _, _ => s'

/-- PHASE_STEP (R53, R54) with what it passed over. -/
def phaseStepAll (s : State) : State :=
  let s' := phaseStep s
  if s.bal.cycles == s'.bal.cycles then s' else angleSkipped s s'

/-- BAL_ENABLE (R19, R51). -/
def execBalEnable (t : Nat) (s : State) : Host.Outcome State Fault Refusal :=
  act t s (fun s => balEnable s)

/-- BAL_DISABLE (R40, R51). -/
def execBalDisable (t : Nat) (s : State) : Host.Outcome State Fault Refusal :=
  act t s (fun s => balDisable s)

/-- CYC_FORCE (R56). -/
def execCycForce (t : Nat) (s : State) : Host.Outcome State Fault Refusal :=
  act t s (fun s => cycForce s)

/-- SNAP (chapter 02, register table). -/
def execSnap (t : Nat) (s : State) : Host.Outcome State Fault Refusal :=
  act t s (fun s => snap s)

/-- GRID_ZC_EDGE (R47, R49). -/
def execGridZcEdge (t : Nat) (rising : Bool) (s : State) : Host.Outcome State Fault Refusal :=
  act t s (fun s => gridZcEdge s rising)

/-- GRID_AIN_CROSSING (R46). -/
def execGridAinCrossing (t : Nat) (t1 : Nat) (s1 s2 lowest highest : Int) (s : State) : Host.Outcome State Fault
    Refusal :=
  act t s (fun s => gridAinCrossing s t1 s1 s2 lowest highest)

/-- CROSSING_MISSED (R48, R51). -/
def execCrossingMissed (t : Nat) (s : State) : Host.Outcome State Fault Refusal :=
  act t s (fun s => crossingMissed s)

/-- CYCLE_START (R44, R55, R56). -/
def execCycleStart (t : Nat) (s : State) : Host.Outcome State Fault Refusal :=
  act t s (fun s => cycleStartAll s)

/-- PHASE_STEP (R53, R54). -/
def execPhaseStep (t : Nat) (s : State) : Host.Outcome State Fault Refusal :=
  act t s (fun s => phaseStepAll s)

/-- STALL_START (R53). -/
def execStallStart (t : Nat) (s : State) : Host.Outcome State Fault Refusal :=
  act t s (fun s => stallStart s)

/-- STALL_END (R53). -/
def execStallEnd (t : Nat) (s : State) : Host.Outcome State Fault Refusal :=
  act t s (fun s => stallEnd s)

/-- TARGET_FIX (R45). -/
def execTargetFix (t : Nat) (target : Target) (s : State) : Host.Outcome State Fault Refusal :=
  act t s (fun s => targetFix s target)

/-- STATISTICS_EPOCH (R70). -/
def execStatisticsEpoch (t : Nat) (s : State) : Host.Outcome State Fault Refusal :=
  act t s (fun s => statisticsEpoch s)

/-- TT_ENABLE (R37, R65). -/
def execTtEnable (t : Nat) (n : Fin 8) (s : State) : Host.Outcome State Fault Refusal :=
  act t s (fun s => ttEnable s n.val)

/-- TT_DISABLE (R40). -/
def execTtDisable (t : Nat) (n : Fin 8) (s : State) : Host.Outcome State Fault Refusal :=
  act t s (fun s => ttDisable s n.val)

/-- TT_COMMIT (R65, R66). -/
def execTtCommit (t : Nat) (n : Fin 8) (hi : BitVec 16) (s : State) : Host.Outcome State Fault Refusal :=
  act t s (fun s => ttCommit s n.val hi.toNat)

/-- TT_FIRING (R65, R66). -/
def execTtFiring (t : Nat) (n : Fin 8) (s : State) : Host.Outcome State Fault Refusal :=
  act t s (fun s => ttFiring s n.val)

/-- TT_PULSE_END (R65). -/
def execTtPulseEnd (t : Nat) (n : Fin 8) (s : State) : Host.Outcome State Fault Refusal :=
  act t s (fun s => ttPulseEnd s n.val)

/-- BURST_DONE (R65). -/
def execBurstDone (t : Nat) (samples : List (BitVec 12)) (s : State) : Host.Outcome State Fault Refusal :=
  act t s (fun s => burstDone s samples)

/-- TCI_ENABLE (R67). -/
def execTciEnable (t : Nat) (n : Fin 4) (s : State) : Host.Outcome State Fault Refusal :=
  act t s (fun s => tciEnable s n.val)

/-- TCI_EDGE (R60, R67): the capture, the CHR sources (R409) and the wake of STANDBY (R432). -/
def execTciEdge (t : Nat) (n : Fin 4) (rising : Bool) (widthNs : Nat) (s : State) : Host.Outcome State Fault Refusal
    :=
  act t s (fun s => tciEdgeAll s n.val rising widthNs)

/-- POP (R67). -/
def execPop (t : Nat) (n : Fin 4) (s : State) : Host.Outcome State Fault Refusal :=
  act t s (fun s => tciPop s n.val)

/-- CMP_ENABLE (R69). -/
def execCmpEnable (t : Nat) (k : Fin 16) (s : State) : Host.Outcome State Fault Refusal :=
  act t s (fun s => cmpEnable s k.val)

/-- CMP_COMMIT (R68). -/
def execCmpCommit (t : Nat) (k : Fin 16) (hi : Word) (s : State) : Host.Outcome State Fault Refusal :=
  act t s (fun s => cmpCommit s k.val hi.toNat)

/-- CMP_FIRE (R68). -/
def execCmpFire (t : Nat) (k : Fin 16) (s : State) : Host.Outcome State Fault Refusal :=
  act t s (fun s => cmpFire s k.val)

/-- PTP_SET (R62). -/
def execPtpSet (t : Nat) (ns : BitVec 30) (s : State) : Host.Outcome State Fault Refusal :=
  act t s (fun s => ptpSet s ns.toNat)

/-- PTP_ADJ (R62). -/
def execPtpAdj (t : Nat) (adj : Word) (s : State) : Host.Outcome State Fault Refusal :=
  act t s (fun s => ptpAdj s adj.toInt)

/-- PPS_OUT_ENABLE (R63). -/
def execPpsOutEnable (t : Nat) (s : State) : Host.Outcome State Fault Refusal :=
  act t s (fun s => ppsOutEnable s)

/-- PPS_PULSE (R63). -/
def execPpsPulse (t : Nat) (s : State) : Host.Outcome State Fault Refusal :=
  act t s (fun s => ppsPulse s)

/-- PPS_PULSE_END (R63). -/
def execPpsPulseEnd (t : Nat) (s : State) : Host.Outcome State Fault Refusal :=
  act t s (fun s => ppsPulseEnd s)

/-- PPS_IN_EDGE (R60, R63). -/
def execPpsInEdge (t : Nat) (s : State) : Host.Outcome State Fault Refusal :=
  act t s (fun s => ppsInEdge s)

/-- PPS_IN_MISSING (R63). -/
def execPpsInMissing (t : Nat) (s : State) : Host.Outcome State Fault Refusal :=
  act t s (fun s => ppsInMissing s)

end Sys2Proof.Machine
end

