-- ==== Sys2Proof/Machine/Canceller.lean ====
section
/-! DEFINITION. The self-interference canceller (chapter 04): the meaning of each command. -/

namespace Sys2Proof.Machine

/-- COEFF_ADAPT (R106, R107, R113). -/
def execCoeffAdapt (t : Nat) (n : Fin 4) (taps coefs : List Cplx) (views : List SicView) (s : State) : Host.Outcome State
    Fault Refusal :=
  act t s (fun s => coeffAdapt s n.val taps coefs views)

/-- COLLISION_DECLARED (R120, R121). -/
def execCollisionDeclared (t : Nat) (n : Fin 4) (lane : Fin 128) (seen : LevelSeen) (s : State) :
    Host.Outcome State Fault Refusal :=
  act t s (fun s => collisionDeclared s n.val lane.val seen.level seen.since)

/-- SIC_CLEAR_ENTRY (R112). -/
def execSicClearEntry (t : Nat) (n : Fin 4) (slot : Fin 256) (s : State) : Host.Outcome State Fault Refusal :=
  act t s (fun s => sicClearEntry s n.val slot.val)

/-- SIC_READ_ENTRY (R112). -/
def execSicReadEntry (t : Nat) (n : Fin 4) (slot : Fin 256) (s : State) : Host.Outcome State Fault Refusal :=
  act t s (fun s => sicReadEntry s n.val slot.val)

end Sys2Proof.Machine
end

