-- ==== Sys2Proof/Machine/Chronograph.lean ====
section
/-! DEFINITION. The Chronograph (chapter 18): the meaning of each command. -/

namespace Sys2Proof.Machine

/-- CHR_COUNTER_ENABLE (R408, R409). -/
def execChrCounterEnable (t : Nat) (k : Fin 64) (en : Bool) (s : State) : Host.Outcome State Fault Refusal :=
  act t s (fun s => chrCounterEnable s k.val en)

/-- CHR_COUNTER_WRITE (R413). -/
def execChrCounterWrite (t : Nat) (k : Fin 64) (val : Word) (s : State) : Host.Outcome State Fault Refusal :=
  act t s (fun s => chrCounterWrite s k.val val.toNat)

/-- TREC_POP (R416). -/
def execTrecPop (t : Nat) (s : State) : Host.Outcome State Fault Refusal :=
  act t s (fun s => trecPop s)

/-- INSTRUCTION_SAMPLE (R417). -/
def execInstructionSample (t : Nat) (c : Fin 4) (pc : BitVec 64) (latency : BitVec 16) (flags : BitVec 4) (secure :
    Bool) (retired active rises : Nat) (s : State) : Host.Outcome State Fault Refusal :=
  act t s (fun s => instructionSample s c.val pc.toNat latency.toNat flags.toNat secure retired active rises)

/-- SAMPLE_POP (R417). -/
def execSamplePop (t : Nat) (c : Fin 4) (s : State) : Host.Outcome State Fault Refusal :=
  act t s (fun s => samplePop s c.val)

end Sys2Proof.Machine
end

