-- ==== Sys2Proof/Machine/ContextStore.lean ====
section
/-! DEFINITION. The Context Store (chapter 11): the meaning of each command. -/

namespace Sys2Proof.Machine

/-- CTX_ENABLE (R19, R297). -/
def execCtxEnable (t : Nat) (s : State) : Host.Outcome State Fault Refusal :=
  act t s (fun s => ctxEnable s)

/-- CTX_DISABLE (R297). -/
def execCtxDisable (t : Nat) (s : State) : Host.Outcome State Fault Refusal :=
  act t s (fun s => ctxDisable s)

/-- CTX_SELFTEST_DONE (R297). -/
def execCtxSelftestDone (t : Nat) (badBank : Option (Fin 32)) (s : State) : Host.Outcome State Fault Refusal :=
  act t s (fun s => ctxSelftestDone s badBank)

/-- CONTEXT_READ (R287). -/
def execContextRead (t : Nat) (ctx : Fin 131072) (upset : Option (Fin 3)) (s : State) : Host.Outcome State Fault
    Refusal :=
  act t s (fun s => contextRead s ctx.val upset)

/-- CONTEXT_WRITE (R287). -/
def execContextWrite (t : Nat) (ctx : Fin 131072) (mask : BitVec 3) (s : State) : Host.Outcome State Fault Refusal :=
  act t s (fun s => contextWrite s ctx.val mask.toNat)

/-- RESTORE (R293). -/
def execRestore (t : Nat) (ctx : Fin 131072) (s : State) : Host.Outcome State Fault Refusal :=
  act t s (fun s => restore s ctx.val)

/-- INVALIDATE (R287). -/
def execInvalidate (t : Nat) (ctx : Fin 131072) (s : State) : Host.Outcome State Fault Refusal :=
  act t s (fun s => invalidate s ctx.val)

/-- RESERVATION_CONFIRM (R290). -/
def execReservationConfirm (t : Nat) (seq : Word) (s : State) : Host.Outcome State Fault Refusal :=
  act t s (fun s => reservationConfirm s seq.toNat)

/-- SWEEP_START (R291). -/
def execSweepStart (t : Nat) (s : State) : Host.Outcome State Fault Refusal :=
  act t s (fun s => sweepStart s)

/-- SWEEP_VISIT (R291). -/
def execSweepVisit (t : Nat) (ctx : Fin 131072) (s : State) : Host.Outcome State Fault Refusal :=
  act t s (fun s => sweepVisit s ctx.val)

/-- FLUSH (R292). -/
def execFlush (t : Nat) (s : State) : Host.Outcome State Fault Refusal :=
  act t s (fun s => flush s)

/-- FLUSH_COMPLETE (R292). -/
def execFlushComplete (t : Nat) (s : State) : Host.Outcome State Fault Refusal :=
  act t s (fun s => flushComplete s)

end Sys2Proof.Machine
end

