-- ==== Sys2Proof/Machine/Crown.lean ====
section
/-! DEFINITION. The Crown and firmware update (chapter 17): the meaning of each command. -/

namespace Sys2Proof.Machine

/-- DOWNLOAD (R395, R396). -/
def execDownload (t : Nat) (header : Option (List Byte)) (s : State) : Host.Outcome State Fault Refusal :=
  act t s (fun s => crnDownload s (header.getD []) header.isNone)

/-- BODY_COPIED (R397). -/
def execBodyCopied (t : Nat) (body : Option (List Byte)) (s : State) : Host.Outcome State Fault Refusal :=
  act t s (fun s => crnBodyCopied s (body.getD []) body.isNone)

/-- VERIFY_DONE (R397). -/
def execVerifyDone (t : Nat) (s : State) : Host.Outcome State Fault Refusal :=
  act t s (fun s => crnVerifyDone s)

/-- ABORT (R397). -/
def execAbort (t : Nat) (s : State) : Host.Outcome State Fault Refusal :=
  act t s (fun s => crnAbort s)

/-- ACTIVATE (R398, R399). -/
def execActivate (t : Nat) (s : State) : Host.Outcome State Fault Refusal :=
  act t s (fun s => crnActivate s)

/-- ACTIVATION_DONE (R399). -/
def execActivationDone (t : Nat) (ok : Bool) (s : State) : Host.Outcome State Fault Refusal :=
  act t s (fun s => crnActivationDone s ok)

/-- CONFIRM (R402). -/
def execConfirm (t : Nat) (comp : Fin 4) (s : State) : Host.Outcome State Fault Refusal :=
  act t s (fun s => crnConfirm s comp.val)

/-- BURN_SIGNER1 (R394). -/
def execBurnSigner1 (t : Nat) (s : State) : Host.Outcome State Fault Refusal :=
  act t s (fun s => burnSigner1 s)

/-- CROWN_BOOT (R405). -/
def execCrownBoot (t : Nat) (s : State) : Host.Outcome State Fault Refusal :=
  act t s (fun s => crownBoot s)

end Sys2Proof.Machine
end

