-- ==== Sys2Proof/Machine/Escapement.lean ====
section
/-! DEFINITION. The Escapement (chapter 09): the meaning of each command. -/

namespace Sys2Proof.Machine

/-- ESC_ENABLE (R19, R249). -/
def execEscEnable (t : Nat) (s : State) : Host.Outcome State Fault Refusal :=
  act t s (fun s => escEnable s)

/-- ESC_DISABLE (R249). -/
def execEscDisable (t : Nat) (s : State) : Host.Outcome State Fault Refusal :=
  act t s (fun s => escDisable s)

/-- SLOTFRAME_BOUNDARY (R229). -/
def execSlotframeBoundary (t : Nat) (s : State) : Host.Outcome State Fault Refusal :=
  act t s (fun s => slotframeBoundary s)

/-- TX_OCCURRENCE_DECISION (R230, R231, R234). -/
def execTxOccurrenceDecision (t : Nat) (k : Fin 512) (s : State) : Host.Outcome State Fault Refusal :=
  act t s (fun s => txOccurrence s k.val)

/-- RX_OCCURRENCE_OPEN (R233). -/
def execRxOccurrenceOpen (t : Nat) (k : Fin 512) (s : State) : Host.Outcome State Fault Refusal :=
  act t s (fun s => rxOccurrenceOpen s k.val)

/-- RX_OCCURRENCE_CLOSE (R233). -/
def execRxOccurrenceClose (t : Nat) (k : Fin 512) (s : State) : Host.Outcome State Fault Refusal :=
  act t s (fun s => rxOccurrenceClose s k.val)

/-- ASYNC_RELEASE (R239). -/
def execAsyncRelease (t : Nat) (turn : AsyncTurn) (s : State) : Host.Outcome State Fault Refusal :=
  act t s (fun s => asyncRelease s turn.chain.val turn.upset)

/-- WIRED_PORT_RELEASE (R237, R241). -/
def execWiredPortRelease (t : Nat) (p : Fin 4) (posted : List (Nat × List (Nat × Nat))) (s : State) : Host.Outcome
    State Fault Refusal :=
  act t s (fun s => wiredPortRelease s (4 + p.val) posted)

/-- SUB_READ (R243). -/
def execSubRead (t : Nat) (ctx : Fin 131072) (s : State) : Host.Outcome State Fault Refusal :=
  act t s (fun s => subRead s ctx.val)

/-- SUB_WRITE (R243, R285). -/
def execSubWrite (t : Nat) (ctx : Fin 131072) (s : State) : Host.Outcome State Fault Refusal :=
  act t s (fun s => subWrite s ctx.val)

/-- SUB_FLUSH (R236). -/
def execSubFlush (t : Nat) (ctx : Fin 131072) (s : State) : Host.Outcome State Fault Refusal :=
  act t s (fun s => subFlush s ctx.val)

/-- FUSEE_BIN_ADVANCE (R247). -/
def execFuseeBinAdvance (t : Nat) (r : Fin 16) (s : State) : Host.Outcome State Fault Refusal :=
  act t s (fun s => fuseeBinAdvance s r.val)

end Sys2Proof.Machine
end

