-- ==== Sys2Proof/Machine/Ethernet.lean ====
section
/-! DEFINITION. Ethernet (chapter 15): the meaning of each command. -/

namespace Sys2Proof.Machine

/-- A frame received (R363-R373); a wake frame ends STANDBY (R432). -/
def ethRxAll (s : State) (i ts : Nat) (frame : List Byte) : State :=
  let wakes := (ethOf s i).lock && ethState s i == 3 && isWakeFrame s i frame
  let s := ethRxFrame s i ts frame
  if wakes then standbyWake s i else s

/-- ETH_ENABLE (R362). -/
def execEthEnable (t : Nat) (i : Fin 2) (s : State) : Host.Outcome State Fault Refusal :=
  act t s (fun s => ethEnable s i.val)

/-- ETH_DISABLE (R374). -/
def execEthDisable (t : Nat) (i : Fin 2) (s : State) : Host.Outcome State Fault Refusal :=
  act t s (fun s => ethDisable s i.val)

/-- LINK_UP (R361, R362). -/
def execLinkUp (t : Nat) (i : Fin 2) (result : Fin 3) (pause : BitVec 2) (s : State) : Host.Outcome State Fault
    Refusal :=
  act t s (fun s => linkUp s i.val result.val pause.toNat)

/-- LINK_DOWN (R362). -/
def execLinkDown (t : Nat) (i : Fin 2) (receiving : Bool) (s : State) : Host.Outcome State Fault Refusal :=
  act t s (fun s => linkDown s i.val receiving)

/-- ETH_RX_FRAME (R363-R366, R368, R373), and the wake of STANDBY (R432). -/
def execEthRxFrame (t : Nat) (i : Fin 2) (ts : Nat) (frame : List Byte) (s : State) : Host.Outcome State Fault
    Refusal :=
  act t s (fun s => ethRxAll s i.val ts frame)

/-- FIFO_TO_POOL (R366). -/
def execFifoToPool (t : Nat) (i : Fin 2) (s : State) : Host.Outcome State Fault Refusal :=
  act t s (fun s => fifoToPool s i.val)

/-- PAUSE_EXPIRY (R368). -/
def execPauseExpiry (t : Nat) (i : Fin 2) (s : State) : Host.Outcome State Fault Refusal :=
  act t s (fun s => pauseExpiry s i.val)

/-- PAUSE_WATCHDOG (R369). -/
def execPauseWatchdog (t : Nat) (i : Fin 2) (s : State) : Host.Outcome State Fault Refusal :=
  act t s (fun s => pauseWatchdog s i.val)

/-- HOLDOFF_END (R369). -/
def execHoldoffEnd (t : Nat) (i : Fin 2) (s : State) : Host.Outcome State Fault Refusal :=
  act t s (fun s => holdoffEnd s i.val)

/-- PAUSE_SEND (R370). -/
def execPauseSend (t : Nat) (i : Fin 2) (s : State) : Host.Outcome State Fault Refusal :=
  act t s (fun s => pauseSend s i.val)

/-- ETH_TX_END (R64, R367, R371, R372). -/
def execEthTxEnd (t : Nat) (i : Fin 2) (ts : Nat) (s : State) : Host.Outcome State Fault Refusal :=
  act t s (fun s => ethTxEnd s i.val ts)

/-- STANDBY (R373). -/
def execStandby (t : Nat) (i : Fin 2) (on : Bool) (s : State) : Host.Outcome State Fault Refusal :=
  act t s (fun s => ethStandby s i.val on)

end Sys2Proof.Machine
end

