-- ==== Sys2Proof/Machine/Forwarding.lean ====
section
/-! DEFINITION. The Node Table and the Prefix Table (chapter 10): the meaning of each command. -/

namespace Sys2Proof.Machine

/-- FWD_ENABLE (R19, R278). -/
def execFwdEnable (t : Nat) (s : State) : Host.Outcome State Fault Refusal :=
  act t s (fun s => fwdEnable s)

/-- FWD_DISABLE (R278). -/
def execFwdDisable (t : Nat) (s : State) : Host.Outcome State Fault Refusal :=
  act t s (fun s => fwdDisable s)

/-- NT_LOOKUP (R258). -/
def execNtLookup (t : Nat) (kind : Fin 2) (upset : List Nat) (s : State) : Host.Outcome State Fault Refusal :=
  act t s (fun s => ntLookup s kind.val upset)

/-- NT_INSERT_PRIMARY (R256, R258). -/
def execNtInsertPrimary (t : Nat) (upset : List Nat) (s : State) : Host.Outcome State Fault Refusal :=
  act t s (fun s => ntInsertPrimary s upset)

/-- NT_DELETE (R258). -/
def execNtDelete (t : Nat) (kind : Fin 2) (upset : List Nat) (s : State) : Host.Outcome State Fault Refusal :=
  act t s (fun s => ntDelete s kind.val upset)

/-- NT_SET_PARENT (R258, R259). -/
def execNtSetParent (t : Nat) (upset : List Nat) (s : State) : Host.Outcome State Fault Refusal :=
  act t s (fun s => ntSetParent s upset)

/-- NT_INSERT_ALIAS (R258). -/
def execNtInsertAlias (t : Nat) (upset : List Nat) (s : State) : Host.Outcome State Fault Refusal :=
  act t s (fun s => ntInsertAlias s upset)

/-- NT_READ (R258). -/
def execNtRead (t : Nat) (upset : List Nat) (s : State) : Host.Outcome State Fault Refusal :=
  act t s (fun s => ntRead s upset)

/-- NT_REPAIR (R258). -/
def execNtRepair (t : Nat) (kind : Fin 2) (upset : List Nat) (s : State) : Host.Outcome State Fault Refusal :=
  act t s (fun s => ntRepair s kind.val upset)

/-- PT_INSERT (R261). -/
def execPtInsert (t : Nat) (place : PrefixLength) (s : State) : Host.Outcome State Fault Refusal :=
  act t s (fun s => ptInsert s place.plen.toNat place.upset)

/-- PT_DELETE (R261). -/
def execPtDelete (t : Nat) (place : PrefixEntry) (s : State) : Host.Outcome State Fault Refusal :=
  act t s (fun s => ptDelete s place.index.val place.upset)

/-- PT_READ (R261). -/
def execPtRead (t : Nat) (i : Fin 4096) (upset : Bool) (s : State) : Host.Outcome State Fault Refusal :=
  act t s (fun s => ptRead s i.val upset)

end Sys2Proof.Machine
end

