-- ==== Sys2Proof/Machine/HostRings.lean ====
section
/-! DEFINITION. Host rings, doorbells and events (chapter 13): the meaning of each command. -/

namespace Sys2Proof.Machine

/-- RING_ENABLE (R323). -/
def execRingEnable (t : Nat) (r : Fin 256) (s : State) : Host.Outcome State Fault Refusal :=
  act t s (fun s => ringEnable s r.val)

/-- RING_DISABLE (R323). -/
def execRingDisable (t : Nat) (r : Fin 256) (s : State) : Host.Outcome State Fault Refusal :=
  act t s (fun s => ringDisable s r.val)

/-- DOORBELL (R35, R326, R327, R341). -/
def execDoorbell (t : Nat) (off : Fin 4096) (cluster : Bool) (access : PageAccess) (w v : Word) (s : State) :
    Host.Outcome State Fault Refusal :=
  act t s (fun s => pageAccess s off.val cluster access w v)

/-- DESCRIPTOR_FETCH (R332). -/
def execDescriptorFetch (t : Nat) (r : Fin 256) (descs : List (List Byte)) (s : State) : Host.Outcome State Fault
    Refusal :=
  act t s (fun s => descriptorFetch s r.val descs)

/-- FRAME_ADMISSION (R26, R332, R333). -/
def execFrameAdmission (t : Nat) (r : Fin 256) (data : Option (List Byte)) (s : State) : Host.Outcome State Fault
    Refusal :=
  act t s (fun s => frameAdmission s r.val data)

/-- CONTROL_DESCRIPTOR (R338). -/
def execControlDescriptor (t : Nat) (r : Fin 256) (desc : List Byte) (reads : BusReads) (s : State) :
    Host.Outcome State Fault Refusal :=
  act t s (fun s => controlDescriptor s r.val desc reads)

/-- CONTROL_POLL_END (R338). -/
def execControlPollEnd (t : Nat) (r : Fin 256) (s : State) : Host.Outcome State Fault Refusal :=
  act t s (fun s => controlPollEnd s r.val)

/-- EVT_SWRAISE (R334). -/
def execEvtSwraise (t : Nat) (ev : Fin 256) (s : State) : Host.Outcome State Fault Refusal :=
  act t s (fun s => evtSwraise s ev.val)

/-- COALESCE_TIMEOUT (R339). -/
def execCoalesceTimeout (t : Nat) (v : Fin 64) (s : State) : Host.Outcome State Fault Refusal :=
  act t s (fun s => coalesceTimeout s v.val)

/-- VECTOR_UNMASK (R320, R340). -/
def execVectorUnmask (t : Nat) (access : MsixAccess) (s : State) : Host.Outcome State Fault Refusal :=
  act t s (fun s => vectorUnmask s access)

/-- FUNCTION_LEVEL_RESET (R321, R348). -/
def execFunctionLevelReset (t : Nat) (s : State) : Host.Outcome State Fault Refusal :=
  act t s (fun s => functionLevelReset s)

/-- PCIE_LINK_DOWN (R321, R348). -/
def execPcieLinkDown (t : Nat) (s : State) : Host.Outcome State Fault Refusal :=
  act t s (fun s => pcieLinkDown s)

/-- D3HOT_TO_D0 (R321, R348). -/
def execD3hotToD0 (t : Nat) (s : State) : Host.Outcome State Fault Refusal :=
  act t s (fun s => d3hotToD0 s)

/-- DMA_ERROR (R342). -/
def execDmaError (t : Nat) (r : Fin 256) (addr : BitVec 64) (s : State) : Host.Outcome State Fault Refusal :=
  act t s (fun s => dmaErrorRing s r.val addr.toNat)

end Sys2Proof.Machine
end

