-- ==== Sys2Proof/Machine/JewelStore.lean ====
section
/-! DEFINITION. The Jewel store (chapter 12): the meaning of each command. -/

namespace Sys2Proof.Machine

/-- JWL_ENABLE (R19, R318). -/
def execJwlEnable (t : Nat) (s : State) : Host.Outcome State Fault Refusal :=
  act t s (fun s => jwlEnable s)

/-- JWL_DISABLE (R318). -/
def execJwlDisable (t : Nat) (s : State) : Host.Outcome State Fault Refusal :=
  act t s (fun s => jwlDisable s)

/-- LC_READ (R303). -/
def execLcRead (t : Nat) (s : State) : Host.Outcome State Fault Refusal :=
  act t s (fun s => lcRead s)

/-- LOAD (R307). -/
def execLoad (t : Nat) (w : Fin 4) (slot : Fin 1024) (s : State) : Host.Outcome State Fault Refusal :=
  act t s (fun s => inWindow s w.val (fun s => jwlLoad s w.val slot.val))

/-- DERIVE (R308). -/
def execDerive (t : Nat) (w : Fin 4) (slot : Fin 1024) (s : State) : Host.Outcome State Fault Refusal :=
  act t s (fun s => inWindow s w.val (fun s => jwlDerive s w.val slot.val))

/-- KEY_INVALIDATE (R309). -/
def execKeyInvalidate (t : Nat) (w : Fin 4) (slot : Fin 1024) (s : State) : Host.Outcome State Fault Refusal :=
  act t s (fun s => inWindow s w.val (fun s => keyInvalidate s w.val slot.val))

/-- REVOCATION_SWEEP_END (R309). -/
def execRevocationSweepEnd (t : Nat) (w : Fin 4) (s : State) : Host.Outcome State Fault Refusal :=
  act t s (fun s => revocationSweepEnd s w.val)

/-- READ_ATTRIBUTES (R307). -/
def execReadAttributes (t : Nat) (w : Fin 4) (slot : Fin 1024) (s : State) : Host.Outcome State Fault Refusal :=
  act t s (fun s => inWindow s w.val (fun s => readAttributes s w.val slot.val))

/-- ATTEST (R317). -/
def execAttest (t : Nat) (w : Fin 4) (slot : Fin 1024) (s : State) : Host.Outcome State Fault Refusal :=
  act t s (fun s => inWindow s w.val (fun s => jwlAttest s w.val slot.val))

/-- HASH (R307). -/
def execHash (t : Nat) (w : Fin 4) (slot : Fin 1024) (mem : Option (List Byte)) (s : State) : Host.Outcome State
    Fault Refusal :=
  act t s (fun s => inWindow s w.val (fun s => jwlHash s w.val slot.val (mem.getD []) mem.isNone))

/-- HMAC (R306, R307). -/
def execHmac (t : Nat) (w : Fin 4) (slot : Fin 1024) (mem : Option (List Byte)) (s : State) : Host.Outcome State
    Fault Refusal :=
  act t s (fun s => inWindow s w.val (fun s => jwlHmac s w.val slot.val (mem.getD []) mem.isNone))

/-- VERIFY (R307). -/
def execVerify (t : Nat) (w : Fin 4) (slot : Fin 1024) (s : State) : Host.Outcome State Fault Refusal :=
  act t s (fun s => inWindow s w.val (fun s => jwlVerify s w.val slot.val))

/-- EXTEND (R316). -/
def execExtend (t : Nat) (w : Fin 4) (m : Fin 1024) (s : State) : Host.Outcome State Fault Refusal :=
  act t s (fun s => inWindow s w.val (fun s => jwlExtend s w.val m.val))

/-- WINDOW_JOB_END (R307). -/
def execWindowJobEnd (t : Nat) (w : Fin 4) (s : State) : Host.Outcome State Fault Refusal :=
  act t s (fun s => windowJobEnd s w.val)

/-- LIFE_CYCLE_CHANGE (R304). -/
def execLifeCycleChange (t : Nat) (w : Fin 4) (target : BitVec 3) (s : State) : Host.Outcome State Fault Refusal :=
  act t s (fun s => lifeCycleChange s (if w.val = 3 ∧ s.on Reg.CRN_STATUS_handed_over then 2 else w.val) target.toNat)

/-- LIFE_CYCLE_CHANGE_DONE (R304). -/
def execLifeCycleChangeDone (t : Nat) (s : State) : Host.Outcome State Fault Refusal :=
  act t s (fun s => lifeCycleChangeDone s)

/-- CACHE_FLUSH (R311). -/
def execCacheFlush (t : Nat) (s : State) : Host.Outcome State Fault Refusal :=
  act t s (fun s => cacheFlush s)

end Sys2Proof.Machine
end

