-- ==== Sys2Proof/Machine/Lanes.lean ====
section
/-! DEFINITION. The channeliser and its lanes (chapter 05): the meaning of each command. -/

namespace Sys2Proof.Machine

/-- LANE_COMMIT (R128, R129). -/
def execLaneCommit (t : Nat) (n : Fin 128) (freq : BitVec 22) (s : State) : Host.Outcome State Fault Refusal :=
  act t s (fun s => laneCommit s n.val freq.toNat)

/-- LANE_ENABLE (R19, R130). -/
def execLaneEnable (t : Nat) (n : Fin 128) (s : State) : Host.Outcome State Fault Refusal :=
  act t s (fun s => laneEnable s n.val)

/-- LANE_DISABLE (R130). -/
def execLaneDisable (t : Nat) (n : Fin 128) (s : State) : Host.Outcome State Fault Refusal :=
  act t s (fun s => laneDisable s n.val)

/-- SELFTEST (R143). -/
def execSelftest (t : Nat) (n : Fin 128) (s : State) : Host.Outcome State Fault Refusal :=
  act t s (fun s => selftest s n.val)

/-- PERIODIC_SELFTEST (R143). -/
def execPeriodicSelftest (t : Nat) (n : Fin 128) (s : State) : Host.Outcome State Fault Refusal :=
  act t s (fun s => periodicSelftest s n.val)

/-- SELFTEST_COMPLETE (R143, R147). -/
def execSelftestComplete (t : Nat) (n : Fin 128) (decoded : Bool) (rssiErr : Int) (s : State) : Host.Outcome State
    Fault Refusal :=
  act t s (fun s => selftestComplete s n.val decoded rssiErr)

/-- UNRETIRE (R147). -/
def execUnretire (t : Nat) (n : Fin 128) (s : State) : Host.Outcome State Fault Refusal :=
  act t s (fun s => unretire s n.val)

/-- SWITCH_DONE (R135). -/
def execSwitchDone (t : Nat) (n : Fin 128) (s : State) : Host.Outcome State Fault Refusal :=
  act t s (fun s => switchDone s n.val)

/-- PREAMBLE_DETECTED (R132, R135). -/
def execPreambleDetected (t : Nat) (n : Fin 128) (seen : PreambleSeen) (gain : Nat) (s : State) :
    Host.Outcome State Fault Refusal :=
  act t s (fun s => preambleDetected s n.val seen.level seen.margin gain)

/-- SECOND_DETECTION (R137, R138). -/
def execSecondDetection (t : Nat) (n : Fin 128) (seen : PreambleSeen) (gain timingMilli freqHz : Nat) (s : State) :
    Host.Outcome State Fault Refusal :=
  act t s (fun s => secondDetection s n.val seen.level seen.margin gain timingMilli freqHz)

/-- SFD_FOUND (R60, R135, R140). -/
def execSfdFound (t : Nat) (n : Fin 128) (seen : SfdSeen) (s : State) : Host.Outcome State Fault Refusal :=
  act t s (fun s => sfdFound s n.val seen.sfd.toNat seen.rssi seen.ltf)

/-- SFD_TIMEOUT (R135). -/
def execSfdTimeout (t : Nat) (n : Fin 128) (s : State) : Host.Outcome State Fault Refusal :=
  act t s (fun s => sfdTimeout s n.val)

/-- PHR_RECEIVED (R135, R168). -/
def execPhrReceived (t : Nat) (n : Fin 128) (seen : HeaderSeen) (s : State) : Host.Outcome State Fault Refusal :=
  act t s (fun s => phrReceived s n.val seen)

/-- LANE_FRAME_END (R134, R135, R142). -/
def execLaneFrameEnd (t : Nat) (n : Fin 128) (psdu : List Byte) (snr10 : Int) (seen : SamplesSeen) (s : State) :
    Host.Outcome State Fault Refusal :=
  act t s (fun s => laneFrameEnd s n.val psdu snr10 seen)

/-- PARITY_ERROR (R144). -/
def execParityError (t : Nat) (n : Fin 128) (s : State) : Host.Outcome State Fault Refusal :=
  act t s (fun s => laneParity s n.val)

/-- STORM_WINDOW_END (R145). -/
def execStormWindowEnd (t : Nat) (n : Fin 128) (s : State) : Host.Outcome State Fault Refusal :=
  act t s (fun s => stormWindowEnd s n.val)

/-- ED_REFRESH (R142, R146). -/
def execEdRefresh (t : Nat) (n : Fin 128) (ed : Int) (s : State) : Host.Outcome State Fault Refusal :=
  act t s (fun s => edRefresh s n.val ed)

/-- CHANNEL_RETIRE (R148). -/
def execChannelRetire (t : Nat) (k : Fin 32) (s : State) : Host.Outcome State Fault Refusal :=
  act t s (fun s => channelRetire s k.val)

end Sys2Proof.Machine
end

