-- ==== Sys2Proof/Machine/Mailboxes.lean ====
section
/-! DEFINITION. Mailboxes and semaphores (chapter 14): the meaning of each command. -/

namespace Sys2Proof.Machine

/-- CHANNEL_CFG (R349, R350). -/
def execChannelCfg (t : Nat) (m : Master) (n : Fin 32) (val : Word) (s : State) : Host.Outcome State Fault Refusal :=
  act t s (fun s => channelCfg s (masterNow s m) n.val val.toNat)

/-- POST (R351, R352, R355). -/
def execPost (t : Nat) (m : Master) (n : Fin 32) (len : BitVec 4) (s : State) : Host.Outcome State Fault Refusal :=
  act t s (fun s => post s (masterNow s m) n.val len.toNat)

/-- MBX_POP (R353, R355). -/
def execMbxPop (t : Nat) (m : Master) (n : Fin 32) (s : State) : Host.Outcome State Fault Refusal :=
  act t s (fun s => mbxPop s (masterNow s m) n.val)

/-- SEM_TAKE (R356). -/
def execSemTake (t : Nat) (m : Master) (k : Fin 64) (s : State) : Host.Outcome State Fault Refusal :=
  act t s (fun s => semTake s (masterNow s m) k.val)

/-- SEM_RELEASE (R357). -/
def execSemRelease (t : Nat) (m : Master) (k : Fin 64) (val : Word) (s : State) : Host.Outcome State Fault Refusal :=
  act t s (fun s => semRelease s (masterNow s m) k.val val.toNat)

/-- SEM_FORCE (R357). -/
def execSemForce (t : Nat) (m : Master) (k : Fin 64) (s : State) : Host.Outcome State Fault Refusal :=
  act t s (fun s => semForce s (masterNow s m) k.val)

/-- CLUSTER_LINE_UNMASK (R358). -/
def execClusterLineUnmask (t : Nat) (v : Fin 64) (s : State) : Host.Outcome State Fault Refusal :=
  act t s (fun s => clusterLineUnmask s v.val)

end Sys2Proof.Machine
end

