-- ==== Sys2Proof/Machine/Modem.lean ====
section
/-! DEFINITION. The modem (chapter 06): the meaning of each command. -/

namespace Sys2Proof.Machine

/-- PROFILE_LOAD (R153). -/
def execProfileLoad (t : Nat) (k : Fin 32) (s : State) : Host.Outcome State Fault Refusal :=
  act t s (fun s => profileLoad s k.val)

/-- PROFILE_UNLOAD (R153). -/
def execProfileUnload (t : Nat) (k : Fin 32) (s : State) : Host.Outcome State Fault Refusal :=
  act t s (fun s => profileUnload s k.val)

/-- AIRTIME_QUERY (R171, R172). -/
def execAirtimeQuery (t : Nat) (profile : Fin 32) (psduLen : BitVec 11) (s : State) : Host.Outcome State Fault
    Refusal :=
  act t s (fun s => airtimeQuery s profile.val psduLen.toNat)

end Sys2Proof.Machine
end

