-- ==== Sys2Proof/Machine/Pipeline.lean ====
section
/-! DEFINITION. The frame pipeline (chapters 01, 07, 10, 12): the meaning of each command. -/

namespace Sys2Proof.Machine

/-- The ingress point of a frame that waits (R24). -/
def ingressOf : Port → Ingress
  | .eth0 => .eth 0
  | .eth1 => .eth 1
  | .host => .host
  | .twin => .twin
  | .cluster => .cluster

/-- FRAME_RECORD (R20 step 3, R25, R175). -/
def execFrameRecord (t : Nat) (n : Fin 128) (upset : List Nat) (s : State) : Host.Outcome State Fault Refusal :=
  act t s (fun s => frameRecord s n.val upset)

/-- ACK_ARBITER_ROUND (R178-R181). -/
def execAckArbiterRound (t : Nat) (s : State) : Host.Outcome State Fault Refusal :=
  act t s (fun s => ackArbiterRound s)

/-- DUPLICATE_TEST (R20 steps 5 and 6, R31, R184). -/
def execDuplicateTest (t : Nat) (tag : Fin 512) (upset : Option (Fin 3)) (s : State) : Host.Outcome State Fault
    Refusal :=
  act t s (fun s => duplicateTest s tag.val upset)

/-- KEY_DERIVATION (R310, R311). -/
def execKeyDerivation (t : Nat) (tag : Fin 512) (s : State) : Host.Outcome State Fault Refusal :=
  act t s (fun s => keyDerivation s tag.val)

/-- UPLINK_DECRYPT (R20 steps 7 and 8, R313). -/
def execUplinkDecrypt (t : Nat) (tag : Fin 512) (ptUpset ntUpset : List Nat) (reasmUpset : Bool) (s : State) :
    Host.Outcome State Fault Refusal :=
  act t s (fun s => uplinkDecrypt s tag.val ptUpset ntUpset reasmUpset)

/-- REASSEMBLY_TIMEOUT (R273). -/
def execReassemblyTimeout (t : Nat) (i : Fin 4096) (s : State) : Host.Outcome State Fault Refusal :=
  act t s (fun s => reassemblyTimeout s i.val)

/-- REORDER_RELEASE (R27-R29). -/
def execReorderRelease (t : Nat) (tag : Fin 512) (s : State) : Host.Outcome State Fault Refusal :=
  act t s (fun s => reorderRelease s tag.val)

/-- ESC_ENQUEUE (R20 step 10, R22 step 6, R236). -/
def execEscEnqueue (t : Nat) (tag : Fin 512) (s : State) : Host.Outcome State Fault Refusal :=
  act t s (fun s => escEnqueue s tag.val)

/-- TAG_ADMISSION (R24, R26). -/
def execTagAdmission (t : Nat) (port : Port) (upset : List Nat) (s : State) : Host.Outcome State Fault Refusal :=
  act t s (fun s => tagAdmission s (ingressOf port) upset)

/-- DOWNLINK_INGRESS (R22 step 1, R260, R262). -/
def execDownlinkIngress (t : Nat) (port : Port) (ptUpset ntUpset : List Nat) (s : State) : Host.Outcome State Fault
    Refusal :=
  act t s (fun s => downlinkIngress s (ingressOf port) ptUpset ntUpset)

/-- ROUTE_BUILD (R22 step 3, R267-R272). -/
def execRouteBuild (t : Nat) (tag : Fin 512) (reads : RouteReads) (s : State) : Host.Outcome State Fault Refusal :=
  act t s (fun s => routeBuild s tag.val reads.upset reads.line)

/-- DOWNLINK_SECURE (R22 step 4, R288, R315). -/
def execDownlinkSecure (t : Nat) (tag : Fin 512) (upset : Option (Fin 3)) (s : State) : Host.Outcome State Fault
    Refusal :=
  act t s (fun s => downlinkSecure s tag.val upset)

end Sys2Proof.Machine
end

