-- ==== Sys2Proof/Machine/Power.lean ====
section
/-! DEFINITION. Power, reset, start-up and faults (chapter 19): the meaning of each command. -/

namespace Sys2Proof.Machine

/-- PORN_RISE (R424, R427). -/
def execPornRise (t : Nat) (boot region twin : BitVec 2) (host gridf refclk : Bool) (s : State) : Host.Outcome State
    Fault Refusal :=
  actReset t s (fun s => pornRise s ⟨boot, region, twin, host, gridf, refclk⟩)

/-- PORN_LOW (R424). -/
def execPornLow (t : Nat) (s : State) : Host.Outcome State Fault Refusal :=
  actReset t s (fun s => pornLow s)

/-- CHIP_RESET_RELEASE (R42, R425, R428). -/
def execChipResetRelease (t : Nat) (s : State) : Host.Outcome State Fault Refusal :=
  actReset t s (fun s => chipResetRelease s)

/-- VMON_WARN (R423). -/
def execVmonWarn (t : Nat) (s : State) : Host.Outcome State Fault Refusal :=
  actReset t s (fun s => vmonWarn s)

/-- VMON_WARN_CLEAR (R423). -/
def execVmonWarnClear (t : Nat) (s : State) : Host.Outcome State Fault Refusal :=
  actReset t s (fun s => vmonWarnClear s)

/-- VMON_RESET (R423, R424). -/
def execVmonReset (t : Nat) (s : State) : Host.Outcome State Fault Refusal :=
  actReset t s (fun s => chipReset s causeVmon)

/-- RAIL_FAIL (R422, R424). -/
def execRailFail (t : Nat) (s : State) : Host.Outcome State Fault Refusal :=
  actReset t s (fun s => chipReset s causeRail)

/-- THERMAL_TRIP (R424). -/
def execThermalTrip (t : Nat) (rf dig : Int) (s : State) : Host.Outcome State Fault Refusal :=
  actReset t s (fun s => thermalTrip s rf dig)

/-- THERMAL_WARN (R437). -/
def execThermalWarn (t : Nat) (rf dig : Int) (s : State) : Host.Outcome State Fault Refusal :=
  actReset t s (fun s => thermalWarn s rf dig)

/-- D2D_LOSS (R424). -/
def execD2dLoss (t : Nat) (s : State) : Host.Outcome State Fault Refusal :=
  actReset t s (fun s => chipReset s causeD2d)

/-- CHIP_RESET_COMMAND (R424). -/
def execChipResetCommand (t : Nat) (key : BitVec 16) (s : State) : Host.Outcome State Fault Refusal :=
  actReset t s (fun s => chipResetCommand s key.toNat)

/-- CORE_RESET_COMMAND (R424, R426). -/
def execCoreResetCommand (t : Nat) (key : BitVec 16) (mask : BitVec 4) (s : State) : Host.Outcome State Fault Refusal
    :=
  act t s (fun s => coreResetCommand s key.toNat mask.toNat)

/-- WATCHDOG_EXPIRY (R424, R426). -/
def execWatchdogExpiry (t : Nat) (c : Fin 4) (s : State) : Host.Outcome State Fault Refusal :=
  actReset t s (fun s => watchdogExpiry s c.val)

/-- CORE_DOMAIN_RELEASE (R426). -/
def execCoreDomainRelease (t : Nat) (c : Fin 4) (s : State) : Host.Outcome State Fault Refusal :=
  act t s (fun s => coreDomainRelease s c.val)

/-- KICK (R426). -/
def execKick (t : Nat) (c : Fin 4) (s : State) : Host.Outcome State Fault Refusal :=
  act t s (fun s => kick s c.val)

/-- WATCHDOG_CONFIG (R426). -/
def execWatchdogConfig (t : Nat) (c : Fin 4) (en action : Bool) (timeout : BitVec 16) (s : State) : Host.Outcome
    State Fault Refusal :=
  act t s (fun s => watchdogConfig s c.val en action timeout.toNat)

/-- CORE_POWER (R426). -/
def execCorePower (t : Nat) (mask : BitVec 4) (s : State) : Host.Outcome State Fault Refusal :=
  act t s (fun s => corePower s mask.toNat)

/-- POWER_STATE_REQ (R431). -/
def execPowerStateReq (t : Nat) (target : BitVec 2) (s : State) : Host.Outcome State Fault Refusal :=
  act t s (fun s => powerStateReq s target.toNat)

/-- POWER_TRANSITION_DONE (R431). -/
def execPowerTransitionDone (t : Nat) (s : State) : Host.Outcome State Fault Refusal :=
  act t s (fun s => powerTransitionDone s)

/-- STANDBY_WAKE (R432). -/
def execStandbyWake (t : Nat) (src : Fin 7) (s : State) : Host.Outcome State Fault Refusal :=
  act t s (fun s => standbyWake s src.val)

/-- PERMANENT_LIST_CLEAR (R435). -/
def execPermanentListClear (t : Nat) (s : State) : Host.Outcome State Fault Refusal :=
  act t s (fun s => permanentListClear s)

/-- D2D_CRC_ERROR (R437). -/
def execD2dCrcError (t : Nat) (s : State) : Host.Outcome State Fault Refusal :=
  act t s (fun s => d2dCrcError s)

/-- PCIE_LINK_UP (R348). -/
def execPcieLinkUp (t : Nat) (speed width : BitVec 2) (s : State) : Host.Outcome State Fault Refusal :=
  act t s (fun s => pcieLinkUp s speed.toNat width.toNat)

/-- D3HOT_ENTRY (R348). -/
def execD3hotEntry (t : Nat) (s : State) : Host.Outcome State Fault Refusal :=
  act t s (fun s => d3hotEntry s)

/-- FLR_COMPLETE (R348). -/
def execFlrComplete (t : Nat) (s : State) : Host.Outcome State Fault Refusal :=
  act t s (fun s => flrComplete s)

/-- PERST_ASSERTION (R343, R424). -/
def execPerstAssertion (t : Nat) (s : State) : Host.Outcome State Fault Refusal :=
  act t s (fun s => perstAssertion s)

end Sys2Proof.Machine
end

