-- ==== Sys2Proof/Machine/Receiver.lean ====
section
/-! DEFINITION. The receivers (chapter 03): the meaning of each command. -/

namespace Sys2Proof.Machine

/-- RX_STARTCAL (R87). -/
def execRxStartcal (t : Nat) (b : Fin 2) (s : State) : Host.Outcome State Fault Refusal :=
  act t s (fun s => rxStartcal s b.val)

/-- RX_STARTCAL_DONE (R83, R87). -/
def execRxStartcalDone (t : Nat) (b : Fin 2) (ir : List Nat) (steps : List Int) (s : State) : Host.Outcome State
    Fault Refusal :=
  act t s (fun s => rxStartcalDone s b.val ir steps)

/-- RX_ENABLE (R19, R87). -/
def execRxEnable (t : Nat) (b : Fin 2) (s : State) : Host.Outcome State Fault Refusal :=
  act t s (fun s => rxEnable s b.val)

/-- RX_DISABLE (R131). -/
def execRxDisable (t : Nat) (b : Fin 2) (s : State) : Host.Outcome State Fault Refusal :=
  act t s (fun s => rxDisable s b.val)

/-- GAIN_EPOCH_END (R76, R80, R81). -/
def execGainEpochEnd (t : Nat) (b : Fin 2) (p : Option Int) (s : State) : Host.Outcome State Fault Refusal :=
  act t s (fun s => gainEpochEnd s b.val p)

/-- ADC_OVERLOAD (R77). -/
def execAdcOverload (t : Nat) (b : Fin 2) (clipped : Nat) (fresh : Bool) (s : State) : Host.Outcome State Fault
    Refusal :=
  act t s (fun s => adcOverload s b.val clipped fresh)

/-- UNSCHEDULED_STEP (R77, R78). -/
def execUnscheduledStep (t : Nat) (b : Fin 2) (s : State) : Host.Outcome State Fault Refusal :=
  act t s (fun s => unscheduledStep s b.val)

/-- CAL_REQ (R86). -/
def execCalReq (t : Nat) (b : Fin 2) (s : State) : Host.Outcome State Fault Refusal :=
  act t s (fun s => calReq s b.val)

/-- COMPAT_CAL_START (R86). -/
def execCompatCalStart (t : Nat) (b : Fin 2) (s : State) : Host.Outcome State Fault Refusal :=
  act t s (fun s => compatCalStart s b.val)

/-- BLANK_END (R86). -/
def execBlankEnd (t : Nat) (b : Fin 2) (ir : List Nat) (s : State) : Host.Outcome State Fault Refusal :=
  act t s (fun s => blankEnd s b.val ir)

/-- IR_UPDATE (R83, R85). -/
def execIrUpdate (t : Nat) (b : Fin 2) (ir : List (Option Nat)) (s : State) : Host.Outcome State Fault Refusal :=
  act t s (fun s => irUpdate s b.val ir)

/-- STALE_SEGMENT_TONE (R84). -/
def execStaleSegmentTone (t : Nat) (b : Fin 2) (pair : Fin 16) (ir : Nat) (s : State) : Host.Outcome State Fault
    Refusal :=
  act t s (fun s => staleSegmentTone s b.val pair.val ir)

/-- FILTER_RETUNE (R83). -/
def execFilterRetune (t : Nat) (b : Fin 2) (temp : Int) (s : State) : Host.Outcome State Fault Refusal :=
  act t s (fun s => filterRetune s b.val temp)

end Sys2Proof.Machine
end

