-- ==== Sys2Proof/Machine/CoreBus.lean ====
section
/-! DEFINITION. The core bus (R346): accesses of the cores by core physical address. -/

namespace Sys2Proof.Machine

/-- Octets of core SRAM or LPDDR4X written at a core physical address. -/
def ramWrite (s : State) (a : Nat) (l : List Byte) : State :=
  { s with hif := { s.hif with mem := cellsWrite s.hif.mem a l }, resp := .ok }

/-- The value of a read of the core bus, least significant octet first. -/
def coreValue (s : State) (l : List Byte) : State := { s with resp := .value (BitVec.ofNat 32 (ofLe l)) }

/-- An octet of the flash read window (R391): the slots as programmed, erased settings areas, and what the flash was
delivered with. -/
def flashOctet (s : State) (o : Nat) : Byte :=
  let area := fun (a : Nat) => decide (settingsAt a ≤ o ∧ o < settingsAt a + 0x20000)
  let slot := fun (c : Nat) => decide (slotAt c ≤ o ∧ o < slotAt c + slotSize c) && (tabGet s.crn.images c).isSome
  match [0, 1].find? (fun a => area a && s.crn.erased.contains a), [1, 2, 3].find? slot with
  | some _, _ => 0xFF
  | none, some c => let i := crnImage s c
    ((i.header ++ i.body)[o - slotAt c]?).getD 0xFF
  | none, none => Config.flashByte o

/-- A write by a core at a core physical address of `n` octets, 1 to 4: registers and doorbells take aligned words only (R5,
R35); the ROM is read-only, and the flash has a read window only, so a write there changes nothing (log 323). -/
def coreWrite (s : State) (m : Master) (a n : Nat) (l : List Byte) (reads : BusReads) : State :=
  let word := decide (n = 4 ∧ a % 4 = 0)
  match coreReach s a with
  | .bar0 o => if word then busWrite s m o (ofLe l) reads else { s with resp := .unsupportedRequest }
  | .doorbells o => if word then pageAccess s o true .write32 (BitVec.ofNat 32 (ofLe l)) 0 else { s with resp := .ok }
  | .sram _ => ramWrite s a (l.take n)
  | .dram _ => ramWrite s a (l.take n)
  | .rom _ => { s with resp := .ok }
  | .flash _ => { s with resp := .ok }
  | .busError => { s with resp := .busError }

/-- A read by a core of `n` octets at a core physical address. -/
def coreRead (s : State) (m : Master) (a n : Nat) : State :=
  let word := decide (n = 4 ∧ a % 4 = 0)
  let octets := fun (f : Nat → Byte) => (List.range n).map f
  match coreReach s a with
  | .bar0 o => if word then busRead s m o else { s with resp := .unsupportedRequest }
  | .doorbells o => if word then pageAccess s o true .read32 0 0 else coreValue s []
  | .sram _ => coreValue s (octets (fun i => cellRead s.hif.mem (a + i)))
  | .dram _ => coreValue s (octets (fun i => cellRead s.hif.mem (a + i)))
  | .rom o => coreValue s (octets (fun i => Config.romByte (o + i)))
  | .flash o => coreValue s (octets (fun i => flashOctet s (o + i)))
  | .busError => { s with resp := .busError }

/-- REGISTER_WRITE: at an offset of BAR0, or by a master of the cluster at a core physical address (R36, R346). -/
def registerWrite (s : State) (m : Master) (off val : Nat) (reads : BusReads) : State :=
  match m, reads.core with
  | .host, _ => busWrite s m off val reads
  | _, none => busWrite s m off val reads
  | _, some a => coreWrite s m a 4 (leOctets 4 val) reads

/-- An access that is no aligned word of BAR0 (R5), or one on the core bus, which the host has no part in (R346). -/
def narrowAccess (s : State) (m : Master) (off n : Nat) (x : NarrowAccess) : State :=
  match m, x with
  | _, .bar0 _ => unsupported s off n
  | .host, .core _ _ => unsupported s off n
  | _, .core a none => coreRead s m a n
  | _, .core a (some l) => coreWrite s m a n (octetsAt l 0 n) {}

end Sys2Proof.Machine
end

