-- ==== Sys2Proof/Machine/Registers.lean ====
section
/-! DEFINITION. Registers, claims and accesses to BAR0 (chapters 00, 01, 19): the meaning of each command. -/

namespace Sys2Proof.Machine

/-- REGISTER_WRITE (R5-R9, R34): fields and actions of the register at `off`; the completion is `resp`. -/
def execRegisterWrite (t : Nat) (m : Master) (off : Nat) (val : Word) (reads : BusReads) (s : State) :
    Host.Outcome State Fault Refusal :=
  act t s (fun s => registerWrite s m off val.toNat reads)

/-- UNSUPPORTED_ACCESS (R5, R346): an unsupported-request response, and no register changes; or an access on the core bus. -/
def execUnsupportedAccess (t : Nat) (m : Master) (off octets : Nat) (access : NarrowAccess) (s : State) : Host.Outcome
    State Fault Refusal :=
  act t s (fun s => narrowAccess s m off octets access)

/-- CLAIM (R38, R463): op 1 of GLB_CLAIM_CMD. -/
def execClaim (t : Nat) (resource : BitVec 6) (owner : BitVec 8) (s : State) : Host.Outcome State Fault Refusal :=
  act t s (fun s => claimCommand s 1 resource.toNat owner.toNat)

/-- RELEASE (R40, R463): op 2 of GLB_CLAIM_CMD. -/
def execRelease (t : Nat) (resource : BitVec 6) (owner : BitVec 8) (s : State) : Host.Outcome State Fault Refusal :=
  act t s (fun s => claimCommand s 2 resource.toNat owner.toNat)

/-- QUERY (R463): op 3 of GLB_CLAIM_CMD. -/
def execQuery (t : Nat) (resource : BitVec 6) (owner : BitVec 8) (s : State) : Host.Outcome State Fault Refusal :=
  act t s (fun s => claimCommand s 3 resource.toNat owner.toNat)

end Sys2Proof.Machine
end

