-- ==== Sys2Proof/Machine/Sleepy.lean ====
section
/-! DEFINITION. Sleepy nodes (chapter 08): the meaning of each command. -/

namespace Sys2Proof.Machine

/-- SLP_ENABLE (R19, R69, R226). -/
def execSlpEnable (t : Nat) (s : State) : Host.Outcome State Fault Refusal :=
  act t s (fun s => slpEnable s)

/-- SLP_DISABLE (R226). -/
def execSlpDisable (t : Nat) (s : State) : Host.Outcome State Fault Refusal :=
  act t s (fun s => slpDisable s)

/-- WINDOW_HANDOVER (R215-R219). -/
def execWindowHandover (t : Nat) (ctx : Fin 131072) (s : State) : Host.Outcome State Fault Refusal :=
  act t s (fun s => windowHandover s ctx.val)

/-- NODE_QUERY (R210). -/
def execNodeQuery (t : Nat) (ctx : Fin 131072) (s : State) : Host.Outcome State Fault Refusal :=
  act t s (fun s => nodeQuery s ctx.val)

end Sys2Proof.Machine
end

