-- ==== Sys2Proof/Machine/Transmit.lean ====
section
/-! DEFINITION. Transmit chains and coexistence (chapter 03): the meaning of each command. -/

namespace Sys2Proof.Machine

/-- CHAIN_STARTCAL (R90). -/
def execChainStartcal (t : Nat) (n : Fin 4) (s : State) : Host.Outcome State Fault Refusal :=
  act t s (fun s => txcDrive (chainStartcal s n.val) n.val)

/-- CHAIN_STARTCAL_DONE (R90). -/
def execChainStartcalDone (t : Nat) (n : Fin 4) (s : State) : Host.Outcome State Fault Refusal :=
  act t s (fun s => chainStartcalDone s n.val)

/-- CHAIN_ENABLE (R19, R90). -/
def execChainEnable (t : Nat) (n : Fin 4) (s : State) : Host.Outcome State Fault Refusal :=
  act t s (fun s => txcDrive (chainEnable s n.val) n.val)

/-- CHAIN_DISABLE (R89, R90). -/
def execChainDisable (t : Nat) (n : Fin 4) (s : State) : Host.Outcome State Fault Refusal :=
  act t s (fun s => txcDrive (chainDisable s n.val) n.val)

/-- PARK (R90). -/
def execPark (t : Nat) (n : Fin 4) (s : State) : Host.Outcome State Fault Refusal :=
  act t s (fun s => park s n.val)

/-- TX_COMMAND (R88, R89). -/
def execTxCommand (t : Nat) (n : Fin 4) (cmd : TxCmd) (s : State) : Host.Outcome State Fault Refusal :=
  act t s (fun s => txIssue s n.val cmd)

/-- COMMAND_WITHDRAW (R89). -/
def execCommandWithdraw (t : Nat) (n : Fin 4) (id : Nat) (s : State) : Host.Outcome State Fault Refusal :=
  act t s (fun s => commandWithdraw s n.val id)

/-- TURNAROUND_START (R88, R91, R93, R94, R100-R102); the answer to a beacon request takes its angle (R192). -/
def execTurnaroundStart (t : Nat) (n : Fin 4) (prio : Bool) (s : State) : Host.Outcome State Fault Refusal :=
  act t s (fun s => ebrAngle (turnaroundStart s n.val prio) n.val)

/-- SYNTH_LOCK (R90). -/
def execSynthLock (t : Nat) (n : Fin 4) (s : State) : Host.Outcome State Fault Refusal :=
  act t s (fun s => synthLock s n.val)

/-- LOCK_POINT (R91). -/
def execLockPoint (t : Nat) (n : Fin 4) (s : State) : Host.Outcome State Fault Refusal :=
  act t s (fun s => lockPoint s n.val)

/-- TRANSMIT_STEP (R109-R111, R116). -/
def execTransmitStep (t : Nat) (n : Fin 4) (s : State) : Host.Outcome State Fault Refusal :=
  act t s (fun s => transmitStep s n.val)

/-- FIRST_SYMBOL (R60, R90, R119). -/
def execFirstSymbol (t : Nat) (n : Fin 4) (s : State) : Host.Outcome State Fault Refusal :=
  act t s (fun s => firstSymbol s n.val)

/-- LAST_SYMBOL (R90). -/
def execLastSymbol (t : Nat) (n : Fin 4) (s : State) : Host.Outcome State Fault Refusal :=
  act t s (fun s => lastSymbolTx s n.val)

/-- RAMPDN_COMPLETE (R90, R96, R109, R113-R115). -/
def execRampdnComplete (t : Nat) (n : Fin 4) (meas : TxMeas) (s : State) : Host.Outcome State Fault Refusal :=
  act t s (fun s => rampdnTx s n.val meas)

/-- CACHE_FILL (R92). -/
def execCacheFill (t : Nat) (n : Fin 4) (slot : Fin 256) (s : State) : Host.Outcome State Fault Refusal :=
  act t s (fun s => cacheFill s n.val slot.val)

/-- CACHE_EVICT (R92). -/
def execCacheEvict (t : Nat) (n : Fin 4) (slot : Fin 256) (s : State) : Host.Outcome State Fault Refusal :=
  act t s (fun s => cacheEvict s n.val slot.val)

/-- CACHE_READ (R92). -/
def execCacheRead (t : Nat) (n : Fin 4) (slot : Fin 256) (s : State) : Host.Outcome State Fault Refusal :=
  act t s (fun s => cacheRead s n.val slot.val)

/-- ONCAL_START (R90, R92). -/
def execOncalStart (t : Nat) (n : Fin 4) (s : State) : Host.Outcome State Fault Refusal :=
  act t s (fun s => fillStart s n.val false)

/-- ONCAL_COMPLETE (R90, R92). -/
def execOncalComplete (t : Nat) (cal : Calibrated) (s : State) : Host.Outcome State Fault Refusal :=
  act t s (fun s => oncalComplete s cal.chain.val cal.found)

/-- CAL_RETRY (R94). -/
def execCalRetry (t : Nat) (n : Fin 4) (s : State) : Host.Outcome State Fault Refusal :=
  act t s (fun s => fillStart s n.val true)

/-- SENSOR_READ (R96). -/
def execSensorRead (t : Nat) (n : Fin 4) (temp : Int) (vpa : Nat) (s : State) : Host.Outcome State Fault Refusal :=
  act t s (fun s => sensorRead s n.val temp vpa)

/-- COEX_ENABLE (R98). -/
def execCoexEnable (t : Nat) (s : State) : Host.Outcome State Fault Refusal :=
  act t s (fun s => coexEnable s)

/-- COEX_REQ_RISE (R99). -/
def execCoexReqRise (t : Nat) (prio : Bool) (s : State) : Host.Outcome State Fault Refusal :=
  act t s (fun s => coexReqRise s prio)

/-- COEX_GRANT (R99). -/
def execCoexGrant (t : Nat) (prio : Bool) (s : State) : Host.Outcome State Fault Refusal :=
  act t s (fun s => coexGrant s prio)

/-- COEX_REQ_FALL (R99). -/
def execCoexReqFall (t : Nat) (s : State) : Host.Outcome State Fault Refusal :=
  act t s (fun s => coexReqFall s)

/-- COEX_REVOKE (R100). -/
def execCoexRevoke (t : Nat) (prio : Bool) (s : State) : Host.Outcome State Fault Refusal :=
  act t s (fun s => coexRevoke s prio)

/-- REQ_MAX_EXPIRY (R99). -/
def execReqMaxExpiry (t : Nat) (s : State) : Host.Outcome State Fault Refusal :=
  act t s (fun s => reqMaxExpiry s)

end Sys2Proof.Machine
end

