-- ==== Sys2Proof/Machine/Twin.lean ====
section
/-! DEFINITION. The twin (chapter 16): the meaning of each command. -/

namespace Sys2Proof.Machine

/-- TWN_ENABLE (R19, R377, R387). -/
def execTwnEnable (t : Nat) (s : State) : Host.Outcome State Fault Refusal :=
  act t s (fun s => twnEnable s)

/-- TWN_DISABLE (R387). -/
def execTwnDisable (t : Nat) (s : State) : Host.Outcome State Fault Refusal :=
  act t s (fun s => twnDisable s)

/-- PAIR_BEAT_SEND (R385). -/
def execPairBeatSend (t : Nat) (s : State) : Host.Outcome State Fault Refusal :=
  act t s (fun s => pairBeatSend s)

/-- ETH_BEAT_SEND (R385). -/
def execEthBeatSend (t : Nat) (s : State) : Host.Outcome State Fault Refusal :=
  act t s (fun s => ethBeatSend s)

/-- PAIR_BEAT_RECEIVED (R385-R388). -/
def execPairBeatReceived (t : Nat) (word : BitVec 40) (s : State) : Host.Outcome State Fault Refusal :=
  act t s (fun s => pairBeatReceived s word.toNat)

/-- ETH_BEAT_RECEIVED (R385-R388). -/
def execEthBeatReceived (t : Nat) (i : Fin 2) (octets : List Byte) (s : State) : Host.Outcome State Fault Refusal :=
  act t s (fun s => ethBeatReceived s i.val octets)

/-- BEAT_MISS (R386, R387). -/
def execBeatMiss (t : Nat) (path : Fin 2) (s : State) : Host.Outcome State Fault Refusal :=
  act t s (fun s => beatMiss s path.val)

/-- REJOIN_EXPIRY (R387). -/
def execRejoinExpiry (t : Nat) (s : State) : Host.Outcome State Fault Refusal :=
  act t s (fun s => rejoinExpiry s)

/-- SPLIT_BOUNDARY (R387). -/
def execSplitBoundary (t : Nat) (s : State) : Host.Outcome State Fault Refusal :=
  act t s (fun s => splitBoundary s)

/-- TWIN_LINK_UP (R384). -/
def execTwinLinkUp (t : Nat) (credits : Nat) (s : State) : Host.Outcome State Fault Refusal :=
  act t s (fun s => twinLinkUp s credits)

/-- TWIN_LINK_DOWN (R384). -/
def execTwinLinkDown (t : Nat) (s : State) : Host.Outcome State Fault Refusal :=
  act t s (fun s => twinLinkDown s)

/-- TWIN_FRAME_RECEIVED (R380, R382, R384). -/
def execTwinFrameReceived (t : Nat) (kind : Fin 3) (profile : Fin 32) (rssi : Int) (lqi : BitVec 8) (angle : BitVec
    48) (octets : List Byte) (s : State) : Host.Outcome State Fault Refusal :=
  act t s (fun s => twinFrameReceived s kind.val profile.val rssi lqi.toNat angle.toNat octets)

/-- CREDIT_RETURN (R384). -/
def execCreditReturn (t : Nat) (n : Nat) (s : State) : Host.Outcome State Fault Refusal :=
  act t s (fun s => creditReturn s n)

end Sys2Proof.Machine
end

