-- ==== Sys2Proof/Machine/Dispatch.lean ====
section
/-! DEFINITION. The one dispatch from commands to their meanings. -/

namespace Sys2Proof.Machine

/-- The effect of a command on everything but the queue. -/
def exec (i : Instr) (s : State) : Host.Outcome State Fault Refusal :=
  match i with
  -- Registers, claims and accesses to BAR0 (chapters 00, 01, 19)
  | .registerWrite t m off val mem => Sys2Proof.Machine.execRegisterWrite t m off val mem s
  | .unsupportedAccess t m off octets write => Sys2Proof.Machine.execUnsupportedAccess t m off octets write s
  | .claim t resource owner => Sys2Proof.Machine.execClaim t resource owner s
  | .release t resource owner => Sys2Proof.Machine.execRelease t resource owner s
  | .query t resource owner => Sys2Proof.Machine.execQuery t resource owner s
  -- The frame pipeline (chapters 01, 07, 10, 12)
  | .frameRecord t n upset => Sys2Proof.Machine.execFrameRecord t n upset s
  | .ackArbiterRound t => Sys2Proof.Machine.execAckArbiterRound t s
  | .duplicateTest t tag upset => Sys2Proof.Machine.execDuplicateTest t tag upset s
  | .keyDerivation t tag => Sys2Proof.Machine.execKeyDerivation t tag s
  | .uplinkDecrypt t tag ptUpset ntUpset reasmUpset => Sys2Proof.Machine.execUplinkDecrypt t tag ptUpset ntUpset reasmUpset s
  | .reassemblyTimeout t ix => Sys2Proof.Machine.execReassemblyTimeout t ix s
  | .reorderRelease t tag => Sys2Proof.Machine.execReorderRelease t tag s
  | .escEnqueue t tag => Sys2Proof.Machine.execEscEnqueue t tag s
  | .tagAdmission t port upset => Sys2Proof.Machine.execTagAdmission t port upset s
  | .downlinkIngress t port ptUpset ntUpset => Sys2Proof.Machine.execDownlinkIngress t port ptUpset ntUpset s
  | .routeBuild t tag reads => Sys2Proof.Machine.execRouteBuild t tag reads s
  | .downlinkSecure t tag upset => Sys2Proof.Machine.execDownlinkSecure t tag upset s
  -- Grid angle, local time and the Balance (chapter 02)
  | .balEnable t => Sys2Proof.Machine.execBalEnable t s
  | .balDisable t => Sys2Proof.Machine.execBalDisable t s
  | .cycForce t => Sys2Proof.Machine.execCycForce t s
  | .snap t => Sys2Proof.Machine.execSnap t s
  | .gridZcEdge t rising => Sys2Proof.Machine.execGridZcEdge t rising s
  | .gridAinCrossing t t1 s1 s2 lowest highest => Sys2Proof.Machine.execGridAinCrossing t t1 s1 s2 lowest highest s
  | .crossingMissed t => Sys2Proof.Machine.execCrossingMissed t s
  | .cycleStart t => Sys2Proof.Machine.execCycleStart t s
  | .phaseStep t => Sys2Proof.Machine.execPhaseStep t s
  | .stallStart t => Sys2Proof.Machine.execStallStart t s
  | .stallEnd t => Sys2Proof.Machine.execStallEnd t s
  | .targetFix t target => Sys2Proof.Machine.execTargetFix t target s
  | .statisticsEpoch t => Sys2Proof.Machine.execStatisticsEpoch t s
  | .ttEnable t n => Sys2Proof.Machine.execTtEnable t n s
  | .ttDisable t n => Sys2Proof.Machine.execTtDisable t n s
  | .ttCommit t n hi => Sys2Proof.Machine.execTtCommit t n hi s
  | .ttFiring t n => Sys2Proof.Machine.execTtFiring t n s
  | .ttPulseEnd t n => Sys2Proof.Machine.execTtPulseEnd t n s
  | .burstDone t samples => Sys2Proof.Machine.execBurstDone t samples s
  | .tciEnable t n => Sys2Proof.Machine.execTciEnable t n s
  | .tciEdge t n rising widthNs => Sys2Proof.Machine.execTciEdge t n rising widthNs s
  | .pop t n => Sys2Proof.Machine.execPop t n s
  | .cmpEnable t k => Sys2Proof.Machine.execCmpEnable t k s
  | .cmpCommit t k hi => Sys2Proof.Machine.execCmpCommit t k hi s
  | .cmpFire t k => Sys2Proof.Machine.execCmpFire t k s
  | .ptpSet t ns => Sys2Proof.Machine.execPtpSet t ns s
  | .ptpAdj t adj => Sys2Proof.Machine.execPtpAdj t adj s
  | .ppsOutEnable t => Sys2Proof.Machine.execPpsOutEnable t s
  | .ppsPulse t => Sys2Proof.Machine.execPpsPulse t s
  | .ppsPulseEnd t => Sys2Proof.Machine.execPpsPulseEnd t s
  | .ppsInEdge t => Sys2Proof.Machine.execPpsInEdge t s
  | .ppsInMissing t => Sys2Proof.Machine.execPpsInMissing t s
  -- The receivers (chapter 03)
  | .rxStartcal t b => Sys2Proof.Machine.execRxStartcal t b s
  | .rxStartcalDone t b ir steps => Sys2Proof.Machine.execRxStartcalDone t b ir steps s
  | .rxEnable t b => Sys2Proof.Machine.execRxEnable t b s
  | .rxDisable t b => Sys2Proof.Machine.execRxDisable t b s
  | .gainEpochEnd t b p => Sys2Proof.Machine.execGainEpochEnd t b p s
  | .adcOverload t b clipped fresh => Sys2Proof.Machine.execAdcOverload t b clipped fresh s
  | .unscheduledStep t b => Sys2Proof.Machine.execUnscheduledStep t b s
  | .calReq t b => Sys2Proof.Machine.execCalReq t b s
  | .compatCalStart t b => Sys2Proof.Machine.execCompatCalStart t b s
  | .blankEnd t b ir => Sys2Proof.Machine.execBlankEnd t b ir s
  | .irUpdate t b ir => Sys2Proof.Machine.execIrUpdate t b ir s
  | .staleSegmentTone t b pair ir => Sys2Proof.Machine.execStaleSegmentTone t b pair ir s
  | .filterRetune t b temp => Sys2Proof.Machine.execFilterRetune t b temp s
  -- Transmit chains and coexistence (chapter 03)
  | .chainStartcal t n => Sys2Proof.Machine.execChainStartcal t n s
  | .chainStartcalDone t n => Sys2Proof.Machine.execChainStartcalDone t n s
  | .chainEnable t n => Sys2Proof.Machine.execChainEnable t n s
  | .chainDisable t n => Sys2Proof.Machine.execChainDisable t n s
  | .park t n => Sys2Proof.Machine.execPark t n s
  | .txCommand t n cmd => Sys2Proof.Machine.execTxCommand t n cmd s
  | .commandWithdraw t n id => Sys2Proof.Machine.execCommandWithdraw t n id s
  | .turnaroundStart t n prio => Sys2Proof.Machine.execTurnaroundStart t n prio s
  | .synthLock t n => Sys2Proof.Machine.execSynthLock t n s
  | .lockPoint t n => Sys2Proof.Machine.execLockPoint t n s
  | .transmitStep t n => Sys2Proof.Machine.execTransmitStep t n s
  | .firstSymbol t n => Sys2Proof.Machine.execFirstSymbol t n s
  | .lastSymbol t n => Sys2Proof.Machine.execLastSymbol t n s
  | .rampdnComplete t n meas => Sys2Proof.Machine.execRampdnComplete t n meas s
  | .cacheFill t n slot => Sys2Proof.Machine.execCacheFill t n slot s
  | .cacheEvict t n slot => Sys2Proof.Machine.execCacheEvict t n slot s
  | .cacheRead t n slot => Sys2Proof.Machine.execCacheRead t n slot s
  | .oncalStart t n => Sys2Proof.Machine.execOncalStart t n s
  | .oncalComplete t cal => Sys2Proof.Machine.execOncalComplete t cal s
  | .calRetry t n => Sys2Proof.Machine.execCalRetry t n s
  | .sensorRead t n temp vpa => Sys2Proof.Machine.execSensorRead t n temp vpa s
  | .coexEnable t => Sys2Proof.Machine.execCoexEnable t s
  | .coexReqRise t prio => Sys2Proof.Machine.execCoexReqRise t prio s
  | .coexGrant t prio => Sys2Proof.Machine.execCoexGrant t prio s
  | .coexReqFall t => Sys2Proof.Machine.execCoexReqFall t s
  | .coexRevoke t prio => Sys2Proof.Machine.execCoexRevoke t prio s
  | .reqMaxExpiry t => Sys2Proof.Machine.execReqMaxExpiry t s
  -- The self-interference canceller (chapter 04)
  | .coeffAdapt t n taps coefs views => Sys2Proof.Machine.execCoeffAdapt t n taps coefs views s
  | .collisionDeclared t n lane seen => Sys2Proof.Machine.execCollisionDeclared t n lane seen s
  | .sicClearEntry t n slot => Sys2Proof.Machine.execSicClearEntry t n slot s
  | .sicReadEntry t n slot => Sys2Proof.Machine.execSicReadEntry t n slot s
  -- The channeliser and its lanes (chapter 05)
  | .laneCommit t n freq => Sys2Proof.Machine.execLaneCommit t n freq s
  | .laneEnable t n => Sys2Proof.Machine.execLaneEnable t n s
  | .laneDisable t n => Sys2Proof.Machine.execLaneDisable t n s
  | .selftest t n => Sys2Proof.Machine.execSelftest t n s
  | .periodicSelftest t n => Sys2Proof.Machine.execPeriodicSelftest t n s
  | .selftestComplete t n decoded rssiErr => Sys2Proof.Machine.execSelftestComplete t n decoded rssiErr s
  | .unretire t n => Sys2Proof.Machine.execUnretire t n s
  | .switchDone t n => Sys2Proof.Machine.execSwitchDone t n s
  | .preambleDetected t n seen gain => Sys2Proof.Machine.execPreambleDetected t n seen gain s
  | .secondDetection t n seen gain timingMilli freqHz => Sys2Proof.Machine.execSecondDetection t n seen gain timingMilli freqHz s
  | .sfdFound t n seen => Sys2Proof.Machine.execSfdFound t n seen s
  | .sfdTimeout t n => Sys2Proof.Machine.execSfdTimeout t n s
  | .phrReceived t n seen => Sys2Proof.Machine.execPhrReceived t n seen s
  | .laneFrameEnd t n psdu snr10 seen => Sys2Proof.Machine.execLaneFrameEnd t n psdu snr10 seen s
  | .parityError t n => Sys2Proof.Machine.execParityError t n s
  | .stormWindowEnd t n => Sys2Proof.Machine.execStormWindowEnd t n s
  | .edRefresh t n ed => Sys2Proof.Machine.execEdRefresh t n ed s
  | .channelRetire t k => Sys2Proof.Machine.execChannelRetire t k s
  -- The modem (chapter 06)
  | .profileLoad t k => Sys2Proof.Machine.execProfileLoad t k s
  | .profileUnload t k => Sys2Proof.Machine.execProfileUnload t k s
  | .airtimeQuery t profile psduLen => Sys2Proof.Machine.execAirtimeQuery t profile psduLen s
  -- The air MAC (chapter 07)
  | .amcEnable t => Sys2Proof.Machine.execAmcEnable t s
  | .amcDisable t => Sys2Proof.Machine.execAmcDisable t s
  | .asyncStart t n => Sys2Proof.Machine.execAsyncStart t n s
  | .backoffExpiry t n => Sys2Proof.Machine.execBackoffExpiry t n s
  | .ackWaitExpiry t ref => Sys2Proof.Machine.execAckWaitExpiry t ref s
  | .neighbourBeaconMissed t k => Sys2Proof.Machine.execNeighbourBeaconMissed t k s
  | .neighbourHoldExpiry t k => Sys2Proof.Machine.execNeighbourHoldExpiry t k s
  | .dwellStep t => Sys2Proof.Machine.execDwellStep t s
  -- Sleepy nodes (chapter 08)
  | .slpEnable t => Sys2Proof.Machine.execSlpEnable t s
  | .slpDisable t => Sys2Proof.Machine.execSlpDisable t s
  | .windowHandover t ctx => Sys2Proof.Machine.execWindowHandover t ctx s
  | .nodeQuery t ctx => Sys2Proof.Machine.execNodeQuery t ctx s
  -- The Escapement (chapter 09)
  | .escEnable t => Sys2Proof.Machine.execEscEnable t s
  | .escDisable t => Sys2Proof.Machine.execEscDisable t s
  | .slotframeBoundary t => Sys2Proof.Machine.execSlotframeBoundary t s
  | .txOccurrenceDecision t k => Sys2Proof.Machine.execTxOccurrenceDecision t k s
  | .rxOccurrenceOpen t k => Sys2Proof.Machine.execRxOccurrenceOpen t k s
  | .rxOccurrenceClose t k => Sys2Proof.Machine.execRxOccurrenceClose t k s
  | .asyncRelease t turn => Sys2Proof.Machine.execAsyncRelease t turn s
  | .wiredPortRelease t p posted => Sys2Proof.Machine.execWiredPortRelease t p posted s
  | .subRead t ctx => Sys2Proof.Machine.execSubRead t ctx s
  | .subWrite t ctx => Sys2Proof.Machine.execSubWrite t ctx s
  | .subFlush t ctx => Sys2Proof.Machine.execSubFlush t ctx s
  | .fuseeBinAdvance t r => Sys2Proof.Machine.execFuseeBinAdvance t r s
  -- The Node Table and the Prefix Table (chapter 10)
  | .fwdEnable t => Sys2Proof.Machine.execFwdEnable t s
  | .fwdDisable t => Sys2Proof.Machine.execFwdDisable t s
  | .ntLookup t kind upset => Sys2Proof.Machine.execNtLookup t kind upset s
  | .ntInsertPrimary t upset => Sys2Proof.Machine.execNtInsertPrimary t upset s
  | .ntDelete t kind upset => Sys2Proof.Machine.execNtDelete t kind upset s
  | .ntSetParent t upset => Sys2Proof.Machine.execNtSetParent t upset s
  | .ntInsertAlias t upset => Sys2Proof.Machine.execNtInsertAlias t upset s
  | .ntRead t upset => Sys2Proof.Machine.execNtRead t upset s
  | .ntRepair t kind upset => Sys2Proof.Machine.execNtRepair t kind upset s
  | .ptInsert t place => Sys2Proof.Machine.execPtInsert t place s
  | .ptDelete t place => Sys2Proof.Machine.execPtDelete t place s
  | .ptRead t ix upset => Sys2Proof.Machine.execPtRead t ix upset s
  -- The Context Store (chapter 11)
  | .ctxEnable t => Sys2Proof.Machine.execCtxEnable t s
  | .ctxDisable t => Sys2Proof.Machine.execCtxDisable t s
  | .ctxSelftestDone t badBank => Sys2Proof.Machine.execCtxSelftestDone t badBank s
  | .contextRead t ctx upset => Sys2Proof.Machine.execContextRead t ctx upset s
  | .contextWrite t ctx mask => Sys2Proof.Machine.execContextWrite t ctx mask s
  | .restore t ctx => Sys2Proof.Machine.execRestore t ctx s
  | .invalidate t ctx => Sys2Proof.Machine.execInvalidate t ctx s
  | .reservationConfirm t seq => Sys2Proof.Machine.execReservationConfirm t seq s
  | .sweepStart t => Sys2Proof.Machine.execSweepStart t s
  | .sweepVisit t ctx => Sys2Proof.Machine.execSweepVisit t ctx s
  | .flush t => Sys2Proof.Machine.execFlush t s
  | .flushComplete t => Sys2Proof.Machine.execFlushComplete t s
  -- The Jewel store (chapter 12)
  | .jwlEnable t => Sys2Proof.Machine.execJwlEnable t s
  | .jwlDisable t => Sys2Proof.Machine.execJwlDisable t s
  | .lcRead t => Sys2Proof.Machine.execLcRead t s
  | .load t w slot => Sys2Proof.Machine.execLoad t w slot s
  | .derive t w slot => Sys2Proof.Machine.execDerive t w slot s
  | .keyInvalidate t w slot => Sys2Proof.Machine.execKeyInvalidate t w slot s
  | .revocationSweepEnd t w => Sys2Proof.Machine.execRevocationSweepEnd t w s
  | .readAttributes t w slot => Sys2Proof.Machine.execReadAttributes t w slot s
  | .attest t w slot => Sys2Proof.Machine.execAttest t w slot s
  | .hash t w slot mem => Sys2Proof.Machine.execHash t w slot mem s
  | .hmac t w slot mem => Sys2Proof.Machine.execHmac t w slot mem s
  | .verify t w slot => Sys2Proof.Machine.execVerify t w slot s
  | .extend t w m => Sys2Proof.Machine.execExtend t w m s
  | .windowJobEnd t w => Sys2Proof.Machine.execWindowJobEnd t w s
  | .lifeCycleChange t w target => Sys2Proof.Machine.execLifeCycleChange t w target s
  | .lifeCycleChangeDone t => Sys2Proof.Machine.execLifeCycleChangeDone t s
  | .cacheFlush t => Sys2Proof.Machine.execCacheFlush t s
  -- Host rings, doorbells and events (chapter 13)
  | .ringEnable t r => Sys2Proof.Machine.execRingEnable t r s
  | .ringDisable t r => Sys2Proof.Machine.execRingDisable t r s
  | .doorbell t off cluster access w v => Sys2Proof.Machine.execDoorbell t off cluster access w v s
  | .descriptorFetch t r descs => Sys2Proof.Machine.execDescriptorFetch t r descs s
  | .frameAdmission t r data => Sys2Proof.Machine.execFrameAdmission t r data s
  | .controlDescriptor t r desc mem => Sys2Proof.Machine.execControlDescriptor t r desc mem s
  | .controlPollEnd t r => Sys2Proof.Machine.execControlPollEnd t r s
  | .evtSwraise t ev => Sys2Proof.Machine.execEvtSwraise t ev s
  | .coalesceTimeout t v => Sys2Proof.Machine.execCoalesceTimeout t v s
  | .vectorUnmask t v => Sys2Proof.Machine.execVectorUnmask t v s
  | .functionLevelReset t => Sys2Proof.Machine.execFunctionLevelReset t s
  | .pcieLinkDown t => Sys2Proof.Machine.execPcieLinkDown t s
  | .d3hotToD0 t => Sys2Proof.Machine.execD3hotToD0 t s
  | .dmaError t r addr => Sys2Proof.Machine.execDmaError t r addr s
  -- Mailboxes and semaphores (chapter 14)
  | .channelCfg t m n val => Sys2Proof.Machine.execChannelCfg t m n val s
  | .post t m n len => Sys2Proof.Machine.execPost t m n len s
  | .mbxPop t m n => Sys2Proof.Machine.execMbxPop t m n s
  | .semTake t m k => Sys2Proof.Machine.execSemTake t m k s
  | .semRelease t m k val => Sys2Proof.Machine.execSemRelease t m k val s
  | .semForce t m k => Sys2Proof.Machine.execSemForce t m k s
  | .clusterLineUnmask t v => Sys2Proof.Machine.execClusterLineUnmask t v s
  -- Ethernet (chapter 15)
  | .ethEnable t ix => Sys2Proof.Machine.execEthEnable t ix s
  | .ethDisable t ix => Sys2Proof.Machine.execEthDisable t ix s
  | .linkUp t ix result pause => Sys2Proof.Machine.execLinkUp t ix result pause s
  | .linkDown t ix receiving => Sys2Proof.Machine.execLinkDown t ix receiving s
  | .ethRxFrame t ix ts frame => Sys2Proof.Machine.execEthRxFrame t ix ts frame s
  | .fifoToPool t ix => Sys2Proof.Machine.execFifoToPool t ix s
  | .pauseExpiry t ix => Sys2Proof.Machine.execPauseExpiry t ix s
  | .pauseWatchdog t ix => Sys2Proof.Machine.execPauseWatchdog t ix s
  | .holdoffEnd t ix => Sys2Proof.Machine.execHoldoffEnd t ix s
  | .pauseSend t ix => Sys2Proof.Machine.execPauseSend t ix s
  | .ethTxEnd t ix ts => Sys2Proof.Machine.execEthTxEnd t ix ts s
  | .standby t ix on => Sys2Proof.Machine.execStandby t ix on s
  -- The twin (chapter 16)
  | .twnEnable t => Sys2Proof.Machine.execTwnEnable t s
  | .twnDisable t => Sys2Proof.Machine.execTwnDisable t s
  | .pairBeatSend t => Sys2Proof.Machine.execPairBeatSend t s
  | .ethBeatSend t => Sys2Proof.Machine.execEthBeatSend t s
  | .pairBeatReceived t word => Sys2Proof.Machine.execPairBeatReceived t word s
  | .ethBeatReceived t ix octets => Sys2Proof.Machine.execEthBeatReceived t ix octets s
  | .beatMiss t path => Sys2Proof.Machine.execBeatMiss t path s
  | .rejoinExpiry t => Sys2Proof.Machine.execRejoinExpiry t s
  | .splitBoundary t => Sys2Proof.Machine.execSplitBoundary t s
  | .twinLinkUp t credits => Sys2Proof.Machine.execTwinLinkUp t credits s
  | .twinLinkDown t => Sys2Proof.Machine.execTwinLinkDown t s
  | .twinFrameReceived t kind profile rssi lqi angle octets => Sys2Proof.Machine.execTwinFrameReceived t kind profile rssi lqi angle octets s
  | .creditReturn t n => Sys2Proof.Machine.execCreditReturn t n s
  -- The Crown and firmware update (chapter 17)
  | .download t header => Sys2Proof.Machine.execDownload t header s
  | .bodyCopied t body => Sys2Proof.Machine.execBodyCopied t body s
  | .verifyDone t => Sys2Proof.Machine.execVerifyDone t s
  | .abort t => Sys2Proof.Machine.execAbort t s
  | .activate t => Sys2Proof.Machine.execActivate t s
  | .activationDone t ok => Sys2Proof.Machine.execActivationDone t ok s
  | .confirm t comp => Sys2Proof.Machine.execConfirm t comp s
  | .burnSigner1 t => Sys2Proof.Machine.execBurnSigner1 t s
  | .crownBoot t => Sys2Proof.Machine.execCrownBoot t s
  -- The Chronograph (chapter 18)
  | .chrCounterEnable t k en => Sys2Proof.Machine.execChrCounterEnable t k en s
  | .chrCounterWrite t k val => Sys2Proof.Machine.execChrCounterWrite t k val s
  | .trecPop t => Sys2Proof.Machine.execTrecPop t s
  | .instructionSample t c pc latency flags secure retired active rises => Sys2Proof.Machine.execInstructionSample t c pc latency flags secure retired active rises s
  | .samplePop t c => Sys2Proof.Machine.execSamplePop t c s
  -- Power, reset, start-up and faults (chapter 19)
  | .pornRise t boot region twin host gridf refclk => Sys2Proof.Machine.execPornRise t boot region twin host gridf refclk s
  | .pornLow t => Sys2Proof.Machine.execPornLow t s
  | .chipResetRelease t => Sys2Proof.Machine.execChipResetRelease t s
  | .vmonWarn t => Sys2Proof.Machine.execVmonWarn t s
  | .vmonWarnClear t => Sys2Proof.Machine.execVmonWarnClear t s
  | .vmonReset t => Sys2Proof.Machine.execVmonReset t s
  | .railFail t => Sys2Proof.Machine.execRailFail t s
  | .thermalTrip t rf dig => Sys2Proof.Machine.execThermalTrip t rf dig s
  | .thermalWarn t rf dig => Sys2Proof.Machine.execThermalWarn t rf dig s
  | .d2dLoss t => Sys2Proof.Machine.execD2dLoss t s
  | .chipResetCommand t key => Sys2Proof.Machine.execChipResetCommand t key s
  | .coreResetCommand t key mask => Sys2Proof.Machine.execCoreResetCommand t key mask s
  | .watchdogExpiry t c => Sys2Proof.Machine.execWatchdogExpiry t c s
  | .coreDomainRelease t c => Sys2Proof.Machine.execCoreDomainRelease t c s
  | .kick t c => Sys2Proof.Machine.execKick t c s
  | .watchdogConfig t c en action timeout => Sys2Proof.Machine.execWatchdogConfig t c en action timeout s
  | .corePower t mask => Sys2Proof.Machine.execCorePower t mask s
  | .powerStateReq t target => Sys2Proof.Machine.execPowerStateReq t target s
  | .powerTransitionDone t => Sys2Proof.Machine.execPowerTransitionDone t s
  | .standbyWake t src => Sys2Proof.Machine.execStandbyWake t src s
  | .permanentListClear t => Sys2Proof.Machine.execPermanentListClear t s
  | .d2dCrcError t => Sys2Proof.Machine.execD2dCrcError t s
  | .pcieLinkUp t speed width => Sys2Proof.Machine.execPcieLinkUp t speed width s
  | .d3hotEntry t => Sys2Proof.Machine.execD3hotEntry t s
  | .flrComplete t => Sys2Proof.Machine.execFlrComplete t s
  | .perstAssertion t => Sys2Proof.Machine.execPerstAssertion t s

end Sys2Proof.Machine
end

