-- ==== Sys2Proof/Safety.lean ====
section
/-! DEFINITION. What claims say of runs: a command completes in a next state of which something holds, what reporting and
measuring may change beside it, and the invariant that every step keeps. -/

namespace Sys2Proof.Machine

/-- The outcome is a next state. -/
def answers (o : Host.Outcome State Fault Refusal) : Prop := ∃ t, o = .next t

/-- The Context Store is in its canonical form: addresses strictly rising, and no byte that reads as an unlisted one. -/
def State.storeOk (s : State) : Prop := Memory.wf s.store = true

/-- A life-cycle change in progress does not go back (R304). -/
def State.lcOk (s : State) : Prop := ∀ x, s.jwl.lcTarget = some x → s.fuses.lcState ≤ x.1

/-- The cluster's memory is in its canonical form. -/
abbrev State.memOk (s : State) : Prop := Memory.wf s.hif.mem = true

/-- What every step keeps: the Context Store, the cluster's memory, the register map and the claim table are in their canonical
forms (one value for each byte and field, one holder for each resource, R37), and a life-cycle change in progress does not go
back. -/
def State.Inv (s : State) : Prop :=
  s.storeOk ∧ s.memOk ∧ rising s.fields = true ∧ rising s.claims = true ∧ s.lcOk

/-- What no operation undoes: the invariant is kept, the fuses only go forward (the life-cycle state R303, R304, signer hash 1
R394, the anti-rollback counter R402), and the LTB stays as the command found it. -/
structure Grows (s u : State) : Prop where
  ltb : u.ltb = s.ltb
  store : s.storeOk → u.storeOk
  mem : s.memOk → u.memOk
  fields : rising s.fields = true → rising u.fields = true
  claims : rising s.claims = true → rising u.claims = true
  lc : s.lcOk → u.lcOk ∧ s.fuses.lcState ≤ u.fuses.lcState
  signer : ∀ x, s.fuses.signer1 = some x → u.fuses.signer1 = some x
  rollback : s.fuses.rollback ≤ u.fuses.rollback

/-- The commands of the reset domain, which also act while chip reset is held (R423, R424). -/
def resetDomain : Instr → Bool
  | .pornRise .. | .pornLow _ | .chipResetRelease _ | .vmonWarn _ | .vmonWarnClear _ | .vmonReset _ | .railFail _
  | .thermalTrip .. | .thermalWarn .. | .d2dLoss _ | .chipResetCommand .. | .watchdogExpiry .. => true
  | _ => false

/-! ### Completion -/

/-- The command completes: `exec c s` ANSWERS A NEXT STATE, and of that state `P` holds. Every obligation that says `completes`,
`leadsTo` or `changes` has this as its conclusion. -/
def completes (c : Instr) (s : State) (P : State → Prop) : Prop := ∃ u, exec c s = .next u ∧ P u

/-- Chip reset is not held, and nothing of an earlier command still waits to be told. -/
abbrev State.settled (s : State) : Prop := s.pwr.held = false ∧ s.txDone = [] ∧ s.pwr.inbox = []

/-- The state at the instant `t` of a command, before its effect: time does not go back. -/
def State.now (s : State) (t : Nat) : State := { s with ltb := max s.ltb t, out := [], resp := .none }

/-- The keys of the two flags of a histogram unit, CHR_HIST_STAT bits 0 and 1 (R418, R419). -/
def chrFlagKey (k : Nat) : Bool := decide (0x16060c * 32 ≤ k ∧ k ≤ 0x1606fc * 32 + 1)

/-- The keys of HIF_VEC_CFG, whose coalescing takes effect as a vector fires (R339). -/
def vecKey (k : Nat) : Bool := decide (0xf0100 * 32 ≤ k ∧ k < 0xf0200 * 32)

/-- The statistics counters of reporting and measuring: events raised and lost, messages, records and samples lost. -/
def reportCounts : List Nat :=
  [Reg.EVT_CNT_RAISED, Reg.EVT_CNT_LOST, Reg.HIF_CNT_MSG, Reg.CHR_CNT_TREC_LOST, Reg.CHR_CNT_IS_LOST]

/-- No ring is the cluster's: what HIF writes goes to the host's memory (R323). -/
abbrev State.hostRings (s : State) : Prop := ∀ r, r < 256 → ringOwner s r ≠ 1

/-- `u` is `s`, but for what reporting an event changes (R324, R334, R339, R358: event rings and where they lie in the cluster's
memory, vectors, interrupt lines, the counters of them, outputs) and what the Chronograph measures (R408-R419; the losses of
R416 and R417 with their EV242). Every other register, counter and record is the same. -/
structure Kept (s u : State) : Prop where
  get : ∀ f : Fld, chrFlagKey f.key = false → u.get f = s.get f
  count : ∀ c, c ∉ reportCounts → u.count c = s.count c
  out : ∀ o, o ∈ s.out → o ∈ u.out
  pend : ∀ e, e ∈ s.hif.pend → e ∈ u.hif.pend
  rings : ∀ r, r < 224 → tabGet u.hif.rings r = tabGet s.hif.rings r
  hif : { u.hif with rings := s.hif.rings, vecs := s.hif.vecs, pba := s.hif.pba, pend := s.hif.pend, mem := s.hif.mem } = s.hif
  mem : s.hostRings → u.hif.mem = s.hif.mem
  mbx : { u.mbx with lines := s.mbx.lines } = s.mbx
  pwr : u.pwr = s.pwr
  recs : u.chr.recs = s.chr.recs
  tagged : u.chr.tagged = s.chr.tagged
  samples : u.chr.samples = s.chr.samples
  enabled : u.chr.enabled = s.chr.enabled
  ltb : u.ltb = s.ltb
  resp : u.resp = s.resp
  freeCtr : u.freeCtr = s.freeCtr
  straps : u.straps = s.straps
  fuses : u.fuses = s.fuses
  cntLast : u.cntLast = s.cntLast
  inForce : ∀ k, vecKey k = false → tabGet u.inForce k = tabGet s.inForce k
  claims : u.claims = s.claims
  pins : u.pins = s.pins
  store : u.store = s.store
  bal : u.bal = s.bal
  rx : u.rx = s.rx
  chains : u.chains = s.chains
  coex : u.coex = s.coex
  sic : u.sic = s.sic
  lanes : u.lanes = s.lanes
  laneRecs : u.laneRecs = s.laneRecs
  txDone : u.txDone = s.txDone
  once : u.once.filter (· != 242) = s.once.filter (· != 242)
  amc : u.amc = s.amc
  slp : u.slp = s.slp
  esc : u.esc = s.esc
  fwd : u.fwd = s.fwd
  ctx : u.ctx = s.ctx
  jwl : u.jwl = s.jwl
  eth : u.eth = s.eth
  twn : u.twn = s.twn
  crn : u.crn = s.crn

/-- The command completes (`exec c s` answers a next state), and all it does is to lead from `s` to `v`, but for reporting and measuring. -/
def leadsTo (c : Instr) (s v : State) : Prop := completes c s (Kept v)

/-- The command completes, and its own effect leads from `s` to `v`; the next state is `v` once the issuers of the transmissions
that ended in it are told (R89), faults are classified and the Chronograph has measured. -/
def endsIn (c : Instr) (s v : State) : Prop := completes c s (fun u => u = { v.finish with pending := s.pending })

/-! ### Register tables -/

/-- The fields of the register at `off` that a write can change (R6). -/
def writtenFields (off : Nat) : List Fld := (blockRows off).flatMap (fun r => match rowAt r off with
  | some (i, j) => if r.acc = .rw ∨ r.acc = .w1c then [r.fld i j] else []
  | none => [])

/-- What a write of `val` leaves in the field of a table's row (R6, R7, R9): an RW field takes its bits within the range that
the table gives, a W1C field loses those written 1, and a locked field, an RO or a WO one stays. -/
def writtenValue (s : State) (val : Nat) (r : Row) (i j : Nat) : Nat :=
  let f := r.fld i j
  let v := bits val f.lo f.w
  if rowLocked s r i j then s.get f
  else match r.acc with
    | .rw => (normValue r.norm v).getD (s.get f)
    | .w1c => s.get f - (s.get f &&& v)
    | _ => s.get f

/-! ### Frames -/

/-- The parts of the state that a frame names, beside register fields and statistics counters. -/
inductive Part where
  | claims | pins | store | bal | rx | chains | coex | sic | lanes | laneRecs | txDone | amc | slp | esc | fwd | ctx | jwl
  | eth | twn | crn | rings | host | mailboxes | stages | samples | power | fuses | straps | latched
  | inForce | once | cluster
deriving DecidableEq, Repr

/-- A part is the same in two states. What raising an event changes of the host interface (event rings, vectors, pending
bits) and of the cluster lines is no part of these; the cluster's memory has its own clause in `State.elsewhere`. -/
def Part.same (s u : State) : Part → Prop
  | .claims => u.claims = s.claims
  | .pins => u.pins = s.pins
  | .store => u.store = s.store
  | .bal => u.bal = s.bal
  | .rx => u.rx = s.rx
  | .chains => u.chains = s.chains
  | .coex => u.coex = s.coex
  | .sic => u.sic = s.sic
  | .lanes => u.lanes = s.lanes
  | .laneRecs => u.laneRecs = s.laneRecs
  | .txDone => u.txDone = s.txDone
  | .amc => u.amc = s.amc
  | .slp => u.slp = s.slp
  | .esc => u.esc = s.esc
  | .fwd => u.fwd = s.fwd
  | .ctx => u.ctx = s.ctx
  | .jwl => u.jwl = s.jwl
  | .eth => u.eth = s.eth
  | .twn => u.twn = s.twn
  | .crn => u.crn = s.crn
  | .rings => ∀ r, r < 224 → tabGet u.hif.rings r = tabGet s.hif.rings r
  | .host => { u.hif with rings := s.hif.rings, vecs := s.hif.vecs, pba := s.hif.pba, pend := s.hif.pend, mem := s.hif.mem } = s.hif
  | .cluster => True
  | .mailboxes => { u.mbx with lines := s.mbx.lines } = s.mbx
  | .stages => u.chr.recs = s.chr.recs ∧ u.chr.tagged = s.chr.tagged
  | .samples => u.chr.samples = s.chr.samples ∧ u.chr.enabled = s.chr.enabled
  | .power => u.pwr = s.pwr
  | .fuses => u.fuses = s.fuses
  | .straps => u.straps = s.straps
  | .latched => u.cntLast = s.cntLast
  | .inForce => ∀ k, vecKey k = false → tabGet u.inForce k = tabGet s.inForce k
  | .once => u.once.filter (· != 242) = s.once.filter (· != 242)

/-- What a parity error of a Forwarding table changes (R276): nothing where no entry is upset. -/
def fwdParityFields (upset : List Nat) : List Fld :=
  if upset.isEmpty then []
  else [Reg.FWD_PAR_LOG_table, Reg.FWD_PAR_LOG_index, Reg.FWD_PAR_LOG_logged, Reg.PWR_PERM_CNT_count]

/-- Its counters: the classifier of R433 counts it too. -/
def fwdParityCounts (upset : List Nat) : List Nat :=
  if upset.isEmpty then [] else [Reg.FWD_CNT_PAR_ERR, Reg.PWR_CNT_PERMANENT, Reg.PWR_CNT_TRANSIENT]

/-- The part of the state that holds the classifier's history. -/
def fwdParityParts (upset : List Nat) : List Part := if upset.isEmpty then [] else [.power]

/-- A command's frame: `u` is `s` elsewhere than in the register fields `fs`, the statistics counters `cs` and the parts
`ps`, but for reporting and measuring (R324, R334, R339, R358, R408-R419). Every byte of the cluster's memory stays too, where
no ring is the cluster's (an event record may go there). -/
def State.elsewhere (s u : State) (fs : List Fld) (cs : List Nat) (ps : List Part) : Prop :=
  (∀ f : Fld, chrFlagKey f.key = false → f.key ∉ fs.map Fld.key → u.get f = s.get f) ∧
  (∀ c, c ∉ cs → c ∉ reportCounts → u.count c = s.count c) ∧
  (∀ p, p ∉ ps → p.same s u) ∧
  ((.cluster ∉ ps ∧ ∀ r, r < 256 → (Reg.HIF_RING_CTRL_owner r).key ∉ fs.map Fld.key) → s.hostRings → u.hif.mem = s.hif.mem)

/-- The command completes (`exec c s` answers a next state), changes nothing elsewhere than in the register fields `fs`, the counters `cs` and the parts `ps`,
and leads to a state of which `P` holds. -/
def changes (c : Instr) (s : State) (fs : List Fld) (cs : List Nat) (ps : List Part) (P : State → Prop) : Prop :=
  completes c s (fun u => s.elsewhere u fs cs ps ∧ P u)

end Sys2Proof.Machine
end

