-- ==== Sys2Proof/Certificates/Slice0/Obligations.lean ====
section
/-! DEFINITION. What is to be proved of the block: the general rules of a step, and for each family of commands where they
complete, what they lead to and what they leave. -/

open Sys2Proof Sys2Proof.Machine

/-- The model's choice (log 34): the block takes the command at the front of its queue, and one step is exec of that
command on the queue's rest; on an empty queue it idles. -/
def Obligations.StepTakesTheFront : Prop :=
  (∀ (c : Instr) (rest : List Instr) (s : State), s.pending = c :: rest → step s = exec c { s with pending := rest }) ∧
    ∀ s : State, s.pending = [] → step s = .next s

/-- Every command, with any operands in any state, answers a next state: none ends in a fault or a refusal. No command
touches the queue of those that wait. That the block has such a queue, and that a command turned away or held off
by a reset answers a next state too, is the model's choice (logs 34, 71). -/
def Obligations.CommandsAnswer : Prop :=
  ∀ (c : Instr) (s : State), ∃ u, exec c s = .next u ∧ u.pending = s.pending

/-- State.reset is the machine right after the release of chip reset: it meets the invariant that every step keeps,
its queue is empty, and the LTB stands at 0 (R42). -/
def Obligations.ResetHasInv : Prop :=
  State.reset.Inv ∧ State.reset.pending = [] ∧ State.reset.ltb = 0 ∧ State.reset.pwr.held = false

/-- For every state, reached or not, every step keeps the invariant: the Context Store, the cluster's memory and the
register map have one value for each byte and field in canonical form, the claim table has at most one holder for
each resource (R37), and a life-cycle change in progress does not go back (R304). -/
def Obligations.StepKeepsInv : Prop :=
  ∀ s u : State, s.Inv → step s = .next u → u.Inv

/-- Whatever the command, fuses go forward alone: from a state that meets the invariant no step lowers the life-cycle
state (R303, R304) or the anti-rollback counter (R402), and a signer hash 1 once programmed stays (R394). -/
def Obligations.FusesOnlyGoForward : Prop :=
  ∀ s u : State, s.Inv → step s = .next u →
    s.fuses.lcState ≤ u.fuses.lcState ∧ s.fuses.rollback ≤ u.fuses.rollback ∧
      ∀ x, s.fuses.signer1 = some x → u.fuses.signer1 = some x

/-- R42, R12. Nothing sets or steps the LTB: after every command but CHIP_RESET_RELEASE it stands at the later of
where it stood and the instant of the command; the release of a held chip reset, while PORn is not low and its
hold is over (R423, R424), and nothing else, starts it at 0. The instant is the model's operand of each command
(log 1). -/
def Obligations.TimeDoesNotGoBack : Prop :=
  ∀ (c : Instr) (s u : State), exec c s = .next u →
    ((∀ t, c ≠ .chipResetRelease t) → u.ltb = max s.ltb c.time) ∧ ∀ t, c = .chipResetRelease t →
      u.ltb = if s.pwr.held = true ∧ s.pwr.porLow = false ∧ holdOver (s.now t) = true then 0 else max s.ltb t

/-- R424, R425. While chip reset is held, every register of every block stays as the reset left it: a command outside
the reset domain (PORN_RISE, PORN_LOW, CHIP_RESET_RELEASE, the supply and temperature comparators, RAIL_FAIL,
D2D_LOSS, and the reset sources of the cycle in which the reset was asserted) changes nothing but the LTB. That
such a command is taken and has no effect is the model's reading (log 71). -/
def Obligations.HeldResetGates : Prop :=
  ∀ (c : Instr) (s u : State), s.pwr.held = true → exec c s = .next u → resetDomain c = false →
    u.fields = s.fields ∧ u.cnt = s.cnt ∧ u.hif = s.hif ∧ u.mbx = s.mbx ∧ u.out = [] ∧ ∀ p : Part, p.same s u

/-- R349, in each of its cases. A configuration from a master that is not secure is ignored and raises EV252; enabling
is refused, and enable reads back 0, where sender equals receiver, an end is above 4, an end is HOST on a secure
channel (0-15) or in standalone mode; writing enable 0 discards the messages of the channel, and of no other. -/
def Obligations.ChannelConfiguration : Prop :=
  ∀ (t : Nat) (m : Master) (n : Fin 32) (val : Word) (s : State), s.settled →
    (masterNow s m = m → (endpointOf m).2 = false →
      changes (.channelCfg t m n val) s [] [Reg.MBX_CNT_FOREIGN] [] (fun u => 252 ∈ u.hif.pend)) ∧
    (∀ (a c : Nat), masterNow s m = m → (endpointOf m).2 = true → s.get (Reg.MBX_CH_CFG_enable n) = 0 →
      bits val.toNat 0 1 = 1 → a = bits val.toNat 1 3 → c = bits val.toNat 4 3 → a = c ∨ 4 < a ∨ 4 < c ∨
      (a = 0 ∨ c = 0) ∧ (n.val < 16 ∨ s.get Reg.HIF_STATUS_standalone ≠ 0) →
      changes (.channelCfg t m n val) s [Reg.MBX_CH_CFG_sender n, Reg.MBX_CH_CFG_receiver n,
      Reg.MBX_CH_CFG_ev_en n] [] [] (fun u => u.get (Reg.MBX_CH_CFG_enable n) = 0)) ∧
    (masterNow s m = m → (endpointOf m).2 = true → bits val.toNat 0 1 = 0 →
      changes (.channelCfg t m n val) s [Reg.MBX_CH_CFG_enable n, Reg.MBX_CH_CFG_sender n, Reg.MBX_CH_CFG_receiver n,
      Reg.MBX_CH_CFG_ev_en n, Reg.MBX_CH_STAT_level n] [] [.mailboxes] (fun u => u.get (Reg.MBX_CH_CFG_enable n) = 0 ∧
      u.get (Reg.MBX_CH_STAT_level n) = 0 ∧ (chanOf u n).msgs = [] ∧ ∀ j, j ≠ n.val → chanOf u j = chanOf s j))

/-- R51, R40 and the register table of chapter 02. BAL_ENABLE starts the Balance in ACQUIRING at cycle 0, on the
nominal period, with the claim of the converter where GRID_AIN is in use and what the registers hold in force
(R9); BAL_DISABLE leaves it OFF with no cycle modelled, the converter free, every time trigger disarmed until its
target is committed again, and no receive occurrence open (R234); CYC_FORCE asks for a load at the next cycle
start; SNAP copies angle, LTB and PTP time at one instant. The model's choices here: what source_act reads before
the first lock and across a disable (log 43), and that an epoch boundary that a load jumps over is latched at the
load (log 94). -/
def Obligations.BalanceEnableCompletes : Prop :=
  ∀ (t : Nat) (s : State), s.settled →
    (s.get Reg.BAL_CTRL_enable = 0 → s.get Reg.BAL_STATUS_refclk_unlocked = 0 → (s.get Reg.BAL_GRID_CFG_source = 0 ∨
      claimFree s 0x0E 14 = true) → changes (.balEnable t) s [Reg.BAL_PERIOD_period, Reg.BAL_CTRL_enable,
      Reg.BAL_STATUS_state, Reg.BAL_STATUS_cyc_valid, Reg.BAL_STATUS_slewing, Reg.BAL_STATUS_freq_range_err,
      Reg.BAL_EPOCH_NUM_epoch_num] [] [.bal, .claims, .slp, .amc, .inForce] (fun u =>
      u.amc = { s.amc with ebDone := [] } ∧ u.get Reg.BAL_CTRL_enable = 1 ∧ u.get Reg.BAL_STATUS_state = 1 ∧
      u.get Reg.BAL_STATUS_cyc_valid = 0 ∧ u.get Reg.BAL_EPOCH_NUM_epoch_num = 0 ∧
      u.bal.cycles = [⟨0, (max s.ltb t : Nat), nominalNs s⟩] ∧ (s.get Reg.BAL_GRID_CFG_source ≠ 0 →
      tabGet u.claims 14 = some ⟨false, 0x0E⟩) ∧
      u.cur Reg.BAL_SITE_PHASE_site_phase = s.get Reg.BAL_SITE_PHASE_site_phase ∧
      u.cur Reg.BAL_EPOCH_LEN_epoch_len = s.get Reg.BAL_EPOCH_LEN_epoch_len)) ∧
    (s.get Reg.BAL_CTRL_enable ≠ 0 → changes (.balDisable t) s ([Reg.BAL_CTRL_enable, Reg.BAL_STATUS_state,
      Reg.BAL_STATUS_slewing] ++ (List.range 8).map Reg.BAL_TT_STAT_armed) [] [.bal, .claims, .esc] (fun u =>
      u.get Reg.BAL_CTRL_enable = 0 ∧ u.get Reg.BAL_STATUS_state = 0 ∧ u.bal.cycles = [] ∧ u.bal.stall = none ∧
      u.esc = { s.esc with open_ := [] } ∧ tabGet u.claims 14 ≠ some ⟨false, 0x0E⟩ ∧ ∀ n, n < 8 →
      u.get (Reg.BAL_TT_STAT_armed n) = 0 ∧ (u.ttOf n).committed = false)) ∧
    (s.get Reg.BAL_STATUS_state ≠ 0 → leadsTo (.cycForce t) s
      ((s.now t).onBal (fun b => { b with cycForce := true }))) ∧
    (changes (.snap t) s [Reg.BAL_SNAP_ANGLE_LO_angle_lo, Reg.BAL_SNAP_ANGLE_HI_angle_hi, Reg.BAL_SNAP_LTB_LO_ltb_lo,
      Reg.BAL_SNAP_LTB_HI_ltb_hi, Reg.BAL_SNAP_PTP_SEC_LO_sec_lo, Reg.BAL_SNAP_PTP_SEC_HI_sec_hi,
      Reg.BAL_SNAP_PTP_NS_ns] [] [] (fun u => u.get Reg.BAL_SNAP_ANGLE_LO_angle_lo = liveAngle (s.now t) % 2 ^ 32 ∧
      u.get Reg.BAL_SNAP_ANGLE_HI_angle_hi = liveAngle (s.now t) / 2 ^ 32 % 2 ^ 16 ∧
      u.get Reg.BAL_SNAP_LTB_LO_ltb_lo = max s.ltb t % 2 ^ 32 ∧
      u.get Reg.BAL_SNAP_LTB_HI_ltb_hi = max s.ltb t / 2 ^ 32 % 2 ^ 32 ∧
      u.get Reg.BAL_SNAP_PTP_SEC_LO_sec_lo = (ptpAt s (max s.ltb t)).1 % 2 ^ 32 ∧
      u.get Reg.BAL_SNAP_PTP_NS_ns = (ptpAt s (max s.ltb t)).2 % 2 ^ 30))

/-- R46, R47, R49, R52 and R48, R44. With the Balance LOCKED on GRID_ZC (or on GRID_AIN), a crossing in range and
within the window of the current cycle's start is accepted: it is counted, its error is in BAL_PHASE_ERR and no
cycle is missed; in range means that no crossing was accepted before or the interval from the last one lies in the
frequency range (R50). Not LOCKED, a crossing in range extends the set of consistent crossings, or begins it anew,
and is counted (R47); in LOCKED one outside the window is rejected and counted. CROSSING_MISSED counts one missed
cycle where the limit is not reached; CYCLE_START puts the next model cycle in front, with the length that the
loop found and the next count, or the count loaded, which CYC_FORCE asked for (R56). The model's choices here:
which input is tested and counted in AUTO and when AUTO changes (logs 43, 44, 92), a site_phase written before the
lock (log 45), the cycle-start work of logs 94 and 161, and that a steering update in HOLDOVER leaves slewing (log
304). -/
def Obligations.CrossingsComplete : Prop :=
  ∀ (t : Nat) (s : State) (c : Cycle) (r : List Cycle), s.settled → s.bal.cycles = c :: r →
    (∀ (rising : Bool) (e : Int), s.get Reg.BAL_STATUS_state = 2 → (s.get Reg.BAL_GRID_CFG_source = 0 ∨
      s.get Reg.BAL_GRID_CFG_source = 2 ∧ s.get Reg.BAL_STATUS_source_act = 0) →
      rising ≠ s.on Reg.BAL_GRID_CFG_zc_invert →
      inRange s s.bal.lastZc ((max s.ltb t : Nat) - (s.get Reg.BAL_ZC_DELAY_zc_delay : Int)) = true →
      e = (max s.ltb t : Nat) - (s.get Reg.BAL_ZC_DELAY_zc_delay : Int) - c.s → 2 * e ≤ c.len →
      e.natAbs ≤ s.get Reg.BAL_LOCK_CFG_window * 1000 →
      changes (.gridZcEdge t rising) s [Reg.BAL_STATUS_freq_range_err, Reg.BAL_PHASE_ERR_phase_err,
      Reg.BAL_PERIOD_period, Reg.BAL_STATUS_slewing] [Reg.BAL_CNT_ZC_ACC] [.bal, .inForce] (fun u =>
      u.cur Reg.BAL_SITE_PHASE_site_phase = s.get Reg.BAL_SITE_PHASE_site_phase ∧
      u.count Reg.BAL_CNT_ZC_ACC = (s.count Reg.BAL_CNT_ZC_ACC + 1) % 2 ^ 32 ∧ u.bal.miss = 0 ∧
      u.bal.accepted = some c.k ∧ u.bal.lastZc = some ((max s.ltb t : Nat) - (s.get Reg.BAL_ZC_DELAY_zc_delay : Int))
      ∧ u.get Reg.BAL_STATUS_freq_range_err = 0 ∧ u.get Reg.BAL_PHASE_ERR_phase_err = unsigned 32 e % 2 ^ 32)) ∧
    (∀ (t1 : Nat) (s1 s2 lo hi e : Int), s.get Reg.BAL_STATUS_state = 2 → (s.get Reg.BAL_GRID_CFG_source = 1 ∨
      s.get Reg.BAL_GRID_CFG_source = 2 ∧ s.get Reg.BAL_STATUS_source_act ≠ 0) →
      inRange s s.bal.lastAin (e + c.s) = true → s1 < 0 → 0 ≤ s2 → lo < -(s.get Reg.BAL_AIN_CFG_hyst : Int) →
      (s.get Reg.BAL_AIN_CFG_hyst : Int) < hi →
      e = (t1 : Int) + (-s1) * 10000 / (s2 - s1) - 12000 - (s.get Reg.BAL_ZC_DELAY_zc_delay : Int) - c.s →
      2 * e ≤ c.len → e.natAbs ≤ s.get Reg.BAL_LOCK_CFG_window * 1000 →
      changes (.gridAinCrossing t t1 s1 s2 lo hi) s [Reg.BAL_STATUS_freq_range_err, Reg.BAL_PHASE_ERR_phase_err,
      Reg.BAL_PERIOD_period, Reg.BAL_STATUS_slewing] [Reg.BAL_CNT_ZC_ACC] [.bal, .inForce] (fun u =>
      u.cur Reg.BAL_SITE_PHASE_site_phase = s.get Reg.BAL_SITE_PHASE_site_phase ∧
      u.count Reg.BAL_CNT_ZC_ACC = (s.count Reg.BAL_CNT_ZC_ACC + 1) % 2 ^ 32 ∧ u.bal.miss = 0 ∧
      u.bal.accepted = some c.k ∧ u.bal.lastAin = some (e + c.s) ∧ u.get Reg.BAL_STATUS_freq_range_err = 0 ∧
      u.get Reg.BAL_PHASE_ERR_phase_err = unsigned 32 e % 2 ^ 32)) ∧
    (∀ (rising : Bool) (z : Int), 1 ≤ s.get Reg.BAL_STATUS_state → s.get Reg.BAL_STATUS_state ≠ 2 →
      s.get Reg.BAL_GRID_CFG_source ≠ 1 → rising ≠ s.on Reg.BAL_GRID_CFG_zc_invert →
      z = (max s.ltb t : Nat) - (s.get Reg.BAL_ZC_DELAY_zc_delay : Int) → inRange s s.bal.lastZc z = true →
      2 * (z - c.s) ≤ c.len → (consistentSet s s.bal.setZc z).length < max 2 (s.get Reg.BAL_GRID_CFG_rl_count) →
      changes (.gridZcEdge t rising) s [Reg.BAL_STATUS_freq_range_err, Reg.BAL_PHASE_ERR_phase_err]
      [Reg.BAL_CNT_ZC_ACC] [.bal, .inForce] (fun u =>
      u.count Reg.BAL_CNT_ZC_ACC = (s.count Reg.BAL_CNT_ZC_ACC + 1) % 2 ^ 32 ∧ u.bal.lastZc = some z ∧
      u.bal.setZc = consistentSet s s.bal.setZc z ∧
      u.get Reg.BAL_PHASE_ERR_phase_err = unsigned 32 (z - c.s) % 2 ^ 32)) ∧
    (∀ (rising : Bool) (z : Int), s.get Reg.BAL_STATUS_state = 2 → s.get Reg.BAL_GRID_CFG_source = 0 →
      rising ≠ s.on Reg.BAL_GRID_CFG_zc_invert → z = (max s.ltb t : Nat) - (s.get Reg.BAL_ZC_DELAY_zc_delay : Int) →
      inRange s s.bal.lastZc z = true → 2 * (z - c.s) ≤ c.len →
      s.get Reg.BAL_LOCK_CFG_window * 1000 < (z - c.s).natAbs →
      changes (.gridZcEdge t rising) s [Reg.BAL_STATUS_freq_range_err] [Reg.BAL_CNT_ZC_REJ] [.bal] (fun u =>
      u.count Reg.BAL_CNT_ZC_REJ = (s.count Reg.BAL_CNT_ZC_REJ + 1) % 2 ^ 32 ∧ u.bal.accepted = s.bal.accepted)) ∧
    (s.get Reg.BAL_STATUS_state = 2 → s.bal.accepted ≠ some c.k → s.bal.missed ≠ some c.k →
      c.s + s.get Reg.BAL_LOCK_CFG_window * 1000 ≤ (max s.ltb t : Nat) →
      s.bal.miss + 1 < s.get Reg.BAL_GRID_CFG_miss_limit → leadsTo (.crossingMissed t) s ((s.now t).onBal (fun b =>
      { b with
        missed := some c.k, miss := b.miss + 1, ainAll := b.ainAll && b.ainSeen == some c.k }))) ∧
    (s.get Reg.BAL_STATUS_state = 2 → s.bal.stall = none → c.s + c.len ≤ (max s.ltb t : Nat) →
      s.bal.cycForce = false → changes (.cycleStart t) s [Reg.BAL_STATUS_slewing, Reg.BAL_STATUS_source_act,
      Reg.BAL_PERIOD_period] [] [.bal, .amc] (fun u => u.amc = (nbCycle (s.now t)).amc ∧
      u.bal.cycles = ⟨(c.k + 1) % 2 ^ 32, c.s + c.len, (newLength (s.now t) c.len).1⟩ :: (c :: r).take 15)) ∧
    (s.get Reg.BAL_STATUS_state = 2 → s.bal.stall = none → c.s + c.len ≤ (max s.ltb t : Nat) → s.bal.cycForce = true →
      changes (.cycleStart t) s [Reg.BAL_STATUS_slewing, Reg.BAL_STATUS_cyc_valid, Reg.BAL_STATUS_source_act,
      Reg.BAL_PERIOD_period] [Reg.AMC_CNT_EB_SKIP, Reg.ESC_CNT_SLOT_LATE] [.bal, .amc, .esc] (fun u =>
      u.bal.cycForce = false ∧ u.get Reg.BAL_STATUS_cyc_valid = 1 ∧ u.bal.cycles = ⟨s.get Reg.BAL_CYC_LOAD_cyc_load,
      c.s + c.len, (newLength (s.now t) c.len).1⟩ :: (c :: r).take 15))

/-- R53, R54 and R45. A decided step moves the angle forward and raises EV035; a decided stall holds the angle for its
length and raises EV036; at its end the cycle begins later by that length. TARGET_FIX fixes an armed trigger's
firing LTB, and the LTB of the epoch boundary, once the model is near enough. The events come as the shift starts
(log 90), and a step over a fixed epoch boundary latches it at the step (log 46): the model's choices. -/
def Obligations.PhaseCompletes : Prop :=
  ∀ (t : Nat) (s : State), s.settled → s.get Reg.BAL_STATUS_state ≠ 0 →
    (∀ (due : Nat) (e : Int) (c : Cycle) (r : List Cycle), s.bal.decision = some (due, e) → s.bal.cycles = c :: r →
      due ≤ max s.ltb t → e < 0 → changes (.phaseStep t) s [] [Reg.AMC_CNT_EB_SKIP, Reg.ESC_CNT_SLOT_LATE]
      [.bal, .amc, .esc] (fun u => u.bal.cycles = { c with s := c.s + e } :: r ∧ u.bal.decision = none ∧
      35 ∈ u.hif.pend)) ∧
    (∀ (due : Nat) (e : Int), s.bal.decision = some (due, e) → due ≤ max s.ltb t → 0 < e →
      changes (.stallStart t) s [] [] [.bal] (fun u =>
      u.bal.stall = some (max s.ltb t + e.toNat, liveAngle (s.now t), e.toNat) ∧ u.bal.decision = none ∧
      36 ∈ u.hif.pend)) ∧
    (∀ (due angle len : Nat) (c : Cycle) (r : List Cycle), s.bal.stall = some (due, angle, len) →
      s.bal.cycles = c :: r → due ≤ max s.ltb t → leadsTo (.stallEnd t) s ((s.now t).keepMapping.onBal (fun b =>
      { b with
        stall := none, floor := angle, cycles := { c with s := c.s + len } :: r }))) ∧
    (∀ (n : Fin 8), s.get (Reg.BAL_TT_STAT_armed n) ≠ 0 → (s.ttOf n).fixed = none →
      targetNear (s.now t) (s.ttOf n).target (s.get (Reg.BAL_TT_CTRL_lead n)) = true →
      leadsTo (.targetFix t (.tt n)) s ((s.now t).setTt n { s.ttOf n with
        fixed := some (ltbOf (s.now t) (s.ttOf n).target - s.get (Reg.BAL_TT_CTRL_lead n)).toNat })) ∧
    (∀ (c : Cycle) (r : List Cycle) (m : Nat), s.bal.cycles = c :: r → s.bal.epochFixed = none →
      m = nextEpochCycle s (liveAngle (s.now t) / 65536) → targetNear (s.now t) (m * 65536) 0 = true →
      leadsTo (.targetFix t .epoch) s ((s.now t).onBal (fun b => { b with
        epochFixed := some ((ltbOf (s.now t) (m * 65536)).toNat, m) })))

/-- R37, R40, R65 and R66. TT_ENABLE claims the unit and its ball together (and the converter for action 6), drives
the ball and arms the target that is committed, where one is (of a one-shot firing's used target that is the
model's choice, log 42; of one committed while the Balance was OFF, log 303); TT_DISABLE returns the ball to high
impedance, frees them, ends the unit's pulse and leaves no target fixed; TT_COMMIT takes the target and arms an
enabled trigger; a trigger that is due acts, and then disarms or goes on by its period; a late one of late_pol 1
is suppressed; a pulse ends with the ball's other level; a burst leaves its samples in the buffer. Also the
model's choices: a written en arms a committed target (log 93), and an advanced target is tested for lateness
again (log 41). -/
def Obligations.TimeTriggersComplete : Prop :=
  ∀ (t : Nat) (s : State) (n : Fin 8), s.settled →
    (s.get (Reg.BAL_TT_CTRL_en n) = 0 → s.get (Reg.BAL_TT_CTRL_action n) < 6 → claimFree s (n + 1) n = true →
      claimFree s (n + 1) (ttBallRes s n) = true →
      changes (.ttEnable t n) s [Reg.BAL_TT_CTRL_en n, Reg.BAL_TT_STAT_armed n] [] [.bal, .claims, .pins] (fun u =>
      u.get (Reg.BAL_TT_CTRL_en n) = 1 ∧ tabGet u.claims (ttBallRes s n) = some ⟨false, n + 1⟩ ∧
      tabGet u.claims n = some ⟨false, n + 1⟩ ∧ (∀ k, k ≠ n.val → u.ttOf k = s.ttOf k) ∧
      (if (s.ttOf n).committed = true ∧ s.get Reg.BAL_STATUS_state ≠ 0 then u.get (Reg.BAL_TT_STAT_armed n) = 1 ∧
      u.ttOf n = (if targetLate (s.now t) (s.ttOf n).target (s.get (Reg.BAL_TT_CTRL_lead n)) = true then
      { s.ttOf n with fixed := some (max s.ltb t), late := true } else { s.ttOf n with fixed := none, late := false })
      else u.get (Reg.BAL_TT_STAT_armed n) = s.get (Reg.BAL_TT_STAT_armed n) ∧ u.ttOf n = s.ttOf n) ∧
      u.level (ttBall s n) = some (s.get (Reg.BAL_TT_CTRL_action n) == 2 || s.get (Reg.BAL_TT_CTRL_action n) == 5))) ∧
    (s.get (Reg.BAL_TT_CTRL_en n) = 0 → s.get (Reg.BAL_TT_CTRL_action n) = 6 → claimFree s (n + 1) n = true →
      claimFree s (n + 1) (ttBallRes s n) = true → claimFree s 0x0F 14 = true →
      changes (.ttEnable t n) s [Reg.BAL_TT_CTRL_en n, Reg.BAL_TT_STAT_armed n] [] [.bal, .claims, .pins] (fun u =>
      u.get (Reg.BAL_TT_CTRL_en n) = 1 ∧ tabGet u.claims 14 = some ⟨false, 0x0F⟩ ∧
      tabGet u.claims (ttBallRes s n) = some ⟨false, n + 1⟩ ∧ tabGet u.claims n = some ⟨false, n + 1⟩ ∧
      (∀ k, k ≠ n.val → u.ttOf k = s.ttOf k) ∧ (if (s.ttOf n).committed = true ∧
      s.get Reg.BAL_STATUS_state ≠ 0 then u.get (Reg.BAL_TT_STAT_armed n) = 1 ∧
      u.ttOf n = (if targetLate (s.now t) (s.ttOf n).target (s.get (Reg.BAL_TT_CTRL_lead n)) = true then
      { s.ttOf n with
        fixed := some (max s.ltb t), late := true,
        conv := true } else { s.ttOf n with fixed := none, late := false, conv := true }) else u.get
      (Reg.BAL_TT_STAT_armed n) = s.get (Reg.BAL_TT_STAT_armed n) ∧ u.ttOf n = { s.ttOf n with conv := true }) ∧
      u.level (ttBall s n) = some false)) ∧
    (s.get (Reg.BAL_TT_CTRL_en n) ≠ 0 → changes (.ttDisable t n) s [Reg.BAL_TT_CTRL_en n, Reg.BAL_TT_STAT_armed n] []
      [.bal, .claims, .pins] (fun u => u.get (Reg.BAL_TT_CTRL_en n) = 0 ∧ u.get (Reg.BAL_TT_STAT_armed n) = 0 ∧
      u.level (ttBall s n) = none ∧ u.ttOf n = { s.ttOf n with
        fixed := none, late := false, pulseEnd := none, conv := false } ∧ (∀ k, k ≠ n.val → u.ttOf k = s.ttOf k) ∧
      tabGet u.claims n ≠ some ⟨false, n + 1⟩ ∧ tabGet u.claims (ttBallRes s n) ≠ some ⟨false, n + 1⟩ ∧
      (s.bal.burst = none → (∀ k, k < 8 → k ≠ n.val → (s.ttOf k).conv = false) →
      tabGet u.claims 14 ≠ some ⟨false, 0x0F⟩))) ∧
    (∀ (hi : BitVec 16), s.get (Reg.BAL_TT_CTRL_en n) = 0 →
      leadsTo (.ttCommit t n hi) s (((s.now t).set (Reg.BAL_TT_ANG_HI_ang_hi n) hi.toNat).setTt n { s.ttOf n with
        target := hi.toNat * 2 ^ 32 + s.get (Reg.BAL_TT_ANG_LO_ang_lo n), committed := true })) ∧
    (∀ (hi : BitVec 16), s.get (Reg.BAL_TT_CTRL_en n) ≠ 0 → s.get Reg.BAL_STATUS_state ≠ 0 →
      changes (.ttCommit t n hi) s [Reg.BAL_TT_ANG_HI_ang_hi n, Reg.BAL_TT_STAT_armed n] [] [.bal] (fun u =>
      u.get (Reg.BAL_TT_STAT_armed n) = 1 ∧ (u.ttOf n).committed = true ∧
      (u.ttOf n).target = hi.toNat * 2 ^ 32 + s.get (Reg.BAL_TT_ANG_LO_ang_lo n))) ∧
    (∀ (f a : Nat), s.get (Reg.BAL_TT_STAT_armed n) ≠ 0 → (s.ttOf n).fixed = some f → f ≤ max s.ltb t →
      (s.ttOf n).late = false → (s.get (Reg.BAL_TT_CTRL_hold_gate n) = 0 ∨ s.get Reg.BAL_STATUS_state = 2) →
      a = s.get (Reg.BAL_TT_CTRL_action n) → 1 ≤ a → a ≤ 5 →
      changes (.ttFiring t n) s [Reg.BAL_TT_STAT_armed n] [] [.bal, .pins] (fun u =>
      u.level (ttBall s n) = some (if a = 3 then !(s.level (ttBall s n)).getD false else a % 3 == 1) ∧
      (u.ttOf n).pulseEnd = (if 4 ≤ a then some (max s.ltb t + s.get (Reg.BAL_TT_WIDTH_width n) * 1000) else none) ∧
      (if s.get (Reg.BAL_TT_PER_period n) = 0 then u.get (Reg.BAL_TT_STAT_armed n) = 0 else (u.ttOf n).target =
      ((s.ttOf n).target + s.get (Reg.BAL_TT_PER_period n)) % angleMod) ∧
      (s.get (Reg.BAL_TT_CTRL_ev_en n) ≠ 0 → 41 ∈ u.hif.pend))) ∧
    (∀ (f : Nat), s.get (Reg.BAL_TT_STAT_armed n) ≠ 0 → (s.ttOf n).fixed = some f → f ≤ max s.ltb t →
      (s.ttOf n).late = false → s.get (Reg.BAL_TT_CTRL_hold_gate n) = 0 → s.get (Reg.BAL_TT_CTRL_action n) = 6 →
      s.bal.burst = none → changes (.ttFiring t n) s [Reg.BAL_TT_STAT_armed n] [] [.bal] (fun u =>
      u.bal.burst = some (n.val, min 1024 (s.get (Reg.BAL_TT_WIDTH_width n))))) ∧
    (∀ (f : Nat), s.get (Reg.BAL_TT_STAT_armed n) ≠ 0 → (s.ttOf n).fixed = some f → f ≤ max s.ltb t →
      (s.ttOf n).late = true → s.get (Reg.BAL_TT_CTRL_late_pol n) ≠ 0 →
      changes (.ttFiring t n) s [Reg.BAL_TT_STAT_armed n, Reg.BAL_TT_STAT_late n] [Reg.BAL_CNT_TT_LATE] [.bal] (fun u
      => u.get (Reg.BAL_TT_STAT_late n) = 1 ∧ u.count Reg.BAL_CNT_TT_LATE = (s.count Reg.BAL_CNT_TT_LATE + 1) % 2 ^ 32
      ∧ 42 ∈ u.hif.pend)) ∧
    (∀ (e : Nat), (s.ttOf n).pulseEnd = some e → e ≤ max s.ltb t →
      leadsTo (.ttPulseEnd t n) s (((s.now t).setTt n { s.ttOf n with pulseEnd := none }).drive (ttBall s n)
      (!((s.level (ttBall s n)).getD false)))) ∧
    (∀ (l : List (BitVec 12)) (width : Nat), s.bal.burst = some (n.val, width) → width ≤ 1024 →
      changes (.burstDone t l) s (Reg.BAL_TT_STAT_burst_done n :: (List.range 1024).map Reg.BAL_SAMPLE_sample) []
      [.bal, .claims] (fun u => u.bal.burst = none ∧ u.get (Reg.BAL_TT_STAT_burst_done n) = 1 ∧ ∀ i, i < width →
      i < l.length → u.get (Reg.BAL_SAMPLE_sample i) = (l.getD i 0).toNat))

/-- R67, R68 and R69. TCI_ENABLE claims its input; an edge of the chosen kind enters the capture FIFO with its LTB and
angle; POP takes the oldest; a comparator that firmware has claimed is enabled, takes its 64-bit target, and fires
once the LTB has reached it. The model's choices here: what the refusal of en without a holder records (log 47),
and how far back an edge is converted by an earlier mapping (log 40). -/
def Obligations.CaptureAndCompareComplete : Prop :=
  ∀ (t : Nat) (s : State) (n : Fin 4), s.settled →
    (s.get (Reg.BAL_TCI_CTRL_en n) = 0 → claimFree s (0x0A + n) (9 + n) = true →
      changes (.tciEnable t n) s [Reg.BAL_TCI_CTRL_en n] [] [.claims] (fun u => u.get (Reg.BAL_TCI_CTRL_en n) = 1 ∧
      tabGet u.claims (9 + n) = some ⟨false, 0x0A + n⟩)) ∧
    (∀ (rising : Bool) (width : Nat), s.get (Reg.BAL_TCI_CTRL_en n) ≠ 0 → (s.get (Reg.BAL_TCI_CTRL_edge n) = 3 ∨
      s.get (Reg.BAL_TCI_CTRL_edge n) = if rising then 1 else 2) → s.get (Reg.BAL_TCI_CTRL_filter n) * 4 ≤ width →
      (tabGetD s.bal.tci n []).length < 4 → rising = false ∨ s.get Reg.PWR_STATUS_state ≠ 2 →
      changes (.tciEdge t n rising width) s [] [] [.bal] (fun u =>
      tabGetD u.bal.tci n [] = tabGetD s.bal.tci n [] ++ [⟨max s.ltb t, angleAt (s.now t) (max s.ltb t), rising⟩] ∧
      (s.get (Reg.BAL_TCI_CTRL_ev_en n) ≠ 0 → 43 ∈ u.hif.pend))) ∧
    (∀ (rising : Bool) (width : Nat), s.get (Reg.BAL_TCI_CTRL_en n) ≠ 0 → (s.get (Reg.BAL_TCI_CTRL_edge n) = 3 ∨
      s.get (Reg.BAL_TCI_CTRL_edge n) = if rising then 1 else 2) → s.get (Reg.BAL_TCI_CTRL_filter n) * 4 ≤ width →
      4 ≤ (tabGetD s.bal.tci n []).length → rising = false ∨ s.get Reg.PWR_STATUS_state ≠ 2 →
      changes (.tciEdge t n rising width) s [Reg.BAL_TCI_STAT_overrun n] [] [] (fun u =>
      u.get (Reg.BAL_TCI_STAT_overrun n) = 1 ∧ 44 ∈ u.hif.pend)) ∧
    (leadsTo (.pop t n) s ((s.now t).onBal (fun b =>
      { b with tci := tabPut b.tci n ((tabGetD b.tci n []).drop 1) }))) ∧
    (∀ (k : Fin 16) (owner : Nat), tabGet s.claims (16 + k) = some ⟨true, owner⟩ → s.get (Reg.BAL_CMP_CTRL_en k) = 0 →
      leadsTo (.cmpEnable t k) s ((s.now t).set (Reg.BAL_CMP_CTRL_en k) 1)) ∧
    (∀ (k : Fin 16) (owner : Nat) (hi : Word), tabGet s.claims (16 + k) = some ⟨true, owner⟩ →
      s.get (Reg.BAL_CMP_CTRL_en k) ≠ 0 → max s.ltb t < hi.toNat * 2 ^ 32 + s.get (Reg.BAL_CMP_LO_tgt_lo k) →
      changes (.cmpCommit t k hi) s [Reg.BAL_CMP_HI_tgt_hi k, Reg.BAL_CMP_CTRL_armed k] [] [.bal] (fun u =>
      u.get (Reg.BAL_CMP_CTRL_armed k) = 1 ∧ cmpTarget u k = hi.toNat * 2 ^ 32 + s.get (Reg.BAL_CMP_LO_tgt_lo k))) ∧
    (∀ (k : Fin 16) (owner : Nat) (hi : Word), tabGet s.claims (16 + k) = some ⟨true, owner⟩ →
      s.get (Reg.BAL_CMP_CTRL_en k) ≠ 0 → hi.toNat * 2 ^ 32 + s.get (Reg.BAL_CMP_LO_tgt_lo k) ≤ max s.ltb t →
      changes (.cmpCommit t k hi) s [Reg.BAL_CMP_HI_tgt_hi k, Reg.BAL_CMP_CTRL_armed k, Reg.BAL_CMP_CTRL_late k,
      Reg.BAL_CMP_CTRL_fired k] [] [.bal] (fun u => u.get (Reg.BAL_CMP_CTRL_late k) = 1 ∧
      u.get (Reg.BAL_CMP_CTRL_fired k) = 1)) ∧
    (∀ (k : Fin 16), s.get (Reg.BAL_CMP_CTRL_armed k) ≠ 0 → cmpTarget s k ≤ max s.ltb t →
      changes (.cmpFire t k) s [Reg.BAL_CMP_CTRL_fired k, Reg.BAL_CMP_CTRL_armed k] [] [.bal] (fun u =>
      u.get (Reg.BAL_CMP_CTRL_fired k) = 1 ∧ (if s.get (Reg.BAL_CMP_PER_period k) = 0 then u.get
      (Reg.BAL_CMP_CTRL_armed k) = 0 else cmpTarget u k = (cmpTarget s k + s.get (Reg.BAL_CMP_PER_period k)) % 2 ^ 64)
      ∧ (s.get (Reg.BAL_CMP_CTRL_ev_en k) ≠ 0 → 39 ∈ u.hif.pend)))

/-- R62 and R63. PTP_SET and PTP_ADJ rebase the PTP clock at the instant of the command and raise EV048; the pulse per
second is driven on PPS_OUT while it is enabled; an edge at PPS_IN leaves its LTB and its PTP nanoseconds; 1.5 s
without one raise EV046. -/
def Obligations.PtpAndPpsComplete : Prop :=
  ∀ (t : Nat) (s : State), s.settled →
    (∀ (ns : BitVec 30), changes (.ptpSet t ns) s [] [] [.bal] (fun u => u.bal.ptpNs = ns.toNat ∧
      u.bal.ptpLtb = max s.ltb t ∧ u.bal.ptpSec = s.get Reg.BAL_PTP_SET_SEC_HI_set_sec_hi * 2 ^ 32 + s.get
      Reg.BAL_PTP_SET_SEC_LO_set_sec_lo ∧ 48 ∈ u.hif.pend)) ∧
    (∀ (adj : Word), changes (.ptpAdj t adj) s [] [] [.bal] (fun u => u.bal.ptpLtb = max s.ltb t ∧ 48 ∈ u.hif.pend ∧
      (u.bal.ptpNs : Int) = ((ptpAt s (max s.ltb t)).2 + adj.toInt) % 1000000000)) ∧
    (s.get Reg.BAL_PTP_CTRL_pps_out_en = 0 → claimFree s 0x09 13 = true →
      changes (.ppsOutEnable t) s [Reg.BAL_PTP_CTRL_pps_out_en] [] [.bal, .claims, .pins] (fun u =>
      u.get Reg.BAL_PTP_CTRL_pps_out_en = 1 ∧ u.level .ppsOut = some false ∧
      tabGet u.claims 13 = some ⟨false, 0x09⟩)) ∧
    (s.get Reg.BAL_PTP_CTRL_pps_out_en ≠ 0 → (ptpAt s (max s.ltb t)).1 ≠ s.bal.ppsSec →
      leadsTo (.ppsPulse t) s (((s.now t).drive .ppsOut true).onBal (fun b => { b with
        ppsSec := (ptpAt s (max s.ltb t)).1,
        ppsPulseEnd := some (max s.ltb t + s.get Reg.BAL_PTP_CTRL_pps_width * 1000000) }))) ∧
    (∀ (e : Nat), s.bal.ppsPulseEnd = some e → e ≤ max s.ltb t →
      leadsTo (.ppsPulseEnd t) s (((s.now t).drive .ppsOut false).onBal (fun b => { b with ppsPulseEnd := none }))) ∧
    (s.get Reg.BAL_PTP_CTRL_pps_in_en ≠ 0 → changes (.ppsInEdge t) s [Reg.BAL_PPS_IN_LTB_LO_ltb_lo,
      Reg.BAL_PPS_IN_LTB_HI_ltb_hi, Reg.BAL_PPS_IN_NS_ns] [] [.bal] (fun u =>
      u.get Reg.BAL_PPS_IN_LTB_LO_ltb_lo = max s.ltb t % 2 ^ 32 ∧
      u.get Reg.BAL_PPS_IN_NS_ns = (ptpAt s (max s.ltb t)).2 % 2 ^ 30 ∧ u.bal.ppsInLast = some (max s.ltb t))) ∧
    (∀ (l : Nat), s.bal.ppsInLast = some l → s.get Reg.BAL_PTP_CTRL_pps_in_en ≠ 0 → l + 1500000000 ≤ max s.ltb t →
      changes (.ppsInMissing t) s [] [] [.bal] (fun u => u.bal.ppsInLast = none ∧ 46 ∈ u.hif.pend))

/-- R70 and R207, R433. At an epoch boundary every statistics counter passes its value to its shadow and restarts,
EV040 is raised, BAL_EPOCH_NUM advances and the epochs of the fault classifier go on. (The counters are said where
no lane, queue or twin stall has anything of its own to do at the boundary, the rest for every state.) The model's
choices here: the order of what happens at the boundary (log 283), and the classifier's epoch (log 230). -/
def Obligations.EpochCompletes : Prop :=
  ∀ (t k : Nat) (s : State), s.settled →
    (epochDue (s.now t) = some k → s.lanes = [] → s.esc.sub = [] → s.esc.queue = [] → s.twn.stall = none →
      s.ctx.stall = none → completes (.statisticsEpoch t) s (fun u => (∀ c, c ∉ reportCounts →
      tabGetD u.cntLast c 0 = s.count c ∧ u.count c = 0) ∧
      u.get Reg.BAL_EPOCH_NUM_epoch_num = (s.get Reg.BAL_EPOCH_NUM_epoch_num + 1) % 2 ^ 32 ∧
      u.get Reg.BAL_EPOCH_STAT_unread = 1 ∧ 40 ∈ u.hif.pend ∧ u.bal.epochLast = k ∧ u.pwr.epoch = s.pwr.epoch + 1)) ∧
    (epochDue (s.begin t) = some k → completes (.statisticsEpoch t) s (fun u =>
      u.get Reg.BAL_EPOCH_NUM_epoch_num = (s.get Reg.BAL_EPOCH_NUM_epoch_num + 1) % 2 ^ 32 ∧
      (s.get Reg.BAL_EPOCH_STAT_unread ≠ 0 → u.get Reg.BAL_EPOCH_STAT_overrun = 1) ∧
      u.get Reg.BAL_EPOCH_STAT_unread = 1 ∧ 40 ∈ u.hif.pend ∧ u.bal.epochLast = k))

/-- R5 first sentence, R6, R7, R9 and R34. A write of an aligned word answers without an error and, in a register
without an action, leaves the written value in its RW fields and nothing else. That is said of every register of
RFX, SIC, PHY, SLP and TWN without an action (all but their enables, RFX_CTRL, SIC_SLOT_CMD, PHY_AT_QUERY,
PHY_PROF_CTRLk, SLP_QUERY), row by row of the register tables: an RW field takes its bits, inside the range that
the table gives (clamped, or the write ignored), unless a lock holds it (R9); one whose write waits for a boundary
shows the new value and stays in force with the old (R9); a W1C bit is cleared by a 1; RO and WO fields, reserved
bits and other registers stay. The further clauses are BAL_PTP_SET_SEC_LO, which takes the word, BAL_GRID_CFG, its
fields but those that a running Balance locks, an RO register and an undefined offset nothing, and GLB_CLAIM_ERR's
W1C bit. R5, second sentence. A narrower or unaligned access of BAR0 completes: its whole effect is the
unsupported-request response, and it changes no register. R346: the row also stands for the cores' accesses by
physical address; a read of core SRAM or LPDDR4X answers the octets there, a write puts them there and nowhere
else, and an access outside the map completes with a bus error. (Of an aligned word of BAR0 the row changes
nothing, for the model's REGISTER_WRITE stands for that: log 324 says what the row stands for.) The model's
choices here: several actions of one word (log 82), which master an access has after handed_over (log 85), a
denied write to an undefined offset (log 62), the contents of the ROM, the flash and the memory of the cores (logs
323, 324), and the free values that a read draws (log 2). -/
def Obligations.RegisterAccessCompletes : Prop :=
  ∀ (t : Nat) (m : Master) (val : Word) (reads : BusReads) (s : State), s.settled →
    (∀ (off : Nat), (m = .host → s.get Reg.PWR_STATUS_state ≠ 2) → (m = .host ∨ reads.core = none) →
      off / 0x10000 ∈ [3, 4, 6, 8, 10, 20] → off % 4 = 0 → ¬ off ∈ [0x30000, 0x40000, 0x60000, 0x80010, 0xa0000,
      0xa0020, 0x140000] → (∀ k : Fin 32, off ≠ 0x80100 + 0x20 * k) → (∀ k : Fin 4, off ≠ 0x60110 + 0x100 * k) →
      changes (.registerWrite t m off val reads) s (writtenFields off) [] [.inForce] (fun u => u.resp = .ok ∧
      ∀ r ∈ blockRows off, ∀ e ∈ rowAt r off, u.get (r.fld e.1 e.2) = writtenValue s val.toNat r e.1 e.2 ∧
      (r.defer = true → u.cur (r.fld e.1 e.2) = s.cur (r.fld e.1 e.2)))) ∧
    ((m = .host → s.get Reg.PWR_STATUS_state ≠ 2) → (m = .host ∨ reads.core = none) →
      changes (.registerWrite t m 0x20068 val reads) s [Reg.BAL_PTP_SET_SEC_LO_set_sec_lo] [] [] (fun u =>
      u.resp = .ok ∧ u.get Reg.BAL_PTP_SET_SEC_LO_set_sec_lo = val.toNat)) ∧
    ((m = .host → s.get Reg.PWR_STATUS_state ≠ 2) → (m = .host ∨ reads.core = none) → s.get Reg.BAL_CTRL_enable ≠ 0 →
      changes (.registerWrite t m 0x20008 val reads) s [Reg.BAL_GRID_CFG_rl_count, Reg.BAL_GRID_CFG_miss_limit,
      Reg.BAL_GRID_CFG_lock_count, Reg.BAL_GRID_CFG_hold_safe] [] [] (fun u => u.resp = .ok ∧
      u.get Reg.BAL_GRID_CFG_miss_limit = bits val.toNat Reg.BAL_GRID_CFG_miss_limit.lo
      Reg.BAL_GRID_CFG_miss_limit.w)) ∧
    ((m = .host → s.get Reg.PWR_STATUS_state ≠ 2) → (m = .host ∨ reads.core = none) →
      changes (.registerWrite t m 0 val reads) s [] [] [] (fun u => u.resp = .ok)) ∧
    (∀ (off : Nat), (m = .host → s.get Reg.PWR_STATUS_state ≠ 2) → (m = .host ∨ reads.core = none) → 0x170000 ≤ off →
      changes (.registerWrite t m off val reads) s [] [] [] (fun u => u.resp = .ok)) ∧
    ((m = .host → s.get Reg.PWR_STATUS_state ≠ 2) → (m = .host ∨ reads.core = none) →
      changes (.registerWrite t m 0x14 val reads) s [Reg.GLB_CLAIM_ERR_logged] [] [] (fun u => u.resp = .ok ∧
      u.get Reg.GLB_CLAIM_ERR_logged = if val.toNat < 2 ^ 31 then s.get Reg.GLB_CLAIM_ERR_logged else 0)) ∧
    (∀ (off : Nat) (octets : Nat) (write : Bool), octets ≠ 4 ∨ off % 4 ≠ 0 →
      leadsTo (.unsupportedAccess t m off octets (.bar0 write)) s { s.now t with resp := .unsupportedRequest }) ∧
    (∀ (off : Nat) (octets : Nat) (write : Bool), octets = 4 → off % 4 = 0 →
      leadsTo (.unsupportedAccess t m off octets (.bar0 write)) s (s.now t)) ∧
    (∀ (off : Nat) (octets : Nat) (a o : Nat), m ≠ .host → coreReach s a = .sram o ∨ coreReach s a = .dram o →
      leadsTo (.unsupportedAccess t m off octets (.core a none)) s { s.now t with
        resp := .value (BitVec.ofNat 32 (ofLe ((List.range octets).map (fun i => cellRead s.hif.mem (a + i))))) }) ∧
    (∀ (off : Nat) (octets : Nat) (a o : Nat) (l : List Byte), m ≠ .host → coreReach s a = .sram o ∨
      coreReach s a = .dram o → l.length = octets → s.memOk → s.hostRings →
      changes (.unsupportedAccess t m off octets (.core a (some l))) s [] [] [.cluster] (fun u => u.resp = .ok ∧
      (∀ i (h : i < l.length), cellRead u.hif.mem (a + i) = l[i]) ∧ ∀ x, x < a ∨ a + octets ≤ x →
      cellRead u.hif.mem x = cellRead s.hif.mem x)) ∧
    (∀ (off : Nat) (octets : Nat) (a : Nat) (d : Option (List Byte)), m ≠ .host → coreMap a = .busError →
      leadsTo (.unsupportedAccess t m off octets (.core a d)) s { s.now t with resp := .busError })

/-- R463, for the commands CLAIM, RELEASE and QUERY and for the register write that spells them, in every case of the
rule. The operands are tested in the order of R463 and the first code that applies is returned; holder and
holder_fw then show the holder as it stands. Only a successful claim or release changes the claim table; the
release of a comparator clears its en and armed bits (R69). Nothing else changes. The clause for op 0 is the
model's choice (log 36): a write with op 0 stores its two RW fields and does nothing else, where R463 says that op
0 is ignored and changes nothing. -/
def Obligations.FirmwareClaimsComplete : Prop :=
  ∀ (t : Nat) (m : Master) (op : Nat) (r : BitVec 6) (o : BitVec 8) (val : Word) (reads : BusReads) (c : Instr)
    (s : State), s.settled →
    (m = .host → s.get Reg.PWR_STATUS_state ≠ 2) →
    (m = .host ∨ reads.core = none) →
    bits val.toNat 0 6 = r.toNat →
    bits val.toNat 8 8 = o.toNat →
    bits val.toNat 16 2 = op →
    c ∈ Instr.registerWrite t m 0x10 val reads ::
      (if op = 1 then [.claim t r o] else if op = 2 then [.release t r o] else if op = 3 then [.query t r o] else []) →
    (op = 0 → changes c s [Reg.GLB_CLAIM_CMD_resource, Reg.GLB_CLAIM_CMD_owner] [] [] (fun u =>
      u.get Reg.GLB_CLAIM_CMD_resource = r.toNat ∧ u.get Reg.GLB_CLAIM_CMD_owner = o.toNat)) ∧
    (op ≠ 0 → changes c s ([Reg.GLB_CLAIM_CMD_resource, Reg.GLB_CLAIM_CMD_owner, Reg.GLB_CLAIM_CMD_result,
        Reg.GLB_CLAIM_CMD_holder, Reg.GLB_CLAIM_CMD_holder_fw] ++
        if op = 2 ∧ 16 ≤ r.toNat ∧ r.toNat ≤ 31 ∧ tabGet s.claims r.toNat = some ⟨true, o.toNat⟩ then
          [Reg.BAL_CMP_CTRL_en (r.toNat - 16), Reg.BAL_CMP_CTRL_armed (r.toNat - 16)] else [])
        [] [.claims] (fun u =>
      u.get Reg.GLB_CLAIM_CMD_resource = r.toNat ∧ u.get Reg.GLB_CLAIM_CMD_owner = o.toNat ∧
      u.get Reg.GLB_CLAIM_CMD_holder = (tabGetD u.claims r.toNat ⟨false, 0⟩).id % 256 ∧
      u.get Reg.GLB_CLAIM_CMD_holder_fw = (tabGetD u.claims r.toNat ⟨false, 0⟩).fw.toNat ∧
      (∀ k, k ≠ r.toNat → tabGet u.claims k = tabGet s.claims k) ∧
      if 39 < r.toNat ∨ r.toNat = 15 then
        u.get Reg.GLB_CLAIM_CMD_result = 2 ∧ u.claims = s.claims
      else if op ≠ 3 ∧ (o = 0 ∨ o = 0xFF) then
        u.get Reg.GLB_CLAIM_CMD_result = 4 ∧ u.claims = s.claims
      else if op = 3 then u.get Reg.GLB_CLAIM_CMD_result = 0 ∧ u.claims = s.claims
      else if op = 1 then
        if tabGet s.claims r.toNat = none ∨ tabGet s.claims r.toNat = some ⟨true, o.toNat⟩ then
          u.get Reg.GLB_CLAIM_CMD_result = 0 ∧ tabGet u.claims r.toNat = some ⟨true, o.toNat⟩
        else u.get Reg.GLB_CLAIM_CMD_result = 1 ∧ u.claims = s.claims
      else if tabGet s.claims r.toNat = none then
        u.get Reg.GLB_CLAIM_CMD_result = 0 ∧ u.claims = s.claims
      else if tabGet s.claims r.toNat = some ⟨true, o.toNat⟩ then
        u.get Reg.GLB_CLAIM_CMD_result = 0 ∧ tabGet u.claims r.toNat = none ∧
        (16 ≤ r.toNat ∧ r.toNat ≤ 31 →
          u.get (Reg.BAL_CMP_CTRL_en (r.toNat - 16)) = 0 ∧ u.get (Reg.BAL_CMP_CTRL_armed (r.toNat - 16)) = 0)
      else u.get Reg.GLB_CLAIM_CMD_result = 3 ∧ u.claims = s.claims))

/-- R175, R20 steps 3 and 5, R25, R176. A data frame record for this site, with a tag and receive buffers free, takes
a tag: its flight waits for step 5 with the record's octets, and its buffers leave pool 0; an acknowledgement that
it asks for is requested. A record while AMC is disabled is counted in AMC_CNT_RX_OFF, one that is not for this
site or that is no frame in AMC_CNT_ADDR_DROP, and neither goes further. Each holds whatever entries of the Node
Table fail parity when they are read. The model's choices here: the lookup of a frame refused a tag (log 61), and
an EBR's answer (logs 127, 316). -/
def Obligations.FrameRecordCompletes : Prop :=
  ∀ (t : Nat) (n : Fin 128) (upset : List Nat) (r : LaneRec) (l : List LaneRec) (s : State), s.settled →
    s.laneRecs = r :: l → r.lane = n →
    (∀ (m : Mhr) (tag : Nat), s.get Reg.AMC_CTRL_enable ≠ 0 → parseMhr r.psdu = some m → m.type = 1 → m.ver ≤ 2 →
      addressed s m = true → m.sec = false ∨ m.level = 0 ∨ 5 ≤ m.level → s.get Reg.TWN_CTRL_role = 0 →
      freeTag s .air r.lane = some tag → rxBufs r ≤ poolFree s 0 → poolFree s 0 < 2 ^ 15 →
      changes (.frameRecord t n upset) s (Reg.CTX_POOL_FREE_free 0 :: Reg.CHR_TAG_STAT_active :: fwdParityFields
      upset) (Reg.AMC_CNT_RX_IN :: Reg.AMC_CNT_ACK_REQ :: Reg.FWD_CNT_NT_HIT :: Reg.FWD_CNT_NT_MISS ::
      Reg.CHR_CNT_TAG_SKIP :: fwdParityCounts upset) ([.laneRecs, .fwd, .amc, .stages] ++ fwdParityParts upset) (fun u
      => u.laneRecs = l ∧ u.count Reg.AMC_CNT_RX_IN = (s.count Reg.AMC_CNT_RX_IN + 1) % 2 ^ 32 ∧
      poolFree u 0 = poolFree s 0 - rxBufs r ∧ (flightOf u tag).map (fun f => (f.stage, f.octets, f.up, f.since)) =
      some (.context, r.psdu, true, max s.ltb t) ∧ u.amc.reqs.length = s.amc.reqs.length + (if m.ar = true ∧
      ¬ (m.dstMode = 2 ∧ m.dst = 0xFFFF) then 1 else 0) ∧ (∀ q ∈ u.amc.reqs, q ∈ s.amc.reqs ∨ q.tag = tag ∧
      q.rcd = r ∧ q.at_ = max s.ltb t) ∧ ∀ k, k ≠ tag → flightOf u k = flightOf s k)) ∧
    (s.get Reg.AMC_CTRL_enable = 0 → changes (.frameRecord t n upset) s [] [Reg.AMC_CNT_RX_IN, Reg.AMC_CNT_RX_OFF]
      [.laneRecs] (fun u => u.laneRecs = l ∧ u.count Reg.AMC_CNT_RX_OFF = (s.count Reg.AMC_CNT_RX_OFF + 1) % 2 ^ 32))
      ∧
    (s.get Reg.AMC_CTRL_enable ≠ 0 → (parseMhr r.psdu).all (fun m =>
      decide (2 < m.ver ∨ 3 < m.type ∨ m.type = 1 ∧ addressed s m = false)) = true →
      changes (.frameRecord t n upset) s [] [Reg.AMC_CNT_RX_IN, Reg.AMC_CNT_ADDR_DROP] [.laneRecs] (fun u =>
      u.laneRecs = l ∧ u.count Reg.AMC_CNT_ADDR_DROP = (s.count Reg.AMC_CNT_ADDR_DROP + 1) % 2 ^ 32))

/-- R178 to R181. A request whose round is over and for which a chain is eligible (R179, R180) is granted: the chain
that the preference of R180 picks gets an ACK command for the instant gap after the end of the frame, with the
acknowledgement of R183. A request without a chain is counted by its reason, and its frame carries noack. Which
requests make one round is the model's reading (log 56). -/
def Obligations.AckArbiterRoundCompletes : Prop :=
  ∀ (t : Nat) (s : State), s.settled →
    (completes (.ackArbiterRound t) s (fun u => u.amc.reqs = s.amc.reqs.filter (fun x => !roundDue (s.now t) x))) ∧
    (∀ (q : AckReq) (m : Mhr) (p : List Byte) (c f a : Nat), s.amc.reqs.filter (roundDue (s.now t)) = [q] →
      (s.amc.recent.any fun e => e.1 == (reqKey m).1 && e.2.1 == (reqKey m).2 && decide (q.at_ < e.2.2 + 1000000)) =
      false → s.get Reg.AMC_CTRL_enable ≠ 0 → parseMhr q.rcd.psdu = some m →
      p = buildAck s q.rcd m (hasPending s q.ctx && !q.both) q.both → a = airtimeOf (ackPhy s q.rcd) p.length →
      pickChain (s.now t) (bandChains q.rcd.band) q.rcd.band q.rcd.freq q.d a = .inr ⟨c, f, []⟩ →
      (s.chainOf c).active = none → chainState s c = chIDLE →
      changes (.ackArbiterRound t) s [] [Reg.AMC_CNT_ACK_GRANT, Reg.AMC_CNT_ACK_SLOT_GRANT] [.amc, .chains] (fun u =>
      u.count Reg.AMC_CNT_ACK_GRANT = (s.count Reg.AMC_CNT_ACK_GRANT + 1) % 2 ^ 32 ∧
      u.amc.reqs = s.amc.reqs.filter (fun x => !roundDue (s.now t) x) ∧
      (u.chainOf c).active.map (fun x => (x.cls, x.freq, x.start, x.airUs, x.psdu)) = some (.ack, f, some q.d, a, p) ∧
      (u.chainOf c).active.map (fun x => x.phy) = some (ackPhy s q.rcd))) ∧
    (∀ (q : AckReq) (m : Mhr), s.amc.reqs.filter (roundDue (s.now t)) = [q] → (s.amc.recent.any fun e =>
      e.1 == (reqKey m).1 && e.2.1 == (reqKey m).2 && decide (q.at_ < e.2.2 + 1000000)) = false →
      s.get Reg.AMC_CTRL_enable ≠ 0 → parseMhr q.rcd.psdu = some m → (∀ c ∈ bandChains q.rcd.band,
      s.get (Reg.TXC_CTRL_enable c) = 0) → max s.ltb t + 122000 ≤ q.d →
      changes (.ackArbiterRound t) s [] [Reg.AMC_CNT_ACK_NOCHAN] [.amc, .fwd] (fun u =>
      u.count Reg.AMC_CNT_ACK_NOCHAN = (s.count Reg.AMC_CNT_ACK_NOCHAN + 1) % 2 ^ 32 ∧
      u.amc.reqs = s.amc.reqs.filter (fun x => !roundDue (s.now t) x) ∧ u.amc.refusals = s.amc.refusals + 1 ∧
      (flightOf u q.tag).all (fun f => f.rx.noack) = true))

/-- R20 steps 5 to 8, R184 to R186, R310, R311, R313. The duplicate test keeps what a frame is recognised by, in its
node's context or, without one, in the table of 64, and lets the frame pass; the tests on an unsecured frame then
come out passed or POLICY; a duplicate is counted and, with dup_action 0, dropped. A frame whose context is not
valid goes to the host. A secured frame raises the counter held for its node, and takes its group's key, its link
key from the cache, or waits for the derivation of R310, whose key a completed derivation delivers and caches. A
frame that decrypts, or that needs no decryption, is delivered: to the port of its prefix, or to the host with a
reason; one whose MIC fails is dropped and counted. That a frame whose context is not valid goes to the host at
once is the model's choice (log 65). Other choices of the model here: the set of a link key in the cache (log 22),
the tests of a level-0 frame (log 27), the schedule after an observation without a node-form IE (log 317), the
form in which the host gets an IE that is not interpreted (log 131), a DSN that firmware wrote (log 64), and when
a disabled JWL ends a frame (log 170). -/
def Obligations.UplinkStepsComplete : Prop :=
  ∀ (t : Nat) (tag : Fin 512) (f : Flight) (m : Mhr) (pu nu : List Nat) (ru : Bool) (upset : Option (Fin 3))
    (s : State), s.settled → flightOf s tag = some f → f.up = true → f.host = none → parseMhr f.octets = some m →
    (∀ (d : Nat) (live : List ((Nat × Nat) × Nat × Nat)), f.stage = .context → f.ctx = none → m.sec = false →
      m.dsn = some d → live = s.amc.dup.filter (fun e => decide (max s.ltb t < e.2.2 + dupMs s * 1000000)) →
      live.any (fun e => e.1 == (m.srcMode, m.src) && e.2.1 == d) = false →
      changes (.duplicateTest t tag upset) s [] [] [.fwd, .amc, .stages] (fun u => u.amc = { s.amc with
        dup := (if 64 ≤ live.length then live.drop 1 else live) ++ [((m.srcMode, m.src), d, max s.ltb t)] } ∧
      (flightOf u tag).map (fun g => (g.stage, g.sec, g.octets)) = some (.ccm,
      if s.get Reg.JWL_CTRL_join_unsec = 0 then 1 else 0, f.octets) ∧
      (∀ j, j ≠ tag.val → flightOf u j = flightOf s j))) ∧
    (∀ (d : Nat) (live : List ((Nat × Nat) × Nat × Nat)), f.stage = .context → f.ctx = none → m.dsn = some d →
      live = s.amc.dup.filter (fun e => decide (max s.ltb t < e.2.2 + dupMs s * 1000000)) →
      live.any (fun e => e.1 == (m.srcMode, m.src) && e.2.1 == d) = true → s.get Reg.AMC_CTRL_dup_action = 0 →
      f.ingress = .air → f.bufs + poolFree s f.pool ≤ s.get (Reg.CTX_POOL_CNT_count f.pool) →
      changes (.duplicateTest t tag upset) s [Reg.CTX_POOL_FREE_free f.pool, Reg.CHR_TAG_STAT_active,
      Reg.CHR_TAG_STAT_level] [Reg.AMC_CNT_DUP, Reg.CHR_CNT_HIST_SKIP, Reg.CHR_CNT_TREC_LOST]
      [.fwd, .amc, .jwl, .stages, .once, .rings] (fun u =>
      u.count Reg.AMC_CNT_DUP = (s.count Reg.AMC_CNT_DUP + 1) % 2 ^ 32 ∧ flightOf u tag = none ∧
      poolFree u f.pool = (poolFree s f.pool + f.bufs) % 2 ^ 15 ∧ u.amc = { s.amc with dup := live })) ∧
    (∀ (d : Nat) (live : List ((Nat × Nat) × Nat × Nat)), f.stage = .context → f.ctx = none → m.sec = false →
      m.dsn = some d → live = s.amc.dup.filter (fun e => decide (max s.ltb t < e.2.2 + dupMs s * 1000000)) →
      live.any (fun e => e.1 == (m.srcMode, m.src) && e.2.1 == d) = true → s.get Reg.AMC_CTRL_dup_action ≠ 0 →
      f.ingress = .air → changes (.duplicateTest t tag upset) s [] [Reg.AMC_CNT_DUP] [.fwd, .amc, .stages] (fun u =>
      u.count Reg.AMC_CNT_DUP = (s.count Reg.AMC_CNT_DUP + 1) % 2 ^ 32 ∧
      (flightOf u tag).map (fun g => (g.stage, g.rx.dup)) = some (.ccm, true) ∧
      (∀ j, j ≠ tag.val → flightOf u j = flightOf s j))) ∧
    (∀ (d k : Nat), f.stage = .context → f.ctx = some k → k < 131072 → Memory.wf s.store = true → upset = none →
      ctxBad s k = false → ctxValid s k = true → m.sec = false → m.dsn = some d → d < 256 →
      ¬ (s.cget k Cx.dsn_valid = 1 ∧ s.cget k Cx.last_dsn = d ∧
      (tabGet s.amc.dsnSrc k).getD (m.srcMode, m.src) = (m.srcMode, m.src) ∧
      msSince (msOf (max s.ltb t)) (s.cget k Cx.dsn_time) < dupMs s) →
      changes (.duplicateTest t tag upset) s [] [] [.fwd, .amc, .store, .ctx, .stages] (fun u =>
      u.cget k Cx.last_dsn = d ∧ u.cget k Cx.dsn_valid = 1 ∧ u.cget k Cx.dsn_time = msOf (max s.ltb t) % 2 ^ 32 ∧
      u.amc = { s.amc with
        dsnSrc := tabPut s.amc.dsnSrc k (m.srcMode, m.src) } ∧
      (flightOf u tag).map (fun g => (g.stage, g.sec, g.ctx, g.octets)) = some (.ccm,
      if s.cget k Cx.unsec_ok = 1 then 0 else 1, some k, f.octets) ∧
      (∀ j, j ≠ tag.val → flightOf u j = flightOf s j) ∧ ∀ a, a < 192 * k + 76 ∨ 192 * k + 84 ≤ a →
      cellRead u.store a = cellRead s.store a)) ∧
    (∀ (d k : Nat), f.stage = .context → f.ctx = some k → k < 131072 → Memory.wf s.store = true → upset = none →
      ctxBad s k = false → ctxValid s k = true → m.sec = false → m.dsn = some d → s.cget k Cx.dsn_valid = 1 ∧
      s.cget k Cx.last_dsn = d ∧ (tabGet s.amc.dsnSrc k).getD (m.srcMode, m.src) = (m.srcMode, m.src) ∧
      msSince (msOf (max s.ltb t)) (s.cget k Cx.dsn_time) < dupMs s → s.get Reg.AMC_CTRL_dup_action = 0 →
      f.ingress = .air → f.bufs + poolFree s f.pool ≤ s.get (Reg.CTX_POOL_CNT_count f.pool) →
      changes (.duplicateTest t tag upset) s [Reg.CTX_POOL_FREE_free f.pool, Reg.CHR_TAG_STAT_active,
      Reg.CHR_TAG_STAT_level] [Reg.AMC_CNT_DUP, Reg.CHR_CNT_HIST_SKIP, Reg.CHR_CNT_TREC_LOST]
      [.fwd, .jwl, .stages, .once, .rings] (fun u =>
      u.count Reg.AMC_CNT_DUP = (s.count Reg.AMC_CNT_DUP + 1) % 2 ^ 32 ∧ flightOf u tag = none)) ∧
    (∀ (k : Nat) (h : Option Nat), f.stage = .context → f.ctx = some k → k < 131072 → Memory.wf s.store = true →
      upset = none → ctxBad s k = false → ctxValid s k = true → m.sec = true → m.level ≠ 0 → m.keyMode = 1 →
      m.fcSupp = false → h = (if s.cget k Cx.rx_fc_valid = 1 then some (s.cget k Cx.rx_fc) else none) →
      h ≠ some m.fc → m.fc < 2 ^ 32 → secTest s { f with heldFc := h } m = 0 →
      changes (.duplicateTest t tag upset) s [] [] [.fwd, .store, .ctx, .stages] (fun u =>
      u.cget k Cx.rx_fc = max (h.getD 0) m.fc ∧ u.cget k Cx.rx_fc_valid = 1 ∧
      (flightOf u tag).map (fun g => (g.stage, g.sec, g.eui, g.key)) = some (.ccm, 0, s.cget k Cx.eui64,
      (jslot s (s.get (Reg.JWL_GROUP_slot m.keyIdx))).key) ∧ (∀ j, j ≠ tag.val → flightOf u j = flightOf s j) ∧ ∀ a,
      a < 192 * k + 72 ∨ 192 * k + 80 ≤ a → cellRead u.store a = cellRead s.store a)) ∧
    (∀ (k i x : Nat), f.stage = .context → f.ctx = some k → k < 131072 → Memory.wf s.store = true → upset = none →
      ctxBad s k = false → ctxValid s k = true → m.sec = true → m.level ≠ 0 → m.keyMode = 0 → m.fcSupp = true ∨
      s.cget k Cx.rx_fc_valid = 0 ∨ s.cget k Cx.rx_fc ≠ m.fc → secTest s { f with
        heldFc := if s.cget k Cx.rx_fc_valid = 1 then some (s.cget k Cx.rx_fc) else none } m = 0 →
      i = s.cget k Cx.key_slot → x = s.cget k Cx.eui64 → s.jwl.derivQ = [] →
      (tabGetD s.jwl.cache (cacheSet i x) []).any (fun e =>
      e.slot == i && e.gen == (jslot s i).gen && e.eui == x) = false →
      changes (.duplicateTest t tag upset) s [Reg.JWL_STATUS_deriv_q] [Reg.JWL_CNT_CACHE_MISS]
      [.fwd, .store, .ctx, .jwl, .stages] (fun u =>
      u.count Reg.JWL_CNT_CACHE_MISS = (s.count Reg.JWL_CNT_CACHE_MISS + 1) % 2 ^ 32 ∧ u.jwl.derivQ = [tag.val] ∧
      (flightOf u tag).map (fun g => (g.stage, g.slot, g.eui, g.started)) = some (.derive, i, x, some (jslot s i).gen)
      ∧ (flightOf u tag).map (·.key) = some ((hmacSha256 (jslot s i).key (beOctets 4 1 ++
      [0x4B, 0x5A, 0x4C, 0x4B, 0x00] ++ beOctets 4 (jslot s i).domain ++ beOctets 8 x ++ beOctets 4 0x80)).take 16) ∧
      (∀ j, j ≠ tag.val → flightOf u j = flightOf s j))) ∧
    (∀ (k i x : Nat) (e : Derived), f.stage = .context → f.ctx = some k → k < 131072 → Memory.wf s.store = true →
      upset = none → ctxBad s k = false → ctxValid s k = true → m.sec = true → m.level ≠ 0 → m.keyMode = 0 →
      m.fcSupp = true ∨ s.cget k Cx.rx_fc_valid = 0 ∨ s.cget k Cx.rx_fc ≠ m.fc → secTest s { f with
        heldFc := if s.cget k Cx.rx_fc_valid = 1 then some (s.cget k Cx.rx_fc) else none } m = 0 →
      i = s.cget k Cx.key_slot → x = s.cget k Cx.eui64 → (tabGetD s.jwl.cache (cacheSet i x) []).find? (fun e =>
      e.slot == i && e.gen == (jslot s i).gen && e.eui == x) = some e →
      changes (.duplicateTest t tag upset) s [Reg.JWL_CACHE_entries] [Reg.JWL_CNT_CACHE_HIT]
      [.fwd, .store, .ctx, .jwl, .stages] (fun u =>
      u.count Reg.JWL_CNT_CACHE_HIT = (s.count Reg.JWL_CNT_CACHE_HIT + 1) % 2 ^ 32 ∧ u.jwl.derivQ = s.jwl.derivQ ∧
      (tabGetD u.jwl.cache (cacheSet i x) []).head? = some e ∧
      (flightOf u tag).map (fun g => (g.stage, g.sec, g.eui, g.key)) = some (.ccm, 0, x, e.key) ∧
      (∀ j, j ≠ tag.val → flightOf u j = flightOf s j))) ∧
    (∀ (k : Nat), f.stage = .context → f.ctx = some k → upset = none → ctxBad s k = false → ctxValid s k = false →
      f.raw = [] → f.passed = [] → s.get Reg.TWN_CTRL_role = 0 →
      changes (.duplicateTest t tag upset) s [] [Reg.FWD_CNT_TO_HOST] [.fwd, .stages] (fun u =>
      (flightOf u tag).map (fun g => (g.stage, g.port, g.reason, g.fmt, g.ctx, g.octets)) = some
      (.done, 6, 1, true, none, f.octets) ∧ (∀ j, j ≠ tag.val → flightOf u j = flightOf s j))) ∧
    (∀ (q : List Nat) (g : Nat), f.stage = .derive → f.started = some g → s.jwl.derivQ = tag.val :: q →
      ¬ tag.val ∈ q → s.get Reg.JWL_STATUS_lc_busy = 0 → (∀ e ∈ s.fwd.flights, e.2.stage ≠ .key) → (∀ k ∈ q.take 2,
      (flightOf s k).all (fun x => x.started.isSome) = true) →
      changes (.keyDerivation t tag) s [Reg.JWL_STATUS_deriv_q, Reg.JWL_CACHE_entries] [] [.fwd, .jwl, .stages] (fun u
      => flightOf u tag = some { f with stage := .ccm, started := none } ∧
      (∀ k, k ≠ tag.val → flightOf u k = flightOf s k) ∧ u.jwl.slots = s.jwl.slots ∧ u.jwl.derivQ = q ∧
      u.get Reg.JWL_STATUS_deriv_q = (q.length - 2) % 2 ^ 7 ∧
      (tabGetD u.jwl.cache (cacheSet f.slot f.eui) []).head? = some
      { slot := f.slot, gen := g, eui := f.eui, key := f.key })) ∧
    (∀ (g i : Nat) (h : Flight), f.stage = .derive → f.started = some g → s.jwl.derivQ = [tag.val, i] → i ≠ tag.val →
      flightOf s i = some h → h.started = none → pipeKeyTest s h.slot 1 1 = 0 → s.get Reg.JWL_STATUS_lc_busy = 0 →
      (∀ e ∈ s.fwd.flights, e.2.stage ≠ .key) →
      changes (.keyDerivation t tag) s [Reg.JWL_STATUS_deriv_q, Reg.JWL_CACHE_entries] [] [.fwd, .jwl, .stages] (fun u
      => flightOf u tag = some { f with stage := .ccm, started := none } ∧ u.jwl.derivQ = [i] ∧
      flightOf u i = some { h with
        key := (hmacSha256 (jslot s h.slot).key (beOctets 4 1 ++ [0x4B, 0x5A, 0x4C, 0x4B, 0x00] ++ beOctets 4 (jslot s h.slot).domain ++ beOctets 8 h.eui ++ beOctets 4 0x80)).take 16,
        started := some (jslot s h.slot).gen } ∧ ∀ k, k ≠ tag.val → k ≠ i → flightOf u k = flightOf s k)) ∧
    (∀ (q : List Nat) (g i : Nat) (h : Flight), f.stage = .derive → f.started = some g → s.jwl.derivQ = tag.val :: q →
      ¬ tag.val ∈ q → 2 ≤ q.length → q.length < 66 → s.get Reg.JWL_STATUS_lc_busy = 0 →
      (s.fwd.flights.map (·.1)).Nodup → flightOf s i = some h → h.stage = .key → (∀ e ∈ s.fwd.flights,
      e.2.stage = .key → e = (i, h) ∨ h.order < e.2.order) → (∀ k ∈ q.take 2,
      (flightOf s k).all (fun x => x.started.isSome) = true) →
      changes (.keyDerivation t tag) s [Reg.JWL_STATUS_deriv_q, Reg.JWL_CACHE_entries] [] [.fwd, .jwl, .stages] (fun u
      => flightOf u tag = some { f with stage := .ccm, started := none } ∧
      flightOf u i = some { h with stage := .derive } ∧ (∀ k, k ≠ tag.val → k ≠ i → flightOf u k = flightOf s k) ∧
      u.jwl.derivQ = q ++ [i])) ∧
    (f.stage = .ccm → f.sec = 0 → f.passed = [] → f.raw = [] → f.ctx = none → m.sec = false ∨ m.level = 0 →
      s.get Reg.TWN_CTRL_role = 0 → changes (.uplinkDecrypt t tag pu nu ru) s [] [Reg.FWD_CNT_TO_HOST] [.fwd, .stages]
      (fun u => (flightOf u tag).map (fun g => (g.stage, g.port, g.reason, g.fmt, g.octets)) = some
      (.done, 6, 1, true, f.octets) ∧ (∀ j, j ≠ tag.val → flightOf u j = flightOf s j))) ∧
    (∀ (p : List Byte), f.stage = .ccm → f.sec = 0 → f.passed = [] → f.raw = [] → f.ctx = none → m.sec = true →
      m.level ≠ 0 → openFrame f m = some p → isEbr m p = false →
      changes (.uplinkDecrypt t tag pu nu ru) s [] [Reg.JWL_CNT_CCM_OK, Reg.FWD_CNT_TO_HOST] [.fwd, .stages] (fun u =>
      u.count Reg.JWL_CNT_CCM_OK = (s.count Reg.JWL_CNT_CCM_OK + 1) % 2 ^ 32 ∧ (flightOf u tag).map (fun g =>
      (g.stage, g.port, g.reason, g.fmt, g.seqNr, g.octets)) = some (.done, 6, 1, true, some m.fc, p) ∧
      (∀ j, j ≠ tag.val → flightOf u j = flightOf s j))) ∧
    (∀ (k i : Nat) (p : List Byte) (e : PtEntry), f.stage = .ccm → f.sec = 0 → f.passed = [] → f.ctx = some k →
      k < 131072 → Memory.wf s.store = true → ctxValid s k = true → m.sec = false → m.type = 1 → m.ends ≠ 1 →
      f.octets.drop m.hdr = 0x41 :: p → 40 ≤ p.length → s.get Reg.FWD_CTRL_learn_en = 0 →
      s.get Reg.SLP_CTRL_enable = 0 → s.get Reg.BAL_STATUS_state < 2 → s.get Reg.TWN_CTRL_role = 0 →
      s.fwd.pt.any (fun e => pu.contains e.1 && !e.2.bad) = false →
      ptMatch s (ptKeyOf (ofBe (ipDst p)) (keyPort f) (ipTclass p / 4)) = some (i, e) → e.action = 1 → 4 ≤ e.port →
      e.port ≠ 6 → 1 < ipHop p → changes (.uplinkDecrypt t tag pu nu ru) s [] [] [.fwd, .store, .ctx, .stages] (fun u
      => (flightOf u tag).map (fun g => (g.stage, g.port, g.svc, g.reason, g.octets)) = some
      (.done, e.port, some e.svc, 0, stripRpl (hopDown p)) ∧ (∀ j, j ≠ tag.val → flightOf u j = flightOf s j) ∧
      u.cget k Cx.rx_count = (s.cget k Cx.rx_count + 1) % 2 ^ 16 ∧ (∀ x, x ∈ hostIes m → .hostIe x ∈ u.out) ∧ ∀ a,
      a < 192 * k + 124 ∨ 192 * k + 126 ≤ a → cellRead u.store a = cellRead s.store a)) ∧
    (f.stage = .ccm → f.sec = 0 → m.sec = false ∨ m.level = 0 →
      endsIn (.uplinkDecrypt t tag pu nu ru) s (classify (s.begin t) tag f m f.octets pu nu ru)) ∧
    (∀ (p : List Byte), f.stage = .ccm → f.sec = 0 → m.sec = true → m.level ≠ 0 → openFrame f m = some p →
      isEbr m p = false → endsIn (.uplinkDecrypt t tag pu nu ru) s (classify (markStage
      ((s.begin t).bump Reg.JWL_CNT_CCM_OK) f.mark 3 (max s.ltb t)) tag { f with seqNr := some m.fc } m p pu nu ru)) ∧
    (f.stage = .ccm → f.sec = 0 → m.sec = true → m.level ≠ 0 → openFrame f m = none →
      changes (.uplinkDecrypt t tag pu nu ru) s [Reg.CTX_POOL_FREE_free f.pool, Reg.CHR_TAG_STAT_active,
      Reg.CHR_TAG_STAT_level] [Reg.JWL_CNT_AUTH_FAIL, Reg.CHR_CNT_HIST_SKIP,
      Reg.CHR_CNT_TREC_LOST] [.fwd, .jwl, .stages, .once, .rings] (fun u =>
      u.count Reg.JWL_CNT_AUTH_FAIL = (s.count Reg.JWL_CNT_AUTH_FAIL + 1) % 2 ^ 32 ∧ flightOf u tag = none))

/-- R22 step 1, R23, R24, R26, R27, R29, R273. A frame that waits takes a shared tag if one is free for its ingress;
one for a host service is done at step 1; a frame that is done and has nothing of its key before it is released; a
released frame for a wired port leaves its tag and enters the queue of its service (R236); a reassembly context
whose time is over is discarded. The model's choices here: what a frame not yet classified holds back (logs 164,
165), the reorder limit's start (log 166), a PORT action that names a chain (log 163). -/
def Obligations.FlightsComplete : Prop :=
  ∀ (t : Nat) (s : State), s.settled →
    (∀ (p : Port) (w : WaitFrame) (l : List WaitFrame) (tag : Nat) (upset : List Nat), s.fwd.waiting = w :: l →
      w.ingress = ingressOf p → w.up = false → freeTag s (ingressOf p) 0 = some tag →
      changes (.tagAdmission t p upset) s [Reg.CHR_TAG_STAT_active] [Reg.CHR_CNT_TAG_SKIP] [.fwd, .stages] (fun u =>
      u.fwd.waiting = l ∧ (flightOf u tag).map (fun g => (g.stage, g.octets, g.up, g.ingress)) = some
      (.ingress, w.octets, false, ingressOf p) ∧ ∀ k, k ≠ tag → flightOf u k = flightOf s k)) ∧
    (∀ (p : Port) (tag v : Nat) (f : Flight) (pu nu : List Nat), atIngress s (ingressOf p) = some (tag, f) →
      f.svc = some v → ¬ orderKey { f with port := 6 } ∈ f.passed →
      changes (.downlinkIngress t p pu nu) s [] [] [.fwd, .stages] (fun u =>
      (flightOf u tag).map (fun g => (g.stage, g.port, g.svc, g.octets)) = some (.done, 6, some v, f.octets))) ∧
    (∀ (p : Port) (tag i : Nat) (f : Flight) (q : List Byte) (e : PtEntry) (pu nu : List Nat),
      atIngress s (ingressOf p) = some (tag, f) → f.svc = none → f.up = false →
      q = f.octets.take (40 + ipLen f.octets) → f.passed = [] →
      s.fwd.pt.any (fun e => pu.contains e.1 && !e.2.bad) = false →
      ptMatch s (ptKeyOf (ofBe (ipDst q)) (keyPort f) (ipTclass q / 4)) = some (i, e) → e.action = 1 → 4 ≤ e.port →
      e.port ≠ 6 → changes (.downlinkIngress t p pu nu) s [] [] [.fwd, .stages] (fun u =>
      (flightOf u tag).map (fun g => (g.stage, g.port, g.svc, g.reason, g.octets)) = some
      (.done, e.port, some e.svc, 0, q) ∧ ∀ k, k ≠ tag → flightOf u k = flightOf s k)) ∧
    (∀ (p : Port) (tag : Nat) (f : Flight) (q : List Byte) (pu nu : List Nat),
      atIngress s (ingressOf p) = some (tag, f) → f.svc = none → f.up = false →
      q = f.octets.take (40 + ipLen f.octets) → f.passed = [] →
      s.fwd.pt.any (fun e => pu.contains e.1 && !e.2.bad) = false →
      ptMatch s (ptKeyOf (ofBe (ipDst q)) (keyPort f) (ipTclass q / 4)) = none → s.get Reg.FWD_CTRL_miss_action = 0 →
      changes (.downlinkIngress t p pu nu) s [] [Reg.FWD_CNT_PT_MISS, Reg.FWD_CNT_TO_HOST] [.fwd, .stages] (fun u =>
      u.count Reg.FWD_CNT_PT_MISS = (s.count Reg.FWD_CNT_PT_MISS + 1) % 2 ^ 32 ∧
      (flightOf u tag).map (fun g => (g.stage, g.port, g.reason)) = some (.done, 6, 2) ∧ ∀ k, k ≠ tag →
      flightOf u k = flightOf s k)) ∧
    (∀ (p : Port) (tag i : Nat) (f : Flight) (q : List Byte) (key j : Nat) (e : PtEntry) (pu nu : List Nat),
      atIngress s (ingressOf p) = some (tag, f) → f.svc = none → f.up = false →
      q = f.octets.take (40 + ipLen f.octets) → s.fwd.pt.any (fun e => pu.contains e.1 && !e.2.bad) = false →
      ptMatch s (ptKeyOf (ofBe (ipDst q)) (keyPort f) (ipTclass q / 4)) = some (i, e) → e.action = 0 →
      s.get Reg.TWN_CTRL_role = 0 → ((ipDst q).drop 8).take 6 ≠ [0, 0, 0, 0xFF, 0xFE, 0] →
      key = flipUl (ofBe ((ipDst q).drop 8)) → (∀ x ∈ ntReads s key 0, ¬ x ∈ nu) → ntFind s key 0 = some j →
      ntValid s j = true → 1 < ipHop q → changes (.downlinkIngress t p pu nu) s [] [Reg.FWD_CNT_NT_HIT]
      [.fwd, .stages] (fun u => u.count Reg.FWD_CNT_NT_HIT = (s.count Reg.FWD_CNT_NT_HIT + 1) % 2 ^ 32 ∧
      (flightOf u tag).map (fun g => (g.stage, g.ctx, g.prim, g.svc, g.sci, g.octets)) = some
      (.route, some (nget s j Nt.ctx), some j, some e.svc, e.sci, q) ∧ ∀ k, k ≠ tag → flightOf u k = flightOf s k)) ∧
    (∀ (tag : Fin 512) (f : Flight), flightOf s tag = some f → f.stage = .done → (∀ e ∈ s.fwd.flights,
      mayPrecede s e.2 f = true → e.2.order < f.order → e.2.stage = .released) →
      changes (.reorderRelease t tag) s [] [] [.fwd, .stages] (fun u =>
      flightOf u tag = some { f with stage := .released } ∧ ∀ k, k ≠ tag.val → flightOf u k = flightOf s k)) ∧
    (∀ (tag : Fin 512) (f : Flight), flightOf s tag = some f → f.stage = .done → (s.fwd.flights.map (·.1)).Nodup →
      (∀ e ∈ s.fwd.flights, mayPrecede s e.2 f = true → e.2.order < f.order → e.2.stage = .released ∨
      (e.2.stage ≠ .done ∧ e.2.since + reorderLim s < max s.ltb t)) →
      changes (.reorderRelease t tag) s [] [] [.fwd, .stages] (fun u =>
      flightOf u tag = some { f with stage := .released } ∧ ∀ e ∈ s.fwd.flights, e.1 ≠ tag.val →
      flightOf u e.1 = some (if mayPrecede s e.2 f = true ∧ e.2.order < f.order ∧
      e.2.stage ≠ .released then { e.2 with passed := orderKey f :: e.2.passed } else e.2))) ∧
    (∀ (tag : Fin 512) (f : Flight), flightOf s tag = some f → f.stage = .released → f.out = [] → 6 ≤ f.port →
      f.port ≤ 7 → f.host = none → (f.svc.getD 0) < 16 → (∀ e ∈ s.fwd.flights, orderKey e.2 = orderKey f →
      e.2.stage = .released → f.order ≤ e.2.order) →
      (svcQueue s (16 * f.port + f.svc.getD 0)).length < atLeast1
      (s.get (Reg.ESC_SVC_AGE_qmax (16 * f.port + f.svc.getD 0))) →
      changes (.escEnqueue t tag) s [Reg.ESC_SVC_TOK_tok (16 * f.port + f.svc.getD 0),
      Reg.ESC_PORT_TOK_tok f.port] [] [.fwd, .amc, .jwl, .esc, .stages] (fun u => flightOf u tag = none ∧
      svcQueue u (16 * f.port + f.svc.getD 0) = svcQueue s (16 * f.port + f.svc.getD 0) ++ [{
        ref := s.amc.nextRef, port := f.port, svc := f.svc.getD 0, ctx := f.ctx, octets := f.octets, rx := f.rx,
        reason := f.reason, fmt := f.fmt, pool := f.pool, bufs := f.bufs, mark := f.mark, enqAt := max s.ltb t,
        headAt := max s.ltb t }] ∧ u.esc.sub = s.esc.sub)) ∧
    (∀ (i : Fin 4096) (r : Reasm), tabGet s.fwd.reasm i = some r → r.due ≤ max s.ltb t →
      r.bufs + poolFree s 2 ≤ s.get (Reg.CTX_POOL_CNT_count 2) →
      changes (.reassemblyTimeout t i) s [Reg.FWD_REASM_FILL_in_use, Reg.CTX_POOL_FREE_free 2]
      [Reg.FWD_CNT_REASM_TIMEOUT] [.fwd] (fun u => tabGet u.fwd.reasm i = none ∧
      u.count Reg.FWD_CNT_REASM_TIMEOUT = (s.count Reg.FWD_CNT_REASM_TIMEOUT + 1) % 2 ^ 32 ∧
      poolFree u 2 = (poolFree s 2 + r.bufs) % 2 ^ 15))

/-- R22 steps 3 and 4, R155, R267 to R272, R288, R312, R315. A datagram to a node from which the parents lead to the
site gets its first hop, the last node of the walk; its frames wait for step 4 and FWD_CNT_ROUTE_OK counts it. One
to a node without a parent goes to the host with reason 4. At step 4 each frame takes a frame counter of the first
hop; where the link key has to be derived the frames wait for it; with the key they are sealed and the datagram is
done. The model's choices here: the DSN is a free value (logs 2, 192), the MAC form is that of log 193, a frame
that is fragmented takes the level of step 4 (log 167), the set of a link key in the cache is that of log 22, and
a moved destination entry is looked up again (log 321). -/
def Obligations.DownlinkSecureCompletes : Prop :=
  ∀ (t : Nat) (tag : Fin 512) (f : Flight) (s : State), s.settled → flightOf s tag = some f → f.up = false →
    (∀ (p c h : Nat) (hops upset : List Nat) (line : Option (Fin 3)), f.stage = .route → f.ctx = some c →
      routePrimary s f c = some p → p ≠ ntNone → ctxBad s c = false → ctxValid s c = true → line = none →
      ntIsBad s p = false → (∀ i ∈ walkEntries 25 s p, ¬ i ∈ upset) →
      (routeWalk 25 s (nget s p Nt.parent) []).toOption = some hops → h = hops.headD p →
      ctxBad s (nget s h Nt.ctx) = false → ctxValid s (nget s h Nt.ctx) = true →
      s.get (Reg.PHY_PROF_CTRL_valid (s.cget (nget s h Nt.ctx) Cx.tx_profile)) ≠ 0 →
      changes (.routeBuild t tag ⟨upset, line⟩) s [Reg.FWD_DGRAM_TAG_tag] [Reg.FWD_CNT_ROUTE_OK, Reg.FWD_CNT_FRAG_TX]
      [.fwd, .amc, .store, .ctx, .stages] (fun u =>
      u.count Reg.FWD_CNT_ROUTE_OK = (s.count Reg.FWD_CNT_ROUTE_OK + 1) % 2 ^ 32 ∧
      (flightOf u tag).map (fun g => (g.stage, g.hop, g.eui)) = some
      (.secure, some (nget s h Nt.ctx), nget s h Nt.key) ∧ ∀ k, k ≠ tag.val → flightOf u k = flightOf s k)) ∧
    (∀ (p c : Nat) (upset : List Nat) (line : Option (Fin 3)), f.stage = .route → f.ctx = some c →
      routePrimary s f c = some p → p ≠ ntNone → ctxBad s c = false → ctxValid s c = true → line = none →
      ntIsBad s p = false → f.host = none → (∀ i ∈ walkEntries 25 s p, ¬ i ∈ upset) → nget s p Nt.parent = ntNone →
      s.get Reg.FWD_CTRL_rte_fail_action = 0 → f.passed = [] →
      changes (.routeBuild t tag ⟨upset, line⟩) s [] [Reg.FWD_CNT_ROUTE_FAIL, Reg.FWD_CNT_TO_HOST]
      [.fwd, .stages, .once] (fun u => u.count Reg.FWD_CNT_ROUTE_FAIL = (s.count Reg.FWD_CNT_ROUTE_FAIL + 1) % 2 ^ 32
      ∧ (flightOf u tag).map (fun g => (g.stage, g.port, g.reason, g.octets)) = some
      (.done, 6, 4, if f.raw.isEmpty then f.octets else f.raw))) ∧
    (∀ (k l : Nat) (a : AirOut) (upset : Option (Fin 3)), f.stage = .secure → f.hop = some k → f.out = [a] →
      ctxBad s k = false → ctxValid s k = true → upset = none → s.cget k Cx.sec_level = l → 5 ≤ l →
      s.cget k Cx.tx_fc < s.cget k Cx.fc_limit → s.cget k Cx.fc_req = 1 →
      pipeKeyTest s (s.cget k Cx.key_slot) 1 1 = 0 →
      (tabGetD s.jwl.cache (cacheSet (s.cget k Cx.key_slot) f.eui) []).any (fun e =>
      e.slot == s.cget k Cx.key_slot && e.gen == (jslot s (s.cget k Cx.key_slot)).gen && e.eui == f.eui) = false →
      s.jwl.derivQ.length < 66 → (∀ j ∈ (s.jwl.derivQ ++ [tag.val]).take 2,
      (flightOf s j).all (fun x => x.started.isSome) = true) →
      changes (.downlinkSecure t tag upset) s [Reg.JWL_STATUS_deriv_q] [Reg.JWL_CNT_CACHE_MISS]
      [.fwd, .jwl, .store, .ctx] (fun u => u.cget k Cx.tx_fc = s.cget k Cx.tx_fc + 1 ∧
      u.jwl.derivQ = s.jwl.derivQ ++ [tag.val] ∧ flightOf u tag = some { f with
        out := [{ atLevel a l with
          psdu := putAt (atLevel a l).psdu 22 (leOctets 4 (s.cget k Cx.tx_fc)) }], slot := s.cget k Cx.key_slot,
        stage := .derive })) ∧
    (∀ (k : Nat) (upset : Option (Fin 3)), f.stage = .secure → f.hop = some k → ctxBad s k = false →
      ctxValid s k = true → upset = none → 5 ≤ s.cget k Cx.sec_level →
      s.cget k Cx.tx_fc + f.out.length ≤ s.cget k Cx.fc_limit → s.cget k Cx.fc_limit < 2 ^ 32 →
      s.cget k Cx.fc_req = 1 → k < 131072 → Memory.wf s.store = true → pipeKeyTest s (s.cget k Cx.key_slot) 1 1 = 0 →
      (tabGetD s.jwl.cache (cacheSet (s.cget k Cx.key_slot) f.eui) []).any (fun e =>
      e.slot == s.cget k Cx.key_slot && e.gen == (jslot s (s.cget k Cx.key_slot)).gen && e.eui == f.eui) = false →
      s.jwl.derivQ.length < 66 → (∀ j ∈ (s.jwl.derivQ ++ [tag.val]).take 2,
      (flightOf s j).all (fun x => x.started.isSome) = true) →
      changes (.downlinkSecure t tag upset) s [Reg.JWL_STATUS_deriv_q] [Reg.JWL_CNT_CACHE_MISS]
      [.fwd, .jwl, .store, .ctx] (fun u => u.cget k Cx.tx_fc = s.cget k Cx.tx_fc + f.out.length ∧
      u.jwl.derivQ = s.jwl.derivQ ++ [tag.val] ∧
      (flightOf u tag).map (fun g => (g.stage, g.slot, g.out.length)) = some
      (.derive, s.cget k Cx.key_slot, f.out.length) ∧ ∀ j, j ≠ tag.val → flightOf u j = flightOf s j)) ∧
    (∀ (k : Nat) (d : Derived) (upset : Option (Fin 3)), f.stage = .secure → f.hop = some k → ctxBad s k = false →
      ctxValid s k = true → upset = none → 5 ≤ s.cget k Cx.sec_level →
      s.cget k Cx.tx_fc + f.out.length ≤ s.cget k Cx.fc_limit → s.cget k Cx.fc_limit < 2 ^ 32 →
      s.cget k Cx.fc_req = 1 → k < 131072 → Memory.wf s.store = true → pipeKeyTest s (s.cget k Cx.key_slot) 1 1 = 0 →
      (tabGetD s.jwl.cache (cacheSet (s.cget k Cx.key_slot) f.eui) []).find? (fun e =>
      e.slot == s.cget k Cx.key_slot && e.gen == (jslot s (s.cget k Cx.key_slot)).gen && e.eui == f.eui) = some d →
      changes (.downlinkSecure t tag upset) s [Reg.JWL_CACHE_entries] [Reg.JWL_CNT_CACHE_HIT]
      [.fwd, .jwl, .store, .ctx, .stages] (fun u => u.cget k Cx.tx_fc = s.cget k Cx.tx_fc + f.out.length ∧
      u.jwl.derivQ = s.jwl.derivQ ∧ u.count Reg.JWL_CNT_CACHE_HIT = (s.count Reg.JWL_CNT_CACHE_HIT + 1) % 2 ^ 32 ∧
      (flightOf u tag).map (fun g => (g.stage, g.key, g.out.length)) = some (.ccm, d.key, f.out.length) ∧ ∀ j,
      j ≠ tag.val → flightOf u j = flightOf s j)) ∧
    (∀ (upset : Option (Fin 3)), f.stage = .ccm → ¬ orderKey f ∈ f.passed →
      changes (.downlinkSecure t tag upset) s [] [Reg.JWL_CNT_CCM_OK] [.fwd, .stages] (fun u =>
      u.count Reg.JWL_CNT_CCM_OK = (s.count Reg.JWL_CNT_CCM_OK + f.out.length) % 2 ^ 32 ∧
      (flightOf u tag).map (fun g => (g.stage, g.out)) = some (.done, f.out.map (sealFrame s f.key))))

/-- R19, R73, R83, R85, R86, R87 and R131. A start-up calibration asked for while the receiver is off runs for 12 ms
on RFA and 14 ms on RFB, and when it is over cal_done is 1 with EV064 or EV065; a calibrated receiver starts in
RUN with its first gain epoch; one that is disabled goes OFF. CAL_REQ is taken in compatibility mode only; its
calibration holds the receiver in BLANK for 4 ms. The model's choices here: a second startcal starts the time
again (log 313), and cal_req in OFF is ignored (log 315). -/
def Obligations.ReceiverEnableCompletes : Prop :=
  ∀ (t : Nat) (b1 : Fin 2) (s : State), s.settled →
    (s.get (Reg.RFX_CTRL_enable b1) = 0 → s.get Reg.PWR_STATUS_state = 0 →
      leadsTo (.rxStartcal t b1) s ((((s.now t).set (Reg.RFX_STATUS_cal_done b1) 0).set (Reg.RFX_STATUS_state b1)
      1).onRx b1 (fun r => { r with
        calEnd := some (max s.ltb t + if b1 = 0 then 12000000 else 14000000) }))) ∧
    (∀ (e : Nat) (ir : List Nat) (steps : List Int), (s.rxOf b1).calEnd = some e → e ≤ max s.ltb t →
      changes (.rxStartcalDone t b1 ir steps) s [Reg.RFX_STATUS_cal_done b1, Reg.RFX_STATUS_state b1,
      Reg.RFX_IR_STAT_ir_worst b1, Reg.RFX_IR_STAT_ir_seg b1, Reg.RFX_STATUS_ir_ok b1] [] [.rx] (fun u =>
      u.get (Reg.RFX_STATUS_cal_done b1) = 1 ∧ u.get (Reg.RFX_STATUS_state b1) = 0 ∧ 64 + b1.val ∈ u.hif.pend ∧
      (u.rxOf b1).steps = steps ∧ (u.rxOf b1).ir = ir.take 16 ∧ (u.rxOf b1).calEnd = none)) ∧
    (s.get (Reg.RFX_CTRL_enable b1) = 0 → s.get (Reg.RFX_STATUS_state b1) = 0 →
      s.get (Reg.RFX_GAIN_CFG2_gain_man b1) < 2 ^ 5 → s.get (Reg.RFX_STATUS_cal_done b1) ≠ 0 →
      s.get (Reg.RFX_STATUS_region_block b1) = 0 → s.get Reg.PWR_STATUS_state = 0 →
      changes (.rxEnable t b1) s ([Reg.RFX_CTRL_enable b1, Reg.RFX_STATUS_state b1, Reg.RFX_STATUS_ir_ok b1,
      Reg.RFX_STATUS_gain_idx b1] ++ (bandLanes s b1).map Reg.CHZ_LANE_STAT_agc_gain) ([Reg.RFX_CNT_STEP_SCHED b1] ++
      (bandLanes s b1).map Reg.CHZ_LANE_CNT_STEP_MIDFRAME) [.rx, .inForce] (fun u =>
      (∀ f ∈ gainFields b1, u.cur f = u.get f) ∧ u.get (Reg.RFX_CTRL_enable b1) = 1 ∧
      u.get (Reg.RFX_STATUS_state b1) = 2 ∧ u.get (Reg.RFX_STATUS_ir_ok b1) =
      (if 60 ≤ s.get (Reg.RFX_IR_STAT_ir_worst b1) then 1 else 0) ∧ (u.rxOf b1).epochStart = max s.ltb t ∧
      (u.rxOf b1).lowEpochs = 0 ∧ (u.rxOf b1).ceil = (s.rxOf b1).ceil ∧ ((s.rxOf b1).ceil = [] →
      u.get (Reg.RFX_STATUS_gain_idx b1) = if s.get (Reg.RFX_CTRL_gain_manual b1) = 0 then s.get
      (Reg.RFX_STATUS_gain_idx b1) else s.get (Reg.RFX_GAIN_CFG2_gain_man b1)))) ∧
    (s.get (Reg.RFX_CTRL_enable b1) ≠ 0 → (∀ n ∈ bandLanes s b1, laneMid s n = false) →
      changes (.rxDisable t b1) s [Reg.RFX_CTRL_enable b1, Reg.RFX_STATUS_state b1, Reg.RFX_STATUS_ir_ok b1,
      Reg.RFX_STATUS_compat_cal_pending b1] [] [.rx] (fun u => u.get (Reg.RFX_CTRL_enable b1) = 0 ∧
      u.get (Reg.RFX_STATUS_state b1) = 0 ∧ u.get (Reg.RFX_STATUS_ir_ok b1) = 0)) ∧
    (s.get (Reg.RFX_CTRL_enable b1) ≠ 0 → s.get (Reg.RFX_CTRL_cal_mode b1) ≠ 0 →
      leadsTo (.calReq t b1) s ((s.now t).set (Reg.RFX_STATUS_compat_cal_pending b1) 1)) ∧
    (s.get (Reg.RFX_STATUS_compat_cal_pending b1) ≠ 0 → s.get (Reg.RFX_STATUS_state b1) = 2 →
      (∀ n ∈ bandChains b1, chainBusy s n = false) → (∀ n ∈ bandLanes s b1, laneMid s n = false) →
      changes (.compatCalStart t b1) s [Reg.RFX_STATUS_compat_cal_pending b1, Reg.RFX_STATUS_state b1] [] [.rx] (fun u
      => u.get (Reg.RFX_STATUS_compat_cal_pending b1) = 0 ∧ u.get (Reg.RFX_STATUS_state b1) = 3 ∧
      u.rxOf b1 = { s.rxOf b1 with blankEnd := some (max s.ltb t + 4000000) })) ∧
    (∀ (e : Nat) (ir : List Nat), (s.rxOf b1).blankEnd = some e → e ≤ max s.ltb t →
      s.get (Reg.RFX_STATUS_state b1) = 3 → changes (.blankEnd t b1 ir) s [Reg.RFX_STATUS_state b1,
      Reg.RFX_IR_STAT_ir_worst b1, Reg.RFX_IR_STAT_ir_seg b1, Reg.RFX_STATUS_ir_ok b1] [] [.rx] (fun u =>
      u.get (Reg.RFX_STATUS_state b1) = 2 ∧ (u.rxOf b1).blankEnd = none ∧ (u.rxOf b1).ir = ir.take 16))

/-- R76, R77, R78, R80, R83, R84 and R85. A gain epoch whose mean power was above hi_thr ends with one step down,
counted; an overload is counted and due for an unscheduled step, which lowers the gain by ovl_step at once; the
estimates of image rejection and the temperature are kept and reported. The model's choices here: an unscheduled
step that finds the gain at 0 is counted with no marker (log 48), a segment pair measured with the tone is due
again after another ir_stale of silence (log 49), and an overload in BLANK is ignored (log 314). -/
def Obligations.ReceiverGainCompletes : Prop :=
  ∀ (t : Nat) (b1 : Fin 2) (s : State), s.settled →
    (∀ (p : Int) (g : Nat), s.get (Reg.RFX_STATUS_state b1) = 2 →
      (s.rxOf b1).epochStart + s.cur (Reg.RFX_GAIN_CFG_epoch_us b1) * 1000 ≤ max s.ltb t → (s.rxOf b1).ceil = [] →
      (s.rxOf b1).unschedNext = false → (s.rxOf b1).leakAll = false → s.cur (Reg.RFX_CTRL_gain_manual b1) = 0 →
      s.get (Reg.RFX_CTRL_gain_manual b1) = 0 → -((s.cur (Reg.RFX_GAIN_CFG_hi_thr b1) : Int) * 10) < p →
      s.get (Reg.RFX_STATUS_gain_idx b1) = g + 1 → g < 32 →
      changes (.gainEpochEnd t b1 (some p)) s ([Reg.RFX_STATUS_gain_idx b1] ++ (bandLanes s b1).map
      Reg.CHZ_LANE_STAT_agc_gain) ([Reg.RFX_CNT_STEP_SCHED b1] ++ (bandLanes s b1).map Reg.CHZ_LANE_CNT_STEP_MIDFRAME)
      [.rx, .inForce] (fun u => u.get (Reg.RFX_STATUS_gain_idx b1) = g ∧ (∀ f ∈ gainFields b1, u.cur f = u.get f) ∧
      u.count (Reg.RFX_CNT_STEP_SCHED b1) = (s.count (Reg.RFX_CNT_STEP_SCHED b1) + 1) % 2 ^ 32 ∧
      (u.rxOf b1).epochStart = (s.rxOf b1).epochStart + s.cur (Reg.RFX_GAIN_CFG_epoch_us b1) * 1000)) ∧
    (∀ (p : Option Int), rxRunning s b1 = true →
      (s.rxOf b1).epochStart + s.cur (Reg.RFX_GAIN_CFG_epoch_us b1) * 1000 ≤ max s.ltb t →
      completes (.gainEpochEnd t b1 p) s (fun u => (∀ f ∈ gainFields b1, u.cur f = u.get f) ∧
      (u.rxOf b1).epochStart = (s.rxOf b1).epochStart + s.cur (Reg.RFX_GAIN_CFG_epoch_us b1) * 1000 ∧
      (u.rxOf b1).unschedNow = (s.rxOf b1).unschedNext ∧ (u.rxOf b1).unschedNext = false ∧ ((s.rxOf b1).ceil = [] →
      s.get (Reg.RFX_CTRL_gain_manual b1) = 1 → s.get (Reg.RFX_GAIN_CFG2_gain_man b1) < 2 ^ 5 →
      u.get (Reg.RFX_STATUS_gain_idx b1) = s.get (Reg.RFX_GAIN_CFG2_gain_man b1)))) ∧
    (∀ (n : Nat) (fresh : Bool), s.get (Reg.RFX_STATUS_state b1) = 2 →
      atLeast1 (s.get (Reg.RFX_GAIN_CFG2_ovl_count b1)) ≤ n → s.cur (Reg.RFX_CTRL_gain_manual b1) = 0 →
      0 < s.get (Reg.RFX_STATUS_gain_idx b1) → (s.rxOf b1).stepDue = false →
      leadsTo (.adcOverload t b1 n fresh) s (((s.now t).bump (Reg.RFX_CNT_OVL b1)).onRx b1
      (fun r => { r with stepDue := true, episode := false }))) ∧
    (∀ (l d : Nat), s.get (Reg.RFX_STATUS_gain_idx b1) < 2 ^ 5 → (s.rxOf b1).stepDue = true →
      (s.rxOf b1).lastUnsched = none ∨ (s.rxOf b1).lastUnsched = some l → l + 1000 ≤ max s.ltb t →
      s.cur (Reg.RFX_CTRL_gain_manual b1) = 0 →
      d = min (s.get (Reg.RFX_STATUS_gain_idx b1)) (atLeast1 (s.get (Reg.RFX_GAIN_CFG2_ovl_step b1))) →
      changes (.unscheduledStep t b1) s ([Reg.RFX_STATUS_gain_idx b1] ++ (bandLanes s b1).map
      Reg.CHZ_LANE_STAT_agc_gain) ([Reg.RFX_CNT_STEP_UNSCHED b1] ++ (bandLanes s b1).map
      Reg.CHZ_LANE_CNT_STEP_MIDFRAME) [.rx] (fun u =>
      u.get (Reg.RFX_STATUS_gain_idx b1) = s.get (Reg.RFX_STATUS_gain_idx b1) - d ∧
      u.count (Reg.RFX_CNT_STEP_UNSCHED b1) = (s.count (Reg.RFX_CNT_STEP_UNSCHED b1) + 1) % 2 ^ 32 ∧
      (u.rxOf b1).stepDue = false ∧ (u.rxOf b1).lastUnsched = some (max s.ltb t))) ∧
    (∀ (ir : List (Option Nat)), s.get (Reg.RFX_STATUS_state b1) = 2 → s.get (Reg.RFX_CTRL_cal_mode b1) = 0 →
      (s.rxOf b1).irAt + atLeast1 (s.get (Reg.RFX_CAL_CFG_ir_period b1)) * 1000000 ≤ max s.ltb t →
      changes (.irUpdate t b1 ir) s [Reg.RFX_IR_STAT_ir_worst b1, Reg.RFX_IR_STAT_ir_seg b1,
      Reg.RFX_STATUS_ir_ok b1] [] [.rx] (fun u => (u.rxOf b1).irAt = max s.ltb t ∧
      (u.rxOf b1).ir = (List.range 16).map (fun i => ((ir.getD i none).getD ((s.rxOf b1).ir.getD i 255))))) ∧
    (∀ (k : Fin 16) (x : Nat), s.get (Reg.RFX_STATUS_state b1) = 2 → s.get (Reg.RFX_CTRL_cal_mode b1) = 0 →
      (s.rxOf b1).heard.getD k.val 0 + s.get (Reg.RFX_CAL_CFG_ir_stale b1) * 1000000000 + 2000000 ≤ max s.ltb t →
      changes (.staleSegmentTone t b1 k x) s [Reg.RFX_IR_STAT_ir_worst b1, Reg.RFX_IR_STAT_ir_seg b1,
      Reg.RFX_STATUS_ir_ok b1] [] [.rx] (fun u => u.rxOf b1 = { s.rxOf b1 with
        ir := (List.range 16).map (fun i => if i = k.val then x else (s.rxOf b1).ir.getD i 255),
        heard := (List.range 16).map (fun i => if i = k.val then max s.ltb t else (s.rxOf b1).heard.getD i 0) })) ∧
    (∀ (temp : Int), changes (.filterRetune t b1 temp) s [Reg.RFX_IR_STAT_temp b1] [] [.rx] (fun u =>
      u.get (Reg.RFX_IR_STAT_temp b1) = unsigned (Reg.RFX_IR_STAT_temp b1).w temp ∧ (u.rxOf b1).temp = temp ∧
      (s.get (Reg.RFX_STATUS_state b1) = 2 → s.get (Reg.RFX_CTRL_cal_mode b1) = 0 →
      s.get (Reg.RFX_CAL_CFG_temp_delta b1) * 10 ≤ (temp - (s.rxOf b1).tuneTemp).natAbs →
      (u.rxOf b1).tuneTemp = temp)))

/-- R19, R40, R89, R90 and R96. A start-up calibration of a chain in OFF takes 6 ms and leaves cal_done 1 with EV075;
an enabled chain with no park slot starts in IDLE without lock; one that is disabled outside a transmission goes
OFF, its commands ended; A command of these that writes TXC_CTRLn of a powered chain drives its FEM balls at the
inactive level (R441). PARK hops to the frequency of the park slot; a sensor reading is kept. That cal_done stays
1 during a second startcal is the model's choice (log 307). -/
def Obligations.ChainEnableCompletes : Prop :=
  ∀ (t : Nat) (n : Fin 4) (s : State), s.settled →
    (s.get (Reg.TXC_STATUS_state n) = chOFF → s.get Reg.PWR_STATUS_state = 0 →
      leadsTo (.chainStartcal t n) s (femOff (((s.now t).set (Reg.TXC_STATUS_state n) chSTARTCAL).onChain n
      (fun c => { c with calEnd := some (max s.ltb t + 6000000) })) n)) ∧
    (∀ (e : Nat), (s.chainOf n).calEnd = some e → e ≤ max s.ltb t → s.get (Reg.TXC_STATUS_state n) = chSTARTCAL →
      changes (.chainStartcalDone t n) s [Reg.TXC_STATUS_state n, Reg.TXC_STATUS_cal_done n] [] [.chains] (fun u =>
      u.get (Reg.TXC_STATUS_state n) = chOFF ∧ u.get (Reg.TXC_STATUS_cal_done n) = 1 ∧ 75 ∈ u.hif.pend ∧
      u.chainOf n = { s.chainOf n with calEnd := none })) ∧
    (s.get (Reg.TXC_CTRL_enable n) = 0 → s.get (Reg.TXC_STATUS_state n) = chOFF →
      s.get (Reg.TXC_STATUS_cal_done n) ≠ 0 → (s.chainOf n).slots ≠ [] → s.get (Reg.TXC_STATUS_region_block n) = 0 →
      s.get Reg.PWR_STATUS_state = 0 → tabGet (s.chainOf n).slots (s.get (Reg.TXC_PARK_park_slot n)) = none →
      leadsTo (.chainEnable t n) s (femOff (((((s.now t).set (Reg.TXC_CTRL_enable n) 1).onChain n
      (fun c => { c with disabling := false })).set (Reg.TXC_STATUS_state n) chIDLE).set (Reg.TXC_STATUS_locked n) 0)
      n)) ∧
    (∀ (c : Chain) (x : TxCmd), s.get (Reg.TXC_CTRL_enable n) ≠ 0 → s.get (Reg.TXC_STATUS_state n) = chIDLE ∨
      s.get (Reg.TXC_STATUS_state n) = chSETTLE →
      s.chainOf n = { c with active := some x, next := none, waiting := [] } → x.issuer = .beacon →
      changes (.chainDisable t n) s [Reg.TXC_CTRL_enable n, Reg.TXC_STATUS_state n] [Reg.TXC_CNT_NOT_READY n]
      [.chains, .pins] (fun u => u.get (Reg.TXC_CTRL_enable n) = 0 ∧ u.get (Reg.TXC_STATUS_state n) = chOFF ∧
      (u.chainOf n).active = none ∧ u.count (Reg.TXC_CNT_NOT_READY n) = (s.count (Reg.TXC_CNT_NOT_READY n) + 1) % 2 ^
      32)) ∧
    (s.get (Reg.TXC_CTRL_enable n) ≠ 0 → s.get (Reg.TXC_STATUS_state n) = chIDLE ∨
      s.get (Reg.TXC_STATUS_state n) = chSETTLE → (s.chainOf n).active = none → (s.chainOf n).next = none →
      (s.chainOf n).waiting = [] → (s.chainOf n).evict = none →
      leadsTo (.chainDisable t n) s (txcDrive ((((s.now t).set (Reg.TXC_CTRL_enable n) 0).onChain n (fun c => { c with
        active := none, next := none, waiting := [], heldIds := [], disabling := false, started := false,
        hop := none })).set (Reg.TXC_STATUS_state n) chOFF) n)) ∧
    (s.get (Reg.TXC_CTRL_enable n) ≠ 0 → completes (.chainDisable t n) s (fun u => u.get (Reg.TXC_CTRL_enable n) = 0 ∧
      u.get (Reg.TXC_STATUS_state n) = if s.get (Reg.TXC_STATUS_state n) ∈ [chTX, chRAMPDN, chONCAL] then s.get
      (Reg.TXC_STATUS_state n) else chOFF)) ∧
    (∀ (k : CacheSlot), s.get (Reg.TXC_STATUS_state n) = chIDLE →
      tabGet (s.chainOf n).slots (s.get (Reg.TXC_PARK_park_slot n)) = some k →
      leadsTo (.park t n) s ((((s.now t).set (Reg.TXC_STATUS_state n) chSETTLE).set (Reg.TXC_STATUS_locked n)
      0).onChain n (fun c => { c with hop := some (k.freq, max s.ltb t), tuned := none }))) ∧
    (∀ (temp : Int) (vpa : Nat), leadsTo (.sensorRead t n temp vpa) s (((s.now t).set (Reg.TXC_SENSE_temp n)
      (unsigned (Reg.TXC_SENSE_temp n).w temp)).set (Reg.TXC_SENSE_vpa n) vpa))

/-- R92, R94 and R112. A fill of a free slot in the chain's range is queued and makes the command busy; an evict of a
slot that no command uses empties it and its canceller entry; a read shows the slot; a queued fill starts in IDLE
and takes 1.2 ms, also when it is tried again; when it is over the slot holds the frequency and the temperature.
That the lowest slot of a frequency is used is the model's choice (log 305). -/
def Obligations.CalibrationCacheCompletes : Prop :=
  ∀ (t : Nat) (n : Fin 4) (k : Fin 256) (s : State), s.settled →
    (s.get (Reg.TXC_CACHE_CMD_busy n) = 0 → inChainRange s n (s.get (Reg.TXC_CACHE_FREQ_freq_khz n)) = true →
      tabGet (s.chainOf n).slots k = none → changes (.cacheFill t n k) s
      [Reg.TXC_CACHE_CMD_slot n, Reg.TXC_CACHE_CMD_busy n] [] [.chains] (fun u =>
      u.get (Reg.TXC_CACHE_CMD_busy n) = 1 ∧ u.get (Reg.TXC_CACHE_CMD_slot n) = k ∧ u.chainOf n = { s.chainOf n with
        fills := (s.chainOf n).fills ++ [{
          slot := k, freq := s.get (Reg.TXC_CACHE_FREQ_freq_khz n), byCmd := true }] })) ∧
    (∀ (x : CacheSlot), s.get (Reg.TXC_CACHE_CMD_busy n) = 0 → tabGet (s.chainOf n).slots k = some x →
      slotUsed s n k = false → changes (.cacheEvict t n k) s [Reg.TXC_CACHE_CMD_slot n, Reg.TXC_CACHE_CMD_busy n,
      Reg.TXC_CACHE_CMD_result n, Reg.TXC_STATUS_cache_count n] [] [.chains, .sic] (fun u =>
      u.get (Reg.TXC_CACHE_CMD_result n) = 0 ∧ tabGet (u.chainOf n).slots k = none ∧ (∀ j, j ≠ k.val →
      tabGet (u.chainOf n).slots j = tabGet (s.chainOf n).slots j) ∧ tabGet u.sic.entries (n * 256 + k) = none ∧
      u.sic.tx = s.sic.tx)) ∧
    (∀ (x : CacheSlot), s.get (Reg.TXC_CACHE_CMD_busy n) = 0 → tabGet (s.chainOf n).slots k = some x →
      leadsTo (.cacheRead t n k) s (((((s.now t).set (Reg.TXC_CACHE_CMD_slot n) k).set (Reg.TXC_CACHE_RD_freq_khz n)
      x.freq).set (Reg.TXC_CACHE_RD_valid n) 1).set (Reg.TXC_CACHE_CMD_result n) 0)) ∧
    (∀ (f : Fill) (l : List Fill), (s.chainOf n).fills = f :: l → f.notBefore ≤ max s.ltb t → f.preempts = 0 →
      s.get (Reg.TXC_STATUS_state n) = chIDLE → (s.chainOf n).active = none → (s.chainOf n).next = none →
      s.get Reg.PWR_STATUS_state = 0 → leadsTo (.oncalStart t n) s
      (((s.now t).set (Reg.TXC_STATUS_state n) chONCAL).onChain n (fun c =>
      { c with fills := l, cal := some (f, max s.ltb t + 1200000) }))) ∧
    (∀ (f : Fill) (l : List Fill), (s.chainOf n).fills = f :: l → f.notBefore ≤ max s.ltb t → 0 < f.preempts →
      s.get (Reg.TXC_STATUS_state n) = chIDLE → (s.chainOf n).active = none → (s.chainOf n).next = none →
      s.get Reg.PWR_STATUS_state = 0 → leadsTo (.calRetry t n) s
      (((s.now t).set (Reg.TXC_STATUS_state n) chONCAL).onChain n (fun c =>
      { c with fills := l, cal := some (f, max s.ltb t + 1200000) }))) ∧
    (∀ (f : Fill) (e : Nat) (found : ChanCal), (s.chainOf n).cal = some (f, e) → e ≤ max s.ltb t →
      s.get (Reg.TXC_STATUS_state n) = chONCAL → changes (.oncalComplete t ⟨n, found⟩) s [Reg.TXC_STATUS_state n,
      Reg.TXC_CACHE_CMD_busy n, Reg.TXC_CACHE_CMD_result n, Reg.TXC_STATUS_cache_count n] [] [.chains, .sic] (fun u =>
      tabGet (u.chainOf n).slots f.slot = some {
        freq := f.freq, cal := found, tempCal := s.sget (Reg.TXC_SENSE_temp n) } ∧ (u.chainOf n).cal = none ∧
      tabGet u.sic.entries (n * 256 + f.slot) = none ∧ (f.byCmd = true → u.get (Reg.TXC_CACHE_CMD_busy n) = 0 ∧
      u.get (Reg.TXC_CACHE_CMD_result n) = 0) ∧
      u.get (Reg.TXC_STATUS_state n) = if s.get (Reg.TXC_CTRL_enable n) = 0 then chOFF else chIDLE))

/-- R88 to R91, R93, R95, R109, R112 and R119. A chain without a command takes one; a command withdrawn before its
turnaround ends CANCELLED; at its turnaround the chain hops to the cached channel and fixes the deadline, 120 µs
ahead where it has none; at the lock point a locked chain enters PREP with the FEM balls raised and its ceiling
set; 2 µs before the ramp the receiver steps down to the ceiling; the first symbol radiates the command at its
deadline; RAMPDN follows the last symbol; and the command ends OK. The model's choices here: which cache slot of
equal frequency is used (log 305), which trained slot seeds the canceller (log 306), that a lane on the channel is
an enabled one (log 308), that the slot's stored dig_depth enters cd_thr_eff, computed at PREP (logs 101, 309),
that a write-back's length runs from ramp completion (log 310), when a ceiling is in force and how it is rounded
(logs 100, 102), and what the detector's trim compares with (log 50). -/
def Obligations.TransmissionCompletes : Prop :=
  ∀ (t : Nat) (n : Fin 4) (x : TxCmd) (s : State), s.settled →
    (s.get (Reg.TXC_CTRL_enable n) ≠ 0 → (s.chainOf n).active = none → x.start = none ∨ ∃ st, x.start = some st ∧
      max s.ltb t + 120000 ≤ st → leadsTo (.txCommand t n x) s ((s.now t).onChain n
      (fun c => { c with active := some x, started := false }))) ∧
    (∀ (i : Nat), (s.chainOf n).active = some x → (s.chainOf n).next = none → (s.chainOf n).waiting = [] →
      (s.chainOf n).started = false → x.id = i → x.issuer = .beacon → (s.chainOf n).evict = none →
      changes (.commandWithdraw t n i) s [] [] [.chains] (fun u => u.chainOf n = { s.chainOf n with active := none }))
      ∧
    (∀ (p : Bool) (k : Nat), (s.chainOf n).active = some x → (s.chainOf n).next = none →
      (s.chainOf n).started = false → x.issuer = .slot → x.start = none ∨ x.start = some (max s.ltb t + 120000) →
      s.get (Reg.TXC_STATUS_state n) = chIDLE → ¬ x.id ∈ (s.chainOf n).heldIds → s.get Reg.TXC_COEX_STAT_grant = 0 →
      slotOf s n x.freq = some k → changes (.turnaroundStart t n p) s [Reg.TXC_STATUS_state n,
      Reg.TXC_STATUS_locked n, Reg.TXC_COEX_STAT_prio] [Reg.TXC_CNT_PWR_LIMIT n] [.chains, .inForce] (fun u =>
      u.get (Reg.TXC_STATUS_state n) = chSETTLE ∧ u.get (Reg.TXC_STATUS_locked n) = 0 ∧
      (u.chainOf n).hop = some (x.freq, max s.ltb t) ∧ (u.chainOf n).slot = k ∧
      (u.chainOf n).active = some { x with start := some (max s.ltb t + 120000) } ∧ (u.chainOf n).started = true)) ∧
    (∀ (f h : Nat), (s.chainOf n).hop = some (f, h) → s.get (Reg.TXC_STATUS_state n) = chSETTLE →
      (s.chainOf n).started = true → leadsTo (.synthLock t n) s (((s.now t).set (Reg.TXC_STATUS_locked n) 1).onChain n
      (fun c => { c with hop := none, tuned := some f, lockAt := max s.ltb t }))) ∧
    (∀ (st : Nat), (s.chainOf n).active = some x → (s.chainOf n).started = true → (s.chainOf n).hop = none →
      (s.chainOf n).tuned = some x.freq → s.get (Reg.TXC_STATUS_state n) = chSETTLE → x.start = some st →
      st ≤ max s.ltb t + 40000 → changes (.lockPoint t n) s [Reg.TXC_STATUS_state n, Reg.SIC_CD_EFF_cd_thr_eff n,
      gTxField (chainBand n), Reg.SIC_STATUS_budget_exceeded_a,
      Reg.SIC_STATUS_budget_exceeded_b] [] [.pins, .sic, .chains, .rx, .inForce] (fun u =>
      (∀ f ∈ [Reg.SIC_CTRL_ceiling_en, Reg.SIC_CFG_tx_headroom], u.cur f = u.get f) ∧
      u.get (Reg.TXC_STATUS_state n) = chPREP ∧ u.level (.paen n) = some (s.get (Reg.TXC_CTRL_paen_pol n) == 0) ∧
      u.level (.sw n) = some (s.get (Reg.TXC_CTRL_sw_pol n) == 0) ∧
      u.chainOf n = { s.chainOf n with code := driverCode s n } ∧ (sicEna s (chainBand n) = false → u.rx = s.rx ∧
      u.get (gTxField (chainBand n)) = s.get (gTxField (chainBand n))) ∧ (sicEna s (chainBand n) = true →
      s.get Reg.SIC_CTRL_ceiling_en ≠ 0 → (s.rxOf (chainBand n)).ceil = [] →
      tabGet (u.rxOf (chainBand n)).ceil n = some (u.get (gTxField (chainBand n))) ∧
      (u.rxOf (chainBand n)).gPre = s.get (Reg.RFX_STATUS_gain_idx (chainBand n)) ∧
      (leakIn s n ≤ -200 ∨ u.get (gTxField (chainBand n)) = 0)))) ∧
    (∀ (st g c : Nat), (s.chainOf n).active = some x → x.start = some st →
      st ≤ max s.ltb t + ((s.chainOf n).rampUs + 4) * 1000 → s.get (Reg.TXC_STATUS_state n) = chPREP →
      (s.sicTxOf n).stepped = false → tabGet (s.rxOf (chainBand n)).ceil n = some c →
      g = s.get (gTxField (chainBand n)) → g < 2 ^ 5 →
      changes (.transmitStep t n) s ([Reg.RFX_STATUS_gain_idx (chainBand n)] ++ (bandLanes s (chainBand n)).map
      Reg.CHZ_LANE_STAT_agc_gain) ([Reg.SIC_CNT_TX_STEP n] ++ (bandLanes s (chainBand n)).map
      Reg.CHZ_LANE_CNT_STEP_MIDFRAME) [.sic, .rx] (fun u =>
      (u.rxOf (chainBand n)).ceil = (s.rxOf (chainBand n)).ceil ∧
      (u.rxOf (chainBand n)).gPre = (s.rxOf (chainBand n)).gPre ∧ u.sicTxOf n = { s.sicTxOf n with stepped := true } ∧
      u.get (Reg.RFX_STATUS_gain_idx (chainBand n)) = min g (s.get (Reg.RFX_STATUS_gain_idx (chainBand n))) ∧
      (g < s.get (Reg.RFX_STATUS_gain_idx (chainBand n)) →
      u.count (Reg.SIC_CNT_TX_STEP n) = (s.count (Reg.SIC_CNT_TX_STEP n) + 1) % 2 ^ 32))) ∧
    (∀ (st : Nat), (s.chainOf n).active = some x → x.start = some st → st ≤ max s.ltb t →
      s.get (Reg.TXC_STATUS_state n) = chPREP →
      changes (.firstSymbol t n) s [Reg.TXC_STATUS_state n] [Reg.SIC_CNT_TX_OVER_RX n, Reg.SIC_CNT_CD_UNCOVERED n,
      Reg.SIC_CNT_CD_UNARMED n] [.chains, .sic] (fun u => u.get (Reg.TXC_STATUS_state n) = chTX ∧
      u.chainOf n = { s.chainOf n with
        firstLtb := some st, firstAngle := angleAt (s.now t) st,
        ackExtra := s.get Reg.AMC_CSMA_CFG2_ack_wait_extra } ∧
      .airTx n x.freq x.profile (s.chainOf n).powerQ x.psdu (airFrames x) ∈ u.out)) ∧
    (∀ (f : Nat), (s.chainOf n).active = some x → (s.chainOf n).firstLtb = some f → f + x.airUs * 1000 ≤ max s.ltb t →
      s.get (Reg.TXC_STATUS_state n) = chTX → leadsTo (.lastSymbol t n) s
      (((s.now t).set (Reg.TXC_STATUS_state n) chRAMPDN).onChain n
      (fun c => { c with lastLtb := some (max s.ltb t) }))) ∧
    (∀ (l : Nat) (m : TxMeas), (s.chainOf n).active = some x → (s.chainOf n).lastLtb = some l →
      l + (s.chainOf n).rampUs * 1000 + 2000 ≤ max s.ltb t → s.get (Reg.TXC_STATUS_state n) = chRAMPDN →
      (s.chainOf n).next = none → (s.chainOf n).waiting = [] → (s.chainOf n).evict = none →
      (s.chainOf n).aborted = false → (s.chainOf n).disabling = false → x.issuer = .beacon →
      sicEna s (chainBand n) = false → (s.rxOf (chainBand n)).ceil = [] → tabGet s.sic.clear n = none →
      fusCovers s (chainBand n) x.chan x.occHz = [] → planAt s (chainBand n) x.chan = [] →
      changes (.rampdnComplete t n m) s [Reg.TXC_STATUS_state n, Reg.SIC_ISO_MEAS_iso_meas n,
      Reg.SIC_ISO_MEAS_ana_depth n, Reg.SIC_ISO_MEAS_dig_depth n, Reg.SIC_ISO_MEAS_slot n] [Reg.TXC_CNT_TX_OK n,
      Reg.TXC_CNT_PWR_LIMIT n, Reg.AMC_CNT_EB_SENT] [.chains, .sic, .pins] (fun u =>
      u.get (Reg.TXC_STATUS_state n) = chIDLE ∧ (u.chainOf n).active = none ∧ (u.chainOf n).started = false ∧
      u.count (Reg.TXC_CNT_TX_OK n) = (s.count (Reg.TXC_CNT_TX_OK n) + 1) % 2 ^ 32 ∧
      u.get (Reg.SIC_ISO_MEAS_iso_meas n) = m.iso % 2 ^ (Reg.SIC_ISO_MEAS_iso_meas n).w ∧
      u.level (.paen n) = some (s.get (Reg.TXC_CTRL_paen_pol n) != 0))) ∧
    (∀ (l : Nat) (m : TxMeas), (s.chainOf n).active = some x → (s.chainOf n).lastLtb = some l →
      l + (s.chainOf n).rampUs * 1000 + 2000 ≤ max s.ltb t → s.get (Reg.TXC_STATUS_state n) = chRAMPDN →
      completes (.rampdnComplete t n m) s (fun u =>
      u.get (Reg.TXC_STATUS_state n) = (if (s.chainOf n).disabling = true then chOFF else chIDLE) ∧
      u.count (Reg.TXC_CNT_TX_OK n) = (if (s.chainOf n).aborted = true then s.count (Reg.TXC_CNT_TX_OK n) else
      (s.count (Reg.TXC_CNT_TX_OK n) + 1) % 2 ^ 32) ∧
      u.level (.paen n) = some (s.get (Reg.TXC_CTRL_paen_pol n) != 0))) ∧
    (∀ (i : Nat), (s.chainOf n).active = some x → (s.chainOf n).started = false → x.id = i →
      endsIn (.commandWithdraw t n i) s (promote (endCmd ((s.begin t).setChain n
      { (s.begin t).chainOf n with active := none }) n x 7 none) n)) ∧
    (∀ (i : Nat) (y : TxCmd), (s.chainOf n).active = some x → x.id ≠ i → (s.chainOf n).next = some y → y.id = i →
      endsIn (.commandWithdraw t n i) s (promote (endCmd ((s.begin t).setChain n
      { (s.begin t).chainOf n with next := none }) n y 7 none) n)) ∧
    (∀ (p : Bool) (k : Nat) (c : Chain) (v : State), pickCmd (occDrop (setPrio (s.begin t) p) n) n = some (x, v) →
      (occDrop (setPrio (s.begin t) p) n).chainOf n = c → c.started = false →
      (occDrop (setPrio (s.begin t) p) n).get (Reg.TXC_STATUS_state n) = chIDLE → v.get Reg.TXC_COEX_STAT_grant = 0 →
      tooLate v x = false → slotOf v n x.freq = some k → completes (.turnaroundStart t n p) s (fun u =>
      u.get (Reg.TXC_STATUS_state n) = chSETTLE ∧ (u.chainOf n).hop = some (x.freq, max s.ltb t) ∧
      (u.chainOf n).slot = k ∧ (u.chainOf n).started = true))

/-- R38, R98, R99, R100 and R40. Enabling the interface claims TTO7 and drives COEX_GRANT inactive; a request that has
waited for grant_delay, with no chain busy, is granted and counted; the grant falls with the request, at a
revocation, and after req_max, which blocks it and raises EV074. The level of COEX_PRIO is the commands' operand
(log 103). -/
def Obligations.CoexCompletes : Prop :=
  ∀ (t : Nat) (s : State), s.settled →
    (s.get Reg.TXC_COEX_CTRL_coex_en = 0 → claimFree s 0x10 8 = true →
      changes (.coexEnable t) s [Reg.TXC_COEX_CTRL_coex_en, Reg.TXC_COEX_STAT_grant] [] [.claims, .pins, .coex] (fun u
      => u.get Reg.TXC_COEX_CTRL_coex_en = 1 ∧ u.get Reg.TXC_COEX_STAT_grant = 0 ∧
      tabGet u.claims 8 = some ⟨false, 0x10⟩ ∧ u.level (.tto 7) = some (s.get Reg.TXC_COEX_CTRL_grant_pol != 0))) ∧
    (∀ (p : Bool), s.get Reg.TXC_COEX_CTRL_coex_en ≠ 0 →
      leadsTo (.coexReqRise t p) s { ((s.now t).set Reg.TXC_COEX_STAT_req 1).setb Reg.TXC_COEX_STAT_prio p with
        coex := { reqSince := some (max s.ltb t) } }) ∧
    (∀ (p : Bool) (r : Nat), s.coex.reqSince = some r → s.coex.blocked = false → s.get Reg.TXC_COEX_CTRL_coex_en ≠ 0 →
      s.get Reg.TXC_COEX_STAT_grant = 0 → r + s.get Reg.TXC_COEX_CTRL_grant_delay * 1000 ≤ max s.ltb t →
      (∀ n ∈ coexSubjects s, chainBusy s n = false) → coexAckNear (s.now t) = false →
      changes (.coexGrant t p) s [Reg.TXC_COEX_STAT_grant, Reg.TXC_COEX_STAT_prio] [Reg.TXC_CNT_COEX_GRANT]
      [.pins, .coex] (fun u => u.get Reg.TXC_COEX_STAT_grant = 1 ∧
      u.coex = { s.coex with grantSince := some (max s.ltb t) } ∧
      u.count Reg.TXC_CNT_COEX_GRANT = (s.count Reg.TXC_CNT_COEX_GRANT + 1) % 2 ^ 32 ∧
      u.level (.tto 7) = some (s.get Reg.TXC_COEX_CTRL_grant_pol == 0))) ∧
    (s.get Reg.TXC_COEX_STAT_grant ≠ 0 → changes (.coexReqFall t) s [Reg.TXC_COEX_STAT_req, Reg.TXC_COEX_STAT_grant]
      [] [.pins, .coex] (fun u => u.get Reg.TXC_COEX_STAT_req = 0 ∧ u.get Reg.TXC_COEX_STAT_grant = 0 ∧ u.coex = {} ∧
      u.level (.tto 7) = some (s.get Reg.TXC_COEX_CTRL_grant_pol != 0))) ∧
    (∀ (p : Bool), s.get Reg.TXC_COEX_STAT_grant ≠ 0 → prioActive (setPrio s p) = false →
      coexAckNear (s.now t) = true → changes (.coexRevoke t p) s [Reg.TXC_COEX_STAT_prio, Reg.TXC_COEX_STAT_grant]
      [Reg.TXC_CNT_COEX_REVOKE] [.pins, .coex] (fun u => u.get Reg.TXC_COEX_STAT_grant = 0 ∧
      u.count Reg.TXC_CNT_COEX_REVOKE = (s.count Reg.TXC_CNT_COEX_REVOKE + 1) % 2 ^ 32)) ∧
    (∀ (g : Nat), s.get Reg.TXC_COEX_STAT_grant ≠ 0 → s.coex.grantSince = some g →
      g + atLeast1 (s.get Reg.TXC_COEX_CFG_req_max) * 1000000 ≤ max s.ltb t →
      changes (.reqMaxExpiry t) s [Reg.TXC_COEX_STAT_grant, Reg.TXC_COEX_STAT_req_max_hit] [] [.pins, .coex] (fun u =>
      u.get Reg.TXC_COEX_STAT_grant = 0 ∧ u.get Reg.TXC_COEX_STAT_req_max_hit = 1 ∧ u.coex.blocked = true ∧
      74 ∈ u.hif.pend))

/-- R112, R113, R120 and R121. While a chain transmits with its canceller enabled, the working coefficients take the
adapted values, at most once per µs, and freeze when a signal above the threshold appears; a collision on a
covered lane above the threshold is declared once, with EV079, and ends the command or not as the abort mask says;
the entry of an inactive slot is cleared and read on command. The model's choices here: a lane on the channel is
an enabled one (log 308), and a clear in SETTLE acts at once (log 311). -/
def Obligations.CancellerCompletes : Prop :=
  ∀ (t : Nat) (n : Fin 4) (s : State), s.settled →
    (∀ (taps coefs : List Cplx) (views : List SicView), ramped (s.now t) n = true → sicEna s (chainBand n) = true →
      (s.sicTxOf n).frozen = true ∨ s.cur Reg.SIC_CTRL_adapt_en = 0 ∨ max s.ltb t < (s.sicTxOf n).adaptAt + 1000 →
      leadsTo (.coeffAdapt t n taps coefs views) s (if foreignPower (s.now t) n views = true then (s.now t).setSicTx n
      { s.sicTxOf n with frozen := true } else s.now t)) ∧
    (∀ (taps coefs : List Cplx) (views : List SicView), ramped (s.now t) n = true → sicEna s (chainBand n) = true →
      (s.sicTxOf n).frozen = false → s.cur Reg.SIC_CTRL_adapt_en ≠ 0 → (s.sicTxOf n).adaptAt + 1000 ≤ max s.ltb t →
      leadsTo (.coeffAdapt t n taps coefs views) s ((s.now t).setSicTx n (if foreignPower (s.now t) n views = true
      then { s.sicTxOf n with frozen := true } else { s.sicTxOf n with
        taps := taps.take 8, coefs := coefs.take 24, adaptAt := max s.ltb t }))) ∧
    (∀ (x : TxCmd) (lane : Fin 128) (level : Int) (since : Option Nat), (s.chainOf n).active = some x →
      s.get (Reg.TXC_STATUS_state n) = chTX → (s.sicTxOf n).armed = true → (s.sicTxOf n).declared = false →
      lane.val ∈ lanesOnChannel s n x.freq → s.sget (Reg.SIC_CD_EFF_cd_thr_eff n) ≤ level →
      collisionHolds (s.now t) n since = true →
      changes (.collisionDeclared t n lane ⟨level, since⟩) s [Reg.TXC_STATUS_state n]
      [Reg.SIC_CNT_CD_ABORT n, Reg.SIC_CNT_CD_NOABORT n] [.sic, .chains] (fun u => (u.sicTxOf n).declared = true ∧
      79 ∈ u.hif.pend ∧ if bits (s.cur (Reg.SIC_CD_CFG_cd_abort_mask n)) (classCode x.cls) 1 = 1 then u.get
      (Reg.TXC_STATUS_state n) = chRAMPDN ∧ (u.chainOf n).aborted = true ∧
      (u.chainOf n).lastLtb = some (max s.ltb t) else u.get (Reg.TXC_STATUS_state n) = chTX ∧ u.chains = s.chains)) ∧
    (∀ (k : Fin 256), s.get (Reg.SIC_SLOT_CMD_busy n) = 0 → s.get (Reg.TXC_STATUS_state n) = chIDLE →
      changes (.sicClearEntry t n k) s [Reg.SIC_SLOT_CMD_slot n] [] [.sic] (fun u =>
      u.get (Reg.SIC_SLOT_CMD_slot n) = k ∧ tabGet u.sic.entries (n * 256 + k) = none ∧ ∀ j, j ≠ n * 256 + k.val →
      tabGet u.sic.entries j = tabGet s.sic.entries j)) ∧
    (∀ (k : Fin 256) (e : SicEntry), s.get (Reg.SIC_SLOT_CMD_busy n) = 0 → e = s.sicEntry n k →
      leadsTo (.sicReadEntry t n k) s ((((((s.now t).set (Reg.SIC_SLOT_CMD_slot n) k).setb (Reg.SIC_SLOT_RD_trained n)
      e.trained).setb (Reg.SIC_SLOT_RD_seeded n) e.seeded).set (Reg.SIC_SLOT_RD_ana_depth n) e.ana).set
      (Reg.SIC_SLOT_RD_dig_depth n) e.dig |>.set (Reg.SIC_SLOT_RD_iso n) (e.iso.getD 0)))

/-- R128, R129, R130, R135, R143, R147 and R148. A commit that passes the checks of R128 takes effect at once, on a
lane that receives nothing or does not defer, the lane in SWITCH unless it is OFF; a lane with an assignment is
enabled through its self-test and disabled, in any state, with the assignment kept; self-tests begin in SEARCH and
last 60 µs; one that passes sends the lane on, one that fails retires it; UNRETIRE tests a retired lane again. The
model's choices here: a lane's enable reads 0 once it is retired (log 20), a pending assignment is lost at
retirement and kept by a disable (log 53), a defer-0 commit to a lane that is to stop stops it (log 54), a self-
test asked for while one runs starts over (log 55), selftest_period counts epoch numbers (log 111), a disabled
retired lane goes to OFF (log 112), and a disable of a lane that is to stop raises EV084 (log 113). -/
def Obligations.LaneAssignmentCompletes : Prop :=
  ∀ (t : Nat) (n : Fin 128) (s : State), s.settled →
    (∀ (a : Assign) (f : BitVec 22), a = ⟨s.get (Reg.CHZ_LANE_CFG_band n), f.toNat,
      s.get (Reg.CHZ_LANE_CFG_profile n)⟩ → assignCheck (s.now t) n a = 0 → laneMid s n = false ∨
      s.get (Reg.CHZ_LANE_CTRL_defer n) = 0 → (s.laneOf n).stopping = false →
      changes (.laneCommit t n f) s [Reg.CHZ_LANE_FREQ_freq_khz n, Reg.CHZ_LANE_STAT_assign_result n,
      Reg.CHZ_LANE_STAT_pending n, Reg.CHZ_LANE_STAT_state n]
      [Reg.CHZ_LANE_CNT_REASSIGN_DROP n, Reg.ESC_CNT_RX_UNCOVERED] [.lanes, .amc, .esc] (fun u =>
      u.get (Reg.CHZ_LANE_STAT_assign_result n) = 0 ∧ (u.laneOf n).assign = some a ∧ (u.laneOf n).pending = none ∧
      (u.laneOf n).rx = none ∧ (s.get (Reg.CHZ_LANE_STAT_state n) ≠ laneOFF →
      (u.laneOf n).switchEnd = max s.ltb t + 50000) ∧
      u.get (Reg.CHZ_LANE_STAT_state n) = if s.get (Reg.CHZ_LANE_STAT_state n) = laneOFF then laneOFF else
      laneSWITCH)) ∧
    (∀ (a : Assign), (s.laneOf n).assign = some a → s.get (Reg.CHZ_LANE_STAT_assign_result n) = 0 →
      s.get (Reg.CHZ_LANE_STAT_state n) = laneOFF → laneIsRetired s n = false →
      s.get (Reg.RFX_CTRL_enable a.band) ≠ 0 → s.get (Reg.PHY_PROF_CTRL_valid a.profile) ≠ 0 →
      s.get (Reg.CHZ_LANE_CTRL_enable n) = 0 → changes (.laneEnable t n) s [Reg.CHZ_LANE_CTRL_enable n]
      [Reg.ESC_CNT_RX_UNCOVERED] [.lanes, .amc, .esc, .inForce] (fun u => u.get (Reg.CHZ_LANE_CTRL_enable n) = 1 ∧
      u.laneOf n = { s.laneOf n with
        testing := 1, testEnd := max s.ltb t + 60000, stormFrom := max s.ltb t, stormCnt := 0, stormHold := false,
        stormMs := atLeast1 (s.get Reg.CHZ_FAULT_CFG_storm_win),
        stormThr := atLeast1 (s.get Reg.CHZ_FAULT_CFG_storm_thr) })) ∧
    (changes (.laneDisable t n) s [Reg.CHZ_LANE_CTRL_enable n, Reg.CHZ_LANE_STAT_state n, Reg.CHZ_LANE_STAT_pending n,
      Reg.CHZ_LANE_STAT_agc_frozen n] [Reg.CHZ_LANE_CNT_REASSIGN_DROP n, Reg.ESC_CNT_RX_UNCOVERED]
      [.lanes, .amc, .esc] (fun u => u.get (Reg.CHZ_LANE_CTRL_enable n) = 0 ∧
      u.get (Reg.CHZ_LANE_STAT_state n) = laneOFF ∧ (u.laneOf n).rx = none ∧
      (u.laneOf n).assign = (s.laneOf n).pending.or (s.laneOf n).assign ∧ (laneMid s n = true →
      u.count (Reg.CHZ_LANE_CNT_REASSIGN_DROP n) = (s.count (Reg.CHZ_LANE_CNT_REASSIGN_DROP n) + 1) % 2 ^ 32) ∧
      ((s.laneOf n).stopping = true → 84 ∈ u.hif.pend))) ∧
    (s.get (Reg.CHZ_LANE_STAT_state n) = laneSEARCH → leadsTo (.selftest t n) s ((s.now t).onLane n (fun l => { l with
        testing := 2, testEnd := max s.ltb t + 60000, testReq := false }))) ∧
    (s.get (Reg.CHZ_LANE_STAT_state n) ≠ laneSEARCH →
      leadsTo (.selftest t n) s ((s.now t).onLane n (fun l => { l with testReq := true }))) ∧
    (∀ (d : Nat), s.get (Reg.CHZ_LANE_STAT_state n) = laneSEARCH → (s.laneOf n).testing = 0 →
      (s.laneOf n).periodic = some d → d ≤ max s.ltb t → (∀ e ∈ s.lanes, e.2.testing ≠ 3) →
      leadsTo (.periodicSelftest t n) s ((s.now t).onLane n (fun l => { l with
        testing := 3, testEnd := max s.ltb t + 60000, periodic := none }))) ∧
    (∀ (k : Nat) (dec : Bool) (rssiErr : Int), (s.laneOf n).testing = k → 1 ≤ k → k ≤ 3 →
      (s.laneOf n).testEnd ≤ max s.ltb t → dec = true → rssiErr.natAbs ≤ 10 →
      changes (.selftestComplete t n dec rssiErr) s [Reg.CHZ_LANE_FAULT_selftest_fail n, Reg.CHZ_LANE_STAT_state n] []
      [.lanes] (fun u => u.get (Reg.CHZ_LANE_FAULT_selftest_fail n) = 0 ∧ (u.laneOf n).testing = 0 ∧
      (k = 1 → (u.laneOf n).switchEnd = max s.ltb t + 50000) ∧
      u.get (Reg.CHZ_LANE_STAT_state n) = if k = 1 then laneSWITCH else s.get (Reg.CHZ_LANE_STAT_state n))) ∧
    (∀ (dec : Bool) (rssiErr : Int), (s.laneOf n).testing ≠ 0 → (s.laneOf n).testEnd ≤ max s.ltb t → dec = false ∨
      10 < rssiErr.natAbs → changes (.selftestComplete t n dec rssiErr) s [Reg.CHZ_LANE_FAULT_selftest_fail n,
      Reg.CHZ_RETIRED_retired (n / 32), Reg.CHZ_LANE_CTRL_enable n, Reg.CHZ_LANE_STAT_state n,
      Reg.CHZ_LANE_STAT_pending n, Reg.CHZ_LANE_STAT_agc_frozen n, Reg.PWR_PERM_CNT_count] [Reg.ESC_CNT_RX_UNCOVERED,
      Reg.PWR_CNT_PERMANENT, Reg.PWR_CNT_TRANSIENT] [.lanes, .amc, .esc, .power] (fun u =>
      u.get (Reg.CHZ_LANE_FAULT_selftest_fail n) = 1 ∧ u.get (Reg.CHZ_LANE_STAT_state n) = laneRETIRED ∧
      laneIsRetired u n = true ∧ u.get (Reg.CHZ_LANE_CTRL_enable n) = 0 ∧ (u.laneOf n).testing = 0 ∧
      80 ∈ u.hif.pend)) ∧
    (laneIsRetired s n = true → leadsTo (.unretire t n) s ((s.now t).onLane n (fun l =>
      { l with testing := 4, testEnd := max s.ltb t + 60000 }))) ∧
    (s.get (Reg.CHZ_LANE_STAT_state n) = laneSWITCH → (s.laneOf n).switchEnd ≤ max s.ltb t →
      (s.laneOf n).stopping = false → (s.laneOf n).pending = none →
      changes (.switchDone t n) s [Reg.CHZ_LANE_STAT_agc_frozen n, Reg.CHZ_LANE_STAT_pending n,
      Reg.CHZ_LANE_STAT_state n] [] [.lanes] (fun u => u.get (Reg.CHZ_LANE_STAT_state n) = laneSEARCH ∧
      u.get (Reg.CHZ_LANE_STAT_agc_frozen n) = 0 ∧ (u.laneOf n).rx = none ∧
      (u.laneOf n).assign = (s.laneOf n).assign ∧ ((s.laneOf n).testReq = true → (u.laneOf n).testing = 2)))

/-- R60, R132, R134, R135, R137, R138, R140, R141, R144, R145, R165, R168 and R170. A preamble in SEARCH that lies
above the lane's threshold locks it with its AGC frozen, a stronger new one locks it again; the SFD gives LTB,
angle, RSSI and taps; a PHR that passes leads to PAYLOAD; a frame with a good FCS is handed over with its record
and counted, one with a bad FCS is counted; an SFD that does not come and a parity error lead back to SEARCH. The
model's choices here: when a fitted symbol and a settling sample count (logs 51, 115), the longest preamble of MR-
OFDM (log 114), the intervals of occupancy (log 52), and what the demapper and the decoder make of a signal (log
312). -/
def Obligations.LaneReceptionCompletes : Prop :=
  ∀ (t : Nat) (n : Fin 128) (a : Assign) (r : LaneRx) (level : Int) (gain : Nat) (s : State), s.settled →
    (∀ (m : Int), s.get (Reg.CHZ_LANE_STAT_state n) = laneSEARCH → (s.laneOf n).testing = 0 →
      (s.laneOf n).assign = some a → s.get (Reg.RFX_STATUS_state a.band) = 2 → detects (s.now t) n m = true →
      changes (.preambleDetected t n ⟨level, m⟩ gain) s [Reg.CHZ_LANE_STAT_state n, Reg.CHZ_LANE_STAT_agc_frozen n,
      Reg.CHZ_LANE_STAT_agc_gain n] [Reg.CHZ_LANE_CNT_DET n] [.lanes] (fun u =>
      u.get (Reg.CHZ_LANE_STAT_state n) = laneSYNC ∧ u.get (Reg.CHZ_LANE_STAT_agc_frozen n) = 1 ∧
      u.get (Reg.CHZ_LANE_STAT_agc_gain n) = min 720 gain ∧
      u.count (Reg.CHZ_LANE_CNT_DET n) = (s.count (Reg.CHZ_LANE_CNT_DET n) + 1) % 2 ^ 32 ∧
      (u.laneOf n).rx = some { detectAt := max s.ltb t, level := level })) ∧
    (∀ (m : Int) (ti hz : Nat), (s.laneOf n).assign = some a → (s.laneOf n).rx = some r →
      s.get (Reg.CHZ_LANE_STAT_state n) = laneSYNC ∨ s.get (Reg.CHZ_LANE_STAT_state n) = laneHEADER →
      r.level + s.sget Reg.CHZ_CFG_restart_margin ≤ level → 250 < ti → detects (s.now t) n m = true →
      changes (.secondDetection t n ⟨level, m⟩ gain ti hz) s [Reg.CHZ_LANE_STAT_state n,
      Reg.CHZ_LANE_STAT_agc_frozen n, Reg.CHZ_LANE_STAT_agc_gain n] [Reg.CHZ_LANE_CNT_RESTART n] [.lanes] (fun u =>
      u.get (Reg.CHZ_LANE_STAT_state n) = laneSYNC ∧
      u.count (Reg.CHZ_LANE_CNT_RESTART n) = (s.count (Reg.CHZ_LANE_CNT_RESTART n) + 1) % 2 ^ 32 ∧
      (u.laneOf n).rx = some { detectAt := max s.ltb t, level := level })) ∧
    (∀ (m : Int) (ti hz : Nat), (s.laneOf n).assign = some a → (s.laneOf n).rx = some r →
      s.get (Reg.CHZ_LANE_STAT_state n) = lanePAYLOAD → (s.laneOf n).capture = true →
      r.rssi + (atLeast1 (s.get Reg.CHZ_CFG_capture_margin) : Int) ≤ level → 250 < ti → detects (s.now t) n m = true →
      changes (.secondDetection t n ⟨level, m⟩ gain ti hz) s [Reg.CHZ_LANE_STAT_state n,
      Reg.CHZ_LANE_STAT_agc_frozen n, Reg.CHZ_LANE_STAT_agc_gain n] [Reg.CHZ_LANE_CNT_CAPTURED_OUT n] [.lanes] (fun u
      => u.get (Reg.CHZ_LANE_STAT_state n) = laneSYNC ∧
      u.count (Reg.CHZ_LANE_CNT_CAPTURED_OUT n) = (s.count (Reg.CHZ_LANE_CNT_CAPTURED_OUT n) + 1) % 2 ^ 32 ∧
      (u.laneOf n).rx = some { detectAt := max s.ltb t, level := level, captured := true })) ∧
    (∀ (sfd : BitVec 16) (ltf : List (Cplx × Cplx)), (s.laneOf n).assign = some a → (s.laneOf n).rx = some r →
      s.get (Reg.CHZ_LANE_STAT_state n) = laneSYNC → sfdMatches (phyOf s a.profile) sfd.toNat = true →
      changes (.sfdFound t n ⟨sfd, level, ltf⟩) s [Reg.CHZ_LANE_STAT_state n] [Reg.ESC_CNT_RX_UNCOVERED]
      [.lanes, .esc] (fun u => u.get (Reg.CHZ_LANE_STAT_state n) = laneHEADER ∧
      (u.laneOf n).eq = { taps := ltfTaps ltf } ∧
      (u.laneOf n).rx.map (fun x => { x with slot := r.slot }) = some { r with
        sfdLtb := max s.ltb t, sfdAngle := angleAt (s.now t) (max s.ltb t), rssi := clampInt (-128) 10 level } ∧
      ((∀ e ∈ s.esc.open_, e.2.tested = true) →
      (u.laneOf n).rx.map (·.slot) = some (slotOpen (s.now t) a.band a.freq)))) ∧
    ((s.laneOf n).assign = some a → (s.laneOf n).rx = some r → s.get (Reg.CHZ_LANE_STAT_state n) = laneSYNC →
      r.detectAt + sfdWaitNs (phyOf s a.profile) ≤ max s.ltb t → (s.laneOf n).stopping = false →
      (s.laneOf n).pending = none → changes (.sfdTimeout t n) s [Reg.CHZ_LANE_STAT_state n,
      Reg.CHZ_LANE_STAT_agc_frozen n, Reg.CHZ_LANE_STAT_pending n] [Reg.CHZ_LANE_CNT_FALSE n] [.lanes] (fun u =>
      u.get (Reg.CHZ_LANE_STAT_state n) = laneSEARCH ∧ u.get (Reg.CHZ_LANE_STAT_agc_frozen n) = 0 ∧
      (u.laneOf n).rx = none ∧ u.count (Reg.CHZ_LANE_CNT_FALSE n) = (s.count (Reg.CHZ_LANE_CNT_FALSE n) + 1) % 2 ^
      32)) ∧
    (∀ (seen : HeaderSeen) (p : Phr) (h : PhrInfo), (s.laneOf n).assign = some a → (s.laneOf n).rx = some r →
      s.get (Reg.CHZ_LANE_STAT_state n) = laneHEADER → p = headerBits (phyOf s a.profile) (s.laneOf n).eq seen →
      phrCheck (phyOf s a.profile) p = .inl h →
      leadsTo (.phrReceived t n seen) s (((s.now t).set (Reg.CHZ_LANE_STAT_state n) lanePAYLOAD).onLane n (fun l =>
      { l with
        capture := s.get (Reg.CHZ_LANE_CTRL_capture_en n) ≠ 0, eq := l.eq.track seen.pilots, rx := some { r with
          length := h.length, rate := h.rate, fcs2 := h.fcs2, whiten := h.whiten, seed := h.seed,
          reg := (List.range 3).map (fun i => bits p.raw.toNat (15 - i) 1) } }))) ∧
    (∀ (p q : List Byte) (snr : Int) (seen : SamplesSeen), (s.laneOf n).assign = some a → (s.laneOf n).rx = some r →
      s.get (Reg.CHZ_LANE_STAT_state n) = lanePAYLOAD →
      q = psduReceived (profFamily s a.profile) r.whiten r.seed (payloadOctets (phyOf s a.profile)
      ((s.laneOf n).eq.track seen.pilots) r.reg r.rate r.length p seen) → fcsGood r.fcs2 q = true →
      (s.laneOf n).stopping = false → (s.laneOf n).pending = none →
      changes (.laneFrameEnd t n p snr seen) s [Reg.CHZ_LANE_STAT_state n, Reg.CHZ_LANE_STAT_agc_frozen n,
      Reg.CHZ_LANE_STAT_pending n, Reg.CHZ_LANE_RX_rssi n,
      Reg.CHZ_LANE_RX_lqi n] [Reg.CHZ_LANE_CNT_FCS_OK n, Reg.CHZ_LANE_CNT_CLIP n] [.lanes, .laneRecs] (fun u =>
      u.get (Reg.CHZ_LANE_STAT_state n) = laneSEARCH ∧
      u.count (Reg.CHZ_LANE_CNT_FCS_OK n) = (s.count (Reg.CHZ_LANE_CNT_FCS_OK n) + 1) % 2 ^ 32 ∧
      u.laneRecs = s.laneRecs ++ [{
        lane := n, band := a.band, freq := a.freq, profile := a.profile, rssi := r.rssi, lqi := lqiOf snr,
        ltb := r.sfdLtb, angle := r.sfdAngle, endLtb := max s.ltb t, captured := r.captured, slot := r.slot,
        rate := r.rate, fcs2 := r.fcs2, whiten := r.whiten, psdu := q.take (q.length - fcsLen r.fcs2) }])) ∧
    (∀ (p q : List Byte) (snr : Int) (seen : SamplesSeen), (s.laneOf n).assign = some a → (s.laneOf n).rx = some r →
      s.get (Reg.CHZ_LANE_STAT_state n) = lanePAYLOAD →
      q = psduReceived (profFamily s a.profile) r.whiten r.seed (payloadOctets (phyOf s a.profile)
      ((s.laneOf n).eq.track seen.pilots) r.reg r.rate r.length p seen) → fcsGood r.fcs2 q = false →
      (s.laneOf n).stopping = false → (s.laneOf n).pending = none →
      changes (.laneFrameEnd t n p snr seen) s [Reg.CHZ_LANE_STAT_state n, Reg.CHZ_LANE_STAT_agc_frozen n,
      Reg.CHZ_LANE_STAT_pending n, Reg.CHZ_LANE_FAULT_storm n] [Reg.CHZ_LANE_CNT_FCS_ERR n, Reg.CHZ_LANE_CNT_CLIP n]
      [.lanes] (fun u => u.get (Reg.CHZ_LANE_STAT_state n) = laneSEARCH ∧
      u.count (Reg.CHZ_LANE_CNT_FCS_ERR n) = (s.count (Reg.CHZ_LANE_CNT_FCS_ERR n) + 1) % 2 ^ 32 ∧
      (u.laneOf n).stormCnt = (s.laneOf n).stormCnt + 1 ∧ ((s.laneOf n).stormHold = false →
      (s.laneOf n).stormThr = (s.laneOf n).stormCnt + 1 → 81 ∈ u.hif.pend))) ∧
    (min 15 (s.get (Reg.CHZ_LANE_FAULT_par_count n) + 1) < atLeast1 (s.cur Reg.CHZ_FAULT_CFG2_par_limit) →
      (s.laneOf n).stopping = false → (s.laneOf n).pending = none →
      changes (.parityError t n) s [Reg.CHZ_LANE_STAT_state n, Reg.CHZ_LANE_STAT_agc_frozen n,
      Reg.CHZ_LANE_STAT_pending n, Reg.CHZ_LANE_FAULT_par_count n,
      Reg.CHZ_LANE_FAULT_par_err n] [Reg.PWR_CNT_TRANSIENT] [.lanes] (fun u =>
      u.get (Reg.CHZ_LANE_STAT_state n) = (if s.get (Reg.CHZ_LANE_STAT_state n) = laneOFF ∨
      s.get (Reg.CHZ_LANE_STAT_state n) = laneRETIRED then s.get (Reg.CHZ_LANE_STAT_state n) else laneSEARCH) ∧
      u.get (Reg.CHZ_LANE_FAULT_par_count n) = min 15 (s.get (Reg.CHZ_LANE_FAULT_par_count n) + 1) ∧
      u.get (Reg.CHZ_LANE_FAULT_par_err n) = 1 ∧ 83 ∈ u.hif.pend)) ∧
    (∀ (l : Lane), s.get (Reg.CHZ_LANE_CTRL_enable n) ≠ 0 → l = s.laneOf n →
      l.stormFrom + l.stormMs * 1000000 ≤ max s.ltb t → leadsTo (.stormWindowEnd t n) s ((s.now t).onLane n (fun l =>
      { l with
        stormFrom := l.stormFrom + l.stormMs * 1000000, stormCnt := 0,
        stormHold := l.stormHold && decide (l.stormThr ≤ l.stormCnt),
        stormMs := atLeast1 (s.get Reg.CHZ_FAULT_CFG_storm_win),
        stormThr := atLeast1 (s.get Reg.CHZ_FAULT_CFG_storm_thr) }))) ∧
    (s.get (Reg.CHZ_LANE_STAT_state n) ≠ laneOFF → s.get (Reg.CHZ_LANE_STAT_state n) ≠ laneRETIRED →
      changes (.edRefresh t n level) s [Reg.CHZ_LANE_ED_ed n, Reg.CHZ_LANE_STAT_agc_gain n] [] [.lanes] (fun u =>
      u.get (Reg.CHZ_LANE_ED_ed n) = unsigned 8 (clampInt (-128) 127 level) ∧
      (u.laneOf n).assign = (s.laneOf n).assign ∧ (u.laneOf n).rx = (s.laneOf n).rx ∧
      (s.get (Reg.CHZ_LANE_STAT_agc_frozen n) ≠ 0 →
      u.get (Reg.CHZ_LANE_STAT_agc_gain n) = s.get (Reg.CHZ_LANE_STAT_agc_gain n)))) ∧
    (∀ (k : Fin 32), s.get (Reg.CHZ_RCH_FREQ_valid k) = 0 →
      (∀ e ∈ s.lanes, s.get (Reg.CHZ_LANE_CTRL_enable e.1) = 0) →
      leadsTo (.channelRetire t k) s ((s.now t).set (Reg.CHZ_RCH_FREQ_valid k) 1))

/-- R152, R153 and R172. A profile that passes the checks of R152 is loaded, with the result of its first failing
check where it does not; one that nothing uses is unloaded, one in use answers IN_USE, and one that is not loaded
changes nothing; an airtime query answers the airtime of R156, or invalid and 0 where the profile is not loaded or
the length is 0 or above max_psdu, and changes nothing else. The rule that it states whole is R172. -/
def Obligations.ModemCompletes : Prop :=
  ∀ (t : Nat) (k : Fin 32) (s : State), s.settled →
    (changes (.profileLoad t k) s [Reg.PHY_PROF_CTRL_load_result k, Reg.PHY_PROF_CTRL_valid k] [] [] (fun u =>
      u.get (Reg.PHY_PROF_CTRL_load_result k) = loadCheck s k % 8 ∧
      u.get (Reg.PHY_PROF_CTRL_valid k) = if loadCheck s k = 0 then 1 else s.get (Reg.PHY_PROF_CTRL_valid k))) ∧
    (profileInUse s k = false → s.get (Reg.PHY_PROF_CTRL_valid k) ≠ 0 →
      leadsTo (.profileUnload t k) s (((s.now t).set (Reg.PHY_PROF_CTRL_valid k) 0).set
      (Reg.PHY_PROF_CTRL_load_result k) 0)) ∧
    (profileInUse s k = true → s.get (Reg.PHY_PROF_CTRL_valid k) ≠ 0 →
      leadsTo (.profileUnload t k) s ((s.now t).set (Reg.PHY_PROF_CTRL_load_result k) 5)) ∧
    (s.get (Reg.PHY_PROF_CTRL_valid k) = 0 → leadsTo (.profileUnload t k) s (s.now t)) ∧
    (∀ (n : BitVec 11), s.get (Reg.PHY_PROF_CTRL_valid k) = 0 ∨ n.toNat = 0 ∨
      s.get (Reg.PHY_PROF_MAX_max_psdu k) < n.toNat →
      leadsTo (.airtimeQuery t k n) s (((((s.now t).set Reg.PHY_AIR_Q_profile k).set Reg.PHY_AIR_Q_psdu_len
      n.toNat).set Reg.PHY_AIR_RES_airtime_us 0).set Reg.PHY_AIR_RES_invalid 1)) ∧
    (∀ (n : BitVec 11), s.get (Reg.PHY_PROF_CTRL_valid k) ≠ 0 → 0 < n.toNat →
      n.toNat ≤ s.get (Reg.PHY_PROF_MAX_max_psdu k) →
      leadsTo (.airtimeQuery t k n) s (((((s.now t).set Reg.PHY_AIR_Q_profile k).set Reg.PHY_AIR_Q_psdu_len
      n.toNat).set Reg.PHY_AIR_RES_airtime_us (airtime s k n.toNat)).set Reg.PHY_AIR_RES_invalid 0))

/-- R19, R40, R205, R206 and R282. AMC is enabled with the Balance and a lane enabled and claims resource 32 (pool 0);
disabled, it gives the claim back and forgets the beacon answers it owed; each second a new step of the dwell
window begins. R199, R200 and R202. A beacon of a PRESENT neighbour that was covered at its instant and does not
come is counted as a miss of it, at the limit with EV129 and ABSENT; an ABSENT one whose hold is over is GONE,
with EV130, and its reservations are dropped. The model's choices here: beacons and frames of AMC at its disable
(logs 123, 128), and a neighbour's cycle number and hold (logs 57, 125). -/
def Obligations.AirMacCompletes : Prop :=
  ∀ (t : Nat) (s : State), s.settled →
    (∀ (n : Fin 128), s.get Reg.AMC_CTRL_enable = 0 → s.get Reg.BAL_CTRL_enable ≠ 0 →
      s.get (Reg.CHZ_LANE_CTRL_enable n) ≠ 0 → claimFree s 0x17 32 = true →
      changes (.amcEnable t) s [Reg.AMC_CTRL_enable] [] [.claims, .amc, .inForce] (fun u =>
      u.amc = { s.amc with ebSince := none, ebDone := [] } ∧ (∀ f ∈ ebFields, u.cur f = s.get f) ∧
      u.get Reg.AMC_CTRL_enable = 1 ∧ tabGet u.claims 32 = some ⟨false, 0x17⟩ ∧ ∀ r, r ≠ 32 →
      tabGet u.claims r = tabGet s.claims r)) ∧
    (s.get Reg.AMC_CTRL_enable ≠ 0 → s.amc.runs = [] → s.amc.handed = [] →
      changes (.amcDisable t) s [Reg.AMC_CTRL_enable] [] [.claims, .amc] (fun u => u.get Reg.AMC_CTRL_enable = 0 ∧
      u.amc = { s.amc with answers := [] } ∧ tabGet u.claims 32 ≠ some ⟨false, 0x17⟩)) ∧
    (s.get Reg.AMC_CTRL_enable ≠ 0 → completes (.amcDisable t) s (fun u => u.get Reg.AMC_CTRL_enable = 0 ∧
      u.amc.answers = [] ∧ tabGet u.claims 32 ≠ some ⟨false, 0x17⟩)) ∧
    (changes (.dwellStep t) s [] [] [.amc] (fun u =>
      u.amc.dwell = s.amc.dwell.map (fun e => (e.1, (0 :: e.2).take 60)) ∧ u.amc.waits = s.amc.waits ∧
      u.amc.nb = s.amc.nb)) ∧
    (∀ (k : Fin 32) (nb : Neighbour) (next win limit : Nat), tabGet s.amc.nb k = some nb → nb.state = 1 →
      nb.reached = some (next, true, win, limit) → s.get Reg.AMC_CTRL_nb_en ≠ 0 → balOff s = false →
      angleAfter ((next * 65536 + nb.angle + win) % angleMod) (liveAngle (s.now t)) = false →
      changes (.neighbourBeaconMissed t k) s [] [Reg.AMC_CNT_NB_MISS, Reg.ESC_CNT_RX_UNCOVERED] [.amc, .esc] (fun u =>
      u.count Reg.AMC_CNT_NB_MISS = (s.count Reg.AMC_CNT_NB_MISS + 1) % 2 ^ 32 ∧ (nb.miss + 1 < limit →
      tabGet u.amc.nb k = some { nb with
        miss := nb.miss + 1, tested := next, reached := none }) ∧ (limit ≤ nb.miss + 1 → 129 ∈ u.hif.pend ∧
      tabGet u.amc.nb k = some { nb with
        state := 2, miss := nb.miss + 1, tested := next, reached := none, hold := s.get Reg.AMC_NB_CFG2_nb_hold }))) ∧
    (∀ (k : Fin 32) (nb : Neighbour), tabGet s.amc.nb k = some nb → nb.state = 2 → nb.hold = 0 →
      s.get Reg.AMC_CTRL_nb_en ≠ 0 → changes (.neighbourHoldExpiry t k) s [] [Reg.AMC_CNT_RSV_CONFLICT] [.amc] (fun u
      => 130 ∈ u.hif.pend ∧ tabGet u.amc.nb k = some { nb with state := 3, rsv := [], goneAt := max s.ltb t } ∧ ∀ j,
      j ≠ k.val → tabGet u.amc.nb j = tabGet s.amc.nb j))

/-- R187, R188, R189 and R190. A frame handed to a chain, on a channel that passes the checks of R187, begins its
CSMA-CA run with a backoff of the first exponent; at the end of a backoff with the channel clear the command goes
to the chain, ASAP; an acknowledgement that does not come in time costs a retry, with a new backoff. The model's
choices here: the plan is looked at again at each backoff's end (log 121), a run that ends after collisions counts
as CSMA_CAF too (log 120), the draws are free values (log 2), and the lowest cache slot of a frequency is used
(log 305). -/
def Obligations.CsmaCompletes : Prop :=
  ∀ (t : Nat) (n : Fin 4) (a : AirOut) (f : EscFrame) (s : State), s.settled → f.air = some a →
    (∀ (q e : Nat), s.get Reg.AMC_CTRL_enable ≠ 0 → runOf s n = none → tabGet s.amc.handed n = some (f, q) →
      planCheck s (chainBand n) q a.parm.airUs = 0 →
      e = min (min 8 (s.get Reg.AMC_CSMA_CFG_max_be)) (s.get Reg.AMC_CSMA_CFG_min_be) →
      changes (.asyncStart t n) s [] [] [.amc] (fun u => tabGet u.amc.handed n = none ∧
      (runOf u n).map (fun r => (r.frame, r.freq, r.nb, r.be, r.cmd)) = some (f, q, 0, e, none) ∧
      ((runOf u n).bind (·.backoff)).any (fun b => decide (max s.ltb t ≤ b ∧
      b < max s.ltb t + 2 ^ e * atLeast1 (s.get Reg.AMC_CSMA_CFG2_unit_us) * 1000)) = true)) ∧
    (∀ (r : AsyncRun) (due k : Nat), runOf s n = some r → r.frame = f → r.backoff = some due → due ≤ max s.ltb t →
      planCheck s (chainBand n) r.freq 0 = 0 ∨ 3 < planCheck s (chainBand n) r.freq 0 →
      ccaBusy s (chainBand n) r.freq = false → s.get (Reg.TXC_CTRL_enable n) ≠ 0 → (s.chainOf n).active = none →
      nearSlot s n r.freq = some k → changes (.backoffExpiry t n) s [] [] [.amc, .chains] (fun u =>
      runOf u n = some { r with backoff := none, cmd := some s.amc.nextRef } ∧ (u.chainOf n).active = some {
        id := s.amc.nextRef, issuer := .async, cls := .async, freq := k, power := f.power, start := none,
        airUs := a.parm.airUs, profile := a.parm.profile, occHz := a.parm.occHz, psdu := withFcs a.parm.fcs2 a.psdu,
        ref := f.ref, phy := a.parm.phy, chan := r.freq })) ∧
    (∀ (w : AckWait) (r : AsyncRun), s.amc.waits = [w] → w.ended = false → w.issuer = .async → w.chain = n →
      w.ref = f.ref → w.deadline ≤ max s.ltb t → ackInAir s w = false → runOf s n = some r → r.frame = f →
      r.tries + 1 ≤ r.maxRetries → planCheck s (chainBand n) r.freq a.parm.airUs = 0 →
      changes (.ackWaitExpiry t w.ref) s [] [] [.amc] (fun u => u.amc.waits = [{ w with ended := true }] ∧
      (runOf u n).map (fun r => (r.tries, r.nb, r.be, r.cmd, r.backoff.isSome)) = some
      (r.tries + 1, 0, r.minBe, none, true))) ∧
    (∀ (w : AckWait), s.amc.waits.find? (fun x => x.ref == w.ref && !x.ended) = some w → w.deadline ≤ max s.ltb t →
      ackInAir (s.begin t) w = false → endsIn (.ackWaitExpiry t w.ref) s (ackResult (waitOver (s.begin t) w.ref) w
      (max s.ltb t) false []))

/-- R19, R69, R209, R215, R216 and R226, and the register table of chapter 08. SLP is enabled with AMC and ESC enabled
and claims comparator 14; disabled, it gives it back and drops its windows; a window whose hand-over is due is
handed over for the node's head frame, its target the angle of its first symbol; NODE_QUERY shows what the
Hairspring holds of a node. The model's choices here: when SLP decides a node's window (log 140), which nodes keep
fallback windows (log 147), and what its comparator holds (log 282). -/
def Obligations.SleepyNodesComplete : Prop :=
  ∀ (t : Nat) (k : Fin 131072) (s : State), s.settled →
    (s.get Reg.SLP_CTRL_enable = 0 → s.get Reg.AMC_CTRL_enable ≠ 0 → s.get Reg.ESC_CTRL_enable ≠ 0 →
      claimFree s 0x15 30 = true → changes (.slpEnable t) s [Reg.SLP_CTRL_enable] [] [.claims, .slp] (fun u =>
      u.slp = { s.slp with since := max s.ltb t } ∧ u.get Reg.SLP_CTRL_enable = 1 ∧
      tabGet u.claims 30 = some ⟨false, 0x15⟩)) ∧
    (s.get Reg.SLP_CTRL_enable ≠ 0 → changes (.slpDisable t) s [Reg.SLP_CTRL_enable] [] [.claims, .slp] (fun u =>
      u.get Reg.SLP_CTRL_enable = 0 ∧ u.slp = { s.slp with windows := [], pending := [] } ∧
      tabGet u.claims 30 ≠ some ⟨false, 0x15⟩)) ∧
    (∀ (a : AirOut) (f : EscFrame), f.air = some a → a.hop = some k.val → s.get Reg.SLP_CTRL_enable ≠ 0 →
      balOff s = false → slpServes s k = true → s.cget k Cx.hs_valid = 1 → s.cget k Cx.oos = 0 →
      performs s (s.cget k Cx.eui64) = true → tabGet s.slp.windows k = none → tabGet s.slp.tries k = none →
      slpFrames s k = [f] → expired (s.now t) (16 * agePort f + f.svc) f = false → s.cget k Cx.suspend = 0 →
      f.ctx = some k.val → s.esc.held = [] → (firstWake (s.now t) k a false 1 (slpDecided s k f : Nat) 4096
      (wakeFrom (s.now t) k 0 1 (slpDecided s k f : Nat))).first ≤ (max s.ltb t : Nat) + 420000 →
      (firstWake (s.now t) k a false 1 (slpDecided s k f : Nat) 4096
      (wakeFrom (s.now t) k 0 1 (slpDecided s k f : Nat))).span ≤ slpMaxNs s k →
      changes (.windowHandover t k) s [] [Reg.SLP_CNT_EXTENDED] [.slp] (fun u =>
      (tabGet u.slp.windows k).map (fun w => (w.target, w.frame, w.fallback)) = some (angleAhead (s.now t) (firstWake
      (s.now t) k a false 1 (slpDecided s k f : Nat) 4096
      (wakeFrom (s.now t) k 0 1 (slpDecided s k f : Nat))).first.toNat, f.ref, false) ∧ u.slp.tries = s.slp.tries)) ∧
    (∀ (a : AirOut) (f : EscFrame) (v : State), f.air = some a → s.get Reg.SLP_CTRL_enable ≠ 0 →
      balOff (s.begin t) = false → slpServes (s.begin t) k = true → s.cget k Cx.hs_valid = 1 → s.cget k Cx.oos = 0 →
      performs (s.begin t) (s.cget k Cx.eui64) = true → tabGet s.slp.windows k = none → tabGet s.slp.tries k = none →
      slpHead (s.begin t) k 64 = (some f, v) → (firstWake v k a false 1 (slpDecided v k f : Nat) 4096
      (wakeFrom v k 0 1 (slpDecided v k f : Nat))).first ≤ (v.ltb : Nat) + 420000 →
      (firstWake v k a false 1 (slpDecided v k f : Nat) 4096 (wakeFrom v k 0 1 (slpDecided v k f : Nat))).span ≤
      slpMaxNs v k → completes (.windowHandover t k) s (fun u =>
      (tabGet u.slp.windows k).map (fun w => (w.target, w.frame, w.fallback)) = some (angleAhead v (firstWake v k a
      false 1 (slpDecided v k f : Nat) 4096 (wakeFrom v k 0 1 (slpDecided v k f : Nat))).first.toNat, f.ref,
      false))) ∧
    (changes (.nodeQuery t k) s [Reg.SLP_NODE_Q_ctx, Reg.SLP_NODE_RD0_drift, Reg.SLP_NODE_RD1_unc_us,
      Reg.SLP_NODE_RD1_oos, Reg.SLP_NODE_RD1_hs_valid, Reg.SLP_NODE_RD1_miss] [] [] (fun u =>
      u.get Reg.SLP_NODE_Q_ctx = k ∧ u.get Reg.SLP_NODE_RD0_drift = s.cget k Cx.drift % 2 ^ Reg.SLP_NODE_RD0_drift.w ∧
      u.get Reg.SLP_NODE_RD1_oos = s.cget k Cx.oos % 4 ∧ u.get Reg.SLP_NODE_RD1_hs_valid = s.cget k Cx.hs_valid % 2 ∧
      u.get Reg.SLP_NODE_RD1_miss = s.cget k Cx.miss % 2 ^ Reg.SLP_NODE_RD1_miss.w))

/-- R19, R229 and R249. ESC is enabled with the Balance and a configured port and claims pool 1 (resource 33 of R436);
disabled, it gives the claim back and its receive occurrences close. At a slotframe boundary the bank that BANK
selects becomes the active one, with EV151. That occurrences across a change of bank are those of the bank in
force at their decision is the model's choice (log 162). -/
def Obligations.EscapementEnableCompletes : Prop :=
  ∀ (t : Nat) (s : State), s.settled →
    (∀ (p : Nat), s.get Reg.ESC_CTRL_enable = 0 → s.get Reg.BAL_CTRL_enable ≠ 0 → p < 8 →
      s.get (Reg.ESC_PORT_CTRL_cfg p) ≠ 0 → claimFree s 0x18 33 = true →
      changes (.escEnable t) s [Reg.ESC_CTRL_enable] [] [.claims] (fun u => u.get Reg.ESC_CTRL_enable = 1 ∧
      tabGet u.claims 33 = some ⟨false, 0x18⟩ ∧ ∀ r, r ≠ 33 → tabGet u.claims r = tabGet s.claims r)) ∧
    (changes (.escDisable t) s [Reg.ESC_CTRL_enable] [] [.claims, .esc] (fun u => u.get Reg.ESC_CTRL_enable = 0 ∧
      u.esc = { s.esc with open_ := [] } ∧ tabGet u.claims 33 ≠ some ⟨false, 0x18⟩)) ∧
    (∀ (k : Nat), balOff s = false → liveAngle (s.now t) / 65536 % frameLenOf s (bankAct s) = 0 →
      s.get Reg.ESC_BANK_bank_sel = k → k < 2 → k ≠ bankAct s →
      changes (.slotframeBoundary t) s [Reg.ESC_STATUS_bank_act, Reg.ESC_STATUS_bank_pending] [] [] (fun u =>
      u.get Reg.ESC_STATUS_bank_act = k ∧ u.get Reg.ESC_STATUS_bank_pending = 0 ∧ 151 ∈ u.hif.pend))

/-- R230, R231 and R234. At the decision of a transmit occurrence whose start is not reached, a frame of a service in
the entry's mask that passes the tests of R231 goes to the entry's chain as a SLOT command: its first symbol is
for tx_offset after the occurrence's start, shifted by how far the node's offset is from its scheduled offset; it
is counted in ESC_CNT_SLOT_SENT. Without a frame of the mask the occurrence is counted in ESC_CNT_SLOT_IDLE; after
the start, in ESC_CNT_SLOT_LATE. The model's choices here: when a plan entry is tested (log 59), the order of the
deficit round robin (log 160), occurrences across a change of bank (log 162). -/
def Obligations.TransmitOccurrenceCompletes : Prop :=
  ∀ (t : Nat) (k : Fin 512) (cyc g : Nat) (s : State), s.settled → s.get Reg.ESC_CTRL_enable ≠ 0 → balOff s = false →
    occInert s k = false → planDead s (s.get (Reg.ESC_SLOT_B_plan k)) = false → s.get Reg.ESC_CTRL_hold_stop = 0 →
    s.get Reg.ESC_CTRL_cyc_gate = 0 → tabGet s.esc.decided k ≠ some cyc → g = slotStart s k cyc →
    s.get (Reg.ESC_SLOT_B_dir k) = 0 → cyc = occCycle (s.now t) k (max 1311 (s.get Reg.ESC_SCHED_CFG_dec_lead)) →
    reached (s.now t) (g + angleMod - max 1311 (s.get Reg.ESC_SCHED_CFG_dec_lead)) = true →
    (∀ (a : AirOut) (f : EscFrame) (c plan h fr target start : Nat), reached (s.now t) g = false →
      c = s.get (Reg.ESC_SLOT_B_chain k) → c < 4 → plan = s.get (Reg.ESC_SLOT_B_plan k) → s.esc.sub = [(h, [f])] →
      s.esc.queue = [] → s.esc.held = [] → f.ctx = some h → f.air = some a → a.hop = some h → f.svc < 16 →
      a.parm.band = chainBand c → bits (s.get (Reg.ESC_SLOT_C_svc_mask k)) f.svc 1 = 1 →
      s.get (Reg.ESC_SVC_CTRL_prio (16 * c + f.svc)) < 4 → Memory.wf s.store = true → h < 131072 →
      s.get (Reg.ESC_SVC_AGE_age_max (16 * c + f.svc)) = 0 → s.cget h Cx.suspend = 0 → s.cget h Cx.slp_valid = 0 →
      s.cget h Cx.ofs_valid = 1 → s.get (Reg.ESC_SLOT_C_lgroup k) = 0xFF →
      (phaseDiff s h).natAbs ≤ 16 * s.get Reg.ESC_SCHED_CFG2_ofs_tol → svcPath s c f.svc = 0 →
      target = slotTarget s g h → (start : Int) = ltbOf (s.now t) target → max s.ltb t + 420000 ≤ start →
      (start : Int) + ((a.parm.airUs + ackUsOf s a) * 1000 : Nat) ≤ ltbOf (s.now t)
      ((g + s.get (Reg.ESC_SLOT_B_len k)) % angleMod) → s.get (Reg.ESC_SVC_RATE_rate (16 * c + f.svc)) = 0 →
      s.get (Reg.ESC_PORT_RATE_rate c) = 0 → s.cget h Cx.cur_rate = 0 → subPend s h = false →
      fusCovers s a.parm.band (planFreq s plan) a.parm.occHz = [] → planReserved (s.now t) plan = false →
      pickChain (s.now t) [c] a.parm.band (planFreq s plan) start a.parm.airUs = .inr ⟨c, fr, []⟩ →
      (s.chainOf c).active = none → changes (.txOccurrenceDecision t k) s
      [Reg.ESC_SVC_TOK_tok (16 * c + f.svc), Reg.ESC_PORT_TOK_tok c] [Reg.ESC_CNT_SLOT_SENT]
      [.esc, .store, .ctx, .amc, .chains] (fun u =>
      u.count Reg.ESC_CNT_SLOT_SENT = (s.count Reg.ESC_CNT_SLOT_SENT + 1) % 2 ^ 32 ∧
      u.esc.held = [{ f with slot := some k.val }] ∧ u.esc.sub = [] ∧
      (u.chainOf c).active.map (fun x => (x.cls, x.freq, x.start, x.airUs, x.psdu)) = some (.slot, fr, some start,
      a.parm.airUs, withFcs a.parm.fcs2 a.psdu) ∧
      (u.chainOf c).active.map (fun x => (x.phy, x.chan)) = some (a.parm.phy, planFreq s plan) ∧
      (s.amc.nextRef, target) ∈ (u.chainOf c).angles)) ∧
    (reached (s.now t) g = false → (∀ e ∈ s.esc.sub, ∀ f ∈ e.2,
      bits (s.get (Reg.ESC_SLOT_C_svc_mask k)) f.svc 1 = 0) →
      leadsTo (.txOccurrenceDecision t k) s (((s.now t).bump Reg.ESC_CNT_SLOT_IDLE).onEsc
      (fun e => { e with decided := tabPut e.decided k cyc }))) ∧
    (reached (s.now t) g = true → leadsTo (.txOccurrenceDecision t k) s (((s.now t).bump Reg.ESC_CNT_SLOT_LATE).onEsc
      (fun e => { e with decided := tabPut e.decided k cyc }))) ∧
    (∀ (h : EscFrame) (e : Nat × List EscFrame) (sel : Option EscFrame × State), reached (s.now t) g = false →
      e ∈ s.esc.sub → h ∈ e.2 → bits (s.get (Reg.ESC_SLOT_C_svc_mask k)) h.svc 1 = 1 →
      sel = selectFrame (slotTest k (s.get (Reg.ESC_SLOT_B_chain k)) g) (s.get (Reg.ESC_SLOT_B_chain k))
      (s.get (Reg.ESC_SLOT_C_svc_mask k)) false ((s.begin t).onEsc
      (fun e => { e with decided := tabPut e.decided k cyc })) (atLeast1 (s.get Reg.ESC_SCHED_CFG2_search_max))
      [0, 1, 2, 3] → endsIn (.txOccurrenceDecision t k) s (sel.1.elim (sel.2.bump Reg.ESC_CNT_SLOT_MISS) (fun f =>
      (f.air.map (slotRelease sel.2 k (s.get (Reg.ESC_SLOT_B_chain k)) g f)).getD sel.2)))

/-- R230 and R233. A receive occurrence opens rx_guard before its start: its entry is among the open ones; at its
start, where no enabled lane is assigned within 10 kHz of its plan entry's centre, it is counted in
ESC_CNT_RX_UNCOVERED. It closes its guard after its length. Occurrences across a change of bank are the model's
choice (log 162). -/
def Obligations.ReceiveOccurrenceCompletes : Prop :=
  ∀ (t : Nat) (k : Fin 512) (s : State), s.settled →
    (∀ (cyc g : Nat), s.get Reg.ESC_CTRL_enable ≠ 0 → balOff s = false → occInert s k = false →
      s.get (Reg.ESC_SLOT_B_dir k) ≠ 0 → cyc = occCycle (s.now t) k (s.get Reg.ESC_SCHED_CFG2_rx_guard) →
      tabGet s.esc.decided k ≠ some cyc → g = slotStart s k cyc →
      reached (s.now t) (g + angleMod - s.get Reg.ESC_SCHED_CFG2_rx_guard) = true →
      reached (s.now t) (g + s.get (Reg.ESC_SLOT_B_len k) + s.get Reg.ESC_SCHED_CFG2_rx_guard) = false →
      (∀ e ∈ s.esc.open_, e.2.tested = true) → reached (s.now t) g = false →
      leadsTo (.rxOccurrenceOpen t k) s ((s.now t).onEsc (fun e => { e with
        decided := tabPut e.decided k cyc,
        open_ := tabPut e.open_ k { start := g, guard := s.get Reg.ESC_SCHED_CFG2_rx_guard } }))) ∧
    (∀ (cyc g : Nat), s.get Reg.ESC_CTRL_enable ≠ 0 → balOff s = false → occInert s k = false →
      s.get (Reg.ESC_SLOT_B_dir k) ≠ 0 → cyc = occCycle (s.now t) k (s.get Reg.ESC_SCHED_CFG2_rx_guard) →
      tabGet s.esc.decided k ≠ some cyc → g = slotStart s k cyc →
      reached (s.now t) (g + angleMod - s.get Reg.ESC_SCHED_CFG2_rx_guard) = true →
      reached (s.now t) (g + s.get (Reg.ESC_SLOT_B_len k) + s.get Reg.ESC_SCHED_CFG2_rx_guard) = false →
      (∀ e ∈ s.esc.open_, e.2.tested = true) → reached (s.now t) g = true →
      planDead s (s.get (Reg.ESC_SLOT_B_plan k)) = false →
      changes (.rxOccurrenceOpen t k) s [] [Reg.ESC_CNT_RX_UNCOVERED] [.esc] (fun u =>
      u.count Reg.ESC_CNT_RX_UNCOVERED = (if planCovered s (s.get (Reg.ESC_SLOT_B_plan k)) = true then s.count
      Reg.ESC_CNT_RX_UNCOVERED else (s.count Reg.ESC_CNT_RX_UNCOVERED + 1) % 2 ^ 32) ∧ u.esc = { s.esc with
        decided := tabPut s.esc.decided k cyc, open_ := tabPut s.esc.open_ k {
          start := g, guard := s.get Reg.ESC_SCHED_CFG2_rx_guard, tested := true } })) ∧
    (∀ (o : RxOpen), tabGet s.esc.open_ k = some o → (∀ e ∈ s.esc.open_, e.2.tested = true) →
      reached (s.now t) (o.start + s.get (Reg.ESC_SLOT_B_len k) + o.guard) = true →
      leadsTo (.rxOccurrenceClose t k) s ((s.now t).onEsc (fun e => { e with open_ := tabDel e.open_ k })))

/-- R237, R239, R241 and R242. A chain without an ASYNC frame takes the frame of a service of its port that passes:
the frame is held, its channel is that of its plan entry, and AMC has it; it is counted in ESC_CNT_ASYNC_SENT.
R237, R241, R330, R367 and R384. A wired port takes the frame of its service that passes: an Ethernet port in RUN
that is not paused puts it into its transmit FIFO and, with nothing else there, begins to send it; the twin link
takes it for its credits, and the frame ends; port HOST fills the posted descriptor of its receive ring, counts it
in HIF_CNT_RX_FRAMES, and the frame ends. The model's choices here: an ASYNC frame without a channel (log 58), the
deficit round robin's visits (log 160), the twin link while TWN is disabled (log 180), what a credit stall counts
(log 184), and a posted descriptor that breaks a rule (log 210). -/
def Obligations.ReleasesComplete : Prop :=
  ∀ (t : Nat) (n : Fin 4) (s : State), s.settled →
    (∀ (m k : Nat) (a : AirOut) (f : EscFrame) (upset : List Nat), n.val = m → s.get Reg.ESC_CTRL_enable ≠ 0 →
      s.esc.sub = [] → s.esc.queue = [(16 * (m) + f.svc, [f])] → f.svc < 16 →
      s.get (Reg.ESC_SVC_CTRL_prio (16 * (m) + f.svc)) < 4 → s.get (Reg.ESC_SVC_AGE_age_max (16 * (m) + f.svc)) = 0 →
      s.get (Reg.ESC_SVC_RATE_rate (16 * (m) + f.svc)) = 0 → s.get (Reg.ESC_PORT_RATE_rate (m)) = 0 → f.port = m →
      f.ctx = none → f.air = some a → f.test = false → f.plan = some k → s.esc.held = [] →
      tabGet s.amc.handed n = none → runOf s n = none → fusCovers s (chainBand n) (planFreq s k) a.parm.occHz = [] →
      changes (.asyncRelease t ⟨n, upset⟩) s [Reg.ESC_SVC_TOK_tok (16 * m + f.svc), Reg.ESC_PORT_TOK_tok m]
      [Reg.ESC_CNT_ASYNC_SENT] [.esc, .amc] (fun u =>
      u.count Reg.ESC_CNT_ASYNC_SENT = (s.count Reg.ESC_CNT_ASYNC_SENT + 1) % 2 ^ 32 ∧ u.esc.held = [f] ∧
      u.esc.queue = [] ∧ u.amc = { s.amc with
        handed := tabPut s.amc.handed n (f, planFreq s k) })) ∧
    (∀ (m k : Nat) (a : AirOut) (f : EscFrame) (upset : List Nat) (v w : State), n.val = m →
      s.get Reg.ESC_CTRL_enable ≠ 0 → v = testRelease (s.begin t) m → tabGet s.amc.handed n = none →
      runOf s n = none → selectFrame (asyncTest m upset) m 0xFFFF true v (2 ^ 20) [0, 1, 2, 3] = (some f, w) →
      f.air = some a → asyncChannel w m f = some k →
      endsIn (.asyncRelease t ⟨n, upset⟩) s ((((holdFrame (fusHoldFor (chargeAll w m (frameCharge w m f) f)
      (chainBand m) k a.parm.occHz (asyncAir (chargeAll w m (frameCharge w m f) f) a) f.ref) f).bump
      Reg.ESC_CNT_ASYNC_SENT)).onAmc (fun x => { x with handed := tabPut x.handed m (f, k) }))) ∧
    (∀ (p : Fin 4) (f : EscFrame) (i : Nat) (posted : List (Nat × List (Nat × Nat))), i < 2 → p.val = i →
      s.get Reg.ESC_CTRL_enable ≠ 0 → s.esc.sub = [] → s.esc.queue = [(16 * (4 + i) + f.svc, [f])] → f.svc < 16 →
      s.get (Reg.ESC_SVC_CTRL_prio (16 * (4 + i) + f.svc)) < 4 →
      s.get (Reg.ESC_SVC_AGE_age_max (16 * (4 + i) + f.svc)) = 0 →
      s.get (Reg.ESC_SVC_RATE_rate (16 * (4 + i) + f.svc)) = 0 → s.get (Reg.ESC_PORT_RATE_rate (4 + i)) = 0 →
      f.port = 4 + i → f.ctx = none → ethState s i = 2 → s.get (Reg.ETH_STATUS_paused i) = 0 →
      s.get (Reg.ETH_CTRL_standby i) = 0 → (ethOf s i).txq = [] → f.octets.length + 4 ≤ 32768 →
      changes (.wiredPortRelease t p posted) s [Reg.ESC_SVC_TOK_tok (16 * (4 + i) + f.svc),
      Reg.ESC_PORT_TOK_tok (4 + i)] [] [.esc, .eth] (fun u => u.esc.queue = [] ∧ ethOf u i = { ethOf s i with
        txq := [f], sending := true, startAt := if (ethOf s i).sending then (ethOf s i).startAt else max s.ltb t } ∧
      ∀ j, j ≠ i → ethOf u j = ethOf s j)) ∧
    (∀ (p : Fin 4) (f : EscFrame) (posted : List (Nat × List (Nat × Nat))), p.val = 3 →
      s.get Reg.ESC_CTRL_enable ≠ 0 → s.esc.sub = [] → s.esc.queue = [(16 * (7) + f.svc, [f])] → f.svc < 16 →
      s.get (Reg.ESC_SVC_CTRL_prio (16 * (7) + f.svc)) < 4 → s.get (Reg.ESC_SVC_AGE_age_max (16 * (7) + f.svc)) = 0 →
      s.get (Reg.ESC_SVC_RATE_rate (16 * (7) + f.svc)) = 0 → s.get (Reg.ESC_PORT_RATE_rate (7)) = 0 → f.port = 7 →
      f.ctx = none → s.get Reg.TWN_STATUS_link_up ≠ 0 → creditsFor f ≤ s.twn.credits → f.mark = none →
      f.last = false → f.pool < 6 → changes (.wiredPortRelease t p posted) s [Reg.ESC_SVC_TOK_tok (16 * 7 + f.svc),
      Reg.ESC_PORT_TOK_tok 7, Reg.CTX_POOL_FREE_free f.pool] [Reg.TWN_CNT_CREDIT_STALL] [.esc, .twn] (fun u =>
      u.esc.queue = [] ∧ u.twn = { s.twn with
        credits := s.twn.credits - creditsFor f, stall := none } ∧ (s.twn.stall = none →
      u.count Reg.TWN_CNT_CREDIT_STALL = s.count Reg.TWN_CNT_CREDIT_STALL) ∧
      .twinTx f.twin f.rx.profile f.rx.rssi f.rx.lqi f.rx.angle f.octets ∈ u.out)) ∧
    (∀ (p : Fin 4) (f : EscFrame) (r addr len : Nat) (posted : List (Nat × List (Nat × Nat))), p.val = 2 →
      s.get Reg.ESC_CTRL_enable ≠ 0 → s.esc.sub = [] → s.esc.queue = [(16 * (6) + f.svc, [f])] → f.svc < 16 →
      s.get (Reg.ESC_SVC_CTRL_prio (16 * (6) + f.svc)) < 4 → s.get (Reg.ESC_SVC_AGE_age_max (16 * (6) + f.svc)) = 0 →
      s.get (Reg.ESC_SVC_RATE_rate (16 * (6) + f.svc)) = 0 → s.get (Reg.ESC_PORT_RATE_rate (6)) = 0 → f.port = 6 →
      f.ctx = none → svcRing s f.svc (hostHash f) = some r → ringLive s r = true → posted = [(r, [(addr, len)])] →
      badPosted (addr, len) = false → 0 < f.octets.length → f.octets.length ≤ len → (s.ringOf r).pIdx < 65536 →
      (s.ringOf r).cIdx < 65536 → (s.ringOf r).pIdx ≠ (s.ringOf r).cIdx → f.mark = none → f.last = false →
      f.pool < 6 → changes (.wiredPortRelease t p posted) s [Reg.ESC_SVC_TOK_tok (16 * 6 + f.svc),
      Reg.ESC_PORT_TOK_tok 6, Reg.CTX_POOL_FREE_free f.pool] [Reg.HIF_CNT_RX_FRAMES] [.esc, .rings] (fun u =>
      u.esc.queue = [] ∧ u.count Reg.HIF_CNT_RX_FRAMES = (s.count Reg.HIF_CNT_RX_FRAMES + 1) % 2 ^ 32 ∧
      (u.ringOf r).cIdx = ((s.ringOf r).cIdx + 1) % 65536 ∧ .memWrite (ringOwner s r) addr f.octets ∈ u.out ∧
      .memWrite (ringOwner s r) (ringBase s r + 32 * ((s.ringOf r).cIdx % ringSize s r)) (withPhase
      (rxDescriptor f addr f.octets.length true true) (phaseOf (s.ringOf r).cIdx
      (s.get (Reg.HIF_RING_CTRL_log2_size r)))) ∈ u.out)) ∧
    (∀ (p : Fin 4) (f : EscFrame) (i : Nat) (posted : List (Nat × List (Nat × Nat))) (v : State), i < 2 → p.val = i →
      wiredSelect (s.begin t) (4 + i) (fun s f => ethTakes s i f) = (some f, v) →
      endsIn (.wiredPortRelease t p posted) s (ethSend v i f)) ∧
    (∀ (p : Fin 4) (f : EscFrame) (posted : List (Nat × List (Nat × Nat))) (v : State), p.val = 3 →
      wiredSelect (s.begin t) 7 twinTakes = (some f, v) → endsIn (.wiredPortRelease t p posted) s (twinSend v f)) ∧
    (∀ (p : Fin 4) (f : EscFrame) (r : Nat) (posted : List (Nat × List (Nat × Nat))) (v w : State), p.val = 2 →
      wiredSelect (haltBadPosted (s.begin t) posted) 6 (hostTakes posted) = (some f, v) →
      svcRing v f.svc (hostHash f) = some r → w = (hostDeliver v f (tabGetD posted r [])).2 →
      endsIn (.wiredPortRelease t p posted) s (escEnd (markStage w f.mark 7 w.ltb) f false {}))

/-- R236, R242, R243, R247 and R285. SUB_READ shows a context's profile, suspension, pending bit, queue length and
tokens; SUB_WRITE puts a profile in force in its context, with the profile's rate and burst; SUB_FLUSH ends every
queued frame of the node; the bins of a regulator advance, and those past the last sixtieth of its window leave
its sum. -/
def Obligations.SubscribersComplete : Prop :=
  ∀ (t : Nat) (s : State), s.settled →
    (∀ (k : Fin 131072) (n : Nat), k.val = n → -(2 ^ 31) ≤ s.csget n Cx.tok → s.csget n Cx.tok < 2 ^ 31 →
      changes (.subRead t k) s [Reg.ESC_SUB_CMD_ctx, Reg.ESC_SUB_DATA_sub_prof, Reg.ESC_SUB_DATA_suspend,
      Reg.ESC_SUB_DATA_pend, Reg.ESC_SUB_DATA_qlen, Reg.ESC_SUB_TOK_tok] [] [] (fun u =>
      u.get Reg.ESC_SUB_CMD_ctx = n ∧ u.get Reg.ESC_SUB_DATA_sub_prof = s.cget n Cx.sub_prof ∧
      u.get Reg.ESC_SUB_DATA_suspend = s.cget n Cx.suspend ∧ (u.get Reg.ESC_SUB_DATA_pend = 1 ↔ subPend s n = true) ∧
      u.get Reg.ESC_SUB_DATA_qlen = s.cget n Cx.qlen ∧ u.sget Reg.ESC_SUB_TOK_tok = s.csget n Cx.tok)) ∧
    (∀ (k : Fin 131072) (n j v : Nat), k.val = n → Memory.wf s.store = true → j = s.get Reg.ESC_SUB_DATA_sub_prof →
      j < 64 → v = s.get Reg.ESC_SUB_DATA_suspend → v < 2 → profGen s j < 255 →
      s.get (Reg.ESC_SUBP_RATE_rate j) < 2 ^ 32 → s.get (Reg.ESC_SUBP_BURST_burst j) < 2 ^ 24 →
      s.cget n Cx.prof_gen ≠ profGen s j + 1 ∨ s.cget n Cx.prof_cur ≠ j →
      changes (.subWrite t k) s [Reg.ESC_SUB_CMD_ctx] [] [.store, .ctx, .esc] (fun u =>
      u.get Reg.ESC_SUB_CMD_ctx = n ∧ u.cget n Cx.sub_prof = j ∧ u.cget n Cx.suspend = v ∧ u.cget n Cx.prof_cur = j ∧
      u.cget n Cx.prof_gen = profGen s j + 1 ∧ profGen u j = profGen s j + 1 ∧
      u.cget n Cx.cur_rate = s.get (Reg.ESC_SUBP_RATE_rate j) ∧
      u.cget n Cx.cur_burst = s.get (Reg.ESC_SUBP_BURST_burst j) ∧ ∀ a, a < 192 * n ∨ 192 * n + 192 ≤ a →
      cellRead u.store a = cellRead s.store a)) ∧
    (∀ (k : Fin 131072) (n : Nat) (q : List EscFrame), k.val = n → Memory.wf s.store = true →
      tabGet s.esc.sub n = some q → (∀ f ∈ q, f.mark = none ∧ f.host = none) →
      changes (.subFlush t k) s ((q.map EscFrame.pool).map Reg.CTX_POOL_FREE_free) [] [.esc, .store, .ctx] (fun u =>
      u.esc = { s.esc with sub := tabDel s.esc.sub n } ∧ u.cget n Cx.qlen = 0 ∧ ∀ a, a < 192 * n ∨ 192 * n + 192 ≤ a →
      cellRead u.store a = cellRead s.store a)) ∧
    (∀ (k : Fin 131072) (n : Nat), k.val = n → Memory.wf s.store = true → completes (.subFlush t k) s (fun u =>
      subQueue u n = [] ∧ u.cget n Cx.qlen = 0 ∧ (∀ m, m ≠ n → subQueue u m = subQueue s m) ∧ ∀ a, a < 192 * n ∨
      192 * n + 192 ≤ a → cellRead u.store a = cellRead s.store a)) ∧
    (∀ (r : Fin 16) (i step : Nat) (f : Fusee), r.val = i → f = fusOf s i → s.get (Reg.ESC_FUS_LO_valid i) ≠ 0 →
      step = s.get (Reg.ESC_FUS_WIN_window_s i) * 1000000000 / 60 → f.binAt + step ≤ max s.ltb t →
      s.get Reg.ESC_FUSEE_STAT_closed < 2 ^ 16 → s.get Reg.ESC_FUSEE_STAT_breach < 2 ^ 16 →
      changes (.fuseeBinAdvance t r) s [Reg.ESC_FUS_SUM_sum i, Reg.ESC_FUS_HOLD_hold i, Reg.ESC_FUSEE_STAT_closed,
      Reg.ESC_FUSEE_STAT_breach] [Reg.ESC_CNT_FUSEE_BREACH] [.esc] (fun u =>
      (fusOf u i).bins = (0 :: f.bins).take 60 ∧ (fusOf u i).holds = f.holds ∧ (fusOf u i).binAt = f.binAt + step ∧
      u.get (Reg.ESC_FUS_SUM_sum i) = ((0 :: f.bins).take 60).sum % 2 ^ 32 ∧
      (bits (u.get Reg.ESC_FUSEE_STAT_closed) i 1 = 1 ↔ fusLimit s i - fusResv s i ≤ ((0 :: f.bins).take 60).sum +
      (f.holds.map (·.2)).sum) ∧ ∀ j, j ≠ i → j < 16 → fusOf u j = fusOf s j ∧
      bits (u.get Reg.ESC_FUSEE_STAT_closed) j 1 = bits (s.get Reg.ESC_FUSEE_STAT_closed) j 1))

/-- R254 and R258. A lookup command shows the entry of its key and kind and ends OK, or ends NOT_FOUND; a read command
shows the entry at its index, valid or not; a repair writes the entry at the index whole, keeps its version and
ends its bad mark. Which reads can meet a parity error (log 148), and when a lookup is made again (log 318), is
the model's choice. -/
def Obligations.NodeTableLooksUp : Prop :=
  ∀ (t : Nat) (upset : List Nat) (s : State), s.settled →
    (∀ (kind : Fin 2) (k key i : Nat), kind.val = k → key = keyFor (ntKey s) k →
      (∀ x ∈ ntReads s key k, ¬ x ∈ upset) → ntFind s key k = some i → i < 2 ^ 18 →
      changes (.ntLookup t kind upset) s ([Reg.FWD_NT_CMD_kind, Reg.FWD_NT_IDX_idx,
      Reg.FWD_NT_CMD_result] ++ (List.range 4).map Reg.FWD_NT_RD_word) [] [] (fun u =>
      u.get Reg.FWD_NT_CMD_result = 0 ∧ u.get Reg.FWD_NT_IDX_idx = i ∧ u.get Reg.FWD_NT_CMD_kind = k ∧ ∀ m, m < 4 →
      u.get (Reg.FWD_NT_RD_word m) = ntBits s i / 2 ^ (32 * m) % 2 ^ 32)) ∧
    (∀ (kind : Fin 2) (k key : Nat), kind.val = k → key = keyFor (ntKey s) k → (∀ x ∈ ntReads s key k, ¬ x ∈ upset) →
      ntFind s key k = none → changes (.ntLookup t kind upset) s [Reg.FWD_NT_CMD_kind, Reg.FWD_NT_CMD_result] [] []
      (fun u => u.get Reg.FWD_NT_CMD_result = 1 ∧ u.get Reg.FWD_NT_CMD_kind = k)) ∧
    (∀ (i : Nat), i = s.get Reg.FWD_NT_IDX_idx → i < 2 ^ 18 → ¬ i ∈ upset ∨ ntIsBad s i = true →
      changes (.ntRead t upset) s ([Reg.FWD_NT_CMD_result] ++ (List.range 4).map Reg.FWD_NT_RD_word) [] [] (fun u =>
      u.get Reg.FWD_NT_CMD_result = (if ntIsBad s i then 7 else 0) ∧ ∀ m, m < 4 →
      u.get (Reg.FWD_NT_RD_word m) = ntBits s i / 2 ^ (32 * m) % 2 ^ 32)) ∧
    (∀ (i : Nat), i = s.get Reg.FWD_NT_IDX_idx → i < 2 ^ 18 → i ∈ upset → ntIsBad s i = false →
      changes (.ntRead t upset) s ([Reg.FWD_NT_CMD_result] ++ (List.range 4).map Reg.FWD_NT_RD_word ++ fwdParityFields
      [i]) (fwdParityCounts [i]) [.fwd, .power] (fun u => u.get Reg.FWD_NT_CMD_result = 7 ∧ ntIsBad u i = true ∧
      u.get Reg.FWD_PAR_LOG_table = 0 ∧ u.get Reg.FWD_PAR_LOG_index = i ∧ u.get Reg.FWD_PAR_LOG_logged = 1 ∧
      u.fwd.pt = s.fwd.pt ∧ u.count Reg.FWD_CNT_PAR_ERR = (s.count Reg.FWD_CNT_PAR_ERR + 1) % 2 ^ 32)) ∧
    (∀ (kind : Fin 2) (k i p : Nat), Memory.wf s.store = true → kind.val = k → i = s.get Reg.FWD_NT_IDX_idx →
      isEntry i = true → (∀ x ∈ ntReads s (ntArg s) 0, ¬ x ∈ upset) →
      (if k = 1 then ntFind s (ntArg s) 0 else argParent s) = some p →
      changes (.ntRepair t kind upset) s [Reg.FWD_NT_CMD_kind, Reg.FWD_NT_FILL_nt_fill,
      Reg.FWD_NT_CMD_result] [] [.store, .fwd] (fun u => u.get Reg.FWD_NT_CMD_result = 0 ∧
      ntBits u i = putBits (entryBits (keyFor (ntKey s) k) (s.get Reg.FWD_NT_ARG_CTX_ctx) p
      (if k = 1 then 0 else 0xFF) (if k = 1 then 0 else 0xFF) (s.get Reg.FWD_NT_ARG_CTX_refs) k) Nt.ver.lo 2
      (nget s i Nt.ver) ∧ ntIsBad u i = false ∧ (nget s i Nt.valid = 0 →
      u.get Reg.FWD_NT_FILL_nt_fill = (s.get Reg.FWD_NT_FILL_nt_fill + 1) % 2 ^ 19) ∧ ∀ a, a < ntBase i ∨
      ntBase i + 16 ≤ a → cellRead u.store a = cellRead s.store a))

/-- R256, R258 and R259. A primary entry is inserted at a free way of its buckets with no parent and no lanes; an
alias with the context of its primary entry, whose references rise; a deletion without references makes the entry
invalid; a set parent without a loop changes the parent and the references of the new one. No other entry changes.
The order of the moves of an insertion that evicts is the model's reading (log 60). -/
def Obligations.NodeTableChanges : Prop :=
  ∀ (t : Nat) (upset : List Nat) (s : State), s.settled → Memory.wf s.store = true →
    (∀ (key i : Nat), key = ntKey s → (∀ x ∈ ntReads s key 0, ¬ x ∈ upset) → ntFind s key 0 = none →
      (freeWay s (ntBuckets s key 0).1).or (freeWay s (ntBuckets s key 0).2) = some i →
      changes (.ntInsertPrimary t upset) s [Reg.FWD_NT_FILL_nt_fill, Reg.FWD_NT_IDX_idx,
      Reg.FWD_NT_CMD_result] [] [.store] (fun u => u.get Reg.FWD_NT_CMD_result = 0 ∧
      u.get Reg.FWD_NT_IDX_idx = i % 2 ^ 18 ∧ u.get Reg.FWD_NT_FILL_nt_fill = (s.get Reg.FWD_NT_FILL_nt_fill + 1) % 2
      ^ 19 ∧ ntBits u i = entryBits key (s.get Reg.FWD_NT_ARG_CTX_ctx) ntNone 0xFF 0xFF 0 0 ∧ ∀ a, a < ntBase i ∨
      ntBase i + 16 ≤ a → cellRead u.store a = cellRead s.store a)) ∧
    (∀ (key i p : Nat), key = ntKey s % 2 ^ 16 → (∀ x ∈ ntReads s key 1 ++ ntReads s (ntArg s) 0, ¬ x ∈ upset) →
      ntFind s key 1 = none → ntFind s (ntArg s) 0 = some p → nget s p Nt.refs < 255 → p < 2 ^ 18 →
      (freeWay s (ntBuckets s key 1).1).or (freeWay s (ntBuckets s key 1).2) = some i →
      changes (.ntInsertAlias t upset) s [Reg.FWD_NT_FILL_nt_fill, Reg.FWD_NT_IDX_idx,
      Reg.FWD_NT_CMD_result] [] [.store] (fun u => u.get Reg.FWD_NT_CMD_result = 0 ∧
      u.get Reg.FWD_NT_IDX_idx = i % 2 ^ 18 ∧ ntBits u i = entryBits key (nget s p Nt.ctx) p 0 0 0 1 ∧
      ntBits u p = putBits (ntBits s p) Nt.refs.lo 8 (nget s p Nt.refs + 1) ∧ ∀ a,
      (a < ntBase i ∨ ntBase i + 16 ≤ a) → (a < ntBase p ∨ ntBase p + 16 ≤ a) →
      cellRead u.store a = cellRead s.store a)) ∧
    (∀ (kind : Fin 2) (k key i : Nat), kind.val = k → key = keyFor (ntKey s) k →
      (∀ x ∈ ntReads s key k, ¬ x ∈ upset) → ntFind s key k = some i → nget s i Nt.refs = 0 →
      isEntry (nget s i Nt.parent) = false → changes (.ntDelete t kind upset) s [Reg.FWD_NT_CMD_kind,
      Reg.FWD_NT_FILL_nt_fill, Reg.FWD_NT_CMD_result] [] [.store] (fun u => u.get Reg.FWD_NT_CMD_result = 0 ∧
      u.get Reg.FWD_NT_FILL_nt_fill = (s.get Reg.FWD_NT_FILL_nt_fill - 1) % 2 ^ 19 ∧ nget u i Nt.valid = 0 ∧
      ntBits u i = putBits (ntBits s i) Nt.valid.lo 1 0 ∧ ∀ a, a < ntBase i ∨ ntBase i + 16 ≤ a →
      cellRead u.store a = cellRead s.store a)) ∧
    (∀ (i p : Nat), (∀ x ∈ ntReads s (ntKey s) 0 ++ ntReads s (ntArg s) 0, ¬ x ∈ upset) →
      (∀ x ∈ walkEntries 24 s p, ¬ x ∈ upset) → ntFind s (ntKey s) 0 = some i → argParent s = some p → p < 2 ^ 18 →
      isEntry (nget s i Nt.parent) = false → isEntry p = true → nget s p Nt.refs < 255 → parentWalk 24 s p i = 0 →
      changes (.ntSetParent t upset) s [Reg.FWD_NT_CMD_result] [] [.store] (fun u => u.get Reg.FWD_NT_CMD_result = 0 ∧
      ntBits u i = putBits (ntBits s i) Nt.parent.lo 18 p ∧
      ntBits u p = putBits (ntBits s p) Nt.refs.lo 8 (nget s p Nt.refs + 1) ∧ nget u i Nt.parent = p ∧ ∀ a,
      (a < ntBase i ∨ ntBase i + 16 ≤ a) → (a < ntBase p ∨ ntBase p + 16 ≤ a) →
      cellRead u.store a = cellRead s.store a)) ∧
    (∀ (i : Nat), (∀ x ∈ ntReads s (ntKey s) 0 ++ ntReads s (ntArg s) 0, ¬ x ∈ upset) →
      ntFind s (ntKey s) 0 = some i → ntArg s = 2 ^ 64 - 1 → isEntry (nget s i Nt.parent) = false →
      changes (.ntSetParent t upset) s [Reg.FWD_NT_CMD_result] [] [.store] (fun u => u.get Reg.FWD_NT_CMD_result = 0 ∧
      ntBits u i = putBits (ntBits s i) Nt.parent.lo 18 ntSite ∧ ∀ a, a < ntBase i ∨ ntBase i + 16 ≤ a →
      cellRead u.store a = cellRead s.store a))

/-- R19, R260, R261 and R278. FWD is enabled while CTX is and claims pool 2 (resource 34), which it gives back when it
is disabled. A prefix goes to the first place after those that are as long or longer, where that is free; a
deletion fills the hole with the last entry of its group; a read shows the entry at its index. -/
def Obligations.PrefixTableCompletes : Prop :=
  ∀ (t : Nat) (upset : List Nat) (e : PtEntry) (s : State), s.settled →
    (s.get Reg.FWD_CTRL_enable = 0 → s.get Reg.CTX_CTRL_enable ≠ 0 → claimFree s 0x19 34 = true →
      changes (.fwdEnable t) s [Reg.FWD_CTRL_enable] [] [.claims] (fun u => u.get Reg.FWD_CTRL_enable = 1 ∧
      tabGet u.claims 34 = some ⟨false, 0x19⟩)) ∧
    (s.get Reg.FWD_CTRL_enable ≠ 0 → changes (.fwdDisable t) s [Reg.FWD_CTRL_enable] [] [.claims] (fun u =>
      u.get Reg.FWD_CTRL_enable = 0 ∧ tabGet u.claims 34 ≠ some ⟨false, 0x19⟩)) ∧
    (∀ (plen : BitVec 8) (n pos : Nat), plen.toNat = n → n ≤ 128 → s.fwd.pt.length < 4096 → pos < 4096 →
      (∀ x ∈ s.fwd.pt, x.2.plen < n → ¬ x.1 ∈ upset) → (∀ x ∈ s.fwd.pt, n ≤ x.2.plen → x.1 < pos) → pos = 0 ∨
      ((tabGet s.fwd.pt (pos - 1)).map (fun e => decide (n ≤ e.plen))) = some true → tabGet s.fwd.pt pos = none →
      rising s.fwd.pt = true → changes (.ptInsert t ⟨plen, upset⟩) s [Reg.FWD_PT_CMD_plen, Reg.FWD_PT_CMD_index,
      Reg.FWD_PT_CMD_result, Reg.FWD_PT_FILL_count] [] [.fwd] (fun u => u.get Reg.FWD_PT_CMD_result = 0 ∧
      u.get Reg.FWD_PT_CMD_index = pos ∧ u.get Reg.FWD_PT_FILL_count = s.fwd.pt.length + 1 ∧ u.fwd = { s.fwd with
        ptOrd := s.fwd.ptOrd + 1, pt := tabPut s.fwd.pt pos {
          plen := n, ord := s.fwd.ptOrd,
          value := ptKeyOf (addrOf (fun m => s.get (Reg.FWD_PT_VAL_addr m))) (s.get Reg.FWD_PT_CTL_port_v) (s.get Reg.FWD_PT_CTL_dscp_v),
          mask := prefixMask n + s.get Reg.FWD_PT_CTL_port_m * 2 ^ 128 + s.get Reg.FWD_PT_CTL_dscp_m * 2 ^ 131,
          action := s.get Reg.FWD_PT_ACT_action, port := s.get Reg.FWD_PT_ACT_port, svc := s.get Reg.FWD_PT_ACT_svc,
          sci := s.get Reg.FWD_PT_ACT_sci } })) ∧
    (∀ (i : Fin 4096) (j : Nat) (x : PtEntry), tabGet s.fwd.pt i = some e →
      (∀ x ∈ s.fwd.pt, x.2.plen = e.plen → ¬ x.1 ∈ upset) →
      (s.fwd.pt.filter (fun x => x.2.plen = e.plen)).getLast? = some (j, x) →
      changes (.ptDelete t ⟨i, upset⟩) s [Reg.FWD_PT_CMD_index, Reg.FWD_PT_CMD_result,
      Reg.FWD_PT_FILL_count] [] [.fwd] (fun u => u.get Reg.FWD_PT_CMD_result = 0 ∧ u.get Reg.FWD_PT_CMD_index = i ∧
      u.get Reg.FWD_PT_FILL_count = u.fwd.pt.length % 2 ^ 13 ∧ u.fwd = { s.fwd with
        pt := if j = i.val then tabDel s.fwd.pt i else tabPut (tabDel s.fwd.pt j) i x })) ∧
    (∀ (i : Fin 4096) (bad : Bool), tabGet s.fwd.pt i = some e → e.bad = true ∨ bad = false →
      changes (.ptRead t i bad) s ((List.range 4).map Reg.FWD_PT_VAL_addr ++ [Reg.FWD_PT_CTL_port_v,
      Reg.FWD_PT_CTL_dscp_v, Reg.FWD_PT_CTL_port_m, Reg.FWD_PT_CTL_dscp_m, Reg.FWD_PT_ACT_action, Reg.FWD_PT_ACT_port,
      Reg.FWD_PT_ACT_svc, Reg.FWD_PT_ACT_sci, Reg.FWD_PT_CMD_plen, Reg.FWD_PT_CMD_index, Reg.FWD_PT_CMD_result,
      Reg.FWD_PT_FILL_count]) [] [] (fun u => u.get Reg.FWD_PT_CMD_result = (if e.bad then 4 else 0) ∧
      u.get Reg.FWD_PT_CMD_index = i ∧ addrOf (fun m => u.get (Reg.FWD_PT_VAL_addr m)) = e.value % 2 ^ 128 ∧
      u.get Reg.FWD_PT_CTL_port_v = e.value / 2 ^ 128 % 8 ∧ u.get Reg.FWD_PT_CTL_dscp_v = e.value / 2 ^ 131 % 64 ∧
      u.get Reg.FWD_PT_CTL_port_m = e.mask / 2 ^ 128 % 8 ∧ u.get Reg.FWD_PT_CTL_dscp_m = e.mask / 2 ^ 131 % 64 ∧
      u.get Reg.FWD_PT_ACT_action = e.action % 4 ∧ u.get Reg.FWD_PT_ACT_port = e.port % 8 ∧
      u.get Reg.FWD_PT_ACT_svc = e.svc % 16 ∧ u.get Reg.FWD_PT_ACT_sci = e.sci % 16 ∧
      u.get Reg.FWD_PT_CMD_plen = e.plen % 256)) ∧
    (∀ (i : Fin 4096), tabGet s.fwd.pt i = some e → e.bad = false →
      changes (.ptRead t i true) s ((List.range 4).map Reg.FWD_PT_VAL_addr ++ [Reg.FWD_PT_CTL_port_v,
      Reg.FWD_PT_CTL_dscp_v, Reg.FWD_PT_CTL_port_m, Reg.FWD_PT_CTL_dscp_m, Reg.FWD_PT_ACT_action, Reg.FWD_PT_ACT_port,
      Reg.FWD_PT_ACT_svc, Reg.FWD_PT_ACT_sci, Reg.FWD_PT_CMD_plen, Reg.FWD_PT_CMD_index, Reg.FWD_PT_CMD_result,
      Reg.FWD_PT_FILL_count] ++ fwdParityFields [i.val]) (fwdParityCounts [i.val]) [.fwd, .power] (fun u =>
      u.get Reg.FWD_PT_CMD_result = 4 ∧ u.fwd = { s.fwd with pt := tabPut s.fwd.pt i { e with bad := true } } ∧
      u.get Reg.FWD_PAR_LOG_table = 1 ∧ u.get Reg.FWD_PAR_LOG_index = i ∧ u.get Reg.FWD_PAR_LOG_logged = 1 ∧
      u.count Reg.FWD_CNT_PAR_ERR = (s.count Reg.FWD_CNT_PAR_ERR + 1) % 2 ^ 32)) ∧
    (∀ (i : Fin 4096) (bad : Bool), tabGet s.fwd.pt i = none → changes (.ptRead t i bad) s [Reg.FWD_PT_CMD_index,
      Reg.FWD_PT_CMD_result, Reg.FWD_PT_FILL_count] [] [] (fun u => u.get Reg.FWD_PT_CMD_result = 3))

/-- R19, R291, R292 and R297. The self-test leaves every word of the store 0 and passes, or names the bad bank with
EV174; CTX is enabled after a pass with pools of at most 16,384 buffers; disabled, its sweep stops. A sweep starts
at a multiple of the interval; a flush captures every dirty context, and ends with EV173 once none is left that is
not bad. The model's choices here: how a stall's milliseconds are counted (log 168), and that a FLUSH scans the
dirty bits at its instant (log 169). -/
def Obligations.ContextStoreEnableCompletes : Prop :=
  ∀ (t : Nat) (s : State), s.settled →
    (s.get Reg.CTX_CTRL_enable = 0 → s.get Reg.CTX_STATUS_selftest_pass ≠ 0 → poolTotal s ≤ 16384 →
      changes (.ctxEnable t) s [Reg.CTX_CTRL_enable, Reg.CTX_STATUS_pool_err] [] [.ctx, .inForce] (fun u =>
      u.get Reg.CTX_CTRL_enable = 1 ∧ u.get Reg.CTX_STATUS_pool_err = 0 ∧
      u.ctx = { s.ctx with sweepAt := max s.ltb t } ∧
      u.cur Reg.CTX_CKPT_CFG_ckpt_interval = s.get Reg.CTX_CKPT_CFG_ckpt_interval)) ∧
    (changes (.ctxDisable t) s [Reg.CTX_CTRL_enable] [Reg.CTX_CNT_CKPT_STALL] [.ctx] (fun u =>
      u.get Reg.CTX_CTRL_enable = 0 ∧ u.ctx = { s.ctx with sweep := none, stall := none } ∧ (s.ctx.stall = none →
      u.count Reg.CTX_CNT_CKPT_STALL = s.count Reg.CTX_CNT_CKPT_STALL) ∧ ∀ a y, s.ctx.stall = some (a, y) →
      u.count Reg.CTX_CNT_CKPT_STALL = (s.count Reg.CTX_CNT_CKPT_STALL + (max s.ltb t - y) / 1000000) % 2 ^ 32)) ∧
    (s.get Reg.CTX_STATUS_selftest_done = 0 → s.ctx.selfEnd ≤ max s.ltb t →
      changes (.ctxSelftestDone t none) s [Reg.CTX_STATUS_selftest_done, Reg.CTX_STATUS_selftest_pass] [] [.store]
      (fun u => u.get Reg.CTX_STATUS_selftest_done = 1 ∧ u.get Reg.CTX_STATUS_selftest_pass = 1 ∧ u.store = [])) ∧
    (∀ (bank : Fin 32), s.get Reg.CTX_STATUS_selftest_done = 0 → s.ctx.selfEnd ≤ max s.ltb t →
      changes (.ctxSelftestDone t (some bank)) s [Reg.CTX_STATUS_selftest_done, Reg.CTX_STATUS_bad_bank] [] [.store]
      (fun u => u.get Reg.CTX_STATUS_selftest_done = 1 ∧ u.get Reg.CTX_STATUS_bad_bank = bank ∧ 174 ∈ u.hif.pend ∧
      u.store = [])) ∧
    (∀ (e d : Nat), s.get Reg.CTX_CTRL_enable ≠ 0 → sweepEnd (s.now t) = some e → d = sweepDue s → d ≤ max s.ltb t →
      changes (.sweepStart t) s [Reg.CTX_CKPT_STAT_sweep_num] [] [.ctx, .inForce] (fun u =>
      u.get Reg.CTX_CKPT_STAT_sweep_num = (s.get Reg.CTX_CKPT_STAT_sweep_num + 1) % 2 ^ 32 ∧
      u.cur Reg.CTX_CKPT_CFG_ckpt_interval = s.get Reg.CTX_CKPT_CFG_ckpt_interval ∧ u.ctx = { s.ctx with
        sweep := some (0, max e d), sweepAt := d, stall := none, stalled := false })) ∧
    (∀ (k : Fin 131072) (m n start i : Nat), k.val = n → s.ctx.sweep = some (m, start) → m ≤ n →
      (∀ j ∈ s.ctx.dirty, m ≤ j → j < n → sweepable s j = false) → start + n * 78125 / 10 ≤ max s.ltb t →
      sweepable s n = true → s.ctx.stall = none → sweepRing s = some i → n + 1 < 131072 →
      changes (.sweepVisit t k) s [] [Reg.CTX_CNT_CKPT_REC] [.ctx] (fun u =>
      u.count Reg.CTX_CNT_CKPT_REC = (s.count Reg.CTX_CNT_CKPT_REC + 1) % 2 ^ 32 ∧ u.ctx = { s.ctx with
        sweep := some (n + 1, start), nextRing := (i + 1) % 7, dirty := s.ctx.dirty.filter (· ≠ n) } ∧
      .memWrite (ringOwner s (241 + i)) (ringAux s (241 + i) + 256 *
      ((s.ringOf (241 + i)).cIdx % ringSize s (241 + i))) (s.octets (192 * n) 192) ∈ u.out)) ∧
    (∀ (k : Fin 131072) (m n start a y i : Nat), k.val = n → s.ctx.sweep = some (m, start) → m ≤ n →
      (∀ j ∈ s.ctx.dirty, m ≤ j → j < n → sweepable s j = false) → start + n * 78125 / 10 ≤ max s.ltb t →
      sweepable s n = true → s.ctx.stall = some (a, y) → sweepRing s = some i → n + 1 < 131072 →
      changes (.sweepVisit t k) s [] [Reg.CTX_CNT_CKPT_REC, Reg.CTX_CNT_CKPT_STALL] [.ctx] (fun u =>
      u.count Reg.CTX_CNT_CKPT_REC = (s.count Reg.CTX_CNT_CKPT_REC + 1) % 2 ^ 32 ∧
      u.count Reg.CTX_CNT_CKPT_STALL = (s.count Reg.CTX_CNT_CKPT_STALL + (max s.ltb t - y) / 1000000) % 2 ^ 32 ∧
      u.ctx = { s.ctx with
        sweep := some (n + 1, start + (max s.ltb t - a)), stall := none, nextRing := (i + 1) % 7,
        dirty := s.ctx.dirty.filter (· ≠ n) } ∧ .memWrite (ringOwner s (241 + i)) (ringAux s (241 + i) + 256 *
      ((s.ringOf (241 + i)).cIdx % ringSize s (241 + i))) (s.octets (192 * n) 192) ∈ u.out)) ∧
    (∀ (k : Fin 131072) (m n start : Nat), k.val = n → s.ctx.sweep = some (m, start) → m ≤ n →
      (∀ j ∈ s.ctx.dirty, m ≤ j → j < n → sweepable s j = false) → start + n * 78125 / 10 ≤ max s.ltb t →
      sweepable s n = true → sweepRing s = none → changes (.sweepVisit t k) s [] [] [.ctx] (fun u =>
      (s.ctx.stalled = false → 169 ∈ u.hif.pend) ∧ u.ctx = { s.ctx with
        stall := s.ctx.stall.or (some (max s.ltb t, max s.ltb t)), stalled := true, sweep := some (n, start) })) ∧
    (∀ (k : Fin 131072) (m n start : Nat), k.val = n → s.ctx.sweep = some (m, start) → m ≤ n →
      (∀ j ∈ s.ctx.dirty, m ≤ j → j < n → sweepable s j = false) → start + n * 78125 / 10 ≤ max s.ltb t →
      sweepable s n = false → s.ctx.stall = none → n + 1 < 131072 →
      leadsTo (.sweepVisit t k) s ((s.now t).onCtx (fun c => { c with sweep := some (n + 1, start) }))) ∧
    (∀ (k : Fin 131072) (m n start : Nat), k.val = 131071 → n = 131071 → s.ctx.sweep = some (m, start) → m ≤ n →
      (∀ j ∈ s.ctx.dirty, m ≤ j → j < n → sweepable s j = false) → start + n * 78125 / 10 ≤ max s.ltb t →
      sweepable s n = false → s.ctx.stall = none → max s.ltb t < sweepDue s →
      leadsTo (.sweepVisit t k) s ((s.now t).onCtx (fun c => { c with sweep := none }))) ∧
    (∀ (n i : Nat), s.get Reg.CTX_STATUS_flush_busy = 0 → s.ctx.dirty = [n] → ctxBad s n = false →
      sweepRing s = some i → changes (.flush t) s [Reg.CTX_STATUS_flush_busy] [Reg.CTX_CNT_CKPT_REC] [.ctx] (fun u =>
      u.get Reg.CTX_STATUS_flush_busy = 1 ∧ u.count Reg.CTX_CNT_CKPT_REC = (s.count Reg.CTX_CNT_CKPT_REC + 1) % 2 ^ 32
      ∧ u.ctx = { s.ctx with
        nextRing := (i + 1) % 7, dirty := [], flushAt := some 131072 } ∧
      .memWrite (ringOwner s (241 + i)) (ringAux s (241 + i) + 256 *
      ((s.ringOf (241 + i)).cIdx % ringSize s (241 + i))) (s.octets (192 * n) 192) ∈ u.out)) ∧
    (∀ (n : Nat), s.get Reg.CTX_STATUS_flush_busy = 0 → flushNext s 0 = some n → sweepRing s = none →
      changes (.flush t) s [Reg.CTX_STATUS_flush_busy] [] [.ctx] (fun u => u.get Reg.CTX_STATUS_flush_busy = 1 ∧
      u.ctx = { s.ctx with flushAt := some n })) ∧
    (s.get Reg.CTX_STATUS_flush_busy = 0 → completes (.flush t) s (fun u => u.get Reg.CTX_STATUS_flush_busy = 1 ∧
      u.ctx.flushAt.isSome = true ∧ u.store = s.store)) ∧
    (s.get Reg.CTX_STATUS_flush_busy ≠ 0 → flushNext s (s.ctx.flushAt.getD 131072) = none →
      changes (.flushComplete t) s [Reg.CTX_STATUS_flush_busy] [] [.ctx] (fun u =>
      u.get Reg.CTX_STATUS_flush_busy = 0 ∧ 173 ∈ u.hif.pend ∧ u.ctx = { s.ctx with flushAt := none }))

/-- R287, R290, R293 and R296. CONTEXT_READ shows the 48 words of a context, and reports a line that fails parity;
CONTEXT_WRITE writes the defined bits of the lines of its mask but tx_fc, fc_limit and fc_req; INVALIDATE leaves
every word 0 and ends what waits for the node; RESTORE writes all of it, adds the adjustment and the uncertainty,
takes its counter to its limit, fills its bucket and asks for a reservation; a confirmed reservation raises the
limit of its context. Other contexts keep their bytes. -/
def Obligations.ContextAccessCompletes : Prop :=
  ∀ (t : Nat) (s : State), s.settled →
    (∀ (k : Fin 131072) (n : Nat), k.val = n →
      changes (.contextRead t k none) s ([Reg.CTX_ACC_CMD_ctx, Reg.CTX_ACC_CMD_result] ++ (List.range 48).map
      Reg.CTX_WIN_word) [] [] (fun u => u.get Reg.CTX_ACC_CMD_ctx = n ∧ u.get Reg.CTX_ACC_CMD_result = 0 ∧ ∀ m,
      m < 48 → u.get (Reg.CTX_WIN_word m) = s.word (192 * n + 4 * m))) ∧
    (∀ (k : Fin 131072) (line : Fin 3) (n : Nat), k.val = n →
      changes (.contextRead t k (some line)) s ([Reg.CTX_ACC_CMD_ctx, Reg.CTX_ACC_CMD_result, Reg.CTX_PAR_LOG_ctx,
      Reg.CTX_PAR_LOG_line, Reg.CTX_PAR_LOG_logged,
      Reg.PWR_PERM_CNT_count] ++ (List.range 48).map Reg.CTX_WIN_word) [Reg.CTX_CNT_PAR_ERR, Reg.PWR_CNT_PERMANENT,
      Reg.PWR_CNT_TRANSIENT] [.ctx, .power] (fun u => u.get Reg.CTX_ACC_CMD_result = 1 ∧
      u.ctx = { s.ctx with bad := addOnce s.ctx.bad n } ∧ u.get Reg.CTX_PAR_LOG_ctx = n ∧
      u.get Reg.CTX_PAR_LOG_line = line ∧ u.get Reg.CTX_PAR_LOG_logged = 1 ∧ 168 ∈ u.hif.pend ∧
      u.count Reg.CTX_CNT_PAR_ERR = (s.count Reg.CTX_CNT_PAR_ERR + 1) % 2 ^ 32)) ∧
    (∀ (k : Fin 131072) (mask : BitVec 3) (n : Nat), k.val = n → Memory.wf s.store = true →
      (∀ m, m < 48 → s.get (Reg.CTX_WIN_word m) < 2 ^ 32) → changes (.contextWrite t k mask) s [Reg.CTX_ACC_CMD_ctx,
      Reg.CTX_ACC_CMD_line_mask, Reg.CTX_ACC_CMD_result] [] [.store, .ctx, .amc, .esc] (fun u =>
      u.get Reg.CTX_ACC_CMD_ctx = n ∧ u.get Reg.CTX_ACC_CMD_result = 0 ∧ n ∈ u.ctx.dirty ∧
      u.cget n Cx.tx_fc = s.cget n Cx.tx_fc ∧ u.cget n Cx.fc_limit = s.cget n Cx.fc_limit ∧
      u.cget n Cx.fc_req = s.cget n Cx.fc_req ∧ (∀ m, m < 48 → m ∉ [16, 17, 19] →
      u.word (192 * n + 4 * m) = if mask.getLsbD (m / 16) then s.get (Reg.CTX_WIN_word m) &&& ctxWordMask m else
      s.word (192 * n + 4 * m)) ∧ ∀ a, a < 192 * n ∨ 192 * n + 192 ≤ a → cellRead u.store a = cellRead s.store a)) ∧
    (∀ (k : Fin 131072) (n : Nat), k.val = n → Memory.wf s.store = true → s.esc.sub = [] →
      changes (.invalidate t k) s [Reg.CTX_ACC_CMD_ctx, Reg.CTX_ACC_CMD_result,
      Reg.CTX_RESV_OUT_outstanding] [] [.store, .ctx, .amc] (fun u =>
      u.ctx.resv = s.ctx.resv.filter (fun r => r.ctx ≠ n) ∧ u.amc = { s.amc with dsnSrc := tabDel s.amc.dsnSrc n } ∧
      u.get Reg.CTX_ACC_CMD_ctx = n ∧ u.get Reg.CTX_ACC_CMD_result = 0 ∧ n ∉ u.ctx.dirty ∧ n ∉ u.ctx.bad ∧
      (∀ i, i < 192 → cellRead u.store (192 * n + i) = 0) ∧ ∀ a, a < 192 * n ∨ 192 * n + 192 ≤ a →
      cellRead u.store a = cellRead s.store a)) ∧
    (∀ (k : Fin 131072) (n lim j v : Nat), k.val = n → Memory.wf s.store = true → resvRoom s = true → s.esc.sub = [] →
      s.ctx.resv = [] → (∀ m, m < 48 → s.get (Reg.CTX_WIN_word m) < 2 ^ 32) → lim = s.get (Reg.CTX_WIN_word 17) →
      lim + 65536 < 2 ^ 32 → s.get Reg.CTX_RESV_SEQ_seq < 2 ^ 32 → j = s.get (Reg.CTX_WIN_word 2) / 2 ^ 24 % 64 →
      profGen s j < 255 → v = s.get (Reg.CTX_WIN_word 36) / 2 ^ 16 + (s.get Reg.CTX_ACC_UNC_unc + 99) / 100 →
      s.get (Reg.ESC_SUBP_RATE_rate j) < 2 ^ 32 → s.get (Reg.ESC_SUBP_BURST_burst j) < 2 ^ 24 →
      changes (.restore t k) s [Reg.CTX_ACC_CMD_ctx, Reg.CTX_ACC_CMD_result, Reg.CTX_RESV_OUT_outstanding,
      Reg.CTX_RESV_SEQ_seq] [Reg.CTX_CNT_RESV_REQ] [.store, .ctx, .esc, .amc] (fun u =>
      u.get Reg.CTX_ACC_CMD_ctx = n ∧ u.get Reg.CTX_ACC_CMD_result = 0 ∧ n ∈ u.ctx.dirty ∧ n ∉ u.ctx.bad ∧
      u.ctx.resv = [⟨n, lim + 65536, s.get Reg.CTX_RESV_SEQ_seq⟩] ∧ u.get Reg.CTX_RESV_OUT_outstanding = 1 ∧ (∀ m,
      m < 48 → m ∉ [16, 19, 21, 22, 23, 24, 25, 26, 27, 28, 30, 32, 33, 36, 37] →
      u.word (192 * n + 4 * m) = s.get (Reg.CTX_WIN_word m) &&& ctxWordMask m) ∧ u.cget n Cx.tx_fc = lim ∧
      u.cget n Cx.anchor = (s.get (Reg.CTX_WIN_word 32) + 2 ^ 32 * s.get (Reg.CTX_WIN_word 33) + (s.get
      Reg.CTX_ACC_ADJ_LO_adj + 2 ^ 32 * s.get Reg.CTX_ACC_ADJ_HI_adj)) % 2 ^ 64 ∧
      (if 65535 < v then u.cget n Cx.u0 = 65535 ∧ u.cget n Cx.oos = 1 else u.cget n Cx.u0 = v ∧
      u.cget n Cx.oos = s.get (Reg.CTX_WIN_word 37) / 2 % 4) ∧ u.cget n Cx.sd = s.get (Reg.CTX_WIN_word 36) % 2 ^ 16 ∧
      u.cget n Cx.hs_valid = s.get (Reg.CTX_WIN_word 37) % 2 ∧
      u.cget n Cx.miss = s.get (Reg.CTX_WIN_word 37) / 8 % 16 ∧
      u.cget n Cx.last_dsn = s.get (Reg.CTX_WIN_word 19) % 2 ^ 8 ∧
      u.cget n Cx.rx_fc_valid = s.get (Reg.CTX_WIN_word 19) / 2 ^ 9 % 2 ∧ u.cget n Cx.dsn_valid = 0 ∧
      u.cget n Cx.fc_req = 1 ∧ u.cget n Cx.t_pref = 0 ∧ u.cget n Cx.t_alt = 0 ∧ u.cget n Cx.q_pref = 0 ∧
      u.cget n Cx.q_alt = 0 ∧ u.cget n Cx.qlen = 0 ∧ u.cget n Cx.prof_cur = j ∧
      u.cget n Cx.cur_rate = s.get (Reg.ESC_SUBP_RATE_rate j) ∧
      u.cget n Cx.cur_burst = s.get (Reg.ESC_SUBP_BURST_burst j) ∧
      u.csget n Cx.tok = s.get (Reg.ESC_SUBP_BURST_burst j) * 1024 ∧ ∀ a, a < 192 * n ∨ 192 * n + 192 ≤ a →
      cellRead u.store a = cellRead s.store a)) ∧
    (∀ (k : Fin 131072) (n : Nat), k.val = n → Memory.wf s.store = true → completes (.invalidate t k) s (fun u =>
      u.get Reg.CTX_ACC_CMD_ctx = n ∧ u.get Reg.CTX_ACC_CMD_result = 0 ∧ n ∉ u.ctx.dirty ∧ n ∉ u.ctx.bad ∧
      (∀ r, r ∈ u.ctx.resv → r.ctx ≠ n) ∧ subQueue u n = [] ∧ (∀ i, i < 192 → cellRead u.store (192 * n + i) = 0) ∧
      ∀ a, a < 192 * n ∨ 192 * n + 192 ≤ a → cellRead u.store a = cellRead s.store a)) ∧
    (∀ (k : Fin 131072) (n : Nat), k.val = n → Memory.wf s.store = true → resvRoom (s.begin t) = true →
      completes (.restore t k) s (fun u => u.get Reg.CTX_ACC_CMD_ctx = n ∧ u.get Reg.CTX_ACC_CMD_result = 0 ∧
      n ∈ u.ctx.dirty ∧ n ∉ u.ctx.bad ∧ subQueue u n = [] ∧
      u.cget n Cx.eui64 = s.get (Reg.CTX_WIN_word 0) % 2 ^ 32 + 2 ^ 32 * (s.get (Reg.CTX_WIN_word 1) % 2 ^ 32) ∧
      u.cget n Cx.dsn_valid = 0 ∧ ∀ a, a < 192 * n ∨ 192 * n + 192 ≤ a → cellRead u.store a = cellRead s.store a)) ∧
    (∀ (seq : Word), completes (.reservationConfirm t seq) s (fun u => u.ctx.resv = s.ctx.resv.filter (fun r =>
      decide (2 ^ 31 ≤ (seq.toNat + 2 ^ 32 - r.seq) % 2 ^ 32)) ∧
      u.get Reg.CTX_RESV_OUT_outstanding = u.ctx.resv.length % 2 ^ 6 ∧ ∀ r, r ∈ s.ctx.resv →
      (seq.toNat + 2 ^ 32 - r.seq) % 2 ^ 32 < 2 ^ 31 → Memory.wf s.store = true → u.cget r.ctx Cx.fc_req = 0 ∧
      ((s.ctx.resv.filter (fun x => x.ctx = r.ctx)).length = 1 → r.limit < 2 ^ 32 →
      u.cget r.ctx Cx.fc_limit = r.limit))) ∧
    (∀ (seq : Word) (r : Resv), Memory.wf s.store = true → s.ctx.resv = [r] →
      (seq.toNat + 2 ^ 32 - r.seq) % 2 ^ 32 < 2 ^ 31 → r.ctx < 131072 → r.limit < 2 ^ 32 →
      changes (.reservationConfirm t seq) s [Reg.CTX_RESV_OUT_outstanding] [] [.store, .ctx] (fun u =>
      u.ctx.resv = [] ∧ u.get Reg.CTX_RESV_OUT_outstanding = 0 ∧ u.cget r.ctx Cx.fc_limit = r.limit ∧
      u.cget r.ctx Cx.fc_req = 0 ∧ u.cget r.ctx Cx.tx_fc = s.cget r.ctx Cx.tx_fc ∧ r.ctx ∈ u.ctx.dirty ∧ ∀ a,
      a < 192 * r.ctx + 68 ∨ 192 * r.ctx + 84 ≤ a → cellRead u.store a = cellRead s.store a))

/-- R305, R307, R308 and R309. A load or derive that passes the tests fills its slot, with the generation increased
and one level below its parent; the derived key is that of R308. An invalidation makes the slot REVOKED at once,
and a sweep runs for it, at whose end every slot below it is REVOKED too, with EV192 and EV198. READ_ATTRIBUTES
takes the slot's attributes. No other slot changes, and the window is busy until its job ends. The model's choices
here: an invalidated EMPTY slot becomes REVOKED (log 260), and a window command of a master that may not use it is
answered when executed (log 262). -/
def Obligations.KeySlotsComplete : Prop :=
  ∀ (t : Nat) (w : Fin 4) (k : Fin 1024) (s : State), s.settled →
    (∀ (x : Slot), s.get (Reg.JWL_CMD_busy w) = 0 → s.get Reg.JWL_STATUS_lc_busy = 0 → s.get Reg.JWL_CTRL_enable ≠ 0 →
      (w = 3 → s.get Reg.CRN_STATUS_handed_over = 0) → x = stagedSlot s w → loadTest s w k x = 0 →
      (jslot s k).state ≠ 2 ∨ s.jwl.sweeps = [] →
      changes (.load t w k) s [Reg.JWL_CMD_slot w, Reg.JWL_CMD_busy w] [] [.jwl] (fun u =>
      u.get (Reg.JWL_CMD_busy w) = 1 ∧ u.get (Reg.JWL_CMD_slot w) = k ∧
      (tabGet u.jwl.jobs w).map (·.result) = some (some 0) ∧ jslot u k = { x with
        depth := if x.parent = 0x3FF then 0 else (jslot s x.parent).depth + 1, gen := ((jslot s k).gen + 1) % 65536,
        lcAuth := x.lcAuth && x.type == 4 } ∧ ∀ i, i ≠ k.val → jslot u i = jslot s i)) ∧
    (∀ (x : Slot), s.get (Reg.JWL_CMD_busy w) = 0 → s.get Reg.JWL_STATUS_lc_busy = 0 → s.get Reg.JWL_CTRL_enable ≠ 0 →
      (w = 3 → s.get Reg.CRN_STATUS_handed_over = 0) → x = stagedSlot s w → deriveTest s w k x = 0 →
      (jslot s k).state ≠ 2 ∨ s.jwl.sweeps = [] →
      changes (.derive t w k) s [Reg.JWL_CMD_slot w, Reg.JWL_CMD_busy w] [] [.jwl] (fun u =>
      u.get (Reg.JWL_CMD_busy w) = 1 ∧ u.get (Reg.JWL_CMD_slot w) = k ∧
      (tabGet u.jwl.jobs w).map (·.result) = some (some 0) ∧ jslot u k = { x with
        depth := (jslot s x.parent).depth + 1, gen := ((jslot s k).gen + 1) % 65536, lcAuth := false,
        key := kdfChild (jslot s x.parent).key (wordsOf s (Reg.JWL_LABEL_label w) 4) x.domain x.type } ∧ ∀ i,
      i ≠ k.val → jslot u i = jslot s i)) ∧
    (s.get (Reg.JWL_CMD_busy w) = 0 → s.get Reg.JWL_STATUS_lc_busy = 0 → s.get Reg.JWL_CTRL_enable ≠ 0 →
      (w = 3 → s.get Reg.CRN_STATUS_handed_over = 0) → 2 ≤ k.val → lcAllows s 0 w = true → (jslot s k).world = 0 ∨
      masterSecure w = true → changes (.keyInvalidate t w k) s [Reg.JWL_CMD_slot w, Reg.JWL_CMD_busy w,
      Reg.JWL_STATUS_sweep_busy] [] [.jwl] (fun u => u.get (Reg.JWL_CMD_busy w) = 1 ∧ u.get (Reg.JWL_CMD_slot w) = k ∧
      u.get Reg.JWL_STATUS_sweep_busy = 1 ∧ jslot u k = { jslot s k with state := 2 } ∧
      u.jwl.sweeps = s.jwl.sweeps ++ [(w.val, k.val)] ∧ ∀ i, i ≠ k.val → jslot u i = jslot s i)) ∧
    (∀ (j : Job) (x : List (Nat × Nat)), s.jwl.sweeps.find? (fun e => e.1 == w.val) = some (w.val, k.val) →
      tabGet s.jwl.jobs w = some j → x = s.jwl.sweeps.filter (fun e => e.1 != w.val) → x ≠ [] →
      completes (.revocationSweepEnd t w) s (fun u => u.get (Reg.JWL_CMD_busy w) = 0 ∧
      u.get (Reg.JWL_CMD_result w) = 0 ∧ 192 ∈ u.hif.pend ∧ 198 ∈ u.hif.pend ∧ u.get Reg.JWL_STATUS_sweep_busy = 1 ∧
      u.jwl.sweeps = x ∧ tabGet u.jwl.jobs w = none ∧ (∀ i, tabGet s.jwl.slots i ≠ none → chainRevoked 8 s i = true →
      jslot u i = { jslot s i with state := 2, key := [] }) ∧
      (∀ i, chainRevoked 8 s i = false → jslot u i = jslot s i))) ∧
    (∀ (j : Job), s.jwl.sweeps = [(w.val, k.val)] → s.jwl.jobs = [(w.val, j)] → j.op = 3 → j.digest = none →
      j.attrs = none → j.attest = none → changes (.revocationSweepEnd t w) s ([Reg.JWL_CMD_result w,
      Reg.JWL_CMD_busy w, Reg.JWL_STATUS_sweep_busy,
      Reg.JWL_CACHE_entries] ++ (List.range 16).map (Reg.JWL_KEY_key w)) [] [.jwl] (fun u =>
      u.get (Reg.JWL_CMD_busy w) = 0 ∧ u.get (Reg.JWL_CMD_result w) = 0 ∧ u.get Reg.JWL_STATUS_sweep_busy = 0 ∧
      192 ∈ u.hif.pend ∧ 198 ∈ u.hif.pend ∧ u.jwl.jobs = [] ∧ u.jwl.sweeps = [] ∧ (∀ i, 2 ≤ i →
      tabGet s.jwl.slots i ≠ none → chainRevoked 8 s i = true →
      jslot u i = { jslot s i with state := 2, key := [] }) ∧
      (∀ i, chainRevoked 8 s i = false → jslot u i = jslot s i))) ∧
    (s.get (Reg.JWL_CMD_busy w) = 0 → s.get Reg.JWL_STATUS_lc_busy = 0 → s.get Reg.JWL_CTRL_enable ≠ 0 →
      (w = 3 → s.get Reg.CRN_STATUS_handed_over = 0) → k.val ≠ 1 →
      changes (.readAttributes t w k) s [Reg.JWL_CMD_slot w, Reg.JWL_CMD_busy w] [] [.jwl] (fun u =>
      u.get (Reg.JWL_CMD_busy w) = 1 ∧ u.get (Reg.JWL_CMD_slot w) = k ∧ tabGet u.jwl.jobs w = some {
        op := 4, slot := k, result := some 0, attrs := some (jslot s k) } ∧ ∀ i, jslot u i = jslot s i)) ∧
    (∀ (r : Nat) (j : Job), tabGet s.jwl.jobs w = some j → j.result = some r → j.due ≤ max s.ltb t → j.digest = none →
      j.attrs = none → j.attest = none → r < 16 →
      changes (.windowJobEnd t w) s ([Reg.JWL_CMD_result w, Reg.JWL_CMD_busy w] ++ (List.range 16).map
      (Reg.JWL_KEY_key w)) [] [.jwl] (fun u => u.get (Reg.JWL_CMD_busy w) = 0 ∧ u.get (Reg.JWL_CMD_result w) = r ∧
      198 ∈ u.hif.pend ∧ tabGet u.jwl.jobs w = none ∧ (∀ i, i < 16 → u.get (Reg.JWL_KEY_key w i) = 0) ∧ ∀ i,
      jslot u i = jslot s i)) ∧
    (∀ (r : Nat) (d : List Byte) (j : Job), tabGet s.jwl.jobs w = some j → j.result = some r → j.due ≤ max s.ltb t →
      j.digest = some d → d.length = 32 → j.attrs = none → j.attest = none → r < 16 →
      changes (.windowJobEnd t w) s ([Reg.JWL_CMD_result w, Reg.JWL_CMD_busy w] ++ (List.range 16).map
      (Reg.JWL_KEY_key w) ++ (List.range 8).map (Reg.JWL_DIGEST_word w)) [] [.jwl] (fun u =>
      u.get (Reg.JWL_CMD_busy w) = 0 ∧ u.get (Reg.JWL_CMD_result w) = r ∧ 198 ∈ u.hif.pend ∧
      wordsOf u (Reg.JWL_DIGEST_word w) 8 = d))

/-- R306, R307, R316 and R317. HASH and HMAC take the digest of the data at the job address, of the job length; VERIFY
checks the staged signature; ATTEST signs the response over the staged challenge and counts it; EXTEND hashes the
measurement with the staged digest. The model's choices here: slot 1 has no master's bit (log 21), an attestation
in a life-cycle change ends LC_CHANGING (log 261), and device_id goes out least significant octet first (log 264). -/
def Obligations.KeyServicesComplete : Prop :=
  ∀ (t : Nat) (w : Fin 4) (k : Fin 1024) (l : List Byte) (s : State), s.settled →
    (∀ (n : Nat), s.get (Reg.JWL_CMD_busy w) = 0 → s.get Reg.JWL_STATUS_lc_busy = 0 → s.get Reg.JWL_CTRL_enable ≠ 0 →
      (w = 3 → s.get Reg.CRN_STATUS_handed_over = 0) → n = s.get (Reg.JWL_JOB_LEN_len w) → 0 < n → n ≤ 0x1000000 →
      changes (.hash t w k (some l)) s [Reg.JWL_CMD_slot w, Reg.JWL_CMD_busy w] [] [.jwl] (fun u =>
      u.get (Reg.JWL_CMD_busy w) = 1 ∧ u.get (Reg.JWL_CMD_slot w) = k ∧ u.jwl = { s.jwl with
        jobs := tabPut s.jwl.jobs w {
          op := 6, slot := k, result := some 0, digest := some (sha256 (octetsAt l 0 n)),
          due := max s.ltb t + n } })) ∧
    (∀ (n : Nat), s.get (Reg.JWL_CMD_busy w) = 0 → s.get Reg.JWL_STATUS_lc_busy = 0 → s.get Reg.JWL_CTRL_enable ≠ 0 →
      (w = 3 → s.get Reg.CRN_STATUS_handed_over = 0) → n = s.get (Reg.JWL_JOB_LEN_len w) → 0 < n → n ≤ 0x1000000 →
      useTest s k w 2 = 0 → (jslot s k).type = 3 →
      changes (.hmac t w k (some l)) s [Reg.JWL_CMD_slot w, Reg.JWL_CMD_busy w] [] [.jwl] (fun u =>
      u.get (Reg.JWL_CMD_busy w) = 1 ∧ u.get (Reg.JWL_CMD_slot w) = k ∧ u.jwl = { s.jwl with
        jobs := tabPut s.jwl.jobs w {
          op := 7, slot := k, result := some 0, digest := some (hmacSha256 (jslot s k).key (octetsAt l 0 n)),
          due := max s.ltb t + n } })) ∧
    (∀ (d : List Byte) (ok : Bool), s.get (Reg.JWL_CMD_busy w) = 0 → s.get Reg.JWL_STATUS_lc_busy = 0 →
      s.get Reg.JWL_CTRL_enable ≠ 0 → (w = 3 → s.get Reg.CRN_STATUS_handed_over = 0) → useTest s k w 3 = 0 →
      (jslot s k).type = 4 → d = wordsOf s (Reg.JWL_DIGEST_word w) 8 →
      ok = ecdsaVerify (jslot s k).key d (wordsOf s (Reg.JWL_SIG_word w) 16) →
      changes (.verify t w k) s [Reg.JWL_CMD_slot w, Reg.JWL_CMD_busy w] [] [.jwl] (fun u =>
      u.get (Reg.JWL_CMD_busy w) = 1 ∧ u.get (Reg.JWL_CMD_slot w) = k ∧ u.jwl = { s.jwl with
        jobs := tabPut s.jwl.jobs w {
          op := 8, slot := k, result := some (if ok then 0 else 7), due := max s.ltb t + 1200000,
          auth := if ok && (jslot s k).lcAuth then some d else none } })) ∧
    (s.get (Reg.JWL_CMD_busy w) = 0 → s.get Reg.JWL_STATUS_lc_busy = 0 → s.get Reg.JWL_CTRL_enable ≠ 0 →
      (w = 3 → s.get Reg.CRN_STATUS_handed_over = 0) →
      changes (.attest t w k) s [Reg.JWL_CMD_slot w, Reg.JWL_CMD_busy w] [] [.jwl] (fun u =>
      u.get (Reg.JWL_CMD_busy w) = 1 ∧ u.get (Reg.JWL_CMD_slot w) = k ∧ u.jwl = { s.jwl with
        attests := s.jwl.attests + 1, jobs := tabPut s.jwl.jobs w {
          op := 5, slot := k, result := some 0,
          attest := some (attestation s w (s.jwl.attests + 1) (wordsOf s (Reg.JWL_DIGEST_word w) 8)) } })) ∧
    (∀ (m : Fin 1024), s.get (Reg.JWL_CMD_busy w) = 0 → s.get Reg.JWL_STATUS_lc_busy = 0 →
      s.get Reg.JWL_CTRL_enable ≠ 0 → (w = 3 → s.get Reg.CRN_STATUS_handed_over = 0) → m.val ≤ 3 → m.val = 0 ∧
      w.val = 3 ∨ m.val ≠ 0 ∧ masterSecure w = true →
      changes (.extend t w m) s ([Reg.JWL_CMD_slot w, Reg.JWL_CMD_busy w] ++ (List.range 8).map (Reg.JWL_MEAS_word m))
      [] [.jwl] (fun u => u.get (Reg.JWL_CMD_busy w) = 1 ∧ (tabGet u.jwl.jobs w).map (·.result) = some (some 0) ∧
      wordsOf u (Reg.JWL_MEAS_word m) 8 = sha256 (wordsOf s (Reg.JWL_MEAS_word m) 8 ++ wordsOf s
      (Reg.JWL_DIGEST_word w) 8)))

/-- R303, R304, R311 and R318. JWL is enabled once the life-cycle state is read from the fuses; an allowed change by a
secure master empties every slot and the cache, and after its 5 ms the new state is in the fuses and shown, with
EV197; a flush of the cache leaves no derived key. That zeroised slots become EMPTY and keep gen is the model's
reading (log 265). -/
def Obligations.LifeCycleCompletes : Prop :=
  ∀ (t : Nat) (s : State), s.settled →
    (s.get Reg.JWL_STATUS_lc_read ≠ 0 → changes (.jwlEnable t) s [Reg.JWL_CTRL_enable] [] []
      (fun u => u.get Reg.JWL_CTRL_enable = 1)) ∧
    (changes (.jwlDisable t) s [Reg.JWL_CTRL_enable] [] [] (fun u => u.get Reg.JWL_CTRL_enable = 0)) ∧
    (s.get Reg.JWL_STATUS_lc_read = 0 → s.jwl.lcReadAt ≤ max s.ltb t → s.fuses.lcState < 8 →
      changes (.lcRead t) s [Reg.JWL_STATUS_lc_state, Reg.JWL_STATUS_lc_read] [] [] (fun u =>
      u.get Reg.JWL_STATUS_lc_state = s.fuses.lcState ∧ u.get Reg.JWL_STATUS_lc_read = 1)) ∧
    (∀ (w : Fin 4) (target : BitVec 3), s.get Reg.JWL_STATUS_lc_busy = 0 → masterSecure w = true →
      (w = 3 → s.get Reg.CRN_STATUS_handed_over = 0) → lcTransition (lcState s) target.toNat = true → target ≠ 3 →
      changes (.lifeCycleChange t w target) s [Reg.JWL_LC_CMD_target, Reg.JWL_LC_RES_result, Reg.JWL_STATUS_lc_busy,
      Reg.JWL_CACHE_entries] [] [.jwl] (fun u => u.get Reg.JWL_LC_CMD_target = target.toNat ∧
      u.get Reg.JWL_LC_RES_result = 0 ∧ u.get Reg.JWL_STATUS_lc_busy = 1 ∧ u.get Reg.JWL_CACHE_entries = 0 ∧
      u.jwl.cache = [] ∧ u.jwl.lcTarget = some (target.toNat, max s.ltb t + 5000000) ∧ ∀ k, 2 ≤ k →
      jslot u k = { gen := (jslot s k).gen })) ∧
    (∀ (x due : Nat), s.jwl.lcTarget = some (x, due) → due ≤ max s.ltb t → x < 8 →
      changes (.lifeCycleChangeDone t) s [Reg.JWL_STATUS_lc_state, Reg.JWL_STATUS_lc_busy] [] [.jwl, .fuses] (fun u =>
      u.get Reg.JWL_STATUS_lc_state = x ∧ u.get Reg.JWL_STATUS_lc_busy = 0 ∧ u.fuses = { s.fuses with lcState := x } ∧
      u.jwl = { s.jwl with lcTarget := none } ∧ 197 ∈ u.hif.pend)) ∧
    (changes (.cacheFlush t) s [Reg.JWL_CACHE_entries] [] [.jwl] (fun u => u.jwl = { s.jwl with cache := [] } ∧
      u.get Reg.JWL_CACHE_entries = 0))

/-- R282, R323, R327, R332, R341 and R342. A ring with a base address, a size of 16 to 4,096 entries and the area it
needs is enabled, with its counts 0 and armed; the first transmit ring claims pool 4 (resource 36). A write to a
doorbell in the page, by the ring's owner and with counts in their range, is taken, and a read shows the last
ones; what lies elsewhere in the page reads 0; a fetch reads posted descriptors; a DMA fault halts the ring, with
EV022. The model's choices here: err_code is kept across an enable (log 211), what the doorbell page answers (log
213), and which master reads it (log 235). -/
def Obligations.RingsComplete : Prop :=
  ∀ (t : Nat) (r : Fin 256) (s : State), s.settled →
    (s.get (Reg.HIF_RING_CTRL_enable r) = 0 → 4 ≤ s.get (Reg.HIF_RING_CTRL_log2_size r) →
      s.get (Reg.HIF_RING_CTRL_log2_size r) ≤ 12 → ringBase s r ≠ 0 → ringAux s r ≠ 0 → claimFree s 0x1B 36 = true →
      changes (.ringEnable t r) s [Reg.HIF_RING_CTRL_enable r] [] [.rings, .claims] (fun u =>
      u.get (Reg.HIF_RING_CTRL_enable r) = 1 ∧ (r.val < 224 →
      u.ringOf r = { armed := true, err := (s.ringOf r).err }) ∧
      (∀ q, q < 224 → q ≠ r.val → u.ringOf q = s.ringOf q) ∧ (isTxRing r = true → txRingsOn s = false →
      tabGet u.claims 36 = some ⟨false, 0x1B⟩))) ∧
    (s.get (Reg.HIF_RING_CTRL_enable r) ≠ 0 → r.val < 224 →
      changes (.ringDisable t r) s [Reg.HIF_RING_CTRL_enable r] [] [.rings, .claims] (fun u =>
      u.get (Reg.HIF_RING_CTRL_enable r) = 0 ∧ u.ringOf r = { s.ringOf r with fetched := [], poll := none } ∧
      (∀ q, q < 224 → q ≠ r.val → u.ringOf q = s.ringOf q) ∧ ((∀ q, 128 ≤ q → q < 224 → q ≠ r.val →
      s.get (Reg.HIF_RING_CTRL_enable q) = 0) → isTxRing r = true → tabGet u.claims 36 ≠ some ⟨false, 0x1B⟩))) ∧
    (∀ (off : Fin 4096) (cluster : Bool) (w z : Word) (i : Nat), s.get (Reg.HIF_RING_CTRL_enable r) ≠ 0 →
      off.val = 8 * r.val → cluster = (ringOwner s r == 1) → i = w.toNat % 65536 → (hostProduced r = true ∧
      (i + 65536 - (s.ringOf r).pIdx) % 65536 < 32768 ∧ (i + 65536 - (s.ringOf r).cIdx) % 65536 ≤ ringSize s r) ∨
      (hostProduced r = false ∧ countBetween (s.ringOf r).pIdx i (s.ringOf r).cIdx = true) →
      leadsTo (.doorbell t off cluster .write32 w z) s
      (((({ s.now t with resp := .ok } : State)).bump Reg.HIF_CNT_DB).setRing r { s.ringOf r with
        pIdx := i, armed := (s.ringOf r).armed || w.toNat.testBit 31, dbArm := w.toNat.testBit 31 })) ∧
    (∀ (off : Fin 4096) (cluster : Bool) (w v : Word) (i c : Nat), s.get (Reg.HIF_RING_CTRL_enable r) ≠ 0 →
      off.val = 8 * r.val → isTxRing r = true → cluster = (ringOwner s r == 1) → i = w.toNat % 65536 →
      c = v.toNat % 65536 → (hostProduced r = true ∧ (i + 65536 - (s.ringOf r).pIdx) % 65536 < 32768 ∧
      (i + 65536 - (s.ringOf r).cIdx) % 65536 ≤ ringSize s r) ∨ (hostProduced r = false ∧
      countBetween (s.ringOf r).pIdx i (s.ringOf r).cIdx = true) →
      countBetween (s.ringOf r).ccons c (s.ringOf r).cp = true →
      leadsTo (.doorbell t off cluster .write64 w v) s
      (((({ s.now t with resp := .ok } : State)).bump Reg.HIF_CNT_DB).setRing r { s.ringOf r with
        pIdx := i, armed := (s.ringOf r).armed || w.toNat.testBit 31, dbArm := w.toNat.testBit 31, ccons := c })) ∧
    (∀ (off : Fin 4096) (cluster : Bool) (w z : Word) (c : Nat), s.get (Reg.HIF_RING_CTRL_enable r) ≠ 0 →
      off.val = 8 * r.val + 4 → isTxRing r = true → cluster = (ringOwner s r == 1) → c = w.toNat % 65536 →
      countBetween (s.ringOf r).ccons c (s.ringOf r).cp = true →
      leadsTo (.doorbell t off cluster .write32 w z) s
      (((({ s.now t with resp := .ok } : State)).bump Reg.HIF_CNT_DB).setRing r { s.ringOf r with ccons := c })) ∧
    (∀ (off : Fin 4096) (cluster : Bool) (w z : Word), s.get (Reg.HIF_RING_CTRL_enable r) ≠ 0 → off.val = 8 * r.val →
      cluster ≠ (ringOwner s r == 1) → leadsTo (.doorbell t off cluster .write32 w z) s
      (({ s.now t with resp := .ok } : State).bump Reg.HIF_CNT_DB_FOREIGN)) ∧
    (∀ (off : Fin 4096) (cluster : Bool) (w z : Word) (x y : Nat), off.val = 8 * r.val →
      x = (if s.get (Reg.HIF_RING_CTRL_enable r) = 0 then 0 else (s.ringOf r).pIdx +
      (if (s.ringOf r).dbArm then 2 ^ 31 else 0)) →
      y = (if s.get (Reg.HIF_RING_CTRL_enable r) = 0 then 0 else (s.ringOf r).ccons) →
      leadsTo (.doorbell t off cluster .read32 w z) s { s.now t with resp := .value (BitVec.ofNat 32 x) } ∧
      leadsTo (.doorbell t off cluster .read64 w z) s { s.now t with
        resp := .value64 (BitVec.ofNat 32 x) (BitVec.ofNat 32 y) }) ∧
    (∀ (off : Fin 4096) (cluster : Bool) (w z : Word), 2048 ≤ off.val ∨ off.val % 4 ≠ 0 →
      leadsTo (.doorbell t off cluster .read32 w z) s { s.now t with resp := .value 0 } ∧
      leadsTo (.doorbell t off cluster .write32 w z) s { s.now t with resp := .ok }) ∧
    (∀ (n : Nat) (descs : List (List Byte)), ringLive s r = true → isTxRing r = true → n = fetchCount s r →
      leadsTo (.descriptorFetch t r descs) s ((s.now t).setRing r { s.ringOf r with
        fetched := (s.ringOf r).fetched ++ (List.range n).map (fun i => octetsAt (descs.getD i []) 0 32) })) ∧
    (∀ (addr : BitVec 64), s.get (Reg.HIF_RING_CTRL_enable r) ≠ 0 → r.val < 224 →
      changes (.dmaError t r addr) s [] [Reg.HIF_CNT_DMA_ERR] [.rings] (fun u => 22 ∈ u.hif.pend ∧
      u.count Reg.HIF_CNT_DMA_ERR = (s.count Reg.HIF_CNT_DMA_ERR + 1) % 2 ^ 32 ∧
      u.ringOf r = { s.ringOf r with halted := true, err := 2 } ∧ ∀ q, q < 224 → q ≠ r.val → u.ringOf q = s.ringOf q))

/-- R26, R331, R332 and R333. A frame of a transmit ring whose descriptors break no rule, with buffers of pool 4 and,
to the air, a tag, is admitted: its buffers leave the pool, the ring's count advances past it, and its octets are
on their way as a downlink flight. One whose kind is reserved ends at once with its completion record. The model's
choices here: the largest frame of each kind and a plan entry of another band (log 28), when a host frame takes
its tag and its buffers (logs 191, 196), and the reports of a ring that stops (log 81). -/
def Obligations.FrameAdmissionCompletes : Prop :=
  ∀ (t : Nat) (r : Fin 256) (d : List Byte) (l : List (List Byte)) (data : List Byte) (s : State), s.settled →
    (∀ (ds : List (List Byte)) (w : TxMetaDesc) (n tag : Nat), ringLive s r = true → isTxRing r = true →
      untilEop (s.ringOf r).fetched = some ds → n = (ds.map descLen).foldl (· + ·) 0 → w = txMetaOf (ds.headD []) →
      w.kind = 0 → txFrameCheck s w ds = 0 → buffersFor n ≤ poolFree s 4 → poolFree s 4 < 2 ^ 15 →
      freeTag s (if ringOwner s r = 1 then .cluster else .host) 0 = some tag →
      (s.ringOf r).frames.length + ((s.ringOf r).cp + 65536 - (s.ringOf r).ccons) % 65536 < ringSize s r →
      changes (.frameAdmission t r (some data)) s [Reg.CTX_POOL_FREE_free 4, Reg.CHR_TAG_STAT_active]
      [Reg.HIF_CNT_TX_FRAMES, Reg.CHR_CNT_TAG_SKIP] [.rings, .host, .fwd, .stages] (fun u =>
      u.count Reg.HIF_CNT_TX_FRAMES = (s.count Reg.HIF_CNT_TX_FRAMES + 1) % 2 ^ 32 ∧
      poolFree u 4 = poolFree s 4 - buffersFor n ∧ u.ringOf r = { s.ringOf r with
        fetched := (s.ringOf r).fetched.drop ds.length, cIdx := ((s.ringOf r).cIdx + ds.length) % 65536,
        frames := tabPut (s.ringOf r).frames s.hif.nextRef { descIdx := (s.ringOf r).cIdx, kind := 0, tsReq := w.tsReq } }
      ∧ (flightOf u tag).map (fun f => (f.up, f.octets, f.host, f.pool, f.bufs)) = some (false, octetsAt data 0 n,
      some (r.val, s.hif.nextRef), 4, buffersFor n) ∧ ∀ k, k ≠ tag → flightOf u k = flightOf s k)) ∧
    (ringLive s r = true → isTxRing r = true → (s.ringOf r).fetched = d :: l → untilEop (d :: l) = some [d] →
      (txMetaOf d).kind = 3 → (s.ringOf r).frames.length + ((s.ringOf r).cp + 65536 - (s.ringOf r).ccons) % 65536 <
      ringSize s r → tabGet (s.ringOf r).frames s.hif.nextRef = none →
      changes (.frameAdmission t r (some data)) s [] [Reg.HIF_CNT_TX_FRAMES] [.rings, .host] (fun u =>
      (u.ringOf r).frames = (s.ringOf r).frames ∧ (u.ringOf r).cIdx = ((s.ringOf r).cIdx + 1) % 65536 ∧
      (u.ringOf r).cp = ((s.ringOf r).cp + 1) % 65536 ∧
      .memWrite (ringOwner s r) (ringAux s r + 32 * ((s.ringOf r).cp % ringSize s r)) (withPhase
      (completionOctets (s.ringOf r).cIdx none false { hif := 1 }) (phaseOf (s.ringOf r).cp
      (s.get (Reg.HIF_RING_CTRL_log2_size r)))) ∈ u.out))

/-- R321, R334, R338, R339, R340 and R348. A control descriptor's write reaches its register, and its completion is in
its slot; a poll that has run out ends with the value and status 1; a software raise sets the event's pending bit;
a coalesced vector fires when its time is over, a masked one when it is unmasked; BAR4 holds the words written to
it; a function level reset, a lost link and the return from D3hot disable every ring and mask every vector, and
HOST going down counts its epoch. The model's choices here: a control ring of the cluster acts as CORE0, not
secure (log 33), the order of a control descriptor's checks (log 214), coalescing fields written while a vector
counts (log 95), the order of rings and EV023 at a link-down (log 217), PCIe commands in standalone mode (log
218), the places of the identification words (log 325), which master a read has and the free values that it draws
(logs 2, 235). -/
def Obligations.EventsAndControlComplete : Prop :=
  ∀ (t : Nat) (r : Fin 256) (d : List Byte) (mem : BusReads) (s : State), s.settled →
    (isCtlRing r = true → ringLive s r = true → ringOwner s r = 0 → s.get Reg.PWR_STATUS_state ≠ 2 →
      (s.ringOf r).poll = none → (s.ringOf r).pIdx ≠ (s.ringOf r).cIdx → controlSkips (s.ringOf r) = false →
      d.length = 32 → octet d 0 = 1 → ofLe (octetsAt d 4 4) = 0x20068 →
      changes (.controlDescriptor t r d mem) s [Reg.BAL_PTP_SET_SEC_LO_set_sec_lo] [] [] (fun u =>
      u.get Reg.BAL_PTP_SET_SEC_LO_set_sec_lo = ofLe (octetsAt d 8 4) ∧
      .memWrite 0 (ringBase s r + 32 * ((s.ringOf r).cIdx % ringSize s r)) (withPhase (putAt d 20 [0]) (phaseOf
      (s.ringOf r).cIdx (s.get (Reg.HIF_RING_CTRL_log2_size r)))) ∈ u.out)) ∧
    (∀ (v : Nat), isCtlRing r = true → ringLive s r = true → ringOwner s r = 0 → s.get Reg.PWR_STATUS_state ≠ 2 →
      (s.ringOf r).poll = none → (s.ringOf r).pIdx ≠ (s.ringOf r).cIdx → controlSkips (s.ringOf r) = false →
      d.length = 32 → octet d 0 = 2 → ofLe (octetsAt d 4 4) = 0x20068 → v = regValue s 0x20068 → v < 2 ^ 32 →
      changes (.controlDescriptor t r d mem) s [] [] [] (fun u =>
      .memWrite 0 (ringBase s r + 32 * ((s.ringOf r).cIdx % ringSize s r)) (withPhase
      (putAt (putAt d 16 (leOctets 4 v)) 20 [0]) (phaseOf (s.ringOf r).cIdx (s.get (Reg.HIF_RING_CTRL_log2_size r))))
      ∈ u.out)) ∧
    (∀ (v n : Nat), isCtlRing r = true → ringLive s r = true → ringOwner s r = 0 → s.get Reg.PWR_STATUS_state ≠ 2 →
      (s.ringOf r).poll = none → (s.ringOf r).pIdx ≠ (s.ringOf r).cIdx → controlSkips (s.ringOf r) = false →
      d.length = 32 → octet d 0 = 3 → ofLe (octetsAt d 4 4) = 0x20068 → v = regValue s 0x20068 → v < 2 ^ 32 →
      v &&& ofLe (octetsAt d 12 4) ≠ ofLe (octetsAt d 8 4) → n = ofLe (octetsAt d 2 2) →
      completes (.controlDescriptor t r d mem) s (fun u =>
      (u.ringOf r).poll = some (d, max s.ltb t + (if n = 0 then 65536 else n) * 1000) ∧
      (u.ringOf r).cIdx = (s.ringOf r).cIdx ∧ s.elsewhere u [] [] [])) ∧
    (isCtlRing r = true → ringLive s r = true → ringOwner s r = 0 → s.get Reg.PWR_STATUS_state ≠ 2 →
      (s.ringOf r).poll = none → (s.ringOf r).pIdx ≠ (s.ringOf r).cIdx → controlSkips (s.ringOf r) = true →
      d.length = 32 → changes (.controlDescriptor t r d mem) s [] [] [] (fun u =>
      .memWrite 0 (ringBase s r + 32 * ((s.ringOf r).cIdx % ringSize s r)) (withPhase (putAt d 20 [4]) (phaseOf
      (s.ringOf r).cIdx (s.get (Reg.HIF_RING_CTRL_log2_size r)))) ∈ u.out)) ∧
    (isCtlRing r = true → ringLive s r = true → ringOwner s r = 0 → s.get Reg.PWR_STATUS_state ≠ 2 →
      (s.ringOf r).poll = none → (s.ringOf r).pIdx ≠ (s.ringOf r).cIdx → controlSkips (s.ringOf r) = false →
      d.length = 32 → octet d 0 = 0 ∨ 3 < octet d 0 → changes (.controlDescriptor t r d mem) s [] [] [] (fun u =>
      .memWrite 0 (ringBase s r + 32 * ((s.ringOf r).cIdx % ringSize s r)) (withPhase (putAt d 20 [3]) (phaseOf
      (s.ringOf r).cIdx (s.get (Reg.HIF_RING_CTRL_log2_size r)))) ∈ u.out)) ∧
    (isCtlRing r = true → ringLive s r = true → ringOwner s r = 0 → s.get Reg.PWR_STATUS_state ≠ 2 →
      (s.ringOf r).poll = none → (s.ringOf r).pIdx ≠ (s.ringOf r).cIdx → controlSkips (s.ringOf r) = false →
      d.length = 32 → 1 ≤ octet d 0 → octet d 0 ≤ 3 → ofLe (octetsAt d 4 4) % 4 ≠ 0 ∨
      0x200000 ≤ ofLe (octetsAt d 4 4) → changes (.controlDescriptor t r d mem) s [] [] [] (fun u =>
      .memWrite 0 (ringBase s r + 32 * ((s.ringOf r).cIdx % ringSize s r)) (withPhase (putAt d 20 [2]) (phaseOf
      (s.ringOf r).cIdx (s.get (Reg.HIF_RING_CTRL_log2_size r)))) ∈ u.out)) ∧
    (isCtlRing r = true → ringLive s r = true → (s.ringOf r).poll = none → (s.ringOf r).pIdx ≠ (s.ringOf r).cIdx →
      d.length = 32 → (ofLe (octetsAt d 4 4)) % 4 = 0 → (ofLe (octetsAt d 4 4)) < 0x200000 →
      controlSkips (s.ringOf r) = false → octet d 0 = 1 →
      endsIn (.controlDescriptor t r d mem) s (controlEnd (busWrite
      ((s.begin t).onRing r (fun g => { g with skipTo := none })) (ringMaster s r) (ofLe (octetsAt d 4 4))
      (ofLe (octetsAt d 8 4)) mem) r d none 0)) ∧
    (isCtlRing r = true → ringLive s r = true → (s.ringOf r).poll = none → (s.ringOf r).pIdx ≠ (s.ringOf r).cIdx →
      d.length = 32 → (ofLe (octetsAt d 4 4)) % 4 = 0 → (ofLe (octetsAt d 4 4)) < 0x200000 →
      controlSkips (s.ringOf r) = false → octet d 0 = 2 →
      endsIn (.controlDescriptor t r d mem) s (controlEnd (readWord (busRead
      ((s.begin t).onRing r (fun g => { g with skipTo := none })) (ringMaster s r) (ofLe (octetsAt d 4 4)))).2 r d
      (some (readWord (busRead ((s.begin t).onRing r (fun g => { g with skipTo := none })) (ringMaster s r)
      (ofLe (octetsAt d 4 4)))).1) 0)) ∧
    (∀ (due : Nat), isCtlRing r = true → ringLive s r = true → (s.ringOf r).poll = some (d, due) →
      (readWord (busRead (s.begin t) (ringMaster s r) (ofLe (octetsAt d 4 4)))).1 &&& ofLe (octetsAt d 12 4) = ofLe
      (octetsAt d 8 4) → endsIn (.controlPollEnd t r) s (controlEnd (readWord
      (busRead (s.begin t) (ringMaster s r) (ofLe (octetsAt d 4 4)))).2 r d (some (readWord
      (busRead (s.begin t) (ringMaster s r) (ofLe (octetsAt d 4 4)))).1) 0)) ∧
    (∀ (due v : Nat), isCtlRing r = true → ringLive s r = true → ringOwner s r = 0 → s.get Reg.PWR_STATUS_state ≠ 2 →
      (s.ringOf r).poll = some (d, due) → due ≤ max s.ltb t → ofLe (octetsAt d 4 4) = 0x20068 →
      v = regValue s 0x20068 → v < 2 ^ 32 → v &&& ofLe (octetsAt d 12 4) ≠ ofLe (octetsAt d 8 4) →
      changes (.controlPollEnd t r) s [] [] [] (fun u =>
      .memWrite 0 (ringBase s r + 32 * ((s.ringOf r).cIdx % ringSize s r)) (withPhase
      (putAt (putAt d 16 (leOctets 4 v)) 20 [1]) (phaseOf (s.ringOf r).cIdx (s.get (Reg.HIF_RING_CTRL_log2_size r))))
      ∈ u.out)) ∧
    (∀ (ev : Fin 256), changes (.evtSwraise t ev) s [] [] [] (fun u => ev.val ∈ u.hif.pend)) ∧
    (∀ (v : Fin 64) (x : Vec), tabGet s.hif.vecs v = some x → 0 < x.count →
      x.first + s.cur (Reg.HIF_VEC_CFG_coal_us v) * 1000 ≤ max s.ltb t → s.get (Reg.HIF_VEC_CFG_dest v) = 0 →
      s.hif.funcMask = false → v.val ∈ s.hif.unmasked →
      changes (.coalesceTimeout t v) s [] [] [] (fun u => msixMessage s v ∈ u.out)) ∧
    (∀ (off : Fin 4096) (w : Word) (v : Nat), s.get Reg.HIF_STATUS_standalone = 0 → off.val = 16 * v + 12 →
      v ∈ s.hif.pba → s.hif.funcMask = false → w.toNat % 2 = 0 →
      changes (.vectorUnmask t (.write off w)) s [] [Reg.HIF_CNT_MSG] [.host] (fun u => msixMessage s v ∈ u.out ∧
      v ∈ u.hif.unmasked ∧ u.hif.table = s.hif.table ∧ u.resp = .ok)) ∧
    (∀ (off : Fin 4096) (w : Word) (v : Nat), s.get Reg.HIF_STATUS_standalone = 0 → off.val = 16 * v + 12 → v < 64 →
      w.toNat % 2 = 1 → leadsTo (.vectorUnmask t (.write off w)) s { s.now t with
        resp := .ok, hif := { s.hif with unmasked := s.hif.unmasked.filter (· != v) } }) ∧
    (∀ (off : Fin 4096) (w : Word) (k : Nat), s.get Reg.HIF_STATUS_standalone = 0 → off.val = 4 * k → k < 256 →
      k % 4 ≠ 3 → leadsTo (.vectorUnmask t (.write off w)) s { s.now t with
        resp := .ok, hif := { s.hif with table := tabPut s.hif.table k w.toNat } }) ∧
    (∀ (off : Fin 4096), s.get Reg.HIF_STATUS_standalone = 0 → leadsTo (.vectorUnmask t (.read off)) s { s.now t with
        resp := .value (BitVec.ofNat 32 (msixWord s off)) }) ∧
    (∀ (v : Nat), s.get Reg.HIF_STATUS_standalone = 0 → v ∈ s.hif.pba → v ∈ s.hif.unmasked →
      changes (.vectorUnmask t (.function false)) s [] [Reg.HIF_CNT_MSG] [.host]
      (fun u => msixMessage s v ∈ u.out ∧ u.hif.funcMask = false)) ∧
    (s.get Reg.HIF_STATUS_standalone = 0 → leadsTo (.vectorUnmask t (.function true)) s
      { s.now t with hif := { s.hif with funcMask := true } } ∧
      leadsTo (.vectorUnmask t (.busMaster true)) s ((s.now t).set Reg.HIF_STATUS_bme 1) ∧
      leadsTo (.vectorUnmask t (.busMaster false)) s ((s.now t).set Reg.HIF_STATUS_bme 0)) ∧
    (s.get Reg.HIF_STATUS_standalone = 0 → changes (.functionLevelReset t) s ([Reg.MBX_EP_epoch 0] ++
      (List.range 256).map Reg.HIF_RING_CTRL_enable) [] [.rings, .host, .mailboxes, .claims] (fun u =>
      u.hif.flr = true ∧ (∀ r, r < 256 → u.get (Reg.HIF_RING_CTRL_enable r) = 0) ∧ (∀ r, r < 224 →
      (u.ringOf r).frames = [] ∧ (u.ringOf r).pIdx = 0) ∧ u.hif.unmasked = [] ∧ u.hif.funcMask = true ∧
      (hostDown s = false → 255 ∈ u.hif.pend ∧ u.get (Reg.MBX_EP_epoch 0) = (s.get (Reg.MBX_EP_epoch 0) + 1) %
      65536))) ∧
    (s.get Reg.HIF_STATUS_standalone = 0 → s.get Reg.HIF_STATUS_link_up ≠ 0 →
      changes (.pcieLinkDown t) s ([Reg.MBX_EP_epoch 0] ++ (List.range 256).map Reg.HIF_RING_CTRL_enable ++
      [Reg.HIF_STATUS_link_up, Reg.HIF_STATUS_speed,
      Reg.HIF_STATUS_width]) [] [.rings, .host, .mailboxes, .claims] (fun u => u.get Reg.HIF_STATUS_link_up = 0 ∧
      23 ∈ u.hif.pend ∧ (∀ r, r < 256 → u.get (Reg.HIF_RING_CTRL_enable r) = 0) ∧ (∀ r, r < 224 →
      (u.ringOf r).frames = [] ∧ (u.ringOf r).pIdx = 0) ∧ u.hif.unmasked = [] ∧ u.hif.funcMask = true ∧
      (hostDown s = false → 255 ∈ u.hif.pend ∧ u.get (Reg.MBX_EP_epoch 0) = (s.get (Reg.MBX_EP_epoch 0) + 1) %
      65536))) ∧
    (s.get Reg.HIF_STATUS_standalone = 0 → s.hif.d3hot = true →
      changes (.d3hotToD0 t) s ((List.range 256).map Reg.HIF_RING_CTRL_enable) [] [.rings, .host, .claims] (fun u =>
      u.hif.d3hot = false ∧ (∀ r, r < 256 → u.get (Reg.HIF_RING_CTRL_enable r) = 0) ∧ (∀ r, r < 224 →
      (u.ringOf r).frames = [] ∧ (u.ringOf r).pIdx = 0) ∧ u.hif.unmasked = [] ∧ u.hif.funcMask = true))

/-- R349, R351, R353, R356, R357 and R358. A secure configuration of an idle channel sets its two ends and enables it;
a message posted by the sender is queued with the staged words, the epochs of both ends and the next sequence
number, and the receiver pops the oldest; a fifth message takes the place of the fourth, marked. A free semaphore
is taken by a read and freed by its owner's write; a forced one is free and marked abandoned. Unmasking a pending
line delivers it. The model's choices here: which endpoint the Crown is after handed_over (log 85), that sequence
numbers start at 0 (log 220), who releases a semaphore (log 221), and that a delivered line is an output (log
301). -/
def Obligations.MailboxesComplete : Prop :=
  ∀ (t : Nat) (m : Master) (n : Fin 32) (s : State), s.settled →
    (∀ (val : Word) (a c : Nat), masterNow s m = m → (endpointOf m).2 = true → s.get (Reg.MBX_CH_CFG_enable n) = 0 →
      bits val.toNat 0 1 = 1 → a = bits val.toNat 1 3 → c = bits val.toNat 4 3 → a ≠ c → 1 ≤ a → a ≤ 4 → 1 ≤ c →
      c ≤ 4 → changes (.channelCfg t m n val) s [Reg.MBX_CH_CFG_enable n, Reg.MBX_CH_CFG_sender n,
      Reg.MBX_CH_CFG_receiver n, Reg.MBX_CH_CFG_ev_en n] [] [] (fun u => u.get (Reg.MBX_CH_CFG_enable n) = 1 ∧
      u.get (Reg.MBX_CH_CFG_sender n) = a ∧ u.get (Reg.MBX_CH_CFG_receiver n) = c ∧
      u.get (Reg.MBX_CH_CFG_ev_en n) = bits val.toNat 7 1)) ∧
    (∀ (len : BitVec 4) (k : Nat), masterNow s m = m → chanRefuses s m n .sender = false →
      endDown s (s.get (Reg.MBX_CH_CFG_receiver n)) = false → k = len.toNat → 1 ≤ k → k ≤ 8 →
      (chanOf s n).msgs.length < 4 → changes (.post t m n len) s [Reg.MBX_CH_STAT_level n] [Reg.MBX_CNT_POST]
      [.mailboxes] (fun u => u.count Reg.MBX_CNT_POST = (s.count Reg.MBX_CNT_POST + 1) % 2 ^ 32 ∧
      u.get (Reg.MBX_CH_STAT_level n) = (chanOf s n).msgs.length + 1 ∧ chanOf u n = {
        seq := ((chanOf s n).seq + 1) % 65536, msgs := (chanOf s n).msgs ++ [{
          words := (List.range k).map (fun i => BitVec.ofNat 32 (s.get (Reg.MBX_CH_TXD_word n i))),
          seq := (chanOf s n).seq, txEpoch := s.get (Reg.MBX_EP_epoch (s.get (Reg.MBX_CH_CFG_sender n))),
          rxEpoch := s.get (Reg.MBX_EP_epoch (s.get (Reg.MBX_CH_CFG_receiver n))) }] } ∧ ∀ j, j ≠ n.val →
      chanOf u j = chanOf s j)) ∧
    (∀ (len : BitVec 4), masterNow s m = m → chanRefuses s m n .sender = false →
      endDown s (s.get (Reg.MBX_CH_CFG_receiver n)) = false → 1 ≤ len.toNat → len.toNat ≤ 8 →
      4 ≤ (chanOf s n).msgs.length → changes (.post t m n len) s
      [Reg.MBX_CH_STAT_level n, Reg.MBX_CH_STAT_collision n] [Reg.MBX_CNT_POST, Reg.MBX_CNT_COLLISION] [.mailboxes]
      (fun u => 250 ∈ u.hif.pend ∧ u.get (Reg.MBX_CH_STAT_collision n) = 1 ∧
      u.count Reg.MBX_CNT_COLLISION = (s.count Reg.MBX_CNT_COLLISION + 1) % 2 ^ 32 ∧ (chanOf u n).msgs.length = 4 ∧
      (chanOf u n).msgs.take 3 = (chanOf s n).msgs.take 3 ∧ ((chanOf u n).msgs[3]?).map (·.collision) = some true ∧
      ∀ j, j ≠ n.val → chanOf u j = chanOf s j)) ∧
    (∀ (x : Msg) (l : List Msg), masterNow s m = m → chanRefuses s m n .receiver = false →
      endDown s (s.get (Reg.MBX_CH_CFG_receiver n)) = false → (chanOf s n).msgs = x :: l → l.length < 8 →
      changes (.mbxPop t m n) s [Reg.MBX_CH_STAT_level n] [] [.mailboxes] (fun u =>
      chanOf u n = { chanOf s n with msgs := l } ∧ u.get (Reg.MBX_CH_STAT_level n) = l.length ∧ ∀ j, j ≠ n.val →
      chanOf u j = chanOf s j)) ∧
    (∀ (k : Fin 64) (ab : Bool), masterNow s m = m → (k.val < 32 → (endpointOf m).2 = true) → semOf s k = ⟨0, ab⟩ →
      changes (.semTake t m k) s [] [] [.mailboxes] (fun u => u.resp = .value (if ab then 256 else 0) ∧
      semOf u k = ⟨ownerId m, false⟩ ∧ ∀ j, j ≠ k.val → semOf u j = semOf s j)) ∧
    (∀ (k : Fin 64) (val : Word), masterNow s m = m → (semOf s k).owner = ownerId m → val.toNat % 256 = ownerId m →
      changes (.semRelease t m k val) s [] [] [.mailboxes] (fun u => (semOf u k).owner = 0 ∧
      (semOf u k).abandoned = (semOf s k).abandoned ∧ ∀ j, j ≠ k.val → semOf u j = semOf s j)) ∧
    (∀ (k : Fin 64), masterNow s m = m → (endpointOf m).2 = true →
      changes (.semForce t m k) s [] [] [.mailboxes] (fun u => semOf u k = ⟨0, true⟩ ∧ ∀ j, j ≠ k.val →
      semOf u j = semOf s j)) ∧
    (∀ (v : Fin 64) (up : List Nat), v.val ∈ s.mbx.lines → up = (List.range 4).filter (fun c =>
      bits (s.get (Reg.MBX_CIRQ_CFG_targets v)) c 1 == 1 && bits (coresDown s) c 1 == 0) → up ≠ [] →
      changes (.clusterLineUnmask t v) s [Reg.MBX_CIRQ_CFG_mask v] [] [] (fun u =>
      u.get (Reg.MBX_CIRQ_CFG_mask v) = 0 ∧ .clusterLine v ((up.map (fun c => 2 ^ c)).sum) ∈ u.out))

/-- R361 to R374. A port with a valid address 0 is enabled, which claims pool 3 (resource 35), and its link comes up
and goes down; a frame that fails a check of R363 is counted and dropped, one that passes is counted and waits in
the receive FIFO, a pause frame pauses; the FIFO's head moves into pool 3; a pause ends by time or by the
watchdog, which ignores pauses for the holdoff; a fill at xoff_thr sends a pause frame, after the frame in
transmission; that frame leaves with its FCS and the next begins; STANDBY is entered and left. The model's choices
here: the CRC and the places of the fields of IEEE 1588 messages (logs 10, 29), the base and the key of a stored
Delay_Req (log 63), the order of the tests of R363 and where a frame of TWN's EtherType goes (logs 194, 195), the
FIFO of a disabled port (log 197), the rounding of pause times (log 198), and what ends standby (log 199). -/
def Obligations.EthernetCompletes : Prop :=
  ∀ (t : Nat) (i : Fin 2) (ts : Nat) (frame : List Byte) (s : State), s.settled →
    (s.get (Reg.ETH_CTRL_enable i) = 0 → s.get (Reg.ETH_UC_HI_valid i 0) ≠ 0 → claimFree s 0x1A 35 = true →
      changes (.ethEnable t i) s [Reg.ETH_CTRL_enable i, Reg.ETH_STATUS_state i] [] [.claims, .eth] (fun u =>
      u.get (Reg.ETH_CTRL_enable i) = 1 ∧ u.get (Reg.ETH_STATUS_state i) = 1 ∧
      tabGet u.claims 35 = some ⟨false, 0x1A⟩ ∧ (∀ j, j ≠ i.val → ethOf u j = ethOf s j) ∧
      (s.get (Reg.ETH_CTRL_mode i) = 2 → s.get (Reg.ETH_CTRL_an_en i) ≠ 0 →
      .advert (4 + i) (s.get (Reg.ETH_CTRL_pause_rx_en i) != 0) (s.get (Reg.ETH_CTRL_pause_tx_en i) != 0) ∈ u.out) ∧
      ethOf u i = { ethOf s i with
        advert := if s.get (Reg.ETH_CTRL_mode i) = 2 ∧ s.get (Reg.ETH_CTRL_an_en i) ≠ 0 then some (s.get (Reg.ETH_CTRL_pause_rx_en i) != 0,
          s.get (Reg.ETH_CTRL_pause_tx_en i) != 0) else (ethOf s i).advert })) ∧
    (s.get (Reg.ETH_CTRL_enable i) ≠ 0 → changes (.ethDisable t i) s [Reg.ETH_CTRL_enable i, Reg.ETH_STATUS_state i,
      Reg.ETH_STATUS_link_up i, Reg.ETH_STATUS_paused i,
      Reg.ETH_STATUS_wd_holdoff i] [Reg.ETH_CNT_RX_DISCARD i] [.eth, .claims] (fun u =>
      u.get (Reg.ETH_CTRL_enable i) = 0 ∧ u.get (Reg.ETH_STATUS_state i) = 0 ∧ u.get (Reg.ETH_STATUS_link_up i) = 0 ∧
      u.get (Reg.ETH_STATUS_paused i) = 0 ∧ u.get (Reg.ETH_STATUS_wd_holdoff i) = 0 ∧
      u.count (Reg.ETH_CNT_RX_DISCARD i) = (s.count (Reg.ETH_CNT_RX_DISCARD i) + (ethOf s i).rxq.length) % 2 ^ 32 ∧
      ethOf u i = { ethOf s i with
        rxq := [], pauseEnd := none, holdEnd := none, xoff := false, lock := false, advert := none } ∧
      (∀ j, j ≠ i.val → ethOf u j = ethOf s j) ∧ (s.get (Reg.ETH_CTRL_enable (1 - i.val)) = 0 →
      tabGet u.claims 35 ≠ some ⟨false, 0x1A⟩))) ∧
    (∀ (pause : BitVec 2) (g : Bool), ethState s i = 1 → (ethOf s i).lock = false →
      s.get (Reg.ETH_CTRL_standby i) = 0 → g = (s.get (Reg.ETH_STATUS_paused i) == 0 && !(ethOf s i).txq.isEmpty &&
      !(ethOf s i).sending) → changes (.linkUp t i 0 pause) s [Reg.ETH_STATUS_link_up i, Reg.ETH_STATUS_state i,
      Reg.ETH_STATUS_partner_pause i] [] [.eth] (fun u => 208 ∈ u.hif.pend ∧ u.get (Reg.ETH_STATUS_link_up i) = 1 ∧
      ethState u i = 2 ∧ (s.get (Reg.ETH_CTRL_mode i) = 2 → s.get (Reg.ETH_CTRL_an_en i) ≠ 0 →
      u.get (Reg.ETH_STATUS_partner_pause i) = pause.toNat) ∧ (∀ j, j ≠ i.val → ethOf u j = ethOf s j) ∧
      ethOf u i = { ethOf s i with
        lock := true, sending := (ethOf s i).sending || g,
        startAt := if g then max s.ltb t else (ethOf s i).startAt })) ∧
    (∀ (receiving : Bool), ethState s i ≠ 0 → (ethOf s i).lock = true →
      changes (.linkDown t i receiving) s [Reg.ETH_STATUS_link_up i, Reg.ETH_STATUS_state i]
      [Reg.ETH_CNT_RX_FCS_ERR i] [.eth] (fun u => 209 ∈ u.hif.pend ∧ u.get (Reg.ETH_STATUS_link_up i) = 0 ∧
      ethState u i = (if ethState s i = 2 then 1 else ethState s i) ∧ (∀ j, j ≠ i.val → ethOf u j = ethOf s j) ∧
      ethOf u i = { ethOf s i with
        lock := false,
        advert := if s.get (Reg.ETH_CTRL_mode i) = 2 ∧ s.get (Reg.ETH_CTRL_an_en i) ≠ 0 then some (s.get (Reg.ETH_CTRL_pause_rx_en i) != 0,
          s.get (Reg.ETH_CTRL_pause_tx_en i) != 0) else (ethOf s i).advert } ∧ (s.get (Reg.ETH_CTRL_mode i) = 2 →
      s.get (Reg.ETH_CTRL_an_en i) ≠ 0 → .advert (4 + i) (s.get (Reg.ETH_CTRL_pause_rx_en i) != 0)
      (s.get (Reg.ETH_CTRL_pause_tx_en i) != 0) ∈ u.out) ∧ u.count (Reg.ETH_CNT_RX_FCS_ERR i) = if ethState s i = 2 ∧
      receiving = true then (s.count (Reg.ETH_CNT_RX_FCS_ERR i) + 1) % 2 ^ 32 else s.count
      (Reg.ETH_CNT_RX_FCS_ERR i))) ∧
    (∀ (c : Nat), (ethOf s i).lock = true → ethState s i = 2 → rxFill (ethOf s i) + frame.length ≤ 65536 →
      ethCheck s i frame = .drop c → changes (.ethRxFrame t i ts frame) s [] [c] []
      (fun u => u.count c = (s.count c + 1) % 2 ^ 32)) ∧
    (∀ (time : Nat), (ethOf s i).lock = true → ethState s i = 2 → rxFill (ethOf s i) + frame.length ≤ 65536 →
      ethCheck s i frame = .pause time → 0 < time → s.get (Reg.ETH_STATUS_wd_holdoff i) = 0 →
      changes (.ethRxFrame t i ts frame) s [Reg.ETH_STATUS_paused i] [Reg.ETH_CNT_RX_PAUSE i] [.eth] (fun u =>
      u.get (Reg.ETH_STATUS_paused i) ≠ 0 ∧ (∀ j, j ≠ i.val → ethOf u j = ethOf s j) ∧
      u.count (Reg.ETH_CNT_RX_PAUSE i) = (s.count (Reg.ETH_CNT_RX_PAUSE i) + 1) % 2 ^ 32 ∧
      (ethOf u i).pauseEnd = some (max s.ltb t + (time * 512 * bitTenths s i + 9) / 10))) ∧
    (∀ (e ty : Nat) (l : List Byte), (ethOf s i).lock = true → ethState s i = 2 →
      rxFill (ethOf s i) + frame.length ≤ 65536 → ethCheck s i frame = .accept e →
      ty = ofBe (octetsAt (frame.take (frame.length - 4)) e 2) → ty ≠ s.get Reg.TWN_ETYPE_etype →
      l = frame.take (frame.length - 4) → changes (.ethRxFrame t i ts frame) s [] [Reg.ETH_CNT_RX_OK i] [.eth, .bal]
      (fun u => u.count (Reg.ETH_CNT_RX_OK i) = (s.count (Reg.ETH_CNT_RX_OK i) + 1) % 2 ^ 32 ∧
      (∀ j, j ≠ i.val → ethOf u j = ethOf s j) ∧ { ethOf u i with rxq := (ethOf s i).rxq } = ethOf s i ∧
      (ethOf u i).rxq.take (ethOf s i).rxq.length = (ethOf s i).rxq ∧
      ((ethOf u i).rxq.drop (ethOf s i).rxq.length).map (fun x => (x.1.octets, x.1.svc, x.2)) = [if ty = 0x86DD then
      (l.drop (e + 2), none, frame.length) else (l.take 12 ++ l.drop e, some (s.get (Reg.ETH_CLASS_host_svc i)),
      frame.length)])) ∧
    (∀ (w : WaitFrame) (n : Nat) (l : List (WaitFrame × Nat)), (ethOf s i).rxq = (w, n) :: l → ethState s i ≠ 3 →
      ethHeld s i < atLeast1 (s.get (Reg.ETH_RXBUF_CFG_rx_pool_max i)) → buffersFor n ≤ poolFree s 3 →
      poolFree s 3 < 2 ^ 15 → changes (.fifoToPool t i) s [Reg.CTX_POOL_FREE_free 3] [Reg.ETH_CNT_TX_PAUSE i]
      [.eth, .fwd] (fun u => (ethOf u i).rxq = l ∧ poolFree u 3 = poolFree s 3 - buffersFor n ∧
      (∀ j, j ≠ i.val → ethOf u j = ethOf s j) ∧ u.fwd = { s.fwd with
        waiting := s.fwd.waiting ++ [{ w with pool := 3, bufs := buffersFor n }] } ∧ ((ethOf s i).xoff = false →
      u.count (Reg.ETH_CNT_TX_PAUSE i) = s.count (Reg.ETH_CNT_TX_PAUSE i)))) ∧
    (∀ (x : Nat) (g : Bool), (ethOf s i).pauseEnd = some x → x ≤ max s.ltb t →
      g = (ethState s i == 2 && s.get (Reg.ETH_CTRL_standby i) == 0 && !(ethOf s i).txq.isEmpty &&
      !(ethOf s i).sending) → changes (.pauseExpiry t i) s [Reg.ETH_STATUS_paused i] [] [.eth] (fun u =>
      u.get (Reg.ETH_STATUS_paused i) = 0 ∧ (∀ j, j ≠ i.val → ethOf u j = ethOf s j) ∧ ethOf u i = { ethOf s i with
        pauseEnd := none, sending := (ethOf s i).sending || g,
        startAt := if g then max s.ltb t else (ethOf s i).startAt })) ∧
    (∀ (x y : Nat), (ethOf s i).pauseEnd = some x → y = (ethOf s i).pauseAt + (ethOf s i).pauseWd * 1000000 →
      y ≤ max s.ltb t → y ≤ x → changes (.pauseWatchdog t i) s [Reg.ETH_STATUS_paused i, Reg.ETH_STATUS_wd_holdoff i]
      [Reg.ETH_CNT_PAUSE_WD i] [.eth] (fun u => 210 ∈ u.hif.pend ∧ u.get (Reg.ETH_STATUS_paused i) = 0 ∧
      u.get (Reg.ETH_STATUS_wd_holdoff i) = 1 ∧
      u.count (Reg.ETH_CNT_PAUSE_WD i) = (s.count (Reg.ETH_CNT_PAUSE_WD i) + 1) % 2 ^ 32 ∧
      (ethOf u i).pauseEnd = none ∧ (ethOf u i).holdEnd = some (max s.ltb t + s.get
      (Reg.ETH_PAUSE_CFG_wd_holdoff_ms i) * 1000000) ∧ (∀ j, j ≠ i.val → ethOf u j = ethOf s j))) ∧
    (∀ (x : Nat), (ethOf s i).holdEnd = some x → x ≤ max s.ltb t →
      leadsTo (.holdoffEnd t i) s (((s.now t).set (Reg.ETH_STATUS_wd_holdoff i) 0).onEth i
      (fun e => { e with holdEnd := none }))) ∧
    (∀ (l : List Byte), s.get (Reg.ETH_CTRL_pause_tx_en i) ≠ 0 → ethState s i = 2 → (ethOf s i).xoff = false →
      xoffThr s i ≤ rxFill (ethOf s i) → (ethOf s i).sending = false → l = pauseFrame s i (pauseQuanta s i) →
      changes (.pauseSend t i) s [] [Reg.ETH_CNT_TX_PAUSE i] [.eth] (fun u =>
      .ethTx (4 + i) (l ++ leOctets 4 (ethCrc l)) ∈ u.out ∧
      u.count (Reg.ETH_CNT_TX_PAUSE i) = (s.count (Reg.ETH_CNT_TX_PAUSE i) + 1) % 2 ^ 32 ∧
      (∀ j, j ≠ i.val → ethOf u j = ethOf s j) ∧ ethOf u i = { ethOf s i with
        xoff := true, xoffAt := max s.ltb t, quanta := pauseQuanta s i })) ∧
    (s.get (Reg.ETH_CTRL_pause_tx_en i) ≠ 0 → ethState s i = 2 → (ethOf s i).xoff = false →
      xoffThr s i ≤ rxFill (ethOf s i) → (ethOf s i).sending = true →
      leadsTo (.pauseSend t i) s ((s.now t).onEth i (fun e => { e with
        pauseQ := e.pauseQ ++ [pauseQuanta s i], xoff := true, xoffAt := max s.ltb t, quanta := pauseQuanta s i }))) ∧
    (∀ (f : EscFrame) (l : List EscFrame), (ethOf s i).sending = true → (ethOf s i).txq = f :: l → f.ptp = false →
      f.host = none → f.mark = none → f.pool < 6 → ethState s i = 2 → s.get (Reg.ETH_CTRL_standby i) = 0 →
      changes (.ethTxEnd t i ts) s [Reg.CTX_POOL_FREE_free f.pool] [Reg.ETH_CNT_TX_OK i, Reg.ETH_CNT_TX_PAUSE i]
      [.eth] (fun u => .ethTx (4 + i) (f.octets ++ leOctets 4 (ethCrc f.octets)) ∈ u.out ∧
      u.count (Reg.ETH_CNT_TX_OK i) = (s.count (Reg.ETH_CNT_TX_OK i) + 1) % 2 ^ 32 ∧ (∀ q ∈ (ethOf s i).pauseQ,
      .ethTx (4 + i) (pauseFrame s i q ++ leOctets 4 (ethCrc (pauseFrame s i q))) ∈ u.out) ∧
      u.count (Reg.ETH_CNT_TX_PAUSE i) = (s.count (Reg.ETH_CNT_TX_PAUSE i) + (ethOf s i).pauseQ.length) % 2 ^ 32 ∧
      (∀ j, j ≠ i.val → ethOf u j = ethOf s j) ∧ ethOf u i = { ethOf s i with
        txq := l, sending := s.get (Reg.ETH_STATUS_paused i) == 0 && !l.isEmpty,
        startAt := if s.get (Reg.ETH_STATUS_paused i) = 0 ∧ l ≠ [] then max s.ltb t else (ethOf s i).startAt,
        pauseQ := [], beat := if (ethOf s i).beat = some f.ref then none else (ethOf s i).beat })) ∧
    ((ethState s i = 1 ∨ ethState s i = 2) → (ethOf s i).sending = false →
      leadsTo (.standby t i true) s (((s.now t).set (Reg.ETH_CTRL_standby i) 1).set (Reg.ETH_STATUS_state i) 3)) ∧
    (ethState s i = 3 → (ethOf s i).txq = [] →
      leadsTo (.standby t i false) s (((s.now t).set (Reg.ETH_CTRL_standby i) 0).set (Reg.ETH_STATUS_state i)
      (if (ethOf s i).lock then 2 else 1)))

/-- R282, R377, R385, R386 and R387. TWN with a role and an enabled heartbeat port claims pool 5 (resource 37) and
comparator 15 (resource 31), draws its epoch (its value is free) and is ALONE; disabling it releases them. Beats
go out on both paths; the first valid beat of the partner leads to JOINING, a new epoch of it from PAIRED too; one
of the own role is a clash. A path that misses hb_miss beats fails, and with the last one the pair; rejoin_ms
without a miss leads to PAIRED, and the next cycle boundary of split_cycles to the split. The model's choices
here: the draws are free values (log 2), the octet order of the CRC and the source address of a beat (log 30),
when a write of hb_miss or a tolerance acts (log 66), a path that never had a beat, and the first one (log 186),
what restarts the rejoin time (log 183), a disabled TWN's link (log 180), and what comparator 15 holds (log 282). -/
def Obligations.TwinPairCompletes : Prop :=
  ∀ (t : Nat) (p : Fin 2) (s : State), s.settled →
    (s.get Reg.TWN_CTRL_enable = 0 → twinRole s ≠ 0 → s.get (Reg.ETH_CTRL_enable (hbPort s)) ≠ 0 →
      claimFree s 0x16 31 = true → claimFree s 0x1C 37 = true → changes (.twnEnable t) s [Reg.TWN_EPOCH_epoch,
      Reg.TWN_CTRL_enable, Reg.TWN_STATUS_state] [] [.claims, .twn, .inForce] (fun u =>
      u.get Reg.TWN_CTRL_enable = 1 ∧ twnState u = 1 ∧ tabGet u.claims 31 = some ⟨false, 0x16⟩ ∧
      tabGet u.claims 37 = some ⟨false, 0x1C⟩ ∧ u.twn = { s.twn with pairAt := max s.ltb t, ethAt := max s.ltb t })) ∧
    (s.get Reg.TWN_CTRL_enable ≠ 0 → changes (.twnDisable t) s ([Reg.TWN_CTRL_enable, Reg.TWN_STATUS_state,
      Reg.TWN_STATUS_split] ++ [Reg.TWN_STATUS_pair_ok, Reg.TWN_STATUS_eth_ok]) [] [.claims, .twn] (fun u =>
      u.get Reg.TWN_CTRL_enable = 0 ∧ twnState u = 0 ∧ u.get Reg.TWN_STATUS_split = 0 ∧
      u.twn = { s.twn with pair := {}, eth := {} } ∧ tabGet u.claims 31 ≠ some ⟨false, 0x16⟩ ∧
      tabGet u.claims 37 ≠ some ⟨false, 0x1C⟩)) ∧
    (twnState s ≠ 0 → s.twn.pairAt ≤ max s.ltb t → changes (.pairBeatSend t) s [] [] [.twn] (fun u =>
      .pairBeat (pairWord s) ∈ u.out ∧ u.twn = { s.twn with
        pairAt := s.twn.pairAt + 1000000, pairSeq := s.twn.pairSeq + 1 })) ∧
    (twnState s ≠ 0 → s.twn.ethAt ≤ max s.ltb t → ethMaySend s (hbPort s) = true →
      changes (.ethBeatSend t) s [] [] [.twn, .eth, .amc, .inForce] (fun u => u.twn = { s.twn with
        ethAt := s.twn.ethAt + atLeast1 (s.get Reg.TWN_HB_CFG_eth_period_ms) * 1000000, ethSeq := s.twn.ethSeq + 1 } ∧
      (∀ j, j ≠ hbPort s → ethOf u j = ethOf s j) ∧ (ethOf u (hbPort s)).sending = true ∧
      ((ethOf u (hbPort s)).txq.map (·.octets)) = ((ethOf s (hbPort s)).txq.map (·.octets)) ++
      [ethBeatFrame (s.now t)])) ∧
    (∀ (word : BitVec 40) (w : Nat), w = word.toNat → bits w 0 8 = 0xA5 → bits w 32 8 = crc8 (leOctets 4 w) →
      twnState s ≠ 0 → bits w 8 2 = twinRole s →
      changes (.pairBeatReceived t word) s [] [Reg.TWN_CNT_ROLE_CLASH] [] (fun u => 231 ∈ u.hif.pend ∧
      u.count Reg.TWN_CNT_ROLE_CLASH = (s.count Reg.TWN_CNT_ROLE_CLASH + 1) % 2 ^ 32)) ∧
    (∀ (word : BitVec 40) (w : Nat), w = word.toNat → bits w 0 8 = 0xA5 → bits w 32 8 = crc8 (leOctets 4 w) →
      twnState s = 1 → bits w 8 2 ≠ twinRole s → bits w 8 2 = 1 ∨ bits w 8 2 = 2 →
      changes (.pairBeatReceived t word) s [Reg.TWN_STATUS_state, Reg.TWN_STATUS_pair_ok,
      Reg.TWN_PART_STAT_part_epoch, Reg.TWN_PART_STAT_part_state] [] [.twn, .inForce] (fun u => 224 ∈ u.hif.pend ∧
      twnState u = 2 ∧ u.get Reg.TWN_PART_STAT_part_epoch = bits w 12 16 ∧
      u.get Reg.TWN_PART_STAT_part_state = bits w 10 2 ∧ u.get Reg.TWN_STATUS_pair_ok = 1 ∧ u.twn = { s.twn with
        pair := { last := some (max s.ltb t), miss := 0, up := true }, joinAt := max s.ltb t,
        rejoin := s.get Reg.TWN_HB_CFG2_rejoin_ms })) ∧
    (∀ (i : Fin 2) (octets : List Byte), i.val = hbPort s → octet octets 0 = 1 → 12 ≤ octets.length → twnState s = 1 →
      octet octets 1 % 4 ≠ twinRole s → octet octets 1 % 4 = 1 ∨ octet octets 1 % 4 = 2 →
      changes (.ethBeatReceived t i octets) s [Reg.TWN_STATUS_state, Reg.TWN_STATUS_eth_ok,
      Reg.TWN_PART_STAT_part_epoch, Reg.TWN_PART_STAT_part_state] [] [.twn, .inForce] (fun u => 224 ∈ u.hif.pend ∧
      twnState u = 2 ∧ u.get Reg.TWN_PART_STAT_part_epoch = ofLe (octetsAt octets 2 2) ∧
      u.get Reg.TWN_PART_STAT_part_state = bits (octet octets 1) 2 2 ∧ u.get Reg.TWN_STATUS_eth_ok = 1 ∧
      u.twn = { s.twn with
        eth := { last := some (max s.ltb t), miss := 0, up := true }, joinAt := max s.ltb t,
        rejoin := s.get Reg.TWN_HB_CFG2_rejoin_ms })) ∧
    (∀ (i : Fin 2) (octets : List Byte) (e : Nat), i.val = hbPort s → octet octets 0 = 1 → 12 ≤ octets.length →
      twnState s = 3 → octet octets 1 % 4 ≠ twinRole s → octet octets 1 % 4 = 1 ∨ octet octets 1 % 4 = 2 →
      e = ofLe (octetsAt octets 2 2) → s.get Reg.TWN_PART_STAT_part_epoch ≠ e →
      changes (.ethBeatReceived t i octets) s [Reg.TWN_STATUS_state, Reg.TWN_STATUS_split, Reg.TWN_STATUS_eth_ok,
      Reg.TWN_PART_STAT_part_epoch, Reg.TWN_PART_STAT_part_state] [] [.twn, .inForce] (fun u => 228 ∈ u.hif.pend ∧
      twnState u = 2 ∧ u.get Reg.TWN_STATUS_split = 0 ∧ u.get Reg.TWN_PART_STAT_part_epoch = e ∧ u.twn = { s.twn with
        eth := { last := some (max s.ltb t), miss := 0, up := true }, joinAt := max s.ltb t,
        rejoin := s.get Reg.TWN_HB_CFG2_rejoin_ms })) ∧
    (∀ (last n c : Nat), (pathOf s p).last = some last → twnState s = 3 →
      missDue s p last (pathOf s p).miss ≤ max s.ltb t → (pathOf s p).up = true → n = (pathOf s p).miss + 1 →
      atLeast1 (s.cur Reg.TWN_HB_CFG_hb_miss) ≤ n → (pathOf s (1 - p.val)).up = false →
      c = (if p = 0 then Reg.TWN_CNT_PAIR_MISS else Reg.TWN_CNT_ETH_MISS) →
      changes (.beatMiss t p) s ([Reg.TWN_STATUS_state, Reg.TWN_STATUS_split] ++
      [Reg.TWN_STATUS_pair_ok, Reg.TWN_STATUS_eth_ok]) [c, Reg.TWN_CNT_FAIL] [.twn] (fun u => 225 ∈ u.hif.pend ∧
      227 ∈ u.hif.pend ∧ twnState u = 1 ∧ u.get Reg.TWN_STATUS_split = 0 ∧ u.count c = (s.count c + 1) % 2 ^ 32 ∧
      u.count Reg.TWN_CNT_FAIL = (s.count Reg.TWN_CNT_FAIL + 1) % 2 ^ 32 ∧
      pathOf u p = { last := some last, miss := n, up := false } ∧ pathOf u (1 - p.val) = pathOf s (1 - p.val))) ∧
    (∀ (last n c : Nat), (pathOf s p).last = some last → twnState s ≠ 0 →
      missDue s p last (pathOf s p).miss ≤ max s.ltb t → n = (pathOf s p).miss + 1 → (pathOf s p).up = false ∨
      n < atLeast1 (s.cur Reg.TWN_HB_CFG_hb_miss) →
      c = (if p = 0 then Reg.TWN_CNT_PAIR_MISS else Reg.TWN_CNT_ETH_MISS) →
      changes (.beatMiss t p) s [Reg.TWN_STATUS_pair_ok, Reg.TWN_STATUS_eth_ok] [c] [.twn] (fun u =>
      u.count c = (s.count c + 1) % 2 ^ 32 ∧ pathOf u p = { pathOf s p with miss := n } ∧
      pathOf u (1 - p.val) = pathOf s (1 - p.val) ∧
      u.twn.joinAt = if (pathOf s p).up = true then max s.ltb t else s.twn.joinAt)) ∧
    (twnState s = 2 → 2 ≤ s.get Reg.TWN_PART_STAT_part_state → s.twn.joinAt + s.twn.rejoin * 1000000 ≤ max s.ltb t →
      leadsTo (.rejoinExpiry t) s (((s.now t).set Reg.TWN_STATUS_state 3).onTwn (fun x => { x with
        pairedAt := max s.ltb t, splitCyc := atLeast1 (s.get Reg.TWN_HB_CFG2_split_cycles) }))) ∧
    (∀ (l : List Cycle) (y : Cycle), twnState s = 3 → s.get Reg.BAL_STATUS_state ≠ 0 → s.bal.cycles = l ++ [y] →
      (s.twn.pairedAt : Int) + 2000000 ≤ y.s → y.s ≤ ((max s.ltb t : Nat) : Int) → y.k % s.twn.splitCyc = 0 →
      leadsTo (.splitBoundary t) s ((s.now t).set Reg.TWN_STATUS_split 1))

/-- R380, R382 and R384. The twin link comes up with the credits that the partner grants (the model's operand, log 30)
and goes down with none; credits come back; a received frame takes its buffers of pool 5 and waits for its tag: a
forwarded air frame as an uplink with its receive data, a mirrored datagram marked as one, a WIRED frame for the
host service of TWN_HOST. Other choices of the model here: the link of a disabled TWN (log 180), what a credit
stall counts (log 184), and that a received frame without a free tag waits for one (log 187). -/
def Obligations.TwinLinkCompletes : Prop :=
  ∀ (t : Nat) (s : State), s.settled →
    (∀ (n : Nat), s.get Reg.TWN_CTRL_enable ≠ 0 → s.get Reg.TWN_STATUS_link_up = 0 →
      changes (.twinLinkUp t n) s [Reg.TWN_STATUS_link_up] [] [.twn, .crn] (fun u => 230 ∈ u.hif.pend ∧
      u.crn = { s.crn with request := false } ∧ (s.crn.request = true → .imageRequest ∈ u.out) ∧
      u.get Reg.TWN_STATUS_link_up = 1 ∧ u.twn = { s.twn with credits := n })) ∧
    (s.get Reg.TWN_STATUS_link_up ≠ 0 → changes (.twinLinkDown t) s [Reg.TWN_STATUS_link_up]
      [Reg.TWN_CNT_CREDIT_STALL] [.twn] (fun u => 229 ∈ u.hif.pend ∧ u.get Reg.TWN_STATUS_link_up = 0 ∧
      u.twn = { s.twn with credits := 0, stall := none } ∧ ∀ x, s.twn.stall = some x →
      u.count Reg.TWN_CNT_CREDIT_STALL = (s.count Reg.TWN_CNT_CREDIT_STALL + (max s.ltb t - x) / 1000) % 2 ^ 32)) ∧
    (∀ (n : Nat), s.get Reg.TWN_STATUS_link_up ≠ 0 →
      changes (.creditReturn t n) s [] [Reg.TWN_CNT_CREDIT_STALL] [.twn] (fun u =>
      u.twn = { s.twn with credits := s.twn.credits + n, stall := none } ∧ ∀ x, s.twn.stall = some x →
      u.count Reg.TWN_CNT_CREDIT_STALL = (s.count Reg.TWN_CNT_CREDIT_STALL + (max s.ltb t - x) / 1000) % 2 ^ 32)) ∧
    (∀ (kind : Fin 3) (profile : Fin 32) (rssi : Int) (lqi : BitVec 8) (angle : BitVec 48) (l : List Byte),
      s.get Reg.TWN_STATUS_link_up ≠ 0 → s.get Reg.TWN_CTRL_enable ≠ 0 → buffersFor l.length ≤ poolFree s 5 →
      poolFree s 5 < 2 ^ 15 → changes (.twinFrameReceived t kind profile rssi lqi angle l) s
      [Reg.CTX_POOL_FREE_free 5] [] [.fwd] (fun u => poolFree u 5 = poolFree s 5 - buffersFor l.length ∧
      u.fwd = { s.fwd with
        waiting := s.fwd.waiting ++ [if kind = 0 then {
          ingress := .twin, octets := l, up := true, rx := {
            profile := profile, rssi := rssi, lqi := lqi.toNat, angle := angle.toNat, wired := true, lane := 7,
            tsLost := true }, pool := 5, bufs := buffersFor l.length } else if kind = 1 then {
          ingress := .twin, octets := l, mirror := true, rx := { wired := true, lane := 7, tsLost := true },
          pool := 5, bufs := buffersFor l.length } else {
          ingress := .twin, octets := l, svc := some (s.get Reg.TWN_HOST_host_svc),
          rx := { wired := true, lane := 7, tsLost := true }, pool := 5, bufs := buffersFor l.length }] }))

/-- R395 to R399. DOWNLOAD of an image whose header passes every test of R395 and R396, hashed and verified through
the CROWN window with EV198, writes the header to the staging area; the copied body goes there too, and then to
VERIFY; a body whose digest is the header's is READY, another is refused with result 10; ABORT discards what is
staged. ACTIVATE writes the record ACTIVATING, and erases and tags the settings area that is not active for a CORE
image (R403); an image programmed and read back is TRIAL, a failure leaves the record as it stands and the slot
without an image. The staging area lies in the cluster's memory; that the Crown's jobs take no time is the model's
choice (logs 324, 326). Other choices of the model here: an ABORT while busy (log 240), a refused ACTIVATE (log
242), which events carry what (log 243), a staged copy after a refusal (log 244), settings areas of equal formats
(log 250), what ends a confirmation (log 322), and the jobs of the CROWN window (log 326). -/
def Obligations.UpdateCompletes : Prop :=
  ∀ (t : Nat) (s : State), s.settled →
    (∀ (header h : List Byte), s.get Reg.CRN_STATUS_busy = 0 → s.get Reg.CRN_STATUS_state = 0 ∨
      s.get Reg.CRN_STATUS_state = 3 → h = octetsAt header 0 256 →
      headerTest s h (some (s.get Reg.CRN_SRC_LEN_src_len)) = 0 → compatible s h = true →
      changes (.download t (some header)) s ([Reg.CRN_STATUS_state, Reg.CRN_STATUS_busy, Reg.CRN_STATUS_staged_comp,
      Reg.CRN_PROG_done] ++ [Reg.JWL_CMD_result 3] ++ (List.range 8).map (Reg.JWL_DIGEST_word 3) ++
      (List.range 16).map (Reg.JWL_SIG_word 3)) [] [.crn, .cluster] (fun u => u.get Reg.CRN_STATUS_state = 1 ∧
      u.get Reg.CRN_STATUS_busy = 1 ∧ u.get Reg.CRN_STATUS_staged_comp = hdrComp h ∧ u.get Reg.CRN_PROG_done = 256 ∧
      u.get (Reg.JWL_CMD_result 3) = 0 ∧ wordsOf u (Reg.JWL_DIGEST_word 3) 8 = sha256 (octetsAt h 0 192) ∧
      198 ∈ u.hif.pend ∧ (s.hostRings → u.hif.mem = cellsWrite s.hif.mem (stageAt s) h) ∧
      u.crn = { s.crn with staged := h })) ∧
    (∀ (body : List Byte) (n : Nat), s.get Reg.CRN_STATUS_state = 1 → n = hdrBodyLen s.crn.staged → n < 2 ^ 31 →
      changes (.bodyCopied t (some body)) s [Reg.CRN_STATUS_state, Reg.CRN_STATUS_busy, Reg.CRN_PROG_done] []
      [.cluster] (fun u => u.get Reg.CRN_STATUS_state = 2 ∧ u.get Reg.CRN_STATUS_busy = 1 ∧
      u.get Reg.CRN_PROG_done = 256 + n ∧ u.hif.mem = cellsWrite s.hif.mem (stageAt s + 256) (octetsAt body 0 n))) ∧
    (s.get Reg.CRN_STATUS_state = 2 → sha256 (stagedBody s (hdrBodyLen s.crn.staged)) = hdrDigest s.crn.staged →
      changes (.verifyDone t) s ([Reg.CRN_STATUS_state, Reg.CRN_STATUS_busy,
      Reg.CRN_STATUS_result] ++ [Reg.JWL_CMD_result 3] ++ (List.range 8).map (Reg.JWL_DIGEST_word 3)) [] [] (fun u =>
      233 ∈ u.hif.pend ∧ 198 ∈ u.hif.pend ∧ u.get Reg.CRN_STATUS_state = 3 ∧ u.get Reg.CRN_STATUS_busy = 0 ∧
      u.get Reg.CRN_STATUS_result = 0 ∧ wordsOf u (Reg.JWL_DIGEST_word 3) 8 = sha256
      (stagedBody s (hdrBodyLen s.crn.staged)))) ∧
    (s.get Reg.CRN_STATUS_state = 2 → sha256 (stagedBody s (hdrBodyLen s.crn.staged)) ≠ hdrDigest s.crn.staged →
      changes (.verifyDone t) s ([Reg.CRN_STATUS_state, Reg.CRN_STATUS_busy, Reg.CRN_STATUS_result,
      Reg.CRN_STATUS_staged_comp] ++ [Reg.JWL_CMD_result 3] ++ (List.range 8).map (Reg.JWL_DIGEST_word 3))
      [Reg.CRN_CNT_REFUSED] [.crn] (fun u => 232 ∈ u.hif.pend ∧ u.get Reg.CRN_STATUS_state = 0 ∧
      u.get Reg.CRN_STATUS_busy = 0 ∧ u.get Reg.CRN_STATUS_result = 10 ∧ u.get Reg.CRN_STATUS_staged_comp = 0 ∧
      u.count Reg.CRN_CNT_REFUSED = (s.count Reg.CRN_CNT_REFUSED + 1) % 2 ^ 32 ∧
      u.crn = { s.crn with staged := [] })) ∧
    (s.get Reg.CRN_STATUS_state = 1 ∨ s.get Reg.CRN_STATUS_state = 2 ∨ s.get Reg.CRN_STATUS_state = 3 →
      changes (.abort t) s [Reg.CRN_STATUS_state, Reg.CRN_STATUS_busy, Reg.CRN_STATUS_result,
      Reg.CRN_STATUS_staged_comp] [] [.crn] (fun u => u.get Reg.CRN_STATUS_state = 0 ∧ u.get Reg.CRN_STATUS_busy = 0 ∧
      u.get Reg.CRN_STATUS_result = 0 ∧ u.get Reg.CRN_STATUS_staged_comp = 0 ∧ u.crn = { s.crn with staged := [] })) ∧
    (∀ (h : List Byte) (c : Nat), s.get Reg.CRN_STATUS_busy = 0 → s.get Reg.CRN_STATUS_state = 3 → h = s.crn.staged →
      c = hdrComp h → (bootRecord s).slots.any (fun e => e.2.state == 2) = false → compatible s h = true →
      s.get Reg.TWN_CTRL_enable = 0 ∨ s.get Reg.TWN_CTRL_role = 0 ∨ s.get Reg.TWN_STATUS_state = 3 ∨
      s.get Reg.CRN_CTRL_force_unpaired ≠ 0 → changes (.activate t) s
      ([Reg.CRN_STATUS_state, Reg.CRN_STATUS_busy, Reg.CRN_PROG_done] ++ ((List.range 3).flatMap (fun i =>
      [Reg.CRN_REC_rstate i, Reg.CRN_REC_trial_count i, Reg.CRN_REC_rollback i,
      Reg.CRN_VER_version i]) ++ [Reg.CRN_SET_FMT_fmt0, Reg.CRN_SET_FMT_fmt1, Reg.CRN_SET_CTL_active,
      Reg.CRN_SET_CTL_dual])) [] [.crn] (fun u => u.get Reg.CRN_STATUS_state = 4 ∧ u.get Reg.CRN_STATUS_busy = 1 ∧
      u.get Reg.CRN_PROG_done = 0 ∧ crnSlot u c = { crnSlot s c with
        state := 1, trialMax := atLeast1 (s.get Reg.CRN_CTRL_trial_max) } ∧ (∀ j, j ≠ c → crnSlot u j = crnSlot s j) ∧
      u.crn.images = s.crn.images ∧ u.crn.loaded = s.crn.loaded ∧ u.crn.staged = s.crn.staged ∧
      u.crn.writing.head? = some (s.crn.copy0, s.crn.copy1) ∧ u.crn.confirms = false ∧
      (bootRecord u).active = (bootRecord s).active ∧ (∀ k, k ∈ s.crn.erased → k ∈ u.crn.erased) ∧ (c = 3 →
      (crnSlot s c).prev ≠ some (hdrVersion h) → 1 - (bootRecord s).active ∈ u.crn.erased ∧
      (bootRecord u).dual = true ∧ if (bootRecord s).active = 0 then (bootRecord u).fmt1 = hdrFormat h ∧
      (bootRecord u).fmt0 = (bootRecord s).fmt0 else (bootRecord u).fmt0 = hdrFormat h ∧
      (bootRecord u).fmt1 = (bootRecord s).fmt1))) ∧
    (∀ (h : List Byte) (c n : Nat), s.get Reg.CRN_STATUS_state = 4 → h = s.crn.staged → c = hdrComp h →
      n = hdrBodyLen h → n < 2 ^ 31 → sha256 (stagedBody s n) = hdrDigest h →
      changes (.activationDone t true) s ([Reg.CRN_STATUS_state, Reg.CRN_STATUS_busy, Reg.CRN_STATUS_result,
      Reg.CRN_STATUS_staged_comp, Reg.CRN_PROG_done] ++ [Reg.JWL_CMD_result 3] ++ (List.range 8).map
      (Reg.JWL_DIGEST_word 3) ++ ((List.range 3).flatMap (fun i => [Reg.CRN_REC_rstate i, Reg.CRN_REC_trial_count i,
      Reg.CRN_REC_rollback i, Reg.CRN_VER_version i]) ++ [Reg.CRN_SET_FMT_fmt0, Reg.CRN_SET_FMT_fmt1,
      Reg.CRN_SET_CTL_active, Reg.CRN_SET_CTL_dual])) [] [.crn] (fun u => 234 ∈ u.hif.pend ∧
      u.get Reg.CRN_STATUS_state = 0 ∧ u.get Reg.CRN_STATUS_busy = 0 ∧ u.get Reg.CRN_STATUS_result = 0 ∧
      u.get Reg.CRN_PROG_done = 256 + n ∧ u.crn.staged = [] ∧ u.crn.writing = [] ∧ u.crn.loaded = s.crn.loaded ∧
      u.crn.images = tabPut s.crn.images c { header := h, body := stagedBody s n } ∧
      (∀ j, j ≠ c → crnSlot u j = crnSlot s j) ∧ (c = 3 → (crnSlot s c).prev = some (hdrVersion h) →
      (bootRecord u).dual = false) ∧ crnSlot u c = { crnSlot s c with
        state := if (crnSlot s c).prev = some (hdrVersion h) then 3 else 2, version := hdrVersion h,
        rollback := hdrRollback h, digest := hdrDigest h, trials := 0 })) ∧
    (∀ (c : Nat) (ok : Bool), s.get Reg.CRN_STATUS_state = 4 → c = hdrComp s.crn.staged → ok = false ∨
      sha256 (stagedBody s (hdrBodyLen s.crn.staged)) ≠ hdrDigest s.crn.staged →
      changes (.activationDone t ok) s ([Reg.CRN_STATUS_state, Reg.CRN_STATUS_busy, Reg.CRN_STATUS_result,
      Reg.CRN_STATUS_staged_comp] ++ [Reg.JWL_CMD_result 3] ++ (List.range 8).map (Reg.JWL_DIGEST_word 3)) [] [.crn]
      (fun u => 239 ∈ u.hif.pend ∧ u.get Reg.CRN_STATUS_state = 0 ∧ u.get Reg.CRN_STATUS_busy = 0 ∧
      u.get Reg.CRN_STATUS_result = 15 ∧ u.crn = { s.crn with
        writing := [], confirms := false, images := tabPut s.crn.images c {}, staged := [] }))

/-- R394, R400, R401, R402, R403 and R405. CONFIRM makes a TRIAL image CONFIRMED; when its flash work ends the fuse
counter is raised to the lowest value among the confirmed slots and the settings area of the superseded format
released; BURN_SIGNER1 programs hash 1, once and in PROVISIONED; a boot whose three slots can be loaded counts
their trial boots, loads their images and starts CORE0; STRAP_BOOT 1 comes up in recovery, and one after an
activation was cut off reads the record or the one before it, the slot that reads ACTIVATING without an image.
That CONFIRM's end is told by ACTIVATION_DONE, and how far a reset lets a write come, are the model's choice (logs
322, 323). Other choices of the model here: what BURN_SIGNER1 answers and when it is taken (logs 31, 241), how far
a write of a record or a confirmation has come when a reset cuts it (logs 245, 246), when a boot counts a trial
and measures (logs 248, 249), settings areas of equal formats (log 250), and the fuse raised again at a boot (log
251). -/
def Obligations.CrownCompletes : Prop :=
  ∀ (t : Nat) (s : State), s.settled →
    (∀ (comp : Fin 4) (c : Nat), s.get Reg.CRN_STATUS_busy = 0 → s.get Reg.CRN_STATUS_state = 0 → comp.val = c →
      c ≠ 0 → (crnSlot s c).state = 2 → changes (.confirm t comp) s
      ([Reg.CRN_CMD_comp, Reg.CRN_STATUS_state, Reg.CRN_STATUS_busy] ++ ((List.range 3).flatMap (fun i =>
      [Reg.CRN_REC_rstate i, Reg.CRN_REC_trial_count i, Reg.CRN_REC_rollback i,
      Reg.CRN_VER_version i]) ++ [Reg.CRN_SET_FMT_fmt0, Reg.CRN_SET_FMT_fmt1, Reg.CRN_SET_CTL_active,
      Reg.CRN_SET_CTL_dual])) [] [.crn] (fun u => u.get Reg.CRN_CMD_comp = c ∧ u.get Reg.CRN_STATUS_state = 5 ∧
      u.get Reg.CRN_STATUS_busy = 1 ∧ (∀ j, j ≠ c → crnSlot u j = crnSlot s j) ∧ crnSlot u c = { crnSlot s c with
        state := 3, prev := some (crnSlot s c).version, trials := 0 } ∧ u.crn.confirms = true ∧
      u.crn.writing = [(s.crn.copy0, s.crn.copy1)] ∧ u.crn.images = s.crn.images ∧ u.crn.staged = s.crn.staged ∧
      (bootRecord u).dual = (bootRecord s).dual)) ∧
    (∀ (ok : Bool), s.get Reg.CRN_STATUS_state = 5 → changes (.activationDone t ok) s ([Reg.CRN_STATUS_state,
      Reg.CRN_STATUS_busy, Reg.CRN_STATUS_result] ++ ((List.range 3).flatMap (fun i => [Reg.CRN_REC_rstate i,
      Reg.CRN_REC_trial_count i, Reg.CRN_REC_rollback i, Reg.CRN_VER_version i]) ++ [Reg.CRN_SET_FMT_fmt0,
      Reg.CRN_SET_FMT_fmt1, Reg.CRN_SET_CTL_active, Reg.CRN_SET_CTL_dual])) [] [.crn, .fuses] (fun u =>
      235 ∈ u.hif.pend ∧ u.get Reg.CRN_STATUS_state = 0 ∧ u.get Reg.CRN_STATUS_busy = 0 ∧
      u.get Reg.CRN_STATUS_result = 0 ∧ u.fuses = (raiseFuse s).fuses ∧ (bootRecord u).slots = (bootRecord s).slots ∧
      u.crn.images = s.crn.images ∧ u.crn.writing = [] ∧ ((crnSlot s 3).state = 3 → (bootRecord u).dual = false))) ∧
    (s.get Reg.CRN_STATUS_busy = 0 → s.fuses.signer1 = none → s.fuses.lcState = 1 →
      changes (.burnSigner1 t) s [Reg.CRN_STATUS_result] [] [.fuses] (fun u => u.get Reg.CRN_STATUS_result = 0 ∧
      u.fuses = { s.fuses with
        signer1 := some (wordsOf s Reg.CRN_KEYHASH_word 8) })) ∧
    (s.get Reg.CRN_STATUS_handed_over = 0 → s.get Reg.CRN_STATUS_recovery = 0 → s.crn.cutBoots = 0 →
      s.crn.writing = [] → s.straps.boot ≠ 1 → slotReason (raiseFuse s) (crnSlot s 1) 1 = 0 →
      slotReason (raiseFuse s) (crnSlot s 2) 2 = 0 → slotReason (raiseFuse s) (crnSlot s 3) 3 = 0 →
      ((crnSlot s 1).state = 2 → (crnSlot s 1).trials < (crnSlot s 1).trialMax) → ((crnSlot s 2).state = 2 →
      (crnSlot s 2).trials < (crnSlot s 2).trialMax) → ((crnSlot s 3).state = 2 →
      (crnSlot s 3).trials < (crnSlot s 3).trialMax) →
      changes (.crownBoot t) s ([Reg.CRN_STATUS_handed_over] ++ ((List.range 3).flatMap (fun i =>
      [Reg.CRN_REC_rstate i, Reg.CRN_REC_trial_count i, Reg.CRN_REC_rollback i,
      Reg.CRN_VER_version i]) ++ [Reg.CRN_SET_FMT_fmt0, Reg.CRN_SET_FMT_fmt1, Reg.CRN_SET_CTL_active,
      Reg.CRN_SET_CTL_dual]) ++ [Reg.JWL_CMD_result 3] ++ (List.range 8).map (Reg.JWL_DIGEST_word 3) ++
      (List.range 16).map (Reg.JWL_SIG_word 3) ++ (List.range 8).map (Reg.JWL_MEAS_word 0)) [] [.crn, .fuses] (fun u
      => u.get Reg.CRN_STATUS_handed_over = 1 ∧ .coreStart 0 ∈ u.out ∧ u.fuses = (raiseFuse s).fuses ∧
      198 ∈ u.hif.pend ∧ u.crn.images = s.crn.images ∧ u.crn.writing = [] ∧
      ((crnSlot s 3).state = 3 → (bootRecord u).dual = false) ∧ ∀ c, 1 ≤ c → c ≤ 3 →
      tabGet u.crn.loaded c = some (crnImage s c) ∧
      crnSlot u c = if (crnSlot s c).state = 2 then { crnSlot s c with trials := (crnSlot s c).trials + 1 } else
      crnSlot s c)) ∧
    (s.get Reg.CRN_STATUS_handed_over = 0 → s.get Reg.CRN_STATUS_recovery = 0 → s.crn.cutBoots = 0 →
      s.crn.writing = [] → s.straps.boot = 1 → s.straps.host = false →
      changes (.crownBoot t) s ([Reg.CRN_STATUS_recovery, Reg.CRN_STATUS_rec_reason] ++ ((List.range 3).flatMap (fun i
      => [Reg.CRN_REC_rstate i, Reg.CRN_REC_trial_count i, Reg.CRN_REC_rollback i,
      Reg.CRN_VER_version i]) ++ [Reg.CRN_SET_FMT_fmt0, Reg.CRN_SET_FMT_fmt1, Reg.CRN_SET_CTL_active,
      Reg.CRN_SET_CTL_dual]) ++ [Reg.JWL_CMD_result 3] ++ (List.range 8).map (Reg.JWL_DIGEST_word 3) ++
      (List.range 16).map (Reg.JWL_SIG_word 3) ++ (List.range 8).map (Reg.JWL_MEAS_word 0)) [Reg.CRN_CNT_RECOVERY]
      [.crn, .fuses] (fun u => 238 ∈ u.hif.pend ∧ u.get Reg.CRN_STATUS_recovery = 1 ∧
      u.get Reg.CRN_STATUS_rec_reason = 4 ∧ u.fuses = (raiseFuse s).fuses ∧ u.crn.images = s.crn.images ∧
      u.crn.loaded = s.crn.loaded ∧ (bootRecord u).slots = (bootRecord s).slots ∧
      ((crnSlot s 3).state = 3 → (bootRecord u).dual = false) ∧
      u.count Reg.CRN_CNT_RECOVERY = (s.count Reg.CRN_CNT_RECOVERY + 1) % 2 ^ 32)) ∧
    (∀ (x y : BootRecord) (p : State), s.get Reg.CRN_STATUS_handed_over = 0 → s.get Reg.CRN_STATUS_recovery = 0 →
      s.crn.cutBoots = 0 → s.crn.writing = [(x, y)] → s.crn.confirms = false →
      p = { s with crn := { s.crn with copy0 := x, copy1 := y } } → s.straps.boot = 1 → s.straps.host = false →
      changes (.crownBoot t) s ([Reg.CRN_STATUS_recovery, Reg.CRN_STATUS_rec_reason] ++ ((List.range 3).flatMap (fun i
      => [Reg.CRN_REC_rstate i, Reg.CRN_REC_trial_count i, Reg.CRN_REC_rollback i,
      Reg.CRN_VER_version i]) ++ [Reg.CRN_SET_FMT_fmt0, Reg.CRN_SET_FMT_fmt1, Reg.CRN_SET_CTL_active,
      Reg.CRN_SET_CTL_dual]) ++ [Reg.JWL_CMD_result 3] ++ (List.range 8).map (Reg.JWL_DIGEST_word 3) ++
      (List.range 16).map (Reg.JWL_SIG_word 3) ++ (List.range 8).map (Reg.JWL_MEAS_word 0)) [Reg.CRN_CNT_RECOVERY]
      [.crn, .fuses] (fun u => 238 ∈ u.hif.pend ∧ u.get Reg.CRN_STATUS_recovery = 1 ∧
      u.get Reg.CRN_STATUS_rec_reason = 4 ∧ u.crn.writing = [] ∧ ((bootRecord u).slots = (bootRecord s).slots ∨
      (bootRecord u).slots = (bootRecord p).slots) ∧ ∀ c, 1 ≤ c → c ≤ 3 →
      crnImage u c = if (crnSlot u c).state = 1 then {} else crnImage s c))

/-- R408, R409, R413, R416 and R417. A counter whose source is a statistics counter, or a native source, is enabled;
one on a TCI ball claims it; a source that does not exist is refused; en 0 stops the counter. A written count
stands. Records and samples are popped oldest first. A core's sample comes when its instructions have retired, its
PC read as 0 for secure code unless sample_secure is set; one that finds the FIFO full is lost, unless a pop of
the same fabric cycle makes room (log 320). How many instructions retired is an operand of the command, the
model's choice (log 79). Other choices of the model here: when an instruction sample is due (log 270), how counts
reach CHR (logs 271, 273, 319), a wrap before a write (log 274), and a pop and a record of one cycle (log 320). -/
def Obligations.ChronographCompletes : Prop :=
  ∀ (t : Nat) (k : Fin 64) (c : Fin 4) (pc : BitVec 64) (latency : BitVec 16) (flags : BitVec 4) (secure : Bool)
    (retired active rises : Nat) (s : State), s.settled →
    (∀ (n : Nat), s.get (Reg.CHR_CNT_CFG_en k) = 0 → s.get (Reg.CHR_CNT_CFG_kind k) = 0 →
      n = s.get (Reg.CHR_CNT_SRC_src k) / 4 * 4 → isCounterNow s n = true →
      changes (.chrCounterEnable t k true) s [Reg.CHR_CNT_CFG_en k] [] [.samples] (fun u =>
      u.get (Reg.CHR_CNT_CFG_en k) = 1 ∧ u.chr.enabled = s.chr.enabled ++ [(k.val, 0, n)])) ∧
    (∀ (n : Nat), s.get (Reg.CHR_CNT_CFG_en k) = 0 → s.get (Reg.CHR_CNT_CFG_kind k) = 1 →
      n = s.get (Reg.CHR_CNT_SRC_src k) → n ≤ 0x0B ∨ 0x10 ≤ n ∧ n ≤ 0x17 →
      changes (.chrCounterEnable t k true) s [Reg.CHR_CNT_CFG_en k] [] [.samples] (fun u =>
      u.get (Reg.CHR_CNT_CFG_en k) = 1 ∧ u.chr.enabled = s.chr.enabled ++ [(k.val, 1, n)])) ∧
    (∀ (n : Nat), s.get (Reg.CHR_CNT_CFG_en k) = 0 → s.get (Reg.CHR_CNT_CFG_kind k) = 1 →
      s.get (Reg.CHR_CNT_SRC_src k) = 0x0C + n → n < 4 → claimFree s (0x11 + n) (9 + n) = true →
      changes (.chrCounterEnable t k true) s [Reg.CHR_CNT_CFG_en k] [] [.samples, .claims] (fun u =>
      u.get (Reg.CHR_CNT_CFG_en k) = 1 ∧ u.chr.enabled = s.chr.enabled ++ [(k.val, 1, 0x0C + n)] ∧
      tabGet u.claims (9 + n) = some ⟨false, 0x11 + n⟩)) ∧
    (∀ (n : Nat), s.get (Reg.CHR_CNT_CFG_en k) = 0 → n = s.get (Reg.CHR_CNT_SRC_src k) →
      (s.get (Reg.CHR_CNT_CFG_kind k) = 0 ∧ isCounterNow s (n / 4 * 4) = false) ∨
      (s.get (Reg.CHR_CNT_CFG_kind k) ≠ 0 ∧ 0x17 < n) →
      changes (.chrCounterEnable t k true) s [] [] [] (fun u => u.get (Reg.CHR_CNT_CFG_en k) = 0)) ∧
    (s.get (Reg.CHR_CNT_CFG_en k) ≠ 0 → changes (.chrCounterEnable t k false) s [Reg.CHR_CNT_CFG_en k] []
      [.samples, .claims] (fun u => u.get (Reg.CHR_CNT_CFG_en k) = 0 ∧
      u.chr.enabled = s.chr.enabled.filter (fun e => e.1 != k.val))) ∧
    (∀ (val : Word), changes (.chrCounterWrite t k val) s [] [] [] (fun u => tabGet u.chr.count k = some val.toNat)) ∧
    (∀ (r : List Nat) (l : List (List Nat)), s.chr.recs = r :: l → l.length < 32 → s.ltb < t →
      changes (.trecPop t) s [Reg.CHR_TAG_STAT_level] [] [.stages] (fun u => u.chr.recs = l ∧
      u.chr.tagged = s.chr.tagged ∧ u.get Reg.CHR_TAG_STAT_level = l.length ∧ u.chr.spill = [] ∧
      u.count Reg.CHR_CNT_TREC_LOST = (s.count Reg.CHR_CNT_TREC_LOST + s.chr.lost + s.chr.spill.length) % 2 ^ 32)) ∧
    (∀ (r x : List Nat) (l m : List (List Nat)), s.chr.recs = r :: l → l.length < 32 → t ≤ s.ltb →
      s.chr.fresh ≤ l.length → s.chr.spill = x :: m →
      changes (.trecPop t) s [Reg.CHR_TAG_STAT_level] [] [.stages] (fun u => u.chr.recs = l ++ [x] ∧ u.chr.spill = m ∧
      u.chr.tagged = s.chr.tagged ∧ u.get Reg.CHR_TAG_STAT_level = l.length + 1)) ∧
    (s.chr.recs = [] → leadsTo (.trecPop t) s (s.now t)) ∧
    (s.get (Reg.CHR_IS_CFG_en c) ≠ 0 → endDown s (c.val + 1) = false → tabGetD s.chr.isLeft c 1 ≤ retired →
      (isSamples s c).length < 8 → changes (.instructionSample t c pc latency flags secure retired active rises) s
      [Reg.CHR_IS_STAT_level c] [] [.samples] (fun u => isSamples u c = isSamples s c ++ [{
        pc := pc.toNat, latency := latency.toNat, flags := flags.toNat, secure := secure }] ∧
      u.get (Reg.CHR_IS_STAT_level c) = (isSamples s c).length + 1 ∧
      (∀ j, j ≠ c.val → isSamples u j = isSamples s j) ∧ u.chr.enabled = s.chr.enabled ∧ (isSamples s c = [] →
      secure = true → s.get Reg.CHR_CTRL_sample_secure = 0 → (sampleShow u c).get (Reg.CHR_IS_PC_LO_pc c) = 0 ∧
      (sampleShow u c).get (Reg.CHR_IS_PC_HI_pc c) = 0) ∧
      max 16 (s.get (Reg.CHR_IS_CFG_ipd c)) ≤ tabGetD u.chr.isLeft c 0 ∧
      ((isSamples s c).length + 1 = atLeast1 (s.get (Reg.CHR_IS_CFG_wmark c)) → 243 ∈ u.hif.pend))) ∧
    (s.get (Reg.CHR_IS_CFG_en c) ≠ 0 → endDown s (c.val + 1) = false → tabGetD s.chr.isLeft c 1 ≤ retired →
      8 ≤ (isSamples s c).length → changes (.instructionSample t c pc latency flags secure retired active rises) s []
      [] [] (fun u => tabGetD u.chr.isSpill c [] = (if s.ltb < t then [] else tabGetD s.chr.isSpill c []) ++ [{
        pc := pc.toNat, latency := latency.toNat, flags := flags.toNat, secure := secure }])) ∧
    (s.get (Reg.CHR_IS_CFG_en c) ≠ 0 → endDown s (c.val + 1) = false → retired < tabGetD s.chr.isLeft c 1 →
      changes (.instructionSample t c pc latency flags secure retired active rises) s [] [] [] (fun u =>
      tabGet u.chr.isLeft c = some (tabGetD s.chr.isLeft c 1 - retired))) ∧
    (∀ (x : InsSample) (l : List InsSample), isSamples s c = x :: l → l.length < 8 → s.ltb < t →
      changes (.samplePop t c) s [Reg.CHR_IS_STAT_level c] [] [.samples] (fun u => isSamples u c = l ∧
      u.get (Reg.CHR_IS_STAT_level c) = l.length ∧ (∀ j, j ≠ c.val → isSamples u j = isSamples s j) ∧
      u.chr.enabled = s.chr.enabled ∧ u.count Reg.CHR_CNT_IS_LOST = (s.count Reg.CHR_CNT_IS_LOST + s.chr.isLost +
      (s.chr.isSpill.map (fun e => e.2.length)).sum) % 2 ^ 32)) ∧
    (∀ (x y : InsSample) (l m : List InsSample), isSamples s c = x :: l → l.length < 8 → t ≤ s.ltb →
      tabGetD s.chr.isFresh c 0 ≤ l.length → tabGetD s.chr.isSpill c [] = y :: m →
      changes (.samplePop t c) s [Reg.CHR_IS_STAT_level c] [] [.samples] (fun u => isSamples u c = l ++ [y] ∧
      u.get (Reg.CHR_IS_STAT_level c) = l.length + 1 ∧ tabGetD u.chr.isSpill c [] = m ∧
      (∀ j, j ≠ c.val → isSamples u j = isSamples s j) ∧ u.chr.enabled = s.chr.enabled))

/-- R42, R300, R303, R424, R425, R427 and R428. Each cause of a chip reset (VMON_RESET, RAIL_FAIL, D2D_LOSS, the keyed
CHIP_RESET_COMMAND, THERMAL_TRIP above trip_c, an expired watchdog with action 1) sets its own cause bit, keeps
the other bits and the registers of the always-on latch, and returns every other register that no strap sets to
its reset value and every counter, queue, table and engine to its state at reset, keys and claims gone; only the
straps, the fuses and the boot record stay. PORN_LOW resets the latch too; PORN_RISE samples the straps and leaves
por alone as cause; CHIP_RESET_RELEASE starts the LTB at 0 and CORE0's watchdog, no earlier than R423 and R424 let
it (log 68); another cause of the reset's own fabric cycle sets its bit too. Other choices of the model here: the
straps and the fuses that a part has (logs 3, 4), refclk_unlocked and d2d_ok after the release (log 32), a life-
cycle change that the reset cuts, whose outcome is a free draw (logs 2, 35), and PORN_RISE without a PORN_LOW (log
233). -/
def Obligations.ChipResetCompletes : Prop :=
  ∀ (t : Nat) (s : State),
    (∀ (n : Fin 4) (rf dig : Int) (c : Instr) (k : Nat), s.pwr.held = false → s.pwr.porLow = false →
      (∀ f ∈ keptFields, s.get f < 2 ^ f.w) → (c, k) ∈ [(Instr.vmonReset t, 1), (.railFail t, 2), (.d2dLoss t, 6),
      (.chipResetCommand t 0xA55A, 4)] ++ (if ((10 * min 135 (s.get Reg.PWR_TEMP_CFG_trip_c) : Nat) : Int) < max rf
      dig then [(.thermalTrip t rf dig, 3)] else []) ++ (if s.get (Reg.PWR_WDT_CFG_action n) ≠ 0 ∧
      (tabGet s.pwr.wdtStart n).any (fun x => decide (x + tabGetD s.pwr.wdtMs n 5000 * 1000000 ≤ max s.ltb t)) = true
      then [(.watchdogExpiry t n, 5)] else []) → completes c s (fun u =>
      u.get Reg.PWR_RST_CAUSE_cause = s.get Reg.PWR_RST_CAUSE_cause ||| 2 ^ k ∧
      (∀ f ∈ keptFields.drop 1, u.get f = s.get f) ∧ (∀ f : Fld, f.key ∉ (keptFields ++ [Reg.PWR_STRAP_straps,
      Reg.PWR_STATUS_strap_fault, Reg.BAL_GRID_CFG_nominal, Reg.TWN_CTRL_role, Reg.RFX_TUNE_lo_khz 0,
      Reg.RFX_TUNE_bw 0, Reg.RFX_STATUS_region_block 0, Reg.TXC_STATUS_region_block 0, Reg.TXC_STATUS_region_block 1,
      Reg.HIF_STATUS_standalone, Reg.JWL_STATUS_lc_state] ++ (List.range 256).map Reg.HIF_RING_CTRL_owner ++
      (List.range 64).map Reg.HIF_VEC_CFG_dest).map Fld.key → u.get f = f.rst) ∧
      (s.jwl.lcTarget = none → u.fuses = s.fuses) ∧ u.get Reg.JWL_STATUS_lc_state = u.fuses.lcState % 8 ∧
      u = { ({} : State) with
        pending := s.pending, ltb := max s.ltb t, freeCtr := u.freeCtr, out := u.out, fields := u.fields,
        straps := s.straps, fuses := u.fuses, crn := crnKept s, pwr := {
          held := true, vmonGood := if k = 1 then none else s.pwr.vmonGood,
          vmonWait := if k = 1 then 2 else s.pwr.vmonWait, temps := if k = 3 then (rf, dig) else s.pwr.temps,
          thermal := s.pwr.thermal || k == 3, resetAt := max s.ltb t, wdtDue := wdtDueNow (s.now t) } })) ∧
    (completes (.pornLow t) s (fun u => (∀ f : Fld, f.key ≠ Reg.JWL_STATUS_lc_state.key → u.get f = f.rst) ∧
      (s.jwl.lcTarget = none → u.fuses = s.fuses) ∧ u.get Reg.JWL_STATUS_lc_state = u.fuses.lcState % 8 ∧
      u = { ({} : State) with
        pending := s.pending, ltb := max s.ltb t, freeCtr := u.freeCtr, out := u.out, fields := u.fields,
        straps := {}, fuses := u.fuses, crn := crnKept s, pwr := {
          held := true, porLow := true, vmonGood := s.pwr.vmonGood, temps := s.pwr.temps } })) ∧
    (∀ (boot region twin : BitVec 2) (host gridf refclk : Bool), (∀ f ∈ keptFields, s.get f < 2 ^ f.w) →
      completes (.pornRise t boot region twin host gridf refclk) s (fun u => u.get Reg.PWR_RST_CAUSE_cause = 1 ∧
      (∀ f ∈ keptFields.drop 1, u.get f = if s.pwr.porLow = true then s.get f else f.rst) ∧
      u.get Reg.PWR_STRAP_straps = strapWord ⟨boot, region, twin, host, gridf, refclk⟩ ∧
      u.get Reg.PWR_STATUS_strap_fault = (if region = 3 then 1 else 0) ∧
      u.get Reg.BAL_GRID_CFG_nominal = gridf.toNat ∧ u.get Reg.TWN_CTRL_role = (if twin = 3 then 0 else twin.toNat) ∧
      u.get Reg.HIF_STATUS_standalone = host.toNat ∧ (∀ r, r < 256 → u.get (Reg.HIF_RING_CTRL_owner r) = host.toNat) ∧
      (∀ v, v < 64 → u.get (Reg.HIF_VEC_CFG_dest v) = host.toNat) ∧ (∀ f : Fld,
      f.key ∉ (keptFields ++ [Reg.PWR_STRAP_straps, Reg.PWR_STATUS_strap_fault, Reg.BAL_GRID_CFG_nominal,
      Reg.TWN_CTRL_role, Reg.RFX_TUNE_lo_khz 0, Reg.RFX_TUNE_bw 0, Reg.RFX_STATUS_region_block 0,
      Reg.TXC_STATUS_region_block 0, Reg.TXC_STATUS_region_block 1, Reg.HIF_STATUS_standalone,
      Reg.JWL_STATUS_lc_state] ++ (List.range 256).map Reg.HIF_RING_CTRL_owner ++ (List.range 64).map
      Reg.HIF_VEC_CFG_dest).map Fld.key → u.get f = f.rst) ∧ (s.jwl.lcTarget = none → u.fuses = s.fuses) ∧
      u.get Reg.JWL_STATUS_lc_state = u.fuses.lcState % 8 ∧ u = { ({} : State) with
        pending := s.pending, ltb := max s.ltb t, freeCtr := u.freeCtr, out := u.out, fields := u.fields,
        straps := ⟨boot, region, twin, host, gridf, refclk⟩, fuses := u.fuses, crn := crnKept s, pwr := {
          held := true, vmonGood := s.pwr.vmonGood, vmonWait := 1, temps := s.pwr.temps,
          thermal := s.pwr.porLow && s.pwr.thermal, resetAt := max s.ltb t,
          wdtDue := if s.pwr.porLow then s.pwr.wdtDue else [] } })) ∧
    (s.pwr.held = true → s.pwr.porLow = false → s.txDone = [] → s.pwr.inbox = [] → holdOver (s.now t) = true →
      changes (.chipResetRelease t) s [Reg.PWR_STATUS_d2d_ok, Reg.BAL_STATUS_refclk_unlocked] [] [.power] (fun u =>
      u.ltb = 0 ∧ u.pwr = { s.pwr with
        held := false, wdtStart := [(0, 0)], vmonGood := s.pwr.vmonGood.map (fun _ => 0), vmonWait := 0,
        thermal := false, resetAt := 0, wdtDue := [] } ∧ u.get Reg.PWR_STATUS_d2d_ok = 1 ∧
      u.get Reg.BAL_STATUS_refclk_unlocked = 0 ∧ (s.get Reg.PWR_STATUS_strap_fault ≠ 0 → 3 ∈ u.hif.pend))) ∧
    (s.pwr.held = true → s.txDone = [] → s.pwr.inbox = [] → s.pwr.porLow = true ∨ holdOver (s.now t) = false →
      leadsTo (.chipResetRelease t) s (s.now t)) ∧
    (s.pwr.held = true → s.txDone = [] → s.pwr.inbox = [] → s.pwr.porLow = false → s.pwr.resetAt = max s.ltb t →
      leadsTo (.chipResetCommand t 0xA55A) s ((s.now t).set Reg.PWR_RST_CAUSE_cause
      (s.get Reg.PWR_RST_CAUSE_cause ||| 2 ^ 4)) ∧ ∀ n : Fin 4, n.val ∈ s.pwr.wdtDue →
      leadsTo (.watchdogExpiry t n) s ((s.now t).set Reg.PWR_RST_CAUSE_cause
      (s.get Reg.PWR_RST_CAUSE_cause ||| 2 ^ 5)))

/-- R423, R424, R426, R430 to R432, R435 and R437, and R321, R343 and R348 of the host link. Warnings are shown and
raised; a core's domain is reset for 10 µs by the keyed command or its watchdog, which counts an epoch of its
endpoint, and released again; a watchdog is configured, kicked and restarted as R426 says; cores are powered; a
power state is requested, its transition ends with EV005, and a wake source ends STANDBY; the permanent list is
cleared; a PCIe link comes up, and PERST# resets HIF. The model's choices here: what PERST resets (log 216), the
order of rings and EV023 at a link-down (log 217), PCIe commands in standalone mode (log 218), RUN to QUIET at
once (log 231), and the cores in STANDBY (log 232). -/
def Obligations.PowerCompletes : Prop :=
  ∀ (t : Nat) (c : Fin 4) (s : State), s.settled →
    (s.get Reg.PWR_STATUS_warn = 0 → changes (.vmonWarn t) s [Reg.PWR_STATUS_warn] [] [.power] (fun u =>
      u.get Reg.PWR_STATUS_warn = 1 ∧ 0 ∈ u.hif.pend ∧ u.pwr = { s.pwr with vmonGood := none })) ∧
    (s.get Reg.PWR_STATUS_warn ≠ 0 → changes (.vmonWarnClear t) s [Reg.PWR_STATUS_warn] [] [.power] (fun u =>
      u.get Reg.PWR_STATUS_warn = 0 ∧ 1 ∈ u.hif.pend ∧ u.pwr = { s.pwr with
        vmonGood := some (s.pwr.vmonGood.getD (max s.ltb t - 2000)) })) ∧
    (∀ (rf dig : Int), -2048 ≤ rf → rf < 2048 → -2048 ≤ dig → dig < 2048 →
      changes (.thermalWarn t rf dig) s [Reg.PWR_STATUS_temp_warn, Reg.PWR_TEMP_temp_rf,
      Reg.PWR_TEMP_temp_dig] [] [.power] (fun u => u.pwr = { s.pwr with temps := (rf, dig) } ∧
      u.sget Reg.PWR_TEMP_temp_rf = rf ∧ u.sget Reg.PWR_TEMP_temp_dig = dig ∧
      if ((10 * s.get Reg.PWR_TEMP_CFG_warn_c : Nat) : Int) < max rf dig then u.get Reg.PWR_STATUS_temp_warn = 1 ∧
      (s.get Reg.PWR_STATUS_temp_warn = 0 → 2 ∈ u.hif.pend) else u.get Reg.PWR_STATUS_temp_warn = 0)) ∧
    (∀ (rf dig : Int), -2048 ≤ rf → rf < 2048 → -2048 ≤ dig → dig < 2048 →
      max rf dig ≤ ((10 * min 135 (s.get Reg.PWR_TEMP_CFG_trip_c) : Nat) : Int) →
      changes (.thermalTrip t rf dig) s [Reg.PWR_STATUS_temp_warn, Reg.PWR_TEMP_temp_rf,
      Reg.PWR_TEMP_temp_dig] [] [.power] (fun u => u.pwr = { s.pwr with temps := (rf, dig) } ∧
      u.sget Reg.PWR_TEMP_temp_rf = rf ∧ u.sget Reg.PWR_TEMP_temp_dig = dig ∧
      if ((10 * s.get Reg.PWR_TEMP_CFG_warn_c : Nat) : Int) < max rf dig then u.get Reg.PWR_STATUS_temp_warn = 1 ∧
      (s.get Reg.PWR_STATUS_temp_warn = 0 → 2 ∈ u.hif.pend) else u.get Reg.PWR_STATUS_temp_warn = 0)) ∧
    (∀ (mask : BitVec 4), mask.toNat ≠ 0 → s.get Reg.PWR_DOM_core_down < 16 → s.get Reg.PWR_STATUS_state ≠ 2 → (∀ d,
      d < 4 → bits mask.toNat d 1 = 1 → bits (s.get Reg.PWR_DOM_core_down) d 1 = 0 ∧
      bits (s.get Reg.PWR_DOM_core_pwr) d 1 = 1) →
      changes (.coreResetCommand t 0xA55A mask) s (Reg.PWR_DOM_core_down :: (List.range 5).map Reg.MBX_EP_epoch) []
      [.power, .mailboxes] (fun u => 4 ∈ u.hif.pend ∧ 255 ∈ u.hif.pend ∧ u.pwr = { s.pwr with
        wdtStart := u.pwr.wdtStart, coreRelease := u.pwr.coreRelease } ∧ ∀ d, d < 4 →
      if bits mask.toNat d 1 = 1 then bits (u.get Reg.PWR_DOM_core_down) d 1 = 1 ∧
      u.get (Reg.MBX_EP_epoch (d + 1)) = (s.get (Reg.MBX_EP_epoch (d + 1)) + 1) % 65536 ∧
      tabGet u.pwr.wdtStart d = none ∧ tabGet u.pwr.coreRelease d = some
      (max (tabGetD s.pwr.coreRelease d 0) (max s.ltb t + 10000)) else bits (u.get Reg.PWR_DOM_core_down) d 1 = bits
      (s.get Reg.PWR_DOM_core_down) d 1 ∧ u.get (Reg.MBX_EP_epoch (d + 1)) = s.get (Reg.MBX_EP_epoch (d + 1)) ∧
      tabGet u.pwr.wdtStart d = tabGet s.pwr.wdtStart d ∧ tabGet u.pwr.coreRelease d = tabGet s.pwr.coreRelease d)) ∧
    (∀ (x : Nat), bits (s.get Reg.PWR_DOM_core_down) c 1 = 0 → s.get Reg.PWR_DOM_core_down < 16 →
      bits (s.get Reg.PWR_DOM_core_pwr) c 1 = 1 → s.get Reg.PWR_STATUS_state ≠ 2 →
      s.get (Reg.PWR_WDT_CFG_action c) = 0 → tabGet s.pwr.wdtStart c = some x →
      x + tabGetD s.pwr.wdtMs c 5000 * 1000000 ≤ max s.ltb t →
      changes (.watchdogExpiry t c) s [Reg.PWR_DOM_core_down, Reg.MBX_EP_epoch (c.val + 1)] [Reg.PWR_CNT_WDT]
      [.power, .mailboxes] (fun u => u.count Reg.PWR_CNT_WDT = (s.count Reg.PWR_CNT_WDT + 1) % 2 ^ 32 ∧
      4 ∈ u.hif.pend ∧ 255 ∈ u.hif.pend ∧ bits (u.get Reg.PWR_DOM_core_down) c 1 = 1 ∧ (∀ d, d < 4 → d ≠ c.val →
      bits (u.get Reg.PWR_DOM_core_down) d 1 = bits (s.get Reg.PWR_DOM_core_down) d 1) ∧
      u.get (Reg.MBX_EP_epoch (c.val + 1)) = (s.get (Reg.MBX_EP_epoch (c.val + 1)) + 1) % 65536 ∧ u.pwr = { s.pwr with
        wdtStart := tabDel s.pwr.wdtStart c,
        coreRelease := tabPut s.pwr.coreRelease c (max (tabGetD s.pwr.coreRelease c 0) (max s.ltb t + 10000)) })) ∧
    (∀ (x : Nat), tabGet s.pwr.coreRelease c = some x → x ≤ max s.ltb t → s.get Reg.PWR_DOM_core_down < 16 →
      changes (.coreDomainRelease t c) s [Reg.PWR_DOM_core_down] [] [.power] (fun u =>
      bits (u.get Reg.PWR_DOM_core_down) c 1 = 0 ∧ (∀ d, d < 4 → d ≠ c.val →
      bits (u.get Reg.PWR_DOM_core_down) d 1 = bits (s.get Reg.PWR_DOM_core_down) d 1) ∧ .coreStart c ∈ u.out ∧
      tabGet u.pwr.coreRelease c = none ∧ (s.get (Reg.PWR_WDT_CFG_en c) ≠ 0 →
      tabGet u.pwr.wdtStart c = some (max s.ltb t) ∧
      tabGet u.pwr.wdtMs c = some (atLeast1 (s.get (Reg.PWR_WDT_CFG_timeout_ms c)))))) ∧
    ((tabGet s.pwr.wdtStart c).isSome = true → leadsTo (.kick t c) s ((s.now t).onPwr (fun p => { p with
        wdtStart := tabPut p.wdtStart c (max s.ltb t),
        wdtMs := tabPut p.wdtMs c (atLeast1 (s.get (Reg.PWR_WDT_CFG_timeout_ms c))) }))) ∧
    (∀ (en action : Bool) (timeout : BitVec 16), s.get (Reg.PWR_WDT_CFG_en c) = 0 → en = true →
      bits (s.get Reg.PWR_DOM_core_down) c 1 = 0 →
      changes (.watchdogConfig t c en action timeout) s [Reg.PWR_WDT_CFG_en c, Reg.PWR_WDT_CFG_action c,
      Reg.PWR_WDT_CFG_timeout_ms c] [] [.power] (fun u => u.get (Reg.PWR_WDT_CFG_en c) = en.toNat ∧
      u.get (Reg.PWR_WDT_CFG_action c) = action.toNat ∧ u.get (Reg.PWR_WDT_CFG_timeout_ms c) = timeout.toNat ∧
      u.pwr = { s.pwr with
        wdtStart := tabPut s.pwr.wdtStart c (max s.ltb t),
        wdtMs := tabPut s.pwr.wdtMs c (atLeast1 timeout.toNat) })) ∧
    (∀ (en action : Bool) (timeout : BitVec 16), s.get (Reg.PWR_WDT_CFG_en c) ≠ 0 → en = true →
      changes (.watchdogConfig t c en action timeout) s [Reg.PWR_WDT_CFG_en c, Reg.PWR_WDT_CFG_action c,
      Reg.PWR_WDT_CFG_timeout_ms c] [] [] (fun u => u.get (Reg.PWR_WDT_CFG_en c) = en.toNat ∧
      u.get (Reg.PWR_WDT_CFG_action c) = action.toNat ∧ u.get (Reg.PWR_WDT_CFG_timeout_ms c) = timeout.toNat)) ∧
    (∀ (en action : Bool) (timeout : BitVec 16), en = false →
      changes (.watchdogConfig t c en action timeout) s [Reg.PWR_WDT_CFG_en c, Reg.PWR_WDT_CFG_action c,
      Reg.PWR_WDT_CFG_timeout_ms c] [] [.power] (fun u => u.get (Reg.PWR_WDT_CFG_en c) = en.toNat ∧
      u.get (Reg.PWR_WDT_CFG_action c) = action.toNat ∧ u.get (Reg.PWR_WDT_CFG_timeout_ms c) = timeout.toNat ∧
      tabGet u.pwr.wdtStart c = none)) ∧
    (∀ (en action : Bool) (timeout : BitVec 16), s.get (Reg.PWR_WDT_CFG_en c) = 0 → en = true →
      bits (s.get Reg.PWR_DOM_core_down) c 1 = 1 →
      changes (.watchdogConfig t c en action timeout) s [Reg.PWR_WDT_CFG_en c, Reg.PWR_WDT_CFG_action c,
      Reg.PWR_WDT_CFG_timeout_ms c] [] [] (fun u => u.get (Reg.PWR_WDT_CFG_en c) = en.toNat ∧
      u.get (Reg.PWR_WDT_CFG_action c) = action.toNat ∧ u.get (Reg.PWR_WDT_CFG_timeout_ms c) = timeout.toNat)) ∧
    (∀ (mask : BitVec 4), s.get Reg.PWR_DOM_core_down < 16 →
      changes (.corePower t mask) s (Reg.PWR_DOM_core_pwr :: Reg.PWR_DOM_core_down :: (List.range 5).map
      Reg.MBX_EP_epoch) [] [.power, .mailboxes] (fun u => u.get Reg.PWR_DOM_core_pwr = mask.toNat ||| 1 ∧
      u.pwr = { s.pwr with
        wdtStart := u.pwr.wdtStart, coreRelease := u.pwr.coreRelease } ∧ ∀ d, 1 ≤ d → d < 4 →
      (bits (u.get Reg.PWR_DOM_core_down) d 1 = bits (s.get Reg.PWR_DOM_core_down) d 1 ∨ bits mask.toNat d 1 = 0) ∧
      (bits mask.toNat d 1 = 1 ∨ bits (s.get Reg.PWR_DOM_core_down) d 1 = 1 →
      u.get (Reg.MBX_EP_epoch (d + 1)) = s.get (Reg.MBX_EP_epoch (d + 1)) ∨
      65536 ≤ s.get (Reg.MBX_EP_epoch (d + 1))) ∧
      if bits mask.toNat d 1 = bits (s.get Reg.PWR_DOM_core_pwr) d 1 then tabGet u.pwr.wdtStart d = tabGet
      s.pwr.wdtStart d ∧ tabGet u.pwr.coreRelease d = tabGet s.pwr.coreRelease d ∧
      bits (u.get Reg.PWR_DOM_core_down) d 1 = bits (s.get Reg.PWR_DOM_core_down) d 1 else if bits mask.toNat d 1 = 0
      then bits (u.get Reg.PWR_DOM_core_down) d 1 = 1 ∧ tabGet u.pwr.wdtStart d = none ∧
      tabGet u.pwr.coreRelease d = none else s.get Reg.PWR_STATUS_state ≠ 2 →
      tabGet u.pwr.coreRelease d = some (max s.ltb t + 50000))) ∧
    (∀ (x : BitVec 2) (d : Nat), s.pwr.trans = none →
      (s.get Reg.PWR_STATUS_state, x.toNat, d) ∈ [(0, 1, 0), (1, 0, 500000), (1, 2, 1000000), (2, 1, 2000000)] →
      (s.get Reg.PWR_STATUS_state = 0 → (∀ i, i < 2 → s.get (Reg.RFX_STATUS_state i) = 0) ∧ ∀ i, i < 4 →
      s.get (Reg.TXC_STATUS_state i) = 0) → (x.toNat = 2 → s.get Reg.FWD_CTRL_enable = 0 ∧
      s.get Reg.ESC_CTRL_enable = 0 ∧ s.get Reg.AMC_CTRL_enable = 0 ∧ s.get Reg.SLP_CTRL_enable = 0 ∧ ∀ i, i < 2 →
      s.get (Reg.ETH_CTRL_enable i) = 0 ∨ ethState s i = 3) →
      changes (.powerStateReq t x) s [Reg.PWR_STATE_REQ_result, Reg.PWR_STATE_REQ_busy] [] [.power] (fun u =>
      u.get Reg.PWR_STATE_REQ_result = 0 ∧ u.get Reg.PWR_STATE_REQ_busy = 1 ∧
      u.pwr = { s.pwr with trans := some (x.toNat, max s.ltb t + d) })) ∧
    (∀ (x : BitVec 2) (r : Nat), r = stateReqResult s x.toNat → r ≠ 0 →
      changes (.powerStateReq t x) s [Reg.PWR_STATE_REQ_result] [] []
      (fun u => u.get Reg.PWR_STATE_REQ_result = r ∧ 6 ∈ u.hif.pend)) ∧
    (∀ (d : Nat), s.pwr.trans = some (2, d) → d ≤ max s.ltb t → s.get Reg.PWR_STATUS_state = 1 →
      changes (.powerTransitionDone t) s (Reg.PWR_STATUS_state :: Reg.PWR_STATE_REQ_busy :: Reg.PWR_DOM_core_down ::
      (List.range 5).map Reg.MBX_EP_epoch) [] [.power, .mailboxes, .inForce] (fun u => 5 ∈ u.hif.pend ∧
      u.get Reg.PWR_STATUS_state = 2 ∧ u.get Reg.PWR_STATE_REQ_busy = 0 ∧ u.pwr.trans = none ∧ (∀ c, 1 ≤ c → c < 4 →
      bits (u.get Reg.PWR_DOM_core_down) c 1 = 1 ∧ tabGet u.pwr.wdtStart c = none ∧
      tabGet u.pwr.coreRelease c = none) ∧ ∀ f ∈ [Reg.PWR_WAKE_CFG_wake_eth, Reg.PWR_WAKE_CFG_wake_host,
      Reg.PWR_WAKE_CFG_wake_tci], u.cur f = s.get f)) ∧
    (∀ (d : Nat), s.pwr.trans = some (1, d) → d ≤ max s.ltb t → s.get Reg.PWR_STATUS_state = 2 →
      changes (.powerTransitionDone t) s [Reg.PWR_STATUS_state, Reg.PWR_STATE_REQ_busy] [] [.power] (fun u =>
      5 ∈ u.hif.pend ∧ u.get Reg.PWR_STATUS_state = 1 ∧ u.get Reg.PWR_STATE_REQ_busy = 0 ∧
      u.pwr = { s.pwr with trans := none, coreRelease := u.pwr.coreRelease } ∧ ∀ c, 1 ≤ c → c < 4 →
      tabGet u.pwr.coreRelease c = if bits (s.get Reg.PWR_DOM_core_pwr) c 1 = 1 then some (max s.ltb t + 50000) else
      tabGet s.pwr.coreRelease c)) ∧
    (∀ (d : Nat), s.pwr.trans = some (0, d) → d ≤ max s.ltb t → s.get Reg.PWR_STATUS_state = 1 →
      changes (.powerTransitionDone t) s [Reg.PWR_STATUS_state, Reg.PWR_STATE_REQ_busy] [] [.power] (fun u =>
      5 ∈ u.hif.pend ∧ u.get Reg.PWR_STATUS_state = 0 ∧ u.get Reg.PWR_STATE_REQ_busy = 0 ∧
      u.pwr = { s.pwr with trans := none })) ∧
    (∀ (d : Nat), s.pwr.trans = some (1, d) → d ≤ max s.ltb t → s.get Reg.PWR_STATUS_state = 0 →
      changes (.powerTransitionDone t) s ([Reg.PWR_STATUS_state, Reg.PWR_STATE_REQ_busy] ++ ((List.range 4).flatMap
      (fun n => [Reg.TXC_STATUS_cal_done n, Reg.TXC_STATUS_cache_count n]) ++ (List.range 2).map
      Reg.RFX_STATUS_cal_done)) [] [.power, .chains, .sic] (fun u => 5 ∈ u.hif.pend ∧ u.get Reg.PWR_STATUS_state = 1 ∧
      u.get Reg.PWR_STATE_REQ_busy = 0 ∧ u.pwr = { s.pwr with trans := none } ∧ u.sic.entries = [] ∧
      (∀ b, b < 2 → u.get (Reg.RFX_STATUS_cal_done b) = 0) ∧ ∀ n, n < 4 → u.get (Reg.TXC_STATUS_cal_done n) = 0 ∧
      (u.chainOf n).slots = [])) ∧
    (∀ (src : Fin 7), s.get Reg.PWR_STATUS_state = 2 → s.pwr.trans = none → wakeEnabled s src = true →
      changes (.standbyWake t src) s [Reg.PWR_STATE_REQ_busy, Reg.PWR_WAKE_CFG_wake_src] [] [.power] (fun u =>
      u.get Reg.PWR_STATE_REQ_busy = 1 ∧ bits (u.get Reg.PWR_WAKE_CFG_wake_src) src 1 = 1 ∧
      u.pwr = { s.pwr with trans := some (1, max s.ltb t + 2000000) })) ∧
    (leadsTo (.permanentListClear t) s (((s.now t).onPwr (fun p => { p with perm := [] })).set Reg.PWR_PERM_CNT_count
      0)) ∧
    (changes (.d2dCrcError t) s [] [Reg.PWR_CNT_D2D_ERR] [.once] (fun u =>
      u.count Reg.PWR_CNT_D2D_ERR = (s.count Reg.PWR_CNT_D2D_ERR + 1) % 2 ^ 32 ∧ 11 ∈ u.once ∧
      (11 ∉ s.once → 11 ∈ u.hif.pend))) ∧
    (∀ (speed width : BitVec 2), s.get Reg.HIF_STATUS_standalone = 0 →
      changes (.pcieLinkUp t speed width) s [Reg.HIF_STATUS_link_up, Reg.HIF_STATUS_speed,
      Reg.HIF_STATUS_width] [] [] (fun u => u.get Reg.HIF_STATUS_link_up = 1 ∧
      u.get Reg.HIF_STATUS_speed = speed.toNat ∧ u.get Reg.HIF_STATUS_width = width.toNat)) ∧
    (s.get Reg.HIF_STATUS_standalone = 0 → changes (.d3hotEntry t) s [Reg.MBX_EP_epoch 0] [] [.host, .mailboxes] (fun
      u => u.hif.d3hot = true ∧ (hostDown s = false → 255 ∈ u.hif.pend ∧
      u.get (Reg.MBX_EP_epoch 0) = (s.get (Reg.MBX_EP_epoch 0) + 1) % 65536))) ∧
    (s.get Reg.HIF_STATUS_standalone = 0 → changes (.flrComplete t) s [] [] [.host] (fun u => u.hif.flr = false ∧
      (s.hif.flr = true → u.hif.d3hot = false) ∧ (s.hif.flr = false → u.hif.d3hot = s.hif.d3hot))) ∧
    (s.get Reg.HIF_STATUS_standalone = 0 → changes (.perstAssertion t) s
      ((List.range 256).map Reg.HIF_RING_CTRL_enable) [] [.rings, .host, .claims] (fun u =>
      (∀ r, r < 256 → u.get (Reg.HIF_RING_CTRL_enable r) = 0) ∧ (∀ r, r < 224 → (u.ringOf r).frames = [] ∧
      (u.ringOf r).pIdx = 0) ∧ u.hif.unmasked = [] ∧ u.hif.funcMask = true))
end

