-- ==== Sys2Proof/Laws/Tab.lean ====
section
/-! SUPPORT. Laws of sparse tables: reading after writing, and the rising order of the keys. -/

set_option Elab.async false

namespace Sys2Proof.Machine

variable {α : Type}

@[simp] theorem tabGet_nil (k : Nat) : tabGet ([] : Tab α) k = none := rfl

@[simp] theorem tabGet_put_self (m : Tab α) (k : Nat) (a : α) : tabGet (tabPut m k a) k = some a := by
  induction m with
  | nil => simp [tabPut, tabGet]
  | cons e r ih =>
    obtain ⟨i, b⟩ := e
    simp only [tabPut]
    split
    · simp [tabGet]
    · split
      · simp [tabGet]
      · simp [tabGet, *]

theorem tabGet_put_ne (m : Tab α) {k j : Nat} (a : α) (h : k ≠ j) : tabGet (tabPut m k a) j = tabGet m j := by
  induction m with
  | nil => simp [tabPut, tabGet, h]
  | cons e r ih =>
    obtain ⟨i, b⟩ := e
    simp only [tabPut]
    split
    · simp [tabGet, h]
    · split
      · rename_i hk; subst hk; simp [tabGet, h]
      · simp [tabGet, ih]

theorem tabGet_put (m : Tab α) (k j : Nat) (a : α) :
    tabGet (tabPut m k a) j = if k = j then some a else tabGet m j := by
  split
  · rename_i h; subst h; simp
  · exact tabGet_put_ne m a ‹_›

@[simp] theorem tabGet_del_self (m : Tab α) (k : Nat) : tabGet (tabDel m k) k = none := by
  induction m with
  | nil => rfl
  | cons e r ih =>
    obtain ⟨i, b⟩ := e
    simp only [tabDel, List.filter_cons] at *
    by_cases h : i = k
    · simp [h, ih]
    · simp [h, tabGet, ih]

theorem tabGet_del_ne (m : Tab α) {k j : Nat} (h : k ≠ j) : tabGet (tabDel m k) j = tabGet m j := by
  induction m with
  | nil => rfl
  | cons e r ih =>
    obtain ⟨i, b⟩ := e
    simp only [tabDel, List.filter_cons] at *
    by_cases hi : i = k
    · subst hi; simp [h, ih, tabGet]
    · simp [hi, tabGet, ih]

theorem tabGet_del (m : Tab α) (k j : Nat) : tabGet (tabDel m k) j = if k = j then none else tabGet m j := by
  split
  · rename_i h; subst h; simp
  · exact tabGet_del_ne m ‹_›

@[simp] theorem tabGetD_put_self (m : Tab α) (k : Nat) (a d : α) : tabGetD (tabPut m k a) k d = a := by simp [tabGetD]

theorem tabGetD_put (m : Tab α) (k j : Nat) (a d : α) :
    tabGetD (tabPut m k a) j d = if k = j then a else tabGetD m j d := by
  unfold tabGetD; rw [tabGet_put]; split <;> rfl

/-! ### The canonical form: keys strictly rising -/

theorem risingFrom_mono {m : Tab α} {n k : Nat} (h : risingFrom n m = true) (hk : k ≤ n) : risingFrom k m = true := by
  cases m with
  | nil => rfl
  | cons e r =>
    simp only [risingFrom, Bool.and_eq_true, decide_eq_true_eq] at *
    exact ⟨by omega, h.2⟩

theorem risingFrom_put {m : Tab α} {n k : Nat} (a : α) (h : risingFrom n m = true) (hk : n ≤ k) :
    risingFrom n (tabPut m k a) = true := by
  induction m generalizing n with
  | nil => simpa [tabPut, risingFrom] using hk
  | cons e r ih =>
    obtain ⟨i, b⟩ := e
    simp only [risingFrom, Bool.and_eq_true, decide_eq_true_eq] at h
    simp only [tabPut]
    split
    · simp [risingFrom, hk, h.2]; omega
    · split
      · subst k; simp [risingFrom, h]
      · simp only [risingFrom, Bool.and_eq_true, decide_eq_true_eq]
        exact ⟨h.1, ih h.2 (by omega)⟩

theorem risingFrom_filter {m : Tab α} {n : Nat} (p : Nat × α → Bool) (h : risingFrom n m = true) :
    risingFrom n (m.filter p) = true := by
  induction m generalizing n with
  | nil => rfl
  | cons e r ih =>
    simp only [risingFrom, Bool.and_eq_true, decide_eq_true_eq] at h
    simp only [List.filter_cons]
    split
    · simp [risingFrom, h.1, ih h.2]
    · exact risingFrom_mono (ih h.2) (by omega)

theorem rising_put {m : Tab α} (k : Nat) (a : α) (h : rising m = true) : rising (tabPut m k a) = true :=
  risingFrom_put a h (Nat.zero_le _)

theorem rising_filter {m : Tab α} (p : Nat × α → Bool) (h : rising m = true) : rising (m.filter p) = true :=
  risingFrom_filter p h

theorem rising_del {m : Tab α} (k : Nat) (h : rising m = true) : rising (tabDel m k) = true := rising_filter _ h

end Sys2Proof.Machine
end

