-- ==== Sys2Proof/Laws/State.lean ====
section
/-! SUPPORT. Laws of the record updates: for each update what every part of the state is after it, and reading a register
field after setting one. -/

set_option Elab.async false

namespace Sys2Proof.Machine

/-! ### Reading a register field after setting one -/

theorem State.get_eq {s t : State} (h : t.fields = s.fields) (f : Fld) : t.get f = s.get f := by unfold State.get; rw [h]

@[simp] theorem State.get_set_self (s : State) (f : Fld) (v : Nat) : (s.set f v).get f = v % 2 ^ f.w := by
  simp only [State.get, State.set]
  split
  · rename_i h; simp [h]
  · simp

theorem State.get_set_ne (s : State) {f g : Fld} (v : Nat) (h : f.key ≠ g.key) : (s.set f v).get g = s.get g := by
  simp only [State.get, State.set]
  split
  · rw [tabGet_del_ne _ h]
  · rw [tabGet_put_ne _ _ h, tabGet_del_ne _ h]

@[simp] theorem State.get_setb_self (s : State) (f : Fld) (b : Bool) :
    (s.setb f b).get f = (if b then 1 else 0) % 2 ^ f.w := State.get_set_self s f _

theorem State.get_setb_ne (s : State) {f g : Fld} (b : Bool) (h : f.key ≠ g.key) : (s.setb f b).get g = s.get g :=
  State.get_set_ne s _ h

@[simp] theorem State.get_sset_self (s : State) (f : Fld) (i : Int) : (s.sset f i).get f = unsigned f.w i % 2 ^ f.w :=
  State.get_set_self s f _

theorem State.get_sset_ne (s : State) {f g : Fld} (i : Int) (h : f.key ≠ g.key) : (s.sset f i).get g = s.get g :=
  State.get_set_ne s _ h

theorem State.rising_set {s : State} (f : Fld) (v : Nat) (h : rising s.fields = true) :
    rising (s.set f v).fields = true := by
  simp only [State.set]
  split
  · exact rising_del _ h
  · exact rising_put _ _ (rising_del _ h)

/-! ### What every part of the state is after an update -/

@[simp] theorem State.set_pending (s : State) (f : Fld) (v : Nat) : (s.set f v).pending = s.pending := rfl
@[simp] theorem State.set_ltb (s : State) (f : Fld) (v : Nat) : (s.set f v).ltb = s.ltb := rfl
@[simp] theorem State.set_freeCtr (s : State) (f : Fld) (v : Nat) : (s.set f v).freeCtr = s.freeCtr := rfl
@[simp] theorem State.set_out (s : State) (f : Fld) (v : Nat) : (s.set f v).out = s.out := rfl
@[simp] theorem State.set_resp (s : State) (f : Fld) (v : Nat) : (s.set f v).resp = s.resp := rfl
@[simp] theorem State.set_straps (s : State) (f : Fld) (v : Nat) : (s.set f v).straps = s.straps := rfl
@[simp] theorem State.set_fuses (s : State) (f : Fld) (v : Nat) : (s.set f v).fuses = s.fuses := rfl
@[simp] theorem State.set_inForce (s : State) (f : Fld) (v : Nat) : (s.set f v).inForce = s.inForce := rfl
@[simp] theorem State.set_cnt (s : State) (f : Fld) (v : Nat) : (s.set f v).cnt = s.cnt := rfl
@[simp] theorem State.set_cntLast (s : State) (f : Fld) (v : Nat) : (s.set f v).cntLast = s.cntLast := rfl
@[simp] theorem State.set_claims (s : State) (f : Fld) (v : Nat) : (s.set f v).claims = s.claims := rfl
@[simp] theorem State.set_pins (s : State) (f : Fld) (v : Nat) : (s.set f v).pins = s.pins := rfl
@[simp] theorem State.set_store (s : State) (f : Fld) (v : Nat) : (s.set f v).store = s.store := rfl
@[simp] theorem State.set_bal (s : State) (f : Fld) (v : Nat) : (s.set f v).bal = s.bal := rfl
@[simp] theorem State.set_rx (s : State) (f : Fld) (v : Nat) : (s.set f v).rx = s.rx := rfl
@[simp] theorem State.set_chains (s : State) (f : Fld) (v : Nat) : (s.set f v).chains = s.chains := rfl
@[simp] theorem State.set_coex (s : State) (f : Fld) (v : Nat) : (s.set f v).coex = s.coex := rfl
@[simp] theorem State.set_sic (s : State) (f : Fld) (v : Nat) : (s.set f v).sic = s.sic := rfl
@[simp] theorem State.set_lanes (s : State) (f : Fld) (v : Nat) : (s.set f v).lanes = s.lanes := rfl
@[simp] theorem State.set_hif (s : State) (f : Fld) (v : Nat) : (s.set f v).hif = s.hif := rfl
@[simp] theorem State.set_mbx (s : State) (f : Fld) (v : Nat) : (s.set f v).mbx = s.mbx := rfl
@[simp] theorem State.set_chr (s : State) (f : Fld) (v : Nat) : (s.set f v).chr = s.chr := rfl
@[simp] theorem State.set_pwr (s : State) (f : Fld) (v : Nat) : (s.set f v).pwr = s.pwr := rfl
@[simp] theorem State.set_laneRecs (s : State) (f : Fld) (v : Nat) : (s.set f v).laneRecs = s.laneRecs := rfl
@[simp] theorem State.set_txDone (s : State) (f : Fld) (v : Nat) : (s.set f v).txDone = s.txDone := rfl
@[simp] theorem State.set_once (s : State) (f : Fld) (v : Nat) : (s.set f v).once = s.once := rfl
@[simp] theorem State.set_amc (s : State) (f : Fld) (v : Nat) : (s.set f v).amc = s.amc := rfl
@[simp] theorem State.set_slp (s : State) (f : Fld) (v : Nat) : (s.set f v).slp = s.slp := rfl
@[simp] theorem State.set_esc (s : State) (f : Fld) (v : Nat) : (s.set f v).esc = s.esc := rfl
@[simp] theorem State.set_fwd (s : State) (f : Fld) (v : Nat) : (s.set f v).fwd = s.fwd := rfl
@[simp] theorem State.set_ctx (s : State) (f : Fld) (v : Nat) : (s.set f v).ctx = s.ctx := rfl
@[simp] theorem State.set_jwl (s : State) (f : Fld) (v : Nat) : (s.set f v).jwl = s.jwl := rfl
@[simp] theorem State.set_eth (s : State) (f : Fld) (v : Nat) : (s.set f v).eth = s.eth := rfl
@[simp] theorem State.set_twn (s : State) (f : Fld) (v : Nat) : (s.set f v).twn = s.twn := rfl
@[simp] theorem State.set_crn (s : State) (f : Fld) (v : Nat) : (s.set f v).crn = s.crn := rfl
@[simp] theorem State.set_count (s : State) (f : Fld) (v : Nat) (c : Nat) : (s.set f v).count c = s.count c := rfl
@[simp] theorem State.setb_pending (s : State) (f : Fld) (b : Bool) : (s.setb f b).pending = s.pending := rfl
@[simp] theorem State.setb_ltb (s : State) (f : Fld) (b : Bool) : (s.setb f b).ltb = s.ltb := rfl
@[simp] theorem State.setb_freeCtr (s : State) (f : Fld) (b : Bool) : (s.setb f b).freeCtr = s.freeCtr := rfl
@[simp] theorem State.setb_out (s : State) (f : Fld) (b : Bool) : (s.setb f b).out = s.out := rfl
@[simp] theorem State.setb_resp (s : State) (f : Fld) (b : Bool) : (s.setb f b).resp = s.resp := rfl
@[simp] theorem State.setb_straps (s : State) (f : Fld) (b : Bool) : (s.setb f b).straps = s.straps := rfl
@[simp] theorem State.setb_fuses (s : State) (f : Fld) (b : Bool) : (s.setb f b).fuses = s.fuses := rfl
@[simp] theorem State.setb_inForce (s : State) (f : Fld) (b : Bool) : (s.setb f b).inForce = s.inForce := rfl
@[simp] theorem State.setb_cnt (s : State) (f : Fld) (b : Bool) : (s.setb f b).cnt = s.cnt := rfl
@[simp] theorem State.setb_cntLast (s : State) (f : Fld) (b : Bool) : (s.setb f b).cntLast = s.cntLast := rfl
@[simp] theorem State.setb_claims (s : State) (f : Fld) (b : Bool) : (s.setb f b).claims = s.claims := rfl
@[simp] theorem State.setb_pins (s : State) (f : Fld) (b : Bool) : (s.setb f b).pins = s.pins := rfl
@[simp] theorem State.setb_store (s : State) (f : Fld) (b : Bool) : (s.setb f b).store = s.store := rfl
@[simp] theorem State.setb_bal (s : State) (f : Fld) (b : Bool) : (s.setb f b).bal = s.bal := rfl
@[simp] theorem State.setb_rx (s : State) (f : Fld) (b : Bool) : (s.setb f b).rx = s.rx := rfl
@[simp] theorem State.setb_chains (s : State) (f : Fld) (b : Bool) : (s.setb f b).chains = s.chains := rfl
@[simp] theorem State.setb_coex (s : State) (f : Fld) (b : Bool) : (s.setb f b).coex = s.coex := rfl
@[simp] theorem State.setb_sic (s : State) (f : Fld) (b : Bool) : (s.setb f b).sic = s.sic := rfl
@[simp] theorem State.setb_lanes (s : State) (f : Fld) (b : Bool) : (s.setb f b).lanes = s.lanes := rfl
@[simp] theorem State.setb_hif (s : State) (f : Fld) (b : Bool) : (s.setb f b).hif = s.hif := rfl
@[simp] theorem State.setb_mbx (s : State) (f : Fld) (b : Bool) : (s.setb f b).mbx = s.mbx := rfl
@[simp] theorem State.setb_chr (s : State) (f : Fld) (b : Bool) : (s.setb f b).chr = s.chr := rfl
@[simp] theorem State.setb_pwr (s : State) (f : Fld) (b : Bool) : (s.setb f b).pwr = s.pwr := rfl
@[simp] theorem State.setb_laneRecs (s : State) (f : Fld) (b : Bool) : (s.setb f b).laneRecs = s.laneRecs := rfl
@[simp] theorem State.setb_txDone (s : State) (f : Fld) (b : Bool) : (s.setb f b).txDone = s.txDone := rfl
@[simp] theorem State.setb_once (s : State) (f : Fld) (b : Bool) : (s.setb f b).once = s.once := rfl
@[simp] theorem State.setb_amc (s : State) (f : Fld) (b : Bool) : (s.setb f b).amc = s.amc := rfl
@[simp] theorem State.setb_slp (s : State) (f : Fld) (b : Bool) : (s.setb f b).slp = s.slp := rfl
@[simp] theorem State.setb_esc (s : State) (f : Fld) (b : Bool) : (s.setb f b).esc = s.esc := rfl
@[simp] theorem State.setb_fwd (s : State) (f : Fld) (b : Bool) : (s.setb f b).fwd = s.fwd := rfl
@[simp] theorem State.setb_ctx (s : State) (f : Fld) (b : Bool) : (s.setb f b).ctx = s.ctx := rfl
@[simp] theorem State.setb_jwl (s : State) (f : Fld) (b : Bool) : (s.setb f b).jwl = s.jwl := rfl
@[simp] theorem State.setb_eth (s : State) (f : Fld) (b : Bool) : (s.setb f b).eth = s.eth := rfl
@[simp] theorem State.setb_twn (s : State) (f : Fld) (b : Bool) : (s.setb f b).twn = s.twn := rfl
@[simp] theorem State.setb_crn (s : State) (f : Fld) (b : Bool) : (s.setb f b).crn = s.crn := rfl
@[simp] theorem State.setb_count (s : State) (f : Fld) (b : Bool) (c : Nat) : (s.setb f b).count c = s.count c := rfl
@[simp] theorem State.sset_pending (s : State) (f : Fld) (i : Int) : (s.sset f i).pending = s.pending := rfl
@[simp] theorem State.sset_ltb (s : State) (f : Fld) (i : Int) : (s.sset f i).ltb = s.ltb := rfl
@[simp] theorem State.sset_freeCtr (s : State) (f : Fld) (i : Int) : (s.sset f i).freeCtr = s.freeCtr := rfl
@[simp] theorem State.sset_out (s : State) (f : Fld) (i : Int) : (s.sset f i).out = s.out := rfl
@[simp] theorem State.sset_resp (s : State) (f : Fld) (i : Int) : (s.sset f i).resp = s.resp := rfl
@[simp] theorem State.sset_straps (s : State) (f : Fld) (i : Int) : (s.sset f i).straps = s.straps := rfl
@[simp] theorem State.sset_fuses (s : State) (f : Fld) (i : Int) : (s.sset f i).fuses = s.fuses := rfl
@[simp] theorem State.sset_inForce (s : State) (f : Fld) (i : Int) : (s.sset f i).inForce = s.inForce := rfl
@[simp] theorem State.sset_cnt (s : State) (f : Fld) (i : Int) : (s.sset f i).cnt = s.cnt := rfl
@[simp] theorem State.sset_cntLast (s : State) (f : Fld) (i : Int) : (s.sset f i).cntLast = s.cntLast := rfl
@[simp] theorem State.sset_claims (s : State) (f : Fld) (i : Int) : (s.sset f i).claims = s.claims := rfl
@[simp] theorem State.sset_pins (s : State) (f : Fld) (i : Int) : (s.sset f i).pins = s.pins := rfl
@[simp] theorem State.sset_store (s : State) (f : Fld) (i : Int) : (s.sset f i).store = s.store := rfl
@[simp] theorem State.sset_bal (s : State) (f : Fld) (i : Int) : (s.sset f i).bal = s.bal := rfl
@[simp] theorem State.sset_rx (s : State) (f : Fld) (i : Int) : (s.sset f i).rx = s.rx := rfl
@[simp] theorem State.sset_chains (s : State) (f : Fld) (i : Int) : (s.sset f i).chains = s.chains := rfl
@[simp] theorem State.sset_coex (s : State) (f : Fld) (i : Int) : (s.sset f i).coex = s.coex := rfl
@[simp] theorem State.sset_sic (s : State) (f : Fld) (i : Int) : (s.sset f i).sic = s.sic := rfl
@[simp] theorem State.sset_lanes (s : State) (f : Fld) (i : Int) : (s.sset f i).lanes = s.lanes := rfl
@[simp] theorem State.sset_hif (s : State) (f : Fld) (i : Int) : (s.sset f i).hif = s.hif := rfl
@[simp] theorem State.sset_mbx (s : State) (f : Fld) (i : Int) : (s.sset f i).mbx = s.mbx := rfl
@[simp] theorem State.sset_chr (s : State) (f : Fld) (i : Int) : (s.sset f i).chr = s.chr := rfl
@[simp] theorem State.sset_pwr (s : State) (f : Fld) (i : Int) : (s.sset f i).pwr = s.pwr := rfl
@[simp] theorem State.sset_laneRecs (s : State) (f : Fld) (i : Int) : (s.sset f i).laneRecs = s.laneRecs := rfl
@[simp] theorem State.sset_txDone (s : State) (f : Fld) (i : Int) : (s.sset f i).txDone = s.txDone := rfl
@[simp] theorem State.sset_once (s : State) (f : Fld) (i : Int) : (s.sset f i).once = s.once := rfl
@[simp] theorem State.sset_amc (s : State) (f : Fld) (i : Int) : (s.sset f i).amc = s.amc := rfl
@[simp] theorem State.sset_slp (s : State) (f : Fld) (i : Int) : (s.sset f i).slp = s.slp := rfl
@[simp] theorem State.sset_esc (s : State) (f : Fld) (i : Int) : (s.sset f i).esc = s.esc := rfl
@[simp] theorem State.sset_fwd (s : State) (f : Fld) (i : Int) : (s.sset f i).fwd = s.fwd := rfl
@[simp] theorem State.sset_ctx (s : State) (f : Fld) (i : Int) : (s.sset f i).ctx = s.ctx := rfl
@[simp] theorem State.sset_jwl (s : State) (f : Fld) (i : Int) : (s.sset f i).jwl = s.jwl := rfl
@[simp] theorem State.sset_eth (s : State) (f : Fld) (i : Int) : (s.sset f i).eth = s.eth := rfl
@[simp] theorem State.sset_twn (s : State) (f : Fld) (i : Int) : (s.sset f i).twn = s.twn := rfl
@[simp] theorem State.sset_crn (s : State) (f : Fld) (i : Int) : (s.sset f i).crn = s.crn := rfl
@[simp] theorem State.sset_count (s : State) (f : Fld) (i : Int) (c : Nat) : (s.sset f i).count c = s.count c := rfl
@[simp] theorem State.emit_pending (s : State) (o : Output) : (s.emit o).pending = s.pending := rfl
@[simp] theorem State.emit_ltb (s : State) (o : Output) : (s.emit o).ltb = s.ltb := rfl
@[simp] theorem State.emit_freeCtr (s : State) (o : Output) : (s.emit o).freeCtr = s.freeCtr := rfl
@[simp] theorem State.emit_resp (s : State) (o : Output) : (s.emit o).resp = s.resp := rfl
@[simp] theorem State.emit_straps (s : State) (o : Output) : (s.emit o).straps = s.straps := rfl
@[simp] theorem State.emit_fuses (s : State) (o : Output) : (s.emit o).fuses = s.fuses := rfl
@[simp] theorem State.emit_fields (s : State) (o : Output) : (s.emit o).fields = s.fields := rfl
@[simp] theorem State.emit_inForce (s : State) (o : Output) : (s.emit o).inForce = s.inForce := rfl
@[simp] theorem State.emit_cnt (s : State) (o : Output) : (s.emit o).cnt = s.cnt := rfl
@[simp] theorem State.emit_cntLast (s : State) (o : Output) : (s.emit o).cntLast = s.cntLast := rfl
@[simp] theorem State.emit_claims (s : State) (o : Output) : (s.emit o).claims = s.claims := rfl
@[simp] theorem State.emit_pins (s : State) (o : Output) : (s.emit o).pins = s.pins := rfl
@[simp] theorem State.emit_store (s : State) (o : Output) : (s.emit o).store = s.store := rfl
@[simp] theorem State.emit_bal (s : State) (o : Output) : (s.emit o).bal = s.bal := rfl
@[simp] theorem State.emit_rx (s : State) (o : Output) : (s.emit o).rx = s.rx := rfl
@[simp] theorem State.emit_chains (s : State) (o : Output) : (s.emit o).chains = s.chains := rfl
@[simp] theorem State.emit_coex (s : State) (o : Output) : (s.emit o).coex = s.coex := rfl
@[simp] theorem State.emit_sic (s : State) (o : Output) : (s.emit o).sic = s.sic := rfl
@[simp] theorem State.emit_lanes (s : State) (o : Output) : (s.emit o).lanes = s.lanes := rfl
@[simp] theorem State.emit_hif (s : State) (o : Output) : (s.emit o).hif = s.hif := rfl
@[simp] theorem State.emit_mbx (s : State) (o : Output) : (s.emit o).mbx = s.mbx := rfl
@[simp] theorem State.emit_chr (s : State) (o : Output) : (s.emit o).chr = s.chr := rfl
@[simp] theorem State.emit_pwr (s : State) (o : Output) : (s.emit o).pwr = s.pwr := rfl
@[simp] theorem State.emit_laneRecs (s : State) (o : Output) : (s.emit o).laneRecs = s.laneRecs := rfl
@[simp] theorem State.emit_txDone (s : State) (o : Output) : (s.emit o).txDone = s.txDone := rfl
@[simp] theorem State.emit_once (s : State) (o : Output) : (s.emit o).once = s.once := rfl
@[simp] theorem State.emit_amc (s : State) (o : Output) : (s.emit o).amc = s.amc := rfl
@[simp] theorem State.emit_slp (s : State) (o : Output) : (s.emit o).slp = s.slp := rfl
@[simp] theorem State.emit_esc (s : State) (o : Output) : (s.emit o).esc = s.esc := rfl
@[simp] theorem State.emit_fwd (s : State) (o : Output) : (s.emit o).fwd = s.fwd := rfl
@[simp] theorem State.emit_ctx (s : State) (o : Output) : (s.emit o).ctx = s.ctx := rfl
@[simp] theorem State.emit_jwl (s : State) (o : Output) : (s.emit o).jwl = s.jwl := rfl
@[simp] theorem State.emit_eth (s : State) (o : Output) : (s.emit o).eth = s.eth := rfl
@[simp] theorem State.emit_twn (s : State) (o : Output) : (s.emit o).twn = s.twn := rfl
@[simp] theorem State.emit_crn (s : State) (o : Output) : (s.emit o).crn = s.crn := rfl
@[simp] theorem State.emit_get (s : State) (o : Output) (g : Fld) : (s.emit o).get g = s.get g := rfl
@[simp] theorem State.emit_on (s : State) (o : Output) (g : Fld) : (s.emit o).on g = s.on g := rfl
@[simp] theorem State.emit_sget (s : State) (o : Output) (g : Fld) : (s.emit o).sget g = s.sget g := rfl
@[simp] theorem State.emit_cur (s : State) (o : Output) (g : Fld) : (s.emit o).cur g = s.cur g := rfl
@[simp] theorem State.emit_count (s : State) (o : Output) (c : Nat) : (s.emit o).count c = s.count c := rfl
@[simp] theorem State.drive_pending (s : State) (b : Ball) (v : Bool) : (s.drive b v).pending = s.pending := rfl
@[simp] theorem State.drive_ltb (s : State) (b : Ball) (v : Bool) : (s.drive b v).ltb = s.ltb := rfl
@[simp] theorem State.drive_freeCtr (s : State) (b : Ball) (v : Bool) : (s.drive b v).freeCtr = s.freeCtr := rfl
@[simp] theorem State.drive_out (s : State) (b : Ball) (v : Bool) : (s.drive b v).out = s.out := rfl
@[simp] theorem State.drive_resp (s : State) (b : Ball) (v : Bool) : (s.drive b v).resp = s.resp := rfl
@[simp] theorem State.drive_straps (s : State) (b : Ball) (v : Bool) : (s.drive b v).straps = s.straps := rfl
@[simp] theorem State.drive_fuses (s : State) (b : Ball) (v : Bool) : (s.drive b v).fuses = s.fuses := rfl
@[simp] theorem State.drive_fields (s : State) (b : Ball) (v : Bool) : (s.drive b v).fields = s.fields := rfl
@[simp] theorem State.drive_inForce (s : State) (b : Ball) (v : Bool) : (s.drive b v).inForce = s.inForce := rfl
@[simp] theorem State.drive_cnt (s : State) (b : Ball) (v : Bool) : (s.drive b v).cnt = s.cnt := rfl
@[simp] theorem State.drive_cntLast (s : State) (b : Ball) (v : Bool) : (s.drive b v).cntLast = s.cntLast := rfl
@[simp] theorem State.drive_claims (s : State) (b : Ball) (v : Bool) : (s.drive b v).claims = s.claims := rfl
@[simp] theorem State.drive_store (s : State) (b : Ball) (v : Bool) : (s.drive b v).store = s.store := rfl
@[simp] theorem State.drive_bal (s : State) (b : Ball) (v : Bool) : (s.drive b v).bal = s.bal := rfl
@[simp] theorem State.drive_rx (s : State) (b : Ball) (v : Bool) : (s.drive b v).rx = s.rx := rfl
@[simp] theorem State.drive_chains (s : State) (b : Ball) (v : Bool) : (s.drive b v).chains = s.chains := rfl
@[simp] theorem State.drive_coex (s : State) (b : Ball) (v : Bool) : (s.drive b v).coex = s.coex := rfl
@[simp] theorem State.drive_sic (s : State) (b : Ball) (v : Bool) : (s.drive b v).sic = s.sic := rfl
@[simp] theorem State.drive_lanes (s : State) (b : Ball) (v : Bool) : (s.drive b v).lanes = s.lanes := rfl
@[simp] theorem State.drive_hif (s : State) (b : Ball) (v : Bool) : (s.drive b v).hif = s.hif := rfl
@[simp] theorem State.drive_mbx (s : State) (b : Ball) (v : Bool) : (s.drive b v).mbx = s.mbx := rfl
@[simp] theorem State.drive_chr (s : State) (b : Ball) (v : Bool) : (s.drive b v).chr = s.chr := rfl
@[simp] theorem State.drive_pwr (s : State) (b : Ball) (v : Bool) : (s.drive b v).pwr = s.pwr := rfl
@[simp] theorem State.drive_laneRecs (s : State) (b : Ball) (v : Bool) : (s.drive b v).laneRecs = s.laneRecs := rfl
@[simp] theorem State.drive_txDone (s : State) (b : Ball) (v : Bool) : (s.drive b v).txDone = s.txDone := rfl
@[simp] theorem State.drive_once (s : State) (b : Ball) (v : Bool) : (s.drive b v).once = s.once := rfl
@[simp] theorem State.drive_amc (s : State) (b : Ball) (v : Bool) : (s.drive b v).amc = s.amc := rfl
@[simp] theorem State.drive_slp (s : State) (b : Ball) (v : Bool) : (s.drive b v).slp = s.slp := rfl
@[simp] theorem State.drive_esc (s : State) (b : Ball) (v : Bool) : (s.drive b v).esc = s.esc := rfl
@[simp] theorem State.drive_fwd (s : State) (b : Ball) (v : Bool) : (s.drive b v).fwd = s.fwd := rfl
@[simp] theorem State.drive_ctx (s : State) (b : Ball) (v : Bool) : (s.drive b v).ctx = s.ctx := rfl
@[simp] theorem State.drive_jwl (s : State) (b : Ball) (v : Bool) : (s.drive b v).jwl = s.jwl := rfl
@[simp] theorem State.drive_eth (s : State) (b : Ball) (v : Bool) : (s.drive b v).eth = s.eth := rfl
@[simp] theorem State.drive_twn (s : State) (b : Ball) (v : Bool) : (s.drive b v).twn = s.twn := rfl
@[simp] theorem State.drive_crn (s : State) (b : Ball) (v : Bool) : (s.drive b v).crn = s.crn := rfl
@[simp] theorem State.drive_get (s : State) (b : Ball) (v : Bool) (g : Fld) : (s.drive b v).get g = s.get g := rfl
@[simp] theorem State.drive_on (s : State) (b : Ball) (v : Bool) (g : Fld) : (s.drive b v).on g = s.on g := rfl
@[simp] theorem State.drive_sget (s : State) (b : Ball) (v : Bool) (g : Fld) : (s.drive b v).sget g = s.sget g := rfl
@[simp] theorem State.drive_cur (s : State) (b : Ball) (v : Bool) (g : Fld) : (s.drive b v).cur g = s.cur g := rfl
@[simp] theorem State.drive_count (s : State) (b : Ball) (v : Bool) (c : Nat)
    : (s.drive b v).count c = s.count c := rfl
@[simp] theorem State.undrive_pending (s : State) (b : Ball) : (s.undrive b).pending = s.pending := rfl
@[simp] theorem State.undrive_ltb (s : State) (b : Ball) : (s.undrive b).ltb = s.ltb := rfl
@[simp] theorem State.undrive_freeCtr (s : State) (b : Ball) : (s.undrive b).freeCtr = s.freeCtr := rfl
@[simp] theorem State.undrive_out (s : State) (b : Ball) : (s.undrive b).out = s.out := rfl
@[simp] theorem State.undrive_resp (s : State) (b : Ball) : (s.undrive b).resp = s.resp := rfl
@[simp] theorem State.undrive_straps (s : State) (b : Ball) : (s.undrive b).straps = s.straps := rfl
@[simp] theorem State.undrive_fuses (s : State) (b : Ball) : (s.undrive b).fuses = s.fuses := rfl
@[simp] theorem State.undrive_fields (s : State) (b : Ball) : (s.undrive b).fields = s.fields := rfl
@[simp] theorem State.undrive_inForce (s : State) (b : Ball) : (s.undrive b).inForce = s.inForce := rfl
@[simp] theorem State.undrive_cnt (s : State) (b : Ball) : (s.undrive b).cnt = s.cnt := rfl
@[simp] theorem State.undrive_cntLast (s : State) (b : Ball) : (s.undrive b).cntLast = s.cntLast := rfl
@[simp] theorem State.undrive_claims (s : State) (b : Ball) : (s.undrive b).claims = s.claims := rfl
@[simp] theorem State.undrive_store (s : State) (b : Ball) : (s.undrive b).store = s.store := rfl
@[simp] theorem State.undrive_bal (s : State) (b : Ball) : (s.undrive b).bal = s.bal := rfl
@[simp] theorem State.undrive_rx (s : State) (b : Ball) : (s.undrive b).rx = s.rx := rfl
@[simp] theorem State.undrive_chains (s : State) (b : Ball) : (s.undrive b).chains = s.chains := rfl
@[simp] theorem State.undrive_coex (s : State) (b : Ball) : (s.undrive b).coex = s.coex := rfl
@[simp] theorem State.undrive_sic (s : State) (b : Ball) : (s.undrive b).sic = s.sic := rfl
@[simp] theorem State.undrive_lanes (s : State) (b : Ball) : (s.undrive b).lanes = s.lanes := rfl
@[simp] theorem State.undrive_hif (s : State) (b : Ball) : (s.undrive b).hif = s.hif := rfl
@[simp] theorem State.undrive_mbx (s : State) (b : Ball) : (s.undrive b).mbx = s.mbx := rfl
@[simp] theorem State.undrive_chr (s : State) (b : Ball) : (s.undrive b).chr = s.chr := rfl
@[simp] theorem State.undrive_pwr (s : State) (b : Ball) : (s.undrive b).pwr = s.pwr := rfl
@[simp] theorem State.undrive_laneRecs (s : State) (b : Ball) : (s.undrive b).laneRecs = s.laneRecs := rfl
@[simp] theorem State.undrive_txDone (s : State) (b : Ball) : (s.undrive b).txDone = s.txDone := rfl
@[simp] theorem State.undrive_once (s : State) (b : Ball) : (s.undrive b).once = s.once := rfl
@[simp] theorem State.undrive_amc (s : State) (b : Ball) : (s.undrive b).amc = s.amc := rfl
@[simp] theorem State.undrive_slp (s : State) (b : Ball) : (s.undrive b).slp = s.slp := rfl
@[simp] theorem State.undrive_esc (s : State) (b : Ball) : (s.undrive b).esc = s.esc := rfl
@[simp] theorem State.undrive_fwd (s : State) (b : Ball) : (s.undrive b).fwd = s.fwd := rfl
@[simp] theorem State.undrive_ctx (s : State) (b : Ball) : (s.undrive b).ctx = s.ctx := rfl
@[simp] theorem State.undrive_jwl (s : State) (b : Ball) : (s.undrive b).jwl = s.jwl := rfl
@[simp] theorem State.undrive_eth (s : State) (b : Ball) : (s.undrive b).eth = s.eth := rfl
@[simp] theorem State.undrive_twn (s : State) (b : Ball) : (s.undrive b).twn = s.twn := rfl
@[simp] theorem State.undrive_crn (s : State) (b : Ball) : (s.undrive b).crn = s.crn := rfl
@[simp] theorem State.undrive_get (s : State) (b : Ball) (g : Fld) : (s.undrive b).get g = s.get g := rfl
@[simp] theorem State.undrive_on (s : State) (b : Ball) (g : Fld) : (s.undrive b).on g = s.on g := rfl
@[simp] theorem State.undrive_sget (s : State) (b : Ball) (g : Fld) : (s.undrive b).sget g = s.sget g := rfl
@[simp] theorem State.undrive_cur (s : State) (b : Ball) (g : Fld) : (s.undrive b).cur g = s.cur g := rfl
@[simp] theorem State.undrive_count (s : State) (b : Ball) (c : Nat) : (s.undrive b).count c = s.count c := rfl
@[simp] theorem State.setRx_pending (s : State) (b : Nat) (r : Rx) : (s.setRx b r).pending = s.pending := rfl
@[simp] theorem State.setRx_ltb (s : State) (b : Nat) (r : Rx) : (s.setRx b r).ltb = s.ltb := rfl
@[simp] theorem State.setRx_freeCtr (s : State) (b : Nat) (r : Rx) : (s.setRx b r).freeCtr = s.freeCtr := rfl
@[simp] theorem State.setRx_out (s : State) (b : Nat) (r : Rx) : (s.setRx b r).out = s.out := rfl
@[simp] theorem State.setRx_resp (s : State) (b : Nat) (r : Rx) : (s.setRx b r).resp = s.resp := rfl
@[simp] theorem State.setRx_straps (s : State) (b : Nat) (r : Rx) : (s.setRx b r).straps = s.straps := rfl
@[simp] theorem State.setRx_fuses (s : State) (b : Nat) (r : Rx) : (s.setRx b r).fuses = s.fuses := rfl
@[simp] theorem State.setRx_fields (s : State) (b : Nat) (r : Rx) : (s.setRx b r).fields = s.fields := rfl
@[simp] theorem State.setRx_inForce (s : State) (b : Nat) (r : Rx) : (s.setRx b r).inForce = s.inForce := rfl
@[simp] theorem State.setRx_cnt (s : State) (b : Nat) (r : Rx) : (s.setRx b r).cnt = s.cnt := rfl
@[simp] theorem State.setRx_cntLast (s : State) (b : Nat) (r : Rx) : (s.setRx b r).cntLast = s.cntLast := rfl
@[simp] theorem State.setRx_claims (s : State) (b : Nat) (r : Rx) : (s.setRx b r).claims = s.claims := rfl
@[simp] theorem State.setRx_pins (s : State) (b : Nat) (r : Rx) : (s.setRx b r).pins = s.pins := rfl
@[simp] theorem State.setRx_store (s : State) (b : Nat) (r : Rx) : (s.setRx b r).store = s.store := rfl
@[simp] theorem State.setRx_bal (s : State) (b : Nat) (r : Rx) : (s.setRx b r).bal = s.bal := rfl
@[simp] theorem State.setRx_chains (s : State) (b : Nat) (r : Rx) : (s.setRx b r).chains = s.chains := rfl
@[simp] theorem State.setRx_coex (s : State) (b : Nat) (r : Rx) : (s.setRx b r).coex = s.coex := rfl
@[simp] theorem State.setRx_sic (s : State) (b : Nat) (r : Rx) : (s.setRx b r).sic = s.sic := rfl
@[simp] theorem State.setRx_lanes (s : State) (b : Nat) (r : Rx) : (s.setRx b r).lanes = s.lanes := rfl
@[simp] theorem State.setRx_hif (s : State) (b : Nat) (r : Rx) : (s.setRx b r).hif = s.hif := rfl
@[simp] theorem State.setRx_mbx (s : State) (b : Nat) (r : Rx) : (s.setRx b r).mbx = s.mbx := rfl
@[simp] theorem State.setRx_chr (s : State) (b : Nat) (r : Rx) : (s.setRx b r).chr = s.chr := rfl
@[simp] theorem State.setRx_pwr (s : State) (b : Nat) (r : Rx) : (s.setRx b r).pwr = s.pwr := rfl
@[simp] theorem State.setRx_laneRecs (s : State) (b : Nat) (r : Rx) : (s.setRx b r).laneRecs = s.laneRecs := rfl
@[simp] theorem State.setRx_txDone (s : State) (b : Nat) (r : Rx) : (s.setRx b r).txDone = s.txDone := rfl
@[simp] theorem State.setRx_once (s : State) (b : Nat) (r : Rx) : (s.setRx b r).once = s.once := rfl
@[simp] theorem State.setRx_amc (s : State) (b : Nat) (r : Rx) : (s.setRx b r).amc = s.amc := rfl
@[simp] theorem State.setRx_slp (s : State) (b : Nat) (r : Rx) : (s.setRx b r).slp = s.slp := rfl
@[simp] theorem State.setRx_esc (s : State) (b : Nat) (r : Rx) : (s.setRx b r).esc = s.esc := rfl
@[simp] theorem State.setRx_fwd (s : State) (b : Nat) (r : Rx) : (s.setRx b r).fwd = s.fwd := rfl
@[simp] theorem State.setRx_ctx (s : State) (b : Nat) (r : Rx) : (s.setRx b r).ctx = s.ctx := rfl
@[simp] theorem State.setRx_jwl (s : State) (b : Nat) (r : Rx) : (s.setRx b r).jwl = s.jwl := rfl
@[simp] theorem State.setRx_eth (s : State) (b : Nat) (r : Rx) : (s.setRx b r).eth = s.eth := rfl
@[simp] theorem State.setRx_twn (s : State) (b : Nat) (r : Rx) : (s.setRx b r).twn = s.twn := rfl
@[simp] theorem State.setRx_crn (s : State) (b : Nat) (r : Rx) : (s.setRx b r).crn = s.crn := rfl
@[simp] theorem State.setRx_get (s : State) (b : Nat) (r : Rx) (g : Fld) : (s.setRx b r).get g = s.get g := rfl
@[simp] theorem State.setRx_on (s : State) (b : Nat) (r : Rx) (g : Fld) : (s.setRx b r).on g = s.on g := rfl
@[simp] theorem State.setRx_sget (s : State) (b : Nat) (r : Rx) (g : Fld) : (s.setRx b r).sget g = s.sget g := rfl
@[simp] theorem State.setRx_cur (s : State) (b : Nat) (r : Rx) (g : Fld) : (s.setRx b r).cur g = s.cur g := rfl
@[simp] theorem State.setRx_count (s : State) (b : Nat) (r : Rx) (c : Nat) : (s.setRx b r).count c = s.count c := rfl
@[simp] theorem State.onRx_pending (s : State) (b : Nat) (f : Rx → Rx) : (s.onRx b f).pending = s.pending := rfl
@[simp] theorem State.onRx_ltb (s : State) (b : Nat) (f : Rx → Rx) : (s.onRx b f).ltb = s.ltb := rfl
@[simp] theorem State.onRx_freeCtr (s : State) (b : Nat) (f : Rx → Rx) : (s.onRx b f).freeCtr = s.freeCtr := rfl
@[simp] theorem State.onRx_out (s : State) (b : Nat) (f : Rx → Rx) : (s.onRx b f).out = s.out := rfl
@[simp] theorem State.onRx_resp (s : State) (b : Nat) (f : Rx → Rx) : (s.onRx b f).resp = s.resp := rfl
@[simp] theorem State.onRx_straps (s : State) (b : Nat) (f : Rx → Rx) : (s.onRx b f).straps = s.straps := rfl
@[simp] theorem State.onRx_fuses (s : State) (b : Nat) (f : Rx → Rx) : (s.onRx b f).fuses = s.fuses := rfl
@[simp] theorem State.onRx_fields (s : State) (b : Nat) (f : Rx → Rx) : (s.onRx b f).fields = s.fields := rfl
@[simp] theorem State.onRx_inForce (s : State) (b : Nat) (f : Rx → Rx) : (s.onRx b f).inForce = s.inForce := rfl
@[simp] theorem State.onRx_cnt (s : State) (b : Nat) (f : Rx → Rx) : (s.onRx b f).cnt = s.cnt := rfl
@[simp] theorem State.onRx_cntLast (s : State) (b : Nat) (f : Rx → Rx) : (s.onRx b f).cntLast = s.cntLast := rfl
@[simp] theorem State.onRx_claims (s : State) (b : Nat) (f : Rx → Rx) : (s.onRx b f).claims = s.claims := rfl
@[simp] theorem State.onRx_pins (s : State) (b : Nat) (f : Rx → Rx) : (s.onRx b f).pins = s.pins := rfl
@[simp] theorem State.onRx_store (s : State) (b : Nat) (f : Rx → Rx) : (s.onRx b f).store = s.store := rfl
@[simp] theorem State.onRx_bal (s : State) (b : Nat) (f : Rx → Rx) : (s.onRx b f).bal = s.bal := rfl
@[simp] theorem State.onRx_chains (s : State) (b : Nat) (f : Rx → Rx) : (s.onRx b f).chains = s.chains := rfl
@[simp] theorem State.onRx_coex (s : State) (b : Nat) (f : Rx → Rx) : (s.onRx b f).coex = s.coex := rfl
@[simp] theorem State.onRx_sic (s : State) (b : Nat) (f : Rx → Rx) : (s.onRx b f).sic = s.sic := rfl
@[simp] theorem State.onRx_lanes (s : State) (b : Nat) (f : Rx → Rx) : (s.onRx b f).lanes = s.lanes := rfl
@[simp] theorem State.onRx_hif (s : State) (b : Nat) (f : Rx → Rx) : (s.onRx b f).hif = s.hif := rfl
@[simp] theorem State.onRx_mbx (s : State) (b : Nat) (f : Rx → Rx) : (s.onRx b f).mbx = s.mbx := rfl
@[simp] theorem State.onRx_chr (s : State) (b : Nat) (f : Rx → Rx) : (s.onRx b f).chr = s.chr := rfl
@[simp] theorem State.onRx_pwr (s : State) (b : Nat) (f : Rx → Rx) : (s.onRx b f).pwr = s.pwr := rfl
@[simp] theorem State.onRx_laneRecs (s : State) (b : Nat) (f : Rx → Rx) : (s.onRx b f).laneRecs = s.laneRecs := rfl
@[simp] theorem State.onRx_txDone (s : State) (b : Nat) (f : Rx → Rx) : (s.onRx b f).txDone = s.txDone := rfl
@[simp] theorem State.onRx_once (s : State) (b : Nat) (f : Rx → Rx) : (s.onRx b f).once = s.once := rfl
@[simp] theorem State.onRx_amc (s : State) (b : Nat) (f : Rx → Rx) : (s.onRx b f).amc = s.amc := rfl
@[simp] theorem State.onRx_slp (s : State) (b : Nat) (f : Rx → Rx) : (s.onRx b f).slp = s.slp := rfl
@[simp] theorem State.onRx_esc (s : State) (b : Nat) (f : Rx → Rx) : (s.onRx b f).esc = s.esc := rfl
@[simp] theorem State.onRx_fwd (s : State) (b : Nat) (f : Rx → Rx) : (s.onRx b f).fwd = s.fwd := rfl
@[simp] theorem State.onRx_ctx (s : State) (b : Nat) (f : Rx → Rx) : (s.onRx b f).ctx = s.ctx := rfl
@[simp] theorem State.onRx_jwl (s : State) (b : Nat) (f : Rx → Rx) : (s.onRx b f).jwl = s.jwl := rfl
@[simp] theorem State.onRx_eth (s : State) (b : Nat) (f : Rx → Rx) : (s.onRx b f).eth = s.eth := rfl
@[simp] theorem State.onRx_twn (s : State) (b : Nat) (f : Rx → Rx) : (s.onRx b f).twn = s.twn := rfl
@[simp] theorem State.onRx_crn (s : State) (b : Nat) (f : Rx → Rx) : (s.onRx b f).crn = s.crn := rfl
@[simp] theorem State.onRx_get (s : State) (b : Nat) (f : Rx → Rx) (g : Fld) : (s.onRx b f).get g = s.get g := rfl
@[simp] theorem State.onRx_on (s : State) (b : Nat) (f : Rx → Rx) (g : Fld) : (s.onRx b f).on g = s.on g := rfl
@[simp] theorem State.onRx_sget (s : State) (b : Nat) (f : Rx → Rx) (g : Fld) : (s.onRx b f).sget g = s.sget g := rfl
@[simp] theorem State.onRx_cur (s : State) (b : Nat) (f : Rx → Rx) (g : Fld) : (s.onRx b f).cur g = s.cur g := rfl
@[simp] theorem State.onRx_count (s : State) (b : Nat) (f : Rx → Rx) (c : Nat)
    : (s.onRx b f).count c = s.count c := rfl
@[simp] theorem State.setChain_pending (s : State) (n : Nat) (x : Chain) : (s.setChain n x).pending = s.pending := rfl
@[simp] theorem State.setChain_ltb (s : State) (n : Nat) (x : Chain) : (s.setChain n x).ltb = s.ltb := rfl
@[simp] theorem State.setChain_freeCtr (s : State) (n : Nat) (x : Chain) : (s.setChain n x).freeCtr = s.freeCtr := rfl
@[simp] theorem State.setChain_out (s : State) (n : Nat) (x : Chain) : (s.setChain n x).out = s.out := rfl
@[simp] theorem State.setChain_resp (s : State) (n : Nat) (x : Chain) : (s.setChain n x).resp = s.resp := rfl
@[simp] theorem State.setChain_straps (s : State) (n : Nat) (x : Chain) : (s.setChain n x).straps = s.straps := rfl
@[simp] theorem State.setChain_fuses (s : State) (n : Nat) (x : Chain) : (s.setChain n x).fuses = s.fuses := rfl
@[simp] theorem State.setChain_fields (s : State) (n : Nat) (x : Chain) : (s.setChain n x).fields = s.fields := rfl
@[simp] theorem State.setChain_inForce (s : State) (n : Nat) (x : Chain) : (s.setChain n x).inForce = s.inForce := rfl
@[simp] theorem State.setChain_cnt (s : State) (n : Nat) (x : Chain) : (s.setChain n x).cnt = s.cnt := rfl
@[simp] theorem State.setChain_cntLast (s : State) (n : Nat) (x : Chain) : (s.setChain n x).cntLast = s.cntLast := rfl
@[simp] theorem State.setChain_claims (s : State) (n : Nat) (x : Chain) : (s.setChain n x).claims = s.claims := rfl
@[simp] theorem State.setChain_pins (s : State) (n : Nat) (x : Chain) : (s.setChain n x).pins = s.pins := rfl
@[simp] theorem State.setChain_store (s : State) (n : Nat) (x : Chain) : (s.setChain n x).store = s.store := rfl
@[simp] theorem State.setChain_bal (s : State) (n : Nat) (x : Chain) : (s.setChain n x).bal = s.bal := rfl
@[simp] theorem State.setChain_rx (s : State) (n : Nat) (x : Chain) : (s.setChain n x).rx = s.rx := rfl
@[simp] theorem State.setChain_coex (s : State) (n : Nat) (x : Chain) : (s.setChain n x).coex = s.coex := rfl
@[simp] theorem State.setChain_sic (s : State) (n : Nat) (x : Chain) : (s.setChain n x).sic = s.sic := rfl
@[simp] theorem State.setChain_lanes (s : State) (n : Nat) (x : Chain) : (s.setChain n x).lanes = s.lanes := rfl
@[simp] theorem State.setChain_hif (s : State) (n : Nat) (x : Chain) : (s.setChain n x).hif = s.hif := rfl
@[simp] theorem State.setChain_mbx (s : State) (n : Nat) (x : Chain) : (s.setChain n x).mbx = s.mbx := rfl
@[simp] theorem State.setChain_chr (s : State) (n : Nat) (x : Chain) : (s.setChain n x).chr = s.chr := rfl
@[simp] theorem State.setChain_pwr (s : State) (n : Nat) (x : Chain) : (s.setChain n x).pwr = s.pwr := rfl
@[simp] theorem State.setChain_laneRecs (s : State) (n : Nat) (x : Chain)
    : (s.setChain n x).laneRecs = s.laneRecs := rfl
@[simp] theorem State.setChain_txDone (s : State) (n : Nat) (x : Chain) : (s.setChain n x).txDone = s.txDone := rfl
@[simp] theorem State.setChain_once (s : State) (n : Nat) (x : Chain) : (s.setChain n x).once = s.once := rfl
@[simp] theorem State.setChain_amc (s : State) (n : Nat) (x : Chain) : (s.setChain n x).amc = s.amc := rfl
@[simp] theorem State.setChain_slp (s : State) (n : Nat) (x : Chain) : (s.setChain n x).slp = s.slp := rfl
@[simp] theorem State.setChain_esc (s : State) (n : Nat) (x : Chain) : (s.setChain n x).esc = s.esc := rfl
@[simp] theorem State.setChain_fwd (s : State) (n : Nat) (x : Chain) : (s.setChain n x).fwd = s.fwd := rfl
@[simp] theorem State.setChain_ctx (s : State) (n : Nat) (x : Chain) : (s.setChain n x).ctx = s.ctx := rfl
@[simp] theorem State.setChain_jwl (s : State) (n : Nat) (x : Chain) : (s.setChain n x).jwl = s.jwl := rfl
@[simp] theorem State.setChain_eth (s : State) (n : Nat) (x : Chain) : (s.setChain n x).eth = s.eth := rfl
@[simp] theorem State.setChain_twn (s : State) (n : Nat) (x : Chain) : (s.setChain n x).twn = s.twn := rfl
@[simp] theorem State.setChain_crn (s : State) (n : Nat) (x : Chain) : (s.setChain n x).crn = s.crn := rfl
@[simp] theorem State.setChain_get (s : State) (n : Nat) (x : Chain) (g : Fld)
    : (s.setChain n x).get g = s.get g := rfl
@[simp] theorem State.setChain_on (s : State) (n : Nat) (x : Chain) (g : Fld) : (s.setChain n x).on g = s.on g := rfl
@[simp] theorem State.setChain_sget (s : State) (n : Nat) (x : Chain) (g : Fld)
    : (s.setChain n x).sget g = s.sget g := rfl
@[simp] theorem State.setChain_cur (s : State) (n : Nat) (x : Chain) (g : Fld)
    : (s.setChain n x).cur g = s.cur g := rfl
@[simp] theorem State.setChain_count (s : State) (n : Nat) (x : Chain) (c : Nat)
    : (s.setChain n x).count c = s.count c := rfl
@[simp] theorem State.onChain_pending (s : State) (n : Nat) (f : Chain → Chain)
    : (s.onChain n f).pending = s.pending := rfl
@[simp] theorem State.onChain_ltb (s : State) (n : Nat) (f : Chain → Chain) : (s.onChain n f).ltb = s.ltb := rfl
@[simp] theorem State.onChain_freeCtr (s : State) (n : Nat) (f : Chain → Chain)
    : (s.onChain n f).freeCtr = s.freeCtr := rfl
@[simp] theorem State.onChain_out (s : State) (n : Nat) (f : Chain → Chain) : (s.onChain n f).out = s.out := rfl
@[simp] theorem State.onChain_resp (s : State) (n : Nat) (f : Chain → Chain) : (s.onChain n f).resp = s.resp := rfl
@[simp] theorem State.onChain_straps (s : State) (n : Nat) (f : Chain → Chain)
    : (s.onChain n f).straps = s.straps := rfl
@[simp] theorem State.onChain_fuses (s : State) (n : Nat) (f : Chain → Chain) : (s.onChain n f).fuses = s.fuses := rfl
@[simp] theorem State.onChain_fields (s : State) (n : Nat) (f : Chain → Chain)
    : (s.onChain n f).fields = s.fields := rfl
@[simp] theorem State.onChain_inForce (s : State) (n : Nat) (f : Chain → Chain)
    : (s.onChain n f).inForce = s.inForce := rfl
@[simp] theorem State.onChain_cnt (s : State) (n : Nat) (f : Chain → Chain) : (s.onChain n f).cnt = s.cnt := rfl
@[simp] theorem State.onChain_cntLast (s : State) (n : Nat) (f : Chain → Chain)
    : (s.onChain n f).cntLast = s.cntLast := rfl
@[simp] theorem State.onChain_claims (s : State) (n : Nat) (f : Chain → Chain)
    : (s.onChain n f).claims = s.claims := rfl
@[simp] theorem State.onChain_pins (s : State) (n : Nat) (f : Chain → Chain) : (s.onChain n f).pins = s.pins := rfl
@[simp] theorem State.onChain_store (s : State) (n : Nat) (f : Chain → Chain) : (s.onChain n f).store = s.store := rfl
@[simp] theorem State.onChain_bal (s : State) (n : Nat) (f : Chain → Chain) : (s.onChain n f).bal = s.bal := rfl
@[simp] theorem State.onChain_rx (s : State) (n : Nat) (f : Chain → Chain) : (s.onChain n f).rx = s.rx := rfl
@[simp] theorem State.onChain_coex (s : State) (n : Nat) (f : Chain → Chain) : (s.onChain n f).coex = s.coex := rfl
@[simp] theorem State.onChain_sic (s : State) (n : Nat) (f : Chain → Chain) : (s.onChain n f).sic = s.sic := rfl
@[simp] theorem State.onChain_lanes (s : State) (n : Nat) (f : Chain → Chain) : (s.onChain n f).lanes = s.lanes := rfl
@[simp] theorem State.onChain_hif (s : State) (n : Nat) (f : Chain → Chain) : (s.onChain n f).hif = s.hif := rfl
@[simp] theorem State.onChain_mbx (s : State) (n : Nat) (f : Chain → Chain) : (s.onChain n f).mbx = s.mbx := rfl
@[simp] theorem State.onChain_chr (s : State) (n : Nat) (f : Chain → Chain) : (s.onChain n f).chr = s.chr := rfl
@[simp] theorem State.onChain_pwr (s : State) (n : Nat) (f : Chain → Chain) : (s.onChain n f).pwr = s.pwr := rfl
@[simp] theorem State.onChain_laneRecs (s : State) (n : Nat) (f : Chain → Chain)
    : (s.onChain n f).laneRecs = s.laneRecs := rfl
@[simp] theorem State.onChain_txDone (s : State) (n : Nat) (f : Chain → Chain)
    : (s.onChain n f).txDone = s.txDone := rfl
@[simp] theorem State.onChain_once (s : State) (n : Nat) (f : Chain → Chain) : (s.onChain n f).once = s.once := rfl
@[simp] theorem State.onChain_amc (s : State) (n : Nat) (f : Chain → Chain) : (s.onChain n f).amc = s.amc := rfl
@[simp] theorem State.onChain_slp (s : State) (n : Nat) (f : Chain → Chain) : (s.onChain n f).slp = s.slp := rfl
@[simp] theorem State.onChain_esc (s : State) (n : Nat) (f : Chain → Chain) : (s.onChain n f).esc = s.esc := rfl
@[simp] theorem State.onChain_fwd (s : State) (n : Nat) (f : Chain → Chain) : (s.onChain n f).fwd = s.fwd := rfl
@[simp] theorem State.onChain_ctx (s : State) (n : Nat) (f : Chain → Chain) : (s.onChain n f).ctx = s.ctx := rfl
@[simp] theorem State.onChain_jwl (s : State) (n : Nat) (f : Chain → Chain) : (s.onChain n f).jwl = s.jwl := rfl
@[simp] theorem State.onChain_eth (s : State) (n : Nat) (f : Chain → Chain) : (s.onChain n f).eth = s.eth := rfl
@[simp] theorem State.onChain_twn (s : State) (n : Nat) (f : Chain → Chain) : (s.onChain n f).twn = s.twn := rfl
@[simp] theorem State.onChain_crn (s : State) (n : Nat) (f : Chain → Chain) : (s.onChain n f).crn = s.crn := rfl
@[simp] theorem State.onChain_get (s : State) (n : Nat) (f : Chain → Chain) (g : Fld)
    : (s.onChain n f).get g = s.get g := rfl
@[simp] theorem State.onChain_on (s : State) (n : Nat) (f : Chain → Chain) (g : Fld)
    : (s.onChain n f).on g = s.on g := rfl
@[simp] theorem State.onChain_sget (s : State) (n : Nat) (f : Chain → Chain) (g : Fld)
    : (s.onChain n f).sget g = s.sget g := rfl
@[simp] theorem State.onChain_cur (s : State) (n : Nat) (f : Chain → Chain) (g : Fld)
    : (s.onChain n f).cur g = s.cur g := rfl
@[simp] theorem State.onChain_count (s : State) (n : Nat) (f : Chain → Chain) (c : Nat)
    : (s.onChain n f).count c = s.count c := rfl
@[simp] theorem State.setLane_pending (s : State) (n : Nat) (l : Lane) : (s.setLane n l).pending = s.pending := rfl
@[simp] theorem State.setLane_ltb (s : State) (n : Nat) (l : Lane) : (s.setLane n l).ltb = s.ltb := rfl
@[simp] theorem State.setLane_freeCtr (s : State) (n : Nat) (l : Lane) : (s.setLane n l).freeCtr = s.freeCtr := rfl
@[simp] theorem State.setLane_out (s : State) (n : Nat) (l : Lane) : (s.setLane n l).out = s.out := rfl
@[simp] theorem State.setLane_resp (s : State) (n : Nat) (l : Lane) : (s.setLane n l).resp = s.resp := rfl
@[simp] theorem State.setLane_straps (s : State) (n : Nat) (l : Lane) : (s.setLane n l).straps = s.straps := rfl
@[simp] theorem State.setLane_fuses (s : State) (n : Nat) (l : Lane) : (s.setLane n l).fuses = s.fuses := rfl
@[simp] theorem State.setLane_fields (s : State) (n : Nat) (l : Lane) : (s.setLane n l).fields = s.fields := rfl
@[simp] theorem State.setLane_inForce (s : State) (n : Nat) (l : Lane) : (s.setLane n l).inForce = s.inForce := rfl
@[simp] theorem State.setLane_cnt (s : State) (n : Nat) (l : Lane) : (s.setLane n l).cnt = s.cnt := rfl
@[simp] theorem State.setLane_cntLast (s : State) (n : Nat) (l : Lane) : (s.setLane n l).cntLast = s.cntLast := rfl
@[simp] theorem State.setLane_claims (s : State) (n : Nat) (l : Lane) : (s.setLane n l).claims = s.claims := rfl
@[simp] theorem State.setLane_pins (s : State) (n : Nat) (l : Lane) : (s.setLane n l).pins = s.pins := rfl
@[simp] theorem State.setLane_store (s : State) (n : Nat) (l : Lane) : (s.setLane n l).store = s.store := rfl
@[simp] theorem State.setLane_bal (s : State) (n : Nat) (l : Lane) : (s.setLane n l).bal = s.bal := rfl
@[simp] theorem State.setLane_rx (s : State) (n : Nat) (l : Lane) : (s.setLane n l).rx = s.rx := rfl
@[simp] theorem State.setLane_chains (s : State) (n : Nat) (l : Lane) : (s.setLane n l).chains = s.chains := rfl
@[simp] theorem State.setLane_coex (s : State) (n : Nat) (l : Lane) : (s.setLane n l).coex = s.coex := rfl
@[simp] theorem State.setLane_sic (s : State) (n : Nat) (l : Lane) : (s.setLane n l).sic = s.sic := rfl
@[simp] theorem State.setLane_hif (s : State) (n : Nat) (l : Lane) : (s.setLane n l).hif = s.hif := rfl
@[simp] theorem State.setLane_mbx (s : State) (n : Nat) (l : Lane) : (s.setLane n l).mbx = s.mbx := rfl
@[simp] theorem State.setLane_chr (s : State) (n : Nat) (l : Lane) : (s.setLane n l).chr = s.chr := rfl
@[simp] theorem State.setLane_pwr (s : State) (n : Nat) (l : Lane) : (s.setLane n l).pwr = s.pwr := rfl
@[simp] theorem State.setLane_laneRecs (s : State) (n : Nat) (l : Lane) : (s.setLane n l).laneRecs = s.laneRecs := rfl
@[simp] theorem State.setLane_txDone (s : State) (n : Nat) (l : Lane) : (s.setLane n l).txDone = s.txDone := rfl
@[simp] theorem State.setLane_once (s : State) (n : Nat) (l : Lane) : (s.setLane n l).once = s.once := rfl
@[simp] theorem State.setLane_amc (s : State) (n : Nat) (l : Lane) : (s.setLane n l).amc = s.amc := rfl
@[simp] theorem State.setLane_slp (s : State) (n : Nat) (l : Lane) : (s.setLane n l).slp = s.slp := rfl
@[simp] theorem State.setLane_esc (s : State) (n : Nat) (l : Lane) : (s.setLane n l).esc = s.esc := rfl
@[simp] theorem State.setLane_fwd (s : State) (n : Nat) (l : Lane) : (s.setLane n l).fwd = s.fwd := rfl
@[simp] theorem State.setLane_ctx (s : State) (n : Nat) (l : Lane) : (s.setLane n l).ctx = s.ctx := rfl
@[simp] theorem State.setLane_jwl (s : State) (n : Nat) (l : Lane) : (s.setLane n l).jwl = s.jwl := rfl
@[simp] theorem State.setLane_eth (s : State) (n : Nat) (l : Lane) : (s.setLane n l).eth = s.eth := rfl
@[simp] theorem State.setLane_twn (s : State) (n : Nat) (l : Lane) : (s.setLane n l).twn = s.twn := rfl
@[simp] theorem State.setLane_crn (s : State) (n : Nat) (l : Lane) : (s.setLane n l).crn = s.crn := rfl
@[simp] theorem State.setLane_get (s : State) (n : Nat) (l : Lane) (g : Fld) : (s.setLane n l).get g = s.get g := rfl
@[simp] theorem State.setLane_on (s : State) (n : Nat) (l : Lane) (g : Fld) : (s.setLane n l).on g = s.on g := rfl
@[simp] theorem State.setLane_sget (s : State) (n : Nat) (l : Lane) (g : Fld)
    : (s.setLane n l).sget g = s.sget g := rfl
@[simp] theorem State.setLane_cur (s : State) (n : Nat) (l : Lane) (g : Fld) : (s.setLane n l).cur g = s.cur g := rfl
@[simp] theorem State.setLane_count (s : State) (n : Nat) (l : Lane) (c : Nat)
    : (s.setLane n l).count c = s.count c := rfl
@[simp] theorem State.onLane_pending (s : State) (n : Nat) (f : Lane → Lane)
    : (s.onLane n f).pending = s.pending := rfl
@[simp] theorem State.onLane_ltb (s : State) (n : Nat) (f : Lane → Lane) : (s.onLane n f).ltb = s.ltb := rfl
@[simp] theorem State.onLane_freeCtr (s : State) (n : Nat) (f : Lane → Lane)
    : (s.onLane n f).freeCtr = s.freeCtr := rfl
@[simp] theorem State.onLane_out (s : State) (n : Nat) (f : Lane → Lane) : (s.onLane n f).out = s.out := rfl
@[simp] theorem State.onLane_resp (s : State) (n : Nat) (f : Lane → Lane) : (s.onLane n f).resp = s.resp := rfl
@[simp] theorem State.onLane_straps (s : State) (n : Nat) (f : Lane → Lane) : (s.onLane n f).straps = s.straps := rfl
@[simp] theorem State.onLane_fuses (s : State) (n : Nat) (f : Lane → Lane) : (s.onLane n f).fuses = s.fuses := rfl
@[simp] theorem State.onLane_fields (s : State) (n : Nat) (f : Lane → Lane) : (s.onLane n f).fields = s.fields := rfl
@[simp] theorem State.onLane_inForce (s : State) (n : Nat) (f : Lane → Lane)
    : (s.onLane n f).inForce = s.inForce := rfl
@[simp] theorem State.onLane_cnt (s : State) (n : Nat) (f : Lane → Lane) : (s.onLane n f).cnt = s.cnt := rfl
@[simp] theorem State.onLane_cntLast (s : State) (n : Nat) (f : Lane → Lane)
    : (s.onLane n f).cntLast = s.cntLast := rfl
@[simp] theorem State.onLane_claims (s : State) (n : Nat) (f : Lane → Lane) : (s.onLane n f).claims = s.claims := rfl
@[simp] theorem State.onLane_pins (s : State) (n : Nat) (f : Lane → Lane) : (s.onLane n f).pins = s.pins := rfl
@[simp] theorem State.onLane_store (s : State) (n : Nat) (f : Lane → Lane) : (s.onLane n f).store = s.store := rfl
@[simp] theorem State.onLane_bal (s : State) (n : Nat) (f : Lane → Lane) : (s.onLane n f).bal = s.bal := rfl
@[simp] theorem State.onLane_rx (s : State) (n : Nat) (f : Lane → Lane) : (s.onLane n f).rx = s.rx := rfl
@[simp] theorem State.onLane_chains (s : State) (n : Nat) (f : Lane → Lane) : (s.onLane n f).chains = s.chains := rfl
@[simp] theorem State.onLane_coex (s : State) (n : Nat) (f : Lane → Lane) : (s.onLane n f).coex = s.coex := rfl
@[simp] theorem State.onLane_sic (s : State) (n : Nat) (f : Lane → Lane) : (s.onLane n f).sic = s.sic := rfl
@[simp] theorem State.onLane_hif (s : State) (n : Nat) (f : Lane → Lane) : (s.onLane n f).hif = s.hif := rfl
@[simp] theorem State.onLane_mbx (s : State) (n : Nat) (f : Lane → Lane) : (s.onLane n f).mbx = s.mbx := rfl
@[simp] theorem State.onLane_chr (s : State) (n : Nat) (f : Lane → Lane) : (s.onLane n f).chr = s.chr := rfl
@[simp] theorem State.onLane_pwr (s : State) (n : Nat) (f : Lane → Lane) : (s.onLane n f).pwr = s.pwr := rfl
@[simp] theorem State.onLane_laneRecs (s : State) (n : Nat) (f : Lane → Lane)
    : (s.onLane n f).laneRecs = s.laneRecs := rfl
@[simp] theorem State.onLane_txDone (s : State) (n : Nat) (f : Lane → Lane) : (s.onLane n f).txDone = s.txDone := rfl
@[simp] theorem State.onLane_once (s : State) (n : Nat) (f : Lane → Lane) : (s.onLane n f).once = s.once := rfl
@[simp] theorem State.onLane_amc (s : State) (n : Nat) (f : Lane → Lane) : (s.onLane n f).amc = s.amc := rfl
@[simp] theorem State.onLane_slp (s : State) (n : Nat) (f : Lane → Lane) : (s.onLane n f).slp = s.slp := rfl
@[simp] theorem State.onLane_esc (s : State) (n : Nat) (f : Lane → Lane) : (s.onLane n f).esc = s.esc := rfl
@[simp] theorem State.onLane_fwd (s : State) (n : Nat) (f : Lane → Lane) : (s.onLane n f).fwd = s.fwd := rfl
@[simp] theorem State.onLane_ctx (s : State) (n : Nat) (f : Lane → Lane) : (s.onLane n f).ctx = s.ctx := rfl
@[simp] theorem State.onLane_jwl (s : State) (n : Nat) (f : Lane → Lane) : (s.onLane n f).jwl = s.jwl := rfl
@[simp] theorem State.onLane_eth (s : State) (n : Nat) (f : Lane → Lane) : (s.onLane n f).eth = s.eth := rfl
@[simp] theorem State.onLane_twn (s : State) (n : Nat) (f : Lane → Lane) : (s.onLane n f).twn = s.twn := rfl
@[simp] theorem State.onLane_crn (s : State) (n : Nat) (f : Lane → Lane) : (s.onLane n f).crn = s.crn := rfl
@[simp] theorem State.onLane_get (s : State) (n : Nat) (f : Lane → Lane) (g : Fld)
    : (s.onLane n f).get g = s.get g := rfl
@[simp] theorem State.onLane_on (s : State) (n : Nat) (f : Lane → Lane) (g : Fld)
    : (s.onLane n f).on g = s.on g := rfl
@[simp] theorem State.onLane_sget (s : State) (n : Nat) (f : Lane → Lane) (g : Fld)
    : (s.onLane n f).sget g = s.sget g := rfl
@[simp] theorem State.onLane_cur (s : State) (n : Nat) (f : Lane → Lane) (g : Fld)
    : (s.onLane n f).cur g = s.cur g := rfl
@[simp] theorem State.onLane_count (s : State) (n : Nat) (f : Lane → Lane) (c : Nat)
    : (s.onLane n f).count c = s.count c := rfl
@[simp] theorem State.setRing_pending (s : State) (r : Nat) (x : Ring) : (s.setRing r x).pending = s.pending := rfl
@[simp] theorem State.setRing_ltb (s : State) (r : Nat) (x : Ring) : (s.setRing r x).ltb = s.ltb := rfl
@[simp] theorem State.setRing_freeCtr (s : State) (r : Nat) (x : Ring) : (s.setRing r x).freeCtr = s.freeCtr := rfl
@[simp] theorem State.setRing_out (s : State) (r : Nat) (x : Ring) : (s.setRing r x).out = s.out := rfl
@[simp] theorem State.setRing_resp (s : State) (r : Nat) (x : Ring) : (s.setRing r x).resp = s.resp := rfl
@[simp] theorem State.setRing_straps (s : State) (r : Nat) (x : Ring) : (s.setRing r x).straps = s.straps := rfl
@[simp] theorem State.setRing_fuses (s : State) (r : Nat) (x : Ring) : (s.setRing r x).fuses = s.fuses := rfl
@[simp] theorem State.setRing_fields (s : State) (r : Nat) (x : Ring) : (s.setRing r x).fields = s.fields := rfl
@[simp] theorem State.setRing_inForce (s : State) (r : Nat) (x : Ring) : (s.setRing r x).inForce = s.inForce := rfl
@[simp] theorem State.setRing_cnt (s : State) (r : Nat) (x : Ring) : (s.setRing r x).cnt = s.cnt := rfl
@[simp] theorem State.setRing_cntLast (s : State) (r : Nat) (x : Ring) : (s.setRing r x).cntLast = s.cntLast := rfl
@[simp] theorem State.setRing_claims (s : State) (r : Nat) (x : Ring) : (s.setRing r x).claims = s.claims := rfl
@[simp] theorem State.setRing_pins (s : State) (r : Nat) (x : Ring) : (s.setRing r x).pins = s.pins := rfl
@[simp] theorem State.setRing_store (s : State) (r : Nat) (x : Ring) : (s.setRing r x).store = s.store := rfl
@[simp] theorem State.setRing_bal (s : State) (r : Nat) (x : Ring) : (s.setRing r x).bal = s.bal := rfl
@[simp] theorem State.setRing_rx (s : State) (r : Nat) (x : Ring) : (s.setRing r x).rx = s.rx := rfl
@[simp] theorem State.setRing_chains (s : State) (r : Nat) (x : Ring) : (s.setRing r x).chains = s.chains := rfl
@[simp] theorem State.setRing_coex (s : State) (r : Nat) (x : Ring) : (s.setRing r x).coex = s.coex := rfl
@[simp] theorem State.setRing_sic (s : State) (r : Nat) (x : Ring) : (s.setRing r x).sic = s.sic := rfl
@[simp] theorem State.setRing_lanes (s : State) (r : Nat) (x : Ring) : (s.setRing r x).lanes = s.lanes := rfl
@[simp] theorem State.setRing_mbx (s : State) (r : Nat) (x : Ring) : (s.setRing r x).mbx = s.mbx := rfl
@[simp] theorem State.setRing_chr (s : State) (r : Nat) (x : Ring) : (s.setRing r x).chr = s.chr := rfl
@[simp] theorem State.setRing_pwr (s : State) (r : Nat) (x : Ring) : (s.setRing r x).pwr = s.pwr := rfl
@[simp] theorem State.setRing_laneRecs (s : State) (r : Nat) (x : Ring) : (s.setRing r x).laneRecs = s.laneRecs := rfl
@[simp] theorem State.setRing_txDone (s : State) (r : Nat) (x : Ring) : (s.setRing r x).txDone = s.txDone := rfl
@[simp] theorem State.setRing_once (s : State) (r : Nat) (x : Ring) : (s.setRing r x).once = s.once := rfl
@[simp] theorem State.setRing_amc (s : State) (r : Nat) (x : Ring) : (s.setRing r x).amc = s.amc := rfl
@[simp] theorem State.setRing_slp (s : State) (r : Nat) (x : Ring) : (s.setRing r x).slp = s.slp := rfl
@[simp] theorem State.setRing_esc (s : State) (r : Nat) (x : Ring) : (s.setRing r x).esc = s.esc := rfl
@[simp] theorem State.setRing_fwd (s : State) (r : Nat) (x : Ring) : (s.setRing r x).fwd = s.fwd := rfl
@[simp] theorem State.setRing_ctx (s : State) (r : Nat) (x : Ring) : (s.setRing r x).ctx = s.ctx := rfl
@[simp] theorem State.setRing_jwl (s : State) (r : Nat) (x : Ring) : (s.setRing r x).jwl = s.jwl := rfl
@[simp] theorem State.setRing_eth (s : State) (r : Nat) (x : Ring) : (s.setRing r x).eth = s.eth := rfl
@[simp] theorem State.setRing_twn (s : State) (r : Nat) (x : Ring) : (s.setRing r x).twn = s.twn := rfl
@[simp] theorem State.setRing_crn (s : State) (r : Nat) (x : Ring) : (s.setRing r x).crn = s.crn := rfl
@[simp] theorem State.setRing_get (s : State) (r : Nat) (x : Ring) (g : Fld) : (s.setRing r x).get g = s.get g := rfl
@[simp] theorem State.setRing_on (s : State) (r : Nat) (x : Ring) (g : Fld) : (s.setRing r x).on g = s.on g := rfl
@[simp] theorem State.setRing_sget (s : State) (r : Nat) (x : Ring) (g : Fld)
    : (s.setRing r x).sget g = s.sget g := rfl
@[simp] theorem State.setRing_cur (s : State) (r : Nat) (x : Ring) (g : Fld) : (s.setRing r x).cur g = s.cur g := rfl
@[simp] theorem State.setRing_count (s : State) (r : Nat) (x : Ring) (c : Nat)
    : (s.setRing r x).count c = s.count c := rfl
@[simp] theorem State.onRing_pending (s : State) (r : Nat) (f : Ring → Ring)
    : (s.onRing r f).pending = s.pending := rfl
@[simp] theorem State.onRing_ltb (s : State) (r : Nat) (f : Ring → Ring) : (s.onRing r f).ltb = s.ltb := rfl
@[simp] theorem State.onRing_freeCtr (s : State) (r : Nat) (f : Ring → Ring)
    : (s.onRing r f).freeCtr = s.freeCtr := rfl
@[simp] theorem State.onRing_out (s : State) (r : Nat) (f : Ring → Ring) : (s.onRing r f).out = s.out := rfl
@[simp] theorem State.onRing_resp (s : State) (r : Nat) (f : Ring → Ring) : (s.onRing r f).resp = s.resp := rfl
@[simp] theorem State.onRing_straps (s : State) (r : Nat) (f : Ring → Ring) : (s.onRing r f).straps = s.straps := rfl
@[simp] theorem State.onRing_fuses (s : State) (r : Nat) (f : Ring → Ring) : (s.onRing r f).fuses = s.fuses := rfl
@[simp] theorem State.onRing_fields (s : State) (r : Nat) (f : Ring → Ring) : (s.onRing r f).fields = s.fields := rfl
@[simp] theorem State.onRing_inForce (s : State) (r : Nat) (f : Ring → Ring)
    : (s.onRing r f).inForce = s.inForce := rfl
@[simp] theorem State.onRing_cnt (s : State) (r : Nat) (f : Ring → Ring) : (s.onRing r f).cnt = s.cnt := rfl
@[simp] theorem State.onRing_cntLast (s : State) (r : Nat) (f : Ring → Ring)
    : (s.onRing r f).cntLast = s.cntLast := rfl
@[simp] theorem State.onRing_claims (s : State) (r : Nat) (f : Ring → Ring) : (s.onRing r f).claims = s.claims := rfl
@[simp] theorem State.onRing_pins (s : State) (r : Nat) (f : Ring → Ring) : (s.onRing r f).pins = s.pins := rfl
@[simp] theorem State.onRing_store (s : State) (r : Nat) (f : Ring → Ring) : (s.onRing r f).store = s.store := rfl
@[simp] theorem State.onRing_bal (s : State) (r : Nat) (f : Ring → Ring) : (s.onRing r f).bal = s.bal := rfl
@[simp] theorem State.onRing_rx (s : State) (r : Nat) (f : Ring → Ring) : (s.onRing r f).rx = s.rx := rfl
@[simp] theorem State.onRing_chains (s : State) (r : Nat) (f : Ring → Ring) : (s.onRing r f).chains = s.chains := rfl
@[simp] theorem State.onRing_coex (s : State) (r : Nat) (f : Ring → Ring) : (s.onRing r f).coex = s.coex := rfl
@[simp] theorem State.onRing_sic (s : State) (r : Nat) (f : Ring → Ring) : (s.onRing r f).sic = s.sic := rfl
@[simp] theorem State.onRing_lanes (s : State) (r : Nat) (f : Ring → Ring) : (s.onRing r f).lanes = s.lanes := rfl
@[simp] theorem State.onRing_mbx (s : State) (r : Nat) (f : Ring → Ring) : (s.onRing r f).mbx = s.mbx := rfl
@[simp] theorem State.onRing_chr (s : State) (r : Nat) (f : Ring → Ring) : (s.onRing r f).chr = s.chr := rfl
@[simp] theorem State.onRing_pwr (s : State) (r : Nat) (f : Ring → Ring) : (s.onRing r f).pwr = s.pwr := rfl
@[simp] theorem State.onRing_laneRecs (s : State) (r : Nat) (f : Ring → Ring)
    : (s.onRing r f).laneRecs = s.laneRecs := rfl
@[simp] theorem State.onRing_txDone (s : State) (r : Nat) (f : Ring → Ring) : (s.onRing r f).txDone = s.txDone := rfl
@[simp] theorem State.onRing_once (s : State) (r : Nat) (f : Ring → Ring) : (s.onRing r f).once = s.once := rfl
@[simp] theorem State.onRing_amc (s : State) (r : Nat) (f : Ring → Ring) : (s.onRing r f).amc = s.amc := rfl
@[simp] theorem State.onRing_slp (s : State) (r : Nat) (f : Ring → Ring) : (s.onRing r f).slp = s.slp := rfl
@[simp] theorem State.onRing_esc (s : State) (r : Nat) (f : Ring → Ring) : (s.onRing r f).esc = s.esc := rfl
@[simp] theorem State.onRing_fwd (s : State) (r : Nat) (f : Ring → Ring) : (s.onRing r f).fwd = s.fwd := rfl
@[simp] theorem State.onRing_ctx (s : State) (r : Nat) (f : Ring → Ring) : (s.onRing r f).ctx = s.ctx := rfl
@[simp] theorem State.onRing_jwl (s : State) (r : Nat) (f : Ring → Ring) : (s.onRing r f).jwl = s.jwl := rfl
@[simp] theorem State.onRing_eth (s : State) (r : Nat) (f : Ring → Ring) : (s.onRing r f).eth = s.eth := rfl
@[simp] theorem State.onRing_twn (s : State) (r : Nat) (f : Ring → Ring) : (s.onRing r f).twn = s.twn := rfl
@[simp] theorem State.onRing_crn (s : State) (r : Nat) (f : Ring → Ring) : (s.onRing r f).crn = s.crn := rfl
@[simp] theorem State.onRing_get (s : State) (r : Nat) (f : Ring → Ring) (g : Fld)
    : (s.onRing r f).get g = s.get g := rfl
@[simp] theorem State.onRing_on (s : State) (r : Nat) (f : Ring → Ring) (g : Fld)
    : (s.onRing r f).on g = s.on g := rfl
@[simp] theorem State.onRing_sget (s : State) (r : Nat) (f : Ring → Ring) (g : Fld)
    : (s.onRing r f).sget g = s.sget g := rfl
@[simp] theorem State.onRing_cur (s : State) (r : Nat) (f : Ring → Ring) (g : Fld)
    : (s.onRing r f).cur g = s.cur g := rfl
@[simp] theorem State.onRing_count (s : State) (r : Nat) (f : Ring → Ring) (c : Nat)
    : (s.onRing r f).count c = s.count c := rfl
@[simp] theorem State.setTt_pending (s : State) (n : Nat) (x : TtState) : (s.setTt n x).pending = s.pending := rfl
@[simp] theorem State.setTt_ltb (s : State) (n : Nat) (x : TtState) : (s.setTt n x).ltb = s.ltb := rfl
@[simp] theorem State.setTt_freeCtr (s : State) (n : Nat) (x : TtState) : (s.setTt n x).freeCtr = s.freeCtr := rfl
@[simp] theorem State.setTt_out (s : State) (n : Nat) (x : TtState) : (s.setTt n x).out = s.out := rfl
@[simp] theorem State.setTt_resp (s : State) (n : Nat) (x : TtState) : (s.setTt n x).resp = s.resp := rfl
@[simp] theorem State.setTt_straps (s : State) (n : Nat) (x : TtState) : (s.setTt n x).straps = s.straps := rfl
@[simp] theorem State.setTt_fuses (s : State) (n : Nat) (x : TtState) : (s.setTt n x).fuses = s.fuses := rfl
@[simp] theorem State.setTt_fields (s : State) (n : Nat) (x : TtState) : (s.setTt n x).fields = s.fields := rfl
@[simp] theorem State.setTt_inForce (s : State) (n : Nat) (x : TtState) : (s.setTt n x).inForce = s.inForce := rfl
@[simp] theorem State.setTt_cnt (s : State) (n : Nat) (x : TtState) : (s.setTt n x).cnt = s.cnt := rfl
@[simp] theorem State.setTt_cntLast (s : State) (n : Nat) (x : TtState) : (s.setTt n x).cntLast = s.cntLast := rfl
@[simp] theorem State.setTt_claims (s : State) (n : Nat) (x : TtState) : (s.setTt n x).claims = s.claims := rfl
@[simp] theorem State.setTt_pins (s : State) (n : Nat) (x : TtState) : (s.setTt n x).pins = s.pins := rfl
@[simp] theorem State.setTt_store (s : State) (n : Nat) (x : TtState) : (s.setTt n x).store = s.store := rfl
@[simp] theorem State.setTt_rx (s : State) (n : Nat) (x : TtState) : (s.setTt n x).rx = s.rx := rfl
@[simp] theorem State.setTt_chains (s : State) (n : Nat) (x : TtState) : (s.setTt n x).chains = s.chains := rfl
@[simp] theorem State.setTt_coex (s : State) (n : Nat) (x : TtState) : (s.setTt n x).coex = s.coex := rfl
@[simp] theorem State.setTt_sic (s : State) (n : Nat) (x : TtState) : (s.setTt n x).sic = s.sic := rfl
@[simp] theorem State.setTt_lanes (s : State) (n : Nat) (x : TtState) : (s.setTt n x).lanes = s.lanes := rfl
@[simp] theorem State.setTt_hif (s : State) (n : Nat) (x : TtState) : (s.setTt n x).hif = s.hif := rfl
@[simp] theorem State.setTt_mbx (s : State) (n : Nat) (x : TtState) : (s.setTt n x).mbx = s.mbx := rfl
@[simp] theorem State.setTt_chr (s : State) (n : Nat) (x : TtState) : (s.setTt n x).chr = s.chr := rfl
@[simp] theorem State.setTt_pwr (s : State) (n : Nat) (x : TtState) : (s.setTt n x).pwr = s.pwr := rfl
@[simp] theorem State.setTt_laneRecs (s : State) (n : Nat) (x : TtState) : (s.setTt n x).laneRecs = s.laneRecs := rfl
@[simp] theorem State.setTt_txDone (s : State) (n : Nat) (x : TtState) : (s.setTt n x).txDone = s.txDone := rfl
@[simp] theorem State.setTt_once (s : State) (n : Nat) (x : TtState) : (s.setTt n x).once = s.once := rfl
@[simp] theorem State.setTt_amc (s : State) (n : Nat) (x : TtState) : (s.setTt n x).amc = s.amc := rfl
@[simp] theorem State.setTt_slp (s : State) (n : Nat) (x : TtState) : (s.setTt n x).slp = s.slp := rfl
@[simp] theorem State.setTt_esc (s : State) (n : Nat) (x : TtState) : (s.setTt n x).esc = s.esc := rfl
@[simp] theorem State.setTt_fwd (s : State) (n : Nat) (x : TtState) : (s.setTt n x).fwd = s.fwd := rfl
@[simp] theorem State.setTt_ctx (s : State) (n : Nat) (x : TtState) : (s.setTt n x).ctx = s.ctx := rfl
@[simp] theorem State.setTt_jwl (s : State) (n : Nat) (x : TtState) : (s.setTt n x).jwl = s.jwl := rfl
@[simp] theorem State.setTt_eth (s : State) (n : Nat) (x : TtState) : (s.setTt n x).eth = s.eth := rfl
@[simp] theorem State.setTt_twn (s : State) (n : Nat) (x : TtState) : (s.setTt n x).twn = s.twn := rfl
@[simp] theorem State.setTt_crn (s : State) (n : Nat) (x : TtState) : (s.setTt n x).crn = s.crn := rfl
@[simp] theorem State.setTt_get (s : State) (n : Nat) (x : TtState) (g : Fld) : (s.setTt n x).get g = s.get g := rfl
@[simp] theorem State.setTt_on (s : State) (n : Nat) (x : TtState) (g : Fld) : (s.setTt n x).on g = s.on g := rfl
@[simp] theorem State.setTt_sget (s : State) (n : Nat) (x : TtState) (g : Fld)
    : (s.setTt n x).sget g = s.sget g := rfl
@[simp] theorem State.setTt_cur (s : State) (n : Nat) (x : TtState) (g : Fld) : (s.setTt n x).cur g = s.cur g := rfl
@[simp] theorem State.setTt_count (s : State) (n : Nat) (x : TtState) (c : Nat)
    : (s.setTt n x).count c = s.count c := rfl
@[simp] theorem State.setSicTx_pending (s : State) (n : Nat) (x : SicTx) : (s.setSicTx n x).pending = s.pending := rfl
@[simp] theorem State.setSicTx_ltb (s : State) (n : Nat) (x : SicTx) : (s.setSicTx n x).ltb = s.ltb := rfl
@[simp] theorem State.setSicTx_freeCtr (s : State) (n : Nat) (x : SicTx) : (s.setSicTx n x).freeCtr = s.freeCtr := rfl
@[simp] theorem State.setSicTx_out (s : State) (n : Nat) (x : SicTx) : (s.setSicTx n x).out = s.out := rfl
@[simp] theorem State.setSicTx_resp (s : State) (n : Nat) (x : SicTx) : (s.setSicTx n x).resp = s.resp := rfl
@[simp] theorem State.setSicTx_straps (s : State) (n : Nat) (x : SicTx) : (s.setSicTx n x).straps = s.straps := rfl
@[simp] theorem State.setSicTx_fuses (s : State) (n : Nat) (x : SicTx) : (s.setSicTx n x).fuses = s.fuses := rfl
@[simp] theorem State.setSicTx_fields (s : State) (n : Nat) (x : SicTx) : (s.setSicTx n x).fields = s.fields := rfl
@[simp] theorem State.setSicTx_inForce (s : State) (n : Nat) (x : SicTx) : (s.setSicTx n x).inForce = s.inForce := rfl
@[simp] theorem State.setSicTx_cnt (s : State) (n : Nat) (x : SicTx) : (s.setSicTx n x).cnt = s.cnt := rfl
@[simp] theorem State.setSicTx_cntLast (s : State) (n : Nat) (x : SicTx) : (s.setSicTx n x).cntLast = s.cntLast := rfl
@[simp] theorem State.setSicTx_claims (s : State) (n : Nat) (x : SicTx) : (s.setSicTx n x).claims = s.claims := rfl
@[simp] theorem State.setSicTx_pins (s : State) (n : Nat) (x : SicTx) : (s.setSicTx n x).pins = s.pins := rfl
@[simp] theorem State.setSicTx_store (s : State) (n : Nat) (x : SicTx) : (s.setSicTx n x).store = s.store := rfl
@[simp] theorem State.setSicTx_bal (s : State) (n : Nat) (x : SicTx) : (s.setSicTx n x).bal = s.bal := rfl
@[simp] theorem State.setSicTx_rx (s : State) (n : Nat) (x : SicTx) : (s.setSicTx n x).rx = s.rx := rfl
@[simp] theorem State.setSicTx_chains (s : State) (n : Nat) (x : SicTx) : (s.setSicTx n x).chains = s.chains := rfl
@[simp] theorem State.setSicTx_coex (s : State) (n : Nat) (x : SicTx) : (s.setSicTx n x).coex = s.coex := rfl
@[simp] theorem State.setSicTx_lanes (s : State) (n : Nat) (x : SicTx) : (s.setSicTx n x).lanes = s.lanes := rfl
@[simp] theorem State.setSicTx_hif (s : State) (n : Nat) (x : SicTx) : (s.setSicTx n x).hif = s.hif := rfl
@[simp] theorem State.setSicTx_mbx (s : State) (n : Nat) (x : SicTx) : (s.setSicTx n x).mbx = s.mbx := rfl
@[simp] theorem State.setSicTx_chr (s : State) (n : Nat) (x : SicTx) : (s.setSicTx n x).chr = s.chr := rfl
@[simp] theorem State.setSicTx_pwr (s : State) (n : Nat) (x : SicTx) : (s.setSicTx n x).pwr = s.pwr := rfl
@[simp] theorem State.setSicTx_laneRecs (s : State) (n : Nat) (x : SicTx)
    : (s.setSicTx n x).laneRecs = s.laneRecs := rfl
@[simp] theorem State.setSicTx_txDone (s : State) (n : Nat) (x : SicTx) : (s.setSicTx n x).txDone = s.txDone := rfl
@[simp] theorem State.setSicTx_once (s : State) (n : Nat) (x : SicTx) : (s.setSicTx n x).once = s.once := rfl
@[simp] theorem State.setSicTx_amc (s : State) (n : Nat) (x : SicTx) : (s.setSicTx n x).amc = s.amc := rfl
@[simp] theorem State.setSicTx_slp (s : State) (n : Nat) (x : SicTx) : (s.setSicTx n x).slp = s.slp := rfl
@[simp] theorem State.setSicTx_esc (s : State) (n : Nat) (x : SicTx) : (s.setSicTx n x).esc = s.esc := rfl
@[simp] theorem State.setSicTx_fwd (s : State) (n : Nat) (x : SicTx) : (s.setSicTx n x).fwd = s.fwd := rfl
@[simp] theorem State.setSicTx_ctx (s : State) (n : Nat) (x : SicTx) : (s.setSicTx n x).ctx = s.ctx := rfl
@[simp] theorem State.setSicTx_jwl (s : State) (n : Nat) (x : SicTx) : (s.setSicTx n x).jwl = s.jwl := rfl
@[simp] theorem State.setSicTx_eth (s : State) (n : Nat) (x : SicTx) : (s.setSicTx n x).eth = s.eth := rfl
@[simp] theorem State.setSicTx_twn (s : State) (n : Nat) (x : SicTx) : (s.setSicTx n x).twn = s.twn := rfl
@[simp] theorem State.setSicTx_crn (s : State) (n : Nat) (x : SicTx) : (s.setSicTx n x).crn = s.crn := rfl
@[simp] theorem State.setSicTx_get (s : State) (n : Nat) (x : SicTx) (g : Fld)
    : (s.setSicTx n x).get g = s.get g := rfl
@[simp] theorem State.setSicTx_on (s : State) (n : Nat) (x : SicTx) (g : Fld) : (s.setSicTx n x).on g = s.on g := rfl
@[simp] theorem State.setSicTx_sget (s : State) (n : Nat) (x : SicTx) (g : Fld)
    : (s.setSicTx n x).sget g = s.sget g := rfl
@[simp] theorem State.setSicTx_cur (s : State) (n : Nat) (x : SicTx) (g : Fld)
    : (s.setSicTx n x).cur g = s.cur g := rfl
@[simp] theorem State.setSicTx_count (s : State) (n : Nat) (x : SicTx) (c : Nat)
    : (s.setSicTx n x).count c = s.count c := rfl
@[simp] theorem State.setSicEntry_pending (s : State) (n k : Nat) (e : SicEntry)
    : (s.setSicEntry n k e).pending = s.pending := rfl
@[simp] theorem State.setSicEntry_ltb (s : State) (n k : Nat) (e : SicEntry)
    : (s.setSicEntry n k e).ltb = s.ltb := rfl
@[simp] theorem State.setSicEntry_freeCtr (s : State) (n k : Nat) (e : SicEntry)
    : (s.setSicEntry n k e).freeCtr = s.freeCtr := rfl
@[simp] theorem State.setSicEntry_out (s : State) (n k : Nat) (e : SicEntry)
    : (s.setSicEntry n k e).out = s.out := rfl
@[simp] theorem State.setSicEntry_resp (s : State) (n k : Nat) (e : SicEntry)
    : (s.setSicEntry n k e).resp = s.resp := rfl
@[simp] theorem State.setSicEntry_straps (s : State) (n k : Nat) (e : SicEntry)
    : (s.setSicEntry n k e).straps = s.straps := rfl
@[simp] theorem State.setSicEntry_fuses (s : State) (n k : Nat) (e : SicEntry)
    : (s.setSicEntry n k e).fuses = s.fuses := rfl
@[simp] theorem State.setSicEntry_fields (s : State) (n k : Nat) (e : SicEntry)
    : (s.setSicEntry n k e).fields = s.fields := rfl
@[simp] theorem State.setSicEntry_inForce (s : State) (n k : Nat) (e : SicEntry)
    : (s.setSicEntry n k e).inForce = s.inForce := rfl
@[simp] theorem State.setSicEntry_cnt (s : State) (n k : Nat) (e : SicEntry)
    : (s.setSicEntry n k e).cnt = s.cnt := rfl
@[simp] theorem State.setSicEntry_cntLast (s : State) (n k : Nat) (e : SicEntry)
    : (s.setSicEntry n k e).cntLast = s.cntLast := rfl
@[simp] theorem State.setSicEntry_claims (s : State) (n k : Nat) (e : SicEntry)
    : (s.setSicEntry n k e).claims = s.claims := rfl
@[simp] theorem State.setSicEntry_pins (s : State) (n k : Nat) (e : SicEntry)
    : (s.setSicEntry n k e).pins = s.pins := rfl
@[simp] theorem State.setSicEntry_store (s : State) (n k : Nat) (e : SicEntry)
    : (s.setSicEntry n k e).store = s.store := rfl
@[simp] theorem State.setSicEntry_bal (s : State) (n k : Nat) (e : SicEntry)
    : (s.setSicEntry n k e).bal = s.bal := rfl
@[simp] theorem State.setSicEntry_rx (s : State) (n k : Nat) (e : SicEntry) : (s.setSicEntry n k e).rx = s.rx := rfl
@[simp] theorem State.setSicEntry_chains (s : State) (n k : Nat) (e : SicEntry)
    : (s.setSicEntry n k e).chains = s.chains := rfl
@[simp] theorem State.setSicEntry_coex (s : State) (n k : Nat) (e : SicEntry)
    : (s.setSicEntry n k e).coex = s.coex := rfl
@[simp] theorem State.setSicEntry_lanes (s : State) (n k : Nat) (e : SicEntry)
    : (s.setSicEntry n k e).lanes = s.lanes := rfl
@[simp] theorem State.setSicEntry_hif (s : State) (n k : Nat) (e : SicEntry)
    : (s.setSicEntry n k e).hif = s.hif := rfl
@[simp] theorem State.setSicEntry_mbx (s : State) (n k : Nat) (e : SicEntry)
    : (s.setSicEntry n k e).mbx = s.mbx := rfl
@[simp] theorem State.setSicEntry_chr (s : State) (n k : Nat) (e : SicEntry)
    : (s.setSicEntry n k e).chr = s.chr := rfl
@[simp] theorem State.setSicEntry_pwr (s : State) (n k : Nat) (e : SicEntry)
    : (s.setSicEntry n k e).pwr = s.pwr := rfl
@[simp] theorem State.setSicEntry_laneRecs (s : State) (n k : Nat) (e : SicEntry)
    : (s.setSicEntry n k e).laneRecs = s.laneRecs := rfl
@[simp] theorem State.setSicEntry_txDone (s : State) (n k : Nat) (e : SicEntry)
    : (s.setSicEntry n k e).txDone = s.txDone := rfl
@[simp] theorem State.setSicEntry_once (s : State) (n k : Nat) (e : SicEntry)
    : (s.setSicEntry n k e).once = s.once := rfl
@[simp] theorem State.setSicEntry_amc (s : State) (n k : Nat) (e : SicEntry)
    : (s.setSicEntry n k e).amc = s.amc := rfl
@[simp] theorem State.setSicEntry_slp (s : State) (n k : Nat) (e : SicEntry)
    : (s.setSicEntry n k e).slp = s.slp := rfl
@[simp] theorem State.setSicEntry_esc (s : State) (n k : Nat) (e : SicEntry)
    : (s.setSicEntry n k e).esc = s.esc := rfl
@[simp] theorem State.setSicEntry_fwd (s : State) (n k : Nat) (e : SicEntry)
    : (s.setSicEntry n k e).fwd = s.fwd := rfl
@[simp] theorem State.setSicEntry_ctx (s : State) (n k : Nat) (e : SicEntry)
    : (s.setSicEntry n k e).ctx = s.ctx := rfl
@[simp] theorem State.setSicEntry_jwl (s : State) (n k : Nat) (e : SicEntry)
    : (s.setSicEntry n k e).jwl = s.jwl := rfl
@[simp] theorem State.setSicEntry_eth (s : State) (n k : Nat) (e : SicEntry)
    : (s.setSicEntry n k e).eth = s.eth := rfl
@[simp] theorem State.setSicEntry_twn (s : State) (n k : Nat) (e : SicEntry)
    : (s.setSicEntry n k e).twn = s.twn := rfl
@[simp] theorem State.setSicEntry_crn (s : State) (n k : Nat) (e : SicEntry)
    : (s.setSicEntry n k e).crn = s.crn := rfl
@[simp] theorem State.setSicEntry_get (s : State) (n k : Nat) (e : SicEntry) (g : Fld)
    : (s.setSicEntry n k e).get g = s.get g := rfl
@[simp] theorem State.setSicEntry_on (s : State) (n k : Nat) (e : SicEntry) (g : Fld)
    : (s.setSicEntry n k e).on g = s.on g := rfl
@[simp] theorem State.setSicEntry_sget (s : State) (n k : Nat) (e : SicEntry) (g : Fld)
    : (s.setSicEntry n k e).sget g = s.sget g := rfl
@[simp] theorem State.setSicEntry_cur (s : State) (n k : Nat) (e : SicEntry) (g : Fld)
    : (s.setSicEntry n k e).cur g = s.cur g := rfl
@[simp] theorem State.setSicEntry_count (s : State) (n k : Nat) (e : SicEntry) (c : Nat)
    : (s.setSicEntry n k e).count c = s.count c := rfl
@[simp] theorem State.onBal_pending (s : State) (f : Bal → Bal) : (s.onBal f).pending = s.pending := rfl
@[simp] theorem State.onBal_ltb (s : State) (f : Bal → Bal) : (s.onBal f).ltb = s.ltb := rfl
@[simp] theorem State.onBal_freeCtr (s : State) (f : Bal → Bal) : (s.onBal f).freeCtr = s.freeCtr := rfl
@[simp] theorem State.onBal_out (s : State) (f : Bal → Bal) : (s.onBal f).out = s.out := rfl
@[simp] theorem State.onBal_resp (s : State) (f : Bal → Bal) : (s.onBal f).resp = s.resp := rfl
@[simp] theorem State.onBal_straps (s : State) (f : Bal → Bal) : (s.onBal f).straps = s.straps := rfl
@[simp] theorem State.onBal_fuses (s : State) (f : Bal → Bal) : (s.onBal f).fuses = s.fuses := rfl
@[simp] theorem State.onBal_fields (s : State) (f : Bal → Bal) : (s.onBal f).fields = s.fields := rfl
@[simp] theorem State.onBal_inForce (s : State) (f : Bal → Bal) : (s.onBal f).inForce = s.inForce := rfl
@[simp] theorem State.onBal_cnt (s : State) (f : Bal → Bal) : (s.onBal f).cnt = s.cnt := rfl
@[simp] theorem State.onBal_cntLast (s : State) (f : Bal → Bal) : (s.onBal f).cntLast = s.cntLast := rfl
@[simp] theorem State.onBal_claims (s : State) (f : Bal → Bal) : (s.onBal f).claims = s.claims := rfl
@[simp] theorem State.onBal_pins (s : State) (f : Bal → Bal) : (s.onBal f).pins = s.pins := rfl
@[simp] theorem State.onBal_store (s : State) (f : Bal → Bal) : (s.onBal f).store = s.store := rfl
@[simp] theorem State.onBal_rx (s : State) (f : Bal → Bal) : (s.onBal f).rx = s.rx := rfl
@[simp] theorem State.onBal_chains (s : State) (f : Bal → Bal) : (s.onBal f).chains = s.chains := rfl
@[simp] theorem State.onBal_coex (s : State) (f : Bal → Bal) : (s.onBal f).coex = s.coex := rfl
@[simp] theorem State.onBal_sic (s : State) (f : Bal → Bal) : (s.onBal f).sic = s.sic := rfl
@[simp] theorem State.onBal_lanes (s : State) (f : Bal → Bal) : (s.onBal f).lanes = s.lanes := rfl
@[simp] theorem State.onBal_hif (s : State) (f : Bal → Bal) : (s.onBal f).hif = s.hif := rfl
@[simp] theorem State.onBal_mbx (s : State) (f : Bal → Bal) : (s.onBal f).mbx = s.mbx := rfl
@[simp] theorem State.onBal_chr (s : State) (f : Bal → Bal) : (s.onBal f).chr = s.chr := rfl
@[simp] theorem State.onBal_pwr (s : State) (f : Bal → Bal) : (s.onBal f).pwr = s.pwr := rfl
@[simp] theorem State.onBal_laneRecs (s : State) (f : Bal → Bal) : (s.onBal f).laneRecs = s.laneRecs := rfl
@[simp] theorem State.onBal_txDone (s : State) (f : Bal → Bal) : (s.onBal f).txDone = s.txDone := rfl
@[simp] theorem State.onBal_once (s : State) (f : Bal → Bal) : (s.onBal f).once = s.once := rfl
@[simp] theorem State.onBal_amc (s : State) (f : Bal → Bal) : (s.onBal f).amc = s.amc := rfl
@[simp] theorem State.onBal_slp (s : State) (f : Bal → Bal) : (s.onBal f).slp = s.slp := rfl
@[simp] theorem State.onBal_esc (s : State) (f : Bal → Bal) : (s.onBal f).esc = s.esc := rfl
@[simp] theorem State.onBal_fwd (s : State) (f : Bal → Bal) : (s.onBal f).fwd = s.fwd := rfl
@[simp] theorem State.onBal_ctx (s : State) (f : Bal → Bal) : (s.onBal f).ctx = s.ctx := rfl
@[simp] theorem State.onBal_jwl (s : State) (f : Bal → Bal) : (s.onBal f).jwl = s.jwl := rfl
@[simp] theorem State.onBal_eth (s : State) (f : Bal → Bal) : (s.onBal f).eth = s.eth := rfl
@[simp] theorem State.onBal_twn (s : State) (f : Bal → Bal) : (s.onBal f).twn = s.twn := rfl
@[simp] theorem State.onBal_crn (s : State) (f : Bal → Bal) : (s.onBal f).crn = s.crn := rfl
@[simp] theorem State.onBal_bal (s : State) (f : Bal → Bal) : (s.onBal f).bal = f s.bal := rfl
@[simp] theorem State.onBal_get (s : State) (f : Bal → Bal) (g : Fld) : (s.onBal f).get g = s.get g := rfl
@[simp] theorem State.onBal_on (s : State) (f : Bal → Bal) (g : Fld) : (s.onBal f).on g = s.on g := rfl
@[simp] theorem State.onBal_sget (s : State) (f : Bal → Bal) (g : Fld) : (s.onBal f).sget g = s.sget g := rfl
@[simp] theorem State.onBal_cur (s : State) (f : Bal → Bal) (g : Fld) : (s.onBal f).cur g = s.cur g := rfl
@[simp] theorem State.onBal_count (s : State) (f : Bal → Bal) (c : Nat) : (s.onBal f).count c = s.count c := rfl
@[simp] theorem State.onAmc_pending (s : State) (f : Amc → Amc) : (s.onAmc f).pending = s.pending := rfl
@[simp] theorem State.onAmc_ltb (s : State) (f : Amc → Amc) : (s.onAmc f).ltb = s.ltb := rfl
@[simp] theorem State.onAmc_freeCtr (s : State) (f : Amc → Amc) : (s.onAmc f).freeCtr = s.freeCtr := rfl
@[simp] theorem State.onAmc_out (s : State) (f : Amc → Amc) : (s.onAmc f).out = s.out := rfl
@[simp] theorem State.onAmc_resp (s : State) (f : Amc → Amc) : (s.onAmc f).resp = s.resp := rfl
@[simp] theorem State.onAmc_straps (s : State) (f : Amc → Amc) : (s.onAmc f).straps = s.straps := rfl
@[simp] theorem State.onAmc_fuses (s : State) (f : Amc → Amc) : (s.onAmc f).fuses = s.fuses := rfl
@[simp] theorem State.onAmc_fields (s : State) (f : Amc → Amc) : (s.onAmc f).fields = s.fields := rfl
@[simp] theorem State.onAmc_inForce (s : State) (f : Amc → Amc) : (s.onAmc f).inForce = s.inForce := rfl
@[simp] theorem State.onAmc_cnt (s : State) (f : Amc → Amc) : (s.onAmc f).cnt = s.cnt := rfl
@[simp] theorem State.onAmc_cntLast (s : State) (f : Amc → Amc) : (s.onAmc f).cntLast = s.cntLast := rfl
@[simp] theorem State.onAmc_claims (s : State) (f : Amc → Amc) : (s.onAmc f).claims = s.claims := rfl
@[simp] theorem State.onAmc_pins (s : State) (f : Amc → Amc) : (s.onAmc f).pins = s.pins := rfl
@[simp] theorem State.onAmc_store (s : State) (f : Amc → Amc) : (s.onAmc f).store = s.store := rfl
@[simp] theorem State.onAmc_bal (s : State) (f : Amc → Amc) : (s.onAmc f).bal = s.bal := rfl
@[simp] theorem State.onAmc_rx (s : State) (f : Amc → Amc) : (s.onAmc f).rx = s.rx := rfl
@[simp] theorem State.onAmc_chains (s : State) (f : Amc → Amc) : (s.onAmc f).chains = s.chains := rfl
@[simp] theorem State.onAmc_coex (s : State) (f : Amc → Amc) : (s.onAmc f).coex = s.coex := rfl
@[simp] theorem State.onAmc_sic (s : State) (f : Amc → Amc) : (s.onAmc f).sic = s.sic := rfl
@[simp] theorem State.onAmc_lanes (s : State) (f : Amc → Amc) : (s.onAmc f).lanes = s.lanes := rfl
@[simp] theorem State.onAmc_hif (s : State) (f : Amc → Amc) : (s.onAmc f).hif = s.hif := rfl
@[simp] theorem State.onAmc_mbx (s : State) (f : Amc → Amc) : (s.onAmc f).mbx = s.mbx := rfl
@[simp] theorem State.onAmc_chr (s : State) (f : Amc → Amc) : (s.onAmc f).chr = s.chr := rfl
@[simp] theorem State.onAmc_pwr (s : State) (f : Amc → Amc) : (s.onAmc f).pwr = s.pwr := rfl
@[simp] theorem State.onAmc_laneRecs (s : State) (f : Amc → Amc) : (s.onAmc f).laneRecs = s.laneRecs := rfl
@[simp] theorem State.onAmc_txDone (s : State) (f : Amc → Amc) : (s.onAmc f).txDone = s.txDone := rfl
@[simp] theorem State.onAmc_once (s : State) (f : Amc → Amc) : (s.onAmc f).once = s.once := rfl
@[simp] theorem State.onAmc_slp (s : State) (f : Amc → Amc) : (s.onAmc f).slp = s.slp := rfl
@[simp] theorem State.onAmc_esc (s : State) (f : Amc → Amc) : (s.onAmc f).esc = s.esc := rfl
@[simp] theorem State.onAmc_fwd (s : State) (f : Amc → Amc) : (s.onAmc f).fwd = s.fwd := rfl
@[simp] theorem State.onAmc_ctx (s : State) (f : Amc → Amc) : (s.onAmc f).ctx = s.ctx := rfl
@[simp] theorem State.onAmc_jwl (s : State) (f : Amc → Amc) : (s.onAmc f).jwl = s.jwl := rfl
@[simp] theorem State.onAmc_eth (s : State) (f : Amc → Amc) : (s.onAmc f).eth = s.eth := rfl
@[simp] theorem State.onAmc_twn (s : State) (f : Amc → Amc) : (s.onAmc f).twn = s.twn := rfl
@[simp] theorem State.onAmc_crn (s : State) (f : Amc → Amc) : (s.onAmc f).crn = s.crn := rfl
@[simp] theorem State.onAmc_amc (s : State) (f : Amc → Amc) : (s.onAmc f).amc = f s.amc := rfl
@[simp] theorem State.onAmc_get (s : State) (f : Amc → Amc) (g : Fld) : (s.onAmc f).get g = s.get g := rfl
@[simp] theorem State.onAmc_on (s : State) (f : Amc → Amc) (g : Fld) : (s.onAmc f).on g = s.on g := rfl
@[simp] theorem State.onAmc_sget (s : State) (f : Amc → Amc) (g : Fld) : (s.onAmc f).sget g = s.sget g := rfl
@[simp] theorem State.onAmc_cur (s : State) (f : Amc → Amc) (g : Fld) : (s.onAmc f).cur g = s.cur g := rfl
@[simp] theorem State.onAmc_count (s : State) (f : Amc → Amc) (c : Nat) : (s.onAmc f).count c = s.count c := rfl
@[simp] theorem State.onSlp_pending (s : State) (f : Slp → Slp) : (s.onSlp f).pending = s.pending := rfl
@[simp] theorem State.onSlp_ltb (s : State) (f : Slp → Slp) : (s.onSlp f).ltb = s.ltb := rfl
@[simp] theorem State.onSlp_freeCtr (s : State) (f : Slp → Slp) : (s.onSlp f).freeCtr = s.freeCtr := rfl
@[simp] theorem State.onSlp_out (s : State) (f : Slp → Slp) : (s.onSlp f).out = s.out := rfl
@[simp] theorem State.onSlp_resp (s : State) (f : Slp → Slp) : (s.onSlp f).resp = s.resp := rfl
@[simp] theorem State.onSlp_straps (s : State) (f : Slp → Slp) : (s.onSlp f).straps = s.straps := rfl
@[simp] theorem State.onSlp_fuses (s : State) (f : Slp → Slp) : (s.onSlp f).fuses = s.fuses := rfl
@[simp] theorem State.onSlp_fields (s : State) (f : Slp → Slp) : (s.onSlp f).fields = s.fields := rfl
@[simp] theorem State.onSlp_inForce (s : State) (f : Slp → Slp) : (s.onSlp f).inForce = s.inForce := rfl
@[simp] theorem State.onSlp_cnt (s : State) (f : Slp → Slp) : (s.onSlp f).cnt = s.cnt := rfl
@[simp] theorem State.onSlp_cntLast (s : State) (f : Slp → Slp) : (s.onSlp f).cntLast = s.cntLast := rfl
@[simp] theorem State.onSlp_claims (s : State) (f : Slp → Slp) : (s.onSlp f).claims = s.claims := rfl
@[simp] theorem State.onSlp_pins (s : State) (f : Slp → Slp) : (s.onSlp f).pins = s.pins := rfl
@[simp] theorem State.onSlp_store (s : State) (f : Slp → Slp) : (s.onSlp f).store = s.store := rfl
@[simp] theorem State.onSlp_bal (s : State) (f : Slp → Slp) : (s.onSlp f).bal = s.bal := rfl
@[simp] theorem State.onSlp_rx (s : State) (f : Slp → Slp) : (s.onSlp f).rx = s.rx := rfl
@[simp] theorem State.onSlp_chains (s : State) (f : Slp → Slp) : (s.onSlp f).chains = s.chains := rfl
@[simp] theorem State.onSlp_coex (s : State) (f : Slp → Slp) : (s.onSlp f).coex = s.coex := rfl
@[simp] theorem State.onSlp_sic (s : State) (f : Slp → Slp) : (s.onSlp f).sic = s.sic := rfl
@[simp] theorem State.onSlp_lanes (s : State) (f : Slp → Slp) : (s.onSlp f).lanes = s.lanes := rfl
@[simp] theorem State.onSlp_hif (s : State) (f : Slp → Slp) : (s.onSlp f).hif = s.hif := rfl
@[simp] theorem State.onSlp_mbx (s : State) (f : Slp → Slp) : (s.onSlp f).mbx = s.mbx := rfl
@[simp] theorem State.onSlp_chr (s : State) (f : Slp → Slp) : (s.onSlp f).chr = s.chr := rfl
@[simp] theorem State.onSlp_pwr (s : State) (f : Slp → Slp) : (s.onSlp f).pwr = s.pwr := rfl
@[simp] theorem State.onSlp_laneRecs (s : State) (f : Slp → Slp) : (s.onSlp f).laneRecs = s.laneRecs := rfl
@[simp] theorem State.onSlp_txDone (s : State) (f : Slp → Slp) : (s.onSlp f).txDone = s.txDone := rfl
@[simp] theorem State.onSlp_once (s : State) (f : Slp → Slp) : (s.onSlp f).once = s.once := rfl
@[simp] theorem State.onSlp_amc (s : State) (f : Slp → Slp) : (s.onSlp f).amc = s.amc := rfl
@[simp] theorem State.onSlp_esc (s : State) (f : Slp → Slp) : (s.onSlp f).esc = s.esc := rfl
@[simp] theorem State.onSlp_fwd (s : State) (f : Slp → Slp) : (s.onSlp f).fwd = s.fwd := rfl
@[simp] theorem State.onSlp_ctx (s : State) (f : Slp → Slp) : (s.onSlp f).ctx = s.ctx := rfl
@[simp] theorem State.onSlp_jwl (s : State) (f : Slp → Slp) : (s.onSlp f).jwl = s.jwl := rfl
@[simp] theorem State.onSlp_eth (s : State) (f : Slp → Slp) : (s.onSlp f).eth = s.eth := rfl
@[simp] theorem State.onSlp_twn (s : State) (f : Slp → Slp) : (s.onSlp f).twn = s.twn := rfl
@[simp] theorem State.onSlp_crn (s : State) (f : Slp → Slp) : (s.onSlp f).crn = s.crn := rfl
@[simp] theorem State.onSlp_slp (s : State) (f : Slp → Slp) : (s.onSlp f).slp = f s.slp := rfl
@[simp] theorem State.onSlp_get (s : State) (f : Slp → Slp) (g : Fld) : (s.onSlp f).get g = s.get g := rfl
@[simp] theorem State.onSlp_on (s : State) (f : Slp → Slp) (g : Fld) : (s.onSlp f).on g = s.on g := rfl
@[simp] theorem State.onSlp_sget (s : State) (f : Slp → Slp) (g : Fld) : (s.onSlp f).sget g = s.sget g := rfl
@[simp] theorem State.onSlp_cur (s : State) (f : Slp → Slp) (g : Fld) : (s.onSlp f).cur g = s.cur g := rfl
@[simp] theorem State.onSlp_count (s : State) (f : Slp → Slp) (c : Nat) : (s.onSlp f).count c = s.count c := rfl
@[simp] theorem State.onEsc_pending (s : State) (f : Esc → Esc) : (s.onEsc f).pending = s.pending := rfl
@[simp] theorem State.onEsc_ltb (s : State) (f : Esc → Esc) : (s.onEsc f).ltb = s.ltb := rfl
@[simp] theorem State.onEsc_freeCtr (s : State) (f : Esc → Esc) : (s.onEsc f).freeCtr = s.freeCtr := rfl
@[simp] theorem State.onEsc_out (s : State) (f : Esc → Esc) : (s.onEsc f).out = s.out := rfl
@[simp] theorem State.onEsc_resp (s : State) (f : Esc → Esc) : (s.onEsc f).resp = s.resp := rfl
@[simp] theorem State.onEsc_straps (s : State) (f : Esc → Esc) : (s.onEsc f).straps = s.straps := rfl
@[simp] theorem State.onEsc_fuses (s : State) (f : Esc → Esc) : (s.onEsc f).fuses = s.fuses := rfl
@[simp] theorem State.onEsc_fields (s : State) (f : Esc → Esc) : (s.onEsc f).fields = s.fields := rfl
@[simp] theorem State.onEsc_inForce (s : State) (f : Esc → Esc) : (s.onEsc f).inForce = s.inForce := rfl
@[simp] theorem State.onEsc_cnt (s : State) (f : Esc → Esc) : (s.onEsc f).cnt = s.cnt := rfl
@[simp] theorem State.onEsc_cntLast (s : State) (f : Esc → Esc) : (s.onEsc f).cntLast = s.cntLast := rfl
@[simp] theorem State.onEsc_claims (s : State) (f : Esc → Esc) : (s.onEsc f).claims = s.claims := rfl
@[simp] theorem State.onEsc_pins (s : State) (f : Esc → Esc) : (s.onEsc f).pins = s.pins := rfl
@[simp] theorem State.onEsc_store (s : State) (f : Esc → Esc) : (s.onEsc f).store = s.store := rfl
@[simp] theorem State.onEsc_bal (s : State) (f : Esc → Esc) : (s.onEsc f).bal = s.bal := rfl
@[simp] theorem State.onEsc_rx (s : State) (f : Esc → Esc) : (s.onEsc f).rx = s.rx := rfl
@[simp] theorem State.onEsc_chains (s : State) (f : Esc → Esc) : (s.onEsc f).chains = s.chains := rfl
@[simp] theorem State.onEsc_coex (s : State) (f : Esc → Esc) : (s.onEsc f).coex = s.coex := rfl
@[simp] theorem State.onEsc_sic (s : State) (f : Esc → Esc) : (s.onEsc f).sic = s.sic := rfl
@[simp] theorem State.onEsc_lanes (s : State) (f : Esc → Esc) : (s.onEsc f).lanes = s.lanes := rfl
@[simp] theorem State.onEsc_hif (s : State) (f : Esc → Esc) : (s.onEsc f).hif = s.hif := rfl
@[simp] theorem State.onEsc_mbx (s : State) (f : Esc → Esc) : (s.onEsc f).mbx = s.mbx := rfl
@[simp] theorem State.onEsc_chr (s : State) (f : Esc → Esc) : (s.onEsc f).chr = s.chr := rfl
@[simp] theorem State.onEsc_pwr (s : State) (f : Esc → Esc) : (s.onEsc f).pwr = s.pwr := rfl
@[simp] theorem State.onEsc_laneRecs (s : State) (f : Esc → Esc) : (s.onEsc f).laneRecs = s.laneRecs := rfl
@[simp] theorem State.onEsc_txDone (s : State) (f : Esc → Esc) : (s.onEsc f).txDone = s.txDone := rfl
@[simp] theorem State.onEsc_once (s : State) (f : Esc → Esc) : (s.onEsc f).once = s.once := rfl
@[simp] theorem State.onEsc_amc (s : State) (f : Esc → Esc) : (s.onEsc f).amc = s.amc := rfl
@[simp] theorem State.onEsc_slp (s : State) (f : Esc → Esc) : (s.onEsc f).slp = s.slp := rfl
@[simp] theorem State.onEsc_fwd (s : State) (f : Esc → Esc) : (s.onEsc f).fwd = s.fwd := rfl
@[simp] theorem State.onEsc_ctx (s : State) (f : Esc → Esc) : (s.onEsc f).ctx = s.ctx := rfl
@[simp] theorem State.onEsc_jwl (s : State) (f : Esc → Esc) : (s.onEsc f).jwl = s.jwl := rfl
@[simp] theorem State.onEsc_eth (s : State) (f : Esc → Esc) : (s.onEsc f).eth = s.eth := rfl
@[simp] theorem State.onEsc_twn (s : State) (f : Esc → Esc) : (s.onEsc f).twn = s.twn := rfl
@[simp] theorem State.onEsc_crn (s : State) (f : Esc → Esc) : (s.onEsc f).crn = s.crn := rfl
@[simp] theorem State.onEsc_esc (s : State) (f : Esc → Esc) : (s.onEsc f).esc = f s.esc := rfl
@[simp] theorem State.onEsc_get (s : State) (f : Esc → Esc) (g : Fld) : (s.onEsc f).get g = s.get g := rfl
@[simp] theorem State.onEsc_on (s : State) (f : Esc → Esc) (g : Fld) : (s.onEsc f).on g = s.on g := rfl
@[simp] theorem State.onEsc_sget (s : State) (f : Esc → Esc) (g : Fld) : (s.onEsc f).sget g = s.sget g := rfl
@[simp] theorem State.onEsc_cur (s : State) (f : Esc → Esc) (g : Fld) : (s.onEsc f).cur g = s.cur g := rfl
@[simp] theorem State.onEsc_count (s : State) (f : Esc → Esc) (c : Nat) : (s.onEsc f).count c = s.count c := rfl
@[simp] theorem State.onFwd_pending (s : State) (f : Fwd → Fwd) : (s.onFwd f).pending = s.pending := rfl
@[simp] theorem State.onFwd_ltb (s : State) (f : Fwd → Fwd) : (s.onFwd f).ltb = s.ltb := rfl
@[simp] theorem State.onFwd_freeCtr (s : State) (f : Fwd → Fwd) : (s.onFwd f).freeCtr = s.freeCtr := rfl
@[simp] theorem State.onFwd_out (s : State) (f : Fwd → Fwd) : (s.onFwd f).out = s.out := rfl
@[simp] theorem State.onFwd_resp (s : State) (f : Fwd → Fwd) : (s.onFwd f).resp = s.resp := rfl
@[simp] theorem State.onFwd_straps (s : State) (f : Fwd → Fwd) : (s.onFwd f).straps = s.straps := rfl
@[simp] theorem State.onFwd_fuses (s : State) (f : Fwd → Fwd) : (s.onFwd f).fuses = s.fuses := rfl
@[simp] theorem State.onFwd_fields (s : State) (f : Fwd → Fwd) : (s.onFwd f).fields = s.fields := rfl
@[simp] theorem State.onFwd_inForce (s : State) (f : Fwd → Fwd) : (s.onFwd f).inForce = s.inForce := rfl
@[simp] theorem State.onFwd_cnt (s : State) (f : Fwd → Fwd) : (s.onFwd f).cnt = s.cnt := rfl
@[simp] theorem State.onFwd_cntLast (s : State) (f : Fwd → Fwd) : (s.onFwd f).cntLast = s.cntLast := rfl
@[simp] theorem State.onFwd_claims (s : State) (f : Fwd → Fwd) : (s.onFwd f).claims = s.claims := rfl
@[simp] theorem State.onFwd_pins (s : State) (f : Fwd → Fwd) : (s.onFwd f).pins = s.pins := rfl
@[simp] theorem State.onFwd_store (s : State) (f : Fwd → Fwd) : (s.onFwd f).store = s.store := rfl
@[simp] theorem State.onFwd_bal (s : State) (f : Fwd → Fwd) : (s.onFwd f).bal = s.bal := rfl
@[simp] theorem State.onFwd_rx (s : State) (f : Fwd → Fwd) : (s.onFwd f).rx = s.rx := rfl
@[simp] theorem State.onFwd_chains (s : State) (f : Fwd → Fwd) : (s.onFwd f).chains = s.chains := rfl
@[simp] theorem State.onFwd_coex (s : State) (f : Fwd → Fwd) : (s.onFwd f).coex = s.coex := rfl
@[simp] theorem State.onFwd_sic (s : State) (f : Fwd → Fwd) : (s.onFwd f).sic = s.sic := rfl
@[simp] theorem State.onFwd_lanes (s : State) (f : Fwd → Fwd) : (s.onFwd f).lanes = s.lanes := rfl
@[simp] theorem State.onFwd_hif (s : State) (f : Fwd → Fwd) : (s.onFwd f).hif = s.hif := rfl
@[simp] theorem State.onFwd_mbx (s : State) (f : Fwd → Fwd) : (s.onFwd f).mbx = s.mbx := rfl
@[simp] theorem State.onFwd_chr (s : State) (f : Fwd → Fwd) : (s.onFwd f).chr = s.chr := rfl
@[simp] theorem State.onFwd_pwr (s : State) (f : Fwd → Fwd) : (s.onFwd f).pwr = s.pwr := rfl
@[simp] theorem State.onFwd_laneRecs (s : State) (f : Fwd → Fwd) : (s.onFwd f).laneRecs = s.laneRecs := rfl
@[simp] theorem State.onFwd_txDone (s : State) (f : Fwd → Fwd) : (s.onFwd f).txDone = s.txDone := rfl
@[simp] theorem State.onFwd_once (s : State) (f : Fwd → Fwd) : (s.onFwd f).once = s.once := rfl
@[simp] theorem State.onFwd_amc (s : State) (f : Fwd → Fwd) : (s.onFwd f).amc = s.amc := rfl
@[simp] theorem State.onFwd_slp (s : State) (f : Fwd → Fwd) : (s.onFwd f).slp = s.slp := rfl
@[simp] theorem State.onFwd_esc (s : State) (f : Fwd → Fwd) : (s.onFwd f).esc = s.esc := rfl
@[simp] theorem State.onFwd_ctx (s : State) (f : Fwd → Fwd) : (s.onFwd f).ctx = s.ctx := rfl
@[simp] theorem State.onFwd_jwl (s : State) (f : Fwd → Fwd) : (s.onFwd f).jwl = s.jwl := rfl
@[simp] theorem State.onFwd_eth (s : State) (f : Fwd → Fwd) : (s.onFwd f).eth = s.eth := rfl
@[simp] theorem State.onFwd_twn (s : State) (f : Fwd → Fwd) : (s.onFwd f).twn = s.twn := rfl
@[simp] theorem State.onFwd_crn (s : State) (f : Fwd → Fwd) : (s.onFwd f).crn = s.crn := rfl
@[simp] theorem State.onFwd_fwd (s : State) (f : Fwd → Fwd) : (s.onFwd f).fwd = f s.fwd := rfl
@[simp] theorem State.onFwd_get (s : State) (f : Fwd → Fwd) (g : Fld) : (s.onFwd f).get g = s.get g := rfl
@[simp] theorem State.onFwd_on (s : State) (f : Fwd → Fwd) (g : Fld) : (s.onFwd f).on g = s.on g := rfl
@[simp] theorem State.onFwd_sget (s : State) (f : Fwd → Fwd) (g : Fld) : (s.onFwd f).sget g = s.sget g := rfl
@[simp] theorem State.onFwd_cur (s : State) (f : Fwd → Fwd) (g : Fld) : (s.onFwd f).cur g = s.cur g := rfl
@[simp] theorem State.onFwd_count (s : State) (f : Fwd → Fwd) (c : Nat) : (s.onFwd f).count c = s.count c := rfl
@[simp] theorem State.onCtx_pending (s : State) (f : Ctx → Ctx) : (s.onCtx f).pending = s.pending := rfl
@[simp] theorem State.onCtx_ltb (s : State) (f : Ctx → Ctx) : (s.onCtx f).ltb = s.ltb := rfl
@[simp] theorem State.onCtx_freeCtr (s : State) (f : Ctx → Ctx) : (s.onCtx f).freeCtr = s.freeCtr := rfl
@[simp] theorem State.onCtx_out (s : State) (f : Ctx → Ctx) : (s.onCtx f).out = s.out := rfl
@[simp] theorem State.onCtx_resp (s : State) (f : Ctx → Ctx) : (s.onCtx f).resp = s.resp := rfl
@[simp] theorem State.onCtx_straps (s : State) (f : Ctx → Ctx) : (s.onCtx f).straps = s.straps := rfl
@[simp] theorem State.onCtx_fuses (s : State) (f : Ctx → Ctx) : (s.onCtx f).fuses = s.fuses := rfl
@[simp] theorem State.onCtx_fields (s : State) (f : Ctx → Ctx) : (s.onCtx f).fields = s.fields := rfl
@[simp] theorem State.onCtx_inForce (s : State) (f : Ctx → Ctx) : (s.onCtx f).inForce = s.inForce := rfl
@[simp] theorem State.onCtx_cnt (s : State) (f : Ctx → Ctx) : (s.onCtx f).cnt = s.cnt := rfl
@[simp] theorem State.onCtx_cntLast (s : State) (f : Ctx → Ctx) : (s.onCtx f).cntLast = s.cntLast := rfl
@[simp] theorem State.onCtx_claims (s : State) (f : Ctx → Ctx) : (s.onCtx f).claims = s.claims := rfl
@[simp] theorem State.onCtx_pins (s : State) (f : Ctx → Ctx) : (s.onCtx f).pins = s.pins := rfl
@[simp] theorem State.onCtx_store (s : State) (f : Ctx → Ctx) : (s.onCtx f).store = s.store := rfl
@[simp] theorem State.onCtx_bal (s : State) (f : Ctx → Ctx) : (s.onCtx f).bal = s.bal := rfl
@[simp] theorem State.onCtx_rx (s : State) (f : Ctx → Ctx) : (s.onCtx f).rx = s.rx := rfl
@[simp] theorem State.onCtx_chains (s : State) (f : Ctx → Ctx) : (s.onCtx f).chains = s.chains := rfl
@[simp] theorem State.onCtx_coex (s : State) (f : Ctx → Ctx) : (s.onCtx f).coex = s.coex := rfl
@[simp] theorem State.onCtx_sic (s : State) (f : Ctx → Ctx) : (s.onCtx f).sic = s.sic := rfl
@[simp] theorem State.onCtx_lanes (s : State) (f : Ctx → Ctx) : (s.onCtx f).lanes = s.lanes := rfl
@[simp] theorem State.onCtx_hif (s : State) (f : Ctx → Ctx) : (s.onCtx f).hif = s.hif := rfl
@[simp] theorem State.onCtx_mbx (s : State) (f : Ctx → Ctx) : (s.onCtx f).mbx = s.mbx := rfl
@[simp] theorem State.onCtx_chr (s : State) (f : Ctx → Ctx) : (s.onCtx f).chr = s.chr := rfl
@[simp] theorem State.onCtx_pwr (s : State) (f : Ctx → Ctx) : (s.onCtx f).pwr = s.pwr := rfl
@[simp] theorem State.onCtx_laneRecs (s : State) (f : Ctx → Ctx) : (s.onCtx f).laneRecs = s.laneRecs := rfl
@[simp] theorem State.onCtx_txDone (s : State) (f : Ctx → Ctx) : (s.onCtx f).txDone = s.txDone := rfl
@[simp] theorem State.onCtx_once (s : State) (f : Ctx → Ctx) : (s.onCtx f).once = s.once := rfl
@[simp] theorem State.onCtx_amc (s : State) (f : Ctx → Ctx) : (s.onCtx f).amc = s.amc := rfl
@[simp] theorem State.onCtx_slp (s : State) (f : Ctx → Ctx) : (s.onCtx f).slp = s.slp := rfl
@[simp] theorem State.onCtx_esc (s : State) (f : Ctx → Ctx) : (s.onCtx f).esc = s.esc := rfl
@[simp] theorem State.onCtx_fwd (s : State) (f : Ctx → Ctx) : (s.onCtx f).fwd = s.fwd := rfl
@[simp] theorem State.onCtx_jwl (s : State) (f : Ctx → Ctx) : (s.onCtx f).jwl = s.jwl := rfl
@[simp] theorem State.onCtx_eth (s : State) (f : Ctx → Ctx) : (s.onCtx f).eth = s.eth := rfl
@[simp] theorem State.onCtx_twn (s : State) (f : Ctx → Ctx) : (s.onCtx f).twn = s.twn := rfl
@[simp] theorem State.onCtx_crn (s : State) (f : Ctx → Ctx) : (s.onCtx f).crn = s.crn := rfl
@[simp] theorem State.onCtx_ctx (s : State) (f : Ctx → Ctx) : (s.onCtx f).ctx = f s.ctx := rfl
@[simp] theorem State.onCtx_get (s : State) (f : Ctx → Ctx) (g : Fld) : (s.onCtx f).get g = s.get g := rfl
@[simp] theorem State.onCtx_on (s : State) (f : Ctx → Ctx) (g : Fld) : (s.onCtx f).on g = s.on g := rfl
@[simp] theorem State.onCtx_sget (s : State) (f : Ctx → Ctx) (g : Fld) : (s.onCtx f).sget g = s.sget g := rfl
@[simp] theorem State.onCtx_cur (s : State) (f : Ctx → Ctx) (g : Fld) : (s.onCtx f).cur g = s.cur g := rfl
@[simp] theorem State.onCtx_count (s : State) (f : Ctx → Ctx) (c : Nat) : (s.onCtx f).count c = s.count c := rfl
@[simp] theorem State.onJwl_pending (s : State) (f : Jwl → Jwl) : (s.onJwl f).pending = s.pending := rfl
@[simp] theorem State.onJwl_ltb (s : State) (f : Jwl → Jwl) : (s.onJwl f).ltb = s.ltb := rfl
@[simp] theorem State.onJwl_freeCtr (s : State) (f : Jwl → Jwl) : (s.onJwl f).freeCtr = s.freeCtr := rfl
@[simp] theorem State.onJwl_out (s : State) (f : Jwl → Jwl) : (s.onJwl f).out = s.out := rfl
@[simp] theorem State.onJwl_resp (s : State) (f : Jwl → Jwl) : (s.onJwl f).resp = s.resp := rfl
@[simp] theorem State.onJwl_straps (s : State) (f : Jwl → Jwl) : (s.onJwl f).straps = s.straps := rfl
@[simp] theorem State.onJwl_fuses (s : State) (f : Jwl → Jwl) : (s.onJwl f).fuses = s.fuses := rfl
@[simp] theorem State.onJwl_fields (s : State) (f : Jwl → Jwl) : (s.onJwl f).fields = s.fields := rfl
@[simp] theorem State.onJwl_inForce (s : State) (f : Jwl → Jwl) : (s.onJwl f).inForce = s.inForce := rfl
@[simp] theorem State.onJwl_cnt (s : State) (f : Jwl → Jwl) : (s.onJwl f).cnt = s.cnt := rfl
@[simp] theorem State.onJwl_cntLast (s : State) (f : Jwl → Jwl) : (s.onJwl f).cntLast = s.cntLast := rfl
@[simp] theorem State.onJwl_claims (s : State) (f : Jwl → Jwl) : (s.onJwl f).claims = s.claims := rfl
@[simp] theorem State.onJwl_pins (s : State) (f : Jwl → Jwl) : (s.onJwl f).pins = s.pins := rfl
@[simp] theorem State.onJwl_store (s : State) (f : Jwl → Jwl) : (s.onJwl f).store = s.store := rfl
@[simp] theorem State.onJwl_bal (s : State) (f : Jwl → Jwl) : (s.onJwl f).bal = s.bal := rfl
@[simp] theorem State.onJwl_rx (s : State) (f : Jwl → Jwl) : (s.onJwl f).rx = s.rx := rfl
@[simp] theorem State.onJwl_chains (s : State) (f : Jwl → Jwl) : (s.onJwl f).chains = s.chains := rfl
@[simp] theorem State.onJwl_coex (s : State) (f : Jwl → Jwl) : (s.onJwl f).coex = s.coex := rfl
@[simp] theorem State.onJwl_sic (s : State) (f : Jwl → Jwl) : (s.onJwl f).sic = s.sic := rfl
@[simp] theorem State.onJwl_lanes (s : State) (f : Jwl → Jwl) : (s.onJwl f).lanes = s.lanes := rfl
@[simp] theorem State.onJwl_hif (s : State) (f : Jwl → Jwl) : (s.onJwl f).hif = s.hif := rfl
@[simp] theorem State.onJwl_mbx (s : State) (f : Jwl → Jwl) : (s.onJwl f).mbx = s.mbx := rfl
@[simp] theorem State.onJwl_chr (s : State) (f : Jwl → Jwl) : (s.onJwl f).chr = s.chr := rfl
@[simp] theorem State.onJwl_pwr (s : State) (f : Jwl → Jwl) : (s.onJwl f).pwr = s.pwr := rfl
@[simp] theorem State.onJwl_laneRecs (s : State) (f : Jwl → Jwl) : (s.onJwl f).laneRecs = s.laneRecs := rfl
@[simp] theorem State.onJwl_txDone (s : State) (f : Jwl → Jwl) : (s.onJwl f).txDone = s.txDone := rfl
@[simp] theorem State.onJwl_once (s : State) (f : Jwl → Jwl) : (s.onJwl f).once = s.once := rfl
@[simp] theorem State.onJwl_amc (s : State) (f : Jwl → Jwl) : (s.onJwl f).amc = s.amc := rfl
@[simp] theorem State.onJwl_slp (s : State) (f : Jwl → Jwl) : (s.onJwl f).slp = s.slp := rfl
@[simp] theorem State.onJwl_esc (s : State) (f : Jwl → Jwl) : (s.onJwl f).esc = s.esc := rfl
@[simp] theorem State.onJwl_fwd (s : State) (f : Jwl → Jwl) : (s.onJwl f).fwd = s.fwd := rfl
@[simp] theorem State.onJwl_ctx (s : State) (f : Jwl → Jwl) : (s.onJwl f).ctx = s.ctx := rfl
@[simp] theorem State.onJwl_eth (s : State) (f : Jwl → Jwl) : (s.onJwl f).eth = s.eth := rfl
@[simp] theorem State.onJwl_twn (s : State) (f : Jwl → Jwl) : (s.onJwl f).twn = s.twn := rfl
@[simp] theorem State.onJwl_crn (s : State) (f : Jwl → Jwl) : (s.onJwl f).crn = s.crn := rfl
@[simp] theorem State.onJwl_jwl (s : State) (f : Jwl → Jwl) : (s.onJwl f).jwl = f s.jwl := rfl
@[simp] theorem State.onJwl_get (s : State) (f : Jwl → Jwl) (g : Fld) : (s.onJwl f).get g = s.get g := rfl
@[simp] theorem State.onJwl_on (s : State) (f : Jwl → Jwl) (g : Fld) : (s.onJwl f).on g = s.on g := rfl
@[simp] theorem State.onJwl_sget (s : State) (f : Jwl → Jwl) (g : Fld) : (s.onJwl f).sget g = s.sget g := rfl
@[simp] theorem State.onJwl_cur (s : State) (f : Jwl → Jwl) (g : Fld) : (s.onJwl f).cur g = s.cur g := rfl
@[simp] theorem State.onJwl_count (s : State) (f : Jwl → Jwl) (c : Nat) : (s.onJwl f).count c = s.count c := rfl
@[simp] theorem State.onEth_pending (s : State) (i : Nat) (f : Eth → Eth) : (s.onEth i f).pending = s.pending := rfl
@[simp] theorem State.onEth_ltb (s : State) (i : Nat) (f : Eth → Eth) : (s.onEth i f).ltb = s.ltb := rfl
@[simp] theorem State.onEth_freeCtr (s : State) (i : Nat) (f : Eth → Eth) : (s.onEth i f).freeCtr = s.freeCtr := rfl
@[simp] theorem State.onEth_out (s : State) (i : Nat) (f : Eth → Eth) : (s.onEth i f).out = s.out := rfl
@[simp] theorem State.onEth_resp (s : State) (i : Nat) (f : Eth → Eth) : (s.onEth i f).resp = s.resp := rfl
@[simp] theorem State.onEth_straps (s : State) (i : Nat) (f : Eth → Eth) : (s.onEth i f).straps = s.straps := rfl
@[simp] theorem State.onEth_fuses (s : State) (i : Nat) (f : Eth → Eth) : (s.onEth i f).fuses = s.fuses := rfl
@[simp] theorem State.onEth_fields (s : State) (i : Nat) (f : Eth → Eth) : (s.onEth i f).fields = s.fields := rfl
@[simp] theorem State.onEth_inForce (s : State) (i : Nat) (f : Eth → Eth) : (s.onEth i f).inForce = s.inForce := rfl
@[simp] theorem State.onEth_cnt (s : State) (i : Nat) (f : Eth → Eth) : (s.onEth i f).cnt = s.cnt := rfl
@[simp] theorem State.onEth_cntLast (s : State) (i : Nat) (f : Eth → Eth) : (s.onEth i f).cntLast = s.cntLast := rfl
@[simp] theorem State.onEth_claims (s : State) (i : Nat) (f : Eth → Eth) : (s.onEth i f).claims = s.claims := rfl
@[simp] theorem State.onEth_pins (s : State) (i : Nat) (f : Eth → Eth) : (s.onEth i f).pins = s.pins := rfl
@[simp] theorem State.onEth_store (s : State) (i : Nat) (f : Eth → Eth) : (s.onEth i f).store = s.store := rfl
@[simp] theorem State.onEth_bal (s : State) (i : Nat) (f : Eth → Eth) : (s.onEth i f).bal = s.bal := rfl
@[simp] theorem State.onEth_rx (s : State) (i : Nat) (f : Eth → Eth) : (s.onEth i f).rx = s.rx := rfl
@[simp] theorem State.onEth_chains (s : State) (i : Nat) (f : Eth → Eth) : (s.onEth i f).chains = s.chains := rfl
@[simp] theorem State.onEth_coex (s : State) (i : Nat) (f : Eth → Eth) : (s.onEth i f).coex = s.coex := rfl
@[simp] theorem State.onEth_sic (s : State) (i : Nat) (f : Eth → Eth) : (s.onEth i f).sic = s.sic := rfl
@[simp] theorem State.onEth_lanes (s : State) (i : Nat) (f : Eth → Eth) : (s.onEth i f).lanes = s.lanes := rfl
@[simp] theorem State.onEth_hif (s : State) (i : Nat) (f : Eth → Eth) : (s.onEth i f).hif = s.hif := rfl
@[simp] theorem State.onEth_mbx (s : State) (i : Nat) (f : Eth → Eth) : (s.onEth i f).mbx = s.mbx := rfl
@[simp] theorem State.onEth_chr (s : State) (i : Nat) (f : Eth → Eth) : (s.onEth i f).chr = s.chr := rfl
@[simp] theorem State.onEth_pwr (s : State) (i : Nat) (f : Eth → Eth) : (s.onEth i f).pwr = s.pwr := rfl
@[simp] theorem State.onEth_laneRecs (s : State) (i : Nat) (f : Eth → Eth)
    : (s.onEth i f).laneRecs = s.laneRecs := rfl
@[simp] theorem State.onEth_txDone (s : State) (i : Nat) (f : Eth → Eth) : (s.onEth i f).txDone = s.txDone := rfl
@[simp] theorem State.onEth_once (s : State) (i : Nat) (f : Eth → Eth) : (s.onEth i f).once = s.once := rfl
@[simp] theorem State.onEth_amc (s : State) (i : Nat) (f : Eth → Eth) : (s.onEth i f).amc = s.amc := rfl
@[simp] theorem State.onEth_slp (s : State) (i : Nat) (f : Eth → Eth) : (s.onEth i f).slp = s.slp := rfl
@[simp] theorem State.onEth_esc (s : State) (i : Nat) (f : Eth → Eth) : (s.onEth i f).esc = s.esc := rfl
@[simp] theorem State.onEth_fwd (s : State) (i : Nat) (f : Eth → Eth) : (s.onEth i f).fwd = s.fwd := rfl
@[simp] theorem State.onEth_ctx (s : State) (i : Nat) (f : Eth → Eth) : (s.onEth i f).ctx = s.ctx := rfl
@[simp] theorem State.onEth_jwl (s : State) (i : Nat) (f : Eth → Eth) : (s.onEth i f).jwl = s.jwl := rfl
@[simp] theorem State.onEth_twn (s : State) (i : Nat) (f : Eth → Eth) : (s.onEth i f).twn = s.twn := rfl
@[simp] theorem State.onEth_crn (s : State) (i : Nat) (f : Eth → Eth) : (s.onEth i f).crn = s.crn := rfl
@[simp] theorem State.onEth_get (s : State) (i : Nat) (f : Eth → Eth) (g : Fld) : (s.onEth i f).get g = s.get g := rfl
@[simp] theorem State.onEth_on (s : State) (i : Nat) (f : Eth → Eth) (g : Fld) : (s.onEth i f).on g = s.on g := rfl
@[simp] theorem State.onEth_sget (s : State) (i : Nat) (f : Eth → Eth) (g : Fld)
    : (s.onEth i f).sget g = s.sget g := rfl
@[simp] theorem State.onEth_cur (s : State) (i : Nat) (f : Eth → Eth) (g : Fld) : (s.onEth i f).cur g = s.cur g := rfl
@[simp] theorem State.onEth_count (s : State) (i : Nat) (f : Eth → Eth) (c : Nat)
    : (s.onEth i f).count c = s.count c := rfl
@[simp] theorem State.onTwn_pending (s : State) (f : Twn → Twn) : (s.onTwn f).pending = s.pending := rfl
@[simp] theorem State.onTwn_ltb (s : State) (f : Twn → Twn) : (s.onTwn f).ltb = s.ltb := rfl
@[simp] theorem State.onTwn_freeCtr (s : State) (f : Twn → Twn) : (s.onTwn f).freeCtr = s.freeCtr := rfl
@[simp] theorem State.onTwn_out (s : State) (f : Twn → Twn) : (s.onTwn f).out = s.out := rfl
@[simp] theorem State.onTwn_resp (s : State) (f : Twn → Twn) : (s.onTwn f).resp = s.resp := rfl
@[simp] theorem State.onTwn_straps (s : State) (f : Twn → Twn) : (s.onTwn f).straps = s.straps := rfl
@[simp] theorem State.onTwn_fuses (s : State) (f : Twn → Twn) : (s.onTwn f).fuses = s.fuses := rfl
@[simp] theorem State.onTwn_fields (s : State) (f : Twn → Twn) : (s.onTwn f).fields = s.fields := rfl
@[simp] theorem State.onTwn_inForce (s : State) (f : Twn → Twn) : (s.onTwn f).inForce = s.inForce := rfl
@[simp] theorem State.onTwn_cnt (s : State) (f : Twn → Twn) : (s.onTwn f).cnt = s.cnt := rfl
@[simp] theorem State.onTwn_cntLast (s : State) (f : Twn → Twn) : (s.onTwn f).cntLast = s.cntLast := rfl
@[simp] theorem State.onTwn_claims (s : State) (f : Twn → Twn) : (s.onTwn f).claims = s.claims := rfl
@[simp] theorem State.onTwn_pins (s : State) (f : Twn → Twn) : (s.onTwn f).pins = s.pins := rfl
@[simp] theorem State.onTwn_store (s : State) (f : Twn → Twn) : (s.onTwn f).store = s.store := rfl
@[simp] theorem State.onTwn_bal (s : State) (f : Twn → Twn) : (s.onTwn f).bal = s.bal := rfl
@[simp] theorem State.onTwn_rx (s : State) (f : Twn → Twn) : (s.onTwn f).rx = s.rx := rfl
@[simp] theorem State.onTwn_chains (s : State) (f : Twn → Twn) : (s.onTwn f).chains = s.chains := rfl
@[simp] theorem State.onTwn_coex (s : State) (f : Twn → Twn) : (s.onTwn f).coex = s.coex := rfl
@[simp] theorem State.onTwn_sic (s : State) (f : Twn → Twn) : (s.onTwn f).sic = s.sic := rfl
@[simp] theorem State.onTwn_lanes (s : State) (f : Twn → Twn) : (s.onTwn f).lanes = s.lanes := rfl
@[simp] theorem State.onTwn_hif (s : State) (f : Twn → Twn) : (s.onTwn f).hif = s.hif := rfl
@[simp] theorem State.onTwn_mbx (s : State) (f : Twn → Twn) : (s.onTwn f).mbx = s.mbx := rfl
@[simp] theorem State.onTwn_chr (s : State) (f : Twn → Twn) : (s.onTwn f).chr = s.chr := rfl
@[simp] theorem State.onTwn_pwr (s : State) (f : Twn → Twn) : (s.onTwn f).pwr = s.pwr := rfl
@[simp] theorem State.onTwn_laneRecs (s : State) (f : Twn → Twn) : (s.onTwn f).laneRecs = s.laneRecs := rfl
@[simp] theorem State.onTwn_txDone (s : State) (f : Twn → Twn) : (s.onTwn f).txDone = s.txDone := rfl
@[simp] theorem State.onTwn_once (s : State) (f : Twn → Twn) : (s.onTwn f).once = s.once := rfl
@[simp] theorem State.onTwn_amc (s : State) (f : Twn → Twn) : (s.onTwn f).amc = s.amc := rfl
@[simp] theorem State.onTwn_slp (s : State) (f : Twn → Twn) : (s.onTwn f).slp = s.slp := rfl
@[simp] theorem State.onTwn_esc (s : State) (f : Twn → Twn) : (s.onTwn f).esc = s.esc := rfl
@[simp] theorem State.onTwn_fwd (s : State) (f : Twn → Twn) : (s.onTwn f).fwd = s.fwd := rfl
@[simp] theorem State.onTwn_ctx (s : State) (f : Twn → Twn) : (s.onTwn f).ctx = s.ctx := rfl
@[simp] theorem State.onTwn_jwl (s : State) (f : Twn → Twn) : (s.onTwn f).jwl = s.jwl := rfl
@[simp] theorem State.onTwn_eth (s : State) (f : Twn → Twn) : (s.onTwn f).eth = s.eth := rfl
@[simp] theorem State.onTwn_crn (s : State) (f : Twn → Twn) : (s.onTwn f).crn = s.crn := rfl
@[simp] theorem State.onTwn_twn (s : State) (f : Twn → Twn) : (s.onTwn f).twn = f s.twn := rfl
@[simp] theorem State.onTwn_get (s : State) (f : Twn → Twn) (g : Fld) : (s.onTwn f).get g = s.get g := rfl
@[simp] theorem State.onTwn_on (s : State) (f : Twn → Twn) (g : Fld) : (s.onTwn f).on g = s.on g := rfl
@[simp] theorem State.onTwn_sget (s : State) (f : Twn → Twn) (g : Fld) : (s.onTwn f).sget g = s.sget g := rfl
@[simp] theorem State.onTwn_cur (s : State) (f : Twn → Twn) (g : Fld) : (s.onTwn f).cur g = s.cur g := rfl
@[simp] theorem State.onTwn_count (s : State) (f : Twn → Twn) (c : Nat) : (s.onTwn f).count c = s.count c := rfl
@[simp] theorem State.onPwr_pending (s : State) (f : Pwr → Pwr) : (s.onPwr f).pending = s.pending := rfl
@[simp] theorem State.onPwr_ltb (s : State) (f : Pwr → Pwr) : (s.onPwr f).ltb = s.ltb := rfl
@[simp] theorem State.onPwr_freeCtr (s : State) (f : Pwr → Pwr) : (s.onPwr f).freeCtr = s.freeCtr := rfl
@[simp] theorem State.onPwr_out (s : State) (f : Pwr → Pwr) : (s.onPwr f).out = s.out := rfl
@[simp] theorem State.onPwr_resp (s : State) (f : Pwr → Pwr) : (s.onPwr f).resp = s.resp := rfl
@[simp] theorem State.onPwr_straps (s : State) (f : Pwr → Pwr) : (s.onPwr f).straps = s.straps := rfl
@[simp] theorem State.onPwr_fuses (s : State) (f : Pwr → Pwr) : (s.onPwr f).fuses = s.fuses := rfl
@[simp] theorem State.onPwr_fields (s : State) (f : Pwr → Pwr) : (s.onPwr f).fields = s.fields := rfl
@[simp] theorem State.onPwr_inForce (s : State) (f : Pwr → Pwr) : (s.onPwr f).inForce = s.inForce := rfl
@[simp] theorem State.onPwr_cnt (s : State) (f : Pwr → Pwr) : (s.onPwr f).cnt = s.cnt := rfl
@[simp] theorem State.onPwr_cntLast (s : State) (f : Pwr → Pwr) : (s.onPwr f).cntLast = s.cntLast := rfl
@[simp] theorem State.onPwr_claims (s : State) (f : Pwr → Pwr) : (s.onPwr f).claims = s.claims := rfl
@[simp] theorem State.onPwr_pins (s : State) (f : Pwr → Pwr) : (s.onPwr f).pins = s.pins := rfl
@[simp] theorem State.onPwr_store (s : State) (f : Pwr → Pwr) : (s.onPwr f).store = s.store := rfl
@[simp] theorem State.onPwr_bal (s : State) (f : Pwr → Pwr) : (s.onPwr f).bal = s.bal := rfl
@[simp] theorem State.onPwr_rx (s : State) (f : Pwr → Pwr) : (s.onPwr f).rx = s.rx := rfl
@[simp] theorem State.onPwr_chains (s : State) (f : Pwr → Pwr) : (s.onPwr f).chains = s.chains := rfl
@[simp] theorem State.onPwr_coex (s : State) (f : Pwr → Pwr) : (s.onPwr f).coex = s.coex := rfl
@[simp] theorem State.onPwr_sic (s : State) (f : Pwr → Pwr) : (s.onPwr f).sic = s.sic := rfl
@[simp] theorem State.onPwr_lanes (s : State) (f : Pwr → Pwr) : (s.onPwr f).lanes = s.lanes := rfl
@[simp] theorem State.onPwr_hif (s : State) (f : Pwr → Pwr) : (s.onPwr f).hif = s.hif := rfl
@[simp] theorem State.onPwr_mbx (s : State) (f : Pwr → Pwr) : (s.onPwr f).mbx = s.mbx := rfl
@[simp] theorem State.onPwr_chr (s : State) (f : Pwr → Pwr) : (s.onPwr f).chr = s.chr := rfl
@[simp] theorem State.onPwr_laneRecs (s : State) (f : Pwr → Pwr) : (s.onPwr f).laneRecs = s.laneRecs := rfl
@[simp] theorem State.onPwr_txDone (s : State) (f : Pwr → Pwr) : (s.onPwr f).txDone = s.txDone := rfl
@[simp] theorem State.onPwr_once (s : State) (f : Pwr → Pwr) : (s.onPwr f).once = s.once := rfl
@[simp] theorem State.onPwr_amc (s : State) (f : Pwr → Pwr) : (s.onPwr f).amc = s.amc := rfl
@[simp] theorem State.onPwr_slp (s : State) (f : Pwr → Pwr) : (s.onPwr f).slp = s.slp := rfl
@[simp] theorem State.onPwr_esc (s : State) (f : Pwr → Pwr) : (s.onPwr f).esc = s.esc := rfl
@[simp] theorem State.onPwr_fwd (s : State) (f : Pwr → Pwr) : (s.onPwr f).fwd = s.fwd := rfl
@[simp] theorem State.onPwr_ctx (s : State) (f : Pwr → Pwr) : (s.onPwr f).ctx = s.ctx := rfl
@[simp] theorem State.onPwr_jwl (s : State) (f : Pwr → Pwr) : (s.onPwr f).jwl = s.jwl := rfl
@[simp] theorem State.onPwr_eth (s : State) (f : Pwr → Pwr) : (s.onPwr f).eth = s.eth := rfl
@[simp] theorem State.onPwr_twn (s : State) (f : Pwr → Pwr) : (s.onPwr f).twn = s.twn := rfl
@[simp] theorem State.onPwr_crn (s : State) (f : Pwr → Pwr) : (s.onPwr f).crn = s.crn := rfl
@[simp] theorem State.onPwr_pwr (s : State) (f : Pwr → Pwr) : (s.onPwr f).pwr = f s.pwr := rfl
@[simp] theorem State.onPwr_get (s : State) (f : Pwr → Pwr) (g : Fld) : (s.onPwr f).get g = s.get g := rfl
@[simp] theorem State.onPwr_on (s : State) (f : Pwr → Pwr) (g : Fld) : (s.onPwr f).on g = s.on g := rfl
@[simp] theorem State.onPwr_sget (s : State) (f : Pwr → Pwr) (g : Fld) : (s.onPwr f).sget g = s.sget g := rfl
@[simp] theorem State.onPwr_cur (s : State) (f : Pwr → Pwr) (g : Fld) : (s.onPwr f).cur g = s.cur g := rfl
@[simp] theorem State.onPwr_count (s : State) (f : Pwr → Pwr) (c : Nat) : (s.onPwr f).count c = s.count c := rfl
@[simp] theorem State.onCrn_pending (s : State) (f : Crn → Crn) : (s.onCrn f).pending = s.pending := rfl
@[simp] theorem State.onCrn_ltb (s : State) (f : Crn → Crn) : (s.onCrn f).ltb = s.ltb := rfl
@[simp] theorem State.onCrn_freeCtr (s : State) (f : Crn → Crn) : (s.onCrn f).freeCtr = s.freeCtr := rfl
@[simp] theorem State.onCrn_out (s : State) (f : Crn → Crn) : (s.onCrn f).out = s.out := rfl
@[simp] theorem State.onCrn_resp (s : State) (f : Crn → Crn) : (s.onCrn f).resp = s.resp := rfl
@[simp] theorem State.onCrn_straps (s : State) (f : Crn → Crn) : (s.onCrn f).straps = s.straps := rfl
@[simp] theorem State.onCrn_fuses (s : State) (f : Crn → Crn) : (s.onCrn f).fuses = s.fuses := rfl
@[simp] theorem State.onCrn_fields (s : State) (f : Crn → Crn) : (s.onCrn f).fields = s.fields := rfl
@[simp] theorem State.onCrn_inForce (s : State) (f : Crn → Crn) : (s.onCrn f).inForce = s.inForce := rfl
@[simp] theorem State.onCrn_cnt (s : State) (f : Crn → Crn) : (s.onCrn f).cnt = s.cnt := rfl
@[simp] theorem State.onCrn_cntLast (s : State) (f : Crn → Crn) : (s.onCrn f).cntLast = s.cntLast := rfl
@[simp] theorem State.onCrn_claims (s : State) (f : Crn → Crn) : (s.onCrn f).claims = s.claims := rfl
@[simp] theorem State.onCrn_pins (s : State) (f : Crn → Crn) : (s.onCrn f).pins = s.pins := rfl
@[simp] theorem State.onCrn_store (s : State) (f : Crn → Crn) : (s.onCrn f).store = s.store := rfl
@[simp] theorem State.onCrn_bal (s : State) (f : Crn → Crn) : (s.onCrn f).bal = s.bal := rfl
@[simp] theorem State.onCrn_rx (s : State) (f : Crn → Crn) : (s.onCrn f).rx = s.rx := rfl
@[simp] theorem State.onCrn_chains (s : State) (f : Crn → Crn) : (s.onCrn f).chains = s.chains := rfl
@[simp] theorem State.onCrn_coex (s : State) (f : Crn → Crn) : (s.onCrn f).coex = s.coex := rfl
@[simp] theorem State.onCrn_sic (s : State) (f : Crn → Crn) : (s.onCrn f).sic = s.sic := rfl
@[simp] theorem State.onCrn_lanes (s : State) (f : Crn → Crn) : (s.onCrn f).lanes = s.lanes := rfl
@[simp] theorem State.onCrn_hif (s : State) (f : Crn → Crn) : (s.onCrn f).hif = s.hif := rfl
@[simp] theorem State.onCrn_mbx (s : State) (f : Crn → Crn) : (s.onCrn f).mbx = s.mbx := rfl
@[simp] theorem State.onCrn_chr (s : State) (f : Crn → Crn) : (s.onCrn f).chr = s.chr := rfl
@[simp] theorem State.onCrn_pwr (s : State) (f : Crn → Crn) : (s.onCrn f).pwr = s.pwr := rfl
@[simp] theorem State.onCrn_laneRecs (s : State) (f : Crn → Crn) : (s.onCrn f).laneRecs = s.laneRecs := rfl
@[simp] theorem State.onCrn_txDone (s : State) (f : Crn → Crn) : (s.onCrn f).txDone = s.txDone := rfl
@[simp] theorem State.onCrn_once (s : State) (f : Crn → Crn) : (s.onCrn f).once = s.once := rfl
@[simp] theorem State.onCrn_amc (s : State) (f : Crn → Crn) : (s.onCrn f).amc = s.amc := rfl
@[simp] theorem State.onCrn_slp (s : State) (f : Crn → Crn) : (s.onCrn f).slp = s.slp := rfl
@[simp] theorem State.onCrn_esc (s : State) (f : Crn → Crn) : (s.onCrn f).esc = s.esc := rfl
@[simp] theorem State.onCrn_fwd (s : State) (f : Crn → Crn) : (s.onCrn f).fwd = s.fwd := rfl
@[simp] theorem State.onCrn_ctx (s : State) (f : Crn → Crn) : (s.onCrn f).ctx = s.ctx := rfl
@[simp] theorem State.onCrn_jwl (s : State) (f : Crn → Crn) : (s.onCrn f).jwl = s.jwl := rfl
@[simp] theorem State.onCrn_eth (s : State) (f : Crn → Crn) : (s.onCrn f).eth = s.eth := rfl
@[simp] theorem State.onCrn_twn (s : State) (f : Crn → Crn) : (s.onCrn f).twn = s.twn := rfl
@[simp] theorem State.onCrn_crn (s : State) (f : Crn → Crn) : (s.onCrn f).crn = f s.crn := rfl
@[simp] theorem State.onCrn_get (s : State) (f : Crn → Crn) (g : Fld) : (s.onCrn f).get g = s.get g := rfl
@[simp] theorem State.onCrn_on (s : State) (f : Crn → Crn) (g : Fld) : (s.onCrn f).on g = s.on g := rfl
@[simp] theorem State.onCrn_sget (s : State) (f : Crn → Crn) (g : Fld) : (s.onCrn f).sget g = s.sget g := rfl
@[simp] theorem State.onCrn_cur (s : State) (f : Crn → Crn) (g : Fld) : (s.onCrn f).cur g = s.cur g := rfl
@[simp] theorem State.onCrn_count (s : State) (f : Crn → Crn) (c : Nat) : (s.onCrn f).count c = s.count c := rfl
@[simp] theorem State.onChr_pending (s : State) (f : Chr → Chr) : (s.onChr f).pending = s.pending := rfl
@[simp] theorem State.onChr_ltb (s : State) (f : Chr → Chr) : (s.onChr f).ltb = s.ltb := rfl
@[simp] theorem State.onChr_freeCtr (s : State) (f : Chr → Chr) : (s.onChr f).freeCtr = s.freeCtr := rfl
@[simp] theorem State.onChr_out (s : State) (f : Chr → Chr) : (s.onChr f).out = s.out := rfl
@[simp] theorem State.onChr_resp (s : State) (f : Chr → Chr) : (s.onChr f).resp = s.resp := rfl
@[simp] theorem State.onChr_straps (s : State) (f : Chr → Chr) : (s.onChr f).straps = s.straps := rfl
@[simp] theorem State.onChr_fuses (s : State) (f : Chr → Chr) : (s.onChr f).fuses = s.fuses := rfl
@[simp] theorem State.onChr_fields (s : State) (f : Chr → Chr) : (s.onChr f).fields = s.fields := rfl
@[simp] theorem State.onChr_inForce (s : State) (f : Chr → Chr) : (s.onChr f).inForce = s.inForce := rfl
@[simp] theorem State.onChr_cnt (s : State) (f : Chr → Chr) : (s.onChr f).cnt = s.cnt := rfl
@[simp] theorem State.onChr_cntLast (s : State) (f : Chr → Chr) : (s.onChr f).cntLast = s.cntLast := rfl
@[simp] theorem State.onChr_claims (s : State) (f : Chr → Chr) : (s.onChr f).claims = s.claims := rfl
@[simp] theorem State.onChr_pins (s : State) (f : Chr → Chr) : (s.onChr f).pins = s.pins := rfl
@[simp] theorem State.onChr_store (s : State) (f : Chr → Chr) : (s.onChr f).store = s.store := rfl
@[simp] theorem State.onChr_bal (s : State) (f : Chr → Chr) : (s.onChr f).bal = s.bal := rfl
@[simp] theorem State.onChr_rx (s : State) (f : Chr → Chr) : (s.onChr f).rx = s.rx := rfl
@[simp] theorem State.onChr_chains (s : State) (f : Chr → Chr) : (s.onChr f).chains = s.chains := rfl
@[simp] theorem State.onChr_coex (s : State) (f : Chr → Chr) : (s.onChr f).coex = s.coex := rfl
@[simp] theorem State.onChr_sic (s : State) (f : Chr → Chr) : (s.onChr f).sic = s.sic := rfl
@[simp] theorem State.onChr_lanes (s : State) (f : Chr → Chr) : (s.onChr f).lanes = s.lanes := rfl
@[simp] theorem State.onChr_hif (s : State) (f : Chr → Chr) : (s.onChr f).hif = s.hif := rfl
@[simp] theorem State.onChr_mbx (s : State) (f : Chr → Chr) : (s.onChr f).mbx = s.mbx := rfl
@[simp] theorem State.onChr_pwr (s : State) (f : Chr → Chr) : (s.onChr f).pwr = s.pwr := rfl
@[simp] theorem State.onChr_laneRecs (s : State) (f : Chr → Chr) : (s.onChr f).laneRecs = s.laneRecs := rfl
@[simp] theorem State.onChr_txDone (s : State) (f : Chr → Chr) : (s.onChr f).txDone = s.txDone := rfl
@[simp] theorem State.onChr_once (s : State) (f : Chr → Chr) : (s.onChr f).once = s.once := rfl
@[simp] theorem State.onChr_amc (s : State) (f : Chr → Chr) : (s.onChr f).amc = s.amc := rfl
@[simp] theorem State.onChr_slp (s : State) (f : Chr → Chr) : (s.onChr f).slp = s.slp := rfl
@[simp] theorem State.onChr_esc (s : State) (f : Chr → Chr) : (s.onChr f).esc = s.esc := rfl
@[simp] theorem State.onChr_fwd (s : State) (f : Chr → Chr) : (s.onChr f).fwd = s.fwd := rfl
@[simp] theorem State.onChr_ctx (s : State) (f : Chr → Chr) : (s.onChr f).ctx = s.ctx := rfl
@[simp] theorem State.onChr_jwl (s : State) (f : Chr → Chr) : (s.onChr f).jwl = s.jwl := rfl
@[simp] theorem State.onChr_eth (s : State) (f : Chr → Chr) : (s.onChr f).eth = s.eth := rfl
@[simp] theorem State.onChr_twn (s : State) (f : Chr → Chr) : (s.onChr f).twn = s.twn := rfl
@[simp] theorem State.onChr_crn (s : State) (f : Chr → Chr) : (s.onChr f).crn = s.crn := rfl
@[simp] theorem State.onChr_chr (s : State) (f : Chr → Chr) : (s.onChr f).chr = f s.chr := rfl
@[simp] theorem State.onChr_get (s : State) (f : Chr → Chr) (g : Fld) : (s.onChr f).get g = s.get g := rfl
@[simp] theorem State.onChr_on (s : State) (f : Chr → Chr) (g : Fld) : (s.onChr f).on g = s.on g := rfl
@[simp] theorem State.onChr_sget (s : State) (f : Chr → Chr) (g : Fld) : (s.onChr f).sget g = s.sget g := rfl
@[simp] theorem State.onChr_cur (s : State) (f : Chr → Chr) (g : Fld) : (s.onChr f).cur g = s.cur g := rfl
@[simp] theorem State.onChr_count (s : State) (f : Chr → Chr) (c : Nat) : (s.onChr f).count c = s.count c := rfl
@[simp] theorem State.setOctets_pending (s : State) (a : Nat) (l : List Byte)
    : (s.setOctets a l).pending = s.pending := rfl
@[simp] theorem State.setOctets_ltb (s : State) (a : Nat) (l : List Byte) : (s.setOctets a l).ltb = s.ltb := rfl
@[simp] theorem State.setOctets_freeCtr (s : State) (a : Nat) (l : List Byte)
    : (s.setOctets a l).freeCtr = s.freeCtr := rfl
@[simp] theorem State.setOctets_out (s : State) (a : Nat) (l : List Byte) : (s.setOctets a l).out = s.out := rfl
@[simp] theorem State.setOctets_resp (s : State) (a : Nat) (l : List Byte) : (s.setOctets a l).resp = s.resp := rfl
@[simp] theorem State.setOctets_straps (s : State) (a : Nat) (l : List Byte)
    : (s.setOctets a l).straps = s.straps := rfl
@[simp] theorem State.setOctets_fuses (s : State) (a : Nat) (l : List Byte) : (s.setOctets a l).fuses = s.fuses := rfl
@[simp] theorem State.setOctets_fields (s : State) (a : Nat) (l : List Byte)
    : (s.setOctets a l).fields = s.fields := rfl
@[simp] theorem State.setOctets_inForce (s : State) (a : Nat) (l : List Byte)
    : (s.setOctets a l).inForce = s.inForce := rfl
@[simp] theorem State.setOctets_cnt (s : State) (a : Nat) (l : List Byte) : (s.setOctets a l).cnt = s.cnt := rfl
@[simp] theorem State.setOctets_cntLast (s : State) (a : Nat) (l : List Byte)
    : (s.setOctets a l).cntLast = s.cntLast := rfl
@[simp] theorem State.setOctets_claims (s : State) (a : Nat) (l : List Byte)
    : (s.setOctets a l).claims = s.claims := rfl
@[simp] theorem State.setOctets_pins (s : State) (a : Nat) (l : List Byte) : (s.setOctets a l).pins = s.pins := rfl
@[simp] theorem State.setOctets_bal (s : State) (a : Nat) (l : List Byte) : (s.setOctets a l).bal = s.bal := rfl
@[simp] theorem State.setOctets_rx (s : State) (a : Nat) (l : List Byte) : (s.setOctets a l).rx = s.rx := rfl
@[simp] theorem State.setOctets_chains (s : State) (a : Nat) (l : List Byte)
    : (s.setOctets a l).chains = s.chains := rfl
@[simp] theorem State.setOctets_coex (s : State) (a : Nat) (l : List Byte) : (s.setOctets a l).coex = s.coex := rfl
@[simp] theorem State.setOctets_sic (s : State) (a : Nat) (l : List Byte) : (s.setOctets a l).sic = s.sic := rfl
@[simp] theorem State.setOctets_lanes (s : State) (a : Nat) (l : List Byte) : (s.setOctets a l).lanes = s.lanes := rfl
@[simp] theorem State.setOctets_hif (s : State) (a : Nat) (l : List Byte) : (s.setOctets a l).hif = s.hif := rfl
@[simp] theorem State.setOctets_mbx (s : State) (a : Nat) (l : List Byte) : (s.setOctets a l).mbx = s.mbx := rfl
@[simp] theorem State.setOctets_chr (s : State) (a : Nat) (l : List Byte) : (s.setOctets a l).chr = s.chr := rfl
@[simp] theorem State.setOctets_pwr (s : State) (a : Nat) (l : List Byte) : (s.setOctets a l).pwr = s.pwr := rfl
@[simp] theorem State.setOctets_laneRecs (s : State) (a : Nat) (l : List Byte)
    : (s.setOctets a l).laneRecs = s.laneRecs := rfl
@[simp] theorem State.setOctets_txDone (s : State) (a : Nat) (l : List Byte)
    : (s.setOctets a l).txDone = s.txDone := rfl
@[simp] theorem State.setOctets_once (s : State) (a : Nat) (l : List Byte) : (s.setOctets a l).once = s.once := rfl
@[simp] theorem State.setOctets_amc (s : State) (a : Nat) (l : List Byte) : (s.setOctets a l).amc = s.amc := rfl
@[simp] theorem State.setOctets_slp (s : State) (a : Nat) (l : List Byte) : (s.setOctets a l).slp = s.slp := rfl
@[simp] theorem State.setOctets_esc (s : State) (a : Nat) (l : List Byte) : (s.setOctets a l).esc = s.esc := rfl
@[simp] theorem State.setOctets_fwd (s : State) (a : Nat) (l : List Byte) : (s.setOctets a l).fwd = s.fwd := rfl
@[simp] theorem State.setOctets_ctx (s : State) (a : Nat) (l : List Byte) : (s.setOctets a l).ctx = s.ctx := rfl
@[simp] theorem State.setOctets_jwl (s : State) (a : Nat) (l : List Byte) : (s.setOctets a l).jwl = s.jwl := rfl
@[simp] theorem State.setOctets_eth (s : State) (a : Nat) (l : List Byte) : (s.setOctets a l).eth = s.eth := rfl
@[simp] theorem State.setOctets_twn (s : State) (a : Nat) (l : List Byte) : (s.setOctets a l).twn = s.twn := rfl
@[simp] theorem State.setOctets_crn (s : State) (a : Nat) (l : List Byte) : (s.setOctets a l).crn = s.crn := rfl
@[simp] theorem State.setOctets_get (s : State) (a : Nat) (l : List Byte) (g : Fld)
    : (s.setOctets a l).get g = s.get g := rfl
@[simp] theorem State.setOctets_on (s : State) (a : Nat) (l : List Byte) (g : Fld)
    : (s.setOctets a l).on g = s.on g := rfl
@[simp] theorem State.setOctets_sget (s : State) (a : Nat) (l : List Byte) (g : Fld)
    : (s.setOctets a l).sget g = s.sget g := rfl
@[simp] theorem State.setOctets_cur (s : State) (a : Nat) (l : List Byte) (g : Fld)
    : (s.setOctets a l).cur g = s.cur g := rfl
@[simp] theorem State.setOctets_count (s : State) (a : Nat) (l : List Byte) (c : Nat)
    : (s.setOctets a l).count c = s.count c := rfl
@[simp] theorem State.takeEffect_pending (l : List Fld) (s : State) : (s.takeEffect l).pending = s.pending := by
  induction l generalizing s with
  | nil => rfl
  | cons f r ih => simp only [State.takeEffect, ih]
@[simp] theorem State.takeEffect_ltb (l : List Fld) (s : State) : (s.takeEffect l).ltb = s.ltb := by
  induction l generalizing s with
  | nil => rfl
  | cons f r ih => simp only [State.takeEffect, ih]
@[simp] theorem State.takeEffect_freeCtr (l : List Fld) (s : State) : (s.takeEffect l).freeCtr = s.freeCtr := by
  induction l generalizing s with
  | nil => rfl
  | cons f r ih => simp only [State.takeEffect, ih]
@[simp] theorem State.takeEffect_out (l : List Fld) (s : State) : (s.takeEffect l).out = s.out := by
  induction l generalizing s with
  | nil => rfl
  | cons f r ih => simp only [State.takeEffect, ih]
@[simp] theorem State.takeEffect_resp (l : List Fld) (s : State) : (s.takeEffect l).resp = s.resp := by
  induction l generalizing s with
  | nil => rfl
  | cons f r ih => simp only [State.takeEffect, ih]
@[simp] theorem State.takeEffect_straps (l : List Fld) (s : State) : (s.takeEffect l).straps = s.straps := by
  induction l generalizing s with
  | nil => rfl
  | cons f r ih => simp only [State.takeEffect, ih]
@[simp] theorem State.takeEffect_fuses (l : List Fld) (s : State) : (s.takeEffect l).fuses = s.fuses := by
  induction l generalizing s with
  | nil => rfl
  | cons f r ih => simp only [State.takeEffect, ih]
@[simp] theorem State.takeEffect_fields (l : List Fld) (s : State) : (s.takeEffect l).fields = s.fields := by
  induction l generalizing s with
  | nil => rfl
  | cons f r ih => simp only [State.takeEffect, ih]
@[simp] theorem State.takeEffect_cnt (l : List Fld) (s : State) : (s.takeEffect l).cnt = s.cnt := by
  induction l generalizing s with
  | nil => rfl
  | cons f r ih => simp only [State.takeEffect, ih]
@[simp] theorem State.takeEffect_cntLast (l : List Fld) (s : State) : (s.takeEffect l).cntLast = s.cntLast := by
  induction l generalizing s with
  | nil => rfl
  | cons f r ih => simp only [State.takeEffect, ih]
@[simp] theorem State.takeEffect_claims (l : List Fld) (s : State) : (s.takeEffect l).claims = s.claims := by
  induction l generalizing s with
  | nil => rfl
  | cons f r ih => simp only [State.takeEffect, ih]
@[simp] theorem State.takeEffect_pins (l : List Fld) (s : State) : (s.takeEffect l).pins = s.pins := by
  induction l generalizing s with
  | nil => rfl
  | cons f r ih => simp only [State.takeEffect, ih]
@[simp] theorem State.takeEffect_store (l : List Fld) (s : State) : (s.takeEffect l).store = s.store := by
  induction l generalizing s with
  | nil => rfl
  | cons f r ih => simp only [State.takeEffect, ih]
@[simp] theorem State.takeEffect_bal (l : List Fld) (s : State) : (s.takeEffect l).bal = s.bal := by
  induction l generalizing s with
  | nil => rfl
  | cons f r ih => simp only [State.takeEffect, ih]
@[simp] theorem State.takeEffect_rx (l : List Fld) (s : State) : (s.takeEffect l).rx = s.rx := by
  induction l generalizing s with
  | nil => rfl
  | cons f r ih => simp only [State.takeEffect, ih]
@[simp] theorem State.takeEffect_chains (l : List Fld) (s : State) : (s.takeEffect l).chains = s.chains := by
  induction l generalizing s with
  | nil => rfl
  | cons f r ih => simp only [State.takeEffect, ih]
@[simp] theorem State.takeEffect_coex (l : List Fld) (s : State) : (s.takeEffect l).coex = s.coex := by
  induction l generalizing s with
  | nil => rfl
  | cons f r ih => simp only [State.takeEffect, ih]
@[simp] theorem State.takeEffect_sic (l : List Fld) (s : State) : (s.takeEffect l).sic = s.sic := by
  induction l generalizing s with
  | nil => rfl
  | cons f r ih => simp only [State.takeEffect, ih]
@[simp] theorem State.takeEffect_lanes (l : List Fld) (s : State) : (s.takeEffect l).lanes = s.lanes := by
  induction l generalizing s with
  | nil => rfl
  | cons f r ih => simp only [State.takeEffect, ih]
@[simp] theorem State.takeEffect_hif (l : List Fld) (s : State) : (s.takeEffect l).hif = s.hif := by
  induction l generalizing s with
  | nil => rfl
  | cons f r ih => simp only [State.takeEffect, ih]
@[simp] theorem State.takeEffect_mbx (l : List Fld) (s : State) : (s.takeEffect l).mbx = s.mbx := by
  induction l generalizing s with
  | nil => rfl
  | cons f r ih => simp only [State.takeEffect, ih]
@[simp] theorem State.takeEffect_chr (l : List Fld) (s : State) : (s.takeEffect l).chr = s.chr := by
  induction l generalizing s with
  | nil => rfl
  | cons f r ih => simp only [State.takeEffect, ih]
@[simp] theorem State.takeEffect_pwr (l : List Fld) (s : State) : (s.takeEffect l).pwr = s.pwr := by
  induction l generalizing s with
  | nil => rfl
  | cons f r ih => simp only [State.takeEffect, ih]
@[simp] theorem State.takeEffect_laneRecs (l : List Fld) (s : State) : (s.takeEffect l).laneRecs = s.laneRecs := by
  induction l generalizing s with
  | nil => rfl
  | cons f r ih => simp only [State.takeEffect, ih]
@[simp] theorem State.takeEffect_txDone (l : List Fld) (s : State) : (s.takeEffect l).txDone = s.txDone := by
  induction l generalizing s with
  | nil => rfl
  | cons f r ih => simp only [State.takeEffect, ih]
@[simp] theorem State.takeEffect_once (l : List Fld) (s : State) : (s.takeEffect l).once = s.once := by
  induction l generalizing s with
  | nil => rfl
  | cons f r ih => simp only [State.takeEffect, ih]
@[simp] theorem State.takeEffect_amc (l : List Fld) (s : State) : (s.takeEffect l).amc = s.amc := by
  induction l generalizing s with
  | nil => rfl
  | cons f r ih => simp only [State.takeEffect, ih]
@[simp] theorem State.takeEffect_slp (l : List Fld) (s : State) : (s.takeEffect l).slp = s.slp := by
  induction l generalizing s with
  | nil => rfl
  | cons f r ih => simp only [State.takeEffect, ih]
@[simp] theorem State.takeEffect_esc (l : List Fld) (s : State) : (s.takeEffect l).esc = s.esc := by
  induction l generalizing s with
  | nil => rfl
  | cons f r ih => simp only [State.takeEffect, ih]
@[simp] theorem State.takeEffect_fwd (l : List Fld) (s : State) : (s.takeEffect l).fwd = s.fwd := by
  induction l generalizing s with
  | nil => rfl
  | cons f r ih => simp only [State.takeEffect, ih]
@[simp] theorem State.takeEffect_ctx (l : List Fld) (s : State) : (s.takeEffect l).ctx = s.ctx := by
  induction l generalizing s with
  | nil => rfl
  | cons f r ih => simp only [State.takeEffect, ih]
@[simp] theorem State.takeEffect_jwl (l : List Fld) (s : State) : (s.takeEffect l).jwl = s.jwl := by
  induction l generalizing s with
  | nil => rfl
  | cons f r ih => simp only [State.takeEffect, ih]
@[simp] theorem State.takeEffect_eth (l : List Fld) (s : State) : (s.takeEffect l).eth = s.eth := by
  induction l generalizing s with
  | nil => rfl
  | cons f r ih => simp only [State.takeEffect, ih]
@[simp] theorem State.takeEffect_twn (l : List Fld) (s : State) : (s.takeEffect l).twn = s.twn := by
  induction l generalizing s with
  | nil => rfl
  | cons f r ih => simp only [State.takeEffect, ih]
@[simp] theorem State.takeEffect_crn (l : List Fld) (s : State) : (s.takeEffect l).crn = s.crn := by
  induction l generalizing s with
  | nil => rfl
  | cons f r ih => simp only [State.takeEffect, ih]

/-! ### A state written out: only the parts that matter are looked at -/

@[simp] theorem State.get_lit (s : State) (g : Fld) {x0 : List Instr} {x1 : Nat} {x2 : Nat} {x3 : List Output}
    {x4 : Resp} {x5 : Straps} {x6 : Fuses} {x8 : Tab Nat} {x9 : Tab Nat} {x10 : Tab Nat} {x11 : Tab Holder}
    {x12 : List (Ball × Bool)} {x13 : List Host.Cell} {x14 : Bal} {x15 : Tab Rx} {x16 : Tab Chain} {x17 : Coex}
    {x18 : Sic} {x19 : Tab Lane} {x20 : Hif} {x21 : Mbx} {x22 : Chr} {x23 : Pwr} {x24 : List LaneRec}
    {x25 : List TxEnd} {x26 : List Nat} {x27 : Amc} {x28 : Slp} {x29 : Esc} {x30 : Fwd} {x31 : Ctx} {x32 : Jwl}
    {x33 : Tab Eth} {x34 : Twn} {x35 : Crn} :
    (State.mk x0 x1 x2 x3 x4 x5 x6 s.fields x8 x9 x10 x11 x12 x13 x14 x15 x16 x17 x18 x19 x20 x21 x22 x23 x24
      x25 x26 x27 x28 x29 x30 x31 x32 x33 x34 x35).get g = s.get g := rfl
@[simp] theorem State.on_lit (s : State) (g : Fld) {x0 : List Instr} {x1 : Nat} {x2 : Nat} {x3 : List Output}
    {x4 : Resp} {x5 : Straps} {x6 : Fuses} {x8 : Tab Nat} {x9 : Tab Nat} {x10 : Tab Nat} {x11 : Tab Holder}
    {x12 : List (Ball × Bool)} {x13 : List Host.Cell} {x14 : Bal} {x15 : Tab Rx} {x16 : Tab Chain} {x17 : Coex}
    {x18 : Sic} {x19 : Tab Lane} {x20 : Hif} {x21 : Mbx} {x22 : Chr} {x23 : Pwr} {x24 : List LaneRec}
    {x25 : List TxEnd} {x26 : List Nat} {x27 : Amc} {x28 : Slp} {x29 : Esc} {x30 : Fwd} {x31 : Ctx} {x32 : Jwl}
    {x33 : Tab Eth} {x34 : Twn} {x35 : Crn} :
    (State.mk x0 x1 x2 x3 x4 x5 x6 s.fields x8 x9 x10 x11 x12 x13 x14 x15 x16 x17 x18 x19 x20 x21 x22 x23 x24
      x25 x26 x27 x28 x29 x30 x31 x32 x33 x34 x35).on g = s.on g := rfl
@[simp] theorem State.sget_lit (s : State) (g : Fld) {x0 : List Instr} {x1 : Nat} {x2 : Nat} {x3 : List Output}
    {x4 : Resp} {x5 : Straps} {x6 : Fuses} {x8 : Tab Nat} {x9 : Tab Nat} {x10 : Tab Nat} {x11 : Tab Holder}
    {x12 : List (Ball × Bool)} {x13 : List Host.Cell} {x14 : Bal} {x15 : Tab Rx} {x16 : Tab Chain} {x17 : Coex}
    {x18 : Sic} {x19 : Tab Lane} {x20 : Hif} {x21 : Mbx} {x22 : Chr} {x23 : Pwr} {x24 : List LaneRec}
    {x25 : List TxEnd} {x26 : List Nat} {x27 : Amc} {x28 : Slp} {x29 : Esc} {x30 : Fwd} {x31 : Ctx} {x32 : Jwl}
    {x33 : Tab Eth} {x34 : Twn} {x35 : Crn} :
    (State.mk x0 x1 x2 x3 x4 x5 x6 s.fields x8 x9 x10 x11 x12 x13 x14 x15 x16 x17 x18 x19 x20 x21 x22 x23 x24
      x25 x26 x27 x28 x29 x30 x31 x32 x33 x34 x35).sget g = s.sget g := rfl
@[simp] theorem State.cur_lit (s : State) (g : Fld) {x0 : List Instr} {x1 : Nat} {x2 : Nat} {x3 : List Output}
    {x4 : Resp} {x5 : Straps} {x6 : Fuses} {x9 : Tab Nat} {x10 : Tab Nat} {x11 : Tab Holder}
    {x12 : List (Ball × Bool)} {x13 : List Host.Cell} {x14 : Bal} {x15 : Tab Rx} {x16 : Tab Chain} {x17 : Coex}
    {x18 : Sic} {x19 : Tab Lane} {x20 : Hif} {x21 : Mbx} {x22 : Chr} {x23 : Pwr} {x24 : List LaneRec}
    {x25 : List TxEnd} {x26 : List Nat} {x27 : Amc} {x28 : Slp} {x29 : Esc} {x30 : Fwd} {x31 : Ctx} {x32 : Jwl}
    {x33 : Tab Eth} {x34 : Twn} {x35 : Crn} :
    (State.mk x0 x1 x2 x3 x4 x5 x6 s.fields s.inForce x9 x10 x11 x12 x13 x14 x15 x16 x17 x18 x19 x20 x21 x22
      x23 x24 x25 x26 x27 x28 x29 x30 x31 x32 x33 x34 x35).cur g = s.cur g := rfl
@[simp] theorem State.count_lit (s : State) (c : Nat) {x0 : List Instr} {x1 : Nat} {x2 : Nat} {x3 : List Output}
    {x4 : Resp} {x5 : Straps} {x6 : Fuses} {x7 : Tab Nat} {x8 : Tab Nat} {x10 : Tab Nat} {x11 : Tab Holder}
    {x12 : List (Ball × Bool)} {x13 : List Host.Cell} {x14 : Bal} {x15 : Tab Rx} {x16 : Tab Chain} {x17 : Coex}
    {x18 : Sic} {x19 : Tab Lane} {x20 : Hif} {x21 : Mbx} {x22 : Chr} {x23 : Pwr} {x24 : List LaneRec}
    {x25 : List TxEnd} {x26 : List Nat} {x27 : Amc} {x28 : Slp} {x29 : Esc} {x30 : Fwd} {x31 : Ctx} {x32 : Jwl}
    {x33 : Tab Eth} {x34 : Twn} {x35 : Crn} :
    (State.mk x0 x1 x2 x3 x4 x5 x6 x7 x8 s.cnt x10 x11 x12 x13 x14 x15 x16 x17 x18 x19 x20 x21 x22 x23 x24 x25
      x26 x27 x28 x29 x30 x31 x32 x33 x34 x35).count c = s.count c := rfl
@[simp] theorem State.ringOf_lit (s : State) (r : Nat) {x0 : List Instr} {x1 : Nat} {x2 : Nat} {x3 : List Output}
    {x4 : Resp} {x5 : Straps} {x6 : Fuses} {x7 : Tab Nat} {x8 : Tab Nat} {x9 : Tab Nat} {x10 : Tab Nat}
    {x11 : Tab Holder} {x12 : List (Ball × Bool)} {x13 : List Host.Cell} {x14 : Bal} {x15 : Tab Rx}
    {x16 : Tab Chain} {x17 : Coex} {x18 : Sic} {x19 : Tab Lane} {x21 : Mbx} {x22 : Chr} {x23 : Pwr}
    {x24 : List LaneRec} {x25 : List TxEnd} {x26 : List Nat} {x27 : Amc} {x28 : Slp} {x29 : Esc} {x30 : Fwd}
    {x31 : Ctx} {x32 : Jwl} {x33 : Tab Eth} {x34 : Twn} {x35 : Crn} :
    (State.mk x0 x1 x2 x3 x4 x5 x6 x7 x8 x9 x10 x11 x12 x13 x14 x15 x16 x17 x18 x19 s.hif x21 x22 x23 x24 x25
      x26 x27 x28 x29 x30 x31 x32 x33 x34 x35).ringOf r = s.ringOf r := rfl
@[simp] theorem State.laneOf_lit (s : State) (n : Nat) {x0 : List Instr} {x1 : Nat} {x2 : Nat} {x3 : List Output}
    {x4 : Resp} {x5 : Straps} {x6 : Fuses} {x7 : Tab Nat} {x8 : Tab Nat} {x9 : Tab Nat} {x10 : Tab Nat}
    {x11 : Tab Holder} {x12 : List (Ball × Bool)} {x13 : List Host.Cell} {x14 : Bal} {x15 : Tab Rx}
    {x16 : Tab Chain} {x17 : Coex} {x18 : Sic} {x20 : Hif} {x21 : Mbx} {x22 : Chr} {x23 : Pwr}
    {x24 : List LaneRec} {x25 : List TxEnd} {x26 : List Nat} {x27 : Amc} {x28 : Slp} {x29 : Esc} {x30 : Fwd}
    {x31 : Ctx} {x32 : Jwl} {x33 : Tab Eth} {x34 : Twn} {x35 : Crn} :
    (State.mk x0 x1 x2 x3 x4 x5 x6 x7 x8 x9 x10 x11 x12 x13 x14 x15 x16 x17 x18 s.lanes x20 x21 x22 x23 x24 x25
      x26 x27 x28 x29 x30 x31 x32 x33 x34 x35).laneOf n = s.laneOf n := rfl
@[simp] theorem State.chainOf_lit (s : State) (n : Nat) {x0 : List Instr} {x1 : Nat} {x2 : Nat}
    {x3 : List Output} {x4 : Resp} {x5 : Straps} {x6 : Fuses} {x7 : Tab Nat} {x8 : Tab Nat} {x9 : Tab Nat}
    {x10 : Tab Nat} {x11 : Tab Holder} {x12 : List (Ball × Bool)} {x13 : List Host.Cell} {x14 : Bal}
    {x15 : Tab Rx} {x17 : Coex} {x18 : Sic} {x19 : Tab Lane} {x20 : Hif} {x21 : Mbx} {x22 : Chr} {x23 : Pwr}
    {x24 : List LaneRec} {x25 : List TxEnd} {x26 : List Nat} {x27 : Amc} {x28 : Slp} {x29 : Esc} {x30 : Fwd}
    {x31 : Ctx} {x32 : Jwl} {x33 : Tab Eth} {x34 : Twn} {x35 : Crn} :
    (State.mk x0 x1 x2 x3 x4 x5 x6 x7 x8 x9 x10 x11 x12 x13 x14 x15 s.chains x17 x18 x19 x20 x21 x22 x23 x24
      x25 x26 x27 x28 x29 x30 x31 x32 x33 x34 x35).chainOf n = s.chainOf n := rfl
@[simp] theorem State.rxOf_lit (s : State) (n : Nat) {x0 : List Instr} {x1 : Nat} {x2 : Nat} {x3 : List Output}
    {x4 : Resp} {x5 : Straps} {x6 : Fuses} {x7 : Tab Nat} {x8 : Tab Nat} {x9 : Tab Nat} {x10 : Tab Nat}
    {x11 : Tab Holder} {x12 : List (Ball × Bool)} {x13 : List Host.Cell} {x14 : Bal} {x16 : Tab Chain}
    {x17 : Coex} {x18 : Sic} {x19 : Tab Lane} {x20 : Hif} {x21 : Mbx} {x22 : Chr} {x23 : Pwr}
    {x24 : List LaneRec} {x25 : List TxEnd} {x26 : List Nat} {x27 : Amc} {x28 : Slp} {x29 : Esc} {x30 : Fwd}
    {x31 : Ctx} {x32 : Jwl} {x33 : Tab Eth} {x34 : Twn} {x35 : Crn} :
    (State.mk x0 x1 x2 x3 x4 x5 x6 x7 x8 x9 x10 x11 x12 x13 x14 s.rx x16 x17 x18 x19 x20 x21 x22 x23 x24 x25
      x26 x27 x28 x29 x30 x31 x32 x33 x34 x35).rxOf n = s.rxOf n := rfl
@[simp] theorem State.ttOf_lit (s : State) (n : Nat) {x0 : List Instr} {x1 : Nat} {x2 : Nat} {x3 : List Output}
    {x4 : Resp} {x5 : Straps} {x6 : Fuses} {x7 : Tab Nat} {x8 : Tab Nat} {x9 : Tab Nat} {x10 : Tab Nat}
    {x11 : Tab Holder} {x12 : List (Ball × Bool)} {x13 : List Host.Cell} {x15 : Tab Rx} {x16 : Tab Chain}
    {x17 : Coex} {x18 : Sic} {x19 : Tab Lane} {x20 : Hif} {x21 : Mbx} {x22 : Chr} {x23 : Pwr}
    {x24 : List LaneRec} {x25 : List TxEnd} {x26 : List Nat} {x27 : Amc} {x28 : Slp} {x29 : Esc} {x30 : Fwd}
    {x31 : Ctx} {x32 : Jwl} {x33 : Tab Eth} {x34 : Twn} {x35 : Crn} :
    (State.mk x0 x1 x2 x3 x4 x5 x6 x7 x8 x9 x10 x11 x12 x13 s.bal x15 x16 x17 x18 x19 x20 x21 x22 x23 x24 x25
      x26 x27 x28 x29 x30 x31 x32 x33 x34 x35).ttOf n = s.ttOf n := rfl
@[simp] theorem State.takeEffect_get (l : List Fld) (s : State) (g : Fld) : (s.takeEffect l).get g = s.get g :=
  State.get_eq (by simp) g

end Sys2Proof.Machine
end

