-- ==== Sys2Proof/Laws/Events.lean ====
section
/-! SUPPORT. What raising an event and counting can do, said once: `Kept` (the next state is the old one but for reporting
and measuring), that they leave every register field as it is, and that the event is pending afterwards. -/

set_option Elab.async false

namespace Sys2Proof.Machine

theorem Kept.refl (s : State) : Kept s s := by constructor <;> (try intros) <;> first | rfl | assumption

/-- The owners of the rings are no part of reporting. -/
theorem ringOwner_key {r : Nat} (hr : r < 256) : chrFlagKey (Reg.HIF_RING_CTRL_owner r).key = false := by
  refine decide_eq_false (fun h => ?_)
  have h : 0x16060c * 32 ≤ (0xf1000 + 0x40 * r) * 32 + 1 ∧ _ := h
  omega

theorem Kept.hostRings {s u : State} (h : Kept s u) (a : s.hostRings) : u.hostRings := fun r hr => by
  unfold ringOwner
  rw [h.get _ (ringOwner_key hr)]
  exact a r hr

theorem Kept.trans {s t u : State} (h : Kept s t) (k : Kept t u) : Kept s u where
  get f hf := (k.get f hf).trans (h.get f hf)
  count c a := (k.count c a).trans (h.count c a)
  out o ho := k.out o (h.out o ho)
  pend e he := k.pend e (h.pend e he)
  rings r hr := (k.rings r hr).trans (h.rings r hr)
  hif := by
    have a := h.hif; have b := k.hif
    generalize s.hif = x, t.hif = y, u.hif = z at *
    cases x; cases y; cases z; simp_all
  mem a := (k.mem (h.hostRings a)).trans (h.mem a)
  mbx := by
    have a := h.mbx; have b := k.mbx
    generalize s.mbx = x, t.mbx = y, u.mbx = z at *
    cases x; cases y; cases z; simp_all
  pwr := k.pwr.trans h.pwr
  recs := k.recs.trans h.recs
  tagged := k.tagged.trans h.tagged
  samples := k.samples.trans h.samples
  enabled := k.enabled.trans h.enabled
  ltb := k.ltb.trans h.ltb
  resp := k.resp.trans h.resp
  freeCtr := k.freeCtr.trans h.freeCtr
  straps := k.straps.trans h.straps
  fuses := k.fuses.trans h.fuses
  cntLast := k.cntLast.trans h.cntLast
  inForce j hj := (k.inForce j hj).trans (h.inForce j hj)
  claims := k.claims.trans h.claims
  pins := k.pins.trans h.pins
  store := k.store.trans h.store
  bal := k.bal.trans h.bal
  rx := k.rx.trans h.rx
  chains := k.chains.trans h.chains
  coex := k.coex.trans h.coex
  sic := k.sic.trans h.sic
  lanes := k.lanes.trans h.lanes
  laneRecs := k.laneRecs.trans h.laneRecs
  txDone := k.txDone.trans h.txDone
  once := k.once.trans h.once
  amc := k.amc.trans h.amc
  slp := k.slp.trans h.slp
  esc := k.esc.trans h.esc
  fwd := k.fwd.trans h.fwd
  ctx := k.ctx.trans h.ctx
  jwl := k.jwl.trans h.jwl
  eth := k.eth.trans h.eth
  twn := k.twn.trans h.twn
  crn := k.crn.trans h.crn

/-! ### Steps of the proof: each operation of reporting -/

theorem Kept.fold {α : Type} {f : State → α → State} {s u : State} (l : List α) (hs : Kept s u)
    (h : ∀ v x, Kept s v → Kept s (f v x)) : Kept s (l.foldl f u) := by
  induction l generalizing u with
  | nil => exact hs
  | cons a r ih => exact ih (h u a hs)

/-! ### Counting in the Chronograph -/

/-- The parts of the Chronograph that counting leaves. -/
structure ChrSame (c d : Chr) : Prop where
  recs : d.recs = c.recs
  tagged : d.tagged = c.tagged
  samples : d.samples = c.samples
  enabled : d.enabled = c.enabled

theorem ChrSame.refl (c : Chr) : ChrSame c c := ⟨rfl, rfl, rfl, rfl⟩

theorem ChrSame.trans {c d e : Chr} (h : ChrSame c d) (k : ChrSame d e) : ChrSame c e :=
  ⟨k.recs.trans h.recs, k.tagged.trans h.tagged, k.samples.trans h.samples, k.enabled.trans h.enabled⟩

theorem ChrSame.fold {α : Type} {f : Chr → α → Chr} {c d : Chr} (l : List α) (h : ChrSame c d)
    (k : ∀ e x, ChrSame e (f e x)) : ChrSame c (l.foldl f d) := by
  induction l generalizing d with
  | nil => exact h
  | cons a r ih => exact ih (h.trans (k d a))

theorem binAdd_same (s : State) (c : Chr) (u b v m t : Nat) : ChrSame c (binAdd s c u b v m t) := ⟨rfl, rfl, rfl, rfl⟩

theorem histWith_same (s : State) {count : Chr → Nat → Nat → Nat → Nat → Nat → Chr} 
    (h : ∀ c k n a m g, ChrSame c (count c k n a m g))
    (c : Chr) (u v m t gap : Nat) : ChrSame c (histWith s count c u v m t gap) := by
  unfold histWith
  exact ChrSame.fold _ (binAdd_same ..) (fun e x => h ..)

theorem chrCount_same (s : State) (n : Nat) (c : Chr) (k m first num gap : Nat) :
    ChrSame c (chrCount s n c k m first num gap) := by
  induction n generalizing c k m first num gap with
  | zero => exact ChrSame.refl c
  | succ n ih =>
    unfold chrCount
    split
    · exact ChrSame.refl c
    · extract_lets v last d
      have hd : ChrSame c d := by constructor <;> rfl
      clear_value d last
      refine ChrSame.fold _ (ChrSame.fold _ hd (fun e x => ?_)) (fun e x => ih ..)
      have hw := histWith_same s ih
      generalize histWith s (chrCount s n) = w at hw ⊢
      cases last <;> dsimp only
      · rcases Nat.lt_or_ge 1 num with a | a
        · rw [if_neg (Nat.not_le.2 a)]; exact hw ..
        · rw [if_pos a]; exact ChrSame.refl _
      · rcases Nat.lt_or_ge 1 num with a | a
        · rw [if_neg (Nat.not_le.2 a)]; exact (hw ..).trans (hw ..)
        · rw [if_pos a]; exact hw ..

theorem chrFollow_same (s : State) (c n : Nat) : ChrSame s.chr (chrFollow s c n) := by
  unfold chrFollow
  split
  · exact (ChrSame.refl s.chr)
  · exact ChrSame.fold _ (ChrSame.refl s.chr) (fun e x => chrCount_same ..)

/-- States that differ in what the Chronograph has measured alone. -/
theorem Kept.chr {s u : State} (c : Chr) (h : Kept s u) (e : ChrSame u.chr c) : Kept s { u with chr := c } := by
  refine h.trans ?_
  constructor <;> (try intros) <;> first | rfl | assumption | exact e.recs | exact e.tagged | exact e.samples | exact e.enabled

theorem chrAdd_kept (s : State) (k n : Nat) : Kept s (s.chrAdd k n) := (Kept.refl s).chr _ (chrCount_same ..)

theorem histBin_kept (s : State) (u v : Nat) : Kept s (histBin s u v) :=
  (Kept.refl s).chr _ (histWith_same s (chrCount_same s 64) ..)

/-- A counter after counting (modulo 2³²); the others stay. -/
theorem State.count_bumpBy (s : State) (c n d : Nat) :
    (s.bumpBy c n).count d = if c = d then (s.count c + n) % 2 ^ 32 else s.count d := tabGetD_put ..

@[simp] theorem State.bumpBy_fields (s : State) (c n : Nat) : (s.bumpBy c n).fields = s.fields := rfl

@[simp] theorem State.bump_fields (s : State) (c : Nat) : (s.bump c).fields = s.fields := rfl

@[simp] theorem State.bump_get (s : State) (c : Nat) (f : Fld) : (s.bump c).get f = s.get f := rfl

theorem Kept.of_countBy {s u : State} (c n : Nat) (hc : c ∈ reportCounts) (h : Kept s u) : Kept s (u.bumpBy c n) := by
  refine h.trans ?_
  have e : Kept ({ u with cnt := tabPut u.cnt c ((u.count c + n) % 2 ^ 32) } : State) (u.bumpBy c n) :=
    Kept.chr (u := { u with cnt := tabPut u.cnt c ((u.count c + n) % 2 ^ 32) }) (chrFollow u c n) (Kept.refl _)
      (chrFollow_same u c n)
  refine Kept.trans ?_ e
  clear e
  constructor <;> (try intros) <;> first | rfl | assumption | skip
  rename_i d h1
  show tabGetD (tabPut u.cnt c _) d 0 = tabGetD u.cnt d 0
  rw [tabGetD_put, if_neg]
  rintro rfl
  exact h1 hc

theorem Kept.of_count {s u : State} (c : Nat) (hc : c ∈ reportCounts) (h : Kept s u) : Kept s (u.bump c) := h.of_countBy c 1 hc

theorem foldl_same {α β : Type} {f : State → α → State} (g : State → β) (l : List α) (s : State)
    (h : ∀ v x, g (f v x) = g v) : g (l.foldl f s) = g s := by
  induction l generalizing s with
  | nil => rfl
  | cons a r ih => exact (ih _).trans (h s a)

/-- Fields whose writes take effect change in what is in force alone. -/
theorem takeEffect_eq (l : List Fld) (s : State) : s.takeEffect l = { s with inForce := (s.takeEffect l).inForce } := by
  induction l generalizing s with
  | nil => rfl
  | cons f r ih => exact ih _

theorem takeEffect_inForce (l : List Fld) (s : State) (k : Nat) (h : ∀ f ∈ l, f.key ≠ k) :
    tabGet (s.takeEffect l).inForce k = tabGet s.inForce k := by
  induction l generalizing s with
  | nil => rfl
  | cons f r ih =>
    exact (ih _ (fun g hg => h g (List.mem_cons_of_mem _ hg))).trans (tabGet_del_ne _ (h f (List.mem_cons_self ..)))

theorem takeEffect_kept (l : List Fld) (s : State) (h : ∀ f ∈ l, vecKey f.key = true) : Kept s (s.takeEffect l) := by
  have e := takeEffect_eq l s
  have i := takeEffect_inForce l s
  rw [e]
  constructor <;> (try intros) <;> first | rfl | assumption | skip
  rename_i k hk
  exact i k (fun f hf c => by rw [← c, h f hf] at hk; cases hk)

/-- The coalescing of a vector takes effect. -/
theorem vecTake_kept (s : State) (v : Nat) :
    Kept s (s.takeEffect [Reg.HIF_VEC_CFG_coal_cnt (v % 64), Reg.HIF_VEC_CFG_coal_us (v % 64)]) := by
  refine takeEffect_kept _ _ (fun f hf => decide_eq_true ?_)
  simp only [List.mem_cons, List.not_mem_nil, or_false] at hf
  rcases hf with e | e <;> subst e
  · show 0xf0100 * 32 ≤ (0xf0100 + 0x4 * (v % 64)) * 32 + 0 ∧ (0xf0100 + 0x4 * (v % 64)) * 32 + 0 < 0xf0200 * 32
    omega
  · show 0xf0100 * 32 ≤ (0xf0100 + 0x4 * (v % 64)) * 32 + 8 ∧ (0xf0100 + 0x4 * (v % 64)) * 32 + 8 < 0xf0200 * 32
    omega

theorem lineFire_kept (s : State) (v : Nat) : Kept s (lineFire s v) := by
  unfold lineFire
  dsimp only
  split <;> constructor <;> (try intros) <;> first | rfl | assumption | skip
  exact List.mem_append_left _ ‹_›

theorem msixFire_kept (s : State) (v : Nat) : Kept s (msixFire s v) := by
  unfold msixFire
  split
  · constructor <;> (try intros) <;> first | rfl | assumption
  · refine Kept.of_count _ (by decide) ?_
    constructor <;> (try intros) <;> first | rfl | assumption | exact List.mem_append_left _ ‹_›

theorem vecFire_kept (s : State) (v : Nat) : Kept s (vecFire s v) := by
  have a : Kept s { s with hif := { s.hif with vecs := tabDel s.hif.vecs v } } := by
    constructor <;> (try intros) <;> first | rfl | assumption
  unfold vecFire
  dsimp only
  split
  · exact (a.trans (vecTake_kept ..)).trans (lineFire_kept ..)
  · exact (a.trans (vecTake_kept ..)).trans (msixFire_kept ..)

theorem vecCause_kept (s : State) (v : Nat) : Kept s (vecCause s v) := by
  unfold vecCause
  extract_lets old new src s1
  have a : Kept s s1 := by
    constructor <;> (try intros) <;> first | rfl | assumption
  split
  · exact Kept.refl s
  split
  · exact a.trans (vecFire_kept ..)
  · exact a

theorem setRing_kept (s : State) {r : Nat} (g : Ring) (h : 224 ≤ r) : Kept s (s.setRing r g) := by
  constructor <;> (try intros) <;> first | rfl | assumption | skip
  exact tabGet_put_ne _ _ (by omega)

theorem emit_kept (s : State) (o : Output) : Kept s (s.emit o) := by
  constructor <;> (try intros) <;> first | rfl | assumption | exact List.mem_append_left _ ‹_›

/-- HIF writes memory: an output, and the cluster's memory where the ring is the cluster's. -/
theorem memOut_kept (s : State) {r : Nat} (addr : Nat) (l : List Byte) (h : r < 256) :
    Kept s (s.memOut (ringOwner s r) addr l) := by
  unfold State.memOut
  dsimp only
  split
  · refine (emit_kept s (.memWrite (ringOwner s r) addr l)).trans ?_
    constructor <;> (try intros) <;> first | rfl | assumption | skip
    rename_i e a
    exact absurd e (a r h)
  · exact emit_kept ..

@[simp] theorem memOut_fields (s : State) (o a : Nat) (l : List Byte) : (s.memOut o a l).fields = s.fields := by
  unfold State.memOut; dsimp only; split <;> rfl

theorem ringCause_kept (s : State) {r : Nat} (h : 224 ≤ r) : Kept s (ringCause s r) := by
  unfold ringCause
  split
  · exact (setRing_kept s _ h).trans (vecCause_kept ..)
  · exact Kept.refl s

theorem ringProduce_kept (s : State) {r : Nat} (i e : List Byte) (h : 224 ≤ r) (h' : r < 256) :
    Kept s (ringProduce s r i e) := by
  unfold ringProduce
  extract_lets g log2 slot s1 s2
  have a : Kept s s1 := by
    simp only [s1]; split
    · exact Kept.refl s
    · exact memOut_kept s _ _ h'
  exact ((a.trans (memOut_kept s1 _ _ h')).trans (setRing_kept _ _ h)).trans (ringCause_kept _ h)

theorem eventOffer_kept (s : State) {r : Nat} (ev a0 a1 a2 : Nat) (sw : Bool) (h : 224 ≤ r) (h' : r < 256) :
    Kept s (eventOffer s r ev a0 a1 a2 sw).1 := by
  unfold eventOffer
  split
  · exact Kept.of_count _ (by decide) (Kept.refl s)
  · extract_lets g seq
    split
    · exact Kept.of_count _ (by decide) (setRing_kept _ _ h)
    · exact (setRing_kept _ _ h).trans (ringProduce_kept _ _ _ h h')

theorem mem_addOnce {α : Type} [DecidableEq α] {l : List α} {a x : α} : x ∈ addOnce l a ↔ x ∈ l ∨ x = a := by
  unfold addOnce; split
  · exact ⟨.inl, fun h => h.elim id (fun e => e ▸ ‹_›)⟩
  · simp

theorem pend_kept (s : State) (ev : Nat) : Kept s { s with hif := { s.hif with pend := addOnce s.hif.pend ev } } := by
  constructor <;> (try intros) <;> first | rfl | assumption | exact mem_addOnce.2 (.inl ‹_›)

theorem raiseOnce_kept (s : State) (ev a0 a1 a2 : Nat) (sw : Bool) :
    Kept ({ s with hif := { s.hif with pend := addOnce s.hif.pend ev } } : State) (raiseOnce s ev a0 a1 a2 sw).1 := by
  unfold raiseOnce
  extract_lets src s1
  have lt : eventRing s1 ev < 256 := by unfold eventRing; omega
  have a := Kept.of_count Reg.EVT_CNT_RAISED (by decide)
    (Kept.refl ({ s with hif := { s.hif with pend := addOnce s.hif.pend ev } } : State))
  split
  rename_i x s2 d e
  have b : Kept s1 s2 := by
    split at e
    · have h := congrArg Prod.fst e
      simp only at h; subst h
      exact eventOffer_kept _ _ _ _ _ _ (Nat.le_add_right ..) lt
    · cases e; exact Kept.refl _
  dsimp only
  split
  · exact (a.trans b).trans (vecCause_kept ..)
  · exact a.trans b

theorem raiseSw_kept (s : State) (ev a0 a1 a2 : Nat) (sw : Bool) :
    Kept ({ s with hif := { s.hif with pend := addOnce s.hif.pend ev } } : State) (raiseSw s ev a0 a1 a2 sw) := by
  unfold raiseSw
  have a := raiseOnce_kept s ev a0 a1 a2 sw
  generalize raiseOnce s ev a0 a1 a2 sw = p at *
  obtain ⟨t, d⟩ := p
  dsimp only at *
  split
  · exact (a.trans (pend_kept ..)).trans (raiseOnce_kept ..)
  · exact a

/-- Raising an event that is no fault event: all that changes is reporting. -/
theorem raise_kept (s : State) (ev a0 a1 a2 : Nat) (h : faultEvents.contains ev = false) : Kept s (s.raise ev a0 a1 a2) := by
  unfold State.raise
  rw [h]
  exact (pend_kept s ev).trans (raiseSw_kept s ev a0 a1 a2 false)

/-- Raising a fault event: the classifier gets it, and all else is reporting. -/
theorem raise_fault (s : State) (ev a0 a1 a2 : Nat) (h : faultEvents.contains ev = true) :
    Kept (s.onPwr (fun p => { p with inbox := p.inbox ++ [⟨ev, a0, a1, a2⟩] })) (s.raise ev a0 a1 a2) := by
  unfold State.raise
  rw [h]
  exact (pend_kept _ ev).trans (raiseSw_kept _ ev a0 a1 a2 false)

/-- The event is pending. -/
theorem raise_pend (s : State) (ev a0 a1 a2 : Nat) : ev ∈ (s.raise ev a0 a1 a2).hif.pend := by
  unfold State.raise
  extract_lets src s1
  exact (raiseSw_kept s1 ev a0 a1 a2 false).pend ev (mem_addOnce.2 (.inr rfl))

/-! ### Raising and counting as one update

`Told s u`: `u` is `s` with other outputs, rings, vectors, lines, counters and measurements. -/

/-- Only the parts that reporting has differ. -/
def Told (s u : State) : Prop :=
  u = { s with hif := u.hif, mbx := u.mbx, out := u.out, inForce := u.inForce, cnt := u.cnt, chr := u.chr }

theorem Told.refl (s : State) : Told s s := rfl

theorem Told.trans {s t u : State} (h : Told s t) (k : Told t u) : Told s u := by
  unfold Told at *
  cases s; cases t; cases u
  simp only [State.mk.injEq] at *
  simp_all

theorem Told.fold {α : Type} {f : State → α → State} {s u : State} (l : List α) (hs : Told s u)
    (h : ∀ v x, Told s v → Told s (f v x)) : Told s (l.foldl f u) := by
  induction l generalizing u with
  | nil => exact hs
  | cons a r ih => exact ih (h u a hs)

theorem bumpBy_told (s : State) (c n : Nat) : Told s (s.bumpBy c n) := rfl

theorem lineFire_told (s : State) (v : Nat) : Told s (lineFire s v) := by
  unfold lineFire; dsimp only; split <;> rfl

theorem msixFire_told (s : State) (v : Nat) : Told s (msixFire s v) := by
  unfold msixFire
  split
  · rfl
  · exact Told.trans (t := ({ s with hif := { s.hif with pba := s.hif.pba.filter (· != v) } } : State).emit (msixMessage s v)) rfl
      (bumpBy_told ..)

theorem takeEffect_told (l : List Fld) (s : State) : Told s (s.takeEffect l) := by
  induction l generalizing s with
  | nil => rfl
  | cons f r ih => exact Told.trans (t := { s with inForce := tabDel s.inForce f.key }) rfl (ih _)

theorem vecFire_told (s : State) (v : Nat) : Told s (vecFire s v) := by
  have a : Told s { s with hif := { s.hif with vecs := tabDel s.hif.vecs v } } := rfl
  unfold vecFire
  dsimp only
  split
  · exact (a.trans (takeEffect_told ..)).trans (lineFire_told ..)
  · exact (a.trans (takeEffect_told ..)).trans (msixFire_told ..)

theorem vecCause_told (s : State) (v : Nat) : Told s (vecCause s v) := by
  unfold vecCause
  extract_lets old new src s1
  have a : Told s s1 := rfl
  split
  · rfl
  split
  · exact a.trans (vecFire_told ..)
  · exact a

theorem memOut_told (s : State) (o a : Nat) (l : List Byte) : Told s (s.memOut o a l) := by
  unfold State.memOut; dsimp only; split <;> rfl

theorem ringCause_told (s : State) (r : Nat) : Told s (ringCause s r) := by
  unfold ringCause
  split
  · exact Told.trans (t := s.setRing r { s.ringOf r with armed := false }) rfl (vecCause_told ..)
  · rfl

theorem ringProduce_told (s : State) (r : Nat) (i e : List Byte) : Told s (ringProduce s r i e) := by
  unfold ringProduce
  extract_lets g log2 slot s1 s2
  have a : Told s s1 := by
    simp only [s1]; split
    · rfl
    · exact memOut_told ..
  exact (a.trans (memOut_told s1 ..)).trans (Told.trans (t := s2.setRing r _) rfl (ringCause_told ..))

theorem eventOffer_told (s : State) (r ev a0 a1 a2 : Nat) (sw : Bool) : Told s (eventOffer s r ev a0 a1 a2 sw).1 := by
  unfold eventOffer
  split
  · exact bumpBy_told ..
  · extract_lets g seq
    split
    · exact Told.trans (t := s.setRing r _) rfl (bumpBy_told ..)
    · exact Told.trans (t := s.setRing r _) rfl (ringProduce_told ..)

theorem raiseOnce_told (s : State) (ev a0 a1 a2 : Nat) (sw : Bool) : Told s (raiseOnce s ev a0 a1 a2 sw).1 := by
  unfold raiseOnce
  extract_lets src s1
  have a : Told s s1 := Told.trans (t := { s with hif := { s.hif with pend := addOnce s.hif.pend ev } }) rfl (bumpBy_told ..)
  split
  rename_i x s2 d e
  have b : Told s1 s2 := by
    split at e
    · have h := congrArg Prod.fst e
      simp only at h; subst h
      exact eventOffer_told ..
    · cases e; rfl
  dsimp only
  split
  · exact (a.trans b).trans (vecCause_told ..)
  · exact a.trans b

theorem raiseSw_told (s : State) (ev a0 a1 a2 : Nat) (sw : Bool) : Told s (raiseSw s ev a0 a1 a2 sw) := by
  unfold raiseSw
  have a := raiseOnce_told s ev a0 a1 a2 sw
  generalize raiseOnce s ev a0 a1 a2 sw = p at *
  obtain ⟨t, d⟩ := p
  dsimp only at *
  split
  · exact a.trans (raiseOnce_told ..)
  · exact a

@[simp] theorem State.raise_pending (s : State) (ev a0 a1 a2 : Nat) : (s.raise ev a0 a1 a2).pending = s.pending := by
  unfold State.raise
  extract_lets src s1
  rw [raiseSw_told s1 ev a0 a1 a2 false]
  simp only [s1]; split <;> rfl

@[simp] theorem State.raise_ltb (s : State) (ev a0 a1 a2 : Nat) : (s.raise ev a0 a1 a2).ltb = s.ltb := by
  unfold State.raise
  extract_lets src s1
  rw [raiseSw_told s1 ev a0 a1 a2 false]
  simp only [s1]; split <;> rfl

@[simp] theorem State.raise_freeCtr (s : State) (ev a0 a1 a2 : Nat) : (s.raise ev a0 a1 a2).freeCtr = s.freeCtr := by
  unfold State.raise
  extract_lets src s1
  rw [raiseSw_told s1 ev a0 a1 a2 false]
  simp only [s1]; split <;> rfl

@[simp] theorem State.raise_resp (s : State) (ev a0 a1 a2 : Nat) : (s.raise ev a0 a1 a2).resp = s.resp := by
  unfold State.raise
  extract_lets src s1
  rw [raiseSw_told s1 ev a0 a1 a2 false]
  simp only [s1]; split <;> rfl

@[simp] theorem State.raise_straps (s : State) (ev a0 a1 a2 : Nat) : (s.raise ev a0 a1 a2).straps = s.straps := by
  unfold State.raise
  extract_lets src s1
  rw [raiseSw_told s1 ev a0 a1 a2 false]
  simp only [s1]; split <;> rfl

@[simp] theorem State.raise_fuses (s : State) (ev a0 a1 a2 : Nat) : (s.raise ev a0 a1 a2).fuses = s.fuses := by
  unfold State.raise
  extract_lets src s1
  rw [raiseSw_told s1 ev a0 a1 a2 false]
  simp only [s1]; split <;> rfl

@[simp] theorem State.raise_fields (s : State) (ev a0 a1 a2 : Nat) : (s.raise ev a0 a1 a2).fields = s.fields := by
  unfold State.raise
  extract_lets src s1
  rw [raiseSw_told s1 ev a0 a1 a2 false]
  simp only [s1]; split <;> rfl

@[simp] theorem State.raise_cntLast (s : State) (ev a0 a1 a2 : Nat) : (s.raise ev a0 a1 a2).cntLast = s.cntLast := by
  unfold State.raise
  extract_lets src s1
  rw [raiseSw_told s1 ev a0 a1 a2 false]
  simp only [s1]; split <;> rfl

@[simp] theorem State.raise_claims (s : State) (ev a0 a1 a2 : Nat) : (s.raise ev a0 a1 a2).claims = s.claims := by
  unfold State.raise
  extract_lets src s1
  rw [raiseSw_told s1 ev a0 a1 a2 false]
  simp only [s1]; split <;> rfl

@[simp] theorem State.raise_pins (s : State) (ev a0 a1 a2 : Nat) : (s.raise ev a0 a1 a2).pins = s.pins := by
  unfold State.raise
  extract_lets src s1
  rw [raiseSw_told s1 ev a0 a1 a2 false]
  simp only [s1]; split <;> rfl

@[simp] theorem State.raise_store (s : State) (ev a0 a1 a2 : Nat) : (s.raise ev a0 a1 a2).store = s.store := by
  unfold State.raise
  extract_lets src s1
  rw [raiseSw_told s1 ev a0 a1 a2 false]
  simp only [s1]; split <;> rfl

@[simp] theorem State.raise_bal (s : State) (ev a0 a1 a2 : Nat) : (s.raise ev a0 a1 a2).bal = s.bal := by
  unfold State.raise
  extract_lets src s1
  rw [raiseSw_told s1 ev a0 a1 a2 false]
  simp only [s1]; split <;> rfl

@[simp] theorem State.raise_rx (s : State) (ev a0 a1 a2 : Nat) : (s.raise ev a0 a1 a2).rx = s.rx := by
  unfold State.raise
  extract_lets src s1
  rw [raiseSw_told s1 ev a0 a1 a2 false]
  simp only [s1]; split <;> rfl

@[simp] theorem State.raise_chains (s : State) (ev a0 a1 a2 : Nat) : (s.raise ev a0 a1 a2).chains = s.chains := by
  unfold State.raise
  extract_lets src s1
  rw [raiseSw_told s1 ev a0 a1 a2 false]
  simp only [s1]; split <;> rfl

@[simp] theorem State.raise_coex (s : State) (ev a0 a1 a2 : Nat) : (s.raise ev a0 a1 a2).coex = s.coex := by
  unfold State.raise
  extract_lets src s1
  rw [raiseSw_told s1 ev a0 a1 a2 false]
  simp only [s1]; split <;> rfl

@[simp] theorem State.raise_sic (s : State) (ev a0 a1 a2 : Nat) : (s.raise ev a0 a1 a2).sic = s.sic := by
  unfold State.raise
  extract_lets src s1
  rw [raiseSw_told s1 ev a0 a1 a2 false]
  simp only [s1]; split <;> rfl

@[simp] theorem State.raise_lanes (s : State) (ev a0 a1 a2 : Nat) : (s.raise ev a0 a1 a2).lanes = s.lanes := by
  unfold State.raise
  extract_lets src s1
  rw [raiseSw_told s1 ev a0 a1 a2 false]
  simp only [s1]; split <;> rfl

@[simp] theorem State.raise_laneRecs (s : State) (ev a0 a1 a2 : Nat) : (s.raise ev a0 a1 a2).laneRecs = s.laneRecs := by
  unfold State.raise
  extract_lets src s1
  rw [raiseSw_told s1 ev a0 a1 a2 false]
  simp only [s1]; split <;> rfl

@[simp] theorem State.raise_txDone (s : State) (ev a0 a1 a2 : Nat) : (s.raise ev a0 a1 a2).txDone = s.txDone := by
  unfold State.raise
  extract_lets src s1
  rw [raiseSw_told s1 ev a0 a1 a2 false]
  simp only [s1]; split <;> rfl

@[simp] theorem State.raise_once (s : State) (ev a0 a1 a2 : Nat) : (s.raise ev a0 a1 a2).once = s.once := by
  unfold State.raise
  extract_lets src s1
  rw [raiseSw_told s1 ev a0 a1 a2 false]
  simp only [s1]; split <;> rfl

@[simp] theorem State.raise_amc (s : State) (ev a0 a1 a2 : Nat) : (s.raise ev a0 a1 a2).amc = s.amc := by
  unfold State.raise
  extract_lets src s1
  rw [raiseSw_told s1 ev a0 a1 a2 false]
  simp only [s1]; split <;> rfl

@[simp] theorem State.raise_slp (s : State) (ev a0 a1 a2 : Nat) : (s.raise ev a0 a1 a2).slp = s.slp := by
  unfold State.raise
  extract_lets src s1
  rw [raiseSw_told s1 ev a0 a1 a2 false]
  simp only [s1]; split <;> rfl

@[simp] theorem State.raise_esc (s : State) (ev a0 a1 a2 : Nat) : (s.raise ev a0 a1 a2).esc = s.esc := by
  unfold State.raise
  extract_lets src s1
  rw [raiseSw_told s1 ev a0 a1 a2 false]
  simp only [s1]; split <;> rfl

@[simp] theorem State.raise_fwd (s : State) (ev a0 a1 a2 : Nat) : (s.raise ev a0 a1 a2).fwd = s.fwd := by
  unfold State.raise
  extract_lets src s1
  rw [raiseSw_told s1 ev a0 a1 a2 false]
  simp only [s1]; split <;> rfl

@[simp] theorem State.raise_ctx (s : State) (ev a0 a1 a2 : Nat) : (s.raise ev a0 a1 a2).ctx = s.ctx := by
  unfold State.raise
  extract_lets src s1
  rw [raiseSw_told s1 ev a0 a1 a2 false]
  simp only [s1]; split <;> rfl

@[simp] theorem State.raise_jwl (s : State) (ev a0 a1 a2 : Nat) : (s.raise ev a0 a1 a2).jwl = s.jwl := by
  unfold State.raise
  extract_lets src s1
  rw [raiseSw_told s1 ev a0 a1 a2 false]
  simp only [s1]; split <;> rfl

@[simp] theorem State.raise_eth (s : State) (ev a0 a1 a2 : Nat) : (s.raise ev a0 a1 a2).eth = s.eth := by
  unfold State.raise
  extract_lets src s1
  rw [raiseSw_told s1 ev a0 a1 a2 false]
  simp only [s1]; split <;> rfl

@[simp] theorem State.raise_twn (s : State) (ev a0 a1 a2 : Nat) : (s.raise ev a0 a1 a2).twn = s.twn := by
  unfold State.raise
  extract_lets src s1
  rw [raiseSw_told s1 ev a0 a1 a2 false]
  simp only [s1]; split <;> rfl

@[simp] theorem State.raise_crn (s : State) (ev a0 a1 a2 : Nat) : (s.raise ev a0 a1 a2).crn = s.crn := by
  unfold State.raise
  extract_lets src s1
  rw [raiseSw_told s1 ev a0 a1 a2 false]
  simp only [s1]; split <;> rfl

/-- The classifier's inbox after raising: a fault event goes in. -/
theorem State.raise_pwr (s : State) (ev a0 a1 a2 : Nat) :
    (s.raise ev a0 a1 a2).pwr =
      if faultEvents.contains ev then { s.pwr with inbox := s.pwr.inbox ++ [⟨ev, a0, a1, a2⟩] } else s.pwr := by
  unfold State.raise
  extract_lets src s1
  rw [raiseSw_told s1 ev a0 a1 a2 false]
  simp only [s1]; split <;> rfl

@[simp] theorem State.raise_get (s : State) (ev a0 a1 a2 : Nat) (f : Fld) : (s.raise ev a0 a1 a2).get f = s.get f :=
  State.get_eq (by simp) f

@[simp] theorem State.raise_on (s : State) (ev a0 a1 a2 : Nat) (f : Fld) : (s.raise ev a0 a1 a2).on f = s.on f := by
  unfold State.on; rw [State.raise_get]

/-- Raising leaves every counter but those of reporting. -/
theorem State.raise_count (s : State) (ev a0 a1 a2 c : Nat) (hc : c ∉ reportCounts) :
    (s.raise ev a0 a1 a2).count c = s.count c := by
  cases h : faultEvents.contains ev with
  | false => exact (raise_kept s ev a0 a1 a2 h).count c hc
  | true => exact (raise_fault s ev a0 a1 a2 h).count c hc

@[simp] theorem State.bumpBy_pending (s : State) (c n : Nat) : (s.bumpBy c n).pending = s.pending := by rw [bumpBy_told s c n]

@[simp] theorem State.bump_pending (s : State) (c : Nat) : (s.bump c).pending = s.pending := State.bumpBy_pending ..

@[simp] theorem State.bumpBy_ltb (s : State) (c n : Nat) : (s.bumpBy c n).ltb = s.ltb := by rw [bumpBy_told s c n]

@[simp] theorem State.bump_ltb (s : State) (c : Nat) : (s.bump c).ltb = s.ltb := State.bumpBy_ltb ..

@[simp] theorem State.bumpBy_freeCtr (s : State) (c n : Nat) : (s.bumpBy c n).freeCtr = s.freeCtr := by rw [bumpBy_told s c n]

@[simp] theorem State.bump_freeCtr (s : State) (c : Nat) : (s.bump c).freeCtr = s.freeCtr := State.bumpBy_freeCtr ..

@[simp] theorem State.bumpBy_resp (s : State) (c n : Nat) : (s.bumpBy c n).resp = s.resp := by rw [bumpBy_told s c n]

@[simp] theorem State.bump_resp (s : State) (c : Nat) : (s.bump c).resp = s.resp := State.bumpBy_resp ..

@[simp] theorem State.bumpBy_straps (s : State) (c n : Nat) : (s.bumpBy c n).straps = s.straps := by rw [bumpBy_told s c n]

@[simp] theorem State.bump_straps (s : State) (c : Nat) : (s.bump c).straps = s.straps := State.bumpBy_straps ..

@[simp] theorem State.bumpBy_fuses (s : State) (c n : Nat) : (s.bumpBy c n).fuses = s.fuses := by rw [bumpBy_told s c n]

@[simp] theorem State.bump_fuses (s : State) (c : Nat) : (s.bump c).fuses = s.fuses := State.bumpBy_fuses ..

@[simp] theorem State.bumpBy_cntLast (s : State) (c n : Nat) : (s.bumpBy c n).cntLast = s.cntLast := by rw [bumpBy_told s c n]

@[simp] theorem State.bump_cntLast (s : State) (c : Nat) : (s.bump c).cntLast = s.cntLast := State.bumpBy_cntLast ..

@[simp] theorem State.bumpBy_claims (s : State) (c n : Nat) : (s.bumpBy c n).claims = s.claims := by rw [bumpBy_told s c n]

@[simp] theorem State.bump_claims (s : State) (c : Nat) : (s.bump c).claims = s.claims := State.bumpBy_claims ..

@[simp] theorem State.bumpBy_pins (s : State) (c n : Nat) : (s.bumpBy c n).pins = s.pins := by rw [bumpBy_told s c n]

@[simp] theorem State.bump_pins (s : State) (c : Nat) : (s.bump c).pins = s.pins := State.bumpBy_pins ..

@[simp] theorem State.bumpBy_store (s : State) (c n : Nat) : (s.bumpBy c n).store = s.store := by rw [bumpBy_told s c n]

@[simp] theorem State.bump_store (s : State) (c : Nat) : (s.bump c).store = s.store := State.bumpBy_store ..

@[simp] theorem State.bumpBy_bal (s : State) (c n : Nat) : (s.bumpBy c n).bal = s.bal := by rw [bumpBy_told s c n]

@[simp] theorem State.bump_bal (s : State) (c : Nat) : (s.bump c).bal = s.bal := State.bumpBy_bal ..

@[simp] theorem State.bumpBy_rx (s : State) (c n : Nat) : (s.bumpBy c n).rx = s.rx := by rw [bumpBy_told s c n]

@[simp] theorem State.bump_rx (s : State) (c : Nat) : (s.bump c).rx = s.rx := State.bumpBy_rx ..

@[simp] theorem State.bumpBy_chains (s : State) (c n : Nat) : (s.bumpBy c n).chains = s.chains := by rw [bumpBy_told s c n]

@[simp] theorem State.bump_chains (s : State) (c : Nat) : (s.bump c).chains = s.chains := State.bumpBy_chains ..

@[simp] theorem State.bumpBy_coex (s : State) (c n : Nat) : (s.bumpBy c n).coex = s.coex := by rw [bumpBy_told s c n]

@[simp] theorem State.bump_coex (s : State) (c : Nat) : (s.bump c).coex = s.coex := State.bumpBy_coex ..

@[simp] theorem State.bumpBy_sic (s : State) (c n : Nat) : (s.bumpBy c n).sic = s.sic := by rw [bumpBy_told s c n]

@[simp] theorem State.bump_sic (s : State) (c : Nat) : (s.bump c).sic = s.sic := State.bumpBy_sic ..

@[simp] theorem State.bumpBy_lanes (s : State) (c n : Nat) : (s.bumpBy c n).lanes = s.lanes := by rw [bumpBy_told s c n]

@[simp] theorem State.bump_lanes (s : State) (c : Nat) : (s.bump c).lanes = s.lanes := State.bumpBy_lanes ..

@[simp] theorem State.bumpBy_pwr (s : State) (c n : Nat) : (s.bumpBy c n).pwr = s.pwr := by rw [bumpBy_told s c n]

@[simp] theorem State.bump_pwr (s : State) (c : Nat) : (s.bump c).pwr = s.pwr := State.bumpBy_pwr ..

@[simp] theorem State.bumpBy_laneRecs (s : State) (c n : Nat) : (s.bumpBy c n).laneRecs = s.laneRecs := by rw [bumpBy_told s c n]

@[simp] theorem State.bump_laneRecs (s : State) (c : Nat) : (s.bump c).laneRecs = s.laneRecs := State.bumpBy_laneRecs ..

@[simp] theorem State.bumpBy_txDone (s : State) (c n : Nat) : (s.bumpBy c n).txDone = s.txDone := by rw [bumpBy_told s c n]

@[simp] theorem State.bump_txDone (s : State) (c : Nat) : (s.bump c).txDone = s.txDone := State.bumpBy_txDone ..

@[simp] theorem State.bumpBy_once (s : State) (c n : Nat) : (s.bumpBy c n).once = s.once := by rw [bumpBy_told s c n]

@[simp] theorem State.bump_once (s : State) (c : Nat) : (s.bump c).once = s.once := State.bumpBy_once ..

@[simp] theorem State.bumpBy_amc (s : State) (c n : Nat) : (s.bumpBy c n).amc = s.amc := by rw [bumpBy_told s c n]

@[simp] theorem State.bump_amc (s : State) (c : Nat) : (s.bump c).amc = s.amc := State.bumpBy_amc ..

@[simp] theorem State.bumpBy_slp (s : State) (c n : Nat) : (s.bumpBy c n).slp = s.slp := by rw [bumpBy_told s c n]

@[simp] theorem State.bump_slp (s : State) (c : Nat) : (s.bump c).slp = s.slp := State.bumpBy_slp ..

@[simp] theorem State.bumpBy_esc (s : State) (c n : Nat) : (s.bumpBy c n).esc = s.esc := by rw [bumpBy_told s c n]

@[simp] theorem State.bump_esc (s : State) (c : Nat) : (s.bump c).esc = s.esc := State.bumpBy_esc ..

@[simp] theorem State.bumpBy_fwd (s : State) (c n : Nat) : (s.bumpBy c n).fwd = s.fwd := by rw [bumpBy_told s c n]

@[simp] theorem State.bump_fwd (s : State) (c : Nat) : (s.bump c).fwd = s.fwd := State.bumpBy_fwd ..

@[simp] theorem State.bumpBy_ctx (s : State) (c n : Nat) : (s.bumpBy c n).ctx = s.ctx := by rw [bumpBy_told s c n]

@[simp] theorem State.bump_ctx (s : State) (c : Nat) : (s.bump c).ctx = s.ctx := State.bumpBy_ctx ..

@[simp] theorem State.bumpBy_jwl (s : State) (c n : Nat) : (s.bumpBy c n).jwl = s.jwl := by rw [bumpBy_told s c n]

@[simp] theorem State.bump_jwl (s : State) (c : Nat) : (s.bump c).jwl = s.jwl := State.bumpBy_jwl ..

@[simp] theorem State.bumpBy_eth (s : State) (c n : Nat) : (s.bumpBy c n).eth = s.eth := by rw [bumpBy_told s c n]

@[simp] theorem State.bump_eth (s : State) (c : Nat) : (s.bump c).eth = s.eth := State.bumpBy_eth ..

@[simp] theorem State.bumpBy_twn (s : State) (c n : Nat) : (s.bumpBy c n).twn = s.twn := by rw [bumpBy_told s c n]

@[simp] theorem State.bump_twn (s : State) (c : Nat) : (s.bump c).twn = s.twn := State.bumpBy_twn ..

@[simp] theorem State.bumpBy_crn (s : State) (c n : Nat) : (s.bumpBy c n).crn = s.crn := by rw [bumpBy_told s c n]

@[simp] theorem State.bump_crn (s : State) (c : Nat) : (s.bump c).crn = s.crn := State.bumpBy_crn ..

@[simp] theorem State.bumpBy_inForce (s : State) (c n : Nat) : (s.bumpBy c n).inForce = s.inForce := rfl

@[simp] theorem State.bump_inForce (s : State) (c : Nat) : (s.bump c).inForce = s.inForce := State.bumpBy_inForce ..

@[simp] theorem State.bumpBy_hif (s : State) (c n : Nat) : (s.bumpBy c n).hif = s.hif := rfl

@[simp] theorem State.bump_hif (s : State) (c : Nat) : (s.bump c).hif = s.hif := State.bumpBy_hif ..

@[simp] theorem State.bumpBy_mbx (s : State) (c n : Nat) : (s.bumpBy c n).mbx = s.mbx := rfl

@[simp] theorem State.bump_mbx (s : State) (c : Nat) : (s.bump c).mbx = s.mbx := State.bumpBy_mbx ..

@[simp] theorem State.bumpBy_out (s : State) (c n : Nat) : (s.bumpBy c n).out = s.out := rfl

@[simp] theorem State.bump_out (s : State) (c : Nat) : (s.bump c).out = s.out := State.bumpBy_out ..

/-! ### Claims -/

/-- A feature takes its resources where all of them are free to it. -/
theorem claimAll_free {s : State} {f : Nat} {rs : List Nat} (h : ∀ r ∈ rs, claimFree s f r = true) :
    claimAll s f rs = (true, { s with claims := rs.foldl (fun m r => tabPut m r ⟨false, f⟩) s.claims }) := by
  unfold claimAll
  rw [List.find?_eq_none.2 (fun r hr => by simp [h r hr])]

/-- Releasing touches the claim table alone. -/
@[simp] theorem releaseAll_get (s : State) (f : Nat) (rs : List Nat) (g : Fld) : (releaseAll s f rs).get g = s.get g := rfl
@[simp] theorem releaseAll_ltb (s : State) (f : Nat) (rs : List Nat) : (releaseAll s f rs).ltb = s.ltb := rfl
@[simp] theorem releaseAll_freeCtr (s : State) (f : Nat) (rs : List Nat) : (releaseAll s f rs).freeCtr = s.freeCtr := rfl
@[simp] theorem releaseAll_out (s : State) (f : Nat) (rs : List Nat) : (releaseAll s f rs).out = s.out := rfl
@[simp] theorem releaseAll_resp (s : State) (f : Nat) (rs : List Nat) : (releaseAll s f rs).resp = s.resp := rfl
@[simp] theorem releaseAll_straps (s : State) (f : Nat) (rs : List Nat) : (releaseAll s f rs).straps = s.straps := rfl
@[simp] theorem releaseAll_fuses (s : State) (f : Nat) (rs : List Nat) : (releaseAll s f rs).fuses = s.fuses := rfl
@[simp] theorem releaseAll_fields (s : State) (f : Nat) (rs : List Nat) : (releaseAll s f rs).fields = s.fields := rfl
@[simp] theorem releaseAll_inForce (s : State) (f : Nat) (rs : List Nat) : (releaseAll s f rs).inForce = s.inForce := rfl
@[simp] theorem releaseAll_cnt (s : State) (f : Nat) (rs : List Nat) : (releaseAll s f rs).cnt = s.cnt := rfl
@[simp] theorem releaseAll_cntLast (s : State) (f : Nat) (rs : List Nat) : (releaseAll s f rs).cntLast = s.cntLast := rfl
@[simp] theorem releaseAll_pins (s : State) (f : Nat) (rs : List Nat) : (releaseAll s f rs).pins = s.pins := rfl
@[simp] theorem releaseAll_store (s : State) (f : Nat) (rs : List Nat) : (releaseAll s f rs).store = s.store := rfl
@[simp] theorem releaseAll_bal (s : State) (f : Nat) (rs : List Nat) : (releaseAll s f rs).bal = s.bal := rfl
@[simp] theorem releaseAll_rx (s : State) (f : Nat) (rs : List Nat) : (releaseAll s f rs).rx = s.rx := rfl
@[simp] theorem releaseAll_chains (s : State) (f : Nat) (rs : List Nat) : (releaseAll s f rs).chains = s.chains := rfl
@[simp] theorem releaseAll_coex (s : State) (f : Nat) (rs : List Nat) : (releaseAll s f rs).coex = s.coex := rfl
@[simp] theorem releaseAll_sic (s : State) (f : Nat) (rs : List Nat) : (releaseAll s f rs).sic = s.sic := rfl
@[simp] theorem releaseAll_lanes (s : State) (f : Nat) (rs : List Nat) : (releaseAll s f rs).lanes = s.lanes := rfl
@[simp] theorem releaseAll_hif (s : State) (f : Nat) (rs : List Nat) : (releaseAll s f rs).hif = s.hif := rfl
@[simp] theorem releaseAll_mbx (s : State) (f : Nat) (rs : List Nat) : (releaseAll s f rs).mbx = s.mbx := rfl
@[simp] theorem releaseAll_chr (s : State) (f : Nat) (rs : List Nat) : (releaseAll s f rs).chr = s.chr := rfl
@[simp] theorem releaseAll_pwr (s : State) (f : Nat) (rs : List Nat) : (releaseAll s f rs).pwr = s.pwr := rfl
@[simp] theorem releaseAll_laneRecs (s : State) (f : Nat) (rs : List Nat) : (releaseAll s f rs).laneRecs = s.laneRecs := rfl
@[simp] theorem releaseAll_txDone (s : State) (f : Nat) (rs : List Nat) : (releaseAll s f rs).txDone = s.txDone := rfl
@[simp] theorem releaseAll_once (s : State) (f : Nat) (rs : List Nat) : (releaseAll s f rs).once = s.once := rfl
@[simp] theorem releaseAll_amc (s : State) (f : Nat) (rs : List Nat) : (releaseAll s f rs).amc = s.amc := rfl
@[simp] theorem releaseAll_slp (s : State) (f : Nat) (rs : List Nat) : (releaseAll s f rs).slp = s.slp := rfl
@[simp] theorem releaseAll_esc (s : State) (f : Nat) (rs : List Nat) : (releaseAll s f rs).esc = s.esc := rfl
@[simp] theorem releaseAll_fwd (s : State) (f : Nat) (rs : List Nat) : (releaseAll s f rs).fwd = s.fwd := rfl
@[simp] theorem releaseAll_ctx (s : State) (f : Nat) (rs : List Nat) : (releaseAll s f rs).ctx = s.ctx := rfl
@[simp] theorem releaseAll_jwl (s : State) (f : Nat) (rs : List Nat) : (releaseAll s f rs).jwl = s.jwl := rfl
@[simp] theorem releaseAll_eth (s : State) (f : Nat) (rs : List Nat) : (releaseAll s f rs).eth = s.eth := rfl
@[simp] theorem releaseAll_twn (s : State) (f : Nat) (rs : List Nat) : (releaseAll s f rs).twn = s.twn := rfl
@[simp] theorem releaseAll_crn (s : State) (f : Nat) (rs : List Nat) : (releaseAll s f rs).crn = s.crn := rfl

end Sys2Proof.Machine
end

