-- ==== Sys2Proof/Laws/Around.lean ====
section
/-! SUPPORT. What stands around the effect of a command: the beginning, what follows in the same instant, and the step. -/

set_option Elab.async false

namespace Sys2Proof.Machine

/-! ### The beginning -/

theorem chrPass_same (s : State) (a b : Nat) (c : Chr) (e : Nat × Nat × Nat) : ChrSame c (chrPass s a b c e) := by
  unfold chrPass
  have h := chrCount_same s 64 c
  generalize chrCount s 64 c = w at h ⊢
  obtain ⟨k, kind, code⟩ := e
  dsimp only
  repeat' first | exact h .. | exact ChrSame.refl c | split

/-- Time passing changes the Chronograph alone, and there what it measures. -/
theorem chrTime_same (s : State) (t : Nat) : ChrSame s.chr (chrTime s t) := by
  unfold chrTime
  split
  · exact ChrSame.refl s.chr
  · extract_lets pass old new
    have p : ∀ c a b, ChrSame c (pass c a b) := by
      intro c a b
      simp only [pass]
      split
      · exact ChrSame.refl c
      · exact ChrSame.fold _ (ChrSame.refl c) (fun e x => chrPass_same ..)
    have h : ChrSame s.chr new := (p ..).trans (p ..)
    clear_value new old
    exact h.trans (by constructor <;> rfl)

/-- The beginning of a command: the instant, and what the Chronograph measures until then. -/
theorem begin_eq (s : State) (t : Nat) : s.begin t = { s.now t with chr := chrTime s (max s.ltb t) } := rfl

theorem begin_kept (s : State) (t : Nat) : Kept (s.now t) (s.begin t) :=
  Kept.chr (u := s.now t) (chrTime s (max s.ltb t)) (Kept.refl _) (chrTime_same s _)

@[simp] theorem begin_get (s : State) (t : Nat) (f : Fld) : (s.begin t).get f = s.get f := rfl
@[simp] theorem begin_on (s : State) (t : Nat) (f : Fld) : (s.begin t).on f = s.on f := rfl
@[simp] theorem begin_sget (s : State) (t : Nat) (f : Fld) : (s.begin t).sget f = s.sget f := rfl
@[simp] theorem begin_cur (s : State) (t : Nat) (f : Fld) : (s.begin t).cur f = s.cur f := rfl
@[simp] theorem begin_count (s : State) (t : Nat) (c : Nat) : (s.begin t).count c = s.count c := rfl
@[simp] theorem begin_pending (s : State) (t : Nat) : (s.begin t).pending = s.pending := rfl
@[simp] theorem begin_freeCtr (s : State) (t : Nat) : (s.begin t).freeCtr = s.freeCtr := rfl
@[simp] theorem begin_straps (s : State) (t : Nat) : (s.begin t).straps = s.straps := rfl
@[simp] theorem begin_fuses (s : State) (t : Nat) : (s.begin t).fuses = s.fuses := rfl
@[simp] theorem begin_fields (s : State) (t : Nat) : (s.begin t).fields = s.fields := rfl
@[simp] theorem begin_inForce (s : State) (t : Nat) : (s.begin t).inForce = s.inForce := rfl
@[simp] theorem begin_cnt (s : State) (t : Nat) : (s.begin t).cnt = s.cnt := rfl
@[simp] theorem begin_cntLast (s : State) (t : Nat) : (s.begin t).cntLast = s.cntLast := rfl
@[simp] theorem begin_claims (s : State) (t : Nat) : (s.begin t).claims = s.claims := rfl
@[simp] theorem begin_pins (s : State) (t : Nat) : (s.begin t).pins = s.pins := rfl
@[simp] theorem begin_store (s : State) (t : Nat) : (s.begin t).store = s.store := rfl
@[simp] theorem begin_bal (s : State) (t : Nat) : (s.begin t).bal = s.bal := rfl
@[simp] theorem begin_rx (s : State) (t : Nat) : (s.begin t).rx = s.rx := rfl
@[simp] theorem begin_chains (s : State) (t : Nat) : (s.begin t).chains = s.chains := rfl
@[simp] theorem begin_coex (s : State) (t : Nat) : (s.begin t).coex = s.coex := rfl
@[simp] theorem begin_sic (s : State) (t : Nat) : (s.begin t).sic = s.sic := rfl
@[simp] theorem begin_lanes (s : State) (t : Nat) : (s.begin t).lanes = s.lanes := rfl
@[simp] theorem begin_hif (s : State) (t : Nat) : (s.begin t).hif = s.hif := rfl
@[simp] theorem begin_mbx (s : State) (t : Nat) : (s.begin t).mbx = s.mbx := rfl
@[simp] theorem begin_pwr (s : State) (t : Nat) : (s.begin t).pwr = s.pwr := rfl
@[simp] theorem begin_laneRecs (s : State) (t : Nat) : (s.begin t).laneRecs = s.laneRecs := rfl
@[simp] theorem begin_txDone (s : State) (t : Nat) : (s.begin t).txDone = s.txDone := rfl
@[simp] theorem begin_once (s : State) (t : Nat) : (s.begin t).once = s.once := rfl
@[simp] theorem begin_amc (s : State) (t : Nat) : (s.begin t).amc = s.amc := rfl
@[simp] theorem begin_slp (s : State) (t : Nat) : (s.begin t).slp = s.slp := rfl
@[simp] theorem begin_esc (s : State) (t : Nat) : (s.begin t).esc = s.esc := rfl
@[simp] theorem begin_fwd (s : State) (t : Nat) : (s.begin t).fwd = s.fwd := rfl
@[simp] theorem begin_ctx (s : State) (t : Nat) : (s.begin t).ctx = s.ctx := rfl
@[simp] theorem begin_jwl (s : State) (t : Nat) : (s.begin t).jwl = s.jwl := rfl
@[simp] theorem begin_eth (s : State) (t : Nat) : (s.begin t).eth = s.eth := rfl
@[simp] theorem begin_twn (s : State) (t : Nat) : (s.begin t).twn = s.twn := rfl
@[simp] theorem begin_crn (s : State) (t : Nat) : (s.begin t).crn = s.crn := rfl
@[simp] theorem begin_ltb (s : State) (t : Nat) : (s.begin t).ltb = max s.ltb t := rfl
@[simp] theorem begin_out (s : State) (t : Nat) : (s.begin t).out = [] := rfl
@[simp] theorem begin_resp (s : State) (t : Nat) : (s.begin t).resp = .none := rfl

/-! ### The instant of a command -/

@[simp] theorem now_get (s : State) (t : Nat) (f : Fld) : (s.now t).get f = s.get f := rfl
@[simp] theorem now_on (s : State) (t : Nat) (f : Fld) : (s.now t).on f = s.on f := rfl
@[simp] theorem now_sget (s : State) (t : Nat) (f : Fld) : (s.now t).sget f = s.sget f := rfl
@[simp] theorem now_cur (s : State) (t : Nat) (f : Fld) : (s.now t).cur f = s.cur f := rfl
@[simp] theorem now_count (s : State) (t : Nat) (c : Nat) : (s.now t).count c = s.count c := rfl
@[simp] theorem now_pending (s : State) (t : Nat) : (s.now t).pending = s.pending := rfl
@[simp] theorem now_freeCtr (s : State) (t : Nat) : (s.now t).freeCtr = s.freeCtr := rfl
@[simp] theorem now_straps (s : State) (t : Nat) : (s.now t).straps = s.straps := rfl
@[simp] theorem now_fuses (s : State) (t : Nat) : (s.now t).fuses = s.fuses := rfl
@[simp] theorem now_fields (s : State) (t : Nat) : (s.now t).fields = s.fields := rfl
@[simp] theorem now_inForce (s : State) (t : Nat) : (s.now t).inForce = s.inForce := rfl
@[simp] theorem now_cnt (s : State) (t : Nat) : (s.now t).cnt = s.cnt := rfl
@[simp] theorem now_cntLast (s : State) (t : Nat) : (s.now t).cntLast = s.cntLast := rfl
@[simp] theorem now_claims (s : State) (t : Nat) : (s.now t).claims = s.claims := rfl
@[simp] theorem now_pins (s : State) (t : Nat) : (s.now t).pins = s.pins := rfl
@[simp] theorem now_store (s : State) (t : Nat) : (s.now t).store = s.store := rfl
@[simp] theorem now_bal (s : State) (t : Nat) : (s.now t).bal = s.bal := rfl
@[simp] theorem now_rx (s : State) (t : Nat) : (s.now t).rx = s.rx := rfl
@[simp] theorem now_chains (s : State) (t : Nat) : (s.now t).chains = s.chains := rfl
@[simp] theorem now_coex (s : State) (t : Nat) : (s.now t).coex = s.coex := rfl
@[simp] theorem now_sic (s : State) (t : Nat) : (s.now t).sic = s.sic := rfl
@[simp] theorem now_lanes (s : State) (t : Nat) : (s.now t).lanes = s.lanes := rfl
@[simp] theorem now_hif (s : State) (t : Nat) : (s.now t).hif = s.hif := rfl
@[simp] theorem now_mbx (s : State) (t : Nat) : (s.now t).mbx = s.mbx := rfl
@[simp] theorem now_chr (s : State) (t : Nat) : (s.now t).chr = s.chr := rfl
@[simp] theorem now_pwr (s : State) (t : Nat) : (s.now t).pwr = s.pwr := rfl
@[simp] theorem now_laneRecs (s : State) (t : Nat) : (s.now t).laneRecs = s.laneRecs := rfl
@[simp] theorem now_txDone (s : State) (t : Nat) : (s.now t).txDone = s.txDone := rfl
@[simp] theorem now_once (s : State) (t : Nat) : (s.now t).once = s.once := rfl
@[simp] theorem now_amc (s : State) (t : Nat) : (s.now t).amc = s.amc := rfl
@[simp] theorem now_slp (s : State) (t : Nat) : (s.now t).slp = s.slp := rfl
@[simp] theorem now_esc (s : State) (t : Nat) : (s.now t).esc = s.esc := rfl
@[simp] theorem now_fwd (s : State) (t : Nat) : (s.now t).fwd = s.fwd := rfl
@[simp] theorem now_ctx (s : State) (t : Nat) : (s.now t).ctx = s.ctx := rfl
@[simp] theorem now_jwl (s : State) (t : Nat) : (s.now t).jwl = s.jwl := rfl
@[simp] theorem now_eth (s : State) (t : Nat) : (s.now t).eth = s.eth := rfl
@[simp] theorem now_twn (s : State) (t : Nat) : (s.now t).twn = s.twn := rfl
@[simp] theorem now_crn (s : State) (t : Nat) : (s.now t).crn = s.crn := rfl
@[simp] theorem now_ltb (s : State) (t : Nat) : (s.now t).ltb = max s.ltb t := rfl

@[simp] theorem begin_recs (s : State) (t : Nat) : (s.begin t).chr.recs = s.chr.recs := (begin_kept s t).recs
@[simp] theorem begin_tagged (s : State) (t : Nat) : (s.begin t).chr.tagged = s.chr.tagged := (begin_kept s t).tagged
@[simp] theorem begin_samples (s : State) (t : Nat) : (s.begin t).chr.samples = s.chr.samples := (begin_kept s t).samples
@[simp] theorem begin_enabled (s : State) (t : Nat) : (s.begin t).chr.enabled = s.chr.enabled := (begin_kept s t).enabled

/-! ### What follows an effect -/

theorem classifyInbox_nil (n : Nat) {s : State} (h : s.pwr.inbox = []) : classifyInbox n s = s := by
  cases n with
  | zero => rfl
  | succ n => simp only [classifyInbox, h]

theorem txDrain_nil (n : Nat) {s : State} (h : s.txDone = []) : txDrain n s = s := by
  cases n with
  | zero => rfl
  | succ n => simp only [txDrain, h]

theorem onChr_kept {s u : State} (f : Chr → Chr) (h : Kept s u) (hr : (f u.chr).recs = u.chr.recs := by rfl)
    (ht : (f u.chr).tagged = u.chr.tagged := by rfl) (hs : (f u.chr).samples = u.chr.samples := by rfl)
    (he : (f u.chr).enabled = u.chr.enabled := by rfl) : Kept s (u.onChr f) := by
  refine h.trans ?_
  constructor <;> (try intros) <;> first | rfl | assumption

theorem set_flag_kept {s u : State} {f : Fld} (v : Nat) (h : Kept s u) (hf : chrFlagKey f.key = true) :
    Kept s (u.set f v) := by
  refine h.trans ?_
  constructor <;> (try intros) <;> first | rfl | assumption | skip
  rename_i g hg
  exact State.get_set_ne u v (fun e => by rw [e, hg] at hf; cases hf)

theorem chrRises_kept (s : State) : Kept s (chrRises s) := by
  unfold chrRises
  refine Kept.fold _ (Kept.refl s) (fun v e h => ?_)
  extract_lets now was s1
  have a : Kept s s1 := onChr_kept _ h
  split
  · exact a.trans (chrAdd_kept ..)
  · exact a

theorem raiseFirst_kept {s u : State} (h : Kept s u) : Kept s (raiseFirst u 242) := by
  unfold raiseFirst
  split
  · exact h
  · refine (h.trans ?_).trans (raise_kept _ _ _ _ _ rfl)
    constructor <;> (try intros) <;> first | rfl | assumption | simp

theorem lostSettle_kept (s : State) : Kept s (lostSettle s) := by
  have k : Kept s (lostCount s) := by
    unfold lostCount
    split
    · exact Kept.refl s
    · exact Kept.of_countBy _ _ (by decide) (Kept.of_countBy _ _ (by decide) (Kept.chr _ (Kept.refl s) (by constructor <;> rfl)))
  unfold lostSettle
  split
  · exact k
  · exact raiseFirst_kept k

theorem histSettle_kept (s : State) (d : HistDue) : Kept s (histSettle s d) := by
  have lt := d.unit.isLt
  have k0 : chrFlagKey (Reg.CHR_HIST_STAT_sat d.unit.val).key = true := by
    refine decide_eq_true (show 0x16060c * 32 ≤ (0x16060c + 0x10 * d.unit.val) * 32 + 0 ∧ _ from ?_)
    show _ ∧ (0x16060c + 0x10 * d.unit.val) * 32 + 0 ≤ _
    omega
  have k1 : chrFlagKey (Reg.CHR_HIST_STAT_alarm d.unit.val).key = true := by
    refine decide_eq_true (show 0x16060c * 32 ≤ (0x16060c + 0x10 * d.unit.val) * 32 + 1 ∧ _ from ?_)
    show _ ∧ (0x16060c + 0x10 * d.unit.val) * 32 + 1 ≤ _
    omega
  unfold histSettle
  extract_lets s1 s2
  have a : Kept s s1 := by
    simp only [s1]
    split
    · exact Kept.refl s
    · exact Kept.fold _ (set_flag_kept _ (Kept.refl s) k0) (fun v _ h => h.trans (raise_kept _ _ _ _ _ rfl))
  split
  · exact a
  · have b : Kept s s2 := set_flag_kept _ a k1
    split
    · exact Kept.fold _ b (fun v _ h => h.trans (raise_kept _ _ _ _ _ rfl))
    · exact b

theorem chrSettle_kept (s : State) : Kept s (chrSettle s) := by
  unfold chrSettle
  dsimp only
  refine Kept.fold _ (Kept.fold _ (onChr_kept _ (lostSettle_kept s)) (fun v d h => h.trans (histSettle_kept v d)))
    (fun v k h => h.trans (raise_kept _ _ _ _ _ rfl))

/-- Where an effect ends no transmission and raises no fault event, only reporting and measuring follow it. -/
theorem finish_kept {s : State} (ht : s.txDone = []) (hi : s.pwr.inbox = []) : Kept s s.finish := by
  unfold State.finish
  rw [txDrain_nil _ ht, classifyInbox_nil _ hi]
  exact (chrRises_kept s).trans (chrSettle_kept _)

theorem pending_kept {s u : State} (l : List Instr) (h : Kept s u) : Kept s { u with pending := l } := by
  refine h.trans ?_
  constructor <;> (try intros) <;> first | rfl | assumption

/-- A command whose effect ends no transmission and raises no fault event completes in that effect, but for reporting
and measuring. -/
theorem act_kept {s : State} {t : Nat} {f : State → State} (hh : s.pwr.held = false)
    (ht : (f (s.begin t)).txDone = []) (hi : (f (s.begin t)).pwr.inbox = []) :
    ∃ u, act t s f = .next u ∧ Kept (f (s.begin t)) u := by
  refine ⟨_, rfl, ?_⟩
  simp only [hh, Bool.false_eq_true, ite_false]
  exact pending_kept _ (finish_kept ht hi)

theorem actReset_kept {s : State} {t : Nat} {f : State → State}
    (ht : (f (s.begin t)).txDone = []) (hi : (f (s.begin t)).pwr.inbox = []) :
    ∃ u, actReset t s f = .next u ∧ Kept (f (s.begin t)) u :=
  ⟨_, rfl, pending_kept _ (finish_kept ht hi)⟩

/-- How a command is shown to complete: its effect ends no transmission and raises no fault event, and what is claimed holds
of every state that is the effect's but for reporting and measuring. -/
theorem completes_act {c : Instr} {s : State} {t : Nat} {f : State → State} {P : State → Prop} (e : exec c s = act t s f)
    (h : s.settled) (ht : (f (s.begin t)).txDone = []) (hi : (f (s.begin t)).pwr.inbox = [])
    (hP : ∀ u, Kept (f (s.begin t)) u → P u) : completes c s P := by
  obtain ⟨u, hu, k⟩ := act_kept h.1 ht hi
  exact ⟨u, e.trans hu, hP u k⟩

theorem completes_actReset {c : Instr} {s : State} {t : Nat} {f : State → State} {P : State → Prop}
    (e : exec c s = actReset t s f) (ht : (f (s.begin t)).txDone = []) (hi : (f (s.begin t)).pwr.inbox = [])
    (hP : ∀ u, Kept (f (s.begin t)) u → P u) : completes c s P := by
  obtain ⟨u, hu, k⟩ := actReset_kept ht hi
  exact ⟨u, e.trans hu, hP u k⟩

/-- The same for a command whose whole effect is known. -/
theorem leadsTo_act {c : Instr} {s v : State} {t : Nat} {f : State → State} (e : exec c s = act t s f) (h : s.settled)
    (ht : v.txDone = []) (hi : v.pwr.inbox = []) (k : Kept v (f (s.begin t))) : leadsTo c s v :=
  completes_act e h (k.txDone.trans ht) ((congrArg Pwr.inbox k.pwr).trans hi) (fun _ hu => k.trans hu)

end Sys2Proof.Machine
end

