-- ==== Sys2Proof/Laws/Frame.lean ====
section
/-! SUPPORT. Frames: how each update keeps `State.elsewhere`, so that the frame of a command follows from the shape of its
effect. -/

set_option Elab.async false

namespace Sys2Proof.Machine

variable {s v w : State} {fs : List Fld} {cs : List Nat} {ps : List Part}

theorem Part.same_refl (s : State) (p : Part) : p.same s s := by
  cases p <;> first | rfl | exact ⟨rfl, rfl⟩ | exact fun _ _ => rfl | exact trivial

theorem Part.same_trans {p : Part} (h : p.same s v) (k : p.same v w) : p.same s w := by
  cases p
  case rings => exact fun r hr => (k r hr).trans (h r hr)
  case inForce => exact fun j hj => (k j hj).trans (h j hj)
  case host =>
    simp only [Part.same] at *
    generalize s.hif = x, v.hif = y, w.hif = z at *
    cases x; cases y; cases z; simp_all
  case mailboxes =>
    simp only [Part.same] at *
    generalize s.mbx = x, v.mbx = y, w.mbx = z at *
    cases x; cases y; cases z; simp_all
  case stages => exact ⟨k.1.trans h.1, k.2.trans h.2⟩
  case samples => exact ⟨k.1.trans h.1, k.2.trans h.2⟩
  case cluster => trivial
  all_goals exact Eq.trans k h

theorem elsewhere_refl (s : State) (fs : List Fld) (cs : List Nat) (ps : List Part) : s.elsewhere s fs cs ps :=
  ⟨fun _ _ _ => rfl, fun _ _ _ => rfl, fun p _ => p.same_refl s, fun _ _ => rfl⟩

theorem elsewhere_trans (h : s.elsewhere v fs cs ps) (k : v.elsewhere w fs cs ps) : s.elsewhere w fs cs ps :=
  ⟨fun f a b => (k.1 f a b).trans (h.1 f a b), fun c a b => (k.2.1 c a b).trans (h.2.1 c a b),
    fun p hp => Part.same_trans (h.2.2.1 p hp) (k.2.2.1 p hp),
    fun a b => (k.2.2.2 a (fun r hr => by
      unfold ringOwner
      rw [h.1 _ (ringOwner_key hr) (a.2 r hr)]
      exact b r hr)).trans (h.2.2.2 a b)⟩

theorem kept_elsewhere (k : Kept s v) : s.elsewhere v fs cs ps :=
  ⟨fun f a _ => k.get f a, fun c _ a => k.count c a, fun p _ => match p with
    | .cluster => trivial
    | .rings => k.rings
    | .host => k.hif
    | .mailboxes => k.mbx
    | .stages => ⟨k.recs, k.tagged⟩
    | .samples => ⟨k.samples, k.enabled⟩
    | .latched => k.cntLast
    | .inForce => k.inForce
    | .once => k.once
    | .txDone => k.txDone
    | .claims => k.claims
    | .pins => k.pins
    | .store => k.store
    | .bal => k.bal
    | .rx => k.rx
    | .chains => k.chains
    | .coex => k.coex
    | .sic => k.sic
    | .lanes => k.lanes
    | .laneRecs => k.laneRecs
    | .amc => k.amc
    | .slp => k.slp
    | .esc => k.esc
    | .fwd => k.fwd
    | .ctx => k.ctx
    | .jwl => k.jwl
    | .eth => k.eth
    | .twn => k.twn
    | .crn => k.crn
    | .fuses => k.fuses
    | .straps => k.straps
    | .power => k.pwr, fun _ a => k.mem a⟩

theorem elsewhere_kept (h : s.elsewhere v fs cs ps) (k : Kept v w) : s.elsewhere w fs cs ps :=
  elsewhere_trans h (kept_elsewhere k)

theorem elsewhere_mono {fs' : List Fld} {cs' : List Nat} {ps' : List Part} (h : s.elsewhere v fs cs ps)
    (a : ∀ k ∈ fs.map Fld.key, k ∈ fs'.map Fld.key) (b : ∀ c ∈ cs, c ∈ cs') (d : ∀ p ∈ ps, p ∈ ps') :
    s.elsewhere v fs' cs' ps' :=
  ⟨fun f x y => h.1 f x (fun z => y (a _ z)), fun c x => h.2.1 c (fun z => x (b _ z)), fun p x => h.2.2.1 p (fun z => x (d _ z)),
    fun x y => h.2.2.2 ⟨fun z => x.1 (d _ z), fun r hr z => x.2 r hr (a _ z)⟩ y⟩

/-! ### One lemma for each update -/

theorem elsewhere_begin (h : s.elsewhere v fs cs ps) (t : Nat) : s.elsewhere (v.begin t) fs cs ps := by
  refine elsewhere_trans h ⟨fun f _ _ => by simp, fun c _ _ => by simp, fun p _ => ?_, fun _ _ => rfl⟩
  have k := begin_kept v t
  cases p
  case rings => exact k.rings
  case stages => exact ⟨k.recs, k.tagged⟩
  case samples => exact ⟨k.samples, k.enabled⟩
  case host => exact k.hif
  case mailboxes => exact k.mbx
  case power => exact k.pwr
  all_goals simp [Part.same]

theorem elsewhere_set (h : s.elsewhere v fs cs ps) {f : Fld} (x : Nat) (hf : f.key ∈ fs.map Fld.key) :
    s.elsewhere (v.set f x) fs cs ps := by
  refine elsewhere_trans h ⟨fun g _ b => State.get_set_ne v x (fun e => b (e ▸ hf)), fun c _ _ => rfl, fun p _ => ?_, fun _ _ => rfl⟩
  cases p <;> first | rfl | exact ⟨rfl, rfl⟩ | exact fun _ _ => rfl | exact trivial

theorem elsewhere_setb (h : s.elsewhere v fs cs ps) {f : Fld} (x : Bool) (hf : f.key ∈ fs.map Fld.key) :
    s.elsewhere (v.setb f x) fs cs ps := elsewhere_set h _ hf

theorem elsewhere_sset (h : s.elsewhere v fs cs ps) {f : Fld} (x : Int) (hf : f.key ∈ fs.map Fld.key) :
    s.elsewhere (v.sset f x) fs cs ps := elsewhere_set h _ hf

theorem elsewhere_raise (h : s.elsewhere v fs cs ps) {ev : Nat} (a b c : Nat)
    (hf : faultEvents.contains ev = false ∨ .power ∈ ps) : s.elsewhere (v.raise ev a b c) fs cs ps := by
  rcases hf with hf | hf
  · exact elsewhere_kept h (raise_kept _ _ _ _ _ hf)
  · by_cases hk : faultEvents.contains ev = false
    · exact elsewhere_kept h (raise_kept _ _ _ _ _ hk)
    · have hk : faultEvents.contains ev = true := by simpa using hk
      have k := raise_fault v ev a b c hk
      refine elsewhere_trans h ⟨fun f x _ => k.get f x, fun d _ x => k.count d x, fun p hp => ?_, fun _ a => k.mem a⟩
      exact match p, hp with
      | .cluster, _ => trivial
      | .rings, _ => k.rings
      | .host, _ => k.hif
      | .mailboxes, _ => k.mbx
      | .stages, _ => ⟨k.recs, k.tagged⟩
      | .samples, _ => ⟨k.samples, k.enabled⟩
      | .latched, _ => k.cntLast
      | .inForce, _ => k.inForce
      | .once, _ => k.once
      | .txDone, _ => k.txDone
      | .claims, _ => k.claims
      | .pins, _ => k.pins
      | .store, _ => k.store
      | .bal, _ => k.bal
      | .rx, _ => k.rx
      | .chains, _ => k.chains
      | .coex, _ => k.coex
      | .sic, _ => k.sic
      | .lanes, _ => k.lanes
      | .laneRecs, _ => k.laneRecs
      | .amc, _ => k.amc
      | .slp, _ => k.slp
      | .esc, _ => k.esc
      | .fwd, _ => k.fwd
      | .ctx, _ => k.ctx
      | .jwl, _ => k.jwl
      | .eth, _ => k.eth
      | .twn, _ => k.twn
      | .crn, _ => k.crn
      | .fuses, _ => k.fuses
      | .straps, _ => k.straps
      | .power, n => absurd hf n

theorem elsewhere_bumpBy (h : s.elsewhere v fs cs ps) {c : Nat} (n : Nat)
    (hc : c ∈ cs ∨ c ∈ reportCounts) :
    s.elsewhere (v.bumpBy c n) fs cs ps := by
  refine elsewhere_trans h ⟨fun f _ _ => rfl, fun d x y => ?_, fun p _ => ?_, fun _ _ => rfl⟩
  · rw [State.count_bumpBy, if_neg]
    rintro rfl
    exact hc.elim x y
  · have k := chrFollow_same v c n
    cases p
    case rings => exact fun _ _ => rfl
    case inForce => exact fun _ _ => rfl
    case stages => exact ⟨k.recs, k.tagged⟩
    case samples => exact ⟨k.samples, k.enabled⟩
    case cluster => trivial
    all_goals rfl

theorem elsewhere_bump (h : s.elsewhere v fs cs ps) {c : Nat}
    (hc : c ∈ cs ∨ c ∈ reportCounts) :
    s.elsewhere (v.bump c) fs cs ps := elsewhere_bumpBy h 1 hc

/-- An update of parts alone. -/
theorem elsewhere_parts (h : s.elsewhere v fs cs ps) (hf : w.fields = v.fields) (hc : w.cnt = v.cnt)
    (hp : ∀ p, p ∉ ps → p.same v w) (hm : w.hif.mem = v.hif.mem := by rfl) : s.elsewhere w fs cs ps :=
  elsewhere_trans h ⟨fun f _ _ => State.get_eq hf f, fun c _ _ => by simp only [State.count, hc], hp, fun _ _ => hm⟩

theorem elsewhere_emit (h : s.elsewhere v fs cs ps) (o : Output) : s.elsewhere (v.emit o) fs cs ps :=
  elsewhere_parts h rfl rfl (fun p _ => by cases p <;> first | rfl | exact ⟨rfl, rfl⟩ | exact fun _ _ => rfl | exact trivial)

theorem elsewhere_resp (h : s.elsewhere v fs cs ps) (r : Resp) : s.elsewhere { v with resp := r } fs cs ps :=
  elsewhere_parts h rfl rfl (fun p _ => by cases p <;> first | rfl | exact ⟨rfl, rfl⟩ | exact fun _ _ => rfl | exact trivial)

theorem elsewhere_inForce (h : s.elsewhere v fs cs ps) (x : Tab Nat) (hp : .inForce ∈ ps) :
    s.elsewhere { v with inForce := x } fs cs ps :=
  elsewhere_parts h rfl rfl (fun p n => by
    cases p <;> first | exact absurd hp n | rfl | exact ⟨rfl, rfl⟩ | exact fun _ _ => rfl | exact trivial)

theorem elsewhere_freeCtr (h : s.elsewhere v fs cs ps) (x : Nat) : s.elsewhere { v with freeCtr := x } fs cs ps :=
  elsewhere_parts h rfl rfl (fun p _ => by cases p <;> first | rfl | exact ⟨rfl, rfl⟩ | exact fun _ _ => rfl | exact trivial)

theorem elsewhere_takeEffect (h : s.elsewhere v fs cs ps) (l : List Fld) (hp : .inForce ∈ ps) :
    s.elsewhere (v.takeEffect l) fs cs ps := by
  rw [takeEffect_eq]
  exact elsewhere_inForce h _ hp

theorem elsewhere_ite {p : Prop} [Decidable p] (a : p → s.elsewhere v fs cs ps) (b : ¬p → s.elsewhere w fs cs ps) :
    s.elsewhere (if p then v else w) fs cs ps := by
  split
  · exact a ‹_›
  · exact b ‹_›

theorem elsewhere_foldl {α : Type} {f : State → α → State} (l : List α) (h : s.elsewhere v fs cs ps)
    (k : ∀ v, ∀ x ∈ l, s.elsewhere v fs cs ps → s.elsewhere (f v x) fs cs ps) : s.elsewhere (l.foldl f v) fs cs ps := by
  induction l generalizing v with
  | nil => exact h
  | cons a r ih => exact ih (k v a (List.mem_cons_self ..) h) (fun v x hx => k v x (List.mem_cons_of_mem _ hx))

theorem elsewhere_claims (h : s.elsewhere v fs cs ps) (x : Tab Holder) (hp : .claims ∈ ps) :
    s.elsewhere { v with claims := x } fs cs ps :=
  elsewhere_parts h rfl rfl (fun p n => by
    cases p <;> first | exact absurd hp n | rfl | exact ⟨rfl, rfl⟩ | exact fun _ _ => rfl | exact trivial)

theorem elsewhere_pins (h : s.elsewhere v fs cs ps) (x : List (Ball × Bool)) (hp : .pins ∈ ps) :
    s.elsewhere { v with pins := x } fs cs ps :=
  elsewhere_parts h rfl rfl (fun p n => by
    cases p <;> first | exact absurd hp n | rfl | exact ⟨rfl, rfl⟩ | exact fun _ _ => rfl | exact trivial)

theorem elsewhere_store (h : s.elsewhere v fs cs ps) (x : List Host.Cell) (hp : .store ∈ ps) :
    s.elsewhere { v with store := x } fs cs ps :=
  elsewhere_parts h rfl rfl (fun p n => by
    cases p <;> first | exact absurd hp n | rfl | exact ⟨rfl, rfl⟩ | exact fun _ _ => rfl | exact trivial)

theorem elsewhere_bal (h : s.elsewhere v fs cs ps) (x : Bal) (hp : .bal ∈ ps) :
    s.elsewhere { v with bal := x } fs cs ps :=
  elsewhere_parts h rfl rfl (fun p n => by
    cases p <;> first | exact absurd hp n | rfl | exact ⟨rfl, rfl⟩ | exact fun _ _ => rfl | exact trivial)

theorem elsewhere_rx (h : s.elsewhere v fs cs ps) (x : Tab Rx) (hp : .rx ∈ ps) :
    s.elsewhere { v with rx := x } fs cs ps :=
  elsewhere_parts h rfl rfl (fun p n => by
    cases p <;> first | exact absurd hp n | rfl | exact ⟨rfl, rfl⟩ | exact fun _ _ => rfl | exact trivial)

theorem elsewhere_chains (h : s.elsewhere v fs cs ps) (x : Tab Chain) (hp : .chains ∈ ps) :
    s.elsewhere { v with chains := x } fs cs ps :=
  elsewhere_parts h rfl rfl (fun p n => by
    cases p <;> first | exact absurd hp n | rfl | exact ⟨rfl, rfl⟩ | exact fun _ _ => rfl | exact trivial)

theorem elsewhere_coex (h : s.elsewhere v fs cs ps) (x : Coex) (hp : .coex ∈ ps) :
    s.elsewhere { v with coex := x } fs cs ps :=
  elsewhere_parts h rfl rfl (fun p n => by
    cases p <;> first | exact absurd hp n | rfl | exact ⟨rfl, rfl⟩ | exact fun _ _ => rfl | exact trivial)

theorem elsewhere_sic (h : s.elsewhere v fs cs ps) (x : Sic) (hp : .sic ∈ ps) :
    s.elsewhere { v with sic := x } fs cs ps :=
  elsewhere_parts h rfl rfl (fun p n => by
    cases p <;> first | exact absurd hp n | rfl | exact ⟨rfl, rfl⟩ | exact fun _ _ => rfl | exact trivial)

theorem elsewhere_lanes (h : s.elsewhere v fs cs ps) (x : Tab Lane) (hp : .lanes ∈ ps) :
    s.elsewhere { v with lanes := x } fs cs ps :=
  elsewhere_parts h rfl rfl (fun p n => by
    cases p <;> first | exact absurd hp n | rfl | exact ⟨rfl, rfl⟩ | exact fun _ _ => rfl | exact trivial)

theorem elsewhere_laneRecs (h : s.elsewhere v fs cs ps) (x : List LaneRec) (hp : .laneRecs ∈ ps) :
    s.elsewhere { v with laneRecs := x } fs cs ps :=
  elsewhere_parts h rfl rfl (fun p n => by
    cases p <;> first | exact absurd hp n | rfl | exact ⟨rfl, rfl⟩ | exact fun _ _ => rfl | exact trivial)

theorem elsewhere_txDone (h : s.elsewhere v fs cs ps) (x : List TxEnd) (hp : .txDone ∈ ps) :
    s.elsewhere { v with txDone := x } fs cs ps :=
  elsewhere_parts h rfl rfl (fun p n => by
    cases p <;> first | exact absurd hp n | rfl | exact ⟨rfl, rfl⟩ | exact fun _ _ => rfl | exact trivial)

theorem elsewhere_amc (h : s.elsewhere v fs cs ps) (x : Amc) (hp : .amc ∈ ps) :
    s.elsewhere { v with amc := x } fs cs ps :=
  elsewhere_parts h rfl rfl (fun p n => by
    cases p <;> first | exact absurd hp n | rfl | exact ⟨rfl, rfl⟩ | exact fun _ _ => rfl | exact trivial)

theorem elsewhere_slp (h : s.elsewhere v fs cs ps) (x : Slp) (hp : .slp ∈ ps) :
    s.elsewhere { v with slp := x } fs cs ps :=
  elsewhere_parts h rfl rfl (fun p n => by
    cases p <;> first | exact absurd hp n | rfl | exact ⟨rfl, rfl⟩ | exact fun _ _ => rfl | exact trivial)

theorem elsewhere_esc (h : s.elsewhere v fs cs ps) (x : Esc) (hp : .esc ∈ ps) :
    s.elsewhere { v with esc := x } fs cs ps :=
  elsewhere_parts h rfl rfl (fun p n => by
    cases p <;> first | exact absurd hp n | rfl | exact ⟨rfl, rfl⟩ | exact fun _ _ => rfl | exact trivial)

theorem elsewhere_fwd (h : s.elsewhere v fs cs ps) (x : Fwd) (hp : .fwd ∈ ps) :
    s.elsewhere { v with fwd := x } fs cs ps :=
  elsewhere_parts h rfl rfl (fun p n => by
    cases p <;> first | exact absurd hp n | rfl | exact ⟨rfl, rfl⟩ | exact fun _ _ => rfl | exact trivial)

theorem elsewhere_ctx (h : s.elsewhere v fs cs ps) (x : Ctx) (hp : .ctx ∈ ps) :
    s.elsewhere { v with ctx := x } fs cs ps :=
  elsewhere_parts h rfl rfl (fun p n => by
    cases p <;> first | exact absurd hp n | rfl | exact ⟨rfl, rfl⟩ | exact fun _ _ => rfl | exact trivial)

theorem elsewhere_jwl (h : s.elsewhere v fs cs ps) (x : Jwl) (hp : .jwl ∈ ps) :
    s.elsewhere { v with jwl := x } fs cs ps :=
  elsewhere_parts h rfl rfl (fun p n => by
    cases p <;> first | exact absurd hp n | rfl | exact ⟨rfl, rfl⟩ | exact fun _ _ => rfl | exact trivial)

theorem elsewhere_eth (h : s.elsewhere v fs cs ps) (x : Tab Eth) (hp : .eth ∈ ps) :
    s.elsewhere { v with eth := x } fs cs ps :=
  elsewhere_parts h rfl rfl (fun p n => by
    cases p <;> first | exact absurd hp n | rfl | exact ⟨rfl, rfl⟩ | exact fun _ _ => rfl | exact trivial)

theorem elsewhere_twn (h : s.elsewhere v fs cs ps) (x : Twn) (hp : .twn ∈ ps) :
    s.elsewhere { v with twn := x } fs cs ps :=
  elsewhere_parts h rfl rfl (fun p n => by
    cases p <;> first | exact absurd hp n | rfl | exact ⟨rfl, rfl⟩ | exact fun _ _ => rfl | exact trivial)

theorem elsewhere_crn (h : s.elsewhere v fs cs ps) (x : Crn) (hp : .crn ∈ ps) :
    s.elsewhere { v with crn := x } fs cs ps :=
  elsewhere_parts h rfl rfl (fun p n => by
    cases p <;> first | exact absurd hp n | rfl | exact ⟨rfl, rfl⟩ | exact fun _ _ => rfl | exact trivial)

theorem elsewhere_pwr (h : s.elsewhere v fs cs ps) (x : Pwr) (hp : .power ∈ ps) :
    s.elsewhere { v with pwr := x } fs cs ps :=
  elsewhere_parts h rfl rfl (fun p n => by
    cases p <;> first | exact absurd hp n | rfl | exact ⟨rfl, rfl⟩ | exact fun _ _ => rfl | exact trivial)

theorem elsewhere_fuses (h : s.elsewhere v fs cs ps) (x : Fuses) (hp : .fuses ∈ ps) :
    s.elsewhere { v with fuses := x } fs cs ps :=
  elsewhere_parts h rfl rfl (fun p n => by
    cases p <;> first | exact absurd hp n | rfl | exact ⟨rfl, rfl⟩ | exact fun _ _ => rfl | exact trivial)

theorem elsewhere_straps (h : s.elsewhere v fs cs ps) (x : Straps) (hp : .straps ∈ ps) :
    s.elsewhere { v with straps := x } fs cs ps :=
  elsewhere_parts h rfl rfl (fun p n => by
    cases p <;> first | exact absurd hp n | rfl | exact ⟨rfl, rfl⟩ | exact fun _ _ => rfl | exact trivial)

theorem elsewhere_cntLast (h : s.elsewhere v fs cs ps) (x : Tab Nat) (hp : .latched ∈ ps) :
    s.elsewhere { v with cntLast := x } fs cs ps :=
  elsewhere_parts h rfl rfl (fun p n => by
    cases p <;> first | exact absurd hp n | rfl | exact ⟨rfl, rfl⟩ | exact fun _ _ => rfl | exact trivial)

theorem elsewhere_once (h : s.elsewhere v fs cs ps) (x : List Nat) (hp : .once ∈ ps) :
    s.elsewhere { v with once := x } fs cs ps :=
  elsewhere_parts h rfl rfl (fun p n => by
    cases p <;> first | exact absurd hp n | rfl | exact ⟨rfl, rfl⟩ | exact fun _ _ => rfl | exact trivial)

/-! ### Named updates of parts -/

theorem elsewhere_onBal (h : s.elsewhere v fs cs ps) (f : Bal → Bal) (hp : .bal ∈ ps) :
    s.elsewhere (v.onBal f) fs cs ps := elsewhere_bal h _ hp

theorem elsewhere_setTt (h : s.elsewhere v fs cs ps) (n : Nat) (x : TtState) (hp : .bal ∈ ps) :
    s.elsewhere (v.setTt n x) fs cs ps := elsewhere_bal h _ hp

theorem elsewhere_onAmc (h : s.elsewhere v fs cs ps) (f : Amc → Amc) (hp : .amc ∈ ps) :
    s.elsewhere (v.onAmc f) fs cs ps := elsewhere_amc h _ hp

theorem elsewhere_onCrn (h : s.elsewhere v fs cs ps) (f : Crn → Crn) (hp : .crn ∈ ps) :
    s.elsewhere (v.onCrn f) fs cs ps := elsewhere_crn h _ hp

theorem elsewhere_onCtx (h : s.elsewhere v fs cs ps) (f : Ctx → Ctx) (hp : .ctx ∈ ps) :
    s.elsewhere (v.onCtx f) fs cs ps := elsewhere_ctx h _ hp

theorem elsewhere_onEsc (h : s.elsewhere v fs cs ps) (f : Esc → Esc) (hp : .esc ∈ ps) :
    s.elsewhere (v.onEsc f) fs cs ps := elsewhere_esc h _ hp

theorem elsewhere_onEth (h : s.elsewhere v fs cs ps) (n : Nat) (f : Eth → Eth) (hp : .eth ∈ ps) :
    s.elsewhere (v.onEth n f) fs cs ps := elsewhere_eth h _ hp

theorem elsewhere_onJwl (h : s.elsewhere v fs cs ps) (f : Jwl → Jwl) (hp : .jwl ∈ ps) :
    s.elsewhere (v.onJwl f) fs cs ps := elsewhere_jwl h _ hp

theorem elsewhere_onLane (h : s.elsewhere v fs cs ps) (n : Nat) (f : Lane → Lane) (hp : .lanes ∈ ps) :
    s.elsewhere (v.onLane n f) fs cs ps := elsewhere_lanes h _ hp

theorem elsewhere_setLane (h : s.elsewhere v fs cs ps) (n : Nat) (x : Lane) (hp : .lanes ∈ ps) :
    s.elsewhere (v.setLane n x) fs cs ps := elsewhere_lanes h _ hp

theorem elsewhere_onFwd (h : s.elsewhere v fs cs ps) (f : Fwd → Fwd) (hp : .fwd ∈ ps) :
    s.elsewhere (v.onFwd f) fs cs ps := elsewhere_fwd h _ hp

theorem elsewhere_setRx (h : s.elsewhere v fs cs ps) (n : Nat) (x : Rx) (hp : .rx ∈ ps) :
    s.elsewhere (v.setRx n x) fs cs ps := elsewhere_rx h _ hp

theorem elsewhere_onRx (h : s.elsewhere v fs cs ps) (n : Nat) (f : Rx → Rx) (hp : .rx ∈ ps) :
    s.elsewhere (v.onRx n f) fs cs ps := elsewhere_rx h _ hp

theorem elsewhere_setChain (h : s.elsewhere v fs cs ps) (n : Nat) (x : Chain) (hp : .chains ∈ ps) :
    s.elsewhere (v.setChain n x) fs cs ps := elsewhere_chains h _ hp

theorem elsewhere_onChain (h : s.elsewhere v fs cs ps) (n : Nat) (f : Chain → Chain) (hp : .chains ∈ ps) :
    s.elsewhere (v.onChain n f) fs cs ps := elsewhere_chains h _ hp

theorem elsewhere_setSicTx (h : s.elsewhere v fs cs ps) (n : Nat) (x : SicTx) (hp : .sic ∈ ps) :
    s.elsewhere (v.setSicTx n x) fs cs ps := elsewhere_sic h _ hp

theorem elsewhere_setSicEntry (h : s.elsewhere v fs cs ps) (n m : Nat) (x : SicEntry) (hp : .sic ∈ ps) :
    s.elsewhere (v.setSicEntry n m x) fs cs ps := elsewhere_sic h _ hp

theorem elsewhere_onPwr (h : s.elsewhere v fs cs ps) (f : Pwr → Pwr) (hp : .power ∈ ps) :
    s.elsewhere (v.onPwr f) fs cs ps := elsewhere_pwr h _ hp

theorem elsewhere_onSlp (h : s.elsewhere v fs cs ps) (f : Slp → Slp) (hp : .slp ∈ ps) :
    s.elsewhere (v.onSlp f) fs cs ps := elsewhere_slp h _ hp

theorem elsewhere_onTwn (h : s.elsewhere v fs cs ps) (f : Twn → Twn) (hp : .twn ∈ ps) :
    s.elsewhere (v.onTwn f) fs cs ps := elsewhere_twn h _ hp

theorem elsewhere_setOctets (h : s.elsewhere v fs cs ps) (a : Nat) (l : List Byte) (hp : .store ∈ ps) :
    s.elsewhere (v.setOctets a l) fs cs ps := elsewhere_store h _ hp

theorem elsewhere_drive (h : s.elsewhere v fs cs ps) (b : Ball) (x : Bool) (hp : .pins ∈ ps) :
    s.elsewhere (v.drive b x) fs cs ps := elsewhere_pins h _ hp

theorem elsewhere_undrive (h : s.elsewhere v fs cs ps) (b : Ball) (hp : .pins ∈ ps) :
    s.elsewhere (v.undrive b) fs cs ps := elsewhere_pins h _ hp

theorem elsewhere_releaseAll (h : s.elsewhere v fs cs ps) (f : Nat) (rs : List Nat) (hp : .claims ∈ ps) :
    s.elsewhere (releaseAll v f rs) fs cs ps := elsewhere_claims h _ hp

/-- Only what the Chronograph measures changes. -/
theorem elsewhere_chr (h : s.elsewhere v fs cs ps) (x : Chr) (h1 : (x.recs = v.chr.recs ∧ x.tagged = v.chr.tagged) ∨ .stages ∈ ps)
    (h2 : (x.samples = v.chr.samples ∧ x.enabled = v.chr.enabled) ∨ .samples ∈ ps) :
    s.elsewhere { v with chr := x } fs cs ps :=
  elsewhere_parts h rfl rfl (fun p n => by
    cases p
    case stages => exact h1.resolve_right n
    case samples => exact h2.resolve_right n
    case cluster => trivial
    all_goals first | rfl | exact fun _ _ => rfl)

theorem elsewhere_setRing (h : s.elsewhere v fs cs ps) (r : Nat) (g : Ring) (hp : .rings ∈ ps) :
    s.elsewhere (v.setRing r g) fs cs ps :=
  elsewhere_parts h rfl rfl (fun p n => by
    cases p <;> first | exact absurd hp n | rfl | exact ⟨rfl, rfl⟩ | exact fun _ _ => rfl | exact trivial)

theorem elsewhere_onRing (h : s.elsewhere v fs cs ps) (r : Nat) (f : Ring → Ring) (hp : .rings ∈ ps) :
    s.elsewhere (v.onRing r f) fs cs ps := elsewhere_setRing h r _ hp

theorem elsewhere_setLater (h : s.elsewhere v fs cs ps) {f : Fld} (x : Nat) (hf : f.key ∈ fs.map Fld.key) (hp : .inForce ∈ ps) :
    s.elsewhere (v.setLater f x) fs cs ps := by
  unfold State.setLater
  dsimp only
  split
  · exact elsewhere_set h x hf
  · exact elsewhere_set (elsewhere_inForce h _ hp) x hf

/-- The cluster's memory alone. -/
theorem elsewhere_mem (h : s.elsewhere v fs cs ps) (x : List Host.Cell) (hp : .cluster ∈ ps) :
    s.elsewhere { v with hif := { v.hif with mem := x } } fs cs ps :=
  elsewhere_trans h ⟨fun _ _ _ => rfl, fun _ _ _ => rfl,
    fun p _ => by cases p <;> first | rfl | exact ⟨rfl, rfl⟩ | exact fun _ _ => rfl | exact trivial, fun a _ => absurd hp a.1⟩

theorem elsewhere_memOut (h : s.elsewhere v fs cs ps) (o a : Nat) (l : List Byte) (hp : .cluster ∈ ps) :
    s.elsewhere (v.memOut o a l) fs cs ps := by
  unfold State.memOut
  dsimp only
  split
  · exact elsewhere_mem (elsewhere_emit h _) _ hp
  · exact elsewhere_emit h _

/-! ### Commands -/

/-- How a command is shown to change no more than its frame: its effect ends no transmission, raises no fault event, keeps
the frame, and what is claimed holds of every state that is the effect's but for reporting and measuring. -/
theorem changes_act {c : Instr} {t : Nat} {f : State → State} {P : State → Prop} (e : exec c s = act t s f) (h : s.settled)
    (ht : (f (s.begin t)).txDone = []) (hi : (f (s.begin t)).pwr.inbox = []) (hE : s.elsewhere (f (s.begin t)) fs cs ps)
    (hP : ∀ u, Kept (f (s.begin t)) u → P u) : changes c s fs cs ps P :=
  completes_act e h ht hi (fun u k => ⟨elsewhere_kept hE k, hP u k⟩)

/-- The same for a command of the reset domain. -/
theorem changes_actReset {c : Instr} {t : Nat} {f : State → State} {P : State → Prop} (e : exec c s = actReset t s f)
    (ht : (f (s.begin t)).txDone = []) (hi : (f (s.begin t)).pwr.inbox = []) (hE : s.elsewhere (f (s.begin t)) fs cs ps)
    (hP : ∀ u, Kept (f (s.begin t)) u → P u) : changes c s fs cs ps P :=
  completes_actReset e ht hi (fun u k => ⟨elsewhere_kept hE k, hP u k⟩)

end Sys2Proof.Machine
end

