-- ==== Sys2Proof/Laws/Store.lean ====
section
/-! SUPPORT. Laws of memory cells (the Context Store's bytes, the cluster's memory): a read after a write gives what was written,
other bytes stay, and the canonical form is kept. -/

set_option Elab.async false

namespace Sys2Proof.Machine

theorem cellsFrom_mono {m : List Host.Cell} {n k : Nat} (h : cellsFrom n m = true) (hk : k ≤ n) :
    cellsFrom k m = true := by
  cases m with
  | nil => rfl
  | cons e r =>
    simp only [cellsFrom, Bool.and_eq_true, decide_eq_true_eq] at *
    exact ⟨⟨by omega, h.1.2⟩, h.2⟩

theorem cellRead_below {m : List Host.Cell} {n a : Nat} (h : cellsFrom n m = true) (ha : a < n) : cellRead m a = 0 := by
  induction m generalizing n with
  | nil => rfl
  | cons e r ih =>
    obtain ⟨i, b⟩ := e
    simp only [cellsFrom, Bool.and_eq_true, decide_eq_true_eq] at h
    have hi : i ≠ a := by omega
    simp only [cellRead, hi, ite_false]
    exact ih h.2 (by omega)

theorem cellRead_write {m : List Host.Cell} {n : Nat} (a x : Nat) (v : Byte) (h : cellsFrom n m = true) :
    cellRead (cellWrite m a v) x = if a = x then v else cellRead m x := by
  induction m generalizing n with
  | nil =>
    simp only [cellWrite]
    split
    · rename_i hv; subst hv; simp [cellRead]
    · simp [cellRead]
  | cons e r ih =>
    obtain ⟨i, b⟩ := e
    simp only [cellsFrom, Bool.and_eq_true, decide_eq_true_eq] at h
    simp only [cellWrite]
    split
    · rename_i hlt
      split
      · rename_i hv; subst hv
        split
        · rename_i hx; subst hx
          have hi : i ≠ a := by omega
          simp only [cellRead, hi, ite_false]
          exact cellRead_below h.2 (by omega)
        · rfl
      · simp only [cellRead]
    · split
      · rename_i hi; subst hi
        split
        · rename_i hv; subst hv
          split
          · rename_i hx; subst hx; exact cellRead_below h.2 (by omega)
          · rename_i hx; simp [cellRead, hx]
        · simp only [cellRead]; split <;> rfl
      · rename_i hi
        simp only [cellRead, ih h.2]
        split
        · rename_i hx; subst hx; simp [Ne.symm hi]
        · rfl

theorem cellsFrom_write {m : List Host.Cell} {n : Nat} (a : Nat) (v : Byte) (h : cellsFrom n m = true) (hn : n ≤ a) :
    cellsFrom n (cellWrite m a v) = true := by
  induction m generalizing n with
  | nil =>
    simp only [cellWrite]
    split
    · rfl
    · rename_i hv; simp only [cellsFrom, Bool.and_eq_true, decide_eq_true_eq]; exact ⟨⟨hn, bne_iff_ne.2 hv⟩, trivial⟩
  | cons e r ih =>
    obtain ⟨i, b⟩ := e
    have h' := h
    simp only [cellsFrom, Bool.and_eq_true, decide_eq_true_eq] at h
    simp only [cellWrite]
    split
    · split
      · exact h'
      · rename_i hv; simp only [cellsFrom, Bool.and_eq_true, decide_eq_true_eq]
        exact ⟨⟨hn, bne_iff_ne.2 hv⟩, ⟨by omega, h.1.2⟩, h.2⟩
    · split
      · subst a
        split
        · exact cellsFrom_mono h.2 (by omega)
        · rename_i hv; simp only [cellsFrom, Bool.and_eq_true, decide_eq_true_eq]
          exact ⟨⟨hn, bne_iff_ne.2 hv⟩, h.2⟩
      · simp only [cellsFrom, Bool.and_eq_true, decide_eq_true_eq]
        exact ⟨h.1, ih h.2 (by omega)⟩

/-- A write keeps the canonical form. -/
theorem Memory.wf_write {m : List Host.Cell} (a : Nat) (v : Byte) (h : Memory.wf m = true) :
    Memory.wf (cellWrite m a v) = true := cellsFrom_write a v h (Nat.zero_le _)

/-- Writing octets keeps the canonical form. -/
theorem Memory.wf_writes {m : List Host.Cell} (a : Nat) (l : List Byte) (h : Memory.wf m = true) :
    Memory.wf (cellsWrite m a l) = true := by
  induction l generalizing m a with
  | nil => exact h
  | cons b r ih => exact ih (a + 1) (Memory.wf_write a b h)

/-- Octets outside those written stay. -/
theorem cellRead_writes_out {m : List Host.Cell} (a x : Nat) (l : List Byte) (h : Memory.wf m = true)
    (hx : x < a ∨ a + l.length ≤ x) : cellRead (cellsWrite m a l) x = cellRead m x := by
  induction l generalizing m a with
  | nil => rfl
  | cons b r ih =>
    simp only [List.length_cons] at hx
    rw [cellsWrite, ih (a + 1) (Memory.wf_write a b h) (by omega), cellRead_write a x b h, if_neg (by omega)]

/-- An octet written reads back. -/
theorem cellRead_writes_in {m : List Host.Cell} (a i : Nat) (l : List Byte) (h : Memory.wf m = true)
    (hi : i < l.length) : cellRead (cellsWrite m a l) (a + i) = l[i] := by
  induction l generalizing m a i with
  | nil => simp at hi
  | cons b r ih =>
    cases i with
    | zero => rw [cellsWrite, cellRead_writes_out _ _ _ (Memory.wf_write a b h) (by omega), cellRead_write _ _ _ h]; simp
    | succ i =>
      have := ih (a + 1) i (Memory.wf_write a b h) (by simpa using hi)
      rw [cellsWrite, List.getElem_cons_succ, ← this]; congr 1; omega

end Sys2Proof.Machine
end

