-- ==== Sys2Proof/Laws/Grows.lean ====
section
/-! SUPPORT. What no operation of the block ever undoes (`Grows`): it keeps the canonical form of the Context Store, of the cluster's
memory, of the register map and of the claim table, no fuse goes back, and the LTB stays as the command found it. One lemma for each operation;
a step is their composition. -/

set_option Elab.async false

namespace Sys2Proof.Machine

theorem Grows.refl (s : State) : Grows s s := ⟨rfl, id, id, id, id, fun h => ⟨h, Nat.le_refl _⟩, fun _ h => h, Nat.le_refl _⟩

theorem Grows.trans {s t u : State} (h : Grows s t) (k : Grows t u) : Grows s u where
  ltb := k.ltb.trans h.ltb
  store a := k.store (h.store a)
  mem a := k.mem (h.mem a)
  fields a := k.fields (h.fields a)
  claims a := k.claims (h.claims a)
  lc a := ⟨(k.lc (h.lc a).1).1, Nat.le_trans (h.lc a).2 (k.lc (h.lc a).1).2⟩
  signer x a := k.signer x (h.signer x a)
  rollback := Nat.le_trans h.rollback k.rollback

/-- An update of a part that none of this is about. -/
theorem Grows.upd {s0 s u : State} (h : Grows s0 s) (a : u.ltb = s.ltb) (b : u.store = s.store) (c : u.fields = s.fields)
    (d : u.claims = s.claims) (e : u.fuses = s.fuses) (f : u.jwl.lcTarget = s.jwl.lcTarget)
    (g : u.hif.mem = s.hif.mem := by rfl) : Grows s0 u :=
  h.trans ⟨a, fun x => by unfold State.storeOk; rw [b]; exact x, fun x => by unfold State.memOk; rw [g]; exact x, fun x => by rw [c]; exact x, fun x => by rw [d]; exact x,
    fun x => by unfold State.lcOk; rw [e, f]; exact ⟨x, Nat.le_refl _⟩, fun _ x => by rw [e]; exact x, Nat.le_of_eq (by rw [e])⟩

theorem Grows.fold {α : Type} {f : State → α → State} {s0 s : State} {l : List α} (hs : Grows s0 s)
    (h : ∀ v x, Grows s0 v → Grows s0 (f v x)) : Grows s0 (l.foldl f s) := by
  induction l generalizing s with
  | nil => exact hs
  | cons a r ih => exact ih (h s a hs)

theorem Grows.fold2 {α β : Type} {f : β × State → α → β × State} {s0 : State} {l : List α} {p : β × State}
    (hs : Grows s0 p.2) (h : ∀ v x, Grows s0 v.2 → Grows s0 (f v x).2) : Grows s0 (l.foldl f p).2 := by
  induction l generalizing p with
  | nil => exact hs
  | cons a r ih => exact ih (h p a hs)

theorem Grows.fold1 {α β : Type} {f : State × β → α → State × β} {s0 : State} {l : List α} {p : State × β}
    (hs : Grows s0 p.1) (h : ∀ v x, Grows s0 v.1 → Grows s0 (f v x).1) : Grows s0 (l.foldl f p).1 := by
  induction l generalizing p with
  | nil => exact hs
  | cons a r ih => exact ih (h p a hs)

theorem Grows.pair2 {β : Type} {s0 u : State} {p : β × State} {a : β} (e : p = (a, u)) (h : Grows s0 p.2) : Grows s0 u := by
  subst e; exact h

theorem Grows.pair1 {β : Type} {s0 u : State} {p : State × β} {a : β} (e : p = (u, a)) (h : Grows s0 p.1) : Grows s0 u := by
  subst e; exact h

theorem Grows.ofOpt {β : Type} {s0 u : State} {p : Option (β × State)} {a : β} (e : p = some (a, u))
    (h : ∀ x, p = some x → Grows s0 x.2) : Grows s0 u := h _ e

theorem set_grows {s0 s : State} (h : Grows s0 s) {f : Fld} {v : Nat} : Grows s0 (s.set f v) :=
  h.trans ⟨rfl, id, id, State.rising_set f v, id, fun x => ⟨x, Nat.le_refl _⟩, fun _ x => x, Nat.le_refl _⟩

theorem setb_grows {s0 s : State} (h : Grows s0 s) {f : Fld} {b : Bool} : Grows s0 (s.setb f b) := set_grows h

theorem sset_grows {s0 s : State} (h : Grows s0 s) {f : Fld} {i : Int} : Grows s0 (s.sset f i) := set_grows h

theorem takeEffect_grows {s0 s : State} (h : Grows s0 s) {l : List Fld} : Grows s0 (s.takeEffect l) :=
  h.upd (by simp) (by simp) (by simp) (by simp) (by simp) (by simp) (by simp)

theorem setLater_grows {s0 s : State} (h : Grows s0 s) {f : Fld} {v : Nat} : Grows s0 (s.setLater f v) := by
  unfold State.setLater
  refine set_grows ?_
  split
  · exact h
  · exact h.upd rfl rfl rfl rfl rfl rfl

theorem setOctets_grows {s0 s : State} (h : Grows s0 s) {a : Nat} {l : List Byte} : Grows s0 (s.setOctets a l) :=
  h.trans ⟨rfl, Memory.wf_writes a l, id, id, id, fun x => ⟨x, Nat.le_refl _⟩, fun _ x => x, Nat.le_refl _⟩

theorem onJwl_grows {s0 s : State} (h : Grows s0 s) {f : Jwl → Jwl} (e : (f s.jwl).lcTarget = s.jwl.lcTarget) :
    Grows s0 (s.onJwl f) := h.upd rfl rfl rfl rfl rfl e

theorem tabDel_claims_grows {s0 s : State} (h : Grows s0 s) {p : Nat × Holder → Bool} :
    Grows s0 { s with claims := s.claims.filter p } :=
  h.trans ⟨rfl, id, id, id, rising_filter p, fun x => ⟨x, Nat.le_refl _⟩, fun _ x => x, Nat.le_refl _⟩

theorem mk_grows {s0 s : State} (h : Grows s0 s) {x0 : List Instr} {x2 : Nat} {x3 : List Output} {x4 : Resp}
    {x5 : Straps} {x8 : Tab Nat} {x9 : Tab Nat} {x10 : Tab Nat} {x12 : List (Ball × Bool)} {x14 : Bal}
    {x15 : Tab Rx} {x16 : Tab Chain} {x17 : Coex} {x18 : Sic} {x19 : Tab Lane} {x20 : Hif} {x21 : Mbx}
    {x22 : Chr} {x23 : Pwr} {x24 : List LaneRec} {x25 : List TxEnd} {x26 : List Nat} {x27 : Amc} {x28 : Slp}
    {x29 : Esc} {x30 : Fwd} {x31 : Ctx} {x33 : Tab Eth} {x34 : Twn} {x35 : Crn} {x32 : Jwl}
    (e : x32.lcTarget = s.jwl.lcTarget) (e' : x20.mem = s.hif.mem := by rfl) : Grows s0
    (State.mk x0 s.ltb x2 x3 x4 x5 s.fuses s.fields x8 x9 x10 s.claims x12 s.store x14 x15 x16 x17 x18 x19 x20 x21 x22 x23 x24 x25 x26 x27 x28 x29 x30 x31 x32 x33 x34 x35) :=
  h.upd rfl rfl rfl rfl rfl e e'

theorem emit_grows {s0 s : State} (h : Grows s0 s) {o : Output} : Grows s0 (s.emit o) :=
  h.upd rfl rfl rfl rfl rfl rfl

theorem drive_grows {s0 s : State} (h : Grows s0 s) {b : Ball} {v : Bool} : Grows s0 (s.drive b v) :=
  h.upd rfl rfl rfl rfl rfl rfl

theorem undrive_grows {s0 s : State} (h : Grows s0 s) {b : Ball} : Grows s0 (s.undrive b) :=
  h.upd rfl rfl rfl rfl rfl rfl

theorem setRx_grows {s0 s : State} (h : Grows s0 s) {b : Nat} {r : Rx} : Grows s0 (s.setRx b r) :=
  h.upd rfl rfl rfl rfl rfl rfl

theorem setChain_grows {s0 s : State} (h : Grows s0 s) {n : Nat} {x : Chain} : Grows s0 (s.setChain n x) :=
  h.upd rfl rfl rfl rfl rfl rfl

theorem setLane_grows {s0 s : State} (h : Grows s0 s) {n : Nat} {l : Lane} : Grows s0 (s.setLane n l) :=
  h.upd rfl rfl rfl rfl rfl rfl

theorem setRing_grows {s0 s : State} (h : Grows s0 s) {r : Nat} {x : Ring} : Grows s0 (s.setRing r x) :=
  h.upd rfl rfl rfl rfl rfl rfl

theorem setTt_grows {s0 s : State} (h : Grows s0 s) {n : Nat} {x : TtState} : Grows s0 (s.setTt n x) :=
  h.upd rfl rfl rfl rfl rfl rfl

theorem setSicTx_grows {s0 s : State} (h : Grows s0 s) {n : Nat} {x : SicTx} : Grows s0 (s.setSicTx n x) :=
  h.upd rfl rfl rfl rfl rfl rfl

theorem setSicEntry_grows {s0 s : State} (h : Grows s0 s) {n k : Nat} {e : SicEntry} : Grows s0 (s.setSicEntry n k e) :=
  h.upd rfl rfl rfl rfl rfl rfl

theorem onRx_grows {s0 s : State} (h : Grows s0 s) {b : Nat} {f : Rx → Rx} : Grows s0 (s.onRx b f) :=
  h.upd rfl rfl rfl rfl rfl rfl

theorem onChain_grows {s0 s : State} (h : Grows s0 s) {n : Nat} {f : Chain → Chain} : Grows s0 (s.onChain n f) :=
  h.upd rfl rfl rfl rfl rfl rfl

theorem onLane_grows {s0 s : State} (h : Grows s0 s) {n : Nat} {f : Lane → Lane} : Grows s0 (s.onLane n f) :=
  h.upd rfl rfl rfl rfl rfl rfl

theorem onRing_grows {s0 s : State} (h : Grows s0 s) {r : Nat} {f : Ring → Ring} : Grows s0 (s.onRing r f) :=
  h.upd rfl rfl rfl rfl rfl rfl

theorem onBal_grows {s0 s : State} (h : Grows s0 s) {f : Bal → Bal} : Grows s0 (s.onBal f) :=
  h.upd rfl rfl rfl rfl rfl rfl

theorem keepMapping_grows {s0 s : State} (h : Grows s0 s) : Grows s0 s.keepMapping := h.upd rfl rfl rfl rfl rfl rfl

theorem onAmc_grows {s0 s : State} (h : Grows s0 s) {f : Amc → Amc} : Grows s0 (s.onAmc f) :=
  h.upd rfl rfl rfl rfl rfl rfl

theorem onSlp_grows {s0 s : State} (h : Grows s0 s) {f : Slp → Slp} : Grows s0 (s.onSlp f) :=
  h.upd rfl rfl rfl rfl rfl rfl

theorem onEsc_grows {s0 s : State} (h : Grows s0 s) {f : Esc → Esc} : Grows s0 (s.onEsc f) :=
  h.upd rfl rfl rfl rfl rfl rfl

theorem onFwd_grows {s0 s : State} (h : Grows s0 s) {f : Fwd → Fwd} : Grows s0 (s.onFwd f) :=
  h.upd rfl rfl rfl rfl rfl rfl

theorem onCtx_grows {s0 s : State} (h : Grows s0 s) {f : Ctx → Ctx} : Grows s0 (s.onCtx f) :=
  h.upd rfl rfl rfl rfl rfl rfl

theorem onEth_grows {s0 s : State} (h : Grows s0 s) {i : Nat} {f : Eth → Eth} : Grows s0 (s.onEth i f) :=
  h.upd rfl rfl rfl rfl rfl rfl

theorem onTwn_grows {s0 s : State} (h : Grows s0 s) {f : Twn → Twn} : Grows s0 (s.onTwn f) :=
  h.upd rfl rfl rfl rfl rfl rfl

theorem onPwr_grows {s0 s : State} (h : Grows s0 s) {f : Pwr → Pwr} : Grows s0 (s.onPwr f) :=
  h.upd rfl rfl rfl rfl rfl rfl

theorem onCrn_grows {s0 s : State} (h : Grows s0 s) {f : Crn → Crn} : Grows s0 (s.onCrn f) :=
  h.upd rfl rfl rfl rfl rfl rfl

theorem onChr_grows {s0 s : State} (h : Grows s0 s) {f : Chr → Chr} : Grows s0 (s.onChr f) :=
  h.upd rfl rfl rfl rfl rfl rfl

theorem drawFree_grows {s0 s : State} (h : Grows s0 s) {n : Nat} : Grows s0 (s.drawFree n).2 :=
  h.upd rfl rfl rfl rfl rfl rfl

theorem drawRandom_grows {s0 s : State} (h : Grows s0 s) {n : Nat} : Grows s0 (s.drawRandom n).2 :=
  h.upd rfl rfl rfl rfl rfl rfl

theorem chrAdd_grows {s0 s : State} (h : Grows s0 s) {k n : Nat} : Grows s0 (s.chrAdd k n) := h.upd rfl rfl rfl rfl rfl rfl

theorem histBin_grows {s0 s : State} (h : Grows s0 s) {u v : Nat} : Grows s0 (histBin s u v) := h.upd rfl rfl rfl rfl rfl rfl

theorem bumpBy_grows {s0 s : State} (h : Grows s0 s) {c n : Nat} : Grows s0 (s.bumpBy c n) := h.upd rfl rfl rfl rfl rfl rfl

theorem memOut_grows {s0 s : State} (h : Grows s0 s) {o a : Nat} {l : List Byte} : Grows s0 (s.memOut o a l) := by
  unfold State.memOut
  dsimp only
  split
  · exact h.trans ⟨rfl, id, Memory.wf_writes a l, id, id, fun x => ⟨x, Nat.le_refl _⟩, fun _ x => x, Nat.le_refl _⟩
  · exact emit_grows h

theorem bumpQuiet_grows {s0 s : State} (h : Grows s0 s) {c n : Nat} : Grows s0 (s.bumpQuiet c n) := h.upd rfl rfl rfl rfl rfl rfl

theorem bump_grows {s0 s : State} (h : Grows s0 s) {c : Nat} : Grows s0 (s.bump c) := bumpBy_grows h

end Sys2Proof.Machine
end

