-- ==== Sys2Proof/Laws/GrowsRadio.lean ====
section
/-! SUPPORT. `Grows` for the operations of the Balance, the receivers, the chains, the lanes: one lemma for each. -/

set_option Elab.async false

set_option linter.unusedTactic false
set_option linter.unreachableTactic false

namespace Sys2Proof.Machine

/-! ### Events -/

theorem lineFire_grows {z0 : State} {s : State} {v : Nat} (hg : Grows z0 s) :
    Grows z0 (lineFire s v) := by
  unfold lineFire
  repeat' first
    | with_reducible exact hg | with_reducible assumption | with_reducible apply emit_grows
    | fail_if_no_progress (with_reducible refine mk_grows ?_ rfl)
    | with_reducible refine Grows.pair2 (by assumption) ?_
    | with_reducible refine Grows.pair1 (by assumption) ?_
    | with_reducible refine Grows.ofOpt (by assumption) ?_
    | with_reducible refine Grows.fold ?_ (fun _ _ _ => ?_)
    | with_reducible refine Grows.fold2 ?_ (fun _ _ _ => ?_)
    | with_reducible refine Grows.fold1 ?_ (fun _ _ _ => ?_) | intro _ | split | dsimp only

theorem msixFire_grows {z0 : State} {s : State} {v : Nat} (hg : Grows z0 s) :
    Grows z0 (msixFire s v) := by
  unfold msixFire
  repeat' first
    | with_reducible exact hg | with_reducible assumption | with_reducible apply emit_grows
    | with_reducible apply bump_grows | fail_if_no_progress (with_reducible refine mk_grows ?_ rfl)
    | with_reducible refine Grows.pair2 (by assumption) ?_
    | with_reducible refine Grows.pair1 (by assumption) ?_
    | with_reducible refine Grows.ofOpt (by assumption) ?_ | intro _ | split | dsimp only

theorem vecFire_grows {z0 : State} {s : State} {v : Nat} (hg : Grows z0 s) :
    Grows z0 (vecFire s v) := by
  unfold vecFire
  repeat' first
    | with_reducible exact hg | with_reducible assumption | with_reducible apply takeEffect_grows
    | with_reducible apply lineFire_grows | with_reducible apply msixFire_grows
    | fail_if_no_progress (with_reducible refine mk_grows ?_ rfl)
    | with_reducible refine Grows.pair2 (by assumption) ?_
    | with_reducible refine Grows.pair1 (by assumption) ?_
    | with_reducible refine Grows.ofOpt (by assumption) ?_ | intro _ | split | dsimp only

theorem vecCause_grows {z0 : State} {s : State} {v : Nat} (hg : Grows z0 s) :
    Grows z0 (vecCause s v) := by
  unfold vecCause
  repeat' first
    | with_reducible exact hg | with_reducible assumption | with_reducible apply vecFire_grows
    | fail_if_no_progress (with_reducible refine mk_grows ?_ rfl)
    | with_reducible refine Grows.pair2 (by assumption) ?_
    | with_reducible refine Grows.pair1 (by assumption) ?_
    | with_reducible refine Grows.ofOpt (by assumption) ?_ | intro _ | split | dsimp only

theorem ringCause_grows {z0 : State} {s : State} {r : Nat} (hg : Grows z0 s) :
    Grows z0 (ringCause s r) := by
  unfold ringCause
  repeat' first
    | with_reducible exact hg | with_reducible assumption | with_reducible apply setRing_grows
    | with_reducible apply vecCause_grows | fail_if_no_progress (with_reducible refine mk_grows ?_ rfl)
    | with_reducible refine Grows.pair2 (by assumption) ?_
    | with_reducible refine Grows.pair1 (by assumption) ?_
    | with_reducible refine Grows.ofOpt (by assumption) ?_ | intro _ | split | dsimp only

theorem ringProduce_grows {z0 : State} {s : State} {r : Nat} {image entry : List Byte} (hg : Grows z0 s) :
    Grows z0 (ringProduce s r image entry) := by
  unfold ringProduce
  repeat' first
    | with_reducible exact hg | with_reducible assumption | with_reducible apply setRing_grows
    | with_reducible apply memOut_grows | with_reducible apply ringCause_grows
    | fail_if_no_progress (with_reducible refine mk_grows ?_ rfl)
    | with_reducible refine Grows.pair2 (by assumption) ?_
    | with_reducible refine Grows.pair1 (by assumption) ?_
    | with_reducible refine Grows.ofOpt (by assumption) ?_ | intro _ | split | dsimp only

theorem eventOffer_grows {z0 : State} {s : State} {r ev a0 a1 a2 : Nat} {sw : Bool} (hg : Grows z0 s) :
    Grows z0 (eventOffer s r ev a0 a1 a2 sw).1 := by
  unfold eventOffer
  repeat' first
    | with_reducible exact hg | with_reducible assumption | with_reducible apply setRing_grows
    | with_reducible apply bump_grows | with_reducible apply ringProduce_grows
    | fail_if_no_progress (with_reducible refine mk_grows ?_ rfl)
    | with_reducible refine Grows.pair2 (by assumption) ?_
    | with_reducible refine Grows.pair1 (by assumption) ?_
    | with_reducible refine Grows.ofOpt (by assumption) ?_ | intro _ | split | dsimp only

theorem raiseOnce_grows {z0 : State} {s : State} {ev a0 a1 a2 : Nat} {sw : Bool} (hg : Grows z0 s) :
    Grows z0 (raiseOnce s ev a0 a1 a2 sw).1 := by
  unfold raiseOnce
  repeat' first
    | with_reducible exact hg | with_reducible assumption | with_reducible apply bump_grows
    | with_reducible apply vecCause_grows | with_reducible apply eventOffer_grows
    | fail_if_no_progress (with_reducible refine mk_grows ?_ rfl)
    | with_reducible refine Grows.pair2 (by assumption) ?_
    | with_reducible refine Grows.pair1 (by assumption) ?_
    | with_reducible refine Grows.ofOpt (by assumption) ?_ | intro _ | split | dsimp only

theorem raiseSw_grows {z0 : State} {s : State} {ev a0 a1 a2 : Nat} {sw : Bool} (hg : Grows z0 s) :
    Grows z0 (raiseSw s ev a0 a1 a2 sw) := by
  unfold raiseSw
  repeat' first
    | with_reducible exact hg | with_reducible assumption | with_reducible apply raiseOnce_grows
    | fail_if_no_progress (with_reducible refine mk_grows ?_ rfl)
    | with_reducible refine Grows.pair2 (by assumption) ?_
    | with_reducible refine Grows.pair1 (by assumption) ?_
    | with_reducible refine Grows.ofOpt (by assumption) ?_ | intro _ | split | dsimp only

theorem raise_grows {z0 : State} {s : State} {ev : Nat} {a0 a1 a2 : Nat} (hg : Grows z0 s) :
    Grows z0 (State.raise s ev a0 a1 a2) := by
  unfold State.raise
  repeat' first
    | with_reducible exact hg | with_reducible assumption | with_reducible apply raiseSw_grows
    | fail_if_no_progress (with_reducible refine mk_grows ?_ rfl)
    | with_reducible refine Grows.pair2 (by assumption) ?_
    | with_reducible refine Grows.pair1 (by assumption) ?_
    | with_reducible refine Grows.ofOpt (by assumption) ?_ | intro _ | split | dsimp only

theorem claimRefused_grows {z0 : State} {s : State} {feature r : Nat} (hg : Grows z0 s) :
    Grows z0 (claimRefused s feature r) := by
  unfold claimRefused
  repeat' first
    | with_reducible exact hg | with_reducible assumption | with_reducible apply set_grows
    | with_reducible apply raise_grows | fail_if_no_progress (with_reducible refine mk_grows ?_ rfl)
    | with_reducible refine Grows.pair2 (by assumption) ?_
    | with_reducible refine Grows.pair1 (by assumption) ?_
    | with_reducible refine Grows.ofOpt (by assumption) ?_ | intro _ | split | dsimp only

theorem claims_fold {l : List Nat} {m : Tab Holder} {f : Nat → Holder} (h : rising m = true) :
    rising (l.foldl (fun m r => tabPut m r (f r)) m) = true := by
  induction l generalizing m with
  | nil => exact h
  | cons a r ih => exact ih (rising_put _ _ h)

theorem claimAll_grows {s0 : State} {s : State} {feature : Nat} {rs : List Nat} (h : Grows s0 s) :
    Grows s0 (claimAll s feature rs).2 := by
  unfold claimAll
  split
  · exact claimRefused_grows h
  · exact h.trans ⟨rfl, id, id, id, claims_fold, fun x => ⟨x, Nat.le_refl _⟩, fun _ x => x, Nat.le_refl _⟩

theorem releaseAll_grows {s0 : State} {s : State} {feature : Nat} {rs : List Nat} (h : Grows s0 s) :
    Grows s0 (releaseAll s feature rs) := tabDel_claims_grows h

/-! ### BalOps -/

theorem setPeriod_grows {z0 : State} {s : State} {p : Int} (hg : Grows z0 s) :
    Grows z0 (setPeriod s p) := by
  unfold setPeriod
  repeat' first
    | with_reducible exact hg | with_reducible assumption | with_reducible apply set_grows
    | with_reducible apply onBal_grows | fail_if_no_progress (with_reducible refine mk_grows ?_ rfl)
    | with_reducible refine Grows.pair2 (by assumption) ?_
    | with_reducible refine Grows.pair1 (by assumption) ?_
    | with_reducible refine Grows.ofOpt (by assumption) ?_ | intro _ | split | dsimp only

theorem ttArm_grows {z0 : State} {s : State} {n : Nat} (hg : Grows z0 s) :
    Grows z0 (ttArm s n) := by
  unfold ttArm
  repeat' first
    | with_reducible exact hg | with_reducible assumption | with_reducible apply set_grows
    | with_reducible apply setTt_grows | fail_if_no_progress (with_reducible refine mk_grows ?_ rfl)
    | with_reducible refine Grows.pair2 (by assumption) ?_
    | with_reducible refine Grows.pair1 (by assumption) ?_
    | with_reducible refine Grows.ofOpt (by assumption) ?_ | intro _ | split | dsimp only

theorem ttDisarm_grows {z0 : State} {s : State} {n : Nat} (hg : Grows z0 s) :
    Grows z0 (ttDisarm s n) := by
  unfold ttDisarm
  repeat' first
    | with_reducible exact hg | with_reducible assumption | with_reducible apply set_grows
    | with_reducible apply setTt_grows | fail_if_no_progress (with_reducible refine mk_grows ?_ rfl)
    | with_reducible refine Grows.pair2 (by assumption) ?_
    | with_reducible refine Grows.pair1 (by assumption) ?_
    | with_reducible refine Grows.ofOpt (by assumption) ?_ | intro _ | split | dsimp only

theorem ttPassed_grows {z0 : State} {s : State} {a : Nat} (hg : Grows z0 s) :
    Grows z0 (ttPassed s a) := by
  unfold ttPassed
  repeat' first
    | with_reducible exact hg | with_reducible assumption | with_reducible apply setTt_grows
    | fail_if_no_progress (with_reducible refine mk_grows ?_ rfl)
    | with_reducible refine Grows.pair2 (by assumption) ?_
    | with_reducible refine Grows.pair1 (by assumption) ?_
    | with_reducible refine Grows.ofOpt (by assumption) ?_
    | with_reducible refine Grows.fold ?_ (fun _ _ _ => ?_)
    | with_reducible refine Grows.fold2 ?_ (fun _ _ _ => ?_)
    | with_reducible refine Grows.fold1 ?_ (fun _ _ _ => ?_) | intro _ | split | dsimp only

theorem ttEnable_grows {z0 : State} {s : State} {n : Nat} (hg : Grows z0 s) :
    Grows z0 (ttEnable s n) := by
  unfold ttEnable
  repeat' first
    | with_reducible exact hg | with_reducible assumption | with_reducible apply set_grows
    | with_reducible apply drive_grows | with_reducible apply setTt_grows
    | with_reducible apply claimRefused_grows | with_reducible apply claimAll_grows
    | with_reducible apply ttArm_grows | fail_if_no_progress (with_reducible refine mk_grows ?_ rfl)
    | with_reducible refine Grows.pair2 (by assumption) ?_
    | with_reducible refine Grows.pair1 (by assumption) ?_
    | with_reducible refine Grows.ofOpt (by assumption) ?_ | intro _ | split | dsimp only

theorem converterRelease_grows {z0 : State} {s : State} (hg : Grows z0 s) :
    Grows z0 (converterRelease s) := by
  unfold converterRelease
  repeat' first
    | with_reducible exact hg | with_reducible assumption | with_reducible apply releaseAll_grows
    | fail_if_no_progress (with_reducible refine mk_grows ?_ rfl)
    | with_reducible refine Grows.pair2 (by assumption) ?_
    | with_reducible refine Grows.pair1 (by assumption) ?_
    | with_reducible refine Grows.ofOpt (by assumption) ?_ | intro _ | split | dsimp only

theorem ttDisable_grows {z0 : State} {s : State} {n : Nat} (hg : Grows z0 s) :
    Grows z0 (ttDisable s n) := by
  unfold ttDisable
  repeat' first
    | with_reducible exact hg | with_reducible assumption | with_reducible apply set_grows
    | with_reducible apply undrive_grows | with_reducible apply setTt_grows
    | with_reducible apply releaseAll_grows | with_reducible apply ttDisarm_grows
    | with_reducible apply converterRelease_grows | fail_if_no_progress (with_reducible refine mk_grows ?_ rfl)
    | with_reducible refine Grows.pair2 (by assumption) ?_
    | with_reducible refine Grows.pair1 (by assumption) ?_
    | with_reducible refine Grows.ofOpt (by assumption) ?_ | intro _ | split | dsimp only

theorem ttCommit_grows {z0 : State} {s : State} {n hi : Nat} (hg : Grows z0 s) :
    Grows z0 (ttCommit s n hi) := by
  unfold ttCommit
  repeat' first
    | with_reducible exact hg | with_reducible assumption | with_reducible apply set_grows
    | with_reducible apply setTt_grows | with_reducible apply ttArm_grows
    | fail_if_no_progress (with_reducible refine mk_grows ?_ rfl)
    | with_reducible refine Grows.pair2 (by assumption) ?_
    | with_reducible refine Grows.pair1 (by assumption) ?_
    | with_reducible refine Grows.ofOpt (by assumption) ?_ | intro _ | split | dsimp only

theorem ttAct_grows {z0 : State} {s : State} {n : Nat} (hg : Grows z0 s) :
    Grows z0 (ttAct s n) := by
  unfold ttAct
  repeat' first
    | with_reducible exact hg | with_reducible assumption | with_reducible apply drive_grows
    | with_reducible apply setTt_grows | with_reducible apply onBal_grows
    | fail_if_no_progress (with_reducible refine mk_grows ?_ rfl)
    | with_reducible refine Grows.pair2 (by assumption) ?_
    | with_reducible refine Grows.pair1 (by assumption) ?_
    | with_reducible refine Grows.ofOpt (by assumption) ?_ | intro _ | split | dsimp only

theorem ttAdvance_grows {z0 : State} {s : State} {n : Nat} (hg : Grows z0 s) :
    Grows z0 (ttAdvance s n) := by
  unfold ttAdvance
  repeat' first
    | with_reducible exact hg | with_reducible assumption | with_reducible apply setTt_grows
    | with_reducible apply ttArm_grows | with_reducible apply ttDisarm_grows
    | fail_if_no_progress (with_reducible refine mk_grows ?_ rfl)
    | with_reducible refine Grows.pair2 (by assumption) ?_
    | with_reducible refine Grows.pair1 (by assumption) ?_
    | with_reducible refine Grows.ofOpt (by assumption) ?_ | intro _ | split | dsimp only

theorem ttFiring_grows {z0 : State} {s : State} {n : Nat} (hg : Grows z0 s) :
    Grows z0 (ttFiring s n) := by
  unfold ttFiring
  repeat' first
    | with_reducible exact hg | with_reducible assumption | with_reducible apply set_grows
    | with_reducible apply bump_grows | with_reducible apply raise_grows | with_reducible apply ttAct_grows
    | with_reducible apply ttAdvance_grows | fail_if_no_progress (with_reducible refine mk_grows ?_ rfl)
    | with_reducible refine Grows.pair2 (by assumption) ?_
    | with_reducible refine Grows.pair1 (by assumption) ?_
    | with_reducible refine Grows.ofOpt (by assumption) ?_ | intro _ | split | dsimp only

theorem ttPulseEnd_grows {z0 : State} {s : State} {n : Nat} (hg : Grows z0 s) :
    Grows z0 (ttPulseEnd s n) := by
  unfold ttPulseEnd
  repeat' first
    | with_reducible exact hg | with_reducible assumption | with_reducible apply drive_grows
    | with_reducible apply setTt_grows | fail_if_no_progress (with_reducible refine mk_grows ?_ rfl)
    | with_reducible refine Grows.pair2 (by assumption) ?_
    | with_reducible refine Grows.pair1 (by assumption) ?_
    | with_reducible refine Grows.ofOpt (by assumption) ?_ | intro _ | split | dsimp only

theorem burstDone_grows {z0 : State} {s : State} {samples : List (BitVec 12)} (hg : Grows z0 s) :
    Grows z0 (burstDone s samples) := by
  unfold burstDone
  repeat' first
    | with_reducible exact hg | with_reducible assumption | with_reducible apply set_grows
    | with_reducible apply onBal_grows | with_reducible apply converterRelease_grows
    | fail_if_no_progress (with_reducible refine mk_grows ?_ rfl)
    | with_reducible refine Grows.pair2 (by assumption) ?_
    | with_reducible refine Grows.pair1 (by assumption) ?_
    | with_reducible refine Grows.ofOpt (by assumption) ?_
    | with_reducible refine Grows.fold ?_ (fun _ _ _ => ?_)
    | with_reducible refine Grows.fold2 ?_ (fun _ _ _ => ?_)
    | with_reducible refine Grows.fold1 ?_ (fun _ _ _ => ?_) | intro _ | split | dsimp only

theorem ttFix_grows {z0 : State} {s : State} {n : Nat} (hg : Grows z0 s) :
    Grows z0 (ttFix s n) := by
  unfold ttFix
  repeat' first
    | with_reducible exact hg | with_reducible assumption | with_reducible apply setTt_grows
    | fail_if_no_progress (with_reducible refine mk_grows ?_ rfl)
    | with_reducible refine Grows.pair2 (by assumption) ?_
    | with_reducible refine Grows.pair1 (by assumption) ?_
    | with_reducible refine Grows.ofOpt (by assumption) ?_ | intro _ | split | dsimp only

theorem enterHoldover_grows {z0 : State} {s : State} (hg : Grows z0 s) :
    Grows z0 (enterHoldover s) := by
  unfold enterHoldover
  repeat' first
    | with_reducible exact hg | with_reducible assumption | with_reducible apply set_grows
    | with_reducible apply onBal_grows | with_reducible apply raise_grows | with_reducible apply setPeriod_grows
    | fail_if_no_progress (with_reducible refine mk_grows ?_ rfl)
    | with_reducible refine Grows.pair2 (by assumption) ?_
    | with_reducible refine Grows.pair1 (by assumption) ?_
    | with_reducible refine Grows.ofOpt (by assumption) ?_ | intro _ | split | dsimp only

theorem decidePhase_grows {z0 : State} {s : State} {e : Int} (hg : Grows z0 s) :
    Grows z0 (decidePhase s e) := by
  unfold decidePhase
  repeat' first
    | with_reducible exact hg | with_reducible assumption | with_reducible apply set_grows
    | with_reducible apply onBal_grows | fail_if_no_progress (with_reducible refine mk_grows ?_ rfl)
    | with_reducible refine Grows.pair2 (by assumption) ?_
    | with_reducible refine Grows.pair1 (by assumption) ?_
    | with_reducible refine Grows.ofOpt (by assumption) ?_ | intro _ | split | dsimp only

theorem sitePhaseApply_grows {z0 : State} {s : State} (hg : Grows z0 s) :
    Grows z0 (sitePhaseApply s).2 := by
  unfold sitePhaseApply
  repeat' first
    | with_reducible exact hg | with_reducible assumption | with_reducible apply keepMapping_grows
    | with_reducible apply takeEffect_grows | with_reducible apply onBal_grows
    | fail_if_no_progress (with_reducible refine mk_grows ?_ rfl)
    | with_reducible refine Grows.pair2 (by assumption) ?_
    | with_reducible refine Grows.pair1 (by assumption) ?_
    | with_reducible refine Grows.ofOpt (by assumption) ?_ | intro _ | split | dsimp only

theorem siteError_grows {z0 : State} {s : State} {x : Int} (hg : Grows z0 s) :
    Grows z0 (siteError s x) := by
  unfold siteError
  repeat' first
    | with_reducible exact hg | with_reducible assumption | with_reducible apply onBal_grows
    | with_reducible apply decidePhase_grows | fail_if_no_progress (with_reducible refine mk_grows ?_ rfl)
    | with_reducible refine Grows.pair2 (by assumption) ?_
    | with_reducible refine Grows.pair1 (by assumption) ?_
    | with_reducible refine Grows.ofOpt (by assumption) ?_ | intro _ | split | dsimp only

theorem lockAcquired_grows {z0 : State} {s : State} {ain : Bool} {set : List Int} {e : Int} {k : Nat} {ahead : Bool} (hg : Grows z0 s) :
    Grows z0 (lockAcquired s ain set e k ahead) := by
  unfold lockAcquired
  repeat' first
    | with_reducible exact hg | with_reducible assumption | with_reducible apply set_grows
    | with_reducible apply setb_grows | with_reducible apply onBal_grows | with_reducible apply raise_grows
    | with_reducible apply setPeriod_grows | with_reducible apply decidePhase_grows
    | fail_if_no_progress (with_reducible refine mk_grows ?_ rfl)
    | with_reducible refine Grows.pair2 (by assumption) ?_
    | with_reducible refine Grows.pair1 (by assumption) ?_
    | with_reducible refine Grows.ofOpt (by assumption) ?_ | intro _ | split | dsimp only

theorem rangeReject_grows {z0 : State} {s : State} (hg : Grows z0 s) :
    Grows z0 (rangeReject s) := by
  unfold rangeReject
  repeat' first
    | with_reducible exact hg | with_reducible assumption | with_reducible apply set_grows
    | with_reducible apply onBal_grows | with_reducible apply bump_grows | with_reducible apply raise_grows
    | with_reducible apply enterHoldover_grows | fail_if_no_progress (with_reducible refine mk_grows ?_ rfl)
    | with_reducible refine Grows.pair2 (by assumption) ?_
    | with_reducible refine Grows.pair1 (by assumption) ?_
    | with_reducible refine Grows.ofOpt (by assumption) ?_ | intro _ | split | dsimp only

theorem loopUpdate_grows {z0 : State} {s : State} {e : Int} {extra : Nat} (hg : Grows z0 s) :
    Grows z0 (loopUpdate s e extra).2 := by
  unfold loopUpdate
  repeat' first
    | with_reducible exact hg | with_reducible assumption | with_reducible apply setb_grows
    | with_reducible apply onBal_grows | with_reducible apply setPeriod_grows
    | fail_if_no_progress (with_reducible refine mk_grows ?_ rfl)
    | with_reducible refine Grows.pair2 (by assumption) ?_
    | with_reducible refine Grows.pair1 (by assumption) ?_
    | with_reducible refine Grows.ofOpt (by assumption) ?_ | intro _ | split | dsimp only

theorem acceptLocked_grows {z0 : State} {s : State} {k : Nat} {e : Int} {begun : Bool} (hg : Grows z0 s) :
    Grows z0 (acceptLocked s k e begun) := by
  unfold acceptLocked
  repeat' first
    | with_reducible exact hg | with_reducible assumption | with_reducible apply keepMapping_grows
    | with_reducible apply sset_grows | with_reducible apply onBal_grows | with_reducible apply bump_grows
    | with_reducible apply loopUpdate_grows | fail_if_no_progress (with_reducible refine mk_grows ?_ rfl)
    | with_reducible refine Grows.pair2 (by assumption) ?_
    | with_reducible refine Grows.pair1 (by assumption) ?_
    | with_reducible refine Grows.ofOpt (by assumption) ?_ | intro _ | split | dsimp only

theorem crossing_grows {z0 : State} {s : State} {z : Int} {ain : Bool} (hg : Grows z0 s) :
    Grows z0 (crossing s z ain) := by
  unfold crossing
  repeat' first
    | with_reducible exact hg | with_reducible assumption | with_reducible apply set_grows
    | with_reducible apply sset_grows | with_reducible apply onBal_grows | with_reducible apply bump_grows
    | with_reducible apply raise_grows | with_reducible apply sitePhaseApply_grows
    | with_reducible apply siteError_grows | with_reducible apply lockAcquired_grows
    | with_reducible apply rangeReject_grows | with_reducible apply acceptLocked_grows
    | fail_if_no_progress (with_reducible refine mk_grows ?_ rfl)
    | with_reducible refine Grows.pair2 (by assumption) ?_
    | with_reducible refine Grows.pair1 (by assumption) ?_
    | with_reducible refine Grows.ofOpt (by assumption) ?_ | intro _ | split | dsimp only

theorem gridZcEdge_grows {z0 : State} {s : State} {rising : Bool} (hg : Grows z0 s) :
    Grows z0 (gridZcEdge s rising) := by
  unfold gridZcEdge
  repeat' first
    | with_reducible exact hg | with_reducible assumption | with_reducible apply crossing_grows
    | fail_if_no_progress (with_reducible refine mk_grows ?_ rfl)
    | with_reducible refine Grows.pair2 (by assumption) ?_
    | with_reducible refine Grows.pair1 (by assumption) ?_
    | with_reducible refine Grows.ofOpt (by assumption) ?_ | intro _ | split | dsimp only

theorem gridAinCrossing_grows {z0 : State} {s : State} {t1 : Nat} {s1 s2 lowest highest : Int} (hg : Grows z0 s) :
    Grows z0 (gridAinCrossing s t1 s1 s2 lowest highest) := by
  unfold gridAinCrossing
  repeat' first
    | with_reducible exact hg | with_reducible assumption | with_reducible apply crossing_grows
    | fail_if_no_progress (with_reducible refine mk_grows ?_ rfl)
    | with_reducible refine Grows.pair2 (by assumption) ?_
    | with_reducible refine Grows.pair1 (by assumption) ?_
    | with_reducible refine Grows.ofOpt (by assumption) ?_ | intro _ | split | dsimp only

theorem crossingMissed_grows {z0 : State} {s : State} (hg : Grows z0 s) :
    Grows z0 (crossingMissed s) := by
  unfold crossingMissed
  repeat' first
    | with_reducible exact hg | with_reducible assumption | with_reducible apply onBal_grows
    | with_reducible apply enterHoldover_grows | fail_if_no_progress (with_reducible refine mk_grows ?_ rfl)
    | with_reducible refine Grows.pair2 (by assumption) ?_
    | with_reducible refine Grows.pair1 (by assumption) ?_
    | with_reducible refine Grows.ofOpt (by assumption) ?_ | intro _ | split | dsimp only

theorem newLength_grows {z0 : State} {s : State} {oldLen : Int} (hg : Grows z0 s) :
    Grows z0 (newLength s oldLen).2 := by
  unfold newLength
  repeat' first
    | with_reducible exact hg | with_reducible assumption | with_reducible apply setb_grows
    | with_reducible apply onBal_grows | with_reducible apply loopUpdate_grows
    | fail_if_no_progress (with_reducible refine mk_grows ?_ rfl)
    | with_reducible refine Grows.pair2 (by assumption) ?_
    | with_reducible refine Grows.pair1 (by assumption) ?_
    | with_reducible refine Grows.ofOpt (by assumption) ?_ | intro _ | split | dsimp only

theorem cycleStart_grows {z0 : State} {s : State} (hg : Grows z0 s) :
    Grows z0 (cycleStart s) := by
  unfold cycleStart
  repeat' first
    | with_reducible exact hg | with_reducible assumption | with_reducible apply keepMapping_grows
    | with_reducible apply set_grows | with_reducible apply onBal_grows | with_reducible apply raise_grows
    | with_reducible apply ttPassed_grows | with_reducible apply newLength_grows
    | fail_if_no_progress (with_reducible refine mk_grows ?_ rfl)
    | with_reducible refine Grows.pair2 (by assumption) ?_
    | with_reducible refine Grows.pair1 (by assumption) ?_
    | with_reducible refine Grows.ofOpt (by assumption) ?_ | intro _ | split | dsimp only

theorem phaseStep_grows {z0 : State} {s : State} (hg : Grows z0 s) :
    Grows z0 (phaseStep s) := by
  unfold phaseStep
  repeat' first
    | with_reducible exact hg | with_reducible assumption | with_reducible apply keepMapping_grows
    | with_reducible apply onBal_grows | with_reducible apply raise_grows | with_reducible apply ttPassed_grows
    | fail_if_no_progress (with_reducible refine mk_grows ?_ rfl)
    | with_reducible refine Grows.pair2 (by assumption) ?_
    | with_reducible refine Grows.pair1 (by assumption) ?_
    | with_reducible refine Grows.ofOpt (by assumption) ?_ | intro _ | split | dsimp only

theorem stallStart_grows {z0 : State} {s : State} (hg : Grows z0 s) :
    Grows z0 (stallStart s) := by
  unfold stallStart
  repeat' first
    | with_reducible exact hg | with_reducible assumption | with_reducible apply keepMapping_grows
    | with_reducible apply onBal_grows | with_reducible apply raise_grows
    | fail_if_no_progress (with_reducible refine mk_grows ?_ rfl)
    | with_reducible refine Grows.pair2 (by assumption) ?_
    | with_reducible refine Grows.pair1 (by assumption) ?_
    | with_reducible refine Grows.ofOpt (by assumption) ?_ | intro _ | split | dsimp only

theorem stallEnd_grows {z0 : State} {s : State} (hg : Grows z0 s) :
    Grows z0 (stallEnd s) := by
  unfold stallEnd
  repeat' first
    | with_reducible exact hg | with_reducible assumption | with_reducible apply keepMapping_grows
    | with_reducible apply onBal_grows | fail_if_no_progress (with_reducible refine mk_grows ?_ rfl)
    | with_reducible refine Grows.pair2 (by assumption) ?_
    | with_reducible refine Grows.pair1 (by assumption) ?_
    | with_reducible refine Grows.ofOpt (by assumption) ?_ | intro _ | split | dsimp only

theorem balEnable_grows {z0 : State} {s : State} (hg : Grows z0 s) :
    Grows z0 (balEnable s) := by
  unfold balEnable
  repeat' first
    | with_reducible exact hg | with_reducible assumption | with_reducible apply set_grows
    | with_reducible apply takeEffect_grows | with_reducible apply onBal_grows
    | with_reducible apply claimAll_grows | with_reducible apply setPeriod_grows
    | fail_if_no_progress (with_reducible refine mk_grows ?_ rfl)
    | with_reducible refine Grows.pair2 (by assumption) ?_
    | with_reducible refine Grows.pair1 (by assumption) ?_
    | with_reducible refine Grows.ofOpt (by assumption) ?_ | intro _ | split | dsimp only

theorem ttForget_grows {z0 : State} {s : State} {n : Nat} (hg : Grows z0 s) :
    Grows z0 (ttForget s n) := by
  unfold ttForget
  repeat' first
    | with_reducible exact hg | with_reducible assumption | with_reducible apply setTt_grows
    | with_reducible apply ttDisarm_grows | fail_if_no_progress (with_reducible refine mk_grows ?_ rfl)
    | with_reducible refine Grows.pair2 (by assumption) ?_
    | with_reducible refine Grows.pair1 (by assumption) ?_
    | with_reducible refine Grows.ofOpt (by assumption) ?_ | intro _ | split | dsimp only

theorem balDisable_grows {z0 : State} {s : State} (hg : Grows z0 s) :
    Grows z0 (balDisable s) := by
  unfold balDisable
  repeat' first
    | with_reducible exact hg | with_reducible assumption | with_reducible apply set_grows
    | with_reducible apply onBal_grows | with_reducible apply releaseAll_grows
    | with_reducible apply ttForget_grows | fail_if_no_progress (with_reducible refine mk_grows ?_ rfl)
    | with_reducible refine Grows.pair2 (by assumption) ?_
    | with_reducible refine Grows.pair1 (by assumption) ?_
    | with_reducible refine Grows.ofOpt (by assumption) ?_
    | with_reducible refine Grows.fold ?_ (fun _ _ _ => ?_)
    | with_reducible refine Grows.fold2 ?_ (fun _ _ _ => ?_)
    | with_reducible refine Grows.fold1 ?_ (fun _ _ _ => ?_) | intro _ | split | dsimp only

theorem cycForce_grows {z0 : State} {s : State} (hg : Grows z0 s) :
    Grows z0 (cycForce s) := by
  unfold cycForce
  repeat' first
    | with_reducible exact hg | with_reducible assumption | with_reducible apply onBal_grows
    | fail_if_no_progress (with_reducible refine mk_grows ?_ rfl)
    | with_reducible refine Grows.pair2 (by assumption) ?_
    | with_reducible refine Grows.pair1 (by assumption) ?_
    | with_reducible refine Grows.ofOpt (by assumption) ?_ | intro _ | split | dsimp only

theorem snap_grows {z0 : State} {s : State} (hg : Grows z0 s) :
    Grows z0 (snap s) := by
  unfold snap
  repeat' first
    | with_reducible exact hg | with_reducible assumption | with_reducible apply set_grows
    | fail_if_no_progress (with_reducible refine mk_grows ?_ rfl)
    | with_reducible refine Grows.pair2 (by assumption) ?_
    | with_reducible refine Grows.pair1 (by assumption) ?_
    | with_reducible refine Grows.ofOpt (by assumption) ?_ | intro _ | split | dsimp only

theorem epochFix_grows {z0 : State} {s : State} (hg : Grows z0 s) :
    Grows z0 (epochFix s) := by
  unfold epochFix
  repeat' first
    | with_reducible exact hg | with_reducible assumption | with_reducible apply onBal_grows
    | fail_if_no_progress (with_reducible refine mk_grows ?_ rfl)
    | with_reducible refine Grows.pair2 (by assumption) ?_
    | with_reducible refine Grows.pair1 (by assumption) ?_
    | with_reducible refine Grows.ofOpt (by assumption) ?_ | intro _ | split | dsimp only

theorem balEpoch_grows {z0 : State} {s : State} {k : Nat} (hg : Grows z0 s) :
    Grows z0 (balEpoch s k) := by
  unfold balEpoch
  repeat' first
    | with_reducible exact hg | with_reducible assumption | with_reducible apply set_grows
    | with_reducible apply takeEffect_grows | with_reducible apply onBal_grows
    | with_reducible apply raise_grows | fail_if_no_progress (with_reducible refine mk_grows ?_ rfl)
    | with_reducible refine Grows.pair2 (by assumption) ?_
    | with_reducible refine Grows.pair1 (by assumption) ?_
    | with_reducible refine Grows.ofOpt (by assumption) ?_ | intro _ | split | dsimp only

theorem tciEnable_grows {z0 : State} {s : State} {n : Nat} (hg : Grows z0 s) :
    Grows z0 (tciEnable s n) := by
  unfold tciEnable
  repeat' first
    | with_reducible exact hg | with_reducible assumption | with_reducible apply set_grows
    | with_reducible apply claimAll_grows | fail_if_no_progress (with_reducible refine mk_grows ?_ rfl)
    | with_reducible refine Grows.pair2 (by assumption) ?_
    | with_reducible refine Grows.pair1 (by assumption) ?_
    | with_reducible refine Grows.ofOpt (by assumption) ?_ | intro _ | split | dsimp only

theorem tciDisable_grows {z0 : State} {s : State} {n : Nat} (hg : Grows z0 s) :
    Grows z0 (tciDisable s n) := by
  unfold tciDisable
  repeat' first
    | with_reducible exact hg | with_reducible assumption | with_reducible apply set_grows
    | with_reducible apply releaseAll_grows | fail_if_no_progress (with_reducible refine mk_grows ?_ rfl)
    | with_reducible refine Grows.pair2 (by assumption) ?_
    | with_reducible refine Grows.pair1 (by assumption) ?_
    | with_reducible refine Grows.ofOpt (by assumption) ?_ | intro _ | split | dsimp only

theorem tciCapture_grows {z0 : State} {s : State} {n : Nat} {rising : Bool} {widthNs : Nat} (hg : Grows z0 s) :
    Grows z0 (tciCapture s n rising widthNs) := by
  unfold tciCapture
  repeat' first
    | with_reducible exact hg | with_reducible assumption | with_reducible apply set_grows
    | with_reducible apply onBal_grows | with_reducible apply raise_grows
    | fail_if_no_progress (with_reducible refine mk_grows ?_ rfl)
    | with_reducible refine Grows.pair2 (by assumption) ?_
    | with_reducible refine Grows.pair1 (by assumption) ?_
    | with_reducible refine Grows.ofOpt (by assumption) ?_ | intro _ | split | dsimp only

theorem tciPop_grows {z0 : State} {s : State} {n : Nat} (hg : Grows z0 s) :
    Grows z0 (tciPop s n) := by
  unfold tciPop
  repeat' first
    | with_reducible exact hg | with_reducible assumption | with_reducible apply onBal_grows
    | fail_if_no_progress (with_reducible refine mk_grows ?_ rfl)
    | with_reducible refine Grows.pair2 (by assumption) ?_
    | with_reducible refine Grows.pair1 (by assumption) ?_
    | with_reducible refine Grows.ofOpt (by assumption) ?_ | intro _ | split | dsimp only

theorem cmpEnable_grows {z0 : State} {s : State} {k : Nat} (hg : Grows z0 s) :
    Grows z0 (cmpEnable s k) := by
  unfold cmpEnable
  repeat' first
    | with_reducible exact hg | with_reducible assumption | with_reducible apply set_grows
    | with_reducible apply claimRefused_grows | fail_if_no_progress (with_reducible refine mk_grows ?_ rfl)
    | with_reducible refine Grows.pair2 (by assumption) ?_
    | with_reducible refine Grows.pair1 (by assumption) ?_
    | with_reducible refine Grows.ofOpt (by assumption) ?_ | intro _ | split | dsimp only

theorem cmpDisable_grows {z0 : State} {s : State} {k : Nat} (hg : Grows z0 s) :
    Grows z0 (cmpDisable s k) := by
  unfold cmpDisable
  repeat' first
    | with_reducible exact hg | with_reducible assumption | with_reducible apply set_grows
    | fail_if_no_progress (with_reducible refine mk_grows ?_ rfl)
    | with_reducible refine Grows.pair2 (by assumption) ?_
    | with_reducible refine Grows.pair1 (by assumption) ?_
    | with_reducible refine Grows.ofOpt (by assumption) ?_ | intro _ | split | dsimp only

theorem cmpCarry_grows {z0 : State} {s : State} {k : Nat} (hg : Grows z0 s) :
    Grows z0 (cmpCarry s k) := by
  unfold cmpCarry
  repeat' first
    | with_reducible exact hg | with_reducible assumption | with_reducible apply set_grows
    | with_reducible apply drawFree_grows | fail_if_no_progress (with_reducible refine mk_grows ?_ rfl)
    | with_reducible refine Grows.pair2 (by assumption) ?_
    | with_reducible refine Grows.pair1 (by assumption) ?_
    | with_reducible refine Grows.ofOpt (by assumption) ?_ | intro _ | split | dsimp only

theorem cmpFires_grows {z0 : State} {s : State} {k : Nat} (hg : Grows z0 s) :
    Grows z0 (cmpFires s k) := by
  unfold cmpFires
  repeat' first
    | with_reducible exact hg | with_reducible assumption | with_reducible apply set_grows
    | with_reducible apply onBal_grows | with_reducible apply raise_grows
    | fail_if_no_progress (with_reducible refine mk_grows ?_ rfl)
    | with_reducible refine Grows.pair2 (by assumption) ?_
    | with_reducible refine Grows.pair1 (by assumption) ?_
    | with_reducible refine Grows.ofOpt (by assumption) ?_ | intro _ | split | dsimp only

theorem cmpCommit_grows {z0 : State} {s : State} {k hi : Nat} (hg : Grows z0 s) :
    Grows z0 (cmpCommit s k hi) := by
  unfold cmpCommit
  repeat' first
    | with_reducible exact hg | with_reducible assumption | with_reducible apply set_grows
    | with_reducible apply onBal_grows | with_reducible apply cmpFires_grows
    | fail_if_no_progress (with_reducible refine mk_grows ?_ rfl)
    | with_reducible refine Grows.pair2 (by assumption) ?_
    | with_reducible refine Grows.pair1 (by assumption) ?_
    | with_reducible refine Grows.ofOpt (by assumption) ?_ | intro _ | split | dsimp only

theorem cmpFire_grows {z0 : State} {s : State} {k : Nat} (hg : Grows z0 s) :
    Grows z0 (cmpFire s k) := by
  unfold cmpFire
  repeat' first
    | with_reducible exact hg | with_reducible assumption | with_reducible apply cmpFires_grows
    | fail_if_no_progress (with_reducible refine mk_grows ?_ rfl)
    | with_reducible refine Grows.pair2 (by assumption) ?_
    | with_reducible refine Grows.pair1 (by assumption) ?_
    | with_reducible refine Grows.ofOpt (by assumption) ?_ | intro _ | split | dsimp only

theorem ptpRebase_grows {z0 : State} {s : State} {sec ns : Nat} (hg : Grows z0 s) :
    Grows z0 (ptpRebase s sec ns) := by
  unfold ptpRebase
  repeat' first
    | with_reducible exact hg | with_reducible assumption | with_reducible apply onBal_grows
    | fail_if_no_progress (with_reducible refine mk_grows ?_ rfl)
    | with_reducible refine Grows.pair2 (by assumption) ?_
    | with_reducible refine Grows.pair1 (by assumption) ?_
    | with_reducible refine Grows.ofOpt (by assumption) ?_ | intro _ | split | dsimp only

theorem ptpSet_grows {z0 : State} {s : State} {ns : Nat} (hg : Grows z0 s) :
    Grows z0 (ptpSet s ns) := by
  unfold ptpSet
  repeat' first
    | with_reducible exact hg | with_reducible assumption | with_reducible apply raise_grows
    | with_reducible apply ptpRebase_grows | fail_if_no_progress (with_reducible refine mk_grows ?_ rfl)
    | with_reducible refine Grows.pair2 (by assumption) ?_
    | with_reducible refine Grows.pair1 (by assumption) ?_
    | with_reducible refine Grows.ofOpt (by assumption) ?_ | intro _ | split | dsimp only

theorem ptpAdj_grows {z0 : State} {s : State} {adj : Int} (hg : Grows z0 s) :
    Grows z0 (ptpAdj s adj) := by
  unfold ptpAdj
  repeat' first
    | with_reducible exact hg | with_reducible assumption | with_reducible apply raise_grows
    | with_reducible apply ptpRebase_grows | fail_if_no_progress (with_reducible refine mk_grows ?_ rfl)
    | with_reducible refine Grows.pair2 (by assumption) ?_
    | with_reducible refine Grows.pair1 (by assumption) ?_
    | with_reducible refine Grows.ofOpt (by assumption) ?_ | intro _ | split | dsimp only

theorem ptpRate_grows {z0 : State} {s : State} {rate : Nat} (hg : Grows z0 s) :
    Grows z0 (ptpRate s rate) := by
  unfold ptpRate
  repeat' first
    | with_reducible exact hg | with_reducible assumption | with_reducible apply set_grows
    | with_reducible apply ptpRebase_grows | fail_if_no_progress (with_reducible refine mk_grows ?_ rfl)
    | with_reducible refine Grows.pair2 (by assumption) ?_
    | with_reducible refine Grows.pair1 (by assumption) ?_
    | with_reducible refine Grows.ofOpt (by assumption) ?_ | intro _ | split | dsimp only

theorem ppsOutEnable_grows {z0 : State} {s : State} (hg : Grows z0 s) :
    Grows z0 (ppsOutEnable s) := by
  unfold ppsOutEnable
  repeat' first
    | with_reducible exact hg | with_reducible assumption | with_reducible apply set_grows
    | with_reducible apply drive_grows | with_reducible apply onBal_grows | with_reducible apply claimAll_grows
    | fail_if_no_progress (with_reducible refine mk_grows ?_ rfl)
    | with_reducible refine Grows.pair2 (by assumption) ?_
    | with_reducible refine Grows.pair1 (by assumption) ?_
    | with_reducible refine Grows.ofOpt (by assumption) ?_ | intro _ | split | dsimp only

theorem ppsOutDisable_grows {z0 : State} {s : State} (hg : Grows z0 s) :
    Grows z0 (ppsOutDisable s) := by
  unfold ppsOutDisable
  repeat' first
    | with_reducible exact hg | with_reducible assumption | with_reducible apply set_grows
    | with_reducible apply undrive_grows | with_reducible apply onBal_grows
    | with_reducible apply releaseAll_grows | fail_if_no_progress (with_reducible refine mk_grows ?_ rfl)
    | with_reducible refine Grows.pair2 (by assumption) ?_
    | with_reducible refine Grows.pair1 (by assumption) ?_
    | with_reducible refine Grows.ofOpt (by assumption) ?_ | intro _ | split | dsimp only

theorem ppsPulse_grows {z0 : State} {s : State} (hg : Grows z0 s) :
    Grows z0 (ppsPulse s) := by
  unfold ppsPulse
  repeat' first
    | with_reducible exact hg | with_reducible assumption | with_reducible apply drive_grows
    | with_reducible apply onBal_grows | fail_if_no_progress (with_reducible refine mk_grows ?_ rfl)
    | with_reducible refine Grows.pair2 (by assumption) ?_
    | with_reducible refine Grows.pair1 (by assumption) ?_
    | with_reducible refine Grows.ofOpt (by assumption) ?_ | intro _ | split | dsimp only

theorem ppsPulseEnd_grows {z0 : State} {s : State} (hg : Grows z0 s) :
    Grows z0 (ppsPulseEnd s) := by
  unfold ppsPulseEnd
  repeat' first
    | with_reducible exact hg | with_reducible assumption | with_reducible apply drive_grows
    | with_reducible apply onBal_grows | fail_if_no_progress (with_reducible refine mk_grows ?_ rfl)
    | with_reducible refine Grows.pair2 (by assumption) ?_
    | with_reducible refine Grows.pair1 (by assumption) ?_
    | with_reducible refine Grows.ofOpt (by assumption) ?_ | intro _ | split | dsimp only

theorem ppsInEdge_grows {z0 : State} {s : State} (hg : Grows z0 s) :
    Grows z0 (ppsInEdge s) := by
  unfold ppsInEdge
  repeat' first
    | with_reducible exact hg | with_reducible assumption | with_reducible apply set_grows
    | with_reducible apply onBal_grows | fail_if_no_progress (with_reducible refine mk_grows ?_ rfl)
    | with_reducible refine Grows.pair2 (by assumption) ?_
    | with_reducible refine Grows.pair1 (by assumption) ?_
    | with_reducible refine Grows.ofOpt (by assumption) ?_ | intro _ | split | dsimp only

theorem ppsInMissing_grows {z0 : State} {s : State} (hg : Grows z0 s) :
    Grows z0 (ppsInMissing s) := by
  unfold ppsInMissing
  repeat' first
    | with_reducible exact hg | with_reducible assumption | with_reducible apply onBal_grows
    | with_reducible apply raise_grows | fail_if_no_progress (with_reducible refine mk_grows ?_ rfl)
    | with_reducible refine Grows.pair2 (by assumption) ?_
    | with_reducible refine Grows.pair1 (by assumption) ?_
    | with_reducible refine Grows.ofOpt (by assumption) ?_ | intro _ | split | dsimp only

theorem tsfPush_grows {z0 : State} {s : State} {i : Nat} {r : TsReport} (hg : Grows z0 s) :
    Grows z0 (tsfPush s i r).2 := by
  unfold tsfPush
  repeat' first
    | with_reducible exact hg | with_reducible assumption | with_reducible apply onBal_grows
    | with_reducible apply bump_grows | with_reducible apply raise_grows
    | fail_if_no_progress (with_reducible refine mk_grows ?_ rfl)
    | with_reducible refine Grows.pair2 (by assumption) ?_
    | with_reducible refine Grows.pair1 (by assumption) ?_
    | with_reducible refine Grows.ofOpt (by assumption) ?_ | intro _ | split | dsimp only

theorem tsfTake_grows {z0 : State} {s : State} {i ref : Nat} (hg : Grows z0 s) :
    Grows z0 (tsfTake s i ref).2 := by
  unfold tsfTake
  repeat' first
    | with_reducible exact hg | with_reducible assumption | with_reducible apply onBal_grows
    | fail_if_no_progress (with_reducible refine mk_grows ?_ rfl)
    | with_reducible refine Grows.pair2 (by assumption) ?_
    | with_reducible refine Grows.pair1 (by assumption) ?_
    | with_reducible refine Grows.ofOpt (by assumption) ?_ | intro _ | split | dsimp only

/-! ### PhyOps -/

theorem profileLoad_grows {z0 : State} {s : State} {k : Nat} (hg : Grows z0 s) :
    Grows z0 (profileLoad s k) := by
  unfold profileLoad
  repeat' first
    | with_reducible exact hg | with_reducible assumption | with_reducible apply set_grows
    | fail_if_no_progress (with_reducible refine mk_grows ?_ rfl)
    | with_reducible refine Grows.pair2 (by assumption) ?_
    | with_reducible refine Grows.pair1 (by assumption) ?_
    | with_reducible refine Grows.ofOpt (by assumption) ?_ | intro _ | split | dsimp only

theorem profileUnload_grows {z0 : State} {s : State} {k : Nat} (hg : Grows z0 s) :
    Grows z0 (profileUnload s k) := by
  unfold profileUnload
  repeat' first
    | with_reducible exact hg | with_reducible assumption | with_reducible apply set_grows
    | fail_if_no_progress (with_reducible refine mk_grows ?_ rfl)
    | with_reducible refine Grows.pair2 (by assumption) ?_
    | with_reducible refine Grows.pair1 (by assumption) ?_
    | with_reducible refine Grows.ofOpt (by assumption) ?_ | intro _ | split | dsimp only

theorem airtimeQuery_grows {z0 : State} {s : State} {k n : Nat} (hg : Grows z0 s) :
    Grows z0 (airtimeQuery s k n) := by
  unfold airtimeQuery
  repeat' first
    | with_reducible exact hg | with_reducible assumption | with_reducible apply set_grows
    | fail_if_no_progress (with_reducible refine mk_grows ?_ rfl)
    | with_reducible refine Grows.pair2 (by assumption) ?_
    | with_reducible refine Grows.pair1 (by assumption) ?_
    | with_reducible refine Grows.ofOpt (by assumption) ?_ | intro _ | split | dsimp only

/-! ### LaneOps -/

theorem setLaneState_grows {z0 : State} {s : State} {n st : Nat} (hg : Grows z0 s) :
    Grows z0 (setLaneState s n st) := by
  unfold setLaneState
  repeat' first
    | with_reducible exact hg | with_reducible assumption | with_reducible apply set_grows
    | fail_if_no_progress (with_reducible refine mk_grows ?_ rfl)
    | with_reducible refine Grows.pair2 (by assumption) ?_
    | with_reducible refine Grows.pair1 (by assumption) ?_
    | with_reducible refine Grows.ofOpt (by assumption) ?_ | intro _ | split | dsimp only

theorem occRoll_grows {z0 : State} {s : State} {n : Nat} (hg : Grows z0 s) :
    Grows z0 (occRoll s n) := by
  unfold occRoll
  repeat' first
    | with_reducible exact hg | with_reducible assumption | with_reducible apply setLane_grows
    | fail_if_no_progress (with_reducible refine mk_grows ?_ rfl)
    | with_reducible refine Grows.pair2 (by assumption) ?_
    | with_reducible refine Grows.pair1 (by assumption) ?_
    | with_reducible refine Grows.ofOpt (by assumption) ?_ | intro _ | split | dsimp only

theorem occBreak_grows {z0 : State} {s : State} {n : Nat} (hg : Grows z0 s) :
    Grows z0 (occBreak s n) := by
  unfold occBreak
  repeat' first
    | with_reducible exact hg | with_reducible assumption | with_reducible apply onLane_grows
    | with_reducible apply occRoll_grows | fail_if_no_progress (with_reducible refine mk_grows ?_ rfl)
    | with_reducible refine Grows.pair2 (by assumption) ?_
    | with_reducible refine Grows.pair1 (by assumption) ?_
    | with_reducible refine Grows.ofOpt (by assumption) ?_ | intro _ | split | dsimp only

theorem rxAtStart_grows {z0 : State} {s : State} {k : Nat} {x : RxOpen} (hg : Grows z0 s) :
    Grows z0 (rxAtStart s k x) := by
  unfold rxAtStart
  repeat' first
    | with_reducible exact hg | with_reducible assumption | with_reducible apply bump_grows
    | fail_if_no_progress (with_reducible refine mk_grows ?_ rfl)
    | with_reducible refine Grows.pair2 (by assumption) ?_
    | with_reducible refine Grows.pair1 (by assumption) ?_
    | with_reducible refine Grows.ofOpt (by assumption) ?_ | intro _ | split | dsimp only

theorem txReached_grows {z0 : State} {s : State} (hg : Grows z0 s) :
    Grows z0 (txReached s) := by
  unfold txReached
  repeat' first
    | with_reducible exact hg | with_reducible assumption
    | fail_if_no_progress (with_reducible refine mk_grows ?_ rfl)
    | with_reducible refine Grows.pair2 (by assumption) ?_
    | with_reducible refine Grows.pair1 (by assumption) ?_
    | with_reducible refine Grows.ofOpt (by assumption) ?_ | intro _ | split | dsimp only

theorem rxReached_grows {z0 : State} {s : State} (hg : Grows z0 s) :
    Grows z0 (rxReached s) := by
  unfold rxReached
  repeat' first
    | with_reducible exact hg | with_reducible assumption | with_reducible apply rxAtStart_grows
    | with_reducible apply txReached_grows | fail_if_no_progress (with_reducible refine mk_grows ?_ rfl)
    | with_reducible refine Grows.pair2 (by assumption) ?_
    | with_reducible refine Grows.pair1 (by assumption) ?_
    | with_reducible refine Grows.ofOpt (by assumption) ?_
    | with_reducible refine Grows.fold ?_ (fun _ _ _ => ?_)
    | with_reducible refine Grows.fold2 ?_ (fun _ _ _ => ?_)
    | with_reducible refine Grows.fold1 ?_ (fun _ _ _ => ?_) | intro _ | split | dsimp only

theorem nbReached_grows {z0 : State} {s : State} (hg : Grows z0 s) :
    Grows z0 (nbReached s) := by
  unfold nbReached
  repeat' first
    | with_reducible exact hg | with_reducible assumption | with_reducible apply rxReached_grows
    | fail_if_no_progress (with_reducible refine mk_grows ?_ rfl)
    | with_reducible refine Grows.pair2 (by assumption) ?_
    | with_reducible refine Grows.pair1 (by assumption) ?_
    | with_reducible refine Grows.ofOpt (by assumption) ?_ | intro _ | split | dsimp only

theorem laneToSwitch_grows {z0 : State} {s : State} {n : Nat} (hg : Grows z0 s) :
    Grows z0 (laneToSwitch s n) := by
  unfold laneToSwitch
  repeat' first
    | with_reducible exact hg | with_reducible assumption | with_reducible apply onLane_grows
    | with_reducible apply setLaneState_grows | with_reducible apply occBreak_grows
    | fail_if_no_progress (with_reducible refine mk_grows ?_ rfl)
    | with_reducible refine Grows.pair2 (by assumption) ?_
    | with_reducible refine Grows.pair1 (by assumption) ?_
    | with_reducible refine Grows.ofOpt (by assumption) ?_ | intro _ | split | dsimp only

theorem startSelftest_grows {z0 : State} {s : State} {n kind : Nat} (hg : Grows z0 s) :
    Grows z0 (startSelftest s n kind) := by
  unfold startSelftest
  repeat' first
    | with_reducible exact hg | with_reducible assumption | with_reducible apply onLane_grows
    | fail_if_no_progress (with_reducible refine mk_grows ?_ rfl)
    | with_reducible refine Grows.pair2 (by assumption) ?_
    | with_reducible refine Grows.pair1 (by assumption) ?_
    | with_reducible refine Grows.ofOpt (by assumption) ?_ | intro _ | split | dsimp only

theorem laneStop_grows {z0 : State} {s : State} {n : Nat} (hg : Grows z0 s) :
    Grows z0 (laneStop s n) := by
  unfold laneStop
  repeat' first
    | with_reducible exact hg | with_reducible assumption | with_reducible apply set_grows
    | with_reducible apply onLane_grows | with_reducible apply raise_grows
    | with_reducible apply setLaneState_grows | with_reducible apply occBreak_grows
    | with_reducible apply nbReached_grows | fail_if_no_progress (with_reducible refine mk_grows ?_ rfl)
    | with_reducible refine Grows.pair2 (by assumption) ?_
    | with_reducible refine Grows.pair1 (by assumption) ?_
    | with_reducible refine Grows.ofOpt (by assumption) ?_ | intro _ | split | dsimp only

theorem laneSearch_grows {z0 : State} {s : State} {n : Nat} (hg : Grows z0 s) :
    Grows z0 (laneSearch s n) := by
  unfold laneSearch
  repeat' first
    | with_reducible exact hg | with_reducible assumption | with_reducible apply set_grows
    | with_reducible apply onLane_grows | with_reducible apply setLaneState_grows
    | with_reducible apply occRoll_grows | with_reducible apply occBreak_grows
    | with_reducible apply startSelftest_grows | fail_if_no_progress (with_reducible refine mk_grows ?_ rfl)
    | with_reducible refine Grows.pair2 (by assumption) ?_
    | with_reducible refine Grows.pair1 (by assumption) ?_
    | with_reducible refine Grows.ofOpt (by assumption) ?_ | intro _ | split | dsimp only

theorem laneToSearch_grows {z0 : State} {s : State} {n : Nat} (hg : Grows z0 s) :
    Grows z0 (laneToSearch s n) := by
  unfold laneToSearch
  repeat' first
    | with_reducible exact hg | with_reducible assumption | with_reducible apply set_grows
    | with_reducible apply onLane_grows | with_reducible apply nbReached_grows
    | with_reducible apply laneToSwitch_grows | with_reducible apply laneStop_grows
    | with_reducible apply laneSearch_grows | fail_if_no_progress (with_reducible refine mk_grows ?_ rfl)
    | with_reducible refine Grows.pair2 (by assumption) ?_
    | with_reducible refine Grows.pair1 (by assumption) ?_
    | with_reducible refine Grows.ofOpt (by assumption) ?_ | intro _ | split | dsimp only

theorem laneRetire_grows {z0 : State} {s : State} {n : Nat} (hg : Grows z0 s) :
    Grows z0 (laneRetire s n) := by
  unfold laneRetire
  repeat' first
    | with_reducible exact hg | with_reducible assumption | with_reducible apply set_grows
    | with_reducible apply onLane_grows | with_reducible apply raise_grows
    | with_reducible apply setLaneState_grows | with_reducible apply occBreak_grows
    | with_reducible apply nbReached_grows | fail_if_no_progress (with_reducible refine mk_grows ?_ rfl)
    | with_reducible refine Grows.pair2 (by assumption) ?_
    | with_reducible refine Grows.pair1 (by assumption) ?_
    | with_reducible refine Grows.ofOpt (by assumption) ?_ | intro _ | split | dsimp only

theorem bandDrop_grows {z0 : State} {s : State} {b : Nat} (hg : Grows z0 s) :
    Grows z0 (bandDrop s b) := by
  unfold bandDrop
  repeat' first
    | with_reducible exact hg | with_reducible assumption | with_reducible apply laneToSearch_grows
    | fail_if_no_progress (with_reducible refine mk_grows ?_ rfl)
    | with_reducible refine Grows.pair2 (by assumption) ?_
    | with_reducible refine Grows.pair1 (by assumption) ?_
    | with_reducible refine Grows.ofOpt (by assumption) ?_
    | with_reducible refine Grows.fold ?_ (fun _ _ _ => ?_)
    | with_reducible refine Grows.fold2 ?_ (fun _ _ _ => ?_)
    | with_reducible refine Grows.fold1 ?_ (fun _ _ _ => ?_) | intro _ | split | dsimp only

theorem laneMarker_grows {z0 : State} {s : State} {b : Nat} {change : Int} (hg : Grows z0 s) :
    Grows z0 (laneMarker s b change) := by
  unfold laneMarker
  repeat' first
    | with_reducible exact hg | with_reducible assumption | with_reducible apply set_grows
    | with_reducible apply emit_grows | with_reducible apply setRx_grows | with_reducible apply bump_grows
    | fail_if_no_progress (with_reducible refine mk_grows ?_ rfl)
    | with_reducible refine Grows.pair2 (by assumption) ?_
    | with_reducible refine Grows.pair1 (by assumption) ?_
    | with_reducible refine Grows.ofOpt (by assumption) ?_
    | with_reducible refine Grows.fold ?_ (fun _ _ _ => ?_)
    | with_reducible refine Grows.fold2 ?_ (fun _ _ _ => ?_)
    | with_reducible refine Grows.fold1 ?_ (fun _ _ _ => ?_) | intro _ | split | dsimp only

theorem laneCommit_grows {z0 : State} {s : State} {n freq : Nat} (hg : Grows z0 s) :
    Grows z0 (laneCommit s n freq) := by
  unfold laneCommit
  repeat' first
    | with_reducible exact hg | with_reducible assumption | with_reducible apply set_grows
    | with_reducible apply onLane_grows | with_reducible apply bump_grows | with_reducible apply nbReached_grows
    | with_reducible apply laneToSwitch_grows | with_reducible apply laneStop_grows
    | fail_if_no_progress (with_reducible refine mk_grows ?_ rfl)
    | with_reducible refine Grows.pair2 (by assumption) ?_
    | with_reducible refine Grows.pair1 (by assumption) ?_
    | with_reducible refine Grows.ofOpt (by assumption) ?_ | intro _ | split | dsimp only

theorem laneEnable_grows {z0 : State} {s : State} {n : Nat} (hg : Grows z0 s) :
    Grows z0 (laneEnable s n) := by
  unfold laneEnable
  repeat' first
    | with_reducible exact hg | with_reducible assumption | with_reducible apply set_grows
    | with_reducible apply takeEffect_grows | with_reducible apply onLane_grows
    | with_reducible apply nbReached_grows | with_reducible apply startSelftest_grows
    | fail_if_no_progress (with_reducible refine mk_grows ?_ rfl)
    | with_reducible refine Grows.pair2 (by assumption) ?_
    | with_reducible refine Grows.pair1 (by assumption) ?_
    | with_reducible refine Grows.ofOpt (by assumption) ?_ | intro _ | split | dsimp only

theorem laneDisable_grows {z0 : State} {s : State} {n : Nat} (hg : Grows z0 s) :
    Grows z0 (laneDisable s n) := by
  unfold laneDisable
  repeat' first
    | with_reducible exact hg | with_reducible assumption | with_reducible apply set_grows
    | with_reducible apply onLane_grows | with_reducible apply bump_grows
    | with_reducible apply setLaneState_grows | with_reducible apply occBreak_grows
    | with_reducible apply nbReached_grows | with_reducible apply laneStop_grows
    | fail_if_no_progress (with_reducible refine mk_grows ?_ rfl)
    | with_reducible refine Grows.pair2 (by assumption) ?_
    | with_reducible refine Grows.pair1 (by assumption) ?_
    | with_reducible refine Grows.ofOpt (by assumption) ?_ | intro _ | split | dsimp only

theorem selftest_grows {z0 : State} {s : State} {n : Nat} (hg : Grows z0 s) :
    Grows z0 (selftest s n) := by
  unfold selftest
  repeat' first
    | with_reducible exact hg | with_reducible assumption | with_reducible apply onLane_grows
    | with_reducible apply startSelftest_grows | fail_if_no_progress (with_reducible refine mk_grows ?_ rfl)
    | with_reducible refine Grows.pair2 (by assumption) ?_
    | with_reducible refine Grows.pair1 (by assumption) ?_
    | with_reducible refine Grows.ofOpt (by assumption) ?_ | intro _ | split | dsimp only

theorem periodicSelftest_grows {z0 : State} {s : State} {n : Nat} (hg : Grows z0 s) :
    Grows z0 (periodicSelftest s n) := by
  unfold periodicSelftest
  repeat' first
    | with_reducible exact hg | with_reducible assumption | with_reducible apply onLane_grows
    | with_reducible apply startSelftest_grows | fail_if_no_progress (with_reducible refine mk_grows ?_ rfl)
    | with_reducible refine Grows.pair2 (by assumption) ?_
    | with_reducible refine Grows.pair1 (by assumption) ?_
    | with_reducible refine Grows.ofOpt (by assumption) ?_ | intro _ | split | dsimp only

theorem selftestComplete_grows {z0 : State} {s : State} {n : Nat} {decoded : Bool} {rssiErr : Int} (hg : Grows z0 s) :
    Grows z0 (selftestComplete s n decoded rssiErr) := by
  unfold selftestComplete
  repeat' first
    | with_reducible exact hg | with_reducible assumption | with_reducible apply set_grows
    | with_reducible apply onLane_grows | with_reducible apply setLaneState_grows
    | with_reducible apply laneToSwitch_grows | with_reducible apply laneRetire_grows
    | fail_if_no_progress (with_reducible refine mk_grows ?_ rfl)
    | with_reducible refine Grows.pair2 (by assumption) ?_
    | with_reducible refine Grows.pair1 (by assumption) ?_
    | with_reducible refine Grows.ofOpt (by assumption) ?_ | intro _ | split | dsimp only

theorem unretire_grows {z0 : State} {s : State} {n : Nat} (hg : Grows z0 s) :
    Grows z0 (unretire s n) := by
  unfold unretire
  repeat' first
    | with_reducible exact hg | with_reducible assumption | with_reducible apply startSelftest_grows
    | fail_if_no_progress (with_reducible refine mk_grows ?_ rfl)
    | with_reducible refine Grows.pair2 (by assumption) ?_
    | with_reducible refine Grows.pair1 (by assumption) ?_
    | with_reducible refine Grows.ofOpt (by assumption) ?_ | intro _ | split | dsimp only

theorem switchDone_grows {z0 : State} {s : State} {n : Nat} (hg : Grows z0 s) :
    Grows z0 (switchDone s n) := by
  unfold switchDone
  repeat' first
    | with_reducible exact hg | with_reducible assumption | with_reducible apply laneToSearch_grows
    | fail_if_no_progress (with_reducible refine mk_grows ?_ rfl)
    | with_reducible refine Grows.pair2 (by assumption) ?_
    | with_reducible refine Grows.pair1 (by assumption) ?_
    | with_reducible refine Grows.ofOpt (by assumption) ?_ | intro _ | split | dsimp only

theorem laneLock_grows {z0 : State} {s : State} {n : Nat} {level : Int} {gain : Nat} {captured : Bool} (hg : Grows z0 s) :
    Grows z0 (laneLock s n level gain captured) := by
  unfold laneLock
  repeat' first
    | with_reducible exact hg | with_reducible assumption | with_reducible apply set_grows
    | with_reducible apply onLane_grows | with_reducible apply setLaneState_grows
    | with_reducible apply occBreak_grows | fail_if_no_progress (with_reducible refine mk_grows ?_ rfl)
    | with_reducible refine Grows.pair2 (by assumption) ?_
    | with_reducible refine Grows.pair1 (by assumption) ?_
    | with_reducible refine Grows.ofOpt (by assumption) ?_ | intro _ | split | dsimp only

theorem preambleDetected_grows {z0 : State} {s : State} {n : Nat} {level margin : Int} {gain : Nat} (hg : Grows z0 s) :
    Grows z0 (preambleDetected s n level margin gain) := by
  unfold preambleDetected
  repeat' first
    | with_reducible exact hg | with_reducible assumption | with_reducible apply bump_grows
    | with_reducible apply laneLock_grows | fail_if_no_progress (with_reducible refine mk_grows ?_ rfl)
    | with_reducible refine Grows.pair2 (by assumption) ?_
    | with_reducible refine Grows.pair1 (by assumption) ?_
    | with_reducible refine Grows.ofOpt (by assumption) ?_ | intro _ | split | dsimp only

theorem secondDetection_grows {z0 : State} {s : State} {n : Nat} {level margin : Int} {gain timingMilli freqHz : Nat} (hg : Grows z0 s) :
    Grows z0 (secondDetection s n level margin gain timingMilli freqHz) := by
  unfold secondDetection
  repeat' first
    | with_reducible exact hg | with_reducible assumption | with_reducible apply bump_grows
    | with_reducible apply laneLock_grows | fail_if_no_progress (with_reducible refine mk_grows ?_ rfl)
    | with_reducible refine Grows.pair2 (by assumption) ?_
    | with_reducible refine Grows.pair1 (by assumption) ?_
    | with_reducible refine Grows.ofOpt (by assumption) ?_ | intro _ | split | dsimp only

theorem sfdFound_grows {z0 : State} {s : State} {n sfd : Nat} {rssi : Int} {ltf : List (Cplx × Cplx)} (hg : Grows z0 s) :
    Grows z0 (sfdFound s n sfd rssi ltf) := by
  unfold sfdFound
  repeat' first
    | with_reducible exact hg | with_reducible assumption | with_reducible apply onLane_grows
    | with_reducible apply setLaneState_grows | with_reducible apply rxReached_grows
    | fail_if_no_progress (with_reducible refine mk_grows ?_ rfl)
    | with_reducible refine Grows.pair2 (by assumption) ?_
    | with_reducible refine Grows.pair1 (by assumption) ?_
    | with_reducible refine Grows.ofOpt (by assumption) ?_ | intro _ | split | dsimp only

theorem sfdTimeout_grows {z0 : State} {s : State} {n : Nat} (hg : Grows z0 s) :
    Grows z0 (sfdTimeout s n) := by
  unfold sfdTimeout
  repeat' first
    | with_reducible exact hg | with_reducible assumption | with_reducible apply bump_grows
    | with_reducible apply laneToSearch_grows | fail_if_no_progress (with_reducible refine mk_grows ?_ rfl)
    | with_reducible refine Grows.pair2 (by assumption) ?_
    | with_reducible refine Grows.pair1 (by assumption) ?_
    | with_reducible refine Grows.ofOpt (by assumption) ?_ | intro _ | split | dsimp only

theorem phrReceived_grows {z0 : State} {s : State} {n : Nat} {seen : HeaderSeen} (hg : Grows z0 s) :
    Grows z0 (phrReceived s n seen) := by
  unfold phrReceived
  repeat' first
    | with_reducible exact hg | with_reducible assumption | with_reducible apply onLane_grows
    | with_reducible apply bump_grows | with_reducible apply setLaneState_grows
    | with_reducible apply laneToSearch_grows | fail_if_no_progress (with_reducible refine mk_grows ?_ rfl)
    | with_reducible refine Grows.pair2 (by assumption) ?_
    | with_reducible refine Grows.pair1 (by assumption) ?_
    | with_reducible refine Grows.ofOpt (by assumption) ?_ | intro _ | split | dsimp only

theorem stormFailure_grows {z0 : State} {s : State} {n : Nat} (hg : Grows z0 s) :
    Grows z0 (stormFailure s n) := by
  unfold stormFailure
  repeat' first
    | with_reducible exact hg | with_reducible assumption | with_reducible apply set_grows
    | with_reducible apply setLane_grows | with_reducible apply raise_grows
    | fail_if_no_progress (with_reducible refine mk_grows ?_ rfl)
    | with_reducible refine Grows.pair2 (by assumption) ?_
    | with_reducible refine Grows.pair1 (by assumption) ?_
    | with_reducible refine Grows.ofOpt (by assumption) ?_ | intro _ | split | dsimp only

theorem laneFrameEnd_grows {z0 : State} {s : State} {n : Nat} {psdu : List Byte} {snr10 : Int} {seen : SamplesSeen} (hg : Grows z0 s) :
    Grows z0 (laneFrameEnd s n psdu snr10 seen) := by
  unfold laneFrameEnd
  repeat' first
    | with_reducible exact hg | with_reducible assumption | with_reducible apply set_grows
    | with_reducible apply sset_grows | with_reducible apply onLane_grows | with_reducible apply bump_grows
    | with_reducible apply laneToSearch_grows | with_reducible apply stormFailure_grows
    | fail_if_no_progress (with_reducible refine mk_grows ?_ rfl)
    | with_reducible refine Grows.pair2 (by assumption) ?_
    | with_reducible refine Grows.pair1 (by assumption) ?_
    | with_reducible refine Grows.ofOpt (by assumption) ?_ | intro _ | split | dsimp only

theorem laneParity_grows {z0 : State} {s : State} {n : Nat} (hg : Grows z0 s) :
    Grows z0 (laneParity s n) := by
  unfold laneParity
  repeat' first
    | with_reducible exact hg | with_reducible assumption | with_reducible apply set_grows
    | with_reducible apply raise_grows | with_reducible apply laneToSearch_grows
    | with_reducible apply laneRetire_grows | fail_if_no_progress (with_reducible refine mk_grows ?_ rfl)
    | with_reducible refine Grows.pair2 (by assumption) ?_
    | with_reducible refine Grows.pair1 (by assumption) ?_
    | with_reducible refine Grows.ofOpt (by assumption) ?_ | intro _ | split | dsimp only

theorem stormWindowEnd_grows {z0 : State} {s : State} {n : Nat} (hg : Grows z0 s) :
    Grows z0 (stormWindowEnd s n) := by
  unfold stormWindowEnd
  repeat' first
    | with_reducible exact hg | with_reducible assumption | with_reducible apply setLane_grows
    | fail_if_no_progress (with_reducible refine mk_grows ?_ rfl)
    | with_reducible refine Grows.pair2 (by assumption) ?_
    | with_reducible refine Grows.pair1 (by assumption) ?_
    | with_reducible refine Grows.ofOpt (by assumption) ?_ | intro _ | split | dsimp only

theorem edRefresh_grows {z0 : State} {s : State} {n : Nat} {ed : Int} (hg : Grows z0 s) :
    Grows z0 (edRefresh s n ed) := by
  unfold edRefresh
  repeat' first
    | with_reducible exact hg | with_reducible assumption | with_reducible apply set_grows
    | with_reducible apply sset_grows | with_reducible apply onLane_grows | with_reducible apply drawFree_grows
    | with_reducible apply occRoll_grows | fail_if_no_progress (with_reducible refine mk_grows ?_ rfl)
    | with_reducible refine Grows.pair2 (by assumption) ?_
    | with_reducible refine Grows.pair1 (by assumption) ?_
    | with_reducible refine Grows.ofOpt (by assumption) ?_ | intro _ | split | dsimp only

theorem laneChannelStop_grows {z0 : State} {s : State} {band freq widthHz : Nat} (hg : Grows z0 s) :
    Grows z0 (laneChannelStop s band freq widthHz) := by
  unfold laneChannelStop
  repeat' first
    | with_reducible exact hg | with_reducible assumption | with_reducible apply onLane_grows
    | with_reducible apply laneStop_grows | fail_if_no_progress (with_reducible refine mk_grows ?_ rfl)
    | with_reducible refine Grows.pair2 (by assumption) ?_
    | with_reducible refine Grows.pair1 (by assumption) ?_
    | with_reducible refine Grows.ofOpt (by assumption) ?_
    | with_reducible refine Grows.fold ?_ (fun _ _ _ => ?_)
    | with_reducible refine Grows.fold2 ?_ (fun _ _ _ => ?_)
    | with_reducible refine Grows.fold1 ?_ (fun _ _ _ => ?_) | intro _ | split | dsimp only

theorem laneEpoch_grows {z0 : State} {s : State} (hg : Grows z0 s) :
    Grows z0 (laneEpoch s) := by
  unfold laneEpoch
  repeat' first
    | with_reducible exact hg | with_reducible assumption | with_reducible apply set_grows
    | with_reducible apply takeEffect_grows | with_reducible apply setLane_grows
    | with_reducible apply onLane_grows | with_reducible apply raise_grows | with_reducible apply occRoll_grows
    | fail_if_no_progress (with_reducible refine mk_grows ?_ rfl)
    | with_reducible refine Grows.pair2 (by assumption) ?_
    | with_reducible refine Grows.pair1 (by assumption) ?_
    | with_reducible refine Grows.ofOpt (by assumption) ?_
    | with_reducible refine Grows.fold ?_ (fun _ _ _ => ?_)
    | with_reducible refine Grows.fold2 ?_ (fun _ _ _ => ?_)
    | with_reducible refine Grows.fold1 ?_ (fun _ _ _ => ?_) | intro _ | split | dsimp only

/-! ### RxOps -/

theorem gainTo_grows {z0 : State} {s : State} {b h : Nat} (hg : Grows z0 s) :
    Grows z0 (gainTo s b h) := by
  unfold gainTo
  repeat' first
    | with_reducible exact hg | with_reducible assumption | with_reducible apply set_grows
    | with_reducible apply laneMarker_grows | fail_if_no_progress (with_reducible refine mk_grows ?_ rfl)
    | with_reducible refine Grows.pair2 (by assumption) ?_
    | with_reducible refine Grows.pair1 (by assumption) ?_
    | with_reducible refine Grows.ofOpt (by assumption) ?_ | intro _ | split | dsimp only

theorem irRefresh_grows {z0 : State} {s : State} {b : Nat} {ir : List Nat} (hg : Grows z0 s) :
    Grows z0 (irRefresh s b ir) := by
  unfold irRefresh
  repeat' first
    | with_reducible exact hg | with_reducible assumption | with_reducible apply set_grows
    | with_reducible apply setb_grows | with_reducible apply onRx_grows | with_reducible apply raise_grows
    | fail_if_no_progress (with_reducible refine mk_grows ?_ rfl)
    | with_reducible refine Grows.pair2 (by assumption) ?_
    | with_reducible refine Grows.pair1 (by assumption) ?_
    | with_reducible refine Grows.ofOpt (by assumption) ?_
    | with_reducible refine Grows.fold ?_ (fun _ _ _ => ?_)
    | with_reducible refine Grows.fold2 ?_ (fun _ _ _ => ?_)
    | with_reducible refine Grows.fold1 ?_ (fun _ _ _ => ?_) | intro _ | split | dsimp only

theorem rxStartcal_grows {z0 : State} {s : State} {b : Nat} (hg : Grows z0 s) :
    Grows z0 (rxStartcal s b) := by
  unfold rxStartcal
  repeat' first
    | with_reducible exact hg | with_reducible assumption | with_reducible apply set_grows
    | with_reducible apply onRx_grows | fail_if_no_progress (with_reducible refine mk_grows ?_ rfl)
    | with_reducible refine Grows.pair2 (by assumption) ?_
    | with_reducible refine Grows.pair1 (by assumption) ?_
    | with_reducible refine Grows.ofOpt (by assumption) ?_ | intro _ | split | dsimp only

theorem rxStartcalDone_grows {z0 : State} {s : State} {b : Nat} {ir : List Nat} {steps : List Int} (hg : Grows z0 s) :
    Grows z0 (rxStartcalDone s b ir steps) := by
  unfold rxStartcalDone
  repeat' first
    | with_reducible exact hg | with_reducible assumption | with_reducible apply set_grows
    | with_reducible apply onRx_grows | with_reducible apply raise_grows | with_reducible apply irRefresh_grows
    | fail_if_no_progress (with_reducible refine mk_grows ?_ rfl)
    | with_reducible refine Grows.pair2 (by assumption) ?_
    | with_reducible refine Grows.pair1 (by assumption) ?_
    | with_reducible refine Grows.ofOpt (by assumption) ?_ | intro _ | split | dsimp only

theorem scheduledMove_grows {z0 : State} {s : State} {b : Nat} {target : Nat} (hg : Grows z0 s) :
    Grows z0 (scheduledMove s b target) := by
  unfold scheduledMove
  repeat' first
    | with_reducible exact hg | with_reducible assumption | with_reducible apply onRx_grows
    | with_reducible apply bump_grows | with_reducible apply gainTo_grows
    | fail_if_no_progress (with_reducible refine mk_grows ?_ rfl)
    | with_reducible refine Grows.pair2 (by assumption) ?_
    | with_reducible refine Grows.pair1 (by assumption) ?_
    | with_reducible refine Grows.ofOpt (by assumption) ?_ | intro _ | split | dsimp only

theorem rxEnable_grows {z0 : State} {s : State} {b : Nat} (hg : Grows z0 s) :
    Grows z0 (rxEnable s b) := by
  unfold rxEnable
  repeat' first
    | with_reducible exact hg | with_reducible assumption | with_reducible apply set_grows
    | with_reducible apply setb_grows | with_reducible apply takeEffect_grows | with_reducible apply onRx_grows
    | with_reducible apply scheduledMove_grows | fail_if_no_progress (with_reducible refine mk_grows ?_ rfl)
    | with_reducible refine Grows.pair2 (by assumption) ?_
    | with_reducible refine Grows.pair1 (by assumption) ?_
    | with_reducible refine Grows.ofOpt (by assumption) ?_ | intro _ | split | dsimp only

theorem rxDisable_grows {z0 : State} {s : State} {b : Nat} (hg : Grows z0 s) :
    Grows z0 (rxDisable s b) := by
  unfold rxDisable
  repeat' first
    | with_reducible exact hg | with_reducible assumption | with_reducible apply set_grows
    | with_reducible apply onRx_grows | with_reducible apply bandDrop_grows
    | fail_if_no_progress (with_reducible refine mk_grows ?_ rfl)
    | with_reducible refine Grows.pair2 (by assumption) ?_
    | with_reducible refine Grows.pair1 (by assumption) ?_
    | with_reducible refine Grows.ofOpt (by assumption) ?_ | intro _ | split | dsimp only

theorem gainEpochEnd_grows {z0 : State} {s : State} {b : Nat} {p : Option Int} (hg : Grows z0 s) :
    Grows z0 (gainEpochEnd s b p) := by
  unfold gainEpochEnd
  repeat' first
    | with_reducible exact hg | with_reducible assumption | with_reducible apply takeEffect_grows
    | with_reducible apply onRx_grows | with_reducible apply scheduledMove_grows
    | fail_if_no_progress (with_reducible refine mk_grows ?_ rfl)
    | with_reducible refine Grows.pair2 (by assumption) ?_
    | with_reducible refine Grows.pair1 (by assumption) ?_
    | with_reducible refine Grows.ofOpt (by assumption) ?_ | intro _ | split | dsimp only

theorem adcOverload_grows {z0 : State} {s : State} {b clipped : Nat} {fresh : Bool} (hg : Grows z0 s) :
    Grows z0 (adcOverload s b clipped fresh) := by
  unfold adcOverload
  repeat' first
    | with_reducible exact hg | with_reducible assumption | with_reducible apply onRx_grows
    | with_reducible apply bump_grows | with_reducible apply raise_grows
    | fail_if_no_progress (with_reducible refine mk_grows ?_ rfl)
    | with_reducible refine Grows.pair2 (by assumption) ?_
    | with_reducible refine Grows.pair1 (by assumption) ?_
    | with_reducible refine Grows.ofOpt (by assumption) ?_ | intro _ | split | dsimp only

theorem unscheduledStep_grows {z0 : State} {s : State} {b : Nat} (hg : Grows z0 s) :
    Grows z0 (unscheduledStep s b) := by
  unfold unscheduledStep
  repeat' first
    | with_reducible exact hg | with_reducible assumption | with_reducible apply onRx_grows
    | with_reducible apply bump_grows | with_reducible apply gainTo_grows
    | fail_if_no_progress (with_reducible refine mk_grows ?_ rfl)
    | with_reducible refine Grows.pair2 (by assumption) ?_
    | with_reducible refine Grows.pair1 (by assumption) ?_
    | with_reducible refine Grows.ofOpt (by assumption) ?_ | intro _ | split | dsimp only

theorem calReq_grows {z0 : State} {s : State} {b : Nat} (hg : Grows z0 s) :
    Grows z0 (calReq s b) := by
  unfold calReq
  repeat' first
    | with_reducible exact hg | with_reducible assumption | with_reducible apply set_grows
    | fail_if_no_progress (with_reducible refine mk_grows ?_ rfl)
    | with_reducible refine Grows.pair2 (by assumption) ?_
    | with_reducible refine Grows.pair1 (by assumption) ?_
    | with_reducible refine Grows.ofOpt (by assumption) ?_ | intro _ | split | dsimp only

theorem compatCalStart_grows {z0 : State} {s : State} {b : Nat} (hg : Grows z0 s) :
    Grows z0 (compatCalStart s b) := by
  unfold compatCalStart
  repeat' first
    | with_reducible exact hg | with_reducible assumption | with_reducible apply set_grows
    | with_reducible apply onRx_grows | with_reducible apply bumpBy_grows | with_reducible apply bandDrop_grows
    | fail_if_no_progress (with_reducible refine mk_grows ?_ rfl)
    | with_reducible refine Grows.pair2 (by assumption) ?_
    | with_reducible refine Grows.pair1 (by assumption) ?_
    | with_reducible refine Grows.ofOpt (by assumption) ?_ | intro _ | split | dsimp only

theorem blankEnd_grows {z0 : State} {s : State} {b : Nat} {ir : List Nat} (hg : Grows z0 s) :
    Grows z0 (blankEnd s b ir) := by
  unfold blankEnd
  repeat' first
    | with_reducible exact hg | with_reducible assumption | with_reducible apply set_grows
    | with_reducible apply onRx_grows | with_reducible apply irRefresh_grows
    | fail_if_no_progress (with_reducible refine mk_grows ?_ rfl)
    | with_reducible refine Grows.pair2 (by assumption) ?_
    | with_reducible refine Grows.pair1 (by assumption) ?_
    | with_reducible refine Grows.ofOpt (by assumption) ?_ | intro _ | split | dsimp only

theorem irUpdate_grows {z0 : State} {s : State} {b : Nat} {ir : List (Option Nat)} (hg : Grows z0 s) :
    Grows z0 (irUpdate s b ir) := by
  unfold irUpdate
  repeat' first
    | with_reducible exact hg | with_reducible assumption | with_reducible apply onRx_grows
    | with_reducible apply irRefresh_grows | fail_if_no_progress (with_reducible refine mk_grows ?_ rfl)
    | with_reducible refine Grows.pair2 (by assumption) ?_
    | with_reducible refine Grows.pair1 (by assumption) ?_
    | with_reducible refine Grows.ofOpt (by assumption) ?_ | intro _ | split | dsimp only

theorem staleSegmentTone_grows {z0 : State} {s : State} {b pair ir : Nat} (hg : Grows z0 s) :
    Grows z0 (staleSegmentTone s b pair ir) := by
  unfold staleSegmentTone
  repeat' first
    | with_reducible exact hg | with_reducible assumption | with_reducible apply onRx_grows
    | with_reducible apply irRefresh_grows | fail_if_no_progress (with_reducible refine mk_grows ?_ rfl)
    | with_reducible refine Grows.pair2 (by assumption) ?_
    | with_reducible refine Grows.pair1 (by assumption) ?_
    | with_reducible refine Grows.ofOpt (by assumption) ?_ | intro _ | split | dsimp only

theorem filterRetune_grows {z0 : State} {s : State} {b : Nat} {temp : Int} (hg : Grows z0 s) :
    Grows z0 (filterRetune s b temp) := by
  unfold filterRetune
  repeat' first
    | with_reducible exact hg | with_reducible assumption | with_reducible apply sset_grows
    | with_reducible apply onRx_grows | fail_if_no_progress (with_reducible refine mk_grows ?_ rfl)
    | with_reducible refine Grows.pair2 (by assumption) ?_
    | with_reducible refine Grows.pair1 (by assumption) ?_
    | with_reducible refine Grows.ofOpt (by assumption) ?_ | intro _ | split | dsimp only

/-! ### TxOps -/

theorem setChainState_grows {z0 : State} {s : State} {n st : Nat} (hg : Grows z0 s) :
    Grows z0 (setChainState s n st) := by
  unfold setChainState
  repeat' first
    | with_reducible exact hg | with_reducible assumption | with_reducible apply set_grows
    | fail_if_no_progress (with_reducible refine mk_grows ?_ rfl)
    | with_reducible refine Grows.pair2 (by assumption) ?_
    | with_reducible refine Grows.pair1 (by assumption) ?_
    | with_reducible refine Grows.ofOpt (by assumption) ?_ | intro _ | split | dsimp only

theorem cacheCount_grows {z0 : State} {s : State} {n : Nat} (hg : Grows z0 s) :
    Grows z0 (cacheCount s n) := by
  unfold cacheCount
  repeat' first
    | with_reducible exact hg | with_reducible assumption | with_reducible apply set_grows
    | fail_if_no_progress (with_reducible refine mk_grows ?_ rfl)
    | with_reducible refine Grows.pair2 (by assumption) ?_
    | with_reducible refine Grows.pair1 (by assumption) ?_
    | with_reducible refine Grows.ofOpt (by assumption) ?_ | intro _ | split | dsimp only

theorem ceilKeep_grows {z0 : State} {s : State} {b : Nat} {left : Tab Nat} {chains : List Nat} (hg : Grows z0 s) :
    Grows z0 (ceilKeep s b left chains) := by
  unfold ceilKeep
  repeat' first
    | with_reducible exact hg | with_reducible assumption | with_reducible apply set_grows
    | with_reducible apply onRx_grows | with_reducible apply gainTo_grows
    | fail_if_no_progress (with_reducible refine mk_grows ?_ rfl)
    | with_reducible refine Grows.pair2 (by assumption) ?_
    | with_reducible refine Grows.pair1 (by assumption) ?_
    | with_reducible refine Grows.ofOpt (by assumption) ?_ | intro _ | split | dsimp only

theorem sicRelease_grows {z0 : State} {s : State} {n : Nat} (hg : Grows z0 s) :
    Grows z0 (sicRelease s n) := by
  unfold sicRelease
  repeat' first
    | with_reducible exact hg | with_reducible assumption | with_reducible apply ceilKeep_grows
    | fail_if_no_progress (with_reducible refine mk_grows ?_ rfl)
    | with_reducible refine Grows.pair2 (by assumption) ?_
    | with_reducible refine Grows.pair1 (by assumption) ?_
    | with_reducible refine Grows.ofOpt (by assumption) ?_ | intro _ | split | dsimp only

theorem transmitStep_grows {z0 : State} {s : State} {n : Nat} (hg : Grows z0 s) :
    Grows z0 (transmitStep s n) := by
  unfold transmitStep
  repeat' first
    | with_reducible exact hg | with_reducible assumption | with_reducible apply setSicTx_grows
    | with_reducible apply bump_grows | with_reducible apply gainTo_grows
    | fail_if_no_progress (with_reducible refine mk_grows ?_ rfl)
    | with_reducible refine Grows.pair2 (by assumption) ?_
    | with_reducible refine Grows.pair1 (by assumption) ?_
    | with_reducible refine Grows.ofOpt (by assumption) ?_ | intro _ | split | dsimp only

theorem sicSeed_grows {z0 : State} {s : State} {n slot freq : Nat} (hg : Grows z0 s) :
    Grows z0 (sicSeed s n slot freq) := by
  unfold sicSeed
  repeat' first
    | with_reducible exact hg | with_reducible assumption | with_reducible apply setSicTx_grows
    | with_reducible apply setSicEntry_grows | fail_if_no_progress (with_reducible refine mk_grows ?_ rfl)
    | with_reducible refine Grows.pair2 (by assumption) ?_
    | with_reducible refine Grows.pair1 (by assumption) ?_
    | with_reducible refine Grows.ofOpt (by assumption) ?_
    | with_reducible refine Grows.fold ?_ (fun _ _ _ => ?_)
    | with_reducible refine Grows.fold2 ?_ (fun _ _ _ => ?_)
    | with_reducible refine Grows.fold1 ?_ (fun _ _ _ => ?_) | intro _ | split | dsimp only

theorem sicPrep_grows {z0 : State} {s : State} {n freq : Nat} (hg : Grows z0 s) :
    Grows z0 (sicPrep s n freq) := by
  unfold sicPrep
  repeat' first
    | with_reducible exact hg | with_reducible assumption | with_reducible apply set_grows
    | with_reducible apply sset_grows | with_reducible apply takeEffect_grows
    | with_reducible apply setSicTx_grows | with_reducible apply onRx_grows | with_reducible apply raise_grows
    | with_reducible apply sicSeed_grows | fail_if_no_progress (with_reducible refine mk_grows ?_ rfl)
    | with_reducible refine Grows.pair2 (by assumption) ?_
    | with_reducible refine Grows.pair1 (by assumption) ?_
    | with_reducible refine Grows.ofOpt (by assumption) ?_ | intro _ | split | dsimp only

theorem sicArm_grows {z0 : State} {s : State} {n freq : Nat} (hg : Grows z0 s) :
    Grows z0 (sicArm s n freq) := by
  unfold sicArm
  repeat' first
    | with_reducible exact hg | with_reducible assumption | with_reducible apply setSicTx_grows
    | with_reducible apply bumpBy_grows | with_reducible apply bump_grows
    | fail_if_no_progress (with_reducible refine mk_grows ?_ rfl)
    | with_reducible refine Grows.pair2 (by assumption) ?_
    | with_reducible refine Grows.pair1 (by assumption) ?_
    | with_reducible refine Grows.ofOpt (by assumption) ?_ | intro _ | split | dsimp only

theorem sicNextTx_grows {z0 : State} {s : State} {n : Nat} (hg : Grows z0 s) :
    Grows z0 (sicNextTx s n) := by
  unfold sicNextTx
  repeat' first
    | with_reducible exact hg | with_reducible assumption | with_reducible apply takeEffect_grows
    | fail_if_no_progress (with_reducible refine mk_grows ?_ rfl)
    | with_reducible refine Grows.pair2 (by assumption) ?_
    | with_reducible refine Grows.pair1 (by assumption) ?_
    | with_reducible refine Grows.ofOpt (by assumption) ?_ | intro _ | split | dsimp only

theorem sicWriteback_grows {z0 : State} {s : State} {n : Nat} {m : TxMeas} (hg : Grows z0 s) :
    Grows z0 (sicWriteback s n m) := by
  unfold sicWriteback
  repeat' first
    | with_reducible exact hg | with_reducible assumption | with_reducible apply set_grows
    | with_reducible apply setSicEntry_grows | with_reducible apply bump_grows
    | with_reducible apply raise_grows | fail_if_no_progress (with_reducible refine mk_grows ?_ rfl)
    | with_reducible refine Grows.pair2 (by assumption) ?_
    | with_reducible refine Grows.pair1 (by assumption) ?_
    | with_reducible refine Grows.ofOpt (by assumption) ?_ | intro _ | split | dsimp only

theorem sicClear_grows {z0 : State} {s : State} {n slot : Nat} (hg : Grows z0 s) :
    Grows z0 (sicClear s n slot) := by
  unfold sicClear
  repeat' first
    | with_reducible exact hg | with_reducible assumption
    | fail_if_no_progress (with_reducible refine mk_grows ?_ rfl)
    | with_reducible refine Grows.pair2 (by assumption) ?_
    | with_reducible refine Grows.pair1 (by assumption) ?_
    | with_reducible refine Grows.ofOpt (by assumption) ?_ | intro _ | split | dsimp only

theorem sicClearEntry_grows {z0 : State} {s : State} {n slot : Nat} (hg : Grows z0 s) :
    Grows z0 (sicClearEntry s n slot) := by
  unfold sicClearEntry
  repeat' first
    | with_reducible exact hg | with_reducible assumption | with_reducible apply set_grows
    | with_reducible apply setSicTx_grows | with_reducible apply sicClear_grows
    | fail_if_no_progress (with_reducible refine mk_grows ?_ rfl)
    | with_reducible refine Grows.pair2 (by assumption) ?_
    | with_reducible refine Grows.pair1 (by assumption) ?_
    | with_reducible refine Grows.ofOpt (by assumption) ?_ | intro _ | split | dsimp only

theorem sicReadEntry_grows {z0 : State} {s : State} {n slot : Nat} (hg : Grows z0 s) :
    Grows z0 (sicReadEntry s n slot) := by
  unfold sicReadEntry
  repeat' first
    | with_reducible exact hg | with_reducible assumption | with_reducible apply set_grows
    | with_reducible apply setb_grows | fail_if_no_progress (with_reducible refine mk_grows ?_ rfl)
    | with_reducible refine Grows.pair2 (by assumption) ?_
    | with_reducible refine Grows.pair1 (by assumption) ?_
    | with_reducible refine Grows.ofOpt (by assumption) ?_ | intro _ | split | dsimp only

theorem sicSetEna_grows {z0 : State} {s : State} {b : Nat} {on : Bool} (hg : Grows z0 s) :
    Grows z0 (sicSetEna s b on) := by
  unfold sicSetEna
  repeat' first
    | with_reducible exact hg | with_reducible assumption | with_reducible apply set_grows
    | with_reducible apply setSicTx_grows | with_reducible apply ceilKeep_grows
    | fail_if_no_progress (with_reducible refine mk_grows ?_ rfl)
    | with_reducible refine Grows.pair2 (by assumption) ?_
    | with_reducible refine Grows.pair1 (by assumption) ?_
    | with_reducible refine Grows.ofOpt (by assumption) ?_
    | with_reducible refine Grows.fold ?_ (fun _ _ _ => ?_)
    | with_reducible refine Grows.fold2 ?_ (fun _ _ _ => ?_)
    | with_reducible refine Grows.fold1 ?_ (fun _ _ _ => ?_) | intro _ | split | dsimp only

theorem endCmd_grows {z0 : State} {s : State} {n : Nat} {cmd : TxCmd} {status : Nat} {first : Option Nat} {airUs : Nat} {angle : Nat} {upset : List Nat} (hg : Grows z0 s) :
    Grows z0 (endCmd s n cmd status first airUs angle upset) := by
  unfold endCmd
  repeat' first
    | with_reducible exact hg | with_reducible assumption | with_reducible apply bump_grows
    | fail_if_no_progress (with_reducible refine mk_grows ?_ rfl)
    | with_reducible refine Grows.pair2 (by assumption) ?_
    | with_reducible refine Grows.pair1 (by assumption) ?_
    | with_reducible refine Grows.ofOpt (by assumption) ?_ | intro _ | split | dsimp only

theorem evictNow_grows {z0 : State} {s : State} {n slot : Nat} (hg : Grows z0 s) :
    Grows z0 (evictNow s n slot) := by
  unfold evictNow
  repeat' first
    | with_reducible exact hg | with_reducible assumption | with_reducible apply set_grows
    | with_reducible apply onChain_grows | with_reducible apply cacheCount_grows
    | with_reducible apply sicClear_grows | fail_if_no_progress (with_reducible refine mk_grows ?_ rfl)
    | with_reducible refine Grows.pair2 (by assumption) ?_
    | with_reducible refine Grows.pair1 (by assumption) ?_
    | with_reducible refine Grows.ofOpt (by assumption) ?_ | intro _ | split | dsimp only

theorem evictWaiting_grows {z0 : State} {s : State} {n : Nat} (hg : Grows z0 s) :
    Grows z0 (evictWaiting s n) := by
  unfold evictWaiting
  repeat' first
    | with_reducible exact hg | with_reducible assumption | with_reducible apply evictNow_grows
    | fail_if_no_progress (with_reducible refine mk_grows ?_ rfl)
    | with_reducible refine Grows.pair2 (by assumption) ?_
    | with_reducible refine Grows.pair1 (by assumption) ?_
    | with_reducible refine Grows.ofOpt (by assumption) ?_ | intro _ | split | dsimp only

theorem promote_place_grows {s0 : State} {n : Nat} {s : State} {c : Chain} {l : List TxCmd} (h : Grows s0 s) :
    Grows s0 (promote.place n s c l).1 := by
  induction l generalizing s c with
  | nil => exact h
  | cons w r ih =>
    unfold promote.place
    split
    · exact ih (endCmd_grows h)
    · split
      · exact ih h
      · split
        · exact ih h
        · exact h

theorem promote_grows {s0 : State} {s : State} {n : Nat} (h : Grows s0 s) : Grows s0 (promote s n) := by
  unfold promote
  dsimp only
  exact evictWaiting_grows (setChain_grows (promote_place_grows h))

theorem txIssue_grows {z0 : State} {s : State} {n : Nat} {cmd : TxCmd} (hg : Grows z0 s) :
    Grows z0 (txIssue s n cmd) := by
  unfold txIssue
  repeat' first
    | with_reducible exact hg | with_reducible assumption | with_reducible apply setChain_grows
    | with_reducible apply endCmd_grows | fail_if_no_progress (with_reducible refine mk_grows ?_ rfl)
    | with_reducible refine Grows.pair2 (by assumption) ?_
    | with_reducible refine Grows.pair1 (by assumption) ?_
    | with_reducible refine Grows.ofOpt (by assumption) ?_ | intro _ | split | dsimp only

theorem commandWithdraw_grows {z0 : State} {s : State} {n id : Nat} (hg : Grows z0 s) :
    Grows z0 (commandWithdraw s n id) := by
  unfold commandWithdraw
  repeat' first
    | with_reducible exact hg | with_reducible assumption | with_reducible apply setChain_grows
    | with_reducible apply endCmd_grows | with_reducible apply promote_grows
    | fail_if_no_progress (with_reducible refine mk_grows ?_ rfl)
    | with_reducible refine Grows.pair2 (by assumption) ?_
    | with_reducible refine Grows.pair1 (by assumption) ?_
    | with_reducible refine Grows.ofOpt (by assumption) ?_ | intro _ | split | dsimp only

theorem setPrio_grows {z0 : State} {s : State} {level : Bool} (hg : Grows z0 s) :
    Grows z0 (setPrio s level) := by
  unfold setPrio
  repeat' first
    | with_reducible exact hg | with_reducible assumption | with_reducible apply setb_grows
    | fail_if_no_progress (with_reducible refine mk_grows ?_ rfl)
    | with_reducible refine Grows.pair2 (by assumption) ?_
    | with_reducible refine Grows.pair1 (by assumption) ?_
    | with_reducible refine Grows.ofOpt (by assumption) ?_ | intro _ | split | dsimp only

theorem coexDrive_grows {z0 : State} {s : State} {granted : Bool} (hg : Grows z0 s) :
    Grows z0 (coexDrive s granted) := by
  unfold coexDrive
  repeat' first
    | with_reducible exact hg | with_reducible assumption | with_reducible apply setb_grows
    | with_reducible apply drive_grows | fail_if_no_progress (with_reducible refine mk_grows ?_ rfl)
    | with_reducible refine Grows.pair2 (by assumption) ?_
    | with_reducible refine Grows.pair1 (by assumption) ?_
    | with_reducible refine Grows.ofOpt (by assumption) ?_ | intro _ | split | dsimp only

theorem coexEnable_grows {z0 : State} {s : State} (hg : Grows z0 s) :
    Grows z0 (coexEnable s) := by
  unfold coexEnable
  repeat' first
    | with_reducible exact hg | with_reducible assumption | with_reducible apply set_grows
    | with_reducible apply claimAll_grows | with_reducible apply coexDrive_grows
    | fail_if_no_progress (with_reducible refine mk_grows ?_ rfl)
    | with_reducible refine Grows.pair2 (by assumption) ?_
    | with_reducible refine Grows.pair1 (by assumption) ?_
    | with_reducible refine Grows.ofOpt (by assumption) ?_ | intro _ | split | dsimp only

theorem coexDisable_grows {z0 : State} {s : State} (hg : Grows z0 s) :
    Grows z0 (coexDisable s) := by
  unfold coexDisable
  repeat' first
    | with_reducible exact hg | with_reducible assumption | with_reducible apply set_grows
    | with_reducible apply undrive_grows | with_reducible apply releaseAll_grows
    | fail_if_no_progress (with_reducible refine mk_grows ?_ rfl)
    | with_reducible refine Grows.pair2 (by assumption) ?_
    | with_reducible refine Grows.pair1 (by assumption) ?_
    | with_reducible refine Grows.ofOpt (by assumption) ?_ | intro _ | split | dsimp only

theorem coexReqRise_grows {z0 : State} {s : State} {prio : Bool} (hg : Grows z0 s) :
    Grows z0 (coexReqRise s prio) := by
  unfold coexReqRise
  repeat' first
    | with_reducible exact hg | with_reducible assumption | with_reducible apply set_grows
    | with_reducible apply setPrio_grows | fail_if_no_progress (with_reducible refine mk_grows ?_ rfl)
    | with_reducible refine Grows.pair2 (by assumption) ?_
    | with_reducible refine Grows.pair1 (by assumption) ?_
    | with_reducible refine Grows.ofOpt (by assumption) ?_ | intro _ | split | dsimp only

theorem coexGrant_grows {z0 : State} {s : State} {prio : Bool} (hg : Grows z0 s) :
    Grows z0 (coexGrant s prio) := by
  unfold coexGrant
  repeat' first
    | with_reducible exact hg | with_reducible assumption | with_reducible apply bump_grows
    | with_reducible apply setPrio_grows | with_reducible apply coexDrive_grows
    | fail_if_no_progress (with_reducible refine mk_grows ?_ rfl)
    | with_reducible refine Grows.pair2 (by assumption) ?_
    | with_reducible refine Grows.pair1 (by assumption) ?_
    | with_reducible refine Grows.ofOpt (by assumption) ?_ | intro _ | split | dsimp only

theorem coexDrop_grows {z0 : State} {s : State} (hg : Grows z0 s) :
    Grows z0 (coexDrop s) := by
  unfold coexDrop
  repeat' first
    | with_reducible exact hg | with_reducible assumption | with_reducible apply coexDrive_grows
    | fail_if_no_progress (with_reducible refine mk_grows ?_ rfl)
    | with_reducible refine Grows.pair2 (by assumption) ?_
    | with_reducible refine Grows.pair1 (by assumption) ?_
    | with_reducible refine Grows.ofOpt (by assumption) ?_ | intro _ | split | dsimp only

theorem coexReqFall_grows {z0 : State} {s : State} (hg : Grows z0 s) :
    Grows z0 (coexReqFall s) := by
  unfold coexReqFall
  repeat' first
    | with_reducible exact hg | with_reducible assumption | with_reducible apply set_grows
    | with_reducible apply coexDrop_grows | fail_if_no_progress (with_reducible refine mk_grows ?_ rfl)
    | with_reducible refine Grows.pair2 (by assumption) ?_
    | with_reducible refine Grows.pair1 (by assumption) ?_
    | with_reducible refine Grows.ofOpt (by assumption) ?_ | intro _ | split | dsimp only

theorem coexRevoke_grows {z0 : State} {s : State} {prio : Bool} (hg : Grows z0 s) :
    Grows z0 (coexRevoke s prio) := by
  unfold coexRevoke
  repeat' first
    | with_reducible exact hg | with_reducible assumption | with_reducible apply bump_grows
    | with_reducible apply setPrio_grows | with_reducible apply coexDrop_grows
    | fail_if_no_progress (with_reducible refine mk_grows ?_ rfl)
    | with_reducible refine Grows.pair2 (by assumption) ?_
    | with_reducible refine Grows.pair1 (by assumption) ?_
    | with_reducible refine Grows.ofOpt (by assumption) ?_ | intro _ | split | dsimp only

theorem reqMaxExpiry_grows {z0 : State} {s : State} (hg : Grows z0 s) :
    Grows z0 (reqMaxExpiry s) := by
  unfold reqMaxExpiry
  repeat' first
    | with_reducible exact hg | with_reducible assumption | with_reducible apply set_grows
    | with_reducible apply raise_grows | with_reducible apply coexDrop_grows
    | fail_if_no_progress (with_reducible refine mk_grows ?_ rfl)
    | with_reducible refine Grows.pair2 (by assumption) ?_
    | with_reducible refine Grows.pair1 (by assumption) ?_
    | with_reducible refine Grows.ofOpt (by assumption) ?_ | intro _ | split | dsimp only

theorem chainStartcal_grows {z0 : State} {s : State} {n : Nat} (hg : Grows z0 s) :
    Grows z0 (chainStartcal s n) := by
  unfold chainStartcal
  repeat' first
    | with_reducible exact hg | with_reducible assumption | with_reducible apply onChain_grows
    | with_reducible apply setChainState_grows | fail_if_no_progress (with_reducible refine mk_grows ?_ rfl)
    | with_reducible refine Grows.pair2 (by assumption) ?_
    | with_reducible refine Grows.pair1 (by assumption) ?_
    | with_reducible refine Grows.ofOpt (by assumption) ?_ | intro _ | split | dsimp only

theorem chainStartcalDone_grows {z0 : State} {s : State} {n : Nat} (hg : Grows z0 s) :
    Grows z0 (chainStartcalDone s n) := by
  unfold chainStartcalDone
  repeat' first
    | with_reducible exact hg | with_reducible assumption | with_reducible apply set_grows
    | with_reducible apply onChain_grows | with_reducible apply raise_grows
    | with_reducible apply setChainState_grows | fail_if_no_progress (with_reducible refine mk_grows ?_ rfl)
    | with_reducible refine Grows.pair2 (by assumption) ?_
    | with_reducible refine Grows.pair1 (by assumption) ?_
    | with_reducible refine Grows.ofOpt (by assumption) ?_ | intro _ | split | dsimp only

theorem hopTo_grows {z0 : State} {s : State} {n freq : Nat} (hg : Grows z0 s) :
    Grows z0 (hopTo s n freq) := by
  unfold hopTo
  repeat' first
    | with_reducible exact hg | with_reducible assumption | with_reducible apply set_grows
    | with_reducible apply onChain_grows | with_reducible apply setChainState_grows
    | fail_if_no_progress (with_reducible refine mk_grows ?_ rfl)
    | with_reducible refine Grows.pair2 (by assumption) ?_
    | with_reducible refine Grows.pair1 (by assumption) ?_
    | with_reducible refine Grows.ofOpt (by assumption) ?_ | intro _ | split | dsimp only

theorem chainEnable_grows {z0 : State} {s : State} {n : Nat} (hg : Grows z0 s) :
    Grows z0 (chainEnable s n) := by
  unfold chainEnable
  repeat' first
    | with_reducible exact hg | with_reducible assumption | with_reducible apply set_grows
    | with_reducible apply onChain_grows | with_reducible apply setChainState_grows
    | with_reducible apply hopTo_grows | fail_if_no_progress (with_reducible refine mk_grows ?_ rfl)
    | with_reducible refine Grows.pair2 (by assumption) ?_
    | with_reducible refine Grows.pair1 (by assumption) ?_
    | with_reducible refine Grows.ofOpt (by assumption) ?_ | intro _ | split | dsimp only

theorem femOff_grows {z0 : State} {s : State} {n : Nat} (hg : Grows z0 s) :
    Grows z0 (femOff s n) := by
  unfold femOff
  repeat' first
    | with_reducible exact hg | with_reducible assumption | with_reducible apply drive_grows
    | fail_if_no_progress (with_reducible refine mk_grows ?_ rfl)
    | with_reducible refine Grows.pair2 (by assumption) ?_
    | with_reducible refine Grows.pair1 (by assumption) ?_
    | with_reducible refine Grows.ofOpt (by assumption) ?_ | intro _ | split | dsimp only

theorem femOn_grows {z0 : State} {s : State} {n : Nat} (hg : Grows z0 s) :
    Grows z0 (femOn s n) := by
  unfold femOn
  repeat' first
    | with_reducible exact hg | with_reducible assumption | with_reducible apply drive_grows
    | fail_if_no_progress (with_reducible refine mk_grows ?_ rfl)
    | with_reducible refine Grows.pair2 (by assumption) ?_
    | with_reducible refine Grows.pair1 (by assumption) ?_
    | with_reducible refine Grows.ofOpt (by assumption) ?_ | intro _ | split | dsimp only

theorem txcDrive_grows {z0 : State} {s : State} {n : Nat} (hg : Grows z0 s) :
    Grows z0 (txcDrive s n) := by
  unfold txcDrive
  repeat' first
    | with_reducible exact hg | with_reducible assumption | with_reducible apply femOff_grows
    | with_reducible apply femOn_grows | fail_if_no_progress (with_reducible refine mk_grows ?_ rfl)
    | with_reducible refine Grows.pair2 (by assumption) ?_
    | with_reducible refine Grows.pair1 (by assumption) ?_
    | with_reducible refine Grows.ofOpt (by assumption) ?_ | intro _ | split | dsimp only

theorem chainDisable_grows {z0 : State} {s : State} {n : Nat} (hg : Grows z0 s) :
    Grows z0 (chainDisable s n) := by
  unfold chainDisable
  repeat' first
    | with_reducible exact hg | with_reducible assumption | with_reducible apply set_grows
    | with_reducible apply setChain_grows | with_reducible apply onChain_grows
    | with_reducible apply setChainState_grows | with_reducible apply sicRelease_grows
    | with_reducible apply endCmd_grows | with_reducible apply evictWaiting_grows
    | with_reducible apply femOff_grows | fail_if_no_progress (with_reducible refine mk_grows ?_ rfl)
    | with_reducible refine Grows.pair2 (by assumption) ?_
    | with_reducible refine Grows.pair1 (by assumption) ?_
    | with_reducible refine Grows.ofOpt (by assumption) ?_
    | with_reducible refine Grows.fold ?_ (fun _ _ _ => ?_)
    | with_reducible refine Grows.fold2 ?_ (fun _ _ _ => ?_)
    | with_reducible refine Grows.fold1 ?_ (fun _ _ _ => ?_) | intro _ | split | dsimp only

theorem park_grows {z0 : State} {s : State} {n : Nat} (hg : Grows z0 s) :
    Grows z0 (park s n) := by
  unfold park
  repeat' first
    | with_reducible exact hg | with_reducible assumption | with_reducible apply hopTo_grows
    | fail_if_no_progress (with_reducible refine mk_grows ?_ rfl)
    | with_reducible refine Grows.pair2 (by assumption) ?_
    | with_reducible refine Grows.pair1 (by assumption) ?_
    | with_reducible refine Grows.ofOpt (by assumption) ?_ | intro _ | split | dsimp only

theorem notCached_grows {z0 : State} {s : State} {n : Nat} {cmd : TxCmd} (hg : Grows z0 s) :
    Grows z0 (notCached s n cmd) := by
  unfold notCached
  repeat' first
    | with_reducible exact hg | with_reducible assumption | with_reducible apply setChain_grows
    | with_reducible apply onChain_grows | with_reducible apply endCmd_grows
    | fail_if_no_progress (with_reducible refine mk_grows ?_ rfl)
    | with_reducible refine Grows.pair2 (by assumption) ?_
    | with_reducible refine Grows.pair1 (by assumption) ?_
    | with_reducible refine Grows.ofOpt (by assumption) ?_ | intro _ | split | dsimp only

theorem beginHop_grows {z0 : State} {s : State} {n : Nat} {cmd : TxCmd} (hg : Grows z0 s) :
    Grows z0 (beginHop s n cmd) := by
  unfold beginHop
  repeat' first
    | with_reducible exact hg | with_reducible assumption | with_reducible apply onChain_grows
    | with_reducible apply bump_grows | with_reducible apply sicNextTx_grows
    | with_reducible apply promote_grows | with_reducible apply hopTo_grows
    | with_reducible apply notCached_grows | fail_if_no_progress (with_reducible refine mk_grows ?_ rfl)
    | with_reducible refine Grows.pair2 (by assumption) ?_
    | with_reducible refine Grows.pair1 (by assumption) ?_
    | with_reducible refine Grows.ofOpt (by assumption) ?_ | intro _ | split | dsimp only

theorem preemptCal_grows {z0 : State} {s : State} {n : Nat} (hg : Grows z0 s) :
    Grows z0 (preemptCal s n) := by
  unfold preemptCal
  repeat' first
    | with_reducible exact hg | with_reducible assumption | with_reducible apply set_grows
    | with_reducible apply setChain_grows | with_reducible apply bump_grows | with_reducible apply raise_grows
    | fail_if_no_progress (with_reducible refine mk_grows ?_ rfl)
    | with_reducible refine Grows.pair2 (by assumption) ?_
    | with_reducible refine Grows.pair1 (by assumption) ?_
    | with_reducible refine Grows.ofOpt (by assumption) ?_ | intro _ | split | dsimp only

theorem pickCmd_grows {z0 : State} {s : State} {n : Nat} (hg : Grows z0 s) :
    ∀ x, pickCmd s n = some x → Grows z0 x.2 := by
  unfold pickCmd
  intro x e
  revert e
  repeat' first
    | with_reducible exact hg | with_reducible assumption | with_reducible apply setChain_grows
    | fail_if_no_progress (with_reducible refine mk_grows ?_ rfl)
    | with_reducible refine Grows.pair2 (by assumption) ?_
    | with_reducible refine Grows.pair1 (by assumption) ?_
    | with_reducible refine Grows.ofOpt (by assumption) ?_ | (intro e; cases e) | split | dsimp only

theorem coexGate_grows {z0 : State} {s : State} {n : Nat} {cmd : TxCmd} (hg : Grows z0 s) :
    ∀ x, coexGate s n cmd = some x → Grows z0 x.2 := by
  unfold coexGate
  intro x e
  revert e
  repeat' first
    | with_reducible exact hg | with_reducible assumption | with_reducible apply bump_grows
    | with_reducible apply coexDrop_grows | fail_if_no_progress (with_reducible refine mk_grows ?_ rfl)
    | with_reducible refine Grows.pair2 (by assumption) ?_
    | with_reducible refine Grows.pair1 (by assumption) ?_
    | with_reducible refine Grows.ofOpt (by assumption) ?_ | (intro e; cases e) | split | dsimp only

theorem letGo_grows {z0 : State} {s : State} {n : Nat} {cmd : TxCmd} (hg : Grows z0 s) :
    Grows z0 (letGo s n cmd) := by
  unfold letGo
  repeat' first
    | with_reducible exact hg | with_reducible assumption | with_reducible apply onChain_grows
    | with_reducible apply setChainState_grows | with_reducible apply sicRelease_grows
    | with_reducible apply endCmd_grows | with_reducible apply promote_grows | with_reducible apply femOff_grows
    | fail_if_no_progress (with_reducible refine mk_grows ?_ rfl)
    | with_reducible refine Grows.pair2 (by assumption) ?_
    | with_reducible refine Grows.pair1 (by assumption) ?_
    | with_reducible refine Grows.ofOpt (by assumption) ?_ | intro _ | split | dsimp only

theorem occDrop_grows {z0 : State} {s : State} {n : Nat} (hg : Grows z0 s) :
    Grows z0 (occDrop s n) := by
  unfold occDrop
  repeat' first
    | with_reducible exact hg | with_reducible assumption | with_reducible apply rxReached_grows
    | with_reducible apply letGo_grows | fail_if_no_progress (with_reducible refine mk_grows ?_ rfl)
    | with_reducible refine Grows.pair2 (by assumption) ?_
    | with_reducible refine Grows.pair1 (by assumption) ?_
    | with_reducible refine Grows.ofOpt (by assumption) ?_ | intro _ | split | dsimp only

theorem turnaroundStart_grows {z0 : State} {s : State} {n : Nat} {prio : Bool} (hg : Grows z0 s) :
    Grows z0 (turnaroundStart s n prio) := by
  unfold turnaroundStart
  repeat' first
    | with_reducible exact hg | with_reducible assumption | with_reducible apply onChain_grows
    | with_reducible apply bump_grows | with_reducible apply setChainState_grows
    | with_reducible apply endCmd_grows | with_reducible apply promote_grows
    | with_reducible apply setPrio_grows | with_reducible apply beginHop_grows
    | with_reducible apply preemptCal_grows | with_reducible apply pickCmd_grows
    | with_reducible apply coexGate_grows | with_reducible apply occDrop_grows
    | fail_if_no_progress (with_reducible refine mk_grows ?_ rfl)
    | with_reducible refine Grows.pair2 (by assumption) ?_
    | with_reducible refine Grows.pair1 (by assumption) ?_
    | with_reducible refine Grows.ofOpt (by assumption) ?_ | intro _ | split | dsimp only

theorem synthLock_grows {z0 : State} {s : State} {n : Nat} (hg : Grows z0 s) :
    Grows z0 (synthLock s n) := by
  unfold synthLock
  repeat' first
    | with_reducible exact hg | with_reducible assumption | with_reducible apply set_grows
    | with_reducible apply setChain_grows | with_reducible apply onChain_grows
    | with_reducible apply setChainState_grows | with_reducible apply endCmd_grows
    | with_reducible apply promote_grows | with_reducible apply beginHop_grows
    | fail_if_no_progress (with_reducible refine mk_grows ?_ rfl)
    | with_reducible refine Grows.pair2 (by assumption) ?_
    | with_reducible refine Grows.pair1 (by assumption) ?_
    | with_reducible refine Grows.ofOpt (by assumption) ?_ | intro _ | split | dsimp only

theorem lockPoint_grows {z0 : State} {s : State} {n : Nat} (hg : Grows z0 s) :
    Grows z0 (lockPoint s n) := by
  unfold lockPoint
  repeat' first
    | with_reducible exact hg | with_reducible assumption | with_reducible apply setChain_grows
    | with_reducible apply onChain_grows | with_reducible apply raise_grows
    | with_reducible apply setChainState_grows | with_reducible apply sicPrep_grows
    | with_reducible apply endCmd_grows | with_reducible apply promote_grows | with_reducible apply femOn_grows
    | with_reducible apply occDrop_grows | fail_if_no_progress (with_reducible refine mk_grows ?_ rfl)
    | with_reducible refine Grows.pair2 (by assumption) ?_
    | with_reducible refine Grows.pair1 (by assumption) ?_
    | with_reducible refine Grows.ofOpt (by assumption) ?_ | intro _ | split | dsimp only

theorem firstSymbol_grows {z0 : State} {s : State} {n : Nat} (hg : Grows z0 s) :
    Grows z0 (firstSymbol s n) := by
  unfold firstSymbol
  repeat' first
    | with_reducible exact hg | with_reducible assumption | with_reducible apply emit_grows
    | with_reducible apply setChain_grows | with_reducible apply setChainState_grows
    | with_reducible apply sicArm_grows | with_reducible apply occDrop_grows
    | fail_if_no_progress (with_reducible refine mk_grows ?_ rfl)
    | with_reducible refine Grows.pair2 (by assumption) ?_
    | with_reducible refine Grows.pair1 (by assumption) ?_
    | with_reducible refine Grows.ofOpt (by assumption) ?_ | intro _ | split | dsimp only

theorem lastSymbolTx_grows {z0 : State} {s : State} {n : Nat} (hg : Grows z0 s) :
    Grows z0 (lastSymbolTx s n) := by
  unfold lastSymbolTx
  repeat' first
    | with_reducible exact hg | with_reducible assumption | with_reducible apply setChain_grows
    | with_reducible apply setChainState_grows | fail_if_no_progress (with_reducible refine mk_grows ?_ rfl)
    | with_reducible refine Grows.pair2 (by assumption) ?_
    | with_reducible refine Grows.pair1 (by assumption) ?_
    | with_reducible refine Grows.ofOpt (by assumption) ?_ | intro _ | split | dsimp only

theorem trimUpdate_grows {z0 : State} {s : State} {n detAdc : Nat} (hg : Grows z0 s) :
    Grows z0 (trimUpdate s n detAdc) := by
  unfold trimUpdate
  repeat' first
    | with_reducible exact hg | with_reducible assumption | with_reducible apply set_grows
    | with_reducible apply setChain_grows | with_reducible apply bump_grows | with_reducible apply raise_grows
    | fail_if_no_progress (with_reducible refine mk_grows ?_ rfl)
    | with_reducible refine Grows.pair2 (by assumption) ?_
    | with_reducible refine Grows.pair1 (by assumption) ?_
    | with_reducible refine Grows.ofOpt (by assumption) ?_ | intro _ | split | dsimp only

theorem rampdnTx_grows {z0 : State} {s : State} {n : Nat} {m : TxMeas} (hg : Grows z0 s) :
    Grows z0 (rampdnTx s n m) := by
  unfold rampdnTx
  repeat' first
    | with_reducible exact hg | with_reducible assumption | with_reducible apply set_grows
    | with_reducible apply onChain_grows | with_reducible apply setChainState_grows
    | with_reducible apply sicRelease_grows | with_reducible apply sicWriteback_grows
    | with_reducible apply sicClear_grows | with_reducible apply endCmd_grows
    | with_reducible apply promote_grows | with_reducible apply femOff_grows
    | with_reducible apply trimUpdate_grows | fail_if_no_progress (with_reducible refine mk_grows ?_ rfl)
    | with_reducible refine Grows.pair2 (by assumption) ?_
    | with_reducible refine Grows.pair1 (by assumption) ?_
    | with_reducible refine Grows.ofOpt (by assumption) ?_ | intro _ | split | dsimp only

theorem cacheFill_grows {z0 : State} {s : State} {n slot : Nat} (hg : Grows z0 s) :
    Grows z0 (cacheFill s n slot) := by
  unfold cacheFill
  repeat' first
    | with_reducible exact hg | with_reducible assumption | with_reducible apply set_grows
    | with_reducible apply onChain_grows | fail_if_no_progress (with_reducible refine mk_grows ?_ rfl)
    | with_reducible refine Grows.pair2 (by assumption) ?_
    | with_reducible refine Grows.pair1 (by assumption) ?_
    | with_reducible refine Grows.ofOpt (by assumption) ?_ | intro _ | split | dsimp only

theorem cacheEvict_grows {z0 : State} {s : State} {n slot : Nat} (hg : Grows z0 s) :
    Grows z0 (cacheEvict s n slot) := by
  unfold cacheEvict
  repeat' first
    | with_reducible exact hg | with_reducible assumption | with_reducible apply set_grows
    | with_reducible apply onChain_grows | with_reducible apply evictNow_grows
    | fail_if_no_progress (with_reducible refine mk_grows ?_ rfl)
    | with_reducible refine Grows.pair2 (by assumption) ?_
    | with_reducible refine Grows.pair1 (by assumption) ?_
    | with_reducible refine Grows.ofOpt (by assumption) ?_ | intro _ | split | dsimp only

theorem cacheRead_grows {z0 : State} {s : State} {n slot : Nat} (hg : Grows z0 s) :
    Grows z0 (cacheRead s n slot) := by
  unfold cacheRead
  repeat' first
    | with_reducible exact hg | with_reducible assumption | with_reducible apply set_grows
    | fail_if_no_progress (with_reducible refine mk_grows ?_ rfl)
    | with_reducible refine Grows.pair2 (by assumption) ?_
    | with_reducible refine Grows.pair1 (by assumption) ?_
    | with_reducible refine Grows.ofOpt (by assumption) ?_ | intro _ | split | dsimp only

theorem fillStart_grows {z0 : State} {s : State} {n : Nat} {retry : Bool} (hg : Grows z0 s) :
    Grows z0 (fillStart s n retry) := by
  unfold fillStart
  repeat' first
    | with_reducible exact hg | with_reducible assumption | with_reducible apply setChain_grows
    | with_reducible apply setChainState_grows | fail_if_no_progress (with_reducible refine mk_grows ?_ rfl)
    | with_reducible refine Grows.pair2 (by assumption) ?_
    | with_reducible refine Grows.pair1 (by assumption) ?_
    | with_reducible refine Grows.ofOpt (by assumption) ?_ | intro _ | split | dsimp only

theorem oncalComplete_grows {z0 : State} {s : State} {n : Nat} {found : ChanCal} (hg : Grows z0 s) :
    Grows z0 (oncalComplete s n found) := by
  unfold oncalComplete
  repeat' first
    | with_reducible exact hg | with_reducible assumption | with_reducible apply set_grows
    | with_reducible apply setChain_grows | with_reducible apply setChainState_grows
    | with_reducible apply cacheCount_grows | with_reducible apply sicClear_grows
    | fail_if_no_progress (with_reducible refine mk_grows ?_ rfl)
    | with_reducible refine Grows.pair2 (by assumption) ?_
    | with_reducible refine Grows.pair1 (by assumption) ?_
    | with_reducible refine Grows.ofOpt (by assumption) ?_ | intro _ | split | dsimp only

theorem sensorRead_grows {z0 : State} {s : State} {n : Nat} {temp : Int} {vpa : Nat} (hg : Grows z0 s) :
    Grows z0 (sensorRead s n temp vpa) := by
  unfold sensorRead
  repeat' first
    | with_reducible exact hg | with_reducible assumption | with_reducible apply set_grows
    | with_reducible apply sset_grows | fail_if_no_progress (with_reducible refine mk_grows ?_ rfl)
    | with_reducible refine Grows.pair2 (by assumption) ?_
    | with_reducible refine Grows.pair1 (by assumption) ?_
    | with_reducible refine Grows.ofOpt (by assumption) ?_ | intro _ | split | dsimp only

theorem coeffAdapt_grows {z0 : State} {s : State} {n : Nat} {taps coefs : List Cplx} {views : List SicView} (hg : Grows z0 s) :
    Grows z0 (coeffAdapt s n taps coefs views) := by
  unfold coeffAdapt
  repeat' first
    | with_reducible exact hg | with_reducible assumption | with_reducible apply setSicTx_grows
    | fail_if_no_progress (with_reducible refine mk_grows ?_ rfl)
    | with_reducible refine Grows.pair2 (by assumption) ?_
    | with_reducible refine Grows.pair1 (by assumption) ?_
    | with_reducible refine Grows.ofOpt (by assumption) ?_ | intro _ | split | dsimp only

theorem collisionDeclared_grows {z0 : State} {s : State} {n lane : Nat} {level : Int} {since : Option Nat} (hg : Grows z0 s) :
    Grows z0 (collisionDeclared s n lane level since) := by
  unfold collisionDeclared
  repeat' first
    | with_reducible exact hg | with_reducible assumption | with_reducible apply setChain_grows
    | with_reducible apply setSicTx_grows | with_reducible apply bump_grows | with_reducible apply raise_grows
    | with_reducible apply setChainState_grows | fail_if_no_progress (with_reducible refine mk_grows ?_ rfl)
    | with_reducible refine Grows.pair2 (by assumption) ?_
    | with_reducible refine Grows.pair1 (by assumption) ?_
    | with_reducible refine Grows.ofOpt (by assumption) ?_ | intro _ | split | dsimp only

end Sys2Proof.Machine
end

