-- ==== Sys2Proof/Laws/GrowsMac.lean ====
section
/-! SUPPORT. `Grows` for the operations of rings, the Node Table, the Context Store, the Jewel store, the air MAC, the Escapement, sleepy nodes: one lemma for each. -/

set_option Elab.async false

set_option linter.unusedTactic false
set_option linter.unreachableTactic false

namespace Sys2Proof.Machine

/-! ### Store -/

theorem setWord_grows {z0 : State} {s : State} {a v : Nat} (hg : Grows z0 s) :
    Grows z0 (State.setWord s a v) := by
  unfold State.setWord
  repeat' first
    | with_reducible exact hg | with_reducible assumption | with_reducible apply setOctets_grows
    | fail_if_no_progress (with_reducible refine mk_grows ?_ rfl)
    | with_reducible refine Grows.pair2 (by assumption) ?_
    | with_reducible refine Grows.pair1 (by assumption) ?_
    | with_reducible refine Grows.ofOpt (by assumption) ?_ | intro _ | split | dsimp only

theorem cset_grows {z0 : State} {s : State} {k : Nat} {f : CFld} {v : Nat} (hg : Grows z0 s) :
    Grows z0 (State.cset s k f v) := by
  unfold State.cset
  repeat' first
    | with_reducible exact hg | with_reducible assumption | with_reducible apply setOctets_grows
    | fail_if_no_progress (with_reducible refine mk_grows ?_ rfl)
    | with_reducible refine Grows.pair2 (by assumption) ?_
    | with_reducible refine Grows.pair1 (by assumption) ?_
    | with_reducible refine Grows.ofOpt (by assumption) ?_ | intro _ | split | dsimp only

theorem csset_grows {z0 : State} {s : State} {k : Nat} {f : CFld} {i : Int} (hg : Grows z0 s) :
    Grows z0 (State.csset s k f i) := by
  unfold State.csset
  repeat' first
    | with_reducible exact hg | with_reducible assumption | with_reducible apply cset_grows
    | fail_if_no_progress (with_reducible refine mk_grows ?_ rfl)
    | with_reducible refine Grows.pair2 (by assumption) ?_
    | with_reducible refine Grows.pair1 (by assumption) ?_
    | with_reducible refine Grows.ofOpt (by assumption) ?_ | intro _ | split | dsimp only

theorem ctxSetWord_grows {z0 : State} {s : State} {k m v : Nat} (hg : Grows z0 s) :
    Grows z0 (ctxSetWord s k m v) := by
  unfold ctxSetWord
  repeat' first
    | with_reducible exact hg | with_reducible assumption | with_reducible apply setWord_grows
    | fail_if_no_progress (with_reducible refine mk_grows ?_ rfl)
    | with_reducible refine Grows.pair2 (by assumption) ?_
    | with_reducible refine Grows.pair1 (by assumption) ?_
    | with_reducible refine Grows.ofOpt (by assumption) ?_ | intro _ | split | dsimp only

theorem markDirty_grows {z0 : State} {s : State} {k : Nat} (hg : Grows z0 s) :
    Grows z0 (markDirty s k) := by
  unfold markDirty
  repeat' first
    | with_reducible exact hg | with_reducible assumption
    | fail_if_no_progress (with_reducible refine mk_grows ?_ rfl)
    | with_reducible refine Grows.pair2 (by assumption) ?_
    | with_reducible refine Grows.pair1 (by assumption) ?_
    | with_reducible refine Grows.ofOpt (by assumption) ?_ | intro _ | split | dsimp only

theorem ntWrite_grows {z0 : State} {s : State} {i v : Nat} (hg : Grows z0 s) :
    Grows z0 (ntWrite s i v) := by
  unfold ntWrite
  repeat' first
    | with_reducible exact hg | with_reducible assumption | with_reducible apply setOctets_grows
    | fail_if_no_progress (with_reducible refine mk_grows ?_ rfl)
    | with_reducible refine Grows.pair2 (by assumption) ?_
    | with_reducible refine Grows.pair1 (by assumption) ?_
    | with_reducible refine Grows.ofOpt (by assumption) ?_ | intro _ | split | dsimp only

theorem nset_grows {z0 : State} {s : State} {i : Nat} {f : NFld} {v : Nat} (hg : Grows z0 s) :
    Grows z0 (nset s i f v) := by
  unfold nset
  repeat' first
    | with_reducible exact hg | with_reducible assumption | with_reducible apply ntWrite_grows
    | fail_if_no_progress (with_reducible refine mk_grows ?_ rfl)
    | with_reducible refine Grows.pair2 (by assumption) ?_
    | with_reducible refine Grows.pair1 (by assumption) ?_
    | with_reducible refine Grows.ofOpt (by assumption) ?_ | intro _ | split | dsimp only

theorem poolTake_grows {z0 : State} {s : State} {p n : Nat} (hg : Grows z0 s) :
    Grows z0 (poolTake s p n) := by
  unfold poolTake
  repeat' first
    | with_reducible exact hg | with_reducible assumption | with_reducible apply set_grows
    | fail_if_no_progress (with_reducible refine mk_grows ?_ rfl)
    | with_reducible refine Grows.pair2 (by assumption) ?_
    | with_reducible refine Grows.pair1 (by assumption) ?_
    | with_reducible refine Grows.ofOpt (by assumption) ?_ | intro _ | split | dsimp only

theorem poolGive_grows {z0 : State} {s : State} {p n : Nat} (hg : Grows z0 s) :
    Grows z0 (poolGive s p n) := by
  unfold poolGive
  repeat' first
    | with_reducible exact hg | with_reducible assumption | with_reducible apply set_grows
    | with_reducible apply emit_grows | fail_if_no_progress (with_reducible refine mk_grows ?_ rfl)
    | with_reducible refine Grows.pair2 (by assumption) ?_
    | with_reducible refine Grows.pair1 (by assumption) ?_
    | with_reducible refine Grows.ofOpt (by assumption) ?_ | intro _ | split | dsimp only

theorem raiseFirst_grows {z0 : State} {s : State} {ev : Nat} {a0 a1 a2 : Nat} (hg : Grows z0 s) :
    Grows z0 (raiseFirst s ev a0 a1 a2) := by
  unfold raiseFirst
  repeat' first
    | with_reducible exact hg | with_reducible assumption | with_reducible apply raise_grows
    | fail_if_no_progress (with_reducible refine mk_grows ?_ rfl)
    | with_reducible refine Grows.pair2 (by assumption) ?_
    | with_reducible refine Grows.pair1 (by assumption) ?_
    | with_reducible refine Grows.ofOpt (by assumption) ?_ | intro _ | split | dsimp only

/-! ### HifOps -/

theorem ringEnable_grows {z0 : State} {s : State} {r : Nat} (hg : Grows z0 s) :
    Grows z0 (ringEnable s r) := by
  unfold ringEnable
  repeat' first
    | with_reducible exact hg | with_reducible assumption | with_reducible apply set_grows
    | with_reducible apply setRing_grows | with_reducible apply claimAll_grows
    | fail_if_no_progress (with_reducible refine mk_grows ?_ rfl)
    | with_reducible refine Grows.pair2 (by assumption) ?_
    | with_reducible refine Grows.pair1 (by assumption) ?_
    | with_reducible refine Grows.ofOpt (by assumption) ?_ | intro _ | split | dsimp only

theorem ringDisable_grows {z0 : State} {s : State} {r : Nat} (hg : Grows z0 s) :
    Grows z0 (ringDisable s r) := by
  unfold ringDisable
  repeat' first
    | with_reducible exact hg | with_reducible assumption | with_reducible apply set_grows
    | with_reducible apply onRing_grows | with_reducible apply releaseAll_grows
    | fail_if_no_progress (with_reducible refine mk_grows ?_ rfl)
    | with_reducible refine Grows.pair2 (by assumption) ?_
    | with_reducible refine Grows.pair1 (by assumption) ?_
    | with_reducible refine Grows.ofOpt (by assumption) ?_ | intro _ | split | dsimp only

theorem ringHalt_grows {z0 : State} {s : State} {r code addr : Nat} {ev : Nat} (hg : Grows z0 s) :
    Grows z0 (ringHalt s r code addr ev) := by
  unfold ringHalt
  repeat' first
    | with_reducible exact hg | with_reducible assumption | with_reducible apply onRing_grows
    | with_reducible apply raise_grows | fail_if_no_progress (with_reducible refine mk_grows ?_ rfl)
    | with_reducible refine Grows.pair2 (by assumption) ?_
    | with_reducible refine Grows.pair1 (by assumption) ?_
    | with_reducible refine Grows.ofOpt (by assumption) ?_ | intro _ | split | dsimp only

theorem doorbell_grows {z0 : State} {s : State} {r : Nat} {cluster : Bool} {low : Option (Nat × Bool)} {cidx : Option Nat} (hg : Grows z0 s) :
    Grows z0 (doorbell s r cluster low cidx) := by
  unfold doorbell
  repeat' first
    | with_reducible exact hg | with_reducible assumption | with_reducible apply setRing_grows
    | with_reducible apply bump_grows | with_reducible apply raise_grows
    | fail_if_no_progress (with_reducible refine mk_grows ?_ rfl)
    | with_reducible refine Grows.pair2 (by assumption) ?_
    | with_reducible refine Grows.pair1 (by assumption) ?_
    | with_reducible refine Grows.ofOpt (by assumption) ?_ | intro _ | split | dsimp only

theorem pageAccess_grows {z0 : State} {s : State} {off : Nat} {cluster : Bool} {a : PageAccess} {w v : Word} (hg : Grows z0 s) :
    Grows z0 (pageAccess s off cluster a w v) := by
  unfold pageAccess
  repeat' first
    | with_reducible exact hg | with_reducible assumption | with_reducible apply doorbell_grows
    | fail_if_no_progress (with_reducible refine mk_grows ?_ rfl)
    | with_reducible refine Grows.pair2 (by assumption) ?_
    | with_reducible refine Grows.pair1 (by assumption) ?_
    | with_reducible refine Grows.ofOpt (by assumption) ?_ | intro _ | split | dsimp only

theorem descriptorFetch_grows {z0 : State} {s : State} {r : Nat} {descs : List (List Byte)} (hg : Grows z0 s) :
    Grows z0 (descriptorFetch s r descs) := by
  unfold descriptorFetch
  repeat' first
    | with_reducible exact hg | with_reducible assumption | with_reducible apply onRing_grows
    | fail_if_no_progress (with_reducible refine mk_grows ?_ rfl)
    | with_reducible refine Grows.pair2 (by assumption) ?_
    | with_reducible refine Grows.pair1 (by assumption) ?_
    | with_reducible refine Grows.ofOpt (by assumption) ?_ | intro _ | split | dsimp only

theorem consume_grows {z0 : State} {s : State} {r n : Nat} (hg : Grows z0 s) :
    Grows z0 (consume s r n) := by
  unfold consume
  repeat' first
    | with_reducible exact hg | with_reducible assumption | with_reducible apply onRing_grows
    | with_reducible apply memOut_grows | fail_if_no_progress (with_reducible refine mk_grows ?_ rfl)
    | with_reducible refine Grows.pair2 (by assumption) ?_
    | with_reducible refine Grows.pair1 (by assumption) ?_
    | with_reducible refine Grows.ofOpt (by assumption) ?_ | intro _ | split | dsimp only

theorem completeLater_grows {z0 : State} {s : State} {host : Option (Nat × Nat)} {c : Completion} (hg : Grows z0 s) :
    Grows z0 (completeLater s host c) := by
  unfold completeLater
  repeat' first
    | with_reducible exact hg | with_reducible assumption | with_reducible apply onRing_grows
    | fail_if_no_progress (with_reducible refine mk_grows ?_ rfl)
    | with_reducible refine Grows.pair2 (by assumption) ?_
    | with_reducible refine Grows.pair1 (by assumption) ?_
    | with_reducible refine Grows.ofOpt (by assumption) ?_ | intro _ | split | dsimp only

theorem complete_grows {z0 : State} {s : State} {host : Option (Nat × Nat)} {c : Completion} (hg : Grows z0 s) :
    Grows z0 (complete s host c) := by
  unfold complete
  repeat' first
    | with_reducible exact hg | with_reducible assumption | with_reducible apply onRing_grows
    | with_reducible apply bump_grows | with_reducible apply memOut_grows | with_reducible apply ringCause_grows
    | with_reducible apply tsfTake_grows | fail_if_no_progress (with_reducible refine mk_grows ?_ rfl)
    | with_reducible refine Grows.pair2 (by assumption) ?_
    | with_reducible refine Grows.pair1 (by assumption) ?_
    | with_reducible refine Grows.ofOpt (by assumption) ?_ | intro _ | split | dsimp only

theorem fillDescs_grows {s0 : State} {s : State} {r : Nat} {f : EscFrame} {k : Nat} {b : Bool} {l : List Byte}
    {d : List (Nat × Nat)} (h : Grows s0 s) : Grows s0 (fillDescs s r f k b l d) := by
  induction d generalizing s k b l with
  | nil => cases k <;> exact h
  | cons a d ih =>
    obtain ⟨addr, len⟩ := a
    cases k with
    | zero => exact h
    | succ k =>
      simp only [fillDescs]
      split
      · exact onRing_grows (memOut_grows (memOut_grows h))
      · exact ih (onRing_grows (memOut_grows (memOut_grows h)))

theorem hostDeliver_grows {z0 : State} {s : State} {f : EscFrame} {posted : List (Nat × Nat)} (hg : Grows z0 s) :
    Grows z0 (hostDeliver s f posted).2 := by
  unfold hostDeliver
  repeat' first
    | with_reducible exact hg | with_reducible assumption | with_reducible apply bump_grows
    | with_reducible apply ringCause_grows | with_reducible apply ringHalt_grows
    | with_reducible apply consume_grows | with_reducible apply fillDescs_grows
    | fail_if_no_progress (with_reducible refine mk_grows ?_ rfl)
    | with_reducible refine Grows.pair2 (by assumption) ?_
    | with_reducible refine Grows.pair1 (by assumption) ?_
    | with_reducible refine Grows.ofOpt (by assumption) ?_ | intro _ | split | dsimp only

theorem evtSwraise_grows {z0 : State} {s : State} {ev : Nat} (hg : Grows z0 s) :
    Grows z0 (evtSwraise s ev) := by
  unfold evtSwraise
  repeat' first
    | with_reducible exact hg | with_reducible assumption | with_reducible apply raiseSw_grows
    | fail_if_no_progress (with_reducible refine mk_grows ?_ rfl)
    | with_reducible refine Grows.pair2 (by assumption) ?_
    | with_reducible refine Grows.pair1 (by assumption) ?_
    | with_reducible refine Grows.ofOpt (by assumption) ?_ | intro _ | split | dsimp only

theorem coalesceTimeout_grows {z0 : State} {s : State} {v : Nat} (hg : Grows z0 s) :
    Grows z0 (coalesceTimeout s v) := by
  unfold coalesceTimeout
  repeat' first
    | with_reducible exact hg | with_reducible assumption | with_reducible apply vecFire_grows
    | fail_if_no_progress (with_reducible refine mk_grows ?_ rfl)
    | with_reducible refine Grows.pair2 (by assumption) ?_
    | with_reducible refine Grows.pair1 (by assumption) ?_
    | with_reducible refine Grows.ofOpt (by assumption) ?_ | intro _ | split | dsimp only

theorem msixSend_grows {z0 : State} {s : State} (hg : Grows z0 s) :
    Grows z0 (msixSend s) := by
  unfold msixSend
  repeat' first
    | with_reducible exact hg | with_reducible assumption | with_reducible apply msixFire_grows
    | fail_if_no_progress (with_reducible refine mk_grows ?_ rfl)
    | with_reducible refine Grows.pair2 (by assumption) ?_
    | with_reducible refine Grows.pair1 (by assumption) ?_
    | with_reducible refine Grows.ofOpt (by assumption) ?_
    | with_reducible refine Grows.fold ?_ (fun _ _ _ => ?_)
    | with_reducible refine Grows.fold2 ?_ (fun _ _ _ => ?_)
    | with_reducible refine Grows.fold1 ?_ (fun _ _ _ => ?_) | intro _ | split | dsimp only

theorem msixWrite_grows {z0 : State} {s : State} {off : Nat} {w : Word} (hg : Grows z0 s) :
    Grows z0 (msixWrite s off w) := by
  unfold msixWrite
  repeat' first
    | with_reducible exact hg | with_reducible assumption | with_reducible apply msixSend_grows
    | fail_if_no_progress (with_reducible refine mk_grows ?_ rfl)
    | with_reducible refine Grows.pair2 (by assumption) ?_
    | with_reducible refine Grows.pair1 (by assumption) ?_
    | with_reducible refine Grows.ofOpt (by assumption) ?_ | intro _ | split | dsimp only

theorem vectorUnmask_grows {z0 : State} {s : State} {x : MsixAccess} (hg : Grows z0 s) :
    Grows z0 (vectorUnmask s x) := by
  unfold vectorUnmask
  repeat' first
    | with_reducible exact hg | with_reducible assumption | with_reducible apply setb_grows
    | with_reducible apply msixSend_grows | with_reducible apply msixWrite_grows
    | fail_if_no_progress (with_reducible refine mk_grows ?_ rfl)
    | with_reducible refine Grows.pair2 (by assumption) ?_
    | with_reducible refine Grows.pair1 (by assumption) ?_
    | with_reducible refine Grows.ofOpt (by assumption) ?_ | intro _ | split | dsimp only

theorem hifReset_grows {z0 : State} {s : State} (hg : Grows z0 s) :
    Grows z0 (hifReset s) := by
  unfold hifReset
  repeat' first
    | with_reducible exact hg | with_reducible assumption | with_reducible apply ringDisable_grows
    | fail_if_no_progress (with_reducible refine mk_grows ?_ rfl)
    | with_reducible refine Grows.pair2 (by assumption) ?_
    | with_reducible refine Grows.pair1 (by assumption) ?_
    | with_reducible refine Grows.ofOpt (by assumption) ?_
    | with_reducible refine Grows.fold ?_ (fun _ _ _ => ?_)
    | with_reducible refine Grows.fold2 ?_ (fun _ _ _ => ?_)
    | with_reducible refine Grows.fold1 ?_ (fun _ _ _ => ?_) | intro _ | split | dsimp only

theorem dmaErrorRing_grows {z0 : State} {s : State} {r addr : Nat} (hg : Grows z0 s) :
    Grows z0 (dmaErrorRing s r addr) := by
  unfold dmaErrorRing
  repeat' first
    | with_reducible exact hg | with_reducible assumption | with_reducible apply bump_grows
    | with_reducible apply ringHalt_grows | fail_if_no_progress (with_reducible refine mk_grows ?_ rfl)
    | with_reducible refine Grows.pair2 (by assumption) ?_
    | with_reducible refine Grows.pair1 (by assumption) ?_
    | with_reducible refine Grows.ofOpt (by assumption) ?_ | intro _ | split | dsimp only

/-! ### ChrTag -/

theorem histFrame_grows {z0 : State} {s : State} {u : Nat} {f : TagStages} (hg : Grows z0 s) :
    Grows z0 (histFrame s u f) := by
  unfold histFrame
  repeat' first
    | with_reducible exact hg | with_reducible assumption | with_reducible apply bump_grows
    | with_reducible apply histBin_grows | fail_if_no_progress (with_reducible refine mk_grows ?_ rfl)
    | with_reducible refine Grows.pair2 (by assumption) ?_
    | with_reducible refine Grows.pair1 (by assumption) ?_
    | with_reducible refine Grows.ofOpt (by assumption) ?_ | intro _ | split | dsimp only

theorem markNew_grows {z0 : State} {s : State} {up : Bool} {ingress : Nat} (hg : Grows z0 s) :
    Grows z0 (markNew s up ingress).2 := by
  unfold markNew
  repeat' first
    | with_reducible exact hg | with_reducible assumption | with_reducible apply set_grows
    | with_reducible apply drawRandom_grows | with_reducible apply bump_grows
    | fail_if_no_progress (with_reducible refine mk_grows ?_ rfl)
    | with_reducible refine Grows.pair2 (by assumption) ?_
    | with_reducible refine Grows.pair1 (by assumption) ?_
    | with_reducible refine Grows.ofOpt (by assumption) ?_ | intro _ | split | dsimp only

theorem markStage_grows {z0 : State} {s : State} {mark : Option Nat} {k : Nat} {at_ : Nat} (hg : Grows z0 s) :
    Grows z0 (markStage s mark k at_) := by
  unfold markStage
  repeat' first
    | with_reducible exact hg | with_reducible assumption
    | fail_if_no_progress (with_reducible refine mk_grows ?_ rfl)
    | with_reducible refine Grows.pair2 (by assumption) ?_
    | with_reducible refine Grows.pair1 (by assumption) ?_
    | with_reducible refine Grows.ofOpt (by assumption) ?_ | intro _ | split | dsimp only

theorem markCtx_grows {z0 : State} {s : State} {mark : Option Nat} {ctx : Option Nat} (hg : Grows z0 s) :
    Grows z0 (markCtx s mark ctx) := by
  unfold markCtx
  repeat' first
    | with_reducible exact hg | with_reducible assumption
    | fail_if_no_progress (with_reducible refine mk_grows ?_ rfl)
    | with_reducible refine Grows.pair2 (by assumption) ?_
    | with_reducible refine Grows.pair1 (by assumption) ?_
    | with_reducible refine Grows.ofOpt (by assumption) ?_ | intro _ | split | dsimp only

theorem trecPush_grows {z0 : State} {s : State} {r : List Nat} (hg : Grows z0 s) :
    Grows z0 (trecPush s r) := by
  unfold trecPush
  repeat' first
    | with_reducible exact hg | with_reducible assumption | with_reducible apply set_grows
    | with_reducible apply raise_grows | fail_if_no_progress (with_reducible refine mk_grows ?_ rfl)
    | with_reducible refine Grows.pair2 (by assumption) ?_
    | with_reducible refine Grows.pair1 (by assumption) ?_
    | with_reducible refine Grows.ofOpt (by assumption) ?_ | intro _ | split | dsimp only

theorem markEnd_grows {z0 : State} {s : State} {mark : Option Nat} {dropped : Bool} (hg : Grows z0 s) :
    Grows z0 (markEnd s mark dropped) := by
  unfold markEnd
  repeat' first
    | with_reducible exact hg | with_reducible assumption | with_reducible apply set_grows
    | with_reducible apply histFrame_grows | with_reducible apply trecPush_grows
    | fail_if_no_progress (with_reducible refine mk_grows ?_ rfl)
    | with_reducible refine Grows.pair2 (by assumption) ?_
    | with_reducible refine Grows.pair1 (by assumption) ?_
    | with_reducible refine Grows.ofOpt (by assumption) ?_
    | with_reducible refine Grows.fold ?_ (fun _ _ _ => ?_)
    | with_reducible refine Grows.fold2 ?_ (fun _ _ _ => ?_)
    | with_reducible refine Grows.fold1 ?_ (fun _ _ _ => ?_) | intro _ | split | dsimp only

theorem marksEnd_grows {z0 : State} {s : State} {marks : List Nat} {dropped : Bool} (hg : Grows z0 s) :
    Grows z0 (marksEnd s marks dropped) := by
  unfold marksEnd
  repeat' first
    | with_reducible exact hg | with_reducible assumption | with_reducible apply markEnd_grows
    | fail_if_no_progress (with_reducible refine mk_grows ?_ rfl)
    | with_reducible refine Grows.pair2 (by assumption) ?_
    | with_reducible refine Grows.pair1 (by assumption) ?_
    | with_reducible refine Grows.ofOpt (by assumption) ?_
    | with_reducible refine Grows.fold ?_ (fun _ _ _ => ?_)
    | with_reducible refine Grows.fold2 ?_ (fun _ _ _ => ?_)
    | with_reducible refine Grows.fold1 ?_ (fun _ _ _ => ?_) | intro _ | split | dsimp only

theorem trecPop_grows {z0 : State} {s : State} (hg : Grows z0 s) :
    Grows z0 (trecPop s) := by
  unfold trecPop
  repeat' first
    | with_reducible exact hg | with_reducible assumption | with_reducible apply set_grows
    | with_reducible apply raise_grows | fail_if_no_progress (with_reducible refine mk_grows ?_ rfl)
    | with_reducible refine Grows.pair2 (by assumption) ?_
    | with_reducible refine Grows.pair1 (by assumption) ?_
    | with_reducible refine Grows.ofOpt (by assumption) ?_ | intro _ | split | dsimp only

/-! ### EscQ -/

theorem showTok_grows {z0 : State} {s : State} {f : Fld} {tok : Int} (hg : Grows z0 s) :
    Grows z0 (showTok s f tok) := by
  unfold showTok
  repeat' first
    | with_reducible exact hg | with_reducible assumption | with_reducible apply set_grows
    | with_reducible apply sset_grows | with_reducible apply drawFree_grows
    | fail_if_no_progress (with_reducible refine mk_grows ?_ rfl)
    | with_reducible refine Grows.pair2 (by assumption) ?_
    | with_reducible refine Grows.pair1 (by assumption) ?_
    | with_reducible refine Grows.ofOpt (by assumption) ?_ | intro _ | split | dsimp only

theorem setBkt_grows {z0 : State} {s : State} {k : Nat} {b : Bucket} (hg : Grows z0 s) :
    Grows z0 (setBkt s k b) := by
  unfold setBkt
  repeat' first
    | with_reducible exact hg | with_reducible assumption | with_reducible apply onEsc_grows
    | with_reducible apply showTok_grows | fail_if_no_progress (with_reducible refine mk_grows ?_ rfl)
    | with_reducible refine Grows.pair2 (by assumption) ?_
    | with_reducible refine Grows.pair1 (by assumption) ?_
    | with_reducible refine Grows.ofOpt (by assumption) ?_ | intro _ | split | dsimp only

theorem bktAccess_grows {z0 : State} {s : State} {k : Nat} (hg : Grows z0 s) :
    Grows z0 (bktAccess s k) := by
  unfold bktAccess
  repeat' first
    | with_reducible exact hg | with_reducible assumption | with_reducible apply setBkt_grows
    | fail_if_no_progress (with_reducible refine mk_grows ?_ rfl)
    | with_reducible refine Grows.pair2 (by assumption) ?_
    | with_reducible refine Grows.pair1 (by assumption) ?_
    | with_reducible refine Grows.ofOpt (by assumption) ?_ | intro _ | split | dsimp only

theorem bktCharge_grows {z0 : State} {s : State} {k len : Nat} (hg : Grows z0 s) :
    Grows z0 (bktCharge s k len) := by
  unfold bktCharge
  repeat' first
    | with_reducible exact hg | with_reducible assumption | with_reducible apply setBkt_grows
    | with_reducible apply bktAccess_grows | fail_if_no_progress (with_reducible refine mk_grows ?_ rfl)
    | with_reducible refine Grows.pair2 (by assumption) ?_
    | with_reducible refine Grows.pair1 (by assumption) ?_
    | with_reducible refine Grows.ofOpt (by assumption) ?_ | intro _ | split | dsimp only

theorem subAccess_grows {z0 : State} {s : State} {k : Nat} (hg : Grows z0 s) :
    Grows z0 (subAccess s k) := by
  unfold subAccess
  repeat' first
    | with_reducible exact hg | with_reducible assumption | with_reducible apply cset_grows
    | with_reducible apply csset_grows | fail_if_no_progress (with_reducible refine mk_grows ?_ rfl)
    | with_reducible refine Grows.pair2 (by assumption) ?_
    | with_reducible refine Grows.pair1 (by assumption) ?_
    | with_reducible refine Grows.ofOpt (by assumption) ?_ | intro _ | split | dsimp only

theorem subCharge_grows {z0 : State} {s : State} {k len : Nat} (hg : Grows z0 s) :
    Grows z0 (subCharge s k len) := by
  unfold subCharge
  repeat' first
    | with_reducible exact hg | with_reducible assumption | with_reducible apply csset_grows
    | with_reducible apply subAccess_grows | fail_if_no_progress (with_reducible refine mk_grows ?_ rfl)
    | with_reducible refine Grows.pair2 (by assumption) ?_
    | with_reducible refine Grows.pair1 (by assumption) ?_
    | with_reducible refine Grows.ofOpt (by assumption) ?_ | intro _ | split | dsimp only

theorem adoptionPass_grows {z0 : State} {s : State} {j : Nat} (hg : Grows z0 s) :
    Grows z0 (adoptionPass s j) := by
  unfold adoptionPass
  repeat' first
    | with_reducible exact hg | with_reducible assumption | with_reducible apply subAccess_grows
    | fail_if_no_progress (with_reducible refine mk_grows ?_ rfl)
    | with_reducible refine Grows.pair2 (by assumption) ?_
    | with_reducible refine Grows.pair1 (by assumption) ?_
    | with_reducible refine Grows.ofOpt (by assumption) ?_
    | with_reducible refine Grows.fold ?_ (fun _ _ _ => ?_)
    | with_reducible refine Grows.fold2 ?_ (fun _ _ _ => ?_)
    | with_reducible refine Grows.fold1 ?_ (fun _ _ _ => ?_) | intro _ | split | dsimp only

theorem genBump_grows {z0 : State} {s : State} {j : Nat} (hg : Grows z0 s) :
    Grows z0 (genBump s j) := by
  unfold genBump
  repeat' first
    | with_reducible exact hg | with_reducible assumption | with_reducible apply onEsc_grows
    | with_reducible apply adoptionPass_grows | fail_if_no_progress (with_reducible refine mk_grows ?_ rfl)
    | with_reducible refine Grows.pair2 (by assumption) ?_
    | with_reducible refine Grows.pair1 (by assumption) ?_
    | with_reducible refine Grows.ofOpt (by assumption) ?_ | intro _ | split | dsimp only

theorem hopsMoved_grows {z0 : State} {s0 s : State} {l : List EscFrame} (hg : Grows z0 s) :
    Grows z0 (hopsMoved s0 s l) := by
  unfold hopsMoved
  repeat' first
    | with_reducible exact hg | with_reducible assumption
    | fail_if_no_progress (with_reducible refine mk_grows ?_ rfl)
    | with_reducible refine Grows.pair2 (by assumption) ?_
    | with_reducible refine Grows.pair1 (by assumption) ?_
    | with_reducible refine Grows.ofOpt (by assumption) ?_
    | with_reducible refine Grows.fold ?_ (fun _ _ _ => ?_)
    | with_reducible refine Grows.fold2 ?_ (fun _ _ _ => ?_)
    | with_reducible refine Grows.fold1 ?_ (fun _ _ _ => ?_) | intro _ | split | dsimp only

theorem setSubQueue_grows {z0 : State} {s0 : State} {k : Nat} {q : List EscFrame} (hg : Grows z0 s0) :
    Grows z0 (setSubQueue s0 k q) := by
  unfold setSubQueue
  repeat' first
    | with_reducible exact hg | with_reducible assumption | with_reducible apply onEsc_grows
    | with_reducible apply cset_grows | with_reducible apply hopsMoved_grows
    | fail_if_no_progress (with_reducible refine mk_grows ?_ rfl)
    | with_reducible refine Grows.pair2 (by assumption) ?_
    | with_reducible refine Grows.pair1 (by assumption) ?_
    | with_reducible refine Grows.ofOpt (by assumption) ?_ | intro _ | split | dsimp only

theorem stallCount_grows {z0 : State} {s : State} (hg : Grows z0 s) :
    Grows z0 (stallCount s) := by
  unfold stallCount
  repeat' first
    | with_reducible exact hg | with_reducible assumption | with_reducible apply onTwn_grows
    | with_reducible apply bumpQuiet_grows | fail_if_no_progress (with_reducible refine mk_grows ?_ rfl)
    | with_reducible refine Grows.pair2 (by assumption) ?_
    | with_reducible refine Grows.pair1 (by assumption) ?_
    | with_reducible refine Grows.ofOpt (by assumption) ?_ | intro _ | split | dsimp only

theorem creditStallEnd_grows {z0 : State} {s : State} (hg : Grows z0 s) :
    Grows z0 (creditStallEnd s) := by
  unfold creditStallEnd
  repeat' first
    | with_reducible exact hg | with_reducible assumption | with_reducible apply onTwn_grows
    | with_reducible apply stallCount_grows | fail_if_no_progress (with_reducible refine mk_grows ?_ rfl)
    | with_reducible refine Grows.pair2 (by assumption) ?_
    | with_reducible refine Grows.pair1 (by assumption) ?_
    | with_reducible refine Grows.ofOpt (by assumption) ?_ | intro _ | split | dsimp only

theorem creditSettle_grows {z0 : State} {s : State} (hg : Grows z0 s) :
    Grows z0 (creditSettle s) := by
  unfold creditSettle
  repeat' first
    | with_reducible exact hg | with_reducible assumption | with_reducible apply creditStallEnd_grows
    | fail_if_no_progress (with_reducible refine mk_grows ?_ rfl)
    | with_reducible refine Grows.pair2 (by assumption) ?_
    | with_reducible refine Grows.pair1 (by assumption) ?_
    | with_reducible refine Grows.ofOpt (by assumption) ?_ | intro _ | split | dsimp only

theorem setSvcQueue_grows {z0 : State} {s : State} {n : Nat} {q : List EscFrame} (hg : Grows z0 s) :
    Grows z0 (setSvcQueue s n q) := by
  unfold setSvcQueue
  repeat' first
    | with_reducible exact hg | with_reducible assumption | with_reducible apply onEsc_grows
    | with_reducible apply creditSettle_grows | fail_if_no_progress (with_reducible refine mk_grows ?_ rfl)
    | with_reducible refine Grows.pair2 (by assumption) ?_
    | with_reducible refine Grows.pair1 (by assumption) ?_
    | with_reducible refine Grows.ofOpt (by assumption) ?_ | intro _ | split | dsimp only

theorem airReport_grows {z0 : State} {s : State} {f : EscFrame} (hg : Grows z0 s) :
    Grows z0 (airReport s f).2 := by
  unfold airReport
  repeat' first
    | with_reducible exact hg | with_reducible assumption | with_reducible apply tsfPush_grows
    | fail_if_no_progress (with_reducible refine mk_grows ?_ rfl)
    | with_reducible refine Grows.pair2 (by assumption) ?_
    | with_reducible refine Grows.pair1 (by assumption) ?_
    | with_reducible refine Grows.ofOpt (by assumption) ?_ | intro _ | split | dsimp only

theorem escEnd_grows {z0 : State} {s : State} {f : EscFrame} {dropped : Bool} {c : Completion} (hg : Grows z0 s) :
    Grows z0 (escEnd s f dropped c) := by
  unfold escEnd
  repeat' first
    | with_reducible exact hg | with_reducible assumption | with_reducible apply poolGive_grows
    | with_reducible apply completeLater_grows | with_reducible apply complete_grows
    | with_reducible apply markStage_grows | with_reducible apply markEnd_grows
    | with_reducible apply airReport_grows | fail_if_no_progress (with_reducible refine mk_grows ?_ rfl)
    | with_reducible refine Grows.pair2 (by assumption) ?_
    | with_reducible refine Grows.pair1 (by assumption) ?_
    | with_reducible refine Grows.ofOpt (by assumption) ?_ | intro _ | split | dsimp only

theorem escDrop_grows {z0 : State} {s : State} {f : EscFrame} {status : Nat} (hg : Grows z0 s) :
    Grows z0 (escDrop s f status) := by
  unfold escDrop
  repeat' first
    | with_reducible exact hg | with_reducible assumption | with_reducible apply bump_grows
    | with_reducible apply escEnd_grows | fail_if_no_progress (with_reducible refine mk_grows ?_ rfl)
    | with_reducible refine Grows.pair2 (by assumption) ?_
    | with_reducible refine Grows.pair1 (by assumption) ?_
    | with_reducible refine Grows.ofOpt (by assumption) ?_ | intro _ | split | dsimp only

theorem escQueueFrame_grows {z0 : State} {s : State} {f : EscFrame} (hg : Grows z0 s) :
    Grows z0 (escQueueFrame s f).2 := by
  unfold escQueueFrame
  repeat' first
    | with_reducible exact hg | with_reducible assumption | with_reducible apply drawFree_grows
    | with_reducible apply poolTake_grows | with_reducible apply poolGive_grows
    | with_reducible apply raiseFirst_grows | with_reducible apply markStage_grows
    | with_reducible apply bktAccess_grows | with_reducible apply subAccess_grows
    | with_reducible apply setSubQueue_grows | with_reducible apply setSvcQueue_grows
    | with_reducible apply escDrop_grows | fail_if_no_progress (with_reducible refine mk_grows ?_ rfl)
    | with_reducible refine Grows.pair2 (by assumption) ?_
    | with_reducible refine Grows.pair1 (by assumption) ?_
    | with_reducible refine Grows.ofOpt (by assumption) ?_ | intro _ | split | dsimp only

theorem expireSub_grows {z0 : State} {s : State} {k : Nat} {port : EscFrame → Nat} (hg : Grows z0 s) :
    Grows z0 (expireSub s k port) := by
  unfold expireSub
  repeat' first
    | with_reducible exact hg | with_reducible assumption | with_reducible apply setSubQueue_grows
    | with_reducible apply escDrop_grows | fail_if_no_progress (with_reducible refine mk_grows ?_ rfl)
    | with_reducible refine Grows.pair2 (by assumption) ?_
    | with_reducible refine Grows.pair1 (by assumption) ?_
    | with_reducible refine Grows.ofOpt (by assumption) ?_
    | with_reducible refine Grows.fold ?_ (fun _ _ _ => ?_)
    | with_reducible refine Grows.fold2 ?_ (fun _ _ _ => ?_)
    | with_reducible refine Grows.fold1 ?_ (fun _ _ _ => ?_) | intro _ | split | dsimp only

theorem expireSvc_grows {z0 : State} {s : State} {n : Nat} (hg : Grows z0 s) :
    Grows z0 (expireSvc s n) := by
  unfold expireSvc
  repeat' first
    | with_reducible exact hg | with_reducible assumption | with_reducible apply setSvcQueue_grows
    | with_reducible apply escDrop_grows | fail_if_no_progress (with_reducible refine mk_grows ?_ rfl)
    | with_reducible refine Grows.pair2 (by assumption) ?_
    | with_reducible refine Grows.pair1 (by assumption) ?_
    | with_reducible refine Grows.ofOpt (by assumption) ?_
    | with_reducible refine Grows.fold ?_ (fun _ _ _ => ?_)
    | with_reducible refine Grows.fold2 ?_ (fun _ _ _ => ?_)
    | with_reducible refine Grows.fold1 ?_ (fun _ _ _ => ?_) | intro _ | split | dsimp only

theorem expireAll_grows {z0 : State} {s : State} (hg : Grows z0 s) :
    Grows z0 (expireAll s) := by
  unfold expireAll
  repeat' first
    | with_reducible exact hg | with_reducible assumption | with_reducible apply expireSub_grows
    | with_reducible apply expireSvc_grows | fail_if_no_progress (with_reducible refine mk_grows ?_ rfl)
    | with_reducible refine Grows.pair2 (by assumption) ?_
    | with_reducible refine Grows.pair1 (by assumption) ?_
    | with_reducible refine Grows.ofOpt (by assumption) ?_
    | with_reducible refine Grows.fold ?_ (fun _ _ _ => ?_)
    | with_reducible refine Grows.fold2 ?_ (fun _ _ _ => ?_)
    | with_reducible refine Grows.fold1 ?_ (fun _ _ _ => ?_) | intro _ | split | dsimp only

theorem subFlush_grows {z0 : State} {s : State} {k : Nat} (hg : Grows z0 s) :
    Grows z0 (subFlush s k) := by
  unfold subFlush
  repeat' first
    | with_reducible exact hg | with_reducible assumption | with_reducible apply setSubQueue_grows
    | with_reducible apply escDrop_grows | fail_if_no_progress (with_reducible refine mk_grows ?_ rfl)
    | with_reducible refine Grows.pair2 (by assumption) ?_
    | with_reducible refine Grows.pair1 (by assumption) ?_
    | with_reducible refine Grows.ofOpt (by assumption) ?_
    | with_reducible refine Grows.fold ?_ (fun _ _ _ => ?_)
    | with_reducible refine Grows.fold2 ?_ (fun _ _ _ => ?_)
    | with_reducible refine Grows.fold1 ?_ (fun _ _ _ => ?_) | intro _ | split | dsimp only

theorem subRead_grows {z0 : State} {s : State} {k : Nat} (hg : Grows z0 s) :
    Grows z0 (subRead s k) := by
  unfold subRead
  repeat' first
    | with_reducible exact hg | with_reducible assumption | with_reducible apply set_grows
    | with_reducible apply setb_grows | with_reducible apply showTok_grows
    | fail_if_no_progress (with_reducible refine mk_grows ?_ rfl)
    | with_reducible refine Grows.pair2 (by assumption) ?_
    | with_reducible refine Grows.pair1 (by assumption) ?_
    | with_reducible refine Grows.ofOpt (by assumption) ?_ | intro _ | split | dsimp only

theorem subWrite_grows {z0 : State} {s : State} {k : Nat} (hg : Grows z0 s) :
    Grows z0 (subWrite s k) := by
  unfold subWrite
  repeat' first
    | with_reducible exact hg | with_reducible assumption | with_reducible apply set_grows
    | with_reducible apply cset_grows | with_reducible apply subAccess_grows
    | with_reducible apply genBump_grows | fail_if_no_progress (with_reducible refine mk_grows ?_ rfl)
    | with_reducible refine Grows.pair2 (by assumption) ?_
    | with_reducible refine Grows.pair1 (by assumption) ?_
    | with_reducible refine Grows.ofOpt (by assumption) ?_ | intro _ | split | dsimp only

theorem fusUpdate_grows {z0 : State} {s : State} {r : Nat} {f : Fusee} (hg : Grows z0 s) :
    Grows z0 (fusUpdate s r f) := by
  unfold fusUpdate
  repeat' first
    | with_reducible exact hg | with_reducible assumption | with_reducible apply set_grows
    | with_reducible apply onEsc_grows | with_reducible apply bump_grows | with_reducible apply raise_grows
    | fail_if_no_progress (with_reducible refine mk_grows ?_ rfl)
    | with_reducible refine Grows.pair2 (by assumption) ?_
    | with_reducible refine Grows.pair1 (by assumption) ?_
    | with_reducible refine Grows.ofOpt (by assumption) ?_ | intro _ | split | dsimp only

theorem fusBoundary_grows {z0 : State} {s : State} {band freq occHz : Nat} (hg : Grows z0 s) :
    Grows z0 (fusBoundary s band freq occHz) := by
  unfold fusBoundary
  repeat' first
    | with_reducible exact hg | with_reducible assumption | with_reducible apply takeEffect_grows
    | with_reducible apply fusUpdate_grows | fail_if_no_progress (with_reducible refine mk_grows ?_ rfl)
    | with_reducible refine Grows.pair2 (by assumption) ?_
    | with_reducible refine Grows.pair1 (by assumption) ?_
    | with_reducible refine Grows.ofOpt (by assumption) ?_
    | with_reducible refine Grows.fold ?_ (fun _ _ _ => ?_)
    | with_reducible refine Grows.fold2 ?_ (fun _ _ _ => ?_)
    | with_reducible refine Grows.fold1 ?_ (fun _ _ _ => ?_) | intro _ | split | dsimp only

theorem fusHoldFor_grows {z0 : State} {s : State} {band freq occHz a ref : Nat} (hg : Grows z0 s) :
    Grows z0 (fusHoldFor s band freq occHz a ref) := by
  unfold fusHoldFor
  repeat' first
    | with_reducible exact hg | with_reducible assumption | with_reducible apply fusUpdate_grows
    | fail_if_no_progress (with_reducible refine mk_grows ?_ rfl)
    | with_reducible refine Grows.pair2 (by assumption) ?_
    | with_reducible refine Grows.pair1 (by assumption) ?_
    | with_reducible refine Grows.ofOpt (by assumption) ?_
    | with_reducible refine Grows.fold ?_ (fun _ _ _ => ?_)
    | with_reducible refine Grows.fold2 ?_ (fun _ _ _ => ?_)
    | with_reducible refine Grows.fold1 ?_ (fun _ _ _ => ?_) | intro _ | split | dsimp only

theorem fusRelease_grows {z0 : State} {s : State} {ref : Nat} (hg : Grows z0 s) :
    Grows z0 (fusRelease s ref) := by
  unfold fusRelease
  repeat' first
    | with_reducible exact hg | with_reducible assumption | with_reducible apply fusUpdate_grows
    | fail_if_no_progress (with_reducible refine mk_grows ?_ rfl)
    | with_reducible refine Grows.pair2 (by assumption) ?_
    | with_reducible refine Grows.pair1 (by assumption) ?_
    | with_reducible refine Grows.ofOpt (by assumption) ?_
    | with_reducible refine Grows.fold ?_ (fun _ _ _ => ?_)
    | with_reducible refine Grows.fold2 ?_ (fun _ _ _ => ?_)
    | with_reducible refine Grows.fold1 ?_ (fun _ _ _ => ?_) | intro _ | split | dsimp only

theorem fusRadiated_grows {z0 : State} {s : State} {band freq occHz a : Nat} (hg : Grows z0 s) :
    Grows z0 (fusRadiated s band freq occHz a) := by
  unfold fusRadiated
  repeat' first
    | with_reducible exact hg | with_reducible assumption | with_reducible apply onEsc_grows
    | fail_if_no_progress (with_reducible refine mk_grows ?_ rfl)
    | with_reducible refine Grows.pair2 (by assumption) ?_
    | with_reducible refine Grows.pair1 (by assumption) ?_
    | with_reducible refine Grows.ofOpt (by assumption) ?_
    | with_reducible refine Grows.fold ?_ (fun _ _ _ => ?_)
    | with_reducible refine Grows.fold2 ?_ (fun _ _ _ => ?_)
    | with_reducible refine Grows.fold1 ?_ (fun _ _ _ => ?_) | intro _ | split | dsimp only

theorem fusShow_grows {z0 : State} {s : State} {band freq occHz : Nat} (hg : Grows z0 s) :
    Grows z0 (fusShow s band freq occHz) := by
  unfold fusShow
  repeat' first
    | with_reducible exact hg | with_reducible assumption | with_reducible apply fusUpdate_grows
    | fail_if_no_progress (with_reducible refine mk_grows ?_ rfl)
    | with_reducible refine Grows.pair2 (by assumption) ?_
    | with_reducible refine Grows.pair1 (by assumption) ?_
    | with_reducible refine Grows.ofOpt (by assumption) ?_
    | with_reducible refine Grows.fold ?_ (fun _ _ _ => ?_)
    | with_reducible refine Grows.fold2 ?_ (fun _ _ _ => ?_)
    | with_reducible refine Grows.fold1 ?_ (fun _ _ _ => ?_) | intro _ | split | dsimp only

theorem fusStart_grows {z0 : State} {s : State} {r : Nat} (hg : Grows z0 s) :
    Grows z0 (fusStart s r) := by
  unfold fusStart
  repeat' first
    | with_reducible exact hg | with_reducible assumption | with_reducible apply set_grows
    | with_reducible apply takeEffect_grows | with_reducible apply fusUpdate_grows
    | fail_if_no_progress (with_reducible refine mk_grows ?_ rfl)
    | with_reducible refine Grows.pair2 (by assumption) ?_
    | with_reducible refine Grows.pair1 (by assumption) ?_
    | with_reducible refine Grows.ofOpt (by assumption) ?_ | intro _ | split | dsimp only

theorem fuseeBinAdvance_grows {z0 : State} {s : State} {r : Nat} (hg : Grows z0 s) :
    Grows z0 (fuseeBinAdvance s r) := by
  unfold fuseeBinAdvance
  repeat' first
    | with_reducible exact hg | with_reducible assumption | with_reducible apply fusUpdate_grows
    | fail_if_no_progress (with_reducible refine mk_grows ?_ rfl)
    | with_reducible refine Grows.pair2 (by assumption) ?_
    | with_reducible refine Grows.pair1 (by assumption) ?_
    | with_reducible refine Grows.ofOpt (by assumption) ?_ | intro _ | split | dsimp only

/-! ### NtOps -/

theorem fwdParity_grows {z0 : State} {s : State} {table index ev : Nat} (hg : Grows z0 s) :
    Grows z0 (fwdParity s table index ev) := by
  unfold fwdParity
  repeat' first
    | with_reducible exact hg | with_reducible assumption | with_reducible apply set_grows
    | with_reducible apply bump_grows | with_reducible apply raise_grows
    | fail_if_no_progress (with_reducible refine mk_grows ?_ rfl)
    | with_reducible refine Grows.pair2 (by assumption) ?_
    | with_reducible refine Grows.pair1 (by assumption) ?_
    | with_reducible refine Grows.ofOpt (by assumption) ?_ | intro _ | split | dsimp only

theorem ntUpset_grows {z0 : State} {s : State} {is upset : List Nat} (hg : Grows z0 s) :
    Grows z0 (ntUpset s is upset) := by
  unfold ntUpset
  repeat' first
    | with_reducible exact hg | with_reducible assumption | with_reducible apply onFwd_grows
    | with_reducible apply fwdParity_grows | fail_if_no_progress (with_reducible refine mk_grows ?_ rfl)
    | with_reducible refine Grows.pair2 (by assumption) ?_
    | with_reducible refine Grows.pair1 (by assumption) ?_
    | with_reducible refine Grows.ofOpt (by assumption) ?_
    | with_reducible refine Grows.fold ?_ (fun _ _ _ => ?_)
    | with_reducible refine Grows.fold2 ?_ (fun _ _ _ => ?_)
    | with_reducible refine Grows.fold1 ?_ (fun _ _ _ => ?_) | intro _ | split | dsimp only

theorem ntRetry_grows {z0 : State} {s : State} (hg : Grows z0 s) :
    Grows z0 (ntRetry s) := by
  unfold ntRetry
  repeat' first
    | with_reducible exact hg | with_reducible assumption | with_reducible apply bump_grows
    | fail_if_no_progress (with_reducible refine mk_grows ?_ rfl)
    | with_reducible refine Grows.pair2 (by assumption) ?_
    | with_reducible refine Grows.pair1 (by assumption) ?_
    | with_reducible refine Grows.ofOpt (by assumption) ?_ | intro _ | split | dsimp only

theorem ntLookupPipe_grows {z0 : State} {s : State} {key kind : Nat} {upset : List Nat} (hg : Grows z0 s) :
    Grows z0 (ntLookupPipe s key kind upset).2 := by
  unfold ntLookupPipe
  repeat' first
    | with_reducible exact hg | with_reducible assumption | with_reducible apply bump_grows
    | with_reducible apply ntUpset_grows | with_reducible apply ntRetry_grows
    | fail_if_no_progress (with_reducible refine mk_grows ?_ rfl)
    | with_reducible refine Grows.pair2 (by assumption) ?_
    | with_reducible refine Grows.pair1 (by assumption) ?_
    | with_reducible refine Grows.ofOpt (by assumption) ?_ | intro _ | split | dsimp only

theorem ntResult_grows {z0 : State} {s : State} {r : Nat} (hg : Grows z0 s) :
    Grows z0 (ntResult s r) := by
  unfold ntResult
  repeat' first
    | with_reducible exact hg | with_reducible assumption | with_reducible apply set_grows
    | fail_if_no_progress (with_reducible refine mk_grows ?_ rfl)
    | with_reducible refine Grows.pair2 (by assumption) ?_
    | with_reducible refine Grows.pair1 (by assumption) ?_
    | with_reducible refine Grows.ofOpt (by assumption) ?_ | intro _ | split | dsimp only

theorem ntShow_grows {z0 : State} {s : State} {i : Nat} (hg : Grows z0 s) :
    Grows z0 (ntShow s i) := by
  unfold ntShow
  repeat' first
    | with_reducible exact hg | with_reducible assumption | with_reducible apply set_grows
    | fail_if_no_progress (with_reducible refine mk_grows ?_ rfl)
    | with_reducible refine Grows.pair2 (by assumption) ?_
    | with_reducible refine Grows.pair1 (by assumption) ?_
    | with_reducible refine Grows.ofOpt (by assumption) ?_
    | with_reducible refine Grows.fold ?_ (fun _ _ _ => ?_)
    | with_reducible refine Grows.fold2 ?_ (fun _ _ _ => ?_)
    | with_reducible refine Grows.fold1 ?_ (fun _ _ _ => ?_) | intro _ | split | dsimp only

theorem ntFill_grows {z0 : State} {s : State} {up : Bool} (hg : Grows z0 s) :
    Grows z0 (ntFill s up) := by
  unfold ntFill
  repeat' first
    | with_reducible exact hg | with_reducible assumption | with_reducible apply set_grows
    | fail_if_no_progress (with_reducible refine mk_grows ?_ rfl)
    | with_reducible refine Grows.pair2 (by assumption) ?_
    | with_reducible refine Grows.pair1 (by assumption) ?_
    | with_reducible refine Grows.ofOpt (by assumption) ?_ | intro _ | split | dsimp only

theorem addRefs_grows {z0 : State} {s : State} {i : Nat} {up : Bool} (hg : Grows z0 s) :
    Grows z0 (addRefs s i up) := by
  unfold addRefs
  repeat' first
    | with_reducible exact hg | with_reducible assumption | with_reducible apply nset_grows
    | fail_if_no_progress (with_reducible refine mk_grows ?_ rfl)
    | with_reducible refine Grows.pair2 (by assumption) ?_
    | with_reducible refine Grows.pair1 (by assumption) ?_
    | with_reducible refine Grows.ofOpt (by assumption) ?_ | intro _ | split | dsimp only

theorem ntLookup_grows {z0 : State} {s : State} {kind : Nat} {upset : List Nat} (hg : Grows z0 s) :
    Grows z0 (ntLookup s kind upset) := by
  unfold ntLookup
  repeat' first
    | with_reducible exact hg | with_reducible assumption | with_reducible apply set_grows
    | with_reducible apply ntUpset_grows | with_reducible apply ntResult_grows
    | with_reducible apply ntShow_grows | fail_if_no_progress (with_reducible refine mk_grows ?_ rfl)
    | with_reducible refine Grows.pair2 (by assumption) ?_
    | with_reducible refine Grows.pair1 (by assumption) ?_
    | with_reducible refine Grows.ofOpt (by assumption) ?_ | intro _ | split | dsimp only

theorem evictChain_grows {s0 : State} {n : Nat} {s : State} {b : Nat} {l u : List Nat} (h : Grows s0 s) :
    Grows s0 (evictChain n s b l u).2 := by
  induction n generalizing s b l with
  | zero => exact h
  | succ n ih =>
    unfold evictChain
    dsimp only
    split
    · exact h
    · split
      · exact ntUpset_grows (drawRandom_grows h)
      · exact ih (ntUpset_grows (drawRandom_grows h))

theorem ntMoved_grows {z0 : State} {s : State} (hg : Grows z0 s) :
    Grows z0 (ntMoved s) := by
  unfold ntMoved
  repeat' first
    | with_reducible exact hg | with_reducible assumption | with_reducible apply onFwd_grows
    | fail_if_no_progress (with_reducible refine mk_grows ?_ rfl)
    | with_reducible refine Grows.pair2 (by assumption) ?_
    | with_reducible refine Grows.pair1 (by assumption) ?_
    | with_reducible refine Grows.ofOpt (by assumption) ?_ | intro _ | split | dsimp only

theorem relocate_grows {s0 : State} {s : State} {l : List Nat} {f : Nat} (h : Grows s0 s) :
    Grows s0 (relocate s l f).1 := by
  induction l generalizing s f with
  | nil => exact h
  | cons v r ih =>
    unfold relocate
    extract_lets e s1
    have g : Grows s0 s1 := ntWrite_grows h
    clear_value s1 e
    exact ih (ntMoved_grows (bump_grows (nset_grows g)))

theorem ntPlace_grows {z0 : State} {s : State} {key kind : Nat} {upset : List Nat} (hg : Grows z0 s) :
    Grows z0 (ntPlace s key kind upset).2 := by
  unfold ntPlace
  repeat' first
    | with_reducible exact hg | with_reducible assumption | with_reducible apply evictChain_grows
    | with_reducible apply relocate_grows | fail_if_no_progress (with_reducible refine mk_grows ?_ rfl)
    | with_reducible refine Grows.pair2 (by assumption) ?_
    | with_reducible refine Grows.pair1 (by assumption) ?_
    | with_reducible refine Grows.ofOpt (by assumption) ?_ | intro _ | split | dsimp only

theorem tableFull_grows {z0 : State} {s : State} (hg : Grows z0 s) :
    Grows z0 (tableFull s) := by
  unfold tableFull
  repeat' first
    | with_reducible exact hg | with_reducible assumption | with_reducible apply bump_grows
    | with_reducible apply raise_grows | with_reducible apply ntResult_grows
    | fail_if_no_progress (with_reducible refine mk_grows ?_ rfl)
    | with_reducible refine Grows.pair2 (by assumption) ?_
    | with_reducible refine Grows.pair1 (by assumption) ?_
    | with_reducible refine Grows.ofOpt (by assumption) ?_ | intro _ | split | dsimp only

theorem ntInsertPrimary_grows {z0 : State} {s : State} {upset : List Nat} (hg : Grows z0 s) :
    Grows z0 (ntInsertPrimary s upset) := by
  unfold ntInsertPrimary
  repeat' first
    | with_reducible exact hg | with_reducible assumption | with_reducible apply set_grows
    | with_reducible apply ntWrite_grows | with_reducible apply ntUpset_grows
    | with_reducible apply ntResult_grows | with_reducible apply ntFill_grows
    | with_reducible apply ntPlace_grows | with_reducible apply tableFull_grows
    | fail_if_no_progress (with_reducible refine mk_grows ?_ rfl)
    | with_reducible refine Grows.pair2 (by assumption) ?_
    | with_reducible refine Grows.pair1 (by assumption) ?_
    | with_reducible refine Grows.ofOpt (by assumption) ?_ | intro _ | split | dsimp only

theorem ntDelete_grows {z0 : State} {s : State} {kind : Nat} {upset : List Nat} (hg : Grows z0 s) :
    Grows z0 (ntDelete s kind upset) := by
  unfold ntDelete
  repeat' first
    | with_reducible exact hg | with_reducible assumption | with_reducible apply set_grows
    | with_reducible apply nset_grows | with_reducible apply ntUpset_grows | with_reducible apply ntResult_grows
    | with_reducible apply ntFill_grows | with_reducible apply addRefs_grows
    | fail_if_no_progress (with_reducible refine mk_grows ?_ rfl)
    | with_reducible refine Grows.pair2 (by assumption) ?_
    | with_reducible refine Grows.pair1 (by assumption) ?_
    | with_reducible refine Grows.ofOpt (by assumption) ?_ | intro _ | split | dsimp only

theorem ntSetParent_grows {z0 : State} {s : State} {upset : List Nat} (hg : Grows z0 s) :
    Grows z0 (ntSetParent s upset) := by
  unfold ntSetParent
  repeat' first
    | with_reducible exact hg | with_reducible assumption | with_reducible apply nset_grows
    | with_reducible apply ntUpset_grows | with_reducible apply ntResult_grows
    | with_reducible apply addRefs_grows | fail_if_no_progress (with_reducible refine mk_grows ?_ rfl)
    | with_reducible refine Grows.pair2 (by assumption) ?_
    | with_reducible refine Grows.pair1 (by assumption) ?_
    | with_reducible refine Grows.ofOpt (by assumption) ?_ | intro _ | split | dsimp only

theorem ntInsertAlias_grows {z0 : State} {s : State} {upset : List Nat} (hg : Grows z0 s) :
    Grows z0 (ntInsertAlias s upset) := by
  unfold ntInsertAlias
  repeat' first
    | with_reducible exact hg | with_reducible assumption | with_reducible apply set_grows
    | with_reducible apply ntWrite_grows | with_reducible apply ntUpset_grows
    | with_reducible apply ntResult_grows | with_reducible apply ntFill_grows
    | with_reducible apply addRefs_grows | with_reducible apply ntPlace_grows
    | with_reducible apply tableFull_grows | fail_if_no_progress (with_reducible refine mk_grows ?_ rfl)
    | with_reducible refine Grows.pair2 (by assumption) ?_
    | with_reducible refine Grows.pair1 (by assumption) ?_
    | with_reducible refine Grows.ofOpt (by assumption) ?_ | intro _ | split | dsimp only

theorem ntRead_grows {z0 : State} {s : State} {upset : List Nat} (hg : Grows z0 s) :
    Grows z0 (ntRead s upset) := by
  unfold ntRead
  repeat' first
    | with_reducible exact hg | with_reducible assumption | with_reducible apply ntUpset_grows
    | with_reducible apply ntResult_grows | with_reducible apply ntShow_grows
    | fail_if_no_progress (with_reducible refine mk_grows ?_ rfl)
    | with_reducible refine Grows.pair2 (by assumption) ?_
    | with_reducible refine Grows.pair1 (by assumption) ?_
    | with_reducible refine Grows.ofOpt (by assumption) ?_ | intro _ | split | dsimp only

theorem ntRepair_grows {z0 : State} {s : State} {kind : Nat} {upset : List Nat} (hg : Grows z0 s) :
    Grows z0 (ntRepair s kind upset) := by
  unfold ntRepair
  repeat' first
    | with_reducible exact hg | with_reducible assumption | with_reducible apply set_grows
    | with_reducible apply onFwd_grows | with_reducible apply ntWrite_grows | with_reducible apply ntUpset_grows
    | with_reducible apply ntResult_grows | with_reducible apply ntFill_grows
    | fail_if_no_progress (with_reducible refine mk_grows ?_ rfl)
    | with_reducible refine Grows.pair2 (by assumption) ?_
    | with_reducible refine Grows.pair1 (by assumption) ?_
    | with_reducible refine Grows.ofOpt (by assumption) ?_ | intro _ | split | dsimp only

theorem ptUpset_grows {z0 : State} {s : State} {reads : PtEntry → Bool} {upset : List Nat} (hg : Grows z0 s) :
    Grows z0 (ptUpset s reads upset) := by
  unfold ptUpset
  repeat' first
    | with_reducible exact hg | with_reducible assumption | with_reducible apply onFwd_grows
    | with_reducible apply fwdParity_grows | fail_if_no_progress (with_reducible refine mk_grows ?_ rfl)
    | with_reducible refine Grows.pair2 (by assumption) ?_
    | with_reducible refine Grows.pair1 (by assumption) ?_
    | with_reducible refine Grows.ofOpt (by assumption) ?_
    | with_reducible refine Grows.fold ?_ (fun _ _ _ => ?_)
    | with_reducible refine Grows.fold2 ?_ (fun _ _ _ => ?_)
    | with_reducible refine Grows.fold1 ?_ (fun _ _ _ => ?_) | intro _ | split | dsimp only

theorem ptLookup_grows {z0 : State} {s : State} {key : Nat} {upset : List Nat} (hg : Grows z0 s) :
    Grows z0 (ptLookup s key upset).2 := by
  unfold ptLookup
  repeat' first
    | with_reducible exact hg | with_reducible assumption | with_reducible apply ptUpset_grows
    | fail_if_no_progress (with_reducible refine mk_grows ?_ rfl)
    | with_reducible refine Grows.pair2 (by assumption) ?_
    | with_reducible refine Grows.pair1 (by assumption) ?_
    | with_reducible refine Grows.ofOpt (by assumption) ?_ | intro _ | split | dsimp only

theorem ptResult_grows {z0 : State} {s : State} {r : Nat} (hg : Grows z0 s) :
    Grows z0 (ptResult s r) := by
  unfold ptResult
  repeat' first
    | with_reducible exact hg | with_reducible assumption | with_reducible apply set_grows
    | fail_if_no_progress (with_reducible refine mk_grows ?_ rfl)
    | with_reducible refine Grows.pair2 (by assumption) ?_
    | with_reducible refine Grows.pair1 (by assumption) ?_
    | with_reducible refine Grows.ofOpt (by assumption) ?_ | intro _ | split | dsimp only

theorem ptInsert_grows {z0 : State} {s : State} {plen : Nat} {upset : List Nat} (hg : Grows z0 s) :
    Grows z0 (ptInsert s plen upset) := by
  unfold ptInsert
  repeat' first
    | with_reducible exact hg | with_reducible assumption | with_reducible apply set_grows
    | with_reducible apply onFwd_grows | with_reducible apply ptUpset_grows
    | with_reducible apply ptResult_grows | fail_if_no_progress (with_reducible refine mk_grows ?_ rfl)
    | with_reducible refine Grows.pair2 (by assumption) ?_
    | with_reducible refine Grows.pair1 (by assumption) ?_
    | with_reducible refine Grows.ofOpt (by assumption) ?_
    | with_reducible refine Grows.fold ?_ (fun _ _ _ => ?_)
    | with_reducible refine Grows.fold2 ?_ (fun _ _ _ => ?_)
    | with_reducible refine Grows.fold1 ?_ (fun _ _ _ => ?_) | intro _ | split | dsimp only

theorem ptDelete_grows {z0 : State} {s : State} {i : Nat} {upset : List Nat} (hg : Grows z0 s) :
    Grows z0 (ptDelete s i upset) := by
  unfold ptDelete
  repeat' first
    | with_reducible exact hg | with_reducible assumption | with_reducible apply set_grows
    | with_reducible apply onFwd_grows | with_reducible apply ptUpset_grows
    | with_reducible apply ptResult_grows | fail_if_no_progress (with_reducible refine mk_grows ?_ rfl)
    | with_reducible refine Grows.pair2 (by assumption) ?_
    | with_reducible refine Grows.pair1 (by assumption) ?_
    | with_reducible refine Grows.ofOpt (by assumption) ?_ | intro _ | split | dsimp only

theorem ptRead_grows {z0 : State} {s : State} {i : Nat} {upset : Bool} (hg : Grows z0 s) :
    Grows z0 (ptRead s i upset) := by
  unfold ptRead
  repeat' first
    | with_reducible exact hg | with_reducible assumption | with_reducible apply set_grows
    | with_reducible apply onFwd_grows | with_reducible apply fwdParity_grows
    | with_reducible apply ptResult_grows | fail_if_no_progress (with_reducible refine mk_grows ?_ rfl)
    | with_reducible refine Grows.pair2 (by assumption) ?_
    | with_reducible refine Grows.pair1 (by assumption) ?_
    | with_reducible refine Grows.ofOpt (by assumption) ?_
    | with_reducible refine Grows.fold ?_ (fun _ _ _ => ?_)
    | with_reducible refine Grows.fold2 ?_ (fun _ _ _ => ?_)
    | with_reducible refine Grows.fold1 ?_ (fun _ _ _ => ?_) | intro _ | split | dsimp only

/-! ### CtxOps -/

theorem sweepStallCount_grows {z0 : State} {s : State} (hg : Grows z0 s) :
    Grows z0 (sweepStallCount s) := by
  unfold sweepStallCount
  repeat' first
    | with_reducible exact hg | with_reducible assumption | with_reducible apply onCtx_grows
    | with_reducible apply bumpQuiet_grows | fail_if_no_progress (with_reducible refine mk_grows ?_ rfl)
    | with_reducible refine Grows.pair2 (by assumption) ?_
    | with_reducible refine Grows.pair1 (by assumption) ?_
    | with_reducible refine Grows.ofOpt (by assumption) ?_ | intro _ | split | dsimp only

theorem stallOver_grows {z0 : State} {s : State} (hg : Grows z0 s) :
    Grows z0 (stallOver s) := by
  unfold stallOver
  repeat' first
    | with_reducible exact hg | with_reducible assumption | with_reducible apply onCtx_grows
    | with_reducible apply sweepStallCount_grows | fail_if_no_progress (with_reducible refine mk_grows ?_ rfl)
    | with_reducible refine Grows.pair2 (by assumption) ?_
    | with_reducible refine Grows.pair1 (by assumption) ?_
    | with_reducible refine Grows.ofOpt (by assumption) ?_ | intro _ | split | dsimp only

theorem stallRelease_grows {z0 : State} {s : State} (hg : Grows z0 s) :
    Grows z0 (stallRelease s) := by
  unfold stallRelease
  repeat' first
    | with_reducible exact hg | with_reducible assumption | with_reducible apply stallOver_grows
    | fail_if_no_progress (with_reducible refine mk_grows ?_ rfl)
    | with_reducible refine Grows.pair2 (by assumption) ?_
    | with_reducible refine Grows.pair1 (by assumption) ?_
    | with_reducible refine Grows.ofOpt (by assumption) ?_ | intro _ | split | dsimp only

theorem ctxParity_grows {z0 : State} {s : State} {k line : Nat} (hg : Grows z0 s) :
    Grows z0 (ctxParity s k line) := by
  unfold ctxParity
  repeat' first
    | with_reducible exact hg | with_reducible assumption | with_reducible apply set_grows
    | with_reducible apply onCtx_grows | with_reducible apply bump_grows | with_reducible apply raise_grows
    | with_reducible apply stallRelease_grows | fail_if_no_progress (with_reducible refine mk_grows ?_ rfl)
    | with_reducible refine Grows.pair2 (by assumption) ?_
    | with_reducible refine Grows.pair1 (by assumption) ?_
    | with_reducible refine Grows.ofOpt (by assumption) ?_ | intro _ | split | dsimp only

theorem ctxUpset_grows {z0 : State} {s : State} {k : Nat} {upset : Option Nat} (hg : Grows z0 s) :
    Grows z0 (ctxUpset s k upset) := by
  unfold ctxUpset
  repeat' first
    | with_reducible exact hg | with_reducible assumption | with_reducible apply ctxParity_grows
    | fail_if_no_progress (with_reducible refine mk_grows ?_ rfl)
    | with_reducible refine Grows.pair2 (by assumption) ?_
    | with_reducible refine Grows.pair1 (by assumption) ?_
    | with_reducible refine Grows.ofOpt (by assumption) ?_ | intro _ | split | dsimp only

theorem ctxEnable_grows {z0 : State} {s : State} (hg : Grows z0 s) :
    Grows z0 (ctxEnable s) := by
  unfold ctxEnable
  repeat' first
    | with_reducible exact hg | with_reducible assumption | with_reducible apply set_grows
    | with_reducible apply setb_grows | with_reducible apply takeEffect_grows | with_reducible apply onCtx_grows
    | fail_if_no_progress (with_reducible refine mk_grows ?_ rfl)
    | with_reducible refine Grows.pair2 (by assumption) ?_
    | with_reducible refine Grows.pair1 (by assumption) ?_
    | with_reducible refine Grows.ofOpt (by assumption) ?_ | intro _ | split | dsimp only

theorem ctxDisable_grows {z0 : State} {s : State} (hg : Grows z0 s) :
    Grows z0 (ctxDisable s) := by
  unfold ctxDisable
  repeat' first
    | with_reducible exact hg | with_reducible assumption | with_reducible apply set_grows
    | with_reducible apply onCtx_grows | with_reducible apply sweepStallCount_grows
    | fail_if_no_progress (with_reducible refine mk_grows ?_ rfl)
    | with_reducible refine Grows.pair2 (by assumption) ?_
    | with_reducible refine Grows.pair1 (by assumption) ?_
    | with_reducible refine Grows.ofOpt (by assumption) ?_ | intro _ | split | dsimp only

theorem ctxSelftestDone_grows {s0 : State} {s : State} {badBank : Option (Fin 32)} (h : Grows s0 s) :
    Grows s0 (ctxSelftestDone s badBank) := by
  unfold ctxSelftestDone
  split
  · exact h
  · have g : Grows s0 { s with store := [] } :=
      h.trans ⟨rfl, fun _ => rfl, id, id, id, fun x => ⟨x, Nat.le_refl _⟩, fun _ x => x, Nat.le_refl _⟩
    dsimp only
    split
    · exact set_grows (set_grows g)
    · exact raise_grows (set_grows (set_grows g))

theorem ctxResult_grows {z0 : State} {s : State} {r : Nat} (hg : Grows z0 s) :
    Grows z0 (ctxResult s r) := by
  unfold ctxResult
  repeat' first
    | with_reducible exact hg | with_reducible assumption | with_reducible apply set_grows
    | fail_if_no_progress (with_reducible refine mk_grows ?_ rfl)
    | with_reducible refine Grows.pair2 (by assumption) ?_
    | with_reducible refine Grows.pair1 (by assumption) ?_
    | with_reducible refine Grows.ofOpt (by assumption) ?_ | intro _ | split | dsimp only

theorem contextRead_grows {z0 : State} {s : State} {k : Nat} {upset : Option (Fin 3)} (hg : Grows z0 s) :
    Grows z0 (contextRead s k upset) := by
  unfold contextRead
  repeat' first
    | with_reducible exact hg | with_reducible assumption | with_reducible apply set_grows
    | with_reducible apply ctxParity_grows | with_reducible apply ctxResult_grows
    | fail_if_no_progress (with_reducible refine mk_grows ?_ rfl)
    | with_reducible refine Grows.pair2 (by assumption) ?_
    | with_reducible refine Grows.pair1 (by assumption) ?_
    | with_reducible refine Grows.ofOpt (by assumption) ?_
    | with_reducible refine Grows.fold ?_ (fun _ _ _ => ?_)
    | with_reducible refine Grows.fold2 ?_ (fun _ _ _ => ?_)
    | with_reducible refine Grows.fold1 ?_ (fun _ _ _ => ?_) | intro _ | split | dsimp only

theorem fbForget_grows {z0 : State} {s : State} {k : Nat} (hg : Grows z0 s) :
    Grows z0 (fbForget s k) := by
  unfold fbForget
  repeat' first
    | with_reducible exact hg | with_reducible assumption
    | fail_if_no_progress (with_reducible refine mk_grows ?_ rfl)
    | with_reducible refine Grows.pair2 (by assumption) ?_
    | with_reducible refine Grows.pair1 (by assumption) ?_
    | with_reducible refine Grows.ofOpt (by assumption) ?_ | intro _ | split | dsimp only

theorem dsnForget_grows {z0 : State} {s : State} {k : Nat} (hg : Grows z0 s) :
    Grows z0 (dsnForget s k) := by
  unfold dsnForget
  repeat' first
    | with_reducible exact hg | with_reducible assumption
    | fail_if_no_progress (with_reducible refine mk_grows ?_ rfl)
    | with_reducible refine Grows.pair2 (by assumption) ?_
    | with_reducible refine Grows.pair1 (by assumption) ?_
    | with_reducible refine Grows.ofOpt (by assumption) ?_ | intro _ | split | dsimp only

theorem writeLine_grows {z0 : State} {s : State} {k line : Nat} (hg : Grows z0 s) :
    Grows z0 (writeLine s k line) := by
  unfold writeLine
  repeat' first
    | with_reducible exact hg | with_reducible assumption | with_reducible apply onEsc_grows
    | with_reducible apply ctxSetWord_grows | with_reducible apply dsnForget_grows
    | fail_if_no_progress (with_reducible refine mk_grows ?_ rfl)
    | with_reducible refine Grows.pair2 (by assumption) ?_
    | with_reducible refine Grows.pair1 (by assumption) ?_
    | with_reducible refine Grows.ofOpt (by assumption) ?_
    | with_reducible refine Grows.fold ?_ (fun _ _ _ => ?_)
    | with_reducible refine Grows.fold2 ?_ (fun _ _ _ => ?_)
    | with_reducible refine Grows.fold1 ?_ (fun _ _ _ => ?_) | intro _ | split | dsimp only

theorem contextWrite_grows {z0 : State} {s : State} {k mask : Nat} (hg : Grows z0 s) :
    Grows z0 (contextWrite s k mask) := by
  unfold contextWrite
  repeat' first
    | with_reducible exact hg | with_reducible assumption | with_reducible apply set_grows
    | with_reducible apply cset_grows | with_reducible apply markDirty_grows
    | with_reducible apply genBump_grows | with_reducible apply stallRelease_grows
    | with_reducible apply ctxResult_grows | with_reducible apply writeLine_grows
    | fail_if_no_progress (with_reducible refine mk_grows ?_ rfl)
    | with_reducible refine Grows.pair2 (by assumption) ?_
    | with_reducible refine Grows.pair1 (by assumption) ?_
    | with_reducible refine Grows.ofOpt (by assumption) ?_
    | with_reducible refine Grows.fold ?_ (fun _ _ _ => ?_)
    | with_reducible refine Grows.fold2 ?_ (fun _ _ _ => ?_)
    | with_reducible refine Grows.fold1 ?_ (fun _ _ _ => ?_) | intro _ | split | dsimp only

theorem reserve_grows {z0 : State} {s : State} {k : Nat} (hg : Grows z0 s) :
    Grows z0 (reserve s k) := by
  unfold reserve
  repeat' first
    | with_reducible exact hg | with_reducible assumption | with_reducible apply set_grows
    | with_reducible apply onCtx_grows | with_reducible apply drawFree_grows | with_reducible apply bump_grows
    | with_reducible apply ringProduce_grows | with_reducible apply cset_grows
    | fail_if_no_progress (with_reducible refine mk_grows ?_ rfl)
    | with_reducible refine Grows.pair2 (by assumption) ?_
    | with_reducible refine Grows.pair1 (by assumption) ?_
    | with_reducible refine Grows.ofOpt (by assumption) ?_ | intro _ | split | dsimp only

theorem resvCheck_grows {z0 : State} {s : State} {k : Nat} (hg : Grows z0 s) :
    Grows z0 (resvCheck s k) := by
  unfold resvCheck
  repeat' first
    | with_reducible exact hg | with_reducible assumption | with_reducible apply bump_grows
    | with_reducible apply raiseFirst_grows | with_reducible apply reserve_grows
    | fail_if_no_progress (with_reducible refine mk_grows ?_ rfl)
    | with_reducible refine Grows.pair2 (by assumption) ?_
    | with_reducible refine Grows.pair1 (by assumption) ?_
    | with_reducible refine Grows.ofOpt (by assumption) ?_ | intro _ | split | dsimp only

theorem noCounter_grows {z0 : State} {s : State} {k : Nat} (hg : Grows z0 s) :
    Grows z0 (noCounter s k) := by
  unfold noCounter
  repeat' first
    | with_reducible exact hg | with_reducible assumption | with_reducible apply bump_grows
    | with_reducible apply raiseFirst_grows | fail_if_no_progress (with_reducible refine mk_grows ?_ rfl)
    | with_reducible refine Grows.pair2 (by assumption) ?_
    | with_reducible refine Grows.pair1 (by assumption) ?_
    | with_reducible refine Grows.ofOpt (by assumption) ?_ | intro _ | split | dsimp only

theorem takeCounter_grows {z0 : State} {s : State} {k : Nat} (hg : Grows z0 s) :
    Grows z0 (takeCounter s k).2 := by
  unfold takeCounter
  repeat' first
    | with_reducible exact hg | with_reducible assumption | with_reducible apply bump_grows
    | with_reducible apply raise_grows | with_reducible apply cset_grows | with_reducible apply resvCheck_grows
    | with_reducible apply noCounter_grows | fail_if_no_progress (with_reducible refine mk_grows ?_ rfl)
    | with_reducible refine Grows.pair2 (by assumption) ?_
    | with_reducible refine Grows.pair1 (by assumption) ?_
    | with_reducible refine Grows.ofOpt (by assumption) ?_ | intro _ | split | dsimp only

theorem reservationConfirm_grows {z0 : State} {s : State} {conf : Nat} (hg : Grows z0 s) :
    Grows z0 (reservationConfirm s conf) := by
  unfold reservationConfirm
  repeat' first
    | with_reducible exact hg | with_reducible assumption | with_reducible apply set_grows
    | with_reducible apply onCtx_grows | with_reducible apply cset_grows
    | fail_if_no_progress (with_reducible refine mk_grows ?_ rfl)
    | with_reducible refine Grows.pair2 (by assumption) ?_
    | with_reducible refine Grows.pair1 (by assumption) ?_
    | with_reducible refine Grows.ofOpt (by assumption) ?_
    | with_reducible refine Grows.fold ?_ (fun _ _ _ => ?_)
    | with_reducible refine Grows.fold2 ?_ (fun _ _ _ => ?_)
    | with_reducible refine Grows.fold1 ?_ (fun _ _ _ => ?_) | intro _ | split | dsimp only

theorem dropResv_grows {z0 : State} {s : State} {k : Nat} (hg : Grows z0 s) :
    Grows z0 (dropResv s k) := by
  unfold dropResv
  repeat' first
    | with_reducible exact hg | with_reducible assumption | with_reducible apply set_grows
    | with_reducible apply onCtx_grows | fail_if_no_progress (with_reducible refine mk_grows ?_ rfl)
    | with_reducible refine Grows.pair2 (by assumption) ?_
    | with_reducible refine Grows.pair1 (by assumption) ?_
    | with_reducible refine Grows.ofOpt (by assumption) ?_ | intro _ | split | dsimp only

theorem bucketFull_grows {z0 : State} {s : State} {k : Nat} (hg : Grows z0 s) :
    Grows z0 (bucketFull s k) := by
  unfold bucketFull
  repeat' first
    | with_reducible exact hg | with_reducible assumption | with_reducible apply cset_grows
    | with_reducible apply csset_grows | fail_if_no_progress (with_reducible refine mk_grows ?_ rfl)
    | with_reducible refine Grows.pair2 (by assumption) ?_
    | with_reducible refine Grows.pair1 (by assumption) ?_
    | with_reducible refine Grows.ofOpt (by assumption) ?_ | intro _ | split | dsimp only

theorem restore_grows {z0 : State} {s : State} {k : Nat} (hg : Grows z0 s) :
    Grows z0 (restore s k) := by
  unfold restore
  repeat' first
    | with_reducible exact hg | with_reducible assumption | with_reducible apply set_grows
    | with_reducible apply onCtx_grows | with_reducible apply cset_grows | with_reducible apply markDirty_grows
    | with_reducible apply genBump_grows | with_reducible apply setSubQueue_grows
    | with_reducible apply subFlush_grows | with_reducible apply stallRelease_grows
    | with_reducible apply ctxResult_grows | with_reducible apply fbForget_grows
    | with_reducible apply writeLine_grows | with_reducible apply reserve_grows
    | with_reducible apply dropResv_grows | with_reducible apply bucketFull_grows
    | fail_if_no_progress (with_reducible refine mk_grows ?_ rfl)
    | with_reducible refine Grows.pair2 (by assumption) ?_
    | with_reducible refine Grows.pair1 (by assumption) ?_
    | with_reducible refine Grows.ofOpt (by assumption) ?_
    | with_reducible refine Grows.fold ?_ (fun _ _ _ => ?_)
    | with_reducible refine Grows.fold2 ?_ (fun _ _ _ => ?_)
    | with_reducible refine Grows.fold1 ?_ (fun _ _ _ => ?_) | intro _ | split | dsimp only

theorem invalidate_grows {z0 : State} {s : State} {k : Nat} (hg : Grows z0 s) :
    Grows z0 (invalidate s k) := by
  unfold invalidate
  repeat' first
    | with_reducible exact hg | with_reducible assumption | with_reducible apply set_grows
    | with_reducible apply setOctets_grows | with_reducible apply onCtx_grows
    | with_reducible apply subFlush_grows | with_reducible apply stallRelease_grows
    | with_reducible apply ctxResult_grows | with_reducible apply fbForget_grows
    | with_reducible apply dsnForget_grows | with_reducible apply dropResv_grows
    | fail_if_no_progress (with_reducible refine mk_grows ?_ rfl)
    | with_reducible refine Grows.pair2 (by assumption) ?_
    | with_reducible refine Grows.pair1 (by assumption) ?_
    | with_reducible refine Grows.ofOpt (by assumption) ?_ | intro _ | split | dsimp only

theorem capture_grows {z0 : State} {s : State} {type k : Nat} (hg : Grows z0 s) :
    Grows z0 (capture s type k).2 := by
  unfold capture
  repeat' first
    | with_reducible exact hg | with_reducible assumption | with_reducible apply onCtx_grows
    | with_reducible apply bump_grows | with_reducible apply ringProduce_grows
    | fail_if_no_progress (with_reducible refine mk_grows ?_ rfl)
    | with_reducible refine Grows.pair2 (by assumption) ?_
    | with_reducible refine Grows.pair1 (by assumption) ?_
    | with_reducible refine Grows.ofOpt (by assumption) ?_ | intro _ | split | dsimp only

theorem startSweep_grows {z0 : State} {s : State} {start : Nat} (hg : Grows z0 s) :
    Grows z0 (startSweep s start) := by
  unfold startSweep
  repeat' first
    | with_reducible exact hg | with_reducible assumption | with_reducible apply set_grows
    | with_reducible apply takeEffect_grows | with_reducible apply onCtx_grows
    | fail_if_no_progress (with_reducible refine mk_grows ?_ rfl)
    | with_reducible refine Grows.pair2 (by assumption) ?_
    | with_reducible refine Grows.pair1 (by assumption) ?_
    | with_reducible refine Grows.ofOpt (by assumption) ?_ | intro _ | split | dsimp only

theorem sweepStart_grows {z0 : State} {s : State} (hg : Grows z0 s) :
    Grows z0 (sweepStart s) := by
  unfold sweepStart
  repeat' first
    | with_reducible exact hg | with_reducible assumption | with_reducible apply startSweep_grows
    | fail_if_no_progress (with_reducible refine mk_grows ?_ rfl)
    | with_reducible refine Grows.pair2 (by assumption) ?_
    | with_reducible refine Grows.pair1 (by assumption) ?_
    | with_reducible refine Grows.ofOpt (by assumption) ?_ | intro _ | split | dsimp only

theorem sweepNext_grows {z0 : State} {s : State} {k : Nat} (hg : Grows z0 s) :
    Grows z0 (sweepNext s k) := by
  unfold sweepNext
  repeat' first
    | with_reducible exact hg | with_reducible assumption | with_reducible apply onCtx_grows
    | with_reducible apply stallOver_grows | with_reducible apply startSweep_grows
    | fail_if_no_progress (with_reducible refine mk_grows ?_ rfl)
    | with_reducible refine Grows.pair2 (by assumption) ?_
    | with_reducible refine Grows.pair1 (by assumption) ?_
    | with_reducible refine Grows.ofOpt (by assumption) ?_ | intro _ | split | dsimp only

theorem sweepVisit_grows {z0 : State} {s : State} {k : Nat} (hg : Grows z0 s) :
    Grows z0 (sweepVisit s k) := by
  unfold sweepVisit
  repeat' first
    | with_reducible exact hg | with_reducible assumption | with_reducible apply onCtx_grows
    | with_reducible apply raise_grows | with_reducible apply capture_grows
    | with_reducible apply sweepNext_grows | fail_if_no_progress (with_reducible refine mk_grows ?_ rfl)
    | with_reducible refine Grows.pair2 (by assumption) ?_
    | with_reducible refine Grows.pair1 (by assumption) ?_
    | with_reducible refine Grows.ofOpt (by assumption) ?_ | intro _ | split | dsimp only

theorem flushPass_grows {s0 : State} {n : Nat} {s : State} {i : Nat} (h : Grows s0 s) : Grows s0 (flushPass n s i) := by
  induction n generalizing s i with
  | zero => exact stallRelease_grows (onCtx_grows h)
  | succ n ih =>
    unfold flushPass
    split
    · exact stallRelease_grows (onCtx_grows h)
    · split
      · exact ih (Grows.pair2 (by assumption) (capture_grows h))
      · exact stallRelease_grows (onCtx_grows (Grows.pair2 (by assumption) (capture_grows h)))

theorem flush_grows {z0 : State} {s : State} (hg : Grows z0 s) :
    Grows z0 (flush s) := by
  unfold flush
  repeat' first
    | with_reducible exact hg | with_reducible assumption | with_reducible apply set_grows
    | with_reducible apply flushPass_grows | fail_if_no_progress (with_reducible refine mk_grows ?_ rfl)
    | with_reducible refine Grows.pair2 (by assumption) ?_
    | with_reducible refine Grows.pair1 (by assumption) ?_
    | with_reducible refine Grows.ofOpt (by assumption) ?_ | intro _ | split | dsimp only

theorem flushComplete_grows {z0 : State} {s : State} (hg : Grows z0 s) :
    Grows z0 (flushComplete s) := by
  unfold flushComplete
  repeat' first
    | with_reducible exact hg | with_reducible assumption | with_reducible apply set_grows
    | with_reducible apply onCtx_grows | with_reducible apply raise_grows | with_reducible apply flushPass_grows
    | fail_if_no_progress (with_reducible refine mk_grows ?_ rfl)
    | with_reducible refine Grows.pair2 (by assumption) ?_
    | with_reducible refine Grows.pair1 (by assumption) ?_
    | with_reducible refine Grows.ofOpt (by assumption) ?_ | intro _ | split | dsimp only

/-! ### JwlOps -/

theorem setJslot_grows {z0 : State} {s : State} {k : Nat} {x : Slot} (hg : Grows z0 s) :
    Grows z0 (setJslot s k x) := by
  unfold setJslot
  repeat' first
    | with_reducible exact hg | with_reducible assumption | with_reducible refine onJwl_grows ?_ rfl
    | fail_if_no_progress (with_reducible refine mk_grows ?_ rfl)
    | with_reducible refine Grows.pair2 (by assumption) ?_
    | with_reducible refine Grows.pair1 (by assumption) ?_
    | with_reducible refine Grows.ofOpt (by assumption) ?_ | intro _ | split | dsimp only

theorem cacheShow_grows {z0 : State} {s : State} (hg : Grows z0 s) :
    Grows z0 (cacheShow s) := by
  unfold cacheShow
  repeat' first
    | with_reducible exact hg | with_reducible assumption | with_reducible apply set_grows
    | fail_if_no_progress (with_reducible refine mk_grows ?_ rfl)
    | with_reducible refine Grows.pair2 (by assumption) ?_
    | with_reducible refine Grows.pair1 (by assumption) ?_
    | with_reducible refine Grows.ofOpt (by assumption) ?_
    | with_reducible refine Grows.fold ?_ (fun _ _ _ => ?_)
    | with_reducible refine Grows.fold2 ?_ (fun _ _ _ => ?_)
    | with_reducible refine Grows.fold1 ?_ (fun _ _ _ => ?_) | intro _ | split | dsimp only

theorem setCache_grows {z0 : State} {s : State} {i : Nat} {l : List Derived} (hg : Grows z0 s) :
    Grows z0 (setCache s i l) := by
  unfold setCache
  repeat' first
    | with_reducible exact hg | with_reducible assumption | with_reducible apply cacheShow_grows
    | with_reducible refine onJwl_grows ?_ rfl | fail_if_no_progress (with_reducible refine mk_grows ?_ rfl)
    | with_reducible refine Grows.pair2 (by assumption) ?_
    | with_reducible refine Grows.pair1 (by assumption) ?_
    | with_reducible refine Grows.ofOpt (by assumption) ?_ | intro _ | split | dsimp only

theorem cacheFind_grows {z0 : State} {s : State} {slot eui : Nat} (hg : Grows z0 s) :
    Grows z0 (cacheFind s slot eui).2 := by
  unfold cacheFind
  repeat' first
    | with_reducible exact hg | with_reducible assumption | with_reducible apply setCache_grows
    | fail_if_no_progress (with_reducible refine mk_grows ?_ rfl)
    | with_reducible refine Grows.pair2 (by assumption) ?_
    | with_reducible refine Grows.pair1 (by assumption) ?_
    | with_reducible refine Grows.ofOpt (by assumption) ?_ | intro _ | split | dsimp only

theorem cacheInsert_grows {z0 : State} {s : State} {d : Derived} (hg : Grows z0 s) :
    Grows z0 (cacheInsert s d) := by
  unfold cacheInsert
  repeat' first
    | with_reducible exact hg | with_reducible assumption | with_reducible apply setCache_grows
    | fail_if_no_progress (with_reducible refine mk_grows ?_ rfl)
    | with_reducible refine Grows.pair2 (by assumption) ?_
    | with_reducible refine Grows.pair1 (by assumption) ?_
    | with_reducible refine Grows.ofOpt (by assumption) ?_ | intro _ | split | dsimp only

theorem cacheFlush_grows {z0 : State} {s : State} (hg : Grows z0 s) :
    Grows z0 (cacheFlush s) := by
  unfold cacheFlush
  repeat' first
    | with_reducible exact hg | with_reducible assumption | with_reducible apply cacheShow_grows
    | with_reducible refine onJwl_grows ?_ rfl | fail_if_no_progress (with_reducible refine mk_grows ?_ rfl)
    | with_reducible refine Grows.pair2 (by assumption) ?_
    | with_reducible refine Grows.pair1 (by assumption) ?_
    | with_reducible refine Grows.ofOpt (by assumption) ?_ | intro _ | split | dsimp only

theorem inWindow_grows {z0 : State} {s : State} {w : Nat} {f : State → State} (hg : Grows z0 s) (hf : ∀ v, Grows z0 v → Grows z0 (f v)) :
    Grows z0 (inWindow s w f) := by
  unfold inWindow
  repeat' first
    | with_reducible exact hg | apply hf | with_reducible assumption | with_reducible apply bump_grows
    | with_reducible apply raise_grows | fail_if_no_progress (with_reducible refine mk_grows ?_ rfl)
    | with_reducible refine Grows.pair2 (by assumption) ?_
    | with_reducible refine Grows.pair1 (by assumption) ?_
    | with_reducible refine Grows.ofOpt (by assumption) ?_ | intro _ | split | dsimp only

theorem jwlDenied_grows {z0 : State} {s : State} {master result : Nat} (hg : Grows z0 s) :
    Grows z0 (jwlDenied s master result) := by
  unfold jwlDenied
  repeat' first
    | with_reducible exact hg | with_reducible assumption | with_reducible apply bump_grows
    | with_reducible apply raise_grows | fail_if_no_progress (with_reducible refine mk_grows ?_ rfl)
    | with_reducible refine Grows.pair2 (by assumption) ?_
    | with_reducible refine Grows.pair1 (by assumption) ?_
    | with_reducible refine Grows.ofOpt (by assumption) ?_ | intro _ | split | dsimp only

theorem jobStart_grows {s0 : State} {s : State} {w op slot : Nat} {run : State → Job × State} (h : Grows s0 s)
    (hr : ∀ v, Grows s0 v → Grows s0 (run v).2) : Grows s0 (jobStart s w op slot run) := by
  unfold jobStart
  split
  · exact h
  · extract_lets s1 ended
    have g1 : Grows s0 s1 := set_grows (set_grows h)
    generalize e : (if lcBusy s1 = true then _ else _ : Job × State) = p
    obtain ⟨j, s2⟩ := p
    have g2 : Grows s0 s2 := by
      split at e
      · cases e; exact g1
      · split at e
        · cases e; exact g1
        · exact Grows.pair2 e (hr _ g1)
    dsimp only
    refine onJwl_grows ?_ rfl
    split
    · exact jwlDenied_grows g2
    · exact g2

theorem setWords_grows {z0 : State} {s : State} {f : Nat → Fld} {l : List Byte} (hg : Grows z0 s) :
    Grows z0 (setWords s f l) := by
  unfold setWords
  repeat' first
    | with_reducible exact hg | with_reducible assumption | with_reducible apply set_grows
    | fail_if_no_progress (with_reducible refine mk_grows ?_ rfl)
    | with_reducible refine Grows.pair2 (by assumption) ?_
    | with_reducible refine Grows.pair1 (by assumption) ?_
    | with_reducible refine Grows.ofOpt (by assumption) ?_
    | with_reducible refine Grows.fold ?_ (fun _ _ _ => ?_)
    | with_reducible refine Grows.fold2 ?_ (fun _ _ _ => ?_)
    | with_reducible refine Grows.fold1 ?_ (fun _ _ _ => ?_) | intro _ | split | dsimp only

theorem fillSlot_grows {z0 : State} {s : State} {w : Nat} {j : Job} (hg : Grows z0 s) :
    Grows z0 (fillSlot s w j).2 := by
  unfold fillSlot
  repeat' first
    | with_reducible exact hg | with_reducible assumption | with_reducible apply setJslot_grows
    | fail_if_no_progress (with_reducible refine mk_grows ?_ rfl)
    | with_reducible refine Grows.pair2 (by assumption) ?_
    | with_reducible refine Grows.pair1 (by assumption) ?_
    | with_reducible refine Grows.ofOpt (by assumption) ?_ | intro _ | split | dsimp only

theorem slotFillStart_grows {z0 : State} {s : State} {w op slot : Nat} (hg : Grows z0 s) :
    Grows z0 (slotFillStart s w op slot) := by
  unfold slotFillStart
  repeat' first
    | with_reducible exact hg | with_reducible assumption | with_reducible apply jobStart_grows
    | with_reducible apply fillSlot_grows | fail_if_no_progress (with_reducible refine mk_grows ?_ rfl)
    | with_reducible refine Grows.pair2 (by assumption) ?_
    | with_reducible refine Grows.pair1 (by assumption) ?_
    | with_reducible refine Grows.ofOpt (by assumption) ?_ | intro _ | split | dsimp only

theorem jwlLoad_grows {z0 : State} {s : State} {w slot : Nat} (hg : Grows z0 s) :
    Grows z0 (jwlLoad s w slot) := by
  unfold jwlLoad
  repeat' first
    | with_reducible exact hg | with_reducible assumption | with_reducible apply slotFillStart_grows
    | fail_if_no_progress (with_reducible refine mk_grows ?_ rfl)
    | with_reducible refine Grows.pair2 (by assumption) ?_
    | with_reducible refine Grows.pair1 (by assumption) ?_
    | with_reducible refine Grows.ofOpt (by assumption) ?_ | intro _ | split | dsimp only

theorem jwlDerive_grows {z0 : State} {s : State} {w slot : Nat} (hg : Grows z0 s) :
    Grows z0 (jwlDerive s w slot) := by
  unfold jwlDerive
  repeat' first
    | with_reducible exact hg | with_reducible assumption | with_reducible apply slotFillStart_grows
    | fail_if_no_progress (with_reducible refine mk_grows ?_ rfl)
    | with_reducible refine Grows.pair2 (by assumption) ?_
    | with_reducible refine Grows.pair1 (by assumption) ?_
    | with_reducible refine Grows.ofOpt (by assumption) ?_ | intro _ | split | dsimp only

theorem keyInvalidate_grows {z0 : State} {s : State} {w slot : Nat} (hg : Grows z0 s) :
    Grows z0 (keyInvalidate s w slot) := by
  unfold keyInvalidate
  repeat' first
    | with_reducible exact hg | with_reducible assumption | with_reducible apply set_grows
    | with_reducible apply setJslot_grows | with_reducible apply jobStart_grows
    | with_reducible refine onJwl_grows ?_ rfl | fail_if_no_progress (with_reducible refine mk_grows ?_ rfl)
    | with_reducible refine Grows.pair2 (by assumption) ?_
    | with_reducible refine Grows.pair1 (by assumption) ?_
    | with_reducible refine Grows.ofOpt (by assumption) ?_ | intro _ | split | dsimp only

theorem runWaiting_grows {s0 : State} {s : State} (h : Grows s0 s) : Grows s0 (runWaiting s) := by
  unfold runWaiting
  refine Grows.fold h (fun v e k => ?_)
  split
  · generalize e2 : fillSlot v e.1 e.2 = p
    obtain ⟨j, s2⟩ := p
    have g2 := Grows.pair2 e2 (fillSlot_grows k)
    dsimp only
    refine onJwl_grows ?_ rfl
    split
    · exact jwlDenied_grows g2
    · exact g2
  · exact k

theorem readAttributes_grows {z0 : State} {s : State} {w slot : Nat} (hg : Grows z0 s) :
    Grows z0 (readAttributes s w slot) := by
  unfold readAttributes
  repeat' first
    | with_reducible exact hg | with_reducible assumption | with_reducible apply drawFree_grows
    | with_reducible apply jobStart_grows | fail_if_no_progress (with_reducible refine mk_grows ?_ rfl)
    | with_reducible refine Grows.pair2 (by assumption) ?_
    | with_reducible refine Grows.pair1 (by assumption) ?_
    | with_reducible refine Grows.ofOpt (by assumption) ?_ | intro _ | split | dsimp only

theorem jwlAttest_grows {z0 : State} {s : State} {w slot : Nat} (hg : Grows z0 s) :
    Grows z0 (jwlAttest s w slot) := by
  unfold jwlAttest
  repeat' first
    | with_reducible exact hg | with_reducible assumption | with_reducible apply jobStart_grows
    | with_reducible refine onJwl_grows ?_ rfl | fail_if_no_progress (with_reducible refine mk_grows ?_ rfl)
    | with_reducible refine Grows.pair2 (by assumption) ?_
    | with_reducible refine Grows.pair1 (by assumption) ?_
    | with_reducible refine Grows.ofOpt (by assumption) ?_ | intro _ | split | dsimp only

theorem jwlHash_grows {z0 : State} {s : State} {w slot : Nat} {data : List Byte} {fault : Bool} (hg : Grows z0 s) :
    Grows z0 (jwlHash s w slot data fault) := by
  unfold jwlHash
  repeat' first
    | with_reducible exact hg | with_reducible assumption | with_reducible apply jobStart_grows
    | fail_if_no_progress (with_reducible refine mk_grows ?_ rfl)
    | with_reducible refine Grows.pair2 (by assumption) ?_
    | with_reducible refine Grows.pair1 (by assumption) ?_
    | with_reducible refine Grows.ofOpt (by assumption) ?_ | intro _ | split | dsimp only

theorem jwlHmac_grows {z0 : State} {s : State} {w slot : Nat} {data : List Byte} {fault : Bool} (hg : Grows z0 s) :
    Grows z0 (jwlHmac s w slot data fault) := by
  unfold jwlHmac
  repeat' first
    | with_reducible exact hg | with_reducible assumption | with_reducible apply jobStart_grows
    | fail_if_no_progress (with_reducible refine mk_grows ?_ rfl)
    | with_reducible refine Grows.pair2 (by assumption) ?_
    | with_reducible refine Grows.pair1 (by assumption) ?_
    | with_reducible refine Grows.ofOpt (by assumption) ?_ | intro _ | split | dsimp only

theorem jwlVerify_grows {z0 : State} {s : State} {w slot : Nat} (hg : Grows z0 s) :
    Grows z0 (jwlVerify s w slot) := by
  unfold jwlVerify
  repeat' first
    | with_reducible exact hg | with_reducible assumption | with_reducible apply jobStart_grows
    | fail_if_no_progress (with_reducible refine mk_grows ?_ rfl)
    | with_reducible refine Grows.pair2 (by assumption) ?_
    | with_reducible refine Grows.pair1 (by assumption) ?_
    | with_reducible refine Grows.ofOpt (by assumption) ?_ | intro _ | split | dsimp only

theorem extendMeasure_grows {z0 : State} {s : State} {m : Nat} {digest : List Byte} (hg : Grows z0 s) :
    Grows z0 (extendMeasure s m digest) := by
  unfold extendMeasure
  repeat' first
    | with_reducible exact hg | with_reducible assumption | with_reducible apply setWords_grows
    | fail_if_no_progress (with_reducible refine mk_grows ?_ rfl)
    | with_reducible refine Grows.pair2 (by assumption) ?_
    | with_reducible refine Grows.pair1 (by assumption) ?_
    | with_reducible refine Grows.ofOpt (by assumption) ?_ | intro _ | split | dsimp only

theorem jwlExtend_grows {z0 : State} {s : State} {w m : Nat} (hg : Grows z0 s) :
    Grows z0 (jwlExtend s w m) := by
  unfold jwlExtend
  repeat' first
    | with_reducible exact hg | with_reducible assumption | with_reducible apply jobStart_grows
    | with_reducible apply extendMeasure_grows | fail_if_no_progress (with_reducible refine mk_grows ?_ rfl)
    | with_reducible refine Grows.pair2 (by assumption) ?_
    | with_reducible refine Grows.pair1 (by assumption) ?_
    | with_reducible refine Grows.ofOpt (by assumption) ?_ | intro _ | split | dsimp only

theorem showAttrs_grows {z0 : State} {s : State} {w : Nat} {x : Slot} (hg : Grows z0 s) :
    Grows z0 (showAttrs s w x) := by
  unfold showAttrs
  repeat' first
    | with_reducible exact hg | with_reducible assumption | with_reducible apply set_grows
    | with_reducible apply setb_grows | with_reducible apply setWords_grows
    | fail_if_no_progress (with_reducible refine mk_grows ?_ rfl)
    | with_reducible refine Grows.pair2 (by assumption) ?_
    | with_reducible refine Grows.pair1 (by assumption) ?_
    | with_reducible refine Grows.ofOpt (by assumption) ?_ | intro _ | split | dsimp only

theorem jobApply_grows {s0 : State} {s : State} {w : Nat} {j : Job} {result : Nat} (h : Grows s0 s) :
    Grows s0 (jobApply s w j result) := by
  unfold jobApply
  extract_lets s1 s2 s3 s4 s5
  have g1 : Grows s0 s1 := by
    simp only [s1]; split
    · exact setWords_grows h
    · exact h
  have g2 : Grows s0 s2 := by
    simp only [s2]; split
    · exact showAttrs_grows g1
    · exact g1
  have g3 : Grows s0 s3 := by
    simp only [s3]; split
    · exact setWords_grows g2
    · exact g2
  exact raise_grows (set_grows (set_grows (onJwl_grows (Grows.fold g3 (fun _ _ k => set_grows k)) rfl)))

theorem windowJobEnd_grows {z0 : State} {s : State} {w : Nat} (hg : Grows z0 s) :
    Grows z0 (windowJobEnd s w) := by
  unfold windowJobEnd
  repeat' first
    | with_reducible exact hg | with_reducible assumption | with_reducible apply jobApply_grows
    | fail_if_no_progress (with_reducible refine mk_grows ?_ rfl)
    | with_reducible refine Grows.pair2 (by assumption) ?_
    | with_reducible refine Grows.pair1 (by assumption) ?_
    | with_reducible refine Grows.ofOpt (by assumption) ?_ | intro _ | split | dsimp only

theorem revocationSweepEnd_grows {s0 : State} {s : State} {w : Nat} (h : Grows s0 s) :
    Grows s0 (revocationSweepEnd s w) := by
  unfold revocationSweepEnd
  split
  · extract_lets revoked s1 s2 s3
    have g1 : Grows s0 s1 := onJwl_grows h rfl
    have g2 : Grows s0 s2 := setb_grows (cacheShow_grows g1)
    have g3 : Grows s0 s3 := jobApply_grows (raise_grows g2)
    split
    · exact runWaiting_grows g3
    · exact g3
  · exact h

theorem jwlEnable_grows {z0 : State} {s : State} (hg : Grows z0 s) :
    Grows z0 (jwlEnable s) := by
  unfold jwlEnable
  repeat' first
    | with_reducible exact hg | with_reducible assumption | with_reducible apply set_grows
    | fail_if_no_progress (with_reducible refine mk_grows ?_ rfl)
    | with_reducible refine Grows.pair2 (by assumption) ?_
    | with_reducible refine Grows.pair1 (by assumption) ?_
    | with_reducible refine Grows.ofOpt (by assumption) ?_ | intro _ | split | dsimp only

theorem jwlDisable_grows {z0 : State} {s : State} (hg : Grows z0 s) :
    Grows z0 (jwlDisable s) := by
  unfold jwlDisable
  repeat' first
    | with_reducible exact hg | with_reducible assumption | with_reducible apply set_grows
    | fail_if_no_progress (with_reducible refine mk_grows ?_ rfl)
    | with_reducible refine Grows.pair2 (by assumption) ?_
    | with_reducible refine Grows.pair1 (by assumption) ?_
    | with_reducible refine Grows.ofOpt (by assumption) ?_ | intro _ | split | dsimp only

theorem lcRead_grows {z0 : State} {s : State} (hg : Grows z0 s) :
    Grows z0 (lcRead s) := by
  unfold lcRead
  repeat' first
    | with_reducible exact hg | with_reducible assumption | with_reducible apply set_grows
    | fail_if_no_progress (with_reducible refine mk_grows ?_ rfl)
    | with_reducible refine Grows.pair2 (by assumption) ?_
    | with_reducible refine Grows.pair1 (by assumption) ?_
    | with_reducible refine Grows.ofOpt (by assumption) ?_ | intro _ | split | dsimp only

theorem lifeCycleChange_grows {s0 : State} {s : State} {w target : Nat} (h : Grows s0 s) :
    Grows s0 (lifeCycleChange s w target) := by
  unfold lifeCycleChange
  dsimp only
  split
  · exact h
  · split
    · exact jwlDenied_grows (set_grows h)
    · split
      · exact set_grows (set_grows h)
      · rename_i tr
        split
        · exact set_grows (set_grows h)
        · refine cacheShow_grows ?_
          have le : s.fuses.lcState ≤ target := by
            have tr : lcTransition s.fuses.lcState target = true := by simpa [lcState] using tr
            simp only [lcTransition, Bool.or_eq_true, Bool.and_eq_true, beq_iff_eq, decide_eq_true_eq] at tr
            omega
          have g := set_grows (f := Reg.JWL_STATUS_lc_busy) (v := 1) (set_grows (f := Reg.JWL_LC_RES_result) (v := 0)
            (set_grows (f := Reg.JWL_LC_CMD_target) (v := target) h))
          refine g.trans ⟨rfl, id, id, id, id, fun _ => ⟨?_, Nat.le_refl _⟩,
            fun _ x => x, Nat.le_refl _⟩
          intro x hx
          cases hx
          exact le

theorem lifeCycleChangeDone_grows {s0 : State} {s : State} (h : Grows s0 s) : Grows s0 (lifeCycleChangeDone s) := by
  unfold lifeCycleChangeDone
  split
  · exact h
  · rename_i target due e
    split
    · exact h
    · have g : Grows s0 (({ s with fuses := { s.fuses with lcState := target } } : State).onJwl
          (fun j => { j with lcTarget := none })) :=
        h.trans ⟨rfl, id, id, id, id, fun x => ⟨fun y hy => (by cases hy), x _ e⟩, fun _ x => x, Nat.le_refl _⟩
      exact raise_grows (set_grows (set_grows g))

/-! ### AmcOps -/

theorem newRef_grows {z0 : State} {s : State} (hg : Grows z0 s) :
    Grows z0 (newRef s).2 := by
  unfold newRef
  repeat' first
    | with_reducible exact hg | with_reducible assumption | with_reducible apply onAmc_grows
    | fail_if_no_progress (with_reducible refine mk_grows ?_ rfl)
    | with_reducible refine Grows.pair2 (by assumption) ?_
    | with_reducible refine Grows.pair1 (by assumption) ?_
    | with_reducible refine Grows.ofOpt (by assumption) ?_ | intro _ | split | dsimp only

theorem dwellAdd_grows {z0 : State} {s : State} {band freq airUs : Nat} (hg : Grows z0 s) :
    Grows z0 (dwellAdd s band freq airUs) := by
  unfold dwellAdd
  repeat' first
    | with_reducible exact hg | with_reducible assumption | with_reducible apply onAmc_grows
    | with_reducible apply raise_grows | fail_if_no_progress (with_reducible refine mk_grows ?_ rfl)
    | with_reducible refine Grows.pair2 (by assumption) ?_
    | with_reducible refine Grows.pair1 (by assumption) ?_
    | with_reducible refine Grows.ofOpt (by assumption) ?_
    | with_reducible refine Grows.fold ?_ (fun _ _ _ => ?_)
    | with_reducible refine Grows.fold2 ?_ (fun _ _ _ => ?_)
    | with_reducible refine Grows.fold1 ?_ (fun _ _ _ => ?_) | intro _ | split | dsimp only

theorem dwellStep_grows {z0 : State} {s : State} (hg : Grows z0 s) :
    Grows z0 (dwellStep s) := by
  unfold dwellStep
  repeat' first
    | with_reducible exact hg | with_reducible assumption | with_reducible apply onAmc_grows
    | fail_if_no_progress (with_reducible refine mk_grows ?_ rfl)
    | with_reducible refine Grows.pair2 (by assumption) ?_
    | with_reducible refine Grows.pair1 (by assumption) ?_
    | with_reducible refine Grows.ofOpt (by assumption) ?_ | intro _ | split | dsimp only

theorem conflictScan_grows {z0 : State} {s : State} (hg : Grows z0 s) :
    Grows z0 (conflictScan s) := by
  unfold conflictScan
  repeat' first
    | with_reducible exact hg | with_reducible assumption | with_reducible apply onAmc_grows
    | with_reducible apply bump_grows | with_reducible apply raise_grows
    | fail_if_no_progress (with_reducible refine mk_grows ?_ rfl)
    | with_reducible refine Grows.pair2 (by assumption) ?_
    | with_reducible refine Grows.pair1 (by assumption) ?_
    | with_reducible refine Grows.ofOpt (by assumption) ?_
    | with_reducible refine Grows.fold ?_ (fun _ _ _ => ?_)
    | with_reducible refine Grows.fold2 ?_ (fun _ _ _ => ?_)
    | with_reducible refine Grows.fold1 ?_ (fun _ _ _ => ?_) | intro _ | split | dsimp only

theorem setAside_grows {z0 : State} {s : State} {p : Pick} (hg : Grows z0 s) :
    Grows z0 (setAside s p) := by
  unfold setAside
  repeat' first
    | with_reducible exact hg | with_reducible assumption | with_reducible apply bump_grows
    | with_reducible apply commandWithdraw_grows | fail_if_no_progress (with_reducible refine mk_grows ?_ rfl)
    | with_reducible refine Grows.pair2 (by assumption) ?_
    | with_reducible refine Grows.pair1 (by assumption) ?_
    | with_reducible refine Grows.ofOpt (by assumption) ?_
    | with_reducible refine Grows.fold ?_ (fun _ _ _ => ?_)
    | with_reducible refine Grows.fold2 ?_ (fun _ _ _ => ?_)
    | with_reducible refine Grows.fold1 ?_ (fun _ _ _ => ?_) | intro _ | split | dsimp only

theorem ackRefuse_grows {z0 : State} {s : State} {q : AckReq} {why : NoChain} (hg : Grows z0 s) :
    Grows z0 (ackRefuse s q why) := by
  unfold ackRefuse
  repeat' first
    | with_reducible exact hg | with_reducible assumption | with_reducible apply onAmc_grows
    | with_reducible apply onFwd_grows | with_reducible apply bump_grows
    | fail_if_no_progress (with_reducible refine mk_grows ?_ rfl)
    | with_reducible refine Grows.pair2 (by assumption) ?_
    | with_reducible refine Grows.pair1 (by assumption) ?_
    | with_reducible refine Grows.ofOpt (by assumption) ?_ | intro _ | split | dsimp only

theorem ackGrant_grows {z0 : State} {s : State} {q : AckReq} {p : Pick} {psdu : List Byte} {d airUs : Nat} {pend : Bool} (hg : Grows z0 s) :
    Grows z0 (ackGrant s q p psdu d airUs pend) := by
  unfold ackGrant
  repeat' first
    | with_reducible exact hg | with_reducible assumption | with_reducible apply onAmc_grows
    | with_reducible apply bump_grows | with_reducible apply txIssue_grows | with_reducible apply newRef_grows
    | with_reducible apply setAside_grows | fail_if_no_progress (with_reducible refine mk_grows ?_ rfl)
    | with_reducible refine Grows.pair2 (by assumption) ?_
    | with_reducible refine Grows.pair1 (by assumption) ?_
    | with_reducible refine Grows.ofOpt (by assumption) ?_ | intro _ | split | dsimp only

theorem ackDecide_grows {z0 : State} {s : State} {q : AckReq} (hg : Grows z0 s) :
    Grows z0 (ackDecide s q) := by
  unfold ackDecide
  repeat' first
    | with_reducible exact hg | with_reducible assumption | with_reducible apply onAmc_grows
    | with_reducible apply ackRefuse_grows | with_reducible apply ackGrant_grows
    | fail_if_no_progress (with_reducible refine mk_grows ?_ rfl)
    | with_reducible refine Grows.pair2 (by assumption) ?_
    | with_reducible refine Grows.pair1 (by assumption) ?_
    | with_reducible refine Grows.ofOpt (by assumption) ?_ | intro _ | split | dsimp only

theorem ackArbiterRound_grows {z0 : State} {s : State} (hg : Grows z0 s) :
    Grows z0 (ackArbiterRound s) := by
  unfold ackArbiterRound
  repeat' first
    | with_reducible exact hg | with_reducible assumption | with_reducible apply onAmc_grows
    | with_reducible apply ackDecide_grows | fail_if_no_progress (with_reducible refine mk_grows ?_ rfl)
    | with_reducible refine Grows.pair2 (by assumption) ?_
    | with_reducible refine Grows.pair1 (by assumption) ?_
    | with_reducible refine Grows.ofOpt (by assumption) ?_
    | with_reducible refine Grows.fold ?_ (fun _ _ _ => ?_)
    | with_reducible refine Grows.fold2 ?_ (fun _ _ _ => ?_)
    | with_reducible refine Grows.fold1 ?_ (fun _ _ _ => ?_) | intro _ | split | dsimp only

theorem awaitAck_grows {z0 : State} {s : State} {ref : Nat} {issuer : Issuer} {chain first airUs freq : Nat} {a : AirOut} (hg : Grows z0 s) :
    Grows z0 (awaitAck s ref issuer chain first airUs freq a) := by
  unfold awaitAck
  repeat' first
    | with_reducible exact hg | with_reducible assumption | with_reducible apply onAmc_grows
    | fail_if_no_progress (with_reducible refine mk_grows ?_ rfl)
    | with_reducible refine Grows.pair2 (by assumption) ?_
    | with_reducible refine Grows.pair1 (by assumption) ?_
    | with_reducible refine Grows.ofOpt (by assumption) ?_ | intro _ | split | dsimp only

theorem waitOver_grows {z0 : State} {s : State} {ref : Nat} (hg : Grows z0 s) :
    Grows z0 (waitOver s ref) := by
  unfold waitOver
  repeat' first
    | with_reducible exact hg | with_reducible assumption | with_reducible apply onAmc_grows
    | fail_if_no_progress (with_reducible refine mk_grows ?_ rfl)
    | with_reducible refine Grows.pair2 (by assumption) ?_
    | with_reducible refine Grows.pair1 (by assumption) ?_
    | with_reducible refine Grows.ofOpt (by assumption) ?_ | intro _ | split | dsimp only

theorem waitDone_grows {z0 : State} {s : State} {ref : Nat} (hg : Grows z0 s) :
    Grows z0 (waitDone s ref) := by
  unfold waitDone
  repeat' first
    | with_reducible exact hg | with_reducible assumption | with_reducible apply onAmc_grows
    | fail_if_no_progress (with_reducible refine mk_grows ?_ rfl)
    | with_reducible refine Grows.pair2 (by assumption) ?_
    | with_reducible refine Grows.pair1 (by assumption) ?_
    | with_reducible refine Grows.ofOpt (by assumption) ?_ | intro _ | split | dsimp only

theorem setRun_grows {z0 : State} {s : State} {c : Nat} {r : AsyncRun} (hg : Grows z0 s) :
    Grows z0 (setRun s c r) := by
  unfold setRun
  repeat' first
    | with_reducible exact hg | with_reducible assumption | with_reducible apply onAmc_grows
    | fail_if_no_progress (with_reducible refine mk_grows ?_ rfl)
    | with_reducible refine Grows.pair2 (by assumption) ?_
    | with_reducible refine Grows.pair1 (by assumption) ?_
    | with_reducible refine Grows.ofOpt (by assumption) ?_ | intro _ | split | dsimp only

theorem airEnd_grows {z0 : State} {s : State} {f : EscFrame} {chain : Nat} {c : Completion} {ok : Bool} (hg : Grows z0 s) :
    Grows z0 (airEnd s f chain c ok) := by
  unfold airEnd
  repeat' first
    | with_reducible exact hg | with_reducible assumption | with_reducible apply onEsc_grows
    | with_reducible apply cset_grows | with_reducible apply escEnd_grows
    | with_reducible apply fusRelease_grows | fail_if_no_progress (with_reducible refine mk_grows ?_ rfl)
    | with_reducible refine Grows.pair2 (by assumption) ?_
    | with_reducible refine Grows.pair1 (by assumption) ?_
    | with_reducible refine Grows.ofOpt (by assumption) ?_ | intro _ | split | dsimp only

theorem runEnd_grows {z0 : State} {s : State} {c : Nat} {r : AsyncRun} {amc tx : Nat} (hg : Grows z0 s) :
    Grows z0 (runEnd s c r amc tx) := by
  unfold runEnd
  repeat' first
    | with_reducible exact hg | with_reducible assumption | with_reducible apply onAmc_grows
    | with_reducible apply raise_grows | with_reducible apply airEnd_grows
    | fail_if_no_progress (with_reducible refine mk_grows ?_ rfl)
    | with_reducible refine Grows.pair2 (by assumption) ?_
    | with_reducible refine Grows.pair1 (by assumption) ?_
    | with_reducible refine Grows.ofOpt (by assumption) ?_ | intro _ | split | dsimp only

theorem startBackoff_grows {z0 : State} {s : State} {c : Nat} {r : AsyncRun} (hg : Grows z0 s) :
    Grows z0 (startBackoff s c r) := by
  unfold startBackoff
  repeat' first
    | with_reducible exact hg | with_reducible assumption | with_reducible apply drawRandom_grows
    | with_reducible apply bump_grows | with_reducible apply setRun_grows | with_reducible apply runEnd_grows
    | fail_if_no_progress (with_reducible refine mk_grows ?_ rfl)
    | with_reducible refine Grows.pair2 (by assumption) ?_
    | with_reducible refine Grows.pair1 (by assumption) ?_
    | with_reducible refine Grows.ofOpt (by assumption) ?_ | intro _ | split | dsimp only

theorem runStart_grows {z0 : State} {s : State} {c : Nat} {f : EscFrame} {freq : Nat} (hg : Grows z0 s) :
    Grows z0 (runStart s c f freq) := by
  unfold runStart
  repeat' first
    | with_reducible exact hg | with_reducible assumption | with_reducible apply startBackoff_grows
    | fail_if_no_progress (with_reducible refine mk_grows ?_ rfl)
    | with_reducible refine Grows.pair2 (by assumption) ?_
    | with_reducible refine Grows.pair1 (by assumption) ?_
    | with_reducible refine Grows.ofOpt (by assumption) ?_ | intro _ | split | dsimp only

theorem backOff_grows {z0 : State} {s : State} {c : Nat} {r : AsyncRun} (hg : Grows z0 s) :
    Grows z0 (backOff s c r) := by
  unfold backOff
  repeat' first
    | with_reducible exact hg | with_reducible assumption | with_reducible apply bump_grows
    | with_reducible apply runEnd_grows | with_reducible apply startBackoff_grows
    | fail_if_no_progress (with_reducible refine mk_grows ?_ rfl)
    | with_reducible refine Grows.pair2 (by assumption) ?_
    | with_reducible refine Grows.pair1 (by assumption) ?_
    | with_reducible refine Grows.ofOpt (by assumption) ?_ | intro _ | split | dsimp only

theorem runIssue_grows {z0 : State} {s : State} {c : Nat} {r : AsyncRun} {a : AirOut} (hg : Grows z0 s) :
    Grows z0 (runIssue s c r a) := by
  unfold runIssue
  repeat' first
    | with_reducible exact hg | with_reducible assumption | with_reducible apply txIssue_grows
    | with_reducible apply newRef_grows | with_reducible apply setRun_grows
    | fail_if_no_progress (with_reducible refine mk_grows ?_ rfl)
    | with_reducible refine Grows.pair2 (by assumption) ?_
    | with_reducible refine Grows.pair1 (by assumption) ?_
    | with_reducible refine Grows.ofOpt (by assumption) ?_ | intro _ | split | dsimp only

theorem backoffExpiry_grows {z0 : State} {s : State} {c : Nat} (hg : Grows z0 s) :
    Grows z0 (backoffExpiry s c) := by
  unfold backoffExpiry
  repeat' first
    | with_reducible exact hg | with_reducible assumption | with_reducible apply bump_grows
    | with_reducible apply runEnd_grows | with_reducible apply backOff_grows
    | with_reducible apply runIssue_grows | fail_if_no_progress (with_reducible refine mk_grows ?_ rfl)
    | with_reducible refine Grows.pair2 (by assumption) ?_
    | with_reducible refine Grows.pair1 (by assumption) ?_
    | with_reducible refine Grows.ofOpt (by assumption) ?_ | intro _ | split | dsimp only

theorem runAcked_grows {z0 : State} {s : State} {c : Nat} {r : AsyncRun} {acked : Bool} (hg : Grows z0 s) :
    Grows z0 (runAcked s c r acked) := by
  unfold runAcked
  repeat' first
    | with_reducible exact hg | with_reducible assumption | with_reducible apply bump_grows
    | with_reducible apply runEnd_grows | with_reducible apply startBackoff_grows
    | fail_if_no_progress (with_reducible refine mk_grows ?_ rfl)
    | with_reducible refine Grows.pair2 (by assumption) ?_
    | with_reducible refine Grows.pair1 (by assumption) ?_
    | with_reducible refine Grows.ofOpt (by assumption) ?_ | intro _ | split | dsimp only

theorem runTxEnd_grows {z0 : State} {s : State} {e : TxEnd} (hg : Grows z0 s) :
    Grows z0 (runTxEnd s e) := by
  unfold runTxEnd
  repeat' first
    | with_reducible exact hg | with_reducible assumption | with_reducible apply onAmc_grows
    | with_reducible apply bump_grows | with_reducible apply awaitAck_grows | with_reducible apply setRun_grows
    | with_reducible apply runEnd_grows | with_reducible apply startBackoff_grows
    | with_reducible apply backOff_grows | fail_if_no_progress (with_reducible refine mk_grows ?_ rfl)
    | with_reducible refine Grows.pair2 (by assumption) ?_
    | with_reducible refine Grows.pair1 (by assumption) ?_
    | with_reducible refine Grows.ofOpt (by assumption) ?_ | intro _ | split | dsimp only

theorem beaconNext_grows {z0 : State} {s : State} {b pos : Nat} (hg : Grows z0 s) :
    Grows z0 (beaconNext s b pos) := by
  unfold beaconNext
  repeat' first
    | with_reducible exact hg | with_reducible assumption | with_reducible apply onAmc_grows
    | fail_if_no_progress (with_reducible refine mk_grows ?_ rfl)
    | with_reducible refine Grows.pair2 (by assumption) ?_
    | with_reducible refine Grows.pair1 (by assumption) ?_
    | with_reducible refine Grows.ofOpt (by assumption) ?_ | intro _ | split | dsimp only

theorem beaconSkip_grows {z0 : State} {s : State} {b cause : Nat} (hg : Grows z0 s) :
    Grows z0 (beaconSkip s b cause) := by
  unfold beaconSkip
  repeat' first
    | with_reducible exact hg | with_reducible assumption | with_reducible apply bump_grows
    | with_reducible apply raise_grows | fail_if_no_progress (with_reducible refine mk_grows ?_ rfl)
    | with_reducible refine Grows.pair2 (by assumption) ?_
    | with_reducible refine Grows.pair1 (by assumption) ?_
    | with_reducible refine Grows.ofOpt (by assumption) ?_ | intro _ | split | dsimp only

theorem ebSettle_grows {z0 : State} {s : State} (hg : Grows z0 s) :
    Grows z0 (ebSettle s) := by
  unfold ebSettle
  repeat' first
    | with_reducible exact hg | with_reducible assumption | with_reducible apply takeEffect_grows
    | with_reducible apply onAmc_grows | with_reducible apply conflictScan_grows
    | fail_if_no_progress (with_reducible refine mk_grows ?_ rfl)
    | with_reducible refine Grows.pair2 (by assumption) ?_
    | with_reducible refine Grows.pair1 (by assumption) ?_
    | with_reducible refine Grows.ofOpt (by assumption) ?_ | intro _ | split | dsimp only

theorem ebWritten_grows {z0 : State} {s : State} (hg : Grows z0 s) :
    Grows z0 (ebWritten s) := by
  unfold ebWritten
  repeat' first
    | with_reducible exact hg | with_reducible assumption | with_reducible apply takeEffect_grows
    | with_reducible apply onAmc_grows | with_reducible apply conflictScan_grows
    | fail_if_no_progress (with_reducible refine mk_grows ?_ rfl)
    | with_reducible refine Grows.pair2 (by assumption) ?_
    | with_reducible refine Grows.pair1 (by assumption) ?_
    | with_reducible refine Grows.ofOpt (by assumption) ?_ | intro _ | split | dsimp only

theorem beaconFix_grows {z0 : State} {s : State} {b : Nat} (hg : Grows z0 s) :
    Grows z0 (beaconFix s b) := by
  unfold beaconFix
  repeat' first
    | with_reducible exact hg | with_reducible assumption | with_reducible apply onAmc_grows
    | with_reducible apply txIssue_grows | with_reducible apply newRef_grows
    | with_reducible apply setAside_grows | with_reducible apply beaconNext_grows
    | with_reducible apply beaconSkip_grows | with_reducible apply ebSettle_grows
    | fail_if_no_progress (with_reducible refine mk_grows ?_ rfl)
    | with_reducible refine Grows.pair2 (by assumption) ?_
    | with_reducible refine Grows.pair1 (by assumption) ?_
    | with_reducible refine Grows.ofOpt (by assumption) ?_ | intro _ | split | dsimp only

theorem beaconsLate_grows {z0 : State} {s0 s : State} (hg : Grows z0 s) :
    Grows z0 (beaconsLate s0 s) := by
  unfold beaconsLate
  repeat' first
    | with_reducible exact hg | with_reducible assumption | with_reducible apply onAmc_grows
    | with_reducible apply beaconSkip_grows | fail_if_no_progress (with_reducible refine mk_grows ?_ rfl)
    | with_reducible refine Grows.pair2 (by assumption) ?_
    | with_reducible refine Grows.pair1 (by assumption) ?_
    | with_reducible refine Grows.ofOpt (by assumption) ?_
    | with_reducible refine Grows.fold ?_ (fun _ _ _ => ?_)
    | with_reducible refine Grows.fold2 ?_ (fun _ _ _ => ?_)
    | with_reducible refine Grows.fold1 ?_ (fun _ _ _ => ?_) | intro _ | split | dsimp only

theorem asyncStart_grows {z0 : State} {s : State} {c : Nat} (hg : Grows z0 s) :
    Grows z0 (asyncStart s c) := by
  unfold asyncStart
  repeat' first
    | with_reducible exact hg | with_reducible assumption | with_reducible apply onAmc_grows
    | with_reducible apply runStart_grows | with_reducible apply beaconNext_grows
    | with_reducible apply beaconSkip_grows | fail_if_no_progress (with_reducible refine mk_grows ?_ rfl)
    | with_reducible refine Grows.pair2 (by assumption) ?_
    | with_reducible refine Grows.pair1 (by assumption) ?_
    | with_reducible refine Grows.ofOpt (by assumption) ?_ | intro _ | split | dsimp only

theorem ebrAngle_grows {z0 : State} {s : State} {c : Nat} (hg : Grows z0 s) :
    Grows z0 (ebrAngle s c) := by
  unfold ebrAngle
  repeat' first
    | with_reducible exact hg | with_reducible assumption | with_reducible apply onChain_grows
    | fail_if_no_progress (with_reducible refine mk_grows ?_ rfl)
    | with_reducible refine Grows.pair2 (by assumption) ?_
    | with_reducible refine Grows.pair1 (by assumption) ?_
    | with_reducible refine Grows.ofOpt (by assumption) ?_ | intro _ | split | dsimp only

theorem nbBeacon_grows {z0 : State} {s : State} {i : SiteInfo} {rsv : List Nat} {angle ltb : Nat} (hg : Grows z0 s) :
    Grows z0 (nbBeacon s i rsv angle ltb) := by
  unfold nbBeacon
  repeat' first
    | with_reducible exact hg | with_reducible assumption | with_reducible apply onAmc_grows
    | with_reducible apply bump_grows | with_reducible apply raise_grows | with_reducible apply raiseFirst_grows
    | with_reducible apply conflictScan_grows | fail_if_no_progress (with_reducible refine mk_grows ?_ rfl)
    | with_reducible refine Grows.pair2 (by assumption) ?_
    | with_reducible refine Grows.pair1 (by assumption) ?_
    | with_reducible refine Grows.ofOpt (by assumption) ?_ | intro _ | split | dsimp only

theorem neighbourMissed_grows {z0 : State} {s : State} {k : Nat} (hg : Grows z0 s) :
    Grows z0 (neighbourMissed s k) := by
  unfold neighbourMissed
  repeat' first
    | with_reducible exact hg | with_reducible assumption | with_reducible apply onAmc_grows
    | with_reducible apply bump_grows | with_reducible apply raise_grows | with_reducible apply nbReached_grows
    | fail_if_no_progress (with_reducible refine mk_grows ?_ rfl)
    | with_reducible refine Grows.pair2 (by assumption) ?_
    | with_reducible refine Grows.pair1 (by assumption) ?_
    | with_reducible refine Grows.ofOpt (by assumption) ?_ | intro _ | split | dsimp only

theorem nbCycle_grows {z0 : State} {s : State} (hg : Grows z0 s) :
    Grows z0 (nbCycle s) := by
  unfold nbCycle
  repeat' first
    | with_reducible exact hg | with_reducible assumption | with_reducible apply onAmc_grows
    | fail_if_no_progress (with_reducible refine mk_grows ?_ rfl)
    | with_reducible refine Grows.pair2 (by assumption) ?_
    | with_reducible refine Grows.pair1 (by assumption) ?_
    | with_reducible refine Grows.ofOpt (by assumption) ?_ | intro _ | split | dsimp only

theorem neighbourHold_grows {z0 : State} {s : State} {k : Nat} (hg : Grows z0 s) :
    Grows z0 (neighbourHold s k) := by
  unfold neighbourHold
  repeat' first
    | with_reducible exact hg | with_reducible assumption | with_reducible apply onAmc_grows
    | with_reducible apply raise_grows | with_reducible apply conflictScan_grows
    | fail_if_no_progress (with_reducible refine mk_grows ?_ rfl)
    | with_reducible refine Grows.pair2 (by assumption) ?_
    | with_reducible refine Grows.pair1 (by assumption) ?_
    | with_reducible refine Grows.ofOpt (by assumption) ?_ | intro _ | split | dsimp only

theorem beaconReceived_grows {z0 : State} {s : State} {r : LaneRec} {m : Mhr} (hg : Grows z0 s) :
    Grows z0 (beaconReceived s r m) := by
  unfold beaconReceived
  repeat' first
    | with_reducible exact hg | with_reducible assumption | with_reducible apply bump_grows
    | with_reducible apply raise_grows | with_reducible apply nbBeacon_grows
    | fail_if_no_progress (with_reducible refine mk_grows ?_ rfl)
    | with_reducible refine Grows.pair2 (by assumption) ?_
    | with_reducible refine Grows.pair1 (by assumption) ?_
    | with_reducible refine Grows.ofOpt (by assumption) ?_ | intro _ | split | dsimp only

theorem ebrReceived_grows {z0 : State} {s : State} {band freq profile : Nat} (hg : Grows z0 s) :
    Grows z0 (ebrReceived s band freq profile) := by
  unfold ebrReceived
  repeat' first
    | with_reducible exact hg | with_reducible assumption | with_reducible apply onAmc_grows
    | with_reducible apply bump_grows | fail_if_no_progress (with_reducible refine mk_grows ?_ rfl)
    | with_reducible refine Grows.pair2 (by assumption) ?_
    | with_reducible refine Grows.pair1 (by assumption) ?_
    | with_reducible refine Grows.ofOpt (by assumption) ?_ | intro _ | split | dsimp only

theorem amcEnable_grows {z0 : State} {s : State} (hg : Grows z0 s) :
    Grows z0 (amcEnable s) := by
  unfold amcEnable
  repeat' first
    | with_reducible exact hg | with_reducible assumption | with_reducible apply set_grows
    | with_reducible apply takeEffect_grows | with_reducible apply onAmc_grows
    | with_reducible apply claimAll_grows | fail_if_no_progress (with_reducible refine mk_grows ?_ rfl)
    | with_reducible refine Grows.pair2 (by assumption) ?_
    | with_reducible refine Grows.pair1 (by assumption) ?_
    | with_reducible refine Grows.ofOpt (by assumption) ?_ | intro _ | split | dsimp only

theorem amcDisable_grows {z0 : State} {s : State} (hg : Grows z0 s) :
    Grows z0 (amcDisable s) := by
  unfold amcDisable
  repeat' first
    | with_reducible exact hg | with_reducible assumption | with_reducible apply set_grows
    | with_reducible apply onAmc_grows | with_reducible apply releaseAll_grows
    | with_reducible apply commandWithdraw_grows | with_reducible apply airEnd_grows
    | with_reducible apply runEnd_grows | fail_if_no_progress (with_reducible refine mk_grows ?_ rfl)
    | with_reducible refine Grows.pair2 (by assumption) ?_
    | with_reducible refine Grows.pair1 (by assumption) ?_
    | with_reducible refine Grows.ofOpt (by assumption) ?_
    | with_reducible refine Grows.fold ?_ (fun _ _ _ => ?_)
    | with_reducible refine Grows.fold2 ?_ (fun _ _ _ => ?_)
    | with_reducible refine Grows.fold1 ?_ (fun _ _ _ => ?_) | intro _ | split | dsimp only

/-! ### EscOps -/

theorem drrServe_grows {z0 : State} {s : State} {port prio : Nat} {all : List Visit} {x : Visit} (hg : Grows z0 s) :
    Grows z0 (drrServe s port prio all x) := by
  unfold drrServe
  repeat' first
    | with_reducible exact hg | with_reducible assumption | with_reducible apply onEsc_grows
    | fail_if_no_progress (with_reducible refine mk_grows ?_ rfl)
    | with_reducible refine Grows.pair2 (by assumption) ?_
    | with_reducible refine Grows.pair1 (by assumption) ?_
    | with_reducible refine Grows.ofOpt (by assumption) ?_
    | with_reducible refine Grows.fold ?_ (fun _ _ _ => ?_)
    | with_reducible refine Grows.fold2 ?_ (fun _ _ _ => ?_)
    | with_reducible refine Grows.fold1 ?_ (fun _ _ _ => ?_) | intro _ | split | dsimp only

theorem drrDone_grows {z0 : State} {s : State} {port prio : Nat} {passing : List Visit} (hg : Grows z0 s) :
    Grows z0 (drrDone s port prio passing).2 := by
  unfold drrDone
  repeat' first
    | with_reducible exact hg | with_reducible assumption | with_reducible apply drrServe_grows
    | fail_if_no_progress (with_reducible refine mk_grows ?_ rfl)
    | with_reducible refine Grows.pair2 (by assumption) ?_
    | with_reducible refine Grows.pair1 (by assumption) ?_
    | with_reducible refine Grows.ofOpt (by assumption) ?_ | intro _ | split | dsimp only

theorem selectClass_grows {s0 : State} {test : State → EscFrame → Bool × State}
    (ht : ∀ v x, Grows s0 v → Grows s0 (test v x).2) {port prio n : Nat} {s : State} {l : List Turn} {q : List Visit}
    (h : Grows s0 s) : Grows s0 (selectClass test port prio n s l q).2.2 := by
  induction n generalizing s l q with
  | zero =>
    simp only [selectClass]
    exact drrDone_grows h
  | succ n ih =>
    unfold selectClass
    split
    · dsimp only
      exact drrDone_grows h
    · split
      · exact ih h
      · dsimp only
        split
        · split
          · exact drrServe_grows (Grows.pair2 (by assumption) (ht _ _ h))
          · exact ih (Grows.pair2 (by assumption) (ht _ _ h))
        · exact ih (Grows.pair2 (by assumption) (ht _ _ h))

theorem selectFrame_grows {s0 : State} {test : State → EscFrame → Bool × State}
    (ht : ∀ v x, Grows s0 v → Grows s0 (test v x).2) {port mask : Nat} {own : Bool} {s : State} {n : Nat} {l : List Nat}
    (h : Grows s0 s) : Grows s0 (selectFrame test port mask own s n l).2 := by
  induction l generalizing s n with
  | nil => exact h
  | cons p r ih =>
    have g := selectClass_grows ht (port := port) (prio := p) (n := n)
      (l := drrOrder s port p ((svcClass s port mask p).map (fun v => ⟨v, svcFrames s port own v⟩))) (q := []) h
    unfold selectFrame
    split
    · rename_i e; rw [e] at g; exact g
    · rename_i e; rw [e] at g; exact ih g

theorem removeFrame_grows {z0 : State} {s : State} {f : EscFrame} (hg : Grows z0 s) :
    Grows z0 (removeFrame s f) := by
  unfold removeFrame
  repeat' first
    | with_reducible exact hg | with_reducible assumption | with_reducible apply setSubQueue_grows
    | with_reducible apply setSvcQueue_grows | fail_if_no_progress (with_reducible refine mk_grows ?_ rfl)
    | with_reducible refine Grows.pair2 (by assumption) ?_
    | with_reducible refine Grows.pair1 (by assumption) ?_
    | with_reducible refine Grows.ofOpt (by assumption) ?_ | intro _ | split | dsimp only

theorem badDrop_grows {z0 : State} {s : State} {f : EscFrame} {k : Nat} (hg : Grows z0 s) :
    Grows z0 (badDrop s f k) := by
  unfold badDrop
  repeat' first
    | with_reducible exact hg | with_reducible assumption | with_reducible apply escEnd_grows
    | with_reducible apply noCounter_grows | with_reducible apply removeFrame_grows
    | fail_if_no_progress (with_reducible refine mk_grows ?_ rfl)
    | with_reducible refine Grows.pair2 (by assumption) ?_
    | with_reducible refine Grows.pair1 (by assumption) ?_
    | with_reducible refine Grows.ofOpt (by assumption) ?_ | intro _ | split | dsimp only

theorem examFirst_grows {z0 : State} {s : State} {p : Nat} {f : EscFrame} (hg : Grows z0 s) :
    Grows z0 (examFirst s p f).2 := by
  unfold examFirst
  repeat' first
    | with_reducible exact hg | with_reducible assumption | with_reducible apply escDrop_grows
    | with_reducible apply removeFrame_grows | with_reducible apply badDrop_grows
    | fail_if_no_progress (with_reducible refine mk_grows ?_ rfl)
    | with_reducible refine Grows.pair2 (by assumption) ?_
    | with_reducible refine Grows.pair1 (by assumption) ?_
    | with_reducible refine Grows.ofOpt (by assumption) ?_ | intro _ | split | dsimp only

theorem examHeld_grows {z0 : State} {s : State} {p : Nat} {f : EscFrame} (hg : Grows z0 s) :
    Grows z0 (examHeld s p f).2 := by
  unfold examHeld
  repeat' first
    | with_reducible exact hg | with_reducible assumption | with_reducible apply examFirst_grows
    | fail_if_no_progress (with_reducible refine mk_grows ?_ rfl)
    | with_reducible refine Grows.pair2 (by assumption) ?_
    | with_reducible refine Grows.pair1 (by assumption) ?_
    | with_reducible refine Grows.ofOpt (by assumption) ?_ | intro _ | split | dsimp only

theorem bucketsPass_grows {z0 : State} {s : State} {p : Nat} {f : EscFrame} (hg : Grows z0 s) :
    Grows z0 (bucketsPass s p f).2 := by
  unfold bucketsPass
  repeat' first
    | with_reducible exact hg | with_reducible assumption | with_reducible apply bktAccess_grows
    | with_reducible apply subAccess_grows | fail_if_no_progress (with_reducible refine mk_grows ?_ rfl)
    | with_reducible refine Grows.pair2 (by assumption) ?_
    | with_reducible refine Grows.pair1 (by assumption) ?_
    | with_reducible refine Grows.ofOpt (by assumption) ?_ | intro _ | split | dsimp only

theorem chargeAll_grows {z0 : State} {s : State} {p len : Nat} {f : EscFrame} (hg : Grows z0 s) :
    Grows z0 (chargeAll s p len f) := by
  unfold chargeAll
  repeat' first
    | with_reducible exact hg | with_reducible assumption | with_reducible apply bktCharge_grows
    | with_reducible apply subCharge_grows | fail_if_no_progress (with_reducible refine mk_grows ?_ rfl)
    | with_reducible refine Grows.pair2 (by assumption) ?_
    | with_reducible refine Grows.pair1 (by assumption) ?_
    | with_reducible refine Grows.ofOpt (by assumption) ?_ | intro _ | split | dsimp only

theorem fuseeTest_grows {z0 : State} {s : State} {band freq occHz a : Nat} (hg : Grows z0 s) :
    Grows z0 (fuseeTest s band freq occHz a).2 := by
  unfold fuseeTest
  repeat' first
    | with_reducible exact hg | with_reducible assumption | with_reducible apply bump_grows
    | with_reducible apply fusBoundary_grows | fail_if_no_progress (with_reducible refine mk_grows ?_ rfl)
    | with_reducible refine Grows.pair2 (by assumption) ?_
    | with_reducible refine Grows.pair1 (by assumption) ?_
    | with_reducible refine Grows.ofOpt (by assumption) ?_ | intro _ | split | dsimp only

theorem holdFrame_grows {z0 : State} {s : State} {f : EscFrame} (hg : Grows z0 s) :
    Grows z0 (holdFrame s f) := by
  unfold holdFrame
  repeat' first
    | with_reducible exact hg | with_reducible assumption | with_reducible apply onEsc_grows
    | with_reducible apply removeFrame_grows | fail_if_no_progress (with_reducible refine mk_grows ?_ rfl)
    | with_reducible refine Grows.pair2 (by assumption) ?_
    | with_reducible refine Grows.pair1 (by assumption) ?_
    | with_reducible refine Grows.ofOpt (by assumption) ?_ | intro _ | split | dsimp only

theorem returnFrame_grows {z0 : State} {s : State} {f : EscFrame} (hg : Grows z0 s) :
    Grows z0 (returnFrame s f) := by
  unfold returnFrame
  repeat' first
    | with_reducible exact hg | with_reducible assumption | with_reducible apply onEsc_grows
    | with_reducible apply setSubQueue_grows | with_reducible apply setSvcQueue_grows
    | fail_if_no_progress (with_reducible refine mk_grows ?_ rfl)
    | with_reducible refine Grows.pair2 (by assumption) ?_
    | with_reducible refine Grows.pair1 (by assumption) ?_
    | with_reducible refine Grows.ofOpt (by assumption) ?_ | intro _ | split | dsimp only

theorem slotframeBoundary_grows {z0 : State} {s : State} (hg : Grows z0 s) :
    Grows z0 (slotframeBoundary s) := by
  unfold slotframeBoundary
  repeat' first
    | with_reducible exact hg | with_reducible assumption | with_reducible apply set_grows
    | with_reducible apply raise_grows | fail_if_no_progress (with_reducible refine mk_grows ?_ rfl)
    | with_reducible refine Grows.pair2 (by assumption) ?_
    | with_reducible refine Grows.pair1 (by assumption) ?_
    | with_reducible refine Grows.ofOpt (by assumption) ?_ | intro _ | split | dsimp only

theorem slotNode_grows {z0 : State} {s : State} {k h : Nat} (hg : Grows z0 s) :
    Grows z0 (slotNode s k h).2 := by
  unfold slotNode
  repeat' first
    | with_reducible exact hg | with_reducible assumption | with_reducible apply onEsc_grows
    | with_reducible apply raise_grows | fail_if_no_progress (with_reducible refine mk_grows ?_ rfl)
    | with_reducible refine Grows.pair2 (by assumption) ?_
    | with_reducible refine Grows.pair1 (by assumption) ?_
    | with_reducible refine Grows.ofOpt (by assumption) ?_ | intro _ | split | dsimp only

theorem slotTest_grows {z0 : State} {k c g : Nat} {s : State} {f : EscFrame} (hg : Grows z0 s) :
    Grows z0 (slotTest k c g s f).2 := by
  unfold slotTest
  repeat' first
    | with_reducible exact hg | with_reducible assumption | with_reducible apply examFirst_grows
    | with_reducible apply bucketsPass_grows | with_reducible apply fuseeTest_grows
    | with_reducible apply slotNode_grows | fail_if_no_progress (with_reducible refine mk_grows ?_ rfl)
    | with_reducible refine Grows.pair2 (by assumption) ?_
    | with_reducible refine Grows.pair1 (by assumption) ?_
    | with_reducible refine Grows.ofOpt (by assumption) ?_ | intro _ | split | dsimp only

theorem slotRelease_grows {z0 : State} {s : State} {k c g : Nat} {f : EscFrame} {a : AirOut} (hg : Grows z0 s) :
    Grows z0 (slotRelease s k c g f a) := by
  unfold slotRelease
  repeat' first
    | with_reducible exact hg | with_reducible assumption | with_reducible apply onChain_grows
    | with_reducible apply onEsc_grows | with_reducible apply bump_grows | with_reducible apply txIssue_grows
    | with_reducible apply fusHoldFor_grows | with_reducible apply newRef_grows
    | with_reducible apply setAside_grows | with_reducible apply chargeAll_grows
    | with_reducible apply holdFrame_grows | fail_if_no_progress (with_reducible refine mk_grows ?_ rfl)
    | with_reducible refine Grows.pair2 (by assumption) ?_
    | with_reducible refine Grows.pair1 (by assumption) ?_
    | with_reducible refine Grows.ofOpt (by assumption) ?_ | intro _ | split | dsimp only

theorem txOccurrence_grows {z0 : State} {s : State} {k : Nat} (hg : Grows z0 s) :
    Grows z0 (txOccurrence s k) := by
  unfold txOccurrence
  repeat' first
    | with_reducible exact hg | with_reducible assumption | with_reducible apply onEsc_grows
    | with_reducible apply bump_grows | with_reducible apply selectFrame_grows
    | with_reducible apply slotTest_grows | with_reducible apply slotRelease_grows
    | fail_if_no_progress (with_reducible refine mk_grows ?_ rfl)
    | with_reducible refine Grows.pair2 (by assumption) ?_
    | with_reducible refine Grows.pair1 (by assumption) ?_
    | with_reducible refine Grows.ofOpt (by assumption) ?_ | intro _ | split | dsimp only

theorem decisionsLate_grows {z0 : State} {s : State} {w : Nat} (hg : Grows z0 s) :
    Grows z0 (decisionsLate s w) := by
  unfold decisionsLate
  repeat' first
    | with_reducible exact hg | with_reducible assumption | with_reducible apply onEsc_grows
    | with_reducible apply bump_grows | fail_if_no_progress (with_reducible refine mk_grows ?_ rfl)
    | with_reducible refine Grows.pair2 (by assumption) ?_
    | with_reducible refine Grows.pair1 (by assumption) ?_
    | with_reducible refine Grows.ofOpt (by assumption) ?_
    | with_reducible refine Grows.fold ?_ (fun _ _ _ => ?_)
    | with_reducible refine Grows.fold2 ?_ (fun _ _ _ => ?_)
    | with_reducible refine Grows.fold1 ?_ (fun _ _ _ => ?_) | intro _ | split | dsimp only

theorem rxOccurrenceOpen_grows {z0 : State} {s : State} {k : Nat} (hg : Grows z0 s) :
    Grows z0 (rxOccurrenceOpen s k) := by
  unfold rxOccurrenceOpen
  repeat' first
    | with_reducible exact hg | with_reducible assumption | with_reducible apply onEsc_grows
    | with_reducible apply rxReached_grows | fail_if_no_progress (with_reducible refine mk_grows ?_ rfl)
    | with_reducible refine Grows.pair2 (by assumption) ?_
    | with_reducible refine Grows.pair1 (by assumption) ?_
    | with_reducible refine Grows.ofOpt (by assumption) ?_ | intro _ | split | dsimp only

theorem rxOccurrenceClose_grows {z0 : State} {s : State} {k : Nat} (hg : Grows z0 s) :
    Grows z0 (rxOccurrenceClose s k) := by
  unfold rxOccurrenceClose
  repeat' first
    | with_reducible exact hg | with_reducible assumption | with_reducible apply onEsc_grows
    | with_reducible apply rxReached_grows | fail_if_no_progress (with_reducible refine mk_grows ?_ rfl)
    | with_reducible refine Grows.pair2 (by assumption) ?_
    | with_reducible refine Grows.pair1 (by assumption) ?_
    | with_reducible refine Grows.ofOpt (by assumption) ?_ | intro _ | split | dsimp only

theorem slotFailed_grows {z0 : State} {s : State} {c : Nat} {f : EscFrame} {tx : Nat} (hg : Grows z0 s) :
    Grows z0 (slotFailed s c f tx) := by
  unfold slotFailed
  repeat' first
    | with_reducible exact hg | with_reducible assumption | with_reducible apply bump_grows
    | with_reducible apply fusRelease_grows | with_reducible apply airEnd_grows
    | with_reducible apply returnFrame_grows | fail_if_no_progress (with_reducible refine mk_grows ?_ rfl)
    | with_reducible refine Grows.pair2 (by assumption) ?_
    | with_reducible refine Grows.pair1 (by assumption) ?_
    | with_reducible refine Grows.ofOpt (by assumption) ?_ | intro _ | split | dsimp only

theorem slotTxEnd_grows {z0 : State} {s : State} {e : TxEnd} (hg : Grows z0 s) :
    Grows z0 (slotTxEnd s e) := by
  unfold slotTxEnd
  repeat' first
    | with_reducible exact hg | with_reducible assumption | with_reducible apply onEsc_grows
    | with_reducible apply fusRelease_grows | with_reducible apply awaitAck_grows
    | with_reducible apply airEnd_grows | with_reducible apply returnFrame_grows
    | with_reducible apply slotFailed_grows | fail_if_no_progress (with_reducible refine mk_grows ?_ rfl)
    | with_reducible refine Grows.pair2 (by assumption) ?_
    | with_reducible refine Grows.pair1 (by assumption) ?_
    | with_reducible refine Grows.ofOpt (by assumption) ?_ | intro _ | split | dsimp only

theorem slotAcked_grows {z0 : State} {s : State} {c ref : Nat} {acked : Bool} (hg : Grows z0 s) :
    Grows z0 (slotAcked s c ref acked) := by
  unfold slotAcked
  repeat' first
    | with_reducible exact hg | with_reducible assumption | with_reducible apply airEnd_grows
    | with_reducible apply slotFailed_grows | fail_if_no_progress (with_reducible refine mk_grows ?_ rfl)
    | with_reducible refine Grows.pair2 (by assumption) ?_
    | with_reducible refine Grows.pair1 (by assumption) ?_
    | with_reducible refine Grows.ofOpt (by assumption) ?_ | intro _ | split | dsimp only

theorem laneUpset_grows {z0 : State} {s : State} {f : EscFrame} {upset : List Nat} (hg : Grows z0 s) :
    Grows z0 (laneUpset s f upset) := by
  unfold laneUpset
  repeat' first
    | with_reducible exact hg | with_reducible assumption | with_reducible apply ntUpset_grows
    | fail_if_no_progress (with_reducible refine mk_grows ?_ rfl)
    | with_reducible refine Grows.pair2 (by assumption) ?_
    | with_reducible refine Grows.pair1 (by assumption) ?_
    | with_reducible refine Grows.ofOpt (by assumption) ?_ | intro _ | split | dsimp only

theorem asyncTest_grows {z0 : State} {c : Nat} {upset : List Nat} {s : State} {f : EscFrame} (hg : Grows z0 s) :
    Grows z0 (asyncTest c upset s f).2 := by
  unfold asyncTest
  repeat' first
    | with_reducible exact hg | with_reducible assumption | with_reducible apply bump_grows
    | with_reducible apply examHeld_grows | with_reducible apply bucketsPass_grows
    | with_reducible apply fuseeTest_grows | with_reducible apply laneUpset_grows
    | fail_if_no_progress (with_reducible refine mk_grows ?_ rfl)
    | with_reducible refine Grows.pair2 (by assumption) ?_
    | with_reducible refine Grows.pair1 (by assumption) ?_
    | with_reducible refine Grows.ofOpt (by assumption) ?_ | intro _ | split | dsimp only

theorem testTry_grows {z0 : State} {s : State} {c : Nat} {f : EscFrame} (hg : Grows z0 s) :
    Grows z0 (testTry s c f) := by
  unfold testTry
  repeat' first
    | with_reducible exact hg | with_reducible assumption | with_reducible apply txIssue_grows
    | with_reducible apply fusHoldFor_grows | with_reducible apply newRef_grows
    | with_reducible apply examHeld_grows | with_reducible apply bucketsPass_grows
    | with_reducible apply chargeAll_grows | with_reducible apply fuseeTest_grows
    | with_reducible apply holdFrame_grows | fail_if_no_progress (with_reducible refine mk_grows ?_ rfl)
    | with_reducible refine Grows.pair2 (by assumption) ?_
    | with_reducible refine Grows.pair1 (by assumption) ?_
    | with_reducible refine Grows.ofOpt (by assumption) ?_ | intro _ | split | dsimp only

theorem testRelease_grows {z0 : State} {s : State} {c : Nat} (hg : Grows z0 s) :
    Grows z0 (testRelease s c) := by
  unfold testRelease
  repeat' first
    | with_reducible exact hg | with_reducible assumption | with_reducible apply testTry_grows
    | fail_if_no_progress (with_reducible refine mk_grows ?_ rfl)
    | with_reducible refine Grows.pair2 (by assumption) ?_
    | with_reducible refine Grows.pair1 (by assumption) ?_
    | with_reducible refine Grows.ofOpt (by assumption) ?_
    | with_reducible refine Grows.fold ?_ (fun _ _ _ => ?_)
    | with_reducible refine Grows.fold2 ?_ (fun _ _ _ => ?_)
    | with_reducible refine Grows.fold1 ?_ (fun _ _ _ => ?_) | intro _ | split | dsimp only

theorem testTxEnd_grows {z0 : State} {s : State} {e : TxEnd} (hg : Grows z0 s) :
    Grows z0 (testTxEnd s e) := by
  unfold testTxEnd
  repeat' first
    | with_reducible exact hg | with_reducible assumption | with_reducible apply airEnd_grows
    | fail_if_no_progress (with_reducible refine mk_grows ?_ rfl)
    | with_reducible refine Grows.pair2 (by assumption) ?_
    | with_reducible refine Grows.pair1 (by assumption) ?_
    | with_reducible refine Grows.ofOpt (by assumption) ?_ | intro _ | split | dsimp only

theorem asyncRelease_grows {z0 : State} {s : State} {c : Nat} {upset : List Nat} (hg : Grows z0 s) :
    Grows z0 (asyncRelease s c upset) := by
  unfold asyncRelease
  repeat' first
    | with_reducible exact hg | with_reducible assumption | with_reducible apply onAmc_grows
    | with_reducible apply bump_grows | with_reducible apply fusHoldFor_grows
    | with_reducible apply selectFrame_grows | with_reducible apply chargeAll_grows
    | with_reducible apply holdFrame_grows | with_reducible apply asyncTest_grows
    | with_reducible apply testRelease_grows | fail_if_no_progress (with_reducible refine mk_grows ?_ rfl)
    | with_reducible refine Grows.pair2 (by assumption) ?_
    | with_reducible refine Grows.pair1 (by assumption) ?_
    | with_reducible refine Grows.ofOpt (by assumption) ?_ | intro _ | split | dsimp only

theorem wiredSelect_grows {z0 : State} {s : State} {port : Nat} {takes : State → EscFrame → Bool} (hg : Grows z0 s) :
    Grows z0 (wiredSelect s port takes).2 := by
  unfold wiredSelect
  repeat' first
    | with_reducible exact hg | with_reducible assumption | with_reducible apply selectFrame_grows
    | with_reducible apply removeFrame_grows | with_reducible apply examHeld_grows
    | with_reducible apply bucketsPass_grows | with_reducible apply chargeAll_grows
    | fail_if_no_progress (with_reducible refine mk_grows ?_ rfl)
    | with_reducible refine Grows.pair2 (by assumption) ?_
    | with_reducible refine Grows.pair1 (by assumption) ?_
    | with_reducible refine Grows.ofOpt (by assumption) ?_ | intro _ | split | dsimp only

theorem chainFix_grows {z0 : State} {s : State} {c : Nat} (hg : Grows z0 s) :
    Grows z0 (chainFix s c) := by
  unfold chainFix
  repeat' first
    | with_reducible exact hg | with_reducible assumption | with_reducible apply onChain_grows
    | with_reducible apply rxReached_grows | with_reducible apply endCmd_grows
    | with_reducible apply promote_grows | with_reducible apply commandWithdraw_grows
    | fail_if_no_progress (with_reducible refine mk_grows ?_ rfl)
    | with_reducible refine Grows.pair2 (by assumption) ?_
    | with_reducible refine Grows.pair1 (by assumption) ?_
    | with_reducible refine Grows.ofOpt (by assumption) ?_
    | with_reducible refine Grows.fold ?_ (fun _ _ _ => ?_)
    | with_reducible refine Grows.fold2 ?_ (fun _ _ _ => ?_)
    | with_reducible refine Grows.fold1 ?_ (fun _ _ _ => ?_) | intro _ | split | dsimp only

theorem escEnable_grows {z0 : State} {s : State} (hg : Grows z0 s) :
    Grows z0 (escEnable s) := by
  unfold escEnable
  repeat' first
    | with_reducible exact hg | with_reducible assumption | with_reducible apply set_grows
    | with_reducible apply claimAll_grows | fail_if_no_progress (with_reducible refine mk_grows ?_ rfl)
    | with_reducible refine Grows.pair2 (by assumption) ?_
    | with_reducible refine Grows.pair1 (by assumption) ?_
    | with_reducible refine Grows.ofOpt (by assumption) ?_ | intro _ | split | dsimp only

theorem escDisable_grows {z0 : State} {s : State} (hg : Grows z0 s) :
    Grows z0 (escDisable s) := by
  unfold escDisable
  repeat' first
    | with_reducible exact hg | with_reducible assumption | with_reducible apply set_grows
    | with_reducible apply onEsc_grows | with_reducible apply releaseAll_grows
    | fail_if_no_progress (with_reducible refine mk_grows ?_ rfl)
    | with_reducible refine Grows.pair2 (by assumption) ?_
    | with_reducible refine Grows.pair1 (by assumption) ?_
    | with_reducible refine Grows.ofOpt (by assumption) ?_ | intro _ | split | dsimp only

/-! ### SlpOps -/

theorem hsResidual_grows {z0 : State} {s : State} {e dt : Int} (hg : Grows z0 s) :
    Grows z0 (hsResidual s e dt).2 := by
  unfold hsResidual
  repeat' first
    | with_reducible exact hg | with_reducible assumption | with_reducible apply drawFree_grows
    | fail_if_no_progress (with_reducible refine mk_grows ?_ rfl)
    | with_reducible refine Grows.pair2 (by assumption) ?_
    | with_reducible refine Grows.pair1 (by assumption) ?_
    | with_reducible refine Grows.ofOpt (by assumption) ?_ | intro _ | split | dsimp only

theorem hsLearn_grows {z0 : State} {s : State} {k : Nat} {e dt : Int} (hg : Grows z0 s) :
    Grows z0 (hsLearn s k e dt) := by
  unfold hsLearn
  repeat' first
    | with_reducible exact hg | with_reducible assumption | with_reducible apply bump_grows
    | with_reducible apply cset_grows | with_reducible apply csset_grows | with_reducible apply hsResidual_grows
    | fail_if_no_progress (with_reducible refine mk_grows ?_ rfl)
    | with_reducible refine Grows.pair2 (by assumption) ?_
    | with_reducible refine Grows.pair1 (by assumption) ?_
    | with_reducible refine Grows.ofOpt (by assumption) ?_ | intro _ | split | dsimp only

theorem hsUpdate_grows {z0 : State} {s : State} {k : Nat} {t : Int} {q tsu : Nat} (hg : Grows z0 s) :
    Grows z0 (hsUpdate s k t q tsu) := by
  unfold hsUpdate
  repeat' first
    | with_reducible exact hg | with_reducible assumption | with_reducible apply cset_grows
    | with_reducible apply hsLearn_grows | fail_if_no_progress (with_reducible refine mk_grows ?_ rfl)
    | with_reducible refine Grows.pair2 (by assumption) ?_
    | with_reducible refine Grows.pair1 (by assumption) ?_
    | with_reducible refine Grows.ofOpt (by assumption) ?_ | intro _ | split | dsimp only

theorem slpMoved_grows {z0 : State} {s : State} {k : Nat} (hg : Grows z0 s) :
    Grows z0 (slpMoved s k) := by
  unfold slpMoved
  repeat' first
    | with_reducible exact hg | with_reducible assumption | with_reducible apply onSlp_grows
    | fail_if_no_progress (with_reducible refine mk_grows ?_ rfl)
    | with_reducible refine Grows.pair2 (by assumption) ?_
    | with_reducible refine Grows.pair1 (by assumption) ?_
    | with_reducible refine Grows.ofOpt (by assumption) ?_ | intro _ | split | dsimp only

theorem fbKeep_grows {z0 : State} {s : State} {k : Nat} {n : Int} (hg : Grows z0 s) :
    Grows z0 (fbKeep s k n) := by
  unfold fbKeep
  repeat' first
    | with_reducible exact hg | with_reducible assumption | with_reducible apply cset_grows
    | fail_if_no_progress (with_reducible refine mk_grows ?_ rfl)
    | with_reducible refine Grows.pair2 (by assumption) ?_
    | with_reducible refine Grows.pair1 (by assumption) ?_
    | with_reducible refine Grows.ofOpt (by assumption) ?_ | intro _ | split | dsimp only

theorem slpObserve_grows {s0 : State} {s : State} {k : Nat} {m : Mhr} {rx : RxMeta} (h : Grows s0 s) :
    Grows s0 (slpObserve s k m rx) := by
  unfold slpObserve
  split
  · exact h
  · split
    · exact h
    · extract_lets known changed t on s1 s2 s3 s4
      have g2 : Grows s0 s2 := slpMoved_grows (cset_grows (hsUpdate_grows (bump_grows h)))
      have g3 : Grows s0 s3 := by
        simp only [s3]; split
        · exact onSlp_grows (cset_grows g2)
        · split
          · exact fbKeep_grows g2
          · exact g2
      have g4 : Grows s0 s4 := by
        simp only [s4]; split
        · exact raise_grows g3
        · exact g3
      split
      · exact g4
      · exact raise_grows (cset_grows (cset_grows g4))

theorem nodeQuery_grows {z0 : State} {s : State} {k : Nat} (hg : Grows z0 s) :
    Grows z0 (nodeQuery s k) := by
  unfold nodeQuery
  repeat' first
    | with_reducible exact hg | with_reducible assumption | with_reducible apply set_grows
    | fail_if_no_progress (with_reducible refine mk_grows ?_ rfl)
    | with_reducible refine Grows.pair2 (by assumption) ?_
    | with_reducible refine Grows.pair1 (by assumption) ?_
    | with_reducible refine Grows.ofOpt (by assumption) ?_ | intro _ | split | dsimp only

theorem slpHead_grows {s0 : State} {s : State} {k n : Nat} (h : Grows s0 s) : Grows s0 (slpHead s k n).2 := by
  induction n generalizing s with
  | zero => exact h
  | succ n ih =>
    unfold slpHead
    split
    · exact h
    · rename_i f e
      have g := examHeld_grows (p := agePort f) (f := f) h
      dsimp only
      split
      · exact Grows.pair2 (by assumption) g
      · split
        · exact ih (Grows.pair2 (by assumption) g)
        · exact Grows.pair2 (by assumption) g

theorem slpUnreach_grows {z0 : State} {s : State} {k : Nat} (hg : Grows z0 s) :
    Grows z0 (slpUnreach s k) := by
  unfold slpUnreach
  repeat' first
    | with_reducible exact hg | with_reducible assumption | with_reducible apply raise_grows
    | with_reducible apply cset_grows | fail_if_no_progress (with_reducible refine mk_grows ?_ rfl)
    | with_reducible refine Grows.pair2 (by assumption) ?_
    | with_reducible refine Grows.pair1 (by assumption) ?_
    | with_reducible refine Grows.ofOpt (by assumption) ?_ | intro _ | split | dsimp only

theorem slpOos_grows {z0 : State} {s : State} {k reason : Nat} (hg : Grows z0 s) :
    Grows z0 (slpOos s k reason) := by
  unfold slpOos
  repeat' first
    | with_reducible exact hg | with_reducible assumption | with_reducible apply bump_grows
    | with_reducible apply raise_grows | with_reducible apply cset_grows | with_reducible apply slpMoved_grows
    | with_reducible apply slpUnreach_grows | fail_if_no_progress (with_reducible refine mk_grows ?_ rfl)
    | with_reducible refine Grows.pair2 (by assumption) ?_
    | with_reducible refine Grows.pair1 (by assumption) ?_
    | with_reducible refine Grows.ofOpt (by assumption) ?_ | intro _ | split | dsimp only

theorem handover_grows {z0 : State} {s : State} {k : Nat} {f : EscFrame} {a : AirOut} (hg : Grows z0 s) :
    Grows z0 (handover s k f a) := by
  unfold handover
  repeat' first
    | with_reducible exact hg | with_reducible assumption | with_reducible apply onSlp_grows
    | with_reducible apply bump_grows | with_reducible apply cmpCarry_grows
    | with_reducible apply slpUnreach_grows | with_reducible apply slpOos_grows
    | fail_if_no_progress (with_reducible refine mk_grows ?_ rfl)
    | with_reducible refine Grows.pair2 (by assumption) ?_
    | with_reducible refine Grows.pair1 (by assumption) ?_
    | with_reducible refine Grows.ofOpt (by assumption) ?_ | intro _ | split | dsimp only

theorem windowHandover_grows {z0 : State} {s : State} {k : Nat} (hg : Grows z0 s) :
    Grows z0 (windowHandover s k) := by
  unfold windowHandover
  repeat' first
    | with_reducible exact hg | with_reducible assumption | with_reducible apply slpHead_grows
    | with_reducible apply handover_grows | fail_if_no_progress (with_reducible refine mk_grows ?_ rfl)
    | with_reducible refine Grows.pair2 (by assumption) ?_
    | with_reducible refine Grows.pair1 (by assumption) ?_
    | with_reducible refine Grows.ofOpt (by assumption) ?_ | intro _ | split | dsimp only

theorem slpDefer_grows {z0 : State} {s : State} {k : Nat} (hg : Grows z0 s) :
    Grows z0 (slpDefer s k) := by
  unfold slpDefer
  repeat' first
    | with_reducible exact hg | with_reducible assumption | with_reducible apply bump_grows
    | with_reducible apply slpMoved_grows | fail_if_no_progress (with_reducible refine mk_grows ?_ rfl)
    | with_reducible refine Grows.pair2 (by assumption) ?_
    | with_reducible refine Grows.pair1 (by assumption) ?_
    | with_reducible refine Grows.ofOpt (by assumption) ?_ | intro _ | split | dsimp only

theorem slpRelease_grows {z0 : State} {s : State} {k : Nat} {f : EscFrame} {a : AirOut} {d airUs : Nat} {phy : PhyParm} {lead : List (List Byte)} {fallback plain : Bool} (hg : Grows z0 s) :
    Grows z0 (slpRelease s k f a d airUs phy lead fallback plain).2 := by
  unfold slpRelease
  repeat' first
    | with_reducible exact hg | with_reducible assumption | with_reducible apply onSlp_grows
    | with_reducible apply txIssue_grows | with_reducible apply fusHoldFor_grows
    | with_reducible apply newRef_grows | with_reducible apply setAside_grows
    | with_reducible apply bucketsPass_grows | with_reducible apply chargeAll_grows
    | with_reducible apply fuseeTest_grows | with_reducible apply holdFrame_grows
    | fail_if_no_progress (with_reducible refine mk_grows ?_ rfl)
    | with_reducible refine Grows.pair2 (by assumption) ?_
    | with_reducible refine Grows.pair1 (by assumption) ?_
    | with_reducible refine Grows.ofOpt (by assumption) ?_ | intro _ | split | dsimp only

theorem windowFix_grows {z0 : State} {s : State} {k : Nat} {upset : List Nat} (hg : Grows z0 s) :
    Grows z0 (windowFix s k upset) := by
  unfold windowFix
  repeat' first
    | with_reducible exact hg | with_reducible assumption | with_reducible apply onSlp_grows
    | with_reducible apply badDrop_grows | with_reducible apply laneUpset_grows
    | with_reducible apply slpMoved_grows | with_reducible apply slpDefer_grows
    | with_reducible apply slpRelease_grows | fail_if_no_progress (with_reducible refine mk_grows ?_ rfl)
    | with_reducible refine Grows.pair2 (by assumption) ?_
    | with_reducible refine Grows.pair1 (by assumption) ?_
    | with_reducible refine Grows.ofOpt (by assumption) ?_ | intro _ | split | dsimp only

theorem pendSend_grows {z0 : State} {s : State} {k t : Nat} {upset : List Nat} (hg : Grows z0 s) :
    Grows z0 (pendSend s k t upset) := by
  unfold pendSend
  repeat' first
    | with_reducible exact hg | with_reducible assumption | with_reducible apply onSlp_grows
    | with_reducible apply bump_grows | with_reducible apply laneUpset_grows
    | with_reducible apply slpHead_grows | with_reducible apply slpRelease_grows
    | fail_if_no_progress (with_reducible refine mk_grows ?_ rfl)
    | with_reducible refine Grows.pair2 (by assumption) ?_
    | with_reducible refine Grows.pair1 (by assumption) ?_
    | with_reducible refine Grows.ofOpt (by assumption) ?_ | intro _ | split | dsimp only

theorem pendListen_grows {z0 : State} {s : State} {k t : Nat} {upset : List Nat} (hg : Grows z0 s) :
    Grows z0 (pendListen s k t upset) := by
  unfold pendListen
  repeat' first
    | with_reducible exact hg | with_reducible assumption | with_reducible apply onSlp_grows
    | with_reducible apply pendSend_grows | fail_if_no_progress (with_reducible refine mk_grows ?_ rfl)
    | with_reducible refine Grows.pair2 (by assumption) ?_
    | with_reducible refine Grows.pair1 (by assumption) ?_
    | with_reducible refine Grows.ofOpt (by assumption) ?_ | intro _ | split | dsimp only

theorem slpEndTry_grows {z0 : State} {s : State} {k : Nat} (hg : Grows z0 s) :
    Grows z0 (slpEndTry s k) := by
  unfold slpEndTry
  repeat' first
    | with_reducible exact hg | with_reducible assumption | with_reducible apply onSlp_grows
    | fail_if_no_progress (with_reducible refine mk_grows ?_ rfl)
    | with_reducible refine Grows.pair2 (by assumption) ?_
    | with_reducible refine Grows.pair1 (by assumption) ?_
    | with_reducible refine Grows.ofOpt (by assumption) ?_ | intro _ | split | dsimp only

theorem slpFailed_grows {z0 : State} {s : State} {k : Nat} {t : Attempt} {f : EscFrame} {tx : Nat} (hg : Grows z0 s) :
    Grows z0 (slpFailed s k t f tx) := by
  unfold slpFailed
  repeat' first
    | with_reducible exact hg | with_reducible assumption | with_reducible apply bump_grows
    | with_reducible apply raise_grows | with_reducible apply cset_grows | with_reducible apply fusRelease_grows
    | with_reducible apply airEnd_grows | with_reducible apply returnFrame_grows
    | with_reducible apply slpMoved_grows | with_reducible apply slpOos_grows
    | with_reducible apply slpEndTry_grows | fail_if_no_progress (with_reducible refine mk_grows ?_ rfl)
    | with_reducible refine Grows.pair2 (by assumption) ?_
    | with_reducible refine Grows.pair1 (by assumption) ?_
    | with_reducible refine Grows.ofOpt (by assumption) ?_ | intro _ | split | dsimp only

theorem slpDone_grows {z0 : State} {s : State} {k : Nat} {f : EscFrame} (hg : Grows z0 s) :
    Grows z0 (slpDone s k f) := by
  unfold slpDone
  repeat' first
    | with_reducible exact hg | with_reducible assumption | with_reducible apply cset_grows
    | with_reducible apply airEnd_grows | with_reducible apply slpMoved_grows
    | with_reducible apply slpEndTry_grows | fail_if_no_progress (with_reducible refine mk_grows ?_ rfl)
    | with_reducible refine Grows.pair2 (by assumption) ?_
    | with_reducible refine Grows.pair1 (by assumption) ?_
    | with_reducible refine Grows.ofOpt (by assumption) ?_ | intro _ | split | dsimp only

theorem slpTxEnd_grows {z0 : State} {s : State} {e : TxEnd} (hg : Grows z0 s) :
    Grows z0 (slpTxEnd s e) := by
  unfold slpTxEnd
  repeat' first
    | with_reducible exact hg | with_reducible assumption | with_reducible apply onEsc_grows
    | with_reducible apply bump_grows | with_reducible apply fusRelease_grows
    | with_reducible apply awaitAck_grows | with_reducible apply pendSend_grows
    | with_reducible apply slpFailed_grows | with_reducible apply slpDone_grows
    | fail_if_no_progress (with_reducible refine mk_grows ?_ rfl)
    | with_reducible refine Grows.pair2 (by assumption) ?_
    | with_reducible refine Grows.pair1 (by assumption) ?_
    | with_reducible refine Grows.ofOpt (by assumption) ?_ | intro _ | split | dsimp only

theorem slpAcked_grows {z0 : State} {s : State} {ref t : Nat} {acked : Bool} {upset : List Nat} (hg : Grows z0 s) :
    Grows z0 (slpAcked s ref t acked upset) := by
  unfold slpAcked
  repeat' first
    | with_reducible exact hg | with_reducible assumption | with_reducible apply pendSend_grows
    | with_reducible apply slpFailed_grows | with_reducible apply slpDone_grows
    | fail_if_no_progress (with_reducible refine mk_grows ?_ rfl)
    | with_reducible refine Grows.pair2 (by assumption) ?_
    | with_reducible refine Grows.pair1 (by assumption) ?_
    | with_reducible refine Grows.ofOpt (by assumption) ?_ | intro _ | split | dsimp only

theorem slpEnable_grows {z0 : State} {s : State} (hg : Grows z0 s) :
    Grows z0 (slpEnable s) := by
  unfold slpEnable
  repeat' first
    | with_reducible exact hg | with_reducible assumption | with_reducible apply set_grows
    | with_reducible apply onSlp_grows | with_reducible apply claimAll_grows
    | with_reducible apply cmpCarry_grows | fail_if_no_progress (with_reducible refine mk_grows ?_ rfl)
    | with_reducible refine Grows.pair2 (by assumption) ?_
    | with_reducible refine Grows.pair1 (by assumption) ?_
    | with_reducible refine Grows.ofOpt (by assumption) ?_ | intro _ | split | dsimp only

theorem slpDisable_grows {z0 : State} {s : State} (hg : Grows z0 s) :
    Grows z0 (slpDisable s) := by
  unfold slpDisable
  repeat' first
    | with_reducible exact hg | with_reducible assumption | with_reducible apply set_grows
    | with_reducible apply onSlp_grows | with_reducible apply releaseAll_grows
    | with_reducible apply cmpDisable_grows | fail_if_no_progress (with_reducible refine mk_grows ?_ rfl)
    | with_reducible refine Grows.pair2 (by assumption) ?_
    | with_reducible refine Grows.pair1 (by assumption) ?_
    | with_reducible refine Grows.ofOpt (by assumption) ?_ | intro _ | split | dsimp only

end Sys2Proof.Machine
end

