-- ==== Sys2Proof/Laws/GrowsFlow.lean ====
section
/-! SUPPORT. `Grows` for the operations of the frame pipeline, Ethernet, the twin, mailboxes: one lemma for each. -/

set_option Elab.async false

set_option linter.unusedTactic false
set_option linter.unreachableTactic false

namespace Sys2Proof.Machine

/-! ### PipeOps -/

theorem setFlight_grows {z0 : State} {s : State} {tag : Nat} {f : Flight} (hg : Grows z0 s) :
    Grows z0 (setFlight s tag f) := by
  unfold setFlight
  repeat' first
    | with_reducible exact hg | with_reducible assumption | with_reducible apply onFwd_grows
    | fail_if_no_progress (with_reducible refine mk_grows ?_ rfl)
    | with_reducible refine Grows.pair2 (by assumption) ?_
    | with_reducible refine Grows.pair1 (by assumption) ?_
    | with_reducible refine Grows.ofOpt (by assumption) ?_ | intro _ | split | dsimp only

theorem startFlight_grows {z0 : State} {s : State} {tag : Nat} {f : Flight} (hg : Grows z0 s) :
    Grows z0 (startFlight s tag f) := by
  unfold startFlight
  repeat' first
    | with_reducible exact hg | with_reducible assumption | with_reducible apply onFwd_grows
    | with_reducible apply markNew_grows | with_reducible apply setFlight_grows
    | fail_if_no_progress (with_reducible refine mk_grows ?_ rfl)
    | with_reducible refine Grows.pair2 (by assumption) ?_
    | with_reducible refine Grows.pair1 (by assumption) ?_
    | with_reducible refine Grows.ofOpt (by assumption) ?_ | intro _ | split | dsimp only

theorem endFlight_grows {z0 : State} {s : State} {tag : Nat} (hg : Grows z0 s) :
    Grows z0 (endFlight s tag) := by
  unfold endFlight
  repeat' first
    | with_reducible exact hg | with_reducible assumption | with_reducible apply onFwd_grows
    | with_reducible refine onJwl_grows ?_ rfl | fail_if_no_progress (with_reducible refine mk_grows ?_ rfl)
    | with_reducible refine Grows.pair2 (by assumption) ?_
    | with_reducible refine Grows.pair1 (by assumption) ?_
    | with_reducible refine Grows.ofOpt (by assumption) ?_ | intro _ | split | dsimp only

theorem dropFlight_grows {z0 : State} {s : State} {tag : Nat} {f : Flight} {c : Completion} (hg : Grows z0 s) :
    Grows z0 (dropFlight s tag f c) := by
  unfold dropFlight
  repeat' first
    | with_reducible exact hg | with_reducible assumption | with_reducible apply poolGive_grows
    | with_reducible apply complete_grows | with_reducible apply markEnd_grows
    | with_reducible apply endFlight_grows | fail_if_no_progress (with_reducible refine mk_grows ?_ rfl)
    | with_reducible refine Grows.pair2 (by assumption) ?_
    | with_reducible refine Grows.pair1 (by assumption) ?_
    | with_reducible refine Grows.ofOpt (by assumption) ?_ | intro _ | split | dsimp only

theorem flightDone_grows {z0 : State} {s : State} {tag : Nat} {f : Flight} (hg : Grows z0 s) :
    Grows z0 (flightDone s tag f) := by
  unfold flightDone
  repeat' first
    | with_reducible exact hg | with_reducible assumption | with_reducible apply bump_grows
    | with_reducible apply markStage_grows | with_reducible apply setFlight_grows
    | with_reducible apply dropFlight_grows | fail_if_no_progress (with_reducible refine mk_grows ?_ rfl)
    | with_reducible refine Grows.pair2 (by assumption) ?_
    | with_reducible refine Grows.pair1 (by assumption) ?_
    | with_reducible refine Grows.ofOpt (by assumption) ?_ | intro _ | split | dsimp only

theorem reorderRelease_grows {z0 : State} {s : State} {tag : Nat} (hg : Grows z0 s) :
    Grows z0 (reorderRelease s tag) := by
  unfold reorderRelease
  repeat' first
    | with_reducible exact hg | with_reducible assumption | with_reducible apply markStage_grows
    | with_reducible apply setFlight_grows | fail_if_no_progress (with_reducible refine mk_grows ?_ rfl)
    | with_reducible refine Grows.pair2 (by assumption) ?_
    | with_reducible refine Grows.pair1 (by assumption) ?_
    | with_reducible refine Grows.ofOpt (by assumption) ?_
    | with_reducible refine Grows.fold ?_ (fun _ _ _ => ?_)
    | with_reducible refine Grows.fold2 ?_ (fun _ _ _ => ?_)
    | with_reducible refine Grows.fold1 ?_ (fun _ _ _ => ?_) | intro _ | split | dsimp only

theorem enqueueAir_grows {z0 : State} {s : State} {f : Flight} (hg : Grows z0 s) :
    Grows z0 (enqueueAir s f) := by
  unfold enqueueAir
  repeat' first
    | with_reducible exact hg | with_reducible assumption | with_reducible apply escQueueFrame_grows
    | with_reducible apply newRef_grows | fail_if_no_progress (with_reducible refine mk_grows ?_ rfl)
    | with_reducible refine Grows.pair2 (by assumption) ?_
    | with_reducible refine Grows.pair1 (by assumption) ?_
    | with_reducible refine Grows.ofOpt (by assumption) ?_
    | with_reducible refine Grows.fold ?_ (fun _ _ _ => ?_)
    | with_reducible refine Grows.fold2 ?_ (fun _ _ _ => ?_)
    | with_reducible refine Grows.fold1 ?_ (fun _ _ _ => ?_) | intro _ | split | dsimp only

theorem enqueueWired_grows {z0 : State} {s : State} {f : Flight} (hg : Grows z0 s) :
    Grows z0 (enqueueWired s f) := by
  unfold enqueueWired
  repeat' first
    | with_reducible exact hg | with_reducible assumption | with_reducible apply complete_grows
    | with_reducible apply escQueueFrame_grows | with_reducible apply newRef_grows
    | fail_if_no_progress (with_reducible refine mk_grows ?_ rfl)
    | with_reducible refine Grows.pair2 (by assumption) ?_
    | with_reducible refine Grows.pair1 (by assumption) ?_
    | with_reducible refine Grows.ofOpt (by assumption) ?_ | intro _ | split | dsimp only

theorem escEnqueue_grows {z0 : State} {s : State} {tag : Nat} (hg : Grows z0 s) :
    Grows z0 (escEnqueue s tag) := by
  unfold escEnqueue
  repeat' first
    | with_reducible exact hg | with_reducible assumption | with_reducible apply bump_grows
    | with_reducible apply noCounter_grows | with_reducible apply endFlight_grows
    | with_reducible apply dropFlight_grows | with_reducible apply enqueueAir_grows
    | with_reducible apply enqueueWired_grows | fail_if_no_progress (with_reducible refine mk_grows ?_ rfl)
    | with_reducible refine Grows.pair2 (by assumption) ?_
    | with_reducible refine Grows.pair1 (by assumption) ?_
    | with_reducible refine Grows.ofOpt (by assumption) ?_ | intro _ | split | dsimp only

theorem toHost_grows {z0 : State} {s : State} {tag : Nat} {f : Flight} {reason : Nat} {octets : List Byte} (hg : Grows z0 s) :
    Grows z0 (toHost s tag f reason octets) := by
  unfold toHost
  repeat' first
    | with_reducible exact hg | with_reducible assumption | with_reducible apply bump_grows
    | with_reducible apply dropFlight_grows | with_reducible apply flightDone_grows
    | fail_if_no_progress (with_reducible refine mk_grows ?_ rfl)
    | with_reducible refine Grows.pair2 (by assumption) ?_
    | with_reducible refine Grows.pair1 (by assumption) ?_
    | with_reducible refine Grows.ofOpt (by assumption) ?_ | intro _ | split | dsimp only

theorem derivShow_grows {z0 : State} {s : State} (hg : Grows z0 s) :
    Grows z0 (derivShow s) := by
  unfold derivShow
  repeat' first
    | with_reducible exact hg | with_reducible assumption | with_reducible apply set_grows
    | fail_if_no_progress (with_reducible refine mk_grows ?_ rfl)
    | with_reducible refine Grows.pair2 (by assumption) ?_
    | with_reducible refine Grows.pair1 (by assumption) ?_
    | with_reducible refine Grows.ofOpt (by assumption) ?_ | intro _ | split | dsimp only

theorem txKeyDrop_grows {z0 : State} {s : State} {tag : Nat} {f : Flight} {sec : Nat} (hg : Grows z0 s) :
    Grows z0 (txKeyDrop s tag f sec) := by
  unfold txKeyDrop
  repeat' first
    | with_reducible exact hg | with_reducible assumption | with_reducible apply bump_grows
    | with_reducible apply dropFlight_grows | fail_if_no_progress (with_reducible refine mk_grows ?_ rfl)
    | with_reducible refine Grows.pair2 (by assumption) ?_
    | with_reducible refine Grows.pair1 (by assumption) ?_
    | with_reducible refine Grows.ofOpt (by assumption) ?_ | intro _ | split | dsimp only

theorem derivRefused_grows {z0 : State} {s : State} {tag : Nat} {f : Flight} {t : Nat} (hg : Grows z0 s) :
    Grows z0 (derivRefused s tag f t) := by
  unfold derivRefused
  repeat' first
    | with_reducible exact hg | with_reducible assumption | with_reducible apply setFlight_grows
    | with_reducible apply txKeyDrop_grows | with_reducible refine onJwl_grows ?_ rfl
    | fail_if_no_progress (with_reducible refine mk_grows ?_ rfl)
    | with_reducible refine Grows.pair2 (by assumption) ?_
    | with_reducible refine Grows.pair1 (by assumption) ?_
    | with_reducible refine Grows.ofOpt (by assumption) ?_ | intro _ | split | dsimp only

theorem deriveAsk_grows {z0 : State} {s : State} {tag : Nat} {f : Flight} (hg : Grows z0 s) :
    Grows z0 (deriveAsk s tag f) := by
  unfold deriveAsk
  repeat' first
    | with_reducible exact hg | with_reducible assumption | with_reducible apply bump_grows
    | with_reducible apply raiseFirst_grows | with_reducible apply setFlight_grows
    | with_reducible refine onJwl_grows ?_ rfl | fail_if_no_progress (with_reducible refine mk_grows ?_ rfl)
    | with_reducible refine Grows.pair2 (by assumption) ?_
    | with_reducible refine Grows.pair1 (by assumption) ?_
    | with_reducible refine Grows.ofOpt (by assumption) ?_ | intro _ | split | dsimp only

theorem deriveNext_grows {z0 : State} {s : State} (hg : Grows z0 s) :
    Grows z0 (deriveNext s) := by
  unfold deriveNext
  repeat' first
    | with_reducible exact hg | with_reducible assumption | with_reducible apply deriveAsk_grows
    | fail_if_no_progress (with_reducible refine mk_grows ?_ rfl)
    | with_reducible refine Grows.pair2 (by assumption) ?_
    | with_reducible refine Grows.pair1 (by assumption) ?_
    | with_reducible refine Grows.ofOpt (by assumption) ?_
    | with_reducible refine Grows.fold ?_ (fun _ _ _ => ?_)
    | with_reducible refine Grows.fold2 ?_ (fun _ _ _ => ?_)
    | with_reducible refine Grows.fold1 ?_ (fun _ _ _ => ?_) | intro _ | split | dsimp only

theorem derivRun_grows {s0 : State} {n : Nat} {s : State} (h : Grows s0 s) : Grows s0 (derivRun n s) := by
  induction n generalizing s with
  | zero => exact derivShow_grows h
  | succ n ih =>
    unfold derivRun
    split
    · exact derivShow_grows h
    · split
      · exact derivShow_grows h
      · dsimp only
        split
        · exact ih (deriveNext_grows (derivRefused_grows h))
        · exact ih (setFlight_grows h)

theorem keyAsk_grows {z0 : State} {s : State} {tag : Nat} {f : Flight} (hg : Grows z0 s) :
    Grows z0 (keyAsk s tag f) := by
  unfold keyAsk
  repeat' first
    | with_reducible exact hg | with_reducible assumption | with_reducible apply bump_grows
    | with_reducible apply markStage_grows | with_reducible apply cacheFind_grows
    | with_reducible apply setFlight_grows | with_reducible apply deriveAsk_grows
    | with_reducible apply derivRun_grows | fail_if_no_progress (with_reducible refine mk_grows ?_ rfl)
    | with_reducible refine Grows.pair2 (by assumption) ?_
    | with_reducible refine Grows.pair1 (by assumption) ?_
    | with_reducible refine Grows.ofOpt (by assumption) ?_ | intro _ | split | dsimp only

theorem keyDerivation_grows {z0 : State} {s : State} {tag : Nat} (hg : Grows z0 s) :
    Grows z0 (keyDerivation s tag) := by
  unfold keyDerivation
  repeat' first
    | with_reducible exact hg | with_reducible assumption | with_reducible apply markStage_grows
    | with_reducible apply cacheInsert_grows | with_reducible apply setFlight_grows
    | with_reducible apply deriveNext_grows | with_reducible apply derivRun_grows
    | with_reducible refine onJwl_grows ?_ rfl | fail_if_no_progress (with_reducible refine mk_grows ?_ rfl)
    | with_reducible refine Grows.pair2 (by assumption) ?_
    | with_reducible refine Grows.pair1 (by assumption) ?_
    | with_reducible refine Grows.ofOpt (by assumption) ?_ | intro _ | split | dsimp only

theorem fwdEnable_grows {z0 : State} {s : State} (hg : Grows z0 s) :
    Grows z0 (fwdEnable s) := by
  unfold fwdEnable
  repeat' first
    | with_reducible exact hg | with_reducible assumption | with_reducible apply set_grows
    | with_reducible apply claimAll_grows | fail_if_no_progress (with_reducible refine mk_grows ?_ rfl)
    | with_reducible refine Grows.pair2 (by assumption) ?_
    | with_reducible refine Grows.pair1 (by assumption) ?_
    | with_reducible refine Grows.ofOpt (by assumption) ?_ | intro _ | split | dsimp only

theorem fwdDisable_grows {z0 : State} {s : State} (hg : Grows z0 s) :
    Grows z0 (fwdDisable s) := by
  unfold fwdDisable
  repeat' first
    | with_reducible exact hg | with_reducible assumption | with_reducible apply set_grows
    | with_reducible apply releaseAll_grows | fail_if_no_progress (with_reducible refine mk_grows ?_ rfl)
    | with_reducible refine Grows.pair2 (by assumption) ?_
    | with_reducible refine Grows.pair1 (by assumption) ?_
    | with_reducible refine Grows.ofOpt (by assumption) ?_ | intro _ | split | dsimp only

/-! ### UpOps -/

theorem ackResult_grows {z0 : State} {s : State} {w : AckWait} {t : Nat} {acked : Bool} {upset : List Nat} (hg : Grows z0 s) :
    Grows z0 (ackResult s w t acked upset) := by
  unfold ackResult
  repeat' first
    | with_reducible exact hg | with_reducible assumption | with_reducible apply runAcked_grows
    | with_reducible apply slotAcked_grows | with_reducible apply slpAcked_grows
    | fail_if_no_progress (with_reducible refine mk_grows ?_ rfl)
    | with_reducible refine Grows.pair2 (by assumption) ?_
    | with_reducible refine Grows.pair1 (by assumption) ?_
    | with_reducible refine Grows.ofOpt (by assumption) ?_ | intro _ | split | dsimp only

theorem ackReceived_grows {z0 : State} {s : State} {r : LaneRec} {m : Mhr} {upset : List Nat} (hg : Grows z0 s) :
    Grows z0 (ackReceived s r m upset) := by
  unfold ackReceived
  repeat' first
    | with_reducible exact hg | with_reducible assumption | with_reducible apply bump_grows
    | with_reducible apply waitDone_grows | with_reducible apply ackResult_grows
    | fail_if_no_progress (with_reducible refine mk_grows ?_ rfl)
    | with_reducible refine Grows.pair2 (by assumption) ?_
    | with_reducible refine Grows.pair1 (by assumption) ?_
    | with_reducible refine Grows.ofOpt (by assumption) ?_ | intro _ | split | dsimp only

theorem ackWaitExpiry_grows {z0 : State} {s : State} {ref : Nat} (hg : Grows z0 s) :
    Grows z0 (ackWaitExpiry s ref) := by
  unfold ackWaitExpiry
  repeat' first
    | with_reducible exact hg | with_reducible assumption | with_reducible apply waitOver_grows
    | with_reducible apply ackResult_grows | fail_if_no_progress (with_reducible refine mk_grows ?_ rfl)
    | with_reducible refine Grows.pair2 (by assumption) ?_
    | with_reducible refine Grows.pair1 (by assumption) ?_
    | with_reducible refine Grows.ofOpt (by assumption) ?_ | intro _ | split | dsimp only

theorem sourceLookup_grows {z0 : State} {s : State} {m : Mhr} {upset : List Nat} (hg : Grows z0 s) :
    Grows z0 (sourceLookup s m upset).2 := by
  unfold sourceLookup
  repeat' first
    | with_reducible exact hg | with_reducible assumption | with_reducible apply ntLookupPipe_grows
    | fail_if_no_progress (with_reducible refine mk_grows ?_ rfl)
    | with_reducible refine Grows.pair2 (by assumption) ?_
    | with_reducible refine Grows.pair1 (by assumption) ?_
    | with_reducible refine Grows.ofOpt (by assumption) ?_ | intro _ | split | dsimp only

theorem ackRequest_grows {z0 : State} {s : State} {tag : Nat} {r : LaneRec} {m : Mhr} {ctx : Option Nat} (hg : Grows z0 s) :
    Grows z0 (ackRequest s tag r m ctx) := by
  unfold ackRequest
  repeat' first
    | with_reducible exact hg | with_reducible assumption | with_reducible apply onAmc_grows
    | with_reducible apply bump_grows | fail_if_no_progress (with_reducible refine mk_grows ?_ rfl)
    | with_reducible refine Grows.pair2 (by assumption) ?_
    | with_reducible refine Grows.pair1 (by assumption) ?_
    | with_reducible refine Grows.ofOpt (by assumption) ?_ | intro _ | split | dsimp only

theorem twinForward_grows {z0 : State} {s : State} {r : LaneRec} (hg : Grows z0 s) :
    Grows z0 (twinForward s r) := by
  unfold twinForward
  repeat' first
    | with_reducible exact hg | with_reducible assumption | with_reducible apply bump_grows
    | with_reducible apply escQueueFrame_grows | with_reducible apply newRef_grows
    | fail_if_no_progress (with_reducible refine mk_grows ?_ rfl)
    | with_reducible refine Grows.pair2 (by assumption) ?_
    | with_reducible refine Grows.pair1 (by assumption) ?_
    | with_reducible refine Grows.ofOpt (by assumption) ?_ | intro _ | split | dsimp only

theorem tagExhausted_grows {z0 : State} {s : State} {lane : Nat} (hg : Grows z0 s) :
    Grows z0 (tagExhausted s lane) := by
  unfold tagExhausted
  repeat' first
    | with_reducible exact hg | with_reducible assumption | with_reducible apply bump_grows
    | fail_if_no_progress (with_reducible refine mk_grows ?_ rfl)
    | with_reducible refine Grows.pair2 (by assumption) ?_
    | with_reducible refine Grows.pair1 (by assumption) ?_
    | with_reducible refine Grows.ofOpt (by assumption) ?_ | intro _ | split | dsimp only

theorem beaconRecord_grows {z0 : State} {s : State} {r : LaneRec} {m : Mhr} (hg : Grows z0 s) :
    Grows z0 (beaconRecord s r m) := by
  unfold beaconRecord
  repeat' first
    | with_reducible exact hg | with_reducible assumption | with_reducible apply poolTake_grows
    | with_reducible apply beaconReceived_grows | with_reducible apply startFlight_grows
    | with_reducible apply tagExhausted_grows | fail_if_no_progress (with_reducible refine mk_grows ?_ rfl)
    | with_reducible refine Grows.pair2 (by assumption) ?_
    | with_reducible refine Grows.pair1 (by assumption) ?_
    | with_reducible refine Grows.ofOpt (by assumption) ?_ | intro _ | split | dsimp only

theorem frameTag_grows {z0 : State} {s : State} {r : LaneRec} {m : Mhr} {upset : List Nat} (hg : Grows z0 s) :
    Grows z0 (frameTag s r m upset) := by
  unfold frameTag
  repeat' first
    | with_reducible exact hg | with_reducible assumption | with_reducible apply poolTake_grows
    | with_reducible apply markCtx_grows | with_reducible apply startFlight_grows
    | with_reducible apply sourceLookup_grows | with_reducible apply ackRequest_grows
    | with_reducible apply twinForward_grows | with_reducible apply tagExhausted_grows
    | fail_if_no_progress (with_reducible refine mk_grows ?_ rfl)
    | with_reducible refine Grows.pair2 (by assumption) ?_
    | with_reducible refine Grows.pair1 (by assumption) ?_
    | with_reducible refine Grows.ofOpt (by assumption) ?_ | intro _ | split | dsimp only

theorem recordAt_grows {z0 : State} {s : State} {r : LaneRec} {upset : List Nat} (hg : Grows z0 s) :
    Grows z0 (recordAt s r upset) := by
  unfold recordAt
  repeat' first
    | with_reducible exact hg | with_reducible assumption | with_reducible apply bump_grows
    | with_reducible apply ebrReceived_grows | with_reducible apply ackReceived_grows
    | with_reducible apply beaconRecord_grows | with_reducible apply frameTag_grows
    | fail_if_no_progress (with_reducible refine mk_grows ?_ rfl)
    | with_reducible refine Grows.pair2 (by assumption) ?_
    | with_reducible refine Grows.pair1 (by assumption) ?_
    | with_reducible refine Grows.ofOpt (by assumption) ?_ | intro _ | split | dsimp only

theorem frameRecord_grows {z0 : State} {s : State} {n : Nat} {upset : List Nat} (hg : Grows z0 s) :
    Grows z0 (frameRecord s n upset) := by
  unfold frameRecord
  repeat' first
    | with_reducible exact hg | with_reducible assumption | with_reducible apply recordAt_grows
    | fail_if_no_progress (with_reducible refine mk_grows ?_ rfl)
    | with_reducible refine Grows.pair2 (by assumption) ?_
    | with_reducible refine Grows.pair1 (by assumption) ?_
    | with_reducible refine Grows.ofOpt (by assumption) ?_ | intro _ | split | dsimp only

theorem dupNode_grows {z0 : State} {s : State} {k : Nat} {m : Mhr} (hg : Grows z0 s) :
    Grows z0 (dupNode s k m).2 := by
  unfold dupNode
  repeat' first
    | with_reducible exact hg | with_reducible assumption | with_reducible apply onAmc_grows
    | with_reducible apply cset_grows | fail_if_no_progress (with_reducible refine mk_grows ?_ rfl)
    | with_reducible refine Grows.pair2 (by assumption) ?_
    | with_reducible refine Grows.pair1 (by assumption) ?_
    | with_reducible refine Grows.ofOpt (by assumption) ?_ | intro _ | split | dsimp only

theorem dupTable_grows {z0 : State} {s : State} {m : Mhr} (hg : Grows z0 s) :
    Grows z0 (dupTable s m).2 := by
  unfold dupTable
  repeat' first
    | with_reducible exact hg | with_reducible assumption | with_reducible apply onAmc_grows
    | fail_if_no_progress (with_reducible refine mk_grows ?_ rfl)
    | with_reducible refine Grows.pair2 (by assumption) ?_
    | with_reducible refine Grows.pair1 (by assumption) ?_
    | with_reducible refine Grows.ofOpt (by assumption) ?_ | intro _ | split | dsimp only

theorem keyStep_grows {z0 : State} {s : State} {tag : Nat} {f : Flight} {m : Mhr} (hg : Grows z0 s) :
    Grows z0 (keyStep s tag f m) := by
  unfold keyStep
  repeat' first
    | with_reducible exact hg | with_reducible assumption | with_reducible apply markStage_grows
    | with_reducible apply setFlight_grows | with_reducible apply keyAsk_grows
    | fail_if_no_progress (with_reducible refine mk_grows ?_ rfl)
    | with_reducible refine Grows.pair2 (by assumption) ?_
    | with_reducible refine Grows.pair1 (by assumption) ?_
    | with_reducible refine Grows.ofOpt (by assumption) ?_ | intro _ | split | dsimp only

theorem duplicateTest_grows {z0 : State} {s : State} {tag : Nat} {upset : Option (Fin 3)} (hg : Grows z0 s) :
    Grows z0 (duplicateTest s tag upset) := by
  unfold duplicateTest
  split
  · exact hg
  split
  · exact hg
  split
  · exact hg
  extract_lets s1 s2
  have h1 : Grows z0 s1 := by
    dsimp only [s1]
    split
    · exact ctxParity_grows hg
    · exact hg
  have h2 : Grows z0 s2 := markStage_grows h1
  clear_value s2
  clear h1
  clear_value s1
  clear hg
  repeat' first
    | with_reducible assumption | with_reducible apply bump_grows
    | with_reducible apply noCounter_grows | with_reducible apply dropFlight_grows
    | with_reducible apply toHost_grows | with_reducible apply dupNode_grows
    | with_reducible apply dupTable_grows | with_reducible apply keyStep_grows
    | with_reducible refine Grows.pair2 (by assumption) ?_
    | with_reducible refine Grows.pair1 (by assumption) ?_
    | with_reducible refine Grows.ofOpt (by assumption) ?_ | intro _ | split | dsimp only

theorem learnSource_grows {z0 : State} {s : State} {k i src q : Nat} (hg : Grows z0 s) :
    Grows z0 (learnSource s k i src q) := by
  unfold learnSource
  repeat' first
    | with_reducible exact hg | with_reducible assumption | with_reducible apply bump_grows
    | with_reducible apply raise_grows | with_reducible apply cset_grows | with_reducible apply nset_grows
    | fail_if_no_progress (with_reducible refine mk_grows ?_ rfl)
    | with_reducible refine Grows.pair2 (by assumption) ?_
    | with_reducible refine Grows.pair1 (by assumption) ?_
    | with_reducible refine Grows.ofOpt (by assumption) ?_ | intro _ | split | dsimp only

theorem learnQuality_grows {z0 : State} {s : State} {k : Nat} {rssi : Int} {lqi : Nat} (hg : Grows z0 s) :
    Grows z0 (learnQuality s k rssi lqi) := by
  unfold learnQuality
  repeat' first
    | with_reducible exact hg | with_reducible assumption | with_reducible apply cset_grows
    | with_reducible apply csset_grows | fail_if_no_progress (with_reducible refine mk_grows ?_ rfl)
    | with_reducible refine Grows.pair2 (by assumption) ?_
    | with_reducible refine Grows.pair1 (by assumption) ?_
    | with_reducible refine Grows.ofOpt (by assumption) ?_ | intro _ | split | dsimp only

theorem learn_grows {z0 : State} {s : State} {f : Flight} {k : Nat} {upset : List Nat} (hg : Grows z0 s) :
    Grows z0 (learn s f k upset) := by
  unfold learn
  repeat' first
    | with_reducible exact hg | with_reducible assumption | with_reducible apply ntUpset_grows
    | with_reducible apply learnSource_grows | with_reducible apply learnQuality_grows
    | fail_if_no_progress (with_reducible refine mk_grows ?_ rfl)
    | with_reducible refine Grows.pair2 (by assumption) ?_
    | with_reducible refine Grows.pair1 (by assumption) ?_
    | with_reducible refine Grows.ofOpt (by assumption) ?_ | intro _ | split | dsimp only

theorem learnOffset_grows {z0 : State} {s : State} {k angle node : Nat} (hg : Grows z0 s) :
    Grows z0 (learnOffset s k angle node) := by
  unfold learnOffset
  repeat' first
    | with_reducible exact hg | with_reducible assumption | with_reducible apply bump_grows
    | with_reducible apply raise_grows | with_reducible apply cset_grows
    | fail_if_no_progress (with_reducible refine mk_grows ?_ rfl)
    | with_reducible refine Grows.pair2 (by assumption) ?_
    | with_reducible refine Grows.pair1 (by assumption) ?_
    | with_reducible refine Grows.ofOpt (by assumption) ?_ | intro _ | split | dsimp only

theorem steerSample_grows {z0 : State} {s : State} {k angle node : Nat} (hg : Grows z0 s) :
    Grows z0 (steerSample s k angle node) := by
  unfold steerSample
  repeat' first
    | with_reducible exact hg | with_reducible assumption | with_reducible apply onBal_grows
    | fail_if_no_progress (with_reducible refine mk_grows ?_ rfl)
    | with_reducible refine Grows.pair2 (by assumption) ?_
    | with_reducible refine Grows.pair1 (by assumption) ?_
    | with_reducible refine Grows.ofOpt (by assumption) ?_ | intro _ | split | dsimp only

theorem gridLearn_grows {z0 : State} {s : State} {f : Flight} {k : Nat} {m : Mhr} (hg : Grows z0 s) :
    Grows z0 (gridLearn s f k m) := by
  unfold gridLearn
  repeat' first
    | with_reducible exact hg | with_reducible assumption | with_reducible apply learnOffset_grows
    | with_reducible apply steerSample_grows | fail_if_no_progress (with_reducible refine mk_grows ?_ rfl)
    | with_reducible refine Grows.pair2 (by assumption) ?_
    | with_reducible refine Grows.pair1 (by assumption) ?_
    | with_reducible refine Grows.ofOpt (by assumption) ?_ | intro _ | split | dsimp only

theorem learnNode_grows {z0 : State} {s : State} {f : Flight} {m : Mhr} {upset : List Nat} (hg : Grows z0 s) :
    Grows z0 (learnNode s f m upset) := by
  unfold learnNode
  repeat' first
    | with_reducible exact hg | with_reducible assumption | with_reducible apply cset_grows
    | with_reducible apply slpObserve_grows | with_reducible apply learn_grows
    | with_reducible apply gridLearn_grows | fail_if_no_progress (with_reducible refine mk_grows ?_ rfl)
    | with_reducible refine Grows.pair2 (by assumption) ?_
    | with_reducible refine Grows.pair1 (by assumption) ?_
    | with_reducible refine Grows.ofOpt (by assumption) ?_ | intro _ | split | dsimp only

theorem meshNode_grows {z0 : State} {s : State} {dst : List Byte} {upset : List Nat} (hg : Grows z0 s) :
    Grows z0 (meshNode s dst upset).2 := by
  unfold meshNode
  repeat' first
    | with_reducible exact hg | with_reducible assumption | with_reducible apply ntLookupPipe_grows
    | fail_if_no_progress (with_reducible refine mk_grows ?_ rfl)
    | with_reducible refine Grows.pair2 (by assumption) ?_
    | with_reducible refine Grows.pair1 (by assumption) ?_
    | with_reducible refine Grows.ofOpt (by assumption) ?_ | intro _ | split | dsimp only

theorem fwdDrop_grows {z0 : State} {s : State} {tag : Nat} {f : Flight} {counter : Nat} (hg : Grows z0 s) :
    Grows z0 (fwdDrop s tag f counter) := by
  unfold fwdDrop
  repeat' first
    | with_reducible exact hg | with_reducible assumption | with_reducible apply bump_grows
    | with_reducible apply dropFlight_grows | fail_if_no_progress (with_reducible refine mk_grows ?_ rfl)
    | with_reducible refine Grows.pair2 (by assumption) ?_
    | with_reducible refine Grows.pair1 (by assumption) ?_
    | with_reducible refine Grows.ofOpt (by assumption) ?_ | intro _ | split | dsimp only

theorem hopSpent_grows {z0 : State} {s : State} {tag : Nat} {f : Flight} {p : List Byte} (hg : Grows z0 s) :
    Grows z0 (hopSpent s tag f p) := by
  unfold hopSpent
  repeat' first
    | with_reducible exact hg | with_reducible assumption | with_reducible apply bump_grows
    | with_reducible apply toHost_grows | fail_if_no_progress (with_reducible refine mk_grows ?_ rfl)
    | with_reducible refine Grows.pair2 (by assumption) ?_
    | with_reducible refine Grows.pair1 (by assumption) ?_
    | with_reducible refine Grows.ofOpt (by assumption) ?_ | intro _ | split | dsimp only

theorem twinMirror_grows {z0 : State} {s : State} {f : Flight} {svc : Nat} {p : List Byte} (hg : Grows z0 s) :
    Grows z0 (twinMirror s f svc p) := by
  unfold twinMirror
  repeat' first
    | with_reducible exact hg | with_reducible assumption | with_reducible apply bump_grows
    | with_reducible apply escQueueFrame_grows | with_reducible apply newRef_grows
    | fail_if_no_progress (with_reducible refine mk_grows ?_ rfl)
    | with_reducible refine Grows.pair2 (by assumption) ?_
    | with_reducible refine Grows.pair1 (by assumption) ?_
    | with_reducible refine Grows.ofOpt (by assumption) ?_ | intro _ | split | dsimp only

theorem toMesh_grows {z0 : State} {s : State} {tag : Nat} {f : Flight} {e : PtEntry} {p : List Byte} {upset : List Nat} (hg : Grows z0 s) :
    Grows z0 (toMesh s tag f e p upset) := by
  unfold toMesh
  repeat' first
    | with_reducible exact hg | with_reducible assumption | with_reducible apply markStage_grows
    | with_reducible apply markCtx_grows | with_reducible apply setFlight_grows
    | with_reducible apply toHost_grows | with_reducible apply meshNode_grows
    | with_reducible apply hopSpent_grows | with_reducible apply twinMirror_grows
    | fail_if_no_progress (with_reducible refine mk_grows ?_ rfl)
    | with_reducible refine Grows.pair2 (by assumption) ?_
    | with_reducible refine Grows.pair1 (by assumption) ?_
    | with_reducible refine Grows.ofOpt (by assumption) ?_ | intro _ | split | dsimp only

theorem toPort_grows {z0 : State} {s : State} {tag : Nat} {f : Flight} {e : PtEntry} {p : List Byte} (hg : Grows z0 s) :
    Grows z0 (toPort s tag f e p) := by
  unfold toPort
  repeat' first
    | with_reducible exact hg | with_reducible assumption | with_reducible apply drawFree_grows
    | with_reducible apply bump_grows | with_reducible apply flightDone_grows
    | with_reducible apply fwdDrop_grows | with_reducible apply hopSpent_grows
    | fail_if_no_progress (with_reducible refine mk_grows ?_ rfl)
    | with_reducible refine Grows.pair2 (by assumption) ?_
    | with_reducible refine Grows.pair1 (by assumption) ?_
    | with_reducible refine Grows.ofOpt (by assumption) ?_ | intro _ | split | dsimp only

theorem egress_grows {z0 : State} {s : State} {tag : Nat} {f : Flight} {p : List Byte} {ptUpset ntUpset : List Nat} (hg : Grows z0 s) :
    Grows z0 (egress s tag f p ptUpset ntUpset) := by
  unfold egress
  repeat' first
    | with_reducible exact hg | with_reducible assumption | with_reducible apply bump_grows
    | with_reducible apply ntUpset_grows | with_reducible apply ptUpset_grows
    | with_reducible apply ptLookup_grows | with_reducible apply dropFlight_grows
    | with_reducible apply toHost_grows | with_reducible apply fwdDrop_grows | with_reducible apply toMesh_grows
    | with_reducible apply toPort_grows | fail_if_no_progress (with_reducible refine mk_grows ?_ rfl)
    | with_reducible refine Grows.pair2 (by assumption) ?_
    | with_reducible refine Grows.pair1 (by assumption) ?_
    | with_reducible refine Grows.ofOpt (by assumption) ?_ | intro _ | split | dsimp only

theorem reasmShow_grows {z0 : State} {s : State} (hg : Grows z0 s) :
    Grows z0 (reasmShow s) := by
  unfold reasmShow
  repeat' first
    | with_reducible exact hg | with_reducible assumption | with_reducible apply set_grows
    | fail_if_no_progress (with_reducible refine mk_grows ?_ rfl)
    | with_reducible refine Grows.pair2 (by assumption) ?_
    | with_reducible refine Grows.pair1 (by assumption) ?_
    | with_reducible refine Grows.ofOpt (by assumption) ?_ | intro _ | split | dsimp only

theorem reasmDrop_grows {z0 : State} {s : State} {i : Nat} {r : Reasm} (hg : Grows z0 s) :
    Grows z0 (reasmDrop s i r) := by
  unfold reasmDrop
  repeat' first
    | with_reducible exact hg | with_reducible assumption | with_reducible apply onFwd_grows
    | with_reducible apply poolGive_grows | with_reducible apply marksEnd_grows
    | with_reducible apply reasmShow_grows | fail_if_no_progress (with_reducible refine mk_grows ?_ rfl)
    | with_reducible refine Grows.pair2 (by assumption) ?_
    | with_reducible refine Grows.pair1 (by assumption) ?_
    | with_reducible refine Grows.ofOpt (by assumption) ?_ | intro _ | split | dsimp only

theorem reasmStore_grows {z0 : State} {s : State} {tag : Nat} {f : Flight} {i : Nat} {r : Reasm} (hg : Grows z0 s) :
    Grows z0 (reasmStore s tag f i r) := by
  unfold reasmStore
  repeat' first
    | with_reducible exact hg | with_reducible assumption | with_reducible apply onFwd_grows
    | with_reducible apply poolGive_grows | with_reducible apply endFlight_grows
    | with_reducible apply reasmShow_grows | fail_if_no_progress (with_reducible refine mk_grows ?_ rfl)
    | with_reducible refine Grows.pair2 (by assumption) ?_
    | with_reducible refine Grows.pair1 (by assumption) ?_
    | with_reducible refine Grows.ofOpt (by assumption) ?_ | intro _ | split | dsimp only

theorem reasmDone_grows {z0 : State} {s : State} {f : Flight} {i : Nat} {r : Reasm} (hg : Grows z0 s) :
    Grows z0 (reasmDone s f i r) := by
  unfold reasmDone
  repeat' first
    | with_reducible exact hg | with_reducible assumption | with_reducible apply onFwd_grows
    | with_reducible apply bump_grows | with_reducible apply poolGive_grows
    | with_reducible apply marksEnd_grows | with_reducible apply reasmShow_grows
    | fail_if_no_progress (with_reducible refine mk_grows ?_ rfl)
    | with_reducible refine Grows.pair2 (by assumption) ?_
    | with_reducible refine Grows.pair1 (by assumption) ?_
    | with_reducible refine Grows.ofOpt (by assumption) ?_ | intro _ | split | dsimp only

theorem reasmFull_grows {z0 : State} {s : State} (hg : Grows z0 s) :
    Grows z0 (reasmFull s) := by
  unfold reasmFull
  repeat' first
    | with_reducible exact hg | with_reducible assumption | with_reducible apply bump_grows
    | with_reducible apply raiseFirst_grows | fail_if_no_progress (with_reducible refine mk_grows ?_ rfl)
    | with_reducible refine Grows.pair2 (by assumption) ?_
    | with_reducible refine Grows.pair1 (by assumption) ?_
    | with_reducible refine Grows.ofOpt (by assumption) ?_ | intro _ | split | dsimp only

theorem fragFind_grows {z0 : State} {s : State} {src : Nat × Nat} {x : Frag} {upset : Bool} (hg : Grows z0 s) :
    Grows z0 (fragFind s src x upset).2 := by
  unfold fragFind
  repeat' first
    | with_reducible exact hg | with_reducible assumption | with_reducible apply fwdParity_grows
    | with_reducible apply reasmDrop_grows | fail_if_no_progress (with_reducible refine mk_grows ?_ rfl)
    | with_reducible refine Grows.pair2 (by assumption) ?_
    | with_reducible refine Grows.pair1 (by assumption) ?_
    | with_reducible refine Grows.ofOpt (by assumption) ?_ | intro _ | split | dsimp only

theorem fragment_grows {z0 : State} {s : State} {tag : Nat} {f : Flight} {src : Nat × Nat} {x : Frag} {upset : Bool} (hg : Grows z0 s) :
    Grows z0 (fragment s tag f src x upset).2 := by
  unfold fragment
  repeat' first
    | with_reducible exact hg | with_reducible assumption | with_reducible apply bump_grows
    | with_reducible apply poolTake_grows | with_reducible apply dropFlight_grows
    | with_reducible apply reasmDrop_grows | with_reducible apply reasmStore_grows
    | with_reducible apply reasmDone_grows | with_reducible apply reasmFull_grows
    | with_reducible apply fragFind_grows | fail_if_no_progress (with_reducible refine mk_grows ?_ rfl)
    | with_reducible refine Grows.pair2 (by assumption) ?_
    | with_reducible refine Grows.pair1 (by assumption) ?_
    | with_reducible refine Grows.ofOpt (by assumption) ?_
    | with_reducible refine Grows.fold ?_ (fun _ _ _ => ?_)
    | with_reducible refine Grows.fold2 ?_ (fun _ _ _ => ?_)
    | with_reducible refine Grows.fold1 ?_ (fun _ _ _ => ?_) | intro _ | split | dsimp only

theorem reassemblyTimeout_grows {z0 : State} {s : State} {i : Nat} (hg : Grows z0 s) :
    Grows z0 (reassemblyTimeout s i) := by
  unfold reassemblyTimeout
  repeat' first
    | with_reducible exact hg | with_reducible assumption | with_reducible apply bump_grows
    | with_reducible apply reasmDrop_grows | fail_if_no_progress (with_reducible refine mk_grows ?_ rfl)
    | with_reducible refine Grows.pair2 (by assumption) ?_
    | with_reducible refine Grows.pair1 (by assumption) ?_
    | with_reducible refine Grows.ofOpt (by assumption) ?_ | intro _ | split | dsimp only

theorem iesToHost_grows {z0 : State} {s : State} {m : Mhr} (hg : Grows z0 s) : Grows z0 (iesToHost s m) := by
  unfold iesToHost
  exact Grows.fold hg (fun _ _ h => emit_grows h)

theorem classify_grows {z0 : State} {s : State} {tag : Nat} {f : Flight} {m : Mhr} {psdu : List Byte} {ptUpset ntUpset : List Nat} {reasmUpset : Bool} (hg : Grows z0 s) :
    Grows z0 (classify s tag f m psdu ptUpset ntUpset reasmUpset) := by
  unfold classify
  repeat' first
    | with_reducible exact hg | with_reducible assumption | with_reducible apply ntUpset_grows
    | with_reducible apply ptUpset_grows | with_reducible apply toHost_grows
    | with_reducible apply iesToHost_grows
    | with_reducible apply learnNode_grows | with_reducible apply egress_grows
    | with_reducible apply fragment_grows | fail_if_no_progress (with_reducible refine mk_grows ?_ rfl)
    | with_reducible refine Grows.pair2 (by assumption) ?_
    | with_reducible refine Grows.pair1 (by assumption) ?_
    | with_reducible refine Grows.ofOpt (by assumption) ?_ | intro _ | split | dsimp only

theorem secDrop_grows {z0 : State} {s : State} {tag : Nat} {f : Flight} {sec : Nat} (hg : Grows z0 s) :
    Grows z0 (secDrop s tag f sec) := by
  unfold secDrop
  repeat' first
    | with_reducible exact hg | with_reducible assumption | with_reducible apply bump_grows
    | with_reducible apply raiseFirst_grows | with_reducible apply dropFlight_grows
    | fail_if_no_progress (with_reducible refine mk_grows ?_ rfl)
    | with_reducible refine Grows.pair2 (by assumption) ?_
    | with_reducible refine Grows.pair1 (by assumption) ?_
    | with_reducible refine Grows.ofOpt (by assumption) ?_ | intro _ | split | dsimp only

theorem uplinkDecrypt_grows {z0 : State} {s : State} {tag : Nat} {ptUpset ntUpset : List Nat} {reasmUpset : Bool} (hg : Grows z0 s) :
    Grows z0 (uplinkDecrypt s tag ptUpset ntUpset reasmUpset) := by
  unfold uplinkDecrypt
  repeat' first
    | with_reducible exact hg | with_reducible assumption | with_reducible apply bump_grows
    | with_reducible apply markStage_grows | with_reducible apply ntUpset_grows
    | with_reducible apply ptUpset_grows | with_reducible apply ebrReceived_grows
    | with_reducible apply classify_grows | with_reducible apply secDrop_grows
    | fail_if_no_progress (with_reducible refine mk_grows ?_ rfl)
    | with_reducible refine Grows.pair2 (by assumption) ?_
    | with_reducible refine Grows.pair1 (by assumption) ?_
    | with_reducible refine Grows.ofOpt (by assumption) ?_ | intro _ | split | dsimp only

/-! ### DownOps -/

theorem startWaiting_grows {z0 : State} {s : State} {tag : Nat} {w : WaitFrame} {upset : List Nat} (hg : Grows z0 s) :
    Grows z0 (startWaiting s tag w upset) := by
  unfold startWaiting
  repeat' first
    | with_reducible exact hg | with_reducible assumption | with_reducible apply poolGive_grows
    | with_reducible apply markCtx_grows | with_reducible apply startFlight_grows
    | with_reducible apply sourceLookup_grows | fail_if_no_progress (with_reducible refine mk_grows ?_ rfl)
    | with_reducible refine Grows.pair2 (by assumption) ?_
    | with_reducible refine Grows.pair1 (by assumption) ?_
    | with_reducible refine Grows.ofOpt (by assumption) ?_ | intro _ | split | dsimp only

theorem tagAdmission_grows {z0 : State} {s : State} {ing : Ingress} {upset : List Nat} (hg : Grows z0 s) :
    Grows z0 (tagAdmission s ing upset) := by
  unfold tagAdmission
  repeat' first
    | with_reducible exact hg | with_reducible assumption | with_reducible apply onFwd_grows
    | with_reducible apply startWaiting_grows | fail_if_no_progress (with_reducible refine mk_grows ?_ rfl)
    | with_reducible refine Grows.pair2 (by assumption) ?_
    | with_reducible refine Grows.pair1 (by assumption) ?_
    | with_reducible refine Grows.ofOpt (by assumption) ?_ | intro _ | split | dsimp only

theorem downlinkIngress_grows {z0 : State} {s : State} {ing : Ingress} {ptUpset ntUpset : List Nat} (hg : Grows z0 s) :
    Grows z0 (downlinkIngress s ing ptUpset ntUpset) := by
  unfold downlinkIngress
  repeat' first
    | with_reducible exact hg | with_reducible assumption | with_reducible apply ntUpset_grows
    | with_reducible apply ptUpset_grows | with_reducible apply flightDone_grows
    | with_reducible apply egress_grows | with_reducible apply tagAdmission_grows
    | fail_if_no_progress (with_reducible refine mk_grows ?_ rfl)
    | with_reducible refine Grows.pair2 (by assumption) ?_
    | with_reducible refine Grows.pair1 (by assumption) ?_
    | with_reducible refine Grows.ofOpt (by assumption) ?_ | intro _ | split | dsimp only

theorem routeFail_grows {z0 : State} {s : State} {tag : Nat} {f : Flight} {reason : Nat} (hg : Grows z0 s) :
    Grows z0 (routeFail s tag f reason) := by
  unfold routeFail
  repeat' first
    | with_reducible exact hg | with_reducible assumption | with_reducible apply bump_grows
    | with_reducible apply raiseFirst_grows | with_reducible apply dropFlight_grows
    | with_reducible apply toHost_grows | fail_if_no_progress (with_reducible refine mk_grows ?_ rfl)
    | with_reducible refine Grows.pair2 (by assumption) ?_
    | with_reducible refine Grows.pair1 (by assumption) ?_
    | with_reducible refine Grows.ofOpt (by assumption) ?_ | intro _ | split | dsimp only

theorem downFrames_grows {s0 : State} {s : State} {hop hopEui profile level : Nat} {ie : List Byte} {l : List (List Byte)}
    (h : Grows s0 s) : Grows s0 (downFrames s hop hopEui profile level ie l).2 := by
  induction l generalizing s with
  | nil => exact h
  | cons p r ih => exact ih (drawFree_grows h (n := 256))

theorem routeBuilt_grows {z0 : State} {s : State} {tag : Nat} {f : Flight} {prim : Nat} {list : List Nat} (hg : Grows z0 s) :
    Grows z0 (routeBuilt s tag f prim list) := by
  unfold routeBuilt
  repeat' first
    | with_reducible exact hg | with_reducible assumption | with_reducible apply set_grows
    | with_reducible apply bumpBy_grows | with_reducible apply bump_grows | with_reducible apply markStage_grows
    | with_reducible apply noCounter_grows | with_reducible apply setFlight_grows
    | with_reducible apply dropFlight_grows | with_reducible apply toHost_grows
    | with_reducible apply routeFail_grows | with_reducible apply downFrames_grows
    | fail_if_no_progress (with_reducible refine mk_grows ?_ rfl)
    | with_reducible refine Grows.pair2 (by assumption) ?_
    | with_reducible refine Grows.pair1 (by assumption) ?_
    | with_reducible refine Grows.ofOpt (by assumption) ?_ | intro _ | split | dsimp only

theorem routeBuild_grows {z0 : State} {s : State} {tag : Nat} {upset : List Nat} {line : Option (Fin 3)} (hg : Grows z0 s) :
    Grows z0 (routeBuild s tag upset line) := by
  unfold routeBuild
  repeat' first
    | with_reducible exact hg | with_reducible assumption | with_reducible apply markStage_grows
    | with_reducible apply ntUpset_grows | with_reducible apply ctxUpset_grows
    | with_reducible apply noCounter_grows | with_reducible apply dropFlight_grows
    | with_reducible apply toHost_grows | with_reducible apply routeFail_grows
    | with_reducible apply routeBuilt_grows | fail_if_no_progress (with_reducible refine mk_grows ?_ rfl)
    | with_reducible refine Grows.pair2 (by assumption) ?_
    | with_reducible refine Grows.pair1 (by assumption) ?_
    | with_reducible refine Grows.ofOpt (by assumption) ?_ | intro _ | split | dsimp only

theorem takeCounters_grows {s0 : State} {s : State} {hop : Nat} {l : List AirOut} (h : Grows s0 s) :
    Grows s0 (takeCounters s hop l).2 := by
  induction l generalizing s with
  | nil => exact h
  | cons a r ih =>
    have g := takeCounter_grows (k := hop) h
    unfold takeCounters
    split
    · exact Grows.pair2 (by assumption) g
    · have k := ih (Grows.pair2 (by assumption) g)
      split
      · exact Grows.pair2 (by assumption) k
      · exact Grows.pair2 (by assumption) k

theorem sealFlight_grows {z0 : State} {s : State} {tag : Nat} {f : Flight} (hg : Grows z0 s) :
    Grows z0 (sealFlight s tag f) := by
  unfold sealFlight
  repeat' first
    | with_reducible exact hg | with_reducible assumption | with_reducible apply bumpBy_grows
    | with_reducible apply markStage_grows | with_reducible apply flightDone_grows
    | fail_if_no_progress (with_reducible refine mk_grows ?_ rfl)
    | with_reducible refine Grows.pair2 (by assumption) ?_
    | with_reducible refine Grows.pair1 (by assumption) ?_
    | with_reducible refine Grows.ofOpt (by assumption) ?_ | intro _ | split | dsimp only

theorem downlinkSecure_grows {z0 : State} {s : State} {tag : Nat} {upset : Option (Fin 3)} (hg : Grows z0 s) :
    Grows z0 (downlinkSecure s tag upset) := by
  unfold downlinkSecure
  repeat' first
    | with_reducible exact hg | with_reducible assumption | with_reducible apply ctxUpset_grows
    | with_reducible apply dropFlight_grows | with_reducible apply toHost_grows
    | with_reducible apply txKeyDrop_grows | with_reducible apply keyAsk_grows
    | with_reducible apply takeCounters_grows | with_reducible apply sealFlight_grows
    | fail_if_no_progress (with_reducible refine mk_grows ?_ rfl)
    | with_reducible refine Grows.pair2 (by assumption) ?_
    | with_reducible refine Grows.pair1 (by assumption) ?_
    | with_reducible refine Grows.ofOpt (by assumption) ?_ | intro _ | split | dsimp only

theorem airRaw_grows {z0 : State} {s : State} {m : TxMetaDesc} {host : Nat × Nat} {data : List Byte} {bufs : Nat} (hg : Grows z0 s) :
    Grows z0 (airRaw s m host data bufs) := by
  unfold airRaw
  repeat' first
    | with_reducible exact hg | with_reducible assumption | with_reducible apply escQueueFrame_grows
    | with_reducible apply newRef_grows | fail_if_no_progress (with_reducible refine mk_grows ?_ rfl)
    | with_reducible refine Grows.pair2 (by assumption) ?_
    | with_reducible refine Grows.pair1 (by assumption) ?_
    | with_reducible refine Grows.ofOpt (by assumption) ?_ | intro _ | split | dsimp only

theorem frameAdmission_grows {z0 : State} {s : State} {r : Nat} {data : Option (List Byte)} (hg : Grows z0 s) :
    Grows z0 (frameAdmission s r data) := by
  unfold frameAdmission
  repeat' first
    | with_reducible exact hg | with_reducible assumption | with_reducible apply onRing_grows
    | with_reducible apply bump_grows | with_reducible apply poolTake_grows | with_reducible apply consume_grows
    | with_reducible apply complete_grows | with_reducible apply escQueueFrame_grows
    | with_reducible apply newRef_grows | with_reducible apply startFlight_grows
    | with_reducible apply airRaw_grows | fail_if_no_progress (with_reducible refine mk_grows ?_ rfl)
    | with_reducible refine Grows.pair2 (by assumption) ?_
    | with_reducible refine Grows.pair1 (by assumption) ?_
    | with_reducible refine Grows.ofOpt (by assumption) ?_
    | with_reducible refine Grows.fold ?_ (fun _ _ _ => ?_)
    | with_reducible refine Grows.fold2 ?_ (fun _ _ _ => ?_)
    | with_reducible refine Grows.fold1 ?_ (fun _ _ _ => ?_) | intro _ | split | dsimp only

/-! ### EthOps -/

theorem ethStart_grows {z0 : State} {s : State} {i : Nat} (hg : Grows z0 s) :
    Grows z0 (ethStart s i) := by
  unfold ethStart
  repeat' first
    | with_reducible exact hg | with_reducible assumption | with_reducible apply onEth_grows
    | with_reducible apply markStage_grows | fail_if_no_progress (with_reducible refine mk_grows ?_ rfl)
    | with_reducible refine Grows.pair2 (by assumption) ?_
    | with_reducible refine Grows.pair1 (by assumption) ?_
    | with_reducible refine Grows.ofOpt (by assumption) ?_ | intro _ | split | dsimp only

theorem ethSend_grows {z0 : State} {s : State} {i : Nat} {f : EscFrame} (hg : Grows z0 s) :
    Grows z0 (ethSend s i f) := by
  unfold ethSend
  repeat' first
    | with_reducible exact hg | with_reducible assumption | with_reducible apply onEth_grows
    | with_reducible apply ethStart_grows | fail_if_no_progress (with_reducible refine mk_grows ?_ rfl)
    | with_reducible refine Grows.pair2 (by assumption) ?_
    | with_reducible refine Grows.pair1 (by assumption) ?_
    | with_reducible refine Grows.ofOpt (by assumption) ?_ | intro _ | split | dsimp only

theorem ethStandbyIn_grows {z0 : State} {s : State} {i : Nat} (hg : Grows z0 s) :
    Grows z0 (ethStandbyIn s i) := by
  unfold ethStandbyIn
  repeat' first
    | with_reducible exact hg | with_reducible assumption | with_reducible apply set_grows
    | fail_if_no_progress (with_reducible refine mk_grows ?_ rfl)
    | with_reducible refine Grows.pair2 (by assumption) ?_
    | with_reducible refine Grows.pair1 (by assumption) ?_
    | with_reducible refine Grows.ofOpt (by assumption) ?_ | intro _ | split | dsimp only

theorem ethStandbyOut_grows {z0 : State} {s : State} {i : Nat} (hg : Grows z0 s) :
    Grows z0 (ethStandbyOut s i) := by
  unfold ethStandbyOut
  repeat' first
    | with_reducible exact hg | with_reducible assumption | with_reducible apply set_grows
    | with_reducible apply ethStart_grows | fail_if_no_progress (with_reducible refine mk_grows ?_ rfl)
    | with_reducible refine Grows.pair2 (by assumption) ?_
    | with_reducible refine Grows.pair1 (by assumption) ?_
    | with_reducible refine Grows.ofOpt (by assumption) ?_ | intro _ | split | dsimp only

theorem ethStandby_grows {z0 : State} {s : State} {i : Nat} {on : Bool} (hg : Grows z0 s) :
    Grows z0 (ethStandby s i on) := by
  unfold ethStandby
  repeat' first
    | with_reducible exact hg | with_reducible assumption | with_reducible apply setb_grows
    | with_reducible apply ethStandbyIn_grows | with_reducible apply ethStandbyOut_grows
    | fail_if_no_progress (with_reducible refine mk_grows ?_ rfl)
    | with_reducible refine Grows.pair2 (by assumption) ?_
    | with_reducible refine Grows.pair1 (by assumption) ?_
    | with_reducible refine Grows.ofOpt (by assumption) ?_ | intro _ | split | dsimp only

theorem ptpInsert_grows {z0 : State} {s : State} {i : Nat} {l : List Byte} {ts : Nat} (hg : Grows z0 s) :
    Grows z0 (ptpInsert s i l ts).2 := by
  unfold ptpInsert
  repeat' first
    | with_reducible exact hg | with_reducible assumption | with_reducible apply bump_grows
    | fail_if_no_progress (with_reducible refine mk_grows ?_ rfl)
    | with_reducible refine Grows.pair2 (by assumption) ?_
    | with_reducible refine Grows.pair1 (by assumption) ?_
    | with_reducible refine Grows.ofOpt (by assumption) ?_ | intro _ | split | dsimp only

theorem drqStore_grows {z0 : State} {s : State} {i : Nat} {l : List Byte} {ts : Nat} (hg : Grows z0 s) :
    Grows z0 (drqStore s i l ts) := by
  unfold drqStore
  repeat' first
    | with_reducible exact hg | with_reducible assumption | with_reducible apply onBal_grows
    | fail_if_no_progress (with_reducible refine mk_grows ?_ rfl)
    | with_reducible refine Grows.pair2 (by assumption) ?_
    | with_reducible refine Grows.pair1 (by assumption) ?_
    | with_reducible refine Grows.ofOpt (by assumption) ?_ | intro _ | split | dsimp only

theorem ethReport_grows {z0 : State} {s : State} {i : Nat} {f : EscFrame} {ts : Nat} (hg : Grows z0 s) :
    Grows z0 (ethReport s i f ts).2 := by
  unfold ethReport
  repeat' first
    | with_reducible exact hg | with_reducible assumption | with_reducible apply tsfPush_grows
    | fail_if_no_progress (with_reducible refine mk_grows ?_ rfl)
    | with_reducible refine Grows.pair2 (by assumption) ?_
    | with_reducible refine Grows.pair1 (by assumption) ?_
    | with_reducible refine Grows.ofOpt (by assumption) ?_ | intro _ | split | dsimp only

theorem ethOut_grows {z0 : State} {s : State} {i : Nat} {octets : List Byte} (hg : Grows z0 s) :
    Grows z0 (ethOut s i octets) := by
  unfold ethOut
  repeat' first
    | with_reducible exact hg | with_reducible assumption | with_reducible apply emit_grows
    | fail_if_no_progress (with_reducible refine mk_grows ?_ rfl)
    | with_reducible refine Grows.pair2 (by assumption) ?_
    | with_reducible refine Grows.pair1 (by assumption) ?_
    | with_reducible refine Grows.ofOpt (by assumption) ?_ | intro _ | split | dsimp only

theorem pauseEmit_grows {z0 : State} {s : State} {i quanta : Nat} (hg : Grows z0 s) :
    Grows z0 (pauseEmit s i quanta) := by
  unfold pauseEmit
  repeat' first
    | with_reducible exact hg | with_reducible assumption | with_reducible apply bump_grows
    | with_reducible apply ethOut_grows | fail_if_no_progress (with_reducible refine mk_grows ?_ rfl)
    | with_reducible refine Grows.pair2 (by assumption) ?_
    | with_reducible refine Grows.pair1 (by assumption) ?_
    | with_reducible refine Grows.ofOpt (by assumption) ?_ | intro _ | split | dsimp only

theorem pauseFlush_grows {z0 : State} {s : State} {i : Nat} (hg : Grows z0 s) :
    Grows z0 (pauseFlush s i) := by
  unfold pauseFlush
  repeat' first
    | with_reducible exact hg | with_reducible assumption | with_reducible apply onEth_grows
    | with_reducible apply pauseEmit_grows | fail_if_no_progress (with_reducible refine mk_grows ?_ rfl)
    | with_reducible refine Grows.pair2 (by assumption) ?_
    | with_reducible refine Grows.pair1 (by assumption) ?_
    | with_reducible refine Grows.ofOpt (by assumption) ?_
    | with_reducible refine Grows.fold ?_ (fun _ _ _ => ?_)
    | with_reducible refine Grows.fold2 ?_ (fun _ _ _ => ?_)
    | with_reducible refine Grows.fold1 ?_ (fun _ _ _ => ?_) | intro _ | split | dsimp only

theorem ethTxEnd_grows {z0 : State} {s : State} {i ts : Nat} (hg : Grows z0 s) :
    Grows z0 (ethTxEnd s i ts) := by
  unfold ethTxEnd
  repeat' first
    | with_reducible exact hg | with_reducible assumption | with_reducible apply onEth_grows
    | with_reducible apply bump_grows | with_reducible apply escEnd_grows | with_reducible apply ethStart_grows
    | with_reducible apply ethStandbyIn_grows | with_reducible apply ptpInsert_grows
    | with_reducible apply ethReport_grows | with_reducible apply ethOut_grows
    | with_reducible apply pauseFlush_grows | fail_if_no_progress (with_reducible refine mk_grows ?_ rfl)
    | with_reducible refine Grows.pair2 (by assumption) ?_
    | with_reducible refine Grows.pair1 (by assumption) ?_
    | with_reducible refine Grows.ofOpt (by assumption) ?_ | intro _ | split | dsimp only

theorem pauseEnd_grows {z0 : State} {s : State} {i : Nat} (hg : Grows z0 s) :
    Grows z0 (pauseEnd s i) := by
  unfold pauseEnd
  repeat' first
    | with_reducible exact hg | with_reducible assumption | with_reducible apply set_grows
    | with_reducible apply onEth_grows | with_reducible apply ethStart_grows
    | fail_if_no_progress (with_reducible refine mk_grows ?_ rfl)
    | with_reducible refine Grows.pair2 (by assumption) ?_
    | with_reducible refine Grows.pair1 (by assumption) ?_
    | with_reducible refine Grows.ofOpt (by assumption) ?_ | intro _ | split | dsimp only

theorem pauseHold_grows {z0 : State} {s : State} {i : Nat} (hg : Grows z0 s) :
    Grows z0 (pauseHold s i) := by
  unfold pauseHold
  repeat' first
    | with_reducible exact hg | with_reducible assumption | with_reducible apply onEth_grows
    | fail_if_no_progress (with_reducible refine mk_grows ?_ rfl)
    | with_reducible refine Grows.pair2 (by assumption) ?_
    | with_reducible refine Grows.pair1 (by assumption) ?_
    | with_reducible refine Grows.ofOpt (by assumption) ?_ | intro _ | split | dsimp only

theorem pauseReceived_grows {z0 : State} {s : State} {i time : Nat} (hg : Grows z0 s) :
    Grows z0 (pauseReceived s i time) := by
  unfold pauseReceived
  repeat' first
    | with_reducible exact hg | with_reducible assumption | with_reducible apply set_grows
    | with_reducible apply onEth_grows | with_reducible apply bump_grows | with_reducible apply pauseEnd_grows
    | with_reducible apply pauseHold_grows | fail_if_no_progress (with_reducible refine mk_grows ?_ rfl)
    | with_reducible refine Grows.pair2 (by assumption) ?_
    | with_reducible refine Grows.pair1 (by assumption) ?_
    | with_reducible refine Grows.ofOpt (by assumption) ?_ | intro _ | split | dsimp only

theorem pauseExpiry_grows {z0 : State} {s : State} {i : Nat} (hg : Grows z0 s) :
    Grows z0 (pauseExpiry s i) := by
  unfold pauseExpiry
  repeat' first
    | with_reducible exact hg | with_reducible assumption | with_reducible apply pauseEnd_grows
    | fail_if_no_progress (with_reducible refine mk_grows ?_ rfl)
    | with_reducible refine Grows.pair2 (by assumption) ?_
    | with_reducible refine Grows.pair1 (by assumption) ?_
    | with_reducible refine Grows.ofOpt (by assumption) ?_ | intro _ | split | dsimp only

theorem pauseWatchdog_grows {z0 : State} {s : State} {i : Nat} (hg : Grows z0 s) :
    Grows z0 (pauseWatchdog s i) := by
  unfold pauseWatchdog
  repeat' first
    | with_reducible exact hg | with_reducible assumption | with_reducible apply set_grows
    | with_reducible apply onEth_grows | with_reducible apply bump_grows | with_reducible apply raise_grows
    | with_reducible apply pauseEnd_grows | fail_if_no_progress (with_reducible refine mk_grows ?_ rfl)
    | with_reducible refine Grows.pair2 (by assumption) ?_
    | with_reducible refine Grows.pair1 (by assumption) ?_
    | with_reducible refine Grows.ofOpt (by assumption) ?_ | intro _ | split | dsimp only

theorem holdoffEnd_grows {z0 : State} {s : State} {i : Nat} (hg : Grows z0 s) :
    Grows z0 (holdoffEnd s i) := by
  unfold holdoffEnd
  repeat' first
    | with_reducible exact hg | with_reducible assumption | with_reducible apply set_grows
    | with_reducible apply onEth_grows | fail_if_no_progress (with_reducible refine mk_grows ?_ rfl)
    | with_reducible refine Grows.pair2 (by assumption) ?_
    | with_reducible refine Grows.pair1 (by assumption) ?_
    | with_reducible refine Grows.ofOpt (by assumption) ?_ | intro _ | split | dsimp only

theorem pauseOut_grows {z0 : State} {s : State} {i quanta : Nat} (hg : Grows z0 s) :
    Grows z0 (pauseOut s i quanta) := by
  unfold pauseOut
  repeat' first
    | with_reducible exact hg | with_reducible assumption | with_reducible apply onEth_grows
    | with_reducible apply pauseEmit_grows | fail_if_no_progress (with_reducible refine mk_grows ?_ rfl)
    | with_reducible refine Grows.pair2 (by assumption) ?_
    | with_reducible refine Grows.pair1 (by assumption) ?_
    | with_reducible refine Grows.ofOpt (by assumption) ?_ | intro _ | split | dsimp only

theorem pauseSend_grows {z0 : State} {s : State} {i : Nat} (hg : Grows z0 s) :
    Grows z0 (pauseSend s i) := by
  unfold pauseSend
  repeat' first
    | with_reducible exact hg | with_reducible assumption | with_reducible apply onEth_grows
    | with_reducible apply pauseOut_grows | fail_if_no_progress (with_reducible refine mk_grows ?_ rfl)
    | with_reducible refine Grows.pair2 (by assumption) ?_
    | with_reducible refine Grows.pair1 (by assumption) ?_
    | with_reducible refine Grows.ofOpt (by assumption) ?_ | intro _ | split | dsimp only

theorem pauseClose_grows {z0 : State} {s : State} {i : Nat} (hg : Grows z0 s) :
    Grows z0 (pauseClose s i) := by
  unfold pauseClose
  repeat' first
    | with_reducible exact hg | with_reducible assumption | with_reducible apply onEth_grows
    | with_reducible apply pauseOut_grows | fail_if_no_progress (with_reducible refine mk_grows ?_ rfl)
    | with_reducible refine Grows.pair2 (by assumption) ?_
    | with_reducible refine Grows.pair1 (by assumption) ?_
    | with_reducible refine Grows.ofOpt (by assumption) ?_ | intro _ | split | dsimp only

theorem ethAdvertise_grows {z0 : State} {s : State} {i : Nat} (hg : Grows z0 s) :
    Grows z0 (ethAdvertise s i) := by
  unfold ethAdvertise
  repeat' first
    | with_reducible exact hg | with_reducible assumption | with_reducible apply emit_grows
    | with_reducible apply onEth_grows | fail_if_no_progress (with_reducible refine mk_grows ?_ rfl)
    | with_reducible refine Grows.pair2 (by assumption) ?_
    | with_reducible refine Grows.pair1 (by assumption) ?_
    | with_reducible refine Grows.ofOpt (by assumption) ?_ | intro _ | split | dsimp only

theorem ethEnable_grows {z0 : State} {s : State} {i : Nat} (hg : Grows z0 s) :
    Grows z0 (ethEnable s i) := by
  unfold ethEnable
  repeat' first
    | with_reducible exact hg | with_reducible assumption | with_reducible apply set_grows
    | with_reducible apply claimAll_grows | with_reducible apply ethAdvertise_grows
    | fail_if_no_progress (with_reducible refine mk_grows ?_ rfl)
    | with_reducible refine Grows.pair2 (by assumption) ?_
    | with_reducible refine Grows.pair1 (by assumption) ?_
    | with_reducible refine Grows.ofOpt (by assumption) ?_ | intro _ | split | dsimp only

theorem ethDisable_grows {z0 : State} {s : State} {i : Nat} (hg : Grows z0 s) :
    Grows z0 (ethDisable s i) := by
  unfold ethDisable
  repeat' first
    | with_reducible exact hg | with_reducible assumption | with_reducible apply set_grows
    | with_reducible apply onEth_grows | with_reducible apply bumpBy_grows
    | with_reducible apply releaseAll_grows | with_reducible apply pauseEnd_grows
    | fail_if_no_progress (with_reducible refine mk_grows ?_ rfl)
    | with_reducible refine Grows.pair2 (by assumption) ?_
    | with_reducible refine Grows.pair1 (by assumption) ?_
    | with_reducible refine Grows.ofOpt (by assumption) ?_ | intro _ | split | dsimp only

theorem linkUp_grows {z0 : State} {s : State} {i result pause : Nat} (hg : Grows z0 s) :
    Grows z0 (linkUp s i result pause) := by
  unfold linkUp
  repeat' first
    | with_reducible exact hg | with_reducible assumption | with_reducible apply set_grows
    | with_reducible apply onEth_grows | with_reducible apply raise_grows | with_reducible apply ethStart_grows
    | with_reducible apply ethStandbyIn_grows | fail_if_no_progress (with_reducible refine mk_grows ?_ rfl)
    | with_reducible refine Grows.pair2 (by assumption) ?_
    | with_reducible refine Grows.pair1 (by assumption) ?_
    | with_reducible refine Grows.ofOpt (by assumption) ?_ | intro _ | split | dsimp only

theorem linkDown_grows {z0 : State} {s : State} {i : Nat} {receiving : Bool} (hg : Grows z0 s) :
    Grows z0 (linkDown s i receiving) := by
  unfold linkDown
  repeat' first
    | with_reducible exact hg | with_reducible assumption | with_reducible apply set_grows
    | with_reducible apply onEth_grows | with_reducible apply bump_grows | with_reducible apply raise_grows
    | with_reducible apply ethAdvertise_grows | fail_if_no_progress (with_reducible refine mk_grows ?_ rfl)
    | with_reducible refine Grows.pair2 (by assumption) ?_
    | with_reducible refine Grows.pair1 (by assumption) ?_
    | with_reducible refine Grows.ofOpt (by assumption) ?_ | intro _ | split | dsimp only

/-! ### TwnOps -/

theorem setPath_grows {z0 : State} {s : State} {p : Nat} {x : Path} (hg : Grows z0 s) :
    Grows z0 (setPath s p x) := by
  unfold setPath
  repeat' first
    | with_reducible exact hg | with_reducible assumption | with_reducible apply setb_grows
    | with_reducible apply onTwn_grows | fail_if_no_progress (with_reducible refine mk_grows ?_ rfl)
    | with_reducible refine Grows.pair2 (by assumption) ?_
    | with_reducible refine Grows.pair1 (by assumption) ?_
    | with_reducible refine Grows.ofOpt (by assumption) ?_ | intro _ | split | dsimp only

theorem twnEnable_grows {z0 : State} {s : State} (hg : Grows z0 s) :
    Grows z0 (twnEnable s) := by
  unfold twnEnable
  repeat' first
    | with_reducible exact hg | with_reducible assumption | with_reducible apply set_grows
    | with_reducible apply takeEffect_grows | with_reducible apply onTwn_grows
    | with_reducible apply drawRandom_grows | with_reducible apply claimRefused_grows
    | with_reducible apply claimAll_grows | with_reducible apply cmpCarry_grows
    | fail_if_no_progress (with_reducible refine mk_grows ?_ rfl)
    | with_reducible refine Grows.pair2 (by assumption) ?_
    | with_reducible refine Grows.pair1 (by assumption) ?_
    | with_reducible refine Grows.ofOpt (by assumption) ?_ | intro _ | split | dsimp only

theorem twnDisable_grows {z0 : State} {s : State} (hg : Grows z0 s) :
    Grows z0 (twnDisable s) := by
  unfold twnDisable
  repeat' first
    | with_reducible exact hg | with_reducible assumption | with_reducible apply set_grows
    | with_reducible apply releaseAll_grows | with_reducible apply cmpDisable_grows
    | with_reducible apply setPath_grows | fail_if_no_progress (with_reducible refine mk_grows ?_ rfl)
    | with_reducible refine Grows.pair2 (by assumption) ?_
    | with_reducible refine Grows.pair1 (by assumption) ?_
    | with_reducible refine Grows.ofOpt (by assumption) ?_ | intro _ | split | dsimp only

theorem pairBeatSend_grows {z0 : State} {s : State} (hg : Grows z0 s) :
    Grows z0 (pairBeatSend s) := by
  unfold pairBeatSend
  repeat' first
    | with_reducible exact hg | with_reducible assumption | with_reducible apply emit_grows
    | with_reducible apply onTwn_grows | with_reducible apply cmpCarry_grows
    | fail_if_no_progress (with_reducible refine mk_grows ?_ rfl)
    | with_reducible refine Grows.pair2 (by assumption) ?_
    | with_reducible refine Grows.pair1 (by assumption) ?_
    | with_reducible refine Grows.ofOpt (by assumption) ?_ | intro _ | split | dsimp only

theorem ethBeatSend_grows {z0 : State} {s : State} (hg : Grows z0 s) :
    Grows z0 (ethBeatSend s) := by
  unfold ethBeatSend
  repeat' first
    | with_reducible exact hg | with_reducible assumption | with_reducible apply takeEffect_grows
    | with_reducible apply onEth_grows | with_reducible apply onTwn_grows | with_reducible apply cmpCarry_grows
    | with_reducible apply newRef_grows | with_reducible apply ethSend_grows
    | fail_if_no_progress (with_reducible refine mk_grows ?_ rfl)
    | with_reducible refine Grows.pair2 (by assumption) ?_
    | with_reducible refine Grows.pair1 (by assumption) ?_
    | with_reducible refine Grows.ofOpt (by assumption) ?_ | intro _ | split | dsimp only

theorem joining_grows {z0 : State} {s : State} (hg : Grows z0 s) :
    Grows z0 (joining s) := by
  unfold joining
  repeat' first
    | with_reducible exact hg | with_reducible assumption | with_reducible apply set_grows
    | with_reducible apply onTwn_grows | fail_if_no_progress (with_reducible refine mk_grows ?_ rfl)
    | with_reducible refine Grows.pair2 (by assumption) ?_
    | with_reducible refine Grows.pair1 (by assumption) ?_
    | with_reducible refine Grows.ofOpt (by assumption) ?_ | intro _ | split | dsimp only

theorem beatReceived_grows {z0 : State} {s : State} {p role state epoch : Nat} (hg : Grows z0 s) :
    Grows z0 (beatReceived s p role state epoch) := by
  unfold beatReceived
  repeat' first
    | with_reducible exact hg | with_reducible assumption | with_reducible apply set_grows
    | with_reducible apply takeEffect_grows | with_reducible apply bump_grows | with_reducible apply raise_grows
    | with_reducible apply setPath_grows | with_reducible apply joining_grows
    | fail_if_no_progress (with_reducible refine mk_grows ?_ rfl)
    | with_reducible refine Grows.pair2 (by assumption) ?_
    | with_reducible refine Grows.pair1 (by assumption) ?_
    | with_reducible refine Grows.ofOpt (by assumption) ?_ | intro _ | split | dsimp only

theorem pairBeatReceived_grows {z0 : State} {s : State} {w : Nat} (hg : Grows z0 s) :
    Grows z0 (pairBeatReceived s w) := by
  unfold pairBeatReceived
  repeat' first
    | with_reducible exact hg | with_reducible assumption | with_reducible apply beatReceived_grows
    | fail_if_no_progress (with_reducible refine mk_grows ?_ rfl)
    | with_reducible refine Grows.pair2 (by assumption) ?_
    | with_reducible refine Grows.pair1 (by assumption) ?_
    | with_reducible refine Grows.ofOpt (by assumption) ?_ | intro _ | split | dsimp only

theorem ethBeatReceived_grows {z0 : State} {s : State} {port : Nat} {l : List Byte} (hg : Grows z0 s) :
    Grows z0 (ethBeatReceived s port l) := by
  unfold ethBeatReceived
  repeat' first
    | with_reducible exact hg | with_reducible assumption | with_reducible apply beatReceived_grows
    | fail_if_no_progress (with_reducible refine mk_grows ?_ rfl)
    | with_reducible refine Grows.pair2 (by assumption) ?_
    | with_reducible refine Grows.pair1 (by assumption) ?_
    | with_reducible refine Grows.ofOpt (by assumption) ?_ | intro _ | split | dsimp only

theorem partnerGone_grows {z0 : State} {s : State} (hg : Grows z0 s) :
    Grows z0 (partnerGone s) := by
  unfold partnerGone
  repeat' first
    | with_reducible exact hg | with_reducible assumption | with_reducible apply set_grows
    | with_reducible apply bump_grows | with_reducible apply raise_grows
    | fail_if_no_progress (with_reducible refine mk_grows ?_ rfl)
    | with_reducible refine Grows.pair2 (by assumption) ?_
    | with_reducible refine Grows.pair1 (by assumption) ?_
    | with_reducible refine Grows.ofOpt (by assumption) ?_ | intro _ | split | dsimp only

theorem beatMiss_grows {z0 : State} {s : State} {p : Nat} (hg : Grows z0 s) :
    Grows z0 (beatMiss s p) := by
  unfold beatMiss
  repeat' first
    | with_reducible exact hg | with_reducible assumption | with_reducible apply onTwn_grows
    | with_reducible apply bump_grows | with_reducible apply raise_grows | with_reducible apply setPath_grows
    | with_reducible apply partnerGone_grows | fail_if_no_progress (with_reducible refine mk_grows ?_ rfl)
    | with_reducible refine Grows.pair2 (by assumption) ?_
    | with_reducible refine Grows.pair1 (by assumption) ?_
    | with_reducible refine Grows.ofOpt (by assumption) ?_ | intro _ | split | dsimp only

theorem rejoinExpiry_grows {z0 : State} {s : State} (hg : Grows z0 s) :
    Grows z0 (rejoinExpiry s) := by
  unfold rejoinExpiry
  repeat' first
    | with_reducible exact hg | with_reducible assumption | with_reducible apply set_grows
    | with_reducible apply onTwn_grows | fail_if_no_progress (with_reducible refine mk_grows ?_ rfl)
    | with_reducible refine Grows.pair2 (by assumption) ?_
    | with_reducible refine Grows.pair1 (by assumption) ?_
    | with_reducible refine Grows.ofOpt (by assumption) ?_ | intro _ | split | dsimp only

theorem splitBoundary_grows {z0 : State} {s : State} (hg : Grows z0 s) :
    Grows z0 (splitBoundary s) := by
  unfold splitBoundary
  repeat' first
    | with_reducible exact hg | with_reducible assumption | with_reducible apply set_grows
    | fail_if_no_progress (with_reducible refine mk_grows ?_ rfl)
    | with_reducible refine Grows.pair2 (by assumption) ?_
    | with_reducible refine Grows.pair1 (by assumption) ?_
    | with_reducible refine Grows.ofOpt (by assumption) ?_ | intro _ | split | dsimp only

theorem twinLinkUp_grows {z0 : State} {s : State} {credits : Nat} (hg : Grows z0 s) :
    Grows z0 (twinLinkUp s credits) := by
  unfold twinLinkUp
  repeat' first
    | with_reducible exact hg | with_reducible assumption | with_reducible apply set_grows
    | with_reducible apply emit_grows | with_reducible apply onTwn_grows | with_reducible apply raise_grows
    | fail_if_no_progress (with_reducible refine mk_grows ?_ rfl)
    | with_reducible refine Grows.pair2 (by assumption) ?_
    | with_reducible refine Grows.pair1 (by assumption) ?_
    | with_reducible refine Grows.ofOpt (by assumption) ?_ | intro _ | split | dsimp only

theorem twinLinkDown_grows {z0 : State} {s : State} (hg : Grows z0 s) :
    Grows z0 (twinLinkDown s) := by
  unfold twinLinkDown
  repeat' first
    | with_reducible exact hg | with_reducible assumption | with_reducible apply set_grows
    | with_reducible apply onTwn_grows | with_reducible apply raise_grows
    | with_reducible apply creditStallEnd_grows | fail_if_no_progress (with_reducible refine mk_grows ?_ rfl)
    | with_reducible refine Grows.pair2 (by assumption) ?_
    | with_reducible refine Grows.pair1 (by assumption) ?_
    | with_reducible refine Grows.ofOpt (by assumption) ?_ | intro _ | split | dsimp only

theorem creditReturn_grows {z0 : State} {s : State} {n : Nat} (hg : Grows z0 s) :
    Grows z0 (creditReturn s n) := by
  unfold creditReturn
  repeat' first
    | with_reducible exact hg | with_reducible assumption | with_reducible apply onTwn_grows
    | with_reducible apply creditSettle_grows | fail_if_no_progress (with_reducible refine mk_grows ?_ rfl)
    | with_reducible refine Grows.pair2 (by assumption) ?_
    | with_reducible refine Grows.pair1 (by assumption) ?_
    | with_reducible refine Grows.ofOpt (by assumption) ?_ | intro _ | split | dsimp only

theorem twinSend_grows {z0 : State} {s : State} {f : EscFrame} (hg : Grows z0 s) :
    Grows z0 (twinSend s f) := by
  unfold twinSend
  repeat' first
    | with_reducible exact hg | with_reducible assumption | with_reducible apply emit_grows
    | with_reducible apply onTwn_grows | with_reducible apply markStage_grows
    | with_reducible apply escEnd_grows | fail_if_no_progress (with_reducible refine mk_grows ?_ rfl)
    | with_reducible refine Grows.pair2 (by assumption) ?_
    | with_reducible refine Grows.pair1 (by assumption) ?_
    | with_reducible refine Grows.ofOpt (by assumption) ?_ | intro _ | split | dsimp only

theorem twinFrameReceived_grows {z0 : State} {s : State} {kind profile : Nat} {rssi : Int} {lqi angle : Nat} {l : List Byte} (hg : Grows z0 s) :
    Grows z0 (twinFrameReceived s kind profile rssi lqi angle l) := by
  unfold twinFrameReceived
  repeat' first
    | with_reducible exact hg | with_reducible assumption | with_reducible apply onFwd_grows
    | with_reducible apply poolTake_grows | fail_if_no_progress (with_reducible refine mk_grows ?_ rfl)
    | with_reducible refine Grows.pair2 (by assumption) ?_
    | with_reducible refine Grows.pair1 (by assumption) ?_
    | with_reducible refine Grows.ofOpt (by assumption) ?_ | intro _ | split | dsimp only

/-! ### WiredOps -/

theorem ethAccept_grows {z0 : State} {s : State} {i : Nat} {frame : List Byte} {e ts : Nat} (hg : Grows z0 s) :
    Grows z0 (ethAccept s i frame e ts) := by
  unfold ethAccept
  repeat' first
    | with_reducible exact hg | with_reducible assumption | with_reducible apply onEth_grows
    | with_reducible apply bump_grows | with_reducible apply drqStore_grows
    | fail_if_no_progress (with_reducible refine mk_grows ?_ rfl)
    | with_reducible refine Grows.pair2 (by assumption) ?_
    | with_reducible refine Grows.pair1 (by assumption) ?_
    | with_reducible refine Grows.ofOpt (by assumption) ?_ | intro _ | split | dsimp only

theorem fifoToPool_grows {z0 : State} {s : State} {i : Nat} (hg : Grows z0 s) :
    Grows z0 (fifoToPool s i) := by
  unfold fifoToPool
  repeat' first
    | with_reducible exact hg | with_reducible assumption | with_reducible apply onFwd_grows
    | with_reducible apply onEth_grows | with_reducible apply poolTake_grows
    | with_reducible apply pauseClose_grows | with_reducible apply ethBeatReceived_grows
    | fail_if_no_progress (with_reducible refine mk_grows ?_ rfl)
    | with_reducible refine Grows.pair2 (by assumption) ?_
    | with_reducible refine Grows.pair1 (by assumption) ?_
    | with_reducible refine Grows.ofOpt (by assumption) ?_ | intro _ | split | dsimp only

theorem ethOverflow_grows {z0 : State} {s : State} {i : Nat} (hg : Grows z0 s) :
    Grows z0 (ethOverflow s i) := by
  unfold ethOverflow
  repeat' first
    | with_reducible exact hg | with_reducible assumption | with_reducible apply bump_grows
    | with_reducible apply raise_grows | fail_if_no_progress (with_reducible refine mk_grows ?_ rfl)
    | with_reducible refine Grows.pair2 (by assumption) ?_
    | with_reducible refine Grows.pair1 (by assumption) ?_
    | with_reducible refine Grows.ofOpt (by assumption) ?_ | intro _ | split | dsimp only

theorem wakeFrameRx_grows {z0 : State} {s : State} {i : Nat} {frame : List Byte} (hg : Grows z0 s) :
    Grows z0 (wakeFrameRx s i frame) := by
  unfold wakeFrameRx
  repeat' first
    | with_reducible exact hg | with_reducible assumption | with_reducible apply set_grows
    | with_reducible apply raise_grows | with_reducible apply ethStandbyOut_grows
    | fail_if_no_progress (with_reducible refine mk_grows ?_ rfl)
    | with_reducible refine Grows.pair2 (by assumption) ?_
    | with_reducible refine Grows.pair1 (by assumption) ?_
    | with_reducible refine Grows.ofOpt (by assumption) ?_ | intro _ | split | dsimp only

theorem ethRxFrame_grows {z0 : State} {s : State} {i ts : Nat} {frame : List Byte} (hg : Grows z0 s) :
    Grows z0 (ethRxFrame s i ts frame) := by
  unfold ethRxFrame
  repeat' first
    | with_reducible exact hg | with_reducible assumption | with_reducible apply bump_grows
    | with_reducible apply pauseReceived_grows | with_reducible apply ethAccept_grows
    | with_reducible apply ethOverflow_grows | with_reducible apply wakeFrameRx_grows
    | fail_if_no_progress (with_reducible refine mk_grows ?_ rfl)
    | with_reducible refine Grows.pair2 (by assumption) ?_
    | with_reducible refine Grows.pair1 (by assumption) ?_
    | with_reducible refine Grows.ofOpt (by assumption) ?_ | intro _ | split | dsimp only

theorem haltBadPosted_grows {z0 : State} {s : State} {posted : Tab (List (Nat × Nat))} (hg : Grows z0 s) :
    Grows z0 (haltBadPosted s posted) := by
  unfold haltBadPosted
  repeat' first
    | with_reducible exact hg | with_reducible assumption | with_reducible apply ringHalt_grows
    | fail_if_no_progress (with_reducible refine mk_grows ?_ rfl)
    | with_reducible refine Grows.pair2 (by assumption) ?_
    | with_reducible refine Grows.pair1 (by assumption) ?_
    | with_reducible refine Grows.ofOpt (by assumption) ?_
    | with_reducible refine Grows.fold ?_ (fun _ _ _ => ?_)
    | with_reducible refine Grows.fold2 ?_ (fun _ _ _ => ?_)
    | with_reducible refine Grows.fold1 ?_ (fun _ _ _ => ?_) | intro _ | split | dsimp only

theorem hostRelease_grows {z0 : State} {s : State} {posted : Tab (List (Nat × Nat))} (hg : Grows z0 s) :
    Grows z0 (hostRelease s posted) := by
  unfold hostRelease
  repeat' first
    | with_reducible exact hg | with_reducible assumption | with_reducible apply hostDeliver_grows
    | with_reducible apply markStage_grows | with_reducible apply escEnd_grows
    | with_reducible apply wiredSelect_grows | with_reducible apply haltBadPosted_grows
    | fail_if_no_progress (with_reducible refine mk_grows ?_ rfl)
    | with_reducible refine Grows.pair2 (by assumption) ?_
    | with_reducible refine Grows.pair1 (by assumption) ?_
    | with_reducible refine Grows.ofOpt (by assumption) ?_ | intro _ | split | dsimp only

theorem creditStall_grows {z0 : State} {s : State} (hg : Grows z0 s) :
    Grows z0 (creditStall s) := by
  unfold creditStall
  repeat' first
    | with_reducible exact hg | with_reducible assumption | with_reducible apply onTwn_grows
    | fail_if_no_progress (with_reducible refine mk_grows ?_ rfl)
    | with_reducible refine Grows.pair2 (by assumption) ?_
    | with_reducible refine Grows.pair1 (by assumption) ?_
    | with_reducible refine Grows.ofOpt (by assumption) ?_ | intro _ | split | dsimp only

theorem wiredPortRelease_grows {z0 : State} {s : State} {port : Nat} {posted : Tab (List (Nat × Nat))} (hg : Grows z0 s) :
    Grows z0 (wiredPortRelease s port posted) := by
  unfold wiredPortRelease
  repeat' first
    | with_reducible exact hg | with_reducible assumption | with_reducible apply wiredSelect_grows
    | with_reducible apply ethSend_grows | with_reducible apply twinSend_grows
    | with_reducible apply hostRelease_grows | with_reducible apply creditStall_grows
    | fail_if_no_progress (with_reducible refine mk_grows ?_ rfl)
    | with_reducible refine Grows.pair2 (by assumption) ?_
    | with_reducible refine Grows.pair1 (by assumption) ?_
    | with_reducible refine Grows.ofOpt (by assumption) ?_ | intro _ | split | dsimp only

/-! ### MbxOps -/

theorem setSem_grows {z0 : State} {s : State} {k : Nat} {x : Sem} (hg : Grows z0 s) :
    Grows z0 (setSem s k x) := by
  unfold setSem
  repeat' first
    | with_reducible exact hg | with_reducible assumption
    | fail_if_no_progress (with_reducible refine mk_grows ?_ rfl)
    | with_reducible refine Grows.pair2 (by assumption) ?_
    | with_reducible refine Grows.pair1 (by assumption) ?_
    | with_reducible refine Grows.ofOpt (by assumption) ?_ | intro _ | split | dsimp only

theorem enterDown_grows {z0 : State} {s : State} {e : Nat} (hg : Grows z0 s) :
    Grows z0 (enterDown s e) := by
  unfold enterDown
  repeat' first
    | with_reducible exact hg | with_reducible assumption | with_reducible apply set_grows
    | with_reducible apply raise_grows | with_reducible apply setSem_grows
    | fail_if_no_progress (with_reducible refine mk_grows ?_ rfl)
    | with_reducible refine Grows.pair2 (by assumption) ?_
    | with_reducible refine Grows.pair1 (by assumption) ?_
    | with_reducible refine Grows.ofOpt (by assumption) ?_
    | with_reducible refine Grows.fold ?_ (fun _ _ _ => ?_)
    | with_reducible refine Grows.fold2 ?_ (fun _ _ _ => ?_)
    | with_reducible refine Grows.fold1 ?_ (fun _ _ _ => ?_) | intro _ | split | dsimp only

theorem hostChange_grows {z0 : State} {s : State} {f : State → State} (hg : Grows z0 s) (hf : ∀ v, Grows z0 v → Grows z0 (f v)) :
    Grows z0 (hostChange s f) := by
  unfold hostChange
  repeat' first
    | with_reducible exact hg | apply hf | with_reducible assumption | with_reducible apply enterDown_grows
    | fail_if_no_progress (with_reducible refine mk_grows ?_ rfl)
    | with_reducible refine Grows.pair2 (by assumption) ?_
    | with_reducible refine Grows.pair1 (by assumption) ?_
    | with_reducible refine Grows.ofOpt (by assumption) ?_ | intro _ | split | dsimp only

theorem setChan_grows {z0 : State} {s : State} {n : Nat} {c : MbxCh} (hg : Grows z0 s) :
    Grows z0 (setChan s n c) := by
  unfold setChan
  repeat' first
    | with_reducible exact hg | with_reducible assumption
    | fail_if_no_progress (with_reducible refine mk_grows ?_ rfl)
    | with_reducible refine Grows.pair2 (by assumption) ?_
    | with_reducible refine Grows.pair1 (by assumption) ?_
    | with_reducible refine Grows.ofOpt (by assumption) ?_ | intro _ | split | dsimp only

theorem chanAccess_grows {z0 : State} {s : State} {m : Master} {n : Nat} {p : Party} {write : Bool} (hg : Grows z0 s) :
    Grows z0 (chanAccess s m n p write).2 := by
  unfold chanAccess
  repeat' first
    | with_reducible exact hg | with_reducible assumption | with_reducible apply bump_grows
    | with_reducible apply raise_grows | fail_if_no_progress (with_reducible refine mk_grows ?_ rfl)
    | with_reducible refine Grows.pair2 (by assumption) ?_
    | with_reducible refine Grows.pair1 (by assumption) ?_
    | with_reducible refine Grows.ofOpt (by assumption) ?_ | intro _ | split | dsimp only

theorem chanShow_grows {z0 : State} {s : State} {n : Nat} (hg : Grows z0 s) :
    Grows z0 (chanShow s n) := by
  unfold chanShow
  repeat' first
    | with_reducible exact hg | with_reducible assumption | with_reducible apply set_grows
    | fail_if_no_progress (with_reducible refine mk_grows ?_ rfl)
    | with_reducible refine Grows.pair2 (by assumption) ?_
    | with_reducible refine Grows.pair1 (by assumption) ?_
    | with_reducible refine Grows.ofOpt (by assumption) ?_ | intro _ | split | dsimp only

theorem post_grows {s0 : State} {s : State} {m : Master} {n len : Nat} (h : Grows s0 s) : Grows s0 (post s m n len) := by
  unfold post
  split
  · exact Grows.pair2 (by assumption) (chanAccess_grows h)
  · rename_i x s1 e
    have g : Grows s0 s1 := Grows.pair2 e (chanAccess_grows h)
    split
    · exact g
    · extract_lets c msg full msgs s2 s3 s4
      have g2 : Grows s0 s2 := chanShow_grows (setChan_grows g)
      have g3 : Grows s0 s3 := by
        simp only [s3]; split
        · exact raise_grows (bump_grows (set_grows g2))
        · exact g2
      have g4 : Grows s0 s4 := bump_grows g3
      split
      · exact raise_grows g4
      · exact g4

theorem mbxPop_grows {z0 : State} {s : State} {m : Master} {n : Nat} (hg : Grows z0 s) :
    Grows z0 (mbxPop s m n) := by
  unfold mbxPop
  repeat' first
    | with_reducible exact hg | with_reducible assumption | with_reducible apply setChan_grows
    | with_reducible apply chanAccess_grows | with_reducible apply chanShow_grows
    | fail_if_no_progress (with_reducible refine mk_grows ?_ rfl)
    | with_reducible refine Grows.pair2 (by assumption) ?_
    | with_reducible refine Grows.pair1 (by assumption) ?_
    | with_reducible refine Grows.ofOpt (by assumption) ?_ | intro _ | split | dsimp only

theorem channelCfg_grows {z0 : State} {s : State} {m : Master} {n : Nat} {val : Nat} (hg : Grows z0 s) :
    Grows z0 (channelCfg s m n val) := by
  unfold channelCfg
  repeat' first
    | with_reducible exact hg | with_reducible assumption | with_reducible apply set_grows
    | with_reducible apply bump_grows | with_reducible apply raise_grows | with_reducible apply setChan_grows
    | with_reducible apply chanShow_grows | fail_if_no_progress (with_reducible refine mk_grows ?_ rfl)
    | with_reducible refine Grows.pair2 (by assumption) ?_
    | with_reducible refine Grows.pair1 (by assumption) ?_
    | with_reducible refine Grows.ofOpt (by assumption) ?_ | intro _ | split | dsimp only

theorem semTake_grows {z0 : State} {s : State} {m : Master} {k : Nat} (hg : Grows z0 s) :
    Grows z0 (semTake s m k) := by
  unfold semTake
  repeat' first
    | with_reducible exact hg | with_reducible assumption | with_reducible apply raise_grows
    | with_reducible apply setSem_grows | fail_if_no_progress (with_reducible refine mk_grows ?_ rfl)
    | with_reducible refine Grows.pair2 (by assumption) ?_
    | with_reducible refine Grows.pair1 (by assumption) ?_
    | with_reducible refine Grows.ofOpt (by assumption) ?_ | intro _ | split | dsimp only

theorem semRelease_grows {z0 : State} {s : State} {m : Master} {k val : Nat} (hg : Grows z0 s) :
    Grows z0 (semRelease s m k val) := by
  unfold semRelease
  repeat' first
    | with_reducible exact hg | with_reducible assumption | with_reducible apply bump_grows
    | with_reducible apply raise_grows | with_reducible apply setSem_grows
    | fail_if_no_progress (with_reducible refine mk_grows ?_ rfl)
    | with_reducible refine Grows.pair2 (by assumption) ?_
    | with_reducible refine Grows.pair1 (by assumption) ?_
    | with_reducible refine Grows.ofOpt (by assumption) ?_ | intro _ | split | dsimp only

theorem semForce_grows {z0 : State} {s : State} {m : Master} {k : Nat} (hg : Grows z0 s) :
    Grows z0 (semForce s m k) := by
  unfold semForce
  repeat' first
    | with_reducible exact hg | with_reducible assumption | with_reducible apply setSem_grows
    | fail_if_no_progress (with_reducible refine mk_grows ?_ rfl)
    | with_reducible refine Grows.pair2 (by assumption) ?_
    | with_reducible refine Grows.pair1 (by assumption) ?_
    | with_reducible refine Grows.ofOpt (by assumption) ?_ | intro _ | split | dsimp only

theorem lineDeliver_grows {z0 : State} {s : State} {v : Nat} (hg : Grows z0 s) :
    Grows z0 (lineDeliver s v) := by
  unfold lineDeliver
  repeat' first
    | with_reducible exact hg | with_reducible assumption | with_reducible apply lineFire_grows
    | fail_if_no_progress (with_reducible refine mk_grows ?_ rfl)
    | with_reducible refine Grows.pair2 (by assumption) ?_
    | with_reducible refine Grows.pair1 (by assumption) ?_
    | with_reducible refine Grows.ofOpt (by assumption) ?_ | intro _ | split | dsimp only

theorem clusterLineUnmask_grows {z0 : State} {s : State} {v : Nat} (hg : Grows z0 s) :
    Grows z0 (clusterLineUnmask s v) := by
  unfold clusterLineUnmask
  repeat' first
    | with_reducible exact hg | with_reducible assumption | with_reducible apply set_grows
    | with_reducible apply lineDeliver_grows | fail_if_no_progress (with_reducible refine mk_grows ?_ rfl)
    | with_reducible refine Grows.pair2 (by assumption) ?_
    | with_reducible refine Grows.pair1 (by assumption) ?_
    | with_reducible refine Grows.ofOpt (by assumption) ?_ | intro _ | split | dsimp only

end Sys2Proof.Machine
end

