-- ==== Sys2Proof/Laws/GrowsPlatform.lean ====
section
/-! SUPPORT. `Grows` for the operations of power, the Crown, the Chronograph, the bus, and what stands around a command: one lemma for each. -/

set_option Elab.async false

set_option linter.unusedTactic false
set_option linter.unreachableTactic false

namespace Sys2Proof.Machine

/-! ### PwrOps -/

theorem applyStraps_grows {z0 : State} {s : State} {x : Straps} (hg : Grows z0 s) :
    Grows z0 (applyStraps s x) := by
  unfold applyStraps
  repeat' first
    | with_reducible exact hg | with_reducible assumption | with_reducible apply set_grows
    | with_reducible apply setb_grows | fail_if_no_progress (with_reducible refine mk_grows ?_ rfl)
    | with_reducible refine Grows.pair2 (by assumption) ?_
    | with_reducible refine Grows.pair1 (by assumption) ?_
    | with_reducible refine Grows.ofOpt (by assumption) ?_
    | with_reducible refine Grows.fold ?_ (fun _ _ _ => ?_)
    | with_reducible refine Grows.fold2 ?_ (fun _ _ _ => ?_)
    | with_reducible refine Grows.fold1 ?_ (fun _ _ _ => ?_) | intro _ | split | dsimp only

/-- A state with nothing in its tables, and the fuses of `s`. -/
theorem fresh_grows {s0 s u : State} (h : Grows s0 s) (a : u.ltb = s.ltb) (b : u.store = []) (c : u.fields = [])
    (d : u.claims = []) (e : u.fuses = s.fuses) (f : u.jwl.lcTarget = none)
    (g : u.hif.mem = [] := by rfl) : Grows s0 u :=
  h.trans ⟨a, fun _ => by unfold State.storeOk; rw [b]; rfl, fun _ => by unfold State.memOk; rw [g]; rfl, fun _ => by rw [c]; rfl, fun _ => by rw [d]; rfl,
    fun _ => ⟨fun x hx => (by rw [f] at hx; cases hx), Nat.le_of_eq (by rw [e])⟩, fun _ x => by rw [e]; exact x,
    Nat.le_of_eq (by rw [e])⟩

theorem resetState_grows {s0 : State} {s : State} (h : Grows s0 s) : Grows s0 (resetState s) := by
  unfold resetState
  dsimp only
  refine applyStraps_grows (onPwr_grows (Grows.fold (set_grows ?_) (fun _ _ k => set_grows k)))
  exact fresh_grows h rfl rfl rfl rfl rfl rfl

theorem lcCut_grows {s0 : State} {s : State} (h : Grows s0 s) : Grows s0 (lcCut s) := by
  unfold lcCut
  split
  · rename_i target due e
    dsimp only
    split
    · exact drawFree_grows h
    · have g : Grows s0 { (s.drawFree 2).2 with fuses := { s.fuses with lcState := target } } :=
        h.trans ⟨rfl, id, id, id, id, fun x => ⟨fun y hy => (by
          obtain rfl : (target, due) = y := Option.some.inj (e.symm.trans hy)
          exact Nat.le_refl _), x _ e⟩, fun _ x => x, Nat.le_refl _⟩
      exact g
  · exact h

theorem setCause_grows {z0 : State} {s : State} {cause : Nat} (hg : Grows z0 s) :
    Grows z0 (setCause s cause) := by
  unfold setCause
  repeat' first
    | with_reducible exact hg | with_reducible assumption | with_reducible apply set_grows
    | fail_if_no_progress (with_reducible refine mk_grows ?_ rfl)
    | with_reducible refine Grows.pair2 (by assumption) ?_
    | with_reducible refine Grows.pair1 (by assumption) ?_
    | with_reducible refine Grows.ofOpt (by assumption) ?_ | intro _ | split | dsimp only

theorem resetHold_grows {z0 : State} {s : State} {cause : Nat} (hg : Grows z0 s) :
    Grows z0 (resetHold s cause) := by
  unfold resetHold
  repeat' first
    | with_reducible exact hg | with_reducible assumption | with_reducible apply onPwr_grows
    | fail_if_no_progress (with_reducible refine mk_grows ?_ rfl)
    | with_reducible refine Grows.pair2 (by assumption) ?_
    | with_reducible refine Grows.pair1 (by assumption) ?_
    | with_reducible refine Grows.ofOpt (by assumption) ?_ | intro _ | split | dsimp only

theorem chipReset_grows {z0 : State} {s : State} {cause : Nat} (hg : Grows z0 s) :
    Grows z0 (chipReset s cause) := by
  unfold chipReset
  repeat' first
    | with_reducible exact hg | with_reducible assumption | with_reducible apply resetState_grows
    | with_reducible apply lcCut_grows | with_reducible apply setCause_grows
    | with_reducible apply resetHold_grows | fail_if_no_progress (with_reducible refine mk_grows ?_ rfl)
    | with_reducible refine Grows.pair2 (by assumption) ?_
    | with_reducible refine Grows.pair1 (by assumption) ?_
    | with_reducible refine Grows.ofOpt (by assumption) ?_ | intro _ | split | dsimp only

theorem sameCycle_grows {z0 : State} {s : State} {cause : Nat} {acted : Bool} (hg : Grows z0 s) :
    Grows z0 (sameCycle s cause acted) := by
  unfold sameCycle
  repeat' first
    | with_reducible exact hg | with_reducible assumption | with_reducible apply setCause_grows
    | fail_if_no_progress (with_reducible refine mk_grows ?_ rfl)
    | with_reducible refine Grows.pair2 (by assumption) ?_
    | with_reducible refine Grows.pair1 (by assumption) ?_
    | with_reducible refine Grows.ofOpt (by assumption) ?_ | intro _ | split | dsimp only

theorem pornLow_grows {s0 : State} {s : State} (h : Grows s0 s) : Grows s0 (pornLow s) := by
  unfold pornLow
  dsimp only
  refine onPwr_grows (set_grows ?_)
  exact fresh_grows (lcCut_grows h) rfl rfl rfl rfl rfl rfl

theorem pornRise_grows {z0 : State} {s : State} {x : Straps} (hg : Grows z0 s) :
    Grows z0 (pornRise s x) := by
  unfold pornRise
  repeat' first
    | with_reducible exact hg | with_reducible assumption | with_reducible apply set_grows
    | with_reducible apply onPwr_grows | with_reducible apply resetState_grows
    | with_reducible apply pornLow_grows | fail_if_no_progress (with_reducible refine mk_grows ?_ rfl)
    | with_reducible refine Grows.pair2 (by assumption) ?_
    | with_reducible refine Grows.pair1 (by assumption) ?_
    | with_reducible refine Grows.ofOpt (by assumption) ?_ | intro _ | split | dsimp only

/-- The release of chip reset restarts the LTB; it undoes nothing else. -/
theorem chipResetRelease_grows {s0 : State} {s : State} (h : Grows s0 { s with ltb := 0 })
    (hh : (!s.pwr.held || s.pwr.porLow || !holdOver s) = false) : Grows s0 (chipResetRelease s) := by
  unfold chipResetRelease
  rw [if_neg (by simp [hh])]
  extract_lets s1 s2
  have g : Grows s0 s2 := set_grows (set_grows (onPwr_grows h))
  split
  · exact raise_grows g
  · exact g

theorem vmonWarn_grows {z0 : State} {s : State} (hg : Grows z0 s) :
    Grows z0 (vmonWarn s) := by
  unfold vmonWarn
  repeat' first
    | with_reducible exact hg | with_reducible assumption | with_reducible apply set_grows
    | with_reducible apply onPwr_grows | with_reducible apply raise_grows
    | fail_if_no_progress (with_reducible refine mk_grows ?_ rfl)
    | with_reducible refine Grows.pair2 (by assumption) ?_
    | with_reducible refine Grows.pair1 (by assumption) ?_
    | with_reducible refine Grows.ofOpt (by assumption) ?_ | intro _ | split | dsimp only

theorem vmonWarnClear_grows {z0 : State} {s : State} (hg : Grows z0 s) :
    Grows z0 (vmonWarnClear s) := by
  unfold vmonWarnClear
  repeat' first
    | with_reducible exact hg | with_reducible assumption | with_reducible apply set_grows
    | with_reducible apply onPwr_grows | with_reducible apply raise_grows
    | fail_if_no_progress (with_reducible refine mk_grows ?_ rfl)
    | with_reducible refine Grows.pair2 (by assumption) ?_
    | with_reducible refine Grows.pair1 (by assumption) ?_
    | with_reducible refine Grows.ofOpt (by assumption) ?_ | intro _ | split | dsimp only

theorem setTemps_grows {z0 : State} {s : State} {rf dig : Int} (hg : Grows z0 s) :
    Grows z0 (setTemps s rf dig) := by
  unfold setTemps
  repeat' first
    | with_reducible exact hg | with_reducible assumption | with_reducible apply sset_grows
    | with_reducible apply onPwr_grows | fail_if_no_progress (with_reducible refine mk_grows ?_ rfl)
    | with_reducible refine Grows.pair2 (by assumption) ?_
    | with_reducible refine Grows.pair1 (by assumption) ?_
    | with_reducible refine Grows.ofOpt (by assumption) ?_ | intro _ | split | dsimp only

theorem thermalWarn_grows {z0 : State} {s : State} {rf dig : Int} (hg : Grows z0 s) :
    Grows z0 (thermalWarn s rf dig) := by
  unfold thermalWarn
  repeat' first
    | with_reducible exact hg | with_reducible assumption | with_reducible apply setb_grows
    | with_reducible apply onPwr_grows | with_reducible apply raise_grows | with_reducible apply setTemps_grows
    | fail_if_no_progress (with_reducible refine mk_grows ?_ rfl)
    | with_reducible refine Grows.pair2 (by assumption) ?_
    | with_reducible refine Grows.pair1 (by assumption) ?_
    | with_reducible refine Grows.ofOpt (by assumption) ?_ | intro _ | split | dsimp only

theorem thermalTrip_grows {z0 : State} {s : State} {rf dig : Int} (hg : Grows z0 s) :
    Grows z0 (thermalTrip s rf dig) := by
  unfold thermalTrip
  repeat' first
    | with_reducible exact hg | with_reducible assumption | with_reducible apply onPwr_grows
    | with_reducible apply chipReset_grows | with_reducible apply thermalWarn_grows
    | fail_if_no_progress (with_reducible refine mk_grows ?_ rfl)
    | with_reducible refine Grows.pair2 (by assumption) ?_
    | with_reducible refine Grows.pair1 (by assumption) ?_
    | with_reducible refine Grows.ofOpt (by assumption) ?_ | intro _ | split | dsimp only

theorem d2dCrcError_grows {z0 : State} {s : State} (hg : Grows z0 s) :
    Grows z0 (d2dCrcError s) := by
  unfold d2dCrcError
  repeat' first
    | with_reducible exact hg | with_reducible assumption | with_reducible apply bump_grows
    | with_reducible apply raiseFirst_grows | fail_if_no_progress (with_reducible refine mk_grows ?_ rfl)
    | with_reducible refine Grows.pair2 (by assumption) ?_
    | with_reducible refine Grows.pair1 (by assumption) ?_
    | with_reducible refine Grows.ofOpt (by assumption) ?_ | intro _ | split | dsimp only

theorem setCoreDown_grows {z0 : State} {s : State} {c : Nat} {down : Bool} (hg : Grows z0 s) :
    Grows z0 (setCoreDown s c down) := by
  unfold setCoreDown
  repeat' first
    | with_reducible exact hg | with_reducible assumption | with_reducible apply set_grows
    | fail_if_no_progress (with_reducible refine mk_grows ?_ rfl)
    | with_reducible refine Grows.pair2 (by assumption) ?_
    | with_reducible refine Grows.pair1 (by assumption) ?_
    | with_reducible refine Grows.ofOpt (by assumption) ?_ | intro _ | split | dsimp only

theorem coreDownNow_grows {z0 : State} {s : State} {c : Nat} {until_ : Option Nat} (hg : Grows z0 s) :
    Grows z0 (coreDownNow s c until_) := by
  unfold coreDownNow
  repeat' first
    | with_reducible exact hg | with_reducible assumption | with_reducible apply onPwr_grows
    | with_reducible apply enterDown_grows | with_reducible apply setCoreDown_grows
    | fail_if_no_progress (with_reducible refine mk_grows ?_ rfl)
    | with_reducible refine Grows.pair2 (by assumption) ?_
    | with_reducible refine Grows.pair1 (by assumption) ?_
    | with_reducible refine Grows.ofOpt (by assumption) ?_ | intro _ | split | dsimp only

theorem coreReset_grows {z0 : State} {s : State} {c : Nat} (hg : Grows z0 s) :
    Grows z0 (coreReset s c) := by
  unfold coreReset
  repeat' first
    | with_reducible exact hg | with_reducible assumption | with_reducible apply coreDownNow_grows
    | fail_if_no_progress (with_reducible refine mk_grows ?_ rfl)
    | with_reducible refine Grows.pair2 (by assumption) ?_
    | with_reducible refine Grows.pair1 (by assumption) ?_
    | with_reducible refine Grows.ofOpt (by assumption) ?_ | intro _ | split | dsimp only

theorem wdtRestart_grows {z0 : State} {s : State} {c : Nat} (hg : Grows z0 s) :
    Grows z0 (wdtRestart s c) := by
  unfold wdtRestart
  repeat' first
    | with_reducible exact hg | with_reducible assumption | with_reducible apply onPwr_grows
    | fail_if_no_progress (with_reducible refine mk_grows ?_ rfl)
    | with_reducible refine Grows.pair2 (by assumption) ?_
    | with_reducible refine Grows.pair1 (by assumption) ?_
    | with_reducible refine Grows.ofOpt (by assumption) ?_ | intro _ | split | dsimp only

theorem coreDomainRelease_grows {z0 : State} {s : State} {c : Nat} (hg : Grows z0 s) :
    Grows z0 (coreDomainRelease s c) := by
  unfold coreDomainRelease
  repeat' first
    | with_reducible exact hg | with_reducible assumption | with_reducible apply emit_grows
    | with_reducible apply onPwr_grows | with_reducible apply setCoreDown_grows
    | with_reducible apply wdtRestart_grows | fail_if_no_progress (with_reducible refine mk_grows ?_ rfl)
    | with_reducible refine Grows.pair2 (by assumption) ?_
    | with_reducible refine Grows.pair1 (by assumption) ?_
    | with_reducible refine Grows.ofOpt (by assumption) ?_ | intro _ | split | dsimp only

theorem kick_grows {z0 : State} {s : State} {c : Nat} (hg : Grows z0 s) :
    Grows z0 (kick s c) := by
  unfold kick
  repeat' first
    | with_reducible exact hg | with_reducible assumption | with_reducible apply wdtRestart_grows
    | fail_if_no_progress (with_reducible refine mk_grows ?_ rfl)
    | with_reducible refine Grows.pair2 (by assumption) ?_
    | with_reducible refine Grows.pair1 (by assumption) ?_
    | with_reducible refine Grows.ofOpt (by assumption) ?_ | intro _ | split | dsimp only

theorem watchdogConfig_grows {z0 : State} {s : State} {c : Nat} {en : Bool} {action : Bool} {timeout : Nat} (hg : Grows z0 s) :
    Grows z0 (watchdogConfig s c en action timeout) := by
  unfold watchdogConfig
  repeat' first
    | with_reducible exact hg | with_reducible assumption | with_reducible apply set_grows
    | with_reducible apply setb_grows | with_reducible apply onPwr_grows | with_reducible apply wdtRestart_grows
    | fail_if_no_progress (with_reducible refine mk_grows ?_ rfl)
    | with_reducible refine Grows.pair2 (by assumption) ?_
    | with_reducible refine Grows.pair1 (by assumption) ?_
    | with_reducible refine Grows.ofOpt (by assumption) ?_ | intro _ | split | dsimp only

theorem watchdogExpiry_grows {z0 : State} {s : State} {c : Nat} (hg : Grows z0 s) :
    Grows z0 (watchdogExpiry s c) := by
  unfold watchdogExpiry
  repeat' first
    | with_reducible exact hg | with_reducible assumption | with_reducible apply bump_grows
    | with_reducible apply raise_grows | with_reducible apply chipReset_grows
    | with_reducible apply sameCycle_grows | with_reducible apply coreReset_grows
    | fail_if_no_progress (with_reducible refine mk_grows ?_ rfl)
    | with_reducible refine Grows.pair2 (by assumption) ?_
    | with_reducible refine Grows.pair1 (by assumption) ?_
    | with_reducible refine Grows.ofOpt (by assumption) ?_ | intro _ | split | dsimp only

theorem chipResetCommand_grows {z0 : State} {s : State} {key : Nat} (hg : Grows z0 s) :
    Grows z0 (chipResetCommand s key) := by
  unfold chipResetCommand
  repeat' first
    | with_reducible exact hg | with_reducible assumption | with_reducible apply chipReset_grows
    | with_reducible apply sameCycle_grows | fail_if_no_progress (with_reducible refine mk_grows ?_ rfl)
    | with_reducible refine Grows.pair2 (by assumption) ?_
    | with_reducible refine Grows.pair1 (by assumption) ?_
    | with_reducible refine Grows.ofOpt (by assumption) ?_ | intro _ | split | dsimp only

theorem coreResetCommand_grows {z0 : State} {s : State} {key mask : Nat} (hg : Grows z0 s) :
    Grows z0 (coreResetCommand s key mask) := by
  unfold coreResetCommand
  repeat' first
    | with_reducible exact hg | with_reducible assumption | with_reducible apply raise_grows
    | with_reducible apply coreReset_grows | fail_if_no_progress (with_reducible refine mk_grows ?_ rfl)
    | with_reducible refine Grows.pair2 (by assumption) ?_
    | with_reducible refine Grows.pair1 (by assumption) ?_
    | with_reducible refine Grows.ofOpt (by assumption) ?_
    | with_reducible refine Grows.fold ?_ (fun _ _ _ => ?_)
    | with_reducible refine Grows.fold2 ?_ (fun _ _ _ => ?_)
    | with_reducible refine Grows.fold1 ?_ (fun _ _ _ => ?_) | intro _ | split | dsimp only

theorem corePower_grows {z0 : State} {s : State} {mask : Nat} (hg : Grows z0 s) :
    Grows z0 (corePower s mask) := by
  unfold corePower
  repeat' first
    | with_reducible exact hg | with_reducible assumption | with_reducible apply set_grows
    | with_reducible apply onPwr_grows | with_reducible apply coreDownNow_grows
    | fail_if_no_progress (with_reducible refine mk_grows ?_ rfl)
    | with_reducible refine Grows.pair2 (by assumption) ?_
    | with_reducible refine Grows.pair1 (by assumption) ?_
    | with_reducible refine Grows.ofOpt (by assumption) ?_
    | with_reducible refine Grows.fold ?_ (fun _ _ _ => ?_)
    | with_reducible refine Grows.fold2 ?_ (fun _ _ _ => ?_)
    | with_reducible refine Grows.fold1 ?_ (fun _ _ _ => ?_) | intro _ | split | dsimp only

theorem startTransition_grows {z0 : State} {s : State} {target : Nat} (hg : Grows z0 s) :
    Grows z0 (startTransition s target) := by
  unfold startTransition
  repeat' first
    | with_reducible exact hg | with_reducible assumption | with_reducible apply set_grows
    | with_reducible apply onPwr_grows | fail_if_no_progress (with_reducible refine mk_grows ?_ rfl)
    | with_reducible refine Grows.pair2 (by assumption) ?_
    | with_reducible refine Grows.pair1 (by assumption) ?_
    | with_reducible refine Grows.ofOpt (by assumption) ?_ | intro _ | split | dsimp only

theorem powerStateReq_grows {z0 : State} {s : State} {target : Nat} (hg : Grows z0 s) :
    Grows z0 (powerStateReq s target) := by
  unfold powerStateReq
  repeat' first
    | with_reducible exact hg | with_reducible assumption | with_reducible apply set_grows
    | with_reducible apply raise_grows | with_reducible apply startTransition_grows
    | fail_if_no_progress (with_reducible refine mk_grows ?_ rfl)
    | with_reducible refine Grows.pair2 (by assumption) ?_
    | with_reducible refine Grows.pair1 (by assumption) ?_
    | with_reducible refine Grows.ofOpt (by assumption) ?_ | intro _ | split | dsimp only

theorem enterQuiet_grows {z0 : State} {s : State} (hg : Grows z0 s) :
    Grows z0 (enterQuiet s) := by
  unfold enterQuiet
  repeat' first
    | with_reducible exact hg | with_reducible assumption | with_reducible apply set_grows
    | with_reducible apply onChain_grows | with_reducible apply cacheCount_grows
    | fail_if_no_progress (with_reducible refine mk_grows ?_ rfl)
    | with_reducible refine Grows.pair2 (by assumption) ?_
    | with_reducible refine Grows.pair1 (by assumption) ?_
    | with_reducible refine Grows.ofOpt (by assumption) ?_
    | with_reducible refine Grows.fold ?_ (fun _ _ _ => ?_)
    | with_reducible refine Grows.fold2 ?_ (fun _ _ _ => ?_)
    | with_reducible refine Grows.fold1 ?_ (fun _ _ _ => ?_) | intro _ | split | dsimp only

theorem enterStandby_grows {z0 : State} {s : State} (hg : Grows z0 s) :
    Grows z0 (enterStandby s) := by
  unfold enterStandby
  repeat' first
    | with_reducible exact hg | with_reducible assumption | with_reducible apply takeEffect_grows
    | with_reducible apply coreDownNow_grows | fail_if_no_progress (with_reducible refine mk_grows ?_ rfl)
    | with_reducible refine Grows.pair2 (by assumption) ?_
    | with_reducible refine Grows.pair1 (by assumption) ?_
    | with_reducible refine Grows.ofOpt (by assumption) ?_
    | with_reducible refine Grows.fold ?_ (fun _ _ _ => ?_)
    | with_reducible refine Grows.fold2 ?_ (fun _ _ _ => ?_)
    | with_reducible refine Grows.fold1 ?_ (fun _ _ _ => ?_) | intro _ | split | dsimp only

theorem leaveStandby_grows {z0 : State} {s : State} (hg : Grows z0 s) :
    Grows z0 (leaveStandby s) := by
  unfold leaveStandby
  repeat' first
    | with_reducible exact hg | with_reducible assumption | with_reducible apply onPwr_grows
    | fail_if_no_progress (with_reducible refine mk_grows ?_ rfl)
    | with_reducible refine Grows.pair2 (by assumption) ?_
    | with_reducible refine Grows.pair1 (by assumption) ?_
    | with_reducible refine Grows.ofOpt (by assumption) ?_
    | with_reducible refine Grows.fold ?_ (fun _ _ _ => ?_)
    | with_reducible refine Grows.fold2 ?_ (fun _ _ _ => ?_)
    | with_reducible refine Grows.fold1 ?_ (fun _ _ _ => ?_) | intro _ | split | dsimp only

theorem powerTransitionDone_grows {z0 : State} {s : State} (hg : Grows z0 s) :
    Grows z0 (powerTransitionDone s) := by
  unfold powerTransitionDone
  repeat' first
    | with_reducible exact hg | with_reducible assumption | with_reducible apply set_grows
    | with_reducible apply onPwr_grows | with_reducible apply raise_grows
    | with_reducible apply enterQuiet_grows | with_reducible apply enterStandby_grows
    | with_reducible apply leaveStandby_grows | fail_if_no_progress (with_reducible refine mk_grows ?_ rfl)
    | with_reducible refine Grows.pair2 (by assumption) ?_
    | with_reducible refine Grows.pair1 (by assumption) ?_
    | with_reducible refine Grows.ofOpt (by assumption) ?_ | intro _ | split | dsimp only

theorem standbyWake_grows {z0 : State} {s : State} {src : Nat} (hg : Grows z0 s) :
    Grows z0 (standbyWake s src) := by
  unfold standbyWake
  repeat' first
    | with_reducible exact hg | with_reducible assumption | with_reducible apply set_grows
    | with_reducible apply startTransition_grows | fail_if_no_progress (with_reducible refine mk_grows ?_ rfl)
    | with_reducible refine Grows.pair2 (by assumption) ?_
    | with_reducible refine Grows.pair1 (by assumption) ?_
    | with_reducible refine Grows.ofOpt (by assumption) ?_ | intro _ | split | dsimp only

theorem channelRetire_grows {z0 : State} {s : State} {k : Nat} (hg : Grows z0 s) :
    Grows z0 (channelRetire s k) := by
  unfold channelRetire
  repeat' first
    | with_reducible exact hg | with_reducible assumption | with_reducible apply set_grows
    | with_reducible apply rxReached_grows | with_reducible apply laneChannelStop_grows
    | fail_if_no_progress (with_reducible refine mk_grows ?_ rfl)
    | with_reducible refine Grows.pair2 (by assumption) ?_
    | with_reducible refine Grows.pair1 (by assumption) ?_
    | with_reducible refine Grows.ofOpt (by assumption) ?_ | intro _ | split | dsimp only

theorem autoRetire_grows {z0 : State} {s : State} {lane : Nat} {band freq : Nat} (hg : Grows z0 s) :
    Grows z0 (autoRetire s lane band freq) := by
  unfold autoRetire
  repeat' first
    | with_reducible exact hg | with_reducible assumption | with_reducible apply set_grows
    | with_reducible apply bump_grows | with_reducible apply raise_grows
    | with_reducible apply channelRetire_grows | fail_if_no_progress (with_reducible refine mk_grows ?_ rfl)
    | with_reducible refine Grows.pair2 (by assumption) ?_
    | with_reducible refine Grows.pair1 (by assumption) ?_
    | with_reducible refine Grows.ofOpt (by assumption) ?_ | intro _ | split | dsimp only

theorem declare_grows {z0 : State} {s : State} {cls obj idx : Nat} (hg : Grows z0 s) :
    Grows z0 (declare s cls obj idx) := by
  unfold declare
  repeat' first
    | with_reducible exact hg | with_reducible assumption | with_reducible apply set_grows
    | with_reducible apply onPwr_grows | with_reducible apply bump_grows | with_reducible apply raise_grows
    | fail_if_no_progress (with_reducible refine mk_grows ?_ rfl)
    | with_reducible refine Grows.pair2 (by assumption) ?_
    | with_reducible refine Grows.pair1 (by assumption) ?_
    | with_reducible refine Grows.ofOpt (by assumption) ?_ | intro _ | split | dsimp only

theorem classifyFault_grows {z0 : State} {s : State} {e : FaultEv} (hg : Grows z0 s) :
    Grows z0 (classifyFault s e) := by
  unfold classifyFault
  repeat' first
    | with_reducible exact hg | with_reducible assumption | with_reducible apply onPwr_grows
    | with_reducible apply bump_grows | with_reducible apply autoRetire_grows
    | with_reducible apply declare_grows | fail_if_no_progress (with_reducible refine mk_grows ?_ rfl)
    | with_reducible refine Grows.pair2 (by assumption) ?_
    | with_reducible refine Grows.pair1 (by assumption) ?_
    | with_reducible refine Grows.ofOpt (by assumption) ?_ | intro _ | split | dsimp only

theorem classifyInbox_grows {s0 : State} {n : Nat} {s : State} (h : Grows s0 s) : Grows s0 (classifyInbox n s) := by
  induction n generalizing s with
  | zero => exact h
  | succ n ih =>
    unfold classifyInbox
    split
    · exact h
    · exact ih (classifyFault_grows (onPwr_grows h))

theorem classifierEpoch_grows {z0 : State} {s : State} (hg : Grows z0 s) :
    Grows z0 (classifierEpoch s) := by
  unfold classifierEpoch
  repeat' first
    | with_reducible exact hg | with_reducible assumption | with_reducible apply takeEffect_grows
    | with_reducible apply onPwr_grows | fail_if_no_progress (with_reducible refine mk_grows ?_ rfl)
    | with_reducible refine Grows.pair2 (by assumption) ?_
    | with_reducible refine Grows.pair1 (by assumption) ?_
    | with_reducible refine Grows.ofOpt (by assumption) ?_ | intro _ | split | dsimp only

theorem permanentListClear_grows {z0 : State} {s : State} (hg : Grows z0 s) :
    Grows z0 (permanentListClear s) := by
  unfold permanentListClear
  repeat' first
    | with_reducible exact hg | with_reducible assumption | with_reducible apply set_grows
    | with_reducible apply onPwr_grows | fail_if_no_progress (with_reducible refine mk_grows ?_ rfl)
    | with_reducible refine Grows.pair2 (by assumption) ?_
    | with_reducible refine Grows.pair1 (by assumption) ?_
    | with_reducible refine Grows.ofOpt (by assumption) ?_ | intro _ | split | dsimp only

theorem pcie_grows {z0 : State} {s : State} {f : State → State} (hg : Grows z0 s) (hf : ∀ v, Grows z0 v → Grows z0 (f v)) :
    Grows z0 (pcie s f) := by
  unfold pcie
  repeat' first
    | with_reducible exact hg | apply hf | with_reducible assumption
    | fail_if_no_progress (with_reducible refine mk_grows ?_ rfl)
    | with_reducible refine Grows.pair2 (by assumption) ?_
    | with_reducible refine Grows.pair1 (by assumption) ?_
    | with_reducible refine Grows.ofOpt (by assumption) ?_ | intro _ | split | dsimp only

theorem functionLevelReset_grows {z0 : State} {s : State} (hg : Grows z0 s) :
    Grows z0 (functionLevelReset s) := by
  unfold functionLevelReset
  repeat' first
    | with_reducible exact hg | with_reducible assumption | with_reducible apply hifReset_grows
    | with_reducible apply hostChange_grows | with_reducible apply pcie_grows
    | fail_if_no_progress (with_reducible refine mk_grows ?_ rfl)
    | with_reducible refine Grows.pair2 (by assumption) ?_
    | with_reducible refine Grows.pair1 (by assumption) ?_
    | with_reducible refine Grows.ofOpt (by assumption) ?_ | intro _ | split | dsimp only

theorem flrComplete_grows {z0 : State} {s : State} (hg : Grows z0 s) :
    Grows z0 (flrComplete s) := by
  unfold flrComplete
  repeat' first
    | with_reducible exact hg | with_reducible assumption | with_reducible apply pcie_grows
    | fail_if_no_progress (with_reducible refine mk_grows ?_ rfl)
    | with_reducible refine Grows.pair2 (by assumption) ?_
    | with_reducible refine Grows.pair1 (by assumption) ?_
    | with_reducible refine Grows.ofOpt (by assumption) ?_ | intro _ | split | dsimp only

theorem pcieLinkUp_grows {z0 : State} {s : State} {speed width : Nat} (hg : Grows z0 s) :
    Grows z0 (pcieLinkUp s speed width) := by
  unfold pcieLinkUp
  repeat' first
    | with_reducible exact hg | with_reducible assumption | with_reducible apply set_grows
    | with_reducible apply pcie_grows | fail_if_no_progress (with_reducible refine mk_grows ?_ rfl)
    | with_reducible refine Grows.pair2 (by assumption) ?_
    | with_reducible refine Grows.pair1 (by assumption) ?_
    | with_reducible refine Grows.ofOpt (by assumption) ?_ | intro _ | split | dsimp only

theorem pcieLinkDown_grows {z0 : State} {s : State} (hg : Grows z0 s) :
    Grows z0 (pcieLinkDown s) := by
  unfold pcieLinkDown
  repeat' first
    | with_reducible exact hg | with_reducible assumption | with_reducible apply set_grows
    | with_reducible apply raise_grows | with_reducible apply hifReset_grows
    | with_reducible apply hostChange_grows | with_reducible apply pcie_grows
    | fail_if_no_progress (with_reducible refine mk_grows ?_ rfl)
    | with_reducible refine Grows.pair2 (by assumption) ?_
    | with_reducible refine Grows.pair1 (by assumption) ?_
    | with_reducible refine Grows.ofOpt (by assumption) ?_ | intro _ | split | dsimp only

theorem d3hotEntry_grows {z0 : State} {s : State} (hg : Grows z0 s) :
    Grows z0 (d3hotEntry s) := by
  unfold d3hotEntry
  repeat' first
    | with_reducible exact hg | with_reducible assumption | with_reducible apply hostChange_grows
    | with_reducible apply pcie_grows | fail_if_no_progress (with_reducible refine mk_grows ?_ rfl)
    | with_reducible refine Grows.pair2 (by assumption) ?_
    | with_reducible refine Grows.pair1 (by assumption) ?_
    | with_reducible refine Grows.ofOpt (by assumption) ?_ | intro _ | split | dsimp only

theorem d3hotToD0_grows {z0 : State} {s : State} (hg : Grows z0 s) :
    Grows z0 (d3hotToD0 s) := by
  unfold d3hotToD0
  repeat' first
    | with_reducible exact hg | with_reducible assumption | with_reducible apply hifReset_grows
    | with_reducible apply pcie_grows | fail_if_no_progress (with_reducible refine mk_grows ?_ rfl)
    | with_reducible refine Grows.pair2 (by assumption) ?_
    | with_reducible refine Grows.pair1 (by assumption) ?_
    | with_reducible refine Grows.ofOpt (by assumption) ?_ | intro _ | split | dsimp only

theorem perstAssertion_grows {z0 : State} {s : State} (hg : Grows z0 s) :
    Grows z0 (perstAssertion s) := by
  unfold perstAssertion
  repeat' first
    | with_reducible exact hg | with_reducible assumption | with_reducible apply hifReset_grows
    | with_reducible apply pcie_grows | fail_if_no_progress (with_reducible refine mk_grows ?_ rfl)
    | with_reducible refine Grows.pair2 (by assumption) ?_
    | with_reducible refine Grows.pair1 (by assumption) ?_
    | with_reducible refine Grows.ofOpt (by assumption) ?_ | intro _ | split | dsimp only

/-! ### CrnOps -/

theorem writeRecord_grows {z0 : State} {s : State} {f : BootRecord → BootRecord} (hg : Grows z0 s) :
    Grows z0 (writeRecord s f) := by
  unfold writeRecord
  repeat' first
    | with_reducible exact hg | with_reducible assumption | with_reducible apply onCrn_grows
    | fail_if_no_progress (with_reducible refine mk_grows ?_ rfl)
    | with_reducible refine Grows.pair2 (by assumption) ?_
    | with_reducible refine Grows.pair1 (by assumption) ?_
    | with_reducible refine Grows.ofOpt (by assumption) ?_ | intro _ | split | dsimp only

theorem tearRecord_grows {z0 : State} {s : State} (hg : Grows z0 s) :
    Grows z0 (tearRecord s) := by
  unfold tearRecord
  repeat' first
    | with_reducible exact hg | with_reducible assumption | with_reducible apply onCrn_grows
    | fail_if_no_progress (with_reducible refine mk_grows ?_ rfl)
    | with_reducible refine Grows.pair2 (by assumption) ?_
    | with_reducible refine Grows.pair1 (by assumption) ?_
    | with_reducible refine Grows.ofOpt (by assumption) ?_ | intro _ | split | dsimp only

theorem recordDone_grows {z0 : State} {s : State} (hg : Grows z0 s) :
    Grows z0 (recordDone s) := by
  unfold recordDone
  repeat' first
    | with_reducible exact hg | with_reducible assumption | with_reducible apply onCrn_grows
    | fail_if_no_progress (with_reducible refine mk_grows ?_ rfl)
    | with_reducible refine Grows.pair2 (by assumption) ?_
    | with_reducible refine Grows.pair1 (by assumption) ?_
    | with_reducible refine Grows.ofOpt (by assumption) ?_ | intro _ | split | dsimp only

theorem stagePut_grows {s0 : State} {s : State} {off : Nat} {l : List Byte} (h : Grows s0 s) : Grows s0 (stagePut s off l) :=
  h.trans ⟨rfl, id, Memory.wf_writes _ l, id, id, fun x => ⟨x, Nat.le_refl _⟩, fun _ x => x, Nat.le_refl _⟩

theorem crownJob_grows {z0 : State} {s : State} {result : Nat} (hg : Grows z0 s) :
    Grows z0 (crownJob s result) := by
  unfold crownJob
  repeat' first
    | with_reducible exact hg | with_reducible assumption | with_reducible apply set_grows
    | with_reducible apply raise_grows | fail_if_no_progress (with_reducible refine mk_grows ?_ rfl)
    | with_reducible refine Grows.pair2 (by assumption) ?_
    | with_reducible refine Grows.pair1 (by assumption) ?_
    | with_reducible refine Grows.ofOpt (by assumption) ?_ | intro _ | split | dsimp only

theorem crownHash_grows {z0 : State} {s : State} {l : List Byte} (hg : Grows z0 s) :
    Grows z0 (crownHash s l) := by
  unfold crownHash
  repeat' first
    | with_reducible exact hg | with_reducible assumption | with_reducible apply setWords_grows
    | with_reducible apply crownJob_grows | fail_if_no_progress (with_reducible refine mk_grows ?_ rfl)
    | with_reducible refine Grows.pair2 (by assumption) ?_
    | with_reducible refine Grows.pair1 (by assumption) ?_
    | with_reducible refine Grows.ofOpt (by assumption) ?_ | intro _ | split | dsimp only

theorem crownJobs_grows {z0 : State} {s : State} {h : List Byte} {r : Nat} (hg : Grows z0 s) :
    Grows z0 (crownJobs s h r) := by
  unfold crownJobs
  repeat' first
    | with_reducible exact hg | with_reducible assumption | with_reducible apply setWords_grows
    | with_reducible apply crownJob_grows | with_reducible apply crownHash_grows
    | fail_if_no_progress (with_reducible refine mk_grows ?_ rfl)
    | with_reducible refine Grows.pair2 (by assumption) ?_
    | with_reducible refine Grows.pair1 (by assumption) ?_
    | with_reducible refine Grows.ofOpt (by assumption) ?_ | intro _ | split | dsimp only

theorem crownExtend_grows {z0 : State} {s : State} {digest : List Byte} (hg : Grows z0 s) :
    Grows z0 (crownExtend s digest) := by
  unfold crownExtend
  repeat' first
    | with_reducible exact hg | with_reducible assumption | with_reducible apply setWords_grows
    | with_reducible apply extendMeasure_grows | with_reducible apply crownJob_grows
    | fail_if_no_progress (with_reducible refine mk_grows ?_ rfl)
    | with_reducible refine Grows.pair2 (by assumption) ?_
    | with_reducible refine Grows.pair1 (by assumption) ?_
    | with_reducible refine Grows.ofOpt (by assumption) ?_ | intro _ | split | dsimp only

theorem crnShow_grows {z0 : State} {s : State} (hg : Grows z0 s) :
    Grows z0 (crnShow s) := by
  unfold crnShow
  repeat' first
    | with_reducible exact hg | with_reducible assumption | with_reducible apply set_grows
    | with_reducible apply setb_grows | fail_if_no_progress (with_reducible refine mk_grows ?_ rfl)
    | with_reducible refine Grows.pair2 (by assumption) ?_
    | with_reducible refine Grows.pair1 (by assumption) ?_
    | with_reducible refine Grows.ofOpt (by assumption) ?_
    | with_reducible refine Grows.fold ?_ (fun _ _ _ => ?_)
    | with_reducible refine Grows.fold2 ?_ (fun _ _ _ => ?_)
    | with_reducible refine Grows.fold1 ?_ (fun _ _ _ => ?_) | intro _ | split | dsimp only

theorem crnRecord_grows {z0 : State} {s : State} {c : Nat} {x : CrnSlot} (hg : Grows z0 s) :
    Grows z0 (crnRecord s c x) := by
  unfold crnRecord
  repeat' first
    | with_reducible exact hg | with_reducible assumption | with_reducible apply writeRecord_grows
    | with_reducible apply crnShow_grows | fail_if_no_progress (with_reducible refine mk_grows ?_ rfl)
    | with_reducible refine Grows.pair2 (by assumption) ?_
    | with_reducible refine Grows.pair1 (by assumption) ?_
    | with_reducible refine Grows.ofOpt (by assumption) ?_ | intro _ | split | dsimp only

theorem crnState_grows {z0 : State} {s : State} {st : Nat} (hg : Grows z0 s) :
    Grows z0 (crnState s st) := by
  unfold crnState
  repeat' first
    | with_reducible exact hg | with_reducible assumption | with_reducible apply set_grows
    | with_reducible apply setb_grows | fail_if_no_progress (with_reducible refine mk_grows ?_ rfl)
    | with_reducible refine Grows.pair2 (by assumption) ?_
    | with_reducible refine Grows.pair1 (by assumption) ?_
    | with_reducible refine Grows.ofOpt (by assumption) ?_ | intro _ | split | dsimp only

theorem crnEnd_grows {z0 : State} {s : State} {st result : Nat} (hg : Grows z0 s) :
    Grows z0 (crnEnd s st result) := by
  unfold crnEnd
  repeat' first
    | with_reducible exact hg | with_reducible assumption | with_reducible apply set_grows
    | with_reducible apply crnState_grows | fail_if_no_progress (with_reducible refine mk_grows ?_ rfl)
    | with_reducible refine Grows.pair2 (by assumption) ?_
    | with_reducible refine Grows.pair1 (by assumption) ?_
    | with_reducible refine Grows.ofOpt (by assumption) ?_ | intro _ | split | dsimp only

theorem unstage_grows {z0 : State} {s : State} (hg : Grows z0 s) :
    Grows z0 (unstage s) := by
  unfold unstage
  repeat' first
    | with_reducible exact hg | with_reducible assumption | with_reducible apply set_grows
    | with_reducible apply onCrn_grows | fail_if_no_progress (with_reducible refine mk_grows ?_ rfl)
    | with_reducible refine Grows.pair2 (by assumption) ?_
    | with_reducible refine Grows.pair1 (by assumption) ?_
    | with_reducible refine Grows.ofOpt (by assumption) ?_ | intro _ | split | dsimp only

theorem crnRefuse_grows {z0 : State} {s : State} {comp result : Nat} (hg : Grows z0 s) :
    Grows z0 (crnRefuse s comp result) := by
  unfold crnRefuse
  repeat' first
    | with_reducible exact hg | with_reducible assumption | with_reducible apply bump_grows
    | with_reducible apply raise_grows | with_reducible apply crnEnd_grows | with_reducible apply unstage_grows
    | fail_if_no_progress (with_reducible refine mk_grows ?_ rfl)
    | with_reducible refine Grows.pair2 (by assumption) ?_
    | with_reducible refine Grows.pair1 (by assumption) ?_
    | with_reducible refine Grows.ofOpt (by assumption) ?_ | intro _ | split | dsimp only

theorem crnDownload_grows {z0 : State} {s : State} {header : List Byte} {fault : Bool} (hg : Grows z0 s) :
    Grows z0 (crnDownload s header fault) := by
  unfold crnDownload
  repeat' first
    | with_reducible exact hg | with_reducible assumption | with_reducible apply set_grows
    | with_reducible apply onCrn_grows | with_reducible apply stagePut_grows
    | with_reducible apply crownJobs_grows | with_reducible apply crnState_grows
    | with_reducible apply crnEnd_grows | with_reducible apply unstage_grows
    | with_reducible apply crnRefuse_grows | fail_if_no_progress (with_reducible refine mk_grows ?_ rfl)
    | with_reducible refine Grows.pair2 (by assumption) ?_
    | with_reducible refine Grows.pair1 (by assumption) ?_
    | with_reducible refine Grows.ofOpt (by assumption) ?_ | intro _ | split | dsimp only

theorem crnBodyCopied_grows {z0 : State} {s : State} {body : List Byte} {fault : Bool} (hg : Grows z0 s) :
    Grows z0 (crnBodyCopied s body fault) := by
  unfold crnBodyCopied
  repeat' first
    | with_reducible exact hg | with_reducible assumption | with_reducible apply set_grows
    | with_reducible apply stagePut_grows | with_reducible apply crnState_grows
    | with_reducible apply crnEnd_grows | with_reducible apply unstage_grows
    | fail_if_no_progress (with_reducible refine mk_grows ?_ rfl)
    | with_reducible refine Grows.pair2 (by assumption) ?_
    | with_reducible refine Grows.pair1 (by assumption) ?_
    | with_reducible refine Grows.ofOpt (by assumption) ?_ | intro _ | split | dsimp only

theorem crnVerifyDone_grows {z0 : State} {s : State} (hg : Grows z0 s) :
    Grows z0 (crnVerifyDone s) := by
  unfold crnVerifyDone
  repeat' first
    | with_reducible exact hg | with_reducible assumption | with_reducible apply raise_grows
    | with_reducible apply crownHash_grows | with_reducible apply crnEnd_grows
    | with_reducible apply crnRefuse_grows | fail_if_no_progress (with_reducible refine mk_grows ?_ rfl)
    | with_reducible refine Grows.pair2 (by assumption) ?_
    | with_reducible refine Grows.pair1 (by assumption) ?_
    | with_reducible refine Grows.ofOpt (by assumption) ?_ | intro _ | split | dsimp only

theorem crnAbort_grows {z0 : State} {s : State} (hg : Grows z0 s) :
    Grows z0 (crnAbort s) := by
  unfold crnAbort
  repeat' first
    | with_reducible exact hg | with_reducible assumption | with_reducible apply set_grows
    | with_reducible apply crnEnd_grows | with_reducible apply unstage_grows
    | fail_if_no_progress (with_reducible refine mk_grows ?_ rfl)
    | with_reducible refine Grows.pair2 (by assumption) ?_
    | with_reducible refine Grows.pair1 (by assumption) ?_
    | with_reducible refine Grows.ofOpt (by assumption) ?_ | intro _ | split | dsimp only

theorem settingsPrepare_grows {z0 : State} {s : State} {fmt : Nat} (hg : Grows z0 s) :
    Grows z0 (settingsPrepare s fmt) := by
  unfold settingsPrepare
  repeat' first
    | with_reducible exact hg | with_reducible assumption | with_reducible apply onCrn_grows
    | with_reducible apply writeRecord_grows | fail_if_no_progress (with_reducible refine mk_grows ?_ rfl)
    | with_reducible refine Grows.pair2 (by assumption) ?_
    | with_reducible refine Grows.pair1 (by assumption) ?_
    | with_reducible refine Grows.ofOpt (by assumption) ?_ | intro _ | split | dsimp only

theorem crnActivate_grows {z0 : State} {s : State} (hg : Grows z0 s) :
    Grows z0 (crnActivate s) := by
  unfold crnActivate
  repeat' first
    | with_reducible exact hg | with_reducible assumption | with_reducible apply set_grows
    | with_reducible apply recordDone_grows | with_reducible apply crnShow_grows
    | with_reducible apply crnRecord_grows | with_reducible apply crnState_grows
    | with_reducible apply settingsPrepare_grows | fail_if_no_progress (with_reducible refine mk_grows ?_ rfl)
    | with_reducible refine Grows.pair2 (by assumption) ?_
    | with_reducible refine Grows.pair1 (by assumption) ?_
    | with_reducible refine Grows.ofOpt (by assumption) ?_ | intro _ | split | dsimp only

theorem crnProgrammed_grows {z0 : State} {s : State} {ok : Bool} (hg : Grows z0 s) :
    Grows z0 (crnProgrammed s ok) := by
  unfold crnProgrammed
  repeat' first
    | with_reducible exact hg | with_reducible assumption | with_reducible apply set_grows
    | with_reducible apply onCrn_grows | with_reducible apply raise_grows
    | with_reducible apply writeRecord_grows | with_reducible apply recordDone_grows
    | with_reducible apply crownHash_grows | with_reducible apply crnShow_grows
    | with_reducible apply crnRecord_grows | with_reducible apply crnEnd_grows
    | with_reducible apply unstage_grows | fail_if_no_progress (with_reducible refine mk_grows ?_ rfl)
    | with_reducible refine Grows.pair2 (by assumption) ?_
    | with_reducible refine Grows.pair1 (by assumption) ?_
    | with_reducible refine Grows.ofOpt (by assumption) ?_ | intro _ | split | dsimp only

theorem raiseFuse_grows {s0 : State} {s : State} (h : Grows s0 s) : Grows s0 (raiseFuse s) := by
  unfold raiseFuse
  split
  · exact h
  · exact h.trans ⟨rfl, id, id, id, id, fun x => ⟨x, Nat.le_refl _⟩, fun _ x => x, Nat.le_max_left _ _⟩

theorem settingsRelease_grows {z0 : State} {s : State} {fmt : Nat} (hg : Grows z0 s) :
    Grows z0 (settingsRelease s fmt) := by
  unfold settingsRelease
  repeat' first
    | with_reducible exact hg | with_reducible assumption | with_reducible apply writeRecord_grows
    | fail_if_no_progress (with_reducible refine mk_grows ?_ rfl)
    | with_reducible refine Grows.pair2 (by assumption) ?_
    | with_reducible refine Grows.pair1 (by assumption) ?_
    | with_reducible refine Grows.ofOpt (by assumption) ?_ | intro _ | split | dsimp only

theorem confirmRest_grows {z0 : State} {s : State} (hg : Grows z0 s) :
    Grows z0 (confirmRest s) := by
  unfold confirmRest
  repeat' first
    | with_reducible exact hg | with_reducible assumption | with_reducible apply raiseFuse_grows
    | with_reducible apply settingsRelease_grows | fail_if_no_progress (with_reducible refine mk_grows ?_ rfl)
    | with_reducible refine Grows.pair2 (by assumption) ?_
    | with_reducible refine Grows.pair1 (by assumption) ?_
    | with_reducible refine Grows.ofOpt (by assumption) ?_ | intro _ | split | dsimp only

theorem crnConfirm_grows {z0 : State} {s : State} {c : Nat} (hg : Grows z0 s) :
    Grows z0 (crnConfirm s c) := by
  unfold crnConfirm
  repeat' first
    | with_reducible exact hg | with_reducible assumption | with_reducible apply set_grows
    | with_reducible apply onCrn_grows | with_reducible apply recordDone_grows
    | with_reducible apply crnRecord_grows | with_reducible apply crnState_grows
    | fail_if_no_progress (with_reducible refine mk_grows ?_ rfl)
    | with_reducible refine Grows.pair2 (by assumption) ?_
    | with_reducible refine Grows.pair1 (by assumption) ?_
    | with_reducible refine Grows.ofOpt (by assumption) ?_ | intro _ | split | dsimp only

theorem crnActivationDone_grows {z0 : State} {s : State} {ok : Bool} (hg : Grows z0 s) :
    Grows z0 (crnActivationDone s ok) := by
  unfold crnActivationDone
  repeat' first
    | with_reducible exact hg | with_reducible assumption | with_reducible apply raise_grows
    | with_reducible apply recordDone_grows | with_reducible apply crnShow_grows
    | with_reducible apply crnEnd_grows | with_reducible apply crnProgrammed_grows
    | with_reducible apply confirmRest_grows | fail_if_no_progress (with_reducible refine mk_grows ?_ rfl)
    | with_reducible refine Grows.pair2 (by assumption) ?_
    | with_reducible refine Grows.pair1 (by assumption) ?_
    | with_reducible refine Grows.ofOpt (by assumption) ?_ | intro _ | split | dsimp only

theorem burnSigner1_grows {s0 : State} {s : State} (h : Grows s0 s) : Grows s0 (burnSigner1 s) := by
  unfold burnSigner1
  split
  · exact h
  · split
    · exact set_grows h
    · split
      · exact set_grows (drawFree_grows h (n := 32))
      · rename_i _ n _
        have g : Grows s0 { s with fuses := { s.fuses with signer1 := some (wordsOf s Reg.CRN_KEYHASH_word 8) } } :=
          h.trans ⟨rfl, id, id, id, id, fun x => ⟨x, Nat.le_refl _⟩, fun x hx => absurd (by rw [hx]; rfl) n, Nat.le_refl _⟩
        exact set_grows g

theorem measureMissing_grows {z0 : State} {s : State} {n : Nat} (hg : Grows z0 s) :
    Grows z0 (measureMissing s n) := by
  unfold measureMissing
  repeat' first
    | with_reducible exact hg | with_reducible assumption | with_reducible apply crownExtend_grows
    | fail_if_no_progress (with_reducible refine mk_grows ?_ rfl)
    | with_reducible refine Grows.pair2 (by assumption) ?_
    | with_reducible refine Grows.pair1 (by assumption) ?_
    | with_reducible refine Grows.ofOpt (by assumption) ?_
    | with_reducible refine Grows.fold ?_ (fun _ _ _ => ?_)
    | with_reducible refine Grows.fold2 ?_ (fun _ _ _ => ?_)
    | with_reducible refine Grows.fold1 ?_ (fun _ _ _ => ?_) | intro _ | split | dsimp only

theorem recoveryTwin_grows {z0 : State} {s : State} (hg : Grows z0 s) :
    Grows z0 (recoveryTwin s) := by
  unfold recoveryTwin
  repeat' first
    | with_reducible exact hg | with_reducible assumption | with_reducible apply set_grows
    | with_reducible apply onCrn_grows | with_reducible apply ethEnable_grows
    | with_reducible apply twnEnable_grows | fail_if_no_progress (with_reducible refine mk_grows ?_ rfl)
    | with_reducible refine Grows.pair2 (by assumption) ?_
    | with_reducible refine Grows.pair1 (by assumption) ?_
    | with_reducible refine Grows.ofOpt (by assumption) ?_ | intro _ | split | dsimp only

theorem crnRecover_grows {z0 : State} {s : State} {reason n : Nat} (hg : Grows z0 s) :
    Grows z0 (crnRecover s reason n) := by
  unfold crnRecover
  repeat' first
    | with_reducible exact hg | with_reducible assumption | with_reducible apply set_grows
    | with_reducible apply bump_grows | with_reducible apply raise_grows
    | with_reducible apply measureMissing_grows | with_reducible apply recoveryTwin_grows
    | fail_if_no_progress (with_reducible refine mk_grows ?_ rfl)
    | with_reducible refine Grows.pair2 (by assumption) ?_
    | with_reducible refine Grows.pair1 (by assumption) ?_
    | with_reducible refine Grows.ofOpt (by assumption) ?_ | intro _ | split | dsimp only

theorem crownCheck_grows {z0 : State} {s : State} {x : CrnSlot} {c : Nat} (hg : Grows z0 s) :
    Grows z0 (crownCheck s x c).2 := by
  unfold crownCheck
  repeat' first
    | with_reducible exact hg | with_reducible assumption | with_reducible apply crownHash_grows
    | with_reducible apply crownJobs_grows | fail_if_no_progress (with_reducible refine mk_grows ?_ rfl)
    | with_reducible refine Grows.pair2 (by assumption) ?_
    | with_reducible refine Grows.pair1 (by assumption) ?_
    | with_reducible refine Grows.ofOpt (by assumption) ?_ | intro _ | split | dsimp only

theorem bootSlots_grows {s0 : State} {n c : Nat} {s : State} (h : Grows s0 s) : Grows s0 (bootSlots n c s) := by
  induction n generalizing c s with
  | zero => exact emit_grows (set_grows h)
  | succ n ih =>
    unfold bootSlots
    dsimp -zeta only
    extract_lets x trials s2 s3 s4
    have g := crownCheck_grows (x := x) (c := c) h
    clear_value x
    split
    · exact crnRecover_grows g
    · split
      · exact crnRecover_grows (raise_grows (bump_grows (crnRecord_grows g)))
      · refine ih (crownExtend_grows (onCrn_grows ?_))
        simp only [s3]
        split
        · exact raise_grows (crnRecord_grows g)
        · exact g

theorem fuseCut_grows {s0 : State} {s : State} (h : Grows s0 s) : Grows s0 (fuseCut s) := by
  unfold fuseCut
  dsimp only
  exact (drawFree_grows h).trans ⟨rfl, id, id, id, id, fun x => ⟨x, Nat.le_refl _⟩, fun _ x => x, Nat.le_add_right ..⟩

theorem engineCut_grows {z0 : State} {s : State} (hg : Grows z0 s) :
    Grows z0 (engineCut s) := by
  unfold engineCut
  repeat' first
    | with_reducible exact hg | with_reducible assumption | with_reducible apply onCrn_grows
    | with_reducible apply drawFree_grows | with_reducible apply tearRecord_grows
    | with_reducible apply recordDone_grows | with_reducible apply fuseCut_grows
    | fail_if_no_progress (with_reducible refine mk_grows ?_ rfl)
    | with_reducible refine Grows.pair2 (by assumption) ?_
    | with_reducible refine Grows.pair1 (by assumption) ?_
    | with_reducible refine Grows.ofOpt (by assumption) ?_
    | with_reducible refine Grows.fold ?_ (fun _ _ _ => ?_)
    | with_reducible refine Grows.fold2 ?_ (fun _ _ _ => ?_)
    | with_reducible refine Grows.fold1 ?_ (fun _ _ _ => ?_) | intro _ | split | dsimp only

theorem bootCut_grows {z0 : State} {s : State} (hg : Grows z0 s) :
    Grows z0 (bootCut s) := by
  unfold bootCut
  repeat' first
    | with_reducible exact hg | with_reducible assumption | with_reducible apply drawFree_grows
    | with_reducible apply tearRecord_grows | with_reducible apply recordDone_grows
    | with_reducible apply crnRecord_grows | fail_if_no_progress (with_reducible refine mk_grows ?_ rfl)
    | with_reducible refine Grows.pair2 (by assumption) ?_
    | with_reducible refine Grows.pair1 (by assumption) ?_
    | with_reducible refine Grows.ofOpt (by assumption) ?_ | intro _ | split | dsimp only

theorem bootCuts_grows {s0 : State} {n : Nat} {s : State} (h : Grows s0 s) : Grows s0 (bootCuts n s) := by
  induction n generalizing s with
  | zero => exact onCrn_grows h
  | succ n ih => exact ih (bootCut_grows h)

theorem crownBoot_grows {z0 : State} {s : State} (hg : Grows z0 s) :
    Grows z0 (crownBoot s) := by
  unfold crownBoot
  repeat' first
    | with_reducible exact hg | with_reducible assumption | with_reducible apply recordDone_grows
    | with_reducible apply crnShow_grows | with_reducible apply confirmRest_grows
    | with_reducible apply crnRecover_grows | with_reducible apply bootSlots_grows
    | with_reducible apply engineCut_grows | with_reducible apply bootCuts_grows
    | fail_if_no_progress (with_reducible refine mk_grows ?_ rfl)
    | with_reducible refine Grows.pair2 (by assumption) ?_
    | with_reducible refine Grows.pair1 (by assumption) ?_
    | with_reducible refine Grows.ofOpt (by assumption) ?_ | intro _ | split | dsimp only

/-! ### ChrOps -/

theorem chrRises_grows {z0 : State} {s : State} (hg : Grows z0 s) :
    Grows z0 (chrRises s) := by
  unfold chrRises
  repeat' first
    | with_reducible exact hg | with_reducible assumption | with_reducible apply onChr_grows
    | with_reducible apply chrAdd_grows | fail_if_no_progress (with_reducible refine mk_grows ?_ rfl)
    | with_reducible refine Grows.pair2 (by assumption) ?_
    | with_reducible refine Grows.pair1 (by assumption) ?_
    | with_reducible refine Grows.ofOpt (by assumption) ?_
    | with_reducible refine Grows.fold ?_ (fun _ _ _ => ?_)
    | with_reducible refine Grows.fold2 ?_ (fun _ _ _ => ?_)
    | with_reducible refine Grows.fold1 ?_ (fun _ _ _ => ?_) | intro _ | split | dsimp only

theorem chrEvent_grows {z0 : State} {s : State} {code n : Nat} (hg : Grows z0 s) :
    Grows z0 (chrEvent s code n) := by
  unfold chrEvent
  repeat' first
    | with_reducible exact hg | with_reducible assumption | with_reducible apply chrAdd_grows
    | fail_if_no_progress (with_reducible refine mk_grows ?_ rfl)
    | with_reducible refine Grows.pair2 (by assumption) ?_
    | with_reducible refine Grows.pair1 (by assumption) ?_
    | with_reducible refine Grows.ofOpt (by assumption) ?_
    | with_reducible refine Grows.fold ?_ (fun _ _ _ => ?_)
    | with_reducible refine Grows.fold2 ?_ (fun _ _ _ => ?_)
    | with_reducible refine Grows.fold1 ?_ (fun _ _ _ => ?_) | intro _ | split | dsimp only

theorem chrTci_grows {z0 : State} {s : State} {n : Nat} {rising : Bool} {widthNs : Nat} (hg : Grows z0 s) :
    Grows z0 (chrTci s n rising widthNs) := by
  unfold chrTci
  repeat' first
    | with_reducible exact hg | with_reducible assumption | with_reducible apply chrEvent_grows
    | fail_if_no_progress (with_reducible refine mk_grows ?_ rfl)
    | with_reducible refine Grows.pair2 (by assumption) ?_
    | with_reducible refine Grows.pair1 (by assumption) ?_
    | with_reducible refine Grows.ofOpt (by assumption) ?_ | intro _ | split | dsimp only

theorem chrCounterEnable_grows {z0 : State} {s : State} {k : Nat} {en : Bool} (hg : Grows z0 s) :
    Grows z0 (chrCounterEnable s k en) := by
  unfold chrCounterEnable
  repeat' first
    | with_reducible exact hg | with_reducible assumption | with_reducible apply set_grows
    | with_reducible apply onChr_grows | with_reducible apply claimAll_grows
    | with_reducible apply releaseAll_grows | fail_if_no_progress (with_reducible refine mk_grows ?_ rfl)
    | with_reducible refine Grows.pair2 (by assumption) ?_
    | with_reducible refine Grows.pair1 (by assumption) ?_
    | with_reducible refine Grows.ofOpt (by assumption) ?_ | intro _ | split | dsimp only

theorem chrCounterWrite_grows {z0 : State} {s : State} {k v : Nat} (hg : Grows z0 s) :
    Grows z0 (chrCounterWrite s k v) := by
  unfold chrCounterWrite
  repeat' first
    | with_reducible exact hg | with_reducible assumption | with_reducible apply onChr_grows
    | fail_if_no_progress (with_reducible refine mk_grows ?_ rfl)
    | with_reducible refine Grows.pair2 (by assumption) ?_
    | with_reducible refine Grows.pair1 (by assumption) ?_
    | with_reducible refine Grows.ofOpt (by assumption) ?_ | intro _ | split | dsimp only

theorem binWrite_grows {z0 : State} {s : State} {b v : Nat} (hg : Grows z0 s) :
    Grows z0 (binWrite s b v) := by
  unfold binWrite
  repeat' first
    | with_reducible exact hg | with_reducible assumption | with_reducible apply onChr_grows
    | fail_if_no_progress (with_reducible refine mk_grows ?_ rfl)
    | with_reducible refine Grows.pair2 (by assumption) ?_
    | with_reducible refine Grows.pair1 (by assumption) ?_
    | with_reducible refine Grows.ofOpt (by assumption) ?_ | intro _ | split | dsimp only

theorem lostCount_grows {z0 : State} {s : State} (hg : Grows z0 s) :
    Grows z0 (lostCount s) := by
  unfold lostCount
  repeat' first
    | with_reducible exact hg | with_reducible assumption | with_reducible apply bumpBy_grows
    | fail_if_no_progress (with_reducible refine mk_grows ?_ rfl)
    | with_reducible refine Grows.pair2 (by assumption) ?_
    | with_reducible refine Grows.pair1 (by assumption) ?_
    | with_reducible refine Grows.ofOpt (by assumption) ?_ | intro _ | split | dsimp only

theorem lostSettle_grows {z0 : State} {s : State} (hg : Grows z0 s) :
    Grows z0 (lostSettle s) := by
  unfold lostSettle
  repeat' first
    | with_reducible exact hg | with_reducible assumption | with_reducible apply raiseFirst_grows
    | with_reducible apply lostCount_grows | fail_if_no_progress (with_reducible refine mk_grows ?_ rfl)
    | with_reducible refine Grows.pair2 (by assumption) ?_
    | with_reducible refine Grows.pair1 (by assumption) ?_
    | with_reducible refine Grows.ofOpt (by assumption) ?_ | intro _ | split | dsimp only

theorem histSettle_grows {z0 : State} {s : State} {d : HistDue} (hg : Grows z0 s) :
    Grows z0 (histSettle s d) := by
  unfold histSettle
  repeat' first
    | with_reducible exact hg | with_reducible assumption | with_reducible apply set_grows
    | with_reducible apply raise_grows | fail_if_no_progress (with_reducible refine mk_grows ?_ rfl)
    | with_reducible refine Grows.pair2 (by assumption) ?_
    | with_reducible refine Grows.pair1 (by assumption) ?_
    | with_reducible refine Grows.ofOpt (by assumption) ?_
    | with_reducible refine Grows.fold ?_ (fun _ _ _ => ?_)
    | with_reducible refine Grows.fold2 ?_ (fun _ _ _ => ?_)
    | with_reducible refine Grows.fold1 ?_ (fun _ _ _ => ?_) | intro _ | split | dsimp only

theorem chrSettle_grows {z0 : State} {s : State} (hg : Grows z0 s) :
    Grows z0 (chrSettle s) := by
  unfold chrSettle
  repeat' first
    | with_reducible exact hg | with_reducible assumption | with_reducible apply onChr_grows
    | with_reducible apply raise_grows | with_reducible apply lostSettle_grows
    | with_reducible apply histSettle_grows | fail_if_no_progress (with_reducible refine mk_grows ?_ rfl)
    | with_reducible refine Grows.pair2 (by assumption) ?_
    | with_reducible refine Grows.pair1 (by assumption) ?_
    | with_reducible refine Grows.ofOpt (by assumption) ?_
    | with_reducible refine Grows.fold ?_ (fun _ _ _ => ?_)
    | with_reducible refine Grows.fold2 ?_ (fun _ _ _ => ?_)
    | with_reducible refine Grows.fold1 ?_ (fun _ _ _ => ?_) | intro _ | split | dsimp only

theorem setSamples_grows {z0 : State} {s : State} {c : Nat} {l : List InsSample} (hg : Grows z0 s) :
    Grows z0 (setSamples s c l) := by
  unfold setSamples
  repeat' first
    | with_reducible exact hg | with_reducible assumption | with_reducible apply set_grows
    | with_reducible apply onChr_grows | fail_if_no_progress (with_reducible refine mk_grows ?_ rfl)
    | with_reducible refine Grows.pair2 (by assumption) ?_
    | with_reducible refine Grows.pair1 (by assumption) ?_
    | with_reducible refine Grows.ofOpt (by assumption) ?_ | intro _ | split | dsimp only

theorem instructionSample_grows {s0 : State} {s : State} {c pc latency flags : Nat} {secure : Bool}
    {retired active rises : Nat} (h : Grows s0 s) :
    Grows s0 (instructionSample s c pc latency flags secure retired active rises) := by
  unfold instructionSample
  extract_lets s1 s2 left
  have g1 : Grows s0 s1 := chrEvent_grows h
  have g2 : Grows s0 s2 := by
    simp only [s2]; split
    · exact g1
    · refine Grows.fold g1 (fun v e k => ?_)
      split
      · exact chrAdd_grows k
      · exact k
  clear_value s2 left
  split
  · exact g2
  · split
    · exact onChr_grows g2
    · split
      rename_i r s3 e
      have g3 : Grows s0 s3 := Grows.pair2 e (drawRandom_grows g2)
      clear e
      extract_lets s4 s5 l s6
      have g4 : Grows s0 s4 := onChr_grows g3
      have g5 : Grows s0 s5 := Grows.fold g4 (fun _ _ k => histBin_grows k)
      have g6 : Grows s0 s6 := onChr_grows (setSamples_grows g5)
      clear_value s6 s5 l
      split
      · exact onChr_grows g5
      · split
        · exact raise_grows g6
        · exact g6

theorem samplePop_grows {z0 : State} {s : State} {c : Nat} (hg : Grows z0 s) :
    Grows z0 (samplePop s c) := by
  unfold samplePop
  repeat' first
    | with_reducible exact hg | with_reducible assumption | with_reducible apply onChr_grows
    | with_reducible apply raise_grows | with_reducible apply setSamples_grows
    | fail_if_no_progress (with_reducible refine mk_grows ?_ rfl)
    | with_reducible refine Grows.pair2 (by assumption) ?_
    | with_reducible refine Grows.pair1 (by assumption) ?_
    | with_reducible refine Grows.ofOpt (by assumption) ?_ | intro _ | split | dsimp only

theorem isEnable_grows {z0 : State} {s : State} {c : Nat} {was en : Bool} (hg : Grows z0 s) :
    Grows z0 (isEnable s c was en) := by
  unfold isEnable
  repeat' first
    | with_reducible exact hg | with_reducible assumption | with_reducible apply setb_grows
    | with_reducible apply onChr_grows | fail_if_no_progress (with_reducible refine mk_grows ?_ rfl)
    | with_reducible refine Grows.pair2 (by assumption) ?_
    | with_reducible refine Grows.pair1 (by assumption) ?_
    | with_reducible refine Grows.ofOpt (by assumption) ?_ | intro _ | split | dsimp only

theorem chrEpoch_grows {z0 : State} {s : State} (hg : Grows z0 s) :
    Grows z0 (chrEpoch s) := by
  unfold chrEpoch
  repeat' first
    | with_reducible exact hg | with_reducible assumption | with_reducible apply takeEffect_grows
    | with_reducible apply onChr_grows | fail_if_no_progress (with_reducible refine mk_grows ?_ rfl)
    | with_reducible refine Grows.pair2 (by assumption) ?_
    | with_reducible refine Grows.pair1 (by assumption) ?_
    | with_reducible refine Grows.ofOpt (by assumption) ?_
    | with_reducible refine Grows.fold ?_ (fun _ _ _ => ?_)
    | with_reducible refine Grows.fold2 ?_ (fun _ _ _ => ?_)
    | with_reducible refine Grows.fold1 ?_ (fun _ _ _ => ?_) | intro _ | split | dsimp only

/-! ### Bus -/

theorem fieldWrite_grows {z0 : State} {s0 : State} {off val : Nat} {s : State} {r : Row} (hg : Grows z0 s) :
    Grows z0 (fieldWrite s0 off val s r) := by
  unfold fieldWrite
  repeat' first
    | with_reducible exact hg | with_reducible assumption | with_reducible apply set_grows
    | with_reducible apply setLater_grows | fail_if_no_progress (with_reducible refine mk_grows ?_ rfl)
    | with_reducible refine Grows.pair2 (by assumption) ?_
    | with_reducible refine Grows.pair1 (by assumption) ?_
    | with_reducible refine Grows.ofOpt (by assumption) ?_ | intro _ | split | dsimp only

theorem fieldsWrite_grows {z0 : State} {s : State} {off val : Nat} (h : Grows z0 s) : Grows z0 (fieldsWrite s off val) := by
  unfold fieldsWrite
  exact Grows.fold h (fun _ _ k => fieldWrite_grows k)

theorem enableBit_grows {z0 : State} {s : State} {f : Fld} {v : Nat} {on off : State → State} (hg : Grows z0 s) (hon : ∀ v, Grows z0 v → Grows z0 (on v)) (hoff : ∀ v, Grows z0 v → Grows z0 (off v)) :
    Grows z0 (enableBit s f v on off) := by
  unfold enableBit
  repeat' first
    | with_reducible exact hg | apply hon | apply hoff | with_reducible assumption
    | fail_if_no_progress (with_reducible refine mk_grows ?_ rfl)
    | with_reducible refine Grows.pair2 (by assumption) ?_
    | with_reducible refine Grows.pair1 (by assumption) ?_
    | with_reducible refine Grows.ofOpt (by assumption) ?_ | intro _ | split | dsimp only

theorem claimOp_rising {m : Tab Holder} {op r o : Nat} (h : rising m = true) : rising (claimOp m op r o).2 = true := by
  unfold claimOp
  repeat'
    first
      | exact h
      | exact rising_put _ _ h
      | exact rising_del _ h
      | split

theorem claimCommand_grows {s0 : State} {s : State} {op resource owner : Nat} (h : Grows s0 s) :
    Grows s0 (claimCommand s op resource owner) := by
  unfold claimCommand
  have hc : rising s.claims = true → rising (claimOp s.claims op resource owner).2 = true := claimOp_rising
  generalize claimOp s.claims op resource owner = p at *
  obtain ⟨code, claims⟩ := p
  dsimp -zeta only at *
  extract_lets freed s1 s2
  have g1 : Grows s0 s1 ∧ s1.claims = s.claims := by
    simp only [s1]; split
    · exact ⟨cmpDisable_grows h, rfl⟩
    · exact ⟨h, rfl⟩
  have g2 : Grows s0 { s1 with claims := claims } :=
    g1.1.trans ⟨rfl, id, id, id, fun x => hc (g1.2 ▸ x), fun x => ⟨x, Nat.le_refl _⟩, fun _ x => x, Nat.le_refl _⟩
  have g3 : Grows s0 s2 := set_grows (set_grows (set_grows g2))
  split
  · exact setb_grows (set_grows g3)
  · exact set_grows (set_grows g3)

theorem glbWrite_grows {z0 : State} {s : State} {off val : Nat} (hg : Grows z0 s) :
    Grows z0 (glbWrite s off val) := by
  unfold glbWrite
  repeat' first
    | with_reducible exact hg | with_reducible assumption | with_reducible apply claimCommand_grows
    | fail_if_no_progress (with_reducible refine mk_grows ?_ rfl)
    | with_reducible refine Grows.pair2 (by assumption) ?_
    | with_reducible refine Grows.pair1 (by assumption) ?_
    | with_reducible refine Grows.ofOpt (by assumption) ?_ | intro _ | split | dsimp only

theorem vmonConfig_grows {z0 : State} {s : State} {warn rst hyst : Nat} (hg : Grows z0 s) :
    Grows z0 (vmonConfig s warn rst hyst) := by
  unfold vmonConfig
  repeat' first
    | with_reducible exact hg | with_reducible assumption | with_reducible apply set_grows
    | fail_if_no_progress (with_reducible refine mk_grows ?_ rfl)
    | with_reducible refine Grows.pair2 (by assumption) ?_
    | with_reducible refine Grows.pair1 (by assumption) ?_
    | with_reducible refine Grows.ofOpt (by assumption) ?_ | intro _ | split | dsimp only

theorem tempConfig_grows {z0 : State} {s : State} {warn trip : Nat} (hg : Grows z0 s) :
    Grows z0 (tempConfig s warn trip) := by
  unfold tempConfig
  repeat' first
    | with_reducible exact hg | with_reducible assumption | with_reducible apply set_grows
    | with_reducible apply thermalTrip_grows | fail_if_no_progress (with_reducible refine mk_grows ?_ rfl)
    | with_reducible refine Grows.pair2 (by assumption) ?_
    | with_reducible refine Grows.pair1 (by assumption) ?_
    | with_reducible refine Grows.ofOpt (by assumption) ?_ | intro _ | split | dsimp only

theorem pwrWrite_grows {z0 : State} {s : State} {off val : Nat} (hg : Grows z0 s) :
    Grows z0 (pwrWrite s off val) := by
  unfold pwrWrite
  repeat' first
    | with_reducible exact hg | with_reducible assumption | with_reducible apply kick_grows
    | with_reducible apply watchdogConfig_grows | with_reducible apply chipResetCommand_grows
    | with_reducible apply coreResetCommand_grows | with_reducible apply corePower_grows
    | with_reducible apply powerStateReq_grows | with_reducible apply permanentListClear_grows
    | with_reducible apply vmonConfig_grows | with_reducible apply tempConfig_grows
    | fail_if_no_progress (with_reducible refine mk_grows ?_ rfl)
    | with_reducible refine Grows.pair2 (by assumption) ?_
    | with_reducible refine Grows.pair1 (by assumption) ?_
    | with_reducible refine Grows.ofOpt (by assumption) ?_ | intro _ | split | dsimp only

theorem cycLoad_grows {z0 : State} {s : State} {v : Nat} (hg : Grows z0 s) :
    Grows z0 (cycLoad s v) := by
  unfold cycLoad
  repeat' first
    | with_reducible exact hg | with_reducible assumption | with_reducible apply set_grows
    | with_reducible apply onBal_grows | fail_if_no_progress (with_reducible refine mk_grows ?_ rfl)
    | with_reducible refine Grows.pair2 (by assumption) ?_
    | with_reducible refine Grows.pair1 (by assumption) ?_
    | with_reducible refine Grows.ofOpt (by assumption) ?_ | intro _ | split | dsimp only

theorem ppsInEnable_grows {z0 : State} {s0 s : State} (hg : Grows z0 s) :
    Grows z0 (ppsInEnable s0 s) := by
  unfold ppsInEnable
  repeat' first
    | with_reducible exact hg | with_reducible assumption | with_reducible apply onBal_grows
    | fail_if_no_progress (with_reducible refine mk_grows ?_ rfl)
    | with_reducible refine Grows.pair2 (by assumption) ?_
    | with_reducible refine Grows.pair1 (by assumption) ?_
    | with_reducible refine Grows.ofOpt (by assumption) ?_ | intro _ | split | dsimp only

theorem cmpWrite_grows {z0 : State} {s : State} {k reg val : Nat} (hg : Grows z0 s) :
    Grows z0 (cmpWrite s k reg val) := by
  unfold cmpWrite
  repeat' first
    | with_reducible exact hg | with_reducible assumption | with_reducible apply set_grows
    | with_reducible apply cmpEnable_grows | with_reducible apply cmpDisable_grows
    | with_reducible apply cmpCommit_grows | fail_if_no_progress (with_reducible refine mk_grows ?_ rfl)
    | with_reducible refine Grows.pair2 (by assumption) ?_
    | with_reducible refine Grows.pair1 (by assumption) ?_
    | with_reducible refine Grows.ofOpt (by assumption) ?_ | intro _ | split | dsimp only

theorem balWrite_grows {z0 : State} {s0 s : State} {off val : Nat} (hg : Grows z0 s) :
    Grows z0 (balWrite s0 s off val) := by
  unfold balWrite
  repeat' first
    | with_reducible exact hg | with_reducible assumption | with_reducible apply ttEnable_grows
    | with_reducible apply ttDisable_grows | with_reducible apply ttCommit_grows
    | with_reducible apply balEnable_grows | with_reducible apply balDisable_grows
    | with_reducible apply cycForce_grows | with_reducible apply snap_grows
    | with_reducible apply tciEnable_grows | with_reducible apply tciDisable_grows
    | with_reducible apply tciPop_grows | with_reducible apply ptpSet_grows | with_reducible apply ptpAdj_grows
    | with_reducible apply ptpRate_grows | with_reducible apply ppsOutEnable_grows
    | with_reducible apply ppsOutDisable_grows | with_reducible apply enableBit_grows
    | with_reducible apply cycLoad_grows | with_reducible apply ppsInEnable_grows
    | with_reducible apply cmpWrite_grows | fail_if_no_progress (with_reducible refine mk_grows ?_ rfl)
    | with_reducible refine Grows.pair2 (by assumption) ?_
    | with_reducible refine Grows.pair1 (by assumption) ?_
    | with_reducible refine Grows.ofOpt (by assumption) ?_ | intro _ | split | dsimp only

theorem rfxWrite_grows {z0 : State} {s : State} {off val : Nat} (hg : Grows z0 s) :
    Grows z0 (rfxWrite s off val) := by
  unfold rfxWrite
  repeat' first
    | with_reducible exact hg | with_reducible assumption | with_reducible apply rxStartcal_grows
    | with_reducible apply rxEnable_grows | with_reducible apply rxDisable_grows
    | with_reducible apply calReq_grows | with_reducible apply enableBit_grows
    | fail_if_no_progress (with_reducible refine mk_grows ?_ rfl)
    | with_reducible refine Grows.pair2 (by assumption) ?_
    | with_reducible refine Grows.pair1 (by assumption) ?_
    | with_reducible refine Grows.ofOpt (by assumption) ?_ | intro _ | split | dsimp only

theorem rampLen_grows {z0 : State} {s : State} {n v : Nat} (hg : Grows z0 s) :
    Grows z0 (rampLen s n v) := by
  unfold rampLen
  repeat' first
    | with_reducible exact hg | with_reducible assumption | with_reducible apply set_grows
    | fail_if_no_progress (with_reducible refine mk_grows ?_ rfl)
    | with_reducible refine Grows.pair2 (by assumption) ?_
    | with_reducible refine Grows.pair1 (by assumption) ?_
    | with_reducible refine Grows.ofOpt (by assumption) ?_ | intro _ | split | dsimp only

theorem txcWrite_grows {z0 : State} {s : State} {off val : Nat} (hg : Grows z0 s) :
    Grows z0 (txcWrite s off val) := by
  unfold txcWrite
  repeat' first
    | with_reducible exact hg | with_reducible assumption | with_reducible apply coexEnable_grows
    | with_reducible apply coexDisable_grows | with_reducible apply chainStartcal_grows
    | with_reducible apply chainEnable_grows | with_reducible apply txcDrive_grows
    | with_reducible apply chainDisable_grows | with_reducible apply park_grows
    | with_reducible apply cacheFill_grows | with_reducible apply cacheEvict_grows
    | with_reducible apply cacheRead_grows | with_reducible apply enableBit_grows
    | with_reducible apply rampLen_grows | fail_if_no_progress (with_reducible refine mk_grows ?_ rfl)
    | with_reducible refine Grows.pair2 (by assumption) ?_
    | with_reducible refine Grows.pair1 (by assumption) ?_
    | with_reducible refine Grows.ofOpt (by assumption) ?_ | intro _ | split | dsimp only

theorem sicWrite_grows {z0 : State} {s : State} {off val : Nat} (hg : Grows z0 s) :
    Grows z0 (sicWrite s off val) := by
  unfold sicWrite
  repeat' first
    | with_reducible exact hg | with_reducible assumption | with_reducible apply sicClearEntry_grows
    | with_reducible apply sicReadEntry_grows | with_reducible apply sicSetEna_grows
    | with_reducible apply enableBit_grows | fail_if_no_progress (with_reducible refine mk_grows ?_ rfl)
    | with_reducible refine Grows.pair2 (by assumption) ?_
    | with_reducible refine Grows.pair1 (by assumption) ?_
    | with_reducible refine Grows.ofOpt (by assumption) ?_ | intro _ | split | dsimp only

theorem chzWrite_grows {z0 : State} {s : State} {off val : Nat} (hg : Grows z0 s) :
    Grows z0 (chzWrite s off val) := by
  unfold chzWrite
  repeat' first
    | with_reducible exact hg | with_reducible assumption | with_reducible apply set_grows
    | with_reducible apply laneCommit_grows | with_reducible apply laneEnable_grows
    | with_reducible apply laneDisable_grows | with_reducible apply selftest_grows
    | with_reducible apply unretire_grows | with_reducible apply channelRetire_grows
    | with_reducible apply enableBit_grows | fail_if_no_progress (with_reducible refine mk_grows ?_ rfl)
    | with_reducible refine Grows.pair2 (by assumption) ?_
    | with_reducible refine Grows.pair1 (by assumption) ?_
    | with_reducible refine Grows.ofOpt (by assumption) ?_ | intro _ | split | dsimp only

theorem phyWrite_grows {z0 : State} {s : State} {off val : Nat} (hg : Grows z0 s) :
    Grows z0 (phyWrite s off val) := by
  unfold phyWrite
  repeat' first
    | with_reducible exact hg | with_reducible assumption | with_reducible apply profileLoad_grows
    | with_reducible apply profileUnload_grows | with_reducible apply airtimeQuery_grows
    | fail_if_no_progress (with_reducible refine mk_grows ?_ rfl)
    | with_reducible refine Grows.pair2 (by assumption) ?_
    | with_reducible refine Grows.pair1 (by assumption) ?_
    | with_reducible refine Grows.ofOpt (by assumption) ?_ | intro _ | split | dsimp only

theorem dwellRestart_grows {z0 : State} {s : State} {p : Nat → Bool} (hg : Grows z0 s) :
    Grows z0 (dwellRestart s p) := by
  unfold dwellRestart
  repeat' first
    | with_reducible exact hg | with_reducible assumption | with_reducible apply onAmc_grows
    | fail_if_no_progress (with_reducible refine mk_grows ?_ rfl)
    | with_reducible refine Grows.pair2 (by assumption) ?_
    | with_reducible refine Grows.pair1 (by assumption) ?_
    | with_reducible refine Grows.ofOpt (by assumption) ?_ | intro _ | split | dsimp only

theorem amcWrite_grows {z0 : State} {s0 s : State} {off val : Nat} (hg : Grows z0 s) :
    Grows z0 (amcWrite s0 s off val) := by
  unfold amcWrite
  repeat' first
    | with_reducible exact hg | with_reducible assumption | with_reducible apply ebWritten_grows
    | with_reducible apply amcEnable_grows | with_reducible apply amcDisable_grows
    | with_reducible apply enableBit_grows | with_reducible apply dwellRestart_grows
    | fail_if_no_progress (with_reducible refine mk_grows ?_ rfl)
    | with_reducible refine Grows.pair2 (by assumption) ?_
    | with_reducible refine Grows.pair1 (by assumption) ?_
    | with_reducible refine Grows.ofOpt (by assumption) ?_ | intro _ | split | dsimp only

theorem slpWrite_grows {z0 : State} {s : State} {off val : Nat} (hg : Grows z0 s) :
    Grows z0 (slpWrite s off val) := by
  unfold slpWrite
  repeat' first
    | with_reducible exact hg | with_reducible assumption | with_reducible apply nodeQuery_grows
    | with_reducible apply slpEnable_grows | with_reducible apply slpDisable_grows
    | with_reducible apply enableBit_grows | fail_if_no_progress (with_reducible refine mk_grows ?_ rfl)
    | with_reducible refine Grows.pair2 (by assumption) ?_
    | with_reducible refine Grows.pair1 (by assumption) ?_
    | with_reducible refine Grows.ofOpt (by assumption) ?_ | intro _ | split | dsimp only

theorem bankSelect_grows {z0 : State} {s : State} {v : Nat} (hg : Grows z0 s) :
    Grows z0 (bankSelect s v) := by
  unfold bankSelect
  repeat' first
    | with_reducible exact hg | with_reducible assumption | with_reducible apply set_grows
    | with_reducible apply setb_grows | fail_if_no_progress (with_reducible refine mk_grows ?_ rfl)
    | with_reducible refine Grows.pair2 (by assumption) ?_
    | with_reducible refine Grows.pair1 (by assumption) ?_
    | with_reducible refine Grows.ofOpt (by assumption) ?_ | intro _ | split | dsimp only

theorem frameLenSet_grows {z0 : State} {s : State} {bank v : Nat} (hg : Grows z0 s) :
    Grows z0 (frameLenSet s bank v) := by
  unfold frameLenSet
  repeat' first
    | with_reducible exact hg | with_reducible assumption | with_reducible apply set_grows
    | fail_if_no_progress (with_reducible refine mk_grows ?_ rfl)
    | with_reducible refine Grows.pair2 (by assumption) ?_
    | with_reducible refine Grows.pair1 (by assumption) ?_
    | with_reducible refine Grows.ofOpt (by assumption) ?_ | intro _ | split | dsimp only

theorem fusValid_grows {z0 : State} {s : State} {r v : Nat} (hg : Grows z0 s) :
    Grows z0 (fusValid s r v) := by
  unfold fusValid
  repeat' first
    | with_reducible exact hg | with_reducible assumption | with_reducible apply set_grows
    | with_reducible apply fusUpdate_grows | with_reducible apply fusStart_grows
    | fail_if_no_progress (with_reducible refine mk_grows ?_ rfl)
    | with_reducible refine Grows.pair2 (by assumption) ?_
    | with_reducible refine Grows.pair1 (by assumption) ?_
    | with_reducible refine Grows.ofOpt (by assumption) ?_ | intro _ | split | dsimp only

theorem escWrite_grows {z0 : State} {s : State} {off val : Nat} (hg : Grows z0 s) :
    Grows z0 (escWrite s off val) := by
  unfold escWrite
  repeat' first
    | with_reducible exact hg | with_reducible assumption | with_reducible apply genBump_grows
    | with_reducible apply subFlush_grows | with_reducible apply subRead_grows
    | with_reducible apply subWrite_grows | with_reducible apply escEnable_grows
    | with_reducible apply escDisable_grows | with_reducible apply enableBit_grows
    | with_reducible apply bankSelect_grows | with_reducible apply frameLenSet_grows
    | with_reducible apply fusValid_grows | fail_if_no_progress (with_reducible refine mk_grows ?_ rfl)
    | with_reducible refine Grows.pair2 (by assumption) ?_
    | with_reducible refine Grows.pair1 (by assumption) ?_
    | with_reducible refine Grows.ofOpt (by assumption) ?_ | intro _ | split | dsimp only

theorem fwdWrite_grows {z0 : State} {s : State} {off val : Nat} {upset : List Nat} (hg : Grows z0 s) :
    Grows z0 (fwdWrite s off val upset) := by
  unfold fwdWrite
  repeat' first
    | with_reducible exact hg | with_reducible assumption | with_reducible apply ntLookup_grows
    | with_reducible apply ntInsertPrimary_grows | with_reducible apply ntDelete_grows
    | with_reducible apply ntSetParent_grows | with_reducible apply ntInsertAlias_grows
    | with_reducible apply ntRead_grows | with_reducible apply ntRepair_grows
    | with_reducible apply ptInsert_grows | with_reducible apply ptDelete_grows
    | with_reducible apply ptRead_grows | with_reducible apply fwdEnable_grows
    | with_reducible apply fwdDisable_grows | with_reducible apply enableBit_grows
    | fail_if_no_progress (with_reducible refine mk_grows ?_ rfl)
    | with_reducible refine Grows.pair2 (by assumption) ?_
    | with_reducible refine Grows.pair1 (by assumption) ?_
    | with_reducible refine Grows.ofOpt (by assumption) ?_ | intro _ | split | dsimp only

theorem poolResize_grows {z0 : State} {s0 s : State} {p : Nat} (hg : Grows z0 s) :
    Grows z0 (poolResize s0 s p) := by
  unfold poolResize
  repeat' first
    | with_reducible exact hg | with_reducible assumption | with_reducible apply set_grows
    | fail_if_no_progress (with_reducible refine mk_grows ?_ rfl)
    | with_reducible refine Grows.pair2 (by assumption) ?_
    | with_reducible refine Grows.pair1 (by assumption) ?_
    | with_reducible refine Grows.ofOpt (by assumption) ?_ | intro _ | split | dsimp only

theorem ctxWrite_grows {z0 : State} {s0 s : State} {off val : Nat} (hg : Grows z0 s) :
    Grows z0 (ctxWrite s0 s off val) := by
  unfold ctxWrite
  repeat' first
    | with_reducible exact hg | with_reducible assumption | with_reducible apply ctxEnable_grows
    | with_reducible apply ctxDisable_grows | with_reducible apply contextRead_grows
    | with_reducible apply contextWrite_grows | with_reducible apply reservationConfirm_grows
    | with_reducible apply restore_grows | with_reducible apply invalidate_grows
    | with_reducible apply flush_grows | with_reducible apply enableBit_grows
    | with_reducible apply poolResize_grows | fail_if_no_progress (with_reducible refine mk_grows ?_ rfl)
    | with_reducible refine Grows.pair2 (by assumption) ?_
    | with_reducible refine Grows.pair1 (by assumption) ?_
    | with_reducible refine Grows.ofOpt (by assumption) ?_ | intro _ | split | dsimp only

theorem windowCommand_grows {z0 : State} {s : State} {w op slot : Nat} {mem : Option (List Byte)} (hg : Grows z0 s) :
    Grows z0 (windowCommand s w op slot mem) := by
  unfold windowCommand
  repeat' first
    | with_reducible exact hg | with_reducible assumption | with_reducible apply jwlLoad_grows
    | with_reducible apply jwlDerive_grows | with_reducible apply keyInvalidate_grows
    | with_reducible apply readAttributes_grows | with_reducible apply jwlAttest_grows
    | with_reducible apply jwlHash_grows | with_reducible apply jwlHmac_grows
    | with_reducible apply jwlVerify_grows | with_reducible apply jwlExtend_grows
    | fail_if_no_progress (with_reducible refine mk_grows ?_ rfl)
    | with_reducible refine Grows.pair2 (by assumption) ?_
    | with_reducible refine Grows.pair1 (by assumption) ?_
    | with_reducible refine Grows.ofOpt (by assumption) ?_ | intro _ | split | dsimp only

theorem jwlWrite_grows {z0 : State} {s : State} {off val : Nat} {w : Nat} {mem : Option (List Byte)} (hg : Grows z0 s) :
    Grows z0 (jwlWrite s off val w mem) := by
  unfold jwlWrite
  repeat' first
    | with_reducible exact hg | with_reducible assumption | with_reducible apply set_grows
    | with_reducible apply cacheFlush_grows | with_reducible apply jwlEnable_grows
    | with_reducible apply jwlDisable_grows | with_reducible apply lifeCycleChange_grows
    | with_reducible apply enableBit_grows | with_reducible apply windowCommand_grows
    | fail_if_no_progress (with_reducible refine mk_grows ?_ rfl)
    | with_reducible refine Grows.pair2 (by assumption) ?_
    | with_reducible refine Grows.pair1 (by assumption) ?_
    | with_reducible refine Grows.ofOpt (by assumption) ?_ | intro _ | split | dsimp only

theorem vecDest_grows {z0 : State} {s : State} {v d : Nat} (hg : Grows z0 s) :
    Grows z0 (vecDest s v d) := by
  unfold vecDest
  repeat' first
    | with_reducible exact hg | with_reducible assumption | with_reducible apply set_grows
    | fail_if_no_progress (with_reducible refine mk_grows ?_ rfl)
    | with_reducible refine Grows.pair2 (by assumption) ?_
    | with_reducible refine Grows.pair1 (by assumption) ?_
    | with_reducible refine Grows.ofOpt (by assumption) ?_ | intro _ | split | dsimp only

theorem hifWrite_grows {z0 : State} {s : State} {off val : Nat} (hg : Grows z0 s) :
    Grows z0 (hifWrite s off val) := by
  unfold hifWrite
  repeat' first
    | with_reducible exact hg | with_reducible assumption | with_reducible apply set_grows
    | with_reducible apply onRing_grows | with_reducible apply ringEnable_grows
    | with_reducible apply ringDisable_grows | with_reducible apply enableBit_grows
    | with_reducible apply vecDest_grows | fail_if_no_progress (with_reducible refine mk_grows ?_ rfl)
    | with_reducible refine Grows.pair2 (by assumption) ?_
    | with_reducible refine Grows.pair1 (by assumption) ?_
    | with_reducible refine Grows.ofOpt (by assumption) ?_ | intro _ | split | dsimp only

theorem evtWrite_grows {z0 : State} {s : State} {off val : Nat} (hg : Grows z0 s) :
    Grows z0 (evtWrite s off val) := by
  unfold evtWrite
  repeat' first
    | with_reducible exact hg | with_reducible assumption | with_reducible apply evtSwraise_grows
    | fail_if_no_progress (with_reducible refine mk_grows ?_ rfl)
    | with_reducible refine Grows.pair2 (by assumption) ?_
    | with_reducible refine Grows.pair1 (by assumption) ?_
    | with_reducible refine Grows.ofOpt (by assumption) ?_ | intro _ | split | dsimp only

theorem channelWrite_grows {z0 : State} {s : State} {m : Master} {n reg val : Nat} (hg : Grows z0 s) :
    Grows z0 (channelWrite s m n reg val) := by
  unfold channelWrite
  repeat' first
    | with_reducible exact hg | with_reducible assumption | with_reducible apply set_grows
    | with_reducible apply chanAccess_grows | with_reducible apply post_grows
    | with_reducible apply mbxPop_grows | with_reducible apply channelCfg_grows
    | fail_if_no_progress (with_reducible refine mk_grows ?_ rfl)
    | with_reducible refine Grows.pair2 (by assumption) ?_
    | with_reducible refine Grows.pair1 (by assumption) ?_
    | with_reducible refine Grows.ofOpt (by assumption) ?_ | intro _ | split | dsimp only

theorem mbxWrite_grows {z0 : State} {s : State} {m : Master} {off val : Nat} (hg : Grows z0 s) :
    Grows z0 (mbxWrite s m off val) := by
  unfold mbxWrite
  repeat' first
    | with_reducible exact hg | with_reducible assumption | with_reducible apply set_grows
    | with_reducible apply semRelease_grows | with_reducible apply semForce_grows
    | with_reducible apply lineDeliver_grows | with_reducible apply channelWrite_grows
    | fail_if_no_progress (with_reducible refine mk_grows ?_ rfl)
    | with_reducible refine Grows.pair2 (by assumption) ?_
    | with_reducible refine Grows.pair1 (by assumption) ?_
    | with_reducible refine Grows.ofOpt (by assumption) ?_ | intro _ | split | dsimp only

theorem unicastZero_grows {z0 : State} {s0 s : State} {i : Nat} (hg : Grows z0 s) :
    Grows z0 (unicastZero s0 s i) := by
  unfold unicastZero
  repeat' first
    | with_reducible exact hg | with_reducible assumption | with_reducible apply set_grows
    | with_reducible apply setb_grows | fail_if_no_progress (with_reducible refine mk_grows ?_ rfl)
    | with_reducible refine Grows.pair2 (by assumption) ?_
    | with_reducible refine Grows.pair1 (by assumption) ?_
    | with_reducible refine Grows.ofOpt (by assumption) ?_ | intro _ | split | dsimp only

theorem ethWrite_grows {z0 : State} {s0 s : State} {off val : Nat} (hg : Grows z0 s) :
    Grows z0 (ethWrite s0 s off val) := by
  unfold ethWrite
  repeat' first
    | with_reducible exact hg | with_reducible assumption | with_reducible apply ethStandby_grows
    | with_reducible apply ethEnable_grows | with_reducible apply ethDisable_grows
    | with_reducible apply enableBit_grows | with_reducible apply unicastZero_grows
    | fail_if_no_progress (with_reducible refine mk_grows ?_ rfl)
    | with_reducible refine Grows.pair2 (by assumption) ?_
    | with_reducible refine Grows.pair1 (by assumption) ?_
    | with_reducible refine Grows.ofOpt (by assumption) ?_ | intro _ | split | dsimp only

theorem twnWrite_grows {z0 : State} {s : State} {off val : Nat} (hg : Grows z0 s) :
    Grows z0 (twnWrite s off val) := by
  unfold twnWrite
  repeat' first
    | with_reducible exact hg | with_reducible assumption | with_reducible apply twnEnable_grows
    | with_reducible apply twnDisable_grows | with_reducible apply enableBit_grows
    | fail_if_no_progress (with_reducible refine mk_grows ?_ rfl)
    | with_reducible refine Grows.pair2 (by assumption) ?_
    | with_reducible refine Grows.pair1 (by assumption) ?_
    | with_reducible refine Grows.ofOpt (by assumption) ?_ | intro _ | split | dsimp only

theorem crnWrite_grows {z0 : State} {s : State} {off val : Nat} {mem : Option (List Byte)} (hg : Grows z0 s) :
    Grows z0 (crnWrite s off val mem) := by
  unfold crnWrite
  repeat' first
    | with_reducible exact hg | with_reducible assumption | with_reducible apply crnDownload_grows
    | with_reducible apply crnAbort_grows | with_reducible apply crnActivate_grows
    | with_reducible apply crnConfirm_grows | with_reducible apply burnSigner1_grows
    | fail_if_no_progress (with_reducible refine mk_grows ?_ rfl)
    | with_reducible refine Grows.pair2 (by assumption) ?_
    | with_reducible refine Grows.pair1 (by assumption) ?_
    | with_reducible refine Grows.ofOpt (by assumption) ?_ | intro _ | split | dsimp only

theorem chrWrite_grows {z0 : State} {s0 s : State} {secure : Bool} {off val : Nat} (hg : Grows z0 s) :
    Grows z0 (chrWrite s0 s secure off val) := by
  unfold chrWrite
  repeat' first
    | with_reducible exact hg | with_reducible assumption | with_reducible apply set_grows
    | with_reducible apply onChr_grows | with_reducible apply trecPop_grows
    | with_reducible apply chrCounterEnable_grows | with_reducible apply chrCounterWrite_grows
    | with_reducible apply binWrite_grows | with_reducible apply samplePop_grows
    | with_reducible apply isEnable_grows | fail_if_no_progress (with_reducible refine mk_grows ?_ rfl)
    | with_reducible refine Grows.pair2 (by assumption) ?_
    | with_reducible refine Grows.pair1 (by assumption) ?_
    | with_reducible refine Grows.ofOpt (by assumption) ?_ | intro _ | split | dsimp only

theorem writeRefused_grows {z0 : State} {s : State} {m : Master} {off val : Nat} (hg : Grows z0 s) :
    ∀ x, writeRefused s m off val = some x → Grows z0 x := by
  unfold writeRefused
  intro x e
  revert e
  repeat' first
    | with_reducible exact hg | with_reducible assumption | with_reducible apply bump_grows
    | with_reducible apply jwlDenied_grows | with_reducible apply lifeCycleChange_grows
    | fail_if_no_progress (with_reducible refine mk_grows ?_ rfl)
    | with_reducible refine Grows.pair2 (by assumption) ?_
    | with_reducible refine Grows.pair1 (by assumption) ?_
    | with_reducible refine Grows.ofOpt (by assumption) ?_ | (intro e; cases e) | split | dsimp only

theorem blockWrite_grows {z0 : State} {s0 s : State} {m : Master} {off val : Nat} {reads : BusReads} (hg : Grows z0 s) :
    Grows z0 (blockWrite s0 s m off val reads) := by
  unfold blockWrite
  repeat' first
    | with_reducible exact hg | with_reducible assumption | with_reducible apply glbWrite_grows
    | with_reducible apply pwrWrite_grows | with_reducible apply balWrite_grows
    | with_reducible apply rfxWrite_grows | with_reducible apply txcWrite_grows
    | with_reducible apply sicWrite_grows | with_reducible apply chzWrite_grows
    | with_reducible apply phyWrite_grows | with_reducible apply amcWrite_grows
    | with_reducible apply slpWrite_grows | with_reducible apply escWrite_grows
    | with_reducible apply fwdWrite_grows | with_reducible apply ctxWrite_grows
    | with_reducible apply jwlWrite_grows | with_reducible apply hifWrite_grows
    | with_reducible apply evtWrite_grows | with_reducible apply mbxWrite_grows
    | with_reducible apply ethWrite_grows | with_reducible apply twnWrite_grows
    | with_reducible apply crnWrite_grows | with_reducible apply chrWrite_grows
    | fail_if_no_progress (with_reducible refine mk_grows ?_ rfl)
    | with_reducible refine Grows.pair2 (by assumption) ?_
    | with_reducible refine Grows.pair1 (by assumption) ?_
    | with_reducible refine Grows.ofOpt (by assumption) ?_ | intro _ | split | dsimp only

theorem busWrite_grows {z0 : State} {s : State} {m : Master} {off val : Nat} {reads : BusReads} (h : Grows z0 s) :
    Grows z0 (busWrite s m off val reads) := by
  unfold busWrite
  extract_lets m1 s0 s1 s2
  have g0 : Grows z0 s0 := h.upd rfl rfl rfl rfl rfl rfl
  have g1 : Grows z0 s1 := by
    simp only [s1]
    split
    · exact ebSettle_grows (nbReached_grows g0)
    · split
      · exact rxReached_grows g0
      · exact g0
  have g2 : Grows z0 s2 := by
    simp only [s2]
    split
    · rename_i x v e
      exact writeRefused_grows g1 _ e
    · refine blockWrite_grows ?_
      split
      · exact g1
      · exact fieldsWrite_grows g1
  split
  · exact standbyWake_grows g2
  · exact g2

theorem unsupported_grows {z0 : State} {s : State} {off octets : Nat} (hg : Grows z0 s) :
    Grows z0 (unsupported s off octets) := by
  unfold unsupported
  repeat' first
    | with_reducible exact hg | with_reducible assumption
    | fail_if_no_progress (with_reducible refine mk_grows ?_ rfl)
    | with_reducible refine Grows.pair2 (by assumption) ?_
    | with_reducible refine Grows.pair1 (by assumption) ?_
    | with_reducible refine Grows.ofOpt (by assumption) ?_ | intro _ | split | dsimp only

/-! ### BusRead -/

theorem nbShow_grows {z0 : State} {s : State} (hg : Grows z0 s) :
    Grows z0 (nbShow s) := by
  unfold nbShow
  repeat' first
    | with_reducible exact hg | with_reducible assumption | with_reducible apply set_grows
    | fail_if_no_progress (with_reducible refine mk_grows ?_ rfl)
    | with_reducible refine Grows.pair2 (by assumption) ?_
    | with_reducible refine Grows.pair1 (by assumption) ?_
    | with_reducible refine Grows.ofOpt (by assumption) ?_ | intro _ | split | dsimp only

theorem tciShow_grows {z0 : State} {s : State} {n : Nat} (hg : Grows z0 s) :
    Grows z0 (tciShow s n) := by
  unfold tciShow
  repeat' first
    | with_reducible exact hg | with_reducible assumption | with_reducible apply set_grows
    | with_reducible apply setb_grows | fail_if_no_progress (with_reducible refine mk_grows ?_ rfl)
    | with_reducible refine Grows.pair2 (by assumption) ?_
    | with_reducible refine Grows.pair1 (by assumption) ?_
    | with_reducible refine Grows.ofOpt (by assumption) ?_ | intro _ | split | dsimp only

theorem tsfShow_grows {z0 : State} {s : State} {n : Nat} (hg : Grows z0 s) :
    Grows z0 (tsfShow s n) := by
  unfold tsfShow
  repeat' first
    | with_reducible exact hg | with_reducible assumption | with_reducible apply set_grows
    | fail_if_no_progress (with_reducible refine mk_grows ?_ rfl)
    | with_reducible refine Grows.pair2 (by assumption) ?_
    | with_reducible refine Grows.pair1 (by assumption) ?_
    | with_reducible refine Grows.ofOpt (by assumption) ?_ | intro _ | split | dsimp only

theorem permShow_grows {z0 : State} {s : State} (hg : Grows z0 s) :
    Grows z0 (permShow s) := by
  unfold permShow
  repeat' first
    | with_reducible exact hg | with_reducible assumption | with_reducible apply set_grows
    | fail_if_no_progress (with_reducible refine mk_grows ?_ rfl)
    | with_reducible refine Grows.pair2 (by assumption) ?_
    | with_reducible refine Grows.pair1 (by assumption) ?_
    | with_reducible refine Grows.ofOpt (by assumption) ?_ | intro _ | split | dsimp only

theorem needsShow_grows {z0 : State} {s : State} (hg : Grows z0 s) :
    Grows z0 (needsShow s) := by
  unfold needsShow
  repeat' first
    | with_reducible exact hg | with_reducible assumption | with_reducible apply setb_grows
    | fail_if_no_progress (with_reducible refine mk_grows ?_ rfl)
    | with_reducible refine Grows.pair2 (by assumption) ?_
    | with_reducible refine Grows.pair1 (by assumption) ?_
    | with_reducible refine Grows.ofOpt (by assumption) ?_ | intro _ | split | dsimp only

theorem sampleShow_grows {z0 : State} {s : State} {c : Nat} (hg : Grows z0 s) :
    Grows z0 (sampleShow s c) := by
  unfold sampleShow
  repeat' first
    | with_reducible exact hg | with_reducible assumption | with_reducible apply set_grows
    | with_reducible apply setb_grows | fail_if_no_progress (with_reducible refine mk_grows ?_ rfl)
    | with_reducible refine Grows.pair2 (by assumption) ?_
    | with_reducible refine Grows.pair1 (by assumption) ?_
    | with_reducible refine Grows.ofOpt (by assumption) ?_ | intro _ | split | dsimp only

theorem viewShow_grows {z0 : State} {s : State} {off : Nat} (hg : Grows z0 s) :
    Grows z0 (viewShow s off) := by
  unfold viewShow
  repeat' first
    | with_reducible exact hg | with_reducible assumption | with_reducible apply set_grows
    | with_reducible apply setb_grows | with_reducible apply stallCount_grows
    | with_reducible apply sweepStallCount_grows | with_reducible apply lostCount_grows
    | with_reducible apply nbShow_grows | with_reducible apply tciShow_grows
    | with_reducible apply tsfShow_grows | with_reducible apply permShow_grows
    | with_reducible apply needsShow_grows | with_reducible apply sampleShow_grows
    | fail_if_no_progress (with_reducible refine mk_grows ?_ rfl)
    | with_reducible refine Grows.pair2 (by assumption) ?_
    | with_reducible refine Grows.pair1 (by assumption) ?_
    | with_reducible refine Grows.ofOpt (by assumption) ?_ | intro _ | split | dsimp only

theorem channelRead_grows {z0 : State} {s : State} {m : Master} {n reg : Nat} (hg : Grows z0 s) :
    Grows z0 (channelRead s m n reg) := by
  unfold channelRead
  repeat' first
    | with_reducible exact hg | with_reducible assumption | with_reducible apply setb_grows
    | with_reducible apply chanAccess_grows | fail_if_no_progress (with_reducible refine mk_grows ?_ rfl)
    | with_reducible refine Grows.pair2 (by assumption) ?_
    | with_reducible refine Grows.pair1 (by assumption) ?_
    | with_reducible refine Grows.ofOpt (by assumption) ?_ | intro _ | split | dsimp only

theorem busRead_grows {z0 : State} {s : State} {m : Master} {off : Nat} (hg : Grows z0 s) :
    Grows z0 (busRead s m off) := by
  unfold busRead
  repeat' first
    | with_reducible exact hg | with_reducible assumption | with_reducible apply drawFree_grows
    | with_reducible apply semTake_grows | with_reducible apply channelRead_grows
    | fail_if_no_progress (with_reducible refine mk_grows ?_ rfl)
    | with_reducible refine Grows.pair2 (by assumption) ?_
    | with_reducible refine Grows.pair1 (by assumption) ?_
    | with_reducible refine Grows.ofOpt (by assumption) ?_ | intro _ | split | dsimp only

theorem readWord_grows {z0 : State} {s : State} (hg : Grows z0 s) :
    Grows z0 (readWord s).2 := by
  unfold readWord
  repeat' first
    | with_reducible exact hg | with_reducible assumption | with_reducible apply drawFree_grows
    | fail_if_no_progress (with_reducible refine mk_grows ?_ rfl)
    | with_reducible refine Grows.pair2 (by assumption) ?_
    | with_reducible refine Grows.pair1 (by assumption) ?_
    | with_reducible refine Grows.ofOpt (by assumption) ?_ | intro _ | split | dsimp only

theorem controlEnd_grows {z0 : State} {s : State} {r : Nat} {d : List Byte} {result : Option Nat} {status : Nat} (hg : Grows z0 s) :
    Grows z0 (controlEnd s r d result status) := by
  unfold controlEnd
  repeat' first
    | with_reducible exact hg | with_reducible assumption | with_reducible apply onRing_grows
    | with_reducible apply memOut_grows | with_reducible apply ringCause_grows
    | with_reducible apply consume_grows | fail_if_no_progress (with_reducible refine mk_grows ?_ rfl)
    | with_reducible refine Grows.pair2 (by assumption) ?_
    | with_reducible refine Grows.pair1 (by assumption) ?_
    | with_reducible refine Grows.ofOpt (by assumption) ?_ | intro _ | split | dsimp only

theorem pollOnce_grows {z0 : State} {s : State} {r : Nat} {d : List Byte} {deadline : Nat} (hg : Grows z0 s) :
    Grows z0 (pollOnce s r d deadline) := by
  unfold pollOnce
  repeat' first
    | with_reducible exact hg | with_reducible assumption | with_reducible apply onRing_grows
    | with_reducible apply busRead_grows | with_reducible apply readWord_grows
    | with_reducible apply controlEnd_grows | fail_if_no_progress (with_reducible refine mk_grows ?_ rfl)
    | with_reducible refine Grows.pair2 (by assumption) ?_
    | with_reducible refine Grows.pair1 (by assumption) ?_
    | with_reducible refine Grows.ofOpt (by assumption) ?_ | intro _ | split | dsimp only

theorem controlDescriptor_grows {z0 : State} {s : State} {r : Nat} {d : List Byte} {reads : BusReads} (hg : Grows z0 s) :
    Grows z0 (controlDescriptor s r d reads) := by
  unfold controlDescriptor
  repeat' first
    | with_reducible exact hg | with_reducible assumption | with_reducible apply onRing_grows
    | with_reducible apply busWrite_grows | with_reducible apply busRead_grows
    | with_reducible apply readWord_grows | with_reducible apply controlEnd_grows
    | with_reducible apply pollOnce_grows | fail_if_no_progress (with_reducible refine mk_grows ?_ rfl)
    | with_reducible refine Grows.pair2 (by assumption) ?_
    | with_reducible refine Grows.pair1 (by assumption) ?_
    | with_reducible refine Grows.ofOpt (by assumption) ?_ | intro _ | split | dsimp only

theorem controlPollEnd_grows {z0 : State} {s : State} {r : Nat} (hg : Grows z0 s) :
    Grows z0 (controlPollEnd s r) := by
  unfold controlPollEnd
  repeat' first
    | with_reducible exact hg | with_reducible assumption | with_reducible apply pollOnce_grows
    | fail_if_no_progress (with_reducible refine mk_grows ?_ rfl)
    | with_reducible refine Grows.pair2 (by assumption) ?_
    | with_reducible refine Grows.pair1 (by assumption) ?_
    | with_reducible refine Grows.ofOpt (by assumption) ?_ | intro _ | split | dsimp only

/-! ### Act -/

theorem radiated_grows {z0 : State} {s : State} {e : TxEnd} (hg : Grows z0 s) :
    Grows z0 (radiated s e) := by
  unfold radiated
  repeat' first
    | with_reducible exact hg | with_reducible assumption | with_reducible apply fusRadiated_grows
    | with_reducible apply dwellAdd_grows | fail_if_no_progress (with_reducible refine mk_grows ?_ rfl)
    | with_reducible refine Grows.pair2 (by assumption) ?_
    | with_reducible refine Grows.pair1 (by assumption) ?_
    | with_reducible refine Grows.ofOpt (by assumption) ?_ | intro _ | split | dsimp only

theorem ackTxEnd_grows {z0 : State} {s : State} {e : TxEnd} (hg : Grows z0 s) :
    Grows z0 (ackTxEnd s e) := by
  unfold ackTxEnd
  repeat' first
    | with_reducible exact hg | with_reducible assumption | with_reducible apply onAmc_grows
    | with_reducible apply bump_grows | with_reducible apply pendListen_grows
    | fail_if_no_progress (with_reducible refine mk_grows ?_ rfl)
    | with_reducible refine Grows.pair2 (by assumption) ?_
    | with_reducible refine Grows.pair1 (by assumption) ?_
    | with_reducible refine Grows.ofOpt (by assumption) ?_ | intro _ | split | dsimp only

theorem txRoute_grows {z0 : State} {s : State} {e : TxEnd} (hg : Grows z0 s) :
    Grows z0 (txRoute s e) := by
  unfold txRoute
  repeat' first
    | with_reducible exact hg | with_reducible assumption | with_reducible apply bump_grows
    | with_reducible apply fusShow_grows | with_reducible apply runTxEnd_grows
    | with_reducible apply slotTxEnd_grows | with_reducible apply testTxEnd_grows
    | with_reducible apply slpTxEnd_grows | with_reducible apply radiated_grows
    | with_reducible apply ackTxEnd_grows | fail_if_no_progress (with_reducible refine mk_grows ?_ rfl)
    | with_reducible refine Grows.pair2 (by assumption) ?_
    | with_reducible refine Grows.pair1 (by assumption) ?_
    | with_reducible refine Grows.ofOpt (by assumption) ?_ | intro _ | split | dsimp only

theorem txDrain_grows {s0 : State} {n : Nat} {s : State} (h : Grows s0 s) : Grows s0 (txDrain n s) := by
  induction n generalizing s with
  | zero => exact h
  | succ n ih =>
    unfold txDrain
    split
    · exact h
    · exact ih (txRoute_grows (h.upd rfl rfl rfl rfl rfl rfl))

theorem begin_grows {s : State} {t : Nat} : Grows { s with ltb := max s.ltb t } (s.begin t) :=
  (Grows.refl _).upd rfl rfl rfl rfl rfl rfl

theorem finish_grows {z0 : State} {s : State} (hg : Grows z0 s) :
    Grows z0 (State.finish s) := by
  unfold State.finish
  repeat' first
    | with_reducible exact hg | with_reducible assumption | with_reducible apply classifyInbox_grows
    | with_reducible apply chrRises_grows | with_reducible apply chrSettle_grows
    | with_reducible apply txDrain_grows | fail_if_no_progress (with_reducible refine mk_grows ?_ rfl)
    | with_reducible refine Grows.pair2 (by assumption) ?_
    | with_reducible refine Grows.pair1 (by assumption) ?_
    | with_reducible refine Grows.ofOpt (by assumption) ?_ | intro _ | split | dsimp only

theorem targetFix_grows {z0 : State} {s : State} {x : Target} (hg : Grows z0 s) :
    Grows z0 (targetFix s x) := by
  unfold targetFix
  repeat' first
    | with_reducible exact hg | with_reducible assumption | with_reducible apply ttFix_grows
    | with_reducible apply epochFix_grows | with_reducible apply beaconFix_grows
    | with_reducible apply chainFix_grows | with_reducible apply windowFix_grows
    | fail_if_no_progress (with_reducible refine mk_grows ?_ rfl)
    | with_reducible refine Grows.pair2 (by assumption) ?_
    | with_reducible refine Grows.pair1 (by assumption) ?_
    | with_reducible refine Grows.ofOpt (by assumption) ?_ | intro _ | split | dsimp only

theorem refusalEpoch_grows {z0 : State} {s : State} (hg : Grows z0 s) :
    Grows z0 (refusalEpoch s) := by
  unfold refusalEpoch
  repeat' first
    | with_reducible exact hg | with_reducible assumption | with_reducible apply takeEffect_grows
    | with_reducible apply onAmc_grows | with_reducible apply raise_grows
    | fail_if_no_progress (with_reducible refine mk_grows ?_ rfl)
    | with_reducible refine Grows.pair2 (by assumption) ?_
    | with_reducible refine Grows.pair1 (by assumption) ?_
    | with_reducible refine Grows.ofOpt (by assumption) ?_ | intro _ | split | dsimp only

theorem countersEpoch_grows {z0 : State} {s : State} (hg : Grows z0 s) :
    Grows z0 (countersEpoch s) := by
  unfold countersEpoch
  repeat' first
    | with_reducible exact hg | with_reducible assumption | with_reducible apply stallCount_grows
    | with_reducible apply sweepStallCount_grows | with_reducible apply lostSettle_grows
    | with_reducible apply chrEpoch_grows | fail_if_no_progress (with_reducible refine mk_grows ?_ rfl)
    | with_reducible refine Grows.pair2 (by assumption) ?_
    | with_reducible refine Grows.pair1 (by assumption) ?_
    | with_reducible refine Grows.ofOpt (by assumption) ?_ | intro _ | split | dsimp only

theorem statisticsEpoch_grows {z0 : State} {s : State} (hg : Grows z0 s) :
    Grows z0 (statisticsEpoch s) := by
  unfold statisticsEpoch
  repeat' first
    | with_reducible exact hg | with_reducible assumption | with_reducible apply balEpoch_grows
    | with_reducible apply laneEpoch_grows | with_reducible apply expireAll_grows
    | with_reducible apply classifyInbox_grows | with_reducible apply classifierEpoch_grows
    | with_reducible apply refusalEpoch_grows | with_reducible apply countersEpoch_grows
    | fail_if_no_progress (with_reducible refine mk_grows ?_ rfl)
    | with_reducible refine Grows.pair2 (by assumption) ?_
    | with_reducible refine Grows.pair1 (by assumption) ?_
    | with_reducible refine Grows.ofOpt (by assumption) ?_ | intro _ | split | dsimp only

/-! ### CoreBus -/

theorem ramWrite_grows {s0 : State} {s : State} {a : Nat} {l : List Byte} (h : Grows s0 s) : Grows s0 (ramWrite s a l) :=
  h.trans ⟨rfl, id, Memory.wf_writes a l, id, id, fun x => ⟨x, Nat.le_refl _⟩, fun _ x => x, Nat.le_refl _⟩

theorem coreValue_grows {z0 : State} {s : State} {l : List Byte} (hg : Grows z0 s) :
    Grows z0 (coreValue s l) := by
  unfold coreValue
  repeat' first
    | with_reducible exact hg | with_reducible assumption
    | fail_if_no_progress (with_reducible refine mk_grows ?_ rfl)
    | with_reducible refine Grows.pair2 (by assumption) ?_
    | with_reducible refine Grows.pair1 (by assumption) ?_
    | with_reducible refine Grows.ofOpt (by assumption) ?_ | intro _ | split | dsimp only

theorem coreWrite_grows {z0 : State} {s : State} {m : Master} {a n : Nat} {l : List Byte} {reads : BusReads} (hg : Grows z0 s) :
    Grows z0 (coreWrite s m a n l reads) := by
  unfold coreWrite
  repeat' first
    | with_reducible exact hg | with_reducible assumption | with_reducible apply pageAccess_grows
    | with_reducible apply busWrite_grows | with_reducible apply ramWrite_grows
    | fail_if_no_progress (with_reducible refine mk_grows ?_ rfl)
    | with_reducible refine Grows.pair2 (by assumption) ?_
    | with_reducible refine Grows.pair1 (by assumption) ?_
    | with_reducible refine Grows.ofOpt (by assumption) ?_ | intro _ | split | dsimp only

theorem coreRead_grows {z0 : State} {s : State} {m : Master} {a n : Nat} (hg : Grows z0 s) :
    Grows z0 (coreRead s m a n) := by
  unfold coreRead
  repeat' first
    | with_reducible exact hg | with_reducible assumption | with_reducible apply pageAccess_grows
    | with_reducible apply busRead_grows | with_reducible apply coreValue_grows
    | fail_if_no_progress (with_reducible refine mk_grows ?_ rfl)
    | with_reducible refine Grows.pair2 (by assumption) ?_
    | with_reducible refine Grows.pair1 (by assumption) ?_
    | with_reducible refine Grows.ofOpt (by assumption) ?_ | intro _ | split | dsimp only

theorem registerWrite_grows {z0 : State} {s : State} {m : Master} {off val : Nat} {reads : BusReads} (hg : Grows z0 s) :
    Grows z0 (registerWrite s m off val reads) := by
  unfold registerWrite
  repeat' first
    | with_reducible exact hg | with_reducible assumption | with_reducible apply busWrite_grows
    | with_reducible apply coreWrite_grows | fail_if_no_progress (with_reducible refine mk_grows ?_ rfl)
    | with_reducible refine Grows.pair2 (by assumption) ?_
    | with_reducible refine Grows.pair1 (by assumption) ?_
    | with_reducible refine Grows.ofOpt (by assumption) ?_ | intro _ | split | dsimp only

theorem narrowAccess_grows {z0 : State} {s : State} {m : Master} {off n : Nat} {x : NarrowAccess} (hg : Grows z0 s) :
    Grows z0 (narrowAccess s m off n x) := by
  unfold narrowAccess
  repeat' first
    | with_reducible exact hg | with_reducible assumption | with_reducible apply unsupported_grows
    | with_reducible apply coreWrite_grows | with_reducible apply coreRead_grows
    | fail_if_no_progress (with_reducible refine mk_grows ?_ rfl)
    | with_reducible refine Grows.pair2 (by assumption) ?_
    | with_reducible refine Grows.pair1 (by assumption) ?_
    | with_reducible refine Grows.ofOpt (by assumption) ?_ | intro _ | split | dsimp only

end Sys2Proof.Machine
end

