-- ==== Sys2Proof/Laws/GrowsAround.lean ====
section
/-! SUPPORT. `Grows` for a whole command: what stands around its effect, and the effects that reach over several blocks. -/

set_option Elab.async false

namespace Sys2Proof.Machine

variable {z0 s u : State} {t : Nat} {f : State → State}

theorem angleSkipped_grows {a : State} (h : Grows z0 s) : Grows z0 (angleSkipped a s) :=
  decisionsLate_grows (beaconsLate_grows h)

theorem cycleStartAll_grows (h : Grows z0 s) : Grows z0 (cycleStartAll s) := by
  unfold cycleStartAll
  repeat' first
    | exact h | assumption | apply cycleStart_grows | apply nbCycle_grows | apply angleSkipped_grows | split | dsimp only

theorem phaseStepAll_grows (h : Grows z0 s) : Grows z0 (phaseStepAll s) := by
  unfold phaseStepAll
  repeat' first
    | exact h | assumption | apply phaseStep_grows | apply angleSkipped_grows | split | dsimp only

theorem tciEdgeAll_grows {n w : Nat} {r : Bool} (h : Grows z0 s) : Grows z0 (tciEdgeAll s n r w) := by
  unfold tciEdgeAll
  repeat' first
    | exact h | assumption | apply chrTci_grows | apply tciCapture_grows | apply standbyWake_grows | split | dsimp only

theorem ethRxAll_grows {i ts : Nat} {l : List Byte} (h : Grows z0 s) : Grows z0 (ethRxAll s i ts l) := by
  unfold ethRxAll
  dsimp only
  split
  · exact standbyWake_grows (ethRxFrame_grows h)
  · exact ethRxFrame_grows h

/-- The invariant goes with what no operation undoes. -/
theorem Grows.inv (g : Grows s u) (h : s.Inv) : u.Inv := ⟨g.store h.1, g.mem h.2.1, g.fields h.2.2.1, g.claims h.2.2.2.1, (g.lc h.2.2.2.2).1⟩

/-- A command whose effect undoes nothing undoes nothing, from the instant it happens at on. -/
theorem act_grows (hf : ∀ z v, Grows z v → Grows z (f v)) (h : act t s f = .next u) :
    Grows { s with ltb := max s.ltb t } u := by
  unfold act at h
  injection h with h
  rw [← h]
  have b := begin_grows (s := s) (t := t)
  split
  · exact b.upd rfl rfl rfl rfl rfl rfl
  · exact (finish_grows (hf _ _ b)).upd rfl rfl rfl rfl rfl rfl

/-- The same for a command of the reset domain. -/
theorem actReset_grows (hf : ∀ z v, Grows z v → Grows z (f v)) (h : actReset t s f = .next u) :
    Grows { s with ltb := max s.ltb t } u := by
  unfold actReset at h
  injection h with h
  rw [← h]
  exact (finish_grows (hf _ _ (begin_grows (s := s) (t := t)))).upd rfl rfl rfl rfl rfl rfl

end Sys2Proof.Machine
end

