-- ==== Sys2Proof/Tests/Slice0.lean ====
section
/-! SUPPORT. Tests: an ill-formed command for each check of well-formedness, and for every statement with hypotheses a
concrete state and operands that meet those of each of its clauses. -/

set_option synthInstance.maxSize 4000
set_option synthInstance.maxHeartbeats 400000
set_option Elab.async false
set_option linter.unusedVariables false

namespace Sys2Proof.Tests

open Sys2Proof Sys2Proof.Machine

/-- The state that the witnesses start from. -/
def blank : State := {}

/-- The outcome is a next state. -/
def isNext : Host.Outcome State Fault Refusal → Bool
  | .next _ => true
  | _ => false

/-- A well-formed transmit command. -/
def frame : TxCmd :=
  { id := 1, issuer := .async, cls := .async, freq := 868000, power := none, start := none, airUs := 900, profile := 3,
    occHz := 200000, psdu := [1, 2, 3], ref := 0 }

/-! ### Well-formedness -/

theorem test_wf_txCommand : (Instr.txCommand 0 0 frame).wf = true := by decide
theorem test_wf_registerWrite : (Instr.registerWrite 0 .host 0x1FFFFC 0 {}).wf = true := by decide
theorem test_ill_registerWrite_offset : (Instr.registerWrite 0 .host 0x200000 0 {}).wf = false := by decide +kernel
theorem test_ill_registerWrite_alignment : (Instr.registerWrite 0 .host 0x6 0 {}).wf = false := by decide +kernel
theorem test_ill_unsupportedAccess_empty : (Instr.unsupportedAccess 0 .host 0 0 (.bar0 true)).wf = false := by decide +kernel
theorem test_ill_unsupportedAccess_wide : (Instr.unsupportedAccess 0 .host 0 5 (.bar0 true)).wf = false := by decide +kernel
theorem test_ill_unsupportedAccess_window : (Instr.unsupportedAccess 0 .host 0x1FFFFF 2 (.bar0 true)).wf = false := by decide +kernel
theorem test_ill_unsupportedAccess_supported : (Instr.unsupportedAccess 0 .host 8 4 (.bar0 true)).wf = false := by decide +kernel
theorem test_ill_unsupportedAccess_host : (Instr.unsupportedAccess 0 .host 0 4 (.core 0x80000000 none)).wf = false := by decide +kernel
theorem test_ill_unsupportedAccess_data : (Instr.unsupportedAccess 0 .crown 0 4 (.core 0 (some [1, 2]))).wf = false := by decide +kernel
theorem test_ill_registerWrite_upset : (Instr.registerWrite 0 .host 8 0 { upset := [262144] }).wf = false := by decide +kernel
theorem test_ill_registerWrite_core : (Instr.registerWrite 0 .host 8 0 { core := some 2 }).wf = false := by decide +kernel
theorem test_ill_controlDescriptor_upset : (Instr.controlDescriptor 0 0 (List.replicate 32 0) { upset := [262144] }).wf = false := by decide +kernel
theorem test_ill_gridAinCrossing_s1 : (Instr.gridAinCrossing 0 0 (-2049) 0 0 0).wf = false := by decide +kernel
theorem test_ill_gridAinCrossing_s2 : (Instr.gridAinCrossing 0 0 0 2048 0 0).wf = false := by decide +kernel
theorem test_ill_gridAinCrossing_lowest : (Instr.gridAinCrossing 0 0 0 0 2048 0).wf = false := by decide +kernel
theorem test_ill_gridAinCrossing_highest : (Instr.gridAinCrossing 0 0 0 0 0 (-2049)).wf = false := by decide +kernel
theorem test_ill_targetFix_window : (Instr.targetFix 0 (.window 131072 [])).wf = false := by decide +kernel
theorem test_ill_targetFix_upset : (Instr.targetFix 0 (.window 0 [262144])).wf = false := by decide +kernel
theorem test_ill_burstDone_length : (Instr.burstDone 0 (List.replicate 1025 0)).wf = false := by decide +kernel
theorem test_ill_rxStartcalDone_ir : (Instr.rxStartcalDone 0 0 (List.replicate 15 0) (List.replicate 20 0)).wf = false := by decide +kernel
theorem test_ill_rxStartcalDone_steps : (Instr.rxStartcalDone 0 0 (List.replicate 16 0) (List.replicate 21 0)).wf = false := by decide +kernel
theorem test_ill_adcOverload_clipped : (Instr.adcOverload 0 0 65 true).wf = false := by decide +kernel
theorem test_ill_blankEnd_ir : (Instr.blankEnd 0 0 (List.replicate 17 0)).wf = false := by decide +kernel
theorem test_ill_irUpdate_ir : (Instr.irUpdate 0 0 (List.replicate 15 none)).wf = false := by decide +kernel
theorem test_ill_txCommand_freq : (Instr.txCommand 0 0 { frame with freq := 2 ^ 22 }).wf = false := by decide +kernel
theorem test_ill_txCommand_power : (Instr.txCommand 0 0 { frame with power := some 256 }).wf = false := by decide +kernel
theorem test_ill_txCommand_profile : (Instr.txCommand 0 0 { frame with profile := 32 }).wf = false := by decide +kernel
theorem test_ill_txCommand_psdu : (Instr.txCommand 0 0 { frame with psdu := List.replicate 2048 0 }).wf = false := by decide +kernel
theorem test_ill_rampdnComplete_detAdc : (Instr.rampdnComplete 0 0 { detAdc := 4096, iso := 0, ana := 0, dig := 0 }).wf = false := by decide +kernel
theorem test_ill_oncalComplete_table : (Instr.oncalComplete 0 ⟨0, { table := List.replicate 96 0 }⟩).wf = false := by decide +kernel
theorem test_ill_coeffAdapt_taps : (Instr.coeffAdapt 0 0 (List.replicate 7 {}) (List.replicate 24 {}) []).wf = false := by decide +kernel
theorem test_ill_coeffAdapt_coefs : (Instr.coeffAdapt 0 0 (List.replicate 8 {}) (List.replicate 25 {}) []).wf = false := by decide +kernel
theorem test_ill_laneFrameEnd_psdu : (Instr.laneFrameEnd 0 0 (List.replicate 2048 0) 0 {}).wf = false := by decide +kernel
theorem test_ill_frameRecord_upset : (Instr.frameRecord 0 0 [262144]).wf = false := by decide +kernel
theorem test_ill_uplinkDecrypt_prefix : (Instr.uplinkDecrypt 0 0 [4096] [] false).wf = false := by decide +kernel
theorem test_ill_uplinkDecrypt_node : (Instr.uplinkDecrypt 0 0 [] [262144] false).wf = false := by decide +kernel
theorem test_ill_downlinkIngress_prefix : (Instr.downlinkIngress 0 .eth0 [4096] []).wf = false := by decide +kernel
theorem test_ill_downlinkIngress_node : (Instr.downlinkIngress 0 .eth0 [] [262144]).wf = false := by decide +kernel
theorem test_ill_routeBuild_upset : (Instr.routeBuild 0 0 { upset := [262144] }).wf = false := by decide +kernel
theorem test_ill_tagAdmission_upset : (Instr.tagAdmission 0 .eth0 [262144]).wf = false := by decide +kernel
theorem test_ill_asyncRelease_upset : (Instr.asyncRelease 0 ⟨0, [262144]⟩).wf = false := by decide +kernel
theorem test_ill_ntLookup_upset : (Instr.ntLookup 0 0 [262144]).wf = false := by decide +kernel
theorem test_ill_ntInsertPrimary_upset : (Instr.ntInsertPrimary 0 [262144]).wf = false := by decide +kernel
theorem test_ill_ntDelete_upset : (Instr.ntDelete 0 0 [262144]).wf = false := by decide +kernel
theorem test_ill_ntSetParent_upset : (Instr.ntSetParent 0 [262144]).wf = false := by decide +kernel
theorem test_ill_ntInsertAlias_upset : (Instr.ntInsertAlias 0 [262144]).wf = false := by decide +kernel
theorem test_ill_ntRead_upset : (Instr.ntRead 0 [262144]).wf = false := by decide +kernel
theorem test_ill_ntRepair_upset : (Instr.ntRepair 0 0 [262144]).wf = false := by decide +kernel
theorem test_ill_ptInsert_upset : (Instr.ptInsert 0 ⟨0, [4096]⟩).wf = false := by decide +kernel
theorem test_ill_ptDelete_upset : (Instr.ptDelete 0 ⟨0, [4096]⟩).wf = false := by decide +kernel
theorem test_ill_ethRxFrame_long : (Instr.ethRxFrame 0 0 0 (List.replicate 65537 0)).wf = false := by decide +kernel
theorem test_ill_wiredPortRelease_ring : (Instr.wiredPortRelease 0 2 [(128, [])]).wf = false := by decide +kernel
theorem test_ill_descriptorFetch_count : (Instr.descriptorFetch 0 0 (List.replicate 9 (List.replicate 32 0))).wf = false := by decide +kernel
theorem test_ill_descriptorFetch_length : (Instr.descriptorFetch 0 0 [List.replicate 31 0]).wf = false := by decide +kernel
theorem test_ill_controlDescriptor_length : (Instr.controlDescriptor 0 0 (List.replicate 33 0) {}).wf = false := by decide +kernel

/-- An image header of component 1, signed with the key whose hash is `imageKey`; its body is the octet 5. -/
def image1 : List Byte :=
  [75, 90, 73, 77, 1, 1, 0, 1, 40, 129, 0, 0, 176, 0, 255, 1, 0, 0, 0, 0, 1, 0, 0, 0, 7, 0, 0, 0, 2, 0, 0, 0, 0, 0, 0,
  0, 255, 255, 255, 255, 0, 0, 0, 0, 255, 255, 255, 255, 0, 0, 0, 0, 255, 255, 255, 255, 0, 0, 0, 0, 0, 0, 0, 0, 107,
  23, 209, 242, 225, 44, 66, 71, 248, 188, 230, 229, 99, 164, 64, 242, 119, 3, 125, 129, 45, 235, 51, 160, 244, 161,
  57, 69, 216, 152, 194, 150, 79, 227, 66, 226, 254, 26, 127, 155, 142, 231, 235, 74, 124, 15, 158, 22, 43, 206, 51,
  87, 107, 49, 94, 206, 203, 182, 64, 104, 55, 191, 81, 245, 231, 123, 154, 154, 233, 227, 11, 13, 189, 182, 245, 16,
  162, 100, 239, 157, 231, 129, 80, 29, 123, 107, 146, 174, 137, 235, 5, 156, 90, 183, 67, 219, 0, 0, 0, 0, 0, 0, 0,
  0, 0, 0, 0, 0, 0, 0, 0, 0, 0, 0, 0, 0, 0, 0, 0, 0, 0, 0, 0, 0, 0, 0, 0, 0, 107, 23, 209, 242, 225, 44, 66, 71, 248,
  188, 230, 229, 99, 164, 64, 242, 119, 3, 125, 129, 45, 235, 51, 160, 244, 161, 57, 69, 216, 152, 194, 150, 222, 29,
  194, 113, 128, 156, 33, 66, 26, 116, 51, 210, 98, 137, 185, 115, 0, 117, 216, 86, 225, 248, 160, 157, 83, 252, 186,
  161, 21, 14, 51, 196]

/-- An image header of component 2, signed with the key whose hash is `imageKey`; its body is the octet 5. -/
def image2 : List Byte :=
  [75, 90, 73, 77, 1, 2, 0, 1, 40, 129, 0, 0, 176, 0, 255, 1, 0, 0, 0, 0, 1, 0, 0, 0, 7, 0, 0, 0, 2, 0, 0, 0, 0, 0, 0,
  0, 255, 255, 255, 255, 0, 0, 0, 0, 255, 255, 255, 255, 0, 0, 0, 0, 255, 255, 255, 255, 0, 0, 0, 0, 0, 0, 0, 0, 107,
  23, 209, 242, 225, 44, 66, 71, 248, 188, 230, 229, 99, 164, 64, 242, 119, 3, 125, 129, 45, 235, 51, 160, 244, 161,
  57, 69, 216, 152, 194, 150, 79, 227, 66, 226, 254, 26, 127, 155, 142, 231, 235, 74, 124, 15, 158, 22, 43, 206, 51,
  87, 107, 49, 94, 206, 203, 182, 64, 104, 55, 191, 81, 245, 231, 123, 154, 154, 233, 227, 11, 13, 189, 182, 245, 16,
  162, 100, 239, 157, 231, 129, 80, 29, 123, 107, 146, 174, 137, 235, 5, 156, 90, 183, 67, 219, 0, 0, 0, 0, 0, 0, 0,
  0, 0, 0, 0, 0, 0, 0, 0, 0, 0, 0, 0, 0, 0, 0, 0, 0, 0, 0, 0, 0, 0, 0, 0, 0, 107, 23, 209, 242, 225, 44, 66, 71, 248,
  188, 230, 229, 99, 164, 64, 242, 119, 3, 125, 129, 45, 235, 51, 160, 244, 161, 57, 69, 216, 152, 194, 150, 151, 32,
  41, 125, 147, 213, 24, 53, 3, 100, 197, 50, 245, 235, 84, 169, 41, 204, 41, 211, 90, 50, 90, 126, 178, 116, 50, 252,
  167, 7, 129, 197]

/-- An image header of component 3, signed with the key whose hash is `imageKey`; its body is the octet 5. -/
def image3 : List Byte :=
  [75, 90, 73, 77, 1, 3, 0, 1, 40, 129, 0, 0, 176, 0, 255, 1, 0, 0, 0, 0, 1, 0, 0, 0, 7, 0, 0, 0, 2, 0, 0, 0, 0, 0, 0,
  0, 255, 255, 255, 255, 0, 0, 0, 0, 255, 255, 255, 255, 0, 0, 0, 0, 255, 255, 255, 255, 0, 0, 0, 0, 0, 0, 0, 0, 107,
  23, 209, 242, 225, 44, 66, 71, 248, 188, 230, 229, 99, 164, 64, 242, 119, 3, 125, 129, 45, 235, 51, 160, 244, 161,
  57, 69, 216, 152, 194, 150, 79, 227, 66, 226, 254, 26, 127, 155, 142, 231, 235, 74, 124, 15, 158, 22, 43, 206, 51,
  87, 107, 49, 94, 206, 203, 182, 64, 104, 55, 191, 81, 245, 231, 123, 154, 154, 233, 227, 11, 13, 189, 182, 245, 16,
  162, 100, 239, 157, 231, 129, 80, 29, 123, 107, 146, 174, 137, 235, 5, 156, 90, 183, 67, 219, 0, 0, 0, 0, 0, 0, 0,
  0, 0, 0, 0, 0, 0, 0, 0, 0, 0, 0, 0, 0, 0, 0, 0, 0, 0, 0, 0, 0, 0, 0, 0, 0, 107, 23, 209, 242, 225, 44, 66, 71, 248,
  188, 230, 229, 99, 164, 64, 242, 119, 3, 125, 129, 45, 235, 51, 160, 244, 161, 57, 69, 216, 152, 194, 150, 106, 68,
  105, 80, 46, 28, 77, 215, 93, 187, 30, 146, 116, 48, 74, 144, 50, 156, 110, 139, 232, 160, 182, 252, 101, 114, 36,
  92, 234, 206, 101, 162]

def imageKey : List Byte :=
  [216, 117, 219, 125, 239, 35, 34, 54, 174, 199, 56, 198, 176, 187, 62, 128, 20, 47, 93, 15, 216, 244, 223, 36, 254,
  214, 238, 245, 203, 181, 13, 159]

/-! ### The hypotheses of the statements are met -/

theorem test_StepTakesTheFront_met :
    (∃ (c : Instr) (rest : List Instr) (s : State), s.pending = c :: rest) ∧ ∃ s : State, s.pending = [] :=
  ⟨⟨.snap 5, [.balEnable 7], { pending := [.snap 5, .balEnable 7] }, rfl⟩, {}, rfl⟩

theorem test_StepKeepsInv_met :
    let s : State := { ({ blank with jwl := { lcTarget := some (2, 7) }, fuses := { lcState := 1, rollback := 3 }, pending := [.snap 5] } : State) with claims := [(3, ⟨false, 4⟩), (31, ⟨true, 5⟩)] }
    Memory.wf s.store = true ∧ Memory.wf s.hif.mem = true ∧ rising s.fields = true ∧ rising s.claims = true ∧ s.jwl.lcTarget = some (2, 7) ∧
      s.fuses.lcState ≤ 2 ∧ isNext (step s) = true := by decide +kernel

theorem test_FusesOnlyGoForward_met :
    let s : State := { ({ blank with jwl := { lcTarget := some (2, 7) }, fuses := { lcState := 1, rollback := 3, signer1 := some [9] }, pending := [.snap 5] } : State) with claims := [(3, ⟨false, 4⟩), (31, ⟨true, 5⟩)] }
    Memory.wf s.store = true ∧ Memory.wf s.hif.mem = true ∧ rising s.fields = true ∧ rising s.claims = true ∧ s.jwl.lcTarget = some (2, 7) ∧
      s.fuses.lcState ≤ 2 ∧ s.fuses.signer1 = some [9] ∧ isNext (step s) = true := by decide +kernel

theorem test_TimeDoesNotGoBack_met : isNext (exec (.snap 5) blank) = true ∧
    isNext (exec (.chipResetRelease 5) { blank with pwr := { held := true }, ltb := 77 }) = true := by decide +kernel

theorem test_HeldResetGates_met : let s : State := { blank with pwr := { held := true } }
    s.pwr.held = true ∧ resetDomain (.snap 5) = false ∧ isNext (exec (.snap 5) s) = true := by decide +kernel

theorem test_ChannelConfiguration_met :
    (let t : Nat := 1000; let m : Master := (.coreNs 3); let n : Fin 32 := 15; let val : Word := 0;
      let s : State := (blank); s.settled ∧ masterNow s m = m ∧ (endpointOf m).2 = false) ∧
    (let t : Nat := 1000; let m : Master := (.coreS 3); let n : Fin 32 := 15; let val : Word := 0x51;
      let a : Nat := 0; let c : Nat := 5; let s : State := (blank); s.settled ∧ masterNow s m = m ∧
      (endpointOf m).2 = true ∧ s.get (Reg.MBX_CH_CFG_enable n) = 0 ∧ bits val.toNat 0 1 = 1 ∧
      a = bits val.toNat 1 3 ∧ c = bits val.toNat 4 3 ∧ (a = c ∨ 4 < a ∨ 4 < c ∨ (a = 0 ∨ c = 0) ∧
      (n.val < 16 ∨ s.get Reg.HIF_STATUS_standalone ≠ 0))) ∧
    (let t : Nat := 1000; let m : Master := (.coreS 3); let n : Fin 32 := 15; let val : Word := 0x50;
      let s : State := ({ blank with
        mbx := {
          chans := [(15, {
            msgs := [{ words := [1], txEpoch := 3, rxEpoch := 4, seq := 9 }], seq := 1 })] } }); s.settled ∧
      masterNow s m = m ∧ (endpointOf m).2 = true ∧ bits val.toNat 0 1 = 0) := by
  refine ⟨?_, ?_, ?_⟩ <;> decide +kernel

theorem test_BalanceEnableCompletes_met :
    (let t : Nat := 1000; let s : State := ((blank.set Reg.BAL_CTRL_enable 0).set Reg.BAL_STATUS_refclk_unlocked 0);
      s.settled ∧ s.get Reg.BAL_CTRL_enable = 0 ∧ s.get Reg.BAL_STATUS_refclk_unlocked = 0 ∧
      (s.get Reg.BAL_GRID_CFG_source = 0 ∨ claimFree s 0x0E 14 = true)) ∧
    (let t : Nat := 1000; let s : State := (blank.set Reg.BAL_CTRL_enable 1); s.settled ∧
      s.get Reg.BAL_CTRL_enable ≠ 0) ∧
    (let t : Nat := 1000; let s : State := (blank.set Reg.BAL_STATUS_state 2); s.settled ∧
      s.get Reg.BAL_STATUS_state ≠ 0) ∧
    (let t : Nat := 1000; let s : State := (blank); s.settled) := by
  refine ⟨?_, ?_, ?_, ?_⟩ <;> decide +kernel

theorem test_CrossingsComplete_met :
    (let t : Nat := 1000; let c : Cycle := (⟨7, 0, 20000000⟩); let r : List Cycle := [⟨6, -20000000, 20000000⟩];
      let s : State := (((blank.set Reg.BAL_STATUS_state 2).onBal (fun x => { x with
        cycles := [⟨7, 0, 20000000⟩, ⟨6, -20000000, 20000000⟩], lastZc := none,
        lastAin := none })).onBal (fun x => { x with lastZc := some (-19999000) }) |>.set Reg.BAL_GRID_CFG_nominal 0
      |>.set Reg.BAL_GRID_CFG_source 0 |>.set Reg.BAL_ZC_DELAY_zc_delay 100 |>.set Reg.BAL_LOCK_CFG_window 2000);
      let rising : Bool := (!s.on Reg.BAL_GRID_CFG_zc_invert);
      let e : Int := ((max s.ltb t : Nat) - (s.get Reg.BAL_ZC_DELAY_zc_delay : Int) - c.s); s.settled ∧
      s.bal.cycles = c :: r ∧ s.get Reg.BAL_STATUS_state = 2 ∧ (s.get Reg.BAL_GRID_CFG_source = 0 ∨
      s.get Reg.BAL_GRID_CFG_source = 2 ∧ s.get Reg.BAL_STATUS_source_act = 0) ∧
      rising ≠ s.on Reg.BAL_GRID_CFG_zc_invert ∧
      inRange s s.bal.lastZc ((max s.ltb t : Nat) - (s.get Reg.BAL_ZC_DELAY_zc_delay : Int)) = true ∧
      e = (max s.ltb t : Nat) - (s.get Reg.BAL_ZC_DELAY_zc_delay : Int) - c.s ∧ 2 * e ≤ c.len ∧
      e.natAbs ≤ s.get Reg.BAL_LOCK_CFG_window * 1000) ∧
    (let t : Nat := 1000; let c : Cycle := (⟨7, 0, 20000000⟩); let r : List Cycle := [⟨6, -20000000, 20000000⟩];
      let t1 : Nat := 4000; let s1 : Int := (-100); let s2 : Int := 300; let lo : Int := (-10000000);
      let hi : Int := 10000000; let s : State := (((blank.set Reg.BAL_STATUS_state 2).onBal (fun x => { x with
        cycles := [⟨7, 0, 20000000⟩, ⟨6, -20000000, 20000000⟩], lastZc := none,
        lastAin := none })).onBal (fun x => { x with lastAin := some (-20000000) }) |>.set Reg.BAL_GRID_CFG_nominal 0
      |>.set Reg.BAL_GRID_CFG_source 1 |>.set Reg.BAL_ZC_DELAY_zc_delay 100 |>.set Reg.BAL_LOCK_CFG_window 2000);
      let e : Int := ((t1 : Int) + (-s1) * 10000 / (s2 - s1) - 12000 - (s.get Reg.BAL_ZC_DELAY_zc_delay : Int) - c.s);
      s.settled ∧ s.bal.cycles = c :: r ∧ s.get Reg.BAL_STATUS_state = 2 ∧ (s.get Reg.BAL_GRID_CFG_source = 1 ∨
      s.get Reg.BAL_GRID_CFG_source = 2 ∧ s.get Reg.BAL_STATUS_source_act ≠ 0) ∧
      inRange s s.bal.lastAin (e + c.s) = true ∧ s1 < 0 ∧ 0 ≤ s2 ∧ lo < -(s.get Reg.BAL_AIN_CFG_hyst : Int) ∧
      (s.get Reg.BAL_AIN_CFG_hyst : Int) < hi ∧
      e = (t1 : Int) + (-s1) * 10000 / (s2 - s1) - 12000 - (s.get Reg.BAL_ZC_DELAY_zc_delay : Int) - c.s ∧
      2 * e ≤ c.len ∧ e.natAbs ≤ s.get Reg.BAL_LOCK_CFG_window * 1000) ∧
    (let t : Nat := 1000; let c : Cycle := (⟨7, 0, 20000000⟩); let r : List Cycle := [⟨6, -20000000, 20000000⟩];
      let s : State := (((blank.set Reg.BAL_STATUS_state 2).onBal (fun x => { x with
        cycles := [⟨7, 0, 20000000⟩, ⟨6, -20000000, 20000000⟩], lastZc := none,
        lastAin := none })).set Reg.BAL_STATUS_state 1 |>.set Reg.BAL_GRID_CFG_source 0 |>.set
      Reg.BAL_ZC_DELAY_zc_delay 100 |>.set Reg.BAL_GRID_CFG_rl_count 3 |>.onBal
      (fun x => { x with setZc := [-20000000] })); let rising : Bool := (!s.on Reg.BAL_GRID_CFG_zc_invert);
      let z : Int := ((max s.ltb t : Nat) - (s.get Reg.BAL_ZC_DELAY_zc_delay : Int)); s.settled ∧
      s.bal.cycles = c :: r ∧ 1 ≤ s.get Reg.BAL_STATUS_state ∧ s.get Reg.BAL_STATUS_state ≠ 2 ∧
      s.get Reg.BAL_GRID_CFG_source ≠ 1 ∧ rising ≠ s.on Reg.BAL_GRID_CFG_zc_invert ∧
      z = (max s.ltb t : Nat) - (s.get Reg.BAL_ZC_DELAY_zc_delay : Int) ∧ inRange s s.bal.lastZc z = true ∧
      2 * (z - c.s) ≤ c.len ∧ (consistentSet s s.bal.setZc z).length < max 2 (s.get Reg.BAL_GRID_CFG_rl_count)) ∧
    (let t : Nat := 1000; let c : Cycle := (⟨7, 0, 20000000⟩); let r : List Cycle := [⟨6, -20000000, 20000000⟩];
      let s : State := (((blank.set Reg.BAL_STATUS_state 2).onBal (fun x => { x with
        cycles := [⟨7, 0, 20000000⟩, ⟨6, -20000000, 20000000⟩], lastZc := none,
        lastAin := none })).set Reg.BAL_GRID_CFG_source 0 |>.set Reg.BAL_ZC_DELAY_zc_delay 100 |>.set
      Reg.BAL_LOCK_CFG_window 0); let rising : Bool := (!s.on Reg.BAL_GRID_CFG_zc_invert);
      let z : Int := ((max s.ltb t : Nat) - (s.get Reg.BAL_ZC_DELAY_zc_delay : Int)); s.settled ∧
      s.bal.cycles = c :: r ∧ s.get Reg.BAL_STATUS_state = 2 ∧ s.get Reg.BAL_GRID_CFG_source = 0 ∧
      rising ≠ s.on Reg.BAL_GRID_CFG_zc_invert ∧ z = (max s.ltb t : Nat) - (s.get Reg.BAL_ZC_DELAY_zc_delay : Int) ∧
      inRange s s.bal.lastZc z = true ∧ 2 * (z - c.s) ≤ c.len ∧
      s.get Reg.BAL_LOCK_CFG_window * 1000 < (z - c.s).natAbs) ∧
    (let t : Nat := 1000; let c : Cycle := (⟨7, 0, 20000000⟩); let r : List Cycle := [⟨6, -20000000, 20000000⟩];
      let s : State := (((blank.set Reg.BAL_STATUS_state 2).onBal (fun x => { x with
        cycles := [⟨7, 0, 20000000⟩, ⟨6, -20000000, 20000000⟩], lastZc := none,
        lastAin := none })).set Reg.BAL_GRID_CFG_miss_limit 5 |>.set Reg.BAL_LOCK_CFG_window 0); s.settled ∧
      s.bal.cycles = c :: r ∧ s.get Reg.BAL_STATUS_state = 2 ∧ s.bal.accepted ≠ some c.k ∧ s.bal.missed ≠ some c.k ∧
      c.s + s.get Reg.BAL_LOCK_CFG_window * 1000 ≤ (max s.ltb t : Nat) ∧
      s.bal.miss + 1 < s.get Reg.BAL_GRID_CFG_miss_limit) ∧
    (let t : Nat := 20000001; let c : Cycle := (⟨7, 0, 20000000⟩); let r : List Cycle := [⟨6, -20000000, 20000000⟩];
      let s : State := (((blank.set Reg.BAL_STATUS_state 2).onBal (fun x => { x with
        cycles := [⟨7, 0, 20000000⟩, ⟨6, -20000000, 20000000⟩], lastZc := none, lastAin := none }))); s.settled ∧
      s.bal.cycles = c :: r ∧ s.get Reg.BAL_STATUS_state = 2 ∧ s.bal.stall = none ∧
      c.s + c.len ≤ (max s.ltb t : Nat) ∧ s.bal.cycForce = false) ∧
    (let t : Nat := 20000001; let c : Cycle := (⟨7, 0, 20000000⟩); let r : List Cycle := [⟨6, -20000000, 20000000⟩];
      let s : State := ((((blank.set Reg.BAL_STATUS_state 2).onBal (fun x => { x with
        cycles := [⟨7, 0, 20000000⟩, ⟨6, -20000000, 20000000⟩], lastZc := none,
        lastAin := none })).onBal (fun x => { x with cycForce := true })).set Reg.BAL_CYC_LOAD_cyc_load 77);
      s.settled ∧ s.bal.cycles = c :: r ∧ s.get Reg.BAL_STATUS_state = 2 ∧ s.bal.stall = none ∧
      c.s + c.len ≤ (max s.ltb t : Nat) ∧ s.bal.cycForce = true) := by
  refine ⟨?_, ?_, ?_, ?_, ?_, ?_, ?_⟩ <;> decide +kernel

theorem test_PhaseCompletes_met :
    (let t : Nat := 1000; let due : Nat := 1000; let e : Int := (-3000); let c : Cycle := (⟨7, 0, 20000000⟩);
      let r : List Cycle := [⟨6, -20000000, 20000000⟩];
      let s : State := ((blank.set Reg.BAL_STATUS_state 3).onBal (fun x => { x with
        cycles := [⟨7, 0, 20000000⟩, ⟨6, -20000000, 20000000⟩], decision := some (due, e) })); s.settled ∧
      s.get Reg.BAL_STATUS_state ≠ 0 ∧ s.bal.decision = some (due, e) ∧ s.bal.cycles = c :: r ∧ due ≤ max s.ltb t ∧
      e < 0) ∧
    (let t : Nat := 1000; let due : Nat := 1000; let e : Int := 1;
      let s : State := ((blank.set Reg.BAL_STATUS_state 3).onBal (fun x => { x with
        cycles := [⟨7, 0, 20000000⟩, ⟨6, -20000000, 20000000⟩], decision := some (due, e) })); s.settled ∧
      s.get Reg.BAL_STATUS_state ≠ 0 ∧ s.bal.decision = some (due, e) ∧ due ≤ max s.ltb t ∧ 0 < e) ∧
    (let t : Nat := 1000; let due : Nat := 1000; let angle : Nat := 77; let len : Nat := 5;
      let c : Cycle := (⟨7, 0, 20000000⟩); let r : List Cycle := [⟨6, -20000000, 20000000⟩];
      let s : State := ((blank.set Reg.BAL_STATUS_state 3).onBal (fun x => { x with
        cycles := [⟨7, 0, 20000000⟩, ⟨6, -20000000, 20000000⟩], stall := some (due, angle, len) })); s.settled ∧
      s.get Reg.BAL_STATUS_state ≠ 0 ∧ s.bal.stall = some (due, angle, len) ∧ s.bal.cycles = c :: r ∧
      due ≤ max s.ltb t) ∧
    (let t : Nat := 1000; let n : Fin 8 := 7; let s : State := ((blank.set Reg.BAL_STATUS_state 3).onBal (fun x =>
      { x with
        cycles := [⟨7, 0, 20000000⟩, ⟨6, -20000000, 20000000⟩] }) |>.set (Reg.BAL_TT_STAT_armed n) 1 |>.setTt n
      { target := 7 * 65536 + 100 }); s.settled ∧ s.get Reg.BAL_STATUS_state ≠ 0 ∧
      s.get (Reg.BAL_TT_STAT_armed n) ≠ 0 ∧ (s.ttOf n).fixed = none ∧
      targetNear (s.now t) (s.ttOf n).target (s.get (Reg.BAL_TT_CTRL_lead n)) = true) ∧
    (let t : Nat := 19999000; let c : Cycle := (⟨7, 0, 20000000⟩); let r : List Cycle := [⟨6, -20000000, 20000000⟩];
      let m : Nat := 8; let s : State := ((blank.set Reg.BAL_STATUS_state 3).onBal (fun x => { x with
        cycles := [⟨7, 0, 20000000⟩, ⟨6, -20000000, 20000000⟩] }) |>.set Reg.BAL_EPOCH_LEN_epoch_len 8 |>.set
      Reg.BAL_SITE_PHASE_site_phase 0); s.settled ∧ s.get Reg.BAL_STATUS_state ≠ 0 ∧ s.bal.cycles = c :: r ∧
      s.bal.epochFixed = none ∧ m = nextEpochCycle s (liveAngle (s.now t) / 65536) ∧
      targetNear (s.now t) (m * 65536) 0 = true) := by
  refine ⟨?_, ?_, ?_, ?_, ?_⟩ <;> decide +kernel

theorem test_TimeTriggersComplete_met :
    (let t : Nat := 1000; let n : Fin 8 := 7;
      let s : State := ((blank.set (Reg.BAL_TT_CTRL_en n) 0).set (Reg.BAL_TT_CTRL_action n) 5); s.settled ∧
      s.get (Reg.BAL_TT_CTRL_en n) = 0 ∧ s.get (Reg.BAL_TT_CTRL_action n) < 6 ∧ claimFree s (n + 1) n = true ∧
      claimFree s (n + 1) (ttBallRes s n) = true) ∧
    (let t : Nat := 1000; let n : Fin 8 := 7;
      let s : State := ((blank.set (Reg.BAL_TT_CTRL_en n) 0).set (Reg.BAL_TT_CTRL_action n) 6); s.settled ∧
      s.get (Reg.BAL_TT_CTRL_en n) = 0 ∧ s.get (Reg.BAL_TT_CTRL_action n) = 6 ∧ claimFree s (n + 1) n = true ∧
      claimFree s (n + 1) (ttBallRes s n) = true ∧ claimFree s 0x0F 14 = true) ∧
    (let t : Nat := 1000; let n : Fin 8 := 7; let s : State := ({ blank.set (Reg.BAL_TT_CTRL_en n) 1 with
        claims := [(7, ⟨false, 8⟩), (8, ⟨false, 8⟩)], pins := [(.tto 7, true), (.ppsOut, false)] }); s.settled ∧
      s.get (Reg.BAL_TT_CTRL_en n) ≠ 0) ∧
    (let t : Nat := 1000; let n : Fin 8 := 7; let hi : BitVec 16 := 65535;
      let s : State := (blank.set (Reg.BAL_TT_CTRL_en n) 0); s.settled ∧ s.get (Reg.BAL_TT_CTRL_en n) = 0) ∧
    (let t : Nat := 1000; let n : Fin 8 := 7; let hi : BitVec 16 := 65535;
      let s : State := ((blank.set (Reg.BAL_TT_CTRL_en n) 1).set Reg.BAL_STATUS_state 2); s.settled ∧
      s.get (Reg.BAL_TT_CTRL_en n) ≠ 0 ∧ s.get Reg.BAL_STATUS_state ≠ 0) ∧
    (let t : Nat := 1000; let n : Fin 8 := 7; let f : Nat := 1000;
      let s : State := (blank.set (Reg.BAL_TT_STAT_armed n) 1 |>.set (Reg.BAL_TT_CTRL_hold_gate n) 0 |>.set
      (Reg.BAL_TT_CTRL_action n) 5 |>.set (Reg.BAL_TT_PER_period n) 700000 |>.setTt n
      { fixed := some f, late := false }); let a : Nat := (s.get (Reg.BAL_TT_CTRL_action n)); s.settled ∧
      s.get (Reg.BAL_TT_STAT_armed n) ≠ 0 ∧ (s.ttOf n).fixed = some f ∧ f ≤ max s.ltb t ∧ (s.ttOf n).late = false ∧
      ((s.get (Reg.BAL_TT_CTRL_hold_gate n) = 0 ∨ s.get Reg.BAL_STATUS_state = 2)) ∧
      a = s.get (Reg.BAL_TT_CTRL_action n) ∧ 1 ≤ a ∧ a ≤ 5) ∧
    (let t : Nat := 1000; let n : Fin 8 := 7; let f : Nat := 1000;
      let s : State := (blank.set (Reg.BAL_TT_STAT_armed n) 1 |>.set (Reg.BAL_TT_CTRL_hold_gate n) 0 |>.set
      (Reg.BAL_TT_CTRL_action n) 6 |>.set (Reg.BAL_TT_PER_period n) 0 |>.setTt n { fixed := some f, late := false });
      s.settled ∧ s.get (Reg.BAL_TT_STAT_armed n) ≠ 0 ∧ (s.ttOf n).fixed = some f ∧ f ≤ max s.ltb t ∧
      (s.ttOf n).late = false ∧ s.get (Reg.BAL_TT_CTRL_hold_gate n) = 0 ∧ s.get (Reg.BAL_TT_CTRL_action n) = 6 ∧
      s.bal.burst = none) ∧
    (let t : Nat := 1000; let n : Fin 8 := 7; let f : Nat := 1000;
      let s : State := ((blank.set (Reg.BAL_TT_STAT_armed n) 1 |>.set (Reg.BAL_TT_CTRL_hold_gate n) 0 |>.set
      (Reg.BAL_TT_CTRL_action n) 1 |>.set (Reg.BAL_TT_PER_period n) 0 |>.setTt n
      { fixed := some f, late := true }).set (Reg.BAL_TT_CTRL_late_pol n) 1); s.settled ∧
      s.get (Reg.BAL_TT_STAT_armed n) ≠ 0 ∧ (s.ttOf n).fixed = some f ∧ f ≤ max s.ltb t ∧ (s.ttOf n).late = true ∧
      s.get (Reg.BAL_TT_CTRL_late_pol n) ≠ 0) ∧
    (let t : Nat := 1000; let n : Fin 8 := 7; let e : Nat := 1000;
      let s : State := (blank.setTt n { pulseEnd := some e }); s.settled ∧ (s.ttOf n).pulseEnd = some e ∧
      e ≤ max s.ltb t) ∧
    (let t : Nat := 1000; let n : Fin 8 := 7; let l : List (BitVec 12) := [4095, 7, 9]; let width : Nat := 2;
      let s : State := (blank.onBal (fun x => { x with burst := some (n.val, 2) })); s.settled ∧
      s.bal.burst = some (n.val, width) ∧ width ≤ 1024) := by
  refine ⟨?_, ?_, ?_, ?_, ?_, ?_, ?_, ?_, ?_, ?_⟩ <;> decide +kernel

theorem test_CaptureAndCompareComplete_met :
    (let t : Nat := 1000; let n : Fin 4 := 3; let s : State := (blank.set (Reg.BAL_TCI_CTRL_en n) 0); s.settled ∧
      s.get (Reg.BAL_TCI_CTRL_en n) = 0 ∧ claimFree s (0x0A + n) (9 + n) = true) ∧
    (let t : Nat := 1000; let n : Fin 4 := 3; let rising : Bool := true; let width : Nat := 9000000;
      let s : State := ((blank.set (Reg.BAL_TCI_CTRL_en n) 1).set (Reg.BAL_TCI_CTRL_edge n) 1 |>.set
      Reg.PWR_STATUS_state 0 |>.onBal (fun x => { x with
        tci := [(3, [⟨1, 2, true⟩, ⟨3, 4, false⟩, ⟨5, 6, false⟩])] })); s.settled ∧
      s.get (Reg.BAL_TCI_CTRL_en n) ≠ 0 ∧ ((s.get (Reg.BAL_TCI_CTRL_edge n) = 3 ∨
      s.get (Reg.BAL_TCI_CTRL_edge n) = if rising then 1 else 2)) ∧ s.get (Reg.BAL_TCI_CTRL_filter n) * 4 ≤ width ∧
      (tabGetD s.bal.tci n []).length < 4 ∧ (rising = false ∨ s.get Reg.PWR_STATUS_state ≠ 2)) ∧
    (let t : Nat := 1000; let n : Fin 4 := 3; let rising : Bool := false; let width : Nat := 9000000;
      let s : State := ((blank.set (Reg.BAL_TCI_CTRL_en n) 1).set (Reg.BAL_TCI_CTRL_edge n) 3 |>.onBal (fun x =>
      { x with
        tci := [(3, [⟨1, 2, true⟩, ⟨3, 4, false⟩, ⟨5, 6, false⟩, ⟨7, 8, false⟩])] })); s.settled ∧
      s.get (Reg.BAL_TCI_CTRL_en n) ≠ 0 ∧ ((s.get (Reg.BAL_TCI_CTRL_edge n) = 3 ∨
      s.get (Reg.BAL_TCI_CTRL_edge n) = if rising then 1 else 2)) ∧ s.get (Reg.BAL_TCI_CTRL_filter n) * 4 ≤ width ∧
      4 ≤ (tabGetD s.bal.tci n []).length ∧ (rising = false ∨ s.get Reg.PWR_STATUS_state ≠ 2)) ∧
    (let t : Nat := 1000; let n : Fin 4 := 3; let s : State := (blank); s.settled) ∧
    (let t : Nat := 1000; let n : Fin 4 := 3; let k : Fin 16 := 15; let owner : Nat := 5;
      let s : State := ({ blank.set (Reg.BAL_CMP_CTRL_en k) 0 with
        claims := [(31, ⟨true, 5⟩)] }); s.settled ∧ tabGet s.claims (16 + k) = some ⟨true, owner⟩ ∧
      s.get (Reg.BAL_CMP_CTRL_en k) = 0) ∧
    (let t : Nat := 1000; let n : Fin 4 := 3; let k : Fin 16 := 15; let owner : Nat := 5; let hi : Word := 1;
      let s : State := ({ blank.set (Reg.BAL_CMP_CTRL_en k) 1 with
        claims := [(31, ⟨true, 5⟩)] }); s.settled ∧ tabGet s.claims (16 + k) = some ⟨true, owner⟩ ∧
      s.get (Reg.BAL_CMP_CTRL_en k) ≠ 0 ∧ max s.ltb t < hi.toNat * 2 ^ 32 + s.get (Reg.BAL_CMP_LO_tgt_lo k)) ∧
    (let t : Nat := 1000; let n : Fin 4 := 3; let k : Fin 16 := 15; let owner : Nat := 5; let hi : Word := 0;
      let s : State := (({ blank.set (Reg.BAL_CMP_CTRL_en k) 1 with
        claims := [(31, ⟨true, 5⟩)] } : State).set (Reg.BAL_CMP_LO_tgt_lo k) 9); s.settled ∧
      tabGet s.claims (16 + k) = some ⟨true, owner⟩ ∧ s.get (Reg.BAL_CMP_CTRL_en k) ≠ 0 ∧
      hi.toNat * 2 ^ 32 + s.get (Reg.BAL_CMP_LO_tgt_lo k) ≤ max s.ltb t) ∧
    (let t : Nat := 1000; let n : Fin 4 := 3; let k : Fin 16 := 15;
      let s : State := (blank.set (Reg.BAL_CMP_CTRL_armed k) 1 |>.set (Reg.BAL_CMP_PER_period k) 7 |>.onBal
      (fun x => { x with cmp := [(15, 1000)] })); s.settled ∧ s.get (Reg.BAL_CMP_CTRL_armed k) ≠ 0 ∧
      cmpTarget s k ≤ max s.ltb t) := by
  refine ⟨?_, ?_, ?_, ?_, ?_, ?_, ?_, ?_⟩ <;> decide +kernel

theorem test_PtpAndPpsComplete_met :
    (let t : Nat := 1000; let ns : BitVec 30 := 123456789; let s : State := (blank); s.settled) ∧
    (let t : Nat := 1000; let adj : Word := (-5); let s : State := (blank); s.settled) ∧
    (let t : Nat := 1000; let s : State := (blank.set Reg.BAL_PTP_CTRL_pps_out_en 0); s.settled ∧
      s.get Reg.BAL_PTP_CTRL_pps_out_en = 0 ∧ claimFree s 0x09 13 = true) ∧
    (let t : Nat := 1000; let s : State := ((blank.set Reg.BAL_PTP_CTRL_pps_out_en 1).onBal
      (fun x => { x with ppsSec := 99 })); s.settled ∧ s.get Reg.BAL_PTP_CTRL_pps_out_en ≠ 0 ∧
      (ptpAt s (max s.ltb t)).1 ≠ s.bal.ppsSec) ∧
    (let t : Nat := 1000; let e : Nat := 1000;
      let s : State := (blank.onBal (fun x => { x with ppsPulseEnd := some e })); s.settled ∧
      s.bal.ppsPulseEnd = some e ∧ e ≤ max s.ltb t) ∧
    (let t : Nat := 1000; let s : State := (blank.set Reg.BAL_PTP_CTRL_pps_in_en 1); s.settled ∧
      s.get Reg.BAL_PTP_CTRL_pps_in_en ≠ 0) ∧
    (let t : Nat := 1500000005; let l : Nat := 5;
      let s : State := ((blank.set Reg.BAL_PTP_CTRL_pps_in_en 1).onBal (fun x => { x with ppsInLast := some l }));
      s.settled ∧ s.bal.ppsInLast = some l ∧ s.get Reg.BAL_PTP_CTRL_pps_in_en ≠ 0 ∧
      l + 1500000000 ≤ max s.ltb t) := by
  refine ⟨?_, ?_, ?_, ?_, ?_, ?_, ?_⟩ <;> decide +kernel

theorem test_EpochCompletes_met :
    (let t : Nat := 20000001; let k : Nat := 8; let s : State := ((blank.set Reg.BAL_STATUS_state 3).onBal (fun x =>
      { x with
        cycles := [⟨7, 0, 20000000⟩, ⟨6, -20000000, 20000000⟩], epochFixed := some (20000000, 8) })); s.settled ∧
      epochDue (s.now t) = some k ∧ s.lanes = [] ∧ s.esc.sub = [] ∧ s.esc.queue = [] ∧ s.twn.stall = none ∧
      s.ctx.stall = none) ∧
    (let t : Nat := 20000001; let k : Nat := 8; let s : State := ((blank.set Reg.BAL_STATUS_state 3).onBal (fun x =>
      { x with
        cycles := [⟨7, 0, 20000000⟩, ⟨6, -20000000, 20000000⟩], epochFixed := some (20000000, 8) }) |> (fun s =>
      { s with
        esc := {
          sub := [(3, [{ ref := 1, port := 0, svc := 1, bufs := 1 }])] } })); s.settled ∧
      epochDue (s.begin t) = some k) := by
  refine ⟨?_, ?_⟩ <;> decide +kernel

theorem test_RegisterAccessCompletes_met :
    (let t : Nat := 1000; let m : Master := (.coreNs 2); let val : Word := 0xFFFFFFFE;
      let reads : BusReads := { upset := [3] }; let off : Nat := 0x30010; let s : State := (blank); s.settled ∧
      (m = .host → s.get Reg.PWR_STATUS_state ≠ 2) ∧ (m = .host ∨ reads.core = none) ∧
      off / 0x10000 ∈ [3, 4, 6, 8, 10, 20] ∧ off % 4 = 0 ∧ ¬ off ∈ [0x30000, 0x40000, 0x60000, 0x80010, 0xa0000,
      0xa0020, 0x140000] ∧ (∀ k : Fin 32, off ≠ 0x80100 + 0x20 * k) ∧ (∀ k : Fin 4, off ≠ 0x60110 + 0x100 * k)) ∧
    (let t : Nat := 1000; let m : Master := (.coreNs 2); let val : Word := 0xFFFFFFFE;
      let reads : BusReads := { upset := [3] }; let s : State := (blank); s.settled ∧
      (m = .host → s.get Reg.PWR_STATUS_state ≠ 2) ∧ (m = .host ∨ reads.core = none)) ∧
    (let t : Nat := 1000; let m : Master := (.coreNs 2); let val : Word := 0x12345678;
      let reads : BusReads := { upset := [3] }; let s : State := (blank.set Reg.BAL_CTRL_enable 1); s.settled ∧
      (m = .host → s.get Reg.PWR_STATUS_state ≠ 2) ∧ (m = .host ∨ reads.core = none) ∧
      s.get Reg.BAL_CTRL_enable ≠ 0) ∧
    (let t : Nat := 1000; let m : Master := (.coreNs 2); let val : Word := 0xFFFFFFFE;
      let reads : BusReads := { upset := [3] }; let s : State := (blank); s.settled ∧
      (m = .host → s.get Reg.PWR_STATUS_state ≠ 2) ∧ (m = .host ∨ reads.core = none)) ∧
    (let t : Nat := 1000; let m : Master := (.coreNs 2); let val : Word := 0xFFFFFFFE;
      let reads : BusReads := { upset := [3] }; let off : Nat := 0x170000; let s : State := (blank); s.settled ∧
      (m = .host → s.get Reg.PWR_STATUS_state ≠ 2) ∧ (m = .host ∨ reads.core = none) ∧ 0x170000 ≤ off) ∧
    (let t : Nat := 1000; let m : Master := (.coreNs 2); let val : Word := 0x80000000;
      let reads : BusReads := { upset := [3] }; let s : State := (blank); s.settled ∧
      (m = .host → s.get Reg.PWR_STATUS_state ≠ 2) ∧ (m = .host ∨ reads.core = none)) ∧
    (let t : Nat := 1000; let m : Master := (.coreNs 1); let val : Word := 0xFFFFFFFE;
      let reads : BusReads := { upset := [3] }; let off : Nat := 0x20068; let octets : Nat := 2;
      let write : Bool := true; let s : State := (blank); s.settled ∧ (octets ≠ 4 ∨ off % 4 ≠ 0)) ∧
    (let t : Nat := 1000; let m : Master := (.coreNs 1); let val : Word := 0xFFFFFFFE;
      let reads : BusReads := { upset := [3] }; let off : Nat := 0x20068; let octets : Nat := 4;
      let write : Bool := true; let s : State := (blank); s.settled ∧ octets = 4 ∧ off % 4 = 0) ∧
    (let t : Nat := 1000; let m : Master := (.coreNs 1); let val : Word := 0xFFFFFFFE;
      let reads : BusReads := { upset := [3] }; let off : Nat := 0x20068; let octets : Nat := 4;
      let a : Nat := 0x10000003; let o : Nat := 3; let s : State := ({ blank with
        hif := { blank.hif with mem := [(0x10000004, 7)] } }); s.settled ∧ m ≠ .host ∧
      (coreReach s a = .sram o ∨ coreReach s a = .dram o)) ∧
    (let t : Nat := 1000; let m : Master := (.coreNs 1); let val : Word := 0xFFFFFFFE;
      let reads : BusReads := { upset := [3] }; let off : Nat := 0x20068; let octets : Nat := 3;
      let a : Nat := 0x80000001; let o : Nat := 1; let l : List Byte := [1, 0, 9]; let s : State := (({ blank with
        hif := { blank.hif with mem := [(0x80000002, 7)] } } : State)); s.settled ∧ m ≠ .host ∧
      (coreReach s a = .sram o ∨ coreReach s a = .dram o) ∧ l.length = octets ∧ s.memOk ∧ s.hostRings) ∧
    (let t : Nat := 1000; let m : Master := (.coreNs 1); let val : Word := 0xFFFFFFFE;
      let reads : BusReads := { upset := [3] }; let off : Nat := 0x20068; let octets : Nat := 4;
      let a : Nat := 0x180000000; let d : Option (List Byte) := (some [1]); let s : State := (blank); s.settled ∧
      m ≠ .host ∧ coreMap a = .busError) := by
  refine ⟨?_, ?_, ?_, ?_, ?_, ?_, ?_, ?_, ?_, ?_, ?_⟩ <;> decide +kernel

theorem test_FirmwareClaimsComplete_met :
    (let t : Nat := 1000; let m : Master := (.coreS 0); let op : Nat := 0; let r : BitVec 6 := 31;
      let o : BitVec 8 := 5; let val : Word := (BitVec.ofNat 32 (31 + 256 * 5 + 65536 * 0));
      let reads : BusReads := {}; let c : Instr := (.registerWrite t m 0x10 val reads); let s : State := ({ blank with
        claims := (3, ⟨false, 4⟩) :: ((some ⟨true, 5⟩).map (fun (h : Holder) => (r.toNat, h))).toList }); s.settled ∧
      (m = .host → s.get Reg.PWR_STATUS_state ≠ 2) ∧ (m = .host ∨ reads.core = none) ∧ bits val.toNat 0 6 = r.toNat ∧
      bits val.toNat 8 8 = o.toNat ∧ bits val.toNat 16 2 = op ∧
      c ∈ Instr.registerWrite t m 0x10 val reads :: (if op = 1 then [.claim t r o] else if op = 2 then
      [.release t r o] else if op = 3 then [.query t r o] else [])) ∧
    (let t : Nat := 1000; let m : Master := .host; let op : Nat := 1; let r : BitVec 6 := 31; let o : BitVec 8 := 5;
      let val : Word := (BitVec.ofNat 32 (31 + 256 * 5 + 65536 * 1)); let reads : BusReads := {};
      let c : Instr := (.claim t r o); let s : State := ({ blank with
        claims := (3, ⟨false, 4⟩) :: (((none : Option Holder)).map (fun (h : Holder) => (r.toNat, h))).toList });
      s.settled ∧ (m = .host → s.get Reg.PWR_STATUS_state ≠ 2) ∧ (m = .host ∨ reads.core = none) ∧
      bits val.toNat 0 6 = r.toNat ∧ bits val.toNat 8 8 = o.toNat ∧ bits val.toNat 16 2 = op ∧
      c ∈ Instr.registerWrite t m 0x10 val reads :: (if op = 1 then [.claim t r o] else if op = 2 then
      [.release t r o] else if op = 3 then [.query t r o] else [])) ∧
    (let t : Nat := 1000; let m : Master := .host; let op : Nat := 1; let r : BitVec 6 := 31; let o : BitVec 8 := 5;
      let val : Word := (BitVec.ofNat 32 (31 + 256 * 5 + 65536 * 1)); let reads : BusReads := {};
      let c : Instr := (.registerWrite t m 0x10 val reads); let s : State := ({ blank with
        claims := (3, ⟨false, 4⟩) :: (((none : Option Holder)).map (fun (h : Holder) => (r.toNat, h))).toList });
      s.settled ∧ (m = .host → s.get Reg.PWR_STATUS_state ≠ 2) ∧ (m = .host ∨ reads.core = none) ∧
      bits val.toNat 0 6 = r.toNat ∧ bits val.toNat 8 8 = o.toNat ∧ bits val.toNat 16 2 = op ∧
      c ∈ Instr.registerWrite t m 0x10 val reads :: (if op = 1 then [.claim t r o] else if op = 2 then
      [.release t r o] else if op = 3 then [.query t r o] else [])) ∧
    (let t : Nat := 1000; let m : Master := .host; let op : Nat := 1; let r : BitVec 6 := 63; let o : BitVec 8 := 0;
      let val : Word := (BitVec.ofNat 32 (63 + 256 * 0 + 65536 * 1)); let reads : BusReads := {};
      let c : Instr := (.registerWrite t m 0x10 val reads); let s : State := ({ blank with
        claims := (3, ⟨false, 4⟩) :: (((none : Option Holder)).map (fun (h : Holder) => (r.toNat, h))).toList });
      s.settled ∧ (m = .host → s.get Reg.PWR_STATUS_state ≠ 2) ∧ (m = .host ∨ reads.core = none) ∧
      bits val.toNat 0 6 = r.toNat ∧ bits val.toNat 8 8 = o.toNat ∧ bits val.toNat 16 2 = op ∧
      c ∈ Instr.registerWrite t m 0x10 val reads :: (if op = 1 then [.claim t r o] else if op = 2 then
      [.release t r o] else if op = 3 then [.query t r o] else [])) ∧
    (let t : Nat := 1000; let m : Master := .host; let op : Nat := 1; let r : BitVec 6 := 15; let o : BitVec 8 := 5;
      let val : Word := (BitVec.ofNat 32 (15 + 256 * 5 + 65536 * 1)); let reads : BusReads := {};
      let c : Instr := (.claim t r o); let s : State := ({ blank with
        claims := (3, ⟨false, 4⟩) :: (((none : Option Holder)).map (fun (h : Holder) => (r.toNat, h))).toList });
      s.settled ∧ (m = .host → s.get Reg.PWR_STATUS_state ≠ 2) ∧ (m = .host ∨ reads.core = none) ∧
      bits val.toNat 0 6 = r.toNat ∧ bits val.toNat 8 8 = o.toNat ∧ bits val.toNat 16 2 = op ∧
      c ∈ Instr.registerWrite t m 0x10 val reads :: (if op = 1 then [.claim t r o] else if op = 2 then
      [.release t r o] else if op = 3 then [.query t r o] else [])) ∧
    (let t : Nat := 1000; let m : Master := .host; let op : Nat := 1; let r : BitVec 6 := 39; let o : BitVec 8 := 255;
      let val : Word := (BitVec.ofNat 32 (39 + 256 * 255 + 65536 * 1)); let reads : BusReads := {};
      let c : Instr := (.claim t r o); let s : State := ({ blank with
        claims := (3, ⟨false, 4⟩) :: (((none : Option Holder)).map (fun (h : Holder) => (r.toNat, h))).toList });
      s.settled ∧ (m = .host → s.get Reg.PWR_STATUS_state ≠ 2) ∧ (m = .host ∨ reads.core = none) ∧
      bits val.toNat 0 6 = r.toNat ∧ bits val.toNat 8 8 = o.toNat ∧ bits val.toNat 16 2 = op ∧
      c ∈ Instr.registerWrite t m 0x10 val reads :: (if op = 1 then [.claim t r o] else if op = 2 then
      [.release t r o] else if op = 3 then [.query t r o] else [])) ∧
    (let t : Nat := 1000; let m : Master := .host; let op : Nat := 1; let r : BitVec 6 := 14; let o : BitVec 8 := 5;
      let val : Word := (BitVec.ofNat 32 (14 + 256 * 5 + 65536 * 1)); let reads : BusReads := {};
      let c : Instr := (.claim t r o); let s : State := ({ blank with
        claims := (3, ⟨false, 4⟩) :: ((some ⟨true, 6⟩).map (fun (h : Holder) => (r.toNat, h))).toList }); s.settled ∧
      (m = .host → s.get Reg.PWR_STATUS_state ≠ 2) ∧ (m = .host ∨ reads.core = none) ∧ bits val.toNat 0 6 = r.toNat ∧
      bits val.toNat 8 8 = o.toNat ∧ bits val.toNat 16 2 = op ∧
      c ∈ Instr.registerWrite t m 0x10 val reads :: (if op = 1 then [.claim t r o] else if op = 2 then
      [.release t r o] else if op = 3 then [.query t r o] else [])) ∧
    (let t : Nat := 1000; let m : Master := .host; let op : Nat := 1; let r : BitVec 6 := 14; let o : BitVec 8 := 5;
      let val : Word := (BitVec.ofNat 32 (14 + 256 * 5 + 65536 * 1)); let reads : BusReads := {};
      let c : Instr := (.claim t r o); let s : State := ({ blank with
        claims := (3, ⟨false, 4⟩) :: ((some ⟨false, 5⟩).map (fun (h : Holder) => (r.toNat, h))).toList }); s.settled ∧
      (m = .host → s.get Reg.PWR_STATUS_state ≠ 2) ∧ (m = .host ∨ reads.core = none) ∧ bits val.toNat 0 6 = r.toNat ∧
      bits val.toNat 8 8 = o.toNat ∧ bits val.toNat 16 2 = op ∧
      c ∈ Instr.registerWrite t m 0x10 val reads :: (if op = 1 then [.claim t r o] else if op = 2 then
      [.release t r o] else if op = 3 then [.query t r o] else [])) ∧
    (let t : Nat := 1000; let m : Master := .host; let op : Nat := 1; let r : BitVec 6 := 14; let o : BitVec 8 := 5;
      let val : Word := (BitVec.ofNat 32 (14 + 256 * 5 + 65536 * 1)); let reads : BusReads := {};
      let c : Instr := (.claim t r o); let s : State := ({ blank with
        claims := (3, ⟨false, 4⟩) :: ((some ⟨true, 5⟩).map (fun (h : Holder) => (r.toNat, h))).toList }); s.settled ∧
      (m = .host → s.get Reg.PWR_STATUS_state ≠ 2) ∧ (m = .host ∨ reads.core = none) ∧ bits val.toNat 0 6 = r.toNat ∧
      bits val.toNat 8 8 = o.toNat ∧ bits val.toNat 16 2 = op ∧
      c ∈ Instr.registerWrite t m 0x10 val reads :: (if op = 1 then [.claim t r o] else if op = 2 then
      [.release t r o] else if op = 3 then [.query t r o] else [])) ∧
    (let t : Nat := 1000; let m : Master := .host; let op : Nat := 3; let r : BitVec 6 := 14; let o : BitVec 8 := 0;
      let val : Word := (BitVec.ofNat 32 (14 + 256 * 0 + 65536 * 3)); let reads : BusReads := {};
      let c : Instr := (.query t r o); let s : State := ({ blank with
        claims := (3, ⟨false, 4⟩) :: ((some ⟨true, 5⟩).map (fun (h : Holder) => (r.toNat, h))).toList }); s.settled ∧
      (m = .host → s.get Reg.PWR_STATUS_state ≠ 2) ∧ (m = .host ∨ reads.core = none) ∧ bits val.toNat 0 6 = r.toNat ∧
      bits val.toNat 8 8 = o.toNat ∧ bits val.toNat 16 2 = op ∧
      c ∈ Instr.registerWrite t m 0x10 val reads :: (if op = 1 then [.claim t r o] else if op = 2 then
      [.release t r o] else if op = 3 then [.query t r o] else [])) ∧
    (let t : Nat := 1000; let m : Master := .host; let op : Nat := 3; let r : BitVec 6 := 14; let o : BitVec 8 := 0;
      let val : Word := (BitVec.ofNat 32 (14 + 256 * 0 + 65536 * 3)); let reads : BusReads := {};
      let c : Instr := (.registerWrite t m 0x10 val reads); let s : State := ({ blank with
        claims := (3, ⟨false, 4⟩) :: (((none : Option Holder)).map (fun (h : Holder) => (r.toNat, h))).toList });
      s.settled ∧ (m = .host → s.get Reg.PWR_STATUS_state ≠ 2) ∧ (m = .host ∨ reads.core = none) ∧
      bits val.toNat 0 6 = r.toNat ∧ bits val.toNat 8 8 = o.toNat ∧ bits val.toNat 16 2 = op ∧
      c ∈ Instr.registerWrite t m 0x10 val reads :: (if op = 1 then [.claim t r o] else if op = 2 then
      [.release t r o] else if op = 3 then [.query t r o] else [])) ∧
    (let t : Nat := 1000; let m : Master := .host; let op : Nat := 3; let r : BitVec 6 := 40; let o : BitVec 8 := 0;
      let val : Word := (BitVec.ofNat 32 (40 + 256 * 0 + 65536 * 3)); let reads : BusReads := {};
      let c : Instr := (.query t r o); let s : State := ({ blank with
        claims := (3, ⟨false, 4⟩) :: (((none : Option Holder)).map (fun (h : Holder) => (r.toNat, h))).toList });
      s.settled ∧ (m = .host → s.get Reg.PWR_STATUS_state ≠ 2) ∧ (m = .host ∨ reads.core = none) ∧
      bits val.toNat 0 6 = r.toNat ∧ bits val.toNat 8 8 = o.toNat ∧ bits val.toNat 16 2 = op ∧
      c ∈ Instr.registerWrite t m 0x10 val reads :: (if op = 1 then [.claim t r o] else if op = 2 then
      [.release t r o] else if op = 3 then [.query t r o] else [])) ∧
    (let t : Nat := 1000; let m : Master := .host; let op : Nat := 2; let r : BitVec 6 := 16; let o : BitVec 8 := 5;
      let val : Word := (BitVec.ofNat 32 (16 + 256 * 5 + 65536 * 2)); let reads : BusReads := {};
      let c : Instr := (.release t r o); let s : State := ({ blank with
        claims := (3, ⟨false, 4⟩) :: ((some ⟨true, 5⟩).map (fun (h : Holder) => (r.toNat, h))).toList }); s.settled ∧
      (m = .host → s.get Reg.PWR_STATUS_state ≠ 2) ∧ (m = .host ∨ reads.core = none) ∧ bits val.toNat 0 6 = r.toNat ∧
      bits val.toNat 8 8 = o.toNat ∧ bits val.toNat 16 2 = op ∧
      c ∈ Instr.registerWrite t m 0x10 val reads :: (if op = 1 then [.claim t r o] else if op = 2 then
      [.release t r o] else if op = 3 then [.query t r o] else [])) ∧
    (let t : Nat := 1000; let m : Master := .host; let op : Nat := 2; let r : BitVec 6 := 31; let o : BitVec 8 := 254;
      let val : Word := (BitVec.ofNat 32 (31 + 256 * 254 + 65536 * 2)); let reads : BusReads := {};
      let c : Instr := (.registerWrite t m 0x10 val reads); let s : State := ({ blank with
        claims := (3, ⟨false, 4⟩) :: ((some ⟨true, 254⟩).map (fun (h : Holder) => (r.toNat, h))).toList });
      s.settled ∧ (m = .host → s.get Reg.PWR_STATUS_state ≠ 2) ∧ (m = .host ∨ reads.core = none) ∧
      bits val.toNat 0 6 = r.toNat ∧ bits val.toNat 8 8 = o.toNat ∧ bits val.toNat 16 2 = op ∧
      c ∈ Instr.registerWrite t m 0x10 val reads :: (if op = 1 then [.claim t r o] else if op = 2 then
      [.release t r o] else if op = 3 then [.query t r o] else [])) ∧
    (let t : Nat := 1000; let m : Master := .host; let op : Nat := 2; let r : BitVec 6 := 31; let o : BitVec 8 := 5;
      let val : Word := (BitVec.ofNat 32 (31 + 256 * 5 + 65536 * 2)); let reads : BusReads := {};
      let c : Instr := (.release t r o); let s : State := ({ blank with
        claims := (3, ⟨false, 4⟩) :: ((some ⟨true, 6⟩).map (fun (h : Holder) => (r.toNat, h))).toList }); s.settled ∧
      (m = .host → s.get Reg.PWR_STATUS_state ≠ 2) ∧ (m = .host ∨ reads.core = none) ∧ bits val.toNat 0 6 = r.toNat ∧
      bits val.toNat 8 8 = o.toNat ∧ bits val.toNat 16 2 = op ∧
      c ∈ Instr.registerWrite t m 0x10 val reads :: (if op = 1 then [.claim t r o] else if op = 2 then
      [.release t r o] else if op = 3 then [.query t r o] else [])) ∧
    (let t : Nat := 1000; let m : Master := .host; let op : Nat := 2; let r : BitVec 6 := 31; let o : BitVec 8 := 5;
      let val : Word := (BitVec.ofNat 32 (31 + 256 * 5 + 65536 * 2)); let reads : BusReads := {};
      let c : Instr := (.release t r o); let s : State := ({ blank with
        claims := (3, ⟨false, 4⟩) :: ((some ⟨false, 5⟩).map (fun (h : Holder) => (r.toNat, h))).toList }); s.settled ∧
      (m = .host → s.get Reg.PWR_STATUS_state ≠ 2) ∧ (m = .host ∨ reads.core = none) ∧ bits val.toNat 0 6 = r.toNat ∧
      bits val.toNat 8 8 = o.toNat ∧ bits val.toNat 16 2 = op ∧
      c ∈ Instr.registerWrite t m 0x10 val reads :: (if op = 1 then [.claim t r o] else if op = 2 then
      [.release t r o] else if op = 3 then [.query t r o] else [])) ∧
    (let t : Nat := 1000; let m : Master := .host; let op : Nat := 2; let r : BitVec 6 := 31; let o : BitVec 8 := 5;
      let val : Word := (BitVec.ofNat 32 (31 + 256 * 5 + 65536 * 2)); let reads : BusReads := {};
      let c : Instr := (.release t r o); let s : State := ({ blank with
        claims := (3, ⟨false, 4⟩) :: (((none : Option Holder)).map (fun (h : Holder) => (r.toNat, h))).toList });
      s.settled ∧ (m = .host → s.get Reg.PWR_STATUS_state ≠ 2) ∧ (m = .host ∨ reads.core = none) ∧
      bits val.toNat 0 6 = r.toNat ∧ bits val.toNat 8 8 = o.toNat ∧ bits val.toNat 16 2 = op ∧
      c ∈ Instr.registerWrite t m 0x10 val reads :: (if op = 1 then [.claim t r o] else if op = 2 then
      [.release t r o] else if op = 3 then [.query t r o] else [])) ∧
    (let t : Nat := 1000; let m : Master := .host; let op : Nat := 2; let r : BitVec 6 := 14; let o : BitVec 8 := 5;
      let val : Word := (BitVec.ofNat 32 (14 + 256 * 5 + 65536 * 2)); let reads : BusReads := {};
      let c : Instr := (.release t r o); let s : State := ({ blank with
        claims := (3, ⟨false, 4⟩) :: ((some ⟨true, 5⟩).map (fun (h : Holder) => (r.toNat, h))).toList }); s.settled ∧
      (m = .host → s.get Reg.PWR_STATUS_state ≠ 2) ∧ (m = .host ∨ reads.core = none) ∧ bits val.toNat 0 6 = r.toNat ∧
      bits val.toNat 8 8 = o.toNat ∧ bits val.toNat 16 2 = op ∧
      c ∈ Instr.registerWrite t m 0x10 val reads :: (if op = 1 then [.claim t r o] else if op = 2 then
      [.release t r o] else if op = 3 then [.query t r o] else [])) ∧
    (let t : Nat := 1000; let m : Master := .host; let op : Nat := 2; let r : BitVec 6 := 0; let o : BitVec 8 := 255;
      let val : Word := (BitVec.ofNat 32 (0 + 256 * 255 + 65536 * 2)); let reads : BusReads := {};
      let c : Instr := (.release t r o); let s : State := ({ blank with
        claims := (3, ⟨false, 4⟩) :: (((none : Option Holder)).map (fun (h : Holder) => (r.toNat, h))).toList });
      s.settled ∧ (m = .host → s.get Reg.PWR_STATUS_state ≠ 2) ∧ (m = .host ∨ reads.core = none) ∧
      bits val.toNat 0 6 = r.toNat ∧ bits val.toNat 8 8 = o.toNat ∧ bits val.toNat 16 2 = op ∧
      c ∈ Instr.registerWrite t m 0x10 val reads :: (if op = 1 then [.claim t r o] else if op = 2 then
      [.release t r o] else if op = 3 then [.query t r o] else [])) := by
  refine ⟨?_, ?_, ?_, ?_, ?_, ?_, ?_, ?_, ?_, ?_, ?_, ?_, ?_, ?_, ?_, ?_, ?_, ?_, ?_⟩ <;> decide +kernel

theorem test_FrameRecordCompletes_met :
    (let t : Nat := 1000; let n : Fin 128 := 127; let r : LaneRec := {
        lane := n, band := 0, freq := 868300, profile := 3, rssi := -60, lqi := 200, ltb := 500, angle := 77,
        endLtb := 900, captured := false, slot := false, rate := 0, fcs2 := true, whiten := false,
        psdu := [0x61, 0x88, 7, 0xCD, 0xAB, 0x34, 0x12, 0x78, 0x56, 0x41] };
      let l : List LaneRec := [{ r with lane := 2 }]; let m : Mhr := (((parseMhr r.psdu).getD {
        type := 0, ver := 0, sec := false, ar := false, dsn := none, dstMode := 0, srcMode := 0, dstPan := none,
        srcPan := none, dst := 0, src := 0, hdr := 0 })); let tag : Nat := 127;
      let s : State :=
      ({ (blank.set Reg.AMC_CTRL_enable 1 |>.set Reg.FWD_CTRL_enable 1 |>.set Reg.CTX_CTRL_enable 1 |>.set Reg.AMC_PAN_pan_id 0xABCD |>.set Reg.AMC_PAN_short_addr 0x1234 |>.set (Reg.CTX_POOL_FREE_free 0) 9 |>.set Reg.TWN_CTRL_role 0) with
        laneRecs := r :: l }); let upset : List Nat := ((0 :: ntReads s 0x5678 1)); s.settled ∧ s.laneRecs = r :: l ∧
      r.lane = n ∧ s.get Reg.AMC_CTRL_enable ≠ 0 ∧ parseMhr r.psdu = some m ∧ m.type = 1 ∧ m.ver ≤ 2 ∧
      addressed s m = true ∧ (m.sec = false ∨ m.level = 0 ∨ 5 ≤ m.level) ∧ s.get Reg.TWN_CTRL_role = 0 ∧
      freeTag s .air r.lane = some tag ∧ rxBufs r ≤ poolFree s 0 ∧ poolFree s 0 < 2 ^ 15) ∧
    (let t : Nat := 1000; let n : Fin 128 := 127; let upset : List Nat := [5, 70000]; let r : LaneRec := {
        lane := n, band := 0, freq := 868300, profile := 3, rssi := -60, lqi := 200, ltb := 500, angle := 77,
        endLtb := 900, captured := false, slot := false, rate := 0, fcs2 := true, whiten := false,
        psdu := [0x61, 0x88, 7, 0xCD, 0xAB, 0x34, 0x12, 0x78, 0x56, 0x41] };
      let l : List LaneRec := [{ r with lane := 2 }];
      let s : State := ({ blank.set Reg.AMC_CTRL_enable 0 with laneRecs := r :: l }); s.settled ∧
      s.laneRecs = r :: l ∧ r.lane = n ∧ s.get Reg.AMC_CTRL_enable = 0) ∧
    (let t : Nat := 1000; let n : Fin 128 := 127; let upset : List Nat := [5, 70000]; let r : LaneRec := {
        lane := n, band := 0, freq := 868300, profile := 3, rssi := -60, lqi := 200, ltb := 500, angle := 77,
        endLtb := 900, captured := false, slot := false, rate := 0, fcs2 := true, whiten := false,
        psdu := [0x61, 0x88, 7, 0xCD, 0xAB, 0x34, 0x12, 0x78, 0x56, 0x41] };
      let l : List LaneRec := [{ r with lane := 2 }];
      let s : State := ({ blank.set Reg.AMC_CTRL_enable 1 |>.set Reg.AMC_PAN_pan_id 0x7777 with
        laneRecs := r :: l }); s.settled ∧ s.laneRecs = r :: l ∧ r.lane = n ∧ s.get Reg.AMC_CTRL_enable ≠ 0 ∧
      ((parseMhr r.psdu).all (fun m => decide (2 < m.ver ∨ 3 < m.type ∨ m.type = 1 ∧ addressed s m = false)) = true))
      := by
  refine ⟨?_, ?_, ?_⟩ <;> decide +kernel

theorem test_AckArbiterRoundCompletes_met :
    (let t : Nat := 1000; let s : State := (blank); s.settled) ∧
    (let t : Nat := 1000; let q : AckReq := {
        tag := 5, rcd := {
          lane := 9, band := 0, freq := 868300, profile := 3, rssi := -60, lqi := 200, ltb := 500, angle := 77,
          endLtb := 900, captured := false, slot := true, rate := 0, fcs2 := true, whiten := false,
          psdu := [0x61, 0x88, 7, 0xCD, 0xAB, 0x34, 0x12, 0x78, 0x56, 0x41] }, slot := true, ctx := none, at_ := 100,
        d := 200000 }; let m : Mhr := (((parseMhr q.rcd.psdu).getD {
        type := 0, ver := 0, sec := false, ar := false, dsn := none, dstMode := 0, srcMode := 0, dstPan := none,
        srcPan := none, dst := 0, src := 0, hdr := 0 })); let c : Nat := 0; let f : Nat := 868300;
      let s : State :=
      (({ blank.set Reg.AMC_CTRL_enable 1 |>.set (Reg.TXC_CTRL_enable 0) 1 |>.set Reg.AMC_DWELL_CFG_dwell_max 65535 |>.set Reg.TXC_COEX_STAT_grant 0 |>.set (Reg.TXC_STATUS_state 0) 2 |>.set Reg.AMC_ACK_GAP_gap_2g4 1000 |>.set Reg.AMC_ACK_GAP_gap_sun 1000 with
        amc := {
          reqs := [q, { q with at_ := 99990000 }], recent := [((2, 9), (false, 4), 0)] } }).onChain 0
      (fun x => { x with slots := [(4, { freq := 868300 })] }));
      let p : List Byte := (buildAck s q.rcd m (hasPending s q.ctx && !q.both) q.both);
      let a : Nat := (airtimeOf (ackPhy s q.rcd) p.length); s.settled ∧ s.amc.reqs.filter (roundDue (s.now t)) = [q] ∧
      (s.amc.recent.any fun e => e.1 == (reqKey m).1 && e.2.1 == (reqKey m).2 && decide (q.at_ < e.2.2 + 1000000)) =
      false ∧ s.get Reg.AMC_CTRL_enable ≠ 0 ∧ parseMhr q.rcd.psdu = some m ∧
      p = buildAck s q.rcd m (hasPending s q.ctx && !q.both) q.both ∧ a = airtimeOf (ackPhy s q.rcd) p.length ∧
      pickChain (s.now t) (bandChains q.rcd.band) q.rcd.band q.rcd.freq q.d a = .inr ⟨c, f, []⟩ ∧
      (s.chainOf c).active = none ∧ chainState s c = chIDLE) ∧
    (let t : Nat := 1000; let q : AckReq := {
        tag := 5, rcd := {
          lane := 9, band := 0, freq := 868300, profile := 3, rssi := -60, lqi := 200, ltb := 500, angle := 77,
          endLtb := 900, captured := false, slot := true, rate := 0, fcs2 := true, whiten := false,
          psdu := [0x61, 0x88, 7, 0xCD, 0xAB, 0x34, 0x12, 0x78, 0x56, 0x41] }, slot := true, ctx := none, at_ := 100,
        d := 200000 }; let m : Mhr := (((parseMhr q.rcd.psdu).getD {
        type := 0, ver := 0, sec := false, ar := false, dsn := none, dstMode := 0, srcMode := 0, dstPan := none,
        srcPan := none, dst := 0, src := 0, hdr := 0 }));
      let s : State :=
      ({ blank.set Reg.AMC_CTRL_enable 1 |>.set (Reg.TXC_CTRL_enable 0) 0 |>.set (Reg.TXC_CTRL_enable 1) 0 |>.set Reg.AMC_ACK_GAP_gap_2g4 1000 |>.set Reg.AMC_ACK_GAP_gap_sun 1000 with
        amc := {
          reqs := [q, { q with at_ := 99990000 }], recent := [((2, 9), (false, 4), 0)] } }); s.settled ∧
      s.amc.reqs.filter (roundDue (s.now t)) = [q] ∧ (s.amc.recent.any fun e =>
      e.1 == (reqKey m).1 && e.2.1 == (reqKey m).2 && decide (q.at_ < e.2.2 + 1000000)) = false ∧
      s.get Reg.AMC_CTRL_enable ≠ 0 ∧ parseMhr q.rcd.psdu = some m ∧ (∀ c ∈ bandChains q.rcd.band,
      s.get (Reg.TXC_CTRL_enable c) = 0) ∧ max s.ltb t + 122000 ≤ q.d) := by
  refine ⟨?_, ?_, ?_⟩ <;> decide +kernel

theorem test_UplinkStepsComplete_met :
    (let t : Nat := 1000; let tag : Fin 512 := 131; let f : Flight := {
        up := true, ingress := .air, order := 4, stage := .context,
        octets := [0x41, 0x88, 7, 0xCD, 0xAB, 0x34, 0x12, 0x78, 0x56, 0x41], rx := { lane := 3 }, bufs := 1 };
      let m : Mhr := (((parseMhr f.octets).getD {
        type := 0, ver := 0, sec := false, ar := false, dsn := none, dstMode := 0, srcMode := 0, dstPan := none,
        srcPan := none, dst := 0, src := 0, hdr := 0 })); let pu : List Nat := [3]; let nu : List Nat := [];
      let ru : Bool := false; let upset : Option (Fin 3) := (some 1); let d : Nat := 7;
      let s : State := ((((blank).onFwd (fun x => { x with
        flights := [(5, { f with
          order := 2, stage := .route, rx := { lane := 9 }, ctx := some 3 }), (tag, f)] })).onAmc (fun a =>
      { a with dup := List.replicate 64 ((2, 9), 4, 99999) })).set Reg.AMC_DUP_CFG_dup_time 9);
      let live : List ((Nat × Nat) × Nat × Nat) := (s.amc.dup.filter
      (fun e => decide (max s.ltb t < e.2.2 + dupMs s * 1000000))); s.settled ∧ flightOf s tag = some f ∧
      f.up = true ∧ f.host = none ∧ parseMhr f.octets = some m ∧ f.stage = .context ∧ f.ctx = none ∧ m.sec = false ∧
      m.dsn = some d ∧ live = s.amc.dup.filter (fun e => decide (max s.ltb t < e.2.2 + dupMs s * 1000000)) ∧
      live.any (fun e => e.1 == (m.srcMode, m.src) && e.2.1 == d) = false) ∧
    (let t : Nat := 1000; let tag : Fin 512 := 131; let f : Flight := {
        up := true, ingress := .air, order := 4, stage := .context,
        octets := [0x41, 0x88, 7, 0xCD, 0xAB, 0x34, 0x12, 0x78, 0x56, 0x41], rx := { lane := 3 }, bufs := 1 };
      let m : Mhr := (((parseMhr f.octets).getD {
        type := 0, ver := 0, sec := false, ar := false, dsn := none, dstMode := 0, srcMode := 0, dstPan := none,
        srcPan := none, dst := 0, src := 0, hdr := 0 })); let pu : List Nat := [3]; let nu : List Nat := [];
      let ru : Bool := false; let upset : Option (Fin 3) := (some 1); let d : Nat := 7;
      let s : State := ((((blank).onFwd (fun x => { x with
        flights := [(5, { f with
          order := 2, stage := .route, rx := { lane := 9 }, ctx := some 3 }), (tag, f)] })).onAmc (fun a => { a with
        dup := [((2, 9), 4, 0), ((2, 9), 4, 99999),
          ((m.srcMode, m.src), 7, 99999)] })).set Reg.AMC_CTRL_dup_action 0 |>.set (Reg.CTX_POOL_FREE_free f.pool) 0
      |>.set (Reg.CTX_POOL_CNT_count f.pool) 7);
      let live : List ((Nat × Nat) × Nat × Nat) := (s.amc.dup.filter
      (fun e => decide (max s.ltb t < e.2.2 + dupMs s * 1000000))); s.settled ∧ flightOf s tag = some f ∧
      f.up = true ∧ f.host = none ∧ parseMhr f.octets = some m ∧ f.stage = .context ∧ f.ctx = none ∧ m.dsn = some d ∧
      live = s.amc.dup.filter (fun e => decide (max s.ltb t < e.2.2 + dupMs s * 1000000)) ∧
      live.any (fun e => e.1 == (m.srcMode, m.src) && e.2.1 == d) = true ∧ s.get Reg.AMC_CTRL_dup_action = 0 ∧
      f.ingress = .air ∧ f.bufs + poolFree s f.pool ≤ s.get (Reg.CTX_POOL_CNT_count f.pool)) ∧
    (let t : Nat := 1000; let tag : Fin 512 := 131; let f : Flight := {
        up := true, ingress := .air, order := 4, stage := .context,
        octets := [0x41, 0x88, 7, 0xCD, 0xAB, 0x34, 0x12, 0x78, 0x56, 0x41], rx := { lane := 3 }, bufs := 1 };
      let m : Mhr := (((parseMhr f.octets).getD {
        type := 0, ver := 0, sec := false, ar := false, dsn := none, dstMode := 0, srcMode := 0, dstPan := none,
        srcPan := none, dst := 0, src := 0, hdr := 0 })); let pu : List Nat := [3]; let nu : List Nat := [];
      let ru : Bool := false; let upset : Option (Fin 3) := (some 1); let d : Nat := 7;
      let s : State := ((((blank).onFwd (fun x => { x with
        flights := [(5, { f with
          order := 2, stage := .route, rx := { lane := 9 }, ctx := some 3 }),
          (tag, f)] })).onAmc (fun a => { a with dup := [((m.srcMode, m.src), 7, 99999)] })).set
      Reg.AMC_CTRL_dup_action 1); let live : List ((Nat × Nat) × Nat × Nat) := (s.amc.dup.filter
      (fun e => decide (max s.ltb t < e.2.2 + dupMs s * 1000000))); s.settled ∧ flightOf s tag = some f ∧
      f.up = true ∧ f.host = none ∧ parseMhr f.octets = some m ∧ f.stage = .context ∧ f.ctx = none ∧ m.sec = false ∧
      m.dsn = some d ∧ live = s.amc.dup.filter (fun e => decide (max s.ltb t < e.2.2 + dupMs s * 1000000)) ∧
      live.any (fun e => e.1 == (m.srcMode, m.src) && e.2.1 == d) = true ∧ s.get Reg.AMC_CTRL_dup_action ≠ 0 ∧
      f.ingress = .air) ∧
    (let t : Nat := 1000; let tag : Fin 512 := 131; let f : Flight := {
        up := true, ingress := .air, order := 4, stage := .context,
        octets := [0x41, 0x88, 7, 0xCD, 0xAB, 0x34, 0x12, 0x78, 0x56, 0x41], rx := { lane := 3 }, bufs := 1,
        ctx := some 7 }; let m : Mhr := (((parseMhr f.octets).getD {
        type := 0, ver := 0, sec := false, ar := false, dsn := none, dstMode := 0, srcMode := 0, dstPan := none,
        srcPan := none, dst := 0, src := 0, hdr := 0 })); let pu : List Nat := [3]; let nu : List Nat := [];
      let ru : Bool := false; let upset : Option (Fin 3) := none; let d : Nat := 7; let k : Nat := 7;
      let s : State := ((((blank.cset 7 Cx.valid 1 |>.cset 7 Cx.eui64 77 |>.set Reg.AMC_CTRL_dup_action 0 |>.set
      Reg.AMC_DUP_CFG_dup_time 9 |>.set (Reg.CTX_POOL_FREE_free 0) 0 |>.set (Reg.CTX_POOL_CNT_count 0) 7 |>.set
      Reg.JWL_CTRL_enable 1 |>.set Reg.JWL_STATUS_lc_busy 0 |>.set Reg.TWN_CTRL_role 0 |>.cset 7 Cx.dsn_valid 1
      |>.cset 7 Cx.last_dsn 7 |>.cset 7 Cx.unsec_ok 1)).onFwd (fun x => { x with
        flights := [(5, { f with
          order := 2, stage := .route, rx := { lane := 9 }, ctx := some 3 }),
          (tag, f)] })).onAmc (fun a => { a with dsnSrc := [(7, (3, 99))] })); s.settled ∧ flightOf s tag = some f ∧
      f.up = true ∧ f.host = none ∧ parseMhr f.octets = some m ∧ f.stage = .context ∧ f.ctx = some k ∧ k < 131072 ∧
      Memory.wf s.store = true ∧ upset = none ∧ ctxBad s k = false ∧ ctxValid s k = true ∧ m.sec = false ∧
      m.dsn = some d ∧ d < 256 ∧ ¬ (s.cget k Cx.dsn_valid = 1 ∧ s.cget k Cx.last_dsn = d ∧
      (tabGet s.amc.dsnSrc k).getD (m.srcMode, m.src) = (m.srcMode, m.src) ∧
      msSince (msOf (max s.ltb t)) (s.cget k Cx.dsn_time) < dupMs s)) ∧
    (let t : Nat := 1000; let tag : Fin 512 := 131; let f : Flight := {
        up := true, ingress := .air, order := 4, stage := .context,
        octets := [0x41, 0x88, 7, 0xCD, 0xAB, 0x34, 0x12, 0x78, 0x56, 0x41], rx := { lane := 3 }, bufs := 1,
        ctx := some 7 }; let m : Mhr := (((parseMhr f.octets).getD {
        type := 0, ver := 0, sec := false, ar := false, dsn := none, dstMode := 0, srcMode := 0, dstPan := none,
        srcPan := none, dst := 0, src := 0, hdr := 0 })); let pu : List Nat := [3]; let nu : List Nat := [];
      let ru : Bool := false; let upset : Option (Fin 3) := none; let d : Nat := 7; let k : Nat := 7;
      let s : State := ((((blank.cset 7 Cx.valid 1 |>.cset 7 Cx.eui64 77 |>.set Reg.AMC_CTRL_dup_action 0 |>.set
      Reg.AMC_DUP_CFG_dup_time 9 |>.set (Reg.CTX_POOL_FREE_free 0) 0 |>.set (Reg.CTX_POOL_CNT_count 0) 7 |>.set
      Reg.JWL_CTRL_enable 1 |>.set Reg.JWL_STATUS_lc_busy 0 |>.set Reg.TWN_CTRL_role 0 |>.cset 7 Cx.dsn_valid 1
      |>.cset 7 Cx.last_dsn 7 |>.cset 7 Cx.dsn_time (msOf (max blank.ltb t)))).onFwd (fun x => { x with
        flights := [(5, { f with
          order := 2, stage := .route, rx := { lane := 9 }, ctx := some 3 }),
          (tag, f)] })).onAmc (fun a => { a with dsnSrc := [(7, (m.srcMode, m.src))] })); s.settled ∧
      flightOf s tag = some f ∧ f.up = true ∧ f.host = none ∧ parseMhr f.octets = some m ∧ f.stage = .context ∧
      f.ctx = some k ∧ k < 131072 ∧ Memory.wf s.store = true ∧ upset = none ∧ ctxBad s k = false ∧
      ctxValid s k = true ∧ m.sec = false ∧ m.dsn = some d ∧ s.cget k Cx.dsn_valid = 1 ∧ s.cget k Cx.last_dsn = d ∧
      (tabGet s.amc.dsnSrc k).getD (m.srcMode, m.src) = (m.srcMode, m.src) ∧
      msSince (msOf (max s.ltb t)) (s.cget k Cx.dsn_time) < dupMs s ∧ s.get Reg.AMC_CTRL_dup_action = 0 ∧
      f.ingress = .air ∧ f.bufs + poolFree s f.pool ≤ s.get (Reg.CTX_POOL_CNT_count f.pool)) ∧
    (let t : Nat := 1000; let tag : Fin 512 := 131; let f : Flight := {
        up := true, ingress := .air, order := 4, stage := .context, octets := [0x49, 0x88, 7, 0xCD, 0xAB, 0x34, 0x12,
          0x78, 0x56, 0x0D, 1, 0, 0, 0, 3, 0x41, 0x42, 0x43, 0x44, 0x45, 0x46], rx := { lane := 3 }, bufs := 1,
        ctx := some 7 }; let m : Mhr := (((parseMhr f.octets).getD {
        type := 0, ver := 0, sec := false, ar := false, dsn := none, dstMode := 0, srcMode := 0, dstPan := none,
        srcPan := none, dst := 0, src := 0, hdr := 0 })); let pu : List Nat := [3]; let nu : List Nat := [];
      let ru : Bool := false; let upset : Option (Fin 3) := none; let k : Nat := 7; let h : Option Nat := (some 0);
      let s : State :=
      ({ (((blank.cset 7 Cx.valid 1 |>.cset 7 Cx.eui64 77 |>.set Reg.AMC_CTRL_dup_action 0 |>.set Reg.AMC_DUP_CFG_dup_time 9 |>.set (Reg.CTX_POOL_FREE_free 0) 0 |>.set (Reg.CTX_POOL_CNT_count 0) 7 |>.set Reg.JWL_CTRL_enable 1 |>.set Reg.JWL_STATUS_lc_busy 0 |>.set Reg.TWN_CTRL_role 0 |>.cset 7 Cx.rx_fc_valid 1 |>.cset 7 Cx.rx_fc 0 |>.set (Reg.JWL_GROUP_valid 3) 1 |>.set (Reg.JWL_GROUP_slot 3) 9)).onFwd (fun x => { x with
          flights := [(5, { f with
            order := 2, stage := .route, rx := { lane := 9 }, ctx := some 3 }), (tag, f)] })) with
        fuses := { lcState := 2 }, jwl := {
          slots := [(9, {
            state := 1, type := 0, world := 0, masters := 31, lcMask := 255, gen := 8,
            key := List.replicate 16 6 })] } }); s.settled ∧ flightOf s tag = some f ∧ f.up = true ∧ f.host = none ∧
      parseMhr f.octets = some m ∧ f.stage = .context ∧ f.ctx = some k ∧ k < 131072 ∧ Memory.wf s.store = true ∧
      upset = none ∧ ctxBad s k = false ∧ ctxValid s k = true ∧ m.sec = true ∧ m.level ≠ 0 ∧ m.keyMode = 1 ∧
      m.fcSupp = false ∧ h = (if s.cget k Cx.rx_fc_valid = 1 then some (s.cget k Cx.rx_fc) else none) ∧
      h ≠ some m.fc ∧ m.fc < 2 ^ 32 ∧ secTest s { f with heldFc := h } m = 0) ∧
    (let t : Nat := 1000; let tag : Fin 512 := 131; let f : Flight := {
        up := true, ingress := .air, order := 4, stage := .context, octets := [0x49, 0x88, 7, 0xCD, 0xAB, 0x34, 0x12,
          0x78, 0x56, 0x05, 1, 0, 0, 0, 0x41, 0x42, 0x43, 0x44, 0x45, 0x46], rx := { lane := 3 }, bufs := 1,
        ctx := some 7 }; let m : Mhr := (((parseMhr f.octets).getD {
        type := 0, ver := 0, sec := false, ar := false, dsn := none, dstMode := 0, srcMode := 0, dstPan := none,
        srcPan := none, dst := 0, src := 0, hdr := 0 })); let pu : List Nat := [3]; let nu : List Nat := [];
      let ru : Bool := false; let upset : Option (Fin 3) := none; let k : Nat := 7; let i : Nat := 9;
      let x : Nat := 77; let s : State :=
      ({ (((blank.cset 7 Cx.valid 1 |>.cset 7 Cx.eui64 77 |>.set Reg.AMC_CTRL_dup_action 0 |>.set Reg.AMC_DUP_CFG_dup_time 9 |>.set (Reg.CTX_POOL_FREE_free 0) 0 |>.set (Reg.CTX_POOL_CNT_count 0) 7 |>.set Reg.JWL_CTRL_enable 1 |>.set Reg.JWL_STATUS_lc_busy 0 |>.set Reg.TWN_CTRL_role 0 |>.cset 7 Cx.key_slot 9)).onFwd (fun x => { x with
          flights := [(5, { f with
            order := 2, stage := .route, rx := { lane := 9 }, ctx := some 3 }), (tag, f)] })) with
        fuses := { lcState := 2 }, jwl := {
          slots := [(9, {
            state := 1, type := 1, world := 0, masters := 31, lcMask := 255, domain := 3, gen := 8, key := [1, 2] })],
          cache := [(cacheSet 9 77, [⟨9, 7, 77, [4]⟩])] } }); s.settled ∧ flightOf s tag = some f ∧ f.up = true ∧
      f.host = none ∧ parseMhr f.octets = some m ∧ f.stage = .context ∧ f.ctx = some k ∧ k < 131072 ∧
      Memory.wf s.store = true ∧ upset = none ∧ ctxBad s k = false ∧ ctxValid s k = true ∧ m.sec = true ∧
      m.level ≠ 0 ∧ m.keyMode = 0 ∧ (m.fcSupp = true ∨ s.cget k Cx.rx_fc_valid = 0 ∨ s.cget k Cx.rx_fc ≠ m.fc) ∧
      secTest s { f with
        heldFc := if s.cget k Cx.rx_fc_valid = 1 then some (s.cget k Cx.rx_fc) else none } m = 0 ∧
      i = s.cget k Cx.key_slot ∧ x = s.cget k Cx.eui64 ∧ s.jwl.derivQ = [] ∧
      (tabGetD s.jwl.cache (cacheSet i x) []).any (fun e =>
      e.slot == i && e.gen == (jslot s i).gen && e.eui == x) = false) ∧
    (let t : Nat := 1000; let tag : Fin 512 := 131; let f : Flight := {
        up := true, ingress := .air, order := 4, stage := .context, octets := [0x49, 0x88, 7, 0xCD, 0xAB, 0x34, 0x12,
          0x78, 0x56, 0x05, 1, 0, 0, 0, 0x41, 0x42, 0x43, 0x44, 0x45, 0x46], rx := { lane := 3 }, bufs := 1,
        ctx := some 7 }; let m : Mhr := (((parseMhr f.octets).getD {
        type := 0, ver := 0, sec := false, ar := false, dsn := none, dstMode := 0, srcMode := 0, dstPan := none,
        srcPan := none, dst := 0, src := 0, hdr := 0 })); let pu : List Nat := [3]; let nu : List Nat := [];
      let ru : Bool := false; let upset : Option (Fin 3) := none; let k : Nat := 7; let i : Nat := 9;
      let x : Nat := 77; let e : Derived := (⟨9, 8, 77, [5, 6]⟩);
      let s : State :=
      ({ (((blank.cset 7 Cx.valid 1 |>.cset 7 Cx.eui64 77 |>.set Reg.AMC_CTRL_dup_action 0 |>.set Reg.AMC_DUP_CFG_dup_time 9 |>.set (Reg.CTX_POOL_FREE_free 0) 0 |>.set (Reg.CTX_POOL_CNT_count 0) 7 |>.set Reg.JWL_CTRL_enable 1 |>.set Reg.JWL_STATUS_lc_busy 0 |>.set Reg.TWN_CTRL_role 0 |>.cset 7 Cx.key_slot 9)).onFwd (fun x => { x with
          flights := [(5, { f with
            order := 2, stage := .route, rx := { lane := 9 }, ctx := some 3 }), (tag, f)] })) with
        fuses := { lcState := 2 }, jwl := {
          slots := [(9, {
            state := 1, type := 1, world := 0, masters := 31, lcMask := 255, domain := 3, gen := 8, key := [1, 2] })],
          cache := [(cacheSet 9 77, [⟨9, 7, 77, [4]⟩, ⟨9, 8, 77, [5, 6]⟩])] } }); s.settled ∧
      flightOf s tag = some f ∧ f.up = true ∧ f.host = none ∧ parseMhr f.octets = some m ∧ f.stage = .context ∧
      f.ctx = some k ∧ k < 131072 ∧ Memory.wf s.store = true ∧ upset = none ∧ ctxBad s k = false ∧
      ctxValid s k = true ∧ m.sec = true ∧ m.level ≠ 0 ∧ m.keyMode = 0 ∧ (m.fcSupp = true ∨
      s.cget k Cx.rx_fc_valid = 0 ∨ s.cget k Cx.rx_fc ≠ m.fc) ∧ secTest s { f with
        heldFc := if s.cget k Cx.rx_fc_valid = 1 then some (s.cget k Cx.rx_fc) else none } m = 0 ∧
      i = s.cget k Cx.key_slot ∧ x = s.cget k Cx.eui64 ∧ (tabGetD s.jwl.cache (cacheSet i x) []).find? (fun e =>
      e.slot == i && e.gen == (jslot s i).gen && e.eui == x) = some e) ∧
    (let t : Nat := 1000; let tag : Fin 512 := 131; let f : Flight := {
        up := true, ingress := .air, order := 4, stage := .context,
        octets := [0x41, 0x88, 7, 0xCD, 0xAB, 0x34, 0x12, 0x78, 0x56, 0x41], rx := { lane := 3 }, bufs := 1,
        ctx := some 8 }; let m : Mhr := (((parseMhr f.octets).getD {
        type := 0, ver := 0, sec := false, ar := false, dsn := none, dstMode := 0, srcMode := 0, dstPan := none,
        srcPan := none, dst := 0, src := 0, hdr := 0 })); let pu : List Nat := [3]; let nu : List Nat := [];
      let ru : Bool := false; let upset : Option (Fin 3) := none; let k : Nat := 8;
      let s : State := ((((blank.cset 7 Cx.valid 1 |>.cset 7 Cx.eui64 77 |>.set Reg.AMC_CTRL_dup_action 0 |>.set
      Reg.AMC_DUP_CFG_dup_time 9 |>.set (Reg.CTX_POOL_FREE_free 0) 0 |>.set (Reg.CTX_POOL_CNT_count 0) 7 |>.set
      Reg.JWL_CTRL_enable 1 |>.set Reg.JWL_STATUS_lc_busy 0 |>.set Reg.TWN_CTRL_role 0)).onFwd (fun x => { x with
        flights := [(5, { f with
          order := 2, stage := .route, rx := { lane := 9 }, ctx := some 3 }), (tag, f)] }))); s.settled ∧
      flightOf s tag = some f ∧ f.up = true ∧ f.host = none ∧ parseMhr f.octets = some m ∧ f.stage = .context ∧
      f.ctx = some k ∧ upset = none ∧ ctxBad s k = false ∧ ctxValid s k = false ∧ f.raw = [] ∧ f.passed = [] ∧
      s.get Reg.TWN_CTRL_role = 0) ∧
    (let t : Nat := 1000; let tag : Fin 512 := 131; let f : Flight := {
        up := true, ingress := .air, order := 4, stage := .derive,
        octets := [0x41, 0x88, 7, 0xCD, 0xAB, 0x34, 0x12, 0x78, 0x56, 0x41], rx := { lane := 3 }, bufs := 1,
        slot := 9, eui := 77, key := [4, 5], started := some 2 }; let m : Mhr := (((parseMhr f.octets).getD {
        type := 0, ver := 0, sec := false, ar := false, dsn := none, dstMode := 0, srcMode := 0, dstPan := none,
        srcPan := none, dst := 0, src := 0, hdr := 0 })); let pu : List Nat := [3]; let nu : List Nat := [];
      let ru : Bool := false; let upset : Option (Fin 3) := (some 1); let q : List Nat := [4, 5, 6]; let g : Nat := 2;
      let s : State := ({ ((blank).onFwd (fun x => { x with
          flights := [(5, { f with
            order := 2, stage := .route, rx := { lane := 9 }, ctx := some 3 }),
            (tag, f)] })).set Reg.JWL_CTRL_enable 1 |>.set Reg.JWL_STATUS_lc_busy 0 with
        fuses := { lcState := 2 }, jwl := {
          derivQ := tag.val :: q, slots := [(9, {
            state := 1, type := 1, world := 0, masters := 31, lcMask := 255, domain := 3, gen := 8,
            key := [1, 2] })] } }); s.settled ∧ flightOf s tag = some f ∧ f.up = true ∧ f.host = none ∧
      parseMhr f.octets = some m ∧ f.stage = .derive ∧ f.started = some g ∧ s.jwl.derivQ = tag.val :: q ∧
      ¬ tag.val ∈ q ∧ s.get Reg.JWL_STATUS_lc_busy = 0 ∧ (∀ e ∈ s.fwd.flights, e.2.stage ≠ .key) ∧ (∀ k ∈ q.take 2,
      (flightOf s k).all (fun x => x.started.isSome) = true)) ∧
    (let t : Nat := 1000; let tag : Fin 512 := 131; let f : Flight := {
        up := true, ingress := .air, order := 4, stage := .derive,
        octets := [0x41, 0x88, 7, 0xCD, 0xAB, 0x34, 0x12, 0x78, 0x56, 0x41], rx := { lane := 3 }, bufs := 1,
        slot := 9, eui := 77, key := [4, 5], started := some 2 }; let m : Mhr := (((parseMhr f.octets).getD {
        type := 0, ver := 0, sec := false, ar := false, dsn := none, dstMode := 0, srcMode := 0, dstPan := none,
        srcPan := none, dst := 0, src := 0, hdr := 0 })); let pu : List Nat := [3]; let nu : List Nat := [];
      let ru : Bool := false; let upset : Option (Fin 3) := (some 1); let g : Nat := 2; let i : Nat := 5;
      let h : Flight := {
        up := true, ingress := .air, order := 4, stage := .derive,
        octets := [0x41, 0x88, 7, 0xCD, 0xAB, 0x34, 0x12, 0x78, 0x56, 0x41], rx := { lane := 3 }, bufs := 1,
        slot := 9, eui := 78 }; let s : State := ({ ((blank).onFwd (fun x => { x with
          flights := [(5, { f with
            order := 2, stage := .route, rx := { lane := 9 }, ctx := some 3 }),
            (tag, f)] })).set Reg.JWL_CTRL_enable 1 |>.set Reg.JWL_STATUS_lc_busy 0 with
        fuses := { lcState := 2 }, fwd := { flights := [(5, h), (tag, f)] }, jwl := {
          derivQ := [tag, 5], slots := [(9, {
            state := 1, type := 1, world := 0, masters := 31, lcMask := 255, domain := 3, gen := 8,
            key := [1, 2] })] } }); s.settled ∧ flightOf s tag = some f ∧ f.up = true ∧ f.host = none ∧
      parseMhr f.octets = some m ∧ f.stage = .derive ∧ f.started = some g ∧ s.jwl.derivQ = [tag.val, i] ∧
      i ≠ tag.val ∧ flightOf s i = some h ∧ h.started = none ∧ pipeKeyTest s h.slot 1 1 = 0 ∧
      s.get Reg.JWL_STATUS_lc_busy = 0 ∧ (∀ e ∈ s.fwd.flights, e.2.stage ≠ .key)) ∧
    (let t : Nat := 1000; let tag : Fin 512 := 131; let f : Flight := {
        up := true, ingress := .air, order := 4, stage := .derive,
        octets := [0x41, 0x88, 7, 0xCD, 0xAB, 0x34, 0x12, 0x78, 0x56, 0x41], rx := { lane := 3 }, bufs := 1,
        slot := 9, eui := 77, key := [4, 5], started := some 2 }; let m : Mhr := (((parseMhr f.octets).getD {
        type := 0, ver := 0, sec := false, ar := false, dsn := none, dstMode := 0, srcMode := 0, dstPan := none,
        srcPan := none, dst := 0, src := 0, hdr := 0 })); let pu : List Nat := [3]; let nu : List Nat := [];
      let ru : Bool := false; let upset : Option (Fin 3) := (some 1); let q : List Nat := [4, 6]; let g : Nat := 2;
      let i : Nat := 5; let h : Flight := {
        up := true, ingress := .air, order := 4, stage := .key,
        octets := [0x41, 0x88, 7, 0xCD, 0xAB, 0x34, 0x12, 0x78, 0x56, 0x41], rx := { lane := 3 }, bufs := 1,
        slot := 9, eui := 78 }; let s : State := ({ ((blank).onFwd (fun x => { x with
          flights := [(5, { f with
            order := 2, stage := .route, rx := { lane := 9 }, ctx := some 3 }),
            (tag, f)] })).set Reg.JWL_CTRL_enable 1 |>.set Reg.JWL_STATUS_lc_busy 0 with
        fuses := { lcState := 2 }, fwd := { flights := [(5, h), (9, { h with order := 8 }), (tag, f)] },
        jwl := { derivQ := [tag.val, 4, 6] } }); s.settled ∧ flightOf s tag = some f ∧ f.up = true ∧ f.host = none ∧
      parseMhr f.octets = some m ∧ f.stage = .derive ∧ f.started = some g ∧ s.jwl.derivQ = tag.val :: q ∧
      ¬ tag.val ∈ q ∧ 2 ≤ q.length ∧ q.length < 66 ∧ s.get Reg.JWL_STATUS_lc_busy = 0 ∧
      (s.fwd.flights.map (·.1)).Nodup ∧ flightOf s i = some h ∧ h.stage = .key ∧ (∀ e ∈ s.fwd.flights,
      e.2.stage = .key → e = (i, h) ∨ h.order < e.2.order) ∧ (∀ k ∈ q.take 2,
      (flightOf s k).all (fun x => x.started.isSome) = true)) ∧
    (let t : Nat := 1000; let tag : Fin 512 := 131; let f : Flight := {
        up := true, ingress := .air, order := 4, stage := .ccm,
        octets := [0x41, 0x88, 7, 0xCD, 0xAB, 0x34, 0x12, 0x78, 0x56, 0x41], rx := { lane := 3 }, bufs := 1 };
      let m : Mhr := (((parseMhr f.octets).getD {
        type := 0, ver := 0, sec := false, ar := false, dsn := none, dstMode := 0, srcMode := 0, dstPan := none,
        srcPan := none, dst := 0, src := 0, hdr := 0 })); let pu : List Nat := [3]; let nu : List Nat := [];
      let ru : Bool := false; let upset : Option (Fin 3) := (some 1); let s : State := (((blank).onFwd (fun x =>
      { x with
        flights := [(5, { f with
          order := 2, stage := .route, rx := { lane := 9 }, ctx := some 3 }), (tag, f)] })).set Reg.TWN_CTRL_role 0);
      s.settled ∧ flightOf s tag = some f ∧ f.up = true ∧ f.host = none ∧ parseMhr f.octets = some m ∧
      f.stage = .ccm ∧ f.sec = 0 ∧ f.passed = [] ∧ f.raw = [] ∧ f.ctx = none ∧ (m.sec = false ∨ m.level = 0) ∧
      s.get Reg.TWN_CTRL_role = 0) ∧
    (let t : Nat := 1000; let tag : Fin 512 := 131; let f : Flight := (let f0 : Flight := {
        up := true, ingress := .air, order := 4, stage := .ccm, octets := [0x49, 0x88, 7, 0xCD, 0xAB, 0x34, 0x12,
          0x78, 0x56, 0x05, 1, 0, 0, 0, 0x41, 0x42, 0x43, 0x44, 0x45, 0x46], rx := { lane := 3 }, bufs := 1,
        key := [1, 2, 3, 4, 5, 6, 7, 8, 9, 10, 11, 12, 13, 14, 15, 16], eui := 77 }; { f0 with
        octets := (f0.octets.take 14) ++ ccmSeal 4 f0.key (ccmNonce f0.eui 1 5) (f0.octets.take 14) [0x41, 0x42] });
      let m : Mhr := (((parseMhr f.octets).getD {
        type := 0, ver := 0, sec := false, ar := false, dsn := none, dstMode := 0, srcMode := 0, dstPan := none,
        srcPan := none, dst := 0, src := 0, hdr := 0 })); let pu : List Nat := [3]; let nu : List Nat := [];
      let ru : Bool := false; let upset : Option (Fin 3) := (some 1);
      let p : List Byte := (f.octets.take 14 ++ [0x41, 0x42]); let s : State := (((blank).onFwd (fun x => { x with
        flights := [(5, { f with
          order := 2, stage := .route, rx := { lane := 9 }, ctx := some 3 }), (tag, f)] }))); s.settled ∧
      flightOf s tag = some f ∧ f.up = true ∧ f.host = none ∧ parseMhr f.octets = some m ∧ f.stage = .ccm ∧
      f.sec = 0 ∧ f.passed = [] ∧ f.raw = [] ∧ f.ctx = none ∧ m.sec = true ∧ m.level ≠ 0 ∧ openFrame f m = some p ∧
      isEbr m p = false) ∧
    (let t : Nat := 1000; let tag : Fin 512 := 131; let f : Flight := {
        up := true, ingress := .air, order := 4, stage := .ccm, octets := ([0x61, 0x88, 7, 0xCD, 0xAB, 0x34, 0x12,
          0x78, 0x56, 0x41, 0x60, 0, 0, 0, 0, 8, 0x3B,
          64] ++ List.replicate 15 0x20 ++ [1] ++ List.replicate 15 0x20 ++ [2] ++ [0, 7, 0, 9, 0, 8, 1, 2]),
        rx := { lane := 3 }, bufs := 1, ctx := some 7 }; let m : Mhr := (((parseMhr f.octets).getD {
        type := 0, ver := 0, sec := false, ar := false, dsn := none, dstMode := 0, srcMode := 0, dstPan := none,
        srcPan := none, dst := 0, src := 0, hdr := 0 })); let pu : List Nat := [3]; let nu : List Nat := [];
      let ru : Bool := false; let upset : Option (Fin 3) := (some 1); let k : Nat := 7; let i : Nat := 4;
      let p : List Byte := (f.octets.drop 10); let e : PtEntry := {
        value := 0, mask := 0, plen := 0, ord := 4, action := 1, port := 5, svc := 3, sci := 9 };
      let s : State := (((((blank.cset 7 Cx.valid 1 |>.cset 7 Cx.eui64 77 |>.set Reg.AMC_CTRL_dup_action 0 |>.set
      Reg.AMC_DUP_CFG_dup_time 9 |>.set (Reg.CTX_POOL_FREE_free 0) 0 |>.set (Reg.CTX_POOL_CNT_count 0) 7 |>.set
      Reg.JWL_CTRL_enable 1 |>.set Reg.JWL_STATUS_lc_busy 0 |>.set Reg.TWN_CTRL_role 0 |>.set Reg.FWD_CTRL_learn_en 0
      |>.set Reg.SLP_CTRL_enable 0 |>.set Reg.BAL_STATUS_state 1 |>.cset 7 Cx.rx_count 65535)).onFwd (fun x =>
      { x with
        flights := [(5, { f with
          order := 2, stage := .route, rx := { lane := 9 }, ctx := some 3 }),
          (tag, f)] }))).onFwd (fun x => { x with pt := [(4, e)] })); s.settled ∧ flightOf s tag = some f ∧
      f.up = true ∧ f.host = none ∧ parseMhr f.octets = some m ∧ f.stage = .ccm ∧ f.sec = 0 ∧ f.passed = [] ∧
      f.ctx = some k ∧ k < 131072 ∧ Memory.wf s.store = true ∧ ctxValid s k = true ∧ m.sec = false ∧ m.type = 1 ∧
      m.ends ≠ 1 ∧ f.octets.drop m.hdr = 0x41 :: p ∧ 40 ≤ p.length ∧ s.get Reg.FWD_CTRL_learn_en = 0 ∧
      s.get Reg.SLP_CTRL_enable = 0 ∧ s.get Reg.BAL_STATUS_state < 2 ∧ s.get Reg.TWN_CTRL_role = 0 ∧
      s.fwd.pt.any (fun e => pu.contains e.1 && !e.2.bad) = false ∧
      ptMatch s (ptKeyOf (ofBe (ipDst p)) (keyPort f) (ipTclass p / 4)) = some (i, e) ∧ e.action = 1 ∧ 4 ≤ e.port ∧
      e.port ≠ 6 ∧ 1 < ipHop p) ∧
    (let t : Nat := 1000; let tag : Fin 512 := 131; let f : Flight := {
        up := true, ingress := .air, order := 4, stage := .ccm, octets := ([0x61, 0x88, 7, 0xCD, 0xAB, 0x34, 0x12,
          0x78, 0x56, 0x41, 0x60, 0, 0, 0, 0, 8, 0x3B,
          64] ++ List.replicate 15 0x20 ++ [1] ++ List.replicate 15 0x20 ++ [2] ++ [0, 7, 0, 9, 0, 8, 1, 2]),
        rx := { lane := 3 }, bufs := 1, ctx := some 7 }; let m : Mhr := (((parseMhr f.octets).getD {
        type := 0, ver := 0, sec := false, ar := false, dsn := none, dstMode := 0, srcMode := 0, dstPan := none,
        srcPan := none, dst := 0, src := 0, hdr := 0 })); let pu : List Nat := [3]; let nu : List Nat := [];
      let ru : Bool := false; let upset : Option (Fin 3) := (some 1);
      let s : State := ((((blank.cset 7 Cx.valid 1 |>.cset 7 Cx.eui64 77 |>.set Reg.AMC_CTRL_dup_action 0 |>.set
      Reg.AMC_DUP_CFG_dup_time 9 |>.set (Reg.CTX_POOL_FREE_free 0) 0 |>.set (Reg.CTX_POOL_CNT_count 0) 7 |>.set
      Reg.JWL_CTRL_enable 1 |>.set Reg.JWL_STATUS_lc_busy 0 |>.set Reg.TWN_CTRL_role 0 |>.set Reg.FWD_CTRL_learn_en 1
      |>.set Reg.SLP_CTRL_enable 1)).onFwd (fun x => { x with
        flights := [(5, { f with
          order := 2, stage := .route, rx := { lane := 9 }, ctx := some 3 }), (tag, f)] }))); s.settled ∧
      flightOf s tag = some f ∧ f.up = true ∧ f.host = none ∧ parseMhr f.octets = some m ∧ f.stage = .ccm ∧
      f.sec = 0 ∧ (m.sec = false ∨ m.level = 0)) ∧
    (let t : Nat := 1000; let tag : Fin 512 := 131; let f : Flight := (let f0 : Flight := {
        up := true, ingress := .air, order := 4, stage := .ccm, octets := [0x49, 0x88, 7, 0xCD, 0xAB, 0x34, 0x12,
          0x78, 0x56, 0x05, 1, 0, 0, 0, 0x41, 0x42, 0x43, 0x44, 0x45, 0x46], rx := { lane := 3 }, bufs := 1,
        key := [1, 2, 3, 4, 5, 6, 7, 8, 9, 10, 11, 12, 13, 14, 15, 16], eui := 77 }; { f0 with
        octets := (f0.octets.take 14) ++ ccmSeal 4 f0.key (ccmNonce f0.eui 1 5) (f0.octets.take 14) [0x41, 0x42] });
      let m : Mhr := (((parseMhr f.octets).getD {
        type := 0, ver := 0, sec := false, ar := false, dsn := none, dstMode := 0, srcMode := 0, dstPan := none,
        srcPan := none, dst := 0, src := 0, hdr := 0 })); let pu : List Nat := [3]; let nu : List Nat := [];
      let ru : Bool := false; let upset : Option (Fin 3) := (some 1);
      let p : List Byte := (f.octets.take 14 ++ [0x41, 0x42]); let s : State := (((blank).onFwd (fun x => { x with
        flights := [(5, { f with
          order := 2, stage := .route, rx := { lane := 9 }, ctx := some 3 }), (tag, f)] }))); s.settled ∧
      flightOf s tag = some f ∧ f.up = true ∧ f.host = none ∧ parseMhr f.octets = some m ∧ f.stage = .ccm ∧
      f.sec = 0 ∧ m.sec = true ∧ m.level ≠ 0 ∧ openFrame f m = some p ∧ isEbr m p = false) ∧
    (let t : Nat := 1000; let tag : Fin 512 := 131; let f : Flight := {
        up := true, ingress := .air, order := 4, stage := .ccm, octets := [0x49, 0x88, 7, 0xCD, 0xAB, 0x34, 0x12,
          0x78, 0x56, 0x05, 1, 0, 0, 0, 0x41, 0x42, 0x43, 0x44, 0x45, 0x46], rx := { lane := 3 }, bufs := 1,
        key := [1, 2, 3, 4, 5, 6, 7, 8, 9, 10, 11, 12, 13, 14, 15, 16], eui := 77 };
      let m : Mhr := (((parseMhr f.octets).getD {
        type := 0, ver := 0, sec := false, ar := false, dsn := none, dstMode := 0, srcMode := 0, dstPan := none,
        srcPan := none, dst := 0, src := 0, hdr := 0 })); let pu : List Nat := [3]; let nu : List Nat := [];
      let ru : Bool := false; let upset : Option (Fin 3) := (some 1); let s : State := (((blank).onFwd (fun x =>
      { x with
        flights := [(5, { f with
          order := 2, stage := .route, rx := { lane := 9 }, ctx := some 3 }), (tag, f)] }))); s.settled ∧
      flightOf s tag = some f ∧ f.up = true ∧ f.host = none ∧ parseMhr f.octets = some m ∧ f.stage = .ccm ∧
      f.sec = 0 ∧ m.sec = true ∧ m.level ≠ 0 ∧ openFrame f m = none) := by
  refine ⟨?_, ?_, ?_, ?_, ?_, ?_, ?_, ?_, ?_, ?_, ?_, ?_, ?_, ?_, ?_, ?_, ?_, ?_⟩ <;> decide +kernel

theorem test_FlightsComplete_met :
    (let t : Nat := 1000; let p : Port := .host; let w : WaitFrame := {
        ingress := .host, octets := [0x60, 1, 2], pool := 4, bufs := 1, svc := some 3 }; let l : List WaitFrame := [];
      let tag : Nat := 128; let upset : List Nat := [1, 2];
      let s : State := ((blank.set Reg.FWD_CTRL_enable 1 |>.set Reg.CTX_CTRL_enable 1).onFwd
      (fun x => { x with waiting := w :: l })); s.settled ∧ s.fwd.waiting = w :: l ∧ w.ingress = ingressOf p ∧
      w.up = false ∧ freeTag s (ingressOf p) 0 = some tag) ∧
    (let t : Nat := 1000; let p : Port := .eth1; let tag : Nat := 200; let v : Nat := 3; let f : Flight := {
        up := false, ingress := .eth 1, order := 4, stage := .ingress,
        octets := [0x41, 0x88, 7, 0xCD, 0xAB, 0x34, 0x12, 0x78, 0x56, 0x41], rx := { lane := 3 }, bufs := 1,
        svc := some 3 }; let pu : List Nat := []; let nu : List Nat := []; let s : State := (blank.onFwd (fun x =>
      { x with
        flights := [(9, { f with order := 5 }), (tag, f), (201, { f with ingress := .host })] })); s.settled ∧
      atIngress s (ingressOf p) = some (tag, f) ∧ f.svc = some v ∧ ¬ orderKey { f with port := 6 } ∈ f.passed) ∧
    (let t : Nat := 1000; let p : Port := .eth1; let tag : Nat := 200; let i : Nat := 4; let f : Flight := {
        up := false, ingress := .eth 1, order := 4, stage := .ingress,
        octets := (([0x60, 0, 0, 0, 0, 8, 0x11, 64] ++ List.replicate 15 0x20 ++ [1] ++ List.replicate 15 0x20 ++ [2] ++ [0, 7, 0, 9, 0, 8, 1, 2]) ++ [1, 2, 3]),
        rx := { lane := 3 }, bufs := 1 }; let q : List Byte := (f.octets.take (40 + ipLen f.octets));
      let e : PtEntry := {
        value := 0, mask := 0, plen := 0, ord := 4, action := 1, port := 5, svc := 3, sci := 9 };
      let pu : List Nat := [3]; let nu : List Nat := []; let s : State := (blank.onFwd (fun x => { x with
        flights := [(9, { f with order := 5 }), (tag, f)], pt := [(4, e)] })); s.settled ∧
      atIngress s (ingressOf p) = some (tag, f) ∧ f.svc = none ∧ f.up = false ∧
      q = f.octets.take (40 + ipLen f.octets) ∧ f.passed = [] ∧
      s.fwd.pt.any (fun e => pu.contains e.1 && !e.2.bad) = false ∧
      ptMatch s (ptKeyOf (ofBe (ipDst q)) (keyPort f) (ipTclass q / 4)) = some (i, e) ∧ e.action = 1 ∧ 4 ≤ e.port ∧
      e.port ≠ 6) ∧
    (let t : Nat := 1000; let p : Port := .eth1; let tag : Nat := 200; let f : Flight := {
        up := false, ingress := .eth 1, order := 4, stage := .ingress,
        octets := ([0x60, 0, 0, 0, 0, 8, 0x11, 64] ++ List.replicate 15 0x20 ++ [1] ++ List.replicate 15 0x20 ++ [2] ++ [0, 7, 0, 9, 0, 8, 1, 2]),
        rx := { lane := 3 }, bufs := 1 }; let q : List Byte := (f.octets.take (40 + ipLen f.octets));
      let pu : List Nat := [3]; let nu : List Nat := []; let s : State := (blank.onFwd (fun x =>
      { x with flights := [(9, { f with order := 5 }), (tag, f)] }) |>.set Reg.FWD_CTRL_miss_action 0); s.settled ∧
      atIngress s (ingressOf p) = some (tag, f) ∧ f.svc = none ∧ f.up = false ∧
      q = f.octets.take (40 + ipLen f.octets) ∧ f.passed = [] ∧
      s.fwd.pt.any (fun e => pu.contains e.1 && !e.2.bad) = false ∧
      ptMatch s (ptKeyOf (ofBe (ipDst q)) (keyPort f) (ipTclass q / 4)) = none ∧ s.get Reg.FWD_CTRL_miss_action = 0) ∧
    (let t : Nat := 1000; let p : Port := .eth1; let tag : Nat := 200; let i : Nat := 4; let f : Flight := {
        up := false, ingress := .eth 1, order := 4, stage := .ingress,
        octets := (([0x60, 0, 0, 0, 0, 8, 0x11, 64] ++ List.replicate 15 0x20 ++ [1] ++ List.replicate 15 0x20 ++ [2] ++ [0, 7, 0, 9, 0, 8, 1, 2]) ++ [1, 2, 3]),
        rx := { lane := 3 }, bufs := 1 }; let q : List Byte := (f.octets.take (40 + ipLen f.octets));
      let key : Nat := (flipUl (ofBe ((ipDst q).drop 8))); let j : Nat := ((4 * (ntBuckets ({} : State) key 0).1));
      let e : PtEntry := {
        value := 0, mask := 0, plen := 0, ord := 4, action := 0, port := 5, svc := 3, sci := 9 };
      let pu : List Nat := [3]; let nu : List Nat := [77];
      let s : State := ((nset (nset (nset (blank.set Reg.TWN_CTRL_role 0) j Nt.key key) j Nt.valid 1) j Nt.ctx
      5).onFwd (fun x => { x with
        flights := [(9, { f with order := 5 }), (tag, f)], pt := [(4, e)] })); s.settled ∧
      atIngress s (ingressOf p) = some (tag, f) ∧ f.svc = none ∧ f.up = false ∧
      q = f.octets.take (40 + ipLen f.octets) ∧ s.fwd.pt.any (fun e => pu.contains e.1 && !e.2.bad) = false ∧
      ptMatch s (ptKeyOf (ofBe (ipDst q)) (keyPort f) (ipTclass q / 4)) = some (i, e) ∧ e.action = 0 ∧
      s.get Reg.TWN_CTRL_role = 0 ∧ ((ipDst q).drop 8).take 6 ≠ [0, 0, 0, 0xFF, 0xFE, 0] ∧
      key = flipUl (ofBe ((ipDst q).drop 8)) ∧ (∀ x ∈ ntReads s key 0, ¬ x ∈ nu) ∧ ntFind s key 0 = some j ∧
      ntValid s j = true ∧ 1 < ipHop q) ∧
    (let t : Nat := 1000; let tag : Fin 512 := 131; let f : Flight := {
        up := true, ingress := .air, order := 4, stage := .done,
        octets := [0x41, 0x88, 7, 0xCD, 0xAB, 0x34, 0x12, 0x78, 0x56, 0x41], rx := { lane := 3 }, bufs := 1 };
      let s : State := (((blank).onFwd (fun x => { x with
        flights := [(5, { f with
          order := 2, stage := .route, rx := { lane := 9 }, ctx := some 3 }), (tag, f)] }))); s.settled ∧
      flightOf s tag = some f ∧ f.stage = .done ∧ (∀ e ∈ s.fwd.flights, mayPrecede s e.2 f = true →
      e.2.order < f.order → e.2.stage = .released)) ∧
    (let t : Nat := 9000000; let tag : Fin 512 := 131; let f : Flight := {
        up := true, ingress := .air, order := 4, stage := .done,
        octets := [0x41, 0x88, 7, 0xCD, 0xAB, 0x34, 0x12, 0x78, 0x56, 0x41], rx := { lane := 3 }, bufs := 1 };
      let s : State := ((((blank).onFwd (fun x => { x with
        flights := [(5, { f with
          order := 2, stage := .route, rx := { lane := 9 }, ctx := some 3 }), (tag, f)] })).onFwd (fun x => { x with
        flights := (2, { f with order := 3, stage := .derive }) :: x.flights })).set Reg.FWD_REORDER_CFG_reorder_lim
      0); s.settled ∧ flightOf s tag = some f ∧ f.stage = .done ∧ (s.fwd.flights.map (·.1)).Nodup ∧
      (∀ e ∈ s.fwd.flights, mayPrecede s e.2 f = true → e.2.order < f.order → e.2.stage = .released ∨
      (e.2.stage ≠ .done ∧ e.2.since + reorderLim s < max s.ltb t))) ∧
    (let t : Nat := 1000; let tag : Fin 512 := 131; let f : Flight := {
        up := true, ingress := .air, order := 4, stage := .released,
        octets := [0x41, 0x88, 7, 0xCD, 0xAB, 0x34, 0x12, 0x78, 0x56, 0x41], rx := { lane := 3 }, bufs := 1,
        port := 7, svc := some 15 }; let s : State := (((blank).onFwd (fun x => { x with
        flights := [(5, { f with
          order := 2, stage := .route, rx := { lane := 9 }, ctx := some 3 }),
          (tag, f)] })).set (Reg.ESC_SVC_AGE_qmax (16 * f.port + f.svc.getD 0)) 0); s.settled ∧
      flightOf s tag = some f ∧ f.stage = .released ∧ f.out = [] ∧ 6 ≤ f.port ∧ f.port ≤ 7 ∧ f.host = none ∧
      (f.svc.getD 0) < 16 ∧ (∀ e ∈ s.fwd.flights, orderKey e.2 = orderKey f → e.2.stage = .released →
      f.order ≤ e.2.order) ∧ (svcQueue s (16 * f.port + f.svc.getD 0)).length < atLeast1
      (s.get (Reg.ESC_SVC_AGE_qmax (16 * f.port + f.svc.getD 0)))) ∧
    (let t : Nat := 1000; let i : Fin 4096 := 4095; let r : Reasm := {
        src := (2, 7), size := 90, dtag := 3, opened := 5, due := 900, parts := [(0, [1, 2])], bufs := 2 };
      let s : State := ((blank.onFwd (fun x => { x with reasm := [(2, r), (4095, r)] })).set
      (Reg.CTX_POOL_FREE_free 2) 0 |>.set (Reg.CTX_POOL_CNT_count 2) 7); s.settled ∧ tabGet s.fwd.reasm i = some r ∧
      r.due ≤ max s.ltb t ∧ r.bufs + poolFree s 2 ≤ s.get (Reg.CTX_POOL_CNT_count 2)) := by
  refine ⟨?_, ?_, ?_, ?_, ?_, ?_, ?_, ?_, ?_⟩ <;> decide +kernel

theorem test_DownlinkSecureCompletes_met :
    (let t : Nat := 1000; let tag : Fin 512 := 131; let f : Flight := {
        up := false, ingress := .eth 0, order := 4, stage := .route,
        octets := ([0x60, 0, 0, 0, 0, 8, 0x11, 64] ++ List.replicate 15 0x20 ++ [1] ++ List.replicate 15 0x20 ++ [2] ++ [0, 7, 0, 9, 0, 8, 1, 2]),
        rx := { lane := 3 }, bufs := 1, prim := some 3, ctx := some 5 }; let p : Nat := 3; let c : Nat := 5;
      let h : Nat := 6; let hops : List Nat := [6]; let upset : List Nat := [77]; let line : Option (Fin 3) := none;
      let s : State := ((((nset (nset (nset (nset (nset ((blank.cset 4 Cx.tx_profile 2).cset 5 Cx.valid 1 |>.cset 4
      Cx.valid 1) 3 Nt.ctx 5 |> fun s => nset s 3 Nt.valid 1) 3 Nt.parent 6 |> fun s =>
      nset s 6 Nt.valid 1) 6 Nt.parent ntSite) 6 Nt.ctx 4) 6 Nt.key 77 |>.set (Reg.PHY_PROF_CTRL_valid 2) 1).onFwd
      (fun x => { x with
        flights := [(5, { f with order := 2, rx := { lane := 9 }, ctx := some 3 }), (tag, f)] })))); s.settled ∧
      flightOf s tag = some f ∧ f.up = false ∧ f.stage = .route ∧ f.ctx = some c ∧ routePrimary s f c = some p ∧
      p ≠ ntNone ∧ ctxBad s c = false ∧ ctxValid s c = true ∧ line = none ∧ ntIsBad s p = false ∧
      (∀ i ∈ walkEntries 25 s p, ¬ i ∈ upset) ∧ (routeWalk 25 s (nget s p Nt.parent) []).toOption = some hops ∧
      h = hops.headD p ∧ ctxBad s (nget s h Nt.ctx) = false ∧ ctxValid s (nget s h Nt.ctx) = true ∧
      s.get (Reg.PHY_PROF_CTRL_valid (s.cget (nget s h Nt.ctx) Cx.tx_profile)) ≠ 0) ∧
    (let t : Nat := 1000; let tag : Fin 512 := 131; let f : Flight := {
        up := false, ingress := .eth 0, order := 4, stage := .route,
        octets := ([0x60, 0, 0, 0, 0, 8, 0x11, 64] ++ List.replicate 15 0x20 ++ [1] ++ List.replicate 15 0x20 ++ [2] ++ [0, 7, 0, 9, 0, 8, 1, 2]),
        rx := { lane := 3 }, bufs := 1, prim := some 3, ctx := some 5 }; let p : Nat := 3; let c : Nat := 5;
      let upset : List Nat := [77]; let line : Option (Fin 3) := none;
      let s : State := ((((nset (nset (blank.cset 5 Cx.valid 1 |>.set Reg.FWD_CTRL_rte_fail_action 0) 3 Nt.ctx 5 |>
      fun s => nset s 3 Nt.valid 1) 3 Nt.parent ntNone).onFwd (fun x => { x with
        flights := [(5, { f with order := 2, rx := { lane := 9 }, ctx := some 3 }), (tag, f)] })))); s.settled ∧
      flightOf s tag = some f ∧ f.up = false ∧ f.stage = .route ∧ f.ctx = some c ∧ routePrimary s f c = some p ∧
      p ≠ ntNone ∧ ctxBad s c = false ∧ ctxValid s c = true ∧ line = none ∧ ntIsBad s p = false ∧ f.host = none ∧
      (∀ i ∈ walkEntries 25 s p, ¬ i ∈ upset) ∧ nget s p Nt.parent = ntNone ∧ s.get Reg.FWD_CTRL_rte_fail_action = 0 ∧
      f.passed = []) ∧
    (let t : Nat := 1000; let tag : Fin 512 := 131; let f : Flight := {
        up := false, ingress := .eth 0, order := 4, stage := .secure,
        octets := ([0x60, 0, 0, 0, 0, 8, 0x11, 64] ++ List.replicate 15 0x20 ++ [1] ++ List.replicate 15 0x20 ++ [2] ++ [0, 7, 0, 9, 0, 8, 1, 2]),
        rx := { lane := 3 }, bufs := 1, hop := some 4, out := [{
          parm := {
            profile := 3, family := 1, band := 0, fcs2 := true, occHz := 200000, maxPsdu := 127, n := 40,
            airUs := 900, shrUs := 50, ackUs := 60 }, psdu := [0x29, 0xDC, 7, 0xCD, 0xAB, 1, 2, 3, 4, 5, 6, 7, 8, 1,
            2, 3, 4, 5, 6, 7, 8, 5, 0, 0, 0, 0, 0x41, 0x42], ar := true, ver := 1, dsn := some 7, dst := (3, 99),
          hop := some 3 }] }; let k : Nat := 4; let l : Nat := 6; let a : AirOut := {
        parm := {
          profile := 3, family := 1, band := 0, fcs2 := true, occHz := 200000, maxPsdu := 127, n := 40, airUs := 900,
          shrUs := 50, ackUs := 60 }, psdu := [0x29, 0xDC, 7, 0xCD, 0xAB, 1, 2, 3, 4, 5, 6, 7, 8, 1, 2, 3, 4, 5, 6, 7,
          8, 5, 0, 0, 0, 0, 0x41, 0x42], ar := true, ver := 1, dsn := some 7, dst := (3, 99), hop := some 3 };
      let upset : Option (Fin 3) := none; let s : State :=
      ({ (((blank.cset 4 Cx.sec_level 6).cset 4 Cx.tx_fc 258 |>.cset 4 Cx.fc_limit 999999 |>.cset 4 Cx.fc_req 1 |>.cset 4 Cx.key_slot 9 |>.cset 4 Cx.valid 1 |>.set Reg.JWL_CTRL_enable 1 |>.set Reg.JWL_STATUS_lc_busy 0).onFwd (fun x => { x with
          flights := [(5, { f with order := 2, rx := { lane := 9 }, ctx := some 3 }), (tag, f)] })) with
        fuses := { lcState := 2 }, jwl := {
          derivQ := [3, 8, 9], slots := [(9, {
            state := 1, type := 1, world := 0, masters := 31, lcMask := 255, key := [1, 2] })] } }); s.settled ∧
      flightOf s tag = some f ∧ f.up = false ∧ f.stage = .secure ∧ f.hop = some k ∧ f.out = [a] ∧ ctxBad s k = false ∧
      ctxValid s k = true ∧ upset = none ∧ s.cget k Cx.sec_level = l ∧ 5 ≤ l ∧
      s.cget k Cx.tx_fc < s.cget k Cx.fc_limit ∧ s.cget k Cx.fc_req = 1 ∧
      pipeKeyTest s (s.cget k Cx.key_slot) 1 1 = 0 ∧
      (tabGetD s.jwl.cache (cacheSet (s.cget k Cx.key_slot) f.eui) []).any (fun e =>
      e.slot == s.cget k Cx.key_slot && e.gen == (jslot s (s.cget k Cx.key_slot)).gen && e.eui == f.eui) = false ∧
      s.jwl.derivQ.length < 66 ∧ (∀ j ∈ (s.jwl.derivQ ++ [tag.val]).take 2,
      (flightOf s j).all (fun x => x.started.isSome) = true)) ∧
    (let t : Nat := 1000; let tag : Fin 512 := 131; let f : Flight := {
        up := false, ingress := .eth 0, order := 4, stage := .secure,
        octets := ([0x60, 0, 0, 0, 0, 8, 0x11, 64] ++ List.replicate 15 0x20 ++ [1] ++ List.replicate 15 0x20 ++ [2] ++ [0, 7, 0, 9, 0, 8, 1, 2]),
        rx := { lane := 3 }, bufs := 1, hop := some 4, out := [{
          parm := {
            profile := 3, family := 1, band := 0, fcs2 := true, occHz := 200000, maxPsdu := 127, n := 40,
            airUs := 900, shrUs := 50, ackUs := 60 }, psdu := [0x29, 0xDC, 7, 0xCD, 0xAB, 1, 2, 3, 4, 5, 6, 7, 8, 1,
            2, 3, 4, 5, 6, 7, 8, 5, 0, 0, 0, 0, 0x41, 0x42], ar := true, ver := 1, dsn := some 7, dst := (3, 99),
          hop := some 3 }, {
          parm := {
            profile := 3, family := 1, band := 0, fcs2 := true, occHz := 200000, maxPsdu := 127, n := 40,
            airUs := 900, shrUs := 50, ackUs := 60 }, psdu := [0x29, 0xDC, 7, 0xCD, 0xAB, 1, 2, 3, 4, 5, 6, 7, 8, 1,
            2, 3, 4, 5, 6, 7, 8, 5, 0, 0, 0, 0, 0x41, 0x42], ar := true, ver := 1, dsn := some 7, dst := (3, 99),
          hop := some 3 }] }; let k : Nat := 4; let upset : Option (Fin 3) := none;
      let s : State :=
      ({ (((blank.cset 4 Cx.sec_level 6).cset 4 Cx.tx_fc 258 |>.cset 4 Cx.fc_limit 260 |>.cset 4 Cx.fc_req 1 |>.cset 4 Cx.key_slot 9 |>.cset 4 Cx.valid 1 |>.set Reg.JWL_CTRL_enable 1 |>.set Reg.JWL_STATUS_lc_busy 0).onFwd (fun x => { x with
          flights := [(5, { f with order := 2, rx := { lane := 9 }, ctx := some 3 }), (tag, f)] })) with
        fuses := { lcState := 2 }, jwl := {
          derivQ := [3, 8, 9], slots := [(9, {
            state := 1, type := 1, world := 0, masters := 31, lcMask := 255, key := [1, 2] })] } }); s.settled ∧
      flightOf s tag = some f ∧ f.up = false ∧ f.stage = .secure ∧ f.hop = some k ∧ ctxBad s k = false ∧
      ctxValid s k = true ∧ upset = none ∧ 5 ≤ s.cget k Cx.sec_level ∧
      s.cget k Cx.tx_fc + f.out.length ≤ s.cget k Cx.fc_limit ∧ s.cget k Cx.fc_limit < 2 ^ 32 ∧
      s.cget k Cx.fc_req = 1 ∧ k < 131072 ∧ Memory.wf s.store = true ∧ pipeKeyTest s (s.cget k Cx.key_slot) 1 1 = 0 ∧
      (tabGetD s.jwl.cache (cacheSet (s.cget k Cx.key_slot) f.eui) []).any (fun e =>
      e.slot == s.cget k Cx.key_slot && e.gen == (jslot s (s.cget k Cx.key_slot)).gen && e.eui == f.eui) = false ∧
      s.jwl.derivQ.length < 66 ∧ (∀ j ∈ (s.jwl.derivQ ++ [tag.val]).take 2,
      (flightOf s j).all (fun x => x.started.isSome) = true)) ∧
    (let t : Nat := 1000; let tag : Fin 512 := 131; let f : Flight := {
        up := false, ingress := .eth 0, order := 4, stage := .secure,
        octets := ([0x60, 0, 0, 0, 0, 8, 0x11, 64] ++ List.replicate 15 0x20 ++ [1] ++ List.replicate 15 0x20 ++ [2] ++ [0, 7, 0, 9, 0, 8, 1, 2]),
        rx := { lane := 3 }, bufs := 1, hop := some 4, eui := 77, out := [{
          parm := {
            profile := 3, family := 1, band := 0, fcs2 := true, occHz := 200000, maxPsdu := 127, n := 40,
            airUs := 900, shrUs := 50, ackUs := 60 }, psdu := [0x29, 0xDC, 7, 0xCD, 0xAB, 1, 2, 3, 4, 5, 6, 7, 8, 1,
            2, 3, 4, 5, 6, 7, 8, 5, 0, 0, 0, 0, 0x41, 0x42], ar := true, ver := 1, dsn := some 7, dst := (3, 99),
          hop := some 3 }, {
          parm := {
            profile := 3, family := 1, band := 0, fcs2 := true, occHz := 200000, maxPsdu := 127, n := 40,
            airUs := 900, shrUs := 50, ackUs := 60 }, psdu := [0x29, 0xDC, 7, 0xCD, 0xAB, 1, 2, 3, 4, 5, 6, 7, 8, 1,
            2, 3, 4, 5, 6, 7, 8, 5, 0, 0, 0, 0, 0x41, 0x42], ar := true, ver := 1, dsn := some 7, dst := (3, 99),
          hop := some 3 }] }; let k : Nat := 4; let d : Derived := (⟨9, 0, 77, [5, 6]⟩);
      let upset : Option (Fin 3) := none; let s : State :=
      ({ (((blank.cset 4 Cx.sec_level 6).cset 4 Cx.tx_fc 258 |>.cset 4 Cx.fc_limit 260 |>.cset 4 Cx.fc_req 1 |>.cset 4 Cx.key_slot 9 |>.cset 4 Cx.valid 1 |>.set Reg.JWL_CTRL_enable 1 |>.set Reg.JWL_STATUS_lc_busy 0).onFwd (fun x => { x with
          flights := [(5, { f with order := 2, rx := { lane := 9 }, ctx := some 3 }), (tag, f)] })) with
        fuses := { lcState := 2 }, jwl := {
          cache := [(cacheSet 9 77, [d])], slots := [(9, {
            state := 1, type := 1, world := 0, masters := 31, lcMask := 255, key := [1, 2] })] } }); s.settled ∧
      flightOf s tag = some f ∧ f.up = false ∧ f.stage = .secure ∧ f.hop = some k ∧ ctxBad s k = false ∧
      ctxValid s k = true ∧ upset = none ∧ 5 ≤ s.cget k Cx.sec_level ∧
      s.cget k Cx.tx_fc + f.out.length ≤ s.cget k Cx.fc_limit ∧ s.cget k Cx.fc_limit < 2 ^ 32 ∧
      s.cget k Cx.fc_req = 1 ∧ k < 131072 ∧ Memory.wf s.store = true ∧ pipeKeyTest s (s.cget k Cx.key_slot) 1 1 = 0 ∧
      (tabGetD s.jwl.cache (cacheSet (s.cget k Cx.key_slot) f.eui) []).find? (fun e =>
      e.slot == s.cget k Cx.key_slot && e.gen == (jslot s (s.cget k Cx.key_slot)).gen && e.eui == f.eui) = some d) ∧
    (let t : Nat := 1000; let tag : Fin 512 := 131; let f : Flight := {
        up := false, ingress := .eth 0, order := 4, stage := .ccm,
        octets := ([0x60, 0, 0, 0, 0, 8, 0x11, 64] ++ List.replicate 15 0x20 ++ [1] ++ List.replicate 15 0x20 ++ [2] ++ [0, 7, 0, 9, 0, 8, 1, 2]),
        rx := { lane := 3 }, bufs := 1, key := List.replicate 16 5, hop := some 4, out := [{
          parm := {
            profile := 3, family := 1, band := 0, fcs2 := true, occHz := 200000, maxPsdu := 127, n := 40,
            airUs := 900, shrUs := 50, ackUs := 60 }, psdu := [0x29, 0xDC, 7, 0xCD, 0xAB, 1, 2, 3, 4, 5, 6, 7, 8, 1,
            2, 3, 4, 5, 6, 7, 8, 5, 0, 0, 0, 0, 0x41, 0x42], ar := true, ver := 1, dsn := some 7, dst := (3, 99),
          hop := some 3 }] }; let upset : Option (Fin 3) := (some 2); let s : State := (((blank).onFwd (fun x =>
      { x with
        flights := [(5, { f with order := 2, rx := { lane := 9 }, ctx := some 3 }), (tag, f)] }))); s.settled ∧
      flightOf s tag = some f ∧ f.up = false ∧ f.stage = .ccm ∧ ¬ orderKey f ∈ f.passed) := by
  refine ⟨?_, ?_, ?_, ?_, ?_, ?_⟩ <;> decide +kernel

theorem test_ReceiverEnableCompletes_met :
    (let t : Nat := 1000; let b1 : Fin 2 := 1;
      let s : State := (blank.set (Reg.RFX_CTRL_enable b1) 0 |>.set Reg.PWR_STATUS_state 0); s.settled ∧
      s.get (Reg.RFX_CTRL_enable b1) = 0 ∧ s.get Reg.PWR_STATUS_state = 0) ∧
    (let t : Nat := 1000; let b1 : Fin 2 := 1; let e : Nat := 900; let ir : List Nat := [70, 58, 77];
      let steps : List Int := [300, -20]; let s : State := (blank.onRx b1
      (fun r => { r with calEnd := some e, ir := [80] }) |>.set (Reg.RFX_IR_STAT_ir_worst b1) 70); s.settled ∧
      (s.rxOf b1).calEnd = some e ∧ e ≤ max s.ltb t) ∧
    (let t : Nat := 1000; let b1 : Fin 2 := 1;
      let s : State := (blank.set (Reg.RFX_CTRL_enable b1) 0 |>.set Reg.PWR_STATUS_state 0 |>.set
      (Reg.RFX_STATUS_cal_done b1) 1 |>.set (Reg.RFX_STATUS_state b1) 0 |>.set (Reg.RFX_STATUS_region_block b1) 0);
      s.settled ∧ s.get (Reg.RFX_CTRL_enable b1) = 0 ∧ s.get (Reg.RFX_STATUS_state b1) = 0 ∧
      s.get (Reg.RFX_GAIN_CFG2_gain_man b1) < 2 ^ 5 ∧ s.get (Reg.RFX_STATUS_cal_done b1) ≠ 0 ∧
      s.get (Reg.RFX_STATUS_region_block b1) = 0 ∧ s.get Reg.PWR_STATUS_state = 0) ∧
    (let t : Nat := 1000; let b1 : Fin 2 := 1; let s : State := (({ blank with
        lanes := [(3, { assign := some { band := 1, freq := 868300, profile := 3 } }), (9,
          { assign := some { band := 0, freq := 868300, profile := 3 } })] }).set (Reg.RFX_CTRL_enable b1) 1 |>.set
      (Reg.CHZ_LANE_STAT_state 3) 2); s.settled ∧ s.get (Reg.RFX_CTRL_enable b1) ≠ 0 ∧
      (∀ n ∈ bandLanes s b1, laneMid s n = false)) ∧
    (let t : Nat := 1000; let b1 : Fin 2 := 1;
      let s : State := (blank.set (Reg.RFX_CTRL_enable b1) 1 |>.set (Reg.RFX_CTRL_cal_mode b1) 1); s.settled ∧
      s.get (Reg.RFX_CTRL_enable b1) ≠ 0 ∧ s.get (Reg.RFX_CTRL_cal_mode b1) ≠ 0) ∧
    (let t : Nat := 1000; let b1 : Fin 2 := 1; let s : State := (({ blank with
        lanes := [(3, { assign := some { band := 1, freq := 868300, profile := 3 } }), (9,
          { assign := some { band := 0, freq := 868300, profile := 3 } })] }).set
      (Reg.RFX_STATUS_compat_cal_pending b1) 1 |>.set (Reg.CHZ_LANE_STAT_state 3) 2 |>.set (Reg.RFX_STATUS_state b1) 2
      |>.set (Reg.TXC_STATUS_state 2) 2 |>.set (Reg.TXC_STATUS_state 3) 7); s.settled ∧
      s.get (Reg.RFX_STATUS_compat_cal_pending b1) ≠ 0 ∧ s.get (Reg.RFX_STATUS_state b1) = 2 ∧
      (∀ n ∈ bandChains b1, chainBusy s n = false) ∧ (∀ n ∈ bandLanes s b1, laneMid s n = false)) ∧
    (let t : Nat := 1000; let b1 : Fin 2 := 1; let e : Nat := 900; let ir : List Nat := [70, 58, 77];
      let s : State := (blank.onRx b1 (fun r => { r with blankEnd := some e, ir := [80] }) |>.set
      (Reg.RFX_IR_STAT_ir_worst b1) 70 |>.set (Reg.RFX_STATUS_state b1) 3); s.settled ∧
      (s.rxOf b1).blankEnd = some e ∧ e ≤ max s.ltb t ∧ s.get (Reg.RFX_STATUS_state b1) = 3) := by
  refine ⟨?_, ?_, ?_, ?_, ?_, ?_, ?_⟩ <;> decide +kernel

theorem test_ReceiverGainCompletes_met :
    (let t : Nat := 999999999; let b1 : Fin 2 := 1; let p : Int := 30; let g : Nat := 19;
      let s : State := (({ blank with
        lanes := [(3, { assign := some { band := 1, freq := 868300, profile := 3 } }), (9,
          { assign := some { band := 0, freq := 868300, profile := 3 } })] }).onRx b1
      (fun r => { r with epochStart := 77 }) |>.set (Reg.RFX_STATUS_state b1) 2 |>.set (Reg.RFX_STATUS_gain_idx b1)
      (g + 1) |>.set (Reg.RFX_CTRL_gain_manual b1) 0); s.settled ∧ s.get (Reg.RFX_STATUS_state b1) = 2 ∧
      (s.rxOf b1).epochStart + s.cur (Reg.RFX_GAIN_CFG_epoch_us b1) * 1000 ≤ max s.ltb t ∧ (s.rxOf b1).ceil = [] ∧
      (s.rxOf b1).unschedNext = false ∧ (s.rxOf b1).leakAll = false ∧ s.cur (Reg.RFX_CTRL_gain_manual b1) = 0 ∧
      s.get (Reg.RFX_CTRL_gain_manual b1) = 0 ∧ -((s.cur (Reg.RFX_GAIN_CFG_hi_thr b1) : Int) * 10) < p ∧
      s.get (Reg.RFX_STATUS_gain_idx b1) = g + 1 ∧ g < 32) ∧
    (let t : Nat := 999999999; let b1 : Fin 2 := 1; let p : Option Int := none; let s : State := (({ blank with
        lanes := [(3, { assign := some { band := 1, freq := 868300, profile := 3 } }), (9,
          { assign := some { band := 0, freq := 868300, profile := 3 } })] }).onRx b1 (fun r => { r with
        epochStart := 77, unschedNext := true, ceil := [(3, 4)] }) |>.set (Reg.RFX_STATUS_state b1) 2 |>.set
      (Reg.RFX_STATUS_gain_idx b1) 7 |>.set (Reg.RFX_CTRL_gain_manual b1) 1); s.settled ∧ rxRunning s b1 = true ∧
      (s.rxOf b1).epochStart + s.cur (Reg.RFX_GAIN_CFG_epoch_us b1) * 1000 ≤ max s.ltb t) ∧
    (let t : Nat := 1000; let b1 : Fin 2 := 1; let n : Nat := 64; let fresh : Bool := false;
      let s : State := (blank.set (Reg.RFX_STATUS_state b1) 2 |>.set (Reg.RFX_STATUS_gain_idx b1) 4 |>.set
      (Reg.RFX_CTRL_gain_manual b1) 0 |>.onRx b1 (fun r => { r with episode := true })); s.settled ∧
      s.get (Reg.RFX_STATUS_state b1) = 2 ∧ atLeast1 (s.get (Reg.RFX_GAIN_CFG2_ovl_count b1)) ≤ n ∧
      s.cur (Reg.RFX_CTRL_gain_manual b1) = 0 ∧ 0 < s.get (Reg.RFX_STATUS_gain_idx b1) ∧
      (s.rxOf b1).stepDue = false) ∧
    (let t : Nat := 2000; let b1 : Fin 2 := 1; let l : Nat := 1000; let s : State := (({ blank with
        lanes := [(3, { assign := some { band := 1, freq := 868300, profile := 3 } }), (9,
          { assign := some { band := 0, freq := 868300, profile := 3 } })] }).onRx b1
      (fun r => { r with stepDue := true, lastUnsched := some 1000 }) |>.set (Reg.CHZ_LANE_STAT_state 3) 4 |>.set
      (Reg.RFX_STATUS_gain_idx b1) 7 |>.set (Reg.RFX_CTRL_gain_manual b1) 0);
      let d : Nat := (min (s.get (Reg.RFX_STATUS_gain_idx b1)) (atLeast1 (s.get (Reg.RFX_GAIN_CFG2_ovl_step b1))));
      s.settled ∧ s.get (Reg.RFX_STATUS_gain_idx b1) < 2 ^ 5 ∧ (s.rxOf b1).stepDue = true ∧
      ((s.rxOf b1).lastUnsched = none ∨ (s.rxOf b1).lastUnsched = some l) ∧ l + 1000 ≤ max s.ltb t ∧
      s.cur (Reg.RFX_CTRL_gain_manual b1) = 0 ∧
      d = min (s.get (Reg.RFX_STATUS_gain_idx b1)) (atLeast1 (s.get (Reg.RFX_GAIN_CFG2_ovl_step b1)))) ∧
    (let t : Nat := 999999999999; let b1 : Fin 2 := 1; let ir : List (Option Nat) := [some 70, none, some 59];
      let s : State := (blank.set (Reg.RFX_STATUS_state b1) 2 |>.set (Reg.RFX_CTRL_cal_mode b1) 0 |>.set
      (Reg.RFX_IR_STAT_ir_worst b1) 70 |>.onRx b1 (fun r => { r with ir := [88, 99] })); s.settled ∧
      s.get (Reg.RFX_STATUS_state b1) = 2 ∧ s.get (Reg.RFX_CTRL_cal_mode b1) = 0 ∧
      (s.rxOf b1).irAt + atLeast1 (s.get (Reg.RFX_CAL_CFG_ir_period b1)) * 1000000 ≤ max s.ltb t) ∧
    (let t : Nat := 99999999999999; let b1 : Fin 2 := 1; let k : Fin 16 := 15; let x : Nat := 59;
      let s : State := (blank.set (Reg.RFX_STATUS_state b1) 2 |>.set (Reg.RFX_CTRL_cal_mode b1) 0 |>.set
      (Reg.RFX_IR_STAT_ir_worst b1) 70 |>.onRx b1 (fun r => { r with ir := [88, 99], heard := [5, 6] })); s.settled ∧
      s.get (Reg.RFX_STATUS_state b1) = 2 ∧ s.get (Reg.RFX_CTRL_cal_mode b1) = 0 ∧
      (s.rxOf b1).heard.getD k.val 0 + s.get (Reg.RFX_CAL_CFG_ir_stale b1) * 1000000000 + 2000000 ≤ max s.ltb t) ∧
    (let t : Nat := 1000; let b1 : Fin 2 := 1; let temp : Int := (-350); let s : State := (blank); s.settled) := by
  refine ⟨?_, ?_, ?_, ?_, ?_, ?_, ?_⟩ <;> decide +kernel

theorem test_ChainEnableCompletes_met :
    (let t : Nat := 1000; let n : Fin 4 := 3;
      let s : State := (blank.set (Reg.TXC_STATUS_state n) 0 |>.set Reg.PWR_STATUS_state 0); s.settled ∧
      s.get (Reg.TXC_STATUS_state n) = chOFF ∧ s.get Reg.PWR_STATUS_state = 0) ∧
    (let t : Nat := 1000; let n : Fin 4 := 3; let e : Nat := 1000;
      let s : State := (((blank).onChain n (fun c => { c with calEnd := some e })).set (Reg.TXC_STATUS_state n) 1);
      s.settled ∧ (s.chainOf n).calEnd = some e ∧ e ≤ max s.ltb t ∧ s.get (Reg.TXC_STATUS_state n) = chSTARTCAL) ∧
    (let t : Nat := 1000; let n : Fin 4 := 3; let s : State := (((blank).onChain n (fun c => { c with
        slots := [(4, { freq := 2405000 }), (9, { freq := 2410000 })] })).set (Reg.TXC_CTRL_enable n) 0 |>.set
      (Reg.TXC_STATUS_state n) 0 |>.set (Reg.TXC_STATUS_cal_done n) 1 |>.set (Reg.TXC_STATUS_region_block n) 0 |>.set
      Reg.PWR_STATUS_state 0 |>.set (Reg.TXC_PARK_park_slot n) 1); s.settled ∧ s.get (Reg.TXC_CTRL_enable n) = 0 ∧
      s.get (Reg.TXC_STATUS_state n) = chOFF ∧ s.get (Reg.TXC_STATUS_cal_done n) ≠ 0 ∧ (s.chainOf n).slots ≠ [] ∧
      s.get (Reg.TXC_STATUS_region_block n) = 0 ∧ s.get Reg.PWR_STATUS_state = 0 ∧
      tabGet (s.chainOf n).slots (s.get (Reg.TXC_PARK_park_slot n)) = none) ∧
    (let t : Nat := 1000; let n : Fin 4 := 3; let c : Chain := {}; let x : TxCmd := {
        id := 7, issuer := .beacon, cls := .slot, freq := 2410000, power := none, start := none, airUs := 900,
        profile := 3, occHz := 200000, psdu := [1, 2, 3], ref := 5 };
      let s : State := (blank.set (Reg.TXC_CTRL_enable n) 1 |>.set (Reg.TXC_STATUS_state n) chSETTLE |>.onChain n
      (fun _ => { c with active := some x })); s.settled ∧ s.get (Reg.TXC_CTRL_enable n) ≠ 0 ∧
      (s.get (Reg.TXC_STATUS_state n) = chIDLE ∨ s.get (Reg.TXC_STATUS_state n) = chSETTLE) ∧
      s.chainOf n = { c with active := some x, next := none, waiting := [] } ∧ x.issuer = .beacon) ∧
    (let t : Nat := 1000; let n : Fin 4 := 3;
      let s : State := (blank.set (Reg.TXC_CTRL_enable n) 1 |>.set (Reg.TXC_STATUS_state n) chSETTLE |>.onChain n
      (fun c => { c with hop := some (5, 6) })); s.settled ∧ s.get (Reg.TXC_CTRL_enable n) ≠ 0 ∧
      (s.get (Reg.TXC_STATUS_state n) = chIDLE ∨ s.get (Reg.TXC_STATUS_state n) = chSETTLE) ∧
      (s.chainOf n).active = none ∧ (s.chainOf n).next = none ∧ (s.chainOf n).waiting = [] ∧
      (s.chainOf n).evict = none) ∧
    (let t : Nat := 1000; let n : Fin 4 := 3;
      let s : State := (blank.set (Reg.TXC_CTRL_enable n) 1 |>.set (Reg.TXC_STATUS_state n) chPREP |>.onChain n (fun _
      => {
        active := some {
          id := 7, issuer := .slot, cls := .slot, freq := 2410000, power := none, start := none, airUs := 900,
          profile := 3, occHz := 200000, psdu := [1, 2, 3], ref := 5 }, next := some {
          id := 7, issuer := .async, cls := .slot, freq := 2410000, power := none, start := none, airUs := 900,
          profile := 3, occHz := 200000, psdu := [1, 2, 3], ref := 5 } })); s.settled ∧
      s.get (Reg.TXC_CTRL_enable n) ≠ 0) ∧
    (let t : Nat := 1000; let n : Fin 4 := 3; let k : CacheSlot := { freq := 2410000 };
      let s : State := (((blank).onChain n (fun c => { c with
        slots := [(4, { freq := 2405000 }), (9, { freq := 2410000 })] })).set (Reg.TXC_STATUS_state n) chIDLE |>.set
      (Reg.TXC_PARK_park_slot n) 9); s.settled ∧ s.get (Reg.TXC_STATUS_state n) = chIDLE ∧
      tabGet (s.chainOf n).slots (s.get (Reg.TXC_PARK_park_slot n)) = some k) ∧
    (let t : Nat := 1000; let n : Fin 4 := 3; let temp : Int := (-12); let vpa : Nat := 3300;
      let s : State := (blank); s.settled) := by
  refine ⟨?_, ?_, ?_, ?_, ?_, ?_, ?_, ?_⟩ <;> decide +kernel

theorem test_CalibrationCacheCompletes_met :
    (let t : Nat := 1000; let n : Fin 4 := 3; let k : Fin 256 := 255; let s : State := (((blank).onChain n (fun c =>
      { c with
        slots := [(4, { freq := 2405000 }), (9, { freq := 2410000 })] })).set (Reg.TXC_CACHE_CMD_busy n) 0 |>.set
      (Reg.TXC_CACHE_FREQ_freq_khz n) 2483500); s.settled ∧ s.get (Reg.TXC_CACHE_CMD_busy n) = 0 ∧
      inChainRange s n (s.get (Reg.TXC_CACHE_FREQ_freq_khz n)) = true ∧ tabGet (s.chainOf n).slots k = none) ∧
    (let t : Nat := 1000; let n : Fin 4 := 3; let k : Fin 256 := 9; let x : CacheSlot := { freq := 2410000 };
      let s : State := ({ ((blank).onChain n (fun c => { c with
          slots := [(4, { freq := 2405000 }), (9, { freq := 2410000 })] })).set (Reg.TXC_CACHE_CMD_busy n) 0 with
        sic := { entries := [(777, { trained := true })] } }); s.settled ∧ s.get (Reg.TXC_CACHE_CMD_busy n) = 0 ∧
      tabGet (s.chainOf n).slots k = some x ∧ slotUsed s n k = false) ∧
    (let t : Nat := 1000; let n : Fin 4 := 3; let k : Fin 256 := 9; let x : CacheSlot := { freq := 2410000 };
      let s : State := (((blank).onChain n (fun c => { c with
        slots := [(4, { freq := 2405000 }), (9, { freq := 2410000 })] })).set (Reg.TXC_CACHE_CMD_busy n) 0);
      s.settled ∧ s.get (Reg.TXC_CACHE_CMD_busy n) = 0 ∧ tabGet (s.chainOf n).slots k = some x) ∧
    (let t : Nat := 1000; let n : Fin 4 := 3; let k : Fin 256 := 255;
      let f : Fill := { slot := 7, freq := 2420000, byCmd := true };
      let l : List Fill := [{ slot := 8, freq := 2420000, byCmd := true }];
      let s : State := (((blank).onChain n (fun c => { c with fills := f :: l })).set (Reg.TXC_STATUS_state n) chIDLE
      |>.set Reg.PWR_STATUS_state 0); s.settled ∧ (s.chainOf n).fills = f :: l ∧ f.notBefore ≤ max s.ltb t ∧
      f.preempts = 0 ∧ s.get (Reg.TXC_STATUS_state n) = chIDLE ∧ (s.chainOf n).active = none ∧
      (s.chainOf n).next = none ∧ s.get Reg.PWR_STATUS_state = 0) ∧
    (let t : Nat := 1000; let n : Fin 4 := 3; let k : Fin 256 := 255; let f : Fill := {
        slot := 7, freq := 2420000, byCmd := true, preempts := 1, notBefore := 1000 };
      let l : List Fill := [{ slot := 8, freq := 2420000, byCmd := true }];
      let s : State := (((blank).onChain n (fun c => { c with fills := f :: l })).set (Reg.TXC_STATUS_state n) chIDLE
      |>.set Reg.PWR_STATUS_state 0); s.settled ∧ (s.chainOf n).fills = f :: l ∧ f.notBefore ≤ max s.ltb t ∧
      0 < f.preempts ∧ s.get (Reg.TXC_STATUS_state n) = chIDLE ∧ (s.chainOf n).active = none ∧
      (s.chainOf n).next = none ∧ s.get Reg.PWR_STATUS_state = 0) ∧
    (let t : Nat := 1000; let n : Fin 4 := 3; let k : Fin 256 := 255;
      let f : Fill := { slot := 7, freq := 2420000, byCmd := true }; let e : Nat := 1000;
      let found : ChanCal := { band := 3, dac := 9, iq := ⟨1, -2⟩, table := [5, 6] };
      let s : State := (((blank).onChain n (fun c => { c with
        slots := [(4, { freq := 2405000 }), (9, { freq := 2410000 })],
        cal := some (f, e) })).set (Reg.TXC_STATUS_state n) chONCAL); s.settled ∧ (s.chainOf n).cal = some (f, e) ∧
      e ≤ max s.ltb t ∧ s.get (Reg.TXC_STATUS_state n) = chONCAL) := by
  refine ⟨?_, ?_, ?_, ?_, ?_, ?_⟩ <;> decide +kernel

theorem test_TransmissionCompletes_met :
    (let t : Nat := 1000; let n : Fin 4 := 3; let x : TxCmd := {
        id := 7, issuer := .slot, cls := .slot, freq := 2410000, power := none, start := none, airUs := 900,
        profile := 3, occHz := 200000, psdu := [1, 2, 3], ref := 5 };
      let s : State := (blank.set (Reg.TXC_CTRL_enable n) 1); s.settled ∧ s.get (Reg.TXC_CTRL_enable n) ≠ 0 ∧
      (s.chainOf n).active = none ∧ (x.start = none ∨ ∃ st, x.start = some st ∧ max s.ltb t + 120000 ≤ st)) ∧
    (let t : Nat := 1000; let n : Fin 4 := 3; let x : TxCmd := {
        id := 7, issuer := .beacon, cls := .slot, freq := 2410000, power := none, start := none, airUs := 900,
        profile := 3, occHz := 200000, psdu := [1, 2, 3], ref := 5 }; let i : Nat := 7;
      let s : State := (((blank).onChain n (fun c => { c with active := some x, heldIds := [7] }))); s.settled ∧
      (s.chainOf n).active = some x ∧ (s.chainOf n).next = none ∧ (s.chainOf n).waiting = [] ∧
      (s.chainOf n).started = false ∧ x.id = i ∧ x.issuer = .beacon ∧ (s.chainOf n).evict = none) ∧
    (let t : Nat := 1000; let n : Fin 4 := 3; let x : TxCmd := {
        id := 7, issuer := .slot, cls := .slot, freq := 2410000, power := none, start := none, airUs := 900,
        profile := 3, occHz := 200000, psdu := [1, 2, 3], ref := 5 }; let p : Bool := true; let k : Nat := 9;
      let s : State := (((blank).onChain n (fun c => { c with
        active := some x, slots := [(4, { freq := 2405000 }), (9, { freq := 2410000 })] })).set
      (Reg.TXC_STATUS_state n) chIDLE |>.set Reg.TXC_COEX_STAT_grant 0); s.settled ∧ (s.chainOf n).active = some x ∧
      (s.chainOf n).next = none ∧ (s.chainOf n).started = false ∧ x.issuer = .slot ∧
      (x.start = none ∨ x.start = some (max s.ltb t + 120000)) ∧ s.get (Reg.TXC_STATUS_state n) = chIDLE ∧
      ¬ x.id ∈ (s.chainOf n).heldIds ∧ s.get Reg.TXC_COEX_STAT_grant = 0 ∧ slotOf s n x.freq = some k) ∧
    (let t : Nat := 1000; let n : Fin 4 := 3; let x : TxCmd := {
        id := 7, issuer := .slot, cls := .slot, freq := 2410000, power := none, start := none, airUs := 900,
        profile := 3, occHz := 200000, psdu := [1, 2, 3], ref := 5 }; let f : Nat := 2410000; let h : Nat := 5;
      let s : State := (((blank).onChain n (fun c => { c with
        active := some x, started := true, hop := some (f, h) })).set (Reg.TXC_STATUS_state n) chSETTLE); s.settled ∧
      (s.chainOf n).hop = some (f, h) ∧ s.get (Reg.TXC_STATUS_state n) = chSETTLE ∧ (s.chainOf n).started = true) ∧
    (let t : Nat := 1000; let n : Fin 4 := 3; let x : TxCmd := {
        id := 7, issuer := .slot, cls := .slot, freq := 2410000, power := none, start := some 41000, airUs := 900,
        profile := 3, occHz := 200000, psdu := [1, 2, 3], ref := 5 }; let st : Nat := 41000;
      let s : State := (((blank).onChain n (fun c => { c with
        active := some x, started := true, tuned := some x.freq, powerQ := 90,
        slots := [(4, { freq := 2405000 }), (9, { freq := 2410000 })] })).set (Reg.TXC_STATUS_state n) chSETTLE |>.set
      Reg.SIC_CTRL_ena_a 1 |>.set Reg.SIC_CTRL_ena_b 1 |>.set Reg.SIC_CTRL_ceiling_en 1); s.settled ∧
      (s.chainOf n).active = some x ∧ (s.chainOf n).started = true ∧ (s.chainOf n).hop = none ∧
      (s.chainOf n).tuned = some x.freq ∧ s.get (Reg.TXC_STATUS_state n) = chSETTLE ∧ x.start = some st ∧
      st ≤ max s.ltb t + 40000) ∧
    (let t : Nat := 1000; let n : Fin 4 := 3; let x : TxCmd := {
        id := 7, issuer := .slot, cls := .slot, freq := 2410000, power := none, start := some 9000, airUs := 900,
        profile := 3, occHz := 200000, psdu := [1, 2, 3], ref := 5 }; let st : Nat := 9000; let c : Nat := 4;
      let s : State := (((((blank).onChain n (fun c =>
      { c with active := some x, rampUs := 8, powerQ := -100 }))).onRx (chainBand n)
      (fun r => { r with ceil := [(n, c)] })).set (Reg.TXC_STATUS_state n) chPREP |>.set (gTxField (chainBand n)) 4
      |>.set (Reg.RFX_STATUS_gain_idx (chainBand n)) 9); let g : Nat := (s.get (gTxField (chainBand n))); s.settled ∧
      (s.chainOf n).active = some x ∧ x.start = some st ∧ st ≤ max s.ltb t + ((s.chainOf n).rampUs + 4) * 1000 ∧
      s.get (Reg.TXC_STATUS_state n) = chPREP ∧ (s.sicTxOf n).stepped = false ∧
      tabGet (s.rxOf (chainBand n)).ceil n = some c ∧ g = s.get (gTxField (chainBand n)) ∧ g < 2 ^ 5) ∧
    (let t : Nat := 1000; let n : Fin 4 := 3; let x : TxCmd := {
        id := 7, issuer := .slot, cls := .slot, freq := 2410000, power := none, start := some 900, airUs := 900,
        profile := 3, occHz := 200000, psdu := [1, 2, 3], ref := 5 }; let st : Nat := 900;
      let s : State := (((blank).onChain n (fun c => { c with active := some x })).set (Reg.TXC_STATUS_state n)
      chPREP); s.settled ∧ (s.chainOf n).active = some x ∧ x.start = some st ∧ st ≤ max s.ltb t ∧
      s.get (Reg.TXC_STATUS_state n) = chPREP) ∧
    (let t : Nat := 901000; let n : Fin 4 := 3; let x : TxCmd := {
        id := 7, issuer := .slot, cls := .slot, freq := 2410000, power := none, start := none, airUs := 900,
        profile := 3, occHz := 200000, psdu := [1, 2, 3], ref := 5 }; let f : Nat := 1000;
      let s : State := (((blank).onChain n (fun c => { c with active := some x, firstLtb := some f })).set
      (Reg.TXC_STATUS_state n) chTX); s.settled ∧ (s.chainOf n).active = some x ∧ (s.chainOf n).firstLtb = some f ∧
      f + x.airUs * 1000 ≤ max s.ltb t ∧ s.get (Reg.TXC_STATUS_state n) = chTX) ∧
    (let t : Nat := 11000; let n : Fin 4 := 3; let x : TxCmd := {
        id := 7, issuer := .beacon, cls := .slot, freq := 2410000, power := none, start := none, airUs := 900,
        profile := 3, occHz := 200000, psdu := [1, 2, 3], ref := 5 }; let l : Nat := 1000;
      let m : TxMeas := { detAdc := 900, iso := 45, ana := 20, dig := 30 };
      let s : State := ((((blank).onChain n (fun c => { c with
        active := some x, firstLtb := some 400, lastLtb := some l, rampUs := 8, started := true, slot := 9,
        slots := [(4, { freq := 2405000 }), (9, { freq := 2410000 })] })).set (Reg.TXC_STATUS_state n) chRAMPDN |>.set
      Reg.SIC_CTRL_ena_a 0 |>.set Reg.SIC_CTRL_ena_b 0)); s.settled ∧ (s.chainOf n).active = some x ∧
      (s.chainOf n).lastLtb = some l ∧ l + (s.chainOf n).rampUs * 1000 + 2000 ≤ max s.ltb t ∧
      s.get (Reg.TXC_STATUS_state n) = chRAMPDN ∧ (s.chainOf n).next = none ∧ (s.chainOf n).waiting = [] ∧
      (s.chainOf n).evict = none ∧ (s.chainOf n).aborted = false ∧ (s.chainOf n).disabling = false ∧
      x.issuer = .beacon ∧ sicEna s (chainBand n) = false ∧ (s.rxOf (chainBand n)).ceil = [] ∧
      tabGet s.sic.clear n = none ∧ fusCovers s (chainBand n) x.chan x.occHz = [] ∧
      planAt s (chainBand n) x.chan = []) ∧
    (let t : Nat := 11000; let n : Fin 4 := 3; let x : TxCmd := {
        id := 7, issuer := .slot, cls := .slot, freq := 2410000, power := none, start := none, airUs := 900,
        profile := 3, occHz := 200000, psdu := [1, 2, 3], ref := 5 }; let l : Nat := 1000;
      let m : TxMeas := { detAdc := 900, iso := 45, ana := 20, dig := 30 };
      let s : State := ((((blank).onChain n (fun c => { c with
        active := some x, firstLtb := some 400, lastLtb := some l, rampUs := 8, started := true, slot := 9,
        next := some { x with id := 9 }, disabling := true,
        slots := [(4, { freq := 2405000 }), (9, { freq := 2410000 })] })).set (Reg.TXC_STATUS_state n) chRAMPDN |>.set
      Reg.SIC_CTRL_ena_a 1 |>.set Reg.SIC_CTRL_ena_b 1)); s.settled ∧ (s.chainOf n).active = some x ∧
      (s.chainOf n).lastLtb = some l ∧ l + (s.chainOf n).rampUs * 1000 + 2000 ≤ max s.ltb t ∧
      s.get (Reg.TXC_STATUS_state n) = chRAMPDN) ∧
    (let t : Nat := 1000; let n : Fin 4 := 3; let x : TxCmd := {
        id := 7, issuer := .slot, cls := .slot, freq := 2410000, power := none, start := none, airUs := 900,
        profile := 3, occHz := 200000, psdu := [1, 2, 3], ref := 5 }; let i : Nat := 7;
      let s : State := (((blank).onChain n (fun c => { c with active := some x, next := some { x with id := 9 } })));
      s.settled ∧ (s.chainOf n).active = some x ∧ (s.chainOf n).started = false ∧ x.id = i) ∧
    (let t : Nat := 1000; let n : Fin 4 := 3; let x : TxCmd := {
        id := 7, issuer := .slot, cls := .slot, freq := 2410000, power := none, start := none, airUs := 900,
        profile := 3, occHz := 200000, psdu := [1, 2, 3], ref := 5 }; let i : Nat := 9; let y : TxCmd := {
        id := 9, issuer := .slot, cls := .slot, freq := 2410000, power := none, start := none, airUs := 900,
        profile := 3, occHz := 200000, psdu := [1, 2, 3], ref := 5 }; let s : State := (((blank).onChain n (fun c =>
      { c with
        active := some x, started := true, next := some y, waiting := [{ x with id := 11 }] }))); s.settled ∧
      (s.chainOf n).active = some x ∧ x.id ≠ i ∧ (s.chainOf n).next = some y ∧ y.id = i) ∧
    (let t : Nat := 1000; let n : Fin 4 := 3; let x : TxCmd := {
        id := 7, issuer := .async, cls := .async, freq := 2410000, power := none, start := none, airUs := 900,
        profile := 3, occHz := 200000, psdu := [1, 2, 3], ref := 5 }; let p : Bool := true; let k : Nat := 9;
      let s : State := (((blank).onChain n (fun c => { c with
        active := some x, slots := [(4, { freq := 2405000 }), (9, { freq := 2410000 })],
        next := some { x with id := 9 } })).set (Reg.TXC_STATUS_state n) chIDLE |>.set Reg.TXC_COEX_STAT_grant 0);
      let c : Chain := ((occDrop (setPrio (s.begin t) p) n).chainOf n);
      let v : State := (((pickCmd (occDrop (setPrio (s.begin t) p) n) n).map (·.2)).getD s); s.settled ∧
      pickCmd (occDrop (setPrio (s.begin t) p) n) n = some (x, v) ∧
      (occDrop (setPrio (s.begin t) p) n).chainOf n = c ∧ c.started = false ∧
      (occDrop (setPrio (s.begin t) p) n).get (Reg.TXC_STATUS_state n) = chIDLE ∧ v.get Reg.TXC_COEX_STAT_grant = 0 ∧
      tooLate v x = false ∧ slotOf v n x.freq = some k) := by
  refine ⟨?_, ?_, ?_, ?_, ?_, ?_, ?_, ?_, ?_, ?_, ?_, ?_, ?_⟩ <;> decide +kernel

theorem test_CoexCompletes_met :
    (let t : Nat := 1000; let s : State := (blank.set Reg.TXC_COEX_CTRL_coex_en 0); s.settled ∧
      s.get Reg.TXC_COEX_CTRL_coex_en = 0 ∧ claimFree s 0x10 8 = true) ∧
    (let t : Nat := 1000; let p : Bool := true; let s : State := (blank.set Reg.TXC_COEX_CTRL_coex_en 1); s.settled ∧
      s.get Reg.TXC_COEX_CTRL_coex_en ≠ 0) ∧
    (let t : Nat := 9999999; let p : Bool := true; let r : Nat := 500;
      let s : State :=
      ({ blank.set Reg.TXC_COEX_CTRL_coex_en 1 |>.set Reg.TXC_COEX_STAT_grant 0 |>.set Reg.TXC_COEX_CTRL_band 0 with
        coex := { reqSince := some 500 } }); s.settled ∧ s.coex.reqSince = some r ∧ s.coex.blocked = false ∧
      s.get Reg.TXC_COEX_CTRL_coex_en ≠ 0 ∧ s.get Reg.TXC_COEX_STAT_grant = 0 ∧
      r + s.get Reg.TXC_COEX_CTRL_grant_delay * 1000 ≤ max s.ltb t ∧ (∀ n ∈ coexSubjects s, chainBusy s n = false) ∧
      coexAckNear (s.now t) = false) ∧
    (let t : Nat := 1000; let s : State := (blank.set Reg.TXC_COEX_STAT_grant 1); s.settled ∧
      s.get Reg.TXC_COEX_STAT_grant ≠ 0) ∧
    (let t : Nat := 1000; let p : Bool := false;
      let s : State :=
      ({ blank.set Reg.TXC_COEX_STAT_grant 1 |>.set Reg.TXC_COEX_CTRL_prio_pol 0 |>.set Reg.TXC_COEX_CTRL_band 3 with
        coex := { grantSince := some 1 } }.onChain 1 (fun c => { c with
        active := some {
          id := 7, issuer := .slot, cls := .slot, freq := 2410000, power := none, start := some 120500, airUs := 900,
          profile := 3, occHz := 200000, psdu := [1, 2, 3], ref := 5 } })); s.settled ∧
      s.get Reg.TXC_COEX_STAT_grant ≠ 0 ∧ prioActive (setPrio s p) = false ∧ coexAckNear (s.now t) = true) ∧
    (let t : Nat := 99999999999; let g : Nat := 5; let s : State := ({ blank.set Reg.TXC_COEX_STAT_grant 1 with
        coex := { grantSince := some 5 } }); s.settled ∧ s.get Reg.TXC_COEX_STAT_grant ≠ 0 ∧
      s.coex.grantSince = some g ∧ g + atLeast1 (s.get Reg.TXC_COEX_CFG_req_max) * 1000000 ≤ max s.ltb t) := by
  refine ⟨?_, ?_, ?_, ?_, ?_, ?_⟩ <;> decide +kernel

theorem test_CancellerCompletes_met :
    (let t : Nat := 1000; let n : Fin 4 := 3; let taps : List Cplx := [⟨1, -2⟩]; let coefs : List Cplx := [⟨5, 5⟩];
      let views : List SicView := [{ lane := 127, input := [⟨300, 0⟩] }];
      let s : State := ((((({ blank.set (Reg.TXC_STATUS_state n) chTX |>.set (Reg.CHZ_LANE_CTRL_enable 127) 1 with
        lanes := [(127, { assign := some { band := 1, freq := 2410010, profile := 3 } })] }.onChain n (fun c =>
      { c with
        active := some {
          id := 7, issuer := .slot, cls := .slot, freq := 2410000, power := none, start := none, airUs := 900,
          profile := 3, occHz := 200000, psdu := [1, 2, 3], ref := 5 },
        slots := [(0, { freq := 2410000 })] })).setSicTx n {}).set Reg.SIC_CTRL_ena_b 1 |>.set Reg.SIC_CTRL_ena_a 1
      |>.set Reg.SIC_CTRL_adapt_en 1 |>.set (Reg.SIC_CD_EFF_cd_thr_eff n) 0xC00) |>.set Reg.SIC_CTRL_adapt_en 0));
      s.settled ∧ ramped (s.now t) n = true ∧ sicEna s (chainBand n) = true ∧ ((s.sicTxOf n).frozen = true ∨
      s.cur Reg.SIC_CTRL_adapt_en = 0 ∨ max s.ltb t < (s.sicTxOf n).adaptAt + 1000)) ∧
    (let t : Nat := 1000; let n : Fin 4 := 3;
      let taps : List Cplx := [⟨1, -2⟩, ⟨3, 4⟩, ⟨5, 6⟩, ⟨7, 8⟩, {}, {}, {}, {}, ⟨9, 9⟩];
      let coefs : List Cplx := [⟨5, 5⟩]; let views : List SicView := [{ lane := 126, input := [⟨300, 0⟩] }];
      let s : State := (((({ blank.set (Reg.TXC_STATUS_state n) chTX |>.set (Reg.CHZ_LANE_CTRL_enable 127) 1 with
        lanes := [(127, { assign := some { band := 1, freq := 2410010, profile := 3 } })] }.onChain n (fun c =>
      { c with
        active := some {
          id := 7, issuer := .slot, cls := .slot, freq := 2410000, power := none, start := none, airUs := 900,
          profile := 3, occHz := 200000, psdu := [1, 2, 3], ref := 5 },
        slots := [(0, { freq := 2410000 })] })).setSicTx n {}).set Reg.SIC_CTRL_ena_b 1 |>.set Reg.SIC_CTRL_ena_a 1
      |>.set Reg.SIC_CTRL_adapt_en 1 |>.set (Reg.SIC_CD_EFF_cd_thr_eff n) 0xC00)); s.settled ∧
      ramped (s.now t) n = true ∧ sicEna s (chainBand n) = true ∧ (s.sicTxOf n).frozen = false ∧
      s.cur Reg.SIC_CTRL_adapt_en ≠ 0 ∧ (s.sicTxOf n).adaptAt + 1000 ≤ max s.ltb t) ∧
    (let t : Nat := 9999999; let n : Fin 4 := 3; let x : TxCmd := {
        id := 7, issuer := .slot, cls := .slot, freq := 2410000, power := none, start := none, airUs := 900,
        profile := 3, occHz := 200000, psdu := [1, 2, 3], ref := 5 }; let lane : Fin 128 := 127;
      let level : Int := 2047; let since : Option Nat := (some 1000);
      let s : State := (({ blank.set (Reg.TXC_STATUS_state n) chTX |>.set (Reg.CHZ_LANE_CTRL_enable 127) 1 with
        lanes := [(127, { assign := some { band := 1, freq := 2410010, profile := 3 } })] }.onChain n
      (fun c => { c with active := some x, firstLtb := some 2000 })).setSicTx n { armed := true } |>.set
      (Reg.SIC_CD_CFG_cd_mode n) 0); s.settled ∧ (s.chainOf n).active = some x ∧
      s.get (Reg.TXC_STATUS_state n) = chTX ∧ (s.sicTxOf n).armed = true ∧ (s.sicTxOf n).declared = false ∧
      lane.val ∈ lanesOnChannel s n x.freq ∧ s.sget (Reg.SIC_CD_EFF_cd_thr_eff n) ≤ level ∧
      collisionHolds (s.now t) n since = true) ∧
    (let t : Nat := 1000; let n : Fin 4 := 3; let k : Fin 256 := 255;
      let s : State := ({ blank.set (Reg.TXC_STATUS_state n) chIDLE |>.set (Reg.SIC_SLOT_CMD_busy n) 0 with
        sic := { entries := [(3, {}), (1023, { trained := true })] } }); s.settled ∧
      s.get (Reg.SIC_SLOT_CMD_busy n) = 0 ∧ s.get (Reg.TXC_STATUS_state n) = chIDLE) ∧
    (let t : Nat := 1000; let n : Fin 4 := 3; let k : Fin 256 := 255;
      let e : SicEntry := { trained := true, ana := 31, dig := 9, iso := some 44 };
      let s : State := ({ blank.set (Reg.SIC_SLOT_CMD_busy n) 0 with
        sic := { entries := [(3, {}), (1023, e)] } }); s.settled ∧ s.get (Reg.SIC_SLOT_CMD_busy n) = 0 ∧
      e = s.sicEntry n k) := by
  refine ⟨?_, ?_, ?_, ?_, ?_⟩ <;> decide +kernel

theorem test_LaneAssignmentCompletes_met :
    (let t : Nat := 1000; let n : Fin 128 := 127; let f : BitVec 22 := 868300; let s : State := ((({ blank with
        lanes := [(3, { assign := some ⟨1, 2410000, 2⟩ }),
          (127, { assign := some ⟨0, 868000, 30⟩ })] }).set (Reg.CHZ_LANE_STAT_state n) laneSYNC).set
      (Reg.CHZ_LANE_CTRL_defer n) 0 |>.set (Reg.CHZ_RETIRED_retired 3) 0 |>.set (Reg.CHZ_LANE_CFG_band n) 0 |>.set
      (Reg.CHZ_LANE_CFG_profile n) 31 |>.set (Reg.PHY_PROF_CTRL_valid 31) 1 |>.set (Reg.PHY_PROF_CTRL_band 31) 0
      |>.set (Reg.PHY_PROF_CTRL_family 31) 2 |>.set (Reg.RFX_TUNE_lo_khz 0) 866000 |>.set (Reg.RFX_TUNE_bw 0) 1 |>.set
      (Reg.RFX_STATUS_state 0) 2 |> (fun s => (List.range 32).foldl (fun s k => s.set (Reg.CHZ_RCH_FREQ_valid k) 0)
      s)); let a : Assign := (⟨s.get (Reg.CHZ_LANE_CFG_band n), f.toNat, s.get (Reg.CHZ_LANE_CFG_profile n)⟩);
      s.settled ∧ a = ⟨s.get (Reg.CHZ_LANE_CFG_band n), f.toNat, s.get (Reg.CHZ_LANE_CFG_profile n)⟩ ∧
      assignCheck (s.now t) n a = 0 ∧ (laneMid s n = false ∨ s.get (Reg.CHZ_LANE_CTRL_defer n) = 0) ∧
      (s.laneOf n).stopping = false) ∧
    (let t : Nat := 1000; let n : Fin 128 := 127; let a : Assign := (⟨0, 868300, 31⟩);
      let s : State := ((({ blank with
        lanes := [(3, { assign := some ⟨1, 2410000, 2⟩ }),
          (127, { assign := some a, testReq := true })] }).set (Reg.CHZ_LANE_STAT_state n) laneOFF).set
      (Reg.CHZ_RETIRED_retired 3) 0 |>.set (Reg.CHZ_LANE_CTRL_enable n) 0 |>.set (Reg.CHZ_LANE_STAT_assign_result n) 0
      |>.set (Reg.PHY_PROF_CTRL_valid 31) 1 |>.set (Reg.RFX_CTRL_enable 0) 1); s.settled ∧
      (s.laneOf n).assign = some a ∧ s.get (Reg.CHZ_LANE_STAT_assign_result n) = 0 ∧
      s.get (Reg.CHZ_LANE_STAT_state n) = laneOFF ∧ laneIsRetired s n = false ∧
      s.get (Reg.RFX_CTRL_enable a.band) ≠ 0 ∧ s.get (Reg.PHY_PROF_CTRL_valid a.profile) ≠ 0 ∧
      s.get (Reg.CHZ_LANE_CTRL_enable n) = 0) ∧
    (let t : Nat := 1000; let n : Fin 128 := 127; let s : State := ((({ blank with
        lanes := [(3, { assign := some ⟨1, 2410000, 2⟩ }), (127, {
          stopping := true, assign := some ⟨0, 868000, 30⟩, pending := some ⟨1, 2, 3⟩, rx := some {
            detectAt := 5, level := -70, sfdLtb := 300, sfdAngle := 77, rssi := -71, fcs2 := true,
            length := 5 } })] }).set (Reg.CHZ_LANE_STAT_state n) lanePAYLOAD)); s.settled) ∧
    (let t : Nat := 1000; let n : Fin 128 := 127; let s : State := ((({ blank with
        lanes := [(3, { assign := some ⟨1, 2410000, 2⟩ }),
          (127, { testReq := true })] }).set (Reg.CHZ_LANE_STAT_state n) laneSEARCH)); s.settled ∧
      s.get (Reg.CHZ_LANE_STAT_state n) = laneSEARCH) ∧
    (let t : Nat := 1000; let n : Fin 128 := 127; let s : State := ((({ blank with
        lanes := [(3, { assign := some ⟨1, 2410000, 2⟩ }), (127, { })] }).set (Reg.CHZ_LANE_STAT_state n) laneSYNC));
      s.settled ∧ s.get (Reg.CHZ_LANE_STAT_state n) ≠ laneSEARCH) ∧
    (let t : Nat := 1000; let n : Fin 128 := 127; let d : Nat := 1000; let s : State := ((({ blank with
        lanes := [(3, { assign := some ⟨1, 2410000, 2⟩ }),
          (127, { periodic := some d })] }).set (Reg.CHZ_LANE_STAT_state n) laneSEARCH)); s.settled ∧
      s.get (Reg.CHZ_LANE_STAT_state n) = laneSEARCH ∧ (s.laneOf n).testing = 0 ∧ (s.laneOf n).periodic = some d ∧
      d ≤ max s.ltb t ∧ (∀ e ∈ s.lanes, e.2.testing ≠ 3)) ∧
    (let t : Nat := 1000; let n : Fin 128 := 127; let k : Nat := 1; let dec : Bool := true;
      let rssiErr : Int := (-10); let s : State := ({ blank with
        lanes := [(3, { assign := some ⟨1, 2410000, 2⟩ }), (127, { testing := 1, testEnd := 1000 })] }); s.settled ∧
      (s.laneOf n).testing = k ∧ 1 ≤ k ∧ k ≤ 3 ∧ (s.laneOf n).testEnd ≤ max s.ltb t ∧ dec = true ∧
      rssiErr.natAbs ≤ 10) ∧
    (let t : Nat := 1000; let n : Fin 128 := 127; let dec : Bool := true; let rssiErr : Int := 11;
      let s : State := ({ blank with
        lanes := [(3, { assign := some ⟨1, 2410000, 2⟩ }), (127, { testing := 4, testEnd := 1000 })] }); s.settled ∧
      (s.laneOf n).testing ≠ 0 ∧ (s.laneOf n).testEnd ≤ max s.ltb t ∧ (dec = false ∨ 10 < rssiErr.natAbs)) ∧
    (let t : Nat := 1000; let n : Fin 128 := 127; let s : State := ((({ blank with
        lanes := [(3, { assign := some ⟨1, 2410000, 2⟩ }), (127, { })] }).set (Reg.CHZ_LANE_STAT_state n)
      laneRETIRED).set (Reg.CHZ_RETIRED_retired 3) 0x80000000); s.settled ∧ laneIsRetired s n = true) ∧
    (let t : Nat := 1000; let n : Fin 128 := 127; let s : State := ((({ blank with
        lanes := [(3, { assign := some ⟨1, 2410000, 2⟩ }),
          (127, { switchEnd := 1000, testReq := true })] }).set (Reg.CHZ_LANE_STAT_state n) laneSWITCH)); s.settled ∧
      s.get (Reg.CHZ_LANE_STAT_state n) = laneSWITCH ∧ (s.laneOf n).switchEnd ≤ max s.ltb t ∧
      (s.laneOf n).stopping = false ∧ (s.laneOf n).pending = none) := by
  refine ⟨?_, ?_, ?_, ?_, ?_, ?_, ?_, ?_, ?_, ?_⟩ <;> decide +kernel

theorem test_LaneReceptionCompletes_met :
    (let t : Nat := 1000; let n : Fin 128 := 127; let a : Assign := (⟨0, 868300, 31⟩); let r : LaneRx := {
        detectAt := 5, level := -70, sfdLtb := 300, sfdAngle := 77, rssi := -71, fcs2 := true, length := 5 };
      let level : Int := (-70); let gain : Nat := 900; let m : Int := 12; let s : State := ((({ blank with
        lanes := [(3, { assign := some ⟨1, 2410000, 2⟩ }),
          (127, { assign := some a, detAdj := 12 })] }).set (Reg.CHZ_LANE_STAT_state n) laneSEARCH).set
      (Reg.RFX_STATUS_state 0) 2); s.settled ∧ s.get (Reg.CHZ_LANE_STAT_state n) = laneSEARCH ∧
      (s.laneOf n).testing = 0 ∧ (s.laneOf n).assign = some a ∧ s.get (Reg.RFX_STATUS_state a.band) = 2 ∧
      detects (s.now t) n m = true) ∧
    (let t : Nat := 1000; let n : Fin 128 := 127; let a : Assign := (⟨0, 868300, 31⟩); let r : LaneRx := {
        detectAt := 5, level := -70, sfdLtb := 300, sfdAngle := 77, rssi := -71, fcs2 := true, length := 5 };
      let level : Int := 2000; let gain : Nat := 900; let m : Int := 0; let ti : Nat := 251; let hz : Nat := 0;
      let s : State := ((({ blank with
        lanes := [(3, { assign := some ⟨1, 2410000, 2⟩ }),
          (127, { assign := some a, rx := some r })] }).set (Reg.CHZ_LANE_STAT_state n) laneHEADER)); s.settled ∧
      (s.laneOf n).assign = some a ∧ (s.laneOf n).rx = some r ∧ (s.get (Reg.CHZ_LANE_STAT_state n) = laneSYNC ∨
      s.get (Reg.CHZ_LANE_STAT_state n) = laneHEADER) ∧ r.level + s.sget Reg.CHZ_CFG_restart_margin ≤ level ∧
      250 < ti ∧ detects (s.now t) n m = true) ∧
    (let t : Nat := 1000; let n : Fin 128 := 127; let a : Assign := (⟨0, 868300, 31⟩); let r : LaneRx := {
        detectAt := 5, level := -70, sfdLtb := 300, sfdAngle := 77, rssi := -71, fcs2 := true, length := 5 };
      let level : Int := 2000; let gain : Nat := 900; let m : Int := 0; let ti : Nat := 251; let hz : Nat := 0;
      let s : State := ((({ blank with
        lanes := [(3, { assign := some ⟨1, 2410000, 2⟩ }),
          (127, { assign := some a, rx := some r })] }).set (Reg.CHZ_LANE_STAT_state n) lanePAYLOAD)); s.settled ∧
      (s.laneOf n).assign = some a ∧ (s.laneOf n).rx = some r ∧ s.get (Reg.CHZ_LANE_STAT_state n) = lanePAYLOAD ∧
      (s.laneOf n).capture = true ∧ r.rssi + (atLeast1 (s.get Reg.CHZ_CFG_capture_margin) : Int) ≤ level ∧ 250 < ti ∧
      detects (s.now t) n m = true) ∧
    (let t : Nat := 1000; let n : Fin 128 := 127; let a : Assign := (⟨0, 868300, 31⟩); let r : LaneRx := {
        detectAt := 5, level := -70, sfdLtb := 300, sfdAngle := 77, rssi := -71, fcs2 := true, length := 5 };
      let level : Int := (-70); let gain : Nat := 900; let sfd : BitVec 16 := 0xA7;
      let ltf : List (Cplx × Cplx) := [(⟨1, 2⟩, ⟨3, 4⟩)]; let s : State := ((({ blank with
        lanes := [(3, { assign := some ⟨1, 2410000, 2⟩ }),
          (127, { assign := some a, rx := some r })] }).set (Reg.CHZ_LANE_STAT_state n) laneSYNC).set
      (Reg.PHY_PROF_CTRL_family 31) 0); s.settled ∧ (s.laneOf n).assign = some a ∧ (s.laneOf n).rx = some r ∧
      s.get (Reg.CHZ_LANE_STAT_state n) = laneSYNC ∧ sfdMatches (phyOf s a.profile) sfd.toNat = true) ∧
    (let t : Nat := 99999999999; let n : Fin 128 := 127; let a : Assign := (⟨0, 868300, 31⟩); let r : LaneRx := {
        detectAt := 5, level := -70, sfdLtb := 300, sfdAngle := 77, rssi := -71, fcs2 := true, length := 5 };
      let level : Int := (-70); let gain : Nat := 900; let s : State := ((({ blank with
        lanes := [(3, { assign := some ⟨1, 2410000, 2⟩ }),
          (127, { assign := some a, rx := some r })] }).set (Reg.CHZ_LANE_STAT_state n) laneSYNC)); s.settled ∧
      (s.laneOf n).assign = some a ∧ (s.laneOf n).rx = some r ∧ s.get (Reg.CHZ_LANE_STAT_state n) = laneSYNC ∧
      r.detectAt + sfdWaitNs (phyOf s a.profile) ≤ max s.ltb t ∧ (s.laneOf n).stopping = false ∧
      (s.laneOf n).pending = none) ∧
    (let t : Nat := 1000; let n : Fin 128 := 127; let a : Assign := (⟨0, 868300, 31⟩); let r : LaneRx := {
        detectAt := 5, level := -70, sfdLtb := 300, sfdAngle := 77, rssi := -71, fcs2 := true, length := 5 };
      let level : Int := (-70); let gain : Nat := 900;
      let seen : HeaderSeen := { phr := { raw := 40 }, pilots := [[(1, 2)]] }; let p : Phr := { raw := 40 };
      let h : PhrInfo := { length := 40, fcs2 := true }; let s : State := ((({ blank with
        lanes := [(3, { assign := some ⟨1, 2410000, 2⟩ }),
          (127, { assign := some a, rx := some r })] }).set (Reg.CHZ_LANE_STAT_state n) laneHEADER).set
      (Reg.PHY_PROF_CTRL_family 31) 0 |>.set (Reg.PHY_PROF_CTRL_fcs_len 31) 1 |>.set (Reg.PHY_PROF_MAX_max_psdu 31)
      127); s.settled ∧ (s.laneOf n).assign = some a ∧ (s.laneOf n).rx = some r ∧
      s.get (Reg.CHZ_LANE_STAT_state n) = laneHEADER ∧ p = headerBits (phyOf s a.profile) (s.laneOf n).eq seen ∧
      phrCheck (phyOf s a.profile) p = .inl h) ∧
    (let t : Nat := 1000; let n : Fin 128 := 127; let a : Assign := (⟨0, 868300, 31⟩); let r : LaneRx := {
        detectAt := 5, level := -70, sfdLtb := 300, sfdAngle := 77, rssi := -71, fcs2 := true, length := 5 };
      let level : Int := (-70); let gain : Nat := 900; let p : List Byte := (withFcs true [1, 2, 3]);
      let q : List Byte := p; let snr : Int := 55; let seen : SamplesSeen := {}; let s : State := ((({ blank with
        lanes := [(3, { assign := some ⟨1, 2410000, 2⟩ }),
          (127, { assign := some a, rx := some r })] }).set (Reg.CHZ_LANE_STAT_state n) lanePAYLOAD).set
      (Reg.PHY_PROF_CTRL_family 31) 0); s.settled ∧ (s.laneOf n).assign = some a ∧ (s.laneOf n).rx = some r ∧
      s.get (Reg.CHZ_LANE_STAT_state n) = lanePAYLOAD ∧
      q = psduReceived (profFamily s a.profile) r.whiten r.seed (payloadOctets (phyOf s a.profile)
      ((s.laneOf n).eq.track seen.pilots) r.reg r.rate r.length p seen) ∧ fcsGood r.fcs2 q = true ∧
      (s.laneOf n).stopping = false ∧ (s.laneOf n).pending = none) ∧
    (let t : Nat := 1000; let n : Fin 128 := 127; let a : Assign := (⟨0, 868300, 31⟩); let r : LaneRx := {
        detectAt := 5, level := -70, sfdLtb := 300, sfdAngle := 77, rssi := -71, fcs2 := true, length := 5 };
      let level : Int := (-70); let gain : Nat := 900; let p : List Byte := [1, 2, 3]; let snr : Int := 55;
      let seen : SamplesSeen := { clipped := true }; let s : State := ((({ blank with
        lanes := [(3, { assign := some ⟨1, 2410000, 2⟩ }),
          (127, { assign := some a, rx := some r })] }).set (Reg.CHZ_LANE_STAT_state n) lanePAYLOAD));
      let q : List Byte := (psduReceived (profFamily s a.profile) r.whiten r.seed (payloadOctets (phyOf s a.profile)
      ((s.laneOf n).eq.track seen.pilots) r.reg r.rate r.length p seen)); s.settled ∧ (s.laneOf n).assign = some a ∧
      (s.laneOf n).rx = some r ∧ s.get (Reg.CHZ_LANE_STAT_state n) = lanePAYLOAD ∧
      q = psduReceived (profFamily s a.profile) r.whiten r.seed (payloadOctets (phyOf s a.profile)
      ((s.laneOf n).eq.track seen.pilots) r.reg r.rate r.length p seen) ∧ fcsGood r.fcs2 q = false ∧
      (s.laneOf n).stopping = false ∧ (s.laneOf n).pending = none) ∧
    (let t : Nat := 1000; let n : Fin 128 := 127; let a : Assign := (⟨0, 868300, 31⟩); let r : LaneRx := {
        detectAt := 5, level := -70, sfdLtb := 300, sfdAngle := 77, rssi := -71, fcs2 := true, length := 5 };
      let level : Int := (-70); let gain : Nat := 900; let s : State := (((({ blank with
        lanes := [(3, { assign := some ⟨1, 2410000, 2⟩ }),
          (127, { assign := some a, rx := some r })] }).set (Reg.CHZ_LANE_STAT_state n) lanePAYLOAD)).set
      Reg.CHZ_FAULT_CFG2_par_limit 9 |>.set (Reg.CHZ_LANE_FAULT_par_count n) 3); s.settled ∧
      min 15 (s.get (Reg.CHZ_LANE_FAULT_par_count n) + 1) < atLeast1 (s.cur Reg.CHZ_FAULT_CFG2_par_limit) ∧
      (s.laneOf n).stopping = false ∧ (s.laneOf n).pending = none) ∧
    (let t : Nat := 3000005; let n : Fin 128 := 127; let a : Assign := (⟨0, 868300, 31⟩); let r : LaneRx := {
        detectAt := 5, level := -70, sfdLtb := 300, sfdAngle := 77, rssi := -71, fcs2 := true, length := 5 };
      let level : Int := (-70); let gain : Nat := 900; let l : Lane := {
        stormFrom := 5, stormMs := 3, stormCnt := 250, stormHold := true };
      let s : State := ({ blank.set (Reg.CHZ_LANE_CTRL_enable n) 1 with
        lanes := [(127, l)] }); s.settled ∧ s.get (Reg.CHZ_LANE_CTRL_enable n) ≠ 0 ∧ l = s.laneOf n ∧
      l.stormFrom + l.stormMs * 1000000 ≤ max s.ltb t) ∧
    (let t : Nat := 1000; let n : Fin 128 := 127; let a : Assign := (⟨0, 868300, 31⟩); let r : LaneRx := {
        detectAt := 5, level := -70, sfdLtb := 300, sfdAngle := 77, rssi := -71, fcs2 := true, length := 5 };
      let level : Int := (-70); let gain : Nat := 900; let s : State := ((({ blank with
        lanes := [(3, { assign := some ⟨1, 2410000, 2⟩ }),
          (127, { assign := some a, rx := some r })] }).set (Reg.CHZ_LANE_STAT_state n) lanePAYLOAD)); s.settled ∧
      s.get (Reg.CHZ_LANE_STAT_state n) ≠ laneOFF ∧ s.get (Reg.CHZ_LANE_STAT_state n) ≠ laneRETIRED) ∧
    (let t : Nat := 1000; let n : Fin 128 := 127; let a : Assign := (⟨0, 868300, 31⟩); let r : LaneRx := {
        detectAt := 5, level := -70, sfdLtb := 300, sfdAngle := 77, rssi := -71, fcs2 := true, length := 5 };
      let level : Int := (-70); let gain : Nat := 900; let k : Fin 32 := 31;
      let s : State := (blank.set (Reg.CHZ_RCH_FREQ_valid k) 0); s.settled ∧ s.get (Reg.CHZ_RCH_FREQ_valid k) = 0 ∧
      (∀ e ∈ s.lanes, s.get (Reg.CHZ_LANE_CTRL_enable e.1) = 0)) := by
  refine ⟨?_, ?_, ?_, ?_, ?_, ?_, ?_, ?_, ?_, ?_, ?_, ?_⟩ <;> decide +kernel

theorem test_ModemCompletes_met :
    (let t : Nat := 1000; let k : Fin 32 := 31; let s : State := (blank); s.settled) ∧
    (let t : Nat := 1000; let k : Fin 32 := 31; let s : State := (blank.set (Reg.PHY_PROF_CTRL_valid k) 1);
      s.settled ∧ profileInUse s k = false ∧ s.get (Reg.PHY_PROF_CTRL_valid k) ≠ 0) ∧
    (let t : Nat := 1000; let k : Fin 32 := 31;
      let s : State := (blank.set (Reg.PHY_PROF_CTRL_valid k) 1 |>.set Reg.AMC_EB_CHANA_valid 1 |>.set
      Reg.AMC_EB_CHANA_profile k); s.settled ∧ profileInUse s k = true ∧ s.get (Reg.PHY_PROF_CTRL_valid k) ≠ 0) ∧
    (let t : Nat := 1000; let k : Fin 32 := 31; let s : State := (blank.set (Reg.PHY_PROF_CTRL_valid k) 0);
      s.settled ∧ s.get (Reg.PHY_PROF_CTRL_valid k) = 0) ∧
    (let t : Nat := 1000; let k : Fin 32 := 31; let n : BitVec 11 := 128;
      let s : State := (blank.set (Reg.PHY_PROF_CTRL_valid k) 1 |>.set (Reg.PHY_PROF_MAX_max_psdu k) 127); s.settled ∧
      (s.get (Reg.PHY_PROF_CTRL_valid k) = 0 ∨ n.toNat = 0 ∨ s.get (Reg.PHY_PROF_MAX_max_psdu k) < n.toNat)) ∧
    (let t : Nat := 1000; let k : Fin 32 := 31; let n : BitVec 11 := 127;
      let s : State := (blank.set (Reg.PHY_PROF_CTRL_valid k) 1 |>.set (Reg.PHY_PROF_MAX_max_psdu k) 127); s.settled ∧
      s.get (Reg.PHY_PROF_CTRL_valid k) ≠ 0 ∧ 0 < n.toNat ∧ n.toNat ≤ s.get (Reg.PHY_PROF_MAX_max_psdu k)) := by
  refine ⟨?_, ?_, ?_, ?_, ?_, ?_⟩ <;> decide +kernel

theorem test_AirMacCompletes_met :
    (let t : Nat := 1000; let n : Fin 128 := 127;
      let s : State := (blank.set Reg.AMC_CTRL_enable 0 |>.set Reg.BAL_CTRL_enable 1 |>.set
      (Reg.CHZ_LANE_CTRL_enable n) 1); s.settled ∧ s.get Reg.AMC_CTRL_enable = 0 ∧ s.get Reg.BAL_CTRL_enable ≠ 0 ∧
      s.get (Reg.CHZ_LANE_CTRL_enable n) ≠ 0 ∧ claimFree s 0x17 32 = true) ∧
    (let t : Nat := 1000; let s : State :=
      ({ ((blank).onAmc (fun x => { x with answers := [(3, 4)] })).set Reg.AMC_CTRL_enable 1 with
        claims := [(32, ⟨false, 0x17⟩)] }); s.settled ∧ s.get Reg.AMC_CTRL_enable ≠ 0 ∧ s.amc.runs = [] ∧
      s.amc.handed = []) ∧
    (let t : Nat := 1000; let s : State := ({ ((blank).onAmc (fun x => { x with
          answers := [(3, 4)], runs := [(3, {
            frame := {
              ref := 5, port := 3, svc := 2, ctx := some 4, air := none, pool := 1, bufs := 1 }, freq := 2410000,
            nb := 1, be := 3, tries := 1, backoff := some 900 })], handed := [(1, ({
            ref := 5, port := 3, svc := 2, ctx := some 4, air := none, pool := 1, bufs := 1 },
            2410000))] })).set Reg.AMC_CTRL_enable 1 with
        claims := [(32, ⟨false, 0x17⟩)] }); s.settled ∧ s.get Reg.AMC_CTRL_enable ≠ 0) ∧
    (let t : Nat := 1000; let s : State := (((blank).onAmc
      (fun x => { x with dwell := [(3, [4, 5])], dwellHit := [3] }))); s.settled) ∧
    (let t : Nat := 1000; let k : Fin 32 := 31; let nb : Neighbour := {
        state := 1, district := 3, site := 4, period := 2, angle := 0, chanA := some 868300, miss := 0, tested := 4,
        reached := some (6, true, 0, 1) }; let next : Nat := 6; let win : Nat := 0; let limit : Nat := 1;
      let s : State := ((((blank).onAmc (fun x => { x with nb := [(31, nb)] }))).set Reg.AMC_CTRL_nb_en 1 |>.set
      Reg.BAL_STATUS_state 2 |>.onBal (fun x => { x with
        cycles := [⟨7, 0, 20000000⟩, ⟨6, -20000000, 20000000⟩] })); s.settled ∧ tabGet s.amc.nb k = some nb ∧
      nb.state = 1 ∧ nb.reached = some (next, true, win, limit) ∧ s.get Reg.AMC_CTRL_nb_en ≠ 0 ∧ balOff s = false ∧
      angleAfter ((next * 65536 + nb.angle + win) % angleMod) (liveAngle (s.now t)) = false) ∧
    (let t : Nat := 1000; let k : Fin 32 := 31; let nb : Neighbour := {
        state := 2, rsv := [77], district := 3, site := 4, period := 2, angle := 0, chanA := some 868300, miss := 0,
        tested := 4 }; let s : State := (((blank).onAmc (fun x => { x with nb := [(31, nb)] })).set Reg.AMC_CTRL_nb_en
      1 |>.set Reg.BAL_STATUS_state 2 |>.onBal (fun x => { x with
        cycles := [⟨7, 0, 20000000⟩, ⟨6, -20000000, 20000000⟩] })); s.settled ∧ tabGet s.amc.nb k = some nb ∧
      nb.state = 2 ∧ nb.hold = 0 ∧ s.get Reg.AMC_CTRL_nb_en ≠ 0) := by
  refine ⟨?_, ?_, ?_, ?_, ?_, ?_⟩ <;> decide +kernel

theorem test_CsmaCompletes_met :
    (let t : Nat := 1000; let n : Fin 4 := 3; let a : AirOut := {
        parm := {
          profile := 3, family := 1, band := 1, fcs2 := true, occHz := 200000, maxPsdu := 127, n := 40, airUs := 900,
          shrUs := 50, ackUs := 60 }, psdu := [0x29, 0xDC, 7], ar := true, ver := 1, dsn := some 7, dst := (3, 99),
        hop := some 4 }; let f : EscFrame := {
        ref := 5, port := 3, svc := 2, ctx := some 4, air := some a, pool := 1, bufs := 1 }; let q : Nat := 2410000;
      let s : State := (((blank).onAmc (fun x => { x with handed := [(3, (f, 2410000))] })).set Reg.AMC_CTRL_enable 1
      |>.set (Reg.AMC_PLAN_FREQ_freq_khz 0) 2410000 |>.set (Reg.AMC_PLAN_FREQ_band 0) 1 |>.set
      (Reg.AMC_PLAN_FREQ_valid 0) 1 |>.set (Reg.AMC_PLAN_CFG_async_ok 0) 1 |>.set (Reg.AMC_PLAN_CFG_hop 0) 0 |>.set
      (Reg.AMC_PLAN_CFG_rsv_override 0) 1 |> (fun s =>
      (List.range 32).foldl (fun s k => s.set (Reg.CHZ_RCH_FREQ_valid k) 0) s) |>.set Reg.AMC_DWELL_CFG_dwell_max
      60000); let e : Nat := (min (min 8 (s.get Reg.AMC_CSMA_CFG_max_be)) (s.get Reg.AMC_CSMA_CFG_min_be));
      s.settled ∧ f.air = some a ∧ s.get Reg.AMC_CTRL_enable ≠ 0 ∧ runOf s n = none ∧
      tabGet s.amc.handed n = some (f, q) ∧ planCheck s (chainBand n) q a.parm.airUs = 0 ∧
      e = min (min 8 (s.get Reg.AMC_CSMA_CFG_max_be)) (s.get Reg.AMC_CSMA_CFG_min_be)) ∧
    (let t : Nat := 1000; let n : Fin 4 := 3; let a : AirOut := {
        parm := {
          profile := 3, family := 1, band := 1, fcs2 := true, occHz := 200000, maxPsdu := 127, n := 40, airUs := 900,
          shrUs := 50, ackUs := 60 }, psdu := [0x29, 0xDC, 7], ar := true, ver := 1, dsn := some 7, dst := (3, 99),
        hop := some 4 }; let f : EscFrame := {
        ref := 5, port := 3, svc := 2, ctx := some 4, air := some a, pool := 1, bufs := 1 }; let r : AsyncRun := {
        frame := f, freq := 2410000, nb := 1, be := 3, tries := 1, backoff := some 900 }; let due : Nat := 900;
      let k : Nat := 2410005; let s : State := (((((blank).onChain 3
      (fun c => { c with slots := [(9, { freq := 2410005 })] }))).onAmc (fun x => { x with runs := [(3, r)] })).set
      (Reg.TXC_CTRL_enable n) 1 |>.set Reg.AMC_CSMA_CFG_cca_nolane 1 |>.set (Reg.AMC_PLAN_FREQ_freq_khz 0) 2410000
      |>.set (Reg.AMC_PLAN_FREQ_band 0) 1 |>.set (Reg.AMC_PLAN_FREQ_valid 0) 1 |>.set (Reg.AMC_PLAN_CFG_async_ok 0) 1
      |>.set (Reg.AMC_PLAN_CFG_hop 0) 0 |>.set (Reg.AMC_PLAN_CFG_rsv_override 0) 1 |> (fun s =>
      (List.range 32).foldl (fun s k => s.set (Reg.CHZ_RCH_FREQ_valid k) 0) s)); s.settled ∧ f.air = some a ∧
      runOf s n = some r ∧ r.frame = f ∧ r.backoff = some due ∧ due ≤ max s.ltb t ∧
      (planCheck s (chainBand n) r.freq 0 = 0 ∨ 3 < planCheck s (chainBand n) r.freq 0) ∧
      ccaBusy s (chainBand n) r.freq = false ∧ s.get (Reg.TXC_CTRL_enable n) ≠ 0 ∧ (s.chainOf n).active = none ∧
      nearSlot s n r.freq = some k) ∧
    (let t : Nat := 1000; let n : Fin 4 := 3; let a : AirOut := {
        parm := {
          profile := 3, family := 1, band := 1, fcs2 := true, occHz := 200000, maxPsdu := 127, n := 40, airUs := 900,
          shrUs := 50, ackUs := 60 }, psdu := [0x29, 0xDC, 7], ar := true, ver := 1, dsn := some 7, dst := (3, 99),
        hop := some 4 }; let f : EscFrame := {
        ref := 5, port := 3, svc := 2, ctx := some 4, air := some a, pool := 1, bufs := 1 }; let w : AckWait := {
        ref := 5, issuer := .async, chain := 3, first := 5, deadline := 1000, freq := 2410000, profile := 3,
        dsn := some 7, dst := (3, 99) }; let r : AsyncRun := {
        frame := f, freq := 2410000, nb := 1, be := 3, tries := 1, backoff := some 900 };
      let s : State := (((blank).onAmc (fun x => { x with runs := [(3, r)], waits := [w] })) |>.set
      (Reg.AMC_PLAN_FREQ_freq_khz 0) 2410000 |>.set (Reg.AMC_PLAN_FREQ_band 0) 1 |>.set (Reg.AMC_PLAN_FREQ_valid 0) 1
      |>.set (Reg.AMC_PLAN_CFG_async_ok 0) 1 |>.set (Reg.AMC_PLAN_CFG_hop 0) 0 |>.set
      (Reg.AMC_PLAN_CFG_rsv_override 0) 1 |> (fun s =>
      (List.range 32).foldl (fun s k => s.set (Reg.CHZ_RCH_FREQ_valid k) 0) s) |>.set Reg.AMC_DWELL_CFG_dwell_max
      60000); s.settled ∧ f.air = some a ∧ s.amc.waits = [w] ∧ w.ended = false ∧ w.issuer = .async ∧ w.chain = n ∧
      w.ref = f.ref ∧ w.deadline ≤ max s.ltb t ∧ ackInAir s w = false ∧ runOf s n = some r ∧ r.frame = f ∧
      r.tries + 1 ≤ r.maxRetries ∧ planCheck s (chainBand n) r.freq a.parm.airUs = 0) ∧
    (let t : Nat := 1000; let n : Fin 4 := 3; let a : AirOut := {
        parm := {
          profile := 3, family := 1, band := 1, fcs2 := true, occHz := 200000, maxPsdu := 127, n := 40, airUs := 900,
          shrUs := 50, ackUs := 60 }, psdu := [0x29, 0xDC, 7], ar := true, ver := 1, dsn := some 7, dst := (3, 99),
        hop := some 4 }; let f : EscFrame := {
        ref := 5, port := 3, svc := 2, ctx := some 4, air := some a, pool := 1, bufs := 1 }; let w : AckWait := {
        ref := 5, issuer := .slot, chain := 2, first := 5, deadline := 1000, freq := 2410000, profile := 3,
        dsn := some 7, dst := (3, 99) }; let s : State := (((blank).onAmc
      (fun x => { x with waits := [{ w with ref := 4 }, w] }))); s.settled ∧ f.air = some a ∧
      s.amc.waits.find? (fun x => x.ref == w.ref && !x.ended) = some w ∧ w.deadline ≤ max s.ltb t ∧
      ackInAir (s.begin t) w = false) := by
  refine ⟨?_, ?_, ?_, ?_⟩ <;> decide +kernel

theorem test_SleepyNodesComplete_met :
    (let t : Nat := 1000; let k : Fin 131072 := 4;
      let s : State := (blank.set Reg.AMC_CTRL_enable 1 |>.set Reg.ESC_CTRL_enable 1 |>.set Reg.SLP_CTRL_enable 0);
      s.settled ∧ s.get Reg.SLP_CTRL_enable = 0 ∧ s.get Reg.AMC_CTRL_enable ≠ 0 ∧ s.get Reg.ESC_CTRL_enable ≠ 0 ∧
      claimFree s 0x15 30 = true) ∧
    (let t : Nat := 1000; let k : Fin 131072 := 4; let s : State := ({ blank.set Reg.SLP_CTRL_enable 1 with
        claims := [(30, ⟨false, 0x15⟩)], slp := { pending := [(3, 4)], fbKept := [7] } }); s.settled ∧
      s.get Reg.SLP_CTRL_enable ≠ 0) ∧
    (let t : Nat := 2300000; let k : Fin 131072 := 4; let a : AirOut := {
        parm := {
          profile := 3, family := 1, band := 1, fcs2 := true, occHz := 200000, maxPsdu := 127, n := 40, airUs := 900,
          shrUs := 50, ackUs := 60 }, psdu := [0x29, 0xDC, 7], ar := true, ver := 1, dsn := some 7, dst := (3, 99),
        hop := some 4 }; let f : EscFrame := {
        ref := 5, port := 3, svc := 2, ctx := some 4, air := some a, pool := 1, bufs := 1, headAt := 900 };
      let s : State :=
      (({ (fun s i => nset (nset (nset s i Nt.key 78) i Nt.parent ntSite) i Nt.valid 1) (blank.cset 4 Cx.hs_valid 1 |>.cset 4 Cx.slp_valid 1 |>.set (Reg.SLP_CLS_WUS_wus_max_ms 0) 100 |>.cset 4 Cx.eui64 78 |>.cset 4 Cx.period_nom 3000) ((ntReads blank 78 0).headD 0) with
        esc := { sub := [(4, [f])] } }).set Reg.SLP_CTRL_enable 1 |>.set Reg.BAL_STATUS_state 2 |>.onBal (fun x =>
      { x with
        cycles := [⟨7, 0, 20000000⟩, ⟨6, -20000000, 20000000⟩] })); s.settled ∧ f.air = some a ∧ a.hop = some k.val ∧
      s.get Reg.SLP_CTRL_enable ≠ 0 ∧ balOff s = false ∧ slpServes s k = true ∧ s.cget k Cx.hs_valid = 1 ∧
      s.cget k Cx.oos = 0 ∧ performs s (s.cget k Cx.eui64) = true ∧ tabGet s.slp.windows k = none ∧
      tabGet s.slp.tries k = none ∧ slpFrames s k = [f] ∧ expired (s.now t) (16 * agePort f + f.svc) f = false ∧
      s.cget k Cx.suspend = 0 ∧ f.ctx = some k.val ∧ s.esc.held = [] ∧
      (firstWake (s.now t) k a false 1 (slpDecided s k f : Nat) 4096
      (wakeFrom (s.now t) k 0 1 (slpDecided s k f : Nat))).first ≤ (max s.ltb t : Nat) + 420000 ∧
      (firstWake (s.now t) k a false 1 (slpDecided s k f : Nat) 4096
      (wakeFrom (s.now t) k 0 1 (slpDecided s k f : Nat))).span ≤ slpMaxNs s k) ∧
    (let t : Nat := 2300000; let k : Fin 131072 := 4; let a : AirOut := {
        parm := {
          profile := 3, family := 1, band := 1, fcs2 := true, occHz := 200000, maxPsdu := 127, n := 40, airUs := 900,
          shrUs := 50, ackUs := 60 }, psdu := [0x29, 0xDC, 7], ar := true, ver := 1, dsn := some 7, dst := (3, 99),
        hop := some 4 }; let f : EscFrame := {
        ref := 5, port := 3, svc := 2, ctx := some 4, air := some a, pool := 1, bufs := 1, headAt := 900 };
      let s : State :=
      (({ (fun s i => nset (nset (nset s i Nt.key 78) i Nt.parent ntSite) i Nt.valid 1) (blank.cset 4 Cx.hs_valid 1 |>.cset 4 Cx.slp_valid 1 |>.set (Reg.SLP_CLS_WUS_wus_max_ms 0) 100 |>.cset 4 Cx.eui64 78 |>.cset 4 Cx.period_nom 3000) ((ntReads blank 78 0).headD 0) with
        esc := { sub := [(4, [f, { f with ref := 6 }])] } }).set Reg.SLP_CTRL_enable 1 |>.set Reg.BAL_STATUS_state 2
      |>.onBal (fun x => { x with
        cycles := [⟨7, 0, 20000000⟩, ⟨6, -20000000, 20000000⟩] })); let v : State := ((slpHead (s.begin t) k 64).2);
      s.settled ∧ f.air = some a ∧ s.get Reg.SLP_CTRL_enable ≠ 0 ∧ balOff (s.begin t) = false ∧
      slpServes (s.begin t) k = true ∧ s.cget k Cx.hs_valid = 1 ∧ s.cget k Cx.oos = 0 ∧
      performs (s.begin t) (s.cget k Cx.eui64) = true ∧ tabGet s.slp.windows k = none ∧ tabGet s.slp.tries k = none ∧
      slpHead (s.begin t) k 64 = (some f, v) ∧ (firstWake v k a false 1 (slpDecided v k f : Nat) 4096
      (wakeFrom v k 0 1 (slpDecided v k f : Nat))).first ≤ (v.ltb : Nat) + 420000 ∧
      (firstWake v k a false 1 (slpDecided v k f : Nat) 4096 (wakeFrom v k 0 1 (slpDecided v k f : Nat))).span ≤
      slpMaxNs v k) ∧
    (let t : Nat := 1000; let k : Fin 131072 := 4; let s : State := (blank.cset 4 Cx.oos 2 |>.cset 4 Cx.miss 9);
      s.settled) := by
  refine ⟨?_, ?_, ?_, ?_, ?_⟩ <;> decide +kernel

theorem test_EscapementEnableCompletes_met :
    (let t : Nat := 1000; let p : Nat := 7; let s : State := (blank.set Reg.ESC_CTRL_enable 0 |>.set
      Reg.BAL_CTRL_enable 1 |>.set (Reg.ESC_PORT_CTRL_cfg 7) 1); s.settled ∧ s.get Reg.ESC_CTRL_enable = 0 ∧
      s.get Reg.BAL_CTRL_enable ≠ 0 ∧ p < 8 ∧ s.get (Reg.ESC_PORT_CTRL_cfg p) ≠ 0 ∧ claimFree s 0x18 33 = true) ∧
    (let t : Nat := 1000; let s : State :=
      ({ ((blank).onEsc (fun x => { x with open_ := [(511, { start := 3, guard := 4 })] })).set Reg.ESC_CTRL_enable 1 with
        claims := [(33, ⟨false, 0x18⟩)] }); s.settled) ∧
    (let t : Nat := 1000; let k : Nat := 1; let s : State :=
      (({ (blank).onBal (fun x => { x with cycles := [⟨514, 0, 20000000⟩] }) with
        inForce := [] }).set Reg.BAL_STATUS_state 2 |>.set Reg.BAL_SITE_PHASE_site_phase 0 |>.set
      Reg.ESC_STATUS_bank_act 0 |>.set Reg.ESC_BANK_bank_sel 1 |>.set Reg.ESC_FRAME_LEN0_frame_len 1 |>.set
      Reg.ESC_STATUS_bank_pending 1); s.settled ∧ balOff s = false ∧
      liveAngle (s.now t) / 65536 % frameLenOf s (bankAct s) = 0 ∧ s.get Reg.ESC_BANK_bank_sel = k ∧ k < 2 ∧
      k ≠ bankAct s) := by
  refine ⟨?_, ?_, ?_⟩ <;> decide +kernel

theorem test_TransmitOccurrenceCompletes_met :
    (let t : Nat := 18200000; let k : Fin 512 := 511; let a : AirOut := {
        parm := {
          profile := 3, family := 1, band := 0, fcs2 := true, occHz := 200000, maxPsdu := 127, n := 40, airUs := 900,
          shrUs := 50, ackUs := 60 }, psdu := [0x29, 0xDC, 7], ar := true, ver := 1, dsn := some 7, dst := (3, 99),
        hop := some 4 }; let f : EscFrame := {
        ref := 5, port := 0, svc := 2, ctx := some 4, air := some a, pool := 1, bufs := 1 }; let c : Nat := 1;
      let plan : Nat := 6; let h : Nat := 4; let fr : Nat := 868300;
      let s : State :=
      ((({ ((((blank.cset 4 Cx.sub_prof 0 |>.cset 4 Cx.prof_gen 0 |>.cset 4 Cx.ofs_valid 1).onChain 1 (fun c => { c with slots := [(9, { freq := 868300 })] })).onEsc (fun x => { x with sub := [(4, [f])] }))).onBal (fun x => { x with cycles := [⟨514, 0, 20000000⟩] }) with
        inForce := [] }).set Reg.BAL_STATUS_state 2 |>.set Reg.BAL_SITE_PHASE_site_phase 0 |>.set Reg.ESC_CTRL_enable
      1 |>.set Reg.ESC_CTRL_hold_stop 0 |>.set Reg.ESC_CTRL_cyc_gate 0 |>.set Reg.ESC_STATUS_bank_act 1 |>.set
      Reg.ESC_STATUS_bank_pending 0 |>.set Reg.ESC_FRAME_LEN1_frame_len 4 |>.set (Reg.ESC_SLOT_B_valid k) 1 |>.set
      (Reg.ESC_SLOT_A_cyc k) 3 |>.set (Reg.ESC_SLOT_A_angle k) 9 |>.set (Reg.ESC_SLOT_B_plan k) 6 |>.set
      (Reg.AMC_PLAN_FREQ_valid 6) 1 |>.set (Reg.AMC_PLAN_FREQ_freq_khz 6) 868300 |>.set (Reg.AMC_PLAN_FREQ_band 6) 0
      |>.set (Reg.ESC_SLOT_B_chain k) 1 |>.set (Reg.ESC_SLOT_B_len k) 60000 |>.set (Reg.ESC_SLOT_B_dir k) 0 |>.set
      (Reg.ESC_SLOT_C_svc_mask k) 4 |>.set Reg.ESC_SCHED_CFG_dec_lead 6554 |>.set Reg.ESC_SCHED_CFG_tx_offset 328 |>
      (fun s : State => (List.range 32).foldl (fun s k => s.set (Reg.CHZ_RCH_FREQ_valid k) 0) s) |>.set
      (Reg.TXC_CTRL_enable 1) 1 |>.set Reg.AMC_DWELL_CFG_dwell_max 60000 |>.set Reg.TXC_COEX_STAT_grant 0 |>.set
      (Reg.TXC_STATUS_state 1) 2 |>.set Reg.AMC_ACK_GAP_gap_2g4 1000 |>.set Reg.AMC_ACK_GAP_gap_sun 1000 |>.set
      (Reg.ESC_SVC_RATE_rate (16 + 2)) 0 |>.set (Reg.ESC_PORT_RATE_rate 1) 0 |>.set (Reg.ESC_SVC_AGE_age_max (16 + 2))
      0 |>.set (Reg.ESC_SVC_CTRL_path (16 + 2)) 0 |>.set Reg.ESC_SCHED_CFG2_search_max 1 |>.set
      (Reg.AMC_PLAN_CFG_rsv_override 6) 1 |>.set (Reg.ESC_SLOT_C_lgroup k) 255 |> (fun s : State =>
      (List.range 16).foldl (fun s k => s.set (Reg.ESC_FUS_LO_valid k) 0) s)));
      let cyc : Nat := (occCycle (s.now t) k (max 1311 (s.get Reg.ESC_SCHED_CFG_dec_lead)));
      let g : Nat := (slotStart s k cyc); let target : Nat := (slotTarget s g h);
      let start : Nat := ((ltbOf (s.now t) target).toNat); s.settled ∧ s.get Reg.ESC_CTRL_enable ≠ 0 ∧
      balOff s = false ∧ occInert s k = false ∧ planDead s (s.get (Reg.ESC_SLOT_B_plan k)) = false ∧
      s.get Reg.ESC_CTRL_hold_stop = 0 ∧ s.get Reg.ESC_CTRL_cyc_gate = 0 ∧ tabGet s.esc.decided k ≠ some cyc ∧
      g = slotStart s k cyc ∧ s.get (Reg.ESC_SLOT_B_dir k) = 0 ∧
      cyc = occCycle (s.now t) k (max 1311 (s.get Reg.ESC_SCHED_CFG_dec_lead)) ∧
      reached (s.now t) (g + angleMod - max 1311 (s.get Reg.ESC_SCHED_CFG_dec_lead)) = true ∧
      reached (s.now t) g = false ∧ c = s.get (Reg.ESC_SLOT_B_chain k) ∧ c < 4 ∧
      plan = s.get (Reg.ESC_SLOT_B_plan k) ∧ s.esc.sub = [(h, [f])] ∧ s.esc.queue = [] ∧ s.esc.held = [] ∧
      f.ctx = some h ∧ f.air = some a ∧ a.hop = some h ∧ f.svc < 16 ∧ a.parm.band = chainBand c ∧
      bits (s.get (Reg.ESC_SLOT_C_svc_mask k)) f.svc 1 = 1 ∧ s.get (Reg.ESC_SVC_CTRL_prio (16 * c + f.svc)) < 4 ∧
      Memory.wf s.store = true ∧ h < 131072 ∧ s.get (Reg.ESC_SVC_AGE_age_max (16 * c + f.svc)) = 0 ∧
      s.cget h Cx.suspend = 0 ∧ s.cget h Cx.slp_valid = 0 ∧ s.cget h Cx.ofs_valid = 1 ∧
      s.get (Reg.ESC_SLOT_C_lgroup k) = 0xFF ∧ (phaseDiff s h).natAbs ≤ 16 * s.get Reg.ESC_SCHED_CFG2_ofs_tol ∧
      svcPath s c f.svc = 0 ∧ target = slotTarget s g h ∧ (start : Int) = ltbOf (s.now t) target ∧
      max s.ltb t + 420000 ≤ start ∧ (start : Int) + ((a.parm.airUs + ackUsOf s a) * 1000 : Nat) ≤ ltbOf (s.now t)
      ((g + s.get (Reg.ESC_SLOT_B_len k)) % angleMod) ∧ s.get (Reg.ESC_SVC_RATE_rate (16 * c + f.svc)) = 0 ∧
      s.get (Reg.ESC_PORT_RATE_rate c) = 0 ∧ s.cget h Cx.cur_rate = 0 ∧ subPend s h = false ∧
      fusCovers s a.parm.band (planFreq s plan) a.parm.occHz = [] ∧ planReserved (s.now t) plan = false ∧
      pickChain (s.now t) [c] a.parm.band (planFreq s plan) start a.parm.airUs = .inr ⟨c, fr, []⟩ ∧
      (s.chainOf c).active = none) ∧
    (let t : Nat := 18200000; let k : Fin 512 := 511;
      let s : State :=
      ((({ (((blank).onEsc (fun x => { x with sub := [(4, [{ ref := 5, port := 0, svc := 3 }])] }))).onBal (fun x => { x with cycles := [⟨514, 0, 20000000⟩] }) with
        inForce := [] }).set Reg.BAL_STATUS_state 2 |>.set Reg.BAL_SITE_PHASE_site_phase 0 |>.set Reg.ESC_CTRL_enable
      1 |>.set Reg.ESC_CTRL_hold_stop 0 |>.set Reg.ESC_CTRL_cyc_gate 0 |>.set Reg.ESC_STATUS_bank_act 1 |>.set
      Reg.ESC_STATUS_bank_pending 0 |>.set Reg.ESC_FRAME_LEN1_frame_len 4 |>.set (Reg.ESC_SLOT_B_valid k) 1 |>.set
      (Reg.ESC_SLOT_A_cyc k) 3 |>.set (Reg.ESC_SLOT_A_angle k) 9 |>.set (Reg.ESC_SLOT_B_plan k) 6 |>.set
      (Reg.AMC_PLAN_FREQ_valid 6) 1 |>.set (Reg.AMC_PLAN_FREQ_freq_khz 6) 868300 |>.set (Reg.AMC_PLAN_FREQ_band 6) 0
      |>.set (Reg.ESC_SLOT_B_chain k) 1 |>.set (Reg.ESC_SLOT_B_len k) 60000 |>.set (Reg.ESC_SLOT_B_dir k) 0 |>.set
      (Reg.ESC_SLOT_C_svc_mask k) 4 |>.set Reg.ESC_SCHED_CFG_dec_lead 6554 |>.set Reg.ESC_SCHED_CFG_tx_offset 328 |>
      (fun s : State => (List.range 32).foldl (fun s k => s.set (Reg.CHZ_RCH_FREQ_valid k) 0) s)));
      let cyc : Nat := (occCycle (s.now t) k (max 1311 (s.get Reg.ESC_SCHED_CFG_dec_lead)));
      let g : Nat := (slotStart s k cyc); s.settled ∧ s.get Reg.ESC_CTRL_enable ≠ 0 ∧ balOff s = false ∧
      occInert s k = false ∧ planDead s (s.get (Reg.ESC_SLOT_B_plan k)) = false ∧ s.get Reg.ESC_CTRL_hold_stop = 0 ∧
      s.get Reg.ESC_CTRL_cyc_gate = 0 ∧ tabGet s.esc.decided k ≠ some cyc ∧ g = slotStart s k cyc ∧
      s.get (Reg.ESC_SLOT_B_dir k) = 0 ∧ cyc = occCycle (s.now t) k (max 1311 (s.get Reg.ESC_SCHED_CFG_dec_lead)) ∧
      reached (s.now t) (g + angleMod - max 1311 (s.get Reg.ESC_SCHED_CFG_dec_lead)) = true ∧
      reached (s.now t) g = false ∧ (∀ e ∈ s.esc.sub, ∀ f ∈ e.2,
      bits (s.get (Reg.ESC_SLOT_C_svc_mask k)) f.svc 1 = 0)) ∧
    (let t : Nat := 1000000; let k : Fin 512 := 511;
      let s : State := ((({ (blank).onBal (fun x => { x with cycles := [⟨515, 0, 20000000⟩] }) with
        inForce := [] }).set Reg.BAL_STATUS_state 2 |>.set Reg.BAL_SITE_PHASE_site_phase 0 |>.set Reg.ESC_CTRL_enable
      1 |>.set Reg.ESC_CTRL_hold_stop 0 |>.set Reg.ESC_CTRL_cyc_gate 0 |>.set Reg.ESC_STATUS_bank_act 1 |>.set
      Reg.ESC_STATUS_bank_pending 0 |>.set Reg.ESC_FRAME_LEN1_frame_len 4 |>.set (Reg.ESC_SLOT_B_valid k) 1 |>.set
      (Reg.ESC_SLOT_A_cyc k) 3 |>.set (Reg.ESC_SLOT_A_angle k) 9 |>.set (Reg.ESC_SLOT_B_plan k) 6 |>.set
      (Reg.AMC_PLAN_FREQ_valid 6) 1 |>.set (Reg.AMC_PLAN_FREQ_freq_khz 6) 868300 |>.set (Reg.AMC_PLAN_FREQ_band 6) 0
      |>.set (Reg.ESC_SLOT_B_chain k) 1 |>.set (Reg.ESC_SLOT_B_len k) 60000 |>.set (Reg.ESC_SLOT_B_dir k) 0 |>.set
      (Reg.ESC_SLOT_C_svc_mask k) 4 |>.set Reg.ESC_SCHED_CFG_dec_lead 6554 |>.set Reg.ESC_SCHED_CFG_tx_offset 328 |>
      (fun s : State => (List.range 32).foldl (fun s k => s.set (Reg.CHZ_RCH_FREQ_valid k) 0) s)));
      let cyc : Nat := (occCycle (s.now t) k (max 1311 (s.get Reg.ESC_SCHED_CFG_dec_lead)));
      let g : Nat := (slotStart s k cyc); s.settled ∧ s.get Reg.ESC_CTRL_enable ≠ 0 ∧ balOff s = false ∧
      occInert s k = false ∧ planDead s (s.get (Reg.ESC_SLOT_B_plan k)) = false ∧ s.get Reg.ESC_CTRL_hold_stop = 0 ∧
      s.get Reg.ESC_CTRL_cyc_gate = 0 ∧ tabGet s.esc.decided k ≠ some cyc ∧ g = slotStart s k cyc ∧
      s.get (Reg.ESC_SLOT_B_dir k) = 0 ∧ cyc = occCycle (s.now t) k (max 1311 (s.get Reg.ESC_SCHED_CFG_dec_lead)) ∧
      reached (s.now t) (g + angleMod - max 1311 (s.get Reg.ESC_SCHED_CFG_dec_lead)) = true ∧
      reached (s.now t) g = true) ∧
    (let t : Nat := 18200000; let k : Fin 512 := 511; let h : EscFrame := {
        ref := 5, port := 0, svc := 2, ctx := some 4, air := some {
          parm := {
            profile := 3, family := 1, band := 0, fcs2 := true, occHz := 200000, maxPsdu := 127, n := 40,
            airUs := 900, shrUs := 50, ackUs := 60 }, psdu := [0x29, 0xDC, 7], ar := true, ver := 1, dsn := some 7,
          dst := (3, 99), hop := some 4 }, pool := 1, bufs := 1 };
      let e : Nat × List EscFrame := ((4, [h, { h with ref := 6 }]));
      let s : State :=
      ((({ ((((blank.cset 4 Cx.sub_prof 0 |>.cset 4 Cx.prof_gen 0 |>.cset 4 Cx.ofs_valid 1).onChain 1 (fun c => { c with slots := [(9, { freq := 868300 })] })).onEsc (fun x => { x with
          sub := [(4, [{
            ref := 5, port := 0, svc := 2, ctx := some 4, air := some {
              parm := {
                profile := 3, family := 1, band := 0, fcs2 := true, occHz := 200000, maxPsdu := 127, n := 40,
                airUs := 900, shrUs := 50, ackUs := 60 }, psdu := [0x29, 0xDC, 7], ar := true, ver := 1,
              dsn := some 7, dst := (3, 99), hop := some 4 }, pool := 1, bufs := 1 }, { ({
              ref := 5, port := 0, svc := 2, ctx := some 4, air := some {
                parm := {
                  profile := 3, family := 1, band := 0, fcs2 := true, occHz := 200000, maxPsdu := 127, n := 40,
                  airUs := 900, shrUs := 50, ackUs := 60 }, psdu := [0x29, 0xDC, 7], ar := true, ver := 1,
                dsn := some 7, dst := (3, 99), hop := some 4 }, pool := 1, bufs := 1 } : EscFrame) with
            ref := 6 }])] }))).onBal (fun x => { x with cycles := [⟨514, 0, 20000000⟩] }) with
        inForce := [] }).set Reg.BAL_STATUS_state 2 |>.set Reg.BAL_SITE_PHASE_site_phase 0 |>.set Reg.ESC_CTRL_enable
      1 |>.set Reg.ESC_CTRL_hold_stop 0 |>.set Reg.ESC_CTRL_cyc_gate 0 |>.set Reg.ESC_STATUS_bank_act 1 |>.set
      Reg.ESC_STATUS_bank_pending 0 |>.set Reg.ESC_FRAME_LEN1_frame_len 4 |>.set (Reg.ESC_SLOT_B_valid k) 1 |>.set
      (Reg.ESC_SLOT_A_cyc k) 3 |>.set (Reg.ESC_SLOT_A_angle k) 9 |>.set (Reg.ESC_SLOT_B_plan k) 6 |>.set
      (Reg.AMC_PLAN_FREQ_valid 6) 1 |>.set (Reg.AMC_PLAN_FREQ_freq_khz 6) 868300 |>.set (Reg.AMC_PLAN_FREQ_band 6) 0
      |>.set (Reg.ESC_SLOT_B_chain k) 1 |>.set (Reg.ESC_SLOT_B_len k) 60000 |>.set (Reg.ESC_SLOT_B_dir k) 0 |>.set
      (Reg.ESC_SLOT_C_svc_mask k) 4 |>.set Reg.ESC_SCHED_CFG_dec_lead 6554 |>.set Reg.ESC_SCHED_CFG_tx_offset 328 |>
      (fun s : State => (List.range 32).foldl (fun s k => s.set (Reg.CHZ_RCH_FREQ_valid k) 0) s) |>.set
      (Reg.TXC_CTRL_enable 1) 1 |>.set Reg.AMC_DWELL_CFG_dwell_max 60000 |>.set Reg.TXC_COEX_STAT_grant 0 |>.set
      (Reg.TXC_STATUS_state 1) 2 |>.set Reg.AMC_ACK_GAP_gap_2g4 1000 |>.set Reg.AMC_ACK_GAP_gap_sun 1000 |>.set
      (Reg.ESC_SVC_RATE_rate (16 + 2)) 0 |>.set (Reg.ESC_PORT_RATE_rate 1) 0 |>.set (Reg.ESC_SVC_AGE_age_max (16 + 2))
      0 |>.set (Reg.ESC_SVC_CTRL_path (16 + 2)) 0 |>.set Reg.ESC_SCHED_CFG2_search_max 1 |>.set
      (Reg.AMC_PLAN_CFG_rsv_override 6) 1 |>.set (Reg.ESC_SLOT_C_lgroup k) 255 |> (fun s : State =>
      (List.range 16).foldl (fun s k => s.set (Reg.ESC_FUS_LO_valid k) 0) s)));
      let cyc : Nat := (occCycle (s.now t) k (max 1311 (s.get Reg.ESC_SCHED_CFG_dec_lead)));
      let g : Nat := (slotStart s k cyc); let sel : Option EscFrame × State := (selectFrame
      (slotTest k (s.get (Reg.ESC_SLOT_B_chain k)) g) (s.get (Reg.ESC_SLOT_B_chain k))
      (s.get (Reg.ESC_SLOT_C_svc_mask k)) false ((s.begin t).onEsc
      (fun e => { e with decided := tabPut e.decided k cyc })) (atLeast1 (s.get Reg.ESC_SCHED_CFG2_search_max))
      [0, 1, 2, 3]); s.settled ∧ s.get Reg.ESC_CTRL_enable ≠ 0 ∧ balOff s = false ∧ occInert s k = false ∧
      planDead s (s.get (Reg.ESC_SLOT_B_plan k)) = false ∧ s.get Reg.ESC_CTRL_hold_stop = 0 ∧
      s.get Reg.ESC_CTRL_cyc_gate = 0 ∧ tabGet s.esc.decided k ≠ some cyc ∧ g = slotStart s k cyc ∧
      s.get (Reg.ESC_SLOT_B_dir k) = 0 ∧ cyc = occCycle (s.now t) k (max 1311 (s.get Reg.ESC_SCHED_CFG_dec_lead)) ∧
      reached (s.now t) (g + angleMod - max 1311 (s.get Reg.ESC_SCHED_CFG_dec_lead)) = true ∧
      reached (s.now t) g = false ∧ e ∈ s.esc.sub ∧ h ∈ e.2 ∧ bits (s.get (Reg.ESC_SLOT_C_svc_mask k)) h.svc 1 = 1 ∧
      sel = selectFrame (slotTest k (s.get (Reg.ESC_SLOT_B_chain k)) g) (s.get (Reg.ESC_SLOT_B_chain k))
      (s.get (Reg.ESC_SLOT_C_svc_mask k)) false ((s.begin t).onEsc
      (fun e => { e with decided := tabPut e.decided k cyc })) (atLeast1 (s.get Reg.ESC_SCHED_CFG2_search_max))
      [0, 1, 2, 3]) := by
  refine ⟨?_, ?_, ?_, ?_⟩ <;> decide +kernel

theorem test_ReceiveOccurrenceCompletes_met :
    (let t : Nat := 19800000; let k : Fin 512 := 511;
      let s : State := ((({ (blank).onBal (fun x => { x with cycles := [⟨514, 0, 20000000⟩] }) with
        inForce := [] }).set Reg.BAL_STATUS_state 2 |>.set Reg.BAL_SITE_PHASE_site_phase 0 |>.set Reg.ESC_CTRL_enable
      1 |>.set Reg.ESC_CTRL_hold_stop 0 |>.set Reg.ESC_CTRL_cyc_gate 0 |>.set Reg.ESC_STATUS_bank_act 1 |>.set
      Reg.ESC_STATUS_bank_pending 0 |>.set Reg.ESC_FRAME_LEN1_frame_len 4 |>.set (Reg.ESC_SLOT_B_valid k) 1 |>.set
      (Reg.ESC_SLOT_A_cyc k) 3 |>.set (Reg.ESC_SLOT_A_angle k) 9 |>.set (Reg.ESC_SLOT_B_plan k) 6 |>.set
      (Reg.AMC_PLAN_FREQ_valid 6) 1 |>.set (Reg.AMC_PLAN_FREQ_freq_khz 6) 868300 |>.set (Reg.AMC_PLAN_FREQ_band 6) 0
      |>.set (Reg.ESC_SLOT_B_chain k) 1 |>.set (Reg.ESC_SLOT_B_len k) 60000 |>.set (Reg.ESC_SLOT_B_dir k) 1 |>.set
      Reg.ESC_SCHED_CFG2_rx_guard 1024 |> (fun s : State =>
      (List.range 32).foldl (fun s k => s.set (Reg.CHZ_RCH_FREQ_valid k) 0) s)));
      let cyc : Nat := (occCycle (s.now t) k (s.get Reg.ESC_SCHED_CFG2_rx_guard)); let g : Nat := (slotStart s k cyc);
      s.settled ∧ s.get Reg.ESC_CTRL_enable ≠ 0 ∧ balOff s = false ∧ occInert s k = false ∧
      s.get (Reg.ESC_SLOT_B_dir k) ≠ 0 ∧ cyc = occCycle (s.now t) k (s.get Reg.ESC_SCHED_CFG2_rx_guard) ∧
      tabGet s.esc.decided k ≠ some cyc ∧ g = slotStart s k cyc ∧
      reached (s.now t) (g + angleMod - s.get Reg.ESC_SCHED_CFG2_rx_guard) = true ∧
      reached (s.now t) (g + s.get (Reg.ESC_SLOT_B_len k) + s.get Reg.ESC_SCHED_CFG2_rx_guard) = false ∧
      (∀ e ∈ s.esc.open_, e.2.tested = true) ∧ reached (s.now t) g = false) ∧
    (let t : Nat := 100000; let k : Fin 512 := 511;
      let s : State := ((({ (blank).onBal (fun x => { x with cycles := [⟨515, 0, 20000000⟩] }) with
        inForce := [] }).set Reg.BAL_STATUS_state 2 |>.set Reg.BAL_SITE_PHASE_site_phase 0 |>.set Reg.ESC_CTRL_enable
      1 |>.set Reg.ESC_CTRL_hold_stop 0 |>.set Reg.ESC_CTRL_cyc_gate 0 |>.set Reg.ESC_STATUS_bank_act 1 |>.set
      Reg.ESC_STATUS_bank_pending 0 |>.set Reg.ESC_FRAME_LEN1_frame_len 4 |>.set (Reg.ESC_SLOT_B_valid k) 1 |>.set
      (Reg.ESC_SLOT_A_cyc k) 3 |>.set (Reg.ESC_SLOT_A_angle k) 9 |>.set (Reg.ESC_SLOT_B_plan k) 6 |>.set
      (Reg.AMC_PLAN_FREQ_valid 6) 1 |>.set (Reg.AMC_PLAN_FREQ_freq_khz 6) 868300 |>.set (Reg.AMC_PLAN_FREQ_band 6) 0
      |>.set (Reg.ESC_SLOT_B_chain k) 1 |>.set (Reg.ESC_SLOT_B_len k) 60000 |>.set (Reg.ESC_SLOT_B_dir k) 1 |>.set
      Reg.ESC_SCHED_CFG2_rx_guard 1024 |> (fun s : State =>
      (List.range 32).foldl (fun s k => s.set (Reg.CHZ_RCH_FREQ_valid k) 0) s)));
      let cyc : Nat := (occCycle (s.now t) k (s.get Reg.ESC_SCHED_CFG2_rx_guard)); let g : Nat := (slotStart s k cyc);
      s.settled ∧ s.get Reg.ESC_CTRL_enable ≠ 0 ∧ balOff s = false ∧ occInert s k = false ∧
      s.get (Reg.ESC_SLOT_B_dir k) ≠ 0 ∧ cyc = occCycle (s.now t) k (s.get Reg.ESC_SCHED_CFG2_rx_guard) ∧
      tabGet s.esc.decided k ≠ some cyc ∧ g = slotStart s k cyc ∧
      reached (s.now t) (g + angleMod - s.get Reg.ESC_SCHED_CFG2_rx_guard) = true ∧
      reached (s.now t) (g + s.get (Reg.ESC_SLOT_B_len k) + s.get Reg.ESC_SCHED_CFG2_rx_guard) = false ∧
      (∀ e ∈ s.esc.open_, e.2.tested = true) ∧ reached (s.now t) g = true ∧
      planDead s (s.get (Reg.ESC_SLOT_B_plan k)) = false) ∧
    (let t : Nat := 100000; let k : Fin 512 := 511;
      let o : RxOpen := { start := 33554441, guard := 64, tested := true };
      let s : State := ((({ (((blank).onEsc (fun x => { x with
          open_ := [(3, { start := 5, guard := 6, tested := true }), (511, o)] }))).onBal (fun x => { x with cycles := [⟨516, 0, 20000000⟩] }) with
        inForce := [] }).set Reg.BAL_STATUS_state 2 |>.set Reg.BAL_SITE_PHASE_site_phase 0 |>.set Reg.ESC_CTRL_enable
      1 |>.set Reg.ESC_CTRL_hold_stop 0 |>.set Reg.ESC_CTRL_cyc_gate 0 |>.set Reg.ESC_STATUS_bank_act 1 |>.set
      Reg.ESC_STATUS_bank_pending 0 |>.set Reg.ESC_FRAME_LEN1_frame_len 4 |>.set (Reg.ESC_SLOT_B_valid k) 1 |>.set
      (Reg.ESC_SLOT_A_cyc k) 3 |>.set (Reg.ESC_SLOT_A_angle k) 9 |>.set (Reg.ESC_SLOT_B_plan k) 6 |>.set
      (Reg.AMC_PLAN_FREQ_valid 6) 1 |>.set (Reg.AMC_PLAN_FREQ_freq_khz 6) 868300 |>.set (Reg.AMC_PLAN_FREQ_band 6) 0
      |>.set (Reg.ESC_SLOT_B_chain k) 1 |>.set (Reg.ESC_SLOT_B_len k) 60000 |>.set (Reg.ESC_SLOT_B_dir k) 1 |>.set
      Reg.ESC_SCHED_CFG2_rx_guard 1024 |> (fun s : State =>
      (List.range 32).foldl (fun s k => s.set (Reg.CHZ_RCH_FREQ_valid k) 0) s))); s.settled ∧
      tabGet s.esc.open_ k = some o ∧ (∀ e ∈ s.esc.open_, e.2.tested = true) ∧
      reached (s.now t) (o.start + s.get (Reg.ESC_SLOT_B_len k) + o.guard) = true) := by
  refine ⟨?_, ?_, ?_⟩ <;> decide +kernel

theorem test_ReleasesComplete_met :
    (let t : Nat := 1000; let n : Fin 4 := 3; let m : Nat := 3; let k : Nat := 6; let a : AirOut := {
        parm := {
          profile := 3, family := 1, band := 1, fcs2 := true, occHz := 200000, maxPsdu := 127, n := 40, airUs := 900,
          shrUs := 50, ackUs := 60 }, psdu := [0x29, 0xDC, 7], ar := true, ver := 1, dsn := some 7, dst := (3, 99),
        hop := some 4 }; let f : EscFrame := {
        ref := 5, port := n.val, svc := 2, air := some a, plan := some 6, pool := 1, bufs := 1 };
      let upset : List Nat := [5]; let s : State := ((((blank).onEsc (fun x => { x with queue := [(50, [f])] })).set
      Reg.ESC_CTRL_enable 1 |>.set (Reg.ESC_SVC_RATE_rate (16 * 3 + 2)) 0 |>.set (Reg.ESC_PORT_RATE_rate 3) 0 |>.set
      (Reg.ESC_SVC_AGE_age_max (16 * 3 + 2)) 0 |> (fun s : State =>
      (List.range 16).foldl (fun s k => s.set (Reg.ESC_FUS_LO_valid k) 0) s))); s.settled ∧ n.val = m ∧
      s.get Reg.ESC_CTRL_enable ≠ 0 ∧ s.esc.sub = [] ∧ s.esc.queue = [(16 * (m) + f.svc, [f])] ∧ f.svc < 16 ∧
      s.get (Reg.ESC_SVC_CTRL_prio (16 * (m) + f.svc)) < 4 ∧ s.get (Reg.ESC_SVC_AGE_age_max (16 * (m) + f.svc)) = 0 ∧
      s.get (Reg.ESC_SVC_RATE_rate (16 * (m) + f.svc)) = 0 ∧ s.get (Reg.ESC_PORT_RATE_rate (m)) = 0 ∧ f.port = m ∧
      f.ctx = none ∧ f.air = some a ∧ f.test = false ∧ f.plan = some k ∧ s.esc.held = [] ∧
      tabGet s.amc.handed n = none ∧ runOf s n = none ∧ fusCovers s (chainBand n) (planFreq s k) a.parm.occHz = []) ∧
    (let t : Nat := 1000; let n : Fin 4 := 3; let m : Nat := 3; let a : AirOut := {
        parm := {
          profile := 3, family := 1, band := 1, fcs2 := true, occHz := 200000, maxPsdu := 127, n := 40, airUs := 900,
          shrUs := 50, ackUs := 60 }, psdu := [0x29, 0xDC, 7], ar := true, ver := 1, dsn := some 7, dst := (3, 99),
        hop := some 4 }; let f : EscFrame := {
        ref := 5, port := n.val, svc := 2, air := some a, plan := some 6, pool := 1, bufs := 1 };
      let upset : List Nat := [5]; let s : State := ((((blank).onEsc
      (fun x => { x with queue := [(50, [f, { f with ref := 9 }])] })).set Reg.ESC_CTRL_enable 1 |>.set
      (Reg.ESC_SVC_RATE_rate (16 * 3 + 2)) 0 |>.set (Reg.ESC_PORT_RATE_rate 3) 0 |>.set
      (Reg.ESC_SVC_AGE_age_max (16 * 3 + 2)) 0 |> (fun s : State =>
      (List.range 16).foldl (fun s k => s.set (Reg.ESC_FUS_LO_valid k) 0) s))); let k : Nat := (planFreq s 6);
      let v : State := (testRelease (s.begin t) m);
      let w : State := ((selectFrame (asyncTest m upset) m 0xFFFF true (testRelease (s.begin t) m) (2 ^ 20)
      [0, 1, 2, 3]).2); s.settled ∧ n.val = m ∧ s.get Reg.ESC_CTRL_enable ≠ 0 ∧ v = testRelease (s.begin t) m ∧
      tabGet s.amc.handed n = none ∧ runOf s n = none ∧
      selectFrame (asyncTest m upset) m 0xFFFF true v (2 ^ 20) [0, 1, 2, 3] = (some f, w) ∧ f.air = some a ∧
      asyncChannel w m f = some k) ∧
    (let t : Nat := 1000; let n : Fin 4 := 3; let p : Fin 4 := 1; let f : EscFrame := {
        ref := 5, port := 4 + p.val, svc := 2, octets := [1, 2, 3, 4, 5, 6, 7, 8, 9, 10, 11, 12, 13], pool := 2,
        bufs := 1 }; let i : Nat := 1; let posted : List (Nat × List (Nat × Nat)) := [];
      let s : State := ((((blank).onEsc (fun x => { x with queue := [(82, [f])] })).set Reg.ESC_CTRL_enable 1 |>.set
      (Reg.ESC_SVC_RATE_rate (16 * 5 + 2)) 0 |>.set (Reg.ESC_PORT_RATE_rate 5) 0 |>.set
      (Reg.ESC_SVC_AGE_age_max (16 * 5 + 2)) 0 |>.set (Reg.ETH_STATUS_state 1) 2 |>.set (Reg.ETH_STATUS_paused 1) 0
      |>.set (Reg.ETH_CTRL_standby 1) 0)); s.settled ∧ i < 2 ∧ p.val = i ∧ s.get Reg.ESC_CTRL_enable ≠ 0 ∧
      s.esc.sub = [] ∧ s.esc.queue = [(16 * (4 + i) + f.svc, [f])] ∧ f.svc < 16 ∧
      s.get (Reg.ESC_SVC_CTRL_prio (16 * (4 + i) + f.svc)) < 4 ∧
      s.get (Reg.ESC_SVC_AGE_age_max (16 * (4 + i) + f.svc)) = 0 ∧
      s.get (Reg.ESC_SVC_RATE_rate (16 * (4 + i) + f.svc)) = 0 ∧ s.get (Reg.ESC_PORT_RATE_rate (4 + i)) = 0 ∧
      f.port = 4 + i ∧ f.ctx = none ∧ ethState s i = 2 ∧ s.get (Reg.ETH_STATUS_paused i) = 0 ∧
      s.get (Reg.ETH_CTRL_standby i) = 0 ∧ (ethOf s i).txq = [] ∧ f.octets.length + 4 ≤ 32768) ∧
    (let t : Nat := 1000; let n : Fin 4 := 3; let p : Fin 4 := 3; let f : EscFrame := {
        ref := 5, port := 4 + p.val, svc := 2, octets := [1, 2, 3, 4, 5, 6, 7, 8, 9, 10, 11, 12, 13], pool := 5,
        bufs := 1 , last := false }; let posted : List (Nat × List (Nat × Nat)) := [];
      let s : State := ((((blank).onEsc (fun x => { x with queue := [(114, [f])] })).set Reg.ESC_CTRL_enable 1 |>.set
      (Reg.ESC_SVC_RATE_rate (16 * 7 + 2)) 0 |>.set (Reg.ESC_PORT_RATE_rate 7) 0 |>.set
      (Reg.ESC_SVC_AGE_age_max (16 * 7 + 2)) 0 |>.set Reg.TWN_STATUS_link_up 1 |>.onTwn
      (fun x => { x with credits := 1 }))); s.settled ∧ p.val = 3 ∧ s.get Reg.ESC_CTRL_enable ≠ 0 ∧ s.esc.sub = [] ∧
      s.esc.queue = [(16 * (7) + f.svc, [f])] ∧ f.svc < 16 ∧ s.get (Reg.ESC_SVC_CTRL_prio (16 * (7) + f.svc)) < 4 ∧
      s.get (Reg.ESC_SVC_AGE_age_max (16 * (7) + f.svc)) = 0 ∧ s.get (Reg.ESC_SVC_RATE_rate (16 * (7) + f.svc)) = 0 ∧
      s.get (Reg.ESC_PORT_RATE_rate (7)) = 0 ∧ f.port = 7 ∧ f.ctx = none ∧ s.get Reg.TWN_STATUS_link_up ≠ 0 ∧
      creditsFor f ≤ s.twn.credits ∧ f.mark = none ∧ f.last = false ∧ f.pool < 6) ∧
    (let t : Nat := 1000; let n : Fin 4 := 3; let p : Fin 4 := 2; let f : EscFrame := {
        ref := 5, port := 4 + p.val, svc := 2, octets := [1, 2, 3, 4, 5, 6, 7, 8, 9, 10, 11, 12, 13], pool := 2,
        bufs := 1 , last := false }; let r : Nat := 127; let addr : Nat := 8192; let len : Nat := 64;
      let posted : List (Nat × List (Nat × Nat)) := [(r, [(addr, len)])];
      let s : State := (((((blank).onEsc (fun x => { x with queue := [(98, [f])] })).set Reg.ESC_CTRL_enable 1 |>.set
      (Reg.ESC_SVC_RATE_rate (16 * 6 + 2)) 0 |>.set (Reg.ESC_PORT_RATE_rate 6) 0 |>.set
      (Reg.ESC_SVC_AGE_age_max (16 * 6 + 2)) 0 |>.set (Reg.HIF_SVC_MAP_valid 2) 1 |>.set (Reg.HIF_SVC_MAP_ring_log2 2)
      0 |>.set (Reg.HIF_SVC_MAP_ring_base 2) 127 |>.set (Reg.HIF_RING_CTRL_enable 127) 1).setRing 127
      { cIdx := 65535, pIdx := 0 })); s.settled ∧ p.val = 2 ∧ s.get Reg.ESC_CTRL_enable ≠ 0 ∧ s.esc.sub = [] ∧
      s.esc.queue = [(16 * (6) + f.svc, [f])] ∧ f.svc < 16 ∧ s.get (Reg.ESC_SVC_CTRL_prio (16 * (6) + f.svc)) < 4 ∧
      s.get (Reg.ESC_SVC_AGE_age_max (16 * (6) + f.svc)) = 0 ∧ s.get (Reg.ESC_SVC_RATE_rate (16 * (6) + f.svc)) = 0 ∧
      s.get (Reg.ESC_PORT_RATE_rate (6)) = 0 ∧ f.port = 6 ∧ f.ctx = none ∧ svcRing s f.svc (hostHash f) = some r ∧
      ringLive s r = true ∧ posted = [(r, [(addr, len)])] ∧ badPosted (addr, len) = false ∧ 0 < f.octets.length ∧
      f.octets.length ≤ len ∧ (s.ringOf r).pIdx < 65536 ∧ (s.ringOf r).cIdx < 65536 ∧
      (s.ringOf r).pIdx ≠ (s.ringOf r).cIdx ∧ f.mark = none ∧ f.last = false ∧ f.pool < 6) ∧
    (let t : Nat := 1000; let n : Fin 4 := 3; let p : Fin 4 := 1; let f : EscFrame := {
        ref := 5, port := 4 + p.val, svc := 2, octets := [1, 2, 3, 4, 5, 6, 7, 8, 9, 10, 11, 12, 13], pool := 2,
        bufs := 1 }; let i : Nat := 1; let posted : List (Nat × List (Nat × Nat)) := [];
      let s : State := ((((blank).onEsc (fun x => { x with queue := [(82, [f, { f with ref := 9 }])] })).set
      Reg.ESC_CTRL_enable 1 |>.set (Reg.ESC_SVC_RATE_rate (16 * 5 + 2)) 0 |>.set (Reg.ESC_PORT_RATE_rate 5) 0 |>.set
      (Reg.ESC_SVC_AGE_age_max (16 * 5 + 2)) 0 |>.set (Reg.ETH_STATUS_state 1) 2 |>.set (Reg.ETH_STATUS_paused 1) 0
      |>.set (Reg.ETH_CTRL_standby 1) 0)); let v : State :=
      ((wiredSelect (s.begin t) (4 + i) (fun s f => ethTakes s i f)).2); s.settled ∧ i < 2 ∧ p.val = i ∧
      wiredSelect (s.begin t) (4 + i) (fun s f => ethTakes s i f) = (some f, v)) ∧
    (let t : Nat := 1000; let n : Fin 4 := 3; let p : Fin 4 := 3; let f : EscFrame := {
        ref := 5, port := 4 + p.val, svc := 2, octets := [1, 2, 3, 4, 5, 6, 7, 8, 9, 10, 11, 12, 13], pool := 5,
        bufs := 1 , last := true }; let posted : List (Nat × List (Nat × Nat)) := [];
      let s : State := ((((blank).onEsc (fun x =>
      { x with queue := [(114, [f, { f with ref := 9 }])] })).set Reg.ESC_CTRL_enable 1 |>.set
      (Reg.ESC_SVC_RATE_rate (16 * 7 + 2)) 0 |>.set (Reg.ESC_PORT_RATE_rate 7) 0 |>.set
      (Reg.ESC_SVC_AGE_age_max (16 * 7 + 2)) 0 |>.set Reg.TWN_STATUS_link_up 1 |>.onTwn
      (fun x => { x with credits := 1 }))); let v : State := ((wiredSelect (s.begin t) 7 twinTakes).2); s.settled ∧
      p.val = 3 ∧ wiredSelect (s.begin t) 7 twinTakes = (some f, v)) ∧
    (let t : Nat := 1000; let n : Fin 4 := 3; let p : Fin 4 := 2; let f : EscFrame := {
        ref := 5, port := 4 + p.val, svc := 2, octets := [1, 2, 3, 4, 5, 6, 7, 8, 9, 10, 11, 12, 13], pool := 2,
        bufs := 1 }; let r : Nat := 127; let posted : List (Nat × List (Nat × Nat)) := [(r, [(8192, 64)])];
      let s : State := (((((blank).onEsc (fun x => { x with queue := [(98, [f, { f with ref := 9 }])] })).set
      Reg.ESC_CTRL_enable 1 |>.set (Reg.ESC_SVC_RATE_rate (16 * 6 + 2)) 0 |>.set (Reg.ESC_PORT_RATE_rate 6) 0 |>.set
      (Reg.ESC_SVC_AGE_age_max (16 * 6 + 2)) 0 |>.set (Reg.HIF_SVC_MAP_valid 2) 1 |>.set (Reg.HIF_SVC_MAP_ring_log2 2)
      0 |>.set (Reg.HIF_SVC_MAP_ring_base 2) 127 |>.set (Reg.HIF_RING_CTRL_enable 127) 1).setRing 127
      { cIdx := 65535, pIdx := 0 })); let v : State := ((wiredSelect (haltBadPosted (s.begin t) posted) 6
      (hostTakes posted)).2); let w : State := ((hostDeliver (wiredSelect (haltBadPosted (s.begin t) posted) 6
      (hostTakes posted)).2 f (tabGetD posted r [])).2); s.settled ∧ p.val = 2 ∧
      wiredSelect (haltBadPosted (s.begin t) posted) 6 (hostTakes posted) = (some f, v) ∧
      svcRing v f.svc (hostHash f) = some r ∧ w = (hostDeliver v f (tabGetD posted r [])).2) := by
  refine ⟨?_, ?_, ?_, ?_, ?_, ?_, ?_, ?_⟩ <;> decide +kernel

theorem test_SubscribersComplete_met :
    (let t : Nat := 1000; let k : Fin 131072 := 131071; let n : Nat := 131071;
      let s : State := (blank.csset 131071 Cx.tok (-5) |>.cset 131071 Cx.qlen 9 |>.cset 131071 Cx.suspend 1);
      s.settled ∧ k.val = n ∧ -(2 ^ 31) ≤ s.csget n Cx.tok ∧ s.csget n Cx.tok < 2 ^ 31) ∧
    (let t : Nat := 1000; let k : Fin 131072 := 131071; let n : Nat := 131071; let j : Nat := 63; let v : Nat := 1;
      let s : State := (blank.set Reg.ESC_SUB_DATA_sub_prof 63 |>.set Reg.ESC_SUB_DATA_suspend 1); s.settled ∧
      k.val = n ∧ Memory.wf s.store = true ∧ j = s.get Reg.ESC_SUB_DATA_sub_prof ∧ j < 64 ∧
      v = s.get Reg.ESC_SUB_DATA_suspend ∧ v < 2 ∧ profGen s j < 255 ∧ s.get (Reg.ESC_SUBP_RATE_rate j) < 2 ^ 32 ∧
      s.get (Reg.ESC_SUBP_BURST_burst j) < 2 ^ 24 ∧ (s.cget n Cx.prof_gen ≠ profGen s j + 1 ∨
      s.cget n Cx.prof_cur ≠ j)) ∧
    (let t : Nat := 1000; let k : Fin 131072 := 131071; let n : Nat := 131071;
      let q : List EscFrame := [{ ref := 1, port := 0, svc := 1, bufs := 1 },
      { ref := 2, port := 0, svc := 3, bufs := 2 }];
      let s : State := (((blank.cset 131071 Cx.qlen 2).onEsc (fun x => { x with sub := [(131071, q)] }))); s.settled ∧
      k.val = n ∧ Memory.wf s.store = true ∧ tabGet s.esc.sub n = some q ∧ (∀ f ∈ q, f.mark = none ∧ f.host = none)) ∧
    (let t : Nat := 1000; let k : Fin 131072 := 131071; let n : Nat := 131071;
      let s : State := (((blank.cset 131071 Cx.qlen 2).onEsc (fun x => { x with
        sub := [(131071, [{
          ref := 1, port := 0, svc := 1, bufs := 1, host := some (9, 4), mark := some 3 }]),
          (131070, [{ ref := 2, port := 0, svc := 3, bufs := 2 }])] }))); s.settled ∧ k.val = n ∧
      Memory.wf s.store = true) ∧
    (let t : Nat := 100000000000000; let r : Fin 16 := 15; let i : Nat := 15;
      let f : Fusee := { bins := [7, 8], holds := [(3, 9)], binAt := 4 };
      let s : State := (((blank).onEsc (fun x => { x with fus := [(15, f)] })).set (Reg.ESC_FUS_LO_valid 15) 1);
      let step : Nat := (s.get (Reg.ESC_FUS_WIN_window_s i) * 1000000000 / 60); s.settled ∧ r.val = i ∧
      f = fusOf s i ∧ s.get (Reg.ESC_FUS_LO_valid i) ≠ 0 ∧
      step = s.get (Reg.ESC_FUS_WIN_window_s i) * 1000000000 / 60 ∧ f.binAt + step ≤ max s.ltb t ∧
      s.get Reg.ESC_FUSEE_STAT_closed < 2 ^ 16 ∧ s.get Reg.ESC_FUSEE_STAT_breach < 2 ^ 16) := by
  refine ⟨?_, ?_, ?_, ?_, ?_⟩ <;> decide +kernel

theorem test_NodeTableLooksUp_met :
    (let t : Nat := 1000; let upset : List Nat := [2 ^ 20]; let kind : Fin 2 := 0; let k : Nat := 0;
      let s : State := ((fun (s : State) => (ntWrite (s) ((ntReads s 78 0).headD 0)
      (entryBits 78 4 ntSite 255 255 3 0))) (blank.set Reg.FWD_NT_KEY_LO_key 78 |>.set Reg.FWD_NT_KEY_HI_key 0));
      let key : Nat := (keyFor (ntKey s) k); let i : Nat := ((ntFind s key k).getD 0); s.settled ∧ kind.val = k ∧
      key = keyFor (ntKey s) k ∧ (∀ x ∈ ntReads s key k, ¬ x ∈ upset) ∧ ntFind s key k = some i ∧ i < 2 ^ 18) ∧
    (let t : Nat := 1000; let upset : List Nat := [2 ^ 20]; let kind : Fin 2 := 1; let k : Nat := 1;
      let s : State := (blank.set Reg.FWD_NT_KEY_LO_key 78 |>.set Reg.FWD_NT_KEY_HI_key 0);
      let key : Nat := (keyFor (ntKey s) k); s.settled ∧ kind.val = k ∧ key = keyFor (ntKey s) k ∧
      (∀ x ∈ ntReads s key k, ¬ x ∈ upset) ∧ ntFind s key k = none) ∧
    (let t : Nat := 1000; let upset : List Nat := [2 ^ 20]; let i : Nat := 262143;
      let s : State := ((ntWrite (blank) 262143 (entryBits 78 4 ntSite 255 255 3 0)).set Reg.FWD_NT_IDX_idx 262143);
      s.settled ∧ i = s.get Reg.FWD_NT_IDX_idx ∧ i < 2 ^ 18 ∧ (¬ i ∈ upset ∨ ntIsBad s i = true)) ∧
    (let t : Nat := 1000; let upset : List Nat := [262143]; let i : Nat := 262143;
      let s : State := ((ntWrite (blank) 262143 (entryBits 78 4 ntSite 255 255 3 0)).set Reg.FWD_NT_IDX_idx 262143);
      s.settled ∧ i = s.get Reg.FWD_NT_IDX_idx ∧ i < 2 ^ 18 ∧ i ∈ upset ∧ ntIsBad s i = false) ∧
    (let t : Nat := 1000; let upset : List Nat := [2 ^ 20]; let kind : Fin 2 := 0; let k : Nat := 0;
      let i : Nat := 262141; let p : Nat := ntSite;
      let s : State :=
      (({ (ntWrite (blank) 262141 (entryBits 78 4 ntSite 255 255 3 0)).set Reg.FWD_NT_IDX_idx 262141 |>.set Reg.FWD_NT_ARG_LO_arg (2 ^ 32 - 1) |>.set Reg.FWD_NT_ARG_HI_arg (2 ^ 32 - 1) with
        fwd := { ntBad := [262141] } })); s.settled ∧ Memory.wf s.store = true ∧ kind.val = k ∧
      i = s.get Reg.FWD_NT_IDX_idx ∧ isEntry i = true ∧ (∀ x ∈ ntReads s (ntArg s) 0, ¬ x ∈ upset) ∧
      (if k = 1 then ntFind s (ntArg s) 0 else argParent s) = some p) := by
  refine ⟨?_, ?_, ?_, ?_, ?_⟩ <;> decide +kernel

theorem test_NodeTableChanges_met :
    (let t : Nat := 1000; let upset : List Nat := [2 ^ 20];
      let s : State := (blank.set Reg.FWD_NT_KEY_LO_key 78 |>.set Reg.FWD_NT_KEY_HI_key 0 |>.set
      Reg.FWD_NT_ARG_CTX_ctx 131071); let key : Nat := (ntKey s);
      let i : Nat := (((freeWay s (ntBuckets s key 0).1).getD 0)); s.settled ∧ Memory.wf s.store = true ∧
      key = ntKey s ∧ (∀ x ∈ ntReads s key 0, ¬ x ∈ upset) ∧ ntFind s key 0 = none ∧
      (freeWay s (ntBuckets s key 0).1).or (freeWay s (ntBuckets s key 0).2) = some i) ∧
    (let t : Nat := 1000; let upset : List Nat := [2 ^ 20]; let s : State := ((fun (s : State) =>
      (ntWrite (s) ((ntReads s 79 0).headD 0) (entryBits 79 4 ntSite 255 255 254 0))) (blank.set Reg.FWD_NT_KEY_LO_key
      78 |>.set Reg.FWD_NT_KEY_HI_key 0 |>.set Reg.FWD_NT_ARG_LO_arg 79 |>.set Reg.FWD_NT_ARG_HI_arg 0));
      let key : Nat := (ntKey s % 2 ^ 16); let i : Nat := (((freeWay s (ntBuckets s key 1).1).getD 0));
      let p : Nat := ((ntFind s (ntArg s) 0).getD 0); s.settled ∧ Memory.wf s.store = true ∧ key = ntKey s % 2 ^ 16 ∧
      (∀ x ∈ ntReads s key 1 ++ ntReads s (ntArg s) 0, ¬ x ∈ upset) ∧ ntFind s key 1 = none ∧
      ntFind s (ntArg s) 0 = some p ∧ nget s p Nt.refs < 255 ∧ p < 2 ^ 18 ∧
      (freeWay s (ntBuckets s key 1).1).or (freeWay s (ntBuckets s key 1).2) = some i) ∧
    (let t : Nat := 1000; let upset : List Nat := [2 ^ 20]; let kind : Fin 2 := 0; let k : Nat := 0;
      let s : State := ((fun (s : State) => (ntWrite (s) ((ntReads s 78 0).headD 0)
      (entryBits 78 4 ntSite 255 255 0 0))) (blank.set Reg.FWD_NT_KEY_LO_key 78 |>.set Reg.FWD_NT_KEY_HI_key 0));
      let key : Nat := (keyFor (ntKey s) k); let i : Nat := ((ntFind s key k).getD 0); s.settled ∧
      Memory.wf s.store = true ∧ kind.val = k ∧ key = keyFor (ntKey s) k ∧ (∀ x ∈ ntReads s key k, ¬ x ∈ upset) ∧
      ntFind s key k = some i ∧ nget s i Nt.refs = 0 ∧ isEntry (nget s i Nt.parent) = false) ∧
    (let t : Nat := 1000; let upset : List Nat := [2 ^ 20]; let s : State := ((fun (s : State) =>
      (ntWrite ((ntWrite (s) ((ntReads s 79 0).headD 0) (entryBits 79 5 ntSite 255 255 254 0)))
      ((ntReads s 78 0).headD 0) (entryBits 78 4 ntNone 255 255 0 0))) (blank.set Reg.FWD_NT_KEY_LO_key 78 |>.set
      Reg.FWD_NT_KEY_HI_key 0 |>.set Reg.FWD_NT_ARG_LO_arg 79 |>.set Reg.FWD_NT_ARG_HI_arg 0));
      let i : Nat := ((ntFind s (ntKey s) 0).getD 0); let p : Nat := ((argParent s).getD 0); s.settled ∧
      Memory.wf s.store = true ∧ (∀ x ∈ ntReads s (ntKey s) 0 ++ ntReads s (ntArg s) 0, ¬ x ∈ upset) ∧
      (∀ x ∈ walkEntries 24 s p, ¬ x ∈ upset) ∧ ntFind s (ntKey s) 0 = some i ∧ argParent s = some p ∧ p < 2 ^ 18 ∧
      isEntry (nget s i Nt.parent) = false ∧ isEntry p = true ∧ nget s p Nt.refs < 255 ∧ parentWalk 24 s p i = 0) ∧
    (let t : Nat := 1000; let upset : List Nat := [2 ^ 20]; let s : State := ((fun (s : State) =>
      (ntWrite (s) ((ntReads s 78 0).headD 0) (entryBits 78 4 ntNone 255 255 0 0))) (blank.set Reg.FWD_NT_KEY_LO_key
      78 |>.set Reg.FWD_NT_KEY_HI_key 0 |>.set Reg.FWD_NT_ARG_LO_arg (2 ^ 32 - 1) |>.set Reg.FWD_NT_ARG_HI_arg
      (2 ^ 32 - 1))); let i : Nat := ((ntFind s (ntKey s) 0).getD 0); s.settled ∧ Memory.wf s.store = true ∧
      (∀ x ∈ ntReads s (ntKey s) 0 ++ ntReads s (ntArg s) 0, ¬ x ∈ upset) ∧ ntFind s (ntKey s) 0 = some i ∧
      ntArg s = 2 ^ 64 - 1 ∧ isEntry (nget s i Nt.parent) = false) := by
  refine ⟨?_, ?_, ?_, ?_, ?_⟩ <;> decide +kernel

theorem test_PrefixTableCompletes_met :
    (let t : Nat := 1000; let upset : List Nat := [2 ^ 20]; let e : PtEntry := {
        value := 2 ^ 127 + 5 * 2 ^ 128 + 33 * 2 ^ 131, mask := prefixMask 1 + 7 * 2 ^ 128, plen := 1, ord := 2,
        action := 2, port := 7, svc := 15, sci := 9 };
      let s : State := (blank.set Reg.FWD_CTRL_enable 0 |>.set Reg.CTX_CTRL_enable 1); s.settled ∧
      s.get Reg.FWD_CTRL_enable = 0 ∧ s.get Reg.CTX_CTRL_enable ≠ 0 ∧ claimFree s 0x19 34 = true) ∧
    (let t : Nat := 1000; let upset : List Nat := [2 ^ 20]; let e : PtEntry := {
        value := 2 ^ 127 + 5 * 2 ^ 128 + 33 * 2 ^ 131, mask := prefixMask 1 + 7 * 2 ^ 128, plen := 1, ord := 2,
        action := 2, port := 7, svc := 15, sci := 9 }; let s : State := ({ blank.set Reg.FWD_CTRL_enable 1 with
        claims := [(34, ⟨false, 0x19⟩)] }); s.settled ∧ s.get Reg.FWD_CTRL_enable ≠ 0) ∧
    (let t : Nat := 1000; let upset : List Nat := [2 ^ 20]; let e : PtEntry := {
        value := 2 ^ 127 + 5 * 2 ^ 128 + 33 * 2 ^ 131, mask := prefixMask 1 + 7 * 2 ^ 128, plen := 1, ord := 2,
        action := 2, port := 7, svc := 15, sci := 9 }; let plen : BitVec 8 := 128; let n : Nat := 128;
      let pos : Nat := 1; let s : State := ({ blank with
        fwd := { pt := [(0, { e with plen := 128 })], ptOrd := 7 } }); s.settled ∧ plen.toNat = n ∧ n ≤ 128 ∧
      s.fwd.pt.length < 4096 ∧ pos < 4096 ∧ (∀ x ∈ s.fwd.pt, x.2.plen < n → ¬ x.1 ∈ upset) ∧
      (∀ x ∈ s.fwd.pt, n ≤ x.2.plen → x.1 < pos) ∧ (pos = 0 ∨
      ((tabGet s.fwd.pt (pos - 1)).map (fun e => decide (n ≤ e.plen))) = some true) ∧ tabGet s.fwd.pt pos = none ∧
      rising s.fwd.pt = true) ∧
    (let t : Nat := 1000; let upset : List Nat := [2 ^ 20]; let e : PtEntry := {
        value := 2 ^ 127 + 5 * 2 ^ 128 + 33 * 2 ^ 131, mask := prefixMask 1 + 7 * 2 ^ 128, plen := 1, ord := 2,
        action := 2, port := 7, svc := 15, sci := 9 }; let i : Fin 4096 := 7; let j : Nat := 9;
      let x : PtEntry := { e with sci := 3 }; let s : State := ({ blank with
        fwd := {
          pt := [(4, { e with plen := 90 }), (7, e), (9, { e with sci := 3 })] } }); s.settled ∧
      tabGet s.fwd.pt i = some e ∧ (∀ x ∈ s.fwd.pt, x.2.plen = e.plen → ¬ x.1 ∈ upset) ∧
      (s.fwd.pt.filter (fun x => x.2.plen = e.plen)).getLast? = some (j, x)) ∧
    (let t : Nat := 1000; let upset : List Nat := [2 ^ 20]; let e : PtEntry := {
        value := 2 ^ 127 + 5 * 2 ^ 128 + 33 * 2 ^ 131, mask := prefixMask 1 + 7 * 2 ^ 128, plen := 1, ord := 2,
        action := 2, port := 7, svc := 15, sci := 9 }; let i : Fin 4096 := 4095; let bad : Bool := false;
      let s : State := ({ blank with fwd := { pt := [(4095, e)] } }); s.settled ∧ tabGet s.fwd.pt i = some e ∧
      (e.bad = true ∨ bad = false)) ∧
    (let t : Nat := 1000; let upset : List Nat := [2 ^ 20]; let e : PtEntry := {
        value := 2 ^ 127 + 5 * 2 ^ 128 + 33 * 2 ^ 131, mask := prefixMask 1 + 7 * 2 ^ 128, plen := 1, ord := 2,
        action := 2, port := 7, svc := 15, sci := 9 }; let i : Fin 4096 := 4095;
      let s : State := ({ blank with fwd := { pt := [(4095, e)] } }); s.settled ∧ tabGet s.fwd.pt i = some e ∧
      e.bad = false) ∧
    (let t : Nat := 1000; let upset : List Nat := [2 ^ 20]; let e : PtEntry := {
        value := 2 ^ 127 + 5 * 2 ^ 128 + 33 * 2 ^ 131, mask := prefixMask 1 + 7 * 2 ^ 128, plen := 1, ord := 2,
        action := 2, port := 7, svc := 15, sci := 9 }; let i : Fin 4096 := 4095; let bad : Bool := true;
      let s : State := ({ blank with fwd := { pt := [(4094, e)] } }); s.settled ∧ tabGet s.fwd.pt i = none) := by
  refine ⟨?_, ?_, ?_, ?_, ?_, ?_, ?_⟩ <;> decide +kernel

theorem test_ContextStoreEnableCompletes_met :
    (let t : Nat := 1000; let s : State := (blank.set Reg.CTX_CTRL_enable 0 |>.set Reg.CTX_STATUS_selftest_pass 1 |>
      (fun s : State => (List.range 8).foldl (fun s p => s.set (Reg.CTX_POOL_CNT_count p) 2048) s)); s.settled ∧
      s.get Reg.CTX_CTRL_enable = 0 ∧ s.get Reg.CTX_STATUS_selftest_pass ≠ 0 ∧ poolTotal s ≤ 16384) ∧
    (let t : Nat := 7000099; let s : State := ({ blank with
        ctx := { sweep := some (3, 4), stall := some (5, 60), dirty := [5] } }); s.settled) ∧
    (let t : Nat := 12000000; let s : State := ({ blank.set Reg.CTX_STATUS_selftest_done 0 with
        store := [(5, 7)], ctx := {} }); s.settled ∧ s.get Reg.CTX_STATUS_selftest_done = 0 ∧
      s.ctx.selfEnd ≤ max s.ltb t) ∧
    (let t : Nat := 12000000; let bank : Fin 32 := 31;
      let s : State := ({ blank.set Reg.CTX_STATUS_selftest_done 0 with
        store := [(5, 7)], ctx := {} }); s.settled ∧ s.get Reg.CTX_STATUS_selftest_done = 0 ∧
      s.ctx.selfEnd ≤ max s.ltb t) ∧
    (let t : Nat := 60000000000000; let s : State := ({ blank.set Reg.CTX_CTRL_enable 1 with
        ctx := { sweep := some (131000, 7), dirty := [5] } }); let e : Nat := ((sweepEnd (s.now t)).getD 0);
      let d : Nat := (sweepDue s); s.settled ∧ s.get Reg.CTX_CTRL_enable ≠ 0 ∧ sweepEnd (s.now t) = some e ∧
      d = sweepDue s ∧ d ≤ max s.ltb t) ∧
    (let t : Nat := 2000000000; let k : Fin 131072 := 131070; let m : Nat := 131060; let n : Nat := 131070;
      let start : Nat := 7; let i : Nat := 6; let s : State :=
      ({ (fun (s : State) => ((s.setRing 247 { cIdx := 2, pIdx := 2 }).set (Reg.HIF_RING_CTRL_enable 247) 1).set (Reg.HIF_RING_CTRL_log2_size 247) 4) (blank.cset 131070 Cx.valid 1 |>.set Reg.CTX_CKPT_CFG_sweep_rings 64) with
        ctx := {
          sweep := some (m, start), dirty := [4, 131070], nextRing := 3 } }); s.settled ∧ k.val = n ∧
      s.ctx.sweep = some (m, start) ∧ m ≤ n ∧ (∀ j ∈ s.ctx.dirty, m ≤ j → j < n → sweepable s j = false) ∧
      start + n * 78125 / 10 ≤ max s.ltb t ∧ sweepable s n = true ∧ s.ctx.stall = none ∧ sweepRing s = some i ∧
      n + 1 < 131072) ∧
    (let t : Nat := 2000000000; let k : Fin 131072 := 131070; let m : Nat := 131060; let n : Nat := 131070;
      let start : Nat := 7; let a : Nat := 1100000000; let y : Nat := 1999999000; let i : Nat := 6;
      let s : State :=
      ({ (fun (s : State) => ((s.setRing 247 { cIdx := 2, pIdx := 2 }).set (Reg.HIF_RING_CTRL_enable 247) 1).set (Reg.HIF_RING_CTRL_log2_size 247) 4) (blank.cset 131070 Cx.valid 1 |>.set Reg.CTX_CKPT_CFG_sweep_rings 64) with
        ctx := {
          sweep := some (m, start), dirty := [4, 131070], nextRing := 3, stall := some (a, y) } }); s.settled ∧
      k.val = n ∧ s.ctx.sweep = some (m, start) ∧ m ≤ n ∧ (∀ j ∈ s.ctx.dirty, m ≤ j → j < n → sweepable s j = false) ∧
      start + n * 78125 / 10 ≤ max s.ltb t ∧ sweepable s n = true ∧ s.ctx.stall = some (a, y) ∧ sweepRing s = some i ∧
      n + 1 < 131072) ∧
    (let t : Nat := 2000000000; let k : Fin 131072 := 131070; let m : Nat := 131060; let n : Nat := 131070;
      let start : Nat := 7; let s : State :=
      ({ blank.cset 131070 Cx.valid 1 |>.set Reg.CTX_CKPT_CFG_sweep_rings 64 with
        ctx := { sweep := some (m, start), dirty := [131070], nextRing := 3 } }); s.settled ∧ k.val = n ∧
      s.ctx.sweep = some (m, start) ∧ m ≤ n ∧ (∀ j ∈ s.ctx.dirty, m ≤ j → j < n → sweepable s j = false) ∧
      start + n * 78125 / 10 ≤ max s.ltb t ∧ sweepable s n = true ∧ sweepRing s = none) ∧
    (let t : Nat := 2000000000; let k : Fin 131072 := 131070; let m : Nat := 9; let n : Nat := 131070;
      let start : Nat := 7; let s : State := ({ blank with
        ctx := { sweep := some (m, start), dirty := [4], nextRing := 3 } }); s.settled ∧ k.val = n ∧
      s.ctx.sweep = some (m, start) ∧ m ≤ n ∧ (∀ j ∈ s.ctx.dirty, m ≤ j → j < n → sweepable s j = false) ∧
      start + n * 78125 / 10 ≤ max s.ltb t ∧ sweepable s n = false ∧ s.ctx.stall = none ∧ n + 1 < 131072) ∧
    (let t : Nat := 2000000000; let k : Fin 131072 := 131071; let m : Nat := 131071; let n : Nat := 131071;
      let start : Nat := 7; let s : State := ({ blank.set Reg.CTX_CKPT_CFG_ckpt_interval 600 with
        inForce := [], ctx := { sweep := some (m, start), nextRing := 3 } }); s.settled ∧ k.val = 131071 ∧
      n = 131071 ∧ s.ctx.sweep = some (m, start) ∧ m ≤ n ∧
      (∀ j ∈ s.ctx.dirty, m ≤ j → j < n → sweepable s j = false) ∧ start + n * 78125 / 10 ≤ max s.ltb t ∧
      sweepable s n = false ∧ s.ctx.stall = none ∧ max s.ltb t < sweepDue s) ∧
    (let t : Nat := 1000; let n : Nat := 131071; let i : Nat := 6;
      let s : State :=
      ({ (fun (s : State) => ((s.setRing 247 { cIdx := 2, pIdx := 2 }).set (Reg.HIF_RING_CTRL_enable 247) 1).set (Reg.HIF_RING_CTRL_log2_size 247) 4) (blank.set Reg.CTX_CKPT_CFG_sweep_rings 64 |>.set Reg.CTX_STATUS_flush_busy 0) with
        ctx := { dirty := [131071], nextRing := 3 } }); s.settled ∧ s.get Reg.CTX_STATUS_flush_busy = 0 ∧
      s.ctx.dirty = [n] ∧ ctxBad s n = false ∧ sweepRing s = some i) ∧
    (let t : Nat := 1000; let n : Nat := 9; let s : State :=
      ({ (blank.set Reg.CTX_CKPT_CFG_sweep_rings 64 |>.set Reg.CTX_STATUS_flush_busy 0) with
        ctx := { dirty := [131071, 9, 3], bad := [3] } }); s.settled ∧ s.get Reg.CTX_STATUS_flush_busy = 0 ∧
      flushNext s 0 = some n ∧ sweepRing s = none) ∧
    (let t : Nat := 1000; let s : State :=
      ({ (blank.set Reg.CTX_CKPT_CFG_sweep_rings 64 |>.set Reg.CTX_STATUS_flush_busy 0) with
        ctx := { dirty := [131071, 9, 3], bad := [3] } }); s.settled ∧ s.get Reg.CTX_STATUS_flush_busy = 0) ∧
    (let t : Nat := 1000; let s : State := ({ blank.set Reg.CTX_STATUS_flush_busy 1 with
        ctx := { dirty := [9], bad := [9, 8], flushAt := some 7 } }); s.settled ∧
      s.get Reg.CTX_STATUS_flush_busy ≠ 0 ∧ flushNext s (s.ctx.flushAt.getD 131072) = none) := by
  refine ⟨?_, ?_, ?_, ?_, ?_, ?_, ?_, ?_, ?_, ?_, ?_, ?_, ?_, ?_⟩ <;> decide +kernel

theorem test_ContextAccessCompletes_met :
    (let t : Nat := 1000; let k : Fin 131072 := 131071; let n : Nat := 131071;
      let s : State := (blank.cset 131071 Cx.eui64 77 |>.cset 131071 Cx.rssi_avg 3); s.settled ∧ k.val = n) ∧
    (let t : Nat := 1000; let k : Fin 131072 := 131071; let line : Fin 3 := 2; let n : Nat := 131071;
      let s : State := (blank.cset 131071 Cx.eui64 77); s.settled ∧ k.val = n) ∧
    (let t : Nat := 1000; let k : Fin 131072 := 131071; let mask : BitVec 3 := 6; let n : Nat := 131071;
      let s : State := (blank.cset 131071 Cx.tx_fc 77 |>.set (Reg.CTX_WIN_word 20) 5 |>.set (Reg.CTX_WIN_word 16) 5
      |>.set (Reg.CTX_WIN_word 2) 5); s.settled ∧ k.val = n ∧ Memory.wf s.store = true ∧
      (∀ m, m < 48 → s.get (Reg.CTX_WIN_word m) < 2 ^ 32)) ∧
    (let t : Nat := 1000; let k : Fin 131072 := 131071; let n : Nat := 131071;
      let s : State := ({ (blank.cset 131071 Cx.tx_fc 77 |>.set Reg.CTX_RESV_OUT_outstanding 1) with
        ctx := { bad := [131071, 5], dirty := [131071] } }); s.settled ∧ k.val = n ∧ Memory.wf s.store = true ∧
      s.esc.sub = []) ∧
    (let t : Nat := 1000; let k : Fin 131072 := 131071; let n : Nat := 131071; let lim : Nat := 5;
      let s : State := ((fun (s : State) => ((s.setRing 240 { cIdx := 2, pIdx := 2 }).set
      (Reg.HIF_RING_CTRL_enable 240) 1).set (Reg.HIF_RING_CTRL_log2_size 240) 4)
      ({ blank.set (Reg.CTX_WIN_word 17) 5 |>.set (Reg.CTX_WIN_word 2) 0x3F000000 |>.set (Reg.CTX_WIN_word 36) 0xFFFE0007 |>.set Reg.CTX_ACC_UNC_unc 101 |>.set (Reg.CTX_WIN_word 37) 0x7D |>.set (Reg.CTX_WIN_word 19) 0xFFFFFFFF |>.set (Reg.CTX_WIN_word 32) 0xFFFFFFFF |>.set (Reg.CTX_WIN_word 33) 0xFFFFFFFF |>.set Reg.CTX_ACC_ADJ_HI_adj 3 |>.set (Reg.ESC_SUBP_BURST_burst 63) 0xFFFFFF |>.set (Reg.ESC_SUBP_RATE_rate 63) 99 with
        ctx := { bad := [131071], dirty := [3] } })); let j : Nat := (s.get (Reg.CTX_WIN_word 2) / 2 ^ 24 % 64);
      let v : Nat := (s.get (Reg.CTX_WIN_word 36) / 2 ^ 16 + (s.get Reg.CTX_ACC_UNC_unc + 99) / 100); s.settled ∧
      k.val = n ∧ Memory.wf s.store = true ∧ resvRoom s = true ∧ s.esc.sub = [] ∧ s.ctx.resv = [] ∧
      (∀ m, m < 48 → s.get (Reg.CTX_WIN_word m) < 2 ^ 32) ∧ lim = s.get (Reg.CTX_WIN_word 17) ∧ lim + 65536 < 2 ^ 32 ∧
      s.get Reg.CTX_RESV_SEQ_seq < 2 ^ 32 ∧ j = s.get (Reg.CTX_WIN_word 2) / 2 ^ 24 % 64 ∧ profGen s j < 255 ∧
      v = s.get (Reg.CTX_WIN_word 36) / 2 ^ 16 + (s.get Reg.CTX_ACC_UNC_unc + 99) / 100 ∧
      s.get (Reg.ESC_SUBP_RATE_rate j) < 2 ^ 32 ∧ s.get (Reg.ESC_SUBP_BURST_burst j) < 2 ^ 24) ∧
    (let t : Nat := 1000; let k : Fin 131072 := 131071; let n : Nat := 131071;
      let s : State := (({ (blank.cset 131071 Cx.tx_fc 77 |>.set Reg.CTX_RESV_OUT_outstanding 1) with
        ctx := {
          bad := [131071, 5], dirty := [131071], resv := [⟨131071, 4, 5⟩] } }).onEsc (fun x => { x with
        sub := [(131071, [{
          ref := 1, port := 0, svc := 1, bufs := 1, host := some (9, 4) }])] })); s.settled ∧ k.val = n ∧
      Memory.wf s.store = true) ∧
    (let t : Nat := 1000; let k : Fin 131072 := 131071; let n : Nat := 131071; let s : State := ((fun (s : State) =>
      ((s.setRing 240 { cIdx := 2, pIdx := 2 }).set (Reg.HIF_RING_CTRL_enable 240) 1).set
      (Reg.HIF_RING_CTRL_log2_size 240) 4) (({ blank.set (Reg.CTX_WIN_word 17) 5 |>.set (Reg.CTX_WIN_word 1) 99 with
        ctx := {
          bad := [131071], dirty := [3], resv := [⟨131071, 4, 5⟩, ⟨6, 4, 7⟩] } }).onEsc (fun x => { x with
        sub := [(131071, [{
          ref := 1, port := 0, svc := 1, bufs := 1, host := some (9, 4) }])] }))); s.settled ∧ k.val = n ∧
      Memory.wf s.store = true ∧ resvRoom (s.begin t) = true) ∧
    (let t : Nat := 1000; let seq : Word := 3; let s : State := ({ blank.cset 131071 Cx.fc_req 1 with
        ctx := {
          resv := [⟨131071, 70000, 4294967295⟩, ⟨5, 9, 4⟩, ⟨6, 90000, 2⟩] } }); s.settled) ∧
    (let t : Nat := 1000; let seq : Word := 3; let r : Resv := (⟨131071, 70000, 4294967295⟩);
      let s : State := ({ blank.cset 131071 Cx.fc_req 1 with ctx := { resv := [r] } }); s.settled ∧
      Memory.wf s.store = true ∧ s.ctx.resv = [r] ∧ (seq.toNat + 2 ^ 32 - r.seq) % 2 ^ 32 < 2 ^ 31 ∧ r.ctx < 131072 ∧
      r.limit < 2 ^ 32) := by
  refine ⟨?_, ?_, ?_, ?_, ?_, ?_, ?_, ?_, ?_⟩ <;> decide +kernel

theorem test_KeySlotsComplete_met :
    (let t : Nat := 1000; let w : Fin 4 := 3; let k : Fin 1024 := 1023;
      let s : State :=
      ({ (blank.set (Reg.JWL_CMD_busy 3) 0 |>.set Reg.JWL_STATUS_lc_busy 0 |>.set Reg.JWL_CTRL_enable 1 |>.set Reg.CRN_STATUS_handed_over 0 |>.set (Reg.JWL_ATTR_type 3) 0 |>.set (Reg.JWL_ATTR_world 3) 1 |>.set (Reg.JWL_ATTR_parent 3) 5) with
        jwl := {
          slots := [(5, {
            state := 1, type := 2, masters := 31, lcMask := 255, depth := 6, gen := 65535, key := [1, 2, 3] }),
            (1023, { gen := 65535 })] }, fuses := { lcState := 1 } }); let x : Slot := (stagedSlot s w); s.settled ∧
      s.get (Reg.JWL_CMD_busy w) = 0 ∧ s.get Reg.JWL_STATUS_lc_busy = 0 ∧ s.get Reg.JWL_CTRL_enable ≠ 0 ∧
      (w = 3 → s.get Reg.CRN_STATUS_handed_over = 0) ∧ x = stagedSlot s w ∧ loadTest s w k x = 0 ∧
      ((jslot s k).state ≠ 2 ∨ s.jwl.sweeps = [])) ∧
    (let t : Nat := 1000; let w : Fin 4 := 3; let k : Fin 1024 := 1023;
      let s : State :=
      ({ (blank.set (Reg.JWL_CMD_busy 3) 0 |>.set Reg.JWL_STATUS_lc_busy 0 |>.set Reg.JWL_CTRL_enable 1 |>.set Reg.CRN_STATUS_handed_over 0 |>.set (Reg.JWL_ATTR_type 3) 0 |>.set (Reg.JWL_ATTR_world 3) 1 |>.set (Reg.JWL_ATTR_parent 3) 5) with
        jwl := {
          slots := [(5, {
            state := 1, type := 2, masters := 31, lcMask := 255, depth := 6, gen := 65535, key := [1, 2, 3] })] },
        fuses := { lcState := 1 } }); let x : Slot := (stagedSlot s w); s.settled ∧ s.get (Reg.JWL_CMD_busy w) = 0 ∧
      s.get Reg.JWL_STATUS_lc_busy = 0 ∧ s.get Reg.JWL_CTRL_enable ≠ 0 ∧
      (w = 3 → s.get Reg.CRN_STATUS_handed_over = 0) ∧ x = stagedSlot s w ∧ deriveTest s w k x = 0 ∧
      ((jslot s k).state ≠ 2 ∨ s.jwl.sweeps = [])) ∧
    (let t : Nat := 1000; let w : Fin 4 := 3; let k : Fin 1024 := 1023;
      let s : State :=
      ({ (blank.set (Reg.JWL_CMD_busy 3) 0 |>.set Reg.JWL_STATUS_lc_busy 0 |>.set Reg.JWL_CTRL_enable 1 |>.set Reg.CRN_STATUS_handed_over 0) with
        jwl := {
          slots := [(1023, {
            state := 1, type := 0, masters := 31, lcMask := 255, depth := 6, gen := 65535, key := [1, 2, 3] })] },
        fuses := { lcState := 1 } }); s.settled ∧ s.get (Reg.JWL_CMD_busy w) = 0 ∧ s.get Reg.JWL_STATUS_lc_busy = 0 ∧
      s.get Reg.JWL_CTRL_enable ≠ 0 ∧ (w = 3 → s.get Reg.CRN_STATUS_handed_over = 0) ∧ 2 ≤ k.val ∧
      lcAllows s 0 w = true ∧ ((jslot s k).world = 0 ∨ masterSecure w = true)) ∧
    (let t : Nat := 1000; let w : Fin 4 := 3; let k : Fin 1024 := 1023;
      let j : Job := { op := 3, slot := 1023, attrs := some {} }; let x : List (Nat × Nat) := [(2, 9)];
      let s : State := ({ blank with
        jwl := {
          slots := [(5, { ({
              state := 1, type := 2, masters := 31, lcMask := 255, depth := 6, gen := 65535,
              key := [1, 2, 3] } : Slot) with
            parent := 1023 }), (7, {
            state := 1, type := 2, masters := 31, lcMask := 255, depth := 6, gen := 65535, key := [1, 2, 3] }), (1023,
            { ({
              state := 1, type := 2, masters := 31, lcMask := 255, depth := 6, gen := 65535,
              key := [1, 2, 3] } : Slot) with
            state := 2 })], sweeps := [(3, 1023), (2, 9)], jobs := [(2, { op := 3, slot := 9 }), (3, j)] },
        fuses := { lcState := 1 } }); s.settled ∧ s.jwl.sweeps.find? (fun e => e.1 == w.val) = some (w.val, k.val) ∧
      tabGet s.jwl.jobs w = some j ∧ x = s.jwl.sweeps.filter (fun e => e.1 != w.val) ∧ x ≠ []) ∧
    (let t : Nat := 1000; let w : Fin 4 := 3; let k : Fin 1024 := 1023; let j : Job := { op := 3, slot := 1023 };
      let s : State := ({ blank with
        jwl := {
          slots := [(5, { ({
              state := 1, type := 2, masters := 31, lcMask := 255, depth := 6, gen := 65535,
              key := [1, 2, 3] } : Slot) with
            parent := 1023 }), (7, {
            state := 1, type := 2, masters := 31, lcMask := 255, depth := 6, gen := 65535, key := [1, 2, 3] }), (1023,
            { ({
              state := 1, type := 2, masters := 31, lcMask := 255, depth := 6, gen := 65535,
              key := [1, 2, 3] } : Slot) with
            state := 2 })], sweeps := [(3, 1023)], jobs := [(3, j)] }, fuses := { lcState := 1 } }); s.settled ∧
      s.jwl.sweeps = [(w.val, k.val)] ∧ s.jwl.jobs = [(w.val, j)] ∧ j.op = 3 ∧ j.digest = none ∧ j.attrs = none ∧
      j.attest = none) ∧
    (let t : Nat := 1000; let w : Fin 4 := 3; let k : Fin 1024 := 1023;
      let s : State :=
      ({ (blank.set (Reg.JWL_CMD_busy 3) 0 |>.set Reg.JWL_STATUS_lc_busy 0 |>.set Reg.JWL_CTRL_enable 1 |>.set Reg.CRN_STATUS_handed_over 0) with
        jwl := {
          slots := [(1023, {
            state := 1, type := 0, masters := 31, lcMask := 255, depth := 6, gen := 65535, key := [1, 2, 3] })] },
        fuses := { lcState := 1 } }); s.settled ∧ s.get (Reg.JWL_CMD_busy w) = 0 ∧ s.get Reg.JWL_STATUS_lc_busy = 0 ∧
      s.get Reg.JWL_CTRL_enable ≠ 0 ∧ (w = 3 → s.get Reg.CRN_STATUS_handed_over = 0) ∧ k.val ≠ 1) ∧
    (let t : Nat := 1000; let w : Fin 4 := 3; let k : Fin 1024 := 1023; let r : Nat := 15;
      let j : Job := { op := 1, slot := 9, result := some 15, due := 1000 };
      let s : State := ({ (blank.set (Reg.JWL_CMD_busy 3) 1 |>.set (Reg.JWL_KEY_key 3 15) 8) with
        jwl := { jobs := [(3, j)] }, fuses := { lcState := 1 } }); s.settled ∧ tabGet s.jwl.jobs w = some j ∧
      j.result = some r ∧ j.due ≤ max s.ltb t ∧ j.digest = none ∧ j.attrs = none ∧ j.attest = none ∧ r < 16) ∧
    (let t : Nat := 1000; let w : Fin 4 := 3; let k : Fin 1024 := 1023; let r : Nat := 0;
      let d : List Byte := (List.replicate 32 0xA5); let j : Job := {
        op := 6, slot := 9, result := some 0, due := 1000, digest := some d };
      let s : State := ({ (blank.set (Reg.JWL_CMD_busy 3) 1) with
        jwl := { jobs := [(3, j)] }, fuses := { lcState := 1 } }); s.settled ∧ tabGet s.jwl.jobs w = some j ∧
      j.result = some r ∧ j.due ≤ max s.ltb t ∧ j.digest = some d ∧ d.length = 32 ∧ j.attrs = none ∧ j.attest = none ∧
      r < 16) := by
  refine ⟨?_, ?_, ?_, ?_, ?_, ?_, ?_, ?_⟩ <;> decide +kernel

theorem test_KeyServicesComplete_met :
    (let t : Nat := 1000; let w : Fin 4 := 3; let k : Fin 1024 := 1023; let l : List Byte := [1, 2, 3];
      let n : Nat := 5; let s : State := ((blank.set (Reg.JWL_CMD_busy 3) 0 |>.set Reg.JWL_STATUS_lc_busy 0 |>.set
      Reg.JWL_CTRL_enable 1 |>.set Reg.CRN_STATUS_handed_over 0).set (Reg.JWL_JOB_LEN_len 3) 5); s.settled ∧
      s.get (Reg.JWL_CMD_busy w) = 0 ∧ s.get Reg.JWL_STATUS_lc_busy = 0 ∧ s.get Reg.JWL_CTRL_enable ≠ 0 ∧
      (w = 3 → s.get Reg.CRN_STATUS_handed_over = 0) ∧ n = s.get (Reg.JWL_JOB_LEN_len w) ∧ 0 < n ∧ n ≤ 0x1000000) ∧
    (let t : Nat := 1000; let w : Fin 4 := 3; let k : Fin 1024 := 1023; let l : List Byte := [1, 2, 3];
      let n : Nat := 5; let s : State :=
      ({ ((blank.set (Reg.JWL_CMD_busy 3) 0 |>.set Reg.JWL_STATUS_lc_busy 0 |>.set Reg.JWL_CTRL_enable 1 |>.set Reg.CRN_STATUS_handed_over 0).set (Reg.JWL_JOB_LEN_len 3) 5) with
        jwl := {
          slots := [(1023, {
            state := 1, type := 3, masters := 31, lcMask := 255, depth := 6, gen := 65535, key := [1, 2, 3] })] },
        fuses := { lcState := 1 } }); s.settled ∧ s.get (Reg.JWL_CMD_busy w) = 0 ∧ s.get Reg.JWL_STATUS_lc_busy = 0 ∧
      s.get Reg.JWL_CTRL_enable ≠ 0 ∧ (w = 3 → s.get Reg.CRN_STATUS_handed_over = 0) ∧
      n = s.get (Reg.JWL_JOB_LEN_len w) ∧ 0 < n ∧ n ≤ 0x1000000 ∧ useTest s k w 2 = 0 ∧ (jslot s k).type = 3) ∧
    (let t : Nat := 1000; let w : Fin 4 := 3; let k : Fin 1024 := 1023; let l : List Byte := [1, 2, 3];
      let s : State :=
      ({ (blank.set (Reg.JWL_CMD_busy 3) 0 |>.set Reg.JWL_STATUS_lc_busy 0 |>.set Reg.JWL_CTRL_enable 1 |>.set Reg.CRN_STATUS_handed_over 0) with
        jwl := {
          slots := [(1023, {
            state := 1, type := 4, masters := 31, lcMask := 255, depth := 6, gen := 65535, key := [1, 2, 3] })] },
        fuses := { lcState := 1 } }); let d : List Byte := (wordsOf s (Reg.JWL_DIGEST_word w) 8);
      let ok : Bool := (ecdsaVerify (jslot s k).key d (wordsOf s (Reg.JWL_SIG_word w) 16)); s.settled ∧
      s.get (Reg.JWL_CMD_busy w) = 0 ∧ s.get Reg.JWL_STATUS_lc_busy = 0 ∧ s.get Reg.JWL_CTRL_enable ≠ 0 ∧
      (w = 3 → s.get Reg.CRN_STATUS_handed_over = 0) ∧ useTest s k w 3 = 0 ∧ (jslot s k).type = 4 ∧
      d = wordsOf s (Reg.JWL_DIGEST_word w) 8 ∧
      ok = ecdsaVerify (jslot s k).key d (wordsOf s (Reg.JWL_SIG_word w) 16)) ∧
    (let t : Nat := 1000; let w : Fin 4 := 3; let k : Fin 1024 := 1023; let l : List Byte := [1, 2, 3];
      let s : State := (blank.set (Reg.JWL_CMD_busy 3) 0 |>.set Reg.JWL_STATUS_lc_busy 0 |>.set Reg.JWL_CTRL_enable 1
      |>.set Reg.CRN_STATUS_handed_over 0); s.settled ∧ s.get (Reg.JWL_CMD_busy w) = 0 ∧
      s.get Reg.JWL_STATUS_lc_busy = 0 ∧ s.get Reg.JWL_CTRL_enable ≠ 0 ∧
      (w = 3 → s.get Reg.CRN_STATUS_handed_over = 0)) ∧
    (let t : Nat := 1000; let w : Fin 4 := 3; let k : Fin 1024 := 1023; let l : List Byte := [1, 2, 3];
      let m : Fin 1024 := 3; let s : State := (blank.set (Reg.JWL_CMD_busy 3) 0 |>.set Reg.JWL_STATUS_lc_busy 0 |>.set
      Reg.JWL_CTRL_enable 1 |>.set Reg.CRN_STATUS_handed_over 0); s.settled ∧ s.get (Reg.JWL_CMD_busy w) = 0 ∧
      s.get Reg.JWL_STATUS_lc_busy = 0 ∧ s.get Reg.JWL_CTRL_enable ≠ 0 ∧
      (w = 3 → s.get Reg.CRN_STATUS_handed_over = 0) ∧ m.val ≤ 3 ∧
      (m.val = 0 ∧ w.val = 3 ∨ m.val ≠ 0 ∧ masterSecure w = true)) := by
  refine ⟨?_, ?_, ?_, ?_, ?_⟩ <;> decide +kernel

theorem test_LifeCycleCompletes_met :
    (let t : Nat := 1000; let s : State := (blank.set Reg.JWL_STATUS_lc_read 1); s.settled ∧
      s.get Reg.JWL_STATUS_lc_read ≠ 0) ∧
    (let t : Nat := 1000; let s : State := (blank.set Reg.JWL_CTRL_enable 1); s.settled) ∧
    (let t : Nat := 40000; let s : State := ({ blank.set Reg.JWL_STATUS_lc_read 0 with
        jwl := { }, fuses := { lcState := 4 } }); s.settled ∧ s.get Reg.JWL_STATUS_lc_read = 0 ∧
      s.jwl.lcReadAt ≤ max s.ltb t ∧ s.fuses.lcState < 8) ∧
    (let t : Nat := 1000; let w : Fin 4 := 2; let target : BitVec 3 := 2;
      let s : State := ({ blank.set Reg.JWL_STATUS_lc_busy 0 with
        jwl := {
          slots := [(1023, {
            state := 1, type := 0, masters := 31, lcMask := 255, depth := 6, gen := 65535, key := [1, 2, 3] })],
          cache := [(3, [⟨9, 1, 2, [3]⟩])] }, fuses := { lcState := 1 } }); s.settled ∧
      s.get Reg.JWL_STATUS_lc_busy = 0 ∧ masterSecure w = true ∧ (w = 3 → s.get Reg.CRN_STATUS_handed_over = 0) ∧
      lcTransition (lcState s) target.toNat = true ∧ target ≠ 3) ∧
    (let t : Nat := 1000; let x : Nat := 2; let due : Nat := 1000; let s : State := ({ blank with
        jwl := { lcTarget := some (2, 1000) }, fuses := { lcState := 1 } }); s.settled ∧
      s.jwl.lcTarget = some (x, due) ∧ due ≤ max s.ltb t ∧ x < 8) ∧
    (let t : Nat := 1000; let s : State := ({ blank.set Reg.JWL_CACHE_entries 1 with
        jwl := { cache := [(3, [⟨9, 1, 2, [3]⟩])] }, fuses := { lcState := 1 } }); s.settled) := by
  refine ⟨?_, ?_, ?_, ?_, ?_, ?_⟩ <;> decide +kernel

theorem test_RingsComplete_met :
    (let t : Nat := 1000; let r : Fin 256 := 223;
      let s : State :=
      ({ ((blank.set (Reg.HIF_RING_CTRL_enable 223) 0 |>.set (Reg.HIF_RING_CTRL_log2_size 223) 12 |>.set (Reg.HIF_RING_BASE_LO_base 223) 64 |>.set (Reg.HIF_RING_AUX_LO_aux 223) 64).setRing 223 { lost := 5 }) with
        claims := [] }); s.settled ∧ s.get (Reg.HIF_RING_CTRL_enable r) = 0 ∧
      4 ≤ s.get (Reg.HIF_RING_CTRL_log2_size r) ∧ s.get (Reg.HIF_RING_CTRL_log2_size r) ≤ 12 ∧ ringBase s r ≠ 0 ∧
      ringAux s r ≠ 0 ∧ claimFree s 0x1B 36 = true) ∧
    (let t : Nat := 1000; let r : Fin 256 := 128;
      let s : State :=
      ({ ((blank.set (Reg.HIF_RING_CTRL_enable 128) 1 |>.set (Reg.HIF_RING_CTRL_log2_size 128) 4 |>.set (Reg.HIF_RING_CTRL_owner 128) 0).setRing 128 { fetched := [[1]] }) with
        claims := [(36, ⟨false, 0x1B⟩)] }); s.settled ∧ s.get (Reg.HIF_RING_CTRL_enable r) ≠ 0 ∧ r.val < 224) ∧
    (let t : Nat := 1000; let r : Fin 256 := 127; let off : Fin 4096 := 1016; let cluster : Bool := false;
      let w : Word := 0x80050003; let z : Word := 7; let i : Nat := 3;
      let s : State := ((blank.set (Reg.HIF_RING_CTRL_enable 127) 1 |>.set (Reg.HIF_RING_CTRL_log2_size 127) 4 |>.set
      (Reg.HIF_RING_CTRL_owner 127) 0).setRing 127 { pIdx := 65535, cIdx := 65533 }); s.settled ∧
      s.get (Reg.HIF_RING_CTRL_enable r) ≠ 0 ∧ off.val = 8 * r.val ∧ cluster = (ringOwner s r == 1) ∧
      i = w.toNat % 65536 ∧ ((hostProduced r = true ∧ (i + 65536 - (s.ringOf r).pIdx) % 65536 < 32768 ∧
      (i + 65536 - (s.ringOf r).cIdx) % 65536 ≤ ringSize s r) ∨ (hostProduced r = false ∧
      countBetween (s.ringOf r).pIdx i (s.ringOf r).cIdx = true))) ∧
    (let t : Nat := 1000; let r : Fin 256 := 223; let off : Fin 4096 := 1784; let cluster : Bool := false;
      let w : Word := 0x80050003; let v : Word := 0xFFFF0007; let i : Nat := 3; let c : Nat := 7;
      let s : State := ((blank.set (Reg.HIF_RING_CTRL_enable 223) 1 |>.set (Reg.HIF_RING_CTRL_log2_size 223) 4 |>.set
      (Reg.HIF_RING_CTRL_owner 223) 0).setRing 223 { pIdx := 65535, cIdx := 65533, ccons := 6, cp := 7 }); s.settled ∧
      s.get (Reg.HIF_RING_CTRL_enable r) ≠ 0 ∧ off.val = 8 * r.val ∧ isTxRing r = true ∧
      cluster = (ringOwner s r == 1) ∧ i = w.toNat % 65536 ∧ c = v.toNat % 65536 ∧ ((hostProduced r = true ∧
      (i + 65536 - (s.ringOf r).pIdx) % 65536 < 32768 ∧ (i + 65536 - (s.ringOf r).cIdx) % 65536 ≤ ringSize s r) ∨
      (hostProduced r = false ∧ countBetween (s.ringOf r).pIdx i (s.ringOf r).cIdx = true)) ∧
      countBetween (s.ringOf r).ccons c (s.ringOf r).cp = true) ∧
    (let t : Nat := 1000; let r : Fin 256 := 223; let off : Fin 4096 := 1788; let cluster : Bool := false;
      let w : Word := 0xFFFF0007; let z : Word := 9; let c : Nat := 7;
      let s : State := ((blank.set (Reg.HIF_RING_CTRL_enable 223) 1 |>.set (Reg.HIF_RING_CTRL_log2_size 223) 4 |>.set
      (Reg.HIF_RING_CTRL_owner 223) 0).setRing 223 { pIdx := 65535, cIdx := 65533, ccons := 6, cp := 7 }); s.settled ∧
      s.get (Reg.HIF_RING_CTRL_enable r) ≠ 0 ∧ off.val = 8 * r.val + 4 ∧ isTxRing r = true ∧
      cluster = (ringOwner s r == 1) ∧ c = w.toNat % 65536 ∧
      countBetween (s.ringOf r).ccons c (s.ringOf r).cp = true) ∧
    (let t : Nat := 1000; let r : Fin 256 := 223; let off : Fin 4096 := 1784; let cluster : Bool := true;
      let w : Word := 0xFFFF0007; let z : Word := 9;
      let s : State := ((blank.set (Reg.HIF_RING_CTRL_enable 223) 1 |>.set (Reg.HIF_RING_CTRL_log2_size 223) 4 |>.set
      (Reg.HIF_RING_CTRL_owner 223) 0).setRing 223 { pIdx := 65535 }); s.settled ∧
      s.get (Reg.HIF_RING_CTRL_enable r) ≠ 0 ∧ off.val = 8 * r.val ∧ cluster ≠ (ringOwner s r == 1)) ∧
    (let t : Nat := 1000; let r : Fin 256 := 223; let off : Fin 4096 := 1784; let cluster : Bool := true;
      let w : Word := 1; let z : Word := 2; let s : State := ((blank.set (Reg.HIF_RING_CTRL_enable 223) 1 |>.set
      (Reg.HIF_RING_CTRL_log2_size 223) 4 |>.set (Reg.HIF_RING_CTRL_owner 223) 0).setRing 223
      { pIdx := 65535, dbArm := true, ccons := 7 });
      let x : Nat := (if s.get (Reg.HIF_RING_CTRL_enable r) = 0 then 0 else (s.ringOf r).pIdx +
      (if (s.ringOf r).dbArm then 2 ^ 31 else 0));
      let y : Nat := (if s.get (Reg.HIF_RING_CTRL_enable r) = 0 then 0 else (s.ringOf r).ccons); s.settled ∧
      off.val = 8 * r.val ∧ x = (if s.get (Reg.HIF_RING_CTRL_enable r) = 0 then 0 else (s.ringOf r).pIdx +
      (if (s.ringOf r).dbArm then 2 ^ 31 else 0)) ∧
      y = (if s.get (Reg.HIF_RING_CTRL_enable r) = 0 then 0 else (s.ringOf r).ccons)) ∧
    (let t : Nat := 1000; let r : Fin 256 := 223; let off : Fin 4096 := 2048; let cluster : Bool := true;
      let w : Word := 3; let z : Word := 5; let s : State := (blank); s.settled ∧
      (2048 ≤ off.val ∨ off.val % 4 ≠ 0)) ∧
    (let t : Nat := 1000; let r : Fin 256 := 223; let descs : List (List Byte) := [[1, 2], [3, 4]];
      let s : State := ((blank.set (Reg.HIF_RING_CTRL_enable 223) 1 |>.set (Reg.HIF_RING_CTRL_log2_size 223) 4 |>.set
      (Reg.HIF_RING_CTRL_owner 223) 0).setRing 223 { pIdx := 2 }); let n : Nat := (fetchCount s r); s.settled ∧
      ringLive s r = true ∧ isTxRing r = true ∧ n = fetchCount s r) ∧
    (let t : Nat := 1000; let r : Fin 256 := 127; let addr : BitVec 64 := 0xFFFFFFFFFFFF;
      let s : State := ((blank.set (Reg.HIF_RING_CTRL_enable 127) 1 |>.set (Reg.HIF_RING_CTRL_log2_size 127) 4 |>.set
      (Reg.HIF_RING_CTRL_owner 127) 0)); s.settled ∧ s.get (Reg.HIF_RING_CTRL_enable r) ≠ 0 ∧ r.val < 224) := by
  refine ⟨?_, ?_, ?_, ?_, ?_, ?_, ?_, ?_, ?_, ?_⟩ <;> decide +kernel

theorem test_FrameAdmissionCompletes_met :
    (let t : Nat := 1000; let r : Fin 256 := 223;
      let d : List Byte := (([0, 16, 0, 0, 0, 0, 0, 0, 40, 0, 0, 4] ++ List.replicate 20 0));
      let l : List (List Byte) := [[7]]; let data : List Byte := [1, 2, 3];
      let ds : List (List Byte) := [d.set 11 0, d]; let w : TxMetaDesc := (txMetaOf (ds.headD [])); let n : Nat := 80;
      let s : State := (((blank.set (Reg.HIF_RING_CTRL_enable 223) 1 |>.set (Reg.HIF_RING_CTRL_log2_size 223) 4 |>.set
      (Reg.HIF_RING_CTRL_owner 223) 0 |>.set (Reg.CTX_POOL_FREE_free 4) 9 |>.set Reg.FWD_CTRL_enable 1 |>.set
      Reg.CTX_CTRL_enable 1).setRing 223 { fetched := ds ++ l, pIdx := 3 }));
      let tag : Nat := ((freeTag s (if ringOwner s r = 1 then .cluster else .host) 0).getD 0); s.settled ∧
      ringLive s r = true ∧ isTxRing r = true ∧ untilEop (s.ringOf r).fetched = some ds ∧
      n = (ds.map descLen).foldl (· + ·) 0 ∧ w = txMetaOf (ds.headD []) ∧ w.kind = 0 ∧ txFrameCheck s w ds = 0 ∧
      buffersFor n ≤ poolFree s 4 ∧ poolFree s 4 < 2 ^ 15 ∧
      freeTag s (if ringOwner s r = 1 then .cluster else .host) 0 = some tag ∧
      (s.ringOf r).frames.length + ((s.ringOf r).cp + 65536 - (s.ringOf r).ccons) % 65536 < ringSize s r) ∧
    (let t : Nat := 1000; let r : Fin 256 := 223;
      let d : List Byte := (([0, 16, 0, 0, 0, 0, 0, 0, 40, 0, 3, 4] ++ List.replicate 20 0));
      let l : List (List Byte) := [[7]]; let data : List Byte := [1, 2, 3];
      let s : State := (((blank.set (Reg.HIF_RING_CTRL_enable 223) 1 |>.set (Reg.HIF_RING_CTRL_log2_size 223) 4 |>.set
      (Reg.HIF_RING_CTRL_owner 223) 0).setRing 223 { fetched := d :: l, pIdx := 3 })); s.settled ∧
      ringLive s r = true ∧ isTxRing r = true ∧ (s.ringOf r).fetched = d :: l ∧ untilEop (d :: l) = some [d] ∧
      (txMetaOf d).kind = 3 ∧ (s.ringOf r).frames.length + ((s.ringOf r).cp + 65536 - (s.ringOf r).ccons) % 65536 <
      ringSize s r ∧ tabGet (s.ringOf r).frames s.hif.nextRef = none) := by
  refine ⟨?_, ?_⟩ <;> decide +kernel

theorem test_EventsAndControlComplete_met :
    (let t : Nat := 1000; let r : Fin 256 := 255;
      let d : List Byte := (([1, 0, 0, 0, 0x68, 0, 2, 0, 0xFE, 0xFF, 0xFF, 0x7F] ++ List.replicate 20 0));
      let mem : BusReads := { mem := some [1, 2] };
      let s : State := (((blank.set (Reg.HIF_RING_CTRL_enable 255) 1 |>.set (Reg.HIF_RING_CTRL_log2_size 255) 4 |>.set
      (Reg.HIF_RING_CTRL_owner 255) 0 |>.set Reg.PWR_STATUS_state 0).setRing 255 { pIdx := 3 })); s.settled ∧
      isCtlRing r = true ∧ ringLive s r = true ∧ ringOwner s r = 0 ∧ s.get Reg.PWR_STATUS_state ≠ 2 ∧
      (s.ringOf r).poll = none ∧ (s.ringOf r).pIdx ≠ (s.ringOf r).cIdx ∧ controlSkips (s.ringOf r) = false ∧
      d.length = 32 ∧ octet d 0 = 1 ∧ ofLe (octetsAt d 4 4) = 0x20068) ∧
    (let t : Nat := 1000; let r : Fin 256 := 255;
      let d : List Byte := (([2, 0, 0, 0, 0x68, 0, 2, 0, 0xFE, 0xFF, 0xFF, 0x7F] ++ List.replicate 20 0));
      let mem : BusReads := { mem := some [1, 2] }; let v : Nat := 9;
      let s : State := (((blank.set (Reg.HIF_RING_CTRL_enable 255) 1 |>.set (Reg.HIF_RING_CTRL_log2_size 255) 4 |>.set
      (Reg.HIF_RING_CTRL_owner 255) 0 |>.set Reg.BAL_PTP_SET_SEC_LO_set_sec_lo 9 |>.set Reg.PWR_STATUS_state
      0).setRing 255 { pIdx := 3 })); s.settled ∧ isCtlRing r = true ∧ ringLive s r = true ∧ ringOwner s r = 0 ∧
      s.get Reg.PWR_STATUS_state ≠ 2 ∧ (s.ringOf r).poll = none ∧ (s.ringOf r).pIdx ≠ (s.ringOf r).cIdx ∧
      controlSkips (s.ringOf r) = false ∧ d.length = 32 ∧ octet d 0 = 2 ∧ ofLe (octetsAt d 4 4) = 0x20068 ∧
      v = regValue s 0x20068 ∧ v < 2 ^ 32) ∧
    (let t : Nat := 1000; let r : Fin 256 := 255;
      let d : List Byte := (([3, 0, 5, 0, 0x68, 0, 2, 0, 7, 0, 0, 0, 0xFF, 0xFF, 0xFF, 0xFF] ++ List.replicate 16 0));
      let mem : BusReads := { mem := some [1, 2] }; let v : Nat := 9; let n : Nat := 5;
      let s : State := (((blank.set (Reg.HIF_RING_CTRL_enable 255) 1 |>.set (Reg.HIF_RING_CTRL_log2_size 255) 4 |>.set
      (Reg.HIF_RING_CTRL_owner 255) 0 |>.set Reg.BAL_PTP_SET_SEC_LO_set_sec_lo 9 |>.set Reg.PWR_STATUS_state
      0).setRing 255 { pIdx := 3 })); s.settled ∧ isCtlRing r = true ∧ ringLive s r = true ∧ ringOwner s r = 0 ∧
      s.get Reg.PWR_STATUS_state ≠ 2 ∧ (s.ringOf r).poll = none ∧ (s.ringOf r).pIdx ≠ (s.ringOf r).cIdx ∧
      controlSkips (s.ringOf r) = false ∧ d.length = 32 ∧ octet d 0 = 3 ∧ ofLe (octetsAt d 4 4) = 0x20068 ∧
      v = regValue s 0x20068 ∧ v < 2 ^ 32 ∧ v &&& ofLe (octetsAt d 12 4) ≠ ofLe (octetsAt d 8 4) ∧
      n = ofLe (octetsAt d 2 2)) ∧
    (let t : Nat := 1000; let r : Fin 256 := 255;
      let d : List Byte := (([1, 0, 0, 0, 0x68, 0, 2, 0, 0xFE, 0xFF, 0xFF, 0x7F] ++ List.replicate 20 0));
      let mem : BusReads := { mem := some [1, 2] };
      let s : State := (((blank.set (Reg.HIF_RING_CTRL_enable 255) 1 |>.set (Reg.HIF_RING_CTRL_log2_size 255) 4 |>.set
      (Reg.HIF_RING_CTRL_owner 255) 0 |>.set Reg.PWR_STATUS_state 0).setRing 255 { pIdx := 3, skipTo := some 2 }));
      s.settled ∧ isCtlRing r = true ∧ ringLive s r = true ∧ ringOwner s r = 0 ∧ s.get Reg.PWR_STATUS_state ≠ 2 ∧
      (s.ringOf r).poll = none ∧ (s.ringOf r).pIdx ≠ (s.ringOf r).cIdx ∧ controlSkips (s.ringOf r) = true ∧
      d.length = 32) ∧
    (let t : Nat := 1000; let r : Fin 256 := 255;
      let d : List Byte := (([4, 0, 0, 0, 0x68, 0, 2, 0, 0xFE, 0xFF, 0xFF, 0x7F] ++ List.replicate 20 0));
      let mem : BusReads := { mem := some [1, 2] };
      let s : State := (((blank.set (Reg.HIF_RING_CTRL_enable 255) 1 |>.set (Reg.HIF_RING_CTRL_log2_size 255) 4 |>.set
      (Reg.HIF_RING_CTRL_owner 255) 0 |>.set Reg.PWR_STATUS_state 0).setRing 255 { pIdx := 3 })); s.settled ∧
      isCtlRing r = true ∧ ringLive s r = true ∧ ringOwner s r = 0 ∧ s.get Reg.PWR_STATUS_state ≠ 2 ∧
      (s.ringOf r).poll = none ∧ (s.ringOf r).pIdx ≠ (s.ringOf r).cIdx ∧ controlSkips (s.ringOf r) = false ∧
      d.length = 32 ∧ (octet d 0 = 0 ∨ 3 < octet d 0)) ∧
    (let t : Nat := 1000; let r : Fin 256 := 255;
      let d : List Byte := (([1, 0, 0, 0, 0x6A, 0, 2, 0, 0xFE, 0xFF, 0xFF, 0x7F] ++ List.replicate 20 0));
      let mem : BusReads := { mem := some [1, 2] };
      let s : State := (((blank.set (Reg.HIF_RING_CTRL_enable 255) 1 |>.set (Reg.HIF_RING_CTRL_log2_size 255) 4 |>.set
      (Reg.HIF_RING_CTRL_owner 255) 0 |>.set Reg.PWR_STATUS_state 0).setRing 255 { pIdx := 3 })); s.settled ∧
      isCtlRing r = true ∧ ringLive s r = true ∧ ringOwner s r = 0 ∧ s.get Reg.PWR_STATUS_state ≠ 2 ∧
      (s.ringOf r).poll = none ∧ (s.ringOf r).pIdx ≠ (s.ringOf r).cIdx ∧ controlSkips (s.ringOf r) = false ∧
      d.length = 32 ∧ 1 ≤ octet d 0 ∧ octet d 0 ≤ 3 ∧ (ofLe (octetsAt d 4 4) % 4 ≠ 0 ∨
      0x200000 ≤ ofLe (octetsAt d 4 4))) ∧
    (let t : Nat := 1000; let r : Fin 256 := 251;
      let d : List Byte := (([1, 0, 0, 0, 0x08, 1, 0xF, 0, 0xFE, 0xFF, 0xFF, 0x7F] ++ List.replicate 20 0));
      let mem : BusReads := { mem := some [1, 2] };
      let s : State := (((blank.set (Reg.HIF_RING_CTRL_enable 251) 1 |>.set (Reg.HIF_RING_CTRL_log2_size 251) 4 |>.set
      (Reg.HIF_RING_CTRL_owner 251) 0).setRing 251 { pIdx := 3, skipTo := some 0 })); s.settled ∧ isCtlRing r = true ∧
      ringLive s r = true ∧ (s.ringOf r).poll = none ∧ (s.ringOf r).pIdx ≠ (s.ringOf r).cIdx ∧ d.length = 32 ∧
      (ofLe (octetsAt d 4 4)) % 4 = 0 ∧ (ofLe (octetsAt d 4 4)) < 0x200000 ∧ controlSkips (s.ringOf r) = false ∧
      octet d 0 = 1) ∧
    (let t : Nat := 1000; let r : Fin 256 := 251;
      let d : List Byte := (([2, 0, 0, 0, 0x08, 1, 0xF, 0, 0xFE, 0xFF, 0xFF, 0x7F] ++ List.replicate 20 0));
      let mem : BusReads := { mem := some [1, 2] };
      let s : State := (((blank.set (Reg.HIF_RING_CTRL_enable 251) 1 |>.set (Reg.HIF_RING_CTRL_log2_size 251) 4 |>.set
      (Reg.HIF_RING_CTRL_owner 251) 0).setRing 251 { pIdx := 3, skipTo := some 0 })); s.settled ∧ isCtlRing r = true ∧
      ringLive s r = true ∧ (s.ringOf r).poll = none ∧ (s.ringOf r).pIdx ≠ (s.ringOf r).cIdx ∧ d.length = 32 ∧
      (ofLe (octetsAt d 4 4)) % 4 = 0 ∧ (ofLe (octetsAt d 4 4)) < 0x200000 ∧ controlSkips (s.ringOf r) = false ∧
      octet d 0 = 2) ∧
    (let t : Nat := 1000; let r : Fin 256 := 248;
      let d : List Byte := (([3, 0, 5, 0, 0x68, 0, 2, 0, 7, 0, 0, 0, 0xFF, 0xFF, 0xFF, 0xFF] ++ List.replicate 16 0));
      let mem : BusReads := { mem := some [1, 2] }; let due : Nat := 5000;
      let s : State := (((blank.set (Reg.HIF_RING_CTRL_enable 248) 1 |>.set (Reg.HIF_RING_CTRL_log2_size 248) 4 |>.set
      (Reg.HIF_RING_CTRL_owner 248) 0 |>.set Reg.BAL_PTP_SET_SEC_LO_set_sec_lo 7).setRing 248
      { pIdx := 3, poll := some (d, 5000) })); s.settled ∧ isCtlRing r = true ∧ ringLive s r = true ∧
      (s.ringOf r).poll = some (d, due) ∧ (readWord (busRead (s.begin t) (ringMaster s r) (ofLe (octetsAt d 4 4)))).1
      &&& ofLe (octetsAt d 12 4) = ofLe (octetsAt d 8 4)) ∧
    (let t : Nat := 1000; let r : Fin 256 := 248;
      let d : List Byte := (([3, 0, 5, 0, 0x68, 0, 2, 0, 7, 0, 0, 0, 0xFF, 0xFF, 0xFF, 0xFF] ++ List.replicate 16 0));
      let mem : BusReads := { mem := some [1, 2] }; let due : Nat := 1000; let v : Nat := 9;
      let s : State := (((blank.set (Reg.HIF_RING_CTRL_enable 248) 1 |>.set (Reg.HIF_RING_CTRL_log2_size 248) 4 |>.set
      (Reg.HIF_RING_CTRL_owner 248) 0 |>.set Reg.PWR_STATUS_state 0 |>.set Reg.BAL_PTP_SET_SEC_LO_set_sec_lo
      9).setRing 248 { pIdx := 3, poll := some (d, 1000) })); s.settled ∧ isCtlRing r = true ∧ ringLive s r = true ∧
      ringOwner s r = 0 ∧ s.get Reg.PWR_STATUS_state ≠ 2 ∧ (s.ringOf r).poll = some (d, due) ∧ due ≤ max s.ltb t ∧
      ofLe (octetsAt d 4 4) = 0x20068 ∧ v = regValue s 0x20068 ∧ v < 2 ^ 32 ∧
      v &&& ofLe (octetsAt d 12 4) ≠ ofLe (octetsAt d 8 4)) ∧
    (let t : Nat := 1000; let r : Fin 256 := 255;
      let d : List Byte := (([1, 0, 0, 0, 0x68, 0, 2, 0, 0xFE, 0xFF, 0xFF, 0x7F] ++ List.replicate 20 0));
      let mem : BusReads := { mem := some [1, 2] }; let ev : Fin 256 := 255; let s : State := (blank); s.settled) ∧
    (let t : Nat := 70000000; let r : Fin 256 := 255;
      let d : List Byte := (([1, 0, 0, 0, 0x68, 0, 2, 0, 0xFE, 0xFF, 0xFF, 0x7F] ++ List.replicate 20 0));
      let mem : BusReads := { mem := some [1, 2] }; let v : Fin 64 := 63; let x : Vec := { count := 1, first := 500 };
      let s : State := ({ blank.set (Reg.HIF_VEC_CFG_dest 63) 0 with
        hif := { vecs := [(63, x)], funcMask := false, unmasked := [63] } }); s.settled ∧
      tabGet s.hif.vecs v = some x ∧ 0 < x.count ∧ x.first + s.cur (Reg.HIF_VEC_CFG_coal_us v) * 1000 ≤ max s.ltb t ∧
      s.get (Reg.HIF_VEC_CFG_dest v) = 0 ∧ s.hif.funcMask = false ∧ v.val ∈ s.hif.unmasked) ∧
    (let t : Nat := 1000; let r : Fin 256 := 255;
      let d : List Byte := (([1, 0, 0, 0, 0x68, 0, 2, 0, 0xFE, 0xFF, 0xFF, 0x7F] ++ List.replicate 20 0));
      let mem : BusReads := { mem := some [1, 2] }; let off : Fin 4096 := 1020; let w : Word := 0xFFFFFFFE;
      let v : Nat := 63; let s : State := ({ blank.set Reg.HIF_STATUS_standalone 0 with
        hif := { pba := [3, 63], funcMask := false } }); s.settled ∧ s.get Reg.HIF_STATUS_standalone = 0 ∧
      off.val = 16 * v + 12 ∧ v ∈ s.hif.pba ∧ s.hif.funcMask = false ∧ w.toNat % 2 = 0) ∧
    (let t : Nat := 1000; let r : Fin 256 := 255;
      let d : List Byte := (([1, 0, 0, 0, 0x68, 0, 2, 0, 0xFE, 0xFF, 0xFF, 0x7F] ++ List.replicate 20 0));
      let mem : BusReads := { mem := some [1, 2] }; let off : Fin 4096 := 1020; let w : Word := 0xFFFFFFFF;
      let v : Nat := 63; let s : State := ({ blank.set Reg.HIF_STATUS_standalone 0 with
        hif := { pba := [3, 63], unmasked := [62, 63], funcMask := false } }); s.settled ∧
      s.get Reg.HIF_STATUS_standalone = 0 ∧ off.val = 16 * v + 12 ∧ v < 64 ∧ w.toNat % 2 = 1) ∧
    (let t : Nat := 1000; let r : Fin 256 := 255;
      let d : List Byte := (([1, 0, 0, 0, 0x68, 0, 2, 0, 0xFE, 0xFF, 0xFF, 0x7F] ++ List.replicate 20 0));
      let mem : BusReads := { mem := some [1, 2] }; let off : Fin 4096 := 1016; let w : Word := 0xFFFFFFFF;
      let k : Nat := 254; let s : State := (blank.set Reg.HIF_STATUS_standalone 0); s.settled ∧
      s.get Reg.HIF_STATUS_standalone = 0 ∧ off.val = 4 * k ∧ k < 256 ∧ k % 4 ≠ 3) ∧
    (let t : Nat := 1000; let r : Fin 256 := 255;
      let d : List Byte := (([1, 0, 0, 0, 0x68, 0, 2, 0, 0xFE, 0xFF, 0xFF, 0x7F] ++ List.replicate 20 0));
      let mem : BusReads := { mem := some [1, 2] }; let off : Fin 4096 := 2052;
      let s : State := ({ blank.set Reg.HIF_STATUS_standalone 0 with
        hif := { pba := [3, 63], unmasked := [62, 63] } }); s.settled ∧ s.get Reg.HIF_STATUS_standalone = 0) ∧
    (let t : Nat := 1000; let r : Fin 256 := 255;
      let d : List Byte := (([1, 0, 0, 0, 0x68, 0, 2, 0, 0xFE, 0xFF, 0xFF, 0x7F] ++ List.replicate 20 0));
      let mem : BusReads := { mem := some [1, 2] }; let v : Nat := 63;
      let s : State := ({ blank.set Reg.HIF_STATUS_standalone 0 with
        hif := { pba := [3, 63], funcMask := true, unmasked := [63] } }); s.settled ∧
      s.get Reg.HIF_STATUS_standalone = 0 ∧ v ∈ s.hif.pba ∧ v ∈ s.hif.unmasked) ∧
    (let t : Nat := 1000; let r : Fin 256 := 255;
      let d : List Byte := (([1, 0, 0, 0, 0x68, 0, 2, 0, 0xFE, 0xFF, 0xFF, 0x7F] ++ List.replicate 20 0));
      let mem : BusReads := { mem := some [1, 2] }; let s : State := ({ blank.set Reg.HIF_STATUS_standalone 0 with
        hif := { pba := [3, 63], funcMask := false } }); s.settled ∧ s.get Reg.HIF_STATUS_standalone = 0) ∧
    (let t : Nat := 1000; let r : Fin 256 := 255;
      let d : List Byte := (([1, 0, 0, 0, 0x68, 0, 2, 0, 0xFE, 0xFF, 0xFF, 0x7F] ++ List.replicate 20 0));
      let mem : BusReads := { mem := some [1, 2] };
      let s : State := (((blank.set (Reg.HIF_RING_CTRL_enable 128) 1 |>.set (Reg.HIF_RING_CTRL_log2_size 128) 4 |>.set
      (Reg.HIF_RING_CTRL_owner 128) 0 |>.set Reg.HIF_STATUS_standalone 0).setRing 128 { pIdx := 3 })); s.settled ∧
      s.get Reg.HIF_STATUS_standalone = 0) ∧
    (let t : Nat := 1000; let r : Fin 256 := 255;
      let d : List Byte := (([1, 0, 0, 0, 0x68, 0, 2, 0, 0xFE, 0xFF, 0xFF, 0x7F] ++ List.replicate 20 0));
      let mem : BusReads := { mem := some [1, 2] };
      let s : State := (((blank.set (Reg.HIF_RING_CTRL_enable 128) 1 |>.set (Reg.HIF_RING_CTRL_log2_size 128) 4 |>.set
      (Reg.HIF_RING_CTRL_owner 128) 0 |>.set Reg.HIF_STATUS_standalone 0 |>.set Reg.HIF_STATUS_link_up 1).setRing 128
      { pIdx := 3 })); s.settled ∧ s.get Reg.HIF_STATUS_standalone = 0 ∧ s.get Reg.HIF_STATUS_link_up ≠ 0) ∧
    (let t : Nat := 1000; let r : Fin 256 := 255;
      let d : List Byte := (([1, 0, 0, 0, 0x68, 0, 2, 0, 0xFE, 0xFF, 0xFF, 0x7F] ++ List.replicate 20 0));
      let mem : BusReads := { mem := some [1, 2] };
      let s : State :=
      ({ blank.set (Reg.HIF_RING_CTRL_enable 128) 1 |>.set (Reg.HIF_RING_CTRL_log2_size 128) 4 |>.set (Reg.HIF_RING_CTRL_owner 128) 0 |>.set Reg.HIF_STATUS_standalone 0 with
        hif := { rings := [(128, { pIdx := 3 })], d3hot := true } }); s.settled ∧
      s.get Reg.HIF_STATUS_standalone = 0 ∧ s.hif.d3hot = true) := by
  refine ⟨?_, ?_, ?_, ?_, ?_, ?_, ?_, ?_, ?_, ?_, ?_, ?_, ?_, ?_, ?_, ?_, ?_, ?_, ?_, ?_, ?_⟩ <;> decide +kernel

theorem test_MailboxesComplete_met :
    (let t : Nat := 1000; let m : Master := (.coreS 3); let n : Fin 32 := 31; let val : Word := 0xB5;
      let a : Nat := 2; let c : Nat := 3; let s : State := (blank.set (Reg.MBX_CH_CFG_enable 31) 0); s.settled ∧
      masterNow s m = m ∧ (endpointOf m).2 = true ∧ s.get (Reg.MBX_CH_CFG_enable n) = 0 ∧ bits val.toNat 0 1 = 1 ∧
      a = bits val.toNat 1 3 ∧ c = bits val.toNat 4 3 ∧ a ≠ c ∧ 1 ≤ a ∧ a ≤ 4 ∧ 1 ≤ c ∧ c ≤ 4) ∧
    (let t : Nat := 1000; let m : Master := (.coreNs 1); let n : Fin 32 := 31; let len : BitVec 4 := 8;
      let k : Nat := 8; let s : State :=
      ({ (blank.set (Reg.MBX_CH_CFG_enable 31) 1 |>.set (Reg.MBX_CH_CFG_sender 31) 2 |>.set (Reg.MBX_CH_CFG_receiver 31) 3 |>.set Reg.PWR_DOM_core_down 0) with
        mbx := {
          chans := [(31, {
            msgs := [{ words := [1, 2], txEpoch := 3, rxEpoch := 4, seq := 9 },
              { words := [1, 2], txEpoch := 3, rxEpoch := 4, seq := 9 },
              { words := [1, 2], txEpoch := 3, rxEpoch := 4, seq := 9 }], seq := 65535 })] } }); s.settled ∧
      masterNow s m = m ∧ chanRefuses s m n .sender = false ∧ endDown s (s.get (Reg.MBX_CH_CFG_receiver n)) = false ∧
      k = len.toNat ∧ 1 ≤ k ∧ k ≤ 8 ∧ (chanOf s n).msgs.length < 4) ∧
    (let t : Nat := 1000; let m : Master := (.coreNs 1); let n : Fin 32 := 31; let len : BitVec 4 := 1;
      let s : State :=
      ({ (blank.set (Reg.MBX_CH_CFG_enable 31) 1 |>.set (Reg.MBX_CH_CFG_sender 31) 2 |>.set (Reg.MBX_CH_CFG_receiver 31) 3 |>.set Reg.PWR_DOM_core_down 0) with
        mbx := {
          chans := [(31, {
            msgs := [{ words := [1, 2], txEpoch := 3, rxEpoch := 4, seq := 9 },
              { words := [1, 2], txEpoch := 3, rxEpoch := 4, seq := 9 },
              { words := [1, 2], txEpoch := 3, rxEpoch := 4, seq := 9 },
              { words := [1, 2], txEpoch := 3, rxEpoch := 4, seq := 9 }], seq := 65535 })] } }); s.settled ∧
      masterNow s m = m ∧ chanRefuses s m n .sender = false ∧ endDown s (s.get (Reg.MBX_CH_CFG_receiver n)) = false ∧
      1 ≤ len.toNat ∧ len.toNat ≤ 8 ∧ 4 ≤ (chanOf s n).msgs.length) ∧
    (let t : Nat := 1000; let m : Master := (.coreNs 2); let n : Fin 32 := 31;
      let x : Msg := { words := [1, 2], txEpoch := 3, rxEpoch := 4, seq := 9 };
      let l : List Msg := [{ words := [1, 2], txEpoch := 3, rxEpoch := 4, seq := 9 }];
      let s : State :=
      ({ (blank.set (Reg.MBX_CH_CFG_enable 31) 1 |>.set (Reg.MBX_CH_CFG_sender 31) 2 |>.set (Reg.MBX_CH_CFG_receiver 31) 3 |>.set Reg.PWR_DOM_core_down 0) with
        mbx := { chans := [(31, { msgs := x :: l, seq := 65535 })] } }); s.settled ∧ masterNow s m = m ∧
      chanRefuses s m n .receiver = false ∧ endDown s (s.get (Reg.MBX_CH_CFG_receiver n)) = false ∧
      (chanOf s n).msgs = x :: l ∧ l.length < 8) ∧
    (let t : Nat := 1000; let m : Master := .host; let n : Fin 32 := 31; let k : Fin 64 := 32; let ab : Bool := true;
      let s : State := ({ blank with mbx := { sems := [(32, ⟨0, true⟩)] } }); s.settled ∧ masterNow s m = m ∧
      (k.val < 32 → (endpointOf m).2 = true) ∧ semOf s k = ⟨0, ab⟩) ∧
    (let t : Nat := 1000; let m : Master := (.coreS 3); let n : Fin 32 := 31; let k : Fin 64 := 0;
      let val : Word := 0x18C; let s : State := ({ blank with mbx := { sems := [(0, ⟨140, false⟩)] } }); s.settled ∧
      masterNow s m = m ∧ (semOf s k).owner = ownerId m ∧ val.toNat % 256 = ownerId m) ∧
    (let t : Nat := 1000; let m : Master := (.coreS 3); let n : Fin 32 := 31; let k : Fin 64 := 63;
      let s : State := ({ blank with mbx := { sems := [(63, ⟨140, false⟩)] } }); s.settled ∧ masterNow s m = m ∧
      (endpointOf m).2 = true) ∧
    (let t : Nat := 1000; let m : Master := .host; let n : Fin 32 := 31; let v : Fin 64 := 63;
      let up : List Nat := [1, 3]; let s : State :=
      ({ (blank.set (Reg.MBX_CIRQ_CFG_targets 63) 11 |>.set Reg.PWR_DOM_core_down 5) with
        mbx := { lines := [5, 63] } }); s.settled ∧ v.val ∈ s.mbx.lines ∧ up = (List.range 4).filter (fun c =>
      bits (s.get (Reg.MBX_CIRQ_CFG_targets v)) c 1 == 1 && bits (coresDown s) c 1 == 0) ∧ up ≠ []) := by
  refine ⟨?_, ?_, ?_, ?_, ?_, ?_, ?_, ?_⟩ <;> decide +kernel

theorem test_EthernetCompletes_met :
    (let t : Nat := 1000; let i : Fin 2 := 1; let ts : Nat := 900; let frame : List Byte := [];
      let s : State :=
      ({ (blank.set (Reg.ETH_CTRL_enable 1) 0 |>.set (Reg.ETH_UC_HI_valid 1 0) 1 |>.set (Reg.ETH_CTRL_mode 1) 2 |>.set (Reg.ETH_CTRL_an_en 1) 1) with
        claims := [] }); s.settled ∧ s.get (Reg.ETH_CTRL_enable i) = 0 ∧ s.get (Reg.ETH_UC_HI_valid i 0) ≠ 0 ∧
      claimFree s 0x1A 35 = true) ∧
    (let t : Nat := 1000; let i : Fin 2 := 1; let ts : Nat := 900; let frame : List Byte := [];
      let s : State := ({ (blank.set (Reg.ETH_CTRL_enable 1) 1 |>.set (Reg.ETH_CTRL_enable 0) 0) with
        claims := [(35, ⟨false, 0x1A⟩)], eth := [(1, {
          rxq := [({ ingress := .eth 1, octets := [1, 2, 3] }, 64)], lock := true })] }); s.settled ∧
      s.get (Reg.ETH_CTRL_enable i) ≠ 0) ∧
    (let t : Nat := 1000; let i : Fin 2 := 1; let ts : Nat := 900; let frame : List Byte := [];
      let pause : BitVec 2 := 3; let g : Bool := true;
      let s : State :=
      ({ (blank.set (Reg.ETH_STATUS_state 1) 1).set (Reg.ETH_CTRL_mode 1) 2 |>.set (Reg.ETH_CTRL_an_en 1) 1 |>.set (Reg.ETH_STATUS_paused 1) 0 |>.set (Reg.ETH_CTRL_standby 1) 0 with
        eth := [(1, {
          txq := [{
            ref := 3, port := 5, svc := 2, octets := [5, 6, 7], pool := 3, bufs := 1, last := false }] })] });
      s.settled ∧ ethState s i = 1 ∧ (ethOf s i).lock = false ∧ s.get (Reg.ETH_CTRL_standby i) = 0 ∧
      g = (s.get (Reg.ETH_STATUS_paused i) == 0 && !(ethOf s i).txq.isEmpty && !(ethOf s i).sending)) ∧
    (let t : Nat := 1000; let i : Fin 2 := 1; let ts : Nat := 900; let frame : List Byte := [];
      let receiving : Bool := true; let s : State := ({ (blank.set (Reg.ETH_STATUS_state 1) 2) with
        eth := [(1, { lock := true })] }); s.settled ∧ ethState s i ≠ 0 ∧ (ethOf s i).lock = true) ∧
    (let t : Nat := 1000; let i : Fin 2 := 1; let ts : Nat := 900; let frame : List Byte := (List.replicate 63 0);
      let c : Nat := (Reg.ETH_CNT_RX_RUNT 1); let s : State := ({ (blank.set (Reg.ETH_STATUS_state 1) 2) with
        eth := [(1, { lock := true })] }); s.settled ∧ (ethOf s i).lock = true ∧ ethState s i = 2 ∧
      rxFill (ethOf s i) + frame.length ≤ 65536 ∧ ethCheck s i frame = .drop c) ∧
    (let t : Nat := 1000; let i : Fin 2 := 1; let ts : Nat := 900; let frame : List Byte := (let l := ([0x01, 0x80,
      0xC2, 0x00, 0x00, 0x01, 2, 0, 0, 0, 0, 9, 0x88, 8, 0, 1, 0, 2] ++ List.replicate 42 0 : List Byte);
      l ++ leOctets 4 (ethCrc l)); let time : Nat := 2;
      let s : State :=
      ({ ((blank.set (Reg.ETH_STATUS_state 1) 2).set (Reg.ETH_CTRL_bcast_en 1) 1 |>.set (Reg.ETH_FRAME_CFG_max_len 1) 1522 |>.set Reg.TWN_ETYPE_etype 0x88B5 |>.set (Reg.ETH_PTP_CFG_ts_rx_mode 1) 0 |>.set (Reg.ETH_CTRL_vlan_en 1) 0 |>.set (Reg.ETH_CTRL_pause_rx_en 1) 1 |>.set (Reg.ETH_STATUS_wd_holdoff 1) 0) with
        eth := [(1, { lock := true })] }); s.settled ∧ (ethOf s i).lock = true ∧ ethState s i = 2 ∧
      rxFill (ethOf s i) + frame.length ≤ 65536 ∧ ethCheck s i frame = .pause time ∧ 0 < time ∧
      s.get (Reg.ETH_STATUS_wd_holdoff i) = 0) ∧
    (let t : Nat := 1000; let i : Fin 2 := 1; let ts : Nat := 900; let frame : List Byte := (let l := ([0xFF, 0xFF,
      0xFF, 0xFF, 0xFF, 0xFF, 2, 0, 0, 0, 0, 9, 0x86, 0xDD] ++ List.replicate 46 3 : List Byte);
      l ++ leOctets 4 (ethCrc l)); let e : Nat := 12; let ty : Nat := 0x86DD; let l : List Byte := (([0xFF, 0xFF,
      0xFF, 0xFF, 0xFF, 0xFF, 2, 0, 0, 0, 0, 9, 0x86, 0xDD] ++ List.replicate 46 3 : List Byte));
      let s : State :=
      ({ ((blank.set (Reg.ETH_STATUS_state 1) 2).set (Reg.ETH_CTRL_bcast_en 1) 1 |>.set (Reg.ETH_FRAME_CFG_max_len 1) 1522 |>.set Reg.TWN_ETYPE_etype 0x88B5 |>.set (Reg.ETH_PTP_CFG_ts_rx_mode 1) 0 |>.set (Reg.ETH_CTRL_vlan_en 1) 0) with
        eth := [(1, {
          lock := true, rxq := [({ ingress := .eth 1, octets := [1, 2, 3] }, 64)] })] }); s.settled ∧
      (ethOf s i).lock = true ∧ ethState s i = 2 ∧ rxFill (ethOf s i) + frame.length ≤ 65536 ∧
      ethCheck s i frame = .accept e ∧ ty = ofBe (octetsAt (frame.take (frame.length - 4)) e 2) ∧
      ty ≠ s.get Reg.TWN_ETYPE_etype ∧ l = frame.take (frame.length - 4)) ∧
    (let t : Nat := 1000; let i : Fin 2 := 1; let ts : Nat := 900; let frame : List Byte := [];
      let w : WaitFrame := { ingress := .eth 1, octets := [1, 2, 3] }; let n : Nat := 300;
      let l : List (WaitFrame × Nat) := [(w, 64)];
      let s : State :=
      ({ ((blank.set (Reg.ETH_STATUS_state 1) 2).set (Reg.ETH_RXBUF_CFG_rx_pool_max 1) 2047 |>.set (Reg.CTX_POOL_FREE_free 3) 16383 |>.set (Reg.ETH_CTRL_pause_tx_en 1) 1 |>.set (Reg.ETH_RXBUF_CFG_xoff_thr 1) 3 |>.set (Reg.ETH_RXBUF_CFG_xon_thr 1) 2) with
        eth := [(1, { rxq := (w, n) :: l, xoff := true })] }); s.settled ∧ (ethOf s i).rxq = (w, n) :: l ∧
      ethState s i ≠ 3 ∧ ethHeld s i < atLeast1 (s.get (Reg.ETH_RXBUF_CFG_rx_pool_max i)) ∧
      buffersFor n ≤ poolFree s 3 ∧ poolFree s 3 < 2 ^ 15) ∧
    (let t : Nat := 1000; let i : Fin 2 := 1; let ts : Nat := 900; let frame : List Byte := []; let x : Nat := 1000;
      let g : Bool := true; let s : State :=
      ({ (blank.set (Reg.ETH_STATUS_state 1) 2).set (Reg.ETH_CTRL_standby 1) 0 with
        eth := [(1, {
          pauseEnd := some x, txq := [{
            ref := 3, port := 5, svc := 2, octets := [5, 6, 7], pool := 3, bufs := 1, last := false }] })] });
      s.settled ∧ (ethOf s i).pauseEnd = some x ∧ x ≤ max s.ltb t ∧
      g = (ethState s i == 2 && s.get (Reg.ETH_CTRL_standby i) == 0 && !(ethOf s i).txq.isEmpty &&
      !(ethOf s i).sending)) ∧
    (let t : Nat := 5000000; let i : Fin 2 := 1; let ts : Nat := 900; let frame : List Byte := [];
      let x : Nat := 9000000; let y : Nat := 2000000;
      let s : State := ({ (blank.set (Reg.ETH_STATUS_state 1) 2).set (Reg.ETH_PAUSE_CFG_wd_holdoff_ms 1) 500 with
        eth := [(1, { pauseEnd := some x, pauseAt := 1000000, pauseWd := 1 })] }); s.settled ∧
      (ethOf s i).pauseEnd = some x ∧ y = (ethOf s i).pauseAt + (ethOf s i).pauseWd * 1000000 ∧ y ≤ max s.ltb t ∧
      y ≤ x) ∧
    (let t : Nat := 1000; let i : Fin 2 := 1; let ts : Nat := 900; let frame : List Byte := []; let x : Nat := 1000;
      let s : State := ({ (blank.set (Reg.ETH_STATUS_state 1) 2).set (Reg.ETH_STATUS_wd_holdoff 1) 1 with
        eth := [(1, { holdEnd := some x })] }); s.settled ∧ (ethOf s i).holdEnd = some x ∧ x ≤ max s.ltb t) ∧
    (let t : Nat := 1000; let i : Fin 2 := 1; let ts : Nat := 900; let frame : List Byte := [];
      let s : State :=
      ({ ((blank.set (Reg.ETH_STATUS_state 1) 2).set (Reg.ETH_CTRL_pause_tx_en 1) 1 |>.set (Reg.ETH_RXBUF_CFG_xoff_thr 1) 1) with
        eth := [(1, { rxq := [({ ingress := .eth 1, octets := [1, 2, 3] }, 1024)] })] });
      let l : List Byte := (pauseFrame s i (pauseQuanta s i)); s.settled ∧ s.get (Reg.ETH_CTRL_pause_tx_en i) ≠ 0 ∧
      ethState s i = 2 ∧ (ethOf s i).xoff = false ∧ xoffThr s i ≤ rxFill (ethOf s i) ∧ (ethOf s i).sending = false ∧
      l = pauseFrame s i (pauseQuanta s i)) ∧
    (let t : Nat := 1000; let i : Fin 2 := 1; let ts : Nat := 900; let frame : List Byte := [];
      let s : State :=
      ({ ((blank.set (Reg.ETH_STATUS_state 1) 2).set (Reg.ETH_CTRL_pause_tx_en 1) 1 |>.set (Reg.ETH_RXBUF_CFG_xoff_thr 1) 1) with
        eth := [(1, {
          sending := true, txq := [{
            ref := 3, port := 5, svc := 2, octets := [5, 6, 7], pool := 3, bufs := 1, last := false }],
          rxq := [({ ingress := .eth 1, octets := [1, 2, 3] }, 1024)] })] }); s.settled ∧
      s.get (Reg.ETH_CTRL_pause_tx_en i) ≠ 0 ∧ ethState s i = 2 ∧ (ethOf s i).xoff = false ∧
      xoffThr s i ≤ rxFill (ethOf s i) ∧ (ethOf s i).sending = true) ∧
    (let t : Nat := 1000; let i : Fin 2 := 1; let ts : Nat := 900; let frame : List Byte := []; let f : EscFrame := {
        ref := 3, port := 5, svc := 2, octets := [5, 6, 7], pool := 3, bufs := 1, last := false };
      let l : List EscFrame := [f]; let s : State :=
      ({ ((blank.set (Reg.ETH_STATUS_state 1) 2).set (Reg.ETH_STATUS_paused 1) 0 |>.set (Reg.ETH_CTRL_standby 1) 0) with
        eth := [(1, { sending := true, txq := f :: l, pauseQ := [65535, 0] })] }); s.settled ∧
      (ethOf s i).sending = true ∧ (ethOf s i).txq = f :: l ∧ f.ptp = false ∧ f.host = none ∧ f.mark = none ∧
      f.pool < 6 ∧ ethState s i = 2 ∧ s.get (Reg.ETH_CTRL_standby i) = 0) ∧
    (let t : Nat := 1000; let i : Fin 2 := 1; let ts : Nat := 900; let frame : List Byte := [];
      let s : State := ((blank.set (Reg.ETH_STATUS_state 1) 2)); s.settled ∧ (ethState s i = 1 ∨ ethState s i = 2) ∧
      (ethOf s i).sending = false) ∧
    (let t : Nat := 1000; let i : Fin 2 := 1; let ts : Nat := 900; let frame : List Byte := [];
      let s : State := ({ (blank.set (Reg.ETH_STATUS_state 1) 3) with
        eth := [(1, { lock := true })] }); s.settled ∧ ethState s i = 3 ∧ (ethOf s i).txq = []) := by
  refine ⟨?_, ?_, ?_, ?_, ?_, ?_, ?_, ?_, ?_, ?_, ?_, ?_, ?_, ?_, ?_, ?_⟩ <;> decide +kernel

theorem test_TwinPairCompletes_met :
    (let t : Nat := 1000; let p : Fin 2 := 0;
      let s : State :=
      ({ (blank.set Reg.TWN_CTRL_enable 0 |>.set Reg.TWN_CTRL_role 2 |>.set Reg.TWN_CTRL_hb_port 1 |>.set (Reg.ETH_CTRL_enable 1) 1) with
        claims := [] }); s.settled ∧ s.get Reg.TWN_CTRL_enable = 0 ∧ twinRole s ≠ 0 ∧
      s.get (Reg.ETH_CTRL_enable (hbPort s)) ≠ 0 ∧ claimFree s 0x16 31 = true ∧ claimFree s 0x1C 37 = true) ∧
    (let t : Nat := 1000; let p : Fin 2 := 0; let s : State := ({ (blank.set Reg.TWN_CTRL_enable 1) with
        claims := [(31, ⟨false, 0x16⟩), (37, ⟨false, 0x1C⟩)] }); s.settled ∧ s.get Reg.TWN_CTRL_enable ≠ 0) ∧
    (let t : Nat := 1000; let p : Fin 2 := 0;
      let s : State := ({ (blank.set Reg.TWN_STATUS_state 3 |>.set Reg.TWN_CTRL_role 1) with
        twn := { pairSeq := 15 } }); s.settled ∧ twnState s ≠ 0 ∧ s.twn.pairAt ≤ max s.ltb t) ∧
    (let t : Nat := 1000; let p : Fin 2 := 0;
      let s : State :=
      ({ ((blank.set Reg.TWN_STATUS_state 3 |>.set Reg.TWN_CTRL_role 1).set Reg.TWN_CTRL_hb_port 1 |>.set (Reg.ETH_STATUS_state 1) 2 |>.set (Reg.ETH_STATUS_paused 1) 0 |>.set (Reg.ETH_CTRL_standby 1) 0) with
        twn := { ethSeq := 15 } }); s.settled ∧ twnState s ≠ 0 ∧ s.twn.ethAt ≤ max s.ltb t ∧
      ethMaySend s (hbPort s) = true) ∧
    (let t : Nat := 1000; let p : Fin 2 := 0; let word : BitVec 40 := (let w := 0xA5 + 0x100 + 0x1234000;
      BitVec.ofNat 40 (w + 2 ^ 32 * crc8 (leOctets 4 w))); let w : Nat := (let w := 0xA5 + 0x100 + 0x1234000;
      w + 2 ^ 32 * crc8 (leOctets 4 w)); let s : State :=
      ((blank.set Reg.TWN_STATUS_state 1 |>.set Reg.TWN_CTRL_role 1)); s.settled ∧ w = word.toNat ∧
      bits w 0 8 = 0xA5 ∧ bits w 32 8 = crc8 (leOctets 4 w) ∧ twnState s ≠ 0 ∧ bits w 8 2 = twinRole s) ∧
    (let t : Nat := 1000; let p : Fin 2 := 0; let word : BitVec 40 := (let w := 0xA5 + 0x200 + 0x1234C00;
      BitVec.ofNat 40 (w + 2 ^ 32 * crc8 (leOctets 4 w))); let w : Nat := (let w := 0xA5 + 0x200 + 0x1234C00;
      w + 2 ^ 32 * crc8 (leOctets 4 w)); let s : State :=
      ((blank.set Reg.TWN_STATUS_state 1 |>.set Reg.TWN_CTRL_role 1)); s.settled ∧ w = word.toNat ∧
      bits w 0 8 = 0xA5 ∧ bits w 32 8 = crc8 (leOctets 4 w) ∧ twnState s = 1 ∧ bits w 8 2 ≠ twinRole s ∧
      (bits w 8 2 = 1 ∨ bits w 8 2 = 2)) ∧
    (let t : Nat := 1000; let p : Fin 2 := 0; let i : Fin 2 := 1;
      let octets : List Byte := [1, 14, 0xFE, 0xFF, 0, 0, 0, 0, 0, 0, 0, 0];
      let s : State := (((blank.set Reg.TWN_STATUS_state 1 |>.set Reg.TWN_CTRL_role 1).set Reg.TWN_CTRL_hb_port 1));
      s.settled ∧ i.val = hbPort s ∧ octet octets 0 = 1 ∧ 12 ≤ octets.length ∧ twnState s = 1 ∧
      octet octets 1 % 4 ≠ twinRole s ∧ (octet octets 1 % 4 = 1 ∨ octet octets 1 % 4 = 2)) ∧
    (let t : Nat := 1000; let p : Fin 2 := 0; let i : Fin 2 := 1;
      let octets : List Byte := [1, 14, 0xFE, 0xFF, 0, 0, 0, 0, 0, 0, 0, 0]; let e : Nat := 0xFFFE;
      let s : State := (((blank.set Reg.TWN_STATUS_state 3 |>.set Reg.TWN_CTRL_role 1).set Reg.TWN_CTRL_hb_port 1
      |>.set Reg.TWN_PART_STAT_part_epoch 0xFFFF)); s.settled ∧ i.val = hbPort s ∧ octet octets 0 = 1 ∧
      12 ≤ octets.length ∧ twnState s = 3 ∧ octet octets 1 % 4 ≠ twinRole s ∧
      (octet octets 1 % 4 = 1 ∨ octet octets 1 % 4 = 2) ∧ e = ofLe (octetsAt octets 2 2) ∧
      s.get Reg.TWN_PART_STAT_part_epoch ≠ e) ∧
    (let t : Nat := 9000000000; let p : Fin 2 := 1; let last : Nat := 1000; let n : Nat := 3;
      let c : Nat := Reg.TWN_CNT_ETH_MISS; let s : State :=
      ({ (blank.set Reg.TWN_STATUS_state 3 |>.set Reg.TWN_CTRL_role 1).set Reg.TWN_HB_CFG_hb_miss 3 with
        twn := { eth := { last := some last, miss := 2, up := true } } }); s.settled ∧ (pathOf s p).last = some last ∧
      twnState s = 3 ∧ missDue s p last (pathOf s p).miss ≤ max s.ltb t ∧ (pathOf s p).up = true ∧
      n = (pathOf s p).miss + 1 ∧ atLeast1 (s.cur Reg.TWN_HB_CFG_hb_miss) ≤ n ∧ (pathOf s (1 - p.val)).up = false ∧
      c = (if p = 0 then Reg.TWN_CNT_PAIR_MISS else Reg.TWN_CNT_ETH_MISS)) ∧
    (let t : Nat := 9000000000; let p : Fin 2 := 0; let last : Nat := 1000; let n : Nat := 2;
      let c : Nat := Reg.TWN_CNT_PAIR_MISS; let s : State :=
      ({ (blank.set Reg.TWN_STATUS_state 3 |>.set Reg.TWN_CTRL_role 1).set Reg.TWN_HB_CFG_hb_miss 3 with
        twn := { pair := { last := some last, miss := 1, up := true } } }); s.settled ∧
      (pathOf s p).last = some last ∧ twnState s ≠ 0 ∧ missDue s p last (pathOf s p).miss ≤ max s.ltb t ∧
      n = (pathOf s p).miss + 1 ∧ ((pathOf s p).up = false ∨ n < atLeast1 (s.cur Reg.TWN_HB_CFG_hb_miss)) ∧
      c = (if p = 0 then Reg.TWN_CNT_PAIR_MISS else Reg.TWN_CNT_ETH_MISS)) ∧
    (let t : Nat := 1000000; let p : Fin 2 := 0;
      let s : State :=
      ({ (blank.set Reg.TWN_STATUS_state 2 |>.set Reg.TWN_CTRL_role 1).set Reg.TWN_PART_STAT_part_state 2 with
        twn := { rejoin := 1 } }); s.settled ∧ twnState s = 2 ∧ 2 ≤ s.get Reg.TWN_PART_STAT_part_state ∧
      s.twn.joinAt + s.twn.rejoin * 1000000 ≤ max s.ltb t) ∧
    (let t : Nat := 3000000; let p : Fin 2 := 0; let l : List Cycle := []; let y : Cycle := (⟨32, 2500000, 20000000⟩);
      let s : State :=
      ({ (blank.set Reg.TWN_STATUS_state 3 |>.set Reg.TWN_CTRL_role 1).set Reg.BAL_STATUS_state 3 |>.set Reg.TWN_STATUS_split 0 with
        bal := { cycles := l ++ [y] }, twn := { pairedAt := 400000, splitCyc := 16 } }); s.settled ∧ twnState s = 3 ∧
      s.get Reg.BAL_STATUS_state ≠ 0 ∧ s.bal.cycles = l ++ [y] ∧ (s.twn.pairedAt : Int) + 2000000 ≤ y.s ∧
      y.s ≤ ((max s.ltb t : Nat) : Int) ∧ y.k % s.twn.splitCyc = 0) := by
  refine ⟨?_, ?_, ?_, ?_, ?_, ?_, ?_, ?_, ?_, ?_, ?_, ?_⟩ <;> decide +kernel

theorem test_TwinLinkCompletes_met :
    (let t : Nat := 1000; let n : Nat := 1023;
      let s : State := (blank.set Reg.TWN_CTRL_enable 1 |>.set Reg.TWN_STATUS_link_up 0); s.settled ∧
      s.get Reg.TWN_CTRL_enable ≠ 0 ∧ s.get Reg.TWN_STATUS_link_up = 0) ∧
    (let t : Nat := 1000; let s : State := ({ blank.set Reg.TWN_STATUS_link_up 1 with
        twn := { credits := 4, stall := some 100 } }); s.settled ∧ s.get Reg.TWN_STATUS_link_up ≠ 0) ∧
    (let t : Nat := 1000; let n : Nat := 3; let s : State := ({ blank.set Reg.TWN_STATUS_link_up 1 with
        twn := { credits := 4, stall := some 100 } }); s.settled ∧ s.get Reg.TWN_STATUS_link_up ≠ 0) ∧
    (let t : Nat := 1000; let kind : Fin 3 := 0; let profile : Fin 32 := 31; let rssi : Int := (-900);
      let lqi : BitVec 8 := 255; let angle : BitVec 48 := 77; let l : List Byte := [1, 2, 3];
      let s : State := (blank.set Reg.TWN_CTRL_enable 1 |>.set Reg.TWN_STATUS_link_up 1 |>.set
      (Reg.CTX_POOL_FREE_free 5) 1); s.settled ∧ s.get Reg.TWN_STATUS_link_up ≠ 0 ∧ s.get Reg.TWN_CTRL_enable ≠ 0 ∧
      buffersFor l.length ≤ poolFree s 5 ∧ poolFree s 5 < 2 ^ 15) := by
  refine ⟨?_, ?_, ?_, ?_⟩ <;> decide +kernel

theorem test_UpdateCompletes_met :
    (let t : Nat := 1000; let header : List Byte := image3; let h : List Byte := (octetsAt header 0 256);
      let s : State :=
      ({ (blank.set Reg.CRN_STATUS_state 0 |>.set Reg.CRN_STATUS_busy 0 |>.set Reg.CRN_STAGE_LO_stage 8192 |>.set Reg.CRN_SRC_LEN_src_len 257) with
        crn := { staged := [1] }, fuses := { signer1 := some imageKey, lcState := 1 } }); s.settled ∧
      s.get Reg.CRN_STATUS_busy = 0 ∧ (s.get Reg.CRN_STATUS_state = 0 ∨ s.get Reg.CRN_STATUS_state = 3) ∧
      h = octetsAt header 0 256 ∧ headerTest s h (some (s.get Reg.CRN_SRC_LEN_src_len)) = 0 ∧ compatible s h = true) ∧
    (let t : Nat := 1000; let body : List Byte := [1, 2]; let n : Nat := 1;
      let s : State := ({ (blank.set Reg.CRN_STATUS_state 1 |>.set Reg.CRN_STATUS_busy 1) with
        crn := { staged := image3 } }); s.settled ∧ s.get Reg.CRN_STATUS_state = 1 ∧ n = hdrBodyLen s.crn.staged ∧
      n < 2 ^ 31) ∧
    (let t : Nat := 1000; let s : State := ({ (blank.set Reg.CRN_STATUS_state 2 |>.set Reg.CRN_STATUS_busy 1) with
        crn := { staged := image3 }, hif := { mem := [(256, 5)] } }); s.settled ∧ s.get Reg.CRN_STATUS_state = 2 ∧
      sha256 (stagedBody s (hdrBodyLen s.crn.staged)) = hdrDigest s.crn.staged) ∧
    (let t : Nat := 1000; let s : State := ({ (blank.set Reg.CRN_STATUS_state 2 |>.set Reg.CRN_STATUS_busy 1) with
        crn := { staged := image3 }, hif := { mem := [(256, 6)] } }); s.settled ∧ s.get Reg.CRN_STATUS_state = 2 ∧
      sha256 (stagedBody s (hdrBodyLen s.crn.staged)) ≠ hdrDigest s.crn.staged) ∧
    (let t : Nat := 1000; let s : State := ({ (blank.set Reg.CRN_STATUS_state 2 |>.set Reg.CRN_STATUS_busy 1) with
        crn := { staged := image3 } }); s.settled ∧ (s.get Reg.CRN_STATUS_state = 1 ∨ s.get Reg.CRN_STATUS_state = 2 ∨
      s.get Reg.CRN_STATUS_state = 3)) ∧
    (let t : Nat := 1000; let h : List Byte := image3; let c : Nat := 3;
      let s : State :=
      ({ (blank.set Reg.CRN_STATUS_state 3 |>.set Reg.CRN_STATUS_busy 0 |>.set Reg.TWN_CTRL_enable 1 |>.set Reg.TWN_CTRL_role 1 |>.set Reg.TWN_STATUS_state 3) with
        crn := {
          staged := h, copy0 := { slots := [(1, { state := 3, version := 9 })] },
          images := [(1, { header := image1 })] } }); s.settled ∧ s.get Reg.CRN_STATUS_busy = 0 ∧
      s.get Reg.CRN_STATUS_state = 3 ∧ h = s.crn.staged ∧ c = hdrComp h ∧
      (bootRecord s).slots.any (fun e => e.2.state == 2) = false ∧ compatible s h = true ∧
      (s.get Reg.TWN_CTRL_enable = 0 ∨ s.get Reg.TWN_CTRL_role = 0 ∨ s.get Reg.TWN_STATUS_state = 3 ∨
      s.get Reg.CRN_CTRL_force_unpaired ≠ 0)) ∧
    (let t : Nat := 1000; let h : List Byte := image3; let c : Nat := 3; let n : Nat := 1;
      let s : State := ({ (blank.set Reg.CRN_STATUS_state 4 |>.set Reg.CRN_STATUS_busy 1) with
        crn := { staged := h }, hif := { mem := [(256, 5)] } }); s.settled ∧ s.get Reg.CRN_STATUS_state = 4 ∧
      h = s.crn.staged ∧ c = hdrComp h ∧ n = hdrBodyLen h ∧ n < 2 ^ 31 ∧ sha256 (stagedBody s n) = hdrDigest h) ∧
    (let t : Nat := 1000; let c : Nat := 3; let ok : Bool := false;
      let s : State := ({ (blank.set Reg.CRN_STATUS_state 4 |>.set Reg.CRN_STATUS_busy 1) with
        crn := { staged := image3 }, hif := { mem := [(256, 5)] } }); s.settled ∧ s.get Reg.CRN_STATUS_state = 4 ∧
      c = hdrComp s.crn.staged ∧ (ok = false ∨ sha256 (stagedBody s (hdrBodyLen s.crn.staged)) ≠ hdrDigest
      s.crn.staged)) := by
  refine ⟨?_, ?_, ?_, ?_, ?_, ?_, ?_, ?_⟩ <;> decide +kernel

theorem test_CrownCompletes_met :
    (let t : Nat := 1000; let comp : Fin 4 := 3; let c : Nat := 3;
      let s : State := ({ (blank.set Reg.CRN_STATUS_state 0 |>.set Reg.CRN_STATUS_busy 0) with
        crn := {
          copy0 := {
            dual := true, active := 1, slots := [(1, { state := 3, version := 2, trials := 0, trialMax := 3 }),
              (3, { state := 2, version := 2, trials := 1, trialMax := 3 })] } } }); s.settled ∧
      s.get Reg.CRN_STATUS_busy = 0 ∧ s.get Reg.CRN_STATUS_state = 0 ∧ comp.val = c ∧ c ≠ 0 ∧
      (crnSlot s c).state = 2) ∧
    (let t : Nat := 1000; let ok : Bool := true;
      let s : State := ({ (blank.set Reg.CRN_STATUS_state 5 |>.set Reg.CRN_STATUS_busy 1) with
        crn := {
          copy0 := {
            dual := true, active := 1, fmt0 := 3, fmt1 := 4,
            slots := [(1, { state := 3, version := 2, trials := 0, trialMax := 3 }),
              (3, { state := 3, version := 2, trials := 1, trialMax := 3 })] }, writing := [({}, {})],
          confirms := true } }); s.settled ∧ s.get Reg.CRN_STATUS_state = 5) ∧
    (let t : Nat := 1000; let s : State :=
      ({ (blank.set Reg.CRN_STATUS_busy 0 |>.set (Reg.CRN_KEYHASH_word 7) 0xFFFFFFFE) with
        fuses := { lcState := 1 } }); s.settled ∧ s.get Reg.CRN_STATUS_busy = 0 ∧ s.fuses.signer1 = none ∧
      s.fuses.lcState = 1) ∧
    (let t : Nat := 1000; let s : State :=
      ({ (blank.set Reg.CRN_STATUS_handed_over 0 |>.set Reg.CRN_STATUS_recovery 0) with
        crn := {
          copy0 := {
            slots := [(1, { state := 3, version := 2, trials := 0, trialMax := 3 }),
              (2, { state := 2, version := 2, trials := 2, trialMax := 3 }),
              (3, { state := 3, version := 2, trials := 0, trialMax := 3 })] },
          images := [(1, { header := image1, body := [5] }), (2, { header := image2, body := [5] }),
            (3, { header := image3, body := [5] })] }, straps := {},
        fuses := { signer1 := some imageKey, lcState := 1 } }); s.settled ∧ s.get Reg.CRN_STATUS_handed_over = 0 ∧
      s.get Reg.CRN_STATUS_recovery = 0 ∧ s.crn.cutBoots = 0 ∧ s.crn.writing = [] ∧ s.straps.boot ≠ 1 ∧
      slotReason (raiseFuse s) (crnSlot s 1) 1 = 0 ∧ slotReason (raiseFuse s) (crnSlot s 2) 2 = 0 ∧
      slotReason (raiseFuse s) (crnSlot s 3) 3 = 0 ∧ (((crnSlot s 1).state = 2 →
      (crnSlot s 1).trials < (crnSlot s 1).trialMax)) ∧ (((crnSlot s 2).state = 2 →
      (crnSlot s 2).trials < (crnSlot s 2).trialMax)) ∧ (((crnSlot s 3).state = 2 →
      (crnSlot s 3).trials < (crnSlot s 3).trialMax))) ∧
    (let t : Nat := 1000; let s : State :=
      ({ (blank.set Reg.CRN_STATUS_handed_over 0 |>.set Reg.CRN_STATUS_recovery 0) with
        straps := { boot := 1 }, crn := {
          copy0 := {
            slots := [(1, { state := 3, version := 2, trials := 0, trialMax := 3 })] } } }); s.settled ∧
      s.get Reg.CRN_STATUS_handed_over = 0 ∧ s.get Reg.CRN_STATUS_recovery = 0 ∧ s.crn.cutBoots = 0 ∧
      s.crn.writing = [] ∧ s.straps.boot = 1 ∧ s.straps.host = false) ∧
    (let t : Nat := 1000; let x : BootRecord := { seq := 4 }; let y : BootRecord := { good := false };
      let s : State := ({ (blank.set Reg.CRN_STATUS_handed_over 0 |>.set Reg.CRN_STATUS_recovery 0) with
        straps := { boot := 1 }, crn := {
          copy0 := { seq := 4 }, copy1 := {
            seq := 5, slots := [(1, { state := 1, version := 2, trials := 0, trialMax := 3 })] },
          images := [(1, { header := image1, body := [5] })], writing := [(x, y)] } });
      let p : State := ({ s with crn := { s.crn with copy0 := x, copy1 := y } }); s.settled ∧
      s.get Reg.CRN_STATUS_handed_over = 0 ∧ s.get Reg.CRN_STATUS_recovery = 0 ∧ s.crn.cutBoots = 0 ∧
      s.crn.writing = [(x, y)] ∧ s.crn.confirms = false ∧
      p = { s with crn := { s.crn with copy0 := x, copy1 := y } } ∧ s.straps.boot = 1 ∧ s.straps.host = false) := by
  refine ⟨?_, ?_, ?_, ?_, ?_, ?_⟩ <;> decide +kernel

theorem test_ChronographCompletes_met :
    (let t : Nat := 1000; let k : Fin 64 := 63; let c : Fin 4 := 3; let pc : BitVec 64 := 0xFFFFFFFFFFFFFFFE;
      let latency : BitVec 16 := 65535; let flags : BitVec 4 := 15; let secure : Bool := true; let retired : Nat := 5;
      let active : Nat := 9; let rises : Nat := 1; let n : Nat := (Reg.ETH_CNT_RX_OK 1);
      let s : State := ((blank.set (Reg.CHR_CNT_CFG_en 63) 0 |>.set (Reg.CHR_CNT_CFG_kind 63) 0 |>.set
      (Reg.CHR_CNT_SRC_src 63) (Reg.ETH_CNT_RX_OK 1))); s.settled ∧ s.get (Reg.CHR_CNT_CFG_en k) = 0 ∧
      s.get (Reg.CHR_CNT_CFG_kind k) = 0 ∧ n = s.get (Reg.CHR_CNT_SRC_src k) / 4 * 4 ∧ isCounterNow s n = true) ∧
    (let t : Nat := 1000; let k : Fin 64 := 63; let c : Fin 4 := 3; let pc : BitVec 64 := 0xFFFFFFFFFFFFFFFE;
      let latency : BitVec 16 := 65535; let flags : BitVec 4 := 15; let secure : Bool := true; let retired : Nat := 5;
      let active : Nat := 9; let rises : Nat := 1; let n : Nat := 0x17;
      let s : State := ((blank.set (Reg.CHR_CNT_CFG_en 63) 0 |>.set (Reg.CHR_CNT_CFG_kind 63) 1 |>.set
      (Reg.CHR_CNT_SRC_src 63) 0x17)); s.settled ∧ s.get (Reg.CHR_CNT_CFG_en k) = 0 ∧
      s.get (Reg.CHR_CNT_CFG_kind k) = 1 ∧ n = s.get (Reg.CHR_CNT_SRC_src k) ∧ (n ≤ 0x0B ∨ 0x10 ≤ n ∧ n ≤ 0x17)) ∧
    (let t : Nat := 1000; let k : Fin 64 := 63; let c : Fin 4 := 3; let pc : BitVec 64 := 0xFFFFFFFFFFFFFFFE;
      let latency : BitVec 16 := 65535; let flags : BitVec 4 := 15; let secure : Bool := true; let retired : Nat := 5;
      let active : Nat := 9; let rises : Nat := 1; let n : Nat := 3;
      let s : State :=
      ({ (blank.set (Reg.CHR_CNT_CFG_en 63) 0 |>.set (Reg.CHR_CNT_CFG_kind 63) 1 |>.set (Reg.CHR_CNT_SRC_src 63) 0x0F) with
        claims := [] }); s.settled ∧ s.get (Reg.CHR_CNT_CFG_en k) = 0 ∧ s.get (Reg.CHR_CNT_CFG_kind k) = 1 ∧
      s.get (Reg.CHR_CNT_SRC_src k) = 0x0C + n ∧ n < 4 ∧ claimFree s (0x11 + n) (9 + n) = true) ∧
    (let t : Nat := 1000; let k : Fin 64 := 63; let c : Fin 4 := 3; let pc : BitVec 64 := 0xFFFFFFFFFFFFFFFE;
      let latency : BitVec 16 := 65535; let flags : BitVec 4 := 15; let secure : Bool := true; let retired : Nat := 5;
      let active : Nat := 9; let rises : Nat := 1; let n : Nat := 0x20064;
      let s : State := ((blank.set (Reg.CHR_CNT_CFG_en 63) 0 |>.set (Reg.CHR_CNT_CFG_kind 63) 0 |>.set
      (Reg.CHR_CNT_SRC_src 63) 0x20064)); s.settled ∧ s.get (Reg.CHR_CNT_CFG_en k) = 0 ∧
      n = s.get (Reg.CHR_CNT_SRC_src k) ∧ ((s.get (Reg.CHR_CNT_CFG_kind k) = 0 ∧ isCounterNow s (n / 4 * 4) = false) ∨
      (s.get (Reg.CHR_CNT_CFG_kind k) ≠ 0 ∧ 0x17 < n))) ∧
    (let t : Nat := 1000; let k : Fin 64 := 63; let c : Fin 4 := 3; let pc : BitVec 64 := 0xFFFFFFFFFFFFFFFE;
      let latency : BitVec 16 := 65535; let flags : BitVec 4 := 15; let secure : Bool := true; let retired : Nat := 5;
      let active : Nat := 9; let rises : Nat := 1;
      let s : State :=
      ({ (blank.set (Reg.CHR_CNT_CFG_en 63) 1 |>.set (Reg.CHR_CNT_CFG_kind 63) 1 |>.set (Reg.CHR_CNT_SRC_src 63) 0x0F) with
        chr := { enabled := [(63, 1, 15)] }, claims := [(12, ⟨false, 0x14⟩)] }); s.settled ∧
      s.get (Reg.CHR_CNT_CFG_en k) ≠ 0) ∧
    (let t : Nat := 1000; let k : Fin 64 := 63; let c : Fin 4 := 3; let pc : BitVec 64 := 0xFFFFFFFFFFFFFFFE;
      let latency : BitVec 16 := 65535; let flags : BitVec 4 := 15; let secure : Bool := true; let retired : Nat := 5;
      let active : Nat := 9; let rises : Nat := 1; let val : Word := 0xFFFFFFFE;
      let s : State := ({ blank with chr := { enabled := [(63, 0, 0x120104)] } }); s.settled) ∧
    (let t : Nat := 9000; let k : Fin 64 := 63; let c : Fin 4 := 3; let pc : BitVec 64 := 0xFFFFFFFFFFFFFFFE;
      let latency : BitVec 16 := 65535; let flags : BitVec 4 := 15; let secure : Bool := true; let retired : Nat := 5;
      let active : Nat := 9; let rises : Nat := 1; let r : List Nat := [1, 2];
      let l : List (List Nat) := (List.replicate 31 [1, 3]); let s : State := ({ blank with
        chr := { recs := r :: l, spill := [[4], [5]], lost := 1 } }); s.settled ∧ s.chr.recs = r :: l ∧
      l.length < 32 ∧ s.ltb < t) ∧
    (let t : Nat := 900; let k : Fin 64 := 63; let c : Fin 4 := 3; let pc : BitVec 64 := 0xFFFFFFFFFFFFFFFE;
      let latency : BitVec 16 := 65535; let flags : BitVec 4 := 15; let secure : Bool := true; let retired : Nat := 5;
      let active : Nat := 9; let rises : Nat := 1; let r : List Nat := [1, 2]; let x : List Nat := [4];
      let l : List (List Nat) := (List.replicate 31 [1, 3]); let m : List (List Nat) := [[5]];
      let s : State := ({ { blank with ltb := 900 } with
        chr := { recs := r :: l, spill := [[4], [5]], fresh := 31 } }); s.settled ∧ s.chr.recs = r :: l ∧
      l.length < 32 ∧ t ≤ s.ltb ∧ s.chr.fresh ≤ l.length ∧ s.chr.spill = x :: m) ∧
    (let t : Nat := 1000; let k : Fin 64 := 63; let c : Fin 4 := 3; let pc : BitVec 64 := 0xFFFFFFFFFFFFFFFE;
      let latency : BitVec 16 := 65535; let flags : BitVec 4 := 15; let secure : Bool := true; let retired : Nat := 5;
      let active : Nat := 9; let rises : Nat := 1; let s : State := ({ blank with chr := { spill := [] } });
      s.settled ∧ s.chr.recs = []) ∧
    (let t : Nat := 1000; let k : Fin 64 := 63; let c : Fin 4 := 3; let pc : BitVec 64 := 0xFFFFFFFFFFFFFFFE;
      let latency : BitVec 16 := 65535; let flags : BitVec 4 := 15; let secure : Bool := true; let retired : Nat := 5;
      let active : Nat := 9; let rises : Nat := 1;
      let s : State := ({ (blank.set (Reg.CHR_IS_CFG_en 3) 1 |>.set Reg.PWR_DOM_core_down 0) with
        chr := {
          samples := [(3, List.replicate 7 { pc := 5, latency := 6, flags := 1, secure := false })],
          isLeft := [(3, 5)] } }); s.settled ∧ s.get (Reg.CHR_IS_CFG_en c) ≠ 0 ∧ endDown s (c.val + 1) = false ∧
      tabGetD s.chr.isLeft c 1 ≤ retired ∧ (isSamples s c).length < 8) ∧
    (let t : Nat := 1000; let k : Fin 64 := 63; let c : Fin 4 := 3; let pc : BitVec 64 := 0xFFFFFFFFFFFFFFFE;
      let latency : BitVec 16 := 65535; let flags : BitVec 4 := 15; let secure : Bool := true; let retired : Nat := 5;
      let active : Nat := 9; let rises : Nat := 1;
      let s : State := ({ (blank.set (Reg.CHR_IS_CFG_en 3) 1 |>.set Reg.PWR_DOM_core_down 0) with
        chr := {
          samples := [(3, List.replicate 8 { pc := 5, latency := 6, flags := 1, secure := false })],
          isLeft := [(3, 5)] } }); s.settled ∧ s.get (Reg.CHR_IS_CFG_en c) ≠ 0 ∧ endDown s (c.val + 1) = false ∧
      tabGetD s.chr.isLeft c 1 ≤ retired ∧ 8 ≤ (isSamples s c).length) ∧
    (let t : Nat := 1000; let k : Fin 64 := 63; let c : Fin 4 := 3; let pc : BitVec 64 := 0xFFFFFFFFFFFFFFFE;
      let latency : BitVec 16 := 65535; let flags : BitVec 4 := 15; let secure : Bool := true; let retired : Nat := 5;
      let active : Nat := 9; let rises : Nat := 1;
      let s : State := ({ (blank.set (Reg.CHR_IS_CFG_en 3) 1 |>.set Reg.PWR_DOM_core_down 0) with
        chr := { isLeft := [(3, 6)] } }); s.settled ∧ s.get (Reg.CHR_IS_CFG_en c) ≠ 0 ∧
      endDown s (c.val + 1) = false ∧ retired < tabGetD s.chr.isLeft c 1) ∧
    (let t : Nat := 9000; let k : Fin 64 := 63; let c : Fin 4 := 3; let pc : BitVec 64 := 0xFFFFFFFFFFFFFFFE;
      let latency : BitVec 16 := 65535; let flags : BitVec 4 := 15; let secure : Bool := true; let retired : Nat := 5;
      let active : Nat := 9; let rises : Nat := 1;
      let x : InsSample := { pc := 5, latency := 6, flags := 1, secure := false };
      let l : List InsSample := (List.replicate 7 { pc := 5, latency := 6, flags := 1, secure := false });
      let s : State := ({ blank with
        chr := {
          samples := [(3, x :: l)], isSpill := [(2, [x]), (3, [x, x])], isLost := 4 } }); s.settled ∧
      isSamples s c = x :: l ∧ l.length < 8 ∧ s.ltb < t) ∧
    (let t : Nat := 900; let k : Fin 64 := 63; let c : Fin 4 := 3; let pc : BitVec 64 := 0xFFFFFFFFFFFFFFFE;
      let latency : BitVec 16 := 65535; let flags : BitVec 4 := 15; let secure : Bool := true; let retired : Nat := 5;
      let active : Nat := 9; let rises : Nat := 1;
      let x : InsSample := { pc := 5, latency := 6, flags := 1, secure := false };
      let y : InsSample := { pc := 7, latency := 8, flags := 1, secure := true };
      let l : List InsSample := (List.replicate 7 { pc := 5, latency := 6, flags := 1, secure := false });
      let m : List InsSample := [x]; let s : State := ({ { blank with ltb := 900 } with
        chr := {
          samples := [(3, x :: l)], isSpill := [(2, [x]), (3, [y, x])] } }); s.settled ∧ isSamples s c = x :: l ∧
      l.length < 8 ∧ t ≤ s.ltb ∧ tabGetD s.chr.isFresh c 0 ≤ l.length ∧ tabGetD s.chr.isSpill c [] = y :: m) := by
  refine ⟨?_, ?_, ?_, ?_, ?_, ?_, ?_, ?_, ?_, ?_, ?_, ?_, ?_, ?_⟩ <;> decide +kernel

theorem test_ChipResetCompletes_met :
    (let t : Nat := 1000; let n : Fin 4 := 3; let rf : Int := (-400); let dig : Int := 1351;
      let c : Instr := (.vmonReset t); let k : Nat := 1;
      let s : State :=
      ({ ((blank.set Reg.PWR_TEMP_CFG_trip_c 200 |>.set (Reg.PWR_WDT_CFG_action 3) 1).set Reg.PWR_RST_CAUSE_cause 64) with
        pwr := { wdtStart := [(3, 7)], wdtMs := [(3, 0)] }, claims := [(3, ⟨false, 4⟩)],
        straps := { region := 1, host := true }, jwl := { lcTarget := some (2, 7) } }); s.pwr.held = false ∧
      s.pwr.porLow = false ∧ (∀ f ∈ keptFields, s.get f < 2 ^ f.w) ∧ (c, k) ∈ [(Instr.vmonReset t, 1),
      (.railFail t, 2), (.d2dLoss t, 6), (.chipResetCommand t 0xA55A, 4)] ++ (if
      ((10 * min 135 (s.get Reg.PWR_TEMP_CFG_trip_c) : Nat) : Int) < max rf dig then [(.thermalTrip t rf dig, 3)] else
      []) ++ (if s.get (Reg.PWR_WDT_CFG_action n) ≠ 0 ∧ (tabGet s.pwr.wdtStart n).any (fun x =>
      decide (x + tabGetD s.pwr.wdtMs n 5000 * 1000000 ≤ max s.ltb t)) = true then [(.watchdogExpiry t n, 5)] else
      [])) ∧
    (let t : Nat := 1000; let n : Fin 4 := 3; let rf : Int := (-400); let dig : Int := 1351;
      let c : Instr := (.railFail t); let k : Nat := 2;
      let s : State :=
      ({ ((blank.set Reg.PWR_TEMP_CFG_trip_c 200 |>.set (Reg.PWR_WDT_CFG_action 3) 1).set Reg.PWR_RST_CAUSE_cause 64) with
        pwr := { wdtStart := [(3, 7)], wdtMs := [(3, 0)] }, claims := [(3, ⟨false, 4⟩)],
        straps := { region := 1, host := true }, jwl := { lcTarget := some (2, 7) } }); s.pwr.held = false ∧
      s.pwr.porLow = false ∧ (∀ f ∈ keptFields, s.get f < 2 ^ f.w) ∧ (c, k) ∈ [(Instr.vmonReset t, 1),
      (.railFail t, 2), (.d2dLoss t, 6), (.chipResetCommand t 0xA55A, 4)] ++ (if
      ((10 * min 135 (s.get Reg.PWR_TEMP_CFG_trip_c) : Nat) : Int) < max rf dig then [(.thermalTrip t rf dig, 3)] else
      []) ++ (if s.get (Reg.PWR_WDT_CFG_action n) ≠ 0 ∧ (tabGet s.pwr.wdtStart n).any (fun x =>
      decide (x + tabGetD s.pwr.wdtMs n 5000 * 1000000 ≤ max s.ltb t)) = true then [(.watchdogExpiry t n, 5)] else
      [])) ∧
    (let t : Nat := 1000; let n : Fin 4 := 3; let rf : Int := (-400); let dig : Int := 1351;
      let c : Instr := (.d2dLoss t); let k : Nat := 6;
      let s : State :=
      ({ ((blank.set Reg.PWR_TEMP_CFG_trip_c 200 |>.set (Reg.PWR_WDT_CFG_action 3) 1).set Reg.PWR_RST_CAUSE_cause 64) with
        pwr := { wdtStart := [(3, 7)], wdtMs := [(3, 0)] }, claims := [(3, ⟨false, 4⟩)],
        straps := { region := 1, host := true }, jwl := { lcTarget := some (2, 7) } }); s.pwr.held = false ∧
      s.pwr.porLow = false ∧ (∀ f ∈ keptFields, s.get f < 2 ^ f.w) ∧ (c, k) ∈ [(Instr.vmonReset t, 1),
      (.railFail t, 2), (.d2dLoss t, 6), (.chipResetCommand t 0xA55A, 4)] ++ (if
      ((10 * min 135 (s.get Reg.PWR_TEMP_CFG_trip_c) : Nat) : Int) < max rf dig then [(.thermalTrip t rf dig, 3)] else
      []) ++ (if s.get (Reg.PWR_WDT_CFG_action n) ≠ 0 ∧ (tabGet s.pwr.wdtStart n).any (fun x =>
      decide (x + tabGetD s.pwr.wdtMs n 5000 * 1000000 ≤ max s.ltb t)) = true then [(.watchdogExpiry t n, 5)] else
      [])) ∧
    (let t : Nat := 1000; let n : Fin 4 := 3; let rf : Int := (-400); let dig : Int := 1351;
      let c : Instr := (.chipResetCommand t 0xA55A); let k : Nat := 4;
      let s : State :=
      ({ ((blank.set Reg.PWR_TEMP_CFG_trip_c 200 |>.set (Reg.PWR_WDT_CFG_action 3) 1).set Reg.PWR_RST_CAUSE_cause 64) with
        pwr := { wdtStart := [(3, 7)], wdtMs := [(3, 0)] }, claims := [(3, ⟨false, 4⟩)],
        straps := { region := 1, host := true }, jwl := { lcTarget := some (2, 7) } }); s.pwr.held = false ∧
      s.pwr.porLow = false ∧ (∀ f ∈ keptFields, s.get f < 2 ^ f.w) ∧ (c, k) ∈ [(Instr.vmonReset t, 1),
      (.railFail t, 2), (.d2dLoss t, 6), (.chipResetCommand t 0xA55A, 4)] ++ (if
      ((10 * min 135 (s.get Reg.PWR_TEMP_CFG_trip_c) : Nat) : Int) < max rf dig then [(.thermalTrip t rf dig, 3)] else
      []) ++ (if s.get (Reg.PWR_WDT_CFG_action n) ≠ 0 ∧ (tabGet s.pwr.wdtStart n).any (fun x =>
      decide (x + tabGetD s.pwr.wdtMs n 5000 * 1000000 ≤ max s.ltb t)) = true then [(.watchdogExpiry t n, 5)] else
      [])) ∧
    (let t : Nat := 1000; let n : Fin 4 := 3; let rf : Int := (-400); let dig : Int := 1351;
      let c : Instr := (.thermalTrip t rf dig); let k : Nat := 3;
      let s : State :=
      ({ ((blank.set Reg.PWR_TEMP_CFG_trip_c 200 |>.set (Reg.PWR_WDT_CFG_action 3) 1).set Reg.PWR_RST_CAUSE_cause 64) with
        pwr := { wdtStart := [(3, 7)], wdtMs := [(3, 0)] }, claims := [(3, ⟨false, 4⟩)],
        straps := { region := 1, host := true }, jwl := { lcTarget := some (2, 7) } }); s.pwr.held = false ∧
      s.pwr.porLow = false ∧ (∀ f ∈ keptFields, s.get f < 2 ^ f.w) ∧ (c, k) ∈ [(Instr.vmonReset t, 1),
      (.railFail t, 2), (.d2dLoss t, 6), (.chipResetCommand t 0xA55A, 4)] ++ (if
      ((10 * min 135 (s.get Reg.PWR_TEMP_CFG_trip_c) : Nat) : Int) < max rf dig then [(.thermalTrip t rf dig, 3)] else
      []) ++ (if s.get (Reg.PWR_WDT_CFG_action n) ≠ 0 ∧ (tabGet s.pwr.wdtStart n).any (fun x =>
      decide (x + tabGetD s.pwr.wdtMs n 5000 * 1000000 ≤ max s.ltb t)) = true then [(.watchdogExpiry t n, 5)] else
      [])) ∧
    (let t : Nat := 1000; let n : Fin 4 := 3; let rf : Int := (-400); let dig : Int := 1351;
      let c : Instr := (.watchdogExpiry t n); let k : Nat := 5;
      let s : State :=
      ({ ((blank.set Reg.PWR_TEMP_CFG_trip_c 200 |>.set (Reg.PWR_WDT_CFG_action 3) 1).set Reg.PWR_RST_CAUSE_cause 64) with
        pwr := { wdtStart := [(3, 7)], wdtMs := [(3, 0)] }, claims := [(3, ⟨false, 4⟩)],
        straps := { region := 1, host := true }, jwl := { lcTarget := some (2, 7) } }); s.pwr.held = false ∧
      s.pwr.porLow = false ∧ (∀ f ∈ keptFields, s.get f < 2 ^ f.w) ∧ (c, k) ∈ [(Instr.vmonReset t, 1),
      (.railFail t, 2), (.d2dLoss t, 6), (.chipResetCommand t 0xA55A, 4)] ++ (if
      ((10 * min 135 (s.get Reg.PWR_TEMP_CFG_trip_c) : Nat) : Int) < max rf dig then [(.thermalTrip t rf dig, 3)] else
      []) ++ (if s.get (Reg.PWR_WDT_CFG_action n) ≠ 0 ∧ (tabGet s.pwr.wdtStart n).any (fun x =>
      decide (x + tabGetD s.pwr.wdtMs n 5000 * 1000000 ≤ max s.ltb t)) = true then [(.watchdogExpiry t n, 5)] else
      [])) ∧
    (let t : Nat := 1000; let boot : BitVec 2 := 3; let region : BitVec 2 := 3; let twin : BitVec 2 := 2;
      let host : Bool := true; let gridf : Bool := true; let refclk : Bool := true; let s : State := (blank);
      (∀ f ∈ keptFields, s.get f < 2 ^ f.w)) ∧
    (let t : Nat := 1000; let s : State := ({ (blank.set Reg.PWR_STATUS_strap_fault 1) with
        pwr := { held := true }, ltb := 77 }); s.pwr.held = true ∧ s.pwr.porLow = false ∧ s.txDone = [] ∧
      s.pwr.inbox = [] ∧ holdOver (s.now t) = true) ∧
    (let t : Nat := 9000000; let s : State := ({ blank with
        pwr := { held := true, vmonGood := some 8, vmonWait := 2 }, ltb := 77 }); s.pwr.held = true ∧ s.txDone = [] ∧
      s.pwr.inbox = [] ∧ (s.pwr.porLow = true ∨ holdOver (s.now t) = false)) ∧
    (let t : Nat := 77; let s : State := ({ blank with
        pwr := { held := true, resetAt := 77, wdtDue := [1, 3] }, ltb := 77 }); s.pwr.held = true ∧ s.txDone = [] ∧
      s.pwr.inbox = [] ∧ s.pwr.porLow = false ∧ s.pwr.resetAt = max s.ltb t) := by
  refine ⟨?_, ?_, ?_, ?_, ?_, ?_, ?_, ?_, ?_, ?_⟩ <;> decide +kernel

theorem test_PowerCompletes_met :
    (let t : Nat := 1000; let c : Fin 4 := 3; let s : State := (blank.set Reg.PWR_STATUS_warn 0); s.settled ∧
      s.get Reg.PWR_STATUS_warn = 0) ∧
    (let t : Nat := 1000; let c : Fin 4 := 3; let s : State := (blank.set Reg.PWR_STATUS_warn 1); s.settled ∧
      s.get Reg.PWR_STATUS_warn ≠ 0) ∧
    (let t : Nat := 1000; let c : Fin 4 := 3; let rf : Int := (-2048); let dig : Int := 2047;
      let s : State := (blank.set Reg.PWR_STATUS_temp_warn 0); s.settled ∧ -2048 ≤ rf ∧ rf < 2048 ∧ -2048 ≤ dig ∧
      dig < 2048) ∧
    (let t : Nat := 1000; let c : Fin 4 := 3; let rf : Int := (-2048); let dig : Int := 1200;
      let s : State := (blank.set Reg.PWR_TEMP_CFG_trip_c 130 |>.set Reg.PWR_STATUS_temp_warn 0); s.settled ∧
      -2048 ≤ rf ∧ rf < 2048 ∧ -2048 ≤ dig ∧ dig < 2048 ∧
      max rf dig ≤ ((10 * min 135 (s.get Reg.PWR_TEMP_CFG_trip_c) : Nat) : Int)) ∧
    (let t : Nat := 1000; let c : Fin 4 := 3; let mask : BitVec 4 := 10;
      let s : State :=
      ({ (blank.set Reg.PWR_DOM_core_down 4 |>.set Reg.PWR_DOM_core_pwr 15 |>.set Reg.PWR_STATUS_state 0 ) with
        pwr := { wdtStart := [(2, 4), (3, 7)], coreRelease := [(0, 5)] } }); s.settled ∧ mask.toNat ≠ 0 ∧
      s.get Reg.PWR_DOM_core_down < 16 ∧ s.get Reg.PWR_STATUS_state ≠ 2 ∧ (∀ d, d < 4 → bits mask.toNat d 1 = 1 →
      bits (s.get Reg.PWR_DOM_core_down) d 1 = 0 ∧ bits (s.get Reg.PWR_DOM_core_pwr) d 1 = 1)) ∧
    (let t : Nat := 9000003; let c : Fin 4 := 3; let x : Nat := 3;
      let s : State :=
      ({ (blank.set Reg.PWR_DOM_core_down 4 |>.set Reg.PWR_DOM_core_pwr 15 |>.set Reg.PWR_STATUS_state 0 |>.set (Reg.PWR_WDT_CFG_action 3) 0) with
        pwr := { wdtStart := [(3, x)], wdtMs := [(3, 9)] } }); s.settled ∧
      bits (s.get Reg.PWR_DOM_core_down) c 1 = 0 ∧ s.get Reg.PWR_DOM_core_down < 16 ∧
      bits (s.get Reg.PWR_DOM_core_pwr) c 1 = 1 ∧ s.get Reg.PWR_STATUS_state ≠ 2 ∧
      s.get (Reg.PWR_WDT_CFG_action c) = 0 ∧ tabGet s.pwr.wdtStart c = some x ∧
      x + tabGetD s.pwr.wdtMs c 5000 * 1000000 ≤ max s.ltb t) ∧
    (let t : Nat := 1000; let c : Fin 4 := 3; let x : Nat := 1000;
      let s : State := ({ (blank.set Reg.PWR_DOM_core_down 15 |>.set (Reg.PWR_WDT_CFG_en 3) 1) with
        pwr := { coreRelease := [(3, x)] } }); s.settled ∧ tabGet s.pwr.coreRelease c = some x ∧ x ≤ max s.ltb t ∧
      s.get Reg.PWR_DOM_core_down < 16) ∧
    (let t : Nat := 1000; let c : Fin 4 := 3; let s : State := ({ blank with pwr := { wdtStart := [(3, 7)] } });
      s.settled ∧ (tabGet s.pwr.wdtStart c).isSome = true) ∧
    (let t : Nat := 1000; let c : Fin 4 := 3; let en : Bool := true; let action : Bool := true;
      let timeout : BitVec 16 := 0xFFFE; let s : State := (blank.set (Reg.PWR_WDT_CFG_en 3) 0 |>.set
      Reg.PWR_DOM_core_down 0); s.settled ∧ s.get (Reg.PWR_WDT_CFG_en c) = 0 ∧ en = true ∧
      bits (s.get Reg.PWR_DOM_core_down) c 1 = 0) ∧
    (let t : Nat := 1000; let c : Fin 4 := 3; let en : Bool := true; let action : Bool := false;
      let timeout : BitVec 16 := 0xFFFE; let s : State := (blank.set (Reg.PWR_WDT_CFG_en 3) 1); s.settled ∧
      s.get (Reg.PWR_WDT_CFG_en c) ≠ 0 ∧ en = true) ∧
    (let t : Nat := 1000; let c : Fin 4 := 3; let en : Bool := false; let action : Bool := false;
      let timeout : BitVec 16 := 0xFFFE; let s : State := ({ blank.set (Reg.PWR_WDT_CFG_en 3) 1 with
        pwr := { wdtStart := [(3, 7)] } }); s.settled ∧ en = false) ∧
    (let t : Nat := 1000; let c : Fin 4 := 3; let en : Bool := true; let action : Bool := false;
      let timeout : BitVec 16 := 0xFFFE; let s : State := (blank.set (Reg.PWR_WDT_CFG_en 3) 0 |>.set
      Reg.PWR_DOM_core_down 8); s.settled ∧ s.get (Reg.PWR_WDT_CFG_en c) = 0 ∧ en = true ∧
      bits (s.get Reg.PWR_DOM_core_down) c 1 = 1) ∧
    (let t : Nat := 1000; let c : Fin 4 := 3; let mask : BitVec 4 := 6;
      let s : State := ({ (blank.set Reg.PWR_DOM_core_pwr 15 |>.set Reg.PWR_DOM_core_down 0) with
        pwr := { wdtStart := [(3, 7)] } }); s.settled ∧ s.get Reg.PWR_DOM_core_down < 16) ∧
    (let t : Nat := 1000; let c : Fin 4 := 3; let x : BitVec 2 := 2; let d : Nat := 1000000;
      let s : State := (blank.set Reg.PWR_STATUS_state 1 |>.set Reg.FWD_CTRL_enable 0 |>.set Reg.ESC_CTRL_enable 0
      |>.set Reg.AMC_CTRL_enable 0 |>.set Reg.SLP_CTRL_enable 0 |>.set (Reg.ETH_CTRL_enable 0) 0 |>.set
      (Reg.ETH_CTRL_enable 1) 1 |>.set (Reg.ETH_STATUS_state 1) 3); s.settled ∧ s.pwr.trans = none ∧
      (s.get Reg.PWR_STATUS_state, x.toNat, d) ∈ [(0, 1, 0), (1, 0, 500000), (1, 2, 1000000), (2, 1, 2000000)] ∧
      ((s.get Reg.PWR_STATUS_state = 0 → (∀ i, i < 2 → s.get (Reg.RFX_STATUS_state i) = 0) ∧ ∀ i, i < 4 →
      s.get (Reg.TXC_STATUS_state i) = 0)) ∧ ((x.toNat = 2 → s.get Reg.FWD_CTRL_enable = 0 ∧
      s.get Reg.ESC_CTRL_enable = 0 ∧ s.get Reg.AMC_CTRL_enable = 0 ∧ s.get Reg.SLP_CTRL_enable = 0 ∧ ∀ i, i < 2 →
      s.get (Reg.ETH_CTRL_enable i) = 0 ∨ ethState s i = 3))) ∧
    (let t : Nat := 1000; let c : Fin 4 := 3; let x : BitVec 2 := 2;
      let s : State := (blank.set Reg.PWR_STATUS_state 0); let r : Nat := (stateReqResult s x.toNat); s.settled ∧
      r = stateReqResult s x.toNat ∧ r ≠ 0) ∧
    (let t : Nat := 1000; let c : Fin 4 := 3; let d : Nat := 1000;
      let s : State := ({ blank.set Reg.PWR_STATUS_state 1 |>.set Reg.PWR_DOM_core_down 2 with
        pwr := {
          trans := some (2, d), wdtStart := [(0, 3), (2, 4)], coreRelease := [(1, 5)] } }); s.settled ∧
      s.pwr.trans = some (2, d) ∧ d ≤ max s.ltb t ∧ s.get Reg.PWR_STATUS_state = 1) ∧
    (let t : Nat := 1000; let c : Fin 4 := 3; let d : Nat := 1000;
      let s : State := ({ blank.set Reg.PWR_STATUS_state 2 |>.set Reg.PWR_DOM_core_pwr 5 with
        pwr := { trans := some (1, d) } }); s.settled ∧ s.pwr.trans = some (1, d) ∧ d ≤ max s.ltb t ∧
      s.get Reg.PWR_STATUS_state = 2) ∧
    (let t : Nat := 1000; let c : Fin 4 := 3; let d : Nat := 1000;
      let s : State := ({ blank.set Reg.PWR_STATUS_state 1 with
        pwr := { trans := some (0, d) } }); s.settled ∧ s.pwr.trans = some (0, d) ∧ d ≤ max s.ltb t ∧
      s.get Reg.PWR_STATUS_state = 1) ∧
    (let t : Nat := 1000; let c : Fin 4 := 3; let d : Nat := 1000;
      let s : State := ({ blank.set Reg.PWR_STATUS_state 0 with
        pwr := { trans := some (1, d) }, chains := [(3, { slots := [(9, { freq := 2410005 })] })] }); s.settled ∧
      s.pwr.trans = some (1, d) ∧ d ≤ max s.ltb t ∧ s.get Reg.PWR_STATUS_state = 0) ∧
    (let t : Nat := 1000; let c : Fin 4 := 3; let src : Fin 7 := 6;
      let s : State := (blank.set Reg.PWR_STATUS_state 2 |>.set Reg.PWR_WAKE_CFG_wake_tci 8); s.settled ∧
      s.get Reg.PWR_STATUS_state = 2 ∧ s.pwr.trans = none ∧ wakeEnabled s src = true) ∧
    (let t : Nat := 1000; let c : Fin 4 := 3; let s : State := ({ blank with pwr := { perm := [(1, 2, 3)] } });
      s.settled) ∧
    (let t : Nat := 1000; let c : Fin 4 := 3; let s : State := (blank); s.settled) ∧
    (let t : Nat := 1000; let c : Fin 4 := 3; let speed : BitVec 2 := 3; let width : BitVec 2 := 2;
      let s : State := (blank.set Reg.HIF_STATUS_standalone 0); s.settled ∧ s.get Reg.HIF_STATUS_standalone = 0) ∧
    (let t : Nat := 1000; let c : Fin 4 := 3; let s : State := (blank.set Reg.HIF_STATUS_standalone 0); s.settled ∧
      s.get Reg.HIF_STATUS_standalone = 0) ∧
    (let t : Nat := 1000; let c : Fin 4 := 3; let s : State := ({ blank.set Reg.HIF_STATUS_standalone 0 with
        hif := { flr := true } }); s.settled ∧ s.get Reg.HIF_STATUS_standalone = 0) ∧
    (let t : Nat := 1000; let c : Fin 4 := 3;
      let s : State := ((blank.set (Reg.HIF_RING_CTRL_enable 128) 1 |>.set Reg.HIF_STATUS_standalone 0).setRing 128
      { pIdx := 3 }); s.settled ∧ s.get Reg.HIF_STATUS_standalone = 0) := by
  refine ⟨?_, ?_, ?_, ?_, ?_, ?_, ?_, ?_, ?_, ?_, ?_, ?_, ?_, ?_, ?_, ?_, ?_, ?_, ?_, ?_, ?_, ?_, ?_, ?_, ?_, ?_⟩ <;> decide +kernel

end Sys2Proof.Tests
end

namespace Sys2Proof.Machine

/-! ### Time (R42) -/

/-- No command but the release of chip reset undoes anything from its instant on: each has the effect of one operation, and
the operation's own lemma says so. -/
theorem exec_grows {c : Instr} {s u : State} (hc : ∀ t, c ≠ .chipResetRelease t) (h : exec c s = .next u) :
    Grows { s with ltb := max s.ltb c.time } u := by
  cases c with
  -- Registers, claims and accesses to BAR0 (chapters 00, 01, 19)
  | registerWrite => exact act_grows (fun _ _ => registerWrite_grows) h
  | unsupportedAccess => exact act_grows (fun _ _ => narrowAccess_grows) h
  | claim => exact act_grows (fun _ _ => claimCommand_grows) h
  | release => exact act_grows (fun _ _ => claimCommand_grows) h
  | query => exact act_grows (fun _ _ => claimCommand_grows) h
  -- The frame pipeline (chapters 01, 07, 10, 12)
  | frameRecord => exact act_grows (fun _ _ => frameRecord_grows) h
  | ackArbiterRound => exact act_grows (fun _ _ => ackArbiterRound_grows) h
  | duplicateTest => exact act_grows (fun _ _ => duplicateTest_grows) h
  | keyDerivation => exact act_grows (fun _ _ => keyDerivation_grows) h
  | uplinkDecrypt => exact act_grows (fun _ _ => uplinkDecrypt_grows) h
  | reassemblyTimeout => exact act_grows (fun _ _ => reassemblyTimeout_grows) h
  | reorderRelease => exact act_grows (fun _ _ => reorderRelease_grows) h
  | escEnqueue => exact act_grows (fun _ _ => escEnqueue_grows) h
  | tagAdmission => exact act_grows (fun _ _ => tagAdmission_grows) h
  | downlinkIngress => exact act_grows (fun _ _ => downlinkIngress_grows) h
  | routeBuild => exact act_grows (fun _ _ => routeBuild_grows) h
  | downlinkSecure => exact act_grows (fun _ _ => downlinkSecure_grows) h
  -- Grid angle, local time and the Balance (chapter 02)
  | balEnable => exact act_grows (fun _ _ => balEnable_grows) h
  | balDisable => exact act_grows (fun _ _ => balDisable_grows) h
  | cycForce => exact act_grows (fun _ _ => cycForce_grows) h
  | snap => exact act_grows (fun _ _ => snap_grows) h
  | gridZcEdge => exact act_grows (fun _ _ => gridZcEdge_grows) h
  | gridAinCrossing => exact act_grows (fun _ _ => gridAinCrossing_grows) h
  | crossingMissed => exact act_grows (fun _ _ => crossingMissed_grows) h
  | cycleStart => exact act_grows (fun _ _ => cycleStartAll_grows) h
  | phaseStep => exact act_grows (fun _ _ => phaseStepAll_grows) h
  | stallStart => exact act_grows (fun _ _ => stallStart_grows) h
  | stallEnd => exact act_grows (fun _ _ => stallEnd_grows) h
  | targetFix => exact act_grows (fun _ _ => targetFix_grows) h
  | statisticsEpoch => exact act_grows (fun _ _ => statisticsEpoch_grows) h
  | ttEnable => exact act_grows (fun _ _ => ttEnable_grows) h
  | ttDisable => exact act_grows (fun _ _ => ttDisable_grows) h
  | ttCommit => exact act_grows (fun _ _ => ttCommit_grows) h
  | ttFiring => exact act_grows (fun _ _ => ttFiring_grows) h
  | ttPulseEnd => exact act_grows (fun _ _ => ttPulseEnd_grows) h
  | burstDone => exact act_grows (fun _ _ => burstDone_grows) h
  | tciEnable => exact act_grows (fun _ _ => tciEnable_grows) h
  | tciEdge => exact act_grows (fun _ _ => tciEdgeAll_grows) h
  | pop => exact act_grows (fun _ _ => tciPop_grows) h
  | cmpEnable => exact act_grows (fun _ _ => cmpEnable_grows) h
  | cmpCommit => exact act_grows (fun _ _ => cmpCommit_grows) h
  | cmpFire => exact act_grows (fun _ _ => cmpFire_grows) h
  | ptpSet => exact act_grows (fun _ _ => ptpSet_grows) h
  | ptpAdj => exact act_grows (fun _ _ => ptpAdj_grows) h
  | ppsOutEnable => exact act_grows (fun _ _ => ppsOutEnable_grows) h
  | ppsPulse => exact act_grows (fun _ _ => ppsPulse_grows) h
  | ppsPulseEnd => exact act_grows (fun _ _ => ppsPulseEnd_grows) h
  | ppsInEdge => exact act_grows (fun _ _ => ppsInEdge_grows) h
  | ppsInMissing => exact act_grows (fun _ _ => ppsInMissing_grows) h
  -- The receivers (chapter 03)
  | rxStartcal => exact act_grows (fun _ _ => rxStartcal_grows) h
  | rxStartcalDone => exact act_grows (fun _ _ => rxStartcalDone_grows) h
  | rxEnable => exact act_grows (fun _ _ => rxEnable_grows) h
  | rxDisable => exact act_grows (fun _ _ => rxDisable_grows) h
  | gainEpochEnd => exact act_grows (fun _ _ => gainEpochEnd_grows) h
  | adcOverload => exact act_grows (fun _ _ => adcOverload_grows) h
  | unscheduledStep => exact act_grows (fun _ _ => unscheduledStep_grows) h
  | calReq => exact act_grows (fun _ _ => calReq_grows) h
  | compatCalStart => exact act_grows (fun _ _ => compatCalStart_grows) h
  | blankEnd => exact act_grows (fun _ _ => blankEnd_grows) h
  | irUpdate => exact act_grows (fun _ _ => irUpdate_grows) h
  | staleSegmentTone => exact act_grows (fun _ _ => staleSegmentTone_grows) h
  | filterRetune => exact act_grows (fun _ _ => filterRetune_grows) h
  -- Transmit chains and coexistence (chapter 03)
  | chainStartcal => exact act_grows (fun _ _ g => txcDrive_grows (chainStartcal_grows g)) h
  | chainStartcalDone => exact act_grows (fun _ _ => chainStartcalDone_grows) h
  | chainEnable => exact act_grows (fun _ _ g => txcDrive_grows (chainEnable_grows g)) h
  | chainDisable => exact act_grows (fun _ _ g => txcDrive_grows (chainDisable_grows g)) h
  | park => exact act_grows (fun _ _ => park_grows) h
  | txCommand => exact act_grows (fun _ _ => txIssue_grows) h
  | commandWithdraw => exact act_grows (fun _ _ => commandWithdraw_grows) h
  | turnaroundStart => exact act_grows (fun _ _ g => ebrAngle_grows (turnaroundStart_grows g)) h
  | synthLock => exact act_grows (fun _ _ => synthLock_grows) h
  | lockPoint => exact act_grows (fun _ _ => lockPoint_grows) h
  | transmitStep => exact act_grows (fun _ _ => transmitStep_grows) h
  | firstSymbol => exact act_grows (fun _ _ => firstSymbol_grows) h
  | lastSymbol => exact act_grows (fun _ _ => lastSymbolTx_grows) h
  | rampdnComplete => exact act_grows (fun _ _ => rampdnTx_grows) h
  | cacheFill => exact act_grows (fun _ _ => cacheFill_grows) h
  | cacheEvict => exact act_grows (fun _ _ => cacheEvict_grows) h
  | cacheRead => exact act_grows (fun _ _ => cacheRead_grows) h
  | oncalStart => exact act_grows (fun _ _ => fillStart_grows) h
  | oncalComplete => exact act_grows (fun _ _ => oncalComplete_grows) h
  | calRetry => exact act_grows (fun _ _ => fillStart_grows) h
  | sensorRead => exact act_grows (fun _ _ => sensorRead_grows) h
  | coexEnable => exact act_grows (fun _ _ => coexEnable_grows) h
  | coexReqRise => exact act_grows (fun _ _ => coexReqRise_grows) h
  | coexGrant => exact act_grows (fun _ _ => coexGrant_grows) h
  | coexReqFall => exact act_grows (fun _ _ => coexReqFall_grows) h
  | coexRevoke => exact act_grows (fun _ _ => coexRevoke_grows) h
  | reqMaxExpiry => exact act_grows (fun _ _ => reqMaxExpiry_grows) h
  -- The self-interference canceller (chapter 04)
  | coeffAdapt => exact act_grows (fun _ _ => coeffAdapt_grows) h
  | collisionDeclared => exact act_grows (fun _ _ => collisionDeclared_grows) h
  | sicClearEntry => exact act_grows (fun _ _ => sicClearEntry_grows) h
  | sicReadEntry => exact act_grows (fun _ _ => sicReadEntry_grows) h
  -- The channeliser and its lanes (chapter 05)
  | laneCommit => exact act_grows (fun _ _ => laneCommit_grows) h
  | laneEnable => exact act_grows (fun _ _ => laneEnable_grows) h
  | laneDisable => exact act_grows (fun _ _ => laneDisable_grows) h
  | selftest => exact act_grows (fun _ _ => selftest_grows) h
  | periodicSelftest => exact act_grows (fun _ _ => periodicSelftest_grows) h
  | selftestComplete => exact act_grows (fun _ _ => selftestComplete_grows) h
  | unretire => exact act_grows (fun _ _ => unretire_grows) h
  | switchDone => exact act_grows (fun _ _ => switchDone_grows) h
  | preambleDetected => exact act_grows (fun _ _ => preambleDetected_grows) h
  | secondDetection => exact act_grows (fun _ _ => secondDetection_grows) h
  | sfdFound => exact act_grows (fun _ _ => sfdFound_grows) h
  | sfdTimeout => exact act_grows (fun _ _ => sfdTimeout_grows) h
  | phrReceived => exact act_grows (fun _ _ => phrReceived_grows) h
  | laneFrameEnd => exact act_grows (fun _ _ => laneFrameEnd_grows) h
  | parityError => exact act_grows (fun _ _ => laneParity_grows) h
  | stormWindowEnd => exact act_grows (fun _ _ => stormWindowEnd_grows) h
  | edRefresh => exact act_grows (fun _ _ => edRefresh_grows) h
  | channelRetire => exact act_grows (fun _ _ => channelRetire_grows) h
  -- The modem (chapter 06)
  | profileLoad => exact act_grows (fun _ _ => profileLoad_grows) h
  | profileUnload => exact act_grows (fun _ _ => profileUnload_grows) h
  | airtimeQuery => exact act_grows (fun _ _ => airtimeQuery_grows) h
  -- The air MAC (chapter 07)
  | amcEnable => exact act_grows (fun _ _ => amcEnable_grows) h
  | amcDisable => exact act_grows (fun _ _ => amcDisable_grows) h
  | asyncStart => exact act_grows (fun _ _ => asyncStart_grows) h
  | backoffExpiry => exact act_grows (fun _ _ => backoffExpiry_grows) h
  | ackWaitExpiry => exact act_grows (fun _ _ => ackWaitExpiry_grows) h
  | neighbourBeaconMissed => exact act_grows (fun _ _ => neighbourMissed_grows) h
  | neighbourHoldExpiry => exact act_grows (fun _ _ => neighbourHold_grows) h
  | dwellStep => exact act_grows (fun _ _ => dwellStep_grows) h
  -- Sleepy nodes (chapter 08)
  | slpEnable => exact act_grows (fun _ _ => slpEnable_grows) h
  | slpDisable => exact act_grows (fun _ _ => slpDisable_grows) h
  | windowHandover => exact act_grows (fun _ _ => windowHandover_grows) h
  | nodeQuery => exact act_grows (fun _ _ => nodeQuery_grows) h
  -- The Escapement (chapter 09)
  | escEnable => exact act_grows (fun _ _ => escEnable_grows) h
  | escDisable => exact act_grows (fun _ _ => escDisable_grows) h
  | slotframeBoundary => exact act_grows (fun _ _ => slotframeBoundary_grows) h
  | txOccurrenceDecision => exact act_grows (fun _ _ => txOccurrence_grows) h
  | rxOccurrenceOpen => exact act_grows (fun _ _ => rxOccurrenceOpen_grows) h
  | rxOccurrenceClose => exact act_grows (fun _ _ => rxOccurrenceClose_grows) h
  | asyncRelease => exact act_grows (fun _ _ => asyncRelease_grows) h
  | wiredPortRelease => exact act_grows (fun _ _ => wiredPortRelease_grows) h
  | subRead => exact act_grows (fun _ _ => subRead_grows) h
  | subWrite => exact act_grows (fun _ _ => subWrite_grows) h
  | subFlush => exact act_grows (fun _ _ => subFlush_grows) h
  | fuseeBinAdvance => exact act_grows (fun _ _ => fuseeBinAdvance_grows) h
  -- The Node Table and the Prefix Table (chapter 10)
  | fwdEnable => exact act_grows (fun _ _ => fwdEnable_grows) h
  | fwdDisable => exact act_grows (fun _ _ => fwdDisable_grows) h
  | ntLookup => exact act_grows (fun _ _ => ntLookup_grows) h
  | ntInsertPrimary => exact act_grows (fun _ _ => ntInsertPrimary_grows) h
  | ntDelete => exact act_grows (fun _ _ => ntDelete_grows) h
  | ntSetParent => exact act_grows (fun _ _ => ntSetParent_grows) h
  | ntInsertAlias => exact act_grows (fun _ _ => ntInsertAlias_grows) h
  | ntRead => exact act_grows (fun _ _ => ntRead_grows) h
  | ntRepair => exact act_grows (fun _ _ => ntRepair_grows) h
  | ptInsert => exact act_grows (fun _ _ => ptInsert_grows) h
  | ptDelete => exact act_grows (fun _ _ => ptDelete_grows) h
  | ptRead => exact act_grows (fun _ _ => ptRead_grows) h
  -- The Context Store (chapter 11)
  | ctxEnable => exact act_grows (fun _ _ => ctxEnable_grows) h
  | ctxDisable => exact act_grows (fun _ _ => ctxDisable_grows) h
  | ctxSelftestDone => exact act_grows (fun _ _ => ctxSelftestDone_grows) h
  | contextRead => exact act_grows (fun _ _ => contextRead_grows) h
  | contextWrite => exact act_grows (fun _ _ => contextWrite_grows) h
  | restore => exact act_grows (fun _ _ => restore_grows) h
  | invalidate => exact act_grows (fun _ _ => invalidate_grows) h
  | reservationConfirm => exact act_grows (fun _ _ => reservationConfirm_grows) h
  | sweepStart => exact act_grows (fun _ _ => sweepStart_grows) h
  | sweepVisit => exact act_grows (fun _ _ => sweepVisit_grows) h
  | flush => exact act_grows (fun _ _ => flush_grows) h
  | flushComplete => exact act_grows (fun _ _ => flushComplete_grows) h
  -- The Jewel store (chapter 12)
  | jwlEnable => exact act_grows (fun _ _ => jwlEnable_grows) h
  | jwlDisable => exact act_grows (fun _ _ => jwlDisable_grows) h
  | lcRead => exact act_grows (fun _ _ => lcRead_grows) h
  | load => exact act_grows (fun _ _ g => inWindow_grows g (fun _ => jwlLoad_grows)) h
  | derive => exact act_grows (fun _ _ g => inWindow_grows g (fun _ => jwlDerive_grows)) h
  | keyInvalidate => exact act_grows (fun _ _ g => inWindow_grows g (fun _ => keyInvalidate_grows)) h
  | revocationSweepEnd => exact act_grows (fun _ _ => revocationSweepEnd_grows) h
  | readAttributes => exact act_grows (fun _ _ g => inWindow_grows g (fun _ => readAttributes_grows)) h
  | attest => exact act_grows (fun _ _ g => inWindow_grows g (fun _ => jwlAttest_grows)) h
  | hash => exact act_grows (fun _ _ g => inWindow_grows g (fun _ => jwlHash_grows)) h
  | hmac => exact act_grows (fun _ _ g => inWindow_grows g (fun _ => jwlHmac_grows)) h
  | verify => exact act_grows (fun _ _ g => inWindow_grows g (fun _ => jwlVerify_grows)) h
  | extend => exact act_grows (fun _ _ g => inWindow_grows g (fun _ => jwlExtend_grows)) h
  | windowJobEnd => exact act_grows (fun _ _ => windowJobEnd_grows) h
  | lifeCycleChange => exact act_grows (fun _ _ => lifeCycleChange_grows) h
  | lifeCycleChangeDone => exact act_grows (fun _ _ => lifeCycleChangeDone_grows) h
  | cacheFlush => exact act_grows (fun _ _ => cacheFlush_grows) h
  -- Host rings, doorbells and events (chapter 13)
  | ringEnable => exact act_grows (fun _ _ => ringEnable_grows) h
  | ringDisable => exact act_grows (fun _ _ => ringDisable_grows) h
  | doorbell => exact act_grows (fun _ _ => pageAccess_grows) h
  | descriptorFetch => exact act_grows (fun _ _ => descriptorFetch_grows) h
  | frameAdmission => exact act_grows (fun _ _ => frameAdmission_grows) h
  | controlDescriptor => exact act_grows (fun _ _ => controlDescriptor_grows) h
  | controlPollEnd => exact act_grows (fun _ _ => controlPollEnd_grows) h
  | evtSwraise => exact act_grows (fun _ _ => evtSwraise_grows) h
  | coalesceTimeout => exact act_grows (fun _ _ => coalesceTimeout_grows) h
  | vectorUnmask => exact act_grows (fun _ _ => vectorUnmask_grows) h
  | functionLevelReset => exact act_grows (fun _ _ => functionLevelReset_grows) h
  | pcieLinkDown => exact act_grows (fun _ _ => pcieLinkDown_grows) h
  | d3hotToD0 => exact act_grows (fun _ _ => d3hotToD0_grows) h
  | dmaError => exact act_grows (fun _ _ => dmaErrorRing_grows) h
  -- Mailboxes and semaphores (chapter 14)
  | channelCfg => exact act_grows (fun _ _ => channelCfg_grows) h
  | post => exact act_grows (fun _ _ => post_grows) h
  | mbxPop => exact act_grows (fun _ _ => mbxPop_grows) h
  | semTake => exact act_grows (fun _ _ => semTake_grows) h
  | semRelease => exact act_grows (fun _ _ => semRelease_grows) h
  | semForce => exact act_grows (fun _ _ => semForce_grows) h
  | clusterLineUnmask => exact act_grows (fun _ _ => clusterLineUnmask_grows) h
  -- Ethernet (chapter 15)
  | ethEnable => exact act_grows (fun _ _ => ethEnable_grows) h
  | ethDisable => exact act_grows (fun _ _ => ethDisable_grows) h
  | linkUp => exact act_grows (fun _ _ => linkUp_grows) h
  | linkDown => exact act_grows (fun _ _ => linkDown_grows) h
  | ethRxFrame => exact act_grows (fun _ _ => ethRxAll_grows) h
  | fifoToPool => exact act_grows (fun _ _ => fifoToPool_grows) h
  | pauseExpiry => exact act_grows (fun _ _ => pauseExpiry_grows) h
  | pauseWatchdog => exact act_grows (fun _ _ => pauseWatchdog_grows) h
  | holdoffEnd => exact act_grows (fun _ _ => holdoffEnd_grows) h
  | pauseSend => exact act_grows (fun _ _ => pauseSend_grows) h
  | ethTxEnd => exact act_grows (fun _ _ => ethTxEnd_grows) h
  | standby => exact act_grows (fun _ _ => ethStandby_grows) h
  -- The twin (chapter 16)
  | twnEnable => exact act_grows (fun _ _ => twnEnable_grows) h
  | twnDisable => exact act_grows (fun _ _ => twnDisable_grows) h
  | pairBeatSend => exact act_grows (fun _ _ => pairBeatSend_grows) h
  | ethBeatSend => exact act_grows (fun _ _ => ethBeatSend_grows) h
  | pairBeatReceived => exact act_grows (fun _ _ => pairBeatReceived_grows) h
  | ethBeatReceived => exact act_grows (fun _ _ => ethBeatReceived_grows) h
  | beatMiss => exact act_grows (fun _ _ => beatMiss_grows) h
  | rejoinExpiry => exact act_grows (fun _ _ => rejoinExpiry_grows) h
  | splitBoundary => exact act_grows (fun _ _ => splitBoundary_grows) h
  | twinLinkUp => exact act_grows (fun _ _ => twinLinkUp_grows) h
  | twinLinkDown => exact act_grows (fun _ _ => twinLinkDown_grows) h
  | twinFrameReceived => exact act_grows (fun _ _ => twinFrameReceived_grows) h
  | creditReturn => exact act_grows (fun _ _ => creditReturn_grows) h
  -- The Crown and firmware update (chapter 17)
  | download => exact act_grows (fun _ _ => crnDownload_grows) h
  | bodyCopied => exact act_grows (fun _ _ => crnBodyCopied_grows) h
  | verifyDone => exact act_grows (fun _ _ => crnVerifyDone_grows) h
  | abort => exact act_grows (fun _ _ => crnAbort_grows) h
  | activate => exact act_grows (fun _ _ => crnActivate_grows) h
  | activationDone => exact act_grows (fun _ _ => crnActivationDone_grows) h
  | confirm => exact act_grows (fun _ _ => crnConfirm_grows) h
  | burnSigner1 => exact act_grows (fun _ _ => burnSigner1_grows) h
  | crownBoot => exact act_grows (fun _ _ => crownBoot_grows) h
  -- The Chronograph (chapter 18)
  | chrCounterEnable => exact act_grows (fun _ _ => chrCounterEnable_grows) h
  | chrCounterWrite => exact act_grows (fun _ _ => chrCounterWrite_grows) h
  | trecPop => exact act_grows (fun _ _ => trecPop_grows) h
  | instructionSample => exact act_grows (fun _ _ => instructionSample_grows) h
  | samplePop => exact act_grows (fun _ _ => samplePop_grows) h
  -- Power, reset, start-up and faults (chapter 19)
  | pornRise => exact actReset_grows (fun _ _ => pornRise_grows) h
  | pornLow => exact actReset_grows (fun _ _ => pornLow_grows) h
  | chipResetRelease t => exact absurd rfl (hc t)
  | vmonWarn => exact actReset_grows (fun _ _ => vmonWarn_grows) h
  | vmonWarnClear => exact actReset_grows (fun _ _ => vmonWarnClear_grows) h
  | vmonReset => exact actReset_grows (fun _ _ => chipReset_grows) h
  | railFail => exact actReset_grows (fun _ _ => chipReset_grows) h
  | thermalTrip => exact actReset_grows (fun _ _ => thermalTrip_grows) h
  | thermalWarn => exact actReset_grows (fun _ _ => thermalWarn_grows) h
  | d2dLoss => exact actReset_grows (fun _ _ => chipReset_grows) h
  | chipResetCommand => exact actReset_grows (fun _ _ => chipResetCommand_grows) h
  | coreResetCommand => exact act_grows (fun _ _ => coreResetCommand_grows) h
  | watchdogExpiry => exact actReset_grows (fun _ _ => watchdogExpiry_grows) h
  | coreDomainRelease => exact act_grows (fun _ _ => coreDomainRelease_grows) h
  | kick => exact act_grows (fun _ _ => kick_grows) h
  | watchdogConfig => exact act_grows (fun _ _ => watchdogConfig_grows) h
  | corePower => exact act_grows (fun _ _ => corePower_grows) h
  | powerStateReq => exact act_grows (fun _ _ => powerStateReq_grows) h
  | powerTransitionDone => exact act_grows (fun _ _ => powerTransitionDone_grows) h
  | standbyWake => exact act_grows (fun _ _ => standbyWake_grows) h
  | permanentListClear => exact act_grows (fun _ _ => permanentListClear_grows) h
  | d2dCrcError => exact act_grows (fun _ _ => d2dCrcError_grows) h
  | pcieLinkUp => exact act_grows (fun _ _ => pcieLinkUp_grows) h
  | d3hotEntry => exact act_grows (fun _ _ => d3hotEntry_grows) h
  | flrComplete => exact act_grows (fun _ _ => flrComplete_grows) h
  | perstAssertion => exact act_grows (fun _ _ => perstAssertion_grows) h

/-- What follows an effect leaves the LTB where the effect left it. -/
theorem actReset_ltb {s u : State} {t : Nat} {f : State → State} (h : actReset t s f = .next u) :
    u.ltb = (f (s.begin t)).ltb := by
  unfold actReset at h
  injection h with h
  subst h
  exact (finish_grows (Grows.refl _)).ltb

/-- The Chronograph has no part in what chip reset is held for. -/
theorem holdOver_begin (s : State) (t : Nat) : holdOver (s.begin t) = holdOver (s.now t) := rfl

/-- The release acts on a chip reset that is held, with PORn not low and the hold over, and on no other. -/
theorem chipResetRelease_acts_iff (s : State) : (!s.pwr.held || s.pwr.porLow || !holdOver s) = false ↔
    s.pwr.held = true ∧ s.pwr.porLow = false ∧ holdOver s = true := by
  simp [and_assoc]

/-- The release restarts the LTB, or comes too early and leaves it. -/
theorem chipResetRelease_ltb (s : State) : (chipResetRelease s).ltb =
    if s.pwr.held = true ∧ s.pwr.porLow = false ∧ holdOver s = true then 0 else s.ltb := by
  split
  next acts => exact (chipResetRelease_grows (Grows.refl _) ((chipResetRelease_acts_iff s).2 acts)).ltb
  next early =>
    rw [chipResetRelease, if_pos (Bool.eq_true_of_not_eq_false (mt (chipResetRelease_acts_iff s).1 early))]

/-- Settles O6: every command but the release of chip reset keeps the LTB at the instant it happens at, and the release
restarts it once its hold is over. -/
theorem timeDoesNotGoBack : Obligations.TimeDoesNotGoBack := by
  intro c s u h
  refine ⟨fun hc => (exec_grows hc h).ltb, ?_⟩
  rintro t rfl
  rw [actReset_ltb h, chipResetRelease_ltb, holdOver_begin]
  rfl

/-! ### The fields of a register in the tables (R5, R6) -/

/-- The clamp of an RW field leaves a value that the field holds. -/
def normFits (n : Norm) (w : Nat) : Bool :=
  match n with
  | .clamp lo hi => max lo hi < 2 ^ w
  | _ => true

/-- Every field that the row lists lies in the word at its offset; a clamp leaves it in range, and no W1C field waits for a
boundary. -/
def rowSound (r : Row) : Bool :=
  (List.range r.n1).all fun i => (List.range r.n2).all fun j =>
    decide ((r.fld i j).off = r.base + r.s1 * i + r.s2 * j ∧ (r.fld i j).lo < 32) && normFits r.norm (r.fld i j).w &&
      !(r.acc == .w1c && r.defer)

/-- Two rows never place a field at the same lowest bit of one word. -/
def rowsApart (r q : Row) : Bool :=
  (List.range r.n1).all fun i => (List.range r.n2).all fun j =>
    (rowAt q (r.base + r.s1 * i + r.s2 * j)).all fun e => (r.fld i j).lo != (q.fld e.1 e.2).lo

/-- Each row of a register table is sound, and no two fields of a word begin at the same bit. -/
def tableSound (l : List Row) : Prop := (∀ r ∈ l, rowSound r = true) ∧ l.Pairwise (fun r q => rowsApart r q = true)

theorem rfxRows_sound : tableSound rfxRows := by unfold tableSound; decide +kernel
theorem sicRows_sound : tableSound sicRows := by unfold tableSound; decide +kernel
theorem phyRows_sound : tableSound phyRows := by unfold tableSound; decide +kernel
theorem slpRows_sound : tableSound slpRows := by unfold tableSound; decide +kernel
theorem twnRows_sound : tableSound twnRows := by unfold tableSound; decide +kernel
theorem glbRows_sound : tableSound glbRows := by unfold tableSound; decide +kernel
theorem balRows_sound : tableSound balRows := by unfold tableSound; decide +kernel

theorem rowAt_eq_some {r : Row} {off i j : Nat} (h : rowAt r off = some (i, j)) :
    i < r.n1 ∧ j < r.n2 ∧ off = r.base + r.s1 * i + r.s2 * j := by
  unfold rowAt at h
  split at h
  · cases h
  next above =>
    dsimp only at h
    split at h
    next inside =>
      obtain ⟨hi, hj, word⟩ := inside
      simp only [Option.some.injEq, Prod.mk.injEq] at h
      obtain ⟨rfl, rfl⟩ := h
      have outer := Nat.div_add_mod (off - r.base) r.s1
      have inner := Nat.div_add_mod ((off - r.base) % r.s1) r.s2
      exact ⟨hi, hj, by omega⟩
    · cases h

theorem rowSound_at {r : Row} {off i j : Nat} (sound : rowSound r = true) (h : rowAt r off = some (i, j)) :
    (r.fld i j).off = off ∧ (r.fld i j).lo < 32 ∧ normFits r.norm (r.fld i j).w = true ∧
      (r.acc = .w1c → r.defer = false) := by
  obtain ⟨hi, hj, place⟩ := rowAt_eq_some h
  have all := List.all_eq_true.1 (List.all_eq_true.1 sound i (List.mem_range.2 hi)) j (List.mem_range.2 hj)
  simp only [Bool.and_eq_true, decide_eq_true_eq] at all
  obtain ⟨⟨⟨at_, low⟩, fits⟩, now⟩ := all
  refine ⟨at_.trans place.symm, low, fits, fun w1c => ?_⟩
  simpa [w1c] using now

theorem rowsApart_at {r q : Row} {off i j : Nat} {e : Nat × Nat} (apart : rowsApart r q = true)
    (h : rowAt r off = some (i, j)) (k : rowAt q off = some e) : (r.fld i j).lo ≠ (q.fld e.1 e.2).lo := by
  obtain ⟨hi, hj, rfl⟩ := rowAt_eq_some h
  have all := List.all_eq_true.1 (List.all_eq_true.1 apart i (List.mem_range.2 hi)) j (List.mem_range.2 hj)
  simpa [k] using all

/-- Rows of one table that both list fields of the word list different ones. -/
theorem key_ne_of_apart {r q : Row} {off i j : Nat} {e : Nat × Nat} (hr : rowSound r = true) (hq : rowSound q = true)
    (apart : rowsApart r q = true) (h : rowAt r off = some (i, j)) (k : rowAt q off = some e) :
    (r.fld i j).key ≠ (q.fld e.1 e.2).key := by
  obtain ⟨offR, lowR, -, -⟩ := rowSound_at hr h
  obtain ⟨offQ, lowQ, -, -⟩ := rowSound_at hq k
  have lows := rowsApart_at apart h k
  unfold Fld.key
  omega

/-! ### A write that waits for its boundary (R9) -/

theorem setLater_get_self (s : State) (f : Fld) (v : Nat) : (s.setLater f v).get f = v % 2 ^ f.w :=
  State.get_set_self _ f v

theorem setLater_get_ne (s : State) {f g : Fld} (v : Nat) (h : f.key ≠ g.key) : (s.setLater f v).get g = s.get g := by
  unfold State.setLater
  rw [State.get_set_ne _ v h]
  split <;> rfl

/-- The value in force stays. -/
theorem setLater_cur_self (s : State) (f : Fld) (v : Nat) : (s.setLater f v).cur f = s.cur f := by
  unfold State.setLater State.cur
  cases waiting : tabGet s.inForce f.key with
  | none => simp
  | some x => simp [waiting]

theorem setLater_cur_ne (s : State) {f g : Fld} (v : Nat) (h : f.key ≠ g.key) : (s.setLater f v).cur g = s.cur g := by
  unfold State.cur
  rw [setLater_get_ne s v h]
  unfold State.setLater
  cases tabGet s.inForce f.key with
  | none => simp [tabGet_put_ne _ _ h]
  | some x => rfl

theorem set_cur_ne (s : State) {f g : Fld} (v : Nat) (h : f.key ≠ g.key) : (s.set f v).cur g = s.cur g := by
  unfold State.cur
  rw [State.get_set_ne s v h, State.set_inForce]

/-! ### What a write does to the field of one row (R6, R7, R9) -/

section FieldWrite

variable {s0 s v : State} {off val i j : Nat} {r : Row} {fs : List Fld} {cs : List Nat} {ps : List Part}

theorem fieldWrite_none (h : rowAt r off = none) : fieldWrite s0 off val v r = v := by
  unfold fieldWrite
  rw [h]

/-- What a write does to the field of one row: nothing, or one write of that field, which waits or does not. -/
theorem fieldWrite_cases (h : rowAt r off = some (i, j)) :
    fieldWrite s0 off val v r = v ∨
      ∃ x, fieldWrite s0 off val v r = v.set (r.fld i j) x ∨ fieldWrite s0 off val v r = v.setLater (r.fld i j) x := by
  unfold fieldWrite
  rw [h]
  dsimp only
  split
  · exact .inl rfl
  · split
    · exact .inr ⟨_, .inl rfl⟩
    · split
      · split
        · exact .inr ⟨_, .inr rfl⟩
        · exact .inr ⟨_, .inl rfl⟩
      · exact .inl rfl
    · exact .inl rfl

theorem fieldWrite_resp : (fieldWrite s0 off val v r).resp = v.resp := by
  cases h : rowAt r off with
  | none => rw [fieldWrite_none h]
  | some e =>
    rcases fieldWrite_cases (s0 := s0) (val := val) (v := v) h with same | ⟨x, set | later⟩
    · rw [same]
    · rw [set, State.set_resp]
    · rw [later]
      unfold State.setLater
      rw [State.set_resp]
      split <;> rfl

/-- Fields of other rows stay as they are, and so does their value in force. -/
theorem fieldWrite_other {g : Fld} (h : ∀ e ∈ rowAt r off, (r.fld e.1 e.2).key ≠ g.key) :
    (fieldWrite s0 off val v r).get g = v.get g ∧ (fieldWrite s0 off val v r).cur g = v.cur g := by
  cases k : rowAt r off with
  | none => simp [fieldWrite_none k]
  | some e =>
    have key := h e k
    rcases fieldWrite_cases (s0 := s0) (val := val) (v := v) k with same | ⟨x, set | later⟩
    · simp [same]
    · rw [set]
      exact ⟨State.get_set_ne v x key, set_cur_ne v x key⟩
    · rw [later]
      exact ⟨setLater_get_ne v x key, setLater_cur_ne v x key⟩

theorem bits_lt (x lo w : Nat) : bits x lo w < 2 ^ w := Nat.mod_lt _ (Nat.two_pow_pos w)

theorem normValue_lt {n : Norm} {w x y : Nat} (fits : normFits n w = true) (hx : x < 2 ^ w) (h : normValue n x = some y) :
    y < 2 ^ w := by
  cases n with
  | any =>
    obtain rfl : x = y := by simpa [normValue] using h
    exact hx
  | clamp lo hi =>
    obtain rfl : max lo (min hi x) = y := by simpa [normValue] using h
    have room : max lo hi < 2 ^ w := by simpa [normFits] using fits
    omega
  | only lo hi =>
    simp only [normValue] at h
    split at h
    · obtain rfl : x = y := by simpa using h
      exact hx
    · cases h

/-- The field of the row takes the value that the table says, and where its write waits stays in force with the old one. -/
theorem fieldWrite_own (sound : rowSound r = true) (h : rowAt r off = some (i, j)) (get : v.get (r.fld i j) = s0.get (r.fld i j))
    (fits : r.acc = .w1c → s0.get (r.fld i j) < 2 ^ (r.fld i j).w) :
    (fieldWrite s0 off val v r).get (r.fld i j) = writtenValue s0 val r i j ∧
      (r.defer = true → (fieldWrite s0 off val v r).cur (r.fld i j) = v.cur (r.fld i j)) := by
  obtain ⟨-, -, room, soon⟩ := rowSound_at sound h
  unfold fieldWrite writtenValue
  rw [h]
  dsimp only
  split
  · exact ⟨get, fun _ => rfl⟩
  · cases acc : r.acc with
    | w1c =>
      refine ⟨?_, fun later => absurd later (by simp [soon acc])⟩
      rw [State.get_set_self]
      exact Nat.mod_eq_of_lt (Nat.lt_of_le_of_lt (Nat.sub_le _ _) (fits acc))
    | rw =>
      dsimp only
      cases value : normValue r.norm (bits val (r.fld i j).lo (r.fld i j).w) with
      | none => exact ⟨get, fun _ => rfl⟩
      | some y =>
        have small := normValue_lt room (bits_lt ..) value
        cases later : r.defer with
        | true => exact ⟨by simp [setLater_get_self, Nat.mod_eq_of_lt small], fun _ => setLater_cur_self ..⟩
        | false => exact ⟨by simp [Nat.mod_eq_of_lt small], fun w => nomatch w⟩
    | ro => exact ⟨get, fun _ => rfl⟩
    | wo => exact ⟨get, fun _ => rfl⟩
    | own => exact ⟨get, fun _ => rfl⟩

/-- The frame covers the rows of the register at `off`: it names each field that a write can change there, and the values in
force where one of them waits. -/
def coversRow (s : State) (off : Nat) (fs : List Fld) (ps : List Part) (r : Row) : Prop :=
  ∀ e ∈ rowAt r off, r.acc = .rw ∨ r.acc = .w1c → rowLocked s r e.1 e.2 = false →
    (r.fld e.1 e.2).key ∈ fs.map Fld.key ∧ (r.defer = true → .inForce ∈ ps)

theorem elsewhere_fieldWrite (k : s.elsewhere v fs cs ps) (cover : coversRow s0 off fs ps r) :
    s.elsewhere (fieldWrite s0 off val v r) fs cs ps := by
  cases h : rowAt r off with
  | none => rwa [fieldWrite_none h]
  | some e =>
    unfold fieldWrite
    rw [h]
    dsimp only
    cases lock : rowLocked s0 r e.1 e.2 with
    | true => exact k
    | false =>
      have covered := fun acc => cover e h acc lock
      cases acc : r.acc with
      | w1c => exact elsewhere_set k _ (covered (.inr acc)).1
      | rw =>
        obtain ⟨names, waits⟩ := covered (.inl acc)
        cases value : normValue r.norm (bits val (r.fld e.1 e.2).lo (r.fld e.1 e.2).w) with
        | none => exact k
        | some x => cases later : r.defer with
          | true => exact elsewhere_setLater k x names (waits later)
          | false => exact elsewhere_set k x names
      | ro => exact k
      | wo => exact k
      | own => exact k

end FieldWrite

/-! ### What a write does to the fields of a register -/

section FieldsWrite

variable {s s0 v : State} {off val i j : Nat} {r : Row} {l : List Row} {cs : List Nat}

theorem fieldsWrite_resp (s : State) (off val : Nat) : (fieldsWrite s off val).resp = s.resp :=
  List.foldlRecOn (motive := fun u : State => u.resp = s.resp) _ _ rfl (fun _ h _ _ => fieldWrite_resp.trans h)

theorem elsewhere_fieldsWrite {fs : List Fld} {ps : List Part} (k : s.elsewhere v fs cs ps) (val : Nat)
    (cover : ∀ r ∈ blockRows off, coversRow v off fs ps r) : s.elsewhere (fieldsWrite v off val) fs cs ps :=
  elsewhere_foldl _ k (fun _ r hr h => elsewhere_fieldWrite h (cover r hr))

theorem foldl_fieldWrite_other {g : Fld} (h : ∀ r ∈ l, ∀ e ∈ rowAt r off, (r.fld e.1 e.2).key ≠ g.key) :
    (l.foldl (fieldWrite s0 off val) v).get g = v.get g ∧ (l.foldl (fieldWrite s0 off val) v).cur g = v.cur g := by
  induction l generalizing v with
  | nil => exact ⟨rfl, rfl⟩
  | cons r l ih =>
    obtain ⟨get, cur⟩ := fieldWrite_other (s0 := s0) (val := val) (v := v) (h r (List.mem_cons_self ..))
    obtain ⟨get', cur'⟩ := ih (v := fieldWrite s0 off val v r) (fun q hq => h q (List.mem_cons_of_mem _ hq))
    exact ⟨get'.trans get, cur'.trans cur⟩

/-- Row by row, the write of a register leaves in each field what the tables say. -/
theorem foldl_fieldWrite_row (sound : tableSound l) (hr : r ∈ l) (h : rowAt r off = some (i, j))
    (get : v.get (r.fld i j) = s0.get (r.fld i j)) (fits : r.acc = .w1c → s0.get (r.fld i j) < 2 ^ (r.fld i j).w) :
    (l.foldl (fieldWrite s0 off val) v).get (r.fld i j) = writtenValue s0 val r i j ∧
      (r.defer = true → (l.foldl (fieldWrite s0 off val) v).cur (r.fld i j) = v.cur (r.fld i j)) := by
  induction l generalizing v with
  | nil => cases hr
  | cons q l ih =>
    obtain ⟨all, pairs⟩ := sound
    obtain ⟨apart, others⟩ := List.pairwise_cons.1 pairs
    obtain ⟨soundQ, rows⟩ := List.forall_mem_cons.1 all
    rcases List.mem_cons.1 hr with rfl | hr
    · have rest := foldl_fieldWrite_other (l := l) (s0 := s0) (val := val) (v := fieldWrite s0 off val v r)
        (g := r.fld i j) (fun p hp e he => (key_ne_of_apart soundQ (rows p hp) (apart p hp) h he).symm)
      have own := fieldWrite_own (val := val) soundQ h get fits
      exact ⟨rest.1.trans own.1, fun later => rest.2.trans (own.2 later)⟩
    · have before := fieldWrite_other (s0 := s0) (val := val) (v := v) (r := q) (g := r.fld i j) (off := off)
        (fun e he => key_ne_of_apart (i := e.1) (j := e.2) (e := (i, j)) soundQ (rows r hr) (apart r hr) he h)
      have rest := ih (v := fieldWrite s0 off val v q) ⟨rows, others⟩ hr (before.1.trans get)
      exact ⟨rest.1, fun later => (rest.2 later).trans before.2⟩

end FieldsWrite

/-! ### The command (R5, R33, R34, R346) -/

section RegisterWrite

variable {t off : Nat} {m : Master} {val : Word} {reads : BusReads} {s v : State}

theorem exec_registerWrite (h : m = .host ∨ reads.core = none) :
    exec (.registerWrite t m off val reads) s = act t s (fun s => busWrite s m off val.toNat reads) := by
  have bus : (fun s => registerWrite s m off val.toNat reads) = fun s => busWrite s m off val.toNat reads := by
    funext s
    unfold registerWrite
    rcases h with rfl | none
    · rfl
    · rw [none]
      cases m <;> rfl
  show act t s (fun s => registerWrite s m off val.toNat reads) = _
  rw [bus]

theorem masterNow_eq_host (s : State) (m : Master) : masterNow s m = .host ↔ m = .host := by
  unfold masterNow
  split
  next crown => simp [crown.1]
  · rfl

theorem standbyWake_awake (src : Nat) (h : s.get Reg.PWR_STATUS_state ≠ 2) : standbyWake s src = s :=
  if_neg (fun wakes => h wakes.1)

/-- A write of the register does nothing beside its fields, and no rule refuses it. -/
structure PlainRegister (off : Nat) : Prop where
  block : off / 0x10000 ∉ [0x01, 0x07, 0x09, 0x0f, 0x11, 0x16]
  taken : ∀ s m val, writeRefused s m off val = none
  still : ∀ s0 s m val reads, blockWrite s0 s m off val reads = s
  sound : tableSound (blockRows off)

/-- A field of a plain register is no flag of the Chronograph, no coalescing field and no part of PWR_STATUS. -/
theorem PlainRegister.key {i j : Nat} {r : Row} (plain : PlainRegister off) (hr : r ∈ blockRows off)
    (h : rowAt r off = some (i, j)) : chrFlagKey (r.fld i j).key = false ∧ vecKey (r.fld i j).key = false ∧
      (r.fld i j).key ≠ Reg.PWR_STATUS_state.key := by
  have block := plain.block
  obtain ⟨at_, low, -, -⟩ := rowSound_at (plain.sound.1 r hr) h
  simp only [List.mem_cons, List.not_mem_nil, or_false, not_or] at block
  unfold chrFlagKey vecKey Fld.key Reg.PWR_STATUS_state
  exact ⟨decide_eq_false (by omega), decide_eq_false (by omega), by dsimp only; omega⟩

theorem PlainRegister.busWrite_eq (plain : PlainRegister off) (x : Nat) (awake : m = .host → s.get Reg.PWR_STATUS_state ≠ 2) :
    busWrite s m off x reads = fieldsWrite { s with resp := .ok } off x := by
  have state : (fieldsWrite { s with resp := .ok } off x).get Reg.PWR_STATUS_state = s.get Reg.PWR_STATUS_state :=
    (foldl_fieldWrite_other (fun r hr e he => (plain.key (i := e.1) (j := e.2) hr he).2.2)).1
  have block := plain.block
  simp only [List.mem_cons, List.not_mem_nil, or_false, not_or] at block
  obtain ⟨-, chz, amc, -, mbx, -⟩ := block
  unfold busWrite
  simp only [chz, amc, mbx, if_false, plain.taken, plain.still]
  split
  next host => exact standbyWake_awake _ (state ▸ awake ((masterNow_eq_host s m).1 host))
  · rfl

/-- What a write of `val` leaves in the fields of the register at `off`. -/
def fieldsWritten (s u : State) (off val : Nat) : Prop :=
  ∀ r ∈ blockRows off, ∀ e ∈ rowAt r off, u.get (r.fld e.1 e.2) = writtenValue s val r e.1 e.2 ∧
    (r.defer = true → u.cur (r.fld e.1 e.2) = s.cur (r.fld e.1 e.2))

/-- Each W1C field of the register holds a value of its width. -/
def flagsFit (s : State) (off : Nat) : Prop :=
  ∀ r ∈ blockRows off, r.acc = .w1c → ∀ e ∈ rowAt r off, s.get (r.fld e.1 e.2) < 2 ^ (r.fld e.1 e.2).w

/-- The write of a plain register: its RW fields take what the tables say, its W1C fields lose the bits written 1, its other
fields and every other register stay, and what waits for a boundary stays in force. -/
theorem PlainRegister.changes {fs : List Fld} {ps : List Part} (plain : PlainRegister off) (h : s.settled)
    (awake : m = .host → s.get Reg.PWR_STATUS_state ≠ 2) (bar : m = .host ∨ reads.core = none) (fits : flagsFit s off)
    (cover : ∀ r ∈ blockRows off, coversRow s off fs ps r) (idle : .power ∉ ps ∧ .txDone ∉ ps) :
    changes (.registerWrite t m off val reads) s fs [] ps (fun u => u.resp = .ok ∧ fieldsWritten s u off val.toNat) := by
  have effect : busWrite (s.begin t) m off val.toNat reads = fieldsWrite { s.begin t with resp := .ok } off val.toNat :=
    plain.busWrite_eq _ awake
  have frame : s.elsewhere (fieldsWrite { s.begin t with resp := .ok } off val.toNat) fs [] ps :=
    elsewhere_fieldsWrite (elsewhere_resp (elsewhere_begin (elsewhere_refl ..) t) .ok) _ cover
  have ended : (fieldsWrite { s.begin t with resp := .ok } off val.toNat).txDone = s.txDone := frame.2.2.1 .txDone idle.2
  have power : (fieldsWrite { s.begin t with resp := .ok } off val.toNat).pwr = s.pwr := frame.2.2.1 .power idle.1
  refine changes_act (exec_registerWrite bar) h ?_ ?_ ?_ (fun u kept => ?_) <;> rw [effect] at *
  · exact ended.trans h.2.1
  · exact (congrArg Pwr.inbox power).trans h.2.2
  · exact frame
  · refine ⟨kept.resp.trans (fieldsWrite_resp ..), fun r hr e he => ?_⟩
    obtain ⟨flag, vector, -⟩ := plain.key (i := e.1) (j := e.2) hr he
    obtain ⟨value, cur⟩ := foldl_fieldWrite_row (s0 := { s.begin t with resp := .ok }) (v := { s.begin t with resp := .ok })
      (val := val.toNat) (i := e.1) (j := e.2) plain.sound hr he rfl (fun w1c => fits r hr w1c e he)
    refine ⟨(kept.get _ flag).trans value, fun later => ?_⟩
    have stays := cur later
    unfold State.cur at stays ⊢
    rw [kept.get _ flag, kept.inForce _ vector]
    exact stays

end RegisterWrite

/-! ### The registers without an action of RFX, SIC, PHY, SLP and TWN -/

theorem regIdx_eq_some {off base stride n i : Nat} (h : regIdx off base stride n = some i) : i < n ∧ off = base + stride * i := by
  unfold regIdx at h
  split at h
  · cases h
  next above =>
    dsimp only at h
    split at h
    next inside =>
      obtain rfl : (off - base) / stride = i := by simpa using h
      have parts := Nat.div_add_mod (off - base) stride
      exact ⟨inside.2, by omega⟩
    · cases h

theorem regIdx_eq_none {off base stride n : Nat} (h : ∀ k : Fin n, off ≠ base + stride * k) : regIdx off base stride n = none := by
  cases k : regIdx off base stride n with
  | none => rfl
  | some i =>
    obtain ⟨lt, place⟩ := regIdx_eq_some k
    exact absurd place (h ⟨i, lt⟩)

theorem rfxWrite_plain {off : Nat} (h : off ∉ [0x30000, 0x40000]) (s : State) (val : Nat) : rfxWrite s off val = s := by
  have none : regIdx off 0x30000 0x10000 2 = none := regIdx_eq_none (fun k => by
    simp only [List.mem_cons, List.not_mem_nil, or_false] at h
    omega)
  unfold rfxWrite
  rw [none]

theorem sicWrite_plain {off : Nat} (h : off ≠ 0x60000) (slot : ∀ k : Fin 4, off ≠ 0x60110 + 0x100 * k) (s : State) (val : Nat) :
    sicWrite s off val = s := by
  unfold sicWrite
  rw [if_neg h, regIdx_eq_none slot]

theorem phyWrite_plain {off : Nat} (h : off ≠ 0x80010) (profile : ∀ k : Fin 32, off ≠ 0x80100 + 0x20 * k) (s : State) (val : Nat) :
    phyWrite s off val = s := by
  unfold phyWrite
  rw [if_neg h, regIdx_eq_none profile]

theorem slpWrite_plain {off : Nat} (h : off ∉ [0xa0000, 0xa0020]) (s : State) (val : Nat) : slpWrite s off val = s := by
  unfold slpWrite
  split
  · exact absurd (by decide) h
  · exact absurd (by decide) h
  · rfl

theorem twnWrite_plain {off : Nat} (h : off ≠ 0x140000) (s : State) (val : Nat) : twnWrite s off val = s := if_neg h

/-- The tables of these blocks are sound. -/
theorem blockRows_sound {off : Nat} (block : off / 0x10000 ∈ [3, 4, 6, 8, 10, 20]) : tableSound (blockRows off) := by
  simp only [List.mem_cons, List.not_mem_nil, or_false] at block
  unfold blockRows
  rcases block with b | b | b | b | b | b <;> rw [b]
  exacts [rfxRows_sound, rfxRows_sound, sicRows_sound, phyRows_sound, slpRows_sound, twnRows_sound]

/-- No rule on the master and no lock of its own stands before a write in another block. -/
theorem writeRefused_eq_none {off : Nat} (block : off / 0x10000 ∉ [0x2, 0xb, 0xc, 0xe, 0x15]) (s : State) (m : Master) (val : Nat) :
    writeRefused s m off val = none := by
  simp only [List.mem_cons, List.not_mem_nil, or_false, not_or] at block
  obtain ⟨bal, esc, fwd, jwl, crn⟩ := block
  unfold writeRefused
  dsimp only
  split
  next b => exact absurd b bal
  next b => exact absurd b esc
  next b => exact absurd b fwd
  next b => exact absurd b jwl
  next b => exact absurd b crn
  · rfl

/-- What a write of them does is what it does to their fields. -/
theorem plainRegister {off : Nat} (block : off / 0x10000 ∈ [3, 4, 6, 8, 10, 20])
    (h : off ∉ [0x30000, 0x40000, 0x60000, 0x80010, 0xa0000, 0xa0020, 0x140000])
    (profile : ∀ k : Fin 32, off ≠ 0x80100 + 0x20 * k) (slot : ∀ k : Fin 4, off ≠ 0x60110 + 0x100 * k) : PlainRegister off where
  block := by
    simp only [List.mem_cons, List.not_mem_nil, or_false] at block ⊢
    omega
  taken := writeRefused_eq_none (by
    simp only [List.mem_cons, List.not_mem_nil, or_false] at block ⊢
    omega)
  still s0 s m val reads := by
    simp only [List.mem_cons, List.not_mem_nil, or_false, not_or] at block h
    obtain ⟨rfx0, rfx1, sic, phy, slp0, slp1, twn⟩ := h
    unfold blockWrite
    rcases block with b | b | b | b | b | b <;> rw [b]
    · exact rfxWrite_plain (by simp [rfx0, rfx1]) s val
    · exact rfxWrite_plain (by simp [rfx0, rfx1]) s val
    · exact sicWrite_plain sic slot s val
    · exact phyWrite_plain phy profile s val
    · exact slpWrite_plain (by simp [slp0, slp1]) s val
    · exact twnWrite_plain twn s val
  sound := blockRows_sound block

/-- The frame of a register's own fields covers its rows. -/
theorem writtenFields_cover {off : Nat} (s : State) : ∀ r ∈ blockRows off, coversRow s off (writtenFields off) [.inForce] r :=
  fun r hr e he acc _ => ⟨List.mem_map_of_mem (List.mem_flatMap.2 ⟨r, hr, by rw [he]; simp [acc]⟩), fun _ => by simp⟩

section Registers

variable {t off : Nat} {m : Master} {val : Word} {reads : BusReads} {s : State}

/-- The reset state meets the premise of the writes of SIC_STATUS. -/
theorem reset_flagsFit : flagsFit State.reset 0x60008 := by
  unfold flagsFit
  decide +kernel

/-- The registers of RFX, SIC, PHY, SLP and TWN without an action, where the W1C flags of SIC_STATUS hold one bit each. -/
theorem registerWrite_plain (h : s.settled) (awake : m = .host → s.get Reg.PWR_STATUS_state ≠ 2)
    (bar : m = .host ∨ reads.core = none) (block : off / 0x10000 ∈ [3, 4, 6, 8, 10, 20])
    (quiet : off ∉ [0x30000, 0x40000, 0x60000, 0x80010, 0xa0000, 0xa0020, 0x140000])
    (profile : ∀ k : Fin 32, off ≠ 0x80100 + 0x20 * k) (slot : ∀ k : Fin 4, off ≠ 0x60110 + 0x100 * k) (fits : flagsFit s off) :
    changes (.registerWrite t m off val reads) s (writtenFields off) [] [.inForce]
      (fun u => u.resp = .ok ∧ fieldsWritten s u off val.toNat) :=
  (plainRegister block quiet profile slot).changes h awake bar fits (writtenFields_cover s) (by decide)

/-! ### Single registers of GLB and BAL -/

/-- What `coversRow` asks of a row none of whose fields at `off` waits, where the fields that `held` names are not 0. -/
def rowCovered (off : Nat) (held : Fld → Bool) (fs : List Fld) (r : Row) : Bool :=
  (rowAt r off).all fun e => !(r.acc == .rw || r.acc == .w1c) || (r.lock e.1 e.2).any held ||
    (fs.map Fld.key).contains (r.fld e.1 e.2).key && !r.defer

theorem coversRow_of_rowCovered {held : Fld → Bool} {fs : List Fld} {r : Row} (locks : ∀ g, held g = true → s.get g ≠ 0)
    (h : rowCovered off held fs r = true) : coversRow s off fs [] r := by
  intro e he acc free
  have all : rowCovered off held fs r = true := h
  unfold rowCovered at all
  rw [Option.mem_def.1 he] at all
  simp only [Option.all_some, Bool.or_eq_true, Bool.and_eq_true, Bool.not_eq_true', List.contains_iff_mem] at all
  rcases all with (ro | locked) | ⟨names, soon⟩
  · rcases acc with a | a <;> simp [a] at ro
  · unfold rowLocked at free
    cases lock : r.lock e.1 e.2 with
    | none => simp [lock] at locked
    | some g =>
      rw [lock] at free locked
      exact absurd (by simpa [State.on] using free) (locks g (by simpa using locked))
  · exact ⟨names, fun later => by simp [soon] at later⟩

theorem glbClaimErr_flag : ∀ r ∈ blockRows 0x14, r.acc = .w1c → ∀ e ∈ rowAt r 0x14, r.fld e.1 e.2 = Reg.GLB_CLAIM_ERR_logged := by
  decide +kernel

theorem ptpSeconds_plain : PlainRegister 0x20068 := ⟨by decide, fun _ _ _ => rfl, fun _ _ _ _ _ => rfl, balRows_sound⟩
theorem gridCfg_plain : PlainRegister 0x20008 := ⟨by decide, fun _ _ _ => rfl, fun _ _ _ _ _ => rfl, balRows_sound⟩
theorem glbId_plain : PlainRegister 0 := ⟨by decide, fun _ _ _ => rfl, fun _ _ _ _ _ => rfl, glbRows_sound⟩
theorem claimErr_plain : PlainRegister 0x14 := ⟨by decide, fun _ _ _ => rfl, fun _ _ _ _ _ => rfl, glbRows_sound⟩

/-- A register with no W1C field. -/
theorem flagsFit_of_none (h : ∀ r ∈ blockRows off, r.acc = .w1c → rowAt r off = none) : flagsFit s off := by
  intro r hr w1c e he
  rw [h r hr w1c] at he
  cases he

theorem changes_mono {c : Instr} {fs : List Fld} {cs : List Nat} {ps : List Part} {P Q : State → Prop}
    (h : changes c s fs cs ps P) (k : ∀ u, P u → Q u) : changes c s fs cs ps Q := by
  obtain ⟨u, next, frame, p⟩ := h
  exact ⟨u, next, frame, k u p⟩

/-- BAL_PTP_SET_SEC_LO takes the word. -/
theorem registerWrite_ptpSeconds (h : s.settled) (awake : m = .host → s.get Reg.PWR_STATUS_state ≠ 2)
    (bar : m = .host ∨ reads.core = none) :
    changes (.registerWrite t m 0x20068 val reads) s [Reg.BAL_PTP_SET_SEC_LO_set_sec_lo] [] []
      (fun u => u.resp = .ok ∧ u.get Reg.BAL_PTP_SET_SEC_LO_set_sec_lo = val.toNat) := by
  have rows : ∀ r ∈ blockRows 0x20068, rowCovered 0x20068 (fun _ => false) [Reg.BAL_PTP_SET_SEC_LO_set_sec_lo] r = true := by
    decide +kernel
  refine changes_mono (ptpSeconds_plain.changes h awake bar (flagsFit_of_none (by decide +kernel))
    (fun r hr => coversRow_of_rowCovered (by simp) (rows r hr)) (by decide)) (fun u ⟨ok, written⟩ => ⟨ok, ?_⟩)
  refine (written _ (List.getElem_mem (l := balRows) (n := 50) (by decide)) (0, 0) rfl).1.trans ?_
  show bits val.toNat 0 32 = val.toNat
  simpa [bits] using Nat.mod_eq_of_lt val.isLt

/-- A running Balance locks the other fields of BAL_GRID_CFG. -/
theorem registerWrite_gridCfg (h : s.settled) (awake : m = .host → s.get Reg.PWR_STATUS_state ≠ 2)
    (bar : m = .host ∨ reads.core = none) (running : s.get Reg.BAL_CTRL_enable ≠ 0) :
    changes (.registerWrite t m 0x20008 val reads) s [Reg.BAL_GRID_CFG_rl_count, Reg.BAL_GRID_CFG_miss_limit,
      Reg.BAL_GRID_CFG_lock_count, Reg.BAL_GRID_CFG_hold_safe] [] [] (fun u => u.resp = .ok ∧
      u.get Reg.BAL_GRID_CFG_miss_limit = bits val.toNat Reg.BAL_GRID_CFG_miss_limit.lo Reg.BAL_GRID_CFG_miss_limit.w) := by
  have rows : ∀ r ∈ blockRows 0x20008, rowCovered 0x20008 (· == Reg.BAL_CTRL_enable) [Reg.BAL_GRID_CFG_rl_count,
      Reg.BAL_GRID_CFG_miss_limit, Reg.BAL_GRID_CFG_lock_count, Reg.BAL_GRID_CFG_hold_safe] r = true := by decide +kernel
  refine changes_mono (gridCfg_plain.changes h awake bar (flagsFit_of_none (by decide +kernel))
    (fun r hr => coversRow_of_rowCovered (by simpa using running) (rows r hr)) (by decide)) (fun u ⟨ok, written⟩ => ⟨ok, ?_⟩)
  exact (written _ (List.getElem_mem (l := balRows) (n := 15) (by decide)) (0, 0) rfl).1

/-- GLB_ID is read-only. -/
theorem registerWrite_glbId (h : s.settled) (awake : m = .host → s.get Reg.PWR_STATUS_state ≠ 2)
    (bar : m = .host ∨ reads.core = none) :
    changes (.registerWrite t m 0 val reads) s [] [] [] (fun u => u.resp = .ok) := by
  have rows : ∀ r ∈ blockRows 0, rowCovered 0 (fun _ => false) [] r = true := by decide +kernel
  exact changes_mono (glbId_plain.changes h awake bar (flagsFit_of_none (by decide +kernel))
    (fun r hr => coversRow_of_rowCovered (by simp) (rows r hr)) (by decide)) (fun u p => p.1)

theorem blockRows_beyond (beyond : 0x170000 ≤ off) : blockRows off = [] := by
  unfold blockRows
  split
  case h_24 => rfl
  all_goals omega

theorem blockWrite_beyond (beyond : 0x170000 ≤ off) (s0 s : State) (m : Master) (x : Nat) (reads : BusReads) :
    blockWrite s0 s m off x reads = s := by
  unfold blockWrite
  split
  case h_24 => rfl
  all_goals omega

/-- Beyond the last block no register is defined (R34). -/
theorem registerWrite_beyond (h : s.settled) (awake : m = .host → s.get Reg.PWR_STATUS_state ≠ 2)
    (bar : m = .host ∨ reads.core = none) (beyond : 0x170000 ≤ off) :
    changes (.registerWrite t m off val reads) s [] [] [] (fun u => u.resp = .ok) := by
  have rows := blockRows_beyond beyond
  have plain : PlainRegister off := by
    refine ⟨?_, writeRefused_eq_none ?_, blockWrite_beyond beyond, by rw [rows]; exact ⟨by simp, .nil⟩⟩ <;>
      (simp only [List.mem_cons, List.not_mem_nil, or_false]; omega)
  exact changes_mono (plain.changes h awake bar (flagsFit_of_none (by simp [rows])) (by simp [rows]) (by decide)) (fun u p => p.1)

/-- The bit logged of GLB_CLAIM_ERR is cleared by a 1, where it holds one bit. -/
theorem registerWrite_claimErr (h : s.settled) (awake : m = .host → s.get Reg.PWR_STATUS_state ≠ 2)
    (bar : m = .host ∨ reads.core = none) (fits : s.get Reg.GLB_CLAIM_ERR_logged < 2) :
    changes (.registerWrite t m 0x14 val reads) s [Reg.GLB_CLAIM_ERR_logged] [] [] (fun u => u.resp = .ok ∧
      u.get Reg.GLB_CLAIM_ERR_logged = if val.toNat < 2 ^ 31 then s.get Reg.GLB_CLAIM_ERR_logged else 0) := by
  have rows : ∀ r ∈ blockRows 0x14, rowCovered 0x14 (fun _ => false) [Reg.GLB_CLAIM_ERR_logged] r = true := by decide +kernel
  refine changes_mono (claimErr_plain.changes h awake bar (fun r hr w1c e he => by rw [glbClaimErr_flag r hr w1c e he]; exact fits)
    (fun r hr => coversRow_of_rowCovered (by simp) (rows r hr)) (by decide)) (fun u ⟨ok, written⟩ => ⟨ok, ?_⟩)
  refine (written _ (List.getElem_mem (l := glbRows) (n := 13) (by decide)) (0, 0) rfl).1.trans ?_
  show s.get Reg.GLB_CLAIM_ERR_logged - (s.get Reg.GLB_CLAIM_ERR_logged &&& bits val.toNat 31 1) = _
  have word := val.isLt
  split
  next low =>
    have zero : bits val.toNat 31 1 = 0 := by unfold bits; omega
    simp [zero]
  next high =>
    have one : bits val.toNat 31 1 = 1 := by unfold bits; omega
    rw [one, Nat.and_one_is_mod, Nat.mod_eq_of_lt fits, Nat.sub_self]

end Registers

/-! ### Narrow accesses and the core bus (R5, R346) -/

section NarrowAccess

variable {t off octets a : Nat} {m : Master} {s : State}

/-- A command whose whole effect is its completion. -/
theorem leadsTo_resp {c : Instr} {f : State → State} {r : Resp} (e : exec c s = act t s f) (h : s.settled)
    (k : f (s.begin t) = { s.begin t with resp := r }) : leadsTo c s { s.now t with resp := r } := by
  refine leadsTo_act e h h.2.1 h.2.2 ?_
  rw [k]
  exact Kept.chr (u := { s.now t with resp := r }) (chrTime s (max s.ltb t)) (Kept.refl _) (chrTime_same s _)

theorem narrowAccess_bar0 (write : Bool) (s : State) : narrowAccess s m off octets (.bar0 write) = unsupported s off octets := by
  cases m <;> rfl

theorem narrowAccess_coreRead (hm : m ≠ .host) (s : State) : narrowAccess s m off octets (.core a none) = coreRead s m a octets := by
  cases m with
  | host => exact absurd rfl hm
  | coreNs | coreS | crown => rfl

theorem narrowAccess_coreWrite (hm : m ≠ .host) (s : State) (l : List Byte) :
    narrowAccess s m off octets (.core a (some l)) = coreWrite s m a octets (octetsAt l 0 octets) {} := by
  cases m with
  | host => exact absurd rfl hm
  | coreNs | coreS | crown => rfl

theorem exec_unsupportedAccess (x : NarrowAccess) : exec (.unsupportedAccess t m off octets x) s =
    act t s (fun s => narrowAccess s m off octets x) := rfl

/-- A narrower or unaligned access of BAR0 is unsupported. -/
theorem unsupportedAccess_narrow {write : Bool} (h : s.settled) (narrow : octets ≠ 4 ∨ off % 4 ≠ 0) :
    leadsTo (.unsupportedAccess t m off octets (.bar0 write)) s { s.now t with resp := .unsupportedRequest } := by
  refine leadsTo_resp (exec_unsupportedAccess _) h ?_
  rw [narrowAccess_bar0]
  exact if_pos narrow

/-- Of an aligned word of BAR0 the row changes nothing. -/
theorem unsupportedAccess_word {write : Bool} (h : s.settled) (size : octets = 4) (aligned : off % 4 = 0) :
    leadsTo (.unsupportedAccess t m off octets (.bar0 write)) s (s.now t) := by
  refine leadsTo_resp (r := .none) (exec_unsupportedAccess _) h ?_
  rw [narrowAccess_bar0]
  exact if_neg (by simp [size, aligned])

/-- A read of core SRAM or LPDDR4X answers the octets there. -/
theorem unsupportedAccess_coreRead {o : Nat} (h : s.settled) (hm : m ≠ .host)
    (ram : coreReach s a = .sram o ∨ coreReach s a = .dram o) :
    leadsTo (.unsupportedAccess t m off octets (.core a none)) s { s.now t with
      resp := .value (BitVec.ofNat 32 (ofLe ((List.range octets).map (fun i => cellRead s.hif.mem (a + i))))) } := by
  refine leadsTo_resp (exec_unsupportedAccess _) h ?_
  have reach : coreReach (s.begin t) a = coreReach s a := rfl
  rw [narrowAccess_coreRead hm]
  unfold coreRead
  rcases ram with r | r <;> rw [reach, r] <;> rfl

/-- An access outside the map ends with a bus error. -/
theorem unsupportedAccess_coreMiss {d : Option (List Byte)} (h : s.settled) (hm : m ≠ .host) (miss : coreMap a = .busError) :
    leadsTo (.unsupportedAccess t m off octets (.core a d)) s { s.now t with resp := .busError } := by
  refine leadsTo_resp (exec_unsupportedAccess _) h ?_
  have reach : coreReach (s.begin t) a = .busError := by
    unfold coreReach
    rw [miss]
  cases d with
  | none =>
    rw [narrowAccess_coreRead hm]
    unfold coreRead
    rw [reach]
  | some l =>
    rw [narrowAccess_coreWrite hm]
    unfold coreWrite
    rw [reach]

theorem octetsAt_whole {l : List Byte} (h : l.length = octets) : (octetsAt l 0 octets).take octets = l := by
  subst h
  simp [octetsAt]

theorem elsewhere_ramWrite {v : State} {fs : List Fld} {cs : List Nat} {ps : List Part} (k : s.elsewhere v fs cs ps) (a : Nat)
    (l : List Byte) (hp : .cluster ∈ ps) : s.elsewhere (ramWrite v a l) fs cs ps :=
  elsewhere_resp (elsewhere_mem k (cellsWrite v.hif.mem a l) hp) .ok

/-- A write of core SRAM or LPDDR4X puts its octets there and nowhere else. -/
theorem unsupportedAccess_coreWrite {o : Nat} {l : List Byte} (h : s.settled) (hm : m ≠ .host)
    (ram : coreReach s a = .sram o ∨ coreReach s a = .dram o) (length : l.length = octets) (form : s.memOk) (rings : s.hostRings) :
    changes (.unsupportedAccess t m off octets (.core a (some l))) s [] [] [.cluster] (fun u => u.resp = .ok ∧
      (∀ i (h : i < l.length), cellRead u.hif.mem (a + i) = l[i]) ∧
      ∀ x, x < a ∨ a + octets ≤ x → cellRead u.hif.mem x = cellRead s.hif.mem x) := by
  have effect : narrowAccess (s.begin t) m off octets (.core a (some l)) = ramWrite (s.begin t) a l := by
    have reach : coreReach (s.begin t) a = coreReach s a := rfl
    rw [narrowAccess_coreWrite hm]
    unfold coreWrite
    rcases ram with r | r <;> rw [reach, r, octetsAt_whole length]
  refine changes_act (exec_unsupportedAccess _) h ?_ ?_ ?_ (fun u kept => ?_) <;> rw [effect] at *
  · exact h.2.1
  · exact h.2.2
  · exact elsewhere_ramWrite (elsewhere_begin (elsewhere_refl ..) t) a l (List.mem_singleton_self _)
  · have mem : u.hif.mem = cellsWrite s.hif.mem a l := kept.mem rings
    rw [mem]
    exact ⟨kept.resp, fun i hi => cellRead_writes_in a i l form hi,
      fun x out => cellRead_writes_out a x l form (by omega)⟩

end NarrowAccess

/-! ### What O16 leaves out: the width of a flag -/

/-- The machine after reset, but with the value 2 in the one-bit flag logged of GLB_CLAIM_ERR. No register write leaves such a
value (`State.get_set_self`); nothing in `State.settled` keeps a state from holding it. -/
def wideFlag : State := { State.reset with fields := [(Reg.GLB_CLAIM_ERR_logged.key, 2)] }

theorem wideFlag_settled : wideFlag.settled := ⟨rfl, rfl, rfl⟩

/-- Refutes O16: in `wideFlag` a write of 0 to GLB_CLAIM_ERR stores the flag's one bit, 0, where the clause says that the value
read before, 2, stays. The same ends the first clause at the W1C flags of SIC_STATUS. That is all that fails: where these flags
hold values of their width, every clause holds (`registerWrite_plain` to `registerWrite_claimErr`, `unsupportedAccess_narrow` to
`unsupportedAccess_coreWrite`). -/
theorem not_registerAccessCompletes : ¬ Obligations.RegisterAccessCompletes := by
  intro h
  obtain ⟨-, -, -, -, -, claimErr, -⟩ := h 0 .host 0 {} wideFlag wideFlag_settled
  obtain ⟨u, hu, -, -, stays⟩ := claimErr (fun _ => by decide) (.inl rfl)
  obtain ⟨v, hv, kept⟩ := act_kept (s := wideFlag) (t := 0) (f := fun s => registerWrite s .host 0x14 0 {}) rfl rfl rfl
  cases hu.symm.trans hv
  rw [kept.get _ (by decide)] at stays
  have before : wideFlag.get Reg.GLB_CLAIM_ERR_logged = 2 := rfl
  have after : (registerWrite (wideFlag.begin 0) .host 0x14 0 {}).get Reg.GLB_CLAIM_ERR_logged = 0 := rfl
  rw [if_pos (by decide), before] at stays
  exact absurd (after.symm.trans stays) (by decide)

end Sys2Proof.Machine

namespace Sys2Proof.Machine

/-! ### The invariant (R37, R281, R304) -/

/-- The invariant says nothing of the LTB. -/
theorem State.Inv.ltb {s : State} (h : s.Inv) (t : Nat) : ({ s with ltb := t } : State).Inv := h

/-- The release of chip reset undoes nothing but the LTB, which it restarts where it acts. -/
theorem chipResetRelease_keepsInv {s : State} (h : s.Inv) : (chipResetRelease s).Inv := by
  cases early : (!s.pwr.held || s.pwr.porLow || !holdOver s) with
  | true =>
    rw [chipResetRelease, if_pos early]
    exact h
  | false => exact (chipResetRelease_grows (Grows.refl _) early).inv (h.ltb 0)

/-- Every command keeps the invariant. -/
theorem exec_keepsInv {c : Instr} {s u : State} (h : s.Inv) (e : exec c s = .next u) : u.Inv := by
  by_cases release : ∃ t, c = .chipResetRelease t
  · obtain ⟨t, rfl⟩ := release
    obtain rfl := Host.Outcome.next.inj e
    have begun : (s.begin t).Inv := begin_grows.inv (h.ltb _)
    exact (finish_grows (Grows.refl _)).inv (chipResetRelease_keepsInv begun)
  · exact (exec_grows (fun t is => release ⟨t, is⟩) e).inv (h.ltb _)

/-- Settles O4: a step runs the command in front, which keeps the invariant, or idles. -/
theorem stepKeepsInv : Obligations.StepKeepsInv := by
  intro s u h e
  unfold step at e
  split at e
  · obtain rfl := Host.Outcome.next.inj e
    exact h
  next c rest front => exact exec_keepsInv (s := { s with pending := rest }) h e

end Sys2Proof.Machine

namespace Sys2Proof.Machine

/-! ### Frames, read from the shape of an effect

The rules of `State.elsewhere` for each update, so that a frame is one chain in the order of the effect: that a field, counter or
part is among those named is left to `simp`. -/

section Frames

variable {s v : State} {fs : List Fld} {cs : List Nat} {ps : List Part}

/-- The fields of an array are named by its range. -/
theorem key_mem_range (g : Nat → Fld) {n k : Nat} (h : n < k) (l : List Fld := []) :
    (g n).key ∈ (l ++ (List.range k).map g).map Fld.key :=
  List.mem_map_of_mem (List.mem_append_right _ (List.mem_map_of_mem (List.mem_range.2 h)))

theorem State.elsewhere.start (s : State) (t : Nat) : s.elsewhere (s.begin t) fs cs ps := elsewhere_begin (elsewhere_refl ..) t

theorem State.elsewhere.set (h : s.elsewhere v fs cs ps) {f : Fld} {x : Nat} (hf : f.key ∈ fs.map Fld.key := by simp) :
    s.elsewhere (v.set f x) fs cs ps := elsewhere_set h x hf

theorem State.elsewhere.setb (h : s.elsewhere v fs cs ps) {f : Fld} {x : Bool} (hf : f.key ∈ fs.map Fld.key := by simp) :
    s.elsewhere (v.setb f x) fs cs ps := elsewhere_setb h x hf

theorem State.elsewhere.takeEffect (h : s.elsewhere v fs cs ps) {l : List Fld} (hp : .inForce ∈ ps := by simp) :
    s.elsewhere (v.takeEffect l) fs cs ps := elsewhere_takeEffect h l hp

theorem State.elsewhere.raise (h : s.elsewhere v fs cs ps) {ev a b c : Nat}
    (hf : faultEvents.contains ev = false ∨ .power ∈ ps := by simp [faultEvents]) : s.elsewhere (v.raise ev a b c) fs cs ps :=
  elsewhere_raise h a b c hf

theorem State.elsewhere.bump (h : s.elsewhere v fs cs ps) {c : Nat} (hc : c ∈ cs ∨ c ∈ reportCounts := by simp) :
    s.elsewhere (v.bump c) fs cs ps := elsewhere_bump h hc

theorem State.elsewhere.claims (h : s.elsewhere v fs cs ps) {x : Tab Holder} (hp : .claims ∈ ps := by simp) :
    s.elsewhere { v with claims := x } fs cs ps := elsewhere_claims h x hp

theorem State.elsewhere.releaseAll (h : s.elsewhere v fs cs ps) {f : Nat} {rs : List Nat} (hp : .claims ∈ ps := by simp) :
    s.elsewhere (releaseAll v f rs) fs cs ps := elsewhere_releaseAll h f rs hp

theorem State.elsewhere.drive (h : s.elsewhere v fs cs ps) {b : Ball} {x : Bool} (hp : .pins ∈ ps := by simp) :
    s.elsewhere (v.drive b x) fs cs ps := elsewhere_drive h b x hp

theorem State.elsewhere.undrive (h : s.elsewhere v fs cs ps) {b : Ball} (hp : .pins ∈ ps := by simp) :
    s.elsewhere (v.undrive b) fs cs ps := elsewhere_undrive h b hp

theorem State.elsewhere.onBal (h : s.elsewhere v fs cs ps) {f : Bal → Bal} (hp : .bal ∈ ps := by simp) :
    s.elsewhere (v.onBal f) fs cs ps := elsewhere_onBal h f hp

theorem State.elsewhere.setTt (h : s.elsewhere v fs cs ps) {n : Nat} {x : TtState} (hp : .bal ∈ ps := by simp) :
    s.elsewhere (v.setTt n x) fs cs ps := elsewhere_setTt h n x hp

theorem State.elsewhere.onSlp (h : s.elsewhere v fs cs ps) {f : Slp → Slp} (hp : .slp ∈ ps := by simp) :
    s.elsewhere (v.onSlp f) fs cs ps := elsewhere_onSlp h f hp

theorem State.elsewhere.onAmc (h : s.elsewhere v fs cs ps) {f : Amc → Amc} (hp : .amc ∈ ps := by simp) :
    s.elsewhere (v.onAmc f) fs cs ps := elsewhere_onAmc h f hp

theorem State.elsewhere.coex (h : s.elsewhere v fs cs ps) {x : Coex} (hp : .coex ∈ ps := by simp) :
    s.elsewhere { v with coex := x } fs cs ps := elsewhere_coex h x hp

theorem State.elsewhere.onEsc (h : s.elsewhere v fs cs ps) {f : Esc → Esc} (hp : .esc ∈ ps := by simp) :
    s.elsewhere (v.onEsc f) fs cs ps := elsewhere_onEsc h f hp

theorem State.elsewhere.sset (h : s.elsewhere v fs cs ps) {f : Fld} {x : Int} (hf : f.key ∈ fs.map Fld.key := by simp) :
    s.elsewhere (v.sset f x) fs cs ps := elsewhere_sset h x hf

theorem State.elsewhere.bumpBy (h : s.elsewhere v fs cs ps) {c n : Nat} (hc : c ∈ cs ∨ c ∈ reportCounts := by simp) :
    s.elsewhere (v.bumpBy c n) fs cs ps := elsewhere_bumpBy h n hc

theorem State.elsewhere.emit (h : s.elsewhere v fs cs ps) {o : Output} : s.elsewhere (v.emit o) fs cs ps := elsewhere_emit h o

theorem State.elsewhere.resp (h : s.elsewhere v fs cs ps) {r : Resp} : s.elsewhere { v with resp := r } fs cs ps :=
  elsewhere_resp h r

theorem State.elsewhere.onFwd (h : s.elsewhere v fs cs ps) {f : Fwd → Fwd} (hp : .fwd ∈ ps := by simp) :
    s.elsewhere (v.onFwd f) fs cs ps := elsewhere_onFwd h f hp

theorem State.elsewhere.onCtx (h : s.elsewhere v fs cs ps) {f : Ctx → Ctx} (hp : .ctx ∈ ps := by simp) :
    s.elsewhere (v.onCtx f) fs cs ps := elsewhere_onCtx h f hp

theorem State.elsewhere.onJwl (h : s.elsewhere v fs cs ps) {f : Jwl → Jwl} (hp : .jwl ∈ ps := by simp) :
    s.elsewhere (v.onJwl f) fs cs ps := elsewhere_onJwl h f hp

theorem State.elsewhere.setRx (h : s.elsewhere v fs cs ps) {n : Nat} {x : Rx} (hp : .rx ∈ ps := by simp) :
    s.elsewhere (v.setRx n x) fs cs ps := elsewhere_setRx h n x hp

theorem State.elsewhere.onRx (h : s.elsewhere v fs cs ps) {n : Nat} {f : Rx → Rx} (hp : .rx ∈ ps := by simp) :
    s.elsewhere (v.onRx n f) fs cs ps := elsewhere_onRx h n f hp

theorem State.elsewhere.onRing (h : s.elsewhere v fs cs ps) {n : Nat} {f : Ring → Ring} (hp : .rings ∈ ps := by simp) :
    s.elsewhere (v.onRing n f) fs cs ps := elsewhere_onRing h n f hp

theorem State.elsewhere.setOctets (h : s.elsewhere v fs cs ps) {a : Nat} {l : List Byte} (hp : .store ∈ ps := by simp) :
    s.elsewhere (v.setOctets a l) fs cs ps := elsewhere_setOctets h a l hp

end Frames

/-- The claim of one resource by a feature. -/
def claimTaken (s : State) (f r : Nat) : State := { s with claims := tabPut s.claims r ⟨false, f⟩ }

@[simp] theorem claimTaken_get (s : State) (f r : Nat) (g : Fld) : (claimTaken s f r).get g = s.get g := rfl
@[simp] theorem claimTaken_on (s : State) (f r : Nat) (g : Fld) : (claimTaken s f r).on g = s.on g := rfl
@[simp] theorem claimTaken_amc (s : State) (f r : Nat) : (claimTaken s f r).amc = s.amc := rfl
@[simp] theorem claimTaken_inForce (s : State) (f r : Nat) : (claimTaken s f r).inForce = s.inForce := rfl
@[simp] theorem claimTaken_claims (s : State) (f r : Nat) : (claimTaken s f r).claims = tabPut s.claims r ⟨false, f⟩ := rfl

theorem State.elsewhere.claimTaken {s v : State} {fs : List Fld} {cs : List Nat} {ps : List Part} (h : s.elsewhere v fs cs ps)
    {f r : Nat} (hp : .claims ∈ ps := by simp) : s.elsewhere (claimTaken v f r) fs cs ps := elsewhere_claims h _ hp

/-- A feature that finds its one resource free takes it. -/
theorem claimAll_one {s : State} {f r : Nat} (free : claimFree s f r = true) : claimAll s f [r] = (true, claimTaken s f r) :=
  claimAll_free (by simpa using free)

/-! ### Octets -/

theorem leOctets_length (n v : Nat) : (leOctets n v).length = n := by
  induction n generalizing v with
  | zero => rfl
  | succ n ih => simp [leOctets, ih]

theorem ofLe_leOctets (n v : Nat) : ofLe (leOctets n v) = v % 256 ^ n := by
  induction n generalizing v with
  | zero => simp [leOctets, ofLe, Nat.mod_one]
  | succ n ih =>
    rw [leOctets, ofLe, ih, BitVec.toNat_ofNat, pow_succ' 256 n]
    exact (Nat.mod_mul ..).symm

theorem leOctets_ofLe (l : List Byte) : leOctets l.length (ofLe l) = l := by
  induction l with
  | nil => rfl
  | cons b r ih =>
    have low : (b.toNat + 256 * ofLe r) / 256 = ofLe r := by have := b.isLt; omega
    simp only [List.length_cons, leOctets, ofLe, low, ih, List.cons.injEq, and_true]
    refine BitVec.eq_of_toNat_eq ?_
    have := b.isLt
    rw [BitVec.toNat_ofNat]
    omega

theorem ofLe_lt (l : List Byte) : ofLe l < 256 ^ l.length := by
  have := ofLe_leOctets l.length (ofLe l)
  rw [leOctets_ofLe] at this
  exact this ▸ Nat.mod_lt _ (by positivity)

theorem octetsAt_of_le {l : List Byte} {i n : Nat} (h : i + n ≤ l.length) : octetsAt l i n = (l.drop i).take n := by
  have none : n - ((l.drop i).take n).length = 0 := by simp; omega
  simp only [octetsAt, none, List.replicate_zero, List.append_nil]

/-- A list is its pieces one after the other. -/
theorem flatMap_pieces {α : Type} (l : List α) (n k : Nat) :
    (List.range k).flatMap (fun m => (l.drop (n * m)).take n) = l.take (n * k) := by
  induction k with
  | zero => simp
  | succ k ih => simp [List.range_succ, List.flatMap_append, ih, Nat.mul_succ, List.take_add]

/-! ### What a command leaves to be read -/

theorem State.on_iff {s : State} {f : Fld} : s.on f = true ↔ s.get f ≠ 0 := by simp [State.on]

theorem State.on_eq_false {s : State} {f : Fld} : s.on f = false ↔ s.get f = 0 := by simp [State.on]

/-- Below the histogram units there is no flag of the Chronograph. -/
theorem chrFlag_low {k : Nat} (h : k < 0x16060c * 32) : chrFlagKey k = false := decide_eq_false (by omega)

theorem Kept.cur {s u : State} (k : Kept s u) (f : Fld) (flag : chrFlagKey f.key = false) (vec : vecKey f.key = false) :
    u.cur f = s.cur f := by
  unfold State.cur
  rw [k.get f flag, k.inForce f.key vec]

theorem Kept.ttOf {s u : State} (k : Kept s u) (n : Nat) : u.ttOf n = s.ttOf n := by
  unfold State.ttOf
  rw [k.bal]

theorem State.ttOf_setTt (s : State) (n m : Nat) (x : TtState) : (s.setTt n x).ttOf m = if n = m then x else s.ttOf m :=
  tabGetD_put ..

@[simp] theorem State.set_ttOf (s : State) (f : Fld) (v n : Nat) : (s.set f v).ttOf n = s.ttOf n := rfl

@[simp] theorem releaseAll_ttOf (s : State) (f : Nat) (rs : List Nat) (n : Nat) : (releaseAll s f rs).ttOf n = s.ttOf n := rfl

theorem Kept.level {s u : State} (k : Kept s u) (b : Ball) : u.level b = s.level b := by
  unfold State.level
  rw [k.pins]

theorem takeEffect_waits {l : List Fld} {k : Nat} (s : State) (h : tabGet s.inForce k = none) :
    tabGet (s.takeEffect l).inForce k = none := by
  induction l generalizing s with
  | nil => exact h
  | cons g r ih =>
    refine ih _ ?_
    rw [tabGet_del]
    split
    · rfl
    · exact h

/-- A field that takes effect is in force as it was written. -/
theorem takeEffect_cur {l : List Fld} {f : Fld} (s : State) (h : f ∈ l) : (s.takeEffect l).cur f = s.get f := by
  unfold State.cur
  rw [State.takeEffect_get]
  suffices none : tabGet (s.takeEffect l).inForce f.key = none by rw [none]; rfl
  induction l generalizing s with
  | nil => cases h
  | cons g r ih =>
    rcases List.mem_cons.1 h with rfl | later
    · exact takeEffect_waits ({ s with inForce := tabDel s.inForce f.key } : State) (tabGet_del_self ..)
    · exact ih _ later

/-- A ball has the level that it is driven to. -/
@[simp] theorem State.level_drive_self (s : State) (b : Ball) (x : Bool) : (s.drive b x).level b = some x := by
  have gone : (s.pins.filter (fun e => e.1 != b)).find? (fun e => e.1 == b) = none :=
    List.find?_eq_none.2 (fun e he => by simpa using (List.mem_filter.1 he).2)
  simp [State.level, State.drive, List.find?_append, gone]

theorem mem_of_tabGet {α : Type} {m : Tab α} {k : Nat} {x : α} (h : tabGet m k = some x) : (k, x) ∈ m := by
  induction m with
  | nil => cases h
  | cons e r ih =>
    obtain ⟨i, a⟩ := e
    unfold tabGet at h
    split at h
    next key =>
      obtain rfl := Option.some.inj h
      exact key ▸ List.mem_cons_self ..
    · exact List.mem_cons_of_mem _ (ih h)

/-- What a feature releases it no longer holds. -/
theorem releaseAll_gone (s : State) {f r : Nat} {rs : List Nat} (h : r ∈ rs) :
    tabGet (releaseAll s f rs).claims r ≠ some ⟨false, f⟩ := by
  intro held
  have kept := (List.mem_filter.1 (mem_of_tabGet held)).2
  simp [h] at kept

/-- A fold leaves of each element what its own step establishes and no other step undoes. -/
theorem foldl_establishes {α : Type} {f : State → α → State} {P : α → State → Prop} {l : List α} {x : α} (s : State)
    (own : ∀ v x, P x (f v x)) (keep : ∀ v x y, P y v → P y (f v x)) (h : x ∈ l) : P x (l.foldl f s) := by
  induction l generalizing s with
  | nil => cases h
  | cons a r ih =>
    rcases List.mem_cons.1 h with rfl | later
    · exact List.foldlRecOn (motive := P x) r f (own s x) (fun v k y _ => keep v y x k)
    · exact ih _ later

/-- Each field of an array holds what a fold writes to it. -/
theorem get_foldl_set {g : Nat → Fld} {x : Nat → Nat} {l : List Nat} {k : Nat} (s : State)
    (inj : ∀ m n, (g m).key = (g n).key → m = n) (h : k ∈ l) :
    (l.foldl (fun s m => s.set (g m) (x m)) s).get (g k) = x k % 2 ^ (g k).w := by
  refine foldl_establishes (P := fun m v => v.get (g m) = x m % 2 ^ (g m).w) s (fun v m => State.get_set_self ..)
    (fun v m n hn => ?_) h
  by_cases same : (g m).key = (g n).key
  · obtain rfl := inj m n same
    exact State.get_set_self ..
  · rw [State.get_set_ne _ _ same]
    exact hn

/-- A command shown to change no more than its frame, by its whole effect `v`: a frame without the ends of transmissions and without
the fault classifier says that neither is left anything to tell. -/
theorem changes_of {c : Instr} {s v : State} {t : Nat} {f : State → State} {fs : List Fld} {cs : List Nat} {ps : List Part}
    {P : State → Prop} (e : exec c s = act t s f) (effect : f (s.begin t) = v) (h : s.settled) (frame : s.elsewhere v fs cs ps)
    (hP : ∀ u, Kept v u → P u) (idle : .txDone ∉ ps ∧ .power ∉ ps := by simp) : changes c s fs cs ps P := by
  subst effect
  have told : (f (s.begin t)).txDone = s.txDone := frame.2.2.1 .txDone idle.1
  have power : (f (s.begin t)).pwr = s.pwr := frame.2.2.1 .power idle.2
  exact changes_act e h (told.trans h.2.1) ((congrArg Pwr.inbox power).trans h.2.2) frame hP

/-- A command whose effect is that of `v` but for what the Chronograph has measured before. -/
theorem leadsTo_now {c : Instr} {s v : State} {t : Nat} {f : State → State} (e : exec c s = act t s f) (h : s.settled)
    (k : f (s.begin t) = { v with chr := chrTime s (max s.ltb t) }) (chr : v.chr = s.chr := by rfl)
    (ht : v.txDone = s.txDone := by rfl) (hi : v.pwr = s.pwr := by rfl) : leadsTo c s v := by
  refine leadsTo_act e h (ht.trans h.2.1) ((congrArg Pwr.inbox hi).trans h.2.2) ?_
  rw [k]
  exact (Kept.refl v).chr _ (chr ▸ chrTime_same s _)

end Sys2Proof.Machine

namespace Sys2Proof.Machine

/-! ### Commands that raise fault events (R433)

A parity error is judged by the fault classifier after the effect. Of an event that reports no channel of a lane the judgement is
the classifier's history, its list and its counters, and EV007. -/

/-- `u` is `s`, but for reporting, measuring and the judgement of the fault classifier. -/
structure Judged (s u : State) : Prop where
  elsewhere : s.elsewhere u [Reg.PWR_PERM_CNT_count] [Reg.PWR_CNT_PERMANENT, Reg.PWR_CNT_TRANSIENT] [.power]
  out : ∀ o ∈ s.out, o ∈ u.out
  pend : ∀ e ∈ s.hif.pend, e ∈ u.hif.pend
  ltb : u.ltb = s.ltb
  resp : u.resp = s.resp
  freeCtr : u.freeCtr = s.freeCtr

/-- No fault event on its way to the classifier reports a channel of a lane (EV082). -/
def State.noChannelFault (s : State) : Prop := ∀ e ∈ s.pwr.inbox, e.ev ≠ 82

section Judgement

variable {s v u : State}

theorem Kept.judged (k : Kept s u) : Judged s u := ⟨kept_elsewhere k, k.out, k.pend, k.ltb, k.resp, k.freeCtr⟩

theorem Judged.trans (h : Judged s v) (k : Judged v u) : Judged s u :=
  ⟨elsewhere_trans h.elsewhere k.elsewhere, fun o x => k.out o (h.out o x), fun e x => k.pend e (h.pend e x), k.ltb.trans h.ltb,
    k.resp.trans h.resp, k.freeCtr.trans h.freeCtr⟩

theorem Judged.part (h : Judged s u) (p : Part) (hp : p ∉ [Part.power] := by decide) : p.same s u := h.elsewhere.2.2.1 p hp

theorem Judged.get (h : Judged s u) {f : Fld} (flag : chrFlagKey f.key = false)
    (hf : f.key ∉ [Reg.PWR_PERM_CNT_count].map Fld.key) : u.get f = s.get f := h.elsewhere.1 f flag hf

theorem Judged.count (h : Judged s u) {c : Nat} (hc : c ∉ [Reg.PWR_CNT_PERMANENT, Reg.PWR_CNT_TRANSIENT]) (hr : c ∉ reportCounts) :
    u.count c = s.count c := h.elsewhere.2.1 c hc hr

/-- The classifier's own state is its judgement. -/
theorem judged_onPwr (s : State) (f : Pwr → Pwr) : Judged s (s.onPwr f) :=
  ⟨elsewhere_onPwr (elsewhere_refl ..) f (by simp), fun _ h => h, fun _ h => h, rfl, rfl, rfl⟩

theorem judged_bump (s : State) {c : Nat} (hc : c ∈ [Reg.PWR_CNT_PERMANENT, Reg.PWR_CNT_TRANSIENT]) : Judged s (s.bump c) :=
  ⟨elsewhere_bump (elsewhere_refl ..) (.inl hc), fun _ h => h, fun _ h => h, by simp, by simp, by simp⟩

theorem declare_judged (s : State) (a b c : Nat) : Judged s (declare s a b c) := by
  unfold declare
  extract_lets perm v
  have listed : Judged s v :=
    (judged_onPwr s _).trans ⟨elsewhere_set (elsewhere_refl ..) _ (by simp), fun _ h => h, fun _ h => h, rfl, rfl, rfl⟩
  exact (listed.trans (judged_bump v (by simp))).trans (raise_kept _ _ _ _ _ rfl).judged

theorem declare_inbox (s : State) (a b c : Nat) : (declare s a b c).pwr.inbox = s.pwr.inbox := by
  unfold declare
  dsimp only
  rw [State.raise_pwr, if_neg (by decide)]
  simp [State.onPwr]

/-- Only EV082 is of class 3. -/
theorem faultClass_ne_three {e : FaultEv} {c o i : Nat} (h : e.ev ≠ 82) (hc : faultClass e = some (c, o, i)) : c ≠ 3 := by
  unfold faultClass at hc
  split at hc <;> simp_all <;> omega

theorem classifyFault_judged {e : FaultEv} (h : e.ev ≠ 82) : 
    Judged s (classifyFault s e) ∧ (classifyFault s e).pwr.inbox = s.pwr.inbox := by
  unfold classifyFault
  split
  next => exact ⟨judged_bump s (by simp), by simp⟩
  next cls obj idx hc =>
    have lane := faultClass_ne_three h hc
    extract_lets key old new
    split
    next v _ =>
      have noted : Judged s v := judged_onPwr s _
      split
      · exact absurd rfl lane
      · exact ⟨noted.trans (declare_judged ..), declare_inbox ..⟩
      · exact ⟨noted.trans (declare_judged ..), declare_inbox ..⟩
    next => exact ⟨(judged_onPwr s _).trans (judged_bump _ (by simp)), by simp [State.onPwr]⟩

theorem classifyInbox_judged (n : Nat) (h : s.noChannelFault) : Judged s (classifyInbox n s) := by
  induction n generalizing s with
  | zero => exact (Kept.refl s).judged
  | succ n ih =>
    unfold classifyInbox
    split
    next => exact (Kept.refl s).judged
    next e r inbox =>
      obtain ⟨judged, rest⟩ := classifyFault_judged (s := s.onPwr (fun p => { p with inbox := r })) (h e (by simp [inbox]))
      refine ((judged_onPwr s _).trans judged).trans (ih (fun x hx => h x ?_))
      rw [rest] at hx
      rw [inbox]
      exact List.mem_cons_of_mem _ hx

theorem finish_judged (ht : s.txDone = []) (h : s.noChannelFault) : Judged s s.finish := by
  unfold State.finish
  rw [txDrain_nil _ ht]
  exact (classifyInbox_judged _ h).trans ((chrRises_kept _).trans (chrSettle_kept _)).judged

/-- Raising another event keeps that no channel of a lane is reported. -/
theorem State.noChannelFault.raise (h : s.noChannelFault) {ev : Nat} (a b c : Nat) (he : ev ≠ 82 := by decide) :
    (s.raise ev a b c).noChannelFault := by
  unfold State.noChannelFault
  rw [State.raise_pwr]
  split
  next =>
    intro e hm
    rcases List.mem_append.1 hm with old | new
    · exact h e old
    · rw [List.mem_singleton.1 new]
      exact he
  next => exact h

theorem State.noChannelFault.same (h : s.noChannelFault) (e : v.pwr = s.pwr) : v.noChannelFault := by
  unfold State.noChannelFault
  rw [e]
  exact h

theorem State.settled.noChannelFault (h : s.settled) (t : Nat) : (s.begin t).noChannelFault :=
  fun e he => by simp [h.2.2] at he

/-- How a command that may raise fault events is shown to change no more than its frame. -/
theorem changes_judged {c : Instr} {t : Nat} {f : State → State} {fs : List Fld} {cs : List Nat} {ps : List Part}
    {P : State → Prop} (e : exec c s = act t s f) (effect : f (s.begin t) = v) (h : s.settled) (frame : s.elsewhere v fs cs ps)
    (quiet : v.noChannelFault) (hP : ∀ u, Judged v u → P u)
    (judge : Reg.PWR_PERM_CNT_count.key ∈ fs.map Fld.key ∧ Reg.PWR_CNT_PERMANENT ∈ cs ∧ Reg.PWR_CNT_TRANSIENT ∈ cs ∧
      .power ∈ ps ∧ .txDone ∉ ps := by simp) : changes c s fs cs ps P := by
  obtain ⟨perm, permanent, transient, power, tx⟩ := judge
  subst effect
  have judged := finish_judged ((frame.2.2.1 .txDone tx).trans h.2.1) quiet
  have all : Judged (f (s.begin t)) { (f (s.begin t)).finish with pending := s.pending } :=
    judged.trans (pending_kept _ (Kept.refl _)).judged
  refine ⟨_, ?_, elsewhere_trans frame (elsewhere_mono all.elsewhere ?_ ?_ ?_), hP _ all⟩
  · rw [e]
    simp only [act, h.1, Bool.false_eq_true, if_false]
  · simpa using perm
  · simpa using ⟨permanent, transient⟩
  · simpa using power

/-! A parity error of a Forwarding table (R276) -/

theorem elsewhere_fwdParity {table index ev : Nat} {fs : List Fld} {cs : List Nat} {ps : List Part} (h : s.elsewhere v fs cs ps)
    (tableField : Reg.FWD_PAR_LOG_table.key ∈ fs.map Fld.key) (indexField : Reg.FWD_PAR_LOG_index.key ∈ fs.map Fld.key)
    (logged : Reg.FWD_PAR_LOG_logged.key ∈ fs.map Fld.key) (count : Reg.FWD_CNT_PAR_ERR ∈ cs) (power : .power ∈ ps) :
    s.elsewhere (fwdParity v table index ev) fs cs ps :=
  .raise (.set (.set (.set (.bump h (.inl count)) tableField) indexField) logged) (.inr power)

@[simp] theorem fwdParity_fwd (s : State) (table index ev : Nat) : (fwdParity s table index ev).fwd = s.fwd := by
  simp [fwdParity]

theorem fwdParity_log (s : State) (table index ev : Nat) :
    (fwdParity s table index ev).get Reg.FWD_PAR_LOG_table = table % 4 ∧
    (fwdParity s table index ev).get Reg.FWD_PAR_LOG_index = index % 2 ^ 18 ∧
    (fwdParity s table index ev).get Reg.FWD_PAR_LOG_logged = 1 := by
  unfold fwdParity
  refine ⟨?_, ?_, ?_⟩
  all_goals
    simp (disch := decide) only [State.raise_get, State.get_set_ne, State.get_set_self]
    rfl

theorem fwdParity_count (s : State) (table index ev : Nat) :
    (fwdParity s table index ev).count Reg.FWD_CNT_PAR_ERR = (s.count Reg.FWD_CNT_PAR_ERR + 1) % 2 ^ 32 := by
  unfold fwdParity
  rw [State.raise_count _ _ _ _ _ _ (by decide)]
  exact (State.count_bumpBy ..).trans (if_pos rfl)

theorem State.noChannelFault.fwdParity (h : s.noChannelFault) (table index : Nat) {ev : Nat} (he : ev ≠ 82 := by decide) :
    (fwdParity s table index ev).noChannelFault :=
  (h.same (by simp)).raise _ _ _ he

end Judgement
end Sys2Proof.Machine

namespace Sys2Proof.Machine

/-! ### The Balance is enabled, disabled, loaded and snapped (R40, R51, R56) -/

section BalanceEnable

variable {t : Nat} {s : State}

/-- BAL_ENABLE from OFF, once the converter is claimed or not needed. -/
def balStarted (s : State) : State :=
  ((((((((setPeriod (s.onBal (fun b => { ({} : Bal) with
        cycles := [⟨0, s.ltb, nominalNs s⟩], pavg := nominalNs s * 128, enabledAt := s.ltb
        cycPend := b.cycPend, ptpSec := b.ptpSec, ptpNs := b.ptpNs, ptpLtb := b.ptpLtb, ppsSec := b.ppsSec
        tt := b.tt, burst := b.burst, cmp := b.cmp, tci := b.tci, ppsInLast := b.ppsInLast
        ppsPulseEnd := b.ppsPulseEnd, tsf := b.tsf, drq := b.drq })) (nominalNs s * 128)).set Reg.BAL_CTRL_enable 1).set
    Reg.BAL_STATUS_state 1).set Reg.BAL_STATUS_cyc_valid 0).set Reg.BAL_STATUS_slewing 0).onSlp (fun p =>
    { p with since := s.ltb })).onAmc (fun a => { a with ebDone := [] })).set Reg.BAL_STATUS_freq_range_err 0).set
    Reg.BAL_EPOCH_NUM_epoch_num 0 |>.takeEffect [Reg.BAL_SITE_PHASE_site_phase, Reg.BAL_EPOCH_LEN_epoch_len]

theorem balEnable_eq {v : State} (off : s.get Reg.BAL_CTRL_enable = 0) (clock : s.get Reg.BAL_STATUS_refclk_unlocked = 0)
    (taken : (if s.get Reg.BAL_GRID_CFG_source = 0 then (true, s) else claimAll s 0x0E [14]) = (true, v)) :
    balEnable s = balStarted v := by
  unfold balEnable
  rw [if_neg (by simp [State.on, off, clock]), taken]
  change (if (!true) = true then v else _) = _
  rw [if_neg (by decide)]
  extract_lets p fresh s1 s2 s3 amc slp s4
  have ltb : s3.ltb = v.ltb := by simp [s3, s2, s1, setPeriod]
  have fields : s4 = (s3.onSlp (fun p => { p with since := s3.ltb })).onAmc (fun a => { a with ebDone := [] }) := rfl
  rw [fields, ltb]
  rfl

/-- The converter is not in use, or it is claimed. -/
theorem balEnable_claims (free : s.get Reg.BAL_GRID_CFG_source = 0 ∨ claimFree s 0x0E 14 = true) :
    ∃ c : Tab Holder, (if s.get Reg.BAL_GRID_CFG_source = 0 then (true, s) else claimAll s 0x0E [14]) =
      (true, { s with claims := c }) ∧ (s.get Reg.BAL_GRID_CFG_source ≠ 0 → tabGet c 14 = some ⟨false, 0x0E⟩) := by
  by_cases src : s.get Reg.BAL_GRID_CFG_source = 0
  · exact ⟨s.claims, if_pos src, fun used => absurd src used⟩
  · exact ⟨_, (if_neg src).trans (claimAll_free (by simpa using free.resolve_left src)), fun _ => tabGet_put_self ..⟩

theorem balEnable_changes (h : s.settled) (off : s.get Reg.BAL_CTRL_enable = 0) (clock : s.get Reg.BAL_STATUS_refclk_unlocked = 0)
    (free : s.get Reg.BAL_GRID_CFG_source = 0 ∨ claimFree s 0x0E 14 = true) :
    changes (.balEnable t) s [Reg.BAL_PERIOD_period, Reg.BAL_CTRL_enable,
      Reg.BAL_STATUS_state, Reg.BAL_STATUS_cyc_valid, Reg.BAL_STATUS_slewing, Reg.BAL_STATUS_freq_range_err,
      Reg.BAL_EPOCH_NUM_epoch_num] [] [.bal, .claims, .slp, .amc, .inForce] (fun u =>
      u.amc = { s.amc with ebDone := [] } ∧ u.get Reg.BAL_CTRL_enable = 1 ∧ u.get Reg.BAL_STATUS_state = 1 ∧
      u.get Reg.BAL_STATUS_cyc_valid = 0 ∧ u.get Reg.BAL_EPOCH_NUM_epoch_num = 0 ∧
      u.bal.cycles = [⟨0, (max s.ltb t : Nat), nominalNs s⟩] ∧ (s.get Reg.BAL_GRID_CFG_source ≠ 0 →
      tabGet u.claims 14 = some ⟨false, 0x0E⟩) ∧
      u.cur Reg.BAL_SITE_PHASE_site_phase = s.get Reg.BAL_SITE_PHASE_site_phase ∧
      u.cur Reg.BAL_EPOCH_LEN_epoch_len = s.get Reg.BAL_EPOCH_LEN_epoch_len) := by
  obtain ⟨claims, taken, held⟩ := balEnable_claims (s := s.begin t) free
  have effect := balEnable_eq (s := s.begin t) off clock taken
  refine changes_of (f := balEnable) rfl effect h ?_ (fun u kept => ?_)
  · exact .takeEffect (.set (.set (.onAmc (.onSlp (.set (.set (.set (.set (.set (.onBal (.onBal (.claims (.start s t)))))))))))))
  · have cycles : u.bal.cycles = _ := congrArg Bal.cycles kept.bal
    rw [kept.amc, kept.claims, cycles, kept.cur _ (by decide) (by decide), kept.cur _ (by decide) (by decide)]
    refine ⟨rfl, ?_, ?_, ?_, ?_, rfl, held, ?_, ?_⟩
    all_goals simp (disch := decide) [kept.get, balStarted, setPeriod, takeEffect_cur, State.get_set_ne]

/-- What becomes of a trigger's state and of its armed bit when it is forgotten. -/
def ttForgotten (n : Nat) (s : State) : Prop := s.get (Reg.BAL_TT_STAT_armed n) = 0 ∧ (s.ttOf n).committed = false

theorem ttStat_armed_ne {m n : Nat} (h : m ≠ n) : (Reg.BAL_TT_STAT_armed m).key ≠ (Reg.BAL_TT_STAT_armed n).key := by
  simp only [Fld.key, Reg.BAL_TT_STAT_armed]
  omega

theorem ttStat_armed_flag {n : Nat} (h : n < 8) : chrFlagKey (Reg.BAL_TT_STAT_armed n).key = false := by
  refine chrFlag_low ?_
  simp only [Fld.key, Reg.BAL_TT_STAT_armed]
  omega

theorem ttForget_forgets (s : State) (n : Nat) : ttForgotten n (ttForget s n) := by
  constructor
  · simp [ttForget, ttDisarm, Reg.BAL_TT_STAT_armed]
  · simp [ttForget, State.ttOf_setTt]

theorem ttForget_keeps (s : State) (m n : Nat) (h : ttForgotten n s) : ttForgotten n (ttForget s m) := by
  by_cases same : m = n
  · exact same ▸ ttForget_forgets s m
  · obtain ⟨armed, committed⟩ := h
    constructor
    · simp [ttForget, ttDisarm, State.get_set_ne _ _ (ttStat_armed_ne same), armed]
    · simp [ttForget, ttDisarm, State.ttOf_setTt, same, committed]

theorem elsewhere_ttForget {v : State} {fs : List Fld} {cs : List Nat} {ps : List Part} {n : Nat} (h : s.elsewhere v fs cs ps)
    (hf : (Reg.BAL_TT_STAT_armed n).key ∈ fs.map Fld.key) (hp : .bal ∈ ps) : s.elsewhere (ttForget v n) fs cs ps :=
  .setTt (.setTt (.set h hf) hp) hp

/-- The Balance OFF, before its triggers disarm. -/
def balStopped (s : State) : State :=
  (((((s.set Reg.BAL_CTRL_enable 0).set Reg.BAL_STATUS_state 0).set Reg.BAL_STATUS_slewing 0).onBal (fun b => { b with
      cycles := [], before := [], decision := none, stall := none, slew := 0,
      epochLatch := false, epochFixed := none, steer := [] })).onEsc (fun e => { e with open_ := [] }))

theorem balDisable_eq (on : s.get Reg.BAL_CTRL_enable ≠ 0) :
    balDisable s = releaseAll ((List.range 8).foldl ttForget (balStopped s)) 0x0E [14] := by
  unfold balDisable
  rw [if_neg (by simp [State.on, on])]
  rfl

theorem balDisable_changes (h : s.settled) (on : s.get Reg.BAL_CTRL_enable ≠ 0) :
    changes (.balDisable t) s ([Reg.BAL_CTRL_enable, Reg.BAL_STATUS_state,
      Reg.BAL_STATUS_slewing] ++ (List.range 8).map Reg.BAL_TT_STAT_armed) [] [.bal, .claims, .esc] (fun u =>
      u.get Reg.BAL_CTRL_enable = 0 ∧ u.get Reg.BAL_STATUS_state = 0 ∧ u.bal.cycles = [] ∧ u.bal.stall = none ∧
      u.esc = { s.esc with open_ := [] } ∧ tabGet u.claims 14 ≠ some ⟨false, 0x0E⟩ ∧ ∀ n, n < 8 →
      u.get (Reg.BAL_TT_STAT_armed n) = 0 ∧ (u.ttOf n).committed = false) := by
  have effect := balDisable_eq (s := s.begin t) on
  refine changes_of (f := balDisable) rfl effect h ?_ (fun u kept => ?_)
  · refine .releaseAll (elsewhere_foldl _ (.onEsc (.onBal (.set (.set (.set (.start s t)))))) (fun v n hn k => ?_))
    exact elsewhere_ttForget k (key_mem_range _ (List.mem_range.1 hn) [_, _, _]) (by simp)
  · have forgotten n (hn : n < 8) : ttForgotten n ((List.range 8).foldl ttForget (balStopped (s.begin t))) :=
      foldl_establishes _ ttForget_forgets ttForget_keeps (List.mem_range.2 hn)
    obtain ⟨field, -, part, -⟩ := elsewhere_foldl (fs := (List.range 8).map Reg.BAL_TT_STAT_armed) (cs := []) (ps := [.bal])
      (f := ttForget) (List.range 8) (elsewhere_refl (balStopped (s.begin t)) _ _ _)
      (fun v n hn k => elsewhere_ttForget k (key_mem_range _ (List.mem_range.1 hn)) (by simp))
    have shift := foldl_same (f := ttForget) (fun v => (v.bal.cycles, v.bal.stall)) (List.range 8) (balStopped (s.begin t))
      (fun _ _ => rfl)
    obtain ⟨cycles, stall⟩ := Prod.mk.inj shift
    refine ⟨?_, ?_, ?_, ?_, ?_, kept.claims ▸ releaseAll_gone _ (by simp), fun n hn => ?_⟩
    · rw [kept.get _ (by decide), releaseAll_get, field _ (by decide) (by decide)]
      simp (disch := decide) [balStopped, State.get_set_ne]
    · rw [kept.get _ (by decide), releaseAll_get, field _ (by decide) (by decide)]
      simp (disch := decide) [balStopped, State.get_set_ne]
    · rw [kept.bal, releaseAll_bal, cycles]
      simp [balStopped, State.onBal]
    · rw [kept.bal, releaseAll_bal, stall]
      simp [balStopped, State.onBal]
    · have same : ((List.range 8).foldl ttForget (balStopped (s.begin t))).esc = _ := part .esc (by simp)
      rw [kept.esc, releaseAll_esc, same]
      simp [balStopped, State.onEsc]
    · obtain ⟨armed, committed⟩ := forgotten n hn
      rw [kept.get _ (ttStat_armed_flag hn), kept.ttOf, releaseAll_get, releaseAll_ttOf]
      exact ⟨armed, committed⟩

theorem cycForce_leads (h : s.settled) (on : s.get Reg.BAL_STATUS_state ≠ 0) :
    leadsTo (.cycForce t) s ((s.now t).onBal (fun b => { b with cycForce := true })) := by
  refine leadsTo_now (f := cycForce) rfl h ?_
  unfold cycForce
  rw [if_neg (by simp [balOff, on])]
  rfl

theorem snap_changes (h : s.settled) : changes (.snap t) s [Reg.BAL_SNAP_ANGLE_LO_angle_lo, Reg.BAL_SNAP_ANGLE_HI_angle_hi,
    Reg.BAL_SNAP_LTB_LO_ltb_lo, Reg.BAL_SNAP_LTB_HI_ltb_hi, Reg.BAL_SNAP_PTP_SEC_LO_sec_lo, Reg.BAL_SNAP_PTP_SEC_HI_sec_hi,
    Reg.BAL_SNAP_PTP_NS_ns] [] [] (fun u => u.get Reg.BAL_SNAP_ANGLE_LO_angle_lo = liveAngle (s.now t) % 2 ^ 32 ∧
    u.get Reg.BAL_SNAP_ANGLE_HI_angle_hi = liveAngle (s.now t) / 2 ^ 32 % 2 ^ 16 ∧
    u.get Reg.BAL_SNAP_LTB_LO_ltb_lo = max s.ltb t % 2 ^ 32 ∧
    u.get Reg.BAL_SNAP_LTB_HI_ltb_hi = max s.ltb t / 2 ^ 32 % 2 ^ 32 ∧
    u.get Reg.BAL_SNAP_PTP_SEC_LO_sec_lo = (ptpAt s (max s.ltb t)).1 % 2 ^ 32 ∧
    u.get Reg.BAL_SNAP_PTP_NS_ns = (ptpAt s (max s.ltb t)).2 % 2 ^ 30) := by
  have angle : liveAngle (s.now t) = liveAngle (s.begin t) := rfl
  have ptp : ptpAt s (max s.ltb t) = ptpAt (s.begin t) (s.begin t).ltb := rfl
  refine changes_of (f := snap) rfl rfl h (.set (.set (.set (.set (.set (.set (.set (.start s t)))))))) (fun u kept => ?_)
  rw [angle, ptp]
  refine ⟨?_, ?_, ?_, ?_, ?_, ?_⟩ <;> rw [kept.get _ (by decide)]
  all_goals
    unfold snap
    simp (disch := decide) [State.get_set_ne]
    rfl

/-- Settles O9: each of the four commands has the effect of its operation, and the frame of the disable goes through the fold over
the triggers. -/
theorem balanceEnableCompletes : Obligations.BalanceEnableCompletes := fun _ _ h =>
  ⟨balEnable_changes h, balDisable_changes h, cycForce_leads h, snap_changes h⟩

end BalanceEnable
end Sys2Proof.Machine

namespace Sys2Proof.Machine

/-! ### The Escapement is enabled and disabled, and its banks switch (R19, R229, R249) -/

section EscapementEnable

variable {t : Nat} {s : State}

theorem escEnable_changes {p : Nat} (h : s.settled) (off : s.get Reg.ESC_CTRL_enable = 0) (bal : s.get Reg.BAL_CTRL_enable ≠ 0)
    (port : p < 8) (cfg : s.get (Reg.ESC_PORT_CTRL_cfg p) ≠ 0) (free : claimFree s 0x18 33 = true) :
    changes (.escEnable t) s [Reg.ESC_CTRL_enable] [] [.claims] (fun u => u.get Reg.ESC_CTRL_enable = 1 ∧
      tabGet u.claims 33 = some ⟨false, 0x18⟩ ∧ ∀ r, r ≠ 33 → tabGet u.claims r = tabGet s.claims r) := by
  have effect : escEnable (s.begin t) = (claimTaken (s.begin t) 0x18 33).set Reg.ESC_CTRL_enable 1 := by
    have configured : (List.range 8).any (fun p => (s.begin t).on (Reg.ESC_PORT_CTRL_cfg p)) = true :=
      List.any_eq_true.2 ⟨p, List.mem_range.2 port, by simpa [State.on] using cfg⟩
    unfold escEnable
    rw [if_pos (by rw [configured]; simp [State.on, off, bal]), claimAll_one (s := s.begin t) free]
  refine changes_of (f := escEnable) rfl effect h (.set (.claimTaken (.start s t))) (fun u kept => ⟨?_, ?_, fun r other => ?_⟩)
  · rw [kept.get _ (by decide)]
    simp [Reg.ESC_CTRL_enable]
  · rw [kept.claims]
    exact tabGet_put_self ..
  · rw [kept.claims]
    exact tabGet_put_ne _ _ (Ne.symm other)

theorem escDisable_changes (h : s.settled) :
    changes (.escDisable t) s [Reg.ESC_CTRL_enable] [] [.claims, .esc] (fun u => u.get Reg.ESC_CTRL_enable = 0 ∧
      u.esc = { s.esc with open_ := [] } ∧ tabGet u.claims 33 ≠ some ⟨false, 0x18⟩) := by
  refine changes_of (f := escDisable) rfl rfl h (.releaseAll (.onEsc (.set (.start s t)))) (fun u kept => ⟨?_, kept.esc, ?_⟩)
  · rw [kept.get _ (by decide)]
    simp [escDisable, Reg.ESC_CTRL_enable]
  · rw [kept.claims]
    exact releaseAll_gone _ (by simp)

theorem slotframeBoundary_changes {k : Nat} (h : s.settled) (on : balOff s = false)
    (boundary : liveAngle (s.now t) / 65536 % frameLenOf s (bankAct s) = 0) (sel : s.get Reg.ESC_BANK_bank_sel = k)
    (bank : k < 2) (other : k ≠ bankAct s) :
    changes (.slotframeBoundary t) s [Reg.ESC_STATUS_bank_act, Reg.ESC_STATUS_bank_pending] [] [] (fun u =>
      u.get Reg.ESC_STATUS_bank_act = k ∧ u.get Reg.ESC_STATUS_bank_pending = 0 ∧ 151 ∈ u.hif.pend) := by
  have effect : slotframeBoundary (s.begin t) =
      (((s.begin t).set Reg.ESC_STATUS_bank_act k).set Reg.ESC_STATUS_bank_pending 0).raise 151 k := by
    have off : balOff (s.begin t) = false := on
    have start : liveAngle (s.begin t) / 65536 % frameLenOf (s.begin t) (bankAct (s.begin t)) = 0 := boundary
    have differs : k ≠ bankAct (s.begin t) := other
    unfold slotframeBoundary
    rw [if_neg (by simp [off, start]), begin_get, sel]
    exact if_neg differs
  refine changes_of (f := slotframeBoundary) rfl effect h (.raise (.set (.set (.start s t))))
    (fun u kept => ⟨?_, ?_, kept.pend _ (raise_pend ..)⟩)
  · rw [kept.get _ (by decide), State.raise_get, State.get_set_ne _ _ (by decide), State.get_set_self]
    exact Nat.mod_eq_of_lt bank
  · rw [kept.get _ (by decide)]
    simp [Reg.ESC_STATUS_bank_pending]

/-- Settles O36: enable and disable are one claim and one field, and the bank changes where the boundary finds another selected. -/
theorem escapementEnableCompletes : Obligations.EscapementEnableCompletes := fun _ _ h =>
  ⟨fun _ => escEnable_changes h, escDisable_changes h, fun _ => slotframeBoundary_changes h⟩

end EscapementEnable
end Sys2Proof.Machine

namespace Sys2Proof.Machine

/-! ### The coexistence interface (R38, R40, R98 to R100) -/

section Coex

variable {t : Nat} {s v : State}

theorem coexDrive_get (s : State) (b : Bool) (f : Fld) : (coexDrive s b).get f = (s.setb Reg.TXC_COEX_STAT_grant b).get f := rfl

theorem coexDrive_level (s : State) (b : Bool) :
    (coexDrive s b).level (.tto 7) = some (b != s.on Reg.TXC_COEX_CTRL_grant_pol) := State.level_drive_self ..

theorem elsewhere_coexDrive {fs : List Fld} {cs : List Nat} {ps : List Part} {b : Bool} (h : s.elsewhere v fs cs ps)
    (hf : Reg.TXC_COEX_STAT_grant.key ∈ fs.map Fld.key := by simp) (hp : .pins ∈ ps := by simp) :
    s.elsewhere (coexDrive v b) fs cs ps := .drive (.setb h hf) hp

/-- A grant that is given falls. -/
theorem coexDrop_eq (granted : s.get Reg.TXC_COEX_STAT_grant ≠ 0) :
    coexDrop s = { coexDrive s false with coex := { s.coex with grantSince := none } } := by
  unfold coexDrop
  rw [if_pos (State.on_iff.2 granted)]
  rfl

theorem coexEnable_changes (h : s.settled) (off : s.get Reg.TXC_COEX_CTRL_coex_en = 0) (free : claimFree s 0x10 8 = true) :
    changes (.coexEnable t) s [Reg.TXC_COEX_CTRL_coex_en, Reg.TXC_COEX_STAT_grant] [] [.claims, .pins, .coex] (fun u
      => u.get Reg.TXC_COEX_CTRL_coex_en = 1 ∧ u.get Reg.TXC_COEX_STAT_grant = 0 ∧
      tabGet u.claims 8 = some ⟨false, 0x10⟩ ∧ u.level (.tto 7) = some (s.get Reg.TXC_COEX_CTRL_grant_pol != 0)) := by
  obtain ⟨x, effect⟩ : ∃ x, coexEnable (s.begin t) =
      { coexDrive ((claimTaken (s.begin t) 0x10 8).set Reg.TXC_COEX_CTRL_coex_en 1) false with coex := x } := by
    unfold coexEnable
    rw [if_neg (by simp [State.on, off]), claimAll_one (s := s.begin t) free]
    exact ⟨_, rfl⟩
  refine changes_of (f := coexEnable) rfl effect h (.coex (elsewhere_coexDrive (.set (.claimTaken (.start s t)))))
    (fun u kept => ⟨?_, ?_, ?_, ?_⟩)
  · rw [kept.get _ (by decide)]
    simp (disch := decide) [coexDrive_get, State.get_setb_ne]
  · rw [kept.get _ (by decide)]
    simp [coexDrive_get]
  · rw [kept.claims]
    exact tabGet_put_self ..
  · rw [kept.level]
    refine (coexDrive_level ..).trans ?_
    simp (disch := decide) [State.on, State.get_set_ne]

theorem coexReqRise_leads {p : Bool} (h : s.settled) (on : s.get Reg.TXC_COEX_CTRL_coex_en ≠ 0) :
    leadsTo (.coexReqRise t p) s { ((s.now t).set Reg.TXC_COEX_STAT_req 1).setb Reg.TXC_COEX_STAT_prio p with
        coex := { reqSince := some (max s.ltb t) } } := by
  refine leadsTo_now (f := fun s => coexReqRise s p) rfl h ?_
  unfold coexReqRise setPrio
  dsimp only
  rw [if_pos (by simp (disch := decide) [State.on, State.get_set_ne, State.get_setb_ne, on])]
  rfl

/-- Who is near depends on the chains, the instant and the registers that name them. -/
theorem coexAckNear_setPrio (s : State) (p : Bool) : coexAckNear (setPrio s p) = coexAckNear s := by
  unfold coexAckNear coexSubjects coexSubject setPrio
  simp (disch := decide) [State.get_setb_ne, State.chainOf]

theorem coexSubjects_setPrio (s : State) (p : Bool) : coexSubjects (setPrio s p) = coexSubjects s := by
  unfold coexSubjects coexSubject setPrio
  simp (disch := decide) [State.get_setb_ne]

theorem chainBusy_setPrio {n : Nat} (s : State) (p : Bool) (_ : n < 4) : chainBusy (setPrio s p) n = chainBusy s n := by
  unfold chainBusy setPrio
  rw [State.get_setb_ne]
  simp only [Fld.key, Reg.TXC_STATUS_state, Reg.TXC_COEX_STAT_prio]
  omega

theorem coexGrant_changes {p : Bool} {r : Nat} (h : s.settled) (req : s.coex.reqSince = some r) (free : s.coex.blocked = false)
    (on : s.get Reg.TXC_COEX_CTRL_coex_en ≠ 0) (none : s.get Reg.TXC_COEX_STAT_grant = 0)
    (due : r + s.get Reg.TXC_COEX_CTRL_grant_delay * 1000 ≤ max s.ltb t)
    (idle : ∀ n ∈ coexSubjects s, chainBusy s n = false) (near : coexAckNear (s.now t) = false) :
    changes (.coexGrant t p) s [Reg.TXC_COEX_STAT_grant, Reg.TXC_COEX_STAT_prio] [Reg.TXC_CNT_COEX_GRANT]
      [.pins, .coex] (fun u => u.get Reg.TXC_COEX_STAT_grant = 1 ∧
      u.coex = { s.coex with grantSince := some (max s.ltb t) } ∧
      u.count Reg.TXC_CNT_COEX_GRANT = (s.count Reg.TXC_CNT_COEX_GRANT + 1) % 2 ^ 32 ∧
      u.level (.tto 7) = some (s.get Reg.TXC_COEX_CTRL_grant_pol == 0)) := by
  have effect : coexGrant (s.begin t) p = { (coexDrive (setPrio (s.begin t) p) true).bump Reg.TXC_CNT_COEX_GRANT with
      coex := { s.coex with grantSince := some (max s.ltb t) } } := by
    have subjects : (coexSubjects (setPrio (s.begin t) p)).any (chainBusy (setPrio (s.begin t) p)) = false := by
      refine List.any_eq_false.2 (fun n hn => ?_)
      rw [coexSubjects_setPrio] at hn
      have chain : n < 4 := by simpa using (List.mem_filter.1 hn).1
      rw [chainBusy_setPrio _ _ chain]
      exact Bool.eq_false_iff.1 (idle n hn)
    have away : coexAckNear (setPrio (s.begin t) p) = false := (coexAckNear_setPrio ..).trans near
    have since : (setPrio (s.begin t) p).coex.reqSince = some r := req
    unfold coexGrant
    dsimp only
    rw [since]
    dsimp only
    rw [if_neg]
    · rfl
    · rw [subjects, away]
      simp (disch := decide) [setPrio, State.on, State.get_setb_ne, on, none, free]
      omega
  refine changes_of (f := fun s => coexGrant s p) rfl effect h (.coex (.bump (elsewhere_coexDrive (.setb (.start s t)))))
    (fun u kept => ⟨?_, kept.coex, ?_, ?_⟩)
  · rw [kept.get _ (by decide)]
    simp [coexDrive_get, Reg.TXC_COEX_STAT_grant]
  · rw [kept.count _ (by decide)]
    exact (State.count_bumpBy ..).trans (if_pos rfl)
  · rw [kept.level]
    refine (coexDrive_level ..).trans ?_
    simp (disch := decide) [setPrio, State.on, State.get_setb_ne]
    rfl

theorem coexReqFall_changes (h : s.settled) (granted : s.get Reg.TXC_COEX_STAT_grant ≠ 0) :
    changes (.coexReqFall t) s [Reg.TXC_COEX_STAT_req, Reg.TXC_COEX_STAT_grant]
      [] [.pins, .coex] (fun u => u.get Reg.TXC_COEX_STAT_req = 0 ∧ u.get Reg.TXC_COEX_STAT_grant = 0 ∧ u.coex = {} ∧
      u.level (.tto 7) = some (s.get Reg.TXC_COEX_CTRL_grant_pol != 0)) := by
  have effect : coexReqFall (s.begin t) =
      { coexDrive ((s.begin t).set Reg.TXC_COEX_STAT_req 0) false with coex := {} } := by
    unfold coexReqFall
    rw [coexDrop_eq (by rw [State.get_set_ne _ _ (by decide)]; exact granted)]
  refine changes_of (f := coexReqFall) rfl effect h (.coex (elsewhere_coexDrive (.set (.start s t))))
    (fun u kept => ⟨?_, ?_, kept.coex, ?_⟩)
  · rw [kept.get _ (by decide)]
    simp (disch := decide) [coexDrive_get, State.get_setb_ne]
  · rw [kept.get _ (by decide)]
    simp [coexDrive_get]
  · rw [kept.level]
    refine (coexDrive_level ..).trans ?_
    simp (disch := decide) [State.on, State.get_set_ne]

theorem coexRevoke_changes {p : Bool} (h : s.settled) (granted : s.get Reg.TXC_COEX_STAT_grant ≠ 0)
    (idle : prioActive (setPrio s p) = false) (near : coexAckNear (s.now t) = true) :
    changes (.coexRevoke t p) s [Reg.TXC_COEX_STAT_prio, Reg.TXC_COEX_STAT_grant]
      [Reg.TXC_CNT_COEX_REVOKE] [.pins, .coex] (fun u => u.get Reg.TXC_COEX_STAT_grant = 0 ∧
      u.count Reg.TXC_CNT_COEX_REVOKE = (s.count Reg.TXC_CNT_COEX_REVOKE + 1) % 2 ^ 32) := by
  have still : (setPrio (s.begin t) p).get Reg.TXC_COEX_STAT_grant ≠ 0 := by
    unfold setPrio
    rw [State.get_setb_ne _ _ (by decide)]
    exact granted
  have effect : coexRevoke (s.begin t) p = ({ coexDrive (setPrio (s.begin t) p) false with
      coex := { s.coex with grantSince := none } } : State).bump Reg.TXC_CNT_COEX_REVOKE := by
    have low : prioActive (setPrio (s.begin t) p) = false := idle
    have ack : coexAckNear (setPrio (s.begin t) p) = true := (coexAckNear_setPrio ..).trans near
    unfold coexRevoke
    dsimp only
    rw [if_pos (by simp [State.on, still, low, ack]), coexDrop_eq still]
    rfl
  refine changes_of (f := fun s => coexRevoke s p) rfl effect h (.bump (.coex (elsewhere_coexDrive (.setb (.start s t)))))
    (fun u kept => ⟨?_, ?_⟩)
  · rw [kept.get _ (by decide)]
    simp [coexDrive_get]
  · rw [kept.count _ (by decide)]
    exact (State.count_bumpBy ..).trans (if_pos rfl)

theorem reqMaxExpiry_changes {g : Nat} (h : s.settled) (granted : s.get Reg.TXC_COEX_STAT_grant ≠ 0)
    (since : s.coex.grantSince = some g) (late : g + atLeast1 (s.get Reg.TXC_COEX_CFG_req_max) * 1000000 ≤ max s.ltb t) :
    changes (.reqMaxExpiry t) s [Reg.TXC_COEX_STAT_grant, Reg.TXC_COEX_STAT_req_max_hit] [] [.pins, .coex] (fun u =>
      u.get Reg.TXC_COEX_STAT_grant = 0 ∧ u.get Reg.TXC_COEX_STAT_req_max_hit = 1 ∧ u.coex.blocked = true ∧
      74 ∈ u.hif.pend) := by
  have effect : reqMaxExpiry (s.begin t) = (({ coexDrive (s.begin t) false with
      coex := { s.coex with grantSince := none, blocked := true } } : State).set Reg.TXC_COEX_STAT_req_max_hit 1).raise 74 := by
    have begun : (s.begin t).coex.grantSince = some g := since
    have due : g + atLeast1 ((s.begin t).get Reg.TXC_COEX_CFG_req_max) * 1000000 ≤ (s.begin t).ltb := late
    unfold reqMaxExpiry
    rw [begun]
    dsimp only
    rw [if_pos due, coexDrop_eq (s := s.begin t) granted]
    rfl
  refine changes_of (f := reqMaxExpiry) rfl effect h (.raise (.set (.coex (elsewhere_coexDrive (.start s t)))))
    (fun u kept => ⟨?_, ?_, ?_, kept.pend _ (raise_pend ..)⟩)
  · rw [kept.get _ (by decide)]
    simp (disch := decide) [State.get_set_ne, coexDrive_get]
  · rw [kept.get _ (by decide)]
    simp [Reg.TXC_COEX_STAT_req_max_hit]
  · rw [kept.coex, State.raise_coex, State.set_coex]

/-- Settles O28: each command by its whole effect, in which TTO7 is driven by `coexDrive` and a grant falls by `coexDrop`. -/
theorem coexCompletes : Obligations.CoexCompletes := fun _ _ h =>
  ⟨coexEnable_changes h, fun _ => coexReqRise_leads h, fun _ _ => coexGrant_changes h, coexReqFall_changes h,
    fun _ => coexRevoke_changes h, fun _ => reqMaxExpiry_changes h⟩

end Coex
end Sys2Proof.Machine

namespace Sys2Proof.Machine

/-! ### The Prefix Table (R19, R260, R261, R278) -/

section PrefixTable

variable {t : Nat} {s v : State}

theorem fwdEnable_changes (h : s.settled) (off : s.get Reg.FWD_CTRL_enable = 0) (ctx : s.get Reg.CTX_CTRL_enable ≠ 0)
    (free : claimFree s 0x19 34 = true) :
    changes (.fwdEnable t) s [Reg.FWD_CTRL_enable] [] [.claims] (fun u => u.get Reg.FWD_CTRL_enable = 1 ∧
      tabGet u.claims 34 = some ⟨false, 0x19⟩) := by
  have effect : fwdEnable (s.begin t) = (claimTaken (s.begin t) 0x19 34).set Reg.FWD_CTRL_enable 1 := by
    unfold fwdEnable
    rw [if_neg (by simp [State.on, off, ctx]), claimAll_one (s := s.begin t) free]
  refine changes_of (f := fwdEnable) rfl effect h (.set (.claimTaken (.start s t))) (fun u kept => ⟨?_, ?_⟩)
  · rw [kept.get _ (by decide)]
    simp [Reg.FWD_CTRL_enable]
  · rw [kept.claims]
    exact tabGet_put_self ..

theorem fwdDisable_changes (h : s.settled) (on : s.get Reg.FWD_CTRL_enable ≠ 0) :
    changes (.fwdDisable t) s [Reg.FWD_CTRL_enable] [] [.claims] (fun u =>
      u.get Reg.FWD_CTRL_enable = 0 ∧ tabGet u.claims 34 ≠ some ⟨false, 0x19⟩) := by
  have effect : fwdDisable (s.begin t) = releaseAll ((s.begin t).set Reg.FWD_CTRL_enable 0) 0x19 [34] :=
    if_pos (State.on_iff.2 on)
  refine changes_of (f := fwdDisable) rfl effect h (.releaseAll (.set (.start s t))) (fun u kept => ⟨?_, ?_⟩)
  · rw [kept.get _ (by decide)]
    simp
  · rw [kept.claims]
    exact releaseAll_gone _ (by simp)

/-! The shape of the table -/

/-- An operation that reads no upset entry finds none. -/
theorem ptUpset_none {s : State} {reads : PtEntry → Bool} {upset : List Nat}
    (h : ∀ x ∈ s.fwd.pt, reads x.2 = true → x.1 ∉ upset) : ptUpset s reads upset = s := by
  unfold ptUpset
  rw [List.filter_eq_nil_iff.2 (fun x hx => ?_)]
  · rfl
  · intro bad
    simp only [Bool.and_eq_true, List.contains_iff_mem] at bad
    exact h x hx bad.2 bad.1.1

/-- The place after the entries of a list: that after its last one. -/
theorem foldl_place {l : List (Nat × PtEntry)} {pos m : Nat} (low : m ≤ pos) (below : ∀ x ∈ l, x.1 < pos)
    (last : pos = m ∨ ∃ x ∈ l, x.1 + 1 = pos) : l.foldl (fun m e => max m (e.1 + 1)) m = pos := by
  induction l generalizing m with
  | nil => simpa [eq_comm] using last
  | cons a r ih =>
    have := below a (List.mem_cons_self ..)
    show r.foldl _ (max m (a.1 + 1)) = pos
    refine ih (by omega) (fun x hx => below x (List.mem_cons_of_mem _ hx)) ?_
    rcases last with rfl | ⟨x, hx, e⟩
    · exact .inl (by omega)
    · rcases List.mem_cons.1 hx with rfl | later
      · exact .inl (by omega)
      · exact .inr ⟨x, later, e⟩

theorem ptFree_here {m : Tab PtEntry} {n pos : Nat} (low : pos < 4096) (free : tabGet m pos = none) :
    ptFree (n + 1) m pos = some pos := by
  unfold ptFree
  rw [if_neg (by omega), if_pos (by simp [free])]

theorem ptShiftUp_here (n : Nat) (m : Tab PtEntry) (pos : Nat) : ptShiftUp n m pos pos = m := by
  cases n with
  | zero => rfl
  | succ n => exact if_pos (Nat.le_refl pos)

theorem tabPut_length {α : Type} {m : Tab α} {k : Nat} (a : α) (h : tabGet m k = none) :
    (tabPut m k a).length = m.length + 1 := by
  induction m with
  | nil => rfl
  | cons e r ih =>
    obtain ⟨i, b⟩ := e
    unfold tabGet at h
    unfold tabPut
    split at h
    · cases h
    · split
      · simp
      · simp [*]

/-- The place of a new entry, found by what stands before it. -/
theorem ptInsert_place {m : Tab PtEntry} {n pos : Nat} (below : ∀ x ∈ m, n ≤ x.2.plen → x.1 < pos)
    (last : pos = 0 ∨ ((tabGet m (pos - 1)).map (fun e => decide (n ≤ e.plen))) = some true) :
    (m.filter (fun e => decide (n ≤ e.2.plen))).foldl (fun m e => max m (e.1 + 1)) 0 = pos := by
  refine foldl_place (Nat.zero_le _) (fun x hx => ?_) ?_
  · obtain ⟨hm, hn⟩ := List.mem_filter.1 hx
    exact below x hm (by simpa using hn)
  · rcases last with zero | some
    · exact .inl zero
    · obtain ⟨e, he, long⟩ := Option.map_eq_some_iff.1 some
      have before := below _ (mem_of_tabGet he) (by simpa using long)
      exact .inr ⟨_, List.mem_filter.2 ⟨mem_of_tabGet he, long⟩, by simp only at before ⊢; omega⟩

/-- The entry that PT_INSERT forms of its registers. -/
def ptFormed (s : State) (n : Nat) : PtEntry where
  plen := n
  ord := s.fwd.ptOrd
  value := ptKeyOf (addrOf (fun m => s.get (Reg.FWD_PT_VAL_addr m))) (s.get Reg.FWD_PT_CTL_port_v) (s.get Reg.FWD_PT_CTL_dscp_v)
  mask := prefixMask n + s.get Reg.FWD_PT_CTL_port_m * 2 ^ 128 + s.get Reg.FWD_PT_CTL_dscp_m * 2 ^ 131
  action := s.get Reg.FWD_PT_ACT_action
  port := s.get Reg.FWD_PT_ACT_port
  svc := s.get Reg.FWD_PT_ACT_svc
  sci := s.get Reg.FWD_PT_ACT_sci

/-- The length that PT_INSERT is given is no part of the entry's other registers. -/
theorem ptFormed_plen (s : State) (n p : Nat) : ptFormed (s.set Reg.FWD_PT_CMD_plen p) n = ptFormed s n := by
  have words : (fun m => (s.set Reg.FWD_PT_CMD_plen p).get (Reg.FWD_PT_VAL_addr m)) = (fun m => s.get (Reg.FWD_PT_VAL_addr m)) := by
    funext m
    refine State.get_set_ne _ _ ?_
    simp only [Fld.key, Reg.FWD_PT_VAL_addr, Reg.FWD_PT_CMD_plen]
    omega
  unfold ptFormed
  rw [words]
  simp (disch := decide) only [State.get_set_ne, State.set_fwd]

theorem ptInsert_eq {upset : List Nat} {n pos : Nat} (hn : n ≤ 128) (full : s.fwd.pt.length < 4096) (low : pos < 4096)
    (sound : ∀ x ∈ s.fwd.pt, x.2.plen < n → ¬ x.1 ∈ upset) (below : ∀ x ∈ s.fwd.pt, n ≤ x.2.plen → x.1 < pos)
    (last : pos = 0 ∨ ((tabGet s.fwd.pt (pos - 1)).map (fun e => decide (n ≤ e.plen))) = some true)
    (free : tabGet s.fwd.pt pos = none) :
    ptInsert s n upset = ptResult ((((s.set Reg.FWD_PT_CMD_plen n).onFwd (fun f =>
      { f with pt := tabPut s.fwd.pt pos (ptFormed s n), ptOrd := f.ptOrd + 1 })).set Reg.FWD_PT_CMD_index pos)) 0 := by
  unfold ptInsert
  extract_lets v place up w m hole key e
  have found : place = pos := ptInsert_place below last
  have here : ptFree 4097 v.fwd.pt pos = some pos := ptFree_here low free
  have clean : w = v := ptUpset_none (fun x hx reads => sound x hx (by simpa [up, found, here] using reads))
  have formed : e = ptFormed s n := by
    rw [← ptFormed_plen s n n]
    simp only [e, key, clean]
    rfl
  have notLong : ¬ 128 < n := by omega
  have notFull : ¬ 4096 ≤ v.fwd.pt.length := by simp only [v, State.set_fwd]; omega
  rw [if_neg notLong, if_neg notFull, formed]
  simp only [m, clean, here, found, ptShiftUp_here]
  rfl

theorem ptResult_fwd (s : State) (r : Nat) : (ptResult s r).fwd = s.fwd := rfl

theorem ptResult_pwr (s : State) (r : Nat) : (ptResult s r).pwr = s.pwr := rfl

theorem ptResult_count (s : State) (r c : Nat) : (ptResult s r).count c = s.count c := rfl

theorem ptResult_get (s : State) (r : Nat) {f : Fld} (result : Reg.FWD_PT_CMD_result.key ≠ f.key)
    (fill : Reg.FWD_PT_FILL_count.key ≠ f.key) : (ptResult s r).get f = s.get f :=
  (State.get_set_ne _ _ fill).trans (State.get_set_ne _ _ result)

@[simp] theorem ptResult_result (s : State) (r : Nat) : (ptResult s r).get Reg.FWD_PT_CMD_result = r % 2 ^ 3 := by
  unfold ptResult
  rw [State.get_set_ne _ _ (by decide), State.get_set_self]
  rfl

@[simp] theorem ptResult_fill (s : State) (r : Nat) : (ptResult s r).get Reg.FWD_PT_FILL_count = s.fwd.pt.length % 2 ^ 13 := by
  unfold ptResult
  rw [State.get_set_self]
  rfl

theorem elsewhere_ptResult {fs : List Fld} {cs : List Nat} {ps : List Part} {r : Nat} (h : s.elsewhere v fs cs ps)
    (result : Reg.FWD_PT_CMD_result.key ∈ fs.map Fld.key := by simp)
    (fill : Reg.FWD_PT_FILL_count.key ∈ fs.map Fld.key := by simp) : s.elsewhere (ptResult v r) fs cs ps :=
  .set (.set h result) fill

theorem ptInsert_changes {upset : List Nat} (plen : BitVec 8) (n pos : Nat) (h : s.settled) (hp : plen.toNat = n) (hn : n ≤ 128)
    (full : s.fwd.pt.length < 4096) (low : pos < 4096)
    (sound : ∀ x ∈ s.fwd.pt, x.2.plen < n → ¬ x.1 ∈ upset) (below : ∀ x ∈ s.fwd.pt, n ≤ x.2.plen → x.1 < pos)
    (last : pos = 0 ∨ ((tabGet s.fwd.pt (pos - 1)).map (fun e => decide (n ≤ e.plen))) = some true)
    (free : tabGet s.fwd.pt pos = none) :
    changes (.ptInsert t ⟨plen, upset⟩) s [Reg.FWD_PT_CMD_plen, Reg.FWD_PT_CMD_index,
      Reg.FWD_PT_CMD_result, Reg.FWD_PT_FILL_count] [] [.fwd] (fun u => u.get Reg.FWD_PT_CMD_result = 0 ∧
      u.get Reg.FWD_PT_CMD_index = pos ∧ u.get Reg.FWD_PT_FILL_count = s.fwd.pt.length + 1 ∧ u.fwd = { s.fwd with
        ptOrd := s.fwd.ptOrd + 1, pt := tabPut s.fwd.pt pos (ptFormed s n) }) := by
  have effect := ptInsert_eq (s := s.begin t) (upset := upset) hn full low sound below last free
  rw [← hp] at effect
  refine changes_of (f := fun s => ptInsert s plen.toNat upset) rfl effect h
    (elsewhere_ptResult (.set (.onFwd (.set (.start s t))))) (fun u kept => ⟨?_, ?_, ?_, ?_⟩)
  · rw [kept.get _ (by decide)]
    simp
  · rw [kept.get _ (by decide), ptResult_get _ _ (by decide) (by decide), State.get_set_self]
    exact Nat.mod_eq_of_lt low
  · rw [kept.get _ (by decide), ptResult_fill]
    refine (Nat.mod_eq_of_lt ?_).trans (tabPut_length _ free)
    exact (tabPut_length _ free).trans_lt (by omega)
  · rw [kept.fwd, ptResult_fwd, hp]
    rfl

theorem ptDelete_eq {e x : PtEntry} {i j : Nat} {upset : List Nat} (he : tabGet s.fwd.pt i = some e)
    (sound : ∀ x ∈ s.fwd.pt, x.2.plen = e.plen → ¬ x.1 ∈ upset)
    (last : (s.fwd.pt.filter (fun x => x.2.plen = e.plen)).getLast? = some (j, x)) :
    ptDelete s i upset = ptResult ((s.set Reg.FWD_PT_CMD_index i).onFwd (fun f =>
      { f with pt := if j = i then tabDel s.fwd.pt i else tabPut (tabDel s.fwd.pt j) i x })) 0 := by
  unfold ptDelete
  extract_lets v
  have there : tabGet v.fwd.pt i = some e := he
  have clean : ptUpset v (fun x => x.plen == e.plen) upset = v :=
    ptUpset_none (fun x hx reads => sound x hx (by simpa using reads))
  have longest : (v.fwd.pt.filter (fun x => x.2.plen == e.plen)).getLast? = some (j, x) := last
  simp only [there, clean, longest]
  rfl

theorem ptDelete_changes {upset : List Nat} {e : PtEntry} (i : Fin 4096) (j : Nat) (x : PtEntry) (h : s.settled)
    (he : tabGet s.fwd.pt i = some e) (sound : ∀ x ∈ s.fwd.pt, x.2.plen = e.plen → ¬ x.1 ∈ upset)
    (last : (s.fwd.pt.filter (fun x => x.2.plen = e.plen)).getLast? = some (j, x)) :
    changes (.ptDelete t ⟨i, upset⟩) s [Reg.FWD_PT_CMD_index, Reg.FWD_PT_CMD_result,
      Reg.FWD_PT_FILL_count] [] [.fwd] (fun u => u.get Reg.FWD_PT_CMD_result = 0 ∧ u.get Reg.FWD_PT_CMD_index = i ∧
      u.get Reg.FWD_PT_FILL_count = u.fwd.pt.length % 2 ^ 13 ∧ u.fwd = { s.fwd with
        pt := if j = i.val then tabDel s.fwd.pt i else tabPut (tabDel s.fwd.pt j) i x }) := by
  have effect := ptDelete_eq (s := s.begin t) he sound last
  refine changes_of (f := fun s => ptDelete s i.val upset) rfl effect h (elsewhere_ptResult (.onFwd (.set (.start s t))))
    (fun u kept => ⟨?_, ?_, ?_, ?_⟩)
  · rw [kept.get _ (by decide)]
    simp
  · rw [kept.get _ (by decide), ptResult_get _ _ (by decide) (by decide)]
    refine (State.get_set_self ..).trans (Nat.mod_eq_of_lt i.isLt)
  · rw [kept.get _ (by decide), kept.fwd, ptResult_fill, ptResult_fwd]
  · rw [kept.fwd, ptResult_fwd]
    rfl

/-! Showing an entry -/

/-- The registers in which PT_READ shows an entry, beside the value. -/
def ptControls : List Fld :=
  [Reg.FWD_PT_CTL_port_v, Reg.FWD_PT_CTL_dscp_v, Reg.FWD_PT_CTL_port_m, Reg.FWD_PT_CTL_dscp_m, Reg.FWD_PT_ACT_action,
    Reg.FWD_PT_ACT_port, Reg.FWD_PT_ACT_svc, Reg.FWD_PT_ACT_sci, Reg.FWD_PT_CMD_plen]

/-- PT_READ shows the value of an entry. -/
def ptWords (s : State) (e : PtEntry) : State :=
  (List.range 4).foldl (fun s m => s.set (Reg.FWD_PT_VAL_addr m) (ofLe (octetsAt (beOctets 16 (e.value % 2 ^ 128)) (4 * m) 4))) s

/-- PT_READ shows an entry. -/
def ptShown (s : State) (e : PtEntry) : State :=
  let s := ((ptWords s e).set Reg.FWD_PT_CTL_port_v (e.value / 2 ^ 128)).set Reg.FWD_PT_CTL_dscp_v (e.value / 2 ^ 131)
  let s := (s.set Reg.FWD_PT_CTL_port_m (e.mask / 2 ^ 128)).set Reg.FWD_PT_CTL_dscp_m (e.mask / 2 ^ 131)
  let s := (s.set Reg.FWD_PT_ACT_action e.action).set Reg.FWD_PT_ACT_port e.port
  ((s.set Reg.FWD_PT_ACT_svc e.svc).set Reg.FWD_PT_ACT_sci e.sci).set Reg.FWD_PT_CMD_plen e.plen

section Shown

variable (s : State) (e : PtEntry)

theorem ptShown_controls : (ptWords s e).elsewhere (ptShown s e) ptControls [] [] := by
  unfold ptControls
  exact ((((((((((elsewhere_refl ..).set).set).set).set).set).set).set).set).set)

theorem elsewhere_ptShown {s v : State} {e : PtEntry} {fs : List Fld} {cs : List Nat} {ps : List Part} (h : s.elsewhere v fs cs ps)
    (words : ∀ m < 4, (Reg.FWD_PT_VAL_addr m).key ∈ fs.map Fld.key) (rest : ∀ k ∈ ptControls.map Fld.key, k ∈ fs.map Fld.key) :
    s.elsewhere (ptShown v e) fs cs ps := by
  have valued : s.elsewhere (ptWords v e) fs cs ps :=
    elsewhere_foldl _ h (fun w m hm k => k.set (words m (List.mem_range.1 hm)))
  exact elsewhere_trans valued (elsewhere_mono (ptShown_controls v e) rest (by simp) (by simp))

/-- The four words of the value, in the order of the address's octets. -/
theorem ptShown_word {m : Nat} (h : m < 4) : (ptShown s e).get (Reg.FWD_PT_VAL_addr m) =
    ofLe (octetsAt (beOctets 16 (e.value % 2 ^ 128)) (4 * m) 4) := by
  have apart : ∀ m < 4, chrFlagKey (Reg.FWD_PT_VAL_addr m).key = false ∧
      (Reg.FWD_PT_VAL_addr m).key ∉ ptControls.map Fld.key := by decide
  have small := ofLe_lt (octetsAt (beOctets 16 (e.value % 2 ^ 128)) (4 * m) 4)
  have short : (octetsAt (beOctets 16 (e.value % 2 ^ 128)) (4 * m) 4).length = 4 := by
    rw [octetsAt_of_le] <;> simp [beOctets, leOctets_length] <;> omega
  rw [short] at small
  rw [(ptShown_controls s e).1 _ (apart m h).1 (apart m h).2]
  refine (get_foldl_set s (fun m n same => ?_) (List.mem_range.2 h)).trans (Nat.mod_eq_of_lt small)
  simp only [Fld.key, Reg.FWD_PT_VAL_addr] at same
  omega

theorem ptShown_addr : addrOf (fun m => (ptShown s e).get (Reg.FWD_PT_VAL_addr m)) = e.value % 2 ^ 128 := by
  have long : (beOctets 16 (e.value % 2 ^ 128)).length = 16 := by simp [beOctets, leOctets_length]
  have octets : (List.range 4).flatMap (fun m => leOctets 4 ((ptShown s e).get (Reg.FWD_PT_VAL_addr m))) =
      beOctets 16 (e.value % 2 ^ 128) := by
    rw [List.flatMap_congr (g := fun m => ((beOctets 16 (e.value % 2 ^ 128)).drop (4 * m)).take 4) (fun m hm => ?_),
      flatMap_pieces, List.take_of_length_le (by omega)]
    have low := List.mem_range.1 hm
    rw [ptShown_word s e low, octetsAt_of_le (by omega)]
    have four : (((beOctets 16 (e.value % 2 ^ 128)).drop (4 * m)).take 4).length = 4 := by
      rw [List.length_take, List.length_drop, long]
      omega
    have whole := leOctets_ofLe (((beOctets 16 (e.value % 2 ^ 128)).drop (4 * m)).take 4)
    rwa [four] at whole
  unfold addrOf ofBe
  rw [octets, beOctets, List.reverse_reverse, ofLe_leOctets]
  exact Nat.mod_mod _ _

theorem addrOf_congr {f g : Nat → Nat} (h : ∀ m < 4, f m = g m) : addrOf f = addrOf g := by
  unfold addrOf
  rw [List.flatMap_congr (fun m hm => congrArg (leOctets 4) (h m (List.mem_range.1 hm)))]

/-- The fields of the entry, in their registers. -/
theorem ptShown_reads : (ptShown s e).get Reg.FWD_PT_CTL_port_v = e.value / 2 ^ 128 % 8 ∧
    (ptShown s e).get Reg.FWD_PT_CTL_dscp_v = e.value / 2 ^ 131 % 64 ∧
    (ptShown s e).get Reg.FWD_PT_CTL_port_m = e.mask / 2 ^ 128 % 8 ∧
    (ptShown s e).get Reg.FWD_PT_CTL_dscp_m = e.mask / 2 ^ 131 % 64 ∧
    (ptShown s e).get Reg.FWD_PT_ACT_action = e.action % 4 ∧ (ptShown s e).get Reg.FWD_PT_ACT_port = e.port % 8 ∧
    (ptShown s e).get Reg.FWD_PT_ACT_svc = e.svc % 16 ∧ (ptShown s e).get Reg.FWD_PT_ACT_sci = e.sci % 16 ∧
    (ptShown s e).get Reg.FWD_PT_CMD_plen = e.plen % 256 := by
  unfold ptShown
  refine ⟨?_, ?_, ?_, ?_, ?_, ?_, ?_, ?_, ?_⟩
  all_goals
    simp (disch := decide) only [State.get_set_ne, State.get_set_self]
    rfl

/-- Showing an entry changes the registers that show it. -/
theorem ptShown_frame : s.elsewhere (ptShown s e) ((List.range 4).map Reg.FWD_PT_VAL_addr ++ ptControls) [] [] := by
  refine elsewhere_ptShown (elsewhere_refl ..) (fun m hm => ?_) (fun k hk => ?_)
  · rw [List.map_append]
    exact List.mem_append_left _ (List.mem_map_of_mem (List.mem_map_of_mem (List.mem_range.2 hm)))
  · rw [List.map_append]
    exact List.mem_append_right _ hk

theorem ptShown_get {f : Fld} (word : f.key ∉ ((List.range 4).map Reg.FWD_PT_VAL_addr).map Fld.key)
    (control : f.key ∉ ptControls.map Fld.key) (flag : chrFlagKey f.key = false := by decide) : (ptShown s e).get f = s.get f := by
  refine (ptShown_frame s e).1 f flag ?_
  rw [List.map_append, List.mem_append]
  exact fun h => h.elim word control

end Shown

/-- Reading an entry that is known bad, or that is not upset. -/
theorem ptRead_eq {e : PtEntry} {i : Nat} {bad : Bool} (he : tabGet s.fwd.pt i = some e) (sound : e.bad = true ∨ bad = false) :
    ptRead s i bad = ptResult (ptShown (s.set Reg.FWD_PT_CMD_index i) e) (if e.bad then 4 else 0) := by
  have there : tabGet (s.set Reg.FWD_PT_CMD_index i).fwd.pt i = some e := he
  have clean : (bad && !e.bad) = false := by rcases sound with b | b <;> simp [b]
  have result : (if (e.bad || bad) = true then 4 else 0) = if e.bad then 4 else 0 := by rcases sound with b | b <;> simp [b]
  unfold ptRead
  simp only [there, clean, result]
  rfl

theorem ptRead_none {i : Nat} {bad : Bool} (he : tabGet s.fwd.pt i = none) :
    ptRead s i bad = ptResult (s.set Reg.FWD_PT_CMD_index i) 3 := by
  have there : tabGet (s.set Reg.FWD_PT_CMD_index i).fwd.pt i = none := he
  unfold ptRead
  simp only [there]

/-- PT_READ marks an upset entry bad. -/
def ptMarked (s : State) (i : Nat) (e : PtEntry) : State :=
  (s.set Reg.FWD_PT_CMD_index i).onFwd (fun f => { f with pt := tabPut f.pt i { e with bad := true } })

theorem ptMarked_pwr (s : State) (i : Nat) (e : PtEntry) : (ptMarked s i e).pwr = s.pwr := rfl

/-- An upset entry is marked bad as it is read. -/
theorem ptRead_upset {e : PtEntry} {i : Nat} (he : tabGet s.fwd.pt i = some e) (good : e.bad = false) :
    ptRead s i true = ptResult (ptShown (fwdParity (ptMarked s i e) 1 i 161) e) 4 := by
  have there : tabGet (s.set Reg.FWD_PT_CMD_index i).fwd.pt i = some e := he
  unfold ptRead
  simp only [there, good]
  rfl

theorem ptRead_changes {e : PtEntry} (i : Fin 4096) (bad : Bool) (h : s.settled) (he : tabGet s.fwd.pt i = some e)
    (sound : e.bad = true ∨ bad = false) :
    changes (.ptRead t i bad) s ((List.range 4).map Reg.FWD_PT_VAL_addr ++ [Reg.FWD_PT_CTL_port_v,
      Reg.FWD_PT_CTL_dscp_v, Reg.FWD_PT_CTL_port_m, Reg.FWD_PT_CTL_dscp_m, Reg.FWD_PT_ACT_action, Reg.FWD_PT_ACT_port,
      Reg.FWD_PT_ACT_svc, Reg.FWD_PT_ACT_sci, Reg.FWD_PT_CMD_plen, Reg.FWD_PT_CMD_index, Reg.FWD_PT_CMD_result,
      Reg.FWD_PT_FILL_count]) [] [] (fun u => u.get Reg.FWD_PT_CMD_result = (if e.bad then 4 else 0) ∧
      u.get Reg.FWD_PT_CMD_index = i ∧ addrOf (fun m => u.get (Reg.FWD_PT_VAL_addr m)) = e.value % 2 ^ 128 ∧
      u.get Reg.FWD_PT_CTL_port_v = e.value / 2 ^ 128 % 8 ∧ u.get Reg.FWD_PT_CTL_dscp_v = e.value / 2 ^ 131 % 64 ∧
      u.get Reg.FWD_PT_CTL_port_m = e.mask / 2 ^ 128 % 8 ∧ u.get Reg.FWD_PT_CTL_dscp_m = e.mask / 2 ^ 131 % 64 ∧
      u.get Reg.FWD_PT_ACT_action = e.action % 4 ∧ u.get Reg.FWD_PT_ACT_port = e.port % 8 ∧
      u.get Reg.FWD_PT_ACT_svc = e.svc % 16 ∧ u.get Reg.FWD_PT_ACT_sci = e.sci % 16 ∧
      u.get Reg.FWD_PT_CMD_plen = e.plen % 256) := by
  have effect := ptRead_eq (s := s.begin t) (bad := bad) he sound
  have controls (u : State) (kept : Kept (ptResult (ptShown ((s.begin t).set Reg.FWD_PT_CMD_index i) e) (if e.bad then 4 else 0)) u) :
      ∀ f ∈ ptControls, u.get f = (ptShown ((s.begin t).set Reg.FWD_PT_CMD_index i) e).get f := by
    have apart : ∀ f ∈ ptControls, chrFlagKey f.key = false ∧ Reg.FWD_PT_CMD_result.key ≠ f.key ∧
      Reg.FWD_PT_FILL_count.key ≠ f.key := by decide
    intro f hf
    obtain ⟨flag, result, fill⟩ := apart f hf
    rw [kept.get f flag, ptResult_get _ _ result fill]
  refine changes_of (f := fun s => ptRead s i.val bad) rfl effect h (elsewhere_ptResult (elsewhere_ptShown (.set (.start s t))
    (fun m hm => ?_) (by simp [ptControls]))) (fun u kept => ?_)
  · exact List.map_append ▸ List.mem_append_left _ (List.mem_map_of_mem (List.mem_map_of_mem (List.mem_range.2 hm)))
  · obtain ⟨portV, dscpV, portM, dscpM, action, port, svc, sci, plen⟩ := ptShown_reads ((s.begin t).set Reg.FWD_PT_CMD_index i) e
    have shown (f : Fld) (hf : f ∈ ptControls) := controls u kept f hf
    unfold ptControls at shown
    refine ⟨?_, ?_, ?_, (shown _ (by simp)).trans portV, (shown _ (by simp)).trans dscpV, (shown _ (by simp)).trans portM,
      (shown _ (by simp)).trans dscpM, (shown _ (by simp)).trans action, (shown _ (by simp)).trans port,
      (shown _ (by simp)).trans svc, (shown _ (by simp)).trans sci, (shown _ (by simp)).trans plen⟩
    · rw [kept.get _ (by decide), ptResult_result]
      split <;> rfl
    · rw [kept.get _ (by decide), ptResult_get _ _ (by decide) (by decide), ptShown_get _ _ (by decide) (by decide),
        State.get_set_self]
      exact Nat.mod_eq_of_lt i.isLt
    · have apart : ∀ m < 4, chrFlagKey (Reg.FWD_PT_VAL_addr m).key = false ∧
          Reg.FWD_PT_CMD_result.key ≠ (Reg.FWD_PT_VAL_addr m).key ∧
          Reg.FWD_PT_FILL_count.key ≠ (Reg.FWD_PT_VAL_addr m).key := by decide
      refine (addrOf_congr (fun m hm => ?_)).trans (ptShown_addr ((s.begin t).set Reg.FWD_PT_CMD_index i) e)
      obtain ⟨flag, result, fill⟩ := apart m hm
      rw [kept.get _ flag, ptResult_get _ _ result fill]

theorem ptRead_changes_upset {e : PtEntry} (i : Fin 4096) (h : s.settled) (he : tabGet s.fwd.pt i = some e)
    (good : e.bad = false) :
    changes (.ptRead t i true) s ((List.range 4).map Reg.FWD_PT_VAL_addr ++ [Reg.FWD_PT_CTL_port_v,
      Reg.FWD_PT_CTL_dscp_v, Reg.FWD_PT_CTL_port_m, Reg.FWD_PT_CTL_dscp_m, Reg.FWD_PT_ACT_action, Reg.FWD_PT_ACT_port,
      Reg.FWD_PT_ACT_svc, Reg.FWD_PT_ACT_sci, Reg.FWD_PT_CMD_plen, Reg.FWD_PT_CMD_index, Reg.FWD_PT_CMD_result,
      Reg.FWD_PT_FILL_count] ++ fwdParityFields [i.val]) (fwdParityCounts [i.val]) [.fwd, .power] (fun u =>
      u.get Reg.FWD_PT_CMD_result = 4 ∧ u.fwd = { s.fwd with pt := tabPut s.fwd.pt i { e with bad := true } } ∧
      u.get Reg.FWD_PAR_LOG_table = 1 ∧ u.get Reg.FWD_PAR_LOG_index = i ∧ u.get Reg.FWD_PAR_LOG_logged = 1 ∧
      u.count Reg.FWD_CNT_PAR_ERR = (s.count Reg.FWD_CNT_PAR_ERR + 1) % 2 ^ 32) := by
  have effect := ptRead_upset (s := s.begin t) he good
  obtain ⟨tableRead, indexRead, logged⟩ := fwdParity_log (ptMarked (s.begin t) i e) 1 i 161
  have quiet : (ptMarked (s.begin t) i e).noChannelFault := (h.noChannelFault t).same (ptMarked_pwr ..)
  refine changes_judged (f := fun s => ptRead s i.val true) rfl effect h (elsewhere_ptResult (elsewhere_ptShown
    (elsewhere_fwdParity (.onFwd (.set (.start s t))) (by simp [fwdParityFields]) (by simp [fwdParityFields])
      (by simp [fwdParityFields]) (by simp [fwdParityCounts]) (by simp)) (fun m hm => ?_) (by simp [ptControls])))
    ?_ (fun u judged => ⟨?_, ?_, ?_, ?_, ?_, ?_⟩) (by simp [fwdParityFields, fwdParityCounts])
  · simp only [List.append_assoc, List.map_append]
    exact List.mem_append_left _ (List.mem_map_of_mem (List.mem_map_of_mem (List.mem_range.2 hm)))
  · exact ((quiet.fwdParity 1 i).same ((ptShown_frame ..).2.2.1 .power (by simp))).same (ptResult_pwr ..)
  · rw [judged.get (by decide) (by decide), ptResult_result]
    rfl
  · rw [judged.part .fwd, ptResult_fwd, (ptShown_frame ..).2.2.1 .fwd (by simp), fwdParity_fwd]
    rfl
  · rw [judged.get (by decide) (by decide), ptResult_get _ _ (by decide) (by decide), ptShown_get _ _ (by decide) (by decide),
      tableRead]
  · rw [judged.get (by decide) (by decide), ptResult_get _ _ (by decide) (by decide), ptShown_get _ _ (by decide) (by decide),
      indexRead]
    exact Nat.mod_eq_of_lt (by omega)
  · rw [judged.get (by decide) (by decide), ptResult_get _ _ (by decide) (by decide), ptShown_get _ _ (by decide) (by decide),
      logged]
  · rw [judged.count (by decide) (by decide), ptResult_count, (ptShown_frame ..).2.1 _ (by simp) (by decide), fwdParity_count]
    rfl

theorem ptRead_changes_empty (i : Fin 4096) (bad : Bool) (h : s.settled) (he : tabGet s.fwd.pt i = none) :
    changes (.ptRead t i bad) s [Reg.FWD_PT_CMD_index,
      Reg.FWD_PT_CMD_result, Reg.FWD_PT_FILL_count] [] [] (fun u => u.get Reg.FWD_PT_CMD_result = 3) := by
  refine changes_of (f := fun s => ptRead s i.val bad) rfl (ptRead_none (s := s.begin t) he) h
    (elsewhere_ptResult (.set (.start s t))) (fun u kept => ?_)
  rw [kept.get _ (by decide), ptResult_result]
  rfl

/-- Settles O43: the place of a new entry is that after the last entry as long (`foldl_place`), so nothing moves; the words that a
read shows are the octets of the value in order (`ptShown_addr`), and a parity error is judged as `changes_judged` says. -/
theorem prefixTableCompletes : Obligations.PrefixTableCompletes := fun _ _ _ _ h =>
  ⟨fwdEnable_changes h, fwdDisable_changes h,
    fun plen n pos hp hn full low sound below last free _ => ptInsert_changes plen n pos h hp hn full low sound below last free,
    fun i j x => ptDelete_changes i j x h, fun i bad => ptRead_changes i bad h, fun i => ptRead_changes_upset i h,
    fun i bad => ptRead_changes_empty i bad h⟩

end PrefixTable
end Sys2Proof.Machine

namespace Sys2Proof.Machine

/-! ### The claim command (R463) -/

section Claims

variable {t op : Nat} {s v : State} {m : Tab Holder} {r : BitVec 6} {o : BitVec 8}

/-- The answer of a claim command: its code and the claim table after it. `stopped` is what is left of a comparator set free. -/
def claimAnswer (old : Tab Holder) (op : Nat) (r : BitVec 6) (o : BitVec 8) (code : Nat) (new : Tab Holder) (stopped : Prop) : Prop :=
  if 39 < r.toNat ∨ r.toNat = 15 then code = 2 ∧ new = old
  else if op ≠ 3 ∧ (o = 0 ∨ o = 0xFF) then code = 4 ∧ new = old
  else if op = 3 then code = 0 ∧ new = old
  else if op = 1 then
    if tabGet old r.toNat = none ∨ tabGet old r.toNat = some ⟨true, o.toNat⟩ then
      code = 0 ∧ tabGet new r.toNat = some ⟨true, o.toNat⟩
    else code = 1 ∧ new = old
  else if tabGet old r.toNat = none then code = 0 ∧ new = old
  else if tabGet old r.toNat = some ⟨true, o.toNat⟩ then
    code = 0 ∧ tabGet new r.toNat = none ∧ (16 ≤ r.toNat ∧ r.toNat ≤ 31 → stopped)
  else code = 3 ∧ new = old

theorem claimAnswer_mono {old new : Tab Holder} {code : Nat} {p q : Prop} (h : claimAnswer old op r o code new p) (k : p → q) :
    claimAnswer old op r o code new q := by
  unfold claimAnswer at h ⊢
  repeat' split at h
  all_goals simp_all

/-- A claim command sets a comparator free. -/
def claimFrees (m : Tab Holder) (op r o : Nat) : Bool :=
  decide (op = 2 ∧ 16 ≤ r ∧ r ≤ 31) && (tabGet m r).isSome && (tabGet (claimOp m op r o).2 r).isNone

/-- The table after a claim command is the old one but for the resource. -/
theorem claimOp_other (m : Tab Holder) (op r o : Nat) {k : Nat} (h : k ≠ r) :
    tabGet (claimOp m op r o).2 k = tabGet m k := by
  unfold claimOp
  repeat' split
  all_goals simp [tabGet_put_ne _ _ h.symm, tabGet_del_ne _ h.symm]

theorem claimOp_answer (hop : op = 1 ∨ op = 2 ∨ op = 3) : claimAnswer m op r o (claimOp m op r.toNat o.toNat).1
    (claimOp m op r.toNat o.toNat).2 (claimFrees m op r.toNat o.toNat = true) := by
  have owner : o = 0 ∨ o = 0xFF ↔ o.toNat = 0 ∨ o.toNat = 255 := by
    simp [← BitVec.toNat_inj]
  unfold claimAnswer
  split
  next gone =>
    have absent : resourceExists r.toNat = false := by simp [resourceExists]; omega
    simp [claimOp, absent]
  next there =>
    have exist : resourceExists r.toNat = true := by simp [resourceExists]; omega
    split
    next bad =>
      have code : op = 1 ∨ op = 2 := by omega
      simp [claimOp, exist, code, owner.1 bad.2]
    next good =>
      rw [owner] at good
      rcases hop with rfl | rfl | rfl
      · have fine : ¬(o.toNat = 0 ∨ o.toNat = 255) := fun bad => good ⟨by decide, bad⟩
        cases held : tabGet m r.toNat with
        | none => simp [claimOp, exist, fine, held]
        | some h => by_cases own : h = ⟨true, o.toNat⟩ <;> simp [claimOp, exist, fine, held, own]
      · have fine : ¬(o.toNat = 0 ∨ o.toNat = 255) := fun bad => good ⟨by decide, bad⟩
        cases held : tabGet m r.toNat with
        | none => simp [claimOp, exist, fine, held]
        | some h => by_cases own : h = ⟨true, o.toNat⟩ <;> simp [claimOp, claimFrees, exist, fine, held, own]
      · simp [claimOp, exist]

/-- What a claim command shows. -/
def claimShown (s : State) (r o code : Nat) (h : Holder) : State :=
  ((((s.set Reg.GLB_CLAIM_CMD_resource r).set Reg.GLB_CLAIM_CMD_owner o).set Reg.GLB_CLAIM_CMD_result code).set
    Reg.GLB_CLAIM_CMD_holder h.id).setb Reg.GLB_CLAIM_CMD_holder_fw h.fw

theorem claimCommand_eq (s : State) (op r o : Nat) : claimCommand s op r o =
    claimShown { (if claimFrees s.claims op r o then cmpDisable s (r - 16) else s) with claims := (claimOp s.claims op r o).2 }
      r o (claimOp s.claims op r o).1 (tabGetD (claimOp s.claims op r o).2 r ⟨false, 0⟩) := by
  unfold claimCommand claimFrees tabGetD
  dsimp only
  cases tabGet (claimOp s.claims op r o).2 r <;> rfl

/-- The fields in which a claim command answers. -/
def claimFields : List Fld :=
  [Reg.GLB_CLAIM_CMD_resource, Reg.GLB_CLAIM_CMD_owner, Reg.GLB_CLAIM_CMD_result, Reg.GLB_CLAIM_CMD_holder,
    Reg.GLB_CLAIM_CMD_holder_fw]

theorem claimShown_frame (s : State) (r o code : Nat) (h : Holder) : s.elsewhere (claimShown s r o code h) claimFields [] [] := by
  unfold claimFields
  exact .setb (.set (.set (.set (.set (elsewhere_refl ..)))))

/-- The comparators lie elsewhere than GLB_CLAIM_CMD. -/
theorem claimFields_apart {f : Fld} (h : 0x20000 ≤ f.off) : f.key ∉ claimFields.map Fld.key := by
  simp only [claimFields, List.map_cons, List.map_nil, List.mem_cons, List.not_mem_nil, Fld.key, Reg.GLB_CLAIM_CMD_resource,
    Reg.GLB_CLAIM_CMD_owner, Reg.GLB_CLAIM_CMD_result, Reg.GLB_CLAIM_CMD_holder, Reg.GLB_CLAIM_CMD_holder_fw, or_false]
  omega

theorem claimShown_reads (s : State) (r : BitVec 6) (o : BitVec 8) (code : Nat) (h : Holder) :
    (claimShown s r.toNat o.toNat code h).get Reg.GLB_CLAIM_CMD_resource = r.toNat ∧
    (claimShown s r.toNat o.toNat code h).get Reg.GLB_CLAIM_CMD_owner = o.toNat ∧
    (claimShown s r.toNat o.toNat code h).get Reg.GLB_CLAIM_CMD_result = code % 8 ∧
    (claimShown s r.toNat o.toNat code h).get Reg.GLB_CLAIM_CMD_holder = h.id % 256 ∧
    (claimShown s r.toNat o.toNat code h).get Reg.GLB_CLAIM_CMD_holder_fw = h.fw.toNat := by
  unfold claimShown
  simp (disch := decide) only [State.get_setb_ne, State.get_set_ne, State.get_set_self]
  refine ⟨Nat.mod_eq_of_lt r.isLt, Nat.mod_eq_of_lt o.isLt, rfl, rfl, ?_⟩
  cases h.fw <;> simp [Reg.GLB_CLAIM_CMD_holder_fw]

/-- A comparator is off and not armed once it is disabled. -/
theorem cmpDisable_reads (s : State) (k : Nat) :
    (cmpDisable s k).get (Reg.BAL_CMP_CTRL_en k) = 0 ∧ (cmpDisable s k).get (Reg.BAL_CMP_CTRL_armed k) = 0 := by
  refine ⟨?_, by simp [cmpDisable]⟩
  unfold cmpDisable
  rw [State.get_set_ne]
  · simp
  · simp only [Fld.key, Reg.BAL_CMP_CTRL_en, Reg.BAL_CMP_CTRL_armed]
    omega

theorem claimOp_code (m : Tab Holder) (op r o : Nat) : (claimOp m op r o).1 < 8 := by
  unfold claimOp
  repeat' split
  all_goals simp only [Nat.reduceLT]

/-- A comparator is set free when its owner releases it. -/
theorem claimFrees_iff (h : claimFrees m op r.toNat o.toNat = true) :
    op = 2 ∧ 16 ≤ r.toNat ∧ r.toNat ≤ 31 ∧ tabGet m r.toNat = some ⟨true, o.toNat⟩ := by
  unfold claimFrees at h
  simp only [Bool.and_eq_true, decide_eq_true_eq] at h
  obtain ⟨⟨⟨rfl, low, high⟩, held⟩, gone⟩ := h
  refine ⟨rfl, low, high, ?_⟩
  have answer := claimOp_answer (m := m) (r := r) (o := o) (op := 2) (by simp)
  by_contra other
  have same : (claimOp m 2 r.toNat o.toNat).2 = m := by
    simp only [claimAnswer, other] at answer
    split at answer
    · exact answer.2
    · split at answer
      · exact answer.2
      · simp only [Nat.reduceEqDiff, if_false] at answer
        split at answer <;> exact answer.2
  rw [same] at gone
  simp_all

/-- The comparator that a release sets free. -/
def claimFreed (m : Tab Holder) (op r o : Nat) : List Fld :=
  if op = 2 ∧ 16 ≤ r ∧ r ≤ 31 ∧ tabGet m r = some ⟨true, o⟩ then [Reg.BAL_CMP_CTRL_en (r - 16), Reg.BAL_CMP_CTRL_armed (r - 16)]
  else []

theorem claimCommand_frame (s : State) (op : Nat) (r : BitVec 6) (o : BitVec 8) :
    s.elsewhere (claimCommand s op r.toNat o.toNat) (claimFields ++ claimFreed s.claims op r.toNat o.toNat) [] [.claims] := by
  have freed : s.elsewhere (if claimFrees s.claims op r.toNat o.toNat then cmpDisable s (r.toNat - 16) else s)
      (claimFields ++ claimFreed s.claims op r.toNat o.toNat) [] [.claims] := by
    refine elsewhere_ite (fun frees => ?_) (fun _ => elsewhere_refl ..)
    unfold claimFreed
    rw [if_pos (claimFrees_iff frees)]
    exact .set (.set (elsewhere_refl ..))
  rw [claimCommand_eq]
  exact elsewhere_trans freed.claims (elsewhere_mono (claimShown_frame ..)
    (fun k hk => List.map_append ▸ List.mem_append_left _ hk) (by simp) (by simp))

theorem claimShown_claims (s : State) (r o code : Nat) (h : Holder) : (claimShown s r o code h).claims = s.claims := rfl

theorem claimCommand_claims (s : State) (op r o : Nat) : (claimCommand s op r o).claims = (claimOp s.claims op r o).2 := by
  rw [claimCommand_eq, claimShown_claims]

/-- A comparator set free is off. -/
theorem claimCommand_stops (s : State) (frees : claimFrees s.claims op r.toNat o.toNat = true) :
    (claimCommand s op r.toNat o.toNat).get (Reg.BAL_CMP_CTRL_en (r.toNat - 16)) = 0 ∧
    (claimCommand s op r.toNat o.toNat).get (Reg.BAL_CMP_CTRL_armed (r.toNat - 16)) = 0 := by
  have low := r.isLt
  obtain ⟨en, armed⟩ := cmpDisable_reads s (r.toNat - 16)
  rw [claimCommand_eq, if_pos frees]
  refine ⟨((claimShown_frame ..).1 _ (chrFlag_low ?_) (claimFields_apart ?_)).trans en,
    ((claimShown_frame ..).1 _ (chrFlag_low ?_) (claimFields_apart ?_)).trans armed⟩
  all_goals
    simp only [Fld.key, Reg.BAL_CMP_CTRL_en, Reg.BAL_CMP_CTRL_armed]
    omega

/-- The claim command, however its operands come to it. -/
theorem claim_changes {c : Instr} {f : State → State} (e : exec c s = act t s f)
    (effect : f (s.begin t) = claimCommand v op r.toNat o.toNat) (h : s.settled)
    (frame : s.elsewhere v [Reg.GLB_CLAIM_CMD_resource, Reg.GLB_CLAIM_CMD_owner] [] []) (hop : op = 1 ∨ op = 2 ∨ op = 3) :
    changes c s (claimFields ++ claimFreed s.claims op r.toNat o.toNat) [] [.claims] (fun u =>
      u.get Reg.GLB_CLAIM_CMD_resource = r.toNat ∧ u.get Reg.GLB_CLAIM_CMD_owner = o.toNat ∧
      u.get Reg.GLB_CLAIM_CMD_holder = (tabGetD u.claims r.toNat ⟨false, 0⟩).id % 256 ∧
      u.get Reg.GLB_CLAIM_CMD_holder_fw = (tabGetD u.claims r.toNat ⟨false, 0⟩).fw.toNat ∧
      (∀ k, k ≠ r.toNat → tabGet u.claims k = tabGet s.claims k) ∧
      claimAnswer s.claims op r o (u.get Reg.GLB_CLAIM_CMD_result) u.claims
        (u.get (Reg.BAL_CMP_CTRL_en (r.toNat - 16)) = 0 ∧ u.get (Reg.BAL_CMP_CTRL_armed (r.toNat - 16)) = 0)) := by
  have before : v.claims = s.claims := frame.2.2.1 .claims (by simp)
  have whole := claimCommand_frame v op r o
  rw [before] at whole
  refine changes_of e effect h (elsewhere_trans (elsewhere_mono frame (by simp [claimFields]) (by simp) (by simp)) whole)
    (fun u kept => ?_)
  have claims : u.claims = (claimOp s.claims op r.toNat o.toNat).2 := by
    rw [kept.claims, claimCommand_claims, before]
  rw [claims]
  have shown := claimCommand_eq v op r.toNat o.toNat
  rw [before] at shown
  obtain ⟨resource, owner, result, holder, fw⟩ := claimShown_reads
    { (if claimFrees s.claims op r.toNat o.toNat then cmpDisable v (r.toNat - 16) else v) with
      claims := (claimOp s.claims op r.toNat o.toNat).2 } r o (claimOp s.claims op r.toNat o.toNat).1
    (tabGetD (claimOp s.claims op r.toNat o.toNat).2 r.toNat ⟨false, 0⟩)
  rw [← shown] at resource owner result holder fw
  refine ⟨(kept.get _ (by decide)).trans resource, (kept.get _ (by decide)).trans owner, (kept.get _ (by decide)).trans holder,
    (kept.get _ (by decide)).trans fw, fun k hk => claimOp_other _ _ _ _ hk, ?_⟩
  rw [kept.get _ (by decide), result, Nat.mod_eq_of_lt (claimOp_code ..)]
  refine claimAnswer_mono (claimOp_answer hop) (fun frees => ?_)
  obtain ⟨en, armed⟩ := claimCommand_stops v (before ▸ frees)
  have low := r.isLt
  refine ⟨(kept.get _ (chrFlag_low ?_)).trans en, (kept.get _ (chrFlag_low ?_)).trans armed⟩
  all_goals
    simp only [Fld.key, Reg.BAL_CMP_CTRL_en, Reg.BAL_CMP_CTRL_armed]
    omega

/-! ### The write of GLB_CLAIM_CMD -/

/-- A write of GLB_CLAIM_CMD, before its command. -/
def claimWritten (s : State) (r o : Nat) : State :=
  (({ s with resp := .ok } : State).set Reg.GLB_CLAIM_CMD_resource r).set Reg.GLB_CLAIM_CMD_owner o

theorem claimWritten_frame (s : State) (r o : Nat) :
    s.elsewhere (claimWritten s r o) [Reg.GLB_CLAIM_CMD_resource, Reg.GLB_CLAIM_CMD_owner] [] [] :=
  .set (.set (.resp (elsewhere_refl ..)))

theorem claimWritten_reads (s : State) (r : BitVec 6) (o : BitVec 8) :
    (claimWritten s r.toNat o.toNat).get Reg.GLB_CLAIM_CMD_resource = r.toNat ∧
    (claimWritten s r.toNat o.toNat).get Reg.GLB_CLAIM_CMD_owner = o.toNat := by
  unfold claimWritten
  rw [State.get_set_ne _ _ (by decide), State.get_set_self, State.get_set_self]
  exact ⟨Nat.mod_eq_of_lt r.isLt, Nat.mod_eq_of_lt o.isLt⟩

theorem fieldsWrite_claim (s : State) (val : Nat) : fieldsWrite s 0x10 val =
    (s.set Reg.GLB_CLAIM_CMD_resource (bits val 0 6)).set Reg.GLB_CLAIM_CMD_owner (bits val 8 8) := rfl

theorem claimFreed_high {f : Fld} (h : f.off < 0x20000) (lo : f.lo < 32) :
    f.key ∉ (claimFreed m op r.toNat o.toNat).map Fld.key := by
  unfold claimFreed
  split
  · simp only [List.map_cons, List.map_nil, List.mem_cons, List.not_mem_nil, Fld.key, Reg.BAL_CMP_CTRL_en,
      Reg.BAL_CMP_CTRL_armed, or_false]
    omega
  · simp

/-- The state of the power domain is no field of the claim command. -/
theorem claimCommand_state (s : State) : (claimCommand s op r.toNat o.toNat).get Reg.PWR_STATUS_state = s.get Reg.PWR_STATUS_state := by
  refine (claimCommand_frame s op r o).1 _ (by decide) ?_
  rw [List.map_append, List.mem_append]
  exact fun h => h.elim (by decide) (claimFreed_high (by decide) (by decide))

/-- What a write in the block of GLB does. -/
theorem busWrite_glb {m : Master} {reads : BusReads} {off x : Nat} {v : State} (block : off / 0x10000 = 0)
    (awake : m = .host → v.get Reg.PWR_STATUS_state ≠ 2)
    (command : glbWrite (fieldsWrite { s with resp := .ok } off x) off x = v) : busWrite s m off x reads = v := by
  have taken : ∀ w n, writeRefused w n off x = none := fun w n => writeRefused_eq_none (by simp [block]) w n x
  have own : ∀ w u n, blockWrite w u n off x reads = glbWrite u off x := fun w u n => by
    unfold blockWrite
    rw [block]
    rfl
  have amc : ¬off / 0x10000 = 9 := by omega
  have chz : ¬off / 0x10000 = 7 := by omega
  have mbx : ¬off / 0x10000 = 0x11 := by omega
  unfold busWrite
  simp only [amc, chz, mbx, if_false, taken, own, command]
  split
  next host => exact standbyWake_awake _ (awake ((masterNow_eq_host s m).1 host))
  · rfl

/-- Settles O17: what CLAIM, RELEASE and QUERY answer is `claimOp_answer`; a write of GLB_CLAIM_CMD writes its two RW fields and then
does the same (`busWrite_glb`). -/
theorem firmwareClaimsComplete : Obligations.FirmwareClaimsComplete := by
  intro t m op r o val reads c s h awake bar resource owner code hc
  have written : fieldsWrite { s.begin t with resp := .ok } 0x10 val.toNat = claimWritten (s.begin t) r.toNat o.toNat := by
    rw [fieldsWrite_claim, resource, owner]
    rfl
  have frame : s.elsewhere (claimWritten (s.begin t) r.toNat o.toNat) [Reg.GLB_CLAIM_CMD_resource, Reg.GLB_CLAIM_CMD_owner] [] [] :=
    elsewhere_trans (elsewhere_begin (elsewhere_refl ..) t) (claimWritten_frame ..)
  have state : (claimWritten (s.begin t) r.toNat o.toNat).get Reg.PWR_STATUS_state = s.get Reg.PWR_STATUS_state :=
    frame.1 _ (by decide) (by decide)
  refine ⟨fun zero => ?_, fun some => ?_⟩
  · subst zero
    obtain rfl : c = .registerWrite t m 0x10 val reads := by simpa using hc
    obtain ⟨shownResource, shownOwner⟩ := claimWritten_reads (s.begin t) r o
    have command : glbWrite (claimWritten (s.begin t) r.toNat o.toNat) 0x10 val.toNat = claimWritten (s.begin t) r.toNat o.toNat :=
      if_neg (by simp [code])
    refine changes_of (exec_registerWrite bar) (busWrite_glb rfl (fun host => state ▸ awake host) (written ▸ command)) h frame
      (fun u kept => ⟨(kept.get _ (by decide)).trans shownResource, (kept.get _ (by decide)).trans shownOwner⟩)
  · have hop : op = 1 ∨ op = 2 ∨ op = 3 := by
      have : bits val.toNat 16 2 < 4 := Nat.mod_lt _ (by decide)
      omega
    rcases List.mem_cons.1 hc with rfl | plain
    · have command : glbWrite (claimWritten (s.begin t) r.toNat o.toNat) 0x10 val.toNat =
          claimCommand (claimWritten (s.begin t) r.toNat o.toNat) op r.toNat o.toNat := by
        unfold glbWrite
        rw [if_pos ⟨rfl, code ▸ some⟩, code, resource, owner]
      exact claim_changes (exec_registerWrite bar) (busWrite_glb rfl
        (fun host => by rw [claimCommand_state, state]; exact awake host) (written ▸ command)) h frame hop
    · have begun : s.elsewhere (s.begin t) [Reg.GLB_CLAIM_CMD_resource, Reg.GLB_CLAIM_CMD_owner] [] [] := .start s t
      rcases hop with rfl | rfl | rfl
      · obtain rfl : c = .claim t r o := by simpa using plain
        exact claim_changes (f := fun s => claimCommand s 1 r.toNat o.toNat) rfl rfl h begun (by simp)
      · obtain rfl : c = .release t r o := by simpa using plain
        exact claim_changes (f := fun s => claimCommand s 2 r.toNat o.toNat) rfl rfl h begun (by simp)
      · obtain rfl : c = .query t r o := by simpa using plain
        exact claim_changes (f := fun s => claimCommand s 3 r.toNat o.toNat) rfl rfl h begun (by simp)

end Claims
end Sys2Proof.Machine

namespace Sys2Proof.Machine

/-! ### What O23 leaves out: the width of a statistics counter -/

/-- The machine after reset, but with a calibration in compatibility mode due on RFA, which runs, and with the value 2³² in
RFX_CNT_BLANK_ABORT. No counting leaves such a value (`State.count_bumpBy`); nothing in `State.settled` keeps a state from holding
it. -/
def wideCounter : State :=
  { State.reset with fields := [((Reg.RFX_STATUS_state 0).key, 2), ((Reg.RFX_STATUS_compat_cal_pending 0).key, 1)],
                     cnt := [(Reg.RFX_CNT_BLANK_ABORT 0, 2 ^ 32)] }

theorem wideCounter_settled : wideCounter.settled := ⟨rfl, rfl, rfl⟩

/-- Refutes O23: in `wideCounter` the calibration begins with no lane in the middle of a frame, and the 0 aborted frames that it
counts leave RFX_CNT_BLANK_ABORT at (2³² + 0) mod 2³² = 0, where the frame of the clause says that every counter stays. -/
theorem not_receiverEnableCompletes : ¬ Obligations.ReceiverEnableCompletes := by
  intro h
  obtain ⟨-, -, -, -, -, compat, -⟩ := h 0 0 wideCounter wideCounter_settled
  obtain ⟨u, hu, ⟨-, counts, -⟩, -⟩ := compat (by decide) (by decide) (by decide) (by decide)
  obtain ⟨v, hv, kept⟩ := act_kept (s := wideCounter) (t := 0) (f := fun s => compatCalStart s 0) rfl rfl rfl
  cases hu.symm.trans hv
  have stays := counts (Reg.RFX_CNT_BLANK_ABORT 0) (by simp) (by decide)
  rw [kept.count _ (by decide)] at stays
  have after : (compatCalStart (wideCounter.begin 0) 0).count (Reg.RFX_CNT_BLANK_ABORT 0) = 0 := rfl
  have before : wideCounter.count (Reg.RFX_CNT_BLANK_ABORT 0) = 2 ^ 32 := rfl
  exact absurd (after.symm.trans (stays.trans before)) (by decide)

end Sys2Proof.Machine

namespace Sys2Proof.Machine

/-! ### What O33 leaves out: the beacons of AMC at its disable -/

/-- A beacon of AMC that waits for its start. -/
def waitingBeacon : TxCmd where
  id := 1
  issuer := .beacon
  cls := .slot
  freq := 0
  power := none
  start := none
  airUs := 0
  profile := 0
  occHz := 0
  psdu := []
  ref := 0

/-- The machine after reset, but with AMC enabled and a beacon of its own in chain 0. -/
def beaconWaits : State :=
  { State.reset with fields := [(Reg.AMC_CTRL_enable.key, 1)], chains := [(0, { active := some waitingBeacon })] }

theorem beaconWaits_settled : beaconWaits.settled := ⟨rfl, rfl, rfl⟩

/-- Refutes O33: in `beaconWaits` no CSMA-CA run is open and no frame is handed to a chain; AMC_DISABLE withdraws the beacon from
its chain (log 123), where the frame of the clause says that the chains stay. -/
theorem not_airMacCompletes : ¬ Obligations.AirMacCompletes := by
  intro h
  obtain ⟨-, disable, -⟩ := h 0 beaconWaits beaconWaits_settled
  obtain ⟨u, hu, ⟨-, -, parts, -⟩, -⟩ := disable (by decide) rfl rfl
  have stays : u.chains = beaconWaits.chains := parts .chains (by simp)
  have next : exec (.amcDisable 0) beaconWaits =
    .next { (amcDisable (beaconWaits.begin 0)).finish with pending := [] } := rfl
  cases hu.symm.trans next
  have after : (tabGet (amcDisable (beaconWaits.begin 0)).finish.chains 0).map (·.active) = some none := by decide +kernel
  rw [show (amcDisable (beaconWaits.begin 0)).finish.chains = beaconWaits.chains from stays] at after
  exact absurd after (by decide)

end Sys2Proof.Machine

namespace Sys2Proof.Machine

/-! ### Time triggers (R37, R40, R65, R66) -/

section TimeTriggers

variable {t : Nat} {n : Fin 8} {s v w : State}

/-! What a trigger's operations read -/

/-- Whether a target is late is told by the mapping, the site's phase and the instant. -/
theorem targetLate_congr (status : v.get Reg.BAL_STATUS_state = s.get Reg.BAL_STATUS_state) (site : sitePhase v = sitePhase s)
    (ltb : v.ltb = s.ltb) (mapping : v.bal.cycles = s.bal.cycles ∧ v.bal.stall = s.bal.stall ∧ v.bal.floor = s.bal.floor)
    (target lead : Nat) : targetLate v target lead = targetLate s target lead := by
  obtain ⟨cycles, stall, floor⟩ := mapping
  unfold targetLate liveAngle ltbOf balOff mappingNow
  rw [status, site, ltb, cycles, stall, floor]

theorem ttBall_congr (h : v.get (Reg.BAL_TT_CTRL_out_sel n) = s.get (Reg.BAL_TT_CTRL_out_sel n)) : ttBall v n = ttBall s n := by
  unfold ttBall State.on
  rw [h]

theorem ttBallRes_congr (h : v.get (Reg.BAL_TT_CTRL_out_sel n) = s.get (Reg.BAL_TT_CTRL_out_sel n)) :
    ttBallRes v n = ttBallRes s n := by
  unfold ttBallRes State.on
  rw [h]

/-- The fields of a trigger's registers, apart from its status. -/
def ttSettings (n : Nat) : List Fld :=
  [Reg.BAL_TT_CTRL_action n, Reg.BAL_TT_CTRL_out_sel n, Reg.BAL_TT_CTRL_late_pol n, Reg.BAL_TT_CTRL_hold_gate n,
    Reg.BAL_TT_CTRL_ev_en n, Reg.BAL_TT_CTRL_lead n, Reg.BAL_TT_ANG_LO_ang_lo n, Reg.BAL_TT_PER_period n,
    Reg.BAL_TT_WIDTH_width n, Reg.BAL_STATUS_state, Reg.BAL_SITE_PHASE_site_phase]

theorem ttKey_armed (n : Fin 8) : ∀ f ∈ ttSettings n ++ [Reg.BAL_TT_CTRL_en n, Reg.BAL_TT_ANG_HI_ang_hi n, Reg.BAL_TT_STAT_late n],
    (Reg.BAL_TT_STAT_armed n).key ≠ f.key := by decide +revert

theorem ttKey_en (n : Fin 8) : ∀ f ∈ ttSettings n ++ [Reg.BAL_TT_STAT_armed n], (Reg.BAL_TT_CTRL_en n).key ≠ f.key := by
  decide +revert

theorem ttKey_angle (n : Fin 8) : ∀ f ∈ ttSettings n ++ [Reg.BAL_TT_CTRL_en n], (Reg.BAL_TT_ANG_HI_ang_hi n).key ≠ f.key := by
  decide +revert

theorem ttKey_late (n : Fin 8) : ∀ f ∈ ttSettings n, (Reg.BAL_TT_STAT_late n).key ≠ f.key := by decide +revert

theorem ttKey_flag (n : Fin 8) : ∀ f ∈ [Reg.BAL_TT_CTRL_en n, Reg.BAL_TT_STAT_armed n, Reg.BAL_TT_STAT_late n,
    Reg.BAL_TT_STAT_burst_done n], chrFlagKey f.key = false := by decide +revert

@[simp] theorem State.drive_ttOf (s : State) (b : Ball) (x : Bool) (n : Nat) : (s.drive b x).ttOf n = s.ttOf n := rfl
@[simp] theorem State.undrive_ttOf (s : State) (b : Ball) (n : Nat) : (s.undrive b).ttOf n = s.ttOf n := rfl
@[simp] theorem claimTaken_ttOf (s : State) (f r n : Nat) : (claimTaken s f r).ttOf n = s.ttOf n := rfl
@[simp] theorem State.setTt_level (s : State) (n : Nat) (x : TtState) (b : Ball) : (s.setTt n x).level b = s.level b := rfl
@[simp] theorem State.set_level (s : State) (f : Fld) (x : Nat) (b : Ball) : (s.set f x).level b = s.level b := rfl
@[simp] theorem releaseAll_level (s : State) (f : Nat) (rs : List Nat) (b : Ball) : (releaseAll s f rs).level b = s.level b := rfl

theorem State.cur_set_ne (s : State) {f g : Fld} (x : Nat) (h : f.key ≠ g.key) : (s.set f x).cur g = s.cur g := by
  unfold State.cur
  rw [State.get_set_ne _ _ h]
  rfl

/-- A ball that is let go has no level. -/
theorem State.level_undrive_self (s : State) (b : Ball) : (s.undrive b).level b = none := by
  have gone : (s.pins.filter (fun e => e.1 != b)).find? (fun e => e.1 == b) = none :=
    List.find?_eq_none.2 (fun e he => by simpa using (List.mem_filter.1 he).2)
  simp [State.level, State.undrive, gone]

/-! Arming and disarming -/

/-- A trigger's state once its target is armed. -/
def ttTargeted (s : State) (x : TtState) (lead : Nat) : TtState :=
  if targetLate s x.target lead then { x with fixed := some s.ltb, late := true } else { x with fixed := none, late := false }

theorem ttArm_eq (s : State) (n : Fin 8) : ttArm s n = (s.set (Reg.BAL_TT_STAT_armed n) 1).setTt n
    (ttTargeted s (s.ttOf n) (s.get (Reg.BAL_TT_CTRL_lead n))) := by
  have late := targetLate_congr (State.get_set_ne s 1 (ttKey_armed n Reg.BAL_STATUS_state (by simp [ttSettings])))
    (State.cur_set_ne s 1 (ttKey_armed n Reg.BAL_SITE_PHASE_site_phase (by simp [ttSettings]))) rfl ⟨rfl, rfl, rfl⟩ (s.ttOf n).target
    (s.get (Reg.BAL_TT_CTRL_lead n))
  unfold ttArm ttTargeted
  dsimp only
  rw [late]
  split <;> rfl

/-- A trigger that is enabled arms its committed target unless the Balance is OFF. -/
def ttMayArm (s : State) (n : Nat) : State := if (s.ttOf n).committed && !balOff s then ttArm s n else s

theorem elsewhere_ttArm {fs : List Fld} {cs : List Nat} {ps : List Part} (h : s.elsewhere v fs cs ps)
    (hf : (Reg.BAL_TT_STAT_armed n).key ∈ fs.map Fld.key := by simp) (hp : .bal ∈ ps := by simp) :
    s.elsewhere (ttArm v n) fs cs ps := by
  rw [ttArm_eq]
  exact .setTt (.set h hf) hp

theorem elsewhere_ttMayArm {fs : List Fld} {cs : List Nat} {ps : List Part} (h : s.elsewhere v fs cs ps)
    (hf : (Reg.BAL_TT_STAT_armed n).key ∈ fs.map Fld.key := by simp) (hp : .bal ∈ ps := by simp) :
    s.elsewhere (ttMayArm v n) fs cs ps := elsewhere_ite (fun _ => elsewhere_ttArm h hf hp) (fun _ => h)

/-- What arming leaves to be read: the trigger's own state and armed bit, and nothing else. -/
theorem ttMayArm_self (w : State) (n : Fin 8) :
    if (w.ttOf n).committed = true ∧ w.get Reg.BAL_STATUS_state ≠ 0 then
      (ttMayArm w n).get (Reg.BAL_TT_STAT_armed n) = 1 ∧
      (ttMayArm w n).ttOf n = ttTargeted w (w.ttOf n) (w.get (Reg.BAL_TT_CTRL_lead n))
    else (ttMayArm w n).get (Reg.BAL_TT_STAT_armed n) = w.get (Reg.BAL_TT_STAT_armed n) ∧ (ttMayArm w n).ttOf n = w.ttOf n := by
  have arms : ((w.ttOf n).committed && !balOff w) = true ↔ (w.ttOf n).committed = true ∧ w.get Reg.BAL_STATUS_state ≠ 0 := by
    simp [balOff]
  unfold ttMayArm
  split
  next yes =>
    rw [if_pos (arms.2 yes), ttArm_eq]
    simp [State.ttOf_setTt, Reg.BAL_TT_STAT_armed]
  next no =>
    rw [if_neg (fun yes => no (arms.1 yes))]
    exact ⟨rfl, rfl⟩

theorem ttMayArm_other (w : State) {n : Fin 8} :
    (∀ f, (Reg.BAL_TT_STAT_armed n).key ≠ f.key → (ttMayArm w n).get f = w.get f) ∧ (ttMayArm w n).claims = w.claims ∧
    (∀ b, (ttMayArm w n).level b = w.level b) ∧ (∀ k, k ≠ n.val → (ttMayArm w n).ttOf k = w.ttOf k) := by
  unfold ttMayArm
  rw [ttArm_eq]
  split
  · exact ⟨fun f hf => by simp [State.get_set_ne _ _ hf], rfl, fun b => rfl, fun k hk => by simp [State.ttOf_setTt, hk.symm]⟩
  · exact ⟨fun f hf => rfl, rfl, fun b => rfl, fun k hk => rfl⟩

/-! Enabling -/

/-- A trigger's own resources: itself and its ball. -/
def ttClaimed (s : State) (n : Fin 8) : State := claimTaken (claimTaken s (n + 1) n) (n + 1) (ttBallRes s n)

/-- A trigger enabled, before its target is armed. -/
def ttStarted (s : State) (n : Fin 8) (b : Ball) (x : Bool) : State := (s.set (Reg.BAL_TT_CTRL_en n) 1).drive b x

theorem ttEnable_eq (off : s.get (Reg.BAL_TT_CTRL_en n) = 0) (action : s.get (Reg.BAL_TT_CTRL_action n) < 6)
    (own : claimFree s (n + 1) n = true) (ball : claimFree s (n + 1) (ttBallRes s n) = true) :
    ttEnable s n = ttMayArm (ttStarted (ttClaimed s n) n (ttBall s n)
      (s.get (Reg.BAL_TT_CTRL_action n) == 2 || s.get (Reg.BAL_TT_CTRL_action n) == 5)) n := by
  have claimed : claimAll s (n + 1) [n, ttBallRes s n] = (true, ttClaimed s n) :=
    claimAll_free (by simpa using ⟨own, ball⟩)
  have seven : (s.get (Reg.BAL_TT_CTRL_action n) == 7) = false := by simp; omega
  have six : (s.get (Reg.BAL_TT_CTRL_action n) == 6) = false := by simp; omega
  unfold ttEnable
  dsimp only
  rw [if_neg (by simp [State.on, off, seven]), six, if_neg (by simp), claimed]
  dsimp only
  rw [if_neg Bool.false_ne_true]
  rfl

/-- The converter is claimed with a trigger that samples. -/
def ttConverter (s : State) (n : Fin 8) : State :=
  (claimTaken (ttClaimed s n) 0x0F 14).setTt n { s.ttOf n with conv := true }

theorem ttBallRes_ne (s : State) (n : Fin 8) : ttBallRes s n ≠ 14 := by
  have low := n.isLt
  unfold ttBallRes
  repeat' split
  all_goals omega

theorem ttEnable_sampler (off : s.get (Reg.BAL_TT_CTRL_en n) = 0) (action : s.get (Reg.BAL_TT_CTRL_action n) = 6)
    (own : claimFree s (n + 1) n = true) (ball : claimFree s (n + 1) (ttBallRes s n) = true)
    (converter : claimFree s 0x0F 14 = true) :
    ttEnable s n = ttMayArm (ttStarted (ttConverter s n) n (ttBall s n) false) n := by
  have claimed : claimAll s (n + 1) [n, ttBallRes s n] = (true, ttClaimed s n) :=
    claimAll_free (by simpa using ⟨own, ball⟩)
  have still : tabGet (ttClaimed s n).claims 14 = tabGet s.claims 14 := by
    have low := n.isLt
    rw [ttClaimed, claimTaken_claims, tabGet_put_ne _ _ (ttBallRes_ne s n), claimTaken_claims, tabGet_put_ne _ _ (by omega)]
  have free : claimFree (ttClaimed s n) 0x0F 14 = true := by
    unfold claimFree at converter ⊢
    rwa [still]
  unfold ttEnable
  dsimp only
  rw [if_neg (by simp [State.on, off, action]), action, converter, if_neg (by simp), claimed]
  dsimp only
  rw [if_pos (show (6 == 6) = true from rfl), claimAll_one free]
  rfl

/-- `w` is `s` at the instant `t`, but for claims and for what does not concern the target of trigger `n`. -/
structure TtReady (s w : State) (t : Nat) (n : Fin 8) : Prop where
  fields : w.fields = s.fields
  inForce : w.inForce = s.inForce
  ltb : w.ltb = max s.ltb t
  mapping : w.bal.cycles = s.bal.cycles ∧ w.bal.stall = s.bal.stall ∧ w.bal.floor = s.bal.floor
  target : (w.ttOf n).target = (s.ttOf n).target
  committed : (w.ttOf n).committed = (s.ttOf n).committed
  others : ∀ k, k ≠ n.val → w.ttOf k = s.ttOf k

/-- What is read of a trigger that is enabled, whose state beside its target is `x`. -/
structure TtEnabled (s w u : State) (t : Nat) (n : Fin 8) (b : Ball) (high : Bool) : Prop where
  en : u.get (Reg.BAL_TT_CTRL_en n) = 1
  claims : u.claims = w.claims
  others : ∀ k, k ≠ n.val → u.ttOf k = s.ttOf k
  level : u.level b = some high
  own : if (s.ttOf n).committed = true ∧ s.get Reg.BAL_STATUS_state ≠ 0 then u.get (Reg.BAL_TT_STAT_armed n) = 1 ∧
      u.ttOf n = (if targetLate (s.now t) (s.ttOf n).target (s.get (Reg.BAL_TT_CTRL_lead n)) = true then
        { w.ttOf n with fixed := some (max s.ltb t), late := true } else { w.ttOf n with fixed := none, late := false })
    else u.get (Reg.BAL_TT_STAT_armed n) = s.get (Reg.BAL_TT_STAT_armed n) ∧ u.ttOf n = w.ttOf n

/-- What enabling does, once what it claims is claimed. -/
theorem ttEnable_changes {b : Ball} {high : Bool} (h : s.settled)
    (effect : ttEnable (s.begin t) n = ttMayArm (ttStarted w n b high) n) (ready : TtReady s w t n)
    (frame : s.elsewhere w [Reg.BAL_TT_CTRL_en n, Reg.BAL_TT_STAT_armed n] [] [.bal, .claims, .pins]) :
    changes (.ttEnable t n) s [Reg.BAL_TT_CTRL_en n, Reg.BAL_TT_STAT_armed n] [] [.bal, .claims, .pins]
      (fun u => TtEnabled s w u t n b high) := by
  have same (f : Fld) (hf : (Reg.BAL_TT_CTRL_en n).key ≠ f.key) : (ttStarted w n b high).get f = s.get f := by
    rw [ttStarted, State.drive_get, State.get_set_ne _ _ hf]
    exact State.get_eq ready.fields f
  have state := same _ (ttKey_en n Reg.BAL_STATUS_state (by simp [ttSettings]))
  have armed := same _ (ttKey_en n (Reg.BAL_TT_STAT_armed n) (by simp))
  have lead := same _ (ttKey_en n (Reg.BAL_TT_CTRL_lead n) (by simp [ttSettings]))
  have phase := same _ (ttKey_en n Reg.BAL_SITE_PHASE_site_phase (by simp [ttSettings]))
  have site : sitePhase (ttStarted w n b high) = sitePhase (s.now t) := by
    unfold sitePhase State.cur
    rw [phase]
    show (tabGet w.inForce _).getD _ = _
    rw [ready.inForce]
    rfl
  have late : targetLate (ttStarted w n b high) (w.ttOf n).target (s.get (Reg.BAL_TT_CTRL_lead n)) =
      targetLate (s.now t) (s.ttOf n).target (s.get (Reg.BAL_TT_CTRL_lead n)) := by
    rw [ready.target]
    exact targetLate_congr (s := s.now t) state site ready.ltb ready.mapping ..
  obtain ⟨get, claims, level, others⟩ := ttMayArm_other (ttStarted w n b high) (n := n)
  have own := ttMayArm_self (ttStarted w n b high) n
  refine changes_of (f := fun s => ttEnable s n) rfl effect h (elsewhere_ttMayArm (.drive (.set frame)))
    (fun u kept => ⟨?_, ?_, fun k hk => ?_, ?_, ?_⟩)
  · rw [kept.get _ (ttKey_flag n _ (by simp)), get _ (ttKey_armed n _ (by simp)), ttStarted, State.drive_get, State.get_set_self]
    rfl
  · rw [kept.claims, claims]
    rfl
  · rw [kept.ttOf, others k hk]
    exact ready.others k hk
  · rw [kept.level, level]
    exact State.level_drive_self ..
  · rw [kept.get _ (ttKey_flag n _ (by simp)), kept.ttOf]
    have ttOf : (ttStarted w n b high).ttOf n = w.ttOf n := rfl
    have ltb : (ttStarted w n b high).ltb = max s.ltb t := ready.ltb
    rw [ttOf, state, armed, lead, ready.committed] at own
    unfold ttTargeted at own
    rw [late, ltb] at own
    exact own

theorem ttClaimed_claims (s : State) (n : Fin 8) : tabGet (ttClaimed s n).claims (ttBallRes s n) = some ⟨false, n + 1⟩ ∧
    tabGet (ttClaimed s n).claims n = some ⟨false, n + 1⟩ := by
  unfold ttClaimed
  simp only [claimTaken_claims, tabGet_put_self, tabGet_put, true_and]
  split <;> rfl

/-- The enabling of a trigger that drives its ball. -/
theorem ttEnable_driver (h : s.settled) (off : s.get (Reg.BAL_TT_CTRL_en n) = 0) (action : s.get (Reg.BAL_TT_CTRL_action n) < 6)
    (own : claimFree s (n + 1) n = true) (ball : claimFree s (n + 1) (ttBallRes s n) = true) :
    changes (.ttEnable t n) s [Reg.BAL_TT_CTRL_en n, Reg.BAL_TT_STAT_armed n] [] [.bal, .claims, .pins] (fun u =>
      u.get (Reg.BAL_TT_CTRL_en n) = 1 ∧ tabGet u.claims (ttBallRes s n) = some ⟨false, n + 1⟩ ∧
      tabGet u.claims n = some ⟨false, n + 1⟩ ∧ (∀ k, k ≠ n.val → u.ttOf k = s.ttOf k) ∧
      (if (s.ttOf n).committed = true ∧ s.get Reg.BAL_STATUS_state ≠ 0 then u.get (Reg.BAL_TT_STAT_armed n) = 1 ∧
      u.ttOf n = (if targetLate (s.now t) (s.ttOf n).target (s.get (Reg.BAL_TT_CTRL_lead n)) = true then
      { s.ttOf n with fixed := some (max s.ltb t), late := true } else { s.ttOf n with fixed := none, late := false })
      else u.get (Reg.BAL_TT_STAT_armed n) = s.get (Reg.BAL_TT_STAT_armed n) ∧ u.ttOf n = s.ttOf n) ∧
      u.level (ttBall s n) = some (s.get (Reg.BAL_TT_CTRL_action n) == 2 || s.get (Reg.BAL_TT_CTRL_action n) == 5)) := by
  obtain ⟨ballHeld, held⟩ := ttClaimed_claims (s.begin t) n
  exact changes_mono (ttEnable_changes h (ttEnable_eq (s := s.begin t) off action own ball)
    ⟨rfl, rfl, rfl, ⟨rfl, rfl, rfl⟩, rfl, rfl, fun _ _ => rfl⟩ (.claimTaken (.claimTaken (.start s t))))
    (fun u e => ⟨e.en, e.claims ▸ ballHeld, e.claims ▸ held, e.others, e.own, e.level⟩)

theorem ttEnable_samples (h : s.settled) (off : s.get (Reg.BAL_TT_CTRL_en n) = 0) (action : s.get (Reg.BAL_TT_CTRL_action n) = 6)
    (own : claimFree s (n + 1) n = true) (ball : claimFree s (n + 1) (ttBallRes s n) = true)
    (converter : claimFree s 0x0F 14 = true) :
    changes (.ttEnable t n) s [Reg.BAL_TT_CTRL_en n, Reg.BAL_TT_STAT_armed n] [] [.bal, .claims, .pins] (fun u =>
      u.get (Reg.BAL_TT_CTRL_en n) = 1 ∧ tabGet u.claims 14 = some ⟨false, 0x0F⟩ ∧
      tabGet u.claims (ttBallRes s n) = some ⟨false, n + 1⟩ ∧ tabGet u.claims n = some ⟨false, n + 1⟩ ∧
      (∀ k, k ≠ n.val → u.ttOf k = s.ttOf k) ∧ (if (s.ttOf n).committed = true ∧
      s.get Reg.BAL_STATUS_state ≠ 0 then u.get (Reg.BAL_TT_STAT_armed n) = 1 ∧
      u.ttOf n = (if targetLate (s.now t) (s.ttOf n).target (s.get (Reg.BAL_TT_CTRL_lead n)) = true then
      { s.ttOf n with
        fixed := some (max s.ltb t), late := true,
        conv := true } else { s.ttOf n with fixed := none, late := false, conv := true }) else u.get
      (Reg.BAL_TT_STAT_armed n) = s.get (Reg.BAL_TT_STAT_armed n) ∧ u.ttOf n = { s.ttOf n with conv := true }) ∧
      u.level (ttBall s n) = some false) := by
  have ballNe := ttBallRes_ne (s.begin t) n
  have low := n.isLt
  obtain ⟨ballHeld, held⟩ := ttClaimed_claims (s.begin t) n
  have taken (r : Nat) (hr : r ≠ 14) : tabGet (ttConverter (s.begin t) n).claims r = tabGet (ttClaimed (s.begin t) n).claims r :=
    tabGet_put_ne _ _ hr.symm
  have conv : (ttConverter (s.begin t) n).ttOf n = { s.ttOf n with conv := true } := by
    rw [ttConverter, State.ttOf_setTt, if_pos rfl]
    rfl
  have others (k : Nat) (hk : k ≠ n.val) : (ttConverter (s.begin t) n).ttOf k = s.ttOf k := by
    rw [ttConverter, State.ttOf_setTt, if_neg hk.symm]
    rfl
  refine changes_mono (ttEnable_changes h (ttEnable_sampler (s := s.begin t) off action own ball converter)
    ⟨rfl, rfl, rfl, ⟨rfl, rfl, rfl⟩, by rw [conv], by rw [conv], others⟩
    (.setTt (.claimTaken (.claimTaken (.claimTaken (.start s t))))))
    (fun u e => ⟨e.en, e.claims ▸ tabGet_put_self .., ?_, ?_, e.others, ?_, e.level⟩)
  · rw [e.claims]
    exact (taken _ ballNe).trans ballHeld
  · rw [e.claims]
    exact (taken _ (by omega)).trans held
  · have own := e.own
    rw [conv] at own
    exact own

/-! Disabling -/

theorem ttDisarm_eq (s : State) (n : Nat) : ttDisarm s n = (s.set (Reg.BAL_TT_STAT_armed n) 0).setTt n
    { s.ttOf n with fixed := none, late := false } := rfl

theorem elsewhere_converterRelease {fs : List Fld} {cs : List Nat} {ps : List Part} (h : s.elsewhere v fs cs ps)
    (hp : .claims ∈ ps := by simp) : s.elsewhere (converterRelease v) fs cs ps :=
  elsewhere_ite (fun _ => h) (fun _ => h.releaseAll hp)

/-- The converter's release changes the claim table alone, and only takes from it. -/
theorem converterRelease_eq (s : State) :
    ∃ c, converterRelease s = { s with claims := c } ∧ ∀ e, e ∈ c → e ∈ s.claims := by
  unfold converterRelease
  split
  · exact ⟨s.claims, rfl, fun _ h => h⟩
  · exact ⟨_, rfl, fun _ h => (List.mem_filter.1 h).1⟩

theorem converterRelease_get (s : State) (f : Fld) : (converterRelease s).get f = s.get f := by
  unfold converterRelease
  split <;> rfl

theorem converterRelease_bal (s : State) : (converterRelease s).bal = s.bal := by
  unfold converterRelease
  split <;> rfl

theorem converterRelease_gone (burst : s.bal.burst = none) (idle : ∀ k, k < 8 → (s.ttOf k).conv = false) :
    tabGet (converterRelease s).claims 14 ≠ some ⟨false, 0x0F⟩ := by
  have none : ((List.range 8).any fun m => (s.ttOf m).conv) = false :=
    List.any_eq_false.2 (fun m hm => by simp [idle m (List.mem_range.1 hm)])
  unfold converterRelease
  rw [burst, none]
  exact releaseAll_gone s (by simp)

/-- A trigger off, before its claims are released. -/
def ttStopped (s : State) (n : Nat) : State :=
  ((ttDisarm (s.set (Reg.BAL_TT_CTRL_en n) 0) n).undrive (ttBall s n)).setTt n
    { s.ttOf n with fixed := none, late := false, pulseEnd := none, conv := false }

theorem ttDisable_eq (on : s.get (Reg.BAL_TT_CTRL_en n) ≠ 0) :
    ttDisable s n = converterRelease (releaseAll (ttStopped s n) (n + 1) [n, ttBallRes s n]) := by
  have sel : ((s.set (Reg.BAL_TT_CTRL_en n) 0).set (Reg.BAL_TT_STAT_armed n) 0).get (Reg.BAL_TT_CTRL_out_sel n) =
      s.get (Reg.BAL_TT_CTRL_out_sel n) := by
    rw [State.get_set_ne _ _ (ttKey_armed n _ (by simp [ttSettings])), State.get_set_ne _ _ (ttKey_en n _ (by simp [ttSettings]))]
  have ball : ttBall (ttDisarm (s.set (Reg.BAL_TT_CTRL_en n) 0) n) n = ttBall s n := ttBall_congr sel
  have res : ttBallRes (ttStopped s n) n = ttBallRes s n := ttBallRes_congr sel
  have own : (ttDisarm (s.set (Reg.BAL_TT_CTRL_en n) 0) n).ttOf n = { s.ttOf n with fixed := none, late := false } := by
    rw [ttDisarm_eq, State.ttOf_setTt, if_pos rfl]
    rfl
  unfold ttDisable
  rw [if_neg (by simp [State.on, on])]
  dsimp only
  rw [ball, own]
  show converterRelease (releaseAll (ttStopped s n) (n + 1) [n.val, ttBallRes (ttStopped s n) n]) = _
  rw [res]

theorem ttStopped_ttOf (s : State) (n k : Nat) : (ttStopped s n).ttOf k =
    if n = k then { s.ttOf n with fixed := none, late := false, pulseEnd := none, conv := false } else s.ttOf k := by
  rw [ttStopped, State.ttOf_setTt]
  split
  next => rfl
  next other =>
    rw [State.undrive_ttOf, ttDisarm_eq, State.ttOf_setTt, if_neg other]
    rfl

theorem ttStopped_reads (s : State) (n : Fin 8) : (ttStopped s n).get (Reg.BAL_TT_CTRL_en n) = 0 ∧
    (ttStopped s n).get (Reg.BAL_TT_STAT_armed n) = 0 ∧ (ttStopped s n).level (ttBall s n) = none := by
  refine ⟨?_, ?_, State.level_undrive_self ..⟩
  · rw [ttStopped, State.setTt_get, State.undrive_get, ttDisarm_eq, State.setTt_get, State.get_set_ne _ _ (ttKey_armed n _ (by simp)),
      State.get_set_self, Nat.zero_mod]
  · rw [ttStopped, State.setTt_get, State.undrive_get, ttDisarm_eq, State.setTt_get, State.get_set_self, Nat.zero_mod]

theorem ttDisable_changes (h : s.settled) (on : s.get (Reg.BAL_TT_CTRL_en n) ≠ 0) :
    changes (.ttDisable t n) s [Reg.BAL_TT_CTRL_en n, Reg.BAL_TT_STAT_armed n] []
      [.bal, .claims, .pins] (fun u => u.get (Reg.BAL_TT_CTRL_en n) = 0 ∧ u.get (Reg.BAL_TT_STAT_armed n) = 0 ∧
      u.level (ttBall s n) = none ∧ u.ttOf n = { s.ttOf n with
        fixed := none, late := false, pulseEnd := none, conv := false } ∧ (∀ k, k ≠ n.val → u.ttOf k = s.ttOf k) ∧
      tabGet u.claims n ≠ some ⟨false, n + 1⟩ ∧ tabGet u.claims (ttBallRes s n) ≠ some ⟨false, n + 1⟩ ∧
      (s.bal.burst = none → (∀ k, k < 8 → k ≠ n.val → (s.ttOf k).conv = false) →
      tabGet u.claims 14 ≠ some ⟨false, 0x0F⟩)) := by
  have effect := ttDisable_eq (s := s.begin t) on
  obtain ⟨claims, freed, fewer⟩ := converterRelease_eq (releaseAll (ttStopped (s.begin t) n) (n + 1) [n, ttBallRes (s.begin t) n])
  have gone (r : Nat) (hr : r ∈ [n.val, ttBallRes (s.begin t) n]) : tabGet claims r ≠ some ⟨false, n + 1⟩ := by
    intro held
    have kept := (List.mem_filter.1 (fewer _ (mem_of_tabGet held))).2
    simp [hr] at kept
  refine changes_of (f := fun s => ttDisable s n) rfl effect h
    (elsewhere_converterRelease (.releaseAll (.setTt (.undrive (.setTt (.set (.set (.start s t))))))))
    (fun u kept => ?_)
  have last : u.claims = (converterRelease (releaseAll (ttStopped (s.begin t) n) (n + 1) [n.val, ttBallRes (s.begin t) n])).claims :=
    kept.claims
  obtain ⟨en, armed, level⟩ := ttStopped_reads (s.begin t) n
  rw [freed] at kept
  have ttOf (k : Nat) : u.ttOf k = (ttStopped (s.begin t) n).ttOf k := kept.ttOf k
  refine ⟨(kept.get _ (ttKey_flag n _ (by simp))).trans en, (kept.get _ (ttKey_flag n _ (by simp))).trans armed,
    (kept.level _).trans level, ?_, fun k hk => ?_, kept.claims ▸ gone _ (by simp), kept.claims ▸ gone _ (List.mem_pair.2 (.inr rfl)),
    fun burst idle => ?_⟩
  · rw [ttOf, ttStopped_ttOf, if_pos rfl]
    rfl
  · rw [ttOf, ttStopped_ttOf, if_neg hk.symm]
    rfl
  · rw [last]
    refine converterRelease_gone burst (fun k hk => ?_)
    rw [releaseAll_ttOf, ttStopped_ttOf]
    split
    next => rfl
    next other => exact idle k hk (Ne.symm other)

/-! Committing -/

theorem ttCommit_eq (s : State) (n : Fin 8) (hi : BitVec 16) : ttCommit s n hi.toNat =
    if s.on (Reg.BAL_TT_CTRL_en n) && !balOff s then
      ttArm ((s.set (Reg.BAL_TT_ANG_HI_ang_hi n) hi.toNat).setTt n { s.ttOf n with
        target := hi.toNat * 2 ^ 32 + s.get (Reg.BAL_TT_ANG_LO_ang_lo n), committed := true }) n
    else (s.set (Reg.BAL_TT_ANG_HI_ang_hi n) hi.toNat).setTt n { s.ttOf n with
      target := hi.toNat * 2 ^ 32 + s.get (Reg.BAL_TT_ANG_LO_ang_lo n), committed := true } := by
  have high : hi.toNat % 2 ^ (Reg.BAL_TT_ANG_HI_ang_hi n).w = hi.toNat := Nat.mod_eq_of_lt hi.isLt
  unfold ttCommit
  dsimp only
  rw [State.get_set_self, high, State.get_set_ne _ _ (ttKey_angle n _ (by simp [ttSettings]))]
  simp only [State.on, balOff, State.setTt_get, State.get_set_ne _ _ (ttKey_angle n (Reg.BAL_TT_CTRL_en n) (by simp)),
    State.get_set_ne _ _ (ttKey_angle n Reg.BAL_STATUS_state (by simp [ttSettings])), State.set_ttOf]
  rfl

theorem ttCommit_leads (hi : BitVec 16) (h : s.settled) (off : s.get (Reg.BAL_TT_CTRL_en n) = 0) :
    leadsTo (.ttCommit t n hi) s (((s.now t).set (Reg.BAL_TT_ANG_HI_ang_hi n) hi.toNat).setTt n { s.ttOf n with
      target := hi.toNat * 2 ^ 32 + s.get (Reg.BAL_TT_ANG_LO_ang_lo n), committed := true }) := by
  refine leadsTo_now (f := fun s => ttCommit s n hi.toNat) rfl h ?_
  rw [ttCommit_eq, if_neg (by simp [State.on, off])]
  rfl

theorem ttCommit_changes (hi : BitVec 16) (h : s.settled) (on : s.get (Reg.BAL_TT_CTRL_en n) ≠ 0)
    (runs : s.get Reg.BAL_STATUS_state ≠ 0) :
    changes (.ttCommit t n hi) s [Reg.BAL_TT_ANG_HI_ang_hi n, Reg.BAL_TT_STAT_armed n] [] [.bal] (fun u =>
      u.get (Reg.BAL_TT_STAT_armed n) = 1 ∧ (u.ttOf n).committed = true ∧
      (u.ttOf n).target = hi.toNat * 2 ^ 32 + s.get (Reg.BAL_TT_ANG_LO_ang_lo n)) := by
  have effect := ttCommit_eq (s.begin t) n hi
  rw [if_pos (by simp [State.on, on, balOff, runs])] at effect
  refine changes_of (f := fun s => ttCommit s n hi.toNat) rfl effect h (elsewhere_ttArm (.setTt (.set (.start s t))))
    (fun u kept => ?_)
  rw [kept.get _ (ttKey_flag n _ (by simp)), kept.ttOf, ttArm_eq, State.setTt_get, State.get_set_self, State.ttOf_setTt, if_pos rfl,
    State.ttOf_setTt, if_pos rfl, ttTargeted]
  refine ⟨rfl, ?_, ?_⟩ <;> split <;> rfl

/-! Firing -/

/-- The report of a firing. -/
def ttTold (s : State) (n : Nat) : State := if s.on (Reg.BAL_TT_CTRL_ev_en n) then s.raise 41 n else s

theorem ttTold_same (s : State) (n : Nat) :
    (ttTold s n).bal = s.bal ∧ (ttTold s n).pins = s.pins ∧ ∀ f, (ttTold s n).get f = s.get f := by
  unfold ttTold
  split <;> simp

theorem elsewhere_ttTold {n : Nat} {fs : List Fld} {cs : List Nat} {ps : List Part} (h : s.elsewhere v fs cs ps) :
    s.elsewhere (ttTold v n) fs cs ps := elsewhere_ite (fun _ => h.raise) (fun _ => h)

/-- A trigger with its target moved on. -/
def ttMoved (s : State) (n : Nat) : State :=
  s.setTt n { s.ttOf n with target := ((s.ttOf n).target + s.get (Reg.BAL_TT_PER_period n)) % angleMod }

theorem ttAdvance_eq (s : State) (n : Nat) :
    ttAdvance s n = if s.get (Reg.BAL_TT_PER_period n) = 0 then ttDisarm s n else ttArm (ttMoved s n) n := rfl

theorem elsewhere_ttAdvance {fs : List Fld} {cs : List Nat} {ps : List Part} (h : s.elsewhere v fs cs ps)
    (hf : (Reg.BAL_TT_STAT_armed n).key ∈ fs.map Fld.key := by simp) (hp : .bal ∈ ps := by simp) :
    s.elsewhere (ttAdvance v n) fs cs ps :=
  elsewhere_ite (fun _ => .setTt (.set h hf) hp) (fun _ => elsewhere_ttArm (.setTt h hp) hf hp)

/-- After a firing a trigger is disarmed, or its target has moved on by its period. -/
theorem ttAdvance_self (s : State) (n : Fin 8) : ((ttAdvance s n).ttOf n).pulseEnd = (s.ttOf n).pulseEnd ∧
    if s.get (Reg.BAL_TT_PER_period n) = 0 then (ttAdvance s n).get (Reg.BAL_TT_STAT_armed n) = 0
    else ((ttAdvance s n).ttOf n).target = ((s.ttOf n).target + s.get (Reg.BAL_TT_PER_period n)) % angleMod := by
  rw [ttAdvance_eq]
  split
  · rw [ttDisarm_eq, State.ttOf_setTt, if_pos rfl, State.setTt_get, State.get_set_self]
    exact ⟨rfl, rfl⟩
  · rw [ttArm_eq, State.ttOf_setTt, if_pos rfl, ttMoved, State.ttOf_setTt, if_pos rfl, ttTargeted]
    constructor <;> split <;> rfl

theorem ttAdvance_other (s : State) (n : Fin 8) : (∀ f, (Reg.BAL_TT_STAT_armed n).key ≠ f.key → (ttAdvance s n).get f = s.get f) ∧
    (∀ b, (ttAdvance s n).level b = s.level b) ∧ (ttAdvance s n).bal.burst = s.bal.burst ∧ (ttAdvance s n).hif = s.hif ∧
    ∀ c, (ttAdvance s n).count c = s.count c := by
  rw [ttAdvance_eq]
  split
  · exact ⟨fun f hf => State.get_set_ne s 0 hf, fun b => rfl, rfl, rfl, fun c => rfl⟩
  · rw [ttArm_eq]
    exact ⟨fun f hf => State.get_set_ne s 1 hf, fun b => rfl, rfl, rfl, fun c => rfl⟩

/-- A trigger that drives its ball acts. -/
theorem ttAct_drive {a : Nat} (action : a = s.get (Reg.BAL_TT_CTRL_action n)) (low : 1 ≤ a) (high : a ≤ 5) :
    ttAct s n = (s.drive (ttBall s n) (if a = 3 then !(s.level (ttBall s n)).getD false else a % 3 == 1)).setTt n
      { s.ttOf n with pulseEnd := if 4 ≤ a then some (s.ltb + s.get (Reg.BAL_TT_WIDTH_width n) * 1000) else none } := by
  have cases : a = 1 ∨ a = 2 ∨ a = 3 ∨ a = 4 ∨ a = 5 := by omega
  unfold ttAct
  rw [← action]
  rcases cases with rfl | rfl | rfl | rfl | rfl <;> rfl

theorem ttAct_burst {n : Nat} (action : s.get (Reg.BAL_TT_CTRL_action n) = 6) : ttAct s n =
    s.onBal (fun b => { b with burst := some (n, min 1024 (s.get (Reg.BAL_TT_WIDTH_width n))) }) := by
  unfold ttAct
  rw [action]
  rfl

/-- A trigger that is due in time acts, reports and goes on. -/
theorem ttFiring_acts {f : Nat} (armed : s.get (Reg.BAL_TT_STAT_armed n) ≠ 0) (fixed : (s.ttOf n).fixed = some f) (due : f ≤ s.ltb)
    (late : (s.ttOf n).late = false)
    (gate : s.get (Reg.BAL_TT_CTRL_hold_gate n) = 0 ∨ s.get Reg.BAL_STATUS_state = 2)
    (free : s.get (Reg.BAL_TT_CTRL_action n) ≠ 6 ∨ s.bal.burst = none) :
    ttFiring s n = ttAdvance (ttTold (ttAct s n) n) n := by
  have pass : ¬(s.on (Reg.BAL_TT_CTRL_hold_gate n) && s.get Reg.BAL_STATUS_state != 2) = true := by
    rcases gate with g | g <;> simp [State.on, g]
  have lone : ¬(s.get (Reg.BAL_TT_CTRL_action n) == 6 && s.bal.burst.isSome) = true := by
    rcases free with g | g <;> simp [g]
  unfold ttFiring
  simp only [fixed, late, Bool.false_and, Bool.false_eq_true, if_false, pass, lone]
  rw [if_neg (by simp [State.on, armed, due])]
  rfl

theorem ttFiring_late {f : Nat} (armed : s.get (Reg.BAL_TT_STAT_armed n) ≠ 0) (fixed : (s.ttOf n).fixed = some f) (due : f ≤ s.ltb)
    (late : (s.ttOf n).late = true) (pol : s.get (Reg.BAL_TT_CTRL_late_pol n) ≠ 0) :
    ttFiring s n = ttAdvance (((s.set (Reg.BAL_TT_STAT_late n) 1).bump Reg.BAL_CNT_TT_LATE).raise 42 n 0) n := by
  have still : ((s.set (Reg.BAL_TT_STAT_late n) 1).bump Reg.BAL_CNT_TT_LATE).get (Reg.BAL_TT_CTRL_late_pol n) =
      s.get (Reg.BAL_TT_CTRL_late_pol n) := State.get_set_ne s 1 (ttKey_late n (Reg.BAL_TT_CTRL_late_pol n) (by simp [ttSettings]))
  unfold ttFiring
  simp only [fixed, late, if_true, Bool.true_and]
  rw [if_neg (by simp [State.on, armed, due]), if_pos (by simp only [State.on, still]; simpa using pol)]

theorem ttFiring_drives (f a : Nat) (h : s.settled) (armed : s.get (Reg.BAL_TT_STAT_armed n) ≠ 0)
    (fixed : (s.ttOf n).fixed = some f) (due : f ≤ max s.ltb t) (late : (s.ttOf n).late = false)
    (gate : s.get (Reg.BAL_TT_CTRL_hold_gate n) = 0 ∨ s.get Reg.BAL_STATUS_state = 2)
    (action : a = s.get (Reg.BAL_TT_CTRL_action n)) (low : 1 ≤ a) (high : a ≤ 5) :
    changes (.ttFiring t n) s [Reg.BAL_TT_STAT_armed n] [] [.bal, .pins] (fun u =>
      u.level (ttBall s n) = some (if a = 3 then !(s.level (ttBall s n)).getD false else a % 3 == 1) ∧
      (u.ttOf n).pulseEnd = (if 4 ≤ a then some (max s.ltb t + s.get (Reg.BAL_TT_WIDTH_width n) * 1000) else none) ∧
      (if s.get (Reg.BAL_TT_PER_period n) = 0 then u.get (Reg.BAL_TT_STAT_armed n) = 0 else (u.ttOf n).target =
      ((s.ttOf n).target + s.get (Reg.BAL_TT_PER_period n)) % angleMod) ∧
      (s.get (Reg.BAL_TT_CTRL_ev_en n) ≠ 0 → 41 ∈ u.hif.pend)) := by
  have effect := ttFiring_acts (s := s.begin t) armed fixed due late gate (.inl (by show s.get _ ≠ 6; omega))
  obtain ⟨bal, pins, get⟩ := ttTold_same (ttAct (s.begin t) n) n
  obtain ⟨pulse, goesOn⟩ := ttAdvance_self (ttTold (ttAct (s.begin t) n) n) n
  obtain ⟨-, level, -, hif, -⟩ := ttAdvance_other (ttTold (ttAct (s.begin t) n) n) n
  have told : ∀ k, (ttTold (ttAct (s.begin t) n) n).ttOf k = (ttAct (s.begin t) n).ttOf k := fun k => by
    unfold State.ttOf
    rw [bal]
  rw [get] at goesOn
  rw [told] at pulse goesOn
  have act := ttAct_drive (s := s.begin t) action low high
  refine changes_of (f := fun s => ttFiring s n) rfl effect h (elsewhere_ttAdvance (elsewhere_ttTold ?_))
    (fun u kept => ⟨?_, ?_, ?_, fun event => ?_⟩)
  · rw [act]
    exact .setTt (.drive (.start s t))
  · rw [kept.level, level, State.level, pins, act]
    exact State.level_drive_self ..
  · rw [kept.ttOf, pulse, act, State.ttOf_setTt, if_pos rfl]
    rfl
  · rw [kept.ttOf, kept.get _ (ttKey_flag n _ (by simp))]
    rw [act, State.ttOf_setTt, if_pos rfl] at goesOn
    rw [act]
    exact goesOn
  · refine kept.pend _ (hif ▸ ?_)
    have on : (ttAct (s.begin t) n).on (Reg.BAL_TT_CTRL_ev_en n) = true := by
      rw [act]
      exact State.on_iff.2 event
    rw [ttTold, if_pos on]
    exact raise_pend ..

theorem ttFiring_samples (f : Nat) (h : s.settled) (armed : s.get (Reg.BAL_TT_STAT_armed n) ≠ 0)
    (fixed : (s.ttOf n).fixed = some f) (due : f ≤ max s.ltb t) (late : (s.ttOf n).late = false)
    (gate : s.get (Reg.BAL_TT_CTRL_hold_gate n) = 0) (action : s.get (Reg.BAL_TT_CTRL_action n) = 6)
    (idle : s.bal.burst = none) :
    changes (.ttFiring t n) s [Reg.BAL_TT_STAT_armed n] [] [.bal] (fun u =>
      u.bal.burst = some (n.val, min 1024 (s.get (Reg.BAL_TT_WIDTH_width n)))) := by
  have effect := ttFiring_acts (s := s.begin t) armed fixed due late (.inl gate) (.inr idle)
  have act := ttAct_burst (s := s.begin t) action
  obtain ⟨bal, -, -⟩ := ttTold_same (ttAct (s.begin t) n) n
  obtain ⟨-, -, burst, -, -⟩ := ttAdvance_other (ttTold (ttAct (s.begin t) n) n) n
  refine changes_of (f := fun s => ttFiring s n) rfl effect h (elsewhere_ttAdvance (elsewhere_ttTold ?_)) (fun u kept => ?_)
  · rw [act]
    exact .onBal (.start s t)
  · rw [kept.bal, burst, bal, act]
    rfl

theorem ttFiring_suppressed (f : Nat) (h : s.settled) (armed : s.get (Reg.BAL_TT_STAT_armed n) ≠ 0)
    (fixed : (s.ttOf n).fixed = some f) (due : f ≤ max s.ltb t) (late : (s.ttOf n).late = true)
    (pol : s.get (Reg.BAL_TT_CTRL_late_pol n) ≠ 0) :
    changes (.ttFiring t n) s [Reg.BAL_TT_STAT_armed n, Reg.BAL_TT_STAT_late n] [Reg.BAL_CNT_TT_LATE] [.bal] (fun u
      => u.get (Reg.BAL_TT_STAT_late n) = 1 ∧ u.count Reg.BAL_CNT_TT_LATE = (s.count Reg.BAL_CNT_TT_LATE + 1) % 2 ^ 32
      ∧ 42 ∈ u.hif.pend) := by
  have effect := ttFiring_late (s := s.begin t) armed fixed due late pol
  obtain ⟨get, -, -, hif, count⟩ :=
    ttAdvance_other ((((s.begin t).set (Reg.BAL_TT_STAT_late n) 1).bump Reg.BAL_CNT_TT_LATE).raise 42 n 0) n
  refine changes_of (f := fun s => ttFiring s n) rfl effect h (elsewhere_ttAdvance (.raise (.bump (.set (.start s t)))))
    (fun u kept => ⟨?_, ?_, kept.pend _ (hif ▸ raise_pend ..)⟩)
  · rw [kept.get _ (ttKey_flag n _ (by simp)), get _ (ttKey_armed n _ (by simp)), State.raise_get, State.bump_get, State.get_set_self]
    rfl
  · rw [kept.count _ (by decide), count, State.raise_count _ _ _ _ _ _ (by decide)]
    exact (State.count_bumpBy ..).trans (if_pos rfl)

/-! The ends of a pulse and of a burst -/

theorem ttPulseEnd_leads (e : Nat) (h : s.settled) (ends : (s.ttOf n).pulseEnd = some e) (due : e ≤ max s.ltb t) :
    leadsTo (.ttPulseEnd t n) s (((s.now t).setTt n { s.ttOf n with pulseEnd := none }).drive (ttBall s n)
      (!((s.level (ttBall s n)).getD false))) := by
  refine leadsTo_now (f := fun s => ttPulseEnd s n) rfl h ?_
  have begun : ((s.begin t).ttOf n).pulseEnd = some e := ends
  unfold ttPulseEnd
  rw [begun]
  exact if_pos due

/-- The samples of a burst, in their registers. -/
def burstStored (s : State) (l : List (BitVec 12)) : State :=
  l.zipIdx.foldl (fun s e => s.set (Reg.BAL_SAMPLE_sample e.2) e.1.toNat) s

theorem burstDone_eq {l : List (BitVec 12)} {width : Nat} (burst : s.bal.burst = some (n.val, width)) :
    burstDone s l = converterRelease (((burstStored s (l.take width)).onBal (fun b => { b with burst := none })).set
      (Reg.BAL_TT_STAT_burst_done n) 1) := by
  unfold burstDone
  rw [burst]
  rfl

theorem sampleKey_ne {i j : Nat} (h : i ≠ j) : (Reg.BAL_SAMPLE_sample i).key ≠ (Reg.BAL_SAMPLE_sample j).key := by
  simp only [Fld.key, Reg.BAL_SAMPLE_sample]
  omega

theorem burstStored_snoc (s : State) (l : List (BitVec 12)) (x : BitVec 12) :
    burstStored s (l ++ [x]) = (burstStored s l).set (Reg.BAL_SAMPLE_sample l.length) x.toNat := by
  simp [burstStored, List.zipIdx_append]

/-- Each sample is in the register of its place. -/
theorem burstStored_get {l : List (BitVec 12)} {i : Nat} (s : State) (h : i < l.length) :
    (burstStored s l).get (Reg.BAL_SAMPLE_sample i) = (l.getD i 0).toNat := by
  induction l using List.reverseRecOn with
  | nil => simp at h
  | append_singleton l x ih =>
    rw [burstStored_snoc]
    rw [List.length_append, List.length_singleton] at h
    rcases Nat.lt_or_ge i l.length with before | last
    · rw [State.get_set_ne _ _ (sampleKey_ne (by omega)), ih before, List.getD_append _ _ _ _ before]
    · obtain rfl : i = l.length := by omega
      rw [State.get_set_self, List.getD_append_right _ _ _ _ (Nat.le_refl _), Nat.sub_self]
      exact Nat.mod_eq_of_lt x.isLt

theorem elsewhere_burstStored {l : List (BitVec 12)} {fs : List Fld} {cs : List Nat} {ps : List Part} (h : s.elsewhere v fs cs ps)
    (hf : ∀ i < l.length, (Reg.BAL_SAMPLE_sample i).key ∈ fs.map Fld.key) : s.elsewhere (burstStored v l) fs cs ps :=
  elsewhere_foldl _ h (fun w e he k => k.set (hf _ (by have := (List.mem_zipIdx he).2.1; omega)))

theorem burstDone_changes (l : List (BitVec 12)) (width : Nat) (h : s.settled) (burst : s.bal.burst = some (n.val, width))
    (few : width ≤ 1024) :
    changes (.burstDone t l) s (Reg.BAL_TT_STAT_burst_done n :: (List.range 1024).map Reg.BAL_SAMPLE_sample) []
      [.bal, .claims] (fun u => u.bal.burst = none ∧ u.get (Reg.BAL_TT_STAT_burst_done n) = 1 ∧ ∀ i, i < width →
      i < l.length → u.get (Reg.BAL_SAMPLE_sample i) = (l.getD i 0).toNat) := by
  have effect := burstDone_eq (s := s.begin t) (l := l) burst
  have named : (Reg.BAL_TT_STAT_burst_done n).key ∈
      (Reg.BAL_TT_STAT_burst_done n :: (List.range 1024).map Reg.BAL_SAMPLE_sample).map Fld.key := by
    rw [List.map_cons]
    exact List.mem_cons_self ..
  have low := n.isLt
  have frame : s.elsewhere (burstStored (s.begin t) (l.take width))
      (Reg.BAL_TT_STAT_burst_done n :: (List.range 1024).map Reg.BAL_SAMPLE_sample) [] [.bal, .claims] :=
    elsewhere_burstStored (.start s t) (fun i hi => by
      rw [List.length_take] at hi
      rw [List.map_cons]
      exact List.mem_cons_of_mem _ (List.mem_map_of_mem (List.mem_map_of_mem (List.mem_range.2 (by omega)))))
  refine changes_of (f := fun s => burstDone s l) rfl effect h (elsewhere_converterRelease (.set (.onBal frame) named))
    (fun u kept => ?_)
  refine ⟨?_, ?_, fun i hi inList => ?_⟩
  · rw [kept.bal, converterRelease_bal]
    rfl
  · rw [kept.get _ (ttKey_flag n _ (by simp)), converterRelease_get, State.get_set_self]
    rfl
  · have flag : chrFlagKey (Reg.BAL_SAMPLE_sample i).key = false := chrFlag_low (by
      simp only [Fld.key, Reg.BAL_SAMPLE_sample]
      omega)
    have apart : (Reg.BAL_TT_STAT_burst_done n).key ≠ (Reg.BAL_SAMPLE_sample i).key := by
      simp only [Fld.key, Reg.BAL_SAMPLE_sample, Reg.BAL_TT_STAT_burst_done]
      omega
    rw [kept.get _ flag, converterRelease_get, State.get_set_ne _ _ apart, State.onBal_get,
      burstStored_get _ (by rw [List.length_take]; omega)]
    simp [hi, inList]

/-- Settles O12: enabling takes the claims and then arms (`ttEnable_changes`), a firing acts, reports and goes on
(`ttFiring_acts`, `ttAdvance_self`), and the samples of a burst are stored one after the other (`burstStored_get`). -/
theorem timeTriggersComplete : Obligations.TimeTriggersComplete := fun _ _ _ h =>
  ⟨ttEnable_driver h, ttEnable_samples h, ttDisable_changes h, fun hi => ttCommit_leads hi h, fun hi => ttCommit_changes hi h,
    fun f a => ttFiring_drives f a h, fun f => ttFiring_samples f h, fun f => ttFiring_suppressed f h,
    fun e => ttPulseEnd_leads e h, fun l width => burstDone_changes l width h⟩

end TimeTriggers
end Sys2Proof.Machine

namespace Sys2Proof.Machine

/-! ### What O44 leaves out: a sweep that a FLUSH lets go on -/

/-- The machine after reset, but with a sweep that stalls at context 0 while ring 241, to which the records go, is free again:
nothing of the sweep has happened since it became free. -/
def stalledSweep : State :=
  { State.reset with fields := [((Reg.HIF_RING_CTRL_enable 241).key, 1)],
                     ctx := { dirty := [0], sweep := some (0, 0), stall := some (0, 0), stalled := true } }

theorem stalledSweep_settled : stalledSweep.settled := ⟨rfl, rfl, rfl⟩

/-- Refutes O44: in `stalledSweep` a FLUSH captures context 0, the one dirty context, so the sweep does not wait for it any more and
its stall ends at once; the clause says that of CTX only the next ring, the dirty bits and the flush change. -/
theorem not_contextStoreEnableCompletes : ¬ Obligations.ContextStoreEnableCompletes := by
  intro h
  obtain ⟨-, -, -, -, -, -, -, -, -, -, flushOne, -⟩ := h 0 stalledSweep stalledSweep_settled
  obtain ⟨u, hu, -, -, -, stays, -⟩ := flushOne 0 0 (by decide) rfl (by decide) (by decide)
  obtain ⟨v, hv, kept⟩ := act_kept (s := stalledSweep) (t := 0) (f := flush) rfl rfl rfl
  cases hu.symm.trans hv
  have ended : (flush (stalledSweep.begin 0)).ctx.stall = none := by decide +kernel
  rw [← kept.ctx, stays] at ended
  exact absurd ended (by decide)

end Sys2Proof.Machine

namespace Sys2Proof.Machine

/-! ### Rings (R282, R323, R326, R327, R332, R341, R342) -/

section Rings

variable {t : Nat} {r : Fin 256} {s v u : State}

theorem Kept.ringOf (k : Kept s u) {q : Nat} (h : q < 224) : u.ringOf q = s.ringOf q := by
  unfold State.ringOf tabGetD
  rw [k.rings q h]

theorem State.ringOf_setRing (s : State) (r q : Nat) (g : Ring) : (s.setRing r g).ringOf q = if r = q then g else s.ringOf q :=
  tabGetD_put ..

theorem State.ringOf_onRing (s : State) (r q : Nat) (f : Ring → Ring) :
    (s.onRing r f).ringOf q = if r = q then f (s.ringOf r) else s.ringOf q := State.ringOf_setRing ..

theorem ringKey_flag (r : Fin 256) : chrFlagKey (Reg.HIF_RING_CTRL_enable r).key = false := by
  refine chrFlag_low ?_
  simp only [Fld.key, Reg.HIF_RING_CTRL_enable]
  omega

theorem ringKey_ne {q p : Nat} (h : q ≠ p) : (Reg.HIF_RING_CTRL_enable q).key ≠ (Reg.HIF_RING_CTRL_enable p).key := by
  simp only [Fld.key, Reg.HIF_RING_CTRL_enable]
  omega

/-! Enabling -/

/-- A ring that begins, with its counts 0 and armed. -/
def ringStarted (s : State) (r : Fin 256) : State :=
  (s.set (Reg.HIF_RING_CTRL_enable r) 1).setRing r { armed := true, err := (s.ringOf r).err }

theorem ringEnable_eq (off : s.get (Reg.HIF_RING_CTRL_enable r) = 0) (low : 4 ≤ s.get (Reg.HIF_RING_CTRL_log2_size r))
    (high : s.get (Reg.HIF_RING_CTRL_log2_size r) ≤ 12) (base : ringBase s r ≠ 0) (aux : ringAux s r ≠ 0)
    (free : claimFree s 0x1B 36 = true) :
    ringEnable s r = ringStarted (if isTxRing r && !txRingsOn s then claimTaken s 0x1B 36 else s) r := by
  have good : (s.on (Reg.HIF_RING_CTRL_enable r) || (decide (s.get (Reg.HIF_RING_CTRL_log2_size r) < 4 ∨
      12 < s.get (Reg.HIF_RING_CTRL_log2_size r)) || ringBase s r == 0 ||
      ((isTxRing r || decide (241 ≤ r.val ∧ r.val ≤ 247)) && ringAux s r == 0))) = false := by
    simp [State.on, off, base, aux, low, high]
  unfold ringEnable
  dsimp only
  rw [good, if_neg Bool.false_ne_true]
  split
  · rw [claimAll_one free]
    rfl
  · rfl

theorem ringEnable_changes (h : s.settled) (off : s.get (Reg.HIF_RING_CTRL_enable r) = 0)
    (low : 4 ≤ s.get (Reg.HIF_RING_CTRL_log2_size r)) (high : s.get (Reg.HIF_RING_CTRL_log2_size r) ≤ 12)
    (base : ringBase s r ≠ 0) (aux : ringAux s r ≠ 0) (free : claimFree s 0x1B 36 = true) :
    changes (.ringEnable t r) s [Reg.HIF_RING_CTRL_enable r] [] [.rings, .claims] (fun u =>
      u.get (Reg.HIF_RING_CTRL_enable r) = 1 ∧ (r.val < 224 →
      u.ringOf r = { armed := true, err := (s.ringOf r).err }) ∧
      (∀ q, q < 224 → q ≠ r.val → u.ringOf q = s.ringOf q) ∧ (isTxRing r = true → txRingsOn s = false →
      tabGet u.claims 36 = some ⟨false, 0x1B⟩)) := by
  have effect := ringEnable_eq (s := s.begin t) off low high base aux free
  have claimed : s.elsewhere (if isTxRing r && !txRingsOn (s.begin t) then claimTaken (s.begin t) 0x1B 36 else s.begin t)
      [Reg.HIF_RING_CTRL_enable r] [] [.rings, .claims] := elsewhere_ite (fun _ => .claimTaken (.start s t)) (fun _ => .start s t)
  have rings : (if isTxRing r && !txRingsOn (s.begin t) then claimTaken (s.begin t) 0x1B 36 else s.begin t).hif = s.hif := by
    split <;> rfl
  refine changes_of (f := fun s => ringEnable s r) rfl effect h (elsewhere_setRing (.set claimed) r.val _ (by simp))
    (fun u kept => ⟨?_, fun own => ?_, fun q hq other => ?_, fun tx first => ?_⟩)
  · rw [kept.get _ (ringKey_flag r), ringStarted, State.setRing_get, State.get_set_self]
    rfl
  · rw [kept.ringOf own, ringStarted, State.ringOf_setRing, if_pos rfl, State.ringOf, rings]
    rfl
  · rw [kept.ringOf hq, ringStarted, State.ringOf_setRing, if_neg other.symm]
    show tabGetD (if isTxRing r && !txRingsOn (s.begin t) then claimTaken (s.begin t) 0x1B 36 else s.begin t).hif.rings q {} = _
    rw [rings]
    rfl
  · have takes : (isTxRing r && !txRingsOn (s.begin t)) = true := by
      rw [tx, show txRingsOn (s.begin t) = false from first]
      rfl
    rw [kept.claims, takes, if_pos rfl]
    exact tabGet_put_self ..

/-! Disabling -/

/-- A ring that is off. -/
def ringStopped (s : State) (r : Fin 256) : State :=
  (s.set (Reg.HIF_RING_CTRL_enable r) 0).onRing r (fun g => { g with fetched := [], poll := none })

theorem ringDisable_eq (on : s.get (Reg.HIF_RING_CTRL_enable r) ≠ 0) : ringDisable s r =
    if isTxRing r && !txRingsOn (ringStopped s r) then releaseAll (ringStopped s r) 0x1B [36] else ringStopped s r := by
  unfold ringDisable
  rw [if_neg (by simp [State.on, on])]
  rfl

theorem ringStopped_ringOf (s : State) (r : Fin 256) (q : Nat) : (ringStopped s r).ringOf q =
    if r.val = q then { s.ringOf r with fetched := [], poll := none } else s.ringOf q := State.ringOf_onRing ..

/-- The last transmit ring is off. -/
theorem txRingsOn_stopped (others : ∀ q, 128 ≤ q → q < 224 → q ≠ r.val → s.get (Reg.HIF_RING_CTRL_enable q) = 0) :
    txRingsOn (ringStopped s r) = false := by
  refine List.any_eq_false.2 (fun i hi => ?_)
  have low := List.mem_range.1 hi
  rw [Bool.not_eq_true, State.on_eq_false, ringStopped, State.onRing_get]
  by_cases own : r.val = 128 + i
  · rw [own, State.get_set_self, Nat.zero_mod]
  · rw [State.get_set_ne _ _ (ringKey_ne own)]
    exact others _ (by omega) (by omega) (Ne.symm own)

theorem ringDisable_changes (h : s.settled) (on : s.get (Reg.HIF_RING_CTRL_enable r) ≠ 0) (low : r.val < 224) :
    changes (.ringDisable t r) s [Reg.HIF_RING_CTRL_enable r] [] [.rings, .claims] (fun u =>
      u.get (Reg.HIF_RING_CTRL_enable r) = 0 ∧ u.ringOf r = { s.ringOf r with fetched := [], poll := none } ∧
      (∀ q, q < 224 → q ≠ r.val → u.ringOf q = s.ringOf q) ∧ ((∀ q, 128 ≤ q → q < 224 → q ≠ r.val →
      s.get (Reg.HIF_RING_CTRL_enable q) = 0) → isTxRing r = true → tabGet u.claims 36 ≠ some ⟨false, 0x1B⟩)) := by
  have effect := ringDisable_eq (s := s.begin t) on
  have stopped : s.elsewhere (ringStopped (s.begin t) r) [Reg.HIF_RING_CTRL_enable r] [] [.rings, .claims] :=
    .onRing (.set (.start s t))
  have ringOf (q : Nat) (u : State) (kept : Kept (if isTxRing r && !txRingsOn (ringStopped (s.begin t) r) then
      releaseAll (ringStopped (s.begin t) r) 0x1B [36] else ringStopped (s.begin t) r) u) (hq : q < 224) :
      u.ringOf q = if r.val = q then { s.ringOf r with fetched := [], poll := none } else s.ringOf q := by
    rw [kept.ringOf hq]
    refine Eq.trans ?_ (ringStopped_ringOf (s.begin t) r q)
    split <;> rfl
  refine changes_of (f := fun s => ringDisable s r) rfl effect h (elsewhere_ite (fun _ => stopped.releaseAll) (fun _ => stopped))
    (fun u kept => ⟨?_, ?_, fun q hq other => ?_, fun last tx => ?_⟩)
  · rw [kept.get _ (ringKey_flag r)]
    refine Eq.trans ?_ ((State.get_set_self (s.begin t) (Reg.HIF_RING_CTRL_enable r) 0).trans (Nat.zero_mod _))
    split <;> rfl
  · rw [ringOf _ u kept low, if_pos rfl]
  · rw [ringOf _ u kept hq, if_neg other.symm]
  · rw [kept.claims, txRingsOn_stopped (s := s.begin t) last, tx, if_pos (by decide)]
    exact releaseAll_gone _ (by simp)

/-! The doorbell page -/

/-- Counting is the same for what the Chronograph has measured. -/
theorem Kept.bump (k : Kept s u) (c : Nat) : Kept (s.bump c) (u.bump c) := by
  have before := chrFollow_same s c 1
  have after := chrFollow_same u c 1
  refine { k with
    get := k.get
    count := fun d hd => ?_
    recs := after.recs.trans (k.recs.trans before.recs.symm)
    tagged := after.tagged.trans (k.tagged.trans before.tagged.symm)
    samples := after.samples.trans (k.samples.trans before.samples.symm)
    enabled := after.enabled.trans (k.enabled.trans before.enabled.symm) }
  unfold State.bump
  rw [State.count_bumpBy, State.count_bumpBy]
  split
  next same => rw [k.count c (same ▸ hd)]
  next => exact k.count d hd

theorem Kept.setRing (k : Kept s u) (r : Nat) (g : Ring) : Kept (s.setRing r g) (u.setRing r g) := by
  refine { k with
    get := k.get
    count := k.count
    rings := fun q hq => ?_
    hif := congrArg (fun x : Hif => { x with rings := tabPut s.hif.rings r g }) k.hif }
  show tabGet (tabPut _ _ _) _ = tabGet (tabPut _ _ _) _
  rw [tabGet_put, tabGet_put, k.rings q hq]

/-- An access with its answer. -/
def answered (s : State) (a : Resp) : State := { s with resp := a }

theorem Kept.answer (k : Kept s u) (a : Resp) : Kept (answered s a) (answered u a) :=
  { k with get := k.get, count := k.count, resp := rfl }

/-- An access of the doorbell page of which all that is left is its answer. -/
theorem leadsTo_answered {c : Instr} {f : State → State} {a : Resp} (e : exec c s = act t s f) (h : s.settled)
    (effect : f (s.begin t) = answered (s.begin t) a) : leadsTo c s (answered (s.now t) a) :=
  leadsTo_act e h h.2.1 h.2.2 (effect ▸ (begin_kept s t).answer a)

/-- A doorbell that is taken. -/
theorem leadsTo_rung {c : Instr} {f : State → State} {g : Ring} (e : exec c s = act t s f) (h : s.settled)
    (effect : f (s.begin t) = ((answered (s.begin t) .ok).bump Reg.HIF_CNT_DB).setRing r g) :
    leadsTo c s (((answered (s.now t) .ok).bump Reg.HIF_CNT_DB).setRing r g) := by
  refine leadsTo_act e h (s := s) (v := ((answered (s.now t) .ok).bump Reg.HIF_CNT_DB).setRing r g) ?_ ?_ ?_
  · rw [State.setRing_txDone, State.bump_txDone]
    exact h.2.1
  · rw [State.setRing_pwr, State.bump_pwr]
    exact h.2.2
  · rw [effect]
    exact (((begin_kept s t).answer .ok).bump Reg.HIF_CNT_DB).setRing r g

section Page

variable {cluster : Bool} {w z : Word} {off : Nat}

theorem pageAccess_write32_low (place : off = 8 * r.val) : pageAccess s off cluster .write32 w z =
    doorbell (answered s .ok) r cluster (some (w.toNat % 65536, w.toNat.testBit 31)) none := by
  have ring : off / 8 = r.val := by omega
  have low : decide (off % 8 = 4) = false := by simp; omega
  have there : decide (r.val < 256 ∧ off % 4 = 0) = true := by simp; omega
  unfold pageAccess
  simp only [ring, low, there]
  rfl

theorem pageAccess_write64 (place : off = 8 * r.val) : pageAccess s off cluster .write64 w z =
    doorbell (answered s .ok) r cluster (some (w.toNat % 65536, w.toNat.testBit 31)) (some (z.toNat % 65536)) := by
  have ring : off / 8 = r.val := by omega
  have low : decide (off % 8 = 4) = false := by simp; omega
  have there : decide (r.val < 256 ∧ off % 4 = 0) = true := by simp; omega
  unfold pageAccess
  simp only [ring, low, there]
  rfl

theorem pageAccess_write32_high (place : off = 8 * r.val + 4) : pageAccess s off cluster .write32 w z =
    doorbell (answered s .ok) r cluster none (some (w.toNat % 65536)) := by
  have ring : off / 8 = r.val := by omega
  have high : decide (off % 8 = 4) = true := by simp; omega
  have there : decide (r.val < 256 ∧ off % 4 = 0) = true := by simp; omega
  unfold pageAccess
  simp only [ring, high, there]
  rfl

theorem pageAccess_read (place : off = 8 * r.val) :
    pageAccess s off cluster .read32 w z = answered s (.value (BitVec.ofNat 32 (doorbellWords s r).1)) ∧
    pageAccess s off cluster .read64 w z =
      answered s (.value64 (BitVec.ofNat 32 (doorbellWords s r).1) (BitVec.ofNat 32 (doorbellWords s r).2)) := by
  have ring : off / 8 = r.val := by omega
  have low : decide (off % 8 = 4) = false := by simp; omega
  have there : decide (r.val < 256 ∧ off % 4 = 0) = true := by simp; omega
  unfold pageAccess
  simp only [ring, low, there]
  exact ⟨rfl, rfl⟩

theorem pageAccess_elsewhere (place : 2048 ≤ off ∨ off % 4 ≠ 0) :
    pageAccess s off cluster .read32 w z = answered s (.value 0) ∧
    pageAccess s off cluster .write32 w z = answered s .ok := by
  have nowhere : decide (off / 8 < 256 ∧ off % 4 = 0) = false := by simp; omega
  unfold pageAccess
  simp only [nowhere]
  exact ⟨by split <;> rfl, rfl⟩

end Page

/-- The counts that the owner of ring `r` may write now (R326). -/
def indexTaken (s : State) (r i : Nat) : Prop :=
  (hostProduced r = true ∧ (i + 65536 - (s.ringOf r).pIdx) % 65536 < 32768 ∧
    (i + 65536 - (s.ringOf r).cIdx) % 65536 ≤ ringSize s r) ∨
  (hostProduced r = false ∧ countBetween (s.ringOf r).pIdx i (s.ringOf r).cIdx = true)

theorem countBetween_self (c p : Nat) : countBetween c c p = true := by
  unfold countBetween
  rw [Nat.add_sub_cancel_left]
  simp

/-- A ring whose doorbell is taken: its index and its arm bit where they are written, and its consumer count. -/
def ringRung (g : Ring) (low : Option (Nat × Bool)) (c : Nat) : Ring :=
  { g with pIdx := (low.map (·.1)).getD g.pIdx, armed := g.armed || (low.map (·.2)).getD false
           dbArm := (low.map (·.2)).getD g.dbArm, ccons := c }

theorem ringRung_none (g : Ring) (c : Nat) : ringRung g none c = { g with ccons := c } := by
  simp [ringRung]

/-- A doorbell by the ring's owner, with counts in their range, is taken. -/
theorem doorbell_taken {q c : Nat} {cluster : Bool} {low : Option (Nat × Bool)} {cidx : Option Nat}
    (on : s.get (Reg.HIF_RING_CTRL_enable q) ≠ 0) (owner : cluster = (ringOwner s q == 1))
    (index : ∀ e ∈ low, indexTaken s q e.1) (count : cidxOf q (s.ringOf q) cidx = c)
    (consumed : countBetween (s.ringOf q).ccons c (s.ringOf q).cp = true) :
    doorbell s q cluster low cidx = (s.bump Reg.HIF_CNT_DB).setRing q (ringRung (s.ringOf q) low c) := by
  unfold doorbell
  rw [if_neg (by simp [State.on, on]), if_neg (by simp [owner])]
  dsimp only
  rw [count, consumed, Bool.and_true, if_pos]
  · rfl
  · cases low with
    | none => rfl
    | some e =>
      rcases index e rfl with ⟨host, near, room⟩ | ⟨part, between⟩
      · simp [host, near, room]
      · simp [part, between]

/-- A write to a doorbell that is taken. -/
theorem doorbell_leads {off : Fin 4096} {cluster : Bool} {a : PageAccess} {w z : Word} {c : Nat} {low : Option (Nat × Bool)}
    {cidx : Option Nat} (h : s.settled) (on : s.get (Reg.HIF_RING_CTRL_enable r) ≠ 0) (owner : cluster = (ringOwner s r == 1))
    (access : pageAccess (s.begin t) off cluster a w z = doorbell (answered (s.begin t) .ok) r cluster low cidx)
    (index : ∀ e ∈ low, indexTaken s r e.1) (count : cidxOf r (s.ringOf r) cidx = c)
    (consumed : countBetween (s.ringOf r).ccons c (s.ringOf r).cp = true) :
    leadsTo (.doorbell t off cluster a w z) s
      (((answered (s.now t) .ok).bump Reg.HIF_CNT_DB).setRing r (ringRung (s.ringOf r) low c)) :=
  leadsTo_rung (f := fun s => pageAccess s off cluster a w z) rfl h
    (access.trans (doorbell_taken (s := answered (s.begin t) .ok) on owner index count consumed))

theorem cidxOf_none (q : Nat) (g : Ring) : cidxOf q g none = g.ccons := by
  unfold cidxOf
  cases isTxRing q <;> rfl

theorem cidxOf_some {q : Nat} (tx : isTxRing q = true) (g : Ring) (c : Nat) : cidxOf q g (some c) = c := by
  unfold cidxOf
  rw [tx]

section Doorbells

variable {off : Fin 4096} {cluster : Bool} {w z : Word}

theorem doorbell_index {i : Nat} (h : s.settled) (on : s.get (Reg.HIF_RING_CTRL_enable r) ≠ 0) (place : off.val = 8 * r.val)
    (owner : cluster = (ringOwner s r == 1)) (value : i = w.toNat % 65536) (range : indexTaken s r i) :
    leadsTo (.doorbell t off cluster .write32 w z) s (((answered (s.now t) .ok).bump Reg.HIF_CNT_DB).setRing r { s.ringOf r with
      pIdx := i, armed := (s.ringOf r).armed || w.toNat.testBit 31, dbArm := w.toNat.testBit 31 }) := by
  subst value
  exact doorbell_leads h on owner (pageAccess_write32_low place) (by simpa using range) (cidxOf_none ..) (countBetween_self ..)

theorem doorbell_both {i c : Nat} (h : s.settled) (on : s.get (Reg.HIF_RING_CTRL_enable r) ≠ 0) (place : off.val = 8 * r.val)
    (tx : isTxRing r = true) (owner : cluster = (ringOwner s r == 1)) (value : i = w.toNat % 65536) (count : c = z.toNat % 65536)
    (range : indexTaken s r i) (consumed : countBetween (s.ringOf r).ccons c (s.ringOf r).cp = true) :
    leadsTo (.doorbell t off cluster .write64 w z) s (((answered (s.now t) .ok).bump Reg.HIF_CNT_DB).setRing r { s.ringOf r with
      pIdx := i, armed := (s.ringOf r).armed || w.toNat.testBit 31, dbArm := w.toNat.testBit 31, ccons := c }) := by
  subst value count
  exact doorbell_leads h on owner (pageAccess_write64 place) (by simpa using range) (cidxOf_some tx ..) consumed

theorem doorbell_count {c : Nat} (h : s.settled) (on : s.get (Reg.HIF_RING_CTRL_enable r) ≠ 0) (place : off.val = 8 * r.val + 4)
    (tx : isTxRing r = true) (owner : cluster = (ringOwner s r == 1)) (count : c = w.toNat % 65536)
    (consumed : countBetween (s.ringOf r).ccons c (s.ringOf r).cp = true) :
    leadsTo (.doorbell t off cluster .write32 w z) s
      (((answered (s.now t) .ok).bump Reg.HIF_CNT_DB).setRing r { s.ringOf r with ccons := c }) := by
  subst count
  rw [← ringRung_none]
  exact doorbell_leads h on owner (pageAccess_write32_high place) (by simp) (cidxOf_some tx ..) consumed

theorem doorbell_foreign (h : s.settled) (on : s.get (Reg.HIF_RING_CTRL_enable r) ≠ 0) (place : off.val = 8 * r.val)
    (foreign : cluster ≠ (ringOwner s r == 1)) :
    leadsTo (.doorbell t off cluster .write32 w z) s ((answered (s.now t) .ok).bump Reg.HIF_CNT_DB_FOREIGN) := by
  have effect : pageAccess (s.begin t) off cluster .write32 w z = (answered (s.begin t) .ok).bump Reg.HIF_CNT_DB_FOREIGN := by
    rw [pageAccess_write32_low place]
    unfold doorbell
    have on' : (answered (s.begin t) .ok).get (Reg.HIF_RING_CTRL_enable r) ≠ 0 := on
    have foreign' : cluster ≠ (ringOwner (answered (s.begin t) .ok) r == 1) := foreign
    rw [if_neg (by simp [State.on, on']), if_pos (by simpa using foreign')]
  refine leadsTo_act (f := fun s => pageAccess s off cluster .write32 w z) rfl h ?_ ?_ ?_
  · rw [State.bump_txDone]
    exact h.2.1
  · rw [State.bump_pwr]
    exact h.2.2
  · show Kept _ (pageAccess (s.begin t) off cluster .write32 w z)
    rw [effect]
    exact ((begin_kept s t).answer .ok).bump Reg.HIF_CNT_DB_FOREIGN

theorem doorbell_reads {x y : Nat} (h : s.settled) (place : off.val = 8 * r.val)
    (low : x = (if s.get (Reg.HIF_RING_CTRL_enable r) = 0 then 0 else (s.ringOf r).pIdx +
      (if (s.ringOf r).dbArm then 2 ^ 31 else 0)))
    (high : y = (if s.get (Reg.HIF_RING_CTRL_enable r) = 0 then 0 else (s.ringOf r).ccons)) :
    leadsTo (.doorbell t off cluster .read32 w z) s (answered (s.now t) (.value (BitVec.ofNat 32 x))) ∧
    leadsTo (.doorbell t off cluster .read64 w z) s
      (answered (s.now t) (.value64 (BitVec.ofNat 32 x) (BitVec.ofNat 32 y))) := by
  have words : doorbellWords (s.begin t) r = (x, y) := by
    subst low high
    unfold doorbellWords
    by_cases off : s.get (Reg.HIF_RING_CTRL_enable r) = 0
    · rw [if_pos off, if_pos off]
      exact if_neg (by simp [State.on, off])
    · rw [if_neg off, if_neg off]
      exact if_pos (State.on_iff.2 off)
  have reads := pageAccess_read (s := s.begin t) (cluster := cluster) (w := w) (z := z) place
  rw [words] at reads
  exact ⟨leadsTo_answered (f := fun s => pageAccess s off cluster .read32 w z) rfl h reads.1,
    leadsTo_answered (f := fun s => pageAccess s off cluster .read64 w z) rfl h reads.2⟩

theorem doorbell_elsewhere (h : s.settled) (place : 2048 ≤ off.val ∨ off.val % 4 ≠ 0) :
    leadsTo (.doorbell t off cluster .read32 w z) s (answered (s.now t) (.value 0)) ∧
    leadsTo (.doorbell t off cluster .write32 w z) s (answered (s.now t) .ok) := by
  obtain ⟨read, write⟩ := pageAccess_elsewhere (s := s.begin t) (cluster := cluster) (w := w) (z := z) place
  exact ⟨leadsTo_answered (f := fun s => pageAccess s off cluster .read32 w z) rfl h read,
    leadsTo_answered (f := fun s => pageAccess s off cluster .write32 w z) rfl h write⟩

end Doorbells

/-! Fetches and errors -/

theorem descriptorFetch_leads {n : Nat} {descs : List (List Byte)} (h : s.settled) (live : ringLive s r = true)
    (tx : isTxRing r = true) (count : n = fetchCount s r) :
    leadsTo (.descriptorFetch t r descs) s ((s.now t).setRing r { s.ringOf r with
      fetched := (s.ringOf r).fetched ++ (List.range n).map (fun i => octetsAt (descs.getD i []) 0 32) }) := by
  subst count
  refine leadsTo_now (f := fun s => descriptorFetch s r descs) rfl h ?_
  unfold descriptorFetch
  rw [if_pos (by simp only [tx, Bool.true_and]; exact live)]
  rfl

theorem dmaError_changes (addr : BitVec 64) (h : s.settled) (on : s.get (Reg.HIF_RING_CTRL_enable r) ≠ 0) (low : r.val < 224) :
    changes (.dmaError t r addr) s [] [Reg.HIF_CNT_DMA_ERR] [.rings] (fun u => 22 ∈ u.hif.pend ∧
      u.count Reg.HIF_CNT_DMA_ERR = (s.count Reg.HIF_CNT_DMA_ERR + 1) % 2 ^ 32 ∧
      u.ringOf r = { s.ringOf r with halted := true, err := 2 } ∧ ∀ q, q < 224 → q ≠ r.val → u.ringOf q = s.ringOf q) := by
  have effect : dmaErrorRing (s.begin t) r addr.toNat = (((s.begin t).bump Reg.HIF_CNT_DMA_ERR).onRing r (fun g =>
      { g with halted := true, err := 2 })).raise 22 r 2 (addr.toNat % 2 ^ 32) := by
    unfold dmaErrorRing
    rw [if_neg (by simp [State.on, on])]
    rfl
  refine changes_of (f := fun s => dmaErrorRing s r addr.toNat) rfl effect h (.raise (.onRing (.bump (.start s t))))
    (fun u kept => ⟨kept.pend _ (raise_pend ..), ?_, ?_, fun q hq other => ?_⟩)
  · rw [kept.count _ (by decide), State.raise_count _ _ _ _ _ _ (by decide)]
    exact (State.count_bumpBy ..).trans (if_pos rfl)
  · rw [((raise_kept _ _ _ _ _ rfl).trans kept).ringOf low, State.ringOf_onRing, if_pos rfl]
    rfl
  · rw [((raise_kept _ _ _ _ _ rfl).trans kept).ringOf hq, State.ringOf_onRing, if_neg other.symm]
    rfl

/-- Settles O49: a doorbell that is taken is `doorbell_taken`, and what lies elsewhere in the page is `pageAccess_elsewhere`. -/
theorem ringsComplete : Obligations.RingsComplete := fun _ _ _ h =>
  ⟨ringEnable_changes h, ringDisable_changes h, fun _ _ _ _ _ => doorbell_index h, fun _ _ _ _ _ _ => doorbell_both h,
    fun _ _ _ _ _ => doorbell_count h, fun _ _ _ _ => doorbell_foreign h, fun _ _ _ _ _ _ => doorbell_reads h,
    fun _ _ _ _ => doorbell_elsewhere h, fun _ _ => descriptorFetch_leads h, fun addr => dmaError_changes addr h⟩

end Rings
end Sys2Proof.Machine

namespace Sys2Proof.Machine

/-! ### What O50 leaves out: a reserved kind while pool 4 has no buffer free -/

/-- A transmit descriptor of one buffer of 40 octets, END_OF_PACKET, whose kind is the reserved 3. -/
def reservedKind : List Byte := [0, 16, 0, 0, 0, 0, 0, 0, 40, 0, 3, 4] ++ List.replicate 20 0

/-- The machine after reset, but with ring 223 of the host live and `reservedKind` fetched from it, and with no buffer of pool 4
free. -/
def emptyPool : State :=
  { State.reset with fields := [((Reg.HIF_RING_CTRL_enable 223).key, 1), ((Reg.HIF_RING_CTRL_log2_size 223).key, 4),
                                ((Reg.CTX_POOL_FREE_free 4).key, 0)],
                     hif := { State.reset.hif with rings := [(223, { fetched := [reservedKind], pIdx := 1 })] } }

theorem emptyPool_settled : emptyPool.settled := ⟨rfl, rfl, rfl⟩

/-- Refutes O50: in `emptyPool` the frame of the reserved kind needs one buffer of pool 4, where none is free, so it waits like
every frame (log 196) and the ring's count stays 0; the clause says that the count advances past its descriptor. -/
theorem not_frameAdmissionCompletes : ¬ Obligations.FrameAdmissionCompletes := by
  intro h
  obtain ⟨-, reserved⟩ := h 0 223 reservedKind [] [] emptyPool emptyPool_settled
  obtain ⟨u, hu, -, -, advances, -⟩ := reserved (by decide +kernel) (by decide) (by decide) (by decide) (by decide)
    (by decide +kernel) (by decide)
  obtain ⟨v, hv, kept⟩ := act_kept (s := emptyPool) (t := 0) (f := fun s => frameAdmission s 223 (some [])) rfl rfl rfl
  cases hu.symm.trans hv
  have waits : ((frameAdmission (emptyPool.begin 0) 223 (some [])).ringOf 223).cIdx = 0 := by decide +kernel
  have counted : (emptyPool.ringOf 223).cIdx = 0 := by decide
  rw [show u.ringOf (223 : Fin 256).val = _ from kept.ringOf (by decide), show (223 : Fin 256).val = 223 from rfl,
    counted] at advances
  exact absurd (waits.symm.trans advances) (by decide)

end Sys2Proof.Machine

namespace Sys2Proof.Machine

/-! ### What O21 leaves out: the latency measurement of a stored fragment -/

/-- The datagram of reassembly context 0 whose time is over; a fragment of it is stored, whose latency measurement is 1. -/
def overdueDatagram : Reasm := { src := (0, 0), size := 0, dtag := 0, opened := 0, due := 0, marks := [1] }

/-- The machine after reset, but with `overdueDatagram` in reassembly context 0. -/
def measuredFragment : State :=
  { State.reset with fwd := { State.reset.fwd with reasm := [(0, overdueDatagram)] },
                     chr := { State.reset.chr with tagged := [(1, { tagged := false })] },
                     fields := [((Reg.CTX_POOL_FREE_free 2).key, 0)] }

theorem measuredFragment_settled : measuredFragment.settled := ⟨rfl, rfl, rfl⟩

/-- Refutes O21: in `measuredFragment` the discard of the reassembly context drops its fragment, so the measurement of the fragment
ends (R416) and leaves the stages; the frame of the clause says that the stages stay. -/
theorem not_flightsComplete : ¬ Obligations.FlightsComplete := by
  intro h
  obtain ⟨-, -, -, -, -, -, -, -, timeout⟩ := h 0 measuredFragment measuredFragment_settled
  obtain ⟨u, hu, ⟨-, -, same, -⟩, -⟩ := timeout 0 overdueDatagram rfl (by decide) (by decide +kernel)
  obtain ⟨v, hv, kept⟩ := act_kept (s := measuredFragment) (t := 0) (f := fun s => reassemblyTimeout s 0) rfl rfl rfl
  cases hu.symm.trans hv
  obtain ⟨-, stays⟩ := same .stages (by decide)
  have ended : (reassemblyTimeout (measuredFragment.begin 0) 0).chr.tagged = [] := by decide +kernel
  rw [kept.tagged, ended] at stays
  exact absurd stays (by decide)

end Sys2Proof.Machine

namespace Sys2Proof.Machine

/-! ### What O22 leaves out: a store that lists an address twice -/

/-- A frame of a downlink datagram, without octets: its security header stands at octets 21 to 25. -/
def plainFrame : AirOut :=
  { parm := { profile := 0, family := 0, band := 0, fcs2 := true, occHz := 0, maxPsdu := 0, n := 0, airUs := 0, shrUs := 0, ackUs := 0 },
    psdu := List.replicate 26 0, ar := true, ver := 2, dsn := none, dst := (3, 0), hop := some 4 }

/-- A datagram of one frame that waits for step 4 of R22, its first hop in context 4. -/
def atSecurity : Flight :=
  { up := false, ingress := .host, order := 0, stage := .secure, octets := [], rx := {}, hop := some 4, out := [plainFrame] }

/-- The machine after reset, but with JWL enabled in DEPLOYED, a link key's parent in slot 9, two derivations under way, `atSecurity` at
tag 128, and a valid context 4 that names the slot and has 999,999 as its limit of frame counters. -/
def readyHop : State :=
  let s : State := { State.reset with
    fuses := { State.reset.fuses with lcState := 2 }, fields := [(Reg.JWL_CTRL_enable.key, 1), (Reg.JWL_STATUS_lc_busy.key, 0)],
    jwl := { State.reset.jwl with derivQ := [1, 2], slots := [(9, { state := 1, type := 1, masters := 31, lcMask := 255 })] },
    fwd := { State.reset.fwd with flights := [(128, atSecurity)] } }
  ((((s.cset 4 Cx.valid 1).cset 4 Cx.sec_level 5).cset 4 Cx.fc_limit 999999).cset 4 Cx.fc_req 1).cset 4 Cx.key_slot 9

/-- `readyHop`, but with the lowest byte of the context's frame counter listed twice: 255 is read, and 7 stands behind it. -/
def twiceListed : State := { readyHop with store := (832, 255) :: (832, 7) :: readyHop.store }

theorem twiceListed_settled : twiceListed.settled := ⟨rfl, rfl, rfl⟩

/-- Refutes O22: in `twiceListed` the frame takes counter 255, so the lowest byte becomes 0; a byte that is 0 is listed no more, and
what is read is the 7 behind it. The clause says that the counter is one higher, and, unlike the two after it, does not ask
for a canonical store. -/
theorem not_downlinkSecureCompletes : ¬ Obligations.DownlinkSecureCompletes := by
  intro h
  obtain ⟨-, -, derives, -⟩ := h 0 128 atSecurity twiceListed twiceListed_settled (by decide +kernel) rfl
  obtain ⟨u, hu, -, counter, -⟩ := derives 4 5 plainFrame none rfl rfl rfl (by decide +kernel) (by decide +kernel) rfl
    (by decide +kernel) (by decide) (by decide +kernel) (by decide +kernel) (by decide +kernel) (by decide +kernel)
    (by decide +kernel) (by decide +kernel)
  obtain ⟨v, hv, kept⟩ := act_kept (s := twiceListed) (t := 0) (f := fun s => downlinkSecure s 128 none) rfl rfl rfl
  cases hu.symm.trans hv
  have before : twiceListed.cget 4 Cx.tx_fc = 255 := by decide +kernel
  have after : (downlinkSecure (twiceListed.begin 0) 128 none).cget 4 Cx.tx_fc = 263 := by decide +kernel
  have read : u.cget 4 Cx.tx_fc = (downlinkSecure (twiceListed.begin 0) 128 none).cget 4 Cx.tx_fc := by
    unfold State.cget State.octets
    rw [kept.store]
  exact absurd (after.symm.trans (read.symm.trans (counter.trans (congrArg (· + 1) before)))) (by decide)

end Sys2Proof.Machine

namespace Sys2Proof.Machine

/-! ### What O18 leaves out: a lookup that misses while a relocation is moving entries -/

/-- The record of a data frame from short address 0x5678 to 0x1234 in PAN 0xABCD, received on lane 3. -/
def dataRecord : LaneRec :=
  { lane := 3, band := 0, freq := 868300, profile := 3, rssi := -60, lqi := 200, ltb := 0, angle := 0, endLtb := 0, captured := false,
    slot := false, rate := 0, fcs2 := true, whiten := false, psdu := [0x41, 0x88, 7, 0xCD, 0xAB, 0x34, 0x12, 0x78, 0x56, 0x41] }

/-- Its MAC header. -/
def dataHeader : Mhr :=
  (parseMhr dataRecord.psdu).getD { type := 0, ver := 0, sec := false, ar := false, dsn := none, dstMode := 0, srcMode := 0,
                                    dstPan := none, srcPan := none, dst := 0, src := 0, hdr := 0 }

/-- The machine after reset, but with `dataRecord` handed over, AMC at its destination, FWD and CTX enabled, buffers of pool 0
free, and a relocation in an empty Node Table that has moved an entry just now. -/
def relocating : State :=
  { State.reset with
    laneRecs := [dataRecord], fwd := { State.reset.fwd with reloc := 1 },
    fields := [(Reg.AMC_CTRL_enable.key, 1), (Reg.FWD_CTRL_enable.key, 1), (Reg.CTX_CTRL_enable.key, 1),
               (Reg.AMC_PAN_pan_id.key, 0xABCD), (Reg.AMC_PAN_short_addr.key, 0x1234), ((Reg.CTX_POOL_FREE_free 0).key, 9),
               (Reg.TWN_CTRL_role.key, 0)] }

theorem relocating_settled : relocating.settled := ⟨rfl, rfl, rfl⟩

/-- Refutes O18: in `relocating` the lookup of the frame's source misses within the span of the relocation's move, so it is made again
and counted in FWD_CNT_NT_RETRY (R255); the frame of the clause says that this counter stays. -/
theorem not_frameRecordCompletes : ¬ Obligations.FrameRecordCompletes := by
  intro h
  obtain ⟨takes, -⟩ := h 0 3 [] dataRecord [] relocating relocating_settled rfl rfl
  obtain ⟨u, hu, ⟨-, counts, -⟩, -⟩ := takes dataHeader 3 (by decide +kernel) (by decide +kernel) (by decide +kernel)
    (by decide +kernel) (by decide +kernel) (by decide +kernel) (by decide +kernel) (by decide +kernel) (by decide +kernel)
    (by decide +kernel)
  obtain ⟨v, hv, kept⟩ := act_kept (s := relocating) (t := 0) (f := fun s => frameRecord s 3 []) rfl
    (by decide +kernel) (by decide +kernel)
  cases hu.symm.trans hv
  have stays := counts Reg.FWD_CNT_NT_RETRY (by decide) (by decide)
  rw [kept.count _ (by decide)] at stays
  have after : (frameRecord (relocating.begin 0) 3 []).count Reg.FWD_CNT_NT_RETRY = 1 := by decide +kernel
  have before : relocating.count Reg.FWD_CNT_NT_RETRY = 0 := by decide +kernel
  exact absurd (after.symm.trans (stays.trans before)) (by decide)

end Sys2Proof.Machine

namespace Sys2Proof.Machine

/-! ### What O20 leaves out: a frame before the duplicate test that has a derivation under way -/

/-- A secured data frame of level 5 with key identifier mode 0 and frame counter 1. -/
def securedOctets : List Byte :=
  [0x49, 0x88, 7, 0xCD, 0xAB, 0x34, 0x12, 0x78, 0x56, 0x05, 1, 0, 0, 0, 0x41, 0x42, 0x43, 0x44, 0x45, 0x46]

/-- Its MAC header. -/
def securedHeader : Mhr :=
  (parseMhr securedOctets).getD { type := 0, ver := 0, sec := false, ar := false, dsn := none, dstMode := 0, srcMode := 0,
                                  dstPan := none, srcPan := none, dst := 0, src := 0, hdr := 0 }

/-- The frame before step 5 of R20 with its node in context 4, but noted as started with generation 7 of a slot. -/
def startedEarly : Flight :=
  { up := true, ingress := .air, order := 0, stage := .context, octets := securedOctets, ctx := some 4, started := some 7 }

/-- The machine after reset, but with JWL enabled in DEPLOYED, a link key's parent of generation 0 in slot 9, `startedEarly` at tag
3, and a valid context 4 that names the slot. -/
def earlyStart : State :=
  let s : State := { State.reset with
    fuses := { State.reset.fuses with lcState := 2 }, fields := [(Reg.JWL_CTRL_enable.key, 1), (Reg.JWL_STATUS_lc_busy.key, 0)],
    jwl := { State.reset.jwl with slots := [(9, { state := 1, type := 1, masters := 31, lcMask := 255 })] },
    fwd := { State.reset.fwd with flights := [(3, startedEarly)] } }
  (s.cset 4 Cx.valid 1).cset 4 Cx.key_slot 9

theorem earlyStart_settled : earlyStart.settled := ⟨rfl, rfl, rfl⟩

/-- Refutes O20: in `earlyStart` the frame misses the cache and enters the derivation queue, but since it is noted as started no unit
starts on it, and it keeps generation 7; the clause says that it gets the slot's generation, which is 0. -/
theorem not_uplinkStepsComplete : ¬ Obligations.UplinkStepsComplete := by
  intro h
  obtain ⟨-, -, -, -, -, -, miss, -⟩ := h 0 3 startedEarly securedHeader [] [] false none earlyStart earlyStart_settled
    (by decide +kernel) rfl rfl (by decide +kernel)
  obtain ⟨u, hu, -, -, -, starts, -⟩ := miss 4 9 0 rfl rfl (by decide) (by decide +kernel) rfl (by decide) (by decide +kernel)
    (by decide +kernel) (by decide +kernel) (by decide +kernel) (by decide +kernel) (by decide +kernel) (by decide +kernel)
    (by decide +kernel) (by decide +kernel) (by decide +kernel)
  obtain ⟨v, hv, kept⟩ := act_kept (s := earlyStart) (t := 0) (f := fun s => duplicateTest s 3 none) rfl rfl rfl
  cases hu.symm.trans hv
  have after : (flightOf (duplicateTest (earlyStart.begin 0) 3 none) 3).map (fun g => (g.stage, g.slot, g.eui, g.started)) =
      some (.derive, 9, 0, some 7) := by decide +kernel
  have slot : (jslot earlyStart 9).gen = 0 := by decide +kernel
  have read : flightOf u 3 = flightOf (duplicateTest (earlyStart.begin 0) 3 none) 3 := by
    unfold flightOf
    rw [kept.fwd]
  rw [show (3 : Fin 512).val = 3 from rfl, read, after, slot] at starts
  exact absurd starts (by decide)

end Sys2Proof.Machine

namespace Sys2Proof.Machine

/-! ### The state after reset (R37, R42, R304) -/

/-- Settles O3: the tables of the state after reset are short lists in canonical form, and no life-cycle change is in progress. -/
theorem resetHasInv : Obligations.ResetHasInv :=
  ⟨⟨rfl, rfl, rfl, rfl, fun _ change => nomatch change⟩, rfl, rfl, rfl⟩

end Sys2Proof.Machine

namespace Sys2Proof.Machine

/-! ### What O11 leaves out: an epoch boundary that has been taken -/

/-- The machine after reset, but with the Balance LOCKED at the end of cycle 2999: the epoch boundary of cycle 3000 has been taken at
its fixed LTB, and the cycle has yet to begin. -/
def boundaryTaken : State :=
  { State.reset.set Reg.BAL_STATUS_state 2 with ltb := 20000000, bal := { cycles := [⟨2999, 0, 20000000⟩], epochLast := 3000 } }

theorem boundaryTaken_settled : boundaryTaken.settled := ⟨rfl, rfl, rfl⟩

/-- Refutes O11: in `boundaryTaken` the next boundary by the angle is still that of cycle 3000, which is near and not fixed. It has
been taken and is not fixed again, where the clause says that TARGET_FIX fixes it. -/
theorem not_phaseCompletes : ¬ Obligations.PhaseCompletes := by
  intro h
  obtain ⟨-, -, -, -, fixes⟩ := h 0 boundaryTaken boundaryTaken_settled (by decide)
  obtain ⟨u, hu, fixed⟩ := fixes ⟨2999, 0, 20000000⟩ [] 3000 rfl rfl (by decide +kernel) (by decide +kernel)
  obtain ⟨v, hv, kept⟩ := act_kept (s := boundaryTaken) (t := 0) (f := fun s => targetFix s .epoch) rfl
    (by decide +kernel) (by decide +kernel)
  cases hu.symm.trans hv
  have stays : (targetFix (boundaryTaken.begin 0) .epoch).bal.epochFixed = none := by decide +kernel
  rw [← kept.bal, fixed.bal] at stays
  cases stays

end Sys2Proof.Machine

namespace Sys2Proof.Machine

/-! ### What O13 leaves out: a comparator that carries a block's own timing -/

/-- The machine after reset, but with comparator 14 claimed by SLP (R69) and reading armed, its target reached. -/
def comparatorOfSlp : State :=
  { State.reset.set (Reg.BAL_CMP_CTRL_armed 14) 1 with claims := [(30, ⟨false, 0x15⟩)] }

theorem comparatorOfSlp_settled : comparatorOfSlp.settled := ⟨rfl, rfl, rfl⟩

/-- Refutes O13: in `comparatorOfSlp` CMP_FIRE is no firing of firmware's comparator 14, which SLP holds, and `fired` stays 0; the
clause on CMP_FIRE asks for no holder and says that it becomes 1. -/
theorem not_captureAndCompareComplete : ¬ Obligations.CaptureAndCompareComplete := by
  intro h
  obtain ⟨-, -, -, -, -, -, -, fires⟩ := h 0 comparatorOfSlp 0 comparatorOfSlp_settled
  obtain ⟨u, hu, -, fired, -⟩ := fires 14 (by decide) (by decide)
  obtain ⟨v, hv, kept⟩ := act_kept (s := comparatorOfSlp) (t := 0) (f := fun s => cmpFire s 14) rfl
    (by decide +kernel) (by decide +kernel)
  cases hu.symm.trans hv
  have idle : (cmpFire (comparatorOfSlp.begin 0) 14).get (Reg.BAL_CMP_CTRL_fired 14) = 0 := by decide +kernel
  rw [← kept.get _ (by decide)] at idle
  exact absurd (fired.symm.trans idle) (by decide)

end Sys2Proof.Machine

namespace Sys2Proof.Machine

/-! ### What O31 leaves out: the storm event at the fault classifier -/

/-- The machine after reset, but with lane 0 in PAYLOAD and one failure short of its storm threshold. -/
def stormDue : State :=
  { State.reset.set (Reg.CHZ_LANE_STAT_state 0) lanePAYLOAD with
    lanes := [(0, { assign := some ⟨0, 869525, 0⟩, rx := some { detectAt := 0, level := 0 }, stormThr := 1 })] }

theorem stormDue_settled : stormDue.settled := ⟨rfl, rfl, rfl⟩

/-- Refutes O31: in `stormDue` an empty PSDU fails its FCS and raises EV081, a fault event that is always transient, so the
classifier counts it in PWR_CNT_TRANSIENT (R433); the frame of the clause names the lane's own counters alone. -/
theorem not_laneReceptionCompletes : ¬ Obligations.LaneReceptionCompletes := by
  intro h
  obtain ⟨-, -, -, -, -, -, -, bad, -⟩ :=
    h 0 0 ⟨0, 869525, 0⟩ { detectAt := 0, level := 0 } 0 0 stormDue stormDue_settled
  obtain ⟨u, hu, ⟨-, counts, -⟩, -⟩ := bad [] [] 0 {} rfl rfl (by decide) (by decide +kernel) (by decide +kernel) rfl rfl
  have stays : u.count Reg.PWR_CNT_TRANSIENT = stormDue.count Reg.PWR_CNT_TRANSIENT := counts _ (by decide) (by decide)
  have next : exec (.laneFrameEnd 0 0 [] 0 {}) stormDue =
    .next { (laneFrameEnd (stormDue.begin 0) 0 [] 0 {}).finish with pending := [] } := rfl
  cases hu.symm.trans next
  have after : (laneFrameEnd (stormDue.begin 0) 0 [] 0 {}).finish.count Reg.PWR_CNT_TRANSIENT = 1 := by decide +kernel
  have before : stormDue.count Reg.PWR_CNT_TRANSIENT = 0 := by decide +kernel
  exact absurd (after.symm.trans (stays.trans before)) (by decide)

end Sys2Proof.Machine

namespace Sys2Proof.Machine

/-! ### PTP time and the pulse per second (R62, R63) -/

section PtpAndPps

set_option Elab.async false

variable {t : Nat} {s : State}

/-- The PTP clock is read from its base, its rate and the instant. -/
theorem ptpAt_set_ne (s : State) {f : Fld} (x at_ : Nat) (h : f.key ≠ Reg.BAL_PTP_RATE_rate.key) :
    ptpAt (s.set f x) at_ = ptpAt s at_ := by
  unfold ptpAt State.sget
  rw [State.get_set_ne _ _ h]
  rfl

/-- Nanoseconds of a time in seconds and nanoseconds, which an adjustment moves. -/
theorem ptpAdj_ns (sec : Nat) (x : Int) : ((((sec : Int) * 1000000000 + x) % 1000000000).toNat : Int) = x % 1000000000 := by
  omega

theorem ptpSet_changes (ns : BitVec 30) (h : s.settled) : changes (.ptpSet t ns) s [] [] [.bal] (fun u => u.bal.ptpNs = ns.toNat ∧
    u.bal.ptpLtb = max s.ltb t ∧ u.bal.ptpSec = s.get Reg.BAL_PTP_SET_SEC_HI_set_sec_hi * 2 ^ 32 + s.get
    Reg.BAL_PTP_SET_SEC_LO_set_sec_lo ∧ 48 ∈ u.hif.pend) := by
  refine changes_of (f := fun s => ptpSet s ns.toNat) rfl rfl h (.raise (.onBal (.start s t))) (fun u kept => ?_)
  rw [kept.bal, ptpSet, State.raise_bal]
  exact ⟨rfl, rfl, rfl, kept.pend _ (raise_pend ..)⟩

theorem ptpAdj_changes (adj : Word) (h : s.settled) : changes (.ptpAdj t adj) s [] [] [.bal] (fun u =>
    u.bal.ptpLtb = max s.ltb t ∧ 48 ∈ u.hif.pend ∧
    (u.bal.ptpNs : Int) = ((ptpAt s (max s.ltb t)).2 + adj.toInt) % 1000000000) := by
  refine changes_of (f := fun s => ptpAdj s adj.toInt) rfl rfl h (.raise (.onBal (.start s t))) (fun u kept => ?_)
  rw [kept.bal, ptpAdj, State.raise_bal]
  refine ⟨rfl, kept.pend _ (raise_pend ..), ?_⟩
  have ns := ptpAdj_ns (ptpAt s (max s.ltb t)).1 ((ptpAt s (max s.ltb t)).2 + adj.toInt)
  rw [← add_assoc] at ns
  exact ns

theorem ppsOutEnable_changes (h : s.settled) (off : s.get Reg.BAL_PTP_CTRL_pps_out_en = 0) (free : claimFree s 0x09 13 = true) :
    changes (.ppsOutEnable t) s [Reg.BAL_PTP_CTRL_pps_out_en] [] [.bal, .claims, .pins] (fun u =>
      u.get Reg.BAL_PTP_CTRL_pps_out_en = 1 ∧ u.level .ppsOut = some false ∧ tabGet u.claims 13 = some ⟨false, 0x09⟩) := by
  have claimed : claimAll (s.begin t) 0x09 [13] = (true, claimTaken (s.begin t) 0x09 13) := claimAll_one free
  have effect : ppsOutEnable (s.begin t) = (((claimTaken (s.begin t) 0x09 13).set Reg.BAL_PTP_CTRL_pps_out_en 1).drive .ppsOut
      false).onBal (fun b => { b with ppsSec := (ptpAt s (max s.ltb t)).1 }) := by
    unfold ppsOutEnable
    rw [if_neg (by simp [State.on, off]), claimed]
    rfl
  refine changes_of (f := ppsOutEnable) rfl effect h (.onBal (.drive (.set (.claimTaken (.start s t))))) (fun u kept => ?_)
  rw [kept.get _ (by decide), kept.level, kept.claims]
  rw [State.onBal_get, State.drive_get, State.get_set_self]
  exact ⟨rfl, State.level_drive_self .., tabGet_put_self ..⟩

theorem ppsPulse_leads (h : s.settled) (on : s.get Reg.BAL_PTP_CTRL_pps_out_en ≠ 0)
    (begun : (ptpAt s (max s.ltb t)).1 ≠ s.bal.ppsSec) :
    leadsTo (.ppsPulse t) s (((s.now t).drive .ppsOut true).onBal (fun b => { b with
      ppsSec := (ptpAt s (max s.ltb t)).1,
      ppsPulseEnd := some (max s.ltb t + s.get Reg.BAL_PTP_CTRL_pps_width * 1000000) })) := by
  have second : (ptpAt (s.begin t) (s.begin t).ltb).1 ≠ (s.begin t).bal.ppsSec := begun
  refine leadsTo_now (f := ppsPulse) rfl h ?_
  unfold ppsPulse
  rw [if_neg (by simpa [State.on, on] using second)]
  rfl

theorem ppsPulseEnd_leads (e : Nat) (h : s.settled) (ends : s.bal.ppsPulseEnd = some e) (due : e ≤ max s.ltb t) :
    leadsTo (.ppsPulseEnd t) s (((s.now t).drive .ppsOut false).onBal (fun b => { b with ppsPulseEnd := none })) := by
  have begun : (s.begin t).bal.ppsPulseEnd = some e := ends
  refine leadsTo_now (f := ppsPulseEnd) rfl h ?_
  unfold ppsPulseEnd
  rw [begun]
  exact if_pos due

theorem ppsInEdge_changes (h : s.settled) (on : s.get Reg.BAL_PTP_CTRL_pps_in_en ≠ 0) :
    changes (.ppsInEdge t) s [Reg.BAL_PPS_IN_LTB_LO_ltb_lo, Reg.BAL_PPS_IN_LTB_HI_ltb_hi, Reg.BAL_PPS_IN_NS_ns] [] [.bal] (fun u =>
      u.get Reg.BAL_PPS_IN_LTB_LO_ltb_lo = max s.ltb t % 2 ^ 32 ∧
      u.get Reg.BAL_PPS_IN_NS_ns = (ptpAt s (max s.ltb t)).2 % 2 ^ 30 ∧ u.bal.ppsInLast = some (max s.ltb t)) := by
  have effect : ppsInEdge (s.begin t) = ((((s.begin t).set Reg.BAL_PPS_IN_LTB_LO_ltb_lo (max s.ltb t)).set
      Reg.BAL_PPS_IN_LTB_HI_ltb_hi (max s.ltb t / 2 ^ 32)).set Reg.BAL_PPS_IN_NS_ns (ptpAt s (max s.ltb t)).2).onBal
      (fun b => { b with ppsInLast := some (max s.ltb t) }) := by
    unfold ppsInEdge
    dsimp only
    rw [if_neg (by simp [State.on, on]), ptpAt_set_ne _ _ _ (by decide), ptpAt_set_ne _ _ _ (by decide)]
    rfl
  refine changes_of (f := ppsInEdge) rfl effect h (.onBal (.set (.set (.set (.start s t))))) (fun u kept => ?_)
  rw [kept.get _ (by decide), kept.get _ (by decide), kept.bal]
  simp (disch := decide) only [State.onBal_get, State.get_set_ne, State.get_set_self]
  exact ⟨rfl, rfl, rfl⟩

theorem ppsInMissing_changes (l : Nat) (h : s.settled) (last : s.bal.ppsInLast = some l)
    (on : s.get Reg.BAL_PTP_CTRL_pps_in_en ≠ 0) (late : l + 1500000000 ≤ max s.ltb t) :
    changes (.ppsInMissing t) s [] [] [.bal] (fun u => u.bal.ppsInLast = none ∧ 46 ∈ u.hif.pend) := by
  have effect : ppsInMissing (s.begin t) = ((s.begin t).onBal (fun b => { b with ppsInLast := none })).raise 46 := by
    have begun : (s.begin t).bal.ppsInLast = some l := last
    unfold ppsInMissing
    rw [begun]
    exact if_pos (by simp [State.on, on, late])
  refine changes_of (f := ppsInMissing) rfl effect h (.raise (.onBal (.start s t))) (fun u kept => ?_)
  rw [kept.bal, State.raise_bal]
  exact ⟨rfl, kept.pend _ (raise_pend ..)⟩

/-- Settles O14: each command by its whole effect on the clock's base (`ptpRebase`) or on the pulse. -/
theorem ptpAndPpsComplete : Obligations.PtpAndPpsComplete := fun _ _ h =>
  ⟨fun ns => ptpSet_changes ns h, fun adj => ptpAdj_changes adj h, ppsOutEnable_changes h, ppsPulse_leads h,
    fun e => ppsPulseEnd_leads e h, ppsInEdge_changes h, fun l => ppsInMissing_changes l h⟩

end PtpAndPps
end Sys2Proof.Machine

namespace Sys2Proof.Machine

/-! ### Crossings and cycle starts (R44, R46-R49, R52) -/

section Crossings

set_option Elab.async false

variable {t : Nat} {s v : State} {fs : List Fld} {cs : List Nat} {ps : List Part} {c : Cycle} {r : List Cycle}

theorem elsewhere_keepMapping (h : s.elsewhere v fs cs ps) (hp : .bal ∈ ps := by simp) : s.elsewhere v.keepMapping fs cs ps :=
  elsewhere_bal h _ hp

/-- Where the Balance alone may change, a field has the value in force that it had. -/
theorem State.elsewhere.cur (h : s.elsewhere v fs cs ps) (f : Fld) (flag : chrFlagKey f.key = false) (vec : vecKey f.key = false)
    (hf : f.key ∉ fs.map Fld.key) (hp : .inForce ∉ ps) : v.cur f = s.cur f := by
  have waits : tabGet v.inForce f.key = tabGet s.inForce f.key := h.2.2.1 .inForce hp f.key vec
  unfold State.cur
  rw [h.1 f flag hf, waits]

/-- The hidden state that says which crossings were accepted (R49-R52). -/
def crossingsOf (b : Bal) : Option Nat × Nat × Option Int × Option Int := (b.accepted, b.miss, b.lastZc, b.lastAin)

/-- A crossing is counted, and its error is in BAL_PHASE_ERR. -/
def crossingRead (s : State) (e : Int) : State := (s.bump Reg.BAL_CNT_ZC_ACC).sset Reg.BAL_PHASE_ERR_phase_err e

/-- A crossing in the frequency range (R50). -/
def crossingRanged (s : State) : State := (s.set Reg.BAL_STATUS_freq_range_err 0).onBal (fun b => { b with rangeBad := 0 })

/-- Such a crossing is the last one of its input. -/
def crossingNoted (s : State) (z : Int) (ain : Bool) : State :=
  (crossingRanged s).onBal (fun b => if ain then { b with lastAin := some z } else { b with lastZc := some z })

/-! The parts of an accepted crossing in LOCKED: the loop, BAL_SITE_PHASE and its phase error -/

theorem elsewhere_setPeriod {p : Int} (h : s.elsewhere v fs cs ps) (hf : Reg.BAL_PERIOD_period.key ∈ fs.map Fld.key := by simp)
    (hp : .bal ∈ ps := by simp) : s.elsewhere (setPeriod v p) fs cs ps := .set (.onBal h hp) hf

theorem loopUpdate_frame (e : Int) (extra : Nat) :
    s.elsewhere (loopUpdate s e extra).2 [Reg.BAL_PERIOD_period, Reg.BAL_STATUS_slewing] [] [.bal] :=
  elsewhere_ite (fun _ => .setb (elsewhere_setPeriod (.onBal (elsewhere_refl ..))))
    (fun _ => elsewhere_setPeriod (.onBal (elsewhere_refl ..)))

theorem loopUpdate_crossings (e : Int) (extra : Nat) : crossingsOf (loopUpdate s e extra).2.bal = crossingsOf s.bal := by
  unfold loopUpdate
  dsimp only
  split <;> rfl

/-- The crossing of cycle `k` is the accepted one, and none is missed (R51). -/
def lockedCounted (s : State) (k : Nat) (e : Int) : State :=
  (crossingRead s e).onBal (fun b => { b with accepted := some k, miss := 0, ainAll := true, autoSwitch := false })

/-- What an accepted crossing makes of the loop update `p` (R49, R53): nothing while a slew runs, else a length for the current cycle or for the next. -/
def loopCorrected (s : State) (begun : Bool) (p : Int × State) : State :=
  if s.bal.slew ≠ 0 then s
  else if begun then
    match p.2.bal.cycles with
    | c :: r => p.2.keepMapping.onBal (fun b => { b with cycles := { c with len := p.1 } :: r, floor := liveAngle s })
    | [] => p.2
  else p.2.onBal (fun b => { b with nextLen := some p.1 })

theorem acceptLocked_eq (k : Nat) (e : Int) (begun : Bool) : acceptLocked s k e begun =
    loopCorrected (lockedCounted s k e) begun (loopUpdate (lockedCounted s k e) e 0) := rfl

theorem loopCorrected_frame {w : State} {begun : Bool} {p : Int × State} (h : w.elsewhere s fs cs ps)
    (hp : w.elsewhere p.2 fs cs ps) (hb : .bal ∈ ps := by simp) : w.elsewhere (loopCorrected s begun p) fs cs ps := by
  unfold loopCorrected
  split
  · exact h
  · split
    · split
      · exact .onBal (elsewhere_keepMapping hp hb) hb
      · exact hp
    · exact .onBal hp hb

theorem loopCorrected_crossings {begun : Bool} {p : Int × State} (h : crossingsOf p.2.bal = crossingsOf s.bal) :
    crossingsOf (loopCorrected s begun p).bal = crossingsOf s.bal := by
  unfold loopCorrected
  split
  · rfl
  · split
    · split <;> exact h
    · exact h

theorem acceptLocked_frame (k : Nat) (e : Int) (begun : Bool) :
    (crossingRead s e).elsewhere (acceptLocked s k e begun) [Reg.BAL_PERIOD_period, Reg.BAL_STATUS_slewing] [] [.bal] := by
  have counted : (crossingRead s e).elsewhere (lockedCounted s k e) [Reg.BAL_PERIOD_period, Reg.BAL_STATUS_slewing] [] [.bal] :=
    .onBal (elsewhere_refl ..)
  exact loopCorrected_frame counted (elsewhere_trans counted (loopUpdate_frame e 0))

theorem acceptLocked_crossings (k : Nat) (e : Int) (begun : Bool) :
    crossingsOf (acceptLocked s k e begun).bal = (some k, 0, s.bal.lastZc, s.bal.lastAin) := by
  rw [acceptLocked_eq, loopCorrected_crossings (loopUpdate_crossings e 0)]
  rfl

theorem sitePhaseApply_frame : s.elsewhere (sitePhaseApply s).2 [] [] [.bal, .inForce] := by
  have applied := State.elsewhere.takeEffect (l := [Reg.BAL_SITE_PHASE_site_phase]) (elsewhere_refl s [] [] [.bal, .inForce])
  unfold sitePhaseApply
  dsimp only
  split
  · split
    · exact applied
    · exact .onBal (.takeEffect (elsewhere_keepMapping (elsewhere_refl ..)))
  · exact applied

theorem sitePhaseApply_cur : (sitePhaseApply s).2.cur Reg.BAL_SITE_PHASE_site_phase = s.get Reg.BAL_SITE_PHASE_site_phase := by
  unfold sitePhaseApply
  dsimp only
  split
  · split <;> exact takeEffect_cur _ (List.mem_singleton.2 rfl)
  · exact takeEffect_cur _ (List.mem_singleton.2 rfl)

theorem sitePhaseApply_crossings : crossingsOf (sitePhaseApply s).2.bal = crossingsOf s.bal ∧ (sitePhaseApply s).2.bal.setZc = s.bal.setZc := by
  unfold sitePhaseApply
  dsimp only
  split
  · split <;> exact ⟨rfl, rfl⟩
  · exact ⟨rfl, rfl⟩

theorem decidePhase_frame (e : Int) : s.elsewhere (decidePhase s e) [Reg.BAL_STATUS_slewing] [] [.bal] :=
  elsewhere_ite (fun _ => .onBal (.set (elsewhere_refl ..))) (fun _ => .onBal (elsewhere_refl ..))

theorem siteError_frame (x : Int) : s.elsewhere (siteError s x) [Reg.BAL_STATUS_slewing] [] [.bal] :=
  elsewhere_ite (fun _ => elsewhere_refl ..)
    (fun _ => elsewhere_trans (.onBal (elsewhere_refl ..)) (decidePhase_frame _))

theorem decidePhase_crossings (e : Int) : crossingsOf (decidePhase s e).bal = crossingsOf s.bal := by
  unfold decidePhase
  split <;> rfl

theorem siteError_crossings (x : Int) : crossingsOf (siteError s x).bal = crossingsOf s.bal := by
  unfold siteError
  split
  · rfl
  · exact decidePhase_crossings _

/-! A crossing that is tested -/

/-- An accepted crossing in LOCKED, of the start of cycle `k` (R49, R53, R57). -/
def crossingAccepted (s : State) (z : Int) (ain : Bool) (k : Nat) (e : Int) : State :=
  let p := sitePhaseApply (acceptLocked (crossingNoted s z ain) k e true)
  siteError p.2 p.1

/-- A crossing that joins the consistent set `set` of its input (R47, R52). -/
def crossingJoined (s : State) (z : Int) (ain : Bool) (e : Int) (set : List Int) : Int × State :=
  sitePhaseApply ((crossingRead (crossingNoted s z ain) e).onBal (fun b =>
    if ain then { b with setAin := set } else { b with setZc := set }))

/-- A crossing of the input in use (R48) in the frequency range (R50): in LOCKED the accept window says whether it is accepted,
otherwise it joins the consistent set, which may be complete (R47, R52). -/
theorem crossing_tested {z : Int} {ain : Bool} (cycles : s.bal.cycles = c :: r) (on : s.get Reg.BAL_STATUS_state ≠ 0)
    (own : s.get Reg.BAL_GRID_CFG_source ≠ if ain then 0 else 1)
    (used : s.get Reg.BAL_STATUS_state = 2 → s.get Reg.BAL_GRID_CFG_source = 2 → s.on Reg.BAL_STATUS_source_act = ain)
    (range : inRange s (if ain then s.bal.lastAin else s.bal.lastZc) z = true) (near : 2 * (z - c.s) ≤ c.len) :
    crossing s z ain =
      if s.get Reg.BAL_STATUS_state = 2 then
        if (z - c.s).natAbs ≤ s.get Reg.BAL_LOCK_CFG_window * 1000 then crossingAccepted s z ain c.k (z - c.s)
        else (crossingRanged s).bump Reg.BAL_CNT_ZC_REJ
      else
        let set := consistentSet (crossingRanged s) (if ain then s.bal.setAin else s.bal.setZc) z
        let p := crossingJoined s z ain (z - c.s) set
        if max 2 (p.2.get Reg.BAL_GRID_CFG_rl_count) ≤ set.length then
          lockAcquired p.2 ain set (z - c.s - p.1) c.k false else p.2 := by
  have first : s.bal.cycles.head? = some c := by rw [cycles]; rfl
  have nearest : nearestStart c z = (c.k, c.s, true) := if_pos near
  unfold crossing
  have own' : ¬(balOff s || s.get Reg.BAL_GRID_CFG_source == 0 && ain || s.get Reg.BAL_GRID_CFG_source == 1 && !ain) = true := by
    cases ain <;> simp_all [balOff]
  have notZc : ¬(s.get Reg.BAL_STATUS_state == 2 && s.get Reg.BAL_GRID_CFG_source == 2 && ain &&
      !s.on Reg.BAL_STATUS_source_act) = true := by
    cases ain <;> simp_all
  have notAin : ¬(s.get Reg.BAL_STATUS_state == 2 && s.get Reg.BAL_GRID_CFG_source == 2 && !ain &&
      s.on Reg.BAL_STATUS_source_act) = true := by
    cases ain <;> simp_all
  rw [first]
  dsimp only
  rw [nearest]
  dsimp only
  rw [if_neg own', if_neg notZc, if_neg notAin, if_neg (by simp [range])]
  simp only [beq_iff_eq, decide_eq_true_eq]
  rfl

/-- What an accepted crossing changes once it is counted. -/
theorem crossingAccepted_after {z : Int} {ain : Bool} {k : Nat} {e : Int} : (crossingRead (crossingNoted s z ain) e).elsewhere
    (crossingAccepted s z ain k e) [Reg.BAL_PERIOD_period, Reg.BAL_STATUS_slewing] [] [.bal, .inForce] := by
  have looped := elsewhere_mono (ps' := [.bal, .inForce]) (acceptLocked_frame (s := crossingNoted s z ain) k e true)
    (fun _ => id) (fun _ => id) (by simp)
  have applied := elsewhere_mono (fs' := [Reg.BAL_PERIOD_period, Reg.BAL_STATUS_slewing])
    (sitePhaseApply_frame (s := acceptLocked (crossingNoted s z ain) k e true)) (by simp) (fun _ => id) (fun _ => id)
  have corrected := elsewhere_mono (fs' := [Reg.BAL_PERIOD_period, Reg.BAL_STATUS_slewing]) (ps' := [.bal, .inForce])
    (siteError_frame (s := (sitePhaseApply (acceptLocked (crossingNoted s z ain) k e true)).2)
      (sitePhaseApply (acceptLocked (crossingNoted s z ain) k e true)).1) (by simp) (fun _ => id) (by simp)
  exact elsewhere_trans looped (elsewhere_trans applied corrected)

theorem crossingAccepted_frame {z : Int} {ain : Bool} {k : Nat} {e : Int} (h : s.elsewhere v [Reg.BAL_STATUS_freq_range_err,
    Reg.BAL_PHASE_ERR_phase_err, Reg.BAL_PERIOD_period, Reg.BAL_STATUS_slewing] [Reg.BAL_CNT_ZC_ACC] [.bal, .inForce]) :
    s.elsewhere (crossingAccepted v z ain k e) [Reg.BAL_STATUS_freq_range_err, Reg.BAL_PHASE_ERR_phase_err,
      Reg.BAL_PERIOD_period, Reg.BAL_STATUS_slewing] [Reg.BAL_CNT_ZC_ACC] [.bal, .inForce] :=
  elsewhere_trans (.sset (.bump (.onBal (.onBal (.set h)))))
    (elsewhere_mono crossingAccepted_after (by simp +contextual) (by simp) (fun _ => id))

/-- What an accepted crossing leaves to be read. -/
theorem crossingAccepted_leaves {z : Int} {ain : Bool} {k : Nat} {e : Int} :
    (crossingAccepted s z ain k e).cur Reg.BAL_SITE_PHASE_site_phase = s.get Reg.BAL_SITE_PHASE_site_phase ∧
    (crossingAccepted s z ain k e).count Reg.BAL_CNT_ZC_ACC = (s.count Reg.BAL_CNT_ZC_ACC + 1) % 2 ^ 32 ∧
    crossingsOf (crossingAccepted s z ain k e).bal =
      (some k, 0, if ain then s.bal.lastZc else some z, if ain then some z else s.bal.lastAin) ∧
    (crossingAccepted s z ain k e).get Reg.BAL_STATUS_freq_range_err = 0 ∧
    (crossingAccepted s z ain k e).get Reg.BAL_PHASE_ERR_phase_err = unsigned 32 e % 2 ^ 32 := by
  have after := crossingAccepted_after (s := s) (z := z) (ain := ain) (k := k) (e := e)
  refine ⟨?_, ?_, ?_, ?_, ?_⟩
  · have applied := acceptLocked_frame (s := crossingNoted s z ain) k e true
    rw [crossingAccepted, (siteError_frame _).cur _ (by decide) (by decide) (by decide) (by decide), sitePhaseApply_cur,
      applied.1 _ (by decide) (by decide)]
    simp (disch := decide) [crossingRead, crossingNoted, crossingRanged, State.get_sset_ne, State.get_set_ne]
  · rw [after.2.1 _ (by decide) (by decide)]
    exact (State.count_bumpBy ..).trans (if_pos rfl)
  · rw [crossingAccepted, siteError_crossings, sitePhaseApply_crossings.1, acceptLocked_crossings]
    cases ain <;> rfl
  · rw [after.1 _ (by decide) (by decide)]
    simp (disch := decide) [crossingRead, crossingNoted, crossingRanged, State.get_sset_ne]
  · rw [after.1 _ (by decide) (by decide)]
    exact State.get_sset_self ..

/-- An accepted crossing in LOCKED, of either input: what GRID_ZC_EDGE and GRID_AIN_CROSSING change and leave. -/
theorem accepted_changes {i : Instr} {f : State → State} {z : Int} {ain : Bool} (e : exec i s = act t s f) (h : s.settled)
    (effect : f (s.begin t) = crossing (s.begin t) z ain) (cycles : s.bal.cycles = c :: r)
    (locked : s.get Reg.BAL_STATUS_state = 2)
    (source : s.get Reg.BAL_GRID_CFG_source = (if ain then 1 else 0) ∨
      s.get Reg.BAL_GRID_CFG_source = 2 ∧ s.on Reg.BAL_STATUS_source_act = ain)
    (range : inRange s (if ain then s.bal.lastAin else s.bal.lastZc) z = true) (near : 2 * (z - c.s) ≤ c.len)
    (within : (z - c.s).natAbs ≤ s.get Reg.BAL_LOCK_CFG_window * 1000) :
    changes i s [Reg.BAL_STATUS_freq_range_err, Reg.BAL_PHASE_ERR_phase_err, Reg.BAL_PERIOD_period, Reg.BAL_STATUS_slewing]
      [Reg.BAL_CNT_ZC_ACC] [.bal, .inForce] (fun u =>
      u.cur Reg.BAL_SITE_PHASE_site_phase = s.get Reg.BAL_SITE_PHASE_site_phase ∧
      u.count Reg.BAL_CNT_ZC_ACC = (s.count Reg.BAL_CNT_ZC_ACC + 1) % 2 ^ 32 ∧ u.bal.miss = 0 ∧ u.bal.accepted = some c.k ∧
      (if ain then u.bal.lastAin else u.bal.lastZc) = some z ∧ u.get Reg.BAL_STATUS_freq_range_err = 0 ∧
      u.get Reg.BAL_PHASE_ERR_phase_err = unsigned 32 (z - c.s) % 2 ^ 32) := by
  have tested : crossing (s.begin t) z ain = crossingAccepted (s.begin t) z ain c.k (z - c.s) := by
    rw [crossing_tested (s := s.begin t) cycles]
    · exact (if_pos locked).trans (if_pos within)
    · exact fun off => absurd (locked.symm.trans off) (by decide)
    · rcases source with own | auto
      · exact fun other => by cases ain <;> simp_all
      · exact fun other => by cases ain <;> simp_all
    · intro _ auto
      rcases source with own | act
      · exact absurd (own.symm.trans auto) (by cases ain <;> decide)
      · exact act.2
    · exact range
    · exact near
  refine changes_of e (effect.trans tested) h (crossingAccepted_frame (.start s t)) (fun u kept => ?_)
  obtain ⟨phase, counted, crossings, rangeErr, err⟩ :=
    crossingAccepted_leaves (s := s.begin t) (z := z) (ain := ain) (k := c.k) (e := z - c.s)
  obtain ⟨accepted, miss, zc, ain'⟩ : _ ∧ _ ∧ _ ∧ _ := by simpa [crossingsOf] using crossings
  rw [kept.cur _ (by decide) (by decide), kept.count _ (by decide), kept.bal, kept.get _ (by decide), kept.get _ (by decide)]
  refine ⟨phase, counted, miss, accepted, ?_, rangeErr, err⟩
  cases ain
  · exact zc
  · exact ain'

/-- The instant of a crossing at GRID_ZC is that of its edge less zc_delay (R47). -/
theorem gridZcEdge_chosen {rising : Bool} (chosen : rising ≠ s.on Reg.BAL_GRID_CFG_zc_invert) :
    gridZcEdge s rising = crossing s ((s.ltb : Int) - s.get Reg.BAL_ZC_DELAY_zc_delay) false := by
  unfold gridZcEdge
  rw [if_neg (by simpa using chosen)]

theorem gridZcEdge_accepted (rising : Bool) (e : Int) (h : s.settled) (cycles : s.bal.cycles = c :: r)
    (locked : s.get Reg.BAL_STATUS_state = 2)
    (source : s.get Reg.BAL_GRID_CFG_source = 0 ∨ s.get Reg.BAL_GRID_CFG_source = 2 ∧ s.get Reg.BAL_STATUS_source_act = 0)
    (chosen : rising ≠ s.on Reg.BAL_GRID_CFG_zc_invert)
    (range : inRange s s.bal.lastZc ((max s.ltb t : Nat) - (s.get Reg.BAL_ZC_DELAY_zc_delay : Int)) = true)
    (err : e = (max s.ltb t : Nat) - (s.get Reg.BAL_ZC_DELAY_zc_delay : Int) - c.s) (near : 2 * e ≤ c.len)
    (within : e.natAbs ≤ s.get Reg.BAL_LOCK_CFG_window * 1000) :
    changes (.gridZcEdge t rising) s [Reg.BAL_STATUS_freq_range_err, Reg.BAL_PHASE_ERR_phase_err,
      Reg.BAL_PERIOD_period, Reg.BAL_STATUS_slewing] [Reg.BAL_CNT_ZC_ACC] [.bal, .inForce] (fun u =>
      u.cur Reg.BAL_SITE_PHASE_site_phase = s.get Reg.BAL_SITE_PHASE_site_phase ∧
      u.count Reg.BAL_CNT_ZC_ACC = (s.count Reg.BAL_CNT_ZC_ACC + 1) % 2 ^ 32 ∧ u.bal.miss = 0 ∧
      u.bal.accepted = some c.k ∧ u.bal.lastZc = some ((max s.ltb t : Nat) - (s.get Reg.BAL_ZC_DELAY_zc_delay : Int))
      ∧ u.get Reg.BAL_STATUS_freq_range_err = 0 ∧ u.get Reg.BAL_PHASE_ERR_phase_err = unsigned 32 e % 2 ^ 32) := by
  subst err
  exact accepted_changes (f := fun s => gridZcEdge s rising) (ain := false) rfl h (gridZcEdge_chosen (s := s.begin t) chosen) cycles
    locked (source.imp id (And.imp id State.on_eq_false.2)) range near within

theorem gridAinCrossing_accepted (t1 : Nat) (s1 s2 lo hi e : Int) (h : s.settled) (cycles : s.bal.cycles = c :: r)
    (locked : s.get Reg.BAL_STATUS_state = 2)
    (source : s.get Reg.BAL_GRID_CFG_source = 1 ∨ s.get Reg.BAL_GRID_CFG_source = 2 ∧ s.get Reg.BAL_STATUS_source_act ≠ 0)
    (range : inRange s s.bal.lastAin (e + c.s) = true) (below : s1 < 0) (above : 0 ≤ s2)
    (low : lo < -(s.get Reg.BAL_AIN_CFG_hyst : Int)) (high : (s.get Reg.BAL_AIN_CFG_hyst : Int) < hi)
    (err : e = (t1 : Int) + (-s1) * 10000 / (s2 - s1) - 12000 - (s.get Reg.BAL_ZC_DELAY_zc_delay : Int) - c.s)
    (near : 2 * e ≤ c.len) (within : e.natAbs ≤ s.get Reg.BAL_LOCK_CFG_window * 1000) :
    changes (.gridAinCrossing t t1 s1 s2 lo hi) s [Reg.BAL_STATUS_freq_range_err, Reg.BAL_PHASE_ERR_phase_err,
      Reg.BAL_PERIOD_period, Reg.BAL_STATUS_slewing] [Reg.BAL_CNT_ZC_ACC] [.bal, .inForce] (fun u =>
      u.cur Reg.BAL_SITE_PHASE_site_phase = s.get Reg.BAL_SITE_PHASE_site_phase ∧
      u.count Reg.BAL_CNT_ZC_ACC = (s.count Reg.BAL_CNT_ZC_ACC + 1) % 2 ^ 32 ∧ u.bal.miss = 0 ∧
      u.bal.accepted = some c.k ∧ u.bal.lastAin = some (e + c.s) ∧ u.get Reg.BAL_STATUS_freq_range_err = 0 ∧
      u.get Reg.BAL_PHASE_ERR_phase_err = unsigned 32 e % 2 ^ 32) := by
  have effect : gridAinCrossing (s.begin t) t1 s1 s2 lo hi = crossing (s.begin t) (e + c.s) true := by
    rw [err, sub_add_cancel]
    exact if_pos ⟨below, above, low, high⟩
  have back : e + c.s - c.s = e := add_sub_cancel_right ..
  have accepted := accepted_changes (f := fun s => gridAinCrossing s t1 s1 s2 lo hi) (t := t) (i := .gridAinCrossing t t1 s1 s2 lo hi)
    (ain := true) rfl h effect cycles locked (source.imp id (And.imp id State.on_iff.2)) range
  rw [back] at accepted
  exact accepted near within

theorem crossingJoined_frame {z e : Int} {ain : Bool} {set : List Int} (h : s.elsewhere v [Reg.BAL_STATUS_freq_range_err,
    Reg.BAL_PHASE_ERR_phase_err] [Reg.BAL_CNT_ZC_ACC] [.bal, .inForce]) : s.elsewhere (crossingJoined v z ain e set).2
      [Reg.BAL_STATUS_freq_range_err, Reg.BAL_PHASE_ERR_phase_err] [Reg.BAL_CNT_ZC_ACC] [.bal, .inForce] :=
  elsewhere_trans (.onBal (.sset (.bump (.onBal (.onBal (.set h))))))
    (elsewhere_mono sitePhaseApply_frame (by simp) (by simp) (fun _ => id))

theorem consistentSet_ranged (set : List Int) (z : Int) : consistentSet (crossingRanged s) set z = consistentSet s set z := by
  unfold consistentSet nominalNs crossingRanged State.on
  simp (disch := decide) only [State.onBal_get, State.get_set_ne]

/-- Not LOCKED, a crossing at GRID_ZC that does not complete the consistent set joins it, or begins it anew (R47, R52). -/
theorem crossing_joined {z : Int} (cycles : s.bal.cycles = c :: r) (on : s.get Reg.BAL_STATUS_state ≠ 0)
    (free : s.get Reg.BAL_STATUS_state ≠ 2) (source : s.get Reg.BAL_GRID_CFG_source ≠ 1) (range : inRange s s.bal.lastZc z = true)
    (near : 2 * (z - c.s) ≤ c.len) (few : (consistentSet s s.bal.setZc z).length < max 2 (s.get Reg.BAL_GRID_CFG_rl_count)) :
    crossing s z false = (crossingJoined s z false (z - c.s) (consistentSet s s.bal.setZc z)).2 := by
  have count : (crossingJoined s z false (z - c.s) (consistentSet s s.bal.setZc z)).2.get Reg.BAL_GRID_CFG_rl_count =
      s.get Reg.BAL_GRID_CFG_rl_count := (crossingJoined_frame (elsewhere_refl ..)).1 _ (by decide) (by decide)
  rw [crossing_tested (ain := false) cycles on source (fun two => absurd two free) range near, if_neg free]
  simp only [Bool.false_eq_true, if_false, consistentSet_ranged, count]
  exact if_neg (Nat.not_le.2 few)

theorem gridZcEdge_joined (rising : Bool) (z : Int) (h : s.settled) (cycles : s.bal.cycles = c :: r)
    (on : 1 ≤ s.get Reg.BAL_STATUS_state) (free : s.get Reg.BAL_STATUS_state ≠ 2) (source : s.get Reg.BAL_GRID_CFG_source ≠ 1)
    (chosen : rising ≠ s.on Reg.BAL_GRID_CFG_zc_invert)
    (instant : z = (max s.ltb t : Nat) - (s.get Reg.BAL_ZC_DELAY_zc_delay : Int)) (range : inRange s s.bal.lastZc z = true)
    (near : 2 * (z - c.s) ≤ c.len)
    (few : (consistentSet s s.bal.setZc z).length < max 2 (s.get Reg.BAL_GRID_CFG_rl_count)) :
    changes (.gridZcEdge t rising) s [Reg.BAL_STATUS_freq_range_err, Reg.BAL_PHASE_ERR_phase_err]
      [Reg.BAL_CNT_ZC_ACC] [.bal, .inForce] (fun u =>
      u.count Reg.BAL_CNT_ZC_ACC = (s.count Reg.BAL_CNT_ZC_ACC + 1) % 2 ^ 32 ∧ u.bal.lastZc = some z ∧
      u.bal.setZc = consistentSet s s.bal.setZc z ∧
      u.get Reg.BAL_PHASE_ERR_phase_err = unsigned 32 (z - c.s) % 2 ^ 32) := by
  have joined : crossing (s.begin t) z false = (crossingJoined (s.begin t) z false (z - c.s) (consistentSet s s.bal.setZc z)).2 :=
    crossing_joined (s := s.begin t) cycles (Nat.ne_of_gt on) free source range near few
  have effect : gridZcEdge (s.begin t) rising = crossing (s.begin t) z false := by
    rw [instant]
    exact gridZcEdge_chosen (s := s.begin t) chosen
  refine changes_of (f := fun s => gridZcEdge s rising) rfl (effect.trans joined) h (crossingJoined_frame (.start s t))
    (fun u kept => ?_)
  have applied := sitePhaseApply_crossings (s := (crossingRead (crossingNoted (s.begin t) z false) (z - c.s)).onBal (fun b =>
    if false then { b with setAin := consistentSet s s.bal.setZc z } else { b with setZc := consistentSet s s.bal.setZc z }))
  have frame := sitePhaseApply_frame (s := (crossingRead (crossingNoted (s.begin t) z false) (z - c.s)).onBal (fun b =>
    if false then { b with setAin := consistentSet s s.bal.setZc z } else { b with setZc := consistentSet s s.bal.setZc z }))
  obtain ⟨crossings, set⟩ := applied
  obtain ⟨-, -, zc, -⟩ : _ ∧ _ ∧ _ ∧ _ := by simpa [crossingsOf] using crossings
  rw [kept.count _ (by decide), kept.bal, kept.get _ (by decide)]
  refine ⟨(frame.2.1 _ (by decide) (by decide)).trans ?_, zc, set, (frame.1 _ (by decide) (by decide)).trans ?_⟩
  · exact (State.count_bumpBy ..).trans (if_pos rfl)
  · exact State.get_sset_self ..

theorem gridZcEdge_rejected (rising : Bool) (z : Int) (h : s.settled) (cycles : s.bal.cycles = c :: r)
    (locked : s.get Reg.BAL_STATUS_state = 2) (source : s.get Reg.BAL_GRID_CFG_source = 0)
    (chosen : rising ≠ s.on Reg.BAL_GRID_CFG_zc_invert)
    (instant : z = (max s.ltb t : Nat) - (s.get Reg.BAL_ZC_DELAY_zc_delay : Int)) (range : inRange s s.bal.lastZc z = true)
    (near : 2 * (z - c.s) ≤ c.len) (outside : s.get Reg.BAL_LOCK_CFG_window * 1000 < (z - c.s).natAbs) :
    changes (.gridZcEdge t rising) s [Reg.BAL_STATUS_freq_range_err] [Reg.BAL_CNT_ZC_REJ] [.bal] (fun u =>
      u.count Reg.BAL_CNT_ZC_REJ = (s.count Reg.BAL_CNT_ZC_REJ + 1) % 2 ^ 32 ∧ u.bal.accepted = s.bal.accepted) := by
  have rejected : crossing (s.begin t) z false = (crossingRanged (s.begin t)).bump Reg.BAL_CNT_ZC_REJ := by
    rw [crossing_tested (s := s.begin t) (ain := false) cycles (fun off => absurd (locked.symm.trans off) (by decide))
      (fun one => absurd (source.symm.trans one) (by decide)) (fun _ two => absurd (source.symm.trans two) (by decide)) range near]
    exact (if_pos locked).trans (if_neg (Nat.not_le.2 outside))
  have effect : gridZcEdge (s.begin t) rising = crossing (s.begin t) z false := by
    rw [instant]
    exact gridZcEdge_chosen (s := s.begin t) chosen
  refine changes_of (f := fun s => gridZcEdge s rising) rfl (effect.trans rejected) h (.bump (.onBal (.set (.start s t))))
    (fun u kept => ?_)
  rw [kept.count _ (by decide), kept.bal]
  exact ⟨(State.count_bumpBy ..).trans (if_pos rfl), rfl⟩

theorem crossingMissed_leads (h : s.settled) (cycles : s.bal.cycles = c :: r) (locked : s.get Reg.BAL_STATUS_state = 2)
    (open_ : s.bal.accepted ≠ some c.k) (new : s.bal.missed ≠ some c.k)
    (closed : c.s + s.get Reg.BAL_LOCK_CFG_window * 1000 ≤ (max s.ltb t : Nat))
    (few : s.bal.miss + 1 < s.get Reg.BAL_GRID_CFG_miss_limit) :
    leadsTo (.crossingMissed t) s ((s.now t).onBal (fun b => { b with
      missed := some c.k, miss := b.miss + 1, ainAll := b.ainAll && b.ainSeen == some c.k })) := by
  have first : (s.begin t).bal.cycles.head? = some c := congrArg List.head? cycles
  have missed : ¬((s.begin t).get Reg.BAL_STATUS_state != 2 || (s.begin t).bal.accepted == some c.k ||
      (s.begin t).bal.missed == some c.k ||
      decide (((s.begin t).ltb : Int) < c.s + (s.begin t).get Reg.BAL_LOCK_CFG_window * 1000)) = true := by
    change ¬(s.get Reg.BAL_STATUS_state != 2 || s.bal.accepted == some c.k || s.bal.missed == some c.k ||
      decide (((max s.ltb t : Nat) : Int) < c.s + s.get Reg.BAL_LOCK_CFG_window * 1000)) = true
    simp [locked, open_, new, -Nat.cast_max, closed]
  have below : s.bal.miss + 1 < atLeast1 (s.get Reg.BAL_GRID_CFG_miss_limit) := by
    rw [atLeast1, if_neg (by omega)]
    exact few
  refine leadsTo_now (f := crossingMissed) rfl h ?_
  unfold crossingMissed
  rw [first]
  dsimp only
  rw [if_neg missed]
  exact if_pos below

/-! CYCLE_START -/

/-- In LOCKED the length of a cycle is the loop's, or a slew's (R49, R53). -/
theorem newLength_frame (oldLen : Int) (locked : s.get Reg.BAL_STATUS_state = 2) :
    s.elsewhere (newLength s oldLen).2 [Reg.BAL_STATUS_slewing] [] [.bal] := by
  unfold newLength
  dsimp only
  split
  · exact .onBal (elsewhere_refl ..)
  · split
    · exact .setb (.onBal (elsewhere_refl ..))
    · split
      · exact elsewhere_refl ..
      · rw [if_neg (fun hold => absurd (locked.symm.trans hold.1) (by decide))]
        exact elsewhere_refl ..

theorem elsewhere_ttPassed {a : Nat} (h : s.elsewhere v fs cs ps) (hp : .bal ∈ ps := by simp) :
    s.elsewhere (ttPassed v a) fs cs ps :=
  elsewhere_foldl _ h (fun _ _ _ k => elsewhere_ite (fun _ => .setTt k hp) (fun _ => k))

/-- The hidden state of the cycles that a late trigger leaves. -/
theorem ttPassed_same {α : Type} (g : State → α) (keep : ∀ v n x, g (v.setTt n x) = g v) (s : State) (a : Nat) :
    g (ttPassed s a) = g s := by
  unfold ttPassed
  refine foldl_same g _ s (fun v n => ?_)
  dsimp only
  split
  · exact keep ..
  · rfl

/-- A cycle start takes the count loaded, which CYC_FORCE asked for or the write before the lock (R56). -/
def cycleLoads (s : State) : Bool := s.bal.cycForce || s.bal.cycPend && s.get Reg.BAL_STATUS_state == 1

/-- The count of the cycle after `c`. -/
def cycleCount (s : State) (c : Cycle) : Nat := if cycleLoads s then s.get Reg.BAL_CYC_LOAD_cyc_load else (c.k + 1) % 2 ^ 32

/-- A loaded count is valid, and may pass over armed targets (R56). -/
def countLoaded (s : State) (load jump : Bool) : State :=
  let s := if load then s.set Reg.BAL_STATUS_cyc_valid 1 else s
  if load && jump then ttPassed s (liveAngle s) else s

/-- A change to GRID_AIN that AUTO has decided comes at the cycle start (R48). -/
def sourceSwitched (s : State) : State :=
  if s.bal.autoSwitch then
    ((s.set Reg.BAL_STATUS_source_act 1).onBal (fun b =>
      { b with autoSwitch := false, miss := 0, ainAll := true, zcGood := 0 })).raise 37
  else s

/-- CYCLE_START, where the current cycle is over: the next one is in front. -/
theorem cycleStart_acts (cycles : s.bal.cycles = c :: r) (on : s.get Reg.BAL_STATUS_state ≠ 0) (going : s.bal.stall = none)
    (due : c.s + c.len ≤ (s.ltb : Int)) : ∃ f : Bal → Bal,
      (∀ b, (f b).cycles = ⟨cycleCount s c, c.s + c.len, (newLength s c.len).1⟩ :: (c :: r).take 15 ∧ (f b).cycForce = false) ∧
      cycleStart s = sourceSwitched (countLoaded ((newLength s c.len).2.keepMapping.onBal f) (cycleLoads s)
        (cycleCount s c != (c.k + 1) % 2 ^ 32)) := by
  have acts : ¬(balOff s || s.bal.stall.isSome || decide ((s.ltb : Int) < c.s + c.len)) = true := by simp [balOff, on, going, due]
  unfold cycleStart
  rw [cycles]
  dsimp only
  rw [if_neg acts]
  generalize newLength s c.len = p
  refine ⟨_, ?_, rfl⟩
  exact fun b => ⟨rfl, rfl⟩

theorem countLoaded_same {α : Type} (g : State → α) (tt : ∀ v n x, g (v.setTt n x) = g v)
    (valid : ∀ v, g (v.set Reg.BAL_STATUS_cyc_valid 1) = g v) (s : State) (load jump : Bool) : g (countLoaded s load jump) = g s := by
  unfold countLoaded
  dsimp only
  split
  · rw [ttPassed_same g tt]
    split
    · exact valid s
    · rfl
  · split
    · exact valid s
    · rfl

theorem sourceSwitched_cycles : (sourceSwitched s).bal.cycles = s.bal.cycles ∧ (sourceSwitched s).bal.cycForce = s.bal.cycForce := by
  unfold sourceSwitched
  split
  · rw [State.raise_bal]
    exact ⟨rfl, rfl⟩
  · exact ⟨rfl, rfl⟩

/-- A loaded count is valid. -/
theorem countLoaded_valid (s : State) (jump : Bool) : (countLoaded s true jump).get Reg.BAL_STATUS_cyc_valid = 1 := by
  have valid : (s.set Reg.BAL_STATUS_cyc_valid 1).get Reg.BAL_STATUS_cyc_valid = 1 := State.get_set_self ..
  unfold countLoaded
  dsimp only
  split
  · exact (ttPassed_same (fun v => v.get Reg.BAL_STATUS_cyc_valid) (fun _ _ _ => rfl) _ _).trans valid
  · exact valid

theorem elsewhere_countLoaded {load jump : Bool} (h : s.elsewhere v fs cs ps) (hb : .bal ∈ ps)
    (hf : load = true → Reg.BAL_STATUS_cyc_valid.key ∈ fs.map Fld.key) : s.elsewhere (countLoaded v load jump) fs cs ps := by
  have loaded := elsewhere_ite (p := load = true) (fun l => State.elsewhere.set (x := 1) h (hf l)) (fun _ => h)
  exact elsewhere_ite (fun _ => elsewhere_ttPassed loaded hb) (fun _ => loaded)

theorem elsewhere_sourceSwitched (h : s.elsewhere v fs cs ps) (hb : .bal ∈ ps)
    (hf : Reg.BAL_STATUS_source_act.key ∈ fs.map Fld.key) : s.elsewhere (sourceSwitched v) fs cs ps :=
  elsewhere_ite (fun _ => .raise (.onBal (.set h hf) hb)) (fun _ => h)

/-- A cycle start in LOCKED: the next cycle is in front, and no more has changed than the length, the count's validity where one
is loaded, and AUTO's source. -/
theorem cycleStart_locked (cycles : s.bal.cycles = c :: r) (locked : s.get Reg.BAL_STATUS_state = 2) (going : s.bal.stall = none)
    (due : c.s + c.len ≤ (s.ltb : Int)) :
    ((cycleStart s).bal.cycles = ⟨cycleCount s c, c.s + c.len, (newLength s c.len).1⟩ :: (c :: r).take 15 ∧
      (cycleStart s).bal.cycForce = false ∧ (cycleLoads s = true → (cycleStart s).get Reg.BAL_STATUS_cyc_valid = 1)) ∧
    s.elsewhere (cycleStart s) (Reg.BAL_STATUS_slewing :: Reg.BAL_STATUS_source_act ::
      if cycleLoads s then [Reg.BAL_STATUS_cyc_valid] else []) [] [.bal] := by
  obtain ⟨f, turned, acts⟩ := cycleStart_acts cycles (fun off => absurd (locked.symm.trans off) (by decide)) going due
  rw [acts]
  constructor
  · rw [sourceSwitched_cycles.1, sourceSwitched_cycles.2, countLoaded_same (fun v => v.bal.cycles) (fun _ _ _ => rfl) (fun _ => rfl),
      countLoaded_same (fun v => v.bal.cycForce) (fun _ _ _ => rfl) (fun _ => rfl)]
    refine ⟨(turned _).1, (turned _).2, fun load => ?_⟩
    have switched := elsewhere_sourceSwitched (elsewhere_refl (countLoaded ((newLength s c.len).2.keepMapping.onBal f) (cycleLoads s)
      (cycleCount s c != (c.k + 1) % 2 ^ 32)) [Reg.BAL_STATUS_source_act] [] [.bal]) (by simp) (by simp)
    rw [switched.1 _ (by decide) (by decide), load]
    exact countLoaded_valid ..
  · have len := elsewhere_mono (fs' := Reg.BAL_STATUS_slewing :: Reg.BAL_STATUS_source_act ::
      if cycleLoads s then [Reg.BAL_STATUS_cyc_valid] else []) (newLength_frame c.len locked) (by simp) (fun _ => id) (fun _ => id)
    refine elsewhere_sourceSwitched (elsewhere_countLoaded (.onBal (elsewhere_keepMapping len)) (by simp) (fun load => ?_)) (by simp)
      (by simp)
    simp [load]

theorem elsewhere_beaconsLate {w : State} (h : s.elsewhere v fs cs ps) (hc : Reg.AMC_CNT_EB_SKIP ∈ cs := by simp)
    (hp : .amc ∈ ps := by simp) : s.elsewhere (beaconsLate w v) fs cs ps :=
  elsewhere_foldl _ h (fun _ _ _ k => elsewhere_ite (fun _ => .raise (.bump (.onAmc k hp) (.inl hc))) (fun _ => k))

theorem elsewhere_decisionsLate {w : Nat} (h : s.elsewhere v fs cs ps) (hc : Reg.ESC_CNT_SLOT_LATE ∈ cs := by simp)
    (hp : .esc ∈ ps := by simp) : s.elsewhere (decisionsLate v w) fs cs ps :=
  elsewhere_ite (fun _ => h)
    (fun _ => elsewhere_foldl _ h (fun _ _ _ k => elsewhere_ite (fun _ => k) (fun _ => .bump (.onEsc k hp) (.inl hc))))

theorem elsewhere_angleSkipped {w : State} (h : s.elsewhere v fs cs ps)
    (hc : Reg.AMC_CNT_EB_SKIP ∈ cs ∧ Reg.ESC_CNT_SLOT_LATE ∈ cs := by simp) (hp : .amc ∈ ps ∧ .esc ∈ ps := by simp) :
    s.elsewhere (angleSkipped w v) fs cs ps := elsewhere_decisionsLate (elsewhere_beaconsLate h hc.1 hp.1) hc.2 hp.2

/-- The length in LOCKED: the one corrected ahead, or the loop's and the part of a slew that a cycle takes (R49, R53). -/
def lockedLength (b : Bal) (lim : Int) : Int :=
  match b.nextLen with
  | some l => l
  | none => if b.slew ≠ 0 then b.p / 128 + clampInt (-lim) lim b.slew else b.p / 128

theorem newLength_locked (oldLen : Int) (locked : s.get Reg.BAL_STATUS_state = 2) :
    (newLength s oldLen).1 = lockedLength s.bal (slewLim s) := by
  unfold newLength lockedLength
  dsimp only
  cases s.bal.nextLen with
  | some l => rfl
  | none =>
    by_cases slews : s.bal.slew = 0
    · dsimp only
      rw [if_neg (fun both => both.2 slews), if_neg (not_not.2 slews)]
      split
      · rfl
      · rw [if_neg (fun hold => absurd (locked.symm.trans hold.1) (by decide))]
    · dsimp only
      rw [if_pos ⟨locked, slews⟩, if_pos slews]

theorem newLength_begin (l : Int) (locked : s.get Reg.BAL_STATUS_state = 2) :
    (newLength (s.begin t) l).1 = (newLength (s.now t) l).1 :=
  (newLength_locked (s := s.begin t) l locked).trans (newLength_locked (s := s.now t) l locked).symm

theorem cycleStart_natural_changes (h : s.settled) (cycles : s.bal.cycles = c :: r) (locked : s.get Reg.BAL_STATUS_state = 2)
    (going : s.bal.stall = none) (due : c.s + c.len ≤ (max s.ltb t : Nat)) (free : s.bal.cycForce = false) :
    changes (.cycleStart t) s [Reg.BAL_STATUS_slewing, Reg.BAL_STATUS_source_act, Reg.BAL_PERIOD_period] [] [.bal, .amc] (fun u =>
      u.amc = (nbCycle (s.now t)).amc ∧
      u.bal.cycles = ⟨(c.k + 1) % 2 ^ 32, c.s + c.len, (newLength (s.now t) c.len).1⟩ :: (c :: r).take 15) := by
  obtain ⟨⟨front, -, -⟩, frame⟩ := cycleStart_locked (s := s.begin t) cycles locked going due
  have load : cycleLoads (s.begin t) = false := by
    change (s.bal.cycForce || s.bal.cycPend && s.get Reg.BAL_STATUS_state == 1) = false
    simp [free, locked]
  have count : cycleCount (s.begin t) c = (c.k + 1) % 2 ^ 32 := if_neg (by simp [load])
  rw [load] at frame
  rw [count] at front
  have effect : cycleStartAll (s.begin t) = nbCycle (cycleStart (s.begin t)) := by
    have first : (s.begin t).bal.cycles.head? = some c := congrArg List.head? cycles
    unfold cycleStartAll
    dsimp only
    rw [first, front]
    exact (if_neg (fun same => absurd same.1 (by dsimp only; omega))).trans (congrArg nbCycle (if_pos rfl))
  have wide := elsewhere_mono (fs' := [Reg.BAL_STATUS_slewing, Reg.BAL_STATUS_source_act, Reg.BAL_PERIOD_period])
    (ps' := [.bal, .amc]) frame (by simp +contextual) (fun _ => id) (by simp)
  refine changes_of (f := cycleStartAll) rfl effect h (.onAmc (elsewhere_trans (.start s t) wide)) (fun u kept => ?_)
  have amc : (cycleStart (s.begin t)).amc = s.amc := frame.2.2.1 .amc (by decide)
  rw [kept.amc, kept.bal]
  refine ⟨?_, front.trans (by rw [newLength_begin c.len locked])⟩
  unfold nbCycle
  rw [State.onAmc_amc, amc]
  rfl

/-- What the other blocks do in a cycle start: the neighbours' cycles, and the beacons and decisions of skipped angles. -/
theorem cycleStartAll_after : (cycleStart s).elsewhere (cycleStartAll s) [] [Reg.AMC_CNT_EB_SKIP, Reg.ESC_CNT_SLOT_LATE]
    [.amc, .esc] := by
  unfold cycleStartAll
  dsimp only
  split
  · refine elsewhere_ite (fun _ => elsewhere_refl ..) (fun _ => .onAmc ?_)
    exact elsewhere_ite (fun _ => elsewhere_refl ..) (fun _ => elsewhere_angleSkipped (elsewhere_refl ..))
  · exact elsewhere_refl ..

theorem cycleStart_loaded_changes (h : s.settled) (cycles : s.bal.cycles = c :: r) (locked : s.get Reg.BAL_STATUS_state = 2)
    (going : s.bal.stall = none) (due : c.s + c.len ≤ (max s.ltb t : Nat)) (forced : s.bal.cycForce = true) :
    changes (.cycleStart t) s [Reg.BAL_STATUS_slewing, Reg.BAL_STATUS_cyc_valid, Reg.BAL_STATUS_source_act,
      Reg.BAL_PERIOD_period] [Reg.AMC_CNT_EB_SKIP, Reg.ESC_CNT_SLOT_LATE] [.bal, .amc, .esc] (fun u =>
      u.bal.cycForce = false ∧ u.get Reg.BAL_STATUS_cyc_valid = 1 ∧
      u.bal.cycles = ⟨s.get Reg.BAL_CYC_LOAD_cyc_load, c.s + c.len, (newLength (s.now t) c.len).1⟩ :: (c :: r).take 15) := by
  obtain ⟨⟨front, done, valid⟩, frame⟩ := cycleStart_locked (s := s.begin t) cycles locked going due
  have load : cycleLoads (s.begin t) = true := by
    change (s.bal.cycForce || s.bal.cycPend && s.get Reg.BAL_STATUS_state == 1) = true
    rw [forced]
    rfl
  have count : cycleCount (s.begin t) c = s.get Reg.BAL_CYC_LOAD_cyc_load := if_pos load
  rw [load] at frame
  rw [count, newLength_begin c.len locked] at front
  have after := cycleStartAll_after (s := s.begin t)
  have bal : (cycleStartAll (s.begin t)).bal = (cycleStart (s.begin t)).bal := after.2.2.1 .bal (by decide)
  have turned := elsewhere_mono (fs' := [Reg.BAL_STATUS_slewing, Reg.BAL_STATUS_cyc_valid, Reg.BAL_STATUS_source_act,
    Reg.BAL_PERIOD_period]) (cs' := [Reg.AMC_CNT_EB_SKIP, Reg.ESC_CNT_SLOT_LATE]) (ps' := [.bal, .amc, .esc]) frame
    (by simp +contextual) (by simp) (by simp)
  have skipped := elsewhere_mono (fs' := [Reg.BAL_STATUS_slewing, Reg.BAL_STATUS_cyc_valid, Reg.BAL_STATUS_source_act,
    Reg.BAL_PERIOD_period]) (ps' := [.bal, .amc, .esc]) after (by simp) (fun _ => id) (by simp)
  refine changes_of (f := cycleStartAll) rfl rfl h (elsewhere_trans (.start s t) (elsewhere_trans turned skipped)) (fun u kept => ?_)
  rw [kept.bal, kept.get _ (by decide), bal, after.1 _ (by decide) (by decide)]
  exact ⟨done, valid load, front⟩

/-- Settles O10: an accepted crossing of either input is the same effect (`crossingAccepted`), and a cycle start turns the model's
cycle (`cycleStart_acts`) before the other blocks take it up. -/
theorem crossingsComplete : Obligations.CrossingsComplete := fun _ _ _ _ h cycles =>
  ⟨fun rising e => gridZcEdge_accepted rising e h cycles,
    fun t1 s1 s2 lo hi e => gridAinCrossing_accepted t1 s1 s2 lo hi e h cycles,
    fun rising z => gridZcEdge_joined rising z h cycles, fun rising z => gridZcEdge_rejected rising z h cycles,
    crossingMissed_leads h cycles, cycleStart_natural_changes h cycles, cycleStart_loaded_changes h cycles⟩

end Crossings
end Sys2Proof.Machine

namespace Sys2Proof.Machine

/-! ### Chip resets, straps and release (R42, R300, R303, R424, R425, R427, R428) -/

section ChipReset

set_option Elab.async false

variable {t : Nat} {s v w : State} {ks ls : List Nat}

/-! Writes of register fields alone -/

/-- `v` is `s` but for the register fields with the keys `ks`. -/
def writesOnly (s v : State) (ks : List Nat) : Prop :=
  v = { s with fields := v.fields } ∧ ∀ f : Fld, f.key ∉ ks → v.get f = s.get f

theorem writesOnly_refl (s : State) (ks : List Nat) : writesOnly s s ks := ⟨rfl, fun _ _ => rfl⟩

theorem writesOnly_set (h : writesOnly s v ks) {f : Fld} (x : Nat) (hf : f.key ∈ ks) : writesOnly s (v.set f x) ks :=
  ⟨congrArg (fun u : State => { u with fields := (v.set f x).fields }) h.1,
    fun g hg => (State.get_set_ne _ _ (fun e => hg (e ▸ hf))).trans (h.2 g hg)⟩

theorem writesOnly_foldl {α : Type} {l : List α} {g : α → Fld} {x : α → Nat} (h : writesOnly s v ks)
    (hl : ∀ a ∈ l, (g a).key ∈ ks) : writesOnly s (l.foldl (fun s a => s.set (g a) (x a)) v) ks := by
  induction l generalizing v with
  | nil => exact h
  | cons a r ih => exact ih (writesOnly_set h _ (hl a (List.mem_cons_self ..))) (fun b hb => hl b (List.mem_cons_of_mem _ hb))

theorem writesOnly_trans (h : writesOnly s v ks) (k : writesOnly v w ks) : writesOnly s w ks :=
  ⟨k.1.trans (congrArg (fun u : State => { u with fields := w.fields }) h.1), fun f hf => (k.2 f hf).trans (h.2 f hf)⟩

theorem writesOnly_mono (h : writesOnly s v ks) (sub : ∀ k ∈ ks, k ∈ ls) : writesOnly s v ls :=
  ⟨h.1, fun f hf => h.2 f (fun hk => hf (sub _ hk))⟩

theorem writesOnly_onPwr (h : writesOnly s v ks) (f : Pwr → Pwr) : writesOnly (s.onPwr f) (v.onPwr f) ks :=
  ⟨congrArg (fun u : State => u.onPwr f) h.1, h.2⟩

/-- Each of a list of fields with different keys holds what a fold writes to it. -/
theorem get_foldl_set_mem {l : List Fld} {x : Fld → Nat} {f : Fld} (s : State) (apart : l.Pairwise (fun f g => f.key ≠ g.key))
    (hf : f ∈ l) : (l.foldl (fun s f => s.set f (x f)) s).get f = x f % 2 ^ f.w := by
  induction l generalizing s with
  | nil => cases hf
  | cons g r ih =>
    obtain ⟨first, rest⟩ := List.pairwise_cons.1 apart
    rcases List.mem_cons.1 hf with rfl | later
    · have kept := writesOnly_foldl (x := x) (g := id) (writesOnly_refl (s.set f (x f)) (r.map Fld.key))
        (fun a ha => List.mem_map_of_mem ha)
      refine (kept.2 f (fun mem => ?_)).trans (State.get_set_self ..)
      obtain ⟨g, hg, e⟩ := List.mem_map.1 mem
      exact first g hg e.symm
    · exact ih _ rest later

/-! Straps -/

/-- The fields of the band that region gives BH0's tuner (R73). -/
def regionFields : List Fld := [Reg.RFX_TUNE_lo_khz 0, Reg.RFX_TUNE_bw 0, Reg.RFX_STATUS_region_block 0,
  Reg.TXC_STATUS_region_block 0, Reg.TXC_STATUS_region_block 1]

/-- The fields of standalone operation (R343). -/
def hostFields : List Fld := Reg.HIF_STATUS_standalone :: ((List.range 256).map Reg.HIF_RING_CTRL_owner ++
  (List.range 64).map Reg.HIF_VEC_CFG_dest)

/-- The fields that straps set directly. -/
def plainStrapFields : List Fld := [Reg.PWR_STRAP_straps, Reg.PWR_STATUS_strap_fault, Reg.BAL_GRID_CFG_nominal, Reg.TWN_CTRL_role]

def strapsPlain (s : State) (x : Straps) : State :=
  (((s.set Reg.PWR_STRAP_straps (strapWord x)).setb Reg.PWR_STATUS_strap_fault (x.region.toNat == 3)).setb
    Reg.BAL_GRID_CFG_nominal x.gridf).set Reg.TWN_CTRL_role (if x.twin.toNat = 3 then 0 else x.twin.toNat)

def strapsRegion (s : State) (region : Nat) : State :=
  match region with
  | 0 => s
  | 1 => (s.set (Reg.RFX_TUNE_lo_khz 0) 915100).set (Reg.RFX_TUNE_bw 0) 1
  | _ => ((((s.set (Reg.RFX_TUNE_lo_khz 0) 0).set (Reg.RFX_TUNE_bw 0) 0).set (Reg.RFX_STATUS_region_block 0) 1).set
      (Reg.TXC_STATUS_region_block 0) 1).set (Reg.TXC_STATUS_region_block 1) 1

def strapsHost (s : State) (host : Bool) : State :=
  if host then
    (List.range 64).foldl (fun s v => s.set (Reg.HIF_VEC_CFG_dest v) 1)
      ((List.range 256).foldl (fun s r => s.set (Reg.HIF_RING_CTRL_owner r) 1) (s.set Reg.HIF_STATUS_standalone 1))
  else s

theorem applyStraps_eq (s : State) (x : Straps) : applyStraps s x = strapsHost (strapsRegion (strapsPlain s x) x.region.toNat) x.host := rfl

theorem strapsPlain_writes (s : State) (x : Straps) : writesOnly s (strapsPlain s x) (plainStrapFields.map Fld.key) := by
  refine writesOnly_set (writesOnly_set (writesOnly_set (writesOnly_set (writesOnly_refl ..) _ ?_) _ ?_) _ ?_) _ ?_ <;> decide

theorem strapsRegion_writes (s : State) (region : Nat) : writesOnly s (strapsRegion s region) (regionFields.map Fld.key) := by
  unfold strapsRegion
  split
  · exact writesOnly_refl ..
  · exact writesOnly_set (writesOnly_set (writesOnly_refl ..) _ (by decide)) _ (by decide)
  · refine writesOnly_set (writesOnly_set (writesOnly_set (writesOnly_set (writesOnly_set (writesOnly_refl ..) _ ?_) _ ?_) _ ?_) _ ?_)
      _ ?_ <;> decide

theorem strapsHost_writes (s : State) (host : Bool) : writesOnly s (strapsHost s host) (hostFields.map Fld.key) := by
  unfold strapsHost
  split
  · have owner : ∀ r ∈ List.range 256, (Reg.HIF_RING_CTRL_owner r).key ∈ hostFields.map Fld.key := fun r hr =>
      List.mem_map_of_mem (List.mem_cons_of_mem _ (List.mem_append_left _ (List.mem_map_of_mem hr)))
    have dest : ∀ v ∈ List.range 64, (Reg.HIF_VEC_CFG_dest v).key ∈ hostFields.map Fld.key := fun v hv =>
      List.mem_map_of_mem (List.mem_cons_of_mem _ (List.mem_append_right _ (List.mem_map_of_mem hv)))
    exact writesOnly_foldl (writesOnly_foldl (writesOnly_set (writesOnly_refl ..) _ (List.mem_cons_self ..)) owner) dest
  · exact writesOnly_refl ..

/-- The fields of standalone operation lie in HIF. -/
theorem hostFields_inHif {k : Nat} (h : k < 0xf0000 * 32 ∨ 0xf5000 * 32 ≤ k) : k ∉ hostFields.map Fld.key := by
  simp only [hostFields, List.map_cons, List.map_append, List.map_map, List.mem_cons, List.mem_append, List.mem_map, List.mem_range,
    Function.comp_apply, Fld.key, Reg.HIF_STATUS_standalone, Reg.HIF_RING_CTRL_owner, Reg.HIF_VEC_CFG_dest]
  rintro (e | ⟨r, hr, e⟩ | ⟨r, hr, e⟩) <;> omega

/-- What the straps show of themselves (R427). -/
theorem applyStraps_plain (s : State) (x : Straps) : (applyStraps s x).get Reg.PWR_STRAP_straps = strapWord x ∧
    (applyStraps s x).get Reg.PWR_STATUS_strap_fault = (if x.region = 3 then 1 else 0) ∧
    (applyStraps s x).get Reg.BAL_GRID_CFG_nominal = x.gridf.toNat ∧
    (applyStraps s x).get Reg.TWN_CTRL_role = if x.twin = 3 then 0 else x.twin.toNat := by
  have later : ∀ f ∈ plainStrapFields, (applyStraps s x).get f = (strapsPlain s x).get f := by
    intro f hf
    have region : f.key ∉ regionFields.map Fld.key := by revert f; decide
    have host : f.key ∉ hostFields.map Fld.key := hostFields_inHif (by revert f; decide)
    exact ((strapsHost_writes _ _).2 f host).trans ((strapsRegion_writes _ _).2 f region)
  have word : strapWord x < 2 ^ 9 := by
    have := x.boot.isLt
    have := x.region.isLt
    have := x.twin.isLt
    unfold strapWord
    dsimp only
    split <;> split <;> split <;> split <;> omega
  have three : ∀ b : BitVec 2, b.toNat = 3 ↔ b = 3 := by decide
  refine ⟨?_, ?_, ?_, ?_⟩
  · rw [later _ (by decide), strapsPlain]
    simp (disch := decide) only [State.get_set_ne, State.setb, State.get_set_self]
    exact Nat.mod_eq_of_lt word
  · rw [later _ (by decide), strapsPlain]
    simp (disch := decide) only [State.get_set_ne, State.setb, State.get_set_self, beq_iff_eq, three]
    split <;> rfl
  · rw [later _ (by decide), strapsPlain]
    simp (disch := decide) only [State.get_set_ne, State.setb, State.get_set_self]
    cases x.gridf <;> rfl
  · rw [later _ (by decide), strapsPlain, State.get_set_self]
    simp only [three]
    split
    · rfl
    · exact Nat.mod_eq_of_lt x.twin.isLt

theorem strapFields_notHif : ∀ k ∈ (plainStrapFields ++ regionFields).map Fld.key, k < 0xf0000 * 32 ∨ 0xf5000 * 32 ≤ k := by decide

/-- Without a host the host link is standalone. -/
theorem strapsHost_shown {host : Bool} (off : s.get Reg.HIF_STATUS_standalone = 0)
    (rings : ∀ r, r < 256 → s.get (Reg.HIF_RING_CTRL_owner r) = 0) (vecs : ∀ v, v < 64 → s.get (Reg.HIF_VEC_CFG_dest v) = 0) :
    (strapsHost s host).get Reg.HIF_STATUS_standalone = host.toNat ∧
    (∀ r, r < 256 → (strapsHost s host).get (Reg.HIF_RING_CTRL_owner r) = host.toNat) ∧
    ∀ v, v < 64 → (strapsHost s host).get (Reg.HIF_VEC_CFG_dest v) = host.toNat := by
  cases host with
  | false => exact ⟨off, rings, vecs⟩
  | true =>
    have ringsOnly := writesOnly_foldl (l := List.range 256) (g := Reg.HIF_RING_CTRL_owner) (x := fun _ => 1)
      (writesOnly_refl (s.set Reg.HIF_STATUS_standalone 1) ((List.range 256).map (fun r => (Reg.HIF_RING_CTRL_owner r).key)))
      (fun _ h => List.mem_map_of_mem h)
    have vecsOnly := writesOnly_foldl (l := List.range 64) (g := Reg.HIF_VEC_CFG_dest) (x := fun _ => 1)
      (writesOnly_refl ((List.range 256).foldl (fun s r => s.set (Reg.HIF_RING_CTRL_owner r) 1) (s.set Reg.HIF_STATUS_standalone 1))
        ((List.range 64).map (fun v => (Reg.HIF_VEC_CFG_dest v).key)))
      (fun _ h => List.mem_map_of_mem h)
    refine ⟨?_, fun r hr => ?_, fun v hv => ?_⟩
    · refine (vecsOnly.2 _ ?_).trans ((ringsOnly.2 _ ?_).trans (State.get_set_self ..))
      · simp [Fld.key, Reg.HIF_STATUS_standalone, Reg.HIF_VEC_CFG_dest]
        omega
      · simp [Fld.key, Reg.HIF_STATUS_standalone, Reg.HIF_RING_CTRL_owner]
        omega
    · refine (vecsOnly.2 _ ?_).trans (get_foldl_set (g := Reg.HIF_RING_CTRL_owner) (x := fun _ => 1) _ ?_ (List.mem_range.2 hr))
      · simp [Fld.key, Reg.HIF_RING_CTRL_owner, Reg.HIF_VEC_CFG_dest]
        omega
      · simp [Fld.key, Reg.HIF_RING_CTRL_owner]
    · refine get_foldl_set (g := Reg.HIF_VEC_CFG_dest) (x := fun _ => 1) _ ?_ (List.mem_range.2 hv)
      simp [Fld.key, Reg.HIF_VEC_CFG_dest]

/-- The rings and vectors of a chip without a host are the cluster's (R343). -/
theorem applyStraps_host {x : Straps} (off : s.get Reg.HIF_STATUS_standalone = 0)
    (rings : ∀ r, r < 256 → s.get (Reg.HIF_RING_CTRL_owner r) = 0) (vecs : ∀ v, v < 64 → s.get (Reg.HIF_VEC_CFG_dest v) = 0) :
    (applyStraps s x).get Reg.HIF_STATUS_standalone = x.host.toNat ∧
    (∀ r, r < 256 → (applyStraps s x).get (Reg.HIF_RING_CTRL_owner r) = x.host.toNat) ∧
    ∀ v, v < 64 → (applyStraps s x).get (Reg.HIF_VEC_CFG_dest v) = x.host.toNat := by
  have same : ∀ f : Fld, 0xf0000 * 32 ≤ f.key → f.key < 0xf5000 * 32 →
      (strapsRegion (strapsPlain s x) x.region.toNat).get f = s.get f := by
    intro f low high
    have out : f.key ∉ (plainStrapFields ++ regionFields).map Fld.key := fun mem => by have := strapFields_notHif _ mem; omega
    rw [List.map_append, List.mem_append, not_or] at out
    exact ((strapsRegion_writes _ _).2 f out.2).trans ((strapsPlain_writes s x).2 f out.1)
  have ring : ∀ r, r < 256 → 0xf0000 * 32 ≤ (Reg.HIF_RING_CTRL_owner r).key ∧ (Reg.HIF_RING_CTRL_owner r).key < 0xf5000 * 32 := by
    intro r hr
    simp only [Fld.key, Reg.HIF_RING_CTRL_owner]
    omega
  have vec : ∀ v, v < 64 → 0xf0000 * 32 ≤ (Reg.HIF_VEC_CFG_dest v).key ∧ (Reg.HIF_VEC_CFG_dest v).key < 0xf5000 * 32 := by
    intro v hv
    simp only [Fld.key, Reg.HIF_VEC_CFG_dest]
    omega
  rw [applyStraps_eq]
  exact strapsHost_shown ((same _ (by decide) (by decide)).trans off)
    (fun r hr => (same _ (ring r hr).1 (ring r hr).2).trans (rings r hr))
    (fun v hv => (same _ (vec v hv).1 (vec v hv).2).trans (vecs v hv))

/-! Chip reset -/

/-- The register fields that a chip that is held in reset may show at another value than at reset. -/
def resetFields : List Fld := keptFields ++ [Reg.PWR_STRAP_straps,
  Reg.PWR_STATUS_strap_fault, Reg.BAL_GRID_CFG_nominal, Reg.TWN_CTRL_role, Reg.RFX_TUNE_lo_khz 0,
  Reg.RFX_TUNE_bw 0, Reg.RFX_STATUS_region_block 0, Reg.TXC_STATUS_region_block 0, Reg.TXC_STATUS_region_block 1,
  Reg.HIF_STATUS_standalone, Reg.JWL_STATUS_lc_state] ++ (List.range 256).map Reg.HIF_RING_CTRL_owner ++
  (List.range 64).map Reg.HIF_VEC_CFG_dest

theorem strapFields_reset : ∀ k ∈ (plainStrapFields ++ regionFields ++ hostFields).map Fld.key, k ∈ resetFields.map Fld.key := by
  intro k hk
  obtain ⟨f, hf, rfl⟩ := List.mem_map.1 hk
  refine List.mem_map_of_mem ?_
  simp only [plainStrapFields, regionFields, hostFields, resetFields, List.mem_append, List.mem_cons, List.not_mem_nil, or_false] at hf ⊢
  tauto

theorem applyStraps_writes (s : State) (x : Straps) :
    writesOnly s (applyStraps s x) ((plainStrapFields ++ regionFields ++ hostFields).map Fld.key) := by
  simp only [List.map_append]
  exact writesOnly_trans
    (writesOnly_trans (writesOnly_mono (strapsPlain_writes s x) (fun k h => List.mem_append_left _ (List.mem_append_left _ h)))
      (writesOnly_mono (strapsRegion_writes _ _) (fun k h => List.mem_append_left _ (List.mem_append_right _ h))))
    (writesOnly_mono (strapsHost_writes _ _) (fun k h => List.mem_append_right _ h))

/-- What the environment keeps over a chip reset, with the life-cycle state as the fuses say (R303). -/
def resetBase (s : State) (p : Pwr) : State :=
  { pending := s.pending, ltb := s.ltb, freeCtr := s.freeCtr, out := s.out, straps := s.straps, fuses := s.fuses, crn := crnKept s, pwr := p }

/-- What a chip reset keeps of PWR beside its registers: what the supervisors measure, and what the release waits for. -/
def resetPwr (p : Pwr) : Pwr := {
  held := true, vmonGood := p.vmonGood, vmonWait := p.vmonWait, temps := p.temps, thermal := p.thermal, resetAt := p.resetAt
  wdtDue := p.wdtDue }

/-- The always-on latch and the life-cycle state of a chip in reset, before its straps. -/
def resetLatch (s : State) : State :=
  keptFields.foldl (fun r f => r.set f (s.get f)) ((resetBase s (resetPwr s.pwr)).set Reg.JWL_STATUS_lc_state s.fuses.lcState)

theorem resetState_eq (s : State) : resetState s = applyStraps (resetLatch s) s.straps := rfl

theorem resetLatch_writes (s : State) : writesOnly (resetBase s (resetPwr s.pwr)) (resetLatch s)
    ((keptFields ++ [Reg.JWL_STATUS_lc_state]).map Fld.key) := by
  refine writesOnly_foldl (g := id) (writesOnly_set (writesOnly_refl ..) _ (by decide)) (fun f hf => ?_)
  rw [List.map_append]
  exact List.mem_append_left _ (List.mem_map_of_mem hf)

theorem resetState_writes (s : State) : writesOnly (resetBase s (resetPwr s.pwr)) (resetState s) (resetFields.map Fld.key) := by
  refine writesOnly_trans (writesOnly_mono (resetLatch_writes s) (fun k hk => ?_))
    (writesOnly_mono (applyStraps_writes _ s.straps) strapFields_reset)
  obtain ⟨f, hf, rfl⟩ := List.mem_map.1 hk
  refine List.mem_map_of_mem ?_
  simp only [resetFields, List.mem_append, List.mem_cons, List.not_mem_nil, or_false] at hf ⊢
  tauto

/-- No strap sets a field of the latch, or the life-cycle state. -/
theorem latchFields_notStraps {f : Fld} (hf : f ∈ keptFields ++ [Reg.JWL_STATUS_lc_state]) :
    f.key ∉ (plainStrapFields ++ regionFields ++ hostFields).map Fld.key := by
  have low : f.key < 0xf0000 * 32 := by revert f; decide
  have plain : f.key ∉ (plainStrapFields ++ regionFields).map Fld.key := by revert f; decide
  rw [List.map_append, List.mem_append, not_or]
  exact ⟨plain, hostFields_inHif (.inl low)⟩

/-- The always-on latch keeps its registers (R425). -/
theorem resetState_kept {f : Fld} (hf : f ∈ keptFields) (fits : s.get f < 2 ^ f.w) : (resetState s).get f = s.get f := by
  rw [resetState_eq, (applyStraps_writes _ _).2 f (latchFields_notStraps (List.mem_append_left _ hf)), resetLatch,
    get_foldl_set_mem _ (by decide) hf]
  exact Nat.mod_eq_of_lt fits

/-- The life-cycle state is read from the fuses (R303). -/
theorem resetState_lcState (s : State) : (resetState s).get Reg.JWL_STATUS_lc_state = s.fuses.lcState % 8 := by
  have latched := (writesOnly_foldl (g := id) (x := s.get) (writesOnly_refl ((resetBase s (resetPwr s.pwr)).set Reg.JWL_STATUS_lc_state
    s.fuses.lcState) (keptFields.map Fld.key)) (fun f hf => List.mem_map_of_mem hf)).2 Reg.JWL_STATUS_lc_state (by decide)
  rw [resetState_eq, (applyStraps_writes _ _).2 _ (latchFields_notStraps (by decide))]
  exact latched.trans (State.get_set_self ..)

/-- Every other register is at its reset value (R425). -/
theorem resetState_rst {f : Fld} (hf : f.key ∉ resetFields.map Fld.key) : (resetState s).get f = f.rst :=
  (resetState_writes s).2 f hf

theorem resetState_fuses (s : State) : (resetState s).fuses = s.fuses :=
  (congrArg State.fuses (resetState_writes s).1).trans rfl

/-- Every counter, queue, table and engine is at its state at reset (R425). -/
theorem resetState_held (s : State) : resetState s = { ({} : State) with
    pending := s.pending, ltb := s.ltb, freeCtr := (resetState s).freeCtr, out := (resetState s).out
    fields := (resetState s).fields, straps := s.straps, fuses := (resetState s).fuses, crn := crnKept s, pwr := resetPwr s.pwr } := by
  have writes := (resetState_writes s).1
  have drawn : (resetState s).freeCtr = s.freeCtr := (congrArg State.freeCtr writes).trans rfl
  have out : (resetState s).out = s.out := (congrArg State.out writes).trans rfl
  rw [drawn, out, resetState_fuses]
  exact writes

theorem crnKept_congr (crn : v.crn = s.crn) (held : v.pwr.held = s.pwr.held)
    (ended : v.get Reg.CRN_STATUS_handed_over = s.get Reg.CRN_STATUS_handed_over)
    (recovery : v.get Reg.CRN_STATUS_recovery = s.get Reg.CRN_STATUS_recovery) : crnKept v = crnKept s := by
  unfold crnKept booting State.on
  rw [crn, held, ended, recovery]

/-- A cut of a life-cycle change is of the fuses alone (R304). -/
theorem lcCut_same (s : State) : ∃ n f, lcCut s = { s with freeCtr := n, fuses := f } ∧ (s.jwl.lcTarget = none → f = s.fuses) := by
  cases target : s.jwl.lcTarget with
  | none => exact ⟨s.freeCtr, s.fuses, by rw [lcCut, target], fun _ => rfl⟩
  | some e =>
    by_cases draw : (s.drawFree 2).1 = 0
    · refine ⟨(s.drawFree 2).2.freeCtr, s.fuses, ?_, fun none => by cases none⟩
      rw [lcCut, target]
      exact if_pos draw
    · refine ⟨(s.drawFree 2).2.freeCtr, { s.fuses with lcState := e.1 }, ?_, fun none => by cases none⟩
      rw [lcCut, target]
      exact if_neg draw

/-- `u` is held in a chip reset that came in `w` with cause `k` (R424, R425). -/
def resetHeld (w : State) (k : Nat) (u : State) : Prop :=
  u.get Reg.PWR_RST_CAUSE_cause = w.get Reg.PWR_RST_CAUSE_cause ||| 2 ^ k ∧
  (∀ f ∈ keptFields.drop 1, u.get f = w.get f) ∧
  (∀ f : Fld, f.key ∉ resetFields.map Fld.key → u.get f = f.rst) ∧
  (w.jwl.lcTarget = none → u.fuses = w.fuses) ∧
  u.get Reg.JWL_STATUS_lc_state = u.fuses.lcState % 8 ∧
  u = { ({} : State) with
    pending := w.pending, ltb := w.ltb, freeCtr := u.freeCtr, out := u.out, fields := u.fields, straps := w.straps
    fuses := u.fuses, crn := crnKept w, pwr := {
      held := true, vmonGood := if k = 1 then none else w.pwr.vmonGood, vmonWait := if k = 1 then 2 else w.pwr.vmonWait
      temps := w.pwr.temps, thermal := w.pwr.thermal || k == 3, resetAt := w.ltb, wdtDue := wdtDueNow w } }

theorem chipReset_held {k : Nat} (up : w.pwr.held = false) (por : w.pwr.porLow = false)
    (fits : ∀ f ∈ keptFields, w.get f < 2 ^ f.w) (hk : k < 7) : resetHeld w k (chipReset w k) := by
  obtain ⟨n, fuses, cut, same⟩ := lcCut_same (setCause (resetHold w k) k)
  have reset : chipReset w k = resetState (lcCut (setCause (resetHold w k) k)) := if_neg (by simp [por])
  have cause : w.get Reg.PWR_RST_CAUSE_cause ||| 2 ^ k < 2 ^ 7 :=
    Nat.or_lt_two_pow (fits _ (by decide)) (Nat.pow_lt_pow_right (by decide) hk)
  have set : (lcCut (setCause (resetHold w k) k)).get Reg.PWR_RST_CAUSE_cause = w.get Reg.PWR_RST_CAUSE_cause ||| 2 ^ k := by
    rw [cut]
    exact (State.get_set_self (resetHold w k) ..).trans (Nat.mod_eq_of_lt cause)
  have others : ∀ f : Fld, Reg.PWR_RST_CAUSE_cause.key ≠ f.key → (lcCut (setCause (resetHold w k) k)).get f = w.get f := by
    intro f hf
    rw [cut]
    exact State.get_set_ne (resetHold w k) _ hf
  have crn : crnKept (lcCut (setCause (resetHold w k) k)) = crnKept w :=
    crnKept_congr (by rw [cut]; rfl) (by rw [cut]; exact up.symm ▸ rfl) (others _ (by decide)) (others _ (by decide))
  have pwr : resetPwr (lcCut (setCause (resetHold w k) k)).pwr = {
      held := true, vmonGood := if k = 1 then none else w.pwr.vmonGood, vmonWait := if k = 1 then 2 else w.pwr.vmonWait
      temps := w.pwr.temps, thermal := w.pwr.thermal || k == 3, resetAt := w.ltb, wdtDue := wdtDueNow w } := by
    rw [cut]
    simp only [setCause, resetHold, State.set_pwr, State.onPwr, resetPwr, up, causeVmon, causeThermal, Bool.false_eq_true, if_false]
    rfl
  have kept : (lcCut (setCause (resetHold w k) k)).pending = w.pending ∧ (lcCut (setCause (resetHold w k) k)).ltb = w.ltb ∧
      (lcCut (setCause (resetHold w k) k)).straps = w.straps ∧
      (w.jwl.lcTarget = none → (lcCut (setCause (resetHold w k) k)).fuses = w.fuses) := by
    rw [cut]
    exact ⟨rfl, rfl, rfl, same⟩
  rw [reset]
  generalize lcCut (setCause (resetHold w k) k) = v at *
  obtain ⟨pending, ltb, straps, uncut⟩ := kept
  refine ⟨?_, fun f hf => ?_, fun f hf => resetState_rst hf, fun none => ?_, ?_, ?_⟩
  · exact (resetState_kept (by decide) (set.trans_lt cause)).trans set
  · have apart : Reg.PWR_RST_CAUSE_cause.key ≠ f.key := by revert f; decide
    have latched : f ∈ keptFields := List.mem_of_mem_drop hf
    exact (resetState_kept latched ((others f apart).trans_lt (fits f latched))).trans (others f apart)
  · exact (resetState_fuses _).trans (uncut none)
  · exact (resetState_lcState _).trans (by rw [resetState_fuses])
  · exact (resetState_held v).trans (by rw [pending, ltb, straps, crn, pwr])

/-- Nothing is left to tell of a state in which nothing has ended, failed or been measured. -/
theorem finish_fresh (ht : s.txDone = []) (hi : s.pwr.inbox = []) (hc : s.chr = {}) : s.finish = s := by
  have native : chrNative s = [] := by rw [chrNative, hc]; rfl
  have rises : chrRises s = s := by rw [chrRises, native]; rfl
  have none : s.onChr (fun c => { c with due := [], wraps := [] }) = s := by
    cases s
    simp only at hc
    subst hc
    rfl
  have losses : lostSettle s = s := by simp [lostSettle, lostCount, hc]
  rw [State.finish, txDrain_nil _ ht, classifyInbox_nil _ hi, rises, chrSettle, losses, none, hc]
  rfl

/-- A command that leaves a fresh state completes in it. -/
theorem completes_fresh {c : Instr} {f : State → State} {P : State → Prop} (e : exec c s = actReset t s f)
    (ht : (f (s.begin t)).txDone = []) (hi : (f (s.begin t)).pwr.inbox = []) (hc : (f (s.begin t)).chr = {})
    (hp : (f (s.begin t)).pending = s.pending) (hP : P (f (s.begin t))) : completes c s P := by
  refine ⟨f (s.begin t), e.trans ?_, hP⟩
  rw [actReset, finish_fresh ht hi hc, ← hp]

/-- A cause of chip reset completes in the reset. -/
theorem chipReset_completes {c : Instr} {f : State → State} {k : Nat} {P : State → Prop} (e : exec c s = actReset t s f)
    (effect : f (s.begin t) = chipReset w k) (up : w.pwr.held = false) (por : w.pwr.porLow = false)
    (fits : ∀ f ∈ keptFields, w.get f < 2 ^ f.w) (hk : k < 7) (hp : w.pending = s.pending) (hP : ∀ u, resetHeld w k u → P u) :
    completes c s P := by
  have held := chipReset_held up por fits hk
  obtain ⟨-, -, -, -, -, fresh⟩ := held
  refine completes_fresh e ?_ ?_ ?_ ?_ ?_ <;> rw [effect]
  · rw [fresh]
  · rw [fresh]
  · rw [fresh]
  · exact (congrArg State.pending fresh).trans hp
  · exact hP _ (chipReset_held up por fits hk)

/-- What the obligation says of a chip reset that a command at `t` brings with cause `k`. -/
def resetShown (t : Nat) (s : State) (k : Nat) (rf dig : Int) (u : State) : Prop :=
  u.get Reg.PWR_RST_CAUSE_cause = s.get Reg.PWR_RST_CAUSE_cause ||| 2 ^ k ∧
  (∀ f ∈ keptFields.drop 1, u.get f = s.get f) ∧ (∀ f : Fld, f.key ∉ resetFields.map Fld.key → u.get f = f.rst) ∧
  (s.jwl.lcTarget = none → u.fuses = s.fuses) ∧ u.get Reg.JWL_STATUS_lc_state = u.fuses.lcState % 8 ∧
  u = { ({} : State) with
    pending := s.pending, ltb := max s.ltb t, freeCtr := u.freeCtr, out := u.out, fields := u.fields,
    straps := s.straps, fuses := u.fuses, crn := crnKept s, pwr := {
      held := true, vmonGood := if k = 1 then none else s.pwr.vmonGood,
      vmonWait := if k = 1 then 2 else s.pwr.vmonWait, temps := if k = 3 then (rf, dig) else s.pwr.temps,
      thermal := s.pwr.thermal || k == 3, resetAt := max s.ltb t, wdtDue := wdtDueNow (s.now t) } }

/-- A watchdog with action 1 resets the chip (R426). -/
theorem watchdogExpiry_resets {n x : Nat} (up : s.pwr.held = false) (start : tabGet s.pwr.wdtStart n = some x)
    (expired : x + tabGetD s.pwr.wdtMs n 5000 * 1000000 ≤ s.ltb) (action : s.get (Reg.PWR_WDT_CFG_action n) ≠ 0) :
    watchdogExpiry s n = chipReset (s.bump Reg.PWR_CNT_WDT) causeWdt := by
  unfold watchdogExpiry
  rw [up, if_neg (by decide), start]
  dsimp only
  rw [if_neg (Nat.not_lt.2 expired)]
  exact if_pos (State.on_iff.2 action)

theorem resetCauses_complete (n : Fin 4) (rf dig : Int) (c : Instr) (k : Nat) (up : s.pwr.held = false) (por : s.pwr.porLow = false)
    (fits : ∀ f ∈ keptFields, s.get f < 2 ^ f.w) (hc : (c, k) ∈ [(Instr.vmonReset t, 1), (.railFail t, 2), (.d2dLoss t, 6),
      (.chipResetCommand t 0xA55A, 4)] ++ (if ((10 * min 135 (s.get Reg.PWR_TEMP_CFG_trip_c) : Nat) : Int) < max rf
      dig then [(.thermalTrip t rf dig, 3)] else []) ++ (if s.get (Reg.PWR_WDT_CFG_action n) ≠ 0 ∧
      (tabGet s.pwr.wdtStart n).any (fun x => decide (x + tabGetD s.pwr.wdtMs n 5000 * 1000000 ≤ max s.ltb t)) = true
      then [(.watchdogExpiry t n, 5)] else [])) : completes c s (resetShown t s k rf dig) := by
  rcases List.mem_append.1 hc with hc | wdt
  · rcases List.mem_append.1 hc with plain | thermal
    · simp only [List.mem_cons, List.not_mem_nil, or_false, Prod.mk.injEq] at plain
      rcases plain with ⟨rfl, rfl⟩ | ⟨rfl, rfl⟩ | ⟨rfl, rfl⟩ | ⟨rfl, rfl⟩
      · exact chipReset_completes (f := fun s => chipReset s causeVmon) (w := s.begin t) rfl rfl up por fits (by decide) rfl
          (fun u held => held)
      · exact chipReset_completes (f := fun s => chipReset s causeRail) (w := s.begin t) rfl rfl up por fits (by decide) rfl
          (fun u held => held)
      · exact chipReset_completes (f := fun s => chipReset s causeD2d) (w := s.begin t) rfl rfl up por fits (by decide) rfl
          (fun u held => held)
      · exact chipReset_completes (f := fun s => chipResetCommand s rstKey) (w := s.begin t) rfl
          ((if_neg (by rw [begin_pwr, up]; decide)).trans (if_pos rfl)) up por fits (by decide) rfl (fun u held => held)
    · split at thermal
      next hot =>
        obtain ⟨rfl, rfl⟩ := Prod.mk.inj (List.mem_singleton.1 thermal)
        exact chipReset_completes (f := fun s => thermalTrip s rf dig) (w := (s.begin t).onPwr (fun p => { p with temps := (rf, dig) }))
          rfl (if_pos hot) up por fits (by decide) rfl (fun u held => held)
      next => cases thermal
  · split at wdt
    next due =>
      obtain ⟨rfl, rfl⟩ := Prod.mk.inj (List.mem_singleton.1 wdt)
      refine chipReset_completes (f := fun s => watchdogExpiry s n.val) (w := (s.begin t).bump Reg.PWR_CNT_WDT)
          rfl ?_ up por fits (by decide) rfl (fun u held => held)
      obtain ⟨x, start, expired⟩ := (Option.any_eq_true ..).1 due.2
      exact watchdogExpiry_resets (s := s.begin t) up start (of_decide_eq_true expired) due.1
    next => cases wdt

/-- PORN_LOW resets the latch too (R424). -/
theorem pornLow_held (s : State) : ((∀ f : Fld, f.key ≠ Reg.JWL_STATUS_lc_state.key → (pornLow s).get f = f.rst) ∧
    (s.jwl.lcTarget = none → (pornLow s).fuses = s.fuses) ∧
    (pornLow s).get Reg.JWL_STATUS_lc_state = (pornLow s).fuses.lcState % 8) ∧
    pornLow s = { ({} : State) with
      pending := s.pending, ltb := s.ltb, freeCtr := (pornLow s).freeCtr, out := (pornLow s).out, fields := (pornLow s).fields,
      straps := {}, fuses := (pornLow s).fuses, crn := crnKept s, pwr := {
        held := true, porLow := true, vmonGood := s.pwr.vmonGood, temps := s.pwr.temps } } := by
  obtain ⟨n, fuses, cut, same⟩ := lcCut_same s
  have low : pornLow s = (({ ({} : State) with
      pending := s.pending, ltb := s.ltb, freeCtr := n, out := s.out, fuses := fuses, crn := crnKept s
      pwr := { held := true, porLow := true, vmonGood := s.pwr.vmonGood, temps := s.pwr.temps } } : State).set
      Reg.JWL_STATUS_lc_state fuses.lcState) := by
    rw [pornLow, cut]
    rfl
  rw [low]
  refine ⟨⟨fun f hf => State.get_set_ne _ _ (Ne.symm hf), same, State.get_set_self ..⟩, rfl⟩

theorem pornLow_completes : completes (.pornLow t) s (fun u => (∀ f : Fld, f.key ≠ Reg.JWL_STATUS_lc_state.key → u.get f = f.rst) ∧
    (s.jwl.lcTarget = none → u.fuses = s.fuses) ∧ u.get Reg.JWL_STATUS_lc_state = u.fuses.lcState % 8 ∧
    u = { ({} : State) with
      pending := s.pending, ltb := max s.ltb t, freeCtr := u.freeCtr, out := u.out, fields := u.fields,
      straps := {}, fuses := u.fuses, crn := crnKept s, pwr := {
        held := true, porLow := true, vmonGood := s.pwr.vmonGood, temps := s.pwr.temps } }) := by
  obtain ⟨⟨rst, uncut, lcState⟩, fresh⟩ := pornLow_held (s.begin t)
  refine completes_fresh (f := pornLow) rfl ?_ ?_ ?_ ?_ ⟨rst, uncut, lcState, fresh⟩
  · rw [fresh]
  · rw [fresh]
  · rw [fresh]
  · exact (congrArg State.pending fresh).trans rfl

/-- Where PORN_RISE finds PORn not low, it passes through the reset of PORN_LOW (log 233). -/
def porState (s : State) : State := if s.pwr.porLow then s else pornLow s

/-- The state in which PORN_RISE resets the chip: the straps are sampled, and por alone is the cause (R424, R427). -/
def porRisen (s : State) (x : Straps) : State :=
  { ((porState s).set Reg.PWR_RST_CAUSE_cause 1).onPwr (fun p => { p with vmonWait := 1, resetAt := (porState s).ltb }) with straps := x }

theorem pornRise_eq (s : State) (x : Straps) : pornRise s x = resetState (porRisen s x) := rfl

theorem porState_get {f : Fld} (hf : f ∈ keptFields) : (porState s).get f = if s.pwr.porLow = true then s.get f else f.rst := by
  have other : f.key ≠ Reg.JWL_STATUS_lc_state.key := by revert f; decide
  unfold porState
  split
  · rfl
  · exact (pornLow_held s).1.1 f other

theorem porRisen_get (x : Straps) {f : Fld} (apart : Reg.PWR_RST_CAUSE_cause.key ≠ f.key) :
    (porRisen s x).get f = (porState s).get f := State.get_set_ne (porState s) 1 apart

theorem porRisen_fits (fits : ∀ f ∈ keptFields, s.get f < 2 ^ f.w) {f : Fld} (hf : f ∈ keptFields.drop 1) (x : Straps) :
    (porRisen s x).get f = (if s.pwr.porLow = true then s.get f else f.rst) ∧ (porRisen s x).get f < 2 ^ f.w := by
  have apart : Reg.PWR_RST_CAUSE_cause.key ≠ f.key := by revert f; decide
  have rst : f.rst < 2 ^ f.w := by revert f; decide
  have shown : (porRisen s x).get f = if s.pwr.porLow = true then s.get f else f.rst :=
    (porRisen_get x apart).trans (porState_get (List.mem_of_mem_drop hf))
  refine ⟨shown, shown.trans_lt ?_⟩
  split
  · exact fits f (List.mem_of_mem_drop hf)
  · exact rst

/-- What PORN_RISE keeps beside registers. -/
theorem porRisen_keeps (s : State) (x : Straps) : (porRisen s x).pending = s.pending ∧ (porRisen s x).ltb = s.ltb ∧
    crnKept (porRisen s x) = crnKept s ∧ (s.jwl.lcTarget = none → (porRisen s x).fuses = s.fuses) ∧
    resetPwr (porRisen s x).pwr = {
      held := true, vmonGood := s.pwr.vmonGood, vmonWait := 1, temps := s.pwr.temps, thermal := s.pwr.porLow && s.pwr.thermal
      resetAt := s.ltb, wdtDue := if s.pwr.porLow then s.pwr.wdtDue else [] } := by
  cases low : s.pwr.porLow with
  | true =>
    have same : porState s = s := if_pos low
    have crn : crnKept (porRisen s x) = crnKept s := by
      refine crnKept_congr ?_ ?_ ((porRisen_get x (by decide)).trans (by rw [same])) ((porRisen_get x (by decide)).trans (by rw [same])) <;>
        rw [porRisen, same] <;> rfl
    refine ⟨?_, ?_, crn, fun _ => ?_, ?_⟩ <;> rw [porRisen, same] <;> rfl
  | false =>
    have reset : porState s = pornLow s := if_neg (by simp [low])
    obtain ⟨⟨-, uncut, -⟩, fresh⟩ := pornLow_held s
    have crnBefore : (pornLow s).crn = crnKept s := (congrArg State.crn fresh).trans rfl
    have pwr : (pornLow s).pwr = { held := true, porLow := true, vmonGood := s.pwr.vmonGood, temps := s.pwr.temps } :=
      (congrArg State.pwr fresh).trans rfl
    have ltb : (pornLow s).ltb = s.ltb := (congrArg State.ltb fresh).trans rfl
    have pending : (pornLow s).pending = s.pending := (congrArg State.pending fresh).trans rfl
    have crn : crnKept (porRisen s x) = crnKept s := by
      have held : (porRisen s x).pwr.held = true := by
        rw [porRisen, reset]
        exact (congrArg Pwr.held pwr).trans rfl
      have now : (porRisen s x).crn = crnKept s := by
        rw [porRisen, reset]
        exact crnBefore
      rw [crnKept, booting, held, now]
      rfl
    refine ⟨?_, ?_, crn, fun none => ?_, ?_⟩ <;> rw [porRisen, reset]
    · exact pending
    · exact ltb
    · exact uncut none
    · simp only [State.onPwr, State.set_pwr, resetPwr, pwr, ltb]
      rfl

theorem pornRise_completes (boot region twin : BitVec 2) (host gridf refclk : Bool) (fits : ∀ f ∈ keptFields, s.get f < 2 ^ f.w) :
    completes (.pornRise t boot region twin host gridf refclk) s (fun u => u.get Reg.PWR_RST_CAUSE_cause = 1 ∧
      (∀ f ∈ keptFields.drop 1, u.get f = if s.pwr.porLow = true then s.get f else f.rst) ∧
      u.get Reg.PWR_STRAP_straps = strapWord ⟨boot, region, twin, host, gridf, refclk⟩ ∧
      u.get Reg.PWR_STATUS_strap_fault = (if region = 3 then 1 else 0) ∧
      u.get Reg.BAL_GRID_CFG_nominal = gridf.toNat ∧ u.get Reg.TWN_CTRL_role = (if twin = 3 then 0 else twin.toNat) ∧
      u.get Reg.HIF_STATUS_standalone = host.toNat ∧ (∀ r, r < 256 → u.get (Reg.HIF_RING_CTRL_owner r) = host.toNat) ∧
      (∀ v, v < 64 → u.get (Reg.HIF_VEC_CFG_dest v) = host.toNat) ∧ (∀ f : Fld, f.key ∉ resetFields.map Fld.key → u.get f = f.rst) ∧
      (s.jwl.lcTarget = none → u.fuses = s.fuses) ∧ u.get Reg.JWL_STATUS_lc_state = u.fuses.lcState % 8 ∧ u = { ({} : State) with
        pending := s.pending, ltb := max s.ltb t, freeCtr := u.freeCtr, out := u.out, fields := u.fields,
        straps := ⟨boot, region, twin, host, gridf, refclk⟩, fuses := u.fuses, crn := crnKept s, pwr := {
          held := true, vmonGood := s.pwr.vmonGood, vmonWait := 1, temps := s.pwr.temps,
          thermal := s.pwr.porLow && s.pwr.thermal, resetAt := max s.ltb t,
          wdtDue := if s.pwr.porLow then s.pwr.wdtDue else [] } }) := by
  have latch := fun (f : Fld) (hf : f ∈ keptFields.drop 1) =>
    porRisen_fits (s := s.begin t) fits hf ⟨boot, region, twin, host, gridf, refclk⟩
  obtain ⟨pending, ltb, crn, uncut, pwr⟩ := porRisen_keeps (s.begin t) ⟨boot, region, twin, host, gridf, refclk⟩
  have cause : (porRisen (s.begin t) ⟨boot, region, twin, host, gridf, refclk⟩).get Reg.PWR_RST_CAUSE_cause = 1 :=
    State.get_set_self (porState (s.begin t)) Reg.PWR_RST_CAUSE_cause 1
  have straps : (porRisen (s.begin t) ⟨boot, region, twin, host, gridf, refclk⟩).straps = ⟨boot, region, twin, host, gridf, refclk⟩ := rfl
  have effect : pornRise (s.begin t) ⟨boot, region, twin, host, gridf, refclk⟩ =
    resetState (porRisen (s.begin t) ⟨boot, region, twin, host, gridf, refclk⟩) := rfl
  generalize porRisen (s.begin t) ⟨boot, region, twin, host, gridf, refclk⟩ = v at *
  have held := resetState_held v
  rw [pending, ltb, straps, crn, pwr] at held
  obtain ⟨word, fault, nominal, role⟩ := applyStraps_plain (resetLatch v) ⟨boot, region, twin, host, gridf, refclk⟩
  have unlatched : ∀ f : Fld, 0xf0000 * 32 ≤ f.key → (resetLatch v).get f = f.rst := by
    refine fun f hf => (resetLatch_writes v).2 f (fun mem => ?_)
    have low : ∀ k ∈ (keptFields ++ [Reg.JWL_STATUS_lc_state]).map Fld.key, k < 0xf0000 * 32 := by decide
    exact Nat.not_le.2 (low _ mem) hf
  obtain ⟨standalone, rings, vecs⟩ := applyStraps_host (s := resetLatch v) (x := ⟨boot, region, twin, host, gridf, refclk⟩)
    (unlatched Reg.HIF_STATUS_standalone (by decide))
    (fun r _ => unlatched (Reg.HIF_RING_CTRL_owner r) (by simp only [Fld.key, Reg.HIF_RING_CTRL_owner]; omega))
    (fun v _ => unlatched (Reg.HIF_VEC_CFG_dest v) (by simp only [Fld.key, Reg.HIF_VEC_CFG_dest]; omega))
  have strapped := resetState_eq v
  rw [straps] at strapped
  rw [← strapped] at word fault nominal role standalone rings vecs
  refine completes_fresh (f := fun s => pornRise s ⟨boot, region, twin, host, gridf, refclk⟩) rfl ?_ ?_ ?_ ?_ ?_ <;> rw [effect]
  · rw [held]
  · rw [held]
  · rw [held]
  · exact (congrArg State.pending held).trans rfl
  · refine ⟨?_, fun f hf => ?_, word, fault, nominal, role, standalone, rings, vecs, fun f hf => resetState_rst hf,
      fun none => (resetState_fuses v).trans (uncut none), (resetState_lcState v).trans (by rw [resetState_fuses]), held⟩
    · exact (resetState_kept (by decide) (cause.trans_lt (by decide))).trans cause
    · exact (resetState_kept (List.mem_of_mem_drop hf) (latch f hf).2).trans (latch f hf).1

/-! The release, and causes of the reset's own cycle -/

/-- The release restarts the LTB and CORE0's watchdog (R42, R426); the die-to-die link is trained and the PLLs have locked (R428). -/
def chipReleased (s : State) : State :=
  ((({ s with ltb := 0 } : State).onPwr (fun p => { p with
    held := false, wdtStart := [(0, 0)], vmonGood := p.vmonGood.map (fun _ => 0), vmonWait := 0, thermal := false
    resetAt := 0, wdtDue := [] })).set Reg.PWR_STATUS_d2d_ok 1).set Reg.BAL_STATUS_refclk_unlocked 0

/-- It reports a strap fault (R427). -/
theorem chipResetRelease_acts (held : s.pwr.held = true) (por : s.pwr.porLow = false) (ends : holdOver s = true) :
    chipResetRelease s = if s.get Reg.PWR_STATUS_strap_fault ≠ 0 then (chipReleased s).raise 3 else chipReleased s := by
  have fault : (chipReleased s).get Reg.PWR_STATUS_strap_fault = s.get Reg.PWR_STATUS_strap_fault :=
    (State.get_set_ne _ _ (by decide)).trans (State.get_set_ne _ _ (by decide))
  rw [← fault]
  simp only [← State.on_iff]
  exact if_neg (by simp [held, por, ends])

theorem elsewhere_chipReleased {fs : List Fld} {ps : List Part} (h : s.elsewhere v fs ls ps) (hp : .power ∈ ps := by simp)
    (hf : Reg.PWR_STATUS_d2d_ok.key ∈ fs.map Fld.key ∧ Reg.BAL_STATUS_refclk_unlocked.key ∈ fs.map Fld.key := by simp) :
    s.elsewhere (chipReleased v) fs ls ps := by
  have restarted : s.elsewhere ({ v with ltb := 0 } : State) fs ls ps := by
    refine elsewhere_parts h rfl rfl (fun p _ => ?_)
    cases p
    case rings => exact fun _ _ => rfl
    case inForce => exact fun _ _ => rfl
    case stages => exact ⟨rfl, rfl⟩
    case samples => exact ⟨rfl, rfl⟩
    case cluster => trivial
    all_goals rfl
  exact .set (.set (elsewhere_onPwr restarted _ hp) hf.1) hf.2

theorem chipResetRelease_completes (held : s.pwr.held = true) (por : s.pwr.porLow = false) (ended : s.txDone = [])
    (told : s.pwr.inbox = []) (ends : holdOver (s.now t) = true) :
    changes (.chipResetRelease t) s [Reg.PWR_STATUS_d2d_ok, Reg.BAL_STATUS_refclk_unlocked] [] [.power] (fun u =>
      u.ltb = 0 ∧ u.pwr = { s.pwr with
        held := false, wdtStart := [(0, 0)], vmonGood := s.pwr.vmonGood.map (fun _ => 0), vmonWait := 0,
        thermal := false, resetAt := 0, wdtDue := [] } ∧ u.get Reg.PWR_STATUS_d2d_ok = 1 ∧
      u.get Reg.BAL_STATUS_refclk_unlocked = 0 ∧ (s.get Reg.PWR_STATUS_strap_fault ≠ 0 → 3 ∈ u.hif.pend)) := by
  have acts := chipResetRelease_acts (s := s.begin t) held por ends
  have reported : Kept (chipReleased (s.begin t)) (chipResetRelease (s.begin t)) := by
    rw [acts]
    split
    · exact raise_kept _ _ _ _ _ (by decide)
    · exact Kept.refl _
  have told' : (chipResetRelease (s.begin t)).pwr.inbox = [] := (congrArg Pwr.inbox reported.pwr).trans told
  refine changes_actReset (f := chipResetRelease) rfl (reported.txDone.trans ended) told'
    (elsewhere_kept (elsewhere_chipReleased (.start s t)) reported) (fun u kept => ?_)
  have all := reported.trans kept
  refine ⟨all.ltb, all.pwr, (all.get _ (by decide)).trans ?_, (all.get _ (by decide)).trans (State.get_set_self ..), fun fault => ?_⟩
  · exact (State.get_set_ne _ _ (by decide)).trans (State.get_set_self ..)
  · refine kept.pend _ ?_
    rw [acts.trans (if_pos fault)]
    exact raise_pend ..

/-- A command of the reset domain whose effect is that of `v` but for what the Chronograph has measured before. -/
theorem leadsTo_reset {c : Instr} {f : State → State} (e : exec c s = actReset t s f)
    (k : f (s.begin t) = { v with chr := chrTime s (max s.ltb t) }) (chr : v.chr = s.chr) (ht : v.txDone = [])
    (hi : v.pwr.inbox = []) : leadsTo c s v := by
  have same : Kept v (f (s.begin t)) := k ▸ (Kept.refl v).chr _ (chr ▸ chrTime_same s _)
  exact completes_actReset e (same.txDone.trans ht) ((congrArg Pwr.inbox same.pwr).trans hi) (fun _ hu => same.trans hu)

/-- What a chip reset is held for is not over: its release waits (R423, R424). -/
theorem chipResetRelease_waits (ended : s.txDone = []) (told : s.pwr.inbox = [])
    (waits : s.pwr.porLow = true ∨ holdOver (s.now t) = false) : leadsTo (.chipResetRelease t) s (s.now t) := by
  refine leadsTo_reset (f := chipResetRelease) rfl (if_pos ?_) rfl ended told
  have same : holdOver (s.begin t) = holdOver (s.now t) := rfl
  rw [same, begin_pwr]
  rcases waits with low | hold
  · simp [low]
  · simp [hold]

/-- Another cause in the fabric cycle in which chip reset was asserted sets its bit too (R424). -/
theorem sameCycle_leads {c : Instr} {f : State → State} {k : Nat} (e : exec c s = actReset t s f)
    (effect : f (s.begin t) = sameCycle (s.begin t) k true) (ended : s.txDone = []) (told : s.pwr.inbox = [])
    (por : s.pwr.porLow = false) (now : s.pwr.resetAt = max s.ltb t) :
    leadsTo c s ((s.now t).set Reg.PWR_RST_CAUSE_cause (s.get Reg.PWR_RST_CAUSE_cause ||| 2 ^ k)) := by
  have cycle : (!(s.begin t).pwr.porLow && (s.begin t).pwr.resetAt == (s.begin t).ltb && true) = true := by
    rw [begin_pwr, por, now]
    simp
  exact leadsTo_reset e (effect.trans (if_pos cycle)) rfl ended told

/-- Settles O59: every cause is the one effect `chipReset` (`chipReset_held`), PORN_RISE resets likewise from `porRisen`, and the
state in reset leaves the end of a command nothing to do. -/
theorem chipResetCompletes : Obligations.ChipResetCompletes := fun t s =>
  ⟨fun n rf dig c k up por fits hc => resetCauses_complete n rf dig c k up por fits hc, pornLow_completes,
    fun boot region twin host gridf refclk fits => pornRise_completes boot region twin host gridf refclk fits,
    chipResetRelease_completes, fun _ ended told => chipResetRelease_waits ended told,
    fun held ended told por now => ⟨
      sameCycle_leads (f := fun s => chipResetCommand s rstKey) rfl (if_pos held) ended told por now,
      fun n due => sameCycle_leads (f := fun s => watchdogExpiry s n.val) rfl
        ((if_pos held).trans (congrArg (sameCycle (s.begin t) causeWdt) (List.contains_iff_mem.2 due))) ended told por now⟩⟩

end ChipReset
end Sys2Proof.Machine

namespace Sys2Proof.Machine

/-! ### A statistics epoch ends (R70, R207, R433) -/

section StatisticsEpoch

set_option Elab.async false

variable {t : Nat} {s v w : State}

/-! What the other blocks do at a boundary leaves what the Balance has shown of it -/

/-- The fields in which the Balance shows an epoch boundary. -/
def epochFields : List Fld := [Reg.BAL_EPOCH_NUM_epoch_num, Reg.BAL_EPOCH_STAT_unread, Reg.BAL_EPOCH_STAT_overrun]

/-- What is shown of an epoch boundary is the same in `u`, no event is taken back, and no transmission has ended. -/
structure BoundaryKept (s u : State) : Prop where
  get : ∀ f ∈ epochFields, u.get f = s.get f
  pend : ∀ e ∈ s.hif.pend, e ∈ u.hif.pend
  last : u.bal.epochLast = s.bal.epochLast
  txDone : u.txDone = s.txDone

theorem BoundaryKept.refl (s : State) : BoundaryKept s s := ⟨fun _ _ => rfl, fun _ => id, rfl, rfl⟩

theorem BoundaryKept.trans (h : BoundaryKept s v) (k : BoundaryKept v w) : BoundaryKept s w :=
  ⟨fun f hf => (k.get f hf).trans (h.get f hf), fun e he => k.pend e (h.pend e he), k.last.trans h.last, k.txDone.trans h.txDone⟩

theorem Kept.boundary (k : Kept s v) : BoundaryKept s v :=
  ⟨fun f hf => k.get f (by revert f; decide), k.pend, congrArg Bal.epochLast k.bal, k.txDone⟩

/-- An update of anything else. -/
theorem boundary_of_eq (hf : v.fields = s.fields := by rfl) (hp : v.hif.pend = s.hif.pend := by rfl)
    (hb : v.bal.epochLast = s.bal.epochLast := by rfl) (ht : v.txDone = s.txDone := by rfl) : BoundaryKept s v :=
  ⟨fun f _ => State.get_eq hf f, fun _ he => hp ▸ he, hb, ht⟩

theorem boundary_set (s : State) {f : Fld} (x : Nat) (hf : f.key ∉ epochFields.map Fld.key) : BoundaryKept s (s.set f x) :=
  ⟨fun _ hg => State.get_set_ne _ _ (fun e => hf (e ▸ List.mem_map_of_mem hg)), fun _ => id, rfl, rfl⟩

/-- The registers of the blocks above the Balance. -/
theorem key_above {f : Fld} (h : 0x20051 ≤ f.off) : f.key ∉ epochFields.map Fld.key := by
  have low : ∀ k ∈ epochFields.map Fld.key, k < 0x20051 * 32 := by decide
  intro mem
  have := low _ mem
  unfold Fld.key at this
  omega

theorem boundary_foldl {α : Type} {f : State → α → State} (l : List α) (s : State) (h : ∀ v, ∀ x ∈ l, BoundaryKept v (f v x)) :
    BoundaryKept s (l.foldl f s) := by
  induction l generalizing s with
  | nil => exact .refl s
  | cons a r ih => exact (h s a (List.mem_cons_self ..)).trans (ih _ (fun v x hx => h v x (List.mem_cons_of_mem _ hx)))

theorem boundary_ite {p : Prop} [Decidable p] (h : p → BoundaryKept s v) (k : ¬p → BoundaryKept s w) :
    BoundaryKept s (if p then v else w) := by
  split
  · exact h ‹_›
  · exact k ‹_›

theorem boundary_bump (s : State) (c : Nat) : BoundaryKept s (s.bump c) := boundary_of_eq

theorem boundary_raise (s : State) (ev a b c : Nat) : BoundaryKept s (s.raise ev a b c) := by
  by_cases fault : faultEvents.contains ev = true
  · have given : BoundaryKept s (s.onPwr (fun p => { p with inbox := p.inbox ++ [⟨ev, a, b, c⟩] })) := boundary_of_eq
    exact given.trans (raise_fault s ev a b c fault).boundary
  · exact (raise_kept s ev a b c (by simpa using fault)).boundary

/-! Lanes, and the fault classifier -/

theorem boundary_occRoll (s : State) (n : Nat) : BoundaryKept s (occRoll s n) := boundary_ite (fun _ => .refl s) (fun _ => boundary_of_eq)

theorem boundary_rxReached (s : State) : BoundaryKept s (rxReached s) := by
  have start : ∀ v : State, ∀ e : Nat × RxOpen, BoundaryKept v (rxAtStart v e.1 e.2) := fun v e =>
    boundary_ite (fun _ => boundary_of_eq) (fun _ => boundary_ite (fun _ => boundary_of_eq) (fun _ => boundary_of_eq))
  refine boundary_ite (fun _ => .refl s) (fun _ => ?_)
  have sent : ∀ v : State, BoundaryKept v (txReached v) := fun v => boundary_of_eq
  exact (boundary_foldl _ s (fun v e _ => start v e)).trans (sent _)

theorem boundary_nbReached (s : State) : BoundaryKept s (nbReached s) :=
  boundary_ite (fun _ => .refl s) (fun _ => (boundary_rxReached s).trans boundary_of_eq)

theorem boundary_laneStop (s : State) (n : Nat) : BoundaryKept s (laneStop s n) := by
  have broken := (boundary_nbReached s).trans (boundary_occRoll (nbReached s) n)
  have stopped := broken.trans (boundary_of_eq (v := (occBreak (nbReached s) n).onLane n (fun l =>
    { l with rx := none, testing := 0, stopping := false })))
  exact ((stopped.trans (boundary_set _ 0 (key_above (Nat.le_add_right_of_le (by decide))))).trans
    (boundary_set _ laneOFF (key_above (Nat.le_add_right_of_le (by decide))))).trans (boundary_raise ..)

theorem boundary_laneChannelStop (s : State) (band freq widthHz : Nat) : BoundaryKept s (laneChannelStop s band freq widthHz) := by
  refine boundary_foldl _ s (fun v e _ => ?_)
  dsimp only
  split
  · exact boundary_ite (fun _ => boundary_ite (fun _ => boundary_of_eq) (fun _ => boundary_laneStop ..)) (fun _ => .refl v)
  · exact .refl v

theorem boundary_channelRetire (s : State) (k : Nat) : BoundaryKept s (channelRetire s k) :=
  boundary_ite (fun _ => .refl s) (fun _ => ((boundary_rxReached s).trans
    (boundary_set _ 1 (key_above (Nat.le_add_right_of_le (by decide))))).trans (boundary_laneChannelStop ..))

theorem boundary_autoRetire (s : State) (lane band freq : Nat) : BoundaryKept s (autoRetire s lane band freq) := by
  refine boundary_ite (fun _ => .refl s) (fun _ => ?_)
  split
  · exact (boundary_bump ..).trans (boundary_raise ..)
  · next k _ =>
    have named := (boundary_set s freq (key_above (f := Reg.CHZ_RCH_FREQ_freq_khz k) (Nat.le_add_right_of_le (by decide)))).trans
      (boundary_set _ band (key_above (f := Reg.CHZ_RCH_FREQ_band k) (Nat.le_add_right_of_le (by decide))))
    exact (((named.trans (boundary_set _ _ (key_above (Nat.le_add_right_of_le (by decide))))).trans (boundary_channelRetire ..)).trans
      (boundary_bump ..)).trans (boundary_raise ..)

theorem boundary_declare (s : State) (cls obj idx : Nat) : BoundaryKept s (declare s cls obj idx) := by
  have listed : BoundaryKept s (s.onPwr (fun p => { p with
    perm := if s.pwr.perm.length < 16 then s.pwr.perm ++ [(cls, obj, idx)] else s.pwr.perm })) := boundary_of_eq
  exact ((listed.trans (boundary_set _ _ (by decide))).trans (boundary_bump ..)).trans (boundary_raise ..)

/-- What a permanent fault of class `cls` makes of the state (R434, R435). -/
def permanentFault (s : State) (e : FaultEv) (cls obj idx : Nat) : State :=
  match cls with
  | 3 => autoRetire (declare s 3 e.a0 0) e.a0 obj idx
  | 5 => declare s 5 obj e.a1
  | _ => declare s cls obj idx

theorem boundary_permanentFault (s : State) (e : FaultEv) (cls obj idx : Nat) : BoundaryKept s (permanentFault s e cls obj idx) := by
  unfold permanentFault
  split
  · exact (boundary_declare ..).trans (boundary_autoRetire ..)
  · exact boundary_declare ..
  · exact boundary_declare ..

theorem boundary_classifyFault (s : State) (e : FaultEv) : BoundaryKept s (classifyFault s e) := by
  have put : ∀ h : FaultHist, BoundaryKept s (s.onPwr (fun p => { p with hist := histPut p.hist h })) := fun h => boundary_of_eq
  unfold classifyFault
  split
  · exact boundary_bump ..
  · exact boundary_ite (fun _ => (put _).trans (boundary_permanentFault _ e _ _ _)) (fun _ => (put _).trans (boundary_bump ..))

theorem boundary_classifyInbox (n : Nat) (s : State) : BoundaryKept s (classifyInbox n s) := by
  induction n generalizing s with
  | zero => exact .refl s
  | succ n ih =>
    unfold classifyInbox
    split
    · exact .refl s
    · next e r _ =>
      have taken : BoundaryKept s (s.onPwr (fun p => { p with inbox := r })) := boundary_of_eq
      exact (taken.trans (boundary_classifyFault ..)).trans (ih _)

theorem boundary_takeEffect (s : State) (l : List Fld) : BoundaryKept s (s.takeEffect l) := by
  rw [takeEffect_eq]
  exact boundary_of_eq

theorem boundary_classifierEpoch (s : State) : BoundaryKept s (classifierEpoch s) := by
  have streaks : ∀ f : Pwr → Pwr, BoundaryKept s (s.onPwr f) := fun f => boundary_of_eq
  exact (streaks _).trans (boundary_takeEffect ..)

/-- The parity counts restart (R144). -/
def parityCleared (s : State) : State := (List.range 128).foldl (fun s n => s.set (Reg.CHZ_LANE_FAULT_par_count n) 0) s

/-- The share of the epoch in which lane `n` found its channel occupied, and EV082 (R146). -/
def laneOccupancy (s : State) (n : Nat) : State :=
  let s := occRoll s n
  let l := s.laneOf n
  let pct := if l.searchMs = 0 then 0 else l.busyMs * 100 / l.searchMs
  let s := (s.setLane n { l with searchMs := 0, busyMs := 0 }).set (Reg.CHZ_LANE_ED_occ_pct n) pct
  match l.assign with
  | some a =>
    if l.searchMs ≠ 0 ∧ s.cur Reg.CHZ_FAULT_CFG2_interf_pct ≤ pct then
      (s.set (Reg.CHZ_LANE_FAULT_occupied n) 1).raise 82 n (bandFreq a)
    else s
  | none => s

/-- The periodic self-tests of the lanes (R143). -/
def selftestsPlanned (s : State) : State :=
  if s.cur Reg.CHZ_FAULT_CFG2_selftest_period ≠ 0 ∧ s.get Reg.BAL_EPOCH_NUM_epoch_num % s.cur Reg.CHZ_FAULT_CFG2_selftest_period = 0 then
    (List.range 128).foldl (fun s n => s.onLane n (fun l => { l with periodic := some (s.ltb + n * 1000000) })) s
  else s

theorem laneEpoch_eq (s : State) : laneEpoch s =
    (selftestsPlanned ((parityCleared s).lanes.foldl (fun s e => laneOccupancy s e.1) (parityCleared s))).takeEffect laneFields := rfl

theorem boundary_laneOccupancy (s : State) (n : Nat) : BoundaryKept s (laneOccupancy s n) := by
  have lane : ∀ l pct, BoundaryKept s (((occRoll s n).setLane n l).set (Reg.CHZ_LANE_ED_occ_pct n) pct) := fun l pct =>
    ((boundary_occRoll s n).trans (boundary_of_eq (v := (occRoll s n).setLane n l))).trans
      (boundary_set _ pct (key_above (Nat.le_add_right_of_le (by decide))))
  have flagged : ∀ v a, BoundaryKept v ((v.set (Reg.CHZ_LANE_FAULT_occupied n) 1).raise 82 n a) := fun v a =>
    (boundary_set v 1 (key_above (Nat.le_add_right_of_le (by decide)))).trans (boundary_raise ..)
  unfold laneOccupancy
  dsimp only
  split
  · exact boundary_ite (fun _ => (lane ..).trans (flagged ..)) (fun _ => lane ..)
  · exact lane ..

theorem boundary_laneEpoch (s : State) : BoundaryKept s (laneEpoch s) := by
  have cleared : BoundaryKept s (parityCleared s) :=
    boundary_foldl _ s (fun v n _ => boundary_set v 0 (key_above (Nat.le_add_right_of_le (by decide))))
  have planned : ∀ v, BoundaryKept v (selftestsPlanned v) := fun v =>
    boundary_ite (fun _ => boundary_foldl _ v (fun w n _ => boundary_of_eq)) (fun _ => .refl v)
  rw [laneEpoch_eq]
  exact ((cleared.trans (boundary_foldl _ _ (fun v e _ => boundary_laneOccupancy v e.1))).trans (planned _)).trans (boundary_takeEffect ..)

theorem boundary_refusalEpoch (s : State) : BoundaryKept s (refusalEpoch s) := by
  have compared : ∀ v : State, ∀ f : Amc → Amc, BoundaryKept v (v.onAmc f) := fun v f => boundary_of_eq
  have restarted := (boundary_takeEffect s [Reg.AMC_ACK_CFG_refuse_thr]).trans (compared _ (fun a => { a with refusals := 0 }))
  unfold refusalEpoch
  dsimp only
  split
  · exact restarted.trans (boundary_raise ..)
  · exact restarted

/-! Frames that expire -/

theorem boundary_setRing (s : State) (r : Nat) (g : Ring) : BoundaryKept s (s.setRing r g) := boundary_of_eq

theorem boundary_memOut (s : State) (o a : Nat) (l : List Byte) : BoundaryKept s (s.memOut o a l) :=
  boundary_ite (fun _ => boundary_of_eq) (fun _ => boundary_of_eq)

theorem boundary_ringCause (s : State) (r : Nat) : BoundaryKept s (ringCause s r) :=
  boundary_ite (fun _ => (boundary_setRing ..).trans (vecCause_kept ..).boundary) (fun _ => .refl s)

theorem boundary_tsfTake (s : State) (i ref : Nat) : BoundaryKept s (tsfTake s i ref).2 := boundary_of_eq

theorem boundary_complete (s : State) (host : Option (Nat × Nat)) (c : Completion) : BoundaryKept s (complete s host c) := by
  unfold complete
  split
  · exact .refl s
  · next r ref =>
    dsimp only
    split
    · refine boundary_ite (fun _ => ?_) (fun _ => .refl s)
      exact boundary_of_eq
    · refine boundary_ite (fun _ => boundary_setRing ..) (fun _ => ?_)
      have told : ∀ (v : State) (o a : Nat) (l : List Byte) (g : Ring), BoundaryKept v (ringCause ((v.memOut o a l).setRing r g) r) :=
        fun v o a l g => ((boundary_memOut v o a l).trans (boundary_setRing ..)).trans (boundary_ringCause ..)
      split
      · exact (boundary_tsfTake ..).trans (told ..)
      · exact told ..

theorem boundary_completeLater (s : State) (host : Option (Nat × Nat)) (c : Completion) : BoundaryKept s (completeLater s host c) := by
  unfold completeLater
  split
  · exact .refl s
  · exact boundary_setRing ..

theorem boundary_markStage (s : State) (mark : Option Nat) (k at_ : Nat) : BoundaryKept s (markStage s mark k at_) := by
  unfold markStage
  split
  · exact .refl s
  · split
    · exact .refl s
    · exact boundary_of_eq

theorem boundary_histFrame (s : State) (u : Nat) (f : TagStages) : BoundaryKept s (histFrame s u f) := by
  refine boundary_ite (fun _ => .refl s) (fun _ => ?_)
  split
  · exact boundary_ite (fun _ => boundary_of_eq) (fun _ => boundary_bump ..)
  · exact boundary_bump ..

theorem boundary_trecPush (s : State) (r : List Nat) : BoundaryKept s (trecPush s r) := by
  have pushed : ∀ c : Chr, BoundaryKept s (({ s with chr := c } : State).set Reg.CHR_TAG_STAT_level (s.chr.recs ++ [r]).length) := fun c =>
    BoundaryKept.trans (boundary_of_eq (s := s) (v := { s with chr := c })) (boundary_set _ _ (by decide))
  exact boundary_ite (fun _ => (pushed _).trans (boundary_raise ..)) (fun _ => pushed _)

/-- The record of a tagged frame that has ended is kept, or waits for a place in the FIFO (R416). -/
def recordKept (s : State) (r : List Nat) : State :=
  let s := s.set Reg.CHR_TAG_STAT_active (s.get Reg.CHR_TAG_STAT_active - 1)
  if 32 ≤ s.chr.recs.length then { s with chr := { s.chr with spill := s.chr.spill ++ [r] } } else trecPush s r

theorem boundary_recordKept (s : State) (r : List Nat) : BoundaryKept s (recordKept s r) := by
  have counted := boundary_set s (f := Reg.CHR_TAG_STAT_active) (s.get Reg.CHR_TAG_STAT_active - 1) (by decide)
  exact boundary_ite (fun _ => counted.trans boundary_of_eq) (fun _ => counted.trans (boundary_trecPush ..))

theorem boundary_markEnd (s : State) (mark : Option Nat) (dropped : Bool) : BoundaryKept s (markEnd s mark dropped) := by
  unfold markEnd
  split
  · exact .refl s
  · next id =>
    split
    · exact .refl s
    · next f _ =>
      have frames : ∀ (v : State) (l : List Nat), BoundaryKept v (l.foldl (fun s u => histFrame s u f) v) := fun v l =>
        boundary_foldl _ v (fun w u _ => boundary_histFrame w u f)
      have ended := BoundaryKept.trans (boundary_of_eq (s := s) (v := { s with chr := { s.chr with tagged := tabDel s.chr.tagged id } }))
        (frames _ (histUnits ({ s with chr := { s.chr with tagged := tabDel s.chr.tagged id } } : State) 0))
      exact boundary_ite (fun _ => ended) (fun _ => ended.trans ((frames _ _).trans (boundary_recordKept ..)))

theorem boundary_airReport (s : State) (f : EscFrame) : BoundaryKept s (airReport s f).2 := by
  have pushed : ∀ i r, BoundaryKept s (tsfPush s i r).2 := by
    intro i r
    unfold tsfPush
    dsimp only
    split
    · exact (boundary_bump ..).trans (boundary_raise ..)
    · exact boundary_of_eq
  unfold airReport
  split
  · split
    · exact pushed ..
    · exact .refl s
  · exact .refl s

theorem boundary_poolGive (s : State) (p n : Nat) : BoundaryKept s (poolGive s p n) := by
  have freed : ∀ x, BoundaryKept s (s.set (Reg.CTX_POOL_FREE_free p) x) := fun x =>
    boundary_set s x (key_above (Nat.le_add_right_of_le (by decide)))
  exact boundary_ite (fun _ => (freed _).trans boundary_of_eq) (fun _ => freed _)

theorem boundary_escEnd (s : State) (f : EscFrame) (dropped : Bool) (c : Completion) : BoundaryKept s (escEnd s f dropped c) := by
  have ended : ∀ v, BoundaryKept v (airReport (markEnd v f.mark dropped) f).2 := fun v =>
    (boundary_markEnd ..).trans (boundary_airReport ..)
  have told : ∀ v c', BoundaryKept v (if f.last then complete v f.host c' else
      if c'.esc = 0 ∧ c'.tx = 0 ∧ c'.amc = 0 then v else completeLater v f.host c') := fun v c' =>
    boundary_ite (fun _ => boundary_complete ..) (fun _ => boundary_ite (fun _ => .refl v) (fun _ => boundary_completeLater ..))
  unfold escEnd
  cases f.first with
  | none => exact ((boundary_poolGive ..).trans (ended _)).trans (told _ _)
  | some t => exact (((boundary_poolGive ..).trans (boundary_markStage ..)).trans (ended _)).trans (told _ _)

theorem boundary_escDrop (s : State) (f : EscFrame) (status : Nat) : BoundaryKept s (escDrop s f status) := by
  unfold escDrop
  dsimp only
  split
  · exact (boundary_bump ..).trans (boundary_escEnd ..)
  · exact boundary_escEnd ..

theorem boundary_stallCount (s : State) : BoundaryKept s (stallCount s) := by
  unfold stallCount
  split
  · exact .refl s
  · exact boundary_of_eq

theorem boundary_creditSettle (s : State) : BoundaryKept s (creditSettle s) :=
  boundary_ite (fun _ => (boundary_stallCount s).trans boundary_of_eq) (fun _ => .refl s)

theorem boundary_setSvcQueue (s : State) (n : Nat) (q : List EscFrame) : BoundaryKept s (setSvcQueue s n q) := by
  have put : ∀ f : Esc → Esc, BoundaryKept s (s.onEsc f) := fun f => boundary_of_eq
  exact boundary_ite (fun _ => (put _).trans (boundary_creditSettle _)) (fun _ => put _)

theorem boundary_cset (s : State) (k : Nat) (f : CFld) (x : Nat) : BoundaryKept s (s.cset k f x) := boundary_of_eq

theorem boundary_setSubQueue (s : State) (k : Nat) (q : List EscFrame) : BoundaryKept s (setSubQueue s k q) := by
  have put : ∀ f : Esc → Esc, BoundaryKept s (s.onEsc f) := fun f => boundary_of_eq
  have moved : ∀ v l, BoundaryKept v (hopsMoved s v l) := fun v l => boundary_of_eq
  have queued := fun f l => ((put f).trans (moved _ l)).trans (boundary_cset _ k Cx.qlen (newHeads s.ltb (subQueue s k) [] q).length)
  unfold setSubQueue
  dsimp only
  split
  · exact ((queued _ _).trans (boundary_cset ..)).trans (boundary_cset ..)
  · exact queued _ _

theorem boundary_expireSub (s : State) (k : Nat) (port : EscFrame → Nat) : BoundaryKept s (expireSub s k port) :=
  boundary_ite (fun _ => .refl s)
    (fun _ => (boundary_setSubQueue ..).trans (boundary_foldl _ _ (fun v f _ => boundary_escDrop v f 5)))

theorem boundary_expireSvc (s : State) (n : Nat) : BoundaryKept s (expireSvc s n) :=
  boundary_ite (fun _ => .refl s)
    (fun _ => (boundary_setSvcQueue ..).trans (boundary_foldl _ _ (fun v f _ => boundary_escDrop v f 5)))

theorem boundary_expireAll (s : State) : BoundaryKept s (expireAll s) :=
  (boundary_foldl _ s (fun v k _ => boundary_expireSub v k agePort)).trans (boundary_foldl _ _ (fun v n _ => boundary_expireSvc v n))

/-! The boundary -/

/-- What the other blocks do at a boundary after the Balance (log 283). -/
theorem boundary_others (s : State) :
    BoundaryKept s (refusalEpoch (expireAll (classifierEpoch (classifyInbox 64 (laneEpoch s))))) :=
  ((((boundary_laneEpoch s).trans (boundary_classifyInbox 64 _)).trans (boundary_classifierEpoch _)).trans (boundary_expireAll _)).trans
    (boundary_refusalEpoch _)

theorem boundary_finish (ended : s.txDone = []) : BoundaryKept s s.finish := by
  unfold State.finish
  rw [txDrain_nil _ ended]
  exact (boundary_classifyInbox 64 s).trans ((chrRises_kept _).trans (chrSettle_kept _)).boundary

/-- The Chronograph's own boundary is its own (R412, R419). -/
theorem boundary_chrEpoch (s : State) : BoundaryKept s (chrEpoch s) := by
  refine ((boundary_takeEffect s _).trans (boundary_takeEffect _ _)).trans
    ((boundary_foldl _ _ (fun v k _ => ?_)).trans (boundary_foldl _ _ (fun v k _ => ?_)))
  · exact boundary_ite (fun _ => boundary_of_eq) (fun _ => .refl v)
  · exact boundary_ite (fun _ => boundary_of_eq) (fun _ => .refl v)

theorem boundary_countersEpoch (s : State) : BoundaryKept s (countersEpoch s) := by
  have stalled : BoundaryKept s (sweepStallCount (stallCount s)) := by
    refine (boundary_stallCount s).trans ?_
    unfold sweepStallCount
    split
    · exact .refl _
    · exact boundary_of_eq
  have settled := stalled.trans (lostSettle_kept _).boundary
  have restarted := settled.trans (boundary_of_eq (s := lostSettle (sweepStallCount (stallCount s)))
    (v := { lostSettle (sweepStallCount (stallCount s)) with
      cntLast := (lostSettle (sweepStallCount (stallCount s))).cnt, cnt := [], once := [] }))
  exact restarted.trans (boundary_chrEpoch _)

/-- The epoch of the boundary is numbered, and a length that waited for it is in force. -/
def epochNumbered (s : State) (k : Nat) : State :=
  let v := (s.onBal (fun b => { b with epochLatch := false, epochFixed := none, epochLast := k })).takeEffect
    [Reg.BAL_EPOCH_LEN_epoch_len]
  v.set Reg.BAL_EPOCH_NUM_epoch_num (v.get Reg.BAL_EPOCH_NUM_epoch_num + 1)

/-- The epoch waits to be read; one that has not been read is overrun. -/
def epochUnread (s : State) : State :=
  (if s.on Reg.BAL_EPOCH_STAT_unread then s.set Reg.BAL_EPOCH_STAT_overrun 1 else s).set Reg.BAL_EPOCH_STAT_unread 1

theorem balEpoch_eq (s : State) (k : Nat) : balEpoch s k = (epochUnread (epochNumbered s k)).raise 40 := rfl

theorem epochNumbered_shows (s : State) (k : Nat) :
    (epochNumbered s k).get Reg.BAL_EPOCH_NUM_epoch_num = (s.get Reg.BAL_EPOCH_NUM_epoch_num + 1) % 2 ^ 32 ∧
    (epochNumbered s k).get Reg.BAL_EPOCH_STAT_unread = s.get Reg.BAL_EPOCH_STAT_unread ∧
    (epochNumbered s k).bal.epochLast = k ∧ (epochNumbered s k).txDone = s.txDone := by
  refine ⟨?_, ?_, ?_, ?_⟩ <;> unfold epochNumbered <;> dsimp only
  · rw [State.get_set_self, State.takeEffect_get, State.onBal_get]
    rfl
  · rw [State.get_set_ne _ _ (by decide), State.takeEffect_get, State.onBal_get]
  · rw [State.set_bal, State.takeEffect_bal, State.onBal_bal]
  · rw [State.set_txDone, State.takeEffect_txDone, State.onBal_txDone]

theorem epochUnread_shows (s : State) : (epochUnread s).get Reg.BAL_EPOCH_NUM_epoch_num = s.get Reg.BAL_EPOCH_NUM_epoch_num ∧
    (s.get Reg.BAL_EPOCH_STAT_unread ≠ 0 → (epochUnread s).get Reg.BAL_EPOCH_STAT_overrun = 1) ∧
    (epochUnread s).get Reg.BAL_EPOCH_STAT_unread = 1 ∧ (epochUnread s).bal = s.bal ∧ (epochUnread s).txDone = s.txDone := by
  unfold epochUnread
  by_cases old : s.on Reg.BAL_EPOCH_STAT_unread = true
  · rw [if_pos old]
    refine ⟨(State.get_set_ne _ _ (by decide)).trans (State.get_set_ne _ _ (by decide)), fun _ => ?_, State.get_set_self .., rfl, rfl⟩
    exact (State.get_set_ne _ _ (by decide)).trans (State.get_set_self ..)
  · rw [if_neg old]
    exact ⟨State.get_set_ne _ _ (by decide), fun on => absurd (State.on_iff.2 on) old, State.get_set_self .., rfl, rfl⟩

/-- What the Balance shows of a boundary (R70). -/
theorem balEpoch_shows (s : State) (k : Nat) :
    (balEpoch s k).get Reg.BAL_EPOCH_NUM_epoch_num = (s.get Reg.BAL_EPOCH_NUM_epoch_num + 1) % 2 ^ 32 ∧
    (s.get Reg.BAL_EPOCH_STAT_unread ≠ 0 → (balEpoch s k).get Reg.BAL_EPOCH_STAT_overrun = 1) ∧
    (balEpoch s k).get Reg.BAL_EPOCH_STAT_unread = 1 ∧ 40 ∈ (balEpoch s k).hif.pend ∧ (balEpoch s k).bal.epochLast = k ∧
    (balEpoch s k).txDone = s.txDone := by
  obtain ⟨num, before, last, ended⟩ := epochNumbered_shows s k
  obtain ⟨same, overrun, unread, bal, ended'⟩ := epochUnread_shows (epochNumbered s k)
  have kept := raise_kept (epochUnread (epochNumbered s k)) 40 0 0 0 (by decide)
  rw [before] at overrun
  rw [balEpoch_eq]
  refine ⟨(kept.get _ (by decide)).trans (same.trans num), fun old => (kept.get _ (by decide)).trans (overrun old),
    (kept.get _ (by decide)).trans unread, raise_pend .., ?_, (kept.txDone.trans ended').trans ended⟩
  rw [kept.bal, bal, last]

/-- A command that changes state as `f` does completes in a state that shows the epoch boundary of `f`'s. -/
theorem completes_boundary {c : Instr} {f : State → State} {P : State → Prop} (e : exec c s = act t s f) (h : s.settled)
    (ended : (f (s.begin t)).txDone = []) (hP : ∀ u, BoundaryKept (f (s.begin t)) u → P u) : completes c s P := by
  have queued : BoundaryKept (f (s.begin t)).finish { (f (s.begin t)).finish with pending := s.pending } := boundary_of_eq
  refine ⟨_, e.trans ?_, hP _ ((boundary_finish ended).trans queued)⟩
  rw [act, h.1]
  rfl

theorem statisticsEpoch_due {k : Nat} (due : epochDue s = some k) : statisticsEpoch s =
    refusalEpoch (expireAll (classifierEpoch (classifyInbox 64 (laneEpoch (balEpoch (countersEpoch s) k))))) := by
  rw [statisticsEpoch, due]

/-- `u` shows the epoch boundary `k` that came in `s`. -/
def epochShown (s : State) (k : Nat) (u : State) : Prop :=
  u.get Reg.BAL_EPOCH_NUM_epoch_num = (s.get Reg.BAL_EPOCH_NUM_epoch_num + 1) % 2 ^ 32 ∧
  (s.get Reg.BAL_EPOCH_STAT_unread ≠ 0 → u.get Reg.BAL_EPOCH_STAT_overrun = 1) ∧
  u.get Reg.BAL_EPOCH_STAT_unread = 1 ∧ 40 ∈ u.hif.pend ∧ u.bal.epochLast = k

theorem BoundaryKept.shown {k : Nat} (kept : BoundaryKept v w) (h : epochShown s k v) : epochShown s k w := by
  obtain ⟨num, overrun, unread, pend, last⟩ := h
  exact ⟨(kept.get _ (by decide)).trans num, fun old => (kept.get _ (by decide)).trans (overrun old),
    (kept.get _ (by decide)).trans unread, kept.pend _ pend, kept.last.trans last⟩

theorem statisticsEpoch_shows {k : Nat} (due : epochDue s = some k) :
    epochShown s k (statisticsEpoch s) ∧ (statisticsEpoch s).txDone = s.txDone := by
  have counted := boundary_countersEpoch s
  obtain ⟨num, overrun, unread, pend, last, ended⟩ := balEpoch_shows (countersEpoch s) k
  have others := boundary_others (balEpoch (countersEpoch s) k)
  rw [← statisticsEpoch_due due] at others
  rw [counted.get _ (by decide)] at num overrun
  exact ⟨others.shown ⟨num, overrun, unread, pend, last⟩, (others.txDone.trans ended).trans counted.txDone⟩

theorem statisticsEpoch_completes (k : Nat) (h : s.settled) (due : epochDue (s.begin t) = some k) :
    completes (.statisticsEpoch t) s (epochShown s k) := by
  obtain ⟨shown, ended⟩ := statisticsEpoch_shows due
  exact completes_boundary (f := statisticsEpoch) rfl h (ended.trans h.2.1) (fun u kept => kept.shown shown)

/-! The counters, where no lane, no queue and no stall has anything of its own to do -/

/-- The register fields that such a boundary changes. -/
def boundaryFields : List Fld := epochFields ++ (List.range 128).map Reg.CHZ_LANE_FAULT_par_count

/-- The parts of the state that it changes before the classifier. -/
def boundaryParts : List Part := [.bal, .inForce, .lanes, .amc]

theorem balEpoch_frame (s : State) (k : Nat) : s.elsewhere (balEpoch s k) epochFields [] [.bal, .inForce] := by
  have numbered : s.elsewhere (epochNumbered s k) epochFields [] [.bal, .inForce] :=
    .set (.takeEffect (.onBal (elsewhere_refl ..))) (by decide)
  rw [balEpoch_eq]
  exact .raise (.set (elsewhere_ite (fun _ => .set numbered (by decide)) (fun _ => numbered)) (by decide))

theorem selftestsPlanned_frame (h : v.elsewhere s boundaryFields [] boundaryParts) :
    v.elsewhere (selftestsPlanned s) boundaryFields [] boundaryParts := by
  unfold selftestsPlanned
  split
  · exact elsewhere_foldl _ h (fun _ n _ k => elsewhere_onLane k n _ (by decide))
  · exact h

theorem parityCleared_lanes (s : State) : (parityCleared s).lanes = s.lanes := by
  unfold parityCleared
  exact foldl_same (f := fun s n => s.set (Reg.CHZ_LANE_FAULT_par_count n) 0) (fun v => v.lanes) (List.range 128) s (fun _ _ => rfl)

theorem laneEpoch_frame (idle : s.lanes = []) : s.elsewhere (laneEpoch s) boundaryFields [] boundaryParts := by
  have cleared : s.elsewhere (parityCleared s) boundaryFields [] boundaryParts := by
    unfold parityCleared
    exact elsewhere_foldl _ (elsewhere_refl ..) (fun _ _ hn k => .set k (key_mem_range _ (List.mem_range.1 hn) epochFields))
  rw [laneEpoch_eq, parityCleared_lanes, idle, List.foldl_nil]
  exact .takeEffect (selftestsPlanned_frame cleared) (by decide)

theorem refusalEpoch_frame (s : State) : s.elsewhere (refusalEpoch s) [] [] [.amc, .inForce] := by
  have restarted : s.elsewhere ((s.takeEffect [Reg.AMC_ACK_CFG_refuse_thr]).onAmc (fun a => { a with refusals := 0 })) [] []
      [.amc, .inForce] := .onAmc (.takeEffect (elsewhere_refl ..))
  unfold refusalEpoch
  dsimp only
  split
  · exact .raise restarted
  · exact restarted

theorem classifierEpoch_frame (s : State) : s.elsewhere (classifierEpoch s) [] [] [.power, .inForce] :=
  .takeEffect (elsewhere_onPwr (elsewhere_refl ..) _ (by simp))

theorem classifierEpoch_epoch (s : State) : (classifierEpoch s).pwr.epoch = s.pwr.epoch + 1 ∧
    (classifierEpoch s).pwr.inbox = s.pwr.inbox := by
  unfold classifierEpoch
  dsimp only
  rw [State.takeEffect_pwr]
  exact ⟨rfl, rfl⟩

theorem expireAll_empty (sub : s.esc.sub = []) (queue : s.esc.queue = []) : expireAll s = s := by
  rw [expireAll, sub]
  change (s.esc.queue.map (·.1)).foldl expireSvc s = s
  rw [queue]
  rfl

/-- What is neither the Chronograph's nor a field that waits for the boundary stays over `chrEpoch`. -/
theorem chrEpoch_same {α : Type} (g : State → α) (waits : ∀ v x, g { v with inForce := x } = g v)
    (chr : ∀ v f, g (v.onChr f) = g v) (s : State) : g (chrEpoch s) = g s := by
  have effect : ∀ v l, g (v.takeEffect l) = g v := fun v l => by rw [takeEffect_eq, waits]
  have step : ∀ (p : Prop) [Decidable p] v f, g (if p then v.onChr f else v) = g v := by
    intro p _ v f
    split
    · exact chr v f
    · rfl
  unfold chrEpoch
  dsimp only
  rw [foldl_same g _ _ (fun v u => step _ v _), foldl_same g _ _ (fun v k => step _ v _), effect, effect]

/-- Every counter passes its value to its shadow and restarts (R70). -/
def countersLatched (s : State) : State := { s with cntLast := s.cnt, cnt := [], once := [] }

theorem countersEpoch_eq (twin : s.twn.stall = none) (sweep : s.ctx.stall = none) :
    countersEpoch s = chrEpoch (countersLatched (lostSettle s)) := by
  rw [countersEpoch, stallCount, twin]
  dsimp only
  rw [sweepStallCount, sweep]
  rfl

theorem countersEpoch_counts (twin : s.twn.stall = none) (sweep : s.ctx.stall = none) (c : Nat) (hc : c ∉ reportCounts) :
    tabGetD (countersEpoch s).cntLast c 0 = s.count c ∧ (countersEpoch s).count c = 0 := by
  have shadow := chrEpoch_same (fun v => tabGetD v.cntLast c 0) (fun _ _ => rfl) (fun _ _ => rfl) (countersLatched (lostSettle s))
  have counts := chrEpoch_same (fun v => v.count c) (fun _ _ => rfl) (fun _ _ => rfl) (countersLatched (lostSettle s))
  rw [countersEpoch_eq twin sweep]
  exact ⟨shadow.trans ((lostSettle_kept s).count c hc), counts⟩

/-- What else is of the counters' part of a boundary is not of the lanes, the queues or the classifier. -/
theorem countersEpoch_keeps (twin : s.twn.stall = none) (sweep : s.ctx.stall = none) : (countersEpoch s).lanes = s.lanes ∧
    (countersEpoch s).esc = s.esc ∧ (countersEpoch s).pwr = s.pwr := by
  have kept := lostSettle_kept s
  rw [countersEpoch_eq twin sweep]
  exact ⟨(chrEpoch_same (fun v => v.lanes) (fun _ _ => rfl) (fun _ _ => rfl) _).trans kept.lanes,
    (chrEpoch_same (fun v => v.esc) (fun _ _ => rfl) (fun _ _ => rfl) _).trans kept.esc,
    (chrEpoch_same (fun v => v.pwr) (fun _ _ => rfl) (fun _ _ => rfl) _).trans kept.pwr⟩

/-- The rest of the boundary counts nothing: no lane, no frame and no fault event has anything to do. -/
theorem statisticsEpoch_quiet {k : Nat} (due : epochDue s = some k) (told : s.pwr.inbox = []) (lanes : s.lanes = [])
    (sub : s.esc.sub = []) (queue : s.esc.queue = []) (twin : s.twn.stall = none) (sweep : s.ctx.stall = none) :
    (countersEpoch s).elsewhere (statisticsEpoch s) boundaryFields [] (.power :: boundaryParts) ∧
    (statisticsEpoch s).pwr.epoch = s.pwr.epoch + 1 ∧ (statisticsEpoch s).pwr.inbox = [] := by
  obtain ⟨sameLanes, sameEsc, samePwr⟩ := countersEpoch_keeps twin sweep
  have bal := balEpoch_frame (countersEpoch s) k
  have idle : (balEpoch (countersEpoch s) k).lanes = [] := ((bal.2.2.1 .lanes (by decide)).trans sameLanes).trans lanes
  have lane := laneEpoch_frame idle
  have toLanes : (countersEpoch s).elsewhere (laneEpoch (balEpoch (countersEpoch s) k)) boundaryFields [] boundaryParts :=
    elsewhere_trans (elsewhere_mono bal (fun k hk => by simp only [boundaryFields, List.map_append]; exact List.mem_append_left _ hk)
      (fun _ => id) (by decide)) lane
  have pwr : (laneEpoch (balEpoch (countersEpoch s) k)).pwr = s.pwr := (toLanes.2.2.1 .power (by decide)).trans samePwr
  have esc : (laneEpoch (balEpoch (countersEpoch s) k)).esc = s.esc := (toLanes.2.2.1 .esc (by decide)).trans sameEsc
  have effect := statisticsEpoch_due due
  generalize laneEpoch (balEpoch (countersEpoch s) k) = v at *
  have judged := classifierEpoch_frame v
  have waiting : (classifierEpoch v).esc = s.esc := (judged.2.2.1 .esc (by decide)).trans esc
  obtain ⟨epoch, inbox⟩ := classifierEpoch_epoch v
  have refused := refusalEpoch_frame (classifierEpoch v)
  have refusedPwr : (refusalEpoch (classifierEpoch v)).pwr = (classifierEpoch v).pwr := refused.2.2.1 .power (by decide)
  rw [classifyInbox_nil _ (by rw [pwr, told]), expireAll_empty (by rw [waiting, sub]) (by rw [waiting, queue])] at effect
  rw [effect, refusedPwr, epoch, inbox, pwr]
  refine ⟨?_, rfl, told⟩
  exact elsewhere_trans (elsewhere_mono toLanes (fun _ => id) (fun _ => id) (by decide))
    (elsewhere_trans (elsewhere_mono judged (by simp) (fun _ => id) (by decide))
      (elsewhere_mono refused (by simp) (fun _ => id) (by decide)))

theorem countersEpoch_completes (k : Nat) (h : s.settled) (due : epochDue (s.now t) = some k) (lanes : s.lanes = [])
    (sub : s.esc.sub = []) (queue : s.esc.queue = []) (twin : s.twn.stall = none) (sweep : s.ctx.stall = none) :
    completes (.statisticsEpoch t) s (fun u => (∀ c, c ∉ reportCounts → tabGetD u.cntLast c 0 = s.count c ∧ u.count c = 0) ∧
      u.get Reg.BAL_EPOCH_NUM_epoch_num = (s.get Reg.BAL_EPOCH_NUM_epoch_num + 1) % 2 ^ 32 ∧
      u.get Reg.BAL_EPOCH_STAT_unread = 1 ∧ 40 ∈ u.hif.pend ∧ u.bal.epochLast = k ∧ u.pwr.epoch = s.pwr.epoch + 1) := by
  have begun : epochDue (s.begin t) = some k := due
  obtain ⟨shown, ended⟩ := statisticsEpoch_shows begun
  obtain ⟨quiet, epoch, inbox⟩ := statisticsEpoch_quiet begun h.2.2 lanes sub queue twin sweep
  refine completes_act (f := statisticsEpoch) rfl h (ended.trans h.2.1) inbox (fun u kept => ?_)
  obtain ⟨num, -, unread, pend, last⟩ := kept.boundary.shown shown
  refine ⟨fun c hc => ?_, num, unread, pend, last, (congrArg Pwr.epoch kept.pwr).trans epoch⟩
  obtain ⟨shadow, restarted⟩ := countersEpoch_counts (s := s.begin t) twin sweep c hc
  have latched : (statisticsEpoch (s.begin t)).cntLast = (countersEpoch (s.begin t)).cntLast := quiet.2.2.1 .latched (by decide)
  rw [kept.cntLast, latched, kept.count c hc, quiet.2.1 c (by simp) hc]
  exact ⟨shadow, restarted⟩

/-- Settles O15: what the other blocks do at a boundary leaves what the Balance shows of it (`boundary_others`), and where none of
them has anything of its own to do, nothing counts after the counters have restarted (`statisticsEpoch_quiet`). -/
theorem epochCompletes : Obligations.EpochCompletes := fun _ k _ h =>
  ⟨fun due lanes sub queue twin sweep => countersEpoch_completes k h due lanes sub queue twin sweep,
    fun due => statisticsEpoch_completes k h due⟩

end StatisticsEpoch
end Sys2Proof.Machine

namespace Sys2Proof.Machine

/-! ### The gain of a receiver and its image rejection (R76-R78, R80, R83-R85) -/

section ReceiverGain

variable {t : Nat} {b : Fin 2} {s u v : State}

/-! What a receiver holds, after an update of it -/

@[simp] theorem State.rxOf_setRx (s : State) (b : Nat) (r : Rx) : (s.setRx b r).rxOf b = r := tabGetD_put_self ..

@[simp] theorem State.rxOf_onRx (s : State) (b : Nat) (f : Rx → Rx) : (s.onRx b f).rxOf b = f (s.rxOf b) := tabGetD_put_self ..

@[simp] theorem State.setb_rxOf (s : State) (f : Fld) (x : Bool) (b : Nat) : (s.setb f x).rxOf b = s.rxOf b := rfl

theorem State.rxOf_congr (h : u.rx = s.rx) (b : Nat) : u.rxOf b = s.rxOf b := by
  unfold State.rxOf
  rw [h]

theorem Kept.rxOf (k : Kept s u) (b : Nat) : u.rxOf b = s.rxOf b := State.rxOf_congr k.rx b

theorem State.cur_congr (waits : v.inForce = s.inForce) {f : Fld} (get : v.get f = s.get f) : v.cur f = s.cur f := by
  unfold State.cur
  rw [waits, get]

/-- An update of a receiver is the same for what the Chronograph has measured. -/
theorem Kept.onRx (k : Kept s u) (b : Nat) (f : Rx → Rx) : Kept (s.onRx b f) (u.onRx b f) := by
  refine { k with get := k.get, count := k.count, rx := ?_ }
  show tabPut u.rx b (f (u.rxOf b)) = tabPut s.rx b (f (s.rxOf b))
  rw [k.rx, k.rxOf]

/-! Where the registers lie: those of a receiver below the lanes' -/

/-- The fields of a receiver that no marker of a gain step reaches. -/
def gainRegisters (b : Nat) : List Fld := Reg.RFX_STATUS_gain_idx b :: gainFields b

theorem gainRegisters_low (b : Fin 2) : ∀ f ∈ gainRegisters b, f.key < 0x71000 * 32 ∧ vecKey f.key = false := by decide +revert

theorem gainFields_apart (b : Fin 2) : ∀ f ∈ gainFields b, (Reg.RFX_STATUS_gain_idx b).key ≠ f.key := by decide +revert

theorem gainFields_sub {f : Fld} (h : f ∈ gainFields b) : f ∈ gainRegisters b := List.mem_cons_of_mem _ h

theorem low_unflagged {k : Nat} (h : k < 0x71000 * 32) : chrFlagKey k = false := chrFlag_low (by omega)

theorem laneGain_high {l : List Nat} {k : Nat} (h : k < 0x71000 * 32) : k ∉ (l.map Reg.CHZ_LANE_STAT_agc_gain).map Fld.key := by
  simp only [List.map_map, List.mem_map, Function.comp_apply, not_exists, not_and]
  intro n _ e
  simp only [Fld.key, Reg.CHZ_LANE_STAT_agc_gain] at e
  omega

theorem midframe_high {l : List Nat} {c : Nat} (h : c < 0x71000) : c ∉ l.map Reg.CHZ_LANE_CNT_STEP_MIDFRAME := by
  simp only [List.mem_map, not_exists, not_and]
  intro n _ e
  simp only [Reg.CHZ_LANE_CNT_STEP_MIDFRAME] at e
  omega

theorem stepCounters_low (b : Fin 2) : ∀ c ∈ [Reg.RFX_CNT_STEP_SCHED b, Reg.RFX_CNT_STEP_UNSCHED b],
    c < 0x71000 ∧ c ∉ reportCounts := by decide +revert

/-! A marker reaches the lanes of the band (R78, R133) -/

/-- What a marker of `c` does to one lane: the inverse step, counted where the lane is receiving. -/
def laneStepped (c : Int) (s : State) (n : Nat) : State :=
  let s := s.set (Reg.CHZ_LANE_STAT_agc_gain n)
    (clampInt 0 720 ((s.get (Reg.CHZ_LANE_STAT_agc_gain n) : Int) - (c + 5) / 10)).toNat
  if laneMid s n then s.bump (Reg.CHZ_LANE_CNT_STEP_MIDFRAME n) else s

theorem laneMarker_eq (s : State) (b : Nat) (c : Int) : laneMarker s b c = (bandLanes s b).foldl (laneStepped c)
    ((s.setRx b { s.rxOf b with marker := some s.ltb }).emit (.marker b c)) := rfl

theorem laneStepped_holds (c : Int) (s : State) (n : Nat) :
    ((laneStepped c s n).inForce, (laneStepped c s n).rx) = (s.inForce, s.rx) := by
  unfold laneStepped
  dsimp only
  split <;> simp

theorem laneMarker_frame (s : State) (b : Nat) (c : Int) : s.elsewhere (laneMarker s b c)
    ((bandLanes s b).map Reg.CHZ_LANE_STAT_agc_gain) ((bandLanes s b).map Reg.CHZ_LANE_CNT_STEP_MIDFRAME) [.rx] := by
  refine elsewhere_foldl _ (.emit (.setRx (elsewhere_refl ..))) (fun v n hn k => ?_)
  exact elsewhere_ite (fun _ => .bump (k.set (List.mem_map_of_mem (List.mem_map_of_mem hn))) (.inl (List.mem_map_of_mem hn)))
    (fun _ => k.set (List.mem_map_of_mem (List.mem_map_of_mem hn)))

theorem laneMarker_holds (s : State) (b : Nat) (c : Int) : (laneMarker s b c).inForce = s.inForce ∧
    (laneMarker s b c).rxOf b = { s.rxOf b with marker := some s.ltb } := by
  rw [laneMarker_eq]
  obtain ⟨waits, rx⟩ := Prod.mk.inj (foldl_same (f := laneStepped c) (fun v => (v.inForce, v.rx)) (bandLanes s b)
    ((s.setRx b { s.rxOf b with marker := some s.ltb }).emit (.marker b c)) (laneStepped_holds c))
  exact ⟨waits, (State.rxOf_congr rx b).trans (State.rxOf_setRx ..)⟩

/-! A step of the gain (R78) -/

/-- The fields that a step of the gain can change, and the counters. -/
abbrev stepFields (s : State) (b : Nat) : List Fld :=
  [Reg.RFX_STATUS_gain_idx b] ++ (bandLanes s b).map Reg.CHZ_LANE_STAT_agc_gain

abbrev stepCounts (s : State) (b : Nat) : List Nat := (bandLanes s b).map Reg.CHZ_LANE_CNT_STEP_MIDFRAME

theorem gainTo_frame (s : State) (b h : Nat) : s.elsewhere (gainTo s b h) (stepFields s b) (stepCounts s b) [.rx] := by
  unfold gainTo
  dsimp only
  split
  · exact elsewhere_refl ..
  · exact elsewhere_trans (State.elsewhere.set (elsewhere_refl ..))
      (elsewhere_mono (laneMarker_frame ..) (fun k hk => List.mem_cons_of_mem _ hk) (fun _ => id) (fun _ => id))

theorem gainTo_holds (s : State) (b h : Nat) : (gainTo s b h).inForce = s.inForce ∧
    ∃ m, (gainTo s b h).rxOf b = { s.rxOf b with marker := m } := by
  unfold gainTo
  dsimp only
  split
  · exact ⟨rfl, (s.rxOf b).marker, rfl⟩
  · obtain ⟨waits, rx⟩ := laneMarker_holds (s.set (Reg.RFX_STATUS_gain_idx b) h) b (gainChange s b (gainIdx s b) h)
    exact ⟨waits, _, rx⟩

theorem gainTo_gainIdx {h : Nat} (range : h < 2 ^ 5) : gainIdx (gainTo s b h) b = h := by
  obtain ⟨low, -⟩ := gainRegisters_low b _ (List.mem_cons_self ..)
  unfold gainTo
  dsimp only
  split
  · assumption
  · refine ((laneMarker_frame ..).1 _ (low_unflagged low) (laneGain_high low)).trans ((State.get_set_self ..).trans ?_)
    exact Nat.mod_eq_of_lt range

theorem gainTo_get {h : Nat} {f : Fld} (hf : f ∈ gainFields b) : (gainTo s b h).get f = s.get f := by
  obtain ⟨low, -⟩ := gainRegisters_low b f (gainFields_sub hf)
  refine (gainTo_frame ..).1 f (low_unflagged low) (fun mem => ?_)
  rcases List.mem_cons.1 mem with gain | lane
  · exact gainFields_apart b f hf gain.symm
  · exact laneGain_high low lane

theorem gainTo_count {h c : Nat} (low : c < 0x71000) (told : c ∉ reportCounts) : (gainTo s b h).count c = s.count c :=
  (gainTo_frame ..).2.1 c (midframe_high low) told

/-! A scheduled move of the gain (R76, R81, R110) -/

/-- Under a ceiling the move is first one of g_pre. -/
def ceilingMoved (s : State) (b target : Nat) : State :=
  if ceiled s b then s.onRx b (fun r => { r with gPre := target }) else s

theorem scheduledMove_eq {target : Nat} (moves : target ≠ gainBase s b) : scheduledMove s b target =
    (gainTo (ceilingMoved s b target) b (if ceiled s b then min (gainIdx s b) target else target)).bump (Reg.RFX_CNT_STEP_SCHED b) := by
  unfold scheduledMove ceilingMoved
  rw [if_neg moves]
  dsimp only
  split <;> rfl

theorem ceilingMoved_frame (s : State) (b target : Nat) : s.elsewhere (ceilingMoved s b target) [] [] [.rx] :=
  elsewhere_ite (fun _ => .onRx (elsewhere_refl ..)) (fun _ => elsewhere_refl ..)

theorem scheduledMove_frame (s : State) (b : Fin 2) (target : Nat) : s.elsewhere (scheduledMove s b target) (stepFields s b)
    ([Reg.RFX_CNT_STEP_SCHED b] ++ stepCounts s b) [.rx] := by
  by_cases stays : target = gainBase s b
  · rw [scheduledMove, if_pos stays]
    exact elsewhere_refl ..
  · have lanes : bandLanes (ceilingMoved s b target) b = bandLanes s b := by
      unfold ceilingMoved
      split <;> rfl
    have step := gainTo_frame (ceilingMoved s b target) b (if ceiled s b then min (gainIdx s b) target else target)
    rw [stepFields, stepCounts, lanes] at step
    rw [scheduledMove_eq stays]
    exact .bump (elsewhere_trans (elsewhere_mono (ceilingMoved_frame ..) (by simp) (by simp) (fun _ => id))
      (elsewhere_mono step (fun _ => id) (fun _ => List.mem_cons_of_mem _) (fun _ => id)))

theorem scheduledMove_holds (s : State) (b : Fin 2) (target : Nat) : (scheduledMove s b target).inForce = s.inForce ∧
    ∃ m g, (scheduledMove s b target).rxOf b = { s.rxOf b with marker := m, gPre := g } := by
  by_cases stays : target = gainBase s b
  · rw [scheduledMove, if_pos stays]
    exact ⟨rfl, (s.rxOf b).marker, (s.rxOf b).gPre, rfl⟩
  · obtain ⟨waits, m, rx⟩ := gainTo_holds (ceilingMoved s b target) b (if ceiled s b then min (gainIdx s b) target else target)
    have ceiling : (ceilingMoved s b target).inForce = s.inForce ∧
        ∃ g, (ceilingMoved s b target).rxOf b = { s.rxOf b with gPre := g } := by
      unfold ceilingMoved
      split
      · exact ⟨rfl, target, State.rxOf_onRx ..⟩
      · exact ⟨rfl, (s.rxOf b).gPre, rfl⟩
    obtain ⟨before, g, held⟩ := ceiling
    rw [scheduledMove_eq stays]
    refine ⟨waits.trans before, m, g, (State.rxOf_congr (State.bump_rx ..) _).trans (rx.trans ?_)⟩
    rw [held]

theorem scheduledMove_get {target : Nat} {f : Fld} (hf : f ∈ gainFields b) : (scheduledMove s b target).get f = s.get f := by
  by_cases stays : target = gainBase s b
  · rw [scheduledMove, if_pos stays]
  · rw [scheduledMove_eq stays, State.bump_get, gainTo_get hf]
    unfold ceilingMoved
    split <;> rfl

/-- Without a ceiling the gain itself moves, and the move is counted. -/
theorem scheduledMove_bare {target : Nat} (bare : (s.rxOf b).ceil = []) (range : target < 2 ^ 5) :
    gainIdx (scheduledMove s b target) b = target ∧ (scheduledMove s b target).count (Reg.RFX_CNT_STEP_SCHED b) =
      if target = gainIdx s b then s.count (Reg.RFX_CNT_STEP_SCHED b) else (s.count (Reg.RFX_CNT_STEP_SCHED b) + 1) % 2 ^ 32 := by
  have free : ceiled s b = false := by simp [ceiled, bare]
  have base : gainBase s b = gainIdx s b := by simp [gainBase, free]
  obtain ⟨low, told⟩ := stepCounters_low b _ (List.mem_cons_self ..)
  by_cases stays : target = gainIdx s b
  · rw [scheduledMove, if_pos (stays.trans base.symm), if_pos stays]
    exact ⟨stays.symm, rfl⟩
  · rw [scheduledMove_eq (base ▸ stays), ceilingMoved, free, if_neg stays]
    refine ⟨gainTo_gainIdx range, ?_⟩
    rw [State.bump, State.count_bumpBy, if_pos rfl]
    exact congrArg (fun c => (c + 1) % 2 ^ 32) (gainTo_count low told)

/-! The end of a gain epoch (R76, R80, R81) -/

/-- The mean power that the end of an epoch goes by. -/
def epochPower (s : State) (b : Nat) (p : Option Int) : Option Int := if (s.rxOf b).leakAll || blankAll s b then none else p

/-- The epochs below lo_thr, with this one. -/
def epochLow (s : State) (b : Nat) (p : Option Int) : Nat :=
  match p with
  | some p => if p < -((s.cur (Reg.RFX_GAIN_CFG_lo_thr b) : Int) * 10) then (s.rxOf b).lowEpochs + 1 else 0
  | none => (s.rxOf b).lowEpochs

/-- Where the gain goes: to gain_man, or by the step of the epoch that ended. -/
def epochTarget (s : State) (b : Nat) (p : Option Int) : Nat :=
  if s.on (Reg.RFX_CTRL_gain_manual b) then s.get (Reg.RFX_GAIN_CFG2_gain_man b)
  else if s.cur (Reg.RFX_CTRL_gain_manual b) != 0 then gainBase s b
  else ((gainBase s b : Int) + scheduledStep s b p (epochLow s b p)).toNat

/-- The next epoch begins, `low` epochs below lo_thr so far and the gain at `target`. -/
def epochRolled (s : State) (b low target : Nat) : State :=
  let v := scheduledMove (s.takeEffect (gainFields b)) b target
  v.onRx b (fun r => { r with
    epochStart := r.epochStart + s.cur (Reg.RFX_GAIN_CFG_epoch_us b) * 1000, lowEpochs := low
    sinceUnsched := if r.unschedNow then 0 else min 255 (r.sinceUnsched + 1)
    unschedNow := r.unschedNext, unschedNext := false, ceilNow := ceiled v b, leakAll := leaking v b })

theorem gainEpochEnd_eq {p : Option Int} (running : rxRunning s b = true)
    (due : (s.rxOf b).epochStart + s.cur (Reg.RFX_GAIN_CFG_epoch_us b) * 1000 ≤ s.ltb) : gainEpochEnd s b p =
      epochRolled s b (epochLow s b (epochPower s b p)) (epochTarget s b (epochPower s b p)) :=
  if_neg (by simp [running, due])

theorem epochRolled_frame (s : State) (b : Fin 2) (low target : Nat) : s.elsewhere (epochRolled s b low target) (stepFields s b)
    ([Reg.RFX_CNT_STEP_SCHED b] ++ stepCounts s b) [.rx, .inForce] := by
  have move := scheduledMove_frame (s.takeEffect (gainFields b)) b target
  rw [stepFields, stepCounts, show bandLanes (s.takeEffect (gainFields b)) b = bandLanes s b by simp [bandLanes]] at move
  exact .onRx (elsewhere_trans (.takeEffect (elsewhere_refl ..)) (elsewhere_mono move (fun _ => id) (fun _ => id) (by simp)))

theorem epochRolled_rxOf (s : State) (b : Fin 2) (low target : Nat) :
    ((epochRolled s b low target).rxOf b).epochStart =
      (s.rxOf b).epochStart + s.cur (Reg.RFX_GAIN_CFG_epoch_us b) * 1000 ∧
    ((epochRolled s b low target).rxOf b).unschedNow = (s.rxOf b).unschedNext ∧
    ((epochRolled s b low target).rxOf b).unschedNext = false := by
  have before : (s.takeEffect (gainFields b)).rxOf b = s.rxOf b := State.rxOf_congr (by simp) b
  obtain ⟨-, m, g, held⟩ := scheduledMove_holds (s.takeEffect (gainFields b)) b target
  rw [epochRolled, State.rxOf_onRx, held, before]
  exact ⟨rfl, rfl, rfl⟩

theorem epochRolled_cur {low target : Nat} {f : Fld} (hf : f ∈ gainFields b) :
    (epochRolled s b low target).cur f = (epochRolled s b low target).get f := by
  obtain ⟨waits, -⟩ := scheduledMove_holds (s.takeEffect (gainFields b)) b target
  have get := scheduledMove_get (s := s.takeEffect (gainFields b)) (target := target) hf
  show (scheduledMove _ _ _).cur f = (scheduledMove _ _ _).get f
  rw [State.cur_congr waits get, get, takeEffect_cur s hf, State.takeEffect_get]

theorem epochRolled_bare {low target : Nat} (bare : (s.rxOf b).ceil = []) (range : target < 2 ^ 5) :
    gainIdx (epochRolled s b low target) b = target ∧ (epochRolled s b low target).count (Reg.RFX_CNT_STEP_SCHED b) =
      if target = gainIdx s b then s.count (Reg.RFX_CNT_STEP_SCHED b) else (s.count (Reg.RFX_CNT_STEP_SCHED b) + 1) % 2 ^ 32 := by
  have held : (s.takeEffect (gainFields b)).rxOf b = s.rxOf b := State.rxOf_congr (by simp) b
  have counter : (s.takeEffect (gainFields b)).count (Reg.RFX_CNT_STEP_SCHED b) = s.count (Reg.RFX_CNT_STEP_SCHED b) := by
    simp [State.count]
  obtain ⟨gain, count⟩ := scheduledMove_bare (s := s.takeEffect (gainFields b)) (held.symm ▸ bare) range
  rw [counter, gainIdx, State.takeEffect_get] at count
  exact ⟨gain, count⟩

/-- The end of an epoch in every case, by where the gain goes. -/
theorem gainEpochEnd_changes {p : Option Int} (h : s.settled) (running : rxRunning s b = true)
    (due : (s.rxOf b).epochStart + s.cur (Reg.RFX_GAIN_CFG_epoch_us b) * 1000 ≤ max s.ltb t) :
    changes (.gainEpochEnd t b p) s (stepFields s b) ([Reg.RFX_CNT_STEP_SCHED b] ++ stepCounts s b) [.rx, .inForce] (fun u =>
      (∀ f ∈ gainFields b, u.cur f = u.get f) ∧
      (u.rxOf b).epochStart = (s.rxOf b).epochStart + s.cur (Reg.RFX_GAIN_CFG_epoch_us b) * 1000 ∧
      (u.rxOf b).unschedNow = (s.rxOf b).unschedNext ∧ (u.rxOf b).unschedNext = false ∧ ∀ target,
      target = epochTarget s b (epochPower s b p) → (s.rxOf b).ceil = [] → target < 2 ^ 5 →
      u.get (Reg.RFX_STATUS_gain_idx b) = target ∧ u.count (Reg.RFX_CNT_STEP_SCHED b) =
        if target = s.get (Reg.RFX_STATUS_gain_idx b) then s.count (Reg.RFX_CNT_STEP_SCHED b)
        else (s.count (Reg.RFX_CNT_STEP_SCHED b) + 1) % 2 ^ 32) := by
  have effect := gainEpochEnd_eq (s := s.begin t) (p := p) running due
  refine changes_of (f := fun s => gainEpochEnd s b p) rfl effect h
    (elsewhere_trans (.start s t) (epochRolled_frame ..)) (fun u kept => ?_)
  obtain ⟨start, now, next⟩ := epochRolled_rxOf (s.begin t) b (epochLow (s.begin t) b (epochPower (s.begin t) b p))
    (epochTarget (s.begin t) b (epochPower (s.begin t) b p))
  rw [kept.rxOf]
  refine ⟨fun f hf => ?_, start, now, next, fun target goes bare range => ?_⟩
  · obtain ⟨low, vec⟩ := gainRegisters_low b f (gainFields_sub hf)
    rw [kept.cur f (low_unflagged low) vec, kept.get f (low_unflagged low)]
    exact epochRolled_cur hf
  · subst goes
    obtain ⟨low, -⟩ := gainRegisters_low b _ (List.mem_cons_self ..)
    rw [kept.get _ (low_unflagged low), kept.count _ (stepCounters_low b _ (List.mem_cons_self ..)).2]
    exact epochRolled_bare (s := s.begin t) bare range

theorem epochTarget_manual {p : Option Int} (manual : s.get (Reg.RFX_CTRL_gain_manual b) = 1) :
    epochTarget s b p = s.get (Reg.RFX_GAIN_CFG2_gain_man b) := by simp [epochTarget, State.on, manual]

/-- An epoch above hi_thr steps the gain down by one. -/
theorem epochTarget_down {p : Int} {g : Nat} (run : s.get (Reg.RFX_STATUS_state b) = 2) (bare : (s.rxOf b).ceil = [])
    (sched : (s.rxOf b).unschedNext = false) (quiet : (s.rxOf b).leakAll = false) (auto : s.cur (Reg.RFX_CTRL_gain_manual b) = 0)
    (stays : s.get (Reg.RFX_CTRL_gain_manual b) = 0) (loud : -((s.cur (Reg.RFX_GAIN_CFG_hi_thr b) : Int) * 10) < p)
    (gain : s.get (Reg.RFX_STATUS_gain_idx b) = g + 1) : epochTarget s b (epochPower s b (some p)) = g := by
  have heard : epochPower s b (some p) = some p := by
    have blank : blankAll s b = false := by
      unfold blankAll
      split <;> simp [rxState, run]
    simp [epochPower, quiet, blank]
  have base : gainBase s b = g + 1 := by simp [gainBase, ceiled, bare, gainIdx, gain]
  have step (low : Nat) : scheduledStep s b (some p) low = -1 := by simp [scheduledStep, sched, gainIdx, gain, loud]
  rw [heard, epochTarget, if_neg (by simp [State.on, stays]), if_neg (by simp [auto]), base, step]
  simp

/-! Overloads and unscheduled steps (R77, R81) -/

theorem adcOverload_leads {n : Nat} {fresh : Bool} (h : s.settled) (run : s.get (Reg.RFX_STATUS_state b) = 2)
    (clips : atLeast1 (s.get (Reg.RFX_GAIN_CFG2_ovl_count b)) ≤ n) (auto : s.cur (Reg.RFX_CTRL_gain_manual b) = 0)
    (gain : 0 < s.get (Reg.RFX_STATUS_gain_idx b)) (due : (s.rxOf b).stepDue = false) :
    leadsTo (.adcOverload t b n fresh) s (((s.now t).bump (Reg.RFX_CNT_OVL b)).onRx b
      (fun r => { r with stepDue := true, episode := false })) := by
  have effect : adcOverload (s.begin t) b n fresh = ((s.begin t).bump (Reg.RFX_CNT_OVL b)).onRx b
      (fun r => { r with stepDue := true, episode := false }) := by
    have held : ((s.begin t).rxOf b).stepDue = false := due
    unfold adcOverload
    rw [if_neg (by simp [rxState, run, clips]), if_pos (by simp [gainIdx, auto, gain]), held]
    rfl
  refine leadsTo_act (f := fun s => adcOverload s b n fresh) rfl h ?_ ?_ ?_
  · rw [State.onRx_txDone, State.bump_txDone]
    exact h.2.1
  · rw [State.onRx_pwr, State.bump_pwr]
    exact h.2.2
  · rw [effect]
    exact ((begin_kept s t).bump _).onRx _ _

theorem unscheduledStep_eq {d : Nat} (due : (s.rxOf b).stepDue = true)
    (spaced : ∀ l, (s.rxOf b).lastUnsched = some l → l + 1000 ≤ s.ltb) (auto : s.cur (Reg.RFX_CTRL_gain_manual b) = 0)
    (step : d = min (gainIdx s b) (atLeast1 (s.get (Reg.RFX_GAIN_CFG2_ovl_step b)))) : ∃ f : Rx → Rx,
      unscheduledStep s b = (gainTo (s.onRx b f) b (gainIdx s b - d)).bump (Reg.RFX_CNT_STEP_UNSCHED b) ∧
      ∀ r, (f r).stepDue = false ∧ (f r).lastUnsched = some s.ltb := by
  subst step
  unfold unscheduledStep
  refine ⟨_, (if_neg ?_).trans (if_neg (not_not.2 auto)), fun r => ⟨rfl, rfl⟩⟩
  cases last : (s.rxOf b).lastUnsched with
  | none => simp [due]
  | some l => simp [due, spaced l last]

theorem unscheduledStep_changes {d : Nat} (h : s.settled) (range : s.get (Reg.RFX_STATUS_gain_idx b) < 2 ^ 5)
    (due : (s.rxOf b).stepDue = true) (spaced : ∀ l, (s.rxOf b).lastUnsched = some l → l + 1000 ≤ max s.ltb t)
    (auto : s.cur (Reg.RFX_CTRL_gain_manual b) = 0)
    (step : d = min (s.get (Reg.RFX_STATUS_gain_idx b)) (atLeast1 (s.get (Reg.RFX_GAIN_CFG2_ovl_step b)))) :
    changes (.unscheduledStep t b) s (stepFields s b) ([Reg.RFX_CNT_STEP_UNSCHED b] ++ stepCounts s b) [.rx] (fun u =>
      u.get (Reg.RFX_STATUS_gain_idx b) = s.get (Reg.RFX_STATUS_gain_idx b) - d ∧
      u.count (Reg.RFX_CNT_STEP_UNSCHED b) = (s.count (Reg.RFX_CNT_STEP_UNSCHED b) + 1) % 2 ^ 32 ∧
      (u.rxOf b).stepDue = false ∧ (u.rxOf b).lastUnsched = some (max s.ltb t)) := by
  obtain ⟨f, effect, taken⟩ := unscheduledStep_eq (s := s.begin t) due spaced auto step
  obtain ⟨-, m, held⟩ := gainTo_holds ((s.begin t).onRx b f) b (gainIdx (s.begin t) b - d)
  have rx (u : State) (k : u.rx = (gainTo ((s.begin t).onRx b f) b (gainIdx (s.begin t) b - d)).rx) :
      (u.rxOf b).stepDue = false ∧ (u.rxOf b).lastUnsched = some (max s.ltb t) := by
    rw [State.rxOf_congr k, held, State.rxOf_onRx]
    exact taken _
  obtain ⟨low, -⟩ := gainRegisters_low b _ (List.mem_cons_self ..)
  obtain ⟨below, told⟩ := stepCounters_low b (Reg.RFX_CNT_STEP_UNSCHED b) (by simp)
  refine changes_of (f := fun s => unscheduledStep s b) rfl effect h (.bump (elsewhere_trans (.onRx (.start s t))
    (elsewhere_mono (gainTo_frame ..) (fun _ => id) (fun _ => List.mem_cons_of_mem _) (fun _ => id))))
    (fun u kept => ⟨?_, ?_, rx u (kept.rx.trans (State.bump_rx ..))⟩)
  · rw [kept.get _ (low_unflagged low), State.bump_get]
    exact gainTo_gainIdx (lt_of_le_of_lt (Nat.sub_le ..) range)
  · rw [kept.count _ told, State.bump, State.count_bumpBy, if_pos rfl, gainTo_count below told]
    rfl

/-! Image rejection and the temperature (R83-R85) -/

theorem irRefresh_frame (s : State) (b : Fin 2) (ir : List Nat) : s.elsewhere (irRefresh s b ir)
    [Reg.RFX_IR_STAT_ir_worst b, Reg.RFX_IR_STAT_ir_seg b, Reg.RFX_STATUS_ir_ok b] [] [.rx] := by
  have event : faultEvents.contains (66 + b.val) = false := by decide +revert
  unfold irRefresh
  dsimp only
  have shown (x y : Nat) (z : Bool) : s.elsewhere ((((s.set (Reg.RFX_IR_STAT_ir_worst b) x).set (Reg.RFX_IR_STAT_ir_seg b) y).onRx b
      (fun r => { r with ir := ir })).setb (Reg.RFX_STATUS_ir_ok b) z) [Reg.RFX_IR_STAT_ir_worst b, Reg.RFX_IR_STAT_ir_seg b,
      Reg.RFX_STATUS_ir_ok b] [] [.rx] := .setb (.onRx (.set (.set (elsewhere_refl ..))))
  split
  · exact (shown ..).raise (.inl event)
  · exact shown ..

theorem irRefresh_rxOf (s : State) (b : Nat) (ir : List Nat) : (irRefresh s b ir).rxOf b = { s.rxOf b with ir := ir } := by
  unfold irRefresh
  dsimp only
  split
  · rw [State.rxOf_congr (State.raise_rx ..), State.setb_rxOf, State.rxOf_onRx]
    rfl
  · rw [State.setb_rxOf, State.rxOf_onRx]
    rfl

theorem rxNative_of (run : s.get (Reg.RFX_STATUS_state b) = 2) (native : s.get (Reg.RFX_CTRL_cal_mode b) = 0) :
    rxNative s b = true := by simp [rxNative, State.on, rxState, run, native]

/-- The estimates after a measurement of the pairs that carried a signal. -/
def irMeasured (s : State) (b : Nat) (ir : List (Option Nat)) : List Nat :=
  (List.range 16).map (fun i => ((ir.getD i none).getD ((s.rxOf b).ir.getD i 255)))

theorem irUpdate_eq {ir : List (Option Nat)} (native : rxNative s b = true)
    (due : (s.rxOf b).irAt + atLeast1 (s.get (Reg.RFX_CAL_CFG_ir_period b)) * 1000000 ≤ s.ltb) : ∃ heard, irUpdate s b ir =
      irRefresh (s.onRx b (fun r => { r with irAt := s.ltb, heard := heard })) b (irMeasured s b ir) := by
  unfold irUpdate
  exact ⟨_, if_neg (by simp [native, due])⟩

theorem irUpdate_changes {ir : List (Option Nat)} (h : s.settled) (run : s.get (Reg.RFX_STATUS_state b) = 2)
    (native : s.get (Reg.RFX_CTRL_cal_mode b) = 0)
    (due : (s.rxOf b).irAt + atLeast1 (s.get (Reg.RFX_CAL_CFG_ir_period b)) * 1000000 ≤ max s.ltb t) :
    changes (.irUpdate t b ir) s [Reg.RFX_IR_STAT_ir_worst b, Reg.RFX_IR_STAT_ir_seg b, Reg.RFX_STATUS_ir_ok b] [] [.rx]
      (fun u => (u.rxOf b).irAt = max s.ltb t ∧ (u.rxOf b).ir = irMeasured s b ir) := by
  obtain ⟨heard, effect⟩ := irUpdate_eq (s := s.begin t) (ir := ir) (rxNative_of run native) due
  refine changes_of (f := fun s => irUpdate s b ir) rfl effect h (elsewhere_trans (.onRx (.start s t)) (irRefresh_frame ..))
    (fun u kept => ?_)
  rw [kept.rxOf, irRefresh_rxOf, State.rxOf_onRx]
  exact ⟨rfl, rfl⟩

theorem staleSegmentTone_eq {k x : Nat} (native : rxNative s b = true)
    (due : (s.rxOf b).heard.getD k 0 + s.get (Reg.RFX_CAL_CFG_ir_stale b) * 1000000000 + 2000000 ≤ s.ltb) :
    staleSegmentTone s b k x = irRefresh (s.onRx b (fun r => { r with
      heard := (List.range 16).map (fun i => if i = k then s.ltb else (s.rxOf b).heard.getD i 0) })) b
      ((List.range 16).map (fun i => if i = k then x else (s.rxOf b).ir.getD i 255)) :=
  if_neg (by simp only [native, Bool.not_true, Bool.false_or, decide_eq_true_eq, not_lt, due])

theorem staleSegmentTone_changes {k : Fin 16} {x : Nat} (h : s.settled) (run : s.get (Reg.RFX_STATUS_state b) = 2)
    (native : s.get (Reg.RFX_CTRL_cal_mode b) = 0)
    (due : (s.rxOf b).heard.getD k.val 0 + s.get (Reg.RFX_CAL_CFG_ir_stale b) * 1000000000 + 2000000 ≤ max s.ltb t) :
    changes (.staleSegmentTone t b k x) s [Reg.RFX_IR_STAT_ir_worst b, Reg.RFX_IR_STAT_ir_seg b, Reg.RFX_STATUS_ir_ok b] [] [.rx]
      (fun u => u.rxOf b = { s.rxOf b with
        ir := (List.range 16).map (fun i => if i = k.val then x else (s.rxOf b).ir.getD i 255),
        heard := (List.range 16).map (fun i => if i = k.val then max s.ltb t else (s.rxOf b).heard.getD i 0) }) := by
  have effect := staleSegmentTone_eq (s := s.begin t) (x := x) (rxNative_of run native) due
  refine changes_of (f := fun s => staleSegmentTone s b k x) rfl effect h
    (elsewhere_trans (.onRx (.start s t)) (irRefresh_frame ..)) (fun u kept => ?_)
  rw [kept.rxOf, irRefresh_rxOf, State.rxOf_onRx]
  rfl

theorem unsigned_lt (w : Nat) (i : Int) : unsigned w i < 2 ^ w := by
  have := Int.emod_lt_of_pos i (b := 2 ^ w) (by positivity)
  have := Int.emod_nonneg i (b := 2 ^ w) (by positivity)
  unfold unsigned
  zify
  omega

/-- A new reading of the die temperature. -/
def temperatureRead (s : State) (b : Nat) (temp : Int) : State :=
  (s.sset (Reg.RFX_IR_STAT_temp b) temp).onRx b (fun r => { r with temp := temp })

theorem temperature_apart (b : Fin 2) : ∀ f ∈ [Reg.RFX_STATUS_state b, Reg.RFX_CTRL_cal_mode b, Reg.RFX_CAL_CFG_temp_delta b],
    (Reg.RFX_IR_STAT_temp b).key ≠ f.key := by decide +revert

theorem temperature_unflagged (b : Fin 2) : chrFlagKey (Reg.RFX_IR_STAT_temp b).key = false := by decide +revert

theorem temperatureRead_get {temp : Int} {f : Fld}
    (hf : f ∈ [Reg.RFX_STATUS_state b, Reg.RFX_CTRL_cal_mode b, Reg.RFX_CAL_CFG_temp_delta b]) :
    (temperatureRead s b temp).get f = s.get f := State.get_sset_ne _ _ (temperature_apart b f hf)

/-- The filters are due for a new tuning (R83). -/
abbrev retuneDue (s : State) (b : Nat) (temp : Int) : Prop :=
  rxNative s b = true ∧ s.get (Reg.RFX_CAL_CFG_temp_delta b) * 10 ≤ (temp - (s.rxOf b).tuneTemp).natAbs

theorem retuneDue_read {temp : Int} : retuneDue (temperatureRead s b temp) b temp ↔ retuneDue s b temp := by
  have tuned : ((temperatureRead s b temp).rxOf b).tuneTemp = (s.rxOf b).tuneTemp := by
    rw [temperatureRead, State.rxOf_onRx]
    rfl
  simp only [retuneDue, rxNative, State.on, rxState, tuned, temperatureRead_get, List.mem_cons, true_or, or_true]

theorem filterRetune_eq (s : State) (b : Fin 2) (temp : Int) : filterRetune s b temp = if retuneDue s b temp
    then (temperatureRead s b temp).onRx b (fun r => { r with tuneTemp := temp }) else temperatureRead s b temp :=
  if_congr retuneDue_read rfl rfl

theorem filterRetune_rxOf (s : State) (b : Fin 2) (temp : Int) : (filterRetune s b temp).rxOf b = { s.rxOf b with
    temp := temp, tuneTemp := if retuneDue s b temp then temp else (s.rxOf b).tuneTemp } := by
  rw [filterRetune_eq]
  split
  · rw [State.rxOf_onRx, temperatureRead, State.rxOf_onRx]
    rfl
  · rw [temperatureRead, State.rxOf_onRx]
    rfl

theorem filterRetune_changes {temp : Int} (h : s.settled) : changes (.filterRetune t b temp) s [Reg.RFX_IR_STAT_temp b] [] [.rx]
    (fun u => u.get (Reg.RFX_IR_STAT_temp b) = unsigned (Reg.RFX_IR_STAT_temp b).w temp ∧ (u.rxOf b).temp = temp ∧
      (s.get (Reg.RFX_STATUS_state b) = 2 → s.get (Reg.RFX_CTRL_cal_mode b) = 0 →
      s.get (Reg.RFX_CAL_CFG_temp_delta b) * 10 ≤ (temp - (s.rxOf b).tuneTemp).natAbs → (u.rxOf b).tuneTemp = temp)) := by
  have read : s.elsewhere (temperatureRead (s.begin t) b temp) [Reg.RFX_IR_STAT_temp b] [] [.rx] := .onRx (.sset (.start s t))
  have shown : (filterRetune (s.begin t) b temp).get (Reg.RFX_IR_STAT_temp b) = unsigned (Reg.RFX_IR_STAT_temp b).w temp := by
    rw [filterRetune_eq, apply_ite (State.get · _), State.onRx_get, ite_self]
    exact (State.get_sset_self ..).trans (Nat.mod_eq_of_lt (unsigned_lt ..))
  refine changes_of (f := fun s => filterRetune s b temp) rfl (filterRetune_eq ..) h (elsewhere_ite (fun _ => .onRx read) (fun _ => read))
    (fun u kept => ?_)
  rw [← filterRetune_eq] at kept
  rw [kept.get _ (temperature_unflagged b), shown, kept.rxOf, filterRetune_rxOf]
  exact ⟨rfl, rfl, fun run native moved => if_pos ⟨rxNative_of run native, moved⟩⟩

/-- Settles O24: the end of an epoch is one scheduled move (`epochRolled`), whose target the power or gain_man gives; a step of the
gain reaches the lanes of its band and no other receiver's register. -/
theorem receiverGainCompletes : Obligations.ReceiverGainCompletes := by
  intro t b s h
  refine ⟨fun p g run due bare sched quiet auto stays loud gain range => ?_, fun p running due => ?_,
    fun n fresh => adcOverload_leads h, fun l d range due spaced late auto step => ?_, fun ir => irUpdate_changes h,
    fun k x => staleSegmentTone_changes h, fun temp => filterRetune_changes h⟩
  · have running : rxRunning s b = true := by simp [rxRunning, rxState, run]
    have down := epochTarget_down run bare sched quiet auto stays loud gain
    refine changes_mono (gainEpochEnd_changes h running due) (fun u ⟨cur, start, _, _, goes⟩ => ?_)
    obtain ⟨moved, counted⟩ := goes g down.symm bare range
    rw [if_neg (by omega)] at counted
    exact ⟨moved, cur, counted, start⟩
  · obtain ⟨u, next, -, cur, start, now, later, goes⟩ := gainEpochEnd_changes (p := p) h running due
    refine ⟨u, next, cur, start, now, later, fun bare manual range => ?_⟩
    exact (goes _ (epochTarget_manual manual).symm bare range).1
  · refine unscheduledStep_changes h range due (fun m last => ?_) auto step
    rcases spaced with none | some
    · cases none.symm.trans last
    · cases some.symm.trans last
      exact late

end ReceiverGain
end Sys2Proof.Machine

namespace Sys2Proof.Machine

/-! ### The calibration cache (R90, R92, R94, R112) -/

section CalibrationCache

variable {t : Nat} {n : Fin 4} {k : Fin 256} {s u v : State}

/-! What a chain holds, after an update of it -/

@[simp] theorem State.chainOf_setChain (s : State) (n : Nat) (c : Chain) : (s.setChain n c).chainOf n = c := tabGetD_put_self ..

@[simp] theorem State.chainOf_onChain (s : State) (n : Nat) (f : Chain → Chain) : (s.onChain n f).chainOf n = f (s.chainOf n) :=
  tabGetD_put_self ..

@[simp] theorem State.set_chainOf (s : State) (f : Fld) (x n : Nat) : (s.set f x).chainOf n = s.chainOf n := rfl

theorem Kept.chainOf (k : Kept s u) (n : Nat) : u.chainOf n = s.chainOf n := by
  unfold State.chainOf
  rw [k.chains]

/-! The registers of the cache's commands -/

theorem cacheKey_slot (n : Fin 4) : ∀ f ∈ [Reg.TXC_CACHE_CMD_busy n, Reg.TXC_CACHE_FREQ_freq_khz n],
    (Reg.TXC_CACHE_CMD_slot n).key ≠ f.key := by decide +revert

theorem cacheKey_state (n : Fin 4) : ∀ f ∈ [Reg.TXC_CACHE_CMD_busy n, Reg.TXC_CACHE_CMD_result n],
    (Reg.TXC_STATUS_state n).key ≠ f.key ∧ f.key ≠ (Reg.TXC_CTRL_enable n).key := by decide +revert

theorem cacheKey_result (n : Fin 4) : (Reg.TXC_CACHE_CMD_result n).key ≠ (Reg.TXC_CACHE_CMD_busy n).key ∧
    (Reg.TXC_STATUS_cache_count n).key ≠ (Reg.TXC_CTRL_enable n).key := by decide +revert

theorem cacheKey_unflagged (n : Fin 4) : ∀ f ∈ [Reg.TXC_CACHE_CMD_slot n, Reg.TXC_CACHE_CMD_busy n, Reg.TXC_CACHE_CMD_result n,
    Reg.TXC_STATUS_state n], chrFlagKey f.key = false := by decide +revert

/-! Fill, evict and read (R92) -/

theorem cacheFill_eq (idle : s.get (Reg.TXC_CACHE_CMD_busy n) = 0)
    (range : inChainRange s n (s.get (Reg.TXC_CACHE_FREQ_freq_khz n)) = true) (free : tabGet (s.chainOf n).slots k = none) :
    cacheFill s n k = ((s.set (Reg.TXC_CACHE_CMD_slot n) k).set (Reg.TXC_CACHE_CMD_busy n) 1).onChain n (fun c => { c with
      fills := c.fills ++ [{ slot := k, freq := s.get (Reg.TXC_CACHE_FREQ_freq_khz n), byCmd := true }] }) := by
  have freq := State.get_set_ne s k (cacheKey_slot n (Reg.TXC_CACHE_FREQ_freq_khz n) (by simp))
  have fits : inChainRange (s.set (Reg.TXC_CACHE_CMD_slot n) k) n (s.get (Reg.TXC_CACHE_FREQ_freq_khz n)) = true := range
  unfold cacheFill
  rw [if_neg (by simp [State.on, idle])]
  dsimp only
  rw [freq, if_neg (by simp [fits]), if_neg (by simp [free])]

theorem cacheFill_changes (h : s.settled) (idle : s.get (Reg.TXC_CACHE_CMD_busy n) = 0)
    (range : inChainRange s n (s.get (Reg.TXC_CACHE_FREQ_freq_khz n)) = true) (free : tabGet (s.chainOf n).slots k = none) :
    changes (.cacheFill t n k) s [Reg.TXC_CACHE_CMD_slot n, Reg.TXC_CACHE_CMD_busy n] [] [.chains] (fun u =>
      u.get (Reg.TXC_CACHE_CMD_busy n) = 1 ∧ u.get (Reg.TXC_CACHE_CMD_slot n) = k ∧ u.chainOf n = { s.chainOf n with
        fills := (s.chainOf n).fills ++ [{ slot := k, freq := s.get (Reg.TXC_CACHE_FREQ_freq_khz n), byCmd := true }] }) := by
  refine changes_of (f := fun s => cacheFill s n k) rfl (cacheFill_eq (s := s.begin t) idle range free) h
    (elsewhere_onChain (.set (.set (.start s t))) _ _ (by simp)) (fun u kept => ⟨?_, ?_, ?_⟩)
  · rw [kept.get _ (cacheKey_unflagged n _ (by simp)), State.onChain_get, State.get_set_self]
    rfl
  · rw [kept.get _ (cacheKey_unflagged n _ (by simp)), State.onChain_get,
      State.get_set_ne _ _ (cacheKey_slot n _ (by simp)).symm, State.get_set_self]
    exact Nat.mod_eq_of_lt k.isLt
  · rw [kept.chainOf, State.chainOf_onChain]
    rfl

/-- The canceller's entry of a slot is empty, and no transmission is touched. -/
def entryCleared (s u : State) (n k : Nat) : Prop := tabGet u.sic.entries (n * 256 + k) = none ∧ u.sic.tx = s.sic.tx

theorem sicClear_clears (s : State) (n k : Nat) : entryCleared s (sicClear s n k) n k := ⟨tabGet_del_self .., rfl⟩

@[simp] theorem sicClear_get (s : State) (n k : Nat) (f : Fld) : (sicClear s n k).get f = s.get f := rfl

@[simp] theorem sicClear_chainOf (s : State) (n k m : Nat) : (sicClear s n k).chainOf m = s.chainOf m := rfl

theorem elsewhere_sicClear {fs : List Fld} {cs : List Nat} {ps : List Part} {m : Nat} (h : s.elsewhere v fs cs ps)
    (hp : .sic ∈ ps := by simp) : s.elsewhere (sicClear v n m) fs cs ps := elsewhere_sic h _ hp

theorem evictNow_chainOf (s : State) (n k : Nat) : (evictNow s n k).chainOf n =
    { s.chainOf n with slots := tabDel (s.chainOf n).slots k, evict := none } := by
  simp [evictNow, cacheCount]

theorem cacheEvict_eq {x : CacheSlot} (idle : s.get (Reg.TXC_CACHE_CMD_busy n) = 0) (held : tabGet (s.chainOf n).slots k = some x)
    (unused : slotUsed s n k = false) : cacheEvict s n k = evictNow (s.set (Reg.TXC_CACHE_CMD_slot n) k) n k := by
  have spare : slotUsed (s.set (Reg.TXC_CACHE_CMD_slot n) k) n k = false := unused
  unfold cacheEvict
  rw [if_neg (by simp [State.on, idle])]
  dsimp only
  rw [if_neg (by simp [held]), if_neg (by simp [spare])]

theorem cacheEvict_changes {x : CacheSlot} (h : s.settled) (idle : s.get (Reg.TXC_CACHE_CMD_busy n) = 0)
    (held : tabGet (s.chainOf n).slots k = some x) (unused : slotUsed s n k = false) :
    changes (.cacheEvict t n k) s [Reg.TXC_CACHE_CMD_slot n, Reg.TXC_CACHE_CMD_busy n,
      Reg.TXC_CACHE_CMD_result n, Reg.TXC_STATUS_cache_count n] [] [.chains, .sic] (fun u =>
      u.get (Reg.TXC_CACHE_CMD_result n) = 0 ∧ tabGet (u.chainOf n).slots k = none ∧ (∀ j, j ≠ k.val →
      tabGet (u.chainOf n).slots j = tabGet (s.chainOf n).slots j) ∧ tabGet u.sic.entries (n * 256 + k) = none ∧
      u.sic.tx = s.sic.tx) := by
  have effect := cacheEvict_eq (s := s.begin t) idle held unused
  refine changes_of (f := fun s => cacheEvict s n k) rfl effect h
    (elsewhere_sicClear (.set (.set (.set (elsewhere_onChain (.set (.start s t)) _ _ (by simp)))))) (fun u kept => ?_)
  rw [kept.sic, kept.chainOf, evictNow_chainOf]
  refine ⟨?_, tabGet_del_self .., fun j other => tabGet_del_ne _ other.symm, sicClear_clears ..⟩
  rw [kept.get _ (cacheKey_unflagged n _ (by simp)), evictNow, sicClear_get, State.get_set_self]
  rfl

theorem cacheRead_leads {x : CacheSlot} (h : s.settled) (idle : s.get (Reg.TXC_CACHE_CMD_busy n) = 0)
    (held : tabGet (s.chainOf n).slots k = some x) :
    leadsTo (.cacheRead t n k) s (((((s.now t).set (Reg.TXC_CACHE_CMD_slot n) k).set (Reg.TXC_CACHE_RD_freq_khz n)
      x.freq).set (Reg.TXC_CACHE_RD_valid n) 1).set (Reg.TXC_CACHE_CMD_result n) 0) := by
  have slot : tabGet (((s.begin t).set (Reg.TXC_CACHE_CMD_slot n) k).chainOf n).slots k = some x := held
  refine leadsTo_now (f := fun s => cacheRead s n k) rfl h ?_
  unfold cacheRead
  rw [if_neg (by simp [State.on, idle])]
  dsimp only
  rw [slot]
  rfl

/-! The start of a fill, tried first or again (R90, R94) -/

/-- A chain in IDLE with no command starts the first fill that it has, where this may be tried now. -/
theorem fillStart_idle {f : Fill} {l : List Fill} {retry : Bool} (first : (s.chainOf n).fills = f :: l) (due : f.notBefore ≤ s.ltb)
    (kind : retry = decide (0 < f.preempts)) (idle : s.get (Reg.TXC_STATUS_state n) = chIDLE) (active : (s.chainOf n).active = none)
    (next : (s.chainOf n).next = none) (powered : s.get Reg.PWR_STATUS_state = 0) : fillStart s n retry =
      (s.set (Reg.TXC_STATUS_state n) chONCAL).onChain n (fun c => { c with fills := l, cal := some (f, s.ltb + 1200000) }) := by
  have found : (s.chainOf n).fills.find? (fun f => decide (f.notBefore ≤ s.ltb) && (retry == decide (0 < f.preempts))) = some f := by
    simp [first, due, kind]
  have quiet : noCmdSoon s n = true := by simp [noCmdSoon, heldCmds, active, next]
  unfold fillStart
  dsimp only
  rw [found]
  dsimp only
  rw [if_pos ⟨.inl ⟨idle, quiet⟩, by simp [rfPowered, powered]⟩, first, List.erase_cons_head]
  rfl

theorem fillStart_leads {c : Instr} {f : Fill} {l : List Fill} {retry : Bool} (e : exec c s = act t s (fun s => fillStart s n retry))
    (h : s.settled) (first : (s.chainOf n).fills = f :: l) (due : f.notBefore ≤ max s.ltb t) (kind : retry = decide (0 < f.preempts))
    (idle : s.get (Reg.TXC_STATUS_state n) = chIDLE) (active : (s.chainOf n).active = none)
    (next : (s.chainOf n).next = none) (powered : s.get Reg.PWR_STATUS_state = 0) : leadsTo c s
      (((s.now t).set (Reg.TXC_STATUS_state n) chONCAL).onChain n (fun c =>
      { c with fills := l, cal := some (f, max s.ltb t + 1200000) })) :=
  leadsTo_now e h (fillStart_idle (s := s.begin t) first due kind idle active next powered)

/-! The end of a calibration (R90, R92, R112) -/

/-- The slot of a fill holds what its calibration found. -/
def slotFilled (s : State) (n : Nat) (f : Fill) (found : ChanCal) : State :=
  s.onChain n (fun c => { c with
    cal := none, disabling := false
    slots := tabPut c.slots f.slot { freq := f.freq, cal := found, tempCal := s.sget (Reg.TXC_SENSE_temp n) } })

theorem slotFilled_chainOf (s : State) (n : Nat) (f : Fill) (found : ChanCal) : (slotFilled s n f found).chainOf n =
    { s.chainOf n with
      cal := none, disabling := false
      slots := tabPut (s.chainOf n).slots f.slot
        { freq := f.freq, cal := found, tempCal := s.sget (Reg.TXC_SENSE_temp n) } } := by
  unfold slotFilled
  exact State.chainOf_onChain ..

/-- The command that asked for a fill is answered. -/
def fillAnswered (s : State) (n : Nat) (f : Fill) : State :=
  if f.byCmd then (s.set (Reg.TXC_CACHE_CMD_busy n) 0).set (Reg.TXC_CACHE_CMD_result n) 0 else s

theorem fillAnswered_enable (s : State) (n : Fin 4) (f : Fill) :
    (fillAnswered s n f).get (Reg.TXC_CTRL_enable n) = s.get (Reg.TXC_CTRL_enable n) := by
  unfold fillAnswered
  split
  · rw [State.get_set_ne _ _ (cacheKey_state n _ (by simp)).2, State.get_set_ne _ _ (cacheKey_state n _ (by simp)).2]
  · rfl

theorem fillAnswered_holds (s : State) (n : Nat) (f : Fill) :
    (fillAnswered s n f).chainOf n = s.chainOf n ∧ (fillAnswered s n f).sic = s.sic := by
  unfold fillAnswered
  split <;> exact ⟨rfl, rfl⟩

theorem elsewhere_fillAnswered {f : Fill} {fs : List Fld} {cs : List Nat} {ps : List Part} (h : s.elsewhere v fs cs ps)
    (busy : (Reg.TXC_CACHE_CMD_busy n).key ∈ fs.map Fld.key := by simp)
    (result : (Reg.TXC_CACHE_CMD_result n).key ∈ fs.map Fld.key := by simp) : s.elsewhere (fillAnswered v n f) fs cs ps :=
  elsewhere_ite (fun _ => .set (.set h busy) result) (fun _ => h)

theorem fillAnswered_result {f : Fill} (asked : f.byCmd = true) : (fillAnswered s n f).get (Reg.TXC_CACHE_CMD_busy n) = 0 ∧
    (fillAnswered s n f).get (Reg.TXC_CACHE_CMD_result n) = 0 := by
  rw [fillAnswered, if_pos asked, State.get_set_ne _ _ (cacheKey_result n).1, State.get_set_self, State.get_set_self]
  exact ⟨rfl, rfl⟩

theorem oncalComplete_eq {f : Fill} {e : Nat} {found : ChanCal} (running : (s.chainOf n).cal = some (f, e)) (past : e ≤ s.ltb)
    (oncal : s.get (Reg.TXC_STATUS_state n) = chONCAL) : oncalComplete s n found =
      (fillAnswered (cacheCount (sicClear (slotFilled s n f found) n f.slot) n) n f).set (Reg.TXC_STATUS_state n)
        (if s.get (Reg.TXC_CTRL_enable n) = 0 then chOFF else chIDLE) := by
  have enable : (fillAnswered (cacheCount (sicClear (slotFilled s n f found) n f.slot) n) n f).get (Reg.TXC_CTRL_enable n) =
      s.get (Reg.TXC_CTRL_enable n) := (fillAnswered_enable ..).trans (State.get_set_ne _ _ (cacheKey_result n).2)
  unfold oncalComplete
  dsimp only
  rw [running]
  dsimp only
  rw [if_neg (by simp [chainState, oncal, past]), ← enable]
  simp only [State.on, bne_iff_ne, ne_eq, ite_not]
  rfl

theorem oncalComplete_changes {f : Fill} {e : Nat} {found : ChanCal} (h : s.settled) (running : (s.chainOf n).cal = some (f, e))
    (past : e ≤ max s.ltb t) (oncal : s.get (Reg.TXC_STATUS_state n) = chONCAL) :
    changes (.oncalComplete t ⟨n, found⟩) s [Reg.TXC_STATUS_state n,
      Reg.TXC_CACHE_CMD_busy n, Reg.TXC_CACHE_CMD_result n, Reg.TXC_STATUS_cache_count n] [] [.chains, .sic] (fun u =>
      tabGet (u.chainOf n).slots f.slot = some {
        freq := f.freq, cal := found, tempCal := s.sget (Reg.TXC_SENSE_temp n) } ∧ (u.chainOf n).cal = none ∧
      tabGet u.sic.entries (n * 256 + f.slot) = none ∧ (f.byCmd = true → u.get (Reg.TXC_CACHE_CMD_busy n) = 0 ∧
      u.get (Reg.TXC_CACHE_CMD_result n) = 0) ∧
      u.get (Reg.TXC_STATUS_state n) = if s.get (Reg.TXC_CTRL_enable n) = 0 then chOFF else chIDLE) := by
  have effect := oncalComplete_eq (s := s.begin t) (found := found) running past oncal
  have cleared : s.elsewhere (cacheCount (sicClear (slotFilled (s.begin t) n f found) n f.slot) n) [Reg.TXC_STATUS_state n,
      Reg.TXC_CACHE_CMD_busy n, Reg.TXC_CACHE_CMD_result n, Reg.TXC_STATUS_cache_count n] [] [.chains, .sic] :=
    .set (elsewhere_sicClear (elsewhere_onChain (.start s t) _ _ (by simp)))
  refine changes_of (f := fun s => oncalComplete s n found) rfl effect h
    (.set (elsewhere_fillAnswered cleared)) (fun u kept => ?_)
  obtain ⟨chain, sic⟩ := fillAnswered_holds (cacheCount (sicClear (slotFilled (s.begin t) n f found) n f.slot) n) n f
  have filled : u.chainOf n = _ := (kept.chainOf n).trans (chain.trans (slotFilled_chainOf (s.begin t) n f found))
  rw [filled, kept.sic, State.set_sic, sic]
  refine ⟨tabGet_put_self .., rfl, (sicClear_clears ..).1, fun asked => ?_, ?_⟩
  · obtain ⟨busyKey, -⟩ := cacheKey_state n (Reg.TXC_CACHE_CMD_busy n) (by simp)
    obtain ⟨resultKey, -⟩ := cacheKey_state n (Reg.TXC_CACHE_CMD_result n) (by simp)
    rw [kept.get _ (cacheKey_unflagged n _ (by simp)), kept.get _ (cacheKey_unflagged n _ (by simp)),
      State.get_set_ne _ _ busyKey, State.get_set_ne _ _ resultKey]
    exact fillAnswered_result asked
  · rw [kept.get _ (cacheKey_unflagged n _ (by simp)), State.get_set_self, begin_get]
    split <;> rfl

/-- Settles O26: each command is its equation above; a fill tried first and one tried again start in the same way
(`fillStart_idle`), and the end of a calibration writes the slot, clears its entry and answers the command. -/
theorem calibrationCacheCompletes : Obligations.CalibrationCacheCompletes := fun _ _ _ _ h =>
  ⟨cacheFill_changes h, fun _ => cacheEvict_changes h, fun _ => cacheRead_leads h,
    fun _ _ first due fresh => fillStart_leads rfl h first due (by simp [fresh]),
    fun _ _ first due again => fillStart_leads rfl h first due (by simp [again]),
    fun _ _ _ => oncalComplete_changes h⟩

end CalibrationCache
end Sys2Proof.Machine

namespace Sys2Proof.Machine

/-! ### What O25 leaves out: an evict that waits for a command of the disabled chain -/

/-- The machine after reset, but with chain 0 enabled in IDLE, where `waitingBeacon` is its command, and with an evict waiting for it:
of slot 5, which holds the command's frequency (R92). -/
def evictPending : State :=
  { State.reset with
    fields := [((Reg.TXC_CTRL_enable 0).key, 1), ((Reg.TXC_STATUS_state 0).key, chIDLE), ((Reg.TXC_CACHE_CMD_busy 0).key, 1)]
    chains := [(0, { active := some waitingBeacon, evict := some 5, slots := [(5, { freq := waitingBeacon.freq })] })] }

theorem evictPending_settled : evictPending.settled := ⟨rfl, rfl, rfl⟩

/-- Refutes O25: in `evictPending` the disable ends the beacon, so its slot is used no more, the evict ends with it and busy of
TXC_CACHE_CMD0 falls (R92); the frame of the clause names no register of the cache, and asks for no evict that waits. -/
theorem not_chainEnableCompletes : ¬ Obligations.ChainEnableCompletes := by
  intro h
  obtain ⟨-, -, -, disable, -⟩ := h 0 0 evictPending evictPending_settled
  obtain ⟨u, hu, ⟨fields, -⟩, -⟩ := disable (evictPending.chainOf 0) waitingBeacon (by decide) (.inl (by decide)) rfl rfl
  have stays : u.get (Reg.TXC_CACHE_CMD_busy 0) = evictPending.get (Reg.TXC_CACHE_CMD_busy 0) :=
    fields _ (by decide) (by decide)
  have next : exec (.chainDisable 0 0) evictPending =
    .next { (txcDrive (chainDisable (evictPending.begin 0) 0) 0).finish with pending := [] } := rfl
  have after : (txcDrive (chainDisable (evictPending.begin 0) 0) 0).finish.get (Reg.TXC_CACHE_CMD_busy 0) = 0 := by decide +kernel
  have before : evictPending.get (Reg.TXC_CACHE_CMD_busy 0) = 1 := by decide +kernel
  rw [Host.Outcome.next.inj (hu.symm.trans next), State.get_lit, after, before] at stays
  cases stays

end Sys2Proof.Machine

namespace Sys2Proof.Machine

/-! ### What O27 leaves out: a command whose occurrence is inert -/

/-- The command of a released slot frame, 120 µs before its first symbol. -/
def slotCommand : TxCmd where
  id := 1
  issuer := .slot
  cls := .slot
  freq := 868300
  power := none
  start := some 120000
  airUs := 1000
  profile := 0
  occHz := 200000
  psdu := []
  ref := 7

/-- The machine after reset, but with chain 0 enabled in IDLE, `slotCommand` its command and slot 5 of its cache holding the
command's channel; the occurrence of entry 2 of the schedule, for which the frame was released, has turned out inert. -/
def inertOccurrence : State :=
  { State.reset with
    fields := [((Reg.TXC_CTRL_enable 0).key, 1), ((Reg.TXC_STATUS_state 0).key, chIDLE)]
    chains := [(0, { active := some slotCommand, slots := [(5, { freq := slotCommand.freq })] })]
    esc := { State.reset.esc with sent := [(2, { start := 0, ref := slotCommand.ref, dead := some true })] } }

theorem inertOccurrence_settled : inertOccurrence.settled := ⟨rfl, rfl, rfl⟩

/-- Refutes O27: in `inertOccurrence` the chain lets go of the command at its turnaround (R230) and stays in IDLE; the clause on
TURNAROUND_START, which asks for a command of a slot frame, does not ask for its occurrence and says that the chain is in SETTLE. -/
theorem not_transmissionCompletes : ¬ Obligations.TransmissionCompletes := by
  intro h
  obtain ⟨-, -, turnaround, -⟩ := h 0 0 slotCommand inertOccurrence inertOccurrence_settled
  obtain ⟨u, hu, -, settles, -⟩ := turnaround false 5 rfl rfl rfl rfl (.inr rfl) (by decide) (by decide) (by decide) rfl
  have hops : u.get (Reg.TXC_STATUS_state 0) = chSETTLE := settles
  have next : exec (.turnaroundStart 0 0 false) inertOccurrence =
    .next { (ebrAngle (turnaroundStart (inertOccurrence.begin 0) 0 false) 0).finish with pending := [] } := rfl
  have stays : (ebrAngle (turnaroundStart (inertOccurrence.begin 0) 0 false) 0).finish.get (Reg.TXC_STATUS_state 0) = chIDLE := by
    decide +kernel
  rw [Host.Outcome.next.inj (hu.symm.trans next), State.get_lit, stays] at hops
  exact absurd hops (by decide)

end Sys2Proof.Machine

namespace Sys2Proof.Machine

/-! ### The canceller (R112, R113, R120, R121) -/

section Canceller

variable {t : Nat} {n : Fin 4} {s u : State}

theorem Kept.sicTxOf (k : Kept s u) (n : Nat) : u.sicTxOf n = s.sicTxOf n := by
  unfold State.sicTxOf
  rw [k.sic]

@[simp] theorem State.sicTxOf_setSicTx (s : State) (n : Nat) (x : SicTx) : (s.setSicTx n x).sicTxOf n = x := tabGetD_put_self ..

/-! Adaptation (R113): at the instant of a command, what the Chronograph has measured before plays no part -/

theorem foreignPower_begin (views : List SicView) : foreignPower (s.begin t) n views = foreignPower (s.now t) n views := rfl

section Adaptation

variable {taps coefs : List Cplx} {views : List SicView}

/-- The branches of an adaptation while the chain transmits with its canceller enabled: a foreign signal freezes the coefficients;
frozen ones, and those adapted less than 1 µs ago, stay. -/
theorem coeffAdapt_ramped (up : ramped s n = true) (ena : sicEna s (chainBand n) = true) : coeffAdapt s n taps coefs views =
    if foreignPower s n views then s.setSicTx n { s.sicTxOf n with frozen := true }
    else if (s.sicTxOf n).frozen ∨ s.cur Reg.SIC_CTRL_adapt_en = 0 ∨ s.ltb < (s.sicTxOf n).adaptAt + 1000 then s
    else s.setSicTx n { s.sicTxOf n with taps := taps.take 8, coefs := coefs.take 24, adaptAt := s.ltb } :=
  if_neg (by simp [up, ena])

theorem coeffAdapt_begin (up : ramped (s.now t) n = true) (ena : sicEna s (chainBand n) = true) :
    coeffAdapt (s.begin t) n taps coefs views =
    if foreignPower (s.now t) n views then (s.begin t).setSicTx n { s.sicTxOf n with frozen := true }
    else if (s.sicTxOf n).frozen ∨ s.cur Reg.SIC_CTRL_adapt_en = 0 ∨ max s.ltb t < (s.sicTxOf n).adaptAt + 1000 then s.begin t
    else (s.begin t).setSicTx n { s.sicTxOf n with taps := taps.take 8, coefs := coefs.take 24, adaptAt := max s.ltb t } := by
  rw [coeffAdapt_ramped (s := s.begin t) up ena, foreignPower_begin]
  rfl

theorem coeffAdapt_still (h : s.settled) (up : ramped (s.now t) n = true) (ena : sicEna s (chainBand n) = true)
    (still : (s.sicTxOf n).frozen = true ∨ s.cur Reg.SIC_CTRL_adapt_en = 0 ∨ max s.ltb t < (s.sicTxOf n).adaptAt + 1000) :
    leadsTo (.coeffAdapt t n taps coefs views) s (if foreignPower (s.now t) n views = true then (s.now t).setSicTx n
      { s.sicTxOf n with frozen := true } else s.now t) := by
  have effect := coeffAdapt_begin (taps := taps) (coefs := coefs) (views := views) up ena
  split
  case isTrue foreign =>
    rw [if_pos foreign] at effect
    exact leadsTo_now (f := fun s => coeffAdapt s n taps coefs views) rfl h effect
  case isFalse native =>
    rw [if_neg native, if_pos still] at effect
    exact leadsTo_now (f := fun s => coeffAdapt s n taps coefs views) rfl h effect

theorem coeffAdapt_adapts (h : s.settled) (up : ramped (s.now t) n = true) (ena : sicEna s (chainBand n) = true)
    (free : (s.sicTxOf n).frozen = false) (on : s.cur Reg.SIC_CTRL_adapt_en ≠ 0)
    (due : (s.sicTxOf n).adaptAt + 1000 ≤ max s.ltb t) :
    leadsTo (.coeffAdapt t n taps coefs views) s ((s.now t).setSicTx n (if foreignPower (s.now t) n views = true
      then { s.sicTxOf n with frozen := true } else { s.sicTxOf n with
        taps := taps.take 8, coefs := coefs.take 24, adaptAt := max s.ltb t })) := by
  have effect := coeffAdapt_begin (taps := taps) (coefs := coefs) (views := views) up ena
  have fresh : ¬((s.sicTxOf n).frozen = true ∨ s.cur Reg.SIC_CTRL_adapt_en = 0 ∨ max s.ltb t < (s.sicTxOf n).adaptAt + 1000) :=
    not_or.2 ⟨by simp [free], not_or.2 ⟨on, not_lt.2 due⟩⟩
  rw [if_neg fresh, ← apply_ite] at effect
  exact leadsTo_now (f := fun s => coeffAdapt s n taps coefs views) rfl h effect

end Adaptation

/-! A collision (R120, R121) -/

section Collision

variable {x : TxCmd} {lane : Fin 128} {level : Int} {since : Option Nat}

/-- The canceller of a chain notes a collision: it declares no other, and above the threshold its coefficients are frozen. -/
def collisionNoted (s : State) (n : Nat) (level : Int) : State := s.setSicTx n { s.sicTxOf n with
  declared := true
  frozen := (s.sicTxOf n).frozen || decide (s.sget (Reg.SIC_CD_EFF_cd_thr_eff n) < level) }

/-- A collision is declared, and firmware is told of it. -/
def collisionTold (s : State) (n lane : Nat) (level : Int) (x : TxCmd) : State :=
  (collisionNoted s n level).raise 79 n ((s.chainOf n).slot + 256 * lane + 65536 * classCode x.cls) (unsigned 32 level)

theorem collisionTold_kept (s : State) (n lane : Nat) (level : Int) (x : TxCmd) :
    Kept (collisionNoted s n level) (collisionTold s n lane level x) := raise_kept _ _ _ _ _ (by decide)

theorem collisionTold_declared (s : State) (n lane : Nat) (level : Int) (x : TxCmd) :
    ((collisionTold s n lane level x).sicTxOf n).declared = true := by
  rw [(collisionTold_kept ..).sicTxOf, collisionNoted, State.sicTxOf_setSicTx]

theorem collisionTold_pend (s : State) (n lane : Nat) (level : Int) (x : TxCmd) :
    79 ∈ (collisionTold s n lane level x).hif.pend := raise_pend ..

/-- The chain ramps down at once, and the command's end will say that a collision stopped it. -/
def collisionAborted (s : State) (n : Nat) (c : Chain) : State :=
  ((setChainState s n chRAMPDN).setChain n { c with lastLtb := some s.ltb, aborted := true }).bump (Reg.SIC_CNT_CD_ABORT n)

theorem collisionAborted_sicTxOf (s : State) (n : Nat) (c : Chain) : (collisionAborted s n c).sicTxOf n = s.sicTxOf n := by
  unfold State.sicTxOf collisionAborted
  rw [State.bump_sic]
  rfl

theorem collisionAborted_chainOf (s : State) (n : Nat) (c : Chain) :
    (collisionAborted s n c).chainOf n = { c with lastLtb := some s.ltb, aborted := true } := by
  unfold State.chainOf collisionAborted
  rw [State.bump_chains]
  exact tabGetD_put_self ..

theorem collisionAborted_state (s : State) (n : Nat) (c : Chain) :
    (collisionAborted s n c).get (Reg.TXC_STATUS_state n) = chRAMPDN :=
  State.get_set_self s (Reg.TXC_STATUS_state n) chRAMPDN

theorem elsewhere_collisionAborted {v : State} {fs : List Fld} {cs : List Nat} {ps : List Part} {c : Chain}
    (h : s.elsewhere v fs cs ps) (hf : (Reg.TXC_STATUS_state n).key ∈ fs.map Fld.key := by simp)
    (hc : Reg.SIC_CNT_CD_ABORT n ∈ cs ∨ Reg.SIC_CNT_CD_ABORT n ∈ reportCounts := by simp)
    (hp : .chains ∈ ps := by simp) : s.elsewhere (collisionAborted v n c) fs cs ps :=
  .bump (elsewhere_setChain (.set h hf) _ _ hp) hc

theorem abortMask_key (n : Fin 4) : chrFlagKey (Reg.SIC_CD_CFG_cd_abort_mask n).key = false ∧
    vecKey (Reg.SIC_CD_CFG_cd_abort_mask n).key = false := by decide +revert

theorem collisionTold_mask (s : State) (n : Fin 4) (lane : Nat) (level : Int) (x : TxCmd) :
    (collisionTold s n lane level x).cur (Reg.SIC_CD_CFG_cd_abort_mask n) = s.cur (Reg.SIC_CD_CFG_cd_abort_mask n) :=
  (collisionTold_kept ..).cur _ (abortMask_key n).1 (abortMask_key n).2

theorem collisionDeclared_eq (run : (s.chainOf n).active = some x) (sends : s.get (Reg.TXC_STATUS_state n) = chTX)
    (armed : (s.sicTxOf n).armed = true) (first : (s.sicTxOf n).declared = false)
    (covered : lane.val ∈ lanesOnChannel s n x.freq) (loud : s.sget (Reg.SIC_CD_EFF_cd_thr_eff n) ≤ level)
    (holds : collisionHolds s n since = true) : collisionDeclared s n lane level since =
      if bits (s.cur (Reg.SIC_CD_CFG_cd_abort_mask n)) (classCode x.cls) 1 = 1 then
        collisionAborted (collisionTold s n lane level x) n (s.chainOf n)
      else (collisionTold s n lane level x).bump (Reg.SIC_CNT_CD_NOABORT n) := by
  unfold collisionDeclared
  dsimp only
  rw [run]
  dsimp only
  rw [if_neg (by simp [chainState, sends, armed, first, covered, loud, holds]), ← collisionTold_mask s n lane level x, ← run]
  rfl

theorem collisionDeclared_changes (h : s.settled) (run : (s.chainOf n).active = some x)
    (sends : s.get (Reg.TXC_STATUS_state n) = chTX) (armed : (s.sicTxOf n).armed = true)
    (first : (s.sicTxOf n).declared = false) (covered : lane.val ∈ lanesOnChannel s n x.freq)
    (loud : s.sget (Reg.SIC_CD_EFF_cd_thr_eff n) ≤ level) (holds : collisionHolds (s.now t) n since = true) :
    changes (.collisionDeclared t n lane ⟨level, since⟩) s [Reg.TXC_STATUS_state n]
      [Reg.SIC_CNT_CD_ABORT n, Reg.SIC_CNT_CD_NOABORT n] [.sic, .chains] (fun u => (u.sicTxOf n).declared = true ∧
      79 ∈ u.hif.pend ∧ if bits (s.cur (Reg.SIC_CD_CFG_cd_abort_mask n)) (classCode x.cls) 1 = 1 then u.get
      (Reg.TXC_STATUS_state n) = chRAMPDN ∧ (u.chainOf n).aborted = true ∧
      (u.chainOf n).lastLtb = some (max s.ltb t) else u.get (Reg.TXC_STATUS_state n) = chTX ∧ u.chains = s.chains) := by
  have state := cacheKey_unflagged n (Reg.TXC_STATUS_state n) (by simp)
  have effect := collisionDeclared_eq (s := s.begin t) run sends armed first covered loud holds
  have told : s.elsewhere (collisionTold (s.begin t) n lane level x) [Reg.TXC_STATUS_state n]
      [Reg.SIC_CNT_CD_ABORT n, Reg.SIC_CNT_CD_NOABORT n] [.sic, .chains] :=
    .raise (elsewhere_setSicTx (.start s t) _ _ (by simp))
  have kept := collisionTold_kept (s.begin t) n lane level x
  rw [begin_cur] at effect
  split at effect
  case isTrue abort =>
    refine changes_of (f := fun s => collisionDeclared s n lane level since) rfl effect h (elsewhere_collisionAborted told)
      (fun u k => ⟨?_, k.pend _ (collisionTold_pend ..), ?_⟩)
    · rw [k.sicTxOf, collisionAborted_sicTxOf, collisionTold_declared]
    · rw [if_pos abort, k.get _ state, k.chainOf, collisionAborted_state, collisionAborted_chainOf, kept.ltb]
      exact ⟨rfl, rfl, rfl⟩
  case isFalse pass =>
    refine changes_of (f := fun s => collisionDeclared s n lane level since) rfl effect h (.bump told)
      (fun u k => ⟨?_, k.pend _ (collisionTold_pend ..), ?_⟩)
    · rw [k.sicTxOf, State.sicTxOf, State.bump_sic]
      exact collisionTold_declared ..
    · rw [if_neg pass, k.get _ state, State.bump_get, k.chains, State.bump_chains, kept.get _ state, kept.chains]
      exact ⟨sends, rfl⟩

end Collision

/-! The stored entry of a slot (R112) -/

section Entries

variable {k : Fin 256}

theorem sicKey_slot (n : Fin 4) : chrFlagKey (Reg.SIC_SLOT_CMD_slot n).key = false := by decide +revert

/-- The clear of an entry waits for nothing where the chain has not begun to transmit. -/
theorem sicClearEntry_idle (spare : s.get (Reg.SIC_SLOT_CMD_busy n) = 0) (idle : s.get (Reg.TXC_STATUS_state n) = chIDLE) :
    sicClearEntry s n k = sicClear (s.set (Reg.SIC_SLOT_CMD_slot n) k) n k := by
  unfold sicClearEntry
  dsimp only
  rw [if_neg (by simp [State.on, spare]), if_neg (by simp [chainState, idle, chIDLE])]

theorem sicClearEntry_changes (h : s.settled) (spare : s.get (Reg.SIC_SLOT_CMD_busy n) = 0)
    (idle : s.get (Reg.TXC_STATUS_state n) = chIDLE) :
    changes (.sicClearEntry t n k) s [Reg.SIC_SLOT_CMD_slot n] [] [.sic] (fun u =>
      u.get (Reg.SIC_SLOT_CMD_slot n) = k ∧ tabGet u.sic.entries (n * 256 + k) = none ∧ ∀ j, j ≠ n * 256 + k.val →
      tabGet u.sic.entries j = tabGet s.sic.entries j) := by
  refine changes_of (f := fun s => sicClearEntry s n k) rfl (sicClearEntry_idle (s := s.begin t) spare idle) h
    (elsewhere_sicClear (.set (.start s t))) (fun u kept => ?_)
  rw [kept.get _ (sicKey_slot n), kept.sic, sicClear_get, State.get_set_self]
  exact ⟨Nat.mod_eq_of_lt k.isLt, (sicClear_clears ..).1, fun j other => tabGet_del_ne _ other.symm⟩

theorem sicReadEntry_leads {e : SicEntry} (h : s.settled) (spare : s.get (Reg.SIC_SLOT_CMD_busy n) = 0)
    (held : e = s.sicEntry n k) :
    leadsTo (.sicReadEntry t n k) s ((((((s.now t).set (Reg.SIC_SLOT_CMD_slot n) k).setb (Reg.SIC_SLOT_RD_trained n)
      e.trained).setb (Reg.SIC_SLOT_RD_seeded n) e.seeded).set (Reg.SIC_SLOT_RD_ana_depth n) e.ana).set
      (Reg.SIC_SLOT_RD_dig_depth n) e.dig |>.set (Reg.SIC_SLOT_RD_iso n) (e.iso.getD 0)) := by
  subst held
  exact leadsTo_now (f := fun s => sicReadEntry s n k) rfl h (if_neg (by simp [State.on, spare]))

end Entries

/-- Settles O29: an adaptation is the branches of `coeffAdapt_ramped`, a collision is told and then aborts the command or is counted
(`collisionDeclared_eq`), and a slot's entry is cleared at once in IDLE and read as it stands. -/
theorem cancellerCompletes : Obligations.CancellerCompletes := fun _ _ _ h =>
  ⟨fun _ _ _ => coeffAdapt_still h, fun _ _ _ => coeffAdapt_adapts h, fun _ _ _ _ => collisionDeclared_changes h,
    fun _ => sicClearEntry_changes h, fun _ _ => sicReadEntry_leads h⟩

end Canceller
end Sys2Proof.Machine

namespace Sys2Proof.Machine

/-! ### Lanes: assignment, enable, self-tests (R128-R130, R135, R143, R147, R148) -/

section LaneAssignment

variable {t : Nat} {n : Fin 128} {s u v : State} {fs : List Fld} {cs : List Nat} {ps : List Part}

/-! What a lane holds, after an update of it -/

theorem tabPut_put {α : Type} (m : Tab α) (k : Nat) (a b : α) : tabPut (tabPut m k a) k b = tabPut m k b := by
  induction m with
  | nil => simp [tabPut]
  | cons e r ih =>
    obtain ⟨i, c⟩ := e
    rcases lt_trichotomy k i with before | same | after
    · simp [tabPut, before]
    · simp [tabPut, same]
    · simp [tabPut, after.not_gt, after.ne, ih]

@[simp] theorem State.setLane_setLane (s : State) (n : Nat) (a b : Lane) : (s.setLane n a).setLane n b = s.setLane n b := by
  unfold State.setLane
  rw [tabPut_put]

theorem State.set_setLane (s : State) (n : Nat) (l : Lane) (f : Fld) (x : Nat) :
    (s.setLane n l).set f x = (s.set f x).setLane n l := rfl

@[simp] theorem State.laneOf_setLane (s : State) (n : Nat) (l : Lane) : (s.setLane n l).laneOf n = l := tabGetD_put_self ..

@[simp] theorem State.laneOf_onLane (s : State) (n : Nat) (f : Lane → Lane) : (s.onLane n f).laneOf n = f (s.laneOf n) :=
  tabGetD_put_self ..

@[simp] theorem State.set_laneOf (s : State) (f : Fld) (x n : Nat) : (s.set f x).laneOf n = s.laneOf n := rfl

@[simp] theorem State.bump_laneOf (s : State) (c n : Nat) : (s.bump c).laneOf n = s.laneOf n := rfl

theorem State.laneOf_congr (h : u.lanes = s.lanes) (n : Nat) : u.laneOf n = s.laneOf n := by
  unfold State.laneOf
  rw [h]

@[simp] theorem State.raise_laneOf (s : State) (ev a b c n : Nat) : (s.raise ev a b c).laneOf n = s.laneOf n :=
  State.laneOf_congr (State.raise_lanes ..) n

theorem Kept.laneOf (k : Kept s u) (n : Nat) : u.laneOf n = s.laneOf n := State.laneOf_congr k.lanes n

theorem Judged.laneOf (k : Judged s u) (n : Nat) : u.laneOf n = s.laneOf n := State.laneOf_congr (k.part .lanes) n

/-! The registers of a lane lie apart -/

/-- The registers that these commands show of a lane, and the word of CHZ_RETIRED that holds its bit. -/
def laneRegisters (n : Nat) : List Fld := [Reg.CHZ_LANE_CTRL_enable n, Reg.CHZ_LANE_STAT_state n, Reg.CHZ_LANE_STAT_assign_result n,
  Reg.CHZ_LANE_STAT_agc_frozen n, Reg.CHZ_LANE_FAULT_selftest_fail n, Reg.CHZ_RETIRED_retired (n / 32)]

/-- Writes and reads of these registers that follow each other here. -/
def laneWritesReads (n : Nat) : List (Fld × Fld) :=
  [Reg.CHZ_LANE_FREQ_freq_khz n, Reg.CHZ_LANE_STAT_assign_result n, Reg.CHZ_LANE_STAT_pending n, Reg.CHZ_LANE_CTRL_enable n,
    Reg.CHZ_LANE_STAT_agc_frozen n, Reg.CHZ_LANE_FAULT_selftest_fail n].map (·, Reg.CHZ_LANE_STAT_state n) ++
  [Reg.CHZ_LANE_CFG_band n, Reg.CHZ_LANE_CFG_profile n, Reg.CHZ_LANE_CTRL_defer n].map (Reg.CHZ_LANE_FREQ_freq_khz n, ·) ++
  [Reg.CHZ_LANE_CTRL_enable n, Reg.CHZ_LANE_STAT_assign_result n, Reg.CHZ_LANE_STAT_agc_frozen n, Reg.CHZ_LANE_FAULT_selftest_fail n,
    Reg.CHZ_RETIRED_retired (n / 32)].map (Reg.CHZ_LANE_STAT_state n, ·) ++
  [Reg.CHZ_LANE_CTRL_enable n, Reg.CHZ_LANE_STAT_assign_result n, Reg.CHZ_LANE_FAULT_selftest_fail n,
    Reg.CHZ_RETIRED_retired (n / 32)].map (Reg.CHZ_LANE_STAT_pending n, ·) ++
  [Reg.CHZ_LANE_FAULT_selftest_fail n, Reg.CHZ_RETIRED_retired (n / 32)].map (Reg.CHZ_LANE_CTRL_enable n, ·) ++
  [Reg.CHZ_FAULT_CFG_storm_win, Reg.CHZ_FAULT_CFG_storm_thr].map (Reg.CHZ_LANE_CTRL_enable n, ·) ++
  [(Reg.CHZ_LANE_STAT_assign_result n, Reg.CHZ_LANE_CTRL_defer n),
    (Reg.CHZ_RETIRED_retired (n / 32), Reg.CHZ_LANE_FAULT_selftest_fail n)]

theorem laneWritesReads_apart (n : Fin 128) : ∀ p ∈ laneWritesReads n, p.1.key ≠ p.2.key := by
  decide +revert +kernel

/-- A write of one register of the lane leaves another. -/
theorem State.get_set_lane (n : Fin 128) {f g : Fld} (x : Nat) (h : (f, g) ∈ laneWritesReads n) :
    (s.set f x).get g = s.get g := State.get_set_ne _ _ (laneWritesReads_apart n (f, g) h)

theorem laneStates_fit (n : Nat) : laneOFF % 2 ^ (Reg.CHZ_LANE_STAT_state n).w = laneOFF ∧
    laneSWITCH % 2 ^ (Reg.CHZ_LANE_STAT_state n).w = laneSWITCH ∧ laneRETIRED % 2 ^ (Reg.CHZ_LANE_STAT_state n).w = laneRETIRED :=
  ⟨rfl, rfl, rfl⟩

theorem laneRegisters_own (n : Fin 128) : ∀ f ∈ laneRegisters n, chrFlagKey f.key = false ∧
    f.key ∉ [Reg.PWR_PERM_CNT_count].map Fld.key := by decide +revert

/-! What has been reached is looked at first (R200, R230) -/

theorem rxAtStart_holds (s : State) (k : Nat) (x : RxOpen) : ((rxAtStart s k x).fields, (rxAtStart s k x).lanes,
    (rxAtStart s k x).ltb, (rxAtStart s k x).pwr) = (s.fields, s.lanes, s.ltb, s.pwr) := by
  unfold rxAtStart
  dsimp only
  split
  · rfl
  · split <;> rfl

theorem rxReached_holds (s : State) : ((rxReached s).fields, (rxReached s).lanes, (rxReached s).ltb, (rxReached s).pwr) =
    (s.fields, s.lanes, s.ltb, s.pwr) := by
  unfold rxReached
  split
  · rfl
  · exact foldl_same (fun v => (v.fields, v.lanes, v.ltb, v.pwr)) _ s (fun v e => rxAtStart_holds v e.1 e.2)

theorem nbReached_holds (s : State) : ((nbReached s).fields, (nbReached s).lanes, (nbReached s).ltb, (nbReached s).pwr) =
    (s.fields, s.lanes, s.ltb, s.pwr) := by
  unfold nbReached
  split
  · rfl
  · exact rxReached_holds s

@[simp] theorem nbReached_fields (s : State) : (nbReached s).fields = s.fields := (Prod.mk.inj (nbReached_holds s)).1

@[simp] theorem nbReached_lanes (s : State) : (nbReached s).lanes = s.lanes := by simpa using congrArg (·.2.1) (nbReached_holds s)

@[simp] theorem nbReached_ltb (s : State) : (nbReached s).ltb = s.ltb := by simpa using congrArg (·.2.2.1) (nbReached_holds s)

@[simp] theorem nbReached_pwr (s : State) : (nbReached s).pwr = s.pwr := by simpa using congrArg (·.2.2.2) (nbReached_holds s)

@[simp] theorem nbReached_get (s : State) (f : Fld) : (nbReached s).get f = s.get f := State.get_eq (nbReached_fields s) f

@[simp] theorem nbReached_laneOf (s : State) (n : Nat) : (nbReached s).laneOf n = s.laneOf n :=
  State.laneOf_congr (nbReached_lanes s) n

theorem elsewhere_rxAtStart (h : s.elsewhere v fs cs ps) (k : Nat) (x : RxOpen) (hc : Reg.ESC_CNT_RX_UNCOVERED ∈ cs)
    (hp : .esc ∈ ps) : s.elsewhere (rxAtStart v k x) fs cs ps :=
  elsewhere_ite (fun _ => elsewhere_esc h _ hp) (fun _ => elsewhere_ite (fun _ => elsewhere_esc h _ hp)
    (fun _ => .bump (elsewhere_esc h _ hp) (.inl hc)))

theorem elsewhere_nbReached (h : s.elsewhere v fs cs ps) (hc : Reg.ESC_CNT_RX_UNCOVERED ∈ cs := by simp)
    (hp : .amc ∈ ps ∧ .esc ∈ ps := by simp) : s.elsewhere (nbReached v) fs cs ps := by
  obtain ⟨amc, esc⟩ := hp
  have reached : s.elsewhere (rxReached v) fs cs ps := elsewhere_ite (fun _ => h)
    (fun _ => elsewhere_esc (elsewhere_foldl _ h (fun _ e _ k => elsewhere_rxAtStart k e.1 e.2 hc esc)) _ esc)
  exact elsewhere_ite (fun _ => h) (fun _ => elsewhere_amc reached _ amc)

/-! The shared steps of a lane: an interval broken, a switch, a stop -/

/-- A lane that leaves or enters SEARCH changes in its interval of occupancy alone (R146). -/
theorem occBreak_eq (s : State) (n : Nat) : ∃ i b m k, occBreak s n = s.setLane n { s.laneOf n with
    occIdx := i, occSearch := false, occBusy := b, searchMs := m, busyMs := k } := by
  unfold occBreak occRoll
  dsimp only
  split
  · exact ⟨_, _, _, _, rfl⟩
  · rw [State.onLane, State.laneOf_setLane, State.setLane_setLane]
    exact ⟨_, _, _, _, rfl⟩

theorem laneToSwitch_eq (s : State) (n : Nat) : ∃ i b m k, laneToSwitch s n =
    (s.set (Reg.CHZ_LANE_STAT_state n) laneSWITCH).setLane n { s.laneOf n with
      occIdx := i, occSearch := false, occBusy := b, searchMs := m, busyMs := k, switchEnd := s.ltb + 50000 } := by
  obtain ⟨i, b, m, k, broken⟩ := occBreak_eq s n
  refine ⟨i, b, m, k, ?_⟩
  unfold laneToSwitch setLaneState
  rw [broken, State.onLane, State.set_laneOf, State.laneOf_setLane]
  exact State.setLane_setLane (s.set (Reg.CHZ_LANE_STAT_state n) laneSWITCH) ..

@[simp] theorem occBreak_get (s : State) (n : Nat) (f : Fld) : (occBreak s n).get f = s.get f := by
  obtain ⟨i, b, m, k, broken⟩ := occBreak_eq s n
  rw [broken, State.setLane_get]

@[simp] theorem occBreak_pwr (s : State) (n : Nat) : (occBreak s n).pwr = s.pwr := by
  obtain ⟨i, b, m, k, broken⟩ := occBreak_eq s n
  rw [broken, State.setLane_pwr]

theorem elsewhere_occBreak (h : s.elsewhere v fs cs ps) (n : Nat) (hp : .lanes ∈ ps := by simp) :
    s.elsewhere (occBreak v n) fs cs ps := by
  obtain ⟨i, b, m, k, broken⟩ := occBreak_eq v n
  rw [broken]
  exact elsewhere_setLane h _ _ hp

theorem elsewhere_laneToSwitch (h : s.elsewhere v fs cs ps) (n : Nat)
    (hf : (Reg.CHZ_LANE_STAT_state n).key ∈ fs.map Fld.key := by simp) (hp : .lanes ∈ ps := by simp) :
    s.elsewhere (laneToSwitch v n) fs cs ps := by
  obtain ⟨i, b, m, k, effect⟩ := laneToSwitch_eq v n
  rw [effect]
  exact elsewhere_setLane (.set h hf) _ _ hp

theorem elsewhere_laneStop (h : s.elsewhere v fs cs ps) (n : Nat)
    (hf : (Reg.CHZ_LANE_CTRL_enable n).key ∈ fs.map Fld.key ∧ (Reg.CHZ_LANE_STAT_state n).key ∈ fs.map Fld.key := by simp)
    (hc : Reg.ESC_CNT_RX_UNCOVERED ∈ cs := by simp) (hp : .lanes ∈ ps ∧ .amc ∈ ps ∧ .esc ∈ ps := by simp) :
    s.elsewhere (laneStop v n) fs cs ps :=
  .raise (.set (.set (elsewhere_onLane (elsewhere_occBreak (elsewhere_nbReached h hc hp.2) n hp.1) _ _ hp.1) hf.1) hf.2)
    (.inl (by decide))

/-- A stop drops the frame and any self-test; the assignments stay. -/
theorem laneStop_laneOf (s : State) (n : Nat) : ((laneStop s n).laneOf n).assign = (s.laneOf n).assign ∧
    ((laneStop s n).laneOf n).pending = (s.laneOf n).pending := by
  obtain ⟨i, b, m, k, broken⟩ := occBreak_eq (nbReached s) n
  unfold laneStop setLaneState
  simp [broken]

theorem laneStop_pend (s : State) (n : Nat) : 84 ∈ (laneStop s n).hif.pend := raise_pend ..

/-- The frame that a lane is receiving is dropped, and counted (R129, R130). -/
def frameDropped (s : State) (n : Nat) : State := if laneMid s n then s.bump (Reg.CHZ_LANE_CNT_REASSIGN_DROP n) else s

@[simp] theorem frameDropped_get (s : State) (n : Nat) (f : Fld) : (frameDropped s n).get f = s.get f := by
  unfold frameDropped
  split <;> rfl

@[simp] theorem frameDropped_ltb (s : State) (n : Nat) : (frameDropped s n).ltb = s.ltb := by
  unfold frameDropped
  split <;> rfl

@[simp] theorem frameDropped_laneOf (s : State) (n m : Nat) : (frameDropped s n).laneOf m = s.laneOf m := by
  unfold frameDropped
  split <;> rfl

theorem frameDropped_count (mid : laneMid s n = true) : (frameDropped s n).count (Reg.CHZ_LANE_CNT_REASSIGN_DROP n) =
    (s.count (Reg.CHZ_LANE_CNT_REASSIGN_DROP n) + 1) % 2 ^ 32 := by
  rw [frameDropped, if_pos mid, State.bump, State.count_bumpBy, if_pos rfl]

theorem elsewhere_frameDropped (h : s.elsewhere v fs cs ps) (n : Nat) (hc : Reg.CHZ_LANE_CNT_REASSIGN_DROP n ∈ cs := by simp) :
    s.elsewhere (frameDropped v n) fs cs ps := elsewhere_ite (fun _ => .bump h (.inl hc)) (fun _ => h)

theorem dropCounter_own (n : Fin 128) : Reg.CHZ_LANE_CNT_REASSIGN_DROP n ∉ [Reg.ESC_CNT_RX_UNCOVERED] ∧
    Reg.CHZ_LANE_CNT_REASSIGN_DROP n ∉ reportCounts := by decide +revert

theorem laneRegisters_kept (n : Fin 128) (k : Kept s u) {f : Fld} (hf : f ∈ laneRegisters n := by simp [laneRegisters]) :
    u.get f = s.get f := k.get f (laneRegisters_own n f hf).1

/-! An assignment is committed (R128, R129) -/

/-- The conditions of R128 look at the assignments and at no register of lane `n` that a commit writes: profiles lie above the
lanes' registers, receivers and the lists of CHZ below. -/
theorem assignCheck_congr (lanes : u.lanes = s.lanes)
    (get : ∀ f : Fld, f.key ≠ (Reg.CHZ_LANE_FREQ_freq_khz n).key → u.get f = s.get f) (a : Assign) :
    assignCheck u n a = assignCheck s n a := by
  have above (f : Fld) (h : 0x80100 ≤ f.off) : u.get f = s.get f := get f (by
    simp only [Fld.key, Reg.CHZ_LANE_FREQ_freq_khz]
    omega)
  have loaded : profValid u a.profile = profValid s a.profile ∧ profBand u a.profile = profBand s a.profile ∧
      occupiedHz u a.profile = occupiedHz s a.profile := by
    simp only [profValid, profBand, occupiedHz, phyOf, profFamily, profMaxPsdu, State.on]
    repeat rw [above]
    · exact ⟨rfl, rfl, rfl⟩
    all_goals exact Nat.le_add_right_of_le (by decide)
  have tuned : rxLo u a.band = rxLo s a.band ∧ rxHalfPass u a.band = rxHalfPass s a.band := by
    unfold rxLo rxHalfPass
    rw [get, get]
    · exact ⟨rfl, rfl⟩
    all_goals
      simp only [Fld.key, Reg.CHZ_LANE_FREQ_freq_khz, Reg.RFX_TUNE_lo_khz, Reg.RFX_TUNE_bw]
      omega
  have running : rxRunning u a.band = rxRunning s a.band := by
    unfold rxRunning rxState
    rw [get]
    simp only [Fld.key, Reg.CHZ_LANE_FREQ_freq_khz, Reg.RFX_STATUS_state]
    omega
  have listed (hz : Nat) : chanRetired u a.band a.freq hz = chanRetired s a.band a.freq hz := by
    unfold chanRetired
    rw [Bool.eq_iff_iff, List.any_eq_true, List.any_eq_true]
    refine exists_congr fun k => and_congr_right fun hk => ?_
    have low := List.mem_range.1 hk
    unfold State.on
    rw [get, get, get, get]
    all_goals
      simp only [Fld.key, Reg.CHZ_LANE_FREQ_freq_khz, Reg.CHZ_RCH_FREQ_valid, Reg.CHZ_RCH_FREQ_band, Reg.CHZ_RCH_FREQ_freq_khz,
        Reg.CHZ_RCH_WIDTH_width_khz]
      omega
  have taken : dupAssign u n a = dupAssign s n a := by
    unfold dupAssign State.on
    rw [lanes]
    refine congrArg s.lanes.any (funext fun e => ?_)
    rw [get]
    simp only [Fld.key, Reg.CHZ_LANE_FREQ_freq_khz, Reg.CHZ_LANE_CTRL_enable]
    omega
  have bit : laneIsRetired u n = laneIsRetired s n := by
    unfold laneIsRetired
    rw [get]
    simp only [Fld.key, Reg.CHZ_LANE_FREQ_freq_khz, Reg.CHZ_RETIRED_retired]
    omega
  obtain ⟨valid, band, width⟩ := loaded
  unfold assignCheck
  dsimp only
  rw [valid, band, width, tuned.1, tuned.2, listed, taken, running, bit]

/-- An assignment takes effect: the frame in progress is dropped, and the lane goes to SWITCH unless it is OFF. -/
def laneAssigned (s : State) (n : Nat) (a : Assign) : State :=
  let s := ((frameDropped s n).onLane n (fun l => { l with assign := some a, pending := none, rx := none })).set
    (Reg.CHZ_LANE_STAT_pending n) 0
  if laneState s n = laneOFF then s else laneToSwitch s n

/-- A lane that receives nothing, or does not defer, takes the assignment at once. -/
theorem laneCommit_eq {f : BitVec 22} {a : Assign}
    (asked : a = ⟨s.get (Reg.CHZ_LANE_CFG_band n), f.toNat, s.get (Reg.CHZ_LANE_CFG_profile n)⟩) (passes : assignCheck s n a = 0)
    (now : laneMid s n = false ∨ s.get (Reg.CHZ_LANE_CTRL_defer n) = 0) (goes : (s.laneOf n).stopping = false) :
    laneCommit s n f.toNat = laneAssigned
      (((nbReached s).set (Reg.CHZ_LANE_FREQ_freq_khz n) f.toNat).set (Reg.CHZ_LANE_STAT_assign_result n) 0) n a := by
  have others (g : Fld) (h : g.key ≠ (Reg.CHZ_LANE_FREQ_freq_khz n).key) :
      ((nbReached s).set (Reg.CHZ_LANE_FREQ_freq_khz n) f.toNat).get g = s.get g := by
    rw [State.get_set_ne _ _ h.symm, nbReached_get]
  have checked := (assignCheck_congr (by simp) others a).trans passes
  unfold laneCommit
  extract_lets reached w b r x y z moved
  obtain rfl : b = a := by
    have freq : w.get (Reg.CHZ_LANE_FREQ_freq_khz n) = f.toNat := (State.get_set_self ..).trans (Nat.mod_eq_of_lt f.isLt)
    simp only [asked, b, freq]
    simp [w, reached, State.get_set_lane n, laneWritesReads]
  have shown : x = w.set (Reg.CHZ_LANE_STAT_assign_result n) 0 := congrArg (w.set _) checked
  have state : x.get (Reg.CHZ_LANE_STAT_state n) = s.get (Reg.CHZ_LANE_STAT_state n) := by
    simp [x, w, reached, State.get_set_lane n, laneWritesReads]
  have defer : x.get (Reg.CHZ_LANE_CTRL_defer n) = s.get (Reg.CHZ_LANE_CTRL_defer n) := by
    simp [x, w, reached, State.get_set_lane n, laneWritesReads]
  have dropped : z = frameDropped x n := if_neg (by
    show ¬ ((frameDropped x n).laneOf n).stopping = true
    simp [x, w, reached, goes])
  rw [if_neg (not_not.2 checked), if_neg ?_]
  · simp only [moved, dropped, shown]
    rfl
  · rw [laneMid, laneState, state, ← laneState, ← laneMid, State.on, defer]
    rcases now with idle | undeferred
    · simp [idle]
    · simp [undeferred]

theorem elsewhere_laneAssigned (h : s.elsewhere v fs cs ps) (n : Nat) (a : Assign)
    (hf : (Reg.CHZ_LANE_STAT_pending n).key ∈ fs.map Fld.key ∧ (Reg.CHZ_LANE_STAT_state n).key ∈ fs.map Fld.key := by simp)
    (hc : Reg.CHZ_LANE_CNT_REASSIGN_DROP n ∈ cs := by simp) (hp : .lanes ∈ ps := by simp) :
    s.elsewhere (laneAssigned v n a) fs cs ps := by
  have moved : s.elsewhere (((frameDropped v n).onLane n (fun l => { l with assign := some a, pending := none, rx := none })).set
      (Reg.CHZ_LANE_STAT_pending n) 0) fs cs ps := .set (elsewhere_onLane (elsewhere_frameDropped h n hc) _ _ hp) hf.1
  exact elsewhere_ite (fun _ => moved) (fun _ => elsewhere_laneToSwitch moved n hf.2 hp)

/-- What the lane then holds and shows. -/
structure AssignmentTaken (s u : State) (n : Nat) (a : Assign) : Prop where
  result : u.get (Reg.CHZ_LANE_STAT_assign_result n) = s.get (Reg.CHZ_LANE_STAT_assign_result n)
  assign : (u.laneOf n).assign = some a
  pending : (u.laneOf n).pending = none
  rx : (u.laneOf n).rx = none
  switchEnd : s.get (Reg.CHZ_LANE_STAT_state n) ≠ laneOFF → (u.laneOf n).switchEnd = s.ltb + 50000
  state : u.get (Reg.CHZ_LANE_STAT_state n) = if s.get (Reg.CHZ_LANE_STAT_state n) = laneOFF then laneOFF else laneSWITCH

theorem laneAssigned_taken (s : State) (n : Fin 128) (a : Assign) : AssignmentTaken s (laneAssigned s n a) n a := by
  unfold laneAssigned
  extract_lets v
  have lane : v.laneOf n = { s.laneOf n with assign := some a, pending := none, rx := none } := by simp [v]
  have state : v.get (Reg.CHZ_LANE_STAT_state n) = s.get (Reg.CHZ_LANE_STAT_state n) := by
    simp [v, State.get_set_lane n, laneWritesReads]
  have kept : v.get (Reg.CHZ_LANE_STAT_assign_result n) = s.get (Reg.CHZ_LANE_STAT_assign_result n) := by
    simp [v, State.get_set_lane n, laneWritesReads]
  have ltb : v.ltb = s.ltb := by simp [v]
  split
  case isTrue off =>
    rw [laneState, state] at off
    exact ⟨kept, by rw [lane], by rw [lane], by rw [lane], fun on => absurd off on, by rw [if_pos off, state, off]⟩
  case isFalse on =>
    rw [laneState, state] at on
    obtain ⟨i, b, m, k, effect⟩ := laneToSwitch_eq v n
    rw [effect, lane, ltb]
    constructor
    all_goals simp [State.get_set_lane n, laneWritesReads, laneStates_fit, kept, on]

theorem laneCommit_changes {f : BitVec 22} {a : Assign} (h : s.settled)
    (asked : a = ⟨s.get (Reg.CHZ_LANE_CFG_band n), f.toNat, s.get (Reg.CHZ_LANE_CFG_profile n)⟩)
    (passes : assignCheck (s.now t) n a = 0) (now : laneMid s n = false ∨ s.get (Reg.CHZ_LANE_CTRL_defer n) = 0)
    (goes : (s.laneOf n).stopping = false) :
    changes (.laneCommit t n f) s [Reg.CHZ_LANE_FREQ_freq_khz n, Reg.CHZ_LANE_STAT_assign_result n,
      Reg.CHZ_LANE_STAT_pending n, Reg.CHZ_LANE_STAT_state n]
      [Reg.CHZ_LANE_CNT_REASSIGN_DROP n, Reg.ESC_CNT_RX_UNCOVERED] [.lanes, .amc, .esc] (fun u =>
      u.get (Reg.CHZ_LANE_STAT_assign_result n) = 0 ∧ (u.laneOf n).assign = some a ∧ (u.laneOf n).pending = none ∧
      (u.laneOf n).rx = none ∧ (s.get (Reg.CHZ_LANE_STAT_state n) ≠ laneOFF →
      (u.laneOf n).switchEnd = max s.ltb t + 50000) ∧
      u.get (Reg.CHZ_LANE_STAT_state n) = if s.get (Reg.CHZ_LANE_STAT_state n) = laneOFF then laneOFF else laneSWITCH) := by
  have effect := laneCommit_eq (s := s.begin t) asked passes now goes
  refine changes_of (f := fun s => laneCommit s n f.toNat) rfl effect h
    (elsewhere_laneAssigned (.set (.set (elsewhere_nbReached (.start s t)))) n a) (fun u kept => ?_)
  have state (x y : Nat) : (((nbReached (s.begin t)).set (Reg.CHZ_LANE_FREQ_freq_khz n) x).set
      (Reg.CHZ_LANE_STAT_assign_result n) y).get (Reg.CHZ_LANE_STAT_state n) = s.get (Reg.CHZ_LANE_STAT_state n) := by
    simp [State.get_set_lane n, laneWritesReads]
  have taken := laneAssigned_taken (((nbReached (s.begin t)).set (Reg.CHZ_LANE_FREQ_freq_khz n) f.toNat).set
      (Reg.CHZ_LANE_STAT_assign_result n) 0) n a
  rw [laneRegisters_kept n kept, laneRegisters_kept n kept, kept.laneOf]
  refine ⟨taken.result.trans (State.get_set_self ..), taken.assign, taken.pending, taken.rx, ?_, ?_⟩
  · simpa [state] using taken.switchEnd
  · simpa [state] using taken.state

/-! A self-test starts (R143) -/

theorem startSelftest_asked (s : State) (n : Nat) : startSelftest s n 2 =
    s.onLane n (fun l => { l with testing := 2, testEnd := s.ltb + 60000, testReq := false }) := by simp [startSelftest]

/-- A self-test of another kind leaves one that is asked for. -/
theorem startSelftest_other (s : State) (n : Nat) {kind : Nat} (h : kind ≠ 2) : startSelftest s n kind =
    s.onLane n (fun l => { l with testing := kind, testEnd := s.ltb + 60000 }) := by
  have other : (kind != 2) = true := bne_iff_ne.2 h
  simp [startSelftest, other]

theorem selftest_leads_now (h : s.settled) (search : s.get (Reg.CHZ_LANE_STAT_state n) = laneSEARCH) :
    leadsTo (.selftest t n) s ((s.now t).onLane n (fun l => { l with
      testing := 2, testEnd := max s.ltb t + 60000, testReq := false })) :=
  leadsTo_now (f := fun s => selftest s n) rfl h ((if_pos search).trans (startSelftest_asked ..))

theorem selftest_leads_later (h : s.settled) (other : s.get (Reg.CHZ_LANE_STAT_state n) ≠ laneSEARCH) :
    leadsTo (.selftest t n) s ((s.now t).onLane n (fun l => { l with testReq := true })) :=
  leadsTo_now (f := fun s => selftest s n) rfl h (if_neg other)

theorem periodicSelftest_eq {d : Nat} (search : s.get (Reg.CHZ_LANE_STAT_state n) = laneSEARCH) (idle : (s.laneOf n).testing = 0)
    (planned : (s.laneOf n).periodic = some d) (due : d ≤ s.ltb) (alone : ∀ e ∈ s.lanes, e.2.testing ≠ 3) :
    periodicSelftest s n = s.onLane n (fun l => { l with testing := 3, testEnd := s.ltb + 60000, periodic := none }) := by
  unfold periodicSelftest
  dsimp only
  rw [planned]
  dsimp only
  rw [if_pos ⟨due, search, idle, by simpa using alone⟩, startSelftest_other _ _ (by decide)]
  simp only [State.onLane, State.laneOf_setLane, State.setLane_setLane]

theorem periodicSelftest_leads {d : Nat} (h : s.settled) (search : s.get (Reg.CHZ_LANE_STAT_state n) = laneSEARCH)
    (idle : (s.laneOf n).testing = 0) (planned : (s.laneOf n).periodic = some d) (due : d ≤ max s.ltb t)
    (alone : ∀ e ∈ s.lanes, e.2.testing ≠ 3) :
    leadsTo (.periodicSelftest t n) s ((s.now t).onLane n (fun l => { l with
      testing := 3, testEnd := max s.ltb t + 60000, periodic := none })) :=
  leadsTo_now (f := fun s => periodicSelftest s n) rfl h
    (periodicSelftest_eq (s := s.begin t) search idle planned due alone)

theorem unretire_leads (h : s.settled) (retired : laneIsRetired s n = true) :
    leadsTo (.unretire t n) s ((s.now t).onLane n (fun l => { l with testing := 4, testEnd := max s.ltb t + 60000 })) :=
  leadsTo_now (f := fun s => unretire s n) rfl h ((if_pos retired).trans (startSelftest_other _ _ (by decide)))

/-! A lane is enabled (R9, R130) -/

/-- What CHZ's registers hold takes effect where no lane is enabled yet. -/
def firstEnabled (s : State) : State := if anyLane s then s else s.takeEffect laneFields

theorem firstEnabled_eq (s : State) : firstEnabled s = { s with inForce := (firstEnabled s).inForce } := by
  unfold firstEnabled
  split
  · rfl
  · exact takeEffect_eq laneFields s

@[simp] theorem firstEnabled_get (s : State) (f : Fld) : (firstEnabled s).get f = s.get f := by
  rw [firstEnabled_eq, State.get_lit]

@[simp] theorem firstEnabled_ltb (s : State) : (firstEnabled s).ltb = s.ltb := by rw [firstEnabled_eq]

@[simp] theorem firstEnabled_laneOf (s : State) (n : Nat) : (firstEnabled s).laneOf n = s.laneOf n := by
  rw [firstEnabled_eq, State.laneOf_lit]

/-- The lane begins its self-test and its first storm window (R130, R145). -/
def laneEnabled (s : State) (l : Lane) : Lane := { l with
  testing := 1, testEnd := s.ltb + 60000, stormFrom := s.ltb, stormCnt := 0, stormHold := false
  stormMs := atLeast1 (s.get Reg.CHZ_FAULT_CFG_storm_win), stormThr := atLeast1 (s.get Reg.CHZ_FAULT_CFG_storm_thr) }

theorem laneEnable_eq {a : Assign} (assigned : (s.laneOf n).assign = some a)
    (passed : s.get (Reg.CHZ_LANE_STAT_assign_result n) = 0) (off : s.get (Reg.CHZ_LANE_STAT_state n) = laneOFF)
    (sound : laneIsRetired s n = false) (receiver : s.get (Reg.RFX_CTRL_enable a.band) ≠ 0)
    (loaded : s.get (Reg.PHY_PROF_CTRL_valid a.profile) ≠ 0) (disabled : s.get (Reg.CHZ_LANE_CTRL_enable n) = 0) :
    laneEnable s n = ((nbReached (firstEnabled s)).set (Reg.CHZ_LANE_CTRL_enable n) 1).setLane n (laneEnabled s (s.laneOf n)) := by
  unfold laneEnable
  rw [assigned]
  dsimp only
  rw [if_neg (by simp [State.on, profValid, laneState, passed, off, sound, receiver, loaded, disabled]),
    ← firstEnabled, startSelftest_other _ _ (by decide)]
  simp only [State.onLane, State.laneOf_setLane, State.setLane_setLane]
  refine congrArg (State.setLane _ _) ?_
  simp [laneEnabled, State.get_set_lane n, laneWritesReads]

theorem laneEnable_changes {a : Assign} (h : s.settled) (assigned : (s.laneOf n).assign = some a)
    (passed : s.get (Reg.CHZ_LANE_STAT_assign_result n) = 0) (off : s.get (Reg.CHZ_LANE_STAT_state n) = laneOFF)
    (sound : laneIsRetired s n = false) (receiver : s.get (Reg.RFX_CTRL_enable a.band) ≠ 0)
    (loaded : s.get (Reg.PHY_PROF_CTRL_valid a.profile) ≠ 0) (disabled : s.get (Reg.CHZ_LANE_CTRL_enable n) = 0) :
    changes (.laneEnable t n) s [Reg.CHZ_LANE_CTRL_enable n] [Reg.ESC_CNT_RX_UNCOVERED] [.lanes, .amc, .esc, .inForce]
      (fun u => u.get (Reg.CHZ_LANE_CTRL_enable n) = 1 ∧ u.laneOf n = { s.laneOf n with
        testing := 1, testEnd := max s.ltb t + 60000, stormFrom := max s.ltb t, stormCnt := 0, stormHold := false,
        stormMs := atLeast1 (s.get Reg.CHZ_FAULT_CFG_storm_win),
        stormThr := atLeast1 (s.get Reg.CHZ_FAULT_CFG_storm_thr) }) := by
  have effect := laneEnable_eq (s := s.begin t) assigned passed off sound receiver loaded disabled
  have first : s.elsewhere (firstEnabled (s.begin t)) [Reg.CHZ_LANE_CTRL_enable n] [Reg.ESC_CNT_RX_UNCOVERED]
      [.lanes, .amc, .esc, .inForce] := elsewhere_ite (fun _ => .start s t) (fun _ => .takeEffect (.start s t))
  refine changes_of (f := fun s => laneEnable s n) rfl effect h (elsewhere_setLane (.set (elsewhere_nbReached first)) _ _ (by simp))
    (fun u kept => ⟨?_, ?_⟩)
  · rw [laneRegisters_kept n kept, State.setLane_get]
    exact State.get_set_self ..
  · rw [kept.laneOf, State.laneOf_setLane]
    rfl

/-! A lane is disabled (R130, R135, R148) -/

/-- The frame in progress is dropped, and a lane that was to stop has stopped. -/
def laneHalted (s : State) (n : Nat) : State :=
  if (s.laneOf n).stopping then laneStop (frameDropped s n) n else occBreak (frameDropped s n) n

theorem laneDisable_eq (s : State) (n : Nat) : laneDisable s n = setLaneState ((((laneHalted (nbReached s) n).onLane n
    (fun l => { l with
      rx := none, assign := l.pending.or l.assign, pending := none, testing := if l.testing = 4 then 4 else 0 })).set
    (Reg.CHZ_LANE_CTRL_enable n) 0).set (Reg.CHZ_LANE_STAT_pending n) 0) n laneOFF := rfl

theorem elsewhere_laneHalted (h : s.elsewhere v fs cs ps) (n : Nat)
    (hf : (Reg.CHZ_LANE_CTRL_enable n).key ∈ fs.map Fld.key ∧ (Reg.CHZ_LANE_STAT_state n).key ∈ fs.map Fld.key := by simp)
    (hc : Reg.CHZ_LANE_CNT_REASSIGN_DROP n ∈ cs ∧ Reg.ESC_CNT_RX_UNCOVERED ∈ cs := by simp)
    (hp : .lanes ∈ ps ∧ .amc ∈ ps ∧ .esc ∈ ps := by simp) : s.elsewhere (laneHalted v n) fs cs ps :=
  elsewhere_ite (fun _ => elsewhere_laneStop (elsewhere_frameDropped h n hc.1) n hf hc.2 hp)
    (fun _ => elsewhere_occBreak (elsewhere_frameDropped h n hc.1) n hp.1)

theorem laneHalted_assigned (s : State) (n : Nat) : ((laneHalted s n).laneOf n).assign = (s.laneOf n).assign ∧
    ((laneHalted s n).laneOf n).pending = (s.laneOf n).pending := by
  unfold laneHalted
  split
  · simpa using laneStop_laneOf (frameDropped s n) n
  · obtain ⟨i, b, m, k, broken⟩ := occBreak_eq (frameDropped s n) n
    simp [broken]

theorem laneHalted_pend {n : Nat} (stops : (s.laneOf n).stopping = true) : 84 ∈ (laneHalted s n).hif.pend := by
  rw [laneHalted, if_pos stops]
  exact laneStop_pend ..

/-- Nothing but the dropped frame counts. -/
theorem laneHalted_count (s : State) (n : Fin 128) : (laneHalted s n).count (Reg.CHZ_LANE_CNT_REASSIGN_DROP n) =
    (frameDropped s n).count (Reg.CHZ_LANE_CNT_REASSIGN_DROP n) := by
  obtain ⟨unreached, untold⟩ := dropCounter_own n
  have stays := elsewhere_refl (frameDropped s n) [Reg.CHZ_LANE_CTRL_enable n, Reg.CHZ_LANE_STAT_state n] [Reg.ESC_CNT_RX_UNCOVERED]
    [.lanes, .amc, .esc]
  have halted : (frameDropped s n).elsewhere (laneHalted s n) _ _ _ :=
    elsewhere_ite (fun _ => elsewhere_laneStop stays n) (fun _ => elsewhere_occBreak stays n)
  exact halted.2.1 _ unreached untold

theorem laneDisable_changes (h : s.settled) : changes (.laneDisable t n) s [Reg.CHZ_LANE_CTRL_enable n,
    Reg.CHZ_LANE_STAT_state n, Reg.CHZ_LANE_STAT_pending n, Reg.CHZ_LANE_STAT_agc_frozen n]
    [Reg.CHZ_LANE_CNT_REASSIGN_DROP n, Reg.ESC_CNT_RX_UNCOVERED] [.lanes, .amc, .esc] (fun u =>
      u.get (Reg.CHZ_LANE_CTRL_enable n) = 0 ∧ u.get (Reg.CHZ_LANE_STAT_state n) = laneOFF ∧ (u.laneOf n).rx = none ∧
      (u.laneOf n).assign = (s.laneOf n).pending.or (s.laneOf n).assign ∧ (laneMid s n = true →
      u.count (Reg.CHZ_LANE_CNT_REASSIGN_DROP n) = (s.count (Reg.CHZ_LANE_CNT_REASSIGN_DROP n) + 1) % 2 ^ 32) ∧
      ((s.laneOf n).stopping = true → 84 ∈ u.hif.pend)) := by
  obtain ⟨unreached, untold⟩ := dropCounter_own n
  refine changes_of (f := fun s => laneDisable s n) rfl (laneDisable_eq ..) h
    (.set (.set (.set (elsewhere_onLane (elsewhere_laneHalted (elsewhere_nbReached (.start s t)) n) _ _ (by simp)))))
    (fun u kept => ⟨?_, ?_, ?_, ?_, fun mid => ?_, fun stops => kept.pend _ ?_⟩)
  · rw [laneRegisters_kept n kept]
    simp [setLaneState, State.get_set_lane n, laneWritesReads]
  · rw [laneRegisters_kept n kept]
    exact State.get_set_self ..
  · rw [kept.laneOf, setLaneState, State.set_laneOf, State.set_laneOf, State.set_laneOf, State.laneOf_onLane]
  · obtain ⟨assign, pending⟩ := laneHalted_assigned (nbReached (s.begin t)) n
    rw [kept.laneOf, setLaneState, State.set_laneOf, State.set_laneOf, State.set_laneOf, State.laneOf_onLane, assign, pending,
      nbReached_laneOf]
    rfl
  · have reached : (nbReached (s.begin t)).count (Reg.CHZ_LANE_CNT_REASSIGN_DROP n) = s.count (Reg.CHZ_LANE_CNT_REASSIGN_DROP n) :=
      (elsewhere_nbReached (.start s t) (fs := []) (ps := [.amc, .esc])).2.1 _ unreached untold
    have receives : laneMid (nbReached (s.begin t)) n = true := by
      rw [laneMid, laneState, nbReached_get]
      exact mid
    rw [kept.count _ untold, ← reached, ← frameDropped_count receives, ← laneHalted_count]
    simp only [setLaneState, State.set_count, State.onLane_count]
  · have halts : ((nbReached (s.begin t)).laneOf n).stopping = true := by
      rw [nbReached_laneOf]
      exact stops
    simp only [setLaneState, State.set_hif, State.onLane_hif]
    exact laneHalted_pend halts

/-! A self-test ends (R143, R144) -/

/-- A test that the lane began at its enable sends it on; another leaves it where it is. -/
theorem selftestComplete_passed {k : Nat} {err : Int} (kind : (s.laneOf n).testing = k) (began : 1 ≤ k) (known : k ≤ 3)
    (ended : (s.laneOf n).testEnd ≤ s.ltb) (near : err.natAbs ≤ 10) : selftestComplete s n true err =
      let v := (s.onLane n (fun l => { l with testing := 0 })).set (Reg.CHZ_LANE_FAULT_selftest_fail n) 0
      if k = 1 then laneToSwitch v n else v := by
  unfold selftestComplete
  dsimp only
  rw [kind, if_neg (by omega), if_pos (by simpa using near), if_neg (show k ≠ 4 by omega)]

theorem selftestComplete_failed {dec : Bool} {err : Int} (tests : (s.laneOf n).testing ≠ 0)
    (ended : (s.laneOf n).testEnd ≤ s.ltb) (fails : dec = false ∨ 10 < err.natAbs) : selftestComplete s n dec err =
      laneRetire ((s.onLane n (fun l => { l with testing := 0 })).set (Reg.CHZ_LANE_FAULT_selftest_fail n) 1) n := by
  unfold selftestComplete
  dsimp only
  rw [if_neg (by omega), if_neg]
  rcases fails with wrong | far
  · simp [wrong]
  · simp [far]

theorem selftestComplete_passes {k : Nat} {dec : Bool} {err : Int} (h : s.settled) (kind : (s.laneOf n).testing = k)
    (began : 1 ≤ k) (known : k ≤ 3) (ended : (s.laneOf n).testEnd ≤ max s.ltb t) (good : dec = true) (near : err.natAbs ≤ 10) :
    changes (.selftestComplete t n dec err) s [Reg.CHZ_LANE_FAULT_selftest_fail n, Reg.CHZ_LANE_STAT_state n] [] [.lanes]
      (fun u => u.get (Reg.CHZ_LANE_FAULT_selftest_fail n) = 0 ∧ (u.laneOf n).testing = 0 ∧
      (k = 1 → (u.laneOf n).switchEnd = max s.ltb t + 50000) ∧
      u.get (Reg.CHZ_LANE_STAT_state n) = if k = 1 then laneSWITCH else s.get (Reg.CHZ_LANE_STAT_state n)) := by
  subst good
  have effect := selftestComplete_passed (s := s.begin t) kind began known ended near
  have shown : s.elsewhere (((s.begin t).onLane n (fun l => { l with testing := 0 })).set (Reg.CHZ_LANE_FAULT_selftest_fail n) 0)
      [Reg.CHZ_LANE_FAULT_selftest_fail n, Reg.CHZ_LANE_STAT_state n] [] [.lanes] :=
    .set (elsewhere_onLane (.start s t) _ _ (by simp))
  refine changes_of (f := fun s => selftestComplete s n true err) rfl effect h
    (elsewhere_ite (fun _ => elsewhere_laneToSwitch shown n) (fun _ => shown)) (fun u kept => ?_)
  rw [laneRegisters_kept n kept, laneRegisters_kept n kept, kept.laneOf]
  split
  case isTrue enabled =>
    obtain ⟨i, b, m, k, switched⟩ := laneToSwitch_eq
      (((s.begin t).onLane n (fun l => { l with testing := 0 })).set (Reg.CHZ_LANE_FAULT_selftest_fail n) 0) n
    rw [switched]
    simp [State.get_set_lane n, laneWritesReads, laneStates_fit, enabled]
  case isFalse other =>
    simp [State.get_set_lane n, laneWritesReads, other]

/-- The lane reads RETIRED, and its bit is set. -/
structure LaneRetired (s u : State) (n : Nat) : Prop where
  failed : u.get (Reg.CHZ_LANE_FAULT_selftest_fail n) = s.get (Reg.CHZ_LANE_FAULT_selftest_fail n)
  state : u.get (Reg.CHZ_LANE_STAT_state n) = laneRETIRED
  retired : laneIsRetired u n = true
  enable : u.get (Reg.CHZ_LANE_CTRL_enable n) = 0
  testing : (u.laneOf n).testing = 0

theorem bits_or_two_pow {x k w : Nat} (h : k < w) : bits ((x ||| 2 ^ k) % 2 ^ w) k 1 = 1 := by
  have set : ((x ||| 2 ^ k) % 2 ^ w).testBit k = true := by
    simp [Nat.testBit_mod_two_pow, Nat.testBit_or, Nat.testBit_two_pow_self, h]
  rwa [Nat.testBit_eq_decide_div_mod_eq, decide_eq_true_eq] at set

theorem laneRetire_retired (s : State) (n : Fin 128) : LaneRetired s (laneRetire s n) n := by
  obtain ⟨i, b, m, k, broken⟩ := occBreak_eq (nbReached s) n
  unfold laneRetire setLaneState
  dsimp only
  rw [broken]
  constructor
  case retired =>
    have bit := bits_or_two_pow (x := s.get (Reg.CHZ_RETIRED_retired (n / 32))) (Nat.mod_lt n.val (show 0 < 32 by decide))
    simpa [laneIsRetired, State.get_set_lane n, laneWritesReads, Reg.CHZ_RETIRED_retired] using bit
  all_goals simp [State.get_set_lane n, laneWritesReads, laneStates_fit]

theorem elsewhere_laneRetire (h : s.elsewhere v fs cs ps) (n : Nat)
    (hf : (Reg.CHZ_RETIRED_retired (n / 32)).key ∈ fs.map Fld.key ∧ (Reg.CHZ_LANE_STAT_state n).key ∈ fs.map Fld.key ∧
      (Reg.CHZ_LANE_CTRL_enable n).key ∈ fs.map Fld.key ∧ (Reg.CHZ_LANE_STAT_pending n).key ∈ fs.map Fld.key := by simp)
    (hc : Reg.ESC_CNT_RX_UNCOVERED ∈ cs := by simp) (hp : .lanes ∈ ps ∧ .amc ∈ ps ∧ .esc ∈ ps ∧ .power ∈ ps := by simp) :
    s.elsewhere (laneRetire v n) fs cs ps := by
  obtain ⟨retired, state, enable, pending⟩ := hf
  obtain ⟨lanes, amc, esc, power⟩ := hp
  have broken := elsewhere_occBreak (elsewhere_nbReached h hc ⟨amc, esc⟩) n lanes
  exact .raise (.set (.set (.set (elsewhere_onLane (.set broken retired) _ _ lanes) state) enable) pending) (.inr power)

theorem laneRetire_quiet {n : Nat} (h : s.noChannelFault) : (laneRetire s n).noChannelFault := by
  refine State.noChannelFault.raise (ev := 80) (h.same ?_) n 0 0
  simp [setLaneState]

theorem selftestComplete_fails {dec : Bool} {err : Int} (h : s.settled) (tests : (s.laneOf n).testing ≠ 0)
    (ended : (s.laneOf n).testEnd ≤ max s.ltb t) (fails : dec = false ∨ 10 < err.natAbs) :
    changes (.selftestComplete t n dec err) s [Reg.CHZ_LANE_FAULT_selftest_fail n,
      Reg.CHZ_RETIRED_retired (n / 32), Reg.CHZ_LANE_CTRL_enable n, Reg.CHZ_LANE_STAT_state n,
      Reg.CHZ_LANE_STAT_pending n, Reg.CHZ_LANE_STAT_agc_frozen n, Reg.PWR_PERM_CNT_count] [Reg.ESC_CNT_RX_UNCOVERED,
      Reg.PWR_CNT_PERMANENT, Reg.PWR_CNT_TRANSIENT] [.lanes, .amc, .esc, .power] (fun u =>
      u.get (Reg.CHZ_LANE_FAULT_selftest_fail n) = 1 ∧ u.get (Reg.CHZ_LANE_STAT_state n) = laneRETIRED ∧
      laneIsRetired u n = true ∧ u.get (Reg.CHZ_LANE_CTRL_enable n) = 0 ∧ (u.laneOf n).testing = 0 ∧
      80 ∈ u.hif.pend) := by
  have effect := selftestComplete_failed (s := s.begin t) tests ended fails
  refine changes_judged (f := fun s => selftestComplete s n dec err) rfl effect h
    (elsewhere_laneRetire (.set (elsewhere_onLane (.start s t) _ _ (by simp))) n)
    (laneRetire_quiet ((h.noChannelFault t).same rfl)) (fun u judged => ?_)
  have after := laneRetire_retired (((s.begin t).onLane n (fun l => { l with testing := 0 })).set
    (Reg.CHZ_LANE_FAULT_selftest_fail n) 1) n
  have shown {f : Fld} (hf : f ∈ laneRegisters n) := judged.get (laneRegisters_own n f hf).1 (laneRegisters_own n f hf).2
  have bit : laneIsRetired u n = true := by
    rw [laneIsRetired, shown (by simp [laneRegisters])]
    exact after.retired
  rw [shown (by simp [laneRegisters]), shown (by simp [laneRegisters]), shown (by simp [laneRegisters]), judged.laneOf]
  exact ⟨after.failed.trans (State.get_set_self ..), after.state, bit, after.enable, after.testing, judged.pend _ (raise_pend ..)⟩

/-! A switch ends (R135) -/

/-- An entry to SEARCH from another state: the AGC tracks, no frame is in progress, and a requested self-test starts. -/
theorem laneSearch_eq {n : Nat} (other : s.get (Reg.CHZ_LANE_STAT_state n) ≠ laneSEARCH) : ∃ l : Lane, laneSearch s n =
      ((s.set (Reg.CHZ_LANE_STAT_agc_frozen n) 0).set (Reg.CHZ_LANE_STAT_state n) laneSEARCH).setLane n l ∧ l.rx = none ∧
      l.assign = (s.laneOf n).assign ∧ ((s.laneOf n).testReq = true → l.testing = 2) := by
  obtain ⟨i, b, m, k, broken⟩ := occBreak_eq s n
  have stays : (laneState s n == laneSEARCH) = false := beq_eq_false_iff_ne.2 other
  unfold laneSearch setLaneState
  dsimp only
  rw [stays, if_neg (show ¬ false = true by decide), broken]
  simp only [State.onLane, startSelftest_asked, State.laneOf_setLane, State.set_setLane, State.setLane_setLane]
  split
  case isTrue asked => exact ⟨_, rfl, rfl, rfl, fun _ => rfl⟩
  case isFalse unasked => exact ⟨_, rfl, rfl, rfl, fun asked => absurd asked unasked⟩

theorem switchDone_eq (switch : s.get (Reg.CHZ_LANE_STAT_state n) = laneSWITCH) (ended : (s.laneOf n).switchEnd ≤ s.ltb)
    (goes : (s.laneOf n).stopping = false) (settled : (s.laneOf n).pending = none) : switchDone s n =
      laneSearch ((s.onLane n (fun l => { l with assign := l.pending.or l.assign, pending := none, rx := none })).set
        (Reg.CHZ_LANE_STAT_pending n) 0) n := by
  unfold switchDone laneToSearch
  rw [if_pos ⟨switch, ended⟩]
  simp [goes, settled]

theorem switchDone_changes (h : s.settled) (switch : s.get (Reg.CHZ_LANE_STAT_state n) = laneSWITCH)
    (ended : (s.laneOf n).switchEnd ≤ max s.ltb t) (goes : (s.laneOf n).stopping = false) (settled : (s.laneOf n).pending = none) :
    changes (.switchDone t n) s [Reg.CHZ_LANE_STAT_agc_frozen n, Reg.CHZ_LANE_STAT_pending n,
      Reg.CHZ_LANE_STAT_state n] [] [.lanes] (fun u => u.get (Reg.CHZ_LANE_STAT_state n) = laneSEARCH ∧
      u.get (Reg.CHZ_LANE_STAT_agc_frozen n) = 0 ∧ (u.laneOf n).rx = none ∧
      (u.laneOf n).assign = (s.laneOf n).assign ∧ ((s.laneOf n).testReq = true → (u.laneOf n).testing = 2)) := by
  obtain ⟨l, search, rx, assign, asked⟩ := laneSearch_eq (n := n) (s := ((s.begin t).onLane n
    (fun l => { l with assign := l.pending.or l.assign, pending := none, rx := none })).set (Reg.CHZ_LANE_STAT_pending n) 0) (by
      simp [State.get_set_lane n, laneWritesReads, switch, laneSWITCH, laneSEARCH])
  have effect := (switchDone_eq (s := s.begin t) switch ended goes settled).trans search
  rw [State.set_laneOf, State.laneOf_onLane] at assign asked
  refine changes_of (f := fun s => switchDone s n) rfl effect h
    (elsewhere_setLane (.set (.set (.set (elsewhere_onLane (.start s t) _ _ (by simp))))) _ _ (by simp)) (fun u kept => ?_)
  rw [laneRegisters_kept n kept, laneRegisters_kept n kept, kept.laneOf, State.laneOf_setLane, State.setLane_get, State.setLane_get]
  refine ⟨State.get_set_self .., ?_, rx, assign.trans ?_, asked⟩
  · simp [State.get_set_lane n, laneWritesReads]
  · have none : ((s.begin t).laneOf n).pending = none := settled
    rw [none]
    rfl

end LaneAssignment

/-- Settles O30: a commit is what R128 checks and then `laneAssigned`, a disable is the halted lane of `laneHalted` in OFF, a failed
self-test is a retirement that the fault classifier judges (`laneRetire_retired`), and the other commands change the lane alone. -/
theorem laneAssignmentCompletes : Obligations.LaneAssignmentCompletes := fun _ _ _ h =>
  ⟨fun _ _ => laneCommit_changes h, fun _ => laneEnable_changes h, laneDisable_changes h, selftest_leads_now h, selftest_leads_later h,
    fun _ => periodicSelftest_leads h, fun _ _ _ => selftestComplete_passes h, fun _ _ => selftestComplete_fails h,
    unretire_leads h, switchDone_changes h⟩

end Sys2Proof.Machine

namespace Sys2Proof.Machine

/-! ### What O32 leaves out: a beacon instant between the last command and PROFILE_UNLOAD -/

/-- The machine after reset, but with the Balance LOCKED, AMC enabled and profile 5 loaded. Profile 5 was that of beacon channel A,
whose valid firmware has cleared in the middle of the cycle: the write waits for the beacon instant, halfway through cycle 50 at
LTB 10 ms, which is 1 µs away (R9, R195). -/
def channelLeaving : State :=
  { (State.reset.set Reg.BAL_STATUS_state 2 |>.set Reg.AMC_CTRL_enable 1 |>.set Reg.AMC_EB_CFG_eb_angle 32768 |>.set
      Reg.AMC_EB_CHANA_profile 5 |>.set (Reg.PHY_PROF_CTRL_valid 5) 1) with
    ltb := 9999000
    inForce := [(Reg.AMC_EB_CHANA_valid.key, 1)]
    bal := { cycles := [⟨50, 0, 20000000⟩] }
    amc := { ebSince := some (50 * 65536 + 16384) } }

theorem channelLeaving_settled : channelLeaving.settled := ⟨rfl, rfl, rfl⟩

/-- Before the beacon instant the channel in force still names the profile; 1 µs after it nothing does. -/
theorem channelLeaving_use : profileInUse channelLeaving 5 = true ∧ profileInUse (channelLeaving.begin 10001000) 5 = false := by
  decide +kernel

theorem channelLeaving_loaded : channelLeaving.get (Reg.PHY_PROF_CTRL_valid 5) = 1 := by decide +kernel

/-- A loaded profile that nothing uses at the instant of its unload is not loaded any more (R153). -/
theorem profileUnload_unused {s : State} {k : Nat} (loaded : s.get (Reg.PHY_PROF_CTRL_valid k) ≠ 0)
    (unused : profileInUse s k = false) : profileUnload s k =
      (s.set (Reg.PHY_PROF_CTRL_valid k) 0).set (Reg.PHY_PROF_CTRL_load_result k) 0 := by
  unfold profileUnload
  rw [if_neg (by simp [profValid, State.on, loaded]), if_neg (by simp [unused])]

/-- Refutes O32: in `channelLeaving` profile 5 is in use at the LTB of the state, but at the instant of PROFILE_UNLOAD the beacon
instant has passed and the channel that named it is no longer valid, so it is unloaded; the clause looks at the use before time
moves on to the command, and says that the unload is refused with IN_USE. -/
theorem not_modemCompletes : ¬ Obligations.ModemCompletes := by
  intro h
  obtain ⟨used, unused⟩ := channelLeaving_use
  obtain ⟨-, -, refused, -⟩ := h 10001000 5 channelLeaving channelLeaving_settled
  have loaded : channelLeaving.get (Reg.PHY_PROF_CTRL_valid 5) ≠ 0 := by simp [channelLeaving_loaded]
  obtain ⟨u, hu, stays⟩ := refused used loaded
  have effect := profileUnload_unused (s := channelLeaving.begin 10001000) loaded unused
  obtain ⟨v, hv, gone⟩ := act_kept (s := channelLeaving) (t := 10001000) (f := fun s => profileUnload s 5) rfl
    (by rw [effect]; rfl) (by rw [effect]; rfl)
  cases hu.symm.trans hv
  have still : u.get (Reg.PHY_PROF_CTRL_valid 5) = channelLeaving.get (Reg.PHY_PROF_CTRL_valid 5) :=
    (stays.get _ (by decide)).trans (State.get_set_ne _ _ (by decide))
  have cleared : u.get (Reg.PHY_PROF_CTRL_valid 5) = 0 := by
    rw [gone.get _ (by decide), effect, State.get_set_ne _ _ (by decide), State.get_set_self]
    rfl
  rw [channelLeaving_loaded, cleared] at still
  cases still

end Sys2Proof.Machine

namespace Sys2Proof.Machine

/-! ### What O34 leaves out: a beacon instant between the last command and ASYNC_START -/

/-- A frame for an 868.3 MHz channel, which the Escapement has handed to chain 0. -/
def handedFrame : EscFrame where
  ref := 5
  port := 0
  svc := 2
  ctx := some 4
  air := some {
    parm := {
      profile := 0, family := 0, band := 0, fcs2 := true, occHz := 200000, maxPsdu := 127, n := 10, airUs := 900
      shrUs := 50, ackUs := 60 }
    psdu := [0x29, 0xDC, 7], ar := true, ver := 1, dsn := some 7, dst := (3, 99), hop := some 4 }
  pool := 1
  bufs := 1

/-- The machine after reset, but with the Balance LOCKED, AMC enabled, and plan entry 0 a channel at 868.3 MHz that ASYNC frames may
use, for which `handedFrame` waits. A neighbour reserves the channel and so does this site, but firmware has cleared the site's
reservation in the middle of the cycle: the write waits for the beacon instant, halfway through cycle 50 at LTB 10 ms, which is
1 µs away (R9, R195, R202). -/
def reservationEnding : State :=
  { (State.reset.set Reg.BAL_STATUS_state 2 |>.set Reg.AMC_CTRL_enable 1 |>.set Reg.AMC_EB_CFG_eb_angle 32768 |>.set
      (Reg.AMC_PLAN_FREQ_freq_khz 0) 868300 |>.set (Reg.AMC_PLAN_FREQ_valid 0) 1 |>.set (Reg.AMC_PLAN_CFG_async_ok 0) 1 |>.set
      (Reg.AMC_RSV_FREQ_freq_khz 0) 868300) with
    ltb := 9999000
    inForce := [((Reg.AMC_RSV_FREQ_valid 0).key, 1)]
    bal := { cycles := [⟨50, 0, 20000000⟩] }
    amc := {
      ebSince := some (50 * 65536 + 16384)
      handed := [(0, (handedFrame, 868300))]
      nb := [(0, { state := 1, rsv := [868300 + 8 * 2 ^ 23] })] } }

theorem reservationEnding_settled : reservationEnding.settled := ⟨rfl, rfl, rfl⟩

/-- Before the beacon instant the site's own reservation is in force and the channel passes the checks of R187; 1 µs after it the
neighbour's reservation is a foreign one. -/
theorem reservationEnding_check : planCheck reservationEnding 0 868300 900 = 0 ∧
    planCheck (reservationEnding.begin 10001000) 0 868300 900 = 3 := by
  decide +kernel

/-- Whether a CSMA-CA run is open on a chain is not a matter of the commands that wait. -/
theorem runOf_lit (s : State) (l : List Instr) (c : Nat) : runOf { s with pending := l } c = runOf s c := rfl

/-- Refutes O34: in `reservationEnding` the channel passes the checks of R187 at the LTB of the state, but at the instant of
ASYNC_START the beacon instant has passed and the channel is reserved by the neighbour alone (R202), so the frame ends with
amc_status 3 and no run begins; the clause makes the checks before time moves on to the command. -/
theorem not_csmaCompletes : ¬ Obligations.CsmaCompletes := by
  intro h
  obtain ⟨begins, -⟩ := h 10001000 0 _ handedFrame reservationEnding reservationEnding_settled rfl
  obtain ⟨u, hu, -, -, run, -⟩ := begins 868300 _ (by decide) rfl rfl reservationEnding_check.1 rfl
  have next : exec (.asyncStart 10001000 0) reservationEnding =
    .next { (asyncStart (reservationEnding.begin 10001000) 0).finish with pending := [] } := rfl
  have refused : runOf (asyncStart (reservationEnding.begin 10001000) 0).finish (0 : Fin 4) = none := by decide +kernel
  rw [Host.Outcome.next.inj (hu.symm.trans next), runOf_lit, refused] at run
  cases run

end Sys2Proof.Machine

namespace Sys2Proof.Machine

/-! ### What leaves the requests of the acknowledgement arbiter as they are

Between two rounds a request waits, whatever else happens: a frame that ends, a transmission whose issuer is told (R89), a fault
that is classified (R433). Most of these operations leave the whole state of the air MAC; the others leave its `reqs`. -/

theorem foldl_amc {α : Type} {f : State → α → State} (h : ∀ v x, (f v x).amc = v.amc) (l : List α) (s : State) :
    (l.foldl f s).amc = s.amc := by
  induction l generalizing s with
  | nil => rfl
  | cons a r ih => exact (ih _).trans (h s a)

theorem foldl_reqs {α : Type} {f : State → α → State} (h : ∀ v x, (f v x).amc.reqs = v.amc.reqs) (l : List α) (s : State) :
    (l.foldl f s).amc.reqs = s.amc.reqs := by
  induction l generalizing s with
  | nil => rfl
  | cons a r ih => exact (ih _).trans (h s a)

@[simp] theorem amc_ite (p : Prop) [Decidable p] (a b : State) : (if p then a else b).amc = if p then a.amc else b.amc :=
  apply_ite ..

@[simp] theorem reqs_ite (p : Prop) [Decidable p] (a b : Amc) : (if p then a else b).reqs = if p then a.reqs else b.reqs :=
  apply_ite ..

/-! Counting, free values, events and rings -/

@[simp] theorem State.drawFree_amc (s : State) (n : Nat) : (s.drawFree n).2.amc = s.amc := rfl

@[simp] theorem State.drawRandom_amc (s : State) (n : Nat) : (s.drawRandom n).2.amc = s.amc := rfl

@[simp] theorem State.bumpQuiet_amc (s : State) (c n : Nat) : (s.bumpQuiet c n).amc = s.amc := rfl

@[simp] theorem raiseFirst_amc (s : State) (ev a b c : Nat) : (raiseFirst s ev a b c).amc = s.amc := by simp [raiseFirst]

@[simp] theorem ringCause_amc (s : State) (r : Nat) : (ringCause s r).amc = s.amc := by
  simp [ringCause, (vecCause_kept _ _).amc]

@[simp] theorem State.memOut_amc (s : State) (owner addr : Nat) (l : List Byte) : (s.memOut owner addr l).amc = s.amc := by
  simp [State.memOut]

@[simp] theorem tsfPush_amc (s : State) (i : Nat) (r : TsReport) : (tsfPush s i r).2.amc = s.amc := by
  unfold tsfPush
  dsimp only
  split <;> simp

@[simp] theorem tsfTake_amc (s : State) (i ref : Nat) : (tsfTake s i ref).2.amc = s.amc := rfl

@[simp] theorem completeLater_amc (s : State) (host : Option (Nat × Nat)) (c : Completion) : (completeLater s host c).amc = s.amc := by
  unfold completeLater
  split <;> simp

@[simp] theorem complete_amc (s : State) (host : Option (Nat × Nat)) (c : Completion) : (complete s host c).amc = s.amc := by
  unfold complete
  split
  · rfl
  · dsimp only
    split
    · simp
    · split
      · simp
      · split <;> simp

/-! The Context Store, the pools and the Chronograph's marks -/

@[simp] theorem State.cset_amc (s : State) (k : Nat) (f : CFld) (v : Nat) : (s.cset k f v).amc = s.amc := rfl

@[simp] theorem State.csset_amc (s : State) (k : Nat) (f : CFld) (i : Int) : (s.csset k f i).amc = s.amc := rfl

@[simp] theorem poolGive_amc (s : State) (p n : Nat) : (poolGive s p n).amc = s.amc := by simp [poolGive]

@[simp] theorem noCounter_amc (s : State) (k : Nat) : (noCounter s k).amc = s.amc := by simp [noCounter]

@[simp] theorem histFrame_amc (s : State) (u : Nat) (f : TagStages) : (histFrame s u f).amc = s.amc := by
  unfold histFrame
  split <;> simp [histBin]

@[simp] theorem markStage_amc (s : State) (mark : Option Nat) (k at_ : Nat) : (markStage s mark k at_).amc = s.amc := by
  unfold markStage
  split
  · rfl
  · split <;> rfl

@[simp] theorem trecPush_amc (s : State) (r : List Nat) : (trecPush s r).amc = s.amc := by simp [trecPush]

@[simp] theorem markEnd_amc (s : State) (mark : Option Nat) (dropped : Bool) : (markEnd s mark dropped).amc = s.amc := by
  unfold markEnd
  split
  · rfl
  · split
    · rfl
    · simp [foldl_amc]

/-! Lanes and occurrences -/

@[simp] theorem occRoll_amc (s : State) (n : Nat) : (occRoll s n).amc = s.amc := by simp [occRoll]

@[simp] theorem occBreak_amc (s : State) (n : Nat) : (occBreak s n).amc = s.amc := by simp [occBreak]

@[simp] theorem rxAtStart_amc (s : State) (k : Nat) (x : RxOpen) : (rxAtStart s k x).amc = s.amc := by simp [rxAtStart]

@[simp] theorem txReached_amc (s : State) : (txReached s).amc = s.amc := rfl

@[simp] theorem rxReached_amc (s : State) : (rxReached s).amc = s.amc := by simp [rxReached, foldl_amc]

@[simp] theorem nbReached_reqs (s : State) : (nbReached s).amc.reqs = s.amc.reqs := by
  unfold nbReached
  split <;> simp

@[simp] theorem laneStop_reqs (s : State) (n : Nat) : (laneStop s n).amc.reqs = s.amc.reqs := by simp [laneStop, setLaneState]

@[simp] theorem laneChannelStop_reqs (s : State) (band freq widthHz : Nat) :
    (laneChannelStop s band freq widthHz).amc.reqs = s.amc.reqs := by
  refine foldl_reqs (fun v e => ?_) _ _
  dsimp only
  split
  · split
    · split <;> simp
    · rfl
  · rfl

/-! Buckets, queues and credits of the Escapement -/

@[simp] theorem showTok_amc (s : State) (f : Fld) (tok : Int) : (showTok s f tok).amc = s.amc := by simp [showTok]

@[simp] theorem setBkt_amc (s : State) (k : Nat) (b : Bucket) : (setBkt s k b).amc = s.amc := by simp [setBkt]

@[simp] theorem bktAccess_amc (s : State) (k : Nat) : (bktAccess s k).amc = s.amc := by simp [bktAccess]

@[simp] theorem bktCharge_amc (s : State) (k len : Nat) : (bktCharge s k len).amc = s.amc := by simp [bktCharge]

@[simp] theorem subAccess_amc (s : State) (k : Nat) : (subAccess s k).amc = s.amc := by simp [subAccess]

@[simp] theorem subCharge_amc (s : State) (k len : Nat) : (subCharge s k len).amc = s.amc := by simp [subCharge]

@[simp] theorem bucketsPass_amc (s : State) (p : Nat) (f : EscFrame) : (bucketsPass s p f).2.amc = s.amc := by
  unfold bucketsPass
  dsimp only
  split <;> simp

@[simp] theorem chargeAll_amc (s : State) (p len : Nat) (f : EscFrame) : (chargeAll s p len f).amc = s.amc := by
  unfold chargeAll
  dsimp only
  split <;> simp

@[simp] theorem hopsMoved_amc (s0 s : State) (l : List EscFrame) : (hopsMoved s0 s l).amc = s.amc := rfl

@[simp] theorem setSubQueue_amc (s : State) (k : Nat) (q : List EscFrame) : (setSubQueue s k q).amc = s.amc := by
  unfold setSubQueue
  dsimp only
  split <;> simp

@[simp] theorem stallCount_amc (s : State) : (stallCount s).amc = s.amc := by
  unfold stallCount
  split <;> simp

@[simp] theorem creditSettle_amc (s : State) : (creditSettle s).amc = s.amc := by simp [creditSettle, creditStallEnd]

@[simp] theorem setSvcQueue_amc (s : State) (n : Nat) (q : List EscFrame) : (setSvcQueue s n q).amc = s.amc := by
  simp [setSvcQueue]

@[simp] theorem removeFrame_amc (s : State) (f : EscFrame) : (removeFrame s f).amc = s.amc := by
  unfold removeFrame
  split <;> simp

@[simp] theorem returnFrame_amc (s : State) (f : EscFrame) : (returnFrame s f).amc = s.amc := by
  unfold returnFrame
  dsimp only
  split <;> simp

@[simp] theorem holdFrame_amc (s : State) (f : EscFrame) : (holdFrame s f).amc = s.amc := by simp [holdFrame]

/-! The end of a frame, and its examination -/

@[simp] theorem airReport_amc (s : State) (f : EscFrame) : (airReport s f).2.amc = s.amc := by
  unfold airReport
  split
  · split <;> simp
  · rfl

@[simp] theorem escEnd_amc (s : State) (f : EscFrame) (dropped : Bool) (c : Completion) : (escEnd s f dropped c).amc = s.amc := by
  unfold escEnd
  cases f.first <;> simp

@[simp] theorem escDrop_amc (s : State) (f : EscFrame) (status : Nat) : (escDrop s f status).amc = s.amc := by
  unfold escDrop
  cases escCounter status <;> simp

@[simp] theorem badDrop_amc (s : State) (f : EscFrame) (k : Nat) : (badDrop s f k).amc = s.amc := by simp [badDrop]

@[simp] theorem examFirst_amc (s : State) (p : Nat) (f : EscFrame) : (examFirst s p f).2.amc = s.amc := by
  unfold examFirst
  split
  · simp
  · split
    · simp
    · extract_lets suspended
      split <;> simp

@[simp] theorem examHeld_amc (s : State) (p : Nat) (f : EscFrame) : (examHeld s p f).2.amc = s.amc := examFirst_amc s p f

@[simp] theorem ntUpset_amc (s : State) (is upset : List Nat) : (ntUpset s is upset).amc = s.amc :=
  foldl_amc (fun v i => by simp [fwdParity]) _ _

@[simp] theorem laneUpset_amc (s : State) (f : EscFrame) (upset : List Nat) : (laneUpset s f upset).amc = s.amc := by
  unfold laneUpset
  split <;> simp

/-! The Fusee -/

@[simp] theorem fusUpdate_amc (s : State) (r : Nat) (f : Fusee) : (fusUpdate s r f).amc = s.amc := by simp [fusUpdate]

@[simp] theorem fusBoundary_amc (s : State) (band freq occHz : Nat) : (fusBoundary s band freq occHz).amc = s.amc :=
  foldl_amc (fun v r => by simp) _ _

@[simp] theorem fuseeTest_amc (s : State) (band freq occHz a : Nat) : (fuseeTest s band freq occHz a).2.amc = s.amc := by
  unfold fuseeTest
  dsimp only
  split <;> simp

@[simp] theorem fusHoldFor_amc (s : State) (band freq occHz a ref : Nat) : (fusHoldFor s band freq occHz a ref).amc = s.amc :=
  foldl_amc (fun v r => by simp) _ _

@[simp] theorem fusRelease_amc (s : State) (ref : Nat) : (fusRelease s ref).amc = s.amc :=
  foldl_amc (fun v e => by simp) _ _

@[simp] theorem fusRadiated_amc (s : State) (band freq occHz a : Nat) : (fusRadiated s band freq occHz a).amc = s.amc :=
  foldl_amc (fun v r => by simp) _ _

@[simp] theorem fusShow_amc (s : State) (band freq occHz : Nat) : (fusShow s band freq occHz).amc = s.amc :=
  foldl_amc (fun v r => by simp) _ _

/-! The commands of a chain -/

@[simp] theorem endCmd_amc (s : State) (n : Nat) (cmd : TxCmd) (status : Nat) (first : Option Nat) (airUs angle : Nat)
    (upset : List Nat) : (endCmd s n cmd status first airUs angle upset).amc = s.amc := by
  unfold endCmd
  split <;> simp

@[simp] theorem evictNow_amc (s : State) (n slot : Nat) : (evictNow s n slot).amc = s.amc := by
  simp [evictNow, sicClear, cacheCount]

@[simp] theorem evictWaiting_amc (s : State) (n : Nat) : (evictWaiting s n).amc = s.amc := by
  unfold evictWaiting
  split <;> simp

@[simp] theorem place_amc (n : Nat) (l : List TxCmd) (s : State) (c : Chain) : (promote.place n s c l).1.amc = s.amc := by
  induction l generalizing s c with
  | nil => rfl
  | cons w r ih =>
    unfold promote.place
    split
    · simp [ih]
    · split
      · exact ih ..
      · split
        · exact ih ..
        · rfl

@[simp] theorem promote_amc (s : State) (n : Nat) : (promote s n).amc = s.amc := by simp [promote]

@[simp] theorem txIssue_amc (s : State) (n : Nat) (cmd : TxCmd) : (txIssue s n cmd).amc = s.amc := by
  unfold txIssue
  extract_lets c
  split
  · simp
  · split
    · simp
    · clear_value c
      cases c.active with
      | none => rfl
      | some a => cases c.next <;> cases cmd.start <;> simp

@[simp] theorem commandWithdraw_amc (s : State) (n id : Nat) : (commandWithdraw s n id).amc = s.amc := by
  unfold commandWithdraw
  dsimp only
  split
  · split
    · simp
    · split
      · split
        · simp
        · split <;> simp
      · rfl
  · rfl

@[simp] theorem setAside_amc (s : State) (p : Pick) : (setAside s p).amc = s.amc := foldl_amc (fun v c => by simp) _ _

/-! The air MAC: dwell totals, references, awaited acknowledgements and CSMA-CA runs -/

@[simp] theorem dwellAdd_reqs (s : State) (band freq airUs : Nat) : (dwellAdd s band freq airUs).amc.reqs = s.amc.reqs := by
  refine foldl_reqs (fun v k => ?_) _ _
  dsimp only
  split <;> simp

@[simp] theorem newRef_reqs (s : State) : (newRef s).2.amc.reqs = s.amc.reqs := rfl

@[simp] theorem awaitAck_reqs (s : State) (ref : Nat) (issuer : Issuer) (chain first airUs freq : Nat) (a : AirOut) :
    (awaitAck s ref issuer chain first airUs freq a).amc.reqs = s.amc.reqs := rfl

@[simp] theorem setRun_reqs (s : State) (c : Nat) (r : AsyncRun) : (setRun s c r).amc.reqs = s.amc.reqs := rfl

@[simp] theorem airEnd_amc (s : State) (f : EscFrame) (chain : Nat) (c : Completion) (ok : Bool) :
    (airEnd s f chain c ok).amc = s.amc := by
  unfold airEnd
  dsimp only
  split <;> simp

@[simp] theorem runEnd_reqs (s : State) (c : Nat) (r : AsyncRun) (amc tx : Nat) : (runEnd s c r amc tx).amc.reqs = s.amc.reqs := by
  simp [runEnd]

@[simp] theorem startBackoff_reqs (s : State) (c : Nat) (r : AsyncRun) : (startBackoff s c r).amc.reqs = s.amc.reqs := by
  unfold startBackoff
  dsimp only
  split <;> simp

@[simp] theorem backOff_reqs (s : State) (c : Nat) (r : AsyncRun) : (backOff s c r).amc.reqs = s.amc.reqs := by
  unfold backOff
  split <;> simp

/-- The holdoff of a beacon answer is no part of the requests (R197). -/
theorem runTxEnd_reqs (s : State) (e : TxEnd) : (runTxEnd s e).amc.reqs = s.amc.reqs := by
  unfold runTxEnd
  split
  · rfl
  · split
    · rfl
    · extract_lets f r v
      have held : v.amc.reqs = s.amc.reqs := by
        simp only [v]
        split <;> rfl
      clear_value v
      split
      next w _ _ a _ _ =>
        have counted : w.amc.reqs = s.amc.reqs := by simp [w, held]
        split <;> simp [counted]
      · simp [held]
      · simp [held]
      · simp [held]

/-! The ends of transmissions (R89) -/

theorem radiated_reqs (s : State) (e : TxEnd) : (radiated s e).amc.reqs = s.amc.reqs := by
  unfold radiated
  split <;> simp

@[simp] theorem slotFailed_amc (s : State) (c : Nat) (f : EscFrame) (tx : Nat) : (slotFailed s c f tx).amc = s.amc := by
  simp [slotFailed]

theorem slotTxEnd_reqs (s : State) (e : TxEnd) : (slotTxEnd s e).amc.reqs = s.amc.reqs := by
  unfold slotTxEnd
  split
  · rfl
  · dsimp only
    split
    · split <;> simp
    · split <;> simp

theorem testTxEnd_reqs (s : State) (e : TxEnd) : (testTxEnd s e).amc.reqs = s.amc.reqs := by
  unfold testTxEnd
  split <;> simp

@[simp] theorem slpMoved_amc (s : State) (k : Nat) : (slpMoved s k).amc = s.amc := rfl

@[simp] theorem slpOos_amc (s : State) (k reason : Nat) : (slpOos s k reason).amc = s.amc := by simp [slpOos, slpUnreach]

@[simp] theorem slpFailed_amc (s : State) (k : Nat) (t : Attempt) (f : EscFrame) (tx : Nat) : (slpFailed s k t f tx).amc = s.amc := by
  simp [slpFailed, slpEndTry]

@[simp] theorem slpDone_amc (s : State) (k : Nat) (f : EscFrame) : (slpDone s k f).amc = s.amc := by simp [slpDone, slpEndTry]

@[simp] theorem slpHead_amc (s : State) (k n : Nat) : (slpHead s k n).2.amc = s.amc := by
  induction n generalizing s with
  | zero => rfl
  | succ n ih =>
    unfold slpHead
    split
    · rfl
    · next f _ =>
      have looked := examHeld_amc s (agePort f) f
      generalize examHeld s (agePort f) f = r at looked
      obtain ⟨keep, v⟩ := r
      cases keep
      · show (if _ then slpHead v k n else (none, v)).2.amc = s.amc
        split
        · exact (ih v).trans looked
        · exact looked
      · exact looked

/-- The reference of a command that SLP releases is the one change of it. -/
@[simp] theorem slpRelease_reqs (s : State) (k : Nat) (f : EscFrame) (a : AirOut) (d airUs : Nat) (phy : PhyParm)
    (lead : List (List Byte)) (fallback plain : Bool) :
    (slpRelease s k f a d airUs phy lead fallback plain).2.amc.reqs = s.amc.reqs := by
  unfold slpRelease
  split
  · rfl
  · next freq _ =>
    split
    · rfl
    · next p _ =>
      have admitted : (if s.on Reg.ESC_CTRL_enable then bucketsPass s p.chain f else (false, s)).2.amc.reqs = s.amc.reqs := by
        split <;> simp
      generalize (if s.on Reg.ESC_CTRL_enable then bucketsPass s p.chain f else (false, s)) = r at admitted
      obtain ⟨ok, v⟩ := r
      have tested : (if ok then fuseeTest v a.parm.band freq a.parm.occHz airUs else (false, v)).2.amc.reqs = s.amc.reqs := by
        rw [← admitted]
        split <;> simp
      dsimp only
      generalize (if ok then fuseeTest v a.parm.band freq a.parm.occHz airUs else (false, v)) = r at tested
      obtain ⟨ok, w⟩ := r
      cases ok
      · exact tested
      · simp [← tested]

@[simp] theorem pendSend_reqs (s : State) (k t : Nat) (upset : List Nat) : (pendSend s k t upset).amc.reqs = s.amc.reqs := by
  unfold pendSend
  split
  · rfl
  · split
    · rfl
    · have looked := slpHead_amc s k 64
      generalize slpHead s k 64 = r at looked
      obtain ⟨head, v⟩ := r
      replace looked : v.amc = s.amc := looked
      cases head with
      | none => simp [looked]
      | some f =>
        dsimp only
        split
        · simp [looked]
        · next a _ =>
          split
          · simp [looked]
          · have sent := slpRelease_reqs (laneUpset v f upset) k f a (t + 1000000) a.parm.airUs a.parm.phy [] false true
            generalize slpRelease (laneUpset v f upset) k f a (t + 1000000) a.parm.airUs a.parm.phy [] false true = r at sent
            obtain ⟨ok, w⟩ := r
            replace sent : w.amc.reqs = s.amc.reqs := by simpa [looked] using sent
            cases ok <;> simp [sent]

@[simp] theorem pendListen_reqs (s : State) (k t : Nat) (upset : List Nat) : (pendListen s k t upset).amc.reqs = s.amc.reqs := by
  simp [pendListen]

theorem slpTxEnd_reqs (s : State) (e : TxEnd) : (slpTxEnd s e).amc.reqs = s.amc.reqs := by
  unfold slpTxEnd
  split
  · rfl
  · dsimp only
    split
    · rfl
    · split
      · split
        · simp
        · split <;> simp
      · simp

theorem ackTxEnd_reqs (s : State) (e : TxEnd) : (ackTxEnd s e).amc.reqs = s.amc.reqs := by
  unfold ackTxEnd
  split
  · rfl
  · dsimp only
    split
    · simp
    · split <;> simp

theorem txRoute_reqs (s : State) (e : TxEnd) : (txRoute s e).amc.reqs = s.amc.reqs := by
  have told : ∀ v : State, v.amc.reqs = s.amc.reqs →
      (if e.first.isNone then v else fusShow v (chainBand e.chain) e.cmd.chan e.cmd.occHz).amc.reqs = s.amc.reqs := fun v h => by
    split <;> simp [h]
  refine told _ ?_
  rw [← radiated_reqs s e]
  cases e.cmd.issuer with
  | ackArbiter => exact ackTxEnd_reqs ..
  | beacon => dsimp only; split <;> simp
  | slot => exact slotTxEnd_reqs ..
  | slp => exact slpTxEnd_reqs ..
  | pend => exact slpTxEnd_reqs ..
  | async => exact runTxEnd_reqs ..
  | test => exact testTxEnd_reqs ..

theorem txDrain_reqs (n : Nat) (s : State) : (txDrain n s).amc.reqs = s.amc.reqs := by
  induction n generalizing s with
  | zero => rfl
  | succ n ih =>
    unfold txDrain
    split
    · rfl
    · exact (ih _).trans (txRoute_reqs ..)

/-! The fault classifier (R433, R434) -/

@[simp] theorem channelRetire_reqs (s : State) (k : Nat) : (channelRetire s k).amc.reqs = s.amc.reqs := by simp [channelRetire]

@[simp] theorem declare_amc (s : State) (cls obj idx : Nat) : (declare s cls obj idx).amc = s.amc := by simp [declare]

@[simp] theorem autoRetire_reqs (s : State) (lane band freq : Nat) : (autoRetire s lane band freq).amc.reqs = s.amc.reqs := by
  unfold autoRetire
  split
  · rfl
  · split <;> simp

theorem permanentFault_reqs (s : State) (e : FaultEv) (cls obj idx : Nat) :
    (permanentFault s e cls obj idx).amc.reqs = s.amc.reqs := by
  unfold permanentFault
  split <;> simp

theorem classifyFault_reqs (s : State) (e : FaultEv) : (classifyFault s e).amc.reqs = s.amc.reqs := by
  unfold classifyFault
  split
  · simp
  · extract_lets key h h'
    split
    · exact (permanentFault_reqs _ e _ _ _ : (permanentFault (s.onPwr _) e _ _ _).amc.reqs = _)
    · simp

theorem classifyInbox_reqs (n : Nat) (s : State) : (classifyInbox n s).amc.reqs = s.amc.reqs := by
  induction n generalizing s with
  | zero => rfl
  | succ n ih =>
    unfold classifyInbox
    split
    · rfl
    · exact (ih _).trans (classifyFault_reqs ..)

/-- What follows every effect in the same instant leaves the requests. -/
theorem finish_reqs (s : State) : s.finish.amc.reqs = s.amc.reqs := by
  unfold State.finish
  rw [((chrRises_kept _).trans (chrSettle_kept _)).amc, classifyInbox_reqs, txDrain_reqs]

/-! A round of the acknowledgement arbiter (R178) -/

theorem ackRefuse_reqs (s : State) (q : AckReq) (why : NoChain) : (ackRefuse s q why).amc.reqs = s.amc.reqs := by
  simp [ackRefuse]

theorem ackGrant_reqs (s : State) (q : AckReq) (p : Pick) (psdu : List Byte) (d airUs : Nat) (pend : Bool) :
    (ackGrant s q p psdu d airUs pend).amc.reqs = s.amc.reqs := by
  simp [ackGrant]

theorem ackDecide_reqs (s : State) (q : AckReq) : (ackDecide s q).amc.reqs = s.amc.reqs := by
  unfold ackDecide
  split
  · rfl
  · extract_lets key recent again v
    have noted : v.amc.reqs = s.amc.reqs := rfl
    clear_value v
    split
    · exact (ackRefuse_reqs ..).trans noted
    · split
      · exact (ackRefuse_reqs ..).trans noted
      · exact (ackGrant_reqs ..).trans noted

/-- The requests of the rounds that are over are decided and gone. -/
theorem ackArbiterRound_reqs (s : State) :
    (ackArbiterRound s).amc.reqs = s.amc.reqs.filter (fun q => !roundDue s q) :=
  foldl_reqs ackDecide_reqs _ _

theorem ackArbiterRound_completes (t : Nat) {s : State} (h : s.settled) :
    completes (.ackArbiterRound t) s (fun u => u.amc.reqs = s.amc.reqs.filter (fun x => !roundDue (s.now t) x)) := by
  have next : exec (.ackArbiterRound t) s =
      .next { (ackArbiterRound (s.begin t)).finish with pending := s.pending } := by
    show act t s ackArbiterRound = _
    rw [act, h.1]
    rfl
  exact ⟨_, next, (finish_reqs _).trans (ackArbiterRound_reqs _)⟩

end Sys2Proof.Machine

namespace Sys2Proof.Machine

/-! ### The acknowledgement arbiter (R178-R183) -/

section AckArbiter

variable {t : Nat} {s v u : State} {q : AckReq} {m : Mhr} {p : List Byte} {c f a : Nat}

/-! The choice of a chain (R179, R180) -/

/-- A chain chosen is enabled, and the first symbol is no less than 122 µs away. -/
theorem pickChain_some {cs : List Nat} {band freq d airUs : Nat} {k : Pick} (h : pickChain s cs band freq d airUs = .inr k) :
    s.get (Reg.TXC_CTRL_enable k.chain) ≠ 0 ∧ s.ltb + 122000 ≤ d := by
  unfold pickChain at h
  extract_lets ts served picks at h
  split at h
  next => cases h
  next early =>
    refine ⟨?_, not_lt.1 early⟩
    split at h
    next found =>
      cases h
      obtain ⟨r, -, hr⟩ := List.exists_of_findSome?_eq_some found
      obtain ⟨n, hn, pick⟩ := List.mem_filterMap.1 (List.mem_of_find?_eq_some hr)
      have serves := (List.mem_filter.1 hn).2
      split at pick
      next =>
        split at pick
        next =>
          cases pick
          unfold chainServes at serves
          split at serves
          next on => exact State.on_iff.1 on
          next => cases serves
        next => cases pick
      next => cases pick
    next => split at h <;> (try split at h) <;> (try split at h) <;> cases h

/-- Without an enabled chain, and in time, the refusal is NO_CHANNEL (R181). -/
theorem pickChain_noChannel {cs : List Nat} {band freq d airUs : Nat} (off : ∀ n ∈ cs, s.get (Reg.TXC_CTRL_enable n) = 0)
    (early : s.ltb + 122000 ≤ d) : pickChain s cs band freq d airUs = .inl .noChannel := by
  have served : cs.filter (fun n => (chainServes s n freq).isSome) = [] :=
    List.filter_eq_nil_iff.2 (fun n hn => by simp [chainServes, State.on, off n hn])
  unfold pickChain
  rw [served]
  dsimp only [List.filterMap_nil]
  rw [if_neg (not_lt.2 early)]
  rfl

/-- A command with its first symbol 120 µs away or more becomes the active one of an enabled chain that has none (R88). -/
theorem txIssue_free {cmd : TxCmd} {n : Nat} (on : s.get (Reg.TXC_CTRL_enable n) ≠ 0) (early : tooLate s cmd = false)
    (free : (s.chainOf n).active = none) :
    txIssue s n cmd = s.setChain n { s.chainOf n with active := some cmd, started := false } := by
  unfold txIssue
  rw [if_neg (by simp [State.on, on]), if_neg (by simp [early]), free]

/-! One request (R178, R181) -/

/-- The requests of the rounds that are over are gone, and the frame of `q` is remembered for DUP_REQ (R178). -/
def ackNoted (s : State) (q : AckReq) (m : Mhr) : State := s.onAmc (fun x => { x with
  reqs := x.reqs.filter (fun r => !roundDue s r)
  recent := x.recent.filter (fun e => decide (q.at_ < e.2.2 + 1000000)) ++ [((reqKey m).1, (reqKey m).2, q.at_)] })

/-- A round of one request, whose frame is not one that was acknowledged within 1 ms: it is refused or granted as a chain is found
for its acknowledgement. -/
theorem ackArbiterRound_one (round : s.amc.reqs.filter (roundDue s) = [q]) (fresh : (s.amc.recent.any fun e =>
    e.1 == (reqKey m).1 && e.2.1 == (reqKey m).2 && decide (q.at_ < e.2.2 + 1000000)) = false)
    (on : s.get Reg.AMC_CTRL_enable ≠ 0) (parsed : parseMhr q.rcd.psdu = some m)
    (ack : p = buildAck s q.rcd m (hasPending s q.ctx && !q.both) q.both) (air : a = airtimeOf (ackPhy s q.rcd) p.length) :
    ackArbiterRound s = (pickChain (ackNoted s q m) (bandChains q.rcd.band) q.rcd.band q.rcd.freq q.d a).elim
      (ackRefuse (ackNoted s q m) q)
      (fun k => ackGrant (ackNoted s q m) q k p q.d a (hasPending s q.ctx && !q.both)) := by
  have first : (s.amc.recent.filter (fun e => decide (q.at_ < e.2.2 + 1000000))).any
      (fun e => e.1 == (reqKey m).1 && e.2.1 == (reqKey m).2) = false := by
    rw [List.any_filter, ← fresh]
    exact congrArg s.amc.recent.any (funext fun e => Bool.and_comm ..)
  generalize found : pickChain (ackNoted s q m) (bandChains q.rcd.band) q.rcd.band q.rcd.freq q.d a = k
  subst ack air
  unfold ackArbiterRound
  rw [round]
  show ackDecide _ q = _
  unfold ackDecide
  rw [parsed]
  simp only [State.onAmc_amc, first, Bool.and_false, Bool.false_or, Bool.false_eq_true, if_false, State.onAmc_on]
  rw [if_neg (by simp [State.on, on])]
  split
  next why none =>
    obtain rfl : k = .inl why := found.symm.trans none
    rfl
  next p some =>
    obtain rfl : k = .inr p := found.symm.trans some
    rfl

/-! A refusal (R181) -/

/-- The flight of tag `k`, where there is one, carries noack. -/
def noackMarked (l : Tab Flight) (k : Nat) : Tab Flight :=
  match tabGet l k with
  | some g => tabPut l k { g with rx := { g.rx with noack := true } }
  | none => l

theorem tabGet_noackMarked (l : Tab Flight) (k : Nat) : (tabGet (noackMarked l k) k).all (fun g => g.rx.noack) = true := by
  unfold noackMarked
  split
  next => simp
  next none => simp [none]

theorem ackRefuse_eq (s : State) (q : AckReq) (why : NoChain) : ackRefuse s q why =
    ((s.bump (refusalCounter why)).onAmc (fun x => { x with refusals := x.refusals + 1 })).onFwd (fun x => { x with
      flights := noackMarked x.flights q.tag }) := rfl

/-- A round of one new request, with every chain of its band off, refuses it with NO_CHANNEL. -/
theorem ackArbiterRound_noChannel (h : s.settled) (round : s.amc.reqs.filter (roundDue (s.now t)) = [q])
    (fresh : (s.amc.recent.any fun e =>
      e.1 == (reqKey m).1 && e.2.1 == (reqKey m).2 && decide (q.at_ < e.2.2 + 1000000)) = false)
    (on : s.get Reg.AMC_CTRL_enable ≠ 0) (parsed : parseMhr q.rcd.psdu = some m)
    (off : ∀ n ∈ bandChains q.rcd.band, s.get (Reg.TXC_CTRL_enable n) = 0) (early : max s.ltb t + 122000 ≤ q.d) :
    changes (.ackArbiterRound t) s [] [Reg.AMC_CNT_ACK_NOCHAN] [.amc, .fwd] (fun u =>
      u.count Reg.AMC_CNT_ACK_NOCHAN = (s.count Reg.AMC_CNT_ACK_NOCHAN + 1) % 2 ^ 32 ∧
      u.amc.reqs = s.amc.reqs.filter (fun x => !roundDue (s.now t) x) ∧ u.amc.refusals = s.amc.refusals + 1 ∧
      (flightOf u q.tag).all (fun g => g.rx.noack) = true) := by
  have effect : ackArbiterRound (s.begin t) = ackRefuse (ackNoted (s.begin t) q m) q .noChannel := by
    rw [ackArbiterRound_one (s := s.begin t) round fresh on parsed rfl rfl,
      pickChain_noChannel (s := ackNoted (s.begin t) q m) off early]
    rfl
  rw [ackRefuse_eq] at effect
  refine changes_of (f := ackArbiterRound) rfl effect h
    (.onFwd (.onAmc (.bump (.onAmc (.start s t)) (.inl (by decide))))) (fun u kept => ⟨?_, ?_, ?_, ?_⟩)
  · rw [kept.count _ (by decide)]
    exact (State.count_bumpBy ..).trans (if_pos rfl)
  · rw [kept.amc]
    simp [ackNoted]
    rfl
  · rw [kept.amc]
    simp [ackNoted]
  · unfold flightOf
    rw [kept.fwd]
    exact tabGet_noackMarked ..

/-! A grant (R180, R183) -/

/-- A grant is counted, and that of a slot-bound request again (R180). -/
def grantCounted (s : State) (slot : Bool) : State :=
  if slot then (s.bump Reg.AMC_CNT_ACK_GRANT).bump Reg.AMC_CNT_ACK_SLOT_GRANT else s.bump Reg.AMC_CNT_ACK_GRANT

/-- The command of an acknowledgement `p`, for the channel `f` of a chain's cache (R180, R183). -/
def ackCommand (s : State) (ref : Nat) (q : AckReq) (f : Nat) (p : List Byte) (a : Nat) : TxCmd where
  id := ref
  issuer := .ackArbiter
  cls := .ack
  freq := f
  power := none
  start := some q.d
  airUs := a
  profile := q.rcd.profile
  occHz := occupiedHz s q.rcd.profile
  psdu := p
  ref := ref
  phy := ackPhy s q.rcd
  chan := q.rcd.freq

theorem grantCounted_frame {fs : List Fld} {cs : List Nat} {ps : List Part} (h : s.elsewhere v fs cs ps) (slot : Bool)
    (hg : Reg.AMC_CNT_ACK_GRANT ∈ cs) (hs : Reg.AMC_CNT_ACK_SLOT_GRANT ∈ cs) : s.elsewhere (grantCounted v slot) fs cs ps :=
  elsewhere_ite (fun _ => .bump (.bump h (.inl hg)) (.inl hs)) (fun _ => .bump h (.inl hg))

theorem grantCounted_count (s : State) (slot : Bool) :
    (grantCounted s slot).count Reg.AMC_CNT_ACK_GRANT = (s.count Reg.AMC_CNT_ACK_GRANT + 1) % 2 ^ 32 := by
  have granted : (s.bump Reg.AMC_CNT_ACK_GRANT).count Reg.AMC_CNT_ACK_GRANT = (s.count Reg.AMC_CNT_ACK_GRANT + 1) % 2 ^ 32 :=
    (State.count_bumpBy ..).trans (if_pos rfl)
  cases slot
  · exact granted
  · exact ((State.count_bumpBy ..).trans (if_neg (by decide))).trans granted

@[simp] theorem grantCounted_amc (s : State) (slot : Bool) : (grantCounted s slot).amc = s.amc := by
  cases slot <;> simp [grantCounted]

/-- The acknowledgement that is granted is kept until its command ends (R225). -/
def ackKept (s : State) (q : AckReq) (pend : Bool) : State := (grantCounted s q.slot).onAmc (fun x => { x with
  nextRef := x.nextRef + 1, acks := x.acks ++ [⟨x.nextRef, q.ctx, pend⟩] })

@[simp] theorem ackKept_fields (s : State) (q : AckReq) (pend : Bool) : (ackKept s q pend).fields = s.fields := by
  unfold ackKept grantCounted
  cases q.slot <;> simp

theorem phyOf_eq (h : v.fields = s.fields) (k : Nat) : phyOf v k = phyOf s k := by
  simp [phyOf, profFamily, profBand, profMaxPsdu, State.on, State.get_eq h]

theorem ackPhy_eq (h : v.fields = s.fields) (r : LaneRec) : ackPhy v r = ackPhy s r := by
  unfold ackPhy
  rw [phyOf_eq h]

/-- A chain in IDLE has no calibration to preempt, and where no command is set aside the grant is its counts and the command. -/
theorem ackGrant_idle {pend : Bool} (idle : chainState s c = chIDLE) : ackGrant s q ⟨c, f, []⟩ p q.d a pend =
    txIssue (ackKept s q pend) c (ackCommand (ackKept s q pend) (grantCounted s q.slot).amc.nextRef q f p a) := by
  have noCal : (chainState s c == chONCAL) = false := by rw [idle]; rfl
  unfold ackGrant ackKept grantCounted
  cases (s.chainOf c).cal <;> simp only [noCal, Bool.false_and] <;> rfl

/-- An acknowledgement granted to an enabled chain that is free in IDLE. -/
theorem ackGrant_free {pend : Bool} (idle : chainState s c = chIDLE) (on : s.get (Reg.TXC_CTRL_enable c) ≠ 0)
    (early : s.ltb + 122000 ≤ q.d) (free : (s.chainOf c).active = none) : ackGrant s q ⟨c, f, []⟩ p q.d a pend =
      (ackKept s q pend).setChain c { s.chainOf c with
        active := some (ackCommand (ackKept s q pend) (grantCounted s q.slot).amc.nextRef q f p a), started := false } := by
  have kept : (ackKept s q pend).ltb = s.ltb ∧ (ackKept s q pend).chains = s.chains := by
    unfold ackKept grantCounted
    cases q.slot <;> simp
  obtain ⟨ltb, chains⟩ := kept
  have chain : (ackKept s q pend).chainOf c = s.chainOf c := by unfold State.chainOf; rw [chains]
  rw [ackGrant_idle idle, txIssue_free (by rw [State.get_eq (ackKept_fields ..)]; exact on) _ (by rw [chain]; exact free), chain]
  simp only [tooLate, ackCommand, ltb]
  exact decide_eq_false (by omega)

/-- A round of one new request for which R180 picks a chain that is free grants it to that chain. -/
theorem ackArbiterRound_granted (h : s.settled) (round : s.amc.reqs.filter (roundDue (s.now t)) = [q])
    (fresh : (s.amc.recent.any fun e =>
      e.1 == (reqKey m).1 && e.2.1 == (reqKey m).2 && decide (q.at_ < e.2.2 + 1000000)) = false)
    (on : s.get Reg.AMC_CTRL_enable ≠ 0) (parsed : parseMhr q.rcd.psdu = some m)
    (ack : p = buildAck s q.rcd m (hasPending s q.ctx && !q.both) q.both) (air : a = airtimeOf (ackPhy s q.rcd) p.length)
    (picked : pickChain (s.now t) (bandChains q.rcd.band) q.rcd.band q.rcd.freq q.d a = .inr ⟨c, f, []⟩)
    (free : (s.chainOf c).active = none) (idle : chainState s c = chIDLE) :
    changes (.ackArbiterRound t) s [] [Reg.AMC_CNT_ACK_GRANT, Reg.AMC_CNT_ACK_SLOT_GRANT] [.amc, .chains] (fun u =>
      u.count Reg.AMC_CNT_ACK_GRANT = (s.count Reg.AMC_CNT_ACK_GRANT + 1) % 2 ^ 32 ∧
      u.amc.reqs = s.amc.reqs.filter (fun x => !roundDue (s.now t) x) ∧
      (u.chainOf c).active.map (fun x => (x.cls, x.freq, x.start, x.airUs, x.psdu)) = some (.ack, f, some q.d, a, p) ∧
      (u.chainOf c).active.map (fun x => x.phy) = some (ackPhy s q.rcd)) := by
  obtain ⟨enabled, early⟩ := pickChain_some picked
  have granted := ackArbiterRound_one (s := s.begin t) round fresh on parsed ack air
  rw [show pickChain (ackNoted (s.begin t) q m) _ _ _ _ _ = _ from picked] at granted
  have effect := granted.trans (ackGrant_free (s := ackNoted (s.begin t) q m) idle enabled early free)
  refine changes_of (f := ackArbiterRound) rfl effect h ?_ (fun u kept => ⟨?_, ?_, ?_, ?_⟩)
  · exact elsewhere_setChain (.onAmc (grantCounted_frame (.onAmc (.start s t)) _ (by simp) (by simp))) _ _ (by simp)
  · rw [kept.count _ (by decide)]
    exact grantCounted_count ..
  · rw [kept.amc]
    simp [ackKept, ackNoted]
    rfl
  · rw [kept.chainOf, State.chainOf_setChain]
    rfl
  · rw [kept.chainOf, State.chainOf_setChain]
    exact congrArg some (ackPhy_eq (ackKept_fields ..) q.rcd)

end AckArbiter
end Sys2Proof.Machine

namespace Sys2Proof.Machine

/-- Settles O19: a request leaves when its round is over (R178); it is granted where R180 picks a chain, and refused where no chain
is enabled (R181). -/
theorem ackArbiterRoundCompletes : Obligations.AckArbiterRoundCompletes := fun t _ h =>
  ⟨ackArbiterRound_completes t h,
    fun _ _ _ _ _ _ round fresh on parsed ack air picked free idle =>
      ackArbiterRound_granted h round fresh on parsed ack air picked free idle,
    fun _ _ round fresh on parsed off early => ackArbiterRound_noChannel h round fresh on parsed off early⟩

end Sys2Proof.Machine

namespace Sys2Proof.Machine

/-! ### What O37 leaves out: a bad context of the frame's node -/

/-- An unacknowledged frame of 40 octets to the node of context 4, which takes 900 µs of an 868 MHz channel. -/
def slottedAir : AirOut where
  parm := {
    profile := 0, family := 1, band := 0, fcs2 := true, occHz := 200000, maxPsdu := 127, n := 40, airUs := 900, shrUs := 50
    ackUs := 60 }
  psdu := [0x09, 0xDC, 7]
  ar := false
  ver := 1
  dsn := some 7
  dst := (3, 99)
  hop := some 4

/-- That frame, queued as service 0 of its node. -/
def slottedFrame : EscFrame where
  ref := 5
  port := 0
  svc := 0
  ctx := some 4
  air := some slottedAir
  bufs := 1

/-- The machine after reset, but with the Balance LOCKED in cycle 0 and ESC and chain 0 enabled, slot 9 of the chain's cache holding
868.3 MHz, the channel of plan entry 0. Entry 0 of the schedule is a transmit entry of chain 0 that starts in the middle of the
cycle; its mask admits service 0, whose path is slots alone and whose one frame is `slottedFrame`. The frame passes every test of
R231, but a parity error has made its context bad (R296). -/
def slotToBadContext : State :=
  let s : State := { State.reset with
    bal := { cycles := [⟨0, 0, 20000000⟩] }
    chains := [(0, { slots := [(9, { freq := 868300 })] })]
    esc := { sub := [(4, [slottedFrame])] }
    ctx := { bad := [4] } }
  ((s.cset 4 Cx.ofs_valid 1).set Reg.BAL_STATUS_state 2 |>.set Reg.ESC_CTRL_enable 1 |>.set (Reg.TXC_CTRL_enable 0) 1 |>.set
    (Reg.AMC_PLAN_FREQ_freq_khz 0) 868300 |>.set (Reg.AMC_PLAN_FREQ_valid 0) 1 |>.set (Reg.ESC_SVC_CTRL_path 0) 0 |>.set
    (Reg.ESC_SLOT_A_angle 0) 32768 |>.set (Reg.ESC_SLOT_B_valid 0) 1 |>.set (Reg.ESC_SLOT_B_len 0) 6000 |>.set
    (Reg.ESC_SLOT_C_svc_mask 0) 1)

theorem slotToBadContext_settled : slotToBadContext.settled := ⟨rfl, rfl, rfl⟩

/-- Refutes O37: at the decision in `slotToBadContext`, 1.5 ms before the occurrence's start, the frame needs a bad context, so it is
dropped and counted like one without a counter (R296), and ESC_CNT_SLOT_SENT stays 0; the clause on a frame that passes asks nothing
of the bad contexts, and says that the frame is sent. -/
theorem not_transmitOccurrenceCompletes : ¬ Obligations.TransmitOccurrenceCompletes := by
  intro h
  obtain ⟨sends, -⟩ := h 8500000 0 0 32768 slotToBadContext slotToBadContext_settled (by decide +kernel) (by decide +kernel)
    (by decide +kernel) (by decide +kernel) (by decide +kernel) (by decide +kernel) (by decide) (by decide +kernel)
    (by decide +kernel) (by decide +kernel) (by decide +kernel)
  obtain ⟨u, hu, -, counted, -⟩ := sends slottedAir slottedFrame 0 0 4 868300 33096 10100098 (by decide +kernel)
    (by decide +kernel) (by decide) (by decide +kernel) rfl rfl rfl rfl rfl rfl (by decide) rfl (by decide +kernel)
    (by decide +kernel) (by decide +kernel) (by decide) (by decide +kernel) (by decide +kernel) (by decide +kernel)
    (by decide +kernel) (by decide +kernel) (by decide +kernel) (by decide +kernel) (by decide +kernel) (by decide +kernel)
    (by decide +kernel) (by decide +kernel) (by decide +kernel) (by decide +kernel) (by decide +kernel) (by decide +kernel)
    (by decide +kernel) (by decide +kernel) (by decide +kernel) rfl
  obtain ⟨v, hv, kept⟩ := act_kept (s := slotToBadContext) (t := 8500000) (f := fun s => txOccurrence s 0) rfl
    (by decide +kernel) (by decide +kernel)
  cases hu.symm.trans hv
  have before : slotToBadContext.count Reg.ESC_CNT_SLOT_SENT = 0 := rfl
  have after : (txOccurrence (slotToBadContext.begin 8500000) 0).count Reg.ESC_CNT_SLOT_SENT = 0 := by decide +kernel
  rw [kept.count _ (by decide), after, before] at counted
  exact absurd counted (by decide)

end Sys2Proof.Machine

namespace Sys2Proof.Machine

/-! ### What O38 leaves out: a transmit occurrence that has just reached its start -/

/-- The machine after reset, but with the Balance LOCKED in cycle 0. The receive occurrence of entry 1 of the schedule is open since
1,000 units of the cycle, of no length and no guard, and was looked at there; for the transmit occurrence of entry 0, which starts
at 2,000, a frame has been released, and nothing has looked at it yet. -/
def bothOccurrences : State :=
  { State.reset.set Reg.BAL_STATUS_state 2 with
    bal := { cycles := [⟨0, 0, 20000000⟩] }
    esc := {
      open_ := [(1, { start := 1000, guard := 0, tested := true })]
      sent := [(0, { start := 2000, ref := 7 })] } }

theorem bothOccurrences_settled : bothOccurrences.settled := ⟨rfl, rfl, rfl⟩

/-- Refutes O38: halfway through the cycle the close of the receive occurrence in `bothOccurrences` looks at every occurrence that
has reached its start (R230), and notes of the transmit one that its plan entry is dead; the clause on the close, which asks that
all the open receive occurrences have been looked at, asks nothing of the transmit ones and says that they stay as they are. -/
theorem not_receiveOccurrenceCompletes : ¬ Obligations.ReceiveOccurrenceCompletes := by
  intro h
  obtain ⟨-, -, closes⟩ := h 10000000 1 bothOccurrences bothOccurrences_settled
  obtain ⟨u, hu, closed⟩ := closes { start := 1000, guard := 0, tested := true } rfl (by decide) (by decide +kernel)
  obtain ⟨v, hv, kept⟩ := act_kept (s := bothOccurrences) (t := 10000000) (f := fun s => rxOccurrenceClose s 1) rfl
    (by decide +kernel) (by decide +kernel)
  cases hu.symm.trans hv
  have noted : (rxOccurrenceClose (bothOccurrences.begin 10000000) 1).esc.sent =
      [(0, { start := 2000, ref := 7, dead := some true })] := by decide +kernel
  rw [← kept.esc, closed.esc] at noted
  exact absurd noted (by decide)

end Sys2Proof.Machine

namespace Sys2Proof.Machine

/-! ### What O39 leaves out: the latency measurement of an Ethernet frame -/

/-- A frame of 64 octets for Ethernet port ETH0, service 2, whose latency measurement is 1. -/
def measuredFrame : EscFrame where
  ref := 5
  port := 4
  svc := 2
  octets := List.replicate 64 0
  pool := 2
  bufs := 1
  mark := some 1

/-- The machine after reset, but with ESC enabled, ETH0 in RUN, and `measuredFrame` in the queue of its service; its measurement
began at LTB 0 (R414). -/
def measuredRelease : State :=
  { State.reset.set Reg.ESC_CTRL_enable 1 |>.set (Reg.ETH_STATUS_state 0) 2 with
    esc := { queue := [(66, [measuredFrame])] }
    chr := { State.reset.chr with tagged := [(1, { up := false, s := [(0, 0)] })] } }

theorem measuredRelease_settled : measuredRelease.settled := ⟨rfl, rfl, rfl⟩

/-- Refutes O39: in `measuredRelease` ETH0 begins to send the frame at once, so the frame reaches stage S7 (R415); the clause on an
Ethernet port does not ask that the frame has no measurement, as those on port HOST and the twin link do, and says that the stages
stay. -/
theorem not_releasesComplete : ¬ Obligations.ReleasesComplete := by
  intro h
  obtain ⟨-, -, ethernet, -⟩ := h 1000 0 measuredRelease measuredRelease_settled
  obtain ⟨u, hu, ⟨-, -, same, -⟩, -⟩ := ethernet 0 measuredFrame 0 [] (by decide) rfl (by decide) rfl rfl (by decide) (by decide)
    rfl rfl rfl rfl rfl rfl rfl rfl rfl (by decide)
  obtain ⟨v, hv, kept⟩ := act_kept (s := measuredRelease) (t := 1000) (f := fun s => wiredPortRelease s 4 []) rfl
    (by decide +kernel) (by decide +kernel)
  cases hu.symm.trans hv
  obtain ⟨-, stays⟩ := same .stages (by decide)
  have reached : (wiredPortRelease (measuredRelease.begin 1000) 4 []).chr.tagged =
      [(1, { up := false, s := [(0, 0), (7, 1000)] })] := by decide +kernel
  rw [kept.tagged, reached] at stays
  exact absurd stays (by decide)

end Sys2Proof.Machine

namespace Sys2Proof.Machine

/-! ### What O40 leaves out: a flush of frames whose first hop SLP serves -/

/-- The machine after reset, but with context 4 of a sleepy node (R209), for which `slottedFrame` waits. -/
def sleepyQueue : State :=
  ({ State.reset with esc := { sub := [(4, [slottedFrame])] } } : State).cset 4 Cx.slp_valid 1

theorem sleepyQueue_settled : sleepyQueue.settled := ⟨rfl, rfl, rfl⟩

/-- Refutes O40: the flush of `sleepyQueue` takes away the head frame of a first hop that SLP serves, so the windows of that node are
decided anew from this instant on (R215); the frame of the clause on a flush names no part of SLP. -/
theorem not_subscribersComplete : ¬ Obligations.SubscribersComplete := by
  intro h
  obtain ⟨-, -, flush, -⟩ := h 1000 sleepyQueue sleepyQueue_settled
  obtain ⟨u, hu, ⟨-, -, same, -⟩, -⟩ := flush 4 4 [slottedFrame] rfl (by decide +kernel) rfl (by decide)
  obtain ⟨v, hv, kept⟩ := act_kept (s := sleepyQueue) (t := 1000) (f := fun s => subFlush s 4) rfl
    (by decide +kernel) (by decide +kernel)
  cases hu.symm.trans hv
  have stays : u.slp = sleepyQueue.slp := same .slp (by decide)
  have moved : (subFlush (sleepyQueue.begin 1000) 4).slp.moved = [(4, 1000)] := by decide +kernel
  rw [← kept.slp, stays] at moved
  exact absurd moved (by decide)

end Sys2Proof.Machine

namespace Sys2Proof.Machine

/-! ### Bit fields of a number -/

section BitFields

variable {x lo w v : Nat}

theorem putBits_mod (x lo w v : Nat) : putBits x lo w v % 2 ^ lo = x % 2 ^ lo := by
  have shape : putBits x lo w v = x % 2 ^ lo + 2 ^ lo * (x / 2 ^ (lo + w) * 2 ^ w + v % 2 ^ w) := by
    unfold putBits
    ring
  rw [shape, Nat.add_mul_mod_self_left, Nat.mod_mod]

theorem putBits_div (x lo w v : Nat) : putBits x lo w v / 2 ^ lo = v % 2 ^ w + 2 ^ w * (x / 2 ^ (lo + w)) := by
  have shape : putBits x lo w v = x % 2 ^ lo + 2 ^ lo * (v % 2 ^ w + 2 ^ w * (x / 2 ^ (lo + w))) := by
    unfold putBits
    ring
  rw [shape, Nat.add_mul_div_left _ _ (Nat.two_pow_pos lo), Nat.div_eq_of_lt (Nat.mod_lt _ (Nat.two_pow_pos lo)), Nat.zero_add]

theorem putBits_div_above (x lo w v : Nat) : putBits x lo w v / 2 ^ (lo + w) = x / 2 ^ (lo + w) := by
  rw [Nat.pow_add, ← Nat.div_div_eq_div_mul, putBits_div, Nat.add_mul_div_left _ _ (Nat.two_pow_pos w),
    Nat.div_eq_of_lt (Nat.mod_lt _ (Nat.two_pow_pos w)), Nat.zero_add, Nat.pow_add]

/-- A field that is put reads back. -/
theorem bits_putBits_self (x lo w v : Nat) : bits (putBits x lo w v) lo w = v % 2 ^ w := by
  rw [bits, putBits_div, Nat.add_mul_mod_self_left, Nat.mod_mod]

theorem bits_eq_mod_div (x lo w : Nat) : bits x lo w = x % 2 ^ (lo + w) / 2 ^ lo := by
  rw [bits, Nat.pow_add, Nat.mod_mul_right_div_self]

/-- Fields beside the one that is put stay. -/
theorem bits_putBits_of_disjoint {lo' w' : Nat} (h : lo' + w' ≤ lo ∨ lo + w ≤ lo') :
    bits (putBits x lo w v) lo' w' = bits x lo' w' := by
  rcases h with below | above
  · rw [bits_eq_mod_div, bits_eq_mod_div, ← Nat.mod_mod_of_dvd _ (Nat.pow_dvd_pow 2 below), putBits_mod,
      Nat.mod_mod_of_dvd _ (Nat.pow_dvd_pow 2 below)]
  · obtain ⟨k, rfl⟩ := Nat.exists_eq_add_of_le above
    rw [bits, bits, Nat.pow_add 2 (lo + w) k, ← Nat.div_div_eq_div_mul, ← Nat.div_div_eq_div_mul, putBits_div_above]

/-- A field put within a number's width keeps the width. -/
theorem putBits_lt {n : Nat} (hx : x < 2 ^ n) (h : lo + w ≤ n) : putBits x lo w v < 2 ^ n := by
  obtain ⟨k, rfl⟩ := Nat.exists_eq_add_of_le' h
  rw [Nat.pow_add, ← Nat.div_lt_iff_lt_mul (Nat.two_pow_pos _)] at hx ⊢
  rwa [putBits_div_above]

end BitFields

/-! ### The entries of the Node Table (R252) -/

section NodeEntries

variable {s u : State} {i j v : Nat}

theorem ntBits_of_store (h : u.store = s.store) (i : Nat) : ntBits u i = ntBits s i := by
  unfold ntBits State.octets
  rw [h]

theorem nget_of_store (h : u.store = s.store) (i : Nat) (f : NFld) : nget u i f = nget s i f := by
  unfold nget
  rw [ntBits_of_store h]

theorem ntIsBad_of_fwd (h : u.fwd = s.fwd) (i : Nat) : ntIsBad u i = ntIsBad s i := by
  unfold ntIsBad
  rw [h]

@[simp] theorem ntBits_set (s : State) (f : Fld) (x i : Nat) : ntBits (s.set f x) i = ntBits s i :=
  ntBits_of_store (State.set_store ..) i

@[simp] theorem nget_set (s : State) (f : Fld) (x i : Nat) (g : NFld) : nget (s.set f x) i g = nget s i g :=
  nget_of_store (State.set_store ..) i g

theorem octets_length (s : State) (a n : Nat) : (s.octets a n).length = n := by simp [State.octets]

/-- Octets that are written read back. -/
theorem octets_setOctets (h : Memory.wf s.store = true) (a : Nat) (l : List Byte) : (s.setOctets a l).octets a l.length = l := by
  refine List.ext_getElem (octets_length ..) (fun k _ hk => ?_)
  simp only [State.octets, List.getElem_map, List.getElem_range]
  exact cellRead_writes_in a k l h hk

theorem ntBits_lt (s : State) (i : Nat) : ntBits s i < 2 ^ 128 := by
  have below := ofLe_lt (s.octets (ntBase i) 16)
  rwa [octets_length] at below

theorem ntWrite_wf (h : Memory.wf s.store = true) (i v : Nat) : Memory.wf (ntWrite s i v).store = true :=
  Memory.wf_writes _ _ h

/-- A write of an entry changes its 16 octets alone. -/
theorem cellRead_ntWrite (h : Memory.wf s.store = true) {a : Nat} (out : a < ntBase i ∨ ntBase i + 16 ≤ a) :
    cellRead (ntWrite s i v).store a = cellRead s.store a :=
  cellRead_writes_out _ _ _ h (by rwa [leOctets_length])

theorem ntBits_ntWrite_self (h : Memory.wf s.store = true) (hv : v < 2 ^ 128) : ntBits (ntWrite s i v) i = v := by
  have octets : (ntWrite s i v).octets (ntBase i) 16 = leOctets 16 v := by
    have whole := octets_setOctets h (ntBase i) (leOctets 16 v)
    rwa [leOctets_length] at whole
  rw [ntBits, octets, ofLe_leOctets]
  exact Nat.mod_eq_of_lt hv

theorem ntBits_ntWrite_ne (h : Memory.wf s.store = true) (ne : i ≠ j) : ntBits (ntWrite s i v) j = ntBits s j := by
  unfold ntBits State.octets
  rw [List.map_congr_left (fun k hk => cellRead_ntWrite h ?_)]
  have := List.mem_range.1 hk
  unfold ntBase
  omega

theorem nset_wf (h : Memory.wf s.store = true) (i : Nat) (f : NFld) (v : Nat) : Memory.wf (nset s i f v).store = true :=
  ntWrite_wf h i _

theorem cellRead_nset (h : Memory.wf s.store = true) {f : NFld} {a : Nat} (out : a < ntBase i ∨ ntBase i + 16 ≤ a) :
    cellRead (nset s i f v).store a = cellRead s.store a := cellRead_ntWrite h out

theorem ntBits_nset_self (h : Memory.wf s.store = true) {f : NFld} (width : f.lo + f.w ≤ 128) :
    ntBits (nset s i f v) i = putBits (ntBits s i) f.lo f.w v :=
  ntBits_ntWrite_self h (putBits_lt (ntBits_lt s i) width)

theorem ntBits_nset_ne (h : Memory.wf s.store = true) {f : NFld} (ne : i ≠ j) : ntBits (nset s i f v) j = ntBits s j :=
  ntBits_ntWrite_ne h ne

theorem nget_nset_self (h : Memory.wf s.store = true) {f : NFld} (width : f.lo + f.w ≤ 128) :
    nget (nset s i f v) i f = v % 2 ^ f.w := by
  rw [nget, ntBits_nset_self h width, bits_putBits_self]

/-- Another field stays, in the entry and in every other. -/
theorem nget_nset_ne (h : Memory.wf s.store = true) {f g : NFld} (width : f.lo + f.w ≤ 128)
    (apart : g.lo + g.w ≤ f.lo ∨ f.lo + f.w ≤ g.lo) : nget (nset s i f v) j g = nget s j g := by
  unfold nget
  by_cases same : i = j
  · subst same
    rw [ntBits_nset_self h width, bits_putBits_of_disjoint apart]
  · rw [ntBits_nset_ne h same]

theorem ntIsBad_nset (s : State) (i : Nat) (f : NFld) (v j : Nat) : ntIsBad (nset s i f v) j = ntIsBad s j :=
  ntIsBad_of_fwd (State.setOctets_fwd ..) j

theorem entryBits_lt (key ctx parent pref alt refs kind : Nat) : entryBits key ctx parent pref alt refs kind < 2 ^ 126 := by
  unfold entryBits
  omega

end NodeEntries
end Sys2Proof.Machine

namespace Sys2Proof.Machine

/-! ### Lookups of the Node Table (R253, R254, R276) -/

section NodeLookup

variable {s : State} {key kind i : Nat} {upset : List Nat}

/-- A read that meets no new parity error. -/
theorem ntUpset_quiet {is : List Nat} (h : ∀ x ∈ is, ¬ x ∈ upset ∨ ntIsBad s x = true) : ntUpset s is upset = s := by
  unfold ntUpset
  rw [List.filter_eq_nil_iff.2 (fun x hx => ?_)]
  · rfl
  · rcases h x hx with clean | bad
    · simp [clean]
    · simp [bad]

theorem ntUpset_none {is : List Nat} (h : ∀ x ∈ is, ¬ x ∈ upset) : ntUpset s is upset = s :=
  ntUpset_quiet (fun x hx => .inl (h x hx))

@[simp] theorem ntReads_setKind (s : State) (n key kind : Nat) :
    ntReads (s.set Reg.FWD_NT_CMD_kind n) key kind = ntReads s key kind := by
  unfold ntReads ntBuckets
  simp (disch := decide) only [State.get_set_ne]

@[simp] theorem ntValid_set (s : State) (f : Fld) (x i : Nat) : ntValid (s.set f x) i = ntValid s i := by
  simp [ntValid, ntIsBad]

@[simp] theorem ntFind_setKind (s : State) (n key kind : Nat) :
    ntFind (s.set Reg.FWD_NT_CMD_kind n) key kind = ntFind s key kind := by
  simp only [ntFind, ntReads_setKind, ntValid_set, nget_set]

@[simp] theorem ntArg_setKind (s : State) (n : Nat) : ntArg (s.set Reg.FWD_NT_CMD_kind n) = ntArg s := by
  unfold ntArg
  simp (disch := decide) only [State.get_set_ne]

@[simp] theorem ntKey_setKind (s : State) (n : Nat) : ntKey (s.set Reg.FWD_NT_CMD_kind n) = ntKey s := by
  unfold ntKey
  simp (disch := decide) only [State.get_set_ne]

@[simp] theorem argParent_setKind (s : State) (n : Nat) : argParent (s.set Reg.FWD_NT_CMD_kind n) = argParent s := by
  unfold argParent
  simp only [ntArg_setKind, ntFind_setKind]

/-- A lookup hits a valid entry at a place that it reads. -/
theorem ntFind_hit (h : ntFind s key kind = some i) : i ∈ ntReads s key kind ∧ ntValid s i = true := by
  suffices hit : i ∈ (ntReads s key kind).filter (fun i => ntValid s i && nget s i Nt.key == key && nget s i Nt.kind == kind) by
    simp only [List.mem_filter, Bool.and_eq_true] at hit
    obtain ⟨read, ⟨valid, -⟩, -⟩ := hit
    exact ⟨read, valid⟩
  unfold ntFind at h
  split at h
  next => cases h
  next j one =>
    obtain rfl := Option.some.inj h
    simp [one]
  next j k r two =>
    rw [two]
    split at h <;> obtain rfl := Option.some.inj h <;> simp

theorem ntFind_valid (h : ntFind s key kind = some i) : nget s i Nt.valid = 1 := by
  have valid := (ntFind_hit h).2
  simp only [ntValid, Bool.and_eq_true, beq_iff_eq] at valid
  exact valid.1

/-- No bucket has a way at the numbers that mean none and the site (R252). -/
theorem mem_ntWays_lt {b : Nat} (hb : b < 2 ^ 16) (h : i ∈ ntWays b) : i < ntNone := by
  unfold ntWays at h
  unfold ntNone
  split at h <;> simp only [List.mem_cons, List.not_mem_nil, or_false] at h <;> omega

theorem ntHash_lt (seed key kind : Nat) : ntHash seed key kind < 2 ^ 16 := Nat.mod_lt _ (by decide)

theorem ntBuckets_lt (s : State) (key kind : Nat) : (ntBuckets s key kind).1 < 2 ^ 16 ∧ (ntBuckets s key kind).2 < 2 ^ 16 := by
  unfold ntBuckets
  refine ⟨ntHash_lt .., ?_⟩
  dsimp only
  split
  · exact Nat.xor_lt_two_pow (ntHash_lt ..) (by decide)
  · exact ntHash_lt ..

theorem ntFind_lt (h : ntFind s key kind = some i) : i < ntNone := by
  obtain ⟨b0, b1⟩ := ntBuckets_lt s key kind
  rcases List.mem_append.1 (ntFind_hit h).1 with first | second
  · exact mem_ntWays_lt b0 first
  · exact mem_ntWays_lt b1 second

/-- A free way holds no valid entry. -/
theorem freeWay_invalid {b0 b1 : Nat} (h : (freeWay s b0).or (freeWay s b1) = some i) : nget s i Nt.valid = 0 := by
  have free {b : Nat} (hb : freeWay s b = some i) : nget s i Nt.valid = 0 := by
    have found := List.find?_some hb
    simp only [Bool.and_eq_true, beq_iff_eq] at found
    exact found.1
  rcases Option.or_eq_some_iff.1 h with first | ⟨-, second⟩
  · exact free first
  · exact free second

/-- Where a bucket of the key has a free way, nothing moves (R256). -/
theorem ntPlace_free (free : (freeWay s (ntBuckets s key kind).1).or (freeWay s (ntBuckets s key kind).2) = some i) :
    ntPlace s key kind upset = (some i, s) := by
  unfold ntPlace
  simp only [free]

/-- Changing a field of an entry but valid leaves the free ways. -/
theorem freeWay_nset (h : Memory.wf s.store = true) {f : NFld} (width : f.lo + f.w ≤ 128)
    (apart : Nt.valid.lo + Nt.valid.w ≤ f.lo ∨ f.lo + f.w ≤ Nt.valid.lo) (j v b : Nat) :
    freeWay (nset s j f v) b = freeWay s b := by
  unfold freeWay
  simp only [nget_nset_ne h width apart, ntIsBad_nset]

end NodeLookup

/-! ### Insertions, deletions and parents (R256, R258, R259) -/

section NodeChanges

variable {t : Nat} {s v : State} {upset : List Nat}

theorem State.elsewhere.ntWrite {fs : List Fld} {cs : List Nat} {ps : List Part} (h : s.elsewhere v fs cs ps) {i x : Nat}
    (hp : .store ∈ ps := by simp) : s.elsewhere (ntWrite v i x) fs cs ps := .setOctets h hp

theorem State.elsewhere.nset {fs : List Fld} {cs : List Nat} {ps : List Part} (h : s.elsewhere v fs cs ps) {i x : Nat} {f : NFld}
    (hp : .store ∈ ps := by simp) : s.elsewhere (nset v i f x) fs cs ps := .ntWrite h hp

theorem State.elsewhere.addRefs {fs : List Fld} {cs : List Nat} {ps : List Part} (h : s.elsewhere v fs cs ps) {i : Nat} {up : Bool}
    (hp : .store ∈ ps := by simp) : s.elsewhere (addRefs v i up) fs cs ps := .nset h hp

/-- The entry `x` is inserted at place `i`, and the command ends OK. -/
def ntInserted (s : State) (i x : Nat) : State := ntResult ((ntFill (ntWrite s i x) true).set Reg.FWD_NT_IDX_idx i) 0

theorem ntResult_store (s : State) (r : Nat) : (ntResult s r).store = s.store := rfl

@[simp] theorem ntResult_result (s : State) {r : Nat} (h : r < 2 ^ 3 := by decide) :
    (ntResult s r).get Reg.FWD_NT_CMD_result = r := (State.get_set_self ..).trans (Nat.mod_eq_of_lt h)

theorem ntResult_get (s : State) (r : Nat) {f : Fld} (h : Reg.FWD_NT_CMD_result.key ≠ f.key := by decide) :
    (ntResult s r).get f = s.get f := State.get_set_ne _ _ h

theorem ntResult_fwd (s : State) (r : Nat) : (ntResult s r).fwd = s.fwd := rfl

theorem ntResult_pwr (s : State) (r : Nat) : (ntResult s r).pwr = s.pwr := rfl

theorem ntResult_count (s : State) (r c : Nat) : (ntResult s r).count c = s.count c := rfl

theorem ntFill_store (s : State) (up : Bool) : (ntFill s up).store = s.store := rfl

theorem ntFill_get (s : State) (up : Bool) : (ntFill s up).get Reg.FWD_NT_FILL_nt_fill =
    (if up then s.get Reg.FWD_NT_FILL_nt_fill + 1 else s.get Reg.FWD_NT_FILL_nt_fill - 1) % 2 ^ 19 := State.get_set_self ..

theorem ntWrite_get (s : State) (i x : Nat) (g : Fld) : (ntWrite s i x).get g = s.get g := State.setOctets_get ..

theorem nset_get (s : State) (i : Nat) (f : NFld) (x : Nat) (g : Fld) : (nset s i f x).get g = s.get g := ntWrite_get ..

theorem ntInserted_store (s : State) (i x : Nat) : (ntInserted s i x).store = (ntWrite s i x).store := by
  simp [ntInserted, ntResult, ntFill]

theorem ntInserted_reads (s : State) (i x : Nat) : (ntInserted s i x).get Reg.FWD_NT_CMD_result = 0 ∧
    (ntInserted s i x).get Reg.FWD_NT_IDX_idx = i % 2 ^ 18 ∧
    (ntInserted s i x).get Reg.FWD_NT_FILL_nt_fill = (s.get Reg.FWD_NT_FILL_nt_fill + 1) % 2 ^ 19 := by
  unfold ntInserted
  refine ⟨ntResult_result _, ?_, ?_⟩
  · exact (ntResult_get ..).trans (State.get_set_self ..)
  · rw [ntResult_get, State.get_set_ne _ _ (by decide), ntFill_get, ntWrite_get]
    rfl

theorem State.elsewhere.ntInserted {cs : List Nat} {ps : List Part} {i x : Nat}
    (h : s.elsewhere v [Reg.FWD_NT_FILL_nt_fill, Reg.FWD_NT_IDX_idx, Reg.FWD_NT_CMD_result] cs ps) (hp : .store ∈ ps := by simp) :
    s.elsewhere (ntInserted v i x) [Reg.FWD_NT_FILL_nt_fill, Reg.FWD_NT_IDX_idx, Reg.FWD_NT_CMD_result] cs ps :=
  .set (.set (.set (.ntWrite h hp)))

theorem ntInsertPrimary_free {key i : Nat} (is : key = ntKey s) (sound : ∀ x ∈ ntReads s key 0, ¬ x ∈ upset)
    (absent : ntFind s key 0 = none) (free : (freeWay s (ntBuckets s key 0).1).or (freeWay s (ntBuckets s key 0).2) = some i) :
    ntInsertPrimary s upset = ntInserted s i (entryBits key (s.get Reg.FWD_NT_ARG_CTX_ctx) ntNone 0xFF 0xFF 0 0) := by
  subst is
  unfold ntInsertPrimary
  simp only [ntUpset_none sound, absent, ntPlace_free free]
  rfl

theorem ntInsertPrimary_changes (h : s.settled) (wf : Memory.wf s.store = true) (key i : Nat) (is : key = ntKey s)
    (sound : ∀ x ∈ ntReads s key 0, ¬ x ∈ upset) (absent : ntFind s key 0 = none)
    (free : (freeWay s (ntBuckets s key 0).1).or (freeWay s (ntBuckets s key 0).2) = some i) :
    changes (.ntInsertPrimary t upset) s [Reg.FWD_NT_FILL_nt_fill, Reg.FWD_NT_IDX_idx,
      Reg.FWD_NT_CMD_result] [] [.store] (fun u => u.get Reg.FWD_NT_CMD_result = 0 ∧
      u.get Reg.FWD_NT_IDX_idx = i % 2 ^ 18 ∧ u.get Reg.FWD_NT_FILL_nt_fill = (s.get Reg.FWD_NT_FILL_nt_fill + 1) % 2
      ^ 19 ∧ ntBits u i = entryBits key (s.get Reg.FWD_NT_ARG_CTX_ctx) ntNone 0xFF 0xFF 0 0 ∧ ∀ a, a < ntBase i ∨
      ntBase i + 16 ≤ a → cellRead u.store a = cellRead s.store a) := by
  have effect := ntInsertPrimary_free (s := s.begin t) is sound absent free
  refine changes_of (f := fun s => ntInsertPrimary s upset) rfl effect h (.ntInserted (.start s t)) (fun u kept => ?_)
  obtain ⟨result, idx, fill⟩ := ntInserted_reads (s.begin t) i (entryBits key (s.get Reg.FWD_NT_ARG_CTX_ctx) ntNone 0xFF 0xFF 0 0)
  have store := kept.store.trans (ntInserted_store ..)
  refine ⟨(kept.get _ (by decide)).trans result, (kept.get _ (by decide)).trans idx, (kept.get _ (by decide)).trans fill, ?_,
    fun a out => ?_⟩
  · rw [ntBits_of_store store]
    exact ntBits_ntWrite_self (s := s.begin t) wf ((entryBits_lt ..).trans (by decide))
  · rw [store]
    exact cellRead_ntWrite (s := s.begin t) wf out

/-- The primary entry gets a reference more, which changes nothing that the insertion reads. -/
theorem ntInsertAlias_free {key i p : Nat} (wf : Memory.wf s.store = true) (is : key = ntKey s % 2 ^ 16)
    (sound : ∀ x ∈ ntReads s key 1 ++ ntReads s (ntArg s) 0, ¬ x ∈ upset) (absent : ntFind s key 1 = none)
    (primary : ntFind s (ntArg s) 0 = some p) (room : nget s p Nt.refs < 255)
    (free : (freeWay s (ntBuckets s key 1).1).or (freeWay s (ntBuckets s key 1).2) = some i) :
    ntInsertAlias s upset = ntInserted (addRefs s p true) i (entryBits key (nget s p Nt.ctx) p 0 0 0 1) := by
  have keyed : keyFor (ntKey s) 1 = key := is.symm
  have context : nget (addRefs s p true) p Nt.ctx = nget s p Nt.ctx := nget_nset_ne wf (by decide) (by decide)
  have still (b : Nat) : freeWay (addRefs s p true) b = freeWay s b := freeWay_nset wf (by decide) (by decide) p _ b
  have placed : ntPlace (addRefs s p true) key 1 upset = (some i, addRefs s p true) := by
    refine ntPlace_free ?_
    have buckets : ntBuckets (addRefs s p true) key 1 = ntBuckets s key 1 := by
      unfold ntBuckets
      simp only [addRefs, nset_get]
    rw [still, still, buckets]
    exact free
  unfold ntInsertAlias
  simp only [keyed, ntUpset_none sound, absent, primary, if_neg (Nat.ne_of_lt room), placed, context]
  rfl

theorem ntInsertAlias_changes (h : s.settled) (wf : Memory.wf s.store = true) (key i p : Nat) (is : key = ntKey s % 2 ^ 16)
    (sound : ∀ x ∈ ntReads s key 1 ++ ntReads s (ntArg s) 0, ¬ x ∈ upset) (absent : ntFind s key 1 = none)
    (primary : ntFind s (ntArg s) 0 = some p) (room : nget s p Nt.refs < 255)
    (free : (freeWay s (ntBuckets s key 1).1).or (freeWay s (ntBuckets s key 1).2) = some i) :
    changes (.ntInsertAlias t upset) s [Reg.FWD_NT_FILL_nt_fill, Reg.FWD_NT_IDX_idx,
      Reg.FWD_NT_CMD_result] [] [.store] (fun u => u.get Reg.FWD_NT_CMD_result = 0 ∧
      u.get Reg.FWD_NT_IDX_idx = i % 2 ^ 18 ∧ ntBits u i = entryBits key (nget s p Nt.ctx) p 0 0 0 1 ∧
      ntBits u p = putBits (ntBits s p) Nt.refs.lo 8 (nget s p Nt.refs + 1) ∧ ∀ a,
      (a < ntBase i ∨ ntBase i + 16 ≤ a) → (a < ntBase p ∨ ntBase p + 16 ≤ a) →
      cellRead u.store a = cellRead s.store a) := by
  have effect := ntInsertAlias_free (s := s.begin t) wf is sound absent primary room free
  refine changes_of (f := fun s => ntInsertAlias s upset) rfl effect h (.ntInserted (.addRefs (.start s t))) (fun u kept => ?_)
  obtain ⟨result, idx, -⟩ := ntInserted_reads (addRefs (s.begin t) p true) i (entryBits key (nget s p Nt.ctx) p 0 0 0 1)
  have store := kept.store.trans (ntInserted_store ..)
  have raised : Memory.wf (addRefs (s.begin t) p true).store = true := nset_wf wf ..
  have apart : i ≠ p := by
    rintro rfl
    exact absurd ((ntFind_valid primary).symm.trans (freeWay_invalid free)) (by decide)
  refine ⟨(kept.get _ (by decide)).trans result, (kept.get _ (by decide)).trans idx, ?_, ?_, fun a outI outP => ?_⟩
  · rw [ntBits_of_store store]
    exact ntBits_ntWrite_self raised ((entryBits_lt ..).trans (by decide))
  · rw [ntBits_of_store store, ntBits_ntWrite_ne raised apart]
    exact ntBits_nset_self (s := s.begin t) wf (by decide)
  · rw [store, cellRead_ntWrite raised outI]
    exact cellRead_nset (s := s.begin t) wf outP

theorem ntDelete_single {k key i : Nat} (is : key = keyFor (ntKey s) k) (sound : ∀ x ∈ ntReads s key k, ¬ x ∈ upset)
    (found : ntFind s key k = some i) (unused : nget s i Nt.refs = 0) (root : isEntry (nget s i Nt.parent) = false) :
    ntDelete s k upset = ntResult (ntFill (nset (s.set Reg.FWD_NT_CMD_kind k) i Nt.valid 0) false) 0 := by
  subst is
  have top : isEntry (nget (s.set Reg.FWD_NT_CMD_kind k) i Nt.parent) = false := root
  have alone : ¬ nget (s.set Reg.FWD_NT_CMD_kind k) i Nt.refs ≠ 0 := not_not.2 unused
  unfold ntDelete
  simp only [ntUpset_none sound, ntFind_setKind, found, top, if_neg alone, Bool.false_and, Bool.false_eq_true, if_false]

theorem ntDelete_changes (h : s.settled) (wf : Memory.wf s.store = true) (kind : Fin 2) (k key i : Nat) (kindIs : kind.val = k)
    (is : key = keyFor (ntKey s) k) (sound : ∀ x ∈ ntReads s key k, ¬ x ∈ upset) (found : ntFind s key k = some i)
    (unused : nget s i Nt.refs = 0) (root : isEntry (nget s i Nt.parent) = false) :
    changes (.ntDelete t kind upset) s [Reg.FWD_NT_CMD_kind,
      Reg.FWD_NT_FILL_nt_fill, Reg.FWD_NT_CMD_result] [] [.store] (fun u => u.get Reg.FWD_NT_CMD_result = 0 ∧
      u.get Reg.FWD_NT_FILL_nt_fill = (s.get Reg.FWD_NT_FILL_nt_fill - 1) % 2 ^ 19 ∧ nget u i Nt.valid = 0 ∧
      ntBits u i = putBits (ntBits s i) Nt.valid.lo 1 0 ∧ ∀ a, a < ntBase i ∨ ntBase i + 16 ≤ a →
      cellRead u.store a = cellRead s.store a) := by
  have effect := ntDelete_single (s := s.begin t) is sound found unused root
  subst kindIs
  refine changes_of (f := fun s => ntDelete s kind.val upset) rfl effect h (.set (.set (.nset (.set (.start s t)))))
    (fun u kept => ?_)
  have store := kept.store.trans ((ntResult_store ..).trans (ntFill_store ..))
  have form : Memory.wf ((s.begin t).set Reg.FWD_NT_CMD_kind kind.val).store = true := wf
  refine ⟨?_, ?_, ?_, ?_, fun a out => ?_⟩
  · rw [kept.get _ (by decide), ntResult_result]
  · have before : ((s.begin t).set Reg.FWD_NT_CMD_kind kind).get Reg.FWD_NT_FILL_nt_fill = s.get Reg.FWD_NT_FILL_nt_fill :=
      State.get_set_ne _ _ (by decide)
    rw [kept.get _ (by decide), ntResult_get, ntFill_get, nset_get, before]
    rfl
  · rw [nget_of_store store]
    exact nget_nset_self form (by decide)
  · rw [ntBits_of_store store, ntBits_nset_self form (by decide), ntBits_set]
    rfl
  · rw [store]
    exact cellRead_nset form out

/-- The child has no entry as its parent yet, so only the new parent's references change. -/
theorem ntSetParent_entry {i p : Nat} (sound : ∀ x ∈ ntReads s (ntKey s) 0 ++ ntReads s (ntArg s) 0, ¬ x ∈ upset)
    (walked : ∀ x ∈ walkEntries 24 s p, ¬ x ∈ upset) (found : ntFind s (ntKey s) 0 = some i) (parent : argParent s = some p)
    (root : isEntry (nget s i Nt.parent) = false) (entry : isEntry p = true) (room : nget s p Nt.refs < 255)
    (noLoop : parentWalk 24 s p i = 0) :
    ntSetParent s upset = ntResult (nset (addRefs s p true) i Nt.parent p) 0 := by
  have notFull : (nget s p Nt.refs == 255) = false := by simpa using Nat.ne_of_lt room
  unfold ntSetParent
  simp only [ntUpset_none sound, found, parent, ntUpset_none walked, root, entry, notFull, noLoop, Bool.and_false,
    Bool.false_and, Bool.false_eq_true, if_false, ne_eq, not_true, if_true]

/-- The site and none have no references. -/
theorem ntSetParent_site {i : Nat} (sound : ∀ x ∈ ntReads s (ntKey s) 0 ++ ntReads s (ntArg s) 0, ¬ x ∈ upset)
    (found : ntFind s (ntKey s) 0 = some i) (site : ntArg s = 2 ^ 64 - 1) (root : isEntry (nget s i Nt.parent) = false) :
    ntSetParent s upset = ntResult (nset s i Nt.parent ntSite) 0 := by
  have parent : argParent s = some ntSite := by
    unfold argParent
    rw [site, if_neg (by decide), if_pos rfl]
  have noEntry : isEntry ntSite = false := rfl
  have noWalk : ntUpset s (walkEntries 24 s ntSite) upset = s := ntUpset_none (by simp [walkEntries, noEntry])
  have other : ntSite ≠ i := by
    have := ntFind_lt found
    unfold ntNone at this
    unfold ntSite
    omega
  have noLoop : parentWalk 24 s ntSite i = 0 := by
    unfold parentWalk
    simp [other, noEntry]
  unfold ntSetParent
  simp only [ntUpset_none sound, found, parent, noWalk, root, noEntry, noLoop, Bool.false_and, Bool.false_eq_true,
    if_false, ne_eq, not_true]

theorem parentWalk_begin (s : State) (t n p i : Nat) : parentWalk n (s.begin t) p i = parentWalk n s p i := by
  induction n generalizing p with
  | zero => rfl
  | succ n ih =>
    unfold parentWalk
    rw [ih]
    rfl

theorem walkEntries_begin (s : State) (t n p : Nat) : walkEntries n (s.begin t) p = walkEntries n s p := by
  induction n generalizing p with
  | zero => rfl
  | succ n ih =>
    unfold walkEntries
    rw [ih]
    rfl

theorem ntSetParent_changes (h : s.settled) (wf : Memory.wf s.store = true) (i p : Nat)
    (sound : ∀ x ∈ ntReads s (ntKey s) 0 ++ ntReads s (ntArg s) 0, ¬ x ∈ upset)
    (walked : ∀ x ∈ walkEntries 24 s p, ¬ x ∈ upset) (found : ntFind s (ntKey s) 0 = some i) (parent : argParent s = some p)
    (low : p < 2 ^ 18) (root : isEntry (nget s i Nt.parent) = false) (entry : isEntry p = true) (room : nget s p Nt.refs < 255)
    (noLoop : parentWalk 24 s p i = 0) :
    changes (.ntSetParent t upset) s [Reg.FWD_NT_CMD_result] [] [.store] (fun u => u.get Reg.FWD_NT_CMD_result = 0 ∧
      ntBits u i = putBits (ntBits s i) Nt.parent.lo 18 p ∧
      ntBits u p = putBits (ntBits s p) Nt.refs.lo 8 (nget s p Nt.refs + 1) ∧ nget u i Nt.parent = p ∧ ∀ a,
      (a < ntBase i ∨ ntBase i + 16 ≤ a) → (a < ntBase p ∨ ntBase p + 16 ≤ a) →
      cellRead u.store a = cellRead s.store a) := by
  have effect := ntSetParent_entry (s := s.begin t) (i := i) (p := p) sound (by rwa [walkEntries_begin]) found parent
    root entry room (by rwa [parentWalk_begin])
  have apart : i ≠ p := by
    rintro rfl
    rw [parentWalk, if_pos rfl] at noLoop
    cases noLoop
  refine changes_of (f := fun s => ntSetParent s upset) rfl effect h (.set (.nset (.addRefs (.start s t)))) (fun u kept => ?_)
  have store := kept.store.trans (ntResult_store ..)
  have raised : Memory.wf (addRefs (s.begin t) p true).store = true := nset_wf wf ..
  have child : ntBits (addRefs (s.begin t) p true) i = ntBits s i := ntBits_nset_ne (s := s.begin t) wf apart.symm
  refine ⟨?_, ?_, ?_, ?_, fun a outI outP => ?_⟩
  · rw [kept.get _ (by decide), ntResult_result]
  · rw [ntBits_of_store store, ntBits_nset_self raised (by decide), child]
    rfl
  · rw [ntBits_of_store store, ntBits_nset_ne raised apart]
    exact ntBits_nset_self (s := s.begin t) wf (by decide)
  · rw [nget_of_store store, nget_nset_self raised (by decide)]
    exact Nat.mod_eq_of_lt low
  · rw [store, cellRead_nset raised outI]
    exact cellRead_nset (s := s.begin t) wf outP

theorem ntSetParent_changes_site (h : s.settled) (wf : Memory.wf s.store = true) (i : Nat)
    (sound : ∀ x ∈ ntReads s (ntKey s) 0 ++ ntReads s (ntArg s) 0, ¬ x ∈ upset) (found : ntFind s (ntKey s) 0 = some i)
    (site : ntArg s = 2 ^ 64 - 1) (root : isEntry (nget s i Nt.parent) = false) :
    changes (.ntSetParent t upset) s [Reg.FWD_NT_CMD_result] [] [.store] (fun u => u.get Reg.FWD_NT_CMD_result = 0 ∧
      ntBits u i = putBits (ntBits s i) Nt.parent.lo 18 ntSite ∧ ∀ a, a < ntBase i ∨ ntBase i + 16 ≤ a →
      cellRead u.store a = cellRead s.store a) := by
  have effect := ntSetParent_site (s := s.begin t) sound found site root
  refine changes_of (f := fun s => ntSetParent s upset) rfl effect h (.set (.nset (.start s t))) (fun u kept => ?_)
  have store := kept.store.trans (ntResult_store ..)
  refine ⟨?_, ?_, fun a out => ?_⟩
  · rw [kept.get _ (by decide), ntResult_result]
  · rw [ntBits_of_store store]
    exact ntBits_nset_self (s := s.begin t) wf (by decide)
  · rw [store]
    exact cellRead_nset (s := s.begin t) wf out

/-- Settles O42: each command writes one entry (`ntBits_ntWrite_self`), or the new parent's or primary's references and then another
entry, which leaves the first (`ntBits_ntWrite_ne`): a free way is not valid, a loop would be found, and no place has the number of
the site (`ntFind_lt`). -/
theorem nodeTableChanges : Obligations.NodeTableChanges := fun _ _ _ h wf =>
  ⟨ntInsertPrimary_changes h wf,
    fun key i p is sound absent primary room _ free => ntInsertAlias_changes h wf key i p is sound absent primary room free,
    ntDelete_changes h wf, ntSetParent_changes h wf, ntSetParent_changes_site h wf⟩

end NodeChanges
end Sys2Proof.Machine

namespace Sys2Proof.Machine

/-! ### Lookups, reads and repairs of the Node Table (R254, R258, R276) -/

section NodeReads

variable {t : Nat} {s v : State} {upset : List Nat}

/-! Showing an entry -/

theorem elsewhere_ntShow {fs : List Fld} {cs : List Nat} {ps : List Part} {i : Nat} (h : s.elsewhere v fs cs ps)
    (idx : Reg.FWD_NT_IDX_idx.key ∈ fs.map Fld.key) (words : ∀ m < 4, (Reg.FWD_NT_RD_word m).key ∈ fs.map Fld.key) :
    s.elsewhere (ntShow v i) fs cs ps :=
  elsewhere_foldl _ (h.set idx) (fun _ m hm k => k.set (words m (List.mem_range.1 hm)))

/-- Showing an entry changes idx and the words that show it. -/
theorem ntShow_frame (s : State) (i : Nat) :
    s.elsewhere (ntShow s i) (Reg.FWD_NT_IDX_idx :: (List.range 4).map Reg.FWD_NT_RD_word) [] [] :=
  elsewhere_ntShow (elsewhere_refl ..) (by decide) (by decide)

theorem ntShow_get (s : State) (i : Nat) {f : Fld}
    (other : f.key ∉ (Reg.FWD_NT_IDX_idx :: (List.range 4).map Reg.FWD_NT_RD_word).map Fld.key := by decide)
    (flag : chrFlagKey f.key = false := by decide) : (ntShow s i).get f = s.get f := (ntShow_frame s i).1 f flag other

theorem ntShow_fwd (s : State) (i : Nat) : (ntShow s i).fwd = s.fwd := (ntShow_frame s i).2.2.1 .fwd (by simp)

theorem ntShow_pwr (s : State) (i : Nat) : (ntShow s i).pwr = s.pwr := (ntShow_frame s i).2.2.1 .power (by simp)

theorem ntShow_idx (s : State) (i : Nat) : (ntShow s i).get Reg.FWD_NT_IDX_idx = i % 2 ^ 18 := by
  have words : (s.set Reg.FWD_NT_IDX_idx i).elsewhere (ntShow s i) ((List.range 4).map Reg.FWD_NT_RD_word) [] [] :=
    elsewhere_foldl _ (elsewhere_refl ..) (fun _ m hm k => k.set (key_mem_range _ (List.mem_range.1 hm) []))
  exact (words.1 _ (by decide) (by decide)).trans (State.get_set_self ..)

/-- A number is shown in the words, lowest first. -/
theorem ntWords_get (s : State) (e : Nat) {m : Nat} (h : m < 4) :
    ((List.range 4).foldl (fun s m => s.set (Reg.FWD_NT_RD_word m) (e / 2 ^ (32 * m))) s).get (Reg.FWD_NT_RD_word m) =
      e / 2 ^ (32 * m) % 2 ^ 32 := by
  refine get_foldl_set (x := fun m => e / 2 ^ (32 * m)) s (fun m n same => ?_) (List.mem_range.2 h)
  simp only [Fld.key, Reg.FWD_NT_RD_word] at same
  omega

/-- A fold that sets fields to values read of a part that no field is of, reads that part as it was. -/
theorem foldl_set_reads {part : State → Nat} (keep : ∀ (v : State) (f : Fld) (x : Nat), part (v.set f x) = part v)
    (field : Nat → Fld) (value : Nat → Nat → Nat) (l : List Nat) {v : State} {e : Nat} (h : part v = e) :
    l.foldl (fun v m => v.set (field m) (value (part v) m)) v = l.foldl (fun v m => v.set (field m) (value e m)) v := by
  induction l generalizing v with
  | nil => rfl
  | cons m r ih =>
    rw [List.foldl_cons, List.foldl_cons, h]
    exact ih ((keep ..).trans h)

theorem ntShow_eq (s : State) (i : Nat) : ntShow s i =
    (List.range 4).foldl (fun v m => v.set (Reg.FWD_NT_RD_word m) (ntBits s i / 2 ^ (32 * m))) (s.set Reg.FWD_NT_IDX_idx i) :=
  foldl_set_reads (part := fun v => ntBits v i) (fun v f x => ntBits_set v f x i) Reg.FWD_NT_RD_word
    (fun e m => e / 2 ^ (32 * m)) _ (ntBits_set ..)

theorem ntShow_word (s : State) (i : Nat) {m : Nat} (h : m < 4) :
    (ntShow s i).get (Reg.FWD_NT_RD_word m) = ntBits s i / 2 ^ (32 * m) % 2 ^ 32 := by
  rw [ntShow_eq, ntWords_get _ _ h]

/-- An entry shown by a command whose effect ends in its result is read in the words. -/
theorem ntShown_word {u : State} {i r : Nat} {m : Nat} (h : m < 4)
    (get : ∀ f : Fld, chrFlagKey f.key = false → f.key ∉ [Reg.PWR_PERM_CNT_count].map Fld.key →
      u.get f = (ntResult (ntShow v i) r).get f) :
    u.get (Reg.FWD_NT_RD_word m) = ntBits v i / 2 ^ (32 * m) % 2 ^ 32 := by
  have apart : ∀ m < 4, chrFlagKey (Reg.FWD_NT_RD_word m).key = false ∧
      (Reg.FWD_NT_RD_word m).key ∉ [Reg.PWR_PERM_CNT_count].map Fld.key ∧
      Reg.FWD_NT_CMD_result.key ≠ (Reg.FWD_NT_RD_word m).key := by decide
  obtain ⟨flag, count, result⟩ := apart m h
  rw [get _ flag count, ntResult_get _ _ result, ntShow_word v i h]

/-! Lookups -/

theorem ntLookup_hit {k key i : Nat} (is : key = keyFor (ntKey s) k) (sound : ∀ x ∈ ntReads s key k, ¬ x ∈ upset)
    (found : ntFind s key k = some i) : ntLookup s k upset = ntResult (ntShow (s.set Reg.FWD_NT_CMD_kind k) i) 0 := by
  subst is
  unfold ntLookup
  simp only [ntUpset_none sound, ntFind_setKind, found]

theorem ntLookup_miss {k key : Nat} (is : key = keyFor (ntKey s) k) (sound : ∀ x ∈ ntReads s key k, ¬ x ∈ upset)
    (absent : ntFind s key k = none) : ntLookup s k upset = ntResult (s.set Reg.FWD_NT_CMD_kind k) 1 := by
  subst is
  unfold ntLookup
  simp only [ntUpset_none sound, ntFind_setKind, absent]

theorem ntLookup_changes_hit (h : s.settled) (kind : Fin 2) (k key i : Nat) (kindIs : kind.val = k)
    (is : key = keyFor (ntKey s) k) (sound : ∀ x ∈ ntReads s key k, ¬ x ∈ upset) (found : ntFind s key k = some i)
    (low : i < 2 ^ 18) :
    changes (.ntLookup t kind upset) s ([Reg.FWD_NT_CMD_kind, Reg.FWD_NT_IDX_idx,
      Reg.FWD_NT_CMD_result] ++ (List.range 4).map Reg.FWD_NT_RD_word) [] [] (fun u =>
      u.get Reg.FWD_NT_CMD_result = 0 ∧ u.get Reg.FWD_NT_IDX_idx = i ∧ u.get Reg.FWD_NT_CMD_kind = k ∧ ∀ m, m < 4 →
      u.get (Reg.FWD_NT_RD_word m) = ntBits s i / 2 ^ (32 * m) % 2 ^ 32) := by
  have effect := ntLookup_hit (s := s.begin t) is sound found
  subst kindIs
  refine changes_of (f := fun s => ntLookup s kind.val upset) rfl effect h
    (.set (elsewhere_ntShow (.set (.start s t)) (by simp) (fun m hm => key_mem_range _ hm _))) (fun u kept => ⟨?_, ?_, ?_, ?_⟩)
  · rw [kept.get _ (by decide), ntResult_result]
  · rw [kept.get _ (by decide), ntResult_get, ntShow_idx]
    exact Nat.mod_eq_of_lt low
  · rw [kept.get _ (by decide), ntResult_get, ntShow_get, State.get_set_self]
    exact Nat.mod_eq_of_lt kind.isLt
  · intro m hm
    rw [ntShown_word hm (fun f flag _ => kept.get f flag)]
    rfl

theorem ntLookup_changes_miss (h : s.settled) (kind : Fin 2) (k key : Nat) (kindIs : kind.val = k)
    (is : key = keyFor (ntKey s) k) (sound : ∀ x ∈ ntReads s key k, ¬ x ∈ upset) (absent : ntFind s key k = none) :
    changes (.ntLookup t kind upset) s [Reg.FWD_NT_CMD_kind, Reg.FWD_NT_CMD_result] [] []
      (fun u => u.get Reg.FWD_NT_CMD_result = 1 ∧ u.get Reg.FWD_NT_CMD_kind = k) := by
  have effect := ntLookup_miss (s := s.begin t) is sound absent
  subst kindIs
  refine changes_of (f := fun s => ntLookup s kind.val upset) rfl effect h (.set (.set (.start s t))) (fun u kept => ⟨?_, ?_⟩)
  · rw [kept.get _ (by decide), ntResult_result]
  · rw [kept.get _ (by decide), ntResult_get, State.get_set_self]
    exact Nat.mod_eq_of_lt kind.isLt

/-! Reads -/

theorem ntRead_quiet {i : Nat} (is : i = s.get Reg.FWD_NT_IDX_idx) (quiet : ¬ i ∈ upset ∨ ntIsBad s i = true) :
    ntRead s upset = ntResult (ntShow s i) (if ntIsBad s i then 7 else 0) := by
  subst is
  have clean : ntUpset s [s.get Reg.FWD_NT_IDX_idx] upset = s := ntUpset_quiet (by simpa using quiet)
  unfold ntRead
  simp only [clean]

/-- A read marks an upset entry bad. -/
def ntMarked (s : State) (i : Nat) : State := s.onFwd (fun f => { f with ntBad := addOnce f.ntBad i })

theorem ntMarked_bad (s : State) (i : Nat) : ntIsBad (ntMarked s i) i = true := by
  unfold ntIsBad ntMarked State.onFwd addOnce
  dsimp only
  split <;> simp [*]

theorem ntMarked_pwr (s : State) (i : Nat) : (ntMarked s i).pwr = s.pwr := rfl

theorem ntRead_upset {i : Nat} (is : i = s.get Reg.FWD_NT_IDX_idx) (hit : i ∈ upset) (good : ntIsBad s i = false) :
    ntRead s upset = ntResult (ntShow (fwdParity (ntMarked s i) 0 i 160) i) 7 := by
  subst is
  have met : ntUpset s [s.get Reg.FWD_NT_IDX_idx] upset = fwdParity (ntMarked s (s.get Reg.FWD_NT_IDX_idx)) 0
      (s.get Reg.FWD_NT_IDX_idx) 160 := by
    unfold ntUpset
    rw [List.filter_cons_of_pos (by simp [hit, good])]
    rfl
  have bad : ntIsBad (fwdParity (ntMarked s (s.get Reg.FWD_NT_IDX_idx)) 0 (s.get Reg.FWD_NT_IDX_idx) 160)
      (s.get Reg.FWD_NT_IDX_idx) = true := (ntIsBad_of_fwd (fwdParity_fwd ..) _).trans (ntMarked_bad ..)
  unfold ntRead
  simp only [met, bad, if_true]

/-- A read with idx in its frame: it stores idx again. -/
theorem ntRead_changes (h : s.settled) (i : Nat) (is : i = s.get Reg.FWD_NT_IDX_idx) (low : i < 2 ^ 18)
    (quiet : ¬ i ∈ upset ∨ ntIsBad s i = true) :
    changes (.ntRead t upset) s ([Reg.FWD_NT_IDX_idx, Reg.FWD_NT_CMD_result] ++ (List.range 4).map Reg.FWD_NT_RD_word) [] []
      (fun u => u.get Reg.FWD_NT_IDX_idx = i ∧ u.get Reg.FWD_NT_CMD_result = (if ntIsBad s i then 7 else 0) ∧ ∀ m, m < 4 →
      u.get (Reg.FWD_NT_RD_word m) = ntBits s i / 2 ^ (32 * m) % 2 ^ 32) := by
  have effect := ntRead_quiet (s := s.begin t) is quiet
  refine changes_of (f := fun s => ntRead s upset) rfl effect h
    (.set (elsewhere_ntShow (.start s t) (by simp) (fun m hm => key_mem_range _ hm _))) (fun u kept => ⟨?_, ?_, ?_⟩)
  · rw [kept.get _ (by decide), ntResult_get, ntShow_idx]
    exact Nat.mod_eq_of_lt low
  · have same : ntIsBad (s.begin t) i = ntIsBad s i := rfl
    rw [kept.get _ (by decide), ntResult_result _ (by split <;> decide), same]
  · intro m hm
    rw [ntShown_word hm (fun f flag _ => kept.get f flag)]
    rfl

theorem fwdParity_store (s : State) (table index ev : Nat) : (fwdParity s table index ev).store = s.store := by
  simp [fwdParity]

/-- A read that meets a parity error, with idx in its frame. -/
theorem ntRead_changes_upset (h : s.settled) (i : Nat) (is : i = s.get Reg.FWD_NT_IDX_idx) (low : i < 2 ^ 18) (hit : i ∈ upset)
    (good : ntIsBad s i = false) :
    changes (.ntRead t upset) s ([Reg.FWD_NT_IDX_idx, Reg.FWD_NT_CMD_result] ++ (List.range 4).map Reg.FWD_NT_RD_word ++
      fwdParityFields [i]) (fwdParityCounts [i]) [.fwd, .power] (fun u => u.get Reg.FWD_NT_IDX_idx = i ∧
      u.get Reg.FWD_NT_CMD_result = 7 ∧ ntIsBad u i = true ∧
      u.get Reg.FWD_PAR_LOG_table = 0 ∧ u.get Reg.FWD_PAR_LOG_index = i ∧ u.get Reg.FWD_PAR_LOG_logged = 1 ∧
      u.fwd.pt = s.fwd.pt ∧ u.count Reg.FWD_CNT_PAR_ERR = (s.count Reg.FWD_CNT_PAR_ERR + 1) % 2 ^ 32 ∧ ∀ m, m < 4 →
      u.get (Reg.FWD_NT_RD_word m) = ntBits s i / 2 ^ (32 * m) % 2 ^ 32) := by
  have effect := ntRead_upset (s := s.begin t) is hit good
  obtain ⟨tableRead, indexRead, logged⟩ := fwdParity_log (ntMarked (s.begin t) i) 0 i 160
  have quiet : (ntMarked (s.begin t) i).noChannelFault := (h.noChannelFault t).same (ntMarked_pwr ..)
  refine changes_judged (f := fun s => ntRead s upset) rfl effect h (.set (elsewhere_ntShow
    (elsewhere_fwdParity (.onFwd (.start s t)) (by simp [fwdParityFields]) (by simp [fwdParityFields])
      (by simp [fwdParityFields]) (by simp [fwdParityCounts]) (by simp)) (by simp) (fun m hm => ?_)))
    (((quiet.fwdParity 0 i).same (ntShow_pwr ..)).same (ntResult_pwr ..)) (fun u judged => ?_) (by simp [fwdParityFields, fwdParityCounts])
  · rw [List.map_append]
    exact List.mem_append_left _ (key_mem_range _ hm _)
  have fwd : u.fwd = (ntMarked (s.begin t) i).fwd :=
    (judged.part .fwd).trans ((ntResult_fwd ..).trans ((ntShow_fwd ..).trans (fwdParity_fwd ..)))
  refine ⟨?_, ?_, ?_, ?_, ?_, ?_, ?_, ?_, fun m hm => ?_⟩
  · rw [judged.get (by decide) (by decide), ntResult_get, ntShow_idx]
    exact Nat.mod_eq_of_lt low
  · rw [judged.get (by decide) (by decide), ntResult_result]
  · rw [ntIsBad_of_fwd fwd, ntMarked_bad]
  · rw [judged.get (by decide) (by decide), ntResult_get, ntShow_get, tableRead]
  · rw [judged.get (by decide) (by decide), ntResult_get, ntShow_get, indexRead]
    exact Nat.mod_eq_of_lt low
  · rw [judged.get (by decide) (by decide), ntResult_get, ntShow_get, logged]
  · rw [fwd]
    rfl
  · rw [judged.count (by decide) (by decide), ntResult_count, (ntShow_frame ..).2.1 _ (by simp) (by decide), fwdParity_count]
    rfl
  · have entry : ntBits (fwdParity (ntMarked (s.begin t) i) 0 i 160) i = ntBits s i := ntBits_of_store (fwdParity_store ..) i
    rw [ntShown_word hm (fun f flag count => judged.get flag count), entry]

/-! Repairs -/

/-- The entry `x` is written whole at place `i`, with its version, and is not bad any more. -/
def ntRepaired (s : State) (i x : Nat) : State :=
  (ntWrite s i (putBits x Nt.ver.lo 2 (nget s i Nt.ver))).onFwd (fun f => { f with ntBad := f.ntBad.filter (· != i) })

theorem ntRepaired_good (s : State) (i x : Nat) : ntIsBad (ntRepaired s i x) i = false := by
  simp [ntIsBad, ntRepaired, State.onFwd]

theorem ntRepaired_store (s : State) (i x : Nat) :
    (ntRepaired s i x).store = (ntWrite s i (putBits x Nt.ver.lo 2 (nget s i Nt.ver))).store := rfl

theorem ntRepaired_get (s : State) (i x : Nat) (f : Fld) : (ntRepaired s i x).get f = s.get f := by
  simp [ntRepaired, ntWrite]

/-- The entry that NT_REPAIR forms of its registers, for the parent or primary `p`. -/
def ntFormed (s : State) (k p : Nat) : Nat :=
  entryBits (keyFor (ntKey s) k) (s.get Reg.FWD_NT_ARG_CTX_ctx) p (if k = 1 then 0 else 0xFF) (if k = 1 then 0 else 0xFF)
    (s.get Reg.FWD_NT_ARG_CTX_refs) k

theorem ntFormed_setKind (s : State) (n k p : Nat) : ntFormed (s.set Reg.FWD_NT_CMD_kind n) k p = ntFormed s k p := by
  unfold ntFormed
  rw [ntKey_setKind, State.get_set_ne _ _ (by decide), State.get_set_ne _ _ (by decide)]

theorem ntRepair_done {k i p : Nat} (is : i = s.get Reg.FWD_NT_IDX_idx) (entry : isEntry i = true)
    (sound : ∀ x ∈ ntReads s (ntArg s) 0, ¬ x ∈ upset)
    (parent : (if k = 1 then ntFind s (ntArg s) 0 else argParent s) = some p) :
    ntRepair s k upset = ntResult (if nget s i Nt.valid = 1 then ntRepaired (s.set Reg.FWD_NT_CMD_kind k) i (ntFormed s k p)
      else ntFill (ntRepaired (s.set Reg.FWD_NT_CMD_kind k) i (ntFormed s k p)) true) 0 := by
  rw [← ntFormed_setKind s k k p]
  have valid : nget (s.set Reg.FWD_NT_CMD_kind k) i Nt.valid = nget s i Nt.valid := rfl
  unfold ntRepair ntRepaired ntFormed
  rw [← is]
  simp only [ntUpset_none sound, ntArg_setKind, ntFind_setKind, argParent_setKind, parent, entry, Bool.not_true,
    Bool.false_eq_true, if_false, beq_iff_eq, valid]

/-- The fill level is no part of the entries. -/
theorem ntFillUnless_entries {c : Prop} [Decidable c] (w : State) :
    (if c then w else ntFill w true).store = w.store ∧ (if c then w else ntFill w true).fwd = w.fwd := by
  split <;> exact ⟨rfl, rfl⟩

theorem ntRepair_changes (h : s.settled) (wf : Memory.wf s.store = true) (kind : Fin 2) (k i p : Nat) (kindIs : kind.val = k)
    (is : i = s.get Reg.FWD_NT_IDX_idx) (entry : isEntry i = true) (sound : ∀ x ∈ ntReads s (ntArg s) 0, ¬ x ∈ upset)
    (parent : (if k = 1 then ntFind s (ntArg s) 0 else argParent s) = some p) :
    changes (.ntRepair t kind upset) s [Reg.FWD_NT_CMD_kind, Reg.FWD_NT_FILL_nt_fill,
      Reg.FWD_NT_CMD_result] [] [.store, .fwd] (fun u => u.get Reg.FWD_NT_CMD_result = 0 ∧
      ntBits u i = putBits (ntFormed s k p) Nt.ver.lo 2 (nget s i Nt.ver) ∧ ntIsBad u i = false ∧ (nget s i Nt.valid = 0 →
      u.get Reg.FWD_NT_FILL_nt_fill = (s.get Reg.FWD_NT_FILL_nt_fill + 1) % 2 ^ 19) ∧ ∀ a, a < ntBase i ∨
      ntBase i + 16 ≤ a → cellRead u.store a = cellRead s.store a) := by
  have effect := ntRepair_done (s := s.begin t) is entry sound parent
  subst kindIs
  have frame : s.elsewhere (ntRepaired ((s.begin t).set Reg.FWD_NT_CMD_kind kind.val) i (ntFormed (s.begin t) kind.val p))
      [Reg.FWD_NT_CMD_kind, Reg.FWD_NT_FILL_nt_fill, Reg.FWD_NT_CMD_result] [] [.store, .fwd] :=
    .onFwd (.ntWrite (.set (.start s t)))
  refine changes_of (f := fun s => ntRepair s kind.val upset) rfl effect h (.set ?_) (fun u kept => ?_)
  · split
    · exact frame
    · exact .set frame
  · obtain ⟨store, fwd⟩ := ntFillUnless_entries (c := nget (s.begin t) i Nt.valid = 1)
      (ntRepaired ((s.begin t).set Reg.FWD_NT_CMD_kind kind.val) i (ntFormed (s.begin t) kind.val p))
    have written := (kept.store.trans ((ntResult_store ..).trans store)).trans (ntRepaired_store ..)
    refine ⟨?_, ?_, ?_, fun free => ?_, fun a out => ?_⟩
    · rw [kept.get _ (by decide), ntResult_result]
    · have narrow : ntFormed (s.begin t) kind.val p < 2 ^ 128 := (entryBits_lt ..).trans (by decide)
      rw [ntBits_of_store written, ntBits_ntWrite_self (s := (s.begin t).set Reg.FWD_NT_CMD_kind kind.val) wf
        (putBits_lt narrow (by decide))]
      rfl
    · rw [ntIsBad_of_fwd (kept.fwd.trans ((ntResult_fwd ..).trans fwd)), ntRepaired_good]
    · have invalid : ¬ nget (s.begin t) i Nt.valid = 1 := fun valid => absurd (free.symm.trans valid) (by decide)
      rw [kept.get _ (by decide), ntResult_get, if_neg invalid, ntFill_get, ntRepaired_get, State.get_set_ne _ _ (by decide)]
      rfl
    · rw [written]
      exact cellRead_ntWrite (s := (s.begin t).set Reg.FWD_NT_CMD_kind kind.val) wf out

end NodeReads

/-! ### What O41 leaves out: a read stores idx again -/

/-- The machine after reset, but with idx of FWD_NT_IDX in the register map, at its reset value 0. No register write leaves such a
map (`State.set` lists no field at its reset value); nothing in `State.settled` keeps a state from having it. -/
def listedIdx : State := { State.reset with fields := [(Reg.FWD_NT_IDX_idx.key, 0)] }

theorem listedIdx_settled : listedIdx.settled := ⟨rfl, rfl, rfl⟩

/-- A field at the place of idx whose reset value is 1: no register of the table, but the frames speak of every `Fld`. -/
def idxFromOne : Fld := { Reg.FWD_NT_IDX_idx with rst := 1 }

/-- Refutes O41: a read stores in idx the index that stands there, and the third clause leaves idx out of its frame. In `listedIdx`
this takes idx out of the map, so `idxFromOne` reads 0 before and 1 after. That is all that fails: with idx in the frame and its
value among what is claimed, the two clauses on reads hold (`ntRead_changes`, `ntRead_changes_upset`), and those on lookups and
repairs hold as they stand (`ntLookup_changes_hit`, `ntLookup_changes_miss`, `ntRepair_changes`). -/
theorem not_nodeTableLooksUp : ¬ Obligations.NodeTableLooksUp := by
  intro h
  obtain ⟨-, -, reads, -⟩ := h 0 [] listedIdx listedIdx_settled
  obtain ⟨u, hu, ⟨same, -⟩, -⟩ := reads 0 rfl (by decide) (.inl (by decide))
  obtain ⟨v, hv, kept⟩ := act_kept (s := listedIdx) (t := 0) (f := fun s => ntRead s []) rfl rfl rfl
  cases hu.symm.trans hv
  have stays : u.get idxFromOne = 0 := same idxFromOne (by decide) (by decide)
  have after : (ntRead (listedIdx.begin 0) []).get idxFromOne = 1 := by decide
  rw [kept.get _ (by decide), after] at stays
  exact absurd stays (by decide)

end Sys2Proof.Machine

namespace Sys2Proof.Machine

set_option Elab.async false

/-! ### Fuses go forward alone (R303, R304, R394, R402) -/

section Fuses

variable {s v u : State}

/-- From `s` to `u` no fuse goes back: not the life-cycle state, not the anti-rollback counter, and signer hash 1 stays. -/
def fusesForward (s u : State) : Prop :=
  s.fuses.lcState ≤ u.fuses.lcState ∧ s.fuses.rollback ≤ u.fuses.rollback ∧
    ∀ x, s.fuses.signer1 = some x → u.fuses.signer1 = some x

theorem fusesForward_refl (s : State) : fusesForward s s := ⟨le_rfl, le_rfl, fun _ => id⟩

theorem fusesForward_trans (h : fusesForward s v) (k : fusesForward v u) : fusesForward s u := by
  obtain ⟨lc, rollback, signer⟩ := h
  obtain ⟨lc', rollback', signer'⟩ := k
  exact ⟨lc.trans lc', rollback.trans rollback', fun x hx => signer' x (signer x hx)⟩

/-- What undoes nothing takes no fuse back: a change of state in progress is to a later one. -/
theorem Grows.fusesForward (g : Grows s u) (h : s.Inv) : fusesForward s u := by
  obtain ⟨-, -, -, -, lc⟩ := h
  exact ⟨(g.lc lc).2, g.rollback, g.signer⟩

/-- The release of chip reset, which restarts the LTB where it acts, leaves the fuses to go forward alone. -/
theorem chipResetRelease_fusesForward (h : s.Inv) : fusesForward s (chipResetRelease s) := by
  cases early : (!s.pwr.held || s.pwr.porLow || !holdOver s) with
  | true =>
    rw [chipResetRelease, if_pos early]
    exact fusesForward_refl s
  | false => exact (chipResetRelease_grows (Grows.refl _) early).fusesForward (h.ltb 0)

theorem exec_fusesForward {c : Instr} (h : s.Inv) (e : exec c s = .next u) : fusesForward s u := by
  by_cases release : ∃ t, c = .chipResetRelease t
  · obtain ⟨t, rfl⟩ := release
    obtain rfl := Host.Outcome.next.inj e
    have begun : (s.begin t).Inv := begin_grows.inv (h.ltb _)
    have ended := (finish_grows (Grows.refl _)).fusesForward (chipResetRelease_keepsInv begun)
    exact fusesForward_trans (v := chipResetRelease (s.begin t)) (chipResetRelease_fusesForward begun) ended
  · exact (exec_grows (fun t is => release ⟨t, is⟩) e).fusesForward (h.ltb _)

/-- Settles O5: a step runs the command in front, which takes no fuse back, or idles. -/
theorem fusesOnlyGoForward : Obligations.FusesOnlyGoForward := by
  intro s u h e
  unfold step at e
  split at e
  · obtain rfl := Host.Outcome.next.inj e
    exact fusesForward_refl s
  next c rest front => exact exec_fusesForward (s := { s with pending := rest }) h e

end Fuses
end Sys2Proof.Machine

namespace Sys2Proof.Machine

set_option Elab.async false

/-! ### The life cycle, the enable and the key cache (R303, R304, R311, R318) -/

/-- An entry of a table whose entries are changed in place. -/
theorem tabGet_map {α : Type} (g : Nat → α → α) (m : Tab α) (k : Nat) :
    tabGet (m.map (fun e => (e.1, g e.1 e.2))) k = (tabGet m k).map (g k) := by
  induction m with
  | nil => rfl
  | cons e r ih =>
    obtain ⟨i, a⟩ := e
    simp only [List.map_cons, tabGet]
    split
    next same => rw [same, Option.map_some]
    · exact ih

/-- What a slot shows is in the table of slots. -/
theorem jslot_congr {s v : State} (slots : v.jwl.slots = s.jwl.slots) (k : Nat) : jslot v k = jslot s k := by
  unfold jslot
  rw [slots]

theorem jslot_stored (s : State) {k : Nat} (h : 2 ≤ k) : jslot s k = tabGetD s.jwl.slots k {} := by
  unfold jslot
  rw [if_neg (by omega), if_neg (by omega)]

section LifeCycle

variable {t : Nat} {s : State}

theorem jwlEnable_changes (h : s.settled) (known : s.get Reg.JWL_STATUS_lc_read ≠ 0) :
    changes (.jwlEnable t) s [Reg.JWL_CTRL_enable] [] [] (fun u => u.get Reg.JWL_CTRL_enable = 1) := by
  have effect : jwlEnable (s.begin t) = (s.begin t).set Reg.JWL_CTRL_enable 1 := if_pos (State.on_iff.2 known)
  refine changes_of (f := jwlEnable) rfl effect h (.set (.start s t)) (fun u kept => ?_)
  rw [kept.get _ (by decide), State.get_set_self]
  rfl

theorem jwlDisable_changes (h : s.settled) :
    changes (.jwlDisable t) s [Reg.JWL_CTRL_enable] [] [] (fun u => u.get Reg.JWL_CTRL_enable = 0) := by
  refine changes_of (f := jwlDisable) rfl rfl h (.set (.start s t)) (fun u kept => ?_)
  rw [kept.get _ (by decide)]
  exact State.get_set_self ..

theorem lcRead_changes (h : s.settled) (unread : s.get Reg.JWL_STATUS_lc_read = 0) (time : s.jwl.lcReadAt ≤ max s.ltb t)
    (fits : s.fuses.lcState < 8) :
    changes (.lcRead t) s [Reg.JWL_STATUS_lc_state, Reg.JWL_STATUS_lc_read] [] [] (fun u =>
      u.get Reg.JWL_STATUS_lc_state = s.fuses.lcState ∧ u.get Reg.JWL_STATUS_lc_read = 1) := by
  have effect : lcRead (s.begin t) =
      ((s.begin t).set Reg.JWL_STATUS_lc_state s.fuses.lcState).set Reg.JWL_STATUS_lc_read 1 := by
    exact if_neg (by simpa [State.on, unread, -le_sup_iff] using Nat.not_lt.2 time)
  refine changes_of (f := lcRead) rfl effect h (.set (.set (.start s t))) (fun u kept => ⟨?_, ?_⟩)
  · rw [kept.get _ (by decide), State.get_set_ne _ _ (by decide), State.get_set_self]
    exact Nat.mod_eq_of_lt fits
  · rw [kept.get _ (by decide), State.get_set_self]
    rfl

/-- A change of state under way (R304): the fuses burn until 5 ms from now, and no key is left. -/
def lcChanging (s : State) (target : Nat) : State :=
  (((s.set Reg.JWL_LC_CMD_target target).set Reg.JWL_LC_RES_result 0).set Reg.JWL_STATUS_lc_busy 1).onJwl (fun j => { j with
    slots := j.slots.map (fun e => (e.1, { gen := e.2.gen })), cache := []
    jobs := j.jobs.map (fun e => (e.1, lcJob e.2))
    lcTarget := some (target, s.ltb + 5000000) })

theorem lifeCycleChange_allowed {w target : Nat} (idle : s.get Reg.JWL_STATUS_lc_busy = 0) (secure : masterSecure w = true)
    (allowed : lcTransition (lcState s) target = true) (plain : target ≠ 3) :
    lifeCycleChange s w target = (lcChanging s target).set Reg.JWL_CACHE_entries 0 := by
  have steady : lcBusy s = false := State.on_eq_false.2 idle
  have may : lcTransition (lcState (s.set Reg.JWL_LC_CMD_target target)) target = true := allowed
  unfold lifeCycleChange
  simp [steady, secure, may, plain]
  rfl

theorem lcChanging_slot (s : State) (target : Nat) {k : Nat} (h : 2 ≤ k) :
    jslot (lcChanging s target) k = { gen := (jslot s k).gen } := by
  rw [jslot_stored _ h, jslot_stored _ h]
  have entry : tabGet (lcChanging s target).jwl.slots k = (tabGet s.jwl.slots k).map (fun x => { gen := x.gen }) :=
    tabGet_map (fun _ (x : Slot) => ({ gen := x.gen } : Slot)) ..
  unfold tabGetD
  rw [entry]
  cases tabGet s.jwl.slots k <;> rfl

theorem lifeCycleChange_changes {w : Fin 4} {target : BitVec 3} (h : s.settled) (idle : s.get Reg.JWL_STATUS_lc_busy = 0)
    (secure : masterSecure w = true) (own : w = 3 → s.get Reg.CRN_STATUS_handed_over = 0)
    (allowed : lcTransition (lcState s) target.toNat = true) (plain : target ≠ 3) :
    changes (.lifeCycleChange t w target) s [Reg.JWL_LC_CMD_target, Reg.JWL_LC_RES_result, Reg.JWL_STATUS_lc_busy,
      Reg.JWL_CACHE_entries] [] [.jwl] (fun u => u.get Reg.JWL_LC_CMD_target = target.toNat ∧
      u.get Reg.JWL_LC_RES_result = 0 ∧ u.get Reg.JWL_STATUS_lc_busy = 1 ∧ u.get Reg.JWL_CACHE_entries = 0 ∧
      u.jwl.cache = [] ∧ u.jwl.lcTarget = some (target.toNat, max s.ltb t + 5000000) ∧ ∀ k, 2 ≤ k →
      jslot u k = { gen := (jslot s k).gen }) := by
  have master : (if w.val = 3 ∧ (s.begin t).on Reg.CRN_STATUS_handed_over then 2 else w.val) = w.val :=
    if_neg (fun ⟨crown, left⟩ => State.on_iff.1 left (own (Fin.ext crown)))
  have notReturned : target.toNat ≠ 3 := fun is => plain (BitVec.eq_of_toNat_eq is)
  have effect := lifeCycleChange_allowed (s := s.begin t) idle secure allowed notReturned
  refine changes_of (f := fun s => lifeCycleChange s (if w.val = 3 ∧ s.on Reg.CRN_STATUS_handed_over then 2 else w.val)
    target.toNat) rfl ((congrArg (lifeCycleChange (s.begin t) · target.toNat) master).trans effect) h
    (.set (.onJwl (.set (.set (.set (.start s t)))))) (fun u kept => ?_)
  have jwl : u.jwl = (lcChanging (s.begin t) target.toNat).jwl := kept.jwl
  have slot (k : Nat) : jslot u k = jslot (lcChanging (s.begin t) target.toNat) k := jslot_congr (congrArg Jwl.slots jwl) k
  refine ⟨?_, ?_, ?_, ?_, congrArg Jwl.cache jwl, congrArg Jwl.lcTarget jwl, fun k hk => (slot k).trans (lcChanging_slot _ _ hk)⟩
  all_goals rw [kept.get _ (by decide)]
  · simp (disch := decide) only [lcChanging, State.onJwl_get, State.get_set_ne, State.get_set_self]
    exact Nat.mod_eq_of_lt target.isLt
  all_goals simp (disch := decide) [lcChanging, State.get_set_ne]

theorem lifeCycleChangeDone_changes {x due : Nat} (h : s.settled) (target : s.jwl.lcTarget = some (x, due))
    (time : due ≤ max s.ltb t) (fits : x < 8) :
    changes (.lifeCycleChangeDone t) s [Reg.JWL_STATUS_lc_state, Reg.JWL_STATUS_lc_busy] [] [.jwl, .fuses] (fun u =>
      u.get Reg.JWL_STATUS_lc_state = x ∧ u.get Reg.JWL_STATUS_lc_busy = 0 ∧ u.fuses = { s.fuses with lcState := x } ∧
      u.jwl = { s.jwl with lcTarget := none } ∧ 197 ∈ u.hif.pend) := by
  have effect : lifeCycleChangeDone (s.begin t) =
      (((({ s.begin t with fuses := { s.fuses with lcState := x } } : State).onJwl (fun j =>
        { j with lcTarget := none })).set Reg.JWL_STATUS_lc_state x).set Reg.JWL_STATUS_lc_busy 0).raise 197 := by
    unfold lifeCycleChangeDone
    rw [begin_jwl, target]
    exact if_neg (Nat.not_lt.2 time)
  refine changes_of (f := lifeCycleChangeDone) rfl effect h
    (.raise (.set (.set (.onJwl (elsewhere_fuses (.start s t) _ (by simp)))))) (fun u kept => ⟨?_, ?_, ?_, ?_, ?_⟩)
  · rw [kept.get _ (by decide), State.raise_get, State.get_set_ne _ _ (by decide), State.get_set_self]
    exact Nat.mod_eq_of_lt fits
  · rw [kept.get _ (by decide), State.raise_get, State.get_set_self]
    rfl
  · rw [kept.fuses, State.raise_fuses]
    rfl
  · rw [kept.jwl, State.raise_jwl]
    rfl
  · exact kept.pend _ (raise_pend ..)

theorem cacheFlush_changes (h : s.settled) :
    changes (.cacheFlush t) s [Reg.JWL_CACHE_entries] [] [.jwl] (fun u => u.jwl = { s.jwl with cache := [] } ∧
      u.get Reg.JWL_CACHE_entries = 0) := by
  refine changes_of (f := cacheFlush) rfl rfl h (.set (.onJwl (.start s t))) (fun u kept => ⟨kept.jwl, ?_⟩)
  rw [kept.get _ (by decide)]
  exact State.get_set_self ..

/-- Settles O48: each command by its whole effect; an allowed change is `lcChanging`, which leaves of each slot its generation. -/
theorem lifeCycleCompletes : Obligations.LifeCycleCompletes := fun _ _ h =>
  ⟨jwlEnable_changes h, jwlDisable_changes h, lcRead_changes h, fun _ _ => lifeCycleChange_changes h,
    fun _ _ => lifeCycleChangeDone_changes h, cacheFlush_changes h⟩

end LifeCycle
end Sys2Proof.Machine

namespace Sys2Proof.Machine

set_option Elab.async false

/-! ### What the tests of keys look at (R303, R305, R306, R307)

Slots and the life-cycle state alone: a command that writes registers on its way changes no test. -/

section KeyTests

variable {s v : State}

theorem chainRevoked_congr (slots : v.jwl.slots = s.jwl.slots) (n k : Nat) : chainRevoked n v k = chainRevoked n s k := by
  induction n generalizing k with
  | zero => rfl
  | succ n ih => simp only [chainRevoked, jslot_congr slots, ih]

theorem chainEmpty_congr (slots : v.jwl.slots = s.jwl.slots) (n k : Nat) : chainEmpty n v k = chainEmpty n s k := by
  induction n generalizing k with
  | zero => rfl
  | succ n ih => simp only [chainEmpty, jslot_congr slots, ih]

theorem slotAlive_congr (slots : v.jwl.slots = s.jwl.slots) (k : Nat) : slotAlive v k = slotAlive s k := by
  simp only [slotAlive, chainRevoked_congr slots, chainEmpty_congr slots]

theorem parentTest_congr (slots : v.jwl.slots = s.jwl.slots) (p : Nat) : parentTest v p = parentTest s p := by
  simp only [parentTest, slotAlive_congr slots, jslot_congr slots]

theorem lcAllows_congr (fuses : v.fuses = s.fuses) (kind m : Nat) : lcAllows v kind m = lcAllows s kind m := by
  unfold lcAllows lcState
  rw [fuses]

theorem useTest_congr (slots : v.jwl.slots = s.jwl.slots) (fuses : v.fuses = s.fuses) (k m kind : Nat) :
    useTest v k m kind = useTest s k m kind := by
  unfold useTest lcState
  rw [slotAlive_congr slots, jslot_congr slots, lcAllows_congr fuses, fuses]

theorem loadTest_congr (slots : v.jwl.slots = s.jwl.slots) (fuses : v.fuses = s.fuses) (w k : Nat) (x : Slot) :
    loadTest v w k x = loadTest s w k x := by
  simp only [loadTest, parentTest_congr slots, jslot_congr slots, lcAllows_congr fuses]

theorem deriveTest_congr (slots : v.jwl.slots = s.jwl.slots) (fuses : v.fuses = s.fuses) (w k : Nat) (x : Slot) :
    deriveTest v w k x = deriveTest s w k x := by
  simp only [deriveTest, parentTest_congr slots, jslot_congr slots, useTest_congr slots fuses]

/-- A load goes to a slot of the store proper. -/
theorem two_le_of_loadTest {w k : Nat} {x : Slot} (h : loadTest s w k x = 0) : 2 ≤ k := by
  by_contra low
  rw [loadTest, if_pos (by omega)] at h
  cases h

/-- So does a derive, since slots 0 and 1 are VALID; its key is no public key and has a parent. -/
theorem deriveTest_passed {w k : Nat} {x : Slot} (h : deriveTest s w k x = 0) : 2 ≤ k ∧ x.type < 4 ∧ x.parent ≠ 0x3FF := by
  unfold deriveTest at h
  split at h
  · cases h
  next type =>
    split at h
    · cases h
    next valid =>
      split at h
      · cases h
      next parent =>
        refine ⟨?_, by omega, parent⟩
        by_contra low
        obtain rfl | rfl : k = 0 ∨ k = 1 := by omega
        · exact valid rfl
        · exact valid rfl

/-- The part's own slots are never REVOKED (R305). -/
theorem two_le_of_chainRevoked {n k : Nat} (h : chainRevoked n s k = true) : 2 ≤ k := by
  by_contra low
  cases n with
  | zero => cases h
  | succ n =>
    obtain rfl | rfl : k = 0 ∨ k = 1 := by omega
    · simp [chainRevoked, jslot, rootSlot] at h
    · simp [chainRevoked, jslot, attestSlot] at h

theorem jslot_setJslot (s : State) {k : Nat} (x : Slot) (h : 2 ≤ k) (i : Nat) :
    jslot (setJslot s k x) i = if i = k then x else jslot s i := by
  by_cases same : i = k
  · subst same
    rw [if_pos rfl, jslot_stored _ h, setJslot, State.onJwl_jwl]
    exact tabGetD_put_self ..
  · rw [if_neg same]
    unfold jslot setJslot tabGetD
    rw [State.onJwl_jwl, tabGet_put_ne _ _ (Ne.symm same)]

end KeyTests

/-! ### Words in registers -/

section Words

variable {s v : State}

theorem wordsOf_congr {f : Nat → Fld} {n : Nat} (h : ∀ i < n, v.get (f i) = s.get (f i)) : wordsOf v f n = wordsOf s f n := by
  unfold wordsOf
  exact List.flatMap_congr (fun i hi => by rw [h i (List.mem_range.1 hi)])

/-- Fields that begin at different bits are different. -/
theorem key_ne_of_lo {f g : Fld} (hf : f.lo < 32) (hg : g.lo < 32) (h : f.lo ≠ g.lo) : f.key ≠ g.key := by
  unfold Fld.key
  omega

/-- Fields elsewhere than in the array stay. -/
theorem foldl_set_get {α : Type} {g : α → Fld} (x : α → Nat) {f : Fld} (apart : ∀ a, (g a).key ≠ f.key) (l : List α) (s : State) :
    (l.foldl (fun s a => s.set (g a) (x a)) s).get f = s.get f :=
  foldl_same (f := fun s a => s.set (g a) (x a)) (fun v => v.get f) l s (fun v a => State.get_set_ne v (x a) (apart a))

theorem octetsAt_length (l : List Byte) (i n : Nat) : (octetsAt l i n).length = n := by
  simp [octetsAt]

/-- Octets put into words are read back. -/
theorem wordsOf_setWords {f : Nat → Fld} {l : List Byte} {n : Nat} (s : State) (length : l.length = 4 * n)
    (width : ∀ i, (f i).w = 32) (inj : ∀ i j, (f i).key = (f j).key → i = j) : wordsOf (setWords s f l) f n = l := by
  have count : l.length / 4 = n := by omega
  have word : ∀ i < n, leOctets 4 ((setWords s f l).get (f i)) = (l.drop (4 * i)).take 4 := by
    intro i hi
    have inside : 4 * i + 4 ≤ l.length := by omega
    have four := octetsAt_length l (4 * i) 4
    have small : ofLe (octetsAt l (4 * i) 4) < 2 ^ 32 := (ofLe_lt _).trans_eq (by rw [four]; rfl)
    have stored : (setWords s f l).get (f i) = ofLe (octetsAt l (4 * i) 4) := by
      unfold setWords
      rw [get_foldl_set s inj (List.mem_range.2 (count ▸ hi)), width, Nat.mod_eq_of_lt small]
    have back := leOctets_ofLe (octetsAt l (4 * i) 4)
    rw [four] at back
    rw [stored, back, octetsAt_of_le inside]
  unfold wordsOf
  rw [List.flatMap_congr (fun i hi => word i (List.mem_range.1 hi)), flatMap_pieces, List.take_of_length_le (by omega)]

end Words

/-! ### SHA-256 gives 32 octets -/

theorem advance_lengths {c : DigestChain} (k : BitVec 32) (up : c.up.length = 4) (low : c.low.length = 4) :
    (c.advance k).up.length = 4 ∧ (c.advance k).low.length = 4 := by
  simp [DigestChain.advance, up, low]

theorem digestBlock_length (ks : List (BitVec 32)) {l : List (BitVec 32)} (block : List Byte) (h : l.length = 8) :
    (digestBlock ks l block).length = 8 := by
  have words (c : DigestChain) (start : c.up.length = 4 ∧ c.low.length = 4) :
      (ks.foldl DigestChain.advance c).up.length = 4 ∧ (ks.foldl DigestChain.advance c).low.length = 4 :=
    List.foldlRecOn (motive := fun c : DigestChain => c.up.length = 4 ∧ c.low.length = 4) ks _ start
      (fun c ⟨up, low⟩ k _ => advance_lengths k up low)
  obtain ⟨up, low⟩ := words
    ⟨l.take 4, l.drop 4, (List.range 16).map (fun i => BitVec.ofNat 32 (ofBe (octetsAt block (4 * i) 4)))⟩ (by simp [h])
  simp [digestBlock, up, low, h]

theorem sha256_length (m : List Byte) : (sha256 m).length = 32 := by
  have start : ((firstPrimes.take 8).map (rootFraction 2)).length = 8 := by
    rw [List.length_map]
    decide +kernel
  have digest (l : List (List Byte)) (ks : List (BitVec 32)) :
      (l.foldl (digestBlock ks) ((firstPrimes.take 8).map (rootFraction 2))).length = 8 :=
    List.foldlRecOn (motive := fun d : List (BitVec 32) => d.length = 8) l _ start
      (fun _ h block _ => digestBlock_length ks block h)
  unfold sha256
  simp only [List.length_flatMap, beOctets, List.length_reverse, leOctets_length, List.map_const', List.sum_replicate,
    digest]
  rfl

end Sys2Proof.Machine

namespace Sys2Proof.Machine

set_option Elab.async false

/-! ### Window jobs begin (R301, R304, R307, R318) -/

section JobStart

variable {t k op : Nat} {w : Fin 4} {s v : State} {j : Job}

/-- No register of JWL is a flag of the Chronograph. -/
theorem jwl_flag {f : Fld} (off : f.off < 0xf0000) (lo : f.lo < 32) : chrFlagKey f.key = false :=
  chrFlag_low (by unfold Fld.key; omega)

/-- The registers of a window lie in JWL. -/
theorem window_off (w : Fin 4) : 0xe1000 + 0x400 * w.val < 0xf0000 := by omega

/-- A window shows the operand of its command, and is busy. -/
def jobTaken (s : State) (w k : Nat) : State := (s.set (Reg.JWL_CMD_slot w) k).set (Reg.JWL_CMD_busy w) 1

@[simp] theorem jobTaken_jwl (s : State) (w k : Nat) : (jobTaken s w k).jwl = s.jwl := rfl

/-- Registers other than the window's JWL_CMD, and of it the fields that begin elsewhere than slot and busy, stay. -/
theorem jobTaken_get (s : State) (w k : Nat) {f : Fld} (h : f.off ≠ (Reg.JWL_CMD_busy w).off ∧ f.lo < 32 ∨ f.lo = 0) :
    (jobTaken s w k).get f = s.get f := by
  have slot : (Reg.JWL_CMD_slot w).key ≠ f.key := by
    simp only [Fld.key, Reg.JWL_CMD_slot, Reg.JWL_CMD_busy] at h ⊢
    omega
  have busy : (Reg.JWL_CMD_busy w).key ≠ f.key := by
    simp only [Fld.key, Reg.JWL_CMD_busy] at h ⊢
    omega
  rw [jobTaken, State.get_set_ne _ _ busy, State.get_set_ne _ _ slot]

/-- Registers outside the windows stay. -/
theorem jobTaken_get_outside (s : State) (w : Fin 4) (k : Nat) {f : Fld} (h : f.off < 0xe1000 ∨ 0xf0000 ≤ f.off) (lo : f.lo < 32) :
    (jobTaken s w k).get f = s.get f := by
  refine jobTaken_get s w k (.inl ⟨?_, lo⟩)
  have inside := window_off w
  show f.off ≠ 0xe1000 + 0x400 * w.val
  omega

theorem jobTaken_busy (s : State) (w k : Nat) : (jobTaken s w k).get (Reg.JWL_CMD_busy w) = 1 := State.get_set_self ..

theorem jobTaken_slot (s : State) (w : Nat) (k : Fin 1024) : (jobTaken s w k).get (Reg.JWL_CMD_slot w) = k := by
  have apart : (Reg.JWL_CMD_busy w).key ≠ (Reg.JWL_CMD_slot w).key := by simp [Fld.key, Reg.JWL_CMD_slot, Reg.JWL_CMD_busy]
  rw [jobTaken, State.get_set_ne _ _ apart, State.get_set_self]
  exact Nat.mod_eq_of_lt k.isLt

/-- Words staged in a window are taken as they are. -/
theorem jobTaken_wordsOf (s : State) (w k : Nat) {f : Nat → Fld} (n : Nat) (word : ∀ i, (f i).lo = 0) :
    wordsOf (jobTaken s w k) f n = wordsOf s f n :=
  wordsOf_congr (fun i _ => jobTaken_get s w k (.inr (word i)))

theorem jobTaken_staged (s : State) (w k : Nat) : stagedSlot (jobTaken s w k) w = stagedSlot s w := by
  have attr {f : Fld} (off : f.off = 0xe1004 + 0x400 * w) (lo : f.lo < 32) : (jobTaken s w k).get f = s.get f := by
    refine jobTaken_get s w k (.inl ⟨?_, lo⟩)
    rw [off]
    simp [Reg.JWL_CMD_busy]
  have auth : (jobTaken s w k).on (Reg.JWL_ATTR_lc_auth w) = s.on (Reg.JWL_ATTR_lc_auth w) :=
    congrArg (· != 0) (attr rfl (by decide : 24 < 32))
  unfold stagedSlot
  rw [attr (f := Reg.JWL_ATTR_type w) rfl (by decide : 0 < 32), attr (f := Reg.JWL_ATTR_world w) rfl (by decide : 3 < 32),
    attr (f := Reg.JWL_ATTR_masters w) rfl (by decide : 4 < 32), attr (f := Reg.JWL_ATTR_lc_mask w) rfl (by decide : 9 < 32),
    attr (f := Reg.JWL_ATTR_parent w) rfl (by decide : 14 < 32), auth, jobTaken_get s w k (f := Reg.JWL_DOMAIN_domain w) (.inr rfl),
    jobTaken_wordsOf s w k 16 (fun _ => rfl)]

theorem Kept.cmdBusy {u : State} (k : Kept s u) (w : Fin 4) : u.get (Reg.JWL_CMD_busy w) = s.get (Reg.JWL_CMD_busy w) :=
  k.get _ (jwl_flag (window_off w) (by decide : 16 < 32))

theorem Kept.cmdSlot {u : State} (k : Kept s u) (w : Fin 4) : u.get (Reg.JWL_CMD_slot w) = s.get (Reg.JWL_CMD_slot w) :=
  k.get _ (jwl_flag (window_off w) (by decide : 4 < 32))

theorem Kept.cmdResult {u : State} (k : Kept s u) (w : Fin 4) : u.get (Reg.JWL_CMD_result w) = s.get (Reg.JWL_CMD_result w) :=
  k.get _ (jwl_flag (window_off w) (by decide : 20 < 32))

theorem elsewhere_jobTaken {fs : List Fld} {cs : List Nat} {ps : List Part} (h : s.elsewhere v fs cs ps)
    (slot : (Reg.JWL_CMD_slot w).key ∈ fs.map Fld.key := by simp) (busy : (Reg.JWL_CMD_busy w).key ∈ fs.map Fld.key := by simp) :
    s.elsewhere (jobTaken v w k) fs cs ps := .set (.set h slot) busy

/-- A window may take a command: it is idle and its master's own, the store is enabled and in no change of state. -/
structure WindowReady (s : State) (w : Fin 4) : Prop where
  idle : s.get (Reg.JWL_CMD_busy w) = 0
  steady : s.get Reg.JWL_STATUS_lc_busy = 0
  on : s.get Reg.JWL_CTRL_enable ≠ 0
  own : w = 3 → s.get Reg.CRN_STATUS_handed_over = 0

theorem WindowReady.begin (r : WindowReady s w) (t : Nat) : WindowReady (s.begin t) w := ⟨r.idle, r.steady, r.on, r.own⟩

theorem WindowReady.inWindow_eq (r : WindowReady s w) (f : State → State) : inWindow s w f = f s :=
  if_neg (fun ⟨crown, left⟩ => State.on_iff.1 left (r.own (Fin.ext crown)))

/-- The job of a window: a command that is not denied is entered in its window with what its own part `run` gives. -/
theorem WindowReady.jobStart_eq {run : State → Job × State} (r : WindowReady s w) (ran : run (jobTaken s w k) = (j, v))
    (granted : j.result ≠ some 1 ∧ j.result ≠ some 2 := by simp) :
    jobStart s w op k run = v.onJwl (fun x => { x with jobs := tabPut x.jobs w j }) := by
  have idle : s.on (Reg.JWL_CMD_busy w) = false := State.on_eq_false.2 r.idle
  have steady : lcBusy (jobTaken s w k) = false :=
    State.on_eq_false.2 ((jobTaken_get s w k (.inl (by simp [Reg.JWL_STATUS_lc_busy, Reg.JWL_CMD_busy]; omega))).trans r.steady)
  have on : (jobTaken s w k).on Reg.JWL_CTRL_enable = true :=
    State.on_iff.2 (by rw [jobTaken_get s w k (.inr rfl)]; exact r.on)
  unfold jobTaken at steady on ran
  unfold jobStart
  simp [idle, steady, on, ran, granted]

/-- How a command of a window is shown to change no more than its frame: `run` is what it does when it is taken. -/
theorem changes_job {c : Instr} {run : State → Job × State} {k : Fin 1024} {fs : List Fld} {P : State → Prop} (h : s.settled)
    (r : WindowReady s w) (e : exec c s = act t s (fun s => inWindow s w (fun s => jobStart s w op k run)))
    (ran : run (jobTaken (s.begin t) w k) = (j, v)) (frame : s.elsewhere v fs [] [.jwl])
    (shown : ∀ f ∈ [Reg.JWL_CMD_busy w, Reg.JWL_CMD_slot w], v.get f = (jobTaken (s.begin t) w k).get f)
    (hP : ∀ u, Kept (v.onJwl (fun x => { x with jobs := tabPut x.jobs w j })) u → P u)
    (granted : j.result ≠ some 1 ∧ j.result ≠ some 2 := by simp) :
    changes c s fs [] [.jwl] (fun u => u.get (Reg.JWL_CMD_busy w) = 1 ∧ u.get (Reg.JWL_CMD_slot w) = k ∧ P u) := by
  have effect : inWindow (s.begin t) w (fun s => jobStart s w op k run) =
      v.onJwl (fun x => { x with jobs := tabPut x.jobs w j }) :=
    ((r.begin t).inWindow_eq _).trans ((r.begin t).jobStart_eq ran granted)
  refine changes_of e effect h (.onJwl frame) (fun u kept => ⟨?_, ?_, hP u kept⟩)
  · rw [kept.cmdBusy, State.onJwl_get, shown _ (by simp), jobTaken_busy]
  · rw [kept.cmdSlot, State.onJwl_get, shown _ (by simp), jobTaken_slot]

end JobStart
end Sys2Proof.Machine

namespace Sys2Proof.Machine

set_option Elab.async false

/-! ### Hashes, signatures, measurements and attestation (R306, R307, R316, R317) -/

section KeyServices

variable {t n : Nat} {w : Fin 4} {k : Fin 1024} {l : List Byte} {s : State}

theorem jobData_taken (len : n = s.get (Reg.JWL_JOB_LEN_len w)) (filled : 0 < n) (most : n ≤ 0x1000000) (c : Nat) :
    jobData (jobTaken s w c) w l false = some (octetsAt l 0 n) := by
  unfold jobData
  rw [jobTaken_get s w c (.inr rfl), ← len]
  exact if_neg (by simp; omega)

theorem hash_changes (h : s.settled) (r : WindowReady s w) (len : n = s.get (Reg.JWL_JOB_LEN_len w)) (filled : 0 < n)
    (most : n ≤ 0x1000000) :
    changes (.hash t w k (some l)) s [Reg.JWL_CMD_slot w, Reg.JWL_CMD_busy w] [] [.jwl] (fun u =>
      u.get (Reg.JWL_CMD_busy w) = 1 ∧ u.get (Reg.JWL_CMD_slot w) = k ∧ u.jwl = { s.jwl with
        jobs := tabPut s.jwl.jobs w {
          op := 6, slot := k, result := some 0, digest := some (sha256 (octetsAt l 0 n)),
          due := max s.ltb t + n } }) := by
  refine changes_job h r rfl ?_ (elsewhere_jobTaken (.start s t)) (fun _ _ => rfl) (fun u kept => kept.jwl)
  have data := jobData_taken (l := l) (s := s.begin t) len filled most k
  simp only [Option.getD_some, Option.isNone_some, data, octetsAt_length]
  rfl

theorem hmac_changes (h : s.settled) (r : WindowReady s w) (len : n = s.get (Reg.JWL_JOB_LEN_len w)) (filled : 0 < n)
    (most : n ≤ 0x1000000) (may : useTest s k w 2 = 0) (type : (jslot s k).type = 3) :
    changes (.hmac t w k (some l)) s [Reg.JWL_CMD_slot w, Reg.JWL_CMD_busy w] [] [.jwl] (fun u =>
      u.get (Reg.JWL_CMD_busy w) = 1 ∧ u.get (Reg.JWL_CMD_slot w) = k ∧ u.jwl = { s.jwl with
        jobs := tabPut s.jwl.jobs w {
          op := 7, slot := k, result := some 0, digest := some (hmacSha256 (jslot s k).key (octetsAt l 0 n)),
          due := max s.ltb t + n } }) := by
  have may' : useTest (jobTaken (s.begin t) w k) k w 2 = 0 := (useTest_congr (s := s) rfl rfl ..).trans may
  have slot : jslot (jobTaken (s.begin t) w k) k = jslot s k := rfl
  refine changes_job h r rfl ?_ (elsewhere_jobTaken (.start s t)) (fun _ _ => rfl) (fun u kept => kept.jwl)
  have data := jobData_taken (l := l) (s := s.begin t) len filled most k
  simp only [may', slot, type, Option.getD_some, Option.isNone_some, data, octetsAt_length]
  rfl

theorem verify_changes {d : List Byte} {ok : Bool} (h : s.settled) (r : WindowReady s w) (may : useTest s k w 3 = 0)
    (type : (jslot s k).type = 4) (digest : d = wordsOf s (Reg.JWL_DIGEST_word w) 8)
    (valid : ok = ecdsaVerify (jslot s k).key d (wordsOf s (Reg.JWL_SIG_word w) 16)) :
    changes (.verify t w k) s [Reg.JWL_CMD_slot w, Reg.JWL_CMD_busy w] [] [.jwl] (fun u =>
      u.get (Reg.JWL_CMD_busy w) = 1 ∧ u.get (Reg.JWL_CMD_slot w) = k ∧ u.jwl = { s.jwl with
        jobs := tabPut s.jwl.jobs w {
          op := 8, slot := k, result := some (if ok then 0 else 7), due := max s.ltb t + 1200000,
          auth := if ok && (jslot s k).lcAuth then some d else none } }) := by
  have may' : useTest (jobTaken (s.begin t) w k) k w 3 = 0 := (useTest_congr (s := s) rfl rfl ..).trans may
  have slot : jslot (jobTaken (s.begin t) w k) k = jslot s k := rfl
  refine changes_job h r rfl ?_ (elsewhere_jobTaken (.start s t)) (fun _ _ => rfl) (fun u kept => kept.jwl) ?_
  · have staged : wordsOf (jobTaken (s.begin t) w k) (Reg.JWL_DIGEST_word w) 8 = d :=
      (jobTaken_wordsOf _ _ _ _ (fun _ => rfl)).trans digest.symm
    have signature : wordsOf (jobTaken (s.begin t) w k) (Reg.JWL_SIG_word w) 16 = wordsOf s (Reg.JWL_SIG_word w) 16 :=
      jobTaken_wordsOf _ _ _ _ (fun _ => rfl)
    simp only [may', slot, type, staged, signature, ← valid]
    rfl
  · cases ok <;> simp

/-- What the attestation states is read elsewhere than in the window's JWL_CMD. -/
theorem attestation_taken (s : State) (w : Fin 4) (c m : Nat) (challenge : List Byte) :
    attestation (jobTaken s w c) w m challenge = attestation s w m challenge := by
  have role := jobTaken_get_outside s w c (f := Reg.TWN_CTRL_role) (.inr (by decide)) (by decide)
  have part := jobTaken_get_outside s w c (f := Reg.GLB_ID_part) (.inl (by decide)) (by decide)
  have rev := jobTaken_get_outside s w c (f := Reg.GLB_ID_rev) (.inl (by decide)) (by decide)
  have lo := jobTaken_get s w c (f := Reg.JWL_DEVID_LO_device_id) (.inr rfl)
  have hi := jobTaken_get s w c (f := Reg.JWL_DEVID_HI_device_id) (.inr rfl)
  have busy : lcBusy (jobTaken s w c) = lcBusy s :=
    congrArg (· != 0) (jobTaken_get_outside s w c (f := Reg.JWL_STATUS_lc_busy) (.inl (by decide)) (by decide))
  have measured (i : Nat) : wordsOf (jobTaken s w c) (Reg.JWL_MEAS_word i) 8 = wordsOf s (Reg.JWL_MEAS_word i) 8 :=
    jobTaken_wordsOf s w c 8 (fun _ => rfl)
  unfold attestation
  simp only [role, part, rev, lo, hi, busy, measured]
  rfl

theorem attest_changes (h : s.settled) (r : WindowReady s w) :
    changes (.attest t w k) s [Reg.JWL_CMD_slot w, Reg.JWL_CMD_busy w] [] [.jwl] (fun u =>
      u.get (Reg.JWL_CMD_busy w) = 1 ∧ u.get (Reg.JWL_CMD_slot w) = k ∧ u.jwl = { s.jwl with
        attests := s.jwl.attests + 1, jobs := tabPut s.jwl.jobs w {
          op := 5, slot := k, result := some 0,
          attest := some (attestation s w (s.jwl.attests + 1) (wordsOf s (Reg.JWL_DIGEST_word w) 8)) } }) := by
  obtain ⟨a, response⟩ : ∃ a, a = attestation s w (s.jwl.attests + 1) (wordsOf s (Reg.JWL_DIGEST_word w) 8) := ⟨_, rfl⟩
  refine changes_job (j := { op := 5, slot := k, result := some 0, attest := some a }) h r rfl ?_
    (.onJwl (f := fun j => { j with attests := s.jwl.attests + 1 }) (elsewhere_jobTaken (.start s t))) (fun _ _ => rfl)
    (fun u kept => response ▸ kept.jwl)
  have staged : wordsOf (jobTaken (s.begin t) w k) (Reg.JWL_DIGEST_word w) 8 = wordsOf s (Reg.JWL_DIGEST_word w) 8 :=
    jobTaken_wordsOf _ _ _ _ (fun _ => rfl)
  simp only [attestation_taken, staged, response]
  rfl

/-- Who may extend measurement `m` (R316). -/
theorem extend_granted {m : Nat} (exist : m ≤ 3) (may : m = 0 ∧ w.val = 3 ∨ m ≠ 0 ∧ masterSecure w = true) :
    (if 3 < m then 3 else if m = 0 then (if w.val = 3 then 0 else 10) else if masterSecure w then 0 else 1) = 0 := by
  rw [if_neg (by omega)]
  rcases may with ⟨rom, crown⟩ | ⟨other, secure⟩
  · rw [if_pos rom, if_pos crown]
  · rw [if_neg other, if_pos secure]

theorem measWord_inj (m i j : Nat) (h : (Reg.JWL_MEAS_word m i).key = (Reg.JWL_MEAS_word m j).key) : i = j := by
  simp only [Fld.key, Reg.JWL_MEAS_word] at h
  omega

theorem elsewhere_setWords {v : State} {fs : List Fld} {cs : List Nat} {ps : List Part} {f : Nat → Fld} (d : List Byte)
    (h : s.elsewhere v fs cs ps) (hf : ∀ i < d.length / 4, (f i).key ∈ fs.map Fld.key) :
    s.elsewhere (setWords v f d) fs cs ps :=
  elsewhere_foldl _ h (fun _ i hi k => elsewhere_set k _ (hf i (List.mem_range.1 hi)))

theorem extend_changes {m : Fin 1024} (h : s.settled) (r : WindowReady s w) (exist : m.val ≤ 3)
    (may : m.val = 0 ∧ w.val = 3 ∨ m.val ≠ 0 ∧ masterSecure w = true) :
    changes (.extend t w m) s ([Reg.JWL_CMD_slot w, Reg.JWL_CMD_busy w] ++ (List.range 8).map (Reg.JWL_MEAS_word m))
      [] [.jwl] (fun u => u.get (Reg.JWL_CMD_busy w) = 1 ∧ (tabGet u.jwl.jobs w).map (·.result) = some (some 0) ∧
      wordsOf u (Reg.JWL_MEAS_word m) 8 = sha256 (wordsOf s (Reg.JWL_MEAS_word m) 8 ++ wordsOf s
      (Reg.JWL_DIGEST_word w) 8)) := by
  obtain ⟨d, digest⟩ : ∃ d, d = sha256 (wordsOf s (Reg.JWL_MEAS_word m) 8 ++ wordsOf s (Reg.JWL_DIGEST_word w) 8) := ⟨_, rfl⟩
  have length : d.length = 4 * 8 := digest ▸ sha256_length _
  have job := changes_job (j := { op := 9, slot := m, result := some 0 })
    (v := setWords (jobTaken (s.begin t) w m) (Reg.JWL_MEAS_word m) d)
    (P := fun u => (tabGet u.jwl.jobs w).map (·.result) = some (some 0) ∧ wordsOf u (Reg.JWL_MEAS_word m) 8 = d)
    (fs := [Reg.JWL_CMD_slot w, Reg.JWL_CMD_busy w] ++ (List.range 8).map (Reg.JWL_MEAS_word m)) (c := .extend t w m)
    h r rfl ?_ (elsewhere_setWords d (elsewhere_jobTaken (.start s t)) (fun i hi => ?_)) ?_ (fun u kept => ⟨?_, ?_⟩)
  · exact digest ▸ changes_mono job (fun u ⟨busy, _, result, words⟩ => ⟨busy, result, words⟩)
  · have granted := extend_granted exist may
    have measured : wordsOf (jobTaken (s.begin t) w m) (Reg.JWL_MEAS_word m) 8 = wordsOf s (Reg.JWL_MEAS_word m) 8 :=
      jobTaken_wordsOf _ _ _ _ (fun _ => rfl)
    have staged : wordsOf (jobTaken (s.begin t) w m) (Reg.JWL_DIGEST_word w) 8 = wordsOf s (Reg.JWL_DIGEST_word w) 8 :=
      jobTaken_wordsOf _ _ _ _ (fun _ => rfl)
    simp only [granted, extendMeasure, measured, staged, ← digest]
    rfl
  · exact key_mem_range _ (by omega) [_, _]
  · intro f hf
    have apart i : (Reg.JWL_MEAS_word m i).key ≠ f.key := by
      simp only [List.mem_cons, List.not_mem_nil, or_false] at hf
      rcases hf with rfl | rfl
      · exact key_ne_of_lo (by decide : 0 < 32) (by decide : 16 < 32) (by decide : 0 ≠ 16)
      · exact key_ne_of_lo (by decide : 0 < 32) (by decide : 4 < 32) (by decide : 0 ≠ 4)
    exact foldl_set_get _ apart ..
  · rw [kept.jwl, State.onJwl_jwl]
    simp
  · have flag i (hi : i < 8) : chrFlagKey (Reg.JWL_MEAS_word m i).key = false :=
      jwl_flag (show 0xe0080 + 0x20 * m.val + 0x4 * i < _ by omega) (by decide : 0 < 32)
    exact (wordsOf_congr (fun i hi => kept.get _ (flag i hi))).trans
      (wordsOf_setWords (jobTaken (s.begin t) w m) length (fun _ => rfl) (measWord_inj m))

/-- Settles O47: each command is a window's job (`changes_job`) that passes its test; what it reads lies elsewhere than in the
JWL_CMD that it writes (`jobTaken_get`), and a digest of 32 octets fills the eight words of a measurement. -/
theorem keyServicesComplete : Obligations.KeyServicesComplete := fun _ _ _ _ _ h =>
  ⟨fun _ idle steady on own => hash_changes h ⟨idle, steady, on, own⟩,
    fun _ idle steady on own => hmac_changes h ⟨idle, steady, on, own⟩,
    fun _ _ idle steady on own => verify_changes h ⟨idle, steady, on, own⟩,
    fun idle steady on own => attest_changes h ⟨idle, steady, on, own⟩,
    fun _ idle steady on own => extend_changes h ⟨idle, steady, on, own⟩⟩

end KeyServices
end Sys2Proof.Machine

namespace Sys2Proof.Machine

set_option Elab.async false

/-! ### Key slots are filled and revoked (R305, R307-R309) -/

section KeySlots

variable {t : Nat} {w : Fin 4} {k : Fin 1024} {s : State}

/-- What a load or derive `j` makes of its slot (R308): the generation goes up, and the key is derived unless it is loaded. -/
def keyFilled (s : State) (j : Job) : Slot := { j.staged with
  depth := if j.staged.parent = 0x3FF then 0 else (jslot s j.staged.parent).depth + 1
  key := if j.op = 1 then j.staged.key else kdfChild (jslot s j.staged.parent).key j.label j.staged.domain j.staged.type
  gen := ((jslot s j.slot).gen + 1) % 65536
  lcAuth := j.staged.lcAuth && j.staged.type == 4 }

theorem keyFilled_congr {v : State} (slots : v.jwl.slots = s.jwl.slots) (j : Job) : keyFilled v j = keyFilled s j := by
  unfold keyFilled
  rw [jslot_congr slots, jslot_congr slots]

/-- The test that a load (op 1) or a derive must pass. -/
def fillTest (s : State) (w : Nat) (j : Job) : Nat :=
  if j.op = 1 then loadTest s w j.slot j.staged else deriveTest s w j.slot j.staged

theorem fillTest_congr {v : State} (slots : v.jwl.slots = s.jwl.slots) (fuses : v.fuses = s.fuses) (w : Nat) (j : Job) :
    fillTest v w j = fillTest s w j := by
  unfold fillTest
  rw [loadTest_congr slots fuses, deriveTest_congr slots fuses]

theorem fillSlot_passed {w : Nat} {j : Job} (test : fillTest s w j = 0) :
    fillSlot s w j = ({ j with result := some 0 }, setJslot s j.slot (keyFilled s j)) :=
  if_neg (not_not.2 test)

/-- The load or derive that window `w` stages for slot `k`. -/
def stagedJob (s : State) (w op k : Nat) : Job :=
  { op := op, slot := k, staged := stagedSlot s w, label := wordsOf s (Reg.JWL_LABEL_label w) 4 }

theorem jobTaken_stagedJob (s : State) (w c op k : Nat) : stagedJob (jobTaken s w c) w op k = stagedJob s w op k := by
  unfold stagedJob
  rw [jobTaken_staged, jobTaken_wordsOf _ _ _ _ (fun _ => rfl)]

/-- A load or derive that passes its test fills its slot, and no other. -/
theorem slotFill_changes {c : Instr} {op : Nat} (h : s.settled) (r : WindowReady s w)
    (e : exec c s = act t s (fun s => inWindow s w (fun s => slotFillStart s w op k))) (proper : 2 ≤ k.val)
    (test : fillTest s w (stagedJob s w op k) = 0) (free : (jslot s k).state ≠ 2 ∨ s.jwl.sweeps = []) :
    changes c s [Reg.JWL_CMD_slot w, Reg.JWL_CMD_busy w] [] [.jwl] (fun u =>
      u.get (Reg.JWL_CMD_busy w) = 1 ∧ u.get (Reg.JWL_CMD_slot w) = k ∧
      (tabGet u.jwl.jobs w).map (·.result) = some (some 0) ∧ jslot u k = keyFilled s (stagedJob s w op k) ∧
      ∀ i, i ≠ k.val → jslot u i = jslot s i) := by
  obtain ⟨x, filled⟩ : ∃ x, x = keyFilled s (stagedJob s w op k) := ⟨_, rfl⟩
  refine changes_job (j := { stagedJob s w op k with result := some 0 }) (v := setJslot (jobTaken (s.begin t) w k) k x)
    h r e ?_ (.onJwl (elsewhere_jobTaken (.start s t))) (fun _ _ => rfl) (fun u kept => ?_)
  · have job : stagedJob (jobTaken (s.begin t) w k) w op k = stagedJob s w op k := jobTaken_stagedJob ..
    have test' : fillTest (jobTaken (s.begin t) w k) w (stagedJob s w op k) = 0 := (fillTest_congr (s := s) rfl rfl ..).trans test
    have waits : ¬ ((jslot (jobTaken (s.begin t) w k) k).state = 2 ∧ (!(jobTaken (s.begin t) w k).jwl.sweeps.isEmpty) = true) := by
      rintro ⟨revoked, sweeping⟩
      rcases free with other | none
      · exact other revoked
      · simp [none] at sweeping
    have passed := fillSlot_passed test'
    rw [keyFilled_congr (s := s) (v := jobTaken (s.begin t) w k) rfl, ← filled] at passed
    change (if _ then (stagedJob (jobTaken (s.begin t) w k) w op k, jobTaken (s.begin t) w k)
      else fillSlot (jobTaken (s.begin t) w k) w (stagedJob (jobTaken (s.begin t) w k) w op k)) = _
    rw [if_neg waits, job, passed]
    rfl
  · have slot i : jslot u i = if i = k.val then x else jslot s i :=
      (jslot_congr (v := u) (congrArg Jwl.slots kept.jwl) i).trans (jslot_setJslot (jobTaken (s.begin t) w k) x proper i)
    refine ⟨?_, ?_, fun i other => ?_⟩
    · rw [kept.jwl, State.onJwl_jwl]
      simp
    · rw [slot, if_pos rfl, filled]
    · rw [slot, if_neg other]

theorem load_changes {x : Slot} (h : s.settled) (r : WindowReady s w) (staged : x = stagedSlot s w) (test : loadTest s w k x = 0)
    (free : (jslot s k).state ≠ 2 ∨ s.jwl.sweeps = []) :
    changes (.load t w k) s [Reg.JWL_CMD_slot w, Reg.JWL_CMD_busy w] [] [.jwl] (fun u =>
      u.get (Reg.JWL_CMD_busy w) = 1 ∧ u.get (Reg.JWL_CMD_slot w) = k ∧
      (tabGet u.jwl.jobs w).map (·.result) = some (some 0) ∧ jslot u k = { x with
        depth := if x.parent = 0x3FF then 0 else (jslot s x.parent).depth + 1, gen := ((jslot s k).gen + 1) % 65536,
        lcAuth := x.lcAuth && x.type == 4 } ∧ ∀ i, i ≠ k.val → jslot u i = jslot s i) := by
  subst staged
  exact slotFill_changes (op := 1) h r rfl (two_le_of_loadTest test) test free

theorem derive_changes {x : Slot} (h : s.settled) (r : WindowReady s w) (staged : x = stagedSlot s w)
    (test : deriveTest s w k x = 0) (free : (jslot s k).state ≠ 2 ∨ s.jwl.sweeps = []) :
    changes (.derive t w k) s [Reg.JWL_CMD_slot w, Reg.JWL_CMD_busy w] [] [.jwl] (fun u =>
      u.get (Reg.JWL_CMD_busy w) = 1 ∧ u.get (Reg.JWL_CMD_slot w) = k ∧
      (tabGet u.jwl.jobs w).map (·.result) = some (some 0) ∧ jslot u k = { x with
        depth := (jslot s x.parent).depth + 1, gen := ((jslot s k).gen + 1) % 65536, lcAuth := false,
        key := kdfChild (jslot s x.parent).key (wordsOf s (Reg.JWL_LABEL_label w) 4) x.domain x.type } ∧ ∀ i,
      i ≠ k.val → jslot u i = jslot s i) := by
  subst staged
  obtain ⟨proper, type, parent⟩ := deriveTest_passed test
  have child : keyFilled s (stagedJob s w 2 k) = { stagedSlot s w with
      depth := (jslot s (stagedSlot s w).parent).depth + 1, gen := ((jslot s k).gen + 1) % 65536, lcAuth := false,
      key := kdfChild (jslot s (stagedSlot s w).parent).key (wordsOf s (Reg.JWL_LABEL_label w) 4) (stagedSlot s w).domain
        (stagedSlot s w).type } := by
    have auth : ((stagedSlot s w).lcAuth && (stagedSlot s w).type == 4) = false := by simp; omega
    unfold keyFilled
    simp only [stagedJob, parent, auth, if_false]
    rfl
  exact child ▸ slotFill_changes (op := 2) h r rfl proper test free

theorem sweepBusy_apart (w : Nat) (f : Fld) (hf : f ∈ [Reg.JWL_CMD_busy w, Reg.JWL_CMD_slot w]) :
    Reg.JWL_STATUS_sweep_busy.key ≠ f.key := by
  simp only [List.mem_cons, List.not_mem_nil, or_false] at hf
  rcases hf with rfl | rfl
  · exact key_ne_of_lo (by decide) (by decide : 16 < 32) (by decide : 4 ≠ 16)
  · simp only [Fld.key, Reg.JWL_STATUS_sweep_busy, Reg.JWL_CMD_slot]
    omega

theorem keyInvalidate_changes (h : s.settled) (r : WindowReady s w) (proper : 2 ≤ k.val) (may : lcAllows s 0 w = true)
    (world : (jslot s k).world = 0 ∨ masterSecure w = true) :
    changes (.keyInvalidate t w k) s [Reg.JWL_CMD_slot w, Reg.JWL_CMD_busy w,
      Reg.JWL_STATUS_sweep_busy] [] [.jwl] (fun u => u.get (Reg.JWL_CMD_busy w) = 1 ∧ u.get (Reg.JWL_CMD_slot w) = k ∧
      u.get Reg.JWL_STATUS_sweep_busy = 1 ∧ jslot u k = { jslot s k with state := 2 } ∧
      u.jwl.sweeps = s.jwl.sweeps ++ [(w.val, k.val)] ∧ ∀ i, i ≠ k.val → jslot u i = jslot s i) := by
  obtain ⟨x, revoked⟩ : ∃ x, x = { jslot s k with state := 2 } := ⟨_, rfl⟩
  refine changes_job (j := { op := 3, slot := k })
    (v := ((setJslot (jobTaken (s.begin t) w k) k x).set Reg.JWL_STATUS_sweep_busy 1).onJwl (fun j =>
      { j with sweeps := j.sweeps ++ [(w.val, k.val)] }))
    h r rfl ?_ (.onJwl (.set (.onJwl (elsewhere_jobTaken (.start s t))))) ?_ (fun u kept => ?_)
  · have passed : (if k.val < 2 then 10 else if !lcAllows (jobTaken (s.begin t) w k) 0 w then 2
        else if (jslot s k).world = 1 ∧ !masterSecure w then 1 else 0) = 0 := by
      rw [lcAllows_congr (s := s) (v := jobTaken (s.begin t) w k) rfl, may, if_neg (by omega), if_neg (by decide), if_neg]
      rintro ⟨secure, denied⟩
      rcases world with both | yes
      · omega
      · simp [yes] at denied
    have slot : jslot (jobTaken (s.begin t) w k) k = jslot s k := rfl
    simp only [slot, passed, ← revoked]
    rfl
  · exact fun f hf => (State.onJwl_get ..).trans (State.get_set_ne _ _ (sweepBusy_apart w f hf))
  · have slot i : jslot u i = if i = k.val then x else jslot s i :=
      (jslot_congr (v := u) (congrArg Jwl.slots kept.jwl) i).trans (jslot_setJslot (jobTaken (s.begin t) w k) x proper i)
    refine ⟨?_, ?_, ?_, fun i other => ?_⟩
    · rw [kept.get _ (by decide), State.onJwl_get, State.onJwl_get]
      exact State.get_set_self ..
    · rw [slot, if_pos rfl, revoked]
    · rw [kept.jwl]
      rfl
    · rw [slot, if_neg other]

theorem readAttributes_changes (h : s.settled) (r : WindowReady s w) (shown : k.val ≠ 1) :
    changes (.readAttributes t w k) s [Reg.JWL_CMD_slot w, Reg.JWL_CMD_busy w] [] [.jwl] (fun u =>
      u.get (Reg.JWL_CMD_busy w) = 1 ∧ u.get (Reg.JWL_CMD_slot w) = k ∧ tabGet u.jwl.jobs w = some {
        op := 4, slot := k, result := some 0, attrs := some (jslot s k) } ∧ ∀ i, jslot u i = jslot s i) := by
  refine changes_job (j := { op := 4, slot := k, result := some 0, attrs := some (jslot s k) }) h r rfl ?_
    (elsewhere_jobTaken (.start s t)) (fun _ _ => rfl) (fun u kept => ⟨?_, fun i => ?_⟩)
  · simp only [if_neg shown]
    rfl
  · rw [kept.jwl]
    exact tabGet_put_self ..
  · exact jslot_congr (congrArg Jwl.slots kept.jwl) i

end KeySlots
end Sys2Proof.Machine

namespace Sys2Proof.Machine

set_option Elab.async false

/-! ### Window jobs end (R307) -/

section JobEnd

variable {t : Nat} {s v : State} {j : Job} {fs : List Fld} {cs : List Nat} {ps : List Part}

/-- `v` is `s` but for registers at the windows of JWL and above. -/
structure AboveJwl (s v : State) : Prop where
  fields : ∃ m, v = { s with fields := m }
  low : ∀ f : Fld, f.key < 0xe1000 * 32 → v.get f = s.get f

theorem AboveJwl.refl (s : State) : AboveJwl s s := ⟨⟨s.fields, rfl⟩, fun _ _ => rfl⟩

theorem AboveJwl.set (h : AboveJwl s v) {f : Fld} {x : Nat}
    (off : 0xe1000 ≤ f.off := by exact Nat.le_add_right_of_le (by decide)) : AboveJwl s (v.set f x) := by
  obtain ⟨⟨m, rfl⟩, low⟩ := h
  refine ⟨⟨_, rfl⟩, fun g hg => (State.get_set_ne _ _ ?_).trans (low g hg)⟩
  unfold Fld.key at *
  omega

theorem AboveJwl.foldl {α : Type} {g : α → Fld} (h : AboveJwl s v) (x : α → Nat) (l : List α) (off : ∀ a, 0xe1000 ≤ (g a).off) :
    AboveJwl s (l.foldl (fun s a => s.set (g a) (x a)) v) :=
  List.foldlRecOn (motive := AboveJwl s) l _ h (fun _ k a _ => k.set (off a))

/-- An array of words of a window. -/
theorem AboveJwl.setWords {f : Nat → Fld} {base w : Nat} (h : AboveJwl s v) (l : List Byte)
    (array : ∀ i, (f i).off = base + 0x400 * w + 0x4 * i) (off : 0xe1000 ≤ base := by decide) : AboveJwl s (setWords v f l) :=
  h.foldl _ _ (fun i => by rw [array]; omega)

theorem AboveJwl.showAttrs (h : AboveJwl s v) (w : Nat) (x : Slot) : AboveJwl s (showAttrs v w x) := by
  have publicKey (u : State) (k : AboveJwl s u) :
      AboveJwl s (if x.state = 1 ∧ x.type = 4 then Machine.setWords u (Reg.JWL_SIG_word w) (octetsAt x.key 0 64) else u) := by
    split
    · exact k.setWords _ (fun _ => rfl)
    · exact k
  exact publicKey _ (.set (.set (.set (.set (.set (.set (.set (.set (.set (.set h))))))))))

/-- Key material is not read back (R305): a job that ends leaves zeros in the key of its window. -/
def keyZeroed (s : State) (w : Nat) : State := (List.range 16).foldl (fun s i => s.set (Reg.JWL_KEY_key w i) 0) s

/-- What a job that ends writes in the registers of its window, beside JWL_CMD. -/
def jobWritten (s : State) (w : Nat) (j : Job) : State :=
  let s := match j.digest with
    | some d => setWords s (Reg.JWL_DIGEST_word w) d
    | none => s
  let s := match j.attrs with
    | some x => showAttrs s w x
    | none => s
  let s := match j.attest with
    | some l => setWords s (Reg.JWL_ATTRES_word w) l
    | none => s
  keyZeroed s w

/-- The job leaves its window, which keeps the digest of a verification for the life cycle (R304). -/
def jobLeft (s : State) (w : Nat) (j : Job) : State := s.onJwl (fun x => { x with
  jobs := tabDel x.jobs w
  verified := match j.auth with
    | some d => tabPut x.verified w d
    | none => tabDel x.verified w })

theorem jobLeft_congr {w : Nat} (jwl : v.jwl = s.jwl) : (jobLeft v w j).jwl = (jobLeft s w j).jwl := by
  rw [jobLeft, jobLeft, State.onJwl_jwl, State.onJwl_jwl, jwl]

theorem jobLeft_sweeps (s : State) (w : Nat) (j : Job) : (jobLeft s w j).jwl.sweeps = s.jwl.sweeps := rfl

theorem jobApply_eq (s : State) (w : Nat) (j : Job) (r : Nat) : jobApply s w j r =
    (((jobLeft (jobWritten s w j) w j).set (Reg.JWL_CMD_result w) r).set (Reg.JWL_CMD_busy w) 0).raise 198 w := rfl

theorem jobWritten_above (s : State) (w : Nat) (j : Job) : AboveJwl s (jobWritten s w j) := by
  unfold jobWritten
  extract_lets s1 s2 s3
  have digest : AboveJwl s s1 := by
    simp only [s1]
    split
    · exact (AboveJwl.refl s).setWords _ (fun _ => rfl)
    · exact .refl s
  have attrs : AboveJwl s s2 := by
    simp only [s2]
    split
    · exact digest.showAttrs ..
    · exact digest
  have attest : AboveJwl s s3 := by
    simp only [s3]
    split
    · exact attrs.setWords _ (fun _ => rfl)
    · exact attrs
  exact attest.foldl _ _ (fun i => Nat.le_add_right_of_le (Nat.le_add_right_of_le (by decide)))

theorem jobWritten_plain (s : State) (w : Nat) (digest : j.digest = none) (attrs : j.attrs = none) (attest : j.attest = none) :
    jobWritten s w j = keyZeroed s w := by
  unfold jobWritten
  rw [digest, attrs, attest]

theorem jobWritten_digest {d : List Byte} (s : State) (w : Nat) (digest : j.digest = some d) (attrs : j.attrs = none)
    (attest : j.attest = none) : jobWritten s w j = keyZeroed (setWords s (Reg.JWL_DIGEST_word w) d) w := by
  unfold jobWritten
  rw [digest, attrs, attest]

theorem elsewhere_keyZeroed {w : Nat} (h : s.elsewhere v fs cs ps) (hf : ∀ i < 16, (Reg.JWL_KEY_key w i).key ∈ fs.map Fld.key) :
    s.elsewhere (keyZeroed v w) fs cs ps :=
  elsewhere_foldl _ h (fun _ i hi k => elsewhere_set k _ (hf i (List.mem_range.1 hi)))

theorem elsewhere_jobApply {w r : Nat} (h : s.elsewhere (jobWritten v w j) fs cs ps)
    (result : (Reg.JWL_CMD_result w).key ∈ fs.map Fld.key := by simp) (busy : (Reg.JWL_CMD_busy w).key ∈ fs.map Fld.key := by simp)
    (hp : .jwl ∈ ps := by simp) : s.elsewhere (jobApply v w j r) fs cs ps :=
  .raise (.set (.set (.onJwl h hp) result) busy)

theorem keyZeroed_key (s : State) (w : Nat) {i : Nat} (h : i < 16) : (keyZeroed s w).get (Reg.JWL_KEY_key w i) = 0 :=
  get_foldl_set s (g := Reg.JWL_KEY_key w) (x := fun _ => 0)
    (fun m n same => by simp only [Fld.key, Reg.JWL_KEY_key] at same; omega) (List.mem_range.2 h)

theorem keyZeroed_get {w : Nat} {f : Fld} (apart : ∀ i < 16, (Reg.JWL_KEY_key w i).key ≠ f.key) :
    (keyZeroed s w).get f = s.get f :=
  List.foldlRecOn (motive := fun v : State => v.get f = s.get f) _ _ rfl
    (fun v same i hi => (State.get_set_ne v 0 (apart i (List.mem_range.1 hi))).trans same)

/-- A word of the window is what the job writes. -/
theorem jobApply_word (s : State) (w : Nat) (j : Job) (r : Nat) {f : Fld} (word : f.lo = 0) :
    (jobApply s w j r).get f = (jobWritten s w j).get f := by
  have busy : (Reg.JWL_CMD_busy w).key ≠ f.key := key_ne_of_lo (by decide : 16 < 32) (by omega) (by show 16 ≠ f.lo; omega)
  have result : (Reg.JWL_CMD_result w).key ≠ f.key := key_ne_of_lo (by decide : 20 < 32) (by omega) (by show 20 ≠ f.lo; omega)
  rw [jobApply_eq, State.raise_get, State.get_set_ne _ _ busy, State.get_set_ne _ _ result]
  exact State.onJwl_get ..

theorem jobApply_busy (s : State) (w : Nat) (j : Job) (r : Nat) : (jobApply s w j r).get (Reg.JWL_CMD_busy w) = 0 := by
  rw [jobApply_eq, State.raise_get]
  exact State.get_set_self ..

theorem jobApply_result (s : State) (w : Nat) (j : Job) {r : Nat} (h : r < 16) :
    (jobApply s w j r).get (Reg.JWL_CMD_result w) = r := by
  have apart : (Reg.JWL_CMD_busy w).key ≠ (Reg.JWL_CMD_result w).key :=
    key_ne_of_lo (by decide : 16 < 32) (by decide : 20 < 32) (by decide : 16 ≠ 20)
  rw [jobApply_eq, State.raise_get, State.get_set_ne _ _ apart]
  exact (State.get_set_self ..).trans (Nat.mod_eq_of_lt h)

theorem jobApply_low (s : State) (w : Nat) (j : Job) (r : Nat) {f : Fld} (h : f.key < 0xe1000 * 32) :
    (jobApply s w j r).get f = s.get f := by
  have busy : (Reg.JWL_CMD_busy w).key ≠ f.key := by
    simp only [Fld.key, Reg.JWL_CMD_busy] at *
    omega
  have result : (Reg.JWL_CMD_result w).key ≠ f.key := by
    simp only [Fld.key, Reg.JWL_CMD_result] at *
    omega
  rw [jobApply_eq, State.raise_get, State.get_set_ne _ _ busy, State.get_set_ne _ _ result]
  exact (State.onJwl_get ..).trans ((jobWritten_above s w j).low f h)

theorem jobApply_jwl (s : State) (w : Nat) (j : Job) (r : Nat) : (jobApply s w j r).jwl = (jobLeft s w j).jwl := by
  obtain ⟨m, written⟩ := (jobWritten_above s w j).fields
  rw [jobApply_eq, State.raise_jwl, written]
  rfl

/-- A job that ends has no part in transmissions and faults. -/
theorem jobApply_quiet (s : State) (w : Nat) (j : Job) (r : Nat) :
    (jobApply s w j r).txDone = s.txDone ∧ (jobApply s w j r).pwr = s.pwr := by
  obtain ⟨m, written⟩ := (jobWritten_above s w j).fields
  rw [jobApply_eq, State.raise_txDone, State.raise_pwr, if_neg (by decide), written]
  exact ⟨rfl, rfl⟩

theorem jobApply_raised (s : State) (w : Nat) (j : Job) (r : Nat) : 198 ∈ (jobApply s w j r).hif.pend := raise_pend ..

theorem jobApply_pend (w : Nat) (j : Job) (r : Nat) {e : Nat} (h : e ∈ s.hif.pend) : e ∈ (jobApply s w j r).hif.pend := by
  obtain ⟨m, written⟩ := (jobWritten_above s w j).fields
  rw [jobApply_eq, written]
  exact (raise_kept _ _ _ _ _ rfl).pend e h

theorem windowJobEnd_eq {w r : Nat} (job : tabGet s.jwl.jobs w = some j) (result : j.result = some r) (due : j.due ≤ s.ltb) :
    windowJobEnd s w = jobApply s w j r := by
  unfold windowJobEnd
  simp only [job, result]
  exact if_neg (Nat.not_lt.2 due)

end JobEnd

section WindowJobEnd

variable {t r : Nat} {w : Fin 4} {s : State} {j : Job}

theorem windowJobEnd_changes (h : s.settled) (job : tabGet s.jwl.jobs w = some j) (result : j.result = some r)
    (due : j.due ≤ max s.ltb t) (digest : j.digest = none) (attrs : j.attrs = none) (attest : j.attest = none) (fits : r < 16) :
    changes (.windowJobEnd t w) s ([Reg.JWL_CMD_result w, Reg.JWL_CMD_busy w] ++ (List.range 16).map
      (Reg.JWL_KEY_key w)) [] [.jwl] (fun u => u.get (Reg.JWL_CMD_busy w) = 0 ∧ u.get (Reg.JWL_CMD_result w) = r ∧
      198 ∈ u.hif.pend ∧ tabGet u.jwl.jobs w = none ∧ (∀ i, i < 16 → u.get (Reg.JWL_KEY_key w i) = 0) ∧ ∀ i,
      jslot u i = jslot s i) := by
  have effect := windowJobEnd_eq (s := s.begin t) job result due
  have written := jobWritten_plain (s.begin t) w digest attrs attest
  refine changes_of (f := fun s => windowJobEnd s w) rfl effect h
    (elsewhere_jobApply (written ▸ elsewhere_keyZeroed (.start s t) (fun i hi => key_mem_range _ hi [_, _]))) (fun u kept => ?_)
  have jwl : u.jwl = (jobLeft (s.begin t) w j).jwl := kept.jwl.trans (jobApply_jwl ..)
  have slots : u.jwl.slots = s.jwl.slots := by
    rw [jwl]
    rfl
  refine ⟨?_, ?_, kept.pend _ (jobApply_raised ..), ?_, fun i hi => ?_, jslot_congr slots⟩
  · rw [kept.cmdBusy, jobApply_busy]
  · rw [kept.cmdResult, jobApply_result _ _ _ fits]
  · rw [jwl]
    exact tabGet_del_self ..
  · have flag : chrFlagKey (Reg.JWL_KEY_key w i).key = false :=
      jwl_flag (show 0xe1010 + 0x400 * w.val + 0x4 * i < _ by omega) (by decide : 0 < 32)
    rw [kept.get _ flag, jobApply_word _ _ _ _ rfl, written, keyZeroed_key _ _ hi]

theorem digestWord_inj (w i j : Nat) (h : (Reg.JWL_DIGEST_word w i).key = (Reg.JWL_DIGEST_word w j).key) : i = j := by
  simp only [Fld.key, Reg.JWL_DIGEST_word] at h
  omega

theorem windowJobEnd_changes_digest {d : List Byte} (h : s.settled) (job : tabGet s.jwl.jobs w = some j)
    (result : j.result = some r) (due : j.due ≤ max s.ltb t) (digest : j.digest = some d) (length : d.length = 32)
    (attrs : j.attrs = none) (attest : j.attest = none) (fits : r < 16) :
    changes (.windowJobEnd t w) s ([Reg.JWL_CMD_result w, Reg.JWL_CMD_busy w] ++ (List.range 16).map
      (Reg.JWL_KEY_key w) ++ (List.range 8).map (Reg.JWL_DIGEST_word w)) [] [.jwl] (fun u =>
      u.get (Reg.JWL_CMD_busy w) = 0 ∧ u.get (Reg.JWL_CMD_result w) = r ∧ 198 ∈ u.hif.pend ∧
      wordsOf u (Reg.JWL_DIGEST_word w) 8 = d) := by
  have effect := windowJobEnd_eq (s := s.begin t) job result due
  have written := jobWritten_digest (s.begin t) w digest attrs attest
  refine changes_of (f := fun s => windowJobEnd s w) rfl effect h (elsewhere_jobApply (written ▸
    elsewhere_keyZeroed (elsewhere_setWords d (.start s t) (fun i hi => ?_)) (fun i hi => ?_))) (fun u kept => ?_)
  · exact key_mem_range _ (by omega) (_ ++ _)
  · have key := key_mem_range (Reg.JWL_KEY_key w) hi [Reg.JWL_CMD_result w, Reg.JWL_CMD_busy w]
    rw [List.map_append]
    exact List.mem_append_left _ key
  refine ⟨?_, ?_, kept.pend _ (jobApply_raised ..), ?_⟩
  · rw [kept.cmdBusy, jobApply_busy]
  · rw [kept.cmdResult, jobApply_result _ _ _ fits]
  · have word i (hi : i < 8) : u.get (Reg.JWL_DIGEST_word w i) =
        (setWords (s.begin t) (Reg.JWL_DIGEST_word w) d).get (Reg.JWL_DIGEST_word w i) := by
      have flag : chrFlagKey (Reg.JWL_DIGEST_word w i).key = false :=
        jwl_flag (show 0xe1080 + 0x400 * w.val + 0x4 * i < _ by omega) (by decide : 0 < 32)
      have apart m (hm : m < 16) : (Reg.JWL_KEY_key w m).key ≠ (Reg.JWL_DIGEST_word w i).key := by
        simp only [Fld.key, Reg.JWL_KEY_key, Reg.JWL_DIGEST_word]
        omega
      rw [kept.get _ flag, jobApply_word _ _ _ _ rfl, written, keyZeroed_get apart]
    exact (wordsOf_congr word).trans (wordsOf_setWords _ (n := 8) length (fun _ => rfl) (digestWord_inj w))

end WindowJobEnd
end Sys2Proof.Machine

namespace Sys2Proof.Machine

set_option Elab.async false

/-! ### A revocation sweep ends (R309, R311) -/

section Sweep

variable {t : Nat} {w : Fin 4} {k : Fin 1024} {s : State} {j : Job} {x : List (Nat × Nat)}

/-- The end of window `w`'s sweep: the slots below a REVOKED one are REVOKED with it, their keys are gone, and so are the keys
derived from them. -/
def slotsSwept (s : State) (w : Nat) : State := s.onJwl (fun x => { x with
  slots := x.slots.map (fun e => if chainRevoked 8 s e.1 then (e.1, { e.2 with state := 2, key := [] }) else e)
  cache := (x.cache.map (fun e => (e.1, e.2.filter (fun d => !chainRevoked 8 s d.slot)))).filter (fun e => !e.2.isEmpty)
  sweeps := x.sweeps.filter (fun e => e.1 != w) })

/-- The end is told with what is left of the cache and of other sweeps. -/
def sweepReported (s : State) (w k : Nat) : State :=
  ((cacheShow (slotsSwept s w)).setb Reg.JWL_STATUS_sweep_busy (!(slotsSwept s w).jwl.sweeps.isEmpty)).raise 192 k

/-- The end of the sweep is the end of its window's job. -/
def sweepShown (s : State) (w k : Nat) (j : Job) : State := jobApply (sweepReported s w k) w j 0

theorem slotsSwept_sweeps (s : State) (w : Nat) : (slotsSwept s w).jwl.sweeps = s.jwl.sweeps.filter (fun e => e.1 != w) := rfl

theorem cacheShow_jwl (s : State) : (cacheShow s).jwl = s.jwl := rfl

theorem sweepShown_jwl (s : State) (w k : Nat) (j : Job) : (sweepShown s w k j).jwl = (jobLeft (slotsSwept s w) w j).jwl := by
  rw [sweepShown, jobApply_jwl]
  refine jobLeft_congr ?_
  rw [sweepReported, State.raise_jwl, State.setb_jwl, cacheShow_jwl]

theorem sweepShown_sweeps (s : State) (w k : Nat) (j : Job) :
    (sweepShown s w k j).jwl.sweeps = s.jwl.sweeps.filter (fun e => e.1 != w) := by
  rw [sweepShown_jwl, jobLeft_sweeps, slotsSwept_sweeps]

theorem sweepShown_jobs (s : State) (w k : Nat) (j : Job) : (sweepShown s w k j).jwl.jobs = tabDel s.jwl.jobs w := by
  rw [sweepShown_jwl]
  rfl

theorem sweepShown_slots (s : State) (w k : Nat) (j : Job) : (sweepShown s w k j).jwl.slots = (slotsSwept s w).jwl.slots := by
  rw [sweepShown_jwl]
  rfl

/-- The end of a sweep has no part in transmissions and faults. -/
theorem sweepShown_quiet (s : State) (w k : Nat) (j : Job) :
    (sweepShown s w k j).txDone = s.txDone ∧ (sweepShown s w k j).pwr = s.pwr := by
  obtain ⟨tx, power⟩ := jobApply_quiet (sweepReported s w k) w j 0
  rw [sweepReported, State.raise_txDone] at tx
  rw [sweepReported, State.raise_pwr, if_neg (by decide)] at power
  exact ⟨tx, power⟩

theorem revocationSweepEnd_eq {w k : Nat} (sweep : s.jwl.sweeps.find? (fun e => e.1 == w) = some (w, k))
    (job : tabGet s.jwl.jobs w = some j) : revocationSweepEnd s w =
      if (sweepShown s w k j).jwl.sweeps.isEmpty then runWaiting (sweepShown s w k j) else sweepShown s w k j := by
  unfold revocationSweepEnd
  rw [sweep, job]
  dsimp only
  generalize shown : jobApply _ _ _ _ = u
  obtain rfl : sweepShown s w k j = u := shown
  rfl

theorem sweepShown_pend (s : State) (w k : Nat) (j : Job) :
    192 ∈ (sweepShown s w k j).hif.pend ∧ 198 ∈ (sweepShown s w k j).hif.pend := by
  unfold sweepShown
  exact ⟨jobApply_pend _ _ _ (raise_pend ..), jobApply_raised ..⟩

theorem slotsSwept_entry (s : State) (w i : Nat) : tabGet (slotsSwept s w).jwl.slots i =
    (tabGet s.jwl.slots i).map (fun x => if chainRevoked 8 s i then { x with state := 2, key := [] } else x) := by
  have inPlace : (fun e : Nat × Slot => if chainRevoked 8 s e.1 then (e.1, { e.2 with state := 2, key := [] }) else e) =
      fun e => (e.1, if chainRevoked 8 s e.1 then { e.2 with state := 2, key := [] } else e.2) := by
    funext e
    split <;> rfl
  rw [slotsSwept, State.onJwl_jwl, inPlace]
  exact tabGet_map (fun i (x : Slot) => if chainRevoked 8 s i then { x with state := 2, key := [] } else x) ..

theorem slotsSwept_revoked {i : Nat} (w : Nat) (stored : tabGet s.jwl.slots i ≠ none) (revoked : chainRevoked 8 s i = true) :
    jslot (slotsSwept s w) i = { jslot s i with state := 2, key := [] } := by
  have proper := two_le_of_chainRevoked revoked
  rw [jslot_stored _ proper, jslot_stored _ proper]
  unfold tabGetD
  rw [slotsSwept_entry]
  obtain ⟨x, entry⟩ := Option.ne_none_iff_exists'.1 stored
  simp [entry, revoked]

theorem slotsSwept_kept {i : Nat} (w : Nat) (alive : chainRevoked 8 s i = false) : jslot (slotsSwept s w) i = jslot s i := by
  unfold jslot tabGetD
  rw [slotsSwept_entry]
  simp [alive]

/-- What the end of a sweep leaves of slots. -/
theorem sweep_slots {u : State} (slots : u.jwl.slots = (slotsSwept (s.begin t) w).jwl.slots) :
    (∀ i, tabGet s.jwl.slots i ≠ none → chainRevoked 8 s i = true → jslot u i = { jslot s i with state := 2, key := [] }) ∧
    (∀ i, chainRevoked 8 s i = false → jslot u i = jslot s i) := by
  have chain i : chainRevoked 8 (s.begin t) i = chainRevoked 8 s i := chainRevoked_congr rfl 8 i
  refine ⟨fun i stored revoked => ?_, fun i alive => ?_⟩
  · exact (jslot_congr slots i).trans (slotsSwept_revoked w stored ((chain i).trans revoked))
  · exact (jslot_congr slots i).trans (slotsSwept_kept w ((chain i).trans alive))

/-- What the end of a sweep shows in its window, and what it reports. -/
theorem sweepShown_kept {u : State} (kept : Kept (sweepShown (s.begin t) w k j) u) :
    u.get (Reg.JWL_CMD_busy w) = 0 ∧ u.get (Reg.JWL_CMD_result w) = 0 ∧ 192 ∈ u.hif.pend ∧ 198 ∈ u.hif.pend ∧
    u.get Reg.JWL_STATUS_sweep_busy = if (s.jwl.sweeps.filter (fun e => e.1 != w.val)).isEmpty then 0 else 1 := by
  obtain ⟨revoked, ended⟩ := sweepShown_pend (s.begin t) w k j
  refine ⟨?_, ?_, kept.pend _ revoked, kept.pend _ ended, ?_⟩
  · rw [kept.cmdBusy, sweepShown, jobApply_busy]
  · rw [kept.cmdResult, sweepShown, jobApply_result _ _ _ (by decide)]
  · rw [kept.get _ (by decide), sweepShown, jobApply_low _ _ _ _ (by decide), sweepReported, State.raise_get,
      State.get_setb_self]
    show (if !(s.jwl.sweeps.filter (fun e => e.1 != w.val)).isEmpty then 1 else 0) % 2 ^ 1 = _
    cases (s.jwl.sweeps.filter (fun e => e.1 != w.val)).isEmpty <;> rfl

theorem revocationSweepEnd_completes (h : s.settled) (sweep : s.jwl.sweeps.find? (fun e => e.1 == w.val) = some (w.val, k.val))
    (job : tabGet s.jwl.jobs w = some j) (rest : x = s.jwl.sweeps.filter (fun e => e.1 != w.val)) (more : x ≠ []) :
    completes (.revocationSweepEnd t w) s (fun u => u.get (Reg.JWL_CMD_busy w) = 0 ∧
      u.get (Reg.JWL_CMD_result w) = 0 ∧ 192 ∈ u.hif.pend ∧ 198 ∈ u.hif.pend ∧ u.get Reg.JWL_STATUS_sweep_busy = 1 ∧
      u.jwl.sweeps = x ∧ tabGet u.jwl.jobs w = none ∧ (∀ i, tabGet s.jwl.slots i ≠ none → chainRevoked 8 s i = true →
      jslot u i = { jslot s i with state := 2, key := [] }) ∧
      (∀ i, chainRevoked 8 s i = false → jslot u i = jslot s i)) := by
  subst rest
  have sweeps : (sweepShown (s.begin t) w k j).jwl.sweeps = s.jwl.sweeps.filter (fun e => e.1 != w.val) := sweepShown_sweeps ..
  have effect : revocationSweepEnd (s.begin t) w = sweepShown (s.begin t) w k j := by
    rw [revocationSweepEnd_eq (s := s.begin t) sweep job, sweeps, if_neg (by simpa using more)]
  obtain ⟨tx, power⟩ := sweepShown_quiet (s.begin t) w k j
  refine completes_act (f := fun s => revocationSweepEnd s w) rfl h ?_ ?_ (fun u kept => ?_)
  · rw [effect, tx]
    exact h.2.1
  · rw [effect, power]
    exact h.2.2
  · rw [effect] at kept
    obtain ⟨busy, result, revoked, ended, sweeping⟩ := sweepShown_kept kept
    obtain ⟨below, others⟩ := sweep_slots (s := s) ((congrArg Jwl.slots kept.jwl).trans (sweepShown_slots ..))
    refine ⟨busy, result, revoked, ended, ?_, ?_, ?_, below, others⟩
    · rw [sweeping, if_neg (by simpa using more)]
    · rw [kept.jwl, sweeps]
    · rw [kept.jwl, sweepShown_jobs]
      exact tabGet_del_self ..

theorem revocationSweepEnd_changes (h : s.settled) (sweep : s.jwl.sweeps = [(w.val, k.val)]) (job : s.jwl.jobs = [(w.val, j)])
    (digest : j.digest = none) (attrs : j.attrs = none) (attest : j.attest = none) :
    changes (.revocationSweepEnd t w) s ([Reg.JWL_CMD_result w,
      Reg.JWL_CMD_busy w, Reg.JWL_STATUS_sweep_busy,
      Reg.JWL_CACHE_entries] ++ (List.range 16).map (Reg.JWL_KEY_key w)) [] [.jwl] (fun u =>
      u.get (Reg.JWL_CMD_busy w) = 0 ∧ u.get (Reg.JWL_CMD_result w) = 0 ∧ u.get Reg.JWL_STATUS_sweep_busy = 0 ∧
      192 ∈ u.hif.pend ∧ 198 ∈ u.hif.pend ∧ u.jwl.jobs = [] ∧ u.jwl.sweeps = [] ∧ (∀ i, 2 ≤ i →
      tabGet s.jwl.slots i ≠ none → chainRevoked 8 s i = true →
      jslot u i = { jslot s i with state := 2, key := [] }) ∧
      (∀ i, chainRevoked 8 s i = false → jslot u i = jslot s i)) := by
  have left : s.jwl.sweeps.filter (fun e => e.1 != w.val) = [] := by simp [sweep]
  have sweeps : (sweepShown (s.begin t) w k j).jwl.sweeps = [] := (sweepShown_sweeps ..).trans left
  have jobs : (sweepShown (s.begin t) w k j).jwl.jobs = [] := (sweepShown_jobs ..).trans (by simp [tabDel, job])
  have effect : revocationSweepEnd (s.begin t) w = sweepShown (s.begin t) w k j := by
    rw [revocationSweepEnd_eq (s := s.begin t) (k := k) (j := j) (by simp [sweep]) (by simp [job, tabGet]), sweeps,
      if_pos List.isEmpty_nil, runWaiting, jobs, List.foldl_nil]
  have written := jobWritten_plain (sweepReported (s.begin t) w k) w digest attrs attest
  refine changes_of (f := fun s => revocationSweepEnd s w) rfl effect h (elsewhere_jobApply (written ▸ elsewhere_keyZeroed
    (.raise (.setb (.set (.onJwl (.start s t))))) (fun i hi => key_mem_range _ hi [_, _, _, _]))) (fun u kept => ?_)
  obtain ⟨busy, result, revoked, ended, sweeping⟩ := sweepShown_kept kept
  obtain ⟨below, others⟩ := sweep_slots (s := s) ((congrArg Jwl.slots kept.jwl).trans (sweepShown_slots ..))
  refine ⟨busy, result, ?_, revoked, ended, ?_, ?_, fun i _ => below i, others⟩
  · rw [sweeping, left]
    rfl
  · rw [kept.jwl, jobs]
  · rw [kept.jwl, sweeps]

/-- Settles O46: each command by its whole effect; a load and a derive fill their slot in one way (`slotFill_changes`), and the end
of a sweep is `sweepShown`, after which no job waits where none stands. -/
theorem keySlotsComplete : Obligations.KeySlotsComplete := fun _ _ _ _ h =>
  ⟨fun _ idle steady on own => load_changes h ⟨idle, steady, on, own⟩,
    fun _ idle steady on own => derive_changes h ⟨idle, steady, on, own⟩,
    fun idle steady on own => keyInvalidate_changes h ⟨idle, steady, on, own⟩,
    fun _ _ => revocationSweepEnd_completes h,
    fun _ sweep job _ => revocationSweepEnd_changes h sweep job,
    fun idle steady on own => readAttributes_changes h ⟨idle, steady, on, own⟩,
    fun _ _ => windowJobEnd_changes h,
    fun _ _ _ => windowJobEnd_changes_digest h⟩

end Sweep
end Sys2Proof.Machine
